-- ==== Sys2Proof/Word.lean ====
section
/-!
DEFINITION. The words and the sparse table type every other file uses (00 R7, R8).
-/
namespace Sys2Proof

/-- One byte. -/
abbrev Byte := BitVec 8

/-- A 64-bit word: a scalar register, a register of the map, a sync object's value. -/
abbrev Word := BitVec 64

/-- A sparse table from numbers to values: pairs with strictly rising keys, none equal to the value an
unlisted key reads as. Equal tables are equal lists. -/
abbrev FMap (α : Type) := List (Nat × α)

end Sys2Proof
end

