-- ==== Sys2Proof/Syntax.lean ====
section
/-!
DEFINITION. The commands the block takes, and the data they carry.
-/
namespace Sys2Proof

/-- Who accesses a register: function `fn` of the host (0 is PF0, 1 to 31 the VFs) or core `c` (the runtime). -/
inductive Agent where
  | host (fn : Nat)
  | core (c : Nat)
  deriving DecidableEq, Repr

/-- Packet types of 02 R39. -/
inductive PktOp where
  | read | narrowRead | write | writeMasked | atomic | engine | coh | syncOp | syncWake | dispatch
  | respData | respAck | respErr | respRetry | mgmt
  deriving DecidableEq, Repr

/-- A hub packet (02 R38): the header fields an endpoint uses, the payload bytes and one check word for each
whole sector. `rdLen` is a READ's length in bytes (02 R39 does not give its code in ADDR). -/
structure Pkt where
  op : PktOp
  src : Nat
  dst : Nat
  tid : Nat
  addr : Nat
  poison : Bool
  payload : List Byte
  checks : List (BitVec 32)
  rdLen : Nat
  deriving DecidableEq, Repr

/-- What the codes of a memory find when they read a sector (08 R253). -/
inductive DramErr where
  | none | corrected | uncorrectable
  deriving DecidableEq, Repr

/-- The sender of a link: the die or the hub (02 R46). -/
inductive Side where
  | die | hub
  deriving DecidableEq, Repr

/-- A slot's issue queues (03 R74). -/
inductive Queue where
  | matrix | vector | move | sync
  deriving DecidableEq, Repr

/-- Kinds of core access (11 R364): `vector` and `vectorStore` the vector loads and stores, `lrsc` an LR and `sc` an SC. -/
inductive AccKind where
  | load | store | amo | lrsc | vector | vectorStore | sc
  deriving DecidableEq, Repr

/-- Management packets (02 R39): heartbeat, telemetry, fence and calibration control. -/
inductive MgmtKind where
  | heartbeat | telemetry | fence | calibration
  deriving DecidableEq, Repr

/-- A firmware image (17 R582): header fields, payload and the two signatures. -/
structure FwImage where
  magic : Nat
  target : Nat
  svn : Nat
  version : Nat
  payload : List Byte
  rsaSig : List Byte
  slhSig : List Byte
  deriving DecidableEq, Repr

/-- An owner request as Ivory reads it (17 R599, R600). -/
structure OwnerReq where
  len : Nat
  cmd : Nat
  bodyLen : Nat
  reserved : Nat
  serial : Nat
  seq : Nat
  body : List Byte
  rsaSig : List Byte
  slhSig : List Byte
  deriving DecidableEq, Repr

/-- The widths both sides of a port advertise in a training (02 R53). -/
structure WidthAdv where
  port : Nat
  die : Nat
  hub : Nat
  deriving DecidableEq, Repr

/-- What the self-test of a tile finds (01 R32, R33): failed columns by array, failed banks, other faults. -/
structure TileFaults where
  pos : Nat
  cols : List Nat
  banks : Nat
  other : Bool
  deriving DecidableEq, Repr

/-- The PLDM sensors of 17 R608. -/
inductive Sensor where
  | inputPower | inputVoltage | inputEnergy | effectiveCap | floor
  | dieTemp (port : Nat) | stackTemp (stack : Nat) | deviceState | dieState (port : Nat)
  deriving DecidableEq, Repr

/-- A temperature sample of a die (15 R539). -/
structure TempReading where
  port : Nat
  temp : Nat
  deriving DecidableEq, Repr

/-- An event item (16 R559): class, priority, code, port when PV is 1, argument, and the words after TIME. -/
structure EvItem where
  cls : Nat
  pri : Nat
  code : Nat
  port : Option Nat
  arg : Nat
  extra : List Word
  deriving DecidableEq, Repr

/-- One translated unit of 4 KiB (10 R330, R335). -/
structure AtsUnit where
  unit : Nat
  addr : Nat
  r : Bool
  w : Bool
  deriving DecidableEq, Repr

/-- One translation of an ATS completion (10 R335): the first unit of the page it names, the 4 KiB units it spans, the address of the
first, and the permissions. -/
structure AtsTrans where
  unit : Nat
  span : Nat
  addr : Nat
  r : Bool
  w : Bool
  deriving DecidableEq, Repr

/-- One item of an update list (10 R341): its two words. -/
structure UpdItem where
  w0 : Word
  w1 : Word
  deriving DecidableEq, Repr

/-- One item of a redelivery list (12 R428). -/
structure RedelItem where
  seq : Nat
  ring : Nat
  region : Nat
  newAddr : Nat
  limit : Nat
  deriving DecidableEq, Repr

/-- The lists a descriptor names, as their bytes were read (13 R454): none where a list could not be read. -/
structure ListsRead where
  sync : Option (List Byte)
  regions : Option (List Byte)
  localSet : Option (List Byte)
  deriving DecidableEq, Repr

/-- Ranoa packet types (14 R492). -/
inductive ROp where
  | getReq | put | putMasked | getData | putAck | err | sbMsg | hello
  deriving DecidableEq, Repr

/-- A Ranoa packet (14 R490, R491). -/
structure RPkt where
  op : ROp
  poison : Bool
  status : Nat
  tid : Nat
  psn : Nat
  offset : Nat
  rdLen : Nat
  payload : List Byte
  checks : List (BitVec 32)
  deriving DecidableEq, Repr

/-- A side-band message (14 R514, 15 R532). -/
structure SbMsg where
  type : Nat
  hops : Nat
  group : Nat
  origin : Nat
  seq : Nat
  div : Nat
  power : Nat
  cap : Nat
  busy : Nat
  crit : Bool
  bal : Nat
  deriving DecidableEq, Repr

/-- The commands: one constructor per row of spec/opcode_table.json, in its order. -/
inductive Instr where
  /-- POWER_UP_START (R576). -/
  | powerUpStart (vin : Nat)
  /-- BOOT_ROM_LOADED (R576). -/
  | bootRomLoaded (img : Option FwImage)
  /-- IMAGE_VERIFIED (R583). -/
  | imageVerified
  /-- HOST_DIE_ENABLE (R576). -/
  | hostDieEnable
  /-- PACKAGE_RAIL_UP (R29). -/
  | packageRailUp
  /-- EMITTER_STABLE (R65). -/
  | emitterStable (standbyOk : Bool)
  /-- RING_CALIBRATION_DONE (R576). -/
  | ringCalibrationDone
  /-- LINKS_TRAINED (R51). -/
  | linksTrained (adv : List WidthAdv)
  /-- TILE_SELF_TEST_DONE (R33). -/
  | tileSelfTestDone (faults : List TileFaults)
  /-- HBM_TRAINED (R255). -/
  | hbmTrained (failed : List Nat)
  /-- HBM_INITIALISED (R254). -/
  | hbmInitialised
  /-- TIER_MOUNTED (R308). -/
  | tierMounted (ok0 ok1 : Bool)
  /-- CORE_SELF_TEST_DONE (R576). -/
  | coreSelfTestDone (passed : List Nat)
  /-- READY_SET (R579). -/
  | readySet
  /-- STARTUP_STOPPED (R579). -/
  | startupStopped (reason : Nat)
  /-- CONFIG_READY (R577). -/
  | configReady
  /-- CONFIG_REQUEST (R577). -/
  | configRequest (fn dword : Nat)
  /-- PERST_N_ASSERT (R417). -/
  | perstNAssert
  /-- PERST_N_DEASSERT (R577). -/
  | perstNDeassert
  /-- PWRBRK_N_ASSERT (R537). -/
  | pwrbrkNAssert
  /-- PWRBRK_N_RELEASE (R537). -/
  | pwrbrkNRelease
  /-- VIN36_OUT_OF_RANGE (R634). -/
  | vin36OutOfRange (vin : Nat)
  /-- VIN_LOW_TIMEOUT (R634). -/
  | vinLowTimeout
  /-- VIN_HIGH_TIMEOUT (R634). -/
  | vinHighTimeout
  /-- HUB_THERMTRIP_COMPARATOR (R542). -/
  | hubThermtripComparator
  /-- PLDM_FW_UPDATE (R585). -/
  | pldmFwUpdate
  /-- FW_IMAGE_RECEIVED (R585). -/
  | fwImageReceived (img : FwImage)
  /-- FW_PROGRAM_DONE (R585). -/
  | fwProgramDone (ok : Bool)
  /-- ACTIVATE_FIRMWARE (R585). -/
  | activateFirmware
  /-- RECOVERY_GO (R587). -/
  | recoveryGo (addr len : Nat)
  /-- RECOVERY_PROGRAM_DONE (R587). -/
  | recoveryProgramDone (img : Option FwImage)
  /-- SPDM_GET_CERTIFICATE (R590). -/
  | spdmGetCertificate (slot off len : Nat)
  /-- SPDM_CHALLENGE (R591). -/
  | spdmChallenge (req : List Byte)
  /-- SPDM_GET_MEASUREMENTS (R593). -/
  | spdmGetMeasurements (index : Nat) (req : List Byte)
  /-- SPDM_KEY_EXCHANGE (R591). -/
  | spdmKeyExchange (req : List Byte)
  /-- SPDM_VENDOR_DEFINED_REQUEST (R590). -/
  | spdmVendorDefinedRequest (vendor code off len : Nat)
  /-- IDE_KM_REQUEST (R415). -/
  | ideKmRequest (stream lo hi : Nat) (key : BitVec 256)
  /-- MCTP_CONTROL (R607). -/
  | mctpControl (eid : Nat)
  /-- PLDM_GET_SENSOR_READING (R608). -/
  | pldmGetSensorReading (sensor : Sensor)
  /-- PLDM_SET_NUMERIC_EFFECTER (R604). -/
  | pldmSetNumericEffecter (limit : Nat)
  /-- OWNER_SET (R601). -/
  | ownerSet (who : Agent) (req : Option OwnerReq)
  /-- SET_HARD_POWER (R601). -/
  | setHardPower (who : Agent) (req : Option OwnerReq)
  /-- SET_THERMAL (R601). -/
  | setThermal (who : Agent) (req : Option OwnerReq)
  /-- SET_PARTITION (R601). -/
  | setPartition (who : Agent) (req : Option OwnerReq)
  /-- DEBUG_UNLOCK (R601). -/
  | debugUnlock (who : Agent) (req : Option OwnerReq)
  /-- DEBUG_LOCK (R601). -/
  | debugLock (who : Agent) (req : Option OwnerReq)
  /-- SEAL (R625). -/
  | sealRegs (who : Agent)
  /-- WARMRESET (R618). -/
  | warmreset (who : Agent) (key : Nat)
  /-- HUB_HEARTBEAT_LOSS (R571). -/
  | hubHeartbeatLoss
  /-- HOST_FAIL_WARM_RESET (R571). -/
  | hostFailWarmReset
  /-- WARM_RESET_BEGIN (R571). -/
  | warmResetBegin
  /-- WARM_RESET_FENCED (R571). -/
  | warmResetFenced
  /-- WARM_RESET_HUB_READY (R571). -/
  | warmResetHubReady
  /-- WARM_RESET_DIES_RESET (R571). -/
  | warmResetDiesReset (adv : List WidthAdv)
  /-- WARM_RESET_HBM_TRAINED (R571). -/
  | warmResetHbmTrained (failed : List Nat)
  /-- WARM_RESET_HBM_INITIALISED (R571). -/
  | warmResetHbmInitialised
  /-- WARM_RESET_TIER_REMOUNTED (R572). -/
  | warmResetTierRemounted (bad : List Nat)
  /-- WARM_RESET_RUNTIME_STARTED (R571). -/
  | warmResetRuntimeStarted (passed : List Nat)
  /-- WARM_RESET_READY (R571). -/
  | warmResetReady
  /-- IVORY_DIE_STOP (R571). -/
  | ivoryDieStop
  /-- REGISTER_WRITE (R620). -/
  | registerWrite (who : Agent) (off size : Nat) (data : List Word)
  /-- BAR0_MALFORMED_ACCESS (R620). -/
  | bar0MalformedAccess (fn off : Nat) (isWrite : Bool)
  /-- CORE_RESERVED_REGISTER_ACCESS (R611). -/
  | coreReservedRegisterAccess (core addr : Nat) (isWrite : Bool)
  /-- IVR_INTERNAL_WRITE (R594). -/
  | ivrInternalWrite (core off : Nat)
  /-- READ (R39). -/
  | read (p : Pkt) (e : DramErr)
  /-- NARROW_READ (R270). -/
  | narrowRead (p : Pkt) (e : DramErr)
  /-- WRITE (R231). -/
  | write (p : Pkt)
  /-- WRITE_MASKED (R40). -/
  | writeMasked (p : Pkt) (e : DramErr)
  /-- READ_WAIT_TURN_TIMEOUT (R262). -/
  | readWaitTurnTimeout (stack pc : Nat)
  /-- ATOMIC_SWAP (R268). -/
  | atomicSwap (p : Pkt) (e : DramErr)
  /-- ATOMIC_ADD (R268). -/
  | atomicAdd (p : Pkt) (e : DramErr)
  /-- ATOMIC_AND (R268). -/
  | atomicAnd (p : Pkt) (e : DramErr)
  /-- ATOMIC_OR (R268). -/
  | atomicOr (p : Pkt) (e : DramErr)
  /-- ATOMIC_XOR (R268). -/
  | atomicXor (p : Pkt) (e : DramErr)
  /-- ATOMIC_MIN (R268). -/
  | atomicMin (p : Pkt) (e : DramErr)
  /-- ATOMIC_MAX (R268). -/
  | atomicMax (p : Pkt) (e : DramErr)
  /-- ATOMIC_MINU (R268). -/
  | atomicMinu (p : Pkt) (e : DramErr)
  /-- ATOMIC_MAXU (R268). -/
  | atomicMaxu (p : Pkt) (e : DramErr)
  /-- GATHER_ROWS (R272). -/
  | gatherRows (p : Pkt) (e : DramErr)
  /-- SCATTER_ADD (R273). -/
  | scatterAdd (p : Pkt) (e : DramErr)
  /-- REDUCE (R276). -/
  | reduce (core stack tag : Nat)
  /-- KV_APPEND (R277). -/
  | kvAppend (core stack tag : Nat)
  /-- STACK_CMD_RESULT (R278). -/
  | stackCmdResult (core stack : Nat)
  /-- DISPATCH (R39). -/
  | dispatch (pos ring seq part : Nat)
  /-- RESP_DATA (R39). -/
  | respData (p : Pkt)
  /-- RESP_ACK (R231). -/
  | respAck (p : Pkt)
  /-- RESP_ERR (R60). -/
  | respErr (p : Pkt)
  /-- RESP_RETRY (R375). -/
  | respRetry (p : Pkt)
  /-- MGMT (R39). -/
  | mgmt (src dst : Nat) (kind : MgmtKind)
  /-- LINK_ACK (R46). -/
  | linkAck (port : Nat) (side : Side) (seq : Nat)
  /-- LINK_NAK (R46). -/
  | linkNak (port : Nat) (side : Side)
  /-- CREDIT_RETURN (R45). -/
  | creditReturn (port : Nat) (side : Side) (dst vc n : Nat)
  /-- HEARTBEAT (R47). -/
  | heartbeat (port : Nat) (side : Side)
  /-- EPOCH_CHANGE (R48). -/
  | epochChange (port : Nat)
  /-- ACK_OVERDUE (R46). -/
  | ackOverdue (port : Nat) (side : Side)
  /-- HEARTBEAT_SEND (R47). -/
  | heartbeatSend (port : Nat) (side : Side)
  /-- CARRIER_LOSS_TIMEOUT (R47). -/
  | carrierLossTimeout (port : Nat)
  /-- FAST_RETRAIN_DONE (R51). -/
  | fastRetrainDone (port advDie advHub : Nat)
  /-- FULL_TRAINING_DONE (R51). -/
  | fullTrainingDone (port advDie advHub : Nat)
  /-- RETRAIN_TIMEOUT (R55). -/
  | retrainTimeout (port : Nat)
  /-- FENCE_COMPLETE (R58). -/
  | fenceComplete (port : Nat)
  /-- TARGET_TIMEOUT (R61). -/
  | targetTimeout (src tid : Nat)
  /-- TIER_WAIT_TIMEOUT (R61). -/
  | tierWaitTimeout (src tid : Nat)
  /-- CALIBRATION_PAUSE (R63). -/
  | calibrationPause (port : Nat)
  /-- CALIBRATION_RESUME (R63). -/
  | calibrationResume (port : Nat)
  /-- EMITTER_FAILURE (R65). -/
  | emitterFailure
  /-- ROOT_CLOCK_LOSS (R66). -/
  | rootClockLoss (site : Option Nat)
  /-- ROOT_CLOCK_RETURN (R66). -/
  | rootClockReturn (site : Option Nat)
  /-- HOLDOVER_EXPIRED (R66). -/
  | holdoverExpired (port : Nat)
  /-- HUB_LINKERR_READ (R70). -/
  | hubLinkerrRead (who : Agent) (port : Nat)
  /-- NOP (R157). -/
  | nop (pos slot : Nat)
  /-- LI (R157). -/
  | li (pos slot : Nat)
  /-- ALU (R158). -/
  | alu (pos slot : Nat)
  /-- ALUI (R158). -/
  | alui (pos slot : Nat)
  /-- BR (R159). -/
  | br (pos slot : Nat)
  /-- JMP (R157). -/
  | jmp (pos slot : Nat)
  /-- LOOP (R163). -/
  | loop (pos slot : Nat)
  /-- LSET (R160). -/
  | lset (pos slot : Nat)
  /-- LADD (R157). -/
  | ladd (pos slot : Nat)
  /-- LCPY (R157). -/
  | lcpy (pos slot : Nat)
  /-- RDSTAT (R157). -/
  | rdstat (pos slot : Nat)
  /-- CLRSTAT (R152). -/
  | clrstat (pos slot : Nat)
  /-- RDCTL (R157). -/
  | rdctl (pos slot : Nat)
  /-- WRCTL (R151). -/
  | wrctl (pos slot : Nat)
  /-- SYSRD (R161). -/
  | sysrd (pos slot : Nat)
  /-- FENCE (R211). -/
  | fence (pos slot : Nat)
  /-- HINT (R212). -/
  | hint (pos slot : Nat)
  /-- EXIT (R213). -/
  | exit (pos slot : Nat)
  /-- MMA (R167). -/
  | mma (pos slot : Nat)
  /-- MDRAIN (R174). -/
  | mdrain (pos slot : Nat)
  /-- VLD (R187). -/
  | vld (pos slot : Nat)
  /-- VST (R187). -/
  | vst (pos slot : Nat)
  /-- VOP (R180). -/
  | vop (pos slot : Nat)
  /-- VOPS (R180). -/
  | vops (pos slot : Nat)
  /-- VCMP (R182). -/
  | vcmp (pos slot : Nat)
  /-- VMASK (R183). -/
  | vmask (pos slot : Nat)
  /-- VRED (R184). -/
  | vred (pos slot : Nat)
  /-- VSFU (R185). -/
  | vsfu (pos slot : Nat)
  /-- VCVT (R186). -/
  | vcvt (pos slot : Nat)
  /-- LOAD (R191). -/
  | load (pos slot : Nat)
  /-- STORE (R191). -/
  | store (pos slot : Nat)
  /-- GATHER (R196). -/
  | gather (pos slot : Nat)
  /-- SCATTERADD (R198). -/
  | scatteradd (pos slot : Nat)
  /-- XPREF (R200). -/
  | xpref (pos slot : Nat)
  /-- PUT (R202). -/
  | put (pos slot : Nat)
  /-- GET (R202). -/
  | get (pos slot : Nat)
  /-- SIGNAL (R207). -/
  | signal (pos slot : Nat)
  /-- RSIGNAL (R208). -/
  | rsignal (pos slot : Nat)
  /-- WAIT (R209). -/
  | wait (pos slot : Nat)
  /-- TOKSET (R210). -/
  | tokset (pos slot : Nat)
  /-- TOKWAIT (R210). -/
  | tokwait (pos slot : Nat)
  /-- QUEUE_INSTR_START (R75). -/
  | queueInstrStart (pos slot : Nat) (q : Queue)
  /-- RSIGNAL_SEND (R208). -/
  | rsignalSend (pos slot : Nat)
  /-- MATRIX_INSTR_COMPLETE (R172). -/
  | matrixInstrComplete (pos slot id : Nat)
  /-- VECTOR_INSTR_COMPLETE (R76). -/
  | vectorInstrComplete (pos slot : Nat)
  /-- INBOUND_MOVE_COMPLETE (R76). -/
  | inboundMoveComplete (pos slot id : Nat)
  /-- OUTBOUND_MOVE_COMPLETE (R76). -/
  | outboundMoveComplete (pos slot id : Nat)
  /-- SYNC_INSTR_COMPLETE (R76). -/
  | syncInstrComplete (pos slot id : Nat)
  /-- XPREF_COMPLETE (R201). -/
  | xprefComplete (pos slot id : Nat)
  /-- GATHER_LIST_READ (R196). -/
  | gatherListRead (pos slot id : Nat)
  /-- SLOT_END (R213). -/
  | slotEnd (pos slot : Nat)
  /-- PROGRAM_HEADER_READ (R148). -/
  | programHeaderRead (pos slot : Nat) (hdr : List Byte)
  /-- PROGRAM_LOADED (R148). -/
  | programLoaded (pos slot : Nat) (words : List (BitVec 128))
  /-- ZEROING_DONE (R103). -/
  | zeroingDone (pos slot : Nat)
  /-- SYNC_ADD (R216). -/
  | syncAdd (src tid obj : Nat) (v : Word)
  /-- SYNC_SET (R216). -/
  | syncSet (src tid obj : Nat) (v : Word)
  /-- SYNC_WAIT_GE (R216). -/
  | syncWaitGe (src tid obj : Nat) (v : Word)
  /-- SYNC_WAIT_EQ (R216). -/
  | syncWaitEq (src tid obj : Nat) (v : Word)
  /-- SYNC_READ (R216). -/
  | syncRead (src tid obj fn : Nat)
  /-- SYNC_WAKE (R217). -/
  | syncWake (dst tid : Nat) (v : Word)
  /-- SYNC_VALUE_WRITE (R224). -/
  | syncValueWrite (who : Agent) (obj : Nat) (v : Word)
  /-- AMOADD_D (R224). -/
  | amoaddD (core obj : Nat) (v : Word)
  /-- CORE_SYNC_BAD_ACCESS (R227). -/
  | coreSyncBadAccess (core addr : Nat) (kind : AccKind)
  /-- SYNC_STAT_READ (R226). -/
  | syncStatRead (who : Agent) (obj : Nat)
  /-- ARRIVAL_COUNT_ADD (R228). -/
  | arrivalCountAdd (id : Nat)
  /-- REFRESH (R260). -/
  | refresh (stack pc bank : Nat)
  /-- PATROL_SCRUB (R261). -/
  | patrolScrub (stack : Nat) (e : DramErr)
  /-- STACK_TEMP_SAMPLE (R265). -/
  | stackTempSample (stack temp : Nat)
  /-- MAPOUT_START (R256). -/
  | mapoutStart (slot : Nat)
  /-- MAPOUT_EVICT_DONE (R256). -/
  | mapoutEvictDone
  /-- MAPOUT_MAP_DISTRIBUTED (R257). -/
  | mapoutMapDistributed
  /-- MAPOUT_COMPLETE (R256). -/
  | mapoutComplete
  /-- LAYER_FAILURE (R253). -/
  | layerFailure (stack layer : Nat)
  /-- STACK_RECOVERY_START (R266). -/
  | stackRecoveryStart (stack : Nat)
  /-- STACK_RECOVERY_DONE (R266). -/
  | stackRecoveryDone (stack : Nat) (ok : Bool) (failed : List Nat)
  /-- MEM_ERR_READ (R284). -/
  | memErrRead (who : Agent) (stack : Nat)
  /-- POOL_FILL_DONE (R289). -/
  | poolFillDone (die sector : Nat)
  /-- POOL_HANDBACK_DONE (R289). -/
  | poolHandbackDone (die sector : Nat)
  /-- POOL_DIRTY_MARK_DONE (R293). -/
  | poolDirtyMarkDone (die unit : Nat)
  /-- POOL_DIE_FAILURE (R298). -/
  | poolDieFailure (die : Nat)
  /-- POOL_DIE_RECOVERY_DONE (R298). -/
  | poolDieRecoveryDone (die : Nat) (ok : Bool)
  /-- MEM_POOLSTAT_READ (R318). -/
  | memPoolstatRead (who : Agent) (die : Nat)
  /-- TIER_MAP_MISS (R301). -/
  | tierMapMiss (tile : Nat)
  /-- TIER_MAP_REPLY (R301). -/
  | tierMapReply (tile : Nat)
  /-- FRAME_EVICTION_DONE (R304). -/
  | frameEvictionDone (frame : Nat)
  /-- TIER_FETCH_DONE (R301). -/
  | tierFetchDone (tile : Nat) (bad : List Nat)
  /-- PART_OPEN_RECORDED (R303). -/
  | partOpenRecorded (part : Nat)
  /-- FLASH_PROGRAM_DONE (R304). -/
  | flashProgramDone (part block : Nat)
  /-- TIER_BACKGROUND_WRITEBACK (R306). -/
  | tierBackgroundWriteback
  /-- TIER_FLUSH (R306). -/
  | tierFlush (who : Agent)
  /-- TIER_FLUSH_DONE (R306). -/
  | tierFlushDone
  /-- TIER_PIN_SET (R305). -/
  | tierPinSet (who : Agent) (n first count : Nat)
  /-- TIER_PIN_CLEAR (R305). -/
  | tierPinClear (who : Agent) (n : Nat)
  /-- TIER_PIN_RESIDENT (R305). -/
  | tierPinResident (n : Nat)
  /-- WEAR_LEVELLING (R311). -/
  | wearLevelling (die fromBlock toBlock : Nat)
  /-- READ_DISTURB_RELOCATE (R311). -/
  | readDisturbRelocate (die block : Nat)
  /-- BAD_BLOCK_RETIRE (R311). -/
  | badBlockRetire (die block repl spare : Nat)
  /-- TIER_DIE_FAILURE (R314). -/
  | tierDieFailure (die : Nat)
  /-- TIER_DIE_READ (R320). -/
  | tierDieRead (who : Agent) (die : Nat)
  /-- TABLE_WALK_DONE (R331). -/
  | tableWalkDone (ctx page reason : Nat)
  /-- ATS_COMPLETION (R335). -/
  | atsCompletion (ctx page : Nat) (parts : List AtsTrans)
  /-- PRI_RESPONSE (R336). -/
  | priResponse (ctx page unit : Nat) (ok : Bool)
  /-- ATS_INVALIDATE_REQUEST (R337). -/
  | atsInvalidateRequest (fn tag dva bytes : Nat)
  /-- ATS_INVALIDATE_DONE (R337). -/
  | atsInvalidateDone (fn tag : Nat)
  /-- XLT_RESUME (R355). -/
  | xltResume (who : Agent) (ctx : Nat)
  /-- FAULT_TIMEOUT (R350). -/
  | faultTimeout (ctx page : Nat)
  /-- XLT_STAT_READ (R356). -/
  | xltStatRead (who : Agent)
  /-- XLT_FRCTL_READ (R360). -/
  | xltFrctlRead (who : Agent) (ctx : Nat)
  /-- CFENCE (R384). -/
  | cfence (core : Nat)
  /-- CFENCE_COMPLETE (R384). -/
  | cfenceComplete (core : Nat)
  /-- CORE_IO_STORE_ERROR (R386). -/
  | coreIoStoreError (core addr reason : Nat)
  /-- CORE_IO_LOAD_POISON (R387). -/
  | coreIoLoadPoison (core addr reason : Nat)
  /-- POISON_EXCEPTION (R387). -/
  | poisonException (core addr : Nat)
  /-- SERRSTAT_CLEAR (R389). -/
  | serrstatClear (core : Nat) (mask : Word)
  /-- CORE_ACCESS_FAULT (R364). -/
  | coreAccessFault (core addr size : Nat) (kind : AccKind)
  /-- CBO_ZERO (R367). -/
  | cboZero (core addr : Nat)
  /-- DIRTY_LINE_EVICT (R366). -/
  | dirtyLineEvict (die addr : Nat) (data : List Byte)
  /-- CACHE_PARITY_ERROR (R368). -/
  | cacheParityError (core addr : Nat) (instr : Bool)
  /-- CACHE_DATA_ERROR (R368). -/
  | cacheDataError (die addr : Nat) (correctable : Bool)
  /-- CACHE_TAG_ERROR (R368). -/
  | cacheTagError (die addr : Nat)
  /-- CORE_DIE_MACHINE_CHECK (R390). -/
  | coreDieMachineCheck (die : Nat) (core : Option Nat)
  /-- CORE_DIE_POISON_DONE (R391). -/
  | coreDiePoisonDone (die : Nat)
  /-- CORE_DIE_RESET_DONE (R391). -/
  | coreDieResetDone (die : Nat)
  /-- CORE_DIE_RECOVERY_DONE (R391). -/
  | coreDieRecoveryDone (die : Nat) (ok : Bool)
  /-- RD_S (R374). -/
  | rdS (p : Pkt) (e : DramErr)
  /-- RD_X (R374). -/
  | rdX (p : Pkt) (e : DramErr)
  /-- UPG (R374). -/
  | upg (p : Pkt) (e : DramErr)
  /-- ZERO (R367). -/
  | zero (p : Pkt)
  /-- EVN (R370). -/
  | evn (p : Pkt)
  /-- SNP_INV (R376). -/
  | snpInv (p : Pkt) (data : List Byte)
  /-- SNP_SHR (R376). -/
  | snpShr (p : Pkt) (data : List Byte)
  /-- SNP_FWD (R372). -/
  | snpFwd (p : Pkt)
  /-- COH_RESEND (R375). -/
  | cohResend (die addr : Nat)
  /-- ROUTER_SOURCE_EVENT (R394). -/
  | routerSourceEvent (die src : Nat)
  /-- ROUTER_TIME_EXPIRY (R394). -/
  | routerTimeExpiry (die src : Nat)
  /-- ROUTER_DELIVERY (R395). -/
  | routerDelivery (die : Nat)
  /-- EVT_ICLAIM_READ (R397). -/
  | evtIclaimRead (core of : Nat)
  /-- EVT_ICLAIM_WRITE (R398). -/
  | evtIclaimWrite (core of : Nat) (v : Word)
  /-- EVT_ITHR_WRITE (R396). -/
  | evtIthrWrite (core of : Nat) (v : Word)
  /-- EVT_ISTAT_SET (R393). -/
  | evtIstatSet (core die src : Nat)
  /-- EVT_ISTAT_PENDING_CLEAR (R407). -/
  | evtIstatPendingClear (core die src : Nat)
  /-- EVT_ISRC_WRITE (R396). -/
  | evtIsrcWrite (core die src : Nat) (v : Word)
  /-- CORE_FIFO_INSERT (R401). -/
  | coreFifoInsert (die : Nat) (ev : EvItem)
  /-- EVT_CPOP_READ (R402). -/
  | evtCpopRead (core die : Nat)
  /-- EVT_CCTL_FLUSH (R404). -/
  | evtCctlFlush (core die : Nat)
  /-- EVT_CSTAT_READ (R405). -/
  | evtCstatRead (core die : Nat)
  /-- DL_DOWN (R417). -/
  | dlDown
  /-- HOT_RESET (R417). -/
  | hotReset
  /-- FLR_PF0 (R417). -/
  | flrPf0
  /-- FLR_VF (R417). -/
  | flrVf (fn : Nat)
  /-- LINK_RECOVERY_ENTER (R416). -/
  | linkRecoveryEnter
  /-- LINK_L0_RETURN (R416). -/
  | linkL0Return (speed width : Nat) (flit : Bool)
  /-- TLP_ACKED (R419). -/
  | tlpAcked
  /-- OPEN (R424). -/
  | openSession (who : Agent) (fn : Nat)
  /-- CLAIM (R425). -/
  | claim (who : Agent) (fn : Nat)
  /-- CLAIM_DONE (R425). -/
  | claimDone (fn : Nat)
  /-- CLAIM_REFUSAL_END (R426). -/
  | claimRefusalEnd (fn : Nat)
  /-- RELEASE (R427). -/
  | release (who : Agent) (fn : Nat)
  /-- HOLD_EXPIRY (R427). -/
  | holdExpiry (fn : Nat)
  /-- REDELIVER (R428). -/
  | redeliver (who : Agent) (fn n : Nat) (items : List RedelItem)
  /-- REDELIVER_ITEM_DONE (R428). -/
  | redeliverItemDone (fn : Nat)
  /-- HIF_SESSCTL_READ (R437). -/
  | hifSessctlRead (who : Agent) (fn : Nat)
  /-- HIF_LINKSTAT_READ (R435). -/
  | hifLinkstatRead (who : Agent)
  /-- PLACEMENT_WRITE (R431). -/
  | placementWrite (rid off : Nat) (data : List Byte) (ep : Bool)
  /-- IDE_CHECK_FAIL (R415). -/
  | ideCheckFail (rid off : Nat) (placement : Bool)
  /-- BAR2_READ (R432). -/
  | bar2Read (rid off : Nat)
  /-- HIF_PLOG_READ (R438). -/
  | hifPlogRead (who : Agent)
  /-- HIF_PLAP_VALID_SET (R430). -/
  | hifPlapValidSet (who : Agent) (n : Nat) (v : Word)
  /-- HIF_PLAP_VALID_CLEAR (R434). -/
  | hifPlapValidClear (who : Agent) (n : Nat)
  /-- PLACEMENT_DRAIN_DONE (R434). -/
  | placementDrainDone (n : Nat)
  /-- STAGED_OUTPUT_COPY (R421). -/
  | stagedOutputCopy (ring seq region : Nat)
  /-- STAGED_COPY_FREED (R421). -/
  | stagedCopyFreed (ring seq region : Nat)
  /-- CROSS_PATH_FLUSH_DONE (R242). -/
  | crossPathFlushDone (ring seq : Nat)
  /-- DOORBELL_POLL (R448). -/
  | doorbellPoll
  /-- DOORBELL_LINE_READ (R448). -/
  | doorbellLineRead (fn line : Nat) (bits : BitVec 512)
  /-- PROD_READ (R448). -/
  | prodRead (ring : Nat) (prod cons : Nat)
  /-- DEVMEM_RING_NOTIFY (R453). -/
  | devmemRingNotify (ring : Nat)
  /-- DESCRIPTOR_FETCHED (R454). -/
  | descriptorFetched (ring : Nat) (desc : List Byte) (lists : ListsRead)
  /-- JOURNAL_ENTRY_ACKED (R455). -/
  | journalEntryAcked (ring : Nat)
  /-- RUN (R468). -/
  | run (ring : Nat)
  /-- COPY (R462). -/
  | copy (ring : Nat)
  /-- FILL (R462). -/
  | fill (ring : Nat)
  /-- WAIT_DESCRIPTOR (R463). -/
  | waitDescriptor (ring : Nat)
  /-- SIGNAL_DESCRIPTOR (R463). -/
  | signalDescriptor (ring : Nat)
  /-- HINT_DESCRIPTOR (R463). -/
  | hintDescriptor (ring : Nat)
  /-- BARRIER (R463). -/
  | barrier (ring : Nat)
  /-- MIGRATE (R351). -/
  | migrate (ring : Nat)
  /-- MIGRATE_COPY_DONE (R351). -/
  | migrateCopyDone (ring seq : Nat) (data : List Byte)
  /-- MIGRATE_BACK_DONE (R352). -/
  | migrateBackDone (ring seq : Nat)
  /-- INVALIDATE (R343). -/
  | invalidate (ring : Nat) (items : List UpdItem)
  /-- UPDATE_ITEM_APPLIED (R342). -/
  | updateItemApplied (ring seq reason : Nat)
  /-- INVALIDATE_DRAIN_DONE (R343). -/
  | invalidateDrainDone (ring seq : Nat)
  /-- HEAD_TIMEOUT (R467). -/
  | headTimeout (ring seq : Nat)
  /-- RESOURCE_WAIT_LIMIT (R469). -/
  | resourceWaitLimit (ring : Nat)
  /-- CHECKPOINT_DONE (R471). -/
  | checkpointDone (ring seq : Nat)
  /-- COMMAND_COMPLETE (R466). -/
  | commandComplete (ring seq : Nat)
  /-- RECORD_WRITE (R475). -/
  | recordWrite (ring : Nat)
  /-- RING_ENABLE (R446). -/
  | ringEnable (who : Agent) (ring : Nat)
  /-- RING_DISABLE (R446). -/
  | ringDisable (who : Agent) (ring : Nat)
  /-- CTX_RCTL_RESET (R446). -/
  | ctxRctlReset (who : Agent) (ring : Nat)
  /-- CTX_CFG_WRITE (R442). -/
  | ctxCfgWrite (who : Agent) (ctx : Nat) (v : Word)
  /-- CTX_RSTAT_READ (R446). -/
  | ctxRstatRead (who : Agent) (ring : Nat)
  /-- MSIX_EVENT (R478). -/
  | msixEvent (fn vec : Nat)
  /-- MSIX_TIME_EXPIRY (R478). -/
  | msixTimeExpiry (fn vec : Nat)
  /-- MSIX_UNMASK (R478). -/
  | msixUnmask (fn vec : Nat)
  /-- HOST_FIFO_INSERT (R482). -/
  | hostFifoInsert (ev : EvItem)
  /-- EVT_POP_READ (R483). -/
  | evtPopRead (who : Agent)
  /-- EVT_CTL_FLUSH (R485). -/
  | evtCtlFlush (who : Agent)
  /-- EVT_LOST_READ (R486). -/
  | evtLostRead (who : Agent)
  /-- EVENT_SECOND_END (R561). -/
  | eventSecondEnd
  /-- GET_REQ (R508). -/
  | getReq (port : Nat) (r : RPkt)
  /-- RANOA_PUT (R505). -/
  | ranoaPut (port : Nat) (r : RPkt)
  /-- RANOA_PUT_MASKED (R505). -/
  | ranoaPutMasked (port : Nat) (r : RPkt)
  /-- GET_DATA (R507). -/
  | getData (port : Nat) (r : RPkt)
  /-- PUT_ACK (R506). -/
  | putAck (port : Nat) (r : RPkt)
  /-- ERR (R509). -/
  | err (port : Nat) (r : RPkt)
  /-- SB_MSG (R514). -/
  | sbMsg (port : Nat) (m : SbMsg)
  /-- HELLO (R496). -/
  | hello (port serial peerPort lanes : Nat)
  /-- RANOA_LINK_ACK (R494). -/
  | ranoaLinkAck (port lseq : Nat)
  /-- RANOA_LINK_NAK (R494). -/
  | ranoaLinkNak (port : Nat)
  /-- RANOA_CREDIT_RETURN (R493). -/
  | ranoaCreditReturn (port vc n : Nat)
  /-- RANOA_HEARTBEAT (R495). -/
  | ranoaHeartbeat (port corrected : Nat)
  /-- RANOA_HEARTBEAT_SEND (R495). -/
  | ranoaHeartbeatSend (port : Nat)
  /-- RANOA_ACK_OVERDUE (R494). -/
  | ranoaAckOverdue (port : Nat)
  /-- RANOA_SILENCE_TIMEOUT (R495). -/
  | ranoaSilenceTimeout (port : Nat)
  /-- RANOA_LANE_FAILURE (R489). -/
  | ranoaLaneFailure (port lane : Nat) (tx : Bool)
  /-- RANOA_LIGHT_DETECT (R496). -/
  | ranoaLightDetect (port : Nat)
  /-- RANOA_OP_TIMEOUT (R513). -/
  | ranoaOpTimeout (port : Nat)
  /-- PUT_ACK_SEND (R506). -/
  | putAckSend (port : Nat)
  /-- SB_MSG_SEND (R514). -/
  | sbMsgSend (busy : Nat)
  /-- RNA_WOFF_VALID_SET (R501). -/
  | rnaWoffValidSet (who : Agent) (i : Nat) (v : Word)
  /-- RNA_WOFF_VALID_CLEAR (R504). -/
  | rnaWoffValidClear (who : Agent) (i : Nat)
  /-- RANOA_WINDOW_DRAIN_DONE (R504). -/
  | ranoaWindowDrainDone (i : Nat)
  /-- RNA_LOG_READ (R517). -/
  | rnaLogRead (who : Agent)
  /-- RNA_PERR_READ (R518). -/
  | rnaPerrRead (who : Agent) (port : Nat)
  /-- FAST_LOOP_TICK (R526). -/
  | fastLoopTick (watts : Nat)
  /-- SLOW_LOOP_TICK (R526). -/
  | slowLoopTick (watts vin : Nat)
  /-- FLOOR_RECOMPUTE (R529). -/
  | floorRecompute (floor : Nat)
  /-- PWR_CTL_WRITE (R523). -/
  | pwrCtlWrite (who : Agent) (v : Word)
  /-- PWR_CAP_WRITE (R546). -/
  | pwrCapWrite (who : Agent) (v : Word)
  /-- PWR_GROUP_WRITE (R531). -/
  | pwrGroupWrite (who : Agent) (v : Word)
  /-- HINT_PHASE_START (R530). -/
  | hintPhaseStart (tile : Nat)
  /-- HINT_LAPSE (R530). -/
  | hintLapse (tile : Nat)
  /-- TEMP_SAMPLE (R539). -/
  | tempSample (temps : List TempReading)
  /-- CORE_THROTTLE_STEP (R541). -/
  | coreThrottleStep (die : Nat)
  /-- GROUP_MEMBER_SILENT (R533). -/
  | groupMemberSilent (origin : Nat)
  /-- RUN_TIMEOUT_SUSPECT (R563). -/
  | runTimeoutSuspect (ring seq : Nat)
  /-- TILE_RESET_DONE (R563). -/
  | tileResetDone (pos : Nat) (ok : Bool)
  /-- REPLAY_START (R568). -/
  | replayStart (ring seq : Nat)
  /-- REPLAY_TIMEOUT (R565). -/
  | replayTimeout (ring seq : Nat)
  /-- TILE_DIE_FAILURE (R14). -/
  | tileDieFailure (pos : Nat)
  /-- TILE_RECOVERY_DONE (R55). -/
  | tileRecoveryDone (pos : Nat) (ok : Bool)
  /-- JOURNAL_MIRROR_REBUILD (R572). -/
  | journalMirrorRebuild (mirror : Nat)
  /-- LINK_CRC_ERROR (R46). -/
  | linkCrcError (port : Nat) (side : Side) (hdr : BitVec 128) (body : List Byte) (crc : BitVec 32)
  /-- RANOA_LINK_CRC_ERROR (R494). -/
  | ranoaLinkCrcError (port : Nat) (hdr : BitVec 256) (body : List Byte) (crc : BitVec 32) (uncorr : Nat)
  /-- HUB_LANE_FAILURE (R52). -/
  | hubLaneFailure (port waveguide : Nat)
  /-- HOST_DIE_FAILURE (R34). -/
  | hostDieFailure
  /-- RANOA_DIE_FAILURE (R34). -/
  | ranoaDieFailure (die : Nat)
  /-- HOST_READ_COMPLETION (R552). -/
  | hostReadCompletion (tag : Nat) (data : List Byte) (ok : Bool)
  /-- SEAL_COMPLETE (R625). -/
  | sealComplete
  deriving DecidableEq, Repr

end Sys2Proof
end

