-- ==== Sys2Proof/Decode.lean ====
section
/-!
DEFINITION. The commands a word spells. The table of operations and events gives no row any bits, so no word spells
a command (log 5).
-/
namespace Sys2Proof

/-- The command that the word `w` of `nbits` bits spells by the table's bits: none, since no row has bits. -/
def decodeTableWord (nbits w : Nat) : Option Instr :=
  match nbits, w with
  | _, _ => none

end Sys2Proof
end

