-- ==== Sys2Proof/Config.lean ====
section
/-!
DEFINITION. What an implementation fixes and the manual leaves open: free values, each a constant without a
body, so that nothing can be proved of its value (log 2, 12, 13, 14, 46, 47, 60).
-/
namespace Sys2Proof.Config

/-- A free 64-bit value: the first argument is the draw (State.free), the second says what it is for; log 2 lists the kinds. -/
opaque freeWord : Nat → Nat → Word

/-- A free byte at a device address whose contents a rule calls undefined (05 R155, 13 R470). -/
opaque freeByte : Nat → Nat → Byte

/-- Which of the FP32 values within the accuracy of 03 R99 a special function gives, by function and input: the tables and
polynomial steps of 03 R100 are not given. -/
opaque sfuPick : Nat → BitVec 32 → Nat

/-- The set of a pool die that a 64 B line maps to (09 R287: fixed by the hardware, not given). -/
opaque poolSet : Nat → Nat

/-- Link features of the hub protocol by port, revision letter and digit, one bit for each (01 R24 gives the rule, not the
features; log 60). -/
opaque linkFeatures : Nat → Nat → Nat → Nat
/-- Is the revision of the die at a port the older side of its link, beside the hub's revision (01 R24; log 60)? -/
opaque olderThanHub : Nat → Nat → Nat → Nat → Nat → Bool
/-- The code of a READ's length in the low six bits of ADDR, whose coding 02 R39 does not give (log 60). -/
opaque readLenCode : Nat → BitVec 6

/-- The first six bytes of a link control word, by its kind and values, whose layout 02 R39 and 14 R490 do not give (log 60). -/
opaque ctlBody : Nat → List Nat → BitVec 48
/-- The 16-bit CRC that protects a link control word; its polynomial is not given (02 R39, 14 R490; log 60). -/
opaque ctlCrc : BitVec 48 → BitVec 16

/-- SHA-384 of a byte string (17 R593, 18 R625). -/
opaque sha384 : List Byte → BitVec 384
/-- Does the RSASSA-PSS signature verify over the bytes under a chain to the Kravel root (17 R583)? -/
opaque kravelRsaOk : List Byte → List Byte → Bool
/-- Does the SLH-DSA signature verify over the bytes under a chain to the Kravel root (17 R583)? -/
opaque kravelSlhOk : List Byte → List Byte → Bool
/-- RSA verification of an owner request under the owner's modulus (17 R598, R600). -/
opaque rsaOk : BitVec 3072 → List Byte → List Byte → Bool
/-- SLH-DSA verification of an owner request under the owner's public key (17 R598, R600). -/
opaque slhOk : BitVec 256 → List Byte → List Byte → Bool
/-- The signature by the fused RSA identity key over a response (17 R589, R591). -/
opaque rsaSign : List Byte → List Byte
/-- The signature by the fused SLH-DSA identity key over a signing input (17 R589, R591). -/
opaque slhSign : List Byte → List Byte
/-- Digest of the boot ROM's bytes (measurement 1, 17 R593). -/
opaque bootRomDigest : BitVec 384
/-- How many page requests a function's host allocates beyond the first (10 R336; log 46, DESIGN CHOICE: a host that lets a function
request pages allocates one at least). -/
opaque priMore : Nat → Nat
/-- Does a function enable Relaxed Ordering for its data writes (07 R237, 12 R409)? Its driver sets the enable in configuration space, whose
writes have no row (log 46). -/
opaque relaxedOn : Nat → Bool
/-- A dword of a function's configuration space that 12 R411 and R412 do not give. -/
opaque cfgSpace : Nat → Nat → BitVec 32
/-- The voltage of an operating point of the die at a port, in mV, fused at test: a tile's 16 points (15 R522, 17 R606); other dies'
tables, which software cannot see, by divider. -/
opaque fusedVolt : Nat → Nat → BitVec 16
/-- The bytes of a measured item, from the values it is made of (17 R593: the item is named, its encoding is not). -/
opaque itemBytes : Nat → List Nat → List Byte

end Sys2Proof.Config
end

