-- ==== Sys2Proof/Machine/Table.lean ====
section
/-!
DEFINITION. Sparse tables, sets and queues of numbers, and bit fields: the plain-data helpers every engine uses.
-/
namespace Sys2Proof.Machine

/-- The value at a key; `d` is what an unlisted key reads as. -/
def look {α : Type} (d : α) : FMap α → Nat → α
  | [], _ => d
  | (j, w) :: r, k => if j = k then w else look d r k

/-- Write a value at a key, keeping the canonical form: keys rise strictly and no listed value equals `d`. -/
def put {α : Type} [DecidableEq α] (d : α) : FMap α → Nat → α → FMap α
  | [], k, v => if v = d then [] else [(k, v)]
  | (j, w) :: r, k, v =>
    if k < j then (if v = d then (j, w) :: r else (k, v) :: (j, w) :: r)
    else if k = j then (if v = d then r else (k, v) :: r)
    else (j, w) :: put d r k v

/-- Change the value at a key by a function. -/
def upd {α : Type} [DecidableEq α] (d : α) (m : FMap α) (k : Nat) (f : α → α) : FMap α :=
  put d m k (f (look d m k))

/-- Keep only the keys that satisfy a test; the others read as the default again. -/
def keepKeys {α : Type} (p : Nat → Bool) (m : FMap α) : FMap α := m.filter (fun c => p c.1)

/-- Every key is above a bound and no value equals the default. -/
def wfAbove {α : Type} [DecidableEq α] (d : α) (lo : Nat) : FMap α → Bool
  | [] => true
  | (k, v) :: r => decide (lo ≤ k) && decide (v ≠ d) && wfAbove d (k + 1) r

/-- The canonical form of a table with default `d`. -/
def wfTable {α : Type} [DecidableEq α] (d : α) (m : FMap α) : Bool := wfAbove d 0 m

/-- Insert a number into a rising list without repeats. -/
def ins (k : Nat) : List Nat → List Nat
  | [] => [k]
  | j :: r => if k < j then k :: j :: r else if k = j then j :: r else j :: ins k r

/-- Remove a number from a list. -/
def del (k : Nat) (l : List Nat) : List Nat := l.filter (fun j => j != k)

/-- Is the number in the list? -/
def has (k : Nat) (l : List Nat) : Bool := l.any (fun j => j == k)

/-- Replace the element at an index. -/
def setAt {α : Type} : List α → Nat → α → List α
  | [], _, _ => []
  | _ :: r, 0, v => v :: r
  | a :: r, n + 1, v => a :: setAt r n v

/-- Change the first element that satisfies a test. -/
def updFirst {α : Type} (p : α → Bool) (f : α → α) : List α → List α
  | [] => []
  | a :: r => if p a then f a :: r else a :: updFirst p f r

/-- Remove the first element that satisfies a test. -/
def dropFirst {α : Type} (p : α → Bool) : List α → List α
  | [] => []
  | a :: r => if p a then r else a :: dropFirst p r

/-- The bits [hi:lo] of a number (00 R7). -/
def bitsOf (n hi lo : Nat) : Nat := (n >>> lo) % 2 ^ (hi + 1 - lo)

/-- Bit i of a number. -/
def bitOf (n i : Nat) : Bool := (n >>> i) % 2 == 1

/-- The bits [hi:lo] of a bit vector, as a number (00 R7). -/
def fld {w : Nat} (b : BitVec w) (hi lo : Nat) : Nat := bitsOf b.toNat hi lo

/-- Place a value in the bits from lo up. -/
def at_ (v lo : Nat) : Nat := v <<< lo

/-- A number for a truth value. -/
def b2n (b : Bool) : Nat := if b then 1 else 0

/-- A little-endian number from bytes (00 R8). -/
def leNat : List Byte → Nat
  | [] => 0
  | b :: r => b.toNat + 256 * leNat r

/-- The n little-endian bytes of a number (00 R8). -/
def leBytes : Nat → Nat → List Byte
  | 0, _ => []
  | n + 1, v => BitVec.ofNat 8 v :: leBytes n (v / 256)

/-- A slice of a byte list as a little-endian number. -/
def leAt (bs : List Byte) (off n : Nat) : Nat := leNat ((bs.drop off).take n)

/-- Sign-extend a w-bit number. -/
def sext (w v : Nat) : Int := if v < 2 ^ (w - 1) then (v : Int) else (v : Int) - 2 ^ w

/-- Saturating count. -/
def satAdd (hi a b : Nat) : Nat := if a + b ≤ hi then a + b else hi

/-- Ceiling division. -/
def ceilDiv (a b : Nat) : Nat := (a + b - 1) / b

/-- Distance upward from a pointer to an index modulo n: the order of rotating priority (02 R56). -/
def rotDist (n ptr i : Nat) : Nat := (i + n - ptr % n) % n

/-- The index nearest upward from the pointer: the winner under rotating priority (02 R56). -/
def rotPick (n ptr : Nat) : List Nat → Option Nat
  | [] => none
  | i :: r =>
    match rotPick n ptr r with
    | none => some i
    | some j => if rotDist n ptr i ≤ rotDist n ptr j then some i else some j

/-- Insert by a key, keeping earlier elements first among equals. -/
def insBy {α : Type} (key : α → Nat) (a : α) : List α → List α
  | [] => [a]
  | b :: r => if key a < key b then a :: b :: r else b :: insBy key a r

/-- Sort by a key, stable. -/
def sortBy {α : Type} (key : α → Nat) (l : List α) : List α := l.foldl (fun acc a => insBy key a acc) []

end Sys2Proof.Machine
end

