-- ==== Sys2Proof/Machine/Flags.lean ====
section
/-!
DEFINITION. Number formats, exact arithmetic, rounding, conversion and the four sticky flags (04 R106 to R140).
-/
namespace Sys2Proof.Machine

/-- The formats of 04 R106. -/
inductive Fmt where
  | fp64 | fp32 | fp16 | bf16 | e4m3 | e5m2 | e3m2 | e2m3 | fp4 | int32 | int16 | int8 | int4 | trn | ue8m0
  deriving DecidableEq, Repr

/-- The format a 4-bit code names (04 R106); 0xF is reserved. -/
def Fmt.ofCode : Nat → Option Fmt
  | 0x0 => some .fp64 | 0x1 => some .fp32 | 0x2 => some .fp16 | 0x3 => some .bf16
  | 0x4 => some .e4m3 | 0x5 => some .e5m2 | 0x6 => some .e3m2 | 0x7 => some .e2m3
  | 0x8 => some .fp4 | 0x9 => some .int32 | 0xA => some .int16 | 0xB => some .int8
  | 0xC => some .int4 | 0xD => some .trn | 0xE => some .ue8m0 | _ => none

/-- Rate classes of 04 R106. -/
inductive FmtClass where
  | wide | b8 | b4 | multi | none
  deriving DecidableEq, Repr

/-- The class of a format (04 R106). -/
def Fmt.cls : Fmt → FmtClass
  | .fp64 | .fp32 | .int16 => .multi
  | .fp16 | .bf16 => .wide
  | .e4m3 | .e5m2 | .e3m2 | .e2m3 | .int8 => .b8
  | .fp4 | .int4 | .trn => .b4
  | .int32 | .ue8m0 => .none

/-- The slice count of a format (04 R106, R118). -/
def Fmt.slices : Fmt → Nat
  | .fp64 => 5 | .fp32 | .int16 => 2 | _ => 1

/-- Role M: multiplicand (04 R106). -/
def Fmt.roleM : Fmt → Bool
  | .int32 | .ue8m0 => false | _ => true

/-- Role D: destination or source of a conversion (04 R106). -/
def Fmt.roleD : Fmt → Bool
  | .ue8m0 => false | _ => true

/-- An integer format or TRN. -/
def Fmt.isInt : Fmt → Bool
  | .int32 | .int16 | .int8 | .int4 | .trn => true | _ => false

/-- Does a 4-bit code name a format with role D? -/
def roleDCode (c : Nat) : Bool := match Fmt.ofCode c with | some f => f.roleD | none => false

/-- Does a 4-bit code name a format with role M? -/
def roleMCode (c : Nat) : Bool := match Fmt.ofCode c with | some f => f.roleM | none => false

/-- Elements per byte of a packed format, 1 otherwise (04 R112, R114). -/
def Fmt.perByte : Fmt → Nat
  | .fp4 | .int4 => 2 | .trn => 5 | _ => 1

/-- Bytes of one element of an unpacked format; 1 for packed formats (06 R192). -/
def Fmt.bytes : Fmt → Nat
  | .fp64 => 8 | .fp32 | .int32 => 4 | .fp16 | .bf16 | .int16 => 2 | _ => 1

/-- Bytes of a row of n elements (04 R112 to R115). -/
def Fmt.rowBytes (f : Fmt) (n : Nat) : Nat :=
  if f.perByte = 1 then n * f.bytes else ceilDiv n f.perByte

/-- The layout of a float format (04 R108): exponent and fraction widths, bias, whether the all-ones exponent
holds infinity and NaN, and the one NaN of E4M3 and FP4. -/
structure FloatFmt where
  eb : Nat
  fb : Nat
  bias : Nat
  ieee : Bool
  nanCode : Option Nat
  deriving DecidableEq, Repr

/-- The FP32 layout. -/
def f32 : FloatFmt := ⟨8, 23, 127, true, some 0x7FC00000⟩

/-- The float layouts of 04 R108. -/
def Fmt.float : Fmt → Option FloatFmt
  | .fp64 => some ⟨11, 52, 1023, true, some 0x7FF8000000000000⟩
  | .fp32 => some ⟨8, 23, 127, true, some 0x7FC00000⟩
  | .fp16 => some ⟨5, 10, 15, true, some 0x7E00⟩
  | .bf16 => some ⟨8, 7, 127, true, some 0x7FC0⟩
  | .e4m3 => some ⟨4, 3, 7, false, some 0x7F⟩
  | .e5m2 => some ⟨5, 2, 15, true, some 0x7E⟩
  | .e3m2 => some ⟨3, 2, 3, false, none⟩
  | .e2m3 => some ⟨2, 3, 1, false, none⟩
  | .fp4 => some ⟨2, 1, 1, false, some 0x8⟩
  | _ => none

/-- Storage bits of a float or integer element (04 R106; TRN is packed by value). -/
def Fmt.width : Fmt → Nat
  | .fp64 => 64 | .fp32 | .int32 => 32 | .fp16 | .bf16 | .int16 => 16
  | .e3m2 | .e2m3 => 6 | .fp4 | .int4 => 4 | .trn => 2 | _ => 8

/-- Does 04 R128 flush subnormals of this format? The 6-bit formats and FP4 are never flushed. -/
def Fmt.flushes : Fmt → Bool
  | .fp64 | .fp32 | .fp16 | .bf16 | .e4m3 | .e5m2 => true | _ => false

/-- A value in the internal form of 04 R117: class, sign, significand and exponent. -/
inductive Num where
  | nan
  | inf (neg : Bool)
  | zero (neg : Bool)
  | fin (neg : Bool) (m : Nat) (x : Int)
  deriving DecidableEq, Repr

/-- The sticky flags in the bit order of TSTAT (05 R152): 0 OVERFLOW, 1 NAN_SEEN, 2 INVALID_TRN, 3 FLUSHED. -/
abbrev Sticky := BitVec 4

/-- OVERFLOW. -/
def fOvf : Sticky := 1#4
/-- NAN_SEEN. -/
def fNan : Sticky := 2#4
/-- INVALID_TRN. -/
def fTrn : Sticky := 4#4
/-- FLUSHED. -/
def fFlush : Sticky := 8#4

/-- The flag when a condition holds. -/
def flagIf (b : Bool) (f : Sticky) : Sticky := if b then f else 0#4

/-- Decode a float code (04 R108, R110). -/
def FloatFmt.decode (p : FloatFmt) (c : Nat) : Num :=
  let neg := (c / 2 ^ (p.eb + p.fb)) % 2 == 1
  let e := (c / 2 ^ p.fb) % 2 ^ p.eb
  let f := c % 2 ^ p.fb
  if p.ieee && e == 2 ^ p.eb - 1 then (if f = 0 then .inf neg else .nan)
  else if !p.ieee && p.nanCode == some c then .nan
  else if !p.ieee && p.fb == 3 && p.eb == 4 && e == 15 && f == 7 then .nan
  else if e = 0 then (if f = 0 then .zero neg else .fin neg f (1 - (p.bias : Int) - p.fb))
  else .fin neg (2 ^ p.fb + f) ((e : Int) - p.bias - p.fb)

/-- Is the code a subnormal of the format? -/
def FloatFmt.subnormal (p : FloatFmt) (c : Nat) : Bool :=
  (c / 2 ^ p.fb) % 2 ^ p.eb == 0 && c % 2 ^ p.fb != 0

/-- The internal form of an integer (04 R117). -/
def Num.ofInt (v : Int) : Num := if v = 0 then .zero false else .fin (decide (v < 0)) v.natAbs 0

/-- Decode one element code (04 R108 to R114). A TRN code is the trit 0, 1 or 2. -/
def Fmt.decode (f : Fmt) (c : Nat) : Num :=
  match f.float with
  | some p => p.decode c
  | none =>
    match f with
    | .trn => if c = 1 then .fin false 1 0 else if c = 2 then .fin true 1 0 else .zero false
    | .ue8m0 => if c = 255 then .nan else .fin false 1 ((c : Int) - 127)
    | _ => Num.ofInt (sext f.width (c % 2 ^ f.width))

/-- Decode an element as an operand: with FTZ set a subnormal of a flushing format becomes a zero of the same
sign and sets FLUSHED (04 R128, R129). -/
def Fmt.decodeFtz (f : Fmt) (ftz : Bool) (c : Nat) : Num × Sticky :=
  match f.float with
  | some p =>
    if ftz && f.flushes && p.subnormal c then (.zero (bitOf c (p.eb + p.fb)), fFlush) else (p.decode c, 0#4)
  | none => (f.decode c, 0#4)

/-- Rounding modes of 04 R130; a stochastic one carries its 16-bit random value. -/
inductive Rnd where
  | rne | rtz | stoch (u : Nat)
  deriving DecidableEq, Repr

/-- m / 2^d rounded to an integer (04 R130, R132). -/
def shiftRound (r : Rnd) (m d : Nat) : Nat :=
  let t := m / 2 ^ d
  let rem := m % 2 ^ d
  let up := match r with
    | .rne => decide (2 ^ d < 2 * rem) || (decide (2 * rem = 2 ^ d) && t % 2 == 1)
    | .rtz => false
    | .stoch u => decide (2 ^ 16 ≤ 2 ^ 16 * rem / 2 ^ d + u)
  if up then t + 1 else t

/-- What an overflow gives: accumulation (infinity, 04 R122), or a conversion under TCTL.OVF (04 R134). -/
inductive OvMode where
  | acc | sat | inf
  deriving DecidableEq, Repr

/-- The largest finite magnitude's code (04 R109). -/
def FloatFmt.maxCode (p : FloatFmt) : Nat :=
  if p.ieee then (2 ^ p.eb - 2) * 2 ^ p.fb + (2 ^ p.fb - 1)
  else if p.eb = 4 then 0x7E
  else 2 ^ (p.eb + p.fb) - 1

/-- A code with a sign bit. -/
def FloatFmt.sign (p : FloatFmt) (neg : Bool) (c : Nat) : Nat := if neg then c + 2 ^ (p.eb + p.fb) else c

/-- The zero of a sign; FP4 has no negative zero (04 R108, R135). -/
def FloatFmt.zeroCode (p : FloatFmt) (neg : Bool) : Nat :=
  if p.eb = 2 && p.fb = 1 then 0 else p.sign neg 0

/-- A NaN result: the canonical NaN, or +0 for a format without one (04 R111, R135). -/
def FloatFmt.nanResult (p : FloatFmt) : Nat := match p.nanCode with | some c => c | none => 0

/-- The result of an overflow (04 R122, R134): code and flags. -/
def FloatFmt.overflow (p : FloatFmt) (r : Rnd) (o : OvMode) (neg : Bool) : Nat × Sticky :=
  let big := p.sign neg p.maxCode
  match o with
  | .acc => (p.sign neg ((2 ^ p.eb - 1) * 2 ^ p.fb), fOvf)
  | .sat => (big, fOvf)
  | .inf =>
    if r = .rtz then (big, fOvf)
    else if p.ieee then (p.sign neg ((2 ^ p.eb - 1) * 2 ^ p.fb), fOvf)
    else match p.nanCode with
      | some c => (c, fOvf ||| fNan)
      | none => (big, fOvf)

/-- Round a non-zero magnitude m × 2^x into a float format (04 R122, R130 to R134): code and flags. -/
def FloatFmt.round (p : FloatFmt) (r : Rnd) (o : OvMode) (neg : Bool) (m : Nat) (x : Int) : Nat × Sticky :=
  let emin : Int := 1 - (p.bias : Int)
  let e : Int := (Nat.log2 m : Int) + x
  let q : Int := (if e < emin then emin else e) - p.fb
  let n := if q ≤ x then m * 2 ^ (x - q).toNat else shiftRound r m (q - x).toNat
  let n' := if n = 2 ^ (p.fb + 1) then 2 ^ p.fb else n
  let q' := if n = 2 ^ (p.fb + 1) then q + 1 else q
  if n' = 0 then (p.zeroCode neg, 0#4)
  else if n' < 2 ^ p.fb then (p.sign neg n', 0#4)
  else
    let ef : Int := q' + p.fb + p.bias
    let c := ef.toNat * 2 ^ p.fb + (n' - 2 ^ p.fb)
    if c ≤ p.maxCode then (p.sign neg c, 0#4) else p.overflow r o neg

/-- Encode a value into a float format, FTZ flushing a subnormal result (04 R122, R128, R134, R135). -/
def FloatFmt.encode (p : FloatFmt) (r : Rnd) (o : OvMode) (ftz : Bool) : Num → Nat × Sticky
  | .nan => (p.nanResult, fNan)
  | .inf neg => if p.ieee then (p.sign neg ((2 ^ p.eb - 1) * 2 ^ p.fb), 0#4) else p.overflow r o neg
  | .zero neg => (p.zeroCode neg, 0#4)
  | .fin neg m x =>
    let (c, fl) := p.round r o neg m x
    if ftz && p.subnormal c then (p.zeroCode neg, fl ||| fFlush) else (c, fl)

/-- Round a value to an integer and saturate it to a range (04 R136). -/
def toIntSat (r : Rnd) (lo hi : Int) : Num → Int × Sticky
  | .nan => (0, fNan)
  | .inf neg => (if neg then lo else hi, fOvf)
  | .zero _ => (0, 0#4)
  | .fin neg m x =>
    let n : Nat := if 0 ≤ x then m * 2 ^ x.toNat else shiftRound r m (-x).toNat
    let v : Int := if neg then -(n : Int) else n
    if v < lo then (lo, fOvf) else if hi < v then (hi, fOvf) else (v, 0#4)

/-- The least integer of an integer format; TRN is -1 to +1 (04 R112, R136). -/
def Fmt.intMin (f : Fmt) : Int := if f = .trn then -1 else -(2 ^ (f.width - 1) : Nat)
/-- The greatest integer of an integer format. -/
def Fmt.intMax (f : Fmt) : Int := if f = .trn then 1 else (2 ^ (f.width - 1) : Nat) - 1

/-- The code of an integer in an integer format or TRN. -/
def Fmt.intCode (f : Fmt) (v : Int) : Nat :=
  if f = .trn then (if v = 0 then 0 else if 0 < v then 1 else 2)
  else (v % (2 ^ f.width : Nat)).toNat

/-- Encode a value into any format with role D (04 R130 to R136). -/
def Fmt.encode (f : Fmt) (r : Rnd) (ovf ftz : Bool) (v : Num) : Nat × Sticky :=
  match f.float with
  | some p => p.encode r (if ovf then .inf else .sat) (ftz && f.flushes) v
  | none => let (i, fl) := toIntSat r f.intMin f.intMax v; (f.intCode i, fl)

/-- The exponent shift of a UE8M0 exponent e: the value times 2^(127 − e) (04 R137). -/
def Num.scale (k : Int) : Num → Num
  | .fin n m x => .fin n m (x + k)
  | v => v

/-- The NaN of a format as the result of a write with exponent 0xFF (04 R137). -/
def Fmt.nanCode0 (f : Fmt) : Nat := match f.float with | some p => p.nanResult | none => 0

/-- Convert one element (04 R130 to R137). `dse` is the UE8M0 exponent when the write uses one. Under FTZ a subnormal source is
flushed wherever it is decoded, the FP32 lane of a VST and the accumulator that a drain reads included (log 21, DESIGN CHOICE: 04
R128 names element inputs and the inputs of other vector instructions). -/
def convert (src dst : Fmt) (dse : Option Nat) (r : Rnd) (ovf ftz : Bool) (c : Nat) : Nat × Sticky :=
  match dse with
  | none =>
    if src = dst then
      match src.float with
      | some p => if ftz && src.flushes && p.subnormal c then (p.zeroCode (bitOf c (p.eb + p.fb)), fFlush) else (c, 0#4)
      | none => (c, 0#4)
    else
      let (v, f1) := src.decodeFtz ftz c
      let (c', f2) := dst.encode r ovf ftz v
      (c', f1 ||| f2 ||| flagIf (v == .nan) fNan)
  | some e =>
    let (v, f1) := src.decodeFtz ftz c
    if e = 255 then (dst.nanCode0, f1 ||| fNan)
    else
      let (c', f2) := dst.encode r ovf ftz (v.scale (127 - (e : Int)))
      (c', f1 ||| f2 ||| flagIf (v == .nan) fNan)

/-- The exact product of two internal forms (04 R121, R122). -/
def Num.mul : Num → Num → Num
  | .nan, _ => .nan
  | _, .nan => .nan
  | .inf _, .zero _ => .nan
  | .zero _, .inf _ => .nan
  | .inf a, .inf b => .inf (a != b)
  | .inf a, .fin b _ _ => .inf (a != b)
  | .fin a _ _, .inf b => .inf (a != b)
  | .zero a, .zero b => .zero (a != b)
  | .zero a, .fin b _ _ => .zero (a != b)
  | .fin a _ _, .zero b => .zero (a != b)
  | .fin a m x, .fin b n y => .fin (a != b) (m * n) (x + y)

/-- The negated value. -/
def Num.neg : Num → Num
  | .nan => .nan
  | .inf a => .inf (!a)
  | .zero a => .zero (!a)
  | .fin a m x => .fin (!a) m x

/-- The least exponent of the finite values of a list, from a start. -/
def minExp (x0 : Int) : List Num → Int
  | [] => x0
  | .fin _ _ x :: r => minExp (if x < x0 then x else x0) r
  | _ :: r => minExp x0 r

/-- The signed significand of a value at an exponent no greater than its own. -/
def Num.atExp (q : Int) : Num → Int
  | .fin neg m x => let v : Int := (m * 2 ^ (x - q).toNat : Nat); if neg then -v else v
  | _ => 0

/-- The exact sum of a list (04 R122): NaN and infinities by IEEE 754; an exact zero is −0 only when every term
is −0. -/
def sumNums (l : List Num) : Num :=
  if l.any (fun v => v == .nan) then .nan
  else if l.any (fun v => v == .inf false) && l.any (fun v => v == .inf true) then .nan
  else if l.any (fun v => v == .inf false) then .inf false
  else if l.any (fun v => v == .inf true) then .inf true
  else
    let q := minExp 0 l
    let t := (l.map (Num.atExp q)).foldl (fun a b => a + b) 0
    if t = 0 then .zero (!l.isEmpty && l.all (fun v => v == .zero true))
    else .fin (decide (t < 0)) t.natAbs q

/-- Add a list of exact products into a float accumulator with one rounding (04 R80, R121, R122, R128). -/
def accFloat (f : Fmt) (ftz : Bool) (acc : Nat) (prods : List Num) : Nat × Sticky :=
  match f.float with
  | none => (acc, 0#4)
  | some p =>
    let s := sumNums (p.decode acc :: prods)
    p.encode .rne .acc ftz s

/-- Add an exact integer sum into an INT32 accumulator (04 R123). -/
def accInt (sat : Bool) (acc : Nat) (sum : Int) : Nat × Sticky :=
  let v := sext 32 (acc % 2 ^ 32) + sum
  if sat && decide (v < -(2 ^ 31)) then (2 ^ 31, fOvf)
  else if sat && decide (2 ^ 31 - 1 < v) then (2 ^ 31 - 1, fOvf)
  else ((v % 2 ^ 32).toNat, 0#4)

/-- The integer an integer value holds. -/
def Num.toInt : Num → Int
  | .fin neg m x => let v : Int := (m * 2 ^ x.toNat : Nat); if neg then -v else v
  | _ => 0

/-- One step of the 64-bit LFSR with taps 64, 63, 61 and 60 (04 R133). -/
def lfsrStep (s : BitVec 64) : BitVec 64 :=
  (s >>> 1) ^^^ (if s.getLsbD 0 then 0xD800000000000000#64 else 0#64)

/-- n LFSR steps. -/
def lfsr : Nat → BitVec 64 → BitVec 64
  | 0, s => s
  | n + 1, s => lfsr n (lfsrStep s)

/-- The random value u of 04 R133. -/
def stochU (seed : BitVec 64) (part ord idx : Nat) : Nat :=
  let s := seed ^^^ (BitVec.ofNat 64 part).rotateLeft 40 ^^^ (BitVec.ofNat 64 ord).rotateLeft 48 ^^^ BitVec.ofNat 64 idx
  let s := if s = 0#64 then 1#64 else s
  ((lfsr 64 s) >>> 48).toNat

/-- The rounding of a RND field for one element (04 R130, R133); value 3 is refused before it is used. -/
def rndOf (code : Nat) (seed : BitVec 64) (part ord idx : Nat) : Rnd :=
  if code = 1 then .rtz else if code = 2 then .stoch (stochU seed part ord idx) else .rne

/-- The accumulator format of an MMA (04 R120). -/
def accFmt (a b : Fmt) (scaled : Bool) : Fmt :=
  if a = .fp64 || b = .fp64 then .fp64
  else if a.isInt && b.isInt && !scaled then .int32
  else .fp32

/-- Products per cell per cycle of a single-slice format (03 R79). -/
def Fmt.p (f : Fmt) : Nat := match f.cls with | .b8 => 2 | .b4 => 4 | _ => 1

/-- The K group g of an MMA: p of the slower operand for single-slice pairs, 1 for multi-slice (03 R79, R86). -/
def pairGroup (a b : Fmt) : Nat :=
  if a.slices = 1 && b.slices = 1 then min a.p b.p else 1

/-- The twelve-bit slices of a significand (04 R118). -/
def slicesOf : Nat → Nat → List Nat
  | 0, _ => []
  | n + 1, m => m % 4096 :: slicesOf n (m / 4096)

/-- A UE8M0 scale byte's value (04 R116). -/
def ue8m0 (e : Nat) : Num := Fmt.ue8m0.decode e

/-- The value of a scale byte (04 R124, R127): E4M3 negative or NaN scales act as NaN. -/
def scaleVal (fmtCode : Nat) (b : Nat) : Num :=
  if fmtCode = 0xE then ue8m0 b
  else if b / 128 % 2 = 1 then .nan else Fmt.e4m3.decode b

end Sys2Proof.Machine
end

