-- ==== Sys2Proof/Machine/State.lean ====
section
/-!
DEFINITION. The state of the block: every piece the manual gives it, as plain data, its value at reset, and the
ways a step can stop.
-/
namespace Sys2Proof.Machine

/-! ## Memories, answers, packets -/

/-- Stored bytes with their check words and poison (16 R551 to R555). `ckErr` holds, by sector number, the stored
check word XOR the data's CRC-32C; `poison` lists disjoint runs of poisoned sectors (first, count); `undef` lists ranges (first, length, tag) a rule calls undefined. -/
structure Ram where
  bytes : FMap Byte := []
  poison : List (Nat × Nat) := []
  ckErr : FMap (BitVec 32) := []
  undef : List (Nat × Nat × Nat) := []
  deriving DecidableEq, Repr

/-- The answer to a register access: data, or Completer Abort / an error answer. -/
structure Reply where
  who : Agent
  off : Nat
  data : Word
  abort : Bool
  deriving DecidableEq, Repr

/-- Link control words (02 R39). -/
inductive Ctl where
  | heartbeat | ack (seq : Nat) | nak | credit (dst vc n : Nat) | epoch (e : Nat)
  deriving DecidableEq, Repr

/-- What the requester of an outstanding request does with the answer. -/
inductive Use where
  | plain
  | move (pos slot id off : Nat)
  | tsync (pos slot id : Nat)
  | coh (die core msg addr : Nat)
  | evict (die addr : Nat)
  | relay (src tid die : Nat)
  | snoop (home addr die : Nat)
  | place (n : Nat)
  | ranoaGet (port tid off : Nat)
  | cmd (ring seq off : Nat)
  | engine (core stack tag : Nat)
  | drain (ring seq : Nat)
  | copy (ring seq off : Nat)
  | amo (core obj : Nat)
  deriving DecidableEq, Repr

/-! ## Package, start-up, Ivory -/

/-- A die's entry of the package manifest (01 R21, R25). -/
structure DieInfo where
  letter : Nat := 0
  digit : Nat := 0
  feat : Nat := 0xF
  deriving DecidableEq, Repr

/-- Why a warm reset runs (16 R571, 18 R616). -/
inductive WarmCause where
  | software | heartbeat | hostDie
  deriving DecidableEq, Repr

/-- The GLB block and the package record (01, 16 R571, 17 R588, R599, 18). -/
structure Glb where
  serial : Word := 0#64
  manifest : List DieInfo := []
  tilemap : List (Option Nat) := []
  site : FMap Nat := []
  features : Nat := 0
  ready : Bool := false
  sealed : Bool := false
  rstCause : Nat := 0
  sealBit : Bool := false
  sealing : Bool := false
  warmWanted : Option WarmCause := none
  warmStep : Nat := 0
  warmPort : Option Nat := none
  recState : Nat := 0
  recReason : Nat := 0
  recStatus : Nat := 0
  recGo : Bool := false
  mboxStatus : Nat := 0
  mboxCmd : Nat := 0
  mboxGo : Option Agent := none
  deriving DecidableEq, Repr

/-- Ivory's protected repair record (01 R17, 08 R259, 11 R390). -/
structure Repair where
  failed : List Nat := []
  tilemap : List (Option Nat) := []
  mapouts : List Nat := []
  cores : List Nat := []
  deriving DecidableEq, Repr

/-- Where start-up stands (17 R576 to R579, R586): the last step done, or a stop. -/
inductive Phase where
  | step (n : Nat) | ready | stopped (reason : Nat) | recovery | off
  deriving DecidableEq, Repr

/-- Start-up and the module's pins (17 R576, 19 R627 to R634). -/
structure Boot where
  phase : Phase := .off
  hostEnabled : Bool := false
  configReady : Bool := false
  rail : Bool := false
  regulator : FMap Bool := []
  vin : Nat := 0
  vinLow : Bool := false
  vinHigh : Bool := false
  perst : Bool := true
  pwrbrk : Bool := false
  readyOut : Bool := false
  thermtrip : Bool := false
  manifestFault : Bool := false
  runtimeUp : FMap Bool := []
  serviceOver : Bool := false
  ivoryStop : Bool := false
  deriving DecidableEq, Repr

/-- Stages of a firmware update (17 R585). -/
inductive FwState where
  | idle | receiving | programming | programmed
  deriving DecidableEq, Repr

/-- A selective IDE stream (12 R415): requester IDs and key. -/
structure IdeStream where
  lo : Nat := 0
  hi : Nat := 0
  key : BitVec 256 := 0#256
  on : Bool := false
  deriving DecidableEq, Repr

/-- Answers on the management port and the DOE mailbox (17 R585 to R608). -/
inductive MgmtReply where
  | cert (slot : Nat) (bytes : List Byte)
  | challenge (rsa slh : List Byte)
  | measurements (index : Nat) (vals : List (BitVec 384)) (rsa slh : List Byte)
  | keyExchange (rsa slh : List Byte)
  | vendor (code : Nat) (bytes : List Byte)
  | spdmError
  | sensor (s : Sensor) (v : Nat) (valid : Bool)
  | effecter (ok : Bool)
  | eid (e : Nat)
  | fw (ok : Bool)
  | ide (ok : Bool)
  | manifestFault
  | dieFailed (port : Nat)
  | stopped (reason : Nat)
  | serviceOver
  deriving DecidableEq, Repr

/-- The Ivory partition (17). -/
structure Ivory where
  flash : Option FwImage := none
  running : Option FwImage := none
  fwState : FwState := .idle
  fwBuf : Option FwImage := none
  fwHost : Bool := false
  fusedSvn : Nat := 0
  debug : Nat := 0
  ownerRsa : BitVec 3072 := 0#3072
  ownerSlh : BitVec 256 := 0#256
  owned : Bool := false
  ownerSeq : Nat := 0
  hard : Nat := 0x100
  board : Nat := 0x100
  throttleOfs : Nat := 0
  warnOfs : Nat := 0
  part : FMap Nat := []
  recorded : FMap Word := []
  everSealed : Bool := false
  sealDigest : BitVec 384 := 0#384
  rsaChain : List Byte := []
  slhChain : List Byte := []
  eid : Nat := 0
  ide : List IdeStream := []
  replies : List MgmtReply := []
  deriving DecidableEq, Repr

/-! ## Hub and links -/

/-- One sender of a die link (02 R45 to R48): the SEQ of its next packet, which is also the one its receiver takes next,
the replay buffer, resends, the slots of the receiver that its packets hold (by `slotKey`), packets that wait for a credit, for
replay room or for the link, each with whether its slot was set aside (R43), and control words on the way to the receiver. -/
structure LinkEnd where
  seq : Nat := 0
  replay : List (Nat × Pkt) := []
  resends : Nat := 0
  used : FMap Nat := []
  wait : List (Bool × Pkt) := []
  ctl : List Ctl := []
  deriving DecidableEq, Repr

/-- A die link (02 R36, R46 to R55, R63, R69, R70; 01 R24). `state`: 0 down, 1 training, 2 up; `lanes`: failed lanes by waveguide
or module; `calibrated`: ring calibration holds, so a fast retrain may do; `feat`: the link features in force. -/
structure LinkSt where
  state : Nat := 0
  fenced : Bool := false
  advDie : Nat := 0
  advHub : Nat := 0
  width : Nat := 0
  featDie : Nat := 0
  featHub : Nat := 0
  feat : Nat := 0
  spares : Nat := 0
  epoch : Nat := 0
  retrains : Nat := 0
  replays : Nat := 0
  crcErr : Nat := 0
  spareEvents : Nat := 0
  die : LinkEnd := {}
  hub : LinkEnd := {}
  lanes : FMap Nat := []
  paused : Bool := false
  fencing : Bool := false
  noRoot : Bool := false
  calibrated : Bool := false
  deriving DecidableEq, Repr

/-- A packet inside the hub; `fwd`: its output port has granted it (02 R37, R56); `aside`: its slot was set aside before the
request that drew it was issued, so it holds no credit (02 R43); `made`: the hub made it, so it holds no slot of a link's
receiver at the hub. -/
structure Voq where
  pkt : Pkt
  fwd : Bool
  aside : Bool
  made : Bool
  deriving DecidableEq, Repr

/-- An outstanding request (02 R49, R50, R61); `len`: the bytes a read asks for; `left`: answers still to come, more than one for
a GATHER_ROWS; `old`: it was on its way to the host when its session was detached (12 R418). -/
structure Outst where
  src : Nat
  tid : Nat
  dst : Nat
  op : PktOp
  addr : Nat
  len : Nat
  use : Use
  left : Nat
  old : Bool
  deriving DecidableEq, Repr

/-- The switch (02 R37, R49, R56, R61, R65, R66); `bound`: requests, by source, that wait because their source has 4,096
outstanding, of one tile its slots' by turns from `slotPtr` on (03 R104); `arb`: each output's rotation pointer, which the spec gives no value after reset: it starts at 0 here (log 10,
DESIGN CHOICE); `dropped`: requests, by source and TID, that the hub has answered itself. -/
structure Hub where
  voq : List Voq := []
  outst : List Outst := []
  bound : List (Pkt × Use) := []
  slotPtr : FMap Nat := []
  seen : FMap (List Nat) := []
  nextTid : FMap Nat := []
  arb : FMap Nat := []
  dropped : List (Nat × Nat) := []
  mgmtSeen : List (Nat × Nat × MgmtKind) := []
  emitter : Nat := 0
  standbyOk : Bool := false
  bothFailed : Bool := false
  rootLost : Bool := false
  stopped : Bool := false
  deriving DecidableEq, Repr

/-! ## Events, FIFOs, interrupts -/

/-- An event FIFO (11 R400 to R405, 13 R482 to R486): items oldest first as their words, open items by reader,
items lost, per code the items posted and withheld in this second (16 R561), and the pointer of its rotation over hub ports (11 R401,
13 R482). -/
structure Fifo where
  items : List (List Word) := []
  opened : FMap (List Word) := []
  lost : Nat := 0
  posted : FMap Nat := []
  withheld : FMap Nat := []
  ptr : Nat := 0
  deriving DecidableEq, Repr

/-- A router source (11 R394 to R398, R407). -/
structure Src where
  gathered : Nat := 0
  pending : Bool := false
  delivered : Option Nat := none
  active : Option Nat := none
  deriving DecidableEq, Repr

/-- A core interrupt router (11 R392, R395). -/
structure Router where
  src : FMap Src := []
  ptr : Nat := 0
  deriving DecidableEq, Repr

/-- An MSI-X vector (13 R478, R481): gathered events, PBA bit, mask bit of the table (set at reset, PCIe). -/
structure Vec where
  gathered : Nat := 0
  pba : Bool := false
  unmasked : Bool := false
  deriving DecidableEq, Repr

/-! ## Sync objects -/

/-- Who waits on an object (07 R216, R220). -/
inductive WaitBy where
  | port (port tid : Nat)
  | head (ring seq idx : Nat)
  deriving DecidableEq, Repr

/-- A waiter record (07 R221). -/
structure Waiter where
  by_ : WaitBy
  eq : Bool
  v : Word
  deriving DecidableEq, Repr

/-- A sync object (07 R215 to R226). -/
structure SyncObj where
  val : Word := 0#64
  ops : Nat := 0
  waiters : List Waiter := []
  ptr : Nat := 0
  deriving DecidableEq, Repr

/-- A counted write whose sectors are on their way to their homes (07 R228): the object, what its count adds, and
how many acknowledgements it still waits for; the region table entry of a placement write, or the port, PSN and window
entry of a Ranoa packet. -/
structure Counted where
  id : Nat
  obj : Option Nat
  add : Nat
  left : Nat
  place : Option Nat
  window : Option (Nat × Nat)
  entry : Option Nat
  deriving DecidableEq, Repr

/-! ## HBM, stacks, pool, deep tier -/

/-- A home's view of a cached sector (11 R371): owner in E or M, sharers, forwarder. -/
structure DirEnt where
  sector : Nat
  owner : Option Nat
  sharers : List Nat
  fwd : Option Nat
  deriving DecidableEq, Repr

/-- What waits for the end of a transaction at a home (11 R374, R378); `evict`: the request that needs the entry (R377). -/
inductive HomeJob where
  | grant (p : Pkt) (e : DramErr) | access (p : Pkt) (e : DramErr) | forward (p : Pkt) (e : DramErr) | evict (p : Pkt) (e : DramErr)
  deriving DecidableEq, Repr

/-- A coherence transaction (11 R374 to R377): its sectors, the snoops not answered as (sector, die), and the job
at its end. -/
structure Txn where
  sectors : List Nat
  left : List (Nat × Nat)
  job : HomeJob
  deriving DecidableEq, Repr

/-- The directory and transactions of one home (11 R371, R374, R375); `ptr`: its rotating priority over source ports (07 R246, 09
R292). -/
structure HomeSt where
  dir : List DirEnt := []
  busy : List Txn := []
  tickets : FMap (List Nat) := []
  nextTicket : Nat := 1
  queue : List (Pkt × DramErr) := []
  ptr : Nat := 0
  deriving DecidableEq, Repr

/-- A runtime command window (08 R274, R275): the doublewords stored, those of the command submitted, BUSY, whether
it waits for a tier tile (09 R301), and the result so far. -/
structure Window where
  dw : List Word := [0, 0, 0, 0, 0, 0, 0, 0]
  job : List Word := []
  busy : Bool := false
  wait : Bool := false
  value : Nat := 0
  status : Nat := 0
  flags : Nat := 0
  deriving DecidableEq, Repr

/-- A stack and its base die (08). -/
structure Stack where
  state : Nat := 0
  temp : Nat := 0
  throttle : Bool := false
  refresh2x : Bool := false
  layersLost : Nat := 0
  corr : Nat := 0
  uncorr : Nat := 0
  scrubPasses : Nat := 0
  layerEv : Nat := 0
  scrubPos : Nat := 0
  wbuf : FMap (List Nat) := []
  writing : FMap Bool := []
  refreshed : FMap Nat := []
  home : HomeSt := {}
  marks : FMap (List Nat) := []
  win : FMap Window := []
  deriving DecidableEq, Repr

/-- The device's memory control (08 R256, R279 to R282, 09 R299, 12 R423, 13 R472).
`mapStep`: the step of the map-out of slot `mapSlot` done, 0 when none runs; `mapWait`: slots whose map-out follows. -/
structure MemC where
  active : Nat := 0
  maps : List Nat := []
  mapStep : Nat := 0
  mapSlot : Nat := 0
  mapWait : List Nat := []
  frameBase : Nat := 0x00C000000000
  frameCount : Nat := 262144
  stageBase : Nat := 0x00C000000000
  ckptBase : Nat := 0x00C000000000
  poolCkpt : Nat := 0
  deriving DecidableEq, Repr

/-- States of a pool line (09 R288). -/
inductive LineSt where
  | i | v | d | h
  deriving DecidableEq, Repr

/-- A line of a pool cache: its state, and the sector while the pool holds it, with its check word XOR the data's
CRC-32C. -/
structure PLine where
  st : LineSt := .i
  data : List Byte := []
  poison : Bool := false
  ck : BitVec 32 := 0#32
  way : Nat := 0
  deriving DecidableEq, Repr

/-- A pool die (09 R285 to R298). `wait` holds packets that wait for a fill, a hand-back, a dirty mark, room or an earlier access;
`away`: requests it has forwarded, by their requester and TID, with their sectors (R292); `tree`: the replacement bits of each set. -/
structure PoolDie where
  state : Nat := 0
  active : Nat := 0
  uncorr : Nat := 0
  marked : List Nat := []
  lines : FMap PLine := []
  filling : List Nat := []
  handing : List Nat := []
  marking : List Nat := []
  wait : List (Pkt × DramErr) := []
  away : List (Nat × Nat × List Nat) := []
  tree : FMap Nat := []
  home : HomeSt := {}
  deriving DecidableEq, Repr

/-- A frame of the deep tier (09 R303, R304). -/
structure Frame where
  tile : Option Nat := none
  dirty : List Nat := []
  opened : List Nat := []
  refbit : Bool := false
  pinned : Bool := false
  filling : Bool := false
  evicting : Bool := false
  prefetched : Bool := false
  deriving DecidableEq, Repr

/-- A tier die (09 R309 to R314, R320). `bytes`: written by eviction and flush; `quiet`: the parts being programmed that background work
read out; `blockMap`: the flash block of a part, plus 1. -/
structure TierDie where
  state : Nat := 0
  spare : Nat := 100
  bytes : Nat := 0
  uncorr : Nat := 0
  programming : List Nat := []
  quiet : List Nat := []
  openParts : List Nat := []
  erases : FMap Nat := []
  reads : FMap Nat := []
  blockMap : FMap Nat := []
  retired : List Nat := []
  save : List (Nat × Nat) := []
  deriving DecidableEq, Repr

/-- The deep tier (09 R299 to R323). `flash`: contents kept in flash by tiered offset; `tmap`: the hub's tier map, tile
to frame + 1; `wait`: accesses stalled on a tile; `waitRec`: answers that wait for a part's open record;
`fetching`: tiles that wait for a frame, and whether they are fetched ahead. -/
structure Tier where
  die : FMap TierDie := []
  written : Nat := 0
  frames : FMap Frame := []
  sweep : Nat := 0
  last : FMap (Nat × Nat) := []
  flash : Ram := {}
  tmap : FMap Nat := []
  wait : List Pkt := []
  waitRec : List (Nat × Pkt) := []
  fetching : List (Nat × Bool) := []
  asked : List Nat := []
  flushing : Bool := false
  resident : FMap Bool := []
  deriving DecidableEq, Repr

/-! ## Translation -/

/-- Where a leaf translation leads (10 R326). -/
inductive Dest where
  | dev (base : Nat) | host
  deriving DecidableEq, Repr

/-- A cached leaf translation (10 R330): context, first page, pages covered, target, permissions, and for a
host-resident page the translated units. -/
structure TlbEnt where
  ctx : Nat
  page : Nat
  pages : Nat
  dest : Dest
  r : Bool
  w : Bool
  units : List AtsUnit
  deriving DecidableEq, Repr

/-- A cached table pointer (10 R330). -/
structure WalkPtr where
  ctx : Nat
  level : Nat
  idx : Nat
  table : Nat
  deriving DecidableEq, Repr

/-- Who waits on a translation (10 R333, R346; 06 R200); `list`: the dispatcher, for a list or an in-place region of a descriptor (13
R454). -/
inductive XltBy where
  | move (pos slot id : Nat) | xpref (pos slot id : Nat) | place (n : Nat) | cmd (ring seq : Nat) | ranoa (port : Nat)
  | list (ring seq : Nat)
  deriving DecidableEq, Repr

/-- An access that waits on a translation: who, its address, and whether it writes. -/
structure XltWait where
  by_ : XltBy
  dva : Nat
  write : Bool
  deriving DecidableEq, Repr

/-- A walk in progress (10 R331, R333): the table it reads next and that table's level; not begun while 64 others run. -/
structure Walk where
  ctx : Nat
  page : Nat
  level : Nat
  table : Nat
  begun : Bool
  waits : List XltWait
  deriving DecidableEq, Repr

/-- An ATS request for a page's units (10 R335, R336): units that an invalidation has named since (R337), units for
which a page request has succeeded. -/
structure AtsReq where
  ctx : Nat
  page : Nat
  stale : List Nat
  priOk : List Nat
  waits : List XltWait
  deriving DecidableEq, Repr

/-- A stalled translation (10 R346 to R350). -/
structure Stall where
  ctx : Nat
  page : Nat
  reason : Nat
  waits : List XltWait
  deriving DecidableEq, Repr

/-- A range whose translations are blocked (10 R343, R351). -/
structure Block where
  ring : Nat
  seq : Nat
  ctx : Nat
  page : Nat
  pages : Nat
  deriving DecidableEq, Repr

/-- Address translation (10). -/
structure Xlt where
  root : FMap Nat := []
  rootOk : List Nat := []
  shared : List TlbEnt := []
  walkCache : List WalkPtr := []
  checker : List TlbEnt := []
  walks : List Walk := []
  stalls : List Stall := []
  blocks : List Block := []
  ats : List AtsReq := []
  pri : List (Nat × Nat × Nat) := []
  atsInval : List (Nat × Nat × Nat × Nat) := []
  walksStarted : Nat := 0
  faultsWritten : Nat := 0
  frFull : FMap Nat := []
  frProd : FMap Nat := []
  frCons : FMap Nat := []
  frPend : FMap (List (List Byte)) := []
  deriving DecidableEq, Repr

/-! ## Core complex -/

/-- One core (11 R363, R382 to R390). -/
structure CoreSt where
  serr : Word := 0#64
  serrAddr : Nat := 0
  fence : Bool := false
  exc : Option (Nat × Nat) := none
  lsr : Option Nat := none
  stopped : Bool := false
  deriving DecidableEq, Repr

/-- States in which a core die holds a sector (11 R370). -/
inductive CohSt where
  | m | e | s | f
  deriving DecidableEq, Repr

/-- A sector a core die holds. -/
structure CLine where
  st : CohSt
  data : List Byte
  poison : Bool
  deriving DecidableEq, Repr

/-- A core die (11). `rec_`: the step of R391 reached, 0 when not recovering; `tickets`: by sector the ticket of a
request to resend, its message and its core; `defer`: snoops it answers once a response has come (R376). -/
structure CoreDie where
  lines : FMap (Option CLine) := []
  rec_ : Nat := 0
  failed : Bool := false
  div : Nat := 32
  tickets : FMap (Nat × Nat × Nat) := []
  defer : List Pkt := []
  router : Router := {}
  fifo : Fifo := {}
  deriving DecidableEq, Repr

/-! ## Host link, sessions, placement -/

/-- What a host-bound TLP carries out. -/
inductive TlpFor where
  | data (ring seq region off : Nat)
  | record (ring seq : Nat)
  | acc (ring : Nat) (v : Nat)
  | fault (ctx : Nat)
  | staged (ring seq region off : Nat)
  | redel (fn item : Nat)
  | redelStatus (copy : Option (Nat × Nat × Nat))
  | other
  deriving DecidableEq, Repr

/-- Answers to a Configuration Request (12 R411, 17 R577). -/
inductive CfgAns where
  | rrs | ok (v : Word) | unsupported
  deriving DecidableEq, Repr

/-- How a request addresses the host (12 R413): with a translated address, or untranslated, with a PASID or without. -/
inductive TlpAt where
  | translated | untranslated (pasid : Option Nat)
  deriving DecidableEq, Repr

/-- Host-bound TLPs (12 R413, R416 to R419; 13 R478; 10 R334 to R337). -/
inductive HTlp where
  | write (fn addr : Nat) (data : List Byte) (ep : Bool) (use : TlpFor) (mode : TlpAt)
  | read (fn addr len : Nat) (tag : Nat) (mode : TlpAt)
  | msix (fn vec : Nat)
  | ats (fn pasid ctx page : Nat)
  | pri (fn pasid ctx page unit : Nat)
  | invalDone (fn tag : Nat)
  | cpl (rid : Nat) (abort : Bool)
  | cfg (fn dword : Nat) (ans : CfgAns)
  deriving DecidableEq, Repr

/-- What a host read is for (12 R413, 13 R448, 07 R242). -/
inductive HostRd where
  | migrate (ring seq bus : Nat)
  | frCons (ctx : Nat)
  | line (fn line : Nat) | prod (ring : Nat) | desc (ring : Nat) | flush (ring seq : Nat)
  | copy (ring seq off bus : Nat)
  | image (ring seq bus : Nat)
  | list (ring seq bus len : Nat)
  | pkt (p : Pkt)
  deriving DecidableEq, Repr

/-- The last address a command of a CROSS_PATH ring wrote in a 1 GiB region (07 R242), and how. -/
structure CrossAt where
  ring : Nat
  seq : Nat
  bus : Nat
  mode : TlpAt
  deriving DecidableEq, Repr

/-- A staged copy (12 R421, R422): its bytes and poisoned sectors, and the TLPs of it not acknowledged. `direct`: an output larger than the
staging area, of which no copy exists. `kept`: its delivery was cut by a detach, so that only a redelivery frees it. -/
structure Staged where
  ring : Nat
  seq : Nat
  region : Nat
  fn : Nat
  bytes : List Byte
  pois : List Nat
  left : Nat
  direct : Bool
  kept : Bool
  deriving DecidableEq, Repr

/-- Sessions: none, attached, held (12 R437). -/
inductive SessState where
  | none | attached | held
  deriving DecidableEq, Repr

/-- A session (12 R424 to R428, R437). -/
structure Sess where
  state : SessState := .none
  token : Word := 0#64
  offered : Word := 0#64
  fails : Nat := 0
  claiming : Bool := false
  redel : List (Nat × RedelItem) := []
  redelBusy : Bool := false
  redelSent : Bool := false
  deadline : Nat := 0
  refusal : Bool := false
  flrDetached : Bool := false
  deriving DecidableEq, Repr

/-- Placement log (12 R438). -/
structure PLog where
  dropped : Nat := 0
  rid : Nat := 0
  reason : Nat := 0
  off : Nat := 0
  captured : Bool := false
  since : Nat := 0
  deriving DecidableEq, Repr

/-- A placement write that waits for its translation (12 R431): its number, requester, offset, context, region, DVA and
bytes. -/
structure Placing where
  n : Nat
  rid : Nat
  off : Nat
  ctx : Nat
  win : Nat
  dva : Nat
  bytes : List Byte
  obj : Option Nat
  add : Nat
  deriving DecidableEq, Repr

/-- What waits for the link in Recovery (12 R416): a write that the host die has not placed, or a TLP of its own. -/
inductive Waiting where
  | pkt (p : Pkt) | tlp (t : HTlp)
  deriving DecidableEq, Repr

/-- The host die (12, 13 R447 to R452, 07 R242); `out`: what waits for the link, in order (12 R416); `npWait`: non-posted requests that
wait for a tag (12 R409); `advisory`: Advisory Non-Fatal errors reported (12 R432). -/
structure Hif where
  state : Nat := 0
  speed : Nat := 0
  width : Nat := 0
  flit : Bool := false
  detaches : Nat := 0
  tlps : List HTlp := []
  out : List Waiting := []
  npWait : List HTlp := []
  cpls : List HTlp := []
  reads : FMap (Option HostRd) := []
  nextTag : Nat := 0
  staged : List Staged := []
  cross : List CrossAt := []
  pollCur : Nat := 4
  pollIdle : Nat := 0
  polling : Bool := false
  polledDesc : Bool := false
  plog : PLog := {}
  plapDrain : List Nat := []
  placeWait : List Placing := []
  placeNext : Nat := 0
  aer : Nat := 0
  advisory : Nat := 0
  deriving DecidableEq, Repr

/-! ## Rings, commands, dispatcher -/

/-- A ring (13 R444 to R446, R453): descriptors accepted, records written, descriptors fetched, PROD and CONS last read,
the bound up to which descriptors are being fetched. -/
structure Ring where
  acc : Nat := 0
  done : Nat := 0
  fetched : Nat := 0
  prod : Nat := 0
  cons : Nat := 0
  fulls : Nat := 0
  want : Nat := 0
  stopped : Bool := false
  watch : Bool := false
  deriving DecidableEq, Repr

/-- Where an accepted command stands (13 R465, R466, 12 R419, R420): `done` has its record still to be written,
`written` has it on the link and not acknowledged, `held` keeps it for the claim. -/
inductive CmdPhase where
  | queued | head | running | ending | done | written | held
  deriving DecidableEq, Repr

/-- A part of a RUN (13 R468): logical tile, physical position, slot. -/
structure Part where
  num : Nat
  tile : Nat
  pos : Nat
  slot : Nat
  ended : Bool
  deriving DecidableEq, Repr

/-- The outcome a record reports (13 R476, R477). -/
structure Verdict where
  status : Nat := 0
  reason : Nat := 0
  port : Option Nat := none
  region : Nat := 0
  instr : Nat := 0
  part : Nat := 0
  detail : Nat := 0
  deriving DecidableEq, Repr

/-- A saved range of memory: first address, length and the bytes and poison it held (13 R471). -/
structure Saved where
  lo : Nat
  len : Nat
  bytes : FMap Byte
  poison : List (Nat × Nat)
  ckErr : FMap (BitVec 32)
  undef : List (Nat × Nat × Nat)
  deriving DecidableEq, Repr

/-- A descriptor the dispatcher holds, from its fetch to its record (13 R454 to R477, 16 R556 to R568). `order` is its
place in the order of acceptance, `startedAt` in the order of starts; `waits` are the waits not yet met; `got` and `units`
are what a COPY or MIGRATE has received; `count` is COUNT of a RUN's image; `lost`: its journal entry is in no mirror; `outDone` the staged outputs copied; `item` the next item of an update list; `clash`: device ranges that the
command and another one that ran beside it both declared (13 R470); `staging`: a transfer's data are all there and go to the host. -/
structure Cmd where
  ring : Nat
  seq : Nat
  desc : List Byte
  sync : List Byte
  regions : List Byte
  locals : List Byte
  check : Nat := 0
  acks : Nat := 0
  phase : CmdPhase := .queued
  order : Nat := 0
  headAt : Nat := 0
  startedAt : Nat := 0
  waits : List (Nat × Bool × Word) := []
  parts : List Part := []
  localVals : List (Nat × Word) := []
  ckpt : List Saved := []
  ckptAt : Nat := 0
  ckptDone : Bool := false
  out : Verdict := {}
  flags : Sticky := 0#4
  taint : Option Verdict := none
  taints : Nat := 0
  cut : Option (Nat × Nat) := none
  detached : Bool := false
  replays : Nat := 0
  suspect : Bool := false
  resetPos : List Nat := []
  qualAt : List Nat := []
  replayDue : Option Nat := none
  stopped : Bool := false
  stopPort : Nat := 0
  sentPut : Bool := false
  items : List UpdItem := []
  item : Nat := 0
  units : List AtsUnit := []
  got : List (Nat × List Byte × Bool) := []
  outDone : List Nat := []
  flushed : Bool := false
  discard : Bool := false
  ended : Nat := 0
  count : Nat := 0
  lost : Bool := false
  staging : Bool := false
  clash : List (Nat × Nat) := []
  due : Bool := false
  sigOk : Bool := true
  tiles : List Nat := []
  deriving DecidableEq, Repr

/-- The dispatcher (13 R454 to R477, 16 R563 to R572); `ptr`: its rotation over rings (R469). -/
structure Disp where
  ring : FMap Ring := []
  fetched : List Cmd := []
  cmds : List Cmd := []
  journal0 : Nat := 0
  journal1 : Nat := 8
  mirrorOk : List Bool := [true, true]
  reserved : List Nat := []
  accepting : Bool := false
  watching : List Nat := []
  order : Nat := 0
  ptr : Nat := 0
  deriving DecidableEq, Repr

/-! ## Ranoa -/

/-- A GET_REQ being served: its transaction, the window offset and bytes asked for, and the answers of the homes so far as
(offset in the read, bytes, poisoned). -/
structure RGet where
  tid : Nat
  dva : Nat
  len : Nat
  parts : Nat
  got : List (Nat × List Byte × Bool)
  deriving DecidableEq, Repr

/-- A GET_REQ that the peer has not answered, or whose data waits for the other part of its read (14 R507): its transaction, the hub read it
is of, the offset and number of the bytes wanted, and the data with its poison once it has come. -/
structure GetOut where
  tid : Nat
  pkt : Pkt
  off : Nat
  len : Nat
  data : Option (List Byte × Bool)
  deriving DecidableEq, Repr

/-- A Ranoa port (14 R489 to R518). `state`: 0 down, 1 training, 2 up, 3 lost. `psnTx` and `psnRx` are the next PSNs sent and
received; `puts` and `gets` are the operations the peer has not answered, by PSN and TID; `rxWait` holds GET_REQs with the PSN
before which everything must be counted. -/
structure RPort where
  state : Nat := 0
  lanes : Nat := 0
  peerPort : Nat := 0
  peerSerial : Word := 0#64
  cut : Nat := 0
  fecCorr : Nat := 0
  fecUncorr : Nat := 0
  replays : Nat := 0
  losses : Nat := 0
  psnTx : Nat := 0
  psnRx : Nat := 0
  ackSent : Nat := 0
  lseq : Nat := 0
  rxSeq : Nat := 0
  replay : List (Nat × RPkt) := []
  resends : Nat := 0
  cred : FMap Nat := []
  wait : List RPkt := []
  ctl : List Ctl := []
  badTx : List Nat := []
  badRx : List Nat := []
  puts : List (Nat × Pkt) := []
  gets : List GetOut := []
  rxWait : List (Nat × RPkt) := []
  rxGets : List RGet := []
  nextTid : Nat := 0
  deriving DecidableEq, Repr

/-- The Ranoa dies' shared state (14 R502, R504, R514, R517): refused packets, side-band messages seen as (ORIGIN, SEQ),
windows that drain, each die's micro-TLB. -/
structure Ranoa where
  port : FMap RPort := []
  dropped : Nat := 0
  logPort : Nat := 0
  logReason : Nat := 0
  logOff : Nat := 0
  captured : Bool := false
  since : Nat := 0
  seenSb : List (Nat × Nat) := []
  sbSeq : Nat := 0
  drain : List Nat := []
  tlb : FMap (List TlbEnt) := []
  deriving DecidableEq, Repr

/-! ## Power, clocks, thermal -/

/-- A group member's last STATUS (15 R532, R533). -/
structure Member where
  origin : Nat
  div : Nat
  power : Nat
  cap : Nat
  busy : Nat
  crit : Bool
  deriving DecidableEq, Repr

/-- A phase hint (15 R530): class, start time in ticks of the 100 MHz counter, whether it has started. -/
structure HintSt where
  cls : Nat
  start : Nat
  deriving DecidableEq, Repr

/-- The power controller (15). `div` is in quarter steps, powers are in W; `volt` holds each die's supply voltage in mV, 0 where its
regulators are off (01 R29); `lowered`: the slow loop has lowered the divider
since the power began to lie 5 % below the cap; `idleHigh`, `idleZero`, `sinceStep`, `floorOk` count ms. `members` holds the last
STATUS of each present member, the module's own among them. -/
structure Pwr where
  div : Nat := 0x38
  volt : FMap Nat := []
  idle : Nat := 0
  heldSeen : Bool := false
  floorSeen : Bool := false
  belowFloor : Bool := false
  floor : Nat := 0
  energy : Nat := 0
  watts : Nat := 0
  lowered : Bool := false
  idleHigh : Nat := 0
  idleZero : Nat := 0
  sinceStep : Nat := 100
  floorOk : Nat := 0
  members : List Member := []
  temp : FMap Nat := []
  warn : FMap Bool := []
  throttle : FMap Bool := []
  trip : FMap Bool := []
  hints : FMap (List HintSt) := []
  phase : FMap (Option Nat) := []
  deriving DecidableEq, Repr

/-! ## Tiles -/

/-- Where a slot stands (05 R148, R155, 06 R213, 13 R468); `stopped`: its command has been stopped, and moves that write are still
sending. -/
inductive SlotPhase where
  | placed | zeroing | header | loading | loaded | running | exiting | stopped
  deriving DecidableEq, Repr

/-- A hardware loop counter (05 R163). -/
structure LoopCtr where
  first : Nat := 0
  last : Nat := 0
  left : Nat := 0
  active : Bool := false
  deriving DecidableEq, Repr

/-- A layout register as LSET reads it (05 R145): 256 bits as four doublewords. -/
abbrev LayReg := BitVec 256

/-- A packet that a move has still to send (06 R191 to R200): its DVA, its length, and for a write its bytes, byte mask
and poison; `off` is its place in what the move gathers. -/
structure Piece where
  dva : Nat
  len : Nat
  off : Nat
  data : List Byte
  checks : List (BitVec 32)
  mask : Nat
  poison : Bool
  deriving DecidableEq, Repr

/-- A queued tile instruction (05 R146): its word, index, the scalar and layout values, TCTL and ord it captured; once
started, the packets it has still to send, the data received by place, the places received poisoned, check words received
that differ from their data's, what each gather packet asked for, the answers it waits for, the flags it will set, its
stage, the index list it read, and the places of the packets that went out as translated requests to the host (12 R413). -/
structure QInstr where
  id : Nat
  word : BitVec 128
  pc : Nat
  sregs : List Word := []
  lregs : List LayReg := []
  tctl : Word := 0#64
  ord : Nat := 0
  started : Bool := false
  pieces : List Piece := []
  got : List (Nat × List Byte) := []
  pois : List Nat := []
  cks : List (Nat × BitVec 32) := []
  sent : List (Nat × Nat × List (Nat × Nat)) := []
  waitAns : Nat := 0
  flags : Sticky := 0#4
  stage : Nat := 0
  idx : List Nat := []
  units : List Nat := []
  deriving DecidableEq, Repr

/-- A context slot (03 R72, R101; 05 R144 to R152). `v` holds one 32-bit entry per (register, lane). -/
structure Slot where
  ring : Nat
  seq : Nat
  ctx : Nat
  fn : Nat
  part : Nat
  nparts : Nat
  arrays : List Nat
  wbase : Nat
  wlen : Nat
  codeLen : Nat
  phase : SlotPhase := .placed
  code : List (BitVec 128) := []
  count : Nat := 0
  feat : Nat := 0
  entry : Nat := 0
  s : FMap Word := []
  l : FMap LayReg := []
  v : FMap (BitVec 32) := []
  vpois : List Nat := []
  m : FMap (BitVec 512) := []
  tok : FMap Nat := []
  loops : FMap LoopCtr := []
  nest : List Nat := []
  tctl : Word := 0#64
  tstat : Word := 0#64
  pc : Nat := 0
  ord : Nat := 0
  seed : Word := 0#64
  qm : List QInstr := []
  qv : List QInstr := []
  qx : List QInstr := []
  qs : List QInstr := []
  nextId : Nat := 0
  tokPtr : Nat := 0
  deriving DecidableEq, Repr

/-- A tile die at a physical position (03). The accumulator banks are words keyed by
((array × 2 + bank) × 128 + row) × 128 + column. `ptrs`: the rotations over its slots: 0 the sequencer's, 1 the vector unit's, 2 the
special-function unit's, 3 the mover's (R73, R97, R104). -/
structure Tile where
  store : Ram := {}
  acc : FMap (BitVec 32) := []
  accPois : List Nat := []
  tlb : List TlbEnt := []
  tel : FMap Word := []
  slots : FMap (Option Slot) := []
  lastArr : FMap Nat := []
  lastWin : FMap Nat := []
  resetting : Bool := false
  resets : List Nat := []
  ptrs : FMap Nat := []
  deriving DecidableEq, Repr

/-! ## The whole block -/

/-- The state of the VH64 seen as a block, with the queue of commands that wait. -/
structure State where
  glb : Glb
  repair : Repair
  boot : Boot
  ivory : Ivory
  link : FMap LinkSt
  hub : Hub
  hfifo : Fifo
  msix : FMap Vec
  sync : FMap SyncObj
  counted : List Counted
  mem : Ram
  stack : FMap Stack
  memc : MemC
  pool : FMap PoolDie
  tier : Tier
  xlt : Xlt
  core : FMap CoreSt
  cdie : FMap CoreDie
  hif : Hif
  sess : FMap Sess
  disp : Disp
  rna : Ranoa
  pwr : Pwr
  tile : FMap Tile
  regs : FMap Word
  replies : List Reply
  time : Nat
  free : Nat
  pending : List Instr
  deriving DecidableEq, Repr

/-- Ways a step stops with a fault. -/
inductive Fault where
  /-- A reserved field is set: the manual calls the behaviour after it undefined and gives no effect (00 R9). Raised by the
  commands that issue an instruction of tile code whose reserved operand bits are not zero, and by PROGRAM_HEADER_READ of a
  header with such a field. Safe: the model stops where the hardware goes on in a way nobody is told. -/
  | reservedNonzero
  deriving DecidableEq, Repr

/-- Ways a step is refused. -/
inductive Refusal where
  /-- A command whose meaning is not written. Safe: the model claims nothing about it. -/
  | notModelled (mnemonic : String)
  deriving DecidableEq, Repr

/-- The latest released revision of the die at a hub port (01 R22): letter and digit as ASCII codes. -/
def latestDie (p : Nat) : DieInfo :=
  if p ≤ 32 then ⟨0x42, 0x30, 0xF⟩        -- tile B0
  else if p ≤ 48 then ⟨0x41, 0x33, 0xF⟩   -- stack base die A3
  else if p ≤ 52 then ⟨0x41, 0x31, 0xF⟩   -- pool A1
  else if p ≤ 56 then ⟨0x43, 0x31, 0xF⟩   -- core C1
  else if p = 57 then ⟨0x42, 0x32, 0xF⟩   -- host B2
  else if p ≤ 59 then ⟨0x41, 0x31, 0xF⟩   -- Ranoa A1
  else if p ≤ 61 then ⟨0x41, 0x32, 0xF⟩   -- tier A2
  else if p = 62 then ⟨0x41, 0x31, 0xF⟩   -- Ivory A1
  else ⟨0x41, 0x32, 0xF⟩                  -- hub A2

/-- The shipment tile map (01 R12). -/
def shipMap : List (Option Nat) := (List.range 32).map some

/-- The block before power is applied: every register and memory at its reset value (log 9, 10). -/
def State.reset : State where
  glb := { manifest := (List.range 64).map latestDie, tilemap := shipMap, site := [(32, 1)], features := 0xF }
  repair := { tilemap := shipMap }
  boot := {}
  ivory := {}
  link := []
  hub := {}
  hfifo := {}
  msix := []
  sync := []
  counted := []
  mem := {}
  stack := []
  memc := {}
  pool := []
  tier := {}
  xlt := {}
  core := []
  cdie := []
  hif := {}
  sess := []
  disp := {}
  rna := {}
  pwr := {}
  tile := []
  regs := []
  replies := []
  time := 0
  free := 0
  pending := []

end Sys2Proof.Machine
end

