-- ==== Sys2Proof/Machine/Mem.lean ====
section
/-!
DEFINITION. Check words and the memories they protect: bytes, sectors, poison, undefined ranges (16 R551 to R555,
08 R252, R253).
-/
namespace Sys2Proof.Machine

/-- Steps of a CRC with its bits reflected, for one polynomial. -/
def crcBits (poly : BitVec 32) : Nat → BitVec 32 → BitVec 32
  | 0, c => c
  | n + 1, c => crcBits poly n (if c.getLsbD 0 then (c >>> 1) ^^^ poly else c >>> 1)

/-- A CRC of 32 bits over a byte string, from all ones and inverted at the end. -/
def crc32 (poly : BitVec 32) (bs : List Byte) : BitVec 32 :=
  bs.foldl (fun c b => crcBits poly 8 (c ^^^ b.setWidth 32)) 0xFFFFFFFF#32 ^^^ 0xFFFFFFFF#32

/-- The CRC-32C of a byte string (16 R551). -/
def crc32c (bs : List Byte) : BitVec 32 := crc32 0x82F63B78#32 bs

/-- The link CRC of a byte string: CRC-32 of IEEE 802.3, polynomial 0x04C11DB7 (02 R41). -/
def linkCrc (bs : List Byte) : BitVec 32 := crc32 0xEDB88320#32 bs

/-- The tag of the newest undefined range that holds an address. -/
def undefTag (a : Nat) : List (Nat × Nat × Nat) → Option Nat
  | [] => none
  | (lo, len, tag) :: r => if lo ≤ a ∧ a < lo + len then some tag else undefTag a r

/-- Cut the bytes from a on, n of them, out of a list of ranges: they are defined again. -/
def carve (a n : Nat) : List (Nat × Nat × Nat) → List (Nat × Nat × Nat)
  | [] => []
  | (lo, len, tag) :: r =>
    let left := if lo < a then [(lo, min len (a - lo), tag)] else []
    let right := if a + n < lo + len then [(max lo (a + n), lo + len - max lo (a + n), tag)] else []
    left ++ right ++ carve a n r

/-- Cut n numbers from lo up out of a list of runs (first, count). -/
def cutRuns (lo n : Nat) : List (Nat × Nat) → List (Nat × Nat)
  | [] => []
  | (a, k) :: r =>
    let left := if a < lo then [(a, min k (lo - a))] else []
    let right := if lo + n < a + k then [(max a (lo + n), a + k - max a (lo + n))] else []
    left ++ right ++ cutRuns lo n r

/-- Is a number in one of the runs? -/
def inRuns (n : Nat) : List (Nat × Nat) → Bool
  | [] => false
  | (a, k) :: r => (decide (a ≤ n) && decide (n < a + k)) || inRuns n r

/-- The byte at an address; an unwritten byte reads zero, a byte of an undefined range is free. -/
def Ram.rd (r : Ram) (a : Nat) : Byte :=
  match undefTag a r.undef with
  | some tag => Config.freeByte tag a
  | none => look 0#8 r.bytes a

/-- n bytes from an address up. -/
def Ram.readN (r : Ram) (a n : Nat) : List Byte := (List.range n).map (fun i => r.rd (a + i))

/-- The little-endian number in n bytes. -/
def Ram.readLE (r : Ram) (a n : Nat) : Nat := leNat (r.readN a n)

/-- Store bytes in a table from an address up. -/
def putBytes : FMap Byte → Nat → List Byte → FMap Byte
  | m, _, [] => m
  | m, a, b :: r => putBytes (put 0#8 m a b) (a + 1) r

/-- Store bytes from an address up; poison and check-word errors stay as they are (a merge). -/
def Ram.writeN (r : Ram) (a : Nat) (bs : List Byte) : Ram :=
  { r with bytes := putBytes r.bytes a bs, undef := if r.undef = [] then [] else carve a bs.length r.undef }

/-- The sector an address lies in. -/
def sectorOf (a : Nat) : Nat := a / 64

/-- The 64 bytes of a sector. -/
def Ram.sector (r : Ram) (n : Nat) : List Byte := r.readN (64 * n) 64

/-- Is a sector stored poisoned? -/
def Ram.isPoison (r : Ram) (n : Nat) : Bool := inRuns n r.poison

/-- Does the stored check word of a sector fail? -/
def Ram.ckBad (r : Ram) (n : Nat) : Bool := look 0#32 r.ckErr n != 0#32

/-- Mark a sector poisoned, or clear its poison. -/
def Ram.setPoison (r : Ram) (n : Nat) (p : Bool) : Ram :=
  { r with poison := if p then (n, 1) :: cutRuns n 1 r.poison else cutRuns n 1 r.poison }

/-- Give a sector the check word of its data. -/
def Ram.fixCk (r : Ram) (n : Nat) : Ram := { r with ckErr := put 0#32 r.ckErr n 0#32 }

/-- A full-sector write: data, the check word it carries (none: created by the writer) and its poison
(08 R252, 16 R555). -/
def Ram.writeSector (r : Ram) (n : Nat) (data : List Byte) (ck : Option (BitVec 32)) (poison : Bool) : Ram :=
  let d := (data ++ List.replicate 64 0#8).take 64
  let e := match ck with | some c => c ^^^ crc32c d | none => 0#32
  let r1 := (r.writeN (64 * n) d).setPoison n poison
  { r1 with ckErr := put 0#32 r1.ckErr n e }

/-- Full-sector writes of consecutive sectors, with one check word each as carried. -/
def Ram.writeSectors (r : Ram) (n : Nat) (poison : Bool) : List Byte → List (BitVec 32) → Nat → Ram
  | _, _, 0 => r
  | d, ck, k + 1 =>
    Ram.writeSectors (r.writeSector n (d.take 64) ck.head? poison) (n + 1) poison (d.drop 64) ck.tail k

/-- The sectors a range of bytes touches. -/
def sectorsOf (a n : Nat) : List Nat :=
  if n = 0 then [] else (List.range ((a + n - 1) / 64 - a / 64 + 1)).map (fun i => a / 64 + i)

/-- Is any sector of a range poisoned? -/
def Ram.anyPoison (r : Ram) (a n : Nat) : Bool := (sectorsOf a n).any r.isPoison

/-- Store a partial write: merge, new check words, poison stays (08 R253, 06 R194). A sector whose old check word
fails becomes poisoned. -/
def Ram.merge (r : Ram) (a : Nat) (bs : List Byte) : Ram :=
  let secs := sectorsOf a bs.length
  let r1 := secs.foldl (fun m n => if m.ckBad n then (m.setPoison n true).fixCk n else m) r
  r1.writeN a bs

/-- Bytes selected by a mask, as (offset, byte) pairs. -/
def maskedBytes (mask : Nat) (data : List Byte) : List (Nat × Byte) :=
  ((List.range data.length).zip data).filter (fun c => bitOf mask c.1)

/-- A masked write of one sector (02 R40): only the enabled bytes change. -/
def Ram.writeMasked (r : Ram) (n : Nat) (mask : Nat) (data : List Byte) (poison : Bool) : Ram :=
  if mask % 2 ^ 64 = 0 then r
  else
    let r1 := if r.ckBad n || poison then (r.setPoison n true).fixCk n else r
    (maskedBytes mask (data.take 64)).foldl (fun m c => m.writeN (64 * n + c.1) [c.2]) r1

/-- Make a range undefined under a tag. -/
def Ram.undefine (r : Ram) (lo len tag : Nat) : Ram := { r with undef := (lo, len, tag) :: r.undef }

/-- Zero a range with valid check words and no poison. -/
def Ram.zero (r : Ram) (lo len : Nat) : Ram :=
  let out := fun k => decide (k < lo) || decide (lo + len ≤ k)
  { bytes := keepKeys out r.bytes
    poison := cutRuns (lo / 64) (ceilDiv len 64) r.poison
    ckErr := keepKeys (fun n => out (64 * n)) r.ckErr
    undef := if r.undef = [] then [] else carve lo len r.undef }

/-- Save a range, its poison, check words and undefined parts with it. -/
def Ram.save (r : Ram) (lo len : Nat) : Saved :=
  let inside := fun k => decide (lo ≤ k) && decide (k < lo + len)
  let hi := lo / 64 + ceilDiv len 64
  { lo := lo, len := len, bytes := keepKeys inside r.bytes
    ckErr := keepKeys (fun n => inside (64 * n)) r.ckErr
    undef := (r.undef.map (fun x => (max x.1 lo, min (x.1 + x.2.1) (lo + len) - max x.1 lo, x.2.2))).filter (fun x => x.2.1 != 0)
    poison := (r.poison.map (fun x => (max x.1 (lo / 64), min (x.1 + x.2) hi - max x.1 (lo / 64)))).filter (fun x => x.2 != 0) }

/-- Put a saved range back at an address (13 R471, 05 R155). -/
def Ram.restoreAt (r : Ram) (sv : Saved) (lo : Nat) : Ram :=
  let r1 := r.zero lo sv.len
  let r2 := sv.bytes.foldl (fun m c => { m with bytes := put 0#8 m.bytes (c.1 - sv.lo + lo) c.2 }) r1
  { r2 with poison := sv.poison.map (fun x => (x.1 - sv.lo / 64 + lo / 64, x.2)) ++ r2.poison
            ckErr := sv.ckErr.foldl (fun m c => put 0#32 m (c.1 - sv.lo / 64 + lo / 64) c.2) r2.ckErr
            undef := sv.undef.map (fun x => (x.1 - sv.lo + lo, x.2)) ++ r2.undef }

/-- Put a saved range back where it was. -/
def Ram.restore (r : Ram) (sv : Saved) : Ram := r.restoreAt sv sv.lo

/-- Poison every sector of a range. -/
def Ram.poisonRange (r : Ram) (lo len : Nat) : Ram :=
  let k := if len = 0 then 0 else (lo + len - 1) / 64 - lo / 64 + 1
  { r with poison := (lo / 64, k) :: cutRuns (lo / 64) k r.poison }

/-- The canonical form of a memory: its bytes rise strictly by address and none is the byte an unlisted address
reads as. -/
def Ram.wf (r : Ram) : Bool := wfTable 0#8 r.bytes

end Sys2Proof.Machine
end

