-- ==== Sys2Proof/Machine/Update.lean ====
section
/-!
DEFINITION. One update function per field of the state. Every change an engine makes to the state goes through them.
-/
namespace Sys2Proof.Machine

/-- The state with another glb. -/
def State.withGlb (s : State) (x : Glb) : State := { s with glb := x }

/-- The state with another repair. -/
def State.withRepair (s : State) (x : Repair) : State := { s with repair := x }

/-- The state with another boot. -/
def State.withBoot (s : State) (x : Boot) : State := { s with boot := x }

/-- The state with another ivory. -/
def State.withIvory (s : State) (x : Ivory) : State := { s with ivory := x }

/-- The state with another link. -/
def State.withLink (s : State) (x : FMap LinkSt) : State := { s with link := x }

/-- The state with another hub. -/
def State.withHub (s : State) (x : Hub) : State := { s with hub := x }

/-- The state with another hfifo. -/
def State.withHfifo (s : State) (x : Fifo) : State := { s with hfifo := x }

/-- The state with another msix. -/
def State.withMsix (s : State) (x : FMap Vec) : State := { s with msix := x }

/-- The state with another sync. -/
def State.withSync (s : State) (x : FMap SyncObj) : State := { s with sync := x }

/-- The state with another counted. -/
def State.withCounted (s : State) (x : List Counted) : State := { s with counted := x }

/-- The state with another mem. -/
def State.withMem (s : State) (x : Ram) : State := { s with mem := x }

/-- The state with another stack. -/
def State.withStack (s : State) (x : FMap Stack) : State := { s with stack := x }

/-- The state with another memc. -/
def State.withMemc (s : State) (x : MemC) : State := { s with memc := x }

/-- The state with another pool. -/
def State.withPool (s : State) (x : FMap PoolDie) : State := { s with pool := x }

/-- The state with another tier. -/
def State.withTier (s : State) (x : Tier) : State := { s with tier := x }

/-- The state with another xlt. -/
def State.withXlt (s : State) (x : Xlt) : State := { s with xlt := x }

/-- The state with another core. -/
def State.withCore (s : State) (x : FMap CoreSt) : State := { s with core := x }

/-- The state with another cdie. -/
def State.withCdie (s : State) (x : FMap CoreDie) : State := { s with cdie := x }

/-- The state with another hif. -/
def State.withHif (s : State) (x : Hif) : State := { s with hif := x }

/-- The state with another sess. -/
def State.withSess (s : State) (x : FMap Sess) : State := { s with sess := x }

/-- The state with another disp. -/
def State.withDisp (s : State) (x : Disp) : State := { s with disp := x }

/-- The state with another rna. -/
def State.withRna (s : State) (x : Ranoa) : State := { s with rna := x }

/-- The state with another pwr. -/
def State.withPwr (s : State) (x : Pwr) : State := { s with pwr := x }

/-- The state with another tile. -/
def State.withTile (s : State) (x : FMap Tile) : State := { s with tile := x }

/-- The state with another regs. -/
def State.withRegs (s : State) (x : FMap Word) : State := { s with regs := x }

/-- The state with another replies. -/
def State.withReplies (s : State) (x : List Reply) : State := { s with replies := x }

/-- The state with another time. -/
def State.withTime (s : State) (x : Nat) : State := { s with time := x }

/-- The state with another free. -/
def State.withFree (s : State) (x : Nat) : State := { s with free := x }

/-- The state with another pending. -/
def State.withPending (s : State) (x : List Instr) : State := { s with pending := x }

end Sys2Proof.Machine
end

