-- ==== Sys2Proof/Machine/Ops.lean ====
section
/-!
DEFINITION. The operations every family shares: the time counter, the register file, the units of the state by
number, events and their FIFOs, interrupts, register answers.
-/
namespace Sys2Proof.Machine

/-- What a meaning answers. -/
abbrev Res := Host.Outcome State Fault Refusal

/-- One tick of the 100 MHz time counter (18 R619, 11 R363). -/
def tick (s : State) : State := s.withTime ((s.time + 1) % 2 ^ 64)

/-! ## Units by number -/

/-- The link of a hub port. -/
def State.linkOf (s : State) (p : Nat) : LinkSt := look {} s.link p
/-- Change a link. -/
def State.updLink (s : State) (p : Nat) (f : LinkSt → LinkSt) : State := s.withLink (upd {} s.link p f)
/-- A stack. -/
def State.stackOf (s : State) (n : Nat) : Stack := look {} s.stack n
/-- Change a stack. -/
def State.updStack (s : State) (n : Nat) (f : Stack → Stack) : State := s.withStack (upd {} s.stack n f)
/-- A pool die. -/
def State.poolOf (s : State) (n : Nat) : PoolDie := look {} s.pool n
/-- Change a pool die. -/
def State.updPool (s : State) (n : Nat) (f : PoolDie → PoolDie) : State := s.withPool (upd {} s.pool n f)
/-- A core. -/
def State.coreOf (s : State) (n : Nat) : CoreSt := look {} s.core n
/-- Change a core. -/
def State.updCore (s : State) (n : Nat) (f : CoreSt → CoreSt) : State := s.withCore (upd {} s.core n f)
/-- A core die. -/
def State.cdieOf (s : State) (n : Nat) : CoreDie := look {} s.cdie n
/-- Change a core die. -/
def State.updCdie (s : State) (n : Nat) (f : CoreDie → CoreDie) : State := s.withCdie (upd {} s.cdie n f)
/-- A session. -/
def State.sessOf (s : State) (f : Nat) : Sess := look {} s.sess f
/-- Change a session. -/
def State.updSess (s : State) (n : Nat) (f : Sess → Sess) : State := s.withSess (upd {} s.sess n f)
/-- A sync object. -/
def State.syncOf (s : State) (n : Nat) : SyncObj := look {} s.sync n
/-- Change a sync object. -/
def State.updSync (s : State) (n : Nat) (f : SyncObj → SyncObj) : State := s.withSync (upd {} s.sync n f)
/-- A tile die by physical position. -/
def State.tileOf (s : State) (p : Nat) : Tile := look {} s.tile p
/-- Change a tile die. -/
def State.updTile (s : State) (p : Nat) (f : Tile → Tile) : State := s.withTile (upd {} s.tile p f)
/-- A ring. -/
def State.ringOf (s : State) (r : Nat) : Ring := look {} s.disp.ring r
/-- Change a ring. -/
def State.updRing (s : State) (r : Nat) (f : Ring → Ring) : State :=
  s.withDisp { s.disp with ring := upd {} s.disp.ring r f }
/-- A Ranoa port. -/
def State.rportOf (s : State) (n : Nat) : RPort := look {} s.rna.port n
/-- Change a Ranoa port. -/
def State.updRport (s : State) (n : Nat) (f : RPort → RPort) : State :=
  s.withRna { s.rna with port := upd {} s.rna.port n f }
/-- A tier die. -/
def State.tdieOf (s : State) (d : Nat) : TierDie := look {} s.tier.die d
/-- Change a tier die. -/
def State.updTdie (s : State) (d : Nat) (f : TierDie → TierDie) : State :=
  s.withTier { s.tier with die := upd {} s.tier.die d f }
/-- Change an MSI-X vector, by key. -/
def State.updVec (s : State) (k : Nat) (f : Vec → Vec) : State := s.withMsix (upd {} s.msix k f)

/-- Add to a freeze counter of an array: 0 BUSY, 1 FRZA, 2 FRZB, 3 FRZS, 4 FRZD, 5 FRZANY, 6 HELD (03 R85). -/
def countTel (arr k n : Nat) (t : Tile) : Tile := { t with tel := upd 0#64 t.tel (8 * arr + k) (fun v => v + BitVec.ofNat 64 n) }

/-- Draw a fresh free value (log 2): the value and the state with the draw counted. -/
def State.draw (s : State) (what : Nat) : Word × State := (Config.freeWord s.free what, s.withFree (s.free + 1))

/-! ## The register file -/

/-- The reset value of a register that software writes, by BAR0 offset (the registers' own tables). -/
def regReset (off : Nat) : Word :=
  if off = 0x0B00000 then 0x64#64                       -- HUB_TGTTO, 02 R67
  else if off = 0x0B00004 then 0x1F4#64                 -- HUB_RETRAINTO, 02 R68
  else if off = 0x0100008 then 0x258#64                 -- HIF_HOLD, 12 R436
  else if off = 0x0100010 then 0x10#64                  -- HIF_STAGE, 12 R436
  else if off = 0x0100018 then 0x40004#64               -- HIF_POLL MAX, MIN, 13 R451
  else if off = 0x0600010 then 0x4#64                   -- MEM_FRAMES, 09 R315
  else if 0x0600400 ≤ off ∧ off < 0x0600420 ∧ off % 8 = 0 then 0x8#64  -- MEM_POOLCFGd, 09 R317
  else if off = 0x0700000 then 0x400000#64              -- TIER_CTL DIRTYMAX, 09 R319
  else if off = 0x0900000 then 0xA#64                   -- XLT_CTL, 10 R354
  else if off = 0x0800000 then 0x32#64                  -- RNA_CTL, 14 R516
  else if off = 0x0500000 then 0x1#64                   -- PWR_CTL, 15 R545
  else if off = 0x0500008 then 0xE0#64                  -- PWR_CAP, 15 R546
  else if off = 0x0300000 then 0x20#64                  -- CTX_CKPT GIB, 13 R474
  else if 0x0101000 ≤ off ∧ off < 0x0105000 ∧ off % 8 = 0 then 0x10000#64     -- HIF_MSICOALv of PF0, 13 R481
  else if 0x0108200 ≤ off ∧ off < 0x010C000 ∧ off % 8 = 0 then 0x10000#64     -- HIF_MSICOALv of the VFs
  else 0#64

/-- The value of a register that software writes. -/
def State.reg (s : State) (off : Nat) : Word := look (regReset off) s.regs off
/-- Set a register that software writes. -/
def State.setReg (s : State) (off : Nat) (v : Word) : State := s.withRegs (put (regReset off) s.regs off v)
/-- A field of a register that software writes (00 R7). -/
def State.regFld (s : State) (off hi lo : Nat) : Nat := fld (s.reg off) hi lo

/-- A clamp: below `lo` acts as `lo`, above `hi` acts as `hi`. -/
def clamp (lo hi v : Nat) : Nat := if v < lo then lo else if hi < v then hi else v

/-- Is VIN36 out of its operating range, so that PERST_N and PWRBRK_N are ignored (19 R632)? -/
def State.vinOut (s : State) : Bool := s.boot.phase == .off || s.boot.vinLow || s.boot.vinHigh

/-- HUB_TGTTO in microseconds (02 R67). -/
def State.tgtto (s : State) : Nat := clamp 10 0xFFFF (s.regFld 0x0B00000 15 0)
/-- HUB_RETRAINTO in milliseconds (02 R68). -/
def State.retrainto (s : State) : Nat := clamp 300 0xFFFF (s.regFld 0x0B00004 15 0)
/-- HIF_HOLD in seconds (12 R436). -/
def State.holdSecs (s : State) : Nat := clamp 1 3600 (s.regFld 0x0100008 11 0)
/-- HIF_STAGE in GiB (12 R436). -/
def State.stageGib (s : State) : Nat := clamp 1 64 (s.regFld 0x0100010 6 0)
/-- MEM_FRAMES.STEPS (09 R315). -/
def State.frameSteps (s : State) : Nat := clamp 1 8 (s.regFld 0x0600010 3 0)
/-- MEM_POOLCFGd.CACHE_STEPS (09 R317). -/
def State.cacheSteps (s : State) (d : Nat) : Nat := clamp 0 8 (s.regFld (0x0600400 + 8 * d) 3 0)
/-- TIER_CTL.DIRTYMAX in GiB (09 R319). -/
def State.dirtyMax (s : State) : Nat := clamp 1 512 (s.regFld 0x0700000 31 16)
/-- CTX_CKPT.GIB (13 R474). -/
def State.ckptGib (s : State) : Nat := clamp 4 256 (s.regFld 0x0300000 8 0)
/-- CTX_CKPT.POOL (13 R474). -/
def State.ckptPool (s : State) : Nat := clamp 0 8 (s.regFld 0x0300000 15 12)
/-- The Ranoa operation limit in microseconds (14 R513). -/
def State.opLimit (s : State) : Nat := max 5 (min (s.regFld 0x0800000 15 0) (s.tgtto - 10))

/-- CTX_CFGc (13 R442). -/
def ctxCfg (c : Nat) : Nat := 0x0200000 + 0x40 * c
/-- CTX_RCFGr (13 R446). -/
def ringCfg (r : Nat) : Nat := 0x0210000 + 0x40 * r
/-- HIF_SESSCTLf (12 R437). -/
def sessReg (f : Nat) : Nat := 0x0100100 + 0x40 * f
/-- HIF_PLAPn (12 R439). -/
def plap (n : Nat) : Nat := 0x0180000 + 0x20 * n
/-- RNA_WOFFi (14 R519). -/
def rwin (i : Nat) : Nat := 0x0801000 + 0x20 * i
/-- The XLT registers of a context (10 R357). -/
def xltReg (c : Nat) : Nat := 0x0901000 + 0x20 * c
/-- SYNC_CFGn (07 R223). -/
def syncCfg (n : Nat) : Nat := 0x1000008 + 0x40 * n
/-- EVT_ISRCn of core die d (11 R406). -/
def isrc (d n : Nat) : Nat := 0x04A0000 + 0x10000 * d + 0x10 * n
/-- EVT_ITHRc (11 R408). -/
def ithr (c : Nat) : Nat := 0x04E0008 + 0x10 * c
/-- EVT_CCTLd (11 R405). -/
def cctl (d : Nat) : Nat := 0x0480008 + 0x100 * d
/-- TIER_PINn (09 R323). -/
def tierPin (n : Nat) : Nat := 0x0700100 + 8 * n

/-- The function that owns a context (13 R442). -/
def State.ctxFn (s : State) (c : Nat) : Nat := s.regFld (ctxCfg c) 20 16
/-- Is a context in use (13 R442)? -/
def State.ctxValid (s : State) (c : Nat) : Bool := bitOf (s.reg (ctxCfg c)).toNat 31
/-- The context of a ring (13 R446). -/
def State.ringCtx (s : State) (r : Nat) : Nat := s.regFld (ringCfg r) 41 32
/-- Is a ring enabled (13 R446)? -/
def State.ringEn (s : State) (r : Nat) : Bool := bitOf (s.reg (ringCfg r)).toNat 63
/-- Is a ring in device memory (13 R446)? -/
def State.ringDev (s : State) (r : Nat) : Bool := bitOf (s.reg (ringCfg r)).toNat 62
/-- Is a ring serial (13 R446)? -/
def State.ringSerial (s : State) (r : Nat) : Bool := bitOf (s.reg (ringCfg r)).toNat 61
/-- Does a ring flush other paths (07 R242)? -/
def State.ringCross (s : State) (r : Nat) : Bool := bitOf (s.reg (ringCfg r)).toNat 60
/-- The slots of a ring (13 R443). -/
def State.ringE (s : State) (r : Nat) : Nat := 2 ^ (4 + clamp 0 12 (s.regFld (ringCfg r) 59 56))
/-- The function of a ring (13 R441). -/
def State.ringFn (s : State) (r : Nat) : Nat := s.ctxFn (s.ringCtx r)
/-- Is an object owned by a context (07 R222, R225)? -/
def State.ownedBy (s : State) (obj ctx : Nat) : Bool :=
  bitOf (s.reg (syncCfg obj)).toNat 31 && s.regFld (syncCfg obj) 25 16 == ctx

/-! ## Interrupts -/

/-- The key of a vector of a function. -/
def vecKey (fn v : Nat) : Nat := fn * 4096 + v
/-- Does the vector lie in the function's table (12 R412)? -/
def vecOk (fn v : Nat) : Bool := if fn = 0 then decide (v < 2048) else decide (v < 64)
/-- HIF_MSICOALv of a function (13 R481). -/
def coalReg (fn v : Nat) : Nat := if fn = 0 then 0x0101000 + 8 * v else 0x0108000 + 0x200 * fn + 8 * v

/-- May a TLP carry Relaxed Ordering (07 R237, 12 R409): data writes of a function that enables it. Records, acceptance indices and
interrupts never do. -/
def HTlp.relaxed : HTlp → Bool
  | .write fn _ _ _ (.data _ _ _ _) _ | .write fn _ _ _ (.staged _ _ _ _) _ | .write fn _ _ _ (.redel _ _) _
  | .write fn _ _ _ .other _ => Config.relaxedOn fn
  | _ => false

/-- Put a TLP on the link toward the host. -/
def State.tlpNow (s : State) (t : HTlp) : State := s.withHif { s.hif with tlps := s.hif.tlps ++ [t] }
/-- A TLP toward the host: while the link is not in L0 it waits in order (12 R416). -/
def State.tlp (s : State) (t : HTlp) : State :=
  if s.hif.state = 2 then s.tlpNow t else s.withHif { s.hif with out := s.hif.out ++ [.tlp t] }

/-- The non-posted requests that may be outstanding: 4,096 with 14-bit tags in flit mode, otherwise what 10-bit tags name (12 R409). -/
def State.tagMax (s : State) : Nat := if s.hif.flit then 4096 else 1024
/-- Is a request that waits for a tag still wanted? -/
def State.wanted (s : State) : HTlp → Bool
  | .read _ _ _ tag _ => (look none s.hif.reads tag).isSome
  | .ats _ _ ctx page => s.xlt.ats.any (fun a => a.ctx == ctx && a.page == page)
  | _ => false
/-- The non-posted requests that are outstanding beside those that wait. -/
def State.tagsUsed (s : State) : Nat := s.hif.reads.length + s.xlt.ats.length - s.hif.npWait.length
/-- Tags are free: requests that waited for one go out, oldest first (12 R409). -/
def tagsGo (s : State) : State :=
  let s1 := s.withHif { s.hif with npWait := s.hif.npWait.filter s.wanted }
  let n := s1.tagMax - s1.tagsUsed
  (s1.hif.npWait.take n).foldl (fun st t => st.tlp t) (s1.withHif { s1.hif with npWait := s1.hif.npWait.drop n })
/-- A non-posted request, already counted, goes out or waits for a tag. -/
def State.nonPosted (s : State) (t : HTlp) : State := tagsGo (s.withHif { s.hif with npWait := s.hif.npWait ++ [t] })
/-- Host reads have ended: their tags are free. -/
def setReads (l : FMap (Option HostRd)) (s : State) : State := tagsGo (s.withHif { s.hif with reads := l })

/-- A vector has become pending (13 R478, R479): its message is sent and the count cleared, or its PBA bit is set
while it is masked. While the function's session is held, and until READY (17 R578), nothing is sent. -/
def msixFire (fn v : Nat) (s : State) : State :=
  if !(look {} s.msix (vecKey fn v)).unmasked then s.updVec (vecKey fn v) (fun x => { x with pba := true })
  else if (s.sessOf fn).state = .held || !s.glb.ready then s
  else (s.updVec (vecKey fn v) (fun x => { x with gathered := 0, pba := false })).tlp (.msix fn v)

/-- One event on a vector (13 R478). -/
def msixGather (fn v : Nat) (s : State) : State :=
  if vecOk fn v then
    let s1 := s.updVec (vecKey fn v) (fun x => { x with gathered := satAdd 4095 x.gathered 1 })
    if max 1 (s.regFld (coalReg fn v) 27 16) ≤ (look {} s1.msix (vecKey fn v)).gathered then msixFire fn v s1 else s1
  else s

/-- A source of a core die's router (11 R392). -/
def State.srcOf (s : State) (d n : Nat) : Src := look {} (s.cdieOf d).router.src n
/-- Change a source. -/
def State.updSrc (s : State) (d n : Nat) (f : Src → Src) : State :=
  s.updCdie d (fun x => { x with router := { x.router with src := upd {} x.router.src n f } })

/-- Can a source have events (11 R392, R393)? -/
def srcFires (n : Nat) : Bool := decide (n < 4095) && !(decide (260 ≤ n) && decide (n ≤ 511))

/-- One event on a router source (11 R394). -/
def routerEvent (d n : Nat) (s : State) : State :=
  if srcFires n then
    s.updSrc d n (fun x =>
      let g := satAdd 4095 x.gathered 1
      { x with gathered := g, pending := x.pending || decide (max 1 (s.regFld (isrc d n) 31 20) ≤ g) })
  else s

/-! ## Events -/

/-- Class and priority of an event code (16 R560, 17 R609). -/
def evKind : Nat → Nat × Nat
  | 0x01 => (0, 1) | 0x02 => (0, 1) | 0x03 => (0, 0) | 0x04 => (0, 0) | 0x05 => (0, 2) | 0x0F => (0, 3)
  | 0x10 => (1, 0) | 0x11 => (1, 0) | 0x12 => (1, 2) | 0x13 => (1, 1)
  | 0x20 => (2, 0) | 0x21 => (2, 0) | 0x22 => (2, 1) | 0x23 => (2, 0) | 0x24 => (2, 2)
  | 0x30 => (3, 0) | 0x31 => (3, 1) | 0x32 => (3, 0) | 0x33 => (3, 2) | 0x34 => (3, 1)
  | 0x40 => (4, 0) | 0x41 => (4, 1) | 0x42 => (4, 0) | 0x43 => (4, 2) | 0x44 => (4, 1)
  | 0x50 => (5, 0) | 0x51 => (5, 2) | 0x52 => (5, 2)
  | 0x60 => (6, 1) | 0x61 => (6, 3) | 0x62 => (6, 1) | 0x63 => (6, 2)
  | 0x70 => (7, 0) | 0x71 => (7, 1) | 0x80 => (8, 2)
  | 0x90 => (9, 1) | 0x91 => (9, 2) | 0x92 => (9, 2) | 0x93 => (9, 2) | 0x94 => (9, 1) | 0x95 => (9, 2)
  | _ => (0, 3)

/-- An event of the table. -/
def ev (code : Nat) (port : Option Nat) (arg : Nat) (extra : List Nat) : EvItem :=
  ⟨(evKind code).1, (evKind code).2, code, port, arg, extra.map (BitVec.ofNat 64)⟩

/-- The words of an event item (16 R559): word 0, the time and the words after it. -/
def evWords (time : Nat) (e : EvItem) : List Word :=
  let w0 := at_ 1 63 + at_ (e.pri % 4) 61 + at_ ((1 + e.extra.length) % 4) 59 + at_ (e.cls % 16) 48
    + at_ (e.code % 256) 40 + at_ (b2n e.port.isSome) 39 + at_ ((e.port.getD 0) % 64) 32 + e.arg % 2 ^ 32
  BitVec.ofNat 64 w0 :: BitVec.ofNat 64 time :: e.extra

/-- The priority an item's first word carries (13 R482). -/
def itemPri (ws : List Word) : Nat := match ws with | [] => 3 | w :: _ => fld w 62 61
/-- The words a FIFO holds (13 R486). -/
def Fifo.words (f : Fifo) : Nat := (f.items.map List.length).sum

/-- Drop the oldest items until an item of n words fits in 2,048 words, counting each (13 R484, 11 R403). -/
def dropOldest (n : Nat) : List (List Word) → Nat → List (List Word) × Nat
  | [], lost => ([], lost)
  | i :: r, lost =>
    if ((i :: r).map List.length).sum + n ≤ 2048 then (i :: r, lost)
    else dropOldest n r (satAdd 0xFFFFFFFF lost 1)

/-- Insert an item whole (13 R482, R484; 11 R401, R403). -/
def Fifo.insert (f : Fifo) (ws : List Word) : Fifo :=
  let (items, lost) := dropOldest ws.length f.items f.lost
  { f with items := items ++ [ws], lost := lost }

/-- Does the limit of 1,000 items of one code in a second admit another (16 R561)? -/
def Fifo.admits (f : Fifo) (code : Nat) : Bool := code == 0x0F || decide (look 0 f.posted code < 1000)

/-- The hub port an item takes in the rotation of insertions (13 R482). -/
def evTurn (e : EvItem) : Nat := (e.port.getD 63) % 64

/-- Post an item of a class the mask admits (16 R561). The rotation goes on after its port (13 R482). -/
def Fifo.post (f : Fifo) (mask : Nat) (e : EvItem) (ws : List Word) : Fifo :=
  if bitOf mask e.cls then f
  else if f.admits e.code then
    { f.insert ws with posted := upd 0 f.posted e.code (fun n => n + 1), ptr := (evTurn e + 1) % 64 }
  else { f with withheld := upd 0 f.withheld e.code (fun n => n + 1) }

/-- Is an item inserted under a mask? -/
def Fifo.takes (f : Fifo) (mask : Nat) (e : EvItem) : Bool := !bitOf mask e.cls && f.admits e.code

/-- EVT_CTL (13 R486). -/
def oEvtCtl : Nat := 0x0400008

/-- Post an item to the host event FIFO; an insertion at a priority of PRIMASK signals PF0's vector (13 R486). -/
def postHost (e : EvItem) (s : State) : State :=
  let mask := s.regFld oEvtCtl 47 32
  let s1 := s.withHfifo (s.hfifo.post mask e (evWords s.time e))
  if s.hfifo.takes mask e && bitOf (s.regFld oEvtCtl 31 28) e.pri then msixGather 0 (s.regFld oEvtCtl 26 16) s1 else s1

/-- Post an item to the FIFO of a core die; an insertion is an event of source 256 + priority (11 R393, R400). -/
def postCore (d : Nat) (e : EvItem) (s : State) : State :=
  let mask := s.regFld (cctl d) 47 32
  let s1 := s.updCdie d (fun x => { x with fifo := x.fifo.post mask e (evWords s.time e) })
  if (s.cdieOf d).fifo.takes mask e then routerEvent d (256 + e.pri) s1 else s1

/-- Codes that go to the core FIFOs only when they concern a device-memory ring (16 R562). -/
def ringCode (c : Nat) : Bool := c == 0x05 || c == 0x22 || c == 0x23 || c == 0x24

/-- Raise an event: to the host FIFO, unless it concerns a device-memory ring, and to every core FIFO (16 R562). -/
def post (e : EvItem) (s : State) : State :=
  let s1 := if ringCode e.code && s.ringDev (e.arg % 4096) then s else postHost e s
  postCore 3 e (postCore 2 e (postCore 1 e (postCore 0 e s1)))

/-- Items that reach a FIFO in one cycle, in the order they are inserted: rotating over hub port index (11 R401, 13 R482). -/
def Fifo.turns (f : Fifo) (l : List EvItem) : List EvItem := sortBy (fun e => rotDist 64 f.ptr (evTurn e)) l

/-- Raise events in one cycle: each FIFO takes them in its own rotation (11 R401, 13 R482, 16 R562). -/
def postAll (l : List EvItem) (s : State) : State :=
  let s1 := ((s.hfifo.turns l).filter (fun e => !(ringCode e.code && s.ringDev (e.arg % 4096)))).foldl (fun st e => postHost e st) s
  (List.range 4).foldl (fun st d => ((st.cdieOf d).fifo.turns l).foldl (fun u e => postCore d e u) st) s1

/-- Who asked, as SETUP_REFUSED reports it (16 R560): function, or bit 15 and the hub port. -/
def whoArg : Agent → Nat
  | .host fn => fn % 32
  | .core c => 0x8000 + at_ (53 + c / 32) 8

/-- SETUP_REFUSED (16 R560). -/
def setupRefused (who : Agent) (off : Nat) (s : State) : State := post (ev 0x80 none (whoArg who) [off]) s

/-- CHECKWORD (16 R553, R560): point and address; bit 31 for a tile-store address. -/
def evCheckword (point : Nat) (tile : Bool) (port : Nat) (addr : Nat) (s : State) : State :=
  post (ev 0x01 (some port) (point + at_ (b2n tile) 31) [addr]) s

/-- Answer a register access. -/
def reply (who : Agent) (off : Nat) (data : Word) (s : State) : State :=
  s.withReplies (s.replies ++ [⟨who, off, data, false⟩])

/-- Answer a register access with Completer Abort. -/
def replyAbort (who : Agent) (off : Nat) (s : State) : State :=
  s.withReplies (s.replies ++ [⟨who, off, 0#64, true⟩])

/-- An answer on the management port or the DOE mailbox. -/
def mgmtReply (r : MgmtReply) (s : State) : State := s.withIvory { s.ivory with replies := s.ivory.replies ++ [r] }

/-- Does a register access of this agent act now? The host's do only while READY is set (17 R578); a core's waits while its CFENCE does
(11 R384, R385). -/
def State.hostGate (s : State) : Agent → Bool
  | .host _ => s.glb.ready
  | .core c => !(s.coreOf c).fence

/-- A register read that does not act now, or is not the agent's: it returns 0 (17 R578, 18 R613); a core that waits for its CFENCE has
not performed it (11 R384). -/
def shutRead (who : Agent) (off : Nat) (s : State) : State :=
  match who with
  | .core c => if (s.coreOf c).fence then s else reply who off 0#64 s
  | .host _ => reply who off 0#64 s

/-- Is the agent the driver of PF0 or the runtime? -/
def isPf0OrCore : Agent → Bool
  | .host fn => fn == 0
  | .core _ => true

/-- May the agent touch what belongs to function fn: cores and PF0 all of it, a VF its own (18 R613). -/
def ownFn (who : Agent) (fn : Nat) : Bool :=
  match who with
  | .host f => f == 0 || f == fn
  | .core _ => true

/-- A write of a register that only PF0 and the runtime write: before READY the host's is not performed, a VF's is
ignored and raises SETUP_REFUSED (17 R578, 18 R613). -/
def pfWrite (who : Agent) (off : Nat) (k : State → State) (s : State) : State :=
  if !s.hostGate who then s else if isPf0OrCore who then k s else setupRefused who off s

/-- Hub port of the agent. -/
def whoPort : Agent → Nat
  | .host _ => 57
  | .core c => 53 + c / 32

/-- A core takes an exception: cause and stval; a trap loses its reservation (11 R364, R382, R387). -/
def coreTrap (c cause tval : Nat) (s : State) : State :=
  s.updCore c (fun x => { x with exc := some (cause, tval), lsr := none })

/-- Is an offset a register of a core die: its FIFO, its router's sources, its cores' own (11 R405 to R408)? -/
def inCoreDie (d off : Nat) : Bool :=
  let in_ := fun (a n : Nat) => decide (a ≤ off) && decide (off < a + n)
  in_ (0x0480000 + 0x100 * d) 0x100 || in_ (0x04A0000 + 0x10000 * d) 0x10000 || in_ (0x04E0000 + 0x200 * d) 0x200

/-- A core die after its reset: empty caches, FIFO and router, their registers at their reset values; cores that failed stay stopped
(11 R390, R391; DEDUCED, log 17: they are the die's own). -/
def resetCoreDie (d : Nat) (s : State) : State :=
  let s1 := (List.range 32).foldl (fun st i => st.updCore (32 * d + i) (fun x => { stopped := x.stopped })) s
  (s1.withRegs (keepKeys (fun off => !inCoreDie d off) s1.regs)).updCdie d (fun x => { rec_ := x.rec_, failed := x.failed })

/-- RISC-V cause of an access fault of a kind: load 5, store or AMO 7 (11 R364). -/
def accCause : AccKind → Nat
  | .load | .vector | .lrsc => 5
  | .store | .amo | .vectorStore | .sc => 7

/-! ## Loss of power -/

/-- GLB_FEATURES: the AND of the fused feature words of all sites (01 R25, R26). -/
def featuresOf (m : List DieInfo) : Nat := m.foldl (fun f d => Nat.land f d.feat) 0xF

/-- The sites at a start: positions recorded as failed, and the spare when no logical tile has it (01 R17, R21). -/
def startSites (r : Repair) : FMap Nat :=
  let m := r.failed.foldl (fun m p => put 0 m p 3) []
  if has 32 r.failed || r.tilemap.any (fun p => p == some 32) then m else put 0 m 32 1

/-- A tier die without power: its flash, its counts and the parts its journal records as open stay (09 R308 to R313). -/
def TierDie.cold (d : TierDie) : TierDie := { d with state := 0, uncorr := 0, programming := [], quiet := [], save := [] }

/-- What Ivory keeps without power (17 R601; 15 R544): flash, fuses, owner, settings, records. A flash being programmed holds no
valid image (17 R585). -/
def Ivory.cold (v : Ivory) : Ivory :=
  { v with flash := if v.fwState = .programming then none else v.flash
           running := none, fwState := .idle, fwBuf := none, fwHost := false, board := 0x100, eid := 0, ide := [] }

/-- The module without power: nothing runs, and what is held without power stays (15 R542, R544; 07 R215; 19 R634). -/
def powerOff (s : State) : State :=
  { State.reset with
    glb := { serial := s.glb.serial, manifest := s.glb.manifest, tilemap := s.repair.tilemap, site := startSites s.repair
             features := featuresOf s.glb.manifest }
    repair := s.repair
    boot := { vin := s.boot.vin, perst := s.boot.perst, pwrbrk := s.boot.pwrbrk, thermtrip := s.boot.thermtrip }
    ivory := s.ivory.cold
    core := s.repair.cores.foldl (fun m c => upd {} m c (fun x => { x with stopped := true })) []
    tier := { die := s.tier.die.map (fun d => (d.1, d.2.cold)), written := s.tier.written, flash := s.tier.flash }
    replies := s.replies
    free := s.free
    pending := s.pending }

/-- A die reaches its trip temperature: THERMTRIP_N is asserted and the package rail turns off; no command completes after it
(15 R542). -/
def thermTrip (s : State) : State := powerOff (s.withBoot { s.boot with thermtrip := true })

/-- Service ends: nothing is accepted and READY falls; what brings it back is a start from power (00 R4, 16 R571). -/
def endService (s : State) : State :=
  ((s.withBoot { s.boot with serviceOver := true, readyOut := false }).withGlb { s.glb with ready := false }).withDisp
    { s.disp with accepting := false }

/-- Cut a range into pieces that end at multiples of a unit. -/
def cutRange (unit : Nat) : Nat → Nat → Nat → List (Nat × Nat)
  | 0, _, _ => []
  | n + 1, a, len =>
    if len = 0 then []
    else
      let k := min len (unit - a % unit)
      (a, k) :: cutRange unit n (a + k) (len - k)

/-! ## The polling interval -/

/-- HIF_POLL.MIN (13 R451). -/
def State.pollMin (s : State) : Nat := clamp 1 200 (s.regFld 0x0100018 15 0)
/-- HIF_POLL.MAX; below MIN it acts as MIN. -/
def State.pollMax (s : State) : Nat := max s.pollMin (clamp 1 200 (s.regFld 0x0100018 31 16))
/-- Is the interval adaptive? -/
def State.pollAdapt (s : State) : Bool := bitOf (s.reg 0x0100018).toNat 32
/-- The interval in use (13 R450). -/
def State.pollNow (s : State) : Nat :=
  if s.pollAdapt then clamp s.pollMin s.pollMax s.hif.pollCur else s.pollMin

end Sys2Proof.Machine
end

