-- ==== Sys2Proof/Machine/Packets.lean ====
section
/-!
DEFINITION. Packets between dies: address zones and homes, link senders, the hub's queues and arbitration, requests
and answers, and what a fenced port answers (02 R37 to R62; 08 R249, R257; 09 R287, R295, R299).
-/
namespace Sys2Proof.Machine

/-! ## Addresses -/

/-- What an address of the 48-bit device space names (08, 09, 12, 14, 18). -/
inductive Zone where
  | direct | frame | stage | ckpt | scratch (die : Nat) | poolCkpt | internal | tiered (tile : Nat) | host
  | ranoa (port : Nat) | none
  deriving DecidableEq, Repr

/-- Units per channel in the mode in force (08 R257). -/
def State.unitsPerCh (s : State) : Nat := if s.memc.active = 1 then 491520 else 524288
/-- Rows in service: W of 08 R257. -/
def State.rowsLeft (s : State) : Nat := s.unitsPerCh - s.memc.maps.length * (s.unitsPerCh / 512)
/-- The end of the HBM range that is backed (08 R251, R257). -/
def State.hbmEnd (s : State) : Nat := s.rowsLeft * 512 * 4096
/-- Base of a pool die's scratch slot (09 R295). -/
def scratchBase (d : Nat) : Nat := 0x010000000000 + d * 0x80000000
/-- Backed bytes of a pool die's scratch; none before the seal and none once it is failed (09 R286, R295, R298). -/
def State.scratchLen (s : State) (d : Nat) : Nat :=
  if !s.glb.sealed || (s.poolOf d).state = 2 then 0 else (8 - (s.poolOf d).active) * 0x10000000
/-- Base of the tiered range (09 R300). -/
def tierBase : Nat := 0x200000000000

/-- The zone of an address. -/
def State.zone (s : State) (a : Nat) : Zone :=
  if a < s.hbmEnd then
    if s.memc.frameBase ≤ a then .frame
    else if s.memc.stageBase ≤ a then .stage
    else if s.memc.ckptBase ≤ a then .ckpt
    else .direct
  else if a < scratchBase 0 then .none
  else if a < scratchBase 4 then
    let d := (a - scratchBase 0) / 0x80000000
    let x := (a - scratchBase 0) % 0x80000000
    if s.scratchLen d ≤ x then .none
    else if d = 3 ∧ s.scratchLen 3 - s.memc.poolCkpt ≤ x then .poolCkpt
    else .scratch d
  else if 0x030000000000 ≤ a ∧ a < 0x030004000000 then .internal
  else if tierBase ≤ a ∧ a < 0x400000000000 then .tiered ((a - tierBase) / 0x100000)
  else if 0x400000000000 ≤ a ∧ a < 0x800000000000 then .host
  else if 0x800000000000 ≤ a ∧ a < 0x1000000000000 then .ranoa ((a - 0x800000000000) / 0x100000000000)
  else .none

/-- Slot c of 08 R249 for a unit number. -/
def unitSlot (u : Nat) : Nat :=
  let w := u / 512
  let h := Nat.xor (Nat.xor (w % 512) ((w / 512) % 512)) (((w / 262144) % 2) * 256)
  Nat.xor (u % 512) h

/-- The j-th slot, from 0, among the slots not in a list (08 R257). -/
def nthFree (maps : List Nat) (j : Nat) : Nat := (((List.range 512).filter (fun c => !has c maps))[j]?).getD 0

/-- Where a unit lies under a list of map-outs: slot and row (08 R257). -/
def State.homeUnder (s : State) (maps : List Nat) (u : Nat) : Nat × Nat :=
  let c := unitSlot u
  let w := u / 512
  let left := s.unitsPerCh - maps.length * (s.unitsPerCh / 512)
  match maps.findIdx? (fun f => f == c) with
  | none => (c, w)
  | some i =>
    let j := i * left + w
    let n := 512 - maps.length
    (nthFree maps (j % n), left + j / n)

/-- Where a unit lies: slot and row (08 R257). -/
def State.unitHome (s : State) (u : Nat) : Nat × Nat := s.homeUnder s.memc.maps u

/-- The map-outs before the one in progress, which registers show until it is complete (08 R256). -/
def State.shownMaps (s : State) : List Nat := if s.memc.mapStep = 3 then s.memc.maps.dropLast else s.memc.maps

/-- The end of the HBM range that registers show (08 R256, step 5; R280). -/
def State.shownEnd (s : State) : Nat := (s.unitsPerCh - s.shownMaps.length * (s.unitsPerCh / 512)) * 512 * 4096

/-- Is a unit lost with the channel whose map-out is in progress (08 R256, steps 1 to 4)? -/
def State.lostUnit (s : State) (u : Nat) : Bool :=
  s.memc.mapStep != 0 && (s.homeUnder s.shownMaps u).1 == s.memc.mapSlot

/-- The stack that homes an HBM address (08 R249). -/
def State.stackFor (s : State) (a : Nat) : Nat := (s.unitHome (a / 4096)).1 % 16
/-- The channel of an HBM address (08 R249). -/
def State.chanFor (s : State) (a : Nat) : Nat := (s.unitHome (a / 4096)).1 / 16

/-- Cache steps of a pool die that counts in N (09 R287). -/
def State.stepsOf (s : State) (d : Nat) : Nat := if (s.poolOf d).state = 2 then 0 else (s.poolOf d).active
/-- N of 09 R287. -/
def State.cacheN (s : State) : Nat := s.stepsOf 0 + s.stepsOf 1 + s.stepsOf 2 + s.stepsOf 3
/-- The die that a slot value falls to (09 R287). -/
def State.slotDie (s : State) (v : Nat) : Nat :=
  if v < s.stepsOf 0 then 0
  else if v < s.stepsOf 0 + s.stepsOf 1 then 1
  else if v < s.stepsOf 0 + s.stepsOf 1 + s.stepsOf 2 then 2 else 3
/-- The pool die that caches an HBM address; none while it recovers (09 R287, R298). -/
def State.cachedBy (s : State) (a : Nat) : Option Nat :=
  if s.cacheN = 0 then none
  else
    let u := a / 4096
    let d := s.slotDie (Nat.xor (Nat.xor u (u / 2048)) (u / 4194304) % s.cacheN)
    if (s.poolOf d).state = 0 then some d else none

/-- The frame to which the hub's tier map resolves a tile (09 R301). -/
def State.frameOf (s : State) (tile : Nat) : Option Nat :=
  match look 0 s.tier.tmap tile with | 0 => none | f + 1 => some f

/-- The frame that holds a tile's bytes, whether or not the hub's map names it now (09 R300, R301). -/
def State.frameIn (s : State) (tile : Nat) : Option Nat :=
  (s.tier.frames.find? (fun f => f.2.tile == some tile && !f.2.filling)).map Prod.fst
/-- The address of a tiered address in a frame (09 R300). -/
def State.inFrame (s : State) (a f : Nat) : Nat := s.memc.frameBase + f * 0x100000 + (a - tierBase) % 0x100000

/-- The HBM address to which the hub resolves an address; none for a tile that its map does not hold (09 R301). -/
def State.resolve (s : State) (a : Nat) : Option Nat :=
  match s.zone a with
  | .tiered t => (s.frameOf t).map (s.inFrame a)
  | _ => some a

/-- The HBM address where an address is stored; none for a tile in flash only (09 R300). -/
def State.place (s : State) (a : Nat) : Option Nat :=
  match s.zone a with
  | .tiered t => (s.frameIn t).map (s.inFrame a)
  | _ => some a

/-- The hub port of an address's home or target: the pool die that caches it, its stack, its pool die, the host die
or a Ranoa die; none when it decodes to no target (02 R61). -/
def State.targetOf (s : State) (a : Nat) : Option Nat :=
  let hbm := fun x => match s.cachedBy x with | some d => some (49 + d) | none => some (33 + s.stackFor x)
  match s.zone a with
  | .direct | .frame | .stage | .ckpt => hbm a
  | .tiered _ => match s.resolve a with | some x => hbm x | none => some 63
  | .scratch d => some (49 + d)
  | .poolCkpt => some 52
  | .internal => some 63
  | .host => some 57
  | .ranoa n => some (58 + n / 4)
  | .none => none

/-- Does an address that decodes to no target draw RESP_ERR for a read too: one beyond the range of Indigo mode, or in a scratch slot
(08 R251, 09 R286, R295)? -/
def State.errOnly (s : State) (a : Nat) : Bool :=
  (decide (s.unitsPerCh * 512 * 4096 ≤ a) && decide (a < scratchBase 0)) || (decide (scratchBase 0 ≤ a) && decide (a < scratchBase 4))

/-! ## Packet forms -/

/-- The virtual channel of a packet (02 R38, R39). -/
def opVc : PktOp → Nat
  | .read | .narrowRead | .atomic | .coh => 0
  | .respData | .respAck | .respErr | .respRetry => 1
  | .write | .writeMasked | .engine => 2
  | .syncOp | .syncWake | .dispatch => 3
  | .mgmt => 4

/-- The opcode of a packet type (02 R39). -/
def opCode : PktOp → Nat
  | .read => 0x01 | .narrowRead => 0x02 | .write => 0x03 | .writeMasked => 0x04 | .atomic => 0x08 | .engine => 0x09
  | .coh => 0x0C | .syncOp => 0x10 | .syncWake => 0x11 | .dispatch => 0x12 | .respData => 0x20 | .respAck => 0x21
  | .respErr => 0x22 | .respRetry => 0x23 | .mgmt => 0x30

/-- The packet type of an opcode; every other opcode is reserved (02 R39). -/
def opOfCode (c : Nat) : Option PktOp :=
  [.read, .narrowRead, .write, .writeMasked, .atomic, .engine, .coh, .syncOp, .syncWake, .dispatch, .respData, .respAck,
   .respErr, .respRetry, .mgmt].find? (fun op => opCode op == c)

/-- ADDR of a packet: of a READ, the sector's address with the read length in the low bits (02 R38, R39; log 60). -/
def addrField (p : Pkt) : Nat :=
  if p.op = .read then p.addr % 2 ^ 48 / 64 * 64 + (Config.readLenCode p.rdLen).toNat else p.addr % 2 ^ 48

/-- The header of a packet on a link, whose SEQ and EPOCH the link gives (02 R38). -/
def headerOf (seq epoch : Nat) (p : Pkt) : BitVec 128 :=
  BitVec.ofNat 128 (at_ (opCode p.op) 120 + at_ (opVc p.op) 117 + at_ (p.payload.length / 16) 112 + at_ (p.dst % 64) 106
    + at_ (p.src % 64) 100 + at_ (seq % 65536) 84 + at_ (epoch % 8) 81 + at_ (b2n p.poison) 80 + at_ (p.tid % 2 ^ 32) 48
    + addrField p)

/-- What follows the header: the payload and its check words (02, Packets). -/
def bodyOf (p : Pkt) : List Byte := p.payload ++ p.checks.flatMap (fun c => leBytes 4 c.toNat)

/-- What the link CRC covers: header, payload and check words (02 R41). The header's bytes go from its low end: the spec gives that
order to registers, records and table entries and names no packet (00 R8; log 19, DESIGN CHOICE). -/
def crcOf (hdr : BitVec 128) (body : List Byte) : BitVec 32 := linkCrc (leBytes 16 hdr.toNat ++ body)

/-- Does a packet pass the link check (02 R38, R39, R41)? -/
def rawOk (hdr : BitVec 128) (body : List Byte) (crc : BitVec 32) : Bool :=
  crcOf hdr body == crc && decide (fld hdr 116 112 ≤ 16)
  && body.length == 16 * fld hdr 116 112 + 4 * (fld hdr 116 112 / 4)
  && match opOfCode (fld hdr 127 120) with
    | some op => opVc op == fld hdr 119 117
    | none => false

/-- What a link's receiver finds in a packet. -/
inductive RawFind where
  | taken | stale | bad | gap
  deriving DecidableEq, Repr

/-- Is the packet a request or data packet that draws an answer (02 R43)? -/
def opIsReq : PktOp → Bool
  | .read | .narrowRead | .write | .writeMasked | .atomic | .engine | .coh | .syncOp => true
  | .syncWake | .dispatch | .respData | .respAck | .respErr | .respRetry | .mgmt => false

/-- Is the packet a read, which a dead target answers with poisoned data (02 R60)? -/
def opIsRead : PktOp → Bool
  | .read | .narrowRead => true
  | _ => false

/-- The bytes of a packet on a link (02, The switch: header, payload, check words, link CRC). -/
def pktBytes (p : Pkt) : Nat := 20 + p.payload.length + 4 * p.checks.length

/-- One check word for each whole sector of a payload. -/
def sectorChecks : Nat → List Byte → List (BitVec 32)
  | 0, _ => []
  | n + 1, d => if d.length < 64 then [] else crc32c (d.take 64) :: sectorChecks n (d.drop 64)

/-- The answer to a packet. -/
def answer (op : PktOp) (p : Pkt) (addr : Nat) (poison : Bool) (payload : List Byte) : Pkt :=
  ⟨op, p.dst, p.src, p.tid, addr, poison, payload, sectorChecks 4 payload, 0⟩

/-- The hub's own answer for a dead or absent target (02 R60, R61). What a coherence request receives the rule does not list: RESP_ERR
here, as a write does (log 19, DESIGN CHOICE). -/
def deadAnswer (p : Pkt) (reason : Nat) : Pkt :=
  if opIsRead p.op then
    answer .respData p reason true (List.replicate (if p.op = .narrowRead then 32 else p.rdLen) 0xFF#8)
  else answer .respErr p reason false []

/-- The answer for an address that decodes to no target (02 R61; 08 R251, R256; 09 R295). -/
def State.noTarget (s : State) (p : Pkt) : Pkt := if s.errOnly p.addr then answer .respErr p 0x03 false [] else deadAnswer p 0x03

/-! ## Link senders -/

/-- Nominal width of a port (02 R36). -/
def nomWidth (p : Nat) : Nat :=
  if p ≤ 48 then 16 else if p ≤ 52 then 64 else if p ≤ 56 then 4 else if p = 57 then 2
  else if p ≤ 61 then 4 else if p = 62 then 1 else 0
/-- Minimum width of a port (02 R36). -/
def minWidth (p : Nat) : Nat :=
  if p ≤ 48 then 8 else if p ≤ 52 then 32 else if p ≤ 56 then 2 else if p = 57 then 1
  else if p ≤ 61 then 2 else if p = 62 then 1 else 0
/-- Is the port electrical (02 R36)? -/
def isUcie (p : Nat) : Bool := decide (53 ≤ p) && decide (p ≤ 57)
/-- Does a site run: with both emitters failed every optical site has stopped (02 R36, R66)? -/
def State.siteLive (s : State) (p : Nat) : Bool := !s.hub.stopped || isUcie p || p == 63
/-- Packet slots of a receiver of a port's link by virtual channel (02 R45). -/
def slots (p vc : Nat) : Nat :=
  let row := if p ≤ 48 then [96, 96, 192, 32, 8] else if p ≤ 52 then [384, 384, 768, 32, 8]
    else if p ≤ 61 then [48, 48, 64, 32, 8] else [8, 8, 8, 8, 16]
  (row[vc]?).getD 0
/-- Bytes of a port's replay buffer (02 R46). -/
def replayBytes (p : Nat) : Nat := if p ≤ 52 then 131072 else 32768
/-- What a credit counts for. The hub has a queue of the table's slots for each virtual channel and output, so that sources stall
on credits for one destination only (02 R37, R55); a die has them for each channel. DEDUCED (log 19): R45 gives the numbers per
channel and does not say that each output has them. -/
def slotKey (sd : Side) (p : Pkt) : Nat := match sd with | .die => 8 * p.dst + opVc p.op | .hub => opVc p.op

/-- Has the sender room in its replay buffer (02 R46), and a credit for a packet whose slot was not set aside (02 R43, R45)? -/
def LinkEnd.canSend (e : LinkEnd) (sd : Side) (port : Nat) (aside : Bool) (p : Pkt) : Bool :=
  (aside || decide (look 0 e.used (slotKey sd p) < slots port (opVc p.op))) &&
  decide ((e.replay.map (fun r => pktBytes r.2)).sum + pktBytes p ≤ replayBytes port)

/-- Send a packet on a link: a sequence number, an entry of the replay buffer, and a slot unless one was set aside for it
(02 R43, R45, R46). -/
def LinkEnd.push (e : LinkEnd) (sd : Side) (aside : Bool) (p : Pkt) : LinkEnd :=
  { e with seq := (e.seq + 1) % 65536, replay := e.replay ++ [(e.seq, p)]
           used := if aside then e.used else upd 0 e.used (slotKey sd p) (fun n => n + 1) }

/-- Does a port carry packets now (02 R55, R58, R63)? Port 63 has no link. -/
def State.portUp (s : State) (p : Nat) : Bool :=
  p == 63 || ((s.linkOf p).state == 2 && !(s.linkOf p).fenced && !(s.linkOf p).paused)
/-- Is a port fenced (02 R58)? -/
def State.fenced (s : State) (p : Nat) : Bool := p != 63 && (s.linkOf p).fenced

/-! ## The hub -/

/-- Put a packet in the hub's queues. -/
def State.addVoq (s : State) (p : Pkt) (aside made : Bool := false) : State :=
  s.withHub { s.hub with voq := s.hub.voq ++ [⟨p, false, aside, made⟩] }

/-- Packets at the head of their queue toward an output: the first of each input and channel (02 R37). -/
def voqHeads (dst : Nat) (seen : List (Nat × Nat)) : List Voq → List Voq
  | [] => []
  | v :: r =>
    if v.fwd || v.pkt.dst != dst || seen.any (fun k => k == (v.pkt.src, (opVc v.pkt.op))) then voqHeads dst seen r
    else v :: voqHeads dst ((v.pkt.src, (opVc v.pkt.op)) :: seen) r

/-- A slot of the receiver of a side's packets is free: its credit goes back to the sender (02 R45). -/
def freeSlotOf (sd : Side) (v : Voq) (s : State) : State :=
  let port := match sd with | .die => v.pkt.src | .hub => v.pkt.dst
  if v.aside || port == 63 || (sd == .die && v.made) then s
  else match sd with
    | .die => s.updLink port (fun l => { l with hub := { l.hub with ctl := l.hub.ctl ++ [.credit v.pkt.dst (opVc v.pkt.op) 1] } })
    | .hub => s.updLink port (fun l => { l with die := { l.die with ctl := l.die.ctl ++ [.credit port (opVc v.pkt.op) 1] } })

/-- Grant waiting packets of an output in rotating priority, while its receiver has credits (02 R45, R56). Of several channels'
heads at the input that is granted, the spec does not say which goes first: the oldest in the hub does (log 7, DESIGN CHOICE). -/
def pump : Nat → Nat → State → State
  | 0, _, s => s
  | n + 1, dst, s =>
    if !s.portUp dst then s
    else
      let ok := fun v : Voq => dst == 63 || (s.linkOf dst).hub.canSend .hub dst v.aside v.pkt
      let heads := (voqHeads dst [] s.hub.voq).filter ok
      match rotPick 64 (look 0 s.hub.arb dst) (heads.map (fun v => v.pkt.src)) with
      | none => s
      | some i =>
        match heads.find? (fun v => v.pkt.src == i) with
        | none => s
        | some v =>
          let voq := updFirst (fun w => !w.fwd && w.pkt == v.pkt) (fun w => { w with fwd := true }) s.hub.voq
          let s1 := s.withHub { s.hub with voq := voq, arb := put 0 s.hub.arb dst ((i + 1) % 64) }
          let s2 := if dst = 63 then s1 else s1.updLink dst (fun l => { l with hub := l.hub.push .hub v.aside v.pkt })
          pump n dst (freeSlotOf .die v s2)

/-- Grant what an output can take now. -/
def pumpOut (dst : Nat) (s : State) : State := pump s.hub.voq.length dst s

/-- A packet of the hub's own, an answer or one of an agent at port 63, enters its output's queue (02 R56, R60, R61). -/
def hubSays (p : Pkt) (s : State) : State := pumpOut p.dst (s.addVoq p false true)

/-- A packet enters the hub (02 R37, R60, R61): to a fenced port the hub answers requests itself and drops the rest; a
response to a request that the hub has answered is dropped. -/
def hubTake (p : Pkt) (aside made : Bool) (s : State) : State :=
  if s.fenced p.dst then
    let s1 := freeSlotOf .die ⟨p, true, aside, made⟩ s
    if opIsReq p.op then hubSays (deadAnswer p 0x02) s1 else s1
  else if opVc p.op = 1 ∧ s.hub.dropped.any (fun d => d == (p.dst, p.tid)) then freeSlotOf .die ⟨p, true, aside, made⟩ s
  else pumpOut p.dst (s.addVoq p aside made)

/-- Two packets of one source, target and virtual channel, which arrive in the order they were sent (02 R42). -/
def sameWay (p q : Pkt) : Bool := p.src == q.src && p.dst == q.dst && opVc p.op == opVc q.op

/-- A die sends a packet (02 R42, R45, R46, R58): at once, or it waits in the die for a credit, replay room or the link, behind
the packets of its own way only. A packet whose slot was set aside needs no credit (02 R43). A fenced port injects nothing; the
agents of port 63 have no link to the hub. -/
def sendWith (aside : Bool) (p : Pkt) (s : State) : State :=
  if p.src = 63 then hubTake p aside true s
  else if s.fenced p.src then s
  else if s.portUp p.src && !(s.linkOf p.src).die.wait.any (fun w => sameWay w.2 p)
      && (s.linkOf p.src).die.canSend .die p.src aside p then
    hubTake p aside false (s.updLink p.src (fun l => { l with die := l.die.push .die aside p }))
  else s.updLink p.src (fun l => { l with die := { l.die with wait := l.die.wait ++ [(aside, p)] } })

/-- A die sends a packet. -/
def send (p : Pkt) (s : State) : State := sendWith false p s

/-- Send what waits in a die, in order, as far as credits, room and the link allow. -/
def drainWait (port : Nat) (s : State) : State :=
  (s.linkOf port).die.wait.foldl (fun st w => sendWith w.1 w.2 st)
    (s.updLink port (fun l => { l with die := { l.die with wait := [] } }))

/-- A link can carry packets again, or has credits or room again: both senders go on. -/
def linkGo (port : Nat) (s : State) : State := pumpOut port (drainWait port s)

/-- The eight bytes of a link control word: acknowledgements, negative ones, credit returns, heartbeats and epoch changes, under a CRC of
their own (02 R39, 14 R490; log 60). -/
def Ctl.word (c : Ctl) : List Byte :=
  let body := match c with
    | .heartbeat => Config.ctlBody 0 []
    | .ack n => Config.ctlBody 1 [n]
    | .nak => Config.ctlBody 2 []
    | .credit d v n => Config.ctlBody 3 [d, v, n]
    | .epoch e => Config.ctlBody 4 [e]
  leBytes 6 body.toNat ++ leBytes 2 (Config.ctlCrc body).toNat

/-! ## Requests and answers -/

/-- Does an ENGINE packet name GATHER_ROWS (08 R271)? -/
def isGather (p : Pkt) : Bool := p.op == .engine && p.payload.head? == some 1#8
/-- The answers a request draws: one, or the packets that GATHER_ROWS returns (08 R272). -/
def answersOf (p : Pkt) : Nat :=
  if isGather p then max 1 (ceilDiv (leAt p.payload 2 1 * leAt p.payload 4 2) 256) else 1

/-- Record a request as outstanding (02 R49, R61); a TID used anew is no longer one that the hub has answered. -/
def State.addOutst (s : State) (o : Outst) : State :=
  s.withHub { s.hub with outst := s.hub.outst ++ [o], dropped := s.hub.dropped.filter (fun d => d != (o.src, o.tid)) }
/-- The outstanding request of a source and TID. -/
def State.findOutst (s : State) (src tid : Nat) : Option Outst :=
  s.hub.outst.find? (fun o => o.src == src && o.tid == tid)
/-- Take a request off the outstanding ones. -/
def State.dropOutst (s : State) (src tid : Nat) : State :=
  s.withHub { s.hub with outst := s.hub.outst.filter (fun o => !(o.src == src && o.tid == tid)) }

/-- Requests of a source that are outstanding (02 R49). -/
def State.outCount (s : State) (src : Nat) : Nat := (s.hub.outst.filter (fun o => o.src == src)).length

/-- The destination of a request whose address decodes to no target: the hub answers it (02 R61). -/
def noPort : Nat := 64

/-- Issue a request now: the source's next TID, outstanding until its answer (02 R49, R50). One that decodes to no target is
answered by the hub with reason 0x03 (02 R61). -/
def issue (p : Pkt) (use : Use) (s : State) : State :=
  let tid := look 0 s.hub.nextTid p.src
  let s1 := s.withHub { s.hub with nextTid := put 0 s.hub.nextTid p.src ((tid + 1) % 2 ^ 32) }
  let dst := if p.dst = noPort then 63 else p.dst
  let s2 := s1.addOutst ⟨p.src, tid, dst, p.op, p.addr, p.rdLen, use, if p.dst = noPort then 1 else answersOf p, false⟩
  if p.dst = noPort then hubSays (s2.noTarget { p with tid := tid, dst := 63 }) s2 else send { p with tid := tid } s2

/-- Issue a request, or let it wait while its source has 4,096 outstanding or an older one waits (02 R49). -/
def request (p : Pkt) (use : Use) (s : State) : State :=
  if 4096 ≤ s.outCount p.src ∨ s.hub.bound.any (fun b => b.1.src == p.src) then
    s.withHub { s.hub with bound := s.hub.bound ++ [(p, use)] }
  else issue p use s

/-- The slot of a tile that a request serves. -/
def Use.slotNum : Use → Nat
  | .move _ k _ _ | .tsync _ k _ => k
  | _ => 0

/-- The request of a source that is issued next of those that wait: a tile's slots take turns, and of one slot the oldest goes (02 R49,
03 R104). -/
def State.boundNext (s : State) (src : Nat) : Option (Pkt × Use) :=
  let mine := s.hub.bound.filter (fun b => b.1.src == src)
  match rotPick 4 (look 0 s.hub.slotPtr src) (mine.map (fun b => b.2.slotNum)) with
  | none => none
  | some k => mine.find? (fun b => b.2.slotNum == k)

/-- A source has fewer requests outstanding: one of its requests that wait for that is issued (02 R49). -/
def boundGo (src : Nat) (s : State) : State :=
  match s.boundNext src with
  | none => s
  | some b =>
    if 4096 ≤ s.outCount src then s
    else issue b.1 b.2 (s.withHub { s.hub with
      bound := dropFirst (fun x => x == b) s.hub.bound, slotPtr := put 0 s.hub.slotPtr src ((b.2.slotNum + 1) % 4) })

/-- As many of a source's waiting requests as it may have outstanding are issued (02 R49). -/
def boundAll (src : Nat) (s : State) : State :=
  (s.hub.bound.filter (fun b => b.1.src == src)).foldl (fun st _ => boundGo src st) s

/-- Issue a request to an address (02 R61). -/
def requestAt (op : PktOp) (src addr : Nat) (poison : Bool) (payload : List Byte) (rdLen : Nat) (use : Use)
    (s : State) : State :=
  request ⟨op, src, (s.targetOf addr).getD noPort, 0, addr, poison, payload, sectorChecks 4 payload, rdLen⟩ use s

/-- A packet reaches its target: it leaves the hub, and its slot at the target is free. -/
def leaveHub (p : Pkt) (s : State) : State :=
  match s.hub.voq.find? (fun v => v.pkt == p) with
  | none => s
  | some v => freeSlotOf .hub v (s.withHub { s.hub with voq := dropFirst (fun v => v.pkt == p) s.hub.voq })

/-- Is a packet on its way: inside the hub, or waiting with its sender? -/
def State.onWay (s : State) (p : Pkt) : Bool :=
  s.hub.voq.any (fun v => v.pkt == p) || (s.linkOf p.src).die.wait.any (fun w => w.2 == p)
  || s.hub.bound.any (fun b => { b.1 with tid := p.tid } == p)

/-- May a packet inside the hub reach its target now: its output has granted it, no older packet of its way is before it, and
the target's link carries packets (02 R42, R55, R63). -/
def State.canArrive (s : State) (p : Pkt) : Bool :=
  (p.dst == 63 || s.portUp p.dst) &&
  match s.hub.voq.find? (fun v => sameWay v.pkt p) with
  | some v => v.pkt == p && v.fwd
  | none => false

/-- A packet comes to its target, if it can now. One that the model has not sent comes from an agent whose packets are no commands
of their own (a core, the Ivory die, the host die): it is sent first, as any other (log 15, 19). -/
def reach (p : Pkt) (s : State) : State × Bool :=
  let s1 := if s.onWay p then s else send p s
  if s1.canArrive p then (leaveHub p s1, true) else (s1, false)

/-- Has the target accepted this TID of this source before (02 R49)? -/
def State.seenTid (s : State) (dst src tid : Nat) : Bool := has tid (look [] s.hub.seen (dst * 64 + src))
/-- Note an accepted TID among the last 4,096 (02 R49). -/
def State.noteTid (s : State) (dst src tid : Nat) : State :=
  s.withHub { s.hub with seen := upd [] s.hub.seen (dst * 64 + src) (fun l => (tid :: l).take 4096) }

/-- A request the model did not issue itself becomes outstanding, with the answers it draws. A packet names a core die and no core: its
coherence request counts for any of the die's cores, which the number 128 says here (11 R384). -/
def State.noteReq (s : State) (p : Pkt) (n : Nat) : State :=
  let use := if p.op = .coh ∧ 53 ≤ p.src ∧ p.src ≤ 56 then Use.coh (p.src - 53) 128 (leAt p.payload 0 1) p.addr else .plain
  if (s.findOutst p.src p.tid).isSome then s else s.addOutst ⟨p.src, p.tid, p.dst, p.op, p.addr, p.rdLen, use, n, false⟩

/-- A request that is not on its way yet may come: its source is not fenced and has fewer than 4,096 outstanding (02 R49, R58). -/
def State.mayCome (s : State) (p : Pkt) : Bool :=
  s.onWay p || (!s.fenced p.src && decide (s.outCount p.src < 4096))

/-- A request arrives at its target: `k` runs on it unless its TID is a duplicate, which is discarded unanswered
(02 R49), or its source is fenced, which injects nothing (02 R58). A request to a fenced port is answered by the hub (02 R60). -/
def arriveReq (p : Pkt) (k : State → State) (s : State) : State :=
  if s.seenTid p.dst p.src p.tid then (if s.onWay p && s.canArrive p then leaveHub p s else s)
  else if !s.mayCome p then s
  else
    let r := reach p (if s.onWay p then s else s.noteReq p (answersOf p))
    if r.2 then k (r.1.noteTid p.dst p.src p.tid) else r.1

/-- Answer a request from its target. -/
def respond (op : PktOp) (p : Pkt) (addr : Nat) (poison : Bool) (payload : List Byte) (s : State) : State :=
  send (answer op p addr poison payload) s

end Sys2Proof.Machine
end

