-- ==== Sys2Proof/Machine/Home.lean ====
section
/-!
DEFINITION. What a home does with a request: address rules, coherence snoops, the access itself, the answer
(08 R251 to R253, R262, R268 to R273; 09 R295 to R303; 11 R370 to R378; 07 R231, R246).
-/
namespace Sys2Proof.Machine

/-! ## Homes, directories -/

/-- The home at a hub port: a stack's base die or a pool die (for its scratch part). -/
def State.homeOf (s : State) (h : Nat) : HomeSt := if h < 49 then (s.stackOf (h - 33)).home else (s.poolOf (h - 49)).home
/-- Change a home. -/
def State.updHome (s : State) (h : Nat) (f : HomeSt → HomeSt) : State :=
  if h < 49 then s.updStack (h - 33) (fun x => { x with home := f x.home })
  else s.updPool (h - 49) (fun x => { x with home := f x.home })

/-- The directory entry of a sector. -/
def HomeSt.ent (h : HomeSt) (n : Nat) : Option DirEnt := h.dir.find? (fun d => d.sector == n)
/-- The dies that hold a sector by its entry (11 R371). -/
def DirEnt.holders (d : DirEnt) : List Nat := match d.owner with | some o => [o] | none => d.sharers
/-- Replace a sector's entry; an entry without holders goes. -/
def HomeSt.setEnt (h : HomeSt) (d : DirEnt) : HomeSt :=
  let keep := !(d.owner.isNone && d.sharers.isEmpty)
  let l := updFirst (fun x => x.sector == d.sector) (fun _ => d) h.dir
  if h.dir.any (fun x => x.sector == d.sector) then
    { h with dir := l.filter (fun x => x.sector != d.sector || keep) }
  else if keep then { h with dir := h.dir ++ [d] } else h
/-- A die no longer holds a sector. -/
def HomeSt.dropHolder (h : HomeSt) (n die : Nat) : HomeSt :=
  match h.ent n with
  | none => h
  | some d => h.setEnt { d with
      owner := if d.owner = some die then none else d.owner
      sharers := del die d.sharers
      fwd := if d.fwd = some die then none else d.fwd }

/-- Is one of the sectors in a transaction (11 R374)? -/
def HomeSt.busyAny (h : HomeSt) (secs : List Nat) : Bool := h.busy.any (fun t => t.sectors.any (fun n => has n secs))

/-! ## Address rules -/

/-- Does the packet change memory? -/
def isWriteOp (p : Pkt) : Bool :=
  match p.op with
  | .write | .writeMasked | .atomic => true
  | .engine => !isGather p
  | _ => false

/-- The row addresses of a GATHER_ROWS packet (08 R271). -/
def gatherRows (p : Pkt) : List Nat :=
  (List.range (leAt p.payload 2 1)).map (fun i => leAt p.payload (16 + 8 * i) 8 % 2 ^ 48)

/-- The bytes an access covers. -/
def accessLen (p : Pkt) : Nat :=
  match p.op with
  | .read => p.rdLen
  | .narrowRead => 32
  | .write => p.payload.length
  | .atomic => leAt p.payload 9 1
  | .engine => if isGather p then leAt p.payload 4 2 else p.payload.length - 16
  | _ => 64

/-- The sectors an access covers. -/
def accessSecs (p : Pkt) : List Nat :=
  if isGather p then (gatherRows p).flatMap (fun a => sectorsOf a (leAt p.payload 4 2))
  else if p.op = .writeMasked then [sectorOf p.addr]
  else sectorsOf p.addr (max 1 (accessLen p))

/-- Does a packet read or write memory at its target, or ask its home for a sector? -/
def opAccess : PktOp → Bool
  | .read | .narrowRead | .write | .writeMasked | .atomic | .engine | .coh => true
  | _ => false

/-- The source whose turn it is at a home or a pool die: of the requests that can arrive now and touch a sector that one does, by
rotating priority over the source port (08 R246, 09 R292). -/
def State.engineTurn (s : State) (p : Pkt) : Option Nat :=
  rotPick 64 (s.homeOf p.dst).ptr ((s.hub.voq.filter (fun v => v.pkt.dst == p.dst && opAccess v.pkt.op && s.canArrive v.pkt
    && (accessSecs v.pkt).any (fun n => has n (accessSecs p)))).map (fun v => v.pkt.src))

/-- A request of one kind arrives (02 R49, R58, R60); at a home or a pool die when its turn comes (08 R246, 09 R292). -/
def homeRow (p : Pkt) (k : State → State) (s : State) : State :=
  if 33 ≤ p.dst ∧ p.dst ≤ 52 then
    let s0 := if s.onWay p || s.seenTid p.dst p.src p.tid || !s.mayCome p then s else send p (s.noteReq p (answersOf p))
    if s0.engineTurn p = some p.src then
      arriveReq p (fun st => k (st.updHome p.dst (fun x => { x with ptr := (p.src + 1) % 64 }))) s0
    else s0
  else arriveReq p k s

/-- Has a home a use for a sector: an entry, a transaction or a queued request (09 R291)? -/
def HomeSt.uses (h : HomeSt) (n : Nat) : Bool :=
  (h.ent n).isSome || h.busyAny [n] || h.queue.any (fun q => has n (accessSecs q.1))

/-- Is a request that a pool die has forwarded for a sector still on its way to the home? -/
def State.comingFrom (s : State) (d h n : Nat) : Bool :=
  (s.hub.voq.map Voq.pkt ++ (s.linkOf (49 + d)).die.wait.map Prod.snd ++ s.hub.bound.map Prod.fst).any (fun p =>
    p.src == 49 + d && p.dst == h && opIsReq p.op && has n (accessSecs p))

/-- A pool line of a cached address: state H ends once no directory entry and no queued request of its home remain
(09 R291), a forwarded one on its way among them: its grant would let a core hold the line (09 R288). -/
def releaseLine (h n : Nat) (s : State) : State :=
  if 49 ≤ h ∨ (s.homeOf h).uses n then s
  else match s.cachedBy ((s.place (64 * n)).getD (64 * n)) with
    | none => s
    | some d =>
      if (look {} (s.poolOf d).lines n).st = .h ∧ !s.comingFrom d h n then
        s.updPool d (fun x => { x with lines := put {} x.lines n {} })
      else s

/-- Is the sender a pool die, whose fills and write-backs are not checked (09 R287)? -/
def fromPool (p : Pkt) : Bool := decide (49 ≤ p.src) && decide (p.src ≤ 52)
/-- May the sender name an address of the frames: a tier die, or a pool die (09 R287, R299)? -/
def privileged (p : Pkt) : Bool := fromPool p || p.src == 60 || p.src == 61

/-- Does the state of its tier die forbid an access to a tile (09 R313, R314)? -/
def State.tierBars (s : State) (tile : Nat) (write : Bool) : Bool :=
  (s.tdieOf (tile % 2)).state == 3 || ((s.tdieOf (tile % 2)).state == 2 && write)

/-- Why a home refuses an access to one address: 0x03 no target, 0x04 refused (02 R61; 08 R251, R256; 09 R295 to R299, R313, R314;
12 R423; 13 R472). The rows of a gather in a lost unit are answered one by one. -/
def addrErr (h : Nat) (p : Pkt) (s : State) (a : Nat) : Option Nat :=
  let stopped := decide (h < 49) && !isGather p && s.lostUnit (((s.place a).getD a) / 4096)
  match s.zone a with
  | .none => some 0x03
  | .direct => if stopped then some 0x04 else none
  | .frame => if !privileged p then some 0x04 else if stopped then some 0x04 else none
  | .stage => if p.src = 57 || fromPool p then (if stopped then some 0x04 else none) else some 0x04
  | .ckpt => if p.src = 63 || fromPool p then (if stopped then some 0x04 else none) else some 0x04
  | .poolCkpt => if p.src = 63 then none else some 0x04
  | .scratch _ => if p.op = .atomic || (p.op = .engine && !isGather p) then some 0x04 else none
  | .tiered t => if s.tierBars t (isWriteOp p) || stopped then some 0x04 else none
  | _ => some 0x04

/-- Why a home refuses an access. -/
def accessErr (h : Nat) (p : Pkt) (s : State) : Option Nat :=
  (p.addr :: (if isGather p then gatherRows p else [])).findSome? (addrErr h p s)

/-- The answer for an access to a unit that is lost or withdrawn, or as the hub gives it: a read gets poisoned data, everything else
RESP_ERR (02 R60, 08 R256). -/
def refuse (p : Pkt) (reason : Nat) (s : State) : State := send (deadAnswer p reason) s

/-- A target refuses an access, a read too, with RESP_ERR (08 R251, R268; 09 R295, R297, R299; 12 R423; 13 R472). -/
def refuseErr (p : Pkt) (reason : Nat) (s : State) : State := send (answer .respErr p reason false []) s

/-- The hub answers an access that a die behind it refuses: the answer names that die (01 R34; 09 R313, R314). -/
def refuseAs (port : Nat) (p : Pkt) (reason : Nat) (s : State) : State := hubSays { answer .respErr p reason false [] with src := port } s

/-- A request has come to a target that its address is no longer sent to: the hub sends it on to the one that it is sent to now. -/
def redirect (p : Pkt) (s : State) : State :=
  match s.targetOf p.addr with
  | some t => if t = p.dst then refuseErr p 0x03 s else hubTake { p with dst := t } false true s
  | none => send (s.noTarget p) s

/-- A home refuses an access: the answer names the home, or the tier die whose state forbids it (09 R313, R314). A unit lost with its
channel or withdrawn has data of its own (08 R256). -/
def refuseHome (p : Pkt) (reason : Nat) (s : State) : State :=
  match s.zone p.addr with
  | .tiered t => if s.tierBars t (isWriteOp p) then refuseAs (60 + t % 2) p reason s else refuse p reason s
  | .none => send (s.noTarget p) s
  | .scratch _ | .poolCkpt => refuseErr p reason s
  | _ => if s.lostUnit (p.addr / 4096) then refuse p reason s else refuseErr p reason s

/-! ## Errors the codes find -/

/-- A pool die stores a sector poisoned (09 R285, R318). -/
def poolUncorr (d : Nat) (s : State) : State := s.updPool d (fun x => { x with uncorr := satAdd 0xFFFF x.uncorr 1 })

/-- A sector that no code corrects: stored poisoned, counted, reported (08 R253, 09 R285, 16 R553). -/
def uncorrectable (h a n : Nat) (s : State) : State :=
  if s.mem.isPoison n then s
  else
    let s1 := s.withMem ((s.mem.setPoison n true).fixCk n)
    if h < 49 then
      post (ev 0x02 (some h) (s.chanFor (64 * n)) [a])
        (s1.updStack (h - 33) (fun x => { x with uncorr := satAdd 0xFFFF x.uncorr 1 }))
    else post (ev 0x02 (some h) 0 [a]) (poolUncorr (h - 49) s1)

/-- Read sectors under their codes (08 R252, R253): what the codes find applies to the first sector; a check word
that fails is an error no code corrects. `a` is the sector's address as the access names it. -/
def readCodes (h : Nat) (e : DramErr) (secs : List Nat) (s : State) : State :=
  let s1 := match e, secs with
    | .corrected, _ :: _ =>
      if h < 49 then s.updStack (h - 33) (fun x => { x with corr := satAdd 0xFFFF x.corr 1 }) else s
    | .uncorrectable, n :: _ => uncorrectable h (64 * n) n s
    | _, _ => s
  secs.foldl (fun st n => if st.mem.ckBad n then uncorrectable h (64 * n) n st else st) s1

/-! ## Tier parts and ring headers -/

/-- An access reaches a frame: reference bit, and a write's part becomes dirty (09 R303, R304). -/
def touchFrame (a : Nat) (write : Bool) (s : State) : State :=
  match s.zone a with
  | .tiered t =>
    match s.frameIn t with
    | none => s
    | some f =>
      let part := (a - tierBase) % 0x100000 / 0x10000
      s.withTier { s.tier with frames := upd {} s.tier.frames f (fun x =>
        { x with refbit := true, prefetched := false, evicting := false
                 dirty := if write then ins part x.dirty else x.dirty }) }
  | _ => s

/-- Does an acknowledgement wait for the tier die's open record of the part (09 R303)? The part's number. -/
def openWait (a : Nat) (s : State) : Option Nat :=
  match s.zone a with
  | .tiered t =>
    match s.frameIn t with
    | none => none
    | some f =>
      if has ((a - tierBase) % 0x100000 / 0x10000) (look {} s.tier.frames f).opened then none
      else some ((a - tierBase) / 0x10000)
  | _ => none

/-- Does a part that an address lies in wait for its open record: written, and not recorded yet (09 R303)? -/
def State.partPending (s : State) (a : Nat) : Bool :=
  match s.zone a with
  | .tiered t =>
    match s.frameIn t with
    | none => false
    | some f =>
      let part := (a - tierBase) % 0x100000 / 0x10000
      has part (look {} s.tier.frames f).dirty && !has part (look {} s.tier.frames f).opened
  | _ => false

/-- A write's answer: at once, or once its part is recorded open (09 R303). -/
def ackWrite (a : Nat) (ans : Pkt) (s : State) : State :=
  match openWait a s with
  | none => send ans s
  | some part => s.withTier { s.tier with waitRec := s.tier.waitRec ++ [(part, ans)] }

/-- A write to the first sector of a watched ring header notifies the dispatcher (13 R453). -/
def notifyRings (secs : List Nat) (s : State) : State :=
  s.disp.watching.foldl (fun st r =>
    if has (sectorOf (st.reg (ringCfg r + 0x10)).toNat) secs then st.updRing r (fun x => { x with watch := true })
    else st) s

/-- Where a device address lies in its stack: channel, pseudo-channel, bank and row (08 R249, R250, R257). -/
structure DramPlace where
  chan : Nat
  pseudo : Nat
  bank : Nat
  row : Nat
  deriving DecidableEq, Repr

/-- The place of a device address: DPA[8] gives the pseudo-channel, the unit's row in its channel the bank and the row. -/
def State.dramPlace (s : State) (a : Nat) : DramPlace :=
  let w := (s.unitHome (a / 4096)).2
  ⟨s.chanFor a, bitsOf a 8 8, Nat.xor (bitsOf w 4 0) (bitsOf w 9 5), bitsOf w 18 5⟩

/-- The number of a pseudo-channel within its stack. -/
def DramPlace.pc (d : DramPlace) : Nat := 2 * d.chan + d.pseudo

/-- A sector enters the write buffer of its pseudo-channel, from which reads of it are answered. The channel turns to writes when it
holds 48 sectors; a sixty-fifth one waits for the oldest to be written (08 R250, R262). -/
def bufferWrite (h n : Nat) (s : State) : State :=
  if h < 49 then
    s.updStack (h - 33) (fun x =>
      let pc := (s.dramPlace (64 * n)).pc
      let l := (look [] x.wbuf pc).filter (fun k => k != n) ++ [n]
      { x with wbuf := put [] x.wbuf pc (l.drop (l.length - 64))
               writing := if 48 ≤ l.length then put false x.writing pc true else x.writing })
  else s

/-- No read waits: every pseudo-channel turns to writes, empties its buffer and turns back (08 R262). -/
def drainBuffers (s : State) : State :=
  (List.range 16).foldl (fun st k => st.updStack k (fun x => { x with wbuf := [], writing := [] })) s

/-! ## The accesses -/

/-- The memory address behind an access address: a tiered one lies in its frame (09 R300). -/
def State.phys (s : State) (a : Nat) : Nat := (s.place a).getD a

/-- The stack that homes a unit of the address space, a tiered one through its frame. -/
def State.unitStack (s : State) (u : Nat) : Nat := s.stackFor (s.phys (u * 4096))

/-- One atomic operation (08 R268): AOP, size, old value, operand; none for a reserved AOP. -/
def atomicOp (aop size old v : Nat) : Option Nat :=
  let w := 8 * size
  let so := sext w old
  let sv := sext w v
  match aop with
  | 0 => some v
  | 1 => some ((old + v) % 2 ^ w)
  | 2 => some (Nat.land old v)
  | 3 => some (Nat.lor old v)
  | 4 => some (Nat.xor old v)
  | 5 => some (if so ≤ sv then old else v)
  | 6 => some (if so ≤ sv then v else old)
  | 7 => some (min old v)
  | 8 => some (max old v)
  | _ => none

/-- The element update of SCATTER_ADD (06 R198): FP32, INT32, and FP16 or BF16 where implemented; infinity on
overflow, canonical NaN, no flush, INT32 wraps. -/
def scatterElem (f : Fmt) (old v : Nat) : Nat × Sticky :=
  match f.float with
  | some p =>
    let sum := sumNums [p.decode old, p.decode v]
    p.encode .rne .acc false sum
  | none => ((old + v) % 2 ^ 32, 0#4)

/-- Update consecutive elements: new bytes and flags. -/
def scatterRow (f : Fmt) : List Byte → List Byte → Nat → List Byte × Sticky
  | _, _, 0 => ([], 0#4)
  | old, v, n + 1 =>
    let b := f.bytes
    let (r, fl) := scatterElem f (leNat (old.take b)) (leNat (v.take b))
    let (rest, fl') := scatterRow f (old.drop b) (v.drop b) n
    (leBytes b r ++ rest, fl ||| fl')

/-- Split a byte list into packets of up to 256 B, the last padded to 16 B (08 R272). -/
def packPackets : Nat → List Byte → List (List Byte)
  | 0, _ => []
  | n + 1, d =>
    if d.isEmpty then []
    else
      let c := d.take 256
      (c ++ List.replicate ((16 - c.length % 16) % 16) 0#8) :: packPackets n (d.drop 256)

/-- A READ or NARROW_READ is served from memory (08 R252, R270; 07 R231). -/
def doRead (h : Nat) (p : Pkt) (e : DramErr) (s : State) : State :=
  let a := if p.op = .narrowRead then s.phys p.addr / 32 * 32 else s.phys p.addr
  let n := if p.op = .narrowRead then 32 else p.rdLen
  let s1 := touchFrame p.addr false (readCodes h e (sectorsOf a n) s)
  respond .respData p 0 (s1.mem.anyPoison a n) (s1.mem.readN a n) s1

/-- A WRITE of whole sectors is stored with the check words it carries, clears or carries poison, and is
acknowledged (08 R252, R253; 07 R231). -/
def doWrite (h : Nat) (p : Pkt) (s : State) : State :=
  let a := s.phys p.addr
  let k := p.payload.length / 64
  let s1 := s.withMem (s.mem.writeSectors (sectorOf a) p.poison p.payload p.checks k)
  let s2 := (sectorsOf a (64 * k)).foldl (fun st n => bufferWrite h n st) (touchFrame p.addr true s1)
  ackWrite p.addr (answer .respAck p 0 false []) (notifyRings (sectorsOf p.addr (64 * k)) s2)

/-- A WRITE_MASKED verifies the word it carries and the old sector's, merges, and is acknowledged (02 R40, 06 R194,
08 R253, 16 R553). -/
def doMasked (h : Nat) (p : Pkt) (e : DramErr) (s : State) : State :=
  let n := sectorOf (s.phys p.addr)
  let mask := leAt p.payload 64 8
  let badIn := p.checks.head? != some (crc32c (p.payload.take 64))
  let s0 := match e with
    | .uncorrectable => uncorrectable h p.addr n s
    | .corrected => readCodes h .corrected [n] s
    | .none => s
  let badOld := s0.mem.ckBad n && !s0.mem.isPoison n
  let s1' := if mask != 0 && (badIn || badOld) then evCheckword 2 false h p.addr s0 else s0
  let s1 := if mask != 0 && badOld && decide (49 ≤ h) then poolUncorr (h - 49) s1' else s1'
  let s2 := s1.withMem (s1.mem.writeMasked n mask p.payload (p.poison || badIn))
  let s3 := touchFrame p.addr (mask != 0) (if mask = 0 then s2 else bufferWrite h n s2)
  ackWrite p.addr (answer .respAck p 0 false []) (if mask = 0 then s3 else notifyRings [sectorOf p.addr] s3)

/-- An atomic: the value before it is returned, the sector rewritten (08 R268, R269). -/
def doAtomic (h : Nat) (p : Pkt) (e : DramErr) (s : State) : State :=
  let a := s.phys p.addr
  let size := leAt p.payload 9 1
  if !(size == 4 || size == 8) || p.addr % size != 0 then refuseErr p 0x04 s
  else
    let s1 := readCodes h e [sectorOf a] s
    let old := s1.mem.readLE a size
    match atomicOp (leAt p.payload 8 1) size old (leAt p.payload 0 size) with
    | none => refuseErr p 0x04 s
    | some v =>
      let s2 := bufferWrite h (sectorOf a) (touchFrame p.addr true (s1.withMem (s1.mem.merge a (leBytes size v))))
      ackWrite p.addr (answer .respData p 0 (s2.mem.isPoison (sectorOf a)) (leBytes 16 old)) s2

/-- A row piece that GATHER_ROWS returns: its bytes, whether a sector of it is poisoned, and the reason of an error. -/
structure RowPiece where
  data : List Byte
  bad : Bool
  reason : Nat
  deriving DecidableEq, Repr

/-- Return row pieces packed: a packet that holds a byte of a poisoned piece is poisoned, one with a byte of a lost unit carries its
reason (08 R256, R272). -/
def sendPieces (p : Pkt) (l : List RowPiece) (s : State) : State :=
  let tags := (l.map (fun r => r.data.map (fun _ => (r.bad, r.reason)))).flatten
  let packs := packPackets 32 (l.map RowPiece.data).flatten
  ((List.range packs.length).zip packs).foldl (fun st x =>
    let mine := (tags.drop (256 * x.1)).take 256
    respond .respData p ((mine.map Prod.snd).foldl max 0) (mine.any Prod.fst) x.2 st) s

/-- GATHER_ROWS: row pieces in list order, packed (08 R272). A piece of a lost unit is all 0xFF, with reason 0x04 (08 R256). -/
def doGather (h : Nat) (p : Pkt) (e : DramErr) (s : State) : State :=
  let len := leAt p.payload 4 2
  let rows := (gatherRows p).map s.phys
  let lost := fun (a : Nat) => decide (h < 49) && s.lostUnit (a / 4096)
  let s1 := readCodes h e ((rows.filter (fun a => !lost a)).flatMap (fun a => sectorsOf a len)) s
  let s2 := (gatherRows p).foldl (fun st a => touchFrame a false st) s1
  sendPieces p (rows.map (fun a =>
    if lost a then ⟨List.replicate len 0xFF#8, true, 0x04⟩ else ⟨s2.mem.readN a len, s2.mem.anyPoison a len, 0⟩)) s2

/-- Does the base die of this home implement 16-bit updates (01 R27, 08 R273)? -/
def State.scat16 (s : State) (h : Nat) : Bool := bitOf ((s.glb.manifest[h]?).getD {}).feat 3

/-- SCATTER_ADD: element updates of one row piece, answered with the flags they set (08 R273, 06 R198). -/
def doScatter (h : Nat) (p : Pkt) (e : DramErr) (s : State) : State :=
  let a := s.phys p.addr
  let cnt := leAt p.payload 2 1
  match Fmt.ofCode (leAt p.payload 1 1) with
  | none => refuseErr p 0x04 s
  | some f =>
    if !(f == .fp32 || f == .int32 || ((f == .fp16 || f == .bf16) && s.scat16 h)) then refuseErr p 0x04 s
    else
      let len := cnt * f.bytes
      let s1 := readCodes h e (sectorsOf a len) s
      let (d, fl) := scatterRow f (s1.mem.readN a len) (p.payload.drop 16) cnt
      let m1 := s1.mem.merge a d
      let s2 := (sectorsOf a len).foldl (fun st n => bufferWrite h n st)
        (touchFrame p.addr true (s1.withMem (if p.poison then m1.poisonRange a len else m1)))
      ackWrite p.addr (answer .respAck p fl.toNat false []) s2

/-- The access itself, once no cached copy stands in its way. -/
def performAccess (h : Nat) (p : Pkt) (e : DramErr) (s : State) : State :=
  match p.op with
  | .read | .narrowRead => doRead h p e s
  | .write => doWrite h p s
  | .writeMasked => doMasked h p e s
  | .atomic => doAtomic h p e s
  | .engine =>
    if isGather p then doGather h p e s
    else if p.payload.head? = some 3#8 then doScatter h p e s else refuseErr p 0x04 s
  | _ => s

/-! ## Coherence at the home -/

/-- The request a forwarded packet stands for: a pool die forwards in its own name (09 R289, R290). -/
def State.origin (s : State) (p : Pkt) : Nat × Nat :=
  match s.findOutst p.src p.tid with
  | some o => match o.use with | .relay src tid _ => (src, tid) | _ => (p.src, p.tid)
  | none => (p.src, p.tid)

/-- The message of a COH packet (11 R372). -/
def cohMsg (p : Pkt) : Nat := leAt p.payload 0 1

/-- The payload of a coherence message (11 R372). -/
def cohPayload (msg ticket port tid : Nat) : List Byte :=
  [BitVec.ofNat 8 msg, 0#8] ++ leBytes 2 ticket ++ [BitVec.ofNat 8 port, 0#8, 0#8, 0#8] ++ leBytes 4 tid ++ leBytes 4 0

/-- The home snoops a die (11 R372, R374). -/
def snoop (h msg n die port tid : Nat) (s : State) : State :=
  request ⟨.coh, h, 53 + die, 0, 64 * n, false, cohPayload msg 0 port tid, [], 0⟩ (.snoop h (64 * n) die) s

/-- Start a transaction: its snoops go out as (sector, die, message). -/
def startTxn (h : Nat) (secs : List Nat) (snoops : List (Nat × Nat × Nat)) (job : HomeJob) (port tid : Nat)
    (s : State) : State :=
  let t : Txn := ⟨secs, snoops.map (fun x => (x.1, x.2.1)), job⟩
  snoops.foldl (fun st x => snoop h x.2.2 x.1 x.2.1 port tid st)
    (s.updHome h (fun x => { x with busy := x.busy ++ [t] }))

/-- The snoops an access of a non-caching agent needs (11 R378): a read snoops an owner with SNP_SHR, a write
every holder with SNP_INV; a write-back of the owner needs none (11 R372). -/
def accessSnoops (hm : HomeSt) (p : Pkt) (die : Option Nat) : List (Nat × Nat × Nat) :=
  (accessSecs p).flatMap (fun n =>
    match hm.ent n with
    | none => []
    | some d =>
      if isWriteOp p then
        (if p.op == .write && die.isSome && d.owner == die then [] else d.holders.map (fun x => (n, x, 0x10)))
      else match d.owner with | some o => [(n, o, 0x11)] | none => [])

/-- The core die behind a hub port. -/
def portDie (p : Nat) : Option Nat := if 53 ≤ p ∧ p ≤ 56 then some (p - 53) else none

/-- A write-back of the directory's owner ends its ownership (11 R372); memory has the line's data from now on. -/
def writeBackEnds (h : Nat) (p : Pkt) (s : State) : State :=
  match portDie (s.origin p).1 with
  | none => s
  | some die =>
    if p.op = .write then
      (accessSecs p).foldl (fun st n => match (st.homeOf h).ent n with
        | some d =>
          if d.owner = some die then
            (st.updHome h (fun x => x.dropHolder n die)).updCdie die (fun x => { x with lines := put none x.lines n none })
          else st
        | none => st) s
    else s

/-- Is the packet a write-back of a sector's owner? -/
def State.isWriteBack (s : State) (h : Nat) (p : Pkt) : Bool :=
  match portDie (s.origin p).1 with
  | none => false
  | some die => p.op == .write && (accessSecs p).all (fun n => match (s.homeOf h).ent n with
      | some d => d.owner == some die | none => false)

/-- Is the packet a write-back whose sender the directory no longer names as owner: a snoop has taken the line's data since it was
sent (11 R376)? -/
def State.lateWriteBack (s : State) (h : Nat) (p : Pkt) : Bool :=
  match portDie (s.origin p).1, s.findOutst (s.origin p).1 (s.origin p).2 with
  | some _, some o => (match o.use with | .evict _ _ => true | _ => false) && p.op == .write && !s.isWriteBack h p
  | _, _ => false

/-- A request other than COH at its home (11 R374, R375, R378): refused, queued behind a transaction, or served
once every snoop it needs is answered. A write-back of the owner is never held back: were it queued behind a transaction whose snoop
no longer finds the line, memory would not be current as 11 R376 says it is. One that comes after a snoop has taken its data only is
acknowledged (log 16, DESIGN CHOICE). -/
def homeStart (h : Nat) (p : Pkt) (e : DramErr) (s : State) : State :=
  match accessErr h p s with
  | some r => refuseHome p r s
  | none =>
    if s.lateWriteBack h p then respond .respAck p 0 false [] s
    else if s.isWriteBack h p then
      (accessSecs p).foldl (fun st n => releaseLine h n st) (performAccess h p e (writeBackEnds h p s))
    else if (s.homeOf h).busyAny (accessSecs p) then s.updHome h (fun x => { x with queue := x.queue ++ [(p, e)] })
    else
      match accessSnoops (s.homeOf h) p (portDie (s.origin p).1) with
      | [] => (accessSecs p).foldl (fun st n => releaseLine h n st) (performAccess h p e s)
      | sn => startTxn h (accessSecs p) sn (.access p e) 0 0 s

/-! ## Grants -/

/-- A grant (11 R373): state code, with the sector's data or without. -/
def grant (h : Nat) (p : Pkt) (e : DramErr) (code : Nat) (data : Bool) (s : State) : State :=
  let a := s.phys (p.addr / 64 * 64)
  let blk := [BitVec.ofNat 8 code, BitVec.ofNat 8 (b2n data)] ++ List.replicate 14 0#8
  if data then
    let s1 := touchFrame p.addr false (readCodes h e [sectorOf a] s)
    send ⟨.respData, p.dst, p.src, p.tid, 0, s1.mem.isPoison (sectorOf a), s1.mem.readN a 64 ++ blk,
      [crc32c (s1.mem.readN a 64)], 0⟩ s1
  else send ⟨.respData, p.dst, p.src, p.tid, 0, false, blk, [], 0⟩ s

/-- Grant what a coherence request asked for, once its snoops are answered, and record the new holder (11 R374). -/
def finishCoh (h : Nat) (p : Pkt) (e : DramErr) (s : State) : State :=
  match portDie (s.origin p).1 with
  | none => s
  | some die =>
    let n := sectorOf p.addr
    let d := ((s.homeOf h).ent n).getD ⟨n, none, [], none⟩
    let own := s.updHome h (fun x => x.setEnt ⟨n, some die, [], none⟩)
    match cohMsg p with
    | 0x01 =>
      if d.owner.isNone && d.sharers.isEmpty then grant h p e 0x2 true own
      else if d.fwd.isSome && d.owner.isNone then
        grant h p e 0x1 true (s.updHome h (fun x => x.setEnt { d with sharers := ins die d.sharers }))
      else grant h p e 0x3 true (s.updHome h (fun x => x.setEnt { d with sharers := ins die d.sharers, fwd := some die }))
    | 0x02 => grant h p e 0x4 true own
    | 0x03 => grant h p e 0x4 (!has die d.sharers) own
    | 0x04 => grant h p e 0x4 false own
    | _ => s

/-- A free directory entry is needed: the earliest entry without a transaction is evicted by SNP_INV (11 R377). -/
def dirFull (h n : Nat) (s : State) : Option DirEnt :=
  let hm := s.homeOf h
  if decide (hm.dir.length < 1048576) || (hm.ent n).isSome then none
  else hm.dir.find? (fun d => !hm.busyAny [d.sector])

/-- A coherence request that is not turned away (11 R374). One that needs a directory entry where none is free waits, with its sector
in the transaction that evicts one (R377). An eviction notice takes its sender out (R370, R372). -/
def cohStart (h : Nat) (p : Pkt) (e : DramErr) (s : State) : State :=
  let n := sectorOf p.addr
  match portDie (s.origin p).1, accessErr h p s with
  | _, some r => refuseHome p r s
  | none, none => refuseErr p 0x04 s
  | some die, none =>
    if cohMsg p = 0x05 then
      releaseLine h n (send (answer .respAck p 0 false []) (s.updHome h (fun x => x.dropHolder n die)))
    else match dirFull h n s with
    | some d => startTxn h [d.sector, n] (d.holders.map (fun x => (d.sector, x, 0x10))) (.evict p e) 0 0 s
    | none =>
      let d := ((s.homeOf h).ent n).getD ⟨n, none, [], none⟩
      let others := d.holders.filter (fun x => x != die)
      match cohMsg p with
      | 0x01 =>
        match d.owner with
        | some o => if o = die then finishCoh h p e s else startTxn h [n] [(n, o, 0x11)] (.grant p e) 0 0 s
        | none =>
          match d.fwd with
          | some f =>
            if f = die then finishCoh h p e s
            else startTxn h [n] [(n, f, 0x12)] (.forward p e) (s.origin p).1 (s.origin p).2 s
          | none => finishCoh h p e s
      | _ =>
        if others.isEmpty then finishCoh h p e s
        else startTxn h [n] (others.map (fun x => (n, x, 0x10))) (.grant p e) 0 0 s

/-- RESP_RETRY with a ticket (11 R375). -/
def cohRetry (h : Nat) (p : Pkt) (s : State) : State :=
  let n := sectorOf p.addr
  let t := leAt p.payload 2 2
  if t != 0 then send (answer .respRetry p t false []) s
  else
    let tk := (s.homeOf h).nextTicket
    send (answer .respRetry p tk false []) (s.updHome h (fun x =>
      { x with nextTicket := if tk = 65535 then 1 else tk + 1
               tickets := upd [] x.tickets n (fun l => l ++ [tk]) }))

/-- A COH request arrives (11 R374, R375): busy, or not yet its ticket's turn, it is answered RESP_RETRY. -/
def cohArrive (h : Nat) (p : Pkt) (e : DramErr) (s : State) : State :=
  let n := sectorOf p.addr
  let t := leAt p.payload 2 2
  let turn := match look [] (s.homeOf h).tickets n with | [] => true | f :: _ => f == t
  if (s.homeOf h).busyAny [n] || !turn then cohRetry h p s
  else
    let s1 := s.updHome h (fun x => { x with tickets := upd [] x.tickets n (fun l => l.filter (fun j => j != t)) })
    cohStart h p e s1

/-- Serve what waited for a sector, in order, while it is free. -/
def serveQueue : Nat → Nat → State → State
  | 0, _, s => s
  | n + 1, h, s =>
    let hm := s.homeOf h
    match hm.queue.find? (fun q => !hm.busyAny (if q.1.op = .coh then [sectorOf q.1.addr] else accessSecs q.1)) with
    | none => s
    | some q =>
      let s1 := s.updHome h (fun x => { x with queue := dropFirst (fun y => y == q) x.queue })
      serveQueue n h (if q.1.op = .coh then cohStart h q.1 q.2 s1 else homeStart h q.1 q.2 s1)

/-- The last snoop of a transaction is answered: its job is done and the sector is free again (11 R374). -/
def endTxn (h : Nat) (t : Txn) (served : Bool) (s : State) : State :=
  let s1 := s.updHome h (fun x => { x with busy := x.busy.filter (fun y => y != t) })
  let s2 := match t.job with
    | .access p e => performAccess h p e s1
    | .grant p e => finishCoh h p e s1
    | .evict p e => cohStart h p e s1
    | .forward p e =>
      let n := sectorOf p.addr
      let die := (portDie (s.origin p).1).getD 0
      let d := ((s1.homeOf h).ent n).getD ⟨n, none, [], none⟩
      if served then
        let s2 := s1.updHome h (fun x => x.setEnt { d with sharers := ins die d.sharers, fwd := some die })
        if p.src = (s.origin p).1 then s2 else s2.dropOutst p.src p.tid
      else finishCoh h p e (s1.updHome h (fun x => x.setEnt { d with fwd := none, sharers := match d.fwd with
        | some f => del f d.sharers | none => d.sharers }))
  let s3 := serveQueue (s2.homeOf h).queue.length h s2
  t.sectors.foldl (fun st n => releaseLine h n st) s3

/-- A snoop answer reaches its home (11 R374, R376, R378): returned data goes to memory, where it makes a tier part dirty
(09 R303), unless a full-sector write replaces it, or ZERO, which writes no memory (11 R367); the directory follows; the last answer
ends the transaction. `served`: an F holder sent the sector. -/
def snoopAnswered (h a die : Nat) (data : Option (List Byte × Bool)) (served : Bool) (s : State) : State :=
  let n := sectorOf a
  match (s.homeOf h).busy.find? (fun t => t.left.any (fun x => x == (n, die))) with
  | none => s
  | some t =>
    let full : Bool := match t.job with
      | .access p _ => p.op == .write
      | .grant p _ => cohMsg p == 0x04
      | _ => false
    let s1 := match data with
      | some (d, poison) =>
        if full then s
        else bufferWrite h (sectorOf (s.phys a)) (touchFrame a true (s.withMem (s.mem.writeSector (sectorOf (s.phys a)) d none poison)))
      | none => s
    let shr : Bool := match t.job with
      | .access p _ => !isWriteOp p
      | .grant p _ => cohMsg p == 0x01
      | _ => false
    let s2 := match t.job with
      | .forward _ _ => s1
      | _ =>
        if shr then s1.updHome h (fun x => x.setEnt ⟨n, none, [die], some die⟩)
        else s1.updHome h (fun x => x.dropHolder n die)
    let t' := { t with left := t.left.filter (fun x => x != (n, die)) }
    let s3 := s2.updHome h (fun x => { x with busy := updFirst (fun y => y == t) (fun _ => t') x.busy })
    if t'.left.isEmpty then endTxn h t' served s3 else s3

end Sys2Proof.Machine
end

