-- ==== Sys2Proof/Machine/CmdOps.lean ====
section
/-!
DEFINITION. Coherent reads and writes of the hub's own agents, the table walk, and what stops, restores, completes or
replays a command (10 R324 to R329; 05 R155; 13 R465 to R477; 16 R556 to R568).
-/
namespace Sys2Proof.Machine

/-! ## Voltages -/

/-- The dividers of a tile's 16 operating points, in quarter steps (15 R522). -/
def opPoints : List Nat := [96, 88, 80, 74, 68, 64, 63, 60, 56, 54, 52, 50, 48, 46, 44, 42]
/-- The point whose voltage a tile uses at a divider: that of the divider, or the next toward higher frequency (15 R522). -/
def opPoint (div : Nat) : Nat := (opPoints.findIdx? (fun d => decide (d ≤ div))).getD 15
/-- The voltage in mV that the die at a port needs at a divider (15 R521, R522). -/
def needVolt (p div : Nat) : Nat := (Config.fusedVolt p (if p ≤ 32 then opPoint div else div)).toNat
/-- Ivory sets the voltage of a die (01 R29). -/
def setVolt (p v : Nat) (s : State) : State := s.withPwr { s.pwr with volt := put 0 s.pwr.volt p v }
/-- A die gets the voltage of the qualification point: tile divider 14, core divider 8 (15 R524; 01 R13 for the spare). -/
def qualVolt (p : Nat) (s : State) : State := setVolt p (needVolt p (if 53 ≤ p ∧ p ≤ 56 then 32 else 56)) s
/-- The physical positions of the active tiles. The arrays of the others, the spare's in standby among them, are clock-gated
(01 R13, R19). -/
def State.activeTiles (s : State) : List Nat := s.glb.tilemap.filterMap id
/-- A die gets the voltage of the divider it runs at. -/
def runVolt (p : Nat) (s : State) : State :=
  if has p s.activeTiles then setVolt p (needVolt p s.pwr.div) s
  else if 53 ≤ p ∧ p ≤ 56 then setVolt p (needVolt p (s.cdieOf (p - 53)).div) s
  else qualVolt p s

/-! ## Coherent access by the hub's agents -/

/-- The line of a core die for a sector. -/
def CoreDie.line (d : CoreDie) (n : Nat) : Option CLine := look none d.lines n

/-- A core die that holds a sector modified (11 R370). -/
def State.dirtyDie (s : State) (n : Nat) : Option CLine :=
  match (List.range 4).find? (fun d => match (s.cdieOf d).line n with | some l => l.st == .m | none => false) with
  | some d => (s.cdieOf d).line n
  | none => none

/-- The pool's copy of a sector, when it holds one (09 R288). -/
def State.poolLine (s : State) (n : Nat) : Option PLine :=
  match s.cachedBy (s.phys (64 * n)) with
  | none => none
  | some d =>
    let l := look {} (s.poolOf d).lines n
    if l.st = .v || l.st = .d then some l else none

/-- A sector where it is stored: in memory, or in flash while its tier tile is not resident (09 R301). A sector whose
check word fails counts as poisoned (08 R252). -/
def State.storedSector (s : State) (n : Nat) : List Byte × Bool :=
  match s.zone (64 * n), s.place (64 * n) with
  | .tiered _, none =>
    let k := n - tierBase / 64
    (s.tier.flash.sector k, s.tier.flash.isPoison k || s.tier.flash.ckBad k)
  | _, _ =>
    let k := sectorOf (s.phys (64 * n))
    (s.mem.sector k, s.mem.isPoison k || s.mem.ckBad k)

/-- Store a sector where it lies, in memory through the write buffer of its pseudo-channel (08 R262). -/
def storeSector (n : Nat) (data : List Byte) (ck : Option (BitVec 32)) (poison : Bool) (s : State) : State :=
  match s.zone (64 * n), s.place (64 * n) with
  | .tiered _, none => s.withTier { s.tier with flash := s.tier.flash.writeSector (n - tierBase / 64) data ck poison }
  | _, _ =>
    let k := sectorOf (s.phys (64 * n))
    bufferWrite (match s.zone (64 * k) with | .scratch _ | .poolCkpt => 49 | _ => 33 + s.stackFor (64 * k)) k
      (s.withMem (s.mem.writeSector k data ck poison))

/-- A sector as every reader sees it: a core's modified copy, the pool's copy, or memory (07 R231, 11 R378). -/
def State.cohSector (s : State) (n : Nat) : List Byte × Bool :=
  match s.dirtyDie n with
  | some l => (l.data, l.poison)
  | none => match s.poolLine n with
    | some l => (l.data, l.poison)
    | none => s.storedSector n

/-- Bytes as every reader sees them. -/
def State.cohRead (s : State) (a n : Nat) : List Byte :=
  (((sectorsOf a n).map (fun k => (s.cohSector k).1)).flatten.drop (a % 64)).take n
/-- Does a coherent read meet a poisoned sector? The first one. -/
def State.cohPoison (s : State) (a n : Nat) : Option Nat := (sectorsOf a n).find? (fun k => (s.cohSector k).2)
/-- A little-endian number, read coherently. -/
def State.cohLE (s : State) (a n : Nat) : Nat := leNat (s.cohRead a n)

/-- The hub port of an address's home (11, Coherence). -/
def State.homePort (s : State) (a : Nat) : Option Nat :=
  match s.zone a with
  | .direct | .frame | .stage | .ckpt => some (33 + s.stackFor a)
  | .tiered _ => (s.place a).map (fun x => 33 + s.stackFor x)
  | .scratch d => some (49 + d)
  | .poolCkpt => some 52
  | _ => none

/-- The 4 KiB unit of a sector. -/
def unitOfSector (n : Nat) : Nat := n / 64

/-- A unit without a dirty line has its mark cleared at its home (09 R293). -/
def clearMark (d u : Nat) (s : State) : State :=
  let x := s.poolOf d
  if !has u x.marked || x.lines.any (fun l => decide (unitOfSector l.1 = u) && l.2.st == .d) then s
  else (s.updPool d (fun y => { y with marked := del u y.marked })).updStack (s.unitStack u) (fun y =>
    { y with marks := upd [] y.marks d (del u) })

/-- Every cached copy of a sector ends: cores, directories and the pool (11 R378, 09 R292, R293). A line in state H stays so while its
home has a use for it (09 R291). -/
def dropCopies (n : Nat) (s : State) : State :=
  let s1 := (List.range 4).foldl (fun st d =>
    if ((st.cdieOf d).line n).isSome then st.updCdie d (fun x => { x with lines := put none x.lines n none }) else st) s
  let s2 := match s1.homePort (64 * n) with
    | some h => s1.updHome h (fun x => x.setEnt ⟨n, none, [], none⟩)
    | none => s1
  match s2.cachedBy (s2.phys (64 * n)) with
  | some d =>
    if (look {} (s2.poolOf d).lines n).st = .h then releaseLine ((s2.homePort (64 * n)).getD 63) n s2
    else clearMark d (unitOfSector n) (s2.updPool d (fun x => { x with lines := put {} x.lines n {} }))
  | none => s2

/-- Is a sector stored with a check word that fails, and not as poisoned, with no copy of it cached? A merge into it finds that (08
R253). -/
def State.staleWord (s : State) (n : Nat) : Bool :=
  let k := sectorOf (s.phys (64 * n))
  (s.dirtyDie n).isNone && (s.poolLine n).isNone && (s.place (64 * n)).isSome && s.mem.ckBad k && !s.mem.isPoison k

/-- The sectors that a base die reads for another agent, or for its engine, are verified: one whose stored word fails is stored
poisoned, counted and reported (08 R252, R253). -/
def serveReads (a n : Nat) (s : State) : State :=
  (sectorsOf a n).foldl (fun st k =>
    if st.staleWord k then readCodes ((st.homePort (64 * k)).getD 63) .none [sectorOf (st.phys (64 * k))] st else st) s

/-- A coherent write of bytes by an agent of the hub: sectors are merged over what every reader sees; a sector
written whole loses its poison, a part of one keeps it, and a check word that fails at a merge is reported (07 R231, 08 R253). -/
def cohWrite (a : Nat) (bs : List Byte) (s : State) : State :=
  let s1 := (sectorsOf a bs.length).foldl (fun st n =>
    let (d, p) := st.cohSector n
    let lo := max a (64 * n)
    let hi := min (a + bs.length) (64 * n + 64)
    let whole := decide (a ≤ 64 * n) && decide (64 * n + 64 ≤ a + bs.length)
    let new := d.take (lo - 64 * n) ++ (bs.drop (lo - a)).take (hi - lo) ++ d.drop (hi - 64 * n)
    let st0 := if !whole && st.staleWord n then evCheckword 2 false ((st.homePort (64 * n)).getD 63) (64 * n) st else st
    let st1 := touchFrame (64 * n) true (dropCopies n st0)
    storeSector n new none (p && !whole) st1) s
  notifyRings (sectorsOf a bs.length) s1

/-- Poison the sectors of a range wherever they are held. -/
def cohPoisonRange (a n : Nat) (s : State) : State :=
  (sectorsOf a n).foldl (fun st k =>
    storeSector k (st.cohSector k).1 none true (dropCopies k st)) s

/-! ## The table walk -/

/-- The outcome of a walk (10 R324 to R329, R345, R346): a leaf, a reason with the level, entry and DPA, or the error answer of a table's
home. -/
inductive WalkRes where
  | leaf (pages : Nat) (dest : Dest) (r w : Bool) (level entry : Nat)
  | fault (reason level entry addr : Nat)
  | error (reason addr : Nat)
  deriving DecidableEq, Repr

/-- Index of a table level (10 R324). -/
def walkIdx (dva level : Nat) : Nat := bitsOf dva (54 - 13 * level) (42 - 13 * level)
/-- Pages a leaf of a level maps (10 R325). -/
def levelPages (level : Nat) : Nat := if level = 0 then 2 ^ 26 else if level = 1 then 2 ^ 13 else 1

/-- Does an address lie in direct HBM or backed pool scratch, where tables may lie (10 R325, R327)? -/
def State.tableOk (s : State) (a : Nat) : Bool :=
  match s.zone a with | .direct | .scratch _ => true | _ => false

/-- What one entry means at a level (10 R326 to R328, R334): none: a next table; a leaf; or a fault reason. -/
def entryFault (s : State) (ctx level e : Nat) : Option Nat :=
  let ty := e % 8
  let addr := bitsOf e 47 16 * 0x10000
  if ty = 0 then some 0x01
  else if 5 ≤ ty || bitsOf e 63 48 != 0 || bitsOf e 15 5 != 0 then some 0x03
  else if ty = 1 then (if level = 2 || !s.tableOk addr then some 0x03 else none)
  else if ty = 2 then
    if addr % (levelPages level * 0x10000) != 0 then some 0x03
    else if decide (addr < 0x200000000000) && decide (0x010200000000 < addr + levelPages level * 0x10000) then some 0x04
    else none
  else if level != 2 || addr != 0 then some 0x03
  else if ty = 4 then some 0x05
  else if !bitOf (s.reg (xltReg ctx + 8)).toNat 31 then some 0x03
  else none

/-- What one table read of a walk finds: a pointer to the next table, or the end of the walk. -/
inductive TblRead where
  | table (addr : Nat) | done (r : WalkRes)
  deriving DecidableEq, Repr

/-- One table read of a walk (10 R325 to R329, R346). -/
def tableRead (s : State) (ctx dva level table : Nat) : TblRead :=
  let a := table + 8 * walkIdx dva level
  let e := s.cohLE a 8
  let addr := bitsOf e 47 16 * 0x10000
  if (s.cohPoison a 8).isSome then .done (.fault 0x09 level 0 a)
  else match entryFault s ctx level e with
    | some r => .done (.fault r level e a)
    | none =>
      if e % 8 = 1 then .table addr
      else .done (.leaf (levelPages level) (if e % 8 = 2 then .dev addr else .host) (bitOf e 3) (bitOf e 4) level e)

/-- The walk from a table at a level. -/
def walkFrom : Nat → State → Nat → Nat → Nat → Nat → WalkRes
  | 0, _, _, _, level, _ => .fault 0x03 level 0 0
  | n + 1, s, ctx, dva, level, table =>
    match tableRead s ctx dva level table with
    | .table addr => walkFrom n s ctx dva (level + 1) addr
    | .done r => r

/-- The walk of a context for an address (10 R324, R325, R357). -/
def walkTable (s : State) (ctx dva : Nat) : WalkRes :=
  if 2 ^ 55 ≤ dva then .fault 0x08 0 0 0
  else if !has ctx s.xlt.rootOk then .fault 0x01 0 0 0
  else walkFrom 3 s ctx dva 0 (look 0 s.xlt.root ctx * 0x10000)

/-- The device address of a byte by the walk, for a device page with the permission asked (10 R329). -/
def State.walkDev (s : State) (ctx dva : Nat) (write : Bool) : Option Nat :=
  match walkTable s ctx dva with
  | .leaf pages (.dev base) r w _ _ =>
    if (if write then w else r) then some (base + dva % (pages * 0x10000)) else none
  | _ => none

/-- The pages a range of addresses touches. -/
def pagesOf (a n : Nat) : List Nat :=
  if n = 0 then [] else (List.range ((a + n - 1) / 0x10000 - a / 0x10000 + 1)).map (fun i => a / 0x10000 + i)

/-- The device pieces of a range of addresses, page by page: (device address, length); none for a page that does
not map to the device. -/
def State.devPieces (s : State) (ctx a n : Nat) (write : Bool) : List (Option (Nat × Nat)) :=
  (pagesOf a n).map (fun p =>
    let lo := max a (p * 0x10000)
    let hi := min (a + n) (p * 0x10000 + 0x10000)
    (s.walkDev ctx lo write).map (fun d => (d, hi - lo)))

/-! ## Commands -/

/-- The command of a ring and acceptance index. -/
def State.cmdOf (s : State) (ring seq : Nat) : Option Cmd := s.disp.cmds.find? (fun c => c.ring == ring && c.seq == seq)
/-- Change a command. -/
def State.updCmd (s : State) (ring seq : Nat) (f : Cmd → Cmd) : State :=
  s.withDisp { s.disp with cmds := s.disp.cmds.map (fun c => if c.ring == ring && c.seq == seq then f c else c) }

/-- KIND of a descriptor (13 R457). -/
def Cmd.kind (c : Cmd) : Nat := leAt c.desc 0 1
/-- A field of a descriptor, as a number. -/
def Cmd.fld (c : Cmd) (off n : Nat) : Nat := leAt c.desc off n
/-- The timeout in ms (13 R457). -/
def Cmd.timeout (c : Cmd) : Nat := if c.fld 4 4 = 0 then 2000 else c.fld 4 4
/-- NREG of a RUN (13 R460). -/
def Cmd.nreg (c : Cmd) : Nat := bitsOf (c.fld 48 8) 20 17
/-- ARRAYS of a RUN. -/
def Cmd.arrays (c : Cmd) : Nat := bitsOf (c.fld 48 8) 11 8
/-- WINDOW of a RUN, in 4 MiB. -/
def Cmd.window (c : Cmd) : Nat := bitsOf (c.fld 48 8) 16 12
/-- The parts of a RUN. -/
def Cmd.nparts (c : Cmd) : Nat := bitsOf (c.fld 48 8) 6 0 + 1
/-- TILEMASK of a RUN; 0 stands for every tile. -/
def Cmd.tilemask (c : Cmd) : Nat := if bitsOf (c.fld 48 8) 63 32 = 0 then 0xFFFFFFFF else bitsOf (c.fld 48 8) 63 32
/-- NLOCAL of a RUN. -/
def Cmd.nlocal (c : Cmd) : Nat := bitsOf (c.fld 48 8) 25 21

/-- An output region (13 R461). -/
structure Region where
  dva : Nat
  size : Nat
  inplace : Bool
  staged : Bool
  host : Nat
  deriving DecidableEq, Repr

/-- Region i of a region list (13 R461). -/
def regionAt (bs : List Byte) (i : Nat) : Region :=
  let w := leAt bs (32 * i + 8) 8
  ⟨leAt bs (32 * i) 8 % 2 ^ 55, w % 2 ^ 48, bitOf w 48, bitOf w 49, leAt bs (32 * i + 16) 8 % 2 ^ 55⟩

/-- The regions a command may write: a RUN's list, or the destination of a COPY or FILL (13 R461, R462). -/
def Cmd.regionsOf (c : Cmd) : List Region :=
  if c.kind = 1 then (List.range c.nreg).map (regionAt c.regions)
  else if c.kind = 2 then [⟨c.fld 24 8, c.fld 32 8, false, false, 0⟩]
  else if c.kind = 3 then [⟨c.fld 16 8, c.fld 24 8, false, false, 0⟩]
  else []

/-- The region of a command that holds an address; 0xE when none does (13 R476). -/
def Cmd.regionFor (c : Cmd) (dva : Nat) : Nat :=
  match c.regionsOf.findIdx? (fun r => decide (r.dva ≤ dva) && decide (dva < r.dva + r.size)) with
  | some i => i
  | none => 0xE

/-- Where a status stands in 16 R557: smaller stands higher. -/
def statusRank : Nat → Nat
  | 0x01 => 0 | 0x02 => 0 | 0x07 => 1 | 0x03 => 2 | 0x04 => 3 | 0x09 => 4 | 0x0B => 5 | 0x0A => 6 | 0x05 => 7
  | 0x06 => 8 | 0x08 => 9 | _ => 10

/-- Take the higher of two outcomes (16 R557). -/
def Cmd.addOut (c : Cmd) (v : Verdict) : Cmd :=
  if statusRank v.status < statusRank c.out.status then { c with out := v } else c

/-- Are all arrays held (15 R537, 16 R571)? Timeouts and hang detection do not count then (15 R538). -/
def State.arraysHeld (s : State) : Bool := s.boot.pwrbrk || s.boot.ivoryStop

/-- Does a position run the replay of a suspect (16 R564)? -/
def State.suspectOn (s : State) (pos : Nat) : Bool :=
  s.disp.cmds.any (fun c => c.suspect && c.replayDue.isNone && c.phase == .running && c.parts.any (fun p => p.pos == pos && !p.ended))

/-- The logical tile at a physical position (01 R19). -/
def State.tileAt (s : State) (pos : Nat) : Option Nat := s.glb.tilemap.findIdx? (fun p => p == some pos)

/-- The physical position of a logical tile, when backed (01 R16, R19). -/
def State.posOf (s : State) (tile : Nat) : Option Nat := (s.glb.tilemap[tile]?).getD none

/-- Does an outstanding request change memory? -/
def opWrites (o : Outst) : Bool := o.op == .write || o.op == .writeMasked || o.op == .engine && o.left == 1
/-- Does a packet change memory? -/
def changesMem (p : Pkt) : Bool := p.op == .write || p.op == .writeMasked || p.op == .engine && !isGather p

/-- Does a slot still hold what its resources' last users left (03 R103)? -/
def Slot.fresh (x : Slot) : Bool := x.phase == .placed || x.phase == .zeroing

/-- The moves that write memory: STORE, SCATTERADD and PUT (06 R190). -/
def moveWrites (opc : Nat) : Bool := opc == 0x81 || opc == 0x83 || opc == 0x85

/-- A started move that writes and has packets still to send: it runs on when its part is stopped (05 R155, step 2). -/
def QInstr.unsent (q : QInstr) : Bool := q.started && moveWrites (fld q.word 127 120) && !q.pieces.isEmpty

/-- Is it the use of a request of a slot, other than of the moves whose numbers are kept? -/
def Use.ofSlot (u : Use) (pos slot : Nat) (keep : List Nat) : Bool :=
  match u with
  | .tsync p k _ => p == pos && k == slot
  | .move p k id _ => p == pos && k == slot && !has id keep
  | _ => false

/-- The waiters and answers of a slot are forgotten, but for the acknowledgements of writes it has sent and for the moves kept
(05 R155, 07 R221). -/
def forgetSlot (pos slot ring seq : Nat) (keep : List Nat) (s : State) : State :=
  let mine := fun o : Outst => o.use.ofSlot pos slot keep
  let tids := (s.hub.outst.filter (fun o => o.src == pos && mine o)).map Outst.tid
  let kept := (s.hub.outst.filter (fun o => !mine o || opWrites o)).map (fun o =>
    if mine o then { o with use := .drain ring seq } else o)
  let s1 := s.withHub { s.hub with outst := kept, bound := s.hub.bound.filterMap (fun b =>
    if !b.2.ofSlot pos slot keep then some b else if changesMem b.1 then some (b.1, .drain ring seq) else none) }
  let stays := fun w : Waiter => match w.by_ with | .port p t => !(p == pos && has t tids) | _ => true
  boundAll pos <| s1.withSync (s1.sync.map (fun o => (o.1, { o.2 with waiters := o.2.waiters.filter stays })))

/-- A slot ends: its arrays and window keep their last context (03 R103); its flags go to its command, after an EXIT as 05 R153
says, and in the same way when it is stopped (DEDUCED, log 21: 13 R476 gives the record the union over all parts). -/
def freeSlot (pos slot : Nat) (s : State) : State :=
  match look none (s.tileOf pos).slots slot with
  | none => s
  | some x =>
    let s1 := (forgetSlot pos slot x.ring x.seq [] s).updCmd x.ring x.seq (fun c =>
      { c with flags := c.flags ||| x.tstat.setWidth 4 })
    s1.updTile pos (fun t =>
      { t with slots := put none t.slots slot none
               lastArr := if x.fresh then t.lastArr else x.arrays.foldl (fun m a => put 0 m a (x.ctx + 1)) t.lastArr
               lastWin := if x.fresh then t.lastWin
                 else (List.range x.wlen).foldl (fun m i => put 0 m (x.wbase + i) (x.ctx + 1)) t.lastWin })

/-- The moves of a slot that run on when its command is stopped: none on a tile that is fenced. -/
def State.runsOn (s : State) (pos slot : Nat) : List Nat :=
  match look none (s.tileOf pos).slots slot with
  | none => []
  | some x => if s.fenced pos then [] else (x.qx.filter QInstr.unsent).map QInstr.id

/-- A slot is stopped (05 R155, step 2): it keeps only the moves that run on, and is free at once when there are none. -/
def haltSlot (pos slot : Nat) (s : State) : State :=
  match look none (s.tileOf pos).slots slot with
  | none => s
  | some x =>
    let on := s.runsOn pos slot
    if on.isEmpty then freeSlot pos slot s
    else (forgetSlot pos slot x.ring x.seq on s).updTile pos (fun t => { t with slots := put none t.slots slot (some
      { x with phase := .stopped, qm := [], qv := [], qs := [], qx := x.qx.filter (fun q => has q.id on) }) })

/-- The command that an access waiting on a translation belongs to. -/
def State.waitOf (s : State) (w : XltWait) : Option (Nat × Nat) :=
  match w.by_ with
  | .move pos slot _ | .xpref pos slot _ => (look none (s.tileOf pos).slots slot).map (fun x => (x.ring, x.seq))
  | .cmd ring seq => some (ring, seq)
  | .list ring seq => some (ring, seq)
  | .place _ | .ranoa _ => none

/-- Accesses stop waiting for translations: stalls without any left end. -/
def dropWaits (p : XltWait → Bool) (s : State) : State :=
  s.withXlt { s.xlt with
    walks := s.xlt.walks.map (fun x => { x with waits := x.waits.filter (fun w => !p w) })
    ats := s.xlt.ats.map (fun x => { x with waits := x.waits.filter (fun w => !p w) })
    stalls := (s.xlt.stalls.map (fun x => { x with waits := x.waits.filter (fun w => !p w) })).filter (fun x =>
      !x.waits.isEmpty) }

/-- Does an access waiting on a translation belong to a move that runs on? -/
def State.waitRuns (s : State) (w : XltWait) : Bool :=
  match w.by_ with | .move pos slot id => has id (s.runsOn pos slot) | _ => false

/-- The slots that a command holds. -/
def State.slotsFor (s : State) (c : Cmd) : List (Nat × Nat × Slot) :=
  c.parts.filterMap (fun p => match look none (s.tileOf p.pos).slots p.slot with
    | some x => if x.ring == c.ring && x.seq == c.seq then some (p.pos, p.slot, x) else none
    | none => none)

/-- Stop every part of a command; started moves that write run until they are acknowledged (05 R155, steps 2 and 3). -/
def stopParts (ring seq : Nat) (s : State) : State :=
  match s.cmdOf ring seq with
  | none => s
  | some c =>
    let s0 := dropWaits (fun w => s.waitOf w == some (ring, seq) && !s.waitRuns w) s
    let s1 := (s.slotsFor c).foldl (fun st p => haltSlot p.1 p.2.1 st) s0
    s1.withSync (s1.sync.map (fun o => (o.1, { o.2 with waiters := o.2.waiters.filter (fun w => match w.by_ with
      | .head r q _ => !(r == ring && q == seq) | _ => true) })))

/-- Are accesses of a command still to be sent or answered: the writes of its started moves (05 R155, step 2), what its transfer has
sent? -/
def State.draining (s : State) (ring seq : Nat) : Bool :=
  (s.hub.outst.map Outst.use ++ s.hub.bound.map Prod.snd).any (fun u => match u with
    | .drain r q | .cmd r q _ | .copy r q _ => r == ring && q == seq
    | _ => false)
  || (match s.cmdOf ring seq with
    | none => false
    | some c => (s.slotsFor c).any (fun p => p.2.2.phase == .stopped && !s.fenced p.1 && p.2.2.qx.any (fun q =>
        q.waitAns != 0 || !q.pieces.isEmpty)))

/-- A stopped command whose writes are acknowledged gives up the slots it still holds. -/
def freeStopped (ring seq : Nat) (s : State) : State :=
  match s.cmdOf ring seq with
  | none => s
  | some c => ((s.slotsFor c).filter (fun p => p.2.2.phase == .stopped)).foldl (fun st p =>
      freeSlot p.1 p.2.1 (dropWaits (fun w => match w.by_ with | .move a b _ => a == p.1 && b == p.2.1 | _ => false) st)) s

/-- The contents of a range as every reader sees them, saved (13 R471). -/
def State.snapshot (s : State) (a n : Nat) : Saved :=
  ⟨a, n, putBytes [] a (s.cohRead a n), ((sectorsOf a n).filter (fun k => (s.cohSector k).2)).map (fun k => (k, 1)), [], []⟩

/-- Put a saved range back wherever it lies now (05 R155, 13 R471). -/
def putBack (sv : Saved) (s : State) : State :=
  (sectorsOf sv.lo sv.len).foldl (fun st n =>
    let d := (List.range 64).map (fun i => look 0#8 sv.bytes (64 * n + i))
    storeSector n d none (inRuns n sv.poison) (touchFrame (64 * n) true (dropCopies n st))) s

/-- Do two ranges meet? -/
def rangesMeet (a b : Nat × Nat) : Bool := decide (a.1 < b.1 + b.2) && decide (b.1 < a.1 + a.2)

/-- Restore the in-place regions of a command from its checkpoint (05 R155, step 4; 13 R471), but for those that another command
declared beside it (13 R470). -/
def restoreRegions (ring seq : Nat) (s : State) : State :=
  match s.cmdOf ring seq with
  | none => s
  | some c => (c.ckpt.filter (fun sv => !c.clash.any (rangesMeet (sv.lo, sv.len)))).foldl (fun st sv => putBack sv st) s

/-- The tiles of a suspect's replay leave the qualification point (15 R524). -/
def leaveQual (c : Cmd) (s : State) : State := (c.qualAt.filter (fun p => !s.fenced p)).foldl (fun st p => runVolt p st) s

/-- The sectors of a range that a core die or the pool holds a copy of. -/
def State.copiesIn (s : State) (a n : Nat) : List Nat :=
  let inside := fun k => decide (a < 64 * k + 64) && decide (64 * k < a + n)
  (((List.range 4).flatMap (fun d => (s.cdieOf d).lines.map Prod.fst ++ (s.poolOf d).lines.map Prod.fst)).filter inside).eraseDups

/-- The contents of a range become undefined wherever they are held: copies go back to where the sector is stored, so that the
bytes beside the range stay (05 R155). -/
def undefineAt (a n : Nat) (s : State) : State :=
  let s1 := (s.copiesIn a n).foldl (fun st k =>
    let d := st.cohSector k
    storeSector k d.1 none d.2 (touchFrame (64 * k) true (dropCopies k st))) s
  let s2 := match s1.zone a, s1.place a with
    | .tiered _, none => s1.withTier { s1.tier with flash := s1.tier.flash.undefine (a - tierBase) n s1.free }
    | _, _ => s1.withMem (s1.mem.undefine (s1.phys a) n s1.free)
  s2.withFree (s2.free + 1)

/-- The device pieces of regions of a command. -/
def State.regionPieces (s : State) (c : Cmd) (l : List Region) : List (Nat × Nat) :=
  l.flatMap (fun r => (s.devPieces (s.ringCtx c.ring) r.dva r.size true).filterMap id)

/-- The write-only regions of a faulted command hold undefined contents (05 R155). -/
def undefineRegions (ring seq : Nat) (s : State) : State :=
  match s.cmdOf ring seq with
  | none => s
  | some c => (s.regionPieces c (c.regionsOf.filter (fun r => !r.inplace))).foldl (fun st p => undefineAt p.1 p.2 st) s

/-- The regions that a command and others declared while they ran hold undefined contents (13 R470). -/
def undefineClash (ring seq : Nat) (s : State) : State :=
  match s.cmdOf ring seq with
  | none => s
  | some c => c.clash.foldl (fun st p => undefineAt p.1 p.2 st) s

/-- A command starts beside another: the regions that both declare have undefined contents from now on (13 R470). -/
def noteClash (ring seq : Nat) (s : State) : State :=
  match s.cmdOf ring seq with
  | none => s
  | some c =>
    let mine := c.regionsOf.map (fun r => s.regionPieces c [r])
    (s.disp.cmds.filter (fun x => x.phase == .running && !(x.ring == ring && x.seq == seq) && !x.regionsOf.isEmpty)).foldl (fun st x =>
      let meets := fun (a b : List (Nat × Nat)) => a.any (fun p => b.any (rangesMeet p))
      let its := x.regionsOf.map (fun r => st.regionPieces x [r])
      let a := (mine.filter (fun l => its.any (meets l))).flatten
      let b := (its.filter (fun l => mine.any (meets l))).flatten
      if a.isEmpty then st
      else undefineClash ring seq ((st.updCmd ring seq (fun y => { y with clash := y.clash ++ a })).updCmd x.ring x.seq
        (fun y => { y with clash := y.clash ++ b }))) s

/-- End a command with an outcome: its parts stop; once its writes are acknowledged its in-place regions are restored
and its completion follows (05 R155, 10 R350, 13 R467). -/
def endWith (ring seq : Nat) (v : Verdict) (s : State) : State :=
  match s.cmdOf ring seq with
  | none => s
  | some c =>
    if c.phase = .done ∨ c.phase = .written ∨ c.phase = .held then s
    else (stopParts ring seq s).updCmd ring seq (fun c =>
      { c.addOut v with phase := .ending, parts := c.parts.map (fun p => { p with ended := true }), replayDue := none
                        suspect := false, stopped := true })

/-- Is a site failed (01 R21)? -/
def State.siteFailed (s : State) (p : Nat) : Bool := look 0 s.glb.site p == 3

/-- PART_FAILED naming a die (13 R477). -/
def partFailed (port : Nat) : Verdict := { status := 0x0B, port := some port }

/-- A fault stops a command: it is stopped, and either waits for its replay or ends with PART_FAILED (16 R567 rows 1 to 6, R568); one
that poisoned data has entered is not replayed and ends with INTEGRITY (R556, R567 row 7). -/
def stopForReplay (ring seq cause port : Nat) (s : State) : State :=
  match s.cmdOf ring seq with
  | none => s
  | some c =>
    if c.phase != .running && c.phase != .head && !(c.phase == .ending && !c.stopped) then s
    else if c.taint.isSome then endWith ring seq {} s
    else if c.sentPut || decide (4 ≤ c.replays) || s.siteFailed port && cause = 2 then endWith ring seq (partFailed port) s
    else (stopParts ring seq s).updCmd ring seq (fun c =>
      { c with replayDue := some cause, stopPort := port, stopped := true, phase := if c.phase = .ending then .running else c.phase
               parts := c.parts.map (fun p => { p with ended := true }) })

/-- The port that the failure of an access names: the tier die whose state bars it, or the address's target (01 R34; 02 R61; 09 R313,
R314). -/
def State.errPort (s : State) (a : Nat) (write : Bool) : Nat :=
  match s.zone a with
  | .tiered t => if s.tierBars t write then 60 + t % 2 else (s.targetOf a).getD 63
  | _ => (s.targetOf a).getD 63

/-- An access of a command got an error answer (02 R60, R61; 14 R509; 16 R567): replay once the die is back, or the
status ACCESS or PEER. `reason` holds the Ranoa reason in bits [15:8]. -/
def accessFailed (ring seq port reason addr dva : Nat) (s : State) : State :=
  match s.cmdOf ring seq with
  | none => s
  | some c =>
    if reason % 256 = 1 || reason % 256 = 2 then stopForReplay ring seq 2 port s
    else if 256 ≤ reason then
      endWith ring seq { status := 0x09, reason := reason / 256, port := some port
                         detail := dva % 2 ^ 55 + at_ ((addr / 2 ^ 44) % 8) 61 } s
    else if s.memc.mapStep != 0 then stopForReplay ring seq 4 port s
    else endWith ring seq { status := 0x0A, reason := reason % 256, port := some port, detail := addr
                            region := c.regionFor dva } s

/-- Poisoned data enters a command (16 R556): its first sector is named, one event per command follows at its end. -/
def taintCmd (ring seq : Nat) (v : Verdict) (s : State) : State :=
  s.updCmd ring seq (fun c => { c with taint := some (c.taint.getD v), taints := satAdd 0xFFFF c.taints 1 })

/-- The commands that hold a part on a position. -/
def State.cmdsOn (s : State) (pos : Nat) : List Cmd :=
  s.disp.cmds.filter (fun c => (c.phase == .running || c.phase == .head) && c.parts.any (fun p => p.pos == pos && !p.ended))

/-- Fence a port (02 R58 to R60): the fence runs, requests queued to it are answered and give their slots back, its waiters are discarded
(07 R221), and its die is reset or failed, so that its link needs full training (02 R51). A dead die's packets that no output has
granted are dropped and its fence is complete at once (02 R59). -/
def fencePort (port : Nat) (dead : Bool) (cause : Nat) (s : State) : State :=
  let toIt := s.hub.voq.filter (fun v => v.pkt.dst == port)
  let left := s.hub.voq.filter (fun v => v.pkt.dst != port && !(dead && v.pkt.src == port && !v.fwd))
  let s1 := s.withHub { s.hub with voq := left, outst := s.hub.outst.filter (fun o => o.src != port)
                                   bound := s.hub.bound.filter (fun b => b.1.src != port) }
  let s2 := s1.updLink port (fun l => { l with fenced := true, state := 1, width := 0, fencing := !dead, calibrated := false
                                               paused := false, die := {}, hub := {} })
  let s3 := toIt.foldl (fun st v =>
    let st1 := if v.fwd then st else freeSlotOf .die v st
    if opIsReq v.pkt.op then hubSays (deadAnswer v.pkt 0x02) st1 else st1) s2
  let sent := fun o : Outst => !(toIt.any (fun v => v.pkt.src == o.src && v.pkt.tid == o.tid))
    && !((s.linkOf o.src).die.wait.any (fun w => w.2.tid == o.tid && opIsReq w.2.op))
  let s4 := (s3.hub.outst.filter (fun o => o.dst == port && sent o)).foldl (fun st o =>
    hubSays (deadAnswer ⟨o.op, o.src, port, o.tid, o.addr, false, [], [], o.len⟩ 0x02) st) s3
  let keep := fun w : Waiter => match w.by_ with | .port p _ => p != port | _ => true
  let s5 := s4.withSync (s4.sync.map (fun o => (o.1, { o.2 with waiters := o.2.waiters.filter keep })))
  post (ev 0x30 (some port) cause []) (qualVolt port (s5.withGlb { s5.glb with site := put 0 s5.glb.site port 2 }))

/-- A fenced die turns out dead: the hub drops its packets that no output has granted and the fence is complete (02 R59); its link stays
down. -/
def fenceDead (port : Nat) (s : State) : State :=
  (s.withHub { s.hub with voq := s.hub.voq.filter (fun v => v.pkt.src != port || v.fwd) }).updLink port (fun l =>
    { l with state := 0, width := 0, fencing := false })

/-- A die has failed: its port is fenced, its regulators turn off, its state reads failed, Ivory records a tile position, commands
that wait for it end with PART_FAILED (01 R17, R31, R34; 02 R59; 16 R567 row 3, R570). -/
def dieFailed (port cause : Nat) (s : State) : State :=
  let s0 := fenceDead port (if s.fenced port then s else fencePort port true cause s)
  let s1 := s0.withGlb { s0.glb with site := put 0 s0.glb.site port 3 }
  let s2 := setVolt port 0 (s1.withBoot { s1.boot with regulator := put false s1.boot.regulator port false })
  let s2' := if port ≤ 32 then s2.withRepair { s2.repair with failed := ins port s2.repair.failed } else s2
  let s3 := post (ev 0x32 (some port) cause []) s2'
  (s3.disp.cmds.filter (fun c => c.replayDue == some 2 && c.stopPort == port)).foldl
    (fun st c => endWith c.ring c.seq (partFailed port) st) s3

/-- Has the link of a die that was reset trained again (02 R51)? -/
def State.linkReady (s : State) (port : Nat) : Bool := (s.linkOf port).state == 2

/-- Lift a fence: the die serves again over its trained link, and leaves the qualification point (15 R524, 16 R570). -/
def unfence (port ms : Nat) (s : State) : State :=
  let s1 := (runVolt port s).updLink port (fun l => { l with fenced := false, fencing := false })
  post (ev 0x31 (some port) ms []) (s1.withGlb { s1.glb with site := put 0 s1.glb.site port 0 })

end Sys2Proof.Machine
end

