-- ==== Sys2Proof/Machine/XltOps.lean ====
section
/-!
DEFINITION. Address translation as accesses use it: the caches, the walker, waits on walks and on ATS, stalls and fault
records (10 R324 to R350).
-/
namespace Sys2Proof.Machine

/-! ## The caches -/

/-- Is it the entry of this context and first page? -/
def TlbEnt.same (a b : TlbEnt) : Bool := a.ctx == b.ctx && a.page == b.page
/-- Does an entry cover a page of a context? -/
def TlbEnt.covers (e : TlbEnt) (ctx page : Nat) : Bool :=
  e.ctx == ctx && decide (e.page ≤ page) && decide (page < e.page + e.pages)
/-- Put an entry first in a cache of a size, least recently used last (10 R330). -/
def tlbPut (cap : Nat) (e : TlbEnt) (l : List TlbEnt) : List TlbEnt := (e :: l.filter (fun x => !x.same e)).take cap
/-- The set of an entry of the shared level (10 R330). -/
def sharedSet (e : TlbEnt) : Nat := Nat.xor (e.page % 4096) (e.ctx * 4) % 4096
/-- Keep the first n entries of a set. -/
def capSet (set : Nat) : Nat → List TlbEnt → List TlbEnt
  | _, [] => []
  | n, e :: r =>
    if sharedSet e = set then (if n = 0 then capSet set 0 r else e :: capSet set (n - 1) r) else e :: capSet set n r
/-- Put an entry first in its set of 16 ways (10 R330). -/
def sharedPut (e : TlbEnt) (l : List TlbEnt) : List TlbEnt :=
  capSet (sharedSet e) 16 (e :: l.filter (fun x => !x.same e))
/-- The entry that covers a page. -/
def tlbFind (ctx page : Nat) (l : List TlbEnt) : Option TlbEnt := l.find? (fun e => e.covers ctx page)

/-- Which small cache an access goes through (10 R330). -/
inductive Tlb where
  | tile (pos : Nat) | checker | ranoa (die : Nat) | none
  deriving DecidableEq, Repr

/-- The entries of a small cache. -/
def State.tlbOf (s : State) : Tlb → List TlbEnt
  | .tile pos => (s.tileOf pos).tlb
  | .checker => s.xlt.checker
  | .ranoa d => look [] s.rna.tlb d
  | .none => []

/-- An entry is used in a small cache: it becomes the most recent one. -/
def tlbNote (t : Tlb) (e : TlbEnt) (s : State) : State :=
  match t with
  | .tile pos => s.updTile pos (fun x => { x with tlb := tlbPut 1024 e x.tlb })
  | .checker => s.withXlt { s.xlt with checker := tlbPut 1024 e s.xlt.checker }
  | .ranoa d => s.withRna { s.rna with tlb := upd [] s.rna.tlb d (tlbPut 1024 e) }
  | .none => s

/-- Drop entries from every cache (10 R337, R343; 12 R418). -/
def dropTlb (p : TlbEnt → Bool) (s : State) : State :=
  let s1 := s.withXlt { s.xlt with shared := s.xlt.shared.filter (fun e => !p e), checker := s.xlt.checker.filter (fun e => !p e) }
  let s2 := s1.withRna { s1.rna with tlb := (s1.rna.tlb.map (fun t => (t.1, t.2.filter (fun e => !p e)))).filter (fun t => !t.2.isEmpty) }
  s2.withTile (s2.tile.map (fun t => (t.1, { t.2 with tlb := t.2.tlb.filter (fun e => !p e) })))

/-- Where a translated access goes: a device address, or a bus address of the host. -/
inductive Hit where
  | dev (a : Nat) | bus (a : Nat)
  deriving DecidableEq, Repr

/-- What an entry answers to an access (10 R329, R335). -/
inductive EntAns where
  | hit (h : Hit) | fault (reason : Nat) | unit | pri
  deriving DecidableEq, Repr

/-- The answer of an entry: permissions of the entry and of the unit, and the range of bus addresses. -/
def TlbEnt.ans (e : TlbEnt) (dva : Nat) (write : Bool) : EntAns :=
  if !(if write then e.w else e.r) then .fault 0x02
  else match e.dest with
    | .dev base => .hit (.dev (base + dva - e.page * 0x10000))
    | .host =>
      match e.units.find? (fun u => u.unit == dva % 0x10000 / 4096) with
      | none => .unit
      | some u =>
        if 2 ^ 46 ≤ u.addr then .fault 0x07
        else if if write then u.w else u.r then .hit (.bus (u.addr + dva % 4096)) else .pri

/-! ## Fault records -/

/-- The records a fault ring holds (10 R347, R359). -/
def State.frSize (s : State) (c : Nat) : Nat := 2 ^ (6 + min 6 (s.regFld (xltReg c + 0x10) 3 0))
/-- The base of a fault ring. -/
def State.frBase (s : State) (c : Nat) : Nat := s.regFld (xltReg c + 0x10) 63 12 * 4096
/-- Is a fault ring in device memory? -/
def State.frDev (s : State) (c : Nat) : Bool := bitOf (s.reg (xltReg c + 0x18)).toNat 14
/-- May the device write to host memory for the function (12 R418, R425)? -/
def State.attached (s : State) (fn : Nat) : Bool := (s.sessOf fn).state == .attached

/-- A fault that no record reports (10 R347, R360). -/
def faultLost (c : Nat) (s : State) : State :=
  s.withXlt { s.xlt with frFull := upd 0 s.xlt.frFull c (fun n => satAdd 0xFFFF n 1) }

/-- The bytes of a record but for PHASE (10 R348). -/
def faultBytes (ctx dva reason level : Nat) (host write : Bool) (ring part seq entry : Nat) : List Byte :=
  leBytes 8 dva ++ leBytes 2 ctx ++ [BitVec.ofNat 8 reason, BitVec.ofNat 8 (at_ level 2 + at_ (b2n host) 1 + b2n write)]
    ++ leBytes 2 ring ++ leBytes 2 part ++ leBytes 8 seq ++ leBytes 8 entry

/-- A context's untranslated requests carry its PASID when that is enabled (10 R358, 12 R413). -/
def State.untrans (s : State) (c : Nat) : TlpAt :=
  .untranslated (if bitOf (s.reg (xltReg c + 8)).toNat 31 then some (s.regFld (xltReg c + 8) 19 0) else none)

/-- Write a record in its slot and signal it (10 R347). -/
def faultWrite (c : Nat) (rec_ : List Byte) (s : State) : State :=
  let n := look 0 s.xlt.frProd c
  let phase := if n / s.frSize c % 2 = 0 then 0x80#8 else 0#8
  let bytes := rec_.take 11 ++ [((rec_[11]?).getD 0#8) ||| phase] ++ rec_.drop 12
  let a := s.frBase c + 32 * (n % s.frSize c)
  let s1 := s.withXlt { s.xlt with frProd := put 0 s.xlt.frProd c (n + 1), faultsWritten := satAdd 0xFFFF s.xlt.faultsWritten 1 }
  let vec := s.regFld (xltReg c + 0x18) 11 0
  if s.frDev c then routerEvent (s.regFld (xltReg c + 0x18) 13 12) vec (cohWrite a bytes s1)
  else msixGather (s.ctxFn c) vec (s1.tlp (.write (s.ctxFn c) a bytes false (.fault c) (s.untrans c)))

/-- Does the ring appear full by the consumer count last read (10 R347)? -/
def State.frLooksFull (s : State) (c : Nat) : Bool :=
  decide (look 0 s.xlt.frCons c + s.frSize c ≤ look 0 s.xlt.frProd c)

/-- A read of host memory, of 4,096 B at most, goes out with a tag of its own (12 R409). -/
def hostRead (fn : Nat) (mode : TlpAt) (addr len : Nat) (use : HostRd) (s : State) : State :=
  let t := s.hif.nextTag
  (s.withHif { s.hif with nextTag := t + 1, reads := put none s.hif.reads t (some use) }).nonPosted (.read fn addr len t mode)

/-- Write a fault record, or count the fault (10 R347, R360): nothing is recorded while the ring is off, or, for a host
ring, while the function is detached (log 31). A ring that appears full is judged by its consumer count, read anew. -/
def faultRecord (c : Nat) (rec_ : List Byte) (s : State) : State :=
  if !bitOf (s.reg (xltReg c + 0x18)).toNat 15 then faultLost c s
  else if s.frDev c then
    if s.frLooksFull c then
      let s1 := s.withXlt { s.xlt with frCons := put 0 s.xlt.frCons c (s.cohLE (s.frBase c + 32 * s.frSize c) 8) }
      if s1.frLooksFull c then faultLost c s1 else faultWrite c rec_ s1
    else faultWrite c rec_ s
  else if !s.attached (s.ctxFn c) then faultLost c s
  else if !(look [] s.xlt.frPend c).isEmpty then
    s.withXlt { s.xlt with frPend := upd [] s.xlt.frPend c (fun l => l ++ [rec_]) }
  else if s.frLooksFull c then
    hostRead (s.ctxFn c) (s.untrans c) (s.frBase c + 32 * s.frSize c) 8 (.frCons c)
      (s.withXlt { s.xlt with frPend := put [] s.xlt.frPend c [rec_] })
  else faultWrite c rec_ s

/-- The consumer count of a host ring has been read: the records that waited for it are written or counted. -/
def frConsRead (c cons : Nat) (s : State) : State :=
  let s1 := s.withXlt { s.xlt with frCons := put 0 s.xlt.frCons c cons, frPend := put [] s.xlt.frPend c [] }
  (look [] s.xlt.frPend c).foldl (fun st r => if st.frLooksFull c then faultLost c st else faultWrite c r st) s1

/-! ## Waits, walks, stalls -/

/-- Add a waiter once. -/
def addWait (w : XltWait) (l : List XltWait) : List XltWait := if l.any (fun x => x == w) then l else l ++ [w]
/-- An access waits for nothing any more. -/
def clearWait (w : XltWait) (s : State) : State :=
  if s.xlt.stalls.any (fun x => x.waits.any (fun y => y == w)) then dropWaits (fun y => y == w) s else s

/-- Is an access stalled (10 R346)? -/
def State.stalledWait (s : State) (w : XltWait) : Bool := s.xlt.stalls.any (fun x => x.waits.any (fun y => y == w))

/-- Is a page blocked by an INVALIDATE or a MIGRATE (10 R343, R351)? -/
def State.blocked (s : State) (ctx page : Nat) : Bool :=
  s.xlt.blocks.any (fun b => b.ctx == ctx && decide (b.page ≤ page) && decide (page < b.page + b.pages))

/-- A table pointer is read or used: it is the most recent one of the walk cache (10 R330). -/
def notePtr (p : WalkPtr) (s : State) : State :=
  let rest := s.xlt.walkCache.filter (fun q => !(q.ctx == p.ctx && q.level == p.level && q.idx == p.idx))
  s.withXlt { s.xlt with walkCache := (p :: rest).take 4096 }

/-- Where a walk starts: at the lowest table that the walk cache knows, whose pointer is used, or at the root (10 R330). -/
def walkStart (ctx page : Nat) (s : State) : Nat × Nat × State :=
  let ptr := fun (lv : Nat) => s.xlt.walkCache.find? (fun p => p.ctx == ctx && p.level == lv && p.idx == page / 2 ^ (26 - 13 * lv))
  match ptr 1, ptr 0 with
  | some p, _ => (2, p.table, notePtr p s)
  | none, some p => (1, p.table, notePtr p s)
  | none, none => (0, look 0 s.xlt.root ctx * 0x10000, s)

/-- A walk is counted when it starts (10 R356). -/
def countWalk (s : State) : State := s.withXlt { s.xlt with walksStarted := satAdd 0xFFFFFFFF s.xlt.walksStarted 1 }

/-- The walks in progress, at most 64 (10 R331). -/
def State.walksOn (s : State) : Nat := (s.xlt.walks.filter Walk.begun).length

/-- Is it the walk of a page? -/
def Walk.isFor (x : Walk) (ctx page : Nat) : Bool := x.ctx == ctx && x.page == page

/-- The oldest walk that has not begun begins, while fewer than 64 are in progress (10 R331). -/
def walksGo (s : State) : State :=
  match s.xlt.walks.find? (fun x => !x.begun) with
  | none => s
  | some x =>
    if 64 ≤ s.walksOn then s
    else
      let (lv, tb, s1) := walkStart x.ctx x.page s
      countWalk (s1.withXlt { s1.xlt with walks := s1.xlt.walks.map (fun y =>
        if y.isFor x.ctx x.page then { y with level := lv, table := tb, begun := true } else y) })

/-- Ask for a walk, or join the one there is (10 R331, R333). -/
def startWalk (ctx page : Nat) (ws : List XltWait) (s : State) : State :=
  if s.xlt.walks.any (fun x => x.isFor ctx page) then
    s.withXlt { s.xlt with walks := s.xlt.walks.map (fun x =>
      if x.isFor ctx page then { x with waits := ws.foldl (fun l w => addWait w l) x.waits } else x) }
  else walksGo (s.withXlt { s.xlt with walks := s.xlt.walks ++ [⟨ctx, page, 0, 0, false, ws⟩] })

/-- Walks in a range are discarded, and start anew from what the walk cache knows then (10 R343 steps 1 and 5). -/
def restartWalks (mine : Walk → Bool) (s : State) : State :=
  s.xlt.walks.foldl (fun st x =>
    if mine x && x.begun then
      let (lv, tb, s1) := walkStart x.ctx x.page st
      s1.withXlt { s1.xlt with walks := s1.xlt.walks.map (fun y => if y.isFor x.ctx x.page then { y with level := lv, table := tb } else y) }
    else st) s

/-- Must an access that misses every cache wait for the walker: its page is blocked, its walk is under way, or 64 are
(10 R331, R333, R343)? -/
def State.walkHeld (s : State) (ctx page : Nat) : Bool :=
  s.blocked ctx page || s.xlt.walks.any (fun x => x.isFor ctx page) || decide (64 ≤ s.walksOn)

/-- A hit of the shared level on page p walks page p + 1 (10 R332). -/
def prefetchNext (ctx page : Nat) (s : State) : State :=
  if page + 1 < 2 ^ 39 ∧ (tlbFind ctx (page + 1) s.xlt.shared).isNone ∧ !s.xlt.walks.any (fun x => x.isFor ctx (page + 1)) then startWalk ctx (page + 1) [] s else s

/-- Ring, part and acceptance index of an access as a fault record gives them (10 R348). -/
def State.waitInfo (s : State) (w : XltWait) : Nat × Nat × Nat :=
  match w.by_ with
  | .move pos slot _ | .xpref pos slot _ =>
    match look none (s.tileOf pos).slots slot with
    | some x => (x.ring, x.part, x.seq)
    | none => (0xFFFF, 0xFFFF, 0)
  | .cmd ring seq | .list ring seq => (ring, 0, seq)
  | .place _ | .ranoa _ => (0xFFFF, 0xFFFF, 0)

/-- XPREF skips the pages of a translation that would fault (06 R200). -/
def xprefSkip (pos slot id page : Nat) (s : State) : State :=
  s.updTile pos (fun t => { t with slots := upd none t.slots slot (fun o => o.map (fun x =>
    { x with qx := x.qx.map (fun q =>
        if q.id == id then { q with pieces := q.pieces.filter (fun p => p.dva / 0x10000 != page) } else q) })) })

/-- A placement write waits no more. -/
def placeGone (n : Nat) (s : State) : State :=
  s.withHif { s.hif with placeWait := s.hif.placeWait.filter (fun p => p.n != n) }

/-- Log a dropped placement write (12 R432, R438). -/
def placeLog (rid off reason : Nat) (s : State) : State :=
  let l := s.hif.plog
  let l1 := if l.captured then l else { l with rid := rid % 65536, reason := reason, off := off, captured := true }
  s.withHif { s.hif with plog := { l1 with dropped := satAdd 0xFFFFFFFF l.dropped 1, since := satAdd 0xFFFFFFFF l.since 1 } }

/-- A translation fault drops a placement write whole (12 R431, R432). -/
def placeFault (n : Nat) (s : State) : State :=
  match s.hif.placeWait.find? (fun p => p.n == n) with
  | none => s
  | some p => placeLog p.rid p.off 0x5 (placeGone n s)

/-- A move whose access ends its command sends nothing more (06 R205). -/
def loseMove (ends : Bool) (w : XltWait) (s : State) : State :=
  match w.by_ with
  | .move pos slot id =>
    if ends then
      s.updTile pos (fun t => { t with slots := upd none t.slots slot (fun o => o.map (fun x =>
        { x with qx := x.qx.map (fun q => if q.id == id then { q with pieces := [] } else q) })) })
    else s
  | _ => s

/-- An access stalls on a translation (10 R338, R346). -/
def addStall (ctx reason : Nat) (w : XltWait) (s : State) : State :=
  let same := fun (x : Stall) => x.ctx == ctx && x.page == w.dva / 0x10000 && x.reason == reason
  let s1 := dropWaits (fun y => y == w) s
  if s1.xlt.stalls.any same then
    s1.withXlt { s1.xlt with stalls := s1.xlt.stalls.map (fun x => if same x then { x with waits := addWait w x.waits } else x) }
  else s1.withXlt { s1.xlt with stalls := s1.xlt.stalls ++ [⟨ctx, w.dva / 0x10000, reason, [w]⟩] }

/-- A command ends with FAULT, or with the status of a poisoned table: its accesses wait for nothing any more, and a move that one of
them belongs to sends nothing more; every other started write runs on until it is acknowledged (05 R155, 10 R350). -/
def endFault (ring seq : Nat) (v : Verdict) (s : State) : State :=
  let mine := fun (w : XltWait) => s.waitOf w == some (ring, seq)
  let ws := ((s.xlt.walks.flatMap Walk.waits) ++ (s.xlt.ats.flatMap AtsReq.waits) ++ (s.xlt.stalls.flatMap Stall.waits)).filter mine
  endWith ring seq v (ws.foldl (fun st w => loseMove true w st) (dropWaits mine s))

/-- A translation faults for one access (10 R345 to R350): one record for each context, page and reason while the
stall lasts; none when the record is already written (`told`). TABLE_POISON and HOST_DENIED end the command at once; XPREF and a
placement write are dropped. A GET of the Ranoa die makes its own walk again (14 R502). The dispatcher's read of a list finds it
unreadable, without a record: its descriptor is refused for it (13 R456; log 33). -/
def xltFault (told : Bool) (ctx reason level entry : Nat) (host : Bool) (table : Nat) (w : XltWait) (s : State) : State :=
  let page := w.dva / 0x10000
  let (ring, part, seq) := s.waitInfo w
  let known := told || s.xlt.stalls.any (fun x => x.ctx == ctx && x.page == page && x.reason == reason)
  let rec_ := faultBytes ctx w.dva reason level host w.write ring part seq entry
  match w.by_ with
  | .xpref pos slot id => xprefSkip pos slot id page s
  | .place n => placeFault n (faultRecord ctx rec_ s)
  | .ranoa _ => s
  | .list _ _ => addStall ctx reason w s
  | _ =>
    let s1 := loseMove (reason = 0x09 || reason = 0x06) w (if known then s else faultRecord ctx rec_ s)
    if reason = 0x09 then
      endFault ring seq { status := 0x05, detail := table / 64 * 64, port := s.homePort table, region := 0xE } s1
    else if reason = 0x06 then endFault ring seq { status := 0x04, reason := reason, detail := w.dva } s1
    else addStall ctx reason w s1

/-- Is an access a command's, whose fault one record reports for all that wait with it (10 R346)? -/
def XltWait.ofCmd (w : XltWait) : Bool := match w.by_ with | .move _ _ _ | .cmd _ _ => true | _ => false

/-- A translation faults for the accesses that wait on it: one record for all of a command's (10 R346). `lv`: level and entry as the
record of an access gives them. -/
def xltFaults (ctx reason : Nat) (lv : State → XltWait → Nat × Nat) (host : Bool) (table : Nat) (ws : List XltWait) (s : State) : State :=
  (ws.foldl (fun (acc : Bool × State) w =>
    let x := lv acc.2 w
    (acc.1 || w.ofCmd, xltFault acc.1 ctx reason x.1 x.2 host table w acc.2)) (false, s)).2

/-- The level and entry a walk would report for an address now. -/
def State.leafInfo (s : State) (ctx dva : Nat) : Nat × Nat :=
  match walkTable s ctx dva with
  | .leaf _ _ _ _ lv e => (lv, e)
  | .fault _ lv e _ => (lv, e)
  | .error _ _ => (0, 0)

/-- The ATS request of a page goes out: the requester ID of the function that owns the context, and the context's PASID
(10 R334, R335). -/
def atsSend (ctx page : Nat) (s : State) : State := s.nonPosted (.ats (s.ctxFn ctx) (s.regFld (xltReg ctx + 8) 19 0) ctx page)

/-- Does a context use ATS and PRI (10 R334, R358)? -/
def State.pasidOn (s : State) (ctx : Nat) : Bool := bitOf (s.reg (xltReg ctx + 8)).toNat 31

/-- An access needs a unit that is not translated (10 R333 to R338): it joins the ATS request of the page, or sends one. While the
function is detached it stalls; in a context that uses no ATS any more a host-resident page is malformed (R334, R358). -/
def needUnit (ctx : Nat) (w : XltWait) (s : State) : State :=
  let page := w.dva / 0x10000
  let same := fun x : AtsReq => x.ctx == ctx && x.page == page
  if !s.pasidOn ctx then xltFault false ctx 0x03 (s.leafInfo ctx w.dva).1 (s.leafInfo ctx w.dva).2 false 0 w s
  else if !s.attached (s.ctxFn ctx) then
    match w.by_ with
    | .xpref pos slot id => xprefSkip pos slot id page s
    | _ => addStall ctx 0 w s
  else
    let s0 := clearWait w s
    if s0.xlt.ats.any same then
      s0.withXlt { s0.xlt with ats := s0.xlt.ats.map (fun x => if same x then { x with waits := addWait w x.waits } else x) }
    else atsSend ctx page (s0.withXlt { s0.xlt with ats := s0.xlt.ats ++ [⟨ctx, page, [], [], [w]⟩] })

/-- The page requests of a function, oldest first. -/
def State.prisOf (s : State) (fn : Nat) : List (Nat × Nat × Nat) := s.xlt.pri.filter (fun p => s.ctxFn p.1 == fn)
/-- The page requests a function may have outstanding: what its host allocates, of the 512 it asks for (10 R336, 12 R414). -/
def priMax (fn : Nat) : Nat := min 511 (Config.priMore fn) + 1
/-- The page requests of a function that have gone out; the others wait (10 R336). -/
def State.prisSent (s : State) (fn : Nat) : List (Nat × Nat × Nat) := (s.prisOf fn).take (priMax fn)
/-- A page request goes out (10 R334, R336). -/
def priSend (p : Nat × Nat × Nat) (s : State) : State := s.tlp (.pri (s.ctxFn p.1) (s.regFld (xltReg p.1 + 8) 19 0) p.1 p.2.1 p.2.2)

/-- An ATS completion denied what the access needs: a page request for the unit goes out, or, after one that
succeeded, the access faults (10 R336, R345). -/
def needPri (ctx : Nat) (w : XltWait) (s : State) : State :=
  let page := w.dva / 0x10000
  let unit := w.dva % 0x10000 / 4096
  let done := s.xlt.ats.any (fun x => x.ctx == ctx && x.page == page && has unit x.priOk)
  if !s.pasidOn ctx then xltFault false ctx 0x03 (s.leafInfo ctx w.dva).1 (s.leafInfo ctx w.dva).2 false 0 w s
  else if done then
    let (lv, e) := s.leafInfo ctx w.dva
    xltFault false ctx 0x02 lv e true 0 w s
  else
    let same := fun x : AtsReq => x.ctx == ctx && x.page == page
    let s1 := if s.xlt.ats.any same then
        s.withXlt { s.xlt with ats := s.xlt.ats.map (fun x => if same x then { x with waits := addWait w x.waits } else x) }
      else s.withXlt { s.xlt with ats := s.xlt.ats ++ [⟨ctx, page, [], [], [w]⟩] }
    if s1.xlt.pri.any (fun x => x == (ctx, page, unit)) then s1
    else
      let s2 := s1.withXlt { s1.xlt with pri := s1.xlt.pri ++ [(ctx, page, unit)] }
      if (s1.prisOf (s.ctxFn ctx)).length < priMax (s.ctxFn ctx) then priSend (ctx, page, unit) s2 else s2

/-- What an access makes of an entry that covers it. -/
def useEntry (t : Tlb) (ctx : Nat) (w : XltWait) (e : TlbEnt) (s : State) : Option Hit × State :=
  match e.ans w.dva w.write with
  | .hit h => (some h, clearWait w (tlbNote t e s))
  | .unit => (none, needUnit ctx w s)
  | .pri => (none, needPri ctx w s)
  | .fault r =>
    let (lv, en) := s.leafInfo ctx w.dva
    (none, xltFault false ctx r lv en (r == 0x07) 0 w s)

/-- The entry of a leaf (10 R330). -/
def leafEnt (ctx page pages : Nat) (d : Dest) (r w : Bool) : TlbEnt := ⟨ctx, page / pages * pages, pages, d, r, w, []⟩

/-- The reason with which an access of an engine to a device address would fail now: no target, a fenced home, or a
refusal of the home (02 R60, R61). -/
def State.engErr (s : State) (src a : Nat) (write : Bool) : Option Nat :=
  match s.targetOf a with
  | none => some 0x03
  | some p =>
    if s.fenced p then some 0x02
    else accessErr ((s.homePort a).getD 63) ⟨if write then .write else .read, src, p, 0, a, false, [], [], 64⟩ s

/-- An access that waited for a walk or a unit met an error answer (10 R346). A move whose access ends its command sends nothing more. -/
def xltErrored (reason addr : Nat) (w : XltWait) (s : State) : State :=
  match w.by_ with
  | .xpref pos slot id => xprefSkip pos slot id (w.dva / 0x10000) s
  | .place n => placeFault n s
  | .ranoa _ | .list _ _ => s
  | .move _ _ _ | .cmd _ _ =>
    let (ring, _, seq) := s.waitInfo w
    accessFailed ring seq (s.errPort addr false) reason addr w.dva (loseMove true w s)

/-- A whole walk that begins and ends within a step: what it finds, with the table pointers it used and read in the walk cache
(10 R330, R331). Each table's home verifies what it serves (08 R252), or an error answer ends the walk (10 R346). -/
def walkOn : Nat → Nat → Nat → Nat → Nat → State → WalkRes × State
  | 0, _, _, level, _, s => (.fault 0x03 level 0 0, s)
  | n + 1, ctx, dva, level, table, st =>
    let a := table + 8 * walkIdx dva level
    let s := serveReads a 8 st
    match s.engErr 63 a false with
    | some r => (.error r a, s)
    | none =>
    match tableRead s ctx dva level table with
    | .table addr => walkOn n ctx dva (level + 1) addr (notePtr ⟨ctx, level, dva / 0x10000 / 2 ^ (26 - 13 * level), addr⟩ s)
    | .done r => (r, s)

/-- The whole walk of a context for an address (10 R324, R331). -/
def walkWhole (ctx dva : Nat) (s : State) : WalkRes × State :=
  if !has ctx s.xlt.rootOk then (.fault 0x01 0 0 0, countWalk s)
  else
    let (lv, tb, s1) := walkStart ctx (dva / 0x10000) s
    walkOn 3 ctx dva lv tb (countWalk s1)

/-- A miss of every cache by an access of the hub's own engines: the whole walk (10 R331). -/
def walkNow (ctx : Nat) (w : XltWait) (s : State) : Option Hit × State :=
  match walkWhole ctx w.dva s with
  | (.fault r lv e a, s1) => (none, xltFault false ctx r lv e false a w s1)
  | (.error r a, s1) => (none, xltErrored r a w s1)
  | (.leaf pages d r wr _ _, s1) =>
    let ent := leafEnt ctx (w.dva / 0x10000) pages d r wr
    useEntry .none ctx w ent (s1.withXlt { s1.xlt with shared := sharedPut ent s1.xlt.shared })

/-- Try to translate an access (10 R324, R330 to R333): its small cache, the shared level, then a walk. None while the
access waits or stalls. `now`: an engine of the hub, whose walk is part of its step. -/
def xltTry (t : Tlb) (now : Bool) (ctx : Nat) (w : XltWait) (s : State) : Option Hit × State :=
  let page := w.dva / 0x10000
  if 2 ^ 55 ≤ w.dva then (none, xltFault false ctx 0x08 0 0 false 0 w s)
  else match tlbFind ctx page (s.tlbOf t), tlbFind ctx page s.xlt.shared with
    | some e, sh =>
      let e' := match e.ans w.dva w.write, sh with | .unit, some x => x | _, _ => e
      useEntry t ctx w e' s
    | none, some e =>
      if s.blocked ctx page then (none, startWalk ctx page [w] s)
      else
        let s1 := s.withXlt { s.xlt with shared := sharedPut e s.xlt.shared }
        useEntry t ctx w e (if t = .none then s1 else prefetchNext ctx page s1)
    | none, none =>
      if !now || s.walkHeld ctx page then (none, startWalk ctx page [w] s) else walkNow ctx w s

/-- Translate an access: one that is stalled stays so until its translation is retried (10 R349). -/
def xltAccess (t : Tlb) (now : Bool) (ctx : Nat) (w : XltWait) (s : State) : Option Hit × State :=
  if s.stalledWait w then (none, s) else xltTry t now ctx w s

/-- A stalled access is retried (10 R349); a wait that is no stall has nothing to retry. -/
def xltRetry (ctx : Nat) (w : XltWait) (s : State) : State :=
  if !s.stalledWait w then s
  else match w.by_ with
    | .move pos _ _ | .xpref pos _ _ => (xltTry (.tile pos) false ctx w s).2
    | .place _ => (xltTry .checker false ctx w s).2
    | .ranoa port => (xltTry (.ranoa (port / 4)) false ctx w s).2
    | .cmd _ _ => (xltTry .none true ctx w s).2
    | .list _ _ => s

/-! ## The dispatcher's own looks -/

/-- What the dispatcher finds where it looks by itself (13 R454, R456): nothing yet, nothing it can reach, or what it looked for. -/
inductive Seen (α : Type) where
  | wait | bad | got (x : α)
  deriving DecidableEq, Repr

/-- Does it wait? -/
def Seen.waits {α : Type} : Seen α → Bool | .wait => true | _ => false
/-- Is it out of reach? -/
def Seen.isBad {α : Type} : Seen α → Bool | .bad => true | _ => false

/-- Does the target of an access that draws an error come back: it is fenced or maps a module out, and has not failed (16 R567 rows 2
and 4)? The dispatcher's own accesses, which belong to no running command, wait for it. -/
def State.comesBack (s : State) (a reason : Nat) (write : Bool) : Bool :=
  (decide (reason % 256 ≤ 2) || s.memc.mapStep != 0) && !s.siteFailed (s.errPort a write)

/-- The entry of a page for the dispatcher (10 R330 to R333, R343): from the shared level, or by a walk. -/
def lookPage (ctx : Nat) (w : XltWait) (s : State) : Seen TlbEnt × State :=
  let page := w.dva / 0x10000
  if 2 ^ 55 ≤ w.dva then (.bad, s)
  else if s.blocked ctx page then (.wait, startWalk ctx page [w] s)
  else match tlbFind ctx page s.xlt.shared with
    | some e => (.got e, s.withXlt { s.xlt with shared := sharedPut e s.xlt.shared })
    | none =>
      if s.walkHeld ctx page then (.wait, startWalk ctx page [w] s)
      else match walkWhole ctx w.dva s with
        | (.fault _ _ _ _, s1) => (.bad, s1)
        | (.error r a, s1) => (if s1.comesBack a r false then .wait else .bad, s1)
        | (.leaf pages d r wr _ _, s1) =>
          let ent := leafEnt ctx page pages d r wr
          (.got ent, s1.withXlt { s1.xlt with shared := sharedPut ent s1.xlt.shared })

/-- The dispatcher reads an address of a list through the context's translation (10 R335 to R337; 13 R454): a unit of a host page is
asked for; a page that it cannot read is told without a record (13 R456; log 33). -/
def listAccess (ring seq ctx a : Nat) (s : State) : Seen Hit × State :=
  let w : XltWait := ⟨.list ring seq, a, false⟩
  let drop := dropWaits (fun y => y == w)
  if s.stalledWait w then (.bad, drop s)
  else match lookPage ctx w s with
    | (.wait, s1) => (.wait, s1)
    | (.bad, s1) => (.bad, s1)
    | (.got e, s1) => match useEntry .none ctx w e s1 with
      | (some h, s2) => (.got h, s2)
      | (none, s2) => if s2.stalledWait w then (.bad, drop s2) else (.wait, s2)

/-- Does an address lie behind a link of the package: in host memory or at a Ranoa peer? -/
def State.outside (s : State) (a : Nat) : Bool := match s.zone a with | .host | .ranoa _ => true | _ => false

/-! ## The walker -/

/-- A walk ends: its waiters, and the state without it. -/
def takeWalk (ctx page : Nat) (s : State) : List XltWait × State :=
  (((s.xlt.walks.filter (fun x => x.isFor ctx page)).map Walk.waits).flatten,
    walksGo (s.withXlt { s.xlt with walks := s.xlt.walks.filter (fun x => !x.isFor ctx page) }))

/-- One table read of a walk returns (10 R325 to R333, R345, R346): the next level, a leaf for the caches with the
accesses that waited for it, or a fault for each of them. `answer`: the error answer to the read, 0 for none; the table's home verifies
what it serves (08 R252). -/
def walkRead (ctx page answer : Nat) (st : State) : List XltWait × State :=
  match st.xlt.walks.find? (fun x => x.begun && x.isFor ctx page) with
  | none => ([], st)
  | some x =>
    if st.blocked ctx page then ([], st)
    else
      let a := x.table + 8 * walkIdx (page * 0x10000) x.level
      let reason := if answer != 0 then answer else (st.engErr 63 a false).getD 0
      let s := if reason = 0 then serveReads a 8 st else st
      if !has ctx s.xlt.rootOk then
        let (ws, s1) := takeWalk ctx page s
        ([], xltFaults ctx 0x01 (fun _ _ => (x.level, 0)) false a ws s1)
      else if reason != 0 then
        let (ws, s1) := takeWalk ctx page s
        ([], ws.foldl (fun st w => xltErrored reason a w st) s1)
      else match tableRead s ctx (page * 0x10000) x.level x.table with
        | .table addr =>
          let s1 := notePtr ⟨ctx, x.level, page / 2 ^ (26 - 13 * x.level), addr⟩ s
          ([], s1.withXlt { s1.xlt with
            walks := s1.xlt.walks.map (fun y => if y == x then { y with level := y.level + 1, table := addr } else y) })
        | .done (.fault r lv e _) =>
          let (ws, s1) := takeWalk ctx page s
          ([], xltFaults ctx r (fun _ _ => (lv, e)) false a ws s1)
        | .done (.error r a) =>
          let (ws, s1) := takeWalk ctx page s
          ([], ws.foldl (fun st w => xltErrored r a w st) s1)
        | .done (.leaf pages d r w _ _) =>
          let ent := leafEnt ctx page pages d r w
          let (ws, s1) := takeWalk ctx page s
          (ws, s1.withXlt { s1.xlt with shared := sharedPut ent s1.xlt.shared })

end Sys2Proof.Machine
end

