-- ==== Sys2Proof/Machine/HostOps.lean ====
section
/-!
DEFINITION. What the host die does with packets, what a detach does, and what ends a session (12 R413 to R427;
07 R231, R242; 16 R552, R556).
-/
namespace Sys2Proof.Machine

/-! ## Commands behind packets -/

/-- The command behind a request. -/
def State.useCmd (s : State) (u : Use) : Option (Nat × Nat) :=
  match u with
  | .move pos slot _ _ | .tsync pos slot _ => (look none (s.tileOf pos).slots slot).map (fun x => (x.ring, x.seq))
  | .cmd r q _ | .copy r q _ | .drain r q => some (r, q)
  | _ => none

/-- The function in whose name a request goes to the host (12 R413). -/
def State.useFn (s : State) (u : Use) : Nat := match s.useCmd u with | some (r, _) => s.ringFn r | none => 0

/-- The use of an outstanding packet. -/
def State.pktUse (s : State) (p : Pkt) : Use := match s.findOutst p.src p.tid with | some o => o.use | none => .plain

/-- The bus address behind an address of the host bus window (12 R413). -/
def busOf (a : Nat) : Nat := a - 0x400000000000

/-- Where a write of a command lies: its output region and sector in it, or 0xE and bus address / 64 (12 R420). -/
def sectorPlace (c : Cmd) (dva bus : Nat) : Nat × Nat :=
  match c.regionsOf.findIdx? (fun r => decide (r.dva ≤ dva) && decide (dva < r.dva + r.size)) with
  | some i => (i, (dva - ((c.regionsOf[i]?).map Region.dva).getD 0) / 64)
  | none => (0xE, bus / 64)

/-- The outcome with what R420, R556 and R557 of chapters 12 and 16 add: INTEGRITY when tainted, HOST_DETACHED when cut. -/
def Cmd.settle (c : Cmd) : Cmd :=
  let c1 := match c.taint with | some v => c.addOut v | none => c
  match c1.cut with | some (r, d) => c1.addOut { status := 0x08, region := r, detail := d } | none => c1

/-- A detach cuts a command: its record names the first sector (12 R420). One that has completed, and whose record the detach keeps
back, takes the new outcome (12 R419). -/
def cutCmd (ring seq region detail : Nat) (s : State) : State :=
  s.updCmd ring seq (fun c =>
    let c1 := { c with cut := some (c.cut.getD (region, detail)), detached := true }
    if c.phase = .done ∨ c.phase = .written ∨ c.phase = .held then c1.settle else c1)

/-- Is the function held: nothing of it goes to host memory (12 R418, R425)? -/
def State.held (s : State) (fn : Nat) : Bool := (s.sessOf fn).state == .held

/-- May a command reach the host: its function is attached, and no detach has cut it (12 R418, R420). -/
def State.cmdOpen (s : State) (ring seq : Nat) : Bool :=
  s.attached (s.ringFn ring) && (match s.cmdOf ring seq with | some c => c.cut.isNone | none => true)

/-- May a request reach the host: a command's while that may, a core's while PF0 is not held. -/
def State.hostOpen (s : State) (u : Use) : Bool :=
  match s.useCmd u with
  | some (r, q) => s.cmdOpen r q
  | none => !s.held 0

/-- May a packet reach the host: it was not on its way when the session was detached, so that its address was resolved after it
(12 R418). -/
def State.hostTakes (s : State) (p : Pkt) : Bool :=
  s.hostOpen (s.pktUse p) && (match s.findOutst p.src p.tid with | some o => !o.old | none => true)

/-! ## Host-bound writes -/

/-- The runs of enabled bytes of a masked write: first offset and bytes. -/
def maskRuns : List (Nat × Byte) → List (Nat × List Byte)
  | [] => []
  | (o, b) :: r =>
    match maskRuns r with
    | (o', l) :: t => if o' = o + 1 then (o, b :: l) :: t else (o, [b]) :: (o', l) :: t
    | [] => [(o, [b])]

/-- The writes a packet makes: first address and bytes. -/
def pktWrites (p : Pkt) : List (Nat × List Byte) :=
  if p.op = .writeMasked then
    (maskRuns (maskedBytes (leAt p.payload 64 8) (p.payload.take 64))).map (fun c => (p.addr / 64 * 64 + c.1, c.2))
  else [(p.addr, p.payload)]

/-- Does a check word the packet carries differ from its data's (16 R552)? -/
def pktCheckBad (p : Pkt) : Bool :=
  (List.range p.checks.length).any (fun i => p.checks[i]? != some (crc32c ((p.payload.drop (64 * i)).take 64)))

/-- What a host-bound write of a request carries out. -/
def State.tlpFor (s : State) (u : Use) (bus : Nat) : TlpFor :=
  match s.useCmd u with
  | none => .other
  | some (ring, seq) =>
    match s.cmdOf ring seq, u with
    | some c, .move _ _ _ dva => let x := sectorPlace c dva bus; .data ring seq x.1 x.2
    | _, _ => .data ring seq 0xE (bus / 64)

/-- Is it an address of the command? -/
def CrossAt.isFor (x : CrossAt) (ring seq : Nat) : Bool := x.ring == ring && x.seq == seq

/-- A zero-length read to the oldest recorded address of a command, which is dropped (07 R242). -/
def crossRead (ring seq : Nat) (s : State) : State :=
  match s.hif.cross.find? (fun x => x.isFor ring seq) with
  | none => s
  | some x =>
    hostRead (s.ringFn ring) x.mode x.bus 0 (.flush ring seq) (s.withHif { s.hif with cross := dropFirst (fun y => y == x) s.hif.cross })

/-- The host die notes the last address written in each 1 GiB region for a CROSS_PATH ring; a 257th region flushes the
oldest (07 R242). A region recorded already keeps its place: the oldest is the one first recorded (log 61, DESIGN CHOICE). -/
def crossNote (ring seq bus : Nat) (mode : TlpAt) (s : State) : State :=
  if !s.ringCross ring then s
  else
    let same := fun (x : CrossAt) => x.isFor ring seq && x.bus / 2 ^ 30 == bus / 2 ^ 30
    if s.hif.cross.any same then
      s.withHif { s.hif with cross := s.hif.cross.map (fun x => if same x then ⟨ring, seq, bus, mode⟩ else x) }
    else
      let s1 := if 256 ≤ (s.hif.cross.filter (fun x => x.isFor ring seq)).length then crossRead ring seq s else s
      s1.withHif { s1.hif with cross := s1.hif.cross ++ [⟨ring, seq, bus, mode⟩] }

/-- Before the record, the recorded addresses of a command are read, with up to 32 reads outstanding (07 R242). -/
def crossGo : Nat → Nat → Nat → State → State
  | 0, _, _, s => s
  | n + 1, ring, seq, s =>
    if 32 ≤ (s.hif.reads.filter (fun r => r.2 == some (.flush ring seq))).length
      ∨ !s.hif.cross.any (fun x => x.isFor ring seq) then s
    else crossGo n ring seq (crossRead ring seq s)

/-- How a request of a packet addresses the host (12 R413): through a TYPE 3 page translated, else untranslated, with the PASID of a
command's context; a core's request has none. -/
def State.useMode (s : State) (u : Use) : TlpAt :=
  let unit := match u with
    | .move pos slot id off => match look none (s.tileOf pos).slots slot with
      | some x => x.qx.any (fun q => q.id == id && has off q.units)
      | none => false
    | _ => false
  if unit then .translated
  else match s.useCmd u with
    | some (ring, _) => s.untrans (s.ringCtx ring)
    | none => .untranslated none

/-- A write is placed on the link in order and acknowledged (07 R231; 12 R413; 16 R552, R554, R556): a poisoned one with
the EP bit, its bytes as read. -/
def hostPlace (p : Pkt) (s : State) : State :=
  let u := s.pktUse p
  let bad := pktCheckBad p
  let ep := p.poison || bad
  let s1 := if bad then evCheckword 3 false 57 p.addr s else s
  let s2 := match s1.useCmd u with
    | some (ring, seq) =>
      if ep then
        let region := match s1.cmdOf ring seq, u with
          | some c, .move _ _ _ dva => c.regionFor dva
          | _, _ => 0xE
        taintCmd ring seq { status := 0x05, port := some 57, detail := p.addr, region := region } s1
      else s1
    | none => s1
  let s3 := (pktWrites p).foldl (fun st c =>
    let bus := busOf c.1
    let st1 := st.tlp (.write (st.useFn u) bus c.2 ep (st.tlpFor u bus) (st.useMode u))
    match st.useCmd u with
    | some (ring, seq) => crossNote ring seq bus (st.useMode u) st1
    | none => st1) s2
  respond .respAck p 0 false [] s3

/-- A write reaches the host die: while the function is detached it is acknowledged and dropped and its command is cut
(12 R420); while the link is not in L0 it waits (12 R416). -/
def hostWrite (p : Pkt) (s : State) : State :=
  let u := s.pktUse p
  if !s.hostTakes p then
    let s1 := match s.useCmd u with
      | some (ring, seq) =>
        match s.tlpFor u (busOf p.addr) with
        | .data _ _ region off => cutCmd ring seq region off s
        | _ => s
      | none => s
    respond .respAck p 0 false [] s1
  else if s.hif.state != 2 then s.withHif { s.hif with out := s.hif.out ++ [.pkt p] }
  else hostPlace p s

/-- A read reaches the host die (12 R413, R420): it goes to the host, or returns 0xFF bytes, poisoned, with reason
0x04 while the function is detached. -/
def hostReadPkt (p : Pkt) (s : State) : State :=
  let u := s.pktUse p
  let a := if p.op = .narrowRead then p.addr / 32 * 32 else p.addr
  let n := if p.op = .narrowRead then 32 else p.rdLen
  if s.hostTakes p then hostRead (s.useFn u) (s.useMode u) (busOf a) n (.pkt p) s
  else
    let s1 := match s.useCmd u with
      | some (ring, seq) => cutCmd ring seq 0xE (busOf a / 64) s
      | none => s
    send (deadAnswer p 0x04) s1

/-- A request reaches the host die: only reads and writes have a meaning in the host bus window (07 R245, 11 R364). -/
def hostArrive (p : Pkt) (s : State) : State :=
  match p.op with
  | .read | .narrowRead => hostReadPkt p s
  | .write | .writeMasked => hostWrite p s
  | _ => send (deadAnswer p 0x04) s

/-- What waited for the link goes on. -/
def waitedGo (w : Waiting) (s : State) : State := match w with | .pkt p => hostWrite p s | .tlp t => s.tlp t

/-- The link carries TLPs again: what waited goes on it in order (12 R416). -/
def hostResume (s : State) : State := s.hif.out.foldl (fun st w => waitedGo w st) (s.withHif { s.hif with out := [] })

/-! ## Detach -/

/-- The function of a TLP. -/
def HTlp.fn : HTlp → Nat
  | .write fn _ _ _ _ _ | .read fn _ _ _ _ | .msix fn _ | .ats fn _ _ _ | .pri fn _ _ _ _ | .invalDone fn _ => fn
  | .cpl rid _ => rid
  | .cfg fn _ _ => fn

/-- Does a TLP answer a request of the host? A detach stops none. -/
def HTlp.answers : HTlp → Bool
  | .cpl _ _ | .cfg _ _ _ => true
  | _ => false

/-- What becomes of a write TLP that is not delivered (12 R419, R420). -/
def undelivered (t : HTlp) (s : State) : State :=
  match t with
  | .write _ _ _ _ (.data ring seq region off) _ => cutCmd ring seq region off s
  | .write _ _ _ _ (.staged ring seq region off) _ => cutCmd ring seq region off s
  | .write _ _ _ _ (.record ring seq) _ => s.updCmd ring seq (fun c => { c with phase := .held })
  | _ => s

/-- The function of a host read. -/
def State.rdFn (s : State) : HostRd → Nat
  | .migrate ring _ _ | .prod ring | .desc ring | .flush ring _ | .image ring _ _ | .copy ring _ _ _ | .list ring _ _ _ => s.ringFn ring
  | .frCons ctx => s.ctxFn ctx
  | .line fn _ => fn
  | .pkt p => s.useFn (s.pktUse p)

/-- The outcome of a command whose host address cannot be reached after a detach (12 R420). -/
def hostDetached (region detail : Nat) : Verdict := { status := 0x08, region := region, detail := detail }

/-- A command ends because it cannot reach a host address any more (12 R420). -/
def hostCut (ring seq bus : Nat) (s : State) : State :=
  endWith ring seq (hostDetached 0xE (bus / 64)) (cutCmd ring seq 0xE (bus / 64) s)

/-- What becomes of a host read that a detach stops (12 R420). -/
def readStopped (r : HostRd) (s : State) : State :=
  match r with
  | .pkt p => hostReadPkt p s
  | .migrate ring seq bus | .image ring seq bus | .copy ring seq _ bus => hostCut ring seq bus s
  | .frCons ctx =>
    (look [] s.xlt.frPend ctx).foldl (fun st _ => faultLost ctx st)
      (s.withXlt { s.xlt with frPend := put [] s.xlt.frPend ctx [] })
  | _ => s

/-- Every ATS translation of a function is dropped; accesses that wait for one stall (12 R418, 10 R338). -/
def atsDrop (fn : Nat) (s : State) : State :=
  let mine := fun (c : Nat) => s.ctxFn c == fn
  let s1 := dropTlb (fun e => mine e.ctx && e.dest == .host) s
  let (gone, kept) := s1.xlt.ats.partition (fun a => mine a.ctx)
  let s2 := s1.withXlt { s1.xlt with ats := kept, pri := s1.xlt.pri.filter (fun p => !mine p.1)
                                     atsInval := s1.xlt.atsInval.filter (fun i => i.1 != fn) }
  tagsGo (gone.foldl (fun st a => a.waits.foldl (fun st w => needUnit a.ctx w st) st) s2)

/-- A MIGRATE under way holds translated units of the host (12 R418, R420): one that has all of them would reach the host next and is cut;
another forgets them and asks anew, which stalls. -/
def migrateStopped (fn : Nat) (s : State) : State :=
  s.disp.cmds.foldl (fun st c =>
    if c.kind != 6 || c.phase != .running || st.ringFn c.ring != fn then st
    else if 16 ≤ c.units.length then hostCut c.ring c.seq (((c.units.head?).map AtsUnit.addr).getD 0) st
    else c.units.foldl (fun u x => needUnit (c.fld 16 2 % 1024) ⟨.cmd c.ring c.seq, c.fld 24 8 + 4096 * x.unit, c.fld 18 1 % 2 == 1⟩ u)
      (st.updCmd c.ring c.seq (fun x => { x with units := [] }))) s

/-- Packets of a function's commands that are on their way to the host will not reach it (12 R418, R420): those that wait for a number are
stopped now, and their commands cut; the others are when they arrive. -/
def packetsStopped (fn : Nat) (s : State) : State :=
  let mine := fun (u : Use) => match s.useCmd u with | some (r, _) => s.ringFn r == fn | none => fn == 0
  let s1 := s.withHub { s.hub with outst := s.hub.outst.map (fun o => if o.dst == 57 && mine o.use then { o with old := true } else o) }
  s1.hub.bound.foldl (fun st b =>
    if b.1.dst == 57 && mine b.2 then
      match st.useCmd b.2, st.tlpFor b.2 (busOf b.1.addr) with
      | some (ring, seq), .data _ _ region off => cutCmd ring seq region off st
      | _, _ => st
    else st) s1

/-- What waits for the link at a detach is not delivered (12 R416, R420). -/
def waitedStopped (w : Waiting) (s : State) : State := match w with | .pkt p => hostWrite p s | .tlp t => undelivered t s

/-- Does what waits for the link belong to a function that a detach stops? -/
def State.waitedOf (s : State) (fn : Nat) : Waiting → Bool
  | .pkt p => !s.hostTakes p
  | .tlp t => t.fn == fn && !t.answers

/-- One function detaches (12 R418 to R420, 13 R479). -/
def detachFn (fn : Nat) (s : State) : State :=
  if (s.sessOf fn).state != .attached then s
  else
    let s1 := s.updSess fn (fun x =>
      { x with state := .held, deadline := s.time + s.holdSecs * 100000000, claiming := false, redelBusy := false, redelSent := false })
    let (gone, kept) := s1.hif.tlps.partition (fun t => t.fn == fn && !t.answers)
    let s2 := gone.foldl (fun st t => undelivered t st) (s1.withHif { s1.hif with tlps := kept })
    let s3 := atsDrop fn (packetsStopped fn s2)
    let mineRing := fun (r : Nat) => s.ringFn r == fn && !s.ringDev r
    let s4 := s3.withDisp { s3.disp with fetched := s3.disp.fetched.filter (fun c => !mineRing c.ring)
                                         ring := s3.disp.ring.map (fun x =>
                                           if mineRing x.1 then (x.1, { x.2 with fetched := x.2.acc, want := x.2.acc }) else x) }
      |> dropWaits (fun w => match w.by_ with | .list r _ => mineRing r | _ => false)
    let reads := s4.hif.reads.filter (fun r => match r.2 with | some u => s.rdFn u == fn | none => false)
    let s5 := setReads (s4.hif.reads.filter (fun r => !reads.any (fun q => q.1 == r.1)))
      (s4.withHif { s4.hif with cross := s4.hif.cross.filter (fun x => s.ringFn x.ring != fn) })
    let s6 := migrateStopped fn (reads.foldl (fun st r => match r.2 with | some u => readStopped u st | none => st) s5)
    let staged := (s6.hif.staged.filter (fun x => !(x.direct && x.fn == fn))).map (fun x =>
      if x.fn == fn then { x with kept := x.kept || x.left != 0, left := 0 } else x)
    let s7 := s6.withHif { s6.hif with staged := staged }
    let (stop, go) := s7.hif.out.partition (s7.waitedOf fn)
    let s8 := stop.foldl (fun st w => waitedStopped w st) (s7.withHif { s7.hif with out := go })
    s8.withMsix (s8.msix.map (fun v => if v.1 / 4096 = fn then (v.1, { v.2 with gathered := 0 }) else v))

/-- A host detach of some functions (12 R417, R418): it is counted, and an event names the functions detached. A claim
under way ends, since it would write to addresses named before the detach (R425). -/
def detach (fns : List Nat) (s : State) : State :=
  let mask := (fns.map (fun f => if (s.sessOf f).state == .attached then 2 ^ f else 0)).sum
  let stop := fun (f : Nat) (st : State) => if (st.sessOf f).claiming then st.updSess f (fun x => { x with claiming := false }) else st
  let s1 := fns.foldl (fun st f => stop f (detachFn f st)) (s.withHif { s.hif with detaches := satAdd 0xFFFF s.hif.detaches 1 })
  if mask = 0 then s1 else post (ev 0x40 (some 57) mask []) s1

/-! ## The end of a session -/

/-- Are writes of an entry in flight (12 R434)? -/
def State.winDraining (s : State) (n : Nat) : Bool :=
  s.counted.any (fun c => c.place == some n) || s.hif.placeWait.any (fun p => p.win == n)

/-- The function's placement regions end (12 R427): VALID clears, and DRAIN reads 1 while writes of one are in flight (R434). -/
def windowsEnd (fn : Nat) (s : State) : State :=
  let mine := fun (r : Nat × Word) => decide (0x180000 ≤ r.1) && decide (r.1 < 0x1A0000) && r.1 % 32 == 0
    && s.ctxFn (s.regFld (r.1 + 0x10) 39 30) == fn
  let drain := ((s.regs.filter (fun r => mine r && bitOf r.2.toNat 63)).map (fun r => (r.1 - 0x180000) / 32)).filter s.winDraining
  let s1 := s.withRegs (s.regs.filterMap (fun r =>
    if mine r then (let v := r.2 &&& 0x7FFFFFFFFFFFFFFF#64; if v = 0#64 then none else some (r.1, v)) else some r))
  s1.withHif { s1.hif with plapDrain := drain.foldl (fun l n => ins n l) s1.hif.plapDrain }

/-- A session ends (12 R427): every command of the function's contexts stops, the records it holds and its staged copies are discarded, its
placement regions end. A record that is due in device memory is none that the session holds. -/
def endSession (fn : Nat) (s : State) : State :=
  let mine := fun (c : Cmd) => s.ringFn c.ring == fn
  let due := fun (c : Cmd) => s.ringDev c.ring && c.phase == .done
  let held := (s.disp.cmds.filter (fun c => mine c && !due c && (c.phase == .held || c.phase == .done))).length
  let live := s.disp.cmds.filter (fun c => mine c && (c.phase == .running || c.phase == .head || c.phase == .ending))
  let s1 := live.foldl (fun st c =>
    (endWith c.ring c.seq c.out st).updCmd c.ring c.seq (fun x => { x with discard := true })) s
  let s2 := s1.withDisp { s1.disp with cmds := s1.disp.cmds.filter (fun c => !mine c || c.discard || due c) }
  let s3 := s2.withHif { s2.hif with staged := s2.hif.staged.filter (fun x => x.fn != fn) }
  let s4 := windowsEnd fn s3
  post (ev 0x42 (some 57) (fn + at_ (held % 2 ^ 24) 8) [])
    (s4.updSess fn (fun x => { x with state := .none, token := 0#64, redel := [], redelBusy := false, redelSent := false, claiming := false
                                      flrDetached := false }))

end Sys2Proof.Machine
end

