-- ==== Sys2Proof/Machine/Operands.lean ====
section
/-!
DEFINITION. What every instruction of tile code shares: the fields of its word, the registers of its slot, layouts and
their elements in the tile store, tokens, faults, hardware loops, issue into the sequencer or a queue, and completion
(03 R71 to R78, R92, R95; 04 R112 to R126; 05 R141 to R165).
-/
namespace Sys2Proof.Machine

/-! ## The instruction word -/

/-- The major opcode (05 R141). -/
def wOpc (w : BitVec 128) : Nat := fld w 127 120
/-- Does the instruction wait on a token (05 R141)? -/
def wWE (w : BitVec 128) : Bool := fld w 119 119 == 1
/-- The token waited on. -/
def wWT (w : BitVec 128) : Nat := fld w 118 113
/-- Does the instruction set a token? -/
def wSE (w : BitVec 128) : Bool := fld w 112 112 == 1
/-- The token set. -/
def wST (w : BitVec 128) : Nat := fld w 111 106

/-- The operand fields of an opcode, as (high, low) bits; none for a reserved opcode (05 R143, R157, R166, R173;
06 R175, R176, R189, R190, R206, R210 to R213). Bits [101:100] of SIGNAL, RSIGNAL and WAIT and the MR bits of VMASK are of a field that
their group has, and count as used (log 6, DESIGN CHOICE). -/
def opFields : Nat → Option (List (Nat × Nat))
  | 0x00 => some []
  | 0x01 => some [(105, 100), (63, 0)]
  | 0x02 => some [(105, 84)]
  | 0x03 => some [(105, 94), (87, 84), (47, 0)]
  | 0x04 => some [(105, 103), (99, 88), (23, 0)]
  | 0x05 => some [(105, 105), (99, 94), (13, 0)]
  | 0x06 => some [(105, 103), (99, 94), (87, 74), (31, 0)]
  | 0x07 => some [(105, 97), (93, 88), (63, 0)]
  | 0x08 => some [(105, 101), (99, 94), (47, 0)]
  | 0x09 => some [(105, 98)]
  | 0x0A => some [(105, 100)]
  | 0x0B => some [(3, 0)]
  | 0x0C => some [(105, 100)]
  | 0x0D => some [(99, 94), (1, 0)]
  | 0x0E => some [(105, 100), (7, 0)]
  | 0x0F => some [(105, 102)]
  | 0x10 => some [(105, 94)]
  | 0x11 => some []
  | 0x20 => some [(105, 35)]
  | 0x21 => some [(105, 68)]
  | 0x40 => some [(105, 101), (85, 80), (73, 36)]
  | 0x41 => some [(100, 96), (85, 80), (73, 36)]
  | 0x42 => some [(105, 74), (65, 62), (35, 35)]
  | 0x43 => some [(105, 96), (90, 68), (65, 62)]
  | 0x44 => some [(105, 91), (85, 74), (65, 62), (35, 35)]
  | 0x45 => some [(105, 91), (85, 83), (79, 68)]
  | 0x46 => some [(105, 96), (85, 74), (65, 62)]
  | 0x47 => some [(105, 96), (85, 74), (65, 62)]
  | 0x48 => some [(105, 96), (85, 74), (67, 62)]
  | 0x80 => some [(105, 87)]
  | 0x81 => some [(105, 87)]
  | 0x82 => some [(105, 98), (95, 94), (86, 73)]
  | 0x83 => some [(105, 98), (84, 79)]
  | 0x84 => some [(105, 102), (72, 64)]
  | 0x85 => some [(105, 96), (93, 93)]
  | 0x86 => some [(105, 96), (93, 93)]
  | 0xA0 => some [(105, 102), (99, 88), (76, 64), (31, 0)]
  | 0xA1 => some [(105, 102), (99, 88), (76, 64), (31, 0)]
  | 0xA2 => some [(105, 102), (99, 88), (76, 64), (31, 0)]
  | 0xA3 => some [(105, 96)]
  | 0xA4 => some [(105, 96)]
  | _ => none

/-- A mask of bits [hi:lo]. -/
def bitMask (hi lo : Nat) : Nat := (2 ^ (hi + 1 - lo) - 1) <<< lo

/-- Is a reserved operand bit of the word set (00 R9)? -/
def reservedSet (w : BitVec 128) : Bool :=
  match opFields (wOpc w) with
  | none => true
  | some fs =>
    let used := fs.foldl (fun m f => m ||| bitMask f.1 f.2) (bitMask 127 106)
    (w.toNat &&& (bitMask 127 0 - used)) != 0

/-! ## The slot -/

/-- A slot of a tile. -/
def State.slotOf (s : State) (pos slot : Nat) : Option Slot := look none (s.tileOf pos).slots slot
/-- Change a slot. -/
def State.updSlot (s : State) (pos slot : Nat) (f : Slot → Slot) : State :=
  s.updTile pos (fun t => { t with slots := upd none t.slots slot (fun o => o.map f) })

/-- A scalar register; s0 reads 0 (05 R144). -/
def Slot.sreg (x : Slot) (n : Nat) : Word := if n = 0 then 0#64 else look 0#64 x.s n
/-- Write a scalar register; a write of s0 is discarded (05 R144). -/
def Slot.setS (x : Slot) (n : Nat) (v : Word) : Slot := if n = 0 then x else { x with s := put 0#64 x.s n v }
/-- A layout register. -/
def Slot.lreg (x : Slot) (n : Nat) : LayReg := look 0#256 x.l n
/-- Write a layout register. -/
def Slot.setL (x : Slot) (n : Nat) (v : LayReg) : Slot := { x with l := put 0#256 x.l n v }
/-- The bytes of a slot's window (03 R101). -/
def Slot.winBytes (x : Slot) : Nat := x.wlen * 0x400000
/-- The tile-store address of the window. -/
def Slot.winBase (x : Slot) : Nat := x.wbase * 0x400000
/-- FTZ of a TCTL value (05 R151). -/
def ftzOf (t : Word) : Bool := t.getLsbD 0
/-- OVF of a TCTL value (05 R151). -/
def ovfOf (t : Word) : Bool := t.getLsbD 1

/-- The word a slot issues next. -/
def Slot.next (x : Slot) : Option (BitVec 128) := if x.pc < x.count then x.code[x.pc]? else none

/-! ## Faults and flags -/

/-- A slot faults: the whole command stops and completes with TILE_FAULT (05 R155, 06 R205). -/
def tileFault (pos slot code pc : Nat) (s : State) : State :=
  match s.slotOf pos slot with
  | none => s
  | some x => endWith x.ring x.seq { status := 0x03, reason := code, part := x.part, instr := pc } s

/-- Set sticky flags of a slot (04 R138 to R140). -/
def setFlags (pos slot : Nat) (f : Sticky) (s : State) : State :=
  if f = 0#4 then s else s.updSlot pos slot (fun x => { x with tstat := x.tstat ||| f.setWidth 64 })

/-- Add to a token; above 15 it stays 15 and the slot faults (03 R75, 06 R210). -/
def addToken (pos slot tok n pc : Nat) (s : State) : State :=
  match s.slotOf pos slot with
  | none => s
  | some x =>
    let v := look 0 x.tok tok + n
    let s1 := s.updSlot pos slot (fun x => { x with tok := put 0 x.tok tok (min v 15) })
    if 15 < v then tileFault pos slot 0x07 pc s1 else s1

/-- An instruction that is complete sets its token (03 R75, R76). -/
def setDone (pos slot : Nat) (w : BitVec 128) (pc : Nat) (s : State) : State :=
  if wSE w then addToken pos slot (wST w) 1 pc s else s

/-- The entries of a queue (03 R71). -/
def queueSize : Queue → Nat
  | .matrix => 8 | .vector => 16 | .move => 32 | .sync => 16

/-- A queue of a slot. -/
def Slot.queue (x : Slot) : Queue → List QInstr
  | .matrix => x.qm | .vector => x.qv | .move => x.qx | .sync => x.qs
/-- Change a queue. -/
def Slot.setQueue (x : Slot) (q : Queue) (l : List QInstr) : Slot :=
  match q with
  | .matrix => { x with qm := l } | .vector => { x with qv := l } | .move => { x with qx := l } | .sync => { x with qs := l }
/-- The head of a queue: its first instruction that has not started. -/
def Slot.head (x : Slot) (q : Queue) : Option QInstr := (x.queue q).find? (fun i => !i.started)

/-- Does a FENCE with this mask hold issue: a queue it names is not empty (06 R211)? -/
def Slot.fenceHolds (x : Slot) (m : Nat) : Bool :=
  (bitOf m 0 && !x.qm.isEmpty) || (bitOf m 1 && !x.qv.isEmpty) || (bitOf m 2 && !x.qx.isEmpty) || (bitOf m 3 && !x.qs.isEmpty)

/-- The physical arrays that a mask of a slot names, in increasing order (03 R102). -/
def Slot.maskArrays (x : Slot) (mask : Nat) : List Nat :=
  ((List.range x.arrays.length).filter (fun k => bitOf mask k)).filterMap (fun k => x.arrays[k]?)

/-- The arrays that a matrix instruction uses. -/
def QInstr.arrays (q : QInstr) (x : Slot) : List Nat := x.maskArrays (fld q.word 105 98)

/-- The banks that a matrix instruction works on, one bit each: both in FP64, and for an MMA that gives an array more than one
block (03 R82, R89; 05 R173). -/
def QInstr.banks (q : QInstr) : Nat :=
  let fmt := fun i => fld ((q.lregs[i]?).getD 0#256) 179 176
  let blocks := ceilDiv (fld q.word 84 78 + 1) 8 * ceilDiv (fld q.word 77 71 + 1) 8
  let arrays := ((List.range 8).filter (fun k => bitOf (fld q.word 105 98) k)).length
  if wOpc q.word = 0x21 then (if fld q.word 96 95 = 2 then 3 else fld q.word 97 97 + 1)
  else if fmt 0 = 0 ∨ fmt 1 = 0 ∨ arrays < blocks then 3
  else fld q.word 97 97 + 1

/-- Does a started sync instruction hold the head of the queue: an RSIGNAL not sent, a WAIT or a TOKWAIT (06 R207)? -/
def QInstr.holdsHead (q : QInstr) : Bool :=
  q.started && (wOpc q.word == 0xA2 || wOpc q.word == 0xA4 || (wOpc q.word == 0xA1 && q.stage == 0))

/-- Does a matrix instruction that runs hold back one at the head of the queue: on a shared array an MDRAIN holds any, an MMA only an
MDRAIN of a bank that it works on (05 R170, R174)? -/
def QInstr.holdsBack (j i : QInstr) (x : Slot) : Bool :=
  j.started && (j.arrays x).any (fun a => has a (i.arrays x))
    && (wOpc j.word == 0x21 || wOpc i.word == 0x21 && j.banks &&& i.banks != 0)

/-- Does the engine of a queue let its head start (03 R97, R104; 05 R170; 06 R195, R207)? The vector unit runs one instruction of a
slot at a time; a translation fault holds the move queue, where a wait for a host that is detached is none. -/
def State.queueFree (s : State) (pos slot : Nat) (x : Slot) (q : Queue) : Bool :=
  match q with
  | .matrix => match x.head .matrix with
    | none => true
    | some i => !x.qm.any (fun j => j.holdsBack i x)
  | .vector => !x.qv.any QInstr.started
  | .move => !s.xlt.stalls.any (fun t => t.reason != 0 && t.waits.any (fun w => match w.by_ with
      | .move p k _ => p == pos && k == slot
      | _ => false))
  | .sync => !x.qs.any QInstr.holdsHead

/-- The place of a queue in the rotation of 03 R77; the sequencer is 4. -/
def queueTaker : Queue → Nat
  | .matrix => 0 | .vector => 1 | .move => 2 | .sync => 3

/-- The units of a token that a taker wants now (03 R77): the head of a queue that its engine lets start, a TOKWAIT that has
started, the sequencer's next instruction. -/
def State.wants (s : State) (pos slot : Nat) (x : Slot) (tok who : Nat) : Nat :=
  let headWants := fun (q : Queue) => match x.head q with
    | some i => b2n (wWE i.word && wWT i.word == tok && s.queueFree pos slot x q)
    | none => 0
  match who with
  | 0 => headWants .matrix
  | 1 => headWants .vector
  | 2 => headWants .move
  | 3 => match x.qs.find? (fun q => q.started && wOpc q.word == 0xA4 && fld q.word 105 100 == tok) with
    | some q => fld q.word 99 96
    | none => headWants .sync
  | _ => match x.next with
    | some w => b2n (x.phase == .running && decide (wOpc w < 0x20) && wWE w && wWT w == tok
        && !(wOpc w == 0x0F && x.fenceHolds (fld w 105 102)))
    | none => 0

/-- The takers that get their units when the turn goes round once, each that finds enough left (03 R77, 06 R210). -/
def grantRound (want : Nat → Nat) : List Nat → Nat → List Nat
  | [], _ => []
  | w :: r, units => if want w != 0 && decide (want w ≤ units) then w :: grantRound want r (units - want w) else grantRound want r units

/-- May a taker have its units of a token now (03 R75, R77)? -/
def State.mayTake (s : State) (pos slot : Nat) (x : Slot) (who tok : Nat) : Bool :=
  has who (grantRound (s.wants pos slot x tok) ((List.range 5).map (fun i => (x.tokPtr + i) % 5)) (look 0 x.tok tok))

/-- A taker gets n units of a token, and the turn passes on (03 R75, R77). The rule gives the pointer no home: here one pointer of
the slot serves all its tokens, and every take advances it, contested or not (log 7, DESIGN CHOICE). -/
def Slot.take (x : Slot) (who tok n : Nat) : Slot :=
  { x with tok := upd 0 x.tok tok (fun v => v - n), tokPtr := (who + 1) % 5 }

/-! ## Layouts -/

/-- The fields of a layout register (05 R145). -/
structure Lay where
  base : Nat
  rows : Nat
  cols : Nat
  stride : Nat
  fmt : Nat
  sfmt : Nat
  sblk : Nat
  sdir : Nat
  space : Nat
  sbase : Nat
  deriving DecidableEq, Repr

/-- Read a layout register. -/
def Lay.of (l : LayReg) : Lay :=
  ⟨fld l 63 0, fld l 95 64, fld l 127 96, fld l 175 128, fld l 179 176, fld l 183 180, fld l 186 184, fld l 188 187,
    fld l 189 189, fld l 255 192⟩

/-- The element format; FP64 stands in for a code that a check has refused before. -/
def Lay.f (l : Lay) : Fmt := (Fmt.ofCode l.fmt).getD .fp64
/-- The bytes in one row (04 R112 to R115). -/
def Lay.rowLen (l : Lay) : Nat := l.f.rowBytes l.cols
/-- The bytes of the extent (05 R167). -/
def Lay.extent (l : Lay) : Nat := if l.rows = 0 then 0 else (l.rows - 1) * l.stride + l.rowLen
/-- The scale block size (05 R145): 0 stands for none, one scale for all. -/
def Lay.block (l : Lay) : Nat := if l.sblk = 0 then 0 else 2 ^ (l.sblk + 2)
/-- Block sizes along the outer dimension and K (04 R125); with no block size one block holds every element. -/
def Lay.blocks (l : Lay) (o k : Nat) : Nat × Nat :=
  if l.sblk = 0 then (max 1 o, max 1 k)
  else if l.sdir = 0 then (1, l.block) else if l.sdir = 1 then (l.block, 1) else (l.block, l.block)
/-- Rows and columns of the scale matrix for extents O and L (04 R126). -/
def Lay.scaleDims (l : Lay) (o k : Nat) : Nat × Nat :=
  let (bo, bk) := l.blocks o k
  (ceilDiv o bo, ceilDiv k bk)
/-- Are the fields of an enabled scale reserved values (05 R167)? -/
def Lay.scaleReserved (l : Lay) : Bool := l.sblk == 7 || l.sdir == 3
/-- Does a layout's scale break a format rule: a scale format without role S, an E4M3 scale for an operand outside the 8-bit and
4-bit classes, a reserved field (04 R106, R107, 05 R167)? R167 names the reserved fields for an MMA; a converting LOAD or STORE whose LS
has one raises FORMAT too here, of which 06 R193 says nothing (log 21, DESIGN CHOICE). -/
def Lay.scaleBad (l : Lay) : Bool :=
  !(l.sfmt == 0xE || l.sfmt == 0x4) || (l.sfmt == 0x4 && !(l.f.cls == .b8 || l.f.cls == .b4)) || l.scaleReserved

/-- The bytes that hold elements a to a + n − 1 of a row that starts at an address: first address and length. -/
def elemSpan (f : Fmt) (row a n : Nat) : Nat × Nat :=
  if n = 0 then (row, 0)
  else if f.perByte = 1 then (row + a * f.bytes, n * f.bytes)
  else (row + a / f.perByte, (a + n - 1) / f.perByte - a / f.perByte + 1)

/-- Read element k of a row through a byte reader: its code, and INVALID_TRN when a TRN byte is invalid
(04 R112 to R115). -/
def elemCode (rd : Nat → Byte) (f : Fmt) (row k : Nat) : Nat × Sticky :=
  if f = .trn then
    let b := (rd (row + k / 5)).toNat
    if 243 ≤ b then (0, fTrn) else (b / 3 ^ (k % 5) % 3, 0#4)
  else if f.perByte = 2 then
    let b := (rd (row + k / 2)).toNat
    (if k % 2 = 0 then b % 16 else b / 16, 0#4)
  else
    let c := leNat ((List.range f.bytes).map (fun i => rd (row + k * f.bytes + i)))
    (if f.width = 6 then c % 64 else c, 0#4)

/-- Pack trits, five a byte. -/
def packTrits : Nat → List Nat → List Byte
  | 0, _ => []
  | n + 1, l =>
    if l.isEmpty then []
    else BitVec.ofNat 8 ((l.take 5).foldr (fun t acc => t + 3 * acc) 0) :: packTrits n (l.drop 5)

/-- Pack nibbles, two a byte. -/
def packNibbles : List Nat → List Byte
  | [] => []
  | [a] => [BitVec.ofNat 8 (a % 16)]
  | a :: b :: r => BitVec.ofNat 8 (a % 16 + 16 * (b % 16)) :: packNibbles r

/-- The bytes of a row of codes; an unused nibble or trit is 0 (04 R112 to R115). -/
def packRow (f : Fmt) (codes : List Nat) : List Byte :=
  if f = .trn then packTrits codes.length codes
  else if f.perByte = 2 then packNibbles codes
  else codes.flatMap (fun c => leBytes f.bytes c)

/-- The bytes of a row with elements a onward replaced: elements of the row beside them in shared bytes stay, places
beyond the row's end become zero (04 R115). Kept trits of a byte of 243 to 255 become zero, and INVALID_TRN is not set: the spec does not
say whether such a merge decodes the byte (04 R111, R114; log 21, DESIGN CHOICE). -/
def mergeRow (rd : Nat → Byte) (f : Fmt) (row a total : Nat) (codes : List Nat) : Nat × List Byte :=
  if f.perByte = 1 then (row + a * f.bytes, packRow f codes)
  else
    let pb := f.perByte
    let lo := a / pb * pb
    let hi := ceilDiv (a + codes.length) pb * pb
    let all := (List.range (hi - lo)).map (fun i =>
      let e := lo + i
      if a ≤ e ∧ e < a + codes.length then (codes[e - a]?).getD 0
      else if total ≤ e then 0 else (elemCode rd f row e).1)
    (row + lo / pb, packRow f all)

/-! ## The tile store -/

/-- Does an extent lie in the slot's window (03 R102)? An empty extent does. -/
def Slot.inWin (x : Slot) (a len : Nat) : Bool := len == 0 || decide (a + len ≤ x.winBytes)

/-- A reader of tile-store bytes by address relative to a window. -/
def State.tileByte (s : State) (pos base : Nat) (a : Nat) : Byte := (s.tileOf pos).store.rd (base + a)

/-- Poisoned data enters a part of a command from its tile store (16 R556, 13 R477). -/
def taintTile (pos slot rel : Nat) (s : State) : State :=
  match s.slotOf pos slot with
  | none => s
  | some x => taintCmd x.ring x.seq
      { status := 0x05, port := some pos, part := x.part, region := 0xE, detail := 2 ^ 63 + rel / 64 * 64 } s

/-- Verify the sectors of relative ranges of the tile store as they are read (03 R95, 16 R553): a check word that
fails poisons its sector with an event; poisoned sectors taint the command. `point`: the reader. -/
def verifyTile (pos slot point base : Nat) (ranges : List (Nat × Nat)) (s : State) : State :=
  let secs := (ranges.flatMap (fun r => sectorsOf (base + r.1) r.2)).eraseDups
  secs.foldl (fun st n =>
    let r := (st.tileOf pos).store
    let st1 := if r.ckBad n && !r.isPoison n then
        evCheckword point true pos (64 * n) (st.updTile pos (fun t => { t with store := (t.store.setPoison n true).fixCk n }))
      else st
    if (st1.tileOf pos).store.isPoison n then taintTile pos slot (64 * n - base) st1 else st1) s

/-- Is a sector of relative ranges poisoned? -/
def State.tilePoison (s : State) (pos base : Nat) (ranges : List (Nat × Nat)) : Bool :=
  ranges.any (fun r => (s.tileOf pos).store.anyPoison (base + r.1) r.2)

/-- Store bytes in the tile store: new check words (03 R95); a sector written whole loses its poison; poisoned data
poisons every sector it touches (16 R554, R555). -/
def storeTile (pos base : Nat) (a : Nat) (bs : List Byte) (poison : Bool) (s : State) : State :=
  if bs.isEmpty then s
  else
    s.updTile pos (fun t =>
      let lo := base + a
      let hi := lo + bs.length
      let r1 := t.store.merge lo bs
      let r2 := (sectorsOf lo bs.length).foldl (fun r n =>
        if decide (lo ≤ 64 * n) && decide (64 * n + 64 ≤ hi) then (r.setPoison n false).fixCk n else r) r1
      { t with store := if poison then r2.poisonRange lo bs.length else r2 })

/-! ## Loops and the program counter -/

/-- Loops that end at an index, from the innermost: one with more than one iteration left jumps back (05 R164). -/
def loopEnd (pc : Nat) : List Nat → Slot → Slot
  | [], x => { x with pc := pc + 1 }
  | c :: r, x =>
    let l := look {} x.loops c
    if l.last = pc then
      if 1 < l.left then { x with loops := put {} x.loops c { l with left := l.left - 1 }, pc := l.first }
      else loopEnd pc r { x with loops := put {} x.loops c {}, nest := del c x.nest }
    else loopEnd pc r x

/-- A taken branch leaves loops whose bodies do not hold the target, with every loop inside them (05 R165). -/
def leaveLoops (target : Nat) : List Nat → Slot → Slot
  | [], x => x
  | c :: r, x =>
    let l := look {} x.loops c
    if l.first ≤ target ∧ target ≤ l.last then x
    else leaveLoops target r { x with loops := put {} x.loops c {}, nest := del c x.nest }

/-- The index after an instruction that is no taken branch. -/
def Slot.step (x : Slot) : Slot := loopEnd x.pc x.nest x

/-- The next fetch of a slot: an index of COUNT or more raises PC_RANGE, whose record names the index fetched, cut to its 14 bits
(05 R150; log 21, DESIGN CHOICE: the rules name the faulting instruction, and here none was fetched). -/
def fetchNext (pos slot : Nat) (s : State) : State :=
  match s.slotOf pos slot with
  | none => s
  | some x => if x.phase = .running ∧ x.count ≤ x.pc then tileFault pos slot 0x08 x.pc s else s

/-! ## Turns of the slots -/

/-- The queue of a major opcode that has one (03 R74). -/
def queueFor (opc : Nat) : Option Queue :=
  if opc < 0x20 then none
  else if opc < 0x40 then some .matrix
  else if opc < 0x80 then some .vector
  else if opc < 0xA0 then some .move
  else if opc < 0xB0 then some .sync
  else none

/-- Can a slot issue in this cycle (03 R73): its next instruction is fetched, the token units it waits on are there, its target queue has a
free entry, and no FENCE holds it (06 R211)? -/
def State.slotReady (s : State) (pos slot : Nat) : Bool :=
  match s.slotOf pos slot with
  | none => false
  | some x => x.phase == .running && (match x.next with
    | none => false
    | some w => match queueFor (wOpc w) with
      | some q => decide (((x.queue q).filter (fun i => !i.started)).length < queueSize q)
      | none => !(wOpc w == 0x0F && x.fenceHolds (fld w 105 102)) && (!wWE w || s.mayTake pos slot x 4 (wWT w)))

/-- Is it a slot's turn at a unit of its tile, among slots (03 R73, R97, R104)? -/
def State.turnOf (s : State) (pos unit slot : Nat) (among : Nat → Bool) : Bool :=
  rotPick 4 (look 0 (s.tileOf pos).ptrs unit) ((List.range 4).filter among) == some slot
/-- Is it a slot's turn to issue (03 R73)? -/
def State.issueTurn (s : State) (pos slot : Nat) : Bool := s.turnOf pos 0 slot (s.slotReady pos)
/-- A slot has had its turn at a unit of its tile: the pointer stands behind it. -/
def State.turned (s : State) (pos unit slot : Nat) : State :=
  s.updTile pos (fun t => { t with ptrs := put 0 t.ptrs unit ((slot + 1) % 4) })

/-- The unit that takes an instruction from the queues of all slots by turns (03 R97, R104): 1 the vector unit, 2 the special-function
unit, 3 the mover. -/
def turnUnit (q : Queue) (w : BitVec 128) : Option Nat :=
  match q with
  | .vector => some (if wOpc w = 0x47 then 2 else 1)
  | .move => some 3
  | .matrix | .sync => none

/-- May the head of a slot's queue start: its engine lets it, and its token unit is there (03 R75, R77)? -/
def State.headMay (s : State) (pos slot : Nat) (x : Slot) (q : Queue) (i : QInstr) : Bool :=
  s.siteLive pos && s.queueFree pos slot x q && (!wWE i.word || s.mayTake pos slot x (queueTaker q) (wWT i.word))

/-- Is it the turn of a slot's queue at the unit that takes its head (03 R97, R104)? -/
def State.startTurn (s : State) (pos slot : Nat) (q : Queue) (i : QInstr) : Bool :=
  match turnUnit q i.word with
  | none => true
  | some u => s.turnOf pos u slot (fun k => match s.slotOf pos k with
    | none => false
    | some y => match y.head q with
      | none => false
      | some j => turnUnit q j.word == some u && s.headMay pos k y q j)

/-- The head of a slot's queue has started: its unit's pointer stands behind the slot. -/
def State.startTurned (s : State) (pos slot : Nat) (q : Queue) (i : QInstr) : State :=
  match turnUnit q i.word with
  | none => s
  | some u => s.turned pos u slot

/-! ## Issue -/

/-- The instruction at a slot's program counter, when the slot runs, its site does (02 R66), it has the opcode, and it is the slot's turn (03 R73). -/
def State.canIssue (s : State) (pos slot opc : Nat) : Option (Slot × BitVec 128) :=
  match s.slotOf pos slot with
  | none => none
  | some x =>
    if x.phase != .running || !s.siteLive pos || !s.issueTurn pos slot then none
    else match x.next with
      | some w => if wOpc w = opc then some (x, w) else none
      | none => none

/-- What a control or scalar instruction does: a fault, or the slot's registers and where a taken branch goes. -/
inductive SeqRes where
  | fault (code : Nat) | hold | next (x : Slot) | jump (x : Slot) (target : Int) | skip (x : Slot) (pc : Nat)

/-- A control or scalar instruction executes at issue (03 R74, 05 R157 to R165): its wait-token, its effect, its
set-token, the next index. -/
def seqIssue (pos slot opc : Nat) (f : Slot → BitVec 128 → SeqRes) (s : State) : Res :=
  match s.canIssue pos slot opc with
  | none => .next s
  | some (x, w) =>
    if reservedSet w then .fault .reservedNonzero
    else if wWE w && !s.mayTake pos slot x 4 (wWT w) then .next s
    else
      let x1 := if wWE w then x.take 4 (wWT w) 1 else x
      let s1 := s.turned pos 0 slot
      .next (match f x1 w with
        | .fault c => tileFault pos slot c x.pc s1
        | .hold => s
        | .next y => fetchNext pos slot (setDone pos slot w x.pc (s1.updSlot pos slot (fun _ => y.step)))
        | .skip y pc => fetchNext pos slot (setDone pos slot w x.pc (s1.updSlot pos slot (fun _ => { y with pc := pc })))
        | .jump y t =>
          if t < 0 ∨ (x.count : Int) ≤ t then tileFault pos slot 0x08 x.pc s1
          else
            let z := leaveLoops t.toNat y.nest y
            fetchNext pos slot (setDone pos slot w x.pc (s1.updSlot pos slot (fun _ => { z with pc := t.toNat }))))

/-- An instruction's checks at issue, in order: the first that fails is the fault (05 R167, R174; 06 R192, R645). -/
def firstFault (l : List (Bool × Nat)) : Option Nat := (l.find? Prod.fst).map Prod.snd

/-- An instruction enters its queue with the values it captures (03 R73, R74; 05 R146; 06 R188): `chk` gives the fault
of its checks, `cap` the scalar and layout registers it names, `conv` whether it is a converting instruction. An instruction that
has started gives its entry back, one that holds the head included (log 21, DESIGN CHOICE: the spec does not say when). -/
def queueIssue (pos slot opc : Nat) (q : Queue) (chk : Slot → BitVec 128 → Option Nat)
    (cap : Slot → BitVec 128 → List Word × List LayReg) (conv : BitVec 128 → Bool) (s : State) : Res :=
  match s.canIssue pos slot opc with
  | none => .next s
  | some (x, w) =>
    if reservedSet w then .fault .reservedNonzero
    else if queueSize q ≤ ((x.queue q).filter (fun i => !i.started)).length then .next s
    else
      let s1 := s.turned pos 0 slot
      .next (match chk x w with
        | some c => tileFault pos slot c x.pc s1
        | none =>
          let (sr, lr) := cap x w
          let ord := if conv w then x.ord + 1 else x.ord
          let qi : QInstr := { id := x.nextId, word := w, pc := x.pc, sregs := sr, lregs := lr, tctl := x.tctl, ord := ord }
          let y := (x.setQueue q (x.queue q ++ [qi])).step
          fetchNext pos slot (s1.updSlot pos slot (fun _ => { y with ord := ord, nextId := x.nextId + 1 })))

/-- A queued instruction of a slot. -/
def Slot.find (x : Slot) (q : Queue) (id : Nat) : Option QInstr := (x.queue q).find? (fun i => i.id == id)
/-- Change a queued instruction. -/
def updQ (pos slot : Nat) (q : Queue) (id : Nat) (f : QInstr → QInstr) (s : State) : State :=
  s.updSlot pos slot (fun x => x.setQueue q ((x.queue q).map (fun i => if i.id == id then f i else i)))

/-- An instruction is complete: its flags are set, it leaves its queue, it sets its token (03 R76, 04 R139). -/
def complete (pos slot : Nat) (q : Queue) (i : QInstr) (fl : Sticky) (s : State) : State :=
  let s1 := (setFlags pos slot fl s).updSlot pos slot (fun x => x.setQueue q ((x.queue q).filter (fun j => j.id != i.id)))
  setDone pos slot i.word i.pc s1

end Sys2Proof.Machine
end

