-- ==== Sys2Proof/Machine/Mover.lean ====
section
/-!
DEFINITION. The tile mover: the checks of the move instructions, the packets they send, and what they write when their
answers have come (06 R189 to R205; 08 R271 to R273; 16 R552 to R554).
-/
namespace Sys2Proof.Machine

/-! ## Operands and checks -/

/-- The operands of a move instruction (06 R189). -/
structure MoveOp where
  ls : Lay
  lt : Lay
  tr : Bool
  csc : Bool
  rnd : Nat
  dse : Option Nat
  mode : Nat
  ri : Nat
  ro : Nat
  nm1 : Nat
  step : Nat
  deriving DecidableEq, Repr

/-- Read the operands from the word and the captured values. -/
def MoveOp.of (w : BitVec 128) (sr : List Word) (lr : List LayReg) : MoveOp :=
  let sv := fun i => ((sr[i]?).getD 0#64).toNat
  { ls := Lay.of ((lr[0]?).getD 0#256), lt := Lay.of ((lr[1]?).getD 0#256), tr := fld w 97 97 == 1, csc := fld w 96 96 == 1
    rnd := fld w 95 94, dse := if fld w 93 93 = 1 then some (sv 0 % 256) else none, mode := fld w 86 85
    ri := sv 1, ro := sv 2, nm1 := fld w 72 70, step := sv 3 }

/-- The values a move instruction captures (05 R146). -/
def moveCap (x : Slot) (w : BitVec 128) : List Word × List LayReg :=
  ([x.sreg (fld w 92 87), x.sreg (fld w 84 79), x.sreg (fld w 78 73), x.sreg (fld w 69 64)],
    [x.lreg (fld w 105 102), x.lreg (fld w 101 98)])

/-- The operands of a queued move. -/
def QInstr.move (q : QInstr) : MoveOp := MoveOp.of q.word q.sregs q.lregs

/-- Rows and columns of the source that a copy takes (06 R191). -/
def MoveOp.srcDims (p : MoveOp) : Nat × Nat := if p.tr then (p.lt.cols, p.lt.rows) else (p.lt.rows, p.lt.cols)
/-- Bytes of the scale matrix that CSC copies (06 R193). -/
def MoveOp.scaleBytes (p : MoveOp) : Nat :=
  let (r, c) := p.ls.scaleDims p.ls.rows p.ls.cols
  r * c

/-- The formats that convert exactly to FP32 (04 R131, 06 R197). -/
def exact32 (c : Nat) : Bool := roleDCode c && c != 0 && c != 9

/-- The format rules of the move instructions (06 R191, R193, R196 to R198; 04 R107, R130). PUT, GET, GATHER in MODE 0 and XPREF
copy or only address, which is none of the roles of 04 R106: they may name every format but the reserved code, UE8M0 among them
(log 21, DESIGN CHOICE). -/
def moveBadFormat (opc : Nat) (p : MoveOp) : Bool :=
  let csc := p.ls.fmt != p.lt.fmt || p.ls.sfmt != p.lt.sfmt || p.ls.sblk != p.lt.sblk || p.ls.sdir != p.lt.sdir
    || p.dse.isSome || p.ls.scaleBad || (p.tr && p.ls.sdir != 2)
  match opc with
  | 0x80 | 0x81 => !roleDCode p.ls.fmt || !roleDCode p.lt.fmt || p.rnd == 3 || (p.csc && csc)
  | 0x82 =>
    if p.mode = 0 then p.ls.fmt == 0xF || p.ls.fmt != p.lt.fmt
    else !exact32 p.ls.fmt || !roleDCode p.lt.fmt || p.rnd == 3
  | 0x83 => p.ls.fmt != p.lt.fmt || !(p.ls.fmt == 1 || p.ls.fmt == 9 || p.ls.fmt == 2 || p.ls.fmt == 3)
  | 0x84 => p.ls.fmt == 0xF
  | _ => p.ls.fmt == 0xF || p.ls.fmt != p.lt.fmt || p.tr || p.csc || p.dse.isSome

/-- SCATTERADD on a 16-bit format needs a declared feature (06 R198). -/
def scatBadFeature (opc feat : Nat) (p : MoveOp) : Bool := opc == 0x83 && (p.ls.fmt == 2 || p.ls.fmt == 3) && !bitOf feat 3

/-- A layout in the wrong space, or misaligned, or with rows that overlap (06 R192 step 3). -/
def spaceBad (dva : Bool) (l : Lay) : Bool :=
  let unit := if dva then l.f.bytes else 64
  l.space != b2n dva || l.base % unit != 0 || l.stride % unit != 0 || decide (l.stride < l.rowLen)

/-- Are LS and LT in device virtual space (06 R190)? -/
def moveSpaces (opc : Nat) : Bool × Bool :=
  if opc = 0x81 ∨ opc = 0x83 ∨ opc = 0x85 then (false, true) else (true, false)

/-- The layout rules (06 R192 step 3). SBASE is looked at where CSC uses it: the rule does not say whether one that the move does not use is
checked (log 21, DESIGN CHOICE). -/
def moveBadLayout (opc : Nat) (p : MoveOp) : Bool :=
  let (ds, dt) := moveSpaces opc
  if opc = 0x84 then spaceBad true p.ls
  else
    let ts := if ds then p.lt else p.ls
    spaceBad ds p.ls || spaceBad dt p.lt || ((opc == 0x80 || opc == 0x81) && p.csc && ts.sbase % 64 != 0)
      || ((opc == 0x82 || opc == 0x83) && p.ri % 64 != 0) || (opc == 0x82 && p.mode == 1 && p.ro % 64 != 0)

/-- The shape rules (06 R191, R196, R198). -/
def moveBadShape (opc : Nat) (p : MoveOp) : Bool :=
  match opc with
  | 0x82 => decide (p.ls.cols < p.lt.cols)
  | 0x83 => decide (p.lt.cols < p.ls.cols)
  | 0x84 => false
  | _ => decide (p.ls.rows < p.srcDims.1) || decide (p.ls.cols < p.srcDims.2)

/-- Tile-store extents outside the window (06 R192 step 5). -/
def moveBadWindow (x : Slot) (opc : Nat) (p : MoveOp) : Bool :=
  let (ds, _) := moveSpaces opc
  if opc = 0x84 then false
  else
    let ts := if ds then p.lt else p.ls
    !x.inWin ts.base ts.extent
      || ((opc == 0x80 || opc == 0x81) && p.csc && !x.inWin ts.sbase p.scaleBytes)
      || (opc == 0x82 && p.mode == 0 && !x.inWin p.ri (4 * p.lt.rows))
      || (opc == 0x82 && p.mode == 1 && !x.inWin p.ro (4 * (p.lt.rows + 1)))
      || (opc == 0x83 && !x.inWin p.ri (4 * p.ls.rows))

/-- Does every byte from lo to hi lie in one of the regions (06 R203)? -/
def coveredBy : Nat → List Region → Nat → Nat → Bool
  | 0, _, lo, hi => decide (hi ≤ lo)
  | n + 1, rs, lo, hi =>
    if hi ≤ lo then true
    else match rs.find? (fun r => decide (r.dva ≤ lo) && decide (lo < r.dva + r.size)) with
      | some r => coveredBy n rs (r.dva + r.size) hi
      | none => false

/-- The regions a command declared. -/
def State.regionsOf (s : State) (x : Slot) : List Region :=
  match s.cmdOf x.ring x.seq with | some c => c.regionsOf | none => []

/-- The whole extent of a STORE or PUT, the bytes between its rows included, leaves the declared regions (06 R192 step 6, R203). -/
def badRegion (s : State) (x : Slot) (opc : Nat) (p : MoveOp) : Bool :=
  let rs := s.regionsOf x
  let out := fun (a n : Nat) => !coveredBy (rs.length + 1) rs a (a + n)
  (opc == 0x81 || opc == 0x85) && (out p.lt.base p.lt.extent || (opc == 0x81 && p.csc && out p.lt.sbase p.scaleBytes))

/-- The checks of a move instruction at issue, in their order (06 R192). The list does not name SCATTERADD's FEATURE check (R198): it
stands after FORMAT and before LAYOUT here (log 21, DESIGN CHOICE). -/
def moveCheck (s : State) (x : Slot) (w : BitVec 128) : Option Nat :=
  let opc := wOpc w
  let (sr, lr) := moveCap x w
  let p := MoveOp.of w sr lr
  firstFault [
    ((opc == 0x82 && decide (1 < p.mode)) || (opc == 0x84 && decide (3 < p.nm1) && !bitOf x.feat 2), 0x01),
    (moveBadFormat opc p, 0x02), (scatBadFeature opc x.feat p, 0x0A), (moveBadLayout opc p, 0x06),
    (moveBadShape opc p, 0x14), (moveBadWindow x opc p, 0x05), (badRegion s x opc p, 0x13)]

/-- A move instruction is checked and queued at issue. -/
def moveIssue (pos slot opc : Nat) (s : State) : Res :=
  queueIssue pos slot opc .move (moveCheck s) moveCap
    (fun w => opc == 0x80 || opc == 0x81 || (opc == 0x82 && fld w 86 85 == 1)) s

/-- LOAD (06 R191, R192). -/
def execLoad (pos slot : Nat) (s : State) : Res := moveIssue pos slot 0x80 s
/-- STORE (06 R191, R192, R203). -/
def execStore (pos slot : Nat) (s : State) : Res := moveIssue pos slot 0x81 s
/-- GATHER (06 R192, R196). -/
def execGather (pos slot : Nat) (s : State) : Res := moveIssue pos slot 0x82 s
/-- SCATTERADD (06 R192, R198). -/
def execScatteradd (pos slot : Nat) (s : State) : Res := moveIssue pos slot 0x83 s
/-- XPREF (06 R192, R200). -/
def execXpref (pos slot : Nat) (s : State) : Res := moveIssue pos slot 0x84 s
/-- PUT (06 R191, R192, R202, R203). -/
def execPut (pos slot : Nat) (s : State) : Res := moveIssue pos slot 0x85 s
/-- GET (06 R191, R192, R202). -/
def execGet (pos slot : Nat) (s : State) : Res := moveIssue pos slot 0x86 s

/-! ## Pieces -/

/-- The reads of a range: whole sectors, up to 256 B each (02 R39). -/
def readPieces (a len : Nat) : List Piece :=
  if len = 0 then []
  else
    let lo := a / 64 * 64
    let hi := ceilDiv (a + len) 64 * 64
    (cutRange 256 ((hi - lo) / 64 + 1) lo (hi - lo)).map (fun c => ⟨c.1, c.2, c.1, [], [], 0, false⟩)

/-- One sector or part of one, to be written: its DVA, its bytes, its check word when carried, its poison. -/
structure Sect where
  a : Nat
  bytes : List Byte
  ck : Option (BitVec 32)
  poison : Bool

/-- The write of a part of a sector (02 R40, 06 R194). -/
def maskedPiece (c : Sect) : Piece :=
  let off := c.a % 64
  let data := List.replicate off 0#8 ++ c.bytes ++ List.replicate (64 - off - c.bytes.length) 0#8
  ⟨c.a / 64 * 64, 64, c.a, data, [crc32c data], bitMask (off + c.bytes.length - 1) off, c.poison⟩

/-- The writes of a row's sectors: whole ones join packets of up to 256 B, parts are masked (02 R39, R40). -/
def writePieces : List Sect → List Piece
  | [] => []
  | c :: r =>
    let rest := writePieces r
    if c.bytes.length < 64 then maskedPiece c :: rest
    else
      let ck := c.ck.getD (crc32c c.bytes)
      match rest with
      | p :: t =>
        if p.mask = 0 ∧ p.dva = c.a + 64 ∧ p.dva % 256 != 0 ∧ p.poison = c.poison then
          ⟨c.a, p.len + 64, c.a, c.bytes ++ p.data, ck :: p.checks, 0, c.poison⟩ :: t
        else ⟨c.a, 64, c.a, c.bytes, [ck], 0, c.poison⟩ :: rest
      | [] => [⟨c.a, 64, c.a, c.bytes, [ck], 0, c.poison⟩]

/-- Cut a row of bytes at sector boundaries; `pz` gives the poison of a byte of the row. -/
def rowSects (a : Nat) (bytes : List Byte) (pz : Nat → Bool) : List Sect :=
  (cutRange 64 (bytes.length / 64 + 2) a bytes.length).map (fun c =>
    let o := c.1 - a
    ⟨c.1, (bytes.drop o).take c.2, none, (List.range c.2).any (fun i => pz (o + i))⟩)

/-! ## Copying and converting -/

/-- A source of rows: bytes and their poison by address. -/
structure Feed where
  rd : Nat → Byte
  pz : Nat → Bool

/-- Does the move copy its elements as they are: PUT and GET, which never convert (04 R111, 06 R190), and a LOAD or STORE of equal
formats with no transpose, no exponent and nothing to flush (04 R131)? -/
def QInstr.plain (q : QInstr) : Bool :=
  let p := q.move
  wOpc q.word == 0x85 || wOpc q.word == 0x86
    || (p.ls.fmt == p.lt.fmt && !p.tr && p.dse.isNone && !(ftzOf q.tctl && p.ls.f.flushes))

/-- A row copied as it is: whole bytes bit for bit, but for bits 7 and 6 of the 6-bit formats, which are written as 0; of a byte
that the row only partly uses, the elements used, the rest filled with zero (04 R111, R113 to R115). -/
def plainRow (rd : Nat → Byte) (f : Fmt) (row cols : Nat) : List Byte × Sticky :=
  let whole := cols / f.perByte * f.bytes
  let rest := (List.range (cols % f.perByte)).map (fun i => elemCode rd f row (cols / f.perByte * f.perByte + i))
  let keep : Byte := if f.width = 6 then 0x3F#8 else 0xFF#8
  ((List.range whole).map (fun i => rd (row + i) &&& keep) ++ packRow f (rest.map Prod.fst), rest.foldl (fun a c => a ||| c.2) 0#4)

/-- One row of the destination of a copy: its bytes, the poison of each byte, flags, of which a copy between equal formats sets at
most FLUSHED (06 R191, 04 R130 to R137, 16 R554). -/
def copyRow (p : MoveOp) (x : Slot) (q : QInstr) (src : Feed) (r : Nat) : List Byte × (Nat → Bool) × Sticky :=
  let fs := p.ls.f
  let ft := p.lt.f
  let srow := fun (i : Nat) => p.ls.base + i * p.ls.stride
  let elemOf := fun (c : Nat) => if p.tr then (srow c, r) else (srow r, c)
  let epz := fun (c : Nat) =>
    let (row, k) := elemOf c
    let sp := elemSpan fs row k 1
    src.pz sp.1 || src.pz (sp.1 + sp.2 - 1)
  let pz := fun (b : Nat) =>
    if ft.perByte = 1 then epz (b / ft.bytes)
    else (List.range ft.perByte).any (fun i => decide (b * ft.perByte + i < p.lt.cols) && epz (b * ft.perByte + i))
  if q.plain then
    ((plainRow src.rd fs (srow r) p.lt.cols).1, pz, 0#4)
  else
    let cs := (List.range p.lt.cols).map (fun c =>
      let (row, k) := elemOf c
      let (code, f1) := elemCode src.rd fs row k
      let (v, f2) := convert fs ft p.dse (rndOf p.rnd x.seed x.part q.ord (r * p.lt.cols + c)) (ovfOf q.tctl)
        (ftzOf q.tctl) code
      (v, (if fs == ft && p.dse.isNone then 0#4 else f1) ||| f2))
    (packRow ft (cs.map Prod.fst), pz, cs.foldl (fun f c => f ||| c.2) 0#4)

/-- Does a copy carry its sectors unchanged, check words included (16 R552)? -/
def QInstr.carries (q : QInstr) : Bool :=
  let p := q.move
  q.plain && p.lt.f.width != 6 && p.lt.rowLen % 64 == 0 && p.ls.base % 64 == 0 && p.ls.stride % 64 == 0 && p.lt.base % 64 == 0
    && p.lt.stride % 64 == 0 && p.lt.cols % p.lt.f.perByte == 0

/-- The bytes of the copied scale matrix and their poison (06 R193). -/
def copyScales (p : MoveOp) (src : Feed) : List Byte × (Nat → Bool) :=
  let (r, c) := p.ls.scaleDims p.ls.rows p.ls.cols
  let at0 := fun (b : Nat) => if p.tr then p.ls.sbase + b % r * c + b / r else p.ls.sbase + b
  ((List.range (r * c)).map (fun b => src.rd (at0 b)), fun b => src.pz (at0 b))

/-! ## Data received -/

/-- The byte received for a DVA. -/
def QInstr.gotByte (q : QInstr) (a : Nat) : Byte :=
  match q.got.find? (fun c => decide (c.1 ≤ a) && decide (a < c.1 + c.2.length)) with
  | some c => (c.2[a - c.1]?).getD 0#8
  | none => 0#8
/-- The data received by a LOAD or GET as a source. -/
def QInstr.src (q : QInstr) : Feed := ⟨q.gotByte, fun a => has (a / 64) q.pois⟩

/-- The tile store of a slot as a source. -/
def State.tileSrc (s : State) (pos : Nat) (x : Slot) : Feed :=
  ⟨s.tileByte pos x.winBase, fun a => (s.tileOf pos).store.isPoison (sectorOf (x.winBase + a))⟩

/-- What the packets of a GATHER brought, by place in the buffer: first place, bytes, poison of each (08 R272). -/
def QInstr.gathered (q : QInstr) : List (Nat × List Byte × List Bool) :=
  q.sent.flatMap (fun e =>
    let stream := (q.got.filter (fun c => c.1 == e.1)).flatMap Prod.snd
    (e.2.2.foldl (fun (acc : Nat × List (Nat × List Byte × List Bool)) g =>
      let bs := (stream.drop acc.1).take g.2
      let pz := (List.range g.2).map (fun i => has (e.1 * 64 + (acc.1 + i) / 256) q.pois)
      (acc.1 + g.2, acc.2 ++ [(g.1, bs, pz)])) (e.2.1, [])).2)

/-- The buffer of a GATHER as a source. -/
def QInstr.gatherSrc (q : QInstr) : Feed :=
  let g := q.gathered
  let find := fun (a : Nat) => g.find? (fun c => decide (c.1 ≤ a) && decide (a < c.1 + c.2.1.length))
  ⟨fun a => match find a with | some c => (c.2.1[a - c.1]?).getD 0#8 | none => 0#8,
    fun a => match find a with | some c => (c.2.2[a - c.1]?).getD false | none => false⟩

/-! ## Sending -/

/-- The device address of a hit: bus addresses lie in the host bus window (12 R411). -/
def Hit.addr : Hit → Nat
  | .dev a => a
  | .bus b => 0x400000000000 + b

/-- Does a hit suit the instruction: PUT and GET need a Ranoa window, the others anything else (06 R195)? -/
def State.peerOk (s : State) (opc : Nat) (h : Hit) : Bool :=
  let ranoa := match s.zone h.addr with | .ranoa _ => true | _ => false
  (opc == 0x85 || opc == 0x86) == ranoa

/-- A queued move has sent a packet that draws n answers. -/
def sentOne (pos slot id n : Nat) (p : Piece) (s : State) : State :=
  updQ pos slot .move id (fun q => { q with pieces := dropFirst (fun y => y == p) q.pieces, waitAns := q.waitAns + n }) s

/-- The command of a slot has sent a PUT packet (16 R567 row 6). -/
def notePut (x : Slot) (s : State) : State := s.updCmd x.ring x.seq (fun c => { c with sentPut := true })

/-- A packet of a move goes out as a translated request when its page is the host's (12 R413). -/
def noteUnit (pos slot id off : Nat) (h : Hit) (s : State) : State :=
  match h with
  | .bus _ => updQ pos slot .move id (fun q => { q with units := ins off q.units }) s
  | .dev _ => s

/-- Send one piece to its address (02 R39, R40; 08 R271). -/
def sendPiece (pos slot id opc : Nat) (x : Slot) (p : Piece) (h : Hit) (s : State) : State :=
  let addr := h.addr
  let s1 := noteUnit pos slot id p.off h (sentOne pos slot id 1 p s)
  let use := Use.move pos slot id p.off
  if opc = 0x80 ∨ opc = 0x86 then requestAt .read pos addr false [] p.len use s1
  else
    let s2 := if opc = 0x85 then notePut x s1 else s1
    if opc = 0x83 then requestAt .engine pos addr p.poison p.data 0 use s2
    else if p.mask = 0 then
      match s2.targetOf addr with
      | some dst => request ⟨.write, pos, dst, 0, addr, p.poison, p.data, p.checks, 0⟩ use s2
      | none => requestAt .write pos addr p.poison p.data 0 use s2
    else
      let pay := p.data ++ leBytes 8 p.mask ++ List.replicate 8 0#8
      match s2.targetOf addr with
      | some dst => request ⟨.writeMasked, pos, dst, 0, addr, p.poison, pay, p.checks, 0⟩ use s2
      | none => requestAt .writeMasked pos addr p.poison pay 0 use s2

/-- The move of a slot that is in progress. -/
def State.moveOf (s : State) (pos slot id : Nat) : Option (Slot × QInstr) :=
  match s.slotOf pos slot with
  | none => none
  | some x => match x.find .move id with | some q => if q.started then some (x, q) else none | none => none

/-- A fault at execution: the move stops at once, with what it has sent, and its slot faults (06 R205). -/
def moveFault (pos slot id code pc : Nat) (s : State) : State :=
  tileFault pos slot code pc (updQ pos slot .move id (fun q => { q with pieces := [] }) s)

/-- Translate a piece and send it (06 R195): a DVA that leads to the wrong kind of place raises PEER_WINDOW. -/
def tryPiece (pos slot id : Nat) (s : State) (p : Piece) : State :=
  match s.moveOf pos slot id with
  | none => s
  | some (x, q) =>
    if q.pieces.isEmpty then s else
    let opc := wOpc q.word
    let w : XltWait := ⟨if opc = 0x84 then .xpref pos slot id else .move pos slot id, p.dva, moveWrites opc⟩
    let (h, s1) := xltAccess (.tile pos) false x.ctx w s
    match h with
    | none => s1
    | some h =>
      if opc = 0x84 then updQ pos slot .move id (fun q => { q with pieces := dropFirst (fun y => y == p) q.pieces }) s1
      else if !s1.peerOk opc h then moveFault pos slot id 0x15 q.pc s1
      else sendPiece pos slot id opc x p h s1

/-- A translated row piece of a GATHER: its piece and its place. -/
def tryGather (pos slot id : Nat) (acc : State × List (Piece × Hit)) (p : Piece) : State × List (Piece × Hit) :=
  match acc.1.moveOf pos slot id with
  | none => acc
  | some (x, q) =>
    let (h, s1) := xltAccess (.tile pos) false x.ctx ⟨.move pos slot id, p.dva, false⟩ acc.1
    match h with
    | none => (s1, acc.2)
    | some h => if !s1.peerOk 0x82 h then (tileFault pos slot 0x15 q.pc s1, acc.2) else (s1, acc.2 ++ [(p, h)])

/-- Take pieces of one home and one length off the front, up to 30 (08 R271). -/
def takeBatch (port len : Nat) (portOf : Nat → Option Nat) : Nat → List (Piece × Hit) → List (Piece × Hit) × List (Piece × Hit)
  | _, [] => ([], [])
  | n, c :: r =>
    let (a, b) := takeBatch port len portOf (if portOf c.2.addr = some port ∧ c.1.len = len then n - 1 else n) r
    if 0 < n ∧ portOf c.2.addr = some port ∧ c.1.len = len then (c :: a, b) else (a, c :: b)

/-- Note a packet of a GATHER that is about to go out: the places of its bytes, how many of its answer to skip, and the number of
answers it draws. -/
def noteSent (pos slot id pk : Nat) (h : Hit) (skip : Nat) (segs : List (Nat × Nat)) (answers : Nat) (s : State) : State :=
  noteUnit pos slot id pk h (updQ pos slot .move id (fun q =>
    { q with sent := q.sent ++ [(pk, skip, segs)], waitAns := q.waitAns + answers }) s)

/-- A single short row piece is read with a NARROW_READ of each 32-byte block it touches (08 R270, R271). -/
def sendNarrow (pos slot id pk : Nat) (p : Piece) (h : Hit) (s : State) : State :=
  let a := h.addr
  let first := min p.len (32 - a % 32)
  let one := fun (k addr off len : Nat) (st : State) =>
    requestAt .narrowRead pos addr false [] 0 (.move pos slot id k) (noteSent pos slot id k h (addr % 32) [(off, len)] 1 st)
  let s1 := one pk a p.off first s
  if first < p.len then one (pk + 1) (a + first) (p.off + first) (p.len - first) s1 else s1

/-- Send a batch of row pieces to one home: an ENGINE packet, a NARROW_READ for a single short piece, or a READ where no
stack engine is (08 R271). -/
def sendBatch (pos slot id : Nat) (b : List (Piece × Hit)) (s : State) : State :=
  match s.moveOf pos slot id, b with
  | some (_, q), (p, h) :: rest =>
    let a := h.addr
    let pk := q.sent.length
    let segs := b.map (fun c => (c.1.off, c.1.len))
    let s1 := updQ pos slot .move id (fun q => { q with pieces := q.pieces.filter (fun y => !b.any (fun c => c.1 == y)) }) s
    let engine : Bool := match s.zone a with | .host | .ranoa _ | .none | .internal => false | _ => true
    if rest.isEmpty ∧ engine ∧ p.len ≤ 32 then sendNarrow pos slot id pk p h s1
    else if engine then
      let pay := [1#8, BitVec.ofNat 8 q.move.ls.fmt, BitVec.ofNat 8 b.length, 0#8] ++ leBytes 2 p.len ++ List.replicate 10 0#8
        ++ b.flatMap (fun c => leBytes 8 c.2.addr)
      requestAt .engine pos a false pay 0 (.move pos slot id pk)
        (noteSent pos slot id pk h 0 segs (max 1 (ceilDiv (b.length * p.len) 256)) s1)
    else
      let lo := a / 64 * 64
      requestAt .read pos lo false [] (ceilDiv (a + p.len) 64 * 64 - lo) (.move pos slot id pk)
        (noteSent pos slot id pk h (a - lo) segs 1 s1)
  | _, _ => s

/-- Send the translated pieces of a GATHER, batch by batch (08 R271). -/
def sendBatches (pos slot id : Nat) : Nat → List (Piece × Hit) → State → State
  | 0, _, s => s
  | _, [], s => s
  | n + 1, c :: r, s =>
    let inEngine : Bool := match s.zone c.2.addr with | .host | .ranoa _ | .none | .internal => false | _ => true
    let (b, rest) := if inEngine then takeBatch ((s.targetOf c.2.addr).getD 63) c.1.len s.targetOf 30 (c :: r) else ([c], r)
    sendBatches pos slot id n rest (sendBatch pos slot id b s)

/-- A move in progress goes on with the pieces it has still to send (06 R195). -/
def moverGo (pos slot id : Nat) (s : State) : State :=
  match s.moveOf pos slot id with
  | none => s
  | some (_, q) =>
    if wOpc q.word = 0x82 then
      let (s1, ok) := q.pieces.foldl (tryGather pos slot id) (s, [])
      sendBatches pos slot id ok.length ok s1
    else q.pieces.foldl (tryPiece pos slot id) s

/-! ## Starting -/

/-- The pieces of a LOAD or GET: its rows, and the scale matrix when CSC is set (06 R191, R193). -/
def loadPieces (p : MoveOp) : List Piece :=
  let (nr, nc) := p.srcDims
  (List.range nr).flatMap (fun r => readPieces (p.ls.base + r * p.ls.stride) (p.ls.f.rowBytes nc))
    ++ (if p.csc then readPieces p.ls.sbase p.scaleBytes else [])

/-- The tile-store ranges that a STORE or PUT reads. -/
def storeRanges (p : MoveOp) : List (Nat × Nat) :=
  let (nr, nc) := p.srcDims
  (List.range nr).map (fun r => (p.ls.base + r * p.ls.stride, p.ls.f.rowBytes nc))
    ++ (if p.csc then [(p.ls.sbase, p.scaleBytes)] else [])

/-- Poisoned sectors of ranges taint a command without being verified, as a carried copy meets them (16 R554, R556). -/
def taintRanges (pos slot : Nat) (x : Slot) (ranges : List (Nat × Nat)) (s : State) : State :=
  (ranges.flatMap (fun r => sectorsOf (x.winBase + r.1) r.2)).foldl (fun st n =>
    if (st.tileOf pos).store.isPoison n then taintTile pos slot (64 * n - x.winBase) st else st) s

/-- A STORE or PUT starts: it reads the tile store, converts, and makes its packets (06 R191, R193, R194; 16 R552). -/
def storeStart (pos slot : Nat) (x : Slot) (q : QInstr) (s : State) : State :=
  let p := q.move
  let ranges := storeRanges p
  if q.carries && !p.csc then
    let s1 := taintRanges pos slot x ranges s
    let st := (s1.tileOf pos).store
    let sects := (List.range p.lt.rows).map (fun r => (List.range (p.lt.rowLen / 64)).map (fun i =>
      let n := sectorOf (x.winBase + p.ls.base + r * p.ls.stride) + i
      let d := st.sector n
      (⟨p.lt.base + r * p.lt.stride + 64 * i, d, some (crc32c d ^^^ look 0#32 st.ckErr n), st.isPoison n⟩ : Sect)))
    updQ pos slot .move q.id (fun y => { y with pieces := sects.flatMap writePieces }) s1
  else
    let s1 := verifyTile pos slot 1 x.winBase ranges s
    let src := s1.tileSrc pos x
    let rows := (List.range p.lt.rows).map (fun r => (r, copyRow p x q src r))
    let fl := rows.foldl (fun f r => f ||| r.2.2.2) 0#4
    let data := rows.flatMap (fun r => writePieces (rowSects (p.lt.base + r.1 * p.lt.stride) r.2.1 r.2.2.1))
    let scales := if p.csc then
        let (b, pz) := copyScales p src
        writePieces (rowSects p.lt.sbase b pz)
      else []
    updQ pos slot .move q.id (fun y => { y with pieces := data ++ scales, flags := fl }) s1

/-- Little-endian 32-bit entries of a list in the tile store (06 R196). -/
def listWords (rd : Nat → Byte) (a n : Nat) : List Nat :=
  (List.range n).map (fun i => leNat ((List.range 4).map (fun b => rd (a + 4 * i + b))))

/-- The packets of one row of SCATTERADD: up to 240 B, within one 4 KiB unit (08 R271). -/
def scatPieces (p : MoveOp) (src : Feed) (i x : Nat) : List Piece :=
  let w := p.ls.f.bytes
  let dva := p.lt.base + x * p.lt.stride
  let row := p.ls.base + i * p.ls.stride
  let len := p.ls.cols * w
  let cut := (cutRange 4096 (len / 4096 + 2) dva len).flatMap (fun c =>
    (List.range (ceilDiv c.2 (240 / w * w))).map (fun k =>
      let o := k * (240 / w * w)
      (c.1 + o, min (240 / w * w) (c.2 - o))))
  cut.map (fun c =>
    let o := c.1 - dva
    let bs := (List.range c.2).map (fun b => src.rd (row + o + b))
    let hd := [3#8, BitVec.ofNat 8 p.ls.fmt, BitVec.ofNat 8 (c.2 / w)] ++ List.replicate 13 0#8
    ⟨c.1, c.2, c.1, hd ++ bs, [], 0, (List.range c.2).any (fun b => src.pz (row + o + b))⟩)

/-- A SCATTERADD starts: it reads its index list row by row (06 R198, R203): an index out of range or a row outside the
in-place regions is a fault at execution. -/
def scatStart (pos slot : Nat) (x : Slot) (q : QInstr) (s : State) : State :=
  let p := q.move
  let ranges := (p.ri, 4 * p.ls.rows) :: (List.range p.ls.rows).map (fun r => (p.ls.base + r * p.ls.stride, p.ls.rowLen))
  let s1 := verifyTile pos slot 1 x.winBase ranges s
  let src := s1.tileSrc pos x
  let rs := (s1.regionsOf x).filter (fun r => r.inplace)
  let rows := ((listWords src.rd p.ri p.ls.rows).zip (List.range p.ls.rows)).filter (fun r => r.1 != 0xFFFFFFFF)
  let bad := rows.findSome? (fun r =>
    if p.lt.rows ≤ r.1 then some 0x12
    else if !coveredBy (rs.length + 1) rs (p.lt.base + r.1 * p.lt.stride) (p.lt.base + r.1 * p.lt.stride + p.ls.rowLen) then
      some 0x13
    else none)
  match bad with
  | some c => tileFault pos slot c q.pc s1
  | none => updQ pos slot .move q.id (fun y => { y with pieces := rows.flatMap (fun r => scatPieces p src r.2 r.1) }) s1

/-- The pages that XPREF fetches (06 R200). -/
def xprefPieces (p : MoveOp) : List Piece :=
  (List.range (p.nm1 + 1)).flatMap (fun k =>
    (pagesOf ((p.ls.base + (k + 1) * p.step) % 2 ^ 64) p.ls.extent).map (fun g => ⟨g * 0x10000, 0, 0, [], [], 0, false⟩))

/-- The head of the move queue starts (06 R195): a GATHER first reads its lists (GATHER_LIST_READ). -/
def moveStart (pos slot : Nat) (q : QInstr) (s : State) : State :=
  match s.moveOf pos slot q.id with
  | none => s
  | some (x, q) =>
    let fill := fun (l : List Piece) => updQ pos slot .move q.id (fun y => { y with pieces := l }) s
    match wOpc q.word with
    | 0x80 | 0x86 => moverGo pos slot q.id (fill (loadPieces q.move))
    | 0x81 | 0x85 => moverGo pos slot q.id (storeStart pos slot x q s)
    | 0x83 => moverGo pos slot q.id (scatStart pos slot x q s)
    | 0x84 => moverGo pos slot q.id (fill (xprefPieces q.move))
    | _ => s

/-- The row pieces of a GATHER: up to 256 B, within one 4 KiB unit, at their places in the buffer (08 R271). -/
def gatherPieces (p : MoveOp) (idx : List Nat) : List Piece :=
  let nb := p.ls.f.rowBytes p.lt.cols
  ((List.range idx.length).zip idx).flatMap (fun e =>
    if e.2 = 0xFFFFFFFF then []
    else
      let a := p.ls.base + e.2 * p.ls.stride
      (cutRange 4096 (nb / 4096 + 2) a nb).flatMap (fun c =>
        (List.range (ceilDiv c.2 256)).map (fun k =>
          let o := k * 256
          (⟨c.1 + o, min 256 (c.2 - o), e.1 * nb + (c.1 - a) + o, [], [], 0, false⟩ : Piece))))

/-- GATHER_LIST_READ (06 R196, R204, R205): the offset list must not decrease, the index entries used must lie in the
window, and no index may lie beyond the table; then the rows are asked for. -/
def execGatherListRead (pos slot id : Nat) (s : State) : Res :=
  .next (match s.moveOf pos slot id with
    | none => s
    | some (x, q) =>
      if wOpc q.word != 0x82 || q.stage != 0 then s
      else
        let p := q.move
        let rd := s.tileByte pos x.winBase
        let off := if p.mode = 0 then [] else listWords rd p.ro (p.lt.rows + 1)
        let o0 := (off.head?).getD 0
        let n := if p.mode = 0 then p.lt.rows else (off.getLast?).getD 0 - o0
        let a := p.ri + 4 * o0
        if (off.zip off.tail).any (fun c => decide (c.2 < c.1)) then tileFault pos slot 0x14 q.pc s
        else if p.mode = 1 && n != 0 && !x.inWin a (4 * n) then tileFault pos slot 0x05 q.pc s
        else
          let lists := (a, 4 * n) :: (if p.mode = 0 then [] else [(p.ro, 4 * (p.lt.rows + 1))])
          let s1 := verifyTile pos slot 1 x.winBase lists s
          let idx := listWords rd a n
          if idx.any (fun i => i != 0xFFFFFFFF && decide (p.ls.rows ≤ i)) then tileFault pos slot 0x12 q.pc s1
          else moverGo pos slot id (updQ pos slot .move id (fun y =>
            { y with stage := 1, idx := off ++ idx, pieces := gatherPieces p idx }) s1))

/-! ## Completing -/

/-- Write a row's sectors to the tile store with their poison. -/
def storeSects (pos base : Nat) (l : List Sect) (s : State) : State :=
  l.foldl (fun st c => storeTile pos base c.a c.bytes c.poison st) s

/-- A LOAD or GET has every sector: it converts and writes the tile store (06 R191, R193; 16 R552). -/
def loadWrite (pos : Nat) (x : Slot) (q : QInstr) (s : State) : State × Sticky :=
  let p := q.move
  let src := q.src
  let sc := fun (st : State) => if p.csc then
      let (b, pz) := copyScales p src
      storeSects pos x.winBase (rowSects p.lt.sbase b pz) st
    else st
  if q.carries then
    let s1 := (List.range p.lt.rows).foldl (fun st r => (List.range (p.lt.rowLen / 64)).foldl (fun st i =>
      let a := p.ls.base + r * p.ls.stride + 64 * i
      let n := sectorOf (x.winBase + p.lt.base + r * p.lt.stride) + i
      let d := (List.range 64).map (fun b => src.rd (a + b))
      let ck := (q.cks.find? (fun c => c.1 == a / 64)).map Prod.snd
      st.updTile pos (fun t => { t with store := t.store.writeSector n d ck (src.pz a) })) st) s
    (sc s1, 0#4)
  else
    let (s1, fl) := (List.range p.lt.rows).foldl (fun (acc : State × Sticky) r =>
      let (b, pz, f) := copyRow p x q src r
      (storeSects pos x.winBase (rowSects (p.lt.base + r * p.lt.stride) b pz) acc.1, acc.2 ||| f)) (s, 0#4)
    (sc s1, fl)

/-- One element of a bag sum: the running sum, or none before the first row, and the next row's FP32 value
(06 R197, 04 R122, R128). -/
def bagAdd (ftz : Bool) (acc : Option Nat) (v : Nat) : Nat × Sticky :=
  match acc with
  | none => if f32.decode v = .nan then (0x7FC00000, fNan) else (v, 0#4)
  | some a => accFloat .fp32 ftz a [f32.decode v]

/-- Output row b of a GATHER (06 R196, R197): its bytes, poison by byte, flags. In MODE 0 a partly used last byte of a TRN row is decoded,
and sets INVALID_TRN when it is 243 or more; whole bytes are copied, as LOAD, STORE, PUT and GET of equal formats copy them, without the
flag (04 R111, R131; 05 R138; log 21, DESIGN CHOICE). -/
def gatherRow (p : MoveOp) (x : Slot) (q : QInstr) (src : Feed) (b : Nat) : List Byte × (Nat → Bool) × Sticky :=
  let fs := p.ls.f
  let nb := fs.rowBytes p.lt.cols
  if p.mode = 0 then
    let zero : Bool := (q.idx[b]?).getD 0xFFFFFFFF == 0xFFFFFFFF
    let (bs, fl) := plainRow (fun a => if zero then 0#8 else src.rd a) fs (b * nb) p.lt.cols
    (bs, fun c => !zero && src.pz (b * nb + c), fl)
  else
    let off := q.idx.take (p.lt.rows + 1)
    let idx := q.idx.drop (p.lt.rows + 1)
    let o0 := (off.head?).getD 0
    let lo := (off[b]?).getD 0 - o0
    let n := (off[b + 1]?).getD 0 - (off[b]?).getD 0
    let rows := (List.range n).map (fun e => lo + e)
    let cell := fun (c : Nat) =>
      let (sum, fl) := rows.foldl (fun (acc : Option Nat × Sticky) e =>
        let (v, f1) := if (idx[e]?).getD 0xFFFFFFFF = 0xFFFFFFFF then (0, 0#4)
          else
            let (code, f0) := elemCode src.rd fs (e * nb) c
            let (w, f2) := convert fs .fp32 none .rne false (ftzOf q.tctl) code
            (w, f0 ||| f2)
        let (r, f3) := bagAdd (ftzOf q.tctl) acc.1 v
        (some r, acc.2 ||| f1 ||| f3)) (none, 0#4)
      let (out, f4) := convert .fp32 p.lt.f none (rndOf p.rnd x.seed x.part q.ord (b * p.lt.cols + c)) (ovfOf q.tctl)
        (ftzOf q.tctl) (sum.getD 0)
      (out, fl ||| f4)
    let cs := (List.range p.lt.cols).map cell
    let epz := fun (c : Nat) => rows.any (fun e => (idx[e]?).getD 0xFFFFFFFF != 0xFFFFFFFF &&
      (let sp := elemSpan fs (e * nb) c 1
       src.pz sp.1 || src.pz (sp.1 + sp.2 - 1)))
    let ft := p.lt.f
    let pz := fun (d : Nat) => if ft.perByte = 1 then epz (d / ft.bytes)
      else (List.range ft.perByte).any (fun i => decide (d * ft.perByte + i < p.lt.cols) && epz (d * ft.perByte + i))
    (packRow ft (cs.map Prod.fst), pz, cs.foldl (fun f c => f ||| c.2) 0#4)

/-- A GATHER has every row: it writes its output rows (06 R196, R197). -/
def gatherWrite (pos : Nat) (x : Slot) (q : QInstr) (s : State) : State × Sticky :=
  let p := q.move
  let src := q.gatherSrc
  (List.range p.lt.rows).foldl (fun (acc : State × Sticky) b =>
    let (bs, pz, f) := gatherRow p x q src b
    (storeSects pos x.winBase (rowSects (p.lt.base + b * p.lt.stride) bs pz) acc.1, acc.2 ||| f)) (s, 0#4)

/-- Has a move every answer? -/
def QInstr.allDone (q : QInstr) : Bool := q.started && q.pieces.isEmpty && q.waitAns == 0

/-- INBOUND_MOVE_COMPLETE (03 R76, R95; 06 R191 to R197): every sector is written in the tile store. -/
def execInboundMoveComplete (pos slot id : Nat) (s : State) : Res :=
  .next (match s.moveOf pos slot id with
    | none => s
    | some (x, q) =>
      let opc := wOpc q.word
      if !q.allDone then s
      else if opc = 0x80 || opc = 0x86 then
        let (s1, fl) := loadWrite pos x q s
        complete pos slot .move q fl s1
      else if opc = 0x82 && q.stage == 1 then
        let (s1, fl) := gatherWrite pos x q s
        complete pos slot .move q fl s1
      else s)

/-- OUTBOUND_MOVE_COMPLETE (03 R76, 04 R139): every write of a STORE, SCATTERADD or PUT is acknowledged or counted. -/
def execOutboundMoveComplete (pos slot id : Nat) (s : State) : Res :=
  .next (match s.moveOf pos slot id with
    | none => s
    | some (_, q) => if q.allDone && moveWrites (wOpc q.word) then complete pos slot .move q q.flags s else s)

/-- XPREF_COMPLETE (06 R201): every fetch has ended or been skipped. -/
def execXprefComplete (pos slot id : Nat) (s : State) : Res :=
  .next (match s.moveOf pos slot id with
    | none => s
    | some (_, q) => if q.allDone && wOpc q.word == 0x84 then complete pos slot .move q 0#4 s else s)

end Sys2Proof.Machine
end

