-- ==== Sys2Proof/Machine/Place.lean ====
section
/-!
DEFINITION. The placement aperture (12 R415, R429 to R434, R438, R439; 07 R228).
-/
namespace Sys2Proof.Machine

/-! ## The region table -/

/-- A region table entry (12 R439). -/
structure Win where
  valid : Bool
  base : Nat
  dva : Nat
  size : Nat
  ctx : Nat
  smode : Nat
  sync : Nat
  rid : Nat
  mask : Nat
  deriving DecidableEq, Repr

/-- Read an entry; its size in bytes. -/
def State.win (s : State) (n : Nat) : Win :=
  let w0 := s.reg (plap n)
  let w2 := s.reg (plap n + 0x10)
  let w3 := s.reg (plap n + 0x18)
  ⟨fld w0 63 63 == 1, fld w0 39 16 * 0x10000, s.regFld (plap n + 8) 54 16 * 0x10000, (fld w2 63 40 + 1) * 0x10000,
    fld w2 39 30, fld w2 29 28, fld w2 27 15, fld w3 15 0, fld w3 31 16⟩

/-- The numbers of the entries that any register of the table lists. -/
def State.winNums (s : State) : List Nat :=
  ((s.regs.filter (fun r => decide (0x180000 ≤ r.1) && decide (r.1 < 0x1A0000) && r.1 % 32 == 0)).map (fun r =>
    (r.1 - 0x180000) / 32))

/-- The valid entry that covers an aperture offset (12 R429). -/
def State.winFor (s : State) (off : Nat) : Option Nat :=
  s.winNums.find? (fun n => let w := s.win n; w.valid && decide (w.base ≤ off) && decide (off < w.base + w.size))

/-! ## Writes -/

/-- The packets of an accepted write: whole sectors, and masked parts (12 R431). -/
def placePieces (a : Nat) (bytes : List Byte) : List Piece := writePieces (rowSects a bytes (fun _ => false))

/-- Send one piece of a counted write from a die to its home, whole or under its mask. -/
def placeSendAs (masked : Bool) (src n : Nat) (p : Piece) (s : State) : State :=
  let op := if masked then PktOp.writeMasked else .write
  let pay := if masked then p.data ++ leBytes 8 p.mask ++ List.replicate 8 0#8 else p.data
  match s.targetOf p.dva with
  | some dst => request ⟨op, src, dst, 0, p.dva, p.poison, pay, p.checks, 0⟩ (.place n) s
  | none => requestAt op src p.dva p.poison pay 0 (.place n) s

/-- Send a piece; one without a mask is whole sectors. -/
def placeSend (src n : Nat) (p : Piece) (s : State) : State := placeSendAs (p.mask != 0) src n p s

/-- What the count of a write adds, and to which object (12 R433). -/
def Win.count (w : Win) (len : Nat) : Option Nat × Nat :=
  if w.smode = 1 then (some w.sync, len) else if w.smode = 2 then (some w.sync, 1) else (none, 0)

/-- A write that waits is translated, then its sectors go to their homes (12 R431, R433). A fault drops it whole; a host-resident page
takes it through the link at once. What it counts is what its entry said when it was accepted (R434). -/
def placeTry (p : Placing) (s : State) : State :=
  let (h, s1) := xltAccess .checker true p.ctx ⟨.place p.n, p.dva, true⟩ s
  match h with
  | none => s1
  | some hit =>
    let s2 := placeGone p.n s1
    match hit with
    | .bus b =>
      let s3 := s2.tlp (.write (s.ctxFn p.ctx) b p.bytes false .other .translated)
      match p.obj with
      | some o => s3.withCounted (s3.counted ++ [⟨p.n, some o, p.add, 0, some p.win, none, none⟩])
      | none => s3
    | .dev a =>
      let ps := placePieces a p.bytes
      let s3 := s2.withCounted (s2.counted ++ [⟨p.n, p.obj, p.add, ps.length, some p.win, none, none⟩])
      ps.foldl (fun st q => placeSend 57 p.n q st) s3

/-- The writes of one requester go on in posted order, until one waits (12 R433). -/
def placeRid (rid : Nat) : Nat → State → State
  | 0, s => s
  | n + 1, s =>
    match s.hif.placeWait.find? (fun p => p.rid == rid) with
    | none => s
    | some p =>
      let s1 := placeTry p s
      if s1.hif.placeWait.any (fun q => q.n == p.n) then s1 else placeRid rid n s1

/-- A write that waits goes on, and after it those of its requester; one that waits behind another of its requester does not (12 R433). -/
def placeGo (n : Nat) (s : State) : State :=
  match s.hif.placeWait.find? (fun p => p.n == n) with
  | none => s
  | some p =>
    if s.hif.placeWait.any (fun q => q.rid == p.rid && decide (q.n < n)) then s
    else placeRid p.rid s.hif.placeWait.length s

/-- After waits have ended in any way, every requester's first write goes on (12 R433). -/
def placesGo (s : State) : State :=
  ((s.hif.placeWait.map Placing.rid).eraseDups).foldl (fun st r => placeRid r st.hif.placeWait.length st) s

/-- A write TLP to the aperture: 1 to 512 B (12 R409) at an offset of BAR2. -/
def tlpOk (off len : Nat) : Bool := decide (1 ≤ len) && decide (len ≤ 512) && decide (off < 2 ^ 40)
/-- PCI Express lets no TLP cross a 4 KiB boundary (log 27). -/
def tlpCrosses (off len : Nat) : Bool := decide (4096 < off % 4096 + len)

/-- PLACEMENT_WRITE (12 R429 to R433). -/
def execPlacementWrite (rid off : Nat) (data : List Byte) (ep : Bool) (s : State) : Res :=
  .next (if !tlpOk off data.length then s
    else match s.winFor off with
      | none => placeLog rid off 0x1 s
      | some i =>
        let w := s.win i
        if w.base + w.size < off + data.length then placeLog rid off 0x3 s
        else if Nat.land rid w.mask != Nat.land w.rid w.mask then placeLog rid off 0x2 s
        else if (s.sessOf (s.ctxFn w.ctx)).flrDetached then placeLog rid off 0x4 s
        else if ep then placeLog rid off 0x6 s
        else if tlpCrosses off data.length then s
        else
          let n := s.hif.placeNext
          placeGo n (s.withHif { s.hif with
            placeNext := n + 1
            placeWait := s.hif.placeWait ++ [⟨n, rid, off, w.ctx, i, w.dva + (off - w.base), data, (w.count data.length).1,
              (w.count data.length).2⟩] }))

/-- An error reported through AER. -/
def aerError (s : State) : State := s.withHif { s.hif with aer := satAdd 0xFFFF s.hif.aer 1 }

/-- IDE_CHECK_FAIL (12 R415): the TLP is dropped and reported through AER; a placement write is also logged. -/
def execIdeCheckFail (rid off : Nat) (placement : Bool) (s : State) : Res :=
  .next (if placement then placeLog rid off 0x6 (aerError s) else aerError s)

/-- BAR2_READ: Completer Abort, reported as an Advisory Non-Fatal error (12 R432). -/
def execBar2Read (rid _off : Nat) (s : State) : Res :=
  let s1 := s.withHif { s.hif with advisory := satAdd 0xFFFF s.hif.advisory 1 }
  .next (s1.withHif { s1.hif with cpls := s1.hif.cpls ++ [.cpl rid true] })

/-! ## Registers -/

/-- HIF_PLOG (12 R438). -/
def State.plogWord (s : State) : Word :=
  BitVec.ofNat 64 (at_ s.hif.plog.dropped 32 + at_ s.hif.plog.rid 16 + s.hif.plog.reason)

/-- HIF_PLOG_READ (12 R432, R438): DROPPED clears, the capture is armed again, one event. Through a VF it reads 0
(18 R613). -/
def execHifPlogRead (who : Agent) (s : State) : Res :=
  let off := 0x0100020
  .next (if s.hostGate who && isPf0OrCore who then
      let n := s.hif.plog.since
      let s1 := reply who off s.plogWord s
      post (ev 0x43 (some 57) n []) (s1.withHif { s1.hif with plog := { s1.hif.plog with dropped := 0, captured := false, since := 0 } })
    else shutRead who off s)

/-- May an entry become valid (12 R430)? -/
def State.winOk (s : State) (n : Nat) (w : Win) : Bool :=
  decide (w.base + w.size ≤ 2 ^ 40) && w.smode != 3 && (w.smode == 0 || s.ownedBy w.sync w.ctx)
    && s.winNums.all (fun m => m == n || (let x := s.win m
        !x.valid || decide (x.base + x.size ≤ w.base) || decide (w.base + w.size ≤ x.base)))

/-- HIF_PLAP_VALID_SET (12 R430, R439): APBASE is written with VALID unless the entry is in use. -/
def execHifPlapValidSet (who : Agent) (n : Nat) (v : Word) (s : State) : Res :=
  .next (if 4096 ≤ n then s
    else pfWrite who (plap n) (fun s =>
      if (s.win n).valid then s
      else
        let body := v &&& 0x000000FFFFFF0000#64
        let s1 := s.setReg (plap n) body
        if s1.winOk n (s1.win n) then s1.setReg (plap n) (body ||| 0x8000000000000000#64)
        else setupRefused who (plap n) s1) s)

/-- HIF_PLAP_VALID_CLEAR (12 R434): new writes stop; DRAIN reads 1 while accepted ones are not counted. -/
def execHifPlapValidClear (who : Agent) (n : Nat) (s : State) : Res :=
  .next (if 4096 ≤ n then s
    else pfWrite who (plap n) (fun s =>
      if (s.win n).valid then
        let s1 := s.setReg (plap n) (s.reg (plap n) &&& 0x7FFFFFFFFFFFFFFF#64)
        if s1.winDraining n then s1.withHif { s1.hif with plapDrain := ins n s1.hif.plapDrain } else s1
      else s) s)

/-- PLACEMENT_DRAIN_DONE (12 R434). -/
def execPlacementDrainDone (n : Nat) (s : State) : Res :=
  .next (if s.winDraining n then s else s.withHif { s.hif with plapDrain := del n s.hif.plapDrain })

end Sys2Proof.Machine
end

