-- ==== Sys2Proof/Machine/Sync.lean ====
section
/-!
DEFINITION. Sync objects: operations, waiters, registers, arrival counting (07 R215 to R230).
-/
namespace Sys2Proof.Machine

/-- Does a value satisfy a waiter (07 R216)? -/
def Waiter.holds (w : Waiter) (v : Word) : Bool := if w.eq then v == w.v else decide (w.v.toNat ≤ v.toNat)

/-- The port a waiter's release goes to; a descriptor's wait is at port 63. -/
def Waiter.port (w : Waiter) : Nat := match w.by_ with | .port p _ => p | .head _ _ _ => 63

/-- The first 16 payload bytes of a value (07 R217). -/
def valPayload (v : Word) : List Byte := leBytes 16 v.toNat

/-- Release one waiter of an object: a slot is sent SYNC_WAKE, which names the object (02 R38); a head's wait is done (07 R217,
R220). -/
def releaseOne (n : Nat) (v : Word) (w : Waiter) (s : State) : State :=
  match w.by_ with
  | .port p tid => send ⟨.syncWake, 63, p, tid, n, false, valPayload v, [], 0⟩ s
  | .head ring seq _ =>
    s.withDisp { s.disp with cmds := s.disp.cmds.map (fun c =>
      if c.ring == ring && c.seq == seq then
        { c with waits := dropFirst (fun x => x.2.1 == w.eq && x.2.2 == w.v) c.waits }
      else c) }

/-- Evaluate the waiters of an object: every one that holds is released, in rotating order of destination port
(07 R220). Where that order starts the spec does not say: at the object's own pointer here (log 7, DESIGN CHOICE). -/
def releaseWaiters (n : Nat) (s : State) : State :=
  let o := s.syncOf n
  let go := sortBy (fun w => rotDist 64 o.ptr w.port) (o.waiters.filter (fun w => w.holds o.val))
  let s1 := s.updSync n (fun x => { x with waiters := x.waiters.filter (fun w => !w.holds o.val) })
  go.foldl (fun st w => releaseOne n o.val w st) s1

/-- One operation on an object is performed: counted, pointer past the source (07 R218, R226). -/
def syncCount (n src : Nat) (s : State) : State :=
  s.updSync n (fun x => { x with ops := satAdd 0xFFFFFFFF x.ops 1, ptr := (src + 1) % 64 })

/-- ADD (07 R216, R220). -/
def syncAddOp (n src : Nat) (v : Word) (s : State) : State :=
  releaseWaiters n ((syncCount n src s).updSync n (fun x => { x with val := x.val + v }))

/-- SET (07 R216, R220). -/
def syncSetOp (n src : Nat) (v : Word) (s : State) : State :=
  releaseWaiters n ((syncCount n src s).updSync n (fun x => { x with val := v }))

/-- WAIT: released at once when it holds, else a waiter record (07 R220, R221). -/
def syncWaitOp (n src : Nat) (w : Waiter) (s : State) : State :=
  let s1 := syncCount n src s
  if w.holds (s1.syncOf n).val then releaseOne n (s1.syncOf n).val w s1
  else s1.updSync n (fun x => { x with waiters := x.waiters ++ [w] })

/-- The SYNC_OP packet of an operation: 0 ADD, 1 SET, 2 WAIT_GE, 3 WAIT_EQ, 4 READ (07 R217). -/
def syncPkt (src tid obj op : Nat) (v : Word) : Pkt :=
  ⟨.syncOp, src, 63, tid, obj, false, leBytes 8 v.toNat ++ [BitVec.ofNat 8 op] ++ List.replicate 7 0#8, [], 0⟩

/-- The source whose operation an object takes next: of the operations inside the hub that name it, by rotating priority from the
object's pointer (07 R218). -/
def State.syncTurn (s : State) (obj : Nat) : Option Nat :=
  rotPick 64 (s.syncOf obj).ptr ((s.hub.voq.filter (fun v => v.pkt.op == .syncOp && v.pkt.addr == obj && s.canArrive v.pkt)).map (fun v => v.pkt.src))

/-- A sync packet arrives at port 63, when its object's rotation comes to its source; a repeated TID is discarded (02 R49; 07
R218). The agents of port 63 send no packet (07 R219). -/
def syncArrive (p : Pkt) (k : State → State) (s : State) : State :=
  if 8192 ≤ p.addr then s
  else if p.src = 63 then k s
  else
    let s0 := if s.onWay p || s.seenTid 63 p.src p.tid || !s.mayCome p then s else send p (s.noteReq p 1)
    if s0.syncTurn p.addr = some p.src then arriveReq p k s0 else s0

/-- The answer to an ADD, SET or READ of another port (07 R217, R219). -/
def syncAnswer (op : PktOp) (src tid obj : Nat) (payload : List Byte) (s : State) : State :=
  if src = 63 then s else send ⟨op, 63, src, tid, obj, false, payload, [], 0⟩ s

/-- Does a request come from a core's AMOADD.D, whose answer carries the value before it (07 R217)? -/
def State.isAmo (s : State) (src tid : Nat) : Bool :=
  match s.findOutst src tid with
  | some o => (match o.use with | .amo _ _ => true | _ => false)
  | none => false

/-- The hub performs an ADD that has come, and answers it (07 R216, R217, R220). -/
def syncAddServe (src tid obj : Nat) (v : Word) (s : State) : State :=
  if s.isAmo src tid then syncAnswer .respData src tid obj (valPayload (s.syncOf obj).val) (syncAddOp obj src v s)
  else syncAnswer .respAck src tid obj [] (syncAddOp obj src v s)

/-- The hub performs a SET that has come, and answers it (07 R216, R217, R220). -/
def syncSetServe (src tid obj : Nat) (v : Word) (s : State) : State := syncAnswer .respAck src tid obj [] (syncSetOp obj src v s)

/-- SYNC_ADD: the hub performs ADD and evaluates the waiters (07 R216, R220). -/
def execSyncAdd (src tid obj : Nat) (v : Word) (s : State) : Res :=
  .next (syncArrive (syncPkt src tid obj 0 v) (syncAddServe src tid obj v) s)

/-- SYNC_SET (07 R216, R220). -/
def execSyncSet (src tid obj : Nat) (v : Word) (s : State) : Res :=
  .next (syncArrive (syncPkt src tid obj 1 v) (syncSetServe src tid obj v) s)

/-- A die sends the hub an ADD on an object; the hub performs it in this command when the packet comes and it is its turn, and else
with a SYNC_ADD that follows (07 R217, R218). -/
def syncSendAdd (src obj : Nat) (v : Word) (use : Use) (s : State) : State :=
  let tid := look 0 s.hub.nextTid src
  if s.fenced src then s
  else syncArrive (syncPkt src tid obj 0 v) (syncAddServe src tid obj v) (request (syncPkt src 0 obj 0 v) use s)

/-- A die sends the hub a SET on an object, as `syncSendAdd` does (07 R217, R218). -/
def syncSendSet (src obj : Nat) (v : Word) (use : Use) (s : State) : State :=
  let tid := look 0 s.hub.nextTid src
  if s.fenced src then s
  else syncArrive (syncPkt src tid obj 1 v) (syncSetServe src tid obj v) (request (syncPkt src 0 obj 1 v) use s)

/-- Would an operation that a die sends now be performed at once: its link takes it, no other of its die is before it, and the
object's rotation comes to it (07 R218)? -/
def State.syncReady (s : State) (src obj : Nat) : Bool :=
  let p := syncPkt src 0 obj 0 0#64
  s.portUp src && decide (s.outCount src < 4096) && !s.hub.bound.any (fun b => b.1.src == src)
  && !(s.linkOf src).die.wait.any (fun w => sameWay w.2 p) && !s.hub.voq.any (fun v => sameWay v.pkt p)
  && (s.linkOf src).die.canSend .die src false p
  && rotPick 64 (s.syncOf obj).ptr (src :: (s.hub.voq.filter (fun v =>
      v.pkt.op == .syncOp && v.pkt.addr == obj && s.canArrive v.pkt)).map (fun v => v.pkt.src)) == some src

/-- SYNC_WAIT_GE (07 R216, R220). -/
def execSyncWaitGe (src tid obj : Nat) (v : Word) (s : State) : Res :=
  .next (syncArrive (syncPkt src tid obj 2 v) (syncWaitOp obj src ⟨.port src tid, false, v⟩) s)

/-- SYNC_WAIT_EQ (07 R216, R220). -/
def execSyncWaitEq (src tid obj : Nat) (v : Word) (s : State) : Res :=
  .next (syncArrive (syncPkt src tid obj 3 v) (syncWaitOp obj src ⟨.port src tid, true, v⟩) s)

/-- A slot's queued sync instruction has its answer (03 R76, 06 R209). -/
def syncInstrAnswered (pos slot id : Nat) (s : State) : State :=
  s.updTile pos (fun t => { t with slots := upd none t.slots slot (fun o => o.map (fun x =>
    { x with qs := x.qs.map (fun q => if q.id == id then { q with waitAns := 1 } else q) })) })

/-- SYNC_WAKE: a waiter's release reaches its port (07 R217, 06 R209); one not outstanding is dropped (02 R50). -/
def execSyncWake (dst tid : Nat) (v : Word) (s : State) : Res :=
  let obj := match s.findOutst dst tid with | some o => o.addr | none => 0
  let r := reach ⟨.syncWake, 63, dst, tid, obj, false, valPayload v, [], 0⟩ s
  .next (if !r.2 then r.1
    else match r.1.findOutst dst tid with
    | none => r.1
    | some o => match o.use with
      | .tsync pos slot id => syncInstrAnswered pos slot id (boundGo dst (r.1.dropOutst dst tid))
      | _ => boundGo dst (r.1.dropOutst dst tid))

/-- May the agent reach the object: cores and PF0 any, a VF those its contexts own (07 R222)? -/
def State.mayObj (s : State) (who : Agent) (obj : Nat) : Bool :=
  match who with
  | .host 0 => true
  | .host fn => bitOf (s.reg (syncCfg obj)).toNat 31 && s.ctxFn (s.regFld (syncCfg obj) 25 16) == fn
  | .core _ => true

/-- SYNC_READ: the value is returned (07 R216, R217). A load through the BAR0 of a VF (`fn`, from the host port) reads 0 of an
object that none of its contexts owns (07 R222). -/
def execSyncRead (src tid obj fn : Nat) (s : State) : Res :=
  .next (syncArrive (syncPkt src tid obj 4 0#64) (fun s =>
    if src = 57 ∧ !s.mayObj (.host fn) obj then syncAnswer .respData src tid obj (valPayload 0#64) s
    else syncAnswer .respData src tid obj (valPayload (s.syncOf obj).val) (syncCount obj src s)) s)

/-- SYNC_VALUE_WRITE: a store performs SET (07 R224), for which the die it comes from sends a SYNC_OP (07 R217); a VF's to an object
not its own is dropped and logged (07 R222). -/
def execSyncValueWrite (who : Agent) (obj : Nat) (v : Word) (s : State) : Res :=
  .next (if !s.hostGate who then s
    else if s.mayObj who obj then syncSendSet (whoPort who) obj v .plain s
    else setupRefused who (0x1000000 + 0x40 * obj) s)

/-- AMOADD_D: a core's AMOADD.D performs ADD; its SYNC_OP is answered by RESP_DATA with the value before it, which the core then
returns (07 R217, R224). -/
def execAmoaddD (core obj : Nat) (v : Word) (s : State) : Res :=
  .next (if (s.coreOf core).fence then s else syncSendAdd (53 + core / 32) obj v (.amo core obj) s)

/-- CORE_SYNC_BAD_ACCESS: any other access to the SYNC block is an access fault of the core (07 R227). -/
def execCoreSyncBadAccess (core addr : Nat) (kind : AccKind) (s : State) : Res :=
  .next (coreTrap core (accCause kind) addr s)

/-- SYNC_STATn (07 R226). -/
def State.syncStat (s : State) (obj : Nat) : Word :=
  BitVec.ofNat 64 (at_ (s.syncOf obj).ops 32 + (s.syncOf obj).waiters.length % 65536)

/-- SYNC_STAT_READ: a read returns and clears OPS (07 R226, 00 R10); a VF reads 0 of an object not its own
(07 R222). -/
def execSyncStatRead (who : Agent) (obj : Nat) (s : State) : Res :=
  let off := 0x1000010 + 0x40 * obj
  .next (if s.hostGate who && s.mayObj who obj then
      (reply who off (s.syncStat obj) s).updSync obj (fun x => { x with ops := 0 })
    else shutRead who off s)

end Sys2Proof.Machine
end

