-- ==== Sys2Proof/Machine/Ranoa.lean ====
section
/-!
DEFINITION. The Ranoa peer ports: link senders, training and loss, PUT and GET in both directions, windows, arrival
counting, registers (14; 07 R228; 16 R503, R552).
-/
namespace Sys2Proof.Machine

/-! ## The link -/

/-- Channel of a packet (14 R491, R492): 0 request, 1 response, 2 data, 3 side-band. -/
def ropVc : ROp → Nat
  | .getReq => 0
  | .getData | .putAck | .err => 1
  | .put | .putMasked => 2
  | .sbMsg | .hello => 3

/-- Opcode of a packet (14 R492). -/
def ropCode : ROp → Nat
  | .getReq => 0x01 | .put => 0x02 | .putMasked => 0x03 | .getData => 0x20 | .putAck => 0x21 | .err => 0x22 | .sbMsg => 0x30
  | .hello => 0x31
/-- The packet type of an opcode; every other opcode is reserved (14 R492). -/
def ropOfCode (c : Nat) : Option ROp :=
  [.getReq, .put, .putMasked, .getData, .putAck, .err, .sbMsg, .hello].find? (fun op => ropCode op == c)

/-- The header of a packet with its link sequence number (14 R491). -/
def rHeader (lseq : Nat) (r : RPkt) : BitVec 256 :=
  BitVec.ofNat 256 (at_ (ropCode r.op) 248 + at_ (ropVc r.op) 245 + at_ (r.payload.length / 16) 240 + at_ (lseq % 65536) 224
    + at_ (b2n r.poison) 223 + at_ (r.status % 256) 208 + at_ (r.tid % 2 ^ 32) 176 + at_ (r.psn % 2 ^ 48) 128
    + at_ (r.offset % 2 ^ 44) 64 + at_ (r.rdLen % 32) 48)

/-- What follows the header on the fibre: payload and check words (14 R490). -/
def rBody (r : RPkt) : List Byte := r.payload ++ r.checks.flatMap (fun c => leBytes 4 c.toNat)

/-- The link CRC of a packet, over all bytes before it (14 R490; the header's bytes from its low end, as multi-byte fields lie, R491). -/
def rCrcOf (hdr : BitVec 256) (body : List Byte) : BitVec 32 := linkCrc (leBytes 32 hdr.toNat ++ body)

/-- Does a packet pass the link check: its CRC, its opcode, its channel and its length (14 R490 to R492)? -/
def rRawOk (hdr : BitVec 256) (body : List Byte) (crc : BitVec 32) : Bool :=
  rCrcOf hdr body == crc && decide (fld hdr 244 240 ≤ 16)
  && body.length == 16 * fld hdr 244 240 + 4 * (fld hdr 244 240 / 4)
  && match ropOfCode (fld hdr 255 248) with
    | some op => ropVc op == fld hdr 247 245
    | none => false

/-- Credits a receiver grants (14 R493). -/
def rCredits : FMap Nat := [(0, 128), (1, 128), (2, 512), (3, 16)]
/-- Bytes of a packet on the fibre (14 R490). -/
def rBytes (r : RPkt) : Nat := 36 + r.payload.length + 4 * r.checks.length
/-- The hub port of a port's Ranoa die. -/
def rDie (n : Nat) : Nat := 58 + n % 8 / 4
/-- A packet without payload. -/
def rShort (op : ROp) (status tid psn : Nat) : RPkt := ⟨op, false, status, tid, psn, 0, 0, [], []⟩

/-- May a port send a packet now (14 R493, R494, R507)? -/
def RPort.canSend (x : RPort) (r : RPkt) : Bool :=
  (x.state == 2 || (x.state == 1 && r.op == .hello)) && decide (0 < look 0 x.cred (ropVc r.op))
    && decide ((x.replay.map (fun e => rBytes e.2)).sum + rBytes r ≤ 1048576)
    && (r.op != .getReq || decide ((x.gets.filter (fun g =>
      g.data.isNone && !x.wait.any (fun w => w.op == .getReq && w.tid == g.tid))).length < 1024))

/-- Put a waiting packet on the fibre: a link sequence number, a credit, the replay buffer (14 R494). -/
def RPort.push (x : RPort) (r : RPkt) : RPort :=
  { x with lseq := (x.lseq + 1) % 65536, replay := x.replay ++ [(x.lseq, r)], cred := upd 0 x.cred (ropVc r.op) (fun n => n - 1)
           wait := dropFirst (fun w => w == r) x.wait }

/-- Send waiting packets, each channel in its order; no channel waits for another one's credits (14 R493). -/
def RPort.flush : List RPkt → List Nat → RPort → RPort
  | [], _, x => x
  | r :: l, stuck, x =>
    if !has (ropVc r.op) stuck && x.canSend r then RPort.flush l stuck (x.push r) else RPort.flush l (ropVc r.op :: stuck) x

/-- A port sends what it can. -/
def rGo (n : Nat) (s : State) : State := s.updRport n (fun x => RPort.flush x.wait [] x)
/-- Send a packet out of a port. -/
def sendR (n : Nat) (r : RPkt) (s : State) : State := rGo n (s.updRport n (fun x => { x with wait := x.wait ++ [r] }))

/-- A port takes a packet in order: the next LSEQ is due, and an acknowledgement goes back (14 R494). -/
def rAck (n : Nat) (s : State) : State :=
  s.updRport n (fun x => { x with rxSeq := (x.rxSeq + 1) % 65536, ctl := x.ctl ++ [.ack x.rxSeq] })
/-- A packet's slot is free: a credit of its channel goes back (14 R493). -/
def rFree (n : Nat) (op : ROp) (s : State) : State := s.updRport n (fun x => { x with ctl := x.ctl ++ [.credit 0 (ropVc op) 1] })
/-- A port takes a packet that holds its slot no longer. -/
def rTake (n : Nat) (op : ROp) (s : State) : State := rFree n op (rAck n s)

/-- RANOA_LINK_ACK (14 R494): packets up to a sequence number leave the replay buffer. -/
def execRanoaLinkAck (port lseq : Nat) (s : State) : Res :=
  let x := s.rportOf port
  .next (match x.replay.findIdx? (fun e => e.1 == lseq) with
    | some i => rGo port (s.updRport port (fun x => { x with replay := x.replay.drop (i + 1), resends := 0 }))
    | none => s)

/-- RANOA_CREDIT_RETURN (14 R493). -/
def execRanoaCreditReturn (port vc n : Nat) (s : State) : Res :=
  .next (rGo port (s.updRport port (fun x => { x with cred := upd 0 x.cred vc (fun k => min (k + n) (look 0 rCredits vc)) })))

/-- RANOA_HEARTBEAT (14 R495): the control word shows that the peer is there. `corrected`: codewords that the FEC has corrected since
the word before; no row of their own counts them (14 R488, R518; log 56). -/
def execRanoaHeartbeat (port corrected : Nat) (s : State) : Res :=
  .next (if (s.rportOf port).state = 2 then s.updRport port (fun x => { x with fecCorr := satAdd 0xFFFF x.fecCorr corrected }) else s)

/-- RANOA_HEARTBEAT_SEND (14 R495): an idle port that is up sends a heartbeat. -/
def execRanoaHeartbeatSend (port : Nat) (s : State) : Res :=
  .next (if (s.rportOf port).state = 2 ∧ (s.rportOf port).wait.isEmpty then
      s.updRport port (fun x => { x with ctl := x.ctl ++ [.heartbeat] })
    else s)

/-- What a port finds in a packet of its peer: one that a codeword the FEC could not correct overlaps, or that fails the link
check; a gap in LSEQ; or the packet that is due (14 R488, R492, R494). -/
def rFind (x : RPort) (hdr : BitVec 256) (body : List Byte) (crc : BitVec 32) (uncorr : Nat) : RawFind :=
  if uncorr != 0 || !rRawOk hdr body crc then .bad
  else
    let ahead := (fld hdr 239 224 + 65536 - x.rxSeq) % 65536
    if 0 < ahead ∧ ahead < 32768 then .gap else .taken

/-- RANOA_LINK_CRC_ERROR (14 R488, R492, R494, R518): a packet that the port cannot take, and the codewords not corrected that overlap
it, which are counted: a negative acknowledgement goes back, in training too (R496). A packet in order is no such event (log 1). -/
def execRanoaLinkCrcError (port : Nat) (hdr : BitVec 256) (body : List Byte) (crc : BitVec 32) (uncorr : Nat) (s : State) : Res :=
  let x := s.rportOf port
  .next (if (x.state != 1 && x.state != 2) || rFind x hdr body crc uncorr == .taken then s
    else s.updRport port (fun x => { x with fecUncorr := satAdd 0xFFFF x.fecUncorr uncorr, ctl := x.ctl ++ [.nak] }))

/-! ## Loss and training -/

/-- The answer to a hub request about a Ranoa access: reason 0x04 with the Ranoa reason above it (14 R509). -/
def ranoaErr (p : Pkt) (reason : Nat) (s : State) : State := send (deadAnswer p (0x04 + 256 * reason)) s

/-- The first PSN the peer has not acknowledged. -/
def RPort.firstOpen (x : RPort) : Nat := match x.puts with | (k, _) :: _ => k | [] => x.psnTx

/-- The hub requests of the operations outstanding on a port. -/
def RPort.ops (x : RPort) : List Pkt := (x.gets.map GetOut.pkt).eraseDups ++ x.puts.map Prod.snd

/-- Answer the operations outstanding on a port, with 0x07 for the one that timed out (14 R510, R513). -/
def answerOps (x : RPort) (late : Option (Nat × Nat)) (s : State) : State :=
  x.ops.foldl (fun st p =>
    ranoaErr p (if late == some (p.src, p.tid) then 7 else 6) st) s

/-- A port without any stream: nothing outstanding, nothing waiting (14 R497, R510). -/
def RPort.idle (x : RPort) : RPort :=
  { x with puts := [], gets := [], wait := [], replay := [], resends := 0, ctl := [], rxWait := [], rxGets := [] }

/-- Packets of an ended stream keep their order of counting among themselves, apart from the next stream's. -/
def closeStream (n : Nat) (s : State) : State :=
  let k := n + 8 * (s.hif.placeNext + 1)
  s.withCounted (s.counted.map (fun c => match c.window with
    | some (p, j) => if p = n then { c with window := some (k, j) } else c
    | none => c))

/-- A port is lost (14 R510): stopped, its operations answered, the cut PSN recorded, an event. Its lanes are tried again when it trains
(R489, R496, R512). -/
def losePort (n : Nat) (late : Option (Nat × Nat)) (s : State) : State :=
  let x := s.rportOf n
  if x.state != 1 && x.state != 2 then s
  else
    let s1 := s.updRport n (fun y =>
      { y.idle with state := 3, lanes := 0, badTx := [], badRx := [], losses := satAdd 0xFFFF y.losses 1, cut := x.firstOpen % 2 ^ 48 })
    post (ev 0x50 (some (rDie n)) n [x.firstOpen % 2 ^ 48]) (answerOps x late (closeStream n s1))

/-- Resend from the first packet not acknowledged, a HELLO of a port in training too; 8 consecutive resends of one lose the port (14
R494). -/
def rResend (n : Nat) (s : State) : State :=
  let x := s.rportOf n
  if x.replay.isEmpty || (x.state != 1 && x.state != 2) then s
  else
    let s1 := s.updRport n (fun y => { y with resends := y.resends + 1, replays := satAdd 0xFFFF y.replays 1 })
    if 8 ≤ x.resends + 1 then losePort n none s1 else s1

/-- RANOA_LINK_NAK (14 R494). -/
def execRanoaLinkNak (port : Nat) (s : State) : Res := .next (rResend port s)
/-- RANOA_ACK_OVERDUE (14 R494). -/
def execRanoaAckOverdue (port : Nat) (s : State) : Res := .next (rResend port s)
/-- RANOA_SILENCE_TIMEOUT (14 R495). -/
def execRanoaSilenceTimeout (port : Nat) (s : State) : Res := .next (losePort port none s)

/-- RANOA_OP_TIMEOUT (14 R513): the oldest operation ends with reason 0x07 and the port is lost. -/
def execRanoaOpTimeout (port : Nat) (s : State) : Res :=
  let x := s.rportOf port
  .next (if x.ops.isEmpty then s
    else
      let late := (s.hub.outst.find? (fun o => x.ops.any (fun p => p.src == o.src && p.tid == o.tid))).map (fun o => (o.src, o.tid))
      losePort port late s)

/-- Lanes a port can use: 8, or a group of 4 without a failed lane (14 R489). -/
def RPort.usable (x : RPort) : Nat :=
  let bad := x.badTx ++ x.badRx
  if bad.isEmpty then 8 else if bad.all (fun l => decide (4 ≤ l)) || bad.all (fun l => decide (l < 4)) then 4 else 0

/-- The HELLO of a port (14 R496). -/
def helloPkt (s : State) (n lanes : Nat) : RPkt :=
  ⟨.hello, false, 0, 0, 0, 0, 0, leBytes 8 s.glb.serial.toNat ++ leBytes 1 n ++ leBytes 7 lanes, []⟩

/-- A port trains: its link starts anew and it sends HELLO, ahead of which nothing waits (14 R496). -/
def trainPort (n : Nat) (s : State) : State :=
  sendR n (helloPkt s n (s.rportOf n).usable) (s.updRport n (fun x =>
    { x with state := 1, lanes := 0, lseq := 0, rxSeq := 0, replay := [], resends := 0, cred := rCredits, ctl := [], wait := [] }))

/-- RANOA_LIGHT_DETECT (14 R496, R512): both ends have light, so a port that is down or lost trains. -/
def execRanoaLightDetect (port : Nat) (s : State) : Res :=
  let x := s.rportOf port
  .next (if 8 ≤ port || (x.state != 0 && x.state != 3) || !s.boot.rail || s.siteFailed (rDie port) || x.usable == 0 then s
    else trainPort port s)

/-- HELLO (14 R496, R497): the peer's HELLO has come: the port is up, with PSNs from 0. What a stream from before had
outstanding is not resent. -/
def execHello (port serial peerPort lanes : Nat) (s : State) : Res :=
  let x := s.rportOf port
  .next (if x.state != 1 then s
    else
      let n := min x.usable lanes
      let s1 := answerOps x none (closeStream port (rTake port .hello s))
      let s2 := s1.updRport port (fun y =>
        { y with state := 2, lanes := n, peerPort := peerPort % 8, peerSerial := BitVec.ofNat 64 serial, psnTx := 0, psnRx := 0
                 ackSent := 0, puts := [], gets := [], rxWait := [], rxGets := [], wait := [] })
      post (ev 0x51 (some (rDie port)) (port + at_ n 8) []) s2)

/-- RANOA_LANE_FAILURE (14 R489): both sides retrain to a group of 4 good lanes, or the port is lost. -/
def execRanoaLaneFailure (port lane : Nat) (tx : Bool) (s : State) : Res :=
  let s1 := s.updRport port (fun x => if tx then { x with badTx := ins lane x.badTx } else { x with badRx := ins lane x.badRx })
  let x := s1.rportOf port
  .next (if 8 ≤ lane then s
    else if x.state != 1 && x.state != 2 then s1
    else if x.usable = 0 then losePort port none s1 else trainPort port s1)

/-! ## The sending side -/

/-- The parts of a read that its GET_REQs cover: each lies in at most 16 whole 16-byte units (14 R507). -/
def getCuts (off len : Nat) : List (Nat × Nat) :=
  let n := min len (256 - off % 16)
  if n < len then [(off, n), (off + n, len - n)] else [(off, n)]

/-- Send the GET_REQ of one part of a read. TIDs count from 1 (log 42). -/
def getSend (n : Nat) (p : Pkt) (c : Nat × Nat) (s : State) : State :=
  let tid := (s.rportOf n).nextTid % (2 ^ 32 - 1) + 1
  sendR n ⟨.getReq, false, 0, tid, 0, c.1 / 16 * 16, max 1 (ceilDiv (c.1 % 16 + c.2) 16), [], []⟩
    (s.updRport n (fun y => { y with nextTid := tid, gets := y.gets ++ [⟨tid, p, c.1, c.2, none⟩] }))

/-- A hub request reaches the Ranoa die of its address (14 R499, R507, R510; 07 R245): a PUT takes the port's next PSN, a
read becomes GET_REQs of the 16-byte units that hold its bytes. -/
def ranoaArrive (p : Pkt) (s : State) : State :=
  match s.zone p.addr with
  | .ranoa n =>
    let x := s.rportOf n
    let off := p.addr % 2 ^ 44
    if rDie n != p.dst then send (deadAnswer p 0x03) s
    else match p.op with
      | .read | .narrowRead =>
        if x.state != 2 then ranoaErr p 8 s
        else
          let a := if p.op = .narrowRead then off / 32 * 32 else off
          let len := if p.op = .narrowRead then 32 else p.rdLen
          (getCuts a len).foldl (fun st c => getSend n p c st) s
      | .write | .writeMasked =>
        if x.state != 2 then ranoaErr p 8 s
        else
          let op := if p.op = .write then ROp.put else .putMasked
          sendR n ⟨op, p.poison, 0, 0, x.psnTx, off, 0, p.payload, p.checks⟩
            (s.updRport n (fun y => { y with psnTx := (x.psnTx + 1) % 2 ^ 48, puts := y.puts ++ [(x.psnTx, p)] }))
      | _ => send (deadAnswer p 0x04) s
  | _ => send (deadAnswer p 0x04) s

/-- Do the check words a packet carries match its sectors (14 R503)? The sectors that do not. -/
def badSectors (payload : List Byte) (checks : List (BitVec 32)) : List Nat :=
  (List.range (payload.length / 64)).filter (fun i => checks[i]? != some (crc32c ((payload.drop (64 * i)).take 64)))

/-- CHECKWORD at a Ranoa arrival, once for each sector (16 R553). -/
def rCheckEvents (port : Nat) (addrs : List Nat) (s : State) : State :=
  addrs.foldl (fun st a => evCheckword 4 false (rDie port) a st) s

/-- Is it a GET_REQ of a hub read? -/
def GetOut.isOf (g : GetOut) (p : Pkt) : Bool := g.pkt.src == p.src && g.pkt.tid == p.tid

/-- GET_DATA (14 R503, R507): the wanted bytes are kept, poisoned where the peer or the check words say so, and the extra ones discarded;
once every part of the read has come its data goes to its hub requester. -/
def execGetData (port : Nat) (r : RPkt) (s : State) : Res :=
  let x := s.rportOf port
  .next (if x.state != 2 then s
    else match x.gets.find? (fun g => g.tid == r.tid && g.data.isNone) with
      | none => rTake port .getData s
      | some g =>
        let bad := badSectors r.payload r.checks
        let s1 := rCheckEvents port (bad.map (fun i => g.pkt.addr / 2 ^ 44 * 2 ^ 44 + g.off / 16 * 16 + 64 * i)) (rTake port .getData s)
        let data := (r.payload.drop (g.off % 16) ++ List.replicate g.len 0#8).take g.len
        let gets := x.gets.map (fun h => if h.tid == r.tid then { h with data := some (data, r.poison || !bad.isEmpty) } else h)
        let parts := (gets.filter (fun h => h.isOf g.pkt)).map GetOut.data
        if parts.all Option.isSome then
          rGo port (respond .respData g.pkt 0 (parts.any (fun d => d.any Prod.snd)) (parts.flatMap (fun d => (d.map Prod.fst).getD []))
            (s1.updRport port (fun y => { y with gets := gets.filter (fun h => !h.isOf g.pkt) })))
        else rGo port (s1.updRport port (fun y => { y with gets := gets })))

/-- PUT_ACK (14 R506): the hub writes whose packets it covers are acknowledged. -/
def execPutAck (port : Nat) (r : RPkt) (s : State) : Res :=
  let x := s.rportOf port
  .next (if x.state != 2 then s
    else
      let done := x.puts.filter (fun e => decide (e.1 < r.psn))
      let s1 := (rTake port .putAck s).updRport port (fun y => { y with puts := y.puts.filter (fun e => !decide (e.1 < r.psn)) })
      done.foldl (fun st e => respond .respAck e.2 0 false [] st) s1)

/-- ERR (14 R509): the requester of the GET or PUT it names is answered with its reason; the other part of a GET is wanted no more. A TID
of 0 names a PUT (log 42). -/
def execErr (port : Nat) (r : RPkt) (s : State) : Res :=
  let x := s.rportOf port
  .next (if x.state != 2 then s
    else if r.tid != 0 then
      match x.gets.find? (fun g => g.tid == r.tid && g.data.isNone) with
      | none => rTake port .err s
      | some g =>
        rGo port (ranoaErr g.pkt r.status ((rTake port .err s).updRport port (fun y => { y with gets := y.gets.filter (fun h => !h.isOf g.pkt) })))
    else match x.puts.find? (fun e => e.1 == r.psn) with
      | none => rTake port .err s
      | some (_, p) => ranoaErr p r.status ((rTake port .err s).updRport port (fun y => { y with puts := y.puts.filter (fun e => e.1 != r.psn) })))

/-! ## Windows -/

/-- An entry of the window table (14 R519). -/
structure RWin where
  valid : Bool
  put : Bool
  get : Bool
  off : Nat
  dva : Nat
  size : Nat
  ctx : Nat
  smode : Nat
  sync : Nat
  deriving DecidableEq, Repr

/-- Read an entry. -/
def State.rwinAt (s : State) (i : Nat) : RWin :=
  let w0 := s.reg (rwin i)
  let w2 := s.reg (rwin i + 0x10)
  ⟨fld w0 63 63 == 1, fld w0 61 61 == 1, fld w0 60 60 == 1, fld w0 43 16 * 0x10000, s.regFld (rwin i + 8) 54 16 * 0x10000,
    (fld w2 63 36 + 1) * 0x10000, fld w2 35 26, fld w2 25 24, fld w2 23 11⟩

/-- The numbers of a port's valid entries. -/
def State.rwinNums (s : State) (port : Nat) : List Nat :=
  ((s.regs.filter (fun r => decide (rwin (256 * port) ≤ r.1) && decide (r.1 < rwin (256 * port + 256)) && (r.1 - 0x0801000) % 32 == 0
    && bitOf r.2.toNat 63)).map (fun r => (r.1 - 0x0801000) / 32))

/-- The entry that takes a packet, or the reason to refuse it (14 R500, R509). -/
def State.rwinFor (s : State) (port off len : Nat) (write : Bool) : Sum Nat Nat :=
  match (s.rwinNums port).find? (fun i => let w := s.rwinAt i; decide (w.off ≤ off) && decide (off < w.off + w.size)) with
  | none => .inl 1
  | some i =>
    let w := s.rwinAt i
    if w.off + w.size < off + len then .inl 3
    else if !(if write then w.put else w.get) then .inl 2
    else .inr i

/-- Log a refused packet (14 R517). -/
def rLog (port reason off : Nat) (s : State) : State :=
  let r := s.rna
  let r1 := if r.captured then r else { r with logPort := port % 8, logReason := reason, logOff := off, captured := true }
  s.withRna { r1 with dropped := satAdd 0xFFFFFFFF r.dropped 1, since := satAdd 0xFFFFFFFF r.since 1 }

/-- Refuse an incoming packet: ERR to the peer, and the log (14 R500, R509). -/
def rRefuse (port reason off tid psn : Nat) (s : State) : State :=
  sendR port (rShort .err reason tid psn) (rLog port reason off s)

/-- A fault record of a window access (14 R502, 10 R348). -/
def rFault (ctx dva reason level entry : Nat) (write : Bool) (s : State) : State :=
  faultRecord ctx (faultBytes ctx dva reason level false write 0xFFFF 0xFFFF 0 entry) s

/-- Translate a window address (14 R502): the device address of a TYPE 2 page in direct HBM or pool scratch. None for any
other page, for an error answer of a table's home, or for a fault, which is recorded. -/
def ranoaXlt (die ctx dva : Nat) (write : Bool) (s : State) : Option Nat × State :=
  let page := dva / 0x10000
  let use := fun (e : TlbEnt) (st : State) =>
    match e.ans dva write with
    | .hit (.dev a) => (match st.zone a with | .direct | .scratch _ => some a | _ => none, tlbNote (.ranoa die) e st)
    | .fault r => let (lv, en) := st.leafInfo ctx dva; (none, rFault ctx dva r lv en write st)
    | _ => (none, st)
  if 2 ^ 55 ≤ dva then (none, rFault ctx dva 0x08 0 0 write s)
  else match tlbFind ctx page (s.tlbOf (.ranoa die)), tlbFind ctx page s.xlt.shared with
    | some e, _ => use e s
    | none, some e => use e (prefetchNext ctx page (s.withXlt { s.xlt with shared := sharedPut e s.xlt.shared }))
    | none, none =>
      match walkWhole ctx dva s with
      | (.fault r lv e _, s1) => (none, rFault ctx dva r lv e write s1)
      | (.error _ _, s1) => (none, s1)
      | (.leaf pages d r w _ _, s1) =>
        let ent := leafEnt ctx page pages d r w
        use ent (s1.withXlt { s1.xlt with shared := sharedPut ent s1.xlt.shared })

/-- The first page of a window access whose translation has to wait for the walker or a block (10 R331, R333, R343). -/
def State.ranoaHeld (s : State) (die ctx dva len : Nat) : Option Nat :=
  (pagesOf dva len).find? (fun p => (tlbFind ctx p (s.tlbOf (.ranoa die))).isNone
    && (s.blocked ctx p || ((tlbFind ctx p s.xlt.shared).isNone && s.walkHeld ctx p)))

/-- Translate the pieces of a window access; none when one of them has no place. -/
def ranoaPlaces (die ctx : Nat) (write : Bool) (l : List Piece) (s : State) : Option (List Piece) × State :=
  l.foldl (fun acc p =>
    match acc.1 with
    | none => acc
    | some ps =>
      let (a, st) := ranoaXlt die ctx p.dva write acc.2
      (a.map (fun a => ps ++ [{ p with dva := a }]), st)) (some [], s)

/-! ## The receiving side -/

/-- The next PSN of a port not yet counted, or not yet acknowledged for an unbound window (14 R506). -/
def State.psnCounted (s : State) (port : Nat) : Nat :=
  (s.counted.filterMap (fun c => match c.window with | some (p, k) => if p = port then some k else none | none => none)).foldl min
    (s.rportOf port).psnRx

/-- The pieces of a PUT: whole sectors, or one masked sector (14 R503). -/
def putPieces (r : RPkt) (dva : Nat) (bad : List Nat) : List Piece :=
  if r.op = .putMasked then
    let data := r.payload.take 64
    [⟨dva / 64 * 64, 64, dva, data, [crc32c data], leAt r.payload 64 8, r.poison || has 0 bad⟩]
  else
    writePieces ((cutRange 64 5 dva r.payload.length).map (fun c =>
      ⟨c.1, (r.payload.drop (c.1 - dva)).take c.2, none, r.poison || has ((c.1 - dva) / 64) bad⟩))

/-- Bytes a PUT counts (14 R505): the enabled ones of a masked packet. -/
def putCount (r : RPkt) : Nat :=
  if r.op = .putMasked then ((List.range 64).filter (fun i => bitOf (leAt r.payload 64 8) i)).length else r.payload.length

/-- A PUT or PUT_MASKED arrives (14 R500 to R505): refused, or sent to its homes. While its translation has to wait the die does not
take it (log 56). -/
def putArrive (port : Nat) (r : RPkt) (s : State) : State :=
  let x := s.rportOf port
  let len := if r.op = .putMasked then 64 else r.payload.length
  let seen := fun (st : State) => (rTake port r.op st).updRport port (fun y => { y with psnRx := (r.psn + 1) % 2 ^ 48 })
  if x.state != 2 || decide (8 ≤ port) then s
  else match s.rwinFor port r.offset len true with
    | .inl reason => rRefuse port reason r.offset 0 r.psn (seen s)
    | .inr i =>
      let w := s.rwinAt i
      let dva := w.dva + (r.offset - w.off)
      if (s.ranoaHeld (rDie port - 58) w.ctx dva len).isSome then s
      else
        let payload := if r.op = .putMasked then r.payload.take 64 else r.payload
        let bad := badSectors payload r.checks
        let (ps, s1) := ranoaPlaces (rDie port - 58) w.ctx true (putPieces r dva bad) (seen s)
        match ps with
        | none => rRefuse port 4 r.offset 0 r.psn s1
        | some ps =>
          let s2 := rCheckEvents port (bad.map (fun k => ((ps.head?).map Piece.dva).getD 0 + 64 * k)) s1
          let n := s2.hif.placeNext
          let obj := if w.smode = 0 then none else some w.sync
          let add := if w.smode = 1 then putCount r else 1
          let s3 := (s2.withHif { s2.hif with placeNext := n + 1 }).withCounted
            (s2.counted ++ [⟨n, obj, add, ps.length, none, some (port, r.psn), some i⟩])
          ps.foldl (fun st q => placeSendAs (r.op == .putMasked || q.mask != 0) (rDie port) n q st) s3

/-- RANOA_PUT (14 R505). -/
def execRanoaPut (port : Nat) (r : RPkt) (s : State) : Res := .next (putArrive port { r with op := .put } s)
/-- RANOA_PUT_MASKED (14 R503, R505). -/
def execRanoaPutMasked (port : Nat) (r : RPkt) (s : State) : Res := .next (putArrive port { r with op := .putMasked } s)

/-- Serve a GET_REQ: its sectors are read at their homes (14 R500, R502, R507). One whose translation has to wait joins the walk
(10 R333). -/
def getServe (port psn : Nat) (r : RPkt) (s : State) : State :=
  let len := 16 * r.rdLen
  match s.rwinFor port r.offset len false with
  | .inl reason => rRefuse port reason r.offset r.tid 0 (rFree port .getReq s)
  | .inr i =>
    let w := s.rwinAt i
    let dva := w.dva + (r.offset - w.off)
    match s.ranoaHeld (rDie port - 58) w.ctx dva len with
    | some p =>
      startWalk w.ctx p [⟨.ranoa port, p * 0x10000, false⟩] (s.updRport port (fun y => { y with rxWait := y.rxWait ++ [(psn, r)] }))
    | none =>
      let lo := dva / 64 * 64
      let ps := readPieces dva len
      let (places, s1) := ranoaPlaces (rDie port - 58) w.ctx false ps (rFree port .getReq s)
      match places with
      | none => rRefuse port 4 r.offset r.tid 0 s1
      | some places =>
        let s2 := s1.updRport port (fun y => { y with rxGets := y.rxGets ++ [⟨r.tid, dva, len, ps.length, []⟩] })
        (ps.zip places).foldl (fun st q => requestAt .read (rDie port) q.2.dva false [] q.1.len (.ranoaGet port r.tid (q.1.dva - lo)) st) s2

/-- GET_REQs whose earlier PUTs are all counted or refused are served (14 R508). -/
def getsGo (port : Nat) (s : State) : State :=
  let c := s.psnCounted port
  let (go, stay) := (s.rportOf port).rxWait.partition (fun g => decide (g.1 ≤ c))
  go.foldl (fun st g => getServe port g.1 g.2 st) (s.updRport port (fun y => { y with rxWait := stay }))

/-- GET_REQ, of 1 to 16 units (14 R491, R508): it waits for every PUT that arrived before it. -/
def execGetReq (port : Nat) (r : RPkt) (s : State) : Res :=
  let x := s.rportOf port
  .next (if x.state != 2 || decide (8 ≤ port) || r.rdLen == 0 || decide (16 < r.rdLen) then s
    else getsGo port ((rAck port s).updRport port (fun y => { y with rxWait := y.rxWait ++ [(x.psnRx, r)] })))

/-- A home answers a read of a GET: once all its parts are there, GET_DATA goes to the peer; an error ends it with ERR
(14 R507, R509). -/
def getAnswer (port tid off : Nat) (data : List Byte) (poison err : Bool) (s : State) : State :=
  match (s.rportOf port).rxGets.find? (fun g => g.tid == tid) with
  | none => s
  | some g =>
    let drop := fun (st : State) => st.updRport port (fun y => { y with rxGets := y.rxGets.filter (fun h => h.tid != tid) })
    let got := g.got ++ [(off, data, poison)]
    if err then rRefuse port 4 0 tid 0 (drop s)
    else if got.length < g.parts then
      s.updRport port (fun y => { y with rxGets := y.rxGets.map (fun h => if h.tid == tid then { h with got := got } else h) })
    else
      let all := (sortBy (fun c => c.1) got).flatMap (fun c => c.2.1)
      let pay := (all.drop (g.dva % 64)).take g.len
      sendR port ⟨.getData, got.any (fun c => c.2.2), 0, tid, 0, 0, 0, pay, sectorChecks 4 pay⟩ (drop s)

/-- PUT_ACK_SEND (14 R506). -/
def execPutAckSend (port : Nat) (s : State) : Res :=
  let c := s.psnCounted port
  .next (if (s.rportOf port).state != 2 || c == (s.rportOf port).ackSent then s
    else sendR port (rShort .putAck 0 0 c) (s.updRport port (fun y => { y with ackSent := c })))

/-! ## Arrival counting -/

/-- May a counted write be counted now? Every acknowledgement has arrived, and for a Ranoa window every earlier
accepted packet of its port is counted (07 R228, 14 R505). -/
def State.countable (s : State) (c : Counted) : Bool :=
  c.left == 0 && match c.window with
    | none => true
    | some (p, k) => s.counted.all (fun d => match d.window with
        | none => true
        | some (q, j) => !(q == p && decide (j < k)))

/-- ARRIVAL_COUNT_ADD: the add of one acknowledged write (07 R228, 02 R43), which the die that has the acknowledgements, the host die or a Ranoa
die, sends over its link (R35, 07 R217); GET_REQs that
waited for it go on (14 R508). -/
def execArrivalCountAdd (id : Nat) (s : State) : Res :=
  .next (match s.counted.find? (fun c => c.id == id) with
    | none => s
    | some c =>
      let src := match c.window with | some (p, _) => rDie p | none => 57
      if s.countable c && (match c.obj with | some o => s.syncReady src o | none => true) then
        let s1 := s.withCounted (s.counted.filter (fun d => d.id != id))
        let s2 := match c.obj with
          | some o => syncSendAdd src o (BitVec.ofNat 64 c.add) .plain s1
          | none => s1
        match c.window with
        | some (p, _) => if p < 8 then getsGo p s2 else s2
        | none => s2
      else s)

/-- A home acknowledges a piece of a counted write (12 R433, 14 R505): an unbound one needs no add once all are. -/
def countedAck (n : Nat) (s : State) : State :=
  match s.counted.find? (fun c => c.id == n) with
  | none => s
  | some c =>
    let s1 := s.withCounted (s.counted.map (fun d => if d.id = n then { d with left := d.left - 1 } else d))
    if c.obj.isNone ∧ c.left ≤ 1 then
      let s2 := s1.withCounted (s1.counted.filter (fun d => d.id != n))
      match c.window with
      | some (p, _) => if p < 8 then getsGo p s2 else s2
      | none => s2
    else s1

/-- A home answers a piece of a counted write with an error: the write is never counted, and a peer gets ERR (14 R505,
R509). -/
def countedErr (n : Nat) (s : State) : State :=
  match s.counted.find? (fun c => c.id == n) with
  | none => s
  | some c =>
    let s1 := s.withCounted (s.counted.filter (fun d => d.id != n))
    match c.window with
    | some (p, k) => if p < 8 then getsGo p (rRefuse p 4 0 0 k s1) else s1
    | none => s1

/-! ## Registers -/

/-- May an entry become valid (14 R501)? -/
def State.rwinOk (s : State) (i : Nat) (w : RWin) : Bool :=
  decide (w.off + w.size ≤ 2 ^ 44) && w.smode != 3 && (w.smode == 0 || s.ownedBy w.sync w.ctx)
    && (s.rwinNums (i / 256)).all (fun j => j == i || (let x := s.rwinAt j
      decide (x.off + x.size ≤ w.off) || decide (w.off + w.size ≤ x.off)))

/-- RNA_WOFF_VALID_SET (14 R501, R519): the register is written with VALID unless the entry is in use. -/
def execRnaWoffValidSet (who : Agent) (i : Nat) (v : Word) (s : State) : Res :=
  .next (if 2048 ≤ i then s
    else pfWrite who (rwin i) (fun s =>
      if (s.rwinAt i).valid then s
      else
        let body := v &&& 0x30000FFFFFFF0000#64
        let s1 := s.setReg (rwin i) body
        if s1.rwinOk i (s1.rwinAt i) then s1.setReg (rwin i) (body ||| 0x8000000000000000#64)
        else setupRefused who (rwin i) s1) s)

/-- Are accepted writes of an entry not counted yet (14 R504)? -/
def State.rwinBusy (s : State) (i : Nat) : Bool := s.counted.any (fun c => c.entry == some i)

/-- RNA_WOFF_VALID_CLEAR (14 R504). -/
def execRnaWoffValidClear (who : Agent) (i : Nat) (s : State) : Res :=
  .next (if 2048 ≤ i then s
    else pfWrite who (rwin i) (fun s =>
      if (s.rwinAt i).valid then
        let s1 := s.setReg (rwin i) (s.reg (rwin i) &&& 0x7FFFFFFFFFFFFFFF#64)
        if s1.rwinBusy i then s1.withRna { s1.rna with drain := ins i s1.rna.drain } else s1
      else s) s)

/-- RANOA_WINDOW_DRAIN_DONE (14 R504). -/
def execRanoaWindowDrainDone (i : Nat) (s : State) : Res :=
  .next (if s.rwinBusy i then s else s.withRna { s.rna with drain := del i s.rna.drain })

/-- RNA_LOG (14 R517). -/
def State.rnaLog (s : State) : Word :=
  BitVec.ofNat 64 (at_ s.rna.dropped 32 + at_ s.rna.logPort 16 + s.rna.logReason)

/-- RNA_LOG_READ (14 R517): DROPPED clears, the capture is armed again, at most one event. A VF reads 0 (18 R613). -/
def execRnaLogRead (who : Agent) (s : State) : Res :=
  let off := 0x0800010
  .next (if s.hostGate who && isPf0OrCore who then
      let n := s.rna.since
      let s1 := reply who off s.rnaLog s
      let s2 := s1.withRna { s1.rna with dropped := 0, captured := false, since := 0 }
      if n = 0 then s2 else post (ev 0x52 none n []) s2
    else shutRead who off s)

/-- RNA_PERRn (14 R518). -/
def State.rnaPerr (s : State) (n : Nat) : Word :=
  let x := s.rportOf n
  BitVec.ofNat 64 (at_ x.fecCorr 48 + at_ x.fecUncorr 32 + at_ x.replays 16 + x.losses)

/-- RNA_PERR_READ (14 R518, 18 R613): the counters clear. -/
def execRnaPerrRead (who : Agent) (port : Nat) (s : State) : Res :=
  let n := port % 8
  let off := 0x0800110 + 0x20 * n
  .next (if s.hostGate who then
      (reply who off (s.rnaPerr n) s).updRport n (fun x => { x with fecCorr := 0, fecUncorr := 0, replays := 0, losses := 0 })
    else shutRead who off s)

/-- A Ranoa die is lost (01 R31, R34): its four ports are lost and stay down; the die is fenced and failed. -/
def ranoaFails (die cause : Nat) (s : State) : State :=
  if 2 ≤ die ∨ s.siteFailed (58 + die) then s
    else
      let ports := (List.range 4).map (fun i => 4 * die + i)
      let s1 := ports.foldl (fun st n => (losePort n none st).updRport n (fun x => { x with state := 0, lanes := 0 })) s
      dieFailed (58 + die) cause s1

/-- RANOA_DIE_FAILURE (01 R31, R34). -/
def execRanoaDieFailure (die : Nat) (s : State) : Res := .next (ranoaFails die 4 s)

end Sys2Proof.Machine
end

