-- ==== Sys2Proof/Machine/Pool.lean ====
section
/-!
DEFINITION. The pool dies: the memory-side cache, its hand-backs, dirty marks and replacement, the scratch part, and
failure and recovery of a pool die (09 R285 to R298, R318).
-/
namespace Sys2Proof.Machine

/-! ## Lines -/

/-- The line of a sector. -/
def PoolDie.lineOf (x : PoolDie) (n : Nat) : PLine := look {} x.lines n
/-- The set of a sector in a die: one of 262,144 for each step of its cache (09 R287). -/
def PoolDie.setOf (x : PoolDie) (n : Nat) : Nat := Config.poolSet n % max 1 (262144 * x.active)
/-- The sectors whose lines are in the set of a sector. -/
def PoolDie.inSet (x : PoolDie) (n : Nat) : List Nat := (x.lines.map Prod.fst).filter (fun k => x.setOf k == x.setOf n)

/-- Give one bit of a number a value. -/
def putBit (t i : Nat) (v : Bool) : Nat := if bitOf t i == v then t else Nat.xor t (2 ^ i)

/-- The replacement bits of a set of 16 ways after the use of one: a binary tree, in which each node on the way's path points away
from it. PRESUMED (log 13): R294 says pseudo-LRU and not which; this is its usual form. -/
def treeUse (t way : Nat) : Nat :=
  (List.range 4).foldl (fun t lv => putBit t (2 ^ lv - 1 + way / 2 ^ (4 - lv)) (way / 2 ^ (3 - lv) % 2 == 0)) t
/-- The way that the replacement bits of a set point to. -/
def treeVictim (t : Nat) : Nat := (List.range 4).foldl (fun w lv => 2 * w + b2n (bitOf t (2 ^ lv - 1 + w))) 0

/-- The way of a sector's line, or the lowest one free in its set. -/
def PoolDie.wayOf (x : PoolDie) (n : Nat) : Nat :=
  if (x.lineOf n).st != .i then (x.lineOf n).way
  else
    let taken := (x.inSet n).map (fun k => (x.lineOf k).way)
    ((List.range 16).find? (fun w => !has w taken)).getD 0

/-- A line is used: its way is the most recent of its set (09 R294). -/
def useLine (d n : Nat) (s : State) : State :=
  s.updPool d (fun x => if (x.lineOf n).st = .i then x else { x with tree := upd 0 x.tree (x.setOf n) (fun t => treeUse t (x.lineOf n).way) })

/-- Set the line of a sector: it keeps its way, or takes a free one. -/
def setLine (d n : Nat) (l : PLine) (s : State) : State :=
  if l.st = .i then s.updPool d (fun x => { x with lines := put {} x.lines n {} })
  else useLine d n (s.updPool d (fun x => { x with lines := put {} x.lines n { l with way := x.wayOf n } }))

/-- Can the pool die and the home of a sector reach each other: the hub carries all that passes between them (02 R35)? -/
def State.poolWay (s : State) (die sector : Nat) : Bool := s.portUp (49 + die) && s.portUp (33 + s.unitStack (unitOfSector sector))

/-- Write a dirty line back to the stack; it is then clean (09 R289, R294). A tier part it touches is dirty, and until that part is
recorded open the write-back is not acknowledged and the line stays dirty (09 R303). -/
def writeBackLine (d n : Nat) (s : State) : State :=
  let l := (s.poolOf d).lineOf n
  if l.st = .d then
    let s1 := touchFrame (64 * n) true (storeSector n l.data (some (l.ck ^^^ crc32c l.data)) l.poison s)
    if (openWait (64 * n) s1).isSome then s1 else clearMark d (unitOfSector n) (setLine d n { l with st := .v } s1)
  else s

/-- The home recalls every core copy of a sector: an M holder's data goes to memory (09 R294, 11 R378). -/
def fetchBack (n : Nat) (s : State) : State :=
  let s1 := match s.dirtyDie n with
    | some l => touchFrame (64 * n) true (storeSector n l.data none l.poison s)
    | none => s
  dropCopies n s1

/-- Evict a line: a dirty one is written back, a held one is recalled (09 R294). One whose write-back is not acknowledged stays. -/
def evictLine (d n : Nat) (s : State) : State :=
  match ((s.poolOf d).lineOf n).st with
  | .h => setLine d n {} (fetchBack n s)
  | .d =>
    let s1 := writeBackLine d n s
    if ((s1.poolOf d).lineOf n).st = .d then s1 else setLine d n {} s1
  | _ => setLine d n {} s

/-- Can a line's data or its cores' copies come home: the way to the home, and of a held line the core dies' links (02 R35)? -/
def State.lineFree (s : State) (d k : Nat) : Bool :=
  match ((s.poolOf d).lineOf k).st with
  | .d => s.poolWay d k
  | .h =>
    let h := 33 + s.unitStack (unitOfSector k)
    s.poolWay d k && !(s.homeOf h).busyAny [k] && !(s.homeOf h).queue.any (fun q => has k (accessSecs q.1)) && !s.comingFrom d h k
    && (match (s.homeOf h).ent k with | some e => e.holders.all (fun c => s.portUp (53 + c)) | none => true)
  | _ => true

/-- The lines of a set that could be replaced: those no operation is under way on, and none that the access itself names. -/
def State.victims (s : State) (d n : Nat) (own : List Nat) : List Nat :=
  let x := s.poolOf d
  (x.inSet n).filter (fun k =>
    !has k own && !has k x.filling && !has k x.handing && !x.wait.any (fun q => has k (accessSecs q.1))
    && !x.away.any (fun a => has k a.2.2) && s.lineFree d k)

/-- The ways of a sector's set that are taken, by lines, by fills under way, and by sectors that are to have room. -/
def PoolDie.load (x : PoolDie) (plan : List Nat) (n : Nat) : Nat :=
  (((x.lines.map Prod.fst ++ x.filling ++ plan).eraseDups).filter (fun k => x.setOf k == x.setOf n)).length

/-- Make room for a line in its set of 16 ways, beside the sectors of `plan`: the line that the replacement bits point to goes, or,
while that one cannot, the first of the set that can (09 R287, R292, R294; log 13). Whether there is room now. -/
def makeRoom (d n : Nat) (own plan : List Nat) (s : State) : State × Bool :=
  let x := s.poolOf d
  if (x.lineOf n).st != .i || has n x.filling || decide (x.load plan n < 16) then (s, true)
  else
    let v := s.victims d n own
    let way := treeVictim (look 0 x.tree (x.setOf n))
    match (v.find? (fun k => (x.lineOf k).way == way)).orElse (fun _ => v.head?) with
    | some k =>
      let s1 := evictLine d k s
      (s1, ((s1.poolOf d).lineOf k).st == .i)
    | none => (s, false)

/-- Make room for the sectors of an access, one after another, in `plan` those that have it. Whether all have. -/
def roomFor (d : Nat) (own : List Nat) : List Nat → List Nat → State → State × Bool
  | _, [], s => (s, true)
  | plan, n :: l, s =>
    match makeRoom d n own plan s with
    | (s1, true) => roomFor d own (plan ++ [n]) l s1
    | (s1, false) => (s1, false)

/-- Write back every dirty line of a unit, while the way to its home carries packets. -/
def cleanUnit (d u : Nat) (s : State) : State :=
  ((s.poolOf d).lines.filter (fun l => unitOfSector l.1 == u && l.2.st == .d)).foldl (fun st l =>
    if st.poolWay d l.1 then writeBackLine d l.1 st else st) s

/-! ## Serving -/

/-- The SRAM returns a sector it cannot correct, or whose check word fails: stored poisoned, counted and reported (09 R285; 16 R553,
R560). -/
def poolCodes (d : Nat) (e : DramErr) (secs : List Nat) (s : State) : State :=
  let bad := fun (st : State) (n : Nat) =>
    let l := (st.poolOf d).lineOf n
    if l.poison then st
    else post (ev 0x02 (some (49 + d)) 0 [64 * n]) (poolUncorr d (setLine d n { l with poison := true, ck := 0#32 } st))
  let s1 := match e, secs with
    | .uncorrectable, n :: _ => bad s n
    | _, _ => s
  secs.foldl (fun st n => if ((st.poolOf d).lineOf n).ck != 0#32 then bad st n else st) s1

/-- The sectors of an access that the pool serves: of a gather, none of a unit lost with its channel (08 R256). -/
def State.poolSecs (s : State) (p : Pkt) : List Nat :=
  if isGather p then (accessSecs p).filter (fun n => !s.lostUnit (s.phys (64 * n) / 4096)) else accessSecs p

/-- A read of present lines: they are used, and so is a tier frame they belong to (09 R289, R294, R304). A row piece of a lost unit is
all 0xFF, with reason 0x04 (08 R256). -/
def poolRead (d : Nat) (p : Pkt) (e : DramErr) (s : State) : State :=
  let s1 := poolCodes d e (s.poolSecs p) ((s.poolSecs p).foldl (fun st n => useLine d n st) s)
  if isGather p then
    let len := leAt p.payload 4 2
    let s2 := (gatherRows p).foldl (fun st a => touchFrame a false st) s1
    sendPieces p ((gatherRows p).map (fun a =>
      if s2.lostUnit (s2.phys a / 4096) then ⟨List.replicate len 0xFF#8, true, 0x04⟩
      else ⟨s2.cohRead a len, (s2.cohPoison a len).isSome, 0⟩)) s2
  else
    let a := if p.op = .narrowRead then p.addr / 32 * 32 else p.addr
    let s2 := touchFrame p.addr false s1
    respond .respData p 0 (s2.cohPoison a (accessLen p)).isSome (s2.cohRead a (accessLen p)) s2

/-- The sectors of a write packet as lines in state D, with the check words and the poison it carries. -/
def poolPut (d : Nat) (poison : Bool) : Nat → Nat → List Byte → List (BitVec 32) → State → State
  | 0, _, _, _, s => s
  | k + 1, n, bs, ck, s =>
    let data := bs.take 64
    let e := match ck.head? with | some c => c ^^^ crc32c data | none => 0#32
    poolPut d poison k (n + 1) (bs.drop 64) ck.tail (setLine d n ⟨.d, data, poison, e, 0⟩ s)

/-- A whole-sector write: the lines become D and the write is acknowledged; a tier frame they belong to is used (09 R289, R290,
R304). -/
def poolWrite (d : Nat) (p : Pkt) (s : State) : State :=
  let s1 := touchFrame p.addr false (poolPut d p.poison (p.payload.length / 64) (sectorOf p.addr) p.payload p.checks s)
  respond .respAck p 0 false [] (notifyRings (accessSecs p) s1)

/-- A masked write of a present line: both check words are verified, the bytes merged (09 R289, 06 R194). -/
def poolMasked (d : Nat) (p : Pkt) (e : DramErr) (s : State) : State :=
  let n := sectorOf p.addr
  let mask := leAt p.payload 64 8
  if mask = 0 then respond .respAck p 0 false [] s
  else
    let s0 := match e with | .uncorrectable => poolCodes d e [n] s | _ => s
    let l := (s0.poolOf d).lineOf n
    let badIn := p.checks.head? != some (crc32c (p.payload.take 64))
    let badOld := l.ck != 0#32
    let s1' := if badIn || (badOld && !l.poison) then evCheckword 2 false (49 + d) p.addr s0 else s0
    let s1 := if badOld && !l.poison then poolUncorr d s1' else s1'
    let data := ((List.range 64).zip l.data).map (fun c => if bitOf mask c.1 then (p.payload[c.1]?).getD 0#8 else c.2)
    let s2 := touchFrame p.addr false (setLine d n ⟨.d, data, l.poison || p.poison || badIn || badOld, 0#32, 0⟩ s1)
    respond .respAck p 0 false [] (notifyRings [n] s2)

/-- Forward a packet to the home in the pool die's name (09 R289, R290). -/
def poolForward (d : Nat) (p : Pkt) (s : State) : State :=
  request { p with src := 49 + d, dst := 33 + s.stackFor (s.phys p.addr) } (.relay p.src p.tid d)
    (s.updPool d (fun x => { x with away := x.away ++ [(p.src, p.tid, accessSecs p)] }))

/-- Forwarded requests that have been answered are away no longer (09 R292). -/
def poolBack (d : Nat) (s : State) : State :=
  let open_ := fun (a : Nat × Nat × List Nat) => (s.hub.outst.map Outst.use ++ s.hub.bound.map Prod.snd).any (fun u => u == .relay a.1 a.2.1 d)
  s.updPool d (fun x => { x with away := x.away.filter open_ })

/-- A packet waits in the pool die. -/
def poolHold (d : Nat) (p : Pkt) (e : DramErr) (s : State) : State := s.updPool d (fun x => { x with wait := x.wait ++ [(p, e)] })

/-- Does the packet go to the home whatever the line's state (09 R289)? -/
def poolHandsOver (p : Pkt) : Bool := p.op == .coh || p.op == .atomic || (p.op == .engine && !isGather p)

/-- The lines of a packet go to state H and it is forwarded; a dirty line is handed back first (09 R289). -/
def poolOver (d : Nat) (p : Pkt) (e : DramErr) (s : State) : State :=
  let secs := accessSecs p
  let dirty := secs.filter (fun n => ((s.poolOf d).lineOf n).st == .d)
  if dirty.isEmpty then
    match roomFor d secs [] secs s with
    | (s1, true) => poolForward d p (secs.foldl (fun st n => setLine d n { st := .h } st) s1)
    | (s1, false) => poolHold d p e s1
  else s.updPool d (fun x => { x with handing := dirty.foldl (fun l n => ins n l) x.handing, wait := x.wait ++ [(p, e)] })

/-- The units of a write that are not marked dirty yet (09 R293). -/
def newUnits (x : PoolDie) (p : Pkt) : List Nat :=
  ((accessSecs p).map unitOfSector).filter (fun u => !has u x.marked)

/-- A write whose unit is not marked yet waits for the mark; when the table of 65,536 units is full, its oldest unit
is cleaned first, and the write waits while that one's lines are not back (09 R293). -/
def poolMark (d : Nat) (p : Pkt) (e : DramErr) (k : State → State) (s : State) : State :=
  match newUnits (s.poolOf d) p with
  | [] => k s
  | us =>
    let full := fun (st : State) =>
      decide (65536 < (us.foldl (fun l u => ins u l) (st.poolOf d).marking).length + (st.poolOf d).marked.length)
    let s1 := us.foldl (fun st _ => match (st.poolOf d).marked with
      | u :: _ => if full st then cleanUnit d u st else st
      | [] => st) s
    if full s1 then poolHold d p e s1
    else (poolHold d p e s1).updPool d (fun x => { x with marking := us.foldl (fun l u => ins u l) x.marking })

/-- A packet for a cached address (09 R289, R292): one access of a line at a time, in order of arrival; one that waits for a fill, a
hand-back, room, a mark or the answer of a forwarded one holds the later ones of its lines. A core die's write-back passes one that is
forwarded: the home may wait for it. Where the lines of one packet are in different states and one of them is H, or the packet goes to
the home anyway, the whole packet is handed over: its D lines are handed back and its other lines become H. The spec's table names one
line (log 13, DESIGN CHOICE). -/
def poolStart (d : Nat) (p : Pkt) (e : DramErr) (s : State) : State :=
  let x := s.poolOf d
  let secs := s.poolSecs p
  let busy := secs.any (fun n => has n x.filling || has n x.handing || x.wait.any (fun q => has n (accessSecs q.1))
    || (x.away.any (fun a => has n a.2.2) && !(p.op == .write && (portDie p.src).isSome)))
  if busy then poolHold d p e s
  else if poolHandsOver p || secs.any (fun n => (x.lineOf n).st == .h) then poolOver d p e s
  else
    let absent := secs.filter (fun n => (x.lineOf n).st == .i)
    match roomFor d secs [] absent s with
    | (s1, false) => poolHold d p e s1
    | (s, true) =>
    if p.op != .write && !absent.isEmpty then
      (poolHold d p e s).updPool d (fun y => { y with filling := absent.foldl (fun l n => ins n l) y.filling })
    else match p.op with
      | .write => poolMark d p e (poolWrite d p) s
      | .writeMasked => if leAt p.payload 64 8 = 0 then poolMasked d p e s else poolMark d p e (poolMasked d p e) s
      | _ => poolRead d p e s

/-- The packets that wait in a pool die are taken up again, in order. -/
def poolRetry (d : Nat) (s : State) : State :=
  (s.poolOf d).wait.foldl (fun st q => poolStart d q.1 q.2 st) (s.updPool d (fun x => { x with wait := [] }))

/-- What waits in the pools for a way, or for a part to be recorded open, is taken up again (02 R35, 09 R303). -/
def poolsGo (s : State) : State := (List.range 4).foldl (fun st d => poolRetry d st) s

/-- A packet reaches a pool die: its scratch part is a home, a cached address is checked and served (09 R287, R289, R295 to R297). One
that another die caches since N fell, or none, goes on to where the address is sent now (09 R298; log 13, DESIGN CHOICE). -/
def poolArrive (p : Pkt) (e : DramErr) (s : State) : State :=
  let d := p.dst - 49
  match s.zone p.addr with
  | .scratch _ | .poolCkpt => if p.op = .coh then cohArrive p.dst p e s else homeStart p.dst p e s
  | _ =>
    match accessErr (33 + s.stackFor (s.phys p.addr)) p s with
    | some r => refuseHome p r s
    | none => if s.cachedBy (s.phys p.addr) = some d then poolStart d p e s else redirect p s

/-! ## The rows -/

/-- POOL_FILL_DONE: the stack's sector is in the pool as V, and what waited for it goes on (09 R289). The home verifies its check
word (08 R252). -/
def execPoolFillDone (die sector : Nat) (s : State) : Res :=
  .next (if has sector (s.poolOf die).filling && s.poolWay die sector then
    let home := 33 + s.unitStack (unitOfSector sector)
    let s := if s.staleWord sector then readCodes home .none [sectorOf (s.phys (64 * sector))] s else s
    let (data, poison) := s.cohSector sector
    let ck := look 0#32 s.mem.ckErr (sectorOf (s.phys (64 * sector)))
    let s1 := s.updPool die (fun x => { x with filling := del sector x.filling })
    poolRetry die (setLine die sector ⟨.v, data, poison, ck, 0⟩ (touchFrame (64 * sector) false s1))
  else s)

/-- POOL_HANDBACK_DONE: the dirty line is back at the stack and the line is in state H (09 R289). The first write to a tier part is
acknowledged only once the part is recorded open: until then the line is written back and waits (09 R303). -/
def execPoolHandbackDone (die sector : Nat) (s : State) : Res :=
  .next (if has sector (s.poolOf die).handing && s.poolWay die sector then
    let s1 := writeBackLine die sector s
    if ((s1.poolOf die).lineOf sector).st = .d then s1
    else poolRetry die (setLine die sector { st := .h } (s1.updPool die (fun x => { x with handing := del sector x.handing })))
  else s)

/-- POOL_DIRTY_MARK_DONE: the unit is marked at its home, and the writes that waited go on (09 R293). -/
def execPoolDirtyMarkDone (die unit : Nat) (s : State) : Res :=
  .next (if has unit (s.poolOf die).marking && s.poolWay die (64 * unit) then
    let s1 := s.updPool die (fun x => { x with marking := del unit x.marking, marked := del unit x.marked ++ [unit] })
    poolRetry die (s1.updStack (s1.unitStack unit) (fun y => { y with marks := upd [] y.marks die (ins unit) }))
  else s)

/-- Each stack home poisons the sectors of the units a failed pool die has marked, raises POOL_DIRTY_LOST and clears
the marks (09 R298, 16 R560). -/
def loseMarks (d h : Nat) (s : State) : State :=
  match look [] (s.stackOf h).marks d with
  | [] => s
  | u :: us =>
    let s1 := (u :: us).foldl (fun st v => st.withMem (st.mem.poisonRange (st.phys (v * 4096)) 4096)) s
    let s2 := s1.updStack h (fun y => { y with marks := put [] y.marks d [] })
    (u :: us).foldl (fun st v => post (ev 0x03 (some (33 + h)) 1 [v * 4096, 2 ^ 64 - 1]) st) s2

/-- Core dies drop every line they hold from the scratch part of a pool die (09 R298). -/
def dropScratch (d : Nat) (s : State) : State :=
  let mine := fun n => decide (scratchBase d ≤ 64 * n) && decide (64 * n < scratchBase (d + 1))
  let s1 := (List.range 4).foldl (fun st c => st.updCdie c (fun x =>
    { x with lines := keepKeys (fun n => !mine n) x.lines })) s
  s1.updPool d (fun x => { x with home := {} })

/-- A pool die is down for its recovery: marked units are poisoned, cores drop the die's scratch lines, and the die starts to
reset (09 R298). -/
def poolDown (die : Nat) (s : State) : State :=
  let s2 := (List.range 16).foldl (fun st h => loseMarks die h st) s
  (dropScratch die s2).updPool die (fun x =>
    { x with state := 1, lines := [], marked := [], filling := [], handing := [], marking := [], wait := [], away := [] })

/-- N has fallen: the remaining dies take over the failed one's share (09 R298). A line that its die no longer caches is written back
when it is dirty, recalled when it is held, and dropped; a packet that waits for such a line goes on to the die that caches it now.
The spec does not say how the surviving dies' lines come to their new places (log 13, DESIGN CHOICE). -/
def repool (s : State) : State :=
  (List.range 4).foldl (fun st d =>
    let gone := fun (u : State) (n : Nat) => u.cachedBy (u.phys (64 * n)) != some d
    let away := (st.poolOf d).wait.filter (fun q => gone st (sectorOf q.1.addr))
    let s1 := st.updPool d (fun x => { x with
      filling := x.filling.filter (fun n => !gone st n), handing := x.handing.filter (fun n => !gone st n)
      wait := x.wait.filter (fun q => !gone st (sectorOf q.1.addr)) })
    let s2 := (((s1.poolOf d).lines.map Prod.fst).filter (gone s1)).foldl (fun u n =>
      let l := (u.poolOf d).lineOf n
      let u1 := match l.st with
        | .d => touchFrame (64 * n) true (storeSector n l.data (some (l.ck ^^^ crc32c l.data)) l.poison u)
        | .h => fetchBack n u
        | _ => u
      clearMark d (unitOfSector n) (u1.updPool d (fun x => { x with lines := put {} x.lines n {} }))) s1
    away.foldl (fun u q => redirect q.1 u) s2) s

/-- A pool die has failed for good: what it held is lost, and the others take over (09 R298). -/
def poolLost (die : Nat) (s : State) : State :=
  repool ((if (s.poolOf die).state = 0 then poolDown die s else s).updPool die (fun x => { x with state := 2 }))

/-- POOL_DIE_FAILURE: the port is fenced (09 R298). -/
def execPoolDieFailure (die : Nat) (s : State) : Res :=
  .next (if die < 4 && (s.poolOf die).state == 0 then poolDown die (fencePort (49 + die) true 3 s) else s)

/-- Store every scratch sector of a pool die poisoned (09 R298). -/
def poisonScratch (d : Nat) (s : State) : State :=
  s.withMem (s.mem.poisonRange (scratchBase d) (s.scratchLen d))

/-- POOL_DIE_RECOVERY_DONE: the die serves again with an empty cache and poisoned scratch, or is failed (09 R298). -/
def execPoolDieRecoveryDone (die : Nat) (ok : Bool) (s : State) : Res :=
  .next (if die < 4 && (s.poolOf die).state == 1 && (!ok || s.linkReady (49 + die)) then
    if ok then unfence (49 + die) 2500 (poisonScratch die (s.updPool die (fun x => { x with state := 0 })))
    else dieFailed (49 + die) 3 (poolLost die s)
  else s)

end Sys2Proof.Machine
end

