-- ==== Sys2Proof/Machine/Sfu.lean ====
section
/-!
DEFINITION. The special functions of a lane (03 R99, R100; 06 R185): each is computed to far more bits than FP32 has, and the
result is any FP32 value within the accuracy that 03 R99 gives it. Which of them the hardware's tables give is open, so a constant
without a body picks it (log 12).
-/
namespace Sys2Proof.Machine

/-! ## Fixed-point arithmetic with 256 fraction bits -/

/-- Fraction bits of the fixed-point numbers below. -/
def fixBits : Nat := 256
/-- One. -/
def fix1 : Nat := 2 ^ fixBits

/-- The integer square root by bisection from bit n − 1 down. -/
def isqrt : Nat → Nat → Nat → Nat
  | 0, _, r => r
  | n + 1, v, r => if (r + 2 ^ n) * (r + 2 ^ n) ≤ v then isqrt n v (r + 2 ^ n) else isqrt n v r

/-- Sum of a series from its term k on, n terms: each term is made from the one before. -/
def series (next : Nat → Nat → Nat) : Nat → Nat → Nat → Nat
  | 0, _, _ => 0
  | n + 1, k, t => t + series next n (k + 1) (next k t)

/-- n squarings. -/
def squares : Nat → Nat → Nat
  | 0, v => v
  | n + 1, v => squares n (v * v / fix1)

/-- e^t for t from 0 to 128: the power series of t/256, squared eight times. -/
def expFix (t : Nat) : Nat := squares 8 (series (fun k a => a * (t / 256) / (fix1 * (k + 1))) 60 0 fix1)

/-- The logarithm of (1 + z) / (1 − z) for z up to 1/3: twice the series of z^(2k+1) / (2k+1). -/
def logFix (z : Nat) : Nat :=
  2 * ((List.range 90).foldl (fun (a : Nat × Nat) k => (a.1 + a.2 / (2 * k + 1), a.2 * z / fix1 * z / fix1)) (0, z)).1

/-- ln 2. -/
def ln2Fix : Nat := logFix (fix1 / 3)

/-- π: the sum over k of 16^-k (4/(8k+1) − 2/(8k+4) − 1/(8k+5) − 1/(8k+6)). -/
def piFix : Nat :=
  ((List.range 66).map (fun k =>
    (4 * fix1 / (8 * k + 1) - 2 * fix1 / (8 * k + 4) - fix1 / (8 * k + 5) - fix1 / (8 * k + 6)) / 16 ^ k)).sum

/-- The square root of π. -/
def sqrtPiFix : Nat := isqrt (fixBits + 1) (piFix * fix1) 0

/-- m × 2^x in fixed point, no more than a bound. -/
def fixOf (m : Nat) (x : Int) (cap : Nat) : Nat :=
  if x < -256 then 0
  else if 2 ^ 10 ≤ x then cap * fix1
  else min (cap * fix1) (m * 2 ^ (x + 256).toNat)

/-! ## Results within an accuracy -/

/-- A positive quotient as a number, with a bit below that says whether anything is cut off. -/
def ratNum (neg : Bool) (num den : Nat) : Num :=
  let s := 64 + Nat.log2 den
  let q := num * 2 ^ s / den
  if num = 0 then .zero neg else .fin neg (2 * q + (if q * den = num * 2 ^ s then 0 else 1)) (-(s : Int) - 1)

/-- Is a code's magnitude exactly a quotient? -/
def isRat (c num den : Nat) : Bool :=
  match f32.decode c with
  | .fin _ m x => if 0 ≤ x then m * 2 ^ x.toNat * den == num else m * den == num * 2 ^ (-x).toNat
  | .zero _ => num == 0
  | _ => false

/-- The code within k ulp of a value that a number picks: `c` is the value truncated, `exact` whether nothing was cut off. Both
ends count up to k ulp; one that was cut off has k − 1 codes below and k above. -/
def nearCode (k c : Nat) (exact : Bool) (pick : Nat) : Nat :=
  let m := c % 2 ^ 31
  let lo := m - (if exact then k else k - 1)
  let hi := min (m + k) 0x7F800000
  c / 2 ^ 31 * 2 ^ 31 + lo + pick % (hi - lo + 1)

/-- An FP32 result within k ulp of a quotient; `exact`: the quotient is the function's value itself, not one near it. -/
def nearRat (k : Nat) (neg : Bool) (num den : Nat) (exact : Bool) (pick : Nat) : Nat :=
  let (c, _) := f32.encode .rtz .acc false (ratNum neg num den)
  nearCode k c (exact && isRat c num den) pick

/-! ## The functions -/

/-- 2^x. -/
def exp2Near (neg : Bool) (m : Nat) (x : Int) (pick : Nat) : Nat :=
  let t := fixOf m x 256
  let whole : Int := if neg then -((t / fix1 : Nat) : Int) - (if t % fix1 = 0 then 0 else 1) else ((t / fix1 : Nat) : Int)
  let frac := if t % fix1 = 0 then 0 else if neg then fix1 - t % fix1 else t % fix1
  let e := expFix (frac * ln2Fix / fix1)
  if 0 ≤ whole then nearRat 1 false (e * 2 ^ whole.toNat) fix1 (frac == 0) pick
  else nearRat 1 false e (fix1 * 2 ^ (-whole).toNat) (frac == 0) pick

/-- The logarithm to base 2 of m × 2^x. -/
def log2Near (m : Nat) (x : Int) (pick : Nat) : Nat :=
  let k := Nat.log2 m
  let l := logFix ((m - 2 ^ k) * fix1 / (m + 2 ^ k)) * fix1 / ln2Fix
  let r : Int := ((k : Int) + x) * (fix1 : Nat) + (l : Nat)
  nearRat 1 (decide (r < 0)) r.natAbs fix1 (m == 2 ^ k) pick

/-- 1 / (m × 2^x). -/
def rcpNear (neg : Bool) (m : Nat) (x : Int) (pick : Nat) : Nat :=
  if 0 ≤ x then nearRat 1 neg 1 (m * 2 ^ x.toNat) true pick else nearRat 1 neg (2 ^ (-x).toNat) m true pick

/-- 1 / √(m × 2^x): the square root of the reciprocal, in 2^160 units of an even power of two. -/
def rsqrtNear (m : Nat) (x : Int) (pick : Nat) : Nat :=
  let odd := x % 2 ≠ 0
  let m' := if odd then 2 * m else m
  let h : Int := (if odd then x - 1 else x) / 2
  let v := 2 ^ 320 / m'
  let r := isqrt 161 v 0
  let exact := r * r * m' == 2 ^ 320
  if 0 ≤ h then nearRat 1 false r (2 ^ 160 * 2 ^ h.toNat) exact pick else nearRat 1 false (r * 2 ^ (-h).toNat) (2 ^ 160) exact pick

/-- tanh of m × 2^x: (e^2x − 1) / (e^2x + 1); beyond 60 it lies between the last FP32 value below 1 and 1. -/
def tanhNear (neg : Bool) (m : Nat) (x : Int) (pick : Nat) : Nat :=
  let e := expFix (2 * fixOf m x 60)
  nearRat 2 neg (e - fix1) (e + fix1) false pick

/-- 1 / (1 + e^-x); below −128 it lies under every FP32 value but 0. -/
def sigmoidNear (neg : Bool) (m : Nat) (x : Int) (pick : Nat) : Nat :=
  let e := expFix (fixOf m x 128)
  nearRat 2 false (if neg then fix1 else e) (e + fix1) (m == 0) pick

/-- erf of m × 2^x: 2/√π e^(-x²) Σ 2^k x^(2k+1) / (1·3·…·(2k+1)); beyond 5 it lies between the last FP32 value below 1 and 1. -/
def erfNear (neg : Bool) (m : Nat) (x : Int) (pick : Nat) : Nat :=
  let t := fixOf m x 5
  let q := t * t / fix1
  let sum := series (fun k a => a * (2 * q) / (fix1 * (2 * k + 3))) 220 0 t
  nearRat 2 neg (2 * sum * fix1) (expFix q * sqrtPiFix) false pick

/-- VSFU on a flushed input that is no NaN: the special results of 06 R185, else a value within the accuracy of 03 R99. -/
def sfuFn (fn c : Nat) : Nat :=
  let x := f32.decode c
  let pick := Config.sfuPick fn (BitVec.ofNat 32 c)
  match fn with
  | 0 => match x with
    | .inf true => 0
    | .inf false => 0x7F800000
    | .fin neg m e => if !neg && decide (0x43000000 ≤ c) then 0x7F800000 else exp2Near neg m e pick
    | _ => exp2Near false 0 0 pick
  | 1 => match x with
    | .zero _ => 0xFF800000
    | .inf false => 0x7F800000
    | .inf true => 0x7FC00000
    | .fin true _ _ => 0x7FC00000
    | .fin false m e => log2Near m e pick
    | .nan => 0x7FC00000
  | 2 => match x with
    | .zero neg => if neg then 0xFF800000 else 0x7F800000
    | .inf neg => if neg then 0x80000000 else 0
    | .fin neg m e => rcpNear neg m e pick
    | .nan => 0x7FC00000
  | 3 => match x with
    | .zero neg => if neg then 0xFF800000 else 0x7F800000
    | .inf false => 0
    | .inf true => 0x7FC00000
    | .fin true _ _ => 0x7FC00000
    | .fin false m e => rsqrtNear m e pick
    | .nan => 0x7FC00000
  | 4 => match x with
    | .inf neg => if neg then 0xBF800000 else 0x3F800000
    | .fin neg m e => tanhNear neg m e pick
    | .zero neg => tanhNear neg 0 0 pick
    | .nan => 0x7FC00000
  | 5 => match x with
    | .inf true => 0
    | .inf false => 0x3F800000
    | .fin neg m e => sigmoidNear neg m e pick
    | _ => sigmoidNear false 0 0 pick
  | _ => match x with
    | .inf neg => if neg then 0xBF800000 else 0x3F800000
    | .fin neg m e => erfNear neg m e pick
    | .zero neg => erfNear neg 0 0 pick
    | .nan => 0x7FC00000

end Sys2Proof.Machine
end

