-- ==== Sys2Proof/Machine/Elem.lean ====
section
/-!
DEFINITION. What one lane or element computes: vector arithmetic, comparisons, special functions, lane conversions,
and the fixed reduction tree (06 R180 to R187, 08 R276).
-/
namespace Sys2Proof.Machine

/-- An FP32 value read from a lane: a subnormal is flushed when FTZ is set (04 R128, R129). -/
def lane32 (ftz : Bool) (c : Nat) : Nat × Sticky :=
  if ftz && f32.subnormal c then (c / 2 ^ 31 * 2 ^ 31, fFlush) else (c, 0#4)

/-- Write an FP32 result to a lane: overflow gives an infinity and no flag (06 R181). -/
def toLane (ftz : Bool) (v : Num) : Nat × Sticky :=
  let (c, fl) := f32.encode .rne .acc ftz v
  (c, fl &&& ~~~fOvf)

/-- An order key of an FP32 code that is no NaN: −0 stands below +0 (06 R181). -/
def minKey (c : Nat) : Int := if 2 ^ 31 ≤ c then -((c % 2 ^ 31 : Nat) : Int) - 1 else (c : Int)
/-- An order key in which −0 equals +0 (06 R182). -/
def cmpKey (c : Nat) : Int := if 2 ^ 31 ≤ c then -((c % 2 ^ 31 : Nat) : Int) else (c : Int)

/-- The vector functions of 06 R180 on FP32, once the inputs are flushed: a, b and c as far as the function takes
them. -/
def floatFn (ftz : Bool) (fn a b c : Nat) : Nat × Sticky :=
  let x := f32.decode a
  let y := f32.decode b
  let z := f32.decode c
  match fn with
  | 0x00 => toLane ftz (sumNums [x, y])
  | 0x01 => toLane ftz (sumNums [x, y.neg])
  | 0x02 => toLane ftz (x.mul y)
  | 0x03 => toLane ftz (sumNums [x.mul y, z])
  | 0x04 => toLane ftz (sumNums [(x.mul y).neg, z])
  | 0x05 => (if minKey a ≤ minKey b then a else b, 0#4)
  | 0x06 => (if minKey a ≤ minKey b then b else a, 0#4)
  | 0x07 => (a % 2 ^ 31, 0#4)
  | 0x08 => ((a + 2 ^ 31) % 2 ^ 32, 0#4)
  | _ => (a, 0#4)

/-- How many of a, b and c a function takes (06 R180). -/
def fnArity (fn : Nat) : Nat := if fn = 0x03 ∨ fn = 0x04 then 3 else if 0x07 ≤ fn ∧ fn ≤ 0x09 then 1 else 2

/-- VOP on FP32 (06 R181): inputs are flushed, a NaN input gives the canonical NaN. SEL is not one of these. -/
def vopFloat (ftz : Bool) (fn a b c : Nat) : Nat × Sticky :=
  let k := fnArity fn
  let (a, f1) := lane32 ftz a
  let (b, f2) := if 2 ≤ k then lane32 ftz b else (0, 0#4)
  let (c, f3) := if 3 ≤ k then lane32 ftz c else (0, 0#4)
  let fl := f1 ||| f2 ||| f3
  if f32.decode a = .nan || f32.decode b = .nan || f32.decode c = .nan then (0x7FC00000, fl ||| fNan)
  else
    let (r, f4) := floatFn ftz fn a b c
    (r, fl ||| f4)

/-- VOP on INT32: two's complement, wrapping (03 R98, 06 R180). -/
def vopInt (fn : Nat) (a b c : BitVec 32) : BitVec 32 :=
  let sh := b.toNat % 32
  match fn with
  | 0x00 => a + b
  | 0x01 => a - b
  | 0x02 => a * b
  | 0x03 => a * b + c
  | 0x04 => c - a * b
  | 0x05 => if a.toInt ≤ b.toInt then a else b
  | 0x06 => if a.toInt ≤ b.toInt then b else a
  | 0x07 => if a.toInt < 0 then -a else a
  | 0x08 => -a
  | 0x09 => a
  | 0x10 => a &&& b
  | 0x11 => a ||| b
  | 0x12 => a ^^^ b
  | 0x13 => a <<< sh
  | 0x14 => a >>> sh
  | 0x15 => a.sshiftRight sh
  | _ => a

/-- Is FN a function of VOP, SEL included (06 R180)? -/
def vopFnOk (fn : Nat) : Bool := decide (fn ≤ 0x0A) || (decide (0x10 ≤ fn) && decide (fn ≤ 0x15))

/-- A condition of VCMP on an order (06 R182). -/
def condHolds (fn : Nat) (a b : Int) : Bool :=
  match fn with
  | 0 => decide (a = b) | 1 => decide (a ≠ b) | 2 => decide (a < b)
  | 3 => decide (a ≤ b) | 4 => decide (b < a) | _ => decide (b ≤ a)

/-- VCMP on FP32 (06 R182). -/
def vcmpFloat (ftz : Bool) (fn a b : Nat) : Bool × Sticky :=
  let (a, f1) := lane32 ftz a
  let (b, f2) := lane32 ftz b
  if f32.decode a = .nan || f32.decode b = .nan then (fn == 1, f1 ||| f2 ||| fNan)
  else (condHolds fn (cmpKey a) (cmpKey b), f1 ||| f2)

/-! ## Reductions -/

/-- One operation of a reduction: 0 SUM, 1 MAX, 2 MIN (06 R184). -/
def redOp (isInt ftz : Bool) (fn a b : Nat) : Nat × Sticky :=
  let k := if fn = 0 then 0x00 else if fn = 1 then 0x06 else 0x05
  if isInt then ((vopInt k (BitVec.ofNat 32 a) (BitVec.ofNat 32 b) 0#32).toNat, 0#4) else vopFloat ftz k a b 0

/-- The identity of a reduction (06 R184). -/
def redId (isInt : Bool) (fn : Nat) : Nat :=
  if isInt then (if fn = 0 then 0 else if fn = 1 then 0x80000000 else 0x7FFFFFFF)
  else (if fn = 0 then 0x80000000 else if fn = 1 then 0xFF800000 else 0x7F800000)

/-- The fixed tree over 2^n values: each step combines element i with element i + h (06 R184). -/
def redTree (op : Nat → Nat → Nat × Sticky) : Nat → List Nat → Nat × Sticky
  | 0, x => ((x.head?).getD 0, 0#4)
  | n + 1, x =>
    let r := List.zipWith op (x.take (2 ^ n)) (x.drop (2 ^ n))
    let (v, fl) := redTree op n (r.map Prod.fst)
    (v, r.foldl (fun a y => a ||| y.2) fl)

/-! ## Special functions -/

/-- VSFU on a lane (06 R185, 04 R128). -/
def vsfuLane (ftz : Bool) (fn c : Nat) : Nat × Sticky :=
  let (c, f1) := lane32 ftz c
  let r := if f32.decode c = .nan then 0x7FC00000 else sfuFn fn c
  if f32.decode r = .nan then (0x7FC00000, f1 ||| fNan)
  else
    let (r', f2) := lane32 ftz r
    (r', f1 ||| f2)

/-! ## Conversions -/

/-- VCVT on a lane (06 R186): 0 F2I, 1 I2F, 2 QNT, 3 IQNT. -/
def vcvtLane (fn : Nat) (f : Fmt) (r : Rnd) (ovf ftz : Bool) (c : Nat) : Nat × Sticky :=
  match fn with
  | 0 => convert .fp32 .int32 none r ovf ftz c
  | 1 => convert .int32 .fp32 none r ovf ftz c
  | 2 =>
    let (x, f1) := lane32 ftz c
    let (y, f2) := convert .fp32 f none r ovf ftz x
    let (z, f3) := convert f .fp32 none .rne ovf ftz y
    (z, f1 ||| f2 ||| f3)
  | _ =>
    let (y, f1) := convert .int32 f none r ovf ftz c
    ((convert f .int32 none .rne ovf ftz y).1, f1)

/-- The format a lane holds for a memory format: FP32 for floats, INT32 for integers and TRN (06 R187). -/
def laneFmt (f : Fmt) : Fmt := if f.isInt then .int32 else .fp32

/-- VLD of one element (06 R187): FP64 is rounded, narrower formats are exact; a subnormal result is flushed. -/
def vldElem (f : Fmt) (r : Rnd) (ovf ftz : Bool) (c : Nat) : Nat × Sticky := convert f (laneFmt f) none r ovf ftz c
/-- VST of one lane (06 R187). -/
def vstElem (f : Fmt) (r : Rnd) (ovf ftz : Bool) (c : Nat) : Nat × Sticky := convert (laneFmt f) f none r ovf ftz c

end Sys2Proof.Machine
end

