-- ==== Sys2Proof/Machine/Stack.lean ====
section
/-!
DEFINITION. The stacks: refresh, scrub, temperature, layer loss, channel map-out, recovery, and the commands of the
stack engines (08 R252 to R284).
-/
namespace Sys2Proof.Machine

/-! ## Upkeep -/

/-- READ_WAIT_TURN_TIMEOUT: a read has waited 500 ns, so the pseudo-channel turns back to reads with what its buffer holds (08 R262). -/
def execReadWaitTurnTimeout (stack pc : Nat) (s : State) : Res :=
  .next (s.updStack stack (fun x => { x with writing := put false x.writing pc false }))

/-- REFRESH: one bank of a pseudo-channel is refreshed (08 R260); its contents stay. -/
def execRefresh (stack pc bank : Nat) (s : State) : Res :=
  .next (if !s.siteLive (33 + stack) then s else s.updStack stack (fun x => { x with refreshed := upd 0 x.refreshed (pc * 32 + bank) (fun n => n + 1) }))

/-- The sectors of a stack's pass (08 R249, R261): 32 channels of the units in force, 64 sectors each. -/
def State.scrubLen (s : State) : Nat := 32 * s.unitsPerCh * 64

/-- The unit of a row that a slot has by R249. -/
def unitOn (c w : Nat) : Nat :=
  w * 512 + Nat.xor c (Nat.xor (Nat.xor (w % 512) (w / 512 % 512)) (w / 262144 % 2 * 256))

/-- The unit that lies on a slot and row of the stacks now (08 R249, R257): a row from W on holds units of the channels mapped out.
None on a channel mapped out, or where no unit lies. -/
def State.unitAt (s : State) (c row : Nat) : Option Nat :=
  if has c s.memc.maps then none
  else if row < s.rowsLeft then some (unitOn c row)
  else
    let j := (row - s.rowsLeft) * (512 - s.memc.maps.length) + ((List.range c).filter (fun x => !has x s.memc.maps)).length
    (s.memc.maps[j / s.rowsLeft]?).map (fun f => unitOn f (j % s.rowsLeft))

/-- The device sector at a place of a stack's scrub pass, withdrawn and spare rows included (08 R261). -/
def State.scrubSector (s : State) (stack i : Nat) : Option Nat :=
  (s.unitAt (i / (s.unitsPerCh * 64) * 16 + stack) (i / 64 % s.unitsPerCh)).map (fun u => u * 64 + i % 64)

/-- PATROL_SCRUB: the next sector is read, corrected or stored poisoned; the pass counts at its end. Scrub pauses
while the stack is throttled (08 R253, R261). -/
def execPatrolScrub (stack : Nat) (e : DramErr) (s : State) : Res :=
  let x := s.stackOf stack
  .next (if x.throttle || x.state != 0 || !s.siteLive (33 + stack) then s
    else
      let s1 := match s.scrubSector stack x.scrubPos with
        | some n => if s.lostUnit (n / 64) then s else readCodes (33 + stack) e [n] s
        | none => s
      s1.updStack stack (fun y =>
        if s.scrubLen ≤ y.scrubPos + 1 then { y with scrubPos := 0, scrubPasses := satAdd 0xFFFF y.scrubPasses 1 }
        else { y with scrubPos := y.scrubPos + 1 }))

/-- STACK_TEMP_SAMPLE: throttling from 95 °C, until below 92 °C; refresh doubles above 85 °C; 105 °C trips
(08 R260, R264, R265). -/
def execStackTempSample (stack temp : Nat) (s : State) : Res :=
  let was := (s.stackOf stack).throttle
  let now := if 95 ≤ temp then true else if temp < 92 then false else was
  let s1 := s.updStack stack (fun x =>
    { x with temp := temp % 256, throttle := now, refresh2x := decide (85 < temp) })
  let s2 := if was == now then s1 else post (ev 0x12 (some (33 + stack)) (b2n now) []) s1
  .next (if 105 ≤ temp then thermTrip s2 else s2)

/-- MEM_ERRs (08 R284). -/
def Stack.errWord (x : Stack) : Word :=
  BitVec.ofNat 64 (at_ x.corr 48 + at_ x.uncorr 32 + at_ x.scrubPasses 16 + x.layerEv)

/-- MEM_ERR_READ: the counters are returned and cleared (08 R284, 00 R10); before READY the host reads 0 (17 R578). -/
def execMemErrRead (who : Agent) (stack : Nat) (s : State) : Res :=
  let off := 0x0600300 + 8 * stack
  .next (if s.hostGate who then
      (reply who off (s.stackOf stack).errWord s).updStack stack (fun x =>
        { x with corr := 0, uncorr := 0, scrubPasses := 0, layerEv := 0 })
    else shutRead who off s)

/-! ## Failure, map-out, recovery -/

/-- A journal mirror is gone with its stack; entries in no mirror are lost (16 R572). -/
def mirrorLost (stack : Nat) (s : State) : State :=
  let ok := [s.disp.mirrorOk.head? == some true && s.disp.journal0 != stack,
    (s.disp.mirrorOk[1]?) == some true && s.disp.journal1 != stack]
  s.withDisp { s.disp with
    mirrorOk := ok
    cmds := if ok.any id then s.disp.cmds else s.disp.cmds.map (fun c => { c with lost := true }) }

/-- A stack is failed; accesses outstanding to it were answered by its fence (16 R567). -/
def failStack (stack cause : Nat) (s : State) : State :=
  mgmtReply (.dieFailed (33 + stack))
    (mirrorLost stack (dieFailed (33 + stack) cause (s.updStack stack (fun x => { x with state := 2 }))))

/-- LAYER_FAILURE: counted and survived in Indigo; in Cobalt the stack is failed (08 R251, R253, R266). -/
def execLayerFailure (stack layer : Nat) (s : State) : Res :=
  .next (if s.memc.active = 1 then
      post (ev 0x11 (some (33 + stack)) (layer % 16) []) (s.updStack stack (fun x =>
        { x with layersLost := Nat.lor x.layersLost (2 ^ (layer % 16)), layerEv := satAdd 0xFFFF x.layerEv 1 }))
    else failStack stack 4 s)

/-- Poison every sector of every unit that is lost with the channel (08 R256). -/
def poisonLost (s : State) : State :=
  ((List.range s.rowsLeft).flatMap (fun w => (List.range 512).map (fun k => w * 512 + k))).foldl (fun st u =>
    if s.lostUnit u then st.withMem (st.mem.poisonRange (u * 4096) 4096) else st) s

/-- Step 1 of a map-out: the channel stops and every sector in it is lost; a channel beyond the thirty-second fails
its stack (08 R255, R256). -/
def mapoutStart (slot : Nat) (s : State) : State :=
  if 512 ≤ slot ∨ has slot s.memc.maps then s
  else if s.memc.mapStep ≠ 0 then s.withMemc { s.memc with mapWait := s.memc.mapWait ++ [slot] }
  else if 32 ≤ s.memc.maps.length then failStack (slot % 16) 4 s
  else post (ev 0x10 (some (33 + slot % 16)) slot [])
    (poisonLost (s.withMemc { s.memc with mapStep := 1, mapSlot := slot }))

/-- MAPOUT_START (08 R255, R256, step 1). -/
def execMapoutStart (slot : Nat) (s : State) : Res := .next (mapoutStart slot s)

/-- The frames that one map-out withdraws (08 R257, R258). -/
def State.framesLost (s : State) : Nat := s.unitsPerCh * 4096 / 0x100000
/-- The frames of the band that the map-out in progress withdraws (08 R257, R258). -/
def State.withdrawnFrames (s : State) : List Nat :=
  (List.range s.memc.frameCount).filter (fun f => decide (s.memc.frameCount ≤ f + s.framesLost))

/-- The sectors of a range that a cache or a directory knows. -/
def State.knownSectors (s : State) (a n : Nat) : List Nat :=
  let cores := (List.range 4).flatMap (fun d => (s.cdieOf d).lines.map Prod.fst ++ (s.poolOf d).lines.map Prod.fst)
  let dirs := (List.range 16).flatMap (fun h => (s.stackOf h).home.dir.map DirEnt.sector)
  ((cores ++ dirs).filter (fun k => decide (a ≤ 64 * k) && decide (64 * k < a + n))).eraseDups

/-- The data that a cache holds newer than memory: a core's modified copy, or a dirty pool line with its check word. -/
def State.newer (s : State) (n : Nat) : Option (List Byte × Option (BitVec 32) × Bool) :=
  match s.dirtyDie n, s.poolLine n with
  | some l, _ => some (l.data, none, l.poison)
  | none, some l => if l.st = .d then some (l.data, some (l.ck ^^^ crc32c l.data), l.poison) else none
  | none, none => none

/-- Read a part of a tile out, byte for byte with its check words and its poison: its data are the tier's own from now, and it waits
to be programmed into flash (09 R304, R307); the base dies that serve the read verify the words (08 R252, R253). `quiet`: by background work, whose bytes do not count (09 R321). -/
def partToFlash (quiet : Bool) (tile part : Nat) (st : State) : State :=
  let a := tierBase + tile * 0x100000 + part * 0x10000
  let s := serveReads a 0x10000 st
  let f1 := s.tier.flash.restoreAt (s.mem.save (s.phys a) 0x10000) (a - tierBase)
  let f2 := (s.knownSectors a 0x10000).foldl (fun m n => match s.newer n with
    | some (d, ck, p) => m.writeSector (n - tierBase / 64) d ck p
    | none => m) f1
  (s.withTier { s.tier with flash := f2 }).updTdie (tile % 2) (fun d =>
    { d with programming := ins (tile * 16 + part) d.programming
             quiet := if quiet then ins (tile * 16 + part) d.quiet else del (tile * 16 + part) d.quiet })

/-- Every cached copy of a tile's sectors ends: the homes recall the cores' copies and the pools write theirs back, which makes parts
dirty (09 R303, R304 steps 1 and 2). -/
def recallTile (tile : Nat) (s : State) : State :=
  (s.knownSectors (tierBase + tile * 0x100000) 0x100000).foldl (fun st n =>
    dropCopies n (match st.newer n with
      | some (d, ck, p) => touchFrame (64 * n) true (storeSector n d ck p st)
      | none => st)) s

/-- A pinned range has lost a tile: RESIDENT reads 0 (09 R323). -/
def notResident (tile : Nat) (s : State) : State :=
  s.withTier { s.tier with resident := s.tier.resident.filter (fun r =>
    !(decide (s.regFld (tierPin r.1) 24 0 ≤ tile) && decide (tile < s.regFld (tierPin r.1) 24 0 + s.regFld (tierPin r.1) 49 25))) }

/-- The hub's tier map drops a tile, and its frame is free (09 R304, step 4). -/
def freeFrame (tile f : Nat) (s : State) : State :=
  s.withTier { s.tier with frames := put {} s.tier.frames f {}, tmap := put 0 s.tier.tmap tile 0 }

/-- Empty a frame: its copies are recalled, its dirty parts are read out, and the map drops it (09 R304). -/
def vacate (f : Nat) (s : State) : State :=
  match (look {} s.tier.frames f).tile with
  | none => s.withTier { s.tier with frames := put {} s.tier.frames f {} }
  | some t =>
    let s1 := recallTile t s
    freeFrame t f (notResident t ((look {} s1.tier.frames f).dirty.foldl (fun st part => partToFlash false t part st) s1))

/-- A frame outside a list that holds nothing. -/
def State.spareFrame (s : State) (out : List Nat) : Option Nat :=
  (List.range s.memc.frameCount).find? (fun f => (look {} s.tier.frames f).tile.isNone && !has f out)

/-- A frame outside a list that no pin holds: pins take at most half of the frames (09 R305). -/
def State.unpinnedFrame (s : State) (out : List Nat) : Option Nat :=
  (List.range s.memc.frameCount).find? (fun f => !(look {} s.tier.frames f).pinned && !(look {} s.tier.frames f).filling && !has f out)

/-- A pinned tile moves to another frame (08 R256): its data move with it. -/
def moveFrame (f g : Nat) (s : State) : State :=
  let a := s.memc.frameBase + f * 0x100000
  let b := s.memc.frameBase + g * 0x100000
  let tile := (look {} s.tier.frames f).tile
  let s0 := match tile with | some t => serveReads (tierBase + t * 0x100000) 0x100000 (recallTile t s) | none => s
  let fr := look ({} : Frame) s0.tier.frames f
  let s1 := s0.withMem (s0.mem.restoreAt (s0.mem.save a 0x100000) b)
  let tmap := match tile with | some t => upd 0 s1.tier.tmap t (fun x => if x = 0 then 0 else g + 1) | none => s1.tier.tmap
  s1.withTier { s1.tier with frames := put {} (put {} s1.tier.frames f {}) g fr, tmap := tmap }

/-- MAPOUT_EVICT_DONE: the frames of the withdrawn band are empty; pinned tiles have moved (08 R256, step 2). -/
def execMapoutEvictDone (s : State) : Res :=
  .next (if s.memc.mapStep = 1 then
    let out := s.withdrawnFrames
    let s1 := out.foldl (fun st f =>
      if (look {} st.tier.frames f).pinned then
        match st.spareFrame out with
        | some g => moveFrame f g st
        | none => match st.unpinnedFrame out with
          | some g => moveFrame f g (vacate g st)
          | none => vacate f st
      else vacate f st) s
    s1.withMemc { s1.memc with mapStep := 2 }
  else s)

/-- Directory entries and dirty marks follow their units to the homes of the new map (08 R257). -/
def rehome (s : State) : State :=
  let ents := (List.range 16).flatMap (fun h => (s.stackOf h).home.dir)
  let marks := (List.range 16).flatMap (fun h => (List.range 4).flatMap (fun d =>
    (look [] (s.stackOf h).marks d).map (fun u => (d, u))))
  let s1 := (List.range 16).foldl (fun st h => st.updStack h (fun x =>
    { x with home := { x.home with dir := [] }, marks := [] })) s
  let s2 := ents.foldl (fun st e => st.updStack (st.stackFor (st.phys (64 * e.sector))) (fun x =>
    { x with home := { x.home with dir := x.home.dir ++ [e] } })) s1
  marks.foldl (fun st m => st.updStack (st.unitStack m.2) (fun x => { x with marks := upd [] x.marks m.1 (ins m.2) })) s2

/-- MAPOUT_MAP_DISTRIBUTED: the new map is in force; units that move keep their contents (08 R256, step 3, R257). -/
def execMapoutMapDistributed (s : State) : Res :=
  .next (if s.memc.mapStep = 2 then
    let m := { s.memc with mapStep := 3, maps := s.memc.maps ++ [s.memc.mapSlot]
                           frameCount := s.memc.frameCount - s.framesLost }
    rehome (s.withMemc m)
  else s)

/-- MAPOUT_COMPLETE: the lost units are written poisoned, the registers show the new map, an event reports it, and
Ivory records it (08 R256, steps 4 and 5, R259). Map-outs that waited start in order: the first that can, the others after it. -/
def execMapoutComplete (s : State) : Res :=
  .next (if s.memc.mapStep = 3 then
    let slot := s.memc.mapSlot
    let s1 := poisonLost s
    let s2 := s1.withRepair { s1.repair with mapouts := s1.memc.maps }
    let s3 := s2.withMemc { s2.memc with mapStep := 0, mapWait := [] }
    let s4 := post (ev 0x10 (some (33 + slot % 16)) (slot + 2 ^ 31) []) s3
    s1.memc.mapWait.foldl (fun st next => mapoutStart next st) s4
  else s)

/-- A stack is down for its recovery: the layers keep their contents, what the base die had under way is gone (08 R266). -/
def stackDown (stack : Nat) (s : State) : State :=
  (mirrorLost stack s).updStack stack (fun x =>
    { x with state := 1, wbuf := [], writing := [], win := []
             home := { x.home with busy := [], queue := [], tickets := [] } })

/-- STACK_RECOVERY_START: the port is fenced (08 R266). -/
def execStackRecoveryStart (stack : Nat) (s : State) : Res :=
  .next (if stack < 16 && (s.stackOf stack).state == 0 then stackDown stack (fencePort (33 + stack) true 4 s) else s)

/-- The verification pass of a recovery: every sector whose check word fails is stored poisoned (08 R253, R266). -/
def verifyStack (stack : Nat) (s : State) : State :=
  (s.mem.ckErr.map Prod.fst).foldl (fun st n =>
    if decide (64 * n < st.hbmEnd) && st.stackFor (64 * n) == stack then uncorrectable (33 + stack) (64 * n) n st
    else st) s

/-- STACK_RECOVERY_DONE: the stack serves again, with failed channels mapped out, or is failed (08 R266). -/
def execStackRecoveryDone (stack : Nat) (ok : Bool) (failed : List Nat) (s : State) : Res :=
  .next (if stack < 16 && (s.stackOf stack).state == 1 && (!ok || s.linkReady (33 + stack)) then
    if ok then
      let s1 := verifyStack stack (s.updStack stack (fun x => { x with state := 0 }))
      failed.foldl (fun st ch => mapoutStart (ch * 16 + stack) st) (unfence (33 + stack) 4000 s1)
    else failStack stack 4 s
  else s)

/-! ## Runtime commands -/

/-- A doubleword of a window. -/
def Window.get (w : Window) (i : Nat) : Nat := ((w.job[i]?).getD 0#64).toNat

/-- May an engine command name this format (08 R276, R273)? -/
def State.engineFmt (s : State) (h code : Nat) : Option Fmt :=
  match Fmt.ofCode code with
  | some f => if f == .fp32 || f == .int32 || ((f == .fp16 || f == .bf16) && s.scat16 h) then some f else none
  | none => none

/-- Would the address receive RESP_ERR (02 R61, 08 R278)? -/
def State.engineErr (s : State) (stack a : Nat) (op : PktOp) (len : Nat) : Bool :=
  match s.targetOf a with
  | none => true
  | some 63 => true
  | some t => s.fenced t || (accessErr t ⟨op, 33 + stack, t, 0, a, false, List.replicate len 0#8, [], len⟩ s).isSome

/-- One operation of REDUCE on FP32 or INT32 codes, with the flags it sets (08 R276, 06 R198). -/
def reduceOp (isInt : Bool) (fn a b : Nat) : Nat × Sticky :=
  if isInt then redOp true false fn a b
  else if f32.decode a = .nan || f32.decode b = .nan then (0x7FC00000, fNan)
  else if fn = 0 then f32.encode .rne .acc false (sumNums [f32.decode a, f32.decode b])
  else redOp false false fn a b

/-- The elements of a reduction, as FP32 or INT32 codes. -/
def reduceElems (f : Fmt) : Nat → List Byte → List Nat
  | 0, _ => []
  | n + 1, bs =>
    let c := leNat (bs.take f.bytes)
    (if f.isInt then c else (convert f .fp32 none .rne true false c).1) :: reduceElems f n (bs.drop f.bytes)

/-- The exponent of the smallest power of two not below a number (08 R276). -/
def log2Up (n : Nat) : Nat := if n ≤ 1 then 0 else Nat.log2 (n - 1) + 1

/-- The value and the flags of a reduction in the fixed tree (08 R276). With a NaN element the result is the canonical NaN. -/
def reduceVal (f : Fmt) (fn count : Nat) (bs : List Byte) : Nat × Sticky :=
  let x := reduceElems f count bs
  let k := log2Up count
  let pad := x ++ List.replicate (2 ^ k - count) (redId f.isInt fn)
  let nan : Bool := !f.isInt && x.any (fun c => f32.decode c == .nan)
  let (v, fl) := redTree (reduceOp f.isInt fn) k pad
  (if nan then 0x7FC00000 else v, fl ||| flagIf nan fNan)

/-- The result of a REDUCE: value, status, flags (08 R275, R276, R278). -/
def State.reduceRes (s : State) (stack : Nat) (w : Window) : Nat × Nat × Nat :=
  let src := w.get 1 % 2 ^ 48
  let count := w.get 2 % 2 ^ 32
  let fn := bitsOf (w.get 0) 13 12
  match s.engineFmt (33 + stack) (bitsOf (w.get 0) 11 8) with
  | none => (0, 1, 0)
  | some f =>
    let len := count * f.bytes
    if fn = 3 || src % f.bytes != 0 || w.get 3 % 16 != 0 then (0, 1, 0)
    else if 4096 < src % 4096 + len || s.homePort src != some (33 + stack) then (0, 2, 0)
    else if s.engineErr stack src .read len then (0, 4, 0)
    else if (s.cohPoison src len).isSome then (if f.isInt then 0 else 0x7FC00000, 3, 0)
    else
      let (v, fl) := reduceVal f fn count (s.cohRead src len)
      (v, 0, fl.toNat)

/-- Does an access of an engine wait for a tier tile to be fetched (09 R301)? -/
def State.tileWait (s : State) (a : Nat) (write : Bool) : Bool :=
  match s.zone a with
  | .tiered t => (s.resolve a).isNone && !s.tierBars t write
  | _ => false

/-- The bytes a REDUCE reads. -/
def State.reduceLen (s : State) (stack : Nat) (w : Window) : Nat :=
  match s.engineFmt (33 + stack) (bitsOf (w.get 0) 11 8) with | some f => w.get 2 % 2 ^ 32 * f.bytes | none => 0

/-- Is a KV_APPEND refused, and why (08 R275, R277, R278)? 0: it is performed. -/
def State.appendCheck (s : State) (stack : Nat) (w : Window) : Nat :=
  let count := w.get 2 % 2 ^ 32
  let stride := w.get 6 % 2 ^ 32
  let slots := bitsOf (w.get 6) 63 32
  if w.get 1 % 64 != 0 || w.get 3 % 16 != 0 || w.get 4 % 8 != 0 || w.get 5 % 64 != 0 || count % 64 != 0
      || decide (count < 64) || decide (256 < count) || stride % 64 != 0 || slots == 0 then 1
  else if s.homePort (w.get 4 % 2 ^ 48) != some (33 + stack) then 2
  else if s.engineErr stack (w.get 4 % 2 ^ 48) .atomic 16 then 4
  else 0

/-- The row of an append goes out as full-sector writes (08 R277, step 2). -/
def appendRow (core stack tag a : Nat) (poison : Bool) : Nat → List Byte → State → State
  | 0, _, s => s
  | k + 1, bs, s =>
    let s1 := requestAt .write (33 + stack) a poison (bs.take 64) 0 (.engine core stack tag) s
    appendRow core stack tag (a + 64) poison k (bs.drop 64) s1

/-- Change a core's window of a stack. -/
def updWindow (core stack : Nat) (f : Window → Window) (s : State) : State :=
  s.updStack stack (fun x => { x with win := upd {} x.win core f })

/-- KV_APPEND: the counter is taken, the row copied (08 R277, steps 1 and 2). -/
def appendStart (core stack tag : Nat) (w : Window) (s : State) : State :=
  match s.appendCheck stack w with
  | 0 =>
    let ctr := w.get 4 % 2 ^ 48
    let src := w.get 1 % 2 ^ 48
    let count := w.get 2 % 2 ^ 32
    let n := s.cohLE ctr 8
    let bad := (s.cohPoison src count).isSome
    let st := if s.engineErr stack src .read count then 4 else if bad then 3 else 0
    let s1 := cohWrite ctr (leBytes 8 (n + 1)) (serveReads src count (serveReads ctr 8 s))
    let s2 := updWindow core stack (fun x => { x with value := n, status := st, flags := 0 }) s1
    let dst := w.get 5 % 2 ^ 48 + n % (bitsOf (w.get 6) 63 32) * (w.get 6 % 2 ^ 32)
    if st = 4 then s2 else appendRow core stack tag dst bad (count / 64) (s.cohRead src count) s2
  | e => updWindow core stack (fun x => { x with value := 0, status := e, flags := 0 }) s

/-- Does the way between two ports carry packets now: both links, or none for a port's own (02 R35)? -/
def State.wayUp (s : State) (a b : Nat) : Bool := a == b || (s.portUp a && s.portUp b)

/-- Does a command's source read wait: for its tile (09 R301), or for the way to a home that is not fenced (02 R35, R55)? -/
def State.sourceWaits (s : State) (stack a : Nat) : Bool :=
  s.tileWait a false || match s.targetOf a with
    | some t => !s.fenced t && !s.wayUp (33 + stack) t
    | none => false

/-- Does a command wait for a tile or a way: REDUCE and KV_APPEND their source, KV_APPEND its counter too (09 R301; 02 R35)? -/
def State.windowWaits (s : State) (stack : Nat) (w : Window) : Bool :=
  match w.get 0 % 256 with
  | 4 => s.tileWait (w.get 1 % 2 ^ 48) false
  | 5 => s.sourceWaits stack (w.get 1 % 2 ^ 48) || s.tileWait (w.get 4 % 2 ^ 48) true
  | _ => false

/-- The engine performs the command of a window, or waits for a tile it needs (08 R276, R277; 09 R301). -/
def windowGo (core stack : Nat) (s : State) : State :=
  let w := look {} (s.stackOf stack).win core
  if s.windowWaits stack w || !s.siteLive (33 + stack) then updWindow core stack (fun x => { x with wait := true }) s
  else
    let s1 := updWindow core stack (fun x => { x with wait := false }) s
    match w.get 0 % 256 with
    | 4 =>
      let (v, st, fl) := s.reduceRes stack w
      let s2 := if st = 0 ∨ st = 3 then serveReads (w.get 1 % 2 ^ 48) (s.reduceLen stack w) s1 else s1
      updWindow core stack (fun x => { x with value := v, status := st, flags := fl }) s2
    | 5 => appendStart core stack (w.get 7 % 2 ^ 32) w s1
    | _ => updWindow core stack (fun x => { x with value := 0, status := 1, flags := 0 }) s1

/-- The window commands that wait for a tile are taken up again. -/
def windowsGo (s : State) : State :=
  (List.range 16).foldl (fun st k =>
    (((st.stackOf k).win.filter (fun w => w.2.wait)).map Prod.fst).foldl (fun u c => windowGo c k u) st) s

/-- A store to +0x38 of a window submits its command; while BUSY it is dropped with an event (08 R274, R275). -/
def submit (core stack tag : Nat) (s : State) : State :=
  let w := look {} (s.stackOf stack).win core
  if (s.coreOf core).fence then s
  else if w.busy then setupRefused (.core core) (0x0680000 + 0x400 * core + 0x40 * stack + 0x38) s
  else
    let dw := setAt w.dw 7 (BitVec.ofNat 64 (tag % 2 ^ 32))
    windowGo core stack (updWindow core stack (fun _ => { w with dw := dw, job := dw, busy := true }) s)

/-- REDUCE: a core submits its window (08 R274 to R276). -/
def execReduce (core stack tag : Nat) (s : State) : Res := .next (submit core stack tag s)

/-- KV_APPEND: a core submits its window (08 R274, R275, R277). -/
def execKvAppend (core stack tag : Nat) (s : State) : Res := .next (submit core stack tag s)

/-- Has every write of a window command been acknowledged? -/
def State.windowDone (s : State) (core stack : Nat) : Bool :=
  !(s.hub.outst.map Outst.use ++ s.hub.bound.map Prod.snd).any (fun u => match u with
    | .engine c k _ => c == core && k == stack | _ => false)

/-- STACK_CMD_RESULT: the result record is written, SYNC receives ADD 1 and BUSY clears (08 R274, R277, R278). A record in a tier
tile that is not resident waits for the fetch (09 R301), and one in a part not recorded open, like the counter, for that record
(R303); the record and the add wait for the links they go over (02 R35). A command that waits itself is taken up again first. -/
def execStackCmdResult (core stack : Nat) (s : State) : Res :=
  let w := look {} (s.stackOf stack).win core
  let res := w.get 3 % 2 ^ 48 / 16 * 16
  let out := s.engineErr stack res .write 64
  .next (if w.busy && w.wait then windowGo core stack s
  else if w.busy && s.siteLive (33 + stack) && (s.partPending (w.get 4 % 2 ^ 48) && w.get 0 % 256 == 5) then s
  else if w.busy && !out && !s.tileWait res true && (openWait res s).isSome then touchFrame res true s
  else if w.busy && s.siteLive (33 + stack) && s.windowDone core stack && s.portUp (33 + stack) && !s.tileWait res true
      && (out || s.wayUp (33 + stack) ((s.targetOf res).getD 63)) then
    let bs := leBytes 8 w.value ++ [BitVec.ofNat 8 w.status, BitVec.ofNat 8 w.flags, 0#8, 0#8] ++ leBytes 4 (w.get 7)
    let s1 := if out then s else cohWrite res bs s
    let s2 := syncSendAdd (33 + stack) (bitsOf (w.get 0) 44 32) 1#64 .plain s1
    updWindow core stack (fun x => { x with busy := false }) s2
  else s)

end Sys2Proof.Machine
end

