-- ==== Sys2Proof/Machine/Tier.lean ====
section
/-!
DEFINITION. The deep tier: its map and frames, fetches, evictions, write-back, pins, the flash translation layer and
the failure of a tier die (09 R299 to R323).
-/
namespace Sys2Proof.Machine

/-! ## Accesses that wait -/

/-- An access to a tile that the hub's map does not hold stalls in the hub; a failed die's tiles answer an error, and
so do writes to a read-only one (09 R301, R313, R314). -/
def tierStall (p : Pkt) (s : State) : State :=
  match s.zone p.addr with
  | .tiered t =>
    if s.tierBars t (isWriteOp p) then refuseAs (60 + t % 2) p 0x04 s
    else s.withTier { s.tier with wait := s.tier.wait ++ [p] }
  | _ => refuse p 0x04 s

/-- The tile of a stalled access. -/
def tileOfAddr (a : Nat) : Nat := (a - tierBase) / 0x100000

/-- The hub sends a stalled access on to the home its address resolves to (09 R301). -/
def tierRelease (p : Pkt) (s : State) : State :=
  match s.targetOf p.addr with
  | none => s
  | some dst =>
    let outst := s.hub.outst.map (fun o => if o.src == p.src && o.tid == p.tid then { o with dst := dst } else o)
    hubTake { p with dst := dst } false true (s.withHub { s.hub with outst := outst })

/-- The hub's map holds a tile: every access stalled on it goes on, and so do the engine commands that wait (09 R301). -/
def tierGo (tile f : Nat) (s : State) : State :=
  let mine := s.tier.wait.filter (fun p => tileOfAddr p.addr == tile)
  let s1 := s.withTier { s.tier with
    tmap := put 0 s.tier.tmap tile (f + 1)
    wait := s.tier.wait.filter (fun p => tileOfAddr p.addr != tile) }
  windowsGo (mine.foldl (fun st p => tierRelease p st) s1)

/-! ## Frames -/

/-- The frame that holds a tile, filled or being filled. -/
def State.frameWith (s : State) (tile : Nat) : Option Nat :=
  (s.tier.frames.find? (fun f => f.2.tile == some tile)).map Prod.fst

/-- The clock sweep (09 R304): from a frame on, set reference bits are cleared, pinned and filling frames skipped, and
the first frame whose bit is clear is chosen. -/
def sweep : Nat → Nat → State → Option Nat × State
  | 0, _, s => (none, s)
  | n + 1, f, s =>
    let fr := look {} s.tier.frames f
    let next := (f + 1) % max 1 s.memc.frameCount
    if fr.pinned || fr.filling || fr.evicting then sweep n next s
    else if fr.refbit then
      sweep n next (s.withTier { s.tier with frames := put {} s.tier.frames f { fr with refbit := false } })
    else (some f, s.withTier { s.tier with sweep := next })

/-- Give a tile a free frame to be fetched into (09 R301). -/
def fillFrame (tile f : Nat) (pre : Bool) (s : State) : State :=
  let pin := (List.range 64).any (fun n =>
    bitOf (s.reg (tierPin n)).toNat 63 && decide (s.regFld (tierPin n) 24 0 ≤ tile)
      && decide (tile < s.regFld (tierPin n) 24 0 + s.regFld (tierPin n) 49 25))
  let fr : Frame := { tile := some tile, filling := true, prefetched := pre, pinned := pin }
  s.withTier { s.tier with frames := put {} s.tier.frames f fr }

/-- Choose a victim for a tile that waits for a frame, where there is one (09 R304). -/
def chooseVictim (s : State) : Bool × State :=
  match sweep (2 * s.memc.frameCount) s.tier.sweep s with
  | (none, s1) => (false, s1)
  | (some f, s1) => (true, s1.withTier { s1.tier with frames := upd {} s1.tier.frames f (fun x => { x with evicting := true }) })

/-- Is a fetch of a tile waiting for a frame? -/
def State.fetchWaits (s : State) (tile : Nat) : Bool := s.tier.fetching.any (fun t => t.1 == tile)

/-- A fetch of a tile of the 2^25 starts: into a free frame, or once a victim has been evicted (09 R300, R301, R304). A tile fetched
ahead needs a frame that is free or can be evicted (R302). -/
def startFetch (tile : Nat) (pre : Bool) (s : State) : State :=
  if 33554432 ≤ tile || (s.frameWith tile).isSome || s.fetchWaits tile || (s.tdieOf (tile % 2)).state == 3 then s
  else match s.spareFrame [] with
    | some f => fillFrame tile f pre s
    | none =>
      let (found, s1) := chooseVictim s
      if pre && !found then s1 else s1.withTier { s1.tier with fetching := s1.tier.fetching ++ [(tile, pre)] }

/-- Port 63's own accesses to tiles that the hub's map does not hold wait, and the tiles are fetched (09 R301). A transfer over more
tiles than there are frames takes them in turn: a tile that has been resident since it started holds it back no more. -/
def tilesReady (c : Cmd) (write : Bool) (l : List Nat) (s : State) : Bool × State :=
  let miss := (l.filter (fun a => s.tileWait a write)).filter (fun a => !has (tileOfAddr a) c.tiles)
  let here := (l.filter (fun a => (match s.zone a with | .tiered _ => true | _ => false) && !s.tileWait a write)).map tileOfAddr
  let s1 := s.updCmd c.ring c.seq (fun x => { x with tiles := here.foldl (fun m t => ins t m) x.tiles })
  (miss.isEmpty, miss.foldl (fun st a => startFetch (tileOfAddr a) false st) s1)

/-- The tier map's entry that makes way when all 65,536 are in use: a miss costs only time (09 R301). -/
def mapRoom (s : State) : State :=
  if s.tier.tmap.length < 65536 then s
  else match s.tier.tmap with
    | [] => s
    | (t, _) :: _ => s.withTier { s.tier with tmap := put 0 s.tier.tmap t 0 }

/-- TIER_MAP_MISS: the hub asks the serving tier die for a tile it has no entry of (09 R301). -/
def execTierMapMiss (tile : Nat) (s : State) : Res :=
  .next (if (s.frameOf tile).isSome then s else s.withTier { s.tier with asked := ins tile s.tier.asked })

/-- TIER_MAP_REPLY: a resident tile fills the map and its accesses go on; otherwise its fetch starts (09 R301). -/
def execTierMapReply (tile : Nat) (s : State) : Res :=
  .next (if !has tile s.tier.asked then s
    else
      let s1 := s.withTier { s.tier with asked := del tile s.tier.asked }
      match s1.tier.frames.find? (fun f => f.2.tile == some tile && !f.2.filling) with
      | some (f, _) => tierGo tile f (mapRoom s1)
      | none => startFetch tile false s1)

/-- FRAME_EVICTION_DONE: copies are recalled, dirty parts read out, the map entry dropped; the frame goes to the
first tile that waits for one. An eviction that an access cancelled leaves the tile resident, and another frame is
chosen (09 R304). -/
def execFrameEvictionDone (frame : Nat) (s : State) : Res :=
  .next (match s.tier.fetching with
    | [] => s.withTier { s.tier with frames := upd {} s.tier.frames frame (fun x => { x with evicting := false }) }
    | (t, pre) :: r =>
      if (look {} s.tier.frames frame).evicting then
        let s1 := vacate frame s
        fillFrame t frame pre (s1.withTier { s1.tier with fetching := r })
      else if s.tier.frames.any (fun f => f.2.evicting) then s
      else (chooseVictim s).2)

/-! ## Fetches -/

/-- A fetch reads every part of its tile: each adds one to the reads of its block since that was programmed (09 R311). -/
def countReads (tile : Nat) (d : TierDie) : TierDie :=
  let blocks := ((List.range 16).map (fun i => look 0 d.blockMap (tile * 16 + i))).filter (fun b => b != 0)
  { d with reads := blocks.foldl (fun m b => upd 0 m (b - 1) (fun n => n + 1)) d.reads }

/-- Bring a tile's bytes into its frame, each sector with its check word. The sectors of the tile that flash cannot recover arrive
poisoned; a part with such a sector is counted and reported (09 R307, R312, 16 R560). The tier die verifies every other sector against
the word stored with it: one that differs is stored poisoned, with CHECKWORD of point 6 (16 R552, R553). -/
def fetchTile (tile f : Nat) (bad : List Nat) (s : State) : State :=
  let a := s.memc.frameBase + f * 0x100000
  let k0 := tile * 16384
  let differ := (List.range 16384).filter (fun k => !has k bad && s.tier.flash.ckBad (k0 + k) && !s.tier.flash.isPoison (k0 + k))
  let got := s.mem.restoreAt (s.tier.flash.save (tile * 0x100000) 0x100000) a
  let mark := fun (base : Nat) (m : Ram) => differ.foldl (fun m k => (m.setPoison (base + k) true).fixCk (base + k))
    (bad.foldl (fun m k => m.setPoison (base + k) true) m)
  let s1 := s.withMem (mark (a / 64) got)
  let s2 := differ.foldl (fun st k => evCheckword 6 false (60 + tile % 2) (tierBase + tile * 0x100000 + 64 * k) st)
    (s1.withTier { s1.tier with flash := mark k0 s1.tier.flash })
  (bad.map (fun k => k / 1024)).eraseDups.foldl (fun st part =>
    post (ev 0x04 (some (60 + tile % 2)) 2 [tierBase + tile * 0x100000 + part * 0x10000])
      (st.updTdie (tile % 2) (fun d => { d with uncorr := satAdd 0xFFFF d.uncorr 1 }))) (s2.updTdie (tile % 2) (countReads tile))

/-- After two consecutive tiles for one source port the next four are fetched ahead (09 R302). -/
def prefetchAhead (src tile : Nat) (s : State) : State :=
  let (prev, run) := look (0, 0) s.tier.last src
  let run' := if run != 0 && prev + 1 == tile then run + 1 else 1
  let s1 := s.withTier { s.tier with last := put (0, 0) s.tier.last src (tile, min run' 2) }
  if 2 ≤ run' then [1, 2, 3, 4].foldl (fun st k => startFetch (tile + k) true st) s1 else s1

/-- TIER_FETCH_DONE: the tile is in its frame; the map is filled and its accesses are released (09 R301). `bad`: the sectors of the
tile that flash could not recover (R307). -/
def execTierFetchDone (tile : Nat) (bad : List Nat) (s : State) : Res :=
  .next (match s.tier.frames.find? (fun f => f.2.tile == some tile && f.2.filling) with
    | none => s
    | some (f, _) =>
      let s1 := fetchTile tile f (bad.filter (fun k => k < 16384)) s
      let s2 := s1.withTier { s1.tier with frames := upd {} s1.tier.frames f (fun x => { x with filling := false }) }
      let s3 := match s2.tier.wait.find? (fun p => tileOfAddr p.addr == tile) with
        | some p => prefetchAhead p.src tile s2
        | none => s2
      tierGo tile f (mapRoom s3))

/-! ## Dirty parts -/

/-- PART_OPEN_RECORDED: the tier die's journal holds the part as open; the writes that waited are acknowledged,
and what the pools held back goes on (09 R303). -/
def execPartOpenRecorded (part : Nat) (s : State) : Res :=
  let tile := part / 16
  let s1 := s.updTdie (tile % 2) (fun d => { d with openParts := ins part d.openParts })
  let s2 := match s1.frameWith tile with
    | some f => s1.withTier { s1.tier with frames := upd {} s1.tier.frames f (fun x =>
        { x with opened := ins (part % 16) x.opened }) }
    | none => s1
  let go := s2.tier.waitRec.filter (fun w => w.1 == part)
  .next (poolsGo (go.foldl (fun st w => send w.2 st)
    (s2.withTier { s2.tier with waitRec := s2.tier.waitRec.filter (fun w => w.1 != part) })))

/-- Is a part dirty in its frame now? -/
def State.dirtyNow (s : State) (part : Nat) : Bool :=
  match s.frameWith (part / 16) with
  | some f => has (part % 16) (look {} s.tier.frames f).dirty
  | none => false

/-- A part read out has been programmed into a block that is not retired: that is its location, the old one is free, and the block's
reads count anew (09 R309, R311). Its bytes count
unless background work read it out, and its open record is cleared unless it is dirty again (R304, R313, R321). -/
def programPart (part block : Nat) (s : State) : State :=
  let d := part / 16 % 2
  let n := if has part (s.tdieOf d).quiet then 0 else 0x10000
  if has part (s.tdieOf d).programming && !has block (s.tdieOf d).retired then
    let s1 := s.withTier { s.tier with written := (s.tier.written + n) % 2 ^ 64 }
    s1.updTdie d (fun x =>
      { x with programming := del part x.programming
               quiet := del part x.quiet
               bytes := x.bytes + n
               blockMap := put 0 x.blockMap part (block + 1)
               reads := put 0 x.reads block 0
               openParts := if s.dirtyNow part then x.openParts else del part x.openParts })
  else s

/-- FLASH_PROGRAM_DONE (09 R304, R309). -/
def execFlashProgramDone (part block : Nat) (s : State) : Res := .next (programPart part block s)

/-- Write back the dirty parts of a frame; they are clean (09 R303, R306). `quiet`: as background work. -/
def cleanFrame (quiet : Bool) (f : Nat) (s : State) : State :=
  let fr := look {} s.tier.frames f
  match fr.tile with
  | none => s
  | some t =>
    let s1 := fr.dirty.foldl (fun st part => partToFlash quiet t part st) s
    s1.withTier { s1.tier with frames := upd {} s1.tier.frames f (fun x =>
      { x with dirty := [], opened := x.opened.filter (fun p => !has p x.dirty) }) }

/-- Dirty parts of the tier (09 R322). -/
def State.dirtyParts (s : State) : Nat := (s.tier.frames.map (fun f => f.2.dirty.length)).sum

/-- TIER_BACKGROUND_WRITEBACK: while more than DIRTYMAX GiB is dirty, the first dirty frame is written back
(09 R306). -/
def execTierBackgroundWriteback (s : State) : Res :=
  .next (if s.dirtyMax * 16384 < s.dirtyParts then
    match s.tier.frames.find? (fun f => !f.2.dirty.isEmpty) with
    | some (f, _) => cleanFrame true f s
    | none => s
  else s)

/-- A flush starts: every part dirty now is written back (09 R306). -/
def flushStart (s : State) : State :=
  if s.tier.flushing then s
  else
    let s1 := (s.tier.frames.map Prod.fst).foldl (fun st f => cleanFrame false f st) s
    s1.withTier { s1.tier with flushing := true }

/-- TIER_FLUSH: a write of 1 to TIER_CTL.FLUSH (09 R306, R319). -/
def execTierFlush (who : Agent) (s : State) : Res := .next (pfWrite who 0x0700000 flushStart s)

/-- A block of a tier die that is not retired: the first from a free one on (09 R311; log 24). -/
def TierDie.goodBlock (d : TierDie) (n : Nat) : Nat :=
  (((List.range (d.retired.length + 1)).map (fun i => (n + i) % 2 ^ 20)).find? (fun b => !has b d.retired)).getD (n % 2 ^ 20)

/-- Every part read out is programmed, each into a block the spec does not name, and the flush has ended (09 R306, R309). -/
def flushEnd (s : State) : State :=
  let parts := (s.tdieOf 0).programming ++ (s.tdieOf 1).programming
  let s1 := parts.foldl (fun st p => programPart p ((st.tdieOf (p / 16 % 2)).goodBlock (st.draw 7).1.toNat) (st.draw 7).2) s
  s1.withTier { s1.tier with flushing := false }

/-- TIER_FLUSH_DONE: FLUSH reads 0 (09 R306). -/
def execTierFlushDone (s : State) : Res := .next (if s.tier.flushing then flushEnd s else s)

/-! ## Pins -/

/-- TIER_PINn's fields FIRST and COUNT (09 R323). -/
def pinRange (v : Nat) : Nat × Nat := (bitsOf v 24 0, bitsOf v 49 25)

/-- Pin or unpin the frames of a range; a pinned one is evicted no more (09 R304, R305). -/
def pinFrames (first count : Nat) (on : Bool) (s : State) : State :=
  s.withTier { s.tier with frames := s.tier.frames.map (fun f => match f.2.tile with
    | some t => if decide (first ≤ t) && decide (t < first + count) then
        (f.1, { f.2 with pinned := on, evicting := f.2.evicting && !on }) else f
    | none => f) }

/-- Re-pin the frames of every valid entry. -/
def repin (s : State) : State :=
  (List.range 64).foldl (fun st n =>
    if bitOf (st.reg (tierPin n)).toNat 63 then
      let (a, k) := pinRange (st.reg (tierPin n)).toNat
      pinFrames a k true st
    else st) s

/-- Clear an entry: its tiles are pinned no more, unless another entry holds them (09 R305). -/
def pinClear (n : Nat) (s : State) : State :=
  let v := (s.reg (tierPin n)).toNat
  let (first, count) := pinRange v
  let s1 := s.setReg (tierPin n) (BitVec.ofNat 64 (v % 2 ^ 63))
  repin ((pinFrames first count false s1).withTier { s1.tier with
    frames := (pinFrames first count false s1).tier.frames
    resident := put false s1.tier.resident n false })

/-- Set an entry VALID: a range it held is pinned no more, its tiles are fetched and pinned; a range beyond half of the frames leaves VALID 0 and raises
an event (09 R305). -/
def pinSet (who : Agent) (n first count : Nat) (old : State) : State :=
  let s := if bitOf (old.reg (tierPin n)).toNat 63 then pinClear n old else old
  let v := at_ (count % 2 ^ 25) 25 + first % 2 ^ 25
  if s.memc.frameCount < 2 * count then setupRefused who (tierPin n) (s.setReg (tierPin n) (BitVec.ofNat 64 v))
  else
    let s1 := s.setReg (tierPin n) (BitVec.ofNat 64 (v + 2 ^ 63))
    let s2 := s1.withTier { s1.tier with resident := put false s1.tier.resident n false }
    (List.range count).foldl (fun st i => startFetch (first + i) false st) (pinFrames first count true s2)

/-- TIER_PIN_SET (09 R305, R323). -/
def execTierPinSet (who : Agent) (n first count : Nat) (s : State) : Res :=
  .next (if n < 64 then pfWrite who (tierPin n) (pinSet who n (first % 2 ^ 25) (count % 2 ^ 25)) s else s)

/-- TIER_PIN_CLEAR (09 R305). -/
def execTierPinClear (who : Agent) (n : Nat) (s : State) : Res :=
  .next (if n < 64 then pfWrite who (tierPin n) (pinClear n) s else s)

/-- TIER_PIN_RESIDENT: RESIDENT reads 1 once every tile of the range is in place (09 R305, R323). -/
def execTierPinResident (n : Nat) (s : State) : Res :=
  let (first, count) := pinRange (s.reg (tierPin n)).toNat
  let all := (List.range count).all (fun i => s.tier.frames.any (fun f => f.2.tile == some (first + i) && !f.2.filling))
  .next (if bitOf (s.reg (tierPin n)).toNat 63 && all then
    s.withTier { s.tier with resident := put false s.tier.resident n true }
  else s)

/-! ## Flash -/

/-- WEAR_LEVELLING: the parts in one block move to another, which is not retired (09 R309, R311). -/
def execWearLevelling (die fromBlock toBlock : Nat) (s : State) : Res :=
  .next (s.updTdie die (fun d =>
    if has toBlock d.retired || fromBlock == toBlock then d
    else
      { d with blockMap := d.blockMap.map (fun m => if m.2 == fromBlock + 1 then (m.1, toBlock + 1) else m)
               erases := upd 0 d.erases fromBlock (fun n => n + 1)
               reads := put 0 (put 0 d.reads fromBlock 0) toBlock 0 }))

/-- READ_DISTURB_RELOCATE: a block read 100,000 times since it was programmed is rewritten and its count starts again (09 R311). -/
def execReadDisturbRelocate (die block : Nat) (s : State) : Res :=
  .next (s.updTdie die (fun d =>
    if 100000 ≤ look 0 d.reads block then
      { d with reads := put 0 d.reads block 0, erases := upd 0 d.erases block (fun n => n + 1) }
    else d))

/-- BAD_BLOCK_RETIRE: the block is retired and one of the spare area, `repl`, takes its place and its parts; a block that is retired itself replaces none; `spare` is
SPARE_PCT after it. At 10 an event follows, at 2 the die turns read-only (09 R311, R313, 16 R560). -/
def execBadBlockRetire (die block repl spare : Nat) (s : State) : Res :=
  if has repl (s.tdieOf die).retired || block == repl then .next s
  else
  let old := (s.tdieOf die).spare
  let ro := decide (spare ≤ 2) && decide (2 < old) && (s.tdieOf die).state == 1
  let s1 := s.updTdie die (fun d =>
    { d with retired := ins block d.retired
             blockMap := d.blockMap.map (fun m => if m.2 == block + 1 then (m.1, repl + 1) else m)
             spare := spare
             state := if ro then 2 else d.state })
  let port := some (60 + die)
  let s2 := if spare ≤ 10 && 10 < old then post (ev 0x13 port spare []) s1 else s1
  .next (if ro then post (ev 0x13 port (spare + 2 ^ 31) []) s2 else s2)

/-- Drop a frame of a failed tier die: its dirty parts are lost and named (09 R314). -/
def loseFrame (f : Nat) (s : State) : State :=
  let fr := look {} s.tier.frames f
  match fr.tile with
  | none => s
  | some t =>
    let s1 := (List.range 16384).foldl (fun st k => dropCopies (tierBase / 64 + t * 16384 + k) st) s
    fr.dirty.foldl (fun st part =>
      post (ev 0x04 (some (60 + t % 2)) 3 [tierBase + t * 0x100000 + part * 0x10000]) st) (freeFrame t f (notResident t s1))

/-- A tier die is lost: its frames are dropped, its dirty parts are lost, its tiles answer errors (09 R314, 01 R34). -/
def tierFails (die cause : Nat) (s : State) : State :=
  if die < 2 && (s.tdieOf die).state != 3 then
    let mine := s.tier.frames.filter (fun f => match f.2.tile with | some t => t % 2 == die | none => false)
    let s1 := s.updTdie die (fun d => { d with state := 3, programming := [], quiet := [] })
    let s2 := mine.foldl (fun st f => loseFrame f.1 st) s1
    let stuck := s2.tier.wait.filter (fun p => tileOfAddr p.addr % 2 == die)
    let s3 := s2.withTier { s2.tier with
      wait := s2.tier.wait.filter (fun p => tileOfAddr p.addr % 2 != die)
      fetching := s2.tier.fetching.filter (fun t => t.1 % 2 != die) }
    windowsGo <| dieFailed (60 + die) cause (stuck.foldl (fun st p => refuseAs (60 + die) p 0x04 st) s3)
  else s

/-- TIER_DIE_FAILURE (09 R314, 01 R34). -/
def execTierDieFailure (die : Nat) (s : State) : Res := .next (tierFails die 4 s)

/-- WEAR_PCT: the share of 58,400 TiB that is written, half of it rated for each die (09 R313, R320). -/
def State.wearPct (s : State) (die : Nat) : Nat := min 0xFF ((s.tdieOf die).bytes * 100 / (29200 * 2 ^ 40))

/-- TIER_DIEd (09 R320). -/
def State.tierDieWord (s : State) (die : Nat) : Word :=
  let d := s.tdieOf die
  BitVec.ofNat 64 (at_ d.spare 56 + at_ (s.wearPct die) 48 + at_ d.uncorr 32 + d.state)

/-- TIER_DIE_READ: UNCORR is returned and cleared (09 R320); before READY the host reads 0 (17 R578). -/
def execTierDieRead (who : Agent) (die : Nat) (s : State) : Res :=
  let off := 0x0700010 + 8 * die
  .next (if s.hostGate who then
      (reply who off (s.tierDieWord die) s).updTdie die (fun d => { d with uncorr := 0 })
    else shutRead who off s)

/-- MEM_POOLSTATd (09 R318). -/
def State.poolStat (s : State) (d : Nat) : Word :=
  let x := s.poolOf d
  BitVec.ofNat 64 (at_ x.uncorr 48 + at_ x.marked.length 15 + at_ x.active 4 + x.state)

/-- MEM_POOLSTAT_READ: UNCORR is returned and cleared (09 R318); before READY the host reads 0 (17 R578). -/
def execMemPoolstatRead (who : Agent) (die : Nat) (s : State) : Res :=
  let off := 0x0600440 + 8 * die
  .next (if s.hostGate who then
      (reply who off (s.poolStat die) s).updPool die (fun x => { x with uncorr := 0 })
    else shutRead who off s)

end Sys2Proof.Machine
end

