-- ==== Sys2Proof/Machine/Access.lean ====
section
/-!
DEFINITION. Requests that reach their target: reads, writes, masked writes, atomics, gathers and scatter-adds at a stack,
a pool die, the host die or a Ranoa die (02 R39, R40; 07 R231; 08 R268 to R273; 09 R289, R301), and accesses that the
memory attributes forbid a core (11 R364).
-/
namespace Sys2Proof.Machine

/-- A request at the port it was sent to. A tiered address whose tile is not resident waits in the hub; one that came to the hub and
whose tile is resident by now goes on to its home (09 R301). -/
def accessAt (p : Pkt) (e : DramErr) (s : State) : State :=
  match s.zone p.addr, s.resolve p.addr with
  | .tiered _, none => tierStall p s
  | _, _ =>
    if 33 ≤ p.dst ∧ p.dst ≤ 48 then homeStart p.dst p e s
    else if 49 ≤ p.dst ∧ p.dst ≤ 52 then poolArrive p e s
    else if p.dst = 57 then hostArrive p s
    else if p.dst = 58 ∨ p.dst = 59 then ranoaArrive p s
    else if p.dst = 63 then redirect p s
    else refuse p 0x04 s

/-- A request that reads or writes arrives (02 R49, R58, R60; 08 R246; 09 R292). -/
def accessRow (p : Pkt) (e : DramErr) (s : State) : State := homeRow p (accessAt p e) s

/-- The ATOMIC packet of one operation: its payload names it in byte 8 (08 R268). -/
def withAop (p : Pkt) (aop : Nat) : Pkt :=
  { p with op := .atomic, payload := setAt ((p.payload ++ List.replicate 16 0#8).take 16) 8 (BitVec.ofNat 8 aop) }
/-- The ENGINE packet of one command: its payload names it in byte 0 (08 R271). -/
def withEcmd (p : Pkt) (c : Nat) : Pkt := { p with op := .engine, payload := BitVec.ofNat 8 c :: p.payload.drop 1 }

/-- READ (02 R39; 07 R231; 08 R252; 09 R289). -/
def execRead (p : Pkt) (e : DramErr) (s : State) : Res := .next (accessRow { p with op := .read } e s)
/-- NARROW_READ (08 R270). -/
def execNarrowRead (p : Pkt) (e : DramErr) (s : State) : Res := .next (accessRow { p with op := .narrowRead } e s)
/-- WRITE (07 R231; 08 R252; 09 R289). -/
def execWrite (p : Pkt) (s : State) : Res := .next (accessRow { p with op := .write } .none s)
/-- WRITE_MASKED (02 R40; 06 R194). -/
def execWriteMasked (p : Pkt) (e : DramErr) (s : State) : Res := .next (accessRow { p with op := .writeMasked } e s)
/-- ATOMIC_SWAP (08 R268, R269). -/
def execAtomicSwap (p : Pkt) (e : DramErr) (s : State) : Res := .next (accessRow (withAop p 0) e s)
/-- ATOMIC_ADD (08 R268, R269). -/
def execAtomicAdd (p : Pkt) (e : DramErr) (s : State) : Res := .next (accessRow (withAop p 1) e s)
/-- ATOMIC_AND (08 R268, R269). -/
def execAtomicAnd (p : Pkt) (e : DramErr) (s : State) : Res := .next (accessRow (withAop p 2) e s)
/-- ATOMIC_OR (08 R268, R269). -/
def execAtomicOr (p : Pkt) (e : DramErr) (s : State) : Res := .next (accessRow (withAop p 3) e s)
/-- ATOMIC_XOR (08 R268, R269). -/
def execAtomicXor (p : Pkt) (e : DramErr) (s : State) : Res := .next (accessRow (withAop p 4) e s)
/-- ATOMIC_MIN (08 R268, R269). -/
def execAtomicMin (p : Pkt) (e : DramErr) (s : State) : Res := .next (accessRow (withAop p 5) e s)
/-- ATOMIC_MAX (08 R268, R269). -/
def execAtomicMax (p : Pkt) (e : DramErr) (s : State) : Res := .next (accessRow (withAop p 6) e s)
/-- ATOMIC_MINU (08 R268, R269). -/
def execAtomicMinu (p : Pkt) (e : DramErr) (s : State) : Res := .next (accessRow (withAop p 7) e s)
/-- ATOMIC_MAXU (08 R268, R269). -/
def execAtomicMaxu (p : Pkt) (e : DramErr) (s : State) : Res := .next (accessRow (withAop p 8) e s)
/-- GATHER_ROWS (08 R272; 09 R289). -/
def execGatherRows (p : Pkt) (e : DramErr) (s : State) : Res := .next (accessRow (withEcmd p 1) e s)
/-- SCATTER_ADD (08 R273; 06 R198). -/
def execScatterAdd (p : Pkt) (e : DramErr) (s : State) : Res := .next (accessRow (withEcmd p 3) e s)

/-- Does the table of attributes allow a core's access (11 R364)? The width of a register is not looked at: the row itself says
that an access to the internal space was one that faults. -/
def State.coreMay (s : State) (addr size : Nat) (kind : AccKind) : Bool :=
  match s.zone addr with
  | .direct | .tiered _ => true
  | .scratch _ => kind != .amo
  | .host | .ranoa _ =>
    match kind with
    | .load | .store => (size == 1 || size == 2 || size == 4 || size == 8) && addr % size == 0
    | .vector | .vectorStore => decide (1 ≤ size) && decide (addr % 64 + size ≤ 64)
    | .amo | .lrsc | .sc => false
  | _ => false

/-- CORE_ACCESS_FAULT: an access that the table of attributes does not allow raises the access fault of its kind (11 R364). -/
def execCoreAccessFault (core addr size : Nat) (kind : AccKind) (s : State) : Res :=
  .next (if s.coreMay addr size kind then s else coreTrap core (accCause kind) addr s)

end Sys2Proof.Machine
end

