-- ==== Sys2Proof/Machine/CmdAccept.lean ====
section
/-!
DEFINITION. Doorbells and polling, the fetch of descriptors, their checks, the journal, acceptance, and the heads of
rings (13 R441 to R465; 07 R229; 16 R572).
-/
namespace Sys2Proof.Machine

/-! ## Rings -/

/-- The rings that are enabled. -/
def State.ringsOn (s : State) : List Nat :=
  ((s.regs.filter (fun r => decide (0x210000 ≤ r.1) && decide (r.1 < 0x250000) && (r.1 - 0x210000) % 64 == 0
    && bitOf r.2.toNat 63)).map (fun r => (r.1 - 0x210000) / 64))

/-- Base of a submission ring (13 R446). -/
def State.rBase (s : State) (r : Nat) : Nat := s.regFld (ringCfg r + 8) 63 12 * 4096
/-- Address of a ring header. -/
def State.rHdr (s : State) (r : Nat) : Nat := s.regFld (ringCfg r + 0x10) 63 7 * 128
/-- Base of a completion ring. -/
def State.rCmp (s : State) (r : Nat) : Nat := s.regFld (ringCfg r + 0x18) 63 12 * 4096

/-- Is a host read with this use outstanding? -/
def State.reading (s : State) (u : HostRd) : Bool := s.hif.reads.any (fun r => r.2 == some u)
/-- The first host read with a use is complete. -/
def readDone (u : HostRd) (s : State) : State :=
  setReads (dropFirst (fun r => r.2 == some u) s.hif.reads) s

/-! ## Polling -/

/-- The outcome of the poll that has ended sets the next interval (13 R450). -/
def adaptPoll (s : State) : State :=
  let h := s.hif
  let idle := if h.polledDesc then 0 else h.pollIdle + 1
  let next := if h.polledDesc || !s.pollAdapt then (s.pollMin, 0)
    else if 16 ≤ idle then (min s.pollMax (2 * s.pollNow), 0) else (s.pollNow, idle)
  if h.polling then s.withHif { h with pollCur := next.1, pollIdle := next.2, polledDesc := false }
  else s.withHif { h with polling := true, pollCur := s.pollNow }

/-- Is a ring polled: enabled, a host ring, of a context of an attached function? -/
def State.polled (s : State) (r : Nat) : Bool := s.ringEn r && !s.ringDev r && s.attached (s.ringFn r)

/-- The descriptors of a ring that its reads have been asked for: its fetch count (13 R448). -/
def Ring.asked (r : Ring) : Nat := max r.fetched r.want
/-- Would the last CONS of a ring stop acceptance (13 R445)? -/
def State.consStops (s : State) (ring : Nat) : Bool := decide ((s.ringOf ring).cons + s.ringE ring ≤ (s.ringOf ring).asked)

/-- PROD is known: descriptors up to a bound are fetched, at most `lim` at a time (13 R445, R448). When the last CONS
stops acceptance the one just read counts; while that stops it too, a FULLS event is counted. -/
def prodRead (ring prod cons lim : Nat) (s : State) : State :=
  let lo := (s.ringOf ring).asked
  if prod ≤ lo then s.updRing ring (fun x => { x with prod := prod })
  else
    let c := if s.consStops ring then cons else (s.ringOf ring).cons
    let want := min (min prod (lo + lim)) (c + s.ringE ring)
    if want ≤ lo then
      s.updRing ring (fun x => { x with prod := prod, cons := c, stopped := true, fulls := satAdd 0xFFFF x.fulls 1 })
    else s.updRing ring (fun x => { x with prod := prod, cons := c, stopped := false, want := want })

/-- The dispatcher reads the header of a device-memory ring (13 R453): of a poisoned header, or one it cannot reach, it takes neither
PROD nor CONS, and reads it again at its next write (00 R3; log 33). -/
def devHeader (ring : Nat) (s : State) : State :=
  let h := s.rHdr ring
  let s1 := serveReads h 16 s
  if (s1.engErr 63 h false).isSome || (s1.cohPoison h 64).isSome then s1 else prodRead ring (s1.cohLE h 8) (s1.cohLE (h + 8) 8) 65536 s1

/-- The header of a host ring is read: 8 bytes, or CONS too when the last one stops acceptance (13 R445, R448). -/
def headerAsk (r : Nat) (s : State) : State :=
  if s.reading (.prod r) then s
  else hostRead (s.ringFn r) (s.untrans (s.ringCtx r)) (s.rHdr r) (if s.consStops r then 16 else 8) (.prod r) s

/-- DOORBELL_POLL (13 R448, R450; 12 R416, R418; 17 R578): the doorbell lines that hold a polled ring are read. A ring
whose acceptance has stopped has its header read again, a device-memory ring's too, whatever the link's state (13 R445). -/
def execDoorbellPoll (s : State) : Res :=
  let again := fun (st : State) => (st.ringsOn.filter (fun r => st.ringDev r && (st.ringOf r).stopped)).foldl (fun u r => devHeader r u) st
  .next (if !s.glb.ready || !s.disp.accepting then s
    else if s.hif.state != 2 then again s
    else
      let rs := s.ringsOn.filter s.polled
      let lines := (rs.map (fun r => (s.ringFn r, r / 512))).eraseDups
      let s1 := lines.foldl (fun st l =>
        if st.reading (.line l.1 l.2) then st
        else hostRead l.1 (.untranslated none) (s.regFld (sessReg l.1 + 0x18) 63 9 * 512 + 64 * l.2) 64 (.line l.1 l.2) st) (adaptPoll (again s))
      (rs.filter (fun r => (s.ringOf r).stopped)).foldl (fun st r => headerAsk r st) s1)

/-- DOORBELL_LINE_READ (13 R447, R448): PROD is read for each set bit of a polled ring of the function. -/
def execDoorbellLineRead (fn line : Nat) (bits : BitVec 512) (s : State) : Res :=
  .next (if !s.reading (.line fn line) then s
    else (List.range 512).foldl (fun st i =>
      let r := 512 * line + i
      if bits.getLsbD i && s.polled r && s.ringFn r == fn then headerAsk r st else st) (readDone (.line fn line) s))

/-- PROD_READ (13 R445, R448, R450): the header of a host ring has been read, and its new descriptors are fetched. -/
def execProdRead (ring prod cons : Nat) (s : State) : Res :=
  .next (if !s.reading (.prod ring) then s
    else if !s.polled ring then readDone (.prod ring) s
    else
      let s1 := prodRead ring prod cons 32 (readDone (.prod ring) s)
      let lo := (s.ringOf ring).asked
      let n := (s1.ringOf ring).want - lo
      let s2 := if n = 0 then s1 else s1.withHif { s1.hif with polledDesc := true, pollCur := s1.pollMin, pollIdle := 0 }
      (List.range n).foldl (fun st i =>
        hostRead (s.ringFn ring) (s.untrans (s.ringCtx ring)) (s.rBase ring + 128 * ((lo + i) % s.ringE ring)) 128 (.desc ring) st) s2)

/-- DEVMEM_RING_NOTIFY (13 R453): the dispatcher reads PROD and CONS in device memory. -/
def execDevmemRingNotify (ring : Nat) (s : State) : Res :=
  .next (if (s.ringOf ring).watch && s.disp.accepting && s.ringEn ring && s.ringDev ring then
      devHeader ring (s.updRing ring (fun x => { x with watch := false }))
    else s)

/-! ## Checks -/

/-- The used bits of a descriptor as (byte offset, high, low): header and body by kind (13 R457, R460 to R464). -/
def descFields (d : List Byte) : Option (List (Nat × Nat × Nat)) :=
  let hdr := [(0, 7, 0), (1, 0, 0), (4, 31, 0), (8, 54, 0)]
  let entries := (List.range (leAt d 16 1)).flatMap (fun i => [(32 + 16 * i, 63, 0), (40 + 16 * i, 12, 0), (42 + 16 * i, 7, 0)])
  match leAt d 0 1 with
  | 1 => some (hdr ++ [(16, 54, 0), (24, 63, 0), (32, 54, 0), (40, 54, 0), (48, 63, 32), (48, 25, 8), (48, 6, 0), (64, 511, 0)])
  | 2 => some (hdr ++ [(16, 54, 0), (24, 54, 0), (32, 63, 0)])
  | 3 => some (hdr ++ [(16, 54, 0), (24, 63, 0), (32, 63, 0)])
  | 4 | 5 => some (hdr ++ (16, 7, 0) :: (if 1 ≤ leAt d 16 1 ∧ leAt d 16 1 ≤ 4 then entries else []))
  | 6 => some (hdr ++ [(16, 9, 0), (18, 0, 0), (24, 54, 0), (32, 47, 0)])
  | 7 => some (hdr ++ [(16, 9, 0), (18, 0, 0), (24, 54, 0), (32, 63, 0), (40, 63, 0), (48, 31, 0)])
  | 8 => some (hdr ++ [(16, 1, 0), (18, 15, 0), (24, 31, 0)])
  | 9 => some (hdr ++ [(16, 0, 0)])
  | _ => none

/-- A mask of the used bits. -/
def usedMask (l : List (Nat × Nat × Nat)) : Nat :=
  l.foldl (fun m f => m ||| ((2 ^ (f.2.1 + 1 - f.2.2) - 1) <<< (8 * f.1 + f.2.2))) 0

/-- A sync entry (13 R459): object, OP, VALUE; and is it malformed? -/
structure SyncEnt where
  obj : Nat
  op : Nat
  val : Nat
  bad : Bool
  deriving DecidableEq, Repr

/-- Read n sync entries. -/
def syncEnts (b : List Byte) (n : Nat) : List SyncEnt :=
  (List.range n).map (fun i => ⟨leAt b (16 * i + 8) 2 % 8192, leAt b (16 * i + 10) 1, leAt b (16 * i) 8,
    decide (8192 ≤ leAt b (16 * i + 8) 2) || decide (1 < leAt b (16 * i + 10) 1) || leAt b (16 * i + 11) 5 != 0⟩)

/-- NWAIT and NSIG of a sync list (13 R459). -/
def syncHead (b : List Byte) : Nat × Nat := (bitsOf (leAt b 0 8) 2 0, bitsOf (leAt b 0 8) 12 8)
/-- The wait entries of a command's sync list. -/
def Cmd.listWaits (c : Cmd) : List SyncEnt :=
  if c.fld 8 8 % 2 ^ 55 = 0 then [] else syncEnts (c.sync.drop 8) (syncHead c.sync).1
/-- The signal entries of a command's sync list: its signal list. -/
def Cmd.listSigs (c : Cmd) : List SyncEnt :=
  if c.fld 8 8 % 2 ^ 55 = 0 then []
  else let h := syncHead c.sync; (syncEnts (c.sync.drop 8) (h.1 + h.2)).drop h.1
/-- The entries in the body of a WAIT or SIGNAL (13 R463). -/
def Cmd.bodyEnts (c : Cmd) : List SyncEnt :=
  if c.kind = 4 ∨ c.kind = 5 then syncEnts (c.desc.drop 32) (min 4 (c.fld 16 1)) else []
/-- Every wait of a command. -/
def Cmd.allWaits (c : Cmd) : List SyncEnt := c.listWaits ++ (if c.kind = 4 then c.bodyEnts else [])

/-- Bytes of a sync list, from its head: 8 until the head is known. -/
def syncLen (b : List Byte) : Nat := let h := syncHead b; 8 + 16 * (h.1 + h.2)
/-- Is a sync list malformed (13 R456 0x02, R459)? -/
def Cmd.syncBad (c : Cmd) : Bool :=
  c.fld 8 8 % 2 ^ 55 != 0 && (let h := syncHead c.sync
    decide (4 < h.1) || decide (16 < h.2) || leAt c.sync 0 8 - h.1 - 256 * h.2 != 0
      || (syncEnts (c.sync.drop 8) (h.1 + h.2)).any SyncEnt.bad)

/-- A reserved kind, a reserved field that is not 0, a field outside its range (13 R456 0x01). -/
def Cmd.badField (c : Cmd) : Bool :=
  match descFields c.desc with
  | none => true
  | some fs =>
    (leNat c.desc &&& (2 ^ 1024 - 1 - usedMask fs)) != 0 || c.fld 8 8 % 64 != 0 ||
    (match c.kind with
      | 1 => c.fld 16 8 % 64 != 0 || c.fld 32 8 % 64 != 0 || decide (16 < c.nlocal) || c.window == 0 || decide (16 < c.window)
          || c.arrays == 0 || decide (8 < c.arrays)
      | 3 => c.fld 16 8 % 8 != 0 || c.fld 24 8 % 8 != 0
      | 4 | 5 => c.fld 16 1 == 0 || decide (4 < c.fld 16 1) || c.bodyEnts.any SyncEnt.bad
      | 6 => c.fld 24 8 % 0x10000 != 0 || (c.fld 18 1 % 2 == 0 && c.fld 32 8 % 0x10000 != 0)
      | 7 => c.fld 18 1 % 2 == 0 && c.fld 32 8 % 0x10000 != 0
      | 8 => decide (1000 < c.fld 18 2)
      | _ => false)

/-- The local-set objects (13 R460). -/
def Cmd.localObjs (c : Cmd) : List Nat := (List.range c.nlocal).map (fun i => leAt c.locals (2 * i) 2)

/-- Do two ranges overlap? -/
def overlap (a n b m : Nat) : Bool := decide (a < b + m) && decide (b < a + n)
/-- Do regions of a list overlap one another? -/
def anyOverlap : List Region → Bool
  | [] => false
  | r :: t => t.any (fun q => overlap r.dva r.size q.dva q.size) || anyOverlap t

/-- A malformed region list, or COPY ranges that overlap (13 R456 0x04, R461). -/
def Cmd.badRegions (c : Cmd) : Bool :=
  if c.kind = 1 then
    decide (8 < c.nreg) || (List.range c.nreg).any (fun i =>
      let w := leAt c.regions (32 * i + 8) 8
      let r := regionAt c.regions i
      leAt c.regions (32 * i) 8 != r.dva || r.dva % 64 != 0 || r.size % 64 != 0 || r.size == 0 || decide (2 ^ 50 ≤ w)
        || leAt c.regions (32 * i + 16) 8 != r.host || leAt c.regions (32 * i + 24) 8 != 0 || (!r.staged && r.host != 0))
      || anyOverlap ((List.range c.nreg).map (regionAt c.regions))
  else if c.kind = 2 then overlap (c.fld 16 8) (c.fld 32 8) (c.fld 24 8) (c.fld 32 8)
  else false

/-- The in-place regions of a RUN. -/
def Cmd.inplace (c : Cmd) : List Region := if c.kind = 1 then c.regionsOf.filter Region.inplace else []

/-- IVR_PARTf.MASK (17 R596). -/
def State.partMask (s : State) (fn : Nat) : Nat := look 0xFFFFFFFF s.ivory.part fn
/-- The backed logical tiles a RUN may use (13 R468, 17 R596). -/
def State.tilesFor (s : State) (c : Cmd) : List Nat :=
  (List.range 32).filter (fun t => bitOf c.tilemask t && bitOf (s.partMask (s.ringFn c.ring)) t && (s.posOf t).isSome)
/-- Parts a tile can hold; COUNT 0 leaves the code store out (13 R456, R468). -/
def Cmd.perTile (c : Cmd) (count : Nat) : Nat :=
  min (min 4 (8 / max 1 c.arrays)) (min (16 / max 1 c.window) (if count = 0 then 16 else 16 / ceilDiv count 1024))
/-- No placement could ever hold the parts (13 R456 0x06). -/
def State.noRoom (s : State) (c : Cmd) (count : Nat) : Bool :=
  decide ((s.tilesFor c).length * c.perTile count < c.nparts)

/-- A kind or option not allowed for the ring's function (13 R456 0x08, R464). -/
def State.notAllowed (s : State) (c : Cmd) : Bool :=
  let fn := s.ringFn c.ring
  (c.kind == 6 || c.kind == 7) && (s.ctxFn (c.fld 16 2 % 1024) != fn
    || (c.kind == 6 && fn != 0 && c.fld 18 1 % 2 == 0) || (c.kind == 7 && fn != 0 && c.fld 48 4 != 0))

/-- May a page of an in-place region lie there (13 R456 0x09)? -/
def State.inplaceOk (s : State) (a : Nat) : Bool :=
  match s.zone a with | .direct | .ckpt | .scratch _ | .poolCkpt | .tiered _ => true | _ => false

/-- Where the in-place regions of a command lie, page by page: (device address, length); out of reach when a page does not map into
direct HBM, pool scratch or the tiered range (13 R456 0x09, R471). -/
def inplacePieces (c : Cmd) (s : State) : Seen (List (Nat × Nat)) × State :=
  let ctx := s.ringCtx c.ring
  (c.inplace.flatMap (fun r => (pagesOf r.dva r.size).map (fun p => (max r.dva (p * 0x10000), min (r.dva + r.size) (p * 0x10000 + 0x10000))))).foldl
    (fun acc p => match acc with
      | (.got l, st) => match lookPage ctx ⟨.list c.ring c.seq, p.1, false⟩ st with
        | (.got e, s1) => match e.dest with
          | .dev base =>
            let d := base + p.1 - e.page * 0x10000
            if e.r && s1.inplaceOk d then (.got (l ++ [(d, p.2 - p.1)]), s1) else (.bad, s1)
          | .host => (.bad, s1)
        | (.wait, s1) => (.wait, s1)
        | (.bad, s1) => (.bad, s1)
      | r => r) (.got [], s)

/-- The lowest-numbered reason below 0x09 to refuse a descriptor at its acceptance (13 R456); `unread`: a list that could not be
read. -/
def refusal (s : State) (c : Cmd) (unread : List Nat) : Nat :=
  let ctx := s.ringCtx c.ring
  let syncOk := !has 0 unread
  let regOk := !has 1 unread
  let locOk := !has 2 unread
  if c.badField || (c.kind == 1 && locOk && c.localObjs.any (fun o => decide (8192 ≤ o))) then 1
  else if syncOk && (c.syncBad || decide (4 < c.allWaits.length)) then 2
  else if (c.allWaits ++ c.listSigs ++ (if c.kind = 5 then c.bodyEnts else [])).any (fun e => !s.ownedBy e.obj ctx)
      || (c.kind == 1 && locOk && c.localObjs.any (fun o => !s.ownedBy o ctx)) then 3
  else if (regOk || decide (8 < c.nreg)) && c.badRegions then 4
  else if regOk && decide (2 ^ 32 < (c.inplace.map Region.size).sum) then 5
  else if c.kind == 1 && s.noRoom c 0 then 6
  else if !unread.isEmpty then 7
  else if s.notAllowed c then 8
  else 0

/-! ## Fetch and acceptance -/

/-- One piece of a list, read through the context's translation (13 R454, R456): from the host with the bytes that its completion
brought (`given`), or from memory, whose home verifies them (08 R252). -/
def listPiece (c : Cmd) (a n : Nat) (given : Option (List Byte)) (s : State) : Seen (List Byte) × State :=
  let ctx := s.ringCtx c.ring
  let fromHost := fun (mode : TlpAt) (bus : Nat) (st : State) =>
    if st.reading (.list c.ring c.seq bus n) then (match given with | some g => Seen.got (g.take n) | none => .bad, st)
    else (.wait, hostRead (st.ringFn c.ring) mode bus n (.list c.ring c.seq bus n) st)
  match listAccess c.ring c.seq ctx a s with
  | (.wait, s1) => (.wait, s1)
  | (.bad, s1) => (.bad, s1)
  | (.got (.bus b), s1) => fromHost .translated b s1
  | (.got (.dev d), s1) =>
    match s1.zone d with
    | .host => fromHost (s.untrans ctx) (busOf d) s1
    | .direct | .scratch _ | .tiered _ =>
      match s1.engErr 63 d false with
      | some r => (if s1.comesBack d r false then .wait else .bad, s1)
      | none =>
        if s1.tileWait d false then (.wait, startFetch (tileOfAddr d) false s1)
        else
          let s2 := serveReads d n s1
          (if (s2.cohPoison d n).isSome then .bad else .got (s2.cohRead d n), s2)
    | _ => (.bad, s1)

/-- A list of a descriptor, piece by piece. -/
def readList (c : Cmd) (a n : Nat) (given : Option (List Byte)) (s : State) : Seen (List Byte) × State :=
  (cutRange 4096 (n / 4096 + 2) a n).foldl (fun acc p =>
    match acc with
    | (.got bs, st) => match listPiece c p.1 p.2 (given.map (fun g => g.drop (p.1 - a))) st with
      | (.got x, s1) => (.got (bs ++ x), s1)
      | (.wait, s1) => (.wait, s1)
      | (.bad, s1) => (.bad, s1)
    | r => r) (.got [], s)

/-- The bytes of a list that was read. -/
def Seen.bytes : Seen (List Byte) → List Byte | .got l => l | _ => []

/-- The lists of a descriptor, and which of them could not be read: 0 sync, 1 regions, 2 local set; none while one of them is on its
way. -/
def readLists (c : Cmd) (l : ListsRead) (s : State) : Option (Cmd × List Nat) × State :=
  let sl := c.fld 8 8 % 2 ^ 55
  let isRun := c.kind == 1
  let (hd, s1) : Seen (List Byte) × State := if sl = 0 then (.got [], s) else readList c sl 8 l.sync s
  let (sy, s2) : Seen (List Byte) × State := match hd with
    | .got h => if sl = 0 then (.got [], s1) else readList c sl (syncLen h) l.sync s1
    | r => (r, s1)
  let (rg, s3) : Seen (List Byte) × State := if isRun && decide (1 ≤ c.nreg) && decide (c.nreg ≤ 8) then readList c (c.fld 32 8 % 2 ^ 55) (32 * c.nreg) l.regions s2
    else (.got [], s2)
  let (lo, s4) : Seen (List Byte) × State := if isRun && decide (1 ≤ c.nlocal) && decide (c.nlocal ≤ 16) then
      readList c (c.fld 40 8 % 2 ^ 55) (2 * c.nlocal) l.localSet s3
    else (.got [], s3)
  if sy.waits || rg.waits || lo.waits then (none, s4)
  else (some ({ c with sync := sy.bytes, regions := rg.bytes, locals := lo.bytes },
    (if sy.isBad then [0] else []) ++ (if rg.isBad then [1] else []) ++ (if lo.isBad then [2] else [])), s4)

/-- The lists of a fetched descriptor are read, its checks made and its local set recorded, unless something of it is still on its way
(13 R454 steps 1 to 3, R456; 07 R229). -/
def descChecks (c : Cmd) (lists : ListsRead) (s : State) : State :=
  match readLists c lists s with
  | (none, s1) => s1
  | (some (c1, unread), s1) =>
    let why := refusal s1 c1 unread
    let (where_, s2) : Seen (List (Nat × Nat)) × State := if why = 0 then inplacePieces c1 s1 else (.got [], s1)
    if where_.waits then s2
    else
      let why1 := if where_.isBad then 9 else why
      let vals := if why1 = 0 && c1.kind == 1 then c1.localObjs.map (fun o => (o, (s2.syncOf o).val)) else []
      let own := c1.listSigs.all (fun e => s2.ownedBy e.obj (s.ringCtx c.ring))
      let c2 := { c1 with check := why1, localVals := vals, due := false, sigOk := own }
      let s3 := setReads (s2.hif.reads.filter (fun r => match r.2 with
        | some (.list r q _ _) => !(r == c.ring && q == c.seq) | _ => true)) s2
      s3.withDisp { s3.disp with fetched := s3.disp.fetched.map (fun x => if x.ring == c.ring && x.due then c2 else x) }

/-- DESCRIPTOR_FETCHED (13 R454 steps 1 to 4, R456; 07 R229): the next descriptor of a ring is read, then its lists, then it is checked
and its journal writes are sent. A descriptor whose lists are on their way goes on first. On a device-memory ring the descriptor is what
memory holds; a poisoned one is unreadable, as a poisoned list is: it is refused with reason 0x07 and nothing of it is looked at (00 R3;
DESIGN CHOICE, log 33). -/
def execDescriptorFetched (ring : Nat) (desc : List Byte) (lists : ListsRead) (s : State) : Res :=
  let r := s.ringOf ring
  let dev := s.ringDev ring
  let n := r.fetched
  let a := s.rBase ring + 128 * (n % s.ringE ring)
  let err := if dev then s.engErr 63 a false else none
  .next (match s.disp.fetched.find? (fun c => c.ring == ring && c.due) with
    | some c => descChecks c lists s
    | none =>
      if decide (r.want ≤ n) || (!dev && !s.reading (.desc ring)) then s
      else if err.any (fun e => s.comesBack a e false) then s
      else
        let s1 := if dev then serveReads a 128 s else readDone (.desc ring) s
        if !s.ringEn ring then s1
        else
          let bad := dev && (err.isSome || (s1.cohPoison a 128).isSome)
          let d := if bad then List.replicate 128 0#8 else if dev then s1.cohRead a 128
            else (desc ++ List.replicate 128 0#8).take 128
          let c : Cmd := { ring := ring, seq := n, desc := d, sync := [], regions := [], locals := [], check := if bad then 7 else 0, due := !bad }
          let s2 := s1.updRing ring (fun x => { x with fetched := n + 1 })
          let s3 := s2.withDisp { s2.disp with fetched := s2.disp.fetched ++ [c] }
          if bad then s3 else descChecks c lists s3)

/-- Journal entries in use: of accepted descriptors whose record is not written, and of those whose entry a mirror holds already (13
R454, R474; 16 R572). -/
def State.journal (s : State) : Nat :=
  (s.disp.cmds.filter (fun c => c.phase != .written)).length + (s.disp.fetched.filter (fun c => decide (1 ≤ c.acks))).length

/-- Journal mirrors that must acknowledge (16 R572). -/
def State.mirrors (s : State) : Nat := (s.disp.mirrorOk.filter id).length

/-! ## Heads -/

/-- Has a command started or ended: the next one of a concurrent ring becomes head? -/
def Cmd.past (c : Cmd) (serial : Bool) : Bool :=
  match c.phase with
  | .queued | .head => false
  | .running | .ending => !serial
  | .done | .written | .held => true

/-- Register the waits of a command that becomes head (13 R465, 07 R220). -/
def headWaits (c : Cmd) (s : State) : State :=
  c.allWaits.foldl (fun st e => syncWaitOp e.obj 63 ⟨.head c.ring c.seq 0, e.op == 1, BitVec.ofNat 64 e.val⟩ st) s

/-- The oldest accepted descriptor of a ring that has not started becomes head when the one before it has started or,
on a serial ring, has completed (13 R465). A refused one starts nothing and completes (13 R456). -/
def promote : Nat → Nat → State → State
  | 0, _, s => s
  | n + 1, ring, s =>
    let mine := s.disp.cmds.filter (fun c => c.ring == ring)
    match mine.find? (fun c => !c.past (s.ringSerial ring)) with
    | none => s
    | some c =>
      if c.phase != .queued then s
      else if c.check != 0 then
        promote n ring (s.updCmd ring c.seq (fun x =>
          { x with phase := .ending, headAt := s.time, out := { status := 0x01, reason := c.check } }))
      else
        headWaits c (s.updCmd ring c.seq (fun x =>
          { x with phase := .head, headAt := s.time
                   waits := c.allWaits.map (fun e => (e.obj, e.op == 1, BitVec.ofNat 64 e.val)) }))

/-- Promote on a ring. -/
def promoteRing (ring : Nat) (s : State) : State := promote (s.disp.cmds.length + 1) ring s

/-- The head of a ring, of a kind, whose waits hold: what a row of that kind starts. -/
def State.headOf (s : State) (ring kind : Nat) : Option Cmd :=
  (s.disp.cmds.find? (fun c => c.ring == ring && c.phase == .head)).filter (fun c =>
    c.kind == kind && c.waits.isEmpty && c.replayDue.isNone)

/-- Descriptors whose journal entry is acknowledged, in order, are accepted by a write of ACC (13 R454, R455): on the
link for a host ring, which must be in L0, or in device memory. -/
def acceptReady : Nat → Nat → State → State
  | 0, _, s => s
  | n + 1, ring, s =>
    match s.disp.fetched.find? (fun c => c.ring == ring) with
    | none => s
    | some c =>
      if c.acks < max 1 s.mirrors ∨ s.mirrors = 0 then s
      else if !s.ringDev ring && s.hif.state != 2 then s
      else
        let s1 := s.withDisp { s.disp with
          fetched := dropFirst (fun x => x == c) s.disp.fetched
          cmds := s.disp.cmds ++ [{ c with order := s.disp.order }]
          order := s.disp.order + 1 }
        let s2 := s1.updRing ring (fun x => { x with acc := c.seq + 1 })
        let a := s.rHdr ring + 64
        let s3 := if s.ringDev ring then cohWrite a (leBytes 8 (c.seq + 1)) s2
          else s2.tlp (.write (s.ringFn ring) a (leBytes 8 (c.seq + 1)) false (.acc ring (c.seq + 1)) (s.untrans (s.ringCtx ring)))
        acceptReady n ring (promoteRing ring s3)

/-- Accept what can be accepted on a ring. -/
def acceptRing (ring : Nat) (s : State) : State := acceptReady s.disp.fetched.length ring s

/-- JOURNAL_ENTRY_ACKED (13 R454, R455): a mirror has acknowledged the oldest entry under way of a ring. A full journal
keeps the writes of further entries back. -/
def execJournalEntryAcked (ring : Nat) (s : State) : Res :=
  let want := s.mirrors
  let pick := fun (c : Cmd) => c.ring == ring && decide (c.acks < want) && !c.due
  let first := (s.disp.fetched.find? pick).any (fun c => c.acks == 0)
  .next (if (first && decide (65536 ≤ s.journal)) || s.disp.accepting = false then s
    else
      acceptRing ring (s.withDisp { s.disp with fetched := updFirst pick (fun c => { c with acks := c.acks + 1 }) s.disp.fetched }))

end Sys2Proof.Machine
end

