-- ==== Sys2Proof/Machine/Control.lean ====
section
/-!
DEFINITION. The control and scalar instructions of tile code, executed by the sequencer at issue (05 R157 to R165;
06 R211 to R213).
-/
namespace Sys2Proof.Machine

/-- The scalar functions of ALU and ALUI (05 R158). -/
def aluFn (fn : Nat) (a b : Word) : Word :=
  let sh := b.toNat % 64
  match fn with
  | 0x0 => a + b
  | 0x1 => a - b
  | 0x2 => a &&& b
  | 0x3 => a ||| b
  | 0x4 => a ^^^ b
  | 0x5 => a <<< sh
  | 0x6 => a >>> sh
  | 0x7 => a.sshiftRight sh
  | 0x8 => a * b
  | 0x9 => BitVec.ofNat 64 (a.toNat * b.toNat / 2 ^ 64)
  | 0xA => if a.toInt ≤ b.toInt then a else b
  | 0xB => if a.toInt ≤ b.toInt then b else a
  | 0xC => if a.toNat ≤ b.toNat then a else b
  | 0xD => if a.toNat ≤ b.toNat then b else a
  | 0xE => if a.toInt < b.toInt then 1#64 else 0#64
  | _ => if a.toNat < b.toNat then 1#64 else 0#64

/-- The conditions of BR (05 R159); 6 and 7 are reserved. -/
def brCond (c : Nat) (a b : Word) : Option Bool :=
  match c with
  | 0 => some (a == b)
  | 1 => some (a != b)
  | 2 => some (decide (a.toInt < b.toInt))
  | 3 => some (decide (b.toInt ≤ a.toInt))
  | 4 => some (decide (a.toNat < b.toNat))
  | 5 => some (decide (b.toNat ≤ a.toNat))
  | _ => none

/-- A sign-extended immediate as a 64-bit word. -/
def immWord (bits v : Nat) : Word := BitVec.ofInt 64 (sext bits v)

/-- Write bits [hi:lo] of a layout register. -/
def layPut (l : LayReg) (hi lo v : Nat) : LayReg :=
  BitVec.ofNat 256 (l.toNat - at_ (fld l hi lo) lo + at_ (v % 2 ^ (hi + 1 - lo)) lo)

/-- The places of the fields that LSET writes (05 R145, R160). -/
def laySel : Nat → Option (Nat × Nat)
  | 0x0 => some (63, 0) | 0x1 => some (95, 64) | 0x2 => some (127, 96) | 0x3 => some (175, 128)
  | 0x4 => some (179, 176) | 0x5 => some (183, 180) | 0x6 => some (186, 184) | 0x7 => some (188, 187)
  | 0x8 => some (189, 189) | 0x9 => some (255, 192) | _ => none

/-- NOP (05 R157). -/
def execNop (pos slot : Nat) (s : State) : Res := seqIssue pos slot 0x00 (fun x _ => .next x) s

/-- LI (05 R157). -/
def execLi (pos slot : Nat) (s : State) : Res :=
  seqIssue pos slot 0x01 (fun x w => .next (x.setS (fld w 105 100) (BitVec.ofNat 64 (fld w 63 0)))) s

/-- ALU (05 R157, R158). -/
def execAlu (pos slot : Nat) (s : State) : Res :=
  seqIssue pos slot 0x02 (fun x w =>
    .next (x.setS (fld w 105 100) (aluFn (fld w 87 84) (x.sreg (fld w 99 94)) (x.sreg (fld w 93 88))))) s

/-- ALUI (05 R157, R158). -/
def execAlui (pos slot : Nat) (s : State) : Res :=
  seqIssue pos slot 0x03 (fun x w =>
    .next (x.setS (fld w 105 100) (aluFn (fld w 87 84) (x.sreg (fld w 99 94)) (immWord 48 (fld w 47 0))))) s

/-- BR (05 R157, R159, R165). -/
def execBr (pos slot : Nat) (s : State) : Res :=
  seqIssue pos slot 0x04 (fun x w =>
    match brCond (fld w 105 103) (x.sreg (fld w 99 94)) (x.sreg (fld w 93 88)) with
    | none => .fault 0x01
    | some true => .jump x ((x.pc : Int) + sext 24 (fld w 23 0))
    | some false => .next x) s

/-- JMP (05 R157, R165). -/
def execJmp (pos slot : Nat) (s : State) : Res :=
  seqIssue pos slot 0x05 (fun x w =>
    .jump x (if fld w 105 105 = 1 then fld (x.sreg (fld w 99 94)) 13 0 else fld w 13 0)) s

/-- LOOP (05 R163): ENCODING, PC_RANGE and LOOP are checked in this order; a count of 0 skips the body. -/
def execLoop (pos slot : Nat) (s : State) : Res :=
  seqIssue pos slot 0x06 (fun x w =>
    let ci := fld w 105 104
    let body := fld w 87 74
    let n := if fld w 103 103 = 1 then fld (x.sreg (fld w 99 94)) 31 0 else fld w 31 0
    if body = 0 then .fault 0x01
    else if x.count ≤ x.pc + body then .fault 0x08
    else if (look {} x.loops ci).active || x.nest.any (fun c =>
        let l := look {} x.loops c
        !(decide (l.first ≤ x.pc + 1) && decide (x.pc + body ≤ l.last))) then .fault 0x09
    else if n = 0 then .skip x (x.pc + 1 + body)
    else .skip { x with loops := put {} x.loops ci ⟨x.pc + 1, x.pc + body, n, true⟩, nest := ci :: x.nest } (x.pc + 1)) s

/-- LSET (05 R157, R160). -/
def execLset (pos slot : Nat) (s : State) : Res :=
  seqIssue pos slot 0x07 (fun x w =>
    let ld := fld w 105 102
    let v := if fld w 97 97 = 1 then (x.sreg (fld w 93 88)).toNat else fld w 63 0
    if fld w 101 98 = 0xA then .next (x.setL ld 0#256)
    else match laySel (fld w 101 98) with
      | none => .fault 0x01
      | some (hi, lo) => .next (x.setL ld (layPut (x.lreg ld) hi lo v))) s

/-- LADD (05 R157). -/
def execLadd (pos slot : Nat) (s : State) : Res :=
  seqIssue pos slot 0x08 (fun x w =>
    let ld := fld w 105 102
    let add := x.sreg (fld w 99 94) + immWord 48 (fld w 47 0)
    let (hi, lo) := if fld w 101 101 = 1 then (255, 192) else (63, 0)
    .next (x.setL ld (layPut (x.lreg ld) hi lo (BitVec.ofNat 64 (fld (x.lreg ld) hi lo) + add).toNat))) s

/-- LCPY (05 R157). -/
def execLcpy (pos slot : Nat) (s : State) : Res :=
  seqIssue pos slot 0x09 (fun x w => .next (x.setL (fld w 105 102) (x.lreg (fld w 101 98)))) s

/-- RDSTAT (05 R157). -/
def execRdstat (pos slot : Nat) (s : State) : Res :=
  seqIssue pos slot 0x0A (fun x w => .next (x.setS (fld w 105 100) x.tstat)) s

/-- CLRSTAT (05 R152, R157). -/
def execClrstat (pos slot : Nat) (s : State) : Res :=
  seqIssue pos slot 0x0B (fun x w => .next { x with tstat := x.tstat &&& ~~~(BitVec.ofNat 64 (fld w 3 0)) }) s

/-- RDCTL (05 R157). -/
def execRdctl (pos slot : Nat) (s : State) : Res :=
  seqIssue pos slot 0x0C (fun x w => .next (x.setS (fld w 105 100) x.tctl)) s

/-- WRCTL (05 R151, R157). -/
def execWrctl (pos slot : Nat) (s : State) : Res :=
  seqIssue pos slot 0x0D (fun x w =>
    let m := BitVec.ofNat 64 (fld w 1 0)
    .next { x with tctl := (x.tctl &&& ~~~m) ||| (x.sreg (fld w 99 94) &&& m) }) s

/-- The values of SYSRD (05 R161). -/
def sysrdVal (x : Slot) (sel : Nat) : Option Nat :=
  match sel with
  | 0x00 => some x.part
  | 0x01 => some x.nparts
  | 0x02 => some x.arrays.length
  | 0x03 => some x.winBytes
  | _ => if 0x10 ≤ sel ∧ sel ≤ 0x13 then
      let l := look {} x.loops (sel - 0x10)
      some (if l.active then l.left else 0)
    else none

/-- SYSRD (05 R157, R161). -/
def execSysrd (pos slot : Nat) (s : State) : Res :=
  seqIssue pos slot 0x0E (fun x w =>
    match sysrdVal x (fld w 7 0) with
    | none => .fault 0x01
    | some v => .next (x.setS (fld w 105 100) (BitVec.ofNat 64 v))) s

/-- FENCE holds issue until the named queues are empty (06 R211). -/
def execFence (pos slot : Nat) (s : State) : Res :=
  seqIssue pos slot 0x0F (fun x w =>
    let m := fld w 105 102
    if m = 0 then .fault 0x01
    else if x.fenceHolds m then .hold
    else .next x) s

/-- A hint for a logical tile reaches the power controller (15 R530): its class and start time. -/
def addHint (tile cls us : Nat) (s : State) : State :=
  s.withPwr { s.pwr with hints := upd [] s.pwr.hints tile (fun l => l ++ [⟨cls, s.time + 100 * us⟩]) }

/-- HINT (06 R212): executed at issue, it changes nothing but what the power controller knows. -/
def execHint (pos slot : Nat) (s : State) : Res :=
  match s.canIssue pos slot 0x10 with
  | none => .next s
  | some (x, w) =>
    let us := fld w 103 94
    let s1 := if us ≤ 1000 && !reservedSet w && (!wWE w || s.mayTake pos slot x 4 (wWT w)) then
        match s.tileAt pos with | some t => addHint t (fld w 105 104) us s | none => s
      else s
    seqIssue pos slot 0x10 (fun x _ => if 1000 < us then .fault 0x01 else .next x) s1

/-- EXIT (06 R213): the slot issues nothing more. -/
def execExit (pos slot : Nat) (s : State) : Res := seqIssue pos slot 0x11 (fun x _ => .next { x with phase := .exiting }) s

end Sys2Proof.Machine
end

