-- ==== Sys2Proof/Machine/Slots.lean ====
section
/-!
DEFINITION. Synchronisation instructions of tile code, the start of queued instructions, and the life of a slot: work
item, zeroing, load, run, end (03 R75 to R77, R101 to R104; 05 R144 to R153; 06 R206 to R214; 07 R216, R217).
-/
namespace Sys2Proof.Machine

/-! ## Sync instructions -/

/-- The object a sync instruction names and its value (06 R206). -/
def syncOperands (x : Slot) (w : BitVec 128) : Word × Word :=
  (if fld w 103 103 = 1 then x.sreg (fld w 99 94) else BitVec.ofNat 64 (fld w 76 64),
    if fld w 102 102 = 1 then x.sreg (fld w 93 88) else BitVec.ofNat 64 (fld w 31 0))

/-- The checks of SIGNAL, RSIGNAL and WAIT at issue (06 R204, R206; 07 R222). ENCODING goes before SYNC_RANGE: the spec gives no order
(log 21, DESIGN CHOICE). -/
def syncCheck (s : State) (x : Slot) (w : BitVec 128) : Option Nat :=
  let obj := (syncOperands x w).1.toNat
  firstFault [(decide (2 ≤ fld w 105 104), 0x01), (decide (8191 < obj) || !s.ownedBy obj x.ctx, 0x11)]

/-- The check of TOKSET and TOKWAIT at issue (06 R210). -/
def tokCheck (_ : Slot) (w : BitVec 128) : Option Nat := firstFault [(fld w 99 96 == 0, 0x01)]

/-- The values a sync instruction captures (06 R206). -/
def syncCap (x : Slot) (w : BitVec 128) : List Word × List LayReg :=
  let o := syncOperands x w
  ([o.1, o.2], [])

/-- SIGNAL (06 R206, R207). -/
def execSignal (pos slot : Nat) (s : State) : Res :=
  queueIssue pos slot 0xA0 .sync (syncCheck s) syncCap (fun _ => false) s
/-- RSIGNAL (06 R206, R208). -/
def execRsignal (pos slot : Nat) (s : State) : Res :=
  queueIssue pos slot 0xA1 .sync (syncCheck s) syncCap (fun _ => false) s
/-- WAIT (06 R206, R209). -/
def execWait (pos slot : Nat) (s : State) : Res :=
  queueIssue pos slot 0xA2 .sync (syncCheck s) syncCap (fun _ => false) s
/-- TOKSET (06 R210). -/
def execTokset (pos slot : Nat) (s : State) : Res :=
  queueIssue pos slot 0xA3 .sync tokCheck (fun _ _ => ([], [])) (fun _ => false) s
/-- TOKWAIT (06 R210). -/
def execTokwait (pos slot : Nat) (s : State) : Res :=
  queueIssue pos slot 0xA4 .sync tokCheck (fun _ _ => ([], [])) (fun _ => false) s

/-- The operation code of a SYNC_OP packet (07 R217). -/
def syncOpCode (w : BitVec 128) : Nat := fld w 105 104 + (if wOpc w = 0xA2 then 2 else 0)

/-- Send the packet of a sync instruction to the hub (07 R217). -/
def syncSend (pos slot : Nat) (q : QInstr) (s : State) : State :=
  let obj := ((q.sregs[0]?).getD 0#64).toNat
  let v := ((q.sregs[1]?).getD 0#64).toNat
  request (syncPkt pos 0 obj (syncOpCode q.word) v) (.tsync pos slot q.id)
    (updQ pos slot .sync q.id (fun y => { y with stage := 1 }) s)

/-- The moves whose writes an RSIGNAL waits for: STOREs and SCATTERADDs that have started (06 R208). -/
def Slot.publishing (x : Slot) : List Nat :=
  (x.qx.filter (fun m => m.started && (wOpc m.word == 0x81 || wOpc m.word == 0x83))).map QInstr.id

/-- A sync instruction starts at the head of its queue (06 R207 to R210). -/
def syncStart (pos slot : Nat) (x : Slot) (q : QInstr) (s : State) : State :=
  match wOpc q.word with
  | 0xA0 | 0xA2 => syncSend pos slot q s
  | 0xA1 => updQ pos slot .sync q.id (fun y => { y with idx := x.publishing }) s
  | 0xA3 => complete pos slot .sync q 0#4 (addToken pos slot (fld q.word 105 100) (fld q.word 99 96) q.pc s)
  | _ => s

/-- QUEUE_INSTR_START (03 R74 to R77, R97, R104): the head of a queue takes its token unit and starts, when it is its slot's turn. -/
def execQueueInstrStart (pos slot : Nat) (q : Queue) (s : State) : Res :=
  .next (match s.slotOf pos slot with
    | none => s
    | some x => match x.head q with
      | none => s
      | some i =>
        if !s.headMay pos slot x q i || !s.startTurn pos slot q i then s
        else
          let y := if wWE i.word then x.take (queueTaker q) (wWT i.word) 1 else x
          let s1 := (s.startTurned pos slot q i).updSlot pos slot (fun _ =>
            y.setQueue q ((y.queue q).map (fun j => if j.id == i.id then { j with started := true } else j)))
          match q with
          | .matrix | .vector => s1
          | .move => moveStart pos slot i s1
          | .sync => syncStart pos slot y i s1)

/-- RSIGNAL_SEND (06 R208): the writes it covers are acknowledged, so it is sent. -/
def execRsignalSend (pos slot : Nat) (s : State) : Res :=
  .next (match s.slotOf pos slot with
    | none => s
    | some x => match x.qs.find? (fun q => q.started && wOpc q.word == 0xA1 && q.stage == 0) with
      | none => s
      | some q =>
        if x.qx.any (fun m => has m.id q.idx && !m.allDone) then s else syncSend pos slot q s)

/-- SYNC_INSTR_COMPLETE (03 R76; 06 R207, R209, R210): the hub has performed the operation or met the condition; a
TOKWAIT takes its units at once. -/
def execSyncInstrComplete (pos slot id : Nat) (s : State) : Res :=
  .next (match s.slotOf pos slot with
    | none => s
    | some x => match x.find .sync id with
      | none => s
      | some q =>
        if !q.started then s
        else if wOpc q.word = 0xA4 then
          let (t, n) := (fld q.word 105 100, fld q.word 99 96)
          if s.mayTake pos slot x 3 t then complete pos slot .sync q 0#4 (s.updSlot pos slot (fun y => y.take 3 t n)) else s
        else if q.waitAns = 1 then complete pos slot .sync q 0#4 s
        else s)

/-! ## Reads of a command's lists and images -/

/-- What a read for a command answers: the bytes, or nothing while a translation waits or the command has ended. -/
abbrev Fetched := Option (List Byte) × State

/-- One page's part of a read for a command: from memory, or, where the page lies in host memory, the bytes that the
host's completion brought (`given`). A tile that is not resident is fetched first (09 R301); the home verifies what it serves (08
R252); poisoned sectors taint the command (16 R556). -/
def fetchPage (t : Tlb) (ctx ring seq a n : Nat) (given : List Byte) (s : State) : Fetched :=
  let (h, s1) := xltAccess t true ctx ⟨.cmd ring seq, a, false⟩ s
  match h with
  | none => (none, s1)
  | some (.bus b) => if s1.cmdOpen ring seq then (some (given.take n), s1) else (none, hostCut ring seq b s1)
  | some (.dev d) =>
    if s1.outside d then
      (match s1.zone d with
        | .host => if s1.cmdOpen ring seq then (some (given.take n), s1) else (none, hostCut ring seq (busOf d) s1)
        | _ => (some (given.take n), s1))
    else match s1.engErr 63 d false with
    | some r => (none, accessFailed ring seq (s1.errPort d false) r d a s1)
    | none =>
      if s1.tileWait d false then (none, startFetch (tileOfAddr d) false s1)
      else
        let s2 := serveReads d n s1
        let s3 := match s2.cohPoison d n with
          | some k => taintCmd ring seq { status := 0x05, port := s2.homePort (64 * k), detail := 64 * k, region := 0xE } s2
          | none => s2
        (some (s2.cohRead d n), s3)

/-- A read for a command at device virtual addresses, page by page. -/
def fetchRange (t : Tlb) (ctx ring seq a n : Nat) (given : List Byte) (s : State) : Fetched :=
  (pagesOf a n).foldl (fun acc p =>
    match acc with
    | (none, st) => (none, st)
    | (some bs, st) =>
      let lo := max a (p * 0x10000)
      let hi := min (a + n) (p * 0x10000 + 0x10000)
      let (r, st1) := fetchPage t ctx ring seq lo (hi - lo) (given.drop (lo - a)) st
      (r.map (fun x => bs ++ x), st1)) (some [], s)

/-! ## The life of a slot -/

/-- The work item of a part (02 R39). -/
def workItem (pos ring seq part : Nat) : Pkt :=
  ⟨.dispatch, 63, pos, 0, 0, false, leBytes 8 ring ++ leBytes 8 seq ++ leBytes 8 part, [], 0⟩

/-- Has every array and window unit of a slot its context as its last user (03 R103)? -/
def slotClean (t : Tile) (x : Slot) : Bool :=
  x.arrays.all (fun a => look 0 t.lastArr a == x.ctx + 1)
    && (List.range x.wlen).all (fun i => look 0 t.lastWin (x.wbase + i) == x.ctx + 1)

/-- The slot of a part on a tile. -/
def State.partSlot (s : State) (pos ring seq part : Nat) : Option Nat :=
  (List.range 4).find? (fun k => match s.slotOf pos k with
    | some x => x.ring == ring && x.seq == seq && x.part == part
    | none => false)

/-- DISPATCH (02 R39, 13 R468, 03 R103): the work item of a part reaches its tile; zeroing starts when another context
used the resources last, else the header is read. -/
def execDispatch (pos ring seq part : Nat) (s : State) : Res :=
  let r := reach (workItem pos ring seq part) s
  let s0 := r.1
  .next (if !r.2 then s0 else match s0.partSlot pos ring seq part with
    | none => s0
    | some k => s0.updTile pos (fun t => { t with slots := upd none t.slots k (fun o => o.map (fun x =>
        if x.phase = .placed then { x with phase := if slotClean t x then .header else .zeroing } else x)) }))

/-- Zero the arrays, their banks and the window units whose last user was another context (03 R103). -/
def zeroFor (x : Slot) (t : Tile) : Tile :=
  let arrs := x.arrays.filter (fun a => look 0 t.lastArr a != x.ctx + 1)
  let units := ((List.range x.wlen).map (fun i => x.wbase + i)).filter (fun u => look 0 t.lastWin u != x.ctx + 1)
  { t with acc := keepKeys (fun k => !has (k / 32768) arrs) t.acc
           accPois := t.accPois.filter (fun k => !has (k / 2) arrs)
           store := units.foldl (fun r u => r.zero (u * 0x400000) 0x400000) t.store }

/-- ZEROING_DONE (03 R103). -/
def execZeroingDone (pos slot : Nat) (s : State) : Res :=
  .next (match s.slotOf pos slot with
    | none => s
    | some x =>
      if x.phase = .zeroing then (s.updTile pos (zeroFor x)).updSlot pos slot (fun y => { y with phase := .header })
      else s)

/-- The header of an image (05 R147). -/
structure Header where
  magic : Nat
  version : Nat
  features : Nat
  count : Nat
  entry : Nat
  reserved : Bool
  deriving DecidableEq, Repr

/-- Read a header; `reserved`: a reserved field is not zero. -/
def Header.of (b : List Byte) : Header :=
  ⟨leAt b 0 4, leAt b 4 2, leAt b 8 8, leAt b 16 4, leAt b 20 4, leAt b 6 2 != 0 || leAt b 24 40 != 0⟩

/-- Are MAGIC, VERSION, COUNT and ENTRY as 05 R147 has them? -/
def Header.ok (h : Header) : Bool :=
  h.magic == 0x54574E47 && h.version == 1 && decide (1 ≤ h.count) && decide (h.count ≤ 16384) && decide (h.entry < h.count)

/-- Feature bits declared and missing from the device (05 R148 step 3). -/
def Header.missing (h : Header) (feat : Nat) : Nat := h.features - (h.features &&& feat)

/-- The outcome of a refused load (05 R149). -/
def loadRefused (reason detail : Nat) : Verdict := { status := 0x02, reason := reason, detail := detail }

/-- PROGRAM_HEADER_READ (05 R147 to R149, 01 R28): the mover has read the header; a reserved field that is not zero is
undefined (00 R9). -/
def execProgramHeaderRead (pos slot : Nat) (hdr : List Byte) (s : State) : Res :=
  match s.slotOf pos slot with
  | none => .next s
  | some x =>
    if x.phase != .header then .next s
    else
      match s.cmdOf x.ring x.seq with
      | none => .next s
      | some c =>
        let (r, s1) := fetchRange (.tile pos) x.ctx x.ring x.seq (c.fld 16 8 % 2 ^ 55) 64 hdr s
        match r with
        | none => .next s1
        | some b =>
          let h := Header.of b
          if h.reserved then .fault .reservedNonzero
          else .next (if !h.ok then endWith x.ring x.seq (loadRefused 1 0) s1
            else if h.missing s.glb.features != 0 then
              endWith x.ring x.seq (loadRefused 2 (h.missing s.glb.features)) s1
            else s1.updSlot pos slot (fun y =>
              { y with phase := .loading, count := h.count, feat := h.features, entry := h.entry }))

/-- Feature bits that an instruction's encoding uses (06 R214). -/
def featureUse (w : BitVec 128) : Nat :=
  if wOpc w = 0x47 ∧ fld w 79 74 = 6 then 2 else if wOpc w = 0x84 ∧ 4 ≤ fld w 72 70 then 4 else 0

/-- The scan of the loaded instructions in index order (05 R148 step 4, R149): the first that breaks a rule. -/
def scanCode (feat : Nat) : Nat → List (BitVec 128) → Option (Nat × Nat)
  | _, [] => none
  | i, w :: r =>
    if (opFields (wOpc w)).isNone then some (3, i)
    else
      let u := featureUse w - (featureUse w &&& feat)
      if u != 0 then some (4, u) else scanCode feat (i + 1) r

/-- The instructions in the bytes of an image (00 R8). -/
def wordsOf : Nat → List Byte → List (BitVec 128)
  | 0, _ => []
  | n + 1, b => BitVec.ofNat 128 (leNat (b.take 16)) :: wordsOf n (b.drop 16)

/-- The bytes of instruction words. -/
def wordBytes (ws : List (BitVec 128)) : List Byte := ws.flatMap (fun w => leBytes 16 w.toNat)

/-- The start state of a slot (05 R144, R148 step 5). -/
def startSlot (c : Cmd) (x : Slot) : Slot :=
  let args := (List.range 8).foldl (fun m i => put 0#64 m (i + 1) (BitVec.ofNat 64 (c.fld (64 + 8 * i) 8))) []
  { x with phase := .running, s := args, l := [], v := [], vpois := [], m := [], tok := [], loops := [], nest := []
           tctl := 0#64, tstat := 0#64, pc := x.entry, ord := 0, seed := BitVec.ofNat 64 (c.fld 24 8), qm := [], qv := []
           qx := [], qs := [], nextId := 0, tokPtr := 0 }

/-- No part runs before every part has loaded (05 R149): then all of them start. -/
def startParts (ring seq : Nat) (s : State) : State :=
  match s.cmdOf ring seq with
  | none => s
  | some c =>
    let ready := c.parts.all (fun p => p.ended || (match s.slotOf p.pos p.slot with
      | some x => x.phase == .loaded | none => false))
    if ready then c.parts.foldl (fun st p => if p.ended then st else st.updSlot p.pos p.slot (startSlot c)) s else s

/-- PROGRAM_LOADED (05 R148, R149; 06 R214): the instructions are loaded and scanned; the load is refused, or the slot
takes its start state. -/
def execProgramLoaded (pos slot : Nat) (words : List (BitVec 128)) (s : State) : Res :=
  .next (match s.slotOf pos slot with
    | none => s
    | some x =>
      if x.phase != .loading then s
      else match s.cmdOf x.ring x.seq with
        | none => s
        | some c =>
          let a := c.fld 16 8 % 2 ^ 55 + 64
          let (r, s1) := fetchRange (.tile pos) x.ctx x.ring x.seq a (16 * x.count) (wordBytes words) s
          match r with
          | none => s1
          | some b =>
            let ws := wordsOf x.count b
            match scanCode x.feat 0 ws with
            | some (reason, detail) => endWith x.ring x.seq (loadRefused reason detail) s1
            | none =>
              startParts x.ring x.seq (s1.updSlot pos slot (fun y => { y with phase := .loaded, code := ws })))

/-- SLOT_END (06 R213, 05 R153, 03 R103): after EXIT every instruction is complete; the flags go to the record and the
slot's resources are free. -/
def execSlotEnd (pos slot : Nat) (s : State) : Res :=
  .next (match s.slotOf pos slot with
    | none => s
    | some x =>
      if x.phase = .exiting ∧ x.qm.isEmpty ∧ x.qv.isEmpty ∧ x.qx.isEmpty ∧ x.qs.isEmpty then
        freeSlot pos slot (s.updCmd x.ring x.seq (fun c =>
          { c with parts := c.parts.map (fun p => if p.num == x.part then { p with ended := true } else p) }))
      else s)

end Sys2Proof.Machine
end

