-- ==== Sys2Proof/Machine/TileFail.lean ====
section
/-!
DEFINITION. A tile die that is reset, fenced or lost: its commands stop, its logical tile moves to the spare or becomes
unbacked (01 R12 to R19, 02 R55, 16 R563 to R567).
-/
namespace Sys2Proof.Machine

/-- Every command with a part on a position stops: a tile that holds one of its parts was fenced or failed
(16 R567, row 1). -/
def stopOnTile (pos : Nat) (s : State) : State :=
  (s.cmdsOn pos).foldl (fun st c => stopForReplay c.ring c.seq 1 pos st) s

/-- A tile die is reset: nothing of its contents stays (16 R563). -/
def clearTile (pos : Nat) (s : State) : State := s.updTile pos (fun t => { tel := t.tel, resets := t.resets })

/-- Change the map entry of a logical tile; Ivory records it (01 R17, R18). -/
def setTileMap (n : Nat) (p : Option Nat) (s : State) : State :=
  let m := setAt s.glb.tilemap n p
  (s.withGlb { s.glb with tilemap := m }).withRepair { s.repair with tilemap := m }

/-- A logical tile moves to the spare in standby, or becomes unbacked, with its event (01 R14 to R16). -/
def spareTile (n pos : Nat) (s : State) : State :=
  if look 0 s.glb.site 32 = 1 then
    let s1 := runVolt 32 (setTileMap n (some 32) (clearTile 32 (s.withGlb { s.glb with site := put 0 s.glb.site 32 0 })))
    post (ev 0x20 (some pos) (n + at_ pos 8 + at_ 32 16) []) s1
  else post (ev 0x21 (some pos) n []) (setTileMap n none s)

/-- A tile die fails or is fenced for good (01 R14 to R17, R31): its commands stop, its site is failed and recorded,
its logical tile moves. -/
def tileLost (pos cause : Nat) (s : State) : State :=
  if 32 < pos ∨ s.siteFailed pos then s
  else
    let s1 := if s.fenced pos then s else fencePort pos true cause s
    let s2 := (dieFailed pos cause (stopOnTile pos s1)).updTile pos (fun t => { t with resetting := false })
    match s2.tileAt pos with
    | some n => spareTile n pos s2
    | none => s2

/-- TILE_DIE_FAILURE (01 R14). -/
def execTileDieFailure (pos : Nat) (s : State) : Res := .next (tileLost pos 4 s)

/-- A fenced tile starts its reset and retrain (02 R55, 16 R563). -/
def tileReset (pos : Nat) (s : State) : State :=
  (clearTile pos (stopOnTile pos s)).updTile pos (fun t => { t with resetting := true })

/-- TILE_RECOVERY_DONE: the tile serves again, or is failed and spared (01 R14, 02 R55, 16 R570). -/
def execTileRecoveryDone (pos : Nat) (ok : Bool) (s : State) : Res :=
  .next (if pos ≤ 32 && (s.tileOf pos).resetting && (!ok || s.linkReady pos) then
    if ok then
      let spare := pos == 32 && s.tileAt 32 == none
      let s1 := unfence pos 1800 (s.updTile pos (fun t => { t with resetting := false }))
      if spare then s1.withGlb { s1.glb with site := put 0 s1.glb.site 32 1 } else s1
    else tileLost pos 3 s
  else s)

end Sys2Proof.Machine
end

