-- ==== Sys2Proof/Machine/Xlt.lean ====
section
/-!
DEFINITION. Steps of translation: walks, ATS, PRI, invalidations from the host, retries and timeouts of stalls, and the
XLT registers that reads change (10 R331 to R338, R345 to R350, R355 to R360).
-/
namespace Sys2Proof.Machine

/-- An access that waited for a translation is tried again (10 R349). An engine of the hub then repeats its own step; a MIGRATE asks
for its unit again. -/
def resumeWait (ctx : Nat) (w : XltWait) (s : State) : State :=
  match w.by_ with
  | .move pos slot id | .xpref pos slot id => moverGo pos slot id (xltRetry ctx w s)
  | .place n => placeGo n (xltRetry ctx w s)
  | .ranoa port => getsGo port s
  | .cmd ring seq =>
    match s.cmdOf ring seq with
    | some c => if c.kind = 6 then needUnit ctx w (dropWaits (fun y => y == w) s) else xltRetry ctx w s
    | none => s
  | .list _ _ => s

/-- TABLE_WALK_DONE (10 R331 to R333, R345, R346): the accesses go on once the walk has ended with a leaf; a GET of the Ranoa die
goes on in any case (14 R502). -/
def execTableWalkDone (ctx page reason : Nat) (s : State) : Res :=
  let gets := (s.xlt.walks.filter (fun x => x.isFor ctx page)).flatMap (fun x => x.waits.filter (fun w => match w.by_ with
    | .ranoa _ => true | _ => false))
  let (ws, s1) := walkRead ctx page reason s
  let left := if s1.xlt.walks.any (fun x => x.isFor ctx page) then [] else gets.filter (fun w => !ws.any (fun y => y == w))
  .next (placesGo ((ws ++ left).foldl (fun st w => resumeWait ctx w st) s1))

/-! ## ATS and PRI -/

/-- Is it the ATS request of a page? -/
def AtsReq.isFor (a : AtsReq) (ctx page : Nat) : Bool := a.ctx == ctx && a.page == page
/-- Change the ATS request of a page. -/
def updAts (ctx page : Nat) (f : AtsReq → AtsReq) (s : State) : State :=
  s.withXlt { s.xlt with ats := s.xlt.ats.map (fun a => if a.isFor ctx page then f a else a) }
/-- The unit of an access within its 64 KiB page. -/
def XltWait.unit (w : XltWait) : Nat := w.dva % 0x10000 / 4096

/-- The units that a translation of a completion names, each of 4 KiB (10 R335). -/
def AtsTrans.split (t : AtsTrans) : List AtsUnit :=
  ((List.range 16).filter (fun u => decide (t.unit ≤ u) && decide (u < t.unit + t.span))).map (fun u =>
    ⟨u, t.addr + 4096 * (u - t.unit), t.r, t.w⟩)

/-- An entry takes the units of its page. -/
def TlbEnt.takeUnits (ctx page : Nat) (units : List AtsUnit) (e : TlbEnt) : TlbEnt :=
  if e.ctx == ctx && e.page == page && e.dest == .host then
    { e with units := units ++ e.units.filter (fun u => !units.any (fun v => v.unit == u.unit)) }
  else e

/-- Install units of a page in every cache that holds it (10 R330, R335, R336). -/
def installUnits (ctx page : Nat) (units : List AtsUnit) (s : State) : State :=
  let add := fun (l : List TlbEnt) => l.map (fun e => e.takeUnits ctx page units)
  let s1 := s.withXlt { s.xlt with shared := add s.xlt.shared, checker := add s.xlt.checker }
  s1.withTile (s1.tile.map (fun t => (t.1, { t.2 with tlb := add t.2.tlb })))

/-- An ATS request that nothing waits for ends. -/
def atsTidy (ctx page : Nat) (s : State) : State :=
  let idle := fun (a : AtsReq) => a.isFor ctx page && a.waits.isEmpty && !s.xlt.pri.any (fun p => p.1 == ctx && p.2.1 == page)
  s.withXlt { s.xlt with ats := s.xlt.ats.filter (fun a => !idle a) }

/-- The unit of a page under migration is known (10 R351 step 2, R352): the command keeps it, or asks for the permission
its copy needs. Toward the device, the page is read once its 16 units are known. -/
def migrateUnit (ctx : Nat) (got : List AtsUnit) (w : XltWait) (ring seq : Nat) (s : State) : State :=
  match s.cmdOf ring seq, got.find? (fun u => u.unit == w.unit) with
  | some c, some u =>
    if c.kind != 6 || c.phase != .running then s
    else if 2 ^ 46 ≤ u.addr then
      let (lv, e) := s.leafInfo ctx w.dva
      xltFault false ctx 0x07 lv e true 0 w s
    else if !(if w.write then u.w else u.r) then needPri ctx w s
    else
      let units := c.units ++ [u]
      let s1 := s.updCmd ring seq (fun x => { x with units := units })
      if decide (16 ≤ units.length) && c.fld 18 1 % 2 == 0 then
        units.foldl (fun st v => hostRead (s.ctxFn ctx) .translated v.addr 4096 (.migrate ring seq v.addr) st) s1
      else s1
  | _, _ => s

/-- An access whose unit has come goes on. -/
def unitGo (ctx : Nat) (got : List AtsUnit) (w : XltWait) (s : State) : State :=
  match w.by_ with
  | .cmd ring seq => migrateUnit ctx got w ring seq s
  | _ => resumeWait ctx w s

/-- ATS_COMPLETION (10 R335 to R337): the units come in force, but for those named by an invalidation since the
request, which are asked for again whether an access waits for them or not; the accesses go on, or ask for permission. -/
def execAtsCompletion (ctx page : Nat) (parts : List AtsTrans) (s : State) : Res :=
  .next (match s.xlt.ats.find? (fun a => a.isFor ctx page) with
    | none => s
    | some a =>
      let all := parts.flatMap AtsTrans.split
      let got := all.filter (fun u => !has u.unit a.stale)
      let (go, again) := a.waits.partition (fun w => got.any (fun u => u.unit == w.unit))
      let s1 := updAts ctx page (fun a => { a with stale := [], waits := again }) (installUnits ctx page got s)
      let s2 := go.foldl (fun st w => unitGo ctx got w st) s1
      placesGo (if again.isEmpty && got.length == all.length then tagsGo (atsTidy ctx page s2)
        else if s2.attached (s2.ctxFn ctx) then atsSend ctx page s2
        else s2))

/-- A page request of a function has ended: the oldest one that waited goes out (10 R336). -/
def priNext (fn : Nat) (old : List (Nat × Nat × Nat)) (s : State) : State :=
  match (s.prisSent fn).find? (fun p => !old.any (fun q => q == p)) with
  | some p => priSend p s
  | none => s

/-- PRI_RESPONSE (10 R336): success repeats the ATS request; a failure is HOST_DENIED for the accesses to that unit. -/
def execPriResponse (ctx page unit : Nat) (ok : Bool) (s : State) : Res :=
  .next (if !(s.prisSent (s.ctxFn ctx)).any (fun p => p == (ctx, page, unit)) then s
    else
      let s1 := priNext (s.ctxFn ctx) (s.prisSent (s.ctxFn ctx)) (s.withXlt { s.xlt with pri := s.xlt.pri.filter (fun p => p != (ctx, page, unit)) })
      if ok then atsSend ctx page (updAts ctx page (fun a => { a with priOk := ins unit a.priOk }) s1)
      else
        match s1.xlt.ats.find? (fun a => a.isFor ctx page) with
        | none => s1
        | some a =>
          let (bad, rest) := a.waits.partition (fun w => w.unit == unit)
          let s2 := updAts ctx page (fun a => { a with waits := rest }) s1
          placesGo (tagsGo (atsTidy ctx page (xltFaults ctx 0x06 (fun st w => st.leafInfo ctx w.dva) true 0 bad s2))))

/-- Does a range of addresses hold a 4 KiB unit? -/
def unitIn (dva bytes page unit : Nat) : Bool :=
  let a := page * 0x10000 + unit * 4096
  decide (a < dva + bytes) && decide (dva < a + 4096)

/-- Drop units from an entry of the function's contexts. -/
def TlbEnt.dropUnits (e : TlbEnt) (mine : Nat → Bool) (dva bytes : Nat) : TlbEnt :=
  if mine e.ctx && e.dest == .host then { e with units := e.units.filter (fun u => !unitIn dva bytes e.page u.unit) } else e

/-- A MIGRATE whose copy has not begun forgets units of a range and asks for them again (10 R337, R351, R352). -/
def migrateForget (fn dva bytes : Nat) (s : State) : State :=
  s.disp.cmds.foldl (fun st c =>
    let ctx := c.fld 16 2 % 1024
    let back := c.fld 18 1 % 2 == 1
    let mine := fun (u : AtsUnit) => unitIn dva bytes (c.fld 24 8 / 0x10000) u.unit
    if c.kind == 6 && c.phase == .running && s.ctxFn ctx == fn && (back || decide (c.units.length < 16)) then
      (c.units.filter mine).foldl (fun u x => needUnit ctx ⟨.cmd c.ring c.seq, c.fld 24 8 + 4096 * x.unit, back⟩ u)
        (st.updCmd c.ring c.seq (fun x => { x with units := x.units.filter (fun u => !mine u) }))
    else st) s

/-- ATS_INVALIDATE_REQUEST (10 R337): the units leave every cache; requests under way forget them. -/
def execAtsInvalidateRequest (fn tag dva bytes : Nat) (s : State) : Res :=
  let mine := fun (c : Nat) => s.ctxFn c == fn
  let cut := fun (l : List TlbEnt) => l.map (fun e => e.dropUnits mine dva bytes)
  let s1 := s.withXlt { s.xlt with
    shared := cut s.xlt.shared
    checker := cut s.xlt.checker
    ats := s.xlt.ats.map (fun a =>
      if mine a.ctx then
        { a with stale := ((List.range 16).filter (fun u => unitIn dva bytes a.page u)).foldl (fun l u => ins u l) a.stale }
      else a)
    atsInval := s.xlt.atsInval ++ [(fn, tag, dva, bytes)] }
  .next (migrateForget fn dva bytes (s1.withTile (s1.tile.map (fun t => (t.1, { t.2 with tlb := cut t.2.tlb })))))

/-- Is it the use of a request of a function's commands? -/
def State.useOf (s : State) (fn : Nat) (u : Use) : Bool := match s.useCmd u with | some (r, _) => s.ringFn r == fn | none => false

/-- Is a host read a command's, at an address of its context? -/
def HostRd.ofCmd : HostRd → Bool
  | .migrate _ _ _ | .copy _ _ _ _ | .image _ _ _ | .list _ _ _ _ | .pkt _ => true
  | _ => false

/-- Requests of a function's contexts to the host that are not complete, or not on the link (10 R337; log 40). -/
def State.hostBusy (s : State) (fn : Nat) : Bool :=
  s.hub.outst.any (fun o => o.dst == 57 && s.useOf fn o.use) || s.hub.bound.any (fun b => b.1.dst == 57 && s.useOf fn b.2)
    || s.hif.reads.any (fun r => match r.2 with | some u => u.ofCmd && s.rdFn u == fn | none => false)
    || s.hif.out.any (fun w => match w with | .pkt p => s.useOf fn (s.pktUse p) | .tlp t => t.fn == fn)

/-- ATS_INVALIDATE_DONE (10 R337): no request that could use the units is under way, so the completion follows the
writes on the link. -/
def execAtsInvalidateDone (fn tag : Nat) (s : State) : Res :=
  .next (if s.xlt.atsInval.any (fun i => i.1 == fn && i.2.1 == tag) && !s.hostBusy fn then
      (s.withXlt { s.xlt with atsInval := s.xlt.atsInval.filter (fun i => !(i.1 == fn && i.2.1 == tag)) }).tlp
        (.invalDone fn tag)
    else s)

/-! ## Stalls -/

/-- Retry the stalled translations that satisfy a test (10 R349). -/
def retryStalls (p : Stall → Bool) (s : State) : State :=
  ((s.xlt.stalls.filter p).flatMap (fun x => x.waits.map (fun w => (x.ctx, w)))).foldl (fun st w => resumeWait w.1 w.2 st) s

/-- XLT_RESUME (10 R349, R355; 18 R613): a VF names contexts of its own only. -/
def execXltResume (who : Agent) (ctx : Nat) (s : State) : Res :=
  .next (if !s.hostGate who then s
    else if ownFn who (s.ctxFn (ctx % 1024)) then
      retryStalls (fun x => x.ctx == ctx % 1024) (s.setReg 0x0900008 (BitVec.ofNat 64 (ctx % 1024)))
    else setupRefused who 0x0900008 s)

/-- An access has waited for its translation as long as XLT_CTL.FTO allows (10 R338, R350): its command ends with FAULT, the
address and the reason; a placement write is dropped with its record; XPREF skips the page (06 R200). A wait for the host has no
reason of its own: the one reported is free (log 12). -/
def waitExpires (ctx reason : Nat) (w : XltWait) (s : State) : State :=
  let (f, s1) := if reason = 0 then s.draw 3 else (BitVec.ofNat 64 reason, s)
  let r := f.toNat % 256
  match w.by_ with
  | .xpref pos slot id => xprefSkip pos slot id (w.dva / 0x10000) (dropWaits (fun y => y == w) s)
  | .place n =>
    let (lv, e) := s1.leafInfo ctx w.dva
    placeFault n (faultRecord ctx (faultBytes ctx w.dva r lv true true 0xFFFF 0xFFFF 0 e) (dropWaits (fun y => y == w) s1))
  | .ranoa _ | .list _ _ => s
  | .move _ _ _ | .cmd _ _ =>
    match s.waitOf w with
    | none => s
    | some (ring, seq) => endFault ring seq { status := 0x04, reason := r, detail := w.dva } s1

/-- FAULT_TIMEOUT (10 R338, R350): the stalls of a page, or its waits on the host, have lasted XLT_CTL.FTO. -/
def execFaultTimeout (ctx page : Nat) (s : State) : Res :=
  let st := (s.xlt.stalls.filter (fun x => x.ctx == ctx && x.page == page)).flatMap (fun x => x.waits.map (fun w => (x.reason, w)))
  let ats := (s.xlt.ats.filter (fun a => a.isFor ctx page)).flatMap (fun a => a.waits.map (fun w => (0, w)))
  .next (placesGo (tagsGo (atsTidy ctx page ((st ++ ats).foldl (fun u x => waitExpires ctx x.1 x.2 u) s))))

/-! ## Registers -/

/-- XLT_STAT (10 R356). -/
def State.xltStat (s : State) : Word :=
  BitVec.ofNat 64 (at_ s.xlt.walksStarted 32 + at_ s.xlt.faultsWritten 16 + min s.xlt.stalls.length 0xFFFF)

/-- XLT_STAT_READ (10 R356, 18 R613): WALKS and FAULTS clear. -/
def execXltStatRead (who : Agent) (s : State) : Res :=
  .next (if s.hostGate who then
      let s1 := reply who 0x0900010 s.xltStat s
      s1.withXlt { s1.xlt with walksStarted := 0, faultsWritten := 0 }
    else shutRead who 0x0900010 s)

/-- XLT_FRCTLc (10 R360). -/
def State.frCtl (s : State) (c : Nat) : Word :=
  (s.reg (xltReg c + 0x18) &&& 0xFFFF#64) ||| BitVec.ofNat 64 (at_ (look 0 s.xlt.frFull c) 48 + at_ (look 0 s.xlt.frProd c % 65536) 16)

/-- XLT_FRCTL_READ (10 R357, R360): FULL clears; a VF reads 0 of a context not its own. -/
def execXltFrctlRead (who : Agent) (ctx : Nat) (s : State) : Res :=
  let c := ctx % 1024
  let off := xltReg c + 0x18
  .next (if s.hostGate who && ownFn who (s.ctxFn c) then
      let s1 := reply who off (s.frCtl c) s
      s1.withXlt { s1.xlt with frFull := put 0 s1.xlt.frFull c 0 }
    else shutRead who off s)

end Sys2Proof.Machine
end

