-- ==== Sys2Proof/Machine/CmdRun.lean ====
section
/-!
DEFINITION. What each kind of descriptor does once it is head and its waits hold: placement and checkpoint of a RUN, the
copy engine, waits, signals, hints, barriers, migration and invalidation (13 R460 to R472; 10 R341 to R344, R351 to
R353; 16 R563).
-/
namespace Sys2Proof.Machine

/-! ## Starting -/

/-- A command starts; the next of a concurrent ring may become head (13 R465). -/
def startCmd (c : Cmd) (s : State) : State :=
  let n := s.disp.order
  promoteRing c.ring ((s.withDisp { s.disp with order := n + 1, reserved := del c.ring s.disp.reserved }).updCmd c.ring c.seq
    (fun x => { x with phase := .running, startedAt := n }))

/-- A command's work is done, and its completion may follow (13 R466). -/
def workDone (ring seq : Nat) (s : State) : State := s.updCmd ring seq (fun x => { x with phase := .ending })

/-- A descriptor that the head refuses (13 R456). -/
def refuseHead (c : Cmd) (reason : Nat) (s : State) : State :=
  promoteRing c.ring ((endWith c.ring c.seq { status := 0x01, reason := reason } s).updCmd c.ring c.seq (fun x => { x with check := reason }))

/-! ## Placement -/

/-- The slots of a tile that are in use. -/
def Tile.used (t : Tile) : List Slot := (List.range 4).filterMap (fun k => look none t.slots k)
/-- The lowest free slot. -/
def Tile.freeSlotNum (t : Tile) : Option Nat := (List.range 4).find? (fun k => (look none t.slots k).isNone)
/-- The free arrays. -/
def Tile.freeArrays (t : Tile) : List Nat := (List.range 8).filter (fun a => !t.used.any (fun x => has a x.arrays))
/-- Instructions of the code store in use. -/
def Tile.codeUsed (t : Tile) : Nat := (t.used.map Slot.codeLen).sum
/-- The first place of a free contiguous window of n units (03 R101). -/
def Tile.freeWindow (t : Tile) (n : Nat) : Option Nat :=
  (List.range 16).find? (fun b => decide (b + n ≤ 16)
    && t.used.all (fun x => decide (b + n ≤ x.wbase) || decide (x.wbase + x.wlen ≤ b)))

/-- Tiles kept for heads that have waited longer than a ring's (13 R469). -/
def State.keptFrom (s : State) (ring : Nat) : Nat :=
  let before := s.disp.reserved.takeWhile (fun r => r != ring)
  (before.filterMap (fun r => s.disp.cmds.find? (fun c => c.ring == r && c.phase == .head))).foldl
    (fun m c => m ||| c.tilemask) 0

/-- Does a logical tile qualify for a part of a command (13 R468, R469; 16 R564)? -/
def State.qualifies (s : State) (c : Cmd) (code tile : Nat) : Bool :=
  match s.posOf tile with
  | none => false
  | some pos =>
    let t := s.tileOf pos
    !bitOf (s.keptFrom c.ring) tile && !s.suspectOn pos && !t.resetting && !s.fenced pos && look 0 s.glb.site pos == 0
      && t.freeSlotNum.isSome && decide (c.arrays ≤ t.freeArrays.length) && (t.freeWindow c.window).isSome
      && decide (t.codeUsed + code ≤ 16384)

/-- The tile for a part: the one with the most free arrays, the lower number on a tie (13 R468). -/
def State.bestTile (s : State) (c : Cmd) (code : Nat) : Option Nat :=
  ((s.tilesFor c).filter (s.qualifies c code)).foldl (fun best t =>
    let free := fun (x : Nat) => ((s.tileOf ((s.posOf x).getD 0)).freeArrays).length
    match best with
    | none => some t
    | some b => if free b < free t then some t else some b) none

/-- Give one part its slot (03 R101, 05 R148 step 1): the lowest free slot, the lowest free arrays and the first place where the
window fits (log 30, DESIGN CHOICE: no rule says which of the free ones). -/
def placePart (c : Cmd) (code part : Nat) (s : State) : Option (Part × State) :=
  match s.bestTile c code with
  | none => none
  | some tile =>
    let pos := (s.posOf tile).getD 0
    let t := s.tileOf pos
    match t.freeSlotNum, t.freeWindow c.window with
    | some k, some w =>
      let x : Slot := { ring := c.ring, seq := c.seq, ctx := s.ringCtx c.ring, fn := s.ringFn c.ring, part := part
                        nparts := c.nparts, arrays := t.freeArrays.take c.arrays, wbase := w, wlen := c.window, codeLen := code }
      some (⟨part, tile, pos, k, false⟩, s.updTile pos (fun t => { t with slots := put none t.slots k (some x) }))
    | _, _ => none

/-- Place parts from a number on, all or none (13 R468). -/
def placeParts (c : Cmd) (code : Nat) : Nat → Nat → State → Option (List Part × State)
  | 0, _, s => some ([], s)
  | n + 1, i, s =>
    match placePart c code i s with
    | none => none
    | some (p, s1) => (placeParts c code n (i + 1) s1).map (fun r => (p :: r.1, r.2))

/-- Place a command and send its work items (13 R468, 02 R39). None when it does not fit now. -/
def placeCmd (c : Cmd) (count : Nat) (s : State) : Option State :=
  (placeParts c (ceilDiv count 1024 * 1024) c.nparts 0 s).map (fun r =>
    let s1 := r.2.updCmd c.ring c.seq (fun x => { x with parts := r.1 })
    r.1.foldl (fun st p => send (workItem p.pos c.ring c.seq p.num) st) s1)

/-! ## RUN -/

/-- The header of a RUN's image as the dispatcher reads it (13 R468): from memory, or from the host, which is asked
first. None while it is not there. -/
def runHeader (c : Cmd) (s : State) : Option Header × State :=
  let a := c.fld 16 8 % 2 ^ 55
  let ctx := s.ringCtx c.ring
  let fromHost := fun (mode : TlpAt) (bus : Nat) (st : State) =>
    match c.got with
    | (_, b, _) :: _ => (some (Header.of b), st)
    | [] =>
      if st.reading (.image c.ring c.seq bus) then (none, st)
      else if !st.cmdOpen c.ring c.seq then (none, hostCut c.ring c.seq bus st)
      else (none, hostRead (st.ringFn c.ring) mode bus 64 (.image c.ring c.seq bus) st)
  let fromPeer := fun (d : Nat) (st : State) =>
    match c.got with
    | (_, b, _) :: _ => (some (Header.of b), st)
    | [] =>
      if st.hub.outst.any (fun o => o.use == .copy c.ring c.seq 0) then (none, st)
      else (none, requestAt .read 63 d false [] 64 (.copy c.ring c.seq 0) st)
  let (h, s1) := xltAccess .none true ctx ⟨.cmd c.ring c.seq, a, false⟩ s
  match h with
  | none => (none, s1)
  | some (.bus b) => fromHost .translated b s1
  | some (.dev d) =>
    match s1.zone d with
    | .host => fromHost (s.untrans ctx) (busOf d) s1
    | .ranoa _ => fromPeer d s1
    | _ =>
      let (r, s2) := fetchPage .none ctx c.ring c.seq a 64 [] s1
      (r.map Header.of, s2)

/-- Bytes of the checkpoint area's HBM part and pool part that checkpoints may use (13 R472, 16 R572). -/
def State.ckptRoom (s : State) (part : Nat) : Nat :=
  let used := (s.disp.cmds.map (fun c => if c.ckptAt = part then (c.inplace.map Region.size).sum else 0)).sum
  (if part = 2 then (if (s.poolOf 3).state = 2 then 0 else s.memc.poolCkpt) else s.memc.stageBase - s.memc.ckptBase - 2 ^ 27) - used

/-- A RUN with in-place regions takes room for its checkpoint (13 R471, R472). -/
def takeCkpt (c : Cmd) (s : State) : State :=
  let n := (c.inplace.map Region.size).sum
  let at_ := if n ≤ s.ckptRoom 2 then 2 else if n ≤ s.ckptRoom 1 then 1 else 0
  if c.ckptAt != 0 then s else s.updCmd c.ring c.seq (fun x => { x with ckptAt := at_ })

/-- May the head of a ring be placed now: its header is read, its checkpoint taken, and its parts fit (13 R468, R469, R471)? -/
def State.placeable (s : State) (ring : Nat) : Bool :=
  match s.headOf ring 1 with
  | none => false
  | some c => c.count != 0 && (c.inplace.isEmpty || c.ckptDone) && (placeCmd c c.count s).isSome

/-- The ring whose head is placed next: the first from the dispatcher's pointer on whose head can be placed (13 R469). -/
def State.placeTurn (s : State) : Option Nat :=
  rotPick 4096 s.disp.ptr (((s.disp.cmds.map Cmd.ring).eraseDups).filter s.placeable)

/-- RUN (13 R456, R468 to R471; 05 R148, R149): the head reads its header, makes its checks again, takes its
checkpoint, and places all its parts together when it is its ring's turn, or waits. -/
def execRun (ring : Nat) (s : State) : Res :=
  .next (match s.headOf ring 1 with
    | none => s
    | some c =>
      let (h, s1) := runHeader c s
      match h with
      | none => s1
      | some h =>
        if !h.ok then promoteRing ring (endWith ring c.seq (loadRefused 1 0) s1)
        else if s1.noRoom c h.count then refuseHead c 6 s1
        else match inplacePieces c s1 with
          | (.wait, s2) => s2
          | (.bad, s2) => refuseHead c 9 s2
          | (.got _, s2) =>
            if !c.inplace.isEmpty && !c.ckptDone then takeCkpt c s2
            else
              let s3 := s2.updCmd ring c.seq (fun x => { x with count := h.count, got := [] })
              if s3.placeTurn != some ring then s3
              else match placeCmd c h.count s3 with
                | none => s3
                | some s4 => noteClash ring c.seq (startCmd c (s4.withDisp { s4.disp with ptr := (ring + 1) % 4096 })))

/-- CHECKPOINT_DONE (13 R471): every in-place region is copied and acknowledged: its tiles are fetched for it, and each home verifies
what it serves (08 R252; 09 R301); an error answer stops the command (16 R567). -/
def execCheckpointDone (ring seq : Nat) (s : State) : Res :=
  .next (match s.cmdOf ring seq with
    | none => s
    | some c =>
      if c.phase != .head || c.ckptAt == 0 || c.ckptDone || c.replayDue.isSome then s
      else match inplacePieces c s with
        | (.got pieces, s1) =>
          match pieces.findSome? (fun p => (s1.engErr 63 p.1 false).map (fun r => (r, p.1))) with
          | some (r, d) => accessFailed ring seq (s1.errPort d false) r d 0 s1
          | none =>
            let (ready, s2) := tilesReady c false (pieces.map Prod.fst) s1
            if !ready then s2
            else
              let s3 := pieces.foldl (fun st p => serveReads p.1 p.2 st) s2
              s3.updCmd ring seq (fun x => { x with ckpt := pieces.map (fun p => s3.snapshot p.1 p.2), ckptDone := true })
        | (_, s1) => s1)

/-- RESOURCE_WAIT_LIMIT (13 R469): the head has waited 100 µs for resources. -/
def execResourceWaitLimit (ring : Nat) (s : State) : Res :=
  .next (match s.headOf ring 1 with
    | none => s
    | some _ => if has ring s.disp.reserved then s else s.withDisp { s.disp with reserved := s.disp.reserved ++ [ring] })

/-! ## COPY and FILL -/

/-- Translate a range in pieces of 4 KiB: (offset, length, where). None while a piece waits. -/
def xltPieces (ring seq ctx a n : Nat) (write : Bool) (s : State) : Option (List (Nat × Nat × Hit)) × State :=
  (cutRange 4096 (n / 4096 + 2) a n).foldl (fun acc p =>
    match acc.1 with
    | none => acc
    | some l =>
      let (h, st) := xltAccess .none true ctx ⟨.cmd ring seq, p.1, write⟩ acc.2
      (h.map (fun x => l ++ [(p.1 - a, p.2, x)]), st)) (some [], s)

/-- The data of a piece of device memory, cut at the source's sectors: (offset, bytes, poisoned). -/
def devData (s : State) (off d n : Nat) : List (Nat × List Byte × Bool) :=
  (cutRange 64 (n / 64 + 2) d n).map (fun c => (off + (c.1 - d), s.cohRead c.1 c.2, (s.cohSector (c.1 / 64)).2))

/-- A piece outside the module's memory, cut into reads of the hub of at most 256 B (02 R38). -/
def cutPeer (s : State) (p : Nat × Nat × Hit) : List (Nat × Nat × Hit) :=
  match p.2.2 with
  | .dev d => if s.outside d then (cutRange 256 (p.2.1 / 256 + 2) d p.2.1).map (fun c => (p.1 + (c.1 - d), c.2, .dev c.1)) else [p]
  | .bus _ => [p]

/-- Read what a COPY takes from device memory, ask for what lies in host memory or at a peer, and answer the data once
all of it is there. -/
def copySource (c : Cmd) (pieces : List (Nat × Nat × Hit)) (s : State) : Option (List (Nat × List Byte × Bool)) × State :=
  let l := pieces.flatMap (cutPeer s)
  let ask := fun (acc : State) (p : Nat × Nat × Hit) =>
    let here := c.got.any (fun g => g.1 == p.1)
    match p.2.2 with
    | .bus b =>
      if here || acc.reading (.copy c.ring c.seq p.1 b) then acc
      else if !acc.cmdOpen c.ring c.seq then hostCut c.ring c.seq b acc
      else hostRead (acc.ringFn c.ring) .translated b p.2.1 (.copy c.ring c.seq p.1 b) acc
    | .dev d =>
      if !acc.outside d || here || acc.hub.outst.any (fun o => o.use == .copy c.ring c.seq p.1) then acc
      else requestAt .read 63 d false [] p.2.1 (.copy c.ring c.seq p.1) acc
  let s1 := (l.foldl ask s) |> fun st => l.foldl (fun u p => match p.2.2 with
    | .dev d => if u.outside d then u else serveReads d p.2.1 u
    | .bus _ => u) st
  let parts := l.map (fun p =>
    match p.2.2 with
    | .dev d => if s1.outside d then (c.got.find? (fun g => g.1 == p.1)).map (fun g => [g]) else some (devData s1 p.1 d p.2.1)
    | .bus _ => (c.got.find? (fun g => g.1 == p.1)).map (fun g => [g]))
  (if parts.all Option.isSome then some (parts.flatMap (fun x => x.getD [])) else none, s1)

/-- The bytes from offset o, n of them, out of data pieces; and whether any comes from a poisoned piece. -/
def dataAt (data : List (Nat × List Byte × Bool)) (o n : Nat) : List Byte × Bool :=
  data.foldl (fun acc g =>
    let lo := max o g.1
    let hi := min (o + n) (g.1 + g.2.1.length)
    if lo < hi then (acc.1 ++ (g.2.1.drop (lo - g.1)).take (hi - lo), acc.2 || g.2.2) else acc) ([], false)

/-- Write data to a device address, sector by sector; a destination sector that holds a byte of a poisoned source sector
becomes poisoned (16 R554). -/
def writeData (data : List (Nat × List Byte × Bool)) (off d n : Nat) (s : State) : State :=
  (cutRange 64 (n / 64 + 2) d n).foldl (fun st c =>
    let (b, p) := dataAt data (off + (c.1 - d)) c.2
    let st1 := cohWrite c.1 b st
    if p then cohPoisonRange c.1 c.2 st1 else st1) s

/-- Poisoned source sectors taint the command: the first is named (16 R556). -/
def taintSource (c : Cmd) (src : Nat) (l : List (Nat × Nat × Hit)) (s : State) : State :=
  l.foldl (fun st p =>
    match p.2.2 with
    | .bus _ => st
    | .dev d =>
      if st.outside d then st
      else match st.cohPoison d p.2.1 with
        | some k => taintCmd c.ring c.seq { status := 0x05, port := st.homePort (64 * k), detail := 64 * k, region := c.regionFor (src + p.1) } st
        | none => st) s

/-- The first piece whose access would fail: its reason and address. -/
def badPiece (s : State) (write : Bool) (l : List (Nat × Nat × Hit)) : Option (Nat × Nat × Nat) :=
  l.findSome? (fun p => match p.2.2 with
    | .bus _ => none
    | .dev d => if s.outside d then none else (s.engErr 63 d write).map (fun r => (r, d, p.1)))

/-- Write a transfer's data where it goes: device memory at once, a peer by packets, host memory through the output
engine, for which the data is kept (13 R462, 12 R421). -/
def transferOut (c : Cmd) (data : List (Nat × List Byte × Bool)) (l : List (Nat × Nat × Hit)) (s : State) : State :=
  let toHost := l.any (fun p => match p.2.2 with | .bus _ => true | .dev d => (match s.zone d with | .host => true | _ => false))
  let s1 := l.foldl (fun st p =>
    match p.2.2 with
    | .bus _ => st
    | .dev d =>
      match st.zone d with
      | .host => st
      | .ranoa _ =>
        (placePieces d (dataAt data p.1 p.2.1).1).foldl (fun u q =>
          let pay := if q.mask = 0 then q.data else q.data ++ leBytes 8 q.mask ++ List.replicate 8 0#8
          requestAt (if q.mask = 0 then .write else .writeMasked) 63 q.dva (dataAt data p.1 p.2.1).2 pay 0
            (.cmd c.ring c.seq (p.1 + (q.off - d))) u) st
      | _ => writeData data p.1 d p.2.1 st) s
  if toHost then s1.updCmd c.ring c.seq (fun x => { x with got := data, staging := true })
  else s1.updCmd c.ring c.seq (fun x => { x with outDone := [0], phase := .ending })

/-- The head or the running transfer of a ring that has still to move its data. -/
def State.transferOf (s : State) (ring kind : Nat) : Option Cmd :=
  match s.disp.cmds.find? (fun c => c.ring == ring && c.phase == .running && c.kind == kind && c.outDone.isEmpty && !c.staging
      && c.replayDue.isNone) with
  | some c => some c
  | none => s.headOf ring kind

/-- Mark a transfer as started. -/
def takeTransfer (c : Cmd) (s : State) : State := if c.phase = .head then noteClash c.ring c.seq (startCmd c s) else s

/-- The device addresses of the pieces of a transfer. -/
def devAddrs (l : List (Nat × Nat × Hit)) : List Nat := l.filterMap (fun p => match p.2.2 with | .dev d => some d | .bus _ => none)

/-- COPY (13 R462; 16 R554, R556): the engine takes it and moves its bytes unchanged. -/
def execCopy (ring : Nat) (s : State) : Res :=
  .next (match s.transferOf ring 2 with
    | none => s
    | some c =>
      let ctx := s.ringCtx ring
      let s0 := takeTransfer c s
      let (src, s1) := xltPieces ring c.seq ctx (c.fld 16 8) (c.fld 32 8) false s0
      let (dst, s2) := xltPieces ring c.seq ctx (c.fld 24 8) (c.fld 32 8) true s1
      match src, dst with
      | some ls, some ld =>
        match badPiece s2 false ls, badPiece s2 true ld with
        | some (r, d, o), _ => accessFailed ring c.seq (s2.errPort d false) r d (c.fld 16 8 + o) s2
        | none, some (r, d, o) => accessFailed ring c.seq (s2.errPort d true) r d (c.fld 24 8 + o) s2
        | none, none =>
          let (ready, s3) := tilesReady c false (devAddrs ls) s2
          let (ready', s4) := tilesReady c true (devAddrs ld) s3
          if !ready || !ready' then s4
          else
            let (data, s5) := copySource c ls s4
            match data with
            | none => s5
            | some data => transferOut c data ld (taintSource c (c.fld 16 8) ls s5)
      | _, _ => s2)

/-- The bytes of a FILL: its pattern, repeated (13 R462). -/
def fillBytes (c : Cmd) : List Byte :=
  let pat := (c.desc.drop 32).take 8
  ((List.range (c.fld 24 8 / 8)).map (fun _ => pat)).flatten

/-- FILL (13 R462). -/
def execFill (ring : Nat) (s : State) : Res :=
  .next (match s.transferOf ring 3 with
    | none => s
    | some c =>
      let s0 := takeTransfer c s
      let (dst, s1) := xltPieces ring c.seq (s.ringCtx ring) (c.fld 16 8) (c.fld 24 8) true s0
      match dst with
      | none => s1
      | some ld =>
        match badPiece s1 true ld with
        | some (r, d, o) => accessFailed ring c.seq (s1.errPort d true) r d (c.fld 16 8 + o) s1
        | none =>
          let (ready, s2) := tilesReady c true (devAddrs ld) s1
          if !ready then s2 else transferOut c [(0, fillBytes c, false)] ld s2)

/-! ## WAIT, SIGNAL, HINT, BARRIER -/

/-- The head of a kind starts and its work is done. -/
def headDone (ring kind : Nat) (f : Cmd → State → State) (s : State) : State :=
  match s.headOf ring kind with
  | none => s
  | some c => workDone ring c.seq (startCmd c (f c s))

/-- WAIT_DESCRIPTOR (13 R463): every wait holds. -/
def execWaitDescriptor (ring : Nat) (s : State) : Res := .next (headDone ring 4 (fun _ s => s) s)

/-- SIGNAL_DESCRIPTOR (13 R463): its entries are performed with the signal list at completion. -/
def execSignalDescriptor (ring : Nat) (s : State) : Res := .next (headDone ring 5 (fun _ s => s) s)

/-- The logical tiles of a HINT (13 R463, 17 R596). -/
def State.hintTiles (s : State) (c : Cmd) : List Nat :=
  let m := s.partMask (s.ringFn c.ring)
  (List.range 32).filter (fun t => bitOf m t && (c.fld 24 4 == 0 || bitOf (c.fld 24 4) t))

/-- HINT_DESCRIPTOR (13 R463, 06 R212, 15 R530): the phase is passed for the masked tiles. -/
def execHintDescriptor (ring : Nat) (s : State) : Res :=
  .next (headDone ring 8 (fun c s => (s.hintTiles c).foldl (fun st t => addHint t (c.fld 16 1 % 4) (c.fld 18 2) st) s) s)

/-- Commands accepted before a BARRIER in its scope that have not completed (13 R463). -/
def State.before (s : State) (c : Cmd) : List Cmd :=
  s.disp.cmds.filter (fun x => decide (x.order < c.order) && !x.past true
    && (x.ring == c.ring || (c.fld 16 1 % 2 == 1 && s.ringCtx x.ring == s.ringCtx c.ring)))

/-- BARRIER (13 R463). -/
def execBarrier (ring : Nat) (s : State) : Res :=
  .next (match s.headOf ring 9 with
    | none => s
    | some c => if (s.before c).isEmpty then workDone ring c.seq (startCmd c s) else s)

/-! ## Blocks -/

/-- Does a request under way use a page range of a context (10 R343 step 4)? A gather's packets count for the whole
context. -/
def State.rangeBusy (s : State) (ctx page pages : Nat) : Bool :=
  let inside := fun (dva : Nat) => decide (page ≤ dva / 0x10000) && decide (dva / 0x10000 < page + pages)
  (s.hub.outst.map Outst.use ++ s.hub.bound.map Prod.snd).any (fun u => match u with
    | .move pos slot id off => match s.moveOf pos slot id with
      | some (x, q) => x.ctx == ctx && (wOpc q.word == 0x82 || inside off)
      | none => false
    | .drain ring _ | .cmd ring _ _ | .copy ring _ _ => s.ringCtx ring == ctx
    | .place n => s.counted.any (fun c => c.id == n && (match c.place, c.entry with
      | some i, _ => (s.win i).ctx == ctx
      | none, some i => s.regFld (rwin i + 0x10) 35 26 == ctx
      | none, none => false))
    | .ranoaGet _ _ _ => true
    | _ => false)
  || s.hif.reads.any (fun r => match r.2 with
    | some (.copy ring _ _ _) | some (.image ring _ _) | some (.list ring _ _ _) => s.ringCtx ring == ctx
    | _ => false)

/-- Block a range for a command (10 R343 step 1, R351). -/
def addBlock (c : Cmd) (ctx page pages : Nat) (s : State) : State :=
  s.withXlt { s.xlt with blocks := s.xlt.blocks ++ [⟨c.ring, c.seq, ctx, page, pages⟩] }

/-- Drop a range of a context from every cache (10 R343 steps 3 and 4). -/
def dropRange (ctx page pages : Nat) (s : State) : State :=
  let s1 := dropTlb (fun e => e.ctx == ctx && decide (e.page < page + pages) && decide (page < e.page + e.pages)) s
  s1.withXlt { s1.xlt with walkCache := s1.xlt.walkCache.filter (fun p =>
    let span := if p.level = 0 then 2 ^ 26 else 2 ^ 13
    !(p.ctx == ctx && decide (p.idx * span < page + pages) && decide (page < (p.idx + 1) * span))) }

/-- The ranges a command has blocked. -/
def State.blocksOf (s : State) (ring seq : Nat) : List Block := s.xlt.blocks.filter (fun b => b.ring == ring && b.seq == seq)

/-- Lift a command's blocks, repeat the walks in them and retry their stalled translations (10 R343 step 5, R349, R351). -/
def liftBlocks (ring seq : Nat) (s : State) : State :=
  let bs := s.blocksOf ring seq
  let s1 := s.withXlt { s.xlt with blocks := s.xlt.blocks.filter (fun b => !(b.ring == ring && b.seq == seq)) }
  if bs.isEmpty then s
  else
    let inside := fun (ctx page : Nat) => bs.any (fun b => b.ctx == ctx && decide (b.page ≤ page) && decide (page < b.page + b.pages))
    retryStalls (fun x => inside x.ctx x.page) (restartWalks (fun x => inside x.ctx x.page) s1)

/-- Is a range blocked by another command, of MIGRATE only or of any kind? -/
def State.blockedBy (s : State) (migrate : Bool) (ctx page pages : Nat) : Bool :=
  s.xlt.blocks.any (fun b => b.ctx == ctx && decide (b.page < page + pages) && decide (page < b.page + b.pages)
    && (!migrate || (match s.cmdOf b.ring b.seq with | some c => c.kind == 6 | none => false)))

/-! ## MIGRATE -/

/-- The outcome of a MIGRATE whose entry has the wrong type (10 R353). -/
def wrongType (dva : Nat) : Verdict := { status := 0x04, reason := 0x03, detail := dva }
/-- The outcome of a MIGRATE that reads an entry in a sector stored poisoned, as of a walk or an update (10 R342, R346). -/
def entryPoison (s : State) (a : Nat) : Verdict := { status := 0x05, detail := a / 64 * 64, port := s.homePort a, region := 0xE }

/-- What a command finds where it looks for an entry of its tables: an outcome that ends it, an error answer of a table's home, or the
entry's address (10 R342, R346, R353). -/
inductive Placed where
  | stop (v : Verdict) | err (reason addr : Nat) | found (addr : Nat)
  deriving DecidableEq, Repr

/-- A command reads an entry: its home verifies it or answers an error, and a poisoned one ends the command (10 R342, R346; 08 R252). -/
def entryRead (a : Nat) (s : State) : Placed × State :=
  match s.engErr 63 a false with
  | some r => (.err r a, s)
  | none =>
    let s1 := serveReads a 8 s
    (if (s1.cohPoison a 8).isSome then .stop (entryPoison s1 a) else .found a, s1)

/-- The entry of a level, through the tables as they are: `bad` gives the outcome for an entry above it that is no table. -/
def entryPlace (bad : State → Nat → Nat → Option Verdict) (dva : Nat) : Nat → Nat → Nat → State → Placed × State
  | 0, _, a, s => (.found a, s)
  | n + 1, level, a, s =>
    match entryRead a s with
    | (.found b, s1) =>
      let e := s1.cohLE b 8
      match bad s1 level e with
      | some v => (.stop v, s1)
      | none => entryPlace bad dva n (level + 1) (bitsOf e 47 16 * 0x10000 + 8 * walkIdx dva (level + 1)) s1
    | r => r

/-- Where a context's entry of an address at a level lies. -/
def ctxEntry (bad : State → Nat → Nat → Option Verdict) (none_ : Verdict) (ctx dva level : Nat) (s : State) : Placed × State :=
  if !has ctx s.xlt.rootOk then (.stop none_, s)
  else entryPlace bad dva level 0 (look 0 s.xlt.root ctx * 0x10000 + 8 * walkIdx dva 0) s

/-- The level-2 entry of an address, read (10 R346, R353). -/
def pageEntry (ctx dva : Nat) (s : State) : Placed × State :=
  let bad := fun (st : State) (lv e : Nat) => if e % 8 == 1 && (entryFault st ctx lv e).isNone then none else some (wrongType dva)
  match ctxEntry bad (wrongType dva) ctx dva 2 s with
  | (.found a, s1) => entryRead a s1
  | r => r

/-- An error answer to an access of a command's own engine ends it, or stops it for its replay (10 R342, R346; 16 R567). -/
def engFailed (c : Cmd) (reason a dva : Nat) (write : Bool) (s : State) : State :=
  accessFailed c.ring c.seq (s.errPort a write) reason a dva s

/-- The first error that an access of a 64 KiB page would draw, by its 4 KiB units (10 R351 step 4, R352). -/
def State.pageErr (s : State) (a : Nat) (write : Bool) : Option (Nat × Nat) :=
  (List.range 16).findSome? (fun u => (s.engErr 63 (a + 4096 * u) write).map (fun r => (r, a + 4096 * u)))

/-- MIGRATE (10 R351 to R353, 13 R464): the page is blocked and dropped from every cache; the host's translations of its
16 units are asked for. A page under another block waits for it. -/
def execMigrate (ring : Nat) (s : State) : Res :=
  .next (match s.headOf ring 6 with
    | none => s
    | some c =>
      let ctx := c.fld 16 2 % 1024
      let dva := c.fld 24 8
      let page := dva / 0x10000
      if s.blockedBy false ctx page 1 then s
      else
        let s1 := dropRange ctx page 1 (addBlock c ctx page 1 (startCmd c s))
        let back := c.fld 18 1 % 2 == 1
        match pageEntry ctx dva s1 with
        | (.stop v, s2) => endWith ring c.seq v s2
        | (.err r a, s2) => engFailed c r a dva false s2
        | (.found a, s2) =>
          let e := s2.cohLE a 8
          if e % 8 != (if back then 2 else 4) || !((entryFault s2 ctx 2 e).getD 5 == 5) then endWith ring c.seq (wrongType dva) s2
          else (List.range 16).foldl (fun st u =>
            needUnit ctx ⟨.cmd ring c.seq, dva + 4096 * u, back⟩ st) s2)

/-- May a MIGRATE write the entry now: its accesses are done, its units known? -/
def State.migrateOk (s : State) (c : Cmd) (back : Bool) : Bool :=
  c.phase == .running && c.replayDue.isNone && c.kind == 6 && (c.fld 18 1 % 2 == 1) == back && decide (16 ≤ c.units.length)
    && !s.rangeBusy (c.fld 16 2 % 1024) (c.fld 24 8 / 0x10000) 1

/-- Rewrite the entry of a migrated page, lift the block and let the command complete (10 R351 steps 5 and 6, R352). -/
def migrateEnd (c : Cmd) (entry : Nat → Nat) (s : State) : State :=
  match pageEntry (c.fld 16 2 % 1024) (c.fld 24 8) s with
  | (.stop v, s1) => endWith c.ring c.seq v s1
  | (.err r a, s1) => engFailed c r a (c.fld 24 8) false s1
  | (.found a, s1) =>
    match s1.engErr 63 a true with
    | some r => engFailed c r a (c.fld 24 8) true s1
    | none => workDone c.ring c.seq (liftBlocks c.ring c.seq (cohWrite a (leBytes 8 (entry (s1.cohLE a 8))) s1))

/-- MIGRATE_COPY_DONE (10 R351 steps 3 to 6): the page's bytes from the host are written at DST and acknowledged. -/
def execMigrateCopyDone (ring seq : Nat) (data : List Byte) (s : State) : Res :=
  .next (match s.cmdOf ring seq with
    | none => s
    | some c =>
      if !s.migrateOk c false then s
      else
        let d := c.fld 32 8
        let s1 := setReads (s.hif.reads.filter (fun r => match r.2 with
          | some (.migrate r q _) => !(r == ring && q == seq) | _ => true)) s
        match s1.pageErr d true with
        | some (r, a) => engFailed c r a (c.fld 24 8) true s1
        | none =>
          match s1.zone d with
          | .direct | .scratch _ =>
            migrateEnd c (fun e => d + Nat.land e 0x18 + 2)
              (cohWrite d ((data ++ List.replicate 0x10000 0#8).take 0x10000) s1)
          | _ => accessFailed ring seq 63 0x04 d (c.fld 24 8) s1)

/-- MIGRATE_BACK_DONE (10 R352): the page's bytes are placed on the link, and the entry becomes TYPE 4. -/
def execMigrateBackDone (ring seq : Nat) (s : State) : Res :=
  .next (match s.cmdOf ring seq with
    | none => s
    | some c =>
      if !s.migrateOk c true then s
      else if !s.cmdOpen ring seq then
        let bus := ((c.units.head?).map AtsUnit.addr).getD 0
        endWith ring seq (hostDetached 0xE (bus / 64)) (cutCmd ring seq 0xE (bus / 64) s)
      else if s.hif.state != 2 then s
      else match pageEntry (c.fld 16 2 % 1024) (c.fld 24 8) s with
        | (.stop v, s0) => endWith ring seq v s0
        | (.err r a, s0) => engFailed c r a (c.fld 24 8) false s0
        | (.found a, s') =>
          let d := bitsOf (s'.cohLE a 8) 47 16 * 0x10000
          match s'.pageErr d false with
          | some (r, x) => engFailed c r x (c.fld 24 8) false s'
          | none =>
          let s0 := serveReads d 0x10000 s'
          let s1 := match s0.cohPoison d 0x10000 with
            | some k => taintCmd ring seq { status := 0x05, port := s0.homePort (64 * k), detail := 64 * k, region := 0xE } s0
            | none => s0
          let s2 := c.units.foldl (fun st u => (List.range 8).foldl (fun st i =>
            let a := d + 4096 * u.unit + 512 * i
            let bus := u.addr + 512 * i
            st.tlp (.write (st.ctxFn (c.fld 16 2 % 1024)) bus (st.cohRead a 512) (st.cohPoison a 512).isSome
              (.data ring seq 0xE (bus / 64)) .translated)) st) s1
          migrateEnd c (fun e => Nat.land e 0x18 + 4) s2)

/-! ## INVALIDATE -/

/-- The items of an update list in memory (10 R341). -/
def itemsOf : Nat → List Byte → List UpdItem
  | 0, _ => []
  | n + 1, b => ⟨BitVec.ofNat 64 (leAt b 0 8), BitVec.ofNat 64 (leAt b 8 8)⟩ :: itemsOf n (b.drop 16)

/-- The range an INVALIDATE names (13 R464): first page and pages. -/
def Cmd.invRange (c : Cmd) : Nat × Nat :=
  if c.fld 18 1 % 2 = 1 then (0, 2 ^ 39) else (c.fld 24 8 / 0x10000, ceilDiv (c.fld 24 8 % 0x10000 + c.fld 32 8) 0x10000)

/-- Every item is applied: the range gathered leaves the caches (10 R343 steps 3 and 4). -/
def invDrop (c : Cmd) (s : State) : State :=
  (s.blocksOf c.ring c.seq).foldl (fun st b => dropRange b.ctx b.page b.pages st) s

/-- INVALIDATE (10 R341, R343, R353; 12 R420): the range is blocked, the update list is read. A range with a page under
migration waits. -/
def execInvalidate (ring : Nat) (items : List UpdItem) (s : State) : Res :=
  .next (match s.headOf ring 7 with
    | none => s
    | some c =>
      let ctx := c.fld 16 2 % 1024
      let (p, n) := c.invRange
      let k := c.fld 48 4
      if s.blockedBy true ctx p n then s
      else
        let s1 := addBlock c ctx p n (startCmd c s)
        if k != 0 && !s.ringDev ring && !s.attached (s.ringFn ring) then
          let place := c.fld 40 8 / 64
          invDrop c (endWith ring c.seq (hostDetached 0xE place) (cutCmd ring c.seq 0xE place s1))
        else if s.ringDev ring && k != 0 then
          let a := c.fld 40 8
          match s1.engErr 63 a false with
          | some r => invDrop c (engFailed c r a 0 false s1)
          | none =>
            let s2 := serveReads a (16 * k) s1
            match s2.cohPoison a (16 * k) with
            | some q => invDrop c (endWith ring c.seq { status := 0x05, port := s2.homePort (64 * q), detail := 64 * q, region := 0xE } s2)
            | none => s2.updCmd ring c.seq (fun x => { x with items := itemsOf k (s2.cohRead a (16 * k)) })
        else
          let s2 := s1.updCmd ring c.seq (fun x => { x with items := (items ++ List.replicate k (⟨0#64, 0#64⟩ : UpdItem)).take k })
          if k = 0 then invDrop c s2 else s2)

/-- LEVEL, DVA, NEWTABLE of an item (10 R341). -/
def itemLevel (i : UpdItem) : Nat := fld i.w0 57 56
/-- The address an item names. -/
def itemDva (i : UpdItem) : Nat := fld i.w0 54 0
/-- Does the item zero the new table first? -/
def itemNew (i : UpdItem) : Bool := fld i.w0 63 63 == 1

/-- A malformed item (10 R341, R342). -/
def itemBad (i : UpdItem) (s : State) : Bool :=
  fld i.w0 62 58 != 0 || fld i.w0 55 55 != 0
    || (itemNew i && !(itemLevel i == 3 || (itemLevel i ≤ 1 && fld i.w1 2 0 == 1)))
    || (itemLevel i == 3 && (fld i.w1 63 48 != 0 || fld i.w1 15 0 != 0 || !s.tableOk (fld i.w1 47 16 * 0x10000)))

/-- Why an entry may not be written (10 R327, R328, R342): a TYPE 0 entry always may. -/
def itemFault (s : State) (ctx level e : Nat) : Option Nat :=
  if e % 8 = 0 then none
  else if (e % 8 = 3 ∨ e % 8 = 4) ∧ level = 2 ∧ bitsOf e 63 5 = 0 then none
  else entryFault s ctx level e

/-- The outcome of an item that stops the list with a reason (10 R342). -/
def itemStop (reason index : Nat) : Verdict := { status := 0x04, reason := reason, detail := index }

/-- The entry an item writes, through the tables as the earlier items left them (10 R342). -/
def itemPlace (ctx dva level index : Nat) (s : State) : Placed × State :=
  ctxEntry (fun _ _ e => if e % 8 = 0 then some (itemStop 0x01 index) else if e % 8 != 1 then some (itemStop 0x03 index) else none)
    (itemStop 0x01 index) ctx dva level s

/-- Zero a new table (10 R341). -/
def zeroTable (a : Nat) (s : State) : State :=
  let s1 := (sectorsOf a 0x10000).foldl (fun st n => dropCopies n st) s
  s1.withMem (s1.mem.zero a 0x10000)

/-- The span of an item: first page and pages (10 R342). -/
def itemSpan (i : UpdItem) : Nat × Nat :=
  if itemLevel i = 3 then (0, 2 ^ 39) else (itemDva i / 0x10000 / levelPages (itemLevel i) * levelPages (itemLevel i), levelPages (itemLevel i))

/-- The list stops with an outcome; the range gathered is invalidated (10 R342). -/
def invStop (c : Cmd) (v : Verdict) (s : State) : State := invDrop c (endWith c.ring c.seq v s)

/-- An item is applied: its span joins the range, and after the last one the range is dropped. -/
def itemApplied (c : Cmd) (i : UpdItem) (s : State) : State :=
  let s1 := (addBlock c (c.fld 16 2 % 1024) (itemSpan i).1 (itemSpan i).2 s).updCmd c.ring c.seq (fun x => { x with item := x.item + 1 })
  if c.items.length ≤ c.item + 1 then invDrop c s1 else s1

/-- UPDATE_ITEM_APPLIED (10 R341, R342, R353): the next item is written and acknowledged, or stops the list; one whose span holds a
page under migration waits. `reason`: the error answer of the hub or a home to the write, 0 for none. -/
def execUpdateItemApplied (ring seq reason : Nat) (s : State) : Res :=
  .next (match s.cmdOf ring seq with
    | none => s
    | some c =>
      match c.items[c.item]? with
      | none => s
      | some i =>
        let ctx := c.fld 16 2 % 1024
        let e := i.w1.toNat
        if c.phase != .running || c.kind != 7 || c.replayDue.isSome || s.blockedBy true ctx (itemSpan i).1 (itemSpan i).2 then s
        else
          if itemBad i s then invStop c (itemStop 0x03 c.item) s
          else if itemLevel i = 3 then
            let s1 := if itemNew i then zeroTable (fld i.w1 47 16 * 0x10000) s else s
            itemApplied c i (s1.withXlt { s1.xlt with root := put 0 s1.xlt.root ctx (fld i.w1 47 16), rootOk := ins ctx s1.xlt.rootOk })
          else
            match itemFault s ctx (itemLevel i) e with
            | some r => invStop c (itemStop r c.item) s
            | none =>
              match itemPlace ctx (itemDva i) (itemLevel i) c.item s with
              | (.stop v, s0) => invStop c v s0
              | (.err r a, s0) => invDrop c (engFailed c r a 0 false s0)
              | (.found a, s0) =>
                match if reason != 0 then some reason else s0.engErr 63 a true with
                | some r => invDrop c (engFailed c r a 0 true s0)
                | none =>
                  let s1 := if itemNew i then zeroTable (bitsOf e 47 16 * 0x10000) s0 else s0
                  itemApplied c i (cohWrite a (leBytes 8 e) s1))

/-- INVALIDATE_DRAIN_DONE (10 R343 steps 4 to 6): every access that used a dropped entry has completed. -/
def execInvalidateDrainDone (ring seq : Nat) (s : State) : Res :=
  .next (match s.cmdOf ring seq with
    | none => s
    | some c =>
      if c.phase != .running || c.kind != 7 || c.replayDue.isSome || decide (c.item < c.items.length)
          || (s.blocksOf ring seq).any (fun b => s.blockedBy true b.ctx b.page b.pages) || (s.blocksOf ring seq).any (fun b => s.rangeBusy b.ctx b.page b.pages) then s
      else workDone ring seq (liftBlocks ring seq s))

end Sys2Proof.Machine
end

