-- ==== Sys2Proof/Machine/CmdEnd.lean ====
section
/-!
DEFINITION. The end of a command: staged outputs, completion with its signal list, records, and the registers of contexts,
rings and vectors (12 R419 to R422; 13 R442, R446, R466, R473 to R481; 07 R230, R242; 16 R556, R557).
-/
namespace Sys2Proof.Machine

/-! ## Staged outputs -/

/-- Bytes of the staging area (12 R423). -/
def State.stageLen (s : State) : Nat := s.memc.frameBase - s.memc.stageBase
/-- Bytes of it that hold copies. -/
def State.stageUsed (s : State) : Nat := (s.hif.staged.map (fun x => x.bytes.length)).sum

/-- Is it the staged copy of a command's region? -/
def Staged.isFor (x : Staged) (ring seq region : Nat) : Bool := x.ring == ring && x.seq == seq && x.region == region
/-- The staged copy of a command's region. -/
def State.stagedOf (s : State) (ring seq region : Nat) : Option Staged := s.hif.staged.find? (fun x => x.isFor ring seq region)
/-- Change a staged copy. -/
def updStaged (ring seq region : Nat) (f : Staged → Staged) (s : State) : State :=
  s.withHif { s.hif with staged := s.hif.staged.map (fun x => if x.isFor ring seq region then f x else x) }

/-- An output that goes to the host through the output engine: its bytes' first address, its length and its destination
(12 R421): a COPY or FILL with data for the host, or a staged region of a RUN whose parts have ended without error. -/
def Cmd.outputOf (c : Cmd) (region : Nat) : Option (Nat × Nat × Nat) :=
  if c.phase != .running || has region c.outDone || c.replayDue.isSome then none
  else if c.kind = 2 ∧ region = 0 ∧ c.staging then some (c.fld 16 8, c.fld 32 8, c.fld 24 8)
  else if c.kind = 3 ∧ region = 0 ∧ c.staging then some (c.fld 16 8, c.fld 24 8, c.fld 16 8)
  else if c.kind = 1 && c.parts.all Part.ended && !c.parts.isEmpty && c.out.status == 0 then
    match c.regionsOf[region]? with
    | some r => if r.staged then some (r.dva, r.size, r.host) else none
    | none => none
  else none

/-- The data of an output: what a transfer keeps, or the region as memory holds it, with its poison (16 R556). -/
def outputData (c : Cmd) (dva len : Nat) (s : State) : Option (List (Nat × List Byte × Bool)) × State :=
  if c.kind != 1 then (some c.got, s)
  else
    let (src, s1) := xltPieces c.ring c.seq (s.ringCtx c.ring) dva len false s
    match src with
    | none => (none, s1)
    | some l =>
      match badPiece s1 false l with
      | some (r, d, o) => (none, accessFailed c.ring c.seq (s1.errPort d false) r d (dva + o) s1)
      | none =>
        let (ready, s2) := tilesReady c false (devAddrs l) s1
        if !ready then (none, s2)
        else
          let (data, s3) := copySource c l s2
          (data, if data.isSome then taintSource c dva l s3 else s3)

/-- The copy enters the staging area, when it has room; an output larger than the area has no copy, and neither has one
that finds the area full while the session is held (12 R421, R422). None while it waits for room. -/
def stageIn (c : Cmd) (region fn len : Nat) (data : List (Nat × List Byte × Bool)) (s : State) : Option State :=
  let put := fun (direct : Bool) =>
    let pois := (List.range (ceilDiv len 64)).filter (fun i => (dataAt data (64 * i) 64).2)
    s.withHif { s.hif with staged := s.hif.staged ++ [⟨c.ring, c.seq, region, fn, if direct then [] else (dataAt data 0 len).1, pois, 0, direct, false⟩] }
  if (s.stagedOf c.ring c.seq region).isSome then some s
  else if s.stageLen < len then some (put true)
  else if s.stageUsed + len ≤ s.stageLen then some (put false)
  else if !s.attached fn then some (put true)
  else none

/-- The write TLPs of an output: at most 512 B each, the first sector of each named for a cut (12 R418 to R420). -/
def outTlps (c : Cmd) (region fn : Nat) (data : List (Nat × List Byte × Bool)) (l : List (Nat × Nat × Hit)) (s : State) : State :=
  l.foldl (fun st p =>
    let bus := match p.2.2 with
      | .bus b => some (b, TlpAt.translated)
      | .dev d => match st.zone d with | .host => some (busOf d, st.untrans (st.ringCtx c.ring)) | _ => none
    match bus with
    | none => st
    | some (b, mode) =>
      (cutRange 512 (p.2.1 / 512 + 2) b p.2.1).foldl (fun u q =>
        let o := p.1 + (q.1 - b)
        let (bytes, ep) := dataAt data o q.2
        crossNote c.ring c.seq q.1 mode (updStaged c.ring c.seq region (fun x => { x with left := x.left + 1 })
          (u.tlp (.write fn q.1 bytes ep (.staged c.ring c.seq region (o / 64)) mode)))) st) s

/-- The parts of a RUN's region that its HOSTDVA maps to the device are written there. -/
def outDevice (c : Cmd) (data : List (Nat × List Byte × Bool)) (l : List (Nat × Nat × Hit)) (s : State) : State :=
  if c.kind != 1 then s
  else l.foldl (fun st p => match p.2.2 with
    | .bus _ => st
    | .dev d => if st.outside d then st else writeData data p.1 d p.2.1 st) s

/-- The output is done: a transfer's work ends with it. -/
def outputDone (c : Cmd) (region : Nat) (s : State) : State :=
  s.updCmd c.ring c.seq (fun x =>
    { x with outDone := ins region x.outDone, got := [], phase := if c.kind = 1 then x.phase else .ending })

/-- STAGED_OUTPUT_COPY (12 R420 to R422, 13 R473; 16 R554, R556): an output is copied into the staging area, then written
to the host from there. While the function is detached the command is cut and the copy kept. -/
def execStagedOutputCopy (ring seq region : Nat) (s : State) : Res :=
  .next (match s.cmdOf ring seq with
    | none => s
    | some c =>
      match c.outputOf region with
      | none => s
      | some (dva, len, dst) =>
        let fn := s.ringFn ring
        let (data, s1) := outputData c dva len s
        match data with
        | none => s1
        | some data =>
          match stageIn c region fn len data s1 with
          | none => s1
          | some s2 =>
            let (outs, s3) := xltPieces ring seq (s.ringCtx ring) dst len true s2
            match outs with
            | none => s3
            | some l =>
              if !s3.cmdOpen ring seq then
                outputDone c region (updStaged ring seq region (fun x => { x with kept := true }) (cutCmd ring seq region 0 s3))
              else if s3.hif.state != 2 then s3
              else match badPiece s3 true l with
                | some (r, d, o) => accessFailed ring seq (s3.errPort d true) r d (dst + o) s3
                | none =>
                  let (ready, s4) := tilesReady c true (devAddrs l) s3
                  if !ready then s4 else outputDone c region (outDevice c data l (outTlps c region fn data l s4)))

/-- STAGED_COPY_FREED (12 R421, R422): every TLP of the output is acknowledged. While the session is held nothing is
freed, and after it only a redelivery frees a copy whose delivery was cut (R428). -/
def execStagedCopyFreed (ring seq region : Nat) (s : State) : Res :=
  .next (match s.stagedOf ring seq region with
    | none => s
    | some x =>
      let sent := match s.cmdOf ring seq with
        | some c => has region c.outDone && !c.detached
        | none => true
      if x.left = 0 && sent && !x.kept && s.attached x.fn then
        s.withHif { s.hif with staged := s.hif.staged.filter (fun y => !y.isFor ring seq region) }
      else s)

/-! ## Completion -/

/-- Has the work of a command ended (13 R466, step 1)? -/
def Cmd.workEnded (c : Cmd) : Bool :=
  c.phase == .ending || (c.phase == .running && c.kind == 1 && !c.parts.isEmpty && c.parts.all Part.ended
    && c.replayDue.isNone && (List.range c.nreg).all (fun i =>
      has i c.outDone || !(match c.regionsOf[i]? with | some r => r.staged | none => false)))

/-- Are all its writes acknowledged, its staged copies delivered or kept, and a confirmed hang's reset over (13 R466
steps 2 and 3; 16 R565; 10 R343, R351)? A write to a part of the tier is acknowledged once the part is recorded open (09 R303). -/
def State.settled (s : State) (c : Cmd) : Bool :=
  !s.draining c.ring c.seq
  && !(s.hub.outst.map Outst.use ++ s.hub.bound.map Prod.snd).any (fun u => match u with
    | .cmd r q _ | .copy r q _ => r == c.ring && q == c.seq
    | _ => false)
  && s.hif.staged.all (fun x => x.left == 0 || c.detached || !(x.ring == c.ring && x.seq == c.seq))
  && !(c.out.status == 0x07 && (s.tileOf (c.out.port.getD 33)).resetting)
  && (s.blocksOf c.ring c.seq).all (fun b => !s.rangeBusy b.ctx b.page b.pages)
  && !(s.regionPieces c c.regionsOf).any (fun p => s.partPending p.1)

/-- The signals a command performs (07 R230, 13 R456, R463): the entries of a SIGNAL that ran, then its signal list
unless the reason of its refusal concerns that list. -/
def Cmd.signals (c : Cmd) : List SyncEnt :=
  (if c.kind = 5 && c.startedAt != 0 then c.bodyEnts else []) ++ (if c.sigOk && !c.syncBad && c.check != 2 then c.listSigs else [])

/-- Perform signals (07 R216). -/
def signals (l : List SyncEnt) (s : State) : State :=
  l.foldl (fun st e =>
    if e.op = 1 then syncSetOp e.obj 63 (BitVec.ofNat 64 e.val) st else syncAddOp e.obj 63 (BitVec.ofNat 64 e.val) st) s

/-- The flushing reads of a CROSS_PATH ring go out before the record (07 R242). -/
def crossFlush (ring seq : Nat) (s : State) : State :=
  if !s.ringCross ring then s
  else if s.attached (s.ringFn ring) then crossGo 32 ring seq s
  else s.withHif { s.hif with cross := s.hif.cross.filter (fun x => !x.isFor ring seq) }

/-- COMMAND_COMPLETE (13 R456, R466, R467, R471, R473; 07 R230; 12 R420; 16 R556, R557; 05 R155): once its writes are
acknowledged and its staged copies delivered or kept, a stopped command's regions are restored, those it shared with a command
beside it are undefined (R470), the checkpoint is released, the signal list is performed, and the record may be written. Once a warm reset has begun no command completes any more. -/
def execCommandComplete (ring seq : Nat) (s : State) : Res :=
  .next (match s.cmdOf ring seq with
    | none => s
    | some c =>
      if !c.workEnded || !s.settled c || s.glb.warmStep != 0 then s
      else
        let s0 := if c.stopped && c.startedAt != 0 then undefineRegions ring seq (restoreRegions ring seq (freeStopped ring seq s)) else s
        let s1 := undefineClash ring seq s0
        let s2 := liftBlocks ring seq (s1.withDisp { s1.disp with reserved := del ring s1.disp.reserved })
        let s3 := signals (if c.discard then [] else c.signals) s2
        let s4 := match c.taint with
          | some v => post (ev 0x05 v.port (ring + at_ c.taints 16) [v.detail, seq]) s3
          | none => s3
        let s5 := crossFlush ring seq s4
        let s6 := (leaveQual c s5).updCmd ring seq (fun x =>
          { x.settle with phase := .done, ended := s.time, ckpt := [], ckptAt := 0, suspect := false, qualAt := [], clash := []
                          detached := x.cut.isSome })
        let s7 := if c.discard then s6.withDisp { s6.disp with cmds := s6.disp.cmds.filter (fun x => !(x.ring == ring && x.seq == seq)) }
          else s6
        promoteRing ring s7)

/-- CROSS_PATH_FLUSH_DONE (07 R242): every flushing read of the command has completed. -/
def execCrossPathFlushDone (ring seq : Nat) (s : State) : Res :=
  .next (match s.cmdOf ring seq with
    | none => s
    | some c => if c.phase = .done && !s.reading (.flush ring seq) && !s.hif.cross.any (fun x => x.isFor ring seq) then s.updCmd ring seq (fun x => { x with flushed := true }) else s)

/-! ## Records -/

/-- The fields a status names (13 R477): reason, detail, port, region, part, instruction. -/
def statusNames : Nat → List Nat
  | 0x01 => [0] | 0x02 => [0, 1] | 0x03 => [0, 4, 5] | 0x04 => [0, 1] | 0x05 => [1, 2, 3, 4] | 0x07 => [2, 4] | 0x08 => [1, 3]
  | 0x09 => [0, 1, 2] | 0x0A => [0, 1, 2] | 0x0B => [2] | _ => []

/-- A field of an outcome as the record carries it: 0 when the status does not name it. -/
def Verdict.named (v : Verdict) (k x : Nat) : Nat := if has k (statusNames v.status) then x else 0

/-- The region whose staged copy a record's STAGED bit reports (13 R476). -/
def Cmd.namedRegion (c : Cmd) : Nat := match c.cut with | some (r, _) => r | none => c.out.region

/-- The 32 bytes of a completion record (13 R476, R477). -/
def State.record (s : State) (c : Cmd) : List Byte :=
  let v := c.out
  let staged := s.hif.staged.any (fun x => x.isFor c.ring c.seq c.namedRegion && !x.direct)
  let b9 := at_ (b2n (c.seq / s.ringE c.ring % 2 == 0)) 7 + at_ (b2n c.detached) 6 + at_ (b2n (staged && c.detached)) 5
    + at_ (b2n (c.replays != 0)) 4 + c.flags.toNat
  let port := match v.port with | some p => v.named 2 (0x80 + p % 64) | none => 0
  let us := min 0xFFFFFFFF ((c.ended - c.headAt) / 100)
  leBytes 8 c.seq ++ leBytes 1 v.status ++ leBytes 1 b9 ++ leBytes 2 (at_ (c.kind % 16) 12 + c.ring)
    ++ leBytes 1 (v.named 0 v.reason) ++ leBytes 1 port ++ leBytes 1 (v.named 3 (v.region % 16)) ++ leBytes 1 0
    ++ leBytes 2 (v.named 5 (v.instr % 2 ^ 14)) ++ leBytes 1 (v.named 4 (v.part % 128)) ++ leBytes 1 0 ++ leBytes 4 us
    ++ leBytes 8 (v.named 1 v.detail)

/-- Where the record of an index goes (13 R445). -/
def State.recAt (s : State) (ring seq : Nat) : Nat := s.rCmp ring + 32 * (seq % s.ringE ring)

/-- Make a vector pending at once (13 R480). -/
def msixNow (fn v : Nat) (s : State) : State :=
  if vecOk fn v then msixFire fn v (s.updVec (vecKey fn v) (fun x => { x with gathered := satAdd 4095 x.gathered 1 })) else s

/-- The signal of a record: one event on the ring's vector or router source, pending at once with IRQNOW (13 R453, R478,
R480). -/
def recordSignal (c : Cmd) (s : State) : State :=
  let now := bitOf (c.fld 1 1) 0
  let vec := s.regFld (ringCfg c.ring) 11 0
  if s.ringDev c.ring then
    let d := s.regFld (ringCfg c.ring) 13 12
    let s1 := routerEvent d vec s
    if now && srcFires vec then s1.updSrc d vec (fun x => { x with pending := true }) else s1
  else if now then msixNow (s.ringFn c.ring) vec s else msixGather (s.ringFn c.ring) vec s

/-- The record of a host ring goes on the link (13 R475). -/
def recordTlp (c : Cmd) (s : State) : State :=
  let fn := s.ringFn c.ring
  let s1 := (s.updCmd c.ring c.seq (fun x => { x with phase := .written })).updRing c.ring (fun r => { r with done := max r.done (c.seq + 1) })
  recordSignal c (s1.tlp (.write fn (s.recAt c.ring c.seq) (s.record c) false (.record c.ring c.seq) (s.untrans (s.ringCtx c.ring))))

/-- RECORD_WRITE (13 R453, R475 to R480; 12 R419, R420): the record of the oldest completed command of a ring whose
earlier records are written or held. While the function is not attached it is held. A record for device memory waits while its home is
fenced or maps a module out (00 R2). -/
def execRecordWrite (ring : Nat) (s : State) : Res :=
  .next (match s.disp.cmds.find? (fun c => c.ring == ring && c.phase != .written && c.phase != .held) with
    | none => s
    | some c =>
      if c.phase != .done || (s.ringCross ring && !c.flushed) then s
      else if s.ringDev ring then
        let a := s.recAt ring c.seq
        if (s.engErr 63 a true).any (fun r => s.comesBack a r true) then s
        else
        let s1 := if (s.engErr 63 a true).isNone then cohWrite a (s.record c) s else s
        let s2 := s1.updRing ring (fun r => { r with done := max r.done (c.seq + 1) })
        recordSignal c (s2.withDisp { s2.disp with cmds := dropFirst (fun x => x.ring == ring && x.seq == c.seq) s2.disp.cmds })
      else if !s.attached (s.ringFn ring) then s.updCmd ring c.seq (fun x => { x with phase := .held })
      else if s.hif.state != 2 then s
      else recordTlp c s)

/-! ## Registers of rings and contexts -/

/-- Commands of a ring without a record written. -/
def State.inflight (s : State) (ring : Nat) : Nat := (s.disp.cmds.filter (fun c => c.ring == ring && c.phase != .written)).length

/-- STATE of CTX_RSTATr (13 R446). -/
def State.ringState (s : State) (ring : Nat) : Nat :=
  if !s.ringEn ring then (if s.inflight ring = 0 then 0 else 2)
  else if (s.ringOf ring).stopped then 3
  else match s.disp.cmds.find? (fun c => c.ring == ring && c.phase == .head) with
    | some c => if !c.waits.isEmpty || c.kind == 9 then 4 else if c.kind = 1 then 5 else 1
    | none => 1

/-- CTX_RSTATr. -/
def State.rstat (s : State) (ring : Nat) : Word :=
  BitVec.ofNat 64 (at_ (s.ringOf ring).fulls 48 + at_ (min 0xFFFF (s.inflight ring)) 32 + s.ringState ring)

/-- CTX_RSTAT_READ (13 R441, R446): FULLS clears. -/
def execCtxRstatRead (who : Agent) (ring : Nat) (s : State) : Res :=
  let r := ring % 4096
  let off := ringCfg r + 0x30
  .next (if s.hostGate who && ownFn who (s.ringFn r) then
      (reply who off (s.rstat r) s).updRing r (fun x => { x with fulls := 0 })
    else shutRead who off s)

/-- A write of a ring register by an agent that may: cores, PF0, and the VF that owns the ring's context; a VF's write to
another ring is ignored and raises an event (13 R441, 18 R613). -/
def ringWrite (who : Agent) (ring off : Nat) (k : State → State) (s : State) : State :=
  if !s.hostGate who then s else if ownFn who (s.ringFn ring) then k s else setupRefused who off s

/-- RING_ENABLE (13 R446, R453; 16 R572): fetching starts, a device-memory ring's header is watched, and after a warm
reset its ACC and held records are written. -/
def execRingEnable (who : Agent) (ring : Nat) (s : State) : Res :=
  let r := ring % 4096
  .next (ringWrite who r (ringCfg r) (fun s =>
    if s.ringEn r then s
    else if !s.ctxValid (s.ringCtx r) then setupRefused who (ringCfg r) s
    else
      let s1 := s.setReg (ringCfg r) (s.reg (ringCfg r) ||| 0x8000000000000000#64)
      if s.ringDev r then
        let s2 := s1.withDisp { s1.disp with watching := ins r s1.disp.watching }
        let held := s2.disp.cmds.any (fun c => c.ring == r && c.phase == .held)
        if held then
          (cohWrite (s2.rHdr r + 64) (leBytes 8 (s2.ringOf r).acc) s2).withDisp { s2.disp with
            cmds := s2.disp.cmds.map (fun c => if c.ring == r && c.phase == .held then { c with phase := .done, flushed := true } else c) }
        else s2
      else s1) s)

/-- A ring stops fetching: what is fetched and not accepted is dropped (13 R446, R455). -/
def stopFetch (r : Nat) (s : State) : State :=
  let s1 := s.withDisp { s.disp with fetched := s.disp.fetched.filter (fun c => c.ring != r), watching := del r s.disp.watching }
  let s2 := setReads (s1.hif.reads.filter (fun x => x.2 != some (.desc r) && x.2 != some (.prod r)
    && (match x.2 with | some (.list q _ _ _) => q != r | _ => true))) s1
  (dropWaits (fun w => match w.by_ with | .list q _ => q == r | _ => false) s2).updRing r (fun x => { x with fetched := x.acc, want := x.acc, stopped := false, watch := false })

/-- RING_DISABLE (13 R446). -/
def execRingDisable (who : Agent) (ring : Nat) (s : State) : Res :=
  let r := ring % 4096
  .next (ringWrite who r (ringCfg r) (fun s =>
    stopFetch r (s.setReg (ringCfg r) (s.reg (ringCfg r) &&& 0x7FFFFFFFFFFFFFFF#64))) s)

/-- CTX_RCTL_RESET (13 R446): ACC, DONE and the record phase of an idle disabled ring become 0. -/
def execCtxRctlReset (who : Agent) (ring : Nat) (s : State) : Res :=
  let r := ring % 4096
  .next (ringWrite who r (ringCfg r + 0x38) (fun s =>
    if s.ringState r != 0 then s
    else
      let s1 := s.withDisp { s.disp with cmds := s.disp.cmds.filter (fun c => c.ring != r) }
      s1.updRing r (fun x => { fulls := x.fulls })) s)

/-- Is a context in use by an enabled ring or by a command not completed (13 R442)? -/
def State.ctxBusy (s : State) (ctx : Nat) : Bool :=
  s.ringsOn.any (fun r => s.ringCtx r == ctx) || s.disp.cmds.any (fun c => s.ringCtx c.ring == ctx && !c.past true)

/-- CTX_CFG_WRITE (13 R441, R442): only PF0 and the runtime write it; VALID of a context in use does not clear. -/
def execCtxCfgWrite (who : Agent) (ctx : Nat) (v : Word) (s : State) : Res :=
  let c := ctx % 1024
  .next (pfWrite who (ctxCfg c) (fun s =>
    if s.ctxValid c && !bitOf v.toNat 31 && s.ctxBusy c then setupRefused who (ctxCfg c) s
    else s.setReg (ctxCfg c) (v &&& 0x801F0000#64)) s)

/-! ## MSI-X -/

/-- MSIX_EVENT (13 R478). -/
def execMsixEvent (fn vec : Nat) (s : State) : Res := .next (msixGather fn vec s)

/-- MSIX_TIME_EXPIRY (13 R478): the vector's TIME has passed since its first gathered event. -/
def execMsixTimeExpiry (fn vec : Nat) (s : State) : Res :=
  .next (if vecOk fn vec && s.regFld (coalReg fn vec) 11 0 != 0 && (look {} s.msix (vecKey fn vec)).gathered != 0 then msixFire fn vec s else s)

/-- MSIX_UNMASK (13 R478): a vector whose PBA bit is set sends its message. -/
def execMsixUnmask (fn vec : Nat) (s : State) : Res :=
  .next (if vecOk fn vec then
      let s1 := s.updVec (vecKey fn vec) (fun x => { x with unmasked := true })
      if (look {} s.msix (vecKey fn vec)).pba then msixFire fn vec s1 else s1
    else s)

end Sys2Proof.Machine
end

