-- ==== Sys2Proof/Machine/HostLink.lean ====
section
/-!
DEFINITION. The PCIe link, detaches, acknowledged TLPs, completions of host reads, sessions and redelivery (12 R416 to R428,
R435 to R437; 16 R552).
-/
namespace Sys2Proof.Machine

/-- Every function. -/
def allFns : List Nat := List.range 32

/-- The PCIe layers of some functions are reset: their MSI-X tables are masked again (log 9). -/
def resetVecs (fns : List Nat) (s : State) : State := s.withMsix (s.msix.filter (fun v => !has (v.1 / 4096) fns))

/-- The link state changes. -/
def linkState (n : Nat) (s : State) : State := s.withHif { s.hif with state := n }

/-- DL_DOWN (12 R417). -/
def execDlDown (s : State) : Res := .next (resetVecs allFns (detach allFns (linkState 0 s)))
/-- HOT_RESET (12 R417). -/
def execHotReset (s : State) : Res := .next (resetVecs allFns (detach allFns (linkState 1 s)))
/-- FLR_PF0 (12 R417). -/
def execFlrPf0 (s : State) : Res := .next (resetVecs allFns (detach allFns s))
/-- FLR_VF (12 R417, R418): placement writes to its regions are dropped until its session is claimed. -/
def execFlrVf (fn : Nat) (s : State) : Res :=
  .next (if fn = 0 ∨ 32 ≤ fn then s
    else (resetVecs [fn] (detach [fn] s)).updSess fn (fun x => { x with flrDetached := true }))

/-- PERST_N_ASSERT (12 R417, 17 R577, 19 R632): after READY it detaches every function; it resets the PCIe layers only. It is ignored
while VIN36 is out of range. -/
def execPerstNAssert (s : State) : Res :=
  let s1 := s.withBoot { s.boot with perst := true, configReady := false }
  .next (if s.vinOut then s else if s.glb.ready then resetVecs allFns (detach allFns (linkState 0 s1)) else linkState 0 s1)

/-- LINK_RECOVERY_ENTER (12 R416). -/
def execLinkRecoveryEnter (s : State) : Res := .next (if s.hif.state = 2 then linkState 1 s else s)

/-- Rings with fetched descriptors. -/
def State.fetchedRings (s : State) : List Nat := (s.disp.fetched.map Cmd.ring).eraseDups

/-- LINK_L0_RETURN (12 R410, R416, R435): the link carries TLPs; traffic that waited goes on in order. A slot that trains narrower
than x4 leaves the function in Detect, with STATE 0. -/
def execLinkL0Return (speed width : Nat) (flit : Bool) (s : State) : Res :=
  .next (if !s.boot.hostEnabled || s.siteFailed 57 || s.boot.perst then s
    else if width % 16 < 2 then linkState 0 s
    else
      let s1 := hostResume (s.withHif { s.hif with state := 2, speed := speed % 16, width := width % 16, flit := flit })
      s1.fetchedRings.foldl (fun st r => acceptRing r st) s1)

/-- What an acknowledged TLP completes (12 R419, R421, R428; 16 R572): a record leaves the journal, a staged output counts
down. -/
def tlpDone (t : HTlp) (s : State) : State :=
  match t with
  | .write _ _ _ _ (.record ring seq) _ =>
    s.withDisp { s.disp with cmds := s.disp.cmds.filter (fun c => !(c.ring == ring && c.seq == seq && c.phase == .written)) }
  | .write _ _ _ _ (.staged ring seq region _) _ => updStaged ring seq region (fun x => { x with left := x.left - 1 }) s
  | .write _ _ _ _ (.redel fn _) _ =>
    match (s.sessOf fn).redel.head? with
    | some (_, i) => updStaged i.ring i.seq i.region (fun x => { x with left := x.left - 1 }) s
    | none => s
  | .write _ _ _ _ (.redelStatus (some (ring, seq, region))) _ =>
    s.withHif { s.hif with staged := s.hif.staged.filter (fun x => !x.isFor ring seq region) }
  | _ => s

/-- TLP_ACKED (12 R419): the oldest TLP on the link is delivered. -/
def execTlpAcked (s : State) : Res :=
  .next (match s.hif.tlps with
    | [] => s
    | t :: r => tlpDone t (s.withHif { s.hif with tlps := r }))

/-- What a command's host read brought (12 R413, 13 R462, R468; 16 R552); a failed one names its sector in the host bus window (13
R477). -/
def cmdGot (ring seq off bus : Nat) (data : List Byte) (ok keep : Bool) (s : State) : State :=
  let bytes := if ok then data else data.map (fun _ => 0xFF#8)
  let s1 := s.updCmd ring seq (fun c => { c with got := (if keep then c.got else []) ++ [(off, bytes, !ok)] })
  if ok then s1 else taintCmd ring seq
    { status := 0x05, port := some 57, detail := (0x400000000000 + bus) / 64 * 64, region := 0xE } s1

/-- The host read of a tag that has gone out (12 R409, R416). -/
def State.readOf (s : State) (tag : Nat) : Option HostRd :=
  let isIt := fun (t : HTlp) => match t with | .read _ _ _ n _ => n == tag | _ => false
  if s.hif.npWait.any isIt || s.hif.out.any (fun w => match w with | .tlp t => isIt t | .pkt _ => false) then none
  else look none s.hif.reads tag

/-- HOST_READ_COMPLETION (16 R552; 12 R413; 10 R347; 07 R242; 13 R448): a host read completes; the host die creates check
words for the data of a packet. Doorbell lines, headers and descriptors have rows of their own; a failed read of one is made
again at a later poll. -/
def execHostReadCompletion (tag : Nat) (data : List Byte) (ok : Bool) (s : State) : Res :=
  let s1 := setReads (put none s.hif.reads tag none) s
  .next (match s.readOf tag with
    | none => s
    | some (.pkt p) =>
      let n := if p.op = .narrowRead then 32 else p.rdLen
      respond .respData p 0 (!ok) ((data ++ List.replicate n 0xFF#8).take n) s1
    | some (.frCons ctx) =>
      if ok then frConsRead ctx (leAt data 0 8) s1
      else (look [] s1.xlt.frPend ctx).foldl (fun st _ => faultLost ctx st) (s1.withXlt { s1.xlt with frPend := put [] s1.xlt.frPend ctx [] })
    | some (.flush ring seq) =>
      (match s1.cmdOf ring seq with
        | some c => if c.phase = .done then crossGo 32 ring seq s1 else s1
        | none => s1)
    | some (.migrate _ _ _) => s1
    | some (.copy ring seq off bus) => cmdGot ring seq off bus data ok true s1
    | some (.image ring seq bus) => cmdGot ring seq 0 bus data ok false s1
    | some (.line _ _) | some (.prod _) => if ok then s else s1
    | some (.list _ _ _ _) => s
    | some (.desc r) =>
      if ok then s
      else
        let s2 := setReads (s1.hif.reads.filter (fun x => x.2 != some (.desc r))) s1
        s2.updRing r (fun x => { x with want := x.fetched }))

/-- The host die is lost: it is fenced and failed; commands go on, and every session is held, so that their records stay in
the journal (01 R34, 12 R418, 16 R570). The manual has no event of its own for it beside the fence's and the failure's. -/
def hostFails (cause : Nat) (s : State) : State :=
  if s.siteFailed 57 then s
    else
      let s1 := dieFailed 57 cause s
      let s2 := s1.withHif { s1.hif with
        state := 0, cpls := [], npWait := []
        out := s1.hif.out.filter (fun w => match w with | .pkt _ => false | .tlp _ => true)
        reads := s1.hif.reads.filter (fun r => match r.2 with | some (.pkt _) => false | _ => true) }
      allFns.foldl (fun st f => detachFn f st) s2

/-- HOST_DIE_FAILURE (01 R34, 12 R418, 16 R570). -/
def execHostDieFailure (s : State) : Res := .next (hostFails 4 s)

/-! ## Sessions -/

/-- A command written to HIF_SESSCTLf: own register, PF0 every one (12 R437, 18 R613). -/
def sessCmd (who : Agent) (fn : Nat) (k : State → State) (s : State) : State :=
  if !s.hostGate who || decide (32 ≤ fn) then s else if ownFn who fn then k s else setupRefused who (sessReg fn) s

/-- OPEN (12 R424): a fresh token, a free value (log 2), or a refusal with its event. -/
def execOpen (who : Agent) (fn : Nat) (s : State) : Res :=
  .next (sessCmd who fn (fun s =>
    if (s.sessOf fn).state != .none then setupRefused who (sessReg fn) s
    else
      let (t, s1) := s.draw 1
      s1.updSess fn (fun x => { x with state := .attached, token := t, flrDetached := false })) s)

/-- CLAIM (12 R425, R426). -/
def execClaim (who : Agent) (fn : Nat) (s : State) : Res :=
  .next (sessCmd who fn (fun s =>
    let x := s.sessOf fn
    if x.state != .held || x.claiming || x.refusal then setupRefused who (sessReg fn) s
    else if x.offered = x.token then s.updSess fn (fun x => { x with claiming := true })
    else post (ev 0x41 (some 57) fn []) (s.updSess fn (fun x => { x with fails := satAdd 0xFF x.fails 1, refusal := true }))) s)

/-- The host rings of a function that hold an acceptance index to rewrite. -/
def State.claimRings (s : State) (fn : Nat) : List Nat :=
  ((s.ringsOn ++ s.disp.cmds.map Cmd.ring).eraseDups).filter (fun r => s.ringFn r == fn && !s.ringDev r)

/-- CLAIM_DONE (12 R425, 13 R479): the acceptance indices are rewritten, the held records written in order, and the session
is attached. -/
def execClaimDone (fn : Nat) (s : State) : Res :=
  .next (if !(s.sessOf fn).claiming || s.hif.state != 2 then s
    else
      let s1 := s.updSess fn (fun x => { x with state := .attached, claiming := false, flrDetached := false, deadline := 0 })
      let s2 := (s1.claimRings fn).foldl (fun st r =>
        st.tlp (.write fn (st.rHdr r + 64) (leBytes 8 (st.ringOf r).acc) false (.acc r (st.ringOf r).acc) (st.untrans (st.ringCtx r)))) s1
      let due := (s2.msix.filter (fun v => v.1 / 4096 == fn && v.2.unmasked
        && decide (max 1 (s2.regFld (coalReg fn (v.1 % 4096)) 27 16) ≤ v.2.gathered))).map (fun v => v.1 % 4096)
      let s3 := due.foldl (fun st v => msixFire fn v st) s2
      (s3.claimRings fn).foldl (fun st r =>
        (st.disp.cmds.filter (fun c => c.ring == r && c.phase == .held)).foldl (fun u c => recordTlp c u) st) s3)

/-- CLAIM_REFUSAL_END (12 R426). -/
def execClaimRefusalEnd (fn : Nat) (s : State) : Res := .next (s.updSess fn (fun x => { x with refusal := false }))

/-- RELEASE (12 R427). -/
def execRelease (who : Agent) (fn : Nat) (s : State) : Res :=
  .next (sessCmd who fn (fun s => if s.held fn then endSession fn s else s) s)

/-- HOLD_EXPIRY (12 R427): the session ends, unless a claim took effect first. -/
def execHoldExpiry (fn : Nat) (s : State) : Res := .next (if s.held fn && !(s.sessOf fn).claiming then endSession fn s else s)

/-! ## Redelivery -/

/-- The status of an item that is not redelivered (12 R428): the copy is missing, too large, or the address is not aligned. -/
def redelCheck (s : State) (fn : Nat) (i : RedelItem) : Option Nat :=
  match s.hif.staged.find? (fun x => x.isFor i.ring i.seq i.region && !x.direct && x.fn == fn) with
  | none => some 0x01
  | some x => if i.limit < x.bytes.length then some 0x02 else if i.newAddr % 64 != 0 then some 0x03 else none

/-- Write the STATUS of an item of the list. -/
def redelStatus (fn idx st : Nat) (use : TlpFor) (s : State) : State :=
  s.tlp (.write fn (s.regFld (sessReg fn + 0x10) 63 6 * 64 + 32 * idx + 11) [BitVec.ofNat 8 st] false use (.untranslated none))

/-- The write TLPs of a staged copy toward a new buffer. -/
def redelTlps (fn idx : Nat) (i : RedelItem) (s : State) : State :=
  match s.stagedOf i.ring i.seq i.region with
  | none => s
  | some x =>
    let cuts := cutRange 512 (x.bytes.length / 512 + 2) i.newAddr x.bytes.length
    let s1 := updStaged i.ring i.seq i.region (fun y => { y with left := y.left + cuts.length, kept := true }) s
    cuts.foldl (fun st c =>
      let o := c.1 - i.newAddr
      let ep := (List.range (ceilDiv c.2 64)).any (fun k => has (o / 64 + k) x.pois)
      st.tlp (.write fn c.1 ((x.bytes.drop o).take c.2) ep (.redel fn idx) (.untranslated none))) s1

/-- Work through the redelivery list until an item's TLPs are on the link, or it is empty. -/
def redelGo : Nat → Nat → State → State
  | 0, _, s => s
  | n + 1, fn, s =>
    match (s.sessOf fn).redel with
    | [] => s.updSess fn (fun x => { x with redelBusy := false, redelSent := false })
    | (idx, i) :: r =>
      match redelCheck s fn i with
      | some st => redelGo n fn ((redelStatus fn idx st (.redelStatus none) s).updSess fn (fun x => { x with redel := r, redelSent := false }))
      | none => (redelTlps fn idx i s).updSess fn (fun x => { x with redelSent := true })

/-- REDELIVER (12 R428): the items of the list are worked through in order. -/
def execRedeliver (who : Agent) (fn n : Nat) (items : List RedelItem) (s : State) : Res :=
  .next (sessCmd who fn (fun s =>
    if (s.sessOf fn).state != .attached || (s.sessOf fn).redelBusy then s
    else
      let s0 := s.setReg (sessReg fn) (BitVec.ofNat 64 (at_ (n % 4096) 8))
      let l := (items.take (n % 4096))
      let s1 := s0.updSess fn (fun x => { x with redel := (List.range l.length).zip l, redelBusy := true, redelSent := false })
      if s.hif.state = 2 then redelGo (l.length + 1) fn s1 else s1) s)

/-- REDELIVER_ITEM_DONE (12 R428): every TLP of the copy is acknowledged: its status is written, and the next item begins. The copy is freed
when that status is acknowledged: a detach before it leaves the item marked 0xFF, and its copy. -/
def execRedeliverItemDone (fn : Nat) (s : State) : Res :=
  let x := s.sessOf fn
  .next (if !x.redelBusy || x.state != .attached || s.hif.state != 2 then s
    else match x.redel with
      | [] => redelGo 1 fn s
      | (idx, i) :: r =>
        if !x.redelSent then redelGo (r.length + 2) fn s
        else match s.stagedOf i.ring i.seq i.region with
          | none => redelGo (r.length + 2) fn s
          | some c =>
            if c.left != 0 then s
            else
              let s1 := redelStatus fn idx 0 (.redelStatus (some (i.ring, i.seq, i.region))) s
              redelGo (r.length + 1) fn (s1.updSess fn (fun x => { x with redel := r, redelSent := false })))

/-! ## Registers -/

/-- The code of a session's state. -/
def SessState.code : SessState → Nat
  | .none => 0 | .attached => 1 | .held => 2

/-- HIF_SESSCTLf (12 R437). -/
def State.sessCtl (s : State) (fn : Nat) : Word :=
  let x := s.sessOf fn
  let held := (s.disp.cmds.filter (fun c => c.phase == .held && s.ringFn c.ring == fn && !s.ringDev c.ring)).length
  let remain := if x.state = .held then ceilDiv (x.deadline - s.time) 100000000 else 0
  BitVec.ofNat 64 (at_ x.fails 48 + at_ (min 0xFFFF held) 32 + at_ (remain % 4096) 20 + at_ (s.regFld (sessReg fn) 19 8) 8
    + at_ (b2n (x.claiming || x.redelBusy)) 7 + at_ x.state.code 4)

/-- HIF_SESSCTL_READ (12 R437): FAILS clears. -/
def execHifSessctlRead (who : Agent) (fn : Nat) (s : State) : Res :=
  let f := fn % 32
  .next (if s.hostGate who && ownFn who f then
      (reply who (sessReg f) (s.sessCtl f) s).updSess f (fun x => { x with fails := 0 })
    else shutRead who (sessReg f) s)

/-- HIF_LINKSTAT (12 R435). -/
def State.linkStat (s : State) : Word :=
  BitVec.ofNat 64 (at_ s.hif.detaches 48 + at_ s.hif.speed 12 + at_ s.hif.width 8 + at_ (b2n s.hif.flit) 7 + s.hif.state)

/-- HIF_LINKSTAT_READ (12 R435): DETACHES clears. A VF reads 0 (18 R613). -/
def execHifLinkstatRead (who : Agent) (s : State) : Res :=
  .next (if s.hostGate who && isPf0OrCore who then
      let s1 := reply who 0x0100000 s.linkStat s
      s1.withHif { s1.hif with detaches := 0 }
    else shutRead who 0x0100000 s)

end Sys2Proof.Machine
end

