-- ==== Sys2Proof/Machine/CoreDie.lean ====
section
/-!
DEFINITION. The core dies: coherence requests at the homes and snoops at the dies, the caches' errors, CFENCE and the
store-error registers, and the recovery of a core die (11 R361 to R391).
-/
namespace Sys2Proof.Machine

/-! ## Coherence requests at the home -/

/-- The COH packet of a message: its payload names the message (11 R372). -/
def withMsg (p : Pkt) (msg : Nat) : Pkt := { p with op := .coh, payload := BitVec.ofNat 8 msg :: p.payload.drop 1 }

/-- A coherence request reaches its target: a home, or the pool die that caches the address; a tier tile that is not
resident stalls it (09 R289, R301; 11 R374). -/
def cohAt (p : Pkt) (e : DramErr) (s : State) : State :=
  match s.zone p.addr, s.resolve p.addr with
  | .tiered _, none => tierStall p s
  | _, _ =>
    if p.dst = 63 then redirect p s
    else if p.dst < 33 ∨ 52 < p.dst then refuse p 0x04 s
    else if p.dst < 49 then cohArrive p.dst p e s
    else poolArrive p e s

/-- Is a die's write-back of a sector not acknowledged yet (11 R366)? -/
def State.evicting (s : State) (die n : Nat) : Bool :=
  (s.hub.outst.map Outst.use ++ s.hub.bound.map Prod.snd).any (fun u => match u with
    | .evict d a => d == die && sectorOf a == n
    | _ => false)

/-- A coherence request arrives (11 R374; 09 R292). The die sends none for a sector whose write-back is not acknowledged: the fill waits
for that (R366). -/
def cohRow (p : Pkt) (e : DramErr) (s : State) : State :=
  if !s.onWay p && (match portDie p.src with | some die => s.evicting die (sectorOf p.addr) | none => false) then s
  else homeRow p (cohAt p e) s

/-- RD_S (11 R374). -/
def execRdS (p : Pkt) (e : DramErr) (s : State) : Res := .next (cohRow (withMsg p 0x01) e s)
/-- RD_X (11 R374). -/
def execRdX (p : Pkt) (e : DramErr) (s : State) : Res := .next (cohRow (withMsg p 0x02) e s)
/-- UPG (11 R374). -/
def execUpg (p : Pkt) (e : DramErr) (s : State) : Res := .next (cohRow (withMsg p 0x03) e s)
/-- ZERO: ownership without data (11 R367, R374). -/
def execZero (p : Pkt) (s : State) : Res := .next (cohRow (withMsg p 0x04) .none s)

/-- Reservations of a die's cores on a sector are lost (11 R382). -/
def dropLr (die n : Nat) (s : State) : State :=
  (List.range 32).foldl (fun st i =>
    if (st.coreOf (32 * die + i)).lsr = some n then st.updCore (32 * die + i) (fun x => { x with lsr := none })
    else st) s

/-- Set or clear a die's line. -/
def setCLine (die n : Nat) (l : Option CLine) (s : State) : State :=
  s.updCdie die (fun x => { x with lines := put none x.lines n l })

/-- The die that sends an eviction notice holds the line no more: it was in E or F (11 R370). -/
def lineGone (die n : Nat) (s : State) : State :=
  match (s.cdieOf die).line n with
  | some c => if c.st = .e ∨ c.st = .f then dropLr die n (setCLine die n none s) else s
  | none => s

/-- EVN (11 R370, R372): the line leaves the die; a caching pool die forwards the notice to the home. -/
def execEvn (p : Pkt) (s : State) : Res :=
  let q := withMsg p 0x05
  let s0 := match portDie q.src with
    | some die => if s.onWay q || s.seenTid q.dst q.src q.tid || !s.mayCome q then s else lineGone die (sectorOf q.addr) s
    | none => s
  .next (cohRow q .none s0)

/-! ## Snoops at the die -/

/-- Does a die await a sector's fill (11 R376)? -/
def State.awaits (s : State) (die n : Nat) : Bool :=
  s.hub.outst.any (fun o => match o.use with
    | .coh d _ msg a => d == die && sectorOf a == n && msg != 0x05
    | _ => false)

/-- The data of a line that its cores may have changed meanwhile: E becomes M silently (11 R370). -/
def lineNow (l : CLine) (data : List Byte) : CLine :=
  if data.length = 64 ∧ (l.st = .m ∨ l.st = .e) then { l with st := .m, data := data } else l

/-- The data that a snoop's command gives for the line: none for one that is being written back. -/
def State.snoopData (s : State) (die n : Nat) (data : List Byte) : List Byte := if s.evicting die n then [] else data

/-- The answer to a snoop: the sector from an M holder, else RESP_ACK (11 R372). -/
def snoopReply (p : Pkt) (l : Option CLine) (s : State) : State :=
  match l with
  | some c => if c.st = .m then respond .respData p 0 c.poison c.data s else respond .respAck p 0 false [] s
  | none => respond .respAck p 0 false [] s

/-- SNP_INV performed: the copy ends (11 R372, R376). -/
def snpInvNow (p : Pkt) (data : List Byte) (s : State) : State :=
  let die := p.dst - 53
  let n := sectorOf p.addr
  let l := ((s.cdieOf die).line n).map (fun c => lineNow c data)
  snoopReply p l (dropLr die n (setCLine die n none s))

/-- SNP_SHR performed: the copy stays in F (11 R372, R376). -/
def snpShrNow (p : Pkt) (data : List Byte) (s : State) : State :=
  let die := p.dst - 53
  let n := sectorOf p.addr
  let l := ((s.cdieOf die).line n).map (fun c => lineNow c data)
  snoopReply p l (dropLr die n (setCLine die n (l.map (fun c => { c with st := .f })) s))

/-- SNP_FWD performed: the F holder sends the sector to the requester, becomes S and tells the home. A die without
the copy answers the home with ADDR 1, and the home serves the request (11 R372, R376). -/
def snpFwdNow (p : Pkt) (s : State) : State :=
  let die := p.dst - 53
  let n := sectorOf p.addr
  match (s.cdieOf die).line n with
  | none => respond .respAck p 1 false [] s
  | some c =>
    let blk := [3#8, 1#8] ++ List.replicate 14 0#8
    let q : Pkt := ⟨.respData, p.dst, leAt p.payload 4 1 % 64, leAt p.payload 8 4, 0, c.poison, c.data ++ blk,
      [crc32c c.data], 0⟩
    respond .respAck p 0 false [] (send q (setCLine die n (some { c with st := .s }) s))

/-- A snoop reaches a core die: at once, or after the response the die awaits for the sector (11 R376). -/
def snoopArrive (p : Pkt) (k : State → State) (s : State) : State :=
  if p.dst < 53 ∨ 56 < p.dst then s
  else arriveReq p (fun st =>
    if st.awaits (p.dst - 53) (sectorOf p.addr) then st.updCdie (p.dst - 53) (fun x => { x with defer := x.defer ++ [p] })
    else k st) s

/-- SNP_INV (11 R372, R376). -/
def execSnpInv (p : Pkt) (data : List Byte) (s : State) : Res :=
  .next (snoopArrive (withMsg p 0x10) (snpInvNow (withMsg p 0x10) (s.snoopData (p.dst - 53) (sectorOf p.addr) data)) s)
/-- SNP_SHR (11 R372, R376). -/
def execSnpShr (p : Pkt) (data : List Byte) (s : State) : Res :=
  .next (snoopArrive (withMsg p 0x11) (snpShrNow (withMsg p 0x11) (s.snoopData (p.dst - 53) (sectorOf p.addr) data)) s)
/-- SNP_FWD (11 R372). -/
def execSnpFwd (p : Pkt) (s : State) : Res :=
  .next (snoopArrive (withMsg p 0x12) (snpFwdNow (withMsg p 0x12)) s)

/-- The snoops a die deferred for a sector are answered (11 R376). -/
def answerDeferred (die n : Nat) (s : State) : State :=
  let mine := (s.cdieOf die).defer.filter (fun p => sectorOf p.addr == n)
  let s1 := s.updCdie die (fun x => { x with defer := x.defer.filter (fun p => sectorOf p.addr != n) })
  mine.foldl (fun st p =>
    if cohMsg p = 0x10 then snpInvNow p [] st else if cohMsg p = 0x11 then snpShrNow p [] st else snpFwdNow p st) s1

/-! ## Grants and retries at the die -/

/-- The state a grant block names (11 R373). -/
def grantSt (code : Nat) : CohSt := if code = 1 then .s else if code = 2 then .e else if code = 3 then .f else .m

/-- A grant reaches a core die (11 R366, R367, R373, 16 R552): the fill's check word is verified; ownership without data
is zeros after ZERO, the die's own copy after UPG. -/
def grantArrive (die msg addr : Nat) (p : Pkt) (s : State) : State :=
  let n := sectorOf addr
  let withData := decide (80 ≤ p.payload.length)
  let blk := if withData then p.payload.drop 64 else p.payload
  let st := grantSt (leAt blk 0 1)
  let data := p.payload.take 64
  let bad := withData && !p.poison && p.checks.head? != some (crc32c data)
  let s1 := if bad then evCheckword 5 false (53 + die) addr s else s
  let old := (s1.cdieOf die).line n
  let zeros : CLine := ⟨.m, List.replicate 64 0#8, false⟩
  let l : CLine :=
    if msg = 0x04 then zeros
    else if withData then ⟨st, data, p.poison || bad⟩
    else match old with | some c => { c with st := st } | none => zeros
  answerDeferred die n (setCLine die n (some l) s1)

/-- RESP_RETRY at a core die: the request is kept with its ticket (11 R375). -/
def retryArrive (die core msg addr ticket : Nat) (s : State) : State :=
  let n := sectorOf addr
  answerDeferred die n (s.updCdie die (fun x => { x with tickets := put (0, 0, 0) x.tickets n (ticket, msg, core) }))

/-- COH_RESEND: the request goes out again with its ticket (11 R375). -/
def execCohResend (die addr : Nat) (s : State) : Res :=
  let n := sectorOf addr
  .next (match look (0, 0, 0) (s.cdieOf die).tickets n with
    | (0, _, _) => s
    | (t, msg, core) =>
      let s1 := s.updCdie die (fun x => { x with tickets := put (0, 0, 0) x.tickets n (0, 0, 0) })
      requestAt .coh (53 + die) addr false (cohPayload msg t 0 0) 0 (.coh die core msg addr) s1)

/-! ## The core's own operations -/

/-- CBO_ZERO: a sector held in E or M is zeroed in place; otherwise ownership is asked for without data; a region
that is not cacheable takes a store access fault (11 R364, R367). It waits for the core's CFENCE (R384) and for a write-back of the sector. -/
def execCboZero (core addr : Nat) (s : State) : Res :=
  let die := core / 32
  let n := sectorOf addr
  let ok : Bool := match s.zone addr with | .direct | .scratch _ | .tiered _ => true | _ => false
  .next (if (s.coreOf core).fence || s.evicting die n then s
    else if !ok then coreTrap core 7 addr s
    else match (s.cdieOf die).line n with
      | some ⟨.m, _, _⟩ | some ⟨.e, _, _⟩ => setCLine die n (some ⟨.m, List.replicate 64 0#8, false⟩) s
      | _ => requestAt .coh (53 + die) (64 * n) false (cohPayload 0x04 0 0 0) 0 (.coh die core 0x04 (64 * n)) s)

/-- DIRTY_LINE_EVICT: the line goes to its home as a WRITE of the whole sector with a new check word (11 R366). The die can answer a
snoop of it until the home has it. -/
def execDirtyLineEvict (die addr : Nat) (data : List Byte) (s : State) : Res :=
  let n := sectorOf addr
  .next (if s.evicting die n then s
    else match ((s.cdieOf die).line n).map (fun c => lineNow c data) with
    | some ⟨.m, d, poison⟩ =>
      requestAt .write (53 + die) (64 * n) poison d 0 (.evict die (64 * n)) (dropLr die n (setCLine die n (some ⟨.m, d, poison⟩) s))
    | _ => s)

/-- A write-back is answered: the die gives the line's place up (11 R366). -/
def evictDone (die n : Nat) (s : State) : State := setCLine die n none s

/-- Does a core wait for an endpoint (11 R384)? A packet names its die only: a request of the die counts for each of its
cores (log 41). -/
def State.coreBusy (s : State) (c : Nat) : Bool :=
  let mine := fun (src : Nat) (u : Use) => match u with
    | .plain => src == 53 + c / 32
    | .coh d k _ _ => (k == c || 128 ≤ k) && d == c / 32
    | .amo k _ => k == c
    | _ => false
  s.hub.outst.any (fun o => mine o.src o.use) || s.hub.bound.any (fun b => mine b.1.src b.2)

/-- CFENCE: the core performs no later access until its earlier ones have reached their endpoints (11 R384). -/
def execCfence (core : Nat) (s : State) : Res := .next (s.updCore core (fun x => { x with fence := true }))

/-- CFENCE_COMPLETE (11 R384). -/
def execCfenceComplete (core : Nat) (s : State) : Res :=
  .next (if s.coreBusy core then s else s.updCore core (fun x => { x with fence := false }))

/-- Record an I/O failure in SERRSTAT and SERRADDR: the first keeps its reason and address, a further one sets OVER
(11 R386, R387, R389). -/
def serrRecord (core bit addr reason : Nat) (s : State) : State :=
  s.updCore core (fun x =>
    let old := x.serr.toNat
    if old % 4 = 0 then
      { x with serr := BitVec.ofNat 64 (at_ (reason % 256) 8 + at_ (bitsOf old 2 2) 2 + 2 ^ bit), serrAddr := addr % 2 ^ 48 }
    else { x with serr := BitVec.ofNat 64 (Nat.lor (Nat.lor old 4) (2 ^ bit)) })

/-- CORE_IO_STORE_ERROR (11 R386). -/
def execCoreIoStoreError (core addr reason : Nat) (s : State) : Res := .next (serrRecord core 0 addr reason s)

/-- CORE_IO_LOAD_POISON: the load returns all ones (11 R387). -/
def execCoreIoLoadPoison (core addr reason : Nat) (s : State) : Res :=
  .next (reply (.core core) addr 0xFFFFFFFFFFFFFFFF#64 (serrRecord core 1 addr reason s))

/-- POISON_EXCEPTION: exception 19 with stval the address (11 R387). -/
def execPoisonException (core addr : Nat) (s : State) : Res := .next (coreTrap core 19 addr s)

/-- SERRSTAT_CLEAR: csrrc clears the writable bits of its mask; once no failure is recorded OVER clears too
(11 R389). -/
def execSerrstatClear (core : Nat) (mask : Word) (s : State) : Res :=
  .next (s.updCore core (fun x =>
    let w := x.serr &&& ~~~(mask &&& 7#64)
    { x with serr := if w &&& 3#64 = 0#64 then w &&& ~~~4#64 else w }))

/-- Local interrupt 20 is pending while a failure is recorded (11 R386). -/
def CoreSt.irq20 (x : CoreSt) : Bool := x.serr &&& 3#64 != 0#64

/-- The CSRs of a core that the block's own state gives: mhartid, its logical number (11 R361); SERRSTAT and SERRADDR (R389); sip with the
store-error interrupt, bit 20, and SEIP, bit 9, as its router drives it; MEIP is never set (R363, R386, R392). -/
def State.coreCsr (s : State) (core csr : Nat) (seip : Bool) : Option Word :=
  match csr with
  | 0xF14 => some (BitVec.ofNat 64 core)
  | 0x5C0 => some (s.coreOf core).serr
  | 0x5C1 => some (BitVec.ofNat 64 (s.coreOf core).serrAddr)
  | 0x144 => some (BitVec.ofNat 64 (at_ (b2n (s.coreOf core).irq20) 20 + at_ (b2n seip) 9))
  | _ => none

/-- The encoding of CFENCE (11 R383). -/
def cfenceWord : BitVec 32 := 0x0000100B#32
/-- Every other encoding in the custom-0 opcode space raises an illegal-instruction exception (11 R383). -/
def customIllegal (w : BitVec 32) : Bool := w &&& 0x7F#32 == 0x0B#32 && w != cfenceWord

/-! ## Cache errors and die faults -/

/-- CACHE_PARITY_ERROR: the L1 line is refetched from L2, which holds the same data; the die's state at the homes does
not change (11 R365, R368). -/
def execCacheParityError (core addr : Nat) (instr : Bool) (s : State) : Res :=
  .next (if instr then s
    else if (s.coreOf core).lsr = some (sectorOf addr) then s.updCore core (fun x => { x with lsr := none }) else s)

/-- CACHE_DATA_ERROR: corrected; or a clean way is invalidated and the line fetched again from its home, a modified line poisoned (11
R368). -/
def execCacheDataError (die addr : Nat) (correctable : Bool) (s : State) : Res :=
  let n := sectorOf addr
  .next (if correctable then s
    else match (s.cdieOf die).line n with
      | none => s
      | some c =>
        if c.st = .m then setCLine die n (some { c with poison := true }) s
        else requestAt .coh (53 + die) (64 * n) false (cohPayload 0x01 0 0 0) 0 (.coh die 128 0x01 (64 * n))
          (dropLr die n (setCLine die n none s)))

/-- A machine check starts the recovery of a core die: an event, and the fence of step 1 (11 R390, R391). -/
def machineCheck (die : Nat) (core : Option Nat) (cause : Nat) (s : State) : State :=
  if 4 ≤ die ∨ (s.cdieOf die).rec_ ≠ 0 ∨ (s.cdieOf die).failed then s
  else
    let s1 := match core with
      | some c => (s.updCore c (fun x => { x with stopped := true })).withRepair { s.repair with cores := ins c s.repair.cores }
      | none => s
    let s2 := post (ev 0x70 (some (53 + die)) (core.getD 0xFFFF) []) s1
    let s3 := if s2.fenced (53 + die) then s2 else fencePort (53 + die) true cause s2
    s3.updCdie die (fun x => { x with rec_ := 1 })

/-- CACHE_TAG_ERROR: a clean way is invalidated; a modified one is a machine check of the die (11 R368, R369). -/
def execCacheTagError (die addr : Nat) (s : State) : Res :=
  let n := sectorOf addr
  .next (match (s.cdieOf die).line n with
    | none => s
    | some c => if c.st = .m then machineCheck die none 2 s else dropLr die n (setCLine die n none s))

/-- CORE_DIE_MACHINE_CHECK (11 R390, R391, step 1). -/
def execCoreDieMachineCheck (die : Nat) (core : Option Nat) (s : State) : Res := .next (machineCheck die core 2 s)

/-- The sectors a home's directory says a die holds in E or M. -/
def HomeSt.ownedSecs (h : HomeSt) (die : Nat) : List Nat := (h.dir.filter (fun d => d.owner == some die)).map DirEnt.sector

/-- The 4 KiB units of sectors, each once. -/
def unitsOf : List Nat → List Nat
  | [] => []
  | n :: r => ins (n / 64) (unitsOf r)

/-- One home poisons the sectors a lost die held in E or M, names them by unit, and drops its copies (11 R391). -/
def homeLoses (die h : Nat) (s : State) : State :=
  let secs := (s.homeOf h).ownedSecs die
  let s1 := secs.foldl (fun st n => storeSector n (st.storedSector n).1 none true st) s
  let s2 := (unitsOf secs).foldl (fun st u =>
    let mask := (secs.filter (fun n => n / 64 == u)).foldl (fun m n => Nat.lor m (2 ^ (n % 64))) 0
    post (ev 0x03 (some h) 2 [u * 4096, mask]) st) s1
  let held := ((s2.homeOf h).dir.filter (fun d => has die d.holders)).map DirEnt.sector
  held.foldl (fun st n => releaseLine h n (st.updHome h (fun x => x.dropHolder n die))) s2

/-- CORE_DIE_POISON_DONE: step 2 of R391. -/
def execCoreDiePoisonDone (die : Nat) (s : State) : Res :=
  .next (if (s.cdieOf die).rec_ = 1 then
    ((List.range 20).foldl (fun st i => homeLoses die (33 + i) st) s).updCdie die (fun x => { x with rec_ := 2 })
  else s)

/-- CORE_DIE_RESET_DONE: the die is as after reset; its link trains (11 R391, steps 3 and 4). -/
def execCoreDieResetDone (die : Nat) (s : State) : Res :=
  .next (if (s.cdieOf die).rec_ = 2 then
    (resetCoreDie die s).updCdie die (fun x => { x with rec_ := 3 })
  else s)

/-- CORE_DIE_RECOVERY_DONE: the runtime runs again and the other dies hear of it, or the die is failed (11 R391,
step 5; 16 R560, R570). -/
def execCoreDieRecoveryDone (die : Nat) (ok : Bool) (s : State) : Res :=
  .next (if (s.cdieOf die).rec_ = 3 ∧ (ok → s.linkReady (53 + die)) then
    if ok then
      let s1 := unfence (53 + die) 6000 (s.updCdie die (fun x => { x with rec_ := 0 }))
      ((List.range 32).filter (fun i => (s.coreOf (32 * die + i)).stopped)).foldl (fun st i =>
        post (ev 0x71 (some (53 + die)) (32 * die + i) []) st) s1
    else dieFailed (53 + die) 2 (s.updCdie die (fun x => { x with rec_ := 0, failed := true }))
  else s)

end Sys2Proof.Machine
end

