-- ==== Sys2Proof/Machine/Links.lean ====
section
/-!
DEFINITION. The die links and the hub: acknowledgements, resends, credits, epochs, trainings, fences, timeouts,
calibration, laser and root clock (02 R37 to R70).
-/
namespace Sys2Proof.Machine

/-! ## Senders -/

/-- The sender of a side. -/
def LinkSt.endOf (l : LinkSt) : Side → LinkEnd
  | .die => l.die
  | .hub => l.hub
/-- Change the sender of a side. -/
def LinkSt.updEnd (l : LinkSt) (sd : Side) (f : LinkEnd → LinkEnd) : LinkSt :=
  match sd with
  | .die => { l with die := f l.die }
  | .hub => { l with hub := f l.hub }
/-- The other side. -/
def otherSide : Side → Side
  | .die => .hub
  | .hub => .die

/-- Drop the replay entries up to an acknowledged sequence number; the rest stay when it is not held (02 R46). -/
def ackDrop (seq : Nat) (l : List (Nat × Pkt)) : List (Nat × Pkt) :=
  match l.findIdx? (fun r => r.1 == seq) with
  | some i => l.drop (i + 1)
  | none => l

/-- Does the link carry words now (02 R55, R63)? -/
def State.linkLive (s : State) (port : Nat) : Bool := (s.linkOf port).state == 2 && !(s.linkOf port).paused

/-- LINK_ACK: replay entries up to the sequence number are free; the link goes on (02 R46, R63). -/
def execLinkAck (port : Nat) (side : Side) (seq : Nat) (s : State) : Res :=
  .next (if !s.linkLive port then s
    else linkGo port (s.updLink port (fun l => l.updEnd side (fun e =>
      { e with replay := ackDrop seq e.replay
               resends := if (ackDrop seq e.replay).length = e.replay.length then e.resends else 0 }))))

/-- A link is declared down and retrains: its packets wait (02 R46, R47, R55). -/
def linkDown (port : Nat) (s : State) : State :=
  if (s.linkOf port).fenced then s
  else s.updLink port (fun l => { l with state := 1, width := 0, paused := false })

/-- Resend from the first packet not acknowledged; after 8 consecutive resends the link is down (02 R46, R63, R70). -/
def resend (port : Nat) (side : Side) (s : State) : State :=
  let e := (s.linkOf port).endOf side
  if e.replay.isEmpty || !s.linkLive port then s
  else
    let s1 := s.updLink port (fun l => { l.updEnd side (fun x => { x with resends := x.resends + 1 }) with
      replays := satAdd 0xFFFF l.replays 1 })
    if 8 ≤ e.resends + 1 then linkDown port s1 else s1

/-- LINK_NAK: the word is taken and the sender resends (02 R46). -/
def execLinkNak (port : Nat) (side : Side) (s : State) : Res :=
  .next (if !s.linkLive port then s
    else resend port side (s.updLink port (fun l => l.updEnd (otherSide side) (fun e => { e with ctl := dropFirst (fun c => c == .nak) e.ctl }))))

/-- ACK_OVERDUE (02 R46). -/
def execAckOverdue (port : Nat) (side : Side) (s : State) : Res := .next (resend port side s)

/-- CREDIT_RETURN: a credit word of the receiver reaches the sender, which has that many slots of a channel (and output) more to
fill (02 R45, R63). A word that no receiver has sent cannot come (log 1). -/
def execCreditReturn (port : Nat) (side : Side) (dst vc n : Nat) (s : State) : Res :=
  let key := match side with | .die => 8 * dst + vc | .hub => vc
  .next (if !s.linkLive port || !((s.linkOf port).endOf (otherSide side)).ctl.any (fun c => c == .credit dst vc n) then s
    else linkGo port (s.updLink port (fun l =>
      (l.updEnd (otherSide side) (fun e => { e with ctl := dropFirst (fun c => c == .credit dst vc n) e.ctl })).updEnd side (fun e =>
        { e with used := upd 0 e.used key (fun k => k - n) }))))

/-- HEARTBEAT: the control word is taken; the receiver has seen carrier (02 R47). -/
def execHeartbeat (port : Nat) (side : Side) (s : State) : Res :=
  .next (if !s.linkLive port then s
    else s.updLink port (fun l => l.updEnd side (fun e => { e with ctl := dropFirst (fun c => c == .heartbeat) e.ctl })))

/-- HEARTBEAT_SEND: an idle sender sends a heartbeat (02 R47). -/
def execHeartbeatSend (port : Nat) (side : Side) (s : State) : Res :=
  .next (if s.portUp port && port != 63 then
    s.updLink port (fun l => l.updEnd side (fun e => { e with ctl := e.ctl ++ [.heartbeat] }))
  else s)

/-- Number the packets of a replay buffer from 0. -/
def renumber : Nat → List (Nat × Pkt) → List (Nat × Pkt)
  | _, [] => []
  | n, r :: t => (n, r.2) :: renumber (n + 1) t

/-- The slots of a side's receiver that packets hold: at the hub those that no output has granted, at the die those granted and
not taken (02 R45). -/
def State.slotsHeld (s : State) (port : Nat) (sd : Side) : FMap Nat :=
  let mine := s.hub.voq.filter (fun v => !v.aside && match sd with
    | .die => v.pkt.src == port && !v.fwd
    | .hub => v.pkt.dst == port && v.fwd)
  mine.foldl (fun m v => upd 0 m (slotKey sd v.pkt) (fun k => k + 1)) []

/-- A sender in a new epoch: SEQ from 0, every free slot advertised, the replay buffer resent oldest first (02 R48). -/
def restartEnd (used : FMap Nat) (e : LinkEnd) : LinkEnd :=
  { e with seq := e.replay.length % 65536, replay := renumber 0 e.replay, resends := 0, used := used, ctl := [] }

/-- Both sides of a link take a new epoch (02 R48). -/
def newEpoch (port : Nat) (s : State) : State :=
  s.updLink port (fun l => { l with epoch := (l.epoch + 1) % 8, die := restartEnd (s.slotsHeld port .die) l.die
                                    hub := restartEnd (s.slotsHeld port .hub) l.hub })

/-- EPOCH_CHANGE (02 R48): the control word comes over a link that is not in its pause (02 R63). -/
def execEpochChange (port : Nat) (s : State) : Res :=
  .next (if port = 63 ∨ (s.linkOf port).fenced ∨ (s.linkOf port).paused then s else linkGo port (newEpoch port s))

/-! ## Failures of dies -/

/-- A die is failed for good: a tile moves to the spare; a tier die's tiles and a Ranoa die's ports are lost; without the host die
sessions are held; without the Ivory die service ends (01 R14, R34; 02 R54; 00 R4). -/
def failDie (port cause : Nat) (s : State) : State :=
  if port ≤ 32 then tileLost port cause s
  else if port ≤ 48 then failStack (port - 33) cause s
  else if port ≤ 52 then dieFailed port cause (poolLost (port - 49) s)
  else if port ≤ 56 then dieFailed port cause (s.updCdie (port - 53) (fun x => { x with rec_ := 0, failed := true }))
  else if port = 57 then hostFails cause s
  else if port ≤ 59 then ranoaFails (port - 58) cause s
  else if port ≤ 61 then tierFails (port - 60) cause s
  else endService (dieFailed port cause (s.withBoot { s.boot with ivoryStop := true }))

/-- A stack's, pool die's, core die's or tile's recovery starts behind its fence; any other die is failed (02 R55,
16 R570). -/
def startRecovery (port cause : Nat) (s : State) : State :=
  if port ≤ 32 then tileReset port s
  else if port ≤ 48 then stackDown (port - 33) s
  else if port ≤ 52 then poolDown (port - 49) s
  else if port ≤ 56 then machineCheck (port - 53) none cause s
  else failDie port cause s

/-! ## Down, training, fence -/

/-- CARRIER_LOSS_TIMEOUT: the link is declared down; a calibration pause does not count (02 R47, R63). -/
def execCarrierLossTimeout (port : Nat) (s : State) : Res :=
  .next (if s.linkLive port then linkDown port s else s)

/-- Failed lanes of one waveguide or module that its spares can take the place of: two spare wavelengths (02 R52). How many repair
lanes a UCIe module has the spec does not say; it has 4 here (log 57, PRESUMED: UCIe's advanced package). -/
def spareLanes (port : Nat) : Nat := if isUcie port then 4 else 2

/-- The width a port can have: its waveguides or modules less those that have left the link (02 R36, R52). -/
def State.usable (s : State) (port : Nat) : Nat :=
  nomWidth port - ((s.linkOf port).lanes.filter (fun x => decide (spareLanes port < x.2))).length

/-- The link features that a die advertises, by the revision the manifest gives (01 R21, R24): of a pair, the features of the older
side are a part of the newer side's, so that what both advertise is what the older side has. -/
def State.featuresAt (s : State) (port : Nat) : Nat :=
  match s.glb.manifest[port]?, s.glb.manifest[63]? with
  | some d, some h =>
    let mine := Config.linkFeatures port d.letter d.digit
    let hub := Config.linkFeatures 63 h.letter h.digit
    if port = 63 then hub
    else if Config.olderThanHub port d.letter d.digit h.letter h.digit then Nat.land hub mine
    else Nat.lor hub mine
  | _, _ => 0

/-- A link has trained (02 R51 to R54, R70; 01 R24): at the smaller of the two widths that the sides advertise, with the features
that both sides advertise (of a released pair, the older side's), in a new epoch. Different widths make an event. Below the
minimum the port is fenced: a tile moves to the spare, any other die is failed. -/
def trained (port advDie advHub : Nat) (s : State) : State :=
  let d := min advDie (nomWidth port)
  let h := min advHub (nomWidth port)
  let w := min d h
  let fd := s.featuresAt port
  let fh := s.featuresAt 63
  let s0 := s.updLink port (fun l => { l with
    advDie := d, advHub := h, width := w, featDie := fd, featHub := fh, feat := Nat.land fd fh
    retrains := if s.glb.ready then satAdd 0xFFFF l.retrains 1 else l.retrains })
  let s1 := if d = h then s0
    else post (ev 0x33 (some port) (d % 256 + at_ (h % 256) 8 + at_ (w % 256) 16) []) s0
  if w < minWidth port then failDie port 1 s1
  else linkGo port ((newEpoch port s1).updLink port (fun l => { l with state := 2 }))

/-- May a link train: it is in training, its site has its clock and its light (02 R51, R66)? -/
def State.mayTrain (s : State) (port : Nat) : Bool :=
  port != 63 && (s.linkOf port).state == 1 && !(s.linkOf port).noRoot && s.siteLive port

/-- Can a training bring these widths: the smaller of them counts no waveguide or module that has left the link (02 R52)? The end
that sees the lanes fail advertises the smaller width (02 R53); a training at more is no event (log 1). -/
def State.mayWidth (s : State) (port advDie advHub : Nat) : Bool := decide (min advDie advHub ≤ s.usable port)

/-- FAST_RETRAIN_DONE: a link that is down and still calibrated is up again in a new epoch (02 R48, R51, R53). -/
def execFastRetrainDone (port advDie advHub : Nat) (s : State) : Res :=
  .next (if s.mayTrain port && s.mayWidth port advDie advHub && (s.linkOf port).calibrated && !(s.linkOf port).fenced then
    poolsGo (trained port advDie advHub s) else s)

/-- FULL_TRAINING_DONE: rings are calibrated, then as a fast retrain (02 R51); the link of a fenced die that was reset trains so
before its recovery ends (11 R391, 16 R563). -/
def execFullTrainingDone (port advDie advHub : Nat) (s : State) : Res :=
  .next (if s.mayTrain port && s.mayWidth port advDie advHub then
    poolsGo (trained port advDie advHub (s.updLink port (fun x => { x with calibrated := true }))) else s)

/-- RETRAIN_TIMEOUT: a port not up after HUB_RETRAINTO is fenced, and its die enters its recovery or is failed
(02 R55). -/
def execRetrainTimeout (port : Nat) (s : State) : Res :=
  let l := s.linkOf port
  .next (if port ≠ 63 ∧ !l.fenced ∧ l.state = 1 then startRecovery port 1 (fencePort port false 1 s) else s)

/-- FENCE_COMPLETE: no packet from the port is left inside the hub (02 R58). -/
def execFenceComplete (port : Nat) (s : State) : Res :=
  .next (if s.hub.voq.any (fun v => v.pkt.src == port) then s
    else s.updLink port (fun l => { l with fencing := false }))

/-! ## Timeouts -/

/-- The hub answers an outstanding request itself, and later drops what the target may still answer (02 R60,
R61). -/
def hubAnswers (o : Outst) (reason : Nat) (s : State) : State :=
  let s1 := s.withHub { s.hub with dropped := s.hub.dropped ++ [(o.src, o.tid)] }
  hubSays (deadAnswer ⟨o.op, o.src, o.dst, o.tid, o.addr, false, [], [], o.len⟩ reason) s1

/-- Has the hub forwarded a request to its target: it waits neither with its sender, nor in a queue of the hub, nor for a tier
tile (02 R61, 09 R301)? -/
def State.forwarded (s : State) (src tid : Nat) : Bool :=
  !(s.hub.voq.any (fun v => v.pkt.src == src && v.pkt.tid == tid && !v.fwd && opIsReq v.pkt.op))
  && !((s.linkOf src).die.wait.any (fun w => w.2.tid == tid && opIsReq w.2.op))
  && !(s.tier.wait.any (fun p => p.src == src && p.tid == tid))

/-- TARGET_TIMEOUT: a forwarded request to a port neither retraining nor fenced is answered with reason 0x01
(02 R61). A wait on a sync object draws its answer when it is released and is none of these (07 R219). -/
def execTargetTimeout (src tid : Nat) (s : State) : Res :=
  .next (match s.findOutst src tid with
    | none => s
    | some o =>
      if o.dst = 63 ∨ !s.forwarded src tid ∨ s.fenced o.dst ∨ (s.linkOf o.dst).state ≠ 2
          ∨ s.hub.dropped.any (fun d => d == (src, tid)) then s
      else hubAnswers o 0x01 s)

/-- TIER_WAIT_TIMEOUT: an access that has waited 4 ms for its tile is answered with reason 0x01 (02 R61, 09 R301). -/
def execTierWaitTimeout (src tid : Nat) (s : State) : Res :=
  .next (match s.tier.wait.find? (fun p => p.src == src && p.tid == tid) with
    | none => s
    | some p => refuse p 0x01 (s.withTier { s.tier with wait := dropFirst (fun q => q == p) s.tier.wait }))

/-! ## Calibration, laser, root clock -/

/-- CALIBRATION_PAUSE: an optical link carries nothing for 200 ns; UCIe ports do not pause (02 R63). -/
def execCalibrationPause (port : Nat) (s : State) : Res :=
  .next (if port ≤ 62 ∧ !isUcie port ∧ (s.linkOf port).state = 2 then
    s.updLink port (fun l => { l with paused := true }) else s)

/-- CALIBRATION_RESUME: the link goes on (02 R63). -/
def execCalibrationResume (port : Nat) (s : State) : Res :=
  .next (if (s.linkOf port).paused then poolsGo (linkGo port (s.updLink port (fun l => { l with paused := false }))) else s)

/-- Declare every link of a kind down that is up (02 R65, R66). -/
def allDown (f : Nat → Bool) (s : State) : State :=
  ((List.range 63).filter (fun p => f p && (s.linkOf p).state == 2)).foldl (fun st p => linkDown p st) s

/-- Every site loses the root clock and goes on from its holdover; UCIe and optical links are declared down (02 R66). -/
def rootGone (s : State) : State :=
  let s1 := allDown (fun _ => true) (s.withHub { s.hub with rootLost := true })
  (List.range 63).foldl (fun st p => st.updLink p (fun l => { l with noRoot := true })) s1

/-- EMITTER_FAILURE: the standby emitter takes over; until it has, the root clock is lost, so every link is down and retrains once
the clock is back. With both emitters failed every optical site stops and service ends (02 R65, R66; 16 R560). -/
def execEmitterFailure (s : State) : Res :=
  .next (if s.hub.standbyOk then
    let e := 1 - s.hub.emitter
    post (ev 0x34 none e []) (rootGone (s.withHub { s.hub with emitter := e, standbyOk := false }))
  else endService (rootGone (s.withHub { s.hub with bothFailed := true, stopped := true })))

/-- ROOT_CLOCK_LOSS: the root wavelength is lost to every site, or a break in the clock path beneath one site takes it from that
site (02 R65, R66). -/
def execRootClockLoss (site : Option Nat) (s : State) : Res :=
  .next (match site with
    | none => rootGone s
    | some p => if 62 < p then s else (linkDown p s).updLink p (fun l => { l with noRoot := true }))

/-- ROOT_CLOCK_RETURN: holdover relocks and the links retrain (02 R66). With both emitters failed nothing returns. -/
def execRootClockReturn (site : Option Nat) (s : State) : Res :=
  .next (if s.hub.bothFailed then s
    else match site with
    | none => (List.range 63).foldl (fun st p => st.updLink p (fun l => { l with noRoot := false })) (s.withHub { s.hub with rootLost := false })
    | some p => if 62 < p ∨ s.hub.rootLost then s else s.updLink p (fun l => { l with noRoot := false }))

/-- HOLDOVER_EXPIRED: a site without its root clock for more than 200 µs is failed (02 R66). -/
def execHoldoverExpired (port : Nat) (s : State) : Res :=
  .next (if port ≤ 62 ∧ (s.linkOf port).noRoot ∧ !s.siteFailed port then failDie port 4 s else s)

/-! ## Errors and registers -/

/-- What the receiver of a side's packets finds in one: an epoch other than the current one is discarded; a link CRC that does not
match, a reserved opcode, a channel that is not the opcode's, or a length that is not LEN's fails the check; a SEQ ahead of the
next one is a gap (02 R39, R41, R46, R48). -/
def rawFind (l : LinkSt) (side : Side) (hdr : BitVec 128) (body : List Byte) (crc : BitVec 32) : RawFind :=
  if !rawOk hdr body crc then .bad
  else if fld hdr 83 81 != l.epoch then .stale
  else
    let ahead := (fld hdr 99 84 + 65536 - (l.endOf side).seq) % 65536
    if 0 < ahead ∧ ahead < 32768 then .gap else .taken

/-- LINK_CRC_ERROR: a packet of a side that its receiver cannot take: one that fails the link check is counted, and for it and for
a gap in SEQ a negative acknowledgement goes back; one of another epoch is discarded (02 R39, R41, R46, R48, R70). A packet that
is in order is no such event (log 1). -/
def execLinkCrcError (port : Nat) (side : Side) (hdr : BitVec 128) (body : List Byte) (crc : BitVec 32) (s : State) : Res :=
  .next (if 62 < port ∨ !s.linkLive port then s
    else
      let found := rawFind (s.linkOf port) side hdr body crc
      if found = .taken ∨ found = .stale then s
      else s.updLink port (fun l =>
        { l.updEnd (otherSide side) (fun e => { e with ctl := e.ctl ++ [.nak] }) with
          crcErr := if found = .bad then satAdd 0xFFFF l.crcErr 1 else l.crcErr }))

/-- HUB_LANE_FAILURE: a spare wavelength, or a repair lane of a UCIe module, takes the lane's place; a waveguide or
module beyond its spares leaves the link (02 R52, R54, R70; 01, Reserve). -/
def execHubLaneFailure (port waveguide : Nat) (s : State) : Res :=
  let l := s.linkOf port
  let n := look 0 l.lanes waveguide
  .next (if 62 < port ∨ nomWidth port ≤ waveguide then s
    else
      let s1 := s.updLink port (fun x => { x with lanes := put 0 x.lanes waveguide (n + 1) })
      if n < spareLanes port then
        s1.updLink port (fun x => { x with spares := satAdd 255 x.spares 1, spareEvents := satAdd 0xFFFF x.spareEvents 1 })
      else if n = spareLanes port then
        let s2 := s1.updLink port (fun x => { x with spares := x.spares - spareLanes port
                                                     width := min x.width (s1.usable port) })
        if (s2.linkOf port).width < minWidth port ∧ l.state = 2 then failDie port 1 s2 else s2
      else s1)

/-- HUB_LINKp (02 R69). -/
def State.linkWord (s : State) (p : Nat) : Word :=
  let l := s.linkOf p
  BitVec.ofNat 64 (at_ (l.advDie % 256) 48 + at_ (l.advHub % 256) 40 + at_ (l.width % 256) 32 + at_ (nomWidth p) 24
    + at_ (l.spares % 256) 16 + at_ l.epoch 9 + at_ (b2n l.fenced) 8 + if l.fenced then 3 else l.state)

/-- HUB_LINKERRp (02 R70). -/
def State.linkErr (s : State) (p : Nat) : Word :=
  let l := s.linkOf p
  BitVec.ofNat 64 (at_ l.retrains 48 + at_ l.replays 32 + at_ l.crcErr 16 + l.spareEvents)

/-- HUB_LINKERR_READ: the counters are returned and cleared (02 R70, 00 R10). -/
def execHubLinkerrRead (who : Agent) (port : Nat) (s : State) : Res :=
  let off := 0x0B00300 + 8 * port
  .next (if s.hostGate who then
      (reply who off (s.linkErr port) s).updLink port (fun l => { l with retrains := 0, replays := 0, crcErr := 0, spareEvents := 0 })
    else shutRead who off s)

/-- MGMT: a management packet reaches its port: Ivory, telemetry, fence and calibration control (02 R39). The manual
gives it no payload; its arrival is kept. -/
def execMgmt (src dst : Nat) (kind : MgmtKind) (s : State) : Res :=
  let p : Pkt := ⟨.mgmt, src, dst, 0, 0, false, [], [], 0⟩
  let r := reach p s
  .next (if s.fenced src && !s.onWay p then s
    else if r.2 then r.1.withHub { r.1.hub with mgmtSeen := r.1.hub.mgmtSeen ++ [(src, dst, kind)] }
    else r.1)

end Sys2Proof.Machine
end

