-- ==== Sys2Proof/Machine/Power.lean ====
section
/-!
DEFINITION. Power, clocks and thermal control: the modes, the cap and its loops, the floor, phase hints, balancing across
modules, the brake, temperatures (15 R520 to R550; 14 R514; 17 R597).
-/
namespace Sys2Proof.Machine

/-! ## Modes and limits -/

/-- PWR_CTL.MODE: 3 acts as 1 (15 R523, R545). -/
def State.mode (s : State) : Nat := if s.regFld 0x0500000 1 0 = 3 then 1 else s.regFld 0x0500000 1 0
/-- Arithmetic setpoint in quarter steps (15 R523). -/
def State.setpoint (s : State) : Nat := if s.mode = 0 then 42 else if s.mode = 1 then 48 else 63
/-- Core setpoint in quarter steps (15 R523). -/
def State.coreSetpoint (s : State) : Nat := if s.mode = 0 then 28 else 32

/-- Is the whole device at the qualification point (15 R524)? -/
def State.devQual (s : State) : Bool := !s.glb.ready || s.glb.warmStep != 0
/-- PWR_STATUS.QUAL: is any tile at the qualification point (15 R524)? -/
def State.anyQual (s : State) : Bool :=
  s.devQual || (List.range 33).any (fun p => (s.tileOf p).resetting || s.suspectOn p)

/-- The input voltage times 200 A, in W (15 R525); no bound while no voltage has been measured, as the reset value of EFFCAP in 15
R547 has it (log 51, DEDUCED). -/
def State.vinCap (s : State) : Nat := if s.boot.vin = 0 then 6400 else s.boot.vin / 5

/-- The requested cap in W before the group's share: PWR_CAP, the hard and board limits and the input voltage times 200 A
(15 R525, R546). -/
def State.ownCap (s : State) : Nat :=
  min (min (25 * clamp 0x3C 0x100 (s.regFld 0x0500008 15 0)) (25 * s.ivory.hard)) (min (25 * s.ivory.board) s.vinCap)

/-! ## Balancing across modules -/

/-- The balancing group of the module; 0 none (15 R531). -/
def State.group (s : State) : Nat := s.regFld 0x0500030 31 16
/-- PWR_GROUP.BAL: true for Critical-path (15 R549). -/
def State.criticalPath (s : State) : Bool := s.regFld 0x0500030 1 0 == 1
/-- The low half of the serial number, which names the module in STATUS (14 R514). -/
def State.origin32 (s : State) : Nat := s.glb.serial.toNat % 2 ^ 32
/-- The present members other than this module. -/
def State.others (s : State) : List Member := s.pwr.members.filter (fun m => m.origin != s.origin32)

/-- Twice the median BUSY of the present members; of an even number, the sum of the middle two (15 R535). -/
def medianTwice (l : List Nat) : Nat :=
  let o := sortBy id l
  let n := o.length
  if n = 0 then 0 else (o[(n - 1) / 2]?).getD 0 + (o[n / 2]?).getD 0

/-- Is a member critical (15 R535)? -/
def isCritical (l : List Member) (m : Member) : Bool :=
  m.crit || decide (medianTwice (l.map Member.busy) + 20 ≤ 2 * m.busy)

/-- The share of a member that is not critical, before what is returned (15 R536). -/
def baseShare (shift : Nat) (m : Member) : Nat := max 1875 (25 * m.cap * (100 - 5 * shift) / 100)

/-- The share of a member in W, rounded down, from the STATUS of every present member (15 R536). STATUS does not carry a
member's hard and board limits: another's is taken as the highest there is, 6,400 W (log 43). -/
def shareOf (l : List Member) (shift : Nat) (m : Member) : Nat :=
  let crit := l.filter (isCritical l)
  let rest := l.filter (fun x => !isCritical l x)
  if crit.isEmpty || rest.isEmpty then 25 * m.cap
  else
    let b := (l.map (fun x => 25 * x.cap)).sum
    let each := (b - (rest.map (baseShare shift)).sum) / crit.length
    if isCritical l m then min each 6400
    else min (baseShare shift m + (each - min each 6400) * crit.length / rest.length) 6400

/-- SHIFT: above 10 acts as 10 (15 R549). -/
def State.groupShift (s : State) : Nat := min 10 (s.regFld 0x0500030 11 8)

/-- The module's share in a Critical-path group, bound by its own limits (15 R536); none outside one. -/
def State.share (s : State) : Option Nat :=
  if s.group = 0 || !s.criticalPath then none
  else (s.pwr.members.find? (fun m => m.origin == s.origin32)).map (fun m =>
    min (shareOf s.pwr.members s.groupShift m) (min (25 * s.ivory.hard) (25 * s.ivory.board)))

/-- The lowest frequency the other members of a Lockstep group report, as a divider in quarter steps (15 R534); 0 with none. -/
def State.othersDiv (s : State) : Nat :=
  if s.group = 0 || s.criticalPath then 0 else (s.others.map Member.div).foldl max 0

/-- The requested cap in W (15 R525). -/
def State.reqCap (s : State) : Nat := match s.share with | some x => min s.ownCap x | none => s.ownCap
/-- The effective cap in W: the floor once a floor computation has found the requested cap below it (15 R525, R529). -/
def State.effCap (s : State) : Nat := if s.pwr.belowFloor then max s.reqCap s.pwr.floor else s.reqCap

/-! ## Dividers and voltages -/

/-- Arithmetic cycles from power-up to a tick of the 100 MHz counter at a divider in quarter steps, times num / den. -/
def cyclesTo (time div num den : Nat) : Nat := 1008 * time * num / (div * den)

/-- Every array of every active tile counts held cycles (03 R84, R85). -/
def countHeld (n : Nat) (s : State) : State :=
  if n = 0 then s
  else s.activeTiles.foldl (fun st p => st.updTile p (fun t => (List.range 8).foldl (fun t a => countTel a 6 n t) t)) s

/-- A divider change holds every array for 50 ns (15 R521). -/
def holdArrays (s : State) : State := countHeld (cyclesTo 5 s.pwr.div 1 1) s

/-- The voltages of some dies rise to what a divider needs where they lie below it, before a step toward higher frequency
(15 R521). -/
def raiseVolts (ports : List Nat) (div : Nat) (s : State) : State :=
  ports.foldl (fun st p => setVolt p (max (look 0 st.pwr.volt p) (needVolt p div)) st) s
/-- The voltages of some dies fall to what a divider needs, after a step (15 R521). -/
def lowerVolts (ports : List Nat) (div : Nat) (s : State) : State :=
  ports.foldl (fun st p => setVolt p (needVolt p div) st) s

/-- The arithmetic divider changes: voltages first up, the change with its hold, then voltages down (15 R521). -/
def moveDiv (d : Nat) (s : State) : State :=
  if d = s.pwr.div then s
  else
    let s1 := raiseVolts s.activeTiles d s
    lowerVolts s.activeTiles d (holdArrays (s1.withPwr { s1.pwr with div := d }))

/-- The divider of a core die changes in the same way (15 R521). -/
def moveCoreDiv (die d : Nat) (s : State) : State :=
  if d = (s.cdieOf die).div then s
  else
    lowerVolts [53 + die] d (holdArrays ((raiseVolts [53 + die] d s).updCdie die (fun x => { x with div := d })))

/-! ## Temperatures -/

/-- Is a port a stack's? -/
def isStackPort (p : Nat) : Bool := decide (33 ≤ p) && decide (p ≤ 48)
/-- Warning temperature of the die at a port (15 R539, 17 R597). -/
def State.warnAt (s : State) (p : Nat) : Nat := if isStackPort p then 90 else 95 - s.ivory.warnOfs
/-- Throttle temperature (15 R539, 17 R597). -/
def State.throttleAt (s : State) (p : Nat) : Nat := if isStackPort p then 95 else 100 - s.ivory.throttleOfs
/-- Trip temperature (15 R539). -/
def tripAt (p : Nat) : Nat := if isStackPort p then 105 else 110

/-- Does a throttle bind the arithmetic clock: a tile, pool or hub die (15 R541)? -/
def State.thermal (s : State) : Bool :=
  s.pwr.throttle.any (fun t => t.2 && (decide (t.1 ≤ 32) || decide (49 ≤ t.1) && decide (t.1 ≤ 52) || t.1 == 63))

/-- ALERT_N asserted (15 R540, 16 R571). -/
def State.alert (s : State) : Bool := s.boot.ivoryStop || s.pwr.warn.any Prod.snd

/-- A flag with 3 °C of hysteresis. -/
def hyst (limit temp : Nat) (was : Bool) : Bool := if limit ≤ temp then true else if temp + 3 ≤ limit then false else was

/-- One temperature sample of a die (15 R539 to R541): one event for each crossing of the warning temperature. -/
def tempOne (r : TempReading) (acc : List EvItem × State) : List EvItem × State :=
  let s := acc.2
  let p := r.port
  let t := r.temp % 256
  let old := look 0 s.pwr.temp p
  let s1 := s.withPwr { s.pwr with
    temp := put 0 s.pwr.temp p t
    warn := upd false s.pwr.warn p (hyst (s.warnAt p) t)
    throttle := upd false s.pwr.throttle p (hyst (s.throttleAt p) t)
    trip := if tripAt p ≤ t then put false s.pwr.trip p true else s.pwr.trip }
  let up := decide (s.warnAt p ≤ t)
  (if up == decide (s.warnAt p ≤ old) then acc.1 else acc.1 ++ [ev 0x62 (some p) (t + at_ (b2n up) 31) []], s1)

/-- TEMP_SAMPLE: every die is sampled, and the crossings of one sample reach the FIFOs together; one at its trip temperature ends it
all (15 R539 to R542; 13 R482). -/
def execTempSample (temps : List TempReading) (s : State) : Res :=
  let l := temps.filter (fun r => decide (r.port < 64))
  let (evs, s0) := l.foldl (fun acc r => tempOne r acc) ([], s)
  let s1 := postAll evs s0
  .next (if l.any (fun r => decide (tripAt r.port ≤ r.temp)) then thermTrip s1 else s1)

/-- HUB_THERMTRIP_COMPARATOR: the comparator at 120 °C trips by itself (15 R542). -/
def execHubThermtripComparator (s : State) : Res := .next (thermTrip s)

/-- CORE_THROTTLE_STEP: a core die at its throttle temperature steps toward divider 12, and returns the same way
(15 R541). -/
def execCoreThrottleStep (die : Nat) (s : State) : Res :=
  .next (if 4 ≤ die ∨ s.devQual then s
    else
      let d := (s.cdieOf die).div
      if look false s.pwr.throttle (53 + die) then moveCoreDiv die (min 48 (d + 1)) s
      else moveCoreDiv die (if s.coreSetpoint < d then d - 1 else d) s)

/-! ## The loops -/

/-- SLATE_HELD (15 R528): Slate or Umber runs below its setpoint, and not for the qualification point's sake. -/
def State.slateHeld (s : State) : Bool := !s.devQual && s.mode != 0 && decide (s.setpoint < s.pwr.div)

/-- A loop moves the arithmetic divider: an event for the step, and HELD_SEEN when it lies below the setpoint (15 R528). -/
def setDiv (d : Nat) (s : State) : State :=
  if d = s.pwr.div then s
  else
    let s0 := moveDiv d s
    let s1 := s0.withPwr { s0.pwr with sinceStep := 0 }
    let s2 := s1.withPwr { s1.pwr with heldSeen := s1.pwr.heldSeen || s1.slateHeld }
    post (ev 0x61 none d []) s2

/-- The share of the arithmetic cycles in which every array is held: all of them during a brake, k of 8 at idle level k
(15 R527, R537). -/
def State.heldShare (s : State) : Nat := if s.arraysHeld then 8 else min 7 s.pwr.idle

/-- One tick of the 100 MHz counter on an idle block: the arrays count the cycles they are held (03 R85; 15 R527, R537), and the
stacks write out what their buffers hold, for no read waits (08 R262; log 3). -/
def idleTick (s : State) : State :=
  drainBuffers (countHeld (cyclesTo (s.time + 1) s.pwr.div s.heldShare 8 - cyclesTo s.time s.pwr.div s.heldShare 8) (tick s))

/-- Is the effective cap exceeded, or treated as exceeded (15 R526, R541)? -/
def State.overCap (s : State) (watts : Nat) : Bool := decide (s.effCap < watts) || s.thermal

/-- FAST_LOOP_TICK (15 R526): the idle level rises while the estimate exceeds the cap, and falls when it lies more than 5 %
below, unless the slow loop has lowered the divider since it began to. The loop does not step during a brake (R538). -/
def execFastLoopTick (watts : Nat) (s : State) : Res :=
  let p := s.pwr
  let under := decide (100 * watts < 95 * s.effCap)
  .next (if s.devQual || s.arraysHeld then s
    else if s.overCap watts then
      s.withPwr { p with idle := min 7 (p.idle + 1), idleZero := 0, lowered := p.lowered && under }
    else if !under then s.withPwr { p with lowered := false }
    else if p.lowered then s
    else s.withPwr { p with idle := p.idle - 1, idleHigh := if p.idle ≤ 1 then 0 else p.idleHigh })

/-- May the divider move one step toward higher frequency: in Lockstep only when every other member runs faster
(15 R534)? -/
def State.mayRise (s : State) : Bool := s.othersDiv == 0 || decide (s.othersDiv < s.pwr.div)

/-- The slow loop in Slate and Umber: one step at most in 100 ms (15 R526). -/
def slowSlate (s : State) : State :=
  let p := s.pwr
  if 100 ≤ p.idleHigh && 100 ≤ p.sinceStep && p.div < 96 then
    let s1 := setDiv (p.div + 1) s
    s1.withPwr { s1.pwr with lowered := true }
  else if 100 ≤ p.idleZero && 100 ≤ p.sinceStep && decide (s.setpoint < p.div) && !s.thermal && s.mayRise then
    setDiv (p.div - 1) s
  else s

/-- The slow loop in Ochre: up to 4 steps in either direction; how many is open, a free value (15 R523, log 44). -/
def slowOchre (watts : Nat) (s : State) : State :=
  let (w, s1) := s.draw 4
  let n := w.toNat % 5
  let p := s1.pwr
  if 0 < p.idle ∨ s1.overCap watts then
    let s2 := setDiv (min 96 (p.div + n)) s1
    s2.withPwr { s2.pwr with lowered := s2.pwr.lowered || decide (p.div < s2.pwr.div) }
  else if s1.mayRise then setDiv (max s1.setpoint (p.div - n)) s1 else s1

/-- SLOW_LOOP_TICK: input power, voltage and energy are measured; unless a brake holds, the divider may step (15 R526, R538,
R543, R548). -/
def execSlowLoopTick (watts vin : Nat) (s : State) : Res :=
  let p := s.pwr
  let s1 := (s.withPwr { p with watts := watts % 65536, energy := (p.energy + 1000 * watts) % 2 ^ 64 }).withBoot
    { s.boot with vin := vin % 65536, vinLow := decide (vin < 32000), vinHigh := decide (40000 < vin) }
  .next (if s.devQual || s.arraysHeld then s1
    else
      let low := p.idle = 0 ∧ 100 * watts ≤ 92 * s1.effCap
      let s2 := s1.withPwr { s1.pwr with
        idleHigh := if 0 < p.idle then min 100 (p.idleHigh + 1) else 0
        idleZero := if low then min 100 (p.idleZero + 1) else 0
        sinceStep := min 100 (p.sinceStep + 1) }
      if s2.mode = 0 then slowOchre watts s2 else slowSlate s2)

/-- FLOOR_RECOMPUTE: the floor follows the work; a requested cap below it makes the floor the effective cap, and BELOW_FLOOR
clears 100 ms after the requested cap reaches it (15 R529). -/
def execFloorRecompute (floor : Nat) (s : State) : Res :=
  let f := floor % 65536
  let s1 := s.withPwr { s.pwr with floor := f }
  .next (if s1.reqCap < f then
      let s2 := s1.withPwr { s1.pwr with belowFloor := true, floorSeen := true, floorOk := 0 }
      if s.pwr.belowFloor then s2 else post (ev 0x60 none f []) s2
    else if 100 ≤ s.pwr.floorOk + 1 then s1.withPwr { s1.pwr with belowFloor := false, floorOk := 100 }
    else s1.withPwr { s1.pwr with floorOk := s.pwr.floorOk + 1 })

/-! ## Settings and hints -/

/-- The clocks start from the setpoints of the mode in force (15 R523). -/
def toSetpoint (s : State) : State :=
  (List.range 4).foldl (fun st d => moveCoreDiv d st.coreSetpoint st) (moveDiv (max s.setpoint s.othersDiv) s)

/-- Every die runs at the qualification point (15 R524). -/
def toQual (s : State) : State :=
  let s0 := moveDiv 56 s
  let s1 := s0.withPwr { s0.pwr with idle := 0, idleHigh := 0, idleZero := 0, sinceStep := 100, lowered := false }
  (List.range 4).foldl (fun st d => moveCoreDiv d 32 st) s1

/-- PWR_CTL_WRITE: the mode changes (15 R523, R545). -/
def execPwrCtlWrite (who : Agent) (v : Word) (s : State) : Res :=
  .next (pfWrite who 0x0500000 (fun s =>
    let s1 := s.setReg 0x0500000 (v &&& 0x3#64)
    if s1.mode = s.mode || s.devQual then s1 else toSetpoint s1) s)

/-- PWR_CAP_WRITE (15 R546). -/
def execPwrCapWrite (who : Agent) (v : Word) (s : State) : Res :=
  .next (pfWrite who 0x0500008 (fun s => s.setReg 0x0500008 (v &&& 0xFFFF#64)) s)

/-- PWR_GROUP_WRITE: another group has no members yet (15 R531, R549). -/
def execPwrGroupWrite (who : Agent) (v : Word) (s : State) : Res :=
  .next (pfWrite who 0x0500030 (fun s =>
    let s1 := s.setReg 0x0500030 (v &&& 0xFFFF0F13#64)
    if s1.group = s.group && s1.criticalPath == s.criticalPath then s1
    else s1.withPwr { s1.pwr with members := [] }) s)

/-- The highest class among a tile's hints (15 R530). -/
def hintClass (l : List HintSt) : Option Nat := if l.isEmpty then none else some ((l.map HintSt.cls).foldl max 0)

/-- The regulator of a tile follows the class of its phase (15 R530): it may fall to what a light one needs, an open value (log 44),
and rises to the voltage of the current point for the others. -/
def hintVolt (tile cls : Nat) (s : State) : State :=
  match s.posOf tile with
  | none => s
  | some p =>
    if cls = 0 then
      let (w, s1) := s.draw 6
      setVolt p (w.toNat % (look 0 s1.pwr.volt p + 1)) s1
    else runVolt p s

/-- HINT_PHASE_START: the controller acts on the announced class (15 R530). In Ochre a limit on the boost, and in Slate and Umber
the idle level set ahead for class 3, are open values (log 44). -/
def execHintPhaseStart (tile : Nat) (s : State) : Res :=
  .next (match hintClass (look [] s.pwr.hints tile) with
    | none => s
    | some c =>
      let s0 := if s.devQual then s else hintVolt tile c s
      let s1 := s0.withPwr { s0.pwr with phase := put none s0.pwr.phase tile (some c) }
      if s.devQual || s.arraysHeld || decide (c < 2) then s1
      else if s.mode = 0 then
        let (w, s2) := s1.draw 4
        setDiv (max s2.pwr.div (42 + w.toNat % 55)) s2
      else if c = 3 then
        let (w, s2) := s1.draw 5
        s2.withPwr { s2.pwr with idle := w.toNat % 8, idleZero := 0, idleHigh := 0 }
      else s1)

/-- Drop the hint that starts first. -/
def dropEarliest (l : List HintSt) : List HintSt :=
  dropFirst (fun h => l.all (fun g => decide (h.start ≤ g.start))) l

/-- HINT_LAPSE: the oldest hint of a tile lapses; the class of those left holds (15 R530). -/
def execHintLapse (tile : Nat) (s : State) : Res :=
  let l := dropEarliest (look [] s.pwr.hints tile)
  .next (s.withPwr { s.pwr with hints := put [] s.pwr.hints tile l, phase := put none s.pwr.phase tile (hintClass l) })

/-! ## Side-band messages -/

/-- The payload of a side-band message (14 R514, 15 R532). -/
def sbPayload (m : SbMsg) : List Byte :=
  leBytes 1 m.type ++ leBytes 1 m.hops ++ leBytes 2 m.group ++ leBytes 4 m.origin ++ leBytes 2 m.seq ++ leBytes 1 m.div
    ++ leBytes 2 m.power ++ leBytes 2 m.cap ++ leBytes 1 (m.busy % 128 + at_ (b2n m.crit) 7)

/-- Send a side-band message on the up ports that a test admits. -/
def sbSend (dest : Nat → Bool) (m : SbMsg) (s : State) : State :=
  ((List.range 8).filter (fun n => dest n && (s.rportOf n).state == 2)).foldl (fun st n =>
    sendR n ⟨.sbMsg, false, 0, 0, 0, 0, 0, sbPayload m, []⟩ st) s

/-- Remember a message, among the last 256 (14 R514). -/
def sbNote (origin seq : Nat) (s : State) : State :=
  let l := s.rna.seenSb ++ [(origin, seq)]
  s.withRna { s.rna with seenSb := l.drop (l.length - 256) }

/-- The STATUS of a member is the last one it sent (15 R533, R536). -/
def setMember (m : Member) (s : State) : State :=
  s.withPwr { s.pwr with members := s.pwr.members.filter (fun x => x.origin != m.origin) ++ [m] }

/-- Ivory takes a STATUS of a member: one whose BAL differs is ignored, with an event; a Lockstep module follows a slower
member (15 R531 to R534). -/
def sbTake (m : SbMsg) (s : State) : State :=
  if (m.bal == 1) != s.criticalPath then post (ev 0x63 none 2 [m.origin]) s
  else
    let s1 := setMember ⟨m.origin % 2 ^ 32, m.div % 256, m.power % 65536, m.cap % 65536, m.busy % 128, m.crit⟩ s
    if s1.devQual then s1 else setDiv (max s1.pwr.div s1.othersDiv) s1

/-- SB_MSG: a message of the module's group goes to Ivory and on to every other up port; another group's, one at 8 hops, one
seen before and one of a reserved TYPE are dropped (14 R514, 15 R532). -/
def execSbMsg (port : Nat) (m : SbMsg) (s : State) : Res :=
  .next (if 8 ≤ port || (s.rportOf port).state != 2 then s
    else if s.group == 0 || m.group != s.group || decide (8 ≤ m.hops)
      || s.rna.seenSb.any (fun x => x == (m.origin, m.seq)) || m.type != 1 then rTake port .sbMsg s
    else sbSend (fun n => n != port) { m with hops := m.hops + 1 } (sbTake m (sbNote m.origin m.seq (rTake port .sbMsg s))))

/-- The module's own STATUS (15 R532). -/
def State.status (s : State) (busy : Nat) : SbMsg :=
  { type := 1, hops := 0, group := s.group, origin := s.origin32, seq := s.rna.sbSeq, div := s.pwr.div
    power := s.pwr.watts / 25, cap := s.ownCap / 25, busy := min 100 busy
    crit := bitOf (s.reg 0x0500030).toNat 4 || s.pwr.phase.any (fun x => x.2 == some 3)
    bal := if s.criticalPath then 1 else 0 }

/-- SB_MSG_SEND: in a group, Ivory sends its STATUS on every up port (14 R514, 15 R532). -/
def execSbMsgSend (busy : Nat) (s : State) : Res :=
  .next (if s.group = 0 then s
    else
      let m := s.status busy
      let s1 := sbNote m.origin m.seq (s.withRna { s.rna with sbSeq := (s.rna.sbSeq + 1) % 65536 })
      sbSend (fun _ => true) m (setMember ⟨m.origin, m.div, m.power, m.cap, m.busy, m.crit⟩ s1))

/-- GROUP_MEMBER_SILENT: the member is dropped and named (15 R533). -/
def execGroupMemberSilent (origin : Nat) (s : State) : Res :=
  .next (if origin != s.origin32 && s.pwr.members.any (fun m => m.origin == origin) then
    post (ev 0x63 none 1 [origin]) (s.withPwr { s.pwr with members := s.pwr.members.filter (fun m => m.origin != origin) })
  else s)

/-! ## The brake -/

/-- PWRBRK_N_ASSERT (15 R537, 19 R632): the arrays are held; ignored while VIN36 is out of range. -/
def execPwrbrkNAssert (s : State) : Res := .next (if s.vinOut then s else s.withBoot { s.boot with pwrbrk := true })
/-- PWRBRK_N_RELEASE (15 R537, 19 R632). -/
def execPwrbrkNRelease (s : State) : Res := .next (if s.vinOut then s else s.withBoot { s.boot with pwrbrk := false })

/-! ## Registers -/

/-- PWR_STATUS (15 R547). -/
def State.pwrStatus (s : State) : Word :=
  let p := s.pwr
  let held := s.othersDiv != 0 && decide (p.div ≤ s.othersDiv) && decide (s.setpoint < p.div)
  let shared := match s.share with | some x => decide (x < s.ownCap) | none => false
  let limited := !s.devQual && (p.idle != 0 || decide (s.setpoint < p.div) && !held)
  BitVec.ofNat 64 (at_ (s.effCap / 25) 48 + at_ p.div 40 + at_ p.idle 24 + at_ (b2n s.boot.pwrbrk) 19 + at_ (b2n s.thermal) 18
    + at_ (b2n (!s.devQual && held || shared)) 17 + at_ (b2n limited) 16 + at_ (b2n p.heldSeen) 5 + at_ (b2n p.floorSeen) 4
    + at_ (b2n s.anyQual) 3 + at_ (b2n p.belowFloor) 2 + at_ (b2n s.slateHeld) 1)

/-- PWR_POWER (15 R548). -/
def State.pwrPower (s : State) : Word := BitVec.ofNat 64 (at_ s.boot.vin 32 + s.pwr.watts)

/-- PWR_GROUPSTAT (15 R549). -/
def State.groupStat (s : State) : Word :=
  if s.group = 0 then 0#64
  else
    let l := s.pwr.members
    let n := s.others.length + 1
    let gdiv := if s.criticalPath then 0 else max s.pwr.div s.othersDiv
    BitVec.ofNat 64 (at_ (s.share.getD 0 % 2 ^ 32) 32 + at_ gdiv 16 + at_ (min 255 (l.filter (isCritical l)).length) 8 + min 255 n)

/-- PWR_DIETEMPp (15 R550). -/
def State.dieTemp (s : State) (p : Nat) : Nat :=
  let t := look 0 s.pwr.temp p
  at_ (b2n (look false s.pwr.trip p)) 10 + at_ (b2n (decide (s.throttleAt p ≤ t))) 9 + at_ (b2n (decide (s.warnAt p ≤ t))) 8 + t

end Sys2Proof.Machine
end

