-- ==== Sys2Proof/Machine/Recovery.lean ====
section
/-!
DEFINITION. Timeouts, suspected and confirmed hangs, replay, the journal's mirrors, and losses of the host die and of Ranoa
dies (13 R467; 10 R350; 16 R563 to R572; 01 R34).
-/
namespace Sys2Proof.Machine

/-! ## Timeouts and hangs -/

/-- A part of a command that has not ended, on one of some positions. -/
def Cmd.openPart (c : Cmd) (pos : List Nat) : Option Part := c.parts.find? (fun p => !p.ended && has p.pos pos)

/-- Fence and reset a tile under 16 R563. -/
def resetTile (pos : Nat) (s : State) : State :=
  (clearTile pos (if s.fenced pos then s else fencePort pos false 3 s)).updTile pos (fun t => { t with resetting := true })

/-- Make a command a suspect: it raises HANG_SUSPECT and stops everywhere (16 R563 steps 1 to 3; R567 row 6 for one that
has sent a PUT). -/
def makeSuspect (tiles : List Nat) (c : Cmd) (s : State) : State :=
  let p := (c.openPart tiles).getD ⟨0, 0, (tiles.head?).getD 0, 0, false⟩
  let s1 := post (ev 0x22 (some p.pos) c.ring [p.num, c.seq]) s
  (stopForReplay c.ring c.seq 5 p.pos s1).updCmd c.ring c.seq (fun x =>
    { x with suspect := x.replayDue.isSome, resetPos := tiles })

/-- A RUN's timeout ends while it runs (16 R563): its tiles are fenced and reset, and it and every other command with a
part on them are suspects, stopped and restored. -/
def suspectRun (c : Cmd) (s : State) : State :=
  let tiles := ((c.parts.filter (fun p => !p.ended)).map Part.pos).eraseDups
  let others := s.disp.cmds.filter (fun x => !(x.ring == c.ring && x.seq == c.seq) && x.phase == .running && (x.openPart tiles).isSome)
  let all := sortBy Cmd.startedAt (c :: others)
  let s1 := all.foldl (fun st x => makeSuspect tiles x st) s
  let s2 := tiles.foldl (fun st p =>
    (resetTile p st).updTile p (fun t => { t with resets := s.time :: t.resets })) s1
  all.foldl (fun st x => if st.draining x.ring x.seq then st else restoreRegions x.ring x.seq st) s2

/-- The stalled access of a command: its reason and address; a wait for ATS or PRI is a stall too, without a reason of its own (10
R338, R350). -/
def State.stallOf (s : State) (c : Cmd) : Option (Nat × Nat) :=
  let waits : List (Nat × List XltWait) := s.xlt.stalls.map (fun x => (x.reason, x.waits)) ++ s.xlt.ats.map (fun a => (0, a.waits))
  waits.findSome? (fun x => (x.2.find? (fun w => s.waitOf w == some (c.ring, c.seq))).map (fun w => (x.1, w.dva)))

/-- A command's own timeout ends while an access of it is stalled: it ends with FAULT (10 R350). The reason of a stall that waits for
the host is free (log 12). -/
def stallEnds (c : Cmd) (reason dva : Nat) (s : State) : State :=
  let (f, s1) := s.draw 3
  if reason = 0 then endFault c.ring c.seq { status := 0x04, reason := f.toNat % 256, detail := dva } s1
  else endFault c.ring c.seq { status := 0x04, reason := reason, detail := dva } s

/-- Does a RUN's own timeout count for it now: it runs, and is neither stopped nor replayed as a suspect. -/
def Cmd.timed (c : Cmd) : Bool := c.phase == .running && c.kind == 1 && c.replayDue.isNone && !c.suspect

/-- A running RUN's timeout ends: with a stalled access it ends with FAULT (10 R350), else it is a suspect (16 R563). -/
def runTimeout (c : Cmd) (s : State) : State :=
  match s.stallOf c with
  | some (reason, dva) => stallEnds c reason dva s
  | none => suspectRun c s

/-- HEAD_TIMEOUT (13 R467, 10 R350, 15 R538): before it starts, a command completes with TIMEOUT; a running transfer stops
and completes with TIMEOUT, or with FAULT while an access of it is stalled; a running RUN is a suspect. -/
def execHeadTimeout (ring seq : Nat) (s : State) : Res :=
  .next (match s.cmdOf ring seq with
    | none => s
    | some c =>
      if s.arraysHeld then s
      else if c.phase = .head then promoteRing ring (endWith ring seq { status := 0x06 } s)
      else if c.timed then runTimeout c s
      else if c.phase = .running ∧ c.kind ≠ 1 then
        match s.stallOf c with
        | some (reason, dva) => stallEnds c reason dva s
        | none => endWith ring seq { status := 0x06 } s
      else s)

/-- RUN_TIMEOUT_SUSPECT (16 R563, 15 R538). -/
def execRunTimeoutSuspect (ring seq : Nat) (s : State) : Res :=
  .next (match s.cmdOf ring seq with
    | none => s
    | some c => if c.timed && !s.arraysHeld then runTimeout c s else s)

/-- Resets of a position in the last 24 h with no confirmed suspect (16 R566). -/
def State.recentResets (s : State) (pos : Nat) : Nat :=
  ((s.tileOf pos).resets.filter (fun t => decide (s.time ≤ t + 8640000000000))).length

/-- TILE_RESET_DONE (16 R563, R566, R570; 01 R14): the tile serves again; the third reset in 24 h with no suspect
confirmed fails it, as does a reset that does not succeed. -/
def execTileResetDone (pos : Nat) (ok : Bool) (s : State) : Res :=
  .next (if !(decide (pos ≤ 32) && (s.tileOf pos).resetting) || (ok && !s.linkReady pos) then s
    else if !ok || decide (3 ≤ s.recentResets pos) then tileLost pos 3 s
    else unfence pos 1800 (s.updTile pos (fun t => { t with resetting := false })))

/-! ## Replay -/

/-- Restore the local sync set to the values recorded at acceptance; waiters see each as a SET (07 R229). -/
def restoreLocals (c : Cmd) (s : State) : State := c.localVals.foldl (fun st o => syncSetOp o.1 63 o.2 st) s

/-- Is another suspect under replay, or is an earlier one still to be replayed (16 R564)? -/
def State.suspectWaits (s : State) (c : Cmd) : Bool :=
  s.disp.cmds.any (fun x => x.suspect && !(x.ring == c.ring && x.seq == c.seq) && x.phase == .running
    && (x.replayDue.isNone || decide (x.startedAt < c.startedAt)))

/-- May a command's replay start (16 R564, R567)? -/
def State.replayReady (s : State) (c : Cmd) : Bool :=
  !s.draining c.ring c.seq && (match c.replayDue with
    | some 2 => !s.fenced c.stopPort && !s.siteFailed c.stopPort
    | some 4 => s.memc.mapStep == 0
    | some 5 => !s.suspectWaits c
    | some _ => true
    | none => false)

/-- The command as it stands at the start of a replay. -/
def Cmd.anew (c : Cmd) : Cmd :=
  { c with replayDue := none, stopped := false, replays := c.replays + 1, taint := none, taints := 0, flags := 0#4
           items := [], item := 0, units := [], got := [], outDone := [], staging := false, tiles := [] }

/-- A replay starts: its event, regions and local set (16 R568, 13 R471). -/
def replayBegin (c : Cmd) (s : State) : State :=
  let s1 := restoreLocals c (restoreRegions c.ring c.seq (freeStopped c.ring c.seq s))
  let s2 := post (ev 0x24 none (c.ring + at_ (c.replayDue.getD 0) 16) [c.replays + 1, c.seq]) s1
  (liftBlocks c.ring c.seq s2).updCmd c.ring c.seq Cmd.anew

/-- The tiles of a suspect's replay run at the qualification point while it lasts (15 R524, 16 R564). -/
def suspectQual (ring seq : Nat) (s : State) : State :=
  match s.cmdOf ring seq with
  | none => s
  | some c =>
    let pos := (c.parts.map Part.pos).eraseDups
    pos.foldl (fun st p => qualVolt p st) ((leaveQual c s).updCmd ring seq (fun x => { x with qualAt := pos }))

/-- REPLAY_START (16 R564, R567, R568; 07 R229): a stopped RUN is restored and placed anew when it fits, or ends with
PART_FAILED when it never can; one that was stopped before it started is head again, and another command starts again from its first
step. -/
def execReplayStart (ring seq : Nat) (s : State) : Res :=
  .next (match s.cmdOf ring seq with
    | none => s
    | some c =>
      if !s.replayReady c || !(c.phase == .running || c.phase == .head) then s
      else if c.kind != 1 || c.phase == .head then
        let s1 := setReads (s.hif.reads.filter (fun r => match r.2 with
          | some (.migrate r q _) | some (.copy r q _ _) | some (.image r q _) => !(r == ring && q == seq) | _ => true)) s
        (replayBegin c s1).updCmd ring seq (fun x => { x with phase := .head })
      else if s.noRoom c c.count then endWith ring seq (partFailed c.stopPort) s
      else
        let s1 := replayBegin c s
        match placeCmd c.anew c.count s1 with
        | none => s
        | some s2 => if c.suspect then suspectQual ring seq s2 else s2)

/-- REPLAY_TIMEOUT (16 R565, 15 R538): the replay's tiles are reset again, the hang is confirmed, and the command ends with
HANG once the reset is over; the resets that led to it count no more (16 R566). -/
def execReplayTimeout (ring seq : Nat) (s : State) : Res :=
  .next (match s.cmdOf ring seq with
    | none => s
    | some c =>
      if !c.suspect || c.replayDue.isSome || c.phase != .running || s.arraysHeld then s
      else match c.parts.find? (fun p => !p.ended) with
        | none => s
        | some p =>
          let tiles := ((c.parts.filter (fun q => !q.ended)).map Part.pos).eraseDups
          let s1 := post (ev 0x23 (some p.pos) ring [p.num, seq]) s
          let s2 := endWith ring seq { status := 0x07, port := some p.pos, part := p.num } s1
          let s3 := c.resetPos.foldl (fun st q => st.updTile q (fun t => { t with resets := [] })) s2
          tiles.foldl (fun st q => tileReset q (if st.fenced q then st else fencePort q false 3 st)) s3)

/-! ## The journal -/

/-- The lowest-numbered stack that is up in a group of eight (16 R572). -/
def State.mirrorStack (s : State) (m : Nat) : Option Nat :=
  (List.range 8).find? (fun i => (s.stackOf (8 * m + i)).state == 0 && !s.fenced (33 + 8 * m + i)) |>.map (fun i => 8 * m + i)

/-- JOURNAL_MIRROR_REBUILD (16 R572): a mirror whose stack failed is rebuilt from the other one on the next stack that
qualifies. -/
def execJournalMirrorRebuild (mirror : Nat) (s : State) : Res :=
  .next (if 2 ≤ mirror then s
    else match s.mirrorStack mirror with
      | none => s.withDisp { s.disp with mirrorOk := setAt s.disp.mirrorOk mirror false }
      | some k =>
        let d := s.disp
        s.withDisp { d with mirrorOk := setAt d.mirrorOk mirror true
                            journal0 := if mirror = 0 then k else d.journal0
                            journal1 := if mirror = 1 then k else d.journal1 })

end Sys2Proof.Machine
end

