-- ==== Sys2Proof/Machine/Boot.lean ====
section
/-!
DEFINITION. Start-up from a cold module, the module's pins and its input voltage, the firmware image, its update and its
recovery, and the seal (17 R575 to R588; 01 R22 to R33; 18 R616 to R626; 19 R632 to R634).
-/
namespace Sys2Proof.Machine

/-! ## The image -/

/-- Bytes 0 to LENGTH − 1 of an image (17 R582). -/
def imgBytes (i : FwImage) : List Byte :=
  leBytes 4 i.magic ++ leBytes 2 i.target ++ leBytes 2 i.svn ++ leBytes 4 i.version ++ leBytes 4 (64 + i.payload.length)
    ++ List.replicate 48 0#8 ++ i.payload

/-- What is wrong with an image, as GLB_RECSTAT.REASON (17 R583, R588); 0 when it is valid. The checks are taken in the order
of R583 (log 45). -/
def imgReason (fused : Nat) (i : Option FwImage) : Nat :=
  match i with
  | none => 1
  | some x =>
    if x.magic != 0x4B564657 || x.target != 0x6400 then 4
    else if x.svn < fused then 3
    else if Config.kravelRsaOk (imgBytes x) x.rsaSig && Config.kravelSlhOk (imgBytes x) x.slhSig then 0
    else 2

/-! ## The manifest -/

/-- DIE_TYPE of a site (01 R11, R21). -/
def dieType (p : Nat) : Nat :=
  if p ≤ 32 then 1 else if p ≤ 48 then 2 else if p ≤ 52 then 3 else if p ≤ 56 then 4 else if p = 57 then 5
  else if p ≤ 59 then 6 else if p ≤ 61 then 7 else if p = 62 then 8 else 9

/-- Released revisions of a die type, as (letter, digit) (01 R22). -/
def releasedRevs : Nat → List (Nat × Nat)
  | 1 => [(0x41, 0x31), (0x42, 0x30)]
  | 2 => [(0x41, 0x32), (0x41, 0x33)]
  | 3 => [(0x41, 0x31)]
  | 4 => [(0x43, 0x31)]
  | 5 => [(0x42, 0x32)]
  | 6 => [(0x41, 0x31)]
  | 7 => [(0x41, 0x31), (0x41, 0x32)]
  | 8 => [(0x41, 0x31)]
  | _ => [(0x41, 0x32)]

/-- Is a manifest inside the compatibility matrix (01 R22)? Each type has one released revision where another die requires it,
so the minimum revisions follow from release. -/
def manifestOk (m : List DieInfo) : Bool :=
  m.length == 64 && (List.range 64).all (fun p => match m[p]? with
    | some d => (releasedRevs (dieType p)).any (fun r => r == (d.letter, d.digit))
    | none => false)

/-! ## Setup -/

/-- The RWL registers in increasing offset (18 R624). -/
def rwlRegs : List Nat :=
  [0x0100008, 0x0100010, 0x0300000, 0x0600000, 0x0600010, 0x0600400, 0x0600408, 0x0600410, 0x0600418, 0x0700000, 0x0800000,
   0x0B00000, 0x0B00004]

/-- Is an RWL field locked (18 R625, R626)? -/
def State.locked (s : State) : Bool := s.glb.sealBit || s.glb.sealed

/-- RWL registers start from the values recorded at the last seal, or their listed reset values (17 R581). -/
def applyRecorded (s : State) : State :=
  rwlRegs.foldl (fun st r => st.setReg r (look (regReset r) s.ivory.recorded r)) s

/-- Ivory records the RWL values; measurement 6 is the digest of the 13 registers, each as 8 bytes (18 R625, step 2). -/
def recordSetup (s : State) : State :=
  let vals := rwlRegs.map (fun r => s.reg r)
  s.withIvory { s.ivory with
    recorded := rwlRegs.foldl (fun m r => put (regReset r) m r (s.reg r)) s.ivory.recorded
    everSealed := true
    sealDigest := Config.sha384 (vals.flatMap (fun v => leBytes 8 v.toNat)) }

/-- Tier frames at the top of the HBM range in the mode in force, less what map-outs withdraw (09 R299). -/
def placeFrames (steps : Nat) (s : State) : State :=
  s.withMemc { s.memc with
    frameBase := s.unitsPerCh * 512 * 4096 - steps * 0x1000000000
    frameCount := steps * 65536 - s.memc.maps.length * s.framesLost
    stageBase := s.unitsPerCh * 512 * 4096 - steps * 0x1000000000
    ckptBase := s.unitsPerCh * 512 * 4096 - steps * 0x1000000000
    poolCkpt := 0 }

/-- The mode for a start: MODE 1 Indigo, else Cobalt (08 R254, R279). -/
def takeMode (s : State) : State := s.withMemc { s.memc with active := if s.regFld 0x0600000 1 0 = 1 then 1 else 0 }

/-- The staging area, the checkpoint area and the pool's checkpoint range as the seal places them. -/
def placeAreas (s : State) : State :=
  s.withMemc { s.memc with
    stageBase := s.memc.frameBase - s.stageGib * 0x40000000
    ckptBase := s.memc.frameBase - s.stageGib * 0x40000000 - s.ckptGib * 0x40000000
    poolCkpt := min (s.ckptPool * 0x10000000) (s.scratchLen 3) }

/-- The journal mirrors as the seal places them; the dispatcher accepts from then on. -/
def placeJournal (s : State) : State :=
  s.withDisp { s.disp with journal0 := (s.mirrorStack 0).getD 0, journal1 := (s.mirrorStack 1).getD 8
                           mirrorOk := [(s.mirrorStack 0).isSome, (s.mirrorStack 1).isSome], accepting := true }

/-- The pools' splits and the zeroed scratch ranges of the seal (09 R286). -/
def sealPools (s : State) : State :=
  let s1 := (List.range 4).foldl (fun st d => st.updPool d (fun x => { x with active := st.cacheSteps d })) s
  (List.range 4).foldl (fun st d => st.withMem (st.mem.zero (scratchBase d) (st.scratchLen d))) s1

/-- Step 3 of the seal: pool splits, zeroed scratch, frames, staging and checkpoint areas with the journal's mirrors, the
maps; step 4: SEALED, and the dispatcher starts fetching (18 R625; 09 R286, R295, R299; 12 R423; 13 R472; 16 R572). -/
def sealNow (s : State) : State :=
  let s1 := (s.tier.frames.map Prod.fst).foldl (fun st f => vacate f st) s
  let s2 := placeFrames s1.frameSteps (s1.withTier { s1.tier with frames := [], tmap := [] })
  placeJournal (placeAreas (sealPools (s2.withGlb { s2.glb with sealed := true, sealing := false })))

/-- SEAL (18 R625, steps 1 and 2): the RWL fields are locked and recorded. -/
def execSeal (who : Agent) (s : State) : Res :=
  .next (pfWrite who 0x0000018 (fun s =>
    if s.locked then s else recordSetup (s.withGlb { s.glb with sealBit := true, sealing := true })) s)

/-- SEAL_COMPLETE (18 R625, steps 3 and 4). -/
def execSealComplete (s : State) : Res := .next (if s.glb.sealing then sealNow s else s)

/-! ## Steps of a start -/

/-- Is start-up at a step? -/
def State.atStep (s : State) (n : Nat) : Bool := s.boot.phase == .step n
/-- Go to a step. -/
def toStep (n : Nat) (s : State) : State := s.withBoot { s.boot with phase := .step n }

/-- POWER_UP_START: step 1 of R576, with VIN36 in its operating range and no trip standing; the RWL registers start from what
Ivory recorded (17 R576, R580, R581; 07 R215; 15 R542). -/
def execPowerUpStart (vin : Nat) (s : State) : Res :=
  .next (if s.boot.phase == .off && !s.boot.thermtrip && decide (32000 ≤ vin) && decide (vin ≤ 40000) then
    takeMode (applyRecorded (toStep 1 (s.withBoot { s.boot with vin := vin })))
  else s)

/-- The boot ROM enters recovery: the host die with PF0 only (17 R586). -/
def enterRecovery (reason : Nat) (s : State) : State :=
  (s.withBoot { s.boot with phase := .recovery, hostEnabled := true }).withGlb { s.glb with recState := 1, recReason := reason }

/-- BOOT_ROM_LOADED: step 2. A manifest outside the matrix stops start-up for good; an absent or invalid image leads to
recovery (17 R576, R586; 01 R23). GLB_RECSTAT has no reason for a manifest fault; nobody can read it then. -/
def execBootRomLoaded (img : Option FwImage) (s : State) : Res :=
  .next (if !s.atStep 1 then s
    else
      let s1 := s.withIvory { s.ivory with flash := img }
      if !manifestOk s.glb.manifest then
        mgmtReply .manifestFault ((s1.withBoot { s1.boot with phase := .stopped 0, manifestFault := true }).withGlb
          { s1.glb with recState := 3, recReason := 0 })
      else if imgReason s.ivory.fusedSvn img != 0 then enterRecovery (imgReason s.ivory.fusedSvn img) s1
      else toStep 2 s1)

/-- DEBUG_STATE (17 R609). -/
def setDebug (v : Nat) (s : State) : State :=
  if s.ivory.debug = v then s else post (ev 0x94 none v []) (s.withIvory { s.ivory with debug := v })

/-- The Ivory firmware runs: the image in flash is the running one, GLB_FEATURES is computed, a pending unlock takes effect
(17 R585, R601; 01 R26). -/
def ivoryStarts (s : State) : State :=
  let s1 := (s.withIvory { s.ivory with running := s.ivory.flash }).withGlb { s.glb with features := featuresOf s.glb.manifest }
  if s1.ivory.debug = 1 then setDebug 2 s1 else s1

/-- IMAGE_VERIFIED: step 3. -/
def execImageVerified (s : State) : Res := .next (if s.atStep 2 then toStep 3 (ivoryStarts s) else s)

/-- A site's embedded regulators turn on, at the voltage of the qualification point (01 R13, R29; 15 R524). -/
def railOn (p : Nat) (s : State) : State := qualVolt p (s.withBoot { s.boot with regulator := put false s.boot.regulator p true })

/-- HOST_DIE_ENABLE: step 4. -/
def execHostDieEnable (s : State) : Res :=
  .next (if s.atStep 3 then railOn 57 (toStep 4 (s.withBoot { s.boot with hostEnabled := true })) else s)

/-- PACKAGE_RAIL_UP: step 5. A site recorded as failed stays off (01 R17, R29, R31). -/
def execPackageRailUp (s : State) : Res :=
  .next (if s.atStep 4 then
    (List.range 64).foldl (fun st p => if st.siteFailed p then st else railOn p st)
      (toStep 5 (s.withBoot { s.boot with rail := true }))
  else s)

/-- EMITTER_STABLE: step 6 (02 R65). -/
def execEmitterStable (standbyOk : Bool) (s : State) : Res :=
  .next (if s.atStep 5 then toStep 6 (s.withHub { s.hub with emitter := 0, standbyOk := standbyOk, bothFailed := false, rootLost := false })
  else s)

/-- RING_CALIBRATION_DONE: step 7. -/
def execRingCalibrationDone (s : State) : Res :=
  .next (if s.atStep 6 then
    (List.range 63).foldl (fun st p => if st.siteFailed p then st
      else st.updLink p (fun l => { l with calibrated := true, state := 1 })) (toStep 7 s)
  else s)

/-- The widths advertised for a port; a port not named advertises its nominal width on both sides. -/
def advOf (adv : List WidthAdv) (p : Nat) : WidthAdv :=
  (adv.find? (fun a => a.port == p)).getD ⟨p, nomWidth p, nomWidth p⟩

/-- Every die link of a list trains (02 R51 to R54). -/
def trainAll (ports : List Nat) (adv : List WidthAdv) (s : State) : State :=
  ports.foldl (fun st p =>
    if st.siteFailed p then st else trained p (advOf adv p).die (advOf adv p).hub st) s

/-- LINKS_TRAINED: step 8. -/
def execLinksTrained (adv : List WidthAdv) (s : State) : Res :=
  .next (if s.atStep 7 then trainAll (List.range 63) adv (toStep 8 s) else s)

/-- Does the self-test fail a tile: a fault beyond the two spare columns of an array or the two spare banks (01 R32, R33)? -/
def TileFaults.fails (f : TileFaults) : Bool := f.other || decide (2 < f.banks) || f.cols.any (fun c => decide (2 < c))

/-- TILE_SELF_TEST_DONE: step 9; of two failed tiles the lower logical number receives the spare (01 R14, R15, R33).
The spare in standby is handled last: a tile that the same test fails is mapped to it first, although the test fails the spare too,
and is then unbacked; the spec gives no order (log 52, DESIGN CHOICE). -/
def execTileSelfTestDone (faults : List TileFaults) (s : State) : Res :=
  .next (if s.atStep 8 then
    let bad := sortBy (fun (f : TileFaults) => (s.tileAt f.pos).getD 64) (faults.filter (fun f => TileFaults.fails f))
    bad.foldl (fun st f => tileLost f.pos 4 st) (toStep 9 s)
  else s)

/-- Channels that fail HBM training are mapped out, with those recorded; beyond 32 a channel fails its stack
(08 R255, R259). -/
def mapAtStart (failed : List Nat) (s : State) : State :=
  let s1 := s.withMemc { s.memc with maps := s.repair.mapouts, mapStep := 0, mapSlot := 0, mapWait := [] }
  failed.foldl (fun st c =>
    if 512 ≤ c ∨ has c st.memc.maps then st
    else if 32 ≤ st.memc.maps.length then failStack (c % 16) 4 st
    else
      let st1 := st.withMemc { st.memc with maps := st.memc.maps ++ [c] }
      post (ev 0x10 (some (33 + c % 16)) (c + 2 ^ 31) []) (st1.withRepair { st1.repair with mapouts := st1.memc.maps })) s1

/-- HBM_TRAINED: step 10. -/
def execHbmTrained (failed : List Nat) (s : State) : Res :=
  .next (if s.atStep 9 then placeFrames 4 (mapAtStart failed (toStep 10 s)) else s)

/-- Every HBM sector holds zeros with valid check words; no sector is poisoned (08 R254, R259). -/
def hbmZero (s : State) : State := s.withMem (s.mem.zero 0 0x10000000000)

/-- HBM_INITIALISED: step 11. -/
def execHbmInitialised (s : State) : Res := .next (if s.atStep 10 then hbmZero (toStep 11 s) else s)

/-- A part recorded as open is stored poisoned in flash, counted and named (09 R308, R320; 16 R560). -/
def poisonOpen (die part : Nat) (s : State) : State :=
  let s1 := s.withTier { s.tier with flash := s.tier.flash.poisonRange (part * 0x10000) 0x10000 }
  post (ev 0x04 (some (60 + die)) 1 [tierBase + part * 0x10000])
    (s1.updTdie die (fun d => { d with uncorr := satAdd 0xFFFF d.uncorr 1, openParts := del part d.openParts }))

/-- A tier die mounts: up, or read-only when its spare area is used up (09 R308, R313, R320). Parts recorded open are poisoned after a
loss of input power only; a warm reset has flushed them (R306), and their records end. -/
def mountDie (die : Nat) (ok power : Bool) (s : State) : State :=
  if (s.tdieOf die).state = 3 then s
  else if !ok then
    (if s.siteFailed (60 + die) then s else dieFailed (60 + die) 4 s).updTdie die (fun d => { d with state := 3 })
  else
    let s1 := s.updTdie die (fun d => { d with state := if d.spare ≤ 2 then 2 else 1 })
    if power then (s1.tdieOf die).openParts.foldl (fun st part => poisonOpen die part st) s1
    else s1.updTdie die (fun d => { d with openParts := [] })

/-- TIER_MOUNTED: step 12. -/
def execTierMounted (ok0 ok1 : Bool) (s : State) : Res :=
  .next (if s.atStep 11 then mountDie 1 ok1 true (mountDie 0 ok0 true (toStep 12 s)) else s)

/-- The runtime starts on the core dies that passed their self-test; the others are failed (17 R576). -/
def runtimeStarts (passed : List Nat) (s : State) : State :=
  (List.range 4).foldl (fun st d =>
    if st.siteFailed (53 + d) then st
    else if has d passed then st.withBoot { st.boot with runtimeUp := put false st.boot.runtimeUp d true }
    else (dieFailed (53 + d) 4 st).updCdie d (fun x => { x with failed := true })) s

/-- CORE_SELF_TEST_DONE: step 13. -/
def execCoreSelfTestDone (passed : List Nat) (s : State) : Res :=
  .next (if s.atStep 12 then runtimeStarts passed (toStep 13 s) else s)

/-- May READY be set: hub, Ivory and host die and one core die with a running runtime are up (17 R579)? -/
def State.mayReady (s : State) : Bool :=
  !s.hub.bothFailed && !s.boot.ivoryStop && s.boot.hostEnabled && !s.siteFailed 57
    && (List.range 4).any (fun d => look false s.boot.runtimeUp d && !s.siteFailed (53 + d))

/-- Sites that are failed (18 R616). -/
def State.failedSites (s : State) : Nat := (s.glb.site.filter (fun x => x.2 == 3)).length

/-- At READY: fuses are blown up to the SVN of the image, with an event, and dies failed or spared are reported (17 R579,
R584, R609). -/
def readyEvents (s : State) : State :=
  let svn := match s.ivory.running with | some i => min 128 i.svn | none => 0
  let s1 := if s.ivory.fusedSvn < svn then post (ev 0x92 none svn []) (s.withIvory { s.ivory with fusedSvn := svn }) else s
  let n := s1.failedSites + b2n (s1.glb.tilemap.any (fun p => p == some 32))
  if n = 0 then s1 else post (ev 0x90 none n []) s1

/-- READY is set and READY_OUT is high; the clocks leave the qualification point (17 R576; 15 R523, R524). -/
def setReady (s : State) : State :=
  let s1 := (s.withGlb { s.glb with ready := true, warmStep := 0 }).withBoot { s.boot with readyOut := true, phase := .ready }
  readyEvents (toSetpoint s1)

/-- READY_SET: step 14. -/
def execReadySet (s : State) : Res :=
  .next (if s.atStep 13 && s.mayReady then setReady s else s)

/-- STARTUP_STOPPED: READY cannot be reached, or 40 s have passed (17 R579, R588). -/
def execStartupStopped (reason : Nat) (s : State) : Res :=
  .next (match s.boot.phase with
    | .step _ =>
      mgmtReply (.stopped (reason % 16)) ((s.withBoot { s.boot with phase := .stopped (reason % 16), readyOut := false }).withGlb
        { s.glb with recState := 3, recReason := reason % 16 })
    | _ => s)

/-! ## Configuration space and PERST_N -/

/-- CONFIG_READY (17 R577). -/
def execConfigReady (s : State) : Res :=
  .next (if s.boot.hostEnabled && !s.boot.perst && !s.siteFailed 57 then s.withBoot { s.boot with configReady := true } else s)

/-- The sizes of PF0's 64-bit BARs, by the dword of the header that holds the lower half, and whether it is prefetchable (12 R412). -/
def barOf : Nat → Option (Nat × Bool)
  | 4 => some (0x4000000, false)
  | 6 => some (0x10000000000, true)
  | 8 => some (0x10000, false)
  | _ => none

/-- A BAR of PF0 as it reads: the type bits of a 64-bit memory BAR, and of the address the bits above the size, which the host sets
(12 R412; the layout of the header is that of PCI Express: PRESUMED, log 46). -/
def barDword (dword open_ : Nat) : Nat :=
  match barOf dword, barOf (dword - 1) with
  | some (n, pre), _ => open_ / n * n % 2 ^ 32 + (if pre then 0xC else 0x4)
  | none, some (n, _) => open_ * 2 ^ 32 / n * n / 2 ^ 32
  | none, none => open_

/-- What the capabilities of the endpoint report (12 R409, R412, R414), in bytes, bits and counts. -/
structure HostCaps where
  functions : Nat := 32
  maxPayload : Nat := 512
  maxReadRequest : Nat := 4096
  speeds : List Nat := [1, 2, 3, 4, 5, 6, 7]
  widths : List Nat := [2, 3, 4]
  ideStreams : Nat := 4
  translationUnit : Nat := 4096
  invalidateDepth : Nat := 32
  pageRequests : Nat := 512
  pasidWidth : Nat := 20
  pasidExecute : Bool := false
  pasidPrivileged : Bool := false
  vecsPf0 : Nat := 2048
  vecsVf : Nat := 64
  pbaPf0 : Nat := 0x8000
  pbaVf : Nat := 0x800
  deriving DecidableEq, Repr

/-- The endpoint's own; where its capability structures lie in configuration space, the spec does not say (log 46). -/
def hostCaps : HostCaps := {}

/-- A dword of configuration space: IDs as R411 gives them, BARs as R412, the rest an open value (log 46). A VF has its BARs in PF0's SR-IOV
capability, and none in its header. -/
def cfgDword (fn dword : Nat) : Word :=
  if dword = 0 then (if fn = 0 then 0x64002C4D#64 else 0x64012C4D#64)
  else if dword = 2 then 0x12000001#64
  else if dword = 11 then 0x00642C4D#64
  else if 4 ≤ dword ∧ dword ≤ 9 then (if fn = 0 then BitVec.ofNat 64 (barDword dword (Config.cfgSpace fn dword).toNat) else 0#64)
  else (Config.cfgSpace fn dword).setWidth 64

/-- CONFIG_REQUEST: RRS until configuration space is ready; in recovery only PF0 answers (17 R577, R586; 12 R411). -/
def execConfigRequest (fn dword : Nat) (s : State) : Res :=
  .next (if !s.boot.hostEnabled || s.boot.perst || s.siteFailed 57 then s
    else if !s.boot.configReady then s.tlpNow (.cfg fn dword .rrs)
    else if 32 ≤ fn ∨ (s.boot.phase == .recovery && fn != 0) then s.tlpNow (.cfg fn dword .unsupported)
    else s.tlpNow (.cfg fn dword (.ok (cfgDword fn dword))))

/-- PERST_N_DEASSERT (17 R577, 19 R632). -/
def execPerstNDeassert (s : State) : Res :=
  .next (if s.vinOut then s else s.withBoot { s.boot with perst := false, configReady := false })

/-! ## Input voltage -/

/-- VIN36 removed or below its range, or a shutdown (19 R634, 15 R542, R544): a standing trip ends with the removal. -/
def shutDown (s : State) : State :=
  powerOff (s.withBoot { s.boot with thermtrip := s.boot.thermtrip && decide (32000 ≤ s.boot.vin) })

/-- VIN36_OUT_OF_RANGE: before READY the package rail turns off and start-up begins again; after it, below 30 V or above 42 V
shuts down, and in between service goes on for a while (17 R580, 19 R634). -/
def execVin36OutOfRange (vin : Nat) (s : State) : Res :=
  let s1 := s.withBoot { s.boot with vin := vin % 65536, vinLow := decide (vin < 32000), vinHigh := decide (40000 < vin) }
  let out := decide (vin < 32000) || decide (40000 < vin)
  .next (if s.boot.phase == .ready then
      if vin < 30000 ∨ 42000 < vin then shutDown s1 else s1
    else if out then shutDown s1 else s1)

/-- VIN_LOW_TIMEOUT (19 R634). -/
def execVinLowTimeout (s : State) : Res := .next (if s.boot.phase == .ready && s.boot.vinLow then shutDown s else s)
/-- VIN_HIGH_TIMEOUT (19 R634). -/
def execVinHighTimeout (s : State) : Res := .next (if s.boot.phase == .ready && s.boot.vinHigh then shutDown s else s)

/-! ## Firmware update and recovery -/

/-- Does the boot ROM or the firmware answer on the management port (17 R607, 15 R544)? -/
def State.mgmtUp (s : State) : Bool :=
  !s.boot.ivoryStop && match s.boot.phase with
    | .step n => decide (2 ≤ n)
    | .ready | .recovery | .stopped _ => true
    | .off => false

/-- Does the Ivory firmware run? -/
def State.fwUp (s : State) : Bool := s.mgmtUp && s.ivory.running.isSome

/-- PLDM_FW_UPDATE: one update at a time; in recovery none while a GO runs (17 R585, R587). -/
def execPldmFwUpdate (s : State) : Res :=
  .next (if !s.fwUp && s.boot.phase != .recovery then s
    else if s.ivory.fwState != .idle || s.glb.recGo then mgmtReply (.fw false) s
    else mgmtReply (.fw true) (s.withIvory { s.ivory with fwState := .receiving }))

/-- FW_IMAGE_RECEIVED: an invalid image is refused and the flash not touched; a valid one is programmed (17 R585, R587). -/
def execFwImageReceived (img : FwImage) (s : State) : Res :=
  .next (if s.ivory.fwState != .receiving then s
    else
      let bad := imgReason s.ivory.fusedSvn (some img)
      let svn := at_ (img.svn % 256) 8
      if bad != 0 then
        let s1 := s.withIvory { s.ivory with fwState := .idle, fwBuf := none }
        let s2 := if s1.boot.phase == .recovery then s1.withGlb { s1.glb with recReason := bad } else s1
        mgmtReply (.fw false) (post (ev 0x91 none (3 + svn) []) s2)
      else
        let s1 := s.withIvory { s.ivory with fwState := .programming, fwBuf := some img, flash := none }
        let s2 := if s1.boot.phase == .recovery then s1.withGlb { s1.glb with recState := 2 } else s1
        post (ev 0x91 none (1 + svn) []) s2)

/-- A recovery image is in flash: start-up goes on from step 2 without a power cycle (17 R587). -/
def recoveryRestart (s : State) : State :=
  (toStep 1 (s.withIvory { s.ivory with fwState := .idle, fwBuf := none })).withGlb
    { s.glb with recState := 0, recReason := 0, recGo := false, recStatus := 0 }

/-- The end of programming and of the read-back compare (17 R585, steps 3 and 4; R587). -/
def programDone (ok : Bool) (s : State) : State :=
  let buf := s.ivory.fwBuf
  let svn := match buf with | some i => at_ (i.svn % 256) 8 | none => 0
  let s1 := s.withIvory { s.ivory with fwState := .idle, fwBuf := none, flash := if ok then buf else none }
  let s2 := mgmtReply (.fw ok) (if ok then post (ev 0x91 none (2 + svn) []) s1 else s1)
  if s2.boot.phase == .recovery then
    if ok then recoveryRestart s2 else s2.withGlb { s2.glb with recState := 1, recReason := 1 }
  else s2

/-- FW_PROGRAM_DONE (17 R585). -/
def execFwProgramDone (ok : Bool) (s : State) : Res := .next (if s.ivory.fwState == .programming then programDone ok s else s)

/-- ACTIVATE_FIRMWARE: self-contained activation requests a warm reset (17 R585, 18 R618). -/
def execActivateFirmware (s : State) : Res :=
  .next (if s.fwUp && s.boot.phase == .ready then s.withGlb { s.glb with warmWanted := some (s.glb.warmWanted.getD .software) } else s)

/-- RECOVERY_GO: GLB_RECCTL.GO starts reading an image from host memory, or gets status 0x4 while an update runs on the
management port (17 R587, R588). -/
def execRecoveryGo (addr len : Nat) (s : State) : Res :=
  .next (if s.boot.phase != .recovery || s.glb.recGo then s
    else
      let s1 := (s.setReg 0x0000908 (BitVec.ofNat 64 addr)).setReg 0x0000910 (BitVec.ofNat 64 (at_ (len % 2 ^ 26) 32))
      if s.ivory.fwState != .idle then s1.withGlb { s1.glb with recStatus := 4 }
      else s1.withGlb { s1.glb with recGo := true, recStatus := 1 })

/-- RECOVERY_PROGRAM_DONE: what the GO read has been checked, and programmed when valid; an image from the management port has
been programmed (17 R587, R588). -/
def execRecoveryProgramDone (img : Option FwImage) (s : State) : Res :=
  .next (if s.boot.phase != .recovery then s
    else if s.glb.recGo then
      match img with
      | none => s.withGlb { s.glb with recGo := false, recStatus := 3 }
      | some i =>
        let bad := imgReason s.ivory.fusedSvn (some i)
        if bad != 0 then s.withGlb { s.glb with recGo := false, recStatus := 2, recReason := bad }
        else recoveryRestart (s.withIvory { s.ivory with flash := some i })
    else if s.ivory.fwState == .programming then programDone true s
    else s)

end Sys2Proof.Machine
end

