-- ==== Sys2Proof/Machine/Matrix.lean ====
section
/-!
DEFINITION. The matrix instructions MMA and MDRAIN: their checks at issue and what the arrays do (03 R79 to R91, R95;
04 R117 to R139; 05 R166 to R174).
-/
namespace Sys2Proof.Machine

/-- The operands of an MMA (05 R166). -/
structure MmaOp where
  amask : Nat
  bank : Nat
  la : Lay
  lb : Lay
  ld : Lay
  m : Nat
  n : Nat
  k : Nat
  acc : Bool
  drn : Bool
  sea : Bool
  seb : Bool
  ta : Bool
  tb : Bool
  sat : Bool
  rnd : Nat
  dse : Option Nat
  deriving DecidableEq, Repr

/-- Read an MMA's operands from its word and the values it captured. -/
def MmaOp.of (w : BitVec 128) (sr : List Word) (lr : List LayReg) : MmaOp :=
  let l := fun i => Lay.of ((lr[i]?).getD 0#256)
  { amask := fld w 105 98, bank := fld w 97 97, la := l 0, lb := l 1, ld := l 2, m := (fld w 84 78 + 1) * 16
    n := (fld w 77 71 + 1) * 16, k := fld w 70 51 + 1, acc := fld w 50 50 == 1, drn := fld w 49 49 == 1
    sea := fld w 48 48 == 1, seb := fld w 47 47 == 1, ta := fld w 46 46 == 1, tb := fld w 45 45 == 1
    sat := fld w 44 44 == 1, rnd := fld w 43 42
    dse := if fld w 41 41 = 1 then some (fld ((sr[0]?).getD 0#64) 7 0) else none }

/-- The values an MMA captures (05 R146). -/
def mmaCap (x : Slot) (w : BitVec 128) : List Word × List LayReg :=
  ([x.sreg (fld w 40 35)], [x.lreg (fld w 96 93), x.lreg (fld w 92 89), x.lreg (fld w 88 85)])

/-- Rows of blocks (03 R86). -/
def blocksOf (n : Nat) : Nat := ceilDiv n 128
/-- The blocks of an output. -/
def MmaOp.nblocks (p : MmaOp) : Nat := blocksOf p.m * blocksOf p.n
/-- The arrays in the mask. -/
def maskCount (mask : Nat) : Nat := ((List.range 8).filter (fun k => bitOf mask k)).length
/-- Does any array receive more than one block (03 R88)? -/
def MmaOp.multi (p : MmaOp) : Bool := decide (maskCount p.amask < p.nblocks)
/-- Is LD used (05 R167)? -/
def MmaOp.usesLd (p : MmaOp) : Bool := p.drn || (p.acc && p.multi)
/-- The accumulator format (04 R120). -/
def MmaOp.accF (p : MmaOp) : Fmt := accFmt p.la.f p.lb.f (p.sea || p.seb)
/-- A's outer extent and K extent (05 R145). -/
def MmaOp.aDims (p : MmaOp) : Nat × Nat := if p.ta then (p.la.cols, p.la.rows) else (p.la.rows, p.la.cols)
/-- B's outer extent and K extent (05 R145). -/
def MmaOp.bDims (p : MmaOp) : Nat × Nat := if p.tb then (p.lb.rows, p.lb.cols) else (p.lb.cols, p.lb.rows)

/-- Step 1 of the checks: an empty mask, or an array that the slot does not hold. -/
def badMask (x : Slot) (mask : Nat) : Bool := mask == 0 || mask / 2 ^ x.arrays.length != 0

/-- An enabled scale that a rule forbids (04 R107, 05 R167). -/
def badScale (on : Bool) (l : Lay) : Bool := on && l.scaleBad

/-- A tile-store layout that breaks step 3 of the checks (05 R167). -/
def badLayout (scaled : Bool) (l : Lay) : Bool :=
  l.space == 1 || l.base % 64 != 0 || (scaled && l.sbase % 64 != 0) || l.stride % 64 != 0 || decide (l.stride < l.rowLen)

/-- The bytes of a scale matrix: first address and length (04 R126). -/
def Lay.scaleArea (l : Lay) (dims : Nat × Nat) : Nat × Nat :=
  let (r, c) := l.scaleDims dims.1 dims.2
  (l.sbase, r * c)

/-- Does the extent of a layout leave the window? -/
def Slot.outWin (x : Slot) (l : Lay) : Bool := !x.inWin l.base l.extent

/-- The checks of an MMA at issue, in their order (05 R167). -/
def mmaCheck (x : Slot) (w : BitVec 128) : Option Nat :=
  let (sr, lr) := mmaCap x w
  let p := MmaOp.of w sr lr
  let scaleOut := fun (on : Bool) (l : Lay) (d : Nat × Nat) => on && !x.inWin (l.scaleArea d).1 (l.scaleArea d).2
  firstFault [
    (badMask x p.amask, 0x04),
    (!roleMCode p.la.fmt || !roleMCode p.lb.fmt || ((p.drn || p.acc) && !roleDCode p.ld.fmt) || badScale p.sea p.la
      || badScale p.seb p.lb || (p.drn && p.rnd == 3), 0x02),
    (badLayout p.sea p.la || badLayout p.seb p.lb || (p.usesLd && badLayout false p.ld), 0x06),
    (decide (p.aDims.1 < p.m) || decide (p.aDims.2 < p.k) || decide (p.bDims.1 < p.n) || decide (p.bDims.2 < p.k)
      || (p.usesLd && (decide (p.ld.rows < p.m) || decide (p.ld.cols < p.n)))
      || (p.acc && p.multi && p.ld.f != p.accF) || (p.multi && !p.drn), 0x03),
    (x.outWin p.la || x.outWin p.lb || scaleOut p.sea p.la p.aDims || scaleOut p.seb p.lb p.bDims
      || (p.usesLd && x.outWin p.ld), 0x05)]

/-- The operands of an MDRAIN (05 R173). -/
structure DrainOp where
  amask : Nat
  bank : Nat
  atype : Nat
  ld : Lay
  m : Nat
  n : Nat
  rnd : Nat
  dse : Option Nat
  deriving DecidableEq, Repr

/-- Read an MDRAIN's operands. -/
def DrainOp.of (w : BitVec 128) (sr : List Word) (lr : List LayReg) : DrainOp :=
  { amask := fld w 105 98, bank := fld w 97 97, atype := fld w 96 95, ld := Lay.of ((lr[0]?).getD 0#256)
    m := (fld w 90 84 + 1) * 16, n := (fld w 83 77 + 1) * 16, rnd := fld w 76 75
    dse := if fld w 74 74 = 1 then some (fld ((sr[0]?).getD 0#64) 7 0) else none }

/-- The values an MDRAIN captures. -/
def drainCap (x : Slot) (w : BitVec 128) : List Word × List LayReg := ([x.sreg (fld w 73 68)], [x.lreg (fld w 94 91)])

/-- The checks of an MDRAIN at issue, in their order (05 R174). -/
def drainCheck (x : Slot) (w : BitVec 128) : Option Nat :=
  let (sr, lr) := drainCap x w
  let p := DrainOp.of w sr lr
  firstFault [
    (p.atype == 3, 0x01),
    (badMask x p.amask, 0x04),
    (!roleDCode p.ld.fmt || p.rnd == 3, 0x02),
    (badLayout false p.ld, 0x06),
    (decide (maskCount p.amask < blocksOf p.m * blocksOf p.n) || decide (p.ld.rows < p.m) || decide (p.ld.cols < p.n), 0x03),
    (x.outWin p.ld, 0x05)]

/-! ## Accumulator banks -/

/-- The place of an accumulator word. -/
def accKey (arr bank row col : Nat) : Nat := ((arr * 2 + bank) * 128 + row) * 128 + col
/-- Read an accumulator: in FP64 a1 holds the high half and a0 the low half (05 R171). -/
def readAcc (t : Tile) (f : Fmt) (arr bank row col : Nat) : Nat :=
  if f = .fp64 then
    (look 0#32 t.acc (accKey arr 1 row col)).toNat * 2 ^ 32 + (look 0#32 t.acc (accKey arr 0 row col)).toNat
  else (look 0#32 t.acc (accKey arr bank row col)).toNat
/-- Write an accumulator. -/
def writeAcc (f : Fmt) (arr bank row col v : Nat) (t : Tile) : Tile :=
  if f = .fp64 then
    let low := put 0#32 t.acc (accKey arr 0 row col) (BitVec.ofNat 32 v)
    { t with acc := put 0#32 low (accKey arr 1 row col) (BitVec.ofNat 32 (v / 2 ^ 32)) }
  else { t with acc := put 0#32 t.acc (accKey arr bank row col) (BitVec.ofNat 32 v) }
/-- The banks an accumulator format uses. -/
def banksOf (f : Fmt) (bank : Nat) : List Nat := if f = .fp64 then [0, 1] else [bank]
/-- Is a bank marked poisoned (03 R95)? -/
def bankPoison (t : Tile) (f : Fmt) (arr bank : Nat) : Bool := (banksOf f bank).any (fun b => has (arr * 2 + b) t.accPois)
/-- Mark a bank poisoned, or not. -/
def markBank (f : Fmt) (arr bank : Nat) (p : Bool) (t : Tile) : Tile :=
  { t with accPois := (banksOf f bank).foldl (fun l b => if p then ins (arr * 2 + b) l else del (arr * 2 + b) l) t.accPois }

/-! ## Draining -/

/-- Convert and write one row of a block: flags and the state (05 R168, R174; 04 R130 to R137). -/
def drainRow (pos : Nat) (x : Slot) (q : QInstr) (f : Fmt) (ld : Lay) (rnd : Nat) (dse : Option Nat) (n row col0 : Nat)
    (poison : Bool) (vals : List Nat) (s : State) : State × Sticky :=
  let cs := (List.range vals.length).map (fun i =>
    convert f ld.f dse (rndOf rnd x.seed x.part q.ord (row * n + col0 + i)) (ovfOf q.tctl) (ftzOf q.tctl) ((vals[i]?).getD 0))
  let (a, bs) := mergeRow (s.tileByte pos x.winBase) ld.f (ld.base + row * ld.stride) col0 ld.cols (cs.map Prod.fst)
  (storeTile pos x.winBase a bs poison s, cs.foldl (fun fl c => fl ||| c.2) 0#4)

/-- Drain a bank as block (i, j) of an m × n output (03 R81, R86; 05 R174). -/
def drainBlock (pos : Nat) (x : Slot) (q : QInstr) (f : Fmt) (ld : Lay) (rnd : Nat) (dse : Option Nat)
    (m n i j arr bank : Nat) (s : State) : State × Sticky :=
  let nr := min 128 (m - 128 * i)
  let nc := min 128 (n - 128 * j)
  let poison := bankPoison (s.tileOf pos) f arr bank
  (List.range nr).foldl (fun acc r =>
    let vals := (List.range nc).map (fun c => readAcc (acc.1.tileOf pos) f arr bank r c)
    let (s1, fl) := drainRow pos x q f ld rnd dse n (128 * i + r) (128 * j) poison vals acc.1
    (s1, acc.2 ||| fl)) (s, 0#4)

/-! ## Multiplying -/

/-- One element of an operand in its internal form, scaled (04 R117, R124 to R128): `o` and `k` are its outer and K
indices, `tr` whether the operand is stored as K by outer. -/
def operand (rd : Nat → Byte) (l : Lay) (ftz scaled kMajor : Bool) (dims : Nat × Nat) (o k : Nat) : Num × Sticky :=
  let (c, f1) := if kMajor then elemCode rd l.f (l.base + k * l.stride) o else elemCode rd l.f (l.base + o * l.stride) k
  let (v, f2) := l.f.decodeFtz ftz c
  if scaled then
    let (bo, bk) := l.blocks dims.1 dims.2
    let cols := (l.scaleDims dims.1 dims.2).2
    let sb := (rd (l.sbase + o / bo * cols + k / bk)).toNat
    (v.mul (scaleVal l.sfmt sb), f1 ||| f2)
  else (v, f1 ||| f2)

/-- The value of one cell (03 R80, R86; 04 R121 to R123): K advances in groups, each with one rounding. -/
def cellRun (rd : Nat → Byte) (p : MmaOp) (ftz : Bool) (start r q : Nat) : Nat × Sticky :=
  let g := pairGroup p.la.f p.lb.f
  (List.range (ceilDiv p.k g)).foldl (fun acc i =>
    let ks := (List.range (min g (p.k - i * g))).map (fun d => i * g + d)
    let ts := ks.map (fun k =>
      let (a, fa) := operand rd p.la ftz p.sea p.ta p.aDims r k
      let (b, fb) := operand rd p.lb ftz p.seb (!p.tb) p.bDims q k
      (a.mul b, fa ||| fb))
    let fin := ts.foldl (fun f t => f ||| t.2) acc.2
    let (v, fl) := if p.accF = .int32 then accInt p.sat acc.1 ((ts.map (fun t => t.1.toInt)).foldl (fun a b => a + b) 0)
      else accFloat p.accF ftz acc.1 (ts.map Prod.fst)
    (v, fin ||| fl)) (start, 0#4)

/-- The ranges of the tile store that the rows o0 onward of an operand take in a block, relative to the window. -/
def operandRanges (l : Lay) (scaled kMajor : Bool) (dims : Nat × Nat) (o0 n k : Nat) : List (Nat × Nat) :=
  let data := if kMajor then (List.range k).map (fun i => elemSpan l.f (l.base + i * l.stride) o0 n)
    else (List.range n).map (fun i => elemSpan l.f (l.base + (o0 + i) * l.stride) 0 k)
  if scaled then
    let (bo, bk) := l.blocks dims.1 dims.2
    let cols := (l.scaleDims dims.1 dims.2).2
    data ++ (List.range ((o0 + n - 1) / bo - o0 / bo + 1)).map (fun i =>
      (l.sbase + (o0 / bo + i) * cols, (k - 1) / bk + 1))
  else data

/-- Run one block of an MMA on its array (03 R86 to R89, R95): its inputs are verified, its cells computed from their
start values, its bank written, and it is drained when the MMA drains. -/
def mmaBlock (pos slot : Nat) (x : Slot) (q : QInstr) (p : MmaOp) (arrs : List Nat) (b : Nat) (s : State) : State × Sticky :=
  let mb := blocksOf p.m
  let i := b % mb
  let j := b / mb
  let c := arrs.length
  let arr := (arrs[b % c]?).getD 0
  let bank := Nat.xor p.bank (b / c % 2)
  let nr := min 128 (p.m - 128 * i)
  let nc := min 128 (p.n - 128 * j)
  let f := p.accF
  let ftz := ftzOf q.tctl
  let pre := if p.acc && p.multi then (List.range nr).map (fun r =>
    elemSpan f (p.ld.base + (128 * i + r) * p.ld.stride) (128 * j) nc) else []
  let ranges := operandRanges p.la p.sea p.ta p.aDims (128 * i) nr p.k
    ++ operandRanges p.lb p.seb (!p.tb) p.bDims (128 * j) nc p.k ++ pre
  let s1 := verifyTile pos slot 0 x.winBase ranges s
  let t := s1.tileOf pos
  let rd := s1.tileByte pos x.winBase
  let partBlk := decide (nr < 128) || decide (nc < 128)
  let poison := s1.tilePoison pos x.winBase ranges || (bankPoison t f arr bank && (partBlk || (p.acc && !p.multi)))
  let cells := (List.range nr).flatMap (fun r => (List.range nc).map (fun cc =>
    let start := if !p.acc then 0
      else if p.multi then (elemCode rd f (p.ld.base + (128 * i + r) * p.ld.stride) (128 * j + cc)).1
      else readAcc t f arr bank r cc
    (r, cc, cellRun rd p ftz start (128 * i + r) (128 * j + cc))))
  let s2 := s1.updTile pos (fun t =>
    markBank f arr bank poison (cells.foldl (fun u c => writeAcc f arr bank c.1 c.2.1 c.2.2.1 u) t))
  let fl := cells.foldl (fun a c => a ||| c.2.2.2) 0#4
  if p.drn then
    let (s3, fd) := drainBlock pos x q f p.ld p.rnd p.dse p.m p.n i j arr bank s2
    (s3, fl ||| fd)
  else (s2, fl)

/-- Cycles an array accumulates for one block (03 R91): T_blk. -/
def MmaOp.tblk (p : MmaOp) : Nat :=
  if p.la.f.slices = 1 && p.lb.f.slices = 1 then ceilDiv p.k (pairGroup p.la.f p.lb.f) else p.k * p.la.f.slices * p.lb.f.slices

/-- Cycles for which an array waits for a drain or a preload in one block of an MMA (03 R84, R91): the difference to a maximum of
the table, which the rule counts in steady state and this model for every block; in FP64 the preload of the block, and its drain when
another block of the array follows (log 20, DEDUCED). -/
def MmaOp.drainFull (p : MmaOp) (last : Bool) : Nat :=
  let pre := p.acc && p.multi
  if !p.drn then 0
  else if p.accF = .fp64 then (if pre then 256 else 0) + (if last then 0 else 256)
  else (if pre then 256 else 128) - p.tblk

/-- The freeze counters of an array that ran an MMA (03 R84, R85): cycles that a feeder starves, the scale feeder's only where scales are
enabled, and drain-full cycles behind an earlier instruction beside the `n` of the MMA's own, hang on bank conflicts and on timing, which
the block does not measure: each is a free count, and FRZANY lies between the greatest of them and their sum (log 8). -/
def countFreeze (pos a n : Nat) (scaled : Bool) (s : State) : State :=
  let (fa, s1) := s.draw 8
  let (fb, s2) := s1.draw 8
  let (fs, s3) := s2.draw 8
  let (fd, s4) := s3.draw 8
  let (fo, s5) := s4.draw 8
  let na := fa.toNat
  let nb := fb.toNat
  let ns := if scaled then fs.toNat else 0
  let nd := n + fd.toNat
  let most := max (max na nb) (max ns nd)
  let any := most + fo.toNat % (na + nb + ns + nd - most + 1)
  s5.updTile pos (fun t => countTel a 5 any (countTel a 4 nd (countTel a 3 ns (countTel a 2 nb (countTel a 1 na t)))))

/-- The counters of the arrays that ran an MMA (03 R85): accumulating cycles and freezes; the drain-full cycles of 03 R91 for each
block. -/
def countBusy (pos : Nat) (arrs : List Nat) (p : MmaOp) (s : State) : State :=
  let blocks := fun (i : Nat) => (List.range p.nblocks).filter (fun b => b % arrs.length == i)
  (List.range (min arrs.length p.nblocks)).foldl (fun st i =>
    let a := (arrs[i]?).getD 0
    let n := ((blocks i).map (fun b => p.drainFull (decide (p.nblocks ≤ b + arrs.length)))).sum
    countFreeze pos a n (p.sea || p.seb) (st.updTile pos (countTel a 0 ((blocks i).length * p.tblk)))) s

/-- An MMA on its arrays: its blocks in order of b, N outer and M inner (03 R86). -/
def mmaRun (pos slot : Nat) (x : Slot) (q : QInstr) (s : State) : State × Sticky :=
  let p := MmaOp.of q.word q.sregs q.lregs
  let arrs := x.maskArrays p.amask
  let (s1, fl) := (List.range p.nblocks).foldl (fun acc b =>
    let (s1, f1) := mmaBlock pos slot x q p arrs b acc.1
    (s1, acc.2 ||| f1)) (s, 0#4)
  (countBusy pos arrs p s1, fl)

/-- An MDRAIN: block b of the output comes from the b-th array of the mask (05 R174). -/
def drainRun (pos : Nat) (x : Slot) (q : QInstr) (s : State) : State × Sticky :=
  let p := DrainOp.of q.word q.sregs q.lregs
  let arrs := x.maskArrays p.amask
  let f : Fmt := if p.atype = 0 then .fp32 else if p.atype = 1 then .int32 else .fp64
  let mb := blocksOf p.m
  (List.range (mb * blocksOf p.n)).foldl (fun acc b =>
    let (s1, f1) := drainBlock pos x q f p.ld p.rnd p.dse p.m p.n (b % mb) (b / mb) ((arrs[b]?).getD 0) p.bank acc.1
    (s1, acc.2 ||| f1)) (s, 0#4)

/-- MMA is checked and queued at issue (05 R166, R167). -/
def execMma (pos slot : Nat) (s : State) : Res :=
  queueIssue pos slot 0x20 .matrix mmaCheck mmaCap (fun w => fld w 49 49 == 1) s

/-- MDRAIN is checked and queued at issue (05 R173, R174). -/
def execMdrain (pos slot : Nat) (s : State) : Res := queueIssue pos slot 0x21 .matrix drainCheck drainCap (fun _ => true) s

/-- MATRIX_INSTR_COMPLETE (05 R169 to R172): the instructions on one array complete in issue order; the arrays' work
is done in this step (log 20). -/
def execMatrixInstrComplete (pos slot id : Nat) (s : State) : Res :=
  .next (match s.slotOf pos slot with
    | none => s
    | some x =>
      match x.qm.find? (fun q => q.id == id) with
      | none => s
      | some q =>
        let before := (x.qm.takeWhile (fun i => i.id != id)).any (fun i => (i.arrays x).any (fun a => has a (q.arrays x)))
        if !q.started || before || s.arraysHeld then s
        else
          let (s1, fl) := if wOpc q.word = 0x20 then mmaRun pos slot x q s else drainRun pos x q s
          complete pos slot .matrix q fl s1)

end Sys2Proof.Machine
end

