-- ==== Sys2Proof/Machine/Warm.lean ====
section
/-!
DEFINITION. The warm device reset, its causes and its steps, the journal across it, and the stop of the Ivory die (16 R571, R572;
17 R581; 18 R616 to R618; 09 R310).
-/
namespace Sys2Proof.Machine

/-! ## Causes -/

/-- RSTCAUSE (18 R616). -/
def WarmCause.code : WarmCause → Nat
  | .software => 1 | .heartbeat => 2 | .hostDie => 3

/-- The die whose failure started the reset (16 R572): the hub die, or the host die; none for software. -/
def WarmCause.port : WarmCause → Option Nat
  | .software => none | .heartbeat => some 63 | .hostDie => some 57

/-- Step 1: the dispatcher stops accepting, READY_OUT goes low, polling stops; the recorded RWL values apply and the image in
flash is the running one; sync objects are 0 without waiters (16 R571; 17 R578, R581, R585; 07 R215). -/
def warmBegin (c : WarmCause) (s : State) : State :=
  let s1 := s.withGlb { s.glb with
    ready := false, warmWanted := none, warmStep := 1, warmPort := c.port, rstCause := c.code, sealBit := false, sealing := false }
  let s2 := (s1.withBoot { s1.boot with readyOut := false }).withDisp { s1.disp with
    accepting := false, fetched := [], ring := s1.disp.ring.map (fun r => (r.1, { r.2 with fetched := r.2.acc, want := r.2.acc })) }
  let s3 := (s2.withHif { s2.hif with polling := false }).withSync []
  applyRecorded (ivoryStarts s3)

/-- May a warm reset begin now: none is under way, no seal and no firmware programming (18 R618, 17 R585)? -/
def State.mayWarm (s : State) : Bool :=
  s.boot.phase == .ready && s.glb.warmStep == 0 && !s.glb.sealing && s.ivory.fwState != .programming && !s.boot.ivoryStop
    && !s.boot.serviceOver

/-- WARMRESET: a write of GLB_CTL.WARMRESET with the key asks for a warm reset; another key does nothing and raises an event
(18 R617, R618). -/
def execWarmreset (who : Agent) (key : Nat) (s : State) : Res :=
  .next (pfWrite who 0x0000018 (fun s =>
    if key % 256 != 0xA5 then setupRefused who 0x0000018 s
    else s.withGlb { s.glb with warmWanted := some (s.glb.warmWanted.getD .software) }) s)

/-- WARM_RESET_BEGIN: a warm reset asked for begins once nothing holds it back (16 R571, 18 R618). -/
def execWarmResetBegin (s : State) : Res :=
  .next (match s.glb.warmWanted with
    | some c => if s.mayWarm then warmBegin c s else s
    | none => s)

/-- HUB_HEARTBEAT_LOSS: a warm reset starts; when the hub die does not answer after its step 3, service ends (16 R571). A seal
or firmware programming under way is waited for, as for a request (18 R618). -/
def execHubHeartbeatLoss (s : State) : Res :=
  .next (if 3 ≤ s.glb.warmStep then mgmtReply .serviceOver (endService s)
    else if s.glb.warmStep != 0 || s.boot.phase != .ready then s
    else if s.mayWarm then warmBegin .heartbeat s
    else s.withGlb { s.glb with warmWanted := some .heartbeat })

/-- HOST_FAIL_WARM_RESET: after a host die failure, once no command is running or no session is held (16 R571). -/
def execHostFailWarmReset (s : State) : Res :=
  let busy := s.disp.cmds.any (fun c => c.phase == .running || c.phase == .ending || c.phase == .head)
  let held := allFns.any (fun f => s.held f)
  .next (if s.siteFailed 57 && s.mayWarm && !(busy && held) then warmBegin .hostDie s else s)

/-! ## Steps -/

/-- Ports that stay up through the first steps: stacks, tier dies, Ivory (16 R571). -/
def warmKeeps (p : Nat) : Bool := (decide (33 ≤ p) && decide (p ≤ 48)) || (decide (60 ≤ p) && decide (p ≤ 62))

/-- Fence a port for a warm reset: nothing goes to it or comes from it. -/
def warmFence (p : Nat) (s : State) : State :=
  if s.siteFailed p then s
  else
    let s1 := s.updLink p (fun l => { l with fenced := true, state := 3, width := 0, fencing := false, die := { l.die with wait := [] }
                                             hub := { l.hub with wait := [] } })
    if look 0 s1.glb.site p = 1 then s1 else s1.withGlb { s1.glb with site := put 0 s1.glb.site p 2 }

/-- Before the dies that hold copies of tier frames are fenced, the copies go back to the frames: the tiered range keeps its contents
(09 R306, R308; DEDUCED, log 39: step 2 fences the pool and core dies, step 3 flushes what is dirty in the frames). -/
def tiersHome (s : State) : State :=
  (s.tier.frames.filterMap (fun f => if f.2.filling then none else f.2.tile)).foldl (fun st t => recallTile t st) s

/-- WARM_RESET_FENCED: step 2. What was under way between the dies ends, and sync objects are 0 whatever it did to them since step 1
(16 R571, 15 R524, 07 R215). -/
def execWarmResetFenced (s : State) : Res :=
  .next (if s.glb.warmStep != 1 then s
    else
      let s1 := ((List.range 63).filter (fun p => !warmKeeps p)).foldl (fun st p => warmFence p st) (tiersHome s)
      let h := s1.hub
      let s2 := s1.withHub { h with voq := [], outst := [], bound := [], seen := [], dropped := [], mgmtSeen := [] }
      toQual (((s2.withGlb { s2.glb with warmStep := 2 }).withCounted []).withSync []))

/-- Every journal entry that a mirror holds is copied to the save area of each tier die that is up (09 R310, 16 R571). -/
def saveJournal (s : State) : State :=
  let l := (s.disp.cmds.filter (fun c => !c.lost)).map (fun c => (c.ring, c.seq))
  [0, 1].foldl (fun st d =>
    if (st.tdieOf d).state = 1 ∨ (st.tdieOf d).state = 2 then st.updTdie d (fun x => { x with save := l }) else st) s

/-- WARM_RESET_HUB_READY: step 3. The hub die is reset when it was the cause; the journal is saved and the tier is flushed
(16 R571; 09 R306, R310). -/
def execWarmResetHubReady (s : State) : Res :=
  .next (if s.glb.warmStep != 2 then s
    else
      let s1 := if s.glb.rstCause = 2 then s.withHub { emitter := s.hub.emitter, standbyOk := s.hub.standbyOk } else s
      let s2 := flushEnd (flushStart (saveJournal s1))
      s2.withGlb { s2.glb with warmStep := 3 })

/-- The host die after its reset: the PCIe link and its layers' state stay, what it held for the host does not (16 R571, R572):
a record on the link that was not acknowledged is held. -/
def hostReset (s : State) : State :=
  let h := s.hif
  let s1 := s.withHif { state := h.state, speed := h.speed, width := h.width, flit := h.flit, detaches := h.detaches
                        nextTag := h.nextTag, aer := h.aer, placeNext := h.placeNext }
  let s2 := s1.withDisp { s1.disp with cmds := s1.disp.cmds.map (fun c => if c.phase == .written then { c with phase := .held } else c) }
  (s2.withSess (s2.sess.map (fun x => (x.1, { x.2 with claiming := false, redel := [], redelBusy := false, redelSent := false })))).withMsix
    (s2.msix.map (fun v => (v.1, { v.2 with gathered := 0 })))

/-- Tile, pool, core and Ranoa dies and the hub's translation after their reset; what a die's own rules keep stays (16 R571; 01
R17; 03 R85; 09 R286; 11 R390; 10 R330). -/
def diesReset (s : State) : State :=
  let s1 := s.withTile []
  let s2 := (List.range 4).foldl (fun st d => st.updPool d (fun x => { state := if x.state = 2 then 2 else 0 })) s1
  let s3 := (List.range 4).foldl (fun st d => (resetCoreDie d st).updCdie d (fun x => { x with rec_ := 0 })) s2
  let s4 := s3.withStack ((List.range 16).foldl (fun m k => upd {} m k (fun x =>
    { x with state := (s.stackOf k).state, layersLost := (s.stackOf k).layersLost, corr := (s.stackOf k).corr
             uncorr := (s.stackOf k).uncorr, layerEv := (s.stackOf k).layerEv, scrubPasses := (s.stackOf k).scrubPasses })) [])
  let x := s4.xlt
  let s5 := s4.withXlt { root := x.root, rootOk := x.rootOk }
  let s6 := s5.withRna { port := [], seenSb := s5.rna.seenSb, sbSeq := s5.rna.sbSeq }
  s6.withTier { s6.tier with frames := [], tmap := [], wait := [], waitRec := [], fetching := [], asked := [], last := [], resident := [] }

/-- WARM_RESET_DIES_RESET: step 4. Every other die is reset and every link has completed full training; the host die returns
from its failure, other failed dies stay out of service; the spare is in standby unless a logical tile has it (16 R571; 01 R17;
17 R579). Pins end, and so do the enables of device-memory rings (09 R305, 16 R572). -/
def execWarmResetDiesReset (adv : List WidthAdv) (s : State) : Res :=
  .next (if s.glb.warmStep != 3 then s
    else
      let s1 := hostReset (diesReset s)
      let failed := (s1.glb.site.filter (fun x => x.2 == 3 && x.1 != 57)).foldl (fun m x => put 0 m x.1 3) []
      let site := if s1.glb.tilemap.any (fun p => p == some 32) || look 0 failed 32 == 3 then failed else put 0 failed 32 1
      let s2 := s1.withGlb { s1.glb with site := site, sealed := false, warmStep := 4 }
      let s3 := if s.siteFailed 57 then railOn 57 s2 else s2
      let s4 := trainAll (List.range 63) adv ((List.range 63).foldl (fun st p => if st.siteFailed p then st
        else st.updLink p (fun l => { l with fenced := false, fencing := false, paused := false, state := 1, calibrated := true
                                             die := {}, hub := {} })) s3)
      let s5 := (List.range 64).foldl (fun st n => st.setReg (tierPin n) (st.reg (tierPin n) &&& 0x7FFFFFFFFFFFFFFF#64)) s4
      let devs := (List.range 4096).filter (fun r => s5.ringDev r && s5.ringEn r)
      let s6 := devs.foldl (fun st r => st.setReg (ringCfg r) (st.reg (ringCfg r) &&& 0x7FFFFFFFFFFFFFFF#64)) s5
      s6.withDisp { s6.disp with watching := [], reserved := [] })

/-- WARM_RESET_HBM_TRAINED: step 5. The recorded map-outs apply, with the channels that fail now; the recorded mode takes effect
(16 R571; 08 R254, R255, R259). -/
def execWarmResetHbmTrained (failed : List Nat) (s : State) : Res :=
  .next (if s.glb.warmStep != 4 then s
    else
      let s1 := placeFrames s.frameSteps (mapAtStart failed (takeMode s))
      s1.withGlb { s1.glb with warmStep := 5 })

/-- WARM_RESET_HBM_INITIALISED: step 6. -/
def execWarmResetHbmInitialised (s : State) : Res :=
  .next (if s.glb.warmStep != 5 then s
    else
      let s1 := s.withMem {}
      s1.withGlb { s1.glb with warmStep := 6 })

/-- What becomes of a restored entry (16 R572, 07 R230): a completed one keeps its record, one without a record completes with
PART_FAILED and performs no signal list; its record is held until the claim, or until EN of a device-memory ring. -/
def restored (port : Option Nat) (c : Cmd) : Cmd :=
  match c.phase with
  | .done | .written | .held => { c with phase := .held, flushed := true }
  | _ => { ring := c.ring, seq := c.seq, desc := c.desc, sync := c.sync, regions := c.regions, locals := c.locals, check := c.check
           order := c.order, replays := c.replays, phase := .held, flushed := true, stopped := true
           out := { status := 0x0B, port := port } }

/-- WARM_RESET_TIER_REMOUNTED: step 7. The tier is mounted; the journal comes back from a save area whose copy verifies into new
mirrors; an entry that no such area holds produces no record (16 R572; 09 R308, R310). `bad`: the tier dies whose copy does not
verify. -/
def execWarmResetTierRemounted (bad : List Nat) (s : State) : Res :=
  .next (if s.glb.warmStep != 6 then s
    else
      let s0 := [0, 1].foldl (fun st d => if (st.tdieOf d).state = 3 then st else mountDie d true false st) s
      let saved := ([0, 1].filter (fun d => (s0.tdieOf d).state != 3 && !has d bad)).flatMap (fun d => (s0.tdieOf d).save)
      let kept := s0.disp.cmds.filter (fun c => saved.any (fun e => e == (c.ring, c.seq)))
      let lost := s0.disp.cmds.length - kept.length
      let s1 := s0.withDisp { s0.disp with
        cmds := kept.map (restored s0.glb.warmPort), journal0 := (s0.mirrorStack 0).getD 0, journal1 := (s0.mirrorStack 1).getD 8
        mirrorOk := [(s0.mirrorStack 0).isSome, (s0.mirrorStack 1).isSome] }
      let s2 := [0, 1].foldl (fun st d => st.updTdie d (fun x => { x with save := [] })) s1
      post (ev 0x44 none kept.length [lost]) (s2.withGlb { s2.glb with warmStep := 7 }))

/-- WARM_RESET_RUNTIME_STARTED: step 8. -/
def execWarmResetRuntimeStarted (passed : List Nat) (s : State) : Res :=
  .next (if s.glb.warmStep != 7 then s
    else
      let s1 := runtimeStarts passed (s.withBoot { s.boot with runtimeUp := [] })
      s1.withGlb { s1.glb with warmStep := 8 })

/-- WARM_RESET_READY: step 9. Sessions are held, their hold starting now; setup is sealed from the recorded values, and READY is
set (16 R571, R572; 17 R581; 18 R626). -/
def execWarmResetReady (s : State) : Res :=
  .next (if s.glb.warmStep != 8 || !s.mayReady then s
    else
      let s1 := s.withSess (s.sess.map (fun x =>
        if x.2.state == .none then x else (x.1, { x.2 with state := .held, deadline := s.time + s.holdSecs * 100000000 })))
      setReady (sealNow (recordSetup s1)))

/-! ## The Ivory die stops -/

/-- IVORY_DIE_STOP: the hub holds every array and asserts ALERT_N, and service ends until power is removed and restored
(16 R571). -/
def execIvoryDieStop (s : State) : Res := .next (endService (s.withBoot { s.boot with ivoryStop := true }))

end Sys2Proof.Machine
end

