-- ==== Sys2Proof/Machine/Mgmt.lean ====
section
/-!
DEFINITION. The management port and the DOE mailbox: attestation, sensors, the board limit, IDE keys; and owner requests
(17 R589 to R609; 12 R415).
-/
namespace Sys2Proof.Machine

/-! ## Measurements -/

/-- The body of the last OWNER_SET: the modulus big-endian, then the SLH-DSA public key (17 R601). -/
def ownerBody (v : Ivory) : List Byte := (leBytes 384 v.ownerRsa.toNat).reverse ++ leBytes 32 v.ownerSlh.toNat

/-- The mask of a function: every tile as shipped (17 R605). -/
def partMaskOf (v : Ivory) (f : Nat) : Nat := look 0xFFFFFFFF v.part f

/-- IVR_TLIMIT (17 R605). -/
def tlimitOf (v : Ivory) : Nat := at_ v.throttleOfs 8 + v.warnOfs

/-- A number that stands for the manifest entry of a site. -/
def dieNat (d : DieInfo) : Nat := at_ d.feat 16 + at_ d.letter 8 + d.digit

/-- The repair record as numbers. -/
def repairNats (r : Repair) : List Nat := r.failed ++ r.tilemap.map (fun p => p.getD 64) ++ r.mapouts ++ r.cores

/-- Measurement i (17 R593): a digest of the item, as it stands now; 48 zero bytes where the rule says so. How items 3, 4, 5
and 8 are laid out in bytes is open (log 47). -/
def State.measure (s : State) (i : Nat) : BitVec 384 :=
  let v := s.ivory
  if i = 1 then Config.bootRomDigest
  else if i = 2 then (match v.running with | some x => Config.sha384 (imgBytes x) | none => 0#384)
  else if i = 3 then Config.sha384 (Config.itemBytes 3 [v.fusedSvn, (v.running.map FwImage.svn).getD 0])
  else if i = 4 then Config.sha384 (Config.itemBytes 4 (s.glb.serial.toNat :: s.glb.features :: (s.glb.manifest.map dieNat ++ repairNats s.repair)))
  else if i = 5 then Config.sha384 (Config.itemBytes 5 [v.debug])
  else if i = 6 then v.sealDigest
  else if i = 7 then (if v.owned then Config.sha384 (ownerBody v) else 0#384)
  else if i = 8 then Config.sha384 (Config.itemBytes 8 (v.hard :: tlimitOf v :: (List.range 32).map (partMaskOf v)))
  else 0#384

/-! ## SPDM -/

/-- An SPDM request is answered while the firmware runs (17 R590, R607). -/
def spdm (k : State → MgmtReply) (s : State) : State := if s.fwUp then mgmtReply (k s) s else s

/-- Bytes of a chain. -/
def chainPart (c : List Byte) (off len : Nat) : List Byte := (c.drop off).take len

/-- SPDM_GET_CERTIFICATE: slot 0 holds the RSA chain, the other slots are empty (17 R590). -/
def execSpdmGetCertificate (slot off len : Nat) (s : State) : Res :=
  .next (spdm (fun s => if slot = 0 then .cert 0 (chainPart s.ivory.rsaChain off len) else .spdmError) s)

/-- The opaque data element that carries the SLH-DSA signature, and the two signatures of a response: the SLH-DSA one over the
input without opaque data, the RSA one over the response with it (17 R591). -/
def twoSigs (input : List Byte) : List Byte × List Byte :=
  let slh := Config.slhSign input
  (Config.rsaSign (input ++ slh), slh)

/-- SPDM_CHALLENGE (17 R591). -/
def execSpdmChallenge (req : List Byte) (s : State) : Res :=
  .next (spdm (fun _ => let g := twoSigs req; .challenge g.1 g.2) s)

/-- The values a MEASUREMENTS response carries: one index, or all of them for 0xFF (17 R593). -/
def State.measured (s : State) (index : Nat) : List (BitVec 384) :=
  if index = 0xFF then (List.range 8).map (fun i => s.measure (i + 1)) else if index = 0 then [] else [s.measure index]

/-- SPDM_GET_MEASUREMENTS: the values of this moment, dual-signed (17 R591, R593). Index 0 asks for their number and 0xFF for
all, as SPDM has it (log 48). -/
def execSpdmGetMeasurements (index : Nat) (req : List Byte) (s : State) : Res :=
  .next (spdm (fun s =>
    if 8 < index ∧ index ≠ 0xFF then .spdmError
    else
      let vals := s.measured index
      let g := twoSigs (req ++ vals.flatMap (fun v => leBytes 48 v.toNat))
      .measurements index vals g.1 g.2) s)

/-- SPDM_KEY_EXCHANGE (17 R591). -/
def execSpdmKeyExchange (req : List Byte) (s : State) : Res :=
  .next (spdm (fun _ => let g := twoSigs req; .keyExchange g.1 g.2) s)

/-- SPDM_VENDOR_DEFINED_REQUEST: request code 1 of vendor 0x2C4D returns bytes of the SLH-DSA chain (17 R590). -/
def execSpdmVendorDefinedRequest (vendor code off len : Nat) (s : State) : Res :=
  .next (spdm (fun s => if vendor = 0x2C4D ∧ code = 1 then .vendor 1 (chainPart s.ivory.slhChain off len) else .spdmError) s)

/-- IDE_KM_REQUEST: keys for one of the 4 selective streams and its requester-ID range (12 R409, R415). -/
def execIdeKmRequest (stream lo hi : Nat) (key : BitVec 256) (s : State) : Res :=
  .next (if !s.fwUp then s
    else if 4 ≤ stream then mgmtReply (.ide false) s
    else
      let l := s.ivory.ide ++ List.replicate (4 - s.ivory.ide.length) ({} : IdeStream)
      mgmtReply (.ide true) (s.withIvory { s.ivory with ide := setAt l stream ⟨lo % 65536, hi % 65536, key, true⟩ }))

/-! ## MCTP and PLDM -/

/-- MCTP_CONTROL: the bus owner assigns the endpoint ID (17 R607). -/
def execMctpControl (eid : Nat) (s : State) : Res :=
  .next (if s.mgmtUp then mgmtReply (.eid (eid % 256)) (s.withIvory { s.ivory with eid := eid % 256 }) else s)

/-- The device state sensor: starting, recovery, stopped, ready, sealed, as 0 to 4 (17 R608, log 49). -/
def State.deviceState (s : State) : Nat :=
  if s.glb.ready then (if s.glb.sealed then 4 else 3)
  else match s.boot.phase with | .recovery => 1 | .stopped _ => 2 | _ => 0

/-- The value behind a sensor (17 R608). -/
def State.sensor (s : State) : Sensor → Nat
  | .inputPower => s.pwr.watts
  | .inputVoltage => s.boot.vin
  | .inputEnergy => s.pwr.energy
  | .effectiveCap => s.effCap / 25
  | .floor => s.pwr.floor
  | .dieTemp p => look 0 s.pwr.temp (p % 64)
  | .stackTemp n => (s.stackOf (n % 16)).temp
  | .deviceState => s.deviceState
  | .dieState p => look 0 s.glb.site (p % 64)

/-- PLDM_GET_SENSOR_READING (17 R608). -/
def execPldmGetSensorReading (sensor : Sensor) (s : State) : Res :=
  .next (if s.fwUp then mgmtReply (.sensor sensor (s.sensor sensor) true) s else s)

/-- PLDM_SET_NUMERIC_EFFECTER: the board power limit, without a signature (17 R604). A value outside its range is not taken. -/
def execPldmSetNumericEffecter (limit : Nat) (s : State) : Res :=
  .next (if !s.fwUp then s
    else if limit < 0x3C ∨ 0x100 < limit then mgmtReply (.effecter false) s
    else
      let s1 := mgmtReply (.effecter true) (s.withIvory { s.ivory with board := limit })
      if s.ivory.board = limit then s1 else post (ev 0x95 none (25 * limit) []) s1)

/-! ## Owner requests -/

/-- Bytes 0 to 511 of a request, which both signatures cover (17 R600). -/
def ownerBytes (r : OwnerReq) : List Byte :=
  leBytes 2 r.cmd ++ leBytes 2 r.bodyLen ++ leBytes 4 r.reserved ++ leBytes 8 r.serial ++ leBytes 8 r.seq
    ++ (r.body ++ List.replicate 488 0#8).take 488

/-- A little-endian field of the body. -/
def bodyAt (r : OwnerReq) (off n : Nat) : Nat := leAt r.body off n

/-- BODYLEN of a command (17 R601). -/
def bodyLenOf (cmd : Nat) : Nat :=
  if cmd = 1 then 416 else if cmd = 2 then 2 else if cmd = 3 then 2 else if cmd = 4 then 8 else 0

/-- Is a body within its ranges (17 R601)? -/
def bodyOk (r : OwnerReq) : Bool :=
  if r.cmd = 2 then decide (0x3C ≤ bodyAt r 0 2) && decide (bodyAt r 0 2 ≤ 0x100)
  else if r.cmd = 3 then decide (bodyAt r 0 1 ≤ 15) && decide (bodyAt r 1 1 ≤ 15)
  else if r.cmd = 4 then decide (bodyAt r 0 1 ≤ 31) && decide (bodyAt r 1 3 = 0)
  else true

/-- Is a request malformed: its length, its BODYLEN, reserved bytes, or a value outside its range (17 R599 to R601)? -/
def malformed (r : OwnerReq) : Bool :=
  r.len != 8752 || r.bodyLen != bodyLenOf r.cmd || r.reserved != 0 || !bodyOk r
    || (r.body.drop r.bodyLen).any (fun b => b != 0#8)

/-- The keys a request must be signed with: the owner's, or with no owner the ones an OWNER_SET brings (17 R598, R601). -/
def ownerKeys (v : Ivory) (r : OwnerReq) : Option (BitVec 3072 × BitVec 256) :=
  if v.owned then some (v.ownerRsa, v.ownerSlh)
  else if r.cmd = 1 then
    some (BitVec.ofNat 3072 (leNat (r.body.take 384).reverse), BitVec.ofNat 256 (bodyAt r 384 32))
  else none

/-- The status of a request, in the order of the codes (17 R599, R602). A request that cannot be read, or has no key to be
checked with, gets the one code that says so. -/
def State.ownerStatus (s : State) (req : Option OwnerReq) : Nat :=
  match req with
  | none => 6
  | some r =>
    if malformed r then 1
    else if r.serial != s.glb.serial.toNat then 2
    else if r.seq ≤ s.ivory.ownerSeq then 3
    else match ownerKeys s.ivory r with
      | none => 5
      | some (rsa, slh) =>
        if Config.rsaOk rsa (ownerBytes r) r.rsaSig && Config.slhOk slh (ownerBytes r) r.slhSig then 0 else 4

/-- GLB_MBOXCTL's offset (17 R599). -/
def oMboxCtl : Nat := 0x0000808

/-- Does the mailbox serve a request of another agent (17 R602)? -/
def State.mboxBusy (s : State) (who : Agent) : Bool := match s.glb.mboxGo with | some w => w != who | none => false

/-- GO submits the request of an agent; while GO reads 1 another one is ignored with an event (17 R599, R602). -/
def mboxSubmit (who : Agent) (s : State) : State :=
  if s.glb.mboxGo.isSome then setupRefused who oMboxCtl s else s.withGlb { s.glb with mboxGo := some who }

/-- A request submitted through the mailbox (17 R598 to R602): while it serves another agent's, ignored with an event; else checked,
then SEQ rises and the effect follows; one event, and GO reads 0 again. -/
def ownerRequest (who : Agent) (cmd : Nat) (req : Option OwnerReq) (effect : OwnerReq → State → State) (s : State) : State :=
  pfWrite who oMboxCtl (fun s => if s.mboxBusy who then setupRefused who oMboxCtl s else
    let r := req.map (fun x => { x with cmd := cmd })
    let st := s.ownerStatus r
    let s1 := s.withGlb { s.glb with mboxStatus := st, mboxCmd := cmd, mboxGo := none }
    let s2 := match r with
      | some x => if st = 0 then effect x (s1.withIvory { s1.ivory with ownerSeq := x.seq % 2 ^ 64 }) else s1
      | none => s1
    post (ev 0x93 none (cmd + at_ st 8) [((r.map OwnerReq.seq).getD 0)]) s2) s

/-- OWNER_SET: the owner keys are replaced and SEQ restarts at 0 (17 R601). -/
def execOwnerSet (who : Agent) (req : Option OwnerReq) (s : State) : Res :=
  .next (ownerRequest who 0x01 req (fun r s =>
    s.withIvory { s.ivory with
      owned := true, ownerSeq := 0, ownerRsa := BitVec.ofNat 3072 (leNat (r.body.take 384).reverse)
      ownerSlh := BitVec.ofNat 256 (bodyAt r 384 32) }) s)

/-- SET_HARD_POWER (17 R601). -/
def execSetHardPower (who : Agent) (req : Option OwnerReq) (s : State) : Res :=
  .next (ownerRequest who 0x02 req (fun r s => s.withIvory { s.ivory with hard := bodyAt r 0 2 }) s)

/-- SET_THERMAL (17 R597, R601). -/
def execSetThermal (who : Agent) (req : Option OwnerReq) (s : State) : Res :=
  .next (ownerRequest who 0x03 req (fun r s =>
    s.withIvory { s.ivory with warnOfs := bodyAt r 0 1, throttleOfs := bodyAt r 1 1 }) s)

/-- SET_PARTITION (17 R596, R601). -/
def execSetPartition (who : Agent) (req : Option OwnerReq) (s : State) : Res :=
  .next (ownerRequest who 0x04 req (fun r s =>
    s.withIvory { s.ivory with part := put 0xFFFFFFFF s.ivory.part (bodyAt r 0 1) (bodyAt r 4 4) }) s)

/-- DEBUG_UNLOCK: unlock pending (17 R601). -/
def execDebugUnlock (who : Agent) (req : Option OwnerReq) (s : State) : Res :=
  .next (ownerRequest who 0x05 req (fun _ s => setDebug 1 s) s)

/-- DEBUG_LOCK (17 R601). -/
def execDebugLock (who : Agent) (req : Option OwnerReq) (s : State) : Res :=
  .next (ownerRequest who 0x06 req (fun _ s => setDebug 0 s) s)

end Sys2Proof.Machine
end

