-- ==== Sys2Proof/Machine/Router.lean ====
section
/-!
DEFINITION. The core interrupt routers and the event FIFOs: sources, delivery, claim and completion, pops and flushes
(11 R392 to R408, 13 R482 to R486, 16 R561).
-/
namespace Sys2Proof.Machine

/-! ## Router -/

/-- PRI of a source (11 R406). -/
def State.srcPri (s : State) (d n : Nat) : Nat := s.regFld (isrc d n) 7 0
/-- Is a core of the die in the TARGET set of a source (11 R406)? -/
def State.srcTarget (s : State) (d n i : Nat) : Bool := bitOf (s.regFld (isrc d n) 63 32) i

/-- Current priority of core i of a die: THRESH, or the highest PRI of the sources active on it (11 R395). -/
def State.curPri (s : State) (d i : Nat) : Nat :=
  (s.cdieOf d).router.src.foldl (fun m x => if x.2.active = some i then max m (s.srcPri d x.1) else m)
    (s.regFld (ithr (32 * d + i)) 7 0)

/-- Is a core eligible for a source (11 R395)? -/
def State.eligible (s : State) (d n i : Nat) : Bool := s.srcTarget d n i && decide (s.curPri d i < s.srcPri d n)

/-- The eligible core of lowest current priority, ties by rotation (11 R395). -/
def State.pickCore (s : State) (d n : Nat) : Option Nat :=
  let el := (List.range 32).filter (fun i => s.eligible d n i)
  let low := el.foldl (fun m i => min m (s.curPri d i)) 256
  rotPick 32 (s.cdieOf d).router.ptr (el.filter (fun i => s.curPri d i == low))

/-- Deliver a source to a core; the pointer moves past it (11 R395). -/
def deliver (d n i : Nat) (s : State) : State :=
  (s.updSrc d n (fun x => { x with delivered := some i })).updCdie d (fun x =>
    { x with router := { x.router with ptr := (i + 1) % 32 } })

/-- The external interrupt line SEIP of a core of the die, which its router drives: a source is delivered to it (11 R363, R392). -/
def State.seip (s : State) (d i : Nat) : Bool := (s.cdieOf d).router.src.any (fun x => x.2.delivered == some i)

/-- Withdraw the deliveries whose core is no longer eligible (11 R396). -/
def withdraw (d : Nat) (s : State) : State :=
  (s.cdieOf d).router.src.foldl (fun st x => match x.2.delivered with
    | some i => if st.eligible d x.1 i then st else st.updSrc d x.1 (fun y => { y with delivered := none })
    | none => st) s

/-- Pending sources that wait for delivery, in order of PRI and then of lower number (11 R395). -/
def State.waiting (s : State) (d : Nat) : List Nat :=
  let l := ((s.cdieOf d).router.src.filter (fun x => x.2.pending && x.2.delivered.isNone && x.2.active.isNone)).map Prod.fst
  sortBy (fun n => 256 - s.srcPri d n) l

/-- ROUTER_SOURCE_EVENT (11 R394). -/
def execRouterSourceEvent (die src : Nat) (s : State) : Res := .next (routerEvent die src s)

/-- ROUTER_TIME_EXPIRY: TIME µs after the first event the source is pending (11 R394). -/
def execRouterTimeExpiry (die src : Nat) (s : State) : Res :=
  .next (if (s.srcOf die src).gathered != 0 && s.regFld (isrc die src) 19 8 != 0 then
    s.updSrc die src (fun x => { x with pending := true })
  else s)

/-- ROUTER_DELIVERY: the first pending source with an eligible core is delivered (11 R395). -/
def execRouterDelivery (die : Nat) (s : State) : Res :=
  .next (match (s.waiting die).find? (fun n => (s.pickCore die n).isSome) with
    | none => s
    | some n => match s.pickCore die n with
      | some i => deliver die n i s
      | none => s)

/-- The source a core claims: the highest PRI delivered to it, the lower number on a tie (11 R397). -/
def State.claimable (s : State) (d i : Nat) : Option Nat :=
  let l := ((s.cdieOf d).router.src.filter (fun x => x.2.delivered == some i)).map Prod.fst
  (sortBy (fun n => 256 - s.srcPri d n) l).head?

/-- EVT_ICLAIMc's offset (11 R408). -/
def iclaim (c : Nat) : Nat := 0x04E0000 + 0x10 * c

/-- EVT_ICLAIM_READ: the claim, or ID 4095; another core reads 0 (11 R396, R397, R408). The claimed source's count is
returned and starts again. -/
def execEvtIclaimRead (core of : Nat) (s : State) : Res :=
  let d := core / 32
  let i := core % 32
  .next (if core != of then reply (.core core) (iclaim of) 0#64 s
    else match s.claimable d i with
      | none => reply (.core core) (iclaim of) 0xFFF#64 s
      | some n =>
        let v := BitVec.ofNat 64 (at_ (s.srcOf d n).gathered 20 + n)
        let s1 := s.updSrc d n (fun _ => { gathered := 0, pending := false, delivered := none, active := some i })
        withdraw d (reply (.core core) (iclaim of) v s1))

/-- EVT_ICLAIM_WRITE: completion of a source active on the core; one pending meanwhile is delivered again at once, to
this core when it is eligible (11 R398, R408). -/
def execEvtIclaimWrite (core of : Nat) (v : Word) (s : State) : Res :=
  let d := core / 32
  let i := core % 32
  let n := fld v 11 0
  .next (if core != of then setupRefused (.core core) (iclaim of) s
    else if (s.srcOf d n).active = some i then
      let s1 := s.updSrc d n (fun x => { x with active := none })
      if (s1.srcOf d n).pending then
        if s1.eligible d n i then deliver d n i s1
        else match s1.pickCore d n with
          | some j => deliver d n j s1
          | none => s1
      else s1
    else s)

/-- EVT_ITHR_WRITE: THRESH is stored and deliveries may be withdrawn (11 R396, R408). -/
def execEvtIthrWrite (core of : Nat) (v : Word) (s : State) : Res :=
  .next (if core != of then setupRefused (.core core) (ithr of) s
    else withdraw (core / 32) (s.setReg (ithr of) (v &&& 0xFF#64)))

/-- EVT_ISTAT_SET: one event (11 R393, R407). -/
def execEvtIstatSet (core die src : Nat) (s : State) : Res :=
  .next (if core < 128 then routerEvent die src s else s)

/-- EVT_ISTAT_PENDING_CLEAR: the source is withdrawn and its gathered events are discarded (11 R396, R407). -/
def execEvtIstatPendingClear (core die src : Nat) (s : State) : Res :=
  .next (if core < 128 then s.updSrc die src (fun x => { x with pending := false, delivered := none, gathered := 0 }) else s)

/-- EVT_ISRC_WRITE: the fields are stored and a delivery may be withdrawn; slot 4095 ignores writes (11 R396,
R406). -/
def execEvtIsrcWrite (core die src : Nat) (v : Word) (s : State) : Res :=
  .next (if core < 128 ∧ src < 4095 then withdraw die (s.setReg (isrc die src) v) else s)

/-- EVT_ISTATn (11 R407). -/
def State.istat (s : State) (d n : Nat) : Word :=
  let x := s.srcOf d n
  let core := match x.active, x.delivered with | some i, _ => i | none, some i => i | none, none => 0
  BitVec.ofNat 64 (at_ x.gathered 20 + at_ core 8 + at_ (b2n x.pending) 2 + at_ (b2n x.active.isSome) 1
    + b2n x.delivered.isSome)

/-- EVT_ITHRc as it reads (11 R408). -/
def State.ithrWord (s : State) (c : Nat) : Word :=
  BitVec.ofNat 64 (at_ (s.curPri (c / 32) (c % 32)) 16) ||| s.reg (ithr c)

/-! ## Event FIFOs -/

/-- Index of the oldest item of the most urgent priority (13 R483, 11 R402). -/
def firstItem (l : List (List Word)) : Option (List Word) :=
  let low := l.foldl (fun m i => min m (itemPri i)) 4
  l.find? (fun i => itemPri i == low)

/-- One read of a FIFO by a reader: the next word of its open item, or the first word of the next item, which moves
to its open buffer; 0 on an empty FIFO (13 R483, 11 R402). -/
def Fifo.pop (f : Fifo) (reader : Nat) : Word × Fifo :=
  match look [] f.opened reader with
  | w :: r => (w, { f with opened := put [] f.opened reader r })
  | [] => match firstItem f.items with
    | none => (0#64, f)
    | some [] => (0#64, { f with items := dropFirst (fun i => i == []) f.items })
    | some (w :: r) =>
      (w, { f with items := dropFirst (fun i => i == w :: r) f.items, opened := put [] f.opened reader r })

/-- Empty a FIFO and its open buffers (13 R485, 11 R404). -/
def Fifo.flush (f : Fifo) : Fifo := { f with items := [], opened := [] }

/-- CORE_FIFO_INSERT (11 R400, R401, R403; 16 R561). -/
def execCoreFifoInsert (die : Nat) (e : EvItem) (s : State) : Res := .next (postCore die e s)

/-- EVT_CPOPd's offset (11 R405). -/
def cpop (d : Nat) : Nat := 0x0480000 + 0x100 * d

/-- EVT_CPOP_READ (11 R402). -/
def execEvtCpopRead (core die : Nat) (s : State) : Res :=
  let (w, f) := (s.cdieOf die).fifo.pop core
  .next (reply (.core core) (cpop die) w (s.updCdie die (fun x => { x with fifo := f })))

/-- EVT_CCTL_FLUSH (11 R404). -/
def execEvtCctlFlush (core die : Nat) (s : State) : Res :=
  .next (if core < 128 then s.updCdie die (fun x => { x with fifo := x.fifo.flush }) else s)

/-- EVT_CSTATd (11 R405). -/
def State.cstat (s : State) (d : Nat) : Word :=
  BitVec.ofNat 64 (at_ (s.cdieOf d).fifo.lost 32 + (s.cdieOf d).fifo.words)

/-- EVT_CSTAT_READ: LOST is returned and cleared (11 R405). -/
def execEvtCstatRead (core die : Nat) (s : State) : Res :=
  .next ((reply (.core core) (cpop die + 0x10) (s.cstat die) s).updCdie die (fun x =>
    { x with fifo := { x.fifo with lost := 0 } }))

/-- HOST_FIFO_INSERT (13 R482, R484, R486; 16 R561). -/
def execHostFifoInsert (e : EvItem) (s : State) : Res := .next (postHost e s)

/-- EVT_POP_READ: a read of EVT_POP takes the next word, an open item's words going to whichever read comes next; a VF
reads 0 (13 R483, 18 R613). -/
def execEvtPopRead (who : Agent) (s : State) : Res :=
  .next (if s.hostGate who && isPf0OrCore who then
      let (w, f) := s.hfifo.pop 0
      reply who 0x0400000 w (s.withHfifo f)
    else shutRead who 0x0400000 s)

/-- EVT_CTL_FLUSH (13 R485). -/
def execEvtCtlFlush (who : Agent) (s : State) : Res :=
  .next (pfWrite who oEvtCtl (fun st => st.withHfifo st.hfifo.flush) s)

/-- EVT_LOST (13 R486). -/
def State.evtLost (s : State) : Word := BitVec.ofNat 64 s.hfifo.lost

/-- EVT_LOST_READ: LOST is returned and cleared (13 R486). -/
def execEvtLostRead (who : Agent) (s : State) : Res :=
  .next (if s.hostGate who && isPf0OrCore who then
      (reply who 0x0400010 s.evtLost s).withHfifo { s.hfifo with lost := 0 }
    else shutRead who 0x0400010 s)

/-- EVENT_SECOND_END: SUPPRESSED items are posted, and the counts of the second start again (16 R561). -/
def execEventSecondEnd (s : State) : Res :=
  let s1 := s.withHfifo { s.hfifo with posted := [], withheld := [] }
  let s2 := s.hfifo.withheld.foldl (fun st c => postHost (ev 0x0F none c.2 [c.1]) st) s1
  .next ((List.range 4).foldl (fun st d =>
    let w := (st.cdieOf d).fifo.withheld
    let st1 := st.updCdie d (fun x => { x with fifo := { x.fifo with posted := [], withheld := [] } })
    w.foldl (fun u c => postCore d (ev 0x0F none c.2 [c.1]) u) st1) s2)

end Sys2Proof.Machine
end

