-- ==== Sys2Proof/Machine/Registers.lean ====
section
/-!
DEFINITION. Writes of registers: the map of blocks and widths, the rules of access, what a VF may write, the fields each
register stores, and accesses that are refused (18 R610 to R626).
-/
namespace Sys2Proof.Machine

/-! ## The map -/

/-- Does an offset lie in an array of n registers or groups from a base? The group's number and the offset in it. -/
def inArr (base stride n off : Nat) : Option (Nat × Nat) :=
  if base ≤ off ∧ off < base + stride * n then some ((off - base) / stride, (off - base) % stride) else none

/-- Does an offset name a register of an array whose groups hold 64-bit registers at some offsets? -/
def hasReg (base stride n : Nat) (subs : List Nat) (off : Nat) : Bool :=
  match inArr base stride n off with | some (_, k) => has k subs | none => false

/-- Does an offset name a 64-bit register (18 R610; the registers' own tables)? -/
def isReg64 (off : Nat) : Bool :=
  has off [0x0, 0x8, 0x10, 0x18, 0x20, 0x28, 0x100, 0x800, 0x808, 0x900, 0x908, 0x910,
    0x0100000, 0x0100008, 0x0100010, 0x0100018, 0x0100020, 0x0100028, 0x0300000, 0x0400000, 0x0400008, 0x0400010, 0x0400018,
    0x0500000, 0x0500008, 0x0500010, 0x0500018, 0x0500020, 0x0500028, 0x0500030, 0x0500038,
    0x0600008, 0x0600010, 0x0600018, 0x0700000, 0x0700010, 0x0700018, 0x0700020, 0x0700028,
    0x0800000, 0x0800010, 0x0800018, 0x0900000, 0x0900010, 0x0F00000, 0x0F00008, 0x0F00010, 0x0F00018]
  || hasReg 0x0100100 0x40 32 [0, 8, 0x10, 0x18] off || hasReg 0x0101000 8 2048 [0] off || hasReg 0x0108200 8 1984 [0] off
  || hasReg 0x0180000 0x20 4096 [0, 8, 0x10, 0x18] off || hasReg 0x0200000 0x40 1024 [0] off
  || hasReg 0x0210000 0x40 4096 [0, 8, 0x10, 0x18, 0x20, 0x28, 0x30, 0x38] off || hasReg 0x0480000 0x100 4 [0, 8, 0x10] off
  || hasReg 0x04A0000 0x10 16384 [0, 8] off || hasReg 0x04E0000 0x10 128 [0, 8] off || hasReg 0x0600100 8 16 [0] off
  || hasReg 0x0600200 8 16 [0] off || hasReg 0x0600300 8 16 [0] off || hasReg 0x0600400 8 4 [0] off
  || hasReg 0x0600440 8 4 [0] off || hasReg 0x0680000 8 16384 [0] off || hasReg 0x0700100 8 64 [0] off
  || hasReg 0x0800100 0x20 8 [0, 8, 0x10, 0x18] off || hasReg 0x0801000 0x20 2048 [0, 8, 0x10] off
  || hasReg 0x0901000 0x20 1024 [0, 8, 0x10, 0x18] off || hasReg 0x0A01000 0x40 264 [0, 8, 0x10, 0x18, 0x20, 0x28, 0x30] off
  || hasReg 0x0B00100 8 64 [0] off || hasReg 0x0B00300 8 64 [0] off || hasReg 0x0F00100 8 32 [0] off
  || hasReg 0x0F00240 0x40 8 [0, 8, 0x10, 0x18, 0x20, 0x28] off || hasReg 0x0F01000 0x20 33 [0, 8, 0x10, 0x18] off
  || hasReg 0x1000000 0x40 8192 [0, 8, 0x10] off

/-- Does an offset name a 32-bit register? -/
def isReg32 (off : Nat) : Bool :=
  has off [0x0600000, 0x0900008, 0x0B00000, 0x0B00004] || hasReg 0x200 4 32 [0] off || hasReg 0x400 4 64 [0] off
  || hasReg 0x0500100 4 64 [0] off || hasReg 0x0600080 4 32 [0] off

/-- A reserved block range (18 R610, R611). -/
def reservedBlock (off : Nat) : Bool :=
  (decide (0x0C00000 ≤ off) && decide (off < 0x0F00000)) || (decide (0x1080000 ≤ off) && decide (off < 0x4000000))
/-- The IVR block (18 R610). -/
def ivrBlock (off : Nat) : Bool := decide (0x0F00000 ≤ off) && decide (off < 0x1000000)
/-- Registers that only cores reach (18 R612). -/
def internalOnly (off : Nat) : Bool :=
  (decide (0x0480000 ≤ off) && decide (off < 0x0500000)) || (decide (0x0680000 ≤ off) && decide (off < 0x0700000))
/-- The internal address of an offset (18 R610). -/
def internalAddr (off : Nat) : Nat := 0x030000000000 + off

/-- May a VF write the register: its own sessions, vectors, rings, fault rings, and what a rule of its own decides
(18 R613)? -/
def State.vfWrites (s : State) (fn off : Nat) : Bool :=
  (match inArr 0x0100100 0x40 32 off with | some (f, _) => f == fn | none => false)
  || (match inArr 0x0108000 0x200 32 off with | some (f, _) => f == fn | none => false)
  || (match inArr 0x0210000 0x40 4096 off with | some (r, _) => s.ringFn r == fn | none => false)
  || off == 0x0900008
  || (match inArr 0x0901000 0x20 1024 off with | some (c, k) => decide (0x10 ≤ k) && s.ctxFn c == fn | none => false)
  || (match inArr 0x1000000 0x40 8192 off with | some (_, k) => k == 0 | none => false)

/-! ## Storing fields -/

/-- The next state of a meaning that always answers one. -/
def after (r : Res) (s : State) : State := match r with | .next t => t | _ => s

/-- Store the writable fields of a register: RO and reserved bits keep what they hold (00 R10, 18 R611). -/
def storeMasked (off mask : Nat) (v : Nat) (s : State) : State :=
  s.setReg off ((s.reg off &&& ~~~BitVec.ofNat 64 mask) ||| BitVec.ofNat 64 (Nat.land v mask))

/-- Store an RWL register, clamped to its legal range; once setup is sealed the write is ignored with an event
(00 R10; 18 R625). -/
def storeRwl (who : Agent) (off v : Nat) (s : State) : State :=
  if s.locked then setupRefused who off s else s.setReg off (BitVec.ofNat 64 v)

/-! ## Blocks -/

/-- GLB: SEAL and WARMRESET, the mailbox's address and length, the recovery registers outside normal service
(17 R588, R599; 18 R617). GO of the mailbox makes the request wait there; its own row brings what it holds. -/
def glbWrite (who : Agent) (off v : Nat) (s : State) : State :=
  let rec_ : Bool := match s.boot.phase with | .recovery | .stopped _ => true | _ => false
  match off with
  | 0x18 =>
    let s1 := if bitOf v 0 then after (execSeal who s) s else s
    if bitOf v 1 then after (execWarmreset who (bitsOf v 15 8) s1) s1 else s1
  | 0x800 => s.setReg off (BitVec.ofNat 64 v)
  | 0x808 =>
    let s1 := if s.glb.mboxGo.isNone then storeMasked off 0x0000FFFF00000000 v s else s
    if bitOf v 63 then mboxSubmit who s1 else s1
  | 0x908 => if rec_ then s.setReg off (BitVec.ofNat 64 v) else s
  | 0x910 =>
    if !rec_ then s
    else if bitOf v 63 then after (execRecoveryGo (s.reg 0x908).toNat (bitsOf v 57 32) s) s
    else storeMasked off 0x03FFFFFF00000000 v s
  | _ => s

/-- A CMD written to HIF_SESSCTLf; REDEL_N is stored with it (12 R437). REDELIVER acts through its own row, which carries the
list. -/
def sessCtlWrite (who : Agent) (f v : Nat) (s : State) : State :=
  let s1 := storeMasked (sessReg f) 0xFFF00 v s
  match v % 8 with
  | 1 => after (execOpen who f s1) s1
  | 2 => after (execClaim who f s1) s1
  | 3 => after (execRelease who f s1) s1
  | _ => s1

/-- HIF (12 R436 to R439; 13 R451, R452, R481). -/
def hifWrite (who : Agent) (off v : Nat) (s : State) : State :=
  match inArr 0x0100100 0x40 32 off, inArr 0x0180000 0x20 4096 off with
  | some (f, k), _ =>
    match k with
    | 0 => sessCtlWrite who f v s
    | 8 => s.updSess f (fun x => { x with offered := BitVec.ofNat 64 v })
    | 0x10 => storeMasked off (2 ^ 64 - 0x40) v s
    | _ => storeMasked off (2 ^ 64 - 0x200) v s
  | none, some (n, k) =>
    match k with
    | 0 =>
      if bitOf v 63 then after (execHifPlapValidSet who n (BitVec.ofNat 64 v) s) s
      else if (s.win n).valid then after (execHifPlapValidClear who n s) s
      else storeMasked off 0x000000FFFFFF0000 v s
    | 8 => if (s.win n).valid then s else storeMasked off 0x007FFFFFFFFF0000 v s
    | 0x10 => if (s.win n).valid then s else storeMasked off 0xFFFFFFFFFFFF8000 v s
    | _ => if (s.win n).valid then s else storeMasked off 0xFFFFFFFF v s
  | none, none =>
    if off = 0x0100008 then storeRwl who off (clamp 1 3600 (v % 4096)) s
    else if off = 0x0100010 then storeRwl who off (clamp 1 64 (v % 128)) s
    else if off = 0x0100018 then storeMasked off 0x1FFFFFFFF v s
    else if 0x0101000 ≤ off ∧ off < 0x010C000 then storeMasked off 0x0FFF0FFF v s
    else s

/-- CTX_RCFGr: EN starts or stops fetching; while it is 1, SIZE, DEVMEM and CTX do not change; a VF changes neither DEVMEM
nor CTX (13 R446). -/
def ringCfgWrite (who : Agent) (r v : Nat) (s : State) : State :=
  let en := s.ringEn r
  let guarded := if en then 0 else if isPf0OrCore who then 0x4F0003FF00000000 else 0x0F00000000000000
  let s1 := storeMasked (ringCfg r) (0x3000000000003FFF + guarded) v s
  if bitOf v 63 && !en then after (execRingEnable who r s1) s1
  else if !bitOf v 63 && en then after (execRingDisable who r s1) s1
  else s1

/-- CTX (13 R442, R446, R474); the addresses of a ring change while it is enabled only when its function is held
(12 R425). -/
def ctxWrite (who : Agent) (off v : Nat) (s : State) : State :=
  match inArr 0x0210000 0x40 4096 off, inArr 0x0200000 0x40 1024 off with
  | some (r, k), _ =>
    let open_ := !s.ringEn r || s.held (s.ringFn r)
    match k with
    | 0 => ringCfgWrite who r v s
    | 8 => if open_ then storeMasked off (2 ^ 64 - 0x1000) v s else s
    | 0x10 => if open_ then storeMasked off (2 ^ 64 - 0x80) v s else s
    | 0x18 => if open_ then storeMasked off (2 ^ 64 - 0x1000) v s else s
    | 0x38 => if bitOf v 0 then after (execCtxRctlReset who r s) s else s
    | _ => s
  | none, some (c, _) => after (execCtxCfgWrite who c (BitVec.ofNat 64 v) s) s
  | none, none =>
    if off = 0x0300000 then storeRwl who off (at_ (clamp 0 8 (bitsOf v 15 12)) 12 + clamp 4 256 (v % 512)) s else s

/-- EVT: the host FIFO's control, and for cores their FIFOs, sources and claims (13 R486; 11 R405 to R408). -/
def evtWrite (who : Agent) (off v : Nat) (s : State) : State :=
  if off = oEvtCtl then
    let s1 := storeMasked off 0x0000FFFFF7FF0000 v s
    if bitOf v 0 then after (execEvtCtlFlush who s1) s1 else s1
  else match who with
    | .host _ => s
    | .core c =>
      match inArr 0x0480000 0x100 4 off, inArr 0x04A0000 0x10 16384 off, inArr 0x04E0000 0x10 128 off with
      | some (d, 8), _, _ =>
        let s1 := storeMasked off 0x0000FFFF00000000 v s
        if bitOf v 0 then after (execEvtCctlFlush c d s1) s1 else s1
      | _, some (i, 0), _ => after (execEvtIsrcWrite c (i / 4096) (i % 4096) (BitVec.ofNat 64 v) s) s
      | _, some (i, _), _ =>
        let s1 := if bitOf v 2 then after (execEvtIstatPendingClear c (i / 4096) (i % 4096) s) s else s
        if bitOf v 3 then after (execEvtIstatSet c (i / 4096) (i % 4096) s1) s1 else s1
      | _, _, some (o, 0) => after (execEvtIclaimWrite c o (BitVec.ofNat 64 v) s) s
      | _, _, some (o, _) => after (execEvtIthrWrite c o (BitVec.ofNat 64 v) s) s
      | _, _, _ => s

/-- PWR (15 R545 to R549): HELD_SEEN and FLOOR_SEEN clear by a write of 1. -/
def pwrWrite (who : Agent) (off v : Nat) (s : State) : State :=
  let w := BitVec.ofNat 64 v
  if off = 0x0500000 then after (execPwrCtlWrite who w s) s
  else if off = 0x0500008 then after (execPwrCapWrite who w s) s
  else if off = 0x0500010 then
    s.withPwr { s.pwr with heldSeen := s.pwr.heldSeen && !bitOf v 5, floorSeen := s.pwr.floorSeen && !bitOf v 4 }
  else if off = 0x0500030 then after (execPwrGroupWrite who w s) s
  else s

/-- A store to a doubleword of a command window (08 R274): the last one submits; another core's is dropped with an event. -/
def windowWrite (who : Agent) (off i v : Nat) (s : State) : State :=
  match who with
  | .host _ => s
  | .core c =>
    let (o, st, k) := (i / 128, i / 8 % 16, i % 8)
    if c != o then setupRefused who off s
    else if k = 7 then submit c st (v % 2 ^ 32) s
    else updWindow c st (fun w => { w with dw := setAt w.dw k (BitVec.ofNat 64 v) }) s

/-- MEM (08 R274, R279; 09 R315, R317): MODE is stored as written. -/
def memWrite (who : Agent) (off v : Nat) (s : State) : State :=
  match inArr 0x0680000 8 16384 off, inArr 0x0600400 8 4 off with
  | some (i, _), _ => windowWrite who off i v s
  | none, some _ => storeRwl who off (clamp 0 8 (v % 16)) s
  | none, none =>
    if off = 0x0600000 then storeRwl who off (v % 4) s
    else if off = 0x0600010 then storeRwl who off (clamp 1 8 (v % 16)) s
    else s

/-- TIER (09 R319, R323): a write that leaves DIRTYMAX as it is is no attempt to change it. -/
def tierWrite (who : Agent) (off v : Nat) (s : State) : State :=
  match inArr 0x0700100 8 64 off with
  | some (n, _) =>
    let valid := bitOf (s.reg (tierPin n)).toNat 63
    let s1 := if valid then pinClear n s else s
    if bitOf v 63 then pinSet who n (bitsOf v 24 0) (bitsOf v 49 25) s1
    else s1.setReg (tierPin n) (BitVec.ofNat 64 (v % 2 ^ 50))
  | none =>
    if off = 0x0700000 then
      let d := clamp 1 512 (bitsOf v 31 16)
      let s1 := if d = s.regFld off 31 16 then s else storeRwl who off (at_ d 16) s
      if bitOf v 0 then flushStart s1 else s1
    else s

/-- RNA (14 R501, R516, R519): an entry in use keeps its other fields. -/
def rnaWrite (who : Agent) (off v : Nat) (s : State) : State :=
  match inArr 0x0801000 0x20 2048 off with
  | some (i, k) =>
    match k with
    | 0 =>
      if bitOf v 63 then after (execRnaWoffValidSet who i (BitVec.ofNat 64 v) s) s
      else if (s.rwinAt i).valid then after (execRnaWoffValidClear who i s) s
      else storeMasked off 0x30000FFFFFFF0000 v s
    | 8 => if (s.rwinAt i).valid then s else storeMasked off 0x007FFFFFFFFF0000 v s
    | _ => if (s.rwinAt i).valid then s else storeMasked off 0xFFFFFFFFFFFFF800 v s
  | none => if off = 0x0800000 then storeRwl who off (v % 65536) s else s

/-- XLT_FRCTLc: setting EN starts the ring's counts anew; a VF leaves DEVMEM and DIE as they are, and an attempt to change
them raises an event (10 R347, R357, R360). -/
def frctlWrite (who : Agent) (c v : Nat) (s : State) : State :=
  let off := xltReg c + 0x18
  let old := (s.reg off).toNat
  let vf := !isPf0OrCore who
  let s1 := storeMasked off (if vf then 0x8FFF else 0xFFFF) v s
  let s2 := if bitOf v 15 && !bitOf old 15 then
      s1.withXlt { s1.xlt with frProd := put 0 s1.xlt.frProd c 0, frCons := put 0 s1.xlt.frCons c 0 }
    else s1
  if vf && bitsOf v 14 12 != bitsOf old 14 12 then setupRefused who off s2 else s2

/-- XLT (10 R354 to R360; 18 R613): XLT_RESUME takes any context of the writer's own, with GO or without. -/
def xltWrite (who : Agent) (off v : Nat) (s : State) : State :=
  match inArr 0x0901000 0x20 1024 off with
  | some (c, k) =>
    match k with
    | 8 => storeMasked off 0x800FFFFF v s
    | 0x10 => storeMasked off (2 ^ 64 - 0x1000 + 0xF) v s
    | 0x18 => frctlWrite who c v s
    | _ => s
  | none =>
    if off = 0x0900000 then storeMasked off 0xFFFF v s
    else if off = 0x0900008 then
      if bitOf v 31 then after (execXltResume who (v % 1024) s) s
      else if ownFn who (s.ctxFn (v % 1024)) then storeMasked off 0x3FF v s
      else setupRefused who off s
    else s

/-- HUB (02 R67, R68). -/
def hubWrite (who : Agent) (off v : Nat) (s : State) : State :=
  if off = 0x0B00000 then storeRwl who off (max 10 (v % 65536)) s
  else if off = 0x0B00004 then storeRwl who off (max 300 (v % 65536)) s
  else s

/-- SYNC (07 R222, R224, R225). -/
def syncRegWrite (who : Agent) (off v : Nat) (s : State) : State :=
  match inArr 0x1000000 0x40 8192 off with
  | some (n, 0) => after (execSyncValueWrite who n (BitVec.ofNat 64 v) s) s
  | some (_, 8) => storeMasked off 0x83FF0000 v s
  | _ => s

/-- A write of a register's width at its offset, by an agent that may write there. -/
def blockWrite (who : Agent) (off v : Nat) (s : State) : State :=
  if off < 0x0100000 then glbWrite who off v s
  else if off < 0x0200000 then hifWrite who off v s
  else if off < 0x0400000 then ctxWrite who off v s
  else if off < 0x0500000 then evtWrite who off v s
  else if off < 0x0600000 then pwrWrite who off v s
  else if off < 0x0700000 then memWrite who off v s
  else if off < 0x0800000 then tierWrite who off v s
  else if off < 0x0900000 then rnaWrite who off v s
  else if off < 0x0A00000 then xltWrite who off v s
  else if off < 0x0B00000 then s
  else if off < 0x0C00000 then hubWrite who off v s
  else if off < 0x1000000 then s
  else syncRegWrite who off v s

/-- A VF's write to a register that is not its own is ignored with an event (18 R613); through BAR0 the internal registers
ignore writes (R612). -/
def regWrite (who : Agent) (off v : Nat) (s : State) : State :=
  match who with
  | .core _ => blockWrite who off v s
  | .host f =>
    if f != 0 && !s.vfWrites f off then setupRefused who off s
    else if internalOnly off then s
    else blockWrite who off v s

/-! ## The rules of access -/

/-- An aligned write of 8 bytes: one 64-bit register, or two of 32 bits, the lower first (18 R620). -/
def write8 (who : Agent) (off : Nat) (v : Word) (s : State) : State :=
  if isReg64 off then regWrite who off v.toNat s
  else
    let s1 := if isReg32 off then regWrite who off (v.toNat % 2 ^ 32) s else s
    if isReg32 (off + 4) then regWrite who (off + 4) (v.toNat / 2 ^ 32) s1 else s1

/-- 8-byte writes in increasing offset (18 R620). -/
def writeSeq (who : Agent) (off : Nat) : List Word → State → State
  | [], s => s
  | v :: r, s => writeSeq who (off + 8) r (write8 who off v s)

/-- A host write to BAR0 (18 R620). -/
def hostWriteReg (who : Agent) (off size : Nat) (data : List Word) (s : State) : State :=
  let v := (data.head?).getD 0#64
  if size = 4 ∧ off % 4 = 0 then
    if isReg32 off then regWrite who off (v.toNat % 2 ^ 32) s
    else if isReg64 (off / 8 * 8) then setupRefused who off s
    else s
  else if size = 8 ∧ off % 8 = 0 then write8 who off v s
  else if 16 ≤ size ∧ size ≤ 64 ∧ size % 8 = 0 ∧ off % 8 = 0 ∧ off % 64 + size ≤ 64 then
    writeSeq who off ((data ++ List.replicate 8 0#64).take (size / 8)) s
  else setupRefused who off s

/-- The recovery registers answer while a start-up is stopped or in recovery (17 R588); every other BAR0 write is ignored until
READY (17 R578). -/
def State.bar0Open (s : State) (off : Nat) : Bool :=
  s.glb.ready || ((off == 0x908 || off == 0x910) && (match s.boot.phase with | .recovery | .stopped _ => true | _ => false))

/-- A core's access to a reserved block: RESP_ERR with reason 0x03, recorded as a store or load failure (18 R611; 11 R386,
R387). -/
def reservedAccess (core addr : Nat) (isWrite : Bool) (s : State) : State :=
  if isWrite then serrRecord core 0 addr 0x03 s
  else reply (.core core) addr 0xFFFFFFFFFFFFFFFF#64 (serrRecord core 1 addr 0x03 s)

/-- A core's store to the IVR block: RESP_ERR with reason 0x04 and SETUP_REFUSED (17 R594; 11 R386). -/
def ivrWrite (core off : Nat) (s : State) : State :=
  serrRecord core 0 (internalAddr off) 0x04 (setupRefused (.core core) off s)

/-- The SYNC block: 8,192 objects of 64 B (07 R216, R227). -/
def syncBlock (off : Nat) : Bool := decide (0x1000000 ≤ off) && decide (off < 0x1080000)

/-- A core's store to a register: of the register's width, else a store access fault (11 R364; 07 R227; 18 R620). -/
def coreWriteReg (c off size : Nat) (data : List Word) (s : State) : State :=
  let v := (data.head?).getD 0#64
  if reservedBlock off then reservedAccess c (internalAddr off) true s
  else if ivrBlock off then ivrWrite c off s
  else if 0x4000000 ≤ off then coreTrap c 7 (internalAddr off) s
  else if (isReg64 off && size == 8) || (isReg32 off && size == 4) then
    regWrite (.core c) off (v.toNat % 2 ^ (8 * size)) s
  else if isReg64 off || isReg32 off || isReg64 (off / 8 * 8) then coreTrap c 7 (internalAddr off) s
  else if syncBlock off && !(size == 8 && off % 8 == 0) then coreTrap c 7 (internalAddr off) s
  else if (size = 4 ∨ size = 8) ∧ off % size = 0 then s
  else coreTrap c 7 (internalAddr off) s

/-! ## The rows -/

/-- REGISTER_WRITE (18 R610 to R613, R620; 00 R10). -/
def execRegisterWrite (who : Agent) (off size : Nat) (data : List Word) (s : State) : Res :=
  .next (match who with
    | .core c => if s.hostGate who then coreWriteReg c off size data s else s
    | .host _ => if s.bar0Open off then hostWriteReg who off size data s else s)

/-- BAR0_MALFORMED_ACCESS (18 R620): a read receives Completer Abort, counted as Advisory Non-Fatal, a write is dropped with an
event; before READY a read returns 0 and a write is ignored (17 R578). -/
def execBar0MalformedAccess (fn off : Nat) (isWrite : Bool) (s : State) : Res :=
  .next (if !s.glb.ready then (if isWrite then s else reply (.host fn) off 0#64 s)
    else if isWrite then setupRefused (.host fn) off s
    else aerError (replyAbort (.host fn) off s))

/-- CORE_RESERVED_REGISTER_ACCESS (18 R611). -/
def execCoreReservedRegisterAccess (core addr : Nat) (isWrite : Bool) (s : State) : Res :=
  .next (if 0x030000000000 ≤ addr ∧ reservedBlock (addr - 0x030000000000) then reservedAccess core addr isWrite s else s)

/-- IVR_INTERNAL_WRITE (17 R594). -/
def execIvrInternalWrite (core off : Nat) (s : State) : Res := .next (if ivrBlock off then ivrWrite core off s else s)

end Sys2Proof.Machine
end

