-- ==== Sys2Proof/Machine/Resp.lean ====
section
/-!
DEFINITION. Responses that reach their requester (02 R39, R43, R50, R60, R61; 07 R231; 09 R290; 11 R366, R372 to R376;
12 R420; 14 R505 to R512; 16 R552 to R556).
-/
namespace Sys2Proof.Machine

/-! ## What the mover does with an answer -/

/-- The DVA from which a packet of a GATHER takes its first row piece (06 R196). -/
def QInstr.gatherDva (q : QInstr) (pk : Nat) : Nat :=
  let p := q.move
  let nb := max 1 (p.ls.f.rowBytes p.lt.cols)
  let place := match q.sent.find? (fun e => e.1 == pk) with
    | some (_, _, g :: _) => g.1
    | _ => 0
  let idx := if p.mode = 0 then q.idx else q.idx.drop (p.lt.rows + 1)
  p.ls.base + (idx[place / nb]?).getD 0 * p.ls.stride + place % nb

/-- The DVA that an answer to a move is about. -/
def QInstr.answerDva (q : QInstr) (off : Nat) : Nat := if wOpc q.word = 0x82 then q.gatherDva off else off

/-- Does the mover verify the check words of data it receives (16 R552)? It carries them in a plain copy of whole sectors. -/
def QInstr.verifies (q : QInstr) : Bool := !((wOpc q.word == 0x80 || wOpc q.word == 0x86) && q.carries)

/-- Data reaches a move: kept by its place, with the poison of its sectors and the check words that differ from their
data's when the move carries them (06 R191, R196; 08 R272). -/
def moveKeep (off : Nat) (p : Pkt) (poison : Bool) (bad : List Nat) (q : QInstr) : QInstr :=
  let k := max 1 (ceilDiv p.payload.length 64)
  let chunk := (q.got.filter (fun g => g.1 == off)).length
  let pois := if !poison then []
    else if wOpc q.word = 0x82 then [off * 64 + chunk]
    else (List.range k).map (fun i => off / 64 + i)
  let cks := if q.verifies then [] else bad.filterMap (fun i => (p.checks[i]?).map (fun c => (off / 64 + i, c)))
  { q with got := q.got ++ [(off, p.payload)], pois := q.pois ++ pois, cks := q.cks ++ cks, waitAns := q.waitAns - 1 }

/-- RESP_DATA for a move (16 R552 to R556): check words are verified unless the copy carries them; poisoned data taints
the command, but for the all-ones data of a cut command's read (12 R420). -/
def moveData (pos slot id off : Nat) (o : Outst) (p : Pkt) (s : State) : State :=
  match s.moveOf pos slot id with
  | none => s
  | some (x, q) =>
    let cut := p.poison && p.addr % 256 == 4 && p.src == 57 && !s.attached (s.ringFn x.ring)
    let bad := badSectors p.payload p.checks
    let fails := q.verifies && !p.poison && !bad.isEmpty
    let s1 := if fails then bad.foldl (fun st i => evCheckword 1 false pos (o.addr / 64 * 64 + 64 * i) st) s else s
    let region := match s1.cmdOf x.ring x.seq with | some c => c.regionFor (q.answerDva off) | none => 0xE
    let first := if fails then 64 * (bad.head?).getD 0 else 0
    let finder := if fails then pos else p.src
    let s2 := if (p.poison || fails) && !cut then
        taintCmd x.ring x.seq
          { status := 0x05, port := some finder, detail := o.addr / 64 * 64 + first, region := region } s1
      else s1
    updQ pos slot .move id (moveKeep off p (p.poison || fails) bad) s2

/-- RESP_ACK for a move: a write is at its home; an ENGINE packet's answer carries flags (08 R273, 04 R139). -/
def moveAck (pos slot id : Nat) (o : Outst) (p : Pkt) (s : State) : State :=
  let fl : Sticky := if o.op = .engine then BitVec.ofNat 4 (p.addr % 16) else 0#4
  updQ pos slot .move id (fun q => { q with waitAns := q.waitAns - 1, flags := q.flags ||| fl }) s

/-- Is an error answer with a Ranoa reason on its way to a request? -/
def State.peerErrComes (s : State) (o : Outst) : Bool :=
  (s.hub.voq.map Voq.pkt ++ (s.linkOf o.dst).die.wait.map Prod.snd).any (fun p => p.dst == o.src && p.tid == o.tid
    && (p.op == .respErr || p.op == .respData && p.poison) && decide (256 ≤ p.addr % 65536))

/-- The first byte of a PUT's or GET's rows in memory at or after a place; the place itself when there is none. -/
def QInstr.rowByte (q : QInstr) (off : Nat) : Nat :=
  let l := if wOpc q.word = 0x85 then q.move.lt else q.move.ls
  let starts := ((List.range l.rows).map (fun r => l.base + r * l.stride)).filter (fun a => decide (off < a + l.rowLen))
  match starts.map (max off) with
  | [] => off
  | a :: t => t.foldl min a

/-- The requests that wait or are outstanding, by use. -/
def State.uses (s : State) : List Use := s.hub.outst.map Outst.use ++ s.hub.bound.map Prod.snd

/-- The cut point that a failed PUT or GET of a command reports (06 R202, 14 R509): the first DVA not acknowledged or received of its
earliest-issued move that failed, by an answer taken (for move `id` at `off`) or on its way. Moves of several parts are compared by
their numbers within their slots (log 62, DESIGN CHOICE). -/
def State.cutPoint (s : State) (c : Cmd) (pos slot id off : Nat) : Nat :=
  let mine := (s.slotsFor c).map (fun p => (p.1, p.2.1))
  let failed := s.hub.outst.filterMap (fun o => match o.use with
    | .move p k i _ => if mine.any (fun m => m == (p, k)) && s.peerErrComes o then some (p, k, i) else none
    | _ => none)
  let first := failed.foldl (fun b x => if x.2.2 < b.2.2 then x else b) (pos, slot, id)
  let sent := s.uses.filterMap (fun u => match u with
    | .move p k i a => if (p, k, i) = first then some a else none
    | _ => none)
  let waits := match s.moveOf first.1 first.2.1 first.2.2 with | some (_, q) => q.pieces.map Piece.off | none => []
  let low := match sent ++ waits ++ (if first = (pos, slot, id) then [off] else []) with
    | [] => off
    | a :: l => l.foldl min a
  match s.moveOf first.1 first.2.1 first.2.2 with
  | some (_, q) => q.rowByte low
  | none => low

/-- The offset of the first byte of a transfer that was not acknowledged or received, when its access at `off` fails (14 R509). -/
def State.copyCut (s : State) (ring seq off : Nat) (write : Bool) : Nat :=
  (s.uses.filterMap (fun u => match u with
    | .cmd r q o => if r == ring && q == seq && write then some o else none
    | .copy r q o => if r == ring && q == seq && !write then some o else none
    | _ => none)).foldl min off

/-- An access of a command's transfer, or of its image, draws an error (02 R60, R61; 14 R509): it names the DVA of the access, or the cut
point when a peer's port gives it. -/
def copyErr (ring seq off : Nat) (write : Bool) (o : Outst) (p : Pkt) (s : State) : State :=
  match s.cmdOf ring seq with
  | none => s
  | some c =>
    let base := if write && c.kind = 2 then c.fld 24 8 else c.fld 16 8 % 2 ^ 55
    let reason := p.addr % 65536
    accessFailed ring seq p.src reason o.addr (base + if 256 ≤ reason then s.copyCut ring seq off write else off) s

/-- An access of a move receives an error (02 R60, R61; 14 R509, R511; 16 R567). A slot that is stopped already only waits for its
answers (05 R155). -/
def moveErr (pos slot id off : Nat) (o : Outst) (p : Pkt) (s : State) : State :=
  match s.moveOf pos slot id with
  | none => s
  | some (x, q) =>
    let s1 := updQ pos slot .move id (fun y => { y with waitAns := y.waitAns - 1 }) s
    if x.phase = .stopped then s1
    else
      let reason := p.addr % 65536
      let dva := match s.cmdOf x.ring x.seq with
        | some c => if 256 ≤ reason then s.cutPoint c pos slot id off else q.answerDva off
        | none => q.answerDva off
      accessFailed x.ring x.seq p.src reason o.addr dva s1

/-! ## Answers by what asked for them -/

/-- A pool die relays a home's answer to the original requester (02 R43, 09 R290), and takes up what waited for it (R292). -/
def relayAnswer (src tid die : Nat) (p : Pkt) (s : State) : State :=
  poolRetry die (poolBack die (sendWith true { p with src := 49 + die, dst := src, tid := tid } s))

/-- A snoop of a die that is lost is answered by the hub: a sector that the die held in E or M is poisoned at its home,
which names it (02 R60; 11 R391, step 2). -/
def snoopLost (home addr die : Nat) (s : State) : State :=
  let n := sectorOf addr
  let owned : Bool := match (s.homeOf home).ent n with | some d => d.owner == some die | none => false
  let s1 := if owned then
      post (ev 0x03 (some home) 2 [n / 64 * 4096, 2 ^ (n % 64)]) (storeSector n (s.storedSector n).1 none true s)
    else s
  snoopAnswered home addr die none false s1

/-- Does a RESP_DATA packet report an error: poisoned, with a reason (02 R60)? -/
def isErrData (p : Pkt) : Bool := p.poison && p.addr % 65536 != 0

/-- RESP_DATA by use. -/
def dataFor (o : Outst) (p : Pkt) (s : State) : State :=
  match o.use with
  | .move pos slot id off =>
    let cut : Bool := match s.moveOf pos slot id with
      | some (x, _) => p.addr % 256 == 4 && p.src == 57 && !s.attached (s.ringFn x.ring)
      | none => false
    if isErrData p && !cut then moveErr pos slot id off o p s else moveData pos slot id off o p s
  | .tsync pos slot id => syncInstrAnswered pos slot id s
  | .coh die _ msg addr => grantArrive die msg addr p s
  | .evict die addr => evictDone die (sectorOf addr) s
  | .relay src tid die => relayAnswer src tid die p s
  | .snoop home addr die => snoopAnswered home addr die (some (p.payload.take 64, p.poison)) true s
  | .ranoaGet port tid off => getAnswer port tid off p.payload p.poison (isErrData p) s
  | .copy ring seq off =>
    if isErrData p then
      if p.src = 57 ∧ p.addr % 256 = 4 ∧ !s.attached (s.ringFn ring) then
        s.updCmd ring seq (fun c => { c with got := c.got ++ [(off, p.payload, true)] })
      else copyErr ring seq off false o p s
    else
      let s1 := s.updCmd ring seq (fun c => { c with got := c.got ++ [(off, p.payload, p.poison)] })
      if p.poison then taintCmd ring seq { status := 0x05, port := some p.src, detail := o.addr / 64 * 64, region := 0xE } s1
      else s1
  | .amo core obj => reply (.core core) (0x1000000 + 0x40 * obj) (BitVec.ofNat 64 (leAt p.payload 0 8)) s
  | .plain | .place _ | .cmd _ _ _ | .engine _ _ _ | .drain _ _ => s

/-- RESP_ACK by use (07 R231). -/
def ackFor (o : Outst) (p : Pkt) (s : State) : State :=
  match o.use with
  | .move pos slot id _ => moveAck pos slot id o p s
  | .tsync pos slot id => syncInstrAnswered pos slot id s
  | .coh die _ _ addr => answerDeferred die (sectorOf addr) s
  | .evict die addr => evictDone die (sectorOf addr) s
  | .relay src tid die => relayAnswer src tid die p s
  | .snoop home addr die => snoopAnswered home addr die none (p.addr != 1) s
  | .place n => countedAck n s
  | .plain | .ranoaGet _ _ _ | .copy _ _ _ | .cmd _ _ _ | .engine _ _ _ | .drain _ _ | .amo _ _ => s

/-- RESP_ERR by use (02 R60, R61). -/
def errFor (o : Outst) (p : Pkt) (s : State) : State :=
  match o.use with
  | .move pos slot id off => moveErr pos slot id off o p s
  | .tsync pos slot _ =>
    match look none (s.tileOf pos).slots slot with
    | some x => accessFailed x.ring x.seq p.src (p.addr % 65536) o.addr o.addr s
    | none => s
  | .coh die _ _ addr => answerDeferred die (sectorOf addr) s
  | .evict die addr => evictDone die (sectorOf addr) s
  | .relay src tid die => relayAnswer src tid die p s
  | .snoop home addr die => snoopLost home addr die s
  | .place n => countedErr n s
  | .ranoaGet port tid off => getAnswer port tid off [] true true s
  | .cmd ring seq off => copyErr ring seq off true o p s
  | .copy ring seq off => copyErr ring seq off false o p s
  | .engine core stack _ => updWindow core stack (fun x => { x with status := 4 }) s
  | .plain | .drain _ _ | .amo _ _ => s

/-- RESP_RETRY by use: a core die keeps its ticket; a pool die passes it on (11 R375, 09 R290). -/
def retryFor (o : Outst) (p : Pkt) (s : State) : State :=
  match o.use with
  | .coh die core msg addr => retryArrive die core msg addr (p.addr % 65536) s
  | .relay src tid die => relayAnswer src tid die p s
  | _ => s

/-! ## The rows -/

/-- A response reaches its requester: one that no outstanding request awaits is discarded (02 R50); an error ends a request
that awaits several answers. -/
def respTake (p : Pkt) (err : Bool) (k : Outst → State → State) (s : State) : State :=
  if s.fenced p.src && !s.onWay p then s
  else
    let r := reach p s
    if !r.2 then r.1
    else match r.1.findOutst p.dst p.tid with
      | none => r.1
      | some o =>
        let s2 := if err || decide (o.left ≤ 1) then boundGo p.dst (r.1.dropOutst p.dst p.tid)
          else r.1.withHub { r.1.hub with outst := r.1.hub.outst.map (fun y =>
            if y.src == p.dst && y.tid == p.tid then { y with left := y.left - 1 } else y) }
        k o s2

/-- RESP_DATA (02 R39, R50, R60). -/
def execRespData (p : Pkt) (s : State) : Res :=
  let q := { p with op := .respData }
  .next (respTake q (isErrData q) (fun o st => dataFor o q st) s)
/-- RESP_ACK (07 R231). -/
def execRespAck (p : Pkt) (s : State) : Res :=
  let q := { p with op := .respAck }
  .next (respTake q false (fun o st => ackFor o q st) s)
/-- RESP_ERR (02 R60, R61). -/
def execRespErr (p : Pkt) (s : State) : Res :=
  let q := { p with op := .respErr }
  .next (respTake q true (fun o st => errFor o q st) s)
/-- RESP_RETRY (11 R375). -/
def execRespRetry (p : Pkt) (s : State) : Res :=
  let q := { p with op := .respRetry }
  .next (respTake q false (fun o st => retryFor o q st) s)

end Sys2Proof.Machine
end

