-- ==== Sys2Proof/Machine/Vector.lean ====
section
/-!
DEFINITION. The vector instructions: their checks at issue and what the vector unit does (03 R95 to R100; 06 R175 to
R188, R645).
-/
namespace Sys2Proof.Machine

/-- The operand fields of a vector instruction (06 R175). -/
structure VecOp where
  vd : Nat
  vs1 : Nat
  vs2 : Nat
  vs3 : Nat
  gs : Nat
  men : Bool
  mr : Nat
  fn : Nat
  rs : Nat
  rnd : Nat
  fmt : Nat
  imm : Nat
  bc : Bool
  deriving DecidableEq, Repr

/-- Read the operand fields. -/
def VecOp.of (w : BitVec 128) : VecOp :=
  ⟨fld w 105 101, fld w 100 96, fld w 95 91, fld w 90 86, fld w 85 84, fld w 83 83 == 1, fld w 82 80, fld w 79 74,
    fld w 73 68, fld w 67 66, fld w 65 62, fld w 61 36, fld w 35 35 == 1⟩

/-- The registers of a group. -/
def VecOp.g (p : VecOp) : Nat := 2 ^ p.gs
/-- The memory or lane format. -/
def VecOp.f (p : VecOp) : Fmt := (Fmt.ofCode p.fmt).getD .fp32
/-- Does the instruction work on INT32 lanes? -/
def VecOp.isInt (p : VecOp) : Bool := p.fmt == 9
/-- The tile-store address of VLD and VST, relative to the window (06 R187). -/
def VecOp.addr (p : VecOp) (base : Word) : Nat := (base + BitVec.ofInt 64 (sext 26 p.imm)).toNat
/-- The bytes of the row of VLD and VST (06 R187). -/
def VecOp.rowLen (p : VecOp) : Nat := p.f.rowBytes (p.g * 512)

/-- Reserved functions, and fields that must be 0 (06 R645 step 1). VOPS with SEL, which 06 R180 forbids without a fault of its own,
counts as a reserved function (log 21, DESIGN CHOICE: ENCODING, not FORMAT). -/
def vecBadCode (opc : Nat) (p : VecOp) : Bool :=
  match opc with
  | 0x42 => !vopFnOk p.fn
  | 0x43 => !vopFnOk p.fn || p.fn == 0x0A
  | 0x44 => decide (5 < p.fn) || p.vd / 8 != 0 || p.gs != 0
  | 0x45 => decide (7 < p.fn) || p.vd / 8 != 0
  | 0x46 => decide (2 < p.fn)
  | 0x47 => decide (6 < p.fn)
  | 0x48 => decide (3 < p.fn)
  | _ => false

/-- Registers that are no multiple of G (06 R177). -/
def vecBadGroup (opc : Nat) (p : VecOp) : Bool :=
  let off := fun (r : Nat) => r % p.g != 0
  match opc with
  | 0x40 => off p.vd
  | 0x41 => off p.vs1
  | 0x42 => off p.vd || off p.vs1 || off p.vs3 || (!p.bc && off p.vs2)
  | 0x43 => off p.vd || off p.vs1 || off p.vs3
  | 0x46 => off p.vs1
  | 0x47 | 0x48 => off p.vd || off p.vs1
  | _ => false

/-- A format or rounding mode the opcode does not allow (06 R180 to R187, 04 R130). -/
def vecBadFormat (opc : Nat) (p : VecOp) : Bool :=
  let lane := p.fmt == 1 || p.fmt == 9
  match opc with
  | 0x40 | 0x41 => !roleDCode p.fmt || p.rnd == 3
  | 0x42 | 0x43 => !lane || (decide (0x10 ≤ p.fn) && p.fmt != 9)
  | 0x44 | 0x46 => !lane
  | 0x47 => p.fmt != 1
  | 0x48 => p.rnd == 3 || (p.fn == 2 && !(decide (2 ≤ p.fmt) && decide (p.fmt ≤ 8)))
      || (p.fn == 3 && !(decide (0xA ≤ p.fmt) && decide (p.fmt ≤ 0xD)))
  | _ => false

/-- The checks of a vector instruction at issue, in their order (06 R645). -/
def vecCheck (x : Slot) (w : BitVec 128) : Option Nat :=
  let p := VecOp.of w
  let opc := wOpc w
  let mem := opc == 0x40 || opc == 0x41
  let a := p.addr (x.sreg p.rs)
  firstFault [(vecBadCode opc p, 0x01), (vecBadGroup opc p, 0x10), (vecBadFormat opc p, 0x02),
    (mem && a % 64 != 0, 0x06), (mem && !x.inWin a p.rowLen, 0x05)]

/-- The scalar a vector instruction captures (05 R146). -/
def vecCap (x : Slot) (w : BitVec 128) : List Word × List LayReg := ([x.sreg (VecOp.of w).rs], [])

/-! ## Registers -/

/-- A lane of a vector register. -/
def Slot.lane (x : Slot) (reg l : Nat) : Nat := (look 0#32 x.v (reg * 512 + l)).toNat
/-- A mask register. -/
def Slot.mask (x : Slot) (n : Nat) : BitVec 512 := look 0#512 x.m n
/-- Is a lane active (06 R178)? -/
def Slot.active (x : Slot) (p : VecOp) (l : Nat) : Bool := !p.men || (x.mask p.mr).getLsbD l
/-- Write a lane. -/
def Slot.setLane (x : Slot) (reg l v : Nat) : Slot := { x with v := put 0#32 x.v (reg * 512 + l) (BitVec.ofNat 32 v) }
/-- Is a vector register, or from 32 on a mask register, marked poisoned (03 R95)? -/
def Slot.regPoison (x : Slot) (n : Nat) : Bool := has n x.vpois
/-- Mark a register poisoned or not. -/
def Slot.markReg (x : Slot) (n : Nat) (p : Bool) : Slot := { x with vpois := if p then ins n x.vpois else del n x.vpois }

/-- A lane-wise instruction over a group: each active lane of register r takes the value of its function; flags of
active lanes only (06 R178). `pois` gives the poison of the sources of register r. -/
def laneWise (p : VecOp) (act : Nat → Bool) (pois : Nat → Bool) (f : Nat → Nat → Nat × Sticky) (x : Slot) : Slot × Sticky :=
  (List.range p.g).foldl (fun acc r =>
    let vals := ((List.range 512).filter act).map (fun l => (l, f r l))
    let y := vals.foldl (fun y v => y.setLane (p.vd + r) v.1 v.2.1) acc.1
    let keeps := (List.range 512).any (fun l => !act l)
    (y.markReg (p.vd + r) (pois r || (keeps && x.regPoison (p.vd + r))), vals.foldl (fun fl v => fl ||| v.2.2) acc.2)) (x, 0#4)

/-- VOP and VOPS (06 R180, R181): `sc` is the scalar operand of VOPS. -/
def vopRun (p : VecOp) (ftz : Bool) (sc : Option Nat) (x : Slot) : Slot × Sticky :=
  let b := fun (r l : Nat) => match sc with
    | some v => v
    | none => x.lane (if p.bc then p.vs2 else p.vs2 + r) l
  let srcPois := fun (r : Nat) => x.regPoison (p.vs1 + r)
    || (sc.isNone && decide (2 ≤ fnArity p.fn) && x.regPoison (if p.bc then p.vs2 else p.vs2 + r))
    || (decide (3 ≤ fnArity p.fn) && x.regPoison (p.vs3 + r)) || (p.men && x.regPoison (32 + p.mr))
  if p.fn = 0x0A then
    laneWise p (fun _ => true) (fun r => srcPois r || x.regPoison (32 + p.mr))
      (fun r l => (if (x.mask p.mr).getLsbD l then x.lane (p.vs1 + r) l else b r l, 0#4)) x
  else
    laneWise p (x.active p) srcPois (fun r l =>
      let a := x.lane (p.vs1 + r) l
      let c := x.lane (p.vs3 + r) l
      if p.isInt then ((vopInt p.fn (BitVec.ofNat 32 a) (BitVec.ofNat 32 (b r l)) (BitVec.ofNat 32 c)).toNat, 0#4)
      else vopFloat ftz p.fn a (b r l) c) x

/-- VCMP (06 R182). -/
def vcmpRun (p : VecOp) (ftz : Bool) (x : Slot) : Slot × Sticky :=
  let one := fun (l : Nat) =>
    let a := x.lane p.vs1 l
    let b := x.lane p.vs2 l
    if p.isInt then (condHolds p.fn (BitVec.ofNat 32 a).toInt (BitVec.ofNat 32 b).toInt, 0#4) else vcmpFloat ftz p.fn a b
  let res := ((List.range 512).filter (x.active p)).map (fun l => (l, one l))
  let bits := res.foldl (fun m v => if v.2.1 then m + 2 ^ v.1 else m) 0
  let y := { x with m := put 0#512 x.m (p.vd % 8) (BitVec.ofNat 512 bits) }
  (y.markReg (32 + p.vd % 8) (x.regPoison p.vs1 || x.regPoison p.vs2 || (p.men && x.regPoison (32 + p.mr))),
    res.foldl (fun fl v => fl ||| v.2.2) 0#4)

/-- VMASK (06 R183): `n` is s[RS] at issue. -/
def vmaskRun (p : VecOp) (n : Nat) (x : Slot) : Slot :=
  let a := x.mask (p.vs1 % 8)
  let b := x.mask (p.vs2 % 8)
  let v := match p.fn with
    | 0 => a &&& b
    | 1 => a ||| b
    | 2 => a ^^^ b
    | 3 => a &&& ~~~b
    | 4 => ~~~a
    | 5 => ~~~(0#512)
    | 6 => 0#512
    | _ => BitVec.ofNat 512 (2 ^ min n 512 - 1)
  let pa := decide (p.fn ≤ 4) && x.regPoison (32 + p.vs1 % 8)
  let pb := decide (p.fn ≤ 3) && x.regPoison (32 + p.vs2 % 8)
  ({ x with m := put 0#512 x.m (p.vd % 8) v } : Slot).markReg (32 + p.vd % 8) (pa || pb)

/-- VRED (06 R184). -/
def vredRun (p : VecOp) (ftz : Bool) (x : Slot) : Slot × Sticky :=
  let vals := (List.range (p.g * 512)).map (fun i =>
    if x.active p (i % 512) then x.lane (p.vs1 + i / 512) (i % 512) else redId p.isInt p.fn)
  let (v, fl) := redTree (redOp p.isInt ftz p.fn) (9 + p.gs) vals
  let y := (List.range 512).foldl (fun y l => y.setLane p.vd l v) x
  let pois := (List.range p.g).any (fun r => x.regPoison (p.vs1 + r)) || (p.men && x.regPoison (32 + p.mr))
  (y.markReg p.vd pois, fl)

/-- VSFU (06 R185). -/
def vsfuRun (p : VecOp) (ftz : Bool) (x : Slot) : Slot × Sticky :=
  laneWise p (x.active p) (fun r => x.regPoison (p.vs1 + r) || (p.men && x.regPoison (32 + p.mr)))
    (fun r l => vsfuLane ftz p.fn (x.lane (p.vs1 + r) l)) x

/-- VCVT (06 R186, R188). -/
def vcvtRun (p : VecOp) (q : QInstr) (x : Slot) : Slot × Sticky :=
  laneWise p (x.active p) (fun r => x.regPoison (p.vs1 + r) || (p.men && x.regPoison (32 + p.mr)))
    (fun r l => vcvtLane p.fn p.f (rndOf p.rnd x.seed x.part q.ord ((p.vd + r) * 512 + l)) (ovfOf q.tctl) (ftzOf q.tctl)
      (x.lane (p.vs1 + r) l)) x

/-- The bytes that the active lanes of register r of the group take in the row of VLD or VST. -/
def laneRanges (x : Slot) (p : VecOp) (a r : Nat) : List (Nat × Nat) :=
  if p.men then ((List.range 512).filter (x.active p)).map (fun l => elemSpan p.f a (r * 512 + l) 1)
  else [elemSpan p.f a (r * 512) 512]

/-- VLD (06 R187, R188; 03 R95). -/
def vldRun (pos slot : Nat) (x : Slot) (q : QInstr) (p : VecOp) (s : State) : State × Sticky :=
  let a := p.addr ((q.sregs[0]?).getD 0#64)
  let s1 := verifyTile pos slot 0 x.winBase ((List.range p.g).flatMap (laneRanges x p a)) s
  let rd := s1.tileByte pos x.winBase
  let (y, fl) := laneWise p (x.active p)
    (fun r => s1.tilePoison pos x.winBase (laneRanges x p a r) || (p.men && x.regPoison (32 + p.mr)))
    (fun r l =>
      let (c, f1) := elemCode rd p.f a (r * 512 + l)
      let (v, f2) := vldElem p.f (rndOf p.rnd x.seed x.part q.ord ((p.vd + r) * 512 + l)) (ovfOf q.tctl) (ftzOf q.tctl) c
      (v, f1 ||| f2)) x
  (s1.updSlot pos slot (fun z => { z with v := y.v, vpois := y.vpois }), fl)

/-- VST (06 R187, R188). -/
def vstRun (pos : Nat) (x : Slot) (q : QInstr) (p : VecOp) (s : State) : State × Sticky :=
  let a := p.addr ((q.sregs[0]?).getD 0#64)
  let total := p.g * 512
  (List.range p.g).foldl (fun acc r =>
    let pois := x.regPoison (p.vs1 + r) || (p.men && x.regPoison (32 + p.mr))
    let conv := fun (l : Nat) => vstElem p.f (rndOf p.rnd x.seed x.part q.ord ((p.vs1 + r) * 512 + l)) (ovfOf q.tctl)
      (ftzOf q.tctl) (x.lane (p.vs1 + r) l)
    let wr := fun (st : State) (e : Nat) (codes : List Nat) =>
      let (at0, bs) := mergeRow (st.tileByte pos x.winBase) p.f a e total codes
      storeTile pos x.winBase at0 bs pois st
    if p.men then
      ((List.range 512).filter (x.active p)).foldl (fun acc l =>
        let (c, fl) := conv l
        (wr acc.1 (r * 512 + l) [c], acc.2 ||| fl)) acc
    else
      let cs := (List.range 512).map conv
      (wr acc.1 (r * 512) (cs.map Prod.fst), cs.foldl (fun fl c => fl ||| c.2) acc.2)) (s, 0#4)

/-- A vector instruction's results (06 R175 to R188). -/
def vecRun (pos slot : Nat) (x : Slot) (q : QInstr) (s : State) : State × Sticky :=
  let p := VecOp.of q.word
  let ftz := ftzOf q.tctl
  let v := (q.sregs[0]?).getD 0#64
  let keep := fun (r : Slot × Sticky) =>
    (s.updSlot pos slot (fun z => { z with v := r.1.v, m := r.1.m, vpois := r.1.vpois }), r.2)
  match wOpc q.word with
  | 0x40 => vldRun pos slot x q p s
  | 0x41 => vstRun pos x q p s
  | 0x42 => keep (vopRun p ftz none x)
  | 0x43 => keep (vopRun p ftz (some (fld v 31 0)) x)
  | 0x44 => keep (vcmpRun p ftz x)
  | 0x45 => keep (vmaskRun p v.toNat x, 0#4)
  | 0x46 => keep (vredRun p ftz x)
  | 0x47 => keep (vsfuRun p ftz x)
  | _ => keep (vcvtRun p q x)

/-- A vector instruction is checked and queued at issue. -/
def vecIssue (pos slot opc : Nat) (conv : Bool) (s : State) : Res :=
  queueIssue pos slot opc .vector vecCheck vecCap (fun _ => conv) s

/-- VLD (06 R187). -/
def execVld (pos slot : Nat) (s : State) : Res := vecIssue pos slot 0x40 true s
/-- VST (06 R187). -/
def execVst (pos slot : Nat) (s : State) : Res := vecIssue pos slot 0x41 true s
/-- VOP (06 R180). -/
def execVop (pos slot : Nat) (s : State) : Res := vecIssue pos slot 0x42 false s
/-- VOPS (06 R180). -/
def execVops (pos slot : Nat) (s : State) : Res := vecIssue pos slot 0x43 false s
/-- VCMP (06 R182). -/
def execVcmp (pos slot : Nat) (s : State) : Res := vecIssue pos slot 0x44 false s
/-- VMASK (06 R183). -/
def execVmask (pos slot : Nat) (s : State) : Res := vecIssue pos slot 0x45 false s
/-- VRED (06 R184). -/
def execVred (pos slot : Nat) (s : State) : Res := vecIssue pos slot 0x46 false s
/-- VSFU (06 R185). -/
def execVsfu (pos slot : Nat) (s : State) : Res := vecIssue pos slot 0x47 false s
/-- VCVT (06 R186). -/
def execVcvt (pos slot : Nat) (s : State) : Res := vecIssue pos slot 0x48 true s

/-- VECTOR_INSTR_COMPLETE: the slot's started vector instruction has written every result and sets its token (03 R76,
R97; log 20). -/
def execVectorInstrComplete (pos slot : Nat) (s : State) : Res :=
  .next (match s.slotOf pos slot with
    | none => s
    | some x => match x.qv.find? (fun q => q.started) with
      | none => s
      | some q =>
        let (s1, fl) := vecRun pos slot x q s
        complete pos slot .vector q fl s1)

end Sys2Proof.Machine
end

