-- ==== Sys2Proof/Machine/Dispatch.lean ====
section
/-!
DEFINITION. The command dispatch: one arm per row of the table, each one direct call of its meaning.
-/
namespace Sys2Proof.Machine

/-- The effect of a command on everything but the queue. -/
def exec (i : Instr) (s : State) : Host.Outcome State Fault Refusal :=
  match i with
  | .powerUpStart vin => Sys2Proof.Machine.execPowerUpStart vin s
  | .bootRomLoaded img => Sys2Proof.Machine.execBootRomLoaded img s
  | .imageVerified => Sys2Proof.Machine.execImageVerified s
  | .hostDieEnable => Sys2Proof.Machine.execHostDieEnable s
  | .packageRailUp => Sys2Proof.Machine.execPackageRailUp s
  | .emitterStable standbyOk => Sys2Proof.Machine.execEmitterStable standbyOk s
  | .ringCalibrationDone => Sys2Proof.Machine.execRingCalibrationDone s
  | .linksTrained adv => Sys2Proof.Machine.execLinksTrained adv s
  | .tileSelfTestDone faults => Sys2Proof.Machine.execTileSelfTestDone faults s
  | .hbmTrained failed => Sys2Proof.Machine.execHbmTrained failed s
  | .hbmInitialised => Sys2Proof.Machine.execHbmInitialised s
  | .tierMounted ok0 ok1 => Sys2Proof.Machine.execTierMounted ok0 ok1 s
  | .coreSelfTestDone passed => Sys2Proof.Machine.execCoreSelfTestDone passed s
  | .readySet => Sys2Proof.Machine.execReadySet s
  | .startupStopped reason => Sys2Proof.Machine.execStartupStopped reason s
  | .configReady => Sys2Proof.Machine.execConfigReady s
  | .configRequest fn dword => Sys2Proof.Machine.execConfigRequest fn dword s
  | .perstNAssert => Sys2Proof.Machine.execPerstNAssert s
  | .perstNDeassert => Sys2Proof.Machine.execPerstNDeassert s
  | .pwrbrkNAssert => Sys2Proof.Machine.execPwrbrkNAssert s
  | .pwrbrkNRelease => Sys2Proof.Machine.execPwrbrkNRelease s
  | .vin36OutOfRange vin => Sys2Proof.Machine.execVin36OutOfRange vin s
  | .vinLowTimeout => Sys2Proof.Machine.execVinLowTimeout s
  | .vinHighTimeout => Sys2Proof.Machine.execVinHighTimeout s
  | .hubThermtripComparator => Sys2Proof.Machine.execHubThermtripComparator s
  | .pldmFwUpdate => Sys2Proof.Machine.execPldmFwUpdate s
  | .fwImageReceived img => Sys2Proof.Machine.execFwImageReceived img s
  | .fwProgramDone ok => Sys2Proof.Machine.execFwProgramDone ok s
  | .activateFirmware => Sys2Proof.Machine.execActivateFirmware s
  | .recoveryGo addr len => Sys2Proof.Machine.execRecoveryGo addr len s
  | .recoveryProgramDone img => Sys2Proof.Machine.execRecoveryProgramDone img s
  | .spdmGetCertificate slot off len => Sys2Proof.Machine.execSpdmGetCertificate slot off len s
  | .spdmChallenge req => Sys2Proof.Machine.execSpdmChallenge req s
  | .spdmGetMeasurements index req => Sys2Proof.Machine.execSpdmGetMeasurements index req s
  | .spdmKeyExchange req => Sys2Proof.Machine.execSpdmKeyExchange req s
  | .spdmVendorDefinedRequest vendor code off len => Sys2Proof.Machine.execSpdmVendorDefinedRequest vendor code off len s
  | .ideKmRequest stream lo hi key => Sys2Proof.Machine.execIdeKmRequest stream lo hi key s
  | .mctpControl eid => Sys2Proof.Machine.execMctpControl eid s
  | .pldmGetSensorReading sensor => Sys2Proof.Machine.execPldmGetSensorReading sensor s
  | .pldmSetNumericEffecter limit => Sys2Proof.Machine.execPldmSetNumericEffecter limit s
  | .ownerSet who req => Sys2Proof.Machine.execOwnerSet who req s
  | .setHardPower who req => Sys2Proof.Machine.execSetHardPower who req s
  | .setThermal who req => Sys2Proof.Machine.execSetThermal who req s
  | .setPartition who req => Sys2Proof.Machine.execSetPartition who req s
  | .debugUnlock who req => Sys2Proof.Machine.execDebugUnlock who req s
  | .debugLock who req => Sys2Proof.Machine.execDebugLock who req s
  | .sealRegs who => Sys2Proof.Machine.execSeal who s
  | .warmreset who key => Sys2Proof.Machine.execWarmreset who key s
  | .hubHeartbeatLoss => Sys2Proof.Machine.execHubHeartbeatLoss s
  | .hostFailWarmReset => Sys2Proof.Machine.execHostFailWarmReset s
  | .warmResetBegin => Sys2Proof.Machine.execWarmResetBegin s
  | .warmResetFenced => Sys2Proof.Machine.execWarmResetFenced s
  | .warmResetHubReady => Sys2Proof.Machine.execWarmResetHubReady s
  | .warmResetDiesReset adv => Sys2Proof.Machine.execWarmResetDiesReset adv s
  | .warmResetHbmTrained failed => Sys2Proof.Machine.execWarmResetHbmTrained failed s
  | .warmResetHbmInitialised => Sys2Proof.Machine.execWarmResetHbmInitialised s
  | .warmResetTierRemounted bad => Sys2Proof.Machine.execWarmResetTierRemounted bad s
  | .warmResetRuntimeStarted passed => Sys2Proof.Machine.execWarmResetRuntimeStarted passed s
  | .warmResetReady => Sys2Proof.Machine.execWarmResetReady s
  | .ivoryDieStop => Sys2Proof.Machine.execIvoryDieStop s
  | .registerWrite who off size data => Sys2Proof.Machine.execRegisterWrite who off size data s
  | .bar0MalformedAccess fn off isWrite => Sys2Proof.Machine.execBar0MalformedAccess fn off isWrite s
  | .coreReservedRegisterAccess core addr isWrite => Sys2Proof.Machine.execCoreReservedRegisterAccess core addr isWrite s
  | .ivrInternalWrite core off => Sys2Proof.Machine.execIvrInternalWrite core off s
  | .read p e => Sys2Proof.Machine.execRead p e s
  | .narrowRead p e => Sys2Proof.Machine.execNarrowRead p e s
  | .write p => Sys2Proof.Machine.execWrite p s
  | .writeMasked p e => Sys2Proof.Machine.execWriteMasked p e s
  | .readWaitTurnTimeout stack pc => Sys2Proof.Machine.execReadWaitTurnTimeout stack pc s
  | .atomicSwap p e => Sys2Proof.Machine.execAtomicSwap p e s
  | .atomicAdd p e => Sys2Proof.Machine.execAtomicAdd p e s
  | .atomicAnd p e => Sys2Proof.Machine.execAtomicAnd p e s
  | .atomicOr p e => Sys2Proof.Machine.execAtomicOr p e s
  | .atomicXor p e => Sys2Proof.Machine.execAtomicXor p e s
  | .atomicMin p e => Sys2Proof.Machine.execAtomicMin p e s
  | .atomicMax p e => Sys2Proof.Machine.execAtomicMax p e s
  | .atomicMinu p e => Sys2Proof.Machine.execAtomicMinu p e s
  | .atomicMaxu p e => Sys2Proof.Machine.execAtomicMaxu p e s
  | .gatherRows p e => Sys2Proof.Machine.execGatherRows p e s
  | .scatterAdd p e => Sys2Proof.Machine.execScatterAdd p e s
  | .reduce core stack tag => Sys2Proof.Machine.execReduce core stack tag s
  | .kvAppend core stack tag => Sys2Proof.Machine.execKvAppend core stack tag s
  | .stackCmdResult core stack => Sys2Proof.Machine.execStackCmdResult core stack s
  | .dispatch pos ring seq part => Sys2Proof.Machine.execDispatch pos ring seq part s
  | .respData p => Sys2Proof.Machine.execRespData p s
  | .respAck p => Sys2Proof.Machine.execRespAck p s
  | .respErr p => Sys2Proof.Machine.execRespErr p s
  | .respRetry p => Sys2Proof.Machine.execRespRetry p s
  | .mgmt src dst kind => Sys2Proof.Machine.execMgmt src dst kind s
  | .linkAck port side seq => Sys2Proof.Machine.execLinkAck port side seq s
  | .linkNak port side => Sys2Proof.Machine.execLinkNak port side s
  | .creditReturn port side dst vc n => Sys2Proof.Machine.execCreditReturn port side dst vc n s
  | .heartbeat port side => Sys2Proof.Machine.execHeartbeat port side s
  | .epochChange port => Sys2Proof.Machine.execEpochChange port s
  | .ackOverdue port side => Sys2Proof.Machine.execAckOverdue port side s
  | .heartbeatSend port side => Sys2Proof.Machine.execHeartbeatSend port side s
  | .carrierLossTimeout port => Sys2Proof.Machine.execCarrierLossTimeout port s
  | .fastRetrainDone port advDie advHub => Sys2Proof.Machine.execFastRetrainDone port advDie advHub s
  | .fullTrainingDone port advDie advHub => Sys2Proof.Machine.execFullTrainingDone port advDie advHub s
  | .retrainTimeout port => Sys2Proof.Machine.execRetrainTimeout port s
  | .fenceComplete port => Sys2Proof.Machine.execFenceComplete port s
  | .targetTimeout src tid => Sys2Proof.Machine.execTargetTimeout src tid s
  | .tierWaitTimeout src tid => Sys2Proof.Machine.execTierWaitTimeout src tid s
  | .calibrationPause port => Sys2Proof.Machine.execCalibrationPause port s
  | .calibrationResume port => Sys2Proof.Machine.execCalibrationResume port s
  | .emitterFailure => Sys2Proof.Machine.execEmitterFailure s
  | .rootClockLoss site => Sys2Proof.Machine.execRootClockLoss site s
  | .rootClockReturn site => Sys2Proof.Machine.execRootClockReturn site s
  | .holdoverExpired port => Sys2Proof.Machine.execHoldoverExpired port s
  | .hubLinkerrRead who port => Sys2Proof.Machine.execHubLinkerrRead who port s
  | .nop pos slot => Sys2Proof.Machine.execNop pos slot s
  | .li pos slot => Sys2Proof.Machine.execLi pos slot s
  | .alu pos slot => Sys2Proof.Machine.execAlu pos slot s
  | .alui pos slot => Sys2Proof.Machine.execAlui pos slot s
  | .br pos slot => Sys2Proof.Machine.execBr pos slot s
  | .jmp pos slot => Sys2Proof.Machine.execJmp pos slot s
  | .loop pos slot => Sys2Proof.Machine.execLoop pos slot s
  | .lset pos slot => Sys2Proof.Machine.execLset pos slot s
  | .ladd pos slot => Sys2Proof.Machine.execLadd pos slot s
  | .lcpy pos slot => Sys2Proof.Machine.execLcpy pos slot s
  | .rdstat pos slot => Sys2Proof.Machine.execRdstat pos slot s
  | .clrstat pos slot => Sys2Proof.Machine.execClrstat pos slot s
  | .rdctl pos slot => Sys2Proof.Machine.execRdctl pos slot s
  | .wrctl pos slot => Sys2Proof.Machine.execWrctl pos slot s
  | .sysrd pos slot => Sys2Proof.Machine.execSysrd pos slot s
  | .fence pos slot => Sys2Proof.Machine.execFence pos slot s
  | .hint pos slot => Sys2Proof.Machine.execHint pos slot s
  | .exit pos slot => Sys2Proof.Machine.execExit pos slot s
  | .mma pos slot => Sys2Proof.Machine.execMma pos slot s
  | .mdrain pos slot => Sys2Proof.Machine.execMdrain pos slot s
  | .vld pos slot => Sys2Proof.Machine.execVld pos slot s
  | .vst pos slot => Sys2Proof.Machine.execVst pos slot s
  | .vop pos slot => Sys2Proof.Machine.execVop pos slot s
  | .vops pos slot => Sys2Proof.Machine.execVops pos slot s
  | .vcmp pos slot => Sys2Proof.Machine.execVcmp pos slot s
  | .vmask pos slot => Sys2Proof.Machine.execVmask pos slot s
  | .vred pos slot => Sys2Proof.Machine.execVred pos slot s
  | .vsfu pos slot => Sys2Proof.Machine.execVsfu pos slot s
  | .vcvt pos slot => Sys2Proof.Machine.execVcvt pos slot s
  | .load pos slot => Sys2Proof.Machine.execLoad pos slot s
  | .store pos slot => Sys2Proof.Machine.execStore pos slot s
  | .gather pos slot => Sys2Proof.Machine.execGather pos slot s
  | .scatteradd pos slot => Sys2Proof.Machine.execScatteradd pos slot s
  | .xpref pos slot => Sys2Proof.Machine.execXpref pos slot s
  | .put pos slot => Sys2Proof.Machine.execPut pos slot s
  | .get pos slot => Sys2Proof.Machine.execGet pos slot s
  | .signal pos slot => Sys2Proof.Machine.execSignal pos slot s
  | .rsignal pos slot => Sys2Proof.Machine.execRsignal pos slot s
  | .wait pos slot => Sys2Proof.Machine.execWait pos slot s
  | .tokset pos slot => Sys2Proof.Machine.execTokset pos slot s
  | .tokwait pos slot => Sys2Proof.Machine.execTokwait pos slot s
  | .queueInstrStart pos slot q => Sys2Proof.Machine.execQueueInstrStart pos slot q s
  | .rsignalSend pos slot => Sys2Proof.Machine.execRsignalSend pos slot s
  | .matrixInstrComplete pos slot id => Sys2Proof.Machine.execMatrixInstrComplete pos slot id s
  | .vectorInstrComplete pos slot => Sys2Proof.Machine.execVectorInstrComplete pos slot s
  | .inboundMoveComplete pos slot id => Sys2Proof.Machine.execInboundMoveComplete pos slot id s
  | .outboundMoveComplete pos slot id => Sys2Proof.Machine.execOutboundMoveComplete pos slot id s
  | .syncInstrComplete pos slot id => Sys2Proof.Machine.execSyncInstrComplete pos slot id s
  | .xprefComplete pos slot id => Sys2Proof.Machine.execXprefComplete pos slot id s
  | .gatherListRead pos slot id => Sys2Proof.Machine.execGatherListRead pos slot id s
  | .slotEnd pos slot => Sys2Proof.Machine.execSlotEnd pos slot s
  | .programHeaderRead pos slot hdr => Sys2Proof.Machine.execProgramHeaderRead pos slot hdr s
  | .programLoaded pos slot words => Sys2Proof.Machine.execProgramLoaded pos slot words s
  | .zeroingDone pos slot => Sys2Proof.Machine.execZeroingDone pos slot s
  | .syncAdd src tid obj v => Sys2Proof.Machine.execSyncAdd src tid obj v s
  | .syncSet src tid obj v => Sys2Proof.Machine.execSyncSet src tid obj v s
  | .syncWaitGe src tid obj v => Sys2Proof.Machine.execSyncWaitGe src tid obj v s
  | .syncWaitEq src tid obj v => Sys2Proof.Machine.execSyncWaitEq src tid obj v s
  | .syncRead src tid obj fn => Sys2Proof.Machine.execSyncRead src tid obj fn s
  | .syncWake dst tid v => Sys2Proof.Machine.execSyncWake dst tid v s
  | .syncValueWrite who obj v => Sys2Proof.Machine.execSyncValueWrite who obj v s
  | .amoaddD core obj v => Sys2Proof.Machine.execAmoaddD core obj v s
  | .coreSyncBadAccess core addr kind => Sys2Proof.Machine.execCoreSyncBadAccess core addr kind s
  | .syncStatRead who obj => Sys2Proof.Machine.execSyncStatRead who obj s
  | .arrivalCountAdd id => Sys2Proof.Machine.execArrivalCountAdd id s
  | .refresh stack pc bank => Sys2Proof.Machine.execRefresh stack pc bank s
  | .patrolScrub stack e => Sys2Proof.Machine.execPatrolScrub stack e s
  | .stackTempSample stack temp => Sys2Proof.Machine.execStackTempSample stack temp s
  | .mapoutStart slot => Sys2Proof.Machine.execMapoutStart slot s
  | .mapoutEvictDone => Sys2Proof.Machine.execMapoutEvictDone s
  | .mapoutMapDistributed => Sys2Proof.Machine.execMapoutMapDistributed s
  | .mapoutComplete => Sys2Proof.Machine.execMapoutComplete s
  | .layerFailure stack layer => Sys2Proof.Machine.execLayerFailure stack layer s
  | .stackRecoveryStart stack => Sys2Proof.Machine.execStackRecoveryStart stack s
  | .stackRecoveryDone stack ok failed => Sys2Proof.Machine.execStackRecoveryDone stack ok failed s
  | .memErrRead who stack => Sys2Proof.Machine.execMemErrRead who stack s
  | .poolFillDone die sector => Sys2Proof.Machine.execPoolFillDone die sector s
  | .poolHandbackDone die sector => Sys2Proof.Machine.execPoolHandbackDone die sector s
  | .poolDirtyMarkDone die unit => Sys2Proof.Machine.execPoolDirtyMarkDone die unit s
  | .poolDieFailure die => Sys2Proof.Machine.execPoolDieFailure die s
  | .poolDieRecoveryDone die ok => Sys2Proof.Machine.execPoolDieRecoveryDone die ok s
  | .memPoolstatRead who die => Sys2Proof.Machine.execMemPoolstatRead who die s
  | .tierMapMiss tile => Sys2Proof.Machine.execTierMapMiss tile s
  | .tierMapReply tile => Sys2Proof.Machine.execTierMapReply tile s
  | .frameEvictionDone frame => Sys2Proof.Machine.execFrameEvictionDone frame s
  | .tierFetchDone tile bad => Sys2Proof.Machine.execTierFetchDone tile bad s
  | .partOpenRecorded part => Sys2Proof.Machine.execPartOpenRecorded part s
  | .flashProgramDone part block => Sys2Proof.Machine.execFlashProgramDone part block s
  | .tierBackgroundWriteback => Sys2Proof.Machine.execTierBackgroundWriteback s
  | .tierFlush who => Sys2Proof.Machine.execTierFlush who s
  | .tierFlushDone => Sys2Proof.Machine.execTierFlushDone s
  | .tierPinSet who n first count => Sys2Proof.Machine.execTierPinSet who n first count s
  | .tierPinClear who n => Sys2Proof.Machine.execTierPinClear who n s
  | .tierPinResident n => Sys2Proof.Machine.execTierPinResident n s
  | .wearLevelling die fromBlock toBlock => Sys2Proof.Machine.execWearLevelling die fromBlock toBlock s
  | .readDisturbRelocate die block => Sys2Proof.Machine.execReadDisturbRelocate die block s
  | .badBlockRetire die block repl spare => Sys2Proof.Machine.execBadBlockRetire die block repl spare s
  | .tierDieFailure die => Sys2Proof.Machine.execTierDieFailure die s
  | .tierDieRead who die => Sys2Proof.Machine.execTierDieRead who die s
  | .tableWalkDone ctx page reason => Sys2Proof.Machine.execTableWalkDone ctx page reason s
  | .atsCompletion ctx page units => Sys2Proof.Machine.execAtsCompletion ctx page units s
  | .priResponse ctx page unit ok => Sys2Proof.Machine.execPriResponse ctx page unit ok s
  | .atsInvalidateRequest fn tag dva bytes => Sys2Proof.Machine.execAtsInvalidateRequest fn tag dva bytes s
  | .atsInvalidateDone fn tag => Sys2Proof.Machine.execAtsInvalidateDone fn tag s
  | .xltResume who ctx => Sys2Proof.Machine.execXltResume who ctx s
  | .faultTimeout ctx page => Sys2Proof.Machine.execFaultTimeout ctx page s
  | .xltStatRead who => Sys2Proof.Machine.execXltStatRead who s
  | .xltFrctlRead who ctx => Sys2Proof.Machine.execXltFrctlRead who ctx s
  | .cfence core => Sys2Proof.Machine.execCfence core s
  | .cfenceComplete core => Sys2Proof.Machine.execCfenceComplete core s
  | .coreIoStoreError core addr reason => Sys2Proof.Machine.execCoreIoStoreError core addr reason s
  | .coreIoLoadPoison core addr reason => Sys2Proof.Machine.execCoreIoLoadPoison core addr reason s
  | .poisonException core addr => Sys2Proof.Machine.execPoisonException core addr s
  | .serrstatClear core mask => Sys2Proof.Machine.execSerrstatClear core mask s
  | .coreAccessFault core addr size kind => Sys2Proof.Machine.execCoreAccessFault core addr size kind s
  | .cboZero core addr => Sys2Proof.Machine.execCboZero core addr s
  | .dirtyLineEvict die addr data => Sys2Proof.Machine.execDirtyLineEvict die addr data s
  | .cacheParityError core addr instr => Sys2Proof.Machine.execCacheParityError core addr instr s
  | .cacheDataError die addr correctable => Sys2Proof.Machine.execCacheDataError die addr correctable s
  | .cacheTagError die addr => Sys2Proof.Machine.execCacheTagError die addr s
  | .coreDieMachineCheck die core => Sys2Proof.Machine.execCoreDieMachineCheck die core s
  | .coreDiePoisonDone die => Sys2Proof.Machine.execCoreDiePoisonDone die s
  | .coreDieResetDone die => Sys2Proof.Machine.execCoreDieResetDone die s
  | .coreDieRecoveryDone die ok => Sys2Proof.Machine.execCoreDieRecoveryDone die ok s
  | .rdS p e => Sys2Proof.Machine.execRdS p e s
  | .rdX p e => Sys2Proof.Machine.execRdX p e s
  | .upg p e => Sys2Proof.Machine.execUpg p e s
  | .zero p => Sys2Proof.Machine.execZero p s
  | .evn p => Sys2Proof.Machine.execEvn p s
  | .snpInv p data => Sys2Proof.Machine.execSnpInv p data s
  | .snpShr p data => Sys2Proof.Machine.execSnpShr p data s
  | .snpFwd p => Sys2Proof.Machine.execSnpFwd p s
  | .cohResend die addr => Sys2Proof.Machine.execCohResend die addr s
  | .routerSourceEvent die src => Sys2Proof.Machine.execRouterSourceEvent die src s
  | .routerTimeExpiry die src => Sys2Proof.Machine.execRouterTimeExpiry die src s
  | .routerDelivery die => Sys2Proof.Machine.execRouterDelivery die s
  | .evtIclaimRead core of => Sys2Proof.Machine.execEvtIclaimRead core of s
  | .evtIclaimWrite core of v => Sys2Proof.Machine.execEvtIclaimWrite core of v s
  | .evtIthrWrite core of v => Sys2Proof.Machine.execEvtIthrWrite core of v s
  | .evtIstatSet core die src => Sys2Proof.Machine.execEvtIstatSet core die src s
  | .evtIstatPendingClear core die src => Sys2Proof.Machine.execEvtIstatPendingClear core die src s
  | .evtIsrcWrite core die src v => Sys2Proof.Machine.execEvtIsrcWrite core die src v s
  | .coreFifoInsert die ev => Sys2Proof.Machine.execCoreFifoInsert die ev s
  | .evtCpopRead core die => Sys2Proof.Machine.execEvtCpopRead core die s
  | .evtCctlFlush core die => Sys2Proof.Machine.execEvtCctlFlush core die s
  | .evtCstatRead core die => Sys2Proof.Machine.execEvtCstatRead core die s
  | .dlDown => Sys2Proof.Machine.execDlDown s
  | .hotReset => Sys2Proof.Machine.execHotReset s
  | .flrPf0 => Sys2Proof.Machine.execFlrPf0 s
  | .flrVf fn => Sys2Proof.Machine.execFlrVf fn s
  | .linkRecoveryEnter => Sys2Proof.Machine.execLinkRecoveryEnter s
  | .linkL0Return speed width flit => Sys2Proof.Machine.execLinkL0Return speed width flit s
  | .tlpAcked => Sys2Proof.Machine.execTlpAcked s
  | .openSession who fn => Sys2Proof.Machine.execOpen who fn s
  | .claim who fn => Sys2Proof.Machine.execClaim who fn s
  | .claimDone fn => Sys2Proof.Machine.execClaimDone fn s
  | .claimRefusalEnd fn => Sys2Proof.Machine.execClaimRefusalEnd fn s
  | .release who fn => Sys2Proof.Machine.execRelease who fn s
  | .holdExpiry fn => Sys2Proof.Machine.execHoldExpiry fn s
  | .redeliver who fn n items => Sys2Proof.Machine.execRedeliver who fn n items s
  | .redeliverItemDone fn => Sys2Proof.Machine.execRedeliverItemDone fn s
  | .hifSessctlRead who fn => Sys2Proof.Machine.execHifSessctlRead who fn s
  | .hifLinkstatRead who => Sys2Proof.Machine.execHifLinkstatRead who s
  | .placementWrite rid off data ep => Sys2Proof.Machine.execPlacementWrite rid off data ep s
  | .ideCheckFail rid off placement => Sys2Proof.Machine.execIdeCheckFail rid off placement s
  | .bar2Read rid off => Sys2Proof.Machine.execBar2Read rid off s
  | .hifPlogRead who => Sys2Proof.Machine.execHifPlogRead who s
  | .hifPlapValidSet who n v => Sys2Proof.Machine.execHifPlapValidSet who n v s
  | .hifPlapValidClear who n => Sys2Proof.Machine.execHifPlapValidClear who n s
  | .placementDrainDone n => Sys2Proof.Machine.execPlacementDrainDone n s
  | .stagedOutputCopy ring seq region => Sys2Proof.Machine.execStagedOutputCopy ring seq region s
  | .stagedCopyFreed ring seq region => Sys2Proof.Machine.execStagedCopyFreed ring seq region s
  | .crossPathFlushDone ring seq => Sys2Proof.Machine.execCrossPathFlushDone ring seq s
  | .doorbellPoll => Sys2Proof.Machine.execDoorbellPoll s
  | .doorbellLineRead fn line bits => Sys2Proof.Machine.execDoorbellLineRead fn line bits s
  | .prodRead ring prod cons => Sys2Proof.Machine.execProdRead ring prod cons s
  | .devmemRingNotify ring => Sys2Proof.Machine.execDevmemRingNotify ring s
  | .descriptorFetched ring desc lists => Sys2Proof.Machine.execDescriptorFetched ring desc lists s
  | .journalEntryAcked ring => Sys2Proof.Machine.execJournalEntryAcked ring s
  | .run ring => Sys2Proof.Machine.execRun ring s
  | .copy ring => Sys2Proof.Machine.execCopy ring s
  | .fill ring => Sys2Proof.Machine.execFill ring s
  | .waitDescriptor ring => Sys2Proof.Machine.execWaitDescriptor ring s
  | .signalDescriptor ring => Sys2Proof.Machine.execSignalDescriptor ring s
  | .hintDescriptor ring => Sys2Proof.Machine.execHintDescriptor ring s
  | .barrier ring => Sys2Proof.Machine.execBarrier ring s
  | .migrate ring => Sys2Proof.Machine.execMigrate ring s
  | .migrateCopyDone ring seq data => Sys2Proof.Machine.execMigrateCopyDone ring seq data s
  | .migrateBackDone ring seq => Sys2Proof.Machine.execMigrateBackDone ring seq s
  | .invalidate ring items => Sys2Proof.Machine.execInvalidate ring items s
  | .updateItemApplied ring seq reason => Sys2Proof.Machine.execUpdateItemApplied ring seq reason s
  | .invalidateDrainDone ring seq => Sys2Proof.Machine.execInvalidateDrainDone ring seq s
  | .headTimeout ring seq => Sys2Proof.Machine.execHeadTimeout ring seq s
  | .resourceWaitLimit ring => Sys2Proof.Machine.execResourceWaitLimit ring s
  | .checkpointDone ring seq => Sys2Proof.Machine.execCheckpointDone ring seq s
  | .commandComplete ring seq => Sys2Proof.Machine.execCommandComplete ring seq s
  | .recordWrite ring => Sys2Proof.Machine.execRecordWrite ring s
  | .ringEnable who ring => Sys2Proof.Machine.execRingEnable who ring s
  | .ringDisable who ring => Sys2Proof.Machine.execRingDisable who ring s
  | .ctxRctlReset who ring => Sys2Proof.Machine.execCtxRctlReset who ring s
  | .ctxCfgWrite who ctx v => Sys2Proof.Machine.execCtxCfgWrite who ctx v s
  | .ctxRstatRead who ring => Sys2Proof.Machine.execCtxRstatRead who ring s
  | .msixEvent fn vec => Sys2Proof.Machine.execMsixEvent fn vec s
  | .msixTimeExpiry fn vec => Sys2Proof.Machine.execMsixTimeExpiry fn vec s
  | .msixUnmask fn vec => Sys2Proof.Machine.execMsixUnmask fn vec s
  | .hostFifoInsert ev => Sys2Proof.Machine.execHostFifoInsert ev s
  | .evtPopRead who => Sys2Proof.Machine.execEvtPopRead who s
  | .evtCtlFlush who => Sys2Proof.Machine.execEvtCtlFlush who s
  | .evtLostRead who => Sys2Proof.Machine.execEvtLostRead who s
  | .eventSecondEnd => Sys2Proof.Machine.execEventSecondEnd s
  | .getReq port r => Sys2Proof.Machine.execGetReq port r s
  | .ranoaPut port r => Sys2Proof.Machine.execRanoaPut port r s
  | .ranoaPutMasked port r => Sys2Proof.Machine.execRanoaPutMasked port r s
  | .getData port r => Sys2Proof.Machine.execGetData port r s
  | .putAck port r => Sys2Proof.Machine.execPutAck port r s
  | .err port r => Sys2Proof.Machine.execErr port r s
  | .sbMsg port m => Sys2Proof.Machine.execSbMsg port m s
  | .hello port serial peerPort lanes => Sys2Proof.Machine.execHello port serial peerPort lanes s
  | .ranoaLinkAck port lseq => Sys2Proof.Machine.execRanoaLinkAck port lseq s
  | .ranoaLinkNak port => Sys2Proof.Machine.execRanoaLinkNak port s
  | .ranoaCreditReturn port vc n => Sys2Proof.Machine.execRanoaCreditReturn port vc n s
  | .ranoaHeartbeat port corrected => Sys2Proof.Machine.execRanoaHeartbeat port corrected s
  | .ranoaHeartbeatSend port => Sys2Proof.Machine.execRanoaHeartbeatSend port s
  | .ranoaAckOverdue port => Sys2Proof.Machine.execRanoaAckOverdue port s
  | .ranoaSilenceTimeout port => Sys2Proof.Machine.execRanoaSilenceTimeout port s
  | .ranoaLaneFailure port lane tx => Sys2Proof.Machine.execRanoaLaneFailure port lane tx s
  | .ranoaLightDetect port => Sys2Proof.Machine.execRanoaLightDetect port s
  | .ranoaOpTimeout port => Sys2Proof.Machine.execRanoaOpTimeout port s
  | .putAckSend port => Sys2Proof.Machine.execPutAckSend port s
  | .sbMsgSend busy => Sys2Proof.Machine.execSbMsgSend busy s
  | .rnaWoffValidSet who n v => Sys2Proof.Machine.execRnaWoffValidSet who n v s
  | .rnaWoffValidClear who n => Sys2Proof.Machine.execRnaWoffValidClear who n s
  | .ranoaWindowDrainDone n => Sys2Proof.Machine.execRanoaWindowDrainDone n s
  | .rnaLogRead who => Sys2Proof.Machine.execRnaLogRead who s
  | .rnaPerrRead who port => Sys2Proof.Machine.execRnaPerrRead who port s
  | .fastLoopTick watts => Sys2Proof.Machine.execFastLoopTick watts s
  | .slowLoopTick watts vin => Sys2Proof.Machine.execSlowLoopTick watts vin s
  | .floorRecompute floor => Sys2Proof.Machine.execFloorRecompute floor s
  | .pwrCtlWrite who v => Sys2Proof.Machine.execPwrCtlWrite who v s
  | .pwrCapWrite who v => Sys2Proof.Machine.execPwrCapWrite who v s
  | .pwrGroupWrite who v => Sys2Proof.Machine.execPwrGroupWrite who v s
  | .hintPhaseStart tile => Sys2Proof.Machine.execHintPhaseStart tile s
  | .hintLapse tile => Sys2Proof.Machine.execHintLapse tile s
  | .tempSample temps => Sys2Proof.Machine.execTempSample temps s
  | .coreThrottleStep die => Sys2Proof.Machine.execCoreThrottleStep die s
  | .groupMemberSilent origin => Sys2Proof.Machine.execGroupMemberSilent origin s
  | .runTimeoutSuspect ring seq => Sys2Proof.Machine.execRunTimeoutSuspect ring seq s
  | .tileResetDone pos ok => Sys2Proof.Machine.execTileResetDone pos ok s
  | .replayStart ring seq => Sys2Proof.Machine.execReplayStart ring seq s
  | .replayTimeout ring seq => Sys2Proof.Machine.execReplayTimeout ring seq s
  | .tileDieFailure pos => Sys2Proof.Machine.execTileDieFailure pos s
  | .tileRecoveryDone pos ok => Sys2Proof.Machine.execTileRecoveryDone pos ok s
  | .journalMirrorRebuild mirror => Sys2Proof.Machine.execJournalMirrorRebuild mirror s
  | .linkCrcError port side hdr body crc => Sys2Proof.Machine.execLinkCrcError port side hdr body crc s
  | .ranoaLinkCrcError port hdr body crc uncorr => Sys2Proof.Machine.execRanoaLinkCrcError port hdr body crc uncorr s
  | .hubLaneFailure port waveguide => Sys2Proof.Machine.execHubLaneFailure port waveguide s
  | .hostDieFailure => Sys2Proof.Machine.execHostDieFailure s
  | .ranoaDieFailure die => Sys2Proof.Machine.execRanoaDieFailure die s
  | .hostReadCompletion tag data ok => Sys2Proof.Machine.execHostReadCompletion tag data ok s
  | .sealComplete => Sys2Proof.Machine.execSealComplete s

end Sys2Proof.Machine
end

