-- ==== Sys2Proof/Machine/Reads.lean ====
section
/-!
DEFINITION. What a read of a register returns: the fields of every register, and who reads them (00 R10; 17 R578, R588, R594; 18
R610 to R617, R620). The table has no command for a read that changes nothing; those that clear, pop or claim have rows of their
own, which answer with the words given here.
-/
namespace Sys2Proof.Machine

/-! ## Words that no row of its own answers with -/

/-- GLB_TILEMAPn (01 R19): VALID, and PHYS, which means nothing while VALID is 0. -/
def State.tilemapWord (s : State) (n : Nat) : Nat := match s.posOf n with | some p => 2 ^ 31 + p % 64 | none => 0

/-- GLB_REVTABLEp (01 R21). -/
def State.revWord (s : State) (p : Nat) : Nat :=
  let d := (s.glb.manifest[p]?).getD {}
  at_ (look 0 s.glb.site p) 28 + at_ (dieType p) 16 + at_ (d.letter % 256) 8 + d.digit % 256

/-- GLB_STATUS (18 R616). -/
def State.glbStatus (s : State) : Nat :=
  let degraded := s.failedSites != 0 || s.glb.tilemap.any (fun p => p.isNone)
  at_ s.failedSites 40 + at_ s.glb.rstCause 28 + at_ (b2n degraded) 2 + at_ (b2n s.glb.sealed) 1 + b2n s.glb.ready

/-- GLB_RECSTAT and GLB_RECCTL (17 R588). -/
def State.recWord (s : State) (off : Nat) : Nat :=
  if off = 0x900 then at_ s.glb.recReason 4 + s.glb.recState
  else if off = 0x908 then (s.reg off).toNat
  else at_ (b2n s.glb.recGo) 63 + at_ (s.regFld off 57 32) 32 + at_ s.glb.recStatus 8

/-- The placement regions and the Ranoa windows bound to an object now (07 R225; 12 R430; 14 R501). -/
def State.bindings (s : State) (obj : Nat) : Nat × Nat :=
  ((s.winNums.filter (fun n => (s.win n).valid && (s.win n).smode != 0 && (s.win n).sync == obj)).length,
    (((List.range 8).flatMap s.rwinNums).filter (fun i => (s.rwinAt i).smode != 0 && (s.rwinAt i).sync == obj)).length)

/-- SYNC_CFGn (07 R225). -/
def State.syncCfgWord (s : State) (obj : Nat) : Nat :=
  let (a, b) := s.bindings obj
  (s.reg (syncCfg obj)).toNat + at_ (b2n (b != 0)) 13 + at_ (b2n (a != 0)) 12 + (a + b) % 4096

/-- MEM_CHMAPs (08 R282): the mapped-out channels of a stack. -/
def State.chmap (s : State) (stack : Nat) : Nat :=
  ((List.range 32).map (fun n => if has (n * 16 + stack) s.memc.maps then 2 ^ n else 0)).sum

/-- MEM_STKSTATs (08 R283). -/
def Stack.statWord (x : Stack) : Nat :=
  at_ x.temp 48 + at_ x.layersLost 16 + at_ (b2n x.refresh2x) 4 + at_ (b2n x.throttle) 3 + x.state

/-- TIER_RESIDENT (09 R322). -/
def State.tierResident (s : State) : Nat :=
  let held := s.tier.frames.filter (fun f => f.2.tile.isSome && !f.2.filling)
  at_ s.dirtyParts 40 + at_ (held.filter (fun f => f.2.pinned)).length 20 + held.length

/-- TIER_PINn (09 R323). -/
def State.pinWord (s : State) (n : Nat) : Nat := (s.reg (tierPin n)).toNat + at_ (b2n (look false s.tier.resident n)) 62

/-- EVT_STAT (13 R486): words of the open item not yet read, and words held. -/
def State.evtStat (s : State) : Nat := at_ ((look [] s.hfifo.opened 0).length % 4) 16 + s.hfifo.words

/-! ## The blocks -/

/-- GLB (01 R19, R21, R27; 17 R588, R599; 18 R614 to R619). -/
def State.glbRead (s : State) (vf : Bool) (off : Nat) : Nat :=
  match inArr 0x200 4 32 off, inArr 0x400 4 64 off with
  | some (n, _), _ => s.tilemapWord n
  | none, some (p, _) => s.revWord p
  | none, none =>
    match off with
    | 0x0 => at_ 1 40 + at_ (0x6400 + b2n vf) 16 + 0x2C4D
    | 0x8 => s.glb.serial.toNat
    | 0x10 => s.glbStatus
    | 0x18 => b2n s.glb.sealBit
    | 0x20 => match s.ivory.running with | some x => x.version % 2 ^ 32 | none => 0
    | 0x28 => s.time % 2 ^ 64
    | 0x100 => s.glb.features
    | 0x800 => (s.reg off).toNat
    | 0x808 => at_ (b2n s.glb.mboxGo.isSome) 63 + at_ (s.regFld off 47 32) 32 + at_ s.glb.mboxStatus 8 + s.glb.mboxCmd
    | _ => 0

/-- HIF (12 R435 to R439; 13 R451, R452, R481). -/
def State.hifRead (s : State) (off : Nat) : Nat :=
  match inArr 0x0100100 0x40 32 off, inArr 0x0180000 0x20 4096 off, inArr 0x0101000 8 2048 off, inArr 0x0108000 0x200 32 off with
  | some (f, k), _, _, _ =>
    if k = 0 then (s.sessCtl f).toNat
    else if k = 8 then (if (s.sessOf f).state = .attached then (s.sessOf f).token.toNat else 0)
    else (s.reg off).toNat
  | none, some (n, k), _, _ => (s.reg off).toNat + if k = 0 ∧ has n s.hif.plapDrain then 2 ^ 62 else 0
  | none, none, some (v, _), _ => (s.reg off).toNat + at_ (look {} s.msix (vecKey 0 v)).gathered 32
  | none, none, none, some (f, k) => (s.reg off).toNat + at_ (look {} s.msix (vecKey f (k / 8))).gathered 32
  | none, none, none, none =>
    match off with
    | 0x0100000 => s.linkStat.toNat
    | 0x0100018 => at_ s.pollNow 40 + (s.reg off).toNat
    | 0x0100020 => s.plogWord.toNat
    | 0x0100028 => s.hif.plog.off % 2 ^ 40
    | _ => (s.reg off).toNat

/-- CTX (13 R442, R446, R474). -/
def State.ctxRead (s : State) (off : Nat) : Nat :=
  match inArr 0x0210000 0x40 4096 off, inArr 0x0200000 0x40 1024 off with
  | some (r, k), _ =>
    if k = 0x20 then (s.ringOf r).acc
    else if k = 0x28 then (s.ringOf r).done
    else if k = 0x30 then (s.rstat r).toNat
    else if k = 0x38 then 0
    else (s.reg off).toNat
  | none, some (c, _) =>
    let n := (s.disp.cmds.filter (fun x => s.ringCtx x.ring == c && (x.phase == .queued || x.phase == .head || x.phase == .running
      || x.phase == .ending))).length
    (s.reg off).toNat % 2 ^ 48 + at_ (min 0xFFFF n) 48
  | none, none => if off = 0x0300000 then at_ s.journal 47 + (s.reg off).toNat else 0

/-- EVT: the host's registers; a core also reads its die's and its own, where a claim or a pop takes what it returns (11 R405 to
R408, 13 R486). -/
def State.evtRead (s : State) (who : Agent) (off : Nat) : Nat :=
  match off with
  | 0x0400000 => (s.hfifo.pop 0).1.toNat
  | 0x0400008 => (s.reg off).toNat
  | 0x0400010 => s.evtLost.toNat
  | 0x0400018 => s.evtStat
  | _ =>
    match who with
    | .host _ => 0
    | .core c =>
      match inArr 0x0480000 0x100 4 off, inArr 0x04A0000 0x10 16384 off, inArr 0x04E0000 0x10 128 off with
      | some (d, 0), _, _ => ((s.cdieOf d).fifo.pop c).1.toNat
      | some (_, 8), _, _ => (s.reg off).toNat
      | some (d, _), _, _ => (s.cstat d).toNat
      | _, some (i, 0), _ => if i % 4096 = 4095 then 0 else (s.reg off).toNat
      | _, some (i, _), _ => if i % 4096 = 4095 then 0 else (s.istat (i / 4096) (i % 4096)).toNat
      | _, _, some (o, k) =>
        if o != c then 0
        else if k = 8 then (s.ithrWord o).toNat
        else match s.claimable (o / 32) (o % 32) with
          | some n => at_ (s.srcOf (o / 32) n).gathered 20 + n
          | none => 0xFFF
      | _, _, _ => 0

/-- PWR (15 R545 to R550). -/
def State.pwrRead (s : State) (off : Nat) : Nat :=
  match inArr 0x0500100 4 64 off with
  | some (p, _) => s.dieTemp p
  | none =>
    match off with
    | 0x0500010 => s.pwrStatus.toNat
    | 0x0500018 => min 0xFFFF s.pwr.floor
    | 0x0500020 => s.pwr.energy % 2 ^ 64
    | 0x0500028 => s.pwrPower.toNat
    | 0x0500038 => s.groupStat.toNat
    | _ => (s.reg off).toNat

/-- MEM (08 R274, R279 to R284; 09 R315 to R318). -/
def State.memRead (s : State) (who : Agent) (off : Nat) : Nat :=
  if 0x0680000 ≤ off then
    let i := (off - 0x0680000) / 8
    if who = .core (i / 128) ∧ i % 8 = 0 then b2n (look {} (s.stackOf (i / 8 % 16)).win (i / 128)).busy else 0
  else match inArr 0x0600080 4 32 off, inArr 0x0600100 8 16 off, inArr 0x0600200 8 16 off, inArr 0x0600300 8 16 off,
      inArr 0x0600440 8 4 off with
    | some (i, _), _, _, _, _ => match s.shownMaps[i]? with | some c => 2 ^ 31 + c | none => 0
    | _, some (k, _), _, _, _ => s.chmap k
    | _, _, some (k, _), _, _ => (s.stackOf k).statWord
    | _, _, _, some (k, _), _ => (s.stackOf k).errWord.toNat
    | _, _, _, _, some (d, _) => (s.poolStat d).toNat
    | _, _, _, _, _ =>
      match off with
      | 0x0600000 => at_ s.memc.active 16 + (s.reg off).toNat
      | 0x0600008 => at_ s.shownMaps.length 48 + s.shownEnd
      | 0x0600010 => at_ s.memc.frameCount 16 + (s.reg off).toNat
      | 0x0600018 => s.memc.frameBase
      | _ => (s.reg off).toNat

/-- TIER (09 R319 to R323). -/
def State.tierRead (s : State) (off : Nat) : Nat :=
  match inArr 0x0700100 8 64 off with
  | some (n, _) => s.pinWord n
  | none =>
    match off with
    | 0x0700000 => (s.reg off).toNat + b2n s.tier.flushing
    | 0x0700010 => (s.tierDieWord 0).toNat
    | 0x0700018 => (s.tierDieWord 1).toNat
    | 0x0700020 => s.tier.written
    | _ => s.tierResident

/-- RNA (14 R516 to R519). -/
def State.rnaRead (s : State) (off : Nat) : Nat :=
  match inArr 0x0800100 0x20 8 off, inArr 0x0801000 0x20 2048 off with
  | some (n, k), _ =>
    let x := s.rportOf n
    if k = 0 then at_ x.lanes 48 + at_ x.peerPort 40 + x.state
    else if k = 8 then x.peerSerial.toNat
    else if k = 0x10 then (s.rnaPerr n).toNat
    else x.cut
  | none, some (i, k) => (s.reg off).toNat + if k = 0 ∧ has i s.rna.drain then 2 ^ 62 else 0
  | none, none =>
    match off with
    | 0x0800010 => s.rnaLog.toNat
    | 0x0800018 => s.rna.logOff % 2 ^ 44
    | _ => (s.reg off).toNat

/-- XLT (10 R354 to R360). -/
def State.xltRead (s : State) (off : Nat) : Nat :=
  match inArr 0x0901000 0x20 1024 off with
  | some (c, k) =>
    if k = 0 then look 0 s.xlt.root c * 65536 + b2n (has c s.xlt.rootOk)
    else if k = 0x18 then (s.frCtl c).toNat
    else (s.reg off).toNat
  | none => if off = 0x0900010 then s.xltStat.toNat else (s.reg off).toNat

/-- TEL (03 R85). -/
def State.telRead (s : State) (off : Nat) : Nat :=
  match inArr 0x0A01000 0x40 264 off with
  | some (i, k) => (look 0#64 (s.tileOf (i / 8)).tel (8 * (i % 8) + k / 8)).toNat
  | none => 0

/-- HUB (02 R67 to R70). -/
def State.hubRead (s : State) (off : Nat) : Nat :=
  match inArr 0x0B00100 8 64 off, inArr 0x0B00300 8 64 off with
  | some (p, _), _ => (s.linkWord p).toNat
  | none, some (p, _) => (s.linkErr p).toNat
  | none, none => (s.reg off).toNat

/-- IVR (17 R594, R605, R606): digest byte k, the k-th from the most significant end of the digest, at byte k; a voltage in each
halfword. -/
def State.ivrRead (s : State) (off : Nat) : Nat :=
  let v := s.ivory
  match inArr 0x0F00100 8 32 off, inArr 0x0F00200 0x40 9 off, inArr 0x0F01000 0x20 33 off with
  | some (f, _), _, _ => partMaskOf v f
  | _, some (i, k), _ => leNat (leBytes 8 (bitsOf (s.measure i).toNat (383 - 8 * k) (320 - 8 * k))).reverse
  | _, _, some (p, k) => ((List.range 4).map (fun i => at_ (Config.fusedVolt p (k / 2 + i)).toNat (16 * i))).sum
  | _, _, _ =>
    match off with
    | 0x0F00000 => at_ v.fusedSvn 56 + at_ ((v.running.map FwImage.svn).getD 0 % 256) 48 + at_ v.debug 6 + at_ (b2n v.owned) 5
        + at_ (b2n s.glb.sealed) 4
    | 0x0F00008 => at_ v.board 32 + v.hard
    | 0x0F00010 => at_ v.throttleOfs 8 + v.warnOfs
    | _ => v.ownerSeq

/-- SYNC (07 R223 to R226). -/
def State.syncRead (s : State) (off : Nat) : Nat :=
  match inArr 0x1000000 0x40 8192 off with
  | some (n, k) =>
    if k = 0 then (s.syncOf n).val.toNat else if k = 8 then s.syncCfgWord n else (s.syncStat n).toNat
  | none => 0

/-! ## Who reads what -/

/-- What a VF reads normally (18 R613). -/
def State.vfReads (s : State) (fn off : Nat) : Bool :=
  if off < 0x0100000 then has off [0x0, 0x10, 0x20, 0x28, 0x100] || decide (0x200 ≤ off) && decide (off < 0x500)
  else if off < 0x0200000 then s.vfWrites fn off
  else if off < 0x0300000 then
    match inArr 0x0210000 0x40 4096 off, inArr 0x0200000 0x40 1024 off with
    | some (r, _), _ => s.ringFn r == fn
    | none, some (c, _) => s.ctxFn c == fn
    | none, none => false
  else if off < 0x0500000 then false
  else if off < 0x0800000 then true
  else if off < 0x0900000 then
    off == 0x0800000 || (match inArr 0x0800100 0x20 8 off with | some (_, k) => k != 0x18 | none => false)
  else if off < 0x0A00000 then
    off == 0x0900000 || off == 0x0900010 || (match inArr 0x0901000 0x20 1024 off with | some (c, _) => s.ctxFn c == fn | none => false)
  else if off < 0x0C00000 then true
  else if off < 0x1000000 then false
  else match inArr 0x1000000 0x40 8192 off with
    | some (n, _) => bitOf (s.reg (syncCfg n)).toNat 31 && s.ctxFn (s.regFld (syncCfg n) 25 16) == fn
    | none => false

/-- The fields of a register; an offset that names none reads 0 (18 R611). -/
def State.blockRead (s : State) (who : Agent) (off : Nat) : Nat :=
  if !isReg64 off && !isReg32 off then 0
  else if off < 0x0100000 then s.glbRead (!isPf0OrCore who) off
  else if off < 0x0200000 then s.hifRead off
  else if off < 0x0400000 then s.ctxRead off
  else if off < 0x0500000 then s.evtRead who off
  else if off < 0x0600000 then s.pwrRead off
  else if off < 0x0700000 then s.memRead who off
  else if off < 0x0800000 then s.tierRead off
  else if off < 0x0900000 then s.rnaRead off
  else if off < 0x0A00000 then s.xltRead off
  else if off < 0x0B00000 then s.telRead off
  else if off < 0x0C00000 then s.hubRead off
  else if off < 0x1000000 then s.ivrRead off
  else s.syncRead off

/-- What a read of a register's width returns to an agent: before READY the host reads 0, except the recovery registers while a
start-up is stopped or in recovery, which read 0 at any other time (17 R578, R588); a VF reads what is its own and what 18 R613
lets every function read; a core reads a register in the internal space whatever the host may (18 R612). -/
def State.readReg (s : State) (who : Agent) (off : Nat) : Word :=
  let recovering : Bool := match s.boot.phase with | .recovery | .stopped _ => true | _ => false
  let rec_ : Bool := off == 0x900 || off == 0x908 || off == 0x910
  BitVec.ofNat 64
    (if rec_ then (if recovering && isPf0OrCore who then s.recWord off else 0)
    else match who with
      | .core _ => s.blockRead who off
      | .host fn =>
        if !s.glb.ready || internalOnly off || (fn != 0 && !s.vfReads fn off) then 0 else s.blockRead who off)

/-- A 4-byte read of one half of a 64-bit register (18 R620). -/
def State.readHalf (s : State) (who : Agent) (off : Nat) : BitVec 32 :=
  let w := s.readReg who (off / 8 * 8)
  if off % 8 = 4 then (w >>> 32).setWidth 32 else w.setWidth 32

end Sys2Proof.Machine
end

