-- ==== Sys2Proof/WellFormed.lean ====
section
/-!
DEFINITION. The ranges of the commands' operands: dies, ports, cores, slots, objects, rings and the fields of packets, as the
manual numbers them (00, Numbering; 01 R11; 02 R38).
-/
namespace Sys2Proof

/-- An optional operand, when present, passes a check. -/
def optOk {α : Type} (f : α → Bool) : Option α → Bool
  | none => true
  | some a => f a

/-- A function of the host or a core (00, Numbering). -/
def Agent.ok : Agent → Bool
  | .host fn => decide (fn < 32)
  | .core c => decide (c < 128)

/-- A hub packet: ports, TID, address and payload in range (02 R38, R39). -/
def pktOk (p : Pkt) : Bool :=
  decide (p.src < 64) && decide (p.dst < 64) && decide (p.tid < 2 ^ 32) && decide (p.addr < 2 ^ 48)
    && decide (p.payload.length ≤ 256) && decide (p.checks.length ≤ 4) && decide (p.rdLen ≤ 256)

/-- A Ranoa packet: a payload of up to 256 B in 16 B units (14 R490, R491); the masked payload has 80 B (R492). -/
def rpktOk (p : RPkt) : Bool :=
  decide (p.tid < 2 ^ 32) && decide (p.psn < 2 ^ 48) && decide (p.offset < 2 ^ 44) && decide (p.payload.length ≤ 256)
    && decide (p.payload.length % 16 = 0) && decide (p.status < 256) && decide (p.rdLen ≤ 16)

/-- A side-band message (14 R514). -/
def sbOk (m : SbMsg) : Bool :=
  decide (m.hops < 256) && decide (m.group < 65536) && decide (m.origin < 2 ^ 64) && decide (m.bal < 4)

/-- An event item (16 R559): of one to three words after word 0. -/
def evOk (e : EvItem) : Bool :=
  decide (e.cls < 16) && decide (e.pri < 4) && decide (e.code < 256) && decide (e.arg < 2 ^ 32) && decide (e.extra.length ≤ 2)

/-- The lists of a descriptor, where they could be read (13 R454). -/
def listsOk (l : ListsRead) : Bool :=
  optOk (fun b => decide (b.length ≤ 4096)) l.sync && optOk (fun b => decide (b.length ≤ 4096)) l.regions
    && optOk (fun b => decide (b.length ≤ 4096)) l.localSet

/-- A firmware image (17 R582). -/
def fwOk (i : FwImage) : Bool := decide (i.magic < 2 ^ 32) && decide (i.svn < 256) && decide (i.version < 2 ^ 32)

/-- An owner request (17 R600). -/
def ownerOk (r : OwnerReq) : Bool :=
  decide (r.cmd < 65536) && decide (r.bodyLen < 65536) && decide (r.serial < 2 ^ 64) && decide (r.seq < 2 ^ 64)

/-- A sensor the module has (17 R608). -/
def sensorOk : Sensor → Bool
  | .dieTemp p => decide (p < 64)
  | .stackTemp k => decide (k < 16)
  | .dieState p => decide (p < 64)
  | .inputPower | .inputVoltage | .inputEnergy | .effectiveCap | .floor | .deviceState => true

/-- Are the operands of a command in range? -/
def Instr.wellFormed : Instr → Bool
  | .powerUpStart _ => true
  | .bootRomLoaded img => optOk fwOk img
  | .imageVerified => true
  | .hostDieEnable => true
  | .packageRailUp => true
  | .emitterStable _ => true
  | .ringCalibrationDone => true
  | .linksTrained adv => adv.all (fun a => decide (a.port < 63))
  | .tileSelfTestDone faults => faults.all (fun a => decide (a.pos < 33) && decide (a.banks < 2 ^ 16))
  | .hbmTrained failed => failed.all (fun c => decide (c < 512))
  | .hbmInitialised => true
  | .tierMounted _ _ => true
  | .coreSelfTestDone passed => passed.all (fun d => decide (d < 4))
  | .readySet => true
  | .startupStopped reason => decide (reason < 256)
  | .configReady => true
  | .configRequest fn dword => decide (fn < 32) && decide (dword < 1024)
  | .perstNAssert => true
  | .perstNDeassert => true
  | .pwrbrkNAssert => true
  | .pwrbrkNRelease => true
  | .vin36OutOfRange _ => true
  | .vinLowTimeout => true
  | .vinHighTimeout => true
  | .hubThermtripComparator => true
  | .pldmFwUpdate => true
  | .fwImageReceived img => fwOk img
  | .fwProgramDone _ => true
  | .activateFirmware => true
  | .recoveryGo addr _ => decide (addr < 2 ^ 64)
  | .recoveryProgramDone img => optOk fwOk img
  | .spdmGetCertificate slot _ _ => decide (slot < 8)
  | .spdmChallenge _ => true
  | .spdmGetMeasurements index _ => decide (index < 256)
  | .spdmKeyExchange _ => true
  | .spdmVendorDefinedRequest _ _ _ _ => true
  | .ideKmRequest stream lo hi _ => decide (stream < 256) && decide (lo < 65536) && decide (hi < 65536)
  | .mctpControl _ => true
  | .pldmGetSensorReading sensor => sensorOk sensor
  | .pldmSetNumericEffecter limit => decide (limit < 65536)
  | .ownerSet who req => who.ok && optOk ownerOk req
  | .setHardPower who req => who.ok && optOk ownerOk req
  | .setThermal who req => who.ok && optOk ownerOk req
  | .setPartition who req => who.ok && optOk ownerOk req
  | .debugUnlock who req => who.ok && optOk ownerOk req
  | .debugLock who req => who.ok && optOk ownerOk req
  | .sealRegs who => who.ok
  | .warmreset who key => who.ok && decide (key < 256)
  | .hubHeartbeatLoss => true
  | .hostFailWarmReset => true
  | .warmResetBegin => true
  | .warmResetFenced => true
  | .warmResetHubReady => true
  | .warmResetDiesReset adv => adv.all (fun a => decide (a.port < 63))
  | .warmResetHbmTrained failed => failed.all (fun c => decide (c < 512))
  | .warmResetHbmInitialised => true
  | .warmResetTierRemounted bad => bad.all (fun d => decide (d < 2))
  | .warmResetRuntimeStarted passed => passed.all (fun d => decide (d < 4))
  | .warmResetReady => true
  | .ivoryDieStop => true
  | .registerWrite who off size data => who.ok && decide (off < 2 ^ 26) && decide (1 ≤ size) && decide (data.length ≤ 8)
  | .bar0MalformedAccess fn off _ => decide (fn < 32) && decide (off < 2 ^ 26)
  | .coreReservedRegisterAccess core addr _ => decide (core < 128) && decide (addr < 2 ^ 48)
  | .ivrInternalWrite core off => decide (core < 128) && decide (off < 2 ^ 26)
  | .read p _ => pktOk p
  | .narrowRead p _ => pktOk p
  | .write p => pktOk p
  | .writeMasked p _ => pktOk p
  | .readWaitTurnTimeout stack pc => decide (stack < 16) && decide (pc < 64)
  | .atomicSwap p _ => pktOk p
  | .atomicAdd p _ => pktOk p
  | .atomicAnd p _ => pktOk p
  | .atomicOr p _ => pktOk p
  | .atomicXor p _ => pktOk p
  | .atomicMin p _ => pktOk p
  | .atomicMax p _ => pktOk p
  | .atomicMinu p _ => pktOk p
  | .atomicMaxu p _ => pktOk p
  | .gatherRows p _ => pktOk p
  | .scatterAdd p _ => pktOk p
  | .reduce core stack tag => decide (core < 128) && decide (stack < 16) && decide (tag < 2 ^ 32)
  | .kvAppend core stack tag => decide (core < 128) && decide (stack < 16) && decide (tag < 2 ^ 32)
  | .stackCmdResult core stack => decide (core < 128) && decide (stack < 16)
  | .dispatch pos ring seq part => decide (pos < 33) && decide (ring < 4096) && decide (seq < 2 ^ 64) && decide (part < 128)
  | .respData p => pktOk p
  | .respAck p => pktOk p
  | .respErr p => pktOk p
  | .respRetry p => pktOk p
  | .mgmt src dst _ => decide (src < 64) && decide (dst < 64)
  | .linkAck port _ seq => decide (port < 64) && decide (seq < 2 ^ 16)
  | .linkNak port _ => decide (port < 64)
  | .creditReturn port _ dst vc _ => decide (port < 64) && decide (dst < 64) && decide (vc < 5)
  | .heartbeat port _ => decide (port < 64)
  | .epochChange port => decide (port < 64)
  | .ackOverdue port _ => decide (port < 64)
  | .heartbeatSend port _ => decide (port < 64)
  | .carrierLossTimeout port => decide (port < 64)
  | .fastRetrainDone port advDie advHub => decide (port < 64) && decide (advDie < 256) && decide (advHub < 256)
  | .fullTrainingDone port advDie advHub => decide (port < 64) && decide (advDie < 256) && decide (advHub < 256)
  | .retrainTimeout port => decide (port < 64)
  | .fenceComplete port => decide (port < 64)
  | .targetTimeout src tid => decide (src < 64) && decide (tid < 2 ^ 32)
  | .tierWaitTimeout src tid => decide (src < 64) && decide (tid < 2 ^ 32)
  | .calibrationPause port => decide (port < 64)
  | .calibrationResume port => decide (port < 64)
  | .emitterFailure => true
  | .rootClockLoss site => decide (site.getD 0 < 63)
  | .rootClockReturn site => decide (site.getD 0 < 63)
  | .holdoverExpired port => decide (port < 64)
  | .hubLinkerrRead who port => who.ok && decide (port < 64)
  | .nop pos slot => decide (pos < 33) && decide (slot < 4)
  | .li pos slot => decide (pos < 33) && decide (slot < 4)
  | .alu pos slot => decide (pos < 33) && decide (slot < 4)
  | .alui pos slot => decide (pos < 33) && decide (slot < 4)
  | .br pos slot => decide (pos < 33) && decide (slot < 4)
  | .jmp pos slot => decide (pos < 33) && decide (slot < 4)
  | .loop pos slot => decide (pos < 33) && decide (slot < 4)
  | .lset pos slot => decide (pos < 33) && decide (slot < 4)
  | .ladd pos slot => decide (pos < 33) && decide (slot < 4)
  | .lcpy pos slot => decide (pos < 33) && decide (slot < 4)
  | .rdstat pos slot => decide (pos < 33) && decide (slot < 4)
  | .clrstat pos slot => decide (pos < 33) && decide (slot < 4)
  | .rdctl pos slot => decide (pos < 33) && decide (slot < 4)
  | .wrctl pos slot => decide (pos < 33) && decide (slot < 4)
  | .sysrd pos slot => decide (pos < 33) && decide (slot < 4)
  | .fence pos slot => decide (pos < 33) && decide (slot < 4)
  | .hint pos slot => decide (pos < 33) && decide (slot < 4)
  | .exit pos slot => decide (pos < 33) && decide (slot < 4)
  | .mma pos slot => decide (pos < 33) && decide (slot < 4)
  | .mdrain pos slot => decide (pos < 33) && decide (slot < 4)
  | .vld pos slot => decide (pos < 33) && decide (slot < 4)
  | .vst pos slot => decide (pos < 33) && decide (slot < 4)
  | .vop pos slot => decide (pos < 33) && decide (slot < 4)
  | .vops pos slot => decide (pos < 33) && decide (slot < 4)
  | .vcmp pos slot => decide (pos < 33) && decide (slot < 4)
  | .vmask pos slot => decide (pos < 33) && decide (slot < 4)
  | .vred pos slot => decide (pos < 33) && decide (slot < 4)
  | .vsfu pos slot => decide (pos < 33) && decide (slot < 4)
  | .vcvt pos slot => decide (pos < 33) && decide (slot < 4)
  | .load pos slot => decide (pos < 33) && decide (slot < 4)
  | .store pos slot => decide (pos < 33) && decide (slot < 4)
  | .gather pos slot => decide (pos < 33) && decide (slot < 4)
  | .scatteradd pos slot => decide (pos < 33) && decide (slot < 4)
  | .xpref pos slot => decide (pos < 33) && decide (slot < 4)
  | .put pos slot => decide (pos < 33) && decide (slot < 4)
  | .get pos slot => decide (pos < 33) && decide (slot < 4)
  | .signal pos slot => decide (pos < 33) && decide (slot < 4)
  | .rsignal pos slot => decide (pos < 33) && decide (slot < 4)
  | .wait pos slot => decide (pos < 33) && decide (slot < 4)
  | .tokset pos slot => decide (pos < 33) && decide (slot < 4)
  | .tokwait pos slot => decide (pos < 33) && decide (slot < 4)
  | .queueInstrStart pos slot _ => decide (pos < 33) && decide (slot < 4)
  | .rsignalSend pos slot => decide (pos < 33) && decide (slot < 4)
  | .matrixInstrComplete pos slot _ => decide (pos < 33) && decide (slot < 4)
  | .vectorInstrComplete pos slot => decide (pos < 33) && decide (slot < 4)
  | .inboundMoveComplete pos slot _ => decide (pos < 33) && decide (slot < 4)
  | .outboundMoveComplete pos slot _ => decide (pos < 33) && decide (slot < 4)
  | .syncInstrComplete pos slot _ => decide (pos < 33) && decide (slot < 4)
  | .xprefComplete pos slot _ => decide (pos < 33) && decide (slot < 4)
  | .gatherListRead pos slot _ => decide (pos < 33) && decide (slot < 4)
  | .slotEnd pos slot => decide (pos < 33) && decide (slot < 4)
  | .programHeaderRead pos slot hdr => decide (pos < 33) && decide (slot < 4) && decide (hdr.length ≤ 64)
  | .programLoaded pos slot _ => decide (pos < 33) && decide (slot < 4)
  | .zeroingDone pos slot => decide (pos < 33) && decide (slot < 4)
  | .syncAdd src tid obj _ => decide (src < 64) && decide (tid < 2 ^ 32) && decide (obj < 8192)
  | .syncSet src tid obj _ => decide (src < 64) && decide (tid < 2 ^ 32) && decide (obj < 8192)
  | .syncWaitGe src tid obj _ => decide (src < 64) && decide (tid < 2 ^ 32) && decide (obj < 8192)
  | .syncWaitEq src tid obj _ => decide (src < 64) && decide (tid < 2 ^ 32) && decide (obj < 8192)
  | .syncRead src tid obj fn => decide (src < 64) && decide (tid < 2 ^ 32) && decide (obj < 8192) && decide (fn < 32)
  | .syncWake dst tid _ => decide (dst < 64) && decide (tid < 2 ^ 32)
  | .syncValueWrite who obj _ => who.ok && decide (obj < 8192)
  | .amoaddD core obj _ => decide (core < 128) && decide (obj < 8192)
  | .coreSyncBadAccess core addr _ => decide (core < 128) && decide (addr < 2 ^ 48)
  | .syncStatRead who obj => who.ok && decide (obj < 8192)
  | .arrivalCountAdd _ => true
  | .refresh stack pc bank => decide (stack < 16) && decide (pc < 64) && decide (bank < 64)
  | .patrolScrub stack _ => decide (stack < 16)
  | .stackTempSample stack temp => decide (stack < 16) && decide (temp < 256)
  | .mapoutStart slot => decide (slot < 512)
  | .mapoutEvictDone => true
  | .mapoutMapDistributed => true
  | .mapoutComplete => true
  | .layerFailure stack layer => decide (stack < 16) && decide (layer < 16)
  | .stackRecoveryStart stack => decide (stack < 16)
  | .stackRecoveryDone stack _ failed => decide (stack < 16) && failed.all (fun c => decide (c < 512))
  | .memErrRead who stack => who.ok && decide (stack < 16)
  | .poolFillDone die sector => decide (die < 4) && decide (sector < 2 ^ 42)
  | .poolHandbackDone die sector => decide (die < 4) && decide (sector < 2 ^ 42)
  | .poolDirtyMarkDone die unit => decide (die < 4) && decide (unit < 2 ^ 28)
  | .poolDieFailure die => decide (die < 4)
  | .poolDieRecoveryDone die _ => decide (die < 4)
  | .memPoolstatRead who die => who.ok && decide (die < 4)
  | .tierMapMiss tile => decide (tile < 2 ^ 25)
  | .tierMapReply tile => decide (tile < 2 ^ 25)
  | .frameEvictionDone frame => decide (frame < 2 ^ 19)
  | .tierFetchDone tile bad => decide (tile < 2 ^ 25) && bad.all (fun k => decide (k < 16))
  | .partOpenRecorded part => decide (part < 2 ^ 29)
  | .flashProgramDone part _ => decide (part < 2 ^ 29)
  | .tierBackgroundWriteback => true
  | .tierFlush who => who.ok
  | .tierFlushDone => true
  | .tierPinSet who n first count => who.ok && decide (n < 64) && decide (first < 2 ^ 25) && decide (count < 2 ^ 25)
  | .tierPinClear who n => who.ok && decide (n < 64)
  | .tierPinResident n => decide (n < 64)
  | .wearLevelling die _ _ => decide (die < 2)
  | .readDisturbRelocate die _ => decide (die < 2)
  | .badBlockRetire die _ _ spare => decide (die < 2) && decide (spare < 101)
  | .tierDieFailure die => decide (die < 2)
  | .tierDieRead who die => who.ok && decide (die < 2)
  | .tableWalkDone ctx page reason => decide (ctx < 1024) && decide (page < 2 ^ 39) && decide (reason < 256)
  | .atsCompletion ctx page parts => decide (ctx < 1024) && decide (page < 2 ^ 39)
      && parts.all (fun a => decide (a.unit < 16) && decide (a.span ≤ 16) && decide (a.addr < 2 ^ 64))
  | .priResponse ctx page unit _ => decide (ctx < 1024) && decide (page < 2 ^ 39) && decide (unit < 2 ^ 43)
  | .atsInvalidateRequest fn tag _ _ => decide (fn < 32) && decide (tag < 32)
  | .atsInvalidateDone fn tag => decide (fn < 32) && decide (tag < 32)
  | .xltResume who ctx => who.ok && decide (ctx < 1024)
  | .faultTimeout ctx page => decide (ctx < 1024) && decide (page < 2 ^ 39)
  | .xltStatRead who => who.ok
  | .xltFrctlRead who ctx => who.ok && decide (ctx < 1024)
  | .cfence core => decide (core < 128)
  | .cfenceComplete core => decide (core < 128)
  | .coreIoStoreError core addr reason => decide (core < 128) && decide (addr < 2 ^ 48) && decide (reason < 256)
  | .coreIoLoadPoison core addr reason => decide (core < 128) && decide (addr < 2 ^ 48) && decide (reason < 256)
  | .poisonException core addr => decide (core < 128) && decide (addr < 2 ^ 48)
  | .serrstatClear core _ => decide (core < 128)
  | .coreAccessFault core addr size _ => decide (core < 128) && decide (addr < 2 ^ 48) && decide (1 ≤ size)
  | .cboZero core addr => decide (core < 128) && decide (addr < 2 ^ 48)
  | .dirtyLineEvict die addr data => decide (die < 4) && decide (addr < 2 ^ 48) && (data.length == 0 || data.length == 64)
  | .cacheParityError core addr _ => decide (core < 128) && decide (addr < 2 ^ 48)
  | .cacheDataError die addr _ => decide (die < 4) && decide (addr < 2 ^ 48)
  | .cacheTagError die addr => decide (die < 4) && decide (addr < 2 ^ 48)
  | .coreDieMachineCheck die core => decide (die < 4) && optOk (fun c => decide (c < 128)) core
  | .coreDiePoisonDone die => decide (die < 4)
  | .coreDieResetDone die => decide (die < 4)
  | .coreDieRecoveryDone die _ => decide (die < 4)
  | .rdS p _ => pktOk p
  | .rdX p _ => pktOk p
  | .upg p _ => pktOk p
  | .zero p => pktOk p
  | .evn p => pktOk p
  | .snpInv p data => pktOk p && (data.length == 0 || data.length == 64)
  | .snpShr p data => pktOk p && (data.length == 0 || data.length == 64)
  | .snpFwd p => pktOk p
  | .cohResend die addr => decide (die < 4) && decide (addr < 2 ^ 48)
  | .routerSourceEvent die src => decide (die < 4) && decide (src < 4096)
  | .routerTimeExpiry die src => decide (die < 4) && decide (src < 4096)
  | .routerDelivery die => decide (die < 4)
  | .evtIclaimRead core of => decide (core < 128) && decide (of < 128)
  | .evtIclaimWrite core of _ => decide (core < 128) && decide (of < 128)
  | .evtIthrWrite core of _ => decide (core < 128) && decide (of < 128)
  | .evtIstatSet core die src => decide (core < 128) && decide (die < 4) && decide (src < 4096)
  | .evtIstatPendingClear core die src => decide (core < 128) && decide (die < 4) && decide (src < 4096)
  | .evtIsrcWrite core die src _ => decide (core < 128) && decide (die < 4) && decide (src < 4096)
  | .coreFifoInsert die ev => decide (die < 4) && evOk ev
  | .evtCpopRead core die => decide (core < 128) && decide (die < 4)
  | .evtCctlFlush core die => decide (core < 128) && decide (die < 4)
  | .evtCstatRead core die => decide (core < 128) && decide (die < 4)
  | .dlDown => true
  | .hotReset => true
  | .flrPf0 => true
  | .flrVf fn => decide (fn < 32)
  | .linkRecoveryEnter => true
  | .linkL0Return _ _ _ => true
  | .tlpAcked => true
  | .openSession who fn => who.ok && decide (fn < 32)
  | .claim who fn => who.ok && decide (fn < 32)
  | .claimDone fn => decide (fn < 32)
  | .claimRefusalEnd fn => decide (fn < 32)
  | .release who fn => who.ok && decide (fn < 32)
  | .holdExpiry fn => decide (fn < 32)
  | .redeliver who fn n items => who.ok && decide (fn < 32) && decide (n < 4096) && items.all (fun a => decide (a.ring < 4096) && decide (a.region < 8))
  | .redeliverItemDone fn => decide (fn < 32)
  | .hifSessctlRead who fn => who.ok && decide (fn < 32)
  | .hifLinkstatRead who => who.ok
  | .placementWrite rid off data _ => decide (rid < 65536) && decide (off < 2 ^ 40) && decide (data.length ≤ 512)
  | .ideCheckFail rid off _ => decide (rid < 65536) && decide (off < 2 ^ 40)
  | .bar2Read rid off => decide (rid < 65536) && decide (off < 2 ^ 40)
  | .hifPlogRead who => who.ok
  | .hifPlapValidSet who n _ => who.ok && decide (n < 4096)
  | .hifPlapValidClear who n => who.ok && decide (n < 4096)
  | .placementDrainDone n => decide (n < 4096)
  | .stagedOutputCopy ring seq region => decide (ring < 4096) && decide (seq < 2 ^ 64) && decide (region < 8)
  | .stagedCopyFreed ring seq region => decide (ring < 4096) && decide (seq < 2 ^ 64) && decide (region < 8)
  | .crossPathFlushDone ring seq => decide (ring < 4096) && decide (seq < 2 ^ 64)
  | .doorbellPoll => true
  | .doorbellLineRead fn line _ => decide (fn < 32) && decide (line < 64)
  | .prodRead ring _ _ => decide (ring < 4096)
  | .devmemRingNotify ring => decide (ring < 4096)
  | .descriptorFetched ring desc lists => decide (ring < 4096) && desc.length == 128 && listsOk lists
  | .journalEntryAcked ring => decide (ring < 4096)
  | .run ring => decide (ring < 4096)
  | .copy ring => decide (ring < 4096)
  | .fill ring => decide (ring < 4096)
  | .waitDescriptor ring => decide (ring < 4096)
  | .signalDescriptor ring => decide (ring < 4096)
  | .hintDescriptor ring => decide (ring < 4096)
  | .barrier ring => decide (ring < 4096)
  | .migrate ring => decide (ring < 4096)
  | .migrateCopyDone ring seq _ => decide (ring < 4096) && decide (seq < 2 ^ 64)
  | .migrateBackDone ring seq => decide (ring < 4096) && decide (seq < 2 ^ 64)
  | .invalidate ring _ => decide (ring < 4096)
  | .updateItemApplied ring seq reason => decide (ring < 4096) && decide (seq < 2 ^ 64) && decide (reason < 256)
  | .invalidateDrainDone ring seq => decide (ring < 4096) && decide (seq < 2 ^ 64)
  | .headTimeout ring seq => decide (ring < 4096) && decide (seq < 2 ^ 64)
  | .resourceWaitLimit ring => decide (ring < 4096)
  | .checkpointDone ring seq => decide (ring < 4096) && decide (seq < 2 ^ 64)
  | .commandComplete ring seq => decide (ring < 4096) && decide (seq < 2 ^ 64)
  | .recordWrite ring => decide (ring < 4096)
  | .ringEnable who ring => who.ok && decide (ring < 4096)
  | .ringDisable who ring => who.ok && decide (ring < 4096)
  | .ctxRctlReset who ring => who.ok && decide (ring < 4096)
  | .ctxCfgWrite who ctx _ => who.ok && decide (ctx < 1024)
  | .ctxRstatRead who ring => who.ok && decide (ring < 4096)
  | .msixEvent fn vec => decide (fn < 32) && decide (vec < 2048)
  | .msixTimeExpiry fn vec => decide (fn < 32) && decide (vec < 2048)
  | .msixUnmask fn vec => decide (fn < 32) && decide (vec < 2048)
  | .hostFifoInsert ev => evOk ev
  | .evtPopRead who => who.ok
  | .evtCtlFlush who => who.ok
  | .evtLostRead who => who.ok
  | .eventSecondEnd => true
  | .getReq port r => decide (port < 8) && rpktOk r && decide (1 ≤ r.rdLen)
  | .ranoaPut port r => decide (port < 8) && rpktOk r
  | .ranoaPutMasked port r => decide (port < 8) && rpktOk r
  | .getData port r => decide (port < 8) && rpktOk r
  | .putAck port r => decide (port < 8) && rpktOk r
  | .err port r => decide (port < 8) && rpktOk r
  | .sbMsg port m => decide (port < 8) && sbOk m
  | .hello port serial peerPort lanes => decide (port < 8) && decide (serial < 2 ^ 64) && decide (peerPort < 8) && (lanes == 4 || lanes == 8)
  | .ranoaLinkAck port _ => decide (port < 8)
  | .ranoaLinkNak port => decide (port < 8)
  | .ranoaCreditReturn port vc _ => decide (port < 8) && decide (vc < 4)
  | .ranoaHeartbeat port _ => decide (port < 8)
  | .ranoaHeartbeatSend port => decide (port < 8)
  | .ranoaAckOverdue port => decide (port < 8)
  | .ranoaSilenceTimeout port => decide (port < 8)
  | .ranoaLaneFailure port lane _ => decide (port < 8) && decide (lane < 8)
  | .ranoaLightDetect port => decide (port < 8)
  | .ranoaOpTimeout port => decide (port < 8)
  | .putAckSend port => decide (port < 8)
  | .sbMsgSend _ => true
  | .rnaWoffValidSet who i _ => who.ok && decide (i < 2048)
  | .rnaWoffValidClear who i => who.ok && decide (i < 2048)
  | .ranoaWindowDrainDone i => decide (i < 2048)
  | .rnaLogRead who => who.ok
  | .rnaPerrRead who port => who.ok && decide (port < 8)
  | .fastLoopTick _ => true
  | .slowLoopTick _ _ => true
  | .floorRecompute _ => true
  | .pwrCtlWrite who _ => who.ok
  | .pwrCapWrite who _ => who.ok
  | .pwrGroupWrite who _ => who.ok
  | .hintPhaseStart tile => decide (tile < 32)
  | .hintLapse tile => decide (tile < 32)
  | .tempSample temps => temps.all (fun a => decide (a.port < 64) && decide (a.temp < 256))
  | .coreThrottleStep die => decide (die < 4)
  | .groupMemberSilent _ => true
  | .runTimeoutSuspect ring seq => decide (ring < 4096) && decide (seq < 2 ^ 64)
  | .tileResetDone pos _ => decide (pos < 33)
  | .replayStart ring seq => decide (ring < 4096) && decide (seq < 2 ^ 64)
  | .replayTimeout ring seq => decide (ring < 4096) && decide (seq < 2 ^ 64)
  | .tileDieFailure pos => decide (pos < 33)
  | .tileRecoveryDone pos _ => decide (pos < 33)
  | .journalMirrorRebuild mirror => decide (mirror < 2)
  | .linkCrcError port _ _ body _ => decide (port < 64) && decide (body.length ≤ 272)
  | .ranoaLinkCrcError port _ body _ _ => decide (port < 8) && decide (body.length ≤ 272)
  | .hubLaneFailure port waveguide => decide (port < 64) && decide (waveguide < 64)
  | .hostDieFailure => true
  | .ranoaDieFailure die => decide (die < 2)
  | .hostReadCompletion _ _ _ => true
  | .sealComplete => true

end Sys2Proof
end

