-- ==== Sys2Proof/Safety.lean ====
section
/-!
DEFINITION. What counts as a safe step and a safe run: every command at the front is in range and answers a next state.
-/
namespace Sys2Proof.Machine

/-- The command at the front of the queue, if any, has its operands in range. -/
def State.frontOk (s : State) : Bool :=
  match s.pending with
  | [] => true
  | c :: _ => c.wellFormed

/-- A step is safe when it answers a next state. -/
def SafeStep (s : State) : Prop := s.frontOk = true ∧ ∃ t, step s = .next t

/-- A run of k steps is safe when each of them is. -/
def SafeRun : Nat → State → Prop
  | 0, _ => True
  | k + 1, s => s.frontOk = true ∧ ∃ t, step s = .next t ∧ SafeRun k t

/-- The memory of the address space is in its canonical form: addresses rise strictly, and no listed byte is the one an
unlisted address reads as. -/
def State.memOk (s : State) : Prop := s.mem.wf = true

/-! ## Packets -/

/-- The state in which a request is on its way: as it is when it already is, else once its source has sent it (02 R42, R49). -/
def State.sent (s : State) (p : Pkt) : State := if s.onWay p then s else send p (s.noteReq p (answersOf p))

/-- A target takes a request: it is on its way or may come, its output has granted it and it is the first of its way, neither side is
fenced, and its TID is neither a duplicate nor one the hub has answered (02 R42, R49, R55, R58, R60). -/
abbrev State.takes (s : State) (p : Pkt) : Prop :=
  s.fenced p.src = false ∧ s.fenced p.dst = false ∧ s.seenTid p.dst p.src p.tid = false ∧ (p.src, p.tid) ∉ s.hub.dropped ∧
  s.mayCome p = true ∧ (s.sent p).canArrive p = true

/-- The state in which its target has taken a request: it has left the hub and its TID is noted (02 R49). -/
def State.arrived (s : State) (p : Pkt) : State := (leaveHub p (s.sent p)).noteTid p.dst p.src p.tid

/-- The state in which a stack engine has given a request its turn (07 R246). -/
def State.served (s : State) (p : Pkt) : State :=
  (s.arrived p).updHome p.dst (fun x => { x with ptr := (p.src + 1) % 64 })

/-- A stack serves a request to direct memory at once: its turn has come, its unit and the rows of a gather are direct memory, the unit in
service, no core die holds one of its sectors, none of them is in a transaction, and it is no write-back of data that a snoop has taken
since (07 R246; 08 R251, R256; 11 R374, R376, R378). -/
abbrev State.serves (s : State) (p : Pkt) : Prop :=
  s.takes p ∧ (s.sent p).engineTurn p = some p.src ∧
  33 ≤ p.dst ∧ p.dst ≤ 48 ∧ s.zone p.addr = .direct ∧ (isGather p = true ∨ s.lostUnit (p.addr / 4096) = false) ∧
  (isGather p = true → ∀ a ∈ gatherRows p, s.zone a = .direct) ∧
  (∀ n ∈ accessSecs p, ((s.served p).homeOf p.dst).ent n = none) ∧
  ((s.served p).homeOf p.dst).busyAny (accessSecs p) = false ∧ (s.served p).lateWriteBack p.dst p = false

/-- Does packet `k` of an answer to a GATHER_ROWS hold a byte of its row piece `i` (08 R272)? -/
def gatherHas (len k i : Nat) : Bool := decide (i * len < 256 * (k + 1)) && decide (256 * k < (i + 1) * len)

/-- A coherence request comes to its home or pool die: it is taken, its turn has come, and its die has no write-back of the sector open when
it sends it (02 R42, R49; 09 R292; 11 R366, R374). -/
abbrev State.cohTakes (s : State) (p : Pkt) : Prop :=
  s.takes p ∧ (33 ≤ p.dst → p.dst ≤ 52 → (s.sent p).engineTurn p = some p.src) ∧
  (s.onWay p = true ∨ s.evicting (p.src - 53) (sectorOf p.addr) = false)

/-- What a stack's row piece reads as: its bytes, or 0xFF in a lost unit (08 R256, R272). -/
def State.gatherRow (s : State) (len a : Nat) : List Byte :=
  if s.lostUnit (a / 4096) then List.replicate len 0xFF#8 else s.mem.readN a len

/-- The state in which a packet that draws no answer is on its way: as it is when it already is, else once its source has sent it. -/
def State.come (s : State) (p : Pkt) : State := if s.onWay p then s else send p s

/-- A packet that draws no answer comes to its target: neither its source nor its target is fenced, its output has granted it and it is
the first of its way (02 R42, R55, R58). -/
abbrev State.comes (s : State) (p : Pkt) : Prop :=
  s.fenced p.src = false ∧ s.fenced p.dst = false ∧ (s.come p).canArrive p = true

/-- A packet is on its way: in the hub, or with its sender, where it waits for credits, replay room or the link (02 R45,
R46). -/
abbrev State.carries (s : State) (p : Pkt) : Prop := (∃ v ∈ s.hub.voq, v.pkt = p) ∨ ∃ w ∈ (s.linkOf p.src).die.wait, w.2 = p

/-- A sync object takes an operation of another port: its packet comes and its source's turn has come (07 R218, R219). -/
abbrev State.syncTakes (s : State) (p : Pkt) : Prop :=
  p.src ≠ 63 ∧ p.addr < 8192 ∧ s.takes p ∧ (s.sent p).syncTurn p.addr = some p.src

/-- The hub performs at once an operation that a die sends now: the die is not fenced, its packet goes out, is the first of its way, its TID
is no duplicate, and the object's rotation comes to it (02 R42, R49, R58; 07 R217, R218). -/
abbrev State.syncNow (s : State) (src obj op : Nat) (v : Word) (use : Use) : Prop :=
  s.fenced src = false ∧ obj < 8192 ∧
  (request (syncPkt src 0 obj op v) use s).onWay (syncPkt src (look 0 s.hub.nextTid src) obj op v) = true ∧
  (request (syncPkt src 0 obj op v) use s).seenTid 63 src (look 0 s.hub.nextTid src) = false ∧
  (request (syncPkt src 0 obj op v) use s).canArrive (syncPkt src (look 0 s.hub.nextTid src) obj op v) = true ∧
  (request (syncPkt src 0 obj op v) use s).syncTurn obj = some src

/-- The answer to a request that a target holds can go back: neither side is fenced and the hub has not answered it (02 R58, R60). -/
abbrev State.mayAnswer (s : State) (p : Pkt) : Prop :=
  s.fenced p.src = false ∧ s.fenced p.dst = false ∧ (p.src, p.tid) ∉ s.hub.dropped

/-- A source has room for one more outstanding request and none of its requests waits for that (02 R49). -/
abbrev State.mayIssue (s : State) (src : Nat) : Prop := s.outCount src < 4096 ∧ ∀ b ∈ s.hub.bound, b.1.src ≠ src

/-- The host event FIFO takes an event: it is inserted, or withheld, as its class and its rate say (13 R482; 16 R561). -/
abbrev State.reports (s t : State) (e : EvItem) : Prop :=
  t.hfifo = s.hfifo.post (s.regFld oEvtCtl 47 32) e (evWords s.time e)

/-! ## Migration -/

/-- The state in which the host reads of a MIGRATE have ended: its page's bytes are there (10 R351). -/
def migrateRead (ring seq : Nat) (s : State) : State :=
  setReads (s.hif.reads.filter (fun r => match r.2 with
    | some (.migrate r q _) => !(r == ring && q == seq) | _ => true)) s

/-- The state in which the bytes of a page that migrates back are on the link: each 4 KiB unit in writes of 512 B to its translated
address, from the page that the entry at `a` names (10 R352). -/
def migrateSent (c : Cmd) (a : Nat) (s : State) : State :=
  let d := bitsOf (s.cohLE a 8) 47 16 * 0x10000
  c.units.foldl (fun st u => (List.range 8).foldl (fun st i =>
    st.tlp (.write (st.ctxFn (c.fld 16 2 % 1024)) (u.addr + 512 * i) (st.cohRead (d + 4096 * u.unit + 512 * i) 512)
      (st.cohPoison (d + 4096 * u.unit + 512 * i) 512).isSome (.data c.ring c.seq 0xE ((u.addr + 512 * i) / 64)) .translated)) st)
    (serveReads d 0x10000 s)

/-! ## Tile code -/

/-- A slot whose sequencer has taken the unit of the wait-token of an instruction (03 R75). -/
def Slot.taken (x : Slot) (w : BitVec 128) : Slot := if wWE w then x.take 4 (wWT w) 1 else x

/-- A slot in which an instruction has set its set-token (03 R75, R76). -/
def Slot.told (y : Slot) (w : BitVec 128) : Slot :=
  if wSE w then { y with tok := put 0 y.tok (wST w) (min (look 0 y.tok (wST w) + 1) 15) } else y

/-- The sequencer of a slot executes an instruction now: the slot runs, the instruction stands at its index with no reserved
bit set, a wait-token has a unit for it, and its set-token is below 15 (00 R9; 03 R74 to R77). -/
abbrev State.runs (s : State) (pos slot opc : Nat) (x : Slot) (w : BitVec 128) : Prop :=
  s.canIssue pos slot opc = some (x, w) ∧ reservedSet w = false ∧ (wWE w = true → s.mayTake pos slot x 4 (wWT w) = true) ∧
  (wSE w = true → look 0 (x.taken w).tok (wST w) < 15)

/-- An instruction enters its queue now: it stands at the slot's index with no reserved bit set, its queue has room, and
its checks pass (00 R9; 03 R71, R74). -/
abbrev State.queues (s : State) (pos slot opc : Nat) (q : Queue) (chk : Slot → BitVec 128 → Option Nat) (x : Slot)
    (w : BitVec 128) : Prop :=
  s.canIssue pos slot opc = some (x, w) ∧ reservedSet w = false ∧
  ((x.queue q).filter (fun i => !i.started)).length < queueSize q ∧ chk x w = none

/-- A slot whose queue has taken an instruction with the values it captured (03 R73; 05 R146; 06 R188). -/
def Slot.queued (x : Slot) (q : Queue) (w : BitVec 128) (cap : List Word × List LayReg) (ord : Nat) : Slot :=
  { (x.setQueue q (x.queue q ++ [{ id := x.nextId, word := w, pc := x.pc, sregs := cap.1, lregs := cap.2, tctl := x.tctl
                                   ord := ord }])).step with ord := ord, nextId := x.nextId + 1 }

/-! ## Parts of the state -/

/-- A part of the state: one for each field of State but the queue. -/
inductive Field where
  | glb | repair | boot | ivory | link | hub | hfifo | msix | sync | counted | mem | stack | memc | pool
  | tier | xlt | core | cdie | hif | sess | disp | rna | pwr | tile | regs | replies | time | free
  deriving DecidableEq, Repr

/-- A part is the same in two states. -/
def Field.same : Field → State → State → Prop
  | .glb, s, t => t.glb = s.glb
  | .repair, s, t => t.repair = s.repair
  | .boot, s, t => t.boot = s.boot
  | .ivory, s, t => t.ivory = s.ivory
  | .link, s, t => t.link = s.link
  | .hub, s, t => t.hub = s.hub
  | .hfifo, s, t => t.hfifo = s.hfifo
  | .msix, s, t => t.msix = s.msix
  | .sync, s, t => t.sync = s.sync
  | .counted, s, t => t.counted = s.counted
  | .mem, s, t => t.mem = s.mem
  | .stack, s, t => t.stack = s.stack
  | .memc, s, t => t.memc = s.memc
  | .pool, s, t => t.pool = s.pool
  | .tier, s, t => t.tier = s.tier
  | .xlt, s, t => t.xlt = s.xlt
  | .core, s, t => t.core = s.core
  | .cdie, s, t => t.cdie = s.cdie
  | .hif, s, t => t.hif = s.hif
  | .sess, s, t => t.sess = s.sess
  | .disp, s, t => t.disp = s.disp
  | .rna, s, t => t.rna = s.rna
  | .pwr, s, t => t.pwr = s.pwr
  | .tile, s, t => t.tile = s.tile
  | .regs, s, t => t.regs = s.regs
  | .replies, s, t => t.replies = s.replies
  | .time, s, t => t.time = s.time
  | .free, s, t => t.free = s.free

/-- The commands that take tile code or a program header, in which a reserved field may be set (00 R9): the instructions as
the sequencer issues them, and the read of the header. -/
def readsCode : Instr → Bool
  | .nop _ _ | .li _ _ | .alu _ _ | .alui _ _ | .br _ _ | .jmp _ _ | .loop _ _ | .lset _ _ | .ladd _ _
  | .lcpy _ _ | .rdstat _ _ | .clrstat _ _ | .rdctl _ _ | .wrctl _ _ | .sysrd _ _ | .fence _ _ | .hint _ _
  | .exit _ _ | .signal _ _ | .rsignal _ _ | .wait _ _ | .tokset _ _ | .tokwait _ _ | .vld _ _ | .vst _ _
  | .vop _ _ | .vops _ _ | .vcmp _ _ | .vmask _ _ | .vred _ _ | .vsfu _ _ | .vcvt _ _ | .mma _ _
  | .mdrain _ _ | .load _ _ | .store _ _ | .gather _ _ | .scatteradd _ _ | .xpref _ _ | .put _ _ | .get _ _
  | .programHeaderRead _ _ _ => true
  | _ => false

/-- The parts of the state a command may change. Every command leaves the others as they were. -/
def touches : Instr → List Field
  | .powerUpStart _ => [.boot, .memc, .regs]
  | .bootRomLoaded _ => [.glb, .boot, .ivory]
  | .imageVerified => [.glb, .boot, .ivory, .hfifo, .msix, .cdie, .hif]
  | .hostDieEnable => [.boot, .pwr]
  | .packageRailUp => [.boot, .pwr]
  | .emitterStable _ => [.boot, .hub]
  | .ringCalibrationDone => [.boot, .link]
  | .linksTrained _ => [
      .glb, .repair, .boot, .ivory, .link, .hub, .hfifo, .msix, .sync, .counted, .mem, .stack, .pool, .tier, .xlt,
      .cdie, .hif, .sess, .disp, .rna, .pwr, .tile]
  | .tileSelfTestDone _ => [
      .glb, .repair, .boot, .link, .hub, .hfifo, .msix, .sync, .xlt, .cdie, .hif, .disp, .pwr, .tile]
  | .hbmTrained _ => [
      .glb, .repair, .boot, .ivory, .link, .hub, .hfifo, .msix, .sync, .stack, .memc, .xlt, .cdie, .hif, .disp,
      .pwr, .tile]
  | .hbmInitialised => [.boot, .mem]
  | .tierMounted _ _ => [
      .glb, .repair, .boot, .link, .hub, .hfifo, .msix, .sync, .tier, .xlt, .cdie, .hif, .disp, .pwr, .tile]
  | .coreSelfTestDone _ => [
      .glb, .repair, .boot, .link, .hub, .hfifo, .msix, .sync, .xlt, .cdie, .hif, .disp, .pwr, .tile]
  | .readySet => [.glb, .boot, .ivory, .hfifo, .msix, .cdie, .hif, .pwr, .tile]
  | .startupStopped _ => [.glb, .boot, .ivory]
  | .configReady => [.boot]
  | .configRequest _ _ => [.hif]
  | .perstNAssert => [
      .boot, .link, .hub, .hfifo, .msix, .sync, .mem, .stack, .pool, .tier, .xlt, .cdie, .hif, .sess, .disp, .rna,
      .tile]
  | .perstNDeassert => [.boot]
  | .pwrbrkNAssert => [.boot]
  | .pwrbrkNRelease => [.boot]
  | .vin36OutOfRange _ => [
      .glb, .boot, .ivory, .link, .hub, .hfifo, .msix, .sync, .counted, .mem, .stack, .memc, .pool, .tier, .xlt,
      .core, .cdie, .hif, .sess, .disp, .rna, .pwr, .tile, .regs, .time]
  | .vinLowTimeout => [
      .glb, .boot, .ivory, .link, .hub, .hfifo, .msix, .sync, .counted, .mem, .stack, .memc, .pool, .tier, .xlt,
      .core, .cdie, .hif, .sess, .disp, .rna, .pwr, .tile, .regs, .time]
  | .vinHighTimeout => [
      .glb, .boot, .ivory, .link, .hub, .hfifo, .msix, .sync, .counted, .mem, .stack, .memc, .pool, .tier, .xlt,
      .core, .cdie, .hif, .sess, .disp, .rna, .pwr, .tile, .regs, .time]
  | .hubThermtripComparator => [
      .glb, .boot, .ivory, .link, .hub, .hfifo, .msix, .sync, .counted, .mem, .stack, .memc, .pool, .tier, .xlt,
      .core, .cdie, .hif, .sess, .disp, .rna, .pwr, .tile, .regs, .time]
  | .pldmFwUpdate => [.ivory]
  | .fwImageReceived _ => [.glb, .ivory, .hfifo, .msix, .cdie, .hif]
  | .fwProgramDone _ => [.glb, .boot, .ivory, .hfifo, .msix, .cdie, .hif]
  | .activateFirmware => [.glb]
  | .recoveryGo _ _ => [.glb, .regs]
  | .recoveryProgramDone _ => [.glb, .boot, .ivory, .hfifo, .msix, .cdie, .hif]
  | .spdmGetCertificate _ _ _ => [.ivory]
  | .spdmChallenge _ => [.ivory]
  | .spdmGetMeasurements _ _ => [.ivory]
  | .spdmKeyExchange _ => [.ivory]
  | .spdmVendorDefinedRequest _ _ _ _ => [.ivory]
  | .ideKmRequest _ _ _ _ => [.ivory]
  | .mctpControl _ => [.ivory]
  | .pldmGetSensorReading _ => [.ivory]
  | .pldmSetNumericEffecter _ => [.ivory, .hfifo, .msix, .cdie, .hif]
  | .ownerSet _ _ => [.glb, .ivory, .hfifo, .msix, .cdie, .hif]
  | .setHardPower _ _ => [.glb, .ivory, .hfifo, .msix, .cdie, .hif]
  | .setThermal _ _ => [.glb, .ivory, .hfifo, .msix, .cdie, .hif]
  | .setPartition _ _ => [.glb, .ivory, .hfifo, .msix, .cdie, .hif]
  | .debugUnlock _ _ => [.glb, .ivory, .hfifo, .msix, .cdie, .hif]
  | .debugLock _ _ => [.glb, .ivory, .hfifo, .msix, .cdie, .hif]
  | .sealRegs _ => [.glb, .ivory, .hfifo, .msix, .cdie, .hif]
  | .warmreset _ _ => [.glb, .hfifo, .msix, .cdie, .hif]
  | .hubHeartbeatLoss => [.glb, .boot, .ivory, .hfifo, .msix, .sync, .cdie, .hif, .disp, .regs]
  | .hostFailWarmReset => [.glb, .boot, .ivory, .hfifo, .msix, .sync, .cdie, .hif, .disp, .regs]
  | .warmResetBegin => [.glb, .boot, .ivory, .hfifo, .msix, .sync, .cdie, .hif, .disp, .regs]
  | .warmResetFenced => [.glb, .link, .hub, .sync, .counted, .mem, .stack, .pool, .tier, .cdie, .pwr, .tile]
  | .warmResetHubReady => [.glb, .hub, .hfifo, .msix, .mem, .stack, .pool, .tier, .cdie, .hif, .free]
  | .warmResetDiesReset _ => [
      .glb, .repair, .boot, .ivory, .link, .hub, .hfifo, .msix, .sync, .counted, .mem, .stack, .pool, .tier, .xlt,
      .core, .cdie, .hif, .sess, .disp, .rna, .pwr, .tile, .regs]
  | .warmResetHbmTrained _ => [
      .glb, .repair, .boot, .ivory, .link, .hub, .hfifo, .msix, .sync, .stack, .memc, .xlt, .cdie, .hif, .disp,
      .pwr, .tile]
  | .warmResetHbmInitialised => [.glb, .mem]
  | .warmResetTierRemounted _ => [
      .glb, .repair, .boot, .link, .hub, .hfifo, .msix, .sync, .tier, .xlt, .cdie, .hif, .disp, .pwr, .tile]
  | .warmResetRuntimeStarted _ => [
      .glb, .repair, .boot, .link, .hub, .hfifo, .msix, .sync, .xlt, .cdie, .hif, .disp, .pwr, .tile]
  | .warmResetReady => [
      .glb, .boot, .ivory, .hfifo, .msix, .mem, .stack, .memc, .pool, .tier, .cdie, .hif, .sess, .disp, .pwr,
      .tile]
  | .ivoryDieStop => [.glb, .boot, .disp]
  | .registerWrite _ _ _ _ => [
      .glb, .ivory, .link, .hub, .hfifo, .msix, .sync, .counted, .mem, .stack, .pool, .tier, .xlt, .core, .cdie,
      .hif, .sess, .disp, .rna, .pwr, .tile, .regs, .replies, .free]
  | .bar0MalformedAccess _ _ _ => [.hfifo, .msix, .cdie, .hif, .replies]
  | .coreReservedRegisterAccess _ _ _ => [.core, .replies]
  | .ivrInternalWrite _ _ => [.hfifo, .msix, .core, .cdie, .hif]
  | .read _ _ => [.link, .hub, .hfifo, .msix, .mem, .stack, .pool, .tier, .cdie, .hif, .disp, .rna]
  | .narrowRead _ _ => [.link, .hub, .hfifo, .msix, .mem, .stack, .pool, .tier, .cdie, .hif, .disp, .rna]
  | .write _ => [.link, .hub, .hfifo, .msix, .mem, .stack, .pool, .tier, .cdie, .hif, .disp, .rna]
  | .writeMasked _ _ => [.link, .hub, .hfifo, .msix, .mem, .stack, .pool, .tier, .cdie, .hif, .disp, .rna]
  | .readWaitTurnTimeout _ _ => [.stack]
  | .atomicSwap _ _ => [.link, .hub, .hfifo, .msix, .mem, .stack, .pool, .tier, .cdie, .hif, .disp, .rna]
  | .atomicAdd _ _ => [.link, .hub, .hfifo, .msix, .mem, .stack, .pool, .tier, .cdie, .hif, .disp, .rna]
  | .atomicAnd _ _ => [.link, .hub, .hfifo, .msix, .mem, .stack, .pool, .tier, .cdie, .hif, .disp, .rna]
  | .atomicOr _ _ => [.link, .hub, .hfifo, .msix, .mem, .stack, .pool, .tier, .cdie, .hif, .disp, .rna]
  | .atomicXor _ _ => [.link, .hub, .hfifo, .msix, .mem, .stack, .pool, .tier, .cdie, .hif, .disp, .rna]
  | .atomicMin _ _ => [.link, .hub, .hfifo, .msix, .mem, .stack, .pool, .tier, .cdie, .hif, .disp, .rna]
  | .atomicMax _ _ => [.link, .hub, .hfifo, .msix, .mem, .stack, .pool, .tier, .cdie, .hif, .disp, .rna]
  | .atomicMinu _ _ => [.link, .hub, .hfifo, .msix, .mem, .stack, .pool, .tier, .cdie, .hif, .disp, .rna]
  | .atomicMaxu _ _ => [.link, .hub, .hfifo, .msix, .mem, .stack, .pool, .tier, .cdie, .hif, .disp, .rna]
  | .gatherRows _ _ => [.link, .hub, .hfifo, .msix, .mem, .stack, .pool, .tier, .cdie, .hif, .disp, .rna]
  | .scatterAdd _ _ => [.link, .hub, .hfifo, .msix, .mem, .stack, .pool, .tier, .cdie, .hif, .disp, .rna]
  | .reduce _ _ _ => [.link, .hub, .hfifo, .msix, .mem, .stack, .pool, .tier, .cdie, .hif, .disp]
  | .kvAppend _ _ _ => [.link, .hub, .hfifo, .msix, .mem, .stack, .pool, .tier, .cdie, .hif, .disp]
  | .stackCmdResult _ _ => [.link, .hub, .hfifo, .msix, .sync, .mem, .stack, .pool, .tier, .cdie, .hif, .disp]
  | .dispatch _ _ _ _ => [.link, .hub, .tile]
  | .respData _ => [
      .link, .hub, .hfifo, .msix, .sync, .mem, .stack, .pool, .tier, .xlt, .core, .cdie, .hif, .disp, .rna, .tile,
      .replies]
  | .respAck _ => [
      .link, .hub, .hfifo, .msix, .counted, .mem, .stack, .pool, .tier, .xlt, .core, .cdie, .hif, .disp, .rna,
      .tile]
  | .respErr _ => [
      .link, .hub, .hfifo, .msix, .sync, .counted, .mem, .stack, .pool, .tier, .xlt, .core, .cdie, .hif, .disp,
      .rna, .tile]
  | .respRetry _ => [.link, .hub, .hfifo, .msix, .mem, .stack, .pool, .tier, .core, .cdie, .hif, .disp]
  | .mgmt _ _ _ => [.link, .hub]
  | .linkAck _ _ _ => [.link, .hub]
  | .linkNak _ _ => [.link]
  | .creditReturn _ _ _ _ _ => [.link, .hub]
  | .heartbeat _ _ => [.link]
  | .epochChange _ => [.link, .hub]
  | .ackOverdue _ _ => [.link]
  | .heartbeatSend _ _ => [.link]
  | .carrierLossTimeout _ => [.link]
  | .fastRetrainDone _ _ _ => [
      .glb, .repair, .boot, .ivory, .link, .hub, .hfifo, .msix, .sync, .counted, .mem, .stack, .pool, .tier, .xlt,
      .cdie, .hif, .sess, .disp, .rna, .pwr, .tile]
  | .fullTrainingDone _ _ _ => [
      .glb, .repair, .boot, .ivory, .link, .hub, .hfifo, .msix, .sync, .counted, .mem, .stack, .pool, .tier, .xlt,
      .cdie, .hif, .sess, .disp, .rna, .pwr, .tile]
  | .retrainTimeout _ => [
      .glb, .repair, .boot, .ivory, .link, .hub, .hfifo, .msix, .sync, .counted, .mem, .stack, .pool, .tier, .xlt,
      .core, .cdie, .hif, .sess, .disp, .rna, .pwr, .tile]
  | .fenceComplete _ => [.link]
  | .targetTimeout _ _ => [.link, .hub]
  | .tierWaitTimeout _ _ => [.link, .hub, .tier]
  | .calibrationPause _ => [.link]
  | .calibrationResume _ => [.link, .hub, .hfifo, .msix, .mem, .stack, .pool, .tier, .cdie, .hif, .disp]
  | .emitterFailure => [.glb, .boot, .link, .hub, .hfifo, .msix, .cdie, .hif, .disp]
  | .rootClockLoss _ => [.link, .hub]
  | .rootClockReturn _ => [.link, .hub]
  | .holdoverExpired _ => [
      .glb, .repair, .boot, .ivory, .link, .hub, .hfifo, .msix, .sync, .counted, .mem, .stack, .pool, .tier, .xlt,
      .cdie, .hif, .sess, .disp, .rna, .pwr, .tile]
  | .hubLinkerrRead _ _ => [.link, .replies]
  | .nop _ _ => [.link, .hub, .sync, .xlt, .disp, .tile]
  | .li _ _ => [.link, .hub, .sync, .xlt, .disp, .tile]
  | .alu _ _ => [.link, .hub, .sync, .xlt, .disp, .tile]
  | .alui _ _ => [.link, .hub, .sync, .xlt, .disp, .tile]
  | .br _ _ => [.link, .hub, .sync, .xlt, .disp, .tile]
  | .jmp _ _ => [.link, .hub, .sync, .xlt, .disp, .tile]
  | .loop _ _ => [.link, .hub, .sync, .xlt, .disp, .tile]
  | .lset _ _ => [.link, .hub, .sync, .xlt, .disp, .tile]
  | .ladd _ _ => [.link, .hub, .sync, .xlt, .disp, .tile]
  | .lcpy _ _ => [.link, .hub, .sync, .xlt, .disp, .tile]
  | .rdstat _ _ => [.link, .hub, .sync, .xlt, .disp, .tile]
  | .clrstat _ _ => [.link, .hub, .sync, .xlt, .disp, .tile]
  | .rdctl _ _ => [.link, .hub, .sync, .xlt, .disp, .tile]
  | .wrctl _ _ => [.link, .hub, .sync, .xlt, .disp, .tile]
  | .sysrd _ _ => [.link, .hub, .sync, .xlt, .disp, .tile]
  | .fence _ _ => [.link, .hub, .sync, .xlt, .disp, .tile]
  | .hint _ _ => [.link, .hub, .sync, .xlt, .disp, .pwr, .tile]
  | .exit _ _ => [.link, .hub, .sync, .xlt, .disp, .tile]
  | .mma _ _ => [.link, .hub, .sync, .xlt, .disp, .tile]
  | .mdrain _ _ => [.link, .hub, .sync, .xlt, .disp, .tile]
  | .vld _ _ => [.link, .hub, .sync, .xlt, .disp, .tile]
  | .vst _ _ => [.link, .hub, .sync, .xlt, .disp, .tile]
  | .vop _ _ => [.link, .hub, .sync, .xlt, .disp, .tile]
  | .vops _ _ => [.link, .hub, .sync, .xlt, .disp, .tile]
  | .vcmp _ _ => [.link, .hub, .sync, .xlt, .disp, .tile]
  | .vmask _ _ => [.link, .hub, .sync, .xlt, .disp, .tile]
  | .vred _ _ => [.link, .hub, .sync, .xlt, .disp, .tile]
  | .vsfu _ _ => [.link, .hub, .sync, .xlt, .disp, .tile]
  | .vcvt _ _ => [.link, .hub, .sync, .xlt, .disp, .tile]
  | .load _ _ => [.link, .hub, .sync, .xlt, .disp, .tile]
  | .store _ _ => [.link, .hub, .sync, .xlt, .disp, .tile]
  | .gather _ _ => [.link, .hub, .sync, .xlt, .disp, .tile]
  | .scatteradd _ _ => [.link, .hub, .sync, .xlt, .disp, .tile]
  | .xpref _ _ => [.link, .hub, .sync, .xlt, .disp, .tile]
  | .put _ _ => [.link, .hub, .sync, .xlt, .disp, .tile]
  | .get _ _ => [.link, .hub, .sync, .xlt, .disp, .tile]
  | .signal _ _ => [.link, .hub, .sync, .xlt, .disp, .tile]
  | .rsignal _ _ => [.link, .hub, .sync, .xlt, .disp, .tile]
  | .wait _ _ => [.link, .hub, .sync, .xlt, .disp, .tile]
  | .tokset _ _ => [.link, .hub, .sync, .xlt, .disp, .tile]
  | .tokwait _ _ => [.link, .hub, .sync, .xlt, .disp, .tile]
  | .queueInstrStart _ _ _ => [
      .link, .hub, .hfifo, .msix, .sync, .mem, .stack, .pool, .tier, .xlt, .cdie, .hif, .disp, .rna, .tile]
  | .rsignalSend _ _ => [.link, .hub, .tile]
  | .matrixInstrComplete _ _ _ => [.link, .hub, .hfifo, .msix, .sync, .xlt, .cdie, .hif, .disp, .tile, .free]
  | .vectorInstrComplete _ _ => [.link, .hub, .hfifo, .msix, .sync, .xlt, .cdie, .hif, .disp, .tile]
  | .inboundMoveComplete _ _ _ => [.link, .hub, .sync, .xlt, .disp, .tile]
  | .outboundMoveComplete _ _ _ => [.link, .hub, .sync, .xlt, .disp, .tile]
  | .syncInstrComplete _ _ _ => [.link, .hub, .sync, .xlt, .disp, .tile]
  | .xprefComplete _ _ _ => [.link, .hub, .sync, .xlt, .disp, .tile]
  | .gatherListRead _ _ _ => [
      .link, .hub, .hfifo, .msix, .sync, .mem, .stack, .pool, .tier, .xlt, .cdie, .hif, .disp, .rna, .tile]
  | .slotEnd _ _ => [.link, .hub, .sync, .disp, .tile]
  | .programHeaderRead _ _ _ => [
      .link, .hub, .hfifo, .msix, .sync, .mem, .stack, .pool, .tier, .xlt, .cdie, .hif, .disp, .rna, .tile]
  | .programLoaded _ _ _ => [
      .link, .hub, .hfifo, .msix, .sync, .mem, .stack, .pool, .tier, .xlt, .cdie, .hif, .disp, .rna, .tile]
  | .zeroingDone _ _ => [.tile]
  | .syncAdd _ _ _ _ => [.link, .hub, .sync, .disp]
  | .syncSet _ _ _ _ => [.link, .hub, .sync, .disp]
  | .syncWaitGe _ _ _ _ => [.link, .hub, .sync, .disp]
  | .syncWaitEq _ _ _ _ => [.link, .hub, .sync, .disp]
  | .syncRead _ _ _ _ => [.link, .hub, .sync]
  | .syncWake _ _ _ => [.link, .hub, .tile]
  | .syncValueWrite _ _ _ => [.link, .hub, .hfifo, .msix, .sync, .cdie, .hif, .disp]
  | .amoaddD _ _ _ => [.link, .hub, .sync, .disp]
  | .coreSyncBadAccess _ _ _ => [.core]
  | .syncStatRead _ _ => [.sync, .replies]
  | .arrivalCountAdd _ => [
      .link, .hub, .hfifo, .msix, .sync, .counted, .mem, .stack, .pool, .tier, .xlt, .cdie, .hif, .disp, .rna,
      .tile]
  | .refresh _ _ _ => [.stack]
  | .patrolScrub _ _ => [.hfifo, .msix, .mem, .stack, .pool, .cdie, .hif]
  | .stackTempSample _ _ => [
      .glb, .boot, .ivory, .link, .hub, .hfifo, .msix, .sync, .counted, .mem, .stack, .memc, .pool, .tier, .xlt,
      .core, .cdie, .hif, .sess, .disp, .rna, .pwr, .tile, .regs, .time]
  | .mapoutStart _ => [
      .glb, .repair, .boot, .ivory, .link, .hub, .hfifo, .msix, .sync, .mem, .stack, .memc, .xlt, .cdie, .hif,
      .disp, .pwr, .tile]
  | .mapoutEvictDone => [.hfifo, .msix, .mem, .stack, .memc, .pool, .tier, .cdie, .hif]
  | .mapoutMapDistributed => [.stack, .memc]
  | .mapoutComplete => [
      .glb, .repair, .boot, .ivory, .link, .hub, .hfifo, .msix, .sync, .mem, .stack, .memc, .xlt, .cdie, .hif,
      .disp, .pwr, .tile]
  | .layerFailure _ _ => [
      .glb, .repair, .boot, .ivory, .link, .hub, .hfifo, .msix, .sync, .stack, .xlt, .cdie, .hif, .disp, .pwr,
      .tile]
  | .stackRecoveryStart _ => [.glb, .link, .hub, .hfifo, .msix, .sync, .stack, .cdie, .hif, .disp, .pwr]
  | .stackRecoveryDone _ _ _ => [
      .glb, .repair, .boot, .ivory, .link, .hub, .hfifo, .msix, .sync, .mem, .stack, .memc, .pool, .xlt, .cdie,
      .hif, .disp, .pwr, .tile]
  | .memErrRead _ _ => [.stack, .replies]
  | .poolFillDone _ _ => [.link, .hub, .hfifo, .msix, .mem, .stack, .pool, .tier, .cdie, .hif, .disp]
  | .poolHandbackDone _ _ => [.link, .hub, .hfifo, .msix, .mem, .stack, .pool, .tier, .cdie, .hif, .disp]
  | .poolDirtyMarkDone _ _ => [.link, .hub, .hfifo, .msix, .mem, .stack, .pool, .tier, .cdie, .hif, .disp]
  | .poolDieFailure _ => [.glb, .link, .hub, .hfifo, .msix, .sync, .mem, .stack, .pool, .cdie, .hif, .pwr]
  | .poolDieRecoveryDone _ _ => [
      .glb, .repair, .boot, .link, .hub, .hfifo, .msix, .sync, .mem, .stack, .pool, .tier, .xlt, .cdie, .hif,
      .disp, .pwr, .tile]
  | .memPoolstatRead _ _ => [.pool, .replies]
  | .tierMapMiss _ => [.tier]
  | .tierMapReply _ => [.link, .hub, .hfifo, .msix, .mem, .stack, .pool, .tier, .cdie, .hif, .disp]
  | .frameEvictionDone _ => [.hfifo, .msix, .mem, .stack, .pool, .tier, .cdie, .hif]
  | .tierFetchDone _ _ => [.link, .hub, .hfifo, .msix, .mem, .stack, .pool, .tier, .cdie, .hif, .disp]
  | .partOpenRecorded _ => [.link, .hub, .hfifo, .msix, .mem, .stack, .pool, .tier, .cdie, .hif, .disp]
  | .flashProgramDone _ _ => [.tier]
  | .tierBackgroundWriteback => [.hfifo, .msix, .mem, .stack, .pool, .tier, .cdie, .hif]
  | .tierFlush _ => [.hfifo, .msix, .mem, .stack, .pool, .tier, .cdie, .hif]
  | .tierFlushDone => [.tier, .free]
  | .tierPinSet _ _ _ _ => [.hfifo, .msix, .tier, .cdie, .hif, .regs]
  | .tierPinClear _ _ => [.hfifo, .msix, .tier, .cdie, .hif, .regs]
  | .tierPinResident _ => [.tier]
  | .wearLevelling _ _ _ => [.tier]
  | .readDisturbRelocate _ _ => [.tier]
  | .badBlockRetire _ _ _ _ => [.hfifo, .msix, .tier, .cdie, .hif]
  | .tierDieFailure _ => [
      .glb, .repair, .boot, .link, .hub, .hfifo, .msix, .sync, .mem, .stack, .pool, .tier, .xlt, .cdie, .hif,
      .disp, .pwr, .tile]
  | .tierDieRead _ _ => [.tier, .replies]
  | .tableWalkDone _ _ _ => [
      .link, .hub, .hfifo, .msix, .sync, .counted, .mem, .stack, .pool, .tier, .xlt, .cdie, .hif, .disp, .rna,
      .tile]
  | .atsCompletion _ _ _ => [
      .link, .hub, .hfifo, .msix, .sync, .counted, .mem, .stack, .pool, .tier, .xlt, .cdie, .hif, .disp, .rna,
      .tile]
  | .priResponse _ _ _ _ => [
      .link, .hub, .hfifo, .msix, .sync, .counted, .mem, .stack, .pool, .tier, .xlt, .cdie, .hif, .disp, .rna,
      .tile]
  | .atsInvalidateRequest _ _ _ _ => [
      .link, .hub, .hfifo, .msix, .sync, .mem, .stack, .pool, .tier, .xlt, .cdie, .hif, .disp, .tile]
  | .atsInvalidateDone _ _ => [.xlt, .hif]
  | .xltResume _ _ => [
      .link, .hub, .hfifo, .msix, .sync, .counted, .mem, .stack, .pool, .tier, .xlt, .cdie, .hif, .disp, .rna,
      .tile, .regs]
  | .faultTimeout _ _ => [
      .link, .hub, .hfifo, .msix, .sync, .counted, .mem, .stack, .pool, .tier, .xlt, .cdie, .hif, .disp, .rna,
      .tile, .free]
  | .xltStatRead _ => [.xlt, .replies]
  | .xltFrctlRead _ _ => [.xlt, .replies]
  | .cfence _ => [.core]
  | .cfenceComplete _ => [.core]
  | .coreIoStoreError _ _ _ => [.core]
  | .coreIoLoadPoison _ _ _ => [.core, .replies]
  | .poisonException _ _ => [.core]
  | .serrstatClear _ _ => [.core]
  | .coreAccessFault _ _ _ _ => [.core]
  | .cboZero _ _ => [.link, .hub, .core, .cdie]
  | .dirtyLineEvict _ _ _ => [.link, .hub, .core, .cdie]
  | .cacheParityError _ _ _ => [.core]
  | .cacheDataError _ _ _ => [.link, .hub, .core, .cdie]
  | .cacheTagError _ _ => [.glb, .repair, .link, .hub, .hfifo, .msix, .sync, .core, .cdie, .hif, .pwr]
  | .coreDieMachineCheck _ _ => [.glb, .repair, .link, .hub, .hfifo, .msix, .sync, .core, .cdie, .hif, .pwr]
  | .coreDiePoisonDone _ => [.hfifo, .msix, .mem, .stack, .pool, .tier, .cdie, .hif]
  | .coreDieResetDone _ => [.core, .cdie, .regs]
  | .coreDieRecoveryDone _ _ => [
      .glb, .repair, .boot, .link, .hub, .hfifo, .msix, .sync, .xlt, .cdie, .hif, .disp, .pwr, .tile]
  | .rdS _ _ => [.link, .hub, .hfifo, .msix, .mem, .stack, .pool, .tier, .cdie, .hif, .disp]
  | .rdX _ _ => [.link, .hub, .hfifo, .msix, .mem, .stack, .pool, .tier, .cdie, .hif, .disp]
  | .upg _ _ => [.link, .hub, .hfifo, .msix, .mem, .stack, .pool, .tier, .cdie, .hif, .disp]
  | .zero _ => [.link, .hub, .hfifo, .msix, .mem, .stack, .pool, .tier, .cdie, .hif, .disp]
  | .evn _ => [.link, .hub, .hfifo, .msix, .mem, .stack, .pool, .tier, .core, .cdie, .hif, .disp]
  | .snpInv _ _ => [.link, .hub, .core, .cdie]
  | .snpShr _ _ => [.link, .hub, .core, .cdie]
  | .snpFwd _ => [.link, .hub, .cdie]
  | .cohResend _ _ => [.link, .hub, .cdie]
  | .routerSourceEvent _ _ => [.cdie]
  | .routerTimeExpiry _ _ => [.cdie]
  | .routerDelivery _ => [.cdie]
  | .evtIclaimRead _ _ => [.cdie, .replies]
  | .evtIclaimWrite _ _ _ => [.hfifo, .msix, .cdie, .hif]
  | .evtIthrWrite _ _ _ => [.hfifo, .msix, .cdie, .hif, .regs]
  | .evtIstatSet _ _ _ => [.cdie]
  | .evtIstatPendingClear _ _ _ => [.cdie]
  | .evtIsrcWrite _ _ _ _ => [.cdie, .regs]
  | .coreFifoInsert _ _ => [.cdie]
  | .evtCpopRead _ _ => [.cdie, .replies]
  | .evtCctlFlush _ _ => [.cdie]
  | .evtCstatRead _ _ => [.cdie, .replies]
  | .dlDown => [
      .link, .hub, .hfifo, .msix, .sync, .mem, .stack, .pool, .tier, .xlt, .cdie, .hif, .sess, .disp, .rna, .tile]
  | .hotReset => [
      .link, .hub, .hfifo, .msix, .sync, .mem, .stack, .pool, .tier, .xlt, .cdie, .hif, .sess, .disp, .rna, .tile]
  | .flrPf0 => [
      .link, .hub, .hfifo, .msix, .sync, .mem, .stack, .pool, .tier, .xlt, .cdie, .hif, .sess, .disp, .rna, .tile]
  | .flrVf _ => [
      .link, .hub, .hfifo, .msix, .sync, .mem, .stack, .pool, .tier, .xlt, .cdie, .hif, .sess, .disp, .rna, .tile]
  | .linkRecoveryEnter => [.hif]
  | .linkL0Return _ _ _ => [.link, .hub, .hfifo, .msix, .sync, .mem, .stack, .pool, .tier, .cdie, .hif, .disp]
  | .tlpAcked => [.hif, .disp]
  | .openSession _ _ => [.hfifo, .msix, .cdie, .hif, .sess, .free]
  | .claim _ _ => [.hfifo, .msix, .cdie, .hif, .sess]
  | .claimDone _ => [.msix, .cdie, .hif, .sess, .disp]
  | .claimRefusalEnd _ => [.sess]
  | .release _ _ => [.link, .hub, .hfifo, .msix, .sync, .xlt, .cdie, .hif, .sess, .disp, .tile, .regs]
  | .holdExpiry _ => [.link, .hub, .hfifo, .msix, .sync, .xlt, .cdie, .hif, .sess, .disp, .tile, .regs]
  | .redeliver _ _ _ _ => [.hfifo, .msix, .cdie, .hif, .sess, .regs]
  | .redeliverItemDone _ => [.hif, .sess]
  | .hifSessctlRead _ _ => [.sess, .replies]
  | .hifLinkstatRead _ => [.hif, .replies]
  | .placementWrite _ _ _ _ => [
      .link, .hub, .hfifo, .msix, .sync, .counted, .mem, .stack, .pool, .tier, .xlt, .cdie, .hif, .disp, .rna,
      .tile]
  | .ideCheckFail _ _ _ => [.hif]
  | .bar2Read _ _ => [.hif]
  | .hifPlogRead _ => [.hfifo, .msix, .cdie, .hif, .replies]
  | .hifPlapValidSet _ _ _ => [.hfifo, .msix, .cdie, .hif, .regs]
  | .hifPlapValidClear _ _ => [.hfifo, .msix, .cdie, .hif, .regs]
  | .placementDrainDone _ => [.hif]
  | .stagedOutputCopy _ _ _ => [
      .link, .hub, .hfifo, .msix, .sync, .mem, .stack, .pool, .tier, .xlt, .cdie, .hif, .disp, .rna, .tile]
  | .stagedCopyFreed _ _ _ => [.hif]
  | .crossPathFlushDone _ _ => [.disp]
  | .doorbellPoll => [.hfifo, .msix, .mem, .stack, .pool, .cdie, .hif, .disp]
  | .doorbellLineRead _ _ _ => [.hif]
  | .prodRead _ _ _ => [.hif, .disp]
  | .devmemRingNotify _ => [.hfifo, .msix, .mem, .stack, .pool, .cdie, .hif, .disp]
  | .descriptorFetched _ _ _ => [
      .link, .hub, .hfifo, .msix, .sync, .mem, .stack, .pool, .tier, .xlt, .cdie, .hif, .disp, .rna, .tile]
  | .journalEntryAcked _ => [.link, .hub, .hfifo, .msix, .sync, .mem, .stack, .pool, .tier, .cdie, .hif, .disp]
  | .run _ => [
      .link, .hub, .hfifo, .msix, .sync, .mem, .stack, .pool, .tier, .xlt, .cdie, .hif, .disp, .rna, .tile, .free]
  | .copy _ => [
      .link, .hub, .hfifo, .msix, .sync, .mem, .stack, .pool, .tier, .xlt, .cdie, .hif, .disp, .rna, .tile, .free]
  | .fill _ => [
      .link, .hub, .hfifo, .msix, .sync, .mem, .stack, .pool, .tier, .xlt, .cdie, .hif, .disp, .rna, .tile, .free]
  | .waitDescriptor _ => [.link, .hub, .sync, .disp]
  | .signalDescriptor _ => [.link, .hub, .sync, .disp]
  | .hintDescriptor _ => [.link, .hub, .sync, .disp, .pwr]
  | .barrier _ => [.link, .hub, .sync, .disp]
  | .migrate _ => [
      .link, .hub, .hfifo, .msix, .sync, .mem, .stack, .pool, .tier, .xlt, .cdie, .hif, .disp, .rna, .tile]
  | .migrateCopyDone _ _ _ => [
      .link, .hub, .hfifo, .msix, .sync, .counted, .mem, .stack, .pool, .tier, .xlt, .cdie, .hif, .disp, .rna,
      .tile]
  | .migrateBackDone _ _ => [
      .link, .hub, .hfifo, .msix, .sync, .counted, .mem, .stack, .pool, .tier, .xlt, .cdie, .hif, .disp, .rna,
      .tile]
  | .invalidate _ _ => [
      .link, .hub, .hfifo, .msix, .sync, .mem, .stack, .pool, .xlt, .cdie, .hif, .disp, .rna, .tile]
  | .updateItemApplied _ _ _ => [
      .link, .hub, .hfifo, .msix, .sync, .mem, .stack, .pool, .tier, .xlt, .cdie, .hif, .disp, .rna, .tile]
  | .invalidateDrainDone _ _ => [
      .link, .hub, .hfifo, .msix, .sync, .counted, .mem, .stack, .pool, .tier, .xlt, .cdie, .hif, .disp, .rna,
      .tile]
  | .headTimeout _ _ => [
      .glb, .link, .hub, .hfifo, .msix, .sync, .mem, .stack, .pool, .tier, .xlt, .cdie, .hif, .disp, .pwr, .tile,
      .free]
  | .resourceWaitLimit _ => [.disp]
  | .checkpointDone _ _ => [
      .link, .hub, .hfifo, .msix, .sync, .mem, .stack, .pool, .tier, .xlt, .cdie, .hif, .disp, .tile]
  | .commandComplete _ _ => [
      .link, .hub, .hfifo, .msix, .sync, .counted, .mem, .stack, .pool, .tier, .xlt, .cdie, .hif, .disp, .rna,
      .pwr, .tile, .free]
  | .recordWrite _ => [.hfifo, .msix, .mem, .stack, .pool, .tier, .cdie, .hif, .disp]
  | .ringEnable _ _ => [.hfifo, .msix, .mem, .stack, .pool, .tier, .cdie, .hif, .disp, .regs]
  | .ringDisable _ _ => [.hfifo, .msix, .xlt, .cdie, .hif, .disp, .regs]
  | .ctxRctlReset _ _ => [.hfifo, .msix, .cdie, .hif, .disp]
  | .ctxCfgWrite _ _ _ => [.hfifo, .msix, .cdie, .hif, .regs]
  | .ctxRstatRead _ _ => [.disp, .replies]
  | .msixEvent _ _ => [.msix, .hif]
  | .msixTimeExpiry _ _ => [.msix, .hif]
  | .msixUnmask _ _ => [.msix, .hif]
  | .hostFifoInsert _ => [.hfifo, .msix, .hif]
  | .evtPopRead _ => [.hfifo, .replies]
  | .evtCtlFlush _ => [.hfifo, .msix, .cdie, .hif]
  | .evtLostRead _ => [.hfifo, .replies]
  | .eventSecondEnd => [.hfifo, .msix, .cdie, .hif]
  | .getReq _ _ => [
      .link, .hub, .hfifo, .msix, .mem, .stack, .pool, .tier, .xlt, .cdie, .hif, .disp, .rna, .tile]
  | .ranoaPut _ _ => [
      .link, .hub, .hfifo, .msix, .counted, .mem, .stack, .pool, .tier, .xlt, .cdie, .hif, .disp, .rna, .tile]
  | .ranoaPutMasked _ _ => [
      .link, .hub, .hfifo, .msix, .counted, .mem, .stack, .pool, .tier, .xlt, .cdie, .hif, .disp, .rna, .tile]
  | .getData _ _ => [.link, .hub, .hfifo, .msix, .cdie, .hif, .rna]
  | .putAck _ _ => [.link, .hub, .rna]
  | .err _ _ => [.link, .hub, .rna]
  | .sbMsg _ _ => [.hfifo, .msix, .cdie, .hif, .rna, .pwr, .tile]
  | .hello _ _ _ _ => [.link, .hub, .hfifo, .msix, .counted, .cdie, .hif, .rna]
  | .ranoaLinkAck _ _ => [.rna]
  | .ranoaLinkNak _ => [.link, .hub, .hfifo, .msix, .counted, .cdie, .hif, .rna]
  | .ranoaCreditReturn _ _ _ => [.rna]
  | .ranoaHeartbeat _ _ => [.rna]
  | .ranoaHeartbeatSend _ => [.rna]
  | .ranoaAckOverdue _ => [.link, .hub, .hfifo, .msix, .counted, .cdie, .hif, .rna]
  | .ranoaSilenceTimeout _ => [.link, .hub, .hfifo, .msix, .counted, .cdie, .hif, .rna]
  | .ranoaLaneFailure _ _ _ => [.link, .hub, .hfifo, .msix, .counted, .cdie, .hif, .rna]
  | .ranoaLightDetect _ => [.rna]
  | .ranoaOpTimeout _ => [.link, .hub, .hfifo, .msix, .counted, .cdie, .hif, .rna]
  | .putAckSend _ => [.rna]
  | .sbMsgSend _ => [.rna, .pwr]
  | .rnaWoffValidSet _ _ _ => [.hfifo, .msix, .cdie, .hif, .regs]
  | .rnaWoffValidClear _ _ => [.hfifo, .msix, .cdie, .hif, .rna, .regs]
  | .ranoaWindowDrainDone _ => [.rna]
  | .rnaLogRead _ => [.hfifo, .msix, .cdie, .hif, .rna, .replies]
  | .rnaPerrRead _ _ => [.rna, .replies]
  | .fastLoopTick _ => [.pwr]
  | .slowLoopTick _ _ => [.boot, .hfifo, .msix, .cdie, .hif, .pwr, .tile, .free]
  | .floorRecompute _ => [.hfifo, .msix, .cdie, .hif, .pwr]
  | .pwrCtlWrite _ _ => [.hfifo, .msix, .cdie, .hif, .pwr, .tile, .regs]
  | .pwrCapWrite _ _ => [.hfifo, .msix, .cdie, .hif, .regs]
  | .pwrGroupWrite _ _ => [.hfifo, .msix, .cdie, .hif, .pwr, .regs]
  | .hintPhaseStart _ => [.hfifo, .msix, .cdie, .hif, .pwr, .tile, .free]
  | .hintLapse _ => [.pwr]
  | .tempSample _ => [
      .glb, .boot, .ivory, .link, .hub, .hfifo, .msix, .sync, .counted, .mem, .stack, .memc, .pool, .tier, .xlt,
      .core, .cdie, .hif, .sess, .disp, .rna, .pwr, .tile, .regs, .time]
  | .coreThrottleStep _ => [.cdie, .pwr, .tile]
  | .groupMemberSilent _ => [.hfifo, .msix, .cdie, .hif, .pwr]
  | .runTimeoutSuspect _ _ => [
      .glb, .link, .hub, .hfifo, .msix, .sync, .mem, .stack, .pool, .tier, .xlt, .cdie, .hif, .disp, .pwr, .tile,
      .free]
  | .tileResetDone _ _ => [
      .glb, .repair, .boot, .link, .hub, .hfifo, .msix, .sync, .xlt, .cdie, .hif, .disp, .pwr, .tile]
  | .replayStart _ _ => [
      .link, .hub, .hfifo, .msix, .sync, .counted, .mem, .stack, .pool, .tier, .xlt, .cdie, .hif, .disp, .rna,
      .pwr, .tile]
  | .replayTimeout _ _ => [.glb, .link, .hub, .hfifo, .msix, .sync, .xlt, .cdie, .hif, .disp, .pwr, .tile]
  | .tileDieFailure _ => [
      .glb, .repair, .boot, .link, .hub, .hfifo, .msix, .sync, .xlt, .cdie, .hif, .disp, .pwr, .tile]
  | .tileRecoveryDone _ _ => [
      .glb, .repair, .boot, .link, .hub, .hfifo, .msix, .sync, .xlt, .cdie, .hif, .disp, .pwr, .tile]
  | .journalMirrorRebuild _ => [.disp]
  | .linkCrcError _ _ _ _ _ => [.link]
  | .ranoaLinkCrcError _ _ _ _ _ => [.rna]
  | .hubLaneFailure _ _ => [
      .glb, .repair, .boot, .ivory, .link, .hub, .hfifo, .msix, .sync, .counted, .mem, .stack, .pool, .tier, .xlt,
      .cdie, .hif, .sess, .disp, .rna, .pwr, .tile]
  | .hostDieFailure => [
      .glb, .repair, .boot, .link, .hub, .hfifo, .msix, .sync, .mem, .stack, .pool, .tier, .xlt, .cdie, .hif,
      .sess, .disp, .rna, .pwr, .tile]
  | .ranoaDieFailure _ => [
      .glb, .repair, .boot, .link, .hub, .hfifo, .msix, .sync, .counted, .xlt, .cdie, .hif, .disp, .rna, .pwr,
      .tile]
  | .hostReadCompletion _ _ _ => [
      .link, .hub, .hfifo, .msix, .mem, .stack, .pool, .tier, .xlt, .cdie, .hif, .disp]
  | .sealComplete => [.glb, .hfifo, .msix, .mem, .stack, .memc, .pool, .tier, .cdie, .hif, .disp]

end Sys2Proof.Machine
end

