-- ==== Sys2Proof/Certificates/Slice0/Obligations.lean ====
section
/-!
DEFINITION. The obligations: what the rules of the spec make of the commands, stated for every state and operands that meet
hypotheses on these alone. Most statements are conjunctions of clauses of one form: under its hypotheses, exec of the
command answers a next state t, and t holds what the rules give. Where a clause rests on a convention of the model, its
docstring names the log entry.
-/
open Sys2Proof Sys2Proof.Machine

/-- The first steps of start-up. Each of the commands POWER_UP_START to LINKS_TRAINED, given in the step before it,
takes start-up to its step: the rail, the host die, the emitter, the rings and the links come up in the order of
R576; a bad manifest stops start-up and an invalid image leads into recovery. Completes, under hypotheses on the
state and the operands alone (exec answers a next state): powerUpStart, bootRomLoaded, imageVerified,
hostDieEnable, packageRailUp, emitterStable, ringCalibrationDone, linksTrained. Conventions of the model it rests
on (its own choices, no rules of the spec): log 1, 9, 45, 52. (R576, R578) -/
def Obligations.PowerUpSteps : Prop :=
  (∀ (s : State) (vin : Nat), s.boot.phase = .off → s.boot.thermtrip = false → 32000 ≤ vin → vin ≤ 40000 → ∃ t,
    exec (.powerUpStart vin) s = .next t ∧ t.boot.phase = .step 1 ∧ t.boot.vin = vin) ∧
  (∀ (s : State) (img : Option FwImage), s.boot.phase = .step 1 → ∃ t, exec (.bootRomLoaded img) s = .next t ∧
    t.ivory.flash = img ∧ (manifestOk s.glb.manifest = true → imgReason s.ivory.fusedSvn img = 0 →
    t.boot.phase = .step 2) ∧ (manifestOk s.glb.manifest = true → imgReason s.ivory.fusedSvn img ≠ 0 →
    t.boot.phase = .recovery ∧ t.glb.recState = 1 ∧ t.glb.recReason = imgReason s.ivory.fusedSvn img) ∧
    (manifestOk s.glb.manifest = false → t.boot.manifestFault = true ∧ t.glb.recState = 3)) ∧
  (∀ (s : State), s.boot.phase = .step 2 → ∃ t, exec (.imageVerified) s = .next t ∧ t.boot.phase = .step 3 ∧
    t.ivory.running = s.ivory.flash) ∧
  (∀ (s : State), s.boot.phase = .step 3 → ∃ t, exec (.hostDieEnable) s = .next t ∧ t.boot.phase = .step 4 ∧
    t.boot.hostEnabled = true) ∧
  (∀ (s : State), s.boot.phase = .step 4 → ∃ t, exec (.packageRailUp) s = .next t ∧ t.boot.phase = .step 5 ∧
    t.boot.rail = true) ∧
  (∀ (s : State) (ok : Bool), s.boot.phase = .step 5 → ∃ t, exec (.emitterStable ok) s = .next t ∧
    t.boot.phase = .step 6 ∧ t.hub.emitter = 0 ∧ t.hub.standbyOk = ok) ∧
  (∀ (s : State), s.boot.phase = .step 6 → ∃ t, exec (.ringCalibrationDone) s = .next t ∧ t.boot.phase = .step 7) ∧
  (∀ (s : State) (adv : List WidthAdv), s.boot.phase = .step 7 → ∃ t, exec (.linksTrained adv) s = .next t ∧
    t.boot.phase = .step 8)

/-- The later steps of start-up and READY. Each of the commands TILE_SELF_TEST_DONE to CORE_SELF_TEST_DONE, given in
the step before it, takes start-up to its step; READY_SET sets READY and its pin when the host die, an emitter and
a core die are up; STARTUP_STOPPED stops start-up with its reason. Completes, under hypotheses on the state and
the operands alone (exec answers a next state): tileSelfTestDone, hbmTrained, hbmInitialised, tierMounted,
coreSelfTestDone, readySet, startupStopped. Conventions of the model it rests on (its own choices, no rules of the
spec): log 1, 52. (R576, R579) -/
def Obligations.StartupToReady : Prop :=
  (∀ (s : State) (faults : List TileFaults), s.boot.phase = .step 8 → ∃ t,
    exec (.tileSelfTestDone faults) s = .next t ∧ t.boot.phase = .step 9) ∧
  (∀ (s : State) (failed : List Nat), s.boot.phase = .step 9 → ∃ t, exec (.hbmTrained failed) s = .next t ∧
    t.boot.phase = .step 10 ∧ t.memc.frameCount = 4 * 65536 - t.memc.maps.length * t.framesLost) ∧
  (∀ (s : State), s.boot.phase = .step 10 → ∃ t, exec (.hbmInitialised) s = .next t ∧ t.boot.phase = .step 11 ∧
    t.mem = s.mem.zero 0 0x10000000000) ∧
  (∀ (s : State) (a b : Bool), s.boot.phase = .step 11 → ∃ t, exec (.tierMounted a b) s = .next t ∧
    t.boot.phase = .step 12) ∧
  (∀ (s : State) (passed : List Nat), s.boot.phase = .step 12 → ∃ t, exec (.coreSelfTestDone passed) s = .next t ∧
    t.boot.phase = .step 13) ∧
  (∀ (s : State), s.boot.phase = .step 13 → s.mayReady = true → ∃ t, exec (.readySet) s = .next t ∧
    t.boot.phase = .ready ∧ t.boot.readyOut = true ∧ t.glb.ready = true) ∧
  (∀ (s : State) (n reason : Nat), s.boot.phase = .step n → ∃ t, exec (.startupStopped reason) s = .next t ∧
    t.boot.phase = .stopped (reason % 16) ∧ t.boot.readyOut = false ∧ t.glb.recState = 3 ∧
    t.glb.recReason = reason % 16)

/-- The seal and the steps of a warm reset. SEAL of an unlocked module by the PF0 driver or the runtime starts the
seal and SEAL_COMPLETE sets SEALED; WARMRESET with its key and a heartbeat loss ask for a warm reset; each of its
commands, given after the step before it, takes it on, and WARM_RESET_READY sets READY again. Completes, under
hypotheses on the state and the operands alone (exec answers a next state): sealRegs, sealComplete, warmreset,
warmResetBegin, hubHeartbeatLoss, hostFailWarmReset, warmResetFenced, warmResetHubReady, warmResetDiesReset,
warmResetHbmTrained, warmResetHbmInitialised, warmResetTierRemounted, warmResetRuntimeStarted, warmResetReady.
Conventions of the model it rests on (its own choices, no rules of the spec): log 1, 39. (R616, R625, R571) -/
def Obligations.SealAndWarmReset : Prop :=
  (∀ (s : State) (who : Agent), s.hostGate who = true → isPf0OrCore who = true → s.locked = false → ∃ t,
    exec (.sealRegs who) s = .next t ∧ t.glb.sealBit = true ∧ t.glb.sealing = true) ∧
  (∀ (s : State), s.glb.sealing = true → ∃ t, exec (.sealComplete) s = .next t ∧ t.glb.sealed = true ∧
    t.glb.sealing = false ∧ t.disp.accepting = true) ∧
  (∀ (s : State) (who : Agent) (key : Nat), s.hostGate who = true → isPf0OrCore who = true → key % 256 = 0xA5 →
    ∃ t, exec (.warmreset who key) s = .next t ∧ t.glb.warmWanted = some (s.glb.warmWanted.getD .software)) ∧
  (∀ (s : State) (c : WarmCause), s.glb.warmWanted = some c → s.mayWarm = true → ∃ t,
    exec (.warmResetBegin) s = .next t ∧ t.glb.warmStep = 1 ∧ t.glb.ready = false ∧ t.boot.readyOut = false ∧
    t.disp.accepting = false) ∧
  (∀ (s : State), s.glb.warmStep = 0 → s.boot.phase = .ready → s.mayWarm = true → ∃ t,
    exec (.hubHeartbeatLoss) s = .next t ∧ t.glb.warmStep = 1 ∧ t.glb.rstCause = WarmCause.code .heartbeat) ∧
  (∀ (s : State), s.siteFailed 57 = true → s.mayWarm = true → s.disp.cmds = [] → ∃ t,
    exec (.hostFailWarmReset) s = .next t ∧ t.glb.warmStep = 1 ∧ t.glb.rstCause = WarmCause.code .hostDie) ∧
  (∀ (s : State), s.glb.warmStep = 1 → ∃ t, exec (.warmResetFenced) s = .next t ∧ t.glb.warmStep = 2 ∧
    t.counted = [] ∧ t.hub.voq = [] ∧ t.hub.outst = []) ∧
  (∀ (s : State), s.glb.warmStep = 2 → ∃ t, exec (.warmResetHubReady) s = .next t ∧ t.glb.warmStep = 3) ∧
  (∀ (s : State) (adv : List WidthAdv), s.glb.warmStep = 3 → ∃ t, exec (.warmResetDiesReset adv) s = .next t ∧
    t.glb.warmStep = 4 ∧ t.glb.sealed = false ∧ t.disp.watching = []) ∧
  (∀ (s : State) (failed : List Nat), s.glb.warmStep = 4 → ∃ t, exec (.warmResetHbmTrained failed) s = .next t ∧
    t.glb.warmStep = 5) ∧
  (∀ (s : State), s.glb.warmStep = 5 → ∃ t, exec (.warmResetHbmInitialised) s = .next t ∧ t.glb.warmStep = 6 ∧
    t.mem = {}) ∧
  (∀ (s : State) (bad : List Nat), s.glb.warmStep = 6 → ∃ t, exec (.warmResetTierRemounted bad) s = .next t ∧
    t.glb.warmStep = 7) ∧
  (∀ (s : State) (passed : List Nat), s.glb.warmStep = 7 → ∃ t,
    exec (.warmResetRuntimeStarted passed) s = .next t ∧ t.glb.warmStep = 8) ∧
  (∀ (s : State), s.glb.warmStep = 8 → s.mayReady = true → ∃ t, exec (.warmResetReady) s = .next t ∧
    t.glb.warmStep = 0 ∧ t.glb.ready = true ∧ t.boot.readyOut = true ∧ t.glb.sealed = true)

/-- Configuration space, PERST_N, the input voltage and the loss of Ivory. CONFIG_READY and CONFIG_REQUEST answer
configuration space; PERST_N_DEASSERT ends the reset of the PCIe function; a voltage outside its range shuts a
module down at once or after its limit; the loss of Ivory ends service. Completes, under hypotheses on the state
and the operands alone (exec answers a next state): configReady, configRequest, perstNDeassert, vin36OutOfRange,
vinLowTimeout, vinHighTimeout, ivoryDieStop. Conventions of the model it rests on (its own choices, no rules of
the spec): log 1, 50, 52. (R577, R580, R634) -/
def Obligations.PinsAndVoltage : Prop :=
  (∀ (s : State), s.boot.hostEnabled = true → s.boot.perst = false → s.siteFailed 57 = false → ∃ t,
    exec (.configReady) s = .next t ∧ t.boot.configReady = true) ∧
  (∀ (s : State) (fn dword : Nat), s.boot.hostEnabled = true → s.boot.perst = false → s.siteFailed 57 = false →
    ∃ t, exec (.configRequest fn dword) s = .next t ∧ (∃ a, t.hif.tlps = s.hif.tlps ++ [.cfg fn dword a]) ∧
    (s.boot.configReady = false → t.hif.tlps = s.hif.tlps ++ [.cfg fn dword .rrs]) ∧ (s.boot.configReady = true →
    s.boot.phase = .ready → fn < 32 → t.hif.tlps = s.hif.tlps ++ [.cfg fn dword (.ok (cfgDword fn dword))])) ∧
  (∀ (s : State), s.vinOut = false → ∃ t, exec (.perstNDeassert) s = .next t ∧ t.boot.perst = false ∧
    t.boot.configReady = false) ∧
  (∀ (s : State) (vin : Nat), s.boot.phase = .ready → (vin < 32000 ∨ 40000 < vin) → ∃ t,
    exec (.vin36OutOfRange vin) s = .next t ∧ (vin < 30000 ∨ 42000 < vin → t.boot.phase = .off ∧
    t.glb.ready = false) ∧ (30000 ≤ vin → vin ≤ 42000 → t.boot.phase = .ready ∧ t.boot.vin = vin ∧
    t.boot.vinLow = decide (vin < 32000) ∧ t.boot.vinHigh = decide (40000 < vin))) ∧
  (∀ (s : State), s.boot.phase = .ready → s.boot.vinLow = true → ∃ t, exec (.vinLowTimeout) s = .next t ∧
    t.boot.phase = .off ∧ t.glb.ready = false) ∧
  (∀ (s : State), s.boot.phase = .ready → s.boot.vinHigh = true → ∃ t, exec (.vinHighTimeout) s = .next t ∧
    t.boot.phase = .off ∧ t.glb.ready = false) ∧
  (∀ (s : State), ∃ t, exec (.ivoryDieStop) s = .next t ∧ t.boot.serviceOver = true ∧ t.glb.ready = false ∧
    t.disp.accepting = false)

/-- Firmware update and recovery. An update is received, verified, programmed and started at the next warm reset; an
invalid image is refused and the flash keeps what it holds; a recovery takes an image from memory through
GLB_RECOVERY. Completes, under hypotheses on the state and the operands alone (exec answers a next state):
pldmFwUpdate, fwImageReceived, fwProgramDone, activateFirmware, recoveryGo, recoveryProgramDone. Conventions of
the model it rests on (its own choices, no rules of the spec): log 1, 45, 52. (R585, R586) -/
def Obligations.FirmwareUpdate : Prop :=
  (∀ (s : State), s.fwUp = true → s.ivory.fwState = .idle → s.glb.recGo = false → ∃ t,
    exec (.pldmFwUpdate) s = .next t ∧ t.ivory.fwState = .receiving ∧ t.ivory.flash = s.ivory.flash) ∧
  (∀ (s : State) (img : FwImage), s.ivory.fwState = .receiving → ∃ t, exec (.fwImageReceived img) s = .next t ∧
    (imgReason s.ivory.fusedSvn (some img) = 0 → t.ivory.fwState = .programming ∧ t.ivory.fwBuf = some img) ∧
    (imgReason s.ivory.fusedSvn (some img) ≠ 0 → t.ivory.fwState = .idle ∧ t.ivory.fwBuf = none ∧
    t.ivory.flash = s.ivory.flash)) ∧
  (∀ (s : State) (ok : Bool), s.ivory.fwState = .programming → s.boot.phase = .ready → ∃ t,
    exec (.fwProgramDone ok) s = .next t ∧ t.ivory.fwState = .idle ∧ t.ivory.fwBuf = none ∧
    (t.ivory.flash = if ok then s.ivory.fwBuf else none)) ∧
  (∀ (s : State), s.fwUp = true → s.boot.phase = .ready → ∃ t, exec (.activateFirmware) s = .next t ∧
    t.glb.warmWanted = some (s.glb.warmWanted.getD .software)) ∧
  (∀ (s : State) (addr len : Nat), s.boot.phase = .recovery → s.glb.recGo = false → s.ivory.fwState = .idle → ∃ t,
    exec (.recoveryGo addr len) s = .next t ∧ t.glb.recGo = true ∧ t.glb.recStatus = 1) ∧
  (∀ (s : State) (img : FwImage), s.boot.phase = .recovery → s.glb.recGo = true → ∃ t,
    exec (.recoveryProgramDone (some img)) s = .next t ∧ t.glb.recGo = false ∧
    (imgReason s.ivory.fusedSvn (some img) = 0 → t.boot.phase = .step 1 ∧ t.ivory.flash = some img ∧
    t.glb.recState = 0) ∧ (imgReason s.ivory.fusedSvn (some img) ≠ 0 → t.boot.phase = .recovery ∧
    t.glb.recStatus = 2 ∧ t.glb.recReason = imgReason s.ivory.fusedSvn (some img)))

/-- Attestation, MCTP and PLDM answers. While the firmware runs, each SPDM, MCTP and PLDM request queues its answer:
slot 0 gives the RSA chain, vendor request 1 the SLH-DSA chain, measurements are the values of the moment, a
sensor gives its value; no other part of the module changes but the board limit, the endpoint ID and the IDE keys.
Completes, under hypotheses on the state and the operands alone (exec answers a next state): spdmGetCertificate,
spdmChallenge, spdmGetMeasurements, spdmKeyExchange, spdmVendorDefinedRequest, ideKmRequest, mctpControl,
pldmGetSensorReading, pldmSetNumericEffecter. Conventions of the model it rests on (its own choices, no rules of
the spec): log 1, 14, 47, 48, 49. (R590, R591, R593, R604, R608, R415) -/
def Obligations.ManagementPort : Prop :=
  (∀ (s : State) (off len : Nat), s.fwUp = true → ∃ t, exec (.spdmGetCertificate 0 off len) s = .next t ∧
    t.ivory.replies = s.ivory.replies ++ [.cert 0 ((s.ivory.rsaChain.drop off).take len)]) ∧
  (∀ (s : State) (slot off len : Nat), s.fwUp = true → slot ≠ 0 → ∃ t,
    exec (.spdmGetCertificate slot off len) s = .next t ∧ t.ivory.replies = s.ivory.replies ++ [.spdmError]) ∧
  (∀ (s : State) (req : List Byte), s.fwUp = true → ∃ t, exec (.spdmChallenge req) s = .next t ∧
    t.ivory.replies = s.ivory.replies ++ [.challenge (Config.rsaSign (req ++ Config.slhSign req)) (Config.slhSign
    req)]
    ) ∧
  (∀ (s : State) (i : Nat) (req : List Byte), s.fwUp = true → 1 ≤ i → i ≤ 8 → ∃ t,
    exec (.spdmGetMeasurements i req) s = .next t ∧ (∃ rsa slh,
    t.ivory.replies = s.ivory.replies ++ [.measurements i [s.measure i] rsa slh])) ∧
  (∀ (s : State) (req : List Byte), s.fwUp = true → ∃ t, exec (.spdmKeyExchange req) s = .next t ∧
    t.ivory.replies = s.ivory.replies ++ [.keyExchange (Config.rsaSign (req ++ Config.slhSign req))
    (Config.slhSign req)]
    ) ∧
  (∀ (s : State) (off len : Nat), s.fwUp = true → ∃ t,
    exec (.spdmVendorDefinedRequest 0x2C4D 1 off len) s = .next t ∧
    t.ivory.replies = s.ivory.replies ++ [.vendor 1 ((s.ivory.slhChain.drop off).take len)]) ∧
  (∀ (s : State) (stream lo hi : Nat) (key : BitVec 256), s.fwUp = true → stream < 4 → s.ivory.ide.length = 4 →
    ∃ t, exec (.ideKmRequest stream lo hi key) s = .next t ∧ t.ivory.ide[stream]? = some ⟨lo % 65536, hi % 65536,
    key, true⟩ ∧ (∀ k, k ≠ stream → t.ivory.ide[k]? = s.ivory.ide[k]?)) ∧
  (∀ (s : State) (eid : Nat), s.mgmtUp = true → ∃ t, exec (.mctpControl eid) s = .next t ∧
    t.ivory.eid = eid % 256 ∧ t.ivory.replies = s.ivory.replies ++ [.eid (eid % 256)]) ∧
  (∀ (s : State) (x : Sensor), s.fwUp = true → ∃ t, exec (.pldmGetSensorReading x) s = .next t ∧
    t.ivory.replies = s.ivory.replies ++ [.sensor x (s.sensor x) true]) ∧
  (∀ (s : State) (limit : Nat), s.fwUp = true → 0x3C ≤ limit → limit ≤ 0x100 → ∃ t,
    exec (.pldmSetNumericEffecter limit) s = .next t ∧ t.ivory.board = limit ∧
    t.ivory.replies = s.ivory.replies ++ [.effecter true])

/-- Owner requests. An owner request of the PF0 driver or the runtime leaves its status in GLB_MBOXCTL; one that
passes has its effect and raises SEQ, one that does not leaves every setting of Ivory as it was. Completes, under
hypotheses on the state and the operands alone (exec answers a next state): ownerSet, setHardPower, setThermal,
setPartition, debugUnlock, debugLock. Conventions of the model it rests on (its own choices, no rules of the
spec): log 1, 14, 52. (R598, R599, R601, R602) -/
def Obligations.OwnerRequests : Prop :=
  (∀ (s : State) (who : Agent) (r : OwnerReq), s.hostGate who = true → isPf0OrCore who = true → r.cmd = 0x01 → ∃ t,
    exec (.ownerSet who (some r)) s = .next t ∧ t.glb.mboxStatus = s.ownerStatus (some r) ∧ t.glb.mboxCmd = 0x01 ∧
    (s.ownerStatus (some r) ≠ 0 → t.ivory = s.ivory) ∧ (s.ownerStatus (some r) = 0 → t.ivory.owned = true ∧
    t.ivory.ownerSeq = 0 ∧ t.ivory.ownerSlh = BitVec.ofNat 256 (leAt r.body 384 32))) ∧
  (∀ (s : State) (who : Agent) (r : OwnerReq), s.hostGate who = true → isPf0OrCore who = true → r.cmd = 0x02 → ∃ t,
    exec (.setHardPower who (some r)) s = .next t ∧ t.glb.mboxStatus = s.ownerStatus (some r) ∧
    t.glb.mboxCmd = 0x02 ∧ (s.ownerStatus (some r) ≠ 0 → t.ivory = s.ivory) ∧ (s.ownerStatus (some r) = 0 →
    t.ivory.hard = leAt r.body 0 2 ∧ t.ivory.ownerSeq = r.seq % 2 ^ 64)) ∧
  (∀ (s : State) (who : Agent) (r : OwnerReq), s.hostGate who = true → isPf0OrCore who = true → r.cmd = 0x03 → ∃ t,
    exec (.setThermal who (some r)) s = .next t ∧ t.glb.mboxStatus = s.ownerStatus (some r) ∧ t.glb.mboxCmd = 0x03 ∧
    (s.ownerStatus (some r) ≠ 0 → t.ivory = s.ivory) ∧ (s.ownerStatus (some r) = 0 →
    t.ivory.warnOfs = leAt r.body 0 1 ∧ t.ivory.throttleOfs = leAt r.body 1 1 ∧ t.ivory.ownerSeq = r.seq % 2 ^ 64)) ∧
  (∀ (s : State) (who : Agent) (r : OwnerReq), s.hostGate who = true → isPf0OrCore who = true → r.cmd = 0x04 → ∃ t,
    exec (.setPartition who (some r)) s = .next t ∧ t.glb.mboxStatus = s.ownerStatus (some r) ∧
    t.glb.mboxCmd = 0x04 ∧ (s.ownerStatus (some r) ≠ 0 → t.ivory = s.ivory) ∧ (s.ownerStatus (some r) = 0 →
    t.ivory.part = put 0xFFFFFFFF s.ivory.part (leAt r.body 0 1) (leAt r.body 4 4) ∧
    t.ivory.ownerSeq = r.seq % 2 ^ 64)) ∧
  (∀ (s : State) (who : Agent) (r : OwnerReq), s.hostGate who = true → isPf0OrCore who = true → r.cmd = 0x05 → ∃ t,
    exec (.debugUnlock who (some r)) s = .next t ∧ t.glb.mboxStatus = s.ownerStatus (some r) ∧
    t.glb.mboxCmd = 0x05 ∧ (s.ownerStatus (some r) ≠ 0 → t.ivory = s.ivory) ∧ (s.ownerStatus (some r) = 0 →
    t.ivory.debug = 1 ∧ t.ivory.ownerSeq = r.seq % 2 ^ 64)) ∧
  (∀ (s : State) (who : Agent) (r : OwnerReq), s.hostGate who = true → isPf0OrCore who = true → r.cmd = 0x06 → ∃ t,
    exec (.debugLock who (some r)) s = .next t ∧ t.glb.mboxStatus = s.ownerStatus (some r) ∧ t.glb.mboxCmd = 0x06 ∧
    (s.ownerStatus (some r) ≠ 0 → t.ivory = s.ivory) ∧ (s.ownerStatus (some r) = 0 → t.ivory.debug = 0 ∧
    t.ivory.ownerSeq = r.seq % 2 ^ 64))

/-- READ, NARROW_READ, WRITE, WRITE_MASKED and the engine's rows at a stack. A request that a stack serves at once: a
read answers the bytes memory holds and changes none of them; a write stores the sectors it carries with their
check words and poison, a masked write the bytes it enables; both are acknowledged. A GATHER_ROWS that a stack
serves at once answers the row pieces in list order, in packets of up to 256 bytes; a SCATTER_ADD adds its
elements to those in memory and answers the flags; an access that the memory attributes forbid a core raises the
access fault of its kind. Completes, under hypotheses on the state and the operands alone (exec answers a next
state): read, narrowRead, write, writeMasked, gatherRows, scatterAdd, coreAccessFault. Conventions of the model it
rests on (its own choices, no rules of the spec): log 1, 2, 11, 22. (R252, R270, R40, R271, R272, R273, R364) -/
def Obligations.RequestsAtStack : Prop :=
  (∀ (s : State) (p : Pkt), p.op = .read → s.serves p → (∀ n ∈ sectorsOf p.addr p.rdLen, s.mem.ckBad n = false) →
    ∃ t, exec (.read p .none) s = .next t ∧ t.mem = s.mem ∧
    t.carries (answer .respData p 0 (s.mem.anyPoison p.addr p.rdLen) (s.mem.readN p.addr p.rdLen))) ∧
  (∀ (s : State) (p : Pkt), p.op = .narrowRead → s.serves p → (∀ n ∈ sectorsOf (p.addr / 32 * 32) 32,
    s.mem.ckBad n = false) → ∃ t, exec (.narrowRead p .none) s = .next t ∧ t.mem = s.mem ∧
    t.carries (answer .respData p 0 (s.mem.anyPoison (p.addr / 32 * 32) 32) (s.mem.readN (p.addr / 32 * 32) 32))) ∧
  (∀ (s : State) (p : Pkt), p.op = .write → s.serves p → ∃ t, exec (.write p) s = .next t ∧
    t.mem = s.mem.writeSectors (sectorOf p.addr) p.poison p.payload p.checks (p.payload.length / 64) ∧
    t.carries (answer .respAck p 0 false [])) ∧
  (∀ (s : State) (p : Pkt), p.op = .writeMasked → s.serves p → p.checks.head? = some (crc32c (p.payload.take 64)) →
    s.mem.ckBad (sectorOf p.addr) = false → ∃ t, exec (.writeMasked p .none) s = .next t ∧
    t.mem = s.mem.writeMasked (sectorOf p.addr) (leAt p.payload 64 8) p.payload p.poison ∧
    t.carries (answer .respAck p 0 false [])) ∧
  (∀ (s : State) (p q : Pkt) (len k : Nat) (d : List Byte), q = withEcmd p 1 → s.serves q →
    len = leAt q.payload 4 2 → (∀ a ∈ gatherRows q, s.lostUnit (a / 4096) = true ∨ ∀ n ∈ sectorsOf a len,
    s.mem.ckBad n = false) → (packPackets 32 ((gatherRows q).flatMap (fun a => s.gatherRow len a)))[k]? = some d →
    ∃ t, exec (.gatherRows p .none) s = .next t ∧ t.mem = s.mem ∧
    t.carries (answer .respData q (if (List.range (gatherRows q).length).any (fun i => gatherHas len k i &&
    s.lostUnit ((gatherRows q).getD i 0 / 4096)) then 0x04 else 0) ((List.range (gatherRows q).length).any (fun i
    => gatherHas len k i && (s.lostUnit ((gatherRows q).getD i 0 / 4096) || s.mem.anyPoison ((gatherRows q).getD i
    0) len))) d)
    ) ∧
  (∀ (s : State) (p q : Pkt) (f : Fmt), q = withEcmd p 3 → s.serves q → p.poison = false →
    Fmt.ofCode (leAt q.payload 1 1) = some f → (f = .fp32 ∨ f = .int32) →
    (∀ n ∈ sectorsOf q.addr (leAt q.payload 2 1 * f.bytes), s.mem.ckBad n = false) → ∃ t,
    exec (.scatterAdd p .none) s = .next t ∧
    t.mem = s.mem.merge q.addr (scatterRow f (s.mem.readN q.addr (leAt q.payload 2 1 * f.bytes)) (q.payload.drop
    16) (leAt q.payload 2 1)).1 ∧
    t.carries (answer .respAck q (scatterRow f (s.mem.readN q.addr (leAt q.payload 2 1 * f.bytes)) (q.payload.drop
    16) (leAt q.payload 2 1)).2.toNat false [])
    ) ∧
  (∀ (s : State) (c a size : Nat) (kind : AccKind), s.coreMay a size kind = false → ∃ t,
    exec (.coreAccessFault c a size kind) s = .next t ∧ (t.coreOf c).exc = some (accCause kind, a) ∧
    (t.coreOf c).lsr = none ∧ t.mem = s.mem)

/-- Atomics at a stack. An ATOMIC that a stack serves at once: the value before it is returned in 16 bytes and the
sum, the logical combination or the lesser or greater value, signed or unsigned, is merged into memory. Completes,
under hypotheses on the state and the operands alone (exec answers a next state): atomicSwap, atomicAdd,
atomicAnd, atomicOr, atomicXor, atomicMin, atomicMax, atomicMinu, atomicMaxu. Conventions of the model it rests on
(its own choices, no rules of the spec): log 1. (R268, R269) -/
def Obligations.AtomicsAtStack : Prop :=
  (∀ (s : State) (p : Pkt) (size old v : Nat), s.serves (withAop p 0) → (size = 4 ∨ size = 8) →
    leAt (withAop p 0).payload 9 1 = size → p.addr % size = 0 → s.mem.ckBad (sectorOf p.addr) = false →
    old = s.mem.readLE p.addr size → v = leAt (withAop p 0).payload 0 size → ∃ t,
    exec (.atomicSwap p .none) s = .next t ∧ t.mem = s.mem.merge p.addr (leBytes size (v)) ∧
    t.carries (answer .respData (withAop p 0) 0 (t.mem.isPoison (sectorOf p.addr)) (leBytes 16 old))) ∧
  (∀ (s : State) (p : Pkt) (size old v : Nat), s.serves (withAop p 1) → (size = 4 ∨ size = 8) →
    leAt (withAop p 1).payload 9 1 = size → p.addr % size = 0 → s.mem.ckBad (sectorOf p.addr) = false →
    old = s.mem.readLE p.addr size → v = leAt (withAop p 1).payload 0 size → ∃ t,
    exec (.atomicAdd p .none) s = .next t ∧ t.mem = s.mem.merge p.addr (leBytes size ((old + v) % 2 ^ (8 * size))) ∧
    t.carries (answer .respData (withAop p 1) 0 (t.mem.isPoison (sectorOf p.addr)) (leBytes 16 old))) ∧
  (∀ (s : State) (p : Pkt) (size old v : Nat), s.serves (withAop p 2) → (size = 4 ∨ size = 8) →
    leAt (withAop p 2).payload 9 1 = size → p.addr % size = 0 → s.mem.ckBad (sectorOf p.addr) = false →
    old = s.mem.readLE p.addr size → v = leAt (withAop p 2).payload 0 size → ∃ t,
    exec (.atomicAnd p .none) s = .next t ∧ t.mem = s.mem.merge p.addr (leBytes size (Nat.land old v)) ∧
    t.carries (answer .respData (withAop p 2) 0 (t.mem.isPoison (sectorOf p.addr)) (leBytes 16 old))) ∧
  (∀ (s : State) (p : Pkt) (size old v : Nat), s.serves (withAop p 3) → (size = 4 ∨ size = 8) →
    leAt (withAop p 3).payload 9 1 = size → p.addr % size = 0 → s.mem.ckBad (sectorOf p.addr) = false →
    old = s.mem.readLE p.addr size → v = leAt (withAop p 3).payload 0 size → ∃ t,
    exec (.atomicOr p .none) s = .next t ∧ t.mem = s.mem.merge p.addr (leBytes size (Nat.lor old v)) ∧
    t.carries (answer .respData (withAop p 3) 0 (t.mem.isPoison (sectorOf p.addr)) (leBytes 16 old))) ∧
  (∀ (s : State) (p : Pkt) (size old v : Nat), s.serves (withAop p 4) → (size = 4 ∨ size = 8) →
    leAt (withAop p 4).payload 9 1 = size → p.addr % size = 0 → s.mem.ckBad (sectorOf p.addr) = false →
    old = s.mem.readLE p.addr size → v = leAt (withAop p 4).payload 0 size → ∃ t,
    exec (.atomicXor p .none) s = .next t ∧ t.mem = s.mem.merge p.addr (leBytes size (Nat.xor old v)) ∧
    t.carries (answer .respData (withAop p 4) 0 (t.mem.isPoison (sectorOf p.addr)) (leBytes 16 old))) ∧
  (∀ (s : State) (p : Pkt) (size old v : Nat), s.serves (withAop p 5) → (size = 4 ∨ size = 8) →
    leAt (withAop p 5).payload 9 1 = size → p.addr % size = 0 → s.mem.ckBad (sectorOf p.addr) = false →
    old = s.mem.readLE p.addr size → v = leAt (withAop p 5).payload 0 size → ∃ t,
    exec (.atomicMin p .none) s = .next t ∧
    t.mem = s.mem.merge p.addr (leBytes size (if sext (8 * size) old ≤ sext (8 * size) v then old else v)) ∧
    t.carries (answer .respData (withAop p 5) 0 (t.mem.isPoison (sectorOf p.addr)) (leBytes 16 old))) ∧
  (∀ (s : State) (p : Pkt) (size old v : Nat), s.serves (withAop p 6) → (size = 4 ∨ size = 8) →
    leAt (withAop p 6).payload 9 1 = size → p.addr % size = 0 → s.mem.ckBad (sectorOf p.addr) = false →
    old = s.mem.readLE p.addr size → v = leAt (withAop p 6).payload 0 size → ∃ t,
    exec (.atomicMax p .none) s = .next t ∧
    t.mem = s.mem.merge p.addr (leBytes size (if sext (8 * size) old ≤ sext (8 * size) v then v else old)) ∧
    t.carries (answer .respData (withAop p 6) 0 (t.mem.isPoison (sectorOf p.addr)) (leBytes 16 old))) ∧
  (∀ (s : State) (p : Pkt) (size old v : Nat), s.serves (withAop p 7) → (size = 4 ∨ size = 8) →
    leAt (withAop p 7).payload 9 1 = size → p.addr % size = 0 → s.mem.ckBad (sectorOf p.addr) = false →
    old = s.mem.readLE p.addr size → v = leAt (withAop p 7).payload 0 size → ∃ t,
    exec (.atomicMinu p .none) s = .next t ∧ t.mem = s.mem.merge p.addr (leBytes size (min old v)) ∧
    t.carries (answer .respData (withAop p 7) 0 (t.mem.isPoison (sectorOf p.addr)) (leBytes 16 old))) ∧
  (∀ (s : State) (p : Pkt) (size old v : Nat), s.serves (withAop p 8) → (size = 4 ∨ size = 8) →
    leAt (withAop p 8).payload 9 1 = size → p.addr % size = 0 → s.mem.ckBad (sectorOf p.addr) = false →
    old = s.mem.readLE p.addr size → v = leAt (withAop p 8).payload 0 size → ∃ t,
    exec (.atomicMaxu p .none) s = .next t ∧ t.mem = s.mem.merge p.addr (leBytes size (max old v)) ∧
    t.carries (answer .respData (withAop p 8) 0 (t.mem.isPoison (sectorOf p.addr)) (leBytes 16 old)))

/-- Register writes and refused register accesses. A register write stores the fields the register has; an RWL
register is clamped while setup is open and ignored with SETUP_REFUSED once it is locked; a VF's write to a
register that is not its own is ignored with SETUP_REFUSED, the host's before READY without; a core's store of
another width traps; malformed and reserved accesses are answered as the rules say. Completes, under hypotheses on
the state and the operands alone (exec answers a next state): registerWrite, bar0MalformedAccess,
coreReservedRegisterAccess, ivrInternalWrite. Conventions of the model it rests on (its own choices, no rules of
the spec): log 6, 36, 37. (R610, R611, R613, R620, R10, R578, R594) -/
def Obligations.RegisterWrites : Prop :=
  (∀ (s : State) (c : Nat) (v : Word), (s.coreOf c).fence = false → ∃ t,
    exec (.registerWrite (.core c) 0x800 8 [v]) s = .next t ∧ t = s.setReg 0x800 v) ∧
  (∀ (s : State) (c : Nat) (v : Word), (s.coreOf c).fence = false → s.locked = false → ∃ t,
    exec (.registerWrite (.core c) 0x0100008 8 [v]) s = .next t ∧
    t = s.setReg 0x0100008 (BitVec.ofNat 64 (clamp 1 3600 (v.toNat % 4096)))) ∧
  (∀ (s : State) (c : Nat) (v : Word), (s.coreOf c).fence = false → s.locked = true → ∃ t,
    exec (.registerWrite (.core c) 0x0100008 8 [v]) s = .next t ∧ t = setupRefused (.core c) 0x0100008 s ∧
    s.reports t (ev 0x80 none (whoArg (.core c)) [0x0100008])) ∧
  (∀ (s : State) (f off : Nat) (v : Word), s.glb.ready = true → f ≠ 0 → isReg64 off = true → off % 8 = 0 →
    s.vfWrites f off = false → ∃ t, exec (.registerWrite (.host f) off 8 [v]) s = .next t ∧
    t = setupRefused (.host f) off s ∧ s.reports t (ev 0x80 none (whoArg (.host f)) [off])) ∧
  (∀ (s : State) (f off : Nat) (v : Word), s.glb.ready = false → off ≠ 0x908 → off ≠ 0x910 → ∃ t,
    exec (.registerWrite (.host f) off 8 [v]) s = .next t ∧ t = s) ∧
  (∀ (s : State) (c off : Nat) (v : Word), (s.coreOf c).fence = false → isReg64 off = true →
    reservedBlock off = false → ivrBlock off = false → off < 0x4000000 → isReg32 off = false → ∃ t,
    exec (.registerWrite (.core c) off 4 [v]) s = .next t ∧ t = coreTrap c 7 (internalAddr off) s ∧
    (t.coreOf c).exc = some (7, 0x030000000000 + off)) ∧
  (∀ (s : State) (f off : Nat), s.glb.ready = true → ∃ t, exec (.bar0MalformedAccess f off true) s = .next t ∧
    s.reports t (ev 0x80 none (whoArg (.host f)) [off]) ∧ t.regs = s.regs ∧ t.replies = s.replies) ∧
  (∀ (s : State) (f off : Nat), s.glb.ready = true → ∃ t, exec (.bar0MalformedAccess f off false) s = .next t ∧
    t.replies = s.replies ++ [⟨.host f, off, 0#64, true⟩] ∧ t.regs = s.regs) ∧
  (∀ (s : State) (f off : Nat), s.glb.ready = false → ∃ t, exec (.bar0MalformedAccess f off false) s = .next t ∧
    t.replies = s.replies ++ [⟨.host f, off, 0#64, false⟩]) ∧
  (∀ (s : State) (c a : Nat), 0x030000C00000 ≤ a → a < 0x030000F00000 → ∃ t,
    exec (.coreReservedRegisterAccess c a true) s = .next t ∧ t = serrRecord c 0 a 0x03 s ∧ t.regs = s.regs) ∧
  (∀ (s : State) (c a : Nat), 0x030000C00000 ≤ a → a < 0x030000F00000 → ∃ t,
    exec (.coreReservedRegisterAccess c a false) s = .next t ∧
    t = reply (.core c) a 0xFFFFFFFFFFFFFFFF#64 (serrRecord c 1 a 0x03 s) ∧ t.regs = s.regs) ∧
  (∀ (s : State) (c off : Nat), 0x0F00000 ≤ off → off < 0x1000000 → ∃ t,
    exec (.ivrInternalWrite c off) s = .next t ∧
    t = serrRecord c 0 (0x030000000000 + off) 0x04 (setupRefused (.core c) off s) ∧ t.ivory = s.ivory)

/-- RESP_DATA, RESP_ACK, RESP_ERR and RESP_RETRY at their requester. A response that comes to its requester takes the
request it answers off the outstanding ones and acts as the request was made for: data reach a COPY, the value
before an AMOADD.D its core, a pool die relays an answer, a core die gives up the line it has written back, an
error of an engine command sets status 4, a retry leaves its ticket with the core die; a response that no request
awaits is discarded. Completes, under hypotheses on the state and the operands alone (exec answers a next state):
respData, respAck, respErr, respRetry. Conventions of the model it rests on (its own choices, no rules of the
spec): log 1, 2, 19. (R43, R50, R60, R290, R375) -/
def Obligations.Responses : Prop :=
  (∀ (s : State) (p : Pkt) (o : Outst) (ring seq off : Nat), p.op = .respData → p.addr = 0 → p.poison = false →
    s.comes p → s.findOutst p.dst p.tid = some o → o.left ≤ 1 → o.use = .copy ring seq off → ∃ t,
    exec (.respData p) s = .next t ∧
    s.hub.outst.filter (fun y => !(y.src == p.dst && y.tid == p.tid)) <+: t.hub.outst ∧
    t.disp.cmds = s.disp.cmds.map (fun c => if c.ring == ring && c.seq == seq then
    { c with got := c.got ++ [(off, p.payload, false)] } else c) ∧
    t.mem = s.mem) ∧
  (∀ (s : State) (p : Pkt) (o : Outst) (src tid die : Nat), p.op = .respAck → s.comes p →
    s.findOutst p.dst p.tid = some o → o.use = .relay src tid die → s.fenced (49 + die) = false →
    s.fenced src = false → (src, tid) ∉ s.hub.dropped → (s.poolOf die).wait = [] → ∃ t,
    exec (.respAck p) s = .next t ∧ t.carries { p with src := 49 + die, dst := src, tid := tid } ∧ t.mem = s.mem) ∧
  (∀ (s : State) (p : Pkt) (o : Outst) (die addr : Nat), p.op = .respAck → s.comes p →
    s.findOutst p.dst p.tid = some o → o.left ≤ 1 → o.use = .evict die addr → ∃ t, exec (.respAck p) s = .next t ∧
    t.cdie = upd {} s.cdie die (fun x => { x with lines := put none x.lines (sectorOf addr) none }) ∧
    s.hub.outst.filter (fun y => !(y.src == p.dst && y.tid == p.tid)) <+: t.hub.outst ∧ t.mem = s.mem) ∧
  (∀ (s : State) (p : Pkt) (o : Outst) (core stack n : Nat), p.op = .respErr → s.comes p →
    s.findOutst p.dst p.tid = some o → o.use = .engine core stack n → ∃ t, exec (.respErr p) s = .next t ∧
    t.stack = upd {} s.stack stack (fun x =>
    { x with win := upd {} x.win core (fun w => { w with status := 4 }) }) ∧
    s.hub.outst.filter (fun y => !(y.src == p.dst && y.tid == p.tid)) <+: t.hub.outst ∧ t.mem = s.mem) ∧
  (∀ (s : State) (p : Pkt) (o : Outst) (die core msg addr : Nat), p.op = .respRetry → s.comes p →
    s.findOutst p.dst p.tid = some o → o.use = .coh die core msg addr → (s.cdieOf die).defer = [] →
    p.addr % 65536 ≠ 0 → ∃ t, exec (.respRetry p) s = .next t ∧ look (0, 0,
    0) (t.cdieOf die).tickets (sectorOf addr) = (p.addr % 65536, msg, core) ∧ t.mem = s.mem) ∧
  (∀ (s : State) (p : Pkt) (o : Outst) (core obj : Nat), p.op = .respData → p.addr = 0 → p.poison = false →
    s.comes p → s.findOutst p.dst p.tid = some o → o.left ≤ 1 → o.use = .amo core obj → ∃ t,
    exec (.respData p) s = .next t ∧ t.replies = s.replies ++ [⟨.core core, 0x1000000 + 0x40 * obj,
    BitVec.ofNat 64 (leAt p.payload 0 8), false⟩] ∧
    s.hub.outst.filter (fun y => !(y.src == p.dst && y.tid == p.tid)) <+: t.hub.outst) ∧
  (∀ (s : State) (p : Pkt), s.findOutst p.dst p.tid = none → ∃ t, exec (.respData p) s = .next t ∧
    t.hub.outst = s.hub.outst ∧ t.disp = s.disp ∧ t.tile = s.tile ∧ t.cdie = s.cdie ∧ t.mem = s.mem)

/-- Acknowledgements, resends, credits, heartbeats and epochs of a link. On a link that carries words: an
acknowledgement frees the replay entries up to it, a negative or overdue one resends and at the eighth time takes
the link down, a credit word of the receiver frees slots at the sender, heartbeats pass, a new epoch restarts both
senders; a packet that fails the link check is counted and draws a negative acknowledgement, a gap in the sequence
draws one, a packet of another epoch is discarded. Completes, under hypotheses on the state and the operands alone
(exec answers a next state): linkAck, linkNak, ackOverdue, creditReturn, heartbeat, heartbeatSend, epochChange,
linkCrcError. Conventions of the model it rests on (its own choices, no rules of the spec): log 1, 19. (R39, R41,
R45, R46, R47, R48, R70) -/
def Obligations.LinkSenders : Prop :=
  (∀ (s : State) (port seq : Nat) (sd : Side), s.linkLive port = true → ∃ t,
    exec (.linkAck port sd seq) s = .next t ∧
    ackDrop seq ((s.linkOf port).endOf sd).replay <+: ((t.linkOf port).endOf sd).replay ∧ t.mem = s.mem) ∧
  (∀ (s : State) (port : Nat) (sd : Side), s.linkLive port = true → ((s.linkOf port).endOf sd).replay ≠ [] →
    ((s.linkOf port).endOf sd).resends < 7 → ∃ t, exec (.linkNak port sd) s = .next t ∧
    ((t.linkOf port).endOf sd).resends = ((s.linkOf port).endOf sd).resends + 1 ∧
    (t.linkOf port).replays = satAdd 0xFFFF (s.linkOf port).replays 1 ∧ (t.linkOf port).state = 2) ∧
  (∀ (s : State) (port : Nat) (sd : Side), s.linkLive port = true → (s.linkOf port).fenced = false →
    ((s.linkOf port).endOf sd).replay ≠ [] → 7 ≤ ((s.linkOf port).endOf sd).resends → ∃ t,
    exec (.ackOverdue port sd) s = .next t ∧ (t.linkOf port).state = 1 ∧ (t.linkOf port).width = 0 ∧
    (t.linkOf port).replays = satAdd 0xFFFF (s.linkOf port).replays 1) ∧
  (∀ (s : State) (port : Nat) (sd : Side), s.linkLive port = true → ((s.linkOf port).endOf sd).replay ≠ [] →
    ((s.linkOf port).endOf sd).resends < 7 → ∃ t, exec (.ackOverdue port sd) s = .next t ∧
    ((t.linkOf port).endOf sd).resends = ((s.linkOf port).endOf sd).resends + 1 ∧ (t.linkOf port).state = 2) ∧
  (∀ (s : State) (port dst vc n : Nat) (sd : Side), s.linkLive port = true → s.hub.voq = [] →
    (s.linkOf port).die.wait = [] → .credit dst vc n ∈ ((s.linkOf port).endOf (otherSide sd)).ctl → ∃ t,
    exec (.creditReturn port sd dst vc n) s = .next t ∧
    ((t.linkOf port).endOf sd).used = upd 0 ((s.linkOf port).endOf sd).used (if sd = .die then 8 * dst + vc else
    vc) (fun k => k - n)
    ) ∧
  (∀ (s : State) (port : Nat) (sd : Side), s.linkLive port = true → ∃ t, exec (.heartbeat port sd) s = .next t ∧
    ((t.linkOf port).endOf sd).ctl = dropFirst (fun c => c == .heartbeat) ((s.linkOf port).endOf sd).ctl) ∧
  (∀ (s : State) (port : Nat) (sd : Side), s.portUp port = true → port ≠ 63 → ∃ t,
    exec (.heartbeatSend port sd) s = .next t ∧
    ((t.linkOf port).endOf sd).ctl = ((s.linkOf port).endOf sd).ctl ++ [.heartbeat]) ∧
  (∀ (s : State) (port : Nat), (s.linkOf port).state = 2 → (s.linkOf port).fenced = false → port ≠ 63 →
    (s.linkOf port).paused = false → ∃ t, exec (.epochChange port) s = .next t ∧
    (t.linkOf port).epoch = ((s.linkOf port).epoch + 1) % 8 ∧ (t.linkOf port).state = 2 ∧
    renumber 0 (s.linkOf port).die.replay <+: (t.linkOf port).die.replay) ∧
  (∀ (s : State) (port : Nat) (sd : Side) (hdr : BitVec 128) (body : List Byte) (crc : BitVec 32),
    s.linkLive port = true → port ≤ 62 → rawFind (s.linkOf port) sd hdr body crc = .bad → ∃ t,
    exec (.linkCrcError port sd hdr body crc) s = .next t ∧
    (t.linkOf port).crcErr = satAdd 0xFFFF (s.linkOf port).crcErr 1 ∧
    ((t.linkOf port).endOf (otherSide sd)).ctl = ((s.linkOf port).endOf (otherSide sd)).ctl ++ [.nak]) ∧
  (∀ (s : State) (port : Nat) (sd : Side) (hdr : BitVec 128) (body : List Byte) (crc : BitVec 32),
    s.linkLive port = true → port ≤ 62 → rawFind (s.linkOf port) sd hdr body crc = .gap → ∃ t,
    exec (.linkCrcError port sd hdr body crc) s = .next t ∧ (t.linkOf port).crcErr = (s.linkOf port).crcErr ∧
    ((t.linkOf port).endOf (otherSide sd)).ctl = ((s.linkOf port).endOf (otherSide sd)).ctl ++ [.nak]) ∧
  (∀ (s : State) (port : Nat) (sd : Side) (hdr : BitVec 128) (body : List Byte) (crc : BitVec 32),
    rawFind (s.linkOf port) sd hdr body crc = .stale → ∃ t, exec (.linkCrcError port sd hdr body crc) s = .next t ∧
    t = s)

/-- Loss of carrier, training, fences and calibration of a link. A link without carrier is down; a retrain or a full
training brings it up in a new epoch at the smaller width and with the features both sides have; a port not up in
time is fenced; a fence is complete when no packet of the port is left in the hub; calibration pauses an optical
link and resumes it; a failed lane takes a spare, and beyond the spares the link narrows. Completes, under
hypotheses on the state and the operands alone (exec answers a next state): carrierLossTimeout, fastRetrainDone,
fullTrainingDone, retrainTimeout, fenceComplete, calibrationPause, calibrationResume, hubLaneFailure. Conventions
of the model it rests on (its own choices, no rules of the spec): log 1, 19, 57. (R24, R48, R51, R52, R53, R55,
R58, R63) -/
def Obligations.LinkStates : Prop :=
  (∀ (s : State) (port : Nat), s.linkLive port = true → (s.linkOf port).fenced = false → ∃ t,
    exec (.carrierLossTimeout port) s = .next t ∧ (t.linkOf port).state = 1 ∧ (t.linkOf port).width = 0) ∧
  (∀ (s : State) (port a b w : Nat), s.mayTrain port = true → (s.linkOf port).calibrated = true →
    (s.linkOf port).fenced = false → w = min (min a (s.usable port)) (min b (s.usable port)) → minWidth port ≤ w →
    ∃ t, exec (.fastRetrainDone port a b) s = .next t ∧ (t.linkOf port).state = 2 ∧ (t.linkOf port).width = w ∧
    (t.linkOf port).epoch = ((s.linkOf port).epoch + 1) % 8 ∧ (t.linkOf port).advDie = min a (s.usable port) ∧
    (t.linkOf port).advHub = min b (s.usable port) ∧
    (t.linkOf port).feat = Nat.land (s.featuresAt port) (s.featuresAt 63)) ∧
  (∀ (s : State) (port a b w : Nat), s.mayTrain port = true →
    w = min (min a (s.usable port)) (min b (s.usable port)) → minWidth port ≤ w → ∃ t,
    exec (.fullTrainingDone port a b) s = .next t ∧ (t.linkOf port).state = 2 ∧ (t.linkOf port).width = w ∧
    (t.linkOf port).calibrated = true) ∧
  (∀ (s : State) (port : Nat), port ≠ 63 → (s.linkOf port).fenced = false → (s.linkOf port).state = 1 → ∃ t,
    exec (.retrainTimeout port) s = .next t ∧ t.fenced port = true ∧ (t.linkWord port).toNat % 4 = 3 ∧
    (∀ o ∈ t.hub.outst, o.src ≠ port)) ∧
  (∀ (s : State) (port : Nat), (∀ v ∈ s.hub.voq, v.pkt.src ≠ port) → (s.linkOf port).fenced = true → ∃ t,
    exec (.fenceComplete port) s = .next t ∧ (t.linkOf port).fencing = false ∧ (t.linkOf port).fenced = true) ∧
  (∀ (s : State) (port : Nat), port ≤ 62 → isUcie port = false → (s.linkOf port).state = 2 → ∃ t,
    exec (.calibrationPause port) s = .next t ∧ t.portUp port = false ∧ (t.linkOf port).state = 2) ∧
  (∀ (s : State) (port : Nat), (s.linkOf port).paused = true → (s.linkOf port).state = 2 →
    (s.linkOf port).fenced = false → ∃ t, exec (.calibrationResume port) s = .next t ∧ t.portUp port = true) ∧
  (∀ (s : State) (port w : Nat), port ≤ 62 → w < nomWidth port → look 0 (s.linkOf port).lanes w < spareLanes port →
    ∃ t, exec (.hubLaneFailure port w) s = .next t ∧ (t.linkOf port).spares = satAdd 255 (s.linkOf port).spares 1 ∧
    (t.linkOf port).spareEvents = satAdd 0xFFFF (s.linkOf port).spareEvents 1 ∧
    (t.linkOf port).width = (s.linkOf port).width) ∧
  (∀ (s : State) (port w : Nat), port ≤ 52 → w < nomWidth port → (s.linkOf port).lanes = [(w, 2)] →
    minWidth port < (s.linkOf port).width → ∃ t, exec (.hubLaneFailure port w) s = .next t ∧
    (t.linkOf port).width = min (s.linkOf port).width (nomWidth port - 1) ∧
    (t.linkOf port).state = (s.linkOf port).state)

/-- Timeouts, the emitters, the root clock and the link error registers. The hub answers a forwarded request whose
target has not answered in time, and an access that has waited for its tile; the standby emitter takes over from a
failed one while the root clock is lost, without one service ends; without the root clock every link is down, or
the one site's below a break; a site whose holdover has run out is failed; HUB_LINKERR reads and clears its
counts. Completes, under hypotheses on the state and the operands alone (exec answers a next state):
targetTimeout, tierWaitTimeout, emitterFailure, rootClockLoss, rootClockReturn, holdoverExpired, hubLinkerrRead,
mgmt. Conventions of the model it rests on (its own choices, no rules of the spec): log 1, 4, 19. (R39, R60, R61,
R65, R66, R70) -/
def Obligations.HubTimeoutsAndClocks : Prop :=
  (∀ (s : State) (o : Outst), s.findOutst o.src o.tid = some o → o.dst ≠ 63 → s.forwarded o.src o.tid = true →
    s.fenced o.dst = false → (s.linkOf o.dst).state = 2 → (o.src, o.tid) ∉ s.hub.dropped → ∃ t,
    exec (.targetTimeout o.src o.tid) s = .next t ∧ t.hub.dropped = s.hub.dropped ++ [(o.src, o.tid)] ∧
    (∃ v ∈ t.hub.voq, v.pkt = deadAnswer ⟨o.op, o.src, o.dst, o.tid, o.addr, false, [], [], o.len⟩ 0x01)) ∧
  (∀ (s : State) (p : Pkt), s.tier.wait.find? (fun q => q.src == p.src && q.tid == p.tid) = some p →
    s.fenced p.src = false → s.fenced p.dst = false → (p.src, p.tid) ∉ s.hub.dropped → ∃ t,
    exec (.tierWaitTimeout p.src p.tid) s = .next t ∧ t.tier.wait = dropFirst (fun q => q == p) s.tier.wait ∧
    t.carries (deadAnswer p 0x01)) ∧
  (∀ (s : State), s.hub.standbyOk = true → ∃ t, exec (.emitterFailure) s = .next t ∧
    t.hub.emitter = 1 - s.hub.emitter ∧ t.hub.standbyOk = false ∧ t.hub.rootLost = true ∧
    s.reports t (ev 0x34 none (1 - s.hub.emitter) []) ∧ (∀ p ∈ List.range 63, (s.linkOf p).state = 2 →
    (s.linkOf p).fenced = false → (t.linkOf p).state = 1)) ∧
  (∀ (s : State), s.hub.standbyOk = false → ∃ t, exec (.emitterFailure) s = .next t ∧ t.hub.bothFailed = true ∧
    t.hub.stopped = true ∧ t.glb.ready = false ∧ t.boot.readyOut = false ∧ t.disp.accepting = false) ∧
  (∀ (s : State), ∃ t, exec (.rootClockLoss none) s = .next t ∧ t.hub.rootLost = true ∧ (∀ p ∈ List.range 63,
    (t.linkOf p).noRoot = true) ∧ (∀ p ∈ List.range 63, (s.linkOf p).state = 2 → (s.linkOf p).fenced = false →
    (t.linkOf p).state = 1)) ∧
  (∀ (s : State) (p : Nat), p ≤ 62 → (s.linkOf p).fenced = false → ∃ t,
    exec (.rootClockLoss (some p)) s = .next t ∧ (t.linkOf p).noRoot = true ∧ (t.linkOf p).state = 1 ∧ (∀ q, q ≠ p →
    t.linkOf q = s.linkOf q)) ∧
  (∀ (s : State), s.hub.bothFailed = false → ∃ t, exec (.rootClockReturn none) s = .next t ∧ t.hub.rootLost = false) ∧
  (∀ (s : State) (port : Nat), port ≤ 62 → (s.linkOf port).noRoot = true → s.siteFailed port = false → ∃ t,
    exec (.holdoverExpired port) s = .next t ∧ t.siteFailed port = true) ∧
  (∀ (s : State) (who : Agent) (port : Nat), s.hostGate who = true → ∃ t,
    exec (.hubLinkerrRead who port) s = .next t ∧ t.replies = s.replies ++ [⟨who, 0x0B00300 + 8 * port,
    s.linkErr port, false⟩] ∧
    t.link = upd {} s.link port (fun l => { l with retrains := 0, replays := 0, crcErr := 0, spareEvents := 0 })) ∧
  (∀ (s : State) (src dst : Nat) (k : MgmtKind), s.comes ⟨.mgmt, src, dst, 0, 0, false, [], [], 0⟩ → ∃ t,
    exec (.mgmt src dst k) s = .next t ∧ t.hub.mgmtSeen = s.hub.mgmtSeen ++ [(src, dst, k)])

/-- NOP, LI, ALU, ALUI and the status and control registers. A scalar instruction that executes writes its destination
in its own slot, sets its token and goes to the next index; nothing else of the module changes: s0 stays 0, the
ALU works modulo 2^64, CLRSTAT clears the flags named, WRCTL writes the bits named, SYSRD gives the part, the
extents and the loop counts. Completes, under hypotheses on the state and the operands alone (exec answers a next
state): nop, li, alu, alui, rdstat, clrstat, rdctl, wrctl, sysrd. Conventions of the model it rests on (its own
choices, no rules of the spec): log 1, 7, 21. (R144, R152, R157, R158, R161) -/
def Obligations.ScalarInstructions : Prop :=
  (∀ (s : State) (pos slot : Nat) (x : Slot) (w : BitVec 128), s.runs pos slot 0x00 x w →
    (x.taken w).step.pc < x.count → ∃ t, exec (.nop pos slot) s = .next t ∧
    t = (s.turned pos 0 slot).updSlot pos slot (fun _ => Slot.told (x.taken w).step w)) ∧
  (∀ (s : State) (pos slot : Nat) (x : Slot) (w : BitVec 128), s.runs pos slot 0x01 x w →
    ((x.taken w).setS (fld w 105 100) (BitVec.ofNat 64 (fld w 63 0))).step.pc < x.count → ∃ t,
    exec (.li pos slot) s = .next t ∧
    t = (s.turned pos 0 slot).updSlot pos slot (fun _ => Slot.told ((x.taken w).setS (fld w 105 100) (BitVec.ofNat
    64 (fld w 63 0))).step w)
    ) ∧
  (∀ (s : State) (pos slot : Nat) (x : Slot) (w : BitVec 128), s.runs pos slot 0x02 x w →
    ((x.taken w).setS (fld w 105 100) (aluFn (fld w 87 84) (x.sreg (fld w 99 94)) (x.sreg (fld w 93 88)))).step.pc
    < x.count →
    ∃ t, exec (.alu pos slot) s = .next t ∧
    t = (s.turned pos 0 slot).updSlot pos slot (fun _ => Slot.told ((x.taken w).setS (fld w 105 100) (aluFn (fld w
    87 84) (x.sreg (fld w 99 94)) (x.sreg (fld w 93 88)))).step w)
    ) ∧
  (∀ (s : State) (pos slot : Nat) (x : Slot) (w : BitVec 128), s.runs pos slot 0x03 x w →
    ((x.taken w).setS (fld w 105 100) (aluFn (fld w 87 84) (x.sreg (fld w 99 94)) (immWord 48 (fld w 47
    0)))).step.pc < x.count →
    ∃ t, exec (.alui pos slot) s = .next t ∧
    t = (s.turned pos 0 slot).updSlot pos slot (fun _ => Slot.told ((x.taken w).setS (fld w 105 100) (aluFn (fld w
    87 84) (x.sreg (fld w 99 94)) (immWord 48 (fld w 47 0)))).step w)
    ) ∧
  (∀ (s : State) (pos slot : Nat) (x : Slot) (w : BitVec 128), s.runs pos slot 0x0A x w →
    ((x.taken w).setS (fld w 105 100) (x.tstat)).step.pc < x.count → ∃ t, exec (.rdstat pos slot) s = .next t ∧
    t = (s.turned pos 0 slot).updSlot pos slot (fun _ => Slot.told ((x.taken w).setS (fld w 105 100)
    (x.tstat)).step w)
    ) ∧
  (∀ (s : State) (pos slot : Nat) (x : Slot) (w : BitVec 128), s.runs pos slot 0x0B x w →
    ({ x.taken w with tstat := x.tstat &&& ~~~(BitVec.ofNat 64 (fld w 3 0)) }).step.pc < x.count → ∃ t,
    exec (.clrstat pos slot) s = .next t ∧
    t = (s.turned pos 0 slot).updSlot pos slot (fun _ => Slot.told
    ({ x.taken w with tstat := x.tstat &&& ~~~(BitVec.ofNat 64 (fld w 3 0)) }).step w)
    ) ∧
  (∀ (s : State) (pos slot : Nat) (x : Slot) (w : BitVec 128), s.runs pos slot 0x0C x w →
    ((x.taken w).setS (fld w 105 100) (x.tctl)).step.pc < x.count → ∃ t, exec (.rdctl pos slot) s = .next t ∧
    t = (s.turned pos 0 slot).updSlot pos slot (fun _ => Slot.told ((x.taken w).setS (fld w 105 100)
    (x.tctl)).step w)
    ) ∧
  (∀ (s : State) (pos slot : Nat) (x : Slot) (w : BitVec 128), s.runs pos slot 0x0D x w →
    ({ x.taken w with
        tctl := (x.tctl &&& ~~~(BitVec.ofNat 64 (fld w 1 0))) ||| (x.sreg (fld w 99 94) &&& BitVec.ofNat 64 (fld w 1 0)) }).step.pc
    < x.count →
    ∃ t, exec (.wrctl pos slot) s = .next t ∧
    t = (s.turned pos 0 slot).updSlot pos slot (fun _ => Slot.told
    ({ x.taken w with
        tctl := (x.tctl &&& ~~~(BitVec.ofNat 64 (fld w 1 0))) ||| (x.sreg (fld w 99 94) &&& BitVec.ofNat 64 (fld w 1 0)) }).step
    w)
    ) ∧
  (∀ (s : State) (pos slot : Nat) (x : Slot) (w : BitVec 128) (v : Nat), s.runs pos slot 0x0E x w →
    sysrdVal x (fld w 7 0) = some v → ((x.taken w).setS (fld w 105 100) (BitVec.ofNat 64 v)).step.pc < x.count →
    ∃ t, exec (.sysrd pos slot) s = .next t ∧
    t = (s.turned pos 0 slot).updSlot pos slot (fun _ => Slot.told ((x.taken w).setS (fld w 105 100) (BitVec.ofNat
    64 v)).step w)
    )

/-- Branches, loops, layouts, fences, hints and EXIT. A taken BR or a JMP goes to its target and leaves the loops that
do not hold it, a BR not taken goes on, LOOP enters its body or skips it, LSET, LADD and LCPY write layout
registers, a FENCE holds until its queues are empty, a HINT informs the power controller only, EXIT ends issue.
Completes, under hypotheses on the state and the operands alone (exec answers a next state): br, jmp, loop, lset,
ladd, lcpy, fence, hint, exit. Conventions of the model it rests on (its own choices, no rules of the spec): log
1, 7, 21. (R157, R159, R160, R163, R165, R211, R212, R213) -/
def Obligations.ControlInstructions : Prop :=
  (∀ (s : State) (pos slot : Nat) (x : Slot) (w : BitVec 128), s.runs pos slot 0x04 x w →
    brCond (fld w 105 103) (x.sreg (fld w 99 94)) (x.sreg (fld w 93 88)) = some true →
    0 ≤ ((x.pc : Int) + sext 24 (fld w 23 0)) → ((x.pc : Int) + sext 24 (fld w 23 0)) < (x.count : Int) → ∃ t,
    exec (.br pos slot) s = .next t ∧
    t = (s.turned pos 0 slot).updSlot pos slot (fun _ => Slot.told
    { leaveLoops (((x.pc : Int) + sext 24 (fld w 23 0))).toNat x.nest (x.taken w) with
        pc := (((x.pc : Int) + sext 24 (fld w 23 0))).toNat }
    w)
    ) ∧
  (∀ (s : State) (pos slot : Nat) (x : Slot) (w : BitVec 128), s.runs pos slot 0x04 x w →
    brCond (fld w 105 103) (x.sreg (fld w 99 94)) (x.sreg (fld w 93 88)) = some false →
    (x.taken w).step.pc < x.count → ∃ t, exec (.br pos slot) s = .next t ∧
    t = (s.turned pos 0 slot).updSlot pos slot (fun _ => Slot.told (x.taken w).step w)) ∧
  (∀ (s : State) (pos slot : Nat) (x : Slot) (w : BitVec 128), s.runs pos slot 0x05 x w → fld w 105 105 = 0 →
    0 ≤ (fld w 13 0 : Int) → (fld w 13 0 : Int) < (x.count : Int) → ∃ t, exec (.jmp pos slot) s = .next t ∧
    t = (s.turned pos 0 slot).updSlot pos slot (fun _ => Slot.told
    { leaveLoops ((fld w 13 0 : Int)).toNat x.nest (x.taken w) with pc := ((fld w 13 0 : Int)).toNat } w)
    ) ∧
  (∀ (s : State) (pos slot : Nat) (x : Slot) (w : BitVec 128) (n : Nat), s.runs pos slot 0x06 x w →
    n = (if fld w 103 103 = 1 then fld (x.sreg (fld w 99 94)) 31 0 else fld w 31 0) → 0 < n → 0 < fld w 87 74 →
    x.pc + fld w 87 74 < x.count → (look {} x.loops (fld w 105 104)).active = false → x.nest = [] → ∃ t,
    exec (.loop pos slot) s = .next t ∧
    t = (s.turned pos 0 slot).updSlot pos slot (fun _ => Slot.told
    { x.taken w with
        loops := put {} x.loops (fld w 105 104) ⟨x.pc + 1, x.pc + fld w 87 74, n, true⟩, nest := [fld w 105 104],
        pc := x.pc + 1 }
    w)
    ) ∧
  (∀ (s : State) (pos slot : Nat) (x : Slot) (w : BitVec 128) (hl : Nat × Nat), s.runs pos slot 0x07 x w →
    fld w 101 98 ≠ 0xA → laySel (fld w 101 98) = some hl →
    ((x.taken w).setL (fld w 105 102) (layPut (x.lreg (fld w 105 102)) hl.1 hl.2 (if fld w 97 97 = 1 then (x.sreg
    (fld w 93 88)).toNat else fld w 63 0))).step.pc < x.count →
    ∃ t, exec (.lset pos slot) s = .next t ∧
    t = (s.turned pos 0 slot).updSlot pos slot (fun _ => Slot.told ((x.taken w).setL (fld w 105 102) (layPut
    (x.lreg (fld w 105 102)) hl.1 hl.2 (if fld w 97 97 = 1 then (x.sreg (fld w 93 88)).toNat else fld w 63
    0))).step w)
    ) ∧
  (∀ (s : State) (pos slot : Nat) (x : Slot) (w : BitVec 128), s.runs pos slot 0x08 x w → fld w 101 101 = 0 →
    ((x.taken w).setL (fld w 105 102) (layPut (x.lreg (fld w 105 102)) 63 0 (BitVec.ofNat 64 (fld (x.lreg (fld w
    105 102)) 63 0) + (x.sreg (fld w 99 94) + immWord 48 (fld w 47 0))).toNat)).step.pc < x.count →
    ∃ t, exec (.ladd pos slot) s = .next t ∧
    t = (s.turned pos 0 slot).updSlot pos slot (fun _ => Slot.told ((x.taken w).setL (fld w 105 102) (layPut
    (x.lreg (fld w 105 102)) 63 0 (BitVec.ofNat 64 (fld (x.lreg (fld w 105 102)) 63 0) + (x.sreg (fld w 99 94) +
    immWord 48 (fld w 47 0))).toNat)).step w)
    ) ∧
  (∀ (s : State) (pos slot : Nat) (x : Slot) (w : BitVec 128), s.runs pos slot 0x09 x w →
    ((x.taken w).setL (fld w 105 102) (x.lreg (fld w 101 98))).step.pc < x.count → ∃ t,
    exec (.lcpy pos slot) s = .next t ∧
    t = (s.turned pos 0 slot).updSlot pos slot (fun _ => Slot.told ((x.taken w).setL (fld w 105 102) (x.lreg (fld
    w 101 98))).step w)
    ) ∧
  (∀ (s : State) (pos slot : Nat) (x : Slot) (w : BitVec 128), s.runs pos slot 0x0F x w → fld w 105 102 ≠ 0 →
    x.qm = [] → x.qv = [] → x.qx = [] → x.qs = [] → (x.taken w).step.pc < x.count → ∃ t,
    exec (.fence pos slot) s = .next t ∧
    t = (s.turned pos 0 slot).updSlot pos slot (fun _ => Slot.told (x.taken w).step w)) ∧
  (∀ (s : State) (pos slot : Nat) (x : Slot) (w : BitVec 128) (n : Nat), s.runs pos slot 0x10 x w →
    fld w 103 94 ≤ 1000 → s.tileAt pos = some n → (x.taken w).step.pc < x.count → ∃ t,
    exec (.hint pos slot) s = .next t ∧
    t = (addHint n (fld w 105 104) (fld w 103 94) (s.turned pos 0 slot)).updSlot pos slot (fun _ => Slot.told
    (x.taken w).step w)
    ) ∧
  (∀ (s : State) (pos slot : Nat) (x : Slot) (w : BitVec 128), s.runs pos slot 0x11 x w → ∃ t,
    exec (.exit pos slot) s = .next t ∧
    t = (s.turned pos 0 slot).updSlot pos slot (fun _ => Slot.told ({ x.taken w with phase := .exiting }).step w))

/-- MMA, MDRAIN and the vector instructions at issue. A matrix or vector instruction whose checks pass enters its
queue, in order, with the scalars and layouts it names as they are at issue; a converting one takes the next
ordinal; its slot goes to the next index and nothing else of the module changes. Completes, under hypotheses on
the state and the operands alone (exec answers a next state): mma, mdrain, vld, vst, vop, vops, vcmp, vmask, vred,
vsfu, vcvt. Conventions of the model it rests on (its own choices, no rules of the spec): log 1, 20, 21. (R73,
R74, R146, R167, R174, R188, R645) -/
def Obligations.MatrixAndVectorIssue : Prop :=
  (∀ (s : State) (pos slot : Nat) (x : Slot) (w : BitVec 128), s.queues pos slot 0x20 .matrix mmaCheck x w →
    (x.queued .matrix w (mmaCap x w) ((if fld w 49 49 = 1 then x.ord + 1 else x.ord))).pc < x.count → ∃ t,
    exec (.mma pos slot) s = .next t ∧
    t = (s.turned pos 0 slot).updSlot pos slot (fun _ => x.queued .matrix w (mmaCap x w) ((if fld w 49 49 = 1 then
    x.ord + 1 else x.ord)))
    ) ∧
  (∀ (s : State) (pos slot : Nat) (x : Slot) (w : BitVec 128), s.queues pos slot 0x21 .matrix drainCheck x w →
    (x.queued .matrix w (drainCap x w) (x.ord + 1)).pc < x.count → ∃ t, exec (.mdrain pos slot) s = .next t ∧
    t = (s.turned pos 0 slot).updSlot pos slot (fun _ => x.queued .matrix w (drainCap x w) (x.ord + 1))) ∧
  (∀ (s : State) (pos slot : Nat) (x : Slot) (w : BitVec 128), s.queues pos slot 0x40 .vector vecCheck x w →
    (x.queued .vector w (vecCap x w) (x.ord + 1)).pc < x.count → ∃ t, exec (.vld pos slot) s = .next t ∧
    t = (s.turned pos 0 slot).updSlot pos slot (fun _ => x.queued .vector w (vecCap x w) (x.ord + 1))) ∧
  (∀ (s : State) (pos slot : Nat) (x : Slot) (w : BitVec 128), s.queues pos slot 0x41 .vector vecCheck x w →
    (x.queued .vector w (vecCap x w) (x.ord + 1)).pc < x.count → ∃ t, exec (.vst pos slot) s = .next t ∧
    t = (s.turned pos 0 slot).updSlot pos slot (fun _ => x.queued .vector w (vecCap x w) (x.ord + 1))) ∧
  (∀ (s : State) (pos slot : Nat) (x : Slot) (w : BitVec 128), s.queues pos slot 0x42 .vector vecCheck x w →
    (x.queued .vector w (vecCap x w) (x.ord)).pc < x.count → ∃ t, exec (.vop pos slot) s = .next t ∧
    t = (s.turned pos 0 slot).updSlot pos slot (fun _ => x.queued .vector w (vecCap x w) (x.ord))) ∧
  (∀ (s : State) (pos slot : Nat) (x : Slot) (w : BitVec 128), s.queues pos slot 0x43 .vector vecCheck x w →
    (x.queued .vector w (vecCap x w) (x.ord)).pc < x.count → ∃ t, exec (.vops pos slot) s = .next t ∧
    t = (s.turned pos 0 slot).updSlot pos slot (fun _ => x.queued .vector w (vecCap x w) (x.ord))) ∧
  (∀ (s : State) (pos slot : Nat) (x : Slot) (w : BitVec 128), s.queues pos slot 0x44 .vector vecCheck x w →
    (x.queued .vector w (vecCap x w) (x.ord)).pc < x.count → ∃ t, exec (.vcmp pos slot) s = .next t ∧
    t = (s.turned pos 0 slot).updSlot pos slot (fun _ => x.queued .vector w (vecCap x w) (x.ord))) ∧
  (∀ (s : State) (pos slot : Nat) (x : Slot) (w : BitVec 128), s.queues pos slot 0x45 .vector vecCheck x w →
    (x.queued .vector w (vecCap x w) (x.ord)).pc < x.count → ∃ t, exec (.vmask pos slot) s = .next t ∧
    t = (s.turned pos 0 slot).updSlot pos slot (fun _ => x.queued .vector w (vecCap x w) (x.ord))) ∧
  (∀ (s : State) (pos slot : Nat) (x : Slot) (w : BitVec 128), s.queues pos slot 0x46 .vector vecCheck x w →
    (x.queued .vector w (vecCap x w) (x.ord)).pc < x.count → ∃ t, exec (.vred pos slot) s = .next t ∧
    t = (s.turned pos 0 slot).updSlot pos slot (fun _ => x.queued .vector w (vecCap x w) (x.ord))) ∧
  (∀ (s : State) (pos slot : Nat) (x : Slot) (w : BitVec 128), s.queues pos slot 0x47 .vector vecCheck x w →
    (x.queued .vector w (vecCap x w) (x.ord)).pc < x.count → ∃ t, exec (.vsfu pos slot) s = .next t ∧
    t = (s.turned pos 0 slot).updSlot pos slot (fun _ => x.queued .vector w (vecCap x w) (x.ord))) ∧
  (∀ (s : State) (pos slot : Nat) (x : Slot) (w : BitVec 128), s.queues pos slot 0x48 .vector vecCheck x w →
    (x.queued .vector w (vecCap x w) (x.ord + 1)).pc < x.count → ∃ t, exec (.vcvt pos slot) s = .next t ∧
    t = (s.turned pos 0 slot).updSlot pos slot (fun _ => x.queued .vector w (vecCap x w) (x.ord + 1)))

/-- Moves and sync instructions enter their queues. A move instruction whose checks pass (formats, spaces, alignment,
shapes, the window, the declared regions of a STORE or PUT) enters the move queue with the scalars and layouts it
names as they are at issue; its slot goes to the next index and nothing else of the module changes. A
synchronisation instruction whose checks pass (its operation, an object that its context owns, a count that is not
0) enters the sync queue with the object and the value as they are at issue; its slot goes to the next index and
nothing else of the module changes. Completes, under hypotheses on the state and the operands alone (exec answers
a next state): load, store, gather, scatteradd, xpref, put, get, signal, rsignal, wait, tokset, tokwait.
Conventions of the model it rests on (its own choices, no rules of the spec): log 1, 21, 22. (R189, R191, R192,
R196, R198, R200, R206, R207, R210, R222) -/
def Obligations.MoveAndSyncIssue : Prop :=
  (∀ (s : State) (pos slot : Nat) (x : Slot) (w : BitVec 128), s.queues pos slot 0x80 .move (moveCheck s) x w →
    (x.queued .move w (moveCap x w) (x.ord + 1)).pc < x.count → ∃ t, exec (.load pos slot) s = .next t ∧
    t = (s.turned pos 0 slot).updSlot pos slot (fun _ => x.queued .move w (moveCap x w) (x.ord + 1))) ∧
  (∀ (s : State) (pos slot : Nat) (x : Slot) (w : BitVec 128), s.queues pos slot 0x81 .move (moveCheck s) x w →
    (x.queued .move w (moveCap x w) (x.ord + 1)).pc < x.count → ∃ t, exec (.store pos slot) s = .next t ∧
    t = (s.turned pos 0 slot).updSlot pos slot (fun _ => x.queued .move w (moveCap x w) (x.ord + 1))) ∧
  (∀ (s : State) (pos slot : Nat) (x : Slot) (w : BitVec 128), s.queues pos slot 0x82 .move (moveCheck s) x w →
    (x.queued .move w (moveCap x w) ((if fld w 86 85 = 1 then x.ord + 1 else x.ord))).pc < x.count → ∃ t,
    exec (.gather pos slot) s = .next t ∧
    t = (s.turned pos 0 slot).updSlot pos slot (fun _ => x.queued .move w (moveCap x w) ((if fld w 86 85 = 1 then
    x.ord + 1 else x.ord)))
    ) ∧
  (∀ (s : State) (pos slot : Nat) (x : Slot) (w : BitVec 128), s.queues pos slot 0x83 .move (moveCheck s) x w →
    (x.queued .move w (moveCap x w) (x.ord)).pc < x.count → ∃ t, exec (.scatteradd pos slot) s = .next t ∧
    t = (s.turned pos 0 slot).updSlot pos slot (fun _ => x.queued .move w (moveCap x w) (x.ord))) ∧
  (∀ (s : State) (pos slot : Nat) (x : Slot) (w : BitVec 128), s.queues pos slot 0x84 .move (moveCheck s) x w →
    (x.queued .move w (moveCap x w) (x.ord)).pc < x.count → ∃ t, exec (.xpref pos slot) s = .next t ∧
    t = (s.turned pos 0 slot).updSlot pos slot (fun _ => x.queued .move w (moveCap x w) (x.ord))) ∧
  (∀ (s : State) (pos slot : Nat) (x : Slot) (w : BitVec 128), s.queues pos slot 0x85 .move (moveCheck s) x w →
    (x.queued .move w (moveCap x w) (x.ord)).pc < x.count → ∃ t, exec (.put pos slot) s = .next t ∧
    t = (s.turned pos 0 slot).updSlot pos slot (fun _ => x.queued .move w (moveCap x w) (x.ord))) ∧
  (∀ (s : State) (pos slot : Nat) (x : Slot) (w : BitVec 128), s.queues pos slot 0x86 .move (moveCheck s) x w →
    (x.queued .move w (moveCap x w) (x.ord)).pc < x.count → ∃ t, exec (.get pos slot) s = .next t ∧
    t = (s.turned pos 0 slot).updSlot pos slot (fun _ => x.queued .move w (moveCap x w) (x.ord))) ∧
  (∀ (s : State) (pos slot : Nat) (x : Slot) (w : BitVec 128), s.queues pos slot 0xA0 .sync (syncCheck s) x w →
    (x.queued .sync w (syncCap x w) (x.ord)).pc < x.count → ∃ t, exec (.signal pos slot) s = .next t ∧
    t = (s.turned pos 0 slot).updSlot pos slot (fun _ => x.queued .sync w (syncCap x w) (x.ord))) ∧
  (∀ (s : State) (pos slot : Nat) (x : Slot) (w : BitVec 128), s.queues pos slot 0xA1 .sync (syncCheck s) x w →
    (x.queued .sync w (syncCap x w) (x.ord)).pc < x.count → ∃ t, exec (.rsignal pos slot) s = .next t ∧
    t = (s.turned pos 0 slot).updSlot pos slot (fun _ => x.queued .sync w (syncCap x w) (x.ord))) ∧
  (∀ (s : State) (pos slot : Nat) (x : Slot) (w : BitVec 128), s.queues pos slot 0xA2 .sync (syncCheck s) x w →
    (x.queued .sync w (syncCap x w) (x.ord)).pc < x.count → ∃ t, exec (.wait pos slot) s = .next t ∧
    t = (s.turned pos 0 slot).updSlot pos slot (fun _ => x.queued .sync w (syncCap x w) (x.ord))) ∧
  (∀ (s : State) (pos slot : Nat) (x : Slot) (w : BitVec 128), s.queues pos slot 0xA3 .sync tokCheck x w →
    (x.queued .sync w ((fun _ _ => ([], [])) x w) (x.ord)).pc < x.count → ∃ t, exec (.tokset pos slot) s = .next t ∧
    t = (s.turned pos 0 slot).updSlot pos slot (fun _ => x.queued .sync w ((fun _ _ => ([], [])) x w) (x.ord))) ∧
  (∀ (s : State) (pos slot : Nat) (x : Slot) (w : BitVec 128), s.queues pos slot 0xA4 .sync tokCheck x w →
    (x.queued .sync w ((fun _ _ => ([], [])) x w) (x.ord)).pc < x.count → ∃ t,
    exec (.tokwait pos slot) s = .next t ∧
    t = (s.turned pos 0 slot).updSlot pos slot (fun _ => x.queued .sync w ((fun _ _ => ([], [])) x w) (x.ord)))

/-- The ends of matrix, vector and move instructions. A started instruction at its end leaves its queue, adds its
flags to the status of its slot, and has its results in the accumulators, the registers or the tile store; memory
is as it was. Completes, under hypotheses on the state and the operands alone (exec answers a next state):
matrixInstrComplete, vectorInstrComplete, inboundMoveComplete, outboundMoveComplete, xprefComplete. Conventions of
the model it rests on (its own choices, no rules of the spec): log 1, 20, 22. (R76, R86, R139, R168, R191, R197) -/
def Obligations.QueuedInstructionsEnd : Prop :=
  (∀ (s : State) (pos slot id : Nat) (x : Slot) (q : QInstr), s.slotOf pos slot = some x →
    x.qm.find? (fun i => i.id == id) = some q → q.started = true → wOpc q.word = 0x20 →
    (∀ i ∈ x.qm.takeWhile (fun i => i.id != id), ∀ a ∈ i.arrays x, a ∉ q.arrays x) → s.arraysHeld = false →
    ((wSE q.word = true → look 0 x.tok (wST q.word) < 15)) → ∃ t,
    exec (.matrixInstrComplete pos slot id) s = .next t ∧ (t.slotOf pos slot).map (fun y => (y.qm,
    y.tstat)) = some (x.qm.filter (fun i => i.id != q.id), x.tstat ||| (mmaRun pos slot x q s).2.setWidth 64) ∧
    (t.tileOf pos).acc = ((mmaRun pos slot x q s).1.tileOf pos).acc ∧
    (t.tileOf pos).store = ((mmaRun pos slot x q s).1.tileOf pos).store ∧ t.mem = s.mem) ∧
  (∀ (s : State) (pos slot id : Nat) (x : Slot) (q : QInstr), s.slotOf pos slot = some x →
    x.qm.find? (fun i => i.id == id) = some q → q.started = true → wOpc q.word = 0x21 →
    (∀ i ∈ x.qm.takeWhile (fun i => i.id != id), ∀ a ∈ i.arrays x, a ∉ q.arrays x) → s.arraysHeld = false →
    ((wSE q.word = true → look 0 x.tok (wST q.word) < 15)) → ∃ t,
    exec (.matrixInstrComplete pos slot id) s = .next t ∧ (t.slotOf pos slot).map (fun y => (y.qm,
    y.tstat)) = some (x.qm.filter (fun i => i.id != q.id), x.tstat ||| (drainRun pos x q s).2.setWidth 64) ∧
    (t.tileOf pos).acc = ((drainRun pos x q s).1.tileOf pos).acc ∧
    (t.tileOf pos).store = ((drainRun pos x q s).1.tileOf pos).store ∧ t.mem = s.mem) ∧
  (∀ (s : State) (pos slot : Nat) (x : Slot) (q : QInstr), s.slotOf pos slot = some x →
    x.qv.find? QInstr.started = some q → wOpc q.word = 0x42 → ((wSE q.word = true →
    look 0 x.tok (wST q.word) < 15)) → ∃ t, exec (.vectorInstrComplete pos slot) s = .next t ∧
    (t.slotOf pos slot).map (fun y => (y.qv, y.v, y.vpois)) = some (x.qv.filter (fun i => i.id != q.id),
    (vopRun (VecOp.of q.word) (ftzOf q.tctl) none x).1.v,
    (vopRun (VecOp.of q.word) (ftzOf q.tctl) none x).1.vpois) ∧ t.mem = s.mem) ∧
  (∀ (s : State) (pos slot : Nat) (x : Slot) (q : QInstr), s.slotOf pos slot = some x →
    x.qv.find? QInstr.started = some q → wOpc q.word = 0x45 → ((wSE q.word = true →
    look 0 x.tok (wST q.word) < 15)) → ∃ t, exec (.vectorInstrComplete pos slot) s = .next t ∧
    (t.slotOf pos slot).map (fun y => (y.qv, y.v, y.m)) = some (x.qv.filter (fun i => i.id != q.id), x.v,
    (vmaskRun (VecOp.of q.word) ((q.sregs[0]?).getD 0#64).toNat x).m)) ∧
  (∀ (s : State) (pos slot id : Nat) (x : Slot) (q : QInstr), s.moveOf pos slot id = some (x, q) →
    (wOpc q.word = 0x80 ∨ wOpc q.word = 0x86) → q.allDone = true → ((wSE q.word = true →
    look 0 x.tok (wST q.word) < 15)) → ∃ t, exec (.inboundMoveComplete pos slot id) s = .next t ∧
    (t.slotOf pos slot).map (fun y => (y.qx, y.tstat)) = some (x.qx.filter (fun i => i.id != q.id),
    x.tstat ||| (loadWrite pos x q s).2.setWidth 64) ∧
    (t.tileOf pos).store = ((loadWrite pos x q s).1.tileOf pos).store ∧ t.mem = s.mem) ∧
  (∀ (s : State) (pos slot id : Nat) (x : Slot) (q : QInstr), s.moveOf pos slot id = some (x, q) →
    wOpc q.word = 0x82 → q.allDone = true → ((wSE q.word = true → look 0 x.tok (wST q.word) < 15)) → q.stage = 1 →
    ∃ t, exec (.inboundMoveComplete pos slot id) s = .next t ∧ (t.slotOf pos slot).map (fun y => (y.qx,
    y.tstat)) = some (x.qx.filter (fun i => i.id != q.id), x.tstat ||| (gatherWrite pos x q s).2.setWidth 64) ∧
    (t.tileOf pos).store = ((gatherWrite pos x q s).1.tileOf pos).store ∧ t.mem = s.mem) ∧
  (∀ (s : State) (pos slot id : Nat) (x : Slot) (q : QInstr), s.moveOf pos slot id = some (x, q) →
    moveWrites (wOpc q.word) = true → q.allDone = true → ((wSE q.word = true → look 0 x.tok (wST q.word) < 15)) →
    ∃ t, exec (.outboundMoveComplete pos slot id) s = .next t ∧ (t.slotOf pos slot).map (fun y => (y.qx,
    y.tstat)) = some (x.qx.filter (fun i => i.id != q.id), x.tstat ||| q.flags.setWidth 64) ∧
    (t.tileOf pos).store = (s.tileOf pos).store ∧ t.mem = s.mem) ∧
  (∀ (s : State) (pos slot id : Nat) (x : Slot) (q : QInstr), s.moveOf pos slot id = some (x, q) →
    wOpc q.word = 0x84 → q.allDone = true → ((wSE q.word = true → look 0 x.tok (wST q.word) < 15)) → ∃ t,
    exec (.xprefComplete pos slot id) s = .next t ∧ (t.slotOf pos slot).map (fun y => (y.qx,
    y.tstat)) = some (x.qx.filter (fun i => i.id != q.id), x.tstat) ∧ (t.tileOf pos).store = (s.tileOf pos).store ∧
    t.mem = s.mem)

/-- Heads of queues, RSIGNAL_SEND, SYNC_INSTR_COMPLETE and GATHER_LIST_READ. The head of a queue starts when its
engine is free and its token has a unit, which it takes; a SIGNAL then sends its operation to the hub, an RSIGNAL
once the writes it covers are acknowledged; a sync instruction answered leaves its queue, a TOKWAIT with its
units; a GATHER whose lists pass takes its row pieces. Completes, under hypotheses on the state and the operands
alone (exec answers a next state): queueInstrStart, rsignalSend, syncInstrComplete, gatherListRead. Conventions of
the model it rests on (its own choices, no rules of the spec): log 1, 7, 22. (R75, R77, R196, R207, R208, R209,
R210) -/
def Obligations.QueueHeadsAndSyncInstructions : Prop :=
  (∀ (s : State) (pos slot : Nat) (x y : Slot) (i : QInstr), s.slotOf pos slot = some x →
    x.qv.find? (fun j => !j.started) = some i → s.headMay pos slot x .vector i = true →
    s.startTurn pos slot .vector i = true → y = (if wWE i.word then x.take 1 (wWT i.word) 1 else x) → ∃ t,
    exec (.queueInstrStart pos slot .vector) s = .next t ∧
    t = (s.startTurned pos slot .vector i).updSlot pos slot (fun _ =>
    { y with qv := x.qv.map (fun j => if j.id == i.id then { j with started := true } else j) })
    ) ∧
  (∀ (s : State) (pos slot : Nat) (x : Slot) (i : QInstr), s.slotOf pos slot = some x →
    x.qs.find? (fun j => !j.started) = some i → wOpc i.word = 0xA0 → s.siteLive pos = true →
    s.queueFree pos slot x .sync = true → wWE i.word = false → s.mayIssue pos → ∃ t,
    exec (.queueInstrStart pos slot .sync) s = .next t ∧ t.hub.outst = s.hub.outst ++ [⟨pos,
    look 0 s.hub.nextTid pos, 63, .syncOp, ((i.sregs[0]?).getD 0#64).toNat, 0, .tsync pos slot i.id, 1, false⟩] ∧
    t.mem = s.mem) ∧
  (∀ (s : State) (pos slot : Nat) (x : Slot) (q : QInstr), s.slotOf pos slot = some x →
    x.qs.find? (fun q => q.started && wOpc q.word == 0xA1 && q.stage == 0) = some q → (∀ m ∈ x.qx, m.id ∈ q.idx →
    m.allDone = true) → s.mayIssue pos → ∃ t, exec (.rsignalSend pos slot) s = .next t ∧
    t.hub.outst = s.hub.outst ++ [⟨pos, look 0 s.hub.nextTid pos, 63, .syncOp, ((q.sregs[0]?).getD 0#64).toNat, 0,
    .tsync pos slot q.id, 1, false⟩]) ∧
  (∀ (s : State) (pos slot id : Nat) (x : Slot) (q : QInstr), s.slotOf pos slot = some x →
    x.find .sync id = some q → q.started = true → wOpc q.word ≠ 0xA4 → q.waitAns = 1 → ((wSE q.word = true →
    look 0 x.tok (wST q.word) < 15)) → ∃ t, exec (.syncInstrComplete pos slot id) s = .next t ∧
    (t.slotOf pos slot).map (fun y => (y.qs, y.tstat)) = some (x.qs.filter (fun i => i.id != q.id), x.tstat)) ∧
  (∀ (s : State) (pos slot id : Nat) (x : Slot) (q : QInstr), s.slotOf pos slot = some x →
    x.find .sync id = some q → q.started = true → wOpc q.word = 0xA4 → wSE q.word = false →
    s.mayTake pos slot x 3 (fld q.word 105 100) = true → ∃ t, exec (.syncInstrComplete pos slot id) s = .next t ∧
    (t.slotOf pos slot).map (fun y => (y.qs, y.tok)) = some (x.qs.filter (fun i => i.id != q.id),
    upd 0 x.tok (fld q.word 105 100) (fun v => v - fld q.word 99 96))) ∧
  (∀ (s : State) (pos slot id : Nat) (x : Slot) (q : QInstr) (idx : List Nat), s.moveOf pos slot id = some (x, q) →
    wOpc q.word = 0x82 → q.stage = 0 → q.move.mode = 0 →
    idx = listWords (s.tileByte pos x.winBase) q.move.ri q.move.lt.rows → (∀ i ∈ idx,
    i = 0xFFFFFFFF ∨ i < q.move.ls.rows) → ∃ t, exec (.gatherListRead pos slot id) s = .next t ∧
    t = moverGo pos slot id (updQ pos slot .move id (fun y =>
    { y with stage := 1, idx := idx, pieces := gatherPieces q.move idx }) (verifyTile pos slot 1 x.winBase
    [(q.move.ri,
    4 * q.move.lt.rows)] s)))

/-- The life of a slot: work item, zeroing, load, end. A work item takes its slot to the read of the header, or to the
zeroing of what another context used last; a valid header is kept, an image whose instructions pass the scan is
loaded and its parts start together; after EXIT an idle slot ends its part. Completes, under hypotheses on the
state and the operands alone (exec answers a next state): dispatch, zeroingDone, programHeaderRead, programLoaded,
slotEnd. Conventions of the model it rests on (its own choices, no rules of the spec): log 1, 29, 30. (R103, R147,
R148, R149, R153, R213, R214) -/
def Obligations.LifeOfASlot : Prop :=
  (∀ (s : State) (pos ring seq part k : Nat) (x : Slot), s.comes (workItem pos ring seq part) →
    s.partSlot pos ring seq part = some k → s.slotOf pos k = some x → x.phase = .placed → ∃ t,
    exec (.dispatch pos ring seq part) s = .next t ∧
    (t.slotOf pos k).map Slot.phase = some (if slotClean (s.tileOf pos) x then .header else .zeroing)) ∧
  (∀ (s : State) (pos slot : Nat) (x : Slot), s.slotOf pos slot = some x → x.phase = .zeroing → ∃ t,
    exec (.zeroingDone pos slot) s = .next t ∧ (t.slotOf pos slot).map Slot.phase = some .header ∧
    (t.tileOf pos).store = (zeroFor x (s.tileOf pos)).store ∧ (t.tileOf pos).acc = (zeroFor x (s.tileOf pos)).acc) ∧
  (∀ (s s1 : State) (pos slot : Nat) (x : Slot) (c : Cmd) (hdr b : List Byte), s.slotOf pos slot = some x →
    x.phase = .header → s.cmdOf x.ring x.seq = some c →
    fetchRange (.tile pos) x.ctx x.ring x.seq (c.fld 16 8 % 2 ^ 55) 64 hdr s = (some b, s1) →
    (Header.of b).reserved = false → (Header.of b).ok = true → (Header.of b).missing s.glb.features = 0 → ∃ t,
    exec (.programHeaderRead pos slot hdr) s = .next t ∧
    t = s1.updSlot pos slot (fun y =>
    { y with
        phase := .loading, count := (Header.of b).count, feat := (Header.of b).features, entry := (Header.of b).entry })
    ) ∧
  (∀ (s s1 : State) (pos slot : Nat) (x : Slot) (c : Cmd) (ws : List (BitVec 128)) (b : List Byte),
    s.slotOf pos slot = some x → x.phase = .loading → s.cmdOf x.ring x.seq = some c →
    fetchRange (.tile pos) x.ctx x.ring x.seq (c.fld 16 8 % 2 ^ 55 + 64) (16 * x.count) (wordBytes ws) s = (some
    b,
    s1) → scanCode x.feat 0 (wordsOf x.count b) = none → ∃ t, exec (.programLoaded pos slot ws) s = .next t ∧
    t = startParts x.ring x.seq (s1.updSlot pos slot (fun y =>
    { y with phase := .loaded, code := wordsOf x.count b }))
    ) ∧
  (∀ (s : State) (pos slot : Nat) (x : Slot), s.slotOf pos slot = some x → x.phase = .exiting → x.qm = [] →
    x.qv = [] → x.qx = [] → x.qs = [] → ∃ t, exec (.slotEnd pos slot) s = .next t ∧
    t.disp.cmds = s.disp.cmds.map (fun c => if c.ring == x.ring && c.seq == x.seq then
    { c with
        parts := c.parts.map (fun p => if p.num == x.part then { p with ended := true } else p),
        flags := c.flags ||| x.tstat.setWidth 4 }
    else c) ∧
    t.mem = s.mem)

/-- The operations on a sync object. An ADD adds, a SET sets, a READ returns the value; each counts as an operation,
an ADD of a core's AMOADD.D is answered with the value before it, and every waiter that the new value satisfies is
released and no other; a WAIT that does not hold is kept as a waiter; an answer goes to the port that asked; a
function that owns no context of the object reads 0. Completes, under hypotheses on the state and the operands
alone (exec answers a next state): syncAdd, syncSet, syncWaitGe, syncWaitEq, syncRead, syncWake. Conventions of
the model it rests on (its own choices, no rules of the spec): log 1, 7. (R216, R217, R218, R219, R220, R222) -/
def Obligations.SyncOperations : Prop :=
  (∀ (s : State) (src tid obj : Nat) (v : Word), s.syncTakes (syncPkt src tid obj 0 v) → s.isAmo src tid = false →
    ∃ t, exec (.syncAdd src tid obj v) s = .next t ∧ (t.syncOf obj).val = (s.syncOf obj).val + v ∧
    (t.syncOf obj).waiters = (s.syncOf obj).waiters.filter (fun w => !w.holds ((s.syncOf obj).val + v)) ∧
    (t.syncOf obj).ops = satAdd 0xFFFFFFFF (s.syncOf obj).ops 1 ∧ (∃ p ∈ t.hub.voq, p.pkt = ⟨.respAck, 63, src, tid,
    obj, false, [], [], 0⟩)) ∧
  (∀ (s : State) (src tid obj : Nat) (v : Word), s.syncTakes (syncPkt src tid obj 0 v) → s.isAmo src tid = true →
    ∃ t, exec (.syncAdd src tid obj v) s = .next t ∧ (t.syncOf obj).val = (s.syncOf obj).val + v ∧ (∃ p ∈ t.hub.voq,
    p.pkt = ⟨.respData, 63, src, tid, obj, false, valPayload (s.syncOf obj).val, [], 0⟩)) ∧
  (∀ (s : State) (src tid obj : Nat) (v : Word), s.syncTakes (syncPkt src tid obj 1 v) → ∃ t,
    exec (.syncSet src tid obj v) s = .next t ∧ (t.syncOf obj).val = v ∧
    (t.syncOf obj).waiters = (s.syncOf obj).waiters.filter (fun w => !w.holds v) ∧ (∃ p ∈ t.hub.voq,
    p.pkt = ⟨.respAck, 63, src, tid, obj, false, [], [], 0⟩)) ∧
  (∀ (s : State) (src tid obj : Nat) (v : Word), s.syncTakes (syncPkt src tid obj 2 v) →
    v.toNat ≤ (s.syncOf obj).val.toNat → ∃ t, exec (.syncWaitGe src tid obj v) s = .next t ∧ (∃ p ∈ t.hub.voq,
    p.pkt = ⟨.syncWake, 63, src, tid, obj, false, valPayload (s.syncOf obj).val, [], 0⟩) ∧
    (t.syncOf obj).waiters = (s.syncOf obj).waiters) ∧
  (∀ (s : State) (src tid obj : Nat) (v : Word), s.syncTakes (syncPkt src tid obj 2 v) →
    (s.syncOf obj).val.toNat < v.toNat → ∃ t, exec (.syncWaitGe src tid obj v) s = .next t ∧
    (t.syncOf obj).waiters = (s.syncOf obj).waiters ++ [⟨.port src tid, false, v⟩] ∧
    (t.syncOf obj).val = (s.syncOf obj).val ∧ t.hub.voq.length ≤ s.hub.voq.length) ∧
  (∀ (s : State) (src tid obj : Nat) (v : Word), s.syncTakes (syncPkt src tid obj 3 v) → (s.syncOf obj).val ≠ v →
    ∃ t, exec (.syncWaitEq src tid obj v) s = .next t ∧
    (t.syncOf obj).waiters = (s.syncOf obj).waiters ++ [⟨.port src tid, true, v⟩] ∧
    (t.syncOf obj).val = (s.syncOf obj).val) ∧
  (∀ (s : State) (src tid obj : Nat) (v : Word), s.syncTakes (syncPkt src tid obj 3 v) → (s.syncOf obj).val = v →
    ∃ t, exec (.syncWaitEq src tid obj v) s = .next t ∧ (∃ p ∈ t.hub.voq, p.pkt = ⟨.syncWake, 63, src, tid, obj,
    false, valPayload v, [], 0⟩) ∧ (t.syncOf obj).waiters = (s.syncOf obj).waiters) ∧
  (∀ (s : State) (src tid obj fn : Nat), s.syncTakes (syncPkt src tid obj 4 0) → (src = 57 →
    s.mayObj (.host fn) obj = true) → ∃ t, exec (.syncRead src tid obj fn) s = .next t ∧ (∃ p ∈ t.hub.voq,
    p.pkt = ⟨.respData, 63, src, tid, obj, false, valPayload (s.syncOf obj).val, [], 0⟩) ∧
    (t.syncOf obj).val = (s.syncOf obj).val ∧ (t.syncOf obj).waiters = (s.syncOf obj).waiters) ∧
  (∀ (s : State) (tid obj fn : Nat), s.syncTakes (syncPkt 57 tid obj 4 0) → s.mayObj (.host fn) obj = false → ∃ t,
    exec (.syncRead 57 tid obj fn) s = .next t ∧ (∃ p ∈ t.hub.voq, p.pkt = ⟨.respData, 63, 57, tid, obj, false,
    valPayload 0, [], 0⟩) ∧ t.sync = s.sync) ∧
  (∀ (s : State) (dst tid pos slot id : Nat) (o : Outst) (v : Word) (x : Slot), s.comes ⟨.syncWake, 63, dst, tid,
    o.addr, false, valPayload v, [], 0⟩ → s.findOutst dst tid = some o → o.use = .tsync pos slot id →
    s.slotOf pos slot = some x → ∃ t, exec (.syncWake dst tid v) s = .next t ∧
    (t.slotOf pos slot).map Slot.qs = some (x.qs.map (fun q => if q.id == id then { q with waitAns := 1 } else q))
    ∧
    s.hub.outst.filter (fun y => !(y.src == dst && y.tid == tid)) <+: t.hub.outst)

/-- Registers of sync objects, and windows and counters of the Ranoa ports. A store to SYNC_VALUE performs SET, a
core's AMOADD.D performs ADD and is sent the value before it, but waits behind a CFENCE, any other access of a
core traps, SYNC_STAT returns the operation count and clears it; a counted arrival adds its amount to its object
once it is complete. A window becomes valid unless its entry is in use or its fields are not allowed, and drains
when it ends; the log and the error counters clear when read. Completes, under hypotheses on the state and the
operands alone (exec answers a next state): syncValueWrite, amoaddD, coreSyncBadAccess, syncStatRead,
rnaWoffValidSet, rnaWoffValidClear, ranoaWindowDrainDone, rnaLogRead, rnaPerrRead. Conventions of the model it
rests on (its own choices, no rules of the spec): log 1, 36, 37. (R222, R224, R226, R227, R501, R504, R517, R518,
R519) -/
def Obligations.SyncAndRanoaRegisters : Prop :=
  (∀ (s : State) (who : Agent) (obj : Nat) (v : Word), s.hostGate who = true → s.mayObj who obj = true →
    s.syncNow (whoPort who) obj 1 v .plain → ∃ t, exec (.syncValueWrite who obj v) s = .next t ∧
    (t.syncOf obj).val = v ∧ (t.syncOf obj).waiters = (s.syncOf obj).waiters.filter (fun w => !w.holds v)) ∧
  (∀ (s : State) (core obj : Nat) (v : Word), core < 128 → (s.coreOf core).fence = false →
    s.syncNow (53 + core / 32) obj 0 v (.amo core obj) →
    s.findOutst (53 + core / 32) (look 0 s.hub.nextTid (53 + core / 32)) = none → ∃ t,
    exec (.amoaddD core obj v) s = .next t ∧ (t.syncOf obj).val = (s.syncOf obj).val + v ∧
    (t.syncOf obj).waiters = (s.syncOf obj).waiters.filter (fun w => !w.holds ((s.syncOf obj).val + v)) ∧
    (∃ p ∈ t.hub.voq, p.pkt = ⟨.respData, 63, 53 + core / 32, look 0 s.hub.nextTid (53 + core / 32), obj, false,
    valPayload (s.syncOf obj).val, [], 0⟩)) ∧
  (∀ (s : State) (core obj : Nat) (v : Word), (s.coreOf core).fence = true → ∃ t,
    exec (.amoaddD core obj v) s = .next t ∧ t = s) ∧
  (∀ (s : State) (core a : Nat) (k : AccKind), ∃ t, exec (.coreSyncBadAccess core a k) s = .next t ∧
    (t.coreOf core).exc = some (accCause k, a) ∧ t.sync = s.sync) ∧
  (∀ (s : State) (who : Agent) (obj : Nat), s.hostGate who = true → s.mayObj who obj = true → ∃ t,
    exec (.syncStatRead who obj) s = .next t ∧ t.replies = s.replies ++ [⟨who, 0x1000010 + 0x40 * obj,
    s.syncStat obj, false⟩] ∧ t.sync = upd {} s.sync obj (fun x => { x with ops := 0 })) ∧
  (∀ (s : State) (who : Agent) (obj : Nat), s.hostGate who = true → s.mayObj who obj = false → ∃ t,
    exec (.syncStatRead who obj) s = .next t ∧ t.replies = s.replies ++ [⟨who, 0x1000010 + 0x40 * obj, 0, false⟩] ∧
    t.sync = s.sync) ∧
  (∀ (s : State) (who : Agent) (i : Nat) (v : Word), i < 2048 → s.hostGate who = true → isPf0OrCore who = true →
    (s.rwinAt i).valid = false →
    (s.setReg (rwin i) (v &&& 0x30000FFFFFFF0000#64)).rwinOk i ((s.setReg (rwin i) (v &&&
    0x30000FFFFFFF0000#64)).rwinAt i) = true →
    ∃ t, exec (.rnaWoffValidSet who i v) s = .next t ∧
    t.reg (rwin i) = ((v &&& 0x30000FFFFFFF0000#64) ||| 0x8000000000000000#64) ∧ t.hfifo = s.hfifo) ∧
  (∀ (s : State) (who : Agent) (i : Nat) (v : Word), i < 2048 → s.hostGate who = true → isPf0OrCore who = true →
    (s.rwinAt i).valid = false →
    (s.setReg (rwin i) (v &&& 0x30000FFFFFFF0000#64)).rwinOk i ((s.setReg (rwin i) (v &&&
    0x30000FFFFFFF0000#64)).rwinAt i) = false →
    ∃ t, exec (.rnaWoffValidSet who i v) s = .next t ∧
    t.regs = (s.setReg (rwin i) (v &&& 0x30000FFFFFFF0000#64)).regs ∧
    s.reports t (ev 0x80 none (whoArg who) [rwin i])) ∧
  (∀ (s : State) (who : Agent) (i : Nat), i < 2048 → s.hostGate who = true → isPf0OrCore who = true →
    (s.rwinAt i).valid = true → s.rwinBusy i = true → ∃ t, exec (.rnaWoffValidClear who i) s = .next t ∧
    t.regs = (s.setReg (rwin i) (s.reg (rwin i) &&& 0x7FFFFFFFFFFFFFFF#64)).regs ∧ has i t.rna.drain = true) ∧
  (∀ (s : State) (i : Nat), s.rwinBusy i = false → ∃ t, exec (.ranoaWindowDrainDone i) s = .next t ∧
    t.rna = { s.rna with drain := s.rna.drain.filter (fun j => j != i) }) ∧
  (∀ (s : State) (who : Agent), s.hostGate who = true → isPf0OrCore who = true → s.rna.since ≠ 0 → ∃ t,
    exec (.rnaLogRead who) s = .next t ∧ t.replies = s.replies ++ [⟨who, 0x0800010, s.rnaLog, false⟩] ∧
    t.rna = { s.rna with dropped := 0, captured := false, since := 0 } ∧ s.reports t (ev 0x52 none s.rna.since [])) ∧
  (∀ (s : State) (who : Agent) (port : Nat), port < 8 → s.hostGate who = true → ∃ t,
    exec (.rnaPerrRead who port) s = .next t ∧ t.replies = s.replies ++ [⟨who, 0x0800110 + 0x20 * port,
    s.rnaPerr port, false⟩] ∧
    t.rna.port = upd {} s.rna.port port (fun x =>
    { x with fecCorr := 0, fecUncorr := 0, replays := 0, losses := 0 })
    )

/-- Upkeep of a stack and its commands. Refresh and the turn back to reads change no contents; scrub takes one sector
a time, poisons what no code corrects and stands still while the stack is throttled; 95 °C throttles until below
92 °C, and 105 °C trips; reading the counters clears them. A submitted window becomes busy and its result is
computed, or it waits for a tier tile or a way; a second store to the submitting doubleword while it is busy is
refused with an event; the result record is stored, the object receives ADD 1 and the window is free once the
writes have been acknowledged. Completes, under hypotheses on the state and the operands alone (exec answers a
next state): readWaitTurnTimeout, refresh, patrolScrub, stackTempSample, memErrRead, reduce, kvAppend,
stackCmdResult. Conventions of the model it rests on (its own choices, no rules of the spec): log 1, 4, 25. (R252,
R253, R260, R261, R262, R264, R265, R284, R274, R275, R276, R277) -/
def Obligations.StackUpkeepAndCommands : Prop :=
  (∀ (s : State) (stack pc : Nat), ∃ t, exec (.readWaitTurnTimeout stack pc) s = .next t ∧
    t.stack = upd {} s.stack stack (fun x => { x with writing := put false x.writing pc false }) ∧ t.mem = s.mem) ∧
  (∀ (s : State) (stack pc bank : Nat), s.siteLive (33 + stack) = true → ∃ t,
    exec (.refresh stack pc bank) s = .next t ∧
    t.stack = upd {} s.stack stack (fun x =>
    { x with refreshed := upd 0 x.refreshed (pc * 32 + bank) (fun n => n + 1) }) ∧
    t.mem = s.mem) ∧
  (∀ (s : State) (stack : Nat) (e : DramErr), (s.stackOf stack).throttle = true → ∃ t,
    exec (.patrolScrub stack e) s = .next t ∧ t = s) ∧
  (∀ (s : State) (stack : Nat) (e : DramErr), (s.stackOf stack).throttle = false → (s.stackOf stack).state = 0 →
    s.siteLive (33 + stack) = true → s.scrubSector stack (s.stackOf stack).scrubPos = none →
    (s.stackOf stack).scrubPos + 1 < s.scrubLen → ∃ t, exec (.patrolScrub stack e) s = .next t ∧ t.mem = s.mem ∧
    t.stack = upd {} s.stack stack (fun x => { x with scrubPos := x.scrubPos + 1 })) ∧
  (∀ (s : State) (stack n : Nat), (s.stackOf stack).throttle = false → (s.stackOf stack).state = 0 →
    s.siteLive (33 + stack) = true → stack < 16 → s.scrubSector stack (s.stackOf stack).scrubPos = some n →
    s.lostUnit (n / 64) = false → s.mem.isPoison n = false → s.mem.ckBad n = false →
    (s.stackOf stack).scrubPos + 1 < s.scrubLen → ∃ t, exec (.patrolScrub stack .uncorrectable) s = .next t ∧
    t.mem = (s.mem.setPoison n true).fixCk n ∧ (t.stackOf stack).uncorr = satAdd 0xFFFF (s.stackOf stack).uncorr 1 ∧
    (t.stackOf stack).scrubPos = (s.stackOf stack).scrubPos + 1 ∧
    s.reports t (ev 0x02 (some (33 + stack)) (s.chanFor (64 * n)) [64 * n])) ∧
  (∀ (s : State) (stack temp : Nat), temp < 105 → 95 ≤ temp → (s.stackOf stack).throttle = false → ∃ t,
    exec (.stackTempSample stack temp) s = .next t ∧
    t.stack = upd {} s.stack stack (fun x => { x with temp := temp, throttle := true, refresh2x := true }) ∧
    s.reports t (ev 0x12 (some (33 + stack)) 1 [])) ∧
  (∀ (s : State) (stack temp : Nat), temp < 92 → (s.stackOf stack).throttle = true → ∃ t,
    exec (.stackTempSample stack temp) s = .next t ∧
    t.stack = upd {} s.stack stack (fun x =>
    { x with temp := temp, throttle := false, refresh2x := decide (85 < temp) }) ∧
    s.reports t (ev 0x12 (some (33 + stack)) 0 [])) ∧
  (∀ (s : State) (stack temp : Nat), 92 ≤ temp → temp < 95 → ∃ t, exec (.stackTempSample stack temp) s = .next t ∧
    t.stack = upd {} s.stack stack (fun x =>
    { x with temp := temp, throttle := (s.stackOf stack).throttle, refresh2x := true }) ∧
    t.hfifo = s.hfifo) ∧
  (∀ (s : State) (stack temp : Nat), 105 ≤ temp → ∃ t, exec (.stackTempSample stack temp) s = .next t ∧
    t.boot.thermtrip = true ∧ t.boot.phase = .off) ∧
  (∀ (s : State) (who : Agent) (stack : Nat), s.hostGate who = true → ∃ t,
    exec (.memErrRead who stack) s = .next t ∧ t.replies = s.replies ++ [⟨who, 0x0600300 + 8 * stack,
    (s.stackOf stack).errWord, false⟩] ∧
    t.stack = upd {} s.stack stack (fun x => { x with corr := 0, uncorr := 0, scrubPasses := 0, layerEv := 0 })) ∧
  (∀ (s : State) (core stack tag : Nat) (w : Window), (s.coreOf core).fence = false →
    (look {} (s.stackOf stack).win core).busy = false →
    w =
    { look {} (s.stackOf stack).win core with
        dw := setAt (look {} (s.stackOf stack).win core).dw 7 (BitVec.ofNat 64 (tag % 2 ^ 32)),
        job := setAt (look {} (s.stackOf stack).win core).dw 7 (BitVec.ofNat 64 (tag % 2 ^ 32)), busy := true }
    →
    s.siteLive (33 + stack) = true → w.get 0 % 256 = 4 → s.windowWaits stack w = false →
    (∀ k ∈ sectorsOf (w.get 1 % 2 ^ 48) (s.reduceLen stack w), s.staleWord k = false) → ∃ t,
    exec (.reduce core stack tag) s = .next t ∧
    look {} (t.stackOf stack).win core =
    { w with
        wait := false, value := (s.reduceRes stack w).1, status := (s.reduceRes stack w).2.1,
        flags := (s.reduceRes stack w).2.2 }
    ∧
    t.mem = s.mem) ∧
  (∀ (s : State) (core stack tag : Nat) (w : Window), (s.coreOf core).fence = false →
    (look {} (s.stackOf stack).win core).busy = false →
    w =
    { look {} (s.stackOf stack).win core with
        dw := setAt (look {} (s.stackOf stack).win core).dw 7 (BitVec.ofNat 64 (tag % 2 ^ 32)),
        job := setAt (look {} (s.stackOf stack).win core).dw 7 (BitVec.ofNat 64 (tag % 2 ^ 32)), busy := true }
    →
    (s.windowWaits stack w = true ∨ s.siteLive (33 + stack) = false) → ∃ t,
    exec (.reduce core stack tag) s = .next t ∧ look {} (t.stackOf stack).win core = { w with wait := true } ∧
    t.mem = s.mem) ∧
  (∀ (s : State) (core stack tag : Nat), (s.coreOf core).fence = false →
    (look {} (s.stackOf stack).win core).busy = true → ringCode 0x80 = false → ∃ t,
    exec (.reduce core stack tag) s = .next t ∧ t.stack = s.stack ∧
    s.reports t (ev 0x80 none (whoArg (.core core)) [0x0680000 + 0x400 * core + 0x40 * stack + 0x38])) ∧
  (∀ (s : State) (core stack tag : Nat) (w : Window), (s.coreOf core).fence = false →
    (look {} (s.stackOf stack).win core).busy = false →
    w =
    { look {} (s.stackOf stack).win core with
        dw := setAt (look {} (s.stackOf stack).win core).dw 7 (BitVec.ofNat 64 (tag % 2 ^ 32)),
        job := setAt (look {} (s.stackOf stack).win core).dw 7 (BitVec.ofNat 64 (tag % 2 ^ 32)), busy := true }
    →
    s.siteLive (33 + stack) = true → w.get 0 % 256 = 5 → s.windowWaits stack w = false → s.appendCheck stack w ≠ 0 →
    ∃ t, exec (.kvAppend core stack tag) s = .next t ∧
    look {} (t.stackOf stack).win core =
    { w with wait := false, value := 0, status := s.appendCheck stack w, flags := 0 } ∧
    t.mem = s.mem) ∧
  (∀ (s : State) (core stack tag : Nat) (w : Window), (s.coreOf core).fence = false →
    (look {} (s.stackOf stack).win core).busy = false →
    w =
    { look {} (s.stackOf stack).win core with
        dw := setAt (look {} (s.stackOf stack).win core).dw 7 (BitVec.ofNat 64 (tag % 2 ^ 32)),
        job := setAt (look {} (s.stackOf stack).win core).dw 7 (BitVec.ofNat 64 (tag % 2 ^ 32)), busy := true }
    →
    s.siteLive (33 + stack) = true → w.get 0 % 256 = 5 → s.windowWaits stack w = false → s.appendCheck stack w = 0 →
    (∀ k ∈ sectorsOf (w.get 1 % 2 ^ 48) (w.get 2 % 2 ^ 32) ++ sectorsOf (w.get 4 % 2 ^ 48) 8,
    s.staleWord k = false) → s.engineErr stack (w.get 1 % 2 ^ 48) .read (w.get 2 % 2 ^ 32) = false →
    s.cohPoison (w.get 1 % 2 ^ 48) (w.get 2 % 2 ^ 32) = none → ∃ t, exec (.kvAppend core stack tag) s = .next t ∧
    look {} (t.stackOf stack).win core =
    { w with wait := false, value := s.cohLE (w.get 4 % 2 ^ 48) 8, status := 0, flags := 0 } ∧
    t.mem = (cohWrite (w.get 4 % 2 ^ 48) (leBytes 8 (s.cohLE (w.get 4 % 2 ^ 48) 8 + 1)) s).mem) ∧
  (∀ (s s1 : State) (core stack : Nat) (w : Window), w = look {} (s.stackOf stack).win core → w.busy = true →
    w.wait = false → (w.get 0 % 256 = 5 → s.partPending (w.get 4 % 2 ^ 48) = false) →
    s.siteLive (33 + stack) = true → s.windowDone core stack = true → s.portUp (33 + stack) = true →
    s.tileWait (w.get 3 % 2 ^ 48 / 16 * 16) true = false → openWait (w.get 3 % 2 ^ 48 / 16 * 16) s = none →
    s.wayUp (33 + stack) ((s.targetOf (w.get 3 % 2 ^ 48 / 16 * 16)).getD 63) = true →
    s.engineErr stack (w.get 3 % 2 ^ 48 / 16 * 16) .write 64 = false →
    s1 = cohWrite (w.get 3 % 2 ^ 48 / 16 * 16) (leBytes 8 w.value ++ [BitVec.ofNat 8 w.status,
    BitVec.ofNat 8 w.flags, 0#8, 0#8] ++ leBytes 4 (w.get 7)) s →
    s1.syncNow (33 + stack) (bitsOf (w.get 0) 44 32) 0 1 .plain → ∃ t,
    exec (.stackCmdResult core stack) s = .next t ∧ look {} (t.stackOf stack).win core = { w with busy := false } ∧
    (t.syncOf (bitsOf (w.get 0) 44 32)).val = (s.syncOf (bitsOf (w.get 0) 44 32)).val + 1 ∧ t.mem = s1.mem)

/-- Layers, channels and stacks that are lost. A lost layer is counted in Indigo and fails the stack in Cobalt; a
map-out stops one channel at a time and goes through its steps in order to a new map; a stack under recovery is
fenced and serves again, or is failed. Completes, under hypotheses on the state and the operands alone (exec
answers a next state): layerFailure, mapoutStart, mapoutEvictDone, mapoutMapDistributed, mapoutComplete,
stackRecoveryStart, stackRecoveryDone. Conventions of the model it rests on (its own choices, no rules of the
spec): log 1, 16, 53. (R251, R253, R255, R256, R257, R258, R266, R567) -/
def Obligations.StackLossAndRecovery : Prop :=
  (∀ (s : State) (stack layer : Nat), s.memc.active = 1 → layer < 16 → ∃ t,
    exec (.layerFailure stack layer) s = .next t ∧
    t.stack = upd {} s.stack stack (fun x =>
    { x with layersLost := Nat.lor x.layersLost (2 ^ layer), layerEv := satAdd 0xFFFF x.layerEv 1 }) ∧
    s.reports t (ev 0x11 (some (33 + stack)) layer [])) ∧
  (∀ (s : State) (stack layer : Nat), s.memc.active = 0 → stack < 16 → ∃ t,
    exec (.layerFailure stack layer) s = .next t ∧ (t.stackOf stack).state = 2 ∧ t.fenced (33 + stack) = true ∧
    look 0 t.glb.site (33 + stack) = 3) ∧
  (∀ (s : State) (slot : Nat), slot < 512 → has slot s.memc.maps = false → s.memc.mapStep = 0 →
    s.memc.maps.length < 32 → ∃ t, exec (.mapoutStart slot) s = .next t ∧
    t.memc = { s.memc with mapStep := 1, mapSlot := slot } ∧ s.reports t (ev 0x10 (some (33 + slot % 16)) slot []) ∧
    (∀ u k, k < 64 → u < s.rowsLeft * 512 → t.lostUnit u = true → t.mem.isPoison (64 * u + k) = true)) ∧
  (∀ (s : State) (slot : Nat), slot < 512 → has slot s.memc.maps = false → s.memc.mapStep ≠ 0 → ∃ t,
    exec (.mapoutStart slot) s = .next t ∧ t.memc = { s.memc with mapWait := s.memc.mapWait ++ [slot] } ∧
    t.mem = s.mem) ∧
  (∀ (s : State) (slot : Nat), slot < 512 → has slot s.memc.maps = false → s.memc.mapStep = 0 →
    s.memc.maps.length = 32 → ∃ t, exec (.mapoutStart slot) s = .next t ∧ (t.stackOf (slot % 16)).state = 2 ∧
    t.fenced (33 + slot % 16) = true) ∧
  (∀ (s : State), s.memc.mapStep = 1 → wfTable {} s.tier.frames = true → ∃ t, exec (.mapoutEvictDone) s = .next t ∧
    t.memc = { s.memc with mapStep := 2 } ∧ (∀ f ∈ s.withdrawnFrames, (look {} t.tier.frames f).tile = none)) ∧
  (∀ (s : State), s.memc.mapStep = 2 → ∃ t, exec (.mapoutMapDistributed) s = .next t ∧
    t.memc =
    { s.memc with mapStep := 3, maps := s.memc.maps ++ [s.memc.mapSlot], frameCount := s.memc.frameCount - s.framesLost }
    ∧
    t.mem = s.mem ∧ t.tier = s.tier) ∧
  (∀ (s : State), s.memc.mapStep = 3 → s.memc.mapWait = [] → ∃ t, exec (.mapoutComplete) s = .next t ∧
    t.memc = { s.memc with mapStep := 0 } ∧ t.repair.mapouts = s.memc.maps ∧
    s.reports t (ev 0x10 (some (33 + s.memc.mapSlot % 16)) (s.memc.mapSlot + 2 ^ 31) [])) ∧
  (∀ (s : State) (next : Nat) (rest : List Nat), s.memc.mapStep = 3 → s.memc.mapWait = next :: rest → next < 512 →
    has next s.memc.maps = false → s.memc.maps.length < 32 → ∃ t, exec (.mapoutComplete) s = .next t ∧
    t.memc =
    { s.memc with mapStep := 1, mapSlot := next, mapWait := rest.filter (fun x => decide (x < 512) && !has x s.memc.maps) }
    ∧
    t.repair.mapouts = s.memc.maps) ∧
  (∀ (s : State) (stack : Nat), stack < 16 → (s.stackOf stack).state = 0 → ∃ t,
    exec (.stackRecoveryStart stack) s = .next t ∧ (t.stackOf stack).state = 1 ∧ t.fenced (33 + stack) = true ∧
    t.mem = s.mem) ∧
  (∀ (s : State) (stack : Nat), stack < 16 → (s.stackOf stack).state = 1 → s.linkReady (33 + stack) = true →
    wfTable {} s.stack = true → ∃ t, exec (.stackRecoveryDone stack true []) s = .next t ∧
    (t.stackOf stack).state = 0 ∧ t.fenced (33 + stack) = false ∧ t.glb.site = put 0 s.glb.site (33 + stack) 0 ∧
    (∀ c ∈ s.mem.ckErr, 64 * c.1 < s.hbmEnd → s.stackFor (64 * c.1) = stack → t.mem.isPoison c.1 = true)) ∧
  (∀ (s : State) (stack ch : Nat), stack < 16 → ch < 32 → (s.stackOf stack).state = 1 →
    s.linkReady (33 + stack) = true → has (ch * 16 + stack) s.memc.maps = false → s.memc.mapStep = 0 →
    s.memc.maps.length < 32 → ∃ t, exec (.stackRecoveryDone stack true [ch]) s = .next t ∧
    t.memc = { s.memc with mapStep := 1, mapSlot := ch * 16 + stack } ∧ t.fenced (33 + stack) = false) ∧
  (∀ (s : State) (stack : Nat) (failed : List Nat), stack < 16 → (s.stackOf stack).state = 1 → ∃ t,
    exec (.stackRecoveryDone stack false failed) s = .next t ∧ (t.stackOf stack).state = 2 ∧
    look 0 t.glb.site (33 + stack) = 3)

/-- Pool dies and the recovery of a core die. A fill makes the line V and the read that waited is answered; a
hand-back writes the dirty line to its stack and leaves it in H; a write waits until its unit is marked; a failed
die loses its marked units and its scratch as poison, and comes back empty or is failed. A machine check fences
the die and stops the core at fault; the homes poison what the die held in E or M and drop its copies; the reset
empties its caches; then the die serves again or is failed. Completes, under hypotheses on the state and the
operands alone (exec answers a next state): poolFillDone, poolHandbackDone, poolDirtyMarkDone, poolDieFailure,
poolDieRecoveryDone, memPoolstatRead, coreDieMachineCheck, coreDiePoisonDone, coreDieResetDone,
coreDieRecoveryDone. Conventions of the model it rests on (its own choices, no rules of the spec): log 1, 13, 17.
(R289, R293, R294, R298, R318, R390, R391) -/
def Obligations.PoolAndCoreDies : Prop :=
  (∀ (s : State) (die sector : Nat) (p : Pkt), (s.poolOf die).wait = [(p, .none)] →
    (s.poolOf die).filling = [sector] → (s.poolOf die).handing = [] → (s.poolOf die).away = [] → p.op = .read →
    accessSecs p = [sector] → p.dst = 49 + die → s.mayAnswer p → s.poolWay die sector = true →
    look 0 s.mem.ckErr (sectorOf (s.phys (64 * sector))) = 0 → ∃ t, exec (.poolFillDone die sector) s = .next t ∧
    { (t.poolOf die).lineOf sector with way := 0 } = ⟨.v, (s.cohSector sector).1, (s.cohSector sector).2, 0, 0⟩ ∧
    (t.poolOf die).wait = [] ∧
    t.carries (answer .respData p 0 (t.cohPoison p.addr p.rdLen).isSome (t.cohRead p.addr p.rdLen)) ∧ t.mem = s.mem) ∧
  (∀ (s : State) (die sector : Nat), (s.poolOf die).wait = [] → has sector (s.poolOf die).handing = true →
    ((s.poolOf die).lineOf sector).st = .d → s.zone (64 * sector) = .direct → s.poolWay die sector = true → ∃ t,
    exec (.poolHandbackDone die sector) s = .next t ∧
    { (t.poolOf die).lineOf sector with way := 0 } = { st := .h } ∧
    t.mem = s.mem.writeSector (sectorOf (s.phys (64 * sector))) ((s.poolOf die).lineOf sector).data (some
    (((s.poolOf die).lineOf sector).ck ^^^ crc32c ((s.poolOf die).lineOf sector).data)) ((s.poolOf die).lineOf
    sector).poison
    ) ∧
  (∀ (s : State) (die unit n : Nat) (p : Pkt), (s.poolOf die).wait = [(p, .none)] →
    (s.poolOf die).marking = [unit] → (s.poolOf die).filling = [] → (s.poolOf die).handing = [] →
    (s.poolOf die).away = [] → p.op = .write → p.payload.length = 64 → accessSecs p = [n] → sectorOf p.addr = n →
    n / 64 = unit → p.dst = 49 + die → s.mayAnswer p → s.poolWay die (64 * unit) = true →
    ((s.poolOf die).lineOf n).st = .v → ∃ t, exec (.poolDirtyMarkDone die unit) s = .next t ∧
    has unit (t.poolOf die).marked = true ∧ has unit (look [] (t.stackOf (s.unitStack unit)).marks die) = true ∧
    ((t.poolOf die).lineOf n).st = .d ∧ ((t.poolOf die).lineOf n).data = p.payload ∧ t.mem = s.mem ∧
    t.carries (answer .respAck p 0 false [])) ∧
  (∀ (s : State) (die : Nat), die < 4 → (s.poolOf die).state = 0 → ∃ t, exec (.poolDieFailure die) s = .next t ∧
    (t.poolOf die).state = 1 ∧ (t.poolOf die).lines = [] ∧ (t.poolOf die).marked = [] ∧ t.fenced (49 + die) = true ∧
    (∀ h, h < 16 → ∀ u ∈ look [] (s.stackOf h).marks die, ∀ k, k < 64 →
    t.mem.isPoison (s.phys (u * 4096) / 64 + k) = true) ∧ (∀ n, (s.mem.isPoison n = true) → t.mem.isPoison n = true)) ∧
  (∀ (s : State) (die : Nat), die < 4 → (s.poolOf die).state = 1 → s.linkReady (49 + die) = true →
    wfTable {} s.pool = true → ∃ t, exec (.poolDieRecoveryDone die true) s = .next t ∧ (t.poolOf die).state = 0 ∧
    t.fenced (49 + die) = false ∧ t.glb.site = put 0 s.glb.site (49 + die) 0 ∧ (∀ n, scratchBase die ≤ 64 * n →
    64 * n < scratchBase die + t.scratchLen die → t.mem.isPoison n = true)) ∧
  (∀ (s : State) (die : Nat), die < 4 → (s.poolOf die).state = 1 → ∃ t,
    exec (.poolDieRecoveryDone die false) s = .next t ∧ (t.poolOf die).state = 2 ∧
    look 0 t.glb.site (49 + die) = 3 ∧ t.scratchLen die = 0) ∧
  (∀ (s : State) (who : Agent) (die : Nat), s.hostGate who = true → ∃ t,
    exec (.memPoolstatRead who die) s = .next t ∧ t.replies = s.replies ++ [⟨who, 0x0600440 + 8 * die,
    s.poolStat die, false⟩] ∧ t.pool = upd {} s.pool die (fun x => { x with uncorr := 0 })) ∧
  (∀ (s : State) (die core : Nat), die < 4 → (s.cdieOf die).rec_ = 0 → (s.cdieOf die).failed = false → ∃ t,
    exec (.coreDieMachineCheck die (some core)) s = .next t ∧ (t.cdieOf die).rec_ = 1 ∧ t.fenced (53 + die) = true ∧
    (t.coreOf core).stopped = true ∧ core ∈ t.repair.cores) ∧
  (∀ (s : State) (die : Nat), (s.cdieOf die).rec_ = 1 → (∀ i, i < 20 →
    ((s.homeOf (33 + i)).dir.map DirEnt.sector).Nodup) → ∃ t, exec (.coreDiePoisonDone die) s = .next t ∧
    (t.cdieOf die).rec_ = 2 ∧ (∀ i, i < 20 → ∀ n ∈ (s.homeOf (33 + i)).ownedSecs die, s.zone (64 * n) = .direct →
    t.mem.isPoison n = true) ∧ (∀ i, i < 20 → ∀ d ∈ (t.homeOf (33 + i)).dir, has die d.holders = false)) ∧
  (∀ (s : State) (die : Nat), (s.cdieOf die).rec_ = 2 → wfTable {} s.core = true → ∃ t,
    exec (.coreDieResetDone die) s = .next t ∧ (t.cdieOf die).rec_ = 3 ∧ (t.cdieOf die).lines = [] ∧
    (t.cdieOf die).tickets = [] ∧ (∀ i, i < 32 →
    t.coreOf (32 * die + i) = { stopped := (s.coreOf (32 * die + i)).stopped })) ∧
  (∀ (s : State) (die : Nat), (s.cdieOf die).rec_ = 3 → s.linkReady (53 + die) = true → wfTable {} s.cdie = true →
    ∃ t, exec (.coreDieRecoveryDone die true) s = .next t ∧ (t.cdieOf die).rec_ = 0 ∧ t.fenced (53 + die) = false ∧
    t.glb.site = put 0 s.glb.site (53 + die) 0) ∧
  (∀ (s : State) (die : Nat), (s.cdieOf die).rec_ = 3 → ∃ t, exec (.coreDieRecoveryDone die false) s = .next t ∧
    (t.cdieOf die).failed = true ∧ look 0 t.glb.site (53 + die) = 3)

/-- How a tiered tile becomes resident and leaves its frame. A miss asks the serving die; the answer fills the map and
releases the accesses that wait, or starts a fetch into a free frame or after an eviction; a fetch brings the
tile's bytes, and parts that flash cannot recover arrive poisoned. Completes, under hypotheses on the state and
the operands alone (exec answers a next state): tierMapMiss, tierMapReply, frameEvictionDone, tierFetchDone.
Conventions of the model it rests on (its own choices, no rules of the spec): log 1, 24. (R301, R302, R304, R307,
R312) -/
def Obligations.TierResidency : Prop :=
  (∀ (s : State) (tile : Nat), s.frameOf tile = none → ∃ t, exec (.tierMapMiss tile) s = .next t ∧
    t.tier = { s.tier with asked := ins tile s.tier.asked } ∧ t.mem = s.mem) ∧
  (∀ (s : State) (tile f : Nat) (fr : Frame), has tile s.tier.asked = true →
    s.tier.frames.find? (fun x => x.2.tile == some tile && !x.2.filling) = some (f, fr) → (∀ k, k < 16 →
    ∀ w ∈ (s.stackOf k).win, w.2.wait = false) → ∃ t, exec (.tierMapReply tile) s = .next t ∧
    t.frameOf tile = some f ∧ t.tier.wait = s.tier.wait.filter (fun p => tileOfAddr p.addr != tile) ∧ t.mem = s.mem) ∧
  (∀ (s : State) (tile f : Nat), has tile s.tier.asked = true → s.frameWith tile = none →
    s.fetchWaits tile = false → tile < 33554432 → (s.tdieOf (tile % 2)).state ≠ 3 → s.spareFrame [] = some f → ∃ t,
    exec (.tierMapReply tile) s = .next t ∧ (look {} t.tier.frames f).tile = some tile ∧
    (look {} t.tier.frames f).filling = true ∧ (look {} t.tier.frames f).dirty = []) ∧
  (∀ (s : State) (tile : Nat), has tile s.tier.asked = true → s.frameWith tile = none → s.fetchWaits tile = false →
    tile < 33554432 → (s.tdieOf (tile % 2)).state ≠ 3 → s.spareFrame [] = none → ∃ t,
    exec (.tierMapReply tile) s = .next t ∧ t.tier.fetching = s.tier.fetching ++ [(tile, false)] ∧ t.mem = s.mem) ∧
  (∀ (s : State) (tile frame : Nat) (pre : Bool) (r : List (Nat × Bool)), s.tier.fetching = (tile, pre) :: r →
    (look {} s.tier.frames frame).evicting = true → ∃ t, exec (.frameEvictionDone frame) s = .next t ∧
    (look {} t.tier.frames frame).tile = some tile ∧ (look {} t.tier.frames frame).filling = true ∧
    (look {} t.tier.frames frame).dirty = [] ∧ t.tier.fetching = r) ∧
  (∀ (s : State) (tile old frame : Nat) (pre : Bool) (r : List (Nat × Bool)), s.tier.fetching = (tile, pre) :: r →
    (look {} s.tier.frames frame).evicting = true → (look {} s.tier.frames frame).tile = some old →
    wfTable 0 s.tier.tmap = true → ∃ t, exec (.frameEvictionDone frame) s = .next t ∧ t.frameOf old = none) ∧
  (∀ (s : State) (frame : Nat), s.tier.fetching = [] → ∃ t, exec (.frameEvictionDone frame) s = .next t ∧
    t.tier.frames = upd {} s.tier.frames frame (fun x => { x with evicting := false }) ∧ t.mem = s.mem) ∧
  (∀ (s : State) (tile f : Nat) (fr : Frame),
    s.tier.frames.find? (fun x => x.2.tile == some tile && x.2.filling) = some (f, fr) → (∀ c ∈ s.tier.flash.ckErr,
    c.1 / 16384 = tile → s.tier.flash.isPoison c.1 = true) → (∀ k, k < 16 → ∀ w ∈ (s.stackOf k).win,
    w.2.wait = false) → ∃ t, exec (.tierFetchDone tile []) s = .next t ∧ t.frameOf tile = some f ∧
    t.mem = s.mem.restoreAt (s.tier.flash.save (tile * 0x100000) 0x100000) (s.memc.frameBase + f * 0x100000) ∧
    t.tier.wait = s.tier.wait.filter (fun p => tileOfAddr p.addr != tile)) ∧
  (∀ (s : State) (tile f k : Nat) (fr : Frame),
    s.tier.frames.find? (fun x => x.2.tile == some tile && x.2.filling) = some (f, fr) → k < 16384 → (∀ k, k < 16 →
    ∀ w ∈ (s.stackOf k).win, w.2.wait = false) → ∃ t, exec (.tierFetchDone tile [k]) s = .next t ∧
    t.mem.isPoison ((s.memc.frameBase + f * 0x100000) / 64 + k) = true ∧
    t.tier.flash.isPoison (tile * 16384 + k) = true ∧ t.frameOf tile = some f)

/-- Dirty parts of the deep tier. A part is recorded open before its write is acknowledged; a part read out counts
once it has been programmed; background write-back starts beyond DIRTYMAX; a flush writes back every part that is
dirty when it starts. Completes, under hypotheses on the state and the operands alone (exec answers a next state):
partOpenRecorded, flashProgramDone, tierBackgroundWriteback, tierFlush, tierFlushDone. Conventions of the model it
rests on (its own choices, no rules of the spec): log 1, 24. (R303, R304, R306, R313, R319, R321) -/
def Obligations.TierWritebackAndFlush : Prop :=
  (∀ (s : State) (part : Nat) (q : Pkt), s.tier.waitRec = [(part, q)] → s.fenced q.src = false →
    s.fenced q.dst = false → (q.dst, q.tid) ∉ s.hub.dropped → (∀ d, d < 4 → (s.poolOf d).wait = []) → ∃ t,
    exec (.partOpenRecorded part) s = .next t ∧ has part (t.tdieOf (part / 16 % 2)).openParts = true ∧
    t.tier.waitRec = [] ∧ t.carries q ∧ t.mem = s.mem) ∧
  (∀ (s : State) (part block : Nat), has part (s.tdieOf (part / 16 % 2)).programming = true →
    has part (s.tdieOf (part / 16 % 2)).quiet = false → has block (s.tdieOf (part / 16 % 2)).retired = false →
    s.dirtyNow part = false → ∃ t, exec (.flashProgramDone part block) s = .next t ∧
    t.tier.written = (s.tier.written + 0x10000) % 2 ^ 64 ∧
    t.tier.die = upd {} s.tier.die (part / 16 % 2) (fun x =>
    { x with
        programming := del part x.programming, quiet := del part x.quiet, bytes := x.bytes + 0x10000,
        blockMap := put 0 x.blockMap part (block + 1), reads := put 0 x.reads block 0, openParts := del part x.openParts })
    ) ∧
  (∀ (s : State) (f tile : Nat) (fr : Frame), s.dirtyMax * 16384 < s.dirtyParts →
    s.tier.frames.find? (fun x => !x.2.dirty.isEmpty) = some (f, fr) → look {} s.tier.frames f = fr →
    fr.tile = some tile → ∃ t, exec (.tierBackgroundWriteback) s = .next t ∧ (look {} t.tier.frames f).dirty = [] ∧
    (look {} t.tier.frames f).tile = some tile ∧ (∀ part ∈ fr.dirty,
    has (tile * 16 + part) (t.tdieOf (tile % 2)).programming = true) ∧ (∀ part ∈ fr.dirty,
    has (tile * 16 + part) (t.tdieOf (tile % 2)).quiet = true) ∧ (s.mem.ckErr = [] → t.mem = s.mem)) ∧
  (∀ (s : State), s.dirtyParts ≤ s.dirtyMax * 16384 → ∃ t, exec (.tierBackgroundWriteback) s = .next t ∧ t = s) ∧
  (∀ (s : State) (who : Agent), s.hostGate who = true → isPf0OrCore who = true → s.tier.flushing = false →
    wfTable {} s.tier.frames = true → (∀ f ∈ s.tier.frames, f.2.tile = none → f.2.dirty = []) → ∃ t,
    exec (.tierFlush who) s = .next t ∧ t.tier.flushing = true ∧ t.dirtyParts = 0 ∧ (s.mem.ckErr = [] →
    t.mem = s.mem)) ∧
  (∀ (s : State), s.tier.flushing = true → ∃ t, exec (.tierFlushDone) s = .next t ∧ t.tier.flushing = false ∧
    t.mem = s.mem)

/-- Pins, wear, bad blocks and the loss of a tier die. A pin fetches and pins its tiles, and a range beyond half of
the frames is refused with an event; blocks move and are retired without losing contents; a worn die becomes
read-only; a failed die loses its frames and answers errors. Completes, under hypotheses on the state and the
operands alone (exec answers a next state): tierPinSet, tierPinClear, tierPinResident, wearLevelling,
readDisturbRelocate, badBlockRetire, tierDieFailure, tierDieRead. Conventions of the model it rests on (its own
choices, no rules of the spec): log 1, 24. (R305, R309, R311, R313, R314, R319, R320, R323) -/
def Obligations.TierPinsAndFlash : Prop :=
  (∀ (s : State) (who : Agent) (n first count : Nat), n < 64 → first < 2 ^ 25 → count < 2 ^ 25 →
    2 * count ≤ s.memc.frameCount → s.hostGate who = true → isPf0OrCore who = true → ∃ t,
    exec (.tierPinSet who n first count) s = .next t ∧
    t.reg (tierPin n) = BitVec.ofNat 64 (2 ^ 63 + count * 2 ^ 25 + first) ∧ (∀ f ∈ t.tier.frames, ∀ k,
    f.2.tile = some k → first ≤ k → k < first + count → f.2.pinned = true)) ∧
  (∀ (s : State) (who : Agent) (n first count : Nat), n < 64 → first < 2 ^ 25 → count < 2 ^ 25 →
    s.memc.frameCount < 2 * count → bitOf (s.reg (tierPin n)).toNat 63 = false → s.hostGate who = true →
    isPf0OrCore who = true → ∃ t, exec (.tierPinSet who n first count) s = .next t ∧
    t.regs = (s.setReg (tierPin n) (BitVec.ofNat 64 (count * 2 ^ 25 + first))).regs ∧
    s.reports t (ev 0x80 none (whoArg who) [tierPin n]) ∧ t.tier = s.tier) ∧
  (∀ (s : State) (who : Agent) (n : Nat), n < 64 → s.hostGate who = true → isPf0OrCore who = true → ∃ t,
    exec (.tierPinClear who n) s = .next t ∧
    t.regs = (s.setReg (tierPin n) (BitVec.ofNat 64 ((s.reg (tierPin n)).toNat % 2 ^ 63))).regs ∧
    t.tier.resident = put false s.tier.resident n false) ∧
  (∀ (s : State) (n : Nat), bitOf (s.reg (tierPin n)).toNat 63 = true → (∀ i,
    i < (pinRange (s.reg (tierPin n)).toNat).2 →
    s.tier.frames.any (fun f => f.2.tile == some ((pinRange (s.reg (tierPin n)).toNat).1 + i) && !f.2.filling) =
    true) →
    ∃ t, exec (.tierPinResident n) s = .next t ∧ look false t.tier.resident n = true) ∧
  (∀ (s : State) (die a b : Nat), has b (s.tdieOf die).retired = false → a ≠ b → ∃ t,
    exec (.wearLevelling die a b) s = .next t ∧
    t.tier =
    { s.tier with
        die := upd {} s.tier.die die (fun d => { d with
            blockMap := d.blockMap.map (fun m => if m.2 == a + 1 then (m.1, b + 1) else m),
            erases := upd 0 d.erases a (fun n => n + 1), reads := put 0 (put 0 d.reads a 0) b 0 }) }
    ∧
    t.mem = s.mem) ∧
  (∀ (s : State) (die b : Nat), 100000 ≤ look 0 (s.tdieOf die).reads b → ∃ t,
    exec (.readDisturbRelocate die b) s = .next t ∧
    t.tier =
    { s.tier with
        die := upd {} s.tier.die die (fun d => { d with
            reads := put 0 d.reads b 0, erases := upd 0 d.erases b (fun n => n + 1) }) }
    ∧
    t.mem = s.mem) ∧
  (∀ (s : State) (die b repl spare : Nat), has repl (s.tdieOf die).retired = false → b ≠ repl → spare ≤ 10 →
    2 < spare → 10 < (s.tdieOf die).spare → ∃ t, exec (.badBlockRetire die b repl spare) s = .next t ∧
    t.tier.die = upd {} s.tier.die die (fun d =>
    { d with
        retired := ins b d.retired, blockMap := d.blockMap.map (fun m => if m.2 == b + 1 then (m.1, repl + 1) else m),
        spare := spare })
    ∧
    s.reports t (ev 0x13 (some (60 + die)) spare [])) ∧
  (∀ (s : State) (die b repl spare : Nat), has repl (s.tdieOf die).retired = false → b ≠ repl → spare ≤ 2 →
    2 < (s.tdieOf die).spare → (s.tdieOf die).spare ≤ 10 → (s.tdieOf die).state = 1 → ∃ t,
    exec (.badBlockRetire die b repl spare) s = .next t ∧ (t.tdieOf die).state = 2 ∧ (t.tdieOf die).spare = spare ∧
    s.reports t (ev 0x13 (some (60 + die)) (spare + 2 ^ 31) [])) ∧
  (∀ (s : State) (die : Nat), die < 2 → (s.tdieOf die).state ≠ 3 → ∃ t, exec (.tierDieFailure die) s = .next t ∧
    (t.tdieOf die).state = 3 ∧ t.fenced (60 + die) = true ∧ look 0 t.glb.site (60 + die) = 3 ∧ (∀ p ∈ t.tier.wait,
    tileOfAddr p.addr % 2 ≠ die)) ∧
  (∀ (s : State) (who : Agent) (die : Nat), s.hostGate who = true → ∃ t, exec (.tierDieRead who die) s = .next t ∧
    t.replies = s.replies ++ [⟨who, 0x0700010 + 8 * die, s.tierDieWord die, false⟩] ∧
    t.tier.die = upd {} s.tier.die die (fun d => { d with uncorr := 0 }))

/-- Table walks and the host's translations. A table entry leads the walk to the next level and is kept in the walk
cache; a leaf enters the shared level and the walk ends; no root, a poisoned entry or an illegal one is a fault,
whose access stalls and whose record is counted lost while its ring is off. A completion installs its units but
those an invalidation has named; a page request that succeeds repeats the ATS request, one that fails ends the
command with reason 0x06; an invalidation takes its units out of every cache and is answered once no request of
the function is under way. Completes, under hypotheses on the state and the operands alone (exec answers a next
state): tableWalkDone, atsCompletion, priResponse, atsInvalidateRequest, atsInvalidateDone. Conventions of the
model it rests on (its own choices, no rules of the spec): log 1, 15, 40. (R325, R326, R327, R330, R331, R345,
R346, R347, R335, R336, R337) -/
def Obligations.WalksAtsAndPri : Prop :=
  (∀ (s : State) (ctx page e : Nat) (x : Walk), s.xlt.walks.find? (fun y => y.begun && y.isFor ctx page) = some x →
    s.blocked ctx page = false → has ctx s.xlt.rootOk = true →
    s.cohPoison (x.table + 8 * walkIdx (page * 0x10000) x.level) 8 = none →
    (∀ k ∈ sectorsOf (x.table + 8 * walkIdx (page * 0x10000) x.level) 8, s.staleWord k = false) →
    e = s.cohLE (x.table + 8 * walkIdx (page * 0x10000) x.level) 8 →
    s.engErr 63 (x.table + 8 * walkIdx (page * 0x10000) x.level) false = none → s.hif.placeWait = [] →
    entryFault s ctx x.level e = none → e % 8 = 1 → ∃ t, exec (.tableWalkDone ctx page 0) s = .next t ∧
    t.xlt.walks = s.xlt.walks.map (fun y => if y == x then
    { y with level := y.level + 1, table := bitsOf e 47 16 * 0x10000 } else y) ∧
    t.xlt.walkCache.head? = some ⟨ctx, x.level, page / 2 ^ (26 - 13 * x.level), bitsOf e 47 16 * 0x10000⟩ ∧
    t.xlt.shared = s.xlt.shared) ∧
  (∀ (s : State) (ctx page e : Nat) (x : Walk), s.xlt.walks.find? (fun y => y.begun && y.isFor ctx page) = some x →
    s.blocked ctx page = false → has ctx s.xlt.rootOk = true →
    s.cohPoison (x.table + 8 * walkIdx (page * 0x10000) x.level) 8 = none →
    (∀ k ∈ sectorsOf (x.table + 8 * walkIdx (page * 0x10000) x.level) 8, s.staleWord k = false) →
    e = s.cohLE (x.table + 8 * walkIdx (page * 0x10000) x.level) 8 →
    s.engErr 63 (x.table + 8 * walkIdx (page * 0x10000) x.level) false = none → s.hif.placeWait = [] →
    entryFault s ctx x.level e = none → e % 8 ≠ 1 → x.waits = [] →
    s.xlt.walks.filter (fun y => y.isFor ctx page) = [x] → ∃ t, exec (.tableWalkDone ctx page 0) s = .next t ∧
    t.xlt.walks.all (fun y => !y.isFor ctx page) = true ∧
    t.xlt.shared = sharedPut (leafEnt ctx page (levelPages x.level) (if e % 8 = 2 then .dev (bitsOf e 47 16 *
    0x10000) else .host) (bitOf e 3) (bitOf e 4)) s.xlt.shared ∧
    t.mem = s.mem) ∧
  (∀ (s : State) (ctx page ring seq : Nat) (w : XltWait) (x : Walk),
    s.xlt.walks.find? (fun y => y.begun && y.isFor ctx page) = some x →
    s.xlt.walks.filter (fun y => y.isFor ctx page) = [x] → x.waits = [w] → w.by_ = .cmd ring seq →
    w.dva / 0x10000 = page → s.blocked ctx page = false → has ctx s.xlt.rootOk = false →
    bitOf (s.reg (xltReg ctx + 0x18)).toNat 15 = false → s.xlt.stalls = [] → s.hif.placeWait = [] → ∃ t,
    exec (.tableWalkDone ctx page 0) s = .next t ∧ t.xlt.stalls = [⟨ctx, page, 0x01, [w]⟩] ∧
    look 0 t.xlt.frFull ctx = satAdd 0xFFFF (look 0 s.xlt.frFull ctx) 1 ∧ t.xlt.faultsWritten = s.xlt.faultsWritten) ∧
  (∀ (s : State) (ctx page ring seq : Nat) (w : XltWait) (x : Walk) (c : Cmd),
    s.xlt.walks.find? (fun y => y.begun && y.isFor ctx page) = some x →
    s.xlt.walks.filter (fun y => y.isFor ctx page) = [x] → x.waits = [w] → w.by_ = .cmd ring seq →
    s.blocked ctx page = false → has ctx s.xlt.rootOk = true →
    (s.cohPoison (x.table + 8 * walkIdx (page * 0x10000) x.level) 8).isSome = true → s.cmdOf ring seq = some c →
    c.out = {} → c.phase = .running → bitOf (s.reg (xltReg ctx + 0x18)).toNat 15 = false →
    s.engErr 63 (x.table + 8 * walkIdx (page * 0x10000) x.level) false = none → s.hif.placeWait = [] → ∃ t,
    exec (.tableWalkDone ctx page 0) s = .next t ∧ (t.cmdOf ring seq).map (fun c => (c.phase, c.out.status,
    c.out.region)) = some (.ending, 0x05, 0xE)) ∧
  (∀ (s : State) (ctx page : Nat) (parts : List AtsTrans) (a : AtsReq),
    s.xlt.ats.find? (fun y => y.isFor ctx page) = some a → a.waits = [] → s.hif.placeWait = [] → ∃ t,
    exec (.atsCompletion ctx page parts) s = .next t ∧
    t.xlt.shared = (installUnits ctx page ((parts.flatMap AtsTrans.split).filter (fun u => !has u.unit a.stale))
    s).xlt.shared ∧
    t.mem = s.mem) ∧
  (∀ (s : State) (ctx page : Nat) (w : XltWait) (a : AtsReq),
    s.xlt.ats.find? (fun y => y.isFor ctx page) = some a → a.waits = [w] → s.attached (s.ctxFn ctx) = true →
    s.hif.state = 2 → s.hif.npWait = [] → s.hif.reads.length + s.xlt.ats.length ≤ s.tagMax → s.hif.placeWait = [] →
    ∃ t, exec (.atsCompletion ctx page []) s = .next t ∧
    t.hif.tlps = s.hif.tlps ++ [.ats (s.ctxFn ctx) (s.regFld (xltReg ctx + 8) 19 0) ctx page] ∧
    t.xlt.shared = (installUnits ctx page [] s).xlt.shared) ∧
  (∀ (s : State) (ctx page unit : Nat), (ctx, page, unit) ∈ s.prisSent (s.ctxFn ctx) →
    s.xlt.ats.any (fun a => a.isFor ctx page) = true → s.hif.state = 2 → s.hif.npWait = [] →
    s.hif.reads.length + s.xlt.ats.length ≤ s.tagMax → ∃ t, exec (.priResponse ctx page unit true) s = .next t ∧
    t.xlt.pri = s.xlt.pri.filter (fun p => p != (ctx, page, unit)) ∧
    t.xlt.ats = s.xlt.ats.map (fun a => if a.isFor ctx page then { a with priOk := ins unit a.priOk } else a) ∧
    t.hif.tlps.getLast? = some (.ats (s.ctxFn ctx) (s.regFld (xltReg ctx + 8) 19 0) ctx page)) ∧
  (∀ (s : State) (ctx page unit ring seq : Nat) (w : XltWait) (a : AtsReq) (c : Cmd), (ctx, page,
    unit) ∈ s.prisSent (s.ctxFn ctx) → s.xlt.ats.find? (fun y => y.isFor ctx page) = some a → a.waits = [w] →
    w.unit = unit → w.by_ = .cmd ring seq → s.cmdOf ring seq = some c → c.out = {} → c.phase = .running →
    bitOf (s.reg (xltReg ctx + 0x18)).toNat 15 = false → ∃ t, exec (.priResponse ctx page unit false) s = .next t ∧
    (t.cmdOf ring seq).map (fun c => (c.phase, c.out)) = some (.ending,
    { status := 0x04, reason := 0x06, detail := w.dva })) ∧
  (∀ (s : State) (fn tag dva bytes : Nat), ∃ t, exec (.atsInvalidateRequest fn tag dva bytes) s = .next t ∧
    t.xlt.atsInval = s.xlt.atsInval ++ [(fn, tag, dva, bytes)] ∧ (∀ e ∈ t.xlt.shared, s.ctxFn e.ctx = fn →
    e.dest = .host → ∀ u ∈ e.units, unitIn dva bytes e.page u.unit = false) ∧ (∀ x ∈ t.tile, ∀ e ∈ x.2.tlb,
    s.ctxFn e.ctx = fn → e.dest = .host → ∀ u ∈ e.units, unitIn dva bytes e.page u.unit = false) ∧
    t.xlt.shared.length = s.xlt.shared.length) ∧
  (∀ (s : State) (fn tag : Nat), s.xlt.atsInval.any (fun i => i.1 == fn && i.2.1 == tag) = true →
    s.hostBusy fn = false → s.hif.state = 2 → ∃ t, exec (.atsInvalidateDone fn tag) s = .next t ∧
    t.xlt.atsInval = s.xlt.atsInval.filter (fun i => !(i.1 == fn && i.2.1 == tag)) ∧
    t.hif.tlps = s.hif.tlps ++ [.invalDone fn tag]) ∧
  (∀ (s : State) (fn tag : Nat), s.hostBusy fn = true → ∃ t, exec (.atsInvalidateDone fn tag) s = .next t ∧ t = s)

/-- Stalled translations and the translation registers. A store to XLT_RESUME tries again what the context's stalls
hold, and a VF names contexts of its own only; a stall that outlasts the fault timeout ends its command with
FAULT; the counters of XLT_STAT and of a fault ring clear when read. Completes, under hypotheses on the state and
the operands alone (exec answers a next state): xltResume, faultTimeout, xltStatRead, xltFrctlRead. Conventions of
the model it rests on (its own choices, no rules of the spec): log 1, 12, 31, 55. (R349, R350, R355, R356, R357,
R360) -/
def Obligations.StallsAndTranslationRegisters : Prop :=
  (∀ (s : State) (who : Agent) (ctx : Nat), s.hostGate who = true → ownFn who (s.ctxFn (ctx % 1024)) = true → ∃ t,
    exec (.xltResume who ctx) s = .next t ∧
    t = ((s.xlt.stalls.filter (fun x => x.ctx == ctx % 1024)).flatMap Stall.waits).foldl (fun st w => resumeWait
    (ctx % 1024) w st) (s.setReg 0x0900008 (BitVec.ofNat 64 (ctx % 1024)))
    ) ∧
  (∀ (s : State) (who : Agent) (ctx : Nat), s.hostGate who = true → ownFn who (s.ctxFn (ctx % 1024)) = false → ∃ t,
    exec (.xltResume who ctx) s = .next t ∧ s.reports t (ev 0x80 none (whoArg who) [0x0900008]) ∧ t.regs = s.regs ∧
    t.xlt = s.xlt) ∧
  (∀ (s : State) (ctx page reason ring seq : Nat) (w : XltWait) (c : Cmd),
    s.xlt.stalls.filter (fun x => x.ctx == ctx && x.page == page) = [⟨ctx, page, reason, [w]⟩] → 0 < reason →
    reason < 256 → s.xlt.ats = [] → w.by_ = .cmd ring seq → s.cmdOf ring seq = some c → c.out = {} →
    c.phase = .running → ∃ t, exec (.faultTimeout ctx page) s = .next t ∧ (t.cmdOf ring seq).map (fun c => (c.phase,
    c.out)) = some (.ending, { status := 0x04, reason := reason, detail := w.dva }) ∧
    w ∉ t.xlt.stalls.flatMap Stall.waits) ∧
  (∀ (s : State) (who : Agent), s.hostGate who = true → ∃ t, exec (.xltStatRead who) s = .next t ∧
    t.replies = s.replies ++ [⟨who, 0x0900010, s.xltStat, false⟩] ∧
    t.xlt = { s.xlt with walksStarted := 0, faultsWritten := 0 }) ∧
  (∀ (s : State) (who : Agent) (ctx : Nat), ctx < 1024 → s.hostGate who = true → ownFn who (s.ctxFn ctx) = true →
    ∃ t, exec (.xltFrctlRead who ctx) s = .next t ∧ t.replies = s.replies ++ [⟨who, xltReg ctx + 0x18, s.frCtl ctx,
    false⟩] ∧ t.xlt = { s.xlt with frFull := put 0 s.xlt.frFull ctx 0 }) ∧
  (∀ (s : State) (who : Agent) (ctx : Nat), ctx < 1024 → ownFn who (s.ctxFn ctx) = false → ∃ t,
    exec (.xltFrctlRead who ctx) s = .next t ∧ t.replies = s.replies ++ [⟨who, xltReg ctx + 0x18, 0, false⟩] ∧
    t.xlt = s.xlt)

/-- Coherence requests of the core dies at a home. A request for a sector nobody holds is granted at once: E for RD_S,
M for RD_X and UPG with the sector's data, M without data for ZERO; the directory then names the die its owner. A
sector in a transaction is answered RESP_RETRY; an owner elsewhere is snooped first; EVN takes a holder out.
Completes, under hypotheses on the state and the operands alone (exec answers a next state): rdS, rdX, upg, zero,
evn. Conventions of the model it rests on (its own choices, no rules of the spec): log 1, 16. (R366, R367, R370,
R371, R372, R373, R374, R375) -/
def Obligations.CoherenceAtTheHome : Prop :=
  (∀ (s : State) (p : Pkt), s.cohTakes (withMsg p 0x01) → 33 ≤ p.dst → p.dst ≤ 48 → s.zone p.addr = .direct →
    s.lostUnit (p.addr / 4096) = false → (s.homeOf p.dst).ent (sectorOf p.addr) = none →
    (s.homeOf p.dst).busyAny [sectorOf p.addr] = false → 53 ≤ p.src → p.src ≤ 56 → s.origin p = (p.src, p.tid) →
    look [] (s.homeOf p.dst).tickets (sectorOf p.addr) = [] → (s.homeOf p.dst).dir.length < 1048576 →
    s.mem.ckBad (sectorOf p.addr) = false → ∃ t, exec (.rdS p .none) s = .next t ∧
    (t.homeOf p.dst).ent (sectorOf p.addr) = some ⟨sectorOf p.addr, some (p.src - 53), [], none⟩ ∧
    t.carries ⟨.respData, p.dst, p.src, p.tid, 0, s.mem.isPoison (sectorOf p.addr),
    s.mem.readN (64 * sectorOf p.addr) 64 ++ ([2, 1] ++ List.replicate 14 0),
    [crc32c (s.mem.readN (64 * sectorOf p.addr) 64)], 0⟩ ∧ t.mem = s.mem) ∧
  (∀ (s : State) (p : Pkt), s.cohTakes (withMsg p 0x02) → 33 ≤ p.dst → p.dst ≤ 48 → s.zone p.addr = .direct →
    s.lostUnit (p.addr / 4096) = false → (s.homeOf p.dst).ent (sectorOf p.addr) = none →
    (s.homeOf p.dst).busyAny [sectorOf p.addr] = false → 53 ≤ p.src → p.src ≤ 56 → s.origin p = (p.src, p.tid) →
    look [] (s.homeOf p.dst).tickets (sectorOf p.addr) = [] → (s.homeOf p.dst).dir.length < 1048576 →
    s.mem.ckBad (sectorOf p.addr) = false → ∃ t, exec (.rdX p .none) s = .next t ∧
    (t.homeOf p.dst).ent (sectorOf p.addr) = some ⟨sectorOf p.addr, some (p.src - 53), [], none⟩ ∧
    t.carries ⟨.respData, p.dst, p.src, p.tid, 0, s.mem.isPoison (sectorOf p.addr),
    s.mem.readN (64 * sectorOf p.addr) 64 ++ ([4, 1] ++ List.replicate 14 0),
    [crc32c (s.mem.readN (64 * sectorOf p.addr) 64)], 0⟩ ∧ t.mem = s.mem) ∧
  (∀ (s : State) (p : Pkt), s.cohTakes (withMsg p 0x03) → 33 ≤ p.dst → p.dst ≤ 48 → s.zone p.addr = .direct →
    s.lostUnit (p.addr / 4096) = false → (s.homeOf p.dst).ent (sectorOf p.addr) = none →
    (s.homeOf p.dst).busyAny [sectorOf p.addr] = false → 53 ≤ p.src → p.src ≤ 56 → s.origin p = (p.src, p.tid) →
    look [] (s.homeOf p.dst).tickets (sectorOf p.addr) = [] → (s.homeOf p.dst).dir.length < 1048576 →
    s.mem.ckBad (sectorOf p.addr) = false → ∃ t, exec (.upg p .none) s = .next t ∧
    (t.homeOf p.dst).ent (sectorOf p.addr) = some ⟨sectorOf p.addr, some (p.src - 53), [], none⟩ ∧
    t.carries ⟨.respData, p.dst, p.src, p.tid, 0, s.mem.isPoison (sectorOf p.addr),
    s.mem.readN (64 * sectorOf p.addr) 64 ++ ([4, 1] ++ List.replicate 14 0),
    [crc32c (s.mem.readN (64 * sectorOf p.addr) 64)], 0⟩ ∧ t.mem = s.mem) ∧
  (∀ (s : State) (p : Pkt), s.cohTakes (withMsg p 0x04) → 33 ≤ p.dst → p.dst ≤ 48 → s.zone p.addr = .direct →
    s.lostUnit (p.addr / 4096) = false → (s.homeOf p.dst).ent (sectorOf p.addr) = none →
    (s.homeOf p.dst).busyAny [sectorOf p.addr] = false → 53 ≤ p.src → p.src ≤ 56 → s.origin p = (p.src, p.tid) →
    look [] (s.homeOf p.dst).tickets (sectorOf p.addr) = [] → (s.homeOf p.dst).dir.length < 1048576 → ∃ t,
    exec (.zero p) s = .next t ∧ (t.homeOf p.dst).ent (sectorOf p.addr) = some ⟨sectorOf p.addr, some (p.src - 53),
    [], none⟩ ∧ t.carries ⟨.respData, p.dst, p.src, p.tid, 0, false, ([4, 0] ++ List.replicate 14 0), [], 0⟩ ∧
    t.mem = s.mem) ∧
  (∀ (s : State) (p : Pkt) (e : DramErr) (o : Nat), s.cohTakes (withMsg p 0x02) → 33 ≤ p.dst → p.dst ≤ 48 →
    s.zone p.addr = .direct → s.lostUnit (p.addr / 4096) = false → 53 ≤ p.src → p.src ≤ 56 → s.origin p = (p.src,
    p.tid) → look [] (s.homeOf p.dst).tickets (sectorOf p.addr) = [] → (s.homeOf p.dst).busy = [] →
    (s.homeOf p.dst).ent (sectorOf p.addr) = some ⟨sectorOf p.addr, some o, [], none⟩ → o ≠ p.src - 53 → o < 4 →
    s.mayIssue p.dst → ∃ t, exec (.rdX p e) s = .next t ∧ (t.homeOf p.dst).busy = [⟨[sectorOf p.addr],
    [(sectorOf p.addr, o)], .grant (withMsg p 0x02) e⟩] ∧
    (t.homeOf p.dst).ent (sectorOf p.addr) = some ⟨sectorOf p.addr, some o, [], none⟩ ∧ (∃ r ∈ t.hub.outst,
    r.src = p.dst ∧ r.dst = 53 + o ∧ r.use = .snoop p.dst (64 * sectorOf p.addr) o)) ∧
  (∀ (s : State) (p : Pkt) (e : DramErr), s.cohTakes (withMsg p 0x01) → 33 ≤ p.dst → p.dst ≤ 48 →
    s.zone p.addr = .direct → (s.homeOf p.dst).busyAny [sectorOf p.addr] = true →
    leAt (withMsg p 0x01).payload 2 2 = 0 → ∃ t, exec (.rdS p e) s = .next t ∧
    t.carries (answer .respRetry p (s.homeOf p.dst).nextTicket false []) ∧
    look [] (t.homeOf p.dst).tickets (sectorOf p.addr) = look [] (s.homeOf p.dst).tickets (sectorOf p.addr) ++
    [(s.homeOf p.dst).nextTicket]
    ) ∧
  (∀ (s : State) (p : Pkt), s.cohTakes (withMsg p 0x05) → 33 ≤ p.dst → p.dst ≤ 48 → s.zone p.addr = .direct →
    s.lostUnit (p.addr / 4096) = false → look [] (s.homeOf p.dst).tickets (sectorOf p.addr) = [] → 53 ≤ p.src →
    p.src ≤ 56 → s.origin p = (p.src, p.tid) → (s.homeOf p.dst).busyAny [sectorOf p.addr] = false →
    (s.homeOf p.dst).ent (sectorOf p.addr) = some ⟨sectorOf p.addr, some (p.src - 53), [], none⟩ →
    wfTable {} s.stack = true → ∃ t, exec (.evn p) s = .next t ∧ (t.homeOf p.dst).ent (sectorOf p.addr) = none ∧
    t.carries (answer .respAck p 0 false []) ∧ t.mem = s.mem)

/-- Snoops at a core die, and the die's own requests. SNP_INV ends the copy and returns the data of an M holder,
SNP_SHR leaves the copy in F, SNP_FWD sends the sector to the requester and leaves it in S; CBO_ZERO, an eviction
and a resend act as their rules say. Completes, under hypotheses on the state and the operands alone (exec answers
a next state): snpInv, snpShr, snpFwd, cohResend, cboZero, dirtyLineEvict. Conventions of the model it rests on
(its own choices, no rules of the spec): log 1, 16, 17. (R364, R366, R367, R370, R372, R376, R382) -/
def Obligations.SnoopsAtTheDie : Prop :=
  (∀ (s : State) (p : Pkt) (c : CLine), 53 ≤ p.dst → p.dst ≤ 56 → p.src < 53 → s.takes (withMsg p 0x10) →
    s.awaits (p.dst - 53) (sectorOf p.addr) = false → (s.cdieOf (p.dst - 53)).line (sectorOf p.addr) = some c →
    c.st = .m → wfTable {} s.core = true → ∃ t, exec (.snpInv p []) s = .next t ∧
    t.cdie = upd {} s.cdie (p.dst - 53) (fun x => { x with lines := put none x.lines (sectorOf p.addr) none }) ∧
    t.carries (answer .respData p 0 c.poison c.data) ∧ (∀ i, i < 32 →
    (t.coreOf (32 * (p.dst - 53) + i)).lsr ≠ some (sectorOf p.addr))) ∧
  (∀ (s : State) (p : Pkt), 53 ≤ p.dst → p.dst ≤ 56 → p.src < 53 → s.takes (withMsg p 0x10) →
    s.awaits (p.dst - 53) (sectorOf p.addr) = false → (s.cdieOf (p.dst - 53)).line (sectorOf p.addr) = none → ∃ t,
    exec (.snpInv p []) s = .next t ∧ t.carries (answer .respAck p 0 false [])) ∧
  (∀ (s : State) (p : Pkt) (data : List Byte) (c : CLine), 53 ≤ p.dst → p.dst ≤ 56 → p.src < 53 →
    s.takes (withMsg p 0x11) → s.awaits (p.dst - 53) (sectorOf p.addr) = false →
    (s.cdieOf (p.dst - 53)).line (sectorOf p.addr) = some c → c.st = .e → data.length = 64 →
    s.evicting (p.dst - 53) (sectorOf p.addr) = false → ∃ t, exec (.snpShr p data) s = .next t ∧
    t.cdie = upd {} s.cdie (p.dst - 53) (fun x =>
    { x with lines := put none x.lines (sectorOf p.addr) (some ⟨.f, data, c.poison⟩) }) ∧
    t.carries (answer .respData p 0 c.poison data)) ∧
  (∀ (s : State) (p : Pkt) (c : CLine), 53 ≤ p.dst → p.dst ≤ 56 → p.src < 53 → s.takes (withMsg p 0x12) →
    s.awaits (p.dst - 53) (sectorOf p.addr) = false → (s.cdieOf (p.dst - 53)).line (sectorOf p.addr) = some c →
    s.fenced (leAt (withMsg p 0x12).payload 4 1 % 64) = false → (leAt (withMsg p 0x12).payload 4 1 % 64,
    leAt (withMsg p 0x12).payload 8 4) ∉ s.hub.dropped → ∃ t, exec (.snpFwd p) s = .next t ∧
    t.cdie = upd {} s.cdie (p.dst - 53) (fun x =>
    { x with lines := put none x.lines (sectorOf p.addr) (some { c with st := .s }) }) ∧
    t.carries ⟨.respData, p.dst, leAt (withMsg p 0x12).payload 4 1 % 64, leAt (withMsg p 0x12).payload 8 4, 0,
    c.poison, c.data ++ ([3, 1] ++ List.replicate 14 0), [crc32c c.data], 0⟩ ∧
    t.carries (answer .respAck p 0 false [])) ∧
  (∀ (s : State) (p : Pkt), 53 ≤ p.dst → p.dst ≤ 56 → s.takes (withMsg p 0x12) →
    s.awaits (p.dst - 53) (sectorOf p.addr) = true → ∃ t, exec (.snpFwd p) s = .next t ∧
    (t.cdieOf (p.dst - 53)).defer = (s.cdieOf (p.dst - 53)).defer ++ [withMsg p 0x12]) ∧
  (∀ (s : State) (die addr t0 msg core : Nat), look (0, 0, 0) (s.cdieOf die).tickets (sectorOf addr) = (t0 + 1,
    msg, core) → s.mayIssue (53 + die) → ∃ t, exec (.cohResend die addr) s = .next t ∧ (∃ o ∈ t.hub.outst,
    o.src = 53 + die ∧ o.use = .coh die core msg addr) ∧
    t.cdie = upd {} s.cdie die (fun x => { x with tickets := put (0, 0, 0) x.tickets (sectorOf addr) (0, 0, 0) })) ∧
  (∀ (s : State) (core addr : Nat) (c : CLine), (s.coreOf core).fence = false →
    s.evicting (core / 32) (sectorOf addr) = false → s.zone addr = .direct →
    (s.cdieOf (core / 32)).line (sectorOf addr) = some c → (c.st = .m ∨ c.st = .e) → ∃ t,
    exec (.cboZero core addr) s = .next t ∧ (t.cdieOf (core / 32)).line (sectorOf addr) = some ⟨.m,
    List.replicate 64 0#8, false⟩ ∧ t.hub = s.hub) ∧
  (∀ (s : State) (core addr : Nat), (s.coreOf core).fence = false →
    s.evicting (core / 32) (sectorOf addr) = false → s.zone addr = .direct →
    (s.cdieOf (core / 32)).line (sectorOf addr) = none → s.mayIssue (53 + core / 32) → ∃ t,
    exec (.cboZero core addr) s = .next t ∧ (∃ o ∈ t.hub.outst, o.src = 53 + core / 32 ∧
    o.use = .coh (core / 32) core 0x04 (64 * sectorOf addr)) ∧ t.cdie = s.cdie) ∧
  (∀ (s : State) (core addr : Nat), (s.coreOf core).fence = false →
    s.evicting (core / 32) (sectorOf addr) = false → s.zone addr = .host → ∃ t,
    exec (.cboZero core addr) s = .next t ∧ (t.coreOf core).exc = some (7, addr) ∧ t.hub = s.hub) ∧
  (∀ (s : State) (die addr dst : Nat) (c : CLine), s.evicting die (sectorOf addr) = false →
    (s.cdieOf die).line (sectorOf addr) = some c → c.st = .m → s.targetOf (64 * sectorOf addr) = some dst →
    s.fenced (53 + die) = false → s.fenced dst = false → s.mayIssue (53 + die) → wfTable {} s.core = true → ∃ t,
    exec (.dirtyLineEvict die addr []) s = .next t ∧ (t.cdieOf die).line (sectorOf addr) = some c ∧ (∀ i, i < 32 →
    (t.coreOf (32 * die + i)).lsr ≠ some (sectorOf addr)) ∧ t.carries ⟨.write, 53 + die, dst,
    look 0 s.hub.nextTid (53 + die), 64 * sectorOf addr, c.poison, c.data, sectorChecks 4 c.data, 0⟩ ∧
    (∃ o ∈ t.hub.outst, o.use = .evict die (64 * sectorOf addr)))

/-- CFENCE, store errors, cache errors of a core. CFENCE holds the core until its requests are answered; the first I/O
failure is kept with its reason and address, a further one sets OVER; a poisoned load traps; a clean way in error
is invalidated, a modified line is poisoned. Completes, under hypotheses on the state and the operands alone (exec
answers a next state): cfence, cfenceComplete, coreIoStoreError, coreIoLoadPoison, poisonException, serrstatClear,
cacheParityError, cacheDataError, cacheTagError. Conventions of the model it rests on (its own choices, no rules
of the spec): log 1, 17, 18, 41. (R365, R368, R369, R384, R386, R387, R389) -/
def Obligations.CoreFencesAndErrors : Prop :=
  (∀ (s : State) (core : Nat), ∃ t, exec (.cfence core) s = .next t ∧
    t.core = upd {} s.core core (fun x => { x with fence := true }) ∧ t.mem = s.mem) ∧
  (∀ (s : State) (core : Nat), s.coreBusy core = false → ∃ t, exec (.cfenceComplete core) s = .next t ∧
    t.core = upd {} s.core core (fun x => { x with fence := false })) ∧
  (∀ (s : State) (core : Nat), s.coreBusy core = true → ∃ t, exec (.cfenceComplete core) s = .next t ∧ t = s) ∧
  (∀ (s : State) (core addr reason : Nat), (s.coreOf core).serr = 0 → addr < 2 ^ 48 → reason < 256 → ∃ t,
    exec (.coreIoStoreError core addr reason) s = .next t ∧
    (t.coreOf core).serr = BitVec.ofNat 64 (256 * reason + 1) ∧ (t.coreOf core).serrAddr = addr ∧
    (t.coreOf core).irq20 = true) ∧
  (∀ (s : State) (core addr reason : Nat), (s.coreOf core).serr.toNat % 4 = 1 → ∃ t,
    exec (.coreIoLoadPoison core addr reason) s = .next t ∧
    (t.coreOf core).serr = BitVec.ofNat 64 (Nat.lor (Nat.lor (s.coreOf core).serr.toNat 4) 2) ∧
    (t.coreOf core).serrAddr = (s.coreOf core).serrAddr ∧ t.replies = s.replies ++ [⟨.core core, addr,
    0xFFFFFFFFFFFFFFFF, false⟩]) ∧
  (∀ (s : State) (core addr : Nat), ∃ t, exec (.poisonException core addr) s = .next t ∧
    (t.coreOf core).exc = some (19, addr) ∧ (t.coreOf core).lsr = none) ∧
  (∀ (s : State) (core : Nat), ∃ t, exec (.serrstatClear core 3#64) s = .next t ∧
    t.core = upd {} s.core core (fun x => { x with serr := x.serr &&& ~~~7#64 })) ∧
  (∀ (s : State) (core addr : Nat), (s.coreOf core).lsr = some (sectorOf addr) → wfTable {} s.core = true → ∃ t,
    exec (.cacheParityError core addr false) s = .next t ∧
    t.core = upd {} s.core core (fun x => { x with lsr := none }) ∧ (t.coreOf core).lsr = none ∧ t.cdie = s.cdie ∧
    t.mem = s.mem) ∧
  (∀ (s : State) (core addr : Nat) (instr : Bool), (s.coreOf core).lsr = none → ∃ t,
    exec (.cacheParityError core addr instr) s = .next t ∧ t = s) ∧
  (∀ (s : State) (die addr : Nat) (c : CLine), (s.cdieOf die).line (sectorOf addr) = some c → c.st = .m → ∃ t,
    exec (.cacheDataError die addr false) s = .next t ∧
    (t.cdieOf die).line (sectorOf addr) = some { c with poison := true } ∧ t.mem = s.mem) ∧
  (∀ (s : State) (die addr : Nat), ∃ t, exec (.cacheDataError die addr true) s = .next t ∧ t = s) ∧
  (∀ (s : State) (die addr : Nat) (c : CLine), (s.cdieOf die).line (sectorOf addr) = some c → c.st ≠ .m → ∃ t,
    exec (.cacheTagError die addr) s = .next t ∧
    t.cdie = upd {} s.cdie die (fun x => { x with lines := put none x.lines (sectorOf addr) none }) ∧ (∀ i, i < 32 →
    (t.coreOf (32 * die + i)).lsr ≠ some (sectorOf addr))) ∧
  (∀ (s : State) (die addr : Nat) (c : CLine), die < 4 → (s.cdieOf die).line (sectorOf addr) = some c → c.st = .m →
    (s.cdieOf die).rec_ = 0 → (s.cdieOf die).failed = false → ∃ t, exec (.cacheTagError die addr) s = .next t ∧
    (t.cdieOf die).rec_ = 1 ∧ t.fenced (53 + die) = true)

/-- Sources, claims and delivery of the event routers. An event on a source that can fire is gathered and makes it
pending at its COUNT, or TIME after the first; a pending source goes to an eligible core of lowest current
priority, and the pointer moves past that core. A claim returns the source delivered to the core and its count,
and makes it active; a completion frees the source, and one that became pending again is delivered at once; a core
reaches its own registers only. Completes, under hypotheses on the state and the operands alone (exec answers a
next state): routerSourceEvent, routerTimeExpiry, routerDelivery, evtIstatSet, evtIstatPendingClear, evtIsrcWrite,
evtIclaimRead, evtIclaimWrite, evtIthrWrite. Conventions of the model it rests on (its own choices, no rules of
the spec): log 1, 38, 54. (R392, R393, R394, R395, R396, R406, R407, R397, R398, R408) -/
def Obligations.RouterSourcesClaimsAndDelivery : Prop :=
  (∀ (s : State) (die src : Nat), srcFires src = true → ∃ t, exec (.routerSourceEvent die src) s = .next t ∧
    (t.srcOf die src).gathered = satAdd 4095 (s.srcOf die src).gathered 1 ∧
    (t.srcOf die src).pending = ((s.srcOf die src).pending || decide (max 1 (s.regFld (isrc die src) 31 20) ≤
    satAdd 4095 (s.srcOf die src).gathered 1))
    ) ∧
  (∀ (s : State) (die src : Nat), srcFires src = false → ∃ t, exec (.routerSourceEvent die src) s = .next t ∧ t = s) ∧
  (∀ (s : State) (die src : Nat), (s.srcOf die src).gathered ≠ 0 → s.regFld (isrc die src) 19 8 ≠ 0 → ∃ t,
    exec (.routerTimeExpiry die src) s = .next t ∧ (t.srcOf die src).pending = true ∧
    (t.srcOf die src).gathered = (s.srcOf die src).gathered) ∧
  (∀ (s : State) (die n i : Nat), (s.waiting die).find? (fun k => (s.pickCore die k).isSome) = some n →
    s.pickCore die n = some i → ∃ t, exec (.routerDelivery die) s = .next t ∧ (t.srcOf die n).delivered = some i ∧
    s.eligible die n i = true ∧ (∀ j, j < 32 → s.eligible die n j = true → s.curPri die i ≤ s.curPri die j) ∧
    (t.cdieOf die).router.ptr = (i + 1) % 32) ∧
  (∀ (s : State) (die : Nat), (s.waiting die).find? (fun k => (s.pickCore die k).isSome) = none → ∃ t,
    exec (.routerDelivery die) s = .next t ∧ t = s) ∧
  (∀ (s : State) (core die src : Nat), core < 128 → srcFires src = true → ∃ t,
    exec (.evtIstatSet core die src) s = .next t ∧
    (t.srcOf die src).gathered = satAdd 4095 (s.srcOf die src).gathered 1) ∧
  (∀ (s : State) (core die src : Nat), core < 128 → ∃ t, exec (.evtIstatPendingClear core die src) s = .next t ∧
    t.cdie = (s.updSrc die src (fun x => { x with pending := false, delivered := none, gathered := 0 })).cdie) ∧
  (∀ (s : State) (core die src : Nat) (v : Word), core < 128 → src < 4095 → wfTable {} s.cdie = true →
    wfTable {} (s.cdieOf die).router.src = true → ∃ t, exec (.evtIsrcWrite core die src v) s = .next t ∧
    t.regs = (s.setReg (isrc die src) v).regs ∧ (∀ x ∈ (t.cdieOf die).router.src, ∀ i, x.2.delivered = some i →
    t.eligible die x.1 i = true)) ∧
  (∀ (s : State) (core die : Nat) (v : Word), ∃ t, exec (.evtIsrcWrite core die 4095 v) s = .next t ∧ t = s) ∧
  (∀ (s : State) (core n : Nat), s.claimable (core / 32) (core % 32) = some n → ∃ t,
    exec (.evtIclaimRead core core) s = .next t ∧ t.replies = s.replies ++ [⟨.core core, iclaim core,
    BitVec.ofNat 64 (at_ (s.srcOf (core / 32) n).gathered 20 + n), false⟩] ∧
    t.srcOf (core / 32) n = { gathered := 0, pending := false, delivered := none, active := some (core % 32) }) ∧
  (∀ (s : State) (core : Nat), s.claimable (core / 32) (core % 32) = none → ∃ t,
    exec (.evtIclaimRead core core) s = .next t ∧ t.replies = s.replies ++ [⟨.core core, iclaim core, 0xFFF,
    false⟩] ∧ t.cdie = s.cdie) ∧
  (∀ (s : State) (core own : Nat), core ≠ own → ∃ t, exec (.evtIclaimRead core own) s = .next t ∧
    t.replies = s.replies ++ [⟨.core core, iclaim own, 0, false⟩] ∧ t.cdie = s.cdie) ∧
  (∀ (s : State) (core n : Nat) (v : Word), fld v 11 0 = n → (s.srcOf (core / 32) n).active = some (core % 32) →
    (s.srcOf (core / 32) n).pending = false → ∃ t, exec (.evtIclaimWrite core core v) s = .next t ∧
    t.cdie = (s.updSrc (core / 32) n (fun x => { x with active := none })).cdie) ∧
  (∀ (s : State) (core n : Nat) (v : Word), fld v 11 0 = n → (s.srcOf (core / 32) n).active = some (core % 32) →
    (s.srcOf (core / 32) n).pending = true →
    (s.updSrc (core / 32) n (fun x => { x with active := none })).eligible (core / 32) n (core % 32) = true → ∃ t,
    exec (.evtIclaimWrite core core v) s = .next t ∧ (t.srcOf (core / 32) n).delivered = some (core % 32) ∧
    (t.srcOf (core / 32) n).active = none) ∧
  (∀ (s : State) (core own : Nat) (v : Word), core ≠ own → ∃ t, exec (.evtIclaimWrite core own v) s = .next t ∧
    s.reports t (ev 0x80 none (whoArg (.core core)) [iclaim own]) ∧ t.regs = s.regs) ∧
  (∀ (s : State) (core : Nat) (v : Word), wfTable {} s.cdie = true →
    wfTable {} (s.cdieOf (core / 32)).router.src = true → ∃ t, exec (.evtIthrWrite core core v) s = .next t ∧
    t.regs = (s.setReg (ithr core) (v &&& 0xFF#64)).regs ∧ (∀ x ∈ (t.cdieOf (core / 32)).router.src, ∀ i,
    x.2.delivered = some i → t.eligible (core / 32) x.1 i = true)) ∧
  (∀ (s : State) (core own : Nat) (v : Word), core ≠ own → ∃ t, exec (.evtIthrWrite core own v) s = .next t ∧
    s.reports t (ev 0x80 none (whoArg (.core core)) [ithr own]) ∧ t.regs = s.regs)

/-- The event FIFOs of the core dies and of the host. An item that its class mask admits is inserted with its words,
or withheld by its rate; a read takes the next word of the reader's open item, or opens the next; a flush empties;
LOST clears when read; at the end of a second the withheld items are summarised. Completes, under hypotheses on
the state and the operands alone (exec answers a next state): coreFifoInsert, evtCpopRead, evtCctlFlush,
evtCstatRead, hostFifoInsert, evtPopRead, evtCtlFlush, evtLostRead, eventSecondEnd. Conventions of the model it
rests on (its own choices, no rules of the spec): log 1, 38. (R400, R401, R402, R404, R405, R482, R483, R485,
R486, R561) -/
def Obligations.EventFifos : Prop :=
  (∀ (s : State) (die : Nat) (e : EvItem), e.pri < 4 → bitOf (s.regFld (cctl die) 47 32) e.cls = false → ∃ t,
    exec (.coreFifoInsert die e) s = .next t ∧
    (t.cdieOf die).fifo = (s.cdieOf die).fifo.post (s.regFld (cctl die) 47 32) e (evWords s.time e) ∧
    ((s.cdieOf die).fifo.takes (s.regFld (cctl die) 47 32) e = true →
    (t.srcOf die (256 + e.pri)).gathered = satAdd 4095 (s.srcOf die (256 + e.pri)).gathered 1) ∧ t.hfifo = s.hfifo) ∧
  (∀ (s : State) (die : Nat) (e : EvItem), bitOf (s.regFld (cctl die) 47 32) e.cls = true → ∃ t,
    exec (.coreFifoInsert die e) s = .next t ∧ t.hfifo = s.hfifo ∧ t.mem = s.mem) ∧
  (∀ (s : State) (core die : Nat) (w : Word) (r : List Word), look [] (s.cdieOf die).fifo.opened core = w :: r →
    ∃ t, exec (.evtCpopRead core die) s = .next t ∧ t.replies = s.replies ++ [⟨.core core, cpop die, w, false⟩] ∧
    t.cdie = upd {} s.cdie die (fun x => { x with fifo := { x.fifo with opened := put [] x.fifo.opened core r } })) ∧
  (∀ (s : State) (core die : Nat) (w : Word) (r : List Word), look [] (s.cdieOf die).fifo.opened core = [] →
    firstItem (s.cdieOf die).fifo.items = some (w :: r) → ∃ t, exec (.evtCpopRead core die) s = .next t ∧
    t.replies = s.replies ++ [⟨.core core, cpop die, w, false⟩] ∧
    t.cdie = upd {} s.cdie die (fun x =>
    { x with
        fifo := { x.fifo with
            items := dropFirst (fun i => i == w :: r) x.fifo.items, opened := put [] x.fifo.opened core r } })
    ) ∧
  (∀ (s : State) (core die : Nat), look [] (s.cdieOf die).fifo.opened core = [] → (s.cdieOf die).fifo.items = [] →
    ∃ t, exec (.evtCpopRead core die) s = .next t ∧ t.replies = s.replies ++ [⟨.core core, cpop die, 0, false⟩]) ∧
  (∀ (s : State) (core die : Nat), core < 128 → ∃ t, exec (.evtCctlFlush core die) s = .next t ∧
    t.cdie = upd {} s.cdie die (fun x => { x with fifo := { x.fifo with items := [], opened := [] } })) ∧
  (∀ (s : State) (core die : Nat), ∃ t, exec (.evtCstatRead core die) s = .next t ∧
    t.replies = s.replies ++ [⟨.core core, cpop die + 0x10,
    BitVec.ofNat 64 (at_ (s.cdieOf die).fifo.lost 32 + (s.cdieOf die).fifo.words), false⟩] ∧
    t.cdie = upd {} s.cdie die (fun x => { x with fifo := { x.fifo with lost := 0 } })) ∧
  (∀ (s : State) (e : EvItem), ∃ t, exec (.hostFifoInsert e) s = .next t ∧
    t.hfifo = s.hfifo.post (s.regFld oEvtCtl 47 32) e (evWords s.time e) ∧ t.cdie = s.cdie ∧ t.mem = s.mem) ∧
  (∀ (s : State) (who : Agent) (w : Word) (r : List Word), s.hostGate who = true → isPf0OrCore who = true →
    look [] s.hfifo.opened 0 = [] → firstItem s.hfifo.items = some (w :: r) → ∃ t,
    exec (.evtPopRead who) s = .next t ∧ t.replies = s.replies ++ [⟨who, 0x0400000, w, false⟩] ∧
    t.hfifo =
    { s.hfifo with items := dropFirst (fun i => i == w :: r) s.hfifo.items, opened := put [] s.hfifo.opened 0 r }
    ) ∧
  (∀ (s : State) (who : Agent), isPf0OrCore who = false → ∃ t, exec (.evtPopRead who) s = .next t ∧
    t.replies = s.replies ++ [⟨who, 0x0400000, 0, false⟩] ∧ t.hfifo = s.hfifo) ∧
  (∀ (s : State) (who : Agent), s.hostGate who = true → isPf0OrCore who = true → ∃ t,
    exec (.evtCtlFlush who) s = .next t ∧ t.hfifo = { s.hfifo with items := [], opened := [] }) ∧
  (∀ (s : State) (who : Agent), s.hostGate who = true → isPf0OrCore who = true → ∃ t,
    exec (.evtLostRead who) s = .next t ∧ t.replies = s.replies ++ [⟨who, 0x0400010, BitVec.ofNat 64 s.hfifo.lost,
    false⟩] ∧ t.hfifo = { s.hfifo with lost := 0 }) ∧
  (∀ (s : State), s.hfifo.withheld = [] → (∀ d, d < 4 → (s.cdieOf d).fifo.withheld = []) → ∃ t,
    exec (.eventSecondEnd) s = .next t ∧ t.hfifo = { s.hfifo with posted := [] }) ∧
  (∀ (s : State) (c n : Nat), s.hfifo.withheld = [(c, n)] → ∃ t, exec (.eventSecondEnd) s = .next t ∧
    t.hfifo = ({ s.hfifo with posted := [], withheld := [] } : Fifo).post (s.regFld oEvtCtl 47 32) (ev 0x0F none n
    [c]) (evWords s.time (ev 0x0F none n [c]))
    )

/-- The host link and detaches. A link that goes down, a hot reset, a function level reset of PF0 and PERST_N after
READY hold every attached session and mask every vector; an FLR of a virtual function holds that one only; a link
that comes up again carries what waited; an acknowledged TLP is done. Completes, under hypotheses on the state and
the operands alone (exec answers a next state): dlDown, hotReset, flrPf0, flrVf, perstNAssert, linkRecoveryEnter,
linkL0Return, tlpAcked, hostReadCompletion, hostDieFailure. Conventions of the model it rests on (its own choices,
no rules of the spec): log 1, 26, 32. (R413, R416, R417, R418, R419, R34, R435, R552) -/
def Obligations.LinkAndDetach : Prop :=
  (∀ (s : State), ∃ t, exec (.dlDown) s = .next t ∧ t.hif.state = 0 ∧
    t.hif.detaches = satAdd 0xFFFF s.hif.detaches 1 ∧ (∀ f, f < 32 → (s.sessOf f).state = .attached →
    (t.sessOf f).state = .held) ∧ (∀ v ∈ t.msix, 32 ≤ v.1 / 4096)) ∧
  (∀ (s : State), ∃ t, exec (.hotReset) s = .next t ∧ t.hif.state = 1 ∧
    t.hif.detaches = satAdd 0xFFFF s.hif.detaches 1 ∧ (∀ f, f < 32 → (s.sessOf f).state = .attached →
    (t.sessOf f).state = .held) ∧ (∀ v ∈ t.msix, 32 ≤ v.1 / 4096)) ∧
  (∀ (s : State), ∃ t, exec (.flrPf0) s = .next t ∧ t.hif.detaches = satAdd 0xFFFF s.hif.detaches 1 ∧ (∀ f,
    f < 32 → (s.sessOf f).state = .attached → (t.sessOf f).state = .held) ∧ (∀ v ∈ t.msix, 32 ≤ v.1 / 4096)) ∧
  (∀ (s : State) (fn : Nat), 0 < fn → fn < 32 → (s.sessOf fn).state = .attached → ∃ t,
    exec (.flrVf fn) s = .next t ∧ (t.sessOf fn).state = .held ∧ (t.sessOf fn).flrDetached = true ∧ (∀ g, g < 32 →
    g ≠ fn → t.sessOf g = s.sessOf g) ∧ t.hif.detaches = satAdd 0xFFFF s.hif.detaches 1) ∧
  (∀ (s : State), s.glb.ready = true → s.vinOut = false → ∃ t, exec (.perstNAssert) s = .next t ∧
    t.boot.perst = true ∧ t.boot.configReady = false ∧ t.hif.state = 0 ∧ (∀ f, f < 32 →
    (s.sessOf f).state = .attached → (t.sessOf f).state = .held)) ∧
  (∀ (s : State), s.glb.ready = false → s.vinOut = false → ∃ t, exec (.perstNAssert) s = .next t ∧
    t.boot = { s.boot with perst := true, configReady := false } ∧ t.hif = { s.hif with state := 0 } ∧
    t.sess = s.sess) ∧
  (∀ (s : State), s.hif.state = 2 → ∃ t, exec (.linkRecoveryEnter) s = .next t ∧ t.hif = { s.hif with state := 1 }) ∧
  (∀ (s : State) (speed width : Nat) (flit : Bool), speed < 16 → 2 ≤ width → width < 16 →
    s.boot.hostEnabled = true → s.siteFailed 57 = false → s.boot.perst = false → s.hif.out = [] →
    s.disp.fetched = [] → ∃ t, exec (.linkL0Return speed width flit) s = .next t ∧
    t.hif = { s.hif with state := 2, speed := speed, width := width, flit := flit }) ∧
  (∀ (s : State) (speed width : Nat) (flit : Bool), width < 2 → s.boot.hostEnabled = true →
    s.siteFailed 57 = false → s.boot.perst = false → ∃ t, exec (.linkL0Return speed width flit) s = .next t ∧
    t.hif = { s.hif with state := 0 }) ∧
  (∀ (s : State) (x : HTlp) (r : List HTlp), s.hif.tlps = x :: r → ∃ t, exec (.tlpAcked) s = .next t ∧
    t.hif.tlps = r ∧ t.mem = s.mem) ∧
  (∀ (s : State) (fn a ring seq : Nat) (d : List Byte) (ep : Bool) (m : TlpAt) (r : List HTlp),
    s.hif.tlps = .write fn a d ep (.record ring seq) m :: r → ∃ t, exec (.tlpAcked) s = .next t ∧
    t.disp.cmds = s.disp.cmds.filter (fun c => !(c.ring == ring && c.seq == seq && c.phase == .written))) ∧
  (∀ (s : State) (tag : Nat) (data : List Byte) (p : Pkt), s.readOf tag = some (.pkt p) → p.op = .read →
    data.length = p.rdLen → s.fenced p.src = false → s.fenced p.dst = false → (p.src, p.tid) ∉ s.hub.dropped → ∃ t,
    exec (.hostReadCompletion tag data true) s = .next t ∧ t.carries (answer .respData p 0 false data) ∧
    (look none t.hif.reads tag = none ∨ wfTable none s.hif.reads = false) ∧ t.mem = s.mem) ∧
  (∀ (s : State) (tag ring seq off bus : Nat) (data : List Byte) (c : Cmd),
    s.readOf tag = some (.copy ring seq off bus) → s.cmdOf ring seq = some c → ∃ t,
    exec (.hostReadCompletion tag data true) s = .next t ∧ (t.cmdOf ring seq).map Cmd.got = some (c.got ++ [(off,
    data, false)])) ∧
  (∀ (s : State), s.siteFailed 57 = false → s.fenced 57 = false → ∃ t, exec (.hostDieFailure) s = .next t ∧
    t.fenced 57 = true ∧ look 0 t.glb.site 57 = 3 ∧ t.hif.state = 0 ∧ (∀ f, f < 32 →
    (s.sessOf f).state = .attached → (t.sessOf f).state = .held))

/-- Sessions: OPEN, CLAIM, RELEASE, the hold and redelivery. OPEN attaches a session that is none, with a token that
is a free value; CLAIM with the token attaches a held one, a wrong token is counted and holds further claims off;
RELEASE and the end of the hold end the session; redelivery works its list item by item and frees a copy once its
status is acknowledged. Completes, under hypotheses on the state and the operands alone (exec answers a next
state): openSession, claim, claimDone, claimRefusalEnd, release, holdExpiry, redeliver, redeliverItemDone,
tlpAcked, hifSessctlRead, hifLinkstatRead. Conventions of the model it rests on (its own choices, no rules of the
spec): log 1, 2, 32. (R424, R425, R426, R427, R428, R435, R437) -/
def Obligations.Sessions : Prop :=
  (∀ (s : State) (who : Agent) (fn : Nat), fn < 32 → s.hostGate who = true → ownFn who fn = true →
    (s.sessOf fn).state = .none → ∃ t, exec (.openSession who fn) s = .next t ∧ (t.sessOf fn).state = .attached ∧
    (t.sessOf fn).token = Config.freeWord s.free 1 ∧ t.free = s.free + 1) ∧
  (∀ (s : State) (who : Agent) (fn : Nat), fn < 32 → s.hostGate who = true → ownFn who fn = true →
    (s.sessOf fn).state ≠ .none → ∃ t, exec (.openSession who fn) s = .next t ∧ t.sess = s.sess ∧
    s.reports t (ev 0x80 none (whoArg who) [sessReg fn])) ∧
  (∀ (s : State) (who : Agent) (fn : Nat), fn < 32 → s.hostGate who = true → ownFn who fn = true →
    (s.sessOf fn).state = .held → (s.sessOf fn).claiming = false → (s.sessOf fn).refusal = false →
    (s.sessOf fn).offered = (s.sessOf fn).token → ∃ t, exec (.claim who fn) s = .next t ∧
    t.sess = upd {} s.sess fn (fun x => { x with claiming := true })) ∧
  (∀ (s : State) (who : Agent) (fn : Nat), fn < 32 → s.hostGate who = true → ownFn who fn = true →
    (s.sessOf fn).state = .held → (s.sessOf fn).claiming = false → (s.sessOf fn).refusal = false →
    (s.sessOf fn).offered ≠ (s.sessOf fn).token → ∃ t, exec (.claim who fn) s = .next t ∧
    (t.sessOf fn).state = .held ∧ (t.sessOf fn).claiming = false ∧ (t.sessOf fn).refusal = true ∧
    (t.sessOf fn).fails = satAdd 0xFF (s.sessOf fn).fails 1 ∧ s.reports t (ev 0x41 (some 57) fn [])) ∧
  (∀ (s : State) (who : Agent) (fn : Nat), fn < 32 → s.hostGate who = true → ownFn who fn = true →
    (s.sessOf fn).refusal = true → ∃ t, exec (.claim who fn) s = .next t ∧ t.sess = s.sess ∧
    s.reports t (ev 0x80 none (whoArg who) [sessReg fn])) ∧
  (∀ (s : State) (fn : Nat), (s.sessOf fn).claiming = true → s.hif.state = 2 → ∃ t,
    exec (.claimDone fn) s = .next t ∧ (t.sessOf fn).state = .attached ∧ (t.sessOf fn).claiming = false ∧
    (t.sessOf fn).token = (s.sessOf fn).token) ∧
  (∀ (s : State) (fn : Nat), ∃ t, exec (.claimRefusalEnd fn) s = .next t ∧
    t.sess = upd {} s.sess fn (fun x => { x with refusal := false })) ∧
  (∀ (s : State) (who : Agent) (fn : Nat), fn < 32 → s.hostGate who = true → ownFn who fn = true →
    s.held fn = true → wfTable {} s.sess = true → ∃ t, exec (.release who fn) s = .next t ∧
    (t.sessOf fn).state = .none ∧ (s.disp.cmds = [] → s.reports t (ev 0x42 (some 57) fn [])) ∧ (∀ x ∈ t.hif.staged,
    x.fn ≠ fn)) ∧
  (∀ (s : State) (fn : Nat), s.held fn = true → (s.sessOf fn).claiming = false → wfTable {} s.sess = true → ∃ t,
    exec (.holdExpiry fn) s = .next t ∧ (t.sessOf fn).state = .none ∧ (s.disp.cmds = [] →
    s.reports t (ev 0x42 (some 57) fn []))) ∧
  (∀ (s : State) (fn : Nat), (s.sessOf fn).claiming = true → ∃ t, exec (.holdExpiry fn) s = .next t ∧ t = s) ∧
  (∀ (s : State) (who : Agent) (fn : Nat) (items : List RedelItem), fn < 32 → s.hostGate who = true →
    ownFn who fn = true → (s.sessOf fn).state = .attached → (s.sessOf fn).redelBusy = false → items.length < 4096 →
    s.hif.state ≠ 2 → ∃ t, exec (.redeliver who fn items.length items) s = .next t ∧
    (t.sessOf fn).redel = (List.range items.length).zip items ∧ (t.sessOf fn).redelBusy = true ∧ t.hif = s.hif) ∧
  (∀ (s : State) (who : Agent) (fn : Nat) (i : RedelItem), fn < 32 → s.hostGate who = true → ownFn who fn = true →
    (s.sessOf fn).state = .attached → (s.sessOf fn).redelBusy = false → s.hif.state = 2 →
    redelCheck s fn i = some 1 → ∃ t, exec (.redeliver who fn 1 [i]) s = .next t ∧
    t.hif.tlps = s.hif.tlps ++ [.write fn (s.regFld (sessReg fn + 0x10) 63 6 * 64 + 11) [1] false (.redelStatus
    none) (.untranslated none)]
    ) ∧
  (∀ (s : State) (fn idx : Nat) (i : RedelItem) (c : Staged), (s.sessOf fn).redelBusy = true →
    (s.sessOf fn).state = .attached → s.hif.state = 2 → (s.sessOf fn).redel = [(idx, i)] →
    (s.sessOf fn).redelSent = true → s.stagedOf i.ring i.seq i.region = some c → c.left = 0 → ∃ t,
    exec (.redeliverItemDone fn) s = .next t ∧
    t.hif.tlps = s.hif.tlps ++ [.write fn (s.regFld (sessReg fn + 0x10) 63 6 * 64 + 32 * idx + 11) [0] false
    (.redelStatus (some (i.ring,
    i.seq, i.region))) (.untranslated none)] ∧ t.hif.staged = s.hif.staged ∧ (t.sessOf fn).redel = []) ∧
  (∀ (s : State) (fn a ring seq region : Nat) (d : List Byte) (ep : Bool) (m : TlpAt) (r : List HTlp),
    s.hif.tlps = .write fn a d ep (.redelStatus (some (ring, seq, region))) m :: r → ∃ t,
    exec (.tlpAcked) s = .next t ∧
    t.hif = { s.hif with tlps := r, staged := s.hif.staged.filter (fun y => !y.isFor ring seq region) }) ∧
  (∀ (s : State) (who : Agent) (fn : Nat), fn < 32 → s.hostGate who = true → ownFn who fn = true → ∃ t,
    exec (.hifSessctlRead who fn) s = .next t ∧ t.replies = s.replies ++ [⟨who, sessReg fn, s.sessCtl fn, false⟩] ∧
    t.sess = upd {} s.sess fn (fun x => { x with fails := 0 })) ∧
  (∀ (s : State) (who : Agent), s.hostGate who = true → isPf0OrCore who = true → ∃ t,
    exec (.hifLinkstatRead who) s = .next t ∧ t.replies = s.replies ++ [⟨who, 0x0100000, s.linkStat, false⟩] ∧
    t.hif = { s.hif with detaches := 0 })

/-- Writes through the placement aperture and its registers. A write that no valid region covers, that leaves its
region, comes from another requester or carries EP is dropped and logged with its reason; an accepted one goes to
its homes by its translation and is counted to its object; a region is checked when it becomes valid, and drains
when it ends. Completes, under hypotheses on the state and the operands alone (exec answers a next state):
placementWrite, ideCheckFail, bar2Read, hifPlogRead, hifPlapValidSet, hifPlapValidClear, placementDrainDone.
Conventions of the model it rests on (its own choices, no rules of the spec): log 1, 27, 28. (R415, R429, R430,
R431, R432, R433, R434, R438) -/
def Obligations.PlacementAperture : Prop :=
  (∀ (s : State) (rid off : Nat) (data : List Byte) (ep : Bool), tlpOk off data.length = true →
    s.winFor off = none → ∃ t, exec (.placementWrite rid off data ep) s = .next t ∧
    t.hif.plog.dropped = satAdd 0xFFFFFFFF s.hif.plog.dropped 1 ∧ t.mem = s.mem ∧ t.hub = s.hub ∧
    (s.hif.plog.captured = false → t.hif.plog.reason = 1 ∧ t.hif.plog.rid = rid % 65536)) ∧
  (∀ (s : State) (rid off i : Nat) (data : List Byte) (ep : Bool), tlpOk off data.length = true →
    s.winFor off = some i → (s.win i).base + (s.win i).size < off + data.length → ∃ t,
    exec (.placementWrite rid off data ep) s = .next t ∧
    t.hif.plog.dropped = satAdd 0xFFFFFFFF s.hif.plog.dropped 1 ∧ t.mem = s.mem ∧ t.hub = s.hub ∧
    (s.hif.plog.captured = false → t.hif.plog.reason = 3 ∧ t.hif.plog.rid = rid % 65536)) ∧
  (∀ (s : State) (rid off i : Nat) (data : List Byte) (ep : Bool), tlpOk off data.length = true →
    s.winFor off = some i → off + data.length ≤ (s.win i).base + (s.win i).size →
    Nat.land rid (s.win i).mask ≠ Nat.land (s.win i).rid (s.win i).mask → ∃ t,
    exec (.placementWrite rid off data ep) s = .next t ∧
    t.hif.plog.dropped = satAdd 0xFFFFFFFF s.hif.plog.dropped 1 ∧ t.mem = s.mem ∧ t.hub = s.hub ∧
    (s.hif.plog.captured = false → t.hif.plog.reason = 2 ∧ t.hif.plog.rid = rid % 65536)) ∧
  (∀ (s : State) (rid off i : Nat) (data : List Byte), tlpOk off data.length = true → s.winFor off = some i →
    off + data.length ≤ (s.win i).base + (s.win i).size →
    Nat.land rid (s.win i).mask = Nat.land (s.win i).rid (s.win i).mask →
    (s.sessOf (s.ctxFn (s.win i).ctx)).flrDetached = false → ∃ t,
    exec (.placementWrite rid off data true) s = .next t ∧
    t.hif.plog.dropped = satAdd 0xFFFFFFFF s.hif.plog.dropped 1 ∧ t.mem = s.mem ∧ t.hub = s.hub ∧
    (s.hif.plog.captured = false → t.hif.plog.reason = 6 ∧ t.hif.plog.rid = rid % 65536)) ∧
  (∀ (s : State) (rid off i a dst : Nat) (data : List Byte) (e : TlbEnt), tlpOk off data.length = true →
    s.winFor off = some i → off + data.length ≤ (s.win i).base + (s.win i).size →
    Nat.land rid (s.win i).mask = Nat.land (s.win i).rid (s.win i).mask →
    (s.sessOf (s.ctxFn (s.win i).ctx)).flrDetached = false → (∀ p ∈ s.hif.placeWait, p.n ≠ s.hif.placeNext ∧
    p.rid ≠ rid) → s.stalledWait ⟨.place s.hif.placeNext, (s.win i).dva + (off - (s.win i).base), true⟩ = false →
    (s.win i).dva + (off - (s.win i).base) < 2 ^ 55 →
    tlbFind (s.win i).ctx (((s.win i).dva + (off - (s.win i).base)) / 0x10000) s.xlt.checker = some e →
    e.ans ((s.win i).dva + (off - (s.win i).base)) true = .hit (.dev a) → off % 4096 + data.length ≤ 4096 →
    data.length = 64 → a % 64 = 0 → s.targetOf a = some dst → s.fenced 57 = false → s.fenced dst = false →
    s.mayIssue 57 → ∃ t, exec (.placementWrite rid off data false) s = .next t ∧
    t.counted = s.counted ++ [⟨s.hif.placeNext, ((s.win i).count 64).1, ((s.win i).count 64).2, 1, some i, none,
    none⟩] ∧ t.carries ⟨.write, 57, dst, look 0 s.hub.nextTid 57, a, false, data, [crc32c data], 0⟩ ∧
    t.hif.placeNext = s.hif.placeNext + 1 ∧ t.hif.placeWait = s.hif.placeWait ∧ t.hif.plog = s.hif.plog) ∧
  (∀ (s : State) (rid off : Nat), ∃ t, exec (.ideCheckFail rid off true) s = .next t ∧
    t.hif.aer = satAdd 0xFFFF s.hif.aer 1 ∧ t.hif.plog.dropped = satAdd 0xFFFFFFFF s.hif.plog.dropped 1 ∧
    t.mem = s.mem) ∧
  (∀ (s : State) (rid off : Nat), ∃ t, exec (.ideCheckFail rid off false) s = .next t ∧
    t.hif = { s.hif with aer := satAdd 0xFFFF s.hif.aer 1 }) ∧
  (∀ (s : State) (rid off : Nat), ∃ t, exec (.bar2Read rid off) s = .next t ∧
    t.hif = { s.hif with advisory := satAdd 0xFFFF s.hif.advisory 1, cpls := s.hif.cpls ++ [.cpl rid true] } ∧
    t.mem = s.mem) ∧
  (∀ (s : State) (who : Agent), s.hostGate who = true → isPf0OrCore who = true → ∃ t,
    exec (.hifPlogRead who) s = .next t ∧ t.replies = s.replies ++ [⟨who, 0x0100020, s.plogWord, false⟩] ∧
    t.hif.plog = { s.hif.plog with dropped := 0, captured := false, since := 0 } ∧
    s.reports t (ev 0x43 (some 57) s.hif.plog.since [])) ∧
  (∀ (s : State) (who : Agent) (n : Nat) (v : Word), n < 4096 → s.hostGate who = true → isPf0OrCore who = true →
    (s.win n).valid = false →
    (s.setReg (plap n) (v &&& 0x000000FFFFFF0000#64)).winOk n ((s.setReg (plap n) (v &&&
    0x000000FFFFFF0000#64)).win n) = true →
    ∃ t, exec (.hifPlapValidSet who n v) s = .next t ∧
    t.reg (plap n) = ((v &&& 0x000000FFFFFF0000#64) ||| 0x8000000000000000#64) ∧ t.hfifo = s.hfifo) ∧
  (∀ (s : State) (who : Agent) (n : Nat) (v : Word), n < 4096 → s.hostGate who = true → isPf0OrCore who = true →
    (s.win n).valid = false →
    (s.setReg (plap n) (v &&& 0x000000FFFFFF0000#64)).winOk n ((s.setReg (plap n) (v &&&
    0x000000FFFFFF0000#64)).win n) = false →
    ∃ t, exec (.hifPlapValidSet who n v) s = .next t ∧
    t.regs = (s.setReg (plap n) (v &&& 0x000000FFFFFF0000#64)).regs ∧
    s.reports t (ev 0x80 none (whoArg who) [plap n])) ∧
  (∀ (s : State) (who : Agent) (n : Nat), n < 4096 → s.hostGate who = true → isPf0OrCore who = true →
    (s.win n).valid = true → s.winDraining n = true → ∃ t, exec (.hifPlapValidClear who n) s = .next t ∧
    t.regs = (s.setReg (plap n) (s.reg (plap n) &&& 0x7FFFFFFFFFFFFFFF#64)).regs ∧ has n t.hif.plapDrain = true) ∧
  (∀ (s : State) (n : Nat), s.winDraining n = false → ∃ t, exec (.placementDrainDone n) s = .next t ∧
    t.hif = { s.hif with plapDrain := s.hif.plapDrain.filter (fun j => j != n) })

/-- Polling, fetching, checking and accepting descriptors. A poll reads the doorbell lines of the polled rings; a set
bit reads the ring's header; PROD moves the fetch within the ring's bounds; a descriptor is checked and journaled,
and accepted once every mirror has acknowledged, with its acceptance index written. Completes, under hypotheses on
the state and the operands alone (exec answers a next state): doorbellPoll, doorbellLineRead, prodRead,
devmemRingNotify, descriptorFetched, journalEntryAcked. Conventions of the model it rests on (its own choices, no
rules of the spec): log 1, 4, 36. (R445, R447, R448, R450, R453, R454, R455, R456, R457) -/
def Obligations.DoorbellsAndAcceptance : Prop :=
  (∀ (s : State), s.hif.state ≠ 2 → ∃ t, exec (.doorbellPoll) s = .next t ∧ t = s) ∧
  (∀ (s : State) (r : Nat), s.hif.state = 2 → s.hif.npWait = [] ∧
    s.hif.reads.length + s.xlt.ats.length < s.tagMax → s.glb.ready = true → s.disp.accepting = true →
    s.ringsOn = [r] → s.polled r = true → (s.ringOf r).stopped = false →
    s.reading (.line (s.ringFn r) (r / 512)) = false → ∃ t, exec (.doorbellPoll) s = .next t ∧
    t.hif.tlps = s.hif.tlps ++ [.read (s.ringFn r) (s.regFld (sessReg (s.ringFn r) + 0x18) 63 9 * 512 + 64 * (r /
    512)) 64 s.hif.nextTag (.untranslated none)] ∧
    t.reading (.line (s.ringFn r) (r / 512)) = true) ∧
  (∀ (s : State) (fn line i : Nat) (bits : BitVec 512), s.reading (.line fn line) = true → s.hif.state = 2 →
    s.hif.npWait = [] ∧ s.hif.reads.length + s.xlt.ats.length < s.tagMax → (∀ j, j < 512 →
    bits.getLsbD j = (j == i)) → i < 512 → s.polled (512 * line + i) = true → s.ringFn (512 * line + i) = fn →
    s.reading (.prod (512 * line + i)) = false → ∃ t, exec (.doorbellLineRead fn line bits) s = .next t ∧
    t.hif.tlps = s.hif.tlps ++ [.read fn (s.rHdr (512 * line + i)) (if s.consStops (512 * line + i) then 16 else
    8) s.hif.nextTag (s.untrans (s.ringCtx (512 * line + i)))] ∧
    t.reading (.prod (512 * line + i)) = true) ∧
  (∀ (s : State) (ring prod cons : Nat), s.reading (.prod ring) = true → s.polled ring = true → s.hif.state = 2 →
    s.hif.npWait = [] ∧ s.hif.reads.length + s.xlt.ats.length + 32 ≤ s.tagMax → (s.ringOf ring).fetched < prod →
    (s.ringOf ring).fetched < (s.ringOf ring).cons + s.ringE ring → (s.ringOf ring).want ≤ (s.ringOf ring).fetched →
    ∃ t, exec (.prodRead ring prod cons) s = .next t ∧
    (t.ringOf ring).want = min (min prod ((s.ringOf ring).fetched + 32)) ((s.ringOf ring).cons + s.ringE ring) ∧
    (t.ringOf ring).stopped = false ∧ (t.ringOf ring).cons = (s.ringOf ring).cons ∧
    t.hif.tlps.length = s.hif.tlps.length + ((t.ringOf ring).want - (s.ringOf ring).fetched) ∧
    t.hif.polledDesc = true) ∧
  (∀ (s : State) (ring prod cons : Nat), s.reading (.prod ring) = true → s.polled ring = true → s.hif.npWait = [] →
    (s.ringOf ring).fetched < prod → (s.ringOf ring).cons + s.ringE ring ≤ (s.ringOf ring).fetched →
    cons + s.ringE ring ≤ (s.ringOf ring).fetched → (s.ringOf ring).want ≤ (s.ringOf ring).fetched → ∃ t,
    exec (.prodRead ring prod cons) s = .next t ∧ (t.ringOf ring).stopped = true ∧
    (t.ringOf ring).fulls = satAdd 0xFFFF (s.ringOf ring).fulls 1 ∧ (t.ringOf ring).cons = cons ∧
    t.hif.tlps = s.hif.tlps) ∧
  (∀ (s : State) (ring : Nat), wfTable {} s.disp.ring = true → (s.ringOf ring).watch = true →
    s.disp.accepting = true → s.ringEn ring = true → s.ringDev ring = true →
    s.engErr 63 (s.rHdr ring) false = none → (∀ k ∈ sectorsOf (s.rHdr ring) 16, s.staleWord k = false) →
    s.cohPoison (s.rHdr ring) 64 = none → (s.ringOf ring).fetched < s.cohLE (s.rHdr ring) 8 →
    (s.ringOf ring).fetched < (s.ringOf ring).cons + s.ringE ring → (s.ringOf ring).want ≤ (s.ringOf ring).fetched →
    ∃ t, exec (.devmemRingNotify ring) s = .next t ∧
    (t.ringOf ring).want = min (min (s.cohLE (s.rHdr ring) 8) ((s.ringOf ring).fetched + 65536)) ((s.ringOf
    ring).cons + s.ringE ring) ∧
    (t.ringOf ring).watch = false ∧ t.mem = s.mem) ∧
  (∀ (s : State) (ring : Nat) (desc : List Byte) (lists : ListsRead),
    (s.ringOf ring).fetched < (s.ringOf ring).want → s.ringDev ring = false → s.reading (.desc ring) = true →
    s.ringEn ring = true → desc.length = 128 → desc.head? = some 9 → leAt desc 8 8 = 0 → s.disp.fetched = [] → ∃ t,
    exec (.descriptorFetched ring desc lists) s = .next t ∧ (t.ringOf ring).fetched = (s.ringOf ring).fetched + 1 ∧
    t.disp.fetched.map (fun c => (c.ring, c.seq, c.desc, c.acks)) = [(ring, (s.ringOf ring).fetched, desc, 0)] ∧
    (desc.drop 17 ≠ List.replicate 111 0 → t.disp.fetched.map Cmd.check = [1]) ∧ t.disp.cmds = s.disp.cmds) ∧
  (∀ (s : State) (ring : Nat) (c : Cmd), s.journal < 65536 → s.disp.accepting = true → s.disp.fetched = [c] →
    c.ring = ring → c.due = false → c.acks + 1 = s.mirrors → s.ringDev ring = false → s.hif.state = 2 → ∃ t,
    exec (.journalEntryAcked ring) s = .next t ∧ t.disp.fetched = [] ∧ (t.ringOf ring).acc = c.seq + 1 ∧
    t.hif.tlps = s.hif.tlps ++ [.write (s.ringFn ring) (s.rHdr ring + 64) (leBytes 8 (c.seq + 1)) false (.acc ring
    (c.seq + 1)) (s.untrans (s.ringCtx ring))] ∧
    t.disp.cmds.length = s.disp.cmds.length + 1 ∧ t.disp.order = s.disp.order + 1) ∧
  (∀ (s : State) (ring : Nat) (c : Cmd), s.journal < 65536 → s.disp.accepting = true → s.disp.fetched = [c] →
    c.ring = ring → c.due = false → c.acks + 1 < s.mirrors → ∃ t, exec (.journalEntryAcked ring) s = .next t ∧
    t.disp.fetched = [{ c with acks := c.acks + 1 }] ∧ t.disp.cmds = s.disp.cmds ∧ t.hif = s.hif) ∧
  (∀ (s : State) (ring : Nat), s.disp.accepting = false → ∃ t, exec (.journalEntryAcked ring) s = .next t ∧ t = s)

/-- Transfers, simple descriptors and the placement of a RUN. The head of a ring whose waits hold starts, in the order
of starts: WAIT and SIGNAL have no work, HINT passes its class to the power controller, BARRIER waits for what was
accepted before it, COPY and FILL write their bytes unchanged. The head reads its image's header; a header that is
not right ends it with LOAD_REFUSED; otherwise all its parts are placed together, each in a free slot of its tile,
and it starts; a checkpoint is taken before; a head that waits 100 µs for resources has tiles kept for it.
Completes, under hypotheses on the state and the operands alone (exec answers a next state): waitDescriptor,
signalDescriptor, hintDescriptor, barrier, copy, fill, run, checkpointDone, resourceWaitLimit. Conventions of the
model it rests on (its own choices, no rules of the spec): log 1, 30. (R462, R463, R465, R147, R149, R456, R468,
R469, R471) -/
def Obligations.DescriptorsAndPlacement : Prop :=
  (∀ (s : State) (ring : Nat) (c : Cmd), s.headOf ring 4 = some c → ∃ t, exec (.waitDescriptor ring) s = .next t ∧
    (t.cmdOf ring c.seq).map (fun x => (x.phase, x.startedAt)) = some (.ending, s.disp.order) ∧
    t.disp.order = s.disp.order + 1) ∧
  (∀ (s : State) (ring : Nat) (c : Cmd), s.headOf ring 5 = some c → ∃ t,
    exec (.signalDescriptor ring) s = .next t ∧ (t.cmdOf ring c.seq).map (fun x => (x.phase,
    x.startedAt)) = some (.ending, s.disp.order) ∧ t.disp.order = s.disp.order + 1) ∧
  (∀ (s : State) (ring : Nat) (c : Cmd), s.headOf ring 8 = some c → ∃ t, exec (.hintDescriptor ring) s = .next t ∧
    (t.cmdOf ring c.seq).map (fun x => (x.phase, x.startedAt)) = some (.ending, s.disp.order) ∧
    t.disp.order = s.disp.order + 1 ∧
    t.pwr = ((s.hintTiles c).foldl (fun st k => addHint k (c.fld 16 1 % 4) (c.fld 18 2) st) s).pwr) ∧
  (∀ (s : State) (ring : Nat) (c : Cmd), s.headOf ring 9 = some c → s.before c = [] → ∃ t,
    exec (.barrier ring) s = .next t ∧ (t.cmdOf ring c.seq).map (fun x => (x.phase, x.startedAt)) = some (.ending,
    s.disp.order) ∧ t.disp.order = s.disp.order + 1) ∧
  (∀ (s : State) (ring : Nat) (c : Cmd), s.headOf ring 9 = some c → s.before c ≠ [] → ∃ t,
    exec (.barrier ring) s = .next t ∧ t = s) ∧
  (∀ (s s1 s2 s3 : State) (ring a b : Nat) (c : Cmd), s.transferOf ring 2 = some c → c.phase = .head →
    c.fld 32 8 = 64 → xltPieces ring c.seq (s.ringCtx ring) (c.fld 16 8) 64 false (takeTransfer c s) = (some [(0,
    64, .dev a)], s1) → xltPieces ring c.seq (s.ringCtx ring) (c.fld 24 8) 64 true s1 = (some [(0, 64, .dev b)],
    s2) → s2.zone a = .direct → s2.zone b = .direct → a % 64 = 0 → b % 64 = 0 → s2.engErr 63 a false = none →
    s2.engErr 63 b true = none → tilesReady c true [b] (tilesReady c false [a] s2).2 = (true, s3) →
    (tilesReady c false [a] s2).1 = true → s3.zone a = .direct → s3.zone b = .direct →
    s3.staleWord (a / 64) = false → s3.cohPoison a 64 = none → ∃ t, exec (.copy ring) s = .next t ∧
    t.mem = (cohWrite b (s3.cohRead a 64) s3).mem ∧ (t.cmdOf ring c.seq).map (fun x => (x.phase,
    x.outDone)) = some (.ending, [0])) ∧
  (∀ (s s1 s2 : State) (ring b : Nat) (c : Cmd), s.transferOf ring 3 = some c → c.phase = .head → c.fld 24 8 = 64 →
    xltPieces ring c.seq (s.ringCtx ring) (c.fld 16 8) 64 true (takeTransfer c s) = (some [(0, 64, .dev b)], s1) →
    b % 64 = 0 → s1.engErr 63 b true = none → tilesReady c true [b] s1 = (true, s2) → s1.zone b = .direct →
    s2.zone b = .direct → ∃ t, exec (.fill ring) s = .next t ∧ t.mem = (cohWrite b (fillBytes c) s2).mem ∧
    (t.cmdOf ring c.seq).map (fun x => (x.phase, x.outDone)) = some (.ending, [0])) ∧
  (∀ (s : State) (ring : Nat) (c : Cmd) (h : Header), s.headOf ring 1 = some c → (runHeader c s).1 = some h →
    h.ok = false → (runHeader c s).2.cmdOf ring c.seq = some c → c.out = {} → ∃ t, exec (.run ring) s = .next t ∧
    (t.cmdOf ring c.seq).map (fun x => (x.phase, x.out)) = some (.ending, loadRefused 1 0)) ∧
  (∀ (s : State) (ring : Nat) (c : Cmd) (h : Header), s.headOf ring 1 = some c → (runHeader c s).1 = some h →
    h.ok = true → (runHeader c s).2.noRoom c h.count = true → (runHeader c s).2.cmdOf ring c.seq = some c →
    c.out = {} → ∃ t, exec (.run ring) s = .next t ∧ (t.cmdOf ring c.seq).map (fun x => (x.phase, x.out,
    x.check)) = some (.ending, { status := 0x01, reason := 6 }, 6)) ∧
  (∀ (s s3 s4 : State) (ring : Nat) (c : Cmd) (h : Header), s.headOf ring 1 = some c → (runHeader c s).1 = some h →
    h.ok = true → (runHeader c s).2.noRoom c h.count = false → c.inplace = [] →
    s3 = (runHeader c s).2.updCmd ring c.seq (fun x => { x with count := h.count, got := [] }) →
    s3.placeTurn = some ring → placeCmd c h.count s3 = some s4 → (runHeader c s).2.cmdOf ring c.seq = some c → ∃ t,
    exec (.run ring) s = .next t ∧ (∃ x ∈ t.disp.cmds, x.ring = ring ∧ x.seq = c.seq ∧ x.phase = .running ∧
    x.count = h.count ∧ x.parts.length = c.nparts ∧ ∀ p ∈ x.parts, (t.slotOf p.pos p.slot).map (fun y => (y.ring,
    y.seq, y.part)) = some (ring, c.seq, p.num)) ∧ t.disp.ptr = (ring + 1) % 4096) ∧
  (∀ (s s3 : State) (ring : Nat) (c : Cmd) (h : Header), s.headOf ring 1 = some c → (runHeader c s).1 = some h →
    h.ok = true → (runHeader c s).2.noRoom c h.count = false → c.inplace = [] →
    s3 = (runHeader c s).2.updCmd ring c.seq (fun x => { x with count := h.count, got := [] }) →
    (s3.placeTurn ≠ some ring ∨ placeCmd c h.count s3 = none) → ∃ t, exec (.run ring) s = .next t ∧ t = s3) ∧
  (∀ (s s1 s2 : State) (ring seq : Nat) (c : Cmd) (l : List (Nat × Nat)), s.cmdOf ring seq = some c →
    c.phase = .head → c.ckptAt ≠ 0 → c.ckptDone = false → c.replayDue = none → inplacePieces c s = (.got l, s1) →
    (∀ p ∈ l, s1.engErr 63 p.1 false = none) → tilesReady c false (l.map Prod.fst) s1 = (true, s2) → ∃ t,
    exec (.checkpointDone ring seq) s = .next t ∧ (t.cmdOf ring seq).map Cmd.ckptDone = some true ∧
    (t.cmdOf ring seq).map (fun x => x.ckpt.map (fun v => (v.lo, v.len))) = some l ∧ ((∀ p ∈ l,
    ∀ k ∈ sectorsOf p.1 p.2, s2.staleWord k = false) → t.mem = s2.mem)) ∧
  (∀ (s : State) (ring : Nat) (c : Cmd), s.headOf ring 1 = some c → has ring s.disp.reserved = false → ∃ t,
    exec (.resourceWaitLimit ring) s = .next t ∧ t.disp = { s.disp with reserved := s.disp.reserved ++ [ring] })

/-- MIGRATE, INVALIDATE and their steps. A MIGRATE blocks its page and drops it from every cache; its copy is written
and its entry rewritten, and the block lifted; an INVALIDATE blocks its range, applies its items in order, drops
the range and completes once no access uses it. Completes, under hypotheses on the state and the operands alone
(exec answers a next state): migrate, migrateCopyDone, migrateBackDone, invalidate, updateItemApplied,
invalidateDrainDone. Conventions of the model it rests on (its own choices, no rules of the spec): log 1, 55.
(R341, R342, R343, R351, R352, R353, R464) -/
def Obligations.MigrateAndInvalidate : Prop :=
  (∀ (s : State) (ring : Nat) (c : Cmd), s.headOf ring 6 = some c →
    s.blockedBy false (c.fld 16 2 % 1024) (c.fld 24 8 / 0x10000) 1 = false → ∃ t, exec (.migrate ring) s = .next t ∧
    ⟨ring, c.seq, c.fld 16 2 % 1024, c.fld 24 8 / 0x10000, 1⟩ ∈ t.xlt.blocks ∧ (∀ e ∈ t.xlt.shared,
    e.ctx = c.fld 16 2 % 1024 → ¬ (e.page ≤ c.fld 24 8 / 0x10000 ∧ c.fld 24 8 / 0x10000 < e.page + e.pages)) ∧
    (s.mem.ckErr = [] → t.mem = s.mem)) ∧
  (∀ (s : State) (ring : Nat) (c : Cmd), s.headOf ring 6 = some c →
    s.blockedBy false (c.fld 16 2 % 1024) (c.fld 24 8 / 0x10000) 1 = true → ∃ t, exec (.migrate ring) s = .next t ∧
    t = s) ∧
  (∀ (s : State) (ring : Nat) (c : Cmd), s.headOf ring 6 = some c →
    s.blockedBy false (c.fld 16 2 % 1024) (c.fld 24 8 / 0x10000) 1 = false →
    has (c.fld 16 2 % 1024) s.xlt.rootOk = false → c.out = {} → ∃ t, exec (.migrate ring) s = .next t ∧
    (t.cmdOf ring c.seq).map (fun x => (x.phase, x.out)) = some (.ending, wrongType (c.fld 24 8))) ∧
  (∀ (s : State) (ring seq : Nat) (data : List Byte) (c : Cmd), s.cmdOf ring seq = some c →
    s.migrateOk c false = true → (migrateRead ring seq s).pageErr (c.fld 32 8) true = none →
    (migrateRead ring seq s).zone (c.fld 32 8) = .direct → s.xlt.stalls = [] → ∃ t,
    exec (.migrateCopyDone ring seq data) s = .next t ∧ (∀ a,
    (pageEntry (c.fld 16 2 % 1024) (c.fld 24 8) (cohWrite (c.fld 32 8) ((data ++ List.replicate 0x10000 0#8).take
    0x10000) (migrateRead ring seq s))).1 = .found a →
    (pageEntry (c.fld 16 2 % 1024) (c.fld 24 8) (cohWrite (c.fld 32 8) ((data ++ List.replicate 0x10000 0#8).take
    0x10000) (migrateRead ring seq s))).2.engErr 63 a true = none →
    t.mem = (cohWrite a (leBytes 8 (c.fld 32 8 + Nat.land ((pageEntry (c.fld 16 2 % 1024) (c.fld 24 8) (cohWrite
    (c.fld 32 8) ((data ++ List.replicate 0x10000 0#8).take 0x10000) (migrateRead ring seq s))).2.cohLE a 8) 0x18
    + 2)) (pageEntry (c.fld 16 2 % 1024) (c.fld 24 8) (cohWrite (c.fld 32 8) ((data ++ List.replicate 0x10000
    0#8).take 0x10000) (migrateRead ring seq s))).2).mem ∧
    (t.cmdOf ring seq).map Cmd.phase = some .ending ∧ t.blocksOf ring seq = [])) ∧
  (∀ (s : State) (ring seq a : Nat) (c : Cmd), s.cmdOf ring seq = some c → s.migrateOk c true = true →
    s.cmdOpen ring seq = true → s.hif.state = 2 → (pageEntry (c.fld 16 2 % 1024) (c.fld 24 8) s).1 = .found a →
    (pageEntry (c.fld 16 2 % 1024) (c.fld 24 8) s).2.pageErr (bitsOf ((pageEntry (c.fld 16 2 % 1024) (c.fld 24 8)
    s).2.cohLE a 8) 47 16 * 0x10000) false = none →
    s.xlt.stalls = [] → ∃ t, exec (.migrateBackDone ring seq) s = .next t ∧
    ((serveReads (bitsOf ((pageEntry (c.fld 16 2 % 1024) (c.fld 24 8) s).2.cohLE a 8) 47 16 * 0x10000) 0x10000
    (pageEntry (c.fld 16 2 % 1024) (c.fld 24 8) s).2).cohPoison (bitsOf ((pageEntry (c.fld 16 2 % 1024) (c.fld 24
    8) s).2.cohLE a 8) 47 16 * 0x10000) 0x10000 = none →
    (pageEntry (c.fld 16 2 % 1024) (c.fld 24 8) (migrateSent c a (pageEntry (c.fld 16 2 % 1024) (c.fld 24 8)
    s).2)).1 = .found a →
    (pageEntry (c.fld 16 2 % 1024) (c.fld 24 8) (migrateSent c a (pageEntry (c.fld 16 2 % 1024) (c.fld 24 8)
    s).2)).2.engErr 63 a true = none →
    t.mem = (cohWrite a (leBytes 8 (Nat.land ((pageEntry (c.fld 16 2 % 1024) (c.fld 24 8) (migrateSent c a
    (pageEntry (c.fld 16 2 % 1024) (c.fld 24 8) s).2)).2.cohLE a 8) 0x18 + 4)) (pageEntry (c.fld 16 2 % 1024)
    (c.fld 24 8) (migrateSent c a (pageEntry (c.fld 16 2 % 1024) (c.fld 24 8) s).2)).2).mem ∧
    (t.cmdOf ring seq).map Cmd.phase = some .ending ∧ t.blocksOf ring seq = [] ∧
    t.hif.tlps.length = s.hif.tlps.length + 8 * c.units.length)) ∧
  (∀ (s : State) (ring : Nat) (c : Cmd), s.headOf ring 7 = some c →
    s.blockedBy true (c.fld 16 2 % 1024) c.invRange.1 c.invRange.2 = false → c.fld 48 4 = 0 → ∃ t,
    exec (.invalidate ring []) s = .next t ∧ ⟨ring, c.seq, c.fld 16 2 % 1024, c.invRange.1,
    c.invRange.2⟩ ∈ t.xlt.blocks ∧ (∀ e ∈ t.xlt.shared, e.ctx = c.fld 16 2 % 1024 →
    ¬ (e.page < c.invRange.1 + c.invRange.2 ∧ c.invRange.1 < e.page + e.pages)) ∧
    (t.cmdOf ring c.seq).map Cmd.phase = some .running ∧ t.mem = s.mem) ∧
  (∀ (s : State) (ring : Nat) (c : Cmd) (items : List UpdItem), s.headOf ring 7 = some c →
    s.blockedBy true (c.fld 16 2 % 1024) c.invRange.1 c.invRange.2 = false → c.fld 48 4 = items.length →
    items ≠ [] → s.ringDev ring = false → s.attached (s.ringFn ring) = true → ∃ t,
    exec (.invalidate ring items) s = .next t ∧ (t.cmdOf ring c.seq).map (fun x => (x.phase,
    x.items)) = some (.running, items) ∧ t.mem = s.mem) ∧
  (∀ (s : State) (ring seq : Nat) (c : Cmd) (i : UpdItem), s.cmdOf ring seq = some c → c.items[c.item]? = some i →
    c.phase = .running → c.kind = 7 → c.replayDue = none →
    s.blockedBy true (c.fld 16 2 % 1024) (itemSpan i).1 (itemSpan i).2 = false → itemBad i s = false →
    itemLevel i = 3 → itemNew i = false → ∃ t, exec (.updateItemApplied ring seq 0) s = .next t ∧
    t.xlt.root = put 0 s.xlt.root (c.fld 16 2 % 1024) (fld i.w1 47 16) ∧ c.fld 16 2 % 1024 ∈ t.xlt.rootOk ∧
    (t.cmdOf ring seq).map Cmd.item = some (c.item + 1) ∧ t.mem = s.mem) ∧
  (∀ (s : State) (ring seq a : Nat) (c : Cmd) (i : UpdItem), s.cmdOf ring seq = some c →
    c.items[c.item]? = some i → c.phase = .running → c.kind = 7 → c.replayDue = none →
    s.blockedBy true (c.fld 16 2 % 1024) (itemSpan i).1 (itemSpan i).2 = false → itemBad i s = false →
    itemLevel i < 3 → itemNew i = false → itemFault s (c.fld 16 2 % 1024) (itemLevel i) i.w1.toNat = none →
    (itemPlace (c.fld 16 2 % 1024) (itemDva i) (itemLevel i) c.item s).1 = .found a →
    (itemPlace (c.fld 16 2 % 1024) (itemDva i) (itemLevel i) c.item s).2.engErr 63 a true = none → ∃ t,
    exec (.updateItemApplied ring seq 0) s = .next t ∧
    t.mem = (cohWrite a (leBytes 8 i.w1.toNat) (itemPlace (c.fld 16 2 % 1024) (itemDva i) (itemLevel i) c.item
    s).2).mem ∧
    (t.cmdOf ring seq).map Cmd.item = some (c.item + 1)) ∧
  (∀ (s : State) (ring seq reason : Nat) (c : Cmd) (i : UpdItem), s.cmdOf ring seq = some c →
    c.items[c.item]? = some i → c.phase = .running → c.kind = 7 → c.replayDue = none →
    s.blockedBy true (c.fld 16 2 % 1024) (itemSpan i).1 (itemSpan i).2 = false → itemBad i s = true → c.out = {} →
    ∃ t, exec (.updateItemApplied ring seq reason) s = .next t ∧ (t.cmdOf ring seq).map (fun x => (x.phase,
    x.out)) = some (.ending, { status := 0x04, reason := 0x03, detail := c.item }) ∧ t.mem = s.mem) ∧
  (∀ (s : State) (ring seq : Nat) (c : Cmd), s.cmdOf ring seq = some c → c.phase = .running → c.kind = 7 →
    c.replayDue = none → c.items.length ≤ c.item → (∀ b ∈ s.blocksOf ring seq,
    s.rangeBusy b.ctx b.page b.pages = false ∧ s.blockedBy true b.ctx b.page b.pages = false) → s.xlt.stalls = [] →
    ∃ t, exec (.invalidateDrainDone ring seq) s = .next t ∧ (t.cmdOf ring seq).map Cmd.phase = some .ending ∧
    t.blocksOf ring seq = [])

/-- Staged outputs and the completion of commands. An output is copied into the staging area and goes to the host from
it; the copy is freed once its writes are acknowledged; a command whose work has ended and whose writes are
acknowledged has its regions restored if it was stopped, performs its signals and is done. Completes, under
hypotheses on the state and the operands alone (exec answers a next state): stagedOutputCopy, stagedCopyFreed,
commandComplete, crossPathFlushDone. Conventions of the model it rests on (its own choices, no rules of the spec):
log 1, 33, 34. (R230, R420, R421, R422, R466, R471, R242) -/
def Obligations.OutputsAndCompletion : Prop :=
  (∀ (s s2 s3 : State) (ring seq region dva len dst b : Nat) (c : Cmd), s.cmdOf ring seq = some c → c.ring = ring →
    c.seq = seq → c.kind = 2 → c.outputOf region = some (dva, len, dst) → s.stagedOf ring seq region = none →
    len ≤ s.stageLen → s.stageUsed + len ≤ s.stageLen → stageIn c region (s.ringFn ring) len c.got s = some s2 →
    xltPieces ring seq (s.ringCtx ring) dst len true s2 = (some [(0, len, .bus b)], s3) → 0 < len →
    len ≤ 512 - b % 512 → s3.cmdOpen ring seq = true → s3.hif.state = 2 → ∃ t,
    exec (.stagedOutputCopy ring seq region) s = .next t ∧
    t.hif.tlps = s3.hif.tlps ++ [.write (s.ringFn ring) b (dataAt c.got 0 len).1 (dataAt c.got 0 len).2 (.staged
    ring seq region 0) .translated] ∧
    (s2.stagedOf ring seq region).map Staged.bytes = some (dataAt c.got 0 len).1 ∧
    (t.cmdOf ring seq).map (fun x => (x.phase, has region x.outDone)) = some (.ending, true)) ∧
  (∀ (s : State) (ring seq region : Nat) (x : Staged), s.stagedOf ring seq region = some x → x.left = 0 →
    x.kept = false → s.cmdOf ring seq = none → s.attached x.fn = true → ∃ t,
    exec (.stagedCopyFreed ring seq region) s = .next t ∧
    t.hif = { s.hif with staged := s.hif.staged.filter (fun y => !y.isFor ring seq region) }) ∧
  (∀ (s : State) (ring seq region : Nat) (x : Staged), s.stagedOf ring seq region = some x →
    (x.left ≠ 0 ∨ x.kept = true ∨ s.attached x.fn = false) → ∃ t,
    exec (.stagedCopyFreed ring seq region) s = .next t ∧ t = s) ∧
  (∀ (s : State) (ring seq : Nat) (c : Cmd), s.cmdOf ring seq = some c → c.workEnded = true → s.settled c = true →
    s.glb.warmStep = 0 → c.stopped = false → c.discard = false → s.ringCross ring = false →
    s.blocksOf ring seq = [] → ∃ t, exec (.commandComplete ring seq) s = .next t ∧
    (t.cmdOf ring seq).map (fun x => (x.phase, x.ended, x.ckpt, x.ckptAt)) = some (.done, s.time, [], 0) ∧
    t.mem = (undefineClash ring seq s).mem) ∧
  (∀ (s : State) (ring seq : Nat) (c : Cmd) (e : SyncEnt), s.cmdOf ring seq = some c → c.workEnded = true →
    s.settled c = true → s.glb.warmStep = 0 → c.stopped = false → c.discard = false → s.ringCross ring = false →
    s.blocksOf ring seq = [] → c.signals = [e] → e.op = 0 → ∃ t, exec (.commandComplete ring seq) s = .next t ∧
    (t.syncOf e.obj).val = (s.syncOf e.obj).val + BitVec.ofNat 64 e.val) ∧
  (∀ (s : State) (ring seq : Nat) (c : Cmd), s.cmdOf ring seq = some c → c.workEnded = true → s.settled c = true →
    s.glb.warmStep = 0 → c.stopped = true → c.startedAt ≠ 0 → c.discard = false → s.ringCross ring = false →
    s.blocksOf ring seq = [] → ∃ t, exec (.commandComplete ring seq) s = .next t ∧
    t.mem = (undefineClash ring seq (undefineRegions ring seq (restoreRegions ring seq (freeStopped ring seq
    s)))).mem ∧
    (t.cmdOf ring seq).map Cmd.phase = some .done) ∧
  (∀ (s : State) (ring seq : Nat) (c : Cmd), s.cmdOf ring seq = some c → s.settled c = false → ∃ t,
    exec (.commandComplete ring seq) s = .next t ∧ t = s) ∧
  (∀ (s : State) (ring seq : Nat) (c : Cmd), s.cmdOf ring seq = some c → c.phase = .done →
    s.reading (.flush ring seq) = false → (∀ x ∈ s.hif.cross, x.isFor ring seq = false) → ∃ t,
    exec (.crossPathFlushDone ring seq) s = .next t ∧ (t.cmdOf ring seq).map Cmd.flushed = some true)

/-- Completion records and the registers of rings and contexts. The record of a ring's oldest completed command is
written with its signal, into device memory, on the link, or held while the function is not attached; a ring is
enabled for a context in use, disabled and reset; FULLS clears when read. Completes, under hypotheses on the state
and the operands alone (exec answers a next state): recordWrite, ctxRstatRead, ringEnable, ringDisable,
ctxRctlReset, ctxCfgWrite, msixEvent, msixTimeExpiry, msixUnmask. Conventions of the model it rests on (its own
choices, no rules of the spec): log 1, 33, 36. (R442, R446, R453, R475, R476, R478, R479, R481) -/
def Obligations.RecordsAndRings : Prop :=
  (∀ (s : State) (ring : Nat) (c : Cmd),
    s.disp.cmds.find? (fun x => x.ring == ring && x.phase != .written && x.phase != .held) = some c →
    c.phase = .done → s.ringCross ring = false → s.ringDev ring = false → s.attached (s.ringFn ring) = true →
    s.hif.state = 2 → ∃ t, exec (.recordWrite ring) s = .next t ∧
    t.hif.tlps.take (s.hif.tlps.length + 1) = s.hif.tlps ++ [.write (s.ringFn ring) (s.recAt ring c.seq) (s.record
    c) false (.record ring c.seq) (s.untrans (s.ringCtx ring))] ∧
    (t.ringOf ring).done = max (s.ringOf ring).done (c.seq + 1) ∧ (∀ x ∈ t.disp.cmds, x.ring = ring →
    x.seq = c.seq → x.phase = .written) ∧ (s.record c).length = 32) ∧
  (∀ (s : State) (ring : Nat) (c : Cmd),
    s.disp.cmds.find? (fun x => x.ring == ring && x.phase != .written && x.phase != .held) = some c →
    c.phase = .done → s.ringCross ring = false → s.ringDev ring = false → s.attached (s.ringFn ring) = false → ∃ t,
    exec (.recordWrite ring) s = .next t ∧
    t.disp.cmds = s.disp.cmds.map (fun x => if x.ring == ring && x.seq == c.seq then { x with phase := .held }
    else x) ∧
    t.hif = s.hif) ∧
  (∀ (s : State) (ring : Nat) (c : Cmd),
    s.disp.cmds.find? (fun x => x.ring == ring && x.phase != .written && x.phase != .held) = some c →
    c.phase = .done → s.ringCross ring = false → s.ringDev ring = true →
    s.engErr 63 (s.recAt ring c.seq) true = none → ∃ t, exec (.recordWrite ring) s = .next t ∧
    t.mem = (cohWrite (s.recAt ring c.seq) (s.record c) s).mem ∧
    (t.ringOf ring).done = max (s.ringOf ring).done (c.seq + 1) ∧
    t.disp.cmds = dropFirst (fun x => x.ring == ring && x.seq == c.seq) s.disp.cmds) ∧
  (∀ (s : State) (who : Agent) (ring : Nat), ring < 4096 → s.hostGate who = true →
    ownFn who (s.ringFn ring) = true → ∃ t, exec (.ctxRstatRead who ring) s = .next t ∧
    t.replies = s.replies ++ [⟨who, ringCfg ring + 0x30, s.rstat ring, false⟩] ∧
    t.disp = { s.disp with ring := upd {} s.disp.ring ring (fun x => { x with fulls := 0 }) }) ∧
  (∀ (s : State) (who : Agent) (ring : Nat), ring < 4096 → ownFn who (s.ringFn ring) = false → ∃ t,
    exec (.ctxRstatRead who ring) s = .next t ∧ t.replies = s.replies ++ [⟨who, ringCfg ring + 0x30, 0, false⟩] ∧
    t.disp = s.disp) ∧
  (∀ (s : State) (who : Agent) (ring : Nat), ring < 4096 → s.hostGate who = true →
    ownFn who (s.ringFn ring) = true → s.ringEn ring = false → s.ctxValid (s.ringCtx ring) = true →
    s.ringDev ring = false → ∃ t, exec (.ringEnable who ring) s = .next t ∧
    t.reg (ringCfg ring) = (s.reg (ringCfg ring) ||| 0x8000000000000000#64) ∧ t.disp = s.disp) ∧
  (∀ (s : State) (who : Agent) (ring : Nat), ring < 4096 → s.hostGate who = true →
    ownFn who (s.ringFn ring) = true → s.ringEn ring = false → s.ctxValid (s.ringCtx ring) = false → ∃ t,
    exec (.ringEnable who ring) s = .next t ∧ t.regs = s.regs ∧
    s.reports t (ev 0x80 none (whoArg who) [ringCfg ring])) ∧
  (∀ (s : State) (who : Agent) (ring : Nat), ring < 4096 → s.hostGate who = true →
    ownFn who (s.ringFn ring) = true → ∃ t, exec (.ringDisable who ring) s = .next t ∧
    t.regs = (s.setReg (ringCfg ring) (s.reg (ringCfg ring) &&& 0x7FFFFFFFFFFFFFFF#64)).regs ∧
    (∀ c ∈ t.disp.fetched, c.ring ≠ ring) ∧ t.disp.cmds = s.disp.cmds ∧ has ring t.disp.watching = false) ∧
  (∀ (s : State) (who : Agent) (ring : Nat), ring < 4096 → s.hostGate who = true →
    ownFn who (s.ringFn ring) = true → s.ringState ring = 0 → ∃ t, exec (.ctxRctlReset who ring) s = .next t ∧
    t.disp.ring = upd {} s.disp.ring ring (fun x => { fulls := x.fulls }) ∧ (∀ c ∈ t.disp.cmds, c.ring ≠ ring)) ∧
  (∀ (s : State) (who : Agent) (ring : Nat), ring < 4096 → s.hostGate who = true →
    ownFn who (s.ringFn ring) = true → s.ringState ring ≠ 0 → ∃ t, exec (.ctxRctlReset who ring) s = .next t ∧ t = s) ∧
  (∀ (s : State) (who : Agent) (ctx : Nat) (v : Word), ctx < 1024 → s.hostGate who = true →
    isPf0OrCore who = true → (bitOf v.toNat 31 = true ∨ s.ctxBusy ctx = false) → ∃ t,
    exec (.ctxCfgWrite who ctx v) s = .next t ∧ t.regs = (s.setReg (ctxCfg ctx) (v &&& 0x801F0000#64)).regs ∧
    t.hfifo = s.hfifo) ∧
  (∀ (s : State) (who : Agent) (ctx : Nat) (v : Word), ctx < 1024 → s.hostGate who = true →
    isPf0OrCore who = true → bitOf v.toNat 31 = false → s.ctxValid ctx = true → s.ctxBusy ctx = true → ∃ t,
    exec (.ctxCfgWrite who ctx v) s = .next t ∧ t.regs = s.regs ∧
    s.reports t (ev 0x80 none (whoArg who) [ctxCfg ctx])) ∧
  (∀ (s : State) (fn vec : Nat), vecOk fn vec = true →
    satAdd 4095 (look {} s.msix (vecKey fn vec)).gathered 1 < max 1 (s.regFld (coalReg fn vec) 27 16) → ∃ t,
    exec (.msixEvent fn vec) s = .next t ∧
    (look {} t.msix (vecKey fn vec)).gathered = satAdd 4095 (look {} s.msix (vecKey fn vec)).gathered 1 ∧
    t.hif = s.hif) ∧
  (∀ (s : State) (fn vec : Nat), vecOk fn vec = true → (look {} s.msix (vecKey fn vec)).unmasked = true →
    max 1 (s.regFld (coalReg fn vec) 27 16) ≤ satAdd 4095 (look {} s.msix (vecKey fn vec)).gathered 1 →
    (s.sessOf fn).state ≠ .held → s.glb.ready = true → s.hif.state = 2 → ∃ t, exec (.msixEvent fn vec) s = .next t ∧
    t.hif.tlps = s.hif.tlps ++ [.msix fn vec] ∧ (look {} t.msix (vecKey fn vec)).gathered = 0 ∧
    (look {} t.msix (vecKey fn vec)).unmasked = true) ∧
  (∀ (s : State) (fn vec : Nat), vecOk fn vec = true → s.regFld (coalReg fn vec) 11 0 ≠ 0 →
    (look {} s.msix (vecKey fn vec)).gathered ≠ 0 → (look {} s.msix (vecKey fn vec)).unmasked = false → ∃ t,
    exec (.msixTimeExpiry fn vec) s = .next t ∧ (look {} t.msix (vecKey fn vec)).pba = true ∧ t.hif = s.hif) ∧
  (∀ (s : State) (fn vec : Nat), vecOk fn vec = true → (look {} s.msix (vecKey fn vec)).pba = true →
    (s.sessOf fn).state ≠ .held → s.glb.ready = true → s.hif.state = 2 → ∃ t,
    exec (.msixUnmask fn vec) s = .next t ∧ t.hif.tlps = s.hif.tlps ++ [.msix fn vec] ∧
    (look {} t.msix (vecKey fn vec)).unmasked = true ∧ (look {} t.msix (vecKey fn vec)).pba = false)

/-- Timeouts, suspects, replay and the loss of tiles. A head that outlasts its timeout ends with TIMEOUT; a running
RUN becomes a suspect, its tile is fenced and reset; a replay starts a command anew; a replay that hangs confirms
the hang; a lost tile moves its logical tile to the spare or leaves it unbacked. Completes, under hypotheses on
the state and the operands alone (exec answers a next state): headTimeout, runTimeoutSuspect, tileResetDone,
replayStart, replayTimeout, journalMirrorRebuild, tileDieFailure, tileRecoveryDone. Conventions of the model it
rests on (its own choices, no rules of the spec): log 1, 4, 35. (R14, R17, R467, R563, R564, R565, R566, R568,
R572) -/
def Obligations.TimeoutsAndReplay : Prop :=
  (∀ (s : State) (ring seq : Nat) (c : Cmd), s.cmdOf ring seq = some c → s.arraysHeld = false → c.phase = .head →
    c.out = {} → ∃ t, exec (.headTimeout ring seq) s = .next t ∧ (t.cmdOf ring seq).map (fun x => (x.phase,
    x.out)) = some (.ending, { status := 0x06 })) ∧
  (∀ (s : State) (ring seq : Nat) (c : Cmd), s.cmdOf ring seq = some c → s.arraysHeld = true → ∃ t,
    exec (.headTimeout ring seq) s = .next t ∧ t = s) ∧
  (∀ (s : State) (ring seq reason dva : Nat) (c : Cmd), s.cmdOf ring seq = some c → s.arraysHeld = false →
    c.phase = .running → c.kind ≠ 1 → s.stallOf c = some (reason, dva) → reason ≠ 0 → c.out = {} → ∃ t,
    exec (.headTimeout ring seq) s = .next t ∧ (t.cmdOf ring seq).map (fun x => (x.phase, x.out)) = some (.ending,
    { status := 0x04, reason := reason, detail := dva })) ∧
  (∀ (s : State) (ring seq : Nat) (c : Cmd) (p : Part), s.disp.cmds = [c] → c.ring = ring → c.seq = seq →
    s.arraysHeld = false → c.timed = true → s.stallOf c = none → c.sentPut = false → c.replays < 4 → c.parts = [p] →
    p.ended = false → s.fenced p.pos = false → ∃ t, exec (.runTimeoutSuspect ring seq) s = .next t ∧
    (t.cmdOf ring seq).map (fun x => (x.suspect, x.replayDue, x.stopped)) = some (true, some 5, true) ∧
    t.fenced p.pos = true ∧ (t.tileOf p.pos).resetting = true ∧
    (t.tileOf p.pos).resets = s.time :: (s.tileOf p.pos).resets) ∧
  (∀ (s : State) (pos : Nat), pos ≤ 32 → (s.tileOf pos).resetting = true → s.linkReady pos = true →
    s.recentResets pos < 3 → wfTable {} s.tile = true → ∃ t, exec (.tileResetDone pos true) s = .next t ∧
    (t.tileOf pos).resetting = false ∧ t.fenced pos = false ∧ t.glb.site = put 0 s.glb.site pos 0) ∧
  (∀ (s : State) (pos : Nat), pos ≤ 32 → (s.tileOf pos).resetting = true → s.siteFailed pos = false → ∃ t,
    exec (.tileResetDone pos false) s = .next t ∧ look 0 t.glb.site pos = 3 ∧ t.fenced pos = true) ∧
  (∀ (s : State) (ring seq : Nat) (c : Cmd), s.cmdOf ring seq = some c → s.replayReady c = true →
    (c.phase = .running ∨ c.phase = .head) → (c.kind ≠ 1 ∨ c.phase = .head) → ∃ t,
    exec (.replayStart ring seq) s = .next t ∧ (t.cmdOf ring seq).map (fun x => (x.phase, x.replays, x.replayDue,
    x.stopped)) = some (.head, c.replays + 1, none, false)) ∧
  (∀ (s s2 : State) (ring seq : Nat) (c : Cmd), s.cmdOf ring seq = some c → c.ring = ring → c.seq = seq →
    s.replayReady c = true → c.phase = .running → c.kind = 1 → s.noRoom c c.count = false →
    placeCmd c.anew c.count (replayBegin c s) = some s2 → ∃ t, exec (.replayStart ring seq) s = .next t ∧
    (t.cmdOf ring seq).map (fun x => (x.replays, x.replayDue, x.parts.length)) = some (c.replays + 1, none,
    c.nparts)) ∧
  (∀ (s : State) (ring seq : Nat) (c : Cmd), s.cmdOf ring seq = some c → s.replayReady c = true →
    c.phase = .running → c.kind = 1 → s.noRoom c c.count = true → c.out = {} → ∃ t,
    exec (.replayStart ring seq) s = .next t ∧ (t.cmdOf ring seq).map (fun x => (x.phase, x.out)) = some (.ending,
    partFailed c.stopPort)) ∧
  (∀ (s : State) (ring seq : Nat) (c : Cmd) (p : Part), s.cmdOf ring seq = some c → c.suspect = true →
    c.replayDue = none → c.phase = .running → s.arraysHeld = false → c.parts = [p] → p.ended = false → c.out = {} →
    ∃ t, exec (.replayTimeout ring seq) s = .next t ∧ (t.cmdOf ring seq).map (fun x => (x.phase,
    x.out)) = some (.ending, { status := 0x07, port := some p.pos, part := p.num }) ∧
    (t.tileOf p.pos).resetting = true ∧ t.fenced p.pos = true) ∧
  (∀ (s : State) (m k : Nat), m < 2 → s.mirrorStack m = some k → ∃ t, exec (.journalMirrorRebuild m) s = .next t ∧
    t.disp =
    { s.disp with
        mirrorOk := setAt s.disp.mirrorOk m true, journal0 := if m = 0 then k else s.disp.journal0,
        journal1 := if m = 1 then k else s.disp.journal1 }
    ) ∧
  (∀ (s : State) (m : Nat), m < 2 → s.mirrorStack m = none → ∃ t, exec (.journalMirrorRebuild m) s = .next t ∧
    t.disp = { s.disp with mirrorOk := setAt s.disp.mirrorOk m false }) ∧
  (∀ (s : State) (pos n : Nat), pos < 32 → s.siteFailed pos = false → s.tileAt pos = some n →
    look 0 s.glb.site 32 = 1 → ∃ t, exec (.tileDieFailure pos) s = .next t ∧ look 0 t.glb.site pos = 3 ∧
    t.fenced pos = true ∧ t.posOf n = some 32 ∧ t.repair.tilemap = t.glb.tilemap) ∧
  (∀ (s : State) (pos n : Nat), pos ≤ 32 → s.siteFailed pos = false → s.tileAt pos = some n →
    look 0 s.glb.site 32 ≠ 1 → ∃ t, exec (.tileDieFailure pos) s = .next t ∧ look 0 t.glb.site pos = 3 ∧
    t.fenced pos = true ∧ t.posOf n = none) ∧
  (∀ (s : State) (pos : Nat), pos < 32 → (s.tileOf pos).resetting = true → s.linkReady pos = true →
    wfTable {} s.tile = true → ∃ t, exec (.tileRecoveryDone pos true) s = .next t ∧
    (t.tileOf pos).resetting = false ∧ t.fenced pos = false ∧ t.glb.site = put 0 s.glb.site pos 0) ∧
  (∀ (s : State) (pos : Nat), pos ≤ 32 → (s.tileOf pos).resetting = true → s.siteFailed pos = false → ∃ t,
    exec (.tileRecoveryDone pos false) s = .next t ∧ look 0 t.glb.site pos = 3 ∧ t.fenced pos = true)

/-- The Ranoa ports: senders, training and loss. An acknowledgement empties the replay buffer up to its number; a NAK
or an overdue acknowledgement resends, and the eighth resend, silence, or an operation that times out loses the
port; a port with light trains with HELLO, and the peer's HELLO brings it up with PSNs from 0; a failed lane
retrains to a good group. Completes, under hypotheses on the state and the operands alone (exec answers a next
state): ranoaLinkAck, ranoaCreditReturn, ranoaHeartbeat, ranoaHeartbeatSend, ranoaLinkCrcError, ranoaLinkNak,
ranoaAckOverdue, ranoaSilenceTimeout, ranoaOpTimeout, ranoaLightDetect, hello, ranoaLaneFailure, ranoaDieFailure.
Conventions of the model it rests on (its own choices, no rules of the spec): log 1, 42, 56. (R489, R493, R494,
R495, R496, R497, R510, R513) -/
def Obligations.RanoaLink : Prop :=
  (∀ (s : State) (port lseq i : Nat), (s.rportOf port).state = 2 → (s.rportOf port).wait = [] →
    (s.rportOf port).replay.findIdx? (fun e => e.1 == lseq) = some i → ∃ t,
    exec (.ranoaLinkAck port lseq) s = .next t ∧ (t.rportOf port).replay = (s.rportOf port).replay.drop (i + 1) ∧
    (t.rportOf port).resends = 0) ∧
  (∀ (s : State) (port vc n : Nat), (s.rportOf port).state = 2 → (s.rportOf port).wait = [] → ∃ t,
    exec (.ranoaCreditReturn port vc n) s = .next t ∧
    (t.rportOf port).cred = upd 0 (s.rportOf port).cred vc (fun k => min (k + n) (look 0 rCredits vc))) ∧
  (∀ (s : State) (port corrected : Nat), (s.rportOf port).state = 2 → ∃ t,
    exec (.ranoaHeartbeat port corrected) s = .next t ∧
    (t.rportOf port).fecCorr = satAdd 0xFFFF (s.rportOf port).fecCorr corrected ∧ t.hub = s.hub) ∧
  (∀ (s : State) (port : Nat), (s.rportOf port).state = 2 → (s.rportOf port).wait = [] → ∃ t,
    exec (.ranoaHeartbeatSend port) s = .next t ∧ (t.rportOf port).ctl = (s.rportOf port).ctl ++ [.heartbeat]) ∧
  (∀ (s : State) (port uncorr : Nat) (hdr : BitVec 256) (body : List Byte) (crc : BitVec 32),
    (s.rportOf port).state = 2 → rFind (s.rportOf port) hdr body crc uncorr ≠ .taken → ∃ t,
    exec (.ranoaLinkCrcError port hdr body crc uncorr) s = .next t ∧
    (t.rportOf port).ctl = (s.rportOf port).ctl ++ [.nak] ∧
    (t.rportOf port).fecUncorr = satAdd 0xFFFF (s.rportOf port).fecUncorr uncorr ∧ t.mem = s.mem) ∧
  (∀ (s : State) (port : Nat), (s.rportOf port).state = 2 → (s.rportOf port).replay ≠ [] →
    (s.rportOf port).resends < 7 → ∃ t, exec (.ranoaLinkNak port) s = .next t ∧ (t.rportOf port).state = 2 ∧
    (t.rportOf port).resends = (s.rportOf port).resends + 1 ∧
    (t.rportOf port).replays = satAdd 0xFFFF (s.rportOf port).replays 1 ∧
    (t.rportOf port).replay = (s.rportOf port).replay) ∧
  (∀ (s : State) (port : Nat), (s.rportOf port).state = 2 → (s.rportOf port).replay ≠ [] →
    (s.rportOf port).resends = 7 → ∃ t, exec (.ranoaAckOverdue port) s = .next t ∧ (t.rportOf port).state = 3 ∧
    (t.rportOf port).losses = satAdd 0xFFFF (s.rportOf port).losses 1 ∧ (t.rportOf port).gets = [] ∧
    (t.rportOf port).puts = [] ∧ (t.rportOf port).cut = (s.rportOf port).firstOpen % 2 ^ 48) ∧
  (∀ (s : State) (port : Nat), (s.rportOf port).state = 2 → ∃ t, exec (.ranoaSilenceTimeout port) s = .next t ∧
    (t.rportOf port).state = 3 ∧ (t.rportOf port).losses = satAdd 0xFFFF (s.rportOf port).losses 1 ∧
    (t.rportOf port).gets = [] ∧ (t.rportOf port).puts = [] ∧
    (t.rportOf port).cut = (s.rportOf port).firstOpen % 2 ^ 48) ∧
  (∀ (s : State) (port : Nat), (s.rportOf port).state = 2 → (s.rportOf port).puts ≠ [] → ∃ t,
    exec (.ranoaOpTimeout port) s = .next t ∧ (t.rportOf port).state = 3 ∧
    (t.rportOf port).losses = satAdd 0xFFFF (s.rportOf port).losses 1 ∧ (t.rportOf port).gets = [] ∧
    (t.rportOf port).puts = [] ∧ (t.rportOf port).cut = (s.rportOf port).firstOpen % 2 ^ 48) ∧
  (∀ (s : State) (port : Nat), port < 8 → (s.rportOf port).state = 0 → (s.rportOf port).wait = [] →
    s.boot.rail = true → s.siteFailed (rDie port) = false → (s.rportOf port).usable ≠ 0 → ∃ t,
    exec (.ranoaLightDetect port) s = .next t ∧ (t.rportOf port).state = 1 ∧ (t.rportOf port).replay = [(0,
    helloPkt s port (s.rportOf port).usable)]) ∧
  (∀ (s : State) (port serial peer lanes : Nat), (s.rportOf port).state = 1 → peer < 8 → ∃ t,
    exec (.hello port serial peer lanes) s = .next t ∧ (t.rportOf port).state = 2 ∧
    (t.rportOf port).lanes = min (s.rportOf port).usable lanes ∧ (t.rportOf port).peerPort = peer ∧
    (t.rportOf port).peerSerial = BitVec.ofNat 64 serial ∧ (t.rportOf port).psnTx = 0 ∧ (t.rportOf port).psnRx = 0 ∧
    s.reports t (ev 0x51 (some (rDie port)) (port + at_ (min (s.rportOf port).usable lanes) 8) [])) ∧
  (∀ (s : State) (port lane : Nat), lane < 8 → (s.rportOf port).state = 2 → (s.rportOf port).badTx = [] →
    (s.rportOf port).badRx = [] → (s.rportOf port).wait = [] → ∃ t,
    exec (.ranoaLaneFailure port lane true) s = .next t ∧ (t.rportOf port).state = 1 ∧ (t.rportOf port).usable = 4 ∧
    (t.rportOf port).badTx = [lane]) ∧
  (∀ (s : State) (port lane : Nat), 4 ≤ lane → lane < 8 → (s.rportOf port).state = 2 →
    (s.rportOf port).badTx = [0] → ∃ t, exec (.ranoaLaneFailure port lane false) s = .next t ∧
    (t.rportOf port).state = 3 ∧ (t.rportOf port).lanes = 0 ∧ (t.rportOf port).badTx = [] ∧
    (t.rportOf port).badRx = []) ∧
  (∀ (s : State) (die port : Nat), die < 2 → s.siteFailed (58 + die) = false → s.fenced (58 + die) = false →
    4 * die ≤ port → port < 4 * die + 4 → wfTable {} s.rna.port = true → ∃ t,
    exec (.ranoaDieFailure die) s = .next t ∧ look 0 t.glb.site (58 + die) = 3 ∧ t.fenced (58 + die) = true ∧
    (t.rportOf port).state = 0)

/-- PUT and GET between peers. A PUT that a window takes goes to its homes and is counted once acknowledged, in the
order of its port; a GET waits for earlier PUTs and reads its sectors; data, acknowledgements and errors answer
the hub request they name; a refused packet is answered ERR and logged. Completes, under hypotheses on the state
and the operands alone (exec answers a next state): ranoaPut, ranoaPutMasked, getReq, getData, putAck, err,
putAckSend, arrivalCountAdd. Conventions of the model it rests on (its own choices, no rules of the spec): log 1,
42, 56. (R228, R500, R502, R503, R505, R506, R507, R508, R509) -/
def Obligations.RanoaOperations : Prop :=
  (∀ (s : State) (port reason : Nat) (r : RPkt), port < 8 → (s.rportOf port).state = 2 →
    s.rwinFor port r.offset r.payload.length true = .inl reason → ∃ t, exec (.ranoaPut port r) s = .next t ∧
    rShort .err reason 0 r.psn ∈ (t.rportOf port).wait ++ (t.rportOf port).replay.map Prod.snd ∧
    t.rna.dropped = satAdd 0xFFFFFFFF s.rna.dropped 1 ∧ t.mem = s.mem ∧
    (t.rportOf port).psnRx = (r.psn + 1) % 2 ^ 48) ∧
  (∀ (s : State) (port i a dst : Nat) (r : RPkt) (e : TlbEnt), r.payload.length = 64 →
    r.checks = [crc32c r.payload] → port < 8 → (s.rportOf port).state = 2 →
    s.rwinFor port r.offset r.payload.length true = .inr i →
    (s.rwinAt i).dva + (r.offset - (s.rwinAt i).off) < 2 ^ 55 →
    ((s.rwinAt i).dva + (r.offset - (s.rwinAt i).off)) % 64 = 0 →
    tlbFind (s.rwinAt i).ctx (((s.rwinAt i).dva + (r.offset - (s.rwinAt i).off)) / 0x10000) (s.tlbOf (.ranoa (rDie
    port - 58))) = some e →
    e.ans ((s.rwinAt i).dva + (r.offset - (s.rwinAt i).off)) true = .hit (.dev a) → s.zone a = .direct →
    a % 64 = 0 → s.targetOf a = some dst → s.fenced (rDie port) = false → s.fenced dst = false →
    s.mayIssue (rDie port) → ∃ t, exec (.ranoaPut port r) s = .next t ∧ t.counted = s.counted ++ [⟨s.hif.placeNext,
    if (s.rwinAt i).smode = 0 then none else some (s.rwinAt i).sync, if (s.rwinAt i).smode = 1 then 64 else 1, 1,
    none, some (port, r.psn), some i⟩] ∧ t.carries ⟨.write, rDie port, dst, look 0 s.hub.nextTid (rDie port), a,
    r.poison, r.payload, [crc32c r.payload], 0⟩ ∧ (t.rportOf port).psnRx = (r.psn + 1) % 2 ^ 48) ∧
  (∀ (s : State) (port i a dst : Nat) (r : RPkt) (e : TlbEnt), r.payload.length = 80 →
    r.checks = [crc32c (r.payload.take 64)] → port < 8 → (s.rportOf port).state = 2 →
    s.rwinFor port r.offset 64 true = .inr i → (s.rwinAt i).dva + (r.offset - (s.rwinAt i).off) < 2 ^ 55 →
    ((s.rwinAt i).dva + (r.offset - (s.rwinAt i).off)) % 64 = 0 →
    tlbFind (s.rwinAt i).ctx (((s.rwinAt i).dva + (r.offset - (s.rwinAt i).off)) / 0x10000) (s.tlbOf (.ranoa (rDie
    port - 58))) = some e →
    e.ans ((s.rwinAt i).dva + (r.offset - (s.rwinAt i).off)) true = .hit (.dev a) → s.zone a = .direct →
    a % 64 = 0 → s.targetOf a = some dst → s.fenced (rDie port) = false → s.fenced dst = false →
    s.mayIssue (rDie port) → ∃ t, exec (.ranoaPutMasked port r) s = .next t ∧ t.carries ⟨.writeMasked, rDie port,
    dst, look 0 s.hub.nextTid (rDie port), a, r.poison,
    r.payload.take 64 ++ leBytes 8 (leAt r.payload 64 8) ++ List.replicate 8 0, [crc32c (r.payload.take 64)], 0⟩ ∧
    (t.rportOf port).psnRx = (r.psn + 1) % 2 ^ 48) ∧
  (∀ (s : State) (port reason : Nat) (r : RPkt), port < 8 → (s.rportOf port).state = 2 →
    (s.rportOf port).rxWait = [] → s.counted = [] → s.rwinFor port r.offset (16 * r.rdLen) false = .inl reason →
    ∃ t, exec (.getReq port r) s = .next t ∧
    rShort .err reason r.tid 0 ∈ (t.rportOf port).wait ++ (t.rportOf port).replay.map Prod.snd ∧
    t.rna.dropped = satAdd 0xFFFFFFFF s.rna.dropped 1 ∧ t.mem = s.mem) ∧
  (∀ (s : State) (port i a dst : Nat) (r : RPkt) (e : TlbEnt), port < 8 → (s.rportOf port).state = 2 →
    (s.rportOf port).rxWait = [] → s.counted = [] → s.rwinFor port r.offset (16 * r.rdLen) false = .inr i →
    r.rdLen = 4 → (s.rwinAt i).dva + (r.offset - (s.rwinAt i).off) < 2 ^ 55 →
    ((s.rwinAt i).dva + (r.offset - (s.rwinAt i).off)) % 64 = 0 →
    tlbFind (s.rwinAt i).ctx (((s.rwinAt i).dva + (r.offset - (s.rwinAt i).off)) / 0x10000) (s.tlbOf (.ranoa (rDie
    port - 58))) = some e →
    e.ans ((s.rwinAt i).dva + (r.offset - (s.rwinAt i).off)) false = .hit (.dev a) → s.zone a = .direct →
    s.targetOf a = some dst → s.fenced (rDie port) = false → s.fenced dst = false → s.mayIssue (rDie port) → ∃ t,
    exec (.getReq port r) s = .next t ∧ t.carries ⟨.read, rDie port, dst, look 0 s.hub.nextTid (rDie port), a,
    false, [], [], 64⟩ ∧ (t.rportOf port).rxGets = (s.rportOf port).rxGets ++ [⟨r.tid,
    (s.rwinAt i).dva + (r.offset - (s.rwinAt i).off), 64, 1, []⟩]) ∧
  (∀ (s : State) (port : Nat) (r : RPkt), port < 8 → (s.rportOf port).state = 2 → (s.rportOf port).rxWait = [] →
    s.psnCounted port < (s.rportOf port).psnRx → ∃ t, exec (.getReq port r) s = .next t ∧
    (t.rportOf port).rxWait = [((s.rportOf port).psnRx, r)] ∧ t.hub = s.hub) ∧
  (∀ (s : State) (port : Nat) (r : RPkt) (p : Pkt), (s.rportOf port).state = 2 →
    (s.rportOf port).gets.find? (fun g => g.tid == r.tid && g.data.isNone) = some ⟨r.tid, p, p.addr % 2 ^ 44, 64,
    none⟩ → (s.rportOf port).gets.filter (fun g => g.isOf p) = [⟨r.tid, p, p.addr % 2 ^ 44, 64, none⟩] →
    (∀ g ∈ (s.rportOf port).gets, g.tid = r.tid → g.isOf p = true) → p.op = .read → p.addr % 16 = 0 → p.rdLen = 64 →
    r.payload.length = 64 → r.checks = [crc32c r.payload] → s.fenced p.src = false → s.fenced p.dst = false →
    (p.src, p.tid) ∉ s.hub.dropped → ∃ t, exec (.getData port r) s = .next t ∧
    t.carries (answer .respData p 0 r.poison r.payload) ∧
    (t.rportOf port).gets = (s.rportOf port).gets.filter (fun g => !g.isOf p)) ∧
  (∀ (s : State) (port k : Nat) (r : RPkt) (p : Pkt), (s.rportOf port).state = 2 → (s.rportOf port).puts = [(k,
    p)] → k < r.psn → s.fenced p.src = false → s.fenced p.dst = false → (p.src, p.tid) ∉ s.hub.dropped → ∃ t,
    exec (.putAck port r) s = .next t ∧ t.carries (answer .respAck p 0 false []) ∧ (t.rportOf port).puts = []) ∧
  (∀ (s : State) (port k : Nat) (r : RPkt) (p : Pkt), (s.rportOf port).state = 2 → (s.rportOf port).puts = [(k,
    p)] → r.tid = 0 → r.psn = k → s.fenced p.src = false → s.fenced p.dst = false → (p.src, p.tid) ∉ s.hub.dropped →
    ∃ t, exec (.err port r) s = .next t ∧ t.carries (deadAnswer p (0x04 + 256 * r.status)) ∧
    (t.rportOf port).puts = []) ∧
  (∀ (s : State) (port : Nat), (s.rportOf port).state = 2 → s.psnCounted port ≠ (s.rportOf port).ackSent → ∃ t,
    exec (.putAckSend port) s = .next t ∧ (t.rportOf port).ackSent = s.psnCounted port ∧
    rShort .putAck 0 0 (s.psnCounted port) ∈ (t.rportOf port).wait ++ (t.rportOf port).replay.map Prod.snd) ∧
  (∀ (s : State) (id o : Nat) (c : Counted), s.counted.find? (fun d => d.id == id) = some c →
    s.countable c = true → c.obj = some o → c.window = none → s.syncReady 57 o = true →
    (s.withCounted (s.counted.filter (fun d => d.id != id))).syncNow 57 o 0 (BitVec.ofNat 64 c.add) .plain → ∃ t,
    exec (.arrivalCountAdd id) s = .next t ∧ (t.syncOf o).val = (s.syncOf o).val + BitVec.ofNat 64 c.add ∧
    t.counted = s.counted.filter (fun d => d.id != id)) ∧
  (∀ (s : State) (id : Nat) (c : Counted), s.counted.find? (fun d => d.id == id) = some c → s.countable c = false →
    ∃ t, exec (.arrivalCountAdd id) s = .next t ∧ t = s)

/-- The cap, its loops and the clock modes. The fast loop raises the idle level while the estimate exceeds the
effective cap and lowers it when it lies more than 5 % below, and the slow loop moves the divider one step, each
step with an event; during a brake, a stop by Ivory or at the qualification point neither steps. The slow loop
measures input power and energy. A requested cap below the floor sets BELOW_FLOOR. A change of mode starts from
the setpoint of the mode. Completes, under hypotheses on the state and the operands alone (exec answers a next
state): fastLoopTick, slowLoopTick, floorRecompute, pwrCtlWrite, pwrCapWrite. Conventions of the model it rests on
(its own choices, no rules of the spec): log 1, 51. (R523, R525, R526, R528, R529, R538, R543, R546) -/
def Obligations.PowerLoops : Prop :=
  (∀ (s : State) (watts : Nat), s.devQual = false → s.arraysHeld = false → s.overCap watts = true → ∃ t,
    exec (.fastLoopTick watts) s = .next t ∧ t.pwr.idle = min 7 (s.pwr.idle + 1) ∧ t.pwr.div = s.pwr.div) ∧
  (∀ (s : State) (watts : Nat), s.devQual = false → s.arraysHeld = false → s.thermal = false →
    100 * watts < 95 * s.effCap → s.pwr.lowered = false → ∃ t, exec (.fastLoopTick watts) s = .next t ∧
    t.pwr.idle = s.pwr.idle - 1 ∧ t.pwr.div = s.pwr.div) ∧
  (∀ (s : State) (watts : Nat), (s.devQual = true ∨ s.arraysHeld = true) → ∃ t,
    exec (.fastLoopTick watts) s = .next t ∧ t = s) ∧
  (∀ (s : State) (watts vin : Nat), s.devQual = false → s.arraysHeld = false → s.mode ≠ 0 → 0 < s.pwr.idle →
    99 ≤ s.pwr.idleHigh → 99 ≤ s.pwr.sinceStep → s.pwr.div < 96 → ∃ t, exec (.slowLoopTick watts vin) s = .next t ∧
    t.pwr.div = s.pwr.div + 1 ∧ t.pwr.lowered = true ∧ t.pwr.watts = watts % 65536 ∧
    s.reports t (ev 0x61 none (s.pwr.div + 1) [])) ∧
  (∀ (s : State) (watts vin : Nat), s.devQual = false → s.arraysHeld = false → s.mode ≠ 0 → s.pwr.idle = 0 →
    vin < 65536 → 100 * watts ≤ 92 * (s.withBoot { s.boot with vin := vin }).effCap → 99 ≤ s.pwr.idleZero →
    99 ≤ s.pwr.sinceStep → s.setpoint < s.pwr.div → s.thermal = false → s.group = 0 → ∃ t,
    exec (.slowLoopTick watts vin) s = .next t ∧ t.pwr.div = s.pwr.div - 1 ∧
    s.reports t (ev 0x61 none (s.pwr.div - 1) [])) ∧
  (∀ (s : State) (watts vin : Nat), (s.devQual = true ∨ s.arraysHeld = true) → ∃ t,
    exec (.slowLoopTick watts vin) s = .next t ∧
    t.pwr = { s.pwr with watts := watts % 65536, energy := (s.pwr.energy + 1000 * watts) % 2 ^ 64 } ∧
    t.boot = { s.boot with vin := vin % 65536, vinLow := decide (vin < 32000), vinHigh := decide (40000 < vin) }) ∧
  (∀ (s : State) (floor : Nat), floor < 65536 → s.reqCap < floor → s.pwr.belowFloor = false → ∃ t,
    exec (.floorRecompute floor) s = .next t ∧ t.pwr.floor = floor ∧ t.pwr.belowFloor = true ∧
    t.pwr.floorSeen = true ∧ t.effCap = floor ∧ s.reports t (ev 0x60 none floor [])) ∧
  (∀ (s : State) (floor : Nat), floor < 65536 → floor ≤ s.reqCap → 99 ≤ s.pwr.floorOk → ∃ t,
    exec (.floorRecompute floor) s = .next t ∧ t.pwr.floor = floor ∧ t.pwr.belowFloor = false ∧ t.hfifo = s.hfifo) ∧
  (∀ (s : State) (who : Agent) (v : Word), s.hostGate who = true → isPf0OrCore who = true → s.devQual = false →
    s.mode = 1 → v &&& 0x3#64 = 2#64 → s.group = 0 → wfTable {} s.cdie = true → ∃ t,
    exec (.pwrCtlWrite who v) s = .next t ∧ t.reg 0x0500000 = 2#64 ∧ t.pwr.div = 63 ∧ (∀ d < 4,
    (t.cdieOf d).div = 32)) ∧
  (∀ (s : State) (who : Agent) (v : Word), s.hostGate who = true → isPf0OrCore who = true → ∃ t,
    exec (.pwrCapWrite who v) s = .next t ∧ t.regs = (s.setReg 0x0500008 (v &&& 0xFFFF#64)).regs) ∧
  (∀ (s : State) (who : Agent) (v : Word), s.hostGate who = true → isPf0OrCore who = false → ∃ t,
    exec (.pwrCapWrite who v) s = .next t ∧ t.regs = s.regs ∧ s.reports t (ev 0x80 none (whoArg who) [0x0500008]))

/-- Balancing groups, phase hints, the brake and temperatures. A STATUS of the group is taken unless its balancing
differs, and goes on to the other up ports; the module sends its own, and a silent member is dropped and named. A
hint gives the tile its class until it lapses. The brake holds while PWRBRK_N does. A die at its warning
temperature raises an event, one at its throttle temperature throttles, one at its trip temperature turns the
module off. Completes, under hypotheses on the state and the operands alone (exec answers a next state):
pwrGroupWrite, sbMsg, sbMsgSend, groupMemberSilent, hintPhaseStart, hintLapse, pwrbrkNAssert, pwrbrkNRelease,
tempSample, hubThermtripComparator, coreThrottleStep. Conventions of the model it rests on (its own choices, no
rules of the spec): log 1, 43, 44, 51. (R514, R530, R531, R532, R533, R537, R539, R540, R541, R542) -/
def Obligations.GroupsHintsAndTemperatures : Prop :=
  (∀ (s : State) (who : Agent) (v : Word), s.hostGate who = true → isPf0OrCore who = true →
    (s.setReg 0x0500030 (v &&& 0xFFFF0F13#64)).group ≠ s.group → ∃ t, exec (.pwrGroupWrite who v) s = .next t ∧
    t.regs = (s.setReg 0x0500030 (v &&& 0xFFFF0F13#64)).regs ∧ t.pwr.members = []) ∧
  (∀ (s : State) (port : Nat) (m : SbMsg), port < 8 → (s.rportOf port).state = 2 → m.group = s.group →
    s.group ≠ 0 → m.hops < 8 → (m.origin, m.seq) ∉ s.rna.seenSb → m.type = 1 → (m.bal == 1) = s.criticalPath →
    s.devQual = true → ∃ t, exec (.sbMsg port m) s = .next t ∧
    t.pwr.members = s.pwr.members.filter (fun x => x.origin != m.origin) ++ [⟨m.origin % 2 ^ 32, m.div % 256,
    m.power % 65536, m.cap % 65536, m.busy % 128, m.crit⟩] ∧ (m.origin, m.seq) ∈ t.rna.seenSb ∧ (∀ n < 8, n ≠ port →
    (s.rportOf n).state = 2 → ⟨.sbMsg, false, 0, 0, 0, 0, 0, sbPayload { m with hops := m.hops + 1 },
    []⟩ ∈ (t.rportOf n).wait ++ (t.rportOf n).replay.map Prod.snd)) ∧
  (∀ (s : State) (port : Nat) (m : SbMsg), port < 8 → (s.rportOf port).state = 2 → m.group = s.group →
    s.group ≠ 0 → m.hops < 8 → (m.origin, m.seq) ∉ s.rna.seenSb → m.type = 1 → (m.bal == 1) ≠ s.criticalPath → ∃ t,
    exec (.sbMsg port m) s = .next t ∧ t.pwr = s.pwr ∧ s.reports t (ev 0x63 none 2 [m.origin])) ∧
  (∀ (s : State) (port : Nat) (m : SbMsg), (8 ≤ m.hops ∨ m.group ≠ s.group ∨ m.type ≠ 1 ∨ (m.origin,
    m.seq) ∈ s.rna.seenSb) → ∃ t, exec (.sbMsg port m) s = .next t ∧ t.pwr = s.pwr ∧ t.rna.seenSb = s.rna.seenSb ∧
    t.hfifo = s.hfifo) ∧
  (∀ (s : State) (busy : Nat), s.group ≠ 0 → ∃ t, exec (.sbMsgSend busy) s = .next t ∧
    t.rna.sbSeq = (s.rna.sbSeq + 1) % 65536 ∧ (∀ n < 8, (s.rportOf n).state = 2 → ⟨.sbMsg, false, 0, 0, 0, 0, 0,
    sbPayload (s.status busy), []⟩ ∈ (t.rportOf n).wait ++ (t.rportOf n).replay.map Prod.snd)) ∧
  (∀ (s : State) (origin : Nat), origin ≠ s.origin32 → (∃ m ∈ s.pwr.members, m.origin = origin) → ∃ t,
    exec (.groupMemberSilent origin) s = .next t ∧
    t.pwr.members = s.pwr.members.filter (fun m => m.origin != origin) ∧ s.reports t (ev 0x63 none 1 [origin])) ∧
  (∀ (s : State) (tile c : Nat), hintClass (look [] s.pwr.hints tile) = some c → (s.devQual = true ∨ c < 2) → ∃ t,
    exec (.hintPhaseStart tile) s = .next t ∧ look none t.pwr.phase tile = some c ∧ t.pwr.div = s.pwr.div) ∧
  (∀ (s : State) (tile : Nat), (look [] s.pwr.hints tile).length = 1 → wfTable [] s.pwr.hints = true →
    wfTable none s.pwr.phase = true → ∃ t, exec (.hintLapse tile) s = .next t ∧ look [] t.pwr.hints tile = [] ∧
    look none t.pwr.phase tile = none) ∧
  (∀ (s : State), s.vinOut = false → ∃ t, exec (.pwrbrkNAssert) s = .next t ∧
    t.boot = { s.boot with pwrbrk := true } ∧ t.arraysHeld = true) ∧
  (∀ (s : State), s.vinOut = false → ∃ t, exec (.pwrbrkNRelease) s = .next t ∧
    t.boot = { s.boot with pwrbrk := false }) ∧
  (∀ (s : State) (p x : Nat), p < 64 → s.warnAt p ≤ x → x < tripAt p → look 0 s.pwr.temp p < s.warnAt p → x ≠ 0 →
    ∃ t, exec (.tempSample [⟨p, x⟩]) s = .next t ∧ look 0 t.pwr.temp p = x ∧ look false t.pwr.warn p = true ∧
    t.alert = true ∧ (s.throttleAt p ≤ x → look false t.pwr.throttle p = true) ∧
    s.reports t (ev 0x62 (some p) (x + 2 ^ 31) [])) ∧
  (∀ (s : State) (p x : Nat), p < 64 → tripAt p ≤ x → ∃ t, exec (.tempSample [⟨p, x⟩]) s = .next t ∧
    t.boot.thermtrip = true ∧ t.boot.phase = .off ∧ t.glb.ready = false ∧ t.disp.cmds = []) ∧
  (∀ (s : State), ∃ t, exec (.hubThermtripComparator) s = .next t ∧ t.boot.thermtrip = true ∧ t.boot.phase = .off ∧
    t.glb.ready = false ∧ t.disp.cmds = []) ∧
  (∀ (s : State) (die : Nat), die < 4 → wfTable {} s.cdie = true → s.devQual = false →
    look false s.pwr.throttle (53 + die) = true → ∃ t, exec (.coreThrottleStep die) s = .next t ∧
    (t.cdieOf die).div = min 48 ((s.cdieOf die).div + 1))

/-- A step runs the command at the front of the queue. With a command at the front of its queue, a step of the block
is exec of that command on the state with the queue's rest; with an empty queue the 100 MHz time counter advances
by one, arrays that are held count the cycles, and the write buffers empty (DESIGN CHOICE, log 3); memory,
registers, the hub and the dispatcher stay as they were. Conventions of the model it rests on (its own choices, no
rules of the spec): log 3. (R619) -/
def Obligations.StepRunsTheFrontCommand : Prop :=
  (∀ (c : Instr) (rest : List Instr) (s : State), step (s.withPending (c :: rest)) = exec c (s.withPending rest)) ∧
  (∀ s : State, s.pending = [] → ∃ t, step s = .next t ∧ t.time = (s.time + 1) % 2 ^ 64 ∧ t.pending = [] ∧
    t.mem = s.mem ∧ t.regs = s.regs ∧ t.hub = s.hub ∧ t.disp = s.disp ∧ ∀ k, (t.stackOf k).home = (s.stackOf k).home)

/-- No command is refused, and what stops is a reserved field. Every command in every state answers a next state, but
for the commands that take tile code or a program header: those may stop with the fault reservedNonzero, for a
reserved field that is set (R9 calls what follows undefined). Conventions of the model it rests on (its own
choices, no rules of the spec): log 1. (R9) -/
def Obligations.EveryCommandAnswers : Prop :=
  ∀ (c : Instr) (s : State), (∃ t, exec c s = .next t) ∨ (readsCode c = true ∧ exec c s = .fault .reservedNonzero)

/-- The module before power. After reset the queue is empty, the power-up has not begun, READY and SEALED are clear,
no die is fenced, no descriptor has been accepted, the memory lists nothing and is in its canonical form, and the
tile map is the one of shipment with the spare at position 32. Conventions of the model it rests on (its own
choices, no rules of the spec): log 9. (R576, R12) -/
def Obligations.ResetState : Prop :=
  State.reset.pending = [] ∧ State.reset.boot.phase = .off ∧ State.reset.glb.ready = false ∧
  State.reset.glb.sealed = false ∧ (∀ p < 64, State.reset.fenced p = false) ∧ State.reset.disp.cmds = [] ∧
  State.reset.mem = {} ∧ State.reset.memOk ∧ (∀ n < 32, State.reset.glb.tilemap[n]? = some (some n)) ∧
  look 0 State.reset.glb.site 32 = 1

/-- Every step keeps the memory in its canonical form. In any state whose memory lists its bytes at strictly rising
addresses and lists none that reads as an unlisted one, a step that answers a next state leaves the memory in that
form, whatever command it runs. Conventions of the model it rests on (its own choices, no rules of the spec): log
11. (R252, R253) -/
def Obligations.MemoryStaysCanonical : Prop :=
  ∀ s t : State, s.memOk → step s = .next t → t.memOk

/-- The serial number and the fused minimum SVN across every step. No step changes the serial number of the manifest,
and no step lowers the fused anti-rollback count, a warm reset, a trip and a loss of power included; values that
the spec leaves open are drawn afresh, never again. Conventions of the model it rests on (its own choices, no
rules of the spec): log 2, 50. (R584, R615) -/
def Obligations.IdentityHolds : Prop :=
  ∀ s t : State, step s = .next t →
    t.glb.serial = s.glb.serial ∧ s.ivory.fusedSvn ≤ t.ivory.fusedSvn ∧ s.free ≤ t.free

/-- A step changes only the parts of the state its command touches. A step that runs a command and answers a next
state takes that command off the queue and leaves every part of the state outside the frame of the command
(touches) as it was: registers, memory, sync objects, FIFOs, tiles, stacks, links, rings and sessions alike. -/
def Obligations.StepStaysInItsFrame : Prop :=
  ∀ (c : Instr) (rest : List Instr) (s t : State), step (s.withPending (c :: rest)) = .next t →
    t.pending = rest ∧ ∀ f : Field, f ∉ touches c → f.same s t

/-- UE8M0 scales, the accumulator format and the INT32 accumulator. A UE8M0 byte e is 2^(e - 127), and 0xFF is NaN;
the accumulator of an MMA is FP64 when an operand is, INT32 when both are integer formats without scales, FP32
otherwise; an INT32 accumulator adds the exact sum, wrapping, or with the saturation flag saturating with
OVERFLOW. (R116, R120, R123) -/
def Obligations.NumberFormats : Prop :=
  (∀ e < 256, ue8m0 e = if e = 0xFF then .nan else .fin false 1 ((e : Int) - 127)) ∧
  (∀ (a b : Fmt) (scaled : Bool), a.roleM = true → b.roleM = true →
    ((a = .fp64 ∨ b = .fp64) → accFmt a b scaled = .fp64) ∧
    (a ∈ [.int16, .int8, .int4, .trn] → b ∈ [.int16, .int8, .int4, .trn] → scaled = false → accFmt a b scaled = .int32) ∧
    (a ≠ .fp64 → b ≠ .fp64 → ¬(a ∈ [.int16, .int8, .int4, .trn] ∧ b ∈ [.int16, .int8, .int4, .trn] ∧ scaled = false) →
      accFmt a b scaled = .fp32)) ∧
  (∀ (acc : BitVec 32) (sum : Int),
    accInt false acc.toNat sum = (((acc.toInt + sum) % 2 ^ 32).toNat, 0#4) ∧
    (-2 ^ 31 ≤ acc.toInt + sum → acc.toInt + sum < 2 ^ 31 →
      accInt true acc.toNat sum = (((acc.toInt + sum) % 2 ^ 32).toNat, 0#4)) ∧
    (acc.toInt + sum < -2 ^ 31 → accInt true acc.toNat sum = (2 ^ 31, fOvf)) ∧
    (2 ^ 31 ≤ acc.toInt + sum → accInt true acc.toNat sum = (2 ^ 31 - 1, fOvf)))

/-- A Ranoa port comes up with its counters at 0. When the peer's HELLO brings a port up, the PSN counters of both
directions are 0 and nothing of an earlier stream waits or is outstanding; a port that is lost keeps no packet of
its stream for a resend, and training leaves only the HELLO in the replay buffer. Completes, under hypotheses on
the state and the operands alone (exec answers a next state): hello, ranoaSilenceTimeout, ranoaLightDetect. (R497) -/
def Obligations.RanoaStreamsStartAfresh : Prop :=
  (∀ (s : State) (port serial peer lanes : Nat), (s.rportOf port).state = 1 → peer < 8 → ∃ t,
    exec (.hello port serial peer lanes) s = .next t ∧ (t.rportOf port).state = 2 ∧ (t.rportOf port).psnTx = 0 ∧
    (t.rportOf port).psnRx = 0 ∧ (t.rportOf port).wait = [] ∧ (t.rportOf port).puts = [] ∧
    (t.rportOf port).gets = [] ∧ (t.rportOf port).rxGets = [] ∧ (t.rportOf port).replay = (s.rportOf port).replay) ∧
  (∀ (s : State) (port : Nat), (s.rportOf port).state = 2 → ∃ t, exec (.ranoaSilenceTimeout port) s = .next t ∧
    (t.rportOf port).state = 3 ∧ (t.rportOf port).wait = [] ∧ (t.rportOf port).replay = [] ∧
    (t.rportOf port).puts = [] ∧ (t.rportOf port).gets = [] ∧ (t.rportOf port).rxGets = []) ∧
  (∀ (s : State) (port : Nat), port < 8 → (s.rportOf port).state = 3 → (s.rportOf port).wait = [] →
    s.boot.rail = true → s.siteFailed (rDie port) = false → (s.rportOf port).usable ≠ 0 → ∃ t,
    exec (.ranoaLightDetect port) s = .next t ∧ (t.rportOf port).state = 1 ∧ (t.rportOf port).wait = [] ∧
    (t.rportOf port).replay = [(0, helloPkt s port (s.rportOf port).usable)])

/-- What a write does to poison, and the bytes it leaves alone. A full-sector write with good data clears the poison
of its sector; a partial write, merged or masked, never clears any; and each of the three leaves every byte
outside the bytes it writes as it was. (R555) -/
def Obligations.PoisonInMemory : Prop :=
  (∀ (r : Ram) (n : Nat) (d : List Byte) (ck : Option (BitVec 32)), (r.writeSector n d ck false).isPoison n = false) ∧
  (∀ (r : Ram) (a n : Nat) (bs : List Byte), r.isPoison n = true → (r.merge a bs).isPoison n = true) ∧
  (∀ (r : Ram) (n m mask : Nat) (d : List Byte) (p : Bool), r.isPoison m = true → (r.writeMasked n mask d p).isPoison m = true) ∧
  (∀ (r : Ram) (n a : Nat) (d : List Byte) (ck : Option (BitVec 32)) (p : Bool), a / 64 ≠ n →
    (r.writeSector n d ck p).rd a = r.rd a) ∧
  (∀ (r : Ram) (b a : Nat) (bs : List Byte), a < b ∨ b + bs.length ≤ a → (r.merge b bs).rd a = r.rd a) ∧
  (∀ (r : Ram) (n a mask : Nat) (d : List Byte) (p : Bool), a / 64 ≠ n ∨ bitOf mask (a % 64) = false →
    (r.writeMasked n mask d p).rd a = r.rd a)

/-- What the commands leave as it was within the parts they touch. A write that a stack serves changes no byte outside
its sectors, a masked write none it does not enable, an atomic none outside its operand; an operation on a sync
object leaves every other object, a register write every other register, a command of a port, core die or tile
every other port, core die or tile as it was. Completes, under hypotheses on the state and the operands alone
(exec answers a next state): write, writeMasked, atomicAdd, syncAdd, syncSet, syncWaitGe, syncWaitEq,
syncValueWrite, amoaddD, pwrCtlWrite, pwrCapWrite, pwrGroupWrite, rnaWoffValidSet, heartbeatSend, linkCrcError,
ranoaHeartbeatSend, coreThrottleStep, hintLapse. Conventions of the model it rests on (its own choices, no rules
of the spec): log 2. (R40, R220, R545) -/
def Obligations.OtherEntriesStay : Prop :=
  (∀ (s : State) (p : Pkt), p.op = .write → s.serves p → ∃ t, exec (.write p) s = .next t ∧ (∀ a,
    (a / 64 < sectorOf p.addr ∨ sectorOf p.addr + p.payload.length / 64 ≤ a / 64) → t.mem.rd a = s.mem.rd a)) ∧
  (∀ (s : State) (p : Pkt), p.op = .writeMasked → s.serves p → p.checks.head? = some (crc32c (p.payload.take 64)) →
    s.mem.ckBad (sectorOf p.addr) = false → ∃ t, exec (.writeMasked p .none) s = .next t ∧ (∀ a,
    (a / 64 ≠ sectorOf p.addr ∨ bitOf (leAt p.payload 64 8) (a % 64) = false) → t.mem.rd a = s.mem.rd a)) ∧
  (∀ (s : State) (p : Pkt) (size : Nat), s.serves (withAop p 1) → (size = 4 ∨ size = 8) →
    leAt (withAop p 1).payload 9 1 = size → p.addr % size = 0 → s.mem.ckBad (sectorOf p.addr) = false → ∃ t,
    exec (.atomicAdd p .none) s = .next t ∧ (∀ a, (a < p.addr ∨ p.addr + size ≤ a) → t.mem.rd a = s.mem.rd a)) ∧
  (∀ (s : State) (src tid obj : Nat) (v : Word), src ≠ 63 → obj < 8192 → s.seenTid 63 src tid = false →
    s.fenced src = false → (src, tid) ∉ s.hub.dropped → ∃ t, exec (.syncAdd src tid obj v) s = .next t ∧ (∀ m,
    m ≠ obj → t.syncOf m = s.syncOf m)) ∧
  (∀ (s : State) (src tid obj : Nat) (v : Word), src ≠ 63 → obj < 8192 → s.seenTid 63 src tid = false →
    s.fenced src = false → (src, tid) ∉ s.hub.dropped → ∃ t, exec (.syncSet src tid obj v) s = .next t ∧ (∀ m,
    m ≠ obj → t.syncOf m = s.syncOf m)) ∧
  (∀ (s : State) (src tid obj : Nat) (v : Word), src ≠ 63 → obj < 8192 → s.seenTid 63 src tid = false →
    s.fenced src = false → ∃ t, exec (.syncWaitGe src tid obj v) s = .next t ∧ (∀ m, m ≠ obj →
    t.syncOf m = s.syncOf m)) ∧
  (∀ (s : State) (src tid obj : Nat) (v : Word), src ≠ 63 → obj < 8192 → s.seenTid 63 src tid = false →
    s.fenced src = false → ∃ t, exec (.syncWaitEq src tid obj v) s = .next t ∧ (∀ m, m ≠ obj →
    t.syncOf m = s.syncOf m)) ∧
  (∀ (s : State) (who : Agent) (obj : Nat) (v : Word), s.hostGate who = true → s.mayObj who obj = true → ∃ t,
    exec (.syncValueWrite who obj v) s = .next t ∧ (∀ m, m ≠ obj → t.syncOf m = s.syncOf m)) ∧
  (∀ (s : State) (core obj : Nat) (v : Word), ∃ t, exec (.amoaddD core obj v) s = .next t ∧ (∀ m, m ≠ obj →
    t.syncOf m = s.syncOf m)) ∧
  (∀ (s : State) (who : Agent) (v : Word), s.hostGate who = true → isPf0OrCore who = true → ∃ t,
    exec (.pwrCtlWrite who v) s = .next t ∧ (∀ o, o ≠ 0x0500000 → t.reg o = s.reg o)) ∧
  (∀ (s : State) (who : Agent) (v : Word), s.hostGate who = true → isPf0OrCore who = true → ∃ t,
    exec (.pwrCapWrite who v) s = .next t ∧ (∀ o, o ≠ 0x0500008 → t.reg o = s.reg o)) ∧
  (∀ (s : State) (who : Agent) (v : Word), s.hostGate who = true → isPf0OrCore who = true → ∃ t,
    exec (.pwrGroupWrite who v) s = .next t ∧ (∀ o, o ≠ 0x0500030 → t.reg o = s.reg o)) ∧
  (∀ (s : State) (who : Agent) (i : Nat) (v : Word), i < 2048 → s.hostGate who = true → isPf0OrCore who = true →
    ∃ t, exec (.rnaWoffValidSet who i v) s = .next t ∧ (∀ o, o ≠ rwin i → t.reg o = s.reg o)) ∧
  (∀ (s : State) (port : Nat) (sd : Side), s.portUp port = true → port ≠ 63 → ∃ t,
    exec (.heartbeatSend port sd) s = .next t ∧ (∀ q, q ≠ port → t.linkOf q = s.linkOf q)) ∧
  (∀ (s : State) (port : Nat) (sd : Side) (hdr : BitVec 128) (body : List Byte) (crc : BitVec 32),
    (s.linkOf port).state = 2 → port ≤ 62 → ∃ t, exec (.linkCrcError port sd hdr body crc) s = .next t ∧ (∀ q,
    q ≠ port → t.linkOf q = s.linkOf q)) ∧
  (∀ (s : State) (port : Nat), (s.rportOf port).state = 2 → (s.rportOf port).wait = [] → ∃ t,
    exec (.ranoaHeartbeatSend port) s = .next t ∧ (∀ q, q ≠ port → t.rportOf q = s.rportOf q)) ∧
  (∀ (s : State) (die : Nat), die < 4 → ∃ t, exec (.coreThrottleStep die) s = .next t ∧ (∀ d, d ≠ die →
    t.cdieOf d = s.cdieOf d)) ∧
  (∀ (s : State) (tile : Nat), ∃ t, exec (.hintLapse tile) s = .next t ∧ (∀ n, n ≠ tile →
    look [] t.pwr.hints n = look [] s.pwr.hints n) ∧ (∀ n, n ≠ tile →
    look none t.pwr.phase n = look none s.pwr.phase n))

/-- What reads of the setup registers return. Before READY the host reads 0 anywhere but in the recovery registers,
which PF0 and the cores read while a start-up is in recovery; a VF reads 0 where it may not read; an entry of the
tile map gives VALID and the position, an entry of the revision table the state, type and revision of its die.
Conventions of the model it rests on (its own choices, no rules of the spec): log 5, 6. (R578, R588, R613, R19,
R21) -/
def Obligations.RegisterReads : Prop :=
  (∀ (s : State) (fn off : Nat), s.glb.ready = false → off ∉ [0x900, 0x908, 0x910] → s.readReg (.host fn) off = 0#64) ∧
  (∀ (s : State) (fn off : Nat), fn ≠ 0 → s.vfReads fn off = false → s.readReg (.host fn) off = 0#64) ∧
  (∀ (s : State) (who : Agent), isPf0OrCore who = true → s.boot.phase = .recovery →
    s.readReg who 0x900 = BitVec.ofNat 64 (16 * s.glb.recReason + s.glb.recState)) ∧
  (∀ (s : State) (who : Agent) (n p : Nat), isPf0OrCore who = true → s.hostGate who = true → n < 32 → s.posOf n = some p →
    p ≤ 32 → s.readReg who (0x200 + 4 * n) = BitVec.ofNat 64 (2 ^ 31 + p)) ∧
  (∀ (s : State) (who : Agent) (n : Nat), isPf0OrCore who = true → s.hostGate who = true → n < 32 → s.posOf n = none →
    (s.readReg who (0x200 + 4 * n)).getLsbD 31 = false) ∧
  (∀ (s : State) (who : Agent) (p letter digit feat : Nat), isPf0OrCore who = true → s.hostGate who = true → p < 64 →
    s.glb.manifest[p]? = some ⟨letter, digit, feat⟩ → letter < 256 → digit < 256 →
    s.readReg who (0x400 + 4 * p) =
      BitVec.ofNat 64 (2 ^ 28 * look 0 s.glb.site p + 2 ^ 16 * dieType p + 2 ^ 8 * letter + digit))
end

