-- ==== Sys2Proof/Laws/Table.lean ====
section
/-!
SUPPORT. Laws of sparse tables: reading after writing, and the canonical form that every write keeps.
-/
namespace Sys2Proof.Machine

variable {α : Type} [DecidableEq α] {d : α}

/-- Reading a key after a write gives the value written at that key and the old value elsewhere. -/
theorem look_put (m : FMap α) (k j : Nat) (v : α) (lo : Nat) (h : wfAbove d lo m = true) :
    look d (put d m k v) j = if k = j then v else look d m j := by
  induction m generalizing lo with
  | nil => by_cases hv : v = d <;> simp [put, look, hv]
  | cons c r ih =>
    obtain ⟨i, w⟩ := c
    simp only [wfAbove, Bool.and_eq_true, decide_eq_true_eq] at h
    obtain ⟨⟨hlo, hw⟩, hr⟩ := h
    have low : ∀ (n : Nat) (q : FMap α), wfAbove d n q = true → ∀ x, x < n → look d q x = d := by
      intro n q
      induction q generalizing n with
      | nil => intro _ x _; rfl
      | cons c' r' ih' =>
        intro hq x hx
        obtain ⟨i', w'⟩ := c'
        simp only [wfAbove, Bool.and_eq_true, decide_eq_true_eq] at hq
        have : ¬ i' = x := by omega
        simp only [look, if_neg this]
        exact ih' (i' + 1) hq.2 x (by omega)
    by_cases h1 : k < i
    · by_cases hv : v = d
      · subst hv
        by_cases hkj : k = j
        · subst hkj
          simp [put, look, h1, show ¬ i = k by omega, low (i + 1) r hr k (by omega)]
        · simp [put, h1, hkj]
      · simp [put, look, h1, hv]
    · by_cases h2 : k = i
      · subst h2
        by_cases hv : v = d
        · subst hv
          by_cases hkj : k = j
          · subst hkj; simp [put, low (k + 1) r hr k (by omega)]
          · simp [put, look, hkj]
        · by_cases hkj : k = j <;> simp [put, look, hv, hkj]
      · by_cases hij : i = j
        · subst hij; simp [put, look, h1, h2]
        · simp [put, look, h1, h2, hij, ih (i + 1) hr]

/-- A bound below the first key may be lowered. -/
theorem wfAbove_mono {m : FMap α} {lo lo' : Nat} (hle : lo' ≤ lo) (h : wfAbove d lo m = true) : wfAbove d lo' m = true := by
  cases m with
  | nil => rfl
  | cons c r =>
    obtain ⟨i, w⟩ := c
    simp only [wfAbove, Bool.and_eq_true, decide_eq_true_eq] at h ⊢
    exact ⟨⟨by omega, h.1.2⟩, h.2⟩

/-- A write above a bound keeps the canonical form above it. -/
theorem wfAbove_put (m : FMap α) (k : Nat) (v : α) (lo : Nat) (hk : lo ≤ k) (h : wfAbove d lo m = true) :
    wfAbove d lo (put d m k v) = true := by
  induction m generalizing lo with
  | nil => by_cases hv : v = d <;> simp [put, wfAbove, hv, hk]
  | cons c r ih =>
    obtain ⟨i, w⟩ := c
    have h' := h
    simp only [wfAbove, Bool.and_eq_true, decide_eq_true_eq] at h'
    obtain ⟨⟨hlo, hw⟩, hr⟩ := h'
    simp only [put]
    by_cases h1 : k < i
    · by_cases hv : v = d
      · simpa [h1, hv] using h
      · simp only [if_pos h1, if_neg hv, wfAbove, Bool.and_eq_true, decide_eq_true_eq]
        exact ⟨⟨hk, hv⟩, ⟨by omega, hw⟩, hr⟩
    · by_cases h2 : k = i
      · by_cases hv : v = d
        · simp only [if_neg h1, if_pos h2, if_pos hv]
          exact wfAbove_mono (by omega) hr
        · simp only [if_neg h1, if_pos h2, if_neg hv, wfAbove, Bool.and_eq_true, decide_eq_true_eq]
          exact ⟨⟨hk, hv⟩, by rw [h2]; exact hr⟩
      · simp only [if_neg h1, if_neg h2, wfAbove, Bool.and_eq_true, decide_eq_true_eq]
        exact ⟨⟨hlo, hw⟩, ih (i + 1) (by omega) hr⟩

/-- A write keeps the canonical form. -/
theorem wfTable_put (m : FMap α) (k : Nat) (v : α) (h : wfTable d m = true) : wfTable d (put d m k v) = true :=
  wfAbove_put m k v 0 (Nat.zero_le k) h

/-- A change at a key keeps the canonical form. -/
theorem wfTable_upd (m : FMap α) (k : Nat) (f : α → α) (h : wfTable d m = true) : wfTable d (upd d m k f) = true :=
  wfTable_put m k _ h

/-- Dropping keys keeps the canonical form above a bound. -/
theorem wfAbove_keepKeys (p : Nat → Bool) (m : FMap α) (lo : Nat) (h : wfAbove d lo m = true) :
    wfAbove d lo (keepKeys p m) = true := by
  induction m generalizing lo with
  | nil => rfl
  | cons c r ih =>
    obtain ⟨i, w⟩ := c
    simp only [wfAbove, Bool.and_eq_true, decide_eq_true_eq] at h
    obtain ⟨⟨hlo, hw⟩, hr⟩ := h
    have hr' := ih (i + 1) hr
    by_cases hp : p i = true
    · simp only [keepKeys, List.filter, hp, wfAbove, Bool.and_eq_true, decide_eq_true_eq]
      exact ⟨⟨hlo, hw⟩, hr'⟩
    · simp only [keepKeys, List.filter, hp]
      exact wfAbove_mono (by omega) hr'

/-- Dropping keys keeps the canonical form. -/
theorem wfTable_keepKeys (p : Nat → Bool) (m : FMap α) (h : wfTable d m = true) : wfTable d (keepKeys p m) = true :=
  wfAbove_keepKeys p m 0 h

/-- Reading after a write to a canonical table. -/
@[simp] theorem look_put_same (m : FMap α) (k : Nat) (v : α) (h : wfTable d m = true) : look d (put d m k v) k = v := by
  rw [look_put m k k v 0 h]; simp

/-- A write leaves every other key alone. -/
theorem look_put_other (m : FMap α) (k j : Nat) (v : α) (h : wfTable d m = true) (hj : k ≠ j) :
    look d (put d m k v) j = look d m j := by
  rw [look_put m k j v 0 h]; simp [hj]

/-- A write leaves every other key alone, canonical or not. -/
theorem look_put_ne (m : FMap α) (k j : Nat) (v : α) (hj : k ≠ j) : look d (put d m k v) j = look d m j := by
  induction m with
  | nil => simp only [put]; split <;> simp [look, hj]
  | cons c r ih =>
    obtain ⟨i, w⟩ := c
    simp only [put]
    split
    · split <;> simp [look, hj]
    · split
      · rename_i hk
        split <;> simp [look, ← hk, hj]
      · simp only [look]; rw [ih]

/-- A written value that is not the default reads back, canonical or not. -/
theorem look_put_new (m : FMap α) (k : Nat) (v : α) (hv : v ≠ d) : look d (put d m k v) k = v := by
  induction m with
  | nil => simp [put, hv, look]
  | cons c r ih =>
    obtain ⟨i, w⟩ := c
    simp only [put]
    split
    · simp [hv, look]
    · split
      · simp [hv, look]
      · rename_i h1 h2
        simp only [look]
        rw [if_neg (fun h => h2 h.symm), ih]

/-- The later of two writes at one key stands, if the first was not the default. -/
theorem put_put (m : FMap α) (k : Nat) (a b : α) (ha : a ≠ d) : put d (put d m k a) k b = put d m k b := by
  induction m with
  | nil => simp only [put, ha, if_false]; simp
  | cons c r ih =>
    obtain ⟨i, w⟩ := c
    simp only [put]
    split
    · rename_i h
      simp only [ha, if_false, put]
      simp
    · split
      · rename_i h1 h2
        subst h2
        simp only [ha, if_false, put]
        simp
      · rename_i h1 h2
        simp only [put]
        rw [if_neg h1, if_neg h2, ih]

end Sys2Proof.Machine
end

