-- ==== Sys2Proof/Laws/Mem.lean ====
section
/-!
SUPPORT. Every operation on a memory keeps its canonical form, and a byte read after a write is the byte written.
-/
namespace Sys2Proof.Machine

/-- Storing bytes keeps the canonical form. -/
theorem wfTable_putBytes (bs : List Byte) (m : FMap Byte) (a : Nat) (h : wfTable 0#8 m = true) :
    wfTable 0#8 (putBytes m a bs) = true := by
  induction bs generalizing m a with
  | nil => exact h
  | cons b r ih => exact ih _ _ (wfTable_put m a b h)

/-- The canonical form concerns the bytes only. -/
theorem Ram.wf_of_bytes {r r' : Ram} (h : r'.bytes = r.bytes) (hr : r.wf = true) : r'.wf = true := by
  unfold Ram.wf at *; rw [h]; exact hr

variable {r : Ram} (h : r.wf = true)
include h

/-- Storing bytes. -/
theorem Ram.writeN_wf (a : Nat) (bs : List Byte) : (r.writeN a bs).wf = true := wfTable_putBytes bs r.bytes a h

/-- Marking poison. -/
theorem Ram.setPoison_wf (n : Nat) (p : Bool) : (r.setPoison n p).wf = true := h

/-- Renewing a check word. -/
theorem Ram.fixCk_wf (n : Nat) : (r.fixCk n).wf = true := h

/-- A full-sector write. -/
theorem Ram.writeSector_wf (n : Nat) (data : List Byte) (ck : Option (BitVec 32)) (p : Bool) :
    (r.writeSector n data ck p).wf = true :=
  Ram.writeN_wf h (64 * n) ((data ++ List.replicate 64 0#8).take 64)

/-- Making a range undefined. -/
theorem Ram.undefine_wf (lo len tag : Nat) : (r.undefine lo len tag).wf = true := h

/-- Zeroing a range. -/
theorem Ram.zero_wf (lo len : Nat) : (r.zero lo len).wf = true := by
  show wfTable 0#8 (keepKeys (fun k => decide (k < lo) || decide (lo + len ≤ k)) r.bytes) = true
  exact wfTable_keepKeys _ r.bytes h

/-- Poisoning a range. -/
theorem Ram.poisonRange_wf (lo len : Nat) : (r.poisonRange lo len).wf = true := h

omit h in
/-- A fold of operations that keep the canonical form keeps it. -/
theorem Ram.foldl_wf {β : Type} (f : Ram → β → Ram) (hf : ∀ m b, m.wf = true → (f m b).wf = true) (l : List β) (m : Ram)
    (hm : m.wf = true) : (l.foldl f m).wf = true := by
  induction l generalizing m with
  | nil => exact hm
  | cons b t ih => exact ih _ (hf m b hm)

omit h in
/-- Consecutive full-sector writes. -/
theorem Ram.writeSectors_wf (k : Nat) (p : Bool) (d : List Byte) (ck : List (BitVec 32)) (n : Nat) (r : Ram)
    (h : r.wf = true) : (r.writeSectors n p d ck k).wf = true := by
  induction k generalizing r n d ck with
  | zero => exact h
  | succ k ih => exact ih _ _ _ _ (Ram.writeSector_wf h n _ _ p)

/-- A merge of a part of a sector. -/
theorem Ram.merge_wf (a : Nat) (bs : List Byte) : (r.merge a bs).wf = true := by
  refine Ram.writeN_wf (Ram.foldl_wf _ (fun m n hm => ?_) _ r h) a bs
  by_cases hb : m.ckBad n = true
  · simp only [hb, if_true]; exact Ram.fixCk_wf (Ram.setPoison_wf hm n true) n
  · simp only [hb]; exact hm

/-- A masked write. -/
theorem Ram.writeMasked_wf (n mask : Nat) (data : List Byte) (p : Bool) : (r.writeMasked n mask data p).wf = true := by
  unfold Ram.writeMasked
  split
  · exact h
  · refine Ram.foldl_wf _ (fun m c hm => Ram.writeN_wf hm _ _) _ _ ?_
    split
    · exact Ram.fixCk_wf (Ram.setPoison_wf h n true) n
    · exact h

/-- Putting a saved range back at an address. -/
theorem Ram.restoreAt_wf (sv : Saved) (lo : Nat) : (r.restoreAt sv lo).wf = true := by
  have hz := Ram.zero_wf h lo sv.len
  have := Ram.foldl_wf (fun (m : Ram) (c : Nat × Byte) => { m with bytes := put 0#8 m.bytes (c.1 - sv.lo + lo) c.2 })
    (fun m c hm => wfTable_put m.bytes _ c.2 hm) sv.bytes _ hz
  exact this

/-- Putting a saved range back. -/
theorem Ram.restore_wf (sv : Saved) : (r.restore sv).wf = true := Ram.restoreAt_wf h sv sv.lo

/-- A byte just written is read back, where no undefined range is listed. -/
theorem Ram.rd_writeN_one (a : Nat) (b : Byte) (hu : r.undef = []) : (r.writeN a [b]).rd a = b := by
  simp only [Ram.rd, Ram.writeN, hu, if_true, undefTag, putBytes]
  exact look_put_same r.bytes a b h

end Sys2Proof.Machine
end

