-- ==== Sys2Proof/Laws/State.lean ====
section
/-!
SUPPORT. What each update of the state changes: one lemma per field per update.
-/
namespace Sys2Proof.Machine
set_option Elab.async false

@[simp] theorem State.withGlb_glb (s : State) (x : Glb) : (s.withGlb x).glb = x := rfl
@[simp] theorem State.withGlb_repair (s : State) (x : Glb) : (s.withGlb x).repair = s.repair := rfl
@[simp] theorem State.withGlb_boot (s : State) (x : Glb) : (s.withGlb x).boot = s.boot := rfl
@[simp] theorem State.withGlb_ivory (s : State) (x : Glb) : (s.withGlb x).ivory = s.ivory := rfl
@[simp] theorem State.withGlb_link (s : State) (x : Glb) : (s.withGlb x).link = s.link := rfl
@[simp] theorem State.withGlb_hub (s : State) (x : Glb) : (s.withGlb x).hub = s.hub := rfl
@[simp] theorem State.withGlb_hfifo (s : State) (x : Glb) : (s.withGlb x).hfifo = s.hfifo := rfl
@[simp] theorem State.withGlb_msix (s : State) (x : Glb) : (s.withGlb x).msix = s.msix := rfl
@[simp] theorem State.withGlb_sync (s : State) (x : Glb) : (s.withGlb x).sync = s.sync := rfl
@[simp] theorem State.withGlb_counted (s : State) (x : Glb) : (s.withGlb x).counted = s.counted := rfl
@[simp] theorem State.withGlb_mem (s : State) (x : Glb) : (s.withGlb x).mem = s.mem := rfl
@[simp] theorem State.withGlb_stack (s : State) (x : Glb) : (s.withGlb x).stack = s.stack := rfl
@[simp] theorem State.withGlb_memc (s : State) (x : Glb) : (s.withGlb x).memc = s.memc := rfl
@[simp] theorem State.withGlb_pool (s : State) (x : Glb) : (s.withGlb x).pool = s.pool := rfl
@[simp] theorem State.withGlb_tier (s : State) (x : Glb) : (s.withGlb x).tier = s.tier := rfl
@[simp] theorem State.withGlb_xlt (s : State) (x : Glb) : (s.withGlb x).xlt = s.xlt := rfl
@[simp] theorem State.withGlb_core (s : State) (x : Glb) : (s.withGlb x).core = s.core := rfl
@[simp] theorem State.withGlb_cdie (s : State) (x : Glb) : (s.withGlb x).cdie = s.cdie := rfl
@[simp] theorem State.withGlb_hif (s : State) (x : Glb) : (s.withGlb x).hif = s.hif := rfl
@[simp] theorem State.withGlb_sess (s : State) (x : Glb) : (s.withGlb x).sess = s.sess := rfl
@[simp] theorem State.withGlb_disp (s : State) (x : Glb) : (s.withGlb x).disp = s.disp := rfl
@[simp] theorem State.withGlb_rna (s : State) (x : Glb) : (s.withGlb x).rna = s.rna := rfl
@[simp] theorem State.withGlb_pwr (s : State) (x : Glb) : (s.withGlb x).pwr = s.pwr := rfl
@[simp] theorem State.withGlb_tile (s : State) (x : Glb) : (s.withGlb x).tile = s.tile := rfl
@[simp] theorem State.withGlb_regs (s : State) (x : Glb) : (s.withGlb x).regs = s.regs := rfl
@[simp] theorem State.withGlb_replies (s : State) (x : Glb) : (s.withGlb x).replies = s.replies := rfl
@[simp] theorem State.withGlb_time (s : State) (x : Glb) : (s.withGlb x).time = s.time := rfl
@[simp] theorem State.withGlb_free (s : State) (x : Glb) : (s.withGlb x).free = s.free := rfl
@[simp] theorem State.withGlb_pending (s : State) (x : Glb) : (s.withGlb x).pending = s.pending := rfl

@[simp] theorem State.withRepair_glb (s : State) (x : Repair) : (s.withRepair x).glb = s.glb := rfl
@[simp] theorem State.withRepair_repair (s : State) (x : Repair) : (s.withRepair x).repair = x := rfl
@[simp] theorem State.withRepair_boot (s : State) (x : Repair) : (s.withRepair x).boot = s.boot := rfl
@[simp] theorem State.withRepair_ivory (s : State) (x : Repair) : (s.withRepair x).ivory = s.ivory := rfl
@[simp] theorem State.withRepair_link (s : State) (x : Repair) : (s.withRepair x).link = s.link := rfl
@[simp] theorem State.withRepair_hub (s : State) (x : Repair) : (s.withRepair x).hub = s.hub := rfl
@[simp] theorem State.withRepair_hfifo (s : State) (x : Repair) : (s.withRepair x).hfifo = s.hfifo := rfl
@[simp] theorem State.withRepair_msix (s : State) (x : Repair) : (s.withRepair x).msix = s.msix := rfl
@[simp] theorem State.withRepair_sync (s : State) (x : Repair) : (s.withRepair x).sync = s.sync := rfl
@[simp] theorem State.withRepair_counted (s : State) (x : Repair) : (s.withRepair x).counted = s.counted := rfl
@[simp] theorem State.withRepair_mem (s : State) (x : Repair) : (s.withRepair x).mem = s.mem := rfl
@[simp] theorem State.withRepair_stack (s : State) (x : Repair) : (s.withRepair x).stack = s.stack := rfl
@[simp] theorem State.withRepair_memc (s : State) (x : Repair) : (s.withRepair x).memc = s.memc := rfl
@[simp] theorem State.withRepair_pool (s : State) (x : Repair) : (s.withRepair x).pool = s.pool := rfl
@[simp] theorem State.withRepair_tier (s : State) (x : Repair) : (s.withRepair x).tier = s.tier := rfl
@[simp] theorem State.withRepair_xlt (s : State) (x : Repair) : (s.withRepair x).xlt = s.xlt := rfl
@[simp] theorem State.withRepair_core (s : State) (x : Repair) : (s.withRepair x).core = s.core := rfl
@[simp] theorem State.withRepair_cdie (s : State) (x : Repair) : (s.withRepair x).cdie = s.cdie := rfl
@[simp] theorem State.withRepair_hif (s : State) (x : Repair) : (s.withRepair x).hif = s.hif := rfl
@[simp] theorem State.withRepair_sess (s : State) (x : Repair) : (s.withRepair x).sess = s.sess := rfl
@[simp] theorem State.withRepair_disp (s : State) (x : Repair) : (s.withRepair x).disp = s.disp := rfl
@[simp] theorem State.withRepair_rna (s : State) (x : Repair) : (s.withRepair x).rna = s.rna := rfl
@[simp] theorem State.withRepair_pwr (s : State) (x : Repair) : (s.withRepair x).pwr = s.pwr := rfl
@[simp] theorem State.withRepair_tile (s : State) (x : Repair) : (s.withRepair x).tile = s.tile := rfl
@[simp] theorem State.withRepair_regs (s : State) (x : Repair) : (s.withRepair x).regs = s.regs := rfl
@[simp] theorem State.withRepair_replies (s : State) (x : Repair) : (s.withRepair x).replies = s.replies := rfl
@[simp] theorem State.withRepair_time (s : State) (x : Repair) : (s.withRepair x).time = s.time := rfl
@[simp] theorem State.withRepair_free (s : State) (x : Repair) : (s.withRepair x).free = s.free := rfl
@[simp] theorem State.withRepair_pending (s : State) (x : Repair) : (s.withRepair x).pending = s.pending := rfl

@[simp] theorem State.withBoot_glb (s : State) (x : Boot) : (s.withBoot x).glb = s.glb := rfl
@[simp] theorem State.withBoot_repair (s : State) (x : Boot) : (s.withBoot x).repair = s.repair := rfl
@[simp] theorem State.withBoot_boot (s : State) (x : Boot) : (s.withBoot x).boot = x := rfl
@[simp] theorem State.withBoot_ivory (s : State) (x : Boot) : (s.withBoot x).ivory = s.ivory := rfl
@[simp] theorem State.withBoot_link (s : State) (x : Boot) : (s.withBoot x).link = s.link := rfl
@[simp] theorem State.withBoot_hub (s : State) (x : Boot) : (s.withBoot x).hub = s.hub := rfl
@[simp] theorem State.withBoot_hfifo (s : State) (x : Boot) : (s.withBoot x).hfifo = s.hfifo := rfl
@[simp] theorem State.withBoot_msix (s : State) (x : Boot) : (s.withBoot x).msix = s.msix := rfl
@[simp] theorem State.withBoot_sync (s : State) (x : Boot) : (s.withBoot x).sync = s.sync := rfl
@[simp] theorem State.withBoot_counted (s : State) (x : Boot) : (s.withBoot x).counted = s.counted := rfl
@[simp] theorem State.withBoot_mem (s : State) (x : Boot) : (s.withBoot x).mem = s.mem := rfl
@[simp] theorem State.withBoot_stack (s : State) (x : Boot) : (s.withBoot x).stack = s.stack := rfl
@[simp] theorem State.withBoot_memc (s : State) (x : Boot) : (s.withBoot x).memc = s.memc := rfl
@[simp] theorem State.withBoot_pool (s : State) (x : Boot) : (s.withBoot x).pool = s.pool := rfl
@[simp] theorem State.withBoot_tier (s : State) (x : Boot) : (s.withBoot x).tier = s.tier := rfl
@[simp] theorem State.withBoot_xlt (s : State) (x : Boot) : (s.withBoot x).xlt = s.xlt := rfl
@[simp] theorem State.withBoot_core (s : State) (x : Boot) : (s.withBoot x).core = s.core := rfl
@[simp] theorem State.withBoot_cdie (s : State) (x : Boot) : (s.withBoot x).cdie = s.cdie := rfl
@[simp] theorem State.withBoot_hif (s : State) (x : Boot) : (s.withBoot x).hif = s.hif := rfl
@[simp] theorem State.withBoot_sess (s : State) (x : Boot) : (s.withBoot x).sess = s.sess := rfl
@[simp] theorem State.withBoot_disp (s : State) (x : Boot) : (s.withBoot x).disp = s.disp := rfl
@[simp] theorem State.withBoot_rna (s : State) (x : Boot) : (s.withBoot x).rna = s.rna := rfl
@[simp] theorem State.withBoot_pwr (s : State) (x : Boot) : (s.withBoot x).pwr = s.pwr := rfl
@[simp] theorem State.withBoot_tile (s : State) (x : Boot) : (s.withBoot x).tile = s.tile := rfl
@[simp] theorem State.withBoot_regs (s : State) (x : Boot) : (s.withBoot x).regs = s.regs := rfl
@[simp] theorem State.withBoot_replies (s : State) (x : Boot) : (s.withBoot x).replies = s.replies := rfl
@[simp] theorem State.withBoot_time (s : State) (x : Boot) : (s.withBoot x).time = s.time := rfl
@[simp] theorem State.withBoot_free (s : State) (x : Boot) : (s.withBoot x).free = s.free := rfl
@[simp] theorem State.withBoot_pending (s : State) (x : Boot) : (s.withBoot x).pending = s.pending := rfl

@[simp] theorem State.withIvory_glb (s : State) (x : Ivory) : (s.withIvory x).glb = s.glb := rfl
@[simp] theorem State.withIvory_repair (s : State) (x : Ivory) : (s.withIvory x).repair = s.repair := rfl
@[simp] theorem State.withIvory_boot (s : State) (x : Ivory) : (s.withIvory x).boot = s.boot := rfl
@[simp] theorem State.withIvory_ivory (s : State) (x : Ivory) : (s.withIvory x).ivory = x := rfl
@[simp] theorem State.withIvory_link (s : State) (x : Ivory) : (s.withIvory x).link = s.link := rfl
@[simp] theorem State.withIvory_hub (s : State) (x : Ivory) : (s.withIvory x).hub = s.hub := rfl
@[simp] theorem State.withIvory_hfifo (s : State) (x : Ivory) : (s.withIvory x).hfifo = s.hfifo := rfl
@[simp] theorem State.withIvory_msix (s : State) (x : Ivory) : (s.withIvory x).msix = s.msix := rfl
@[simp] theorem State.withIvory_sync (s : State) (x : Ivory) : (s.withIvory x).sync = s.sync := rfl
@[simp] theorem State.withIvory_counted (s : State) (x : Ivory) : (s.withIvory x).counted = s.counted := rfl
@[simp] theorem State.withIvory_mem (s : State) (x : Ivory) : (s.withIvory x).mem = s.mem := rfl
@[simp] theorem State.withIvory_stack (s : State) (x : Ivory) : (s.withIvory x).stack = s.stack := rfl
@[simp] theorem State.withIvory_memc (s : State) (x : Ivory) : (s.withIvory x).memc = s.memc := rfl
@[simp] theorem State.withIvory_pool (s : State) (x : Ivory) : (s.withIvory x).pool = s.pool := rfl
@[simp] theorem State.withIvory_tier (s : State) (x : Ivory) : (s.withIvory x).tier = s.tier := rfl
@[simp] theorem State.withIvory_xlt (s : State) (x : Ivory) : (s.withIvory x).xlt = s.xlt := rfl
@[simp] theorem State.withIvory_core (s : State) (x : Ivory) : (s.withIvory x).core = s.core := rfl
@[simp] theorem State.withIvory_cdie (s : State) (x : Ivory) : (s.withIvory x).cdie = s.cdie := rfl
@[simp] theorem State.withIvory_hif (s : State) (x : Ivory) : (s.withIvory x).hif = s.hif := rfl
@[simp] theorem State.withIvory_sess (s : State) (x : Ivory) : (s.withIvory x).sess = s.sess := rfl
@[simp] theorem State.withIvory_disp (s : State) (x : Ivory) : (s.withIvory x).disp = s.disp := rfl
@[simp] theorem State.withIvory_rna (s : State) (x : Ivory) : (s.withIvory x).rna = s.rna := rfl
@[simp] theorem State.withIvory_pwr (s : State) (x : Ivory) : (s.withIvory x).pwr = s.pwr := rfl
@[simp] theorem State.withIvory_tile (s : State) (x : Ivory) : (s.withIvory x).tile = s.tile := rfl
@[simp] theorem State.withIvory_regs (s : State) (x : Ivory) : (s.withIvory x).regs = s.regs := rfl
@[simp] theorem State.withIvory_replies (s : State) (x : Ivory) : (s.withIvory x).replies = s.replies := rfl
@[simp] theorem State.withIvory_time (s : State) (x : Ivory) : (s.withIvory x).time = s.time := rfl
@[simp] theorem State.withIvory_free (s : State) (x : Ivory) : (s.withIvory x).free = s.free := rfl
@[simp] theorem State.withIvory_pending (s : State) (x : Ivory) : (s.withIvory x).pending = s.pending := rfl

@[simp] theorem State.withLink_glb (s : State) (x : FMap LinkSt) : (s.withLink x).glb = s.glb := rfl
@[simp] theorem State.withLink_repair (s : State) (x : FMap LinkSt) : (s.withLink x).repair = s.repair := rfl
@[simp] theorem State.withLink_boot (s : State) (x : FMap LinkSt) : (s.withLink x).boot = s.boot := rfl
@[simp] theorem State.withLink_ivory (s : State) (x : FMap LinkSt) : (s.withLink x).ivory = s.ivory := rfl
@[simp] theorem State.withLink_link (s : State) (x : FMap LinkSt) : (s.withLink x).link = x := rfl
@[simp] theorem State.withLink_hub (s : State) (x : FMap LinkSt) : (s.withLink x).hub = s.hub := rfl
@[simp] theorem State.withLink_hfifo (s : State) (x : FMap LinkSt) : (s.withLink x).hfifo = s.hfifo := rfl
@[simp] theorem State.withLink_msix (s : State) (x : FMap LinkSt) : (s.withLink x).msix = s.msix := rfl
@[simp] theorem State.withLink_sync (s : State) (x : FMap LinkSt) : (s.withLink x).sync = s.sync := rfl
@[simp] theorem State.withLink_counted (s : State) (x : FMap LinkSt) : (s.withLink x).counted = s.counted := rfl
@[simp] theorem State.withLink_mem (s : State) (x : FMap LinkSt) : (s.withLink x).mem = s.mem := rfl
@[simp] theorem State.withLink_stack (s : State) (x : FMap LinkSt) : (s.withLink x).stack = s.stack := rfl
@[simp] theorem State.withLink_memc (s : State) (x : FMap LinkSt) : (s.withLink x).memc = s.memc := rfl
@[simp] theorem State.withLink_pool (s : State) (x : FMap LinkSt) : (s.withLink x).pool = s.pool := rfl
@[simp] theorem State.withLink_tier (s : State) (x : FMap LinkSt) : (s.withLink x).tier = s.tier := rfl
@[simp] theorem State.withLink_xlt (s : State) (x : FMap LinkSt) : (s.withLink x).xlt = s.xlt := rfl
@[simp] theorem State.withLink_core (s : State) (x : FMap LinkSt) : (s.withLink x).core = s.core := rfl
@[simp] theorem State.withLink_cdie (s : State) (x : FMap LinkSt) : (s.withLink x).cdie = s.cdie := rfl
@[simp] theorem State.withLink_hif (s : State) (x : FMap LinkSt) : (s.withLink x).hif = s.hif := rfl
@[simp] theorem State.withLink_sess (s : State) (x : FMap LinkSt) : (s.withLink x).sess = s.sess := rfl
@[simp] theorem State.withLink_disp (s : State) (x : FMap LinkSt) : (s.withLink x).disp = s.disp := rfl
@[simp] theorem State.withLink_rna (s : State) (x : FMap LinkSt) : (s.withLink x).rna = s.rna := rfl
@[simp] theorem State.withLink_pwr (s : State) (x : FMap LinkSt) : (s.withLink x).pwr = s.pwr := rfl
@[simp] theorem State.withLink_tile (s : State) (x : FMap LinkSt) : (s.withLink x).tile = s.tile := rfl
@[simp] theorem State.withLink_regs (s : State) (x : FMap LinkSt) : (s.withLink x).regs = s.regs := rfl
@[simp] theorem State.withLink_replies (s : State) (x : FMap LinkSt) : (s.withLink x).replies = s.replies := rfl
@[simp] theorem State.withLink_time (s : State) (x : FMap LinkSt) : (s.withLink x).time = s.time := rfl
@[simp] theorem State.withLink_free (s : State) (x : FMap LinkSt) : (s.withLink x).free = s.free := rfl
@[simp] theorem State.withLink_pending (s : State) (x : FMap LinkSt) : (s.withLink x).pending = s.pending := rfl

@[simp] theorem State.withHub_glb (s : State) (x : Hub) : (s.withHub x).glb = s.glb := rfl
@[simp] theorem State.withHub_repair (s : State) (x : Hub) : (s.withHub x).repair = s.repair := rfl
@[simp] theorem State.withHub_boot (s : State) (x : Hub) : (s.withHub x).boot = s.boot := rfl
@[simp] theorem State.withHub_ivory (s : State) (x : Hub) : (s.withHub x).ivory = s.ivory := rfl
@[simp] theorem State.withHub_link (s : State) (x : Hub) : (s.withHub x).link = s.link := rfl
@[simp] theorem State.withHub_hub (s : State) (x : Hub) : (s.withHub x).hub = x := rfl
@[simp] theorem State.withHub_hfifo (s : State) (x : Hub) : (s.withHub x).hfifo = s.hfifo := rfl
@[simp] theorem State.withHub_msix (s : State) (x : Hub) : (s.withHub x).msix = s.msix := rfl
@[simp] theorem State.withHub_sync (s : State) (x : Hub) : (s.withHub x).sync = s.sync := rfl
@[simp] theorem State.withHub_counted (s : State) (x : Hub) : (s.withHub x).counted = s.counted := rfl
@[simp] theorem State.withHub_mem (s : State) (x : Hub) : (s.withHub x).mem = s.mem := rfl
@[simp] theorem State.withHub_stack (s : State) (x : Hub) : (s.withHub x).stack = s.stack := rfl
@[simp] theorem State.withHub_memc (s : State) (x : Hub) : (s.withHub x).memc = s.memc := rfl
@[simp] theorem State.withHub_pool (s : State) (x : Hub) : (s.withHub x).pool = s.pool := rfl
@[simp] theorem State.withHub_tier (s : State) (x : Hub) : (s.withHub x).tier = s.tier := rfl
@[simp] theorem State.withHub_xlt (s : State) (x : Hub) : (s.withHub x).xlt = s.xlt := rfl
@[simp] theorem State.withHub_core (s : State) (x : Hub) : (s.withHub x).core = s.core := rfl
@[simp] theorem State.withHub_cdie (s : State) (x : Hub) : (s.withHub x).cdie = s.cdie := rfl
@[simp] theorem State.withHub_hif (s : State) (x : Hub) : (s.withHub x).hif = s.hif := rfl
@[simp] theorem State.withHub_sess (s : State) (x : Hub) : (s.withHub x).sess = s.sess := rfl
@[simp] theorem State.withHub_disp (s : State) (x : Hub) : (s.withHub x).disp = s.disp := rfl
@[simp] theorem State.withHub_rna (s : State) (x : Hub) : (s.withHub x).rna = s.rna := rfl
@[simp] theorem State.withHub_pwr (s : State) (x : Hub) : (s.withHub x).pwr = s.pwr := rfl
@[simp] theorem State.withHub_tile (s : State) (x : Hub) : (s.withHub x).tile = s.tile := rfl
@[simp] theorem State.withHub_regs (s : State) (x : Hub) : (s.withHub x).regs = s.regs := rfl
@[simp] theorem State.withHub_replies (s : State) (x : Hub) : (s.withHub x).replies = s.replies := rfl
@[simp] theorem State.withHub_time (s : State) (x : Hub) : (s.withHub x).time = s.time := rfl
@[simp] theorem State.withHub_free (s : State) (x : Hub) : (s.withHub x).free = s.free := rfl
@[simp] theorem State.withHub_pending (s : State) (x : Hub) : (s.withHub x).pending = s.pending := rfl

@[simp] theorem State.withHfifo_glb (s : State) (x : Fifo) : (s.withHfifo x).glb = s.glb := rfl
@[simp] theorem State.withHfifo_repair (s : State) (x : Fifo) : (s.withHfifo x).repair = s.repair := rfl
@[simp] theorem State.withHfifo_boot (s : State) (x : Fifo) : (s.withHfifo x).boot = s.boot := rfl
@[simp] theorem State.withHfifo_ivory (s : State) (x : Fifo) : (s.withHfifo x).ivory = s.ivory := rfl
@[simp] theorem State.withHfifo_link (s : State) (x : Fifo) : (s.withHfifo x).link = s.link := rfl
@[simp] theorem State.withHfifo_hub (s : State) (x : Fifo) : (s.withHfifo x).hub = s.hub := rfl
@[simp] theorem State.withHfifo_hfifo (s : State) (x : Fifo) : (s.withHfifo x).hfifo = x := rfl
@[simp] theorem State.withHfifo_msix (s : State) (x : Fifo) : (s.withHfifo x).msix = s.msix := rfl
@[simp] theorem State.withHfifo_sync (s : State) (x : Fifo) : (s.withHfifo x).sync = s.sync := rfl
@[simp] theorem State.withHfifo_counted (s : State) (x : Fifo) : (s.withHfifo x).counted = s.counted := rfl
@[simp] theorem State.withHfifo_mem (s : State) (x : Fifo) : (s.withHfifo x).mem = s.mem := rfl
@[simp] theorem State.withHfifo_stack (s : State) (x : Fifo) : (s.withHfifo x).stack = s.stack := rfl
@[simp] theorem State.withHfifo_memc (s : State) (x : Fifo) : (s.withHfifo x).memc = s.memc := rfl
@[simp] theorem State.withHfifo_pool (s : State) (x : Fifo) : (s.withHfifo x).pool = s.pool := rfl
@[simp] theorem State.withHfifo_tier (s : State) (x : Fifo) : (s.withHfifo x).tier = s.tier := rfl
@[simp] theorem State.withHfifo_xlt (s : State) (x : Fifo) : (s.withHfifo x).xlt = s.xlt := rfl
@[simp] theorem State.withHfifo_core (s : State) (x : Fifo) : (s.withHfifo x).core = s.core := rfl
@[simp] theorem State.withHfifo_cdie (s : State) (x : Fifo) : (s.withHfifo x).cdie = s.cdie := rfl
@[simp] theorem State.withHfifo_hif (s : State) (x : Fifo) : (s.withHfifo x).hif = s.hif := rfl
@[simp] theorem State.withHfifo_sess (s : State) (x : Fifo) : (s.withHfifo x).sess = s.sess := rfl
@[simp] theorem State.withHfifo_disp (s : State) (x : Fifo) : (s.withHfifo x).disp = s.disp := rfl
@[simp] theorem State.withHfifo_rna (s : State) (x : Fifo) : (s.withHfifo x).rna = s.rna := rfl
@[simp] theorem State.withHfifo_pwr (s : State) (x : Fifo) : (s.withHfifo x).pwr = s.pwr := rfl
@[simp] theorem State.withHfifo_tile (s : State) (x : Fifo) : (s.withHfifo x).tile = s.tile := rfl
@[simp] theorem State.withHfifo_regs (s : State) (x : Fifo) : (s.withHfifo x).regs = s.regs := rfl
@[simp] theorem State.withHfifo_replies (s : State) (x : Fifo) : (s.withHfifo x).replies = s.replies := rfl
@[simp] theorem State.withHfifo_time (s : State) (x : Fifo) : (s.withHfifo x).time = s.time := rfl
@[simp] theorem State.withHfifo_free (s : State) (x : Fifo) : (s.withHfifo x).free = s.free := rfl
@[simp] theorem State.withHfifo_pending (s : State) (x : Fifo) : (s.withHfifo x).pending = s.pending := rfl

@[simp] theorem State.withMsix_glb (s : State) (x : FMap Vec) : (s.withMsix x).glb = s.glb := rfl
@[simp] theorem State.withMsix_repair (s : State) (x : FMap Vec) : (s.withMsix x).repair = s.repair := rfl
@[simp] theorem State.withMsix_boot (s : State) (x : FMap Vec) : (s.withMsix x).boot = s.boot := rfl
@[simp] theorem State.withMsix_ivory (s : State) (x : FMap Vec) : (s.withMsix x).ivory = s.ivory := rfl
@[simp] theorem State.withMsix_link (s : State) (x : FMap Vec) : (s.withMsix x).link = s.link := rfl
@[simp] theorem State.withMsix_hub (s : State) (x : FMap Vec) : (s.withMsix x).hub = s.hub := rfl
@[simp] theorem State.withMsix_hfifo (s : State) (x : FMap Vec) : (s.withMsix x).hfifo = s.hfifo := rfl
@[simp] theorem State.withMsix_msix (s : State) (x : FMap Vec) : (s.withMsix x).msix = x := rfl
@[simp] theorem State.withMsix_sync (s : State) (x : FMap Vec) : (s.withMsix x).sync = s.sync := rfl
@[simp] theorem State.withMsix_counted (s : State) (x : FMap Vec) : (s.withMsix x).counted = s.counted := rfl
@[simp] theorem State.withMsix_mem (s : State) (x : FMap Vec) : (s.withMsix x).mem = s.mem := rfl
@[simp] theorem State.withMsix_stack (s : State) (x : FMap Vec) : (s.withMsix x).stack = s.stack := rfl
@[simp] theorem State.withMsix_memc (s : State) (x : FMap Vec) : (s.withMsix x).memc = s.memc := rfl
@[simp] theorem State.withMsix_pool (s : State) (x : FMap Vec) : (s.withMsix x).pool = s.pool := rfl
@[simp] theorem State.withMsix_tier (s : State) (x : FMap Vec) : (s.withMsix x).tier = s.tier := rfl
@[simp] theorem State.withMsix_xlt (s : State) (x : FMap Vec) : (s.withMsix x).xlt = s.xlt := rfl
@[simp] theorem State.withMsix_core (s : State) (x : FMap Vec) : (s.withMsix x).core = s.core := rfl
@[simp] theorem State.withMsix_cdie (s : State) (x : FMap Vec) : (s.withMsix x).cdie = s.cdie := rfl
@[simp] theorem State.withMsix_hif (s : State) (x : FMap Vec) : (s.withMsix x).hif = s.hif := rfl
@[simp] theorem State.withMsix_sess (s : State) (x : FMap Vec) : (s.withMsix x).sess = s.sess := rfl
@[simp] theorem State.withMsix_disp (s : State) (x : FMap Vec) : (s.withMsix x).disp = s.disp := rfl
@[simp] theorem State.withMsix_rna (s : State) (x : FMap Vec) : (s.withMsix x).rna = s.rna := rfl
@[simp] theorem State.withMsix_pwr (s : State) (x : FMap Vec) : (s.withMsix x).pwr = s.pwr := rfl
@[simp] theorem State.withMsix_tile (s : State) (x : FMap Vec) : (s.withMsix x).tile = s.tile := rfl
@[simp] theorem State.withMsix_regs (s : State) (x : FMap Vec) : (s.withMsix x).regs = s.regs := rfl
@[simp] theorem State.withMsix_replies (s : State) (x : FMap Vec) : (s.withMsix x).replies = s.replies := rfl
@[simp] theorem State.withMsix_time (s : State) (x : FMap Vec) : (s.withMsix x).time = s.time := rfl
@[simp] theorem State.withMsix_free (s : State) (x : FMap Vec) : (s.withMsix x).free = s.free := rfl
@[simp] theorem State.withMsix_pending (s : State) (x : FMap Vec) : (s.withMsix x).pending = s.pending := rfl

@[simp] theorem State.withSync_glb (s : State) (x : FMap SyncObj) : (s.withSync x).glb = s.glb := rfl
@[simp] theorem State.withSync_repair (s : State) (x : FMap SyncObj) : (s.withSync x).repair = s.repair := rfl
@[simp] theorem State.withSync_boot (s : State) (x : FMap SyncObj) : (s.withSync x).boot = s.boot := rfl
@[simp] theorem State.withSync_ivory (s : State) (x : FMap SyncObj) : (s.withSync x).ivory = s.ivory := rfl
@[simp] theorem State.withSync_link (s : State) (x : FMap SyncObj) : (s.withSync x).link = s.link := rfl
@[simp] theorem State.withSync_hub (s : State) (x : FMap SyncObj) : (s.withSync x).hub = s.hub := rfl
@[simp] theorem State.withSync_hfifo (s : State) (x : FMap SyncObj) : (s.withSync x).hfifo = s.hfifo := rfl
@[simp] theorem State.withSync_msix (s : State) (x : FMap SyncObj) : (s.withSync x).msix = s.msix := rfl
@[simp] theorem State.withSync_sync (s : State) (x : FMap SyncObj) : (s.withSync x).sync = x := rfl
@[simp] theorem State.withSync_counted (s : State) (x : FMap SyncObj) : (s.withSync x).counted = s.counted := rfl
@[simp] theorem State.withSync_mem (s : State) (x : FMap SyncObj) : (s.withSync x).mem = s.mem := rfl
@[simp] theorem State.withSync_stack (s : State) (x : FMap SyncObj) : (s.withSync x).stack = s.stack := rfl
@[simp] theorem State.withSync_memc (s : State) (x : FMap SyncObj) : (s.withSync x).memc = s.memc := rfl
@[simp] theorem State.withSync_pool (s : State) (x : FMap SyncObj) : (s.withSync x).pool = s.pool := rfl
@[simp] theorem State.withSync_tier (s : State) (x : FMap SyncObj) : (s.withSync x).tier = s.tier := rfl
@[simp] theorem State.withSync_xlt (s : State) (x : FMap SyncObj) : (s.withSync x).xlt = s.xlt := rfl
@[simp] theorem State.withSync_core (s : State) (x : FMap SyncObj) : (s.withSync x).core = s.core := rfl
@[simp] theorem State.withSync_cdie (s : State) (x : FMap SyncObj) : (s.withSync x).cdie = s.cdie := rfl
@[simp] theorem State.withSync_hif (s : State) (x : FMap SyncObj) : (s.withSync x).hif = s.hif := rfl
@[simp] theorem State.withSync_sess (s : State) (x : FMap SyncObj) : (s.withSync x).sess = s.sess := rfl
@[simp] theorem State.withSync_disp (s : State) (x : FMap SyncObj) : (s.withSync x).disp = s.disp := rfl
@[simp] theorem State.withSync_rna (s : State) (x : FMap SyncObj) : (s.withSync x).rna = s.rna := rfl
@[simp] theorem State.withSync_pwr (s : State) (x : FMap SyncObj) : (s.withSync x).pwr = s.pwr := rfl
@[simp] theorem State.withSync_tile (s : State) (x : FMap SyncObj) : (s.withSync x).tile = s.tile := rfl
@[simp] theorem State.withSync_regs (s : State) (x : FMap SyncObj) : (s.withSync x).regs = s.regs := rfl
@[simp] theorem State.withSync_replies (s : State) (x : FMap SyncObj) : (s.withSync x).replies = s.replies := rfl
@[simp] theorem State.withSync_time (s : State) (x : FMap SyncObj) : (s.withSync x).time = s.time := rfl
@[simp] theorem State.withSync_free (s : State) (x : FMap SyncObj) : (s.withSync x).free = s.free := rfl
@[simp] theorem State.withSync_pending (s : State) (x : FMap SyncObj) : (s.withSync x).pending = s.pending := rfl

@[simp] theorem State.withCounted_glb (s : State) (x : List Counted) : (s.withCounted x).glb = s.glb := rfl
@[simp] theorem State.withCounted_repair (s : State) (x : List Counted) : (s.withCounted x).repair = s.repair := rfl
@[simp] theorem State.withCounted_boot (s : State) (x : List Counted) : (s.withCounted x).boot = s.boot := rfl
@[simp] theorem State.withCounted_ivory (s : State) (x : List Counted) : (s.withCounted x).ivory = s.ivory := rfl
@[simp] theorem State.withCounted_link (s : State) (x : List Counted) : (s.withCounted x).link = s.link := rfl
@[simp] theorem State.withCounted_hub (s : State) (x : List Counted) : (s.withCounted x).hub = s.hub := rfl
@[simp] theorem State.withCounted_hfifo (s : State) (x : List Counted) : (s.withCounted x).hfifo = s.hfifo := rfl
@[simp] theorem State.withCounted_msix (s : State) (x : List Counted) : (s.withCounted x).msix = s.msix := rfl
@[simp] theorem State.withCounted_sync (s : State) (x : List Counted) : (s.withCounted x).sync = s.sync := rfl
@[simp] theorem State.withCounted_counted (s : State) (x : List Counted) : (s.withCounted x).counted = x := rfl
@[simp] theorem State.withCounted_mem (s : State) (x : List Counted) : (s.withCounted x).mem = s.mem := rfl
@[simp] theorem State.withCounted_stack (s : State) (x : List Counted) : (s.withCounted x).stack = s.stack := rfl
@[simp] theorem State.withCounted_memc (s : State) (x : List Counted) : (s.withCounted x).memc = s.memc := rfl
@[simp] theorem State.withCounted_pool (s : State) (x : List Counted) : (s.withCounted x).pool = s.pool := rfl
@[simp] theorem State.withCounted_tier (s : State) (x : List Counted) : (s.withCounted x).tier = s.tier := rfl
@[simp] theorem State.withCounted_xlt (s : State) (x : List Counted) : (s.withCounted x).xlt = s.xlt := rfl
@[simp] theorem State.withCounted_core (s : State) (x : List Counted) : (s.withCounted x).core = s.core := rfl
@[simp] theorem State.withCounted_cdie (s : State) (x : List Counted) : (s.withCounted x).cdie = s.cdie := rfl
@[simp] theorem State.withCounted_hif (s : State) (x : List Counted) : (s.withCounted x).hif = s.hif := rfl
@[simp] theorem State.withCounted_sess (s : State) (x : List Counted) : (s.withCounted x).sess = s.sess := rfl
@[simp] theorem State.withCounted_disp (s : State) (x : List Counted) : (s.withCounted x).disp = s.disp := rfl
@[simp] theorem State.withCounted_rna (s : State) (x : List Counted) : (s.withCounted x).rna = s.rna := rfl
@[simp] theorem State.withCounted_pwr (s : State) (x : List Counted) : (s.withCounted x).pwr = s.pwr := rfl
@[simp] theorem State.withCounted_tile (s : State) (x : List Counted) : (s.withCounted x).tile = s.tile := rfl
@[simp] theorem State.withCounted_regs (s : State) (x : List Counted) : (s.withCounted x).regs = s.regs := rfl
@[simp] theorem State.withCounted_replies (s : State) (x : List Counted) : (s.withCounted x).replies = s.replies := rfl
@[simp] theorem State.withCounted_time (s : State) (x : List Counted) : (s.withCounted x).time = s.time := rfl
@[simp] theorem State.withCounted_free (s : State) (x : List Counted) : (s.withCounted x).free = s.free := rfl
@[simp] theorem State.withCounted_pending (s : State) (x : List Counted) : (s.withCounted x).pending = s.pending := rfl

@[simp] theorem State.withMem_glb (s : State) (x : Ram) : (s.withMem x).glb = s.glb := rfl
@[simp] theorem State.withMem_repair (s : State) (x : Ram) : (s.withMem x).repair = s.repair := rfl
@[simp] theorem State.withMem_boot (s : State) (x : Ram) : (s.withMem x).boot = s.boot := rfl
@[simp] theorem State.withMem_ivory (s : State) (x : Ram) : (s.withMem x).ivory = s.ivory := rfl
@[simp] theorem State.withMem_link (s : State) (x : Ram) : (s.withMem x).link = s.link := rfl
@[simp] theorem State.withMem_hub (s : State) (x : Ram) : (s.withMem x).hub = s.hub := rfl
@[simp] theorem State.withMem_hfifo (s : State) (x : Ram) : (s.withMem x).hfifo = s.hfifo := rfl
@[simp] theorem State.withMem_msix (s : State) (x : Ram) : (s.withMem x).msix = s.msix := rfl
@[simp] theorem State.withMem_sync (s : State) (x : Ram) : (s.withMem x).sync = s.sync := rfl
@[simp] theorem State.withMem_counted (s : State) (x : Ram) : (s.withMem x).counted = s.counted := rfl
@[simp] theorem State.withMem_mem (s : State) (x : Ram) : (s.withMem x).mem = x := rfl
@[simp] theorem State.withMem_stack (s : State) (x : Ram) : (s.withMem x).stack = s.stack := rfl
@[simp] theorem State.withMem_memc (s : State) (x : Ram) : (s.withMem x).memc = s.memc := rfl
@[simp] theorem State.withMem_pool (s : State) (x : Ram) : (s.withMem x).pool = s.pool := rfl
@[simp] theorem State.withMem_tier (s : State) (x : Ram) : (s.withMem x).tier = s.tier := rfl
@[simp] theorem State.withMem_xlt (s : State) (x : Ram) : (s.withMem x).xlt = s.xlt := rfl
@[simp] theorem State.withMem_core (s : State) (x : Ram) : (s.withMem x).core = s.core := rfl
@[simp] theorem State.withMem_cdie (s : State) (x : Ram) : (s.withMem x).cdie = s.cdie := rfl
@[simp] theorem State.withMem_hif (s : State) (x : Ram) : (s.withMem x).hif = s.hif := rfl
@[simp] theorem State.withMem_sess (s : State) (x : Ram) : (s.withMem x).sess = s.sess := rfl
@[simp] theorem State.withMem_disp (s : State) (x : Ram) : (s.withMem x).disp = s.disp := rfl
@[simp] theorem State.withMem_rna (s : State) (x : Ram) : (s.withMem x).rna = s.rna := rfl
@[simp] theorem State.withMem_pwr (s : State) (x : Ram) : (s.withMem x).pwr = s.pwr := rfl
@[simp] theorem State.withMem_tile (s : State) (x : Ram) : (s.withMem x).tile = s.tile := rfl
@[simp] theorem State.withMem_regs (s : State) (x : Ram) : (s.withMem x).regs = s.regs := rfl
@[simp] theorem State.withMem_replies (s : State) (x : Ram) : (s.withMem x).replies = s.replies := rfl
@[simp] theorem State.withMem_time (s : State) (x : Ram) : (s.withMem x).time = s.time := rfl
@[simp] theorem State.withMem_free (s : State) (x : Ram) : (s.withMem x).free = s.free := rfl
@[simp] theorem State.withMem_pending (s : State) (x : Ram) : (s.withMem x).pending = s.pending := rfl

@[simp] theorem State.withStack_glb (s : State) (x : FMap Stack) : (s.withStack x).glb = s.glb := rfl
@[simp] theorem State.withStack_repair (s : State) (x : FMap Stack) : (s.withStack x).repair = s.repair := rfl
@[simp] theorem State.withStack_boot (s : State) (x : FMap Stack) : (s.withStack x).boot = s.boot := rfl
@[simp] theorem State.withStack_ivory (s : State) (x : FMap Stack) : (s.withStack x).ivory = s.ivory := rfl
@[simp] theorem State.withStack_link (s : State) (x : FMap Stack) : (s.withStack x).link = s.link := rfl
@[simp] theorem State.withStack_hub (s : State) (x : FMap Stack) : (s.withStack x).hub = s.hub := rfl
@[simp] theorem State.withStack_hfifo (s : State) (x : FMap Stack) : (s.withStack x).hfifo = s.hfifo := rfl
@[simp] theorem State.withStack_msix (s : State) (x : FMap Stack) : (s.withStack x).msix = s.msix := rfl
@[simp] theorem State.withStack_sync (s : State) (x : FMap Stack) : (s.withStack x).sync = s.sync := rfl
@[simp] theorem State.withStack_counted (s : State) (x : FMap Stack) : (s.withStack x).counted = s.counted := rfl
@[simp] theorem State.withStack_mem (s : State) (x : FMap Stack) : (s.withStack x).mem = s.mem := rfl
@[simp] theorem State.withStack_stack (s : State) (x : FMap Stack) : (s.withStack x).stack = x := rfl
@[simp] theorem State.withStack_memc (s : State) (x : FMap Stack) : (s.withStack x).memc = s.memc := rfl
@[simp] theorem State.withStack_pool (s : State) (x : FMap Stack) : (s.withStack x).pool = s.pool := rfl
@[simp] theorem State.withStack_tier (s : State) (x : FMap Stack) : (s.withStack x).tier = s.tier := rfl
@[simp] theorem State.withStack_xlt (s : State) (x : FMap Stack) : (s.withStack x).xlt = s.xlt := rfl
@[simp] theorem State.withStack_core (s : State) (x : FMap Stack) : (s.withStack x).core = s.core := rfl
@[simp] theorem State.withStack_cdie (s : State) (x : FMap Stack) : (s.withStack x).cdie = s.cdie := rfl
@[simp] theorem State.withStack_hif (s : State) (x : FMap Stack) : (s.withStack x).hif = s.hif := rfl
@[simp] theorem State.withStack_sess (s : State) (x : FMap Stack) : (s.withStack x).sess = s.sess := rfl
@[simp] theorem State.withStack_disp (s : State) (x : FMap Stack) : (s.withStack x).disp = s.disp := rfl
@[simp] theorem State.withStack_rna (s : State) (x : FMap Stack) : (s.withStack x).rna = s.rna := rfl
@[simp] theorem State.withStack_pwr (s : State) (x : FMap Stack) : (s.withStack x).pwr = s.pwr := rfl
@[simp] theorem State.withStack_tile (s : State) (x : FMap Stack) : (s.withStack x).tile = s.tile := rfl
@[simp] theorem State.withStack_regs (s : State) (x : FMap Stack) : (s.withStack x).regs = s.regs := rfl
@[simp] theorem State.withStack_replies (s : State) (x : FMap Stack) : (s.withStack x).replies = s.replies := rfl
@[simp] theorem State.withStack_time (s : State) (x : FMap Stack) : (s.withStack x).time = s.time := rfl
@[simp] theorem State.withStack_free (s : State) (x : FMap Stack) : (s.withStack x).free = s.free := rfl
@[simp] theorem State.withStack_pending (s : State) (x : FMap Stack) : (s.withStack x).pending = s.pending := rfl

@[simp] theorem State.withMemc_glb (s : State) (x : MemC) : (s.withMemc x).glb = s.glb := rfl
@[simp] theorem State.withMemc_repair (s : State) (x : MemC) : (s.withMemc x).repair = s.repair := rfl
@[simp] theorem State.withMemc_boot (s : State) (x : MemC) : (s.withMemc x).boot = s.boot := rfl
@[simp] theorem State.withMemc_ivory (s : State) (x : MemC) : (s.withMemc x).ivory = s.ivory := rfl
@[simp] theorem State.withMemc_link (s : State) (x : MemC) : (s.withMemc x).link = s.link := rfl
@[simp] theorem State.withMemc_hub (s : State) (x : MemC) : (s.withMemc x).hub = s.hub := rfl
@[simp] theorem State.withMemc_hfifo (s : State) (x : MemC) : (s.withMemc x).hfifo = s.hfifo := rfl
@[simp] theorem State.withMemc_msix (s : State) (x : MemC) : (s.withMemc x).msix = s.msix := rfl
@[simp] theorem State.withMemc_sync (s : State) (x : MemC) : (s.withMemc x).sync = s.sync := rfl
@[simp] theorem State.withMemc_counted (s : State) (x : MemC) : (s.withMemc x).counted = s.counted := rfl
@[simp] theorem State.withMemc_mem (s : State) (x : MemC) : (s.withMemc x).mem = s.mem := rfl
@[simp] theorem State.withMemc_stack (s : State) (x : MemC) : (s.withMemc x).stack = s.stack := rfl
@[simp] theorem State.withMemc_memc (s : State) (x : MemC) : (s.withMemc x).memc = x := rfl
@[simp] theorem State.withMemc_pool (s : State) (x : MemC) : (s.withMemc x).pool = s.pool := rfl
@[simp] theorem State.withMemc_tier (s : State) (x : MemC) : (s.withMemc x).tier = s.tier := rfl
@[simp] theorem State.withMemc_xlt (s : State) (x : MemC) : (s.withMemc x).xlt = s.xlt := rfl
@[simp] theorem State.withMemc_core (s : State) (x : MemC) : (s.withMemc x).core = s.core := rfl
@[simp] theorem State.withMemc_cdie (s : State) (x : MemC) : (s.withMemc x).cdie = s.cdie := rfl
@[simp] theorem State.withMemc_hif (s : State) (x : MemC) : (s.withMemc x).hif = s.hif := rfl
@[simp] theorem State.withMemc_sess (s : State) (x : MemC) : (s.withMemc x).sess = s.sess := rfl
@[simp] theorem State.withMemc_disp (s : State) (x : MemC) : (s.withMemc x).disp = s.disp := rfl
@[simp] theorem State.withMemc_rna (s : State) (x : MemC) : (s.withMemc x).rna = s.rna := rfl
@[simp] theorem State.withMemc_pwr (s : State) (x : MemC) : (s.withMemc x).pwr = s.pwr := rfl
@[simp] theorem State.withMemc_tile (s : State) (x : MemC) : (s.withMemc x).tile = s.tile := rfl
@[simp] theorem State.withMemc_regs (s : State) (x : MemC) : (s.withMemc x).regs = s.regs := rfl
@[simp] theorem State.withMemc_replies (s : State) (x : MemC) : (s.withMemc x).replies = s.replies := rfl
@[simp] theorem State.withMemc_time (s : State) (x : MemC) : (s.withMemc x).time = s.time := rfl
@[simp] theorem State.withMemc_free (s : State) (x : MemC) : (s.withMemc x).free = s.free := rfl
@[simp] theorem State.withMemc_pending (s : State) (x : MemC) : (s.withMemc x).pending = s.pending := rfl

@[simp] theorem State.withPool_glb (s : State) (x : FMap PoolDie) : (s.withPool x).glb = s.glb := rfl
@[simp] theorem State.withPool_repair (s : State) (x : FMap PoolDie) : (s.withPool x).repair = s.repair := rfl
@[simp] theorem State.withPool_boot (s : State) (x : FMap PoolDie) : (s.withPool x).boot = s.boot := rfl
@[simp] theorem State.withPool_ivory (s : State) (x : FMap PoolDie) : (s.withPool x).ivory = s.ivory := rfl
@[simp] theorem State.withPool_link (s : State) (x : FMap PoolDie) : (s.withPool x).link = s.link := rfl
@[simp] theorem State.withPool_hub (s : State) (x : FMap PoolDie) : (s.withPool x).hub = s.hub := rfl
@[simp] theorem State.withPool_hfifo (s : State) (x : FMap PoolDie) : (s.withPool x).hfifo = s.hfifo := rfl
@[simp] theorem State.withPool_msix (s : State) (x : FMap PoolDie) : (s.withPool x).msix = s.msix := rfl
@[simp] theorem State.withPool_sync (s : State) (x : FMap PoolDie) : (s.withPool x).sync = s.sync := rfl
@[simp] theorem State.withPool_counted (s : State) (x : FMap PoolDie) : (s.withPool x).counted = s.counted := rfl
@[simp] theorem State.withPool_mem (s : State) (x : FMap PoolDie) : (s.withPool x).mem = s.mem := rfl
@[simp] theorem State.withPool_stack (s : State) (x : FMap PoolDie) : (s.withPool x).stack = s.stack := rfl
@[simp] theorem State.withPool_memc (s : State) (x : FMap PoolDie) : (s.withPool x).memc = s.memc := rfl
@[simp] theorem State.withPool_pool (s : State) (x : FMap PoolDie) : (s.withPool x).pool = x := rfl
@[simp] theorem State.withPool_tier (s : State) (x : FMap PoolDie) : (s.withPool x).tier = s.tier := rfl
@[simp] theorem State.withPool_xlt (s : State) (x : FMap PoolDie) : (s.withPool x).xlt = s.xlt := rfl
@[simp] theorem State.withPool_core (s : State) (x : FMap PoolDie) : (s.withPool x).core = s.core := rfl
@[simp] theorem State.withPool_cdie (s : State) (x : FMap PoolDie) : (s.withPool x).cdie = s.cdie := rfl
@[simp] theorem State.withPool_hif (s : State) (x : FMap PoolDie) : (s.withPool x).hif = s.hif := rfl
@[simp] theorem State.withPool_sess (s : State) (x : FMap PoolDie) : (s.withPool x).sess = s.sess := rfl
@[simp] theorem State.withPool_disp (s : State) (x : FMap PoolDie) : (s.withPool x).disp = s.disp := rfl
@[simp] theorem State.withPool_rna (s : State) (x : FMap PoolDie) : (s.withPool x).rna = s.rna := rfl
@[simp] theorem State.withPool_pwr (s : State) (x : FMap PoolDie) : (s.withPool x).pwr = s.pwr := rfl
@[simp] theorem State.withPool_tile (s : State) (x : FMap PoolDie) : (s.withPool x).tile = s.tile := rfl
@[simp] theorem State.withPool_regs (s : State) (x : FMap PoolDie) : (s.withPool x).regs = s.regs := rfl
@[simp] theorem State.withPool_replies (s : State) (x : FMap PoolDie) : (s.withPool x).replies = s.replies := rfl
@[simp] theorem State.withPool_time (s : State) (x : FMap PoolDie) : (s.withPool x).time = s.time := rfl
@[simp] theorem State.withPool_free (s : State) (x : FMap PoolDie) : (s.withPool x).free = s.free := rfl
@[simp] theorem State.withPool_pending (s : State) (x : FMap PoolDie) : (s.withPool x).pending = s.pending := rfl

@[simp] theorem State.withTier_glb (s : State) (x : Tier) : (s.withTier x).glb = s.glb := rfl
@[simp] theorem State.withTier_repair (s : State) (x : Tier) : (s.withTier x).repair = s.repair := rfl
@[simp] theorem State.withTier_boot (s : State) (x : Tier) : (s.withTier x).boot = s.boot := rfl
@[simp] theorem State.withTier_ivory (s : State) (x : Tier) : (s.withTier x).ivory = s.ivory := rfl
@[simp] theorem State.withTier_link (s : State) (x : Tier) : (s.withTier x).link = s.link := rfl
@[simp] theorem State.withTier_hub (s : State) (x : Tier) : (s.withTier x).hub = s.hub := rfl
@[simp] theorem State.withTier_hfifo (s : State) (x : Tier) : (s.withTier x).hfifo = s.hfifo := rfl
@[simp] theorem State.withTier_msix (s : State) (x : Tier) : (s.withTier x).msix = s.msix := rfl
@[simp] theorem State.withTier_sync (s : State) (x : Tier) : (s.withTier x).sync = s.sync := rfl
@[simp] theorem State.withTier_counted (s : State) (x : Tier) : (s.withTier x).counted = s.counted := rfl
@[simp] theorem State.withTier_mem (s : State) (x : Tier) : (s.withTier x).mem = s.mem := rfl
@[simp] theorem State.withTier_stack (s : State) (x : Tier) : (s.withTier x).stack = s.stack := rfl
@[simp] theorem State.withTier_memc (s : State) (x : Tier) : (s.withTier x).memc = s.memc := rfl
@[simp] theorem State.withTier_pool (s : State) (x : Tier) : (s.withTier x).pool = s.pool := rfl
@[simp] theorem State.withTier_tier (s : State) (x : Tier) : (s.withTier x).tier = x := rfl
@[simp] theorem State.withTier_xlt (s : State) (x : Tier) : (s.withTier x).xlt = s.xlt := rfl
@[simp] theorem State.withTier_core (s : State) (x : Tier) : (s.withTier x).core = s.core := rfl
@[simp] theorem State.withTier_cdie (s : State) (x : Tier) : (s.withTier x).cdie = s.cdie := rfl
@[simp] theorem State.withTier_hif (s : State) (x : Tier) : (s.withTier x).hif = s.hif := rfl
@[simp] theorem State.withTier_sess (s : State) (x : Tier) : (s.withTier x).sess = s.sess := rfl
@[simp] theorem State.withTier_disp (s : State) (x : Tier) : (s.withTier x).disp = s.disp := rfl
@[simp] theorem State.withTier_rna (s : State) (x : Tier) : (s.withTier x).rna = s.rna := rfl
@[simp] theorem State.withTier_pwr (s : State) (x : Tier) : (s.withTier x).pwr = s.pwr := rfl
@[simp] theorem State.withTier_tile (s : State) (x : Tier) : (s.withTier x).tile = s.tile := rfl
@[simp] theorem State.withTier_regs (s : State) (x : Tier) : (s.withTier x).regs = s.regs := rfl
@[simp] theorem State.withTier_replies (s : State) (x : Tier) : (s.withTier x).replies = s.replies := rfl
@[simp] theorem State.withTier_time (s : State) (x : Tier) : (s.withTier x).time = s.time := rfl
@[simp] theorem State.withTier_free (s : State) (x : Tier) : (s.withTier x).free = s.free := rfl
@[simp] theorem State.withTier_pending (s : State) (x : Tier) : (s.withTier x).pending = s.pending := rfl

@[simp] theorem State.withXlt_glb (s : State) (x : Xlt) : (s.withXlt x).glb = s.glb := rfl
@[simp] theorem State.withXlt_repair (s : State) (x : Xlt) : (s.withXlt x).repair = s.repair := rfl
@[simp] theorem State.withXlt_boot (s : State) (x : Xlt) : (s.withXlt x).boot = s.boot := rfl
@[simp] theorem State.withXlt_ivory (s : State) (x : Xlt) : (s.withXlt x).ivory = s.ivory := rfl
@[simp] theorem State.withXlt_link (s : State) (x : Xlt) : (s.withXlt x).link = s.link := rfl
@[simp] theorem State.withXlt_hub (s : State) (x : Xlt) : (s.withXlt x).hub = s.hub := rfl
@[simp] theorem State.withXlt_hfifo (s : State) (x : Xlt) : (s.withXlt x).hfifo = s.hfifo := rfl
@[simp] theorem State.withXlt_msix (s : State) (x : Xlt) : (s.withXlt x).msix = s.msix := rfl
@[simp] theorem State.withXlt_sync (s : State) (x : Xlt) : (s.withXlt x).sync = s.sync := rfl
@[simp] theorem State.withXlt_counted (s : State) (x : Xlt) : (s.withXlt x).counted = s.counted := rfl
@[simp] theorem State.withXlt_mem (s : State) (x : Xlt) : (s.withXlt x).mem = s.mem := rfl
@[simp] theorem State.withXlt_stack (s : State) (x : Xlt) : (s.withXlt x).stack = s.stack := rfl
@[simp] theorem State.withXlt_memc (s : State) (x : Xlt) : (s.withXlt x).memc = s.memc := rfl
@[simp] theorem State.withXlt_pool (s : State) (x : Xlt) : (s.withXlt x).pool = s.pool := rfl
@[simp] theorem State.withXlt_tier (s : State) (x : Xlt) : (s.withXlt x).tier = s.tier := rfl
@[simp] theorem State.withXlt_xlt (s : State) (x : Xlt) : (s.withXlt x).xlt = x := rfl
@[simp] theorem State.withXlt_core (s : State) (x : Xlt) : (s.withXlt x).core = s.core := rfl
@[simp] theorem State.withXlt_cdie (s : State) (x : Xlt) : (s.withXlt x).cdie = s.cdie := rfl
@[simp] theorem State.withXlt_hif (s : State) (x : Xlt) : (s.withXlt x).hif = s.hif := rfl
@[simp] theorem State.withXlt_sess (s : State) (x : Xlt) : (s.withXlt x).sess = s.sess := rfl
@[simp] theorem State.withXlt_disp (s : State) (x : Xlt) : (s.withXlt x).disp = s.disp := rfl
@[simp] theorem State.withXlt_rna (s : State) (x : Xlt) : (s.withXlt x).rna = s.rna := rfl
@[simp] theorem State.withXlt_pwr (s : State) (x : Xlt) : (s.withXlt x).pwr = s.pwr := rfl
@[simp] theorem State.withXlt_tile (s : State) (x : Xlt) : (s.withXlt x).tile = s.tile := rfl
@[simp] theorem State.withXlt_regs (s : State) (x : Xlt) : (s.withXlt x).regs = s.regs := rfl
@[simp] theorem State.withXlt_replies (s : State) (x : Xlt) : (s.withXlt x).replies = s.replies := rfl
@[simp] theorem State.withXlt_time (s : State) (x : Xlt) : (s.withXlt x).time = s.time := rfl
@[simp] theorem State.withXlt_free (s : State) (x : Xlt) : (s.withXlt x).free = s.free := rfl
@[simp] theorem State.withXlt_pending (s : State) (x : Xlt) : (s.withXlt x).pending = s.pending := rfl

@[simp] theorem State.withCore_glb (s : State) (x : FMap CoreSt) : (s.withCore x).glb = s.glb := rfl
@[simp] theorem State.withCore_repair (s : State) (x : FMap CoreSt) : (s.withCore x).repair = s.repair := rfl
@[simp] theorem State.withCore_boot (s : State) (x : FMap CoreSt) : (s.withCore x).boot = s.boot := rfl
@[simp] theorem State.withCore_ivory (s : State) (x : FMap CoreSt) : (s.withCore x).ivory = s.ivory := rfl
@[simp] theorem State.withCore_link (s : State) (x : FMap CoreSt) : (s.withCore x).link = s.link := rfl
@[simp] theorem State.withCore_hub (s : State) (x : FMap CoreSt) : (s.withCore x).hub = s.hub := rfl
@[simp] theorem State.withCore_hfifo (s : State) (x : FMap CoreSt) : (s.withCore x).hfifo = s.hfifo := rfl
@[simp] theorem State.withCore_msix (s : State) (x : FMap CoreSt) : (s.withCore x).msix = s.msix := rfl
@[simp] theorem State.withCore_sync (s : State) (x : FMap CoreSt) : (s.withCore x).sync = s.sync := rfl
@[simp] theorem State.withCore_counted (s : State) (x : FMap CoreSt) : (s.withCore x).counted = s.counted := rfl
@[simp] theorem State.withCore_mem (s : State) (x : FMap CoreSt) : (s.withCore x).mem = s.mem := rfl
@[simp] theorem State.withCore_stack (s : State) (x : FMap CoreSt) : (s.withCore x).stack = s.stack := rfl
@[simp] theorem State.withCore_memc (s : State) (x : FMap CoreSt) : (s.withCore x).memc = s.memc := rfl
@[simp] theorem State.withCore_pool (s : State) (x : FMap CoreSt) : (s.withCore x).pool = s.pool := rfl
@[simp] theorem State.withCore_tier (s : State) (x : FMap CoreSt) : (s.withCore x).tier = s.tier := rfl
@[simp] theorem State.withCore_xlt (s : State) (x : FMap CoreSt) : (s.withCore x).xlt = s.xlt := rfl
@[simp] theorem State.withCore_core (s : State) (x : FMap CoreSt) : (s.withCore x).core = x := rfl
@[simp] theorem State.withCore_cdie (s : State) (x : FMap CoreSt) : (s.withCore x).cdie = s.cdie := rfl
@[simp] theorem State.withCore_hif (s : State) (x : FMap CoreSt) : (s.withCore x).hif = s.hif := rfl
@[simp] theorem State.withCore_sess (s : State) (x : FMap CoreSt) : (s.withCore x).sess = s.sess := rfl
@[simp] theorem State.withCore_disp (s : State) (x : FMap CoreSt) : (s.withCore x).disp = s.disp := rfl
@[simp] theorem State.withCore_rna (s : State) (x : FMap CoreSt) : (s.withCore x).rna = s.rna := rfl
@[simp] theorem State.withCore_pwr (s : State) (x : FMap CoreSt) : (s.withCore x).pwr = s.pwr := rfl
@[simp] theorem State.withCore_tile (s : State) (x : FMap CoreSt) : (s.withCore x).tile = s.tile := rfl
@[simp] theorem State.withCore_regs (s : State) (x : FMap CoreSt) : (s.withCore x).regs = s.regs := rfl
@[simp] theorem State.withCore_replies (s : State) (x : FMap CoreSt) : (s.withCore x).replies = s.replies := rfl
@[simp] theorem State.withCore_time (s : State) (x : FMap CoreSt) : (s.withCore x).time = s.time := rfl
@[simp] theorem State.withCore_free (s : State) (x : FMap CoreSt) : (s.withCore x).free = s.free := rfl
@[simp] theorem State.withCore_pending (s : State) (x : FMap CoreSt) : (s.withCore x).pending = s.pending := rfl

@[simp] theorem State.withCdie_glb (s : State) (x : FMap CoreDie) : (s.withCdie x).glb = s.glb := rfl
@[simp] theorem State.withCdie_repair (s : State) (x : FMap CoreDie) : (s.withCdie x).repair = s.repair := rfl
@[simp] theorem State.withCdie_boot (s : State) (x : FMap CoreDie) : (s.withCdie x).boot = s.boot := rfl
@[simp] theorem State.withCdie_ivory (s : State) (x : FMap CoreDie) : (s.withCdie x).ivory = s.ivory := rfl
@[simp] theorem State.withCdie_link (s : State) (x : FMap CoreDie) : (s.withCdie x).link = s.link := rfl
@[simp] theorem State.withCdie_hub (s : State) (x : FMap CoreDie) : (s.withCdie x).hub = s.hub := rfl
@[simp] theorem State.withCdie_hfifo (s : State) (x : FMap CoreDie) : (s.withCdie x).hfifo = s.hfifo := rfl
@[simp] theorem State.withCdie_msix (s : State) (x : FMap CoreDie) : (s.withCdie x).msix = s.msix := rfl
@[simp] theorem State.withCdie_sync (s : State) (x : FMap CoreDie) : (s.withCdie x).sync = s.sync := rfl
@[simp] theorem State.withCdie_counted (s : State) (x : FMap CoreDie) : (s.withCdie x).counted = s.counted := rfl
@[simp] theorem State.withCdie_mem (s : State) (x : FMap CoreDie) : (s.withCdie x).mem = s.mem := rfl
@[simp] theorem State.withCdie_stack (s : State) (x : FMap CoreDie) : (s.withCdie x).stack = s.stack := rfl
@[simp] theorem State.withCdie_memc (s : State) (x : FMap CoreDie) : (s.withCdie x).memc = s.memc := rfl
@[simp] theorem State.withCdie_pool (s : State) (x : FMap CoreDie) : (s.withCdie x).pool = s.pool := rfl
@[simp] theorem State.withCdie_tier (s : State) (x : FMap CoreDie) : (s.withCdie x).tier = s.tier := rfl
@[simp] theorem State.withCdie_xlt (s : State) (x : FMap CoreDie) : (s.withCdie x).xlt = s.xlt := rfl
@[simp] theorem State.withCdie_core (s : State) (x : FMap CoreDie) : (s.withCdie x).core = s.core := rfl
@[simp] theorem State.withCdie_cdie (s : State) (x : FMap CoreDie) : (s.withCdie x).cdie = x := rfl
@[simp] theorem State.withCdie_hif (s : State) (x : FMap CoreDie) : (s.withCdie x).hif = s.hif := rfl
@[simp] theorem State.withCdie_sess (s : State) (x : FMap CoreDie) : (s.withCdie x).sess = s.sess := rfl
@[simp] theorem State.withCdie_disp (s : State) (x : FMap CoreDie) : (s.withCdie x).disp = s.disp := rfl
@[simp] theorem State.withCdie_rna (s : State) (x : FMap CoreDie) : (s.withCdie x).rna = s.rna := rfl
@[simp] theorem State.withCdie_pwr (s : State) (x : FMap CoreDie) : (s.withCdie x).pwr = s.pwr := rfl
@[simp] theorem State.withCdie_tile (s : State) (x : FMap CoreDie) : (s.withCdie x).tile = s.tile := rfl
@[simp] theorem State.withCdie_regs (s : State) (x : FMap CoreDie) : (s.withCdie x).regs = s.regs := rfl
@[simp] theorem State.withCdie_replies (s : State) (x : FMap CoreDie) : (s.withCdie x).replies = s.replies := rfl
@[simp] theorem State.withCdie_time (s : State) (x : FMap CoreDie) : (s.withCdie x).time = s.time := rfl
@[simp] theorem State.withCdie_free (s : State) (x : FMap CoreDie) : (s.withCdie x).free = s.free := rfl
@[simp] theorem State.withCdie_pending (s : State) (x : FMap CoreDie) : (s.withCdie x).pending = s.pending := rfl

@[simp] theorem State.withHif_glb (s : State) (x : Hif) : (s.withHif x).glb = s.glb := rfl
@[simp] theorem State.withHif_repair (s : State) (x : Hif) : (s.withHif x).repair = s.repair := rfl
@[simp] theorem State.withHif_boot (s : State) (x : Hif) : (s.withHif x).boot = s.boot := rfl
@[simp] theorem State.withHif_ivory (s : State) (x : Hif) : (s.withHif x).ivory = s.ivory := rfl
@[simp] theorem State.withHif_link (s : State) (x : Hif) : (s.withHif x).link = s.link := rfl
@[simp] theorem State.withHif_hub (s : State) (x : Hif) : (s.withHif x).hub = s.hub := rfl
@[simp] theorem State.withHif_hfifo (s : State) (x : Hif) : (s.withHif x).hfifo = s.hfifo := rfl
@[simp] theorem State.withHif_msix (s : State) (x : Hif) : (s.withHif x).msix = s.msix := rfl
@[simp] theorem State.withHif_sync (s : State) (x : Hif) : (s.withHif x).sync = s.sync := rfl
@[simp] theorem State.withHif_counted (s : State) (x : Hif) : (s.withHif x).counted = s.counted := rfl
@[simp] theorem State.withHif_mem (s : State) (x : Hif) : (s.withHif x).mem = s.mem := rfl
@[simp] theorem State.withHif_stack (s : State) (x : Hif) : (s.withHif x).stack = s.stack := rfl
@[simp] theorem State.withHif_memc (s : State) (x : Hif) : (s.withHif x).memc = s.memc := rfl
@[simp] theorem State.withHif_pool (s : State) (x : Hif) : (s.withHif x).pool = s.pool := rfl
@[simp] theorem State.withHif_tier (s : State) (x : Hif) : (s.withHif x).tier = s.tier := rfl
@[simp] theorem State.withHif_xlt (s : State) (x : Hif) : (s.withHif x).xlt = s.xlt := rfl
@[simp] theorem State.withHif_core (s : State) (x : Hif) : (s.withHif x).core = s.core := rfl
@[simp] theorem State.withHif_cdie (s : State) (x : Hif) : (s.withHif x).cdie = s.cdie := rfl
@[simp] theorem State.withHif_hif (s : State) (x : Hif) : (s.withHif x).hif = x := rfl
@[simp] theorem State.withHif_sess (s : State) (x : Hif) : (s.withHif x).sess = s.sess := rfl
@[simp] theorem State.withHif_disp (s : State) (x : Hif) : (s.withHif x).disp = s.disp := rfl
@[simp] theorem State.withHif_rna (s : State) (x : Hif) : (s.withHif x).rna = s.rna := rfl
@[simp] theorem State.withHif_pwr (s : State) (x : Hif) : (s.withHif x).pwr = s.pwr := rfl
@[simp] theorem State.withHif_tile (s : State) (x : Hif) : (s.withHif x).tile = s.tile := rfl
@[simp] theorem State.withHif_regs (s : State) (x : Hif) : (s.withHif x).regs = s.regs := rfl
@[simp] theorem State.withHif_replies (s : State) (x : Hif) : (s.withHif x).replies = s.replies := rfl
@[simp] theorem State.withHif_time (s : State) (x : Hif) : (s.withHif x).time = s.time := rfl
@[simp] theorem State.withHif_free (s : State) (x : Hif) : (s.withHif x).free = s.free := rfl
@[simp] theorem State.withHif_pending (s : State) (x : Hif) : (s.withHif x).pending = s.pending := rfl

@[simp] theorem State.withSess_glb (s : State) (x : FMap Sess) : (s.withSess x).glb = s.glb := rfl
@[simp] theorem State.withSess_repair (s : State) (x : FMap Sess) : (s.withSess x).repair = s.repair := rfl
@[simp] theorem State.withSess_boot (s : State) (x : FMap Sess) : (s.withSess x).boot = s.boot := rfl
@[simp] theorem State.withSess_ivory (s : State) (x : FMap Sess) : (s.withSess x).ivory = s.ivory := rfl
@[simp] theorem State.withSess_link (s : State) (x : FMap Sess) : (s.withSess x).link = s.link := rfl
@[simp] theorem State.withSess_hub (s : State) (x : FMap Sess) : (s.withSess x).hub = s.hub := rfl
@[simp] theorem State.withSess_hfifo (s : State) (x : FMap Sess) : (s.withSess x).hfifo = s.hfifo := rfl
@[simp] theorem State.withSess_msix (s : State) (x : FMap Sess) : (s.withSess x).msix = s.msix := rfl
@[simp] theorem State.withSess_sync (s : State) (x : FMap Sess) : (s.withSess x).sync = s.sync := rfl
@[simp] theorem State.withSess_counted (s : State) (x : FMap Sess) : (s.withSess x).counted = s.counted := rfl
@[simp] theorem State.withSess_mem (s : State) (x : FMap Sess) : (s.withSess x).mem = s.mem := rfl
@[simp] theorem State.withSess_stack (s : State) (x : FMap Sess) : (s.withSess x).stack = s.stack := rfl
@[simp] theorem State.withSess_memc (s : State) (x : FMap Sess) : (s.withSess x).memc = s.memc := rfl
@[simp] theorem State.withSess_pool (s : State) (x : FMap Sess) : (s.withSess x).pool = s.pool := rfl
@[simp] theorem State.withSess_tier (s : State) (x : FMap Sess) : (s.withSess x).tier = s.tier := rfl
@[simp] theorem State.withSess_xlt (s : State) (x : FMap Sess) : (s.withSess x).xlt = s.xlt := rfl
@[simp] theorem State.withSess_core (s : State) (x : FMap Sess) : (s.withSess x).core = s.core := rfl
@[simp] theorem State.withSess_cdie (s : State) (x : FMap Sess) : (s.withSess x).cdie = s.cdie := rfl
@[simp] theorem State.withSess_hif (s : State) (x : FMap Sess) : (s.withSess x).hif = s.hif := rfl
@[simp] theorem State.withSess_sess (s : State) (x : FMap Sess) : (s.withSess x).sess = x := rfl
@[simp] theorem State.withSess_disp (s : State) (x : FMap Sess) : (s.withSess x).disp = s.disp := rfl
@[simp] theorem State.withSess_rna (s : State) (x : FMap Sess) : (s.withSess x).rna = s.rna := rfl
@[simp] theorem State.withSess_pwr (s : State) (x : FMap Sess) : (s.withSess x).pwr = s.pwr := rfl
@[simp] theorem State.withSess_tile (s : State) (x : FMap Sess) : (s.withSess x).tile = s.tile := rfl
@[simp] theorem State.withSess_regs (s : State) (x : FMap Sess) : (s.withSess x).regs = s.regs := rfl
@[simp] theorem State.withSess_replies (s : State) (x : FMap Sess) : (s.withSess x).replies = s.replies := rfl
@[simp] theorem State.withSess_time (s : State) (x : FMap Sess) : (s.withSess x).time = s.time := rfl
@[simp] theorem State.withSess_free (s : State) (x : FMap Sess) : (s.withSess x).free = s.free := rfl
@[simp] theorem State.withSess_pending (s : State) (x : FMap Sess) : (s.withSess x).pending = s.pending := rfl

@[simp] theorem State.withDisp_glb (s : State) (x : Disp) : (s.withDisp x).glb = s.glb := rfl
@[simp] theorem State.withDisp_repair (s : State) (x : Disp) : (s.withDisp x).repair = s.repair := rfl
@[simp] theorem State.withDisp_boot (s : State) (x : Disp) : (s.withDisp x).boot = s.boot := rfl
@[simp] theorem State.withDisp_ivory (s : State) (x : Disp) : (s.withDisp x).ivory = s.ivory := rfl
@[simp] theorem State.withDisp_link (s : State) (x : Disp) : (s.withDisp x).link = s.link := rfl
@[simp] theorem State.withDisp_hub (s : State) (x : Disp) : (s.withDisp x).hub = s.hub := rfl
@[simp] theorem State.withDisp_hfifo (s : State) (x : Disp) : (s.withDisp x).hfifo = s.hfifo := rfl
@[simp] theorem State.withDisp_msix (s : State) (x : Disp) : (s.withDisp x).msix = s.msix := rfl
@[simp] theorem State.withDisp_sync (s : State) (x : Disp) : (s.withDisp x).sync = s.sync := rfl
@[simp] theorem State.withDisp_counted (s : State) (x : Disp) : (s.withDisp x).counted = s.counted := rfl
@[simp] theorem State.withDisp_mem (s : State) (x : Disp) : (s.withDisp x).mem = s.mem := rfl
@[simp] theorem State.withDisp_stack (s : State) (x : Disp) : (s.withDisp x).stack = s.stack := rfl
@[simp] theorem State.withDisp_memc (s : State) (x : Disp) : (s.withDisp x).memc = s.memc := rfl
@[simp] theorem State.withDisp_pool (s : State) (x : Disp) : (s.withDisp x).pool = s.pool := rfl
@[simp] theorem State.withDisp_tier (s : State) (x : Disp) : (s.withDisp x).tier = s.tier := rfl
@[simp] theorem State.withDisp_xlt (s : State) (x : Disp) : (s.withDisp x).xlt = s.xlt := rfl
@[simp] theorem State.withDisp_core (s : State) (x : Disp) : (s.withDisp x).core = s.core := rfl
@[simp] theorem State.withDisp_cdie (s : State) (x : Disp) : (s.withDisp x).cdie = s.cdie := rfl
@[simp] theorem State.withDisp_hif (s : State) (x : Disp) : (s.withDisp x).hif = s.hif := rfl
@[simp] theorem State.withDisp_sess (s : State) (x : Disp) : (s.withDisp x).sess = s.sess := rfl
@[simp] theorem State.withDisp_disp (s : State) (x : Disp) : (s.withDisp x).disp = x := rfl
@[simp] theorem State.withDisp_rna (s : State) (x : Disp) : (s.withDisp x).rna = s.rna := rfl
@[simp] theorem State.withDisp_pwr (s : State) (x : Disp) : (s.withDisp x).pwr = s.pwr := rfl
@[simp] theorem State.withDisp_tile (s : State) (x : Disp) : (s.withDisp x).tile = s.tile := rfl
@[simp] theorem State.withDisp_regs (s : State) (x : Disp) : (s.withDisp x).regs = s.regs := rfl
@[simp] theorem State.withDisp_replies (s : State) (x : Disp) : (s.withDisp x).replies = s.replies := rfl
@[simp] theorem State.withDisp_time (s : State) (x : Disp) : (s.withDisp x).time = s.time := rfl
@[simp] theorem State.withDisp_free (s : State) (x : Disp) : (s.withDisp x).free = s.free := rfl
@[simp] theorem State.withDisp_pending (s : State) (x : Disp) : (s.withDisp x).pending = s.pending := rfl

@[simp] theorem State.withRna_glb (s : State) (x : Ranoa) : (s.withRna x).glb = s.glb := rfl
@[simp] theorem State.withRna_repair (s : State) (x : Ranoa) : (s.withRna x).repair = s.repair := rfl
@[simp] theorem State.withRna_boot (s : State) (x : Ranoa) : (s.withRna x).boot = s.boot := rfl
@[simp] theorem State.withRna_ivory (s : State) (x : Ranoa) : (s.withRna x).ivory = s.ivory := rfl
@[simp] theorem State.withRna_link (s : State) (x : Ranoa) : (s.withRna x).link = s.link := rfl
@[simp] theorem State.withRna_hub (s : State) (x : Ranoa) : (s.withRna x).hub = s.hub := rfl
@[simp] theorem State.withRna_hfifo (s : State) (x : Ranoa) : (s.withRna x).hfifo = s.hfifo := rfl
@[simp] theorem State.withRna_msix (s : State) (x : Ranoa) : (s.withRna x).msix = s.msix := rfl
@[simp] theorem State.withRna_sync (s : State) (x : Ranoa) : (s.withRna x).sync = s.sync := rfl
@[simp] theorem State.withRna_counted (s : State) (x : Ranoa) : (s.withRna x).counted = s.counted := rfl
@[simp] theorem State.withRna_mem (s : State) (x : Ranoa) : (s.withRna x).mem = s.mem := rfl
@[simp] theorem State.withRna_stack (s : State) (x : Ranoa) : (s.withRna x).stack = s.stack := rfl
@[simp] theorem State.withRna_memc (s : State) (x : Ranoa) : (s.withRna x).memc = s.memc := rfl
@[simp] theorem State.withRna_pool (s : State) (x : Ranoa) : (s.withRna x).pool = s.pool := rfl
@[simp] theorem State.withRna_tier (s : State) (x : Ranoa) : (s.withRna x).tier = s.tier := rfl
@[simp] theorem State.withRna_xlt (s : State) (x : Ranoa) : (s.withRna x).xlt = s.xlt := rfl
@[simp] theorem State.withRna_core (s : State) (x : Ranoa) : (s.withRna x).core = s.core := rfl
@[simp] theorem State.withRna_cdie (s : State) (x : Ranoa) : (s.withRna x).cdie = s.cdie := rfl
@[simp] theorem State.withRna_hif (s : State) (x : Ranoa) : (s.withRna x).hif = s.hif := rfl
@[simp] theorem State.withRna_sess (s : State) (x : Ranoa) : (s.withRna x).sess = s.sess := rfl
@[simp] theorem State.withRna_disp (s : State) (x : Ranoa) : (s.withRna x).disp = s.disp := rfl
@[simp] theorem State.withRna_rna (s : State) (x : Ranoa) : (s.withRna x).rna = x := rfl
@[simp] theorem State.withRna_pwr (s : State) (x : Ranoa) : (s.withRna x).pwr = s.pwr := rfl
@[simp] theorem State.withRna_tile (s : State) (x : Ranoa) : (s.withRna x).tile = s.tile := rfl
@[simp] theorem State.withRna_regs (s : State) (x : Ranoa) : (s.withRna x).regs = s.regs := rfl
@[simp] theorem State.withRna_replies (s : State) (x : Ranoa) : (s.withRna x).replies = s.replies := rfl
@[simp] theorem State.withRna_time (s : State) (x : Ranoa) : (s.withRna x).time = s.time := rfl
@[simp] theorem State.withRna_free (s : State) (x : Ranoa) : (s.withRna x).free = s.free := rfl
@[simp] theorem State.withRna_pending (s : State) (x : Ranoa) : (s.withRna x).pending = s.pending := rfl

@[simp] theorem State.withPwr_glb (s : State) (x : Pwr) : (s.withPwr x).glb = s.glb := rfl
@[simp] theorem State.withPwr_repair (s : State) (x : Pwr) : (s.withPwr x).repair = s.repair := rfl
@[simp] theorem State.withPwr_boot (s : State) (x : Pwr) : (s.withPwr x).boot = s.boot := rfl
@[simp] theorem State.withPwr_ivory (s : State) (x : Pwr) : (s.withPwr x).ivory = s.ivory := rfl
@[simp] theorem State.withPwr_link (s : State) (x : Pwr) : (s.withPwr x).link = s.link := rfl
@[simp] theorem State.withPwr_hub (s : State) (x : Pwr) : (s.withPwr x).hub = s.hub := rfl
@[simp] theorem State.withPwr_hfifo (s : State) (x : Pwr) : (s.withPwr x).hfifo = s.hfifo := rfl
@[simp] theorem State.withPwr_msix (s : State) (x : Pwr) : (s.withPwr x).msix = s.msix := rfl
@[simp] theorem State.withPwr_sync (s : State) (x : Pwr) : (s.withPwr x).sync = s.sync := rfl
@[simp] theorem State.withPwr_counted (s : State) (x : Pwr) : (s.withPwr x).counted = s.counted := rfl
@[simp] theorem State.withPwr_mem (s : State) (x : Pwr) : (s.withPwr x).mem = s.mem := rfl
@[simp] theorem State.withPwr_stack (s : State) (x : Pwr) : (s.withPwr x).stack = s.stack := rfl
@[simp] theorem State.withPwr_memc (s : State) (x : Pwr) : (s.withPwr x).memc = s.memc := rfl
@[simp] theorem State.withPwr_pool (s : State) (x : Pwr) : (s.withPwr x).pool = s.pool := rfl
@[simp] theorem State.withPwr_tier (s : State) (x : Pwr) : (s.withPwr x).tier = s.tier := rfl
@[simp] theorem State.withPwr_xlt (s : State) (x : Pwr) : (s.withPwr x).xlt = s.xlt := rfl
@[simp] theorem State.withPwr_core (s : State) (x : Pwr) : (s.withPwr x).core = s.core := rfl
@[simp] theorem State.withPwr_cdie (s : State) (x : Pwr) : (s.withPwr x).cdie = s.cdie := rfl
@[simp] theorem State.withPwr_hif (s : State) (x : Pwr) : (s.withPwr x).hif = s.hif := rfl
@[simp] theorem State.withPwr_sess (s : State) (x : Pwr) : (s.withPwr x).sess = s.sess := rfl
@[simp] theorem State.withPwr_disp (s : State) (x : Pwr) : (s.withPwr x).disp = s.disp := rfl
@[simp] theorem State.withPwr_rna (s : State) (x : Pwr) : (s.withPwr x).rna = s.rna := rfl
@[simp] theorem State.withPwr_pwr (s : State) (x : Pwr) : (s.withPwr x).pwr = x := rfl
@[simp] theorem State.withPwr_tile (s : State) (x : Pwr) : (s.withPwr x).tile = s.tile := rfl
@[simp] theorem State.withPwr_regs (s : State) (x : Pwr) : (s.withPwr x).regs = s.regs := rfl
@[simp] theorem State.withPwr_replies (s : State) (x : Pwr) : (s.withPwr x).replies = s.replies := rfl
@[simp] theorem State.withPwr_time (s : State) (x : Pwr) : (s.withPwr x).time = s.time := rfl
@[simp] theorem State.withPwr_free (s : State) (x : Pwr) : (s.withPwr x).free = s.free := rfl
@[simp] theorem State.withPwr_pending (s : State) (x : Pwr) : (s.withPwr x).pending = s.pending := rfl

@[simp] theorem State.withTile_glb (s : State) (x : FMap Tile) : (s.withTile x).glb = s.glb := rfl
@[simp] theorem State.withTile_repair (s : State) (x : FMap Tile) : (s.withTile x).repair = s.repair := rfl
@[simp] theorem State.withTile_boot (s : State) (x : FMap Tile) : (s.withTile x).boot = s.boot := rfl
@[simp] theorem State.withTile_ivory (s : State) (x : FMap Tile) : (s.withTile x).ivory = s.ivory := rfl
@[simp] theorem State.withTile_link (s : State) (x : FMap Tile) : (s.withTile x).link = s.link := rfl
@[simp] theorem State.withTile_hub (s : State) (x : FMap Tile) : (s.withTile x).hub = s.hub := rfl
@[simp] theorem State.withTile_hfifo (s : State) (x : FMap Tile) : (s.withTile x).hfifo = s.hfifo := rfl
@[simp] theorem State.withTile_msix (s : State) (x : FMap Tile) : (s.withTile x).msix = s.msix := rfl
@[simp] theorem State.withTile_sync (s : State) (x : FMap Tile) : (s.withTile x).sync = s.sync := rfl
@[simp] theorem State.withTile_counted (s : State) (x : FMap Tile) : (s.withTile x).counted = s.counted := rfl
@[simp] theorem State.withTile_mem (s : State) (x : FMap Tile) : (s.withTile x).mem = s.mem := rfl
@[simp] theorem State.withTile_stack (s : State) (x : FMap Tile) : (s.withTile x).stack = s.stack := rfl
@[simp] theorem State.withTile_memc (s : State) (x : FMap Tile) : (s.withTile x).memc = s.memc := rfl
@[simp] theorem State.withTile_pool (s : State) (x : FMap Tile) : (s.withTile x).pool = s.pool := rfl
@[simp] theorem State.withTile_tier (s : State) (x : FMap Tile) : (s.withTile x).tier = s.tier := rfl
@[simp] theorem State.withTile_xlt (s : State) (x : FMap Tile) : (s.withTile x).xlt = s.xlt := rfl
@[simp] theorem State.withTile_core (s : State) (x : FMap Tile) : (s.withTile x).core = s.core := rfl
@[simp] theorem State.withTile_cdie (s : State) (x : FMap Tile) : (s.withTile x).cdie = s.cdie := rfl
@[simp] theorem State.withTile_hif (s : State) (x : FMap Tile) : (s.withTile x).hif = s.hif := rfl
@[simp] theorem State.withTile_sess (s : State) (x : FMap Tile) : (s.withTile x).sess = s.sess := rfl
@[simp] theorem State.withTile_disp (s : State) (x : FMap Tile) : (s.withTile x).disp = s.disp := rfl
@[simp] theorem State.withTile_rna (s : State) (x : FMap Tile) : (s.withTile x).rna = s.rna := rfl
@[simp] theorem State.withTile_pwr (s : State) (x : FMap Tile) : (s.withTile x).pwr = s.pwr := rfl
@[simp] theorem State.withTile_tile (s : State) (x : FMap Tile) : (s.withTile x).tile = x := rfl
@[simp] theorem State.withTile_regs (s : State) (x : FMap Tile) : (s.withTile x).regs = s.regs := rfl
@[simp] theorem State.withTile_replies (s : State) (x : FMap Tile) : (s.withTile x).replies = s.replies := rfl
@[simp] theorem State.withTile_time (s : State) (x : FMap Tile) : (s.withTile x).time = s.time := rfl
@[simp] theorem State.withTile_free (s : State) (x : FMap Tile) : (s.withTile x).free = s.free := rfl
@[simp] theorem State.withTile_pending (s : State) (x : FMap Tile) : (s.withTile x).pending = s.pending := rfl

@[simp] theorem State.withRegs_glb (s : State) (x : FMap Word) : (s.withRegs x).glb = s.glb := rfl
@[simp] theorem State.withRegs_repair (s : State) (x : FMap Word) : (s.withRegs x).repair = s.repair := rfl
@[simp] theorem State.withRegs_boot (s : State) (x : FMap Word) : (s.withRegs x).boot = s.boot := rfl
@[simp] theorem State.withRegs_ivory (s : State) (x : FMap Word) : (s.withRegs x).ivory = s.ivory := rfl
@[simp] theorem State.withRegs_link (s : State) (x : FMap Word) : (s.withRegs x).link = s.link := rfl
@[simp] theorem State.withRegs_hub (s : State) (x : FMap Word) : (s.withRegs x).hub = s.hub := rfl
@[simp] theorem State.withRegs_hfifo (s : State) (x : FMap Word) : (s.withRegs x).hfifo = s.hfifo := rfl
@[simp] theorem State.withRegs_msix (s : State) (x : FMap Word) : (s.withRegs x).msix = s.msix := rfl
@[simp] theorem State.withRegs_sync (s : State) (x : FMap Word) : (s.withRegs x).sync = s.sync := rfl
@[simp] theorem State.withRegs_counted (s : State) (x : FMap Word) : (s.withRegs x).counted = s.counted := rfl
@[simp] theorem State.withRegs_mem (s : State) (x : FMap Word) : (s.withRegs x).mem = s.mem := rfl
@[simp] theorem State.withRegs_stack (s : State) (x : FMap Word) : (s.withRegs x).stack = s.stack := rfl
@[simp] theorem State.withRegs_memc (s : State) (x : FMap Word) : (s.withRegs x).memc = s.memc := rfl
@[simp] theorem State.withRegs_pool (s : State) (x : FMap Word) : (s.withRegs x).pool = s.pool := rfl
@[simp] theorem State.withRegs_tier (s : State) (x : FMap Word) : (s.withRegs x).tier = s.tier := rfl
@[simp] theorem State.withRegs_xlt (s : State) (x : FMap Word) : (s.withRegs x).xlt = s.xlt := rfl
@[simp] theorem State.withRegs_core (s : State) (x : FMap Word) : (s.withRegs x).core = s.core := rfl
@[simp] theorem State.withRegs_cdie (s : State) (x : FMap Word) : (s.withRegs x).cdie = s.cdie := rfl
@[simp] theorem State.withRegs_hif (s : State) (x : FMap Word) : (s.withRegs x).hif = s.hif := rfl
@[simp] theorem State.withRegs_sess (s : State) (x : FMap Word) : (s.withRegs x).sess = s.sess := rfl
@[simp] theorem State.withRegs_disp (s : State) (x : FMap Word) : (s.withRegs x).disp = s.disp := rfl
@[simp] theorem State.withRegs_rna (s : State) (x : FMap Word) : (s.withRegs x).rna = s.rna := rfl
@[simp] theorem State.withRegs_pwr (s : State) (x : FMap Word) : (s.withRegs x).pwr = s.pwr := rfl
@[simp] theorem State.withRegs_tile (s : State) (x : FMap Word) : (s.withRegs x).tile = s.tile := rfl
@[simp] theorem State.withRegs_regs (s : State) (x : FMap Word) : (s.withRegs x).regs = x := rfl
@[simp] theorem State.withRegs_replies (s : State) (x : FMap Word) : (s.withRegs x).replies = s.replies := rfl
@[simp] theorem State.withRegs_time (s : State) (x : FMap Word) : (s.withRegs x).time = s.time := rfl
@[simp] theorem State.withRegs_free (s : State) (x : FMap Word) : (s.withRegs x).free = s.free := rfl
@[simp] theorem State.withRegs_pending (s : State) (x : FMap Word) : (s.withRegs x).pending = s.pending := rfl

@[simp] theorem State.withReplies_glb (s : State) (x : List Reply) : (s.withReplies x).glb = s.glb := rfl
@[simp] theorem State.withReplies_repair (s : State) (x : List Reply) : (s.withReplies x).repair = s.repair := rfl
@[simp] theorem State.withReplies_boot (s : State) (x : List Reply) : (s.withReplies x).boot = s.boot := rfl
@[simp] theorem State.withReplies_ivory (s : State) (x : List Reply) : (s.withReplies x).ivory = s.ivory := rfl
@[simp] theorem State.withReplies_link (s : State) (x : List Reply) : (s.withReplies x).link = s.link := rfl
@[simp] theorem State.withReplies_hub (s : State) (x : List Reply) : (s.withReplies x).hub = s.hub := rfl
@[simp] theorem State.withReplies_hfifo (s : State) (x : List Reply) : (s.withReplies x).hfifo = s.hfifo := rfl
@[simp] theorem State.withReplies_msix (s : State) (x : List Reply) : (s.withReplies x).msix = s.msix := rfl
@[simp] theorem State.withReplies_sync (s : State) (x : List Reply) : (s.withReplies x).sync = s.sync := rfl
@[simp] theorem State.withReplies_counted (s : State) (x : List Reply) : (s.withReplies x).counted = s.counted := rfl
@[simp] theorem State.withReplies_mem (s : State) (x : List Reply) : (s.withReplies x).mem = s.mem := rfl
@[simp] theorem State.withReplies_stack (s : State) (x : List Reply) : (s.withReplies x).stack = s.stack := rfl
@[simp] theorem State.withReplies_memc (s : State) (x : List Reply) : (s.withReplies x).memc = s.memc := rfl
@[simp] theorem State.withReplies_pool (s : State) (x : List Reply) : (s.withReplies x).pool = s.pool := rfl
@[simp] theorem State.withReplies_tier (s : State) (x : List Reply) : (s.withReplies x).tier = s.tier := rfl
@[simp] theorem State.withReplies_xlt (s : State) (x : List Reply) : (s.withReplies x).xlt = s.xlt := rfl
@[simp] theorem State.withReplies_core (s : State) (x : List Reply) : (s.withReplies x).core = s.core := rfl
@[simp] theorem State.withReplies_cdie (s : State) (x : List Reply) : (s.withReplies x).cdie = s.cdie := rfl
@[simp] theorem State.withReplies_hif (s : State) (x : List Reply) : (s.withReplies x).hif = s.hif := rfl
@[simp] theorem State.withReplies_sess (s : State) (x : List Reply) : (s.withReplies x).sess = s.sess := rfl
@[simp] theorem State.withReplies_disp (s : State) (x : List Reply) : (s.withReplies x).disp = s.disp := rfl
@[simp] theorem State.withReplies_rna (s : State) (x : List Reply) : (s.withReplies x).rna = s.rna := rfl
@[simp] theorem State.withReplies_pwr (s : State) (x : List Reply) : (s.withReplies x).pwr = s.pwr := rfl
@[simp] theorem State.withReplies_tile (s : State) (x : List Reply) : (s.withReplies x).tile = s.tile := rfl
@[simp] theorem State.withReplies_regs (s : State) (x : List Reply) : (s.withReplies x).regs = s.regs := rfl
@[simp] theorem State.withReplies_replies (s : State) (x : List Reply) : (s.withReplies x).replies = x := rfl
@[simp] theorem State.withReplies_time (s : State) (x : List Reply) : (s.withReplies x).time = s.time := rfl
@[simp] theorem State.withReplies_free (s : State) (x : List Reply) : (s.withReplies x).free = s.free := rfl
@[simp] theorem State.withReplies_pending (s : State) (x : List Reply) : (s.withReplies x).pending = s.pending := rfl

@[simp] theorem State.withTime_glb (s : State) (x : Nat) : (s.withTime x).glb = s.glb := rfl
@[simp] theorem State.withTime_repair (s : State) (x : Nat) : (s.withTime x).repair = s.repair := rfl
@[simp] theorem State.withTime_boot (s : State) (x : Nat) : (s.withTime x).boot = s.boot := rfl
@[simp] theorem State.withTime_ivory (s : State) (x : Nat) : (s.withTime x).ivory = s.ivory := rfl
@[simp] theorem State.withTime_link (s : State) (x : Nat) : (s.withTime x).link = s.link := rfl
@[simp] theorem State.withTime_hub (s : State) (x : Nat) : (s.withTime x).hub = s.hub := rfl
@[simp] theorem State.withTime_hfifo (s : State) (x : Nat) : (s.withTime x).hfifo = s.hfifo := rfl
@[simp] theorem State.withTime_msix (s : State) (x : Nat) : (s.withTime x).msix = s.msix := rfl
@[simp] theorem State.withTime_sync (s : State) (x : Nat) : (s.withTime x).sync = s.sync := rfl
@[simp] theorem State.withTime_counted (s : State) (x : Nat) : (s.withTime x).counted = s.counted := rfl
@[simp] theorem State.withTime_mem (s : State) (x : Nat) : (s.withTime x).mem = s.mem := rfl
@[simp] theorem State.withTime_stack (s : State) (x : Nat) : (s.withTime x).stack = s.stack := rfl
@[simp] theorem State.withTime_memc (s : State) (x : Nat) : (s.withTime x).memc = s.memc := rfl
@[simp] theorem State.withTime_pool (s : State) (x : Nat) : (s.withTime x).pool = s.pool := rfl
@[simp] theorem State.withTime_tier (s : State) (x : Nat) : (s.withTime x).tier = s.tier := rfl
@[simp] theorem State.withTime_xlt (s : State) (x : Nat) : (s.withTime x).xlt = s.xlt := rfl
@[simp] theorem State.withTime_core (s : State) (x : Nat) : (s.withTime x).core = s.core := rfl
@[simp] theorem State.withTime_cdie (s : State) (x : Nat) : (s.withTime x).cdie = s.cdie := rfl
@[simp] theorem State.withTime_hif (s : State) (x : Nat) : (s.withTime x).hif = s.hif := rfl
@[simp] theorem State.withTime_sess (s : State) (x : Nat) : (s.withTime x).sess = s.sess := rfl
@[simp] theorem State.withTime_disp (s : State) (x : Nat) : (s.withTime x).disp = s.disp := rfl
@[simp] theorem State.withTime_rna (s : State) (x : Nat) : (s.withTime x).rna = s.rna := rfl
@[simp] theorem State.withTime_pwr (s : State) (x : Nat) : (s.withTime x).pwr = s.pwr := rfl
@[simp] theorem State.withTime_tile (s : State) (x : Nat) : (s.withTime x).tile = s.tile := rfl
@[simp] theorem State.withTime_regs (s : State) (x : Nat) : (s.withTime x).regs = s.regs := rfl
@[simp] theorem State.withTime_replies (s : State) (x : Nat) : (s.withTime x).replies = s.replies := rfl
@[simp] theorem State.withTime_time (s : State) (x : Nat) : (s.withTime x).time = x := rfl
@[simp] theorem State.withTime_free (s : State) (x : Nat) : (s.withTime x).free = s.free := rfl
@[simp] theorem State.withTime_pending (s : State) (x : Nat) : (s.withTime x).pending = s.pending := rfl

@[simp] theorem State.withFree_glb (s : State) (x : Nat) : (s.withFree x).glb = s.glb := rfl
@[simp] theorem State.withFree_repair (s : State) (x : Nat) : (s.withFree x).repair = s.repair := rfl
@[simp] theorem State.withFree_boot (s : State) (x : Nat) : (s.withFree x).boot = s.boot := rfl
@[simp] theorem State.withFree_ivory (s : State) (x : Nat) : (s.withFree x).ivory = s.ivory := rfl
@[simp] theorem State.withFree_link (s : State) (x : Nat) : (s.withFree x).link = s.link := rfl
@[simp] theorem State.withFree_hub (s : State) (x : Nat) : (s.withFree x).hub = s.hub := rfl
@[simp] theorem State.withFree_hfifo (s : State) (x : Nat) : (s.withFree x).hfifo = s.hfifo := rfl
@[simp] theorem State.withFree_msix (s : State) (x : Nat) : (s.withFree x).msix = s.msix := rfl
@[simp] theorem State.withFree_sync (s : State) (x : Nat) : (s.withFree x).sync = s.sync := rfl
@[simp] theorem State.withFree_counted (s : State) (x : Nat) : (s.withFree x).counted = s.counted := rfl
@[simp] theorem State.withFree_mem (s : State) (x : Nat) : (s.withFree x).mem = s.mem := rfl
@[simp] theorem State.withFree_stack (s : State) (x : Nat) : (s.withFree x).stack = s.stack := rfl
@[simp] theorem State.withFree_memc (s : State) (x : Nat) : (s.withFree x).memc = s.memc := rfl
@[simp] theorem State.withFree_pool (s : State) (x : Nat) : (s.withFree x).pool = s.pool := rfl
@[simp] theorem State.withFree_tier (s : State) (x : Nat) : (s.withFree x).tier = s.tier := rfl
@[simp] theorem State.withFree_xlt (s : State) (x : Nat) : (s.withFree x).xlt = s.xlt := rfl
@[simp] theorem State.withFree_core (s : State) (x : Nat) : (s.withFree x).core = s.core := rfl
@[simp] theorem State.withFree_cdie (s : State) (x : Nat) : (s.withFree x).cdie = s.cdie := rfl
@[simp] theorem State.withFree_hif (s : State) (x : Nat) : (s.withFree x).hif = s.hif := rfl
@[simp] theorem State.withFree_sess (s : State) (x : Nat) : (s.withFree x).sess = s.sess := rfl
@[simp] theorem State.withFree_disp (s : State) (x : Nat) : (s.withFree x).disp = s.disp := rfl
@[simp] theorem State.withFree_rna (s : State) (x : Nat) : (s.withFree x).rna = s.rna := rfl
@[simp] theorem State.withFree_pwr (s : State) (x : Nat) : (s.withFree x).pwr = s.pwr := rfl
@[simp] theorem State.withFree_tile (s : State) (x : Nat) : (s.withFree x).tile = s.tile := rfl
@[simp] theorem State.withFree_regs (s : State) (x : Nat) : (s.withFree x).regs = s.regs := rfl
@[simp] theorem State.withFree_replies (s : State) (x : Nat) : (s.withFree x).replies = s.replies := rfl
@[simp] theorem State.withFree_time (s : State) (x : Nat) : (s.withFree x).time = s.time := rfl
@[simp] theorem State.withFree_free (s : State) (x : Nat) : (s.withFree x).free = x := rfl
@[simp] theorem State.withFree_pending (s : State) (x : Nat) : (s.withFree x).pending = s.pending := rfl

@[simp] theorem State.withPending_glb (s : State) (x : List Instr) : (s.withPending x).glb = s.glb := rfl
@[simp] theorem State.withPending_repair (s : State) (x : List Instr) : (s.withPending x).repair = s.repair := rfl
@[simp] theorem State.withPending_boot (s : State) (x : List Instr) : (s.withPending x).boot = s.boot := rfl
@[simp] theorem State.withPending_ivory (s : State) (x : List Instr) : (s.withPending x).ivory = s.ivory := rfl
@[simp] theorem State.withPending_link (s : State) (x : List Instr) : (s.withPending x).link = s.link := rfl
@[simp] theorem State.withPending_hub (s : State) (x : List Instr) : (s.withPending x).hub = s.hub := rfl
@[simp] theorem State.withPending_hfifo (s : State) (x : List Instr) : (s.withPending x).hfifo = s.hfifo := rfl
@[simp] theorem State.withPending_msix (s : State) (x : List Instr) : (s.withPending x).msix = s.msix := rfl
@[simp] theorem State.withPending_sync (s : State) (x : List Instr) : (s.withPending x).sync = s.sync := rfl
@[simp] theorem State.withPending_counted (s : State) (x : List Instr) : (s.withPending x).counted = s.counted := rfl
@[simp] theorem State.withPending_mem (s : State) (x : List Instr) : (s.withPending x).mem = s.mem := rfl
@[simp] theorem State.withPending_stack (s : State) (x : List Instr) : (s.withPending x).stack = s.stack := rfl
@[simp] theorem State.withPending_memc (s : State) (x : List Instr) : (s.withPending x).memc = s.memc := rfl
@[simp] theorem State.withPending_pool (s : State) (x : List Instr) : (s.withPending x).pool = s.pool := rfl
@[simp] theorem State.withPending_tier (s : State) (x : List Instr) : (s.withPending x).tier = s.tier := rfl
@[simp] theorem State.withPending_xlt (s : State) (x : List Instr) : (s.withPending x).xlt = s.xlt := rfl
@[simp] theorem State.withPending_core (s : State) (x : List Instr) : (s.withPending x).core = s.core := rfl
@[simp] theorem State.withPending_cdie (s : State) (x : List Instr) : (s.withPending x).cdie = s.cdie := rfl
@[simp] theorem State.withPending_hif (s : State) (x : List Instr) : (s.withPending x).hif = s.hif := rfl
@[simp] theorem State.withPending_sess (s : State) (x : List Instr) : (s.withPending x).sess = s.sess := rfl
@[simp] theorem State.withPending_disp (s : State) (x : List Instr) : (s.withPending x).disp = s.disp := rfl
@[simp] theorem State.withPending_rna (s : State) (x : List Instr) : (s.withPending x).rna = s.rna := rfl
@[simp] theorem State.withPending_pwr (s : State) (x : List Instr) : (s.withPending x).pwr = s.pwr := rfl
@[simp] theorem State.withPending_tile (s : State) (x : List Instr) : (s.withPending x).tile = s.tile := rfl
@[simp] theorem State.withPending_regs (s : State) (x : List Instr) : (s.withPending x).regs = s.regs := rfl
@[simp] theorem State.withPending_replies (s : State) (x : List Instr) : (s.withPending x).replies = s.replies := rfl
@[simp] theorem State.withPending_time (s : State) (x : List Instr) : (s.withPending x).time = s.time := rfl
@[simp] theorem State.withPending_free (s : State) (x : List Instr) : (s.withPending x).free = s.free := rfl
@[simp] theorem State.withPending_pending (s : State) (x : List Instr) : (s.withPending x).pending = x := rfl

end Sys2Proof.Machine
end

