-- ==== Sys2Proof/Laws/Next.lean ====
section
/-!
SUPPORT. What every operation keeps: the queue, the package serial, the canonical form of the memory; the fused count and
the number of free values drawn never fall. One law for each update of the state; the laws of outcomes and of folds.
-/
namespace Sys2Proof.Machine

/-- A memory operation keeps the canonical form. -/
def RamOk (r r' : Ram) : Prop := r.wf = true → r'.wf = true

/-- Every part of the first list is in the second. -/
def Within (l ws : List Field) : Prop := ∀ f ∈ l, f ∈ ws

/-- A list whose parts all stand in another is within whatever that one is within. -/
theorem Within.of {l m ws : List Field} (h : Within m ws) (e : l.all (fun f => m.contains f) = true) : Within l ws :=
  fun f hf => h f (by simpa using List.all_eq_true.mp e f hf)

/-- A list is within itself. -/
theorem Within.rfl' (l : List Field) : Within l l := fun _ h => h

/-- What every operation that may change the parts `ws` keeps between two states. -/
structure Keeps (ws : List Field) (s t : State) : Prop where
  pending : t.pending = s.pending
  serial : t.glb.serial = s.glb.serial
  fused : s.ivory.fusedSvn ≤ t.ivory.fusedSvn
  free : s.free ≤ t.free
  mem : RamOk s.mem t.mem
  part : ∀ f : Field, f ∉ ws → f.same s t

/-- Nothing changes. -/
theorem Keeps.rfl' (ws : List Field) (s : State) : Keeps ws s s :=
  ⟨rfl, rfl, Nat.le_refl _, Nat.le_refl _, id, fun f _ => by cases f <;> rfl⟩

/-- One after another. -/
theorem Keeps.trans {ws : List Field} {a b c : State} (h : Keeps ws a b) (g : Keeps ws b c) : Keeps ws a c :=
  ⟨g.pending.trans h.pending, g.serial.trans h.serial, Nat.le_trans h.fused g.fused, Nat.le_trans h.free g.free,
    fun w => g.mem (h.mem w), fun f hf => by
      have h1 := h.part f hf
      have h2 := g.part f hf
      cases f <;> exact Eq.trans h2 h1⟩

/-! ## Memory operations -/

theorem RamOk.rfl' (r : Ram) : RamOk r r := id
theorem RamOk_writeN {r q : Ram} (h : RamOk r q) (a : Nat) (bs : List Byte) : RamOk r (q.writeN a bs) :=
  fun w => Ram.writeN_wf (h w) a bs
theorem RamOk_setPoison {r q : Ram} (h : RamOk r q) (n : Nat) (p : Bool) : RamOk r (q.setPoison n p) := h
theorem RamOk_fixCk {r q : Ram} (h : RamOk r q) (n : Nat) : RamOk r (q.fixCk n) := h
theorem RamOk_writeSector {r q : Ram} (h : RamOk r q) (n : Nat) (d : List Byte) (ck : Option (BitVec 32)) (p : Bool) :
    RamOk r (q.writeSector n d ck p) := fun w => Ram.writeSector_wf (h w) n d ck p
theorem RamOk_writeSectors {r q : Ram} (h : RamOk r q) (n : Nat) (p : Bool) (d : List Byte) (ck : List (BitVec 32))
    (k : Nat) : RamOk r (q.writeSectors n p d ck k) := fun w => Ram.writeSectors_wf k p d ck n q (h w)
theorem RamOk_undefine {r q : Ram} (h : RamOk r q) (lo len tag : Nat) : RamOk r (q.undefine lo len tag) := h
theorem RamOk_zero {r q : Ram} (h : RamOk r q) (lo len : Nat) : RamOk r (q.zero lo len) :=
  fun w => Ram.zero_wf (h w) lo len
theorem RamOk_poisonRange {r q : Ram} (h : RamOk r q) (lo len : Nat) : RamOk r (q.poisonRange lo len) := h
theorem RamOk_merge {r q : Ram} (h : RamOk r q) (a : Nat) (bs : List Byte) : RamOk r (q.merge a bs) :=
  fun w => Ram.merge_wf (h w) a bs
theorem RamOk_writeMasked {r q : Ram} (h : RamOk r q) (n m : Nat) (d : List Byte) (p : Bool) :
    RamOk r (q.writeMasked n m d p) := fun w => Ram.writeMasked_wf (h w) n m d p
theorem RamOk_restoreAt {r q : Ram} (h : RamOk r q) (sv : Saved) (lo : Nat) : RamOk r (q.restoreAt sv lo) :=
  fun w => Ram.restoreAt_wf (h w) sv lo
theorem RamOk_restore {r q : Ram} (h : RamOk r q) (sv : Saved) : RamOk r (q.restore sv) :=
  fun w => Ram.restore_wf (h w) sv
theorem RamOk_empty (r : Ram) : RamOk r {} := fun _ => rfl

/-! ## Updates -/

section
variable {ws : List Field} {s0 s : State} (h : Keeps ws s0 s)
include h

theorem withGlb_keeps (x : Glb) (e : x.serial = s.glb.serial) (hw : Within [.glb] ws) : Keeps ws s0 (s.withGlb x) :=
  h.trans ⟨rfl, e, Nat.le_refl _, Nat.le_refl _, id,
    fun f hf => by cases f <;> first | rfl | exact absurd (hw _ (List.mem_singleton.mpr rfl)) hf⟩
theorem withRepair_keeps (x : Repair) (hw : Within [.repair] ws) : Keeps ws s0 (s.withRepair x) :=
  h.trans ⟨rfl, rfl, Nat.le_refl _, Nat.le_refl _, id,
    fun f hf => by cases f <;> first | rfl | exact absurd (hw _ (List.mem_singleton.mpr rfl)) hf⟩
theorem withBoot_keeps (x : Boot) (hw : Within [.boot] ws) : Keeps ws s0 (s.withBoot x) :=
  h.trans ⟨rfl, rfl, Nat.le_refl _, Nat.le_refl _, id,
    fun f hf => by cases f <;> first | rfl | exact absurd (hw _ (List.mem_singleton.mpr rfl)) hf⟩
theorem withIvory_keeps (x : Ivory) (e : s.ivory.fusedSvn ≤ x.fusedSvn) (hw : Within [.ivory] ws) : Keeps ws s0 (s.withIvory x) :=
  h.trans ⟨rfl, rfl, e, Nat.le_refl _, id,
    fun f hf => by cases f <;> first | rfl | exact absurd (hw _ (List.mem_singleton.mpr rfl)) hf⟩
theorem withLink_keeps (x : FMap LinkSt) (hw : Within [.link] ws) : Keeps ws s0 (s.withLink x) :=
  h.trans ⟨rfl, rfl, Nat.le_refl _, Nat.le_refl _, id,
    fun f hf => by cases f <;> first | rfl | exact absurd (hw _ (List.mem_singleton.mpr rfl)) hf⟩
theorem withHub_keeps (x : Hub) (hw : Within [.hub] ws) : Keeps ws s0 (s.withHub x) :=
  h.trans ⟨rfl, rfl, Nat.le_refl _, Nat.le_refl _, id,
    fun f hf => by cases f <;> first | rfl | exact absurd (hw _ (List.mem_singleton.mpr rfl)) hf⟩
theorem withHfifo_keeps (x : Fifo) (hw : Within [.hfifo] ws) : Keeps ws s0 (s.withHfifo x) :=
  h.trans ⟨rfl, rfl, Nat.le_refl _, Nat.le_refl _, id,
    fun f hf => by cases f <;> first | rfl | exact absurd (hw _ (List.mem_singleton.mpr rfl)) hf⟩
theorem withMsix_keeps (x : FMap Vec) (hw : Within [.msix] ws) : Keeps ws s0 (s.withMsix x) :=
  h.trans ⟨rfl, rfl, Nat.le_refl _, Nat.le_refl _, id,
    fun f hf => by cases f <;> first | rfl | exact absurd (hw _ (List.mem_singleton.mpr rfl)) hf⟩
theorem withSync_keeps (x : FMap SyncObj) (hw : Within [.sync] ws) : Keeps ws s0 (s.withSync x) :=
  h.trans ⟨rfl, rfl, Nat.le_refl _, Nat.le_refl _, id,
    fun f hf => by cases f <;> first | rfl | exact absurd (hw _ (List.mem_singleton.mpr rfl)) hf⟩
theorem withCounted_keeps (x : List Counted) (hw : Within [.counted] ws) : Keeps ws s0 (s.withCounted x) :=
  h.trans ⟨rfl, rfl, Nat.le_refl _, Nat.le_refl _, id,
    fun f hf => by cases f <;> first | rfl | exact absurd (hw _ (List.mem_singleton.mpr rfl)) hf⟩
theorem withMem_keeps (x : Ram) (e : RamOk s.mem x) (hw : Within [.mem] ws) : Keeps ws s0 (s.withMem x) :=
  h.trans ⟨rfl, rfl, Nat.le_refl _, Nat.le_refl _, e,
    fun f hf => by cases f <;> first | rfl | exact absurd (hw _ (List.mem_singleton.mpr rfl)) hf⟩
theorem withStack_keeps (x : FMap Stack) (hw : Within [.stack] ws) : Keeps ws s0 (s.withStack x) :=
  h.trans ⟨rfl, rfl, Nat.le_refl _, Nat.le_refl _, id,
    fun f hf => by cases f <;> first | rfl | exact absurd (hw _ (List.mem_singleton.mpr rfl)) hf⟩
theorem withMemc_keeps (x : MemC) (hw : Within [.memc] ws) : Keeps ws s0 (s.withMemc x) :=
  h.trans ⟨rfl, rfl, Nat.le_refl _, Nat.le_refl _, id,
    fun f hf => by cases f <;> first | rfl | exact absurd (hw _ (List.mem_singleton.mpr rfl)) hf⟩
theorem withPool_keeps (x : FMap PoolDie) (hw : Within [.pool] ws) : Keeps ws s0 (s.withPool x) :=
  h.trans ⟨rfl, rfl, Nat.le_refl _, Nat.le_refl _, id,
    fun f hf => by cases f <;> first | rfl | exact absurd (hw _ (List.mem_singleton.mpr rfl)) hf⟩
theorem withTier_keeps (x : Tier) (hw : Within [.tier] ws) : Keeps ws s0 (s.withTier x) :=
  h.trans ⟨rfl, rfl, Nat.le_refl _, Nat.le_refl _, id,
    fun f hf => by cases f <;> first | rfl | exact absurd (hw _ (List.mem_singleton.mpr rfl)) hf⟩
theorem withXlt_keeps (x : Xlt) (hw : Within [.xlt] ws) : Keeps ws s0 (s.withXlt x) :=
  h.trans ⟨rfl, rfl, Nat.le_refl _, Nat.le_refl _, id,
    fun f hf => by cases f <;> first | rfl | exact absurd (hw _ (List.mem_singleton.mpr rfl)) hf⟩
theorem withCore_keeps (x : FMap CoreSt) (hw : Within [.core] ws) : Keeps ws s0 (s.withCore x) :=
  h.trans ⟨rfl, rfl, Nat.le_refl _, Nat.le_refl _, id,
    fun f hf => by cases f <;> first | rfl | exact absurd (hw _ (List.mem_singleton.mpr rfl)) hf⟩
theorem withCdie_keeps (x : FMap CoreDie) (hw : Within [.cdie] ws) : Keeps ws s0 (s.withCdie x) :=
  h.trans ⟨rfl, rfl, Nat.le_refl _, Nat.le_refl _, id,
    fun f hf => by cases f <;> first | rfl | exact absurd (hw _ (List.mem_singleton.mpr rfl)) hf⟩
theorem withHif_keeps (x : Hif) (hw : Within [.hif] ws) : Keeps ws s0 (s.withHif x) :=
  h.trans ⟨rfl, rfl, Nat.le_refl _, Nat.le_refl _, id,
    fun f hf => by cases f <;> first | rfl | exact absurd (hw _ (List.mem_singleton.mpr rfl)) hf⟩
theorem withSess_keeps (x : FMap Sess) (hw : Within [.sess] ws) : Keeps ws s0 (s.withSess x) :=
  h.trans ⟨rfl, rfl, Nat.le_refl _, Nat.le_refl _, id,
    fun f hf => by cases f <;> first | rfl | exact absurd (hw _ (List.mem_singleton.mpr rfl)) hf⟩
theorem withDisp_keeps (x : Disp) (hw : Within [.disp] ws) : Keeps ws s0 (s.withDisp x) :=
  h.trans ⟨rfl, rfl, Nat.le_refl _, Nat.le_refl _, id,
    fun f hf => by cases f <;> first | rfl | exact absurd (hw _ (List.mem_singleton.mpr rfl)) hf⟩
theorem withRna_keeps (x : Ranoa) (hw : Within [.rna] ws) : Keeps ws s0 (s.withRna x) :=
  h.trans ⟨rfl, rfl, Nat.le_refl _, Nat.le_refl _, id,
    fun f hf => by cases f <;> first | rfl | exact absurd (hw _ (List.mem_singleton.mpr rfl)) hf⟩
theorem withPwr_keeps (x : Pwr) (hw : Within [.pwr] ws) : Keeps ws s0 (s.withPwr x) :=
  h.trans ⟨rfl, rfl, Nat.le_refl _, Nat.le_refl _, id,
    fun f hf => by cases f <;> first | rfl | exact absurd (hw _ (List.mem_singleton.mpr rfl)) hf⟩
theorem withTile_keeps (x : FMap Tile) (hw : Within [.tile] ws) : Keeps ws s0 (s.withTile x) :=
  h.trans ⟨rfl, rfl, Nat.le_refl _, Nat.le_refl _, id,
    fun f hf => by cases f <;> first | rfl | exact absurd (hw _ (List.mem_singleton.mpr rfl)) hf⟩
theorem withRegs_keeps (x : FMap Word) (hw : Within [.regs] ws) : Keeps ws s0 (s.withRegs x) :=
  h.trans ⟨rfl, rfl, Nat.le_refl _, Nat.le_refl _, id,
    fun f hf => by cases f <;> first | rfl | exact absurd (hw _ (List.mem_singleton.mpr rfl)) hf⟩
theorem withReplies_keeps (x : List Reply) (hw : Within [.replies] ws) : Keeps ws s0 (s.withReplies x) :=
  h.trans ⟨rfl, rfl, Nat.le_refl _, Nat.le_refl _, id,
    fun f hf => by cases f <;> first | rfl | exact absurd (hw _ (List.mem_singleton.mpr rfl)) hf⟩
theorem withTime_keeps (x : Nat) (hw : Within [.time] ws) : Keeps ws s0 (s.withTime x) :=
  h.trans ⟨rfl, rfl, Nat.le_refl _, Nat.le_refl _, id,
    fun f hf => by cases f <;> first | rfl | exact absurd (hw _ (List.mem_singleton.mpr rfl)) hf⟩
theorem withFree_keeps (x : Nat) (e : s.free ≤ x) (hw : Within [.free] ws) : Keeps ws s0 (s.withFree x) :=
  h.trans ⟨rfl, rfl, Nat.le_refl _, e, id,
    fun f hf => by cases f <;> first | rfl | exact absurd (hw _ (List.mem_singleton.mpr rfl)) hf⟩
end

/-! ## Outcomes and folds -/

/-- The predicate holds of the next state, if the outcome is one. -/
def OnNext (P : State → Prop) (r : Res) : Prop := ∀ t, r = .next t → P t

@[simp] theorem OnNext_next (P : State → Prop) (t : State) : OnNext P (.next t) ↔ P t :=
  ⟨fun h => h t rfl, fun h _ e => by cases e; exact h⟩

@[simp] theorem OnNext_fault (P : State → Prop) (e : Fault) : OnNext P (.fault e) ↔ True :=
  ⟨fun _ => trivial, fun _ _ e => by cases e⟩

@[simp] theorem OnNext_refused (P : State → Prop) (e : Refusal) : OnNext P (.refused e) ↔ True :=
  ⟨fun _ => trivial, fun _ _ e => by cases e⟩

/-- A next state that satisfies the predicate. -/
theorem OnNext.next {P : State → Prop} {t : State} (h : P t) : OnNext P (.next t) := (OnNext_next P t).mpr h

/-- A fault has no next state. -/
theorem OnNext.fault {P : State → Prop} {e : Fault} : OnNext P (.fault e) := (OnNext_fault P e).mpr trivial

/-- A fold of operations that each keep something keeps it. -/
theorem foldl_inv {σ α : Type} (P : σ → Prop) (f : σ → α → σ) (hf : ∀ s a, P s → P (f s a)) (l : List α) (s : σ)
    (h : P s) : P (l.foldl f s) := by
  induction l generalizing s with
  | nil => exact h
  | cons a r ih => exact ih _ (hf s a h)

/-- The state that comes beside an answer. -/
theorem Keeps.of_snd {ws : List Field} {s0 t : State} {α : Type} {x : α × State} {a : α} (e : x = (a, t)) (h : Keeps ws s0 x.2) :
    Keeps ws s0 t := by
  rw [e] at h
  exact h

/-- The state that comes before an answer. -/
theorem Keeps.of_fst {ws : List Field} {s0 t : State} {α : Type} {x : State × α} {a : α} (e : x = (t, a)) (h : Keeps ws s0 x.1) :
    Keeps ws s0 t := by
  rw [e] at h
  exact h

/-- A fold of operations. -/
theorem foldl_keeps {ws : List Field} {s0 : State} {α : Type} (f : State → α → State)
    (hf : ∀ s a, Keeps ws s0 s → Keeps ws s0 (f s a)) (l : List α) (s : State) (h : Keeps ws s0 s) :
    Keeps ws s0 (l.foldl f s) := foldl_inv (Keeps ws s0) f hf l s h

end Sys2Proof.Machine
end

