-- ==== Sys2Proof/Laws/KeepsShared.lean ====
section
/-!
SUPPORT. What every operation of the shared operations: events, packets, sync objects, homes, translation, host link keeps (Keeps, Laws/Next.lean):
one law per operation.
-/
namespace Sys2Proof.Machine
set_option Elab.async false

theorem tick_keeps {tch : List Field} {s0 : State} (s : State) (hs : Keeps tch s0 s)
    (hw : Within [.time] tch := by exact Within.of (by assumption) rfl) :
    Keeps tch s0 (tick s) := by
  unfold tick
  try dsimp only
  repeat' (first
    | (with_reducible assumption) | exact hw.of rfl | (with_reducible apply withTime_keeps) | split)

theorem State.updLink_keeps {tch : List Field} {s0 : State} (s : State) (p : Nat) (f : LinkSt → LinkSt)
    (hs : Keeps tch s0 s)
    (hw : Within [.link] tch := by exact Within.of (by assumption) rfl) :
    Keeps tch s0 (State.updLink s p f) := by
  unfold State.updLink
  try dsimp only
  repeat' (first
    | (with_reducible assumption) | exact hw.of rfl | (with_reducible apply withLink_keeps) | split)

theorem State.updStack_keeps {tch : List Field} {s0 : State} (s : State) (n : Nat) (f : Stack → Stack)
    (hs : Keeps tch s0 s)
    (hw : Within [.stack] tch := by exact Within.of (by assumption) rfl) :
    Keeps tch s0 (State.updStack s n f) := by
  unfold State.updStack
  try dsimp only
  repeat' (first
    | (with_reducible assumption) | exact hw.of rfl | (with_reducible apply withStack_keeps) | split)

theorem State.updPool_keeps {tch : List Field} {s0 : State} (s : State) (n : Nat) (f : PoolDie → PoolDie)
    (hs : Keeps tch s0 s)
    (hw : Within [.pool] tch := by exact Within.of (by assumption) rfl) :
    Keeps tch s0 (State.updPool s n f) := by
  unfold State.updPool
  try dsimp only
  repeat' (first
    | (with_reducible assumption) | exact hw.of rfl | (with_reducible apply withPool_keeps) | split)

theorem State.updCore_keeps {tch : List Field} {s0 : State} (s : State) (n : Nat) (f : CoreSt → CoreSt)
    (hs : Keeps tch s0 s)
    (hw : Within [.core] tch := by exact Within.of (by assumption) rfl) :
    Keeps tch s0 (State.updCore s n f) := by
  unfold State.updCore
  try dsimp only
  repeat' (first
    | (with_reducible assumption) | exact hw.of rfl | (with_reducible apply withCore_keeps) | split)

theorem State.updCdie_keeps {tch : List Field} {s0 : State} (s : State) (n : Nat) (f : CoreDie → CoreDie)
    (hs : Keeps tch s0 s)
    (hw : Within [.cdie] tch := by exact Within.of (by assumption) rfl) :
    Keeps tch s0 (State.updCdie s n f) := by
  unfold State.updCdie
  try dsimp only
  repeat' (first
    | (with_reducible assumption) | exact hw.of rfl | (with_reducible apply withCdie_keeps) | split)

theorem State.updSess_keeps {tch : List Field} {s0 : State} (s : State) (n : Nat) (f : Sess → Sess)
    (hs : Keeps tch s0 s)
    (hw : Within [.sess] tch := by exact Within.of (by assumption) rfl) :
    Keeps tch s0 (State.updSess s n f) := by
  unfold State.updSess
  try dsimp only
  repeat' (first
    | (with_reducible assumption) | exact hw.of rfl | (with_reducible apply withSess_keeps) | split)

theorem State.updSync_keeps {tch : List Field} {s0 : State} (s : State) (n : Nat) (f : SyncObj → SyncObj)
    (hs : Keeps tch s0 s)
    (hw : Within [.sync] tch := by exact Within.of (by assumption) rfl) :
    Keeps tch s0 (State.updSync s n f) := by
  unfold State.updSync
  try dsimp only
  repeat' (first
    | (with_reducible assumption) | exact hw.of rfl | (with_reducible apply withSync_keeps) | split)

theorem State.updTile_keeps {tch : List Field} {s0 : State} (s : State) (p : Nat) (f : Tile → Tile)
    (hs : Keeps tch s0 s)
    (hw : Within [.tile] tch := by exact Within.of (by assumption) rfl) :
    Keeps tch s0 (State.updTile s p f) := by
  unfold State.updTile
  try dsimp only
  repeat' (first
    | (with_reducible assumption) | exact hw.of rfl | (with_reducible apply withTile_keeps) | split)

theorem State.updRing_keeps {tch : List Field} {s0 : State} (s : State) (r : Nat) (f : Ring → Ring)
    (hs : Keeps tch s0 s)
    (hw : Within [.disp] tch := by exact Within.of (by assumption) rfl) :
    Keeps tch s0 (State.updRing s r f) := by
  unfold State.updRing
  try dsimp only
  repeat' (first
    | (with_reducible assumption) | exact hw.of rfl | (with_reducible apply withDisp_keeps) | split)

theorem State.updRport_keeps {tch : List Field} {s0 : State} (s : State) (n : Nat) (f : RPort → RPort)
    (hs : Keeps tch s0 s)
    (hw : Within [.rna] tch := by exact Within.of (by assumption) rfl) :
    Keeps tch s0 (State.updRport s n f) := by
  unfold State.updRport
  try dsimp only
  repeat' (first
    | (with_reducible assumption) | exact hw.of rfl | (with_reducible apply withRna_keeps) | split)

theorem State.updTdie_keeps {tch : List Field} {s0 : State} (s : State) (d : Nat) (f : TierDie → TierDie)
    (hs : Keeps tch s0 s)
    (hw : Within [.tier] tch := by exact Within.of (by assumption) rfl) :
    Keeps tch s0 (State.updTdie s d f) := by
  unfold State.updTdie
  try dsimp only
  repeat' (first
    | (with_reducible assumption) | exact hw.of rfl | (with_reducible apply withTier_keeps) | split)

theorem State.updVec_keeps {tch : List Field} {s0 : State} (s : State) (k : Nat) (f : Vec → Vec)
    (hs : Keeps tch s0 s)
    (hw : Within [.msix] tch := by exact Within.of (by assumption) rfl) :
    Keeps tch s0 (State.updVec s k f) := by
  unfold State.updVec
  try dsimp only
  repeat' (first
    | (with_reducible assumption) | exact hw.of rfl | (with_reducible apply withMsix_keeps) | split)

theorem State.draw_keeps {tch : List Field} {s0 : State} (s : State) (what : Nat) (hs : Keeps tch s0 s)
    (hw : Within [.free] tch := by exact Within.of (by assumption) rfl) :
    Keeps tch s0 (State.draw s what).2 := by
  exact withFree_keeps hs _ (Nat.le_succ _) (hw.of rfl)

theorem State.setReg_keeps {tch : List Field} {s0 : State} (s : State) (off : Nat) (v : Word)
    (hs : Keeps tch s0 s)
    (hw : Within [.regs] tch := by exact Within.of (by assumption) rfl) :
    Keeps tch s0 (State.setReg s off v) := by
  unfold State.setReg
  try dsimp only
  repeat' (first
    | (with_reducible assumption) | exact hw.of rfl | (with_reducible apply withRegs_keeps) | split)

theorem State.tlpNow_keeps {tch : List Field} {s0 : State} (s : State) (t : HTlp) (hs : Keeps tch s0 s)
    (hw : Within [.hif] tch := by exact Within.of (by assumption) rfl) :
    Keeps tch s0 (State.tlpNow s t) := by
  unfold State.tlpNow
  try dsimp only
  repeat' (first
    | (with_reducible assumption) | exact hw.of rfl | (with_reducible apply withHif_keeps) | split)

theorem State.tlp_keeps {tch : List Field} {s0 : State} (s : State) (t : HTlp) (hs : Keeps tch s0 s)
    (hw : Within [.hif] tch := by exact Within.of (by assumption) rfl) :
    Keeps tch s0 (State.tlp s t) := by
  unfold State.tlp
  try dsimp only
  repeat' (first
    | (with_reducible assumption) | exact hw.of rfl | (with_reducible apply State.tlpNow_keeps)
    | (with_reducible apply withHif_keeps) | split)

theorem tagsGo_keeps {tch : List Field} {s0 : State} (s : State) (hs : Keeps tch s0 s)
    (hw : Within [.hif] tch := by exact Within.of (by assumption) rfl) :
    Keeps tch s0 (tagsGo s) := by
  unfold tagsGo
  try dsimp only
  repeat' (first
    | (with_reducible assumption) | exact hw.of rfl | (with_reducible apply withHif_keeps)
    | (with_reducible apply State.tlp_keeps) | (with_reducible apply foldl_keeps) | split
    | (intro _; intros; try dsimp only))

theorem State.nonPosted_keeps {tch : List Field} {s0 : State} (s : State) (t : HTlp) (hs : Keeps tch s0 s)
    (hw : Within [.hif] tch := by exact Within.of (by assumption) rfl) :
    Keeps tch s0 (State.nonPosted s t) := by
  unfold State.nonPosted
  try dsimp only
  repeat' (first
    | (with_reducible assumption) | exact hw.of rfl | (with_reducible apply tagsGo_keeps)
    | (with_reducible apply withHif_keeps) | split)

theorem setReads_keeps {tch : List Field} {s0 : State} (l : FMap (Option HostRd)) (s : State)
    (hs : Keeps tch s0 s)
    (hw : Within [.hif] tch := by exact Within.of (by assumption) rfl) :
    Keeps tch s0 (setReads l s) := by
  unfold setReads
  try dsimp only
  repeat' (first
    | (with_reducible assumption) | exact hw.of rfl | (with_reducible apply tagsGo_keeps)
    | (with_reducible apply withHif_keeps) | split)

theorem msixFire_keeps {tch : List Field} {s0 : State} (fn : Nat) (v : Nat) (s : State) (hs : Keeps tch s0 s)
    (hw : Within [.msix, .hif] tch := by exact Within.of (by assumption) rfl) :
    Keeps tch s0 (msixFire fn v s) := by
  unfold msixFire
  try dsimp only
  repeat' (first
    | (with_reducible assumption) | exact hw.of rfl | (with_reducible apply State.updVec_keeps)
    | (with_reducible apply State.tlp_keeps) | split)

theorem msixGather_keeps {tch : List Field} {s0 : State} (fn : Nat) (v : Nat) (s : State)
    (hs : Keeps tch s0 s)
    (hw : Within [.msix, .hif] tch := by exact Within.of (by assumption) rfl) :
    Keeps tch s0 (msixGather fn v s) := by
  unfold msixGather
  try dsimp only
  repeat' (first
    | (with_reducible assumption) | exact hw.of rfl | (with_reducible apply State.updVec_keeps)
    | (with_reducible apply msixFire_keeps) | split)

theorem State.updSrc_keeps {tch : List Field} {s0 : State} (s : State) (d : Nat) (n : Nat) (f : Src → Src)
    (hs : Keeps tch s0 s)
    (hw : Within [.cdie] tch := by exact Within.of (by assumption) rfl) :
    Keeps tch s0 (State.updSrc s d n f) := by
  unfold State.updSrc
  try dsimp only
  repeat' (first
    | (with_reducible assumption) | exact hw.of rfl | (with_reducible apply State.updCdie_keeps) | split)

theorem routerEvent_keeps {tch : List Field} {s0 : State} (d : Nat) (n : Nat) (s : State)
    (hs : Keeps tch s0 s)
    (hw : Within [.cdie] tch := by exact Within.of (by assumption) rfl) :
    Keeps tch s0 (routerEvent d n s) := by
  unfold routerEvent
  try dsimp only
  repeat' (first
    | (with_reducible assumption) | exact hw.of rfl | (with_reducible apply State.updSrc_keeps) | split)

theorem postHost_keeps {tch : List Field} {s0 : State} (e : EvItem) (s : State) (hs : Keeps tch s0 s)
    (hw : Within [.hfifo, .msix, .hif] tch := by exact Within.of (by assumption) rfl) :
    Keeps tch s0 (postHost e s) := by
  unfold postHost
  try dsimp only
  repeat' (first
    | (with_reducible assumption) | exact hw.of rfl | (with_reducible apply withHfifo_keeps)
    | (with_reducible apply msixGather_keeps) | split)

theorem postCore_keeps {tch : List Field} {s0 : State} (d : Nat) (e : EvItem) (s : State)
    (hs : Keeps tch s0 s)
    (hw : Within [.cdie] tch := by exact Within.of (by assumption) rfl) :
    Keeps tch s0 (postCore d e s) := by
  unfold postCore
  try dsimp only
  repeat' (first
    | (with_reducible assumption) | exact hw.of rfl | (with_reducible apply State.updCdie_keeps)
    | (with_reducible apply routerEvent_keeps) | split)

theorem post_keeps {tch : List Field} {s0 : State} (e : EvItem) (s : State) (hs : Keeps tch s0 s)
    (hw : Within [.hfifo, .msix, .cdie, .hif] tch := by exact Within.of (by assumption) rfl) :
    Keeps tch s0 (post e s) := by
  unfold post
  try dsimp only
  repeat' (first
    | (with_reducible assumption) | exact hw.of rfl | (with_reducible apply postHost_keeps)
    | (with_reducible apply postCore_keeps) | split)

theorem postAll_keeps {tch : List Field} {s0 : State} (l : List EvItem) (s : State) (hs : Keeps tch s0 s)
    (hw : Within [.hfifo, .msix, .cdie, .hif] tch := by exact Within.of (by assumption) rfl) :
    Keeps tch s0 (postAll l s) := by
  unfold postAll
  try dsimp only
  repeat' (first
    | (with_reducible assumption) | exact hw.of rfl | (with_reducible apply postHost_keeps)
    | (with_reducible apply postCore_keeps) | (with_reducible apply foldl_keeps) | split
    | (intro _; intros; try dsimp only))

theorem setupRefused_keeps {tch : List Field} {s0 : State} (who : Agent) (off : Nat) (s : State)
    (hs : Keeps tch s0 s)
    (hw : Within [.hfifo, .msix, .cdie, .hif] tch := by exact Within.of (by assumption) rfl) :
    Keeps tch s0 (setupRefused who off s) := by
  unfold setupRefused
  try dsimp only
  repeat' (first
    | (with_reducible assumption) | exact hw.of rfl | (with_reducible apply post_keeps) | split)

theorem evCheckword_keeps {tch : List Field} {s0 : State} (point : Nat) (tile : Bool) (port : Nat)
    (addr : Nat) (s : State) (hs : Keeps tch s0 s)
    (hw : Within [.hfifo, .msix, .cdie, .hif] tch := by exact Within.of (by assumption) rfl) :
    Keeps tch s0 (evCheckword point tile port addr s) := by
  unfold evCheckword
  try dsimp only
  repeat' (first
    | (with_reducible assumption) | exact hw.of rfl | (with_reducible apply post_keeps) | split)

theorem reply_keeps {tch : List Field} {s0 : State} (who : Agent) (off : Nat) (data : Word) (s : State)
    (hs : Keeps tch s0 s)
    (hw : Within [.replies] tch := by exact Within.of (by assumption) rfl) :
    Keeps tch s0 (reply who off data s) := by
  unfold reply
  try dsimp only
  repeat' (first
    | (with_reducible assumption) | exact hw.of rfl | (with_reducible apply withReplies_keeps) | split)

theorem replyAbort_keeps {tch : List Field} {s0 : State} (who : Agent) (off : Nat) (s : State)
    (hs : Keeps tch s0 s)
    (hw : Within [.replies] tch := by exact Within.of (by assumption) rfl) :
    Keeps tch s0 (replyAbort who off s) := by
  unfold replyAbort
  try dsimp only
  repeat' (first
    | (with_reducible assumption) | exact hw.of rfl | (with_reducible apply withReplies_keeps) | split)

theorem mgmtReply_keeps {tch : List Field} {s0 : State} (r : MgmtReply) (s : State) (hs : Keeps tch s0 s)
    (hw : Within [.ivory] tch := by exact Within.of (by assumption) rfl) :
    Keeps tch s0 (mgmtReply r s) := by
  unfold mgmtReply
  try dsimp only
  repeat' (first
    | (with_reducible assumption) | exact hw.of rfl | exact Nat.le_refl _ | (with_reducible apply withIvory_keeps)
    | split)

theorem shutRead_keeps {tch : List Field} {s0 : State} (who : Agent) (off : Nat) (s : State)
    (hs : Keeps tch s0 s)
    (hw : Within [.replies] tch := by exact Within.of (by assumption) rfl) :
    Keeps tch s0 (shutRead who off s) := by
  unfold shutRead
  try dsimp only
  repeat' (first
    | (with_reducible assumption) | exact hw.of rfl | (with_reducible apply reply_keeps) | split)

theorem pfWrite_keeps {tch : List Field} {s0 : State} (who : Agent) (off : Nat) (k : State → State)
    (s : State) (hs : Keeps tch s0 s) (hk : ∀ u, Keeps tch s0 u → Keeps tch s0 (k u))
    (hw : Within [.hfifo, .msix, .cdie, .hif] tch := by exact Within.of (by assumption) rfl) :
    Keeps tch s0 (pfWrite who off k s) := by
  unfold pfWrite
  try dsimp only
  repeat' (first
    | (with_reducible assumption) | exact hw.of rfl | (with_reducible apply setupRefused_keeps)
    | (with_reducible apply hk) | split | (intro _; intros; try dsimp only))

theorem coreTrap_keeps {tch : List Field} {s0 : State} (c : Nat) (cause : Nat) (tval : Nat) (s : State)
    (hs : Keeps tch s0 s)
    (hw : Within [.core] tch := by exact Within.of (by assumption) rfl) :
    Keeps tch s0 (coreTrap c cause tval s) := by
  unfold coreTrap
  try dsimp only
  repeat' (first
    | (with_reducible assumption) | exact hw.of rfl | (with_reducible apply State.updCore_keeps) | split)

theorem resetCoreDie_keeps {tch : List Field} {s0 : State} (d : Nat) (s : State) (hs : Keeps tch s0 s)
    (hw : Within [.core, .cdie, .regs] tch := by exact Within.of (by assumption) rfl) :
    Keeps tch s0 (resetCoreDie d s) := by
  unfold resetCoreDie
  try dsimp only
  repeat' (first
    | (with_reducible assumption) | exact hw.of rfl | (with_reducible apply State.updCore_keeps)
    | (with_reducible apply State.updCdie_keeps) | (with_reducible apply withRegs_keeps)
    | (with_reducible apply foldl_keeps) | split | (intro _; intros; try dsimp only))

theorem powerOff_keeps {tch : List Field} {s0 : State} (s : State) (hs : Keeps tch s0 s)
    (hw : Within [.glb, .boot, .ivory, .link, .hub, .hfifo, .msix, .sync, .counted, .mem, .stack, .memc, .pool,
    .tier, .xlt, .core, .cdie, .hif, .sess, .disp, .rna, .pwr, .tile, .regs,
    .time] tch := by exact Within.of (by assumption) rfl) :
    Keeps tch s0 (powerOff s) := by
  exact hs.trans ⟨rfl, rfl, Nat.le_refl _, Nat.le_refl _, fun _ => rfl, fun f hf => by
    cases f <;> first | rfl | exact absurd (hw _ (by decide)) hf⟩

theorem thermTrip_keeps {tch : List Field} {s0 : State} (s : State) (hs : Keeps tch s0 s)
    (hw : Within [.glb, .boot, .ivory, .link, .hub, .hfifo, .msix, .sync, .counted, .mem, .stack, .memc, .pool,
    .tier, .xlt, .core, .cdie, .hif, .sess, .disp, .rna, .pwr, .tile, .regs,
    .time] tch := by exact Within.of (by assumption) rfl) :
    Keeps tch s0 (thermTrip s) := by
  unfold thermTrip
  try dsimp only
  repeat' (first
    | (with_reducible assumption) | exact hw.of rfl | (with_reducible apply powerOff_keeps)
    | (with_reducible apply withBoot_keeps) | split)

theorem endService_keeps {tch : List Field} {s0 : State} (s : State) (hs : Keeps tch s0 s)
    (hw : Within [.glb, .boot, .disp] tch := by exact Within.of (by assumption) rfl) :
    Keeps tch s0 (endService s) := by
  unfold endService
  try dsimp only
  repeat' (first
    | (with_reducible assumption)
    | exact hw.of rfl
    | exact rfl
    | exact Nat.le_refl _
    | exact Nat.le_succ _
    | (with_reducible apply withDisp_keeps)
    | (with_reducible apply withGlb_keeps)
    | (with_reducible apply withBoot_keeps)
    | split
    | (intro _; intros; try dsimp only))

theorem State.addVoq_keeps {tch : List Field} {s0 : State} (s : State) (p : Pkt)
    (aside : optParam Bool false) (made : optParam Bool false) (hs : Keeps tch s0 s)
    (hw : Within [.hub] tch := by exact Within.of (by assumption) rfl) :
    Keeps tch s0 (State.addVoq s p aside made) := by
  unfold State.addVoq
  try dsimp only
  repeat' (first
    | (with_reducible assumption) | exact hw.of rfl | (with_reducible apply withHub_keeps) | split)

theorem freeSlotOf_keeps {tch : List Field} {s0 : State} (sd : Side) (v : Voq) (s : State)
    (hs : Keeps tch s0 s)
    (hw : Within [.link] tch := by exact Within.of (by assumption) rfl) :
    Keeps tch s0 (freeSlotOf sd v s) := by
  unfold freeSlotOf
  try dsimp only
  repeat' (first
    | (with_reducible assumption) | exact hw.of rfl | (with_reducible apply State.updLink_keeps) | split)

theorem pump_keeps {tch : List Field} {s0 : State} (z1 : Nat) (z2 : Nat) (z3 : State) (hs : Keeps tch s0 z3)
    (hw : Within [.link, .hub] tch := by exact Within.of (by assumption) rfl) :
    Keeps tch s0 (pump z1 z2 z3) := by
  induction z1 generalizing z2 z3 with
  | zero => exact hs
  | succ n ih =>
    unfold pump
    dsimp only
    repeat' (first
      | (with_reducible refine ih _ _ ?_)
      | (with_reducible assumption)
      | exact hw.of rfl
      | exact rfl
      | exact Nat.le_refl _
      | exact Nat.le_succ _
      | (with_reducible apply withHub_keeps)
      | (with_reducible apply State.updLink_keeps)
      | (with_reducible apply freeSlotOf_keeps)
      | split
      | (intro _; intros; try dsimp only))

theorem pumpOut_keeps {tch : List Field} {s0 : State} (dst : Nat) (s : State) (hs : Keeps tch s0 s)
    (hw : Within [.link, .hub] tch := by exact Within.of (by assumption) rfl) :
    Keeps tch s0 (pumpOut dst s) := by
  unfold pumpOut
  try dsimp only
  repeat' (first
    | (with_reducible assumption) | exact hw.of rfl | (with_reducible apply pump_keeps) | split)

theorem hubSays_keeps {tch : List Field} {s0 : State} (p : Pkt) (s : State) (hs : Keeps tch s0 s)
    (hw : Within [.link, .hub] tch := by exact Within.of (by assumption) rfl) :
    Keeps tch s0 (hubSays p s) := by
  unfold hubSays
  try dsimp only
  repeat' (first
    | (with_reducible assumption) | exact hw.of rfl | (with_reducible apply pumpOut_keeps)
    | (with_reducible apply State.addVoq_keeps) | split)

theorem hubTake_keeps {tch : List Field} {s0 : State} (p : Pkt) (aside : Bool) (made : Bool) (s : State)
    (hs : Keeps tch s0 s)
    (hw : Within [.link, .hub] tch := by exact Within.of (by assumption) rfl) :
    Keeps tch s0 (hubTake p aside made s) := by
  unfold hubTake
  try dsimp only
  repeat' (first
    | (with_reducible assumption) | exact hw.of rfl | (with_reducible apply freeSlotOf_keeps)
    | (with_reducible apply hubSays_keeps) | (with_reducible apply pumpOut_keeps)
    | (with_reducible apply State.addVoq_keeps) | split)

theorem sendWith_keeps {tch : List Field} {s0 : State} (aside : Bool) (p : Pkt) (s : State)
    (hs : Keeps tch s0 s)
    (hw : Within [.link, .hub] tch := by exact Within.of (by assumption) rfl) :
    Keeps tch s0 (sendWith aside p s) := by
  unfold sendWith
  try dsimp only
  repeat' (first
    | (with_reducible assumption) | exact hw.of rfl | (with_reducible apply hubTake_keeps)
    | (with_reducible apply State.updLink_keeps) | split)

theorem send_keeps {tch : List Field} {s0 : State} (p : Pkt) (s : State) (hs : Keeps tch s0 s)
    (hw : Within [.link, .hub] tch := by exact Within.of (by assumption) rfl) :
    Keeps tch s0 (send p s) := by
  unfold send
  try dsimp only
  repeat' (first
    | (with_reducible assumption) | exact hw.of rfl | (with_reducible apply sendWith_keeps) | split)

theorem drainWait_keeps {tch : List Field} {s0 : State} (port : Nat) (s : State) (hs : Keeps tch s0 s)
    (hw : Within [.link, .hub] tch := by exact Within.of (by assumption) rfl) :
    Keeps tch s0 (drainWait port s) := by
  exact foldl_keeps _ (fun s a h => sendWith_keeps _ _ _ h) _ _ (State.updLink_keeps _ _ _ hs)

theorem linkGo_keeps {tch : List Field} {s0 : State} (port : Nat) (s : State) (hs : Keeps tch s0 s)
    (hw : Within [.link, .hub] tch := by exact Within.of (by assumption) rfl) :
    Keeps tch s0 (linkGo port s) := by
  unfold linkGo
  try dsimp only
  repeat' (first
    | (with_reducible assumption) | exact hw.of rfl | (with_reducible apply pumpOut_keeps)
    | (with_reducible apply drainWait_keeps) | split)

theorem State.addOutst_keeps {tch : List Field} {s0 : State} (s : State) (o : Outst) (hs : Keeps tch s0 s)
    (hw : Within [.hub] tch := by exact Within.of (by assumption) rfl) :
    Keeps tch s0 (State.addOutst s o) := by
  unfold State.addOutst
  try dsimp only
  repeat' (first
    | (with_reducible assumption) | exact hw.of rfl | (with_reducible apply withHub_keeps) | split)

theorem State.dropOutst_keeps {tch : List Field} {s0 : State} (s : State) (src : Nat) (tid : Nat)
    (hs : Keeps tch s0 s)
    (hw : Within [.hub] tch := by exact Within.of (by assumption) rfl) :
    Keeps tch s0 (State.dropOutst s src tid) := by
  unfold State.dropOutst
  try dsimp only
  repeat' (first
    | (with_reducible assumption) | exact hw.of rfl | (with_reducible apply withHub_keeps) | split)

theorem issue_keeps {tch : List Field} {s0 : State} (p : Pkt) (use : Use) (s : State) (hs : Keeps tch s0 s)
    (hw : Within [.link, .hub] tch := by exact Within.of (by assumption) rfl) :
    Keeps tch s0 (issue p use s) := by
  unfold issue
  try dsimp only
  repeat' (first
    | (with_reducible assumption) | exact hw.of rfl | (with_reducible apply withHub_keeps)
    | (with_reducible apply State.addOutst_keeps) | (with_reducible apply hubSays_keeps)
    | (with_reducible apply send_keeps) | split)

theorem request_keeps {tch : List Field} {s0 : State} (p : Pkt) (use : Use) (s : State) (hs : Keeps tch s0 s)
    (hw : Within [.link, .hub] tch := by exact Within.of (by assumption) rfl) :
    Keeps tch s0 (request p use s) := by
  unfold request
  try dsimp only
  repeat' (first
    | (with_reducible assumption) | exact hw.of rfl | (with_reducible apply withHub_keeps)
    | (with_reducible apply issue_keeps) | split)

theorem boundGo_keeps {tch : List Field} {s0 : State} (src : Nat) (s : State) (hs : Keeps tch s0 s)
    (hw : Within [.link, .hub] tch := by exact Within.of (by assumption) rfl) :
    Keeps tch s0 (boundGo src s) := by
  unfold boundGo
  try dsimp only
  repeat' (first
    | (with_reducible assumption) | exact hw.of rfl | (with_reducible apply issue_keeps)
    | (with_reducible apply withHub_keeps) | split)

theorem boundAll_keeps {tch : List Field} {s0 : State} (src : Nat) (s : State) (hs : Keeps tch s0 s)
    (hw : Within [.link, .hub] tch := by exact Within.of (by assumption) rfl) :
    Keeps tch s0 (boundAll src s) := by
  unfold boundAll
  try dsimp only
  repeat' (first
    | (with_reducible assumption) | exact hw.of rfl | (with_reducible apply boundGo_keeps)
    | (with_reducible apply foldl_keeps) | split | (intro _; intros; try dsimp only))

theorem requestAt_keeps {tch : List Field} {s0 : State} (op : PktOp) (src : Nat) (addr : Nat)
    (poison : Bool) (payload : List Byte) (rdLen : Nat) (use : Use) (s : State) (hs : Keeps tch s0 s)
    (hw : Within [.link, .hub] tch := by exact Within.of (by assumption) rfl) :
    Keeps tch s0 (requestAt op src addr poison payload rdLen use s) := by
  unfold requestAt
  try dsimp only
  repeat' (first
    | (with_reducible assumption) | exact hw.of rfl | (with_reducible apply request_keeps) | split)

theorem leaveHub_keeps {tch : List Field} {s0 : State} (p : Pkt) (s : State) (hs : Keeps tch s0 s)
    (hw : Within [.link, .hub] tch := by exact Within.of (by assumption) rfl) :
    Keeps tch s0 (leaveHub p s) := by
  unfold leaveHub
  try dsimp only
  repeat' (first
    | (with_reducible assumption) | exact hw.of rfl | (with_reducible apply freeSlotOf_keeps)
    | (with_reducible apply withHub_keeps) | split)

theorem reach_keeps {tch : List Field} {s0 : State} (p : Pkt) (s : State) (hs : Keeps tch s0 s)
    (hw : Within [.link, .hub] tch := by exact Within.of (by assumption) rfl) :
    Keeps tch s0 (reach p s).1 := by
  unfold reach
  try dsimp only
  repeat' (first
    | (with_reducible assumption) | exact hw.of rfl | (with_reducible apply send_keeps)
    | (with_reducible apply leaveHub_keeps) | split)

theorem State.noteTid_keeps {tch : List Field} {s0 : State} (s : State) (dst : Nat) (src : Nat) (tid : Nat)
    (hs : Keeps tch s0 s)
    (hw : Within [.hub] tch := by exact Within.of (by assumption) rfl) :
    Keeps tch s0 (State.noteTid s dst src tid) := by
  unfold State.noteTid
  try dsimp only
  repeat' (first
    | (with_reducible assumption) | exact hw.of rfl | (with_reducible apply withHub_keeps) | split)

theorem State.noteReq_keeps {tch : List Field} {s0 : State} (s : State) (p : Pkt) (n : Nat)
    (hs : Keeps tch s0 s)
    (hw : Within [.hub] tch := by exact Within.of (by assumption) rfl) :
    Keeps tch s0 (State.noteReq s p n) := by
  unfold State.noteReq
  try dsimp only
  repeat' (first
    | (with_reducible assumption) | exact hw.of rfl | (with_reducible apply State.addOutst_keeps) | split)

theorem arriveReq_keeps {tch : List Field} {s0 : State} (p : Pkt) (k : State → State) (s : State)
    (hs : Keeps tch s0 s) (hk : ∀ u, Keeps tch s0 u → Keeps tch s0 (k u))
    (hw : Within [.link, .hub] tch := by exact Within.of (by assumption) rfl) :
    Keeps tch s0 (arriveReq p k s) := by
  unfold arriveReq
  try dsimp only
  repeat' (first
    | (with_reducible assumption) | exact hw.of rfl | (with_reducible apply leaveHub_keeps)
    | (with_reducible apply reach_keeps) | (with_reducible apply State.noteReq_keeps)
    | (with_reducible apply State.noteTid_keeps) | (with_reducible apply hk) | split
    | (intro _; intros; try dsimp only))

theorem respond_keeps {tch : List Field} {s0 : State} (op : PktOp) (p : Pkt) (addr : Nat) (poison : Bool)
    (payload : List Byte) (s : State) (hs : Keeps tch s0 s)
    (hw : Within [.link, .hub] tch := by exact Within.of (by assumption) rfl) :
    Keeps tch s0 (respond op p addr poison payload s) := by
  unfold respond
  try dsimp only
  repeat' (first
    | (with_reducible assumption) | exact hw.of rfl | (with_reducible apply send_keeps) | split)

theorem releaseOne_keeps {tch : List Field} {s0 : State} (n : Nat) (v : Word) (w : Waiter) (s : State)
    (hs : Keeps tch s0 s)
    (hw : Within [.link, .hub, .disp] tch := by exact Within.of (by assumption) rfl) :
    Keeps tch s0 (releaseOne n v w s) := by
  unfold releaseOne
  try dsimp only
  repeat' (first
    | (with_reducible assumption) | exact hw.of rfl | (with_reducible apply send_keeps)
    | (with_reducible apply withDisp_keeps) | split)

theorem releaseWaiters_keeps {tch : List Field} {s0 : State} (n : Nat) (s : State) (hs : Keeps tch s0 s)
    (hw : Within [.link, .hub, .sync, .disp] tch := by exact Within.of (by assumption) rfl) :
    Keeps tch s0 (releaseWaiters n s) := by
  unfold releaseWaiters
  try dsimp only
  repeat' (first
    | (with_reducible assumption) | exact hw.of rfl | (with_reducible apply State.updSync_keeps)
    | (with_reducible apply releaseOne_keeps) | (with_reducible apply foldl_keeps) | split
    | (intro _; intros; try dsimp only))

theorem syncCount_keeps {tch : List Field} {s0 : State} (n : Nat) (src : Nat) (s : State)
    (hs : Keeps tch s0 s)
    (hw : Within [.sync] tch := by exact Within.of (by assumption) rfl) :
    Keeps tch s0 (syncCount n src s) := by
  unfold syncCount
  try dsimp only
  repeat' (first
    | (with_reducible assumption) | exact hw.of rfl | (with_reducible apply State.updSync_keeps) | split)

theorem syncAddOp_keeps {tch : List Field} {s0 : State} (n : Nat) (src : Nat) (v : Word) (s : State)
    (hs : Keeps tch s0 s)
    (hw : Within [.link, .hub, .sync, .disp] tch := by exact Within.of (by assumption) rfl) :
    Keeps tch s0 (syncAddOp n src v s) := by
  unfold syncAddOp
  try dsimp only
  repeat' (first
    | (with_reducible assumption) | exact hw.of rfl | (with_reducible apply releaseWaiters_keeps)
    | (with_reducible apply State.updSync_keeps) | (with_reducible apply syncCount_keeps) | split)

theorem syncSetOp_keeps {tch : List Field} {s0 : State} (n : Nat) (src : Nat) (v : Word) (s : State)
    (hs : Keeps tch s0 s)
    (hw : Within [.link, .hub, .sync, .disp] tch := by exact Within.of (by assumption) rfl) :
    Keeps tch s0 (syncSetOp n src v s) := by
  unfold syncSetOp
  try dsimp only
  repeat' (first
    | (with_reducible assumption) | exact hw.of rfl | (with_reducible apply releaseWaiters_keeps)
    | (with_reducible apply State.updSync_keeps) | (with_reducible apply syncCount_keeps) | split)

theorem syncWaitOp_keeps {tch : List Field} {s0 : State} (n : Nat) (src : Nat) (w : Waiter) (s : State)
    (hs : Keeps tch s0 s)
    (hw : Within [.link, .hub, .sync, .disp] tch := by exact Within.of (by assumption) rfl) :
    Keeps tch s0 (syncWaitOp n src w s) := by
  unfold syncWaitOp
  try dsimp only
  repeat' (first
    | (with_reducible assumption) | exact hw.of rfl | (with_reducible apply syncCount_keeps)
    | (with_reducible apply releaseOne_keeps) | (with_reducible apply State.updSync_keeps) | split)

theorem syncArrive_keeps {tch : List Field} {s0 : State} (p : Pkt) (k : State → State) (s : State)
    (hs : Keeps tch s0 s) (hk : ∀ u, Keeps tch s0 u → Keeps tch s0 (k u))
    (hw : Within [.link, .hub] tch := by exact Within.of (by assumption) rfl) :
    Keeps tch s0 (syncArrive p k s) := by
  unfold syncArrive
  try dsimp only
  repeat' (first
    | (with_reducible assumption) | exact hw.of rfl | (with_reducible apply send_keeps)
    | (with_reducible apply State.noteReq_keeps) | (with_reducible apply arriveReq_keeps) | (with_reducible apply hk)
    | split | (intro _; intros; try dsimp only))

theorem syncAnswer_keeps {tch : List Field} {s0 : State} (op : PktOp) (src : Nat) (tid : Nat) (obj : Nat)
    (payload : List Byte) (s : State) (hs : Keeps tch s0 s)
    (hw : Within [.link, .hub] tch := by exact Within.of (by assumption) rfl) :
    Keeps tch s0 (syncAnswer op src tid obj payload s) := by
  unfold syncAnswer
  try dsimp only
  repeat' (first
    | (with_reducible assumption) | exact hw.of rfl | (with_reducible apply send_keeps) | split)

theorem syncAddServe_keeps {tch : List Field} {s0 : State} (src : Nat) (tid : Nat) (obj : Nat) (v : Word)
    (s : State) (hs : Keeps tch s0 s)
    (hw : Within [.link, .hub, .sync, .disp] tch := by exact Within.of (by assumption) rfl) :
    Keeps tch s0 (syncAddServe src tid obj v s) := by
  unfold syncAddServe
  try dsimp only
  repeat' (first
    | (with_reducible assumption) | exact hw.of rfl | (with_reducible apply syncAnswer_keeps)
    | (with_reducible apply syncAddOp_keeps) | split)

theorem syncSetServe_keeps {tch : List Field} {s0 : State} (src : Nat) (tid : Nat) (obj : Nat) (v : Word)
    (s : State) (hs : Keeps tch s0 s)
    (hw : Within [.link, .hub, .sync, .disp] tch := by exact Within.of (by assumption) rfl) :
    Keeps tch s0 (syncSetServe src tid obj v s) := by
  unfold syncSetServe
  try dsimp only
  repeat' (first
    | (with_reducible assumption) | exact hw.of rfl | (with_reducible apply syncAnswer_keeps)
    | (with_reducible apply syncSetOp_keeps) | split)

theorem execSyncAdd_keeps {tch : List Field} {s0 : State} (src : Nat) (tid : Nat) (obj : Nat) (v : Word)
    (s : State) (hs : Keeps tch s0 s)
    (hw : Within [.link, .hub, .sync, .disp] tch := by exact Within.of (by assumption) rfl) :
    OnNext (Keeps tch s0) (execSyncAdd src tid obj v s) := by
  unfold execSyncAdd
  try dsimp only
  repeat' (first
    | (with_reducible assumption) | exact hw.of rfl | (with_reducible apply syncArrive_keeps)
    | (with_reducible apply syncAddServe_keeps) | (with_reducible apply OnNext.next)
    | (with_reducible apply OnNext.fault) | split | (intro _; intros; try dsimp only))

theorem execSyncSet_keeps {tch : List Field} {s0 : State} (src : Nat) (tid : Nat) (obj : Nat) (v : Word)
    (s : State) (hs : Keeps tch s0 s)
    (hw : Within [.link, .hub, .sync, .disp] tch := by exact Within.of (by assumption) rfl) :
    OnNext (Keeps tch s0) (execSyncSet src tid obj v s) := by
  unfold execSyncSet
  try dsimp only
  repeat' (first
    | (with_reducible assumption) | exact hw.of rfl | (with_reducible apply syncArrive_keeps)
    | (with_reducible apply syncSetServe_keeps) | (with_reducible apply OnNext.next)
    | (with_reducible apply OnNext.fault) | split | (intro _; intros; try dsimp only))

theorem syncSendAdd_keeps {tch : List Field} {s0 : State} (src : Nat) (obj : Nat) (v : Word) (use : Use)
    (s : State) (hs : Keeps tch s0 s)
    (hw : Within [.link, .hub, .sync, .disp] tch := by exact Within.of (by assumption) rfl) :
    Keeps tch s0 (syncSendAdd src obj v use s) := by
  unfold syncSendAdd
  try dsimp only
  repeat' (first
    | (with_reducible assumption) | exact hw.of rfl | (with_reducible apply syncArrive_keeps)
    | (with_reducible apply syncAddServe_keeps) | (with_reducible apply request_keeps) | split
    | (intro _; intros; try dsimp only))

theorem syncSendSet_keeps {tch : List Field} {s0 : State} (src : Nat) (obj : Nat) (v : Word) (use : Use)
    (s : State) (hs : Keeps tch s0 s)
    (hw : Within [.link, .hub, .sync, .disp] tch := by exact Within.of (by assumption) rfl) :
    Keeps tch s0 (syncSendSet src obj v use s) := by
  unfold syncSendSet
  try dsimp only
  repeat' (first
    | (with_reducible assumption) | exact hw.of rfl | (with_reducible apply syncArrive_keeps)
    | (with_reducible apply syncSetServe_keeps) | (with_reducible apply request_keeps) | split
    | (intro _; intros; try dsimp only))

theorem execSyncWaitGe_keeps {tch : List Field} {s0 : State} (src : Nat) (tid : Nat) (obj : Nat) (v : Word)
    (s : State) (hs : Keeps tch s0 s)
    (hw : Within [.link, .hub, .sync, .disp] tch := by exact Within.of (by assumption) rfl) :
    OnNext (Keeps tch s0) (execSyncWaitGe src tid obj v s) := by
  unfold execSyncWaitGe
  try dsimp only
  repeat' (first
    | (with_reducible assumption) | exact hw.of rfl | (with_reducible apply syncArrive_keeps)
    | (with_reducible apply syncWaitOp_keeps) | (with_reducible apply OnNext.next)
    | (with_reducible apply OnNext.fault) | split | (intro _; intros; try dsimp only))

theorem execSyncWaitEq_keeps {tch : List Field} {s0 : State} (src : Nat) (tid : Nat) (obj : Nat) (v : Word)
    (s : State) (hs : Keeps tch s0 s)
    (hw : Within [.link, .hub, .sync, .disp] tch := by exact Within.of (by assumption) rfl) :
    OnNext (Keeps tch s0) (execSyncWaitEq src tid obj v s) := by
  unfold execSyncWaitEq
  try dsimp only
  repeat' (first
    | (with_reducible assumption) | exact hw.of rfl | (with_reducible apply syncArrive_keeps)
    | (with_reducible apply syncWaitOp_keeps) | (with_reducible apply OnNext.next)
    | (with_reducible apply OnNext.fault) | split | (intro _; intros; try dsimp only))

theorem syncInstrAnswered_keeps {tch : List Field} {s0 : State} (pos : Nat) (slot : Nat) (id : Nat)
    (s : State) (hs : Keeps tch s0 s)
    (hw : Within [.tile] tch := by exact Within.of (by assumption) rfl) :
    Keeps tch s0 (syncInstrAnswered pos slot id s) := by
  unfold syncInstrAnswered
  try dsimp only
  repeat' (first
    | (with_reducible assumption) | exact hw.of rfl | (with_reducible apply State.updTile_keeps) | split)

theorem execSyncWake_keeps {tch : List Field} {s0 : State} (dst : Nat) (tid : Nat) (v : Word) (s : State)
    (hs : Keeps tch s0 s)
    (hw : Within [.link, .hub, .tile] tch := by exact Within.of (by assumption) rfl) :
    OnNext (Keeps tch s0) (execSyncWake dst tid v s) := by
  unfold execSyncWake
  try dsimp only
  repeat' (first
    | (with_reducible assumption) | exact hw.of rfl | (with_reducible apply reach_keeps)
    | (with_reducible apply syncInstrAnswered_keeps) | (with_reducible apply boundGo_keeps)
    | (with_reducible apply State.dropOutst_keeps) | (with_reducible apply OnNext.next)
    | (with_reducible apply OnNext.fault) | split)

theorem execSyncRead_keeps {tch : List Field} {s0 : State} (src : Nat) (tid : Nat) (obj : Nat) (fn : Nat)
    (s : State) (hs : Keeps tch s0 s)
    (hw : Within [.link, .hub, .sync] tch := by exact Within.of (by assumption) rfl) :
    OnNext (Keeps tch s0) (execSyncRead src tid obj fn s) := by
  unfold execSyncRead
  try dsimp only
  repeat' (first
    | (with_reducible assumption) | exact hw.of rfl | (with_reducible apply syncArrive_keeps)
    | (with_reducible apply syncAnswer_keeps) | (with_reducible apply syncCount_keeps)
    | (with_reducible apply OnNext.next) | (with_reducible apply OnNext.fault) | split
    | (intro _; intros; try dsimp only))

theorem execSyncValueWrite_keeps {tch : List Field} {s0 : State} (who : Agent) (obj : Nat) (v : Word)
    (s : State) (hs : Keeps tch s0 s)
    (hw : Within [.link, .hub, .hfifo, .msix, .sync, .cdie, .hif,
    .disp] tch := by exact Within.of (by assumption) rfl) :
    OnNext (Keeps tch s0) (execSyncValueWrite who obj v s) := by
  unfold execSyncValueWrite
  try dsimp only
  repeat' (first
    | (with_reducible assumption) | exact hw.of rfl | (with_reducible apply syncSendSet_keeps)
    | (with_reducible apply setupRefused_keeps) | (with_reducible apply OnNext.next)
    | (with_reducible apply OnNext.fault) | split)

theorem execAmoaddD_keeps {tch : List Field} {s0 : State} (core : Nat) (obj : Nat) (v : Word) (s : State)
    (hs : Keeps tch s0 s)
    (hw : Within [.link, .hub, .sync, .disp] tch := by exact Within.of (by assumption) rfl) :
    OnNext (Keeps tch s0) (execAmoaddD core obj v s) := by
  unfold execAmoaddD
  try dsimp only
  repeat' (first
    | (with_reducible assumption) | exact hw.of rfl | (with_reducible apply syncSendAdd_keeps)
    | (with_reducible apply OnNext.next) | (with_reducible apply OnNext.fault) | split)

theorem execCoreSyncBadAccess_keeps {tch : List Field} {s0 : State} (core : Nat) (addr : Nat)
    (kind : AccKind) (s : State) (hs : Keeps tch s0 s)
    (hw : Within [.core] tch := by exact Within.of (by assumption) rfl) :
    OnNext (Keeps tch s0) (execCoreSyncBadAccess core addr kind s) := by
  unfold execCoreSyncBadAccess
  try dsimp only
  repeat' (first
    | (with_reducible assumption) | exact hw.of rfl | (with_reducible apply coreTrap_keeps)
    | (with_reducible apply OnNext.next) | (with_reducible apply OnNext.fault) | split)

theorem execSyncStatRead_keeps {tch : List Field} {s0 : State} (who : Agent) (obj : Nat) (s : State)
    (hs : Keeps tch s0 s)
    (hw : Within [.sync, .replies] tch := by exact Within.of (by assumption) rfl) :
    OnNext (Keeps tch s0) (execSyncStatRead who obj s) := by
  unfold execSyncStatRead
  try dsimp only
  repeat' (first
    | (with_reducible assumption) | exact hw.of rfl | (with_reducible apply State.updSync_keeps)
    | (with_reducible apply reply_keeps) | (with_reducible apply shutRead_keeps) | (with_reducible apply OnNext.next)
    | (with_reducible apply OnNext.fault) | split)

theorem State.updHome_keeps {tch : List Field} {s0 : State} (s : State) (h : Nat) (f : HomeSt → HomeSt)
    (hs : Keeps tch s0 s)
    (hw : Within [.stack, .pool] tch := by exact Within.of (by assumption) rfl) :
    Keeps tch s0 (State.updHome s h f) := by
  unfold State.updHome
  try dsimp only
  repeat' (first
    | (with_reducible assumption) | exact hw.of rfl | (with_reducible apply State.updStack_keeps)
    | (with_reducible apply State.updPool_keeps) | split)

theorem homeRow_keeps {tch : List Field} {s0 : State} (p : Pkt) (k : State → State) (s : State)
    (hs : Keeps tch s0 s) (hk : ∀ u, Keeps tch s0 u → Keeps tch s0 (k u))
    (hw : Within [.link, .hub, .stack, .pool] tch := by exact Within.of (by assumption) rfl) :
    Keeps tch s0 (homeRow p k s) := by
  unfold homeRow
  try dsimp only
  repeat' (first
    | (with_reducible assumption) | exact hw.of rfl | (with_reducible apply send_keeps)
    | (with_reducible apply State.noteReq_keeps) | (with_reducible apply arriveReq_keeps)
    | (with_reducible apply State.updHome_keeps) | (with_reducible apply hk) | split
    | (intro _; intros; try dsimp only))

theorem releaseLine_keeps {tch : List Field} {s0 : State} (h : Nat) (n : Nat) (s : State)
    (hs : Keeps tch s0 s)
    (hw : Within [.pool] tch := by exact Within.of (by assumption) rfl) :
    Keeps tch s0 (releaseLine h n s) := by
  unfold releaseLine
  try dsimp only
  repeat' (first
    | (with_reducible assumption) | exact hw.of rfl | (with_reducible apply State.updPool_keeps) | split)

theorem refuse_keeps {tch : List Field} {s0 : State} (p : Pkt) (reason : Nat) (s : State)
    (hs : Keeps tch s0 s)
    (hw : Within [.link, .hub] tch := by exact Within.of (by assumption) rfl) :
    Keeps tch s0 (refuse p reason s) := by
  unfold refuse
  try dsimp only
  repeat' (first
    | (with_reducible assumption) | exact hw.of rfl | (with_reducible apply send_keeps) | split)

theorem refuseErr_keeps {tch : List Field} {s0 : State} (p : Pkt) (reason : Nat) (s : State)
    (hs : Keeps tch s0 s)
    (hw : Within [.link, .hub] tch := by exact Within.of (by assumption) rfl) :
    Keeps tch s0 (refuseErr p reason s) := by
  unfold refuseErr
  try dsimp only
  repeat' (first
    | (with_reducible assumption) | exact hw.of rfl | (with_reducible apply send_keeps) | split)

theorem refuseAs_keeps {tch : List Field} {s0 : State} (port : Nat) (p : Pkt) (reason : Nat) (s : State)
    (hs : Keeps tch s0 s)
    (hw : Within [.link, .hub] tch := by exact Within.of (by assumption) rfl) :
    Keeps tch s0 (refuseAs port p reason s) := by
  unfold refuseAs
  try dsimp only
  repeat' (first
    | (with_reducible assumption) | exact hw.of rfl | (with_reducible apply hubSays_keeps) | split)

theorem redirect_keeps {tch : List Field} {s0 : State} (p : Pkt) (s : State) (hs : Keeps tch s0 s)
    (hw : Within [.link, .hub] tch := by exact Within.of (by assumption) rfl) :
    Keeps tch s0 (redirect p s) := by
  unfold redirect
  try dsimp only
  repeat' (first
    | (with_reducible assumption) | exact hw.of rfl | (with_reducible apply refuseErr_keeps)
    | (with_reducible apply hubTake_keeps) | (with_reducible apply send_keeps) | split)

theorem refuseHome_keeps {tch : List Field} {s0 : State} (p : Pkt) (reason : Nat) (s : State)
    (hs : Keeps tch s0 s)
    (hw : Within [.link, .hub] tch := by exact Within.of (by assumption) rfl) :
    Keeps tch s0 (refuseHome p reason s) := by
  unfold refuseHome
  try dsimp only
  repeat' (first
    | (with_reducible assumption) | exact hw.of rfl | (with_reducible apply refuseAs_keeps)
    | (with_reducible apply refuse_keeps) | (with_reducible apply send_keeps)
    | (with_reducible apply refuseErr_keeps) | split)

theorem poolUncorr_keeps {tch : List Field} {s0 : State} (d : Nat) (s : State) (hs : Keeps tch s0 s)
    (hw : Within [.pool] tch := by exact Within.of (by assumption) rfl) :
    Keeps tch s0 (poolUncorr d s) := by
  unfold poolUncorr
  try dsimp only
  repeat' (first
    | (with_reducible assumption) | exact hw.of rfl | (with_reducible apply State.updPool_keeps) | split)

theorem uncorrectable_keeps {tch : List Field} {s0 : State} (h : Nat) (a : Nat) (n : Nat) (s : State)
    (hs : Keeps tch s0 s)
    (hw : Within [.hfifo, .msix, .mem, .stack, .pool, .cdie, .hif] tch := by exact Within.of (by assumption) rfl) :
    Keeps tch s0 (uncorrectable h a n s) := by
  unfold uncorrectable
  try dsimp only
  repeat' (first
    | (with_reducible assumption) | exact hw.of rfl | (with_reducible apply withMem_keeps)
    | (with_reducible apply post_keeps) | (with_reducible apply State.updStack_keeps)
    | (with_reducible apply poolUncorr_keeps) | (with_reducible apply RamOk.rfl')
    | (with_reducible apply RamOk_empty) | (with_reducible apply RamOk_setPoison)
    | (with_reducible apply RamOk_fixCk) | split | (intro _; intros; try dsimp only))

theorem readCodes_keeps {tch : List Field} {s0 : State} (h : Nat) (e : DramErr) (secs : List Nat)
    (s : State) (hs : Keeps tch s0 s)
    (hw : Within [.hfifo, .msix, .mem, .stack, .pool, .cdie, .hif] tch := by exact Within.of (by assumption) rfl) :
    Keeps tch s0 (readCodes h e secs s) := by
  unfold readCodes
  try dsimp only
  repeat' (first
    | (with_reducible assumption) | exact hw.of rfl | (with_reducible apply State.updStack_keeps)
    | (with_reducible apply uncorrectable_keeps) | (with_reducible apply foldl_keeps) | split
    | (intro _; intros; try dsimp only))

theorem touchFrame_keeps {tch : List Field} {s0 : State} (a : Nat) (write : Bool) (s : State)
    (hs : Keeps tch s0 s)
    (hw : Within [.tier] tch := by exact Within.of (by assumption) rfl) :
    Keeps tch s0 (touchFrame a write s) := by
  unfold touchFrame
  try dsimp only
  repeat' (first
    | (with_reducible assumption) | exact hw.of rfl | (with_reducible apply withTier_keeps) | split)

theorem ackWrite_keeps {tch : List Field} {s0 : State} (a : Nat) (ans : Pkt) (s : State) (hs : Keeps tch s0 s)
    (hw : Within [.link, .hub, .tier] tch := by exact Within.of (by assumption) rfl) :
    Keeps tch s0 (ackWrite a ans s) := by
  unfold ackWrite
  try dsimp only
  repeat' (first
    | (with_reducible assumption) | exact hw.of rfl | (with_reducible apply send_keeps)
    | (with_reducible apply withTier_keeps) | split)

theorem notifyRings_keeps {tch : List Field} {s0 : State} (secs : List Nat) (s : State) (hs : Keeps tch s0 s)
    (hw : Within [.disp] tch := by exact Within.of (by assumption) rfl) :
    Keeps tch s0 (notifyRings secs s) := by
  unfold notifyRings
  try dsimp only
  repeat' (first
    | (with_reducible assumption) | exact hw.of rfl | (with_reducible apply State.updRing_keeps)
    | (with_reducible apply foldl_keeps) | split | (intro _; intros; try dsimp only))

theorem bufferWrite_keeps {tch : List Field} {s0 : State} (h : Nat) (n : Nat) (s : State)
    (hs : Keeps tch s0 s)
    (hw : Within [.stack] tch := by exact Within.of (by assumption) rfl) :
    Keeps tch s0 (bufferWrite h n s) := by
  unfold bufferWrite
  try dsimp only
  repeat' (first
    | (with_reducible assumption) | exact hw.of rfl | (with_reducible apply State.updStack_keeps) | split)

theorem drainBuffers_keeps {tch : List Field} {s0 : State} (s : State) (hs : Keeps tch s0 s)
    (hw : Within [.stack] tch := by exact Within.of (by assumption) rfl) :
    Keeps tch s0 (drainBuffers s) := by
  unfold drainBuffers
  try dsimp only
  repeat' (first
    | (with_reducible assumption) | exact hw.of rfl | (with_reducible apply State.updStack_keeps)
    | (with_reducible apply foldl_keeps) | split | (intro _; intros; try dsimp only))

theorem doRead_keeps {tch : List Field} {s0 : State} (h : Nat) (p : Pkt) (e : DramErr) (s : State)
    (hs : Keeps tch s0 s)
    (hw : Within [.link, .hub, .hfifo, .msix, .mem, .stack, .pool, .tier, .cdie,
    .hif] tch := by exact Within.of (by assumption) rfl) :
    Keeps tch s0 (doRead h p e s) := by
  unfold doRead
  try dsimp only
  repeat' (first
    | (with_reducible assumption) | exact hw.of rfl | (with_reducible apply touchFrame_keeps)
    | (with_reducible apply readCodes_keeps) | (with_reducible apply respond_keeps) | split)

theorem doWrite_keeps {tch : List Field} {s0 : State} (h : Nat) (p : Pkt) (s : State) (hs : Keeps tch s0 s)
    (hw : Within [.link, .hub, .mem, .stack, .tier, .disp] tch := by exact Within.of (by assumption) rfl) :
    Keeps tch s0 (doWrite h p s) := by
  unfold doWrite
  try dsimp only
  repeat' (first
    | (with_reducible assumption) | exact hw.of rfl | (with_reducible apply withMem_keeps)
    | (with_reducible apply bufferWrite_keeps) | (with_reducible apply touchFrame_keeps)
    | (with_reducible apply ackWrite_keeps) | (with_reducible apply notifyRings_keeps)
    | (with_reducible apply foldl_keeps) | (with_reducible apply RamOk.rfl') | (with_reducible apply RamOk_empty)
    | (with_reducible apply RamOk_writeSectors) | split | (intro _; intros; try dsimp only))

theorem doMasked_keeps {tch : List Field} {s0 : State} (h : Nat) (p : Pkt) (e : DramErr) (s : State)
    (hs : Keeps tch s0 s)
    (hw : Within [.link, .hub, .hfifo, .msix, .mem, .stack, .pool, .tier, .cdie, .hif,
    .disp] tch := by exact Within.of (by assumption) rfl) :
    Keeps tch s0 (doMasked h p e s) := by
  unfold doMasked
  try dsimp only
  repeat' (first
    | (with_reducible assumption) | exact hw.of rfl | (with_reducible apply uncorrectable_keeps)
    | (with_reducible apply readCodes_keeps) | (with_reducible apply evCheckword_keeps)
    | (with_reducible apply poolUncorr_keeps) | (with_reducible apply withMem_keeps)
    | (with_reducible apply touchFrame_keeps) | (with_reducible apply bufferWrite_keeps)
    | (with_reducible apply ackWrite_keeps) | (with_reducible apply notifyRings_keeps)
    | (with_reducible apply RamOk.rfl') | (with_reducible apply RamOk_empty)
    | (with_reducible apply RamOk_writeMasked) | split | (intro _; intros; try dsimp only))

theorem doAtomic_keeps {tch : List Field} {s0 : State} (h : Nat) (p : Pkt) (e : DramErr) (s : State)
    (hs : Keeps tch s0 s)
    (hw : Within [.link, .hub, .hfifo, .msix, .mem, .stack, .pool, .tier, .cdie,
    .hif] tch := by exact Within.of (by assumption) rfl) :
    Keeps tch s0 (doAtomic h p e s) := by
  unfold doAtomic
  try dsimp only
  repeat' (first
    | (with_reducible assumption) | exact hw.of rfl | (with_reducible apply refuseErr_keeps)
    | (with_reducible apply readCodes_keeps) | (with_reducible apply bufferWrite_keeps)
    | (with_reducible apply touchFrame_keeps) | (with_reducible apply withMem_keeps)
    | (with_reducible apply ackWrite_keeps) | (with_reducible apply RamOk.rfl') | (with_reducible apply RamOk_empty)
    | (with_reducible apply RamOk_merge) | split | (intro _; intros; try dsimp only))

theorem sendPieces_keeps {tch : List Field} {s0 : State} (p : Pkt) (l : List RowPiece) (s : State)
    (hs : Keeps tch s0 s)
    (hw : Within [.link, .hub] tch := by exact Within.of (by assumption) rfl) :
    Keeps tch s0 (sendPieces p l s) := by
  unfold sendPieces
  try dsimp only
  repeat' (first
    | (with_reducible assumption) | exact hw.of rfl | (with_reducible apply respond_keeps)
    | (with_reducible apply foldl_keeps) | split | (intro _; intros; try dsimp only))

theorem doGather_keeps {tch : List Field} {s0 : State} (h : Nat) (p : Pkt) (e : DramErr) (s : State)
    (hs : Keeps tch s0 s)
    (hw : Within [.link, .hub, .hfifo, .msix, .mem, .stack, .pool, .tier, .cdie,
    .hif] tch := by exact Within.of (by assumption) rfl) :
    Keeps tch s0 (doGather h p e s) := by
  unfold doGather
  try dsimp only
  repeat' (first
    | (with_reducible assumption) | exact hw.of rfl | (with_reducible apply readCodes_keeps)
    | (with_reducible apply touchFrame_keeps) | (with_reducible apply sendPieces_keeps)
    | (with_reducible apply foldl_keeps) | split | (intro _; intros; try dsimp only))

theorem doScatter_keeps {tch : List Field} {s0 : State} (h : Nat) (p : Pkt) (e : DramErr) (s : State)
    (hs : Keeps tch s0 s)
    (hw : Within [.link, .hub, .hfifo, .msix, .mem, .stack, .pool, .tier, .cdie,
    .hif] tch := by exact Within.of (by assumption) rfl) :
    Keeps tch s0 (doScatter h p e s) := by
  unfold doScatter
  try dsimp only
  repeat' (first
    | (with_reducible assumption) | exact hw.of rfl | (with_reducible apply refuseErr_keeps)
    | (with_reducible apply readCodes_keeps) | (with_reducible apply bufferWrite_keeps)
    | (with_reducible apply touchFrame_keeps) | (with_reducible apply withMem_keeps)
    | (with_reducible apply ackWrite_keeps) | (with_reducible apply foldl_keeps) | (with_reducible apply RamOk.rfl')
    | (with_reducible apply RamOk_empty) | (with_reducible apply RamOk_poisonRange)
    | (with_reducible apply RamOk_merge) | split | (intro _; intros; try dsimp only))

theorem performAccess_keeps {tch : List Field} {s0 : State} (h : Nat) (p : Pkt) (e : DramErr) (s : State)
    (hs : Keeps tch s0 s)
    (hw : Within [.link, .hub, .hfifo, .msix, .mem, .stack, .pool, .tier, .cdie, .hif,
    .disp] tch := by exact Within.of (by assumption) rfl) :
    Keeps tch s0 (performAccess h p e s) := by
  unfold performAccess
  try dsimp only
  repeat' (first
    | (with_reducible assumption) | exact hw.of rfl | (with_reducible apply doRead_keeps)
    | (with_reducible apply doWrite_keeps) | (with_reducible apply doMasked_keeps)
    | (with_reducible apply doAtomic_keeps) | (with_reducible apply doGather_keeps)
    | (with_reducible apply doScatter_keeps) | (with_reducible apply refuseErr_keeps) | split)

theorem snoop_keeps {tch : List Field} {s0 : State} (h : Nat) (msg : Nat) (n : Nat) (die : Nat) (port : Nat)
    (tid : Nat) (s : State) (hs : Keeps tch s0 s)
    (hw : Within [.link, .hub] tch := by exact Within.of (by assumption) rfl) :
    Keeps tch s0 (snoop h msg n die port tid s) := by
  unfold snoop
  try dsimp only
  repeat' (first
    | (with_reducible assumption) | exact hw.of rfl | (with_reducible apply request_keeps) | split)

theorem startTxn_keeps {tch : List Field} {s0 : State} (h : Nat) (secs : List Nat) (snoops : List
    (Nat × Nat × Nat)) (job : HomeJob) (port : Nat) (tid : Nat) (s : State) (hs : Keeps tch s0 s)
    (hw : Within [.link, .hub, .stack, .pool] tch := by exact Within.of (by assumption) rfl) :
    Keeps tch s0 (startTxn h secs snoops job port tid s) := by
  unfold startTxn
  try dsimp only
  repeat' (first
    | (with_reducible assumption) | exact hw.of rfl | (with_reducible apply snoop_keeps)
    | (with_reducible apply State.updHome_keeps) | (with_reducible apply foldl_keeps) | split
    | (intro _; intros; try dsimp only))

theorem writeBackEnds_keeps {tch : List Field} {s0 : State} (h : Nat) (p : Pkt) (s : State)
    (hs : Keeps tch s0 s)
    (hw : Within [.stack, .pool, .cdie] tch := by exact Within.of (by assumption) rfl) :
    Keeps tch s0 (writeBackEnds h p s) := by
  unfold writeBackEnds
  try dsimp only
  repeat' (first
    | (with_reducible assumption) | exact hw.of rfl | (with_reducible apply State.updCdie_keeps)
    | (with_reducible apply State.updHome_keeps) | (with_reducible apply foldl_keeps) | split
    | (intro _; intros; try dsimp only))

theorem homeStart_keeps {tch : List Field} {s0 : State} (h : Nat) (p : Pkt) (e : DramErr) (s : State)
    (hs : Keeps tch s0 s)
    (hw : Within [.link, .hub, .hfifo, .msix, .mem, .stack, .pool, .tier, .cdie, .hif,
    .disp] tch := by exact Within.of (by assumption) rfl) :
    Keeps tch s0 (homeStart h p e s) := by
  unfold homeStart
  try dsimp only
  repeat' (first
    | (with_reducible assumption) | exact hw.of rfl | (with_reducible apply refuseHome_keeps)
    | (with_reducible apply respond_keeps) | (with_reducible apply releaseLine_keeps)
    | (with_reducible apply performAccess_keeps) | (with_reducible apply writeBackEnds_keeps)
    | (with_reducible apply State.updHome_keeps) | (with_reducible apply startTxn_keeps)
    | (with_reducible apply foldl_keeps) | split | (intro _; intros; try dsimp only))

theorem grant_keeps {tch : List Field} {s0 : State} (h : Nat) (p : Pkt) (e : DramErr) (code : Nat)
    (data : Bool) (s : State) (hs : Keeps tch s0 s)
    (hw : Within [.link, .hub, .hfifo, .msix, .mem, .stack, .pool, .tier, .cdie,
    .hif] tch := by exact Within.of (by assumption) rfl) :
    Keeps tch s0 (grant h p e code data s) := by
  unfold grant
  try dsimp only
  repeat' (first
    | (with_reducible assumption) | exact hw.of rfl | (with_reducible apply touchFrame_keeps)
    | (with_reducible apply readCodes_keeps) | (with_reducible apply send_keeps) | split)

theorem finishCoh_keeps {tch : List Field} {s0 : State} (h : Nat) (p : Pkt) (e : DramErr) (s : State)
    (hs : Keeps tch s0 s)
    (hw : Within [.link, .hub, .hfifo, .msix, .mem, .stack, .pool, .tier, .cdie,
    .hif] tch := by exact Within.of (by assumption) rfl) :
    Keeps tch s0 (finishCoh h p e s) := by
  unfold finishCoh
  try dsimp only
  repeat' (first
    | (with_reducible assumption) | exact hw.of rfl | (with_reducible apply State.updHome_keeps)
    | (with_reducible apply grant_keeps) | split)

theorem cohStart_keeps {tch : List Field} {s0 : State} (h : Nat) (p : Pkt) (e : DramErr) (s : State)
    (hs : Keeps tch s0 s)
    (hw : Within [.link, .hub, .hfifo, .msix, .mem, .stack, .pool, .tier, .cdie,
    .hif] tch := by exact Within.of (by assumption) rfl) :
    Keeps tch s0 (cohStart h p e s) := by
  unfold cohStart
  try dsimp only
  repeat' (first
    | (with_reducible assumption) | exact hw.of rfl | (with_reducible apply refuseHome_keeps)
    | (with_reducible apply refuseErr_keeps) | (with_reducible apply releaseLine_keeps)
    | (with_reducible apply send_keeps) | (with_reducible apply State.updHome_keeps)
    | (with_reducible apply startTxn_keeps) | (with_reducible apply finishCoh_keeps) | split)

theorem cohRetry_keeps {tch : List Field} {s0 : State} (h : Nat) (p : Pkt) (s : State) (hs : Keeps tch s0 s)
    (hw : Within [.link, .hub, .stack, .pool] tch := by exact Within.of (by assumption) rfl) :
    Keeps tch s0 (cohRetry h p s) := by
  unfold cohRetry
  try dsimp only
  repeat' (first
    | (with_reducible assumption) | exact hw.of rfl | (with_reducible apply send_keeps)
    | (with_reducible apply State.updHome_keeps) | split)

theorem cohArrive_keeps {tch : List Field} {s0 : State} (h : Nat) (p : Pkt) (e : DramErr) (s : State)
    (hs : Keeps tch s0 s)
    (hw : Within [.link, .hub, .hfifo, .msix, .mem, .stack, .pool, .tier, .cdie,
    .hif] tch := by exact Within.of (by assumption) rfl) :
    Keeps tch s0 (cohArrive h p e s) := by
  unfold cohArrive
  try dsimp only
  repeat' (first
    | (with_reducible assumption) | exact hw.of rfl | (with_reducible apply cohRetry_keeps)
    | (with_reducible apply State.updHome_keeps) | (with_reducible apply cohStart_keeps) | split)

theorem serveQueue_keeps {tch : List Field} {s0 : State} (z1 : Nat) (z2 : Nat) (z3 : State)
    (hs : Keeps tch s0 z3)
    (hw : Within [.link, .hub, .hfifo, .msix, .mem, .stack, .pool, .tier, .cdie, .hif,
    .disp] tch := by exact Within.of (by assumption) rfl) :
    Keeps tch s0 (serveQueue z1 z2 z3) := by
  induction z1 generalizing z2 z3 with
  | zero => exact hs
  | succ n ih =>
    unfold serveQueue
    dsimp only
    repeat' (first
      | (with_reducible refine ih _ _ ?_)
      | (with_reducible assumption)
      | exact hw.of rfl
      | exact rfl
      | exact Nat.le_refl _
      | exact Nat.le_succ _
      | (with_reducible apply cohStart_keeps)
      | (with_reducible apply homeStart_keeps)
      | (with_reducible apply State.updHome_keeps)
      | split
      | (intro _; intros; try dsimp only))

theorem endTxn_keeps {tch : List Field} {s0 : State} (h : Nat) (t : Txn) (served : Bool) (s : State)
    (hs : Keeps tch s0 s)
    (hw : Within [.link, .hub, .hfifo, .msix, .mem, .stack, .pool, .tier, .cdie, .hif,
    .disp] tch := by exact Within.of (by assumption) rfl) :
    Keeps tch s0 (endTxn h t served s) := by
  unfold endTxn
  try dsimp only
  repeat' (first
    | (with_reducible assumption) | exact hw.of rfl | (with_reducible apply State.updHome_keeps)
    | (with_reducible apply performAccess_keeps) | (with_reducible apply finishCoh_keeps)
    | (with_reducible apply cohStart_keeps) | (with_reducible apply State.dropOutst_keeps)
    | (with_reducible apply serveQueue_keeps) | (with_reducible apply releaseLine_keeps)
    | (with_reducible apply foldl_keeps) | split | (intro _; intros; try dsimp only))

theorem snoopAnswered_keeps {tch : List Field} {s0 : State} (h : Nat) (a : Nat) (die : Nat) (data : Option
    (List Byte × Bool)) (served : Bool) (s : State) (hs : Keeps tch s0 s)
    (hw : Within [.link, .hub, .hfifo, .msix, .mem, .stack, .pool, .tier, .cdie, .hif,
    .disp] tch := by exact Within.of (by assumption) rfl) :
    Keeps tch s0 (snoopAnswered h a die data served s) := by
  unfold snoopAnswered
  try dsimp only
  repeat' (first
    | (with_reducible assumption) | exact hw.of rfl | (with_reducible apply bufferWrite_keeps)
    | (with_reducible apply touchFrame_keeps) | (with_reducible apply withMem_keeps)
    | (with_reducible apply State.updHome_keeps) | (with_reducible apply endTxn_keeps)
    | (with_reducible apply RamOk.rfl') | (with_reducible apply RamOk_empty)
    | (with_reducible apply RamOk_writeSector) | split | (intro _; intros; try dsimp only))

theorem setVolt_keeps {tch : List Field} {s0 : State} (p : Nat) (v : Nat) (s : State) (hs : Keeps tch s0 s)
    (hw : Within [.pwr] tch := by exact Within.of (by assumption) rfl) :
    Keeps tch s0 (setVolt p v s) := by
  unfold setVolt
  try dsimp only
  repeat' (first
    | (with_reducible assumption) | exact hw.of rfl | (with_reducible apply withPwr_keeps) | split)

theorem qualVolt_keeps {tch : List Field} {s0 : State} (p : Nat) (s : State) (hs : Keeps tch s0 s)
    (hw : Within [.pwr] tch := by exact Within.of (by assumption) rfl) :
    Keeps tch s0 (qualVolt p s) := by
  unfold qualVolt
  try dsimp only
  repeat' (first
    | (with_reducible assumption) | exact hw.of rfl | (with_reducible apply setVolt_keeps) | split)

theorem runVolt_keeps {tch : List Field} {s0 : State} (p : Nat) (s : State) (hs : Keeps tch s0 s)
    (hw : Within [.pwr] tch := by exact Within.of (by assumption) rfl) :
    Keeps tch s0 (runVolt p s) := by
  unfold runVolt
  try dsimp only
  repeat' (first
    | (with_reducible assumption) | exact hw.of rfl | (with_reducible apply setVolt_keeps)
    | (with_reducible apply qualVolt_keeps) | split)

theorem storeSector_keeps {tch : List Field} {s0 : State} (n : Nat) (data : List Byte) (ck : Option
    (BitVec 32)) (poison : Bool) (s : State) (hs : Keeps tch s0 s)
    (hw : Within [.mem, .stack, .tier] tch := by exact Within.of (by assumption) rfl) :
    Keeps tch s0 (storeSector n data ck poison s) := by
  unfold storeSector
  try dsimp only
  repeat' (first
    | (with_reducible assumption) | exact hw.of rfl | (with_reducible apply withTier_keeps)
    | (with_reducible apply bufferWrite_keeps) | (with_reducible apply withMem_keeps)
    | (with_reducible apply RamOk.rfl') | (with_reducible apply RamOk_empty)
    | (with_reducible apply RamOk_writeSector) | split | (intro _; intros; try dsimp only))

theorem clearMark_keeps {tch : List Field} {s0 : State} (d : Nat) (u : Nat) (s : State) (hs : Keeps tch s0 s)
    (hw : Within [.stack, .pool] tch := by exact Within.of (by assumption) rfl) :
    Keeps tch s0 (clearMark d u s) := by
  unfold clearMark
  try dsimp only
  repeat' (first
    | (with_reducible assumption) | exact hw.of rfl | (with_reducible apply State.updStack_keeps)
    | (with_reducible apply State.updPool_keeps) | split)

theorem dropCopies_keeps {tch : List Field} {s0 : State} (n : Nat) (s : State) (hs : Keeps tch s0 s)
    (hw : Within [.stack, .pool, .cdie] tch := by exact Within.of (by assumption) rfl) :
    Keeps tch s0 (dropCopies n s) := by
  unfold dropCopies
  try dsimp only
  repeat' (first
    | (with_reducible assumption) | exact hw.of rfl | (with_reducible apply State.updCdie_keeps)
    | (with_reducible apply State.updHome_keeps) | (with_reducible apply releaseLine_keeps)
    | (with_reducible apply clearMark_keeps) | (with_reducible apply State.updPool_keeps)
    | (with_reducible apply foldl_keeps) | split | (intro _; intros; try dsimp only))

theorem serveReads_keeps {tch : List Field} {s0 : State} (a : Nat) (n : Nat) (s : State) (hs : Keeps tch s0 s)
    (hw : Within [.hfifo, .msix, .mem, .stack, .pool, .cdie, .hif] tch := by exact Within.of (by assumption) rfl) :
    Keeps tch s0 (serveReads a n s) := by
  unfold serveReads
  try dsimp only
  repeat' (first
    | (with_reducible assumption) | exact hw.of rfl | (with_reducible apply readCodes_keeps)
    | (with_reducible apply foldl_keeps) | split | (intro _; intros; try dsimp only))

theorem cohWrite_keeps {tch : List Field} {s0 : State} (a : Nat) (bs : List Byte) (s : State)
    (hs : Keeps tch s0 s)
    (hw : Within [.hfifo, .msix, .mem, .stack, .pool, .tier, .cdie, .hif,
    .disp] tch := by exact Within.of (by assumption) rfl) :
    Keeps tch s0 (cohWrite a bs s) := by
  unfold cohWrite
  try dsimp only
  repeat' (first
    | (with_reducible assumption) | exact hw.of rfl | (with_reducible apply evCheckword_keeps)
    | (with_reducible apply touchFrame_keeps) | (with_reducible apply dropCopies_keeps)
    | (with_reducible apply storeSector_keeps) | (with_reducible apply notifyRings_keeps)
    | (with_reducible apply foldl_keeps) | split | (intro _; intros; try dsimp only))

theorem cohPoisonRange_keeps {tch : List Field} {s0 : State} (a : Nat) (n : Nat) (s : State)
    (hs : Keeps tch s0 s)
    (hw : Within [.mem, .stack, .pool, .tier, .cdie] tch := by exact Within.of (by assumption) rfl) :
    Keeps tch s0 (cohPoisonRange a n s) := by
  unfold cohPoisonRange
  try dsimp only
  repeat' (first
    | (with_reducible assumption) | exact hw.of rfl | (with_reducible apply storeSector_keeps)
    | (with_reducible apply dropCopies_keeps) | (with_reducible apply foldl_keeps) | split
    | (intro _; intros; try dsimp only))

theorem State.updCmd_keeps {tch : List Field} {s0 : State} (s : State) (ring : Nat) (seq : Nat)
    (f : Cmd → Cmd) (hs : Keeps tch s0 s)
    (hw : Within [.disp] tch := by exact Within.of (by assumption) rfl) :
    Keeps tch s0 (State.updCmd s ring seq f) := by
  unfold State.updCmd
  try dsimp only
  repeat' (first
    | (with_reducible assumption) | exact hw.of rfl | (with_reducible apply withDisp_keeps) | split)

theorem forgetSlot_keeps {tch : List Field} {s0 : State} (pos : Nat) (slot : Nat) (ring : Nat) (seq : Nat)
    (keep : List Nat) (s : State) (hs : Keeps tch s0 s)
    (hw : Within [.link, .hub, .sync] tch := by exact Within.of (by assumption) rfl) :
    Keeps tch s0 (forgetSlot pos slot ring seq keep s) := by
  unfold forgetSlot
  try dsimp only
  repeat' (first
    | (with_reducible assumption) | exact hw.of rfl | (with_reducible apply withHub_keeps)
    | (with_reducible apply boundAll_keeps) | (with_reducible apply withSync_keeps) | split)

theorem freeSlot_keeps {tch : List Field} {s0 : State} (pos : Nat) (slot : Nat) (s : State)
    (hs : Keeps tch s0 s)
    (hw : Within [.link, .hub, .sync, .disp, .tile] tch := by exact Within.of (by assumption) rfl) :
    Keeps tch s0 (freeSlot pos slot s) := by
  unfold freeSlot
  try dsimp only
  repeat' (first
    | (with_reducible assumption) | exact hw.of rfl | (with_reducible apply State.updCmd_keeps)
    | (with_reducible apply forgetSlot_keeps) | (with_reducible apply State.updTile_keeps)
    | (with_reducible apply foldl_keeps) | split | (intro _; intros; try dsimp only))

theorem haltSlot_keeps {tch : List Field} {s0 : State} (pos : Nat) (slot : Nat) (s : State)
    (hs : Keeps tch s0 s)
    (hw : Within [.link, .hub, .sync, .disp, .tile] tch := by exact Within.of (by assumption) rfl) :
    Keeps tch s0 (haltSlot pos slot s) := by
  unfold haltSlot
  try dsimp only
  repeat' (first
    | (with_reducible assumption) | exact hw.of rfl | (with_reducible apply freeSlot_keeps)
    | (with_reducible apply State.updTile_keeps) | (with_reducible apply forgetSlot_keeps) | split)

theorem dropWaits_keeps {tch : List Field} {s0 : State} (p : XltWait → Bool) (s : State) (hs : Keeps tch s0 s)
    (hw : Within [.xlt] tch := by exact Within.of (by assumption) rfl) :
    Keeps tch s0 (dropWaits p s) := by
  unfold dropWaits
  try dsimp only
  repeat' (first
    | (with_reducible assumption) | exact hw.of rfl | (with_reducible apply withXlt_keeps) | split)

theorem stopParts_keeps {tch : List Field} {s0 : State} (ring : Nat) (seq : Nat) (s : State)
    (hs : Keeps tch s0 s)
    (hw : Within [.link, .hub, .sync, .xlt, .disp, .tile] tch := by exact Within.of (by assumption) rfl) :
    Keeps tch s0 (stopParts ring seq s) := by
  unfold stopParts
  try dsimp only
  repeat' (first
    | (with_reducible assumption) | exact hw.of rfl | (with_reducible apply dropWaits_keeps)
    | (with_reducible apply haltSlot_keeps) | (with_reducible apply withSync_keeps)
    | (with_reducible apply foldl_keeps) | split | (intro _; intros; try dsimp only))

theorem freeStopped_keeps {tch : List Field} {s0 : State} (ring : Nat) (seq : Nat) (s : State)
    (hs : Keeps tch s0 s)
    (hw : Within [.link, .hub, .sync, .xlt, .disp, .tile] tch := by exact Within.of (by assumption) rfl) :
    Keeps tch s0 (freeStopped ring seq s) := by
  unfold freeStopped
  try dsimp only
  repeat' (first
    | (with_reducible assumption) | exact hw.of rfl | (with_reducible apply freeSlot_keeps)
    | (with_reducible apply dropWaits_keeps) | (with_reducible apply foldl_keeps) | split
    | (intro _; intros; try dsimp only))

theorem putBack_keeps {tch : List Field} {s0 : State} (sv : Saved) (s : State) (hs : Keeps tch s0 s)
    (hw : Within [.mem, .stack, .pool, .tier, .cdie] tch := by exact Within.of (by assumption) rfl) :
    Keeps tch s0 (putBack sv s) := by
  unfold putBack
  try dsimp only
  repeat' (first
    | (with_reducible assumption) | exact hw.of rfl | (with_reducible apply storeSector_keeps)
    | (with_reducible apply touchFrame_keeps) | (with_reducible apply dropCopies_keeps)
    | (with_reducible apply foldl_keeps) | split | (intro _; intros; try dsimp only))

theorem restoreRegions_keeps {tch : List Field} {s0 : State} (ring : Nat) (seq : Nat) (s : State)
    (hs : Keeps tch s0 s)
    (hw : Within [.mem, .stack, .pool, .tier, .cdie] tch := by exact Within.of (by assumption) rfl) :
    Keeps tch s0 (restoreRegions ring seq s) := by
  unfold restoreRegions
  try dsimp only
  repeat' (first
    | (with_reducible assumption) | exact hw.of rfl | (with_reducible apply putBack_keeps)
    | (with_reducible apply foldl_keeps) | split | (intro _; intros; try dsimp only))

theorem leaveQual_keeps {tch : List Field} {s0 : State} (c : Cmd) (s : State) (hs : Keeps tch s0 s)
    (hw : Within [.pwr] tch := by exact Within.of (by assumption) rfl) :
    Keeps tch s0 (leaveQual c s) := by
  unfold leaveQual
  try dsimp only
  repeat' (first
    | (with_reducible assumption) | exact hw.of rfl | (with_reducible apply runVolt_keeps)
    | (with_reducible apply foldl_keeps) | split | (intro _; intros; try dsimp only))

theorem undefineAt_keeps {tch : List Field} {s0 : State} (a : Nat) (n : Nat) (s : State) (hs : Keeps tch s0 s)
    (hw : Within [.mem, .stack, .pool, .tier, .cdie, .free] tch := by exact Within.of (by assumption) rfl) :
    Keeps tch s0 (undefineAt a n s) := by
  unfold undefineAt
  try dsimp only
  repeat' (first
    | (with_reducible assumption)
    | exact hw.of rfl
    | exact rfl
    | exact Nat.le_refl _
    | exact Nat.le_succ _
    | (with_reducible apply withFree_keeps)
    | (with_reducible apply withTier_keeps)
    | (with_reducible apply withMem_keeps)
    | (with_reducible apply RamOk_undefine)
    | (with_reducible apply RamOk.rfl')
    | (with_reducible apply foldl_keeps)
    | (with_reducible apply storeSector_keeps)
    | (with_reducible apply touchFrame_keeps)
    | (with_reducible apply dropCopies_keeps)
    | split
    | (intro _; intros; try dsimp only))

theorem undefineRegions_keeps {tch : List Field} {s0 : State} (ring : Nat) (seq : Nat) (s : State)
    (hs : Keeps tch s0 s)
    (hw : Within [.mem, .stack, .pool, .tier, .cdie, .free] tch := by exact Within.of (by assumption) rfl) :
    Keeps tch s0 (undefineRegions ring seq s) := by
  unfold undefineRegions
  try dsimp only
  repeat' (first
    | (with_reducible assumption)
    | exact hw.of rfl
    | exact rfl
    | exact Nat.le_refl _
    | exact Nat.le_succ _
    | (with_reducible apply foldl_keeps)
    | (with_reducible apply undefineAt_keeps)
    | split
    | (intro _; intros; try dsimp only))

theorem undefineClash_keeps {tch : List Field} {s0 : State} (ring : Nat) (seq : Nat) (s : State)
    (hs : Keeps tch s0 s)
    (hw : Within [.mem, .stack, .pool, .tier, .cdie, .free] tch := by exact Within.of (by assumption) rfl) :
    Keeps tch s0 (undefineClash ring seq s) := by
  unfold undefineClash
  try dsimp only
  repeat' (first
    | (with_reducible assumption) | exact hw.of rfl | (with_reducible apply undefineAt_keeps)
    | (with_reducible apply foldl_keeps) | split | (intro _; intros; try dsimp only))

theorem noteClash_keeps {tch : List Field} {s0 : State} (ring : Nat) (seq : Nat) (s : State)
    (hs : Keeps tch s0 s)
    (hw : Within [.mem, .stack, .pool, .tier, .cdie, .disp, .free] tch := by exact Within.of (by assumption) rfl) :
    Keeps tch s0 (noteClash ring seq s) := by
  unfold noteClash
  try dsimp only
  repeat' (first
    | (with_reducible assumption) | exact hw.of rfl | (with_reducible apply undefineClash_keeps)
    | (with_reducible apply State.updCmd_keeps) | (with_reducible apply foldl_keeps) | split
    | (intro _; intros; try dsimp only))

theorem endWith_keeps {tch : List Field} {s0 : State} (ring : Nat) (seq : Nat) (v : Verdict) (s : State)
    (hs : Keeps tch s0 s)
    (hw : Within [.link, .hub, .sync, .xlt, .disp, .tile] tch := by exact Within.of (by assumption) rfl) :
    Keeps tch s0 (endWith ring seq v s) := by
  unfold endWith
  try dsimp only
  repeat' (first
    | (with_reducible assumption) | exact hw.of rfl | (with_reducible apply State.updCmd_keeps)
    | (with_reducible apply stopParts_keeps) | split)

theorem stopForReplay_keeps {tch : List Field} {s0 : State} (ring : Nat) (seq : Nat) (cause : Nat)
    (port : Nat) (s : State) (hs : Keeps tch s0 s)
    (hw : Within [.link, .hub, .sync, .xlt, .disp, .tile] tch := by exact Within.of (by assumption) rfl) :
    Keeps tch s0 (stopForReplay ring seq cause port s) := by
  unfold stopForReplay
  try dsimp only
  repeat' (first
    | (with_reducible assumption) | exact hw.of rfl | (with_reducible apply endWith_keeps)
    | (with_reducible apply State.updCmd_keeps) | (with_reducible apply stopParts_keeps) | split)

theorem accessFailed_keeps {tch : List Field} {s0 : State} (ring : Nat) (seq : Nat) (port : Nat)
    (reason : Nat) (addr : Nat) (dva : Nat) (s : State) (hs : Keeps tch s0 s)
    (hw : Within [.link, .hub, .sync, .xlt, .disp, .tile] tch := by exact Within.of (by assumption) rfl) :
    Keeps tch s0 (accessFailed ring seq port reason addr dva s) := by
  unfold accessFailed
  try dsimp only
  repeat' (first
    | (with_reducible assumption) | exact hw.of rfl | (with_reducible apply stopForReplay_keeps)
    | (with_reducible apply endWith_keeps) | split)

theorem taintCmd_keeps {tch : List Field} {s0 : State} (ring : Nat) (seq : Nat) (v : Verdict) (s : State)
    (hs : Keeps tch s0 s)
    (hw : Within [.disp] tch := by exact Within.of (by assumption) rfl) :
    Keeps tch s0 (taintCmd ring seq v s) := by
  unfold taintCmd
  try dsimp only
  repeat' (first
    | (with_reducible assumption) | exact hw.of rfl | (with_reducible apply State.updCmd_keeps) | split)

theorem fencePort_keeps {tch : List Field} {s0 : State} (port : Nat) (dead : Bool) (cause : Nat) (s : State)
    (hs : Keeps tch s0 s)
    (hw : Within [.glb, .link, .hub, .hfifo, .msix, .sync, .cdie, .hif,
    .pwr] tch := by exact Within.of (by assumption) rfl) :
    Keeps tch s0 (fencePort port dead cause s) := by
  unfold fencePort
  try dsimp only
  repeat' (first
    | (with_reducible assumption) | exact hw.of rfl | exact rfl | (with_reducible apply withHub_keeps)
    | (with_reducible apply State.updLink_keeps) | (with_reducible apply freeSlotOf_keeps)
    | (with_reducible apply hubSays_keeps) | (with_reducible apply withSync_keeps)
    | (with_reducible apply post_keeps) | (with_reducible apply qualVolt_keeps)
    | (with_reducible apply withGlb_keeps) | (with_reducible apply foldl_keeps) | split
    | (intro _; intros; try dsimp only))

theorem fenceDead_keeps {tch : List Field} {s0 : State} (port : Nat) (s : State) (hs : Keeps tch s0 s)
    (hw : Within [.link, .hub] tch := by exact Within.of (by assumption) rfl) :
    Keeps tch s0 (fenceDead port s) := by
  unfold fenceDead
  try dsimp only
  repeat' (first
    | (with_reducible assumption) | exact hw.of rfl | (with_reducible apply State.updLink_keeps)
    | (with_reducible apply withHub_keeps) | split)

theorem dieFailed_keeps {tch : List Field} {s0 : State} (port : Nat) (cause : Nat) (s : State)
    (hs : Keeps tch s0 s)
    (hw : Within [.glb, .repair, .boot, .link, .hub, .hfifo, .msix, .sync, .xlt, .cdie, .hif, .disp, .pwr,
    .tile] tch := by exact Within.of (by assumption) rfl) :
    Keeps tch s0 (dieFailed port cause s) := by
  unfold dieFailed
  try dsimp only
  repeat' (first
    | (with_reducible assumption) | exact hw.of rfl | exact rfl | (with_reducible apply fenceDead_keeps)
    | (with_reducible apply fencePort_keeps) | (with_reducible apply withGlb_keeps)
    | (with_reducible apply setVolt_keeps) | (with_reducible apply withBoot_keeps)
    | (with_reducible apply withRepair_keeps) | (with_reducible apply post_keeps)
    | (with_reducible apply endWith_keeps) | (with_reducible apply foldl_keeps) | split
    | (intro _; intros; try dsimp only))

theorem unfence_keeps {tch : List Field} {s0 : State} (port : Nat) (ms : Nat) (s : State)
    (hs : Keeps tch s0 s)
    (hw : Within [.glb, .link, .hfifo, .msix, .cdie, .hif, .pwr] tch := by exact Within.of (by assumption) rfl) :
    Keeps tch s0 (unfence port ms s) := by
  unfold unfence
  try dsimp only
  repeat' (first
    | (with_reducible assumption) | exact hw.of rfl | exact rfl | (with_reducible apply State.updLink_keeps)
    | (with_reducible apply runVolt_keeps) | (with_reducible apply post_keeps) | (with_reducible apply withGlb_keeps)
    | split)

theorem tlbNote_keeps {tch : List Field} {s0 : State} (t : Tlb) (e : TlbEnt) (s : State) (hs : Keeps tch s0 s)
    (hw : Within [.xlt, .rna, .tile] tch := by exact Within.of (by assumption) rfl) :
    Keeps tch s0 (tlbNote t e s) := by
  unfold tlbNote
  try dsimp only
  repeat' (first
    | (with_reducible assumption) | exact hw.of rfl | (with_reducible apply State.updTile_keeps)
    | (with_reducible apply withXlt_keeps) | (with_reducible apply withRna_keeps) | split)

theorem dropTlb_keeps {tch : List Field} {s0 : State} (p : TlbEnt → Bool) (s : State) (hs : Keeps tch s0 s)
    (hw : Within [.xlt, .rna, .tile] tch := by exact Within.of (by assumption) rfl) :
    Keeps tch s0 (dropTlb p s) := by
  unfold dropTlb
  try dsimp only
  repeat' (first
    | (with_reducible assumption) | exact hw.of rfl | (with_reducible apply withXlt_keeps)
    | (with_reducible apply withRna_keeps) | (with_reducible apply withTile_keeps) | split)

theorem faultLost_keeps {tch : List Field} {s0 : State} (c : Nat) (s : State) (hs : Keeps tch s0 s)
    (hw : Within [.xlt] tch := by exact Within.of (by assumption) rfl) :
    Keeps tch s0 (faultLost c s) := by
  unfold faultLost
  try dsimp only
  repeat' (first
    | (with_reducible assumption) | exact hw.of rfl | (with_reducible apply withXlt_keeps) | split)

theorem faultWrite_keeps {tch : List Field} {s0 : State} (c : Nat) (rec_ : List Byte) (s : State)
    (hs : Keeps tch s0 s)
    (hw : Within [.hfifo, .msix, .mem, .stack, .pool, .tier, .xlt, .cdie, .hif,
    .disp] tch := by exact Within.of (by assumption) rfl) :
    Keeps tch s0 (faultWrite c rec_ s) := by
  unfold faultWrite
  try dsimp only
  repeat' (first
    | (with_reducible assumption) | exact hw.of rfl | (with_reducible apply withXlt_keeps)
    | (with_reducible apply routerEvent_keeps) | (with_reducible apply cohWrite_keeps)
    | (with_reducible apply msixGather_keeps) | (with_reducible apply State.tlp_keeps) | split)

theorem hostRead_keeps {tch : List Field} {s0 : State} (fn : Nat) (mode : TlpAt) (addr : Nat) (len : Nat)
    (use : HostRd) (s : State) (hs : Keeps tch s0 s)
    (hw : Within [.hif] tch := by exact Within.of (by assumption) rfl) :
    Keeps tch s0 (hostRead fn mode addr len use s) := by
  unfold hostRead
  try dsimp only
  repeat' (first
    | (with_reducible assumption) | exact hw.of rfl | (with_reducible apply State.nonPosted_keeps)
    | (with_reducible apply withHif_keeps) | split)

theorem faultRecord_keeps {tch : List Field} {s0 : State} (c : Nat) (rec_ : List Byte) (s : State)
    (hs : Keeps tch s0 s)
    (hw : Within [.hfifo, .msix, .mem, .stack, .pool, .tier, .xlt, .cdie, .hif,
    .disp] tch := by exact Within.of (by assumption) rfl) :
    Keeps tch s0 (faultRecord c rec_ s) := by
  unfold faultRecord
  try dsimp only
  repeat' (first
    | (with_reducible assumption) | exact hw.of rfl | (with_reducible apply faultLost_keeps)
    | (with_reducible apply withXlt_keeps) | (with_reducible apply faultWrite_keeps)
    | (with_reducible apply hostRead_keeps) | split)

theorem frConsRead_keeps {tch : List Field} {s0 : State} (c : Nat) (cons : Nat) (s : State)
    (hs : Keeps tch s0 s)
    (hw : Within [.hfifo, .msix, .mem, .stack, .pool, .tier, .xlt, .cdie, .hif,
    .disp] tch := by exact Within.of (by assumption) rfl) :
    Keeps tch s0 (frConsRead c cons s) := by
  unfold frConsRead
  try dsimp only
  repeat' (first
    | (with_reducible assumption) | exact hw.of rfl | (with_reducible apply withXlt_keeps)
    | (with_reducible apply faultLost_keeps) | (with_reducible apply faultWrite_keeps)
    | (with_reducible apply foldl_keeps) | split | (intro _; intros; try dsimp only))

theorem clearWait_keeps {tch : List Field} {s0 : State} (w : XltWait) (s : State) (hs : Keeps tch s0 s)
    (hw : Within [.xlt] tch := by exact Within.of (by assumption) rfl) :
    Keeps tch s0 (clearWait w s) := by
  unfold clearWait
  try dsimp only
  repeat' (first
    | (with_reducible assumption) | exact hw.of rfl | (with_reducible apply dropWaits_keeps) | split)

theorem notePtr_keeps {tch : List Field} {s0 : State} (p : WalkPtr) (s : State) (hs : Keeps tch s0 s)
    (hw : Within [.xlt] tch := by exact Within.of (by assumption) rfl) :
    Keeps tch s0 (notePtr p s) := by
  unfold notePtr
  try dsimp only
  repeat' (first
    | (with_reducible assumption) | exact hw.of rfl | (with_reducible apply withXlt_keeps) | split)

theorem walkStart_keeps {tch : List Field} {s0 : State} (ctx : Nat) (page : Nat) (s : State)
    (hs : Keeps tch s0 s)
    (hw : Within [.xlt] tch := by exact Within.of (by assumption) rfl) :
    Keeps tch s0 (walkStart ctx page s).2.2 := by
  unfold walkStart
  try dsimp only
  repeat' (first
    | (with_reducible assumption) | exact hw.of rfl | (with_reducible apply notePtr_keeps) | split)

theorem countWalk_keeps {tch : List Field} {s0 : State} (s : State) (hs : Keeps tch s0 s)
    (hw : Within [.xlt] tch := by exact Within.of (by assumption) rfl) :
    Keeps tch s0 (countWalk s) := by
  unfold countWalk
  try dsimp only
  repeat' (first
    | (with_reducible assumption) | exact hw.of rfl | (with_reducible apply withXlt_keeps) | split)

theorem walksGo_keeps {tch : List Field} {s0 : State} (s : State) (hs : Keeps tch s0 s)
    (hw : Within [.xlt] tch := by exact Within.of (by assumption) rfl) :
    Keeps tch s0 (walksGo s) := by
  unfold walksGo
  try dsimp only
  repeat' (first
    | (with_reducible assumption)
    | exact hw.of rfl
    | exact rfl
    | exact Nat.le_refl _
    | exact Nat.le_succ _
    | (with_reducible apply countWalk_keeps)
    | (with_reducible apply withXlt_keeps)
    | (with_reducible apply walkStart_keeps)
    | split
    | (intro _; intros; try dsimp only))

theorem startWalk_keeps {tch : List Field} {s0 : State} (ctx : Nat) (page : Nat) (ws : List XltWait)
    (s : State) (hs : Keeps tch s0 s)
    (hw : Within [.xlt] tch := by exact Within.of (by assumption) rfl) :
    Keeps tch s0 (startWalk ctx page ws s) := by
  unfold startWalk
  try dsimp only
  repeat' (first
    | (with_reducible assumption) | exact hw.of rfl | (with_reducible apply withXlt_keeps)
    | (with_reducible apply walksGo_keeps) | (with_reducible apply foldl_keeps) | split
    | (intro _; intros; try dsimp only))

theorem restartWalks_keeps {tch : List Field} {s0 : State} (mine : Walk → Bool) (s : State)
    (hs : Keeps tch s0 s)
    (hw : Within [.xlt] tch := by exact Within.of (by assumption) rfl) :
    Keeps tch s0 (restartWalks mine s) := by
  unfold restartWalks
  try dsimp only
  repeat' (first
    | (with_reducible assumption)
    | exact hw.of rfl
    | exact rfl
    | exact Nat.le_refl _
    | exact Nat.le_succ _
    | (with_reducible apply foldl_keeps)
    | (with_reducible apply withXlt_keeps)
    | (with_reducible apply walkStart_keeps)
    | split
    | (intro _; intros; try dsimp only))

theorem prefetchNext_keeps {tch : List Field} {s0 : State} (ctx : Nat) (page : Nat) (s : State)
    (hs : Keeps tch s0 s)
    (hw : Within [.xlt] tch := by exact Within.of (by assumption) rfl) :
    Keeps tch s0 (prefetchNext ctx page s) := by
  unfold prefetchNext
  try dsimp only
  repeat' (first
    | (with_reducible assumption) | exact hw.of rfl | (with_reducible apply startWalk_keeps) | split)

theorem xprefSkip_keeps {tch : List Field} {s0 : State} (pos : Nat) (slot : Nat) (id : Nat) (page : Nat)
    (s : State) (hs : Keeps tch s0 s)
    (hw : Within [.tile] tch := by exact Within.of (by assumption) rfl) :
    Keeps tch s0 (xprefSkip pos slot id page s) := by
  unfold xprefSkip
  try dsimp only
  repeat' (first
    | (with_reducible assumption) | exact hw.of rfl | (with_reducible apply State.updTile_keeps) | split)

theorem placeGone_keeps {tch : List Field} {s0 : State} (n : Nat) (s : State) (hs : Keeps tch s0 s)
    (hw : Within [.hif] tch := by exact Within.of (by assumption) rfl) :
    Keeps tch s0 (placeGone n s) := by
  unfold placeGone
  try dsimp only
  repeat' (first
    | (with_reducible assumption) | exact hw.of rfl | (with_reducible apply withHif_keeps) | split)

theorem placeLog_keeps {tch : List Field} {s0 : State} (rid : Nat) (off : Nat) (reason : Nat) (s : State)
    (hs : Keeps tch s0 s)
    (hw : Within [.hif] tch := by exact Within.of (by assumption) rfl) :
    Keeps tch s0 (placeLog rid off reason s) := by
  unfold placeLog
  try dsimp only
  repeat' (first
    | (with_reducible assumption) | exact hw.of rfl | (with_reducible apply withHif_keeps) | split)

theorem placeFault_keeps {tch : List Field} {s0 : State} (n : Nat) (s : State) (hs : Keeps tch s0 s)
    (hw : Within [.hif] tch := by exact Within.of (by assumption) rfl) :
    Keeps tch s0 (placeFault n s) := by
  unfold placeFault
  try dsimp only
  repeat' (first
    | (with_reducible assumption) | exact hw.of rfl | (with_reducible apply placeLog_keeps)
    | (with_reducible apply placeGone_keeps) | split)

theorem loseMove_keeps {tch : List Field} {s0 : State} (ends : Bool) (w : XltWait) (s : State)
    (hs : Keeps tch s0 s)
    (hw : Within [.tile] tch := by exact Within.of (by assumption) rfl) :
    Keeps tch s0 (loseMove ends w s) := by
  unfold loseMove
  try dsimp only
  repeat' (first
    | (with_reducible assumption) | exact hw.of rfl | (with_reducible apply State.updTile_keeps) | split)

theorem addStall_keeps {tch : List Field} {s0 : State} (ctx : Nat) (reason : Nat) (w : XltWait) (s : State)
    (hs : Keeps tch s0 s)
    (hw : Within [.xlt] tch := by exact Within.of (by assumption) rfl) :
    Keeps tch s0 (addStall ctx reason w s) := by
  unfold addStall
  try dsimp only
  repeat' (first
    | (with_reducible assumption) | exact hw.of rfl | (with_reducible apply dropWaits_keeps)
    | (with_reducible apply withXlt_keeps) | split)

theorem endFault_keeps {tch : List Field} {s0 : State} (ring : Nat) (seq : Nat) (v : Verdict) (s : State)
    (hs : Keeps tch s0 s)
    (hw : Within [.link, .hub, .sync, .xlt, .disp, .tile] tch := by exact Within.of (by assumption) rfl) :
    Keeps tch s0 (endFault ring seq v s) := by
  unfold endFault
  try dsimp only
  repeat' (first
    | (with_reducible assumption) | exact hw.of rfl | (with_reducible apply endWith_keeps)
    | (with_reducible apply loseMove_keeps) | (with_reducible apply dropWaits_keeps)
    | (with_reducible apply foldl_keeps) | split | (intro _; intros; try dsimp only))

theorem xltFault_keeps {tch : List Field} {s0 : State} (told : Bool) (ctx : Nat) (reason : Nat)
    (level : Nat) (entry : Nat) (host : Bool) (table : Nat) (w : XltWait) (s : State) (hs : Keeps tch s0 s)
    (hw : Within [.link, .hub, .hfifo, .msix, .sync, .mem, .stack, .pool, .tier, .xlt, .cdie, .hif, .disp,
    .tile] tch := by exact Within.of (by assumption) rfl) :
    Keeps tch s0 (xltFault told ctx reason level entry host table w s) := by
  unfold xltFault
  try dsimp only
  repeat' (first
    | (with_reducible assumption) | exact hw.of rfl | (with_reducible apply xprefSkip_keeps)
    | (with_reducible apply placeFault_keeps) | (with_reducible apply faultRecord_keeps)
    | (with_reducible apply addStall_keeps) | (with_reducible apply loseMove_keeps)
    | (with_reducible apply endFault_keeps) | split)

theorem xltFaults_keeps {tch : List Field} {s0 : State} (ctx : Nat) (reason : Nat)
    (lv : State → XltWait → Nat × Nat) (host : Bool) (table : Nat) (ws : List XltWait) (s : State)
    (hs : Keeps tch s0 s)
    (hw : Within [.link, .hub, .hfifo, .msix, .sync, .mem, .stack, .pool, .tier, .xlt, .cdie, .hif, .disp,
    .tile] tch := by exact Within.of (by assumption) rfl) :
    Keeps tch s0 (xltFaults ctx reason lv host table ws s) := by
  exact foldl_inv (fun (x : Bool × State) => Keeps tch s0 x.2) _ (fun x w h => xltFault_keeps _ _ _ _ _ _ _ _ _ h) _ (false, s) hs

theorem atsSend_keeps {tch : List Field} {s0 : State} (ctx : Nat) (page : Nat) (s : State)
    (hs : Keeps tch s0 s)
    (hw : Within [.hif] tch := by exact Within.of (by assumption) rfl) :
    Keeps tch s0 (atsSend ctx page s) := by
  unfold atsSend
  try dsimp only
  repeat' (first
    | (with_reducible assumption) | exact hw.of rfl | (with_reducible apply State.nonPosted_keeps) | split)

theorem needUnit_keeps {tch : List Field} {s0 : State} (ctx : Nat) (w : XltWait) (s : State)
    (hs : Keeps tch s0 s)
    (hw : Within [.link, .hub, .hfifo, .msix, .sync, .mem, .stack, .pool, .tier, .xlt, .cdie, .hif, .disp,
    .tile] tch := by exact Within.of (by assumption) rfl) :
    Keeps tch s0 (needUnit ctx w s) := by
  unfold needUnit
  try dsimp only
  repeat' (first
    | (with_reducible assumption) | exact hw.of rfl | (with_reducible apply xltFault_keeps)
    | (with_reducible apply xprefSkip_keeps) | (with_reducible apply addStall_keeps)
    | (with_reducible apply clearWait_keeps) | (with_reducible apply withXlt_keeps)
    | (with_reducible apply atsSend_keeps) | split)

theorem priSend_keeps {tch : List Field} {s0 : State} (p : Nat × Nat × Nat) (s : State) (hs : Keeps tch s0 s)
    (hw : Within [.hif] tch := by exact Within.of (by assumption) rfl) :
    Keeps tch s0 (priSend p s) := by
  unfold priSend
  try dsimp only
  repeat' (first
    | (with_reducible assumption) | exact hw.of rfl | (with_reducible apply State.tlp_keeps) | split)

theorem needPri_keeps {tch : List Field} {s0 : State} (ctx : Nat) (w : XltWait) (s : State)
    (hs : Keeps tch s0 s)
    (hw : Within [.link, .hub, .hfifo, .msix, .sync, .mem, .stack, .pool, .tier, .xlt, .cdie, .hif, .disp,
    .tile] tch := by exact Within.of (by assumption) rfl) :
    Keeps tch s0 (needPri ctx w s) := by
  unfold needPri
  try dsimp only
  repeat' (first
    | (with_reducible assumption) | exact hw.of rfl | (with_reducible apply xltFault_keeps)
    | (with_reducible apply withXlt_keeps) | (with_reducible apply priSend_keeps) | split)

theorem useEntry_keeps {tch : List Field} {s0 : State} (t : Tlb) (ctx : Nat) (w : XltWait) (e : TlbEnt)
    (s : State) (hs : Keeps tch s0 s)
    (hw : Within [.link, .hub, .hfifo, .msix, .sync, .mem, .stack, .pool, .tier, .xlt, .cdie, .hif, .disp, .rna,
    .tile] tch := by exact Within.of (by assumption) rfl) :
    Keeps tch s0 (useEntry t ctx w e s).2 := by
  unfold useEntry
  try dsimp only
  repeat' (first
    | (with_reducible assumption) | exact hw.of rfl | (with_reducible apply clearWait_keeps)
    | (with_reducible apply tlbNote_keeps) | (with_reducible apply needUnit_keeps)
    | (with_reducible apply needPri_keeps) | (with_reducible apply xltFault_keeps) | split)

theorem xltErrored_keeps {tch : List Field} {s0 : State} (reason : Nat) (addr : Nat) (w : XltWait)
    (s : State) (hs : Keeps tch s0 s)
    (hw : Within [.link, .hub, .sync, .xlt, .hif, .disp, .tile] tch := by exact Within.of (by assumption) rfl) :
    Keeps tch s0 (xltErrored reason addr w s) := by
  unfold xltErrored
  try dsimp only
  repeat' (first
    | (with_reducible assumption) | exact hw.of rfl | (with_reducible apply xprefSkip_keeps)
    | (with_reducible apply placeFault_keeps) | (with_reducible apply accessFailed_keeps)
    | (with_reducible apply loseMove_keeps) | split)

theorem walkOn_keeps {tch : List Field} {s0 : State} (z1 : Nat) (z2 : Nat) (z3 : Nat) (z4 : Nat) (z5 : Nat)
    (z6 : State) (hs : Keeps tch s0 z6)
    (hw : Within [.hfifo, .msix, .mem, .stack, .pool, .xlt, .cdie,
    .hif] tch := by exact Within.of (by assumption) rfl) :
    Keeps tch s0 (walkOn z1 z2 z3 z4 z5 z6).2 := by
  induction z1 generalizing z2 z3 z4 z5 z6 with
  | zero => exact hs
  | succ n ih =>
    have h := serveReads_keeps (z5 + 8 * walkIdx z3 z4) 8 z6 hs (hw.of rfl)
    unfold walkOn
    dsimp only
    split
    · exact h
    · split
      · exact ih _ _ _ _ _ (notePtr_keeps _ _ h (hw.of rfl))
      · exact h

theorem walkWhole_keeps {tch : List Field} {s0 : State} (ctx : Nat) (dva : Nat) (s : State)
    (hs : Keeps tch s0 s)
    (hw : Within [.hfifo, .msix, .mem, .stack, .pool, .xlt, .cdie,
    .hif] tch := by exact Within.of (by assumption) rfl) :
    Keeps tch s0 (walkWhole ctx dva s).2 := by
  unfold walkWhole
  try dsimp only
  repeat' (first
    | (with_reducible assumption)
    | exact hw.of rfl
    | exact rfl
    | exact Nat.le_refl _
    | exact Nat.le_succ _
    | (with_reducible apply countWalk_keeps)
    | (with_reducible apply walkOn_keeps)
    | (with_reducible apply walkStart_keeps)
    | split
    | (intro _; intros; try dsimp only))

theorem walkNow_keeps {tch : List Field} {s0 : State} (ctx : Nat) (w : XltWait) (s : State)
    (hs : Keeps tch s0 s)
    (hw : Within [.link, .hub, .hfifo, .msix, .sync, .mem, .stack, .pool, .tier, .xlt, .cdie, .hif, .disp, .rna,
    .tile] tch := by exact Within.of (by assumption) rfl) :
    Keeps tch s0 (walkNow ctx w s).2 := by
  unfold walkNow
  try dsimp only
  repeat' (first
    | (with_reducible assumption) | exact hw.of rfl | (with_reducible apply walkWhole_keeps)
    | (with_reducible apply xltFault_keeps) | (with_reducible apply xltErrored_keeps)
    | (with_reducible apply useEntry_keeps) | (with_reducible apply withXlt_keeps)
    | (with_reducible refine Keeps.of_snd (by assumption) ?_) | split | dsimp only)

theorem xltTry_keeps {tch : List Field} {s0 : State} (t : Tlb) (now : Bool) (ctx : Nat) (w : XltWait)
    (s : State) (hs : Keeps tch s0 s)
    (hw : Within [.link, .hub, .hfifo, .msix, .sync, .mem, .stack, .pool, .tier, .xlt, .cdie, .hif, .disp, .rna,
    .tile] tch := by exact Within.of (by assumption) rfl) :
    Keeps tch s0 (xltTry t now ctx w s).2 := by
  unfold xltTry
  try dsimp only
  repeat' (first
    | (with_reducible assumption) | exact hw.of rfl | (with_reducible apply xltFault_keeps)
    | (with_reducible apply useEntry_keeps) | (with_reducible apply startWalk_keeps)
    | (with_reducible apply withXlt_keeps) | (with_reducible apply prefetchNext_keeps)
    | (with_reducible apply walkNow_keeps) | (with_reducible refine Keeps.of_snd (by assumption) ?_) | split
    | dsimp only)

theorem xltAccess_keeps {tch : List Field} {s0 : State} (t : Tlb) (now : Bool) (ctx : Nat) (w : XltWait)
    (s : State) (hs : Keeps tch s0 s)
    (hw : Within [.link, .hub, .hfifo, .msix, .sync, .mem, .stack, .pool, .tier, .xlt, .cdie, .hif, .disp, .rna,
    .tile] tch := by exact Within.of (by assumption) rfl) :
    Keeps tch s0 (xltAccess t now ctx w s).2 := by
  unfold xltAccess
  try dsimp only
  repeat' (first
    | (with_reducible assumption) | exact hw.of rfl | (with_reducible apply xltTry_keeps)
    | (with_reducible refine Keeps.of_snd (by assumption) ?_) | split | dsimp only)

theorem xltRetry_keeps {tch : List Field} {s0 : State} (ctx : Nat) (w : XltWait) (s : State)
    (hs : Keeps tch s0 s)
    (hw : Within [.link, .hub, .hfifo, .msix, .sync, .mem, .stack, .pool, .tier, .xlt, .cdie, .hif, .disp, .rna,
    .tile] tch := by exact Within.of (by assumption) rfl) :
    Keeps tch s0 (xltRetry ctx w s) := by
  unfold xltRetry
  try dsimp only
  repeat' (first
    | (with_reducible assumption) | exact hw.of rfl | (with_reducible apply xltTry_keeps)
    | (with_reducible refine Keeps.of_snd (by assumption) ?_) | split | dsimp only)

theorem lookPage_keeps {tch : List Field} {s0 : State} (ctx : Nat) (w : XltWait) (s : State)
    (hs : Keeps tch s0 s)
    (hw : Within [.hfifo, .msix, .mem, .stack, .pool, .xlt, .cdie,
    .hif] tch := by exact Within.of (by assumption) rfl) :
    Keeps tch s0 (lookPage ctx w s).2 := by
  unfold lookPage
  try dsimp only
  repeat' (first
    | (with_reducible assumption) | exact hw.of rfl | (with_reducible apply startWalk_keeps)
    | (with_reducible apply withXlt_keeps) | (with_reducible apply walkWhole_keeps)
    | (with_reducible refine Keeps.of_snd (by assumption) ?_) | split | dsimp only)

theorem listAccess_keeps {tch : List Field} {s0 : State} (ring : Nat) (seq : Nat) (ctx : Nat) (a : Nat)
    (s : State) (hs : Keeps tch s0 s)
    (hw : Within [.link, .hub, .hfifo, .msix, .sync, .mem, .stack, .pool, .tier, .xlt, .cdie, .hif, .disp, .rna,
    .tile] tch := by exact Within.of (by assumption) rfl) :
    Keeps tch s0 (listAccess ring seq ctx a s).2 := by
  unfold listAccess
  try dsimp only
  repeat' (first
    | (with_reducible assumption) | exact hw.of rfl | (with_reducible apply dropWaits_keeps)
    | (with_reducible apply lookPage_keeps) | (with_reducible apply useEntry_keeps)
    | (with_reducible refine Keeps.of_snd (by assumption) ?_) | split | dsimp only)

theorem takeWalk_keeps {tch : List Field} {s0 : State} (ctx : Nat) (page : Nat) (s : State)
    (hs : Keeps tch s0 s)
    (hw : Within [.xlt] tch := by exact Within.of (by assumption) rfl) :
    Keeps tch s0 (takeWalk ctx page s).2 := by
  unfold takeWalk
  try dsimp only
  repeat' (first
    | (with_reducible assumption) | exact hw.of rfl | (with_reducible apply walksGo_keeps)
    | (with_reducible apply withXlt_keeps) | split)

theorem walkRead_keeps {tch : List Field} {s0 : State} (ctx : Nat) (page : Nat) (answer : Nat) (st : State)
    (hs : Keeps tch s0 st)
    (hw : Within [.link, .hub, .hfifo, .msix, .sync, .mem, .stack, .pool, .tier, .xlt, .cdie, .hif, .disp,
    .tile] tch := by exact Within.of (by assumption) rfl) :
    Keeps tch s0 (walkRead ctx page answer st).2 := by
  unfold walkRead
  try dsimp only
  repeat' (first
    | (with_reducible assumption) | exact hw.of rfl | (with_reducible apply serveReads_keeps)
    | (with_reducible apply takeWalk_keeps) | (with_reducible apply xltFaults_keeps)
    | (with_reducible apply xltErrored_keeps) | (with_reducible apply notePtr_keeps)
    | (with_reducible apply withXlt_keeps) | (with_reducible apply foldl_keeps)
    | (with_reducible refine Keeps.of_snd (by assumption) ?_) | split | dsimp only
    | (intro _; intros; try dsimp only))

theorem cutCmd_keeps {tch : List Field} {s0 : State} (ring : Nat) (seq : Nat) (region : Nat) (detail : Nat)
    (s : State) (hs : Keeps tch s0 s)
    (hw : Within [.disp] tch := by exact Within.of (by assumption) rfl) :
    Keeps tch s0 (cutCmd ring seq region detail s) := by
  unfold cutCmd
  try dsimp only
  repeat' (first
    | (with_reducible assumption) | exact hw.of rfl | (with_reducible apply State.updCmd_keeps) | split)

theorem crossRead_keeps {tch : List Field} {s0 : State} (ring : Nat) (seq : Nat) (s : State)
    (hs : Keeps tch s0 s)
    (hw : Within [.hif] tch := by exact Within.of (by assumption) rfl) :
    Keeps tch s0 (crossRead ring seq s) := by
  unfold crossRead
  try dsimp only
  repeat' (first
    | (with_reducible assumption) | exact hw.of rfl | (with_reducible apply hostRead_keeps)
    | (with_reducible apply withHif_keeps) | split)

theorem crossNote_keeps {tch : List Field} {s0 : State} (ring : Nat) (seq : Nat) (bus : Nat) (mode : TlpAt)
    (s : State) (hs : Keeps tch s0 s)
    (hw : Within [.hif] tch := by exact Within.of (by assumption) rfl) :
    Keeps tch s0 (crossNote ring seq bus mode s) := by
  unfold crossNote
  try dsimp only
  repeat' (first
    | (with_reducible assumption) | exact hw.of rfl | (with_reducible apply withHif_keeps)
    | (with_reducible apply crossRead_keeps) | split)

theorem crossGo_keeps {tch : List Field} {s0 : State} (z1 : Nat) (z2 : Nat) (z3 : Nat) (z4 : State)
    (hs : Keeps tch s0 z4)
    (hw : Within [.hif] tch := by exact Within.of (by assumption) rfl) :
    Keeps tch s0 (crossGo z1 z2 z3 z4) := by
  induction z1 generalizing z2 z3 z4 with
  | zero => exact hs
  | succ n ih =>
    unfold crossGo
    repeat' (first
      | (with_reducible refine ih _ _ _ ?_)
      | (with_reducible assumption)
      | exact hw.of rfl
      | exact rfl
      | exact Nat.le_refl _
      | exact Nat.le_succ _
      | (with_reducible apply crossRead_keeps)
      | split
      | (intro _; intros; try dsimp only))

theorem hostPlace_keeps {tch : List Field} {s0 : State} (p : Pkt) (s : State) (hs : Keeps tch s0 s)
    (hw : Within [.link, .hub, .hfifo, .msix, .cdie, .hif, .disp] tch := by exact Within.of (by assumption) rfl) :
    Keeps tch s0 (hostPlace p s) := by
  unfold hostPlace
  try dsimp only
  repeat' (first
    | (with_reducible assumption) | exact hw.of rfl | (with_reducible apply evCheckword_keeps)
    | (with_reducible apply taintCmd_keeps) | (with_reducible apply State.tlp_keeps)
    | (with_reducible apply crossNote_keeps) | (with_reducible apply respond_keeps)
    | (with_reducible apply foldl_keeps) | split | (intro _; intros; try dsimp only))

theorem hostWrite_keeps {tch : List Field} {s0 : State} (p : Pkt) (s : State) (hs : Keeps tch s0 s)
    (hw : Within [.link, .hub, .hfifo, .msix, .cdie, .hif, .disp] tch := by exact Within.of (by assumption) rfl) :
    Keeps tch s0 (hostWrite p s) := by
  unfold hostWrite
  try dsimp only
  repeat' (first
    | (with_reducible assumption) | exact hw.of rfl | (with_reducible apply cutCmd_keeps)
    | (with_reducible apply respond_keeps) | (with_reducible apply withHif_keeps)
    | (with_reducible apply hostPlace_keeps) | split)

theorem hostReadPkt_keeps {tch : List Field} {s0 : State} (p : Pkt) (s : State) (hs : Keeps tch s0 s)
    (hw : Within [.link, .hub, .hif, .disp] tch := by exact Within.of (by assumption) rfl) :
    Keeps tch s0 (hostReadPkt p s) := by
  unfold hostReadPkt
  try dsimp only
  repeat' (first
    | (with_reducible assumption) | exact hw.of rfl | (with_reducible apply hostRead_keeps)
    | (with_reducible apply cutCmd_keeps) | (with_reducible apply send_keeps) | split)

theorem hostArrive_keeps {tch : List Field} {s0 : State} (p : Pkt) (s : State) (hs : Keeps tch s0 s)
    (hw : Within [.link, .hub, .hfifo, .msix, .cdie, .hif, .disp] tch := by exact Within.of (by assumption) rfl) :
    Keeps tch s0 (hostArrive p s) := by
  unfold hostArrive
  try dsimp only
  repeat' (first
    | (with_reducible assumption) | exact hw.of rfl | (with_reducible apply hostReadPkt_keeps)
    | (with_reducible apply hostWrite_keeps) | (with_reducible apply send_keeps) | split)

theorem waitedGo_keeps {tch : List Field} {s0 : State} (w : Waiting) (s : State) (hs : Keeps tch s0 s)
    (hw : Within [.link, .hub, .hfifo, .msix, .cdie, .hif, .disp] tch := by exact Within.of (by assumption) rfl) :
    Keeps tch s0 (waitedGo w s) := by
  unfold waitedGo
  try dsimp only
  repeat' (first
    | (with_reducible assumption) | exact hw.of rfl | (with_reducible apply hostWrite_keeps)
    | (with_reducible apply State.tlp_keeps) | split)

theorem hostResume_keeps {tch : List Field} {s0 : State} (s : State) (hs : Keeps tch s0 s)
    (hw : Within [.link, .hub, .hfifo, .msix, .cdie, .hif, .disp] tch := by exact Within.of (by assumption) rfl) :
    Keeps tch s0 (hostResume s) := by
  unfold hostResume
  try dsimp only
  repeat' (first
    | (with_reducible assumption) | exact hw.of rfl | (with_reducible apply waitedGo_keeps)
    | (with_reducible apply withHif_keeps) | (with_reducible apply foldl_keeps) | split
    | (intro _; intros; try dsimp only))

theorem undelivered_keeps {tch : List Field} {s0 : State} (t : HTlp) (s : State) (hs : Keeps tch s0 s)
    (hw : Within [.disp] tch := by exact Within.of (by assumption) rfl) :
    Keeps tch s0 (undelivered t s) := by
  unfold undelivered
  try dsimp only
  repeat' (first
    | (with_reducible assumption) | exact hw.of rfl | (with_reducible apply cutCmd_keeps)
    | (with_reducible apply State.updCmd_keeps) | split)

theorem hostCut_keeps {tch : List Field} {s0 : State} (ring : Nat) (seq : Nat) (bus : Nat) (s : State)
    (hs : Keeps tch s0 s)
    (hw : Within [.link, .hub, .sync, .xlt, .disp, .tile] tch := by exact Within.of (by assumption) rfl) :
    Keeps tch s0 (hostCut ring seq bus s) := by
  unfold hostCut
  try dsimp only
  repeat' (first
    | (with_reducible assumption) | exact hw.of rfl | (with_reducible apply endWith_keeps)
    | (with_reducible apply cutCmd_keeps) | split)

theorem readStopped_keeps {tch : List Field} {s0 : State} (r : HostRd) (s : State) (hs : Keeps tch s0 s)
    (hw : Within [.link, .hub, .sync, .xlt, .hif, .disp, .tile] tch := by exact Within.of (by assumption) rfl) :
    Keeps tch s0 (readStopped r s) := by
  unfold readStopped
  try dsimp only
  repeat' (first
    | (with_reducible assumption) | exact hw.of rfl | (with_reducible apply hostReadPkt_keeps)
    | (with_reducible apply hostCut_keeps) | (with_reducible apply faultLost_keeps)
    | (with_reducible apply withXlt_keeps) | (with_reducible apply foldl_keeps) | split
    | (intro _; intros; try dsimp only))

theorem atsDrop_keeps {tch : List Field} {s0 : State} (fn : Nat) (s : State) (hs : Keeps tch s0 s)
    (hw : Within [.link, .hub, .hfifo, .msix, .sync, .mem, .stack, .pool, .tier, .xlt, .cdie, .hif, .disp, .rna,
    .tile] tch := by exact Within.of (by assumption) rfl) :
    Keeps tch s0 (atsDrop fn s) := by
  unfold atsDrop
  try dsimp only
  repeat' (first
    | (with_reducible assumption) | exact hw.of rfl | (with_reducible apply dropTlb_keeps)
    | (with_reducible apply withXlt_keeps) | (with_reducible apply tagsGo_keeps)
    | (with_reducible apply needUnit_keeps) | (with_reducible apply foldl_keeps) | split
    | (intro _; intros; try dsimp only))

theorem migrateStopped_keeps {tch : List Field} {s0 : State} (fn : Nat) (s : State) (hs : Keeps tch s0 s)
    (hw : Within [.link, .hub, .hfifo, .msix, .sync, .mem, .stack, .pool, .tier, .xlt, .cdie, .hif, .disp,
    .tile] tch := by exact Within.of (by assumption) rfl) :
    Keeps tch s0 (migrateStopped fn s) := by
  unfold migrateStopped
  try dsimp only
  repeat' (first
    | (with_reducible assumption) | exact hw.of rfl | (with_reducible apply hostCut_keeps)
    | (with_reducible apply needUnit_keeps) | (with_reducible apply State.updCmd_keeps)
    | (with_reducible apply foldl_keeps) | split | (intro _; intros; try dsimp only))

theorem packetsStopped_keeps {tch : List Field} {s0 : State} (fn : Nat) (s : State) (hs : Keeps tch s0 s)
    (hw : Within [.hub, .disp] tch := by exact Within.of (by assumption) rfl) :
    Keeps tch s0 (packetsStopped fn s) := by
  unfold packetsStopped
  try dsimp only
  repeat' (first
    | (with_reducible assumption) | exact hw.of rfl | (with_reducible apply withHub_keeps)
    | (with_reducible apply cutCmd_keeps) | (with_reducible apply foldl_keeps) | split
    | (intro _; intros; try dsimp only))

theorem waitedStopped_keeps {tch : List Field} {s0 : State} (w : Waiting) (s : State) (hs : Keeps tch s0 s)
    (hw : Within [.link, .hub, .hfifo, .msix, .cdie, .hif, .disp] tch := by exact Within.of (by assumption) rfl) :
    Keeps tch s0 (waitedStopped w s) := by
  unfold waitedStopped
  try dsimp only
  repeat' (first
    | (with_reducible assumption) | exact hw.of rfl | (with_reducible apply hostWrite_keeps)
    | (with_reducible apply undelivered_keeps) | split)

theorem detachFn_keeps {tch : List Field} {s0 : State} (fn : Nat) (s : State) (hs : Keeps tch s0 s)
    (hw : Within [.link, .hub, .hfifo, .msix, .sync, .mem, .stack, .pool, .tier, .xlt, .cdie, .hif, .sess, .disp,
    .rna, .tile] tch := by exact Within.of (by assumption) rfl) :
    Keeps tch s0 (detachFn fn s) := by
  unfold detachFn
  try dsimp only
  repeat' (first
    | (with_reducible assumption) | exact hw.of rfl | (with_reducible apply State.updSess_keeps)
    | (with_reducible apply undelivered_keeps) | (with_reducible apply withHif_keeps)
    | (with_reducible apply atsDrop_keeps) | (with_reducible apply packetsStopped_keeps)
    | (with_reducible apply dropWaits_keeps) | (with_reducible apply withDisp_keeps)
    | (with_reducible apply setReads_keeps) | (with_reducible apply migrateStopped_keeps)
    | (with_reducible apply readStopped_keeps) | (with_reducible apply waitedStopped_keeps)
    | (with_reducible apply withMsix_keeps) | (with_reducible apply foldl_keeps) | split
    | (intro _; intros; try dsimp only))

theorem detach_keeps {tch : List Field} {s0 : State} (fns : List Nat) (s : State) (hs : Keeps tch s0 s)
    (hw : Within [.link, .hub, .hfifo, .msix, .sync, .mem, .stack, .pool, .tier, .xlt, .cdie, .hif, .sess, .disp,
    .rna, .tile] tch := by exact Within.of (by assumption) rfl) :
    Keeps tch s0 (detach fns s) := by
  unfold detach
  try dsimp only
  repeat' (first
    | (with_reducible assumption) | exact hw.of rfl | (with_reducible apply State.updSess_keeps)
    | (with_reducible apply detachFn_keeps) | (with_reducible apply withHif_keeps)
    | (with_reducible apply post_keeps) | (with_reducible apply foldl_keeps) | split
    | (intro _; intros; try dsimp only))

theorem windowsEnd_keeps {tch : List Field} {s0 : State} (fn : Nat) (s : State) (hs : Keeps tch s0 s)
    (hw : Within [.hif, .regs] tch := by exact Within.of (by assumption) rfl) :
    Keeps tch s0 (windowsEnd fn s) := by
  unfold windowsEnd
  try dsimp only
  repeat' (first
    | (with_reducible assumption) | exact hw.of rfl | (with_reducible apply withRegs_keeps)
    | (with_reducible apply withHif_keeps) | (with_reducible apply foldl_keeps) | split
    | (intro _; intros; try dsimp only))

theorem endSession_keeps {tch : List Field} {s0 : State} (fn : Nat) (s : State) (hs : Keeps tch s0 s)
    (hw : Within [.link, .hub, .hfifo, .msix, .sync, .xlt, .cdie, .hif, .sess, .disp, .tile,
    .regs] tch := by exact Within.of (by assumption) rfl) :
    Keeps tch s0 (endSession fn s) := by
  unfold endSession
  try dsimp only
  repeat' (first
    | (with_reducible assumption) | exact hw.of rfl | (with_reducible apply State.updCmd_keeps)
    | (with_reducible apply endWith_keeps) | (with_reducible apply withDisp_keeps)
    | (with_reducible apply withHif_keeps) | (with_reducible apply windowsEnd_keeps)
    | (with_reducible apply post_keeps) | (with_reducible apply State.updSess_keeps)
    | (with_reducible apply foldl_keeps) | split | (intro _; intros; try dsimp only))

end Sys2Proof.Machine
end

