-- ==== Sys2Proof/Laws/KeepsMove.lean ====
section
/-!
SUPPORT. What every operation of tile moves, placement and Ranoa keeps (Keeps, Laws/Next.lean):
one law per operation.
-/
namespace Sys2Proof.Machine
set_option Elab.async false

theorem State.updSlot_keeps {tch : List Field} {s0 : State} (s : State) (pos : Nat) (slot : Nat)
    (f : Slot → Slot) (hs : Keeps tch s0 s)
    (hw : Within [.tile] tch := by exact Within.of (by assumption) rfl) :
    Keeps tch s0 (State.updSlot s pos slot f) := by
  unfold State.updSlot
  try dsimp only
  repeat' (first
    | (with_reducible assumption) | exact hw.of rfl | (with_reducible apply State.updTile_keeps) | split)

theorem tileFault_keeps {tch : List Field} {s0 : State} (pos : Nat) (slot : Nat) (code : Nat) (pc : Nat)
    (s : State) (hs : Keeps tch s0 s)
    (hw : Within [.link, .hub, .sync, .xlt, .disp, .tile] tch := by exact Within.of (by assumption) rfl) :
    Keeps tch s0 (tileFault pos slot code pc s) := by
  unfold tileFault
  try dsimp only
  repeat' (first
    | (with_reducible assumption) | exact hw.of rfl | (with_reducible apply endWith_keeps) | split)

theorem setFlags_keeps {tch : List Field} {s0 : State} (pos : Nat) (slot : Nat) (f : Sticky) (s : State)
    (hs : Keeps tch s0 s)
    (hw : Within [.tile] tch := by exact Within.of (by assumption) rfl) :
    Keeps tch s0 (setFlags pos slot f s) := by
  unfold setFlags
  try dsimp only
  repeat' (first
    | (with_reducible assumption) | exact hw.of rfl | (with_reducible apply State.updSlot_keeps) | split)

theorem addToken_keeps {tch : List Field} {s0 : State} (pos : Nat) (slot : Nat) (tok : Nat) (n : Nat)
    (pc : Nat) (s : State) (hs : Keeps tch s0 s)
    (hw : Within [.link, .hub, .sync, .xlt, .disp, .tile] tch := by exact Within.of (by assumption) rfl) :
    Keeps tch s0 (addToken pos slot tok n pc s) := by
  unfold addToken
  try dsimp only
  repeat' (first
    | (with_reducible assumption) | exact hw.of rfl | (with_reducible apply State.updSlot_keeps)
    | (with_reducible apply tileFault_keeps) | split)

theorem setDone_keeps {tch : List Field} {s0 : State} (pos : Nat) (slot : Nat) (w : BitVec 128) (pc : Nat)
    (s : State) (hs : Keeps tch s0 s)
    (hw : Within [.link, .hub, .sync, .xlt, .disp, .tile] tch := by exact Within.of (by assumption) rfl) :
    Keeps tch s0 (setDone pos slot w pc s) := by
  unfold setDone
  try dsimp only
  repeat' (first
    | (with_reducible assumption) | exact hw.of rfl | (with_reducible apply addToken_keeps) | split)

theorem taintTile_keeps {tch : List Field} {s0 : State} (pos : Nat) (slot : Nat) (rel : Nat) (s : State)
    (hs : Keeps tch s0 s)
    (hw : Within [.disp] tch := by exact Within.of (by assumption) rfl) :
    Keeps tch s0 (taintTile pos slot rel s) := by
  unfold taintTile
  try dsimp only
  repeat' (first
    | (with_reducible assumption) | exact hw.of rfl | (with_reducible apply taintCmd_keeps) | split)

theorem verifyTile_keeps {tch : List Field} {s0 : State} (pos : Nat) (slot : Nat) (point : Nat) (base : Nat)
    (ranges : List (Nat × Nat)) (s : State) (hs : Keeps tch s0 s)
    (hw : Within [.hfifo, .msix, .cdie, .hif, .disp, .tile] tch := by exact Within.of (by assumption) rfl) :
    Keeps tch s0 (verifyTile pos slot point base ranges s) := by
  unfold verifyTile
  try dsimp only
  repeat' (first
    | (with_reducible assumption) | exact hw.of rfl | (with_reducible apply evCheckword_keeps)
    | (with_reducible apply State.updTile_keeps) | (with_reducible apply taintTile_keeps)
    | (with_reducible apply foldl_keeps) | split | (intro _; intros; try dsimp only))

theorem storeTile_keeps {tch : List Field} {s0 : State} (pos : Nat) (base : Nat) (a : Nat) (bs : List Byte)
    (poison : Bool) (s : State) (hs : Keeps tch s0 s)
    (hw : Within [.tile] tch := by exact Within.of (by assumption) rfl) :
    Keeps tch s0 (storeTile pos base a bs poison s) := by
  unfold storeTile
  try dsimp only
  repeat' (first
    | (with_reducible assumption) | exact hw.of rfl | (with_reducible apply State.updTile_keeps)
    | (with_reducible apply foldl_keeps) | split | (intro _; intros; try dsimp only))

theorem fetchNext_keeps {tch : List Field} {s0 : State} (pos : Nat) (slot : Nat) (s : State)
    (hs : Keeps tch s0 s)
    (hw : Within [.link, .hub, .sync, .xlt, .disp, .tile] tch := by exact Within.of (by assumption) rfl) :
    Keeps tch s0 (fetchNext pos slot s) := by
  unfold fetchNext
  try dsimp only
  repeat' (first
    | (with_reducible assumption) | exact hw.of rfl | (with_reducible apply tileFault_keeps) | split)

theorem State.turned_keeps {tch : List Field} {s0 : State} (s : State) (pos : Nat) (unit : Nat) (slot : Nat)
    (hs : Keeps tch s0 s)
    (hw : Within [.tile] tch := by exact Within.of (by assumption) rfl) :
    Keeps tch s0 (State.turned s pos unit slot) := by
  unfold State.turned
  try dsimp only
  repeat' (first
    | (with_reducible assumption) | exact hw.of rfl | (with_reducible apply State.updTile_keeps) | split)

theorem State.startTurned_keeps {tch : List Field} {s0 : State} (s : State) (pos : Nat) (slot : Nat)
    (q : Queue) (i : QInstr) (hs : Keeps tch s0 s)
    (hw : Within [.tile] tch := by exact Within.of (by assumption) rfl) :
    Keeps tch s0 (State.startTurned s pos slot q i) := by
  unfold State.startTurned
  try dsimp only
  repeat' (first
    | (with_reducible assumption) | exact hw.of rfl | (with_reducible apply State.turned_keeps) | split)

theorem seqIssue_keeps {tch : List Field} {s0 : State} (pos : Nat) (slot : Nat) (opc : Nat)
    (f : Slot → BitVec 128 → SeqRes) (s : State) (hs : Keeps tch s0 s)
    (hw : Within [.link, .hub, .sync, .xlt, .disp, .tile] tch := by exact Within.of (by assumption) rfl) :
    OnNext (Keeps tch s0) (seqIssue pos slot opc f s) := by
  unfold seqIssue
  try dsimp only
  repeat' (first
    | (with_reducible assumption) | exact hw.of rfl | (with_reducible apply State.turned_keeps)
    | (with_reducible apply tileFault_keeps) | (with_reducible apply fetchNext_keeps)
    | (with_reducible apply setDone_keeps) | (with_reducible apply State.updSlot_keeps)
    | (with_reducible apply OnNext.next) | (with_reducible apply OnNext.fault) | split)

theorem queueIssue_keeps {tch : List Field} {s0 : State} (pos : Nat) (slot : Nat) (opc : Nat) (q : Queue)
    (chk : Slot → BitVec 128 → Option Nat) (cap : Slot → BitVec 128 → List Word × List LayReg)
    (conv : BitVec 128 → Bool) (s : State) (hs : Keeps tch s0 s)
    (hw : Within [.link, .hub, .sync, .xlt, .disp, .tile] tch := by exact Within.of (by assumption) rfl) :
    OnNext (Keeps tch s0) (queueIssue pos slot opc q chk cap conv s) := by
  unfold queueIssue
  try dsimp only
  repeat' (first
    | (with_reducible assumption) | exact hw.of rfl | (with_reducible apply State.turned_keeps)
    | (with_reducible apply tileFault_keeps) | (with_reducible apply fetchNext_keeps)
    | (with_reducible apply State.updSlot_keeps) | (with_reducible apply OnNext.next)
    | (with_reducible apply OnNext.fault) | split)

theorem updQ_keeps {tch : List Field} {s0 : State} (pos : Nat) (slot : Nat) (q : Queue) (id : Nat)
    (f : QInstr → QInstr) (s : State) (hs : Keeps tch s0 s)
    (hw : Within [.tile] tch := by exact Within.of (by assumption) rfl) :
    Keeps tch s0 (updQ pos slot q id f s) := by
  unfold updQ
  try dsimp only
  repeat' (first
    | (with_reducible assumption) | exact hw.of rfl | (with_reducible apply State.updSlot_keeps) | split)

theorem complete_keeps {tch : List Field} {s0 : State} (pos : Nat) (slot : Nat) (q : Queue) (i : QInstr)
    (fl : Sticky) (s : State) (hs : Keeps tch s0 s)
    (hw : Within [.link, .hub, .sync, .xlt, .disp, .tile] tch := by exact Within.of (by assumption) rfl) :
    Keeps tch s0 (complete pos slot q i fl s) := by
  unfold complete
  try dsimp only
  repeat' (first
    | (with_reducible assumption) | exact hw.of rfl | (with_reducible apply State.updSlot_keeps)
    | (with_reducible apply setFlags_keeps) | (with_reducible apply setDone_keeps) | split)

theorem moveIssue_keeps {tch : List Field} {s0 : State} (pos : Nat) (slot : Nat) (opc : Nat) (s : State)
    (hs : Keeps tch s0 s)
    (hw : Within [.link, .hub, .sync, .xlt, .disp, .tile] tch := by exact Within.of (by assumption) rfl) :
    OnNext (Keeps tch s0) (moveIssue pos slot opc s) := by
  unfold moveIssue
  try dsimp only
  repeat' (first
    | (with_reducible assumption) | exact hw.of rfl | (with_reducible apply queueIssue_keeps)
    | (with_reducible apply OnNext.next) | (with_reducible apply OnNext.fault) | split)

theorem execLoad_keeps {tch : List Field} {s0 : State} (pos : Nat) (slot : Nat) (s : State)
    (hs : Keeps tch s0 s)
    (hw : Within [.link, .hub, .sync, .xlt, .disp, .tile] tch := by exact Within.of (by assumption) rfl) :
    OnNext (Keeps tch s0) (execLoad pos slot s) := by
  unfold execLoad
  try dsimp only
  repeat' (first
    | (with_reducible assumption) | exact hw.of rfl | (with_reducible apply moveIssue_keeps)
    | (with_reducible apply OnNext.next) | (with_reducible apply OnNext.fault) | split)

theorem execStore_keeps {tch : List Field} {s0 : State} (pos : Nat) (slot : Nat) (s : State)
    (hs : Keeps tch s0 s)
    (hw : Within [.link, .hub, .sync, .xlt, .disp, .tile] tch := by exact Within.of (by assumption) rfl) :
    OnNext (Keeps tch s0) (execStore pos slot s) := by
  unfold execStore
  try dsimp only
  repeat' (first
    | (with_reducible assumption) | exact hw.of rfl | (with_reducible apply moveIssue_keeps)
    | (with_reducible apply OnNext.next) | (with_reducible apply OnNext.fault) | split)

theorem execGather_keeps {tch : List Field} {s0 : State} (pos : Nat) (slot : Nat) (s : State)
    (hs : Keeps tch s0 s)
    (hw : Within [.link, .hub, .sync, .xlt, .disp, .tile] tch := by exact Within.of (by assumption) rfl) :
    OnNext (Keeps tch s0) (execGather pos slot s) := by
  unfold execGather
  try dsimp only
  repeat' (first
    | (with_reducible assumption) | exact hw.of rfl | (with_reducible apply moveIssue_keeps)
    | (with_reducible apply OnNext.next) | (with_reducible apply OnNext.fault) | split)

theorem execScatteradd_keeps {tch : List Field} {s0 : State} (pos : Nat) (slot : Nat) (s : State)
    (hs : Keeps tch s0 s)
    (hw : Within [.link, .hub, .sync, .xlt, .disp, .tile] tch := by exact Within.of (by assumption) rfl) :
    OnNext (Keeps tch s0) (execScatteradd pos slot s) := by
  unfold execScatteradd
  try dsimp only
  repeat' (first
    | (with_reducible assumption) | exact hw.of rfl | (with_reducible apply moveIssue_keeps)
    | (with_reducible apply OnNext.next) | (with_reducible apply OnNext.fault) | split)

theorem execXpref_keeps {tch : List Field} {s0 : State} (pos : Nat) (slot : Nat) (s : State)
    (hs : Keeps tch s0 s)
    (hw : Within [.link, .hub, .sync, .xlt, .disp, .tile] tch := by exact Within.of (by assumption) rfl) :
    OnNext (Keeps tch s0) (execXpref pos slot s) := by
  unfold execXpref
  try dsimp only
  repeat' (first
    | (with_reducible assumption) | exact hw.of rfl | (with_reducible apply moveIssue_keeps)
    | (with_reducible apply OnNext.next) | (with_reducible apply OnNext.fault) | split)

theorem execPut_keeps {tch : List Field} {s0 : State} (pos : Nat) (slot : Nat) (s : State)
    (hs : Keeps tch s0 s)
    (hw : Within [.link, .hub, .sync, .xlt, .disp, .tile] tch := by exact Within.of (by assumption) rfl) :
    OnNext (Keeps tch s0) (execPut pos slot s) := by
  unfold execPut
  try dsimp only
  repeat' (first
    | (with_reducible assumption) | exact hw.of rfl | (with_reducible apply moveIssue_keeps)
    | (with_reducible apply OnNext.next) | (with_reducible apply OnNext.fault) | split)

theorem execGet_keeps {tch : List Field} {s0 : State} (pos : Nat) (slot : Nat) (s : State)
    (hs : Keeps tch s0 s)
    (hw : Within [.link, .hub, .sync, .xlt, .disp, .tile] tch := by exact Within.of (by assumption) rfl) :
    OnNext (Keeps tch s0) (execGet pos slot s) := by
  unfold execGet
  try dsimp only
  repeat' (first
    | (with_reducible assumption) | exact hw.of rfl | (with_reducible apply moveIssue_keeps)
    | (with_reducible apply OnNext.next) | (with_reducible apply OnNext.fault) | split)

theorem sentOne_keeps {tch : List Field} {s0 : State} (pos : Nat) (slot : Nat) (id : Nat) (n : Nat)
    (p : Piece) (s : State) (hs : Keeps tch s0 s)
    (hw : Within [.tile] tch := by exact Within.of (by assumption) rfl) :
    Keeps tch s0 (sentOne pos slot id n p s) := by
  unfold sentOne
  try dsimp only
  repeat' (first
    | (with_reducible assumption) | exact hw.of rfl | (with_reducible apply updQ_keeps) | split)

theorem notePut_keeps {tch : List Field} {s0 : State} (x : Slot) (s : State) (hs : Keeps tch s0 s)
    (hw : Within [.disp] tch := by exact Within.of (by assumption) rfl) :
    Keeps tch s0 (notePut x s) := by
  unfold notePut
  try dsimp only
  repeat' (first
    | (with_reducible assumption) | exact hw.of rfl | (with_reducible apply State.updCmd_keeps) | split)

theorem noteUnit_keeps {tch : List Field} {s0 : State} (pos : Nat) (slot : Nat) (id : Nat) (off : Nat)
    (h : Hit) (s : State) (hs : Keeps tch s0 s)
    (hw : Within [.tile] tch := by exact Within.of (by assumption) rfl) :
    Keeps tch s0 (noteUnit pos slot id off h s) := by
  unfold noteUnit
  try dsimp only
  repeat' (first
    | (with_reducible assumption) | exact hw.of rfl | (with_reducible apply updQ_keeps) | split)

theorem sendPiece_keeps {tch : List Field} {s0 : State} (pos : Nat) (slot : Nat) (id : Nat) (opc : Nat)
    (x : Slot) (p : Piece) (h : Hit) (s : State) (hs : Keeps tch s0 s)
    (hw : Within [.link, .hub, .disp, .tile] tch := by exact Within.of (by assumption) rfl) :
    Keeps tch s0 (sendPiece pos slot id opc x p h s) := by
  unfold sendPiece
  try dsimp only
  repeat' (first
    | (with_reducible assumption) | exact hw.of rfl | (with_reducible apply noteUnit_keeps)
    | (with_reducible apply sentOne_keeps) | (with_reducible apply requestAt_keeps)
    | (with_reducible apply notePut_keeps) | (with_reducible apply request_keeps) | split)

theorem moveFault_keeps {tch : List Field} {s0 : State} (pos : Nat) (slot : Nat) (id : Nat) (code : Nat)
    (pc : Nat) (s : State) (hs : Keeps tch s0 s)
    (hw : Within [.link, .hub, .sync, .xlt, .disp, .tile] tch := by exact Within.of (by assumption) rfl) :
    Keeps tch s0 (moveFault pos slot id code pc s) := by
  unfold moveFault
  try dsimp only
  repeat' (first
    | (with_reducible assumption) | exact hw.of rfl | (with_reducible apply tileFault_keeps)
    | (with_reducible apply updQ_keeps) | split)

theorem tryPiece_keeps {tch : List Field} {s0 : State} (pos : Nat) (slot : Nat) (id : Nat) (s : State)
    (p : Piece) (hs : Keeps tch s0 s)
    (hw : Within [.link, .hub, .hfifo, .msix, .sync, .mem, .stack, .pool, .tier, .xlt, .cdie, .hif, .disp, .rna,
    .tile] tch := by exact Within.of (by assumption) rfl) :
    Keeps tch s0 (tryPiece pos slot id s p) := by
  unfold tryPiece
  try dsimp only
  repeat' (first
    | (with_reducible assumption) | exact hw.of rfl | (with_reducible apply xltAccess_keeps)
    | (with_reducible apply updQ_keeps) | (with_reducible apply moveFault_keeps)
    | (with_reducible apply sendPiece_keeps) | (with_reducible refine Keeps.of_snd (by assumption) ?_) | split
    | dsimp only)

theorem tryGather_keeps {tch : List Field} {s0 : State} (pos : Nat) (slot : Nat) (id : Nat)
    (acc : State × List (Piece × Hit)) (p : Piece) (hs : Keeps tch s0 acc.1)
    (hw : Within [.link, .hub, .hfifo, .msix, .sync, .mem, .stack, .pool, .tier, .xlt, .cdie, .hif, .disp, .rna,
    .tile] tch := by exact Within.of (by assumption) rfl) :
    Keeps tch s0 (tryGather pos slot id acc p).1 := by
  unfold tryGather
  try dsimp only
  repeat' (first
    | (with_reducible assumption) | exact hw.of rfl | (with_reducible apply xltAccess_keeps)
    | (with_reducible apply tileFault_keeps) | (with_reducible refine Keeps.of_snd (by assumption) ?_) | split
    | dsimp only)

theorem noteSent_keeps {tch : List Field} {s0 : State} (pos : Nat) (slot : Nat) (id : Nat) (pk : Nat)
    (h : Hit) (skip : Nat) (segs : List (Nat × Nat)) (answers : Nat) (s : State) (hs : Keeps tch s0 s)
    (hw : Within [.tile] tch := by exact Within.of (by assumption) rfl) :
    Keeps tch s0 (noteSent pos slot id pk h skip segs answers s) := by
  unfold noteSent
  try dsimp only
  repeat' (first
    | (with_reducible assumption) | exact hw.of rfl | (with_reducible apply noteUnit_keeps)
    | (with_reducible apply updQ_keeps) | split)

theorem sendNarrow_keeps {tch : List Field} {s0 : State} (pos : Nat) (slot : Nat) (id : Nat) (pk : Nat)
    (p : Piece) (h : Hit) (s : State) (hs : Keeps tch s0 s)
    (hw : Within [.link, .hub, .tile] tch := by exact Within.of (by assumption) rfl) :
    Keeps tch s0 (sendNarrow pos slot id pk p h s) := by
  unfold sendNarrow
  try dsimp only
  repeat' (first
    | (with_reducible assumption) | exact hw.of rfl | (with_reducible apply requestAt_keeps)
    | (with_reducible apply noteSent_keeps) | split)

theorem sendBatch_keeps {tch : List Field} {s0 : State} (pos : Nat) (slot : Nat) (id : Nat) (b : List
    (Piece × Hit)) (s : State) (hs : Keeps tch s0 s)
    (hw : Within [.link, .hub, .tile] tch := by exact Within.of (by assumption) rfl) :
    Keeps tch s0 (sendBatch pos slot id b s) := by
  unfold sendBatch
  try dsimp only
  repeat' (first
    | (with_reducible assumption) | exact hw.of rfl | (with_reducible apply updQ_keeps)
    | (with_reducible apply sendNarrow_keeps) | (with_reducible apply requestAt_keeps)
    | (with_reducible apply noteSent_keeps) | split)

theorem sendBatches_keeps {tch : List Field} {s0 : State} (pos : Nat) (slot : Nat) (id : Nat) (z1 : Nat)
    (z2 : List (Piece × Hit)) (z3 : State) (hs : Keeps tch s0 z3)
    (hw : Within [.link, .hub, .tile] tch := by exact Within.of (by assumption) rfl) :
    Keeps tch s0 (sendBatches pos slot id z1 z2 z3) := by
  induction z1 generalizing z2 z3 with
  | zero => simpa [sendBatches] using hs
  | succ n ih =>
    cases z2 with
    | nil => simpa [sendBatches] using hs
    | cons c r => exact ih _ _ (sendBatch_keeps _ _ _ _ _ hs)

theorem moverGo_keeps {tch : List Field} {s0 : State} (pos : Nat) (slot : Nat) (id : Nat) (s : State)
    (hs : Keeps tch s0 s)
    (hw : Within [.link, .hub, .hfifo, .msix, .sync, .mem, .stack, .pool, .tier, .xlt, .cdie, .hif, .disp, .rna,
    .tile] tch := by exact Within.of (by assumption) rfl) :
    Keeps tch s0 (moverGo pos slot id s) := by
  unfold moverGo
  split
  · exact hs
  · split
    · refine sendBatches_keeps _ _ _ _ _ _ ?_ (hw.of rfl)
      exact foldl_inv (fun (x : State × List (Piece × Hit)) => Keeps tch s0 x.1) _ (fun x p h => tryGather_keeps _ _ _ _ _ h) _ _ hs
    · exact foldl_keeps _ (fun s a h => tryPiece_keeps _ _ _ _ _ h) _ _ hs

theorem taintRanges_keeps {tch : List Field} {s0 : State} (pos : Nat) (slot : Nat) (x : Slot) (ranges : List
    (Nat × Nat)) (s : State) (hs : Keeps tch s0 s)
    (hw : Within [.disp] tch := by exact Within.of (by assumption) rfl) :
    Keeps tch s0 (taintRanges pos slot x ranges s) := by
  unfold taintRanges
  try dsimp only
  repeat' (first
    | (with_reducible assumption) | exact hw.of rfl | (with_reducible apply taintTile_keeps)
    | (with_reducible apply foldl_keeps) | split | (intro _; intros; try dsimp only))

theorem storeStart_keeps {tch : List Field} {s0 : State} (pos : Nat) (slot : Nat) (x : Slot) (q : QInstr)
    (s : State) (hs : Keeps tch s0 s)
    (hw : Within [.hfifo, .msix, .cdie, .hif, .disp, .tile] tch := by exact Within.of (by assumption) rfl) :
    Keeps tch s0 (storeStart pos slot x q s) := by
  unfold storeStart
  try dsimp only
  repeat' (first
    | (with_reducible assumption) | exact hw.of rfl | (with_reducible apply taintRanges_keeps)
    | (with_reducible apply updQ_keeps) | (with_reducible apply verifyTile_keeps)
    | (with_reducible apply foldl_keeps) | split | (intro _; intros; try dsimp only))

theorem scatStart_keeps {tch : List Field} {s0 : State} (pos : Nat) (slot : Nat) (x : Slot) (q : QInstr)
    (s : State) (hs : Keeps tch s0 s)
    (hw : Within [.link, .hub, .hfifo, .msix, .sync, .xlt, .cdie, .hif, .disp,
    .tile] tch := by exact Within.of (by assumption) rfl) :
    Keeps tch s0 (scatStart pos slot x q s) := by
  unfold scatStart
  try dsimp only
  repeat' (first
    | (with_reducible assumption) | exact hw.of rfl | (with_reducible apply verifyTile_keeps)
    | (with_reducible apply tileFault_keeps) | (with_reducible apply updQ_keeps) | split)

theorem moveStart_keeps {tch : List Field} {s0 : State} (pos : Nat) (slot : Nat) (q : QInstr) (s : State)
    (hs : Keeps tch s0 s)
    (hw : Within [.link, .hub, .hfifo, .msix, .sync, .mem, .stack, .pool, .tier, .xlt, .cdie, .hif, .disp, .rna,
    .tile] tch := by exact Within.of (by assumption) rfl) :
    Keeps tch s0 (moveStart pos slot q s) := by
  unfold moveStart
  try dsimp only
  repeat' (first
    | (with_reducible assumption) | exact hw.of rfl | (with_reducible apply updQ_keeps)
    | (with_reducible apply moverGo_keeps) | (with_reducible apply storeStart_keeps)
    | (with_reducible apply scatStart_keeps) | split)

theorem execGatherListRead_keeps {tch : List Field} {s0 : State} (pos : Nat) (slot : Nat) (id : Nat)
    (s : State) (hs : Keeps tch s0 s)
    (hw : Within [.link, .hub, .hfifo, .msix, .sync, .mem, .stack, .pool, .tier, .xlt, .cdie, .hif, .disp, .rna,
    .tile] tch := by exact Within.of (by assumption) rfl) :
    OnNext (Keeps tch s0) (execGatherListRead pos slot id s) := by
  unfold execGatherListRead
  try dsimp only
  repeat' (first
    | (with_reducible assumption) | exact hw.of rfl | (with_reducible apply tileFault_keeps)
    | (with_reducible apply verifyTile_keeps) | (with_reducible apply moverGo_keeps)
    | (with_reducible apply updQ_keeps) | (with_reducible apply OnNext.next) | (with_reducible apply OnNext.fault)
    | split)

theorem storeSects_keeps {tch : List Field} {s0 : State} (pos : Nat) (base : Nat) (l : List Sect)
    (s : State) (hs : Keeps tch s0 s)
    (hw : Within [.tile] tch := by exact Within.of (by assumption) rfl) :
    Keeps tch s0 (storeSects pos base l s) := by
  unfold storeSects
  try dsimp only
  repeat' (first
    | (with_reducible assumption) | exact hw.of rfl | (with_reducible apply storeTile_keeps)
    | (with_reducible apply foldl_keeps) | split | (intro _; intros; try dsimp only))

theorem loadWrite_keeps {tch : List Field} {s0 : State} (pos : Nat) (x : Slot) (q : QInstr) (s : State)
    (hs : Keeps tch s0 s)
    (hw : Within [.tile] tch := by exact Within.of (by assumption) rfl) :
    Keeps tch s0 (loadWrite pos x q s).1 := by
  have g : ∀ l : List Nat, Keeps tch s0 (l.foldl (fun (acc : State × Sticky) r =>
      (storeSects pos x.winBase (rowSects (q.move.lt.base + r * q.move.lt.stride) (copyRow q.move x q q.src r).1
        (copyRow q.move x q q.src r).2.1) acc.1, acc.2 ||| (copyRow q.move x q q.src r).2.2)) (s, 0#4)).1 :=
    fun l => foldl_inv (fun (x : State × Sticky) => Keeps tch s0 x.1) _ (fun x p h => storeSects_keeps _ _ _ _ h) l _ hs
  have k : ∀ t, Keeps tch s0 t → Keeps tch s0 (if q.move.csc = true then storeSects pos x.winBase (rowSects q.move.lt.sbase
      (copyScales q.move q.src).1 (copyScales q.move q.src).2) t else t) := fun t h => by
    split
    · exact storeSects_keeps _ _ _ _ h
    · exact h
  unfold loadWrite
  dsimp only
  split
  · refine k _ (foldl_keeps _ (fun s a h => foldl_keeps _ (fun s a h => State.updTile_keeps _ _ _ h) _ _ h) _ _ hs)
  · exact k _ (g _)

theorem gatherWrite_keeps {tch : List Field} {s0 : State} (pos : Nat) (x : Slot) (q : QInstr) (s : State)
    (hs : Keeps tch s0 s)
    (hw : Within [.tile] tch := by exact Within.of (by assumption) rfl) :
    Keeps tch s0 (gatherWrite pos x q s).1 := by
  unfold gatherWrite
  refine foldl_inv (fun (x : State × Sticky) => Keeps tch s0 x.1) _ (fun x p h => ?_) _ _ hs
  exact storeSects_keeps _ _ _ _ h

theorem execInboundMoveComplete_keeps {tch : List Field} {s0 : State} (pos : Nat) (slot : Nat) (id : Nat)
    (s : State) (hs : Keeps tch s0 s)
    (hw : Within [.link, .hub, .sync, .xlt, .disp, .tile] tch := by exact Within.of (by assumption) rfl) :
    OnNext (Keeps tch s0) (execInboundMoveComplete pos slot id s) := by
  unfold execInboundMoveComplete
  try dsimp only
  repeat' (first
    | (with_reducible assumption) | exact hw.of rfl | (with_reducible apply loadWrite_keeps)
    | (with_reducible apply complete_keeps) | (with_reducible apply gatherWrite_keeps)
    | (with_reducible apply OnNext.next) | (with_reducible apply OnNext.fault) | split)

theorem execOutboundMoveComplete_keeps {tch : List Field} {s0 : State} (pos : Nat) (slot : Nat) (id : Nat)
    (s : State) (hs : Keeps tch s0 s)
    (hw : Within [.link, .hub, .sync, .xlt, .disp, .tile] tch := by exact Within.of (by assumption) rfl) :
    OnNext (Keeps tch s0) (execOutboundMoveComplete pos slot id s) := by
  unfold execOutboundMoveComplete
  try dsimp only
  repeat' (first
    | (with_reducible assumption) | exact hw.of rfl | (with_reducible apply complete_keeps)
    | (with_reducible apply OnNext.next) | (with_reducible apply OnNext.fault) | split)

theorem execXprefComplete_keeps {tch : List Field} {s0 : State} (pos : Nat) (slot : Nat) (id : Nat)
    (s : State) (hs : Keeps tch s0 s)
    (hw : Within [.link, .hub, .sync, .xlt, .disp, .tile] tch := by exact Within.of (by assumption) rfl) :
    OnNext (Keeps tch s0) (execXprefComplete pos slot id s) := by
  unfold execXprefComplete
  try dsimp only
  repeat' (first
    | (with_reducible assumption) | exact hw.of rfl | (with_reducible apply complete_keeps)
    | (with_reducible apply OnNext.next) | (with_reducible apply OnNext.fault) | split)

theorem placeSendAs_keeps {tch : List Field} {s0 : State} (masked : Bool) (src : Nat) (n : Nat) (p : Piece)
    (s : State) (hs : Keeps tch s0 s)
    (hw : Within [.link, .hub] tch := by exact Within.of (by assumption) rfl) :
    Keeps tch s0 (placeSendAs masked src n p s) := by
  unfold placeSendAs
  try dsimp only
  repeat' (first
    | (with_reducible assumption) | exact hw.of rfl | (with_reducible apply request_keeps)
    | (with_reducible apply requestAt_keeps) | split)

theorem placeSend_keeps {tch : List Field} {s0 : State} (src : Nat) (n : Nat) (p : Piece) (s : State)
    (hs : Keeps tch s0 s)
    (hw : Within [.link, .hub] tch := by exact Within.of (by assumption) rfl) :
    Keeps tch s0 (placeSend src n p s) := by
  unfold placeSend
  try dsimp only
  repeat' (first
    | (with_reducible assumption) | exact hw.of rfl | (with_reducible apply placeSendAs_keeps) | split)

theorem placeTry_keeps {tch : List Field} {s0 : State} (p : Placing) (s : State) (hs : Keeps tch s0 s)
    (hw : Within [.link, .hub, .hfifo, .msix, .sync, .counted, .mem, .stack, .pool, .tier, .xlt, .cdie, .hif, .disp,
    .rna, .tile] tch := by exact Within.of (by assumption) rfl) :
    Keeps tch s0 (placeTry p s) := by
  unfold placeTry
  try dsimp only
  repeat' (first
    | (with_reducible assumption) | exact hw.of rfl | (with_reducible apply xltAccess_keeps)
    | (with_reducible apply placeGone_keeps) | (with_reducible apply State.tlp_keeps)
    | (with_reducible apply withCounted_keeps) | (with_reducible apply placeSend_keeps)
    | (with_reducible apply foldl_keeps) | (with_reducible refine Keeps.of_snd (by assumption) ?_) | split
    | dsimp only | (intro _; intros; try dsimp only))

theorem placeRid_keeps {tch : List Field} {s0 : State} (rid : Nat) (z1 : Nat) (z2 : State)
    (hs : Keeps tch s0 z2)
    (hw : Within [.link, .hub, .hfifo, .msix, .sync, .counted, .mem, .stack, .pool, .tier, .xlt, .cdie, .hif, .disp,
    .rna, .tile] tch := by exact Within.of (by assumption) rfl) :
    Keeps tch s0 (placeRid rid z1 z2) := by
  induction z1 generalizing z2 with
  | zero => exact hs
  | succ n ih =>
    unfold placeRid
    dsimp only
    split
    · exact hs
    · have h := placeTry_keeps ‹Placing› z2 hs (hw.of rfl)
      split
      · exact h
      · exact ih _ h

theorem placeGo_keeps {tch : List Field} {s0 : State} (n : Nat) (s : State) (hs : Keeps tch s0 s)
    (hw : Within [.link, .hub, .hfifo, .msix, .sync, .counted, .mem, .stack, .pool, .tier, .xlt, .cdie, .hif, .disp,
    .rna, .tile] tch := by exact Within.of (by assumption) rfl) :
    Keeps tch s0 (placeGo n s) := by
  unfold placeGo
  try dsimp only
  repeat' (first
    | (with_reducible assumption) | exact hw.of rfl | (with_reducible apply placeRid_keeps) | split)

theorem placesGo_keeps {tch : List Field} {s0 : State} (s : State) (hs : Keeps tch s0 s)
    (hw : Within [.link, .hub, .hfifo, .msix, .sync, .counted, .mem, .stack, .pool, .tier, .xlt, .cdie, .hif, .disp,
    .rna, .tile] tch := by exact Within.of (by assumption) rfl) :
    Keeps tch s0 (placesGo s) := by
  unfold placesGo
  try dsimp only
  repeat' (first
    | (with_reducible assumption) | exact hw.of rfl | (with_reducible apply placeRid_keeps)
    | (with_reducible apply foldl_keeps) | split | (intro _; intros; try dsimp only))

theorem execPlacementWrite_keeps {tch : List Field} {s0 : State} (rid : Nat) (off : Nat) (data : List Byte)
    (ep : Bool) (s : State) (hs : Keeps tch s0 s)
    (hw : Within [.link, .hub, .hfifo, .msix, .sync, .counted, .mem, .stack, .pool, .tier, .xlt, .cdie, .hif, .disp,
    .rna, .tile] tch := by exact Within.of (by assumption) rfl) :
    OnNext (Keeps tch s0) (execPlacementWrite rid off data ep s) := by
  unfold execPlacementWrite
  try dsimp only
  repeat' (first
    | (with_reducible assumption) | exact hw.of rfl | (with_reducible apply placeLog_keeps)
    | (with_reducible apply placeGo_keeps) | (with_reducible apply withHif_keeps)
    | (with_reducible apply OnNext.next) | (with_reducible apply OnNext.fault) | split)

theorem aerError_keeps {tch : List Field} {s0 : State} (s : State) (hs : Keeps tch s0 s)
    (hw : Within [.hif] tch := by exact Within.of (by assumption) rfl) :
    Keeps tch s0 (aerError s) := by
  unfold aerError
  try dsimp only
  repeat' (first
    | (with_reducible assumption) | exact hw.of rfl | (with_reducible apply withHif_keeps) | split)

theorem execIdeCheckFail_keeps {tch : List Field} {s0 : State} (rid : Nat) (off : Nat) (placement : Bool)
    (s : State) (hs : Keeps tch s0 s)
    (hw : Within [.hif] tch := by exact Within.of (by assumption) rfl) :
    OnNext (Keeps tch s0) (execIdeCheckFail rid off placement s) := by
  unfold execIdeCheckFail
  try dsimp only
  repeat' (first
    | (with_reducible assumption) | exact hw.of rfl | (with_reducible apply placeLog_keeps)
    | (with_reducible apply aerError_keeps) | (with_reducible apply OnNext.next)
    | (with_reducible apply OnNext.fault) | split)

theorem execBar2Read_keeps {tch : List Field} {s0 : State} (rid : Nat) (_off : Nat) (s : State)
    (hs : Keeps tch s0 s)
    (hw : Within [.hif] tch := by exact Within.of (by assumption) rfl) :
    OnNext (Keeps tch s0) (execBar2Read rid _off s) := by
  unfold execBar2Read
  try dsimp only
  repeat' (first
    | (with_reducible assumption) | exact hw.of rfl | (with_reducible apply withHif_keeps)
    | (with_reducible apply OnNext.next) | (with_reducible apply OnNext.fault) | split)

theorem execHifPlogRead_keeps {tch : List Field} {s0 : State} (who : Agent) (s : State) (hs : Keeps tch s0 s)
    (hw : Within [.hfifo, .msix, .cdie, .hif, .replies] tch := by exact Within.of (by assumption) rfl) :
    OnNext (Keeps tch s0) (execHifPlogRead who s) := by
  unfold execHifPlogRead
  try dsimp only
  repeat' (first
    | (with_reducible assumption) | exact hw.of rfl | (with_reducible apply reply_keeps)
    | (with_reducible apply post_keeps) | (with_reducible apply withHif_keeps)
    | (with_reducible apply shutRead_keeps) | (with_reducible apply OnNext.next)
    | (with_reducible apply OnNext.fault) | split)

theorem execHifPlapValidSet_keeps {tch : List Field} {s0 : State} (who : Agent) (n : Nat) (v : Word)
    (s : State) (hs : Keeps tch s0 s)
    (hw : Within [.hfifo, .msix, .cdie, .hif, .regs] tch := by exact Within.of (by assumption) rfl) :
    OnNext (Keeps tch s0) (execHifPlapValidSet who n v s) := by
  unfold execHifPlapValidSet
  try dsimp only
  repeat' (first
    | (with_reducible assumption) | exact hw.of rfl | (with_reducible apply pfWrite_keeps)
    | (with_reducible apply State.setReg_keeps) | (with_reducible apply setupRefused_keeps)
    | (with_reducible apply OnNext.next) | (with_reducible apply OnNext.fault) | split
    | (intro _; intros; try dsimp only))

theorem execHifPlapValidClear_keeps {tch : List Field} {s0 : State} (who : Agent) (n : Nat) (s : State)
    (hs : Keeps tch s0 s)
    (hw : Within [.hfifo, .msix, .cdie, .hif, .regs] tch := by exact Within.of (by assumption) rfl) :
    OnNext (Keeps tch s0) (execHifPlapValidClear who n s) := by
  unfold execHifPlapValidClear
  try dsimp only
  repeat' (first
    | (with_reducible assumption) | exact hw.of rfl | (with_reducible apply pfWrite_keeps)
    | (with_reducible apply State.setReg_keeps) | (with_reducible apply withHif_keeps)
    | (with_reducible apply OnNext.next) | (with_reducible apply OnNext.fault) | split
    | (intro _; intros; try dsimp only))

theorem execPlacementDrainDone_keeps {tch : List Field} {s0 : State} (n : Nat) (s : State)
    (hs : Keeps tch s0 s)
    (hw : Within [.hif] tch := by exact Within.of (by assumption) rfl) :
    OnNext (Keeps tch s0) (execPlacementDrainDone n s) := by
  unfold execPlacementDrainDone
  try dsimp only
  repeat' (first
    | (with_reducible assumption) | exact hw.of rfl | (with_reducible apply withHif_keeps)
    | (with_reducible apply OnNext.next) | (with_reducible apply OnNext.fault) | split)

theorem rGo_keeps {tch : List Field} {s0 : State} (n : Nat) (s : State) (hs : Keeps tch s0 s)
    (hw : Within [.rna] tch := by exact Within.of (by assumption) rfl) :
    Keeps tch s0 (rGo n s) := by
  unfold rGo
  try dsimp only
  repeat' (first
    | (with_reducible assumption) | exact hw.of rfl | (with_reducible apply State.updRport_keeps) | split)

theorem sendR_keeps {tch : List Field} {s0 : State} (n : Nat) (r : RPkt) (s : State) (hs : Keeps tch s0 s)
    (hw : Within [.rna] tch := by exact Within.of (by assumption) rfl) :
    Keeps tch s0 (sendR n r s) := by
  unfold sendR
  try dsimp only
  repeat' (first
    | (with_reducible assumption) | exact hw.of rfl | (with_reducible apply rGo_keeps)
    | (with_reducible apply State.updRport_keeps) | split)

theorem rAck_keeps {tch : List Field} {s0 : State} (n : Nat) (s : State) (hs : Keeps tch s0 s)
    (hw : Within [.rna] tch := by exact Within.of (by assumption) rfl) :
    Keeps tch s0 (rAck n s) := by
  unfold rAck
  try dsimp only
  repeat' (first
    | (with_reducible assumption) | exact hw.of rfl | (with_reducible apply State.updRport_keeps) | split)

theorem rFree_keeps {tch : List Field} {s0 : State} (n : Nat) (op : ROp) (s : State) (hs : Keeps tch s0 s)
    (hw : Within [.rna] tch := by exact Within.of (by assumption) rfl) :
    Keeps tch s0 (rFree n op s) := by
  unfold rFree
  try dsimp only
  repeat' (first
    | (with_reducible assumption) | exact hw.of rfl | (with_reducible apply State.updRport_keeps) | split)

theorem rTake_keeps {tch : List Field} {s0 : State} (n : Nat) (op : ROp) (s : State) (hs : Keeps tch s0 s)
    (hw : Within [.rna] tch := by exact Within.of (by assumption) rfl) :
    Keeps tch s0 (rTake n op s) := by
  unfold rTake
  try dsimp only
  repeat' (first
    | (with_reducible assumption) | exact hw.of rfl | (with_reducible apply rFree_keeps)
    | (with_reducible apply rAck_keeps) | split)

theorem execRanoaLinkAck_keeps {tch : List Field} {s0 : State} (port : Nat) (lseq : Nat) (s : State)
    (hs : Keeps tch s0 s)
    (hw : Within [.rna] tch := by exact Within.of (by assumption) rfl) :
    OnNext (Keeps tch s0) (execRanoaLinkAck port lseq s) := by
  unfold execRanoaLinkAck
  try dsimp only
  repeat' (first
    | (with_reducible assumption) | exact hw.of rfl | (with_reducible apply rGo_keeps)
    | (with_reducible apply State.updRport_keeps) | (with_reducible apply OnNext.next)
    | (with_reducible apply OnNext.fault) | split)

theorem execRanoaCreditReturn_keeps {tch : List Field} {s0 : State} (port : Nat) (vc : Nat) (n : Nat)
    (s : State) (hs : Keeps tch s0 s)
    (hw : Within [.rna] tch := by exact Within.of (by assumption) rfl) :
    OnNext (Keeps tch s0) (execRanoaCreditReturn port vc n s) := by
  unfold execRanoaCreditReturn
  try dsimp only
  repeat' (first
    | (with_reducible assumption) | exact hw.of rfl | (with_reducible apply rGo_keeps)
    | (with_reducible apply State.updRport_keeps) | (with_reducible apply OnNext.next)
    | (with_reducible apply OnNext.fault) | split)

theorem execRanoaHeartbeat_keeps {tch : List Field} {s0 : State} (port : Nat) (corrected : Nat) (s : State)
    (hs : Keeps tch s0 s)
    (hw : Within [.rna] tch := by exact Within.of (by assumption) rfl) :
    OnNext (Keeps tch s0) (execRanoaHeartbeat port corrected s) := by
  unfold execRanoaHeartbeat
  try dsimp only
  repeat' (first
    | (with_reducible assumption) | exact hw.of rfl | (with_reducible apply State.updRport_keeps)
    | (with_reducible apply OnNext.next) | (with_reducible apply OnNext.fault) | split)

theorem execRanoaHeartbeatSend_keeps {tch : List Field} {s0 : State} (port : Nat) (s : State)
    (hs : Keeps tch s0 s)
    (hw : Within [.rna] tch := by exact Within.of (by assumption) rfl) :
    OnNext (Keeps tch s0) (execRanoaHeartbeatSend port s) := by
  unfold execRanoaHeartbeatSend
  try dsimp only
  repeat' (first
    | (with_reducible assumption) | exact hw.of rfl | (with_reducible apply State.updRport_keeps)
    | (with_reducible apply OnNext.next) | (with_reducible apply OnNext.fault) | split)

theorem execRanoaLinkCrcError_keeps {tch : List Field} {s0 : State} (port : Nat) (hdr : BitVec 256)
    (body : List Byte) (crc : BitVec 32) (uncorr : Nat) (s : State) (hs : Keeps tch s0 s)
    (hw : Within [.rna] tch := by exact Within.of (by assumption) rfl) :
    OnNext (Keeps tch s0) (execRanoaLinkCrcError port hdr body crc uncorr s) := by
  unfold execRanoaLinkCrcError
  try dsimp only
  repeat' (first
    | (with_reducible assumption) | exact hw.of rfl | (with_reducible apply State.updRport_keeps)
    | (with_reducible apply OnNext.next) | (with_reducible apply OnNext.fault) | split)

theorem ranoaErr_keeps {tch : List Field} {s0 : State} (p : Pkt) (reason : Nat) (s : State)
    (hs : Keeps tch s0 s)
    (hw : Within [.link, .hub] tch := by exact Within.of (by assumption) rfl) :
    Keeps tch s0 (ranoaErr p reason s) := by
  unfold ranoaErr
  try dsimp only
  repeat' (first
    | (with_reducible assumption) | exact hw.of rfl | (with_reducible apply send_keeps) | split)

theorem answerOps_keeps {tch : List Field} {s0 : State} (x : RPort) (late : Option (Nat × Nat)) (s : State)
    (hs : Keeps tch s0 s)
    (hw : Within [.link, .hub] tch := by exact Within.of (by assumption) rfl) :
    Keeps tch s0 (answerOps x late s) := by
  unfold answerOps
  try dsimp only
  repeat' (first
    | (with_reducible assumption) | exact hw.of rfl | (with_reducible apply ranoaErr_keeps)
    | (with_reducible apply foldl_keeps) | split | (intro _; intros; try dsimp only))

theorem closeStream_keeps {tch : List Field} {s0 : State} (n : Nat) (s : State) (hs : Keeps tch s0 s)
    (hw : Within [.counted] tch := by exact Within.of (by assumption) rfl) :
    Keeps tch s0 (closeStream n s) := by
  unfold closeStream
  try dsimp only
  repeat' (first
    | (with_reducible assumption) | exact hw.of rfl | (with_reducible apply withCounted_keeps) | split)

theorem losePort_keeps {tch : List Field} {s0 : State} (n : Nat) (late : Option (Nat × Nat)) (s : State)
    (hs : Keeps tch s0 s)
    (hw : Within [.link, .hub, .hfifo, .msix, .counted, .cdie, .hif,
    .rna] tch := by exact Within.of (by assumption) rfl) :
    Keeps tch s0 (losePort n late s) := by
  unfold losePort
  try dsimp only
  repeat' (first
    | (with_reducible assumption) | exact hw.of rfl | (with_reducible apply State.updRport_keeps)
    | (with_reducible apply post_keeps) | (with_reducible apply answerOps_keeps)
    | (with_reducible apply closeStream_keeps) | split)

theorem rResend_keeps {tch : List Field} {s0 : State} (n : Nat) (s : State) (hs : Keeps tch s0 s)
    (hw : Within [.link, .hub, .hfifo, .msix, .counted, .cdie, .hif,
    .rna] tch := by exact Within.of (by assumption) rfl) :
    Keeps tch s0 (rResend n s) := by
  unfold rResend
  try dsimp only
  repeat' (first
    | (with_reducible assumption) | exact hw.of rfl | (with_reducible apply State.updRport_keeps)
    | (with_reducible apply losePort_keeps) | split)

theorem execRanoaLinkNak_keeps {tch : List Field} {s0 : State} (port : Nat) (s : State) (hs : Keeps tch s0 s)
    (hw : Within [.link, .hub, .hfifo, .msix, .counted, .cdie, .hif,
    .rna] tch := by exact Within.of (by assumption) rfl) :
    OnNext (Keeps tch s0) (execRanoaLinkNak port s) := by
  unfold execRanoaLinkNak
  try dsimp only
  repeat' (first
    | (with_reducible assumption) | exact hw.of rfl | (with_reducible apply rResend_keeps)
    | (with_reducible apply OnNext.next) | (with_reducible apply OnNext.fault) | split)

theorem execRanoaAckOverdue_keeps {tch : List Field} {s0 : State} (port : Nat) (s : State)
    (hs : Keeps tch s0 s)
    (hw : Within [.link, .hub, .hfifo, .msix, .counted, .cdie, .hif,
    .rna] tch := by exact Within.of (by assumption) rfl) :
    OnNext (Keeps tch s0) (execRanoaAckOverdue port s) := by
  unfold execRanoaAckOverdue
  try dsimp only
  repeat' (first
    | (with_reducible assumption) | exact hw.of rfl | (with_reducible apply rResend_keeps)
    | (with_reducible apply OnNext.next) | (with_reducible apply OnNext.fault) | split)

theorem execRanoaSilenceTimeout_keeps {tch : List Field} {s0 : State} (port : Nat) (s : State)
    (hs : Keeps tch s0 s)
    (hw : Within [.link, .hub, .hfifo, .msix, .counted, .cdie, .hif,
    .rna] tch := by exact Within.of (by assumption) rfl) :
    OnNext (Keeps tch s0) (execRanoaSilenceTimeout port s) := by
  unfold execRanoaSilenceTimeout
  try dsimp only
  repeat' (first
    | (with_reducible assumption) | exact hw.of rfl | (with_reducible apply losePort_keeps)
    | (with_reducible apply OnNext.next) | (with_reducible apply OnNext.fault) | split)

theorem execRanoaOpTimeout_keeps {tch : List Field} {s0 : State} (port : Nat) (s : State)
    (hs : Keeps tch s0 s)
    (hw : Within [.link, .hub, .hfifo, .msix, .counted, .cdie, .hif,
    .rna] tch := by exact Within.of (by assumption) rfl) :
    OnNext (Keeps tch s0) (execRanoaOpTimeout port s) := by
  unfold execRanoaOpTimeout
  try dsimp only
  repeat' (first
    | (with_reducible assumption) | exact hw.of rfl | (with_reducible apply losePort_keeps)
    | (with_reducible apply OnNext.next) | (with_reducible apply OnNext.fault) | split)

theorem trainPort_keeps {tch : List Field} {s0 : State} (n : Nat) (s : State) (hs : Keeps tch s0 s)
    (hw : Within [.rna] tch := by exact Within.of (by assumption) rfl) :
    Keeps tch s0 (trainPort n s) := by
  unfold trainPort
  try dsimp only
  repeat' (first
    | (with_reducible assumption) | exact hw.of rfl | (with_reducible apply sendR_keeps)
    | (with_reducible apply State.updRport_keeps) | split)

theorem execRanoaLightDetect_keeps {tch : List Field} {s0 : State} (port : Nat) (s : State)
    (hs : Keeps tch s0 s)
    (hw : Within [.rna] tch := by exact Within.of (by assumption) rfl) :
    OnNext (Keeps tch s0) (execRanoaLightDetect port s) := by
  unfold execRanoaLightDetect
  try dsimp only
  repeat' (first
    | (with_reducible assumption) | exact hw.of rfl | (with_reducible apply trainPort_keeps)
    | (with_reducible apply OnNext.next) | (with_reducible apply OnNext.fault) | split)

theorem execHello_keeps {tch : List Field} {s0 : State} (port : Nat) (serial : Nat) (peerPort : Nat)
    (lanes : Nat) (s : State) (hs : Keeps tch s0 s)
    (hw : Within [.link, .hub, .hfifo, .msix, .counted, .cdie, .hif,
    .rna] tch := by exact Within.of (by assumption) rfl) :
    OnNext (Keeps tch s0) (execHello port serial peerPort lanes s) := by
  unfold execHello
  try dsimp only
  repeat' (first
    | (with_reducible assumption) | exact hw.of rfl | (with_reducible apply answerOps_keeps)
    | (with_reducible apply closeStream_keeps) | (with_reducible apply rTake_keeps)
    | (with_reducible apply State.updRport_keeps) | (with_reducible apply post_keeps)
    | (with_reducible apply OnNext.next) | (with_reducible apply OnNext.fault) | split)

theorem execRanoaLaneFailure_keeps {tch : List Field} {s0 : State} (port : Nat) (lane : Nat) (tx : Bool)
    (s : State) (hs : Keeps tch s0 s)
    (hw : Within [.link, .hub, .hfifo, .msix, .counted, .cdie, .hif,
    .rna] tch := by exact Within.of (by assumption) rfl) :
    OnNext (Keeps tch s0) (execRanoaLaneFailure port lane tx s) := by
  unfold execRanoaLaneFailure
  try dsimp only
  repeat' (first
    | (with_reducible assumption) | exact hw.of rfl | (with_reducible apply State.updRport_keeps)
    | (with_reducible apply losePort_keeps) | (with_reducible apply trainPort_keeps)
    | (with_reducible apply OnNext.next) | (with_reducible apply OnNext.fault) | split)

theorem getSend_keeps {tch : List Field} {s0 : State} (n : Nat) (p : Pkt) (c : Nat × Nat) (s : State)
    (hs : Keeps tch s0 s)
    (hw : Within [.rna] tch := by exact Within.of (by assumption) rfl) :
    Keeps tch s0 (getSend n p c s) := by
  unfold getSend
  try dsimp only
  repeat' (first
    | (with_reducible assumption) | exact hw.of rfl | (with_reducible apply sendR_keeps)
    | (with_reducible apply State.updRport_keeps) | split)

theorem ranoaArrive_keeps {tch : List Field} {s0 : State} (p : Pkt) (s : State) (hs : Keeps tch s0 s)
    (hw : Within [.link, .hub, .rna] tch := by exact Within.of (by assumption) rfl) :
    Keeps tch s0 (ranoaArrive p s) := by
  unfold ranoaArrive
  try dsimp only
  repeat' (first
    | (with_reducible assumption) | exact hw.of rfl | (with_reducible apply send_keeps)
    | (with_reducible apply ranoaErr_keeps) | (with_reducible apply getSend_keeps)
    | (with_reducible apply sendR_keeps) | (with_reducible apply State.updRport_keeps)
    | (with_reducible apply foldl_keeps) | split | (intro _; intros; try dsimp only))

theorem rCheckEvents_keeps {tch : List Field} {s0 : State} (port : Nat) (addrs : List Nat) (s : State)
    (hs : Keeps tch s0 s)
    (hw : Within [.hfifo, .msix, .cdie, .hif] tch := by exact Within.of (by assumption) rfl) :
    Keeps tch s0 (rCheckEvents port addrs s) := by
  unfold rCheckEvents
  try dsimp only
  repeat' (first
    | (with_reducible assumption) | exact hw.of rfl | (with_reducible apply evCheckword_keeps)
    | (with_reducible apply foldl_keeps) | split | (intro _; intros; try dsimp only))

theorem execGetData_keeps {tch : List Field} {s0 : State} (port : Nat) (r : RPkt) (s : State)
    (hs : Keeps tch s0 s)
    (hw : Within [.link, .hub, .hfifo, .msix, .cdie, .hif, .rna] tch := by exact Within.of (by assumption) rfl) :
    OnNext (Keeps tch s0) (execGetData port r s) := by
  unfold execGetData
  try dsimp only
  repeat' (first
    | (with_reducible assumption) | exact hw.of rfl | (with_reducible apply rTake_keeps)
    | (with_reducible apply rCheckEvents_keeps) | (with_reducible apply rGo_keeps)
    | (with_reducible apply respond_keeps) | (with_reducible apply State.updRport_keeps)
    | (with_reducible apply OnNext.next) | (with_reducible apply OnNext.fault) | split)

theorem execPutAck_keeps {tch : List Field} {s0 : State} (port : Nat) (r : RPkt) (s : State)
    (hs : Keeps tch s0 s)
    (hw : Within [.link, .hub, .rna] tch := by exact Within.of (by assumption) rfl) :
    OnNext (Keeps tch s0) (execPutAck port r s) := by
  unfold execPutAck
  try dsimp only
  repeat' (first
    | (with_reducible assumption) | exact hw.of rfl | (with_reducible apply State.updRport_keeps)
    | (with_reducible apply rTake_keeps) | (with_reducible apply respond_keeps) | (with_reducible apply foldl_keeps)
    | (with_reducible apply OnNext.next) | (with_reducible apply OnNext.fault) | split
    | (intro _; intros; try dsimp only))

theorem execErr_keeps {tch : List Field} {s0 : State} (port : Nat) (r : RPkt) (s : State)
    (hs : Keeps tch s0 s)
    (hw : Within [.link, .hub, .rna] tch := by exact Within.of (by assumption) rfl) :
    OnNext (Keeps tch s0) (execErr port r s) := by
  unfold execErr
  try dsimp only
  repeat' (first
    | (with_reducible assumption) | exact hw.of rfl | (with_reducible apply rTake_keeps)
    | (with_reducible apply rGo_keeps) | (with_reducible apply ranoaErr_keeps)
    | (with_reducible apply State.updRport_keeps) | (with_reducible apply OnNext.next)
    | (with_reducible apply OnNext.fault) | split)

theorem rLog_keeps {tch : List Field} {s0 : State} (port : Nat) (reason : Nat) (off : Nat) (s : State)
    (hs : Keeps tch s0 s)
    (hw : Within [.rna] tch := by exact Within.of (by assumption) rfl) :
    Keeps tch s0 (rLog port reason off s) := by
  unfold rLog
  try dsimp only
  repeat' (first
    | (with_reducible assumption) | exact hw.of rfl | (with_reducible apply withRna_keeps) | split)

theorem rRefuse_keeps {tch : List Field} {s0 : State} (port : Nat) (reason : Nat) (off : Nat) (tid : Nat)
    (psn : Nat) (s : State) (hs : Keeps tch s0 s)
    (hw : Within [.rna] tch := by exact Within.of (by assumption) rfl) :
    Keeps tch s0 (rRefuse port reason off tid psn s) := by
  unfold rRefuse
  try dsimp only
  repeat' (first
    | (with_reducible assumption) | exact hw.of rfl | (with_reducible apply sendR_keeps)
    | (with_reducible apply rLog_keeps) | split)

theorem rFault_keeps {tch : List Field} {s0 : State} (ctx : Nat) (dva : Nat) (reason : Nat) (level : Nat)
    (entry : Nat) (write : Bool) (s : State) (hs : Keeps tch s0 s)
    (hw : Within [.hfifo, .msix, .mem, .stack, .pool, .tier, .xlt, .cdie, .hif,
    .disp] tch := by exact Within.of (by assumption) rfl) :
    Keeps tch s0 (rFault ctx dva reason level entry write s) := by
  unfold rFault
  try dsimp only
  repeat' (first
    | (with_reducible assumption) | exact hw.of rfl | (with_reducible apply faultRecord_keeps) | split)

theorem ranoaXlt_keeps {tch : List Field} {s0 : State} (die : Nat) (ctx : Nat) (dva : Nat) (write : Bool)
    (s : State) (hs : Keeps tch s0 s)
    (hw : Within [.hfifo, .msix, .mem, .stack, .pool, .tier, .xlt, .cdie, .hif, .disp, .rna,
    .tile] tch := by exact Within.of (by assumption) rfl) :
    Keeps tch s0 (ranoaXlt die ctx dva write s).2 := by
  have hk := walkWhole_keeps ctx dva s hs (hw.of rfl)
  have use : ∀ (e : TlbEnt) (st : State), Keeps tch s0 st → Keeps tch s0 (match e.ans dva write with
      | .hit (.dev a) => ((match st.zone a with | .direct | .scratch _ => some a | _ => none, tlbNote (.ranoa die) e st) : Option Nat × State)
      | .fault r => (none, rFault ctx dva r (st.leafInfo ctx dva).1 (st.leafInfo ctx dva).2 write st)
      | _ => (none, st)).2 := by
    intro e st h
    split
    · have g := tlbNote_keeps (.ranoa die) e st h (hw.of rfl)
      split <;> exact g
    · exact rFault_keeps _ _ _ _ _ _ _ h (hw.of rfl)
    · exact h
  unfold ranoaXlt
  dsimp only
  split
  · exact rFault_keeps _ _ _ _ _ _ _ hs (hw.of rfl)
  · split
    · exact use _ _ hs
    · exact use _ _ (prefetchNext_keeps _ _ _ (withXlt_keeps hs _ (hw.of rfl)) (hw.of rfl))
    · split
      · rename_i e
        rw [e] at hk
        exact rFault_keeps _ _ _ _ _ _ _ hk (hw.of rfl)
      · exact Keeps.of_snd (by assumption) hk
      · rename_i e
        rw [e] at hk
        exact use _ _ (withXlt_keeps hk _ (hw.of rfl))

theorem ranoaPlaces_keeps {tch : List Field} {s0 : State} (die : Nat) (ctx : Nat) (write : Bool)
    (l : List Piece) (s : State) (hs : Keeps tch s0 s)
    (hw : Within [.hfifo, .msix, .mem, .stack, .pool, .tier, .xlt, .cdie, .hif, .disp, .rna,
    .tile] tch := by exact Within.of (by assumption) rfl) :
    Keeps tch s0 (ranoaPlaces die ctx write l s).2 := by
  unfold ranoaPlaces
  refine foldl_inv (fun (x : Option (List Piece) × State) => Keeps tch s0 x.2) _ (fun x p h => ?_) _ _ hs
  dsimp only
  split
  · exact h
  · exact ranoaXlt_keeps _ _ _ _ _ h

theorem putArrive_keeps {tch : List Field} {s0 : State} (port : Nat) (r : RPkt) (s : State)
    (hs : Keeps tch s0 s)
    (hw : Within [.link, .hub, .hfifo, .msix, .counted, .mem, .stack, .pool, .tier, .xlt, .cdie, .hif, .disp, .rna,
    .tile] tch := by exact Within.of (by assumption) rfl) :
    Keeps tch s0 (putArrive port r s) := by
  unfold putArrive
  try dsimp only
  repeat' (first
    | (with_reducible assumption) | exact hw.of rfl | (with_reducible apply State.updRport_keeps)
    | (with_reducible apply rTake_keeps) | (with_reducible apply rRefuse_keeps)
    | (with_reducible apply ranoaPlaces_keeps) | (with_reducible apply rCheckEvents_keeps)
    | (with_reducible apply withCounted_keeps) | (with_reducible apply withHif_keeps)
    | (with_reducible apply placeSendAs_keeps) | (with_reducible apply foldl_keeps)
    | (with_reducible refine Keeps.of_snd (by assumption) ?_) | split | dsimp only
    | (intro _; intros; try dsimp only))

theorem execRanoaPut_keeps {tch : List Field} {s0 : State} (port : Nat) (r : RPkt) (s : State)
    (hs : Keeps tch s0 s)
    (hw : Within [.link, .hub, .hfifo, .msix, .counted, .mem, .stack, .pool, .tier, .xlt, .cdie, .hif, .disp, .rna,
    .tile] tch := by exact Within.of (by assumption) rfl) :
    OnNext (Keeps tch s0) (execRanoaPut port r s) := by
  unfold execRanoaPut
  try dsimp only
  repeat' (first
    | (with_reducible assumption) | exact hw.of rfl | (with_reducible apply putArrive_keeps)
    | (with_reducible apply OnNext.next) | (with_reducible apply OnNext.fault) | split)

theorem execRanoaPutMasked_keeps {tch : List Field} {s0 : State} (port : Nat) (r : RPkt) (s : State)
    (hs : Keeps tch s0 s)
    (hw : Within [.link, .hub, .hfifo, .msix, .counted, .mem, .stack, .pool, .tier, .xlt, .cdie, .hif, .disp, .rna,
    .tile] tch := by exact Within.of (by assumption) rfl) :
    OnNext (Keeps tch s0) (execRanoaPutMasked port r s) := by
  unfold execRanoaPutMasked
  try dsimp only
  repeat' (first
    | (with_reducible assumption) | exact hw.of rfl | (with_reducible apply putArrive_keeps)
    | (with_reducible apply OnNext.next) | (with_reducible apply OnNext.fault) | split)

theorem getServe_keeps {tch : List Field} {s0 : State} (port : Nat) (psn : Nat) (r : RPkt) (s : State)
    (hs : Keeps tch s0 s)
    (hw : Within [.link, .hub, .hfifo, .msix, .mem, .stack, .pool, .tier, .xlt, .cdie, .hif, .disp, .rna,
    .tile] tch := by exact Within.of (by assumption) rfl) :
    Keeps tch s0 (getServe port psn r s) := by
  unfold getServe
  try dsimp only
  repeat' (first
    | (with_reducible assumption) | exact hw.of rfl | (with_reducible apply rRefuse_keeps)
    | (with_reducible apply rFree_keeps) | (with_reducible apply startWalk_keeps)
    | (with_reducible apply State.updRport_keeps) | (with_reducible apply ranoaPlaces_keeps)
    | (with_reducible apply requestAt_keeps) | (with_reducible apply foldl_keeps)
    | (with_reducible refine Keeps.of_snd (by assumption) ?_) | split | dsimp only
    | (intro _; intros; try dsimp only))

theorem getsGo_keeps {tch : List Field} {s0 : State} (port : Nat) (s : State) (hs : Keeps tch s0 s)
    (hw : Within [.link, .hub, .hfifo, .msix, .mem, .stack, .pool, .tier, .xlt, .cdie, .hif, .disp, .rna,
    .tile] tch := by exact Within.of (by assumption) rfl) :
    Keeps tch s0 (getsGo port s) := by
  unfold getsGo
  try dsimp only
  repeat' (first
    | (with_reducible assumption) | exact hw.of rfl | (with_reducible apply getServe_keeps)
    | (with_reducible apply State.updRport_keeps) | (with_reducible apply foldl_keeps) | split
    | (intro _; intros; try dsimp only))

theorem execGetReq_keeps {tch : List Field} {s0 : State} (port : Nat) (r : RPkt) (s : State)
    (hs : Keeps tch s0 s)
    (hw : Within [.link, .hub, .hfifo, .msix, .mem, .stack, .pool, .tier, .xlt, .cdie, .hif, .disp, .rna,
    .tile] tch := by exact Within.of (by assumption) rfl) :
    OnNext (Keeps tch s0) (execGetReq port r s) := by
  unfold execGetReq
  try dsimp only
  repeat' (first
    | (with_reducible assumption) | exact hw.of rfl | (with_reducible apply getsGo_keeps)
    | (with_reducible apply State.updRport_keeps) | (with_reducible apply rAck_keeps)
    | (with_reducible apply OnNext.next) | (with_reducible apply OnNext.fault) | split)

theorem getAnswer_keeps {tch : List Field} {s0 : State} (port : Nat) (tid : Nat) (off : Nat)
    (data : List Byte) (poison : Bool) (err : Bool) (s : State) (hs : Keeps tch s0 s)
    (hw : Within [.rna] tch := by exact Within.of (by assumption) rfl) :
    Keeps tch s0 (getAnswer port tid off data poison err s) := by
  unfold getAnswer
  try dsimp only
  repeat' (first
    | (with_reducible assumption) | exact hw.of rfl | (with_reducible apply State.updRport_keeps)
    | (with_reducible apply rRefuse_keeps) | (with_reducible apply sendR_keeps) | split)

theorem execPutAckSend_keeps {tch : List Field} {s0 : State} (port : Nat) (s : State) (hs : Keeps tch s0 s)
    (hw : Within [.rna] tch := by exact Within.of (by assumption) rfl) :
    OnNext (Keeps tch s0) (execPutAckSend port s) := by
  unfold execPutAckSend
  try dsimp only
  repeat' (first
    | (with_reducible assumption) | exact hw.of rfl | (with_reducible apply sendR_keeps)
    | (with_reducible apply State.updRport_keeps) | (with_reducible apply OnNext.next)
    | (with_reducible apply OnNext.fault) | split)

theorem execArrivalCountAdd_keeps {tch : List Field} {s0 : State} (id : Nat) (s : State) (hs : Keeps tch s0 s)
    (hw : Within [.link, .hub, .hfifo, .msix, .sync, .counted, .mem, .stack, .pool, .tier, .xlt, .cdie, .hif, .disp,
    .rna, .tile] tch := by exact Within.of (by assumption) rfl) :
    OnNext (Keeps tch s0) (execArrivalCountAdd id s) := by
  unfold execArrivalCountAdd
  try dsimp only
  repeat' (first
    | (with_reducible assumption) | exact hw.of rfl | (with_reducible apply withCounted_keeps)
    | (with_reducible apply syncSendAdd_keeps) | (with_reducible apply getsGo_keeps)
    | (with_reducible apply OnNext.next) | (with_reducible apply OnNext.fault) | split)

theorem countedAck_keeps {tch : List Field} {s0 : State} (n : Nat) (s : State) (hs : Keeps tch s0 s)
    (hw : Within [.link, .hub, .hfifo, .msix, .counted, .mem, .stack, .pool, .tier, .xlt, .cdie, .hif, .disp, .rna,
    .tile] tch := by exact Within.of (by assumption) rfl) :
    Keeps tch s0 (countedAck n s) := by
  unfold countedAck
  try dsimp only
  repeat' (first
    | (with_reducible assumption) | exact hw.of rfl | (with_reducible apply withCounted_keeps)
    | (with_reducible apply getsGo_keeps) | split)

theorem countedErr_keeps {tch : List Field} {s0 : State} (n : Nat) (s : State) (hs : Keeps tch s0 s)
    (hw : Within [.link, .hub, .hfifo, .msix, .counted, .mem, .stack, .pool, .tier, .xlt, .cdie, .hif, .disp, .rna,
    .tile] tch := by exact Within.of (by assumption) rfl) :
    Keeps tch s0 (countedErr n s) := by
  unfold countedErr
  try dsimp only
  repeat' (first
    | (with_reducible assumption) | exact hw.of rfl | (with_reducible apply withCounted_keeps)
    | (with_reducible apply getsGo_keeps) | (with_reducible apply rRefuse_keeps) | split)

theorem execRnaWoffValidSet_keeps {tch : List Field} {s0 : State} (who : Agent) (i : Nat) (v : Word)
    (s : State) (hs : Keeps tch s0 s)
    (hw : Within [.hfifo, .msix, .cdie, .hif, .regs] tch := by exact Within.of (by assumption) rfl) :
    OnNext (Keeps tch s0) (execRnaWoffValidSet who i v s) := by
  unfold execRnaWoffValidSet
  try dsimp only
  repeat' (first
    | (with_reducible assumption) | exact hw.of rfl | (with_reducible apply pfWrite_keeps)
    | (with_reducible apply State.setReg_keeps) | (with_reducible apply setupRefused_keeps)
    | (with_reducible apply OnNext.next) | (with_reducible apply OnNext.fault) | split
    | (intro _; intros; try dsimp only))

theorem execRnaWoffValidClear_keeps {tch : List Field} {s0 : State} (who : Agent) (i : Nat) (s : State)
    (hs : Keeps tch s0 s)
    (hw : Within [.hfifo, .msix, .cdie, .hif, .rna, .regs] tch := by exact Within.of (by assumption) rfl) :
    OnNext (Keeps tch s0) (execRnaWoffValidClear who i s) := by
  unfold execRnaWoffValidClear
  try dsimp only
  repeat' (first
    | (with_reducible assumption) | exact hw.of rfl | (with_reducible apply pfWrite_keeps)
    | (with_reducible apply State.setReg_keeps) | (with_reducible apply withRna_keeps)
    | (with_reducible apply OnNext.next) | (with_reducible apply OnNext.fault) | split
    | (intro _; intros; try dsimp only))

theorem execRanoaWindowDrainDone_keeps {tch : List Field} {s0 : State} (i : Nat) (s : State)
    (hs : Keeps tch s0 s)
    (hw : Within [.rna] tch := by exact Within.of (by assumption) rfl) :
    OnNext (Keeps tch s0) (execRanoaWindowDrainDone i s) := by
  unfold execRanoaWindowDrainDone
  try dsimp only
  repeat' (first
    | (with_reducible assumption) | exact hw.of rfl | (with_reducible apply withRna_keeps)
    | (with_reducible apply OnNext.next) | (with_reducible apply OnNext.fault) | split)

theorem execRnaLogRead_keeps {tch : List Field} {s0 : State} (who : Agent) (s : State) (hs : Keeps tch s0 s)
    (hw : Within [.hfifo, .msix, .cdie, .hif, .rna, .replies] tch := by exact Within.of (by assumption) rfl) :
    OnNext (Keeps tch s0) (execRnaLogRead who s) := by
  unfold execRnaLogRead
  try dsimp only
  repeat' (first
    | (with_reducible assumption) | exact hw.of rfl | (with_reducible apply reply_keeps)
    | (with_reducible apply withRna_keeps) | (with_reducible apply post_keeps)
    | (with_reducible apply shutRead_keeps) | (with_reducible apply OnNext.next)
    | (with_reducible apply OnNext.fault) | split)

theorem execRnaPerrRead_keeps {tch : List Field} {s0 : State} (who : Agent) (port : Nat) (s : State)
    (hs : Keeps tch s0 s)
    (hw : Within [.rna, .replies] tch := by exact Within.of (by assumption) rfl) :
    OnNext (Keeps tch s0) (execRnaPerrRead who port s) := by
  unfold execRnaPerrRead
  try dsimp only
  repeat' (first
    | (with_reducible assumption) | exact hw.of rfl | (with_reducible apply State.updRport_keeps)
    | (with_reducible apply reply_keeps) | (with_reducible apply shutRead_keeps) | (with_reducible apply OnNext.next)
    | (with_reducible apply OnNext.fault) | split)

theorem ranoaFails_keeps {tch : List Field} {s0 : State} (die : Nat) (cause : Nat) (s : State)
    (hs : Keeps tch s0 s)
    (hw : Within [.glb, .repair, .boot, .link, .hub, .hfifo, .msix, .sync, .counted, .xlt, .cdie, .hif, .disp, .rna,
    .pwr, .tile] tch := by exact Within.of (by assumption) rfl) :
    Keeps tch s0 (ranoaFails die cause s) := by
  unfold ranoaFails
  try dsimp only
  repeat' (first
    | (with_reducible assumption) | exact hw.of rfl | (with_reducible apply State.updRport_keeps)
    | (with_reducible apply losePort_keeps) | (with_reducible apply dieFailed_keeps)
    | (with_reducible apply foldl_keeps) | split | (intro _; intros; try dsimp only))

theorem execRanoaDieFailure_keeps {tch : List Field} {s0 : State} (die : Nat) (s : State)
    (hs : Keeps tch s0 s)
    (hw : Within [.glb, .repair, .boot, .link, .hub, .hfifo, .msix, .sync, .counted, .xlt, .cdie, .hif, .disp, .rna,
    .pwr, .tile] tch := by exact Within.of (by assumption) rfl) :
    OnNext (Keeps tch s0) (execRanoaDieFailure die s) := by
  unfold execRanoaDieFailure
  try dsimp only
  repeat' (first
    | (with_reducible assumption) | exact hw.of rfl | (with_reducible apply ranoaFails_keeps)
    | (with_reducible apply OnNext.next) | (with_reducible apply OnNext.fault) | split)

end Sys2Proof.Machine
end

