-- ==== Sys2Proof/Laws/KeepsMemory.lean ====
section
/-!
SUPPORT. What every operation of the pool, the stacks, the deep tier and the core accesses keeps (Keeps, Laws/Next.lean):
one law per operation.
-/
namespace Sys2Proof.Machine
set_option Elab.async false

theorem useLine_keeps {tch : List Field} {s0 : State} (d : Nat) (n : Nat) (s : State) (hs : Keeps tch s0 s)
    (hw : Within [.pool] tch := by exact Within.of (by assumption) rfl) :
    Keeps tch s0 (useLine d n s) := by
  unfold useLine
  try dsimp only
  repeat' (first
    | (with_reducible assumption) | exact hw.of rfl | (with_reducible apply State.updPool_keeps) | split)

theorem setLine_keeps {tch : List Field} {s0 : State} (d : Nat) (n : Nat) (l : PLine) (s : State)
    (hs : Keeps tch s0 s)
    (hw : Within [.pool] tch := by exact Within.of (by assumption) rfl) :
    Keeps tch s0 (setLine d n l s) := by
  unfold setLine
  try dsimp only
  repeat' (first
    | (with_reducible assumption) | exact hw.of rfl | (with_reducible apply State.updPool_keeps)
    | (with_reducible apply useLine_keeps) | split)

theorem writeBackLine_keeps {tch : List Field} {s0 : State} (d : Nat) (n : Nat) (s : State)
    (hs : Keeps tch s0 s)
    (hw : Within [.mem, .stack, .pool, .tier] tch := by exact Within.of (by assumption) rfl) :
    Keeps tch s0 (writeBackLine d n s) := by
  unfold writeBackLine
  try dsimp only
  repeat' (first
    | (with_reducible assumption) | exact hw.of rfl | (with_reducible apply touchFrame_keeps)
    | (with_reducible apply storeSector_keeps) | (with_reducible apply clearMark_keeps)
    | (with_reducible apply setLine_keeps) | split)

theorem fetchBack_keeps {tch : List Field} {s0 : State} (n : Nat) (s : State) (hs : Keeps tch s0 s)
    (hw : Within [.mem, .stack, .pool, .tier, .cdie] tch := by exact Within.of (by assumption) rfl) :
    Keeps tch s0 (fetchBack n s) := by
  unfold fetchBack
  try dsimp only
  repeat' (first
    | (with_reducible assumption) | exact hw.of rfl | (with_reducible apply touchFrame_keeps)
    | (with_reducible apply storeSector_keeps) | (with_reducible apply dropCopies_keeps) | split)

theorem evictLine_keeps {tch : List Field} {s0 : State} (d : Nat) (n : Nat) (s : State) (hs : Keeps tch s0 s)
    (hw : Within [.mem, .stack, .pool, .tier, .cdie] tch := by exact Within.of (by assumption) rfl) :
    Keeps tch s0 (evictLine d n s) := by
  unfold evictLine
  try dsimp only
  repeat' (first
    | (with_reducible assumption) | exact hw.of rfl | (with_reducible apply setLine_keeps)
    | (with_reducible apply fetchBack_keeps) | (with_reducible apply writeBackLine_keeps) | split)

theorem makeRoom_keeps {tch : List Field} {s0 : State} (d : Nat) (n : Nat) (own : List Nat)
    (plan : List Nat) (s : State) (hs : Keeps tch s0 s)
    (hw : Within [.mem, .stack, .pool, .tier, .cdie] tch := by exact Within.of (by assumption) rfl) :
    Keeps tch s0 (makeRoom d n own plan s).1 := by
  unfold makeRoom
  try dsimp only
  repeat' (first
    | (with_reducible assumption) | exact hw.of rfl | (with_reducible apply evictLine_keeps) | split)

theorem roomFor_keeps {tch : List Field} {s0 : State} (d : Nat) (own : List Nat) (z1 : List Nat)
    (z2 : List Nat) (z3 : State) (hs : Keeps tch s0 z3)
    (hw : Within [.mem, .stack, .pool, .tier, .cdie] tch := by exact Within.of (by assumption) rfl) :
    Keeps tch s0 (roomFor d own z1 z2 z3).1 := by
  induction z2 generalizing z1 z3 with
  | nil => exact hs
  | cons n l ih =>
    have g := makeRoom_keeps d n own z1 z3 hs (hw.of rfl)
    unfold roomFor
    split
    · exact ih _ _ (Keeps.of_fst (by assumption) g)
    · exact Keeps.of_fst (by assumption) g

theorem cleanUnit_keeps {tch : List Field} {s0 : State} (d : Nat) (u : Nat) (s : State) (hs : Keeps tch s0 s)
    (hw : Within [.mem, .stack, .pool, .tier] tch := by exact Within.of (by assumption) rfl) :
    Keeps tch s0 (cleanUnit d u s) := by
  unfold cleanUnit
  try dsimp only
  repeat' (first
    | (with_reducible assumption) | exact hw.of rfl | (with_reducible apply writeBackLine_keeps)
    | (with_reducible apply foldl_keeps) | split | (intro _; intros; try dsimp only))

theorem poolCodes_keeps {tch : List Field} {s0 : State} (d : Nat) (e : DramErr) (secs : List Nat)
    (s : State) (hs : Keeps tch s0 s)
    (hw : Within [.hfifo, .msix, .pool, .cdie, .hif] tch := by exact Within.of (by assumption) rfl) :
    Keeps tch s0 (poolCodes d e secs s) := by
  unfold poolCodes
  try dsimp only
  repeat' (first
    | (with_reducible assumption) | exact hw.of rfl | (with_reducible apply post_keeps)
    | (with_reducible apply poolUncorr_keeps) | (with_reducible apply setLine_keeps)
    | (with_reducible apply foldl_keeps) | split | (intro _; intros; try dsimp only))

theorem poolRead_keeps {tch : List Field} {s0 : State} (d : Nat) (p : Pkt) (e : DramErr) (s : State)
    (hs : Keeps tch s0 s)
    (hw : Within [.link, .hub, .hfifo, .msix, .pool, .tier, .cdie,
    .hif] tch := by exact Within.of (by assumption) rfl) :
    Keeps tch s0 (poolRead d p e s) := by
  unfold poolRead
  try dsimp only
  repeat' (first
    | (with_reducible assumption) | exact hw.of rfl | (with_reducible apply poolCodes_keeps)
    | (with_reducible apply useLine_keeps) | (with_reducible apply touchFrame_keeps)
    | (with_reducible apply sendPieces_keeps) | (with_reducible apply respond_keeps)
    | (with_reducible apply foldl_keeps) | split | (intro _; intros; try dsimp only))

theorem poolPut_keeps {tch : List Field} {s0 : State} (d : Nat) (poison : Bool) (z1 : Nat) (z2 : Nat)
    (z3 : List Byte) (z4 : List (BitVec 32)) (z5 : State) (hs : Keeps tch s0 z5)
    (hw : Within [.pool] tch := by exact Within.of (by assumption) rfl) :
    Keeps tch s0 (poolPut d poison z1 z2 z3 z4 z5) := by
  induction z1 generalizing z2 z3 z4 z5 with
  | zero => exact hs
  | succ n ih =>
    unfold poolPut
    dsimp only
    repeat' (first
      | (with_reducible refine ih _ _ _ _ ?_)
      | (with_reducible assumption)
      | exact hw.of rfl
      | exact rfl
      | exact Nat.le_refl _
      | exact Nat.le_succ _
      | (with_reducible apply makeRoom_keeps)
      | (with_reducible apply setLine_keeps)
      | split
      | (intro _; intros; try dsimp only))

theorem poolWrite_keeps {tch : List Field} {s0 : State} (d : Nat) (p : Pkt) (s : State) (hs : Keeps tch s0 s)
    (hw : Within [.link, .hub, .pool, .tier, .disp] tch := by exact Within.of (by assumption) rfl) :
    Keeps tch s0 (poolWrite d p s) := by
  unfold poolWrite
  try dsimp only
  repeat' (first
    | (with_reducible assumption) | exact hw.of rfl | (with_reducible apply touchFrame_keeps)
    | (with_reducible apply poolPut_keeps) | (with_reducible apply respond_keeps)
    | (with_reducible apply notifyRings_keeps) | split)

theorem poolMasked_keeps {tch : List Field} {s0 : State} (d : Nat) (p : Pkt) (e : DramErr) (s : State)
    (hs : Keeps tch s0 s)
    (hw : Within [.link, .hub, .hfifo, .msix, .pool, .tier, .cdie, .hif,
    .disp] tch := by exact Within.of (by assumption) rfl) :
    Keeps tch s0 (poolMasked d p e s) := by
  unfold poolMasked
  try dsimp only
  repeat' (first
    | (with_reducible assumption) | exact hw.of rfl | (with_reducible apply respond_keeps)
    | (with_reducible apply poolCodes_keeps) | (with_reducible apply evCheckword_keeps)
    | (with_reducible apply poolUncorr_keeps) | (with_reducible apply touchFrame_keeps)
    | (with_reducible apply setLine_keeps) | (with_reducible apply notifyRings_keeps) | split)

theorem poolForward_keeps {tch : List Field} {s0 : State} (d : Nat) (p : Pkt) (s : State)
    (hs : Keeps tch s0 s)
    (hw : Within [.link, .hub, .pool] tch := by exact Within.of (by assumption) rfl) :
    Keeps tch s0 (poolForward d p s) := by
  unfold poolForward
  try dsimp only
  repeat' (first
    | (with_reducible assumption) | exact hw.of rfl | (with_reducible apply request_keeps)
    | (with_reducible apply State.updPool_keeps) | split)

theorem poolBack_keeps {tch : List Field} {s0 : State} (d : Nat) (s : State) (hs : Keeps tch s0 s)
    (hw : Within [.pool] tch := by exact Within.of (by assumption) rfl) :
    Keeps tch s0 (poolBack d s) := by
  unfold poolBack
  try dsimp only
  repeat' (first
    | (with_reducible assumption) | exact hw.of rfl | (with_reducible apply State.updPool_keeps) | split)

theorem poolHold_keeps {tch : List Field} {s0 : State} (d : Nat) (p : Pkt) (e : DramErr) (s : State)
    (hs : Keeps tch s0 s)
    (hw : Within [.pool] tch := by exact Within.of (by assumption) rfl) :
    Keeps tch s0 (poolHold d p e s) := by
  unfold poolHold
  try dsimp only
  repeat' (first
    | (with_reducible assumption) | exact hw.of rfl | (with_reducible apply State.updPool_keeps) | split)

theorem poolOver_keeps {tch : List Field} {s0 : State} (d : Nat) (p : Pkt) (e : DramErr) (s : State)
    (hs : Keeps tch s0 s)
    (hw : Within [.link, .hub, .mem, .stack, .pool, .tier, .cdie] tch := by exact Within.of (by assumption) rfl) :
    Keeps tch s0 (poolOver d p e s) := by
  unfold poolOver
  try dsimp only
  repeat' (first
    | (with_reducible assumption) | exact hw.of rfl | (with_reducible apply roomFor_keeps)
    | (with_reducible apply poolForward_keeps) | (with_reducible apply setLine_keeps)
    | (with_reducible apply poolHold_keeps) | (with_reducible apply State.updPool_keeps)
    | (with_reducible apply foldl_keeps) | (with_reducible refine Keeps.of_fst (by assumption) ?_) | split
    | (intro _; intros; try dsimp only))

theorem poolMark_keeps {tch : List Field} {s0 : State} (d : Nat) (p : Pkt) (e : DramErr) (k : State → State)
    (s : State) (hs : Keeps tch s0 s) (hk : ∀ u, Keeps tch s0 u → Keeps tch s0 (k u))
    (hw : Within [.mem, .stack, .pool, .tier] tch := by exact Within.of (by assumption) rfl) :
    Keeps tch s0 (poolMark d p e k s) := by
  unfold poolMark
  try dsimp only
  repeat' (first
    | (with_reducible assumption) | exact hw.of rfl | (with_reducible apply cleanUnit_keeps)
    | (with_reducible apply poolHold_keeps) | (with_reducible apply State.updPool_keeps) | (with_reducible apply hk)
    | (with_reducible apply foldl_keeps) | split | (intro _; intros; try dsimp only))

theorem poolStart_keeps {tch : List Field} {s0 : State} (d : Nat) (p : Pkt) (e : DramErr) (s : State)
    (hs : Keeps tch s0 s)
    (hw : Within [.link, .hub, .hfifo, .msix, .mem, .stack, .pool, .tier, .cdie, .hif,
    .disp] tch := by exact Within.of (by assumption) rfl) :
    Keeps tch s0 (poolStart d p e s) := by
  unfold poolStart
  try dsimp only
  repeat' (first
    | (with_reducible assumption) | exact hw.of rfl | (with_reducible apply poolHold_keeps)
    | (with_reducible apply poolOver_keeps) | (with_reducible apply roomFor_keeps)
    | (with_reducible apply State.updPool_keeps) | (with_reducible apply poolMark_keeps)
    | (with_reducible apply poolWrite_keeps) | (with_reducible apply poolMasked_keeps)
    | (with_reducible apply poolRead_keeps) | (with_reducible apply foldl_keeps)
    | (with_reducible refine Keeps.of_fst (by assumption) ?_) | split | (intro _; intros; try dsimp only))

theorem poolRetry_keeps {tch : List Field} {s0 : State} (d : Nat) (s : State) (hs : Keeps tch s0 s)
    (hw : Within [.link, .hub, .hfifo, .msix, .mem, .stack, .pool, .tier, .cdie, .hif,
    .disp] tch := by exact Within.of (by assumption) rfl) :
    Keeps tch s0 (poolRetry d s) := by
  unfold poolRetry
  try dsimp only
  repeat' (first
    | (with_reducible assumption) | exact hw.of rfl | (with_reducible apply poolStart_keeps)
    | (with_reducible apply State.updPool_keeps) | (with_reducible apply foldl_keeps) | split
    | (intro _; intros; try dsimp only))

theorem poolsGo_keeps {tch : List Field} {s0 : State} (s : State) (hs : Keeps tch s0 s)
    (hw : Within [.link, .hub, .hfifo, .msix, .mem, .stack, .pool, .tier, .cdie, .hif,
    .disp] tch := by exact Within.of (by assumption) rfl) :
    Keeps tch s0 (poolsGo s) := by
  unfold poolsGo
  try dsimp only
  repeat' (first
    | (with_reducible assumption) | exact hw.of rfl | (with_reducible apply poolRetry_keeps)
    | (with_reducible apply foldl_keeps) | split | (intro _; intros; try dsimp only))

theorem poolArrive_keeps {tch : List Field} {s0 : State} (p : Pkt) (e : DramErr) (s : State)
    (hs : Keeps tch s0 s)
    (hw : Within [.link, .hub, .hfifo, .msix, .mem, .stack, .pool, .tier, .cdie, .hif,
    .disp] tch := by exact Within.of (by assumption) rfl) :
    Keeps tch s0 (poolArrive p e s) := by
  unfold poolArrive
  try dsimp only
  repeat' (first
    | (with_reducible assumption) | exact hw.of rfl | (with_reducible apply cohArrive_keeps)
    | (with_reducible apply homeStart_keeps) | (with_reducible apply refuseHome_keeps)
    | (with_reducible apply poolStart_keeps) | (with_reducible apply redirect_keeps) | split)

theorem execPoolFillDone_keeps {tch : List Field} {s0 : State} (die : Nat) (sector : Nat) (s : State)
    (hs : Keeps tch s0 s)
    (hw : Within [.link, .hub, .hfifo, .msix, .mem, .stack, .pool, .tier, .cdie, .hif,
    .disp] tch := by exact Within.of (by assumption) rfl) :
    OnNext (Keeps tch s0) (execPoolFillDone die sector s) := by
  unfold execPoolFillDone
  try dsimp only
  repeat' (first
    | (with_reducible assumption) | exact hw.of rfl | (with_reducible apply readCodes_keeps)
    | (with_reducible apply State.updPool_keeps) | (with_reducible apply poolRetry_keeps)
    | (with_reducible apply setLine_keeps) | (with_reducible apply touchFrame_keeps)
    | (with_reducible apply OnNext.next) | (with_reducible apply OnNext.fault) | split)

theorem execPoolHandbackDone_keeps {tch : List Field} {s0 : State} (die : Nat) (sector : Nat) (s : State)
    (hs : Keeps tch s0 s)
    (hw : Within [.link, .hub, .hfifo, .msix, .mem, .stack, .pool, .tier, .cdie, .hif,
    .disp] tch := by exact Within.of (by assumption) rfl) :
    OnNext (Keeps tch s0) (execPoolHandbackDone die sector s) := by
  unfold execPoolHandbackDone
  try dsimp only
  repeat' (first
    | (with_reducible assumption) | exact hw.of rfl | (with_reducible apply writeBackLine_keeps)
    | (with_reducible apply poolRetry_keeps) | (with_reducible apply setLine_keeps)
    | (with_reducible apply State.updPool_keeps) | (with_reducible apply OnNext.next)
    | (with_reducible apply OnNext.fault) | split)

theorem execPoolDirtyMarkDone_keeps {tch : List Field} {s0 : State} (die : Nat) (unit : Nat) (s : State)
    (hs : Keeps tch s0 s)
    (hw : Within [.link, .hub, .hfifo, .msix, .mem, .stack, .pool, .tier, .cdie, .hif,
    .disp] tch := by exact Within.of (by assumption) rfl) :
    OnNext (Keeps tch s0) (execPoolDirtyMarkDone die unit s) := by
  unfold execPoolDirtyMarkDone
  try dsimp only
  repeat' (first
    | (with_reducible assumption) | exact hw.of rfl | (with_reducible apply State.updPool_keeps)
    | (with_reducible apply poolRetry_keeps) | (with_reducible apply State.updStack_keeps)
    | (with_reducible apply OnNext.next) | (with_reducible apply OnNext.fault) | split)

theorem loseMarks_keeps {tch : List Field} {s0 : State} (d : Nat) (h : Nat) (s : State) (hs : Keeps tch s0 s)
    (hw : Within [.hfifo, .msix, .mem, .stack, .cdie, .hif] tch := by exact Within.of (by assumption) rfl) :
    Keeps tch s0 (loseMarks d h s) := by
  unfold loseMarks
  try dsimp only
  repeat' (first
    | (with_reducible assumption) | exact hw.of rfl | (with_reducible apply withMem_keeps)
    | (with_reducible apply State.updStack_keeps) | (with_reducible apply post_keeps)
    | (with_reducible apply foldl_keeps) | (with_reducible apply RamOk.rfl') | (with_reducible apply RamOk_empty)
    | (with_reducible apply RamOk_poisonRange) | split | (intro _; intros; try dsimp only))

theorem dropScratch_keeps {tch : List Field} {s0 : State} (d : Nat) (s : State) (hs : Keeps tch s0 s)
    (hw : Within [.pool, .cdie] tch := by exact Within.of (by assumption) rfl) :
    Keeps tch s0 (dropScratch d s) := by
  unfold dropScratch
  try dsimp only
  repeat' (first
    | (with_reducible assumption) | exact hw.of rfl | (with_reducible apply State.updCdie_keeps)
    | (with_reducible apply State.updPool_keeps) | (with_reducible apply foldl_keeps) | split
    | (intro _; intros; try dsimp only))

theorem poolDown_keeps {tch : List Field} {s0 : State} (die : Nat) (s : State) (hs : Keeps tch s0 s)
    (hw : Within [.hfifo, .msix, .mem, .stack, .pool, .cdie, .hif] tch := by exact Within.of (by assumption) rfl) :
    Keeps tch s0 (poolDown die s) := by
  unfold poolDown
  try dsimp only
  repeat' (first
    | (with_reducible assumption) | exact hw.of rfl | (with_reducible apply loseMarks_keeps)
    | (with_reducible apply State.updPool_keeps) | (with_reducible apply dropScratch_keeps)
    | (with_reducible apply foldl_keeps) | split | (intro _; intros; try dsimp only))

theorem repool_keeps {tch : List Field} {s0 : State} (s : State) (hs : Keeps tch s0 s)
    (hw : Within [.link, .hub, .mem, .stack, .pool, .tier, .cdie] tch := by exact Within.of (by assumption) rfl) :
    Keeps tch s0 (repool s) := by
  unfold repool
  try dsimp only
  repeat' (first
    | (with_reducible assumption) | exact hw.of rfl | (with_reducible apply State.updPool_keeps)
    | (with_reducible apply touchFrame_keeps) | (with_reducible apply storeSector_keeps)
    | (with_reducible apply fetchBack_keeps) | (with_reducible apply clearMark_keeps)
    | (with_reducible apply redirect_keeps) | (with_reducible apply foldl_keeps) | split
    | (intro _; intros; try dsimp only))

theorem poolLost_keeps {tch : List Field} {s0 : State} (die : Nat) (s : State) (hs : Keeps tch s0 s)
    (hw : Within [.link, .hub, .hfifo, .msix, .mem, .stack, .pool, .tier, .cdie,
    .hif] tch := by exact Within.of (by assumption) rfl) :
    Keeps tch s0 (poolLost die s) := by
  unfold poolLost
  try dsimp only
  repeat' (first
    | (with_reducible assumption) | exact hw.of rfl | (with_reducible apply repool_keeps)
    | (with_reducible apply State.updPool_keeps) | (with_reducible apply poolDown_keeps) | split)

theorem execPoolDieFailure_keeps {tch : List Field} {s0 : State} (die : Nat) (s : State) (hs : Keeps tch s0 s)
    (hw : Within [.glb, .link, .hub, .hfifo, .msix, .sync, .mem, .stack, .pool, .cdie, .hif,
    .pwr] tch := by exact Within.of (by assumption) rfl) :
    OnNext (Keeps tch s0) (execPoolDieFailure die s) := by
  unfold execPoolDieFailure
  try dsimp only
  repeat' (first
    | (with_reducible assumption) | exact hw.of rfl | (with_reducible apply poolDown_keeps)
    | (with_reducible apply fencePort_keeps) | (with_reducible apply OnNext.next)
    | (with_reducible apply OnNext.fault) | split)

theorem poisonScratch_keeps {tch : List Field} {s0 : State} (d : Nat) (s : State) (hs : Keeps tch s0 s)
    (hw : Within [.mem] tch := by exact Within.of (by assumption) rfl) :
    Keeps tch s0 (poisonScratch d s) := by
  unfold poisonScratch
  try dsimp only
  repeat' (first
    | (with_reducible assumption) | exact hw.of rfl | (with_reducible apply withMem_keeps)
    | (with_reducible apply RamOk.rfl') | (with_reducible apply RamOk_empty)
    | (with_reducible apply RamOk_poisonRange) | split | (intro _; intros; try dsimp only))

theorem execPoolDieRecoveryDone_keeps {tch : List Field} {s0 : State} (die : Nat) (ok : Bool) (s : State)
    (hs : Keeps tch s0 s)
    (hw : Within [.glb, .repair, .boot, .link, .hub, .hfifo, .msix, .sync, .mem, .stack, .pool, .tier, .xlt, .cdie,
    .hif, .disp, .pwr, .tile] tch := by exact Within.of (by assumption) rfl) :
    OnNext (Keeps tch s0) (execPoolDieRecoveryDone die ok s) := by
  unfold execPoolDieRecoveryDone
  try dsimp only
  repeat' (first
    | (with_reducible assumption) | exact hw.of rfl | (with_reducible apply unfence_keeps)
    | (with_reducible apply poisonScratch_keeps) | (with_reducible apply State.updPool_keeps)
    | (with_reducible apply dieFailed_keeps) | (with_reducible apply poolLost_keeps)
    | (with_reducible apply OnNext.next) | (with_reducible apply OnNext.fault) | split)

theorem execReadWaitTurnTimeout_keeps {tch : List Field} {s0 : State} (stack : Nat) (pc : Nat) (s : State)
    (hs : Keeps tch s0 s)
    (hw : Within [.stack] tch := by exact Within.of (by assumption) rfl) :
    OnNext (Keeps tch s0) (execReadWaitTurnTimeout stack pc s) := by
  unfold execReadWaitTurnTimeout
  try dsimp only
  repeat' (first
    | (with_reducible assumption) | exact hw.of rfl | (with_reducible apply State.updStack_keeps)
    | (with_reducible apply OnNext.next) | (with_reducible apply OnNext.fault) | split)

theorem execRefresh_keeps {tch : List Field} {s0 : State} (stack : Nat) (pc : Nat) (bank : Nat) (s : State)
    (hs : Keeps tch s0 s)
    (hw : Within [.stack] tch := by exact Within.of (by assumption) rfl) :
    OnNext (Keeps tch s0) (execRefresh stack pc bank s) := by
  unfold execRefresh
  try dsimp only
  repeat' (first
    | (with_reducible assumption) | exact hw.of rfl | (with_reducible apply State.updStack_keeps)
    | (with_reducible apply OnNext.next) | (with_reducible apply OnNext.fault) | split)

theorem execPatrolScrub_keeps {tch : List Field} {s0 : State} (stack : Nat) (e : DramErr) (s : State)
    (hs : Keeps tch s0 s)
    (hw : Within [.hfifo, .msix, .mem, .stack, .pool, .cdie, .hif] tch := by exact Within.of (by assumption) rfl) :
    OnNext (Keeps tch s0) (execPatrolScrub stack e s) := by
  unfold execPatrolScrub
  try dsimp only
  repeat' (first
    | (with_reducible assumption) | exact hw.of rfl | (with_reducible apply readCodes_keeps)
    | (with_reducible apply State.updStack_keeps) | (with_reducible apply OnNext.next)
    | (with_reducible apply OnNext.fault) | split)

theorem execStackTempSample_keeps {tch : List Field} {s0 : State} (stack : Nat) (temp : Nat) (s : State)
    (hs : Keeps tch s0 s)
    (hw : Within [.glb, .boot, .ivory, .link, .hub, .hfifo, .msix, .sync, .counted, .mem, .stack, .memc, .pool,
    .tier, .xlt, .core, .cdie, .hif, .sess, .disp, .rna, .pwr, .tile, .regs,
    .time] tch := by exact Within.of (by assumption) rfl) :
    OnNext (Keeps tch s0) (execStackTempSample stack temp s) := by
  unfold execStackTempSample
  try dsimp only
  repeat' (first
    | (with_reducible assumption) | exact hw.of rfl | (with_reducible apply State.updStack_keeps)
    | (with_reducible apply post_keeps) | (with_reducible apply thermTrip_keeps) | (with_reducible apply OnNext.next)
    | (with_reducible apply OnNext.fault) | split)

theorem execMemErrRead_keeps {tch : List Field} {s0 : State} (who : Agent) (stack : Nat) (s : State)
    (hs : Keeps tch s0 s)
    (hw : Within [.stack, .replies] tch := by exact Within.of (by assumption) rfl) :
    OnNext (Keeps tch s0) (execMemErrRead who stack s) := by
  unfold execMemErrRead
  try dsimp only
  repeat' (first
    | (with_reducible assumption) | exact hw.of rfl | (with_reducible apply State.updStack_keeps)
    | (with_reducible apply reply_keeps) | (with_reducible apply shutRead_keeps) | (with_reducible apply OnNext.next)
    | (with_reducible apply OnNext.fault) | split)

theorem mirrorLost_keeps {tch : List Field} {s0 : State} (stack : Nat) (s : State) (hs : Keeps tch s0 s)
    (hw : Within [.disp] tch := by exact Within.of (by assumption) rfl) :
    Keeps tch s0 (mirrorLost stack s) := by
  unfold mirrorLost
  try dsimp only
  repeat' (first
    | (with_reducible assumption) | exact hw.of rfl | (with_reducible apply withDisp_keeps) | split)

theorem failStack_keeps {tch : List Field} {s0 : State} (stack : Nat) (cause : Nat) (s : State)
    (hs : Keeps tch s0 s)
    (hw : Within [.glb, .repair, .boot, .ivory, .link, .hub, .hfifo, .msix, .sync, .stack, .xlt, .cdie, .hif, .disp,
    .pwr, .tile] tch := by exact Within.of (by assumption) rfl) :
    Keeps tch s0 (failStack stack cause s) := by
  unfold failStack
  try dsimp only
  repeat' (first
    | (with_reducible assumption) | exact hw.of rfl | (with_reducible apply mgmtReply_keeps)
    | (with_reducible apply mirrorLost_keeps) | (with_reducible apply dieFailed_keeps)
    | (with_reducible apply State.updStack_keeps) | split)

theorem execLayerFailure_keeps {tch : List Field} {s0 : State} (stack : Nat) (layer : Nat) (s : State)
    (hs : Keeps tch s0 s)
    (hw : Within [.glb, .repair, .boot, .ivory, .link, .hub, .hfifo, .msix, .sync, .stack, .xlt, .cdie, .hif, .disp,
    .pwr, .tile] tch := by exact Within.of (by assumption) rfl) :
    OnNext (Keeps tch s0) (execLayerFailure stack layer s) := by
  unfold execLayerFailure
  try dsimp only
  repeat' (first
    | (with_reducible assumption) | exact hw.of rfl | (with_reducible apply post_keeps)
    | (with_reducible apply State.updStack_keeps) | (with_reducible apply failStack_keeps)
    | (with_reducible apply OnNext.next) | (with_reducible apply OnNext.fault) | split)

theorem poisonLost_keeps {tch : List Field} {s0 : State} (s : State) (hs : Keeps tch s0 s)
    (hw : Within [.mem] tch := by exact Within.of (by assumption) rfl) :
    Keeps tch s0 (poisonLost s) := by
  unfold poisonLost
  try dsimp only
  repeat' (first
    | (with_reducible assumption) | exact hw.of rfl | (with_reducible apply withMem_keeps)
    | (with_reducible apply foldl_keeps) | (with_reducible apply RamOk.rfl') | (with_reducible apply RamOk_empty)
    | (with_reducible apply RamOk_poisonRange) | split | (intro _; intros; try dsimp only))

theorem mapoutStart_keeps {tch : List Field} {s0 : State} (slot : Nat) (s : State) (hs : Keeps tch s0 s)
    (hw : Within [.glb, .repair, .boot, .ivory, .link, .hub, .hfifo, .msix, .sync, .mem, .stack, .memc, .xlt, .cdie,
    .hif, .disp, .pwr, .tile] tch := by exact Within.of (by assumption) rfl) :
    Keeps tch s0 (mapoutStart slot s) := by
  unfold mapoutStart
  try dsimp only
  repeat' (first
    | (with_reducible assumption) | exact hw.of rfl | (with_reducible apply withMemc_keeps)
    | (with_reducible apply failStack_keeps) | (with_reducible apply post_keeps)
    | (with_reducible apply poisonLost_keeps) | split)

theorem execMapoutStart_keeps {tch : List Field} {s0 : State} (slot : Nat) (s : State) (hs : Keeps tch s0 s)
    (hw : Within [.glb, .repair, .boot, .ivory, .link, .hub, .hfifo, .msix, .sync, .mem, .stack, .memc, .xlt, .cdie,
    .hif, .disp, .pwr, .tile] tch := by exact Within.of (by assumption) rfl) :
    OnNext (Keeps tch s0) (execMapoutStart slot s) := by
  unfold execMapoutStart
  try dsimp only
  repeat' (first
    | (with_reducible assumption) | exact hw.of rfl | (with_reducible apply mapoutStart_keeps)
    | (with_reducible apply OnNext.next) | (with_reducible apply OnNext.fault) | split)

theorem partToFlash_keeps {tch : List Field} {s0 : State} (quiet : Bool) (tile : Nat) (part : Nat)
    (st : State) (hs : Keeps tch s0 st)
    (hw : Within [.hfifo, .msix, .mem, .stack, .pool, .tier, .cdie,
    .hif] tch := by exact Within.of (by assumption) rfl) :
    Keeps tch s0 (partToFlash quiet tile part st) := by
  unfold partToFlash
  try dsimp only
  repeat' (first
    | (with_reducible assumption) | exact hw.of rfl | (with_reducible apply serveReads_keeps)
    | (with_reducible apply State.updTdie_keeps) | (with_reducible apply withTier_keeps)
    | (with_reducible apply foldl_keeps) | split | (intro _; intros; try dsimp only))

theorem recallTile_keeps {tch : List Field} {s0 : State} (tile : Nat) (s : State) (hs : Keeps tch s0 s)
    (hw : Within [.mem, .stack, .pool, .tier, .cdie] tch := by exact Within.of (by assumption) rfl) :
    Keeps tch s0 (recallTile tile s) := by
  unfold recallTile
  try dsimp only
  repeat' (first
    | (with_reducible assumption) | exact hw.of rfl | (with_reducible apply dropCopies_keeps)
    | (with_reducible apply touchFrame_keeps) | (with_reducible apply storeSector_keeps)
    | (with_reducible apply foldl_keeps) | split | (intro _; intros; try dsimp only))

theorem notResident_keeps {tch : List Field} {s0 : State} (tile : Nat) (s : State) (hs : Keeps tch s0 s)
    (hw : Within [.tier] tch := by exact Within.of (by assumption) rfl) :
    Keeps tch s0 (notResident tile s) := by
  unfold notResident
  try dsimp only
  repeat' (first
    | (with_reducible assumption) | exact hw.of rfl | (with_reducible apply withTier_keeps) | split)

theorem freeFrame_keeps {tch : List Field} {s0 : State} (tile : Nat) (f : Nat) (s : State)
    (hs : Keeps tch s0 s)
    (hw : Within [.tier] tch := by exact Within.of (by assumption) rfl) :
    Keeps tch s0 (freeFrame tile f s) := by
  unfold freeFrame
  try dsimp only
  repeat' (first
    | (with_reducible assumption) | exact hw.of rfl | (with_reducible apply withTier_keeps) | split)

theorem vacate_keeps {tch : List Field} {s0 : State} (f : Nat) (s : State) (hs : Keeps tch s0 s)
    (hw : Within [.hfifo, .msix, .mem, .stack, .pool, .tier, .cdie,
    .hif] tch := by exact Within.of (by assumption) rfl) :
    Keeps tch s0 (vacate f s) := by
  unfold vacate
  try dsimp only
  repeat' (first
    | (with_reducible assumption) | exact hw.of rfl | (with_reducible apply withTier_keeps)
    | (with_reducible apply recallTile_keeps) | (with_reducible apply freeFrame_keeps)
    | (with_reducible apply notResident_keeps) | (with_reducible apply partToFlash_keeps)
    | (with_reducible apply foldl_keeps) | split | (intro _; intros; try dsimp only))

theorem moveFrame_keeps {tch : List Field} {s0 : State} (f : Nat) (g : Nat) (s : State) (hs : Keeps tch s0 s)
    (hw : Within [.hfifo, .msix, .mem, .stack, .pool, .tier, .cdie,
    .hif] tch := by exact Within.of (by assumption) rfl) :
    Keeps tch s0 (moveFrame f g s) := by
  unfold moveFrame
  try dsimp only
  repeat' (first
    | (with_reducible assumption) | exact hw.of rfl | (with_reducible apply serveReads_keeps)
    | (with_reducible apply recallTile_keeps) | (with_reducible apply withMem_keeps)
    | (with_reducible apply withTier_keeps) | (with_reducible apply RamOk.rfl') | (with_reducible apply RamOk_empty)
    | (with_reducible apply RamOk_restoreAt) | split | (intro _; intros; try dsimp only))

theorem execMapoutEvictDone_keeps {tch : List Field} {s0 : State} (s : State) (hs : Keeps tch s0 s)
    (hw : Within [.hfifo, .msix, .mem, .stack, .memc, .pool, .tier, .cdie,
    .hif] tch := by exact Within.of (by assumption) rfl) :
    OnNext (Keeps tch s0) (execMapoutEvictDone s) := by
  unfold execMapoutEvictDone
  try dsimp only
  repeat' (first
    | (with_reducible assumption) | exact hw.of rfl | (with_reducible apply moveFrame_keeps)
    | (with_reducible apply vacate_keeps) | (with_reducible apply withMemc_keeps)
    | (with_reducible apply foldl_keeps) | (with_reducible apply OnNext.next) | (with_reducible apply OnNext.fault)
    | split | (intro _; intros; try dsimp only))

theorem rehome_keeps {tch : List Field} {s0 : State} (s : State) (hs : Keeps tch s0 s)
    (hw : Within [.stack] tch := by exact Within.of (by assumption) rfl) :
    Keeps tch s0 (rehome s) := by
  unfold rehome
  try dsimp only
  repeat' (first
    | (with_reducible assumption) | exact hw.of rfl | (with_reducible apply State.updStack_keeps)
    | (with_reducible apply foldl_keeps) | split | (intro _; intros; try dsimp only))

theorem execMapoutMapDistributed_keeps {tch : List Field} {s0 : State} (s : State) (hs : Keeps tch s0 s)
    (hw : Within [.stack, .memc] tch := by exact Within.of (by assumption) rfl) :
    OnNext (Keeps tch s0) (execMapoutMapDistributed s) := by
  unfold execMapoutMapDistributed
  try dsimp only
  repeat' (first
    | (with_reducible assumption) | exact hw.of rfl | (with_reducible apply rehome_keeps)
    | (with_reducible apply withMemc_keeps) | (with_reducible apply OnNext.next)
    | (with_reducible apply OnNext.fault) | split)

theorem execMapoutComplete_keeps {tch : List Field} {s0 : State} (s : State) (hs : Keeps tch s0 s)
    (hw : Within [.glb, .repair, .boot, .ivory, .link, .hub, .hfifo, .msix, .sync, .mem, .stack, .memc, .xlt, .cdie,
    .hif, .disp, .pwr, .tile] tch := by exact Within.of (by assumption) rfl) :
    OnNext (Keeps tch s0) (execMapoutComplete s) := by
  unfold execMapoutComplete
  try dsimp only
  repeat' (first
    | (with_reducible assumption) | exact hw.of rfl | (with_reducible apply poisonLost_keeps)
    | (with_reducible apply withRepair_keeps) | (with_reducible apply withMemc_keeps)
    | (with_reducible apply post_keeps) | (with_reducible apply mapoutStart_keeps)
    | (with_reducible apply foldl_keeps) | (with_reducible apply OnNext.next) | (with_reducible apply OnNext.fault)
    | split | (intro _; intros; try dsimp only))

theorem stackDown_keeps {tch : List Field} {s0 : State} (stack : Nat) (s : State) (hs : Keeps tch s0 s)
    (hw : Within [.stack, .disp] tch := by exact Within.of (by assumption) rfl) :
    Keeps tch s0 (stackDown stack s) := by
  unfold stackDown
  try dsimp only
  repeat' (first
    | (with_reducible assumption) | exact hw.of rfl | (with_reducible apply State.updStack_keeps)
    | (with_reducible apply mirrorLost_keeps) | split)

theorem execStackRecoveryStart_keeps {tch : List Field} {s0 : State} (stack : Nat) (s : State)
    (hs : Keeps tch s0 s)
    (hw : Within [.glb, .link, .hub, .hfifo, .msix, .sync, .stack, .cdie, .hif, .disp,
    .pwr] tch := by exact Within.of (by assumption) rfl) :
    OnNext (Keeps tch s0) (execStackRecoveryStart stack s) := by
  unfold execStackRecoveryStart
  try dsimp only
  repeat' (first
    | (with_reducible assumption) | exact hw.of rfl | (with_reducible apply stackDown_keeps)
    | (with_reducible apply fencePort_keeps) | (with_reducible apply OnNext.next)
    | (with_reducible apply OnNext.fault) | split)

theorem verifyStack_keeps {tch : List Field} {s0 : State} (stack : Nat) (s : State) (hs : Keeps tch s0 s)
    (hw : Within [.hfifo, .msix, .mem, .stack, .pool, .cdie, .hif] tch := by exact Within.of (by assumption) rfl) :
    Keeps tch s0 (verifyStack stack s) := by
  unfold verifyStack
  try dsimp only
  repeat' (first
    | (with_reducible assumption) | exact hw.of rfl | (with_reducible apply uncorrectable_keeps)
    | (with_reducible apply foldl_keeps) | split | (intro _; intros; try dsimp only))

theorem execStackRecoveryDone_keeps {tch : List Field} {s0 : State} (stack : Nat) (ok : Bool)
    (failed : List Nat) (s : State) (hs : Keeps tch s0 s)
    (hw : Within [.glb, .repair, .boot, .ivory, .link, .hub, .hfifo, .msix, .sync, .mem, .stack, .memc, .pool, .xlt,
    .cdie, .hif, .disp, .pwr, .tile] tch := by exact Within.of (by assumption) rfl) :
    OnNext (Keeps tch s0) (execStackRecoveryDone stack ok failed s) := by
  unfold execStackRecoveryDone
  try dsimp only
  repeat' (first
    | (with_reducible assumption) | exact hw.of rfl | (with_reducible apply verifyStack_keeps)
    | (with_reducible apply State.updStack_keeps) | (with_reducible apply mapoutStart_keeps)
    | (with_reducible apply unfence_keeps) | (with_reducible apply failStack_keeps)
    | (with_reducible apply foldl_keeps) | (with_reducible apply OnNext.next) | (with_reducible apply OnNext.fault)
    | split | (intro _; intros; try dsimp only))

theorem appendRow_keeps {tch : List Field} {s0 : State} (core : Nat) (stack : Nat) (tag : Nat) (a : Nat)
    (poison : Bool) (z1 : Nat) (z2 : List Byte) (z3 : State) (hs : Keeps tch s0 z3)
    (hw : Within [.link, .hub] tch := by exact Within.of (by assumption) rfl) :
    Keeps tch s0 (appendRow core stack tag a poison z1 z2 z3) := by
  induction z1 generalizing a z2 z3 with
  | zero => exact hs
  | succ n ih => exact ih _ _ _ (requestAt_keeps _ _ _ _ _ _ _ _ hs)

theorem updWindow_keeps {tch : List Field} {s0 : State} (core : Nat) (stack : Nat) (f : Window → Window)
    (s : State) (hs : Keeps tch s0 s)
    (hw : Within [.stack] tch := by exact Within.of (by assumption) rfl) :
    Keeps tch s0 (updWindow core stack f s) := by
  unfold updWindow
  try dsimp only
  repeat' (first
    | (with_reducible assumption) | exact hw.of rfl | (with_reducible apply State.updStack_keeps) | split)

theorem appendStart_keeps {tch : List Field} {s0 : State} (core : Nat) (stack : Nat) (tag : Nat)
    (w : Window) (s : State) (hs : Keeps tch s0 s)
    (hw : Within [.link, .hub, .hfifo, .msix, .mem, .stack, .pool, .tier, .cdie, .hif,
    .disp] tch := by exact Within.of (by assumption) rfl) :
    Keeps tch s0 (appendStart core stack tag w s) := by
  unfold appendStart
  try dsimp only
  repeat' (first
    | (with_reducible assumption) | exact hw.of rfl | (with_reducible apply cohWrite_keeps)
    | (with_reducible apply serveReads_keeps) | (with_reducible apply updWindow_keeps)
    | (with_reducible apply appendRow_keeps) | split)

theorem windowGo_keeps {tch : List Field} {s0 : State} (core : Nat) (stack : Nat) (s : State)
    (hs : Keeps tch s0 s)
    (hw : Within [.link, .hub, .hfifo, .msix, .mem, .stack, .pool, .tier, .cdie, .hif,
    .disp] tch := by exact Within.of (by assumption) rfl) :
    Keeps tch s0 (windowGo core stack s) := by
  unfold windowGo
  try dsimp only
  repeat' (first
    | (with_reducible assumption) | exact hw.of rfl | (with_reducible apply updWindow_keeps)
    | (with_reducible apply serveReads_keeps) | (with_reducible apply appendStart_keeps) | split)

theorem windowsGo_keeps {tch : List Field} {s0 : State} (s : State) (hs : Keeps tch s0 s)
    (hw : Within [.link, .hub, .hfifo, .msix, .mem, .stack, .pool, .tier, .cdie, .hif,
    .disp] tch := by exact Within.of (by assumption) rfl) :
    Keeps tch s0 (windowsGo s) := by
  unfold windowsGo
  try dsimp only
  repeat' (first
    | (with_reducible assumption) | exact hw.of rfl | (with_reducible apply windowGo_keeps)
    | (with_reducible apply foldl_keeps) | split | (intro _; intros; try dsimp only))

theorem submit_keeps {tch : List Field} {s0 : State} (core : Nat) (stack : Nat) (tag : Nat) (s : State)
    (hs : Keeps tch s0 s)
    (hw : Within [.link, .hub, .hfifo, .msix, .mem, .stack, .pool, .tier, .cdie, .hif,
    .disp] tch := by exact Within.of (by assumption) rfl) :
    Keeps tch s0 (submit core stack tag s) := by
  unfold submit
  try dsimp only
  repeat' (first
    | (with_reducible assumption) | exact hw.of rfl | (with_reducible apply setupRefused_keeps)
    | (with_reducible apply windowGo_keeps) | (with_reducible apply updWindow_keeps) | split)

theorem execReduce_keeps {tch : List Field} {s0 : State} (core : Nat) (stack : Nat) (tag : Nat) (s : State)
    (hs : Keeps tch s0 s)
    (hw : Within [.link, .hub, .hfifo, .msix, .mem, .stack, .pool, .tier, .cdie, .hif,
    .disp] tch := by exact Within.of (by assumption) rfl) :
    OnNext (Keeps tch s0) (execReduce core stack tag s) := by
  unfold execReduce
  try dsimp only
  repeat' (first
    | (with_reducible assumption) | exact hw.of rfl | (with_reducible apply submit_keeps)
    | (with_reducible apply OnNext.next) | (with_reducible apply OnNext.fault) | split)

theorem execKvAppend_keeps {tch : List Field} {s0 : State} (core : Nat) (stack : Nat) (tag : Nat)
    (s : State) (hs : Keeps tch s0 s)
    (hw : Within [.link, .hub, .hfifo, .msix, .mem, .stack, .pool, .tier, .cdie, .hif,
    .disp] tch := by exact Within.of (by assumption) rfl) :
    OnNext (Keeps tch s0) (execKvAppend core stack tag s) := by
  unfold execKvAppend
  try dsimp only
  repeat' (first
    | (with_reducible assumption) | exact hw.of rfl | (with_reducible apply submit_keeps)
    | (with_reducible apply OnNext.next) | (with_reducible apply OnNext.fault) | split)

theorem execStackCmdResult_keeps {tch : List Field} {s0 : State} (core : Nat) (stack : Nat) (s : State)
    (hs : Keeps tch s0 s)
    (hw : Within [.link, .hub, .hfifo, .msix, .sync, .mem, .stack, .pool, .tier, .cdie, .hif,
    .disp] tch := by exact Within.of (by assumption) rfl) :
    OnNext (Keeps tch s0) (execStackCmdResult core stack s) := by
  unfold execStackCmdResult
  try dsimp only
  repeat' (first
    | (with_reducible assumption) | exact hw.of rfl | (with_reducible apply windowGo_keeps)
    | (with_reducible apply touchFrame_keeps) | (with_reducible apply cohWrite_keeps)
    | (with_reducible apply syncSendAdd_keeps) | (with_reducible apply updWindow_keeps)
    | (with_reducible apply OnNext.next) | (with_reducible apply OnNext.fault) | split)

theorem tierStall_keeps {tch : List Field} {s0 : State} (p : Pkt) (s : State) (hs : Keeps tch s0 s)
    (hw : Within [.link, .hub, .tier] tch := by exact Within.of (by assumption) rfl) :
    Keeps tch s0 (tierStall p s) := by
  unfold tierStall
  try dsimp only
  repeat' (first
    | (with_reducible assumption) | exact hw.of rfl | (with_reducible apply refuseAs_keeps)
    | (with_reducible apply withTier_keeps) | (with_reducible apply refuse_keeps) | split)

theorem tierRelease_keeps {tch : List Field} {s0 : State} (p : Pkt) (s : State) (hs : Keeps tch s0 s)
    (hw : Within [.link, .hub] tch := by exact Within.of (by assumption) rfl) :
    Keeps tch s0 (tierRelease p s) := by
  unfold tierRelease
  try dsimp only
  repeat' (first
    | (with_reducible assumption) | exact hw.of rfl | (with_reducible apply hubTake_keeps)
    | (with_reducible apply withHub_keeps) | split)

theorem tierGo_keeps {tch : List Field} {s0 : State} (tile : Nat) (f : Nat) (s : State) (hs : Keeps tch s0 s)
    (hw : Within [.link, .hub, .hfifo, .msix, .mem, .stack, .pool, .tier, .cdie, .hif,
    .disp] tch := by exact Within.of (by assumption) rfl) :
    Keeps tch s0 (tierGo tile f s) := by
  unfold tierGo
  try dsimp only
  repeat' (first
    | (with_reducible assumption) | exact hw.of rfl | (with_reducible apply withTier_keeps)
    | (with_reducible apply windowsGo_keeps) | (with_reducible apply tierRelease_keeps)
    | (with_reducible apply foldl_keeps) | split | (intro _; intros; try dsimp only))

theorem sweep_keeps {tch : List Field} {s0 : State} (z1 : Nat) (z2 : Nat) (z3 : State) (hs : Keeps tch s0 z3)
    (hw : Within [.tier] tch := by exact Within.of (by assumption) rfl) :
    Keeps tch s0 (sweep z1 z2 z3).2 := by
  induction z1 generalizing z2 z3 with
  | zero => exact hs
  | succ n ih =>
    unfold sweep
    dsimp only
    repeat' (first
      | (with_reducible refine ih _ _ ?_)
      | (with_reducible assumption)
      | exact hw.of rfl
      | exact rfl
      | exact Nat.le_refl _
      | exact Nat.le_succ _
      | (with_reducible apply withTier_keeps)
      | split
      | (intro _; intros; try dsimp only))

theorem fillFrame_keeps {tch : List Field} {s0 : State} (tile : Nat) (f : Nat) (pre : Bool) (s : State)
    (hs : Keeps tch s0 s)
    (hw : Within [.tier] tch := by exact Within.of (by assumption) rfl) :
    Keeps tch s0 (fillFrame tile f pre s) := by
  unfold fillFrame
  try dsimp only
  repeat' (first
    | (with_reducible assumption) | exact hw.of rfl | (with_reducible apply withTier_keeps) | split)

theorem chooseVictim_keeps {tch : List Field} {s0 : State} (s : State) (hs : Keeps tch s0 s)
    (hw : Within [.tier] tch := by exact Within.of (by assumption) rfl) :
    Keeps tch s0 (chooseVictim s).2 := by
  have h := sweep_keeps (2 * s.memc.frameCount) s.tier.sweep s hs
  unfold chooseVictim
  split
  · rename_i e; rw [e] at h; exact h
  · rename_i e; rw [e] at h; exact withTier_keeps h _ (hw.of rfl)

theorem startFetch_keeps {tch : List Field} {s0 : State} (tile : Nat) (pre : Bool) (s : State)
    (hs : Keeps tch s0 s)
    (hw : Within [.tier] tch := by exact Within.of (by assumption) rfl) :
    Keeps tch s0 (startFetch tile pre s) := by
  unfold startFetch
  try dsimp only
  repeat' (first
    | (with_reducible assumption) | exact hw.of rfl | (with_reducible apply fillFrame_keeps)
    | (with_reducible apply chooseVictim_keeps) | (with_reducible apply withTier_keeps)
    | (with_reducible refine Keeps.of_snd (by assumption) ?_) | split | dsimp only)

theorem tilesReady_keeps {tch : List Field} {s0 : State} (c : Cmd) (write : Bool) (l : List Nat) (s : State)
    (hs : Keeps tch s0 s)
    (hw : Within [.tier, .disp] tch := by exact Within.of (by assumption) rfl) :
    Keeps tch s0 (tilesReady c write l s).2 := by
  unfold tilesReady
  try dsimp only
  repeat' (first
    | (with_reducible assumption) | exact hw.of rfl | (with_reducible apply State.updCmd_keeps)
    | (with_reducible apply startFetch_keeps) | (with_reducible apply foldl_keeps) | split
    | (intro _; intros; try dsimp only))

theorem mapRoom_keeps {tch : List Field} {s0 : State} (s : State) (hs : Keeps tch s0 s)
    (hw : Within [.tier] tch := by exact Within.of (by assumption) rfl) :
    Keeps tch s0 (mapRoom s) := by
  unfold mapRoom
  try dsimp only
  repeat' (first
    | (with_reducible assumption) | exact hw.of rfl | (with_reducible apply withTier_keeps) | split)

theorem execTierMapMiss_keeps {tch : List Field} {s0 : State} (tile : Nat) (s : State) (hs : Keeps tch s0 s)
    (hw : Within [.tier] tch := by exact Within.of (by assumption) rfl) :
    OnNext (Keeps tch s0) (execTierMapMiss tile s) := by
  unfold execTierMapMiss
  try dsimp only
  repeat' (first
    | (with_reducible assumption) | exact hw.of rfl | (with_reducible apply withTier_keeps)
    | (with_reducible apply OnNext.next) | (with_reducible apply OnNext.fault) | split)

theorem execTierMapReply_keeps {tch : List Field} {s0 : State} (tile : Nat) (s : State) (hs : Keeps tch s0 s)
    (hw : Within [.link, .hub, .hfifo, .msix, .mem, .stack, .pool, .tier, .cdie, .hif,
    .disp] tch := by exact Within.of (by assumption) rfl) :
    OnNext (Keeps tch s0) (execTierMapReply tile s) := by
  unfold execTierMapReply
  try dsimp only
  repeat' (first
    | (with_reducible assumption) | exact hw.of rfl | (with_reducible apply withTier_keeps)
    | (with_reducible apply tierGo_keeps) | (with_reducible apply mapRoom_keeps)
    | (with_reducible apply startFetch_keeps) | (with_reducible apply OnNext.next)
    | (with_reducible apply OnNext.fault) | split)

theorem execFrameEvictionDone_keeps {tch : List Field} {s0 : State} (frame : Nat) (s : State)
    (hs : Keeps tch s0 s)
    (hw : Within [.hfifo, .msix, .mem, .stack, .pool, .tier, .cdie,
    .hif] tch := by exact Within.of (by assumption) rfl) :
    OnNext (Keeps tch s0) (execFrameEvictionDone frame s) := by
  unfold execFrameEvictionDone
  try dsimp only
  repeat' (first
    | (with_reducible assumption) | exact hw.of rfl | (with_reducible apply withTier_keeps)
    | (with_reducible apply vacate_keeps) | (with_reducible apply fillFrame_keeps)
    | (with_reducible apply chooseVictim_keeps) | (with_reducible apply OnNext.next)
    | (with_reducible apply OnNext.fault) | (with_reducible refine Keeps.of_snd (by assumption) ?_) | split
    | dsimp only)

theorem fetchTile_keeps {tch : List Field} {s0 : State} (tile : Nat) (f : Nat) (bad : List Nat) (s : State)
    (hs : Keeps tch s0 s)
    (hw : Within [.hfifo, .msix, .mem, .tier, .cdie, .hif] tch := by exact Within.of (by assumption) rfl) :
    Keeps tch s0 (fetchTile tile f bad s) := by
  unfold fetchTile
  try dsimp only
  repeat' (first
    | (exact fun w => foldl_inv (fun (m : Ram) => m.wf = true) _ (fun m k h => RamOk_fixCk (RamOk_setPoison (RamOk.rfl' m) _ _) _ h) _ _ (foldl_inv (fun (m : Ram) => m.wf = true) _ (fun m k h => RamOk_setPoison (RamOk.rfl' m) _ _ h) _ _ (RamOk_restoreAt (RamOk.rfl' _) _ _ w)))
    | (with_reducible assumption)
    | exact hw.of rfl
    | exact rfl
    | exact Nat.le_refl _
    | exact Nat.le_succ _
    | (with_reducible apply evCheckword_keeps)
    | (with_reducible apply foldl_keeps)
    | (with_reducible apply post_keeps)
    | (with_reducible apply State.updTdie_keeps)
    | (with_reducible apply withTier_keeps)
    | (with_reducible apply withMem_keeps)
    | split
    | (intro _; intros; try dsimp only))

theorem prefetchAhead_keeps {tch : List Field} {s0 : State} (src : Nat) (tile : Nat) (s : State)
    (hs : Keeps tch s0 s)
    (hw : Within [.tier] tch := by exact Within.of (by assumption) rfl) :
    Keeps tch s0 (prefetchAhead src tile s) := by
  unfold prefetchAhead
  try dsimp only
  repeat' (first
    | (with_reducible assumption) | exact hw.of rfl | (with_reducible apply withTier_keeps)
    | (with_reducible apply startFetch_keeps) | (with_reducible apply foldl_keeps) | split
    | (intro _; intros; try dsimp only))

theorem execTierFetchDone_keeps {tch : List Field} {s0 : State} (tile : Nat) (bad : List Nat) (s : State)
    (hs : Keeps tch s0 s)
    (hw : Within [.link, .hub, .hfifo, .msix, .mem, .stack, .pool, .tier, .cdie, .hif,
    .disp] tch := by exact Within.of (by assumption) rfl) :
    OnNext (Keeps tch s0) (execTierFetchDone tile bad s) := by
  unfold execTierFetchDone
  try dsimp only
  repeat' (first
    | (with_reducible assumption) | exact hw.of rfl | (with_reducible apply fetchTile_keeps)
    | (with_reducible apply withTier_keeps) | (with_reducible apply prefetchAhead_keeps)
    | (with_reducible apply tierGo_keeps) | (with_reducible apply mapRoom_keeps) | (with_reducible apply OnNext.next)
    | (with_reducible apply OnNext.fault) | split)

theorem execPartOpenRecorded_keeps {tch : List Field} {s0 : State} (part : Nat) (s : State)
    (hs : Keeps tch s0 s)
    (hw : Within [.link, .hub, .hfifo, .msix, .mem, .stack, .pool, .tier, .cdie, .hif,
    .disp] tch := by exact Within.of (by assumption) rfl) :
    OnNext (Keeps tch s0) (execPartOpenRecorded part s) := by
  unfold execPartOpenRecorded
  try dsimp only
  repeat' (first
    | (with_reducible assumption) | exact hw.of rfl | (with_reducible apply State.updTdie_keeps)
    | (with_reducible apply withTier_keeps) | (with_reducible apply poolsGo_keeps)
    | (with_reducible apply send_keeps) | (with_reducible apply foldl_keeps) | (with_reducible apply OnNext.next)
    | (with_reducible apply OnNext.fault) | split | (intro _; intros; try dsimp only))

theorem programPart_keeps {tch : List Field} {s0 : State} (part : Nat) (block : Nat) (s : State)
    (hs : Keeps tch s0 s)
    (hw : Within [.tier] tch := by exact Within.of (by assumption) rfl) :
    Keeps tch s0 (programPart part block s) := by
  unfold programPart
  try dsimp only
  repeat' (first
    | (with_reducible assumption) | exact hw.of rfl | (with_reducible apply withTier_keeps)
    | (with_reducible apply State.updTdie_keeps) | split)

theorem execFlashProgramDone_keeps {tch : List Field} {s0 : State} (part : Nat) (block : Nat) (s : State)
    (hs : Keeps tch s0 s)
    (hw : Within [.tier] tch := by exact Within.of (by assumption) rfl) :
    OnNext (Keeps tch s0) (execFlashProgramDone part block s) := by
  unfold execFlashProgramDone
  try dsimp only
  repeat' (first
    | (with_reducible assumption) | exact hw.of rfl | (with_reducible apply programPart_keeps)
    | (with_reducible apply OnNext.next) | (with_reducible apply OnNext.fault) | split)

theorem cleanFrame_keeps {tch : List Field} {s0 : State} (quiet : Bool) (f : Nat) (s : State)
    (hs : Keeps tch s0 s)
    (hw : Within [.hfifo, .msix, .mem, .stack, .pool, .tier, .cdie,
    .hif] tch := by exact Within.of (by assumption) rfl) :
    Keeps tch s0 (cleanFrame quiet f s) := by
  unfold cleanFrame
  try dsimp only
  repeat' (first
    | (with_reducible assumption) | exact hw.of rfl | (with_reducible apply partToFlash_keeps)
    | (with_reducible apply withTier_keeps) | (with_reducible apply foldl_keeps) | split
    | (intro _; intros; try dsimp only))

theorem execTierBackgroundWriteback_keeps {tch : List Field} {s0 : State} (s : State) (hs : Keeps tch s0 s)
    (hw : Within [.hfifo, .msix, .mem, .stack, .pool, .tier, .cdie,
    .hif] tch := by exact Within.of (by assumption) rfl) :
    OnNext (Keeps tch s0) (execTierBackgroundWriteback s) := by
  unfold execTierBackgroundWriteback
  try dsimp only
  repeat' (first
    | (with_reducible assumption) | exact hw.of rfl | (with_reducible apply cleanFrame_keeps)
    | (with_reducible apply OnNext.next) | (with_reducible apply OnNext.fault) | split)

theorem flushStart_keeps {tch : List Field} {s0 : State} (s : State) (hs : Keeps tch s0 s)
    (hw : Within [.hfifo, .msix, .mem, .stack, .pool, .tier, .cdie,
    .hif] tch := by exact Within.of (by assumption) rfl) :
    Keeps tch s0 (flushStart s) := by
  unfold flushStart
  try dsimp only
  repeat' (first
    | (with_reducible assumption) | exact hw.of rfl | (with_reducible apply cleanFrame_keeps)
    | (with_reducible apply withTier_keeps) | (with_reducible apply foldl_keeps) | split
    | (intro _; intros; try dsimp only))

theorem execTierFlush_keeps {tch : List Field} {s0 : State} (who : Agent) (s : State) (hs : Keeps tch s0 s)
    (hw : Within [.hfifo, .msix, .mem, .stack, .pool, .tier, .cdie,
    .hif] tch := by exact Within.of (by assumption) rfl) :
    OnNext (Keeps tch s0) (execTierFlush who s) := by
  unfold execTierFlush
  try dsimp only
  repeat' (first
    | (with_reducible assumption) | exact hw.of rfl | (with_reducible apply pfWrite_keeps)
    | (with_reducible apply flushStart_keeps) | (with_reducible apply OnNext.next)
    | (with_reducible apply OnNext.fault) | split | (intro _; intros; try dsimp only))

theorem flushEnd_keeps {tch : List Field} {s0 : State} (s : State) (hs : Keeps tch s0 s)
    (hw : Within [.tier, .free] tch := by exact Within.of (by assumption) rfl) :
    Keeps tch s0 (flushEnd s) := by
  unfold flushEnd
  try dsimp only
  repeat' (first
    | (with_reducible assumption) | exact hw.of rfl | (with_reducible apply programPart_keeps)
    | (with_reducible apply State.draw_keeps) | (with_reducible apply withTier_keeps)
    | (with_reducible apply foldl_keeps) | (with_reducible refine Keeps.of_snd (by assumption) ?_) | split
    | dsimp only | (intro _; intros; try dsimp only))

theorem execTierFlushDone_keeps {tch : List Field} {s0 : State} (s : State) (hs : Keeps tch s0 s)
    (hw : Within [.tier, .free] tch := by exact Within.of (by assumption) rfl) :
    OnNext (Keeps tch s0) (execTierFlushDone s) := by
  unfold execTierFlushDone
  try dsimp only
  repeat' (first
    | (with_reducible assumption) | exact hw.of rfl | (with_reducible apply flushEnd_keeps)
    | (with_reducible apply OnNext.next) | (with_reducible apply OnNext.fault) | split)

theorem pinFrames_keeps {tch : List Field} {s0 : State} (first : Nat) (count : Nat) (on : Bool) (s : State)
    (hs : Keeps tch s0 s)
    (hw : Within [.tier] tch := by exact Within.of (by assumption) rfl) :
    Keeps tch s0 (pinFrames first count on s) := by
  unfold pinFrames
  try dsimp only
  repeat' (first
    | (with_reducible assumption) | exact hw.of rfl | (with_reducible apply withTier_keeps) | split)

theorem repin_keeps {tch : List Field} {s0 : State} (s : State) (hs : Keeps tch s0 s)
    (hw : Within [.tier] tch := by exact Within.of (by assumption) rfl) :
    Keeps tch s0 (repin s) := by
  unfold repin
  try dsimp only
  repeat' (first
    | (with_reducible assumption) | exact hw.of rfl | (with_reducible apply pinFrames_keeps)
    | (with_reducible apply foldl_keeps) | split | (intro _; intros; try dsimp only))

theorem pinClear_keeps {tch : List Field} {s0 : State} (n : Nat) (s : State) (hs : Keeps tch s0 s)
    (hw : Within [.tier, .regs] tch := by exact Within.of (by assumption) rfl) :
    Keeps tch s0 (pinClear n s) := by
  unfold pinClear
  try dsimp only
  repeat' (first
    | (with_reducible assumption) | exact hw.of rfl | (with_reducible apply State.setReg_keeps)
    | (with_reducible apply repin_keeps) | (with_reducible apply withTier_keeps)
    | (with_reducible apply pinFrames_keeps) | split)

theorem pinSet_keeps {tch : List Field} {s0 : State} (who : Agent) (n : Nat) (first : Nat) (count : Nat)
    (old : State) (hs : Keeps tch s0 old)
    (hw : Within [.hfifo, .msix, .tier, .cdie, .hif, .regs] tch := by exact Within.of (by assumption) rfl) :
    Keeps tch s0 (pinSet who n first count old) := by
  unfold pinSet
  try dsimp only
  repeat' (first
    | (with_reducible assumption) | exact hw.of rfl | (with_reducible apply pinClear_keeps)
    | (with_reducible apply setupRefused_keeps) | (with_reducible apply State.setReg_keeps)
    | (with_reducible apply withTier_keeps) | (with_reducible apply startFetch_keeps)
    | (with_reducible apply pinFrames_keeps) | (with_reducible apply foldl_keeps) | split
    | (intro _; intros; try dsimp only))

theorem execTierPinSet_keeps {tch : List Field} {s0 : State} (who : Agent) (n : Nat) (first : Nat)
    (count : Nat) (s : State) (hs : Keeps tch s0 s)
    (hw : Within [.hfifo, .msix, .tier, .cdie, .hif, .regs] tch := by exact Within.of (by assumption) rfl) :
    OnNext (Keeps tch s0) (execTierPinSet who n first count s) := by
  unfold execTierPinSet
  try dsimp only
  repeat' (first
    | (with_reducible assumption)
    | exact hw.of rfl
    | exact rfl
    | exact Nat.le_refl _
    | exact Nat.le_succ _
    | (with_reducible apply OnNext.next)
    | (with_reducible apply pfWrite_keeps)
    | (with_reducible apply pinSet_keeps)
    | split
    | (intro _; intros; try dsimp only))

theorem execTierPinClear_keeps {tch : List Field} {s0 : State} (who : Agent) (n : Nat) (s : State)
    (hs : Keeps tch s0 s)
    (hw : Within [.hfifo, .msix, .tier, .cdie, .hif, .regs] tch := by exact Within.of (by assumption) rfl) :
    OnNext (Keeps tch s0) (execTierPinClear who n s) := by
  unfold execTierPinClear
  try dsimp only
  repeat' (first
    | (with_reducible assumption) | exact hw.of rfl | (with_reducible apply pfWrite_keeps)
    | (with_reducible apply pinClear_keeps) | (with_reducible apply OnNext.next)
    | (with_reducible apply OnNext.fault) | split | (intro _; intros; try dsimp only))

theorem execTierPinResident_keeps {tch : List Field} {s0 : State} (n : Nat) (s : State) (hs : Keeps tch s0 s)
    (hw : Within [.tier] tch := by exact Within.of (by assumption) rfl) :
    OnNext (Keeps tch s0) (execTierPinResident n s) := by
  unfold execTierPinResident
  try dsimp only
  repeat' (first
    | (with_reducible assumption) | exact hw.of rfl | (with_reducible apply withTier_keeps)
    | (with_reducible apply OnNext.next) | (with_reducible apply OnNext.fault) | split)

theorem execWearLevelling_keeps {tch : List Field} {s0 : State} (die : Nat) (fromBlock : Nat)
    (toBlock : Nat) (s : State) (hs : Keeps tch s0 s)
    (hw : Within [.tier] tch := by exact Within.of (by assumption) rfl) :
    OnNext (Keeps tch s0) (execWearLevelling die fromBlock toBlock s) := by
  unfold execWearLevelling
  try dsimp only
  repeat' (first
    | (with_reducible assumption) | exact hw.of rfl | (with_reducible apply State.updTdie_keeps)
    | (with_reducible apply OnNext.next) | (with_reducible apply OnNext.fault) | split)

theorem execReadDisturbRelocate_keeps {tch : List Field} {s0 : State} (die : Nat) (block : Nat) (s : State)
    (hs : Keeps tch s0 s)
    (hw : Within [.tier] tch := by exact Within.of (by assumption) rfl) :
    OnNext (Keeps tch s0) (execReadDisturbRelocate die block s) := by
  unfold execReadDisturbRelocate
  try dsimp only
  repeat' (first
    | (with_reducible assumption) | exact hw.of rfl | (with_reducible apply State.updTdie_keeps)
    | (with_reducible apply OnNext.next) | (with_reducible apply OnNext.fault) | split)

theorem execBadBlockRetire_keeps {tch : List Field} {s0 : State} (die : Nat) (block : Nat) (repl : Nat)
    (spare : Nat) (s : State) (hs : Keeps tch s0 s)
    (hw : Within [.hfifo, .msix, .tier, .cdie, .hif] tch := by exact Within.of (by assumption) rfl) :
    OnNext (Keeps tch s0) (execBadBlockRetire die block repl spare s) := by
  unfold execBadBlockRetire
  try dsimp only
  repeat' (first
    | (with_reducible assumption) | exact hw.of rfl | (with_reducible apply State.updTdie_keeps)
    | (with_reducible apply post_keeps) | (with_reducible apply OnNext.next) | (with_reducible apply OnNext.fault)
    | split)

theorem loseFrame_keeps {tch : List Field} {s0 : State} (f : Nat) (s : State) (hs : Keeps tch s0 s)
    (hw : Within [.hfifo, .msix, .stack, .pool, .tier, .cdie, .hif] tch := by exact Within.of (by assumption) rfl) :
    Keeps tch s0 (loseFrame f s) := by
  unfold loseFrame
  try dsimp only
  repeat' (first
    | (with_reducible assumption) | exact hw.of rfl | (with_reducible apply dropCopies_keeps)
    | (with_reducible apply post_keeps) | (with_reducible apply freeFrame_keeps)
    | (with_reducible apply notResident_keeps) | (with_reducible apply foldl_keeps) | split
    | (intro _; intros; try dsimp only))

theorem tierFails_keeps {tch : List Field} {s0 : State} (die : Nat) (cause : Nat) (s : State)
    (hs : Keeps tch s0 s)
    (hw : Within [.glb, .repair, .boot, .link, .hub, .hfifo, .msix, .sync, .mem, .stack, .pool, .tier, .xlt, .cdie,
    .hif, .disp, .pwr, .tile] tch := by exact Within.of (by assumption) rfl) :
    Keeps tch s0 (tierFails die cause s) := by
  unfold tierFails
  try dsimp only
  repeat' (first
    | (with_reducible assumption) | exact hw.of rfl | (with_reducible apply State.updTdie_keeps)
    | (with_reducible apply loseFrame_keeps) | (with_reducible apply withTier_keeps)
    | (with_reducible apply windowsGo_keeps) | (with_reducible apply dieFailed_keeps)
    | (with_reducible apply refuseAs_keeps) | (with_reducible apply foldl_keeps) | split
    | (intro _; intros; try dsimp only))

theorem execTierDieFailure_keeps {tch : List Field} {s0 : State} (die : Nat) (s : State) (hs : Keeps tch s0 s)
    (hw : Within [.glb, .repair, .boot, .link, .hub, .hfifo, .msix, .sync, .mem, .stack, .pool, .tier, .xlt, .cdie,
    .hif, .disp, .pwr, .tile] tch := by exact Within.of (by assumption) rfl) :
    OnNext (Keeps tch s0) (execTierDieFailure die s) := by
  unfold execTierDieFailure
  try dsimp only
  repeat' (first
    | (with_reducible assumption) | exact hw.of rfl | (with_reducible apply tierFails_keeps)
    | (with_reducible apply OnNext.next) | (with_reducible apply OnNext.fault) | split)

theorem execTierDieRead_keeps {tch : List Field} {s0 : State} (who : Agent) (die : Nat) (s : State)
    (hs : Keeps tch s0 s)
    (hw : Within [.tier, .replies] tch := by exact Within.of (by assumption) rfl) :
    OnNext (Keeps tch s0) (execTierDieRead who die s) := by
  unfold execTierDieRead
  try dsimp only
  repeat' (first
    | (with_reducible assumption) | exact hw.of rfl | (with_reducible apply State.updTdie_keeps)
    | (with_reducible apply reply_keeps) | (with_reducible apply shutRead_keeps) | (with_reducible apply OnNext.next)
    | (with_reducible apply OnNext.fault) | split)

theorem execMemPoolstatRead_keeps {tch : List Field} {s0 : State} (who : Agent) (die : Nat) (s : State)
    (hs : Keeps tch s0 s)
    (hw : Within [.pool, .replies] tch := by exact Within.of (by assumption) rfl) :
    OnNext (Keeps tch s0) (execMemPoolstatRead who die s) := by
  unfold execMemPoolstatRead
  try dsimp only
  repeat' (first
    | (with_reducible assumption) | exact hw.of rfl | (with_reducible apply State.updPool_keeps)
    | (with_reducible apply reply_keeps) | (with_reducible apply shutRead_keeps) | (with_reducible apply OnNext.next)
    | (with_reducible apply OnNext.fault) | split)

theorem accessAt_keeps {tch : List Field} {s0 : State} (p : Pkt) (e : DramErr) (s : State)
    (hs : Keeps tch s0 s)
    (hw : Within [.link, .hub, .hfifo, .msix, .mem, .stack, .pool, .tier, .cdie, .hif, .disp,
    .rna] tch := by exact Within.of (by assumption) rfl) :
    Keeps tch s0 (accessAt p e s) := by
  unfold accessAt
  try dsimp only
  repeat' (first
    | (with_reducible assumption) | exact hw.of rfl | (with_reducible apply tierStall_keeps)
    | (with_reducible apply homeStart_keeps) | (with_reducible apply poolArrive_keeps)
    | (with_reducible apply hostArrive_keeps) | (with_reducible apply ranoaArrive_keeps)
    | (with_reducible apply redirect_keeps) | (with_reducible apply refuse_keeps) | split)

theorem accessRow_keeps {tch : List Field} {s0 : State} (p : Pkt) (e : DramErr) (s : State)
    (hs : Keeps tch s0 s)
    (hw : Within [.link, .hub, .hfifo, .msix, .mem, .stack, .pool, .tier, .cdie, .hif, .disp,
    .rna] tch := by exact Within.of (by assumption) rfl) :
    Keeps tch s0 (accessRow p e s) := by
  exact homeRow_keeps _ _ _ hs (fun u h => accessAt_keeps _ _ _ h (hw.of rfl)) (hw.of rfl)

theorem execRead_keeps {tch : List Field} {s0 : State} (p : Pkt) (e : DramErr) (s : State)
    (hs : Keeps tch s0 s)
    (hw : Within [.link, .hub, .hfifo, .msix, .mem, .stack, .pool, .tier, .cdie, .hif, .disp,
    .rna] tch := by exact Within.of (by assumption) rfl) :
    OnNext (Keeps tch s0) (execRead p e s) := by
  unfold execRead
  try dsimp only
  repeat' (first
    | (with_reducible assumption) | exact hw.of rfl | (with_reducible apply accessRow_keeps)
    | (with_reducible apply OnNext.next) | (with_reducible apply OnNext.fault) | split)

theorem execNarrowRead_keeps {tch : List Field} {s0 : State} (p : Pkt) (e : DramErr) (s : State)
    (hs : Keeps tch s0 s)
    (hw : Within [.link, .hub, .hfifo, .msix, .mem, .stack, .pool, .tier, .cdie, .hif, .disp,
    .rna] tch := by exact Within.of (by assumption) rfl) :
    OnNext (Keeps tch s0) (execNarrowRead p e s) := by
  unfold execNarrowRead
  try dsimp only
  repeat' (first
    | (with_reducible assumption) | exact hw.of rfl | (with_reducible apply accessRow_keeps)
    | (with_reducible apply OnNext.next) | (with_reducible apply OnNext.fault) | split)

theorem execWrite_keeps {tch : List Field} {s0 : State} (p : Pkt) (s : State) (hs : Keeps tch s0 s)
    (hw : Within [.link, .hub, .hfifo, .msix, .mem, .stack, .pool, .tier, .cdie, .hif, .disp,
    .rna] tch := by exact Within.of (by assumption) rfl) :
    OnNext (Keeps tch s0) (execWrite p s) := by
  unfold execWrite
  try dsimp only
  repeat' (first
    | (with_reducible assumption) | exact hw.of rfl | (with_reducible apply accessRow_keeps)
    | (with_reducible apply OnNext.next) | (with_reducible apply OnNext.fault) | split)

theorem execWriteMasked_keeps {tch : List Field} {s0 : State} (p : Pkt) (e : DramErr) (s : State)
    (hs : Keeps tch s0 s)
    (hw : Within [.link, .hub, .hfifo, .msix, .mem, .stack, .pool, .tier, .cdie, .hif, .disp,
    .rna] tch := by exact Within.of (by assumption) rfl) :
    OnNext (Keeps tch s0) (execWriteMasked p e s) := by
  unfold execWriteMasked
  try dsimp only
  repeat' (first
    | (with_reducible assumption) | exact hw.of rfl | (with_reducible apply accessRow_keeps)
    | (with_reducible apply OnNext.next) | (with_reducible apply OnNext.fault) | split)

theorem execAtomicSwap_keeps {tch : List Field} {s0 : State} (p : Pkt) (e : DramErr) (s : State)
    (hs : Keeps tch s0 s)
    (hw : Within [.link, .hub, .hfifo, .msix, .mem, .stack, .pool, .tier, .cdie, .hif, .disp,
    .rna] tch := by exact Within.of (by assumption) rfl) :
    OnNext (Keeps tch s0) (execAtomicSwap p e s) := by
  unfold execAtomicSwap
  try dsimp only
  repeat' (first
    | (with_reducible assumption) | exact hw.of rfl | (with_reducible apply accessRow_keeps)
    | (with_reducible apply OnNext.next) | (with_reducible apply OnNext.fault) | split)

theorem execAtomicAdd_keeps {tch : List Field} {s0 : State} (p : Pkt) (e : DramErr) (s : State)
    (hs : Keeps tch s0 s)
    (hw : Within [.link, .hub, .hfifo, .msix, .mem, .stack, .pool, .tier, .cdie, .hif, .disp,
    .rna] tch := by exact Within.of (by assumption) rfl) :
    OnNext (Keeps tch s0) (execAtomicAdd p e s) := by
  unfold execAtomicAdd
  try dsimp only
  repeat' (first
    | (with_reducible assumption) | exact hw.of rfl | (with_reducible apply accessRow_keeps)
    | (with_reducible apply OnNext.next) | (with_reducible apply OnNext.fault) | split)

theorem execAtomicAnd_keeps {tch : List Field} {s0 : State} (p : Pkt) (e : DramErr) (s : State)
    (hs : Keeps tch s0 s)
    (hw : Within [.link, .hub, .hfifo, .msix, .mem, .stack, .pool, .tier, .cdie, .hif, .disp,
    .rna] tch := by exact Within.of (by assumption) rfl) :
    OnNext (Keeps tch s0) (execAtomicAnd p e s) := by
  unfold execAtomicAnd
  try dsimp only
  repeat' (first
    | (with_reducible assumption) | exact hw.of rfl | (with_reducible apply accessRow_keeps)
    | (with_reducible apply OnNext.next) | (with_reducible apply OnNext.fault) | split)

theorem execAtomicOr_keeps {tch : List Field} {s0 : State} (p : Pkt) (e : DramErr) (s : State)
    (hs : Keeps tch s0 s)
    (hw : Within [.link, .hub, .hfifo, .msix, .mem, .stack, .pool, .tier, .cdie, .hif, .disp,
    .rna] tch := by exact Within.of (by assumption) rfl) :
    OnNext (Keeps tch s0) (execAtomicOr p e s) := by
  unfold execAtomicOr
  try dsimp only
  repeat' (first
    | (with_reducible assumption) | exact hw.of rfl | (with_reducible apply accessRow_keeps)
    | (with_reducible apply OnNext.next) | (with_reducible apply OnNext.fault) | split)

theorem execAtomicXor_keeps {tch : List Field} {s0 : State} (p : Pkt) (e : DramErr) (s : State)
    (hs : Keeps tch s0 s)
    (hw : Within [.link, .hub, .hfifo, .msix, .mem, .stack, .pool, .tier, .cdie, .hif, .disp,
    .rna] tch := by exact Within.of (by assumption) rfl) :
    OnNext (Keeps tch s0) (execAtomicXor p e s) := by
  unfold execAtomicXor
  try dsimp only
  repeat' (first
    | (with_reducible assumption) | exact hw.of rfl | (with_reducible apply accessRow_keeps)
    | (with_reducible apply OnNext.next) | (with_reducible apply OnNext.fault) | split)

theorem execAtomicMin_keeps {tch : List Field} {s0 : State} (p : Pkt) (e : DramErr) (s : State)
    (hs : Keeps tch s0 s)
    (hw : Within [.link, .hub, .hfifo, .msix, .mem, .stack, .pool, .tier, .cdie, .hif, .disp,
    .rna] tch := by exact Within.of (by assumption) rfl) :
    OnNext (Keeps tch s0) (execAtomicMin p e s) := by
  unfold execAtomicMin
  try dsimp only
  repeat' (first
    | (with_reducible assumption) | exact hw.of rfl | (with_reducible apply accessRow_keeps)
    | (with_reducible apply OnNext.next) | (with_reducible apply OnNext.fault) | split)

theorem execAtomicMax_keeps {tch : List Field} {s0 : State} (p : Pkt) (e : DramErr) (s : State)
    (hs : Keeps tch s0 s)
    (hw : Within [.link, .hub, .hfifo, .msix, .mem, .stack, .pool, .tier, .cdie, .hif, .disp,
    .rna] tch := by exact Within.of (by assumption) rfl) :
    OnNext (Keeps tch s0) (execAtomicMax p e s) := by
  unfold execAtomicMax
  try dsimp only
  repeat' (first
    | (with_reducible assumption) | exact hw.of rfl | (with_reducible apply accessRow_keeps)
    | (with_reducible apply OnNext.next) | (with_reducible apply OnNext.fault) | split)

theorem execAtomicMinu_keeps {tch : List Field} {s0 : State} (p : Pkt) (e : DramErr) (s : State)
    (hs : Keeps tch s0 s)
    (hw : Within [.link, .hub, .hfifo, .msix, .mem, .stack, .pool, .tier, .cdie, .hif, .disp,
    .rna] tch := by exact Within.of (by assumption) rfl) :
    OnNext (Keeps tch s0) (execAtomicMinu p e s) := by
  unfold execAtomicMinu
  try dsimp only
  repeat' (first
    | (with_reducible assumption) | exact hw.of rfl | (with_reducible apply accessRow_keeps)
    | (with_reducible apply OnNext.next) | (with_reducible apply OnNext.fault) | split)

theorem execAtomicMaxu_keeps {tch : List Field} {s0 : State} (p : Pkt) (e : DramErr) (s : State)
    (hs : Keeps tch s0 s)
    (hw : Within [.link, .hub, .hfifo, .msix, .mem, .stack, .pool, .tier, .cdie, .hif, .disp,
    .rna] tch := by exact Within.of (by assumption) rfl) :
    OnNext (Keeps tch s0) (execAtomicMaxu p e s) := by
  unfold execAtomicMaxu
  try dsimp only
  repeat' (first
    | (with_reducible assumption) | exact hw.of rfl | (with_reducible apply accessRow_keeps)
    | (with_reducible apply OnNext.next) | (with_reducible apply OnNext.fault) | split)

theorem execGatherRows_keeps {tch : List Field} {s0 : State} (p : Pkt) (e : DramErr) (s : State)
    (hs : Keeps tch s0 s)
    (hw : Within [.link, .hub, .hfifo, .msix, .mem, .stack, .pool, .tier, .cdie, .hif, .disp,
    .rna] tch := by exact Within.of (by assumption) rfl) :
    OnNext (Keeps tch s0) (execGatherRows p e s) := by
  unfold execGatherRows
  try dsimp only
  repeat' (first
    | (with_reducible assumption) | exact hw.of rfl | (with_reducible apply accessRow_keeps)
    | (with_reducible apply OnNext.next) | (with_reducible apply OnNext.fault) | split)

theorem execScatterAdd_keeps {tch : List Field} {s0 : State} (p : Pkt) (e : DramErr) (s : State)
    (hs : Keeps tch s0 s)
    (hw : Within [.link, .hub, .hfifo, .msix, .mem, .stack, .pool, .tier, .cdie, .hif, .disp,
    .rna] tch := by exact Within.of (by assumption) rfl) :
    OnNext (Keeps tch s0) (execScatterAdd p e s) := by
  unfold execScatterAdd
  try dsimp only
  repeat' (first
    | (with_reducible assumption) | exact hw.of rfl | (with_reducible apply accessRow_keeps)
    | (with_reducible apply OnNext.next) | (with_reducible apply OnNext.fault) | split)

theorem execCoreAccessFault_keeps {tch : List Field} {s0 : State} (core : Nat) (addr : Nat) (size : Nat)
    (kind : AccKind) (s : State) (hs : Keeps tch s0 s)
    (hw : Within [.core] tch := by exact Within.of (by assumption) rfl) :
    OnNext (Keeps tch s0) (execCoreAccessFault core addr size kind s) := by
  unfold execCoreAccessFault
  try dsimp only
  repeat' (first
    | (with_reducible assumption) | exact hw.of rfl | (with_reducible apply coreTrap_keeps)
    | (with_reducible apply OnNext.next) | (with_reducible apply OnNext.fault) | split)

end Sys2Proof.Machine
end

