-- ==== Sys2Proof/Laws/KeepsTile.lean ====
section
/-!
SUPPORT. What every operation of power, acceptance, tile code control, slots and table walks keeps (Keeps, Laws/Next.lean):
one law per operation.
-/
namespace Sys2Proof.Machine
set_option Elab.async false

theorem countHeld_keeps {tch : List Field} {s0 : State} (n : Nat) (s : State) (hs : Keeps tch s0 s)
    (hw : Within [.tile] tch := by exact Within.of (by assumption) rfl) :
    Keeps tch s0 (countHeld n s) := by
  unfold countHeld
  try dsimp only
  repeat' (first
    | (with_reducible assumption) | exact hw.of rfl | (with_reducible apply State.updTile_keeps)
    | (with_reducible apply foldl_keeps) | split | (intro _; intros; try dsimp only))

theorem holdArrays_keeps {tch : List Field} {s0 : State} (s : State) (hs : Keeps tch s0 s)
    (hw : Within [.tile] tch := by exact Within.of (by assumption) rfl) :
    Keeps tch s0 (holdArrays s) := by
  unfold holdArrays
  try dsimp only
  repeat' (first
    | (with_reducible assumption) | exact hw.of rfl | (with_reducible apply countHeld_keeps) | split)

theorem raiseVolts_keeps {tch : List Field} {s0 : State} (ports : List Nat) (div : Nat) (s : State)
    (hs : Keeps tch s0 s)
    (hw : Within [.pwr] tch := by exact Within.of (by assumption) rfl) :
    Keeps tch s0 (raiseVolts ports div s) := by
  unfold raiseVolts
  try dsimp only
  repeat' (first
    | (with_reducible assumption) | exact hw.of rfl | (with_reducible apply setVolt_keeps)
    | (with_reducible apply foldl_keeps) | split | (intro _; intros; try dsimp only))

theorem lowerVolts_keeps {tch : List Field} {s0 : State} (ports : List Nat) (div : Nat) (s : State)
    (hs : Keeps tch s0 s)
    (hw : Within [.pwr] tch := by exact Within.of (by assumption) rfl) :
    Keeps tch s0 (lowerVolts ports div s) := by
  unfold lowerVolts
  try dsimp only
  repeat' (first
    | (with_reducible assumption) | exact hw.of rfl | (with_reducible apply setVolt_keeps)
    | (with_reducible apply foldl_keeps) | split | (intro _; intros; try dsimp only))

theorem moveDiv_keeps {tch : List Field} {s0 : State} (d : Nat) (s : State) (hs : Keeps tch s0 s)
    (hw : Within [.pwr, .tile] tch := by exact Within.of (by assumption) rfl) :
    Keeps tch s0 (moveDiv d s) := by
  unfold moveDiv
  try dsimp only
  repeat' (first
    | (with_reducible assumption) | exact hw.of rfl | (with_reducible apply raiseVolts_keeps)
    | (with_reducible apply lowerVolts_keeps) | (with_reducible apply holdArrays_keeps)
    | (with_reducible apply withPwr_keeps) | split)

theorem moveCoreDiv_keeps {tch : List Field} {s0 : State} (die : Nat) (d : Nat) (s : State)
    (hs : Keeps tch s0 s)
    (hw : Within [.cdie, .pwr, .tile] tch := by exact Within.of (by assumption) rfl) :
    Keeps tch s0 (moveCoreDiv die d s) := by
  unfold moveCoreDiv
  try dsimp only
  repeat' (first
    | (with_reducible assumption) | exact hw.of rfl | (with_reducible apply lowerVolts_keeps)
    | (with_reducible apply holdArrays_keeps) | (with_reducible apply State.updCdie_keeps)
    | (with_reducible apply raiseVolts_keeps) | split)

theorem tempOne_keeps {tch : List Field} {s0 : State} (r : TempReading) (acc : List EvItem × State)
    (hs : Keeps tch s0 acc.2)
    (hw : Within [.pwr] tch := by exact Within.of (by assumption) rfl) :
    Keeps tch s0 (tempOne r acc).2 := by
  unfold tempOne
  try dsimp only
  repeat' (first
    | (with_reducible assumption) | exact hw.of rfl | (with_reducible apply withPwr_keeps) | split)

theorem execTempSample_keeps {tch : List Field} {s0 : State} (temps : List TempReading) (s : State)
    (hs : Keeps tch s0 s)
    (hw : Within [.glb, .boot, .ivory, .link, .hub, .hfifo, .msix, .sync, .counted, .mem, .stack, .memc, .pool,
    .tier, .xlt, .core, .cdie, .hif, .sess, .disp, .rna, .pwr, .tile, .regs,
    .time] tch := by exact Within.of (by assumption) rfl) :
    OnNext (Keeps tch s0) (execTempSample temps s) := by
  have k : ∀ l : List TempReading, Keeps tch s0 (l.foldl (fun (acc : List EvItem × State) r => tempOne r acc) ([], s)).2 := fun l =>
    foldl_inv (fun (x : List EvItem × State) => Keeps tch s0 x.2) _ (fun x r h => tempOne_keeps r x h (hw.of rfl)) l _ hs
  unfold execTempSample
  (try dsimp only)
  repeat' (first
    | (with_reducible assumption) | exact hw.of rfl | (with_reducible apply OnNext.next) | exact k _
    | (with_reducible apply thermTrip_keeps) | (with_reducible apply postAll_keeps) | split)

theorem execHubThermtripComparator_keeps {tch : List Field} {s0 : State} (s : State) (hs : Keeps tch s0 s)
    (hw : Within [.glb, .boot, .ivory, .link, .hub, .hfifo, .msix, .sync, .counted, .mem, .stack, .memc, .pool,
    .tier, .xlt, .core, .cdie, .hif, .sess, .disp, .rna, .pwr, .tile, .regs,
    .time] tch := by exact Within.of (by assumption) rfl) :
    OnNext (Keeps tch s0) (execHubThermtripComparator s) := by
  unfold execHubThermtripComparator
  try dsimp only
  repeat' (first
    | (with_reducible assumption) | exact hw.of rfl | (with_reducible apply thermTrip_keeps)
    | (with_reducible apply OnNext.next) | (with_reducible apply OnNext.fault) | split)

theorem execCoreThrottleStep_keeps {tch : List Field} {s0 : State} (die : Nat) (s : State)
    (hs : Keeps tch s0 s)
    (hw : Within [.cdie, .pwr, .tile] tch := by exact Within.of (by assumption) rfl) :
    OnNext (Keeps tch s0) (execCoreThrottleStep die s) := by
  unfold execCoreThrottleStep
  try dsimp only
  repeat' (first
    | (with_reducible assumption) | exact hw.of rfl | (with_reducible apply moveCoreDiv_keeps)
    | (with_reducible apply OnNext.next) | (with_reducible apply OnNext.fault) | split)

theorem setDiv_keeps {tch : List Field} {s0 : State} (d : Nat) (s : State) (hs : Keeps tch s0 s)
    (hw : Within [.hfifo, .msix, .cdie, .hif, .pwr, .tile] tch := by exact Within.of (by assumption) rfl) :
    Keeps tch s0 (setDiv d s) := by
  unfold setDiv
  try dsimp only
  repeat' (first
    | (with_reducible assumption) | exact hw.of rfl | (with_reducible apply moveDiv_keeps)
    | (with_reducible apply withPwr_keeps) | (with_reducible apply post_keeps) | split)

theorem idleTick_keeps {tch : List Field} {s0 : State} (s : State) (hs : Keeps tch s0 s)
    (hw : Within [.stack, .tile, .time] tch := by exact Within.of (by assumption) rfl) :
    Keeps tch s0 (idleTick s) := by
  unfold idleTick
  try dsimp only
  repeat' (first
    | (with_reducible assumption) | exact hw.of rfl | (with_reducible apply drainBuffers_keeps)
    | (with_reducible apply countHeld_keeps) | (with_reducible apply tick_keeps) | split)

theorem execFastLoopTick_keeps {tch : List Field} {s0 : State} (watts : Nat) (s : State) (hs : Keeps tch s0 s)
    (hw : Within [.pwr] tch := by exact Within.of (by assumption) rfl) :
    OnNext (Keeps tch s0) (execFastLoopTick watts s) := by
  unfold execFastLoopTick
  try dsimp only
  repeat' (first
    | (with_reducible assumption) | exact hw.of rfl | (with_reducible apply withPwr_keeps)
    | (with_reducible apply OnNext.next) | (with_reducible apply OnNext.fault) | split)

theorem slowSlate_keeps {tch : List Field} {s0 : State} (s : State) (hs : Keeps tch s0 s)
    (hw : Within [.hfifo, .msix, .cdie, .hif, .pwr, .tile] tch := by exact Within.of (by assumption) rfl) :
    Keeps tch s0 (slowSlate s) := by
  unfold slowSlate
  try dsimp only
  repeat' (first
    | (with_reducible assumption) | exact hw.of rfl | (with_reducible apply setDiv_keeps)
    | (with_reducible apply withPwr_keeps) | split)

theorem slowOchre_keeps {tch : List Field} {s0 : State} (watts : Nat) (s : State) (hs : Keeps tch s0 s)
    (hw : Within [.hfifo, .msix, .cdie, .hif, .pwr, .tile, .free] tch := by exact Within.of (by assumption) rfl) :
    Keeps tch s0 (slowOchre watts s) := by
  unfold slowOchre
  try dsimp only
  repeat' (first
    | (with_reducible assumption) | exact hw.of rfl | (with_reducible apply State.draw_keeps)
    | (with_reducible apply setDiv_keeps) | (with_reducible apply withPwr_keeps)
    | (with_reducible refine Keeps.of_snd (by assumption) ?_) | split | dsimp only)

theorem execSlowLoopTick_keeps {tch : List Field} {s0 : State} (watts : Nat) (vin : Nat) (s : State)
    (hs : Keeps tch s0 s)
    (hw : Within [.boot, .hfifo, .msix, .cdie, .hif, .pwr, .tile,
    .free] tch := by exact Within.of (by assumption) rfl) :
    OnNext (Keeps tch s0) (execSlowLoopTick watts vin s) := by
  unfold execSlowLoopTick
  try dsimp only
  repeat' (first
    | (with_reducible assumption) | exact hw.of rfl | (with_reducible apply withBoot_keeps)
    | (with_reducible apply withPwr_keeps) | (with_reducible apply slowOchre_keeps)
    | (with_reducible apply slowSlate_keeps) | (with_reducible apply OnNext.next)
    | (with_reducible apply OnNext.fault) | split)

theorem execFloorRecompute_keeps {tch : List Field} {s0 : State} (floor : Nat) (s : State)
    (hs : Keeps tch s0 s)
    (hw : Within [.hfifo, .msix, .cdie, .hif, .pwr] tch := by exact Within.of (by assumption) rfl) :
    OnNext (Keeps tch s0) (execFloorRecompute floor s) := by
  unfold execFloorRecompute
  try dsimp only
  repeat' (first
    | (with_reducible assumption) | exact hw.of rfl | (with_reducible apply withPwr_keeps)
    | (with_reducible apply post_keeps) | (with_reducible apply OnNext.next) | (with_reducible apply OnNext.fault)
    | split)

theorem toSetpoint_keeps {tch : List Field} {s0 : State} (s : State) (hs : Keeps tch s0 s)
    (hw : Within [.cdie, .pwr, .tile] tch := by exact Within.of (by assumption) rfl) :
    Keeps tch s0 (toSetpoint s) := by
  unfold toSetpoint
  try dsimp only
  repeat' (first
    | (with_reducible assumption) | exact hw.of rfl | (with_reducible apply moveCoreDiv_keeps)
    | (with_reducible apply moveDiv_keeps) | (with_reducible apply foldl_keeps) | split
    | (intro _; intros; try dsimp only))

theorem toQual_keeps {tch : List Field} {s0 : State} (s : State) (hs : Keeps tch s0 s)
    (hw : Within [.cdie, .pwr, .tile] tch := by exact Within.of (by assumption) rfl) :
    Keeps tch s0 (toQual s) := by
  unfold toQual
  try dsimp only
  repeat' (first
    | (with_reducible assumption) | exact hw.of rfl | (with_reducible apply moveDiv_keeps)
    | (with_reducible apply withPwr_keeps) | (with_reducible apply moveCoreDiv_keeps)
    | (with_reducible apply foldl_keeps) | split | (intro _; intros; try dsimp only))

theorem execPwrCtlWrite_keeps {tch : List Field} {s0 : State} (who : Agent) (v : Word) (s : State)
    (hs : Keeps tch s0 s)
    (hw : Within [.hfifo, .msix, .cdie, .hif, .pwr, .tile, .regs] tch := by exact Within.of (by assumption) rfl) :
    OnNext (Keeps tch s0) (execPwrCtlWrite who v s) := by
  unfold execPwrCtlWrite
  try dsimp only
  repeat' (first
    | (with_reducible assumption) | exact hw.of rfl | (with_reducible apply pfWrite_keeps)
    | (with_reducible apply State.setReg_keeps) | (with_reducible apply toSetpoint_keeps)
    | (with_reducible apply OnNext.next) | (with_reducible apply OnNext.fault) | split
    | (intro _; intros; try dsimp only))

theorem execPwrCapWrite_keeps {tch : List Field} {s0 : State} (who : Agent) (v : Word) (s : State)
    (hs : Keeps tch s0 s)
    (hw : Within [.hfifo, .msix, .cdie, .hif, .regs] tch := by exact Within.of (by assumption) rfl) :
    OnNext (Keeps tch s0) (execPwrCapWrite who v s) := by
  unfold execPwrCapWrite
  try dsimp only
  repeat' (first
    | (with_reducible assumption) | exact hw.of rfl | (with_reducible apply pfWrite_keeps)
    | (with_reducible apply State.setReg_keeps) | (with_reducible apply OnNext.next)
    | (with_reducible apply OnNext.fault) | split | (intro _; intros; try dsimp only))

theorem execPwrGroupWrite_keeps {tch : List Field} {s0 : State} (who : Agent) (v : Word) (s : State)
    (hs : Keeps tch s0 s)
    (hw : Within [.hfifo, .msix, .cdie, .hif, .pwr, .regs] tch := by exact Within.of (by assumption) rfl) :
    OnNext (Keeps tch s0) (execPwrGroupWrite who v s) := by
  unfold execPwrGroupWrite
  try dsimp only
  repeat' (first
    | (with_reducible assumption) | exact hw.of rfl | (with_reducible apply pfWrite_keeps)
    | (with_reducible apply State.setReg_keeps) | (with_reducible apply withPwr_keeps)
    | (with_reducible apply OnNext.next) | (with_reducible apply OnNext.fault) | split
    | (intro _; intros; try dsimp only))

theorem hintVolt_keeps {tch : List Field} {s0 : State} (tile : Nat) (cls : Nat) (s : State)
    (hs : Keeps tch s0 s)
    (hw : Within [.pwr, .free] tch := by exact Within.of (by assumption) rfl) :
    Keeps tch s0 (hintVolt tile cls s) := by
  unfold hintVolt
  try dsimp only
  repeat' (first
    | (with_reducible assumption) | exact hw.of rfl | (with_reducible apply State.draw_keeps)
    | (with_reducible apply setVolt_keeps) | (with_reducible apply runVolt_keeps)
    | (with_reducible refine Keeps.of_snd (by assumption) ?_) | split | dsimp only)

theorem execHintPhaseStart_keeps {tch : List Field} {s0 : State} (tile : Nat) (s : State)
    (hs : Keeps tch s0 s)
    (hw : Within [.hfifo, .msix, .cdie, .hif, .pwr, .tile, .free] tch := by exact Within.of (by assumption) rfl) :
    OnNext (Keeps tch s0) (execHintPhaseStart tile s) := by
  unfold execHintPhaseStart
  try dsimp only
  repeat' (first
    | (with_reducible assumption) | exact hw.of rfl | (with_reducible apply hintVolt_keeps)
    | (with_reducible apply withPwr_keeps) | (with_reducible apply State.draw_keeps)
    | (with_reducible apply setDiv_keeps) | (with_reducible apply OnNext.next) | (with_reducible apply OnNext.fault)
    | (with_reducible refine Keeps.of_snd (by assumption) ?_) | split | dsimp only)

theorem execHintLapse_keeps {tch : List Field} {s0 : State} (tile : Nat) (s : State) (hs : Keeps tch s0 s)
    (hw : Within [.pwr] tch := by exact Within.of (by assumption) rfl) :
    OnNext (Keeps tch s0) (execHintLapse tile s) := by
  unfold execHintLapse
  try dsimp only
  repeat' (first
    | (with_reducible assumption) | exact hw.of rfl | (with_reducible apply withPwr_keeps)
    | (with_reducible apply OnNext.next) | (with_reducible apply OnNext.fault) | split)

theorem sbSend_keeps {tch : List Field} {s0 : State} (dest : Nat → Bool) (m : SbMsg) (s : State)
    (hs : Keeps tch s0 s)
    (hw : Within [.rna] tch := by exact Within.of (by assumption) rfl) :
    Keeps tch s0 (sbSend dest m s) := by
  unfold sbSend
  try dsimp only
  repeat' (first
    | (with_reducible assumption) | exact hw.of rfl | (with_reducible apply sendR_keeps)
    | (with_reducible apply foldl_keeps) | split | (intro _; intros; try dsimp only))

theorem sbNote_keeps {tch : List Field} {s0 : State} (origin : Nat) (seq : Nat) (s : State)
    (hs : Keeps tch s0 s)
    (hw : Within [.rna] tch := by exact Within.of (by assumption) rfl) :
    Keeps tch s0 (sbNote origin seq s) := by
  unfold sbNote
  try dsimp only
  repeat' (first
    | (with_reducible assumption) | exact hw.of rfl | (with_reducible apply withRna_keeps) | split)

theorem setMember_keeps {tch : List Field} {s0 : State} (m : Member) (s : State) (hs : Keeps tch s0 s)
    (hw : Within [.pwr] tch := by exact Within.of (by assumption) rfl) :
    Keeps tch s0 (setMember m s) := by
  unfold setMember
  try dsimp only
  repeat' (first
    | (with_reducible assumption) | exact hw.of rfl | (with_reducible apply withPwr_keeps) | split)

theorem sbTake_keeps {tch : List Field} {s0 : State} (m : SbMsg) (s : State) (hs : Keeps tch s0 s)
    (hw : Within [.hfifo, .msix, .cdie, .hif, .pwr, .tile] tch := by exact Within.of (by assumption) rfl) :
    Keeps tch s0 (sbTake m s) := by
  unfold sbTake
  try dsimp only
  repeat' (first
    | (with_reducible assumption) | exact hw.of rfl | (with_reducible apply post_keeps)
    | (with_reducible apply setMember_keeps) | (with_reducible apply setDiv_keeps) | split)

theorem execSbMsg_keeps {tch : List Field} {s0 : State} (port : Nat) (m : SbMsg) (s : State)
    (hs : Keeps tch s0 s)
    (hw : Within [.hfifo, .msix, .cdie, .hif, .rna, .pwr, .tile] tch := by exact Within.of (by assumption) rfl) :
    OnNext (Keeps tch s0) (execSbMsg port m s) := by
  unfold execSbMsg
  try dsimp only
  repeat' (first
    | (with_reducible assumption) | exact hw.of rfl | (with_reducible apply rTake_keeps)
    | (with_reducible apply sbSend_keeps) | (with_reducible apply sbTake_keeps) | (with_reducible apply sbNote_keeps)
    | (with_reducible apply OnNext.next) | (with_reducible apply OnNext.fault) | split)

theorem execSbMsgSend_keeps {tch : List Field} {s0 : State} (busy : Nat) (s : State) (hs : Keeps tch s0 s)
    (hw : Within [.rna, .pwr] tch := by exact Within.of (by assumption) rfl) :
    OnNext (Keeps tch s0) (execSbMsgSend busy s) := by
  unfold execSbMsgSend
  try dsimp only
  repeat' (first
    | (with_reducible assumption) | exact hw.of rfl | (with_reducible apply sbNote_keeps)
    | (with_reducible apply withRna_keeps) | (with_reducible apply sbSend_keeps)
    | (with_reducible apply setMember_keeps) | (with_reducible apply OnNext.next)
    | (with_reducible apply OnNext.fault) | split)

theorem execGroupMemberSilent_keeps {tch : List Field} {s0 : State} (origin : Nat) (s : State)
    (hs : Keeps tch s0 s)
    (hw : Within [.hfifo, .msix, .cdie, .hif, .pwr] tch := by exact Within.of (by assumption) rfl) :
    OnNext (Keeps tch s0) (execGroupMemberSilent origin s) := by
  unfold execGroupMemberSilent
  try dsimp only
  repeat' (first
    | (with_reducible assumption) | exact hw.of rfl | (with_reducible apply post_keeps)
    | (with_reducible apply withPwr_keeps) | (with_reducible apply OnNext.next) | (with_reducible apply OnNext.fault)
    | split)

theorem execPwrbrkNAssert_keeps {tch : List Field} {s0 : State} (s : State) (hs : Keeps tch s0 s)
    (hw : Within [.boot] tch := by exact Within.of (by assumption) rfl) :
    OnNext (Keeps tch s0) (execPwrbrkNAssert s) := by
  unfold execPwrbrkNAssert
  try dsimp only
  repeat' (first
    | (with_reducible assumption) | exact hw.of rfl | (with_reducible apply withBoot_keeps)
    | (with_reducible apply OnNext.next) | (with_reducible apply OnNext.fault) | split)

theorem execPwrbrkNRelease_keeps {tch : List Field} {s0 : State} (s : State) (hs : Keeps tch s0 s)
    (hw : Within [.boot] tch := by exact Within.of (by assumption) rfl) :
    OnNext (Keeps tch s0) (execPwrbrkNRelease s) := by
  unfold execPwrbrkNRelease
  try dsimp only
  repeat' (first
    | (with_reducible assumption) | exact hw.of rfl | (with_reducible apply withBoot_keeps)
    | (with_reducible apply OnNext.next) | (with_reducible apply OnNext.fault) | split)

theorem readDone_keeps {tch : List Field} {s0 : State} (u : HostRd) (s : State) (hs : Keeps tch s0 s)
    (hw : Within [.hif] tch := by exact Within.of (by assumption) rfl) :
    Keeps tch s0 (readDone u s) := by
  unfold readDone
  try dsimp only
  repeat' (first
    | (with_reducible assumption) | exact hw.of rfl | (with_reducible apply setReads_keeps) | split)

theorem adaptPoll_keeps {tch : List Field} {s0 : State} (s : State) (hs : Keeps tch s0 s)
    (hw : Within [.hif] tch := by exact Within.of (by assumption) rfl) :
    Keeps tch s0 (adaptPoll s) := by
  unfold adaptPoll
  try dsimp only
  repeat' (first
    | (with_reducible assumption) | exact hw.of rfl | (with_reducible apply withHif_keeps) | split)

theorem prodRead_keeps {tch : List Field} {s0 : State} (ring : Nat) (prod : Nat) (cons : Nat) (lim : Nat)
    (s : State) (hs : Keeps tch s0 s)
    (hw : Within [.disp] tch := by exact Within.of (by assumption) rfl) :
    Keeps tch s0 (prodRead ring prod cons lim s) := by
  unfold prodRead
  try dsimp only
  repeat' (first
    | (with_reducible assumption) | exact hw.of rfl | (with_reducible apply State.updRing_keeps) | split)

theorem devHeader_keeps {tch : List Field} {s0 : State} (ring : Nat) (s : State) (hs : Keeps tch s0 s)
    (hw : Within [.hfifo, .msix, .mem, .stack, .pool, .cdie, .hif,
    .disp] tch := by exact Within.of (by assumption) rfl) :
    Keeps tch s0 (devHeader ring s) := by
  unfold devHeader
  try dsimp only
  repeat' (first
    | (with_reducible assumption) | exact hw.of rfl | (with_reducible apply serveReads_keeps)
    | (with_reducible apply prodRead_keeps) | split)

theorem headerAsk_keeps {tch : List Field} {s0 : State} (r : Nat) (s : State) (hs : Keeps tch s0 s)
    (hw : Within [.hif] tch := by exact Within.of (by assumption) rfl) :
    Keeps tch s0 (headerAsk r s) := by
  unfold headerAsk
  try dsimp only
  repeat' (first
    | (with_reducible assumption) | exact hw.of rfl | (with_reducible apply hostRead_keeps) | split)

theorem execDoorbellPoll_keeps {tch : List Field} {s0 : State} (s : State) (hs : Keeps tch s0 s)
    (hw : Within [.hfifo, .msix, .mem, .stack, .pool, .cdie, .hif,
    .disp] tch := by exact Within.of (by assumption) rfl) :
    OnNext (Keeps tch s0) (execDoorbellPoll s) := by
  unfold execDoorbellPoll
  try dsimp only
  repeat' (first
    | (with_reducible assumption) | exact hw.of rfl | (with_reducible apply devHeader_keeps)
    | (with_reducible apply hostRead_keeps) | (with_reducible apply adaptPoll_keeps)
    | (with_reducible apply headerAsk_keeps) | (with_reducible apply foldl_keeps)
    | (with_reducible apply OnNext.next) | (with_reducible apply OnNext.fault) | split
    | (intro _; intros; try dsimp only))

theorem execDoorbellLineRead_keeps {tch : List Field} {s0 : State} (fn : Nat) (line : Nat)
    (bits : BitVec 512) (s : State) (hs : Keeps tch s0 s)
    (hw : Within [.hif] tch := by exact Within.of (by assumption) rfl) :
    OnNext (Keeps tch s0) (execDoorbellLineRead fn line bits s) := by
  unfold execDoorbellLineRead
  try dsimp only
  repeat' (first
    | (with_reducible assumption) | exact hw.of rfl | (with_reducible apply headerAsk_keeps)
    | (with_reducible apply readDone_keeps) | (with_reducible apply foldl_keeps) | (with_reducible apply OnNext.next)
    | (with_reducible apply OnNext.fault) | split | (intro _; intros; try dsimp only))

theorem execProdRead_keeps {tch : List Field} {s0 : State} (ring : Nat) (prod : Nat) (cons : Nat)
    (s : State) (hs : Keeps tch s0 s)
    (hw : Within [.hif, .disp] tch := by exact Within.of (by assumption) rfl) :
    OnNext (Keeps tch s0) (execProdRead ring prod cons s) := by
  unfold execProdRead
  try dsimp only
  repeat' (first
    | (with_reducible assumption) | exact hw.of rfl | (with_reducible apply readDone_keeps)
    | (with_reducible apply prodRead_keeps) | (with_reducible apply withHif_keeps)
    | (with_reducible apply hostRead_keeps) | (with_reducible apply foldl_keeps) | (with_reducible apply OnNext.next)
    | (with_reducible apply OnNext.fault) | split | (intro _; intros; try dsimp only))

theorem execDevmemRingNotify_keeps {tch : List Field} {s0 : State} (ring : Nat) (s : State)
    (hs : Keeps tch s0 s)
    (hw : Within [.hfifo, .msix, .mem, .stack, .pool, .cdie, .hif,
    .disp] tch := by exact Within.of (by assumption) rfl) :
    OnNext (Keeps tch s0) (execDevmemRingNotify ring s) := by
  unfold execDevmemRingNotify
  try dsimp only
  repeat' (first
    | (with_reducible assumption) | exact hw.of rfl | (with_reducible apply devHeader_keeps)
    | (with_reducible apply State.updRing_keeps) | (with_reducible apply OnNext.next)
    | (with_reducible apply OnNext.fault) | split)

theorem inplacePieces_keeps {tch : List Field} {s0 : State} (c : Cmd) (s : State) (hs : Keeps tch s0 s)
    (hw : Within [.hfifo, .msix, .mem, .stack, .pool, .xlt, .cdie,
    .hif] tch := by exact Within.of (by assumption) rfl) :
    Keeps tch s0 (inplacePieces c s).2 := by
  unfold inplacePieces
  refine foldl_inv (fun (x : Seen (List (Nat × Nat)) × State) => Keeps tch s0 x.2) _ (fun x p h => ?_) _ _ hs
  obtain ⟨a, st⟩ := x
  cases a
  case got l =>
    have g := lookPage_keeps (s.ringCtx c.ring) ⟨.list c.ring c.seq, p.1, false⟩ st h (hw.of rfl)
    dsimp only
    (repeat' split) <;> first | exact h | exact Keeps.of_snd (by assumption) g
  all_goals exact h

theorem listPiece_keeps {tch : List Field} {s0 : State} (c : Cmd) (a : Nat) (n : Nat) (given : Option
    (List Byte)) (s : State) (hs : Keeps tch s0 s)
    (hw : Within [.link, .hub, .hfifo, .msix, .sync, .mem, .stack, .pool, .tier, .xlt, .cdie, .hif, .disp, .rna,
    .tile] tch := by exact Within.of (by assumption) rfl) :
    Keeps tch s0 (listPiece c a n given s).2 := by
  unfold listPiece
  try dsimp only
  repeat' (first
    | (with_reducible assumption) | exact hw.of rfl | (with_reducible apply hostRead_keeps)
    | (with_reducible apply listAccess_keeps) | (with_reducible apply startFetch_keeps)
    | (with_reducible apply serveReads_keeps) | (with_reducible refine Keeps.of_snd (by assumption) ?_) | split
    | dsimp only)

theorem readList_keeps {tch : List Field} {s0 : State} (c : Cmd) (a : Nat) (n : Nat) (given : Option
    (List Byte)) (s : State) (hs : Keeps tch s0 s)
    (hw : Within [.link, .hub, .hfifo, .msix, .sync, .mem, .stack, .pool, .tier, .xlt, .cdie, .hif, .disp, .rna,
    .tile] tch := by exact Within.of (by assumption) rfl) :
    Keeps tch s0 (readList c a n given s).2 := by
  unfold readList
  refine foldl_inv (fun (x : Seen (List Byte) × State) => Keeps tch s0 x.2) _ (fun x p h => ?_) _ _ hs
  obtain ⟨a, st⟩ := x
  cases a
  case got l =>
    have g := listPiece_keeps c p.1 p.2 (given.map (fun g => g.drop (p.1 - a))) st h (hw.of rfl)
    dsimp only
    (repeat' split) <;> first | exact h | exact Keeps.of_snd (by assumption) g
  all_goals exact h

theorem readLists_keeps {tch : List Field} {s0 : State} (c : Cmd) (l : ListsRead) (s : State)
    (hs : Keeps tch s0 s)
    (hw : Within [.link, .hub, .hfifo, .msix, .sync, .mem, .stack, .pool, .tier, .xlt, .cdie, .hif, .disp, .rna,
    .tile] tch := by exact Within.of (by assumption) rfl) :
    Keeps tch s0 (readLists c l s).2 := by
  unfold readLists
  try dsimp only
  repeat' (first
    | (with_reducible assumption) | exact hw.of rfl | (with_reducible apply readList_keeps)
    | (with_reducible refine Keeps.of_snd (by assumption) ?_) | split | dsimp only)

theorem descChecks_keeps {tch : List Field} {s0 : State} (c : Cmd) (lists : ListsRead) (s : State)
    (hs : Keeps tch s0 s)
    (hw : Within [.link, .hub, .hfifo, .msix, .sync, .mem, .stack, .pool, .tier, .xlt, .cdie, .hif, .disp, .rna,
    .tile] tch := by exact Within.of (by assumption) rfl) :
    Keeps tch s0 (descChecks c lists s) := by
  unfold descChecks
  try dsimp only
  repeat' (first
    | (with_reducible assumption) | exact hw.of rfl | (with_reducible apply readLists_keeps)
    | (with_reducible apply inplacePieces_keeps) | (with_reducible apply setReads_keeps)
    | (with_reducible apply withDisp_keeps) | (with_reducible refine Keeps.of_snd (by assumption) ?_) | split
    | dsimp only)

theorem execDescriptorFetched_keeps {tch : List Field} {s0 : State} (ring : Nat) (desc : List Byte)
    (lists : ListsRead) (s : State) (hs : Keeps tch s0 s)
    (hw : Within [.link, .hub, .hfifo, .msix, .sync, .mem, .stack, .pool, .tier, .xlt, .cdie, .hif, .disp, .rna,
    .tile] tch := by exact Within.of (by assumption) rfl) :
    OnNext (Keeps tch s0) (execDescriptorFetched ring desc lists s) := by
  unfold execDescriptorFetched
  try dsimp only
  repeat' (first
    | (with_reducible assumption) | exact hw.of rfl | (with_reducible apply descChecks_keeps)
    | (with_reducible apply serveReads_keeps) | (with_reducible apply readDone_keeps)
    | (with_reducible apply State.updRing_keeps) | (with_reducible apply withDisp_keeps)
    | (with_reducible apply OnNext.next) | (with_reducible apply OnNext.fault) | split)

theorem headWaits_keeps {tch : List Field} {s0 : State} (c : Cmd) (s : State) (hs : Keeps tch s0 s)
    (hw : Within [.link, .hub, .sync, .disp] tch := by exact Within.of (by assumption) rfl) :
    Keeps tch s0 (headWaits c s) := by
  unfold headWaits
  try dsimp only
  repeat' (first
    | (with_reducible assumption) | exact hw.of rfl | (with_reducible apply syncWaitOp_keeps)
    | (with_reducible apply foldl_keeps) | split | (intro _; intros; try dsimp only))

theorem promote_keeps {tch : List Field} {s0 : State} (z1 : Nat) (z2 : Nat) (z3 : State)
    (hs : Keeps tch s0 z3)
    (hw : Within [.link, .hub, .sync, .disp] tch := by exact Within.of (by assumption) rfl) :
    Keeps tch s0 (promote z1 z2 z3) := by
  induction z1 generalizing z2 z3 with
  | zero => exact hs
  | succ n ih =>
    unfold promote
    dsimp only
    repeat' (first
      | (with_reducible refine ih _ _ ?_)
      | (with_reducible assumption)
      | exact hw.of rfl
      | exact rfl
      | exact Nat.le_refl _
      | exact Nat.le_succ _
      | (with_reducible apply State.updCmd_keeps)
      | (with_reducible apply headWaits_keeps)
      | split
      | (intro _; intros; try dsimp only))

theorem promoteRing_keeps {tch : List Field} {s0 : State} (ring : Nat) (s : State) (hs : Keeps tch s0 s)
    (hw : Within [.link, .hub, .sync, .disp] tch := by exact Within.of (by assumption) rfl) :
    Keeps tch s0 (promoteRing ring s) := by
  unfold promoteRing
  try dsimp only
  repeat' (first
    | (with_reducible assumption) | exact hw.of rfl | (with_reducible apply promote_keeps) | split)

theorem acceptReady_keeps {tch : List Field} {s0 : State} (z1 : Nat) (z2 : Nat) (z3 : State)
    (hs : Keeps tch s0 z3)
    (hw : Within [.link, .hub, .hfifo, .msix, .sync, .mem, .stack, .pool, .tier, .cdie, .hif,
    .disp] tch := by exact Within.of (by assumption) rfl) :
    Keeps tch s0 (acceptReady z1 z2 z3) := by
  induction z1 generalizing z2 z3 with
  | zero => exact hs
  | succ n ih =>
    unfold acceptReady
    dsimp only
    repeat' (first
      | (with_reducible refine ih _ _ ?_)
      | (with_reducible assumption)
      | exact hw.of rfl
      | exact rfl
      | exact Nat.le_refl _
      | exact Nat.le_succ _
      | (with_reducible apply State.tlp_keeps)
      | (with_reducible apply promoteRing_keeps)
      | (with_reducible apply cohWrite_keeps)
      | (with_reducible apply State.updRing_keeps)
      | (with_reducible apply withDisp_keeps)
      | split
      | (intro _; intros; try dsimp only))

theorem acceptRing_keeps {tch : List Field} {s0 : State} (ring : Nat) (s : State) (hs : Keeps tch s0 s)
    (hw : Within [.link, .hub, .hfifo, .msix, .sync, .mem, .stack, .pool, .tier, .cdie, .hif,
    .disp] tch := by exact Within.of (by assumption) rfl) :
    Keeps tch s0 (acceptRing ring s) := by
  unfold acceptRing
  try dsimp only
  repeat' (first
    | (with_reducible assumption) | exact hw.of rfl | (with_reducible apply acceptReady_keeps) | split)

theorem execJournalEntryAcked_keeps {tch : List Field} {s0 : State} (ring : Nat) (s : State)
    (hs : Keeps tch s0 s)
    (hw : Within [.link, .hub, .hfifo, .msix, .sync, .mem, .stack, .pool, .tier, .cdie, .hif,
    .disp] tch := by exact Within.of (by assumption) rfl) :
    OnNext (Keeps tch s0) (execJournalEntryAcked ring s) := by
  unfold execJournalEntryAcked
  try dsimp only
  repeat' (first
    | (with_reducible assumption) | exact hw.of rfl | (with_reducible apply acceptRing_keeps)
    | (with_reducible apply withDisp_keeps) | (with_reducible apply OnNext.next)
    | (with_reducible apply OnNext.fault) | split)

theorem execNop_keeps {tch : List Field} {s0 : State} (pos : Nat) (slot : Nat) (s : State)
    (hs : Keeps tch s0 s)
    (hw : Within [.link, .hub, .sync, .xlt, .disp, .tile] tch := by exact Within.of (by assumption) rfl) :
    OnNext (Keeps tch s0) (execNop pos slot s) := by
  unfold execNop
  try dsimp only
  repeat' (first
    | (with_reducible assumption) | exact hw.of rfl | (with_reducible apply seqIssue_keeps)
    | (with_reducible apply OnNext.next) | (with_reducible apply OnNext.fault) | split)

theorem execLi_keeps {tch : List Field} {s0 : State} (pos : Nat) (slot : Nat) (s : State)
    (hs : Keeps tch s0 s)
    (hw : Within [.link, .hub, .sync, .xlt, .disp, .tile] tch := by exact Within.of (by assumption) rfl) :
    OnNext (Keeps tch s0) (execLi pos slot s) := by
  unfold execLi
  try dsimp only
  repeat' (first
    | (with_reducible assumption) | exact hw.of rfl | (with_reducible apply seqIssue_keeps)
    | (with_reducible apply OnNext.next) | (with_reducible apply OnNext.fault) | split)

theorem execAlu_keeps {tch : List Field} {s0 : State} (pos : Nat) (slot : Nat) (s : State)
    (hs : Keeps tch s0 s)
    (hw : Within [.link, .hub, .sync, .xlt, .disp, .tile] tch := by exact Within.of (by assumption) rfl) :
    OnNext (Keeps tch s0) (execAlu pos slot s) := by
  unfold execAlu
  try dsimp only
  repeat' (first
    | (with_reducible assumption) | exact hw.of rfl | (with_reducible apply seqIssue_keeps)
    | (with_reducible apply OnNext.next) | (with_reducible apply OnNext.fault) | split)

theorem execAlui_keeps {tch : List Field} {s0 : State} (pos : Nat) (slot : Nat) (s : State)
    (hs : Keeps tch s0 s)
    (hw : Within [.link, .hub, .sync, .xlt, .disp, .tile] tch := by exact Within.of (by assumption) rfl) :
    OnNext (Keeps tch s0) (execAlui pos slot s) := by
  unfold execAlui
  try dsimp only
  repeat' (first
    | (with_reducible assumption) | exact hw.of rfl | (with_reducible apply seqIssue_keeps)
    | (with_reducible apply OnNext.next) | (with_reducible apply OnNext.fault) | split)

theorem execBr_keeps {tch : List Field} {s0 : State} (pos : Nat) (slot : Nat) (s : State)
    (hs : Keeps tch s0 s)
    (hw : Within [.link, .hub, .sync, .xlt, .disp, .tile] tch := by exact Within.of (by assumption) rfl) :
    OnNext (Keeps tch s0) (execBr pos slot s) := by
  unfold execBr
  try dsimp only
  repeat' (first
    | (with_reducible assumption) | exact hw.of rfl | (with_reducible apply seqIssue_keeps)
    | (with_reducible apply OnNext.next) | (with_reducible apply OnNext.fault) | split)

theorem execJmp_keeps {tch : List Field} {s0 : State} (pos : Nat) (slot : Nat) (s : State)
    (hs : Keeps tch s0 s)
    (hw : Within [.link, .hub, .sync, .xlt, .disp, .tile] tch := by exact Within.of (by assumption) rfl) :
    OnNext (Keeps tch s0) (execJmp pos slot s) := by
  unfold execJmp
  try dsimp only
  repeat' (first
    | (with_reducible assumption) | exact hw.of rfl | (with_reducible apply seqIssue_keeps)
    | (with_reducible apply OnNext.next) | (with_reducible apply OnNext.fault) | split)

theorem execLoop_keeps {tch : List Field} {s0 : State} (pos : Nat) (slot : Nat) (s : State)
    (hs : Keeps tch s0 s)
    (hw : Within [.link, .hub, .sync, .xlt, .disp, .tile] tch := by exact Within.of (by assumption) rfl) :
    OnNext (Keeps tch s0) (execLoop pos slot s) := by
  unfold execLoop
  try dsimp only
  repeat' (first
    | (with_reducible assumption) | exact hw.of rfl | (with_reducible apply seqIssue_keeps)
    | (with_reducible apply OnNext.next) | (with_reducible apply OnNext.fault) | split)

theorem execLset_keeps {tch : List Field} {s0 : State} (pos : Nat) (slot : Nat) (s : State)
    (hs : Keeps tch s0 s)
    (hw : Within [.link, .hub, .sync, .xlt, .disp, .tile] tch := by exact Within.of (by assumption) rfl) :
    OnNext (Keeps tch s0) (execLset pos slot s) := by
  unfold execLset
  try dsimp only
  repeat' (first
    | (with_reducible assumption) | exact hw.of rfl | (with_reducible apply seqIssue_keeps)
    | (with_reducible apply OnNext.next) | (with_reducible apply OnNext.fault) | split)

theorem execLadd_keeps {tch : List Field} {s0 : State} (pos : Nat) (slot : Nat) (s : State)
    (hs : Keeps tch s0 s)
    (hw : Within [.link, .hub, .sync, .xlt, .disp, .tile] tch := by exact Within.of (by assumption) rfl) :
    OnNext (Keeps tch s0) (execLadd pos slot s) := by
  unfold execLadd
  try dsimp only
  repeat' (first
    | (with_reducible assumption) | exact hw.of rfl | (with_reducible apply seqIssue_keeps)
    | (with_reducible apply OnNext.next) | (with_reducible apply OnNext.fault) | split)

theorem execLcpy_keeps {tch : List Field} {s0 : State} (pos : Nat) (slot : Nat) (s : State)
    (hs : Keeps tch s0 s)
    (hw : Within [.link, .hub, .sync, .xlt, .disp, .tile] tch := by exact Within.of (by assumption) rfl) :
    OnNext (Keeps tch s0) (execLcpy pos slot s) := by
  unfold execLcpy
  try dsimp only
  repeat' (first
    | (with_reducible assumption) | exact hw.of rfl | (with_reducible apply seqIssue_keeps)
    | (with_reducible apply OnNext.next) | (with_reducible apply OnNext.fault) | split)

theorem execRdstat_keeps {tch : List Field} {s0 : State} (pos : Nat) (slot : Nat) (s : State)
    (hs : Keeps tch s0 s)
    (hw : Within [.link, .hub, .sync, .xlt, .disp, .tile] tch := by exact Within.of (by assumption) rfl) :
    OnNext (Keeps tch s0) (execRdstat pos slot s) := by
  unfold execRdstat
  try dsimp only
  repeat' (first
    | (with_reducible assumption) | exact hw.of rfl | (with_reducible apply seqIssue_keeps)
    | (with_reducible apply OnNext.next) | (with_reducible apply OnNext.fault) | split)

theorem execClrstat_keeps {tch : List Field} {s0 : State} (pos : Nat) (slot : Nat) (s : State)
    (hs : Keeps tch s0 s)
    (hw : Within [.link, .hub, .sync, .xlt, .disp, .tile] tch := by exact Within.of (by assumption) rfl) :
    OnNext (Keeps tch s0) (execClrstat pos slot s) := by
  unfold execClrstat
  try dsimp only
  repeat' (first
    | (with_reducible assumption) | exact hw.of rfl | (with_reducible apply seqIssue_keeps)
    | (with_reducible apply OnNext.next) | (with_reducible apply OnNext.fault) | split)

theorem execRdctl_keeps {tch : List Field} {s0 : State} (pos : Nat) (slot : Nat) (s : State)
    (hs : Keeps tch s0 s)
    (hw : Within [.link, .hub, .sync, .xlt, .disp, .tile] tch := by exact Within.of (by assumption) rfl) :
    OnNext (Keeps tch s0) (execRdctl pos slot s) := by
  unfold execRdctl
  try dsimp only
  repeat' (first
    | (with_reducible assumption) | exact hw.of rfl | (with_reducible apply seqIssue_keeps)
    | (with_reducible apply OnNext.next) | (with_reducible apply OnNext.fault) | split)

theorem execWrctl_keeps {tch : List Field} {s0 : State} (pos : Nat) (slot : Nat) (s : State)
    (hs : Keeps tch s0 s)
    (hw : Within [.link, .hub, .sync, .xlt, .disp, .tile] tch := by exact Within.of (by assumption) rfl) :
    OnNext (Keeps tch s0) (execWrctl pos slot s) := by
  unfold execWrctl
  try dsimp only
  repeat' (first
    | (with_reducible assumption) | exact hw.of rfl | (with_reducible apply seqIssue_keeps)
    | (with_reducible apply OnNext.next) | (with_reducible apply OnNext.fault) | split)

theorem execSysrd_keeps {tch : List Field} {s0 : State} (pos : Nat) (slot : Nat) (s : State)
    (hs : Keeps tch s0 s)
    (hw : Within [.link, .hub, .sync, .xlt, .disp, .tile] tch := by exact Within.of (by assumption) rfl) :
    OnNext (Keeps tch s0) (execSysrd pos slot s) := by
  unfold execSysrd
  try dsimp only
  repeat' (first
    | (with_reducible assumption) | exact hw.of rfl | (with_reducible apply seqIssue_keeps)
    | (with_reducible apply OnNext.next) | (with_reducible apply OnNext.fault) | split)

theorem execFence_keeps {tch : List Field} {s0 : State} (pos : Nat) (slot : Nat) (s : State)
    (hs : Keeps tch s0 s)
    (hw : Within [.link, .hub, .sync, .xlt, .disp, .tile] tch := by exact Within.of (by assumption) rfl) :
    OnNext (Keeps tch s0) (execFence pos slot s) := by
  unfold execFence
  try dsimp only
  repeat' (first
    | (with_reducible assumption) | exact hw.of rfl | (with_reducible apply seqIssue_keeps)
    | (with_reducible apply OnNext.next) | (with_reducible apply OnNext.fault) | split)

theorem addHint_keeps {tch : List Field} {s0 : State} (tile : Nat) (cls : Nat) (us : Nat) (s : State)
    (hs : Keeps tch s0 s)
    (hw : Within [.pwr] tch := by exact Within.of (by assumption) rfl) :
    Keeps tch s0 (addHint tile cls us s) := by
  unfold addHint
  try dsimp only
  repeat' (first
    | (with_reducible assumption) | exact hw.of rfl | (with_reducible apply withPwr_keeps) | split)

theorem execHint_keeps {tch : List Field} {s0 : State} (pos : Nat) (slot : Nat) (s : State)
    (hs : Keeps tch s0 s)
    (hw : Within [.link, .hub, .sync, .xlt, .disp, .pwr, .tile] tch := by exact Within.of (by assumption) rfl) :
    OnNext (Keeps tch s0) (execHint pos slot s) := by
  unfold execHint
  try dsimp only
  repeat' (first
    | (with_reducible assumption) | exact hw.of rfl | (with_reducible apply addHint_keeps)
    | (with_reducible apply seqIssue_keeps) | (with_reducible apply OnNext.next)
    | (with_reducible apply OnNext.fault) | split)

theorem execExit_keeps {tch : List Field} {s0 : State} (pos : Nat) (slot : Nat) (s : State)
    (hs : Keeps tch s0 s)
    (hw : Within [.link, .hub, .sync, .xlt, .disp, .tile] tch := by exact Within.of (by assumption) rfl) :
    OnNext (Keeps tch s0) (execExit pos slot s) := by
  unfold execExit
  try dsimp only
  repeat' (first
    | (with_reducible assumption) | exact hw.of rfl | (with_reducible apply seqIssue_keeps)
    | (with_reducible apply OnNext.next) | (with_reducible apply OnNext.fault) | split)

theorem execSignal_keeps {tch : List Field} {s0 : State} (pos : Nat) (slot : Nat) (s : State)
    (hs : Keeps tch s0 s)
    (hw : Within [.link, .hub, .sync, .xlt, .disp, .tile] tch := by exact Within.of (by assumption) rfl) :
    OnNext (Keeps tch s0) (execSignal pos slot s) := by
  unfold execSignal
  try dsimp only
  repeat' (first
    | (with_reducible assumption) | exact hw.of rfl | (with_reducible apply queueIssue_keeps)
    | (with_reducible apply OnNext.next) | (with_reducible apply OnNext.fault) | split)

theorem execRsignal_keeps {tch : List Field} {s0 : State} (pos : Nat) (slot : Nat) (s : State)
    (hs : Keeps tch s0 s)
    (hw : Within [.link, .hub, .sync, .xlt, .disp, .tile] tch := by exact Within.of (by assumption) rfl) :
    OnNext (Keeps tch s0) (execRsignal pos slot s) := by
  unfold execRsignal
  try dsimp only
  repeat' (first
    | (with_reducible assumption) | exact hw.of rfl | (with_reducible apply queueIssue_keeps)
    | (with_reducible apply OnNext.next) | (with_reducible apply OnNext.fault) | split)

theorem execWait_keeps {tch : List Field} {s0 : State} (pos : Nat) (slot : Nat) (s : State)
    (hs : Keeps tch s0 s)
    (hw : Within [.link, .hub, .sync, .xlt, .disp, .tile] tch := by exact Within.of (by assumption) rfl) :
    OnNext (Keeps tch s0) (execWait pos slot s) := by
  unfold execWait
  try dsimp only
  repeat' (first
    | (with_reducible assumption) | exact hw.of rfl | (with_reducible apply queueIssue_keeps)
    | (with_reducible apply OnNext.next) | (with_reducible apply OnNext.fault) | split)

theorem execTokset_keeps {tch : List Field} {s0 : State} (pos : Nat) (slot : Nat) (s : State)
    (hs : Keeps tch s0 s)
    (hw : Within [.link, .hub, .sync, .xlt, .disp, .tile] tch := by exact Within.of (by assumption) rfl) :
    OnNext (Keeps tch s0) (execTokset pos slot s) := by
  unfold execTokset
  try dsimp only
  repeat' (first
    | (with_reducible assumption) | exact hw.of rfl | (with_reducible apply queueIssue_keeps)
    | (with_reducible apply OnNext.next) | (with_reducible apply OnNext.fault) | split)

theorem execTokwait_keeps {tch : List Field} {s0 : State} (pos : Nat) (slot : Nat) (s : State)
    (hs : Keeps tch s0 s)
    (hw : Within [.link, .hub, .sync, .xlt, .disp, .tile] tch := by exact Within.of (by assumption) rfl) :
    OnNext (Keeps tch s0) (execTokwait pos slot s) := by
  unfold execTokwait
  try dsimp only
  repeat' (first
    | (with_reducible assumption) | exact hw.of rfl | (with_reducible apply queueIssue_keeps)
    | (with_reducible apply OnNext.next) | (with_reducible apply OnNext.fault) | split)

theorem syncSend_keeps {tch : List Field} {s0 : State} (pos : Nat) (slot : Nat) (q : QInstr) (s : State)
    (hs : Keeps tch s0 s)
    (hw : Within [.link, .hub, .tile] tch := by exact Within.of (by assumption) rfl) :
    Keeps tch s0 (syncSend pos slot q s) := by
  unfold syncSend
  try dsimp only
  repeat' (first
    | (with_reducible assumption) | exact hw.of rfl | (with_reducible apply request_keeps)
    | (with_reducible apply updQ_keeps) | split)

theorem syncStart_keeps {tch : List Field} {s0 : State} (pos : Nat) (slot : Nat) (x : Slot) (q : QInstr)
    (s : State) (hs : Keeps tch s0 s)
    (hw : Within [.link, .hub, .sync, .xlt, .disp, .tile] tch := by exact Within.of (by assumption) rfl) :
    Keeps tch s0 (syncStart pos slot x q s) := by
  unfold syncStart
  try dsimp only
  repeat' (first
    | (with_reducible assumption) | exact hw.of rfl | (with_reducible apply syncSend_keeps)
    | (with_reducible apply updQ_keeps) | (with_reducible apply complete_keeps)
    | (with_reducible apply addToken_keeps) | split)

theorem execQueueInstrStart_keeps {tch : List Field} {s0 : State} (pos : Nat) (slot : Nat) (q : Queue)
    (s : State) (hs : Keeps tch s0 s)
    (hw : Within [.link, .hub, .hfifo, .msix, .sync, .mem, .stack, .pool, .tier, .xlt, .cdie, .hif, .disp, .rna,
    .tile] tch := by exact Within.of (by assumption) rfl) :
    OnNext (Keeps tch s0) (execQueueInstrStart pos slot q s) := by
  unfold execQueueInstrStart
  try dsimp only
  repeat' (first
    | (with_reducible assumption) | exact hw.of rfl | (with_reducible apply State.updSlot_keeps)
    | (with_reducible apply State.startTurned_keeps) | (with_reducible apply moveStart_keeps)
    | (with_reducible apply syncStart_keeps) | (with_reducible apply OnNext.next)
    | (with_reducible apply OnNext.fault) | split)

theorem execRsignalSend_keeps {tch : List Field} {s0 : State} (pos : Nat) (slot : Nat) (s : State)
    (hs : Keeps tch s0 s)
    (hw : Within [.link, .hub, .tile] tch := by exact Within.of (by assumption) rfl) :
    OnNext (Keeps tch s0) (execRsignalSend pos slot s) := by
  unfold execRsignalSend
  try dsimp only
  repeat' (first
    | (with_reducible assumption) | exact hw.of rfl | (with_reducible apply syncSend_keeps)
    | (with_reducible apply OnNext.next) | (with_reducible apply OnNext.fault) | split)

theorem execSyncInstrComplete_keeps {tch : List Field} {s0 : State} (pos : Nat) (slot : Nat) (id : Nat)
    (s : State) (hs : Keeps tch s0 s)
    (hw : Within [.link, .hub, .sync, .xlt, .disp, .tile] tch := by exact Within.of (by assumption) rfl) :
    OnNext (Keeps tch s0) (execSyncInstrComplete pos slot id s) := by
  unfold execSyncInstrComplete
  try dsimp only
  repeat' (first
    | (with_reducible assumption) | exact hw.of rfl | (with_reducible apply complete_keeps)
    | (with_reducible apply State.updSlot_keeps) | (with_reducible apply OnNext.next)
    | (with_reducible apply OnNext.fault) | split)

theorem fetchPage_keeps {tch : List Field} {s0 : State} (t : Tlb) (ctx : Nat) (ring : Nat) (seq : Nat)
    (a : Nat) (n : Nat) (given : List Byte) (s : State) (hs : Keeps tch s0 s)
    (hw : Within [.link, .hub, .hfifo, .msix, .sync, .mem, .stack, .pool, .tier, .xlt, .cdie, .hif, .disp, .rna,
    .tile] tch := by exact Within.of (by assumption) rfl) :
    Keeps tch s0 (fetchPage t ctx ring seq a n given s).2 := by
  unfold fetchPage
  try dsimp only
  repeat' (first
    | (with_reducible assumption) | exact hw.of rfl | (with_reducible apply xltAccess_keeps)
    | (with_reducible apply hostCut_keeps) | (with_reducible apply accessFailed_keeps)
    | (with_reducible apply startFetch_keeps) | (with_reducible apply serveReads_keeps)
    | (with_reducible apply taintCmd_keeps) | (with_reducible refine Keeps.of_snd (by assumption) ?_) | split
    | dsimp only)

theorem fetchRange_keeps {tch : List Field} {s0 : State} (t : Tlb) (ctx : Nat) (ring : Nat) (seq : Nat)
    (a : Nat) (n : Nat) (given : List Byte) (s : State) (hs : Keeps tch s0 s)
    (hw : Within [.link, .hub, .hfifo, .msix, .sync, .mem, .stack, .pool, .tier, .xlt, .cdie, .hif, .disp, .rna,
    .tile] tch := by exact Within.of (by assumption) rfl) :
    Keeps tch s0 (fetchRange t ctx ring seq a n given s).2 := by
  unfold fetchRange
  refine foldl_inv (fun (x : Fetched) => Keeps tch s0 x.2) _ (fun x p h => ?_) _ _ hs
  obtain ⟨a, st⟩ := x
  cases a
  · exact h
  · exact fetchPage_keeps _ _ _ _ _ _ _ _ h

theorem execDispatch_keeps {tch : List Field} {s0 : State} (pos : Nat) (ring : Nat) (seq : Nat) (part : Nat)
    (s : State) (hs : Keeps tch s0 s)
    (hw : Within [.link, .hub, .tile] tch := by exact Within.of (by assumption) rfl) :
    OnNext (Keeps tch s0) (execDispatch pos ring seq part s) := by
  unfold execDispatch
  try dsimp only
  repeat' (first
    | (with_reducible assumption) | exact hw.of rfl | (with_reducible apply reach_keeps)
    | (with_reducible apply State.updTile_keeps) | (with_reducible apply OnNext.next)
    | (with_reducible apply OnNext.fault) | split)

theorem execZeroingDone_keeps {tch : List Field} {s0 : State} (pos : Nat) (slot : Nat) (s : State)
    (hs : Keeps tch s0 s)
    (hw : Within [.tile] tch := by exact Within.of (by assumption) rfl) :
    OnNext (Keeps tch s0) (execZeroingDone pos slot s) := by
  unfold execZeroingDone
  try dsimp only
  repeat' (first
    | (with_reducible assumption) | exact hw.of rfl | (with_reducible apply State.updSlot_keeps)
    | (with_reducible apply State.updTile_keeps) | (with_reducible apply OnNext.next)
    | (with_reducible apply OnNext.fault) | split)

theorem execProgramHeaderRead_keeps {tch : List Field} {s0 : State} (pos : Nat) (slot : Nat)
    (hdr : List Byte) (s : State) (hs : Keeps tch s0 s)
    (hw : Within [.link, .hub, .hfifo, .msix, .sync, .mem, .stack, .pool, .tier, .xlt, .cdie, .hif, .disp, .rna,
    .tile] tch := by exact Within.of (by assumption) rfl) :
    OnNext (Keeps tch s0) (execProgramHeaderRead pos slot hdr s) := by
  unfold execProgramHeaderRead
  try dsimp only
  repeat' (first
    | (with_reducible assumption) | exact hw.of rfl | (with_reducible apply fetchRange_keeps)
    | (with_reducible apply endWith_keeps) | (with_reducible apply State.updSlot_keeps)
    | (with_reducible apply OnNext.next) | (with_reducible apply OnNext.fault)
    | (with_reducible refine Keeps.of_snd (by assumption) ?_) | split | dsimp only)

theorem startParts_keeps {tch : List Field} {s0 : State} (ring : Nat) (seq : Nat) (s : State)
    (hs : Keeps tch s0 s)
    (hw : Within [.tile] tch := by exact Within.of (by assumption) rfl) :
    Keeps tch s0 (startParts ring seq s) := by
  unfold startParts
  try dsimp only
  repeat' (first
    | (with_reducible assumption) | exact hw.of rfl | (with_reducible apply State.updSlot_keeps)
    | (with_reducible apply foldl_keeps) | split | (intro _; intros; try dsimp only))

theorem execProgramLoaded_keeps {tch : List Field} {s0 : State} (pos : Nat) (slot : Nat) (words : List
    (BitVec 128)) (s : State) (hs : Keeps tch s0 s)
    (hw : Within [.link, .hub, .hfifo, .msix, .sync, .mem, .stack, .pool, .tier, .xlt, .cdie, .hif, .disp, .rna,
    .tile] tch := by exact Within.of (by assumption) rfl) :
    OnNext (Keeps tch s0) (execProgramLoaded pos slot words s) := by
  unfold execProgramLoaded
  try dsimp only
  repeat' (first
    | (with_reducible assumption) | exact hw.of rfl | (with_reducible apply fetchRange_keeps)
    | (with_reducible apply endWith_keeps) | (with_reducible apply startParts_keeps)
    | (with_reducible apply State.updSlot_keeps) | (with_reducible apply OnNext.next)
    | (with_reducible apply OnNext.fault) | (with_reducible refine Keeps.of_snd (by assumption) ?_) | split
    | dsimp only)

theorem execSlotEnd_keeps {tch : List Field} {s0 : State} (pos : Nat) (slot : Nat) (s : State)
    (hs : Keeps tch s0 s)
    (hw : Within [.link, .hub, .sync, .disp, .tile] tch := by exact Within.of (by assumption) rfl) :
    OnNext (Keeps tch s0) (execSlotEnd pos slot s) := by
  unfold execSlotEnd
  try dsimp only
  repeat' (first
    | (with_reducible assumption) | exact hw.of rfl | (with_reducible apply freeSlot_keeps)
    | (with_reducible apply State.updCmd_keeps) | (with_reducible apply OnNext.next)
    | (with_reducible apply OnNext.fault) | split)

theorem stopOnTile_keeps {tch : List Field} {s0 : State} (pos : Nat) (s : State) (hs : Keeps tch s0 s)
    (hw : Within [.link, .hub, .sync, .xlt, .disp, .tile] tch := by exact Within.of (by assumption) rfl) :
    Keeps tch s0 (stopOnTile pos s) := by
  unfold stopOnTile
  try dsimp only
  repeat' (first
    | (with_reducible assumption) | exact hw.of rfl | (with_reducible apply stopForReplay_keeps)
    | (with_reducible apply foldl_keeps) | split | (intro _; intros; try dsimp only))

theorem clearTile_keeps {tch : List Field} {s0 : State} (pos : Nat) (s : State) (hs : Keeps tch s0 s)
    (hw : Within [.tile] tch := by exact Within.of (by assumption) rfl) :
    Keeps tch s0 (clearTile pos s) := by
  unfold clearTile
  try dsimp only
  repeat' (first
    | (with_reducible assumption) | exact hw.of rfl | (with_reducible apply State.updTile_keeps) | split)

theorem setTileMap_keeps {tch : List Field} {s0 : State} (n : Nat) (p : Option Nat) (s : State)
    (hs : Keeps tch s0 s)
    (hw : Within [.glb, .repair] tch := by exact Within.of (by assumption) rfl) :
    Keeps tch s0 (setTileMap n p s) := by
  unfold setTileMap
  try dsimp only
  repeat' (first
    | (with_reducible assumption) | exact hw.of rfl | exact rfl | (with_reducible apply withRepair_keeps)
    | (with_reducible apply withGlb_keeps) | split)

theorem spareTile_keeps {tch : List Field} {s0 : State} (n : Nat) (pos : Nat) (s : State)
    (hs : Keeps tch s0 s)
    (hw : Within [.glb, .repair, .hfifo, .msix, .cdie, .hif, .pwr,
    .tile] tch := by exact Within.of (by assumption) rfl) :
    Keeps tch s0 (spareTile n pos s) := by
  unfold spareTile
  try dsimp only
  repeat' (first
    | (with_reducible assumption) | exact hw.of rfl | exact rfl | (with_reducible apply runVolt_keeps)
    | (with_reducible apply setTileMap_keeps) | (with_reducible apply clearTile_keeps)
    | (with_reducible apply withGlb_keeps) | (with_reducible apply post_keeps) | split)

theorem tileLost_keeps {tch : List Field} {s0 : State} (pos : Nat) (cause : Nat) (s : State)
    (hs : Keeps tch s0 s)
    (hw : Within [.glb, .repair, .boot, .link, .hub, .hfifo, .msix, .sync, .xlt, .cdie, .hif, .disp, .pwr,
    .tile] tch := by exact Within.of (by assumption) rfl) :
    Keeps tch s0 (tileLost pos cause s) := by
  unfold tileLost
  try dsimp only
  repeat' (first
    | (with_reducible assumption) | exact hw.of rfl | (with_reducible apply fencePort_keeps)
    | (with_reducible apply State.updTile_keeps) | (with_reducible apply dieFailed_keeps)
    | (with_reducible apply stopOnTile_keeps) | (with_reducible apply spareTile_keeps) | split)

theorem execTileDieFailure_keeps {tch : List Field} {s0 : State} (pos : Nat) (s : State) (hs : Keeps tch s0 s)
    (hw : Within [.glb, .repair, .boot, .link, .hub, .hfifo, .msix, .sync, .xlt, .cdie, .hif, .disp, .pwr,
    .tile] tch := by exact Within.of (by assumption) rfl) :
    OnNext (Keeps tch s0) (execTileDieFailure pos s) := by
  unfold execTileDieFailure
  try dsimp only
  repeat' (first
    | (with_reducible assumption) | exact hw.of rfl | (with_reducible apply tileLost_keeps)
    | (with_reducible apply OnNext.next) | (with_reducible apply OnNext.fault) | split)

theorem tileReset_keeps {tch : List Field} {s0 : State} (pos : Nat) (s : State) (hs : Keeps tch s0 s)
    (hw : Within [.link, .hub, .sync, .xlt, .disp, .tile] tch := by exact Within.of (by assumption) rfl) :
    Keeps tch s0 (tileReset pos s) := by
  unfold tileReset
  try dsimp only
  repeat' (first
    | (with_reducible assumption) | exact hw.of rfl | (with_reducible apply State.updTile_keeps)
    | (with_reducible apply clearTile_keeps) | (with_reducible apply stopOnTile_keeps) | split)

theorem execTileRecoveryDone_keeps {tch : List Field} {s0 : State} (pos : Nat) (ok : Bool) (s : State)
    (hs : Keeps tch s0 s)
    (hw : Within [.glb, .repair, .boot, .link, .hub, .hfifo, .msix, .sync, .xlt, .cdie, .hif, .disp, .pwr,
    .tile] tch := by exact Within.of (by assumption) rfl) :
    OnNext (Keeps tch s0) (execTileRecoveryDone pos ok s) := by
  unfold execTileRecoveryDone
  try dsimp only
  repeat' (first
    | (with_reducible assumption) | exact hw.of rfl | exact rfl | (with_reducible apply unfence_keeps)
    | (with_reducible apply State.updTile_keeps) | (with_reducible apply withGlb_keeps)
    | (with_reducible apply tileLost_keeps) | (with_reducible apply OnNext.next)
    | (with_reducible apply OnNext.fault) | split)

theorem resumeWait_keeps {tch : List Field} {s0 : State} (ctx : Nat) (w : XltWait) (s : State)
    (hs : Keeps tch s0 s)
    (hw : Within [.link, .hub, .hfifo, .msix, .sync, .counted, .mem, .stack, .pool, .tier, .xlt, .cdie, .hif, .disp,
    .rna, .tile] tch := by exact Within.of (by assumption) rfl) :
    Keeps tch s0 (resumeWait ctx w s) := by
  unfold resumeWait
  try dsimp only
  repeat' (first
    | (with_reducible assumption) | exact hw.of rfl | (with_reducible apply moverGo_keeps)
    | (with_reducible apply xltRetry_keeps) | (with_reducible apply placeGo_keeps)
    | (with_reducible apply getsGo_keeps) | (with_reducible apply needUnit_keeps)
    | (with_reducible apply dropWaits_keeps) | split)

theorem execTableWalkDone_keeps {tch : List Field} {s0 : State} (ctx : Nat) (page : Nat) (reason : Nat)
    (s : State) (hs : Keeps tch s0 s)
    (hw : Within [.link, .hub, .hfifo, .msix, .sync, .counted, .mem, .stack, .pool, .tier, .xlt, .cdie, .hif, .disp,
    .rna, .tile] tch := by exact Within.of (by assumption) rfl) :
    OnNext (Keeps tch s0) (execTableWalkDone ctx page reason s) := by
  unfold execTableWalkDone
  try dsimp only
  repeat' (first
    | (with_reducible assumption) | exact hw.of rfl | (with_reducible apply walkRead_keeps)
    | (with_reducible apply placesGo_keeps) | (with_reducible apply resumeWait_keeps)
    | (with_reducible apply foldl_keeps) | (with_reducible apply OnNext.next) | (with_reducible apply OnNext.fault)
    | (with_reducible refine Keeps.of_snd (by assumption) ?_) | split | dsimp only
    | (intro _; intros; try dsimp only))

theorem updAts_keeps {tch : List Field} {s0 : State} (ctx : Nat) (page : Nat) (f : AtsReq → AtsReq)
    (s : State) (hs : Keeps tch s0 s)
    (hw : Within [.xlt] tch := by exact Within.of (by assumption) rfl) :
    Keeps tch s0 (updAts ctx page f s) := by
  unfold updAts
  try dsimp only
  repeat' (first
    | (with_reducible assumption) | exact hw.of rfl | (with_reducible apply withXlt_keeps) | split)

theorem installUnits_keeps {tch : List Field} {s0 : State} (ctx : Nat) (page : Nat) (units : List AtsUnit)
    (s : State) (hs : Keeps tch s0 s)
    (hw : Within [.xlt, .tile] tch := by exact Within.of (by assumption) rfl) :
    Keeps tch s0 (installUnits ctx page units s) := by
  unfold installUnits
  try dsimp only
  repeat' (first
    | (with_reducible assumption) | exact hw.of rfl | (with_reducible apply withXlt_keeps)
    | (with_reducible apply withTile_keeps) | split)

theorem atsTidy_keeps {tch : List Field} {s0 : State} (ctx : Nat) (page : Nat) (s : State)
    (hs : Keeps tch s0 s)
    (hw : Within [.xlt] tch := by exact Within.of (by assumption) rfl) :
    Keeps tch s0 (atsTidy ctx page s) := by
  unfold atsTidy
  try dsimp only
  repeat' (first
    | (with_reducible assumption) | exact hw.of rfl | (with_reducible apply withXlt_keeps) | split)

theorem migrateUnit_keeps {tch : List Field} {s0 : State} (ctx : Nat) (got : List AtsUnit) (w : XltWait)
    (ring : Nat) (seq : Nat) (s : State) (hs : Keeps tch s0 s)
    (hw : Within [.link, .hub, .hfifo, .msix, .sync, .mem, .stack, .pool, .tier, .xlt, .cdie, .hif, .disp,
    .tile] tch := by exact Within.of (by assumption) rfl) :
    Keeps tch s0 (migrateUnit ctx got w ring seq s) := by
  unfold migrateUnit
  try dsimp only
  repeat' (first
    | (with_reducible assumption) | exact hw.of rfl | (with_reducible apply xltFault_keeps)
    | (with_reducible apply needPri_keeps) | (with_reducible apply State.updCmd_keeps)
    | (with_reducible apply hostRead_keeps) | (with_reducible apply foldl_keeps) | split
    | (intro _; intros; try dsimp only))

theorem unitGo_keeps {tch : List Field} {s0 : State} (ctx : Nat) (got : List AtsUnit) (w : XltWait)
    (s : State) (hs : Keeps tch s0 s)
    (hw : Within [.link, .hub, .hfifo, .msix, .sync, .counted, .mem, .stack, .pool, .tier, .xlt, .cdie, .hif, .disp,
    .rna, .tile] tch := by exact Within.of (by assumption) rfl) :
    Keeps tch s0 (unitGo ctx got w s) := by
  unfold unitGo
  try dsimp only
  repeat' (first
    | (with_reducible assumption) | exact hw.of rfl | (with_reducible apply migrateUnit_keeps)
    | (with_reducible apply resumeWait_keeps) | split)

theorem execAtsCompletion_keeps {tch : List Field} {s0 : State} (ctx : Nat) (page : Nat)
    (parts : List AtsTrans) (s : State) (hs : Keeps tch s0 s)
    (hw : Within [.link, .hub, .hfifo, .msix, .sync, .counted, .mem, .stack, .pool, .tier, .xlt, .cdie, .hif, .disp,
    .rna, .tile] tch := by exact Within.of (by assumption) rfl) :
    OnNext (Keeps tch s0) (execAtsCompletion ctx page parts s) := by
  unfold execAtsCompletion
  try dsimp only
  repeat' (first
    | (with_reducible assumption) | exact hw.of rfl | (with_reducible apply updAts_keeps)
    | (with_reducible apply installUnits_keeps) | (with_reducible apply unitGo_keeps)
    | (with_reducible apply placesGo_keeps) | (with_reducible apply tagsGo_keeps)
    | (with_reducible apply atsTidy_keeps) | (with_reducible apply atsSend_keeps)
    | (with_reducible apply foldl_keeps) | (with_reducible apply OnNext.next) | (with_reducible apply OnNext.fault)
    | split | (intro _; intros; try dsimp only))

theorem priNext_keeps {tch : List Field} {s0 : State} (fn : Nat) (old : List (Nat × Nat × Nat)) (s : State)
    (hs : Keeps tch s0 s)
    (hw : Within [.hif] tch := by exact Within.of (by assumption) rfl) :
    Keeps tch s0 (priNext fn old s) := by
  unfold priNext
  try dsimp only
  repeat' (first
    | (with_reducible assumption) | exact hw.of rfl | (with_reducible apply priSend_keeps) | split)

theorem execPriResponse_keeps {tch : List Field} {s0 : State} (ctx : Nat) (page : Nat) (unit : Nat)
    (ok : Bool) (s : State) (hs : Keeps tch s0 s)
    (hw : Within [.link, .hub, .hfifo, .msix, .sync, .counted, .mem, .stack, .pool, .tier, .xlt, .cdie, .hif, .disp,
    .rna, .tile] tch := by exact Within.of (by assumption) rfl) :
    OnNext (Keeps tch s0) (execPriResponse ctx page unit ok s) := by
  unfold execPriResponse
  try dsimp only
  repeat' (first
    | (with_reducible assumption) | exact hw.of rfl | (with_reducible apply priNext_keeps)
    | (with_reducible apply withXlt_keeps) | (with_reducible apply atsSend_keeps)
    | (with_reducible apply updAts_keeps) | (with_reducible apply placesGo_keeps)
    | (with_reducible apply tagsGo_keeps) | (with_reducible apply atsTidy_keeps)
    | (with_reducible apply xltFaults_keeps) | (with_reducible apply OnNext.next)
    | (with_reducible apply OnNext.fault) | split)

theorem migrateForget_keeps {tch : List Field} {s0 : State} (fn : Nat) (dva : Nat) (bytes : Nat) (s : State)
    (hs : Keeps tch s0 s)
    (hw : Within [.link, .hub, .hfifo, .msix, .sync, .mem, .stack, .pool, .tier, .xlt, .cdie, .hif, .disp,
    .tile] tch := by exact Within.of (by assumption) rfl) :
    Keeps tch s0 (migrateForget fn dva bytes s) := by
  unfold migrateForget
  try dsimp only
  repeat' (first
    | (with_reducible assumption) | exact hw.of rfl | (with_reducible apply needUnit_keeps)
    | (with_reducible apply State.updCmd_keeps) | (with_reducible apply foldl_keeps) | split
    | (intro _; intros; try dsimp only))

theorem execAtsInvalidateRequest_keeps {tch : List Field} {s0 : State} (fn : Nat) (tag : Nat) (dva : Nat)
    (bytes : Nat) (s : State) (hs : Keeps tch s0 s)
    (hw : Within [.link, .hub, .hfifo, .msix, .sync, .mem, .stack, .pool, .tier, .xlt, .cdie, .hif, .disp,
    .tile] tch := by exact Within.of (by assumption) rfl) :
    OnNext (Keeps tch s0) (execAtsInvalidateRequest fn tag dva bytes s) := by
  unfold execAtsInvalidateRequest
  try dsimp only
  repeat' (first
    | (with_reducible assumption) | exact hw.of rfl | (with_reducible apply withXlt_keeps)
    | (with_reducible apply migrateForget_keeps) | (with_reducible apply withTile_keeps)
    | (with_reducible apply foldl_keeps) | (with_reducible apply OnNext.next) | (with_reducible apply OnNext.fault)
    | split | (intro _; intros; try dsimp only))

theorem execAtsInvalidateDone_keeps {tch : List Field} {s0 : State} (fn : Nat) (tag : Nat) (s : State)
    (hs : Keeps tch s0 s)
    (hw : Within [.xlt, .hif] tch := by exact Within.of (by assumption) rfl) :
    OnNext (Keeps tch s0) (execAtsInvalidateDone fn tag s) := by
  unfold execAtsInvalidateDone
  try dsimp only
  repeat' (first
    | (with_reducible assumption) | exact hw.of rfl | (with_reducible apply State.tlp_keeps)
    | (with_reducible apply withXlt_keeps) | (with_reducible apply OnNext.next) | (with_reducible apply OnNext.fault)
    | split)

theorem retryStalls_keeps {tch : List Field} {s0 : State} (p : Stall → Bool) (s : State) (hs : Keeps tch s0 s)
    (hw : Within [.link, .hub, .hfifo, .msix, .sync, .counted, .mem, .stack, .pool, .tier, .xlt, .cdie, .hif, .disp,
    .rna, .tile] tch := by exact Within.of (by assumption) rfl) :
    Keeps tch s0 (retryStalls p s) := by
  unfold retryStalls
  try dsimp only
  repeat' (first
    | (with_reducible assumption) | exact hw.of rfl | (with_reducible apply resumeWait_keeps)
    | (with_reducible apply foldl_keeps) | split | (intro _; intros; try dsimp only))

theorem execXltResume_keeps {tch : List Field} {s0 : State} (who : Agent) (ctx : Nat) (s : State)
    (hs : Keeps tch s0 s)
    (hw : Within [.link, .hub, .hfifo, .msix, .sync, .counted, .mem, .stack, .pool, .tier, .xlt, .cdie, .hif, .disp,
    .rna, .tile, .regs] tch := by exact Within.of (by assumption) rfl) :
    OnNext (Keeps tch s0) (execXltResume who ctx s) := by
  unfold execXltResume
  try dsimp only
  repeat' (first
    | (with_reducible assumption) | exact hw.of rfl | (with_reducible apply retryStalls_keeps)
    | (with_reducible apply State.setReg_keeps) | (with_reducible apply setupRefused_keeps)
    | (with_reducible apply OnNext.next) | (with_reducible apply OnNext.fault) | split)

theorem waitExpires_keeps {tch : List Field} {s0 : State} (ctx : Nat) (reason : Nat) (w : XltWait)
    (s : State) (hs : Keeps tch s0 s)
    (hw : Within [.link, .hub, .hfifo, .msix, .sync, .mem, .stack, .pool, .tier, .xlt, .cdie, .hif, .disp, .tile,
    .free] tch := by exact Within.of (by assumption) rfl) :
    Keeps tch s0 (waitExpires ctx reason w s) := by
  unfold waitExpires
  try dsimp only
  repeat' (first
    | (with_reducible assumption) | exact hw.of rfl | (with_reducible apply State.draw_keeps)
    | (with_reducible apply xprefSkip_keeps) | (with_reducible apply dropWaits_keeps)
    | (with_reducible apply placeFault_keeps) | (with_reducible apply faultRecord_keeps)
    | (with_reducible apply endFault_keeps) | (with_reducible refine Keeps.of_snd (by assumption) ?_) | split
    | dsimp only)

theorem execFaultTimeout_keeps {tch : List Field} {s0 : State} (ctx : Nat) (page : Nat) (s : State)
    (hs : Keeps tch s0 s)
    (hw : Within [.link, .hub, .hfifo, .msix, .sync, .counted, .mem, .stack, .pool, .tier, .xlt, .cdie, .hif, .disp,
    .rna, .tile, .free] tch := by exact Within.of (by assumption) rfl) :
    OnNext (Keeps tch s0) (execFaultTimeout ctx page s) := by
  unfold execFaultTimeout
  try dsimp only
  repeat' (first
    | (with_reducible assumption) | exact hw.of rfl | (with_reducible apply placesGo_keeps)
    | (with_reducible apply tagsGo_keeps) | (with_reducible apply atsTidy_keeps)
    | (with_reducible apply waitExpires_keeps) | (with_reducible apply foldl_keeps)
    | (with_reducible apply OnNext.next) | (with_reducible apply OnNext.fault) | split
    | (intro _; intros; try dsimp only))

theorem execXltStatRead_keeps {tch : List Field} {s0 : State} (who : Agent) (s : State) (hs : Keeps tch s0 s)
    (hw : Within [.xlt, .replies] tch := by exact Within.of (by assumption) rfl) :
    OnNext (Keeps tch s0) (execXltStatRead who s) := by
  unfold execXltStatRead
  try dsimp only
  repeat' (first
    | (with_reducible assumption) | exact hw.of rfl | (with_reducible apply reply_keeps)
    | (with_reducible apply withXlt_keeps) | (with_reducible apply shutRead_keeps)
    | (with_reducible apply OnNext.next) | (with_reducible apply OnNext.fault) | split)

theorem execXltFrctlRead_keeps {tch : List Field} {s0 : State} (who : Agent) (ctx : Nat) (s : State)
    (hs : Keeps tch s0 s)
    (hw : Within [.xlt, .replies] tch := by exact Within.of (by assumption) rfl) :
    OnNext (Keeps tch s0) (execXltFrctlRead who ctx s) := by
  unfold execXltFrctlRead
  try dsimp only
  repeat' (first
    | (with_reducible assumption) | exact hw.of rfl | (with_reducible apply reply_keeps)
    | (with_reducible apply withXlt_keeps) | (with_reducible apply shutRead_keeps)
    | (with_reducible apply OnNext.next) | (with_reducible apply OnNext.fault) | split)

end Sys2Proof.Machine
end

