-- ==== Sys2Proof/Laws/KeepsCommand.lean ====
section
/-!
SUPPORT. What every operation of commands, their ends, recovery and the host link keeps (Keeps, Laws/Next.lean):
one law per operation.
-/
namespace Sys2Proof.Machine
set_option Elab.async false

theorem startCmd_keeps {tch : List Field} {s0 : State} (c : Cmd) (s : State) (hs : Keeps tch s0 s)
    (hw : Within [.link, .hub, .sync, .disp] tch := by exact Within.of (by assumption) rfl) :
    Keeps tch s0 (startCmd c s) := by
  unfold startCmd
  try dsimp only
  repeat' (first
    | (with_reducible assumption) | exact hw.of rfl | (with_reducible apply promoteRing_keeps)
    | (with_reducible apply State.updCmd_keeps) | (with_reducible apply withDisp_keeps) | split)

theorem workDone_keeps {tch : List Field} {s0 : State} (ring : Nat) (seq : Nat) (s : State)
    (hs : Keeps tch s0 s)
    (hw : Within [.disp] tch := by exact Within.of (by assumption) rfl) :
    Keeps tch s0 (workDone ring seq s) := by
  unfold workDone
  try dsimp only
  repeat' (first
    | (with_reducible assumption) | exact hw.of rfl | (with_reducible apply State.updCmd_keeps) | split)

theorem refuseHead_keeps {tch : List Field} {s0 : State} (c : Cmd) (reason : Nat) (s : State)
    (hs : Keeps tch s0 s)
    (hw : Within [.link, .hub, .sync, .xlt, .disp, .tile] tch := by exact Within.of (by assumption) rfl) :
    Keeps tch s0 (refuseHead c reason s) := by
  unfold refuseHead
  try dsimp only
  repeat' (first
    | (with_reducible assumption) | exact hw.of rfl | (with_reducible apply promoteRing_keeps)
    | (with_reducible apply State.updCmd_keeps) | (with_reducible apply endWith_keeps) | split)

theorem placePart_keeps {tch : List Field} {s0 : State} (c : Cmd) (code : Nat) (part : Nat) (s : State)
    (hs : Keeps tch s0 s)
    (hw : Within [.tile] tch := by exact Within.of (by assumption) rfl) :
    ∀ t, placePart c code part s = some t → Keeps tch s0 t.2 := by
  unfold placePart
  intro t ht
  dsimp only at ht
  (repeat' split at ht) <;> cases ht
  exact State.updTile_keeps _ _ _ hs

theorem placeParts_keeps {tch : List Field} {s0 : State} (c : Cmd) (code : Nat) (z1 : Nat) (z2 : Nat)
    (z3 : State) (hs : Keeps tch s0 z3)
    (hw : Within [.tile] tch := by exact Within.of (by assumption) rfl) :
    ∀ t, placeParts c code z1 z2 z3 = some t → Keeps tch s0 t.2 := by
  induction z1 generalizing z2 z3 with
  | zero => intro t ht; cases ht; exact hs
  | succ n ih =>
    intro t ht
    simp only [placeParts] at ht
    split at ht
    · cases ht
    · rename_i p s1 hp
      obtain ⟨r, hr, rfl⟩ := Option.map_eq_some_iff.mp ht
      exact ih _ s1 (placePart_keeps _ _ _ _ hs (hw.of rfl) _ hp) r hr

theorem placeCmd_keeps {tch : List Field} {s0 : State} (c : Cmd) (count : Nat) (s : State)
    (hs : Keeps tch s0 s)
    (hw : Within [.link, .hub, .disp, .tile] tch := by exact Within.of (by assumption) rfl) :
    ∀ t, placeCmd c count s = some t → Keeps tch s0 t := by
  unfold placeCmd
  intro t ht
  obtain ⟨r, hr, rfl⟩ := Option.map_eq_some_iff.mp ht
  have h := placeParts_keeps _ _ _ _ _ hs (hw.of rfl) _ hr
  exact foldl_keeps _ (fun s a k => send_keeps _ _ k (hw.of rfl)) _ _ (State.updCmd_keeps _ _ _ _ h (hw.of rfl))

theorem runHeader_keeps {tch : List Field} {s0 : State} (c : Cmd) (s : State) (hs : Keeps tch s0 s)
    (hw : Within [.link, .hub, .hfifo, .msix, .sync, .mem, .stack, .pool, .tier, .xlt, .cdie, .hif, .disp, .rna,
    .tile] tch := by exact Within.of (by assumption) rfl) :
    Keeps tch s0 (runHeader c s).2 := by
  unfold runHeader
  try dsimp only
  repeat' (first
    | (with_reducible assumption) | exact hw.of rfl | (with_reducible apply hostCut_keeps)
    | (with_reducible apply hostRead_keeps) | (with_reducible apply requestAt_keeps)
    | (with_reducible apply xltAccess_keeps) | (with_reducible apply fetchPage_keeps)
    | (with_reducible refine Keeps.of_snd (by assumption) ?_) | split | dsimp only)

theorem takeCkpt_keeps {tch : List Field} {s0 : State} (c : Cmd) (s : State) (hs : Keeps tch s0 s)
    (hw : Within [.disp] tch := by exact Within.of (by assumption) rfl) :
    Keeps tch s0 (takeCkpt c s) := by
  unfold takeCkpt
  try dsimp only
  repeat' (first
    | (with_reducible assumption) | exact hw.of rfl | (with_reducible apply State.updCmd_keeps) | split)

theorem execRun_keeps {tch : List Field} {s0 : State} (ring : Nat) (s : State) (hs : Keeps tch s0 s)
    (hw : Within [.link, .hub, .hfifo, .msix, .sync, .mem, .stack, .pool, .tier, .xlt, .cdie, .hif, .disp, .rna,
    .tile, .free] tch := by exact Within.of (by assumption) rfl) :
    OnNext (Keeps tch s0) (execRun ring s) := by
  unfold execRun
  try dsimp only
  repeat' (first
    | (with_reducible refine Keeps.of_snd (by assumption) ?_)
    | (refine placeCmd_keeps _ _ _ ?_ (hw.of rfl) _ (by assumption))
    | (with_reducible assumption)
    | exact hw.of rfl
    | exact rfl
    | exact Nat.le_refl _
    | exact Nat.le_succ _
    | (with_reducible apply OnNext.next)
    | (with_reducible apply noteClash_keeps)
    | (with_reducible apply startCmd_keeps)
    | (with_reducible apply withDisp_keeps)
    | (with_reducible apply runHeader_keeps)
    | (with_reducible apply inplacePieces_keeps)
    | (with_reducible apply promoteRing_keeps)
    | (with_reducible apply endWith_keeps)
    | (with_reducible apply refuseHead_keeps)
    | (with_reducible apply takeCkpt_keeps)
    | (with_reducible apply State.updCmd_keeps)
    | split
    | (intro _; intros; try dsimp only))

theorem execCheckpointDone_keeps {tch : List Field} {s0 : State} (ring : Nat) (seq : Nat) (s : State)
    (hs : Keeps tch s0 s)
    (hw : Within [.link, .hub, .hfifo, .msix, .sync, .mem, .stack, .pool, .tier, .xlt, .cdie, .hif, .disp,
    .tile] tch := by exact Within.of (by assumption) rfl) :
    OnNext (Keeps tch s0) (execCheckpointDone ring seq s) := by
  unfold execCheckpointDone
  try dsimp only
  repeat' (first
    | (with_reducible assumption) | exact hw.of rfl | (with_reducible apply inplacePieces_keeps)
    | (with_reducible apply accessFailed_keeps) | (with_reducible apply tilesReady_keeps)
    | (with_reducible apply serveReads_keeps) | (with_reducible apply State.updCmd_keeps)
    | (with_reducible apply foldl_keeps) | (with_reducible apply OnNext.next) | (with_reducible apply OnNext.fault)
    | (with_reducible refine Keeps.of_snd (by assumption) ?_) | split | dsimp only
    | (intro _; intros; try dsimp only))

theorem execResourceWaitLimit_keeps {tch : List Field} {s0 : State} (ring : Nat) (s : State)
    (hs : Keeps tch s0 s)
    (hw : Within [.disp] tch := by exact Within.of (by assumption) rfl) :
    OnNext (Keeps tch s0) (execResourceWaitLimit ring s) := by
  unfold execResourceWaitLimit
  try dsimp only
  repeat' (first
    | (with_reducible assumption) | exact hw.of rfl | (with_reducible apply withDisp_keeps)
    | (with_reducible apply OnNext.next) | (with_reducible apply OnNext.fault) | split)

theorem xltPieces_keeps {tch : List Field} {s0 : State} (ring : Nat) (seq : Nat) (ctx : Nat) (a : Nat)
    (n : Nat) (write : Bool) (s : State) (hs : Keeps tch s0 s)
    (hw : Within [.link, .hub, .hfifo, .msix, .sync, .mem, .stack, .pool, .tier, .xlt, .cdie, .hif, .disp, .rna,
    .tile] tch := by exact Within.of (by assumption) rfl) :
    Keeps tch s0 (xltPieces ring seq ctx a n write s).2 := by
  unfold xltPieces
  refine foldl_inv (fun (x : Option (List (Nat × Nat × Hit)) × State) => Keeps tch s0 x.2) _ (fun x p h => ?_) _ _ hs
  dsimp only
  split
  · exact h
  · exact xltAccess_keeps _ _ _ _ _ h

theorem copySource_keeps {tch : List Field} {s0 : State} (c : Cmd) (pieces : List (Nat × Nat × Hit))
    (s : State) (hs : Keeps tch s0 s)
    (hw : Within [.link, .hub, .hfifo, .msix, .sync, .mem, .stack, .pool, .xlt, .cdie, .hif, .disp,
    .tile] tch := by exact Within.of (by assumption) rfl) :
    Keeps tch s0 (copySource c pieces s).2 := by
  unfold copySource
  try dsimp only
  repeat' (first
    | (with_reducible assumption) | exact hw.of rfl | (with_reducible apply hostCut_keeps)
    | (with_reducible apply hostRead_keeps) | (with_reducible apply requestAt_keeps)
    | (with_reducible apply serveReads_keeps) | (with_reducible apply foldl_keeps) | split
    | (intro _; intros; try dsimp only))

theorem writeData_keeps {tch : List Field} {s0 : State} (data : List (Nat × List Byte × Bool)) (off : Nat)
    (d : Nat) (n : Nat) (s : State) (hs : Keeps tch s0 s)
    (hw : Within [.hfifo, .msix, .mem, .stack, .pool, .tier, .cdie, .hif,
    .disp] tch := by exact Within.of (by assumption) rfl) :
    Keeps tch s0 (writeData data off d n s) := by
  unfold writeData
  try dsimp only
  repeat' (first
    | (with_reducible assumption) | exact hw.of rfl | (with_reducible apply cohWrite_keeps)
    | (with_reducible apply cohPoisonRange_keeps) | (with_reducible apply foldl_keeps) | split
    | (intro _; intros; try dsimp only))

theorem taintSource_keeps {tch : List Field} {s0 : State} (c : Cmd) (src : Nat) (l : List (Nat × Nat × Hit))
    (s : State) (hs : Keeps tch s0 s)
    (hw : Within [.disp] tch := by exact Within.of (by assumption) rfl) :
    Keeps tch s0 (taintSource c src l s) := by
  unfold taintSource
  try dsimp only
  repeat' (first
    | (with_reducible assumption) | exact hw.of rfl | (with_reducible apply taintCmd_keeps)
    | (with_reducible apply foldl_keeps) | split | (intro _; intros; try dsimp only))

theorem transferOut_keeps {tch : List Field} {s0 : State} (c : Cmd) (data : List (Nat × List Byte × Bool))
    (l : List (Nat × Nat × Hit)) (s : State) (hs : Keeps tch s0 s)
    (hw : Within [.link, .hub, .hfifo, .msix, .mem, .stack, .pool, .tier, .cdie, .hif,
    .disp] tch := by exact Within.of (by assumption) rfl) :
    Keeps tch s0 (transferOut c data l s) := by
  unfold transferOut
  try dsimp only
  repeat' (first
    | (with_reducible assumption) | exact hw.of rfl | (with_reducible apply requestAt_keeps)
    | (with_reducible apply writeData_keeps) | (with_reducible apply State.updCmd_keeps)
    | (with_reducible apply foldl_keeps) | split | (intro _; intros; try dsimp only))

theorem takeTransfer_keeps {tch : List Field} {s0 : State} (c : Cmd) (s : State) (hs : Keeps tch s0 s)
    (hw : Within [.link, .hub, .sync, .mem, .stack, .pool, .tier, .cdie, .disp,
    .free] tch := by exact Within.of (by assumption) rfl) :
    Keeps tch s0 (takeTransfer c s) := by
  unfold takeTransfer
  try dsimp only
  repeat' (first
    | (with_reducible assumption) | exact hw.of rfl | (with_reducible apply noteClash_keeps)
    | (with_reducible apply startCmd_keeps) | split)

theorem execCopy_keeps {tch : List Field} {s0 : State} (ring : Nat) (s : State) (hs : Keeps tch s0 s)
    (hw : Within [.link, .hub, .hfifo, .msix, .sync, .mem, .stack, .pool, .tier, .xlt, .cdie, .hif, .disp, .rna,
    .tile, .free] tch := by exact Within.of (by assumption) rfl) :
    OnNext (Keeps tch s0) (execCopy ring s) := by
  unfold execCopy
  try dsimp only
  repeat' (first
    | (with_reducible assumption) | exact hw.of rfl | (with_reducible apply takeTransfer_keeps)
    | (with_reducible apply xltPieces_keeps) | (with_reducible apply accessFailed_keeps)
    | (with_reducible apply tilesReady_keeps) | (with_reducible apply copySource_keeps)
    | (with_reducible apply transferOut_keeps) | (with_reducible apply taintSource_keeps)
    | (with_reducible apply OnNext.next) | (with_reducible apply OnNext.fault)
    | (with_reducible refine Keeps.of_snd (by assumption) ?_) | split | dsimp only)

theorem execFill_keeps {tch : List Field} {s0 : State} (ring : Nat) (s : State) (hs : Keeps tch s0 s)
    (hw : Within [.link, .hub, .hfifo, .msix, .sync, .mem, .stack, .pool, .tier, .xlt, .cdie, .hif, .disp, .rna,
    .tile, .free] tch := by exact Within.of (by assumption) rfl) :
    OnNext (Keeps tch s0) (execFill ring s) := by
  unfold execFill
  try dsimp only
  repeat' (first
    | (with_reducible assumption) | exact hw.of rfl | (with_reducible apply takeTransfer_keeps)
    | (with_reducible apply xltPieces_keeps) | (with_reducible apply accessFailed_keeps)
    | (with_reducible apply tilesReady_keeps) | (with_reducible apply transferOut_keeps)
    | (with_reducible apply OnNext.next) | (with_reducible apply OnNext.fault)
    | (with_reducible refine Keeps.of_snd (by assumption) ?_) | split | dsimp only)

theorem headDone_keeps {tch : List Field} {s0 : State} (ring : Nat) (kind : Nat) (f : Cmd → State → State)
    (s : State) (hs : Keeps tch s0 s) (hf : ∀ b0 u, Keeps tch s0 u → Keeps tch s0 (f b0 u))
    (hw : Within [.link, .hub, .sync, .disp] tch := by exact Within.of (by assumption) rfl) :
    Keeps tch s0 (headDone ring kind f s) := by
  unfold headDone
  try dsimp only
  repeat' (first
    | (with_reducible assumption) | exact hw.of rfl | (with_reducible apply workDone_keeps)
    | (with_reducible apply startCmd_keeps) | (with_reducible apply hf) | split | (intro _; intros; try dsimp only))

theorem execWaitDescriptor_keeps {tch : List Field} {s0 : State} (ring : Nat) (s : State)
    (hs : Keeps tch s0 s)
    (hw : Within [.link, .hub, .sync, .disp] tch := by exact Within.of (by assumption) rfl) :
    OnNext (Keeps tch s0) (execWaitDescriptor ring s) := by
  unfold execWaitDescriptor
  try dsimp only
  repeat' (first
    | (with_reducible assumption) | exact hw.of rfl | (with_reducible apply headDone_keeps)
    | (with_reducible apply OnNext.next) | (with_reducible apply OnNext.fault) | split
    | (intro _; intros; try dsimp only))

theorem execSignalDescriptor_keeps {tch : List Field} {s0 : State} (ring : Nat) (s : State)
    (hs : Keeps tch s0 s)
    (hw : Within [.link, .hub, .sync, .disp] tch := by exact Within.of (by assumption) rfl) :
    OnNext (Keeps tch s0) (execSignalDescriptor ring s) := by
  unfold execSignalDescriptor
  try dsimp only
  repeat' (first
    | (with_reducible assumption) | exact hw.of rfl | (with_reducible apply headDone_keeps)
    | (with_reducible apply OnNext.next) | (with_reducible apply OnNext.fault) | split
    | (intro _; intros; try dsimp only))

theorem execHintDescriptor_keeps {tch : List Field} {s0 : State} (ring : Nat) (s : State)
    (hs : Keeps tch s0 s)
    (hw : Within [.link, .hub, .sync, .disp, .pwr] tch := by exact Within.of (by assumption) rfl) :
    OnNext (Keeps tch s0) (execHintDescriptor ring s) := by
  unfold execHintDescriptor
  try dsimp only
  repeat' (first
    | (with_reducible assumption) | exact hw.of rfl | (with_reducible apply headDone_keeps)
    | (with_reducible apply addHint_keeps) | (with_reducible apply foldl_keeps) | (with_reducible apply OnNext.next)
    | (with_reducible apply OnNext.fault) | split | (intro _; intros; try dsimp only))

theorem execBarrier_keeps {tch : List Field} {s0 : State} (ring : Nat) (s : State) (hs : Keeps tch s0 s)
    (hw : Within [.link, .hub, .sync, .disp] tch := by exact Within.of (by assumption) rfl) :
    OnNext (Keeps tch s0) (execBarrier ring s) := by
  unfold execBarrier
  try dsimp only
  repeat' (first
    | (with_reducible assumption) | exact hw.of rfl | (with_reducible apply workDone_keeps)
    | (with_reducible apply startCmd_keeps) | (with_reducible apply OnNext.next)
    | (with_reducible apply OnNext.fault) | split)

theorem addBlock_keeps {tch : List Field} {s0 : State} (c : Cmd) (ctx : Nat) (page : Nat) (pages : Nat)
    (s : State) (hs : Keeps tch s0 s)
    (hw : Within [.xlt] tch := by exact Within.of (by assumption) rfl) :
    Keeps tch s0 (addBlock c ctx page pages s) := by
  unfold addBlock
  try dsimp only
  repeat' (first
    | (with_reducible assumption) | exact hw.of rfl | (with_reducible apply withXlt_keeps) | split)

theorem dropRange_keeps {tch : List Field} {s0 : State} (ctx : Nat) (page : Nat) (pages : Nat) (s : State)
    (hs : Keeps tch s0 s)
    (hw : Within [.xlt, .rna, .tile] tch := by exact Within.of (by assumption) rfl) :
    Keeps tch s0 (dropRange ctx page pages s) := by
  unfold dropRange
  try dsimp only
  repeat' (first
    | (with_reducible assumption) | exact hw.of rfl | (with_reducible apply dropTlb_keeps)
    | (with_reducible apply withXlt_keeps) | split)

theorem liftBlocks_keeps {tch : List Field} {s0 : State} (ring : Nat) (seq : Nat) (s : State)
    (hs : Keeps tch s0 s)
    (hw : Within [.link, .hub, .hfifo, .msix, .sync, .counted, .mem, .stack, .pool, .tier, .xlt, .cdie, .hif, .disp,
    .rna, .tile] tch := by exact Within.of (by assumption) rfl) :
    Keeps tch s0 (liftBlocks ring seq s) := by
  unfold liftBlocks
  try dsimp only
  repeat' (first
    | (with_reducible assumption) | exact hw.of rfl | (with_reducible apply withXlt_keeps)
    | (with_reducible apply retryStalls_keeps) | (with_reducible apply restartWalks_keeps) | split)

theorem entryRead_keeps {tch : List Field} {s0 : State} (a : Nat) (s : State) (hs : Keeps tch s0 s)
    (hw : Within [.hfifo, .msix, .mem, .stack, .pool, .cdie, .hif] tch := by exact Within.of (by assumption) rfl) :
    Keeps tch s0 (entryRead a s).2 := by
  unfold entryRead
  try dsimp only
  repeat' (first
    | (with_reducible assumption) | exact hw.of rfl | (with_reducible apply serveReads_keeps) | split)

theorem entryPlace_keeps {tch : List Field} {s0 : State} (bad : State → Nat → Nat → Option Verdict)
    (dva : Nat) (z1 : Nat) (z2 : Nat) (z3 : Nat) (z4 : State) (hs : Keeps tch s0 z4)
    (hw : Within [.hfifo, .msix, .mem, .stack, .pool, .cdie, .hif] tch := by exact Within.of (by assumption) rfl) :
    Keeps tch s0 (entryPlace bad dva z1 z2 z3 z4).2 := by
  induction z1 generalizing z2 z3 z4 with
  | zero => exact hs
  | succ n ih =>
    have g := entryRead_keeps z3 z4 hs (hw.of rfl)
    unfold entryPlace
    split
    · dsimp only
      split
      · exact Keeps.of_snd (by assumption) g
      · exact ih _ _ _ (Keeps.of_snd (by assumption) g)
    · exact g

theorem ctxEntry_keeps {tch : List Field} {s0 : State} (bad : State → Nat → Nat → Option Verdict)
    (none_ : Verdict) (ctx : Nat) (dva : Nat) (level : Nat) (s : State) (hs : Keeps tch s0 s)
    (hw : Within [.hfifo, .msix, .mem, .stack, .pool, .cdie, .hif] tch := by exact Within.of (by assumption) rfl) :
    Keeps tch s0 (ctxEntry bad none_ ctx dva level s).2 := by
  unfold ctxEntry
  try dsimp only
  repeat' (first
    | (with_reducible assumption) | exact hw.of rfl | (with_reducible apply entryPlace_keeps)
    | (with_reducible refine Keeps.of_snd (by assumption) ?_) | split | dsimp only)

theorem pageEntry_keeps {tch : List Field} {s0 : State} (ctx : Nat) (dva : Nat) (s : State)
    (hs : Keeps tch s0 s)
    (hw : Within [.hfifo, .msix, .mem, .stack, .pool, .cdie, .hif] tch := by exact Within.of (by assumption) rfl) :
    Keeps tch s0 (pageEntry ctx dva s).2 := by
  unfold pageEntry
  try dsimp only
  repeat' (first
    | (with_reducible assumption) | exact hw.of rfl | (with_reducible apply ctxEntry_keeps)
    | (with_reducible apply entryRead_keeps) | (with_reducible refine Keeps.of_snd (by assumption) ?_) | split
    | dsimp only)

theorem engFailed_keeps {tch : List Field} {s0 : State} (c : Cmd) (reason : Nat) (a : Nat) (dva : Nat)
    (write : Bool) (s : State) (hs : Keeps tch s0 s)
    (hw : Within [.link, .hub, .sync, .xlt, .disp, .tile] tch := by exact Within.of (by assumption) rfl) :
    Keeps tch s0 (engFailed c reason a dva write s) := by
  unfold engFailed
  try dsimp only
  repeat' (first
    | (with_reducible assumption) | exact hw.of rfl | (with_reducible apply accessFailed_keeps) | split)

theorem execMigrate_keeps {tch : List Field} {s0 : State} (ring : Nat) (s : State) (hs : Keeps tch s0 s)
    (hw : Within [.link, .hub, .hfifo, .msix, .sync, .mem, .stack, .pool, .tier, .xlt, .cdie, .hif, .disp, .rna,
    .tile] tch := by exact Within.of (by assumption) rfl) :
    OnNext (Keeps tch s0) (execMigrate ring s) := by
  unfold execMigrate
  try dsimp only
  repeat' (first
    | (with_reducible assumption) | exact hw.of rfl | (with_reducible apply dropRange_keeps)
    | (with_reducible apply addBlock_keeps) | (with_reducible apply startCmd_keeps)
    | (with_reducible apply pageEntry_keeps) | (with_reducible apply endWith_keeps)
    | (with_reducible apply engFailed_keeps) | (with_reducible apply needUnit_keeps)
    | (with_reducible apply foldl_keeps) | (with_reducible apply OnNext.next) | (with_reducible apply OnNext.fault)
    | (with_reducible refine Keeps.of_snd (by assumption) ?_) | split | dsimp only
    | (intro _; intros; try dsimp only))

theorem migrateEnd_keeps {tch : List Field} {s0 : State} (c : Cmd) (entry : Nat → Nat) (s : State)
    (hs : Keeps tch s0 s)
    (hw : Within [.link, .hub, .hfifo, .msix, .sync, .counted, .mem, .stack, .pool, .tier, .xlt, .cdie, .hif, .disp,
    .rna, .tile] tch := by exact Within.of (by assumption) rfl) :
    Keeps tch s0 (migrateEnd c entry s) := by
  unfold migrateEnd
  try dsimp only
  repeat' (first
    | (with_reducible assumption) | exact hw.of rfl | (with_reducible apply pageEntry_keeps)
    | (with_reducible apply endWith_keeps) | (with_reducible apply engFailed_keeps)
    | (with_reducible apply workDone_keeps) | (with_reducible apply liftBlocks_keeps)
    | (with_reducible apply cohWrite_keeps) | (with_reducible refine Keeps.of_snd (by assumption) ?_) | split
    | dsimp only)

theorem execMigrateCopyDone_keeps {tch : List Field} {s0 : State} (ring : Nat) (seq : Nat)
    (data : List Byte) (s : State) (hs : Keeps tch s0 s)
    (hw : Within [.link, .hub, .hfifo, .msix, .sync, .counted, .mem, .stack, .pool, .tier, .xlt, .cdie, .hif, .disp,
    .rna, .tile] tch := by exact Within.of (by assumption) rfl) :
    OnNext (Keeps tch s0) (execMigrateCopyDone ring seq data s) := by
  unfold execMigrateCopyDone
  try dsimp only
  repeat' (first
    | (with_reducible assumption) | exact hw.of rfl | (with_reducible apply setReads_keeps)
    | (with_reducible apply engFailed_keeps) | (with_reducible apply migrateEnd_keeps)
    | (with_reducible apply cohWrite_keeps) | (with_reducible apply accessFailed_keeps)
    | (with_reducible apply OnNext.next) | (with_reducible apply OnNext.fault) | split)

theorem execMigrateBackDone_keeps {tch : List Field} {s0 : State} (ring : Nat) (seq : Nat) (s : State)
    (hs : Keeps tch s0 s)
    (hw : Within [.link, .hub, .hfifo, .msix, .sync, .counted, .mem, .stack, .pool, .tier, .xlt, .cdie, .hif, .disp,
    .rna, .tile] tch := by exact Within.of (by assumption) rfl) :
    OnNext (Keeps tch s0) (execMigrateBackDone ring seq s) := by
  unfold execMigrateBackDone
  try dsimp only
  repeat' (first
    | (with_reducible assumption) | exact hw.of rfl | (with_reducible apply endWith_keeps)
    | (with_reducible apply cutCmd_keeps) | (with_reducible apply pageEntry_keeps)
    | (with_reducible apply engFailed_keeps) | (with_reducible apply serveReads_keeps)
    | (with_reducible apply taintCmd_keeps) | (with_reducible apply State.tlp_keeps)
    | (with_reducible apply migrateEnd_keeps) | (with_reducible apply foldl_keeps)
    | (with_reducible apply OnNext.next) | (with_reducible apply OnNext.fault)
    | (with_reducible refine Keeps.of_snd (by assumption) ?_) | split | dsimp only
    | (intro _; intros; try dsimp only))

theorem invDrop_keeps {tch : List Field} {s0 : State} (c : Cmd) (s : State) (hs : Keeps tch s0 s)
    (hw : Within [.xlt, .rna, .tile] tch := by exact Within.of (by assumption) rfl) :
    Keeps tch s0 (invDrop c s) := by
  unfold invDrop
  try dsimp only
  repeat' (first
    | (with_reducible assumption) | exact hw.of rfl | (with_reducible apply dropRange_keeps)
    | (with_reducible apply foldl_keeps) | split | (intro _; intros; try dsimp only))

theorem execInvalidate_keeps {tch : List Field} {s0 : State} (ring : Nat) (items : List UpdItem) (s : State)
    (hs : Keeps tch s0 s)
    (hw : Within [.link, .hub, .hfifo, .msix, .sync, .mem, .stack, .pool, .xlt, .cdie, .hif, .disp, .rna,
    .tile] tch := by exact Within.of (by assumption) rfl) :
    OnNext (Keeps tch s0) (execInvalidate ring items s) := by
  unfold execInvalidate
  try dsimp only
  repeat' (first
    | (with_reducible assumption) | exact hw.of rfl | (with_reducible apply addBlock_keeps)
    | (with_reducible apply startCmd_keeps) | (with_reducible apply invDrop_keeps)
    | (with_reducible apply endWith_keeps) | (with_reducible apply cutCmd_keeps)
    | (with_reducible apply engFailed_keeps) | (with_reducible apply serveReads_keeps)
    | (with_reducible apply State.updCmd_keeps) | (with_reducible apply OnNext.next)
    | (with_reducible apply OnNext.fault) | split)

theorem itemPlace_keeps {tch : List Field} {s0 : State} (ctx : Nat) (dva : Nat) (level : Nat) (index : Nat)
    (s : State) (hs : Keeps tch s0 s)
    (hw : Within [.hfifo, .msix, .mem, .stack, .pool, .cdie, .hif] tch := by exact Within.of (by assumption) rfl) :
    Keeps tch s0 (itemPlace ctx dva level index s).2 := by
  unfold itemPlace
  try dsimp only
  repeat' (first
    | (with_reducible assumption) | exact hw.of rfl | (with_reducible apply ctxEntry_keeps)
    | (with_reducible refine Keeps.of_snd (by assumption) ?_) | split | dsimp only)

theorem zeroTable_keeps {tch : List Field} {s0 : State} (a : Nat) (s : State) (hs : Keeps tch s0 s)
    (hw : Within [.mem, .stack, .pool, .cdie] tch := by exact Within.of (by assumption) rfl) :
    Keeps tch s0 (zeroTable a s) := by
  unfold zeroTable
  try dsimp only
  repeat' (first
    | (with_reducible assumption) | exact hw.of rfl | (with_reducible apply dropCopies_keeps)
    | (with_reducible apply withMem_keeps) | (with_reducible apply foldl_keeps) | (with_reducible apply RamOk.rfl')
    | (with_reducible apply RamOk_empty) | (with_reducible apply RamOk_zero) | split
    | (intro _; intros; try dsimp only))

theorem invStop_keeps {tch : List Field} {s0 : State} (c : Cmd) (v : Verdict) (s : State)
    (hs : Keeps tch s0 s)
    (hw : Within [.link, .hub, .sync, .xlt, .disp, .rna, .tile] tch := by exact Within.of (by assumption) rfl) :
    Keeps tch s0 (invStop c v s) := by
  unfold invStop
  try dsimp only
  repeat' (first
    | (with_reducible assumption) | exact hw.of rfl | (with_reducible apply invDrop_keeps)
    | (with_reducible apply endWith_keeps) | split)

theorem itemApplied_keeps {tch : List Field} {s0 : State} (c : Cmd) (i : UpdItem) (s : State)
    (hs : Keeps tch s0 s)
    (hw : Within [.xlt, .disp, .rna, .tile] tch := by exact Within.of (by assumption) rfl) :
    Keeps tch s0 (itemApplied c i s) := by
  unfold itemApplied
  try dsimp only
  repeat' (first
    | (with_reducible assumption) | exact hw.of rfl | (with_reducible apply State.updCmd_keeps)
    | (with_reducible apply addBlock_keeps) | (with_reducible apply invDrop_keeps) | split)

theorem execUpdateItemApplied_keeps {tch : List Field} {s0 : State} (ring : Nat) (seq : Nat) (reason : Nat)
    (s : State) (hs : Keeps tch s0 s)
    (hw : Within [.link, .hub, .hfifo, .msix, .sync, .mem, .stack, .pool, .tier, .xlt, .cdie, .hif, .disp, .rna,
    .tile] tch := by exact Within.of (by assumption) rfl) :
    OnNext (Keeps tch s0) (execUpdateItemApplied ring seq reason s) := by
  unfold execUpdateItemApplied
  try dsimp only
  repeat' (first
    | (with_reducible assumption) | exact hw.of rfl | (with_reducible apply invStop_keeps)
    | (with_reducible apply zeroTable_keeps) | (with_reducible apply itemApplied_keeps)
    | (with_reducible apply withXlt_keeps) | (with_reducible apply itemPlace_keeps)
    | (with_reducible apply invDrop_keeps) | (with_reducible apply engFailed_keeps)
    | (with_reducible apply cohWrite_keeps) | (with_reducible apply OnNext.next)
    | (with_reducible apply OnNext.fault) | (with_reducible refine Keeps.of_snd (by assumption) ?_) | split
    | dsimp only)

theorem execInvalidateDrainDone_keeps {tch : List Field} {s0 : State} (ring : Nat) (seq : Nat) (s : State)
    (hs : Keeps tch s0 s)
    (hw : Within [.link, .hub, .hfifo, .msix, .sync, .counted, .mem, .stack, .pool, .tier, .xlt, .cdie, .hif, .disp,
    .rna, .tile] tch := by exact Within.of (by assumption) rfl) :
    OnNext (Keeps tch s0) (execInvalidateDrainDone ring seq s) := by
  unfold execInvalidateDrainDone
  try dsimp only
  repeat' (first
    | (with_reducible assumption) | exact hw.of rfl | (with_reducible apply workDone_keeps)
    | (with_reducible apply liftBlocks_keeps) | (with_reducible apply OnNext.next)
    | (with_reducible apply OnNext.fault) | split)

theorem updStaged_keeps {tch : List Field} {s0 : State} (ring : Nat) (seq : Nat) (region : Nat)
    (f : Staged → Staged) (s : State) (hs : Keeps tch s0 s)
    (hw : Within [.hif] tch := by exact Within.of (by assumption) rfl) :
    Keeps tch s0 (updStaged ring seq region f s) := by
  unfold updStaged
  try dsimp only
  repeat' (first
    | (with_reducible assumption) | exact hw.of rfl | (with_reducible apply withHif_keeps) | split)

theorem outputData_keeps {tch : List Field} {s0 : State} (c : Cmd) (dva : Nat) (len : Nat) (s : State)
    (hs : Keeps tch s0 s)
    (hw : Within [.link, .hub, .hfifo, .msix, .sync, .mem, .stack, .pool, .tier, .xlt, .cdie, .hif, .disp, .rna,
    .tile] tch := by exact Within.of (by assumption) rfl) :
    Keeps tch s0 (outputData c dva len s).2 := by
  unfold outputData
  try dsimp only
  repeat' (first
    | (with_reducible assumption) | exact hw.of rfl | (with_reducible apply xltPieces_keeps)
    | (with_reducible apply accessFailed_keeps) | (with_reducible apply tilesReady_keeps)
    | (with_reducible apply copySource_keeps) | (with_reducible apply taintSource_keeps)
    | (with_reducible refine Keeps.of_snd (by assumption) ?_) | split | dsimp only)

theorem stageIn_keeps {tch : List Field} {s0 : State} (c : Cmd) (region : Nat) (fn : Nat) (len : Nat)
    (data : List (Nat × List Byte × Bool)) (s : State) (hs : Keeps tch s0 s)
    (hw : Within [.hif] tch := by exact Within.of (by assumption) rfl) :
    ∀ t, stageIn c region fn len data s = some t → Keeps tch s0 t := by
  unfold stageIn
  intro t ht
  dsimp only at ht
  (repeat' split at ht) <;> cases ht <;> first | exact hs | exact withHif_keeps hs _ (hw.of rfl)

theorem outTlps_keeps {tch : List Field} {s0 : State} (c : Cmd) (region : Nat) (fn : Nat) (data : List
    (Nat × List Byte × Bool)) (l : List (Nat × Nat × Hit)) (s : State) (hs : Keeps tch s0 s)
    (hw : Within [.hif] tch := by exact Within.of (by assumption) rfl) :
    Keeps tch s0 (outTlps c region fn data l s) := by
  unfold outTlps
  try dsimp only
  repeat' (first
    | (with_reducible assumption) | exact hw.of rfl | (with_reducible apply crossNote_keeps)
    | (with_reducible apply updStaged_keeps) | (with_reducible apply State.tlp_keeps)
    | (with_reducible apply foldl_keeps) | split | (intro _; intros; try dsimp only))

theorem outDevice_keeps {tch : List Field} {s0 : State} (c : Cmd) (data : List (Nat × List Byte × Bool))
    (l : List (Nat × Nat × Hit)) (s : State) (hs : Keeps tch s0 s)
    (hw : Within [.hfifo, .msix, .mem, .stack, .pool, .tier, .cdie, .hif,
    .disp] tch := by exact Within.of (by assumption) rfl) :
    Keeps tch s0 (outDevice c data l s) := by
  unfold outDevice
  try dsimp only
  repeat' (first
    | (with_reducible assumption) | exact hw.of rfl | (with_reducible apply writeData_keeps)
    | (with_reducible apply foldl_keeps) | split | (intro _; intros; try dsimp only))

theorem outputDone_keeps {tch : List Field} {s0 : State} (c : Cmd) (region : Nat) (s : State)
    (hs : Keeps tch s0 s)
    (hw : Within [.disp] tch := by exact Within.of (by assumption) rfl) :
    Keeps tch s0 (outputDone c region s) := by
  unfold outputDone
  try dsimp only
  repeat' (first
    | (with_reducible assumption) | exact hw.of rfl | (with_reducible apply State.updCmd_keeps) | split)

theorem execStagedOutputCopy_keeps {tch : List Field} {s0 : State} (ring : Nat) (seq : Nat) (region : Nat)
    (s : State) (hs : Keeps tch s0 s)
    (hw : Within [.link, .hub, .hfifo, .msix, .sync, .mem, .stack, .pool, .tier, .xlt, .cdie, .hif, .disp, .rna,
    .tile] tch := by exact Within.of (by assumption) rfl) :
    OnNext (Keeps tch s0) (execStagedOutputCopy ring seq region s) := by
  unfold execStagedOutputCopy
  try dsimp only
  repeat' (first
    | (exact stageIn_keeps _ _ _ _ _ _ (outputData_keeps _ _ _ _ hs (hw.of rfl)) (hw.of rfl) _ (by assumption))
    | (with_reducible assumption)
    | exact hw.of rfl
    | exact rfl
    | exact Nat.le_refl _
    | exact Nat.le_succ _
    | (with_reducible apply OnNext.next)
    | (with_reducible apply outputData_keeps)
    | (with_reducible apply outputDone_keeps)
    | (with_reducible apply updStaged_keeps)
    | (with_reducible apply cutCmd_keeps)
    | (with_reducible apply accessFailed_keeps)
    | (with_reducible apply outDevice_keeps)
    | (with_reducible apply outTlps_keeps)
    | (with_reducible apply tilesReady_keeps)
    | (with_reducible apply xltPieces_keeps)
    | split
    | (intro _; intros; try dsimp only))

theorem execStagedCopyFreed_keeps {tch : List Field} {s0 : State} (ring : Nat) (seq : Nat) (region : Nat)
    (s : State) (hs : Keeps tch s0 s)
    (hw : Within [.hif] tch := by exact Within.of (by assumption) rfl) :
    OnNext (Keeps tch s0) (execStagedCopyFreed ring seq region s) := by
  unfold execStagedCopyFreed
  try dsimp only
  repeat' (first
    | (with_reducible assumption) | exact hw.of rfl | (with_reducible apply withHif_keeps)
    | (with_reducible apply OnNext.next) | (with_reducible apply OnNext.fault) | split)

theorem signals_keeps {tch : List Field} {s0 : State} (l : List SyncEnt) (s : State) (hs : Keeps tch s0 s)
    (hw : Within [.link, .hub, .sync, .disp] tch := by exact Within.of (by assumption) rfl) :
    Keeps tch s0 (signals l s) := by
  unfold signals
  try dsimp only
  repeat' (first
    | (with_reducible assumption) | exact hw.of rfl | (with_reducible apply syncSetOp_keeps)
    | (with_reducible apply syncAddOp_keeps) | (with_reducible apply foldl_keeps) | split
    | (intro _; intros; try dsimp only))

theorem crossFlush_keeps {tch : List Field} {s0 : State} (ring : Nat) (seq : Nat) (s : State)
    (hs : Keeps tch s0 s)
    (hw : Within [.hif] tch := by exact Within.of (by assumption) rfl) :
    Keeps tch s0 (crossFlush ring seq s) := by
  unfold crossFlush
  try dsimp only
  repeat' (first
    | (with_reducible assumption) | exact hw.of rfl | (with_reducible apply crossGo_keeps)
    | (with_reducible apply withHif_keeps) | split)

theorem execCommandComplete_keeps {tch : List Field} {s0 : State} (ring : Nat) (seq : Nat) (s : State)
    (hs : Keeps tch s0 s)
    (hw : Within [.link, .hub, .hfifo, .msix, .sync, .counted, .mem, .stack, .pool, .tier, .xlt, .cdie, .hif, .disp,
    .rna, .pwr, .tile, .free] tch := by exact Within.of (by assumption) rfl) :
    OnNext (Keeps tch s0) (execCommandComplete ring seq s) := by
  unfold execCommandComplete
  try dsimp only
  repeat' (first
    | (with_reducible assumption) | exact hw.of rfl | (with_reducible apply undefineRegions_keeps)
    | (with_reducible apply restoreRegions_keeps) | (with_reducible apply freeStopped_keeps)
    | (with_reducible apply undefineClash_keeps) | (with_reducible apply liftBlocks_keeps)
    | (with_reducible apply withDisp_keeps) | (with_reducible apply signals_keeps)
    | (with_reducible apply post_keeps) | (with_reducible apply crossFlush_keeps)
    | (with_reducible apply State.updCmd_keeps) | (with_reducible apply leaveQual_keeps)
    | (with_reducible apply promoteRing_keeps) | (with_reducible apply OnNext.next)
    | (with_reducible apply OnNext.fault) | split)

theorem execCrossPathFlushDone_keeps {tch : List Field} {s0 : State} (ring : Nat) (seq : Nat) (s : State)
    (hs : Keeps tch s0 s)
    (hw : Within [.disp] tch := by exact Within.of (by assumption) rfl) :
    OnNext (Keeps tch s0) (execCrossPathFlushDone ring seq s) := by
  unfold execCrossPathFlushDone
  try dsimp only
  repeat' (first
    | (with_reducible assumption) | exact hw.of rfl | (with_reducible apply State.updCmd_keeps)
    | (with_reducible apply OnNext.next) | (with_reducible apply OnNext.fault) | split)

theorem msixNow_keeps {tch : List Field} {s0 : State} (fn : Nat) (v : Nat) (s : State) (hs : Keeps tch s0 s)
    (hw : Within [.msix, .hif] tch := by exact Within.of (by assumption) rfl) :
    Keeps tch s0 (msixNow fn v s) := by
  unfold msixNow
  try dsimp only
  repeat' (first
    | (with_reducible assumption) | exact hw.of rfl | (with_reducible apply msixFire_keeps)
    | (with_reducible apply State.updVec_keeps) | split)

theorem recordSignal_keeps {tch : List Field} {s0 : State} (c : Cmd) (s : State) (hs : Keeps tch s0 s)
    (hw : Within [.msix, .cdie, .hif] tch := by exact Within.of (by assumption) rfl) :
    Keeps tch s0 (recordSignal c s) := by
  unfold recordSignal
  try dsimp only
  repeat' (first
    | (with_reducible assumption) | exact hw.of rfl | (with_reducible apply routerEvent_keeps)
    | (with_reducible apply State.updSrc_keeps) | (with_reducible apply msixNow_keeps)
    | (with_reducible apply msixGather_keeps) | split)

theorem recordTlp_keeps {tch : List Field} {s0 : State} (c : Cmd) (s : State) (hs : Keeps tch s0 s)
    (hw : Within [.msix, .cdie, .hif, .disp] tch := by exact Within.of (by assumption) rfl) :
    Keeps tch s0 (recordTlp c s) := by
  unfold recordTlp
  try dsimp only
  repeat' (first
    | (with_reducible assumption) | exact hw.of rfl | (with_reducible apply State.updRing_keeps)
    | (with_reducible apply State.updCmd_keeps) | (with_reducible apply recordSignal_keeps)
    | (with_reducible apply State.tlp_keeps) | split)

theorem execRecordWrite_keeps {tch : List Field} {s0 : State} (ring : Nat) (s : State) (hs : Keeps tch s0 s)
    (hw : Within [.hfifo, .msix, .mem, .stack, .pool, .tier, .cdie, .hif,
    .disp] tch := by exact Within.of (by assumption) rfl) :
    OnNext (Keeps tch s0) (execRecordWrite ring s) := by
  unfold execRecordWrite
  try dsimp only
  repeat' (first
    | (with_reducible assumption) | exact hw.of rfl | (with_reducible apply cohWrite_keeps)
    | (with_reducible apply State.updRing_keeps) | (with_reducible apply recordSignal_keeps)
    | (with_reducible apply withDisp_keeps) | (with_reducible apply State.updCmd_keeps)
    | (with_reducible apply recordTlp_keeps) | (with_reducible apply OnNext.next)
    | (with_reducible apply OnNext.fault) | split)

theorem execCtxRstatRead_keeps {tch : List Field} {s0 : State} (who : Agent) (ring : Nat) (s : State)
    (hs : Keeps tch s0 s)
    (hw : Within [.disp, .replies] tch := by exact Within.of (by assumption) rfl) :
    OnNext (Keeps tch s0) (execCtxRstatRead who ring s) := by
  unfold execCtxRstatRead
  try dsimp only
  repeat' (first
    | (with_reducible assumption) | exact hw.of rfl | (with_reducible apply State.updRing_keeps)
    | (with_reducible apply reply_keeps) | (with_reducible apply shutRead_keeps) | (with_reducible apply OnNext.next)
    | (with_reducible apply OnNext.fault) | split)

theorem ringWrite_keeps {tch : List Field} {s0 : State} (who : Agent) (ring : Nat) (off : Nat)
    (k : State → State) (s : State) (hs : Keeps tch s0 s) (hk : ∀ u, Keeps tch s0 u → Keeps tch s0 (k u))
    (hw : Within [.hfifo, .msix, .cdie, .hif] tch := by exact Within.of (by assumption) rfl) :
    Keeps tch s0 (ringWrite who ring off k s) := by
  unfold ringWrite
  try dsimp only
  repeat' (first
    | (with_reducible assumption) | exact hw.of rfl | (with_reducible apply setupRefused_keeps)
    | (with_reducible apply hk) | split | (intro _; intros; try dsimp only))

theorem execRingEnable_keeps {tch : List Field} {s0 : State} (who : Agent) (ring : Nat) (s : State)
    (hs : Keeps tch s0 s)
    (hw : Within [.hfifo, .msix, .mem, .stack, .pool, .tier, .cdie, .hif, .disp,
    .regs] tch := by exact Within.of (by assumption) rfl) :
    OnNext (Keeps tch s0) (execRingEnable who ring s) := by
  unfold execRingEnable
  try dsimp only
  repeat' (first
    | (with_reducible assumption) | exact hw.of rfl | (with_reducible apply ringWrite_keeps)
    | (with_reducible apply setupRefused_keeps) | (with_reducible apply State.setReg_keeps)
    | (with_reducible apply withDisp_keeps) | (with_reducible apply cohWrite_keeps)
    | (with_reducible apply OnNext.next) | (with_reducible apply OnNext.fault) | split
    | (intro _; intros; try dsimp only))

theorem stopFetch_keeps {tch : List Field} {s0 : State} (r : Nat) (s : State) (hs : Keeps tch s0 s)
    (hw : Within [.xlt, .hif, .disp] tch := by exact Within.of (by assumption) rfl) :
    Keeps tch s0 (stopFetch r s) := by
  unfold stopFetch
  try dsimp only
  repeat' (first
    | (with_reducible assumption) | exact hw.of rfl | (with_reducible apply withDisp_keeps)
    | (with_reducible apply setReads_keeps) | (with_reducible apply State.updRing_keeps)
    | (with_reducible apply dropWaits_keeps) | split)

theorem execRingDisable_keeps {tch : List Field} {s0 : State} (who : Agent) (ring : Nat) (s : State)
    (hs : Keeps tch s0 s)
    (hw : Within [.hfifo, .msix, .xlt, .cdie, .hif, .disp, .regs] tch := by exact Within.of (by assumption) rfl) :
    OnNext (Keeps tch s0) (execRingDisable who ring s) := by
  unfold execRingDisable
  try dsimp only
  repeat' (first
    | (with_reducible assumption) | exact hw.of rfl | (with_reducible apply ringWrite_keeps)
    | (with_reducible apply stopFetch_keeps) | (with_reducible apply State.setReg_keeps)
    | (with_reducible apply OnNext.next) | (with_reducible apply OnNext.fault) | split
    | (intro _; intros; try dsimp only))

theorem execCtxRctlReset_keeps {tch : List Field} {s0 : State} (who : Agent) (ring : Nat) (s : State)
    (hs : Keeps tch s0 s)
    (hw : Within [.hfifo, .msix, .cdie, .hif, .disp] tch := by exact Within.of (by assumption) rfl) :
    OnNext (Keeps tch s0) (execCtxRctlReset who ring s) := by
  unfold execCtxRctlReset
  try dsimp only
  repeat' (first
    | (with_reducible assumption) | exact hw.of rfl | (with_reducible apply ringWrite_keeps)
    | (with_reducible apply withDisp_keeps) | (with_reducible apply State.updRing_keeps)
    | (with_reducible apply OnNext.next) | (with_reducible apply OnNext.fault) | split
    | (intro _; intros; try dsimp only))

theorem execCtxCfgWrite_keeps {tch : List Field} {s0 : State} (who : Agent) (ctx : Nat) (v : Word)
    (s : State) (hs : Keeps tch s0 s)
    (hw : Within [.hfifo, .msix, .cdie, .hif, .regs] tch := by exact Within.of (by assumption) rfl) :
    OnNext (Keeps tch s0) (execCtxCfgWrite who ctx v s) := by
  unfold execCtxCfgWrite
  try dsimp only
  repeat' (first
    | (with_reducible assumption) | exact hw.of rfl | (with_reducible apply pfWrite_keeps)
    | (with_reducible apply setupRefused_keeps) | (with_reducible apply State.setReg_keeps)
    | (with_reducible apply OnNext.next) | (with_reducible apply OnNext.fault) | split
    | (intro _; intros; try dsimp only))

theorem execMsixEvent_keeps {tch : List Field} {s0 : State} (fn : Nat) (vec : Nat) (s : State)
    (hs : Keeps tch s0 s)
    (hw : Within [.msix, .hif] tch := by exact Within.of (by assumption) rfl) :
    OnNext (Keeps tch s0) (execMsixEvent fn vec s) := by
  unfold execMsixEvent
  try dsimp only
  repeat' (first
    | (with_reducible assumption) | exact hw.of rfl | (with_reducible apply msixGather_keeps)
    | (with_reducible apply OnNext.next) | (with_reducible apply OnNext.fault) | split)

theorem execMsixTimeExpiry_keeps {tch : List Field} {s0 : State} (fn : Nat) (vec : Nat) (s : State)
    (hs : Keeps tch s0 s)
    (hw : Within [.msix, .hif] tch := by exact Within.of (by assumption) rfl) :
    OnNext (Keeps tch s0) (execMsixTimeExpiry fn vec s) := by
  unfold execMsixTimeExpiry
  try dsimp only
  repeat' (first
    | (with_reducible assumption) | exact hw.of rfl | (with_reducible apply msixFire_keeps)
    | (with_reducible apply OnNext.next) | (with_reducible apply OnNext.fault) | split)

theorem execMsixUnmask_keeps {tch : List Field} {s0 : State} (fn : Nat) (vec : Nat) (s : State)
    (hs : Keeps tch s0 s)
    (hw : Within [.msix, .hif] tch := by exact Within.of (by assumption) rfl) :
    OnNext (Keeps tch s0) (execMsixUnmask fn vec s) := by
  unfold execMsixUnmask
  try dsimp only
  repeat' (first
    | (with_reducible assumption) | exact hw.of rfl | (with_reducible apply State.updVec_keeps)
    | (with_reducible apply msixFire_keeps) | (with_reducible apply OnNext.next)
    | (with_reducible apply OnNext.fault) | split)

theorem resetTile_keeps {tch : List Field} {s0 : State} (pos : Nat) (s : State) (hs : Keeps tch s0 s)
    (hw : Within [.glb, .link, .hub, .hfifo, .msix, .sync, .cdie, .hif, .pwr,
    .tile] tch := by exact Within.of (by assumption) rfl) :
    Keeps tch s0 (resetTile pos s) := by
  unfold resetTile
  try dsimp only
  repeat' (first
    | (with_reducible assumption) | exact hw.of rfl | (with_reducible apply State.updTile_keeps)
    | (with_reducible apply clearTile_keeps) | (with_reducible apply fencePort_keeps) | split)

theorem makeSuspect_keeps {tch : List Field} {s0 : State} (tiles : List Nat) (c : Cmd) (s : State)
    (hs : Keeps tch s0 s)
    (hw : Within [.link, .hub, .hfifo, .msix, .sync, .xlt, .cdie, .hif, .disp,
    .tile] tch := by exact Within.of (by assumption) rfl) :
    Keeps tch s0 (makeSuspect tiles c s) := by
  unfold makeSuspect
  try dsimp only
  repeat' (first
    | (with_reducible assumption) | exact hw.of rfl | (with_reducible apply post_keeps)
    | (with_reducible apply State.updCmd_keeps) | (with_reducible apply stopForReplay_keeps) | split)

theorem suspectRun_keeps {tch : List Field} {s0 : State} (c : Cmd) (s : State) (hs : Keeps tch s0 s)
    (hw : Within [.glb, .link, .hub, .hfifo, .msix, .sync, .mem, .stack, .pool, .tier, .xlt, .cdie, .hif, .disp,
    .pwr, .tile] tch := by exact Within.of (by assumption) rfl) :
    Keeps tch s0 (suspectRun c s) := by
  unfold suspectRun
  try dsimp only
  repeat' (first
    | (with_reducible assumption) | exact hw.of rfl | (with_reducible apply makeSuspect_keeps)
    | (with_reducible apply State.updTile_keeps) | (with_reducible apply resetTile_keeps)
    | (with_reducible apply restoreRegions_keeps) | (with_reducible apply foldl_keeps) | split
    | (intro _; intros; try dsimp only))

theorem stallEnds_keeps {tch : List Field} {s0 : State} (c : Cmd) (reason : Nat) (dva : Nat) (s : State)
    (hs : Keeps tch s0 s)
    (hw : Within [.link, .hub, .sync, .xlt, .disp, .tile, .free] tch := by exact Within.of (by assumption) rfl) :
    Keeps tch s0 (stallEnds c reason dva s) := by
  unfold stallEnds
  try dsimp only
  repeat' (first
    | (with_reducible assumption) | exact hw.of rfl | (with_reducible apply State.draw_keeps)
    | (with_reducible apply endFault_keeps) | (with_reducible refine Keeps.of_snd (by assumption) ?_) | split
    | dsimp only)

theorem runTimeout_keeps {tch : List Field} {s0 : State} (c : Cmd) (s : State) (hs : Keeps tch s0 s)
    (hw : Within [.glb, .link, .hub, .hfifo, .msix, .sync, .mem, .stack, .pool, .tier, .xlt, .cdie, .hif, .disp,
    .pwr, .tile, .free] tch := by exact Within.of (by assumption) rfl) :
    Keeps tch s0 (runTimeout c s) := by
  unfold runTimeout
  try dsimp only
  repeat' (first
    | (with_reducible assumption) | exact hw.of rfl | (with_reducible apply stallEnds_keeps)
    | (with_reducible apply suspectRun_keeps) | split)

theorem execHeadTimeout_keeps {tch : List Field} {s0 : State} (ring : Nat) (seq : Nat) (s : State)
    (hs : Keeps tch s0 s)
    (hw : Within [.glb, .link, .hub, .hfifo, .msix, .sync, .mem, .stack, .pool, .tier, .xlt, .cdie, .hif, .disp,
    .pwr, .tile, .free] tch := by exact Within.of (by assumption) rfl) :
    OnNext (Keeps tch s0) (execHeadTimeout ring seq s) := by
  unfold execHeadTimeout
  try dsimp only
  repeat' (first
    | (with_reducible assumption) | exact hw.of rfl | (with_reducible apply promoteRing_keeps)
    | (with_reducible apply endWith_keeps) | (with_reducible apply runTimeout_keeps)
    | (with_reducible apply stallEnds_keeps) | (with_reducible apply OnNext.next)
    | (with_reducible apply OnNext.fault) | split)

theorem execRunTimeoutSuspect_keeps {tch : List Field} {s0 : State} (ring : Nat) (seq : Nat) (s : State)
    (hs : Keeps tch s0 s)
    (hw : Within [.glb, .link, .hub, .hfifo, .msix, .sync, .mem, .stack, .pool, .tier, .xlt, .cdie, .hif, .disp,
    .pwr, .tile, .free] tch := by exact Within.of (by assumption) rfl) :
    OnNext (Keeps tch s0) (execRunTimeoutSuspect ring seq s) := by
  unfold execRunTimeoutSuspect
  try dsimp only
  repeat' (first
    | (with_reducible assumption) | exact hw.of rfl | (with_reducible apply runTimeout_keeps)
    | (with_reducible apply OnNext.next) | (with_reducible apply OnNext.fault) | split)

theorem execTileResetDone_keeps {tch : List Field} {s0 : State} (pos : Nat) (ok : Bool) (s : State)
    (hs : Keeps tch s0 s)
    (hw : Within [.glb, .repair, .boot, .link, .hub, .hfifo, .msix, .sync, .xlt, .cdie, .hif, .disp, .pwr,
    .tile] tch := by exact Within.of (by assumption) rfl) :
    OnNext (Keeps tch s0) (execTileResetDone pos ok s) := by
  unfold execTileResetDone
  try dsimp only
  repeat' (first
    | (with_reducible assumption) | exact hw.of rfl | (with_reducible apply tileLost_keeps)
    | (with_reducible apply unfence_keeps) | (with_reducible apply State.updTile_keeps)
    | (with_reducible apply OnNext.next) | (with_reducible apply OnNext.fault) | split)

theorem restoreLocals_keeps {tch : List Field} {s0 : State} (c : Cmd) (s : State) (hs : Keeps tch s0 s)
    (hw : Within [.link, .hub, .sync, .disp] tch := by exact Within.of (by assumption) rfl) :
    Keeps tch s0 (restoreLocals c s) := by
  unfold restoreLocals
  try dsimp only
  repeat' (first
    | (with_reducible assumption) | exact hw.of rfl | (with_reducible apply syncSetOp_keeps)
    | (with_reducible apply foldl_keeps) | split | (intro _; intros; try dsimp only))

theorem replayBegin_keeps {tch : List Field} {s0 : State} (c : Cmd) (s : State) (hs : Keeps tch s0 s)
    (hw : Within [.link, .hub, .hfifo, .msix, .sync, .counted, .mem, .stack, .pool, .tier, .xlt, .cdie, .hif, .disp,
    .rna, .tile] tch := by exact Within.of (by assumption) rfl) :
    Keeps tch s0 (replayBegin c s) := by
  unfold replayBegin
  try dsimp only
  repeat' (first
    | (with_reducible assumption) | exact hw.of rfl | (with_reducible apply restoreLocals_keeps)
    | (with_reducible apply restoreRegions_keeps) | (with_reducible apply freeStopped_keeps)
    | (with_reducible apply post_keeps) | (with_reducible apply State.updCmd_keeps)
    | (with_reducible apply liftBlocks_keeps) | split)

theorem suspectQual_keeps {tch : List Field} {s0 : State} (ring : Nat) (seq : Nat) (s : State)
    (hs : Keeps tch s0 s)
    (hw : Within [.disp, .pwr] tch := by exact Within.of (by assumption) rfl) :
    Keeps tch s0 (suspectQual ring seq s) := by
  unfold suspectQual
  try dsimp only
  repeat' (first
    | (with_reducible assumption) | exact hw.of rfl | (with_reducible apply qualVolt_keeps)
    | (with_reducible apply State.updCmd_keeps) | (with_reducible apply leaveQual_keeps)
    | (with_reducible apply foldl_keeps) | split | (intro _; intros; try dsimp only))

theorem execReplayStart_keeps {tch : List Field} {s0 : State} (ring : Nat) (seq : Nat) (s : State)
    (hs : Keeps tch s0 s)
    (hw : Within [.link, .hub, .hfifo, .msix, .sync, .counted, .mem, .stack, .pool, .tier, .xlt, .cdie, .hif, .disp,
    .rna, .pwr, .tile] tch := by exact Within.of (by assumption) rfl) :
    OnNext (Keeps tch s0) (execReplayStart ring seq s) := by
  unfold execReplayStart
  try dsimp only
  repeat' (first
    | (exact placeCmd_keeps _ _ _ (replayBegin_keeps _ _ hs (hw.of rfl)) (hw.of rfl) _ (by assumption))
    | (with_reducible assumption)
    | exact hw.of rfl
    | exact rfl
    | exact Nat.le_refl _
    | exact Nat.le_succ _
    | (with_reducible apply OnNext.next)
    | (with_reducible apply suspectQual_keeps)
    | (with_reducible apply State.updCmd_keeps)
    | (with_reducible apply replayBegin_keeps)
    | (with_reducible apply setReads_keeps)
    | (with_reducible apply endWith_keeps)
    | split
    | (intro _; intros; try dsimp only))

theorem execReplayTimeout_keeps {tch : List Field} {s0 : State} (ring : Nat) (seq : Nat) (s : State)
    (hs : Keeps tch s0 s)
    (hw : Within [.glb, .link, .hub, .hfifo, .msix, .sync, .xlt, .cdie, .hif, .disp, .pwr,
    .tile] tch := by exact Within.of (by assumption) rfl) :
    OnNext (Keeps tch s0) (execReplayTimeout ring seq s) := by
  unfold execReplayTimeout
  try dsimp only
  repeat' (first
    | (with_reducible assumption) | exact hw.of rfl | (with_reducible apply post_keeps)
    | (with_reducible apply endWith_keeps) | (with_reducible apply State.updTile_keeps)
    | (with_reducible apply tileReset_keeps) | (with_reducible apply fencePort_keeps)
    | (with_reducible apply foldl_keeps) | (with_reducible apply OnNext.next) | (with_reducible apply OnNext.fault)
    | split | (intro _; intros; try dsimp only))

theorem execJournalMirrorRebuild_keeps {tch : List Field} {s0 : State} (mirror : Nat) (s : State)
    (hs : Keeps tch s0 s)
    (hw : Within [.disp] tch := by exact Within.of (by assumption) rfl) :
    OnNext (Keeps tch s0) (execJournalMirrorRebuild mirror s) := by
  unfold execJournalMirrorRebuild
  try dsimp only
  repeat' (first
    | (with_reducible assumption) | exact hw.of rfl | (with_reducible apply withDisp_keeps)
    | (with_reducible apply OnNext.next) | (with_reducible apply OnNext.fault) | split)

theorem resetVecs_keeps {tch : List Field} {s0 : State} (fns : List Nat) (s : State) (hs : Keeps tch s0 s)
    (hw : Within [.msix] tch := by exact Within.of (by assumption) rfl) :
    Keeps tch s0 (resetVecs fns s) := by
  unfold resetVecs
  try dsimp only
  repeat' (first
    | (with_reducible assumption) | exact hw.of rfl | (with_reducible apply withMsix_keeps) | split)

theorem linkState_keeps {tch : List Field} {s0 : State} (n : Nat) (s : State) (hs : Keeps tch s0 s)
    (hw : Within [.hif] tch := by exact Within.of (by assumption) rfl) :
    Keeps tch s0 (linkState n s) := by
  unfold linkState
  try dsimp only
  repeat' (first
    | (with_reducible assumption) | exact hw.of rfl | (with_reducible apply withHif_keeps) | split)

theorem execDlDown_keeps {tch : List Field} {s0 : State} (s : State) (hs : Keeps tch s0 s)
    (hw : Within [.link, .hub, .hfifo, .msix, .sync, .mem, .stack, .pool, .tier, .xlt, .cdie, .hif, .sess, .disp,
    .rna, .tile] tch := by exact Within.of (by assumption) rfl) :
    OnNext (Keeps tch s0) (execDlDown s) := by
  unfold execDlDown
  try dsimp only
  repeat' (first
    | (with_reducible assumption) | exact hw.of rfl | (with_reducible apply resetVecs_keeps)
    | (with_reducible apply detach_keeps) | (with_reducible apply linkState_keeps)
    | (with_reducible apply OnNext.next) | (with_reducible apply OnNext.fault) | split)

theorem execHotReset_keeps {tch : List Field} {s0 : State} (s : State) (hs : Keeps tch s0 s)
    (hw : Within [.link, .hub, .hfifo, .msix, .sync, .mem, .stack, .pool, .tier, .xlt, .cdie, .hif, .sess, .disp,
    .rna, .tile] tch := by exact Within.of (by assumption) rfl) :
    OnNext (Keeps tch s0) (execHotReset s) := by
  unfold execHotReset
  try dsimp only
  repeat' (first
    | (with_reducible assumption) | exact hw.of rfl | (with_reducible apply resetVecs_keeps)
    | (with_reducible apply detach_keeps) | (with_reducible apply linkState_keeps)
    | (with_reducible apply OnNext.next) | (with_reducible apply OnNext.fault) | split)

theorem execFlrPf0_keeps {tch : List Field} {s0 : State} (s : State) (hs : Keeps tch s0 s)
    (hw : Within [.link, .hub, .hfifo, .msix, .sync, .mem, .stack, .pool, .tier, .xlt, .cdie, .hif, .sess, .disp,
    .rna, .tile] tch := by exact Within.of (by assumption) rfl) :
    OnNext (Keeps tch s0) (execFlrPf0 s) := by
  unfold execFlrPf0
  try dsimp only
  repeat' (first
    | (with_reducible assumption) | exact hw.of rfl | (with_reducible apply resetVecs_keeps)
    | (with_reducible apply detach_keeps) | (with_reducible apply OnNext.next) | (with_reducible apply OnNext.fault)
    | split)

theorem execFlrVf_keeps {tch : List Field} {s0 : State} (fn : Nat) (s : State) (hs : Keeps tch s0 s)
    (hw : Within [.link, .hub, .hfifo, .msix, .sync, .mem, .stack, .pool, .tier, .xlt, .cdie, .hif, .sess, .disp,
    .rna, .tile] tch := by exact Within.of (by assumption) rfl) :
    OnNext (Keeps tch s0) (execFlrVf fn s) := by
  unfold execFlrVf
  try dsimp only
  repeat' (first
    | (with_reducible assumption) | exact hw.of rfl | (with_reducible apply State.updSess_keeps)
    | (with_reducible apply resetVecs_keeps) | (with_reducible apply detach_keeps)
    | (with_reducible apply OnNext.next) | (with_reducible apply OnNext.fault) | split)

theorem execPerstNAssert_keeps {tch : List Field} {s0 : State} (s : State) (hs : Keeps tch s0 s)
    (hw : Within [.boot, .link, .hub, .hfifo, .msix, .sync, .mem, .stack, .pool, .tier, .xlt, .cdie, .hif, .sess,
    .disp, .rna, .tile] tch := by exact Within.of (by assumption) rfl) :
    OnNext (Keeps tch s0) (execPerstNAssert s) := by
  unfold execPerstNAssert
  try dsimp only
  repeat' (first
    | (with_reducible assumption) | exact hw.of rfl | (with_reducible apply withBoot_keeps)
    | (with_reducible apply resetVecs_keeps) | (with_reducible apply detach_keeps)
    | (with_reducible apply linkState_keeps) | (with_reducible apply OnNext.next)
    | (with_reducible apply OnNext.fault) | split)

theorem execLinkRecoveryEnter_keeps {tch : List Field} {s0 : State} (s : State) (hs : Keeps tch s0 s)
    (hw : Within [.hif] tch := by exact Within.of (by assumption) rfl) :
    OnNext (Keeps tch s0) (execLinkRecoveryEnter s) := by
  unfold execLinkRecoveryEnter
  try dsimp only
  repeat' (first
    | (with_reducible assumption) | exact hw.of rfl | (with_reducible apply linkState_keeps)
    | (with_reducible apply OnNext.next) | (with_reducible apply OnNext.fault) | split)

theorem execLinkL0Return_keeps {tch : List Field} {s0 : State} (speed : Nat) (width : Nat) (flit : Bool)
    (s : State) (hs : Keeps tch s0 s)
    (hw : Within [.link, .hub, .hfifo, .msix, .sync, .mem, .stack, .pool, .tier, .cdie, .hif,
    .disp] tch := by exact Within.of (by assumption) rfl) :
    OnNext (Keeps tch s0) (execLinkL0Return speed width flit s) := by
  unfold execLinkL0Return
  try dsimp only
  repeat' (first
    | (with_reducible assumption) | exact hw.of rfl | (with_reducible apply linkState_keeps)
    | (with_reducible apply hostResume_keeps) | (with_reducible apply withHif_keeps)
    | (with_reducible apply acceptRing_keeps) | (with_reducible apply foldl_keeps)
    | (with_reducible apply OnNext.next) | (with_reducible apply OnNext.fault) | split
    | (intro _; intros; try dsimp only))

theorem tlpDone_keeps {tch : List Field} {s0 : State} (t : HTlp) (s : State) (hs : Keeps tch s0 s)
    (hw : Within [.hif, .disp] tch := by exact Within.of (by assumption) rfl) :
    Keeps tch s0 (tlpDone t s) := by
  unfold tlpDone
  try dsimp only
  repeat' (first
    | (with_reducible assumption) | exact hw.of rfl | (with_reducible apply withDisp_keeps)
    | (with_reducible apply updStaged_keeps) | (with_reducible apply withHif_keeps) | split)

theorem execTlpAcked_keeps {tch : List Field} {s0 : State} (s : State) (hs : Keeps tch s0 s)
    (hw : Within [.hif, .disp] tch := by exact Within.of (by assumption) rfl) :
    OnNext (Keeps tch s0) (execTlpAcked s) := by
  unfold execTlpAcked
  try dsimp only
  repeat' (first
    | (with_reducible assumption) | exact hw.of rfl | (with_reducible apply tlpDone_keeps)
    | (with_reducible apply withHif_keeps) | (with_reducible apply OnNext.next) | (with_reducible apply OnNext.fault)
    | split)

theorem cmdGot_keeps {tch : List Field} {s0 : State} (ring : Nat) (seq : Nat) (off : Nat) (bus : Nat)
    (data : List Byte) (ok : Bool) (keep : Bool) (s : State) (hs : Keeps tch s0 s)
    (hw : Within [.disp] tch := by exact Within.of (by assumption) rfl) :
    Keeps tch s0 (cmdGot ring seq off bus data ok keep s) := by
  unfold cmdGot
  try dsimp only
  repeat' (first
    | (with_reducible assumption) | exact hw.of rfl | (with_reducible apply State.updCmd_keeps)
    | (with_reducible apply taintCmd_keeps) | split)

theorem execHostReadCompletion_keeps {tch : List Field} {s0 : State} (tag : Nat) (data : List Byte)
    (ok : Bool) (s : State) (hs : Keeps tch s0 s)
    (hw : Within [.link, .hub, .hfifo, .msix, .mem, .stack, .pool, .tier, .xlt, .cdie, .hif,
    .disp] tch := by exact Within.of (by assumption) rfl) :
    OnNext (Keeps tch s0) (execHostReadCompletion tag data ok s) := by
  unfold execHostReadCompletion
  try dsimp only
  repeat' (first
    | (with_reducible assumption) | exact hw.of rfl | (with_reducible apply setReads_keeps)
    | (with_reducible apply respond_keeps) | (with_reducible apply frConsRead_keeps)
    | (with_reducible apply faultLost_keeps) | (with_reducible apply withXlt_keeps)
    | (with_reducible apply crossGo_keeps) | (with_reducible apply cmdGot_keeps)
    | (with_reducible apply State.updRing_keeps) | (with_reducible apply foldl_keeps)
    | (with_reducible apply OnNext.next) | (with_reducible apply OnNext.fault) | split
    | (intro _; intros; try dsimp only))

theorem hostFails_keeps {tch : List Field} {s0 : State} (cause : Nat) (s : State) (hs : Keeps tch s0 s)
    (hw : Within [.glb, .repair, .boot, .link, .hub, .hfifo, .msix, .sync, .mem, .stack, .pool, .tier, .xlt, .cdie,
    .hif, .sess, .disp, .rna, .pwr, .tile] tch := by exact Within.of (by assumption) rfl) :
    Keeps tch s0 (hostFails cause s) := by
  unfold hostFails
  try dsimp only
  repeat' (first
    | (with_reducible assumption) | exact hw.of rfl | (with_reducible apply dieFailed_keeps)
    | (with_reducible apply withHif_keeps) | (with_reducible apply detachFn_keeps)
    | (with_reducible apply foldl_keeps) | split | (intro _; intros; try dsimp only))

theorem execHostDieFailure_keeps {tch : List Field} {s0 : State} (s : State) (hs : Keeps tch s0 s)
    (hw : Within [.glb, .repair, .boot, .link, .hub, .hfifo, .msix, .sync, .mem, .stack, .pool, .tier, .xlt, .cdie,
    .hif, .sess, .disp, .rna, .pwr, .tile] tch := by exact Within.of (by assumption) rfl) :
    OnNext (Keeps tch s0) (execHostDieFailure s) := by
  unfold execHostDieFailure
  try dsimp only
  repeat' (first
    | (with_reducible assumption) | exact hw.of rfl | (with_reducible apply hostFails_keeps)
    | (with_reducible apply OnNext.next) | (with_reducible apply OnNext.fault) | split)

theorem sessCmd_keeps {tch : List Field} {s0 : State} (who : Agent) (fn : Nat) (k : State → State)
    (s : State) (hs : Keeps tch s0 s) (hk : ∀ u, Keeps tch s0 u → Keeps tch s0 (k u))
    (hw : Within [.hfifo, .msix, .cdie, .hif] tch := by exact Within.of (by assumption) rfl) :
    Keeps tch s0 (sessCmd who fn k s) := by
  unfold sessCmd
  try dsimp only
  repeat' (first
    | (with_reducible assumption) | exact hw.of rfl | (with_reducible apply setupRefused_keeps)
    | (with_reducible apply hk) | split | (intro _; intros; try dsimp only))

theorem execOpen_keeps {tch : List Field} {s0 : State} (who : Agent) (fn : Nat) (s : State)
    (hs : Keeps tch s0 s)
    (hw : Within [.hfifo, .msix, .cdie, .hif, .sess, .free] tch := by exact Within.of (by assumption) rfl) :
    OnNext (Keeps tch s0) (execOpen who fn s) := by
  unfold execOpen
  try dsimp only
  repeat' (first
    | (with_reducible assumption) | exact hw.of rfl | (with_reducible apply sessCmd_keeps)
    | (with_reducible apply setupRefused_keeps) | (with_reducible apply State.draw_keeps)
    | (with_reducible apply State.updSess_keeps) | (with_reducible apply OnNext.next)
    | (with_reducible apply OnNext.fault) | (with_reducible refine Keeps.of_snd (by assumption) ?_) | split
    | dsimp only | (intro _; intros; try dsimp only))

theorem execClaim_keeps {tch : List Field} {s0 : State} (who : Agent) (fn : Nat) (s : State)
    (hs : Keeps tch s0 s)
    (hw : Within [.hfifo, .msix, .cdie, .hif, .sess] tch := by exact Within.of (by assumption) rfl) :
    OnNext (Keeps tch s0) (execClaim who fn s) := by
  unfold execClaim
  try dsimp only
  repeat' (first
    | (with_reducible assumption) | exact hw.of rfl | (with_reducible apply sessCmd_keeps)
    | (with_reducible apply setupRefused_keeps) | (with_reducible apply State.updSess_keeps)
    | (with_reducible apply post_keeps) | (with_reducible apply OnNext.next) | (with_reducible apply OnNext.fault)
    | split | (intro _; intros; try dsimp only))

theorem execClaimDone_keeps {tch : List Field} {s0 : State} (fn : Nat) (s : State) (hs : Keeps tch s0 s)
    (hw : Within [.msix, .cdie, .hif, .sess, .disp] tch := by exact Within.of (by assumption) rfl) :
    OnNext (Keeps tch s0) (execClaimDone fn s) := by
  unfold execClaimDone
  try dsimp only
  repeat' (first
    | (with_reducible assumption) | exact hw.of rfl | (with_reducible apply State.updSess_keeps)
    | (with_reducible apply State.tlp_keeps) | (with_reducible apply msixFire_keeps)
    | (with_reducible apply recordTlp_keeps) | (with_reducible apply foldl_keeps)
    | (with_reducible apply OnNext.next) | (with_reducible apply OnNext.fault) | split
    | (intro _; intros; try dsimp only))

theorem execClaimRefusalEnd_keeps {tch : List Field} {s0 : State} (fn : Nat) (s : State) (hs : Keeps tch s0 s)
    (hw : Within [.sess] tch := by exact Within.of (by assumption) rfl) :
    OnNext (Keeps tch s0) (execClaimRefusalEnd fn s) := by
  unfold execClaimRefusalEnd
  try dsimp only
  repeat' (first
    | (with_reducible assumption) | exact hw.of rfl | (with_reducible apply State.updSess_keeps)
    | (with_reducible apply OnNext.next) | (with_reducible apply OnNext.fault) | split)

theorem execRelease_keeps {tch : List Field} {s0 : State} (who : Agent) (fn : Nat) (s : State)
    (hs : Keeps tch s0 s)
    (hw : Within [.link, .hub, .hfifo, .msix, .sync, .xlt, .cdie, .hif, .sess, .disp, .tile,
    .regs] tch := by exact Within.of (by assumption) rfl) :
    OnNext (Keeps tch s0) (execRelease who fn s) := by
  unfold execRelease
  try dsimp only
  repeat' (first
    | (with_reducible assumption) | exact hw.of rfl | (with_reducible apply sessCmd_keeps)
    | (with_reducible apply endSession_keeps) | (with_reducible apply OnNext.next)
    | (with_reducible apply OnNext.fault) | split | (intro _; intros; try dsimp only))

theorem execHoldExpiry_keeps {tch : List Field} {s0 : State} (fn : Nat) (s : State) (hs : Keeps tch s0 s)
    (hw : Within [.link, .hub, .hfifo, .msix, .sync, .xlt, .cdie, .hif, .sess, .disp, .tile,
    .regs] tch := by exact Within.of (by assumption) rfl) :
    OnNext (Keeps tch s0) (execHoldExpiry fn s) := by
  unfold execHoldExpiry
  try dsimp only
  repeat' (first
    | (with_reducible assumption) | exact hw.of rfl | (with_reducible apply endSession_keeps)
    | (with_reducible apply OnNext.next) | (with_reducible apply OnNext.fault) | split)

theorem redelStatus_keeps {tch : List Field} {s0 : State} (fn : Nat) (idx : Nat) (st : Nat) (use : TlpFor)
    (s : State) (hs : Keeps tch s0 s)
    (hw : Within [.hif] tch := by exact Within.of (by assumption) rfl) :
    Keeps tch s0 (redelStatus fn idx st use s) := by
  unfold redelStatus
  try dsimp only
  repeat' (first
    | (with_reducible assumption) | exact hw.of rfl | (with_reducible apply State.tlp_keeps) | split)

theorem redelTlps_keeps {tch : List Field} {s0 : State} (fn : Nat) (idx : Nat) (i : RedelItem) (s : State)
    (hs : Keeps tch s0 s)
    (hw : Within [.hif] tch := by exact Within.of (by assumption) rfl) :
    Keeps tch s0 (redelTlps fn idx i s) := by
  unfold redelTlps
  try dsimp only
  repeat' (first
    | (with_reducible assumption) | exact hw.of rfl | (with_reducible apply updStaged_keeps)
    | (with_reducible apply State.tlp_keeps) | (with_reducible apply foldl_keeps) | split
    | (intro _; intros; try dsimp only))

theorem redelGo_keeps {tch : List Field} {s0 : State} (z1 : Nat) (z2 : Nat) (z3 : State)
    (hs : Keeps tch s0 z3)
    (hw : Within [.hif, .sess] tch := by exact Within.of (by assumption) rfl) :
    Keeps tch s0 (redelGo z1 z2 z3) := by
  induction z1 generalizing z2 z3 with
  | zero => exact hs
  | succ n ih =>
    unfold redelGo
    repeat' (first
      | (with_reducible refine ih _ _ ?_)
      | (with_reducible assumption)
      | exact hw.of rfl
      | exact rfl
      | exact Nat.le_refl _
      | exact Nat.le_succ _
      | (with_reducible apply State.updSess_keeps)
      | (with_reducible apply redelStatus_keeps)
      | (with_reducible apply redelTlps_keeps)
      | split
      | (intro _; intros; try dsimp only))

theorem execRedeliver_keeps {tch : List Field} {s0 : State} (who : Agent) (fn : Nat) (n : Nat)
    (items : List RedelItem) (s : State) (hs : Keeps tch s0 s)
    (hw : Within [.hfifo, .msix, .cdie, .hif, .sess, .regs] tch := by exact Within.of (by assumption) rfl) :
    OnNext (Keeps tch s0) (execRedeliver who fn n items s) := by
  unfold execRedeliver
  try dsimp only
  repeat' (first
    | (with_reducible assumption) | exact hw.of rfl | (with_reducible apply sessCmd_keeps)
    | (with_reducible apply State.setReg_keeps) | (with_reducible apply State.updSess_keeps)
    | (with_reducible apply redelGo_keeps) | (with_reducible apply OnNext.next) | (with_reducible apply OnNext.fault)
    | split | (intro _; intros; try dsimp only))

theorem execRedeliverItemDone_keeps {tch : List Field} {s0 : State} (fn : Nat) (s : State)
    (hs : Keeps tch s0 s)
    (hw : Within [.hif, .sess] tch := by exact Within.of (by assumption) rfl) :
    OnNext (Keeps tch s0) (execRedeliverItemDone fn s) := by
  unfold execRedeliverItemDone
  try dsimp only
  repeat' (first
    | (with_reducible assumption) | exact hw.of rfl | (with_reducible apply redelGo_keeps)
    | (with_reducible apply redelStatus_keeps) | (with_reducible apply State.updSess_keeps)
    | (with_reducible apply OnNext.next) | (with_reducible apply OnNext.fault) | split)

theorem execHifSessctlRead_keeps {tch : List Field} {s0 : State} (who : Agent) (fn : Nat) (s : State)
    (hs : Keeps tch s0 s)
    (hw : Within [.sess, .replies] tch := by exact Within.of (by assumption) rfl) :
    OnNext (Keeps tch s0) (execHifSessctlRead who fn s) := by
  unfold execHifSessctlRead
  try dsimp only
  repeat' (first
    | (with_reducible assumption) | exact hw.of rfl | (with_reducible apply State.updSess_keeps)
    | (with_reducible apply reply_keeps) | (with_reducible apply shutRead_keeps) | (with_reducible apply OnNext.next)
    | (with_reducible apply OnNext.fault) | split)

theorem execHifLinkstatRead_keeps {tch : List Field} {s0 : State} (who : Agent) (s : State)
    (hs : Keeps tch s0 s)
    (hw : Within [.hif, .replies] tch := by exact Within.of (by assumption) rfl) :
    OnNext (Keeps tch s0) (execHifLinkstatRead who s) := by
  unfold execHifLinkstatRead
  try dsimp only
  repeat' (first
    | (with_reducible assumption) | exact hw.of rfl | (with_reducible apply reply_keeps)
    | (with_reducible apply withHif_keeps) | (with_reducible apply shutRead_keeps)
    | (with_reducible apply OnNext.next) | (with_reducible apply OnNext.fault) | split)

end Sys2Proof.Machine
end

