-- ==== Sys2Proof/Laws/KeepsModule.lean ====
section
/-!
SUPPORT. What every operation of core dies, links, start-up, matrix and vector work, warm reset, management, routers and registers keeps (Keeps, Laws/Next.lean):
one law per operation.
-/
namespace Sys2Proof.Machine
set_option Elab.async false

theorem cohAt_keeps {tch : List Field} {s0 : State} (p : Pkt) (e : DramErr) (s : State) (hs : Keeps tch s0 s)
    (hw : Within [.link, .hub, .hfifo, .msix, .mem, .stack, .pool, .tier, .cdie, .hif,
    .disp] tch := by exact Within.of (by assumption) rfl) :
    Keeps tch s0 (cohAt p e s) := by
  unfold cohAt
  try dsimp only
  repeat' (first
    | (with_reducible assumption) | exact hw.of rfl | (with_reducible apply tierStall_keeps)
    | (with_reducible apply redirect_keeps) | (with_reducible apply refuse_keeps)
    | (with_reducible apply cohArrive_keeps) | (with_reducible apply poolArrive_keeps) | split)

theorem cohRow_keeps {tch : List Field} {s0 : State} (p : Pkt) (e : DramErr) (s : State) (hs : Keeps tch s0 s)
    (hw : Within [.link, .hub, .hfifo, .msix, .mem, .stack, .pool, .tier, .cdie, .hif,
    .disp] tch := by exact Within.of (by assumption) rfl) :
    Keeps tch s0 (cohRow p e s) := by
  unfold cohRow
  have g := homeRow_keeps p (cohAt p e) s hs (fun u h => cohAt_keeps _ _ _ h (hw.of rfl)) (hw.of rfl)
  split <;> split <;> first | exact hs | exact g

theorem execRdS_keeps {tch : List Field} {s0 : State} (p : Pkt) (e : DramErr) (s : State)
    (hs : Keeps tch s0 s)
    (hw : Within [.link, .hub, .hfifo, .msix, .mem, .stack, .pool, .tier, .cdie, .hif,
    .disp] tch := by exact Within.of (by assumption) rfl) :
    OnNext (Keeps tch s0) (execRdS p e s) := by
  unfold execRdS
  try dsimp only
  repeat' (first
    | (with_reducible assumption) | exact hw.of rfl | (with_reducible apply cohRow_keeps)
    | (with_reducible apply OnNext.next) | (with_reducible apply OnNext.fault) | split)

theorem execRdX_keeps {tch : List Field} {s0 : State} (p : Pkt) (e : DramErr) (s : State)
    (hs : Keeps tch s0 s)
    (hw : Within [.link, .hub, .hfifo, .msix, .mem, .stack, .pool, .tier, .cdie, .hif,
    .disp] tch := by exact Within.of (by assumption) rfl) :
    OnNext (Keeps tch s0) (execRdX p e s) := by
  unfold execRdX
  try dsimp only
  repeat' (first
    | (with_reducible assumption) | exact hw.of rfl | (with_reducible apply cohRow_keeps)
    | (with_reducible apply OnNext.next) | (with_reducible apply OnNext.fault) | split)

theorem execUpg_keeps {tch : List Field} {s0 : State} (p : Pkt) (e : DramErr) (s : State)
    (hs : Keeps tch s0 s)
    (hw : Within [.link, .hub, .hfifo, .msix, .mem, .stack, .pool, .tier, .cdie, .hif,
    .disp] tch := by exact Within.of (by assumption) rfl) :
    OnNext (Keeps tch s0) (execUpg p e s) := by
  unfold execUpg
  try dsimp only
  repeat' (first
    | (with_reducible assumption) | exact hw.of rfl | (with_reducible apply cohRow_keeps)
    | (with_reducible apply OnNext.next) | (with_reducible apply OnNext.fault) | split)

theorem execZero_keeps {tch : List Field} {s0 : State} (p : Pkt) (s : State) (hs : Keeps tch s0 s)
    (hw : Within [.link, .hub, .hfifo, .msix, .mem, .stack, .pool, .tier, .cdie, .hif,
    .disp] tch := by exact Within.of (by assumption) rfl) :
    OnNext (Keeps tch s0) (execZero p s) := by
  unfold execZero
  try dsimp only
  repeat' (first
    | (with_reducible assumption) | exact hw.of rfl | (with_reducible apply cohRow_keeps)
    | (with_reducible apply OnNext.next) | (with_reducible apply OnNext.fault) | split)

theorem dropLr_keeps {tch : List Field} {s0 : State} (die : Nat) (n : Nat) (s : State) (hs : Keeps tch s0 s)
    (hw : Within [.core] tch := by exact Within.of (by assumption) rfl) :
    Keeps tch s0 (dropLr die n s) := by
  unfold dropLr
  try dsimp only
  repeat' (first
    | (with_reducible assumption) | exact hw.of rfl | (with_reducible apply State.updCore_keeps)
    | (with_reducible apply foldl_keeps) | split | (intro _; intros; try dsimp only))

theorem setCLine_keeps {tch : List Field} {s0 : State} (die : Nat) (n : Nat) (l : Option CLine) (s : State)
    (hs : Keeps tch s0 s)
    (hw : Within [.cdie] tch := by exact Within.of (by assumption) rfl) :
    Keeps tch s0 (setCLine die n l s) := by
  unfold setCLine
  try dsimp only
  repeat' (first
    | (with_reducible assumption) | exact hw.of rfl | (with_reducible apply State.updCdie_keeps) | split)

theorem lineGone_keeps {tch : List Field} {s0 : State} (die : Nat) (n : Nat) (s : State) (hs : Keeps tch s0 s)
    (hw : Within [.core, .cdie] tch := by exact Within.of (by assumption) rfl) :
    Keeps tch s0 (lineGone die n s) := by
  unfold lineGone
  try dsimp only
  repeat' (first
    | (with_reducible assumption) | exact hw.of rfl | (with_reducible apply dropLr_keeps)
    | (with_reducible apply setCLine_keeps) | split)

theorem execEvn_keeps {tch : List Field} {s0 : State} (p : Pkt) (s : State) (hs : Keeps tch s0 s)
    (hw : Within [.link, .hub, .hfifo, .msix, .mem, .stack, .pool, .tier, .core, .cdie, .hif,
    .disp] tch := by exact Within.of (by assumption) rfl) :
    OnNext (Keeps tch s0) (execEvn p s) := by
  unfold execEvn
  try dsimp only
  repeat' (first
    | (with_reducible assumption) | exact hw.of rfl | (with_reducible apply lineGone_keeps)
    | (with_reducible apply cohRow_keeps) | (with_reducible apply OnNext.next) | (with_reducible apply OnNext.fault)
    | split)

theorem snoopReply_keeps {tch : List Field} {s0 : State} (p : Pkt) (l : Option CLine) (s : State)
    (hs : Keeps tch s0 s)
    (hw : Within [.link, .hub] tch := by exact Within.of (by assumption) rfl) :
    Keeps tch s0 (snoopReply p l s) := by
  unfold snoopReply
  try dsimp only
  repeat' (first
    | (with_reducible assumption) | exact hw.of rfl | (with_reducible apply respond_keeps) | split)

theorem snpInvNow_keeps {tch : List Field} {s0 : State} (p : Pkt) (data : List Byte) (s : State)
    (hs : Keeps tch s0 s)
    (hw : Within [.link, .hub, .core, .cdie] tch := by exact Within.of (by assumption) rfl) :
    Keeps tch s0 (snpInvNow p data s) := by
  unfold snpInvNow
  try dsimp only
  repeat' (first
    | (with_reducible assumption) | exact hw.of rfl | (with_reducible apply snoopReply_keeps)
    | (with_reducible apply dropLr_keeps) | (with_reducible apply setCLine_keeps) | split)

theorem snpShrNow_keeps {tch : List Field} {s0 : State} (p : Pkt) (data : List Byte) (s : State)
    (hs : Keeps tch s0 s)
    (hw : Within [.link, .hub, .core, .cdie] tch := by exact Within.of (by assumption) rfl) :
    Keeps tch s0 (snpShrNow p data s) := by
  unfold snpShrNow
  try dsimp only
  repeat' (first
    | (with_reducible assumption) | exact hw.of rfl | (with_reducible apply snoopReply_keeps)
    | (with_reducible apply dropLr_keeps) | (with_reducible apply setCLine_keeps) | split)

theorem snpFwdNow_keeps {tch : List Field} {s0 : State} (p : Pkt) (s : State) (hs : Keeps tch s0 s)
    (hw : Within [.link, .hub, .cdie] tch := by exact Within.of (by assumption) rfl) :
    Keeps tch s0 (snpFwdNow p s) := by
  unfold snpFwdNow
  try dsimp only
  repeat' (first
    | (with_reducible assumption) | exact hw.of rfl | (with_reducible apply respond_keeps)
    | (with_reducible apply send_keeps) | (with_reducible apply setCLine_keeps) | split)

theorem snoopArrive_keeps {tch : List Field} {s0 : State} (p : Pkt) (k : State → State) (s : State)
    (hs : Keeps tch s0 s) (hk : ∀ u, Keeps tch s0 u → Keeps tch s0 (k u))
    (hw : Within [.link, .hub, .cdie] tch := by exact Within.of (by assumption) rfl) :
    Keeps tch s0 (snoopArrive p k s) := by
  unfold snoopArrive
  try dsimp only
  repeat' (first
    | (with_reducible assumption) | exact hw.of rfl | (with_reducible apply arriveReq_keeps)
    | (with_reducible apply State.updCdie_keeps) | (with_reducible apply hk) | split
    | (intro _; intros; try dsimp only))

theorem execSnpInv_keeps {tch : List Field} {s0 : State} (p : Pkt) (data : List Byte) (s : State)
    (hs : Keeps tch s0 s)
    (hw : Within [.link, .hub, .core, .cdie] tch := by exact Within.of (by assumption) rfl) :
    OnNext (Keeps tch s0) (execSnpInv p data s) := by
  unfold execSnpInv
  try dsimp only
  repeat' (first
    | (with_reducible assumption) | exact hw.of rfl | (with_reducible apply snoopArrive_keeps)
    | (with_reducible apply snpInvNow_keeps) | (with_reducible apply OnNext.next)
    | (with_reducible apply OnNext.fault) | split | (intro _; intros; try dsimp only))

theorem execSnpShr_keeps {tch : List Field} {s0 : State} (p : Pkt) (data : List Byte) (s : State)
    (hs : Keeps tch s0 s)
    (hw : Within [.link, .hub, .core, .cdie] tch := by exact Within.of (by assumption) rfl) :
    OnNext (Keeps tch s0) (execSnpShr p data s) := by
  unfold execSnpShr
  try dsimp only
  repeat' (first
    | (with_reducible assumption) | exact hw.of rfl | (with_reducible apply snoopArrive_keeps)
    | (with_reducible apply snpShrNow_keeps) | (with_reducible apply OnNext.next)
    | (with_reducible apply OnNext.fault) | split | (intro _; intros; try dsimp only))

theorem execSnpFwd_keeps {tch : List Field} {s0 : State} (p : Pkt) (s : State) (hs : Keeps tch s0 s)
    (hw : Within [.link, .hub, .cdie] tch := by exact Within.of (by assumption) rfl) :
    OnNext (Keeps tch s0) (execSnpFwd p s) := by
  unfold execSnpFwd
  try dsimp only
  repeat' (first
    | (with_reducible assumption) | exact hw.of rfl | (with_reducible apply snoopArrive_keeps)
    | (with_reducible apply snpFwdNow_keeps) | (with_reducible apply OnNext.next)
    | (with_reducible apply OnNext.fault) | split | (intro _; intros; try dsimp only))

theorem answerDeferred_keeps {tch : List Field} {s0 : State} (die : Nat) (n : Nat) (s : State)
    (hs : Keeps tch s0 s)
    (hw : Within [.link, .hub, .core, .cdie] tch := by exact Within.of (by assumption) rfl) :
    Keeps tch s0 (answerDeferred die n s) := by
  unfold answerDeferred
  try dsimp only
  repeat' (first
    | (with_reducible assumption) | exact hw.of rfl | (with_reducible apply State.updCdie_keeps)
    | (with_reducible apply snpInvNow_keeps) | (with_reducible apply snpShrNow_keeps)
    | (with_reducible apply snpFwdNow_keeps) | (with_reducible apply foldl_keeps) | split
    | (intro _; intros; try dsimp only))

theorem grantArrive_keeps {tch : List Field} {s0 : State} (die : Nat) (msg : Nat) (addr : Nat) (p : Pkt)
    (s : State) (hs : Keeps tch s0 s)
    (hw : Within [.link, .hub, .hfifo, .msix, .core, .cdie, .hif] tch := by exact Within.of (by assumption) rfl) :
    Keeps tch s0 (grantArrive die msg addr p s) := by
  unfold grantArrive
  try dsimp only
  repeat' (first
    | (with_reducible assumption) | exact hw.of rfl | (with_reducible apply evCheckword_keeps)
    | (with_reducible apply answerDeferred_keeps) | (with_reducible apply setCLine_keeps) | split)

theorem retryArrive_keeps {tch : List Field} {s0 : State} (die : Nat) (core : Nat) (msg : Nat) (addr : Nat)
    (ticket : Nat) (s : State) (hs : Keeps tch s0 s)
    (hw : Within [.link, .hub, .core, .cdie] tch := by exact Within.of (by assumption) rfl) :
    Keeps tch s0 (retryArrive die core msg addr ticket s) := by
  unfold retryArrive
  try dsimp only
  repeat' (first
    | (with_reducible assumption) | exact hw.of rfl | (with_reducible apply answerDeferred_keeps)
    | (with_reducible apply State.updCdie_keeps) | split)

theorem execCohResend_keeps {tch : List Field} {s0 : State} (die : Nat) (addr : Nat) (s : State)
    (hs : Keeps tch s0 s)
    (hw : Within [.link, .hub, .cdie] tch := by exact Within.of (by assumption) rfl) :
    OnNext (Keeps tch s0) (execCohResend die addr s) := by
  unfold execCohResend
  try dsimp only
  repeat' (first
    | (with_reducible assumption) | exact hw.of rfl | (with_reducible apply State.updCdie_keeps)
    | (with_reducible apply requestAt_keeps) | (with_reducible apply OnNext.next)
    | (with_reducible apply OnNext.fault) | split)

theorem execCboZero_keeps {tch : List Field} {s0 : State} (core : Nat) (addr : Nat) (s : State)
    (hs : Keeps tch s0 s)
    (hw : Within [.link, .hub, .core, .cdie] tch := by exact Within.of (by assumption) rfl) :
    OnNext (Keeps tch s0) (execCboZero core addr s) := by
  unfold execCboZero
  try dsimp only
  repeat' (first
    | (with_reducible assumption) | exact hw.of rfl | (with_reducible apply coreTrap_keeps)
    | (with_reducible apply setCLine_keeps) | (with_reducible apply requestAt_keeps)
    | (with_reducible apply OnNext.next) | (with_reducible apply OnNext.fault) | split)

theorem execDirtyLineEvict_keeps {tch : List Field} {s0 : State} (die : Nat) (addr : Nat) (data : List Byte)
    (s : State) (hs : Keeps tch s0 s)
    (hw : Within [.link, .hub, .core, .cdie] tch := by exact Within.of (by assumption) rfl) :
    OnNext (Keeps tch s0) (execDirtyLineEvict die addr data s) := by
  unfold execDirtyLineEvict
  try dsimp only
  repeat' (first
    | (with_reducible assumption) | exact hw.of rfl | (with_reducible apply requestAt_keeps)
    | (with_reducible apply dropLr_keeps) | (with_reducible apply setCLine_keeps)
    | (with_reducible apply OnNext.next) | (with_reducible apply OnNext.fault) | split)

theorem evictDone_keeps {tch : List Field} {s0 : State} (die : Nat) (n : Nat) (s : State)
    (hs : Keeps tch s0 s)
    (hw : Within [.cdie] tch := by exact Within.of (by assumption) rfl) :
    Keeps tch s0 (evictDone die n s) := by
  unfold evictDone
  try dsimp only
  repeat' (first
    | (with_reducible assumption) | exact hw.of rfl | (with_reducible apply setCLine_keeps) | split)

theorem execCfence_keeps {tch : List Field} {s0 : State} (core : Nat) (s : State) (hs : Keeps tch s0 s)
    (hw : Within [.core] tch := by exact Within.of (by assumption) rfl) :
    OnNext (Keeps tch s0) (execCfence core s) := by
  unfold execCfence
  try dsimp only
  repeat' (first
    | (with_reducible assumption) | exact hw.of rfl | (with_reducible apply State.updCore_keeps)
    | (with_reducible apply OnNext.next) | (with_reducible apply OnNext.fault) | split)

theorem execCfenceComplete_keeps {tch : List Field} {s0 : State} (core : Nat) (s : State)
    (hs : Keeps tch s0 s)
    (hw : Within [.core] tch := by exact Within.of (by assumption) rfl) :
    OnNext (Keeps tch s0) (execCfenceComplete core s) := by
  unfold execCfenceComplete
  try dsimp only
  repeat' (first
    | (with_reducible assumption) | exact hw.of rfl | (with_reducible apply State.updCore_keeps)
    | (with_reducible apply OnNext.next) | (with_reducible apply OnNext.fault) | split)

theorem serrRecord_keeps {tch : List Field} {s0 : State} (core : Nat) (bit : Nat) (addr : Nat)
    (reason : Nat) (s : State) (hs : Keeps tch s0 s)
    (hw : Within [.core] tch := by exact Within.of (by assumption) rfl) :
    Keeps tch s0 (serrRecord core bit addr reason s) := by
  unfold serrRecord
  try dsimp only
  repeat' (first
    | (with_reducible assumption) | exact hw.of rfl | (with_reducible apply State.updCore_keeps) | split)

theorem execCoreIoStoreError_keeps {tch : List Field} {s0 : State} (core : Nat) (addr : Nat) (reason : Nat)
    (s : State) (hs : Keeps tch s0 s)
    (hw : Within [.core] tch := by exact Within.of (by assumption) rfl) :
    OnNext (Keeps tch s0) (execCoreIoStoreError core addr reason s) := by
  unfold execCoreIoStoreError
  try dsimp only
  repeat' (first
    | (with_reducible assumption) | exact hw.of rfl | (with_reducible apply serrRecord_keeps)
    | (with_reducible apply OnNext.next) | (with_reducible apply OnNext.fault) | split)

theorem execCoreIoLoadPoison_keeps {tch : List Field} {s0 : State} (core : Nat) (addr : Nat) (reason : Nat)
    (s : State) (hs : Keeps tch s0 s)
    (hw : Within [.core, .replies] tch := by exact Within.of (by assumption) rfl) :
    OnNext (Keeps tch s0) (execCoreIoLoadPoison core addr reason s) := by
  unfold execCoreIoLoadPoison
  try dsimp only
  repeat' (first
    | (with_reducible assumption) | exact hw.of rfl | (with_reducible apply reply_keeps)
    | (with_reducible apply serrRecord_keeps) | (with_reducible apply OnNext.next)
    | (with_reducible apply OnNext.fault) | split)

theorem execPoisonException_keeps {tch : List Field} {s0 : State} (core : Nat) (addr : Nat) (s : State)
    (hs : Keeps tch s0 s)
    (hw : Within [.core] tch := by exact Within.of (by assumption) rfl) :
    OnNext (Keeps tch s0) (execPoisonException core addr s) := by
  unfold execPoisonException
  try dsimp only
  repeat' (first
    | (with_reducible assumption) | exact hw.of rfl | (with_reducible apply coreTrap_keeps)
    | (with_reducible apply OnNext.next) | (with_reducible apply OnNext.fault) | split)

theorem execSerrstatClear_keeps {tch : List Field} {s0 : State} (core : Nat) (mask : Word) (s : State)
    (hs : Keeps tch s0 s)
    (hw : Within [.core] tch := by exact Within.of (by assumption) rfl) :
    OnNext (Keeps tch s0) (execSerrstatClear core mask s) := by
  unfold execSerrstatClear
  try dsimp only
  repeat' (first
    | (with_reducible assumption) | exact hw.of rfl | (with_reducible apply State.updCore_keeps)
    | (with_reducible apply OnNext.next) | (with_reducible apply OnNext.fault) | split)

theorem execCacheParityError_keeps {tch : List Field} {s0 : State} (core : Nat) (addr : Nat) (instr : Bool)
    (s : State) (hs : Keeps tch s0 s)
    (hw : Within [.core] tch := by exact Within.of (by assumption) rfl) :
    OnNext (Keeps tch s0) (execCacheParityError core addr instr s) := by
  unfold execCacheParityError
  try dsimp only
  repeat' (first
    | (with_reducible assumption) | exact hw.of rfl | (with_reducible apply State.updCore_keeps)
    | (with_reducible apply OnNext.next) | (with_reducible apply OnNext.fault) | split)

theorem execCacheDataError_keeps {tch : List Field} {s0 : State} (die : Nat) (addr : Nat)
    (correctable : Bool) (s : State) (hs : Keeps tch s0 s)
    (hw : Within [.link, .hub, .core, .cdie] tch := by exact Within.of (by assumption) rfl) :
    OnNext (Keeps tch s0) (execCacheDataError die addr correctable s) := by
  unfold execCacheDataError
  try dsimp only
  repeat' (first
    | (with_reducible assumption) | exact hw.of rfl | (with_reducible apply setCLine_keeps)
    | (with_reducible apply requestAt_keeps) | (with_reducible apply dropLr_keeps)
    | (with_reducible apply OnNext.next) | (with_reducible apply OnNext.fault) | split)

theorem machineCheck_keeps {tch : List Field} {s0 : State} (die : Nat) (core : Option Nat) (cause : Nat)
    (s : State) (hs : Keeps tch s0 s)
    (hw : Within [.glb, .repair, .link, .hub, .hfifo, .msix, .sync, .core, .cdie, .hif,
    .pwr] tch := by exact Within.of (by assumption) rfl) :
    Keeps tch s0 (machineCheck die core cause s) := by
  unfold machineCheck
  try dsimp only
  repeat' (first
    | (with_reducible assumption) | exact hw.of rfl | (with_reducible apply withRepair_keeps)
    | (with_reducible apply State.updCore_keeps) | (with_reducible apply post_keeps)
    | (with_reducible apply fencePort_keeps) | (with_reducible apply State.updCdie_keeps) | split)

theorem execCacheTagError_keeps {tch : List Field} {s0 : State} (die : Nat) (addr : Nat) (s : State)
    (hs : Keeps tch s0 s)
    (hw : Within [.glb, .repair, .link, .hub, .hfifo, .msix, .sync, .core, .cdie, .hif,
    .pwr] tch := by exact Within.of (by assumption) rfl) :
    OnNext (Keeps tch s0) (execCacheTagError die addr s) := by
  unfold execCacheTagError
  try dsimp only
  repeat' (first
    | (with_reducible assumption) | exact hw.of rfl | (with_reducible apply machineCheck_keeps)
    | (with_reducible apply dropLr_keeps) | (with_reducible apply setCLine_keeps)
    | (with_reducible apply OnNext.next) | (with_reducible apply OnNext.fault) | split)

theorem execCoreDieMachineCheck_keeps {tch : List Field} {s0 : State} (die : Nat) (core : Option Nat)
    (s : State) (hs : Keeps tch s0 s)
    (hw : Within [.glb, .repair, .link, .hub, .hfifo, .msix, .sync, .core, .cdie, .hif,
    .pwr] tch := by exact Within.of (by assumption) rfl) :
    OnNext (Keeps tch s0) (execCoreDieMachineCheck die core s) := by
  unfold execCoreDieMachineCheck
  try dsimp only
  repeat' (first
    | (with_reducible assumption) | exact hw.of rfl | (with_reducible apply machineCheck_keeps)
    | (with_reducible apply OnNext.next) | (with_reducible apply OnNext.fault) | split)

theorem homeLoses_keeps {tch : List Field} {s0 : State} (die : Nat) (h : Nat) (s : State)
    (hs : Keeps tch s0 s)
    (hw : Within [.hfifo, .msix, .mem, .stack, .pool, .tier, .cdie,
    .hif] tch := by exact Within.of (by assumption) rfl) :
    Keeps tch s0 (homeLoses die h s) := by
  unfold homeLoses
  try dsimp only
  repeat' (first
    | (with_reducible assumption) | exact hw.of rfl | (with_reducible apply storeSector_keeps)
    | (with_reducible apply post_keeps) | (with_reducible apply releaseLine_keeps)
    | (with_reducible apply State.updHome_keeps) | (with_reducible apply foldl_keeps) | split
    | (intro _; intros; try dsimp only))

theorem execCoreDiePoisonDone_keeps {tch : List Field} {s0 : State} (die : Nat) (s : State)
    (hs : Keeps tch s0 s)
    (hw : Within [.hfifo, .msix, .mem, .stack, .pool, .tier, .cdie,
    .hif] tch := by exact Within.of (by assumption) rfl) :
    OnNext (Keeps tch s0) (execCoreDiePoisonDone die s) := by
  unfold execCoreDiePoisonDone
  try dsimp only
  repeat' (first
    | (with_reducible assumption) | exact hw.of rfl | (with_reducible apply State.updCdie_keeps)
    | (with_reducible apply homeLoses_keeps) | (with_reducible apply foldl_keeps)
    | (with_reducible apply OnNext.next) | (with_reducible apply OnNext.fault) | split
    | (intro _; intros; try dsimp only))

theorem execCoreDieResetDone_keeps {tch : List Field} {s0 : State} (die : Nat) (s : State)
    (hs : Keeps tch s0 s)
    (hw : Within [.core, .cdie, .regs] tch := by exact Within.of (by assumption) rfl) :
    OnNext (Keeps tch s0) (execCoreDieResetDone die s) := by
  unfold execCoreDieResetDone
  try dsimp only
  repeat' (first
    | (with_reducible assumption) | exact hw.of rfl | (with_reducible apply State.updCdie_keeps)
    | (with_reducible apply resetCoreDie_keeps) | (with_reducible apply OnNext.next)
    | (with_reducible apply OnNext.fault) | split)

theorem execCoreDieRecoveryDone_keeps {tch : List Field} {s0 : State} (die : Nat) (ok : Bool) (s : State)
    (hs : Keeps tch s0 s)
    (hw : Within [.glb, .repair, .boot, .link, .hub, .hfifo, .msix, .sync, .xlt, .cdie, .hif, .disp, .pwr,
    .tile] tch := by exact Within.of (by assumption) rfl) :
    OnNext (Keeps tch s0) (execCoreDieRecoveryDone die ok s) := by
  unfold execCoreDieRecoveryDone
  try dsimp only
  repeat' (first
    | (with_reducible assumption) | exact hw.of rfl | (with_reducible apply unfence_keeps)
    | (with_reducible apply State.updCdie_keeps) | (with_reducible apply post_keeps)
    | (with_reducible apply dieFailed_keeps) | (with_reducible apply foldl_keeps)
    | (with_reducible apply OnNext.next) | (with_reducible apply OnNext.fault) | split
    | (intro _; intros; try dsimp only))

theorem execLinkAck_keeps {tch : List Field} {s0 : State} (port : Nat) (side : Side) (seq : Nat) (s : State)
    (hs : Keeps tch s0 s)
    (hw : Within [.link, .hub] tch := by exact Within.of (by assumption) rfl) :
    OnNext (Keeps tch s0) (execLinkAck port side seq s) := by
  unfold execLinkAck
  try dsimp only
  repeat' (first
    | (with_reducible assumption) | exact hw.of rfl | (with_reducible apply linkGo_keeps)
    | (with_reducible apply State.updLink_keeps) | (with_reducible apply OnNext.next)
    | (with_reducible apply OnNext.fault) | split)

theorem linkDown_keeps {tch : List Field} {s0 : State} (port : Nat) (s : State) (hs : Keeps tch s0 s)
    (hw : Within [.link] tch := by exact Within.of (by assumption) rfl) :
    Keeps tch s0 (linkDown port s) := by
  unfold linkDown
  try dsimp only
  repeat' (first
    | (with_reducible assumption) | exact hw.of rfl | (with_reducible apply State.updLink_keeps) | split)

theorem resend_keeps {tch : List Field} {s0 : State} (port : Nat) (side : Side) (s : State)
    (hs : Keeps tch s0 s)
    (hw : Within [.link] tch := by exact Within.of (by assumption) rfl) :
    Keeps tch s0 (resend port side s) := by
  unfold resend
  try dsimp only
  repeat' (first
    | (with_reducible assumption) | exact hw.of rfl | (with_reducible apply State.updLink_keeps)
    | (with_reducible apply linkDown_keeps) | split)

theorem execLinkNak_keeps {tch : List Field} {s0 : State} (port : Nat) (side : Side) (s : State)
    (hs : Keeps tch s0 s)
    (hw : Within [.link] tch := by exact Within.of (by assumption) rfl) :
    OnNext (Keeps tch s0) (execLinkNak port side s) := by
  unfold execLinkNak
  try dsimp only
  repeat' (first
    | (with_reducible assumption) | exact hw.of rfl | (with_reducible apply resend_keeps)
    | (with_reducible apply State.updLink_keeps) | (with_reducible apply OnNext.next)
    | (with_reducible apply OnNext.fault) | split)

theorem execAckOverdue_keeps {tch : List Field} {s0 : State} (port : Nat) (side : Side) (s : State)
    (hs : Keeps tch s0 s)
    (hw : Within [.link] tch := by exact Within.of (by assumption) rfl) :
    OnNext (Keeps tch s0) (execAckOverdue port side s) := by
  unfold execAckOverdue
  try dsimp only
  repeat' (first
    | (with_reducible assumption) | exact hw.of rfl | (with_reducible apply resend_keeps)
    | (with_reducible apply OnNext.next) | (with_reducible apply OnNext.fault) | split)

theorem execCreditReturn_keeps {tch : List Field} {s0 : State} (port : Nat) (side : Side) (dst : Nat)
    (vc : Nat) (n : Nat) (s : State) (hs : Keeps tch s0 s)
    (hw : Within [.link, .hub] tch := by exact Within.of (by assumption) rfl) :
    OnNext (Keeps tch s0) (execCreditReturn port side dst vc n s) := by
  unfold execCreditReturn
  try dsimp only
  repeat' (first
    | (with_reducible assumption) | exact hw.of rfl | (with_reducible apply linkGo_keeps)
    | (with_reducible apply State.updLink_keeps) | (with_reducible apply OnNext.next)
    | (with_reducible apply OnNext.fault) | split)

theorem execHeartbeat_keeps {tch : List Field} {s0 : State} (port : Nat) (side : Side) (s : State)
    (hs : Keeps tch s0 s)
    (hw : Within [.link] tch := by exact Within.of (by assumption) rfl) :
    OnNext (Keeps tch s0) (execHeartbeat port side s) := by
  unfold execHeartbeat
  try dsimp only
  repeat' (first
    | (with_reducible assumption) | exact hw.of rfl | (with_reducible apply State.updLink_keeps)
    | (with_reducible apply OnNext.next) | (with_reducible apply OnNext.fault) | split)

theorem execHeartbeatSend_keeps {tch : List Field} {s0 : State} (port : Nat) (side : Side) (s : State)
    (hs : Keeps tch s0 s)
    (hw : Within [.link] tch := by exact Within.of (by assumption) rfl) :
    OnNext (Keeps tch s0) (execHeartbeatSend port side s) := by
  unfold execHeartbeatSend
  try dsimp only
  repeat' (first
    | (with_reducible assumption) | exact hw.of rfl | (with_reducible apply State.updLink_keeps)
    | (with_reducible apply OnNext.next) | (with_reducible apply OnNext.fault) | split)

theorem newEpoch_keeps {tch : List Field} {s0 : State} (port : Nat) (s : State) (hs : Keeps tch s0 s)
    (hw : Within [.link] tch := by exact Within.of (by assumption) rfl) :
    Keeps tch s0 (newEpoch port s) := by
  unfold newEpoch
  try dsimp only
  repeat' (first
    | (with_reducible assumption) | exact hw.of rfl | (with_reducible apply State.updLink_keeps) | split)

theorem execEpochChange_keeps {tch : List Field} {s0 : State} (port : Nat) (s : State) (hs : Keeps tch s0 s)
    (hw : Within [.link, .hub] tch := by exact Within.of (by assumption) rfl) :
    OnNext (Keeps tch s0) (execEpochChange port s) := by
  unfold execEpochChange
  try dsimp only
  repeat' (first
    | (with_reducible assumption) | exact hw.of rfl | (with_reducible apply linkGo_keeps)
    | (with_reducible apply newEpoch_keeps) | (with_reducible apply OnNext.next)
    | (with_reducible apply OnNext.fault) | split)

theorem failDie_keeps {tch : List Field} {s0 : State} (port : Nat) (cause : Nat) (s : State)
    (hs : Keeps tch s0 s)
    (hw : Within [.glb, .repair, .boot, .ivory, .link, .hub, .hfifo, .msix, .sync, .counted, .mem, .stack, .pool,
    .tier, .xlt, .cdie, .hif, .sess, .disp, .rna, .pwr, .tile] tch := by exact Within.of (by assumption) rfl) :
    Keeps tch s0 (failDie port cause s) := by
  unfold failDie
  try dsimp only
  repeat' (first
    | (with_reducible assumption) | exact hw.of rfl | (with_reducible apply tileLost_keeps)
    | (with_reducible apply failStack_keeps) | (with_reducible apply dieFailed_keeps)
    | (with_reducible apply poolLost_keeps) | (with_reducible apply State.updCdie_keeps)
    | (with_reducible apply hostFails_keeps) | (with_reducible apply ranoaFails_keeps)
    | (with_reducible apply tierFails_keeps) | (with_reducible apply endService_keeps)
    | (with_reducible apply withBoot_keeps) | split)

theorem startRecovery_keeps {tch : List Field} {s0 : State} (port : Nat) (cause : Nat) (s : State)
    (hs : Keeps tch s0 s)
    (hw : Within [.glb, .repair, .boot, .ivory, .link, .hub, .hfifo, .msix, .sync, .counted, .mem, .stack, .pool,
    .tier, .xlt, .core, .cdie, .hif, .sess, .disp, .rna, .pwr, .tile] tch := by exact Within.of (by assumption) rfl) :
    Keeps tch s0 (startRecovery port cause s) := by
  unfold startRecovery
  try dsimp only
  repeat' (first
    | (with_reducible assumption) | exact hw.of rfl | (with_reducible apply tileReset_keeps)
    | (with_reducible apply stackDown_keeps) | (with_reducible apply poolDown_keeps)
    | (with_reducible apply machineCheck_keeps) | (with_reducible apply failDie_keeps) | split)

theorem execCarrierLossTimeout_keeps {tch : List Field} {s0 : State} (port : Nat) (s : State)
    (hs : Keeps tch s0 s)
    (hw : Within [.link] tch := by exact Within.of (by assumption) rfl) :
    OnNext (Keeps tch s0) (execCarrierLossTimeout port s) := by
  unfold execCarrierLossTimeout
  try dsimp only
  repeat' (first
    | (with_reducible assumption) | exact hw.of rfl | (with_reducible apply linkDown_keeps)
    | (with_reducible apply OnNext.next) | (with_reducible apply OnNext.fault) | split)

theorem trained_keeps {tch : List Field} {s0 : State} (port : Nat) (advDie : Nat) (advHub : Nat) (s : State)
    (hs : Keeps tch s0 s)
    (hw : Within [.glb, .repair, .boot, .ivory, .link, .hub, .hfifo, .msix, .sync, .counted, .mem, .stack, .pool,
    .tier, .xlt, .cdie, .hif, .sess, .disp, .rna, .pwr, .tile] tch := by exact Within.of (by assumption) rfl) :
    Keeps tch s0 (trained port advDie advHub s) := by
  unfold trained
  try dsimp only
  repeat' (first
    | (with_reducible assumption) | exact hw.of rfl | (with_reducible apply State.updLink_keeps)
    | (with_reducible apply post_keeps) | (with_reducible apply failDie_keeps) | (with_reducible apply linkGo_keeps)
    | (with_reducible apply newEpoch_keeps) | split)

theorem execFastRetrainDone_keeps {tch : List Field} {s0 : State} (port : Nat) (advDie : Nat) (advHub : Nat)
    (s : State) (hs : Keeps tch s0 s)
    (hw : Within [.glb, .repair, .boot, .ivory, .link, .hub, .hfifo, .msix, .sync, .counted, .mem, .stack, .pool,
    .tier, .xlt, .cdie, .hif, .sess, .disp, .rna, .pwr, .tile] tch := by exact Within.of (by assumption) rfl) :
    OnNext (Keeps tch s0) (execFastRetrainDone port advDie advHub s) := by
  unfold execFastRetrainDone
  try dsimp only
  repeat' (first
    | (with_reducible assumption) | exact hw.of rfl | (with_reducible apply poolsGo_keeps)
    | (with_reducible apply trained_keeps) | (with_reducible apply OnNext.next) | (with_reducible apply OnNext.fault)
    | split)

theorem execFullTrainingDone_keeps {tch : List Field} {s0 : State} (port : Nat) (advDie : Nat)
    (advHub : Nat) (s : State) (hs : Keeps tch s0 s)
    (hw : Within [.glb, .repair, .boot, .ivory, .link, .hub, .hfifo, .msix, .sync, .counted, .mem, .stack, .pool,
    .tier, .xlt, .cdie, .hif, .sess, .disp, .rna, .pwr, .tile] tch := by exact Within.of (by assumption) rfl) :
    OnNext (Keeps tch s0) (execFullTrainingDone port advDie advHub s) := by
  unfold execFullTrainingDone
  try dsimp only
  repeat' (first
    | (with_reducible assumption) | exact hw.of rfl | (with_reducible apply poolsGo_keeps)
    | (with_reducible apply trained_keeps) | (with_reducible apply State.updLink_keeps)
    | (with_reducible apply OnNext.next) | (with_reducible apply OnNext.fault) | split)

theorem execRetrainTimeout_keeps {tch : List Field} {s0 : State} (port : Nat) (s : State)
    (hs : Keeps tch s0 s)
    (hw : Within [.glb, .repair, .boot, .ivory, .link, .hub, .hfifo, .msix, .sync, .counted, .mem, .stack, .pool,
    .tier, .xlt, .core, .cdie, .hif, .sess, .disp, .rna, .pwr, .tile] tch := by exact Within.of (by assumption) rfl) :
    OnNext (Keeps tch s0) (execRetrainTimeout port s) := by
  unfold execRetrainTimeout
  try dsimp only
  repeat' (first
    | (with_reducible assumption) | exact hw.of rfl | (with_reducible apply startRecovery_keeps)
    | (with_reducible apply fencePort_keeps) | (with_reducible apply OnNext.next)
    | (with_reducible apply OnNext.fault) | split)

theorem execFenceComplete_keeps {tch : List Field} {s0 : State} (port : Nat) (s : State) (hs : Keeps tch s0 s)
    (hw : Within [.link] tch := by exact Within.of (by assumption) rfl) :
    OnNext (Keeps tch s0) (execFenceComplete port s) := by
  unfold execFenceComplete
  try dsimp only
  repeat' (first
    | (with_reducible assumption) | exact hw.of rfl | (with_reducible apply State.updLink_keeps)
    | (with_reducible apply OnNext.next) | (with_reducible apply OnNext.fault) | split)

theorem hubAnswers_keeps {tch : List Field} {s0 : State} (o : Outst) (reason : Nat) (s : State)
    (hs : Keeps tch s0 s)
    (hw : Within [.link, .hub] tch := by exact Within.of (by assumption) rfl) :
    Keeps tch s0 (hubAnswers o reason s) := by
  unfold hubAnswers
  try dsimp only
  repeat' (first
    | (with_reducible assumption) | exact hw.of rfl | (with_reducible apply withHub_keeps)
    | (with_reducible apply hubSays_keeps) | split)

theorem execTargetTimeout_keeps {tch : List Field} {s0 : State} (src : Nat) (tid : Nat) (s : State)
    (hs : Keeps tch s0 s)
    (hw : Within [.link, .hub] tch := by exact Within.of (by assumption) rfl) :
    OnNext (Keeps tch s0) (execTargetTimeout src tid s) := by
  unfold execTargetTimeout
  try dsimp only
  repeat' (first
    | (with_reducible assumption) | exact hw.of rfl | (with_reducible apply hubAnswers_keeps)
    | (with_reducible apply OnNext.next) | (with_reducible apply OnNext.fault) | split)

theorem execTierWaitTimeout_keeps {tch : List Field} {s0 : State} (src : Nat) (tid : Nat) (s : State)
    (hs : Keeps tch s0 s)
    (hw : Within [.link, .hub, .tier] tch := by exact Within.of (by assumption) rfl) :
    OnNext (Keeps tch s0) (execTierWaitTimeout src tid s) := by
  unfold execTierWaitTimeout
  try dsimp only
  repeat' (first
    | (with_reducible assumption) | exact hw.of rfl | (with_reducible apply refuse_keeps)
    | (with_reducible apply withTier_keeps) | (with_reducible apply OnNext.next)
    | (with_reducible apply OnNext.fault) | split)

theorem execCalibrationPause_keeps {tch : List Field} {s0 : State} (port : Nat) (s : State)
    (hs : Keeps tch s0 s)
    (hw : Within [.link] tch := by exact Within.of (by assumption) rfl) :
    OnNext (Keeps tch s0) (execCalibrationPause port s) := by
  unfold execCalibrationPause
  try dsimp only
  repeat' (first
    | (with_reducible assumption) | exact hw.of rfl | (with_reducible apply State.updLink_keeps)
    | (with_reducible apply OnNext.next) | (with_reducible apply OnNext.fault) | split)

theorem execCalibrationResume_keeps {tch : List Field} {s0 : State} (port : Nat) (s : State)
    (hs : Keeps tch s0 s)
    (hw : Within [.link, .hub, .hfifo, .msix, .mem, .stack, .pool, .tier, .cdie, .hif,
    .disp] tch := by exact Within.of (by assumption) rfl) :
    OnNext (Keeps tch s0) (execCalibrationResume port s) := by
  unfold execCalibrationResume
  try dsimp only
  repeat' (first
    | (with_reducible assumption) | exact hw.of rfl | (with_reducible apply poolsGo_keeps)
    | (with_reducible apply linkGo_keeps) | (with_reducible apply State.updLink_keeps)
    | (with_reducible apply OnNext.next) | (with_reducible apply OnNext.fault) | split)

theorem allDown_keeps {tch : List Field} {s0 : State} (f : Nat → Bool) (s : State) (hs : Keeps tch s0 s)
    (hw : Within [.link] tch := by exact Within.of (by assumption) rfl) :
    Keeps tch s0 (allDown f s) := by
  unfold allDown
  try dsimp only
  repeat' (first
    | (with_reducible assumption) | exact hw.of rfl | (with_reducible apply linkDown_keeps)
    | (with_reducible apply foldl_keeps) | split | (intro _; intros; try dsimp only))

theorem rootGone_keeps {tch : List Field} {s0 : State} (s : State) (hs : Keeps tch s0 s)
    (hw : Within [.link, .hub] tch := by exact Within.of (by assumption) rfl) :
    Keeps tch s0 (rootGone s) := by
  unfold rootGone
  try dsimp only
  repeat' (first
    | (with_reducible assumption) | exact hw.of rfl | (with_reducible apply allDown_keeps)
    | (with_reducible apply withHub_keeps) | (with_reducible apply State.updLink_keeps)
    | (with_reducible apply foldl_keeps) | split | (intro _; intros; try dsimp only))

theorem execEmitterFailure_keeps {tch : List Field} {s0 : State} (s : State) (hs : Keeps tch s0 s)
    (hw : Within [.glb, .boot, .link, .hub, .hfifo, .msix, .cdie, .hif,
    .disp] tch := by exact Within.of (by assumption) rfl) :
    OnNext (Keeps tch s0) (execEmitterFailure s) := by
  unfold execEmitterFailure
  try dsimp only
  repeat' (first
    | (with_reducible assumption) | exact hw.of rfl | (with_reducible apply post_keeps)
    | (with_reducible apply rootGone_keeps) | (with_reducible apply withHub_keeps)
    | (with_reducible apply endService_keeps) | (with_reducible apply OnNext.next)
    | (with_reducible apply OnNext.fault) | split)

theorem execRootClockLoss_keeps {tch : List Field} {s0 : State} (site : Option Nat) (s : State)
    (hs : Keeps tch s0 s)
    (hw : Within [.link, .hub] tch := by exact Within.of (by assumption) rfl) :
    OnNext (Keeps tch s0) (execRootClockLoss site s) := by
  unfold execRootClockLoss
  try dsimp only
  repeat' (first
    | (with_reducible assumption) | exact hw.of rfl | (with_reducible apply rootGone_keeps)
    | (with_reducible apply State.updLink_keeps) | (with_reducible apply linkDown_keeps)
    | (with_reducible apply OnNext.next) | (with_reducible apply OnNext.fault) | split)

theorem execRootClockReturn_keeps {tch : List Field} {s0 : State} (site : Option Nat) (s : State)
    (hs : Keeps tch s0 s)
    (hw : Within [.link, .hub] tch := by exact Within.of (by assumption) rfl) :
    OnNext (Keeps tch s0) (execRootClockReturn site s) := by
  unfold execRootClockReturn
  try dsimp only
  repeat' (first
    | (with_reducible assumption) | exact hw.of rfl | (with_reducible apply State.updLink_keeps)
    | (with_reducible apply withHub_keeps) | (with_reducible apply foldl_keeps) | (with_reducible apply OnNext.next)
    | (with_reducible apply OnNext.fault) | split | (intro _; intros; try dsimp only))

theorem execHoldoverExpired_keeps {tch : List Field} {s0 : State} (port : Nat) (s : State)
    (hs : Keeps tch s0 s)
    (hw : Within [.glb, .repair, .boot, .ivory, .link, .hub, .hfifo, .msix, .sync, .counted, .mem, .stack, .pool,
    .tier, .xlt, .cdie, .hif, .sess, .disp, .rna, .pwr, .tile] tch := by exact Within.of (by assumption) rfl) :
    OnNext (Keeps tch s0) (execHoldoverExpired port s) := by
  unfold execHoldoverExpired
  try dsimp only
  repeat' (first
    | (with_reducible assumption) | exact hw.of rfl | (with_reducible apply failDie_keeps)
    | (with_reducible apply OnNext.next) | (with_reducible apply OnNext.fault) | split)

theorem execLinkCrcError_keeps {tch : List Field} {s0 : State} (port : Nat) (side : Side) (hdr : BitVec 128)
    (body : List Byte) (crc : BitVec 32) (s : State) (hs : Keeps tch s0 s)
    (hw : Within [.link] tch := by exact Within.of (by assumption) rfl) :
    OnNext (Keeps tch s0) (execLinkCrcError port side hdr body crc s) := by
  unfold execLinkCrcError
  try dsimp only
  repeat' (first
    | (with_reducible assumption) | exact hw.of rfl | (with_reducible apply State.updLink_keeps)
    | (with_reducible apply OnNext.next) | (with_reducible apply OnNext.fault) | split)

theorem execHubLaneFailure_keeps {tch : List Field} {s0 : State} (port : Nat) (waveguide : Nat) (s : State)
    (hs : Keeps tch s0 s)
    (hw : Within [.glb, .repair, .boot, .ivory, .link, .hub, .hfifo, .msix, .sync, .counted, .mem, .stack, .pool,
    .tier, .xlt, .cdie, .hif, .sess, .disp, .rna, .pwr, .tile] tch := by exact Within.of (by assumption) rfl) :
    OnNext (Keeps tch s0) (execHubLaneFailure port waveguide s) := by
  unfold execHubLaneFailure
  try dsimp only
  repeat' (first
    | (with_reducible assumption) | exact hw.of rfl | (with_reducible apply State.updLink_keeps)
    | (with_reducible apply failDie_keeps) | (with_reducible apply OnNext.next) | (with_reducible apply OnNext.fault)
    | split)

theorem execHubLinkerrRead_keeps {tch : List Field} {s0 : State} (who : Agent) (port : Nat) (s : State)
    (hs : Keeps tch s0 s)
    (hw : Within [.link, .replies] tch := by exact Within.of (by assumption) rfl) :
    OnNext (Keeps tch s0) (execHubLinkerrRead who port s) := by
  unfold execHubLinkerrRead
  try dsimp only
  repeat' (first
    | (with_reducible assumption) | exact hw.of rfl | (with_reducible apply State.updLink_keeps)
    | (with_reducible apply reply_keeps) | (with_reducible apply shutRead_keeps) | (with_reducible apply OnNext.next)
    | (with_reducible apply OnNext.fault) | split)

theorem execMgmt_keeps {tch : List Field} {s0 : State} (src : Nat) (dst : Nat) (kind : MgmtKind) (s : State)
    (hs : Keeps tch s0 s)
    (hw : Within [.link, .hub] tch := by exact Within.of (by assumption) rfl) :
    OnNext (Keeps tch s0) (execMgmt src dst kind s) := by
  unfold execMgmt
  try dsimp only
  repeat' (first
    | (with_reducible assumption) | exact hw.of rfl | (with_reducible apply reach_keeps)
    | (with_reducible apply withHub_keeps) | (with_reducible apply OnNext.next) | (with_reducible apply OnNext.fault)
    | split)

theorem applyRecorded_keeps {tch : List Field} {s0 : State} (s : State) (hs : Keeps tch s0 s)
    (hw : Within [.regs] tch := by exact Within.of (by assumption) rfl) :
    Keeps tch s0 (applyRecorded s) := by
  unfold applyRecorded
  try dsimp only
  repeat' (first
    | (with_reducible assumption) | exact hw.of rfl | (with_reducible apply State.setReg_keeps)
    | (with_reducible apply foldl_keeps) | split | (intro _; intros; try dsimp only))

theorem recordSetup_keeps {tch : List Field} {s0 : State} (s : State) (hs : Keeps tch s0 s)
    (hw : Within [.ivory] tch := by exact Within.of (by assumption) rfl) :
    Keeps tch s0 (recordSetup s) := by
  unfold recordSetup
  try dsimp only
  repeat' (first
    | (with_reducible assumption) | exact hw.of rfl | exact Nat.le_refl _ | (with_reducible apply withIvory_keeps)
    | (with_reducible apply foldl_keeps) | split | (intro _; intros; try dsimp only))

theorem placeFrames_keeps {tch : List Field} {s0 : State} (steps : Nat) (s : State) (hs : Keeps tch s0 s)
    (hw : Within [.memc] tch := by exact Within.of (by assumption) rfl) :
    Keeps tch s0 (placeFrames steps s) := by
  unfold placeFrames
  try dsimp only
  repeat' (first
    | (with_reducible assumption) | exact hw.of rfl | (with_reducible apply withMemc_keeps) | split)

theorem takeMode_keeps {tch : List Field} {s0 : State} (s : State) (hs : Keeps tch s0 s)
    (hw : Within [.memc] tch := by exact Within.of (by assumption) rfl) :
    Keeps tch s0 (takeMode s) := by
  unfold takeMode
  try dsimp only
  repeat' (first
    | (with_reducible assumption) | exact hw.of rfl | (with_reducible apply withMemc_keeps) | split)

theorem placeAreas_keeps {tch : List Field} {s0 : State} (s : State) (hs : Keeps tch s0 s)
    (hw : Within [.memc] tch := by exact Within.of (by assumption) rfl) :
    Keeps tch s0 (placeAreas s) := by
  unfold placeAreas
  try dsimp only
  repeat' (first
    | (with_reducible assumption) | exact hw.of rfl | (with_reducible apply withMemc_keeps) | split)

theorem placeJournal_keeps {tch : List Field} {s0 : State} (s : State) (hs : Keeps tch s0 s)
    (hw : Within [.disp] tch := by exact Within.of (by assumption) rfl) :
    Keeps tch s0 (placeJournal s) := by
  unfold placeJournal
  try dsimp only
  repeat' (first
    | (with_reducible assumption) | exact hw.of rfl | (with_reducible apply withDisp_keeps) | split)

theorem sealPools_keeps {tch : List Field} {s0 : State} (s : State) (hs : Keeps tch s0 s)
    (hw : Within [.mem, .pool] tch := by exact Within.of (by assumption) rfl) :
    Keeps tch s0 (sealPools s) := by
  unfold sealPools
  try dsimp only
  repeat' (first
    | (with_reducible assumption) | exact hw.of rfl | (with_reducible apply State.updPool_keeps)
    | (with_reducible apply withMem_keeps) | (with_reducible apply foldl_keeps) | (with_reducible apply RamOk.rfl')
    | (with_reducible apply RamOk_empty) | (with_reducible apply RamOk_zero) | split
    | (intro _; intros; try dsimp only))

theorem sealNow_keeps {tch : List Field} {s0 : State} (s : State) (hs : Keeps tch s0 s)
    (hw : Within [.glb, .hfifo, .msix, .mem, .stack, .memc, .pool, .tier, .cdie, .hif,
    .disp] tch := by exact Within.of (by assumption) rfl) :
    Keeps tch s0 (sealNow s) := by
  unfold sealNow
  try dsimp only
  repeat' (first
    | (with_reducible assumption) | exact hw.of rfl | exact rfl | (with_reducible apply vacate_keeps)
    | (with_reducible apply placeFrames_keeps) | (with_reducible apply withTier_keeps)
    | (with_reducible apply placeJournal_keeps) | (with_reducible apply placeAreas_keeps)
    | (with_reducible apply sealPools_keeps) | (with_reducible apply withGlb_keeps)
    | (with_reducible apply foldl_keeps) | split | (intro _; intros; try dsimp only))

theorem execSeal_keeps {tch : List Field} {s0 : State} (who : Agent) (s : State) (hs : Keeps tch s0 s)
    (hw : Within [.glb, .ivory, .hfifo, .msix, .cdie, .hif] tch := by exact Within.of (by assumption) rfl) :
    OnNext (Keeps tch s0) (execSeal who s) := by
  unfold execSeal
  try dsimp only
  repeat' (first
    | (with_reducible assumption) | exact hw.of rfl | exact rfl | (with_reducible apply pfWrite_keeps)
    | (with_reducible apply recordSetup_keeps) | (with_reducible apply withGlb_keeps)
    | (with_reducible apply OnNext.next) | (with_reducible apply OnNext.fault) | split
    | (intro _; intros; try dsimp only))

theorem execSealComplete_keeps {tch : List Field} {s0 : State} (s : State) (hs : Keeps tch s0 s)
    (hw : Within [.glb, .hfifo, .msix, .mem, .stack, .memc, .pool, .tier, .cdie, .hif,
    .disp] tch := by exact Within.of (by assumption) rfl) :
    OnNext (Keeps tch s0) (execSealComplete s) := by
  unfold execSealComplete
  try dsimp only
  repeat' (first
    | (with_reducible assumption) | exact hw.of rfl | (with_reducible apply sealNow_keeps)
    | (with_reducible apply OnNext.next) | (with_reducible apply OnNext.fault) | split)

theorem toStep_keeps {tch : List Field} {s0 : State} (n : Nat) (s : State) (hs : Keeps tch s0 s)
    (hw : Within [.boot] tch := by exact Within.of (by assumption) rfl) :
    Keeps tch s0 (toStep n s) := by
  unfold toStep
  try dsimp only
  repeat' (first
    | (with_reducible assumption) | exact hw.of rfl | (with_reducible apply withBoot_keeps) | split)

theorem execPowerUpStart_keeps {tch : List Field} {s0 : State} (vin : Nat) (s : State) (hs : Keeps tch s0 s)
    (hw : Within [.boot, .memc, .regs] tch := by exact Within.of (by assumption) rfl) :
    OnNext (Keeps tch s0) (execPowerUpStart vin s) := by
  unfold execPowerUpStart
  try dsimp only
  repeat' (first
    | (with_reducible assumption) | exact hw.of rfl | (with_reducible apply takeMode_keeps)
    | (with_reducible apply applyRecorded_keeps) | (with_reducible apply toStep_keeps)
    | (with_reducible apply withBoot_keeps) | (with_reducible apply OnNext.next)
    | (with_reducible apply OnNext.fault) | split)

theorem enterRecovery_keeps {tch : List Field} {s0 : State} (reason : Nat) (s : State) (hs : Keeps tch s0 s)
    (hw : Within [.glb, .boot] tch := by exact Within.of (by assumption) rfl) :
    Keeps tch s0 (enterRecovery reason s) := by
  unfold enterRecovery
  try dsimp only
  repeat' (first
    | (with_reducible assumption)
    | exact hw.of rfl
    | exact rfl
    | exact Nat.le_refl _
    | exact Nat.le_succ _
    | (with_reducible apply withGlb_keeps)
    | (with_reducible apply withBoot_keeps)
    | split
    | (intro _; intros; try dsimp only))

theorem execBootRomLoaded_keeps {tch : List Field} {s0 : State} (img : Option FwImage) (s : State)
    (hs : Keeps tch s0 s)
    (hw : Within [.glb, .boot, .ivory] tch := by exact Within.of (by assumption) rfl) :
    OnNext (Keeps tch s0) (execBootRomLoaded img s) := by
  unfold execBootRomLoaded
  try dsimp only
  repeat' (first
    | (with_reducible assumption)
    | exact hw.of rfl
    | exact rfl
    | exact Nat.le_refl _
    | exact Nat.le_succ _
    | (with_reducible apply OnNext.next)
    | (with_reducible apply mgmtReply_keeps)
    | (with_reducible apply withGlb_keeps)
    | (with_reducible apply withBoot_keeps)
    | (with_reducible apply withIvory_keeps)
    | (with_reducible apply enterRecovery_keeps)
    | (with_reducible apply toStep_keeps)
    | split
    | (intro _; intros; try dsimp only))

theorem setDebug_keeps {tch : List Field} {s0 : State} (v : Nat) (s : State) (hs : Keeps tch s0 s)
    (hw : Within [.ivory, .hfifo, .msix, .cdie, .hif] tch := by exact Within.of (by assumption) rfl) :
    Keeps tch s0 (setDebug v s) := by
  unfold setDebug
  try dsimp only
  repeat' (first
    | (with_reducible assumption) | exact hw.of rfl | exact Nat.le_refl _ | (with_reducible apply post_keeps)
    | (with_reducible apply withIvory_keeps) | split)

theorem ivoryStarts_keeps {tch : List Field} {s0 : State} (s : State) (hs : Keeps tch s0 s)
    (hw : Within [.glb, .ivory, .hfifo, .msix, .cdie, .hif] tch := by exact Within.of (by assumption) rfl) :
    Keeps tch s0 (ivoryStarts s) := by
  unfold ivoryStarts
  try dsimp only
  repeat' (first
    | (with_reducible assumption)
    | exact hw.of rfl
    | exact rfl
    | exact Nat.le_refl _
    | exact Nat.le_succ _
    | (with_reducible apply withGlb_keeps)
    | (with_reducible apply withIvory_keeps)
    | (with_reducible apply setDebug_keeps)
    | split
    | (intro _; intros; try dsimp only))

theorem execImageVerified_keeps {tch : List Field} {s0 : State} (s : State) (hs : Keeps tch s0 s)
    (hw : Within [.glb, .boot, .ivory, .hfifo, .msix, .cdie, .hif] tch := by exact Within.of (by assumption) rfl) :
    OnNext (Keeps tch s0) (execImageVerified s) := by
  unfold execImageVerified
  try dsimp only
  repeat' (first
    | (with_reducible assumption) | exact hw.of rfl | (with_reducible apply toStep_keeps)
    | (with_reducible apply ivoryStarts_keeps) | (with_reducible apply OnNext.next)
    | (with_reducible apply OnNext.fault) | split)

theorem railOn_keeps {tch : List Field} {s0 : State} (p : Nat) (s : State) (hs : Keeps tch s0 s)
    (hw : Within [.boot, .pwr] tch := by exact Within.of (by assumption) rfl) :
    Keeps tch s0 (railOn p s) := by
  unfold railOn
  try dsimp only
  repeat' (first
    | (with_reducible assumption) | exact hw.of rfl | (with_reducible apply qualVolt_keeps)
    | (with_reducible apply withBoot_keeps) | split)

theorem execHostDieEnable_keeps {tch : List Field} {s0 : State} (s : State) (hs : Keeps tch s0 s)
    (hw : Within [.boot, .pwr] tch := by exact Within.of (by assumption) rfl) :
    OnNext (Keeps tch s0) (execHostDieEnable s) := by
  unfold execHostDieEnable
  try dsimp only
  repeat' (first
    | (with_reducible assumption) | exact hw.of rfl | (with_reducible apply railOn_keeps)
    | (with_reducible apply toStep_keeps) | (with_reducible apply withBoot_keeps)
    | (with_reducible apply OnNext.next) | (with_reducible apply OnNext.fault) | split)

theorem execPackageRailUp_keeps {tch : List Field} {s0 : State} (s : State) (hs : Keeps tch s0 s)
    (hw : Within [.boot, .pwr] tch := by exact Within.of (by assumption) rfl) :
    OnNext (Keeps tch s0) (execPackageRailUp s) := by
  unfold execPackageRailUp
  try dsimp only
  repeat' (first
    | (with_reducible assumption) | exact hw.of rfl | (with_reducible apply railOn_keeps)
    | (with_reducible apply toStep_keeps) | (with_reducible apply withBoot_keeps)
    | (with_reducible apply foldl_keeps) | (with_reducible apply OnNext.next) | (with_reducible apply OnNext.fault)
    | split | (intro _; intros; try dsimp only))

theorem execEmitterStable_keeps {tch : List Field} {s0 : State} (standbyOk : Bool) (s : State)
    (hs : Keeps tch s0 s)
    (hw : Within [.boot, .hub] tch := by exact Within.of (by assumption) rfl) :
    OnNext (Keeps tch s0) (execEmitterStable standbyOk s) := by
  unfold execEmitterStable
  try dsimp only
  repeat' (first
    | (with_reducible assumption) | exact hw.of rfl | (with_reducible apply toStep_keeps)
    | (with_reducible apply withHub_keeps) | (with_reducible apply OnNext.next) | (with_reducible apply OnNext.fault)
    | split)

theorem execRingCalibrationDone_keeps {tch : List Field} {s0 : State} (s : State) (hs : Keeps tch s0 s)
    (hw : Within [.boot, .link] tch := by exact Within.of (by assumption) rfl) :
    OnNext (Keeps tch s0) (execRingCalibrationDone s) := by
  unfold execRingCalibrationDone
  try dsimp only
  repeat' (first
    | (with_reducible assumption) | exact hw.of rfl | (with_reducible apply State.updLink_keeps)
    | (with_reducible apply toStep_keeps) | (with_reducible apply foldl_keeps) | (with_reducible apply OnNext.next)
    | (with_reducible apply OnNext.fault) | split | (intro _; intros; try dsimp only))

theorem trainAll_keeps {tch : List Field} {s0 : State} (ports : List Nat) (adv : List WidthAdv) (s : State)
    (hs : Keeps tch s0 s)
    (hw : Within [.glb, .repair, .boot, .ivory, .link, .hub, .hfifo, .msix, .sync, .counted, .mem, .stack, .pool,
    .tier, .xlt, .cdie, .hif, .sess, .disp, .rna, .pwr, .tile] tch := by exact Within.of (by assumption) rfl) :
    Keeps tch s0 (trainAll ports adv s) := by
  unfold trainAll
  try dsimp only
  repeat' (first
    | (with_reducible assumption) | exact hw.of rfl | (with_reducible apply trained_keeps)
    | (with_reducible apply foldl_keeps) | split | (intro _; intros; try dsimp only))

theorem execLinksTrained_keeps {tch : List Field} {s0 : State} (adv : List WidthAdv) (s : State)
    (hs : Keeps tch s0 s)
    (hw : Within [.glb, .repair, .boot, .ivory, .link, .hub, .hfifo, .msix, .sync, .counted, .mem, .stack, .pool,
    .tier, .xlt, .cdie, .hif, .sess, .disp, .rna, .pwr, .tile] tch := by exact Within.of (by assumption) rfl) :
    OnNext (Keeps tch s0) (execLinksTrained adv s) := by
  unfold execLinksTrained
  try dsimp only
  repeat' (first
    | (with_reducible assumption) | exact hw.of rfl | (with_reducible apply trainAll_keeps)
    | (with_reducible apply toStep_keeps) | (with_reducible apply OnNext.next) | (with_reducible apply OnNext.fault)
    | split)

theorem execTileSelfTestDone_keeps {tch : List Field} {s0 : State} (faults : List TileFaults) (s : State)
    (hs : Keeps tch s0 s)
    (hw : Within [.glb, .repair, .boot, .link, .hub, .hfifo, .msix, .sync, .xlt, .cdie, .hif, .disp, .pwr,
    .tile] tch := by exact Within.of (by assumption) rfl) :
    OnNext (Keeps tch s0) (execTileSelfTestDone faults s) := by
  unfold execTileSelfTestDone
  try dsimp only
  repeat' (first
    | (with_reducible assumption) | exact hw.of rfl | (with_reducible apply tileLost_keeps)
    | (with_reducible apply toStep_keeps) | (with_reducible apply foldl_keeps) | (with_reducible apply OnNext.next)
    | (with_reducible apply OnNext.fault) | split | (intro _; intros; try dsimp only))

theorem mapAtStart_keeps {tch : List Field} {s0 : State} (failed : List Nat) (s : State) (hs : Keeps tch s0 s)
    (hw : Within [.glb, .repair, .boot, .ivory, .link, .hub, .hfifo, .msix, .sync, .stack, .memc, .xlt, .cdie, .hif,
    .disp, .pwr, .tile] tch := by exact Within.of (by assumption) rfl) :
    Keeps tch s0 (mapAtStart failed s) := by
  unfold mapAtStart
  try dsimp only
  repeat' (first
    | (with_reducible assumption) | exact hw.of rfl | (with_reducible apply withMemc_keeps)
    | (with_reducible apply failStack_keeps) | (with_reducible apply post_keeps)
    | (with_reducible apply withRepair_keeps) | (with_reducible apply foldl_keeps) | split
    | (intro _; intros; try dsimp only))

theorem execHbmTrained_keeps {tch : List Field} {s0 : State} (failed : List Nat) (s : State)
    (hs : Keeps tch s0 s)
    (hw : Within [.glb, .repair, .boot, .ivory, .link, .hub, .hfifo, .msix, .sync, .stack, .memc, .xlt, .cdie, .hif,
    .disp, .pwr, .tile] tch := by exact Within.of (by assumption) rfl) :
    OnNext (Keeps tch s0) (execHbmTrained failed s) := by
  unfold execHbmTrained
  try dsimp only
  repeat' (first
    | (with_reducible assumption) | exact hw.of rfl | (with_reducible apply placeFrames_keeps)
    | (with_reducible apply mapAtStart_keeps) | (with_reducible apply toStep_keeps)
    | (with_reducible apply OnNext.next) | (with_reducible apply OnNext.fault) | split)

theorem hbmZero_keeps {tch : List Field} {s0 : State} (s : State) (hs : Keeps tch s0 s)
    (hw : Within [.mem] tch := by exact Within.of (by assumption) rfl) :
    Keeps tch s0 (hbmZero s) := by
  unfold hbmZero
  try dsimp only
  repeat' (first
    | (with_reducible assumption) | exact hw.of rfl | (with_reducible apply withMem_keeps)
    | (with_reducible apply RamOk.rfl') | (with_reducible apply RamOk_empty) | (with_reducible apply RamOk_zero)
    | split | (intro _; intros; try dsimp only))

theorem execHbmInitialised_keeps {tch : List Field} {s0 : State} (s : State) (hs : Keeps tch s0 s)
    (hw : Within [.boot, .mem] tch := by exact Within.of (by assumption) rfl) :
    OnNext (Keeps tch s0) (execHbmInitialised s) := by
  unfold execHbmInitialised
  try dsimp only
  repeat' (first
    | (with_reducible assumption) | exact hw.of rfl | (with_reducible apply hbmZero_keeps)
    | (with_reducible apply toStep_keeps) | (with_reducible apply OnNext.next) | (with_reducible apply OnNext.fault)
    | split)

theorem poisonOpen_keeps {tch : List Field} {s0 : State} (die : Nat) (part : Nat) (s : State)
    (hs : Keeps tch s0 s)
    (hw : Within [.hfifo, .msix, .tier, .cdie, .hif] tch := by exact Within.of (by assumption) rfl) :
    Keeps tch s0 (poisonOpen die part s) := by
  unfold poisonOpen
  try dsimp only
  repeat' (first
    | (with_reducible assumption) | exact hw.of rfl | (with_reducible apply withTier_keeps)
    | (with_reducible apply post_keeps) | (with_reducible apply State.updTdie_keeps) | split)

theorem mountDie_keeps {tch : List Field} {s0 : State} (die : Nat) (ok : Bool) (power : Bool) (s : State)
    (hs : Keeps tch s0 s)
    (hw : Within [.glb, .repair, .boot, .link, .hub, .hfifo, .msix, .sync, .tier, .xlt, .cdie, .hif, .disp, .pwr,
    .tile] tch := by exact Within.of (by assumption) rfl) :
    Keeps tch s0 (mountDie die ok power s) := by
  unfold mountDie
  try dsimp only
  repeat' (first
    | (with_reducible assumption) | exact hw.of rfl | (with_reducible apply State.updTdie_keeps)
    | (with_reducible apply dieFailed_keeps) | (with_reducible apply poisonOpen_keeps)
    | (with_reducible apply foldl_keeps) | split | (intro _; intros; try dsimp only))

theorem execTierMounted_keeps {tch : List Field} {s0 : State} (ok0 : Bool) (ok1 : Bool) (s : State)
    (hs : Keeps tch s0 s)
    (hw : Within [.glb, .repair, .boot, .link, .hub, .hfifo, .msix, .sync, .tier, .xlt, .cdie, .hif, .disp, .pwr,
    .tile] tch := by exact Within.of (by assumption) rfl) :
    OnNext (Keeps tch s0) (execTierMounted ok0 ok1 s) := by
  unfold execTierMounted
  try dsimp only
  repeat' (first
    | (with_reducible assumption) | exact hw.of rfl | (with_reducible apply mountDie_keeps)
    | (with_reducible apply toStep_keeps) | (with_reducible apply OnNext.next) | (with_reducible apply OnNext.fault)
    | split)

theorem runtimeStarts_keeps {tch : List Field} {s0 : State} (passed : List Nat) (s : State)
    (hs : Keeps tch s0 s)
    (hw : Within [.glb, .repair, .boot, .link, .hub, .hfifo, .msix, .sync, .xlt, .cdie, .hif, .disp, .pwr,
    .tile] tch := by exact Within.of (by assumption) rfl) :
    Keeps tch s0 (runtimeStarts passed s) := by
  unfold runtimeStarts
  try dsimp only
  repeat' (first
    | (with_reducible assumption) | exact hw.of rfl | (with_reducible apply withBoot_keeps)
    | (with_reducible apply State.updCdie_keeps) | (with_reducible apply dieFailed_keeps)
    | (with_reducible apply foldl_keeps) | split | (intro _; intros; try dsimp only))

theorem execCoreSelfTestDone_keeps {tch : List Field} {s0 : State} (passed : List Nat) (s : State)
    (hs : Keeps tch s0 s)
    (hw : Within [.glb, .repair, .boot, .link, .hub, .hfifo, .msix, .sync, .xlt, .cdie, .hif, .disp, .pwr,
    .tile] tch := by exact Within.of (by assumption) rfl) :
    OnNext (Keeps tch s0) (execCoreSelfTestDone passed s) := by
  unfold execCoreSelfTestDone
  try dsimp only
  repeat' (first
    | (with_reducible assumption) | exact hw.of rfl | (with_reducible apply runtimeStarts_keeps)
    | (with_reducible apply toStep_keeps) | (with_reducible apply OnNext.next) | (with_reducible apply OnNext.fault)
    | split)

theorem readyEvents_keeps {tch : List Field} {s0 : State} (s : State) (hs : Keeps tch s0 s)
    (hw : Within [.ivory, .hfifo, .msix, .cdie, .hif] tch := by exact Within.of (by assumption) rfl) :
    Keeps tch s0 (readyEvents s) := by
  unfold readyEvents
  try dsimp only
  repeat' (first
    | (exact Nat.le_of_lt (by assumption))
    | (with_reducible assumption)
    | exact hw.of rfl
    | exact rfl
    | exact Nat.le_refl _
    | exact Nat.le_succ _
    | (with_reducible apply post_keeps)
    | (with_reducible apply withIvory_keeps)
    | split
    | (intro _; intros; try dsimp only))

theorem setReady_keeps {tch : List Field} {s0 : State} (s : State) (hs : Keeps tch s0 s)
    (hw : Within [.glb, .boot, .ivory, .hfifo, .msix, .cdie, .hif, .pwr,
    .tile] tch := by exact Within.of (by assumption) rfl) :
    Keeps tch s0 (setReady s) := by
  unfold setReady
  try dsimp only
  repeat' (first
    | (with_reducible assumption) | exact hw.of rfl | exact rfl | (with_reducible apply withBoot_keeps)
    | (with_reducible apply withGlb_keeps) | (with_reducible apply readyEvents_keeps)
    | (with_reducible apply toSetpoint_keeps) | split)

theorem execReadySet_keeps {tch : List Field} {s0 : State} (s : State) (hs : Keeps tch s0 s)
    (hw : Within [.glb, .boot, .ivory, .hfifo, .msix, .cdie, .hif, .pwr,
    .tile] tch := by exact Within.of (by assumption) rfl) :
    OnNext (Keeps tch s0) (execReadySet s) := by
  unfold execReadySet
  try dsimp only
  repeat' (first
    | (with_reducible assumption) | exact hw.of rfl | (with_reducible apply setReady_keeps)
    | (with_reducible apply OnNext.next) | (with_reducible apply OnNext.fault) | split)

theorem execStartupStopped_keeps {tch : List Field} {s0 : State} (reason : Nat) (s : State)
    (hs : Keeps tch s0 s)
    (hw : Within [.glb, .boot, .ivory] tch := by exact Within.of (by assumption) rfl) :
    OnNext (Keeps tch s0) (execStartupStopped reason s) := by
  unfold execStartupStopped
  try dsimp only
  repeat' (first
    | (with_reducible assumption)
    | exact hw.of rfl
    | exact rfl
    | exact Nat.le_refl _
    | exact Nat.le_succ _
    | (with_reducible apply OnNext.next)
    | (with_reducible apply mgmtReply_keeps)
    | (with_reducible apply withGlb_keeps)
    | (with_reducible apply withBoot_keeps)
    | split
    | (intro _; intros; try dsimp only))

theorem execConfigReady_keeps {tch : List Field} {s0 : State} (s : State) (hs : Keeps tch s0 s)
    (hw : Within [.boot] tch := by exact Within.of (by assumption) rfl) :
    OnNext (Keeps tch s0) (execConfigReady s) := by
  unfold execConfigReady
  try dsimp only
  repeat' (first
    | (with_reducible assumption) | exact hw.of rfl | (with_reducible apply withBoot_keeps)
    | (with_reducible apply OnNext.next) | (with_reducible apply OnNext.fault) | split)

theorem execConfigRequest_keeps {tch : List Field} {s0 : State} (fn : Nat) (dword : Nat) (s : State)
    (hs : Keeps tch s0 s)
    (hw : Within [.hif] tch := by exact Within.of (by assumption) rfl) :
    OnNext (Keeps tch s0) (execConfigRequest fn dword s) := by
  unfold execConfigRequest
  try dsimp only
  repeat' (first
    | (with_reducible assumption) | exact hw.of rfl | (with_reducible apply State.tlpNow_keeps)
    | (with_reducible apply OnNext.next) | (with_reducible apply OnNext.fault) | split)

theorem execPerstNDeassert_keeps {tch : List Field} {s0 : State} (s : State) (hs : Keeps tch s0 s)
    (hw : Within [.boot] tch := by exact Within.of (by assumption) rfl) :
    OnNext (Keeps tch s0) (execPerstNDeassert s) := by
  unfold execPerstNDeassert
  try dsimp only
  repeat' (first
    | (with_reducible assumption) | exact hw.of rfl | (with_reducible apply withBoot_keeps)
    | (with_reducible apply OnNext.next) | (with_reducible apply OnNext.fault) | split)

theorem shutDown_keeps {tch : List Field} {s0 : State} (s : State) (hs : Keeps tch s0 s)
    (hw : Within [.glb, .boot, .ivory, .link, .hub, .hfifo, .msix, .sync, .counted, .mem, .stack, .memc, .pool,
    .tier, .xlt, .core, .cdie, .hif, .sess, .disp, .rna, .pwr, .tile, .regs,
    .time] tch := by exact Within.of (by assumption) rfl) :
    Keeps tch s0 (shutDown s) := by
  unfold shutDown
  try dsimp only
  repeat' (first
    | (with_reducible assumption) | exact hw.of rfl | (with_reducible apply powerOff_keeps)
    | (with_reducible apply withBoot_keeps) | split)

theorem execVin36OutOfRange_keeps {tch : List Field} {s0 : State} (vin : Nat) (s : State)
    (hs : Keeps tch s0 s)
    (hw : Within [.glb, .boot, .ivory, .link, .hub, .hfifo, .msix, .sync, .counted, .mem, .stack, .memc, .pool,
    .tier, .xlt, .core, .cdie, .hif, .sess, .disp, .rna, .pwr, .tile, .regs,
    .time] tch := by exact Within.of (by assumption) rfl) :
    OnNext (Keeps tch s0) (execVin36OutOfRange vin s) := by
  unfold execVin36OutOfRange
  try dsimp only
  repeat' (first
    | (with_reducible assumption) | exact hw.of rfl | (with_reducible apply withBoot_keeps)
    | (with_reducible apply shutDown_keeps) | (with_reducible apply OnNext.next)
    | (with_reducible apply OnNext.fault) | split)

theorem execVinLowTimeout_keeps {tch : List Field} {s0 : State} (s : State) (hs : Keeps tch s0 s)
    (hw : Within [.glb, .boot, .ivory, .link, .hub, .hfifo, .msix, .sync, .counted, .mem, .stack, .memc, .pool,
    .tier, .xlt, .core, .cdie, .hif, .sess, .disp, .rna, .pwr, .tile, .regs,
    .time] tch := by exact Within.of (by assumption) rfl) :
    OnNext (Keeps tch s0) (execVinLowTimeout s) := by
  unfold execVinLowTimeout
  try dsimp only
  repeat' (first
    | (with_reducible assumption) | exact hw.of rfl | (with_reducible apply shutDown_keeps)
    | (with_reducible apply OnNext.next) | (with_reducible apply OnNext.fault) | split)

theorem execVinHighTimeout_keeps {tch : List Field} {s0 : State} (s : State) (hs : Keeps tch s0 s)
    (hw : Within [.glb, .boot, .ivory, .link, .hub, .hfifo, .msix, .sync, .counted, .mem, .stack, .memc, .pool,
    .tier, .xlt, .core, .cdie, .hif, .sess, .disp, .rna, .pwr, .tile, .regs,
    .time] tch := by exact Within.of (by assumption) rfl) :
    OnNext (Keeps tch s0) (execVinHighTimeout s) := by
  unfold execVinHighTimeout
  try dsimp only
  repeat' (first
    | (with_reducible assumption) | exact hw.of rfl | (with_reducible apply shutDown_keeps)
    | (with_reducible apply OnNext.next) | (with_reducible apply OnNext.fault) | split)

theorem execPldmFwUpdate_keeps {tch : List Field} {s0 : State} (s : State) (hs : Keeps tch s0 s)
    (hw : Within [.ivory] tch := by exact Within.of (by assumption) rfl) :
    OnNext (Keeps tch s0) (execPldmFwUpdate s) := by
  unfold execPldmFwUpdate
  try dsimp only
  repeat' (first
    | (with_reducible assumption) | exact hw.of rfl | exact Nat.le_refl _ | (with_reducible apply mgmtReply_keeps)
    | (with_reducible apply withIvory_keeps) | (with_reducible apply OnNext.next)
    | (with_reducible apply OnNext.fault) | split)

theorem execFwImageReceived_keeps {tch : List Field} {s0 : State} (img : FwImage) (s : State)
    (hs : Keeps tch s0 s)
    (hw : Within [.glb, .ivory, .hfifo, .msix, .cdie, .hif] tch := by exact Within.of (by assumption) rfl) :
    OnNext (Keeps tch s0) (execFwImageReceived img s) := by
  unfold execFwImageReceived
  try dsimp only
  repeat' (first
    | (with_reducible assumption) | exact hw.of rfl | exact rfl | exact Nat.le_refl _
    | (with_reducible apply withIvory_keeps) | (with_reducible apply withGlb_keeps)
    | (with_reducible apply mgmtReply_keeps) | (with_reducible apply post_keeps) | (with_reducible apply OnNext.next)
    | (with_reducible apply OnNext.fault) | split)

theorem recoveryRestart_keeps {tch : List Field} {s0 : State} (s : State) (hs : Keeps tch s0 s)
    (hw : Within [.glb, .boot, .ivory] tch := by exact Within.of (by assumption) rfl) :
    Keeps tch s0 (recoveryRestart s) := by
  unfold recoveryRestart
  try dsimp only
  repeat' (first
    | (with_reducible assumption)
    | exact hw.of rfl
    | exact rfl
    | exact Nat.le_refl _
    | exact Nat.le_succ _
    | (with_reducible apply withGlb_keeps)
    | (with_reducible apply toStep_keeps)
    | (with_reducible apply withIvory_keeps)
    | split
    | (intro _; intros; try dsimp only))

theorem programDone_keeps {tch : List Field} {s0 : State} (ok : Bool) (s : State) (hs : Keeps tch s0 s)
    (hw : Within [.glb, .boot, .ivory, .hfifo, .msix, .cdie, .hif] tch := by exact Within.of (by assumption) rfl) :
    Keeps tch s0 (programDone ok s) := by
  unfold programDone
  try dsimp only
  repeat' (first
    | (with_reducible assumption) | exact hw.of rfl | exact rfl | exact Nat.le_refl _
    | (with_reducible apply withIvory_keeps) | (with_reducible apply mgmtReply_keeps)
    | (with_reducible apply post_keeps) | (with_reducible apply recoveryRestart_keeps)
    | (with_reducible apply withGlb_keeps) | split)

theorem execFwProgramDone_keeps {tch : List Field} {s0 : State} (ok : Bool) (s : State) (hs : Keeps tch s0 s)
    (hw : Within [.glb, .boot, .ivory, .hfifo, .msix, .cdie, .hif] tch := by exact Within.of (by assumption) rfl) :
    OnNext (Keeps tch s0) (execFwProgramDone ok s) := by
  unfold execFwProgramDone
  try dsimp only
  repeat' (first
    | (with_reducible assumption) | exact hw.of rfl | (with_reducible apply programDone_keeps)
    | (with_reducible apply OnNext.next) | (with_reducible apply OnNext.fault) | split)

theorem execActivateFirmware_keeps {tch : List Field} {s0 : State} (s : State) (hs : Keeps tch s0 s)
    (hw : Within [.glb] tch := by exact Within.of (by assumption) rfl) :
    OnNext (Keeps tch s0) (execActivateFirmware s) := by
  unfold execActivateFirmware
  try dsimp only
  repeat' (first
    | (with_reducible assumption) | exact hw.of rfl | exact rfl | (with_reducible apply withGlb_keeps)
    | (with_reducible apply OnNext.next) | (with_reducible apply OnNext.fault) | split)

theorem execRecoveryGo_keeps {tch : List Field} {s0 : State} (addr : Nat) (len : Nat) (s : State)
    (hs : Keeps tch s0 s)
    (hw : Within [.glb, .regs] tch := by exact Within.of (by assumption) rfl) :
    OnNext (Keeps tch s0) (execRecoveryGo addr len s) := by
  unfold execRecoveryGo
  try dsimp only
  repeat' (first
    | (with_reducible assumption) | exact hw.of rfl | exact rfl | (with_reducible apply State.setReg_keeps)
    | (with_reducible apply withGlb_keeps) | (with_reducible apply OnNext.next) | (with_reducible apply OnNext.fault)
    | split)

theorem execRecoveryProgramDone_keeps {tch : List Field} {s0 : State} (img : Option FwImage) (s : State)
    (hs : Keeps tch s0 s)
    (hw : Within [.glb, .boot, .ivory, .hfifo, .msix, .cdie, .hif] tch := by exact Within.of (by assumption) rfl) :
    OnNext (Keeps tch s0) (execRecoveryProgramDone img s) := by
  unfold execRecoveryProgramDone
  try dsimp only
  repeat' (first
    | (with_reducible assumption) | exact hw.of rfl | exact rfl | exact Nat.le_refl _
    | (with_reducible apply withGlb_keeps) | (with_reducible apply recoveryRestart_keeps)
    | (with_reducible apply withIvory_keeps) | (with_reducible apply programDone_keeps)
    | (with_reducible apply OnNext.next) | (with_reducible apply OnNext.fault) | split)

theorem drainRow_keeps {tch : List Field} {s0 : State} (pos : Nat) (x : Slot) (q : QInstr) (f : Fmt)
    (ld : Lay) (rnd : Nat) (dse : Option Nat) (n : Nat) (row : Nat) (col0 : Nat) (poison : Bool) (vals : List Nat)
    (s : State) (hs : Keeps tch s0 s)
    (hw : Within [.tile] tch := by exact Within.of (by assumption) rfl) :
    Keeps tch s0 (drainRow pos x q f ld rnd dse n row col0 poison vals s).1 := by
  unfold drainRow
  try dsimp only
  repeat' (first
    | (with_reducible assumption) | exact hw.of rfl | (with_reducible apply storeTile_keeps)
    | (with_reducible apply foldl_keeps) | split | (intro _; intros; try dsimp only))

theorem drainBlock_keeps {tch : List Field} {s0 : State} (pos : Nat) (x : Slot) (q : QInstr) (f : Fmt)
    (ld : Lay) (rnd : Nat) (dse : Option Nat) (m : Nat) (n : Nat) (i : Nat) (j : Nat) (arr : Nat) (bank : Nat)
    (s : State) (hs : Keeps tch s0 s)
    (hw : Within [.tile] tch := by exact Within.of (by assumption) rfl) :
    Keeps tch s0 (drainBlock pos x q f ld rnd dse m n i j arr bank s).1 := by
  unfold drainBlock
  refine foldl_inv (fun (x : State × Sticky) => Keeps tch s0 x.1) _ (fun x p h => ?_) _ _ hs
  exact drainRow_keeps _ _ _ _ _ _ _ _ _ _ _ _ _ h

theorem mmaBlock_keeps {tch : List Field} {s0 : State} (pos : Nat) (slot : Nat) (x : Slot) (q : QInstr)
    (p : MmaOp) (arrs : List Nat) (b : Nat) (s : State) (hs : Keeps tch s0 s)
    (hw : Within [.hfifo, .msix, .cdie, .hif, .disp, .tile] tch := by exact Within.of (by assumption) rfl) :
    Keeps tch s0 (mmaBlock pos slot x q p arrs b s).1 := by
  unfold mmaBlock
  try dsimp only
  repeat' (first
    | (with_reducible assumption) | exact hw.of rfl | (with_reducible apply verifyTile_keeps)
    | (with_reducible apply State.updTile_keeps) | (with_reducible apply drainBlock_keeps)
    | (with_reducible apply foldl_keeps) | split | (intro _; intros; try dsimp only))

theorem countFreeze_keeps {tch : List Field} {s0 : State} (pos : Nat) (a : Nat) (n : Nat) (scaled : Bool)
    (s : State) (hs : Keeps tch s0 s)
    (hw : Within [.tile, .free] tch := by exact Within.of (by assumption) rfl) :
    Keeps tch s0 (countFreeze pos a n scaled s) := by
  unfold countFreeze
  try dsimp only
  repeat' (first
    | (with_reducible assumption) | exact hw.of rfl | (with_reducible apply State.draw_keeps)
    | (with_reducible apply State.updTile_keeps) | (with_reducible refine Keeps.of_snd (by assumption) ?_) | split
    | dsimp only)

theorem countBusy_keeps {tch : List Field} {s0 : State} (pos : Nat) (arrs : List Nat) (p : MmaOp)
    (s : State) (hs : Keeps tch s0 s)
    (hw : Within [.tile, .free] tch := by exact Within.of (by assumption) rfl) :
    Keeps tch s0 (countBusy pos arrs p s) := by
  unfold countBusy
  try dsimp only
  repeat' (first
    | (with_reducible assumption) | exact hw.of rfl | (with_reducible apply countFreeze_keeps)
    | (with_reducible apply State.updTile_keeps) | (with_reducible apply foldl_keeps) | split
    | (intro _; intros; try dsimp only))

theorem mmaRun_keeps {tch : List Field} {s0 : State} (pos : Nat) (slot : Nat) (x : Slot) (q : QInstr)
    (s : State) (hs : Keeps tch s0 s)
    (hw : Within [.hfifo, .msix, .cdie, .hif, .disp, .tile, .free] tch := by exact Within.of (by assumption) rfl) :
    Keeps tch s0 (mmaRun pos slot x q s).1 := by
  have g := foldl_inv (fun (y : State × Sticky) => Keeps tch s0 y.1) (fun acc b =>
      ((mmaBlock pos slot x q (MmaOp.of q.word q.sregs q.lregs) (x.maskArrays (MmaOp.of q.word q.sregs q.lregs).amask) b acc.1).1,
        acc.2 ||| (mmaBlock pos slot x q (MmaOp.of q.word q.sregs q.lregs) (x.maskArrays (MmaOp.of q.word q.sregs q.lregs).amask) b acc.1).2))
    (fun y p h => mmaBlock_keeps _ _ _ _ _ _ _ _ h) (List.range (MmaOp.of q.word q.sregs q.lregs).nblocks) (s, 0#4) hs
  exact countBusy_keeps _ _ _ _ g (hw.of rfl)

theorem drainRun_keeps {tch : List Field} {s0 : State} (pos : Nat) (x : Slot) (q : QInstr) (s : State)
    (hs : Keeps tch s0 s)
    (hw : Within [.tile] tch := by exact Within.of (by assumption) rfl) :
    Keeps tch s0 (drainRun pos x q s).1 := by
  unfold drainRun
  refine foldl_inv (fun (x : State × Sticky) => Keeps tch s0 x.1) _ (fun x p h => ?_) _ _ hs
  exact drainBlock_keeps _ _ _ _ _ _ _ _ _ _ _ _ _ _ h

theorem execMma_keeps {tch : List Field} {s0 : State} (pos : Nat) (slot : Nat) (s : State)
    (hs : Keeps tch s0 s)
    (hw : Within [.link, .hub, .sync, .xlt, .disp, .tile] tch := by exact Within.of (by assumption) rfl) :
    OnNext (Keeps tch s0) (execMma pos slot s) := by
  unfold execMma
  try dsimp only
  repeat' (first
    | (with_reducible assumption) | exact hw.of rfl | (with_reducible apply queueIssue_keeps)
    | (with_reducible apply OnNext.next) | (with_reducible apply OnNext.fault) | split)

theorem execMdrain_keeps {tch : List Field} {s0 : State} (pos : Nat) (slot : Nat) (s : State)
    (hs : Keeps tch s0 s)
    (hw : Within [.link, .hub, .sync, .xlt, .disp, .tile] tch := by exact Within.of (by assumption) rfl) :
    OnNext (Keeps tch s0) (execMdrain pos slot s) := by
  unfold execMdrain
  try dsimp only
  repeat' (first
    | (with_reducible assumption) | exact hw.of rfl | (with_reducible apply queueIssue_keeps)
    | (with_reducible apply OnNext.next) | (with_reducible apply OnNext.fault) | split)

theorem execMatrixInstrComplete_keeps {tch : List Field} {s0 : State} (pos : Nat) (slot : Nat) (id : Nat)
    (s : State) (hs : Keeps tch s0 s)
    (hw : Within [.link, .hub, .hfifo, .msix, .sync, .xlt, .cdie, .hif, .disp, .tile,
    .free] tch := by exact Within.of (by assumption) rfl) :
    OnNext (Keeps tch s0) (execMatrixInstrComplete pos slot id s) := by
  unfold execMatrixInstrComplete
  try dsimp only
  repeat' (first
    | (with_reducible assumption) | exact hw.of rfl | (with_reducible apply mmaRun_keeps)
    | (with_reducible apply drainRun_keeps) | (with_reducible apply complete_keeps)
    | (with_reducible apply OnNext.next) | (with_reducible apply OnNext.fault) | split)

theorem warmBegin_keeps {tch : List Field} {s0 : State} (c : WarmCause) (s : State) (hs : Keeps tch s0 s)
    (hw : Within [.glb, .boot, .ivory, .hfifo, .msix, .sync, .cdie, .hif, .disp,
    .regs] tch := by exact Within.of (by assumption) rfl) :
    Keeps tch s0 (warmBegin c s) := by
  unfold warmBegin
  try dsimp only
  repeat' (first
    | (with_reducible assumption) | exact hw.of rfl | exact rfl | (with_reducible apply withGlb_keeps)
    | (with_reducible apply withDisp_keeps) | (with_reducible apply withBoot_keeps)
    | (with_reducible apply withSync_keeps) | (with_reducible apply withHif_keeps)
    | (with_reducible apply applyRecorded_keeps) | (with_reducible apply ivoryStarts_keeps) | split)

theorem execWarmreset_keeps {tch : List Field} {s0 : State} (who : Agent) (key : Nat) (s : State)
    (hs : Keeps tch s0 s)
    (hw : Within [.glb, .hfifo, .msix, .cdie, .hif] tch := by exact Within.of (by assumption) rfl) :
    OnNext (Keeps tch s0) (execWarmreset who key s) := by
  unfold execWarmreset
  try dsimp only
  repeat' (first
    | (with_reducible assumption) | exact hw.of rfl | exact rfl | (with_reducible apply pfWrite_keeps)
    | (with_reducible apply setupRefused_keeps) | (with_reducible apply withGlb_keeps)
    | (with_reducible apply OnNext.next) | (with_reducible apply OnNext.fault) | split
    | (intro _; intros; try dsimp only))

theorem execWarmResetBegin_keeps {tch : List Field} {s0 : State} (s : State) (hs : Keeps tch s0 s)
    (hw : Within [.glb, .boot, .ivory, .hfifo, .msix, .sync, .cdie, .hif, .disp,
    .regs] tch := by exact Within.of (by assumption) rfl) :
    OnNext (Keeps tch s0) (execWarmResetBegin s) := by
  unfold execWarmResetBegin
  try dsimp only
  repeat' (first
    | (with_reducible assumption) | exact hw.of rfl | (with_reducible apply warmBegin_keeps)
    | (with_reducible apply OnNext.next) | (with_reducible apply OnNext.fault) | split)

theorem execHubHeartbeatLoss_keeps {tch : List Field} {s0 : State} (s : State) (hs : Keeps tch s0 s)
    (hw : Within [.glb, .boot, .ivory, .hfifo, .msix, .sync, .cdie, .hif, .disp,
    .regs] tch := by exact Within.of (by assumption) rfl) :
    OnNext (Keeps tch s0) (execHubHeartbeatLoss s) := by
  unfold execHubHeartbeatLoss
  try dsimp only
  repeat' (first
    | (with_reducible assumption) | exact hw.of rfl | exact rfl | (with_reducible apply mgmtReply_keeps)
    | (with_reducible apply endService_keeps) | (with_reducible apply warmBegin_keeps)
    | (with_reducible apply withGlb_keeps) | (with_reducible apply OnNext.next) | (with_reducible apply OnNext.fault)
    | split)

theorem execHostFailWarmReset_keeps {tch : List Field} {s0 : State} (s : State) (hs : Keeps tch s0 s)
    (hw : Within [.glb, .boot, .ivory, .hfifo, .msix, .sync, .cdie, .hif, .disp,
    .regs] tch := by exact Within.of (by assumption) rfl) :
    OnNext (Keeps tch s0) (execHostFailWarmReset s) := by
  unfold execHostFailWarmReset
  try dsimp only
  repeat' (first
    | (with_reducible assumption) | exact hw.of rfl | (with_reducible apply warmBegin_keeps)
    | (with_reducible apply OnNext.next) | (with_reducible apply OnNext.fault) | split)

theorem warmFence_keeps {tch : List Field} {s0 : State} (p : Nat) (s : State) (hs : Keeps tch s0 s)
    (hw : Within [.glb, .link] tch := by exact Within.of (by assumption) rfl) :
    Keeps tch s0 (warmFence p s) := by
  unfold warmFence
  try dsimp only
  repeat' (first
    | (with_reducible assumption) | exact hw.of rfl | exact rfl | (with_reducible apply State.updLink_keeps)
    | (with_reducible apply withGlb_keeps) | split)

theorem tiersHome_keeps {tch : List Field} {s0 : State} (s : State) (hs : Keeps tch s0 s)
    (hw : Within [.mem, .stack, .pool, .tier, .cdie] tch := by exact Within.of (by assumption) rfl) :
    Keeps tch s0 (tiersHome s) := by
  unfold tiersHome
  try dsimp only
  repeat' (first
    | (with_reducible assumption) | exact hw.of rfl | (with_reducible apply recallTile_keeps)
    | (with_reducible apply foldl_keeps) | split | (intro _; intros; try dsimp only))

theorem execWarmResetFenced_keeps {tch : List Field} {s0 : State} (s : State) (hs : Keeps tch s0 s)
    (hw : Within [.glb, .link, .hub, .sync, .counted, .mem, .stack, .pool, .tier, .cdie, .pwr,
    .tile] tch := by exact Within.of (by assumption) rfl) :
    OnNext (Keeps tch s0) (execWarmResetFenced s) := by
  unfold execWarmResetFenced
  try dsimp only
  repeat' (first
    | (with_reducible assumption) | exact hw.of rfl | (with_reducible exact rfl)
    | (with_reducible apply warmFence_keeps) | (with_reducible apply tiersHome_keeps)
    | (with_reducible apply withHub_keeps) | (with_reducible apply toQual_keeps)
    | (with_reducible apply withSync_keeps) | (with_reducible apply withCounted_keeps)
    | (with_reducible apply withGlb_keeps) | (with_reducible apply foldl_keeps) | (with_reducible apply OnNext.next)
    | (with_reducible apply OnNext.fault) | split | (intro _; intros; try dsimp only))

theorem saveJournal_keeps {tch : List Field} {s0 : State} (s : State) (hs : Keeps tch s0 s)
    (hw : Within [.tier] tch := by exact Within.of (by assumption) rfl) :
    Keeps tch s0 (saveJournal s) := by
  unfold saveJournal
  try dsimp only
  repeat' (first
    | (with_reducible assumption) | exact hw.of rfl | (with_reducible apply State.updTdie_keeps)
    | (with_reducible apply foldl_keeps) | split | (intro _; intros; try dsimp only))

theorem execWarmResetHubReady_keeps {tch : List Field} {s0 : State} (s : State) (hs : Keeps tch s0 s)
    (hw : Within [.glb, .hub, .hfifo, .msix, .mem, .stack, .pool, .tier, .cdie, .hif,
    .free] tch := by exact Within.of (by assumption) rfl) :
    OnNext (Keeps tch s0) (execWarmResetHubReady s) := by
  unfold execWarmResetHubReady
  try dsimp only
  repeat' (first
    | (with_reducible assumption) | exact hw.of rfl | exact rfl | (with_reducible apply withHub_keeps)
    | (with_reducible apply flushEnd_keeps) | (with_reducible apply flushStart_keeps)
    | (with_reducible apply saveJournal_keeps) | (with_reducible apply withGlb_keeps)
    | (with_reducible apply OnNext.next) | (with_reducible apply OnNext.fault) | split)

theorem hostReset_keeps {tch : List Field} {s0 : State} (s : State) (hs : Keeps tch s0 s)
    (hw : Within [.msix, .hif, .sess, .disp] tch := by exact Within.of (by assumption) rfl) :
    Keeps tch s0 (hostReset s) := by
  unfold hostReset
  try dsimp only
  repeat' (first
    | (with_reducible assumption) | exact hw.of rfl | (with_reducible apply withHif_keeps)
    | (with_reducible apply withDisp_keeps) | (with_reducible apply withMsix_keeps)
    | (with_reducible apply withSess_keeps) | split)

theorem diesReset_keeps {tch : List Field} {s0 : State} (s : State) (hs : Keeps tch s0 s)
    (hw : Within [.stack, .pool, .tier, .xlt, .core, .cdie, .rna, .tile,
    .regs] tch := by exact Within.of (by assumption) rfl) :
    Keeps tch s0 (diesReset s) := by
  unfold diesReset
  try dsimp only
  repeat' (first
    | (with_reducible assumption) | exact hw.of rfl | (with_reducible apply withTile_keeps)
    | (with_reducible apply State.updPool_keeps) | (with_reducible apply State.updCdie_keeps)
    | (with_reducible apply resetCoreDie_keeps) | (with_reducible apply withStack_keeps)
    | (with_reducible apply withXlt_keeps) | (with_reducible apply withRna_keeps)
    | (with_reducible apply withTier_keeps) | (with_reducible apply foldl_keeps) | split
    | (intro _; intros; try dsimp only))

theorem execWarmResetDiesReset_keeps {tch : List Field} {s0 : State} (adv : List WidthAdv) (s : State)
    (hs : Keeps tch s0 s)
    (hw : Within [.glb, .repair, .boot, .ivory, .link, .hub, .hfifo, .msix, .sync, .counted, .mem, .stack, .pool,
    .tier, .xlt, .core, .cdie, .hif, .sess, .disp, .rna, .pwr, .tile,
    .regs] tch := by exact Within.of (by assumption) rfl) :
    OnNext (Keeps tch s0) (execWarmResetDiesReset adv s) := by
  unfold execWarmResetDiesReset
  try dsimp only
  repeat' (first
    | (with_reducible assumption) | exact hw.of rfl | exact rfl | (with_reducible apply hostReset_keeps)
    | (with_reducible apply diesReset_keeps) | (with_reducible apply withGlb_keeps)
    | (with_reducible apply railOn_keeps) | (with_reducible apply trainAll_keeps)
    | (with_reducible apply State.updLink_keeps) | (with_reducible apply State.setReg_keeps)
    | (with_reducible apply withDisp_keeps) | (with_reducible apply foldl_keeps) | (with_reducible apply OnNext.next)
    | (with_reducible apply OnNext.fault) | split | (intro _; intros; try dsimp only))

theorem execWarmResetHbmTrained_keeps {tch : List Field} {s0 : State} (failed : List Nat) (s : State)
    (hs : Keeps tch s0 s)
    (hw : Within [.glb, .repair, .boot, .ivory, .link, .hub, .hfifo, .msix, .sync, .stack, .memc, .xlt, .cdie, .hif,
    .disp, .pwr, .tile] tch := by exact Within.of (by assumption) rfl) :
    OnNext (Keeps tch s0) (execWarmResetHbmTrained failed s) := by
  unfold execWarmResetHbmTrained
  try dsimp only
  repeat' (first
    | (with_reducible assumption) | exact hw.of rfl | exact rfl | (with_reducible apply placeFrames_keeps)
    | (with_reducible apply mapAtStart_keeps) | (with_reducible apply takeMode_keeps)
    | (with_reducible apply withGlb_keeps) | (with_reducible apply OnNext.next) | (with_reducible apply OnNext.fault)
    | split)

theorem execWarmResetHbmInitialised_keeps {tch : List Field} {s0 : State} (s : State) (hs : Keeps tch s0 s)
    (hw : Within [.glb, .mem] tch := by exact Within.of (by assumption) rfl) :
    OnNext (Keeps tch s0) (execWarmResetHbmInitialised s) := by
  unfold execWarmResetHbmInitialised
  try dsimp only
  repeat' (first
    | (with_reducible assumption) | exact hw.of rfl | exact rfl | (with_reducible apply withMem_keeps)
    | (with_reducible apply withGlb_keeps) | (with_reducible apply OnNext.next) | (with_reducible apply OnNext.fault)
    | (with_reducible apply RamOk.rfl') | (with_reducible apply RamOk_empty) | split
    | (intro _; intros; try dsimp only))

theorem execWarmResetTierRemounted_keeps {tch : List Field} {s0 : State} (bad : List Nat) (s : State)
    (hs : Keeps tch s0 s)
    (hw : Within [.glb, .repair, .boot, .link, .hub, .hfifo, .msix, .sync, .tier, .xlt, .cdie, .hif, .disp, .pwr,
    .tile] tch := by exact Within.of (by assumption) rfl) :
    OnNext (Keeps tch s0) (execWarmResetTierRemounted bad s) := by
  unfold execWarmResetTierRemounted
  try dsimp only
  repeat' (first
    | (with_reducible assumption) | exact hw.of rfl | exact rfl | (with_reducible apply mountDie_keeps)
    | (with_reducible apply withDisp_keeps) | (with_reducible apply State.updTdie_keeps)
    | (with_reducible apply post_keeps) | (with_reducible apply withGlb_keeps) | (with_reducible apply foldl_keeps)
    | (with_reducible apply OnNext.next) | (with_reducible apply OnNext.fault) | split
    | (intro _; intros; try dsimp only))

theorem execWarmResetRuntimeStarted_keeps {tch : List Field} {s0 : State} (passed : List Nat) (s : State)
    (hs : Keeps tch s0 s)
    (hw : Within [.glb, .repair, .boot, .link, .hub, .hfifo, .msix, .sync, .xlt, .cdie, .hif, .disp, .pwr,
    .tile] tch := by exact Within.of (by assumption) rfl) :
    OnNext (Keeps tch s0) (execWarmResetRuntimeStarted passed s) := by
  unfold execWarmResetRuntimeStarted
  try dsimp only
  repeat' (first
    | (with_reducible assumption) | exact hw.of rfl | exact rfl | (with_reducible apply runtimeStarts_keeps)
    | (with_reducible apply withBoot_keeps) | (with_reducible apply withGlb_keeps)
    | (with_reducible apply OnNext.next) | (with_reducible apply OnNext.fault) | split)

theorem execWarmResetReady_keeps {tch : List Field} {s0 : State} (s : State) (hs : Keeps tch s0 s)
    (hw : Within [.glb, .boot, .ivory, .hfifo, .msix, .mem, .stack, .memc, .pool, .tier, .cdie, .hif, .sess, .disp,
    .pwr, .tile] tch := by exact Within.of (by assumption) rfl) :
    OnNext (Keeps tch s0) (execWarmResetReady s) := by
  unfold execWarmResetReady
  try dsimp only
  repeat' (first
    | (with_reducible assumption) | exact hw.of rfl | (with_reducible apply withSess_keeps)
    | (with_reducible apply setReady_keeps) | (with_reducible apply sealNow_keeps)
    | (with_reducible apply recordSetup_keeps) | (with_reducible apply OnNext.next)
    | (with_reducible apply OnNext.fault) | split)

theorem execIvoryDieStop_keeps {tch : List Field} {s0 : State} (s : State) (hs : Keeps tch s0 s)
    (hw : Within [.glb, .boot, .disp] tch := by exact Within.of (by assumption) rfl) :
    OnNext (Keeps tch s0) (execIvoryDieStop s) := by
  unfold execIvoryDieStop
  try dsimp only
  repeat' (first
    | (with_reducible assumption) | exact hw.of rfl | (with_reducible apply endService_keeps)
    | (with_reducible apply withBoot_keeps) | (with_reducible apply OnNext.next)
    | (with_reducible apply OnNext.fault) | split)

theorem spdm_keeps {tch : List Field} {s0 : State} (k : State → MgmtReply) (s : State) (hs : Keeps tch s0 s)
    (hw : Within [.ivory] tch := by exact Within.of (by assumption) rfl) :
    Keeps tch s0 (spdm k s) := by
  unfold spdm
  try dsimp only
  repeat' (first
    | (with_reducible assumption) | exact hw.of rfl | (with_reducible apply mgmtReply_keeps) | split)

theorem execSpdmGetCertificate_keeps {tch : List Field} {s0 : State} (slot : Nat) (off : Nat) (len : Nat)
    (s : State) (hs : Keeps tch s0 s)
    (hw : Within [.ivory] tch := by exact Within.of (by assumption) rfl) :
    OnNext (Keeps tch s0) (execSpdmGetCertificate slot off len s) := by
  unfold execSpdmGetCertificate
  try dsimp only
  repeat' (first
    | (with_reducible assumption) | exact hw.of rfl | (with_reducible apply spdm_keeps)
    | (with_reducible apply OnNext.next) | (with_reducible apply OnNext.fault) | split)

theorem execSpdmChallenge_keeps {tch : List Field} {s0 : State} (req : List Byte) (s : State)
    (hs : Keeps tch s0 s)
    (hw : Within [.ivory] tch := by exact Within.of (by assumption) rfl) :
    OnNext (Keeps tch s0) (execSpdmChallenge req s) := by
  unfold execSpdmChallenge
  try dsimp only
  repeat' (first
    | (with_reducible assumption) | exact hw.of rfl | (with_reducible apply spdm_keeps)
    | (with_reducible apply OnNext.next) | (with_reducible apply OnNext.fault) | split)

theorem execSpdmGetMeasurements_keeps {tch : List Field} {s0 : State} (index : Nat) (req : List Byte)
    (s : State) (hs : Keeps tch s0 s)
    (hw : Within [.ivory] tch := by exact Within.of (by assumption) rfl) :
    OnNext (Keeps tch s0) (execSpdmGetMeasurements index req s) := by
  unfold execSpdmGetMeasurements
  try dsimp only
  repeat' (first
    | (with_reducible assumption) | exact hw.of rfl | (with_reducible apply spdm_keeps)
    | (with_reducible apply OnNext.next) | (with_reducible apply OnNext.fault) | split)

theorem execSpdmKeyExchange_keeps {tch : List Field} {s0 : State} (req : List Byte) (s : State)
    (hs : Keeps tch s0 s)
    (hw : Within [.ivory] tch := by exact Within.of (by assumption) rfl) :
    OnNext (Keeps tch s0) (execSpdmKeyExchange req s) := by
  unfold execSpdmKeyExchange
  try dsimp only
  repeat' (first
    | (with_reducible assumption) | exact hw.of rfl | (with_reducible apply spdm_keeps)
    | (with_reducible apply OnNext.next) | (with_reducible apply OnNext.fault) | split)

theorem execSpdmVendorDefinedRequest_keeps {tch : List Field} {s0 : State} (vendor : Nat) (code : Nat)
    (off : Nat) (len : Nat) (s : State) (hs : Keeps tch s0 s)
    (hw : Within [.ivory] tch := by exact Within.of (by assumption) rfl) :
    OnNext (Keeps tch s0) (execSpdmVendorDefinedRequest vendor code off len s) := by
  unfold execSpdmVendorDefinedRequest
  try dsimp only
  repeat' (first
    | (with_reducible assumption) | exact hw.of rfl | (with_reducible apply spdm_keeps)
    | (with_reducible apply OnNext.next) | (with_reducible apply OnNext.fault) | split)

theorem execIdeKmRequest_keeps {tch : List Field} {s0 : State} (stream : Nat) (lo : Nat) (hi : Nat)
    (key : BitVec 256) (s : State) (hs : Keeps tch s0 s)
    (hw : Within [.ivory] tch := by exact Within.of (by assumption) rfl) :
    OnNext (Keeps tch s0) (execIdeKmRequest stream lo hi key s) := by
  unfold execIdeKmRequest
  try dsimp only
  repeat' (first
    | (with_reducible assumption) | exact hw.of rfl | exact Nat.le_refl _ | (with_reducible apply mgmtReply_keeps)
    | (with_reducible apply withIvory_keeps) | (with_reducible apply OnNext.next)
    | (with_reducible apply OnNext.fault) | split)

theorem execMctpControl_keeps {tch : List Field} {s0 : State} (eid : Nat) (s : State) (hs : Keeps tch s0 s)
    (hw : Within [.ivory] tch := by exact Within.of (by assumption) rfl) :
    OnNext (Keeps tch s0) (execMctpControl eid s) := by
  unfold execMctpControl
  try dsimp only
  repeat' (first
    | (with_reducible assumption) | exact hw.of rfl | exact Nat.le_refl _ | (with_reducible apply mgmtReply_keeps)
    | (with_reducible apply withIvory_keeps) | (with_reducible apply OnNext.next)
    | (with_reducible apply OnNext.fault) | split)

theorem execPldmGetSensorReading_keeps {tch : List Field} {s0 : State} (sensor : Sensor) (s : State)
    (hs : Keeps tch s0 s)
    (hw : Within [.ivory] tch := by exact Within.of (by assumption) rfl) :
    OnNext (Keeps tch s0) (execPldmGetSensorReading sensor s) := by
  unfold execPldmGetSensorReading
  try dsimp only
  repeat' (first
    | (with_reducible assumption) | exact hw.of rfl | (with_reducible apply mgmtReply_keeps)
    | (with_reducible apply OnNext.next) | (with_reducible apply OnNext.fault) | split)

theorem execPldmSetNumericEffecter_keeps {tch : List Field} {s0 : State} (limit : Nat) (s : State)
    (hs : Keeps tch s0 s)
    (hw : Within [.ivory, .hfifo, .msix, .cdie, .hif] tch := by exact Within.of (by assumption) rfl) :
    OnNext (Keeps tch s0) (execPldmSetNumericEffecter limit s) := by
  unfold execPldmSetNumericEffecter
  try dsimp only
  repeat' (first
    | (with_reducible assumption) | exact hw.of rfl | exact Nat.le_refl _ | (with_reducible apply mgmtReply_keeps)
    | (with_reducible apply withIvory_keeps) | (with_reducible apply post_keeps) | (with_reducible apply OnNext.next)
    | (with_reducible apply OnNext.fault) | split)

theorem mboxSubmit_keeps {tch : List Field} {s0 : State} (who : Agent) (s : State) (hs : Keeps tch s0 s)
    (hw : Within [.glb, .hfifo, .msix, .cdie, .hif] tch := by exact Within.of (by assumption) rfl) :
    Keeps tch s0 (mboxSubmit who s) := by
  unfold mboxSubmit
  try dsimp only
  repeat' (first
    | (with_reducible assumption) | exact hw.of rfl | exact rfl | (with_reducible apply setupRefused_keeps)
    | (with_reducible apply withGlb_keeps) | split)

theorem ownerRequest_keeps {tch : List Field} {s0 : State} (who : Agent) (cmd : Nat) (req : Option OwnerReq)
    (effect : OwnerReq → State → State) (s : State) (hs : Keeps tch s0 s)
    (heffect : ∀ b0 u, Keeps tch s0 u → Keeps tch s0 (effect b0 u))
    (hw : Within [.glb, .ivory, .hfifo, .msix, .cdie, .hif] tch := by exact Within.of (by assumption) rfl) :
    Keeps tch s0 (ownerRequest who cmd req effect s) := by
  unfold ownerRequest
  try dsimp only
  repeat' (first
    | (with_reducible assumption) | exact hw.of rfl | exact rfl | exact Nat.le_refl _
    | (with_reducible apply pfWrite_keeps) | (with_reducible apply setupRefused_keeps)
    | (with_reducible apply withGlb_keeps) | (with_reducible apply withIvory_keeps)
    | (with_reducible apply post_keeps) | (with_reducible apply heffect) | split | (intro _; intros; try dsimp only))

theorem execOwnerSet_keeps {tch : List Field} {s0 : State} (who : Agent) (req : Option OwnerReq) (s : State)
    (hs : Keeps tch s0 s)
    (hw : Within [.glb, .ivory, .hfifo, .msix, .cdie, .hif] tch := by exact Within.of (by assumption) rfl) :
    OnNext (Keeps tch s0) (execOwnerSet who req s) := by
  unfold execOwnerSet
  try dsimp only
  repeat' (first
    | (with_reducible assumption) | exact hw.of rfl | exact Nat.le_refl _ | (with_reducible apply ownerRequest_keeps)
    | (with_reducible apply withIvory_keeps) | (with_reducible apply OnNext.next)
    | (with_reducible apply OnNext.fault) | split | (intro _; intros; try dsimp only))

theorem execSetHardPower_keeps {tch : List Field} {s0 : State} (who : Agent) (req : Option OwnerReq)
    (s : State) (hs : Keeps tch s0 s)
    (hw : Within [.glb, .ivory, .hfifo, .msix, .cdie, .hif] tch := by exact Within.of (by assumption) rfl) :
    OnNext (Keeps tch s0) (execSetHardPower who req s) := by
  unfold execSetHardPower
  try dsimp only
  repeat' (first
    | (with_reducible assumption) | exact hw.of rfl | exact Nat.le_refl _ | (with_reducible apply ownerRequest_keeps)
    | (with_reducible apply withIvory_keeps) | (with_reducible apply OnNext.next)
    | (with_reducible apply OnNext.fault) | split | (intro _; intros; try dsimp only))

theorem execSetThermal_keeps {tch : List Field} {s0 : State} (who : Agent) (req : Option OwnerReq)
    (s : State) (hs : Keeps tch s0 s)
    (hw : Within [.glb, .ivory, .hfifo, .msix, .cdie, .hif] tch := by exact Within.of (by assumption) rfl) :
    OnNext (Keeps tch s0) (execSetThermal who req s) := by
  unfold execSetThermal
  try dsimp only
  repeat' (first
    | (with_reducible assumption) | exact hw.of rfl | exact Nat.le_refl _ | (with_reducible apply ownerRequest_keeps)
    | (with_reducible apply withIvory_keeps) | (with_reducible apply OnNext.next)
    | (with_reducible apply OnNext.fault) | split | (intro _; intros; try dsimp only))

theorem execSetPartition_keeps {tch : List Field} {s0 : State} (who : Agent) (req : Option OwnerReq)
    (s : State) (hs : Keeps tch s0 s)
    (hw : Within [.glb, .ivory, .hfifo, .msix, .cdie, .hif] tch := by exact Within.of (by assumption) rfl) :
    OnNext (Keeps tch s0) (execSetPartition who req s) := by
  unfold execSetPartition
  try dsimp only
  repeat' (first
    | (with_reducible assumption) | exact hw.of rfl | exact Nat.le_refl _ | (with_reducible apply ownerRequest_keeps)
    | (with_reducible apply withIvory_keeps) | (with_reducible apply OnNext.next)
    | (with_reducible apply OnNext.fault) | split | (intro _; intros; try dsimp only))

theorem execDebugUnlock_keeps {tch : List Field} {s0 : State} (who : Agent) (req : Option OwnerReq)
    (s : State) (hs : Keeps tch s0 s)
    (hw : Within [.glb, .ivory, .hfifo, .msix, .cdie, .hif] tch := by exact Within.of (by assumption) rfl) :
    OnNext (Keeps tch s0) (execDebugUnlock who req s) := by
  unfold execDebugUnlock
  try dsimp only
  repeat' (first
    | (with_reducible assumption) | exact hw.of rfl | (with_reducible apply ownerRequest_keeps)
    | (with_reducible apply setDebug_keeps) | (with_reducible apply OnNext.next)
    | (with_reducible apply OnNext.fault) | split | (intro _; intros; try dsimp only))

theorem execDebugLock_keeps {tch : List Field} {s0 : State} (who : Agent) (req : Option OwnerReq)
    (s : State) (hs : Keeps tch s0 s)
    (hw : Within [.glb, .ivory, .hfifo, .msix, .cdie, .hif] tch := by exact Within.of (by assumption) rfl) :
    OnNext (Keeps tch s0) (execDebugLock who req s) := by
  unfold execDebugLock
  try dsimp only
  repeat' (first
    | (with_reducible assumption) | exact hw.of rfl | (with_reducible apply ownerRequest_keeps)
    | (with_reducible apply setDebug_keeps) | (with_reducible apply OnNext.next)
    | (with_reducible apply OnNext.fault) | split | (intro _; intros; try dsimp only))

theorem deliver_keeps {tch : List Field} {s0 : State} (d : Nat) (n : Nat) (i : Nat) (s : State)
    (hs : Keeps tch s0 s)
    (hw : Within [.cdie] tch := by exact Within.of (by assumption) rfl) :
    Keeps tch s0 (deliver d n i s) := by
  unfold deliver
  try dsimp only
  repeat' (first
    | (with_reducible assumption) | exact hw.of rfl | (with_reducible apply State.updCdie_keeps)
    | (with_reducible apply State.updSrc_keeps) | split)

theorem withdraw_keeps {tch : List Field} {s0 : State} (d : Nat) (s : State) (hs : Keeps tch s0 s)
    (hw : Within [.cdie] tch := by exact Within.of (by assumption) rfl) :
    Keeps tch s0 (withdraw d s) := by
  unfold withdraw
  try dsimp only
  repeat' (first
    | (with_reducible assumption) | exact hw.of rfl | (with_reducible apply State.updSrc_keeps)
    | (with_reducible apply foldl_keeps) | split | (intro _; intros; try dsimp only))

theorem execRouterSourceEvent_keeps {tch : List Field} {s0 : State} (die : Nat) (src : Nat) (s : State)
    (hs : Keeps tch s0 s)
    (hw : Within [.cdie] tch := by exact Within.of (by assumption) rfl) :
    OnNext (Keeps tch s0) (execRouterSourceEvent die src s) := by
  unfold execRouterSourceEvent
  try dsimp only
  repeat' (first
    | (with_reducible assumption) | exact hw.of rfl | (with_reducible apply routerEvent_keeps)
    | (with_reducible apply OnNext.next) | (with_reducible apply OnNext.fault) | split)

theorem execRouterTimeExpiry_keeps {tch : List Field} {s0 : State} (die : Nat) (src : Nat) (s : State)
    (hs : Keeps tch s0 s)
    (hw : Within [.cdie] tch := by exact Within.of (by assumption) rfl) :
    OnNext (Keeps tch s0) (execRouterTimeExpiry die src s) := by
  unfold execRouterTimeExpiry
  try dsimp only
  repeat' (first
    | (with_reducible assumption) | exact hw.of rfl | (with_reducible apply State.updSrc_keeps)
    | (with_reducible apply OnNext.next) | (with_reducible apply OnNext.fault) | split)

theorem execRouterDelivery_keeps {tch : List Field} {s0 : State} (die : Nat) (s : State) (hs : Keeps tch s0 s)
    (hw : Within [.cdie] tch := by exact Within.of (by assumption) rfl) :
    OnNext (Keeps tch s0) (execRouterDelivery die s) := by
  unfold execRouterDelivery
  try dsimp only
  repeat' (first
    | (with_reducible assumption) | exact hw.of rfl | (with_reducible apply deliver_keeps)
    | (with_reducible apply OnNext.next) | (with_reducible apply OnNext.fault) | split)

theorem execEvtIclaimRead_keeps {tch : List Field} {s0 : State} (core : Nat) (of : Nat) (s : State)
    (hs : Keeps tch s0 s)
    (hw : Within [.cdie, .replies] tch := by exact Within.of (by assumption) rfl) :
    OnNext (Keeps tch s0) (execEvtIclaimRead core of s) := by
  unfold execEvtIclaimRead
  try dsimp only
  repeat' (first
    | (with_reducible assumption) | exact hw.of rfl | (with_reducible apply reply_keeps)
    | (with_reducible apply State.updSrc_keeps) | (with_reducible apply withdraw_keeps)
    | (with_reducible apply OnNext.next) | (with_reducible apply OnNext.fault) | split)

theorem execEvtIclaimWrite_keeps {tch : List Field} {s0 : State} (core : Nat) (of : Nat) (v : Word)
    (s : State) (hs : Keeps tch s0 s)
    (hw : Within [.hfifo, .msix, .cdie, .hif] tch := by exact Within.of (by assumption) rfl) :
    OnNext (Keeps tch s0) (execEvtIclaimWrite core of v s) := by
  unfold execEvtIclaimWrite
  try dsimp only
  repeat' (first
    | (with_reducible assumption) | exact hw.of rfl | (with_reducible apply setupRefused_keeps)
    | (with_reducible apply State.updSrc_keeps) | (with_reducible apply deliver_keeps)
    | (with_reducible apply OnNext.next) | (with_reducible apply OnNext.fault) | split)

theorem execEvtIthrWrite_keeps {tch : List Field} {s0 : State} (core : Nat) (of : Nat) (v : Word)
    (s : State) (hs : Keeps tch s0 s)
    (hw : Within [.hfifo, .msix, .cdie, .hif, .regs] tch := by exact Within.of (by assumption) rfl) :
    OnNext (Keeps tch s0) (execEvtIthrWrite core of v s) := by
  unfold execEvtIthrWrite
  try dsimp only
  repeat' (first
    | (with_reducible assumption) | exact hw.of rfl | (with_reducible apply setupRefused_keeps)
    | (with_reducible apply withdraw_keeps) | (with_reducible apply State.setReg_keeps)
    | (with_reducible apply OnNext.next) | (with_reducible apply OnNext.fault) | split)

theorem execEvtIstatSet_keeps {tch : List Field} {s0 : State} (core : Nat) (die : Nat) (src : Nat)
    (s : State) (hs : Keeps tch s0 s)
    (hw : Within [.cdie] tch := by exact Within.of (by assumption) rfl) :
    OnNext (Keeps tch s0) (execEvtIstatSet core die src s) := by
  unfold execEvtIstatSet
  try dsimp only
  repeat' (first
    | (with_reducible assumption) | exact hw.of rfl | (with_reducible apply routerEvent_keeps)
    | (with_reducible apply OnNext.next) | (with_reducible apply OnNext.fault) | split)

theorem execEvtIstatPendingClear_keeps {tch : List Field} {s0 : State} (core : Nat) (die : Nat) (src : Nat)
    (s : State) (hs : Keeps tch s0 s)
    (hw : Within [.cdie] tch := by exact Within.of (by assumption) rfl) :
    OnNext (Keeps tch s0) (execEvtIstatPendingClear core die src s) := by
  unfold execEvtIstatPendingClear
  try dsimp only
  repeat' (first
    | (with_reducible assumption) | exact hw.of rfl | (with_reducible apply State.updSrc_keeps)
    | (with_reducible apply OnNext.next) | (with_reducible apply OnNext.fault) | split)

theorem execEvtIsrcWrite_keeps {tch : List Field} {s0 : State} (core : Nat) (die : Nat) (src : Nat)
    (v : Word) (s : State) (hs : Keeps tch s0 s)
    (hw : Within [.cdie, .regs] tch := by exact Within.of (by assumption) rfl) :
    OnNext (Keeps tch s0) (execEvtIsrcWrite core die src v s) := by
  unfold execEvtIsrcWrite
  try dsimp only
  repeat' (first
    | (with_reducible assumption) | exact hw.of rfl | (with_reducible apply withdraw_keeps)
    | (with_reducible apply State.setReg_keeps) | (with_reducible apply OnNext.next)
    | (with_reducible apply OnNext.fault) | split)

theorem execCoreFifoInsert_keeps {tch : List Field} {s0 : State} (die : Nat) (e : EvItem) (s : State)
    (hs : Keeps tch s0 s)
    (hw : Within [.cdie] tch := by exact Within.of (by assumption) rfl) :
    OnNext (Keeps tch s0) (execCoreFifoInsert die e s) := by
  unfold execCoreFifoInsert
  try dsimp only
  repeat' (first
    | (with_reducible assumption) | exact hw.of rfl | (with_reducible apply postCore_keeps)
    | (with_reducible apply OnNext.next) | (with_reducible apply OnNext.fault) | split)

theorem execEvtCpopRead_keeps {tch : List Field} {s0 : State} (core : Nat) (die : Nat) (s : State)
    (hs : Keeps tch s0 s)
    (hw : Within [.cdie, .replies] tch := by exact Within.of (by assumption) rfl) :
    OnNext (Keeps tch s0) (execEvtCpopRead core die s) := by
  unfold execEvtCpopRead
  try dsimp only
  repeat' (first
    | (with_reducible assumption) | exact hw.of rfl | (with_reducible apply reply_keeps)
    | (with_reducible apply State.updCdie_keeps) | (with_reducible apply OnNext.next)
    | (with_reducible apply OnNext.fault) | split)

theorem execEvtCctlFlush_keeps {tch : List Field} {s0 : State} (core : Nat) (die : Nat) (s : State)
    (hs : Keeps tch s0 s)
    (hw : Within [.cdie] tch := by exact Within.of (by assumption) rfl) :
    OnNext (Keeps tch s0) (execEvtCctlFlush core die s) := by
  unfold execEvtCctlFlush
  try dsimp only
  repeat' (first
    | (with_reducible assumption) | exact hw.of rfl | (with_reducible apply State.updCdie_keeps)
    | (with_reducible apply OnNext.next) | (with_reducible apply OnNext.fault) | split)

theorem execEvtCstatRead_keeps {tch : List Field} {s0 : State} (core : Nat) (die : Nat) (s : State)
    (hs : Keeps tch s0 s)
    (hw : Within [.cdie, .replies] tch := by exact Within.of (by assumption) rfl) :
    OnNext (Keeps tch s0) (execEvtCstatRead core die s) := by
  unfold execEvtCstatRead
  try dsimp only
  repeat' (first
    | (with_reducible assumption) | exact hw.of rfl | (with_reducible apply State.updCdie_keeps)
    | (with_reducible apply reply_keeps) | (with_reducible apply OnNext.next) | (with_reducible apply OnNext.fault)
    | split)

theorem execHostFifoInsert_keeps {tch : List Field} {s0 : State} (e : EvItem) (s : State)
    (hs : Keeps tch s0 s)
    (hw : Within [.hfifo, .msix, .hif] tch := by exact Within.of (by assumption) rfl) :
    OnNext (Keeps tch s0) (execHostFifoInsert e s) := by
  unfold execHostFifoInsert
  try dsimp only
  repeat' (first
    | (with_reducible assumption) | exact hw.of rfl | (with_reducible apply postHost_keeps)
    | (with_reducible apply OnNext.next) | (with_reducible apply OnNext.fault) | split)

theorem execEvtPopRead_keeps {tch : List Field} {s0 : State} (who : Agent) (s : State) (hs : Keeps tch s0 s)
    (hw : Within [.hfifo, .replies] tch := by exact Within.of (by assumption) rfl) :
    OnNext (Keeps tch s0) (execEvtPopRead who s) := by
  unfold execEvtPopRead
  try dsimp only
  repeat' (first
    | (with_reducible assumption) | exact hw.of rfl | (with_reducible apply reply_keeps)
    | (with_reducible apply withHfifo_keeps) | (with_reducible apply shutRead_keeps)
    | (with_reducible apply OnNext.next) | (with_reducible apply OnNext.fault) | split)

theorem execEvtCtlFlush_keeps {tch : List Field} {s0 : State} (who : Agent) (s : State) (hs : Keeps tch s0 s)
    (hw : Within [.hfifo, .msix, .cdie, .hif] tch := by exact Within.of (by assumption) rfl) :
    OnNext (Keeps tch s0) (execEvtCtlFlush who s) := by
  unfold execEvtCtlFlush
  try dsimp only
  repeat' (first
    | (with_reducible assumption) | exact hw.of rfl | (with_reducible apply pfWrite_keeps)
    | (with_reducible apply withHfifo_keeps) | (with_reducible apply OnNext.next)
    | (with_reducible apply OnNext.fault) | split | (intro _; intros; try dsimp only))

theorem execEvtLostRead_keeps {tch : List Field} {s0 : State} (who : Agent) (s : State) (hs : Keeps tch s0 s)
    (hw : Within [.hfifo, .replies] tch := by exact Within.of (by assumption) rfl) :
    OnNext (Keeps tch s0) (execEvtLostRead who s) := by
  unfold execEvtLostRead
  try dsimp only
  repeat' (first
    | (with_reducible assumption) | exact hw.of rfl | (with_reducible apply withHfifo_keeps)
    | (with_reducible apply reply_keeps) | (with_reducible apply shutRead_keeps) | (with_reducible apply OnNext.next)
    | (with_reducible apply OnNext.fault) | split)

theorem execEventSecondEnd_keeps {tch : List Field} {s0 : State} (s : State) (hs : Keeps tch s0 s)
    (hw : Within [.hfifo, .msix, .cdie, .hif] tch := by exact Within.of (by assumption) rfl) :
    OnNext (Keeps tch s0) (execEventSecondEnd s) := by
  unfold execEventSecondEnd
  try dsimp only
  repeat' (first
    | (with_reducible assumption) | exact hw.of rfl | (with_reducible apply withHfifo_keeps)
    | (with_reducible apply postHost_keeps) | (with_reducible apply State.updCdie_keeps)
    | (with_reducible apply postCore_keeps) | (with_reducible apply foldl_keeps) | (with_reducible apply OnNext.next)
    | (with_reducible apply OnNext.fault) | split | (intro _; intros; try dsimp only))

theorem after_keeps {tch : List Field} {s0 : State} (r : Res) (s : State) (hs : Keeps tch s0 s) (hr : OnNext
    (Keeps tch s0) r)
    (hw : Within [] tch := by exact Within.of (by assumption) rfl) :
    Keeps tch s0 (after r s) := by
  unfold after
  split
  · exact hr _ rfl
  · exact hs

theorem storeMasked_keeps {tch : List Field} {s0 : State} (off : Nat) (mask : Nat) (v : Nat) (s : State)
    (hs : Keeps tch s0 s)
    (hw : Within [.regs] tch := by exact Within.of (by assumption) rfl) :
    Keeps tch s0 (storeMasked off mask v s) := by
  unfold storeMasked
  try dsimp only
  repeat' (first
    | (with_reducible assumption) | exact hw.of rfl | (with_reducible apply State.setReg_keeps) | split)

theorem storeRwl_keeps {tch : List Field} {s0 : State} (who : Agent) (off : Nat) (v : Nat) (s : State)
    (hs : Keeps tch s0 s)
    (hw : Within [.hfifo, .msix, .cdie, .hif, .regs] tch := by exact Within.of (by assumption) rfl) :
    Keeps tch s0 (storeRwl who off v s) := by
  unfold storeRwl
  try dsimp only
  repeat' (first
    | (with_reducible assumption) | exact hw.of rfl | (with_reducible apply setupRefused_keeps)
    | (with_reducible apply State.setReg_keeps) | split)

theorem glbWrite_keeps {tch : List Field} {s0 : State} (who : Agent) (off : Nat) (v : Nat) (s : State)
    (hs : Keeps tch s0 s)
    (hw : Within [.glb, .ivory, .hfifo, .msix, .cdie, .hif, .regs] tch := by exact Within.of (by assumption) rfl) :
    Keeps tch s0 (glbWrite who off v s) := by
  unfold glbWrite
  try dsimp only
  repeat' (first
    | (with_reducible assumption) | exact hw.of rfl | (with_reducible apply after_keeps)
    | (with_reducible apply execSeal_keeps) | (with_reducible apply execWarmreset_keeps)
    | (with_reducible apply State.setReg_keeps) | (with_reducible apply storeMasked_keeps)
    | (with_reducible apply mboxSubmit_keeps) | (with_reducible apply execRecoveryGo_keeps) | split)

theorem sessCtlWrite_keeps {tch : List Field} {s0 : State} (who : Agent) (f : Nat) (v : Nat) (s : State)
    (hs : Keeps tch s0 s)
    (hw : Within [.link, .hub, .hfifo, .msix, .sync, .xlt, .cdie, .hif, .sess, .disp, .tile, .regs,
    .free] tch := by exact Within.of (by assumption) rfl) :
    Keeps tch s0 (sessCtlWrite who f v s) := by
  unfold sessCtlWrite
  try dsimp only
  repeat' (first
    | (with_reducible assumption) | exact hw.of rfl | (with_reducible apply storeMasked_keeps)
    | (with_reducible apply after_keeps) | (with_reducible apply execOpen_keeps)
    | (with_reducible apply execClaim_keeps) | (with_reducible apply execRelease_keeps) | split)

theorem hifWrite_keeps {tch : List Field} {s0 : State} (who : Agent) (off : Nat) (v : Nat) (s : State)
    (hs : Keeps tch s0 s)
    (hw : Within [.link, .hub, .hfifo, .msix, .sync, .xlt, .cdie, .hif, .sess, .disp, .tile, .regs,
    .free] tch := by exact Within.of (by assumption) rfl) :
    Keeps tch s0 (hifWrite who off v s) := by
  unfold hifWrite
  try dsimp only
  repeat' (first
    | (with_reducible assumption) | exact hw.of rfl | (with_reducible apply sessCtlWrite_keeps)
    | (with_reducible apply State.updSess_keeps) | (with_reducible apply storeMasked_keeps)
    | (with_reducible apply after_keeps) | (with_reducible apply execHifPlapValidSet_keeps)
    | (with_reducible apply execHifPlapValidClear_keeps) | (with_reducible apply storeRwl_keeps) | split)

theorem ringCfgWrite_keeps {tch : List Field} {s0 : State} (who : Agent) (r : Nat) (v : Nat) (s : State)
    (hs : Keeps tch s0 s)
    (hw : Within [.hfifo, .msix, .mem, .stack, .pool, .tier, .xlt, .cdie, .hif, .disp,
    .regs] tch := by exact Within.of (by assumption) rfl) :
    Keeps tch s0 (ringCfgWrite who r v s) := by
  unfold ringCfgWrite
  try dsimp only
  repeat' (first
    | (with_reducible assumption) | exact hw.of rfl | (with_reducible apply storeMasked_keeps)
    | (with_reducible apply after_keeps) | (with_reducible apply execRingEnable_keeps)
    | (with_reducible apply execRingDisable_keeps) | split)

theorem ctxWrite_keeps {tch : List Field} {s0 : State} (who : Agent) (off : Nat) (v : Nat) (s : State)
    (hs : Keeps tch s0 s)
    (hw : Within [.hfifo, .msix, .mem, .stack, .pool, .tier, .xlt, .cdie, .hif, .disp,
    .regs] tch := by exact Within.of (by assumption) rfl) :
    Keeps tch s0 (ctxWrite who off v s) := by
  unfold ctxWrite
  try dsimp only
  repeat' (first
    | (with_reducible assumption) | exact hw.of rfl | (with_reducible apply ringCfgWrite_keeps)
    | (with_reducible apply storeMasked_keeps) | (with_reducible apply after_keeps)
    | (with_reducible apply execCtxRctlReset_keeps) | (with_reducible apply execCtxCfgWrite_keeps)
    | (with_reducible apply storeRwl_keeps) | split)

theorem evtWrite_keeps {tch : List Field} {s0 : State} (who : Agent) (off : Nat) (v : Nat) (s : State)
    (hs : Keeps tch s0 s)
    (hw : Within [.hfifo, .msix, .cdie, .hif, .regs] tch := by exact Within.of (by assumption) rfl) :
    Keeps tch s0 (evtWrite who off v s) := by
  unfold evtWrite
  try dsimp only
  repeat' (first
    | (with_reducible assumption) | exact hw.of rfl | (with_reducible apply storeMasked_keeps)
    | (with_reducible apply after_keeps) | (with_reducible apply execEvtCtlFlush_keeps)
    | (with_reducible apply execEvtCctlFlush_keeps) | (with_reducible apply execEvtIsrcWrite_keeps)
    | (with_reducible apply execEvtIstatPendingClear_keeps) | (with_reducible apply execEvtIstatSet_keeps)
    | (with_reducible apply execEvtIclaimWrite_keeps) | (with_reducible apply execEvtIthrWrite_keeps) | split)

theorem pwrWrite_keeps {tch : List Field} {s0 : State} (who : Agent) (off : Nat) (v : Nat) (s : State)
    (hs : Keeps tch s0 s)
    (hw : Within [.hfifo, .msix, .cdie, .hif, .pwr, .tile, .regs] tch := by exact Within.of (by assumption) rfl) :
    Keeps tch s0 (pwrWrite who off v s) := by
  unfold pwrWrite
  try dsimp only
  repeat' (first
    | (with_reducible assumption) | exact hw.of rfl | (with_reducible apply after_keeps)
    | (with_reducible apply execPwrCtlWrite_keeps) | (with_reducible apply execPwrCapWrite_keeps)
    | (with_reducible apply withPwr_keeps) | (with_reducible apply execPwrGroupWrite_keeps) | split)

theorem windowWrite_keeps {tch : List Field} {s0 : State} (who : Agent) (off : Nat) (i : Nat) (v : Nat)
    (s : State) (hs : Keeps tch s0 s)
    (hw : Within [.link, .hub, .hfifo, .msix, .mem, .stack, .pool, .tier, .cdie, .hif,
    .disp] tch := by exact Within.of (by assumption) rfl) :
    Keeps tch s0 (windowWrite who off i v s) := by
  unfold windowWrite
  try dsimp only
  repeat' (first
    | (with_reducible assumption) | exact hw.of rfl | (with_reducible apply setupRefused_keeps)
    | (with_reducible apply submit_keeps) | (with_reducible apply updWindow_keeps) | split)

theorem memWrite_keeps {tch : List Field} {s0 : State} (who : Agent) (off : Nat) (v : Nat) (s : State)
    (hs : Keeps tch s0 s)
    (hw : Within [.link, .hub, .hfifo, .msix, .mem, .stack, .pool, .tier, .cdie, .hif, .disp,
    .regs] tch := by exact Within.of (by assumption) rfl) :
    Keeps tch s0 (memWrite who off v s) := by
  unfold memWrite
  try dsimp only
  repeat' (first
    | (with_reducible assumption) | exact hw.of rfl | (with_reducible apply windowWrite_keeps)
    | (with_reducible apply storeRwl_keeps) | split)

theorem tierWrite_keeps {tch : List Field} {s0 : State} (who : Agent) (off : Nat) (v : Nat) (s : State)
    (hs : Keeps tch s0 s)
    (hw : Within [.hfifo, .msix, .mem, .stack, .pool, .tier, .cdie, .hif,
    .regs] tch := by exact Within.of (by assumption) rfl) :
    Keeps tch s0 (tierWrite who off v s) := by
  unfold tierWrite
  try dsimp only
  repeat' (first
    | (with_reducible assumption)
    | exact hw.of rfl
    | exact rfl
    | exact Nat.le_refl _
    | exact Nat.le_succ _
    | (with_reducible apply pinSet_keeps)
    | (with_reducible apply pinClear_keeps)
    | (with_reducible apply State.setReg_keeps)
    | (with_reducible apply flushStart_keeps)
    | (with_reducible apply storeRwl_keeps)
    | split
    | (intro _; intros; try dsimp only))

theorem rnaWrite_keeps {tch : List Field} {s0 : State} (who : Agent) (off : Nat) (v : Nat) (s : State)
    (hs : Keeps tch s0 s)
    (hw : Within [.hfifo, .msix, .cdie, .hif, .rna, .regs] tch := by exact Within.of (by assumption) rfl) :
    Keeps tch s0 (rnaWrite who off v s) := by
  unfold rnaWrite
  try dsimp only
  repeat' (first
    | (with_reducible assumption) | exact hw.of rfl | (with_reducible apply after_keeps)
    | (with_reducible apply execRnaWoffValidSet_keeps) | (with_reducible apply execRnaWoffValidClear_keeps)
    | (with_reducible apply storeMasked_keeps) | (with_reducible apply storeRwl_keeps) | split)

theorem frctlWrite_keeps {tch : List Field} {s0 : State} (who : Agent) (c : Nat) (v : Nat) (s : State)
    (hs : Keeps tch s0 s)
    (hw : Within [.hfifo, .msix, .xlt, .cdie, .hif, .regs] tch := by exact Within.of (by assumption) rfl) :
    Keeps tch s0 (frctlWrite who c v s) := by
  unfold frctlWrite
  try dsimp only
  repeat' (first
    | (with_reducible assumption) | exact hw.of rfl | (with_reducible apply storeMasked_keeps)
    | (with_reducible apply withXlt_keeps) | (with_reducible apply setupRefused_keeps) | split)

theorem xltWrite_keeps {tch : List Field} {s0 : State} (who : Agent) (off : Nat) (v : Nat) (s : State)
    (hs : Keeps tch s0 s)
    (hw : Within [.link, .hub, .hfifo, .msix, .sync, .counted, .mem, .stack, .pool, .tier, .xlt, .cdie, .hif, .disp,
    .rna, .tile, .regs] tch := by exact Within.of (by assumption) rfl) :
    Keeps tch s0 (xltWrite who off v s) := by
  unfold xltWrite
  try dsimp only
  repeat' (first
    | (with_reducible assumption) | exact hw.of rfl | (with_reducible apply storeMasked_keeps)
    | (with_reducible apply frctlWrite_keeps) | (with_reducible apply after_keeps)
    | (with_reducible apply execXltResume_keeps) | (with_reducible apply setupRefused_keeps) | split)

theorem hubWrite_keeps {tch : List Field} {s0 : State} (who : Agent) (off : Nat) (v : Nat) (s : State)
    (hs : Keeps tch s0 s)
    (hw : Within [.hfifo, .msix, .cdie, .hif, .regs] tch := by exact Within.of (by assumption) rfl) :
    Keeps tch s0 (hubWrite who off v s) := by
  unfold hubWrite
  try dsimp only
  repeat' (first
    | (with_reducible assumption) | exact hw.of rfl | (with_reducible apply storeRwl_keeps) | split)

theorem syncRegWrite_keeps {tch : List Field} {s0 : State} (who : Agent) (off : Nat) (v : Nat) (s : State)
    (hs : Keeps tch s0 s)
    (hw : Within [.link, .hub, .hfifo, .msix, .sync, .cdie, .hif, .disp,
    .regs] tch := by exact Within.of (by assumption) rfl) :
    Keeps tch s0 (syncRegWrite who off v s) := by
  unfold syncRegWrite
  try dsimp only
  repeat' (first
    | (with_reducible assumption) | exact hw.of rfl | (with_reducible apply after_keeps)
    | (with_reducible apply execSyncValueWrite_keeps) | (with_reducible apply storeMasked_keeps) | split)

theorem blockWrite_keeps {tch : List Field} {s0 : State} (who : Agent) (off : Nat) (v : Nat) (s : State)
    (hs : Keeps tch s0 s)
    (hw : Within [.glb, .ivory, .link, .hub, .hfifo, .msix, .sync, .counted, .mem, .stack, .pool, .tier, .xlt,
    .cdie, .hif, .sess, .disp, .rna, .pwr, .tile, .regs, .free] tch := by exact Within.of (by assumption) rfl) :
    Keeps tch s0 (blockWrite who off v s) := by
  have k : ∀ (c : Prop) [Decidable c] (a b : State), Keeps tch s0 a → Keeps tch s0 b → Keeps tch s0 (if c then a else b) :=
    fun c _ a b h g => by split <;> assumption
  unfold blockWrite
  exact k _ _ _ (glbWrite_keeps _ _ _ _ hs) (k _ _ _ (hifWrite_keeps _ _ _ _ hs) (k _ _ _ (ctxWrite_keeps _ _ _ _ hs)
    (k _ _ _ (evtWrite_keeps _ _ _ _ hs) (k _ _ _ (pwrWrite_keeps _ _ _ _ hs) (k _ _ _ (memWrite_keeps _ _ _ _ hs)
    (k _ _ _ (tierWrite_keeps _ _ _ _ hs) (k _ _ _ (rnaWrite_keeps _ _ _ _ hs) (k _ _ _ (xltWrite_keeps _ _ _ _ hs)
    (k _ _ _ hs (k _ _ _ (hubWrite_keeps _ _ _ _ hs) (k _ _ _ hs (syncRegWrite_keeps _ _ _ _ hs))))))))))))

theorem regWrite_keeps {tch : List Field} {s0 : State} (who : Agent) (off : Nat) (v : Nat) (s : State)
    (hs : Keeps tch s0 s)
    (hw : Within [.glb, .ivory, .link, .hub, .hfifo, .msix, .sync, .counted, .mem, .stack, .pool, .tier, .xlt,
    .cdie, .hif, .sess, .disp, .rna, .pwr, .tile, .regs, .free] tch := by exact Within.of (by assumption) rfl) :
    Keeps tch s0 (regWrite who off v s) := by
  unfold regWrite
  try dsimp only
  repeat' (first
    | (with_reducible assumption) | exact hw.of rfl | (with_reducible apply blockWrite_keeps)
    | (with_reducible apply setupRefused_keeps) | split)

theorem write8_keeps {tch : List Field} {s0 : State} (who : Agent) (off : Nat) (v : Word) (s : State)
    (hs : Keeps tch s0 s)
    (hw : Within [.glb, .ivory, .link, .hub, .hfifo, .msix, .sync, .counted, .mem, .stack, .pool, .tier, .xlt,
    .cdie, .hif, .sess, .disp, .rna, .pwr, .tile, .regs, .free] tch := by exact Within.of (by assumption) rfl) :
    Keeps tch s0 (write8 who off v s) := by
  unfold write8
  try dsimp only
  repeat' (first
    | (with_reducible assumption) | exact hw.of rfl | (with_reducible apply regWrite_keeps) | split)

theorem writeSeq_keeps {tch : List Field} {s0 : State} (who : Agent) (off : Nat) (z1 : List Word)
    (z2 : State) (hs : Keeps tch s0 z2)
    (hw : Within [.glb, .ivory, .link, .hub, .hfifo, .msix, .sync, .counted, .mem, .stack, .pool, .tier, .xlt,
    .cdie, .hif, .sess, .disp, .rna, .pwr, .tile, .regs, .free] tch := by exact Within.of (by assumption) rfl) :
    Keeps tch s0 (writeSeq who off z1 z2) := by
  induction z1 generalizing off z2 with
  | nil => exact hs
  | cons v r ih => exact ih _ _ (write8_keeps _ _ _ _ hs)

theorem hostWriteReg_keeps {tch : List Field} {s0 : State} (who : Agent) (off : Nat) (size : Nat)
    (data : List Word) (s : State) (hs : Keeps tch s0 s)
    (hw : Within [.glb, .ivory, .link, .hub, .hfifo, .msix, .sync, .counted, .mem, .stack, .pool, .tier, .xlt,
    .cdie, .hif, .sess, .disp, .rna, .pwr, .tile, .regs, .free] tch := by exact Within.of (by assumption) rfl) :
    Keeps tch s0 (hostWriteReg who off size data s) := by
  unfold hostWriteReg
  try dsimp only
  repeat' (first
    | (with_reducible assumption) | exact hw.of rfl | (with_reducible apply regWrite_keeps)
    | (with_reducible apply setupRefused_keeps) | (with_reducible apply write8_keeps)
    | (with_reducible apply writeSeq_keeps) | split)

theorem reservedAccess_keeps {tch : List Field} {s0 : State} (core : Nat) (addr : Nat) (isWrite : Bool)
    (s : State) (hs : Keeps tch s0 s)
    (hw : Within [.core, .replies] tch := by exact Within.of (by assumption) rfl) :
    Keeps tch s0 (reservedAccess core addr isWrite s) := by
  unfold reservedAccess
  try dsimp only
  repeat' (first
    | (with_reducible assumption) | exact hw.of rfl | (with_reducible apply serrRecord_keeps)
    | (with_reducible apply reply_keeps) | split)

theorem ivrWrite_keeps {tch : List Field} {s0 : State} (core : Nat) (off : Nat) (s : State)
    (hs : Keeps tch s0 s)
    (hw : Within [.hfifo, .msix, .core, .cdie, .hif] tch := by exact Within.of (by assumption) rfl) :
    Keeps tch s0 (ivrWrite core off s) := by
  unfold ivrWrite
  try dsimp only
  repeat' (first
    | (with_reducible assumption) | exact hw.of rfl | (with_reducible apply serrRecord_keeps)
    | (with_reducible apply setupRefused_keeps) | split)

theorem coreWriteReg_keeps {tch : List Field} {s0 : State} (c : Nat) (off : Nat) (size : Nat)
    (data : List Word) (s : State) (hs : Keeps tch s0 s)
    (hw : Within [.glb, .ivory, .link, .hub, .hfifo, .msix, .sync, .counted, .mem, .stack, .pool, .tier, .xlt,
    .core, .cdie, .hif, .sess, .disp, .rna, .pwr, .tile, .regs, .replies,
    .free] tch := by exact Within.of (by assumption) rfl) :
    Keeps tch s0 (coreWriteReg c off size data s) := by
  unfold coreWriteReg
  try dsimp only
  repeat' (first
    | (with_reducible assumption) | exact hw.of rfl | (with_reducible apply reservedAccess_keeps)
    | (with_reducible apply ivrWrite_keeps) | (with_reducible apply coreTrap_keeps)
    | (with_reducible apply regWrite_keeps) | split)

theorem execRegisterWrite_keeps {tch : List Field} {s0 : State} (who : Agent) (off : Nat) (size : Nat)
    (data : List Word) (s : State) (hs : Keeps tch s0 s)
    (hw : Within [.glb, .ivory, .link, .hub, .hfifo, .msix, .sync, .counted, .mem, .stack, .pool, .tier, .xlt,
    .core, .cdie, .hif, .sess, .disp, .rna, .pwr, .tile, .regs, .replies,
    .free] tch := by exact Within.of (by assumption) rfl) :
    OnNext (Keeps tch s0) (execRegisterWrite who off size data s) := by
  unfold execRegisterWrite
  try dsimp only
  repeat' (first
    | (with_reducible assumption) | exact hw.of rfl | (with_reducible apply coreWriteReg_keeps)
    | (with_reducible apply hostWriteReg_keeps) | (with_reducible apply OnNext.next)
    | (with_reducible apply OnNext.fault) | split)

theorem execBar0MalformedAccess_keeps {tch : List Field} {s0 : State} (fn : Nat) (off : Nat)
    (isWrite : Bool) (s : State) (hs : Keeps tch s0 s)
    (hw : Within [.hfifo, .msix, .cdie, .hif, .replies] tch := by exact Within.of (by assumption) rfl) :
    OnNext (Keeps tch s0) (execBar0MalformedAccess fn off isWrite s) := by
  unfold execBar0MalformedAccess
  try dsimp only
  repeat' (first
    | (with_reducible assumption) | exact hw.of rfl | (with_reducible apply reply_keeps)
    | (with_reducible apply setupRefused_keeps) | (with_reducible apply aerError_keeps)
    | (with_reducible apply replyAbort_keeps) | (with_reducible apply OnNext.next)
    | (with_reducible apply OnNext.fault) | split)

theorem execCoreReservedRegisterAccess_keeps {tch : List Field} {s0 : State} (core : Nat) (addr : Nat)
    (isWrite : Bool) (s : State) (hs : Keeps tch s0 s)
    (hw : Within [.core, .replies] tch := by exact Within.of (by assumption) rfl) :
    OnNext (Keeps tch s0) (execCoreReservedRegisterAccess core addr isWrite s) := by
  unfold execCoreReservedRegisterAccess
  try dsimp only
  repeat' (first
    | (with_reducible assumption) | exact hw.of rfl | (with_reducible apply reservedAccess_keeps)
    | (with_reducible apply OnNext.next) | (with_reducible apply OnNext.fault) | split)

theorem execIvrInternalWrite_keeps {tch : List Field} {s0 : State} (core : Nat) (off : Nat) (s : State)
    (hs : Keeps tch s0 s)
    (hw : Within [.hfifo, .msix, .core, .cdie, .hif] tch := by exact Within.of (by assumption) rfl) :
    OnNext (Keeps tch s0) (execIvrInternalWrite core off s) := by
  unfold execIvrInternalWrite
  try dsimp only
  repeat' (first
    | (with_reducible assumption) | exact hw.of rfl | (with_reducible apply ivrWrite_keeps)
    | (with_reducible apply OnNext.next) | (with_reducible apply OnNext.fault) | split)

theorem moveData_keeps {tch : List Field} {s0 : State} (pos : Nat) (slot : Nat) (id : Nat) (off : Nat)
    (o : Outst) (p : Pkt) (s : State) (hs : Keeps tch s0 s)
    (hw : Within [.hfifo, .msix, .cdie, .hif, .disp, .tile] tch := by exact Within.of (by assumption) rfl) :
    Keeps tch s0 (moveData pos slot id off o p s) := by
  unfold moveData
  try dsimp only
  repeat' (first
    | (with_reducible assumption) | exact hw.of rfl | (with_reducible apply evCheckword_keeps)
    | (with_reducible apply taintCmd_keeps) | (with_reducible apply updQ_keeps) | (with_reducible apply foldl_keeps)
    | split | (intro _; intros; try dsimp only))

theorem moveAck_keeps {tch : List Field} {s0 : State} (pos : Nat) (slot : Nat) (id : Nat) (o : Outst)
    (p : Pkt) (s : State) (hs : Keeps tch s0 s)
    (hw : Within [.tile] tch := by exact Within.of (by assumption) rfl) :
    Keeps tch s0 (moveAck pos slot id o p s) := by
  unfold moveAck
  try dsimp only
  repeat' (first
    | (with_reducible assumption) | exact hw.of rfl | (with_reducible apply updQ_keeps) | split)

theorem copyErr_keeps {tch : List Field} {s0 : State} (ring : Nat) (seq : Nat) (off : Nat) (write : Bool)
    (o : Outst) (p : Pkt) (s : State) (hs : Keeps tch s0 s)
    (hw : Within [.link, .hub, .sync, .xlt, .disp, .tile] tch := by exact Within.of (by assumption) rfl) :
    Keeps tch s0 (copyErr ring seq off write o p s) := by
  unfold copyErr
  try dsimp only
  repeat' (first
    | (with_reducible assumption) | exact hw.of rfl | (with_reducible apply accessFailed_keeps) | split)

theorem moveErr_keeps {tch : List Field} {s0 : State} (pos : Nat) (slot : Nat) (id : Nat) (off : Nat)
    (o : Outst) (p : Pkt) (s : State) (hs : Keeps tch s0 s)
    (hw : Within [.link, .hub, .sync, .xlt, .disp, .tile] tch := by exact Within.of (by assumption) rfl) :
    Keeps tch s0 (moveErr pos slot id off o p s) := by
  unfold moveErr
  try dsimp only
  repeat' (first
    | (with_reducible assumption) | exact hw.of rfl | (with_reducible apply updQ_keeps)
    | (with_reducible apply accessFailed_keeps) | split)

theorem relayAnswer_keeps {tch : List Field} {s0 : State} (src : Nat) (tid : Nat) (die : Nat) (p : Pkt)
    (s : State) (hs : Keeps tch s0 s)
    (hw : Within [.link, .hub, .hfifo, .msix, .mem, .stack, .pool, .tier, .cdie, .hif,
    .disp] tch := by exact Within.of (by assumption) rfl) :
    Keeps tch s0 (relayAnswer src tid die p s) := by
  unfold relayAnswer
  try dsimp only
  repeat' (first
    | (with_reducible assumption) | exact hw.of rfl | (with_reducible apply poolRetry_keeps)
    | (with_reducible apply poolBack_keeps) | (with_reducible apply sendWith_keeps) | split)

theorem snoopLost_keeps {tch : List Field} {s0 : State} (home : Nat) (addr : Nat) (die : Nat) (s : State)
    (hs : Keeps tch s0 s)
    (hw : Within [.link, .hub, .hfifo, .msix, .mem, .stack, .pool, .tier, .cdie, .hif,
    .disp] tch := by exact Within.of (by assumption) rfl) :
    Keeps tch s0 (snoopLost home addr die s) := by
  unfold snoopLost
  try dsimp only
  repeat' (first
    | (with_reducible assumption) | exact hw.of rfl | (with_reducible apply post_keeps)
    | (with_reducible apply storeSector_keeps) | (with_reducible apply snoopAnswered_keeps) | split)

theorem dataFor_keeps {tch : List Field} {s0 : State} (o : Outst) (p : Pkt) (s : State) (hs : Keeps tch s0 s)
    (hw : Within [.link, .hub, .hfifo, .msix, .sync, .mem, .stack, .pool, .tier, .xlt, .core, .cdie, .hif, .disp,
    .rna, .tile, .replies] tch := by exact Within.of (by assumption) rfl) :
    Keeps tch s0 (dataFor o p s) := by
  unfold dataFor
  try dsimp only
  repeat' (first
    | (with_reducible assumption) | exact hw.of rfl | (with_reducible apply moveErr_keeps)
    | (with_reducible apply moveData_keeps) | (with_reducible apply syncInstrAnswered_keeps)
    | (with_reducible apply grantArrive_keeps) | (with_reducible apply evictDone_keeps)
    | (with_reducible apply relayAnswer_keeps) | (with_reducible apply snoopAnswered_keeps)
    | (with_reducible apply getAnswer_keeps) | (with_reducible apply State.updCmd_keeps)
    | (with_reducible apply copyErr_keeps) | (with_reducible apply taintCmd_keeps)
    | (with_reducible apply reply_keeps) | split)

theorem ackFor_keeps {tch : List Field} {s0 : State} (o : Outst) (p : Pkt) (s : State) (hs : Keeps tch s0 s)
    (hw : Within [.link, .hub, .hfifo, .msix, .counted, .mem, .stack, .pool, .tier, .xlt, .core, .cdie, .hif, .disp,
    .rna, .tile] tch := by exact Within.of (by assumption) rfl) :
    Keeps tch s0 (ackFor o p s) := by
  unfold ackFor
  try dsimp only
  repeat' (first
    | (with_reducible assumption) | exact hw.of rfl | (with_reducible apply moveAck_keeps)
    | (with_reducible apply syncInstrAnswered_keeps) | (with_reducible apply answerDeferred_keeps)
    | (with_reducible apply evictDone_keeps) | (with_reducible apply relayAnswer_keeps)
    | (with_reducible apply snoopAnswered_keeps) | (with_reducible apply countedAck_keeps) | split)

theorem errFor_keeps {tch : List Field} {s0 : State} (o : Outst) (p : Pkt) (s : State) (hs : Keeps tch s0 s)
    (hw : Within [.link, .hub, .hfifo, .msix, .sync, .counted, .mem, .stack, .pool, .tier, .xlt, .core, .cdie, .hif,
    .disp, .rna, .tile] tch := by exact Within.of (by assumption) rfl) :
    Keeps tch s0 (errFor o p s) := by
  unfold errFor
  try dsimp only
  repeat' (first
    | (with_reducible assumption) | exact hw.of rfl | (with_reducible apply moveErr_keeps)
    | (with_reducible apply accessFailed_keeps) | (with_reducible apply answerDeferred_keeps)
    | (with_reducible apply evictDone_keeps) | (with_reducible apply relayAnswer_keeps)
    | (with_reducible apply snoopLost_keeps) | (with_reducible apply countedErr_keeps)
    | (with_reducible apply getAnswer_keeps) | (with_reducible apply copyErr_keeps)
    | (with_reducible apply updWindow_keeps) | split)

theorem retryFor_keeps {tch : List Field} {s0 : State} (o : Outst) (p : Pkt) (s : State) (hs : Keeps tch s0 s)
    (hw : Within [.link, .hub, .hfifo, .msix, .mem, .stack, .pool, .tier, .core, .cdie, .hif,
    .disp] tch := by exact Within.of (by assumption) rfl) :
    Keeps tch s0 (retryFor o p s) := by
  unfold retryFor
  try dsimp only
  repeat' (first
    | (with_reducible assumption) | exact hw.of rfl | (with_reducible apply retryArrive_keeps)
    | (with_reducible apply relayAnswer_keeps) | split)

theorem respTake_keeps {tch : List Field} {s0 : State} (p : Pkt) (err : Bool) (k : Outst → State → State)
    (s : State) (hs : Keeps tch s0 s) (hk : ∀ b0 u, Keeps tch s0 u → Keeps tch s0 (k b0 u))
    (hw : Within [.link, .hub] tch := by exact Within.of (by assumption) rfl) :
    Keeps tch s0 (respTake p err k s) := by
  unfold respTake
  try dsimp only
  repeat' (first
    | (with_reducible assumption) | exact hw.of rfl | (with_reducible apply reach_keeps)
    | (with_reducible apply boundGo_keeps) | (with_reducible apply State.dropOutst_keeps)
    | (with_reducible apply withHub_keeps) | (with_reducible apply hk) | split | (intro _; intros; try dsimp only))

theorem execRespData_keeps {tch : List Field} {s0 : State} (p : Pkt) (s : State) (hs : Keeps tch s0 s)
    (hw : Within [.link, .hub, .hfifo, .msix, .sync, .mem, .stack, .pool, .tier, .xlt, .core, .cdie, .hif, .disp,
    .rna, .tile, .replies] tch := by exact Within.of (by assumption) rfl) :
    OnNext (Keeps tch s0) (execRespData p s) := by
  unfold execRespData
  try dsimp only
  repeat' (first
    | (with_reducible assumption) | exact hw.of rfl | (with_reducible apply respTake_keeps)
    | (with_reducible apply dataFor_keeps) | (with_reducible apply OnNext.next) | (with_reducible apply OnNext.fault)
    | split | (intro _; intros; try dsimp only))

theorem execRespAck_keeps {tch : List Field} {s0 : State} (p : Pkt) (s : State) (hs : Keeps tch s0 s)
    (hw : Within [.link, .hub, .hfifo, .msix, .counted, .mem, .stack, .pool, .tier, .xlt, .core, .cdie, .hif, .disp,
    .rna, .tile] tch := by exact Within.of (by assumption) rfl) :
    OnNext (Keeps tch s0) (execRespAck p s) := by
  unfold execRespAck
  try dsimp only
  repeat' (first
    | (with_reducible assumption) | exact hw.of rfl | (with_reducible apply respTake_keeps)
    | (with_reducible apply ackFor_keeps) | (with_reducible apply OnNext.next) | (with_reducible apply OnNext.fault)
    | split | (intro _; intros; try dsimp only))

theorem execRespErr_keeps {tch : List Field} {s0 : State} (p : Pkt) (s : State) (hs : Keeps tch s0 s)
    (hw : Within [.link, .hub, .hfifo, .msix, .sync, .counted, .mem, .stack, .pool, .tier, .xlt, .core, .cdie, .hif,
    .disp, .rna, .tile] tch := by exact Within.of (by assumption) rfl) :
    OnNext (Keeps tch s0) (execRespErr p s) := by
  unfold execRespErr
  try dsimp only
  repeat' (first
    | (with_reducible assumption) | exact hw.of rfl | (with_reducible apply respTake_keeps)
    | (with_reducible apply errFor_keeps) | (with_reducible apply OnNext.next) | (with_reducible apply OnNext.fault)
    | split | (intro _; intros; try dsimp only))

theorem execRespRetry_keeps {tch : List Field} {s0 : State} (p : Pkt) (s : State) (hs : Keeps tch s0 s)
    (hw : Within [.link, .hub, .hfifo, .msix, .mem, .stack, .pool, .tier, .core, .cdie, .hif,
    .disp] tch := by exact Within.of (by assumption) rfl) :
    OnNext (Keeps tch s0) (execRespRetry p s) := by
  unfold execRespRetry
  try dsimp only
  repeat' (first
    | (with_reducible assumption) | exact hw.of rfl | (with_reducible apply respTake_keeps)
    | (with_reducible apply retryFor_keeps) | (with_reducible apply OnNext.next)
    | (with_reducible apply OnNext.fault) | split | (intro _; intros; try dsimp only))

theorem vldRun_keeps {tch : List Field} {s0 : State} (pos : Nat) (slot : Nat) (x : Slot) (q : QInstr)
    (p : VecOp) (s : State) (hs : Keeps tch s0 s)
    (hw : Within [.hfifo, .msix, .cdie, .hif, .disp, .tile] tch := by exact Within.of (by assumption) rfl) :
    Keeps tch s0 (vldRun pos slot x q p s).1 := by
  unfold vldRun
  try dsimp only
  repeat' (first
    | (with_reducible assumption) | exact hw.of rfl | (with_reducible apply verifyTile_keeps)
    | (with_reducible apply State.updSlot_keeps) | split)

theorem vstRun_keeps {tch : List Field} {s0 : State} (pos : Nat) (x : Slot) (q : QInstr) (p : VecOp)
    (s : State) (hs : Keeps tch s0 s)
    (hw : Within [.tile] tch := by exact Within.of (by assumption) rfl) :
    Keeps tch s0 (vstRun pos x q p s).1 := by
  unfold vstRun
  refine foldl_inv (fun (x : State × Sticky) => Keeps tch s0 x.1) _ (fun x p h => ?_) _ _ hs
  dsimp only
  split
  · exact foldl_inv (fun (x : State × Sticky) => Keeps tch s0 x.1) _ (fun x p h => storeTile_keeps _ _ _ _ _ _ h) _ _ h
  · exact storeTile_keeps _ _ _ _ _ _ h

theorem vecRun_keeps {tch : List Field} {s0 : State} (pos : Nat) (slot : Nat) (x : Slot) (q : QInstr)
    (s : State) (hs : Keeps tch s0 s)
    (hw : Within [.hfifo, .msix, .cdie, .hif, .disp, .tile] tch := by exact Within.of (by assumption) rfl) :
    Keeps tch s0 (vecRun pos slot x q s).1 := by
  unfold vecRun
  try dsimp only
  repeat' (first
    | (with_reducible assumption) | exact hw.of rfl | (with_reducible apply State.updSlot_keeps)
    | (with_reducible apply vldRun_keeps) | (with_reducible apply vstRun_keeps) | split)

theorem vecIssue_keeps {tch : List Field} {s0 : State} (pos : Nat) (slot : Nat) (opc : Nat) (conv : Bool)
    (s : State) (hs : Keeps tch s0 s)
    (hw : Within [.link, .hub, .sync, .xlt, .disp, .tile] tch := by exact Within.of (by assumption) rfl) :
    OnNext (Keeps tch s0) (vecIssue pos slot opc conv s) := by
  unfold vecIssue
  try dsimp only
  repeat' (first
    | (with_reducible assumption) | exact hw.of rfl | (with_reducible apply queueIssue_keeps)
    | (with_reducible apply OnNext.next) | (with_reducible apply OnNext.fault) | split)

theorem execVld_keeps {tch : List Field} {s0 : State} (pos : Nat) (slot : Nat) (s : State)
    (hs : Keeps tch s0 s)
    (hw : Within [.link, .hub, .sync, .xlt, .disp, .tile] tch := by exact Within.of (by assumption) rfl) :
    OnNext (Keeps tch s0) (execVld pos slot s) := by
  unfold execVld
  try dsimp only
  repeat' (first
    | (with_reducible assumption) | exact hw.of rfl | (with_reducible apply vecIssue_keeps)
    | (with_reducible apply OnNext.next) | (with_reducible apply OnNext.fault) | split)

theorem execVst_keeps {tch : List Field} {s0 : State} (pos : Nat) (slot : Nat) (s : State)
    (hs : Keeps tch s0 s)
    (hw : Within [.link, .hub, .sync, .xlt, .disp, .tile] tch := by exact Within.of (by assumption) rfl) :
    OnNext (Keeps tch s0) (execVst pos slot s) := by
  unfold execVst
  try dsimp only
  repeat' (first
    | (with_reducible assumption) | exact hw.of rfl | (with_reducible apply vecIssue_keeps)
    | (with_reducible apply OnNext.next) | (with_reducible apply OnNext.fault) | split)

theorem execVop_keeps {tch : List Field} {s0 : State} (pos : Nat) (slot : Nat) (s : State)
    (hs : Keeps tch s0 s)
    (hw : Within [.link, .hub, .sync, .xlt, .disp, .tile] tch := by exact Within.of (by assumption) rfl) :
    OnNext (Keeps tch s0) (execVop pos slot s) := by
  unfold execVop
  try dsimp only
  repeat' (first
    | (with_reducible assumption) | exact hw.of rfl | (with_reducible apply vecIssue_keeps)
    | (with_reducible apply OnNext.next) | (with_reducible apply OnNext.fault) | split)

theorem execVops_keeps {tch : List Field} {s0 : State} (pos : Nat) (slot : Nat) (s : State)
    (hs : Keeps tch s0 s)
    (hw : Within [.link, .hub, .sync, .xlt, .disp, .tile] tch := by exact Within.of (by assumption) rfl) :
    OnNext (Keeps tch s0) (execVops pos slot s) := by
  unfold execVops
  try dsimp only
  repeat' (first
    | (with_reducible assumption) | exact hw.of rfl | (with_reducible apply vecIssue_keeps)
    | (with_reducible apply OnNext.next) | (with_reducible apply OnNext.fault) | split)

theorem execVcmp_keeps {tch : List Field} {s0 : State} (pos : Nat) (slot : Nat) (s : State)
    (hs : Keeps tch s0 s)
    (hw : Within [.link, .hub, .sync, .xlt, .disp, .tile] tch := by exact Within.of (by assumption) rfl) :
    OnNext (Keeps tch s0) (execVcmp pos slot s) := by
  unfold execVcmp
  try dsimp only
  repeat' (first
    | (with_reducible assumption) | exact hw.of rfl | (with_reducible apply vecIssue_keeps)
    | (with_reducible apply OnNext.next) | (with_reducible apply OnNext.fault) | split)

theorem execVmask_keeps {tch : List Field} {s0 : State} (pos : Nat) (slot : Nat) (s : State)
    (hs : Keeps tch s0 s)
    (hw : Within [.link, .hub, .sync, .xlt, .disp, .tile] tch := by exact Within.of (by assumption) rfl) :
    OnNext (Keeps tch s0) (execVmask pos slot s) := by
  unfold execVmask
  try dsimp only
  repeat' (first
    | (with_reducible assumption) | exact hw.of rfl | (with_reducible apply vecIssue_keeps)
    | (with_reducible apply OnNext.next) | (with_reducible apply OnNext.fault) | split)

theorem execVred_keeps {tch : List Field} {s0 : State} (pos : Nat) (slot : Nat) (s : State)
    (hs : Keeps tch s0 s)
    (hw : Within [.link, .hub, .sync, .xlt, .disp, .tile] tch := by exact Within.of (by assumption) rfl) :
    OnNext (Keeps tch s0) (execVred pos slot s) := by
  unfold execVred
  try dsimp only
  repeat' (first
    | (with_reducible assumption) | exact hw.of rfl | (with_reducible apply vecIssue_keeps)
    | (with_reducible apply OnNext.next) | (with_reducible apply OnNext.fault) | split)

theorem execVsfu_keeps {tch : List Field} {s0 : State} (pos : Nat) (slot : Nat) (s : State)
    (hs : Keeps tch s0 s)
    (hw : Within [.link, .hub, .sync, .xlt, .disp, .tile] tch := by exact Within.of (by assumption) rfl) :
    OnNext (Keeps tch s0) (execVsfu pos slot s) := by
  unfold execVsfu
  try dsimp only
  repeat' (first
    | (with_reducible assumption) | exact hw.of rfl | (with_reducible apply vecIssue_keeps)
    | (with_reducible apply OnNext.next) | (with_reducible apply OnNext.fault) | split)

theorem execVcvt_keeps {tch : List Field} {s0 : State} (pos : Nat) (slot : Nat) (s : State)
    (hs : Keeps tch s0 s)
    (hw : Within [.link, .hub, .sync, .xlt, .disp, .tile] tch := by exact Within.of (by assumption) rfl) :
    OnNext (Keeps tch s0) (execVcvt pos slot s) := by
  unfold execVcvt
  try dsimp only
  repeat' (first
    | (with_reducible assumption) | exact hw.of rfl | (with_reducible apply vecIssue_keeps)
    | (with_reducible apply OnNext.next) | (with_reducible apply OnNext.fault) | split)

theorem execVectorInstrComplete_keeps {tch : List Field} {s0 : State} (pos : Nat) (slot : Nat) (s : State)
    (hs : Keeps tch s0 s)
    (hw : Within [.link, .hub, .hfifo, .msix, .sync, .xlt, .cdie, .hif, .disp,
    .tile] tch := by exact Within.of (by assumption) rfl) :
    OnNext (Keeps tch s0) (execVectorInstrComplete pos slot s) := by
  unfold execVectorInstrComplete
  try dsimp only
  repeat' (first
    | (with_reducible assumption) | exact hw.of rfl | (with_reducible apply vecRun_keeps)
    | (with_reducible apply complete_keeps) | (with_reducible apply OnNext.next)
    | (with_reducible apply OnNext.fault) | split)

end Sys2Proof.Machine
end

