-- ==== Sys2Proof/Laws/Boot.lean ====
section
/-!
SUPPORT. The step of start-up that failing dies, training links and mounting memories leave as it was.
-/
namespace Sys2Proof.Machine

/-- An operation that does not change the part `f` leaves it as it was. -/
theorem Keeps.same {ws : List Field} {s t : State} (h : Keeps ws s t) (f : Field) (hf : f ∉ ws := by decide) : f.same s t :=
  h.part f hf

/-- An operation that leaves the boot state leaves the step of start-up. -/
theorem Keeps.phase {ws : List Field} {s t : State} (h : Keeps ws s t) (hf : Field.boot ∉ ws := by decide) :
    t.boot.phase = s.boot.phase :=
  congrArg Boot.phase (h.part .boot hf)

/-- A fold of operations that leave the step of start-up as it was. -/
theorem foldl_phase {α : Type} (f : State → α → State) (hf : ∀ s a, (f s a).boot.phase = s.boot.phase) (l : List α)
    (s : State) : (l.foldl f s).boot.phase = s.boot.phase :=
  foldl_inv (fun t => t.boot.phase = s.boot.phase) f (fun t a h => (hf t a).trans h) l s rfl

/-- An event that is posted. -/
theorem post_phase (e : EvItem) (s : State) : (post e s).boot.phase = s.boot.phase :=
  (post_keeps e s (Keeps.rfl' _ s) (Within.rfl' _)).phase

/-- A port that is fenced. -/
theorem fencePort_phase (port : Nat) (dead : Bool) (cause : Nat) (s : State) :
    (fencePort port dead cause s).boot.phase = s.boot.phase :=
  (fencePort_keeps port dead cause s (Keeps.rfl' _ s) (Within.rfl' _)).phase

/-- A port that is fenced if it is not yet. -/
theorem fencedIf_phase (port cause : Nat) (s : State) :
    (if s.fenced port then s else fencePort port true cause s).boot.phase = s.boot.phase := by
  split
  · rfl
  · exact fencePort_phase _ _ _ _

/-- A failed die. -/
theorem dieFailed_phase (port cause : Nat) (s : State) : (dieFailed port cause s).boot.phase = s.boot.phase := by
  have h1 : ∀ u : State, (fenceDead port u).boot.phase = u.boot.phase := fun u =>
    (fenceDead_keeps port u (Keeps.rfl' _ u) (Within.rfl' _)).phase
  have h2 : ∀ u : State, (setVolt port 0 u).boot.phase = u.boot.phase := fun u =>
    (setVolt_keeps port 0 u (Keeps.rfl' _ u) (Within.rfl' _)).phase
  have h3 : ∀ u : State, (fenceDead port (if u.fenced port then u else fencePort port true cause u)).boot.phase = u.boot.phase :=
    fun u => (h1 _).trans (fencedIf_phase port cause u)
  unfold dieFailed
  dsimp only
  refine (foldl_phase _ (fun t (c : Cmd) => (endWith_keeps c.ring c.seq _ t (Keeps.rfl' _ t) (Within.rfl' _)).phase) _ _).trans ?_
  refine (post_phase _ _).trans ?_
  split
  · exact (h2 _).trans (h3 s)
  · exact (h2 _).trans (h3 s)

/-- A lost tile. -/
theorem tileLost_phase (pos cause : Nat) (s : State) : (tileLost pos cause s).boot.phase = s.boot.phase := by
  have h1 : ∀ t : State, (if t.fenced pos then t else fencePort pos true cause t).boot.phase = t.boot.phase :=
    fencedIf_phase pos cause
  have h2 : ∀ t : State, (stopOnTile pos t).boot.phase = t.boot.phase := fun t =>
    (stopOnTile_keeps pos t (Keeps.rfl' _ t) (Within.rfl' _)).phase
  have h3 : ∀ (n : Nat) (t : State), (spareTile n pos t).boot.phase = t.boot.phase := fun n t =>
    (spareTile_keeps n pos t (Keeps.rfl' _ t) (Within.rfl' _)).phase
  unfold tileLost
  split
  · rfl
  · have h4 := (dieFailed_phase pos cause (stopOnTile pos (if s.fenced pos then s else fencePort pos true cause s))).trans
      ((h2 _).trans (h1 s))
    dsimp only
    split
    · exact (h3 _ _).trans h4
    · exact h4

/-- A stack that fails. -/
theorem failStack_phase (stack cause : Nat) (s : State) : (failStack stack cause s).boot.phase = s.boot.phase :=
  ((mgmtReply_keeps _ _ (Keeps.rfl' _ _) (Within.rfl' _)).phase).trans
    (((mirrorLost_keeps stack _ (Keeps.rfl' _ _) (Within.rfl' _)).phase).trans (dieFailed_phase _ _ _))

/-- A host die that fails. -/
theorem hostFails_phase (cause : Nat) (s : State) : (hostFails cause s).boot.phase = s.boot.phase := by
  unfold hostFails
  split
  · rfl
  · dsimp only
    refine (foldl_phase _ (fun t f => (detachFn_keeps f t (Keeps.rfl' _ t) (Within.rfl' _)).phase) _ _).trans ?_
    rw [State.withHif_boot]
    exact dieFailed_phase _ _ _

/-- A Ranoa die that fails. -/
theorem ranoaFails_phase (die cause : Nat) (s : State) : (ranoaFails die cause s).boot.phase = s.boot.phase := by
  unfold ranoaFails
  split
  · rfl
  · refine (dieFailed_phase _ _ _).trans (foldl_phase _ (fun t n => ?_) _ _)
    exact (losePort_keeps n none t (Keeps.rfl' _ t) (Within.rfl' _)).phase

/-- A tier die that fails. -/
theorem tierFails_phase (die cause : Nat) (s : State) : (tierFails die cause s).boot.phase = s.boot.phase := by
  unfold tierFails
  split
  · dsimp only
    have h1 : ∀ u : State, (windowsGo u).boot.phase = u.boot.phase := fun u =>
      (windowsGo_keeps u (Keeps.rfl' _ u) (Within.rfl' _)).phase
    rw [h1, dieFailed_phase, foldl_phase _ (fun t p => (refuseAs_keeps _ p 0x04 t (Keeps.rfl' _ t) (Within.rfl' _)).phase),
      State.withTier_boot]
    exact foldl_phase _ (fun t (f : Nat × Frame) => (loseFrame_keeps f.1 t (Keeps.rfl' _ t) (Within.rfl' _)).phase) _ _
  · rfl

/-- A pool die that is lost. -/
theorem poolLost_phase (d : Nat) (s : State) : (poolLost d s).boot.phase = s.boot.phase :=
  (poolLost_keeps d s (Keeps.rfl' _ s) (Within.rfl' _)).phase

/-- A die that fails, whatever it is. -/
theorem failDie_phase (port cause : Nat) (s : State) : (failDie port cause s).boot.phase = s.boot.phase := by
  unfold failDie
  split
  · exact tileLost_phase _ _ _
  split
  · exact failStack_phase _ _ _
  split
  · exact (dieFailed_phase _ _ _).trans (poolLost_phase _ _)
  split
  · exact dieFailed_phase _ _ _
  split
  · exact hostFails_phase _ _
  split
  · exact ranoaFails_phase _ _ _
  split
  · exact tierFails_phase _ _ _
  · exact dieFailed_phase port cause _

/-- A trained link. -/
theorem trained_phase (port a b : Nat) (s : State) : (trained port a b s).boot.phase = s.boot.phase := by
  have h2 : ∀ t : State, (linkGo port t).boot.phase = t.boot.phase := fun t =>
    (linkGo_keeps port t (Keeps.rfl' _ t) (Within.rfl' _)).phase
  have h3 : ∀ t : State, (newEpoch port t).boot.phase = t.boot.phase := fun t =>
    (newEpoch_keeps port t (Keeps.rfl' _ t) (Within.rfl' _)).phase
  have h0 : ∀ (c : Prop) [Decidable c] (u : State) (e : EvItem), u.boot.phase = s.boot.phase →
      (if c then u else post e u).boot.phase = s.boot.phase := fun c _ u e hu => by
    split
    · exact hu
    · exact (post_phase e u).trans hu
  unfold trained
  dsimp only
  split
  · exact (failDie_phase _ _ _).trans (h0 _ _ _ rfl)
  · exact (h2 _).trans ((h3 _).trans (h0 _ _ _ rfl))

/-- The map-outs of a start. -/
theorem mapAtStart_phase (failed : List Nat) (s : State) : (mapAtStart failed s).boot.phase = s.boot.phase := by
  unfold mapAtStart
  refine (foldl_phase _ (fun t c => ?_) _ _).trans rfl
  dsimp only
  split
  · rfl
  · split
    · exact failStack_phase _ _ _
    · exact post_phase _ _

/-- A tier die that mounts. -/
theorem mountDie_phase (die : Nat) (ok power : Bool) (s : State) : (mountDie die ok power s).boot.phase = s.boot.phase := by
  unfold mountDie
  split
  · rfl
  split
  · show (if s.siteFailed (60 + die) = true then s else dieFailed (60 + die) 4 s).boot.phase = _
    split
    · rfl
    · exact dieFailed_phase _ _ _
  · dsimp only
    split
    · exact foldl_phase _ (fun t c => (poisonOpen_keeps die c t (Keeps.rfl' _ t) (Within.rfl' _)).phase) _ _
    · rfl

/-- The core dies start. -/
theorem runtimeStarts_phase (passed : List Nat) (s : State) : (runtimeStarts passed s).boot.phase = s.boot.phase := by
  unfold runtimeStarts
  refine foldl_phase _ (fun t d => ?_) _ _
  split
  · rfl
  · split
    · rfl
    · exact dieFailed_phase _ _ _

/-- The links that train at a start. -/
theorem trainAll_phase (ports : List Nat) (adv : List WidthAdv) (s : State) :
    (trainAll ports adv s).boot.phase = s.boot.phase := by
  unfold trainAll
  refine foldl_phase _ (fun t p => ?_) _ _
  split
  · rfl
  · exact trained_phase _ _ _ _

end Sys2Proof.Machine
end

