-- ==== Sys2Proof/Laws/Keeps.lean ====
section
/-!
SUPPORT. What every command keeps: the queue, the serial number, the canonical form of the memory; the fused count and the
number of free values drawn never fall.
-/
namespace Sys2Proof.Machine
set_option Elab.async false

/-- What every command keeps. -/
theorem exec_keeps (i : Instr) (s : State) : OnNext (Keeps (touches i) s) (exec i s) := by
  cases i with
  | powerUpStart vin => exact execPowerUpStart_keeps vin s (Keeps.rfl' _ s) (Within.rfl' _)
  | bootRomLoaded img => exact execBootRomLoaded_keeps img s (Keeps.rfl' _ s) (Within.rfl' _)
  | imageVerified => exact execImageVerified_keeps s (Keeps.rfl' _ s) (Within.rfl' _)
  | hostDieEnable => exact execHostDieEnable_keeps s (Keeps.rfl' _ s) (Within.rfl' _)
  | packageRailUp => exact execPackageRailUp_keeps s (Keeps.rfl' _ s) (Within.rfl' _)
  | emitterStable standbyOk => exact execEmitterStable_keeps standbyOk s (Keeps.rfl' _ s) (Within.rfl' _)
  | ringCalibrationDone => exact execRingCalibrationDone_keeps s (Keeps.rfl' _ s) (Within.rfl' _)
  | linksTrained adv => exact execLinksTrained_keeps adv s (Keeps.rfl' _ s) (Within.rfl' _)
  | tileSelfTestDone faults => exact execTileSelfTestDone_keeps faults s (Keeps.rfl' _ s) (Within.rfl' _)
  | hbmTrained failed => exact execHbmTrained_keeps failed s (Keeps.rfl' _ s) (Within.rfl' _)
  | hbmInitialised => exact execHbmInitialised_keeps s (Keeps.rfl' _ s) (Within.rfl' _)
  | tierMounted ok0 ok1 => exact execTierMounted_keeps ok0 ok1 s (Keeps.rfl' _ s) (Within.rfl' _)
  | coreSelfTestDone passed => exact execCoreSelfTestDone_keeps passed s (Keeps.rfl' _ s) (Within.rfl' _)
  | readySet => exact execReadySet_keeps s (Keeps.rfl' _ s) (Within.rfl' _)
  | startupStopped reason => exact execStartupStopped_keeps reason s (Keeps.rfl' _ s) (Within.rfl' _)
  | configReady => exact execConfigReady_keeps s (Keeps.rfl' _ s) (Within.rfl' _)
  | configRequest fn dword => exact execConfigRequest_keeps fn dword s (Keeps.rfl' _ s) (Within.rfl' _)
  | perstNAssert => exact execPerstNAssert_keeps s (Keeps.rfl' _ s) (Within.rfl' _)
  | perstNDeassert => exact execPerstNDeassert_keeps s (Keeps.rfl' _ s) (Within.rfl' _)
  | pwrbrkNAssert => exact execPwrbrkNAssert_keeps s (Keeps.rfl' _ s) (Within.rfl' _)
  | pwrbrkNRelease => exact execPwrbrkNRelease_keeps s (Keeps.rfl' _ s) (Within.rfl' _)
  | vin36OutOfRange vin => exact execVin36OutOfRange_keeps vin s (Keeps.rfl' _ s) (Within.rfl' _)
  | vinLowTimeout => exact execVinLowTimeout_keeps s (Keeps.rfl' _ s) (Within.rfl' _)
  | vinHighTimeout => exact execVinHighTimeout_keeps s (Keeps.rfl' _ s) (Within.rfl' _)
  | hubThermtripComparator => exact execHubThermtripComparator_keeps s (Keeps.rfl' _ s) (Within.rfl' _)
  | pldmFwUpdate => exact execPldmFwUpdate_keeps s (Keeps.rfl' _ s) (Within.rfl' _)
  | fwImageReceived img => exact execFwImageReceived_keeps img s (Keeps.rfl' _ s) (Within.rfl' _)
  | fwProgramDone ok => exact execFwProgramDone_keeps ok s (Keeps.rfl' _ s) (Within.rfl' _)
  | activateFirmware => exact execActivateFirmware_keeps s (Keeps.rfl' _ s) (Within.rfl' _)
  | recoveryGo addr len => exact execRecoveryGo_keeps addr len s (Keeps.rfl' _ s) (Within.rfl' _)
  | recoveryProgramDone img => exact execRecoveryProgramDone_keeps img s (Keeps.rfl' _ s) (Within.rfl' _)
  | spdmGetCertificate slot off len => exact execSpdmGetCertificate_keeps slot off len s (Keeps.rfl' _ s) (Within.rfl' _)
  | spdmChallenge req => exact execSpdmChallenge_keeps req s (Keeps.rfl' _ s) (Within.rfl' _)
  | spdmGetMeasurements index req => exact execSpdmGetMeasurements_keeps index req s (Keeps.rfl' _ s) (Within.rfl' _)
  | spdmKeyExchange req => exact execSpdmKeyExchange_keeps req s (Keeps.rfl' _ s) (Within.rfl' _)
  | spdmVendorDefinedRequest vendor code off len => exact execSpdmVendorDefinedRequest_keeps vendor code off len s (Keeps.rfl' _ s) (Within.rfl' _)
  | ideKmRequest stream lo hi key => exact execIdeKmRequest_keeps stream lo hi key s (Keeps.rfl' _ s) (Within.rfl' _)
  | mctpControl eid => exact execMctpControl_keeps eid s (Keeps.rfl' _ s) (Within.rfl' _)
  | pldmGetSensorReading sensor => exact execPldmGetSensorReading_keeps sensor s (Keeps.rfl' _ s) (Within.rfl' _)
  | pldmSetNumericEffecter limit => exact execPldmSetNumericEffecter_keeps limit s (Keeps.rfl' _ s) (Within.rfl' _)
  | ownerSet who req => exact execOwnerSet_keeps who req s (Keeps.rfl' _ s) (Within.rfl' _)
  | setHardPower who req => exact execSetHardPower_keeps who req s (Keeps.rfl' _ s) (Within.rfl' _)
  | setThermal who req => exact execSetThermal_keeps who req s (Keeps.rfl' _ s) (Within.rfl' _)
  | setPartition who req => exact execSetPartition_keeps who req s (Keeps.rfl' _ s) (Within.rfl' _)
  | debugUnlock who req => exact execDebugUnlock_keeps who req s (Keeps.rfl' _ s) (Within.rfl' _)
  | debugLock who req => exact execDebugLock_keeps who req s (Keeps.rfl' _ s) (Within.rfl' _)
  | sealRegs who => exact execSeal_keeps who s (Keeps.rfl' _ s) (Within.rfl' _)
  | warmreset who key => exact execWarmreset_keeps who key s (Keeps.rfl' _ s) (Within.rfl' _)
  | hubHeartbeatLoss => exact execHubHeartbeatLoss_keeps s (Keeps.rfl' _ s) (Within.rfl' _)
  | hostFailWarmReset => exact execHostFailWarmReset_keeps s (Keeps.rfl' _ s) (Within.rfl' _)
  | warmResetBegin => exact execWarmResetBegin_keeps s (Keeps.rfl' _ s) (Within.rfl' _)
  | warmResetFenced => exact execWarmResetFenced_keeps s (Keeps.rfl' _ s) (Within.rfl' _)
  | warmResetHubReady => exact execWarmResetHubReady_keeps s (Keeps.rfl' _ s) (Within.rfl' _)
  | warmResetDiesReset adv => exact execWarmResetDiesReset_keeps adv s (Keeps.rfl' _ s) (Within.rfl' _)
  | warmResetHbmTrained failed => exact execWarmResetHbmTrained_keeps failed s (Keeps.rfl' _ s) (Within.rfl' _)
  | warmResetHbmInitialised => exact execWarmResetHbmInitialised_keeps s (Keeps.rfl' _ s) (Within.rfl' _)
  | warmResetTierRemounted bad => exact execWarmResetTierRemounted_keeps bad s (Keeps.rfl' _ s) (Within.rfl' _)
  | warmResetRuntimeStarted passed => exact execWarmResetRuntimeStarted_keeps passed s (Keeps.rfl' _ s) (Within.rfl' _)
  | warmResetReady => exact execWarmResetReady_keeps s (Keeps.rfl' _ s) (Within.rfl' _)
  | ivoryDieStop => exact execIvoryDieStop_keeps s (Keeps.rfl' _ s) (Within.rfl' _)
  | registerWrite who off size data => exact execRegisterWrite_keeps who off size data s (Keeps.rfl' _ s) (Within.rfl' _)
  | bar0MalformedAccess fn off isWrite => exact execBar0MalformedAccess_keeps fn off isWrite s (Keeps.rfl' _ s) (Within.rfl' _)
  | coreReservedRegisterAccess core addr isWrite => exact execCoreReservedRegisterAccess_keeps core addr isWrite s (Keeps.rfl' _ s) (Within.rfl' _)
  | ivrInternalWrite core off => exact execIvrInternalWrite_keeps core off s (Keeps.rfl' _ s) (Within.rfl' _)
  | read p e => exact execRead_keeps p e s (Keeps.rfl' _ s) (Within.rfl' _)
  | narrowRead p e => exact execNarrowRead_keeps p e s (Keeps.rfl' _ s) (Within.rfl' _)
  | write p => exact execWrite_keeps p s (Keeps.rfl' _ s) (Within.rfl' _)
  | writeMasked p e => exact execWriteMasked_keeps p e s (Keeps.rfl' _ s) (Within.rfl' _)
  | readWaitTurnTimeout stack pc => exact execReadWaitTurnTimeout_keeps stack pc s (Keeps.rfl' _ s) (Within.rfl' _)
  | atomicSwap p e => exact execAtomicSwap_keeps p e s (Keeps.rfl' _ s) (Within.rfl' _)
  | atomicAdd p e => exact execAtomicAdd_keeps p e s (Keeps.rfl' _ s) (Within.rfl' _)
  | atomicAnd p e => exact execAtomicAnd_keeps p e s (Keeps.rfl' _ s) (Within.rfl' _)
  | atomicOr p e => exact execAtomicOr_keeps p e s (Keeps.rfl' _ s) (Within.rfl' _)
  | atomicXor p e => exact execAtomicXor_keeps p e s (Keeps.rfl' _ s) (Within.rfl' _)
  | atomicMin p e => exact execAtomicMin_keeps p e s (Keeps.rfl' _ s) (Within.rfl' _)
  | atomicMax p e => exact execAtomicMax_keeps p e s (Keeps.rfl' _ s) (Within.rfl' _)
  | atomicMinu p e => exact execAtomicMinu_keeps p e s (Keeps.rfl' _ s) (Within.rfl' _)
  | atomicMaxu p e => exact execAtomicMaxu_keeps p e s (Keeps.rfl' _ s) (Within.rfl' _)
  | gatherRows p e => exact execGatherRows_keeps p e s (Keeps.rfl' _ s) (Within.rfl' _)
  | scatterAdd p e => exact execScatterAdd_keeps p e s (Keeps.rfl' _ s) (Within.rfl' _)
  | reduce core stack tag => exact execReduce_keeps core stack tag s (Keeps.rfl' _ s) (Within.rfl' _)
  | kvAppend core stack tag => exact execKvAppend_keeps core stack tag s (Keeps.rfl' _ s) (Within.rfl' _)
  | stackCmdResult core stack => exact execStackCmdResult_keeps core stack s (Keeps.rfl' _ s) (Within.rfl' _)
  | dispatch pos ring seq part => exact execDispatch_keeps pos ring seq part s (Keeps.rfl' _ s) (Within.rfl' _)
  | respData p => exact execRespData_keeps p s (Keeps.rfl' _ s) (Within.rfl' _)
  | respAck p => exact execRespAck_keeps p s (Keeps.rfl' _ s) (Within.rfl' _)
  | respErr p => exact execRespErr_keeps p s (Keeps.rfl' _ s) (Within.rfl' _)
  | respRetry p => exact execRespRetry_keeps p s (Keeps.rfl' _ s) (Within.rfl' _)
  | mgmt src dst kind => exact execMgmt_keeps src dst kind s (Keeps.rfl' _ s) (Within.rfl' _)
  | linkAck port side seq => exact execLinkAck_keeps port side seq s (Keeps.rfl' _ s) (Within.rfl' _)
  | linkNak port side => exact execLinkNak_keeps port side s (Keeps.rfl' _ s) (Within.rfl' _)
  | creditReturn port side dst vc n => exact execCreditReturn_keeps port side dst vc n s (Keeps.rfl' _ s) (Within.rfl' _)
  | heartbeat port side => exact execHeartbeat_keeps port side s (Keeps.rfl' _ s) (Within.rfl' _)
  | epochChange port => exact execEpochChange_keeps port s (Keeps.rfl' _ s) (Within.rfl' _)
  | ackOverdue port side => exact execAckOverdue_keeps port side s (Keeps.rfl' _ s) (Within.rfl' _)
  | heartbeatSend port side => exact execHeartbeatSend_keeps port side s (Keeps.rfl' _ s) (Within.rfl' _)
  | carrierLossTimeout port => exact execCarrierLossTimeout_keeps port s (Keeps.rfl' _ s) (Within.rfl' _)
  | fastRetrainDone port advDie advHub => exact execFastRetrainDone_keeps port advDie advHub s (Keeps.rfl' _ s) (Within.rfl' _)
  | fullTrainingDone port advDie advHub => exact execFullTrainingDone_keeps port advDie advHub s (Keeps.rfl' _ s) (Within.rfl' _)
  | retrainTimeout port => exact execRetrainTimeout_keeps port s (Keeps.rfl' _ s) (Within.rfl' _)
  | fenceComplete port => exact execFenceComplete_keeps port s (Keeps.rfl' _ s) (Within.rfl' _)
  | targetTimeout src tid => exact execTargetTimeout_keeps src tid s (Keeps.rfl' _ s) (Within.rfl' _)
  | tierWaitTimeout src tid => exact execTierWaitTimeout_keeps src tid s (Keeps.rfl' _ s) (Within.rfl' _)
  | calibrationPause port => exact execCalibrationPause_keeps port s (Keeps.rfl' _ s) (Within.rfl' _)
  | calibrationResume port => exact execCalibrationResume_keeps port s (Keeps.rfl' _ s) (Within.rfl' _)
  | emitterFailure => exact execEmitterFailure_keeps s (Keeps.rfl' _ s) (Within.rfl' _)
  | rootClockLoss site => exact execRootClockLoss_keeps site s (Keeps.rfl' _ s) (Within.rfl' _)
  | rootClockReturn site => exact execRootClockReturn_keeps site s (Keeps.rfl' _ s) (Within.rfl' _)
  | holdoverExpired port => exact execHoldoverExpired_keeps port s (Keeps.rfl' _ s) (Within.rfl' _)
  | hubLinkerrRead who port => exact execHubLinkerrRead_keeps who port s (Keeps.rfl' _ s) (Within.rfl' _)
  | nop pos slot => exact execNop_keeps pos slot s (Keeps.rfl' _ s) (Within.rfl' _)
  | li pos slot => exact execLi_keeps pos slot s (Keeps.rfl' _ s) (Within.rfl' _)
  | alu pos slot => exact execAlu_keeps pos slot s (Keeps.rfl' _ s) (Within.rfl' _)
  | alui pos slot => exact execAlui_keeps pos slot s (Keeps.rfl' _ s) (Within.rfl' _)
  | br pos slot => exact execBr_keeps pos slot s (Keeps.rfl' _ s) (Within.rfl' _)
  | jmp pos slot => exact execJmp_keeps pos slot s (Keeps.rfl' _ s) (Within.rfl' _)
  | loop pos slot => exact execLoop_keeps pos slot s (Keeps.rfl' _ s) (Within.rfl' _)
  | lset pos slot => exact execLset_keeps pos slot s (Keeps.rfl' _ s) (Within.rfl' _)
  | ladd pos slot => exact execLadd_keeps pos slot s (Keeps.rfl' _ s) (Within.rfl' _)
  | lcpy pos slot => exact execLcpy_keeps pos slot s (Keeps.rfl' _ s) (Within.rfl' _)
  | rdstat pos slot => exact execRdstat_keeps pos slot s (Keeps.rfl' _ s) (Within.rfl' _)
  | clrstat pos slot => exact execClrstat_keeps pos slot s (Keeps.rfl' _ s) (Within.rfl' _)
  | rdctl pos slot => exact execRdctl_keeps pos slot s (Keeps.rfl' _ s) (Within.rfl' _)
  | wrctl pos slot => exact execWrctl_keeps pos slot s (Keeps.rfl' _ s) (Within.rfl' _)
  | sysrd pos slot => exact execSysrd_keeps pos slot s (Keeps.rfl' _ s) (Within.rfl' _)
  | fence pos slot => exact execFence_keeps pos slot s (Keeps.rfl' _ s) (Within.rfl' _)
  | hint pos slot => exact execHint_keeps pos slot s (Keeps.rfl' _ s) (Within.rfl' _)
  | exit pos slot => exact execExit_keeps pos slot s (Keeps.rfl' _ s) (Within.rfl' _)
  | mma pos slot => exact execMma_keeps pos slot s (Keeps.rfl' _ s) (Within.rfl' _)
  | mdrain pos slot => exact execMdrain_keeps pos slot s (Keeps.rfl' _ s) (Within.rfl' _)
  | vld pos slot => exact execVld_keeps pos slot s (Keeps.rfl' _ s) (Within.rfl' _)
  | vst pos slot => exact execVst_keeps pos slot s (Keeps.rfl' _ s) (Within.rfl' _)
  | vop pos slot => exact execVop_keeps pos slot s (Keeps.rfl' _ s) (Within.rfl' _)
  | vops pos slot => exact execVops_keeps pos slot s (Keeps.rfl' _ s) (Within.rfl' _)
  | vcmp pos slot => exact execVcmp_keeps pos slot s (Keeps.rfl' _ s) (Within.rfl' _)
  | vmask pos slot => exact execVmask_keeps pos slot s (Keeps.rfl' _ s) (Within.rfl' _)
  | vred pos slot => exact execVred_keeps pos slot s (Keeps.rfl' _ s) (Within.rfl' _)
  | vsfu pos slot => exact execVsfu_keeps pos slot s (Keeps.rfl' _ s) (Within.rfl' _)
  | vcvt pos slot => exact execVcvt_keeps pos slot s (Keeps.rfl' _ s) (Within.rfl' _)
  | load pos slot => exact execLoad_keeps pos slot s (Keeps.rfl' _ s) (Within.rfl' _)
  | store pos slot => exact execStore_keeps pos slot s (Keeps.rfl' _ s) (Within.rfl' _)
  | gather pos slot => exact execGather_keeps pos slot s (Keeps.rfl' _ s) (Within.rfl' _)
  | scatteradd pos slot => exact execScatteradd_keeps pos slot s (Keeps.rfl' _ s) (Within.rfl' _)
  | xpref pos slot => exact execXpref_keeps pos slot s (Keeps.rfl' _ s) (Within.rfl' _)
  | put pos slot => exact execPut_keeps pos slot s (Keeps.rfl' _ s) (Within.rfl' _)
  | get pos slot => exact execGet_keeps pos slot s (Keeps.rfl' _ s) (Within.rfl' _)
  | signal pos slot => exact execSignal_keeps pos slot s (Keeps.rfl' _ s) (Within.rfl' _)
  | rsignal pos slot => exact execRsignal_keeps pos slot s (Keeps.rfl' _ s) (Within.rfl' _)
  | wait pos slot => exact execWait_keeps pos slot s (Keeps.rfl' _ s) (Within.rfl' _)
  | tokset pos slot => exact execTokset_keeps pos slot s (Keeps.rfl' _ s) (Within.rfl' _)
  | tokwait pos slot => exact execTokwait_keeps pos slot s (Keeps.rfl' _ s) (Within.rfl' _)
  | queueInstrStart pos slot q => exact execQueueInstrStart_keeps pos slot q s (Keeps.rfl' _ s) (Within.rfl' _)
  | rsignalSend pos slot => exact execRsignalSend_keeps pos slot s (Keeps.rfl' _ s) (Within.rfl' _)
  | matrixInstrComplete pos slot id => exact execMatrixInstrComplete_keeps pos slot id s (Keeps.rfl' _ s) (Within.rfl' _)
  | vectorInstrComplete pos slot => exact execVectorInstrComplete_keeps pos slot s (Keeps.rfl' _ s) (Within.rfl' _)
  | inboundMoveComplete pos slot id => exact execInboundMoveComplete_keeps pos slot id s (Keeps.rfl' _ s) (Within.rfl' _)
  | outboundMoveComplete pos slot id => exact execOutboundMoveComplete_keeps pos slot id s (Keeps.rfl' _ s) (Within.rfl' _)
  | syncInstrComplete pos slot id => exact execSyncInstrComplete_keeps pos slot id s (Keeps.rfl' _ s) (Within.rfl' _)
  | xprefComplete pos slot id => exact execXprefComplete_keeps pos slot id s (Keeps.rfl' _ s) (Within.rfl' _)
  | gatherListRead pos slot id => exact execGatherListRead_keeps pos slot id s (Keeps.rfl' _ s) (Within.rfl' _)
  | slotEnd pos slot => exact execSlotEnd_keeps pos slot s (Keeps.rfl' _ s) (Within.rfl' _)
  | programHeaderRead pos slot hdr => exact execProgramHeaderRead_keeps pos slot hdr s (Keeps.rfl' _ s) (Within.rfl' _)
  | programLoaded pos slot words => exact execProgramLoaded_keeps pos slot words s (Keeps.rfl' _ s) (Within.rfl' _)
  | zeroingDone pos slot => exact execZeroingDone_keeps pos slot s (Keeps.rfl' _ s) (Within.rfl' _)
  | syncAdd src tid obj v => exact execSyncAdd_keeps src tid obj v s (Keeps.rfl' _ s) (Within.rfl' _)
  | syncSet src tid obj v => exact execSyncSet_keeps src tid obj v s (Keeps.rfl' _ s) (Within.rfl' _)
  | syncWaitGe src tid obj v => exact execSyncWaitGe_keeps src tid obj v s (Keeps.rfl' _ s) (Within.rfl' _)
  | syncWaitEq src tid obj v => exact execSyncWaitEq_keeps src tid obj v s (Keeps.rfl' _ s) (Within.rfl' _)
  | syncRead src tid obj fn => exact execSyncRead_keeps src tid obj fn s (Keeps.rfl' _ s) (Within.rfl' _)
  | syncWake dst tid v => exact execSyncWake_keeps dst tid v s (Keeps.rfl' _ s) (Within.rfl' _)
  | syncValueWrite who obj v => exact execSyncValueWrite_keeps who obj v s (Keeps.rfl' _ s) (Within.rfl' _)
  | amoaddD core obj v => exact execAmoaddD_keeps core obj v s (Keeps.rfl' _ s) (Within.rfl' _)
  | coreSyncBadAccess core addr kind => exact execCoreSyncBadAccess_keeps core addr kind s (Keeps.rfl' _ s) (Within.rfl' _)
  | syncStatRead who obj => exact execSyncStatRead_keeps who obj s (Keeps.rfl' _ s) (Within.rfl' _)
  | arrivalCountAdd id => exact execArrivalCountAdd_keeps id s (Keeps.rfl' _ s) (Within.rfl' _)
  | refresh stack pc bank => exact execRefresh_keeps stack pc bank s (Keeps.rfl' _ s) (Within.rfl' _)
  | patrolScrub stack e => exact execPatrolScrub_keeps stack e s (Keeps.rfl' _ s) (Within.rfl' _)
  | stackTempSample stack temp => exact execStackTempSample_keeps stack temp s (Keeps.rfl' _ s) (Within.rfl' _)
  | mapoutStart slot => exact execMapoutStart_keeps slot s (Keeps.rfl' _ s) (Within.rfl' _)
  | mapoutEvictDone => exact execMapoutEvictDone_keeps s (Keeps.rfl' _ s) (Within.rfl' _)
  | mapoutMapDistributed => exact execMapoutMapDistributed_keeps s (Keeps.rfl' _ s) (Within.rfl' _)
  | mapoutComplete => exact execMapoutComplete_keeps s (Keeps.rfl' _ s) (Within.rfl' _)
  | layerFailure stack layer => exact execLayerFailure_keeps stack layer s (Keeps.rfl' _ s) (Within.rfl' _)
  | stackRecoveryStart stack => exact execStackRecoveryStart_keeps stack s (Keeps.rfl' _ s) (Within.rfl' _)
  | stackRecoveryDone stack ok failed => exact execStackRecoveryDone_keeps stack ok failed s (Keeps.rfl' _ s) (Within.rfl' _)
  | memErrRead who stack => exact execMemErrRead_keeps who stack s (Keeps.rfl' _ s) (Within.rfl' _)
  | poolFillDone die sector => exact execPoolFillDone_keeps die sector s (Keeps.rfl' _ s) (Within.rfl' _)
  | poolHandbackDone die sector => exact execPoolHandbackDone_keeps die sector s (Keeps.rfl' _ s) (Within.rfl' _)
  | poolDirtyMarkDone die unit => exact execPoolDirtyMarkDone_keeps die unit s (Keeps.rfl' _ s) (Within.rfl' _)
  | poolDieFailure die => exact execPoolDieFailure_keeps die s (Keeps.rfl' _ s) (Within.rfl' _)
  | poolDieRecoveryDone die ok => exact execPoolDieRecoveryDone_keeps die ok s (Keeps.rfl' _ s) (Within.rfl' _)
  | memPoolstatRead who die => exact execMemPoolstatRead_keeps who die s (Keeps.rfl' _ s) (Within.rfl' _)
  | tierMapMiss tile => exact execTierMapMiss_keeps tile s (Keeps.rfl' _ s) (Within.rfl' _)
  | tierMapReply tile => exact execTierMapReply_keeps tile s (Keeps.rfl' _ s) (Within.rfl' _)
  | frameEvictionDone frame => exact execFrameEvictionDone_keeps frame s (Keeps.rfl' _ s) (Within.rfl' _)
  | tierFetchDone tile bad => exact execTierFetchDone_keeps tile bad s (Keeps.rfl' _ s) (Within.rfl' _)
  | partOpenRecorded part => exact execPartOpenRecorded_keeps part s (Keeps.rfl' _ s) (Within.rfl' _)
  | flashProgramDone part block => exact execFlashProgramDone_keeps part block s (Keeps.rfl' _ s) (Within.rfl' _)
  | tierBackgroundWriteback => exact execTierBackgroundWriteback_keeps s (Keeps.rfl' _ s) (Within.rfl' _)
  | tierFlush who => exact execTierFlush_keeps who s (Keeps.rfl' _ s) (Within.rfl' _)
  | tierFlushDone => exact execTierFlushDone_keeps s (Keeps.rfl' _ s) (Within.rfl' _)
  | tierPinSet who n first count => exact execTierPinSet_keeps who n first count s (Keeps.rfl' _ s) (Within.rfl' _)
  | tierPinClear who n => exact execTierPinClear_keeps who n s (Keeps.rfl' _ s) (Within.rfl' _)
  | tierPinResident n => exact execTierPinResident_keeps n s (Keeps.rfl' _ s) (Within.rfl' _)
  | wearLevelling die fromBlock toBlock => exact execWearLevelling_keeps die fromBlock toBlock s (Keeps.rfl' _ s) (Within.rfl' _)
  | readDisturbRelocate die block => exact execReadDisturbRelocate_keeps die block s (Keeps.rfl' _ s) (Within.rfl' _)
  | badBlockRetire die block repl spare => exact execBadBlockRetire_keeps die block repl spare s (Keeps.rfl' _ s) (Within.rfl' _)
  | tierDieFailure die => exact execTierDieFailure_keeps die s (Keeps.rfl' _ s) (Within.rfl' _)
  | tierDieRead who die => exact execTierDieRead_keeps who die s (Keeps.rfl' _ s) (Within.rfl' _)
  | tableWalkDone ctx page reason => exact execTableWalkDone_keeps ctx page reason s (Keeps.rfl' _ s) (Within.rfl' _)
  | atsCompletion ctx page units => exact execAtsCompletion_keeps ctx page units s (Keeps.rfl' _ s) (Within.rfl' _)
  | priResponse ctx page unit ok => exact execPriResponse_keeps ctx page unit ok s (Keeps.rfl' _ s) (Within.rfl' _)
  | atsInvalidateRequest fn tag dva bytes => exact execAtsInvalidateRequest_keeps fn tag dva bytes s (Keeps.rfl' _ s) (Within.rfl' _)
  | atsInvalidateDone fn tag => exact execAtsInvalidateDone_keeps fn tag s (Keeps.rfl' _ s) (Within.rfl' _)
  | xltResume who ctx => exact execXltResume_keeps who ctx s (Keeps.rfl' _ s) (Within.rfl' _)
  | faultTimeout ctx page => exact execFaultTimeout_keeps ctx page s (Keeps.rfl' _ s) (Within.rfl' _)
  | xltStatRead who => exact execXltStatRead_keeps who s (Keeps.rfl' _ s) (Within.rfl' _)
  | xltFrctlRead who ctx => exact execXltFrctlRead_keeps who ctx s (Keeps.rfl' _ s) (Within.rfl' _)
  | cfence core => exact execCfence_keeps core s (Keeps.rfl' _ s) (Within.rfl' _)
  | cfenceComplete core => exact execCfenceComplete_keeps core s (Keeps.rfl' _ s) (Within.rfl' _)
  | coreIoStoreError core addr reason => exact execCoreIoStoreError_keeps core addr reason s (Keeps.rfl' _ s) (Within.rfl' _)
  | coreIoLoadPoison core addr reason => exact execCoreIoLoadPoison_keeps core addr reason s (Keeps.rfl' _ s) (Within.rfl' _)
  | poisonException core addr => exact execPoisonException_keeps core addr s (Keeps.rfl' _ s) (Within.rfl' _)
  | serrstatClear core mask => exact execSerrstatClear_keeps core mask s (Keeps.rfl' _ s) (Within.rfl' _)
  | coreAccessFault core addr size kind => exact execCoreAccessFault_keeps core addr size kind s (Keeps.rfl' _ s) (Within.rfl' _)
  | cboZero core addr => exact execCboZero_keeps core addr s (Keeps.rfl' _ s) (Within.rfl' _)
  | dirtyLineEvict die addr data => exact execDirtyLineEvict_keeps die addr data s (Keeps.rfl' _ s) (Within.rfl' _)
  | cacheParityError core addr instr => exact execCacheParityError_keeps core addr instr s (Keeps.rfl' _ s) (Within.rfl' _)
  | cacheDataError die addr correctable => exact execCacheDataError_keeps die addr correctable s (Keeps.rfl' _ s) (Within.rfl' _)
  | cacheTagError die addr => exact execCacheTagError_keeps die addr s (Keeps.rfl' _ s) (Within.rfl' _)
  | coreDieMachineCheck die core => exact execCoreDieMachineCheck_keeps die core s (Keeps.rfl' _ s) (Within.rfl' _)
  | coreDiePoisonDone die => exact execCoreDiePoisonDone_keeps die s (Keeps.rfl' _ s) (Within.rfl' _)
  | coreDieResetDone die => exact execCoreDieResetDone_keeps die s (Keeps.rfl' _ s) (Within.rfl' _)
  | coreDieRecoveryDone die ok => exact execCoreDieRecoveryDone_keeps die ok s (Keeps.rfl' _ s) (Within.rfl' _)
  | rdS p e => exact execRdS_keeps p e s (Keeps.rfl' _ s) (Within.rfl' _)
  | rdX p e => exact execRdX_keeps p e s (Keeps.rfl' _ s) (Within.rfl' _)
  | upg p e => exact execUpg_keeps p e s (Keeps.rfl' _ s) (Within.rfl' _)
  | zero p => exact execZero_keeps p s (Keeps.rfl' _ s) (Within.rfl' _)
  | evn p => exact execEvn_keeps p s (Keeps.rfl' _ s) (Within.rfl' _)
  | snpInv p data => exact execSnpInv_keeps p data s (Keeps.rfl' _ s) (Within.rfl' _)
  | snpShr p data => exact execSnpShr_keeps p data s (Keeps.rfl' _ s) (Within.rfl' _)
  | snpFwd p => exact execSnpFwd_keeps p s (Keeps.rfl' _ s) (Within.rfl' _)
  | cohResend die addr => exact execCohResend_keeps die addr s (Keeps.rfl' _ s) (Within.rfl' _)
  | routerSourceEvent die src => exact execRouterSourceEvent_keeps die src s (Keeps.rfl' _ s) (Within.rfl' _)
  | routerTimeExpiry die src => exact execRouterTimeExpiry_keeps die src s (Keeps.rfl' _ s) (Within.rfl' _)
  | routerDelivery die => exact execRouterDelivery_keeps die s (Keeps.rfl' _ s) (Within.rfl' _)
  | evtIclaimRead core of => exact execEvtIclaimRead_keeps core of s (Keeps.rfl' _ s) (Within.rfl' _)
  | evtIclaimWrite core of v => exact execEvtIclaimWrite_keeps core of v s (Keeps.rfl' _ s) (Within.rfl' _)
  | evtIthrWrite core of v => exact execEvtIthrWrite_keeps core of v s (Keeps.rfl' _ s) (Within.rfl' _)
  | evtIstatSet core die src => exact execEvtIstatSet_keeps core die src s (Keeps.rfl' _ s) (Within.rfl' _)
  | evtIstatPendingClear core die src => exact execEvtIstatPendingClear_keeps core die src s (Keeps.rfl' _ s) (Within.rfl' _)
  | evtIsrcWrite core die src v => exact execEvtIsrcWrite_keeps core die src v s (Keeps.rfl' _ s) (Within.rfl' _)
  | coreFifoInsert die ev => exact execCoreFifoInsert_keeps die ev s (Keeps.rfl' _ s) (Within.rfl' _)
  | evtCpopRead core die => exact execEvtCpopRead_keeps core die s (Keeps.rfl' _ s) (Within.rfl' _)
  | evtCctlFlush core die => exact execEvtCctlFlush_keeps core die s (Keeps.rfl' _ s) (Within.rfl' _)
  | evtCstatRead core die => exact execEvtCstatRead_keeps core die s (Keeps.rfl' _ s) (Within.rfl' _)
  | dlDown => exact execDlDown_keeps s (Keeps.rfl' _ s) (Within.rfl' _)
  | hotReset => exact execHotReset_keeps s (Keeps.rfl' _ s) (Within.rfl' _)
  | flrPf0 => exact execFlrPf0_keeps s (Keeps.rfl' _ s) (Within.rfl' _)
  | flrVf fn => exact execFlrVf_keeps fn s (Keeps.rfl' _ s) (Within.rfl' _)
  | linkRecoveryEnter => exact execLinkRecoveryEnter_keeps s (Keeps.rfl' _ s) (Within.rfl' _)
  | linkL0Return speed width flit => exact execLinkL0Return_keeps speed width flit s (Keeps.rfl' _ s) (Within.rfl' _)
  | tlpAcked => exact execTlpAcked_keeps s (Keeps.rfl' _ s) (Within.rfl' _)
  | openSession who fn => exact execOpen_keeps who fn s (Keeps.rfl' _ s) (Within.rfl' _)
  | claim who fn => exact execClaim_keeps who fn s (Keeps.rfl' _ s) (Within.rfl' _)
  | claimDone fn => exact execClaimDone_keeps fn s (Keeps.rfl' _ s) (Within.rfl' _)
  | claimRefusalEnd fn => exact execClaimRefusalEnd_keeps fn s (Keeps.rfl' _ s) (Within.rfl' _)
  | release who fn => exact execRelease_keeps who fn s (Keeps.rfl' _ s) (Within.rfl' _)
  | holdExpiry fn => exact execHoldExpiry_keeps fn s (Keeps.rfl' _ s) (Within.rfl' _)
  | redeliver who fn n items => exact execRedeliver_keeps who fn n items s (Keeps.rfl' _ s) (Within.rfl' _)
  | redeliverItemDone fn => exact execRedeliverItemDone_keeps fn s (Keeps.rfl' _ s) (Within.rfl' _)
  | hifSessctlRead who fn => exact execHifSessctlRead_keeps who fn s (Keeps.rfl' _ s) (Within.rfl' _)
  | hifLinkstatRead who => exact execHifLinkstatRead_keeps who s (Keeps.rfl' _ s) (Within.rfl' _)
  | placementWrite rid off data ep => exact execPlacementWrite_keeps rid off data ep s (Keeps.rfl' _ s) (Within.rfl' _)
  | ideCheckFail rid off placement => exact execIdeCheckFail_keeps rid off placement s (Keeps.rfl' _ s) (Within.rfl' _)
  | bar2Read rid off => exact execBar2Read_keeps rid off s (Keeps.rfl' _ s) (Within.rfl' _)
  | hifPlogRead who => exact execHifPlogRead_keeps who s (Keeps.rfl' _ s) (Within.rfl' _)
  | hifPlapValidSet who n v => exact execHifPlapValidSet_keeps who n v s (Keeps.rfl' _ s) (Within.rfl' _)
  | hifPlapValidClear who n => exact execHifPlapValidClear_keeps who n s (Keeps.rfl' _ s) (Within.rfl' _)
  | placementDrainDone n => exact execPlacementDrainDone_keeps n s (Keeps.rfl' _ s) (Within.rfl' _)
  | stagedOutputCopy ring seq region => exact execStagedOutputCopy_keeps ring seq region s (Keeps.rfl' _ s) (Within.rfl' _)
  | stagedCopyFreed ring seq region => exact execStagedCopyFreed_keeps ring seq region s (Keeps.rfl' _ s) (Within.rfl' _)
  | crossPathFlushDone ring seq => exact execCrossPathFlushDone_keeps ring seq s (Keeps.rfl' _ s) (Within.rfl' _)
  | doorbellPoll => exact execDoorbellPoll_keeps s (Keeps.rfl' _ s) (Within.rfl' _)
  | doorbellLineRead fn line bits => exact execDoorbellLineRead_keeps fn line bits s (Keeps.rfl' _ s) (Within.rfl' _)
  | prodRead ring prod cons => exact execProdRead_keeps ring prod cons s (Keeps.rfl' _ s) (Within.rfl' _)
  | devmemRingNotify ring => exact execDevmemRingNotify_keeps ring s (Keeps.rfl' _ s) (Within.rfl' _)
  | descriptorFetched ring desc lists => exact execDescriptorFetched_keeps ring desc lists s (Keeps.rfl' _ s) (Within.rfl' _)
  | journalEntryAcked ring => exact execJournalEntryAcked_keeps ring s (Keeps.rfl' _ s) (Within.rfl' _)
  | run ring => exact execRun_keeps ring s (Keeps.rfl' _ s) (Within.rfl' _)
  | copy ring => exact execCopy_keeps ring s (Keeps.rfl' _ s) (Within.rfl' _)
  | fill ring => exact execFill_keeps ring s (Keeps.rfl' _ s) (Within.rfl' _)
  | waitDescriptor ring => exact execWaitDescriptor_keeps ring s (Keeps.rfl' _ s) (Within.rfl' _)
  | signalDescriptor ring => exact execSignalDescriptor_keeps ring s (Keeps.rfl' _ s) (Within.rfl' _)
  | hintDescriptor ring => exact execHintDescriptor_keeps ring s (Keeps.rfl' _ s) (Within.rfl' _)
  | barrier ring => exact execBarrier_keeps ring s (Keeps.rfl' _ s) (Within.rfl' _)
  | migrate ring => exact execMigrate_keeps ring s (Keeps.rfl' _ s) (Within.rfl' _)
  | migrateCopyDone ring seq data => exact execMigrateCopyDone_keeps ring seq data s (Keeps.rfl' _ s) (Within.rfl' _)
  | migrateBackDone ring seq => exact execMigrateBackDone_keeps ring seq s (Keeps.rfl' _ s) (Within.rfl' _)
  | invalidate ring items => exact execInvalidate_keeps ring items s (Keeps.rfl' _ s) (Within.rfl' _)
  | updateItemApplied ring seq reason => exact execUpdateItemApplied_keeps ring seq reason s (Keeps.rfl' _ s) (Within.rfl' _)
  | invalidateDrainDone ring seq => exact execInvalidateDrainDone_keeps ring seq s (Keeps.rfl' _ s) (Within.rfl' _)
  | headTimeout ring seq => exact execHeadTimeout_keeps ring seq s (Keeps.rfl' _ s) (Within.rfl' _)
  | resourceWaitLimit ring => exact execResourceWaitLimit_keeps ring s (Keeps.rfl' _ s) (Within.rfl' _)
  | checkpointDone ring seq => exact execCheckpointDone_keeps ring seq s (Keeps.rfl' _ s) (Within.rfl' _)
  | commandComplete ring seq => exact execCommandComplete_keeps ring seq s (Keeps.rfl' _ s) (Within.rfl' _)
  | recordWrite ring => exact execRecordWrite_keeps ring s (Keeps.rfl' _ s) (Within.rfl' _)
  | ringEnable who ring => exact execRingEnable_keeps who ring s (Keeps.rfl' _ s) (Within.rfl' _)
  | ringDisable who ring => exact execRingDisable_keeps who ring s (Keeps.rfl' _ s) (Within.rfl' _)
  | ctxRctlReset who ring => exact execCtxRctlReset_keeps who ring s (Keeps.rfl' _ s) (Within.rfl' _)
  | ctxCfgWrite who ctx v => exact execCtxCfgWrite_keeps who ctx v s (Keeps.rfl' _ s) (Within.rfl' _)
  | ctxRstatRead who ring => exact execCtxRstatRead_keeps who ring s (Keeps.rfl' _ s) (Within.rfl' _)
  | msixEvent fn vec => exact execMsixEvent_keeps fn vec s (Keeps.rfl' _ s) (Within.rfl' _)
  | msixTimeExpiry fn vec => exact execMsixTimeExpiry_keeps fn vec s (Keeps.rfl' _ s) (Within.rfl' _)
  | msixUnmask fn vec => exact execMsixUnmask_keeps fn vec s (Keeps.rfl' _ s) (Within.rfl' _)
  | hostFifoInsert ev => exact execHostFifoInsert_keeps ev s (Keeps.rfl' _ s) (Within.rfl' _)
  | evtPopRead who => exact execEvtPopRead_keeps who s (Keeps.rfl' _ s) (Within.rfl' _)
  | evtCtlFlush who => exact execEvtCtlFlush_keeps who s (Keeps.rfl' _ s) (Within.rfl' _)
  | evtLostRead who => exact execEvtLostRead_keeps who s (Keeps.rfl' _ s) (Within.rfl' _)
  | eventSecondEnd => exact execEventSecondEnd_keeps s (Keeps.rfl' _ s) (Within.rfl' _)
  | getReq port r => exact execGetReq_keeps port r s (Keeps.rfl' _ s) (Within.rfl' _)
  | ranoaPut port r => exact execRanoaPut_keeps port r s (Keeps.rfl' _ s) (Within.rfl' _)
  | ranoaPutMasked port r => exact execRanoaPutMasked_keeps port r s (Keeps.rfl' _ s) (Within.rfl' _)
  | getData port r => exact execGetData_keeps port r s (Keeps.rfl' _ s) (Within.rfl' _)
  | putAck port r => exact execPutAck_keeps port r s (Keeps.rfl' _ s) (Within.rfl' _)
  | err port r => exact execErr_keeps port r s (Keeps.rfl' _ s) (Within.rfl' _)
  | sbMsg port m => exact execSbMsg_keeps port m s (Keeps.rfl' _ s) (Within.rfl' _)
  | hello port serial peerPort lanes => exact execHello_keeps port serial peerPort lanes s (Keeps.rfl' _ s) (Within.rfl' _)
  | ranoaLinkAck port lseq => exact execRanoaLinkAck_keeps port lseq s (Keeps.rfl' _ s) (Within.rfl' _)
  | ranoaLinkNak port => exact execRanoaLinkNak_keeps port s (Keeps.rfl' _ s) (Within.rfl' _)
  | ranoaCreditReturn port vc n => exact execRanoaCreditReturn_keeps port vc n s (Keeps.rfl' _ s) (Within.rfl' _)
  | ranoaHeartbeat port corrected => exact execRanoaHeartbeat_keeps port corrected s (Keeps.rfl' _ s) (Within.rfl' _)
  | ranoaHeartbeatSend port => exact execRanoaHeartbeatSend_keeps port s (Keeps.rfl' _ s) (Within.rfl' _)
  | ranoaAckOverdue port => exact execRanoaAckOverdue_keeps port s (Keeps.rfl' _ s) (Within.rfl' _)
  | ranoaSilenceTimeout port => exact execRanoaSilenceTimeout_keeps port s (Keeps.rfl' _ s) (Within.rfl' _)
  | ranoaLaneFailure port lane tx => exact execRanoaLaneFailure_keeps port lane tx s (Keeps.rfl' _ s) (Within.rfl' _)
  | ranoaLightDetect port => exact execRanoaLightDetect_keeps port s (Keeps.rfl' _ s) (Within.rfl' _)
  | ranoaOpTimeout port => exact execRanoaOpTimeout_keeps port s (Keeps.rfl' _ s) (Within.rfl' _)
  | putAckSend port => exact execPutAckSend_keeps port s (Keeps.rfl' _ s) (Within.rfl' _)
  | sbMsgSend busy => exact execSbMsgSend_keeps busy s (Keeps.rfl' _ s) (Within.rfl' _)
  | rnaWoffValidSet who n v => exact execRnaWoffValidSet_keeps who n v s (Keeps.rfl' _ s) (Within.rfl' _)
  | rnaWoffValidClear who n => exact execRnaWoffValidClear_keeps who n s (Keeps.rfl' _ s) (Within.rfl' _)
  | ranoaWindowDrainDone n => exact execRanoaWindowDrainDone_keeps n s (Keeps.rfl' _ s) (Within.rfl' _)
  | rnaLogRead who => exact execRnaLogRead_keeps who s (Keeps.rfl' _ s) (Within.rfl' _)
  | rnaPerrRead who port => exact execRnaPerrRead_keeps who port s (Keeps.rfl' _ s) (Within.rfl' _)
  | fastLoopTick watts => exact execFastLoopTick_keeps watts s (Keeps.rfl' _ s) (Within.rfl' _)
  | slowLoopTick watts vin => exact execSlowLoopTick_keeps watts vin s (Keeps.rfl' _ s) (Within.rfl' _)
  | floorRecompute floor => exact execFloorRecompute_keeps floor s (Keeps.rfl' _ s) (Within.rfl' _)
  | pwrCtlWrite who v => exact execPwrCtlWrite_keeps who v s (Keeps.rfl' _ s) (Within.rfl' _)
  | pwrCapWrite who v => exact execPwrCapWrite_keeps who v s (Keeps.rfl' _ s) (Within.rfl' _)
  | pwrGroupWrite who v => exact execPwrGroupWrite_keeps who v s (Keeps.rfl' _ s) (Within.rfl' _)
  | hintPhaseStart tile => exact execHintPhaseStart_keeps tile s (Keeps.rfl' _ s) (Within.rfl' _)
  | hintLapse tile => exact execHintLapse_keeps tile s (Keeps.rfl' _ s) (Within.rfl' _)
  | tempSample temps => exact execTempSample_keeps temps s (Keeps.rfl' _ s) (Within.rfl' _)
  | coreThrottleStep die => exact execCoreThrottleStep_keeps die s (Keeps.rfl' _ s) (Within.rfl' _)
  | groupMemberSilent origin => exact execGroupMemberSilent_keeps origin s (Keeps.rfl' _ s) (Within.rfl' _)
  | runTimeoutSuspect ring seq => exact execRunTimeoutSuspect_keeps ring seq s (Keeps.rfl' _ s) (Within.rfl' _)
  | tileResetDone pos ok => exact execTileResetDone_keeps pos ok s (Keeps.rfl' _ s) (Within.rfl' _)
  | replayStart ring seq => exact execReplayStart_keeps ring seq s (Keeps.rfl' _ s) (Within.rfl' _)
  | replayTimeout ring seq => exact execReplayTimeout_keeps ring seq s (Keeps.rfl' _ s) (Within.rfl' _)
  | tileDieFailure pos => exact execTileDieFailure_keeps pos s (Keeps.rfl' _ s) (Within.rfl' _)
  | tileRecoveryDone pos ok => exact execTileRecoveryDone_keeps pos ok s (Keeps.rfl' _ s) (Within.rfl' _)
  | journalMirrorRebuild mirror => exact execJournalMirrorRebuild_keeps mirror s (Keeps.rfl' _ s) (Within.rfl' _)
  | linkCrcError port side hdr body crc => exact execLinkCrcError_keeps port side hdr body crc s (Keeps.rfl' _ s) (Within.rfl' _)
  | ranoaLinkCrcError port hdr body crc uncorr => exact execRanoaLinkCrcError_keeps port hdr body crc uncorr s (Keeps.rfl' _ s) (Within.rfl' _)
  | hubLaneFailure port waveguide => exact execHubLaneFailure_keeps port waveguide s (Keeps.rfl' _ s) (Within.rfl' _)
  | hostDieFailure => exact execHostDieFailure_keeps s (Keeps.rfl' _ s) (Within.rfl' _)
  | ranoaDieFailure die => exact execRanoaDieFailure_keeps die s (Keeps.rfl' _ s) (Within.rfl' _)
  | hostReadCompletion tag data ok => exact execHostReadCompletion_keeps tag data ok s (Keeps.rfl' _ s) (Within.rfl' _)
  | sealComplete => exact execSealComplete_keeps s (Keeps.rfl' _ s) (Within.rfl' _)

end Sys2Proof.Machine
end

