-- ==== Sys2Proof/Laws/Events.lean ====
section
/-!
SUPPORT. Raising an event: what the host event FIFO takes.
-/
namespace Sys2Proof.Machine

/-- Posting to the host FIFO. -/
theorem postHost_hfifo (e : EvItem) (s : State) :
    (postHost e s).hfifo = s.hfifo.post (s.regFld oEvtCtl 47 32) e (evWords s.time e) := by
  unfold postHost
  dsimp only
  split
  · exact (msixGather_keeps _ _ _ (Keeps.rfl' _ _) (Within.rfl' _)).part .hfifo (by decide)
  · rfl

/-- Posting to a core die's FIFO leaves the host FIFO. -/
theorem postCore_hfifo (d : Nat) (e : EvItem) (s : State) : (postCore d e s).hfifo = s.hfifo :=
  (postCore_keeps d e s (Keeps.rfl' _ s) (Within.rfl' _)).part .hfifo (by decide)

/-- An event that does not concern a device-memory ring is reported to the host. -/
theorem post_reports (e : EvItem) (s : State) (h : ringCode e.code = false) : s.reports (post e s) e := by
  unfold post
  simp only [h, Bool.false_and, State.reports, postCore_hfifo]
  exact postHost_hfifo e s

end Sys2Proof.Machine
end

