-- ==== Sys2Proof/Laws/Packets.lean ====
section
/-!
SUPPORT. Packets: what a packet's way changes, what stays on its way meanwhile, and a request that a stack serves at once.
-/
namespace Sys2Proof.Machine

/-! ## What the way of a packet changes -/

/-- A packet goes on: the hub's queues and pointers change and what the links hold, no fence changes, and what is on its way
stays on it. -/
structure Goes (s t : State) : Prop where
  eq : ∃ v a l, t = (s.withHub { s.hub with voq := v, arb := a }).withLink l
  fence : ∀ q, t.fenced q = s.fenced q
  holds : ∀ q, s.carries q → t.carries q

/-- Nothing moves. -/
theorem Goes.rfl' (s : State) : Goes s s := ⟨⟨s.hub.voq, s.hub.arb, s.link, rfl⟩, fun _ => rfl, fun _ h => h⟩

/-- One after another. -/
theorem Goes.trans {a b c : State} (h : Goes a b) (g : Goes b c) : Goes a c := by
  obtain ⟨⟨v, x, l, rfl⟩, hf, hc⟩ := h
  obtain ⟨⟨w, y, m, rfl⟩, gf, gc⟩ := g
  exact ⟨⟨w, y, m, rfl⟩, fun q => (gf q).trans (hf q), fun q k => gc q (hc q k)⟩

/-- A change of a link that is no reset changes that link only. -/
theorem State.linkOf_upd (s : State) (p q : Nat) (f : LinkSt → LinkSt) (hv : f (s.linkOf p) ≠ {}) :
    (s.updLink p f).linkOf q = if p = q then f (s.linkOf q) else s.linkOf q := by
  by_cases e : p = q
  · subst e
    rw [if_pos rfl]
    exact look_put_new _ _ _ hv
  · rw [if_neg e]
    exact look_put_ne _ _ _ _ e

/-- A change of a link that keeps its fence and what its die holds back, and that is no reset. -/
theorem Goes.link (s : State) (p : Nat) (f : LinkSt → LinkSt) (hv : f (s.linkOf p) ≠ {})
    (hf : (f (s.linkOf p)).fenced = (s.linkOf p).fenced)
    (hw : ∀ w, w ∈ (s.linkOf p).die.wait → w ∈ (f (s.linkOf p)).die.wait) : Goes s (s.updLink p f) := by
  refine ⟨⟨s.hub.voq, s.hub.arb, _, rfl⟩, fun q => ?_, fun q h => ?_⟩
  · unfold State.fenced
    rw [State.linkOf_upd s p q f hv]
    split
    · rename_i e; subst e; rw [hf]
    · rfl
  · cases h with
    | inl h => exact .inl h
    | inr h =>
      obtain ⟨w, hm, e⟩ := h
      refine .inr ⟨w, ?_, e⟩
      rw [State.linkOf_upd s p q.src f hv]
      split
      · rename_i k; subst k; exact hw w hm
      · exact hm

/-- A change of the hub's queues that drops no packet. -/
theorem Goes.hub (s : State) (v : List Voq) (a : FMap Nat) (h : ∀ w ∈ s.hub.voq, ∃ u ∈ v, u.pkt = w.pkt) :
    Goes s (s.withHub { s.hub with voq := v, arb := a }) := by
  refine ⟨⟨v, a, s.link, rfl⟩, fun _ => rfl, fun q k => ?_⟩
  cases k with
  | inl k =>
    obtain ⟨w, hw, e⟩ := k
    obtain ⟨u, hu, eu⟩ := h w hw
    exact .inl ⟨u, hu, eu.trans e⟩
  | inr k => exact .inr k

/-- Changing how a packet is marked leaves the packets. -/
theorem updFirst_pkt (q : Voq → Bool) (l : List Voq) (v : Voq) (h : v ∈ l) :
    ∃ w ∈ updFirst q (fun v => { v with fwd := true }) l, w.pkt = v.pkt := by
  induction l with
  | nil => cases h
  | cons a r ih =>
    simp only [updFirst]
    split
    · cases h with
      | head => exact ⟨_, List.mem_cons_self, rfl⟩
      | tail _ hm => exact ⟨v, List.mem_cons_of_mem _ hm, rfl⟩
    · cases h with
      | head => exact ⟨_, List.mem_cons_self, rfl⟩
      | tail _ hm => obtain ⟨w, hw, e⟩ := ih hm; exact ⟨w, List.mem_cons_of_mem _ hw, e⟩

/-- A credit goes back. -/
theorem freeSlotOf_goes (sd : Side) (v : Voq) (s : State) : Goes s (freeSlotOf sd v s) := by
  unfold freeSlotOf
  cases sd <;> dsimp only <;> split
  · exact Goes.rfl' s
  · refine Goes.link s _ _ (fun c => ?_) rfl (fun _ h => h)
    have c1 := congrArg (fun l : LinkSt => l.hub.ctl) c
    simp at c1
  · exact Goes.rfl' s
  · refine Goes.link s _ _ (fun c => ?_) rfl (fun _ h => h)
    have c1 := congrArg (fun l : LinkSt => l.die.ctl) c
    simp at c1

/-- A returned credit leaves the hub's queues. -/
theorem freeSlotOf_hub (sd : Side) (v : Voq) (s : State) : (freeSlotOf sd v s).hub = s.hub := by
  unfold freeSlotOf
  cases sd <;> dsimp only <;> split <;> rfl

/-- Granting packets to an output. -/
theorem pump_goes (n dst : Nat) (s : State) : Goes s (pump n dst s) := by
  induction n generalizing s with
  | zero => exact Goes.rfl' s
  | succ n ih =>
    simp only [pump]
    split
    · exact Goes.rfl' s
    · split
      · exact Goes.rfl' s
      · split
        · exact Goes.rfl' s
        · refine Goes.trans ?_ (ih _)
          refine Goes.trans ?_ (freeSlotOf_goes _ _ _)
          split
          · exact Goes.hub s _ _ (fun w hw => updFirst_pkt _ _ w hw)
          · refine (Goes.hub s _ _ (fun w hw => updFirst_pkt _ _ w hw)).trans (Goes.link _ _ _ (fun c => ?_) rfl (fun _ h => h))
            have c1 := congrArg (fun l : LinkSt => l.hub.replay) c
            simp [LinkEnd.push] at c1

/-- Granting what an output can take. -/
theorem pumpOut_goes (dst : Nat) (s : State) : Goes s (pumpOut dst s) := pump_goes _ dst s

/-- A packet enters a queue of the hub. -/
theorem addVoq_goes (s : State) (p : Pkt) (b m : Bool) : Goes s (s.addVoq p b m) :=
  Goes.hub s _ s.hub.arb (fun w hw => ⟨w, List.mem_append_left _ hw, rfl⟩)

/-- The hub takes a packet. -/
theorem hubTake_goes (p : Pkt) (b m : Bool) (s : State) : Goes s (hubTake p b m s) := by
  unfold hubTake
  split
  · dsimp only
    split
    · exact ((freeSlotOf_goes _ _ s).trans (addVoq_goes _ _ _ _)).trans (pumpOut_goes _ _)
    · exact freeSlotOf_goes _ _ s
  · split
    · exact freeSlotOf_goes _ _ s
    · exact (addVoq_goes s p b m).trans (pumpOut_goes _ _)

/-- A die's packet goes on its link. -/
theorem push_goes (q : Nat) (b : Bool) (p : Pkt) (s : State) :
    Goes s (s.updLink q (fun l => { l with die := l.die.push .die b p })) := by
  refine Goes.link s _ _ (fun c => ?_) rfl (fun _ h => h)
  have c1 := congrArg (fun l : LinkSt => l.die.replay) c
  simp [LinkEnd.push] at c1

/-- A die's packet that waits in the die. -/
theorem wait_ne (l : LinkSt) (b : Bool) (p : Pkt) :
    { l with die := { l.die with wait := l.die.wait ++ [(b, p)] } } ≠ ({} : LinkSt) := by
  intro c
  have c1 := congrArg (fun l : LinkSt => l.die.wait) c
  simp at c1

/-- A die sends a packet. -/
theorem sendWith_goes (b : Bool) (p : Pkt) (s : State) : Goes s (sendWith b p s) := by
  unfold sendWith
  split
  · exact hubTake_goes p b true s
  · split
    · exact Goes.rfl' s
    · split
      · exact (push_goes _ b p s).trans (hubTake_goes _ _ _ _)
      · exact Goes.link s _ _ (wait_ne _ _ _) rfl (fun w h => List.mem_append_left _ h)

/-- A die sends a packet. -/
theorem send_goes (p : Pkt) (s : State) : Goes s (send p s) := sendWith_goes false p s

/-- The hub takes a packet to a port that is not fenced, unless it is a response to a request that it answered itself. -/
theorem hubTake_carries (p : Pkt) (b m : Bool) (s : State) (hf : s.fenced p.dst = false)
    (hd : ¬ (opVc p.op = 1 ∧ (p.dst, p.tid) ∈ s.hub.dropped)) : (hubTake p b m s).carries p := by
  have hd2 : ¬ (opVc p.op = 1 ∧ (s.hub.dropped.any (fun d => d == (p.dst, p.tid))) = true) := by
    intro c
    obtain ⟨d, hm, e⟩ := List.any_eq_true.mp c.2
    have e2 : d = (p.dst, p.tid) := by simpa using e
    exact hd ⟨c.1, e2 ▸ hm⟩
  unfold hubTake
  rw [if_neg (by simp [hf]), if_neg hd2]
  exact (pumpOut_goes _ _).holds _ (.inl ⟨_, List.mem_append_right _ (List.mem_singleton.mpr rfl), rfl⟩)

/-- A packet sent from a port that is not fenced to one that is not is on its way. -/
theorem send_carries (p : Pkt) (s : State) (h1 : s.fenced p.src = false) (h2 : s.fenced p.dst = false)
    (hd : ¬ (opVc p.op = 1 ∧ (p.dst, p.tid) ∈ s.hub.dropped)) : (send p s).carries p := by
  unfold send sendWith
  split
  · exact hubTake_carries p _ _ s h2 hd
  · rw [if_neg (by simp [h1])]
    split
    · exact hubTake_carries p _ _ _ (((push_goes _ _ p s).fence _).trans h2) hd
    · refine .inr ⟨(false, p), ?_, rfl⟩
      rw [State.linkOf_upd _ _ _ _ (wait_ne _ _ _), if_pos rfl]
      simp

/-- A send leaves the memory as it was. -/
theorem send_mem (p : Pkt) (s : State) : (send p s).mem = s.mem := by
  obtain ⟨v, a, l, h⟩ := (send_goes p s).eq
  rw [h]
  rfl

/-! ## A request that its target takes -/

/-- What the arrival of a request leaves: all but the hub's record and what the links hold; no fence changes, and the hub
has answered no other request. -/
structure Comes (s t : State) : Prop where
  eq : ∃ x l, t = (s.withHub x).withLink l
  fence : ∀ q, t.fenced q = s.fenced q
  dropped : ∀ d, d ∈ t.hub.dropped → d ∈ s.hub.dropped

/-- One after another. -/
theorem Comes.trans {a b c : State} (h : Comes a b) (g : Comes b c) : Comes a c := by
  obtain ⟨⟨v, l, rfl⟩, hf, hd⟩ := h
  obtain ⟨⟨w, m, rfl⟩, gf, gd⟩ := g
  exact ⟨⟨w, m, rfl⟩, fun q => (gf q).trans (hf q), fun d k => hd d (gd d k)⟩

/-- What moves comes. -/
theorem Goes.comes {s t : State} (h : Goes s t) : Comes s t := by
  obtain ⟨⟨v, a, l, rfl⟩, hf, -⟩ := h
  exact ⟨⟨_, l, rfl⟩, hf, fun _ h => h⟩

/-- A change of the hub's record after which the hub has answered no other request. -/
theorem Comes.hub (s : State) (x : Hub) (hd : ∀ d, d ∈ x.dropped → d ∈ s.hub.dropped) : Comes s (s.withHub x) :=
  ⟨⟨x, s.link, rfl⟩, fun _ => rfl, hd⟩

/-- Recording a request changes the hub's record only. -/
theorem noteReq_comes (s : State) (p : Pkt) (n : Nat) : Comes s (s.noteReq p n) := by
  unfold State.noteReq State.addOutst
  dsimp only
  split
  · exact (Goes.rfl' s).comes
  · exact Comes.hub s _ (fun _ h => (List.mem_filter.mp h).1)

/-- Recording a request leaves what is on its way and the TIDs that a target has accepted. -/
theorem noteReq_hub (s : State) (p : Pkt) (n : Nat) : (s.noteReq p n).hub.voq = s.hub.voq ∧
    (s.noteReq p n).hub.bound = s.hub.bound ∧ (s.noteReq p n).hub.seen = s.hub.seen ∧ (s.noteReq p n).link = s.link := by
  unfold State.noteReq State.addOutst
  dsimp only
  split <;> exact ⟨rfl, rfl, rfl, rfl⟩

/-- A request on its way. -/
theorem sent_comes (s : State) (p : Pkt) : Comes s (s.sent p) := by
  unfold State.sent
  split
  · exact (Goes.rfl' s).comes
  · exact (noteReq_comes s p _).trans (send_goes p _).comes

/-- A packet leaves the hub. -/
theorem leaveHub_comes (p : Pkt) (s : State) : Comes s (leaveHub p s) := by
  unfold leaveHub
  split
  · exact (Goes.rfl' s).comes
  · refine Comes.trans (Comes.hub s _ ?_) (freeSlotOf_goes _ _ _).comes
    exact fun _ h => h

/-- A request arrives. -/
theorem arrived_comes (s : State) (p : Pkt) : Comes s (s.arrived p) :=
  ((sent_comes s p).trans (leaveHub_comes p _)).trans (Comes.hub _ _ (fun _ h => h))

/-- The TIDs that a target has accepted stay as they are while a request comes. -/
theorem sent_seen (s : State) (p : Pkt) (d q i : Nat) : (s.sent p).seenTid d q i = s.seenTid d q i := by
  unfold State.sent
  split
  · rfl
  · obtain ⟨v, a, l, h⟩ := (send_goes p (s.noteReq p (answersOf p))).eq
    unfold State.seenTid
    rw [h]
    show has i (look [] (s.noteReq p (answersOf p)).hub.seen _) = _
    rw [(noteReq_hub s p _).2.2.1]

/-- What can arrive is on its way. -/
theorem canArrive_onWay (s : State) (p : Pkt) (h : s.canArrive p = true) : s.onWay p = true := by
  unfold State.canArrive at h
  split at h
  · rename_i v hv
    have e : (v.pkt == p) = true := by
      rw [Bool.and_eq_true, Bool.and_eq_true] at h
      exact h.2.1
    unfold State.onWay
    rw [Bool.or_eq_true, Bool.or_eq_true]
    exact .inl (.inl (List.any_eq_true.mpr ⟨v, List.mem_of_find?_eq_some hv, e⟩))
  · simp at h

/-- A request that its target takes. -/
theorem arriveReq_takes {s : State} {p : Pkt} (k : State → State) (h : s.takes p) : arriveReq p k s = k (s.arrived p) := by
  obtain ⟨-, -, h3, -, h5, h6⟩ := h
  unfold arriveReq State.arrived
  rw [if_neg (by simp [h3]), if_neg (by simp [h5])]
  have e : (if (if s.onWay p then s else s.noteReq p (answersOf p)).onWay p then
      (if s.onWay p then s else s.noteReq p (answersOf p))
      else send p (if s.onWay p then s else s.noteReq p (answersOf p))) = s.sent p := by
    unfold State.sent
    by_cases o : s.onWay p = true
    · simp [o]
    · have g : (s.noteReq p (answersOf p)).onWay p = s.onWay p := by
        obtain ⟨a, b, -, l⟩ := noteReq_hub s p (answersOf p)
        unfold State.onWay State.linkOf
        rw [a, b, l]
      simp [o, g]
  unfold reach
  rw [e]
  simp only [h6, if_true]

/-- A request that its target takes, once it is on its way. -/
theorem arriveReq_sent {s : State} {p : Pkt} (k : State → State) (h : s.takes p) :
    arriveReq p k (s.sent p) = k (s.arrived p) := by
  obtain ⟨-, -, h3, -, -, h6⟩ := h
  have o := canArrive_onWay _ _ h6
  unfold arriveReq State.arrived
  rw [if_neg (by simp [sent_seen, h3]), if_neg (by simp [State.mayCome, o])]
  unfold reach
  simp only [o, if_true, h6]

/-- What a home does with a line of the pool that it no longer needs changes the pool only. -/
theorem releaseLine_pool (h n : Nat) (s : State) : ∃ y, releaseLine h n s = s.withPool y := by
  unfold releaseLine
  split
  · exact ⟨s.pool, rfl⟩
  · split
    · exact ⟨s.pool, rfl⟩
    · split
      · exact ⟨_, rfl⟩
      · exact ⟨s.pool, rfl⟩

/-- The same of several lines. -/
theorem releaseLines_pool (h : Nat) (l : List Nat) (s : State) :
    ∃ y, l.foldl (fun st n => releaseLine h n st) s = s.withPool y := by
  refine foldl_inv (fun t => ∃ y, t = s.withPool y) _ (fun t n ⟨y, hy⟩ => ?_) l s ⟨s.pool, rfl⟩
  subst hy
  obtain ⟨z, hz⟩ := releaseLine_pool h n (s.withPool y)
  exact ⟨z, hz⟩

/-- The state in which a stack has taken a request and given it its turn differs from the one before in the hub, the links
and the stack. -/
theorem served_f (s : State) (p : Pkt) (h1 : 33 ≤ p.dst) (h2 : p.dst ≤ 48) : ∃ x l k, s.served p = ((s.withHub x).withLink l).withStack k ∧
    (∀ q, (s.served p).fenced q = s.fenced q) ∧ (∀ d, d ∈ (s.served p).hub.dropped → d ∈ s.hub.dropped) := by
  obtain ⟨⟨x, l, e⟩, hf, hd⟩ := arrived_comes s p
  have u : ∀ (t : State) (f : HomeSt → HomeSt), ∃ k, t.updHome p.dst f = t.withStack k := fun t f => by
    unfold State.updHome
    rw [if_pos (by omega)]
    exact ⟨_, rfl⟩
  obtain ⟨k, hk⟩ := u (s.arrived p) (fun x => { x with ptr := (p.src + 1) % 64 })
  have hs : s.served p = (s.arrived p).withStack k := hk
  refine ⟨x, l, k, by rw [hs, e], fun q => ?_, fun d h => ?_⟩
  · rw [← hf q, hs]
    rfl
  · rw [hs] at h
    exact hd d h

/-- A request that a stack serves at once is performed on the memory as it stands. -/
theorem accessRow_serves {s : State} {p : Pkt} (e : DramErr) (h : s.serves p) :
    ∃ y, accessRow p e s = (performAccess p.dst p e (s.served p)).withPool y := by
  obtain ⟨ht, hturn, h1, h2, hz, hl, hg, he, hb, hlate⟩ := h
  have hse : (if s.onWay p || s.seenTid p.dst p.src p.tid || !s.mayCome p then s
      else send p (s.noteReq p (answersOf p))) = s.sent p := by
    obtain ⟨-, -, h3, -, h5, -⟩ := ht
    unfold State.sent
    simp [h3, h5]
  unfold accessRow homeRow
  rw [if_pos (by omega)]
  dsimp only
  rw [hse, if_pos hturn, arriveReq_sent _ ht]
  show ∃ y, accessAt p e (s.served p) = _
  obtain ⟨x, l, k, hx, -⟩ := served_f s p h1 h2
  have z : (s.served p).zone p.addr = .direct := by rw [hx]; exact hz
  have r : (s.served p).resolve p.addr = some p.addr := by unfold State.resolve; rw [z]
  have a : accessErr p.dst p (s.served p) = none := by
    have hd : ∀ a, s.zone a = .direct → (isGather p = true ∨ s.lostUnit (a / 4096) = false) →
        addrErr p.dst p (s.served p) a = none := fun a za la => by
      have za' : (s.served p).zone a = .direct := by rw [hx]; exact za
      have la' : isGather p = true ∨ (s.served p).lostUnit (a / 4096) = false := by rw [hx]; exact la
      have pl : ((s.served p).place a).getD a = a := by unfold State.place; rw [za']; rfl
      unfold addrErr
      dsimp only
      rw [za', pl]
      cases la' with
      | inl g => simp [g]
      | inr g => simp [g]
    unfold accessErr
    rw [List.findSome?_eq_none_iff]
    intro a ha
    cases List.mem_cons.mp ha with
    | inl e => rw [e]; exact hd _ hz hl
    | inr e =>
      split at e
      · rename_i g; exact hd _ (hg g a e) (.inl g)
      · cases e
  have n : accessSnoops ((s.served p).homeOf p.dst) p (portDie ((s.served p).origin p).1) = [] := by
    unfold accessSnoops
    rw [List.flatMap_eq_nil_iff]
    intro k hk
    rw [he k hk]
  have w : (s.served p).isWriteBack p.dst p = false := by
    unfold State.isWriteBack
    split
    · rfl
    · by_cases o : p.op = .write
      · have m : sectorOf p.addr ∈ accessSecs p := by
          have g : isGather p = false := by simp [isGather, o]
          simp only [accessSecs, g, o, sectorsOf]
          rw [if_neg (by simp), if_neg (by simp), if_neg (by omega)]
          refine List.mem_map.mpr ⟨0, List.mem_range.mpr (by omega), ?_⟩
          simp [sectorOf]
        rw [Bool.and_eq_false_iff]
        exact .inr (List.all_eq_false.mpr ⟨_, m, by rw [he _ m]; simp⟩)
      · simp [o]
  unfold accessAt
  rw [z, r]
  dsimp only
  rw [if_pos ⟨h1, h2⟩]
  unfold homeStart
  rw [a]
  dsimp only
  rw [hlate, w, hb, n]
  exact releaseLines_pool _ _ _

/-! ## A stack's accesses to direct memory -/

/-- Sectors whose check words hold are read without effect. -/
theorem readCodes_ok (h : Nat) (secs : List Nat) (s : State) (hc : ∀ n ∈ secs, s.mem.ckBad n = false) :
    readCodes h .none secs s = s := by
  unfold readCodes
  have g : ∀ (l : List Nat), (∀ n ∈ l, s.mem.ckBad n = false) →
      l.foldl (fun st n => if st.mem.ckBad n then uncorrectable h (64 * n) n st else st) s = s := by
    intro l
    induction l with
    | nil => intro _; rfl
    | cons a r ih =>
      intro hl
      rw [List.foldl_cons, if_neg (by rw [hl a List.mem_cons_self]; simp)]
      exact ih (fun n hn => hl n (List.mem_cons_of_mem _ hn))
  exact g secs hc

/-- Direct memory is in no frame. -/
theorem touchFrame_direct (a : Nat) (w : Bool) (s : State) (h : s.zone a = .direct) : touchFrame a w s = s := by
  unfold touchFrame
  rw [h]

/-- A write to direct memory waits for no record. -/
theorem ackWrite_direct (a : Nat) (ans : Pkt) (s : State) (h : s.zone a = .direct) : ackWrite a ans s = send ans s := by
  unfold ackWrite openWait
  rw [h]

/-- Direct memory lies where its address says. -/
theorem phys_direct (a : Nat) (s : State) (h : s.zone a = .direct) : s.phys a = a := by
  unfold State.phys State.place
  rw [h]
  rfl

/-- The answer to a request that a target takes is on its way. -/
theorem answer_carries {s t : State} {p : Pkt} (op : PktOp) (a : Nat) (b : Bool) (d : List Byte) (h : s.takes p)
    (hf : ∀ q, t.fenced q = s.fenced q) (hd : ∀ x, x ∈ t.hub.dropped → x ∈ s.hub.dropped) :
    (send (answer op p a b d) t).carries (answer op p a b d) := by
  obtain ⟨h1, h2, -, h4, -⟩ := h
  exact send_carries _ _ ((hf _).trans h2) ((hf _).trans h1) (fun c => h4 (hd _ c.2))

end Sys2Proof.Machine
end

