-- ==== Sys2Proof/Tests/Slice0.lean ====
section
/-!
SUPPORT. Tests: ill-formed commands are refused by the check of the operands' ranges; values worked out from the manual's
examples and tables; and, for each obligation with hypotheses, a state and operands that meet the hypotheses of each clause.
-/
namespace Sys2Proof.Machine
section
set_option maxRecDepth 4000
set_option synthInstance.maxSize 4096
set_option Elab.async false
set_option linter.unusedVariables false

/-! ## WellFormed: an operand out of range is refused -/

/-- A hub packet with every field in range. -/
def okPkt : Pkt := ⟨.read, 0, 33, 0, 0, false, [], [], 64⟩
/-- A Ranoa packet with every field in range. -/
def okRPkt : RPkt := ⟨.getReq, false, 0, 0, 0, 0, 4, [], []⟩
/-- A side-band message with every field in range. -/
def okSb : SbMsg :=
  { type := 1, hops := 0, group := 1, origin := 0, seq := 0, div := 48, power := 0, cap := 0, busy := 0, crit := false, bal := 0 }
/-- A firmware image with every field in range. -/
def okImg : FwImage := { magic := 0, target := 0, svn := 0, version := 0, payload := [], rsaSig := [], slhSig := [] }
/-- An owner request with every field in range. -/
def okReq : OwnerReq := ⟨8752, 1, 0, 0, 0, 1, [], [], []⟩
/-- An event item with every field in range. -/
def okEv : EvItem := ⟨9, 1, 0x62, none, 0, []⟩

/-- Ports, tile positions, slots, stacks, channels, banks and dies out of range. -/
theorem test_illFormed_units : ([.linkNak 64 .die, .creditReturn 1 .hub 64 0 1, .creditReturn 1 .hub 0 5 1, .nop 33 0, .li 0 4, .refresh 16 0 0, .refresh 0 64 0,
    .layerFailure 0 16, .mapoutStart 512, .poolDieFailure 4, .tierDieFailure 2, .hubLaneFailure 1 64, .journalMirrorRebuild 2,
    .ranoaDieFailure 2, .ranoaLightDetect 8, .ranoaLaneFailure 0 8 true, .ranoaCreditReturn 0 4 1, .tileDieFailure 33,
    .coreThrottleStep 4, .hintLapse 32, .linksTrained [⟨63, 0, 0⟩], .tileSelfTestDone [⟨33, [], 0, false⟩],
    .tileSelfTestDone [⟨0, [], 65536, false⟩], .hbmTrained [512], .coreSelfTestDone [4]] : List Instr).all
      (fun c => !c.wellFormed) = true := by decide +kernel

/-- Functions, cores, contexts, rings, objects, vectors, sources and register offsets out of range. -/
theorem test_illFormed_names : ([.flrVf 32, .evtPopRead (.host 32), .evtPopRead (.core 128), .cfence 128, .xltResume (.core 0) 1024,
    .run 4096, .commandComplete 0 (2 ^ 64), .syncRead 0 0 8192 0, .syncRead 64 0 0 0, .syncRead 0 (2 ^ 32) 0 0, .syncRead 0 0 0 32, .msixEvent 0 2048,
    .routerSourceEvent 0 4096, .evtIstatSet 0 0 4096, .hifPlapValidClear (.core 0) 4096, .rnaWoffValidClear (.core 0) 2048,
    .tierPinClear (.core 0) 64, .configRequest 0 1024, .registerWrite (.core 0) (2 ^ 26) 8 [], .registerWrite (.core 0) 0 0 [],
    .registerWrite (.core 0) 0 8 (List.replicate 9 0), .doorbellLineRead 0 64 0, .stagedCopyFreed 0 0 8, .dispatch 0 0 0 128,
    .atsInvalidateRequest 0 32 0 0, .spdmGetCertificate 8 0 0, .spdmGetMeasurements 256 []] : List Instr).all
      (fun c => !c.wellFormed) = true := by decide +kernel

/-- Addresses, units, tiles, frames, reasons, temperatures and lengths out of range. -/
theorem test_illFormed_values : ([.cboZero 0 (2 ^ 48), .faultTimeout 0 (2 ^ 39), .atsCompletion 0 0 [⟨16, 1, 0, true, true⟩],
    .atsCompletion 0 0 [⟨0, 1, 2 ^ 64, true, true⟩], .tierMapMiss (2 ^ 25), .frameEvictionDone (2 ^ 19), .partOpenRecorded (2 ^ 29),
    .badBlockRetire 0 0 0 101, .tierFetchDone 0 [16], .poolFillDone 0 (2 ^ 42), .poolDirtyMarkDone 0 (2 ^ 28),
    .tableWalkDone 0 0 256, .stackTempSample 0 256, .tempSample [⟨64, 0⟩], .tempSample [⟨0, 256⟩], .startupStopped 256,
    .warmreset (.core 0) 256, .recoveryGo (2 ^ 64) 0, .pldmSetNumericEffecter 65536, .placementWrite 65536 0 [] false,
    .placementWrite 0 (2 ^ 40) [] false, .placementWrite 0 0 (List.replicate 513 0) false, .dirtyLineEvict 0 0 [0],
    .programHeaderRead 0 0 (List.replicate 65 0), .ideKmRequest 256 0 0 0, .hello 0 0 0 5] : List Instr).all
      (fun c => !c.wellFormed) = true := by decide +kernel

/-- Fields of packets, messages, images, requests, events and descriptors out of range. -/
theorem test_illFormed_fields : ([.write { okPkt with src := 64 }, .write { okPkt with dst := 64 }, .write { okPkt with tid := 2 ^ 32 },
    .write { okPkt with addr := 2 ^ 48 }, .write { okPkt with payload := List.replicate 257 0 },
    .write { okPkt with checks := List.replicate 5 0 }, .write { okPkt with rdLen := 257 }, .getReq 0 { okRPkt with tid := 2 ^ 32 },
    .getReq 0 { okRPkt with psn := 2 ^ 48 }, .getReq 0 { okRPkt with offset := 2 ^ 44 },
    .getReq 0 { okRPkt with payload := List.replicate 513 0 }, .getReq 0 { okRPkt with status := 256 }, .sbMsg 0 { okSb with hops := 256 },
    .sbMsg 0 { okSb with group := 65536 }, .sbMsg 0 { okSb with origin := 2 ^ 64 }, .sbMsg 0 { okSb with bal := 4 },
    .fwImageReceived { okImg with magic := 2 ^ 32 }, .fwImageReceived { okImg with svn := 256 },
    .fwImageReceived { okImg with version := 2 ^ 32 }, .ownerSet (.core 0) (some { okReq with cmd := 65536 }),
    .ownerSet (.core 0) (some { okReq with bodyLen := 65536 }), .ownerSet (.core 0) (some { okReq with serial := 2 ^ 64 }),
    .ownerSet (.core 0) (some { okReq with seq := 2 ^ 64 }), .hostFifoInsert { okEv with cls := 16 }, .hostFifoInsert { okEv with pri := 4 },
    .hostFifoInsert { okEv with code := 256 }, .hostFifoInsert { okEv with arg := 2 ^ 32 }, .hostFifoInsert { okEv with extra := [0, 0, 0] },
    .descriptorFetched 0 [] ⟨none, none, none⟩, .descriptorFetched 0 (List.replicate 128 0) ⟨some (List.replicate 4097 0), none, none⟩,
    .pldmGetSensorReading (.dieTemp 64), .pldmGetSensorReading (.stackTemp 16)] : List Instr).all
      (fun c => !c.wellFormed) = true := by decide +kernel

/-- The same commands with operands in range pass. -/
theorem test_wellFormed : ([.linkNak 63 .die, .nop 32 3, .refresh 15 63 0, .mapoutStart 511, .cfence 127, .run 4095, .syncRead 63 0 8191 31,
    .routerSourceEvent 3 4095, .write okPkt, .getReq 7 okRPkt, .sbMsg 0 okSb, .fwImageReceived okImg, .ownerSet (.core 0) (some okReq),
    .hostFifoInsert okEv, .descriptorFetched 0 (List.replicate 128 0) ⟨none, none, none⟩] : List Instr).all
      (fun c => c.wellFormed) = true := by decide +kernel

/-! ## Values from the manual's examples and tables -/

/-- The check word of the ASCII digits 1 to 9 (08 R252: CRC-32C, whose published check value this is). -/
theorem test_crc32c_check : crc32c [0x31, 0x32, 0x33, 0x34, 0x35, 0x36, 0x37, 0x38, 0x39] = 0xE3069283#32 := by decide +kernel

/-- The example after 08 R250: DPA 0x1234_5678 lies in stack 4, channel 29. -/
theorem test_address_hash :
    State.reset.stackFor 0x12345678 = 4 ∧ State.reset.chanFor 0x12345678 = 29 := by decide +kernel

/-- A product of two scaled E4M3 elements. -/
def scaledProduct (a sa b sb : Nat) : Num := ((Fmt.e4m3.decode a).mul (ue8m0 sa)).mul ((Fmt.e4m3.decode b).mul (ue8m0 sb))

/-- The example after 04 R127, group (30, 31): 16,777,216 plus 9 and -1.25 rounds once to 16,777,224. -/
theorem test_cell_group_30 : accFloat .fp32 false 0x4B800000
    [scaledProduct 0x3C 0x80 0x44 0x7F, scaledProduct 0xC2 0x80 0x28 0x7F] = (0x4B800004, 0#4) := by decide +kernel

/-- The same example, group (32, 33): -2.625 and 0.4375 on top give 16,777,222. -/
theorem test_cell_group_32 : accFloat .fp32 false 0x4B800004
    [scaledProduct 0x36 0x7C 0xCC 0x81, scaledProduct 0x7E 0x7C 0x01 0x81] = (0x4B800003, 0#4) := by decide +kernel

/-- The same example: a drain to BF16 with round to nearest even writes 0x4B80. -/
theorem test_drain_bf16 : convert .fp32 .bf16 none .rne false false 0x4B800003 = (0x4B80, 0#4) := by decide +kernel

/-- The example at the end of 04: 1.0 plus the exact product rounds to 1 + 2^-52. -/
theorem test_fp64_product : accFloat .fp64 false 0x3FF0000000000000
    [(Fmt.fp64.decode 0x3FEFFFFFFFFFFFFF).mul (Fmt.fp64.decode 0x3CA0000000000001)] = (0x3FF0000000000001, 0#4) := by
  decide +kernel

/-- A memory with little-endian doublewords. -/
def memWith (l : List (Nat × Nat)) : Ram := l.foldl (fun m c => m.writeN c.1 (leBytes 8 c.2)) {}

/-- The example after 10 R329: context 5, DVA 0x0001_2345_6789_ABCD goes to DPA 0x0455_ABCD. -/
theorem test_walk_page :
    { State.reset with
      xlt := { root := [(5, 0x10)], rootOk := [5] }
      mem := memWith [(0x100240, 0x110001), (0x11D158, 0x120001), (0x123C48, 0x0455001A)] }.walkDev 5 0x123456789ABCD true
      = some 0x0455ABCD := by decide +kernel

/-- The same example with a 512 MiB block at level 1: the access goes to 0x4789_ABCD. -/
theorem test_walk_block :
    { State.reset with
      xlt := { root := [(5, 0x10)], rootOk := [5] }
      mem := memWith [(0x100240, 0x110001), (0x11D158, 0x4000001A)] }.walkDev 5 0x123456789ABCD false
      = some 0x4789ABCD := by decide +kernel

/-- GLB_FEATURES of a package at the latest revisions is 0xF (01 R27), and of the mixed package of 01's example 0x1. -/
theorem test_features : featuresOf State.reset.glb.manifest = 0xF ∧
    featuresOf ((List.range 64).map (fun p => if 20 ≤ p ∧ p ≤ 32 then ⟨0x41, 0x31, 0x9⟩
      else if 41 ≤ p ∧ p ≤ 48 then ⟨0x41, 0x32, 0x7⟩ else latestDie p)) = 0x1 := by decide +kernel

/-- The state of an outcome, reset where there is none. -/
def stateOf : Res → State
  | .next t => t
  | _ => State.reset

/-- The example of 18: MEM_FRAMES = 2 gives frames from 0x00E0_0000_0000, 131,072 of them, at the seal. -/
theorem test_frames_at_seal :
    let t := stateOf (exec .sealComplete { State.reset with glb := { sealing := true, ready := true }, regs := [(0x0600010, 2)] })
    t.memc.frameBase = 0x00E000000000 ∧ t.memc.frameCount = 131072 := by decide +kernel

/-! ## Hypotheses of the obligations are met -/

/-- Every link carries packets. -/
def upLinks : FMap LinkSt := (List.range 63).map (fun p => (p, { state := 2 }))
/-- A module after reset with its links up. -/
def ups : State := { State.reset with link := upLinks }
/-- A slot that runs one instruction and then a NOP. -/
def aSlot (w : BitVec 128) : Slot :=
  { ring := 0, seq := 0, ctx := 0, fn := 0, part := 0, nparts := 1, arrays := [0], wbase := 0, wlen := 1, codeLen := 2
    phase := .running, code := [w, 0], count := 2 }
/-- A module after reset with a slot on tile 0. -/
def tileWith (x : Slot) : State := { ups with tile := [(0, { slots := [(0, some x)] })] }

/-- Each clause of PowerUpSteps has a state and operands that meet its hypotheses. -/
theorem witness_PowerUpSteps :
    (∃ (s : State) (vin : Nat), s.boot.phase = .off ∧ s.boot.thermtrip = false ∧ 32000 ≤ vin ∧ vin ≤ 40000) ∧
    (∃ (s : State) (img : Option FwImage), s.boot.phase = .step 1) ∧
    (∃ (s : State), s.boot.phase = .step 2) ∧
    (∃ (s : State), s.boot.phase = .step 3) ∧
    (∃ (s : State), s.boot.phase = .step 4) ∧
    (∃ (s : State) (ok : Bool), s.boot.phase = .step 5) ∧
    (∃ (s : State), s.boot.phase = .step 6) ∧
    (∃ (s : State) (adv : List WidthAdv), s.boot.phase = .step 7) :=
  ⟨⟨ups, 36000, by decide +kernel⟩,
    ⟨{ ups with boot := { phase := .step 1 } }, none, by decide +kernel⟩,
    ⟨{ ups with boot := { phase := .step 2 } }, by decide +kernel⟩,
    ⟨{ ups with boot := { phase := .step 3 } }, by decide +kernel⟩,
    ⟨{ ups with boot := { phase := .step 4 } }, by decide +kernel⟩,
    ⟨{ ups with boot := { phase := .step 5 } }, true, by decide +kernel⟩,
    ⟨{ ups with boot := { phase := .step 6 } }, by decide +kernel⟩,
    ⟨{ ups with boot := { phase := .step 7 } }, [], by decide +kernel⟩⟩

/-- Each clause of StartupToReady has a state and operands that meet its hypotheses. -/
theorem witness_StartupToReady :
    (∃ (s : State) (faults : List TileFaults), s.boot.phase = .step 8) ∧
    (∃ (s : State) (failed : List Nat), s.boot.phase = .step 9) ∧
    (∃ (s : State), s.boot.phase = .step 10) ∧
    (∃ (s : State) (a b : Bool), s.boot.phase = .step 11) ∧
    (∃ (s : State) (passed : List Nat), s.boot.phase = .step 12) ∧
    (∃ (s : State), s.boot.phase = .step 13 ∧ s.mayReady = true) ∧
    (∃ (s : State) (n reason : Nat), s.boot.phase = .step n) :=
  ⟨⟨{ ups with boot := { phase := .step 8 } }, [], by decide +kernel⟩,
    ⟨{ ups with boot := { phase := .step 9 } }, [], by decide +kernel⟩,
    ⟨{ ups with boot := { phase := .step 10 } }, by decide +kernel⟩,
    ⟨{ ups with boot := { phase := .step 11 } }, true, true, by decide +kernel⟩,
    ⟨{ ups with boot := { phase := .step 12 } }, [0, 1, 2, 3], by decide +kernel⟩,
    ⟨{ ups with boot := { phase := .step 13, hostEnabled := true, runtimeUp := [(0, true)] } }, by decide +kernel⟩,
    ⟨{ ups with boot := { phase := .step 6 } }, 6, 9, by decide +kernel⟩⟩

/-- Each clause of SealAndWarmReset has a state and operands that meet its hypotheses. -/
theorem witness_SealAndWarmReset :
    (∃ (s : State) (who : Agent), s.hostGate who = true ∧ isPf0OrCore who = true ∧ s.locked = false) ∧
    (∃ (s : State), s.glb.sealing = true) ∧
    (∃ (s : State) (who : Agent) (key : Nat), s.hostGate who = true ∧ isPf0OrCore who = true ∧ key % 256 = 0xA5) ∧
    (∃ (s : State) (c : WarmCause), s.glb.warmWanted = some c ∧ s.mayWarm = true) ∧
    (∃ (s : State), s.glb.warmStep = 0 ∧ s.boot.phase = .ready ∧ s.mayWarm = true) ∧
    (∃ (s : State), s.siteFailed 57 = true ∧ s.mayWarm = true ∧ s.disp.cmds = []) ∧
    (∃ (s : State), s.glb.warmStep = 1) ∧
    (∃ (s : State), s.glb.warmStep = 2) ∧
    (∃ (s : State) (adv : List WidthAdv), s.glb.warmStep = 3) ∧
    (∃ (s : State) (failed : List Nat), s.glb.warmStep = 4) ∧
    (∃ (s : State), s.glb.warmStep = 5) ∧
    (∃ (s : State) (bad : List Nat), s.glb.warmStep = 6) ∧
    (∃ (s : State) (passed : List Nat), s.glb.warmStep = 7) ∧
    (∃ (s : State), s.glb.warmStep = 8 ∧ s.mayReady = true) :=
  ⟨⟨{ ups with  }, .core 0, by decide +kernel⟩,
    ⟨{ ups with glb := { sealing := true } }, by decide +kernel⟩,
    ⟨{ ups with  }, .core 0, 0xA5, by decide +kernel⟩,
    ⟨{ ups with boot := { phase := .ready }, glb := { warmWanted := some .software } }, .software,
      by decide +kernel⟩,
    ⟨{ ups with boot := { phase := .ready } }, by decide +kernel⟩,
    ⟨{ ups with boot := { phase := .ready }, glb := { site := [(57, 3)] } }, by decide +kernel⟩,
    ⟨{ ups with glb := { warmStep := 1 } }, by decide +kernel⟩,
    ⟨{ ups with glb := { warmStep := 2 } }, by decide +kernel⟩,
    ⟨{ ups with glb := { warmStep := 3 } }, [], by decide +kernel⟩,
    ⟨{ ups with glb := { warmStep := 4 } }, [], by decide +kernel⟩,
    ⟨{ ups with glb := { warmStep := 5 } }, by decide +kernel⟩,
    ⟨{ ups with glb := { warmStep := 6 } }, [], by decide +kernel⟩,
    ⟨{ ups with glb := { warmStep := 7 } }, [0, 1, 2, 3], by decide +kernel⟩,
    ⟨{ ups with glb := { warmStep := 8 }, boot := { hostEnabled := true, runtimeUp := [(0, true)] } },
      by decide +kernel⟩⟩

/-- Each clause of PinsAndVoltage has a state and operands that meet its hypotheses. -/
theorem witness_PinsAndVoltage :
    (∃ (s : State), s.boot.hostEnabled = true ∧ s.boot.perst = false ∧ s.siteFailed 57 = false) ∧
    (∃ (s : State) (fn dword : Nat), s.boot.hostEnabled = true ∧ s.boot.perst = false ∧ s.siteFailed 57 = false) ∧
    (∃ (s : State), s.vinOut = false) ∧
    (∃ (s : State) (vin : Nat), s.boot.phase = .ready ∧ (vin < 32000 ∨ 40000 < vin)) ∧
    (∃ (s : State), s.boot.phase = .ready ∧ s.boot.vinLow = true) ∧
    (∃ (s : State), s.boot.phase = .ready ∧ s.boot.vinHigh = true) :=
  ⟨⟨{ ups with boot := { hostEnabled := true, perst := false } }, by decide +kernel⟩,
    ⟨{ ups with boot := { hostEnabled := true, perst := false, configReady := true, phase := .ready } }, 0, 0,
      by decide +kernel⟩,
    ⟨{ ups with boot := { phase := .step 4 } }, by decide +kernel⟩,
    ⟨{ ups with boot := { phase := .ready } }, 31000, by decide +kernel⟩,
    ⟨{ ups with boot := { phase := .ready, vinLow := true } }, by decide +kernel⟩,
    ⟨{ ups with boot := { phase := .ready, vinHigh := true } }, by decide +kernel⟩⟩

/-- Each clause of FirmwareUpdate has a state and operands that meet its hypotheses. -/
theorem witness_FirmwareUpdate :
    (∃ (s : State), s.fwUp = true ∧ s.ivory.fwState = .idle ∧ s.glb.recGo = false) ∧
    (∃ (s : State) (img : FwImage), s.ivory.fwState = .receiving) ∧
    (∃ (s : State) (ok : Bool), s.ivory.fwState = .programming ∧ s.boot.phase = .ready) ∧
    (∃ (s : State), s.fwUp = true ∧ s.boot.phase = .ready) ∧
    (∃ (s : State) (addr len : Nat), s.boot.phase = .recovery ∧ s.glb.recGo = false ∧ s.ivory.fwState = .idle) ∧
    (∃ (s : State) (img : FwImage), s.boot.phase = .recovery ∧ s.glb.recGo = true) :=
  ⟨⟨{ ups with
    boot := { phase := .ready },
    ivory := {
        running := some { magic := 0, target := 0, svn := 0, version := 0, payload := [], rsaSig := [], slhSig := [] } } },
      by decide +kernel⟩,
    ⟨{ ups with ivory := { fwState := .receiving } },
      { magic := 0, target := 0, svn := 0, version := 0, payload := [], rsaSig := [], slhSig := [] },
      by decide +kernel⟩,
    ⟨{ ups with ivory := { fwState := .programming }, boot := { phase := .ready } }, true, by decide +kernel⟩,
    ⟨{ ups with
    boot := { phase := .ready },
    ivory := {
        running := some { magic := 0, target := 0, svn := 0, version := 0, payload := [], rsaSig := [], slhSig := [] } } },
      by decide +kernel⟩,
    ⟨{ ups with boot := { phase := .recovery } }, 0, 64, by decide +kernel⟩,
    ⟨{ ups with boot := { phase := .recovery }, glb := { recGo := true } },
      { magic := 0, target := 0, svn := 0, version := 0, payload := [], rsaSig := [], slhSig := [] },
      by decide +kernel⟩⟩

/-- Each clause of ManagementPort has a state and operands that meet its hypotheses. -/
theorem witness_ManagementPort :
    (∃ (s : State) (off len : Nat), s.fwUp = true) ∧
    (∃ (s : State) (slot off len : Nat), s.fwUp = true ∧ slot ≠ 0) ∧
    (∃ (s : State) (req : List Byte), s.fwUp = true) ∧
    (∃ (s : State) (i : Nat) (req : List Byte), s.fwUp = true ∧ 1 ≤ i ∧ i ≤ 8) ∧
    (∃ (s : State) (req : List Byte), s.fwUp = true) ∧
    (∃ (s : State) (off len : Nat), s.fwUp = true) ∧
    (∃ (s : State) (stream lo hi : Nat) (key : BitVec 256), s.fwUp = true ∧ stream < 4 ∧ s.ivory.ide.length = 4) ∧
    (∃ (s : State) (eid : Nat), s.mgmtUp = true) ∧
    (∃ (s : State) (x : Sensor), s.fwUp = true) ∧
    (∃ (s : State) (limit : Nat), s.fwUp = true ∧ 0x3C ≤ limit ∧ limit ≤ 0x100) :=
  ⟨⟨{ ups with
    boot := { phase := .ready },
    ivory := {
        running := some { magic := 0, target := 0, svn := 0, version := 0, payload := [], rsaSig := [], slhSig := [] } } },
      0, 4, by decide +kernel⟩,
    ⟨{ ups with
    boot := { phase := .ready },
    ivory := {
        running := some { magic := 0, target := 0, svn := 0, version := 0, payload := [], rsaSig := [], slhSig := [] } } },
      1, 0, 4, by decide +kernel⟩,
    ⟨{ ups with
    boot := { phase := .ready },
    ivory := {
        running := some { magic := 0, target := 0, svn := 0, version := 0, payload := [], rsaSig := [], slhSig := [] } } },
      [], by decide +kernel⟩,
    ⟨{ ups with
    boot := { phase := .ready },
    ivory := {
        running := some { magic := 0, target := 0, svn := 0, version := 0, payload := [], rsaSig := [], slhSig := [] } } },
      7, [], by decide +kernel⟩,
    ⟨{ ups with
    boot := { phase := .ready },
    ivory := {
        running := some { magic := 0, target := 0, svn := 0, version := 0, payload := [], rsaSig := [], slhSig := [] } } },
      [], by decide +kernel⟩,
    ⟨{ ups with
    boot := { phase := .ready },
    ivory := {
        running := some { magic := 0, target := 0, svn := 0, version := 0, payload := [], rsaSig := [], slhSig := [] } } },
      0, 4, by decide +kernel⟩,
    ⟨{ ups with
    boot := { phase := .ready },
    ivory := {
        ide := List.replicate 4 {},
        running := some { magic := 0, target := 0, svn := 0, version := 0, payload := [], rsaSig := [], slhSig := [] } } },
      0, 0, 5, 0, by decide +kernel⟩,
    ⟨{ ups with
    boot := { phase := .ready },
    ivory := {
        running := some { magic := 0, target := 0, svn := 0, version := 0, payload := [], rsaSig := [], slhSig := [] } } },
      9, by decide +kernel⟩,
    ⟨{ ups with
    boot := { phase := .ready },
    ivory := {
        running := some { magic := 0, target := 0, svn := 0, version := 0, payload := [], rsaSig := [], slhSig := [] } } },
      .floor, by decide +kernel⟩,
    ⟨{ ups with
    boot := { phase := .ready },
    ivory := {
        running := some { magic := 0, target := 0, svn := 0, version := 0, payload := [], rsaSig := [], slhSig := [] } } },
      0x80, by decide +kernel⟩⟩

/-- Each clause of OwnerRequests has a state and operands that meet its hypotheses. -/
theorem witness_OwnerRequests :
    (∃ (s : State) (who : Agent) (r : OwnerReq), s.hostGate who = true ∧ isPf0OrCore who = true ∧ r.cmd = 0x01) ∧
    (∃ (s : State) (who : Agent) (r : OwnerReq), s.hostGate who = true ∧ isPf0OrCore who = true ∧ r.cmd = 0x02) ∧
    (∃ (s : State) (who : Agent) (r : OwnerReq), s.hostGate who = true ∧ isPf0OrCore who = true ∧ r.cmd = 0x03) ∧
    (∃ (s : State) (who : Agent) (r : OwnerReq), s.hostGate who = true ∧ isPf0OrCore who = true ∧ r.cmd = 0x04) ∧
    (∃ (s : State) (who : Agent) (r : OwnerReq), s.hostGate who = true ∧ isPf0OrCore who = true ∧ r.cmd = 0x05) ∧
    (∃ (s : State) (who : Agent) (r : OwnerReq), s.hostGate who = true ∧ isPf0OrCore who = true ∧ r.cmd = 0x06) :=
  ⟨⟨{ ups with glb := { ready := true } }, .host 0, ⟨8752, 1, 0, 0, 0, 1, [], [], []⟩, by decide +kernel⟩,
    ⟨{ ups with glb := { ready := true } }, .host 0, ⟨8752, 2, 0, 0, 0, 1, [], [], []⟩, by decide +kernel⟩,
    ⟨{ ups with glb := { ready := true } }, .host 0, ⟨8752, 3, 0, 0, 0, 1, [], [], []⟩, by decide +kernel⟩,
    ⟨{ ups with glb := { ready := true } }, .host 0, ⟨8752, 4, 0, 0, 0, 1, [], [], []⟩, by decide +kernel⟩,
    ⟨{ ups with glb := { ready := true } }, .host 0, ⟨8752, 5, 0, 0, 0, 1, [], [], []⟩, by decide +kernel⟩,
    ⟨{ ups with glb := { ready := true } }, .host 0, ⟨8752, 6, 0, 0, 0, 1, [], [], []⟩, by decide +kernel⟩⟩

/-- Each clause of RequestsAtStack has a state and operands that meet its hypotheses. -/
theorem witness_RequestsAtStack :
    (∃ (s : State) (p : Pkt), p.op = .read ∧ s.serves p ∧ (∀ n ∈ sectorsOf p.addr p.rdLen, s.mem.ckBad n = false)) ∧
    (∃ (s : State) (p : Pkt), p.op = .narrowRead ∧ s.serves p ∧ (∀ n ∈ sectorsOf (p.addr / 32 * 32) 32,
      s.mem.ckBad n = false)) ∧
    (∃ (s : State) (p : Pkt), p.op = .write ∧ s.serves p) ∧
    (∃ (s : State) (p : Pkt), p.op = .writeMasked ∧ s.serves p ∧ p.checks.head? = some (crc32c (p.payload.take
      64)) ∧ s.mem.ckBad (sectorOf p.addr) = false) ∧
    (∃ (s : State) (p q : Pkt) (len k : Nat) (d : List Byte), q = withEcmd p 1 ∧ s.serves q ∧ len = leAt q.payload
      4 2 ∧ (∀ a ∈ gatherRows q, s.lostUnit (a / 4096) = true ∨ ∀ n ∈ sectorsOf a len, s.mem.ckBad n = false) ∧
      (packPackets 32 ((gatherRows q).flatMap (fun a => s.gatherRow len a)))[k]? = some d) ∧
    (∃ (s : State) (p q : Pkt) (f : Fmt), q = withEcmd p 3 ∧ s.serves q ∧ p.poison = false ∧ Fmt.ofCode (leAt
      q.payload 1 1) = some f ∧ (f = .fp32 ∨ f = .int32) ∧ (∀ n ∈ sectorsOf q.addr (leAt q.payload 2 1 * f.bytes),
      s.mem.ckBad n = false)) ∧
    (∃ (s : State) (c a size : Nat) (kind : AccKind), s.coreMay a size kind = false) :=
  ⟨⟨ups, ⟨.read, 1, 33, 7, 0, false, [], [], 64⟩, by decide +kernel⟩,
    ⟨ups, ⟨.narrowRead, 1, 33, 7, 0, false, [], [], 64⟩, by decide +kernel⟩,
    ⟨ups, ⟨.write, 1, 33, 7, 0, false, List.replicate 64 3, [], 64⟩, by decide +kernel⟩,
    ⟨ups, ⟨.writeMasked, 1, 33, 7, 0, false, List.replicate 64 0 ++ [1], [crc32c (List.replicate 64 0)], 0⟩,
      by decide +kernel⟩,
    ⟨ups, ⟨.engine, 1, 33, 7, 0, false, [1,0,1,0,4,0,0,0,0,0,0,0,0,0,0,0, 0,0,0,0,0,0,0,0], [], 64⟩, withEcmd
      ⟨.engine, 1, 33, 7, 0, false, [1,0,1,0,4,0,0,0,0,0,0,0,0,0,0,0, 0,0,0,0,0,0,0,0], [], 64⟩ 1, 4, 0,
      List.replicate 16 0, by decide +kernel⟩,
    ⟨ups, ⟨.engine, 1, 33, 7, 0, false, [3,1,1,0,4,0,0,0,0,0,0,0,0,0,0,0, 0,0,0,0], [], 64⟩, withEcmd ⟨.engine, 1,
      33, 7, 0, false, [3,1,1,0,4,0,0,0,0,0,0,0,0,0,0,0, 0,0,0,0], [], 64⟩ 3, .fp32, by decide +kernel⟩,
    ⟨ups, 3, 0x18000000000, 4, .load, by decide +kernel⟩⟩

/-- Each clause of AtomicsAtStack has a state and operands that meet its hypotheses. -/
theorem witness_AtomicsAtStack :
    (∃ (s : State) (p : Pkt) (size old v : Nat), s.serves (withAop p 0) ∧ (size = 4 ∨ size = 8) ∧ leAt (withAop p
      0).payload 9 1 = size ∧ p.addr % size = 0 ∧ s.mem.ckBad (sectorOf p.addr) = false ∧ old = s.mem.readLE p.addr
      size ∧ v = leAt (withAop p 0).payload 0 size) ∧
    (∃ (s : State) (p : Pkt) (size old v : Nat), s.serves (withAop p 1) ∧ (size = 4 ∨ size = 8) ∧ leAt (withAop p
      1).payload 9 1 = size ∧ p.addr % size = 0 ∧ s.mem.ckBad (sectorOf p.addr) = false ∧ old = s.mem.readLE p.addr
      size ∧ v = leAt (withAop p 1).payload 0 size) ∧
    (∃ (s : State) (p : Pkt) (size old v : Nat), s.serves (withAop p 2) ∧ (size = 4 ∨ size = 8) ∧ leAt (withAop p
      2).payload 9 1 = size ∧ p.addr % size = 0 ∧ s.mem.ckBad (sectorOf p.addr) = false ∧ old = s.mem.readLE p.addr
      size ∧ v = leAt (withAop p 2).payload 0 size) ∧
    (∃ (s : State) (p : Pkt) (size old v : Nat), s.serves (withAop p 3) ∧ (size = 4 ∨ size = 8) ∧ leAt (withAop p
      3).payload 9 1 = size ∧ p.addr % size = 0 ∧ s.mem.ckBad (sectorOf p.addr) = false ∧ old = s.mem.readLE p.addr
      size ∧ v = leAt (withAop p 3).payload 0 size) ∧
    (∃ (s : State) (p : Pkt) (size old v : Nat), s.serves (withAop p 4) ∧ (size = 4 ∨ size = 8) ∧ leAt (withAop p
      4).payload 9 1 = size ∧ p.addr % size = 0 ∧ s.mem.ckBad (sectorOf p.addr) = false ∧ old = s.mem.readLE p.addr
      size ∧ v = leAt (withAop p 4).payload 0 size) ∧
    (∃ (s : State) (p : Pkt) (size old v : Nat), s.serves (withAop p 5) ∧ (size = 4 ∨ size = 8) ∧ leAt (withAop p
      5).payload 9 1 = size ∧ p.addr % size = 0 ∧ s.mem.ckBad (sectorOf p.addr) = false ∧ old = s.mem.readLE p.addr
      size ∧ v = leAt (withAop p 5).payload 0 size) ∧
    (∃ (s : State) (p : Pkt) (size old v : Nat), s.serves (withAop p 6) ∧ (size = 4 ∨ size = 8) ∧ leAt (withAop p
      6).payload 9 1 = size ∧ p.addr % size = 0 ∧ s.mem.ckBad (sectorOf p.addr) = false ∧ old = s.mem.readLE p.addr
      size ∧ v = leAt (withAop p 6).payload 0 size) ∧
    (∃ (s : State) (p : Pkt) (size old v : Nat), s.serves (withAop p 7) ∧ (size = 4 ∨ size = 8) ∧ leAt (withAop p
      7).payload 9 1 = size ∧ p.addr % size = 0 ∧ s.mem.ckBad (sectorOf p.addr) = false ∧ old = s.mem.readLE p.addr
      size ∧ v = leAt (withAop p 7).payload 0 size) ∧
    (∃ (s : State) (p : Pkt) (size old v : Nat), s.serves (withAop p 8) ∧ (size = 4 ∨ size = 8) ∧ leAt (withAop p
      8).payload 9 1 = size ∧ p.addr % size = 0 ∧ s.mem.ckBad (sectorOf p.addr) = false ∧ old = s.mem.readLE p.addr
      size ∧ v = leAt (withAop p 8).payload 0 size) :=
  ⟨⟨ups, ⟨.atomic, 1, 33, 7, 0, false, [5,0,0,0,0,0,0,0,0,4], [], 64⟩, 4, 0, 5, by decide +kernel⟩,
    ⟨ups, ⟨.atomic, 1, 33, 7, 0, false, [5,0,0,0,0,0,0,0,0,4], [], 64⟩, 4, 0, 5, by decide +kernel⟩,
    ⟨ups, ⟨.atomic, 1, 33, 7, 0, false, [5,0,0,0,0,0,0,0,0,4], [], 64⟩, 4, 0, 5, by decide +kernel⟩,
    ⟨ups, ⟨.atomic, 1, 33, 7, 0, false, [5,0,0,0,0,0,0,0,0,4], [], 64⟩, 4, 0, 5, by decide +kernel⟩,
    ⟨ups, ⟨.atomic, 1, 33, 7, 0, false, [5,0,0,0,0,0,0,0,0,4], [], 64⟩, 4, 0, 5, by decide +kernel⟩,
    ⟨ups, ⟨.atomic, 1, 33, 7, 0, false, [5,0,0,0,0,0,0,0,0,4], [], 64⟩, 4, 0, 5, by decide +kernel⟩,
    ⟨ups, ⟨.atomic, 1, 33, 7, 0, false, [5,0,0,0,0,0,0,0,0,4], [], 64⟩, 4, 0, 5, by decide +kernel⟩,
    ⟨ups, ⟨.atomic, 1, 33, 7, 0, false, [5,0,0,0,0,0,0,0,0,4], [], 64⟩, 4, 0, 5, by decide +kernel⟩,
    ⟨ups, ⟨.atomic, 1, 33, 7, 0, false, [5,0,0,0,0,0,0,0,0,4], [], 64⟩, 4, 0, 5, by decide +kernel⟩⟩

/-- Each clause of RegisterWrites has a state and operands that meet its hypotheses. -/
theorem witness_RegisterWrites :
    (∃ (s : State) (c : Nat) (v : Word), (s.coreOf c).fence = false) ∧
    (∃ (s : State) (c : Nat) (v : Word), (s.coreOf c).fence = false ∧ s.locked = false) ∧
    (∃ (s : State) (c : Nat) (v : Word), (s.coreOf c).fence = false ∧ s.locked = true) ∧
    (∃ (s : State) (f off : Nat) (v : Word), s.glb.ready = true ∧ f ≠ 0 ∧ isReg64 off = true ∧ off % 8 = 0 ∧
      s.vfWrites f off = false) ∧
    (∃ (s : State) (f off : Nat) (v : Word), s.glb.ready = false ∧ off ≠ 0x908 ∧ off ≠ 0x910) ∧
    (∃ (s : State) (c off : Nat) (v : Word), (s.coreOf c).fence = false ∧ isReg64 off = true ∧ reservedBlock off =
      false ∧ ivrBlock off = false ∧ off < 0x4000000 ∧ isReg32 off = false) ∧
    (∃ (s : State) (f off : Nat), s.glb.ready = true) ∧
    (∃ (s : State) (f off : Nat), s.glb.ready = true) ∧
    (∃ (s : State) (f off : Nat), s.glb.ready = false) ∧
    (∃ (s : State) (c a : Nat), 0x030000C00000 ≤ a ∧ a < 0x030000F00000) ∧
    (∃ (s : State) (c a : Nat), 0x030000C00000 ≤ a ∧ a < 0x030000F00000) ∧
    (∃ (s : State) (c off : Nat), 0x0F00000 ≤ off ∧ off < 0x1000000) :=
  ⟨⟨ups, 3, 7, by decide +kernel⟩,
    ⟨ups, 3, 7, by decide +kernel⟩,
    ⟨{ ups with glb := { sealed := true } }, 3, 7, by decide +kernel⟩,
    ⟨{ ups with glb := { ready := true } }, 1, 0x18, 0, by decide +kernel⟩,
    ⟨ups, 1, 0x18, 0, by decide +kernel⟩,
    ⟨ups, 1, 0x18, 0, by decide +kernel⟩,
    ⟨{ ups with glb := { ready := true } }, 1, 3, by decide +kernel⟩,
    ⟨{ ups with glb := { ready := true } }, 1, 3, by decide +kernel⟩,
    ⟨ups, 1, 3, by decide +kernel⟩,
    ⟨ups, 1, 0x030000C00000, by decide +kernel⟩,
    ⟨ups, 1, 0x030000C00000, by decide +kernel⟩,
    ⟨ups, 1, 0x0F00000, by decide +kernel⟩⟩

/-- Each clause of Responses has a state and operands that meet its hypotheses. -/
theorem witness_Responses :
    (∃ (s : State) (p : Pkt) (o : Outst) (ring seq off : Nat), p.op = .respData ∧ p.addr = 0 ∧ p.poison = false ∧
      s.comes p ∧ s.findOutst p.dst p.tid = some o ∧ o.left ≤ 1 ∧ o.use = .copy ring seq off) ∧
    (∃ (s : State) (p : Pkt) (o : Outst) (src tid die : Nat), p.op = .respAck ∧ s.comes p ∧ s.findOutst p.dst
      p.tid = some o ∧ o.use = .relay src tid die ∧ s.fenced (49 + die) = false ∧ s.fenced src = false ∧ (src, tid)
      ∉ s.hub.dropped ∧ (s.poolOf die).wait = []) ∧
    (∃ (s : State) (p : Pkt) (o : Outst) (die addr : Nat), p.op = .respAck ∧ s.comes p ∧ s.findOutst p.dst p.tid =
      some o ∧ o.left ≤ 1 ∧ o.use = .evict die addr) ∧
    (∃ (s : State) (p : Pkt) (o : Outst) (core stack n : Nat), p.op = .respErr ∧ s.comes p ∧ s.findOutst p.dst
      p.tid = some o ∧ o.use = .engine core stack n) ∧
    (∃ (s : State) (p : Pkt) (o : Outst) (die core msg addr : Nat), p.op = .respRetry ∧ s.comes p ∧ s.findOutst
      p.dst p.tid = some o ∧ o.use = .coh die core msg addr ∧ (s.cdieOf die).defer = [] ∧ p.addr % 65536 ≠ 0) ∧
    (∃ (s : State) (p : Pkt) (o : Outst) (core obj : Nat), p.op = .respData ∧ p.addr = 0 ∧ p.poison = false ∧
      s.comes p ∧ s.findOutst p.dst p.tid = some o ∧ o.left ≤ 1 ∧ o.use = .amo core obj) ∧
    (∃ (s : State) (p : Pkt), s.findOutst p.dst p.tid = none) :=
  ⟨⟨{ ups with hub := { outst := [⟨1, 7, 33, .read, 64, 64, .copy 3 4 0, 1, false⟩] } }, ⟨.respData, 33, 1, 7, 0,
      false, [], [], 0⟩, ⟨1, 7, 33, .read, 64, 64, .copy 3 4 0, 1, false⟩, 3, 4, 0, by decide +kernel⟩,
    ⟨{ ups with hub := { outst := [⟨49, 7, 33, .read, 64, 64, .relay 1 9 0, 1, false⟩] } }, ⟨.respAck, 33, 49, 7,
      0, false, [], [], 0⟩, ⟨49, 7, 33, .read, 64, 64, .relay 1 9 0, 1, false⟩, 1, 9, 0, by decide +kernel⟩,
    ⟨{ ups with hub := { outst := [⟨54, 7, 33, .read, 64, 64, .evict 1 64, 1, false⟩] } }, ⟨.respAck, 33, 54, 7,
      0, false, [], [], 0⟩, ⟨54, 7, 33, .read, 64, 64, .evict 1 64, 1, false⟩, 1, 64, by decide +kernel⟩,
    ⟨{ ups with hub := { outst := [⟨1, 7, 33, .read, 64, 64, .engine 1 2 0, 1, false⟩] } }, ⟨.respErr, 33, 1, 7,
      0, false, [], [], 0⟩, ⟨1, 7, 33, .read, 64, 64, .engine 1 2 0, 1, false⟩, 1, 2, 0, by decide +kernel⟩,
    ⟨{ ups with hub := { outst := [⟨54, 7, 33, .read, 64, 64, .coh 1 2 1 64, 1, false⟩] } }, ⟨.respRetry, 33, 54,
      7, 5, false, [], [], 0⟩, ⟨54, 7, 33, .read, 64, 64, .coh 1 2 1 64, 1, false⟩, 1, 2, 1, 64, by decide +kernel⟩,
    ⟨{ ups with hub := { outst := [⟨53, 7, 63, .syncOp, 64, 64, .amo 1 5, 1, false⟩] } }, ⟨.respData, 63, 53, 7,
      0, false, [4], [], 0⟩, ⟨53, 7, 63, .syncOp, 64, 64, .amo 1 5, 1, false⟩, 1, 5, by decide +kernel⟩,
    ⟨ups, ⟨.respData, 33, 1, 7, 0, false, [], [], 0⟩, by decide +kernel⟩⟩

/-- Each clause of LinkSenders has a state and operands that meet its hypotheses. -/
theorem witness_LinkSenders :
    (∃ (s : State) (port seq : Nat) (sd : Side), s.linkLive port = true) ∧
    (∃ (s : State) (port : Nat) (sd : Side), s.linkLive port = true ∧ ((s.linkOf port).endOf sd).replay ≠ [] ∧
      ((s.linkOf port).endOf sd).resends < 7) ∧
    (∃ (s : State) (port : Nat) (sd : Side), s.linkLive port = true ∧ (s.linkOf port).fenced = false ∧ ((s.linkOf
      port).endOf sd).replay ≠ [] ∧ 7 ≤ ((s.linkOf port).endOf sd).resends) ∧
    (∃ (s : State) (port : Nat) (sd : Side), s.linkLive port = true ∧ ((s.linkOf port).endOf sd).replay ≠ [] ∧
      ((s.linkOf port).endOf sd).resends < 7) ∧
    (∃ (s : State) (port dst vc n : Nat) (sd : Side), s.linkLive port = true ∧ s.hub.voq = [] ∧ (s.linkOf
      port).die.wait = [] ∧ .credit dst vc n ∈ ((s.linkOf port).endOf (otherSide sd)).ctl) ∧
    (∃ (s : State) (port : Nat) (sd : Side), s.linkLive port = true) ∧
    (∃ (s : State) (port : Nat) (sd : Side), s.portUp port = true ∧ port ≠ 63) ∧
    (∃ (s : State) (port : Nat), (s.linkOf port).state = 2 ∧ (s.linkOf port).fenced = false ∧ port ≠ 63 ∧
      (s.linkOf port).paused = false) ∧
    (∃ (s : State) (port : Nat) (sd : Side) (hdr : BitVec 128) (body : List Byte) (crc : BitVec 32), s.linkLive
      port = true ∧ port ≤ 62 ∧ rawFind (s.linkOf port) sd hdr body crc = .bad) ∧
    (∃ (s : State) (port : Nat) (sd : Side) (hdr : BitVec 128) (body : List Byte) (crc : BitVec 32), s.linkLive
      port = true ∧ port ≤ 62 ∧ rawFind (s.linkOf port) sd hdr body crc = .gap) ∧
    (∃ (s : State) (port : Nat) (sd : Side) (hdr : BitVec 128) (body : List Byte) (crc : BitVec 32), rawFind
      (s.linkOf port) sd hdr body crc = .stale) :=
  ⟨⟨{ State.reset with
    link := [(1, {
        state := 2,
        die := {
            replay := [(3, ⟨.respData, 33, 1, 7, 0, false, [], [], 0⟩), (4, ⟨.respData, 33, 1, 7, 0, false, [], [], 0⟩)] } })] },
      1, 3, .die, by decide +kernel⟩,
    ⟨{ State.reset with
    link := [(1, {
        state := 2,
        die := {
            replay := [(3, ⟨.respData, 33, 1, 7, 0, false, [], [], 0⟩), (4, ⟨.respData, 33, 1, 7, 0, false, [], [], 0⟩)] } })] },
      1, .die, by decide +kernel⟩,
    ⟨{ State.reset with
    link := [(1, { state := 2, die := { replay := [(3, ⟨.respData, 33, 1, 7, 0, false, [], [], 0⟩)], resends := 7 } })] },
      1, .die, by decide +kernel⟩,
    ⟨{ State.reset with
    link := [(1, {
        state := 2,
        die := {
            replay := [(3, ⟨.respData, 33, 1, 7, 0, false, [], [], 0⟩), (4, ⟨.respData, 33, 1, 7, 0, false, [], [], 0⟩)] } })] },
      1, .die, by decide +kernel⟩,
    ⟨{ State.reset with link := [(1, { state := 2, die := { ctl := [.credit 1 0 1] }, hub := { used := [(0, 3)] } })] },
      1, 1, 0, 1, .hub, by decide +kernel⟩,
    ⟨{ State.reset with link := [(1, { state := 2, die := { ctl := [.heartbeat] } })] }, 1, .die,
      by decide +kernel⟩,
    ⟨{ State.reset with link := [(1, { state := 2 })] }, 1, .die, by decide +kernel⟩,
    ⟨{ State.reset with
    link := [(1, {
        state := 2,
        die := {
            replay := [(3, ⟨.respData, 33, 1, 7, 0, false, [], [], 0⟩), (4, ⟨.respData, 33, 1, 7, 0, false, [], [], 0⟩)] } })] },
      1, by decide +kernel⟩,
    ⟨{ State.reset with link := [(1, { state := 2 })] }, 1, .die, headerOf 0 0 ⟨.respAck, 1, 33, 7, 0, false, [],
      [], 0⟩, bodyOf ⟨.respAck, 1, 33, 7, 0, false, [], [], 0⟩, 0, by decide +kernel⟩,
    ⟨{ State.reset with link := [(1, { state := 2 })] }, 1, .die, headerOf 5 0 ⟨.respAck, 1, 33, 7, 0, false, [],
      [], 0⟩, bodyOf ⟨.respAck, 1, 33, 7, 0, false, [], [], 0⟩, crcOf (headerOf 5 0 ⟨.respAck, 1, 33, 7, 0, false,
      [], [], 0⟩) (bodyOf ⟨.respAck, 1, 33, 7, 0, false, [], [], 0⟩), by decide +kernel⟩,
    ⟨{ State.reset with link := [(1, { state := 2 })] }, 1, .die, headerOf 0 3 ⟨.respAck, 1, 33, 7, 0, false, [],
      [], 0⟩, bodyOf ⟨.respAck, 1, 33, 7, 0, false, [], [], 0⟩, crcOf (headerOf 0 3 ⟨.respAck, 1, 33, 7, 0, false,
      [], [], 0⟩) (bodyOf ⟨.respAck, 1, 33, 7, 0, false, [], [], 0⟩), by decide +kernel⟩⟩

/-- Each clause of LinkStates has a state and operands that meet its hypotheses. -/
theorem witness_LinkStates :
    (∃ (s : State) (port : Nat), s.linkLive port = true ∧ (s.linkOf port).fenced = false) ∧
    (∃ (s : State) (port a b w : Nat), s.mayTrain port = true ∧ (s.linkOf port).calibrated = true ∧ (s.linkOf
      port).fenced = false ∧ w = min (min a (s.usable port)) (min b (s.usable port)) ∧ minWidth port ≤ w) ∧
    (∃ (s : State) (port a b w : Nat), s.mayTrain port = true ∧ w = min (min a (s.usable port)) (min b (s.usable
      port)) ∧ minWidth port ≤ w) ∧
    (∃ (s : State) (port : Nat), port ≠ 63 ∧ (s.linkOf port).fenced = false ∧ (s.linkOf port).state = 1) ∧
    (∃ (s : State) (port : Nat), (∀ v ∈ s.hub.voq, v.pkt.src ≠ port) ∧ (s.linkOf port).fenced = true) ∧
    (∃ (s : State) (port : Nat), port ≤ 62 ∧ isUcie port = false ∧ (s.linkOf port).state = 2) ∧
    (∃ (s : State) (port : Nat), (s.linkOf port).paused = true ∧ (s.linkOf port).state = 2 ∧ (s.linkOf
      port).fenced = false) ∧
    (∃ (s : State) (port w : Nat), port ≤ 62 ∧ w < nomWidth port ∧ look 0 (s.linkOf port).lanes w < spareLanes
      port) ∧
    (∃ (s : State) (port w : Nat), port ≤ 52 ∧ w < nomWidth port ∧ (s.linkOf port).lanes = [(w, 2)] ∧ minWidth
      port < (s.linkOf port).width) :=
  ⟨⟨{ State.reset with link := [(1, { state := 2 })] }, 1, by decide +kernel⟩,
    ⟨{ State.reset with link := [(1, { state := 1, calibrated := true })] }, 1, 16, 12, 12, by decide +kernel⟩,
    ⟨{ State.reset with link := [(1, { state := 1 })] }, 1, 16, 12, 12, by decide +kernel⟩,
    ⟨{ State.reset with link := [(34, { state := 1 })] }, 34, by decide +kernel⟩,
    ⟨{ State.reset with link := [(1, { state := 3, fenced := true, fencing := true })] }, 1, by decide +kernel⟩,
    ⟨{ State.reset with link := [(1, { state := 2 })] }, 1, by decide +kernel⟩,
    ⟨{ State.reset with link := [(1, { state := 2, paused := true })] }, 1, by decide +kernel⟩,
    ⟨{ State.reset with link := [(1, { state := 2 })] }, 1, 0, by decide +kernel⟩,
    ⟨{ State.reset with link := [(1, { state := 2, width := 16, lanes := [(0, 2)] })] }, 1, 0, by decide +kernel⟩⟩

/-- Each clause of HubTimeoutsAndClocks has a state and operands that meet its hypotheses. -/
theorem witness_HubTimeoutsAndClocks :
    (∃ (s : State) (o : Outst), s.findOutst o.src o.tid = some o ∧ o.dst ≠ 63 ∧ s.forwarded o.src o.tid = true ∧
      s.fenced o.dst = false ∧ (s.linkOf o.dst).state = 2 ∧ (o.src, o.tid) ∉ s.hub.dropped) ∧
    (∃ (s : State) (p : Pkt), s.tier.wait.find? (fun q => q.src == p.src && q.tid == p.tid) = some p ∧ s.fenced
      p.src = false ∧ s.fenced p.dst = false ∧ (p.src, p.tid) ∉ s.hub.dropped) ∧
    (∃ (s : State), s.hub.standbyOk = true) ∧
    (∃ (s : State), s.hub.standbyOk = false) ∧
    (∃ (s : State) (p : Nat), p ≤ 62 ∧ (s.linkOf p).fenced = false) ∧
    (∃ (s : State), s.hub.bothFailed = false) ∧
    (∃ (s : State) (port : Nat), port ≤ 62 ∧ (s.linkOf port).noRoot = true ∧ s.siteFailed port = false) ∧
    (∃ (s : State) (who : Agent) (port : Nat), s.hostGate who = true) ∧
    (∃ (s : State) (src dst : Nat) (k : MgmtKind), s.comes ⟨.mgmt, src, dst, 0, 0, false, [], [], 0⟩) :=
  ⟨⟨{ ups with hub := { outst := [⟨1, 7, 33, .read, 64, 64, .plain, 1, false⟩] } }, ⟨1, 7, 33, .read, 64, 64,
      .plain, 1, false⟩, by decide +kernel⟩,
    ⟨{ State.reset with tier := { wait := [⟨.read, 1, 63, 7, 0, false, [], [], 0⟩] } }, ⟨.read, 1, 63, 7, 0,
      false, [], [], 0⟩, by decide +kernel⟩,
    ⟨{ State.reset with hub := { standbyOk := true }, link := [(1, { state := 2 })] }, by decide +kernel⟩,
    ⟨{ State.reset with hub := { standbyOk := false } }, by decide +kernel⟩,
    ⟨{ State.reset with link := [(1, { state := 2 })] }, 1, by decide +kernel⟩,
    ⟨{ State.reset with hub := { rootLost := true } }, by decide +kernel⟩,
    ⟨{ State.reset with link := [(40, { noRoot := true })] }, 40, by decide +kernel⟩,
    ⟨{ State.reset with link := [(1, { state := 2, crcErr := 3 })] }, .core 1, 1, by decide +kernel⟩,
    ⟨ups, 1, 63, .telemetry, by decide +kernel⟩⟩

/-- Each clause of ScalarInstructions has a state and operands that meet its hypotheses. -/
theorem witness_ScalarInstructions :
    (∃ (s : State) (pos slot : Nat) (x : Slot) (w : BitVec 128), s.runs pos slot 0x00 x w ∧ (x.taken w).step.pc <
      x.count) ∧
    (∃ (s : State) (pos slot : Nat) (x : Slot) (w : BitVec 128), s.runs pos slot 0x01 x w ∧ ((x.taken w).setS (fld
      w 105 100) (BitVec.ofNat 64 (fld w 63 0))).step.pc < x.count) ∧
    (∃ (s : State) (pos slot : Nat) (x : Slot) (w : BitVec 128), s.runs pos slot 0x02 x w ∧ ((x.taken w).setS (fld
      w 105 100) (aluFn (fld w 87 84) (x.sreg (fld w 99 94)) (x.sreg (fld w 93 88)))).step.pc < x.count) ∧
    (∃ (s : State) (pos slot : Nat) (x : Slot) (w : BitVec 128), s.runs pos slot 0x03 x w ∧ ((x.taken w).setS (fld
      w 105 100) (aluFn (fld w 87 84) (x.sreg (fld w 99 94)) (immWord 48 (fld w 47 0)))).step.pc < x.count) ∧
    (∃ (s : State) (pos slot : Nat) (x : Slot) (w : BitVec 128), s.runs pos slot 0x0A x w ∧ ((x.taken w).setS (fld
      w 105 100) (x.tstat)).step.pc < x.count) ∧
    (∃ (s : State) (pos slot : Nat) (x : Slot) (w : BitVec 128), s.runs pos slot 0x0B x w ∧
      ({ x.taken w with tstat := x.tstat &&& ~~~(BitVec.ofNat 64 (fld w 3 0)) }).step.pc < x.count) ∧
    (∃ (s : State) (pos slot : Nat) (x : Slot) (w : BitVec 128), s.runs pos slot 0x0C x w ∧ ((x.taken w).setS (fld
      w 105 100) (x.tctl)).step.pc < x.count) ∧
    (∃ (s : State) (pos slot : Nat) (x : Slot) (w : BitVec 128), s.runs pos slot 0x0D x w ∧
      ({ x.taken w with
          tctl := (x.tctl &&& ~~~(BitVec.ofNat 64 (fld w 1 0))) ||| (x.sreg (fld w 99 94) &&& BitVec.ofNat 64 (fld w 1 0)) }).step.pc
      < x.count) ∧
    (∃ (s : State) (pos slot : Nat) (x : Slot) (w : BitVec 128) (v : Nat), s.runs pos slot 0x0E x w ∧ sysrdVal x
      (fld w 7 0) = some v ∧ ((x.taken w).setS (fld w 105 100) (BitVec.ofNat 64 v)).step.pc < x.count) :=
  ⟨⟨tileWith (aSlot 0x00000000000000000000000000000000#128), 0, 0, aSlot 0x00000000000000000000000000000000#128,
      0x00000000000000000000000000000000#128, by decide +kernel⟩,
    ⟨tileWith (aSlot 0x0100003000000000000000000000004D#128), 0, 0, aSlot 0x0100003000000000000000000000004D#128,
      0x0100003000000000000000000000004D#128, by decide +kernel⟩,
    ⟨tileWith (aSlot 0x02000030000000000000000000000000#128), 0, 0, aSlot 0x02000030000000000000000000000000#128,
      0x02000030000000000000000000000000#128, by decide +kernel⟩,
    ⟨tileWith (aSlot 0x03000030000000000000FFFFFFFFFFFF#128), 0, 0, aSlot 0x03000030000000000000FFFFFFFFFFFF#128,
      0x03000030000000000000FFFFFFFFFFFF#128, by decide +kernel⟩,
    ⟨tileWith (aSlot 0x0A000030000000000000000000000000#128), 0, 0, aSlot 0x0A000030000000000000000000000000#128,
      0x0A000030000000000000000000000000#128, by decide +kernel⟩,
    ⟨tileWith (aSlot 0x0B000000000000000000000000000003#128), 0, 0, aSlot 0x0B000000000000000000000000000003#128,
      0x0B000000000000000000000000000003#128, by decide +kernel⟩,
    ⟨tileWith (aSlot 0x0C000030000000000000000000000000#128), 0, 0, aSlot 0x0C000030000000000000000000000000#128,
      0x0C000030000000000000000000000000#128, by decide +kernel⟩,
    ⟨tileWith (aSlot 0x0D000000000000000000000000000003#128), 0, 0, aSlot 0x0D000000000000000000000000000003#128,
      0x0D000000000000000000000000000003#128, by decide +kernel⟩,
    ⟨tileWith (aSlot 0x0E000030000000000000000000000002#128), 0, 0, aSlot 0x0E000030000000000000000000000002#128,
      0x0E000030000000000000000000000002#128, 1, by decide +kernel⟩⟩

/-- Each clause of ControlInstructions has a state and operands that meet its hypotheses. -/
theorem witness_ControlInstructions :
    (∃ (s : State) (pos slot : Nat) (x : Slot) (w : BitVec 128), s.runs pos slot 0x04 x w ∧ brCond (fld w 105 103)
      (x.sreg (fld w 99 94)) (x.sreg (fld w 93 88)) = some true ∧ 0 ≤ ((x.pc : Int) + sext 24 (fld w 23 0)) ∧ ((x.pc
      : Int) + sext 24 (fld w 23 0)) < (x.count : Int)) ∧
    (∃ (s : State) (pos slot : Nat) (x : Slot) (w : BitVec 128), s.runs pos slot 0x04 x w ∧ brCond (fld w 105 103)
      (x.sreg (fld w 99 94)) (x.sreg (fld w 93 88)) = some false ∧ (x.taken w).step.pc < x.count) ∧
    (∃ (s : State) (pos slot : Nat) (x : Slot) (w : BitVec 128), s.runs pos slot 0x05 x w ∧ fld w 105 105 = 0 ∧ 0
      ≤ (fld w 13 0 : Int) ∧ (fld w 13 0 : Int) < (x.count : Int)) ∧
    (∃ (s : State) (pos slot : Nat) (x : Slot) (w : BitVec 128) (n : Nat), s.runs pos slot 0x06 x w ∧ n = (if fld
      w 103 103 = 1 then fld (x.sreg (fld w 99 94)) 31 0 else fld w 31 0) ∧ 0 < n ∧ 0 < fld w 87 74 ∧ x.pc + fld w
      87 74 < x.count ∧ (look {} x.loops (fld w 105 104)).active = false ∧ x.nest = []) ∧
    (∃ (s : State) (pos slot : Nat) (x : Slot) (w : BitVec 128) (hl : Nat × Nat), s.runs pos slot 0x07 x w ∧ fld w
      101 98 ≠ 0xA ∧ laySel (fld w 101 98) = some hl ∧ ((x.taken w).setL (fld w 105 102) (layPut (x.lreg (fld w 105
      102)) hl.1 hl.2 (if fld w 97 97 = 1 then (x.sreg (fld w 93 88)).toNat else fld w 63 0))).step.pc < x.count) ∧
    (∃ (s : State) (pos slot : Nat) (x : Slot) (w : BitVec 128), s.runs pos slot 0x08 x w ∧ fld w 101 101 = 0 ∧
      ((x.taken w).setL (fld w 105 102) (layPut (x.lreg (fld w 105 102)) 63 0 (BitVec.ofNat 64 (fld (x.lreg (fld w
      105 102)) 63 0) + (x.sreg (fld w 99 94) + immWord 48 (fld w 47 0))).toNat)).step.pc < x.count) ∧
    (∃ (s : State) (pos slot : Nat) (x : Slot) (w : BitVec 128), s.runs pos slot 0x09 x w ∧ ((x.taken w).setL (fld
      w 105 102) (x.lreg (fld w 101 98))).step.pc < x.count) ∧
    (∃ (s : State) (pos slot : Nat) (x : Slot) (w : BitVec 128), s.runs pos slot 0x0F x w ∧ fld w 105 102 ≠ 0 ∧
      x.qm = [] ∧ x.qv = [] ∧ x.qx = [] ∧ x.qs = [] ∧ (x.taken w).step.pc < x.count) ∧
    (∃ (s : State) (pos slot : Nat) (x : Slot) (w : BitVec 128) (n : Nat), s.runs pos slot 0x10 x w ∧ fld w 103 94
      ≤ 1000 ∧ s.tileAt pos = some n ∧ (x.taken w).step.pc < x.count) ∧
    (∃ (s : State) (pos slot : Nat) (x : Slot) (w : BitVec 128), s.runs pos slot 0x11 x w) :=
  ⟨⟨tileWith (aSlot 0x04000000000000000000000000000001#128), 0, 0, aSlot 0x04000000000000000000000000000001#128,
      0x04000000000000000000000000000001#128, by decide +kernel⟩,
    ⟨tileWith (aSlot 0x04000080000000000000000000000001#128), 0, 0, aSlot 0x04000080000000000000000000000001#128,
      0x04000080000000000000000000000001#128, by decide +kernel⟩,
    ⟨tileWith (aSlot 0x05000000000000000000000000000001#128), 0, 0, aSlot 0x05000000000000000000000000000001#128,
      0x05000000000000000000000000000001#128, by decide +kernel⟩,
    ⟨tileWith (aSlot 0x06000000000004000000000000000003#128), 0, 0, aSlot 0x06000000000004000000000000000003#128,
      0x06000000000004000000000000000003#128, 3, by decide +kernel⟩,
    ⟨tileWith (aSlot 0x07000000000000000000000000000005#128), 0, 0, aSlot 0x07000000000000000000000000000005#128,
      0x07000000000000000000000000000005#128, (63, 0), by decide +kernel⟩,
    ⟨tileWith (aSlot 0x08000000000000000000000000000005#128), 0, 0, aSlot 0x08000000000000000000000000000005#128,
      0x08000000000000000000000000000005#128, by decide +kernel⟩,
    ⟨tileWith (aSlot 0x09000004000000000000000000000000#128), 0, 0, aSlot 0x09000004000000000000000000000000#128,
      0x09000004000000000000000000000000#128, by decide +kernel⟩,
    ⟨tileWith (aSlot 0x0F0003C0000000000000000000000000#128), 0, 0, aSlot 0x0F0003C0000000000000000000000000#128,
      0x0F0003C0000000000000000000000000#128, by decide +kernel⟩,
    ⟨tileWith (aSlot 0x10000201400000000000000000000000#128), 0, 0, aSlot 0x10000201400000000000000000000000#128,
      0x10000201400000000000000000000000#128, 0, by decide +kernel⟩,
    ⟨tileWith (aSlot 0x11000000000000000000000000000000#128), 0, 0, aSlot 0x11000000000000000000000000000000#128,
      0x11000000000000000000000000000000#128, by decide +kernel⟩⟩

/-- Each clause of MatrixAndVectorIssue has a state and operands that meet its hypotheses. -/
theorem witness_MatrixAndVectorIssue :
    (∃ (s : State) (pos slot : Nat) (x : Slot) (w : BitVec 128), s.queues pos slot 0x20 .matrix mmaCheck x w ∧
      (x.queued .matrix w (mmaCap x w) ((if fld w 49 49 = 1 then x.ord + 1 else x.ord))).pc < x.count) ∧
    (∃ (s : State) (pos slot : Nat) (x : Slot) (w : BitVec 128), s.queues pos slot 0x21 .matrix drainCheck x w ∧
      (x.queued .matrix w (drainCap x w) (x.ord + 1)).pc < x.count) ∧
    (∃ (s : State) (pos slot : Nat) (x : Slot) (w : BitVec 128), s.queues pos slot 0x40 .vector vecCheck x w ∧
      (x.queued .vector w (vecCap x w) (x.ord + 1)).pc < x.count) ∧
    (∃ (s : State) (pos slot : Nat) (x : Slot) (w : BitVec 128), s.queues pos slot 0x41 .vector vecCheck x w ∧
      (x.queued .vector w (vecCap x w) (x.ord + 1)).pc < x.count) ∧
    (∃ (s : State) (pos slot : Nat) (x : Slot) (w : BitVec 128), s.queues pos slot 0x42 .vector vecCheck x w ∧
      (x.queued .vector w (vecCap x w) (x.ord)).pc < x.count) ∧
    (∃ (s : State) (pos slot : Nat) (x : Slot) (w : BitVec 128), s.queues pos slot 0x43 .vector vecCheck x w ∧
      (x.queued .vector w (vecCap x w) (x.ord)).pc < x.count) ∧
    (∃ (s : State) (pos slot : Nat) (x : Slot) (w : BitVec 128), s.queues pos slot 0x44 .vector vecCheck x w ∧
      (x.queued .vector w (vecCap x w) (x.ord)).pc < x.count) ∧
    (∃ (s : State) (pos slot : Nat) (x : Slot) (w : BitVec 128), s.queues pos slot 0x45 .vector vecCheck x w ∧
      (x.queued .vector w (vecCap x w) (x.ord)).pc < x.count) ∧
    (∃ (s : State) (pos slot : Nat) (x : Slot) (w : BitVec 128), s.queues pos slot 0x46 .vector vecCheck x w ∧
      (x.queued .vector w (vecCap x w) (x.ord)).pc < x.count) ∧
    (∃ (s : State) (pos slot : Nat) (x : Slot) (w : BitVec 128), s.queues pos slot 0x47 .vector vecCheck x w ∧
      (x.queued .vector w (vecCap x w) (x.ord)).pc < x.count) ∧
    (∃ (s : State) (pos slot : Nat) (x : Slot) (w : BitVec 128), s.queues pos slot 0x48 .vector vecCheck x w ∧
      (x.queued .vector w (vecCap x w) (x.ord + 1)).pc < x.count) :=
  ⟨⟨tileWith
      ({ aSlot 0x200000040240000001F8000000000000#128 with
          l := [(0, 0x200000000008000000040000000100000000000000000#256), (1, 0x200000000004000000010000000400000000000001000#256)] }),
      0, 0,
      { aSlot 0x200000040240000001F8000000000000#128 with
          l := [(0, 0x200000000008000000040000000100000000000000000#256), (1, 0x200000000004000000010000000400000000000001000#256)] },
      0x200000040240000001F8000000000000#128, by decide +kernel⟩,
    ⟨tileWith
      ({ aSlot 0x21000004000000000000000000000000#128 with
          l := [(0, 0x100000000004000000010000000100000000000000000#256)] }),
      0, 0,
      { aSlot 0x21000004000000000000000000000000#128 with l := [(0, 0x100000000004000000010000000100000000000000000#256)] },
      0x21000004000000000000000000000000#128, by decide +kernel⟩,
    ⟨tileWith (aSlot 0x40000000000000004000000000000000#128), 0, 0, aSlot 0x40000000000000004000000000000000#128,
      0x40000000000000004000000000000000#128, by decide +kernel⟩,
    ⟨tileWith (aSlot 0x41000000000000004000000000000000#128), 0, 0, aSlot 0x41000000000000004000000000000000#128,
      0x41000000000000004000000000000000#128, by decide +kernel⟩,
    ⟨tileWith (aSlot 0x42000000000000004000000000000000#128), 0, 0, aSlot 0x42000000000000004000000000000000#128,
      0x42000000000000004000000000000000#128, by decide +kernel⟩,
    ⟨tileWith (aSlot 0x43000000000000004000000000000000#128), 0, 0, aSlot 0x43000000000000004000000000000000#128,
      0x43000000000000004000000000000000#128, by decide +kernel⟩,
    ⟨tileWith (aSlot 0x44000000000000004000000000000000#128), 0, 0, aSlot 0x44000000000000004000000000000000#128,
      0x44000000000000004000000000000000#128, by decide +kernel⟩,
    ⟨tileWith (aSlot 0x45000000000000000000000000000000#128), 0, 0, aSlot 0x45000000000000000000000000000000#128,
      0x45000000000000000000000000000000#128, by decide +kernel⟩,
    ⟨tileWith (aSlot 0x46000000000000004000000000000000#128), 0, 0, aSlot 0x46000000000000004000000000000000#128,
      0x46000000000000004000000000000000#128, by decide +kernel⟩,
    ⟨tileWith (aSlot 0x47000000000000004000000000000000#128), 0, 0, aSlot 0x47000000000000004000000000000000#128,
      0x47000000000000004000000000000000#128, by decide +kernel⟩,
    ⟨tileWith (aSlot 0x48000000000000004000000000000000#128), 0, 0, aSlot 0x48000000000000004000000000000000#128,
      0x48000000000000004000000000000000#128, by decide +kernel⟩⟩

/-- Each clause of MoveAndSyncIssue has a state and operands that meet its hypotheses. -/
theorem witness_MoveAndSyncIssue :
    (∃ (s : State) (pos slot : Nat) (x : Slot) (w : BitVec 128), s.queues pos slot 0x80 .move (moveCheck s) x w ∧
      (x.queued .move w (moveCap x w) (x.ord + 1)).pc < x.count) ∧
    (∃ (s : State) (pos slot : Nat) (x : Slot) (w : BitVec 128), s.queues pos slot 0x81 .move (moveCheck s) x w ∧
      (x.queued .move w (moveCap x w) (x.ord + 1)).pc < x.count) ∧
    (∃ (s : State) (pos slot : Nat) (x : Slot) (w : BitVec 128), s.queues pos slot 0x82 .move (moveCheck s) x w ∧
      (x.queued .move w (moveCap x w) ((if fld w 86 85 = 1 then x.ord + 1 else x.ord))).pc < x.count) ∧
    (∃ (s : State) (pos slot : Nat) (x : Slot) (w : BitVec 128), s.queues pos slot 0x83 .move (moveCheck s) x w ∧
      (x.queued .move w (moveCap x w) (x.ord)).pc < x.count) ∧
    (∃ (s : State) (pos slot : Nat) (x : Slot) (w : BitVec 128), s.queues pos slot 0x84 .move (moveCheck s) x w ∧
      (x.queued .move w (moveCap x w) (x.ord)).pc < x.count) ∧
    (∃ (s : State) (pos slot : Nat) (x : Slot) (w : BitVec 128), s.queues pos slot 0x85 .move (moveCheck s) x w ∧
      (x.queued .move w (moveCap x w) (x.ord)).pc < x.count) ∧
    (∃ (s : State) (pos slot : Nat) (x : Slot) (w : BitVec 128), s.queues pos slot 0x86 .move (moveCheck s) x w ∧
      (x.queued .move w (moveCap x w) (x.ord)).pc < x.count) ∧
    (∃ (s : State) (pos slot : Nat) (x : Slot) (w : BitVec 128), s.queues pos slot 0xA0 .sync (syncCheck s) x w ∧
      (x.queued .sync w (syncCap x w) (x.ord)).pc < x.count) ∧
    (∃ (s : State) (pos slot : Nat) (x : Slot) (w : BitVec 128), s.queues pos slot 0xA1 .sync (syncCheck s) x w ∧
      (x.queued .sync w (syncCap x w) (x.ord)).pc < x.count) ∧
    (∃ (s : State) (pos slot : Nat) (x : Slot) (w : BitVec 128), s.queues pos slot 0xA2 .sync (syncCheck s) x w ∧
      (x.queued .sync w (syncCap x w) (x.ord)).pc < x.count) ∧
    (∃ (s : State) (pos slot : Nat) (x : Slot) (w : BitVec 128), s.queues pos slot 0xA3 .sync tokCheck x w ∧
      (x.queued .sync w ((fun _ _ => ([], [])) x w) (x.ord)).pc < x.count) ∧
    (∃ (s : State) (pos slot : Nat) (x : Slot) (w : BitVec 128), s.queues pos slot 0xA4 .sync tokCheck x w ∧
      (x.queued .sync w ((fun _ _ => ([], [])) x w) (x.ord)).pc < x.count) :=
  ⟨⟨tileWith
      ({ aSlot 0x80000004000000000000000000000000#128 with
          l := [(0, 0x200200000000004000000020000000040000000000000000#256), (1, 0x200000000004000000020000000040000000000000000#256)] }),
      0, 0,
      { aSlot 0x80000004000000000000000000000000#128 with
          l := [(0, 0x200200000000004000000020000000040000000000000000#256), (1, 0x200000000004000000020000000040000000000000000#256)] },
      0x80000004000000000000000000000000#128, by decide +kernel⟩,
    ⟨{ tileWith ({ aSlot 0x81000004000000000000000000000000#128 with l := [(0, 0x200000000004000000020000000040000000000000000#256), (1, 0x200200000000004000000020000000040000000000000000#256)] }) with
    disp := {
        cmds := [{
            ring := 0, seq := 0, desc := 3 :: List.replicate 15 0 ++ leBytes 8 0 ++ leBytes 8 4096, sync := [],
            regions := [], locals := [] }] } },
      0, 0,
      { aSlot 0x81000004000000000000000000000000#128 with
          l := [(0, 0x200000000004000000020000000040000000000000000#256), (1, 0x200200000000004000000020000000040000000000000000#256)] },
      0x81000004000000000000000000000000#128, by decide +kernel⟩,
    ⟨tileWith
      ({ aSlot 0x82000004000000000000000000000000#128 with
          l := [(0, 0x200200000000004000000020000000040000000000000000#256), (1, 0x200000000004000000020000000040000000000000000#256)] }),
      0, 0,
      { aSlot 0x82000004000000000000000000000000#128 with
          l := [(0, 0x200200000000004000000020000000040000000000000000#256), (1, 0x200000000004000000020000000040000000000000000#256)] },
      0x82000004000000000000000000000000#128, by decide +kernel⟩,
    ⟨tileWith
      ({ aSlot 0x83000004000000000000000000000000#128 with
          l := [(0, 0x100000000004000000010000000040000000000000000#256), (1, 0x200100000000004000000010000000040000000000000000#256)] }),
      0, 0,
      { aSlot 0x83000004000000000000000000000000#128 with
          l := [(0, 0x100000000004000000010000000040000000000000000#256), (1, 0x200100000000004000000010000000040000000000000000#256)] },
      0x83000004000000000000000000000000#128, by decide +kernel⟩,
    ⟨tileWith
      ({ aSlot 0x84000000000000000000000000000000#128 with
          l := [(0, 0x200200000000004000000020000000040000000000000000#256), (1, 0)] }),
      0, 0,
      { aSlot 0x84000000000000000000000000000000#128 with
          l := [(0, 0x200200000000004000000020000000040000000000000000#256), (1, 0)] },
      0x84000000000000000000000000000000#128, by decide +kernel⟩,
    ⟨{ tileWith ({ aSlot 0x85000004000000000000000000000000#128 with l := [(0, 0x200000000004000000020000000040000000000000000#256), (1, 0x200200000000004000000020000000040000000000000000#256)] }) with
    disp := {
        cmds := [{
            ring := 0, seq := 0, desc := 3 :: List.replicate 15 0 ++ leBytes 8 0 ++ leBytes 8 4096, sync := [],
            regions := [], locals := [] }] } },
      0, 0,
      { aSlot 0x85000004000000000000000000000000#128 with
          l := [(0, 0x200000000004000000020000000040000000000000000#256), (1, 0x200200000000004000000020000000040000000000000000#256)] },
      0x85000004000000000000000000000000#128, by decide +kernel⟩,
    ⟨tileWith
      ({ aSlot 0x86000004000000000000000000000000#128 with
          l := [(0, 0x200200000000004000000020000000040000000000000000#256), (1, 0x200000000004000000020000000040000000000000000#256)] }),
      0, 0,
      { aSlot 0x86000004000000000000000000000000#128 with
          l := [(0, 0x200200000000004000000020000000040000000000000000#256), (1, 0x200000000004000000020000000040000000000000000#256)] },
      0x86000004000000000000000000000000#128, by decide +kernel⟩,
    ⟨(tileWith (aSlot 0xA0000000000000050000000000000007#128)).setReg (syncCfg 5) 0x80000000, 0, 0, aSlot
      0xA0000000000000050000000000000007#128, 0xA0000000000000050000000000000007#128, by decide +kernel⟩,
    ⟨(tileWith (aSlot 0xA1000000000000050000000000000007#128)).setReg (syncCfg 5) 0x80000000, 0, 0, aSlot
      0xA1000000000000050000000000000007#128, 0xA1000000000000050000000000000007#128, by decide +kernel⟩,
    ⟨(tileWith (aSlot 0xA2000000000000050000000000000007#128)).setReg (syncCfg 5) 0x80000000, 0, 0, aSlot
      0xA2000000000000050000000000000007#128, 0xA2000000000000050000000000000007#128, by decide +kernel⟩,
    ⟨tileWith (aSlot 0xA3000023000000000000000000000000#128), 0, 0, aSlot 0xA3000023000000000000000000000000#128,
      0xA3000023000000000000000000000000#128, by decide +kernel⟩,
    ⟨tileWith (aSlot 0xA4000023000000000000000000000000#128), 0, 0, aSlot 0xA4000023000000000000000000000000#128,
      0xA4000023000000000000000000000000#128, by decide +kernel⟩⟩

/-- Each clause of QueuedInstructionsEnd has a state and operands that meet its hypotheses. -/
theorem witness_QueuedInstructionsEnd :
    (∃ (s : State) (pos slot id : Nat) (x : Slot) (q : QInstr), s.slotOf pos slot = some x ∧ x.qm.find? (fun i =>
      i.id == id) = some q ∧ q.started = true ∧ wOpc q.word = 0x20 ∧ (∀ i ∈ x.qm.takeWhile (fun i => i.id != id), ∀
      a ∈ i.arrays x, a ∉ q.arrays x) ∧ s.arraysHeld = false ∧ ((wSE q.word = true → look 0 x.tok (wST q.word) <
      15))) ∧
    (∃ (s : State) (pos slot id : Nat) (x : Slot) (q : QInstr), s.slotOf pos slot = some x ∧ x.qm.find? (fun i =>
      i.id == id) = some q ∧ q.started = true ∧ wOpc q.word = 0x21 ∧ (∀ i ∈ x.qm.takeWhile (fun i => i.id != id), ∀
      a ∈ i.arrays x, a ∉ q.arrays x) ∧ s.arraysHeld = false ∧ ((wSE q.word = true → look 0 x.tok (wST q.word) <
      15))) ∧
    (∃ (s : State) (pos slot : Nat) (x : Slot) (q : QInstr), s.slotOf pos slot = some x ∧ x.qv.find?
      QInstr.started = some q ∧ wOpc q.word = 0x42 ∧ ((wSE q.word = true → look 0 x.tok (wST q.word) < 15))) ∧
    (∃ (s : State) (pos slot : Nat) (x : Slot) (q : QInstr), s.slotOf pos slot = some x ∧ x.qv.find?
      QInstr.started = some q ∧ wOpc q.word = 0x45 ∧ ((wSE q.word = true → look 0 x.tok (wST q.word) < 15))) ∧
    (∃ (s : State) (pos slot id : Nat) (x : Slot) (q : QInstr), s.moveOf pos slot id = some (x, q) ∧ (wOpc q.word
      = 0x80 ∨ wOpc q.word = 0x86) ∧ q.allDone = true ∧ ((wSE q.word = true → look 0 x.tok (wST q.word) < 15))) ∧
    (∃ (s : State) (pos slot id : Nat) (x : Slot) (q : QInstr), s.moveOf pos slot id = some (x, q) ∧ wOpc q.word =
      0x82 ∧ q.allDone = true ∧ ((wSE q.word = true → look 0 x.tok (wST q.word) < 15)) ∧ q.stage = 1) ∧
    (∃ (s : State) (pos slot id : Nat) (x : Slot) (q : QInstr), s.moveOf pos slot id = some (x, q) ∧ moveWrites
      (wOpc q.word) = true ∧ q.allDone = true ∧ ((wSE q.word = true → look 0 x.tok (wST q.word) < 15))) ∧
    (∃ (s : State) (pos slot id : Nat) (x : Slot) (q : QInstr), s.moveOf pos slot id = some (x, q) ∧ wOpc q.word =
      0x84 ∧ q.allDone = true ∧ ((wSE q.word = true → look 0 x.tok (wST q.word) < 15))) :=
  ⟨⟨tileWith
      ({ aSlot 0 with
          qm := [{
              id := 4, word := 0x20000004024000000000000000000000#128, pc := 0, started := true,
              lregs := [0x200000000004000000001000000100000000000000000#256, 0x200000000004000000010000000010000000000001000#256, 0] }] }),
      0, 0, 4,
      { aSlot 0 with
          qm := [{
              id := 4, word := 0x20000004024000000000000000000000#128, pc := 0, started := true,
              lregs := [0x200000000004000000001000000100000000000000000#256, 0x200000000004000000010000000010000000000001000#256, 0] }] },
      {
          id := 4, word := 0x20000004024000000000000000000000#128, pc := 0, started := true,
          lregs := [0x200000000004000000001000000100000000000000000#256, 0x200000000004000000010000000010000000000001000#256, 0] },
      by decide +kernel⟩,
    ⟨tileWith
      ({ aSlot 0 with
          qm := [{
              id := 4, word := 0x21000004000000000000000000000000#128, pc := 0, started := true,
              lregs := [0x100000000004000000010000000100000000000000000#256] }] }),
      0, 0, 4,
      { aSlot 0 with
          qm := [{
              id := 4, word := 0x21000004000000000000000000000000#128, pc := 0, started := true,
              lregs := [0x100000000004000000010000000100000000000000000#256] }] },
      {
          id := 4, word := 0x21000004000000000000000000000000#128, pc := 0, started := true,
          lregs := [0x100000000004000000010000000100000000000000000#256] },
      by decide +kernel⟩,
    ⟨tileWith
      ({ aSlot 0 with qv := [{ id := 4, word := 0x42000022180000024000000000000000#128, pc := 0, started := true }] }),
      0, 0,
      { aSlot 0 with qv := [{ id := 4, word := 0x42000022180000024000000000000000#128, pc := 0, started := true }] },
      { id := 4, word := 0x42000022180000024000000000000000#128, pc := 0, started := true }, by decide +kernel⟩,
    ⟨tileWith
      ({ aSlot 0 with qv := [{ id := 4, word := 0x45000000000014000000000000000000#128, pc := 0, started := true }] }),
      0, 0,
      { aSlot 0 with qv := [{ id := 4, word := 0x45000000000014000000000000000000#128, pc := 0, started := true }] },
      { id := 4, word := 0x45000000000014000000000000000000#128, pc := 0, started := true }, by decide +kernel⟩,
    ⟨tileWith
      ({ aSlot 0 with
          qx := [{
              id := 4, word := 0x80000004000000000000000000000000#128, pc := 0, started := true,
              lregs := [0x200200000000004000000020000000010000000000000000#256, 0x200000000004000000020000000010000000000000000#256],
              got := [(0, List.replicate 64 1)] }] }),
      0, 0, 4,
      { aSlot 0 with
          qx := [{
              id := 4, word := 0x80000004000000000000000000000000#128, pc := 0, started := true,
              lregs := [0x200200000000004000000020000000010000000000000000#256, 0x200000000004000000020000000010000000000000000#256],
              got := [(0, List.replicate 64 1)] }] },
      {
          id := 4, word := 0x80000004000000000000000000000000#128, pc := 0, started := true,
          lregs := [0x200200000000004000000020000000010000000000000000#256, 0x200000000004000000020000000010000000000000000#256],
          got := [(0, List.replicate 64 1)] },
      by decide +kernel⟩,
    ⟨tileWith
      ({ aSlot 0 with
          qx := [{
              id := 4, word := 0x82000004000000000000000000000000#128, pc := 0, started := true, stage := 1,
              lregs := [0x200200000000004000000020000000010000000000000000#256, 0x200000000004000000020000000010000000000000000#256] }] }),
      0, 0, 4,
      { aSlot 0 with
          qx := [{
              id := 4, word := 0x82000004000000000000000000000000#128, pc := 0, started := true, stage := 1,
              lregs := [0x200200000000004000000020000000010000000000000000#256, 0x200000000004000000020000000010000000000000000#256] }] },
      {
          id := 4, word := 0x82000004000000000000000000000000#128, pc := 0, started := true, stage := 1,
          lregs := [0x200200000000004000000020000000010000000000000000#256, 0x200000000004000000020000000010000000000000000#256] },
      by decide +kernel⟩,
    ⟨tileWith
      ({ aSlot 0 with
          qx := [{ id := 4, word := 0x81000004000000000000000000000000#128, pc := 0, started := true, flags := 1#4 }] }),
      0, 0, 4,
      { aSlot 0 with
          qx := [{ id := 4, word := 0x81000004000000000000000000000000#128, pc := 0, started := true, flags := 1#4 }] },
      { id := 4, word := 0x81000004000000000000000000000000#128, pc := 0, started := true, flags := 1#4 },
      by decide +kernel⟩,
    ⟨tileWith
      ({ aSlot 0 with qx := [{ id := 4, word := 0x84000000000000000000000000000000#128, pc := 0, started := true }] }),
      0, 0, 4,
      { aSlot 0 with qx := [{ id := 4, word := 0x84000000000000000000000000000000#128, pc := 0, started := true }] },
      { id := 4, word := 0x84000000000000000000000000000000#128, pc := 0, started := true }, by decide +kernel⟩⟩

/-- Each clause of QueueHeadsAndSyncInstructions has a state and operands that meet its hypotheses. -/
theorem witness_QueueHeadsAndSyncInstructions :
    (∃ (s : State) (pos slot : Nat) (x y : Slot) (i : QInstr), s.slotOf pos slot = some x ∧ x.qv.find? (fun j =>
      !j.started) = some i ∧ s.headMay pos slot x .vector i = true ∧ s.startTurn pos slot .vector i = true ∧ y = (if
      wWE i.word then x.take 1 (wWT i.word) 1 else x)) ∧
    (∃ (s : State) (pos slot : Nat) (x : Slot) (i : QInstr), s.slotOf pos slot = some x ∧ x.qs.find? (fun j =>
      !j.started) = some i ∧ wOpc i.word = 0xA0 ∧ s.siteLive pos = true ∧ s.queueFree pos slot x .sync = true ∧ wWE
      i.word = false ∧ s.mayIssue pos) ∧
    (∃ (s : State) (pos slot : Nat) (x : Slot) (q : QInstr), s.slotOf pos slot = some x ∧ x.qs.find? (fun q =>
      q.started && wOpc q.word == 0xA1 && q.stage == 0) = some q ∧ (∀ m ∈ x.qx, m.id ∈ q.idx → m.allDone = true) ∧
      s.mayIssue pos) ∧
    (∃ (s : State) (pos slot id : Nat) (x : Slot) (q : QInstr), s.slotOf pos slot = some x ∧ x.find .sync id =
      some q ∧ q.started = true ∧ wOpc q.word ≠ 0xA4 ∧ q.waitAns = 1 ∧ ((wSE q.word = true → look 0 x.tok (wST
      q.word) < 15))) ∧
    (∃ (s : State) (pos slot id : Nat) (x : Slot) (q : QInstr), s.slotOf pos slot = some x ∧ x.find .sync id =
      some q ∧ q.started = true ∧ wOpc q.word = 0xA4 ∧ wSE q.word = false ∧ s.mayTake pos slot x 3 (fld q.word 105
      100) = true) ∧
    (∃ (s : State) (pos slot id : Nat) (x : Slot) (q : QInstr) (idx : List Nat), s.moveOf pos slot id = some (x,
      q) ∧ wOpc q.word = 0x82 ∧ q.stage = 0 ∧ q.move.mode = 0 ∧ idx = listWords (s.tileByte pos x.winBase) q.move.ri
      q.move.lt.rows ∧ (∀ i ∈ idx, i = 0xFFFFFFFF ∨ i < q.move.ls.rows)) :=
  ⟨⟨tileWith
      ({ aSlot 0 with qv := [{ id := 4, word := 0x42000000000000004000000000000000#128, pc := 0, started := false }] }),
      0, 0,
      { aSlot 0 with qv := [{ id := 4, word := 0x42000000000000004000000000000000#128, pc := 0, started := false }] },
      { aSlot 0 with qv := [{ id := 4, word := 0x42000000000000004000000000000000#128, pc := 0, started := false }] },
      { id := 4, word := 0x42000000000000004000000000000000#128, pc := 0, started := false }, by decide +kernel⟩,
    ⟨tileWith
      ({ aSlot 0 with
          qs := [{
              id := 4, word := 0xA0000000000000000000000000000000#128, pc := 0, started := false, sregs := [5, 7] }] }),
      0, 0,
      { aSlot 0 with
          qs := [{ id := 4, word := 0xA0000000000000000000000000000000#128, pc := 0, started := false, sregs := [5, 7] }] },
      { id := 4, word := 0xA0000000000000000000000000000000#128, pc := 0, started := false, sregs := [5, 7] },
      by decide +kernel⟩,
    ⟨tileWith
      ({ aSlot 0 with
          qs := [{ id := 4, word := 0xA1000000000000000000000000000000#128, pc := 0, started := true, sregs := [5, 7] }] }),
      0, 0,
      { aSlot 0 with
          qs := [{ id := 4, word := 0xA1000000000000000000000000000000#128, pc := 0, started := true, sregs := [5, 7] }] },
      { id := 4, word := 0xA1000000000000000000000000000000#128, pc := 0, started := true, sregs := [5, 7] },
      by decide +kernel⟩,
    ⟨tileWith
      ({ aSlot 0 with
          qs := [{
              id := 4, word := 0xA0000000000000000000000000000000#128, pc := 0, started := true, sregs := [5, 7],
              waitAns := 1 }] }),
      0, 0, 4,
      { aSlot 0 with
          qs := [{
              id := 4, word := 0xA0000000000000000000000000000000#128, pc := 0, started := true, sregs := [5, 7],
              waitAns := 1 }] },
      { id := 4, word := 0xA0000000000000000000000000000000#128, pc := 0, started := true, sregs := [5, 7], waitAns := 1 },
      by decide +kernel⟩,
    ⟨tileWith
      { aSlot 0 with
          qs := [{ id := 4, word := 0xA4000023000000000000000000000000#128, pc := 0, started := true }], tok := [(2, 5)] },
      0, 0, 4,
      { aSlot 0 with
          qs := [{ id := 4, word := 0xA4000023000000000000000000000000#128, pc := 0, started := true }], tok := [(2, 5)] },
      { id := 4, word := 0xA4000023000000000000000000000000#128, pc := 0, started := true }, by decide +kernel⟩,
    ⟨tileWith
      ({ aSlot 0 with
          qx := [{
              id := 4, word := 0x82000004000000000000000000000000#128, pc := 0, started := true,
              lregs := [0x200200000000004000000020000000010000000000000000#256, 0x200000000004000000020000000010000000000000000#256],
              sregs := [0, 0, 0, 0] }] }),
      0, 0, 4,
      { aSlot 0 with
          qx := [{
              id := 4, word := 0x82000004000000000000000000000000#128, pc := 0, started := true,
              lregs := [0x200200000000004000000020000000010000000000000000#256, 0x200000000004000000020000000010000000000000000#256],
              sregs := [0, 0, 0, 0] }] },
      {
          id := 4, word := 0x82000004000000000000000000000000#128, pc := 0, started := true,
          lregs := [0x200200000000004000000020000000010000000000000000#256, 0x200000000004000000020000000010000000000000000#256],
          sregs := [0, 0, 0, 0] },
      [0], by decide +kernel⟩⟩

/-- Each clause of LifeOfASlot has a state and operands that meet its hypotheses. -/
theorem witness_LifeOfASlot :
    (∃ (s : State) (pos ring seq part k : Nat) (x : Slot), s.comes (workItem pos ring seq part) ∧ s.partSlot pos
      ring seq part = some k ∧ s.slotOf pos k = some x ∧ x.phase = .placed) ∧
    (∃ (s : State) (pos slot : Nat) (x : Slot), s.slotOf pos slot = some x ∧ x.phase = .zeroing) ∧
    (∃ (s s1 : State) (pos slot : Nat) (x : Slot) (c : Cmd) (hdr b : List Byte), s.slotOf pos slot = some x ∧
      x.phase = .header ∧ s.cmdOf x.ring x.seq = some c ∧ fetchRange (.tile pos) x.ctx x.ring x.seq (c.fld 16 8 % 2
      ^ 55) 64 hdr s = (some b, s1) ∧ (Header.of b).reserved = false ∧ (Header.of b).ok = true ∧ (Header.of
      b).missing s.glb.features = 0) ∧
    (∃ (s s1 : State) (pos slot : Nat) (x : Slot) (c : Cmd) (ws : List (BitVec 128)) (b : List Byte), s.slotOf pos
      slot = some x ∧ x.phase = .loading ∧ s.cmdOf x.ring x.seq = some c ∧ fetchRange (.tile pos) x.ctx x.ring x.seq
      (c.fld 16 8 % 2 ^ 55 + 64) (16 * x.count) (wordBytes ws) s = (some b, s1) ∧ scanCode x.feat 0 (wordsOf x.count
      b) = none) ∧
    (∃ (s : State) (pos slot : Nat) (x : Slot), s.slotOf pos slot = some x ∧ x.phase = .exiting ∧ x.qm = [] ∧ x.qv
      = [] ∧ x.qx = [] ∧ x.qs = []) :=
  ⟨⟨{ tileWith ({ aSlot 0 with phase := .placed, part := 0 }) with
    disp := {
        cmds := [{
            ring := 0, seq := 0, desc := 1 :: List.replicate 127 0, sync := [], regions := [], locals := [],
            parts := [⟨0, 0, 0, 0, false⟩] }] },
    mem := {},
    tile := [(0, {
        slots := [(0, some ({ aSlot 0 with phase := .placed, part := 0 }))],
        tlb := [⟨0, 0, 1, .dev 0, true, true, []⟩] })] },
      0, 0, 0, 0, 0, { aSlot 0 with phase := .placed, part := 0 }, by decide +kernel⟩,
    ⟨{ tileWith ({ aSlot 0 with phase := .zeroing, part := 0 }) with
    disp := {
        cmds := [{
            ring := 0, seq := 0, desc := 1 :: List.replicate 127 0, sync := [], regions := [], locals := [],
            parts := [⟨0, 0, 0, 0, false⟩] }] },
    mem := {},
    tile := [(0, {
        slots := [(0, some ({ aSlot 0 with phase := .zeroing, part := 0 }))],
        tlb := [⟨0, 0, 1, .dev 0, true, true, []⟩] })] },
      0, 0, { aSlot 0 with phase := .zeroing, part := 0 }, by decide +kernel⟩,
    ⟨{ tileWith ({ aSlot 0 with phase := .header, part := 0 }) with
    disp := {
        cmds := [{
            ring := 0, seq := 0, desc := 1 :: List.replicate 127 0, sync := [], regions := [], locals := [],
            parts := [⟨0, 0, 0, 0, false⟩] }] },
    mem := Ram.writeN {} 0 (leBytes 4 0x54574E47 ++ leBytes 2 1 ++ leBytes 2 0 ++ leBytes 8 0 ++ leBytes 4 1 ++ leBytes 4 0 ++ List.replicate 40 0),
    tile := [(0, {
        slots := [(0, some ({ aSlot 0 with phase := .header, part := 0 }))],
        tlb := [⟨0, 0, 1, .dev 0, true, true, []⟩] })] },
      { tileWith ({ aSlot 0 with phase := .header, part := 0 }) with
          disp := {
              cmds := [{
                  ring := 0, seq := 0, desc := 1 :: List.replicate 127 0, sync := [], regions := [], locals := [],
                  parts := [⟨0, 0, 0, 0, false⟩] }] },
          mem := Ram.writeN {} 0 (leBytes 4 0x54574E47 ++ leBytes 2 1 ++ leBytes 2 0 ++ leBytes 8 0 ++ leBytes 4 1 ++ leBytes 4 0 ++ List.replicate 40 0),
          tile := [(0, {
              slots := [(0, some ({ aSlot 0 with phase := .header, part := 0 }))],
              tlb := [⟨0, 0, 1, .dev 0, true, true, []⟩] })] },
      0, 0, { aSlot 0 with phase := .header, part := 0 },
      {
          ring := 0, seq := 0, desc := 1 :: List.replicate 127 0, sync := [], regions := [], locals := [],
          parts := [⟨0, 0, 0, 0, false⟩] },
      [], leBytes 4 0x54574E47 ++ leBytes 2 1 ++ leBytes 2 0 ++ leBytes 8 0 ++ leBytes 4 1 ++ leBytes 4 0 ++
      List.replicate 40 0, by decide +kernel⟩,
    ⟨{ tileWith ({ aSlot 0 with phase := .loading, part := 0, count := 1 }) with
    disp := {
        cmds := [{
            ring := 0, seq := 0, desc := 1 :: List.replicate 127 0, sync := [], regions := [], locals := [],
            parts := [⟨0, 0, 0, 0, false⟩] }] },
    mem := {},
    tile := [(0, {
        slots := [(0, some ({ aSlot 0 with phase := .loading, part := 0, count := 1 }))],
        tlb := [⟨0, 0, 1, .dev 0, true, true, []⟩] })] },
      { tileWith ({ aSlot 0 with phase := .loading, part := 0, count := 1 }) with
          disp := {
              cmds := [{
                  ring := 0, seq := 0, desc := 1 :: List.replicate 127 0, sync := [], regions := [], locals := [],
                  parts := [⟨0, 0, 0, 0, false⟩] }] },
          mem := {},
          tile := [(0, {
              slots := [(0, some ({ aSlot 0 with phase := .loading, part := 0, count := 1 }))],
              tlb := [⟨0, 0, 1, .dev 0, true, true, []⟩] })] },
      0, 0, { aSlot 0 with phase := .loading, part := 0, count := 1 },
      {
          ring := 0, seq := 0, desc := 1 :: List.replicate 127 0, sync := [], regions := [], locals := [],
          parts := [⟨0, 0, 0, 0, false⟩] },
      [], List.replicate 16 0, by decide +kernel⟩,
    ⟨{ tileWith ({ aSlot 0 with phase := .exiting, part := 0 }) with
    disp := {
        cmds := [{
            ring := 0, seq := 0, desc := 1 :: List.replicate 127 0, sync := [], regions := [], locals := [],
            parts := [⟨0, 0, 0, 0, false⟩] }] },
    mem := {},
    tile := [(0, {
        slots := [(0, some ({ aSlot 0 with phase := .exiting, part := 0 }))],
        tlb := [⟨0, 0, 1, .dev 0, true, true, []⟩] })] },
      0, 0, { aSlot 0 with phase := .exiting, part := 0 }, by decide +kernel⟩⟩

/-- Each clause of SyncOperations has a state and operands that meet its hypotheses. -/
theorem witness_SyncOperations :
    (∃ (s : State) (src tid obj : Nat) (v : Word), s.syncTakes (syncPkt src tid obj 0 v) ∧ s.isAmo src tid =
      false) ∧
    (∃ (s : State) (src tid obj : Nat) (v : Word), s.syncTakes (syncPkt src tid obj 0 v) ∧ s.isAmo src tid = true) ∧
    (∃ (s : State) (src tid obj : Nat) (v : Word), s.syncTakes (syncPkt src tid obj 1 v)) ∧
    (∃ (s : State) (src tid obj : Nat) (v : Word), s.syncTakes (syncPkt src tid obj 2 v) ∧ v.toNat ≤ (s.syncOf
      obj).val.toNat) ∧
    (∃ (s : State) (src tid obj : Nat) (v : Word), s.syncTakes (syncPkt src tid obj 2 v) ∧ (s.syncOf
      obj).val.toNat < v.toNat) ∧
    (∃ (s : State) (src tid obj : Nat) (v : Word), s.syncTakes (syncPkt src tid obj 3 v) ∧ (s.syncOf obj).val ≠ v) ∧
    (∃ (s : State) (src tid obj : Nat) (v : Word), s.syncTakes (syncPkt src tid obj 3 v) ∧ (s.syncOf obj).val = v) ∧
    (∃ (s : State) (src tid obj fn : Nat), s.syncTakes (syncPkt src tid obj 4 0) ∧ (src = 57 → s.mayObj (.host fn)
      obj = true)) ∧
    (∃ (s : State) (tid obj fn : Nat), s.syncTakes (syncPkt 57 tid obj 4 0) ∧ s.mayObj (.host fn) obj = false) ∧
    (∃ (s : State) (dst tid pos slot id : Nat) (o : Outst) (v : Word) (x : Slot), s.comes ⟨.syncWake, 63, dst,
      tid, o.addr, false, valPayload v, [], 0⟩ ∧ s.findOutst dst tid = some o ∧ o.use = .tsync pos slot id ∧
      s.slotOf pos slot = some x) :=
  ⟨⟨{ ups with sync := [(5, { val := 4, waiters := [⟨.port 2 9, false, 6⟩, ⟨.port 3 9, false, 60⟩] })] }, 1, 7,
      5, 3, by decide +kernel⟩,
    ⟨{ ups with
    sync := [(5, { val := 4, waiters := [⟨.port 2 9, false, 6⟩, ⟨.port 3 9, false, 60⟩] })],
    hub := { outst := [⟨53, 7, 63, .syncOp, 5, 0, .amo 1 5, 1, false⟩] } },
      53, 7, 5, 3, by decide +kernel⟩,
    ⟨{ ups with sync := [(5, { val := 4, waiters := [⟨.port 2 9, false, 6⟩, ⟨.port 3 9, false, 60⟩] })] }, 1, 7,
      5, 30, by decide +kernel⟩,
    ⟨{ ups with sync := [(5, { val := 4, waiters := [⟨.port 2 9, false, 6⟩, ⟨.port 3 9, false, 60⟩] })] }, 1, 7,
      5, 4, by decide +kernel⟩,
    ⟨{ ups with sync := [(5, { val := 4, waiters := [⟨.port 2 9, false, 6⟩, ⟨.port 3 9, false, 60⟩] })] }, 1, 7,
      5, 5, by decide +kernel⟩,
    ⟨{ ups with sync := [(5, { val := 4, waiters := [⟨.port 2 9, false, 6⟩, ⟨.port 3 9, false, 60⟩] })] }, 1, 7,
      5, 5, by decide +kernel⟩,
    ⟨{ ups with sync := [(5, { val := 4, waiters := [⟨.port 2 9, false, 6⟩, ⟨.port 3 9, false, 60⟩] })] }, 1, 7,
      5, 4, by decide +kernel⟩,
    ⟨{ ups with sync := [(5, { val := 4, waiters := [⟨.port 2 9, false, 6⟩, ⟨.port 3 9, false, 60⟩] })] }, 1, 7,
      5, 0, by decide +kernel⟩,
    ⟨{ ups with sync := [(5, { val := 4, waiters := [⟨.port 2 9, false, 6⟩, ⟨.port 3 9, false, 60⟩] })] }, 7, 5,
      1, by decide +kernel⟩,
    ⟨{ tileWith { aSlot 0 with qs := [{ id := 4, word := 0, pc := 0 }] } with
    hub := { outst := [⟨0, 7, 63, .syncOp, 5, 0, .tsync 0 0 4, 1, false⟩] } },
      0, 7, 0, 0, 4, ⟨0, 7, 63, .syncOp, 5, 0, .tsync 0 0 4, 1, false⟩, 3,
      { aSlot 0 with qs := [{ id := 4, word := 0, pc := 0 }] }, by decide +kernel⟩⟩

/-- Each clause of SyncAndRanoaRegisters has a state and operands that meet its hypotheses. -/
theorem witness_SyncAndRanoaRegisters :
    (∃ (s : State) (who : Agent) (obj : Nat) (v : Word), s.hostGate who = true ∧ s.mayObj who obj = true ∧
      s.syncNow (whoPort who) obj 1 v .plain) ∧
    (∃ (s : State) (core obj : Nat) (v : Word), core < 128 ∧ (s.coreOf core).fence = false ∧ s.syncNow (53 + core
      / 32) obj 0 v (.amo core obj) ∧ s.findOutst (53 + core / 32) (look 0 s.hub.nextTid (53 + core / 32)) = none) ∧
    (∃ (s : State) (core obj : Nat) (v : Word), (s.coreOf core).fence = true) ∧
    (∃ (s : State) (who : Agent) (obj : Nat), s.hostGate who = true ∧ s.mayObj who obj = true) ∧
    (∃ (s : State) (who : Agent) (obj : Nat), s.hostGate who = true ∧ s.mayObj who obj = false) ∧
    (∃ (s : State) (who : Agent) (i : Nat) (v : Word), i < 2048 ∧ s.hostGate who = true ∧ isPf0OrCore who = true ∧
      (s.rwinAt i).valid = false ∧ (s.setReg (rwin i) (v &&& 0x30000FFFFFFF0000#64)).rwinOk i ((s.setReg (rwin i) (v
      &&& 0x30000FFFFFFF0000#64)).rwinAt i) = true) ∧
    (∃ (s : State) (who : Agent) (i : Nat) (v : Word), i < 2048 ∧ s.hostGate who = true ∧ isPf0OrCore who = true ∧
      (s.rwinAt i).valid = false ∧ (s.setReg (rwin i) (v &&& 0x30000FFFFFFF0000#64)).rwinOk i ((s.setReg (rwin i) (v
      &&& 0x30000FFFFFFF0000#64)).rwinAt i) = false) ∧
    (∃ (s : State) (who : Agent) (i : Nat), i < 2048 ∧ s.hostGate who = true ∧ isPf0OrCore who = true ∧ (s.rwinAt
      i).valid = true ∧ s.rwinBusy i = true) ∧
    (∃ (s : State) (i : Nat), s.rwinBusy i = false) ∧
    (∃ (s : State) (who : Agent), s.hostGate who = true ∧ isPf0OrCore who = true ∧ s.rna.since ≠ 0) ∧
    (∃ (s : State) (who : Agent) (port : Nat), port < 8 ∧ s.hostGate who = true) :=
  ⟨⟨{ ups with sync := [(5, { val := 4, waiters := [⟨.port 2 9, false, 6⟩, ⟨.port 3 9, false, 60⟩] })] }, .core
      1, 5, 9, by decide +kernel⟩,
    ⟨{ ups with sync := [(5, { val := 4, waiters := [⟨.port 2 9, false, 6⟩, ⟨.port 3 9, false, 60⟩] })] }, 1, 5,
      9, by decide +kernel⟩,
    ⟨{ ups with core := [(1, { fence := true })] }, 1, 5, 9, by decide +kernel⟩,
    ⟨{ ups with sync := [(5, { val := 4, waiters := [⟨.port 2 9, false, 6⟩, ⟨.port 3 9, false, 60⟩] })] }, .core
      1, 5, by decide +kernel⟩,
    ⟨{ ups with glb := { ready := true } }, .host 1, 5, by decide +kernel⟩,
    ⟨ups, .core 1, 512, 0x3000000000010000, by decide +kernel⟩,
    ⟨{ ups with regs := [(0x0805010, 0x0000000003003000)] }, .core 1, 512, 0x3000000000010000, by decide +kernel⟩,
    ⟨{ ups with
    rna := {
        port := [(2, { state := 2, cred := rCredits, lanes := 8 })],
        tlb := [(0, [⟨2, 5, 1, .dev 0x70000, true, true, []⟩])] },
    regs := [(0x0805000, 0xB000000000000000), (0x0805008, 0x50000), (0x0805010, 0x0000000009003000)],
    counted := [⟨3, some 6, 64, 1, none, some (2, 6), some 512⟩] },
      .core 1, 512, by decide +kernel⟩,
    ⟨{ ups with rna := { drain := [512] } }, 512, by decide +kernel⟩,
    ⟨{ ups with rna := { dropped := 3, since := 3 } }, .core 1, by decide +kernel⟩,
    ⟨{ ups with rna := { port := [(2, { replays := 3 })] } }, .core 1, 2, by decide +kernel⟩⟩

/-- Each clause of StackUpkeepAndCommands has a state and operands that meet its hypotheses. -/
theorem witness_StackUpkeepAndCommands :
    (∃ (s : State) (stack pc bank : Nat), s.siteLive (33 + stack) = true) ∧
    (∃ (s : State) (stack : Nat) (e : DramErr), (s.stackOf stack).throttle = true) ∧
    (∃ (s : State) (stack : Nat) (e : DramErr), (s.stackOf stack).throttle = false ∧ (s.stackOf stack).state = 0 ∧
      s.siteLive (33 + stack) = true ∧ s.scrubSector stack (s.stackOf stack).scrubPos = none ∧ (s.stackOf
      stack).scrubPos + 1 < s.scrubLen) ∧
    (∃ (s : State) (stack n : Nat), (s.stackOf stack).throttle = false ∧ (s.stackOf stack).state = 0 ∧ s.siteLive
      (33 + stack) = true ∧ stack < 16 ∧ s.scrubSector stack (s.stackOf stack).scrubPos = some n ∧ s.lostUnit (n /
      64) = false ∧ s.mem.isPoison n = false ∧ s.mem.ckBad n = false ∧ (s.stackOf stack).scrubPos + 1 < s.scrubLen) ∧
    (∃ (s : State) (stack temp : Nat), temp < 105 ∧ 95 ≤ temp ∧ (s.stackOf stack).throttle = false) ∧
    (∃ (s : State) (stack temp : Nat), temp < 92 ∧ (s.stackOf stack).throttle = true) ∧
    (∃ (s : State) (stack temp : Nat), 92 ≤ temp ∧ temp < 95) ∧
    (∃ (s : State) (stack temp : Nat), 105 ≤ temp) ∧
    (∃ (s : State) (who : Agent) (stack : Nat), s.hostGate who = true) ∧
    (∃ (s : State) (core stack tag : Nat) (w : Window), (s.coreOf core).fence = false ∧ (look {} (s.stackOf
      stack).win core).busy = false ∧ w =
      { look {} (s.stackOf stack).win core with
          dw := setAt (look {} (s.stackOf stack).win core).dw 7 (BitVec.ofNat 64 (tag % 2 ^ 32)),
          job := setAt (look {} (s.stackOf stack).win core).dw 7 (BitVec.ofNat 64 (tag % 2 ^ 32)), busy := true }
      ∧ s.siteLive (33 + stack) = true ∧ w.get 0 % 256 = 4 ∧ s.windowWaits stack w = false ∧ (∀ k ∈ sectorsOf (w.get
      1 % 2 ^ 48) (s.reduceLen stack w), s.staleWord k = false)) ∧
    (∃ (s : State) (core stack tag : Nat) (w : Window), (s.coreOf core).fence = false ∧ (look {} (s.stackOf
      stack).win core).busy = false ∧ w =
      { look {} (s.stackOf stack).win core with
          dw := setAt (look {} (s.stackOf stack).win core).dw 7 (BitVec.ofNat 64 (tag % 2 ^ 32)),
          job := setAt (look {} (s.stackOf stack).win core).dw 7 (BitVec.ofNat 64 (tag % 2 ^ 32)), busy := true }
      ∧ (s.windowWaits stack w = true ∨ s.siteLive (33 + stack) = false)) ∧
    (∃ (s : State) (core stack tag : Nat), (s.coreOf core).fence = false ∧ (look {} (s.stackOf stack).win
      core).busy = true ∧ ringCode 0x80 = false) ∧
    (∃ (s : State) (core stack tag : Nat) (w : Window), (s.coreOf core).fence = false ∧ (look {} (s.stackOf
      stack).win core).busy = false ∧ w =
      { look {} (s.stackOf stack).win core with
          dw := setAt (look {} (s.stackOf stack).win core).dw 7 (BitVec.ofNat 64 (tag % 2 ^ 32)),
          job := setAt (look {} (s.stackOf stack).win core).dw 7 (BitVec.ofNat 64 (tag % 2 ^ 32)), busy := true }
      ∧ s.siteLive (33 + stack) = true ∧ w.get 0 % 256 = 5 ∧ s.windowWaits stack w = false ∧ s.appendCheck stack w ≠
      0) ∧
    (∃ (s : State) (core stack tag : Nat) (w : Window), (s.coreOf core).fence = false ∧ (look {} (s.stackOf
      stack).win core).busy = false ∧ w =
      { look {} (s.stackOf stack).win core with
          dw := setAt (look {} (s.stackOf stack).win core).dw 7 (BitVec.ofNat 64 (tag % 2 ^ 32)),
          job := setAt (look {} (s.stackOf stack).win core).dw 7 (BitVec.ofNat 64 (tag % 2 ^ 32)), busy := true }
      ∧ s.siteLive (33 + stack) = true ∧ w.get 0 % 256 = 5 ∧ s.windowWaits stack w = false ∧ s.appendCheck stack w =
      0 ∧ (∀ k ∈ sectorsOf (w.get 1 % 2 ^ 48) (w.get 2 % 2 ^ 32) ++ sectorsOf (w.get 4 % 2 ^ 48) 8, s.staleWord k =
      false) ∧ s.engineErr stack (w.get 1 % 2 ^ 48) .read (w.get 2 % 2 ^ 32) = false ∧ s.cohPoison (w.get 1 % 2 ^
      48) (w.get 2 % 2 ^ 32) = none) ∧
    (∃ (s s1 : State) (core stack : Nat) (w : Window), w = look {} (s.stackOf stack).win core ∧ w.busy = true ∧
      w.wait = false ∧ (w.get 0 % 256 = 5 → s.partPending (w.get 4 % 2 ^ 48) = false) ∧ s.siteLive (33 + stack) =
      true ∧ s.windowDone core stack = true ∧ s.portUp (33 + stack) = true ∧ s.tileWait (w.get 3 % 2 ^ 48 / 16 * 16)
      true = false ∧ openWait (w.get 3 % 2 ^ 48 / 16 * 16) s = none ∧ s.wayUp (33 + stack) ((s.targetOf (w.get 3 % 2
      ^ 48 / 16 * 16)).getD 63) = true ∧ s.engineErr stack (w.get 3 % 2 ^ 48 / 16 * 16) .write 64 = false ∧ s1 =
      cohWrite (w.get 3 % 2 ^ 48 / 16 * 16) (leBytes 8 w.value ++ [BitVec.ofNat 8 w.status, BitVec.ofNat 8 w.flags,
      0#8, 0#8] ++ leBytes 4 (w.get 7)) s ∧ s1.syncNow (33 + stack) (bitsOf (w.get 0) 44 32) 0 1 .plain) :=
  ⟨⟨ups, 2, 7, 1, by decide +kernel⟩,
    ⟨{ ups with stack := [(2, { throttle := true })] }, 2, .corrected, by decide +kernel⟩,
    ⟨{ ups with memc := { maps := [2] } }, 2, .corrected, by decide +kernel⟩,
    ⟨ups, 2, 128, by decide +kernel⟩,
    ⟨ups, 2, 95, by decide +kernel⟩,
    ⟨{ ups with stack := [(2, { throttle := true })] }, 2, 91, by decide +kernel⟩,
    ⟨{ ups with stack := [(2, { throttle := true })] }, 2, 92, by decide +kernel⟩,
    ⟨ups, 2, 105, by decide +kernel⟩,
    ⟨{ ups with stack := [(2, { corr := 3 })] }, .core 1, 2, by decide +kernel⟩,
    ⟨{ ups with stack := [(2, { win := [(1, { dw := [0x0000000900000404, 0, 3, 0x40, 0, 0, 0, 0] })] })] }, 1, 2,
      5,
      {
          dw := [0x0000000900000404, 0, 3, 0x40, 0, 0, 0, 5], job := [0x0000000900000404, 0, 3, 0x40, 0, 0, 0, 5],
          busy := true },
      by decide +kernel⟩,
    ⟨{ ups with
    stack := [(2, {
        win := [(1, {
            dw := [0x0000000900000404, 0x200000000000, 3, 0x40, 0, 0, 0, 0],
            job := [0x0000000900000404, 0x200000000000, 3, 0x40, 0, 0, 0, 5] })] })] },
      1, 2, 5,
      {
          dw := [0x0000000900000404, 0x200000000000, 3, 0x40, 0, 0, 0, 5],
          job := [0x0000000900000404, 0x200000000000, 3, 0x40, 0, 0, 0, 5], busy := true },
      by decide +kernel⟩,
    ⟨{ ups with stack := [(2, { win := [(1, { busy := true })] })] }, 1, 2, 5, by decide +kernel⟩,
    ⟨{ ups with stack := [(2, { win := [(1, { dw := [0x0000000900000005, 0, 65, 0x40, 0x80, 0x1000, 0x400000040, 0] })] })] },
      1, 2, 5,
      {
          dw := [0x0000000900000005, 0, 65, 0x40, 0x80, 0x1000, 0x400000040, 5],
          job := [0x0000000900000005, 0, 65, 0x40, 0x80, 0x1000, 0x400000040, 5], busy := true },
      by decide +kernel⟩,
    ⟨{ ups with stack := [(0, { win := [(1, { dw := [0x0000000900000005, 0, 64, 0x40, 0x80, 0x1000, 0x400000040, 0] })] })] },
      1, 0, 5,
      {
          dw := [0x0000000900000005, 0, 64, 0x40, 0x80, 0x1000, 0x400000040, 5],
          job := [0x0000000900000005, 0, 64, 0x40, 0x80, 0x1000, 0x400000040, 5], busy := true },
      by decide +kernel⟩,
    ⟨{ ups with
    stack := [(2, { win := [(1, { busy := true, job := [0x0000000900000404, 0, 3, 0x40, 0, 0, 0, 5], value := 77 })] })] },
      cohWrite 0x40 (leBytes 8 77 ++ [0#8, 0#8, 0#8, 0#8] ++ leBytes 4 5)
      ({ ups with
          stack := [(2, {
              win := [(1, { busy := true, job := [0x0000000900000404, 0, 3, 0x40, 0, 0, 0, 5], value := 77 })] })] }),
      1, 2, { busy := true, job := [0x0000000900000404, 0, 3, 0x40, 0, 0, 0, 5], value := 77 }, by decide +kernel⟩⟩

/-- Each clause of StackLossAndRecovery has a state and operands that meet its hypotheses. -/
theorem witness_StackLossAndRecovery :
    (∃ (s : State) (stack layer : Nat), s.memc.active = 1 ∧ layer < 16) ∧
    (∃ (s : State) (stack layer : Nat), s.memc.active = 0 ∧ stack < 16) ∧
    (∃ (s : State) (slot : Nat), slot < 512 ∧ has slot s.memc.maps = false ∧ s.memc.mapStep = 0 ∧
      s.memc.maps.length < 32) ∧
    (∃ (s : State) (slot : Nat), slot < 512 ∧ has slot s.memc.maps = false ∧ s.memc.mapStep ≠ 0) ∧
    (∃ (s : State) (slot : Nat), slot < 512 ∧ has slot s.memc.maps = false ∧ s.memc.mapStep = 0 ∧
      s.memc.maps.length = 32) ∧
    (∃ (s : State), s.memc.mapStep = 1 ∧ wfTable {} s.tier.frames = true) ∧
    (∃ (s : State), s.memc.mapStep = 2) ∧
    (∃ (s : State), s.memc.mapStep = 3 ∧ s.memc.mapWait = []) ∧
    (∃ (s : State) (next : Nat) (rest : List Nat), s.memc.mapStep = 3 ∧ s.memc.mapWait = next :: rest ∧ next < 512
      ∧ has next s.memc.maps = false ∧ s.memc.maps.length < 32) ∧
    (∃ (s : State) (stack : Nat), stack < 16 ∧ (s.stackOf stack).state = 0) ∧
    (∃ (s : State) (stack : Nat), stack < 16 ∧ (s.stackOf stack).state = 1 ∧ s.linkReady (33 + stack) = true ∧
      wfTable {} s.stack = true) ∧
    (∃ (s : State) (stack ch : Nat), stack < 16 ∧ ch < 32 ∧ (s.stackOf stack).state = 1 ∧ s.linkReady (33 + stack)
      = true ∧ has (ch * 16 + stack) s.memc.maps = false ∧ s.memc.mapStep = 0 ∧ s.memc.maps.length < 32) ∧
    (∃ (s : State) (stack : Nat) (failed : List Nat), stack < 16 ∧ (s.stackOf stack).state = 1) :=
  ⟨⟨{ ups with memc := { active := 1 } }, 2, 3, by decide +kernel⟩,
    ⟨ups, 2, 3, by decide +kernel⟩,
    ⟨ups, 5, by decide +kernel⟩,
    ⟨{ ups with memc := { mapStep := 2, mapSlot := 9 } }, 5, by decide +kernel⟩,
    ⟨{ ups with memc := { maps := List.range 32 } }, 50, by decide +kernel⟩,
    ⟨{ ups with memc := { mapStep := 1, mapSlot := 9, frameCount := 2 } }, by decide +kernel⟩,
    ⟨{ ups with memc := { mapStep := 2, mapSlot := 9 } }, by decide +kernel⟩,
    ⟨{ ups with memc := { mapStep := 3, mapSlot := 9, maps := [9] } }, by decide +kernel⟩,
    ⟨{ ups with memc := { mapStep := 3, mapSlot := 9, maps := [9], mapWait := [10] } }, 10, [], by decide +kernel⟩,
    ⟨ups, 2, by decide +kernel⟩,
    ⟨{ { ups with stack := [(2, { state := 1 })] } with mem := { State.reset.mem with ckErr := [(128, 5)] } }, 2,
      by decide +kernel⟩,
    ⟨{ ups with stack := [(2, { state := 1 })] }, 2, 3, by decide +kernel⟩,
    ⟨{ ups with stack := [(2, { state := 1 })] }, 2, [], by decide +kernel⟩⟩

/-- Each clause of PoolAndCoreDies has a state and operands that meet its hypotheses. -/
theorem witness_PoolAndCoreDies :
    (∃ (s : State) (die sector : Nat) (p : Pkt), (s.poolOf die).wait = [(p, .none)] ∧ (s.poolOf die).filling =
      [sector] ∧ (s.poolOf die).handing = [] ∧ (s.poolOf die).away = [] ∧ p.op = .read ∧ accessSecs p = [sector] ∧
      p.dst = 49 + die ∧ s.mayAnswer p ∧ s.poolWay die sector = true ∧ look 0 s.mem.ckErr (sectorOf (s.phys (64 *
      sector))) = 0) ∧
    (∃ (s : State) (die sector : Nat), (s.poolOf die).wait = [] ∧ has sector (s.poolOf die).handing = true ∧
      ((s.poolOf die).lineOf sector).st = .d ∧ s.zone (64 * sector) = .direct ∧ s.poolWay die sector = true) ∧
    (∃ (s : State) (die unit n : Nat) (p : Pkt), (s.poolOf die).wait = [(p, .none)] ∧ (s.poolOf die).marking =
      [unit] ∧ (s.poolOf die).filling = [] ∧ (s.poolOf die).handing = [] ∧ (s.poolOf die).away = [] ∧ p.op = .write
      ∧ p.payload.length = 64 ∧ accessSecs p = [n] ∧ sectorOf p.addr = n ∧ n / 64 = unit ∧ p.dst = 49 + die ∧
      s.mayAnswer p ∧ s.poolWay die (64 * unit) = true ∧ ((s.poolOf die).lineOf n).st = .v) ∧
    (∃ (s : State) (die : Nat), die < 4 ∧ (s.poolOf die).state = 0) ∧
    (∃ (s : State) (die : Nat), die < 4 ∧ (s.poolOf die).state = 1 ∧ s.linkReady (49 + die) = true ∧ wfTable {}
      s.pool = true) ∧
    (∃ (s : State) (die : Nat), die < 4 ∧ (s.poolOf die).state = 1) ∧
    (∃ (s : State) (who : Agent) (die : Nat), s.hostGate who = true) ∧
    (∃ (s : State) (die core : Nat), die < 4 ∧ (s.cdieOf die).rec_ = 0 ∧ (s.cdieOf die).failed = false) ∧
    (∃ (s : State) (die : Nat), (s.cdieOf die).rec_ = 1 ∧ (∀ i, i < 20 → ((s.homeOf (33 + i)).dir.map
      DirEnt.sector).Nodup)) ∧
    (∃ (s : State) (die : Nat), (s.cdieOf die).rec_ = 2 ∧ wfTable {} s.core = true) ∧
    (∃ (s : State) (die : Nat), (s.cdieOf die).rec_ = 3 ∧ s.linkReady (53 + die) = true ∧ wfTable {} s.cdie =
      true) ∧
    (∃ (s : State) (die : Nat), (s.cdieOf die).rec_ = 3) :=
  ⟨⟨{ ups with
    pool := [(0, { active := 4, wait := [(⟨.read, 0, 49, 4, 0x2000, false, [], [], 64⟩, .none)], filling := [128] })] },
      0, 128, ⟨.read, 0, 49, 4, 0x2000, false, [], [], 64⟩, by decide +kernel⟩,
    ⟨{ ups with
    pool := [(0, {
        active := 4, handing := [128], marked := [2], lines := [(128, ⟨.d, List.replicate 64 7, false, 0, 0⟩)] })] },
      0, 128, by decide +kernel⟩,
    ⟨{ ups with
    pool := [(0, {
        active := 4,
        wait := [(⟨.write, 0, 49, 4, 0x2000, false, List.replicate 64 7, [crc32c (List.replicate 64 7)], 0⟩, .none)],
        marking := [2], lines := [(128, ⟨.v, List.replicate 64 9, false, 0, 0⟩)] })] },
      0, 2, 128, ⟨.write, 0, 49, 4, 0x2000, false, List.replicate 64 7, [crc32c (List.replicate 64 7)], 0⟩,
      by decide +kernel⟩,
    ⟨{ ups with
    pool := [(0, { marked := [2], lines := [(128, ⟨.d, List.replicate 64 7, false, 0, 0⟩)] })],
    stack := [(0, { marks := [(0, [2])] })] },
      0, by decide +kernel⟩,
    ⟨{ ups with pool := [(0, { state := 1 })], glb := { sealed := true } }, 0, by decide +kernel⟩,
    ⟨{ ups with pool := [(0, { state := 1 })], glb := { sealed := true } }, 0, by decide +kernel⟩,
    ⟨{ ups with pool := [(0, { uncorr := 3 })] }, .core 1, 0, by decide +kernel⟩,
    ⟨ups, 0, 1, by decide +kernel⟩,
    ⟨{ ups with cdie := [(0, { rec_ := 1 })], stack := [(0, { home := { dir := [⟨128, some 0, [], none⟩] } })] },
      0, by decide +kernel⟩,
    ⟨{ ups with
    cdie := [(0, { rec_ := 2, lines := [(128, some ⟨.m, List.replicate 64 7, false⟩)] })],
    core := [(1, { stopped := true, fence := true })] },
      0, by decide +kernel⟩,
    ⟨{ ups with cdie := [(0, { rec_ := 3 })] }, 0, by decide +kernel⟩,
    ⟨{ ups with cdie := [(0, { rec_ := 3 })] }, 0, by decide +kernel⟩⟩

/-- Each clause of TierResidency has a state and operands that meet its hypotheses. -/
theorem witness_TierResidency :
    (∃ (s : State) (tile : Nat), s.frameOf tile = none) ∧
    (∃ (s : State) (tile f : Nat) (fr : Frame), has tile s.tier.asked = true ∧ s.tier.frames.find? (fun x =>
      x.2.tile == some tile && !x.2.filling) = some (f, fr) ∧ (∀ k, k < 16 → ∀ w ∈ (s.stackOf k).win, w.2.wait =
      false)) ∧
    (∃ (s : State) (tile f : Nat), has tile s.tier.asked = true ∧ s.frameWith tile = none ∧ s.fetchWaits tile =
      false ∧ tile < 33554432 ∧ (s.tdieOf (tile % 2)).state ≠ 3 ∧ s.spareFrame [] = some f) ∧
    (∃ (s : State) (tile : Nat), has tile s.tier.asked = true ∧ s.frameWith tile = none ∧ s.fetchWaits tile =
      false ∧ tile < 33554432 ∧ (s.tdieOf (tile % 2)).state ≠ 3 ∧ s.spareFrame [] = none) ∧
    (∃ (s : State) (tile frame : Nat) (pre : Bool) (r : List (Nat × Bool)), s.tier.fetching = (tile, pre) :: r ∧
      (look {} s.tier.frames frame).evicting = true) ∧
    (∃ (s : State) (tile old frame : Nat) (pre : Bool) (r : List (Nat × Bool)), s.tier.fetching = (tile, pre) :: r
      ∧ (look {} s.tier.frames frame).evicting = true ∧ (look {} s.tier.frames frame).tile = some old ∧ wfTable 0
      s.tier.tmap = true) ∧
    (∃ (s : State) (frame : Nat), s.tier.fetching = []) ∧
    (∃ (s : State) (tile f : Nat) (fr : Frame), s.tier.frames.find? (fun x => x.2.tile == some tile &&
      x.2.filling) = some (f, fr) ∧ (∀ c ∈ s.tier.flash.ckErr, c.1 / 16384 = tile → s.tier.flash.isPoison c.1 =
      true) ∧ (∀ k, k < 16 → ∀ w ∈ (s.stackOf k).win, w.2.wait = false)) ∧
    (∃ (s : State) (tile f k : Nat) (fr : Frame), s.tier.frames.find? (fun x => x.2.tile == some tile &&
      x.2.filling) = some (f, fr) ∧ k < 16384 ∧ (∀ k, k < 16 → ∀ w ∈ (s.stackOf k).win, w.2.wait = false)) :=
  ⟨⟨ups, 5, by decide +kernel⟩,
    ⟨{ ups with tier := { asked := [5], frames := [(1, { tile := some 5 })] } }, 5, 1, { tile := some 5 },
      by decide +kernel⟩,
    ⟨{ ups with tier := { asked := [5] } }, 5, 0, by decide +kernel⟩,
    ⟨{ ups with
    tier := { asked := [5], frames := [(0, { tile := some 7, refbit := true }), (1, { tile := some 8 })] },
    memc := { frameCount := 2 } },
      5, by decide +kernel⟩,
    ⟨{ ups with tier := { fetching := [(5, false), (6, true)], frames := [(1, { evicting := true })] } }, 5, 1,
      false, [(6, true)], by decide +kernel⟩,
    ⟨{ ups with
    tier := {
        fetching := [(5, false), (6, true)], tmap := [(9, 2)], frames := [(1, { evicting := true, tile := some 9 })] } },
      5, 9, 1, false, [(6, true)], by decide +kernel⟩,
    ⟨{ ups with tier := { frames := [(1, { evicting := true })] } }, 1, by decide +kernel⟩,
    ⟨{ ups with tier := { frames := [(1, { tile := some 5, filling := true })], flash := { bytes := [(0x500003, 7)] } } },
      5, 1, { tile := some 5, filling := true }, by decide +kernel⟩,
    ⟨{ ups with tier := { frames := [(1, { tile := some 5, filling := true })] } }, 5, 1, 16383,
      { tile := some 5, filling := true }, by decide +kernel⟩⟩

/-- Each clause of TierWritebackAndFlush has a state and operands that meet its hypotheses. -/
theorem witness_TierWritebackAndFlush :
    (∃ (s : State) (part : Nat) (q : Pkt), s.tier.waitRec = [(part, q)] ∧ s.fenced q.src = false ∧ s.fenced q.dst
      = false ∧ (q.dst, q.tid) ∉ s.hub.dropped ∧ (∀ d, d < 4 → (s.poolOf d).wait = [])) ∧
    (∃ (s : State) (part block : Nat), has part (s.tdieOf (part / 16 % 2)).programming = true ∧ has part (s.tdieOf
      (part / 16 % 2)).quiet = false ∧ has block (s.tdieOf (part / 16 % 2)).retired = false ∧ s.dirtyNow part =
      false) ∧
    (∃ (s : State) (f tile : Nat) (fr : Frame), s.dirtyMax * 16384 < s.dirtyParts ∧ s.tier.frames.find? (fun x =>
      !x.2.dirty.isEmpty) = some (f, fr) ∧ look {} s.tier.frames f = fr ∧ fr.tile = some tile) ∧
    (∃ (s : State), s.dirtyParts ≤ s.dirtyMax * 16384) ∧
    (∃ (s : State) (who : Agent), s.hostGate who = true ∧ isPf0OrCore who = true ∧ s.tier.flushing = false ∧
      wfTable {} s.tier.frames = true ∧ (∀ f ∈ s.tier.frames, f.2.tile = none → f.2.dirty = [])) ∧
    (∃ (s : State), s.tier.flushing = true) :=
  ⟨⟨{ ups with tier := { waitRec := [(83, ⟨.respAck, 33, 1, 7, 0, false, [], [], 0⟩)] } }, 83, ⟨.respAck, 33, 1,
      7, 0, false, [], [], 0⟩, by decide +kernel⟩,
    ⟨{ ups with tier := { die := [(1, { programming := [83], openParts := [83], reads := [(9, 5)] })] } }, 83, 9,
      by decide +kernel⟩,
    ⟨{ ups with
    tier := { frames := (List.range 100).map (fun k => (k, { tile := some k, dirty := List.replicate 200 0 })) },
    regs := [(0x0700000, 0)] },
      0, 0, { tile := some 0, dirty := List.replicate 200 0 }, by decide +kernel⟩,
    ⟨ups, by decide +kernel⟩,
    ⟨{ ups with tier := { frames := [(1, { tile := some 5 })] } }, .core 1, by decide +kernel⟩,
    ⟨{ ups with tier := { flushing := true, die := [(1, { programming := [83] })] } }, by decide +kernel⟩⟩

/-- Each clause of TierPinsAndFlash has a state and operands that meet its hypotheses. -/
theorem witness_TierPinsAndFlash :
    (∃ (s : State) (who : Agent) (n first count : Nat), n < 64 ∧ first < 2 ^ 25 ∧ count < 2 ^ 25 ∧ 2 * count ≤
      s.memc.frameCount ∧ s.hostGate who = true ∧ isPf0OrCore who = true) ∧
    (∃ (s : State) (who : Agent) (n first count : Nat), n < 64 ∧ first < 2 ^ 25 ∧ count < 2 ^ 25 ∧
      s.memc.frameCount < 2 * count ∧ bitOf (s.reg (tierPin n)).toNat 63 = false ∧ s.hostGate who = true ∧
      isPf0OrCore who = true) ∧
    (∃ (s : State) (who : Agent) (n : Nat), n < 64 ∧ s.hostGate who = true ∧ isPf0OrCore who = true) ∧
    (∃ (s : State) (n : Nat), bitOf (s.reg (tierPin n)).toNat 63 = true ∧ (∀ i, i < (pinRange (s.reg (tierPin
      n)).toNat).2 → s.tier.frames.any (fun f => f.2.tile == some ((pinRange (s.reg (tierPin n)).toNat).1 + i) &&
      !f.2.filling) = true)) ∧
    (∃ (s : State) (die a b : Nat), has b (s.tdieOf die).retired = false ∧ a ≠ b) ∧
    (∃ (s : State) (die b : Nat), 100000 ≤ look 0 (s.tdieOf die).reads b) ∧
    (∃ (s : State) (die b repl spare : Nat), has repl (s.tdieOf die).retired = false ∧ b ≠ repl ∧ spare ≤ 10 ∧ 2 <
      spare ∧ 10 < (s.tdieOf die).spare) ∧
    (∃ (s : State) (die b repl spare : Nat), has repl (s.tdieOf die).retired = false ∧ b ≠ repl ∧ spare ≤ 2 ∧ 2 <
      (s.tdieOf die).spare ∧ (s.tdieOf die).spare ≤ 10 ∧ (s.tdieOf die).state = 1) ∧
    (∃ (s : State) (die : Nat), die < 2 ∧ (s.tdieOf die).state ≠ 3) ∧
    (∃ (s : State) (who : Agent) (die : Nat), s.hostGate who = true) :=
  ⟨⟨{ ups with tier := { frames := [(1, { tile := some 5 })] } }, .core 1, 2, 5, 1, by decide +kernel⟩,
    ⟨{ ups with memc := { frameCount := 2 } }, .core 1, 2, 5, 2, by decide +kernel⟩,
    ⟨{ ups with tier := { resident := [(2, true)] } }, .core 1, 2, by decide +kernel⟩,
    ⟨{ ups with tier := { frames := [(1, { tile := some 5 })] }, regs := [(0x0700110, 0x8000000002000005)] }, 2,
      by decide +kernel⟩,
    ⟨{ ups with tier := { die := [(1, { blockMap := [(3, 4)] })] } }, 1, 4, 9, by decide +kernel⟩,
    ⟨{ ups with tier := { die := [(1, { reads := [(4, 100000)] })] } }, 1, 4, by decide +kernel⟩,
    ⟨ups, 1, 4, 8, 10, by decide +kernel⟩,
    ⟨{ ups with tier := { die := [(1, { spare := 3, state := 1 })] } }, 1, 4, 8, 2, by decide +kernel⟩,
    ⟨{ ups with tier := { wait := [⟨.read, 0, 60, 4, 0x100000000000, false, [], [], 64⟩] } }, 0,
      by decide +kernel⟩,
    ⟨{ ups with tier := { die := [(1, { uncorr := 3 })] } }, .core 1, 1, by decide +kernel⟩⟩

/-- Each clause of WalksAtsAndPri has a state and operands that meet its hypotheses. -/
theorem witness_WalksAtsAndPri :
    (∃ (s : State) (ctx page e : Nat) (x : Walk), s.xlt.walks.find? (fun y => y.begun && y.isFor ctx page) = some
      x ∧ s.blocked ctx page = false ∧ has ctx s.xlt.rootOk = true ∧ s.cohPoison (x.table + 8 * walkIdx (page *
      0x10000) x.level) 8 = none ∧ (∀ k ∈ sectorsOf (x.table + 8 * walkIdx (page * 0x10000) x.level) 8, s.staleWord
      k = false) ∧ e = s.cohLE (x.table + 8 * walkIdx (page * 0x10000) x.level) 8 ∧ s.engErr 63 (x.table + 8 *
      walkIdx (page * 0x10000) x.level) false = none ∧ s.hif.placeWait = [] ∧ entryFault s ctx x.level e = none ∧ e
      % 8 = 1) ∧
    (∃ (s : State) (ctx page e : Nat) (x : Walk), s.xlt.walks.find? (fun y => y.begun && y.isFor ctx page) = some
      x ∧ s.blocked ctx page = false ∧ has ctx s.xlt.rootOk = true ∧ s.cohPoison (x.table + 8 * walkIdx (page *
      0x10000) x.level) 8 = none ∧ (∀ k ∈ sectorsOf (x.table + 8 * walkIdx (page * 0x10000) x.level) 8, s.staleWord
      k = false) ∧ e = s.cohLE (x.table + 8 * walkIdx (page * 0x10000) x.level) 8 ∧ s.engErr 63 (x.table + 8 *
      walkIdx (page * 0x10000) x.level) false = none ∧ s.hif.placeWait = [] ∧ entryFault s ctx x.level e = none ∧ e
      % 8 ≠ 1 ∧ x.waits = [] ∧ s.xlt.walks.filter (fun y => y.isFor ctx page) = [x]) ∧
    (∃ (s : State) (ctx page ring seq : Nat) (w : XltWait) (x : Walk), s.xlt.walks.find? (fun y => y.begun &&
      y.isFor ctx page) = some x ∧ s.xlt.walks.filter (fun y => y.isFor ctx page) = [x] ∧ x.waits = [w] ∧ w.by_ =
      .cmd ring seq ∧ w.dva / 0x10000 = page ∧ s.blocked ctx page = false ∧ has ctx s.xlt.rootOk = false ∧ bitOf
      (s.reg (xltReg ctx + 0x18)).toNat 15 = false ∧ s.xlt.stalls = [] ∧ s.hif.placeWait = []) ∧
    (∃ (s : State) (ctx page ring seq : Nat) (w : XltWait) (x : Walk) (c : Cmd), s.xlt.walks.find? (fun y =>
      y.begun && y.isFor ctx page) = some x ∧ s.xlt.walks.filter (fun y => y.isFor ctx page) = [x] ∧ x.waits = [w] ∧
      w.by_ = .cmd ring seq ∧ s.blocked ctx page = false ∧ has ctx s.xlt.rootOk = true ∧ (s.cohPoison (x.table + 8 *
      walkIdx (page * 0x10000) x.level) 8).isSome = true ∧ s.cmdOf ring seq = some c ∧ c.out = {} ∧ c.phase =
      .running ∧ bitOf (s.reg (xltReg ctx + 0x18)).toNat 15 = false ∧ s.engErr 63 (x.table + 8 * walkIdx (page *
      0x10000) x.level) false = none ∧ s.hif.placeWait = []) ∧
    (∃ (s : State) (ctx page : Nat) (parts : List AtsTrans) (a : AtsReq), s.xlt.ats.find? (fun y => y.isFor ctx
      page) = some a ∧ a.waits = [] ∧ s.hif.placeWait = []) ∧
    (∃ (s : State) (ctx page : Nat) (w : XltWait) (a : AtsReq), s.xlt.ats.find? (fun y => y.isFor ctx page) = some
      a ∧ a.waits = [w] ∧ s.attached (s.ctxFn ctx) = true ∧ s.hif.state = 2 ∧ s.hif.npWait = [] ∧ s.hif.reads.length
      + s.xlt.ats.length ≤ s.tagMax ∧ s.hif.placeWait = []) ∧
    (∃ (s : State) (ctx page unit : Nat), (ctx, page, unit) ∈ s.prisSent (s.ctxFn ctx) ∧ s.xlt.ats.any (fun a =>
      a.isFor ctx page) = true ∧ s.hif.state = 2 ∧ s.hif.npWait = [] ∧ s.hif.reads.length + s.xlt.ats.length ≤
      s.tagMax) ∧
    (∃ (s : State) (ctx page unit ring seq : Nat) (w : XltWait) (a : AtsReq) (c : Cmd), (ctx, page, unit) ∈
      s.prisSent (s.ctxFn ctx) ∧ s.xlt.ats.find? (fun y => y.isFor ctx page) = some a ∧ a.waits = [w] ∧ w.unit =
      unit ∧ w.by_ = .cmd ring seq ∧ s.cmdOf ring seq = some c ∧ c.out = {} ∧ c.phase = .running ∧ bitOf (s.reg
      (xltReg ctx + 0x18)).toNat 15 = false) ∧
    (∃ (s : State) (fn tag : Nat), s.xlt.atsInval.any (fun i => i.1 == fn && i.2.1 == tag) = true ∧ s.hostBusy fn
      = false ∧ s.hif.state = 2) ∧
    (∃ (s : State) (fn tag : Nat), s.hostBusy fn = true) :=
  ⟨⟨{ ups with
    xlt := { walks := [⟨2, 5, 1, 0x10000, true, []⟩], rootOk := [2] }, mem := { bytes := [(0x10000, 1), (0x10002, 2)] } },
      2, 5, 0x20001, ⟨2, 5, 1, 0x10000, true, []⟩, by decide +kernel⟩,
    ⟨{ ups with
    xlt := { walks := [⟨2, 5, 2, 0x10000, true, []⟩], rootOk := [2] }, mem := { bytes := [(65576, 26), (65578, 7)] } },
      2, 5, 0x7001A, ⟨2, 5, 2, 0x10000, true, []⟩, by decide +kernel⟩,
    ⟨{ ups with xlt := { walks := [⟨2, 5, 0, 0, true, [⟨.cmd 0 3, 0x50000, true⟩]⟩] } }, 2, 5, 0, 3, ⟨.cmd 0 3,
      0x50000, true⟩, ⟨2, 5, 0, 0, true, [⟨.cmd 0 3, 0x50000, true⟩]⟩, by decide +kernel⟩,
    ⟨{ ups with
    xlt := { walks := [⟨2, 5, 2, 0x10000, true, [⟨.cmd 0 3, 0x50000, true⟩]⟩], rootOk := [2] },
    mem := { poison := [(0x400, 1)] },
    disp := { cmds := [{ ring := 0, seq := 3, desc := [], sync := [], regions := [], locals := [], phase := .running }] } },
      2, 5, 0, 3, ⟨.cmd 0 3, 0x50000, true⟩, ⟨2, 5, 2, 0x10000, true, [⟨.cmd 0 3, 0x50000, true⟩]⟩,
      { ring := 0, seq := 3, desc := [], sync := [], regions := [], locals := [], phase := .running },
      by decide +kernel⟩,
    ⟨{ ups with xlt := { ats := [⟨2, 5, [3], [], []⟩], shared := [⟨2, 5, 1, .host, true, true, []⟩] } }, 2, 5,
      [⟨3, 1, 0x1000, true, true⟩, ⟨4, 2, 0x2000, true, false⟩], ⟨2, 5, [3], [], []⟩, by decide +kernel⟩,
    ⟨{ ups with
    xlt := { ats := [⟨2, 5, [3], [], [⟨.cmd 0 3, 0x50000, true⟩]⟩] }, sess := [(0, { state := .attached })],
    hif := { state := 2 } },
      2, 5, ⟨.cmd 0 3, 0x50000, true⟩, ⟨2, 5, [3], [], [⟨.cmd 0 3, 0x50000, true⟩]⟩, by decide +kernel⟩,
    ⟨{ ups with xlt := { ats := [⟨2, 5, [], [], [⟨.cmd 0 3, 0x50000, true⟩]⟩], pri := [(2, 5, 0)] }, hif := { state := 2 } },
      2, 5, 0, by decide +kernel⟩,
    ⟨{ ups with
    xlt := { ats := [⟨2, 5, [], [], [⟨.cmd 0 3, 0x50000, true⟩]⟩], pri := [(2, 5, 0)] },
    disp := { cmds := [{ ring := 0, seq := 3, desc := [], sync := [], regions := [], locals := [], phase := .running }] } },
      2, 5, 0, 0, 3, ⟨.cmd 0 3, 0x50000, true⟩, ⟨2, 5, [], [], [⟨.cmd 0 3, 0x50000, true⟩]⟩,
      { ring := 0, seq := 3, desc := [], sync := [], regions := [], locals := [], phase := .running },
      by decide +kernel⟩,
    ⟨{ ups with xlt := { atsInval := [(0, 7, 0x53000, 4096)] }, hif := { state := 2 } }, 0, 7, by decide +kernel⟩,
    ⟨{ ups with
    xlt := { atsInval := [(0, 7, 0x53000, 4096)] }, hub := { outst := [⟨63, 1, 57, .read, 0, 64, .cmd 0 3 0, 1, false⟩] },
    disp := { cmds := [{ ring := 0, seq := 3, desc := [], sync := [], regions := [], locals := [], phase := .running }] } },
      0, 7, by decide +kernel⟩⟩

/-- Each clause of StallsAndTranslationRegisters has a state and operands that meet its hypotheses. -/
theorem witness_StallsAndTranslationRegisters :
    (∃ (s : State) (who : Agent) (ctx : Nat), s.hostGate who = true ∧ ownFn who (s.ctxFn (ctx % 1024)) = true) ∧
    (∃ (s : State) (who : Agent) (ctx : Nat), s.hostGate who = true ∧ ownFn who (s.ctxFn (ctx % 1024)) = false) ∧
    (∃ (s : State) (ctx page reason ring seq : Nat) (w : XltWait) (c : Cmd), s.xlt.stalls.filter (fun x => x.ctx
      == ctx && x.page == page) = [⟨ctx, page, reason, [w]⟩] ∧ 0 < reason ∧ reason < 256 ∧ s.xlt.ats = [] ∧ w.by_ =
      .cmd ring seq ∧ s.cmdOf ring seq = some c ∧ c.out = {} ∧ c.phase = .running) ∧
    (∃ (s : State) (who : Agent), s.hostGate who = true) ∧
    (∃ (s : State) (who : Agent) (ctx : Nat), ctx < 1024 ∧ s.hostGate who = true ∧ ownFn who (s.ctxFn ctx) = true) ∧
    (∃ (s : State) (who : Agent) (ctx : Nat), ctx < 1024 ∧ ownFn who (s.ctxFn ctx) = false) :=
  ⟨⟨{ ups with xlt := { stalls := [⟨2, 5, 1, [⟨.cmd 0 3, 0x50000, true⟩]⟩] } }, .core 1, 2, by decide +kernel⟩,
    ⟨{ ups with glb := { ready := true } }, .host 1, 2, by decide +kernel⟩,
    ⟨{ ups with
    xlt := { stalls := [⟨2, 5, 1, [⟨.cmd 0 3, 0x50000, true⟩]⟩] },
    disp := { cmds := [{ ring := 0, seq := 3, desc := [], sync := [], regions := [], locals := [], phase := .running }] } },
      2, 5, 1, 0, 3, ⟨.cmd 0 3, 0x50000, true⟩,
      { ring := 0, seq := 3, desc := [], sync := [], regions := [], locals := [], phase := .running },
      by decide +kernel⟩,
    ⟨{ ups with xlt := { walksStarted := 3 } }, .core 1, by decide +kernel⟩,
    ⟨{ ups with xlt := { frFull := [(2, 3)] } }, .core 1, 2, by decide +kernel⟩,
    ⟨{ ups with glb := { ready := true } }, .host 1, 2, by decide +kernel⟩⟩

/-- Each clause of CoherenceAtTheHome has a state and operands that meet its hypotheses. -/
theorem witness_CoherenceAtTheHome :
    (∃ (s : State) (p : Pkt), s.cohTakes (withMsg p 0x01) ∧ 33 ≤ p.dst ∧ p.dst ≤ 48 ∧ s.zone p.addr = .direct ∧
      s.lostUnit (p.addr / 4096) = false ∧ (s.homeOf p.dst).ent (sectorOf p.addr) = none ∧ (s.homeOf p.dst).busyAny
      [sectorOf p.addr] = false ∧ 53 ≤ p.src ∧ p.src ≤ 56 ∧ s.origin p = (p.src, p.tid) ∧ look [] (s.homeOf
      p.dst).tickets (sectorOf p.addr) = [] ∧ (s.homeOf p.dst).dir.length < 1048576 ∧ s.mem.ckBad (sectorOf p.addr)
      = false) ∧
    (∃ (s : State) (p : Pkt), s.cohTakes (withMsg p 0x02) ∧ 33 ≤ p.dst ∧ p.dst ≤ 48 ∧ s.zone p.addr = .direct ∧
      s.lostUnit (p.addr / 4096) = false ∧ (s.homeOf p.dst).ent (sectorOf p.addr) = none ∧ (s.homeOf p.dst).busyAny
      [sectorOf p.addr] = false ∧ 53 ≤ p.src ∧ p.src ≤ 56 ∧ s.origin p = (p.src, p.tid) ∧ look [] (s.homeOf
      p.dst).tickets (sectorOf p.addr) = [] ∧ (s.homeOf p.dst).dir.length < 1048576 ∧ s.mem.ckBad (sectorOf p.addr)
      = false) ∧
    (∃ (s : State) (p : Pkt), s.cohTakes (withMsg p 0x03) ∧ 33 ≤ p.dst ∧ p.dst ≤ 48 ∧ s.zone p.addr = .direct ∧
      s.lostUnit (p.addr / 4096) = false ∧ (s.homeOf p.dst).ent (sectorOf p.addr) = none ∧ (s.homeOf p.dst).busyAny
      [sectorOf p.addr] = false ∧ 53 ≤ p.src ∧ p.src ≤ 56 ∧ s.origin p = (p.src, p.tid) ∧ look [] (s.homeOf
      p.dst).tickets (sectorOf p.addr) = [] ∧ (s.homeOf p.dst).dir.length < 1048576 ∧ s.mem.ckBad (sectorOf p.addr)
      = false) ∧
    (∃ (s : State) (p : Pkt), s.cohTakes (withMsg p 0x04) ∧ 33 ≤ p.dst ∧ p.dst ≤ 48 ∧ s.zone p.addr = .direct ∧
      s.lostUnit (p.addr / 4096) = false ∧ (s.homeOf p.dst).ent (sectorOf p.addr) = none ∧ (s.homeOf p.dst).busyAny
      [sectorOf p.addr] = false ∧ 53 ≤ p.src ∧ p.src ≤ 56 ∧ s.origin p = (p.src, p.tid) ∧ look [] (s.homeOf
      p.dst).tickets (sectorOf p.addr) = [] ∧ (s.homeOf p.dst).dir.length < 1048576) ∧
    (∃ (s : State) (p : Pkt) (e : DramErr) (o : Nat), s.cohTakes (withMsg p 0x02) ∧ 33 ≤ p.dst ∧ p.dst ≤ 48 ∧
      s.zone p.addr = .direct ∧ s.lostUnit (p.addr / 4096) = false ∧ 53 ≤ p.src ∧ p.src ≤ 56 ∧ s.origin p = (p.src,
      p.tid) ∧ look [] (s.homeOf p.dst).tickets (sectorOf p.addr) = [] ∧ (s.homeOf p.dst).busy = [] ∧ (s.homeOf
      p.dst).ent (sectorOf p.addr) = some ⟨sectorOf p.addr, some o, [], none⟩ ∧ o ≠ p.src - 53 ∧ o < 4 ∧ s.mayIssue
      p.dst) ∧
    (∃ (s : State) (p : Pkt) (e : DramErr), s.cohTakes (withMsg p 0x01) ∧ 33 ≤ p.dst ∧ p.dst ≤ 48 ∧ s.zone p.addr
      = .direct ∧ (s.homeOf p.dst).busyAny [sectorOf p.addr] = true ∧ leAt (withMsg p 0x01).payload 2 2 = 0) ∧
    (∃ (s : State) (p : Pkt), s.cohTakes (withMsg p 0x05) ∧ 33 ≤ p.dst ∧ p.dst ≤ 48 ∧ s.zone p.addr = .direct ∧
      s.lostUnit (p.addr / 4096) = false ∧ look [] (s.homeOf p.dst).tickets (sectorOf p.addr) = [] ∧ 53 ≤ p.src ∧
      p.src ≤ 56 ∧ s.origin p = (p.src, p.tid) ∧ (s.homeOf p.dst).busyAny [sectorOf p.addr] = false ∧ (s.homeOf
      p.dst).ent (sectorOf p.addr) = some ⟨sectorOf p.addr, some (p.src - 53), [], none⟩ ∧ wfTable {} s.stack =
      true) :=
  ⟨⟨ups, ⟨.coh, 53, 33, 7, 8192, false, [2, 0, 0, 0], [], 0⟩, by decide +kernel⟩,
    ⟨ups, ⟨.coh, 53, 33, 7, 8192, false, [2, 0, 0, 0], [], 0⟩, by decide +kernel⟩,
    ⟨ups, ⟨.coh, 53, 33, 7, 8192, false, [2, 0, 0, 0], [], 0⟩, by decide +kernel⟩,
    ⟨ups, ⟨.coh, 53, 33, 7, 8192, false, [2, 0, 0, 0], [], 0⟩, by decide +kernel⟩,
    ⟨{ ups with stack := [(0, { home := { dir := [⟨128, some 1, [], none⟩] } })] }, ⟨.coh, 53, 33, 7, 8192, false,
      [2, 0, 0, 0], [], 0⟩, .none, 1, by decide +kernel⟩,
    ⟨{ ups with
    stack := [(0, {
        home := { busy := [⟨[128], [], .evict ⟨.coh, 54, 33, 7, 16384, false, [2, 0, 0, 0], [], 0⟩ .none⟩] } })] },
      ⟨.coh, 53, 33, 7, 8192, false, [2, 0, 0, 0], [], 0⟩, .none, by decide +kernel⟩,
    ⟨{ ups with stack := [(0, { home := { dir := [⟨128, some 0, [], none⟩] } })] }, ⟨.coh, 53, 33, 7, 8192, false,
      [5], [], 0⟩, by decide +kernel⟩⟩

/-- Each clause of SnoopsAtTheDie has a state and operands that meet its hypotheses. -/
theorem witness_SnoopsAtTheDie :
    (∃ (s : State) (p : Pkt) (c : CLine), 53 ≤ p.dst ∧ p.dst ≤ 56 ∧ p.src < 53 ∧ s.takes (withMsg p 0x10) ∧
      s.awaits (p.dst - 53) (sectorOf p.addr) = false ∧ (s.cdieOf (p.dst - 53)).line (sectorOf p.addr) = some c ∧
      c.st = .m ∧ wfTable {} s.core = true) ∧
    (∃ (s : State) (p : Pkt), 53 ≤ p.dst ∧ p.dst ≤ 56 ∧ p.src < 53 ∧ s.takes (withMsg p 0x10) ∧ s.awaits (p.dst -
      53) (sectorOf p.addr) = false ∧ (s.cdieOf (p.dst - 53)).line (sectorOf p.addr) = none) ∧
    (∃ (s : State) (p : Pkt) (data : List Byte) (c : CLine), 53 ≤ p.dst ∧ p.dst ≤ 56 ∧ p.src < 53 ∧ s.takes
      (withMsg p 0x11) ∧ s.awaits (p.dst - 53) (sectorOf p.addr) = false ∧ (s.cdieOf (p.dst - 53)).line (sectorOf
      p.addr) = some c ∧ c.st = .e ∧ data.length = 64 ∧ s.evicting (p.dst - 53) (sectorOf p.addr) = false) ∧
    (∃ (s : State) (p : Pkt) (c : CLine), 53 ≤ p.dst ∧ p.dst ≤ 56 ∧ p.src < 53 ∧ s.takes (withMsg p 0x12) ∧
      s.awaits (p.dst - 53) (sectorOf p.addr) = false ∧ (s.cdieOf (p.dst - 53)).line (sectorOf p.addr) = some c ∧
      s.fenced (leAt (withMsg p 0x12).payload 4 1 % 64) = false ∧ (leAt (withMsg p 0x12).payload 4 1 % 64, leAt
      (withMsg p 0x12).payload 8 4) ∉ s.hub.dropped) ∧
    (∃ (s : State) (p : Pkt), 53 ≤ p.dst ∧ p.dst ≤ 56 ∧ s.takes (withMsg p 0x12) ∧ s.awaits (p.dst - 53) (sectorOf
      p.addr) = true) ∧
    (∃ (s : State) (die addr t0 msg core : Nat), look (0, 0, 0) (s.cdieOf die).tickets (sectorOf addr) = (t0 + 1,
      msg, core) ∧ s.mayIssue (53 + die)) ∧
    (∃ (s : State) (core addr : Nat) (c : CLine), (s.coreOf core).fence = false ∧ s.evicting (core / 32) (sectorOf
      addr) = false ∧ s.zone addr = .direct ∧ (s.cdieOf (core / 32)).line (sectorOf addr) = some c ∧ (c.st = .m ∨
      c.st = .e)) ∧
    (∃ (s : State) (core addr : Nat), (s.coreOf core).fence = false ∧ s.evicting (core / 32) (sectorOf addr) =
      false ∧ s.zone addr = .direct ∧ (s.cdieOf (core / 32)).line (sectorOf addr) = none ∧ s.mayIssue (53 + core /
      32)) ∧
    (∃ (s : State) (core addr : Nat), (s.coreOf core).fence = false ∧ s.evicting (core / 32) (sectorOf addr) =
      false ∧ s.zone addr = .host) ∧
    (∃ (s : State) (die addr dst : Nat) (c : CLine), s.evicting die (sectorOf addr) = false ∧ (s.cdieOf die).line
      (sectorOf addr) = some c ∧ c.st = .m ∧ s.targetOf (64 * sectorOf addr) = some dst ∧ s.fenced (53 + die) =
      false ∧ s.fenced dst = false ∧ s.mayIssue (53 + die) ∧ wfTable {} s.core = true) :=
  ⟨⟨{ ups with
    cdie := [(0, { lines := [(128, some ⟨.m, List.replicate 64 7, false⟩)] })], core := [(1, { lsr := some 128 })] },
      ⟨.coh, 33, 53, 7, 8192, false, [16, 0, 0, 0], [], 0⟩, ⟨.m, List.replicate 64 7, false⟩, by decide +kernel⟩,
    ⟨ups, ⟨.coh, 33, 53, 7, 8192, false, [16, 0, 0, 0], [], 0⟩, by decide +kernel⟩,
    ⟨{ ups with cdie := [(0, { lines := [(128, some ⟨.e, List.replicate 64 7, false⟩)] })] }, ⟨.coh, 33, 53, 7,
      8192, false, [16, 0, 0, 0], [], 0⟩, List.replicate 64 8, ⟨.e, List.replicate 64 7, false⟩, by decide +kernel⟩,
    ⟨{ ups with cdie := [(0, { lines := [(128, some ⟨.f, List.replicate 64 7, false⟩)] })] }, ⟨.coh, 33, 53, 7,
      8192, false, [18, 0, 0, 0, 54, 0, 0, 0, 9, 0, 0, 0], [], 0⟩, ⟨.f, List.replicate 64 7, false⟩,
      by decide +kernel⟩,
    ⟨{ ups with hub := { outst := [⟨53, 1, 33, .coh, 0x2000, 64, .coh 0 1 2 0x2000, 1, false⟩] } }, ⟨.coh, 33, 53,
      7, 8192, false, [16, 0, 0, 0], [], 0⟩, by decide +kernel⟩,
    ⟨{ ups with cdie := [(0, { tickets := [(128, (5, 2, 1))] })] }, 0, 0x2000, 4, 2, 1, by decide +kernel⟩,
    ⟨{ ups with cdie := [(0, { lines := [(128, some ⟨.e, List.replicate 64 7, true⟩)] })] }, 1, 0x2000, ⟨.e,
      List.replicate 64 7, true⟩, by decide +kernel⟩,
    ⟨ups, 1, 0x2000, by decide +kernel⟩,
    ⟨ups, 1, 0x400000000000, by decide +kernel⟩,
    ⟨{ ups with cdie := [(0, { lines := [(128, some ⟨.m, List.replicate 64 7, false⟩)] })] }, 0, 0x2000, 35, ⟨.m,
      List.replicate 64 7, false⟩, by decide +kernel⟩⟩

/-- Each clause of CoreFencesAndErrors has a state and operands that meet its hypotheses. -/
theorem witness_CoreFencesAndErrors :
    (∃ (s : State) (core : Nat), s.coreBusy core = false) ∧
    (∃ (s : State) (core : Nat), s.coreBusy core = true) ∧
    (∃ (s : State) (core addr reason : Nat), (s.coreOf core).serr = 0 ∧ addr < 2 ^ 48 ∧ reason < 256) ∧
    (∃ (s : State) (core addr reason : Nat), (s.coreOf core).serr.toNat % 4 = 1) ∧
    (∃ (s : State) (core addr : Nat), (s.coreOf core).lsr = some (sectorOf addr) ∧ wfTable {} s.core = true) ∧
    (∃ (s : State) (core addr : Nat) (instr : Bool), (s.coreOf core).lsr = none) ∧
    (∃ (s : State) (die addr : Nat) (c : CLine), (s.cdieOf die).line (sectorOf addr) = some c ∧ c.st = .m) ∧
    (∃ (s : State) (die addr : Nat) (c : CLine), (s.cdieOf die).line (sectorOf addr) = some c ∧ c.st ≠ .m) ∧
    (∃ (s : State) (die addr : Nat) (c : CLine), die < 4 ∧ (s.cdieOf die).line (sectorOf addr) = some c ∧ c.st =
      .m ∧ (s.cdieOf die).rec_ = 0 ∧ (s.cdieOf die).failed = false) :=
  ⟨⟨{ ups with core := [(1, { fence := true })] }, 1, by decide +kernel⟩,
    ⟨{ ups with core := [(1, { fence := true })], hub := { outst := [⟨53, 1, 33, .write, 0, 64, .plain, 1, false⟩] } },
      1, by decide +kernel⟩,
    ⟨ups, 1, 0x600100, 4, by decide +kernel⟩,
    ⟨{ ups with core := [(1, { serr := 0x401 })] }, 1, 0x600100, 3, by decide +kernel⟩,
    ⟨{ ups with core := [(1, { lsr := some 128 })] }, 1, 0x2000, by decide +kernel⟩,
    ⟨ups, 1, 0x2000, false, by decide +kernel⟩,
    ⟨{ ups with cdie := [(0, { lines := [(128, some ⟨.m, List.replicate 64 7, false⟩)] })] }, 0, 0x2000, ⟨.m,
      List.replicate 64 7, false⟩, by decide +kernel⟩,
    ⟨{ ups with cdie := [(0, { lines := [(128, some ⟨.e, List.replicate 64 7, false⟩)] })] }, 0, 0x2000, ⟨.e,
      List.replicate 64 7, false⟩, by decide +kernel⟩,
    ⟨{ ups with cdie := [(0, { lines := [(128, some ⟨.m, List.replicate 64 7, false⟩)] })] }, 0, 0x2000, ⟨.m,
      List.replicate 64 7, false⟩, by decide +kernel⟩⟩

/-- Each clause of RouterSourcesClaimsAndDelivery has a state and operands that meet its hypotheses. -/
theorem witness_RouterSourcesClaimsAndDelivery :
    (∃ (s : State) (die src : Nat), srcFires src = true) ∧
    (∃ (s : State) (die src : Nat), srcFires src = false) ∧
    (∃ (s : State) (die src : Nat), (s.srcOf die src).gathered ≠ 0 ∧ s.regFld (isrc die src) 19 8 ≠ 0) ∧
    (∃ (s : State) (die n i : Nat), (s.waiting die).find? (fun k => (s.pickCore die k).isSome) = some n ∧
      s.pickCore die n = some i) ∧
    (∃ (s : State) (die : Nat), (s.waiting die).find? (fun k => (s.pickCore die k).isSome) = none) ∧
    (∃ (s : State) (core die src : Nat), core < 128 ∧ srcFires src = true) ∧
    (∃ (s : State) (core die src : Nat), core < 128) ∧
    (∃ (s : State) (core die src : Nat) (v : Word), core < 128 ∧ src < 4095 ∧ wfTable {} s.cdie = true ∧ wfTable
      {} (s.cdieOf die).router.src = true) ∧
    (∃ (s : State) (core n : Nat), s.claimable (core / 32) (core % 32) = some n) ∧
    (∃ (s : State) (core : Nat), s.claimable (core / 32) (core % 32) = none) ∧
    (∃ (s : State) (core own : Nat), core ≠ own) ∧
    (∃ (s : State) (core n : Nat) (v : Word), fld v 11 0 = n ∧ (s.srcOf (core / 32) n).active = some (core % 32) ∧
      (s.srcOf (core / 32) n).pending = false) ∧
    (∃ (s : State) (core n : Nat) (v : Word), fld v 11 0 = n ∧ (s.srcOf (core / 32) n).active = some (core % 32) ∧
      (s.srcOf (core / 32) n).pending = true ∧ (s.updSrc (core / 32) n (fun x =>
      { x with active := none })).eligible (core / 32) n (core % 32) = true) ∧
    (∃ (s : State) (core own : Nat) (v : Word), core ≠ own) ∧
    (∃ (s : State) (core : Nat) (v : Word), wfTable {} s.cdie = true ∧ wfTable {} (s.cdieOf (core /
      32)).router.src = true) ∧
    (∃ (s : State) (core own : Nat) (v : Word), core ≠ own) :=
  ⟨⟨{ ups with regs := [(0x04A0070, 0xFFFFFFFF00200305)] }, 0, 7, by decide +kernel⟩,
    ⟨ups, 0, 4095, by decide +kernel⟩,
    ⟨{ ups with cdie := [(0, { router := { src := [(7, { gathered := 1 })] } })], regs := [(0x04A0070, 0xFFFFFFFF00200305)] },
      0, 7, by decide +kernel⟩,
    ⟨{ ups with
    cdie := [(0, { router := { src := [(7, { gathered := 1, pending := true })] } })],
    regs := [(0x04A0070, 0xFFFFFFFF00100005)] },
      0, 7, 0, by decide +kernel⟩,
    ⟨ups, 0, by decide +kernel⟩,
    ⟨ups, 1, 0, 7, by decide +kernel⟩,
    ⟨{ ups with cdie := [(0, { router := { src := [(7, { gathered := 1, pending := true })] } })] }, 1, 0, 7,
      by decide +kernel⟩,
    ⟨{ ups with
    cdie := [(0, { router := { src := [(7, { gathered := 1, pending := true, delivered := some 3 })] } })],
    regs := [(0x04A0070, 0xFFFFFFFF00100005)] },
      1, 0, 7, 0x0000000100100005, by decide +kernel⟩,
    ⟨{ ups with
    cdie := [(0, { router := { src := [(7, { gathered := 1, pending := true, delivered := some 3 })] } })],
    regs := [(0x04A0070, 0xFFFFFFFF00100005)] },
      3, 7, by decide +kernel⟩,
    ⟨ups, 3, by decide +kernel⟩,
    ⟨ups, 3, 4, by decide +kernel⟩,
    ⟨{ ups with cdie := [(0, { router := { src := [(7, { active := some 3 })] } })] }, 3, 7, 7, by decide +kernel⟩,
    ⟨{ ups with
    cdie := [(0, { router := { src := [(7, { active := some 3, pending := true })] } })],
    regs := [(0x04A0070, 0xFFFFFFFF00100005)] },
      3, 7, 7, by decide +kernel⟩,
    ⟨ups, 3, 4, 7, by decide +kernel⟩,
    ⟨{ ups with
    cdie := [(0, { router := { src := [(7, { gathered := 1, pending := true, delivered := some 3 })] } })],
    regs := [(0x04A0070, 0xFFFFFFFF00100005)] },
      3, 7, by decide +kernel⟩,
    ⟨ups, 3, 4, 7, by decide +kernel⟩⟩

/-- Each clause of EventFifos has a state and operands that meet its hypotheses. -/
theorem witness_EventFifos :
    (∃ (s : State) (die : Nat) (e : EvItem), e.pri < 4 ∧ bitOf (s.regFld (cctl die) 47 32) e.cls = false) ∧
    (∃ (s : State) (die : Nat) (e : EvItem), bitOf (s.regFld (cctl die) 47 32) e.cls = true) ∧
    (∃ (s : State) (core die : Nat) (w : Word) (r : List Word), look [] (s.cdieOf die).fifo.opened core = w :: r) ∧
    (∃ (s : State) (core die : Nat) (w : Word) (r : List Word), look [] (s.cdieOf die).fifo.opened core = [] ∧
      firstItem (s.cdieOf die).fifo.items = some (w :: r)) ∧
    (∃ (s : State) (core die : Nat), look [] (s.cdieOf die).fifo.opened core = [] ∧ (s.cdieOf die).fifo.items =
      []) ∧
    (∃ (s : State) (core die : Nat), core < 128) ∧
    (∃ (s : State) (who : Agent) (w : Word) (r : List Word), s.hostGate who = true ∧ isPf0OrCore who = true ∧ look
      [] s.hfifo.opened 0 = [] ∧ firstItem s.hfifo.items = some (w :: r)) ∧
    (∃ (s : State) (who : Agent), isPf0OrCore who = false) ∧
    (∃ (s : State) (who : Agent), s.hostGate who = true ∧ isPf0OrCore who = true) ∧
    (∃ (s : State) (who : Agent), s.hostGate who = true ∧ isPf0OrCore who = true) ∧
    (∃ (s : State), s.hfifo.withheld = [] ∧ (∀ d, d < 4 → (s.cdieOf d).fifo.withheld = [])) ∧
    (∃ (s : State) (c n : Nat), s.hfifo.withheld = [(c, n)]) :=
  ⟨⟨ups, 0, ⟨0, 1, 0x10, some 33, 5, []⟩, by decide +kernel⟩,
    ⟨{ ups with regs := [(0x0480008, 0x0000000100000000)] }, 0, ⟨0, 1, 0x10, some 33, 5, []⟩, by decide +kernel⟩,
    ⟨{ ups with cdie := [(0, { fifo := { opened := [(3, [8, 9])] } })] }, 3, 0, 8, [9], by decide +kernel⟩,
    ⟨{ ups with cdie := [(0, { fifo := { items := [[0x8800000000000005, 3]] } })] }, 3, 0, 0x8800000000000005,
      [3], by decide +kernel⟩,
    ⟨ups, 3, 0, by decide +kernel⟩,
    ⟨{ ups with cdie := [(0, { fifo := { items := [[0x8800000000000005, 3]] } })] }, 3, 0, by decide +kernel⟩,
    ⟨{ ups with hfifo := { items := [[0x8800000000000005, 3]] } }, .core 1, 0x8800000000000005, [3],
      by decide +kernel⟩,
    ⟨ups, .host 1, by decide +kernel⟩,
    ⟨{ ups with hfifo := { items := [[0x8800000000000005, 3]] } }, .core 1, by decide +kernel⟩,
    ⟨{ ups with hfifo := { lost := 3 } }, .core 1, by decide +kernel⟩,
    ⟨{ ups with hfifo := { posted := [(3, 4)] } }, by decide +kernel⟩,
    ⟨{ ups with hfifo := { withheld := [(2, 4)] } }, 2, 4, by decide +kernel⟩⟩

/-- Each clause of LinkAndDetach has a state and operands that meet its hypotheses. -/
theorem witness_LinkAndDetach :
    (∃ (s : State) (fn : Nat), 0 < fn ∧ fn < 32 ∧ (s.sessOf fn).state = .attached) ∧
    (∃ (s : State), s.glb.ready = true ∧ s.vinOut = false) ∧
    (∃ (s : State), s.glb.ready = false ∧ s.vinOut = false) ∧
    (∃ (s : State), s.hif.state = 2) ∧
    (∃ (s : State) (speed width : Nat) (flit : Bool), speed < 16 ∧ 2 ≤ width ∧ width < 16 ∧ s.boot.hostEnabled =
      true ∧ s.siteFailed 57 = false ∧ s.boot.perst = false ∧ s.hif.out = [] ∧ s.disp.fetched = []) ∧
    (∃ (s : State) (speed width : Nat) (flit : Bool), width < 2 ∧ s.boot.hostEnabled = true ∧ s.siteFailed 57 =
      false ∧ s.boot.perst = false) ∧
    (∃ (s : State) (x : HTlp) (r : List HTlp), s.hif.tlps = x :: r) ∧
    (∃ (s : State) (fn a ring seq : Nat) (d : List Byte) (ep : Bool) (m : TlpAt) (r : List HTlp), s.hif.tlps =
      .write fn a d ep (.record ring seq) m :: r) ∧
    (∃ (s : State) (tag : Nat) (data : List Byte) (p : Pkt), s.readOf tag = some (.pkt p) ∧ p.op = .read ∧
      data.length = p.rdLen ∧ s.fenced p.src = false ∧ s.fenced p.dst = false ∧ (p.src, p.tid) ∉ s.hub.dropped) ∧
    (∃ (s : State) (tag ring seq off bus : Nat) (data : List Byte) (c : Cmd), s.readOf tag = some (.copy ring seq
      off bus) ∧ s.cmdOf ring seq = some c) ∧
    (∃ (s : State), s.siteFailed 57 = false ∧ s.fenced 57 = false) :=
  ⟨⟨{ State.reset with sess := [(0, { state := .attached }), (3, { state := .attached, token := 9 })] }, 3,
      by decide +kernel⟩,
    ⟨{ State.reset with
    sess := [(0, { state := .attached }), (3, { state := .attached, token := 9 })], glb := { ready := true },
    boot := { phase := .ready } },
      by decide +kernel⟩,
    ⟨{ State.reset with
    sess := [(0, { state := .attached }), (3, { state := .attached, token := 9 })], boot := { phase := .ready } },
      by decide +kernel⟩,
    ⟨{ ups with hif := { state := 2 } }, by decide +kernel⟩,
    ⟨{ ups with boot := { hostEnabled := true, perst := false } }, 6, 4, true, by decide +kernel⟩,
    ⟨{ ups with boot := { hostEnabled := true, perst := false }, hif := { state := 1 } }, 6, 1, true,
      by decide +kernel⟩,
    ⟨{ ups with hif := { tlps := [.read 0 64 64 1 .translated] } }, .read 0 64 64 1 .translated, [],
      by decide +kernel⟩,
    ⟨{ ups with
    hif := { tlps := [.write 0 64 [] false (.record 0 3) .translated] },
    disp := { cmds := [{ ring := 0, seq := 3, desc := [], sync := [], regions := [], locals := [], phase := .written }] } },
      0, 64, 0, 3, [], false, .translated, [], by decide +kernel⟩,
    ⟨{ ups with hif := { reads := [(4, some (.pkt ⟨.read, 0, 57, 4, 0x400000000000, false, [], [], 64⟩))] } }, 4,
      List.replicate 64 7, ⟨.read, 0, 57, 4, 0x400000000000, false, [], [], 64⟩, by decide +kernel⟩,
    ⟨{ ups with
    hif := { reads := [(4, some (.copy 0 3 64 128))] },
    disp := { cmds := [{ ring := 0, seq := 3, desc := [], sync := [], regions := [], locals := [] }] } },
      4, 0, 3, 64, 128, List.replicate 64 7,
      { ring := 0, seq := 3, desc := [], sync := [], regions := [], locals := [] }, by decide +kernel⟩,
    ⟨{ State.reset with sess := [(0, { state := .attached }), (3, { state := .attached, token := 9 })] },
      by decide +kernel⟩⟩

/-- Each clause of Sessions has a state and operands that meet its hypotheses. -/
theorem witness_Sessions :
    (∃ (s : State) (who : Agent) (fn : Nat), fn < 32 ∧ s.hostGate who = true ∧ ownFn who fn = true ∧ (s.sessOf
      fn).state = .none) ∧
    (∃ (s : State) (who : Agent) (fn : Nat), fn < 32 ∧ s.hostGate who = true ∧ ownFn who fn = true ∧ (s.sessOf
      fn).state ≠ .none) ∧
    (∃ (s : State) (who : Agent) (fn : Nat), fn < 32 ∧ s.hostGate who = true ∧ ownFn who fn = true ∧ (s.sessOf
      fn).state = .held ∧ (s.sessOf fn).claiming = false ∧ (s.sessOf fn).refusal = false ∧ (s.sessOf fn).offered =
      (s.sessOf fn).token) ∧
    (∃ (s : State) (who : Agent) (fn : Nat), fn < 32 ∧ s.hostGate who = true ∧ ownFn who fn = true ∧ (s.sessOf
      fn).state = .held ∧ (s.sessOf fn).claiming = false ∧ (s.sessOf fn).refusal = false ∧ (s.sessOf fn).offered ≠
      (s.sessOf fn).token) ∧
    (∃ (s : State) (who : Agent) (fn : Nat), fn < 32 ∧ s.hostGate who = true ∧ ownFn who fn = true ∧ (s.sessOf
      fn).refusal = true) ∧
    (∃ (s : State) (fn : Nat), (s.sessOf fn).claiming = true ∧ s.hif.state = 2) ∧
    (∃ (s : State) (who : Agent) (fn : Nat), fn < 32 ∧ s.hostGate who = true ∧ ownFn who fn = true ∧ s.held fn =
      true ∧ wfTable {} s.sess = true) ∧
    (∃ (s : State) (fn : Nat), s.held fn = true ∧ (s.sessOf fn).claiming = false ∧ wfTable {} s.sess = true) ∧
    (∃ (s : State) (fn : Nat), (s.sessOf fn).claiming = true) ∧
    (∃ (s : State) (who : Agent) (fn : Nat) (items : List RedelItem), fn < 32 ∧ s.hostGate who = true ∧ ownFn who
      fn = true ∧ (s.sessOf fn).state = .attached ∧ (s.sessOf fn).redelBusy = false ∧ items.length < 4096 ∧
      s.hif.state ≠ 2) ∧
    (∃ (s : State) (who : Agent) (fn : Nat) (i : RedelItem), fn < 32 ∧ s.hostGate who = true ∧ ownFn who fn = true
      ∧ (s.sessOf fn).state = .attached ∧ (s.sessOf fn).redelBusy = false ∧ s.hif.state = 2 ∧ redelCheck s fn i =
      some 1) ∧
    (∃ (s : State) (fn idx : Nat) (i : RedelItem) (c : Staged), (s.sessOf fn).redelBusy = true ∧ (s.sessOf
      fn).state = .attached ∧ s.hif.state = 2 ∧ (s.sessOf fn).redel = [(idx, i)] ∧ (s.sessOf fn).redelSent = true ∧
      s.stagedOf i.ring i.seq i.region = some c ∧ c.left = 0) ∧
    (∃ (s : State) (fn a ring seq region : Nat) (d : List Byte) (ep : Bool) (m : TlpAt) (r : List HTlp),
      s.hif.tlps = .write fn a d ep (.redelStatus (some (ring, seq, region))) m :: r) ∧
    (∃ (s : State) (who : Agent) (fn : Nat), fn < 32 ∧ s.hostGate who = true ∧ ownFn who fn = true) ∧
    (∃ (s : State) (who : Agent), s.hostGate who = true ∧ isPf0OrCore who = true) :=
  ⟨⟨ups, .core 1, 3, by decide +kernel⟩,
    ⟨{ State.reset with sess := [(0, { state := .attached }), (3, { state := .attached, token := 9 })] }, .core 1,
      3, by decide +kernel⟩,
    ⟨{ ups with sess := [(3, { state := .held, token := 9, offered := 9 })] }, .core 1, 3, by decide +kernel⟩,
    ⟨{ ups with sess := [(3, { state := .held, token := 9, offered := 8 })] }, .core 1, 3, by decide +kernel⟩,
    ⟨{ ups with sess := [(3, { state := .held, refusal := true })] }, .core 1, 3, by decide +kernel⟩,
    ⟨{ ups with hif := { state := 2 }, sess := [(3, { state := .held, token := 9, claiming := true })] }, 3,
      by decide +kernel⟩,
    ⟨{ ups with
    hif := {
        staged := [{
            ring := 0, seq := 3, region := 1, fn := 3, bytes := List.replicate 64 7, pois := [], left := 0, direct := false,
            kept := false }] },
    sess := [(3, { state := .held, token := 9 })] },
      .core 1, 3, by decide +kernel⟩,
    ⟨{ ups with sess := [(3, { state := .held, token := 9 })] }, 3, by decide +kernel⟩,
    ⟨{ ups with sess := [(3, { state := .held, token := 9, claiming := true })] }, 3, by decide +kernel⟩,
    ⟨{ State.reset with sess := [(0, { state := .attached }), (3, { state := .attached, token := 9 })] }, .core 1,
      3, [{ ring := 0, seq := 3, region := 1, newAddr := 0x1000, limit := 64 }], by decide +kernel⟩,
    ⟨{ State.reset with sess := [(0, { state := .attached }), (3, { state := .attached, token := 9 })], hif := { state := 2 } },
      .core 1, 3, { ring := 0, seq := 3, region := 1, newAddr := 0x1000, limit := 64 }, by decide +kernel⟩,
    ⟨{ ups with
    hif := {
        state := 2,
        staged := [{
            ring := 0, seq := 3, region := 1, fn := 3, bytes := List.replicate 64 7, pois := [], left := 0, direct := false,
            kept := false }] },
    sess := [(3, {
        state := .attached, redelBusy := true, redelSent := true,
        redel := [(0, { ring := 0, seq := 3, region := 1, newAddr := 0x1000, limit := 64 })] })] },
      3, 0, { ring := 0, seq := 3, region := 1, newAddr := 0x1000, limit := 64 },
      {
          ring := 0, seq := 3, region := 1, fn := 3, bytes := List.replicate 64 7, pois := [], left := 0, direct := false,
          kept := false },
      by decide +kernel⟩,
    ⟨{ ups with
    hif := {
        tlps := [.write 3 64 [0] false (.redelStatus (some (0, 3, 1))) (.untranslated none)],
        staged := [{
            ring := 0, seq := 3, region := 1, fn := 3, bytes := List.replicate 64 7, pois := [], left := 0, direct := false,
            kept := false }] } },
      3, 64, 0, 3, 1, [0], false, (.untranslated none), [], by decide +kernel⟩,
    ⟨{ ups with sess := [(3, { state := .held, fails := 2 })] }, .core 1, 3, by decide +kernel⟩,
    ⟨{ ups with hif := { detaches := 3 } }, .core 1, by decide +kernel⟩⟩

/-- Each clause of PlacementAperture has a state and operands that meet its hypotheses. -/
theorem witness_PlacementAperture :
    (∃ (s : State) (rid off : Nat) (data : List Byte) (ep : Bool), tlpOk off data.length = true ∧ s.winFor off =
      none) ∧
    (∃ (s : State) (rid off i : Nat) (data : List Byte) (ep : Bool), tlpOk off data.length = true ∧ s.winFor off =
      some i ∧ (s.win i).base + (s.win i).size < off + data.length) ∧
    (∃ (s : State) (rid off i : Nat) (data : List Byte) (ep : Bool), tlpOk off data.length = true ∧ s.winFor off =
      some i ∧ off + data.length ≤ (s.win i).base + (s.win i).size ∧ Nat.land rid (s.win i).mask ≠ Nat.land (s.win
      i).rid (s.win i).mask) ∧
    (∃ (s : State) (rid off i : Nat) (data : List Byte), tlpOk off data.length = true ∧ s.winFor off = some i ∧
      off + data.length ≤ (s.win i).base + (s.win i).size ∧ Nat.land rid (s.win i).mask = Nat.land (s.win i).rid
      (s.win i).mask ∧ (s.sessOf (s.ctxFn (s.win i).ctx)).flrDetached = false) ∧
    (∃ (s : State) (rid off i a dst : Nat) (data : List Byte) (e : TlbEnt), tlpOk off data.length = true ∧
      s.winFor off = some i ∧ off + data.length ≤ (s.win i).base + (s.win i).size ∧ Nat.land rid (s.win i).mask =
      Nat.land (s.win i).rid (s.win i).mask ∧ (s.sessOf (s.ctxFn (s.win i).ctx)).flrDetached = false ∧ (∀ p ∈
      s.hif.placeWait, p.n ≠ s.hif.placeNext ∧ p.rid ≠ rid) ∧ s.stalledWait ⟨.place s.hif.placeNext, (s.win i).dva +
      (off - (s.win i).base), true⟩ = false ∧ (s.win i).dva + (off - (s.win i).base) < 2 ^ 55 ∧ tlbFind (s.win
      i).ctx (((s.win i).dva + (off - (s.win i).base)) / 0x10000) s.xlt.checker = some e ∧ e.ans ((s.win i).dva +
      (off - (s.win i).base)) true = .hit (.dev a) ∧ off % 4096 + data.length ≤ 4096 ∧ data.length = 64 ∧ a % 64 = 0
      ∧ s.targetOf a = some dst ∧ s.fenced 57 = false ∧ s.fenced dst = false ∧ s.mayIssue 57) ∧
    (∃ (s : State) (who : Agent), s.hostGate who = true ∧ isPf0OrCore who = true) ∧
    (∃ (s : State) (who : Agent) (n : Nat) (v : Word), n < 4096 ∧ s.hostGate who = true ∧ isPf0OrCore who = true ∧
      (s.win n).valid = false ∧ (s.setReg (plap n) (v &&& 0x000000FFFFFF0000#64)).winOk n ((s.setReg (plap n) (v &&&
      0x000000FFFFFF0000#64)).win n) = true) ∧
    (∃ (s : State) (who : Agent) (n : Nat) (v : Word), n < 4096 ∧ s.hostGate who = true ∧ isPf0OrCore who = true ∧
      (s.win n).valid = false ∧ (s.setReg (plap n) (v &&& 0x000000FFFFFF0000#64)).winOk n ((s.setReg (plap n) (v &&&
      0x000000FFFFFF0000#64)).win n) = false) ∧
    (∃ (s : State) (who : Agent) (n : Nat), n < 4096 ∧ s.hostGate who = true ∧ isPf0OrCore who = true ∧ (s.win
      n).valid = true ∧ s.winDraining n = true) ∧
    (∃ (s : State) (n : Nat), s.winDraining n = false) :=
  ⟨⟨ups, 3, 0, List.replicate 64 7, false, by decide +kernel⟩,
    ⟨{ ups with regs := [(0x180020, 0x8000000000000000), (0x180030, 0x0000000090030000)] }, 3, 0xFF00, 1,
      List.replicate 512 7, false, by decide +kernel⟩,
    ⟨{ ups with
    regs := [(0x180020, 0x8000000000000000), (0x180028, 0x0000000000050000), (0x180030, 0x0000000090030000), (0x180038, 0x00000000FFFF0003)] },
      4, 0, 1, List.replicate 64 7, false, by decide +kernel⟩,
    ⟨{ ups with
    regs := [(0x180020, 0x8000000000000000), (0x180028, 0x0000000000050000), (0x180030, 0x0000000090030000), (0x180038, 0x00000000FFFF0003)] },
      3, 0, 1, List.replicate 64 7, by decide +kernel⟩,
    ⟨{ ups with
    regs := [(0x180020, 0x8000000000000000), (0x180028, 0x0000000000050000), (0x180030, 0x0000000090030000), (0x180038, 0x00000000FFFF0003)],
    xlt := { checker := [⟨2, 5, 1, .dev 0x70000, true, true, []⟩] } },
      3, 0, 1, 0x70000, 33, List.replicate 64 7, ⟨2, 5, 1, .dev 0x70000, true, true, []⟩, by decide +kernel⟩,
    ⟨{ ups with hif := { plog := { dropped := 3, since := 3, captured := true } } }, .core 1, by decide +kernel⟩,
    ⟨{ ups with regs := [(0x180028, 0x0000000000050000)] }, .core 1, 1, 0x20000, by decide +kernel⟩,
    ⟨{ ups with regs := [(0x180030, 0x0000000030000000)] }, .core 1, 1, 0x20000, by decide +kernel⟩,
    ⟨{ ups with
    regs := [(0x180020, 0x8000000000000000), (0x180028, 0x0000000000050000), (0x180030, 0x0000000090030000), (0x180038, 0x00000000FFFF0003)],
    counted := [⟨1, some 6, 64, 1, some 1, none, none⟩] },
      .core 1, 1, by decide +kernel⟩,
    ⟨{ ups with hif := { plapDrain := [1] } }, 1, by decide +kernel⟩⟩

/-- Each clause of DoorbellsAndAcceptance has a state and operands that meet its hypotheses. -/
theorem witness_DoorbellsAndAcceptance :
    (∃ (s : State), s.hif.state ≠ 2) ∧
    (∃ (s : State) (r : Nat), s.hif.state = 2 ∧ s.hif.npWait = [] ∧ s.hif.reads.length + s.xlt.ats.length <
      s.tagMax ∧ s.glb.ready = true ∧ s.disp.accepting = true ∧ s.ringsOn = [r] ∧ s.polled r = true ∧ (s.ringOf
      r).stopped = false ∧ s.reading (.line (s.ringFn r) (r / 512)) = false) ∧
    (∃ (s : State) (fn line i : Nat) (bits : BitVec 512), s.reading (.line fn line) = true ∧ s.hif.state = 2 ∧
      s.hif.npWait = [] ∧ s.hif.reads.length + s.xlt.ats.length < s.tagMax ∧ (∀ j, j < 512 → bits.getLsbD j = (j ==
      i)) ∧ i < 512 ∧ s.polled (512 * line + i) = true ∧ s.ringFn (512 * line + i) = fn ∧ s.reading (.prod (512 *
      line + i)) = false) ∧
    (∃ (s : State) (ring prod cons : Nat), s.reading (.prod ring) = true ∧ s.polled ring = true ∧ s.hif.state = 2
      ∧ s.hif.npWait = [] ∧ s.hif.reads.length + s.xlt.ats.length + 32 ≤ s.tagMax ∧ (s.ringOf ring).fetched < prod ∧
      (s.ringOf ring).fetched < (s.ringOf ring).cons + s.ringE ring ∧ (s.ringOf ring).want ≤ (s.ringOf
      ring).fetched) ∧
    (∃ (s : State) (ring prod cons : Nat), s.reading (.prod ring) = true ∧ s.polled ring = true ∧ s.hif.npWait =
      [] ∧ (s.ringOf ring).fetched < prod ∧ (s.ringOf ring).cons + s.ringE ring ≤ (s.ringOf ring).fetched ∧ cons +
      s.ringE ring ≤ (s.ringOf ring).fetched ∧ (s.ringOf ring).want ≤ (s.ringOf ring).fetched) ∧
    (∃ (s : State) (ring : Nat), wfTable {} s.disp.ring = true ∧ (s.ringOf ring).watch = true ∧ s.disp.accepting =
      true ∧ s.ringEn ring = true ∧ s.ringDev ring = true ∧ s.engErr 63 (s.rHdr ring) false = none ∧ (∀ k ∈
      sectorsOf (s.rHdr ring) 16, s.staleWord k = false) ∧ s.cohPoison (s.rHdr ring) 64 = none ∧ (s.ringOf
      ring).fetched < s.cohLE (s.rHdr ring) 8 ∧ (s.ringOf ring).fetched < (s.ringOf ring).cons + s.ringE ring ∧
      (s.ringOf ring).want ≤ (s.ringOf ring).fetched) ∧
    (∃ (s : State) (ring : Nat) (desc : List Byte) (lists : ListsRead), (s.ringOf ring).fetched < (s.ringOf
      ring).want ∧ s.ringDev ring = false ∧ s.reading (.desc ring) = true ∧ s.ringEn ring = true ∧ desc.length = 128
      ∧ desc.head? = some 9 ∧ leAt desc 8 8 = 0 ∧ s.disp.fetched = []) ∧
    (∃ (s : State) (ring : Nat) (c : Cmd), s.journal < 65536 ∧ s.disp.accepting = true ∧ s.disp.fetched = [c] ∧
      c.ring = ring ∧ c.due = false ∧ c.acks + 1 = s.mirrors ∧ s.ringDev ring = false ∧ s.hif.state = 2) ∧
    (∃ (s : State) (ring : Nat) (c : Cmd), s.journal < 65536 ∧ s.disp.accepting = true ∧ s.disp.fetched = [c] ∧
      c.ring = ring ∧ c.due = false ∧ c.acks + 1 < s.mirrors) ∧
    (∃ (s : State) (ring : Nat), s.disp.accepting = false) :=
  ⟨⟨ups, by decide +kernel⟩,
    ⟨{ ups with
    regs := [(0x0210000, 0x8000000000000000), (0x0210008, 0x0000000000001000), (0x0210010, 0x0000000000002000), (0x0210018, 0x0000000000003000)],
    sess := [(0, { state := .attached })], glb := { ready := true }, hif := { state := 2 }, disp := { accepting := true } },
      0, by decide +kernel⟩,
    ⟨{ ups with
    regs := [(0x0210000, 0x8000000000000000), (0x0210008, 0x0000000000001000), (0x0210010, 0x0000000000002000), (0x0210018, 0x0000000000003000)],
    sess := [(0, { state := .attached })], glb := { ready := true },
    hif := { state := 2, nextTag := 1, reads := [(0, some (.line 0 0))] }, disp := { accepting := true } },
      0, 0, 0, 1#512, by decide +kernel⟩,
    ⟨{ ups with
    regs := [(0x0210000, 0x8000000000000000), (0x0210008, 0x0000000000001000), (0x0210010, 0x0000000000002000), (0x0210018, 0x0000000000003000)],
    sess := [(0, { state := .attached })], glb := { ready := true },
    hif := { state := 2, nextTag := 1, reads := [(0, some (.prod 0))] }, disp := { accepting := true } },
      0, 3, 0, by decide +kernel⟩,
    ⟨{ ups with
    regs := [(0x0210000, 0x8000000000000000), (0x0210008, 0x0000000000001000), (0x0210010, 0x0000000000002000), (0x0210018, 0x0000000000003000)],
    sess := [(0, { state := .attached })], glb := { ready := true },
    hif := { state := 2, nextTag := 1, reads := [(0, some (.prod 0))] },
    disp := { accepting := true, ring := [(0, { fetched := 16 })] } },
      0, 17, 0, by decide +kernel⟩,
    ⟨{ ups with
    regs := [(0x0210000, 0xC000000000000000), (0x0210008, 0x0000000000001000), (0x0210010, 0x0000000000002000), (0x0210018, 0x0000000000003000)],
    sess := [(0, { state := .attached })], glb := { ready := true }, hif := { state := 2 },
    disp := { accepting := true, ring := [(0, { watch := true })] }, mem := { bytes := [(0x2000, 2)] } },
      0, by decide +kernel⟩,
    ⟨{ ups with
    regs := [(0x0210000, 0x8000000000000000), (0x0210008, 0x0000000000001000), (0x0210010, 0x0000000000002000), (0x0210018, 0x0000000000003000)],
    sess := [(0, { state := .attached })], glb := { ready := true },
    hif := { state := 2, nextTag := 1, reads := [(0, some (.desc 0))] },
    disp := { accepting := true, ring := [(0, { want := 1 })] } },
      0, 9 :: List.replicate 126 0 ++ [1], ⟨none, none, none⟩, by decide +kernel⟩,
    ⟨{ ups with
    regs := [(0x0210000, 0x8000000000000000), (0x0210008, 0x0000000000001000), (0x0210010, 0x0000000000002000), (0x0210018, 0x0000000000003000)],
    sess := [(0, { state := .attached })], glb := { ready := true }, hif := { state := 2 },
    disp := {
        accepting := true,
        fetched := [{
            ring := 0, seq := 0, desc := 9 :: List.replicate 127 0, sync := [], regions := [], locals := [],
            acks := 1 }] } },
      0,
      { ring := 0, seq := 0, desc := 9 :: List.replicate 127 0, sync := [], regions := [], locals := [], acks := 1 },
      by decide +kernel⟩,
    ⟨{ ups with
    regs := [(0x0210000, 0x8000000000000000), (0x0210008, 0x0000000000001000), (0x0210010, 0x0000000000002000), (0x0210018, 0x0000000000003000)],
    sess := [(0, { state := .attached })], glb := { ready := true }, hif := { state := 2 },
    disp := {
        accepting := true,
        fetched := [{
            ring := 0, seq := 0, desc := 9 :: List.replicate 127 0, sync := [], regions := [], locals := [] }] } },
      0, { ring := 0, seq := 0, desc := 9 :: List.replicate 127 0, sync := [], regions := [], locals := [] },
      by decide +kernel⟩,
    ⟨ups, 0, by decide +kernel⟩⟩

/-- Each clause of DescriptorsAndPlacement has a state and operands that meet its hypotheses. -/
theorem witness_DescriptorsAndPlacement :
    (∃ (s : State) (ring : Nat) (c : Cmd), s.headOf ring 4 = some c) ∧
    (∃ (s : State) (ring : Nat) (c : Cmd), s.headOf ring 5 = some c) ∧
    (∃ (s : State) (ring : Nat) (c : Cmd), s.headOf ring 8 = some c) ∧
    (∃ (s : State) (ring : Nat) (c : Cmd), s.headOf ring 9 = some c ∧ s.before c = []) ∧
    (∃ (s : State) (ring : Nat) (c : Cmd), s.headOf ring 9 = some c ∧ s.before c ≠ []) ∧
    (∃ (s s1 s2 s3 : State) (ring a b : Nat) (c : Cmd), s.transferOf ring 2 = some c ∧ c.phase = .head ∧ c.fld 32
      8 = 64 ∧ xltPieces ring c.seq (s.ringCtx ring) (c.fld 16 8) 64 false (takeTransfer c s) = (some [(0, 64, .dev
      a)], s1) ∧ xltPieces ring c.seq (s.ringCtx ring) (c.fld 24 8) 64 true s1 = (some [(0, 64, .dev b)], s2) ∧
      s2.zone a = .direct ∧ s2.zone b = .direct ∧ a % 64 = 0 ∧ b % 64 = 0 ∧ s2.engErr 63 a false = none ∧ s2.engErr
      63 b true = none ∧ tilesReady c true [b] (tilesReady c false [a] s2).2 = (true, s3) ∧ (tilesReady c false [a]
      s2).1 = true ∧ s3.zone a = .direct ∧ s3.zone b = .direct ∧ s3.staleWord (a / 64) = false ∧ s3.cohPoison a 64 =
      none) ∧
    (∃ (s s1 s2 : State) (ring b : Nat) (c : Cmd), s.transferOf ring 3 = some c ∧ c.phase = .head ∧ c.fld 24 8 =
      64 ∧ xltPieces ring c.seq (s.ringCtx ring) (c.fld 16 8) 64 true (takeTransfer c s) = (some [(0, 64, .dev b)],
      s1) ∧ b % 64 = 0 ∧ s1.engErr 63 b true = none ∧ tilesReady c true [b] s1 = (true, s2) ∧ s1.zone b = .direct ∧
      s2.zone b = .direct) ∧
    (∃ (s : State) (ring : Nat) (c : Cmd) (h : Header), s.headOf ring 1 = some c ∧ (runHeader c s).1 = some h ∧
      h.ok = false ∧ (runHeader c s).2.cmdOf ring c.seq = some c ∧ c.out = {}) ∧
    (∃ (s : State) (ring : Nat) (c : Cmd) (h : Header), s.headOf ring 1 = some c ∧ (runHeader c s).1 = some h ∧
      h.ok = true ∧ (runHeader c s).2.noRoom c h.count = true ∧ (runHeader c s).2.cmdOf ring c.seq = some c ∧ c.out
      = {}) ∧
    (∃ (s s3 s4 : State) (ring : Nat) (c : Cmd) (h : Header), s.headOf ring 1 = some c ∧ (runHeader c s).1 = some
      h ∧ h.ok = true ∧ (runHeader c s).2.noRoom c h.count = false ∧ c.inplace = [] ∧ s3 = (runHeader c s).2.updCmd
      ring c.seq (fun x => { x with count := h.count, got := [] }) ∧ s3.placeTurn = some ring ∧ placeCmd c h.count
      s3 = some s4 ∧ (runHeader c s).2.cmdOf ring c.seq = some c) ∧
    (∃ (s s3 : State) (ring : Nat) (c : Cmd) (h : Header), s.headOf ring 1 = some c ∧ (runHeader c s).1 = some h ∧
      h.ok = true ∧ (runHeader c s).2.noRoom c h.count = false ∧ c.inplace = [] ∧ s3 = (runHeader c s).2.updCmd ring
      c.seq (fun x => { x with count := h.count, got := [] }) ∧ (s3.placeTurn ≠ some ring ∨ placeCmd c h.count s3 =
      none)) ∧
    (∃ (s s1 s2 : State) (ring seq : Nat) (c : Cmd) (l : List (Nat × Nat)), s.cmdOf ring seq = some c ∧ c.phase =
      .head ∧ c.ckptAt ≠ 0 ∧ c.ckptDone = false ∧ c.replayDue = none ∧ inplacePieces c s = (.got l, s1) ∧ (∀ p ∈ l,
      s1.engErr 63 p.1 false = none) ∧ tilesReady c false (l.map Prod.fst) s1 = (true, s2)) ∧
    (∃ (s : State) (ring : Nat) (c : Cmd), s.headOf ring 1 = some c ∧ has ring s.disp.reserved = false) :=
  ⟨⟨{ ups with
    regs := [(0x0210000, 0x8000000200000000)], sess := [(0, { state := .attached })],
    xlt := { shared := [⟨2, 0, 1, .dev 0, true, true, []⟩] },
    disp := {
        order := 7,
        cmds := [{
            ring := 0, seq := 4, desc := 4 :: List.replicate 15 0 ++ List.replicate 112 0, sync := [], regions := [],
            locals := [], phase := .head }] } },
      0,
      {
          ring := 0, seq := 4, desc := 4 :: List.replicate 15 0 ++ List.replicate 112 0, sync := [], regions := [],
          locals := [], phase := .head },
      by decide +kernel⟩,
    ⟨{ ups with
    regs := [(0x0210000, 0x8000000200000000)], sess := [(0, { state := .attached })],
    xlt := { shared := [⟨2, 0, 1, .dev 0, true, true, []⟩] },
    disp := {
        order := 7,
        cmds := [{
            ring := 0, seq := 4, desc := 5 :: List.replicate 15 0 ++ List.replicate 112 0, sync := [], regions := [],
            locals := [], phase := .head }] } },
      0,
      {
          ring := 0, seq := 4, desc := 5 :: List.replicate 15 0 ++ List.replicate 112 0, sync := [], regions := [],
          locals := [], phase := .head },
      by decide +kernel⟩,
    ⟨{ ups with
    regs := [(0x0210000, 0x8000000200000000)], sess := [(0, { state := .attached })],
    xlt := { shared := [⟨2, 0, 1, .dev 0, true, true, []⟩] },
    disp := {
        order := 7,
        cmds := [{
            ring := 0, seq := 4,
            desc := 8 :: List.replicate 15 0 ++ leBytes 1 2 ++ [0] ++ leBytes 2 50 ++ List.replicate 4 0 ++ leBytes 4 3 ++ List.replicate 100 0,
            sync := [], regions := [], locals := [], phase := .head }] } },
      0,
      {
          ring := 0, seq := 4,
          desc := 8 :: List.replicate 15 0 ++ leBytes 1 2 ++ [0] ++ leBytes 2 50 ++ List.replicate 4 0 ++ leBytes 4 3 ++ List.replicate 100 0,
          sync := [], regions := [], locals := [], phase := .head },
      by decide +kernel⟩,
    ⟨{ ups with
    regs := [(0x0210000, 0x8000000200000000)], sess := [(0, { state := .attached })],
    xlt := { shared := [⟨2, 0, 1, .dev 0, true, true, []⟩] },
    disp := {
        order := 7,
        cmds := [{
            ring := 0, seq := 4, desc := 9 :: List.replicate 15 0 ++ List.replicate 112 0, sync := [], regions := [],
            locals := [], phase := .head }] } },
      0,
      {
          ring := 0, seq := 4, desc := 9 :: List.replicate 15 0 ++ List.replicate 112 0, sync := [], regions := [],
          locals := [], phase := .head },
      by decide +kernel⟩,
    ⟨{ ups with
    regs := [(0x0210000, 0x8000000200000000)], sess := [(0, { state := .attached })],
    xlt := { shared := [⟨2, 0, 1, .dev 0, true, true, []⟩] },
    disp := {
        order := 7,
        cmds := [{ ring := 0, seq := 3, desc := 9 :: List.replicate 127 0, sync := [], regions := [], locals := [], phase := .running, order := 0 }, {
            ring := 0, seq := 4, desc := 9 :: List.replicate 15 0 ++ List.replicate 112 0, sync := [], regions := [],
            locals := [], phase := .head, order := 1 }] } },
      0,
      {
          ring := 0, seq := 4, desc := 9 :: List.replicate 15 0 ++ List.replicate 112 0, sync := [], regions := [],
          locals := [], phase := .head, order := 1 },
      by decide +kernel⟩,
    ⟨{ ups with
    regs := [(0x0210000, 0x8000000200000000)], sess := [(0, { state := .attached })],
    xlt := { shared := [⟨2, 0, 1, .dev 0, true, true, []⟩] },
    disp := {
        order := 7,
        cmds := [{
            ring := 0, seq := 4,
            desc := 2 :: List.replicate 15 0 ++ leBytes 8 0x100 ++ leBytes 8 0x240 ++ leBytes 8 64 ++ List.replicate 88 0,
            sync := [], regions := [], locals := [], phase := .head }] },
    mem := { bytes := [(0x100, 9)] } },
      (takeTransfer
      ({
          ring := 0, seq := 4,
          desc := 2 :: List.replicate 15 0 ++ leBytes 8 0x100 ++ leBytes 8 0x240 ++ leBytes 8 64 ++ List.replicate 88 0,
          sync := [], regions := [], locals := [], phase := .head })
      ({ ups with
          regs := [(0x0210000, 0x8000000200000000)], sess := [(0, { state := .attached })],
          xlt := { shared := [⟨2, 0, 1, .dev 0, true, true, []⟩] },
          disp := {
              order := 7,
              cmds := [{
                  ring := 0, seq := 4,
                  desc := 2 :: List.replicate 15 0 ++ leBytes 8 0x100 ++ leBytes 8 0x240 ++ leBytes 8 64 ++ List.replicate 88 0,
                  sync := [], regions := [], locals := [], phase := .head }] },
          mem := { bytes := [(0x100, 9)] } })),
      (takeTransfer
      ({
          ring := 0, seq := 4,
          desc := 2 :: List.replicate 15 0 ++ leBytes 8 0x100 ++ leBytes 8 0x240 ++ leBytes 8 64 ++ List.replicate 88 0,
          sync := [], regions := [], locals := [], phase := .head })
      ({ ups with
          regs := [(0x0210000, 0x8000000200000000)], sess := [(0, { state := .attached })],
          xlt := { shared := [⟨2, 0, 1, .dev 0, true, true, []⟩] },
          disp := {
              order := 7,
              cmds := [{
                  ring := 0, seq := 4,
                  desc := 2 :: List.replicate 15 0 ++ leBytes 8 0x100 ++ leBytes 8 0x240 ++ leBytes 8 64 ++ List.replicate 88 0,
                  sync := [], regions := [], locals := [], phase := .head }] },
          mem := { bytes := [(0x100, 9)] } })),
      (takeTransfer
      ({
          ring := 0, seq := 4,
          desc := 2 :: List.replicate 15 0 ++ leBytes 8 0x100 ++ leBytes 8 0x240 ++ leBytes 8 64 ++ List.replicate 88 0,
          sync := [], regions := [], locals := [], phase := .head })
      ({ ups with
          regs := [(0x0210000, 0x8000000200000000)], sess := [(0, { state := .attached })],
          xlt := { shared := [⟨2, 0, 1, .dev 0, true, true, []⟩] },
          disp := {
              order := 7,
              cmds := [{
                  ring := 0, seq := 4,
                  desc := 2 :: List.replicate 15 0 ++ leBytes 8 0x100 ++ leBytes 8 0x240 ++ leBytes 8 64 ++ List.replicate 88 0,
                  sync := [], regions := [], locals := [], phase := .head }] },
          mem := { bytes := [(0x100, 9)] } })),
      0, 0x100, 0x240,
      {
          ring := 0, seq := 4,
          desc := 2 :: List.replicate 15 0 ++ leBytes 8 0x100 ++ leBytes 8 0x240 ++ leBytes 8 64 ++ List.replicate 88 0,
          sync := [], regions := [], locals := [], phase := .head },
      by decide +kernel⟩,
    ⟨{ ups with
    regs := [(0x0210000, 0x8000000200000000)], sess := [(0, { state := .attached })],
    xlt := { shared := [⟨2, 0, 1, .dev 0, true, true, []⟩] },
    disp := {
        order := 7,
        cmds := [{
            ring := 0, seq := 4,
            desc := 3 :: List.replicate 15 0 ++ leBytes 8 0x240 ++ leBytes 8 64 ++ [1, 2, 3, 4, 5, 6, 7, 8] ++ List.replicate 88 0,
            sync := [], regions := [], locals := [], phase := .head }] } },
      (takeTransfer
      ({
          ring := 0, seq := 4,
          desc := 3 :: List.replicate 15 0 ++ leBytes 8 0x240 ++ leBytes 8 64 ++ [1, 2, 3, 4, 5, 6, 7, 8] ++ List.replicate 88 0,
          sync := [], regions := [], locals := [], phase := .head })
      ({ ups with
          regs := [(0x0210000, 0x8000000200000000)], sess := [(0, { state := .attached })],
          xlt := { shared := [⟨2, 0, 1, .dev 0, true, true, []⟩] },
          disp := {
              order := 7,
              cmds := [{
                  ring := 0, seq := 4,
                  desc := 3 :: List.replicate 15 0 ++ leBytes 8 0x240 ++ leBytes 8 64 ++ [1, 2, 3, 4, 5, 6, 7, 8] ++ List.replicate 88 0,
                  sync := [], regions := [], locals := [], phase := .head }] } })),
      (takeTransfer
      ({
          ring := 0, seq := 4,
          desc := 3 :: List.replicate 15 0 ++ leBytes 8 0x240 ++ leBytes 8 64 ++ [1, 2, 3, 4, 5, 6, 7, 8] ++ List.replicate 88 0,
          sync := [], regions := [], locals := [], phase := .head })
      ({ ups with
          regs := [(0x0210000, 0x8000000200000000)], sess := [(0, { state := .attached })],
          xlt := { shared := [⟨2, 0, 1, .dev 0, true, true, []⟩] },
          disp := {
              order := 7,
              cmds := [{
                  ring := 0, seq := 4,
                  desc := 3 :: List.replicate 15 0 ++ leBytes 8 0x240 ++ leBytes 8 64 ++ [1, 2, 3, 4, 5, 6, 7, 8] ++ List.replicate 88 0,
                  sync := [], regions := [], locals := [], phase := .head }] } })),
      0, 0x240,
      {
          ring := 0, seq := 4,
          desc := 3 :: List.replicate 15 0 ++ leBytes 8 0x240 ++ leBytes 8 64 ++ [1, 2, 3, 4, 5, 6, 7, 8] ++ List.replicate 88 0,
          sync := [], regions := [], locals := [], phase := .head },
      by decide +kernel⟩,
    ⟨{ ups with
    regs := [(0x0210000, 0x8000000200000000)], sess := [(0, { state := .attached })],
    xlt := { shared := [⟨2, 0, 1, .dev 0, true, true, []⟩] },
    disp := {
        order := 7,
        cmds := [{
            ring := 0, seq := 4,
            desc := 1 :: List.replicate 15 0 ++ leBytes 8 0 ++ List.replicate 24 0 ++ leBytes 8 0x0000000000001100 ++ List.replicate 72 0,
            sync := [], regions := [], locals := [], phase := .head }] } },
      0,
      {
          ring := 0, seq := 4,
          desc := 1 :: List.replicate 15 0 ++ leBytes 8 0 ++ List.replicate 24 0 ++ leBytes 8 0x0000000000001100 ++ List.replicate 72 0,
          sync := [], regions := [], locals := [], phase := .head },
      ⟨0, 0, 0, 0, 0, false⟩, by decide +kernel⟩,
    ⟨{ ups with
    regs := [(0x0210000, 0x8000000200000000)], sess := [(0, { state := .attached })],
    xlt := { shared := [⟨2, 0, 1, .dev 0, true, true, []⟩] },
    disp := {
        order := 7,
        cmds := [{
            ring := 0, seq := 4,
            desc := 1 :: List.replicate 15 0 ++ leBytes 8 0 ++ List.replicate 24 0 ++ leBytes 8 0x0000000000001100 ++ List.replicate 72 0,
            sync := [], regions := [], locals := [], phase := .head }] },
    mem := { bytes := [(0, 71), (1, 78), (2, 87), (3, 84), (4, 1), (16, 2)] }, glb := { tilemap := [] } },
      0,
      {
          ring := 0, seq := 4,
          desc := 1 :: List.replicate 15 0 ++ leBytes 8 0 ++ List.replicate 24 0 ++ leBytes 8 0x0000000000001100 ++ List.replicate 72 0,
          sync := [], regions := [], locals := [], phase := .head },
      ⟨0x54574E47, 1, 0, 2, 0, false⟩, by decide +kernel⟩,
    ⟨{ ups with
    regs := [(0x0210000, 0x8000000200000000)], sess := [(0, { state := .attached })],
    xlt := { shared := [⟨2, 0, 1, .dev 0, true, true, []⟩] },
    disp := {
        order := 7,
        cmds := [{
            ring := 0, seq := 4,
            desc := 1 :: List.replicate 15 0 ++ leBytes 8 0 ++ List.replicate 24 0 ++ leBytes 8 0x0000000000001100 ++ List.replicate 72 0,
            sync := [], regions := [], locals := [], phase := .head }] },
    mem := { bytes := [(0, 71), (1, 78), (2, 87), (3, 84), (4, 1), (16, 2)] } },
      ((runHeader
      ({
          ring := 0, seq := 4,
          desc := 1 :: List.replicate 15 0 ++ leBytes 8 0 ++ List.replicate 24 0 ++ leBytes 8 0x0000000000001100 ++ List.replicate 72 0,
          sync := [], regions := [], locals := [], phase := .head })
      ({ ups with
          regs := [(0x0210000, 0x8000000200000000)], sess := [(0, { state := .attached })],
          xlt := { shared := [⟨2, 0, 1, .dev 0, true, true, []⟩] },
          disp := {
              order := 7,
              cmds := [{
                  ring := 0, seq := 4,
                  desc := 1 :: List.replicate 15 0 ++ leBytes 8 0 ++ List.replicate 24 0 ++ leBytes 8 0x0000000000001100 ++ List.replicate 72 0,
                  sync := [], regions := [], locals := [], phase := .head }] },
          mem := { bytes := [(0, 71), (1, 78), (2, 87), (3, 84), (4, 1), (16, 2)] } })).2.updCmd
      0 4 (fun x => { x with count := 2, got := [] })), ((placeCmd
      ({
          ring := 0, seq := 4,
          desc := 1 :: List.replicate 15 0 ++ leBytes 8 0 ++ List.replicate 24 0 ++ leBytes 8 0x0000000000001100 ++ List.replicate 72 0,
          sync := [], regions := [], locals := [], phase := .head })
      2 (((runHeader
      ({
          ring := 0, seq := 4,
          desc := 1 :: List.replicate 15 0 ++ leBytes 8 0 ++ List.replicate 24 0 ++ leBytes 8 0x0000000000001100 ++ List.replicate 72 0,
          sync := [], regions := [], locals := [], phase := .head })
      ({ ups with
          regs := [(0x0210000, 0x8000000200000000)], sess := [(0, { state := .attached })],
          xlt := { shared := [⟨2, 0, 1, .dev 0, true, true, []⟩] },
          disp := {
              order := 7,
              cmds := [{
                  ring := 0, seq := 4,
                  desc := 1 :: List.replicate 15 0 ++ leBytes 8 0 ++ List.replicate 24 0 ++ leBytes 8 0x0000000000001100 ++ List.replicate 72 0,
                  sync := [], regions := [], locals := [], phase := .head }] },
          mem := { bytes := [(0, 71), (1, 78), (2, 87), (3, 84), (4, 1), (16, 2)] } })).2.updCmd
      0 4 (fun x => { x with count := 2, got := [] })))).getD State.reset), 0,
      {
          ring := 0, seq := 4,
          desc := 1 :: List.replicate 15 0 ++ leBytes 8 0 ++ List.replicate 24 0 ++ leBytes 8 0x0000000000001100 ++ List.replicate 72 0,
          sync := [], regions := [], locals := [], phase := .head },
      ⟨0x54574E47, 1, 0, 2, 0, false⟩, by decide +kernel⟩,
    ⟨{ { ups with regs := [(0x0210000, 0x8000000200000000)], sess := [(0, { state := .attached })], xlt := { shared := [⟨2, 0, 1, .dev 0, true, true, []⟩] }, disp := { order := 7, cmds := [{ ring := 0, seq := 4, desc := 1 :: List.replicate 15 0 ++ leBytes 8 0 ++ List.replicate 24 0 ++ leBytes 8 0x0000000000001100 ++ List.replicate 72 0, sync := [], regions := [], locals := [], phase := .head }] }, mem := { bytes := [(0, 71), (1, 78), (2, 87), (3, 84), (4, 1), (16, 2)] } } with
    tile := (List.range 33).map (fun p => (p, { resetting := true })) },
      ((runHeader
      ({
          ring := 0, seq := 4,
          desc := 1 :: List.replicate 15 0 ++ leBytes 8 0 ++ List.replicate 24 0 ++ leBytes 8 0x0000000000001100 ++ List.replicate 72 0,
          sync := [], regions := [], locals := [], phase := .head })
      ({ { ups with regs := [(0x0210000, 0x8000000200000000)], sess := [(0, { state := .attached })], xlt := { shared := [⟨2, 0, 1, .dev 0, true, true, []⟩] }, disp := { order := 7, cmds := [{ ring := 0, seq := 4, desc := 1 :: List.replicate 15 0 ++ leBytes 8 0 ++ List.replicate 24 0 ++ leBytes 8 0x0000000000001100 ++ List.replicate 72 0, sync := [], regions := [], locals := [], phase := .head }] }, mem := { bytes := [(0, 71), (1, 78), (2, 87), (3, 84), (4, 1), (16, 2)] } } with
          tile := (List.range 33).map (fun p => (p, { resetting := true })) })).2.updCmd
      0 4 (fun x => { x with count := 2, got := [] })), 0,
      {
          ring := 0, seq := 4,
          desc := 1 :: List.replicate 15 0 ++ leBytes 8 0 ++ List.replicate 24 0 ++ leBytes 8 0x0000000000001100 ++ List.replicate 72 0,
          sync := [], regions := [], locals := [], phase := .head },
      ⟨0x54574E47, 1, 0, 2, 0, false⟩, by decide +kernel⟩,
    ⟨{ ups with
    regs := [(0x0210000, 0x8000000200000000)], sess := [(0, { state := .attached })],
    xlt := { shared := [⟨2, 0, 1, .dev 0, true, true, []⟩] },
    disp := {
        order := 7,
        cmds := [{
            ring := 0, seq := 4,
            desc := 1 :: List.replicate 15 0 ++ leBytes 8 0 ++ List.replicate 24 0 ++ leBytes 8 0x0000000000001100 ++ List.replicate 72 0,
            sync := [], regions := [], locals := [], phase := .head, ckptAt := 1 }] } },
      { ups with
          regs := [(0x0210000, 0x8000000200000000)], sess := [(0, { state := .attached })],
          xlt := { shared := [⟨2, 0, 1, .dev 0, true, true, []⟩] },
          disp := {
              order := 7,
              cmds := [{
                  ring := 0, seq := 4,
                  desc := 1 :: List.replicate 15 0 ++ leBytes 8 0 ++ List.replicate 24 0 ++ leBytes 8 0x0000000000001100 ++ List.replicate 72 0,
                  sync := [], regions := [], locals := [], phase := .head, ckptAt := 1 }] } },
      { ups with
          regs := [(0x0210000, 0x8000000200000000)], sess := [(0, { state := .attached })],
          xlt := { shared := [⟨2, 0, 1, .dev 0, true, true, []⟩] },
          disp := {
              order := 7,
              cmds := [{
                  ring := 0, seq := 4,
                  desc := 1 :: List.replicate 15 0 ++ leBytes 8 0 ++ List.replicate 24 0 ++ leBytes 8 0x0000000000001100 ++ List.replicate 72 0,
                  sync := [], regions := [], locals := [], phase := .head, ckptAt := 1 }] } },
      0, 4,
      {
          ring := 0, seq := 4,
          desc := 1 :: List.replicate 15 0 ++ leBytes 8 0 ++ List.replicate 24 0 ++ leBytes 8 0x0000000000001100 ++ List.replicate 72 0,
          sync := [], regions := [], locals := [], phase := .head, ckptAt := 1 },
      [], by decide +kernel⟩,
    ⟨{ ups with
    regs := [(0x0210000, 0x8000000200000000)], sess := [(0, { state := .attached })],
    xlt := { shared := [⟨2, 0, 1, .dev 0, true, true, []⟩] },
    disp := {
        order := 7,
        cmds := [{
            ring := 0, seq := 4,
            desc := 1 :: List.replicate 15 0 ++ leBytes 8 0 ++ List.replicate 24 0 ++ leBytes 8 0x0000000000001100 ++ List.replicate 72 0,
            sync := [], regions := [], locals := [], phase := .head }] },
    mem := { bytes := [(0, 71), (1, 78), (2, 87), (3, 84), (4, 1), (16, 2)] } },
      0,
      {
          ring := 0, seq := 4,
          desc := 1 :: List.replicate 15 0 ++ leBytes 8 0 ++ List.replicate 24 0 ++ leBytes 8 0x0000000000001100 ++ List.replicate 72 0,
          sync := [], regions := [], locals := [], phase := .head },
      by decide +kernel⟩⟩

/-- Each clause of MigrateAndInvalidate has a state and operands that meet its hypotheses. -/
theorem witness_MigrateAndInvalidate :
    (∃ (s : State) (ring : Nat) (c : Cmd), s.headOf ring 6 = some c ∧ s.blockedBy false (c.fld 16 2 % 1024) (c.fld
      24 8 / 0x10000) 1 = false) ∧
    (∃ (s : State) (ring : Nat) (c : Cmd), s.headOf ring 6 = some c ∧ s.blockedBy false (c.fld 16 2 % 1024) (c.fld
      24 8 / 0x10000) 1 = true) ∧
    (∃ (s : State) (ring : Nat) (c : Cmd), s.headOf ring 6 = some c ∧ s.blockedBy false (c.fld 16 2 % 1024) (c.fld
      24 8 / 0x10000) 1 = false ∧ has (c.fld 16 2 % 1024) s.xlt.rootOk = false ∧ c.out = {}) ∧
    (∃ (s : State) (ring seq : Nat) (data : List Byte) (c : Cmd), s.cmdOf ring seq = some c ∧ s.migrateOk c false
      = true ∧ (migrateRead ring seq s).pageErr (c.fld 32 8) true = none ∧ (migrateRead ring seq s).zone (c.fld 32
      8) = .direct ∧ s.xlt.stalls = []) ∧
    (∃ (s : State) (ring seq a : Nat) (c : Cmd), s.cmdOf ring seq = some c ∧ s.migrateOk c true = true ∧ s.cmdOpen
      ring seq = true ∧ s.hif.state = 2 ∧ (pageEntry (c.fld 16 2 % 1024) (c.fld 24 8) s).1 = .found a ∧ (pageEntry
      (c.fld 16 2 % 1024) (c.fld 24 8) s).2.pageErr (bitsOf ((pageEntry (c.fld 16 2 % 1024) (c.fld 24 8) s).2.cohLE
      a 8) 47 16 * 0x10000) false = none ∧ s.xlt.stalls = []) ∧
    (∃ (s : State) (ring : Nat) (c : Cmd), s.headOf ring 7 = some c ∧ s.blockedBy true (c.fld 16 2 % 1024)
      c.invRange.1 c.invRange.2 = false ∧ c.fld 48 4 = 0) ∧
    (∃ (s : State) (ring : Nat) (c : Cmd) (items : List UpdItem), s.headOf ring 7 = some c ∧ s.blockedBy true
      (c.fld 16 2 % 1024) c.invRange.1 c.invRange.2 = false ∧ c.fld 48 4 = items.length ∧ items ≠ [] ∧ s.ringDev
      ring = false ∧ s.attached (s.ringFn ring) = true) ∧
    (∃ (s : State) (ring seq : Nat) (c : Cmd) (i : UpdItem), s.cmdOf ring seq = some c ∧ c.items[c.item]? = some i
      ∧ c.phase = .running ∧ c.kind = 7 ∧ c.replayDue = none ∧ s.blockedBy true (c.fld 16 2 % 1024) (itemSpan i).1
      (itemSpan i).2 = false ∧ itemBad i s = false ∧ itemLevel i = 3 ∧ itemNew i = false) ∧
    (∃ (s : State) (ring seq a : Nat) (c : Cmd) (i : UpdItem), s.cmdOf ring seq = some c ∧ c.items[c.item]? = some
      i ∧ c.phase = .running ∧ c.kind = 7 ∧ c.replayDue = none ∧ s.blockedBy true (c.fld 16 2 % 1024) (itemSpan i).1
      (itemSpan i).2 = false ∧ itemBad i s = false ∧ itemLevel i < 3 ∧ itemNew i = false ∧ itemFault s (c.fld 16 2 %
      1024) (itemLevel i) i.w1.toNat = none ∧ (itemPlace (c.fld 16 2 % 1024) (itemDva i) (itemLevel i) c.item s).1 =
      .found a ∧ (itemPlace (c.fld 16 2 % 1024) (itemDva i) (itemLevel i) c.item s).2.engErr 63 a true = none) ∧
    (∃ (s : State) (ring seq reason : Nat) (c : Cmd) (i : UpdItem), s.cmdOf ring seq = some c ∧ c.items[c.item]? =
      some i ∧ c.phase = .running ∧ c.kind = 7 ∧ c.replayDue = none ∧ s.blockedBy true (c.fld 16 2 % 1024) (itemSpan
      i).1 (itemSpan i).2 = false ∧ itemBad i s = true ∧ c.out = {}) ∧
    (∃ (s : State) (ring seq : Nat) (c : Cmd), s.cmdOf ring seq = some c ∧ c.phase = .running ∧ c.kind = 7 ∧
      c.replayDue = none ∧ c.items.length ≤ c.item ∧ (∀ b ∈ s.blocksOf ring seq, s.rangeBusy b.ctx b.page b.pages =
      false ∧ s.blockedBy true b.ctx b.page b.pages = false) ∧ s.xlt.stalls = []) :=
  ⟨⟨{ ups with
    regs := [(0x0210000, 0x8000000200000000)], sess := [(0, { state := .attached })],
    xlt := { root := [(2, 1)], rootOk := [2], shared := [⟨2, 5, 1, .host, true, true, []⟩] },
    disp := {
        order := 7,
        cmds := [{
            ring := 0, seq := 4,
            desc := 6 :: List.replicate 15 0 ++ leBytes 2 2 ++ [0] ++ List.replicate 5 0 ++ leBytes 8 0x50000 ++ leBytes 8 0x90000 ++ List.replicate 88 0,
            sync := [], regions := [], locals := [], phase := .head }] },
    mem := { bytes := [(0x10000, 1), (0x10002, 2), (0x20000, 1), (0x20002, 3), (0x30028, 4)] } },
      0,
      {
          ring := 0, seq := 4,
          desc := 6 :: List.replicate 15 0 ++ leBytes 2 2 ++ [0] ++ List.replicate 5 0 ++ leBytes 8 0x50000 ++ leBytes 8 0x90000 ++ List.replicate 88 0,
          sync := [], regions := [], locals := [], phase := .head },
      by decide +kernel⟩,
    ⟨{ ups with
    regs := [(0x0210000, 0x8000000200000000)], sess := [(0, { state := .attached })],
    xlt := { root := [(2, 1)], rootOk := [2], shared := [⟨2, 5, 1, .host, true, true, []⟩], blocks := [⟨0, 3, 2, 5, 1⟩] },
    disp := {
        order := 7,
        cmds := [{
            ring := 0, seq := 4,
            desc := 6 :: List.replicate 15 0 ++ leBytes 2 2 ++ [0] ++ List.replicate 5 0 ++ leBytes 8 0x50000 ++ leBytes 8 0x90000 ++ List.replicate 88 0,
            sync := [], regions := [], locals := [], phase := .head }] } },
      0,
      {
          ring := 0, seq := 4,
          desc := 6 :: List.replicate 15 0 ++ leBytes 2 2 ++ [0] ++ List.replicate 5 0 ++ leBytes 8 0x50000 ++ leBytes 8 0x90000 ++ List.replicate 88 0,
          sync := [], regions := [], locals := [], phase := .head },
      by decide +kernel⟩,
    ⟨{ ups with
    regs := [(0x0210000, 0x8000000200000000)], sess := [(0, { state := .attached })],
    xlt := { shared := [⟨2, 0, 1, .dev 0, true, true, []⟩] },
    disp := {
        order := 7,
        cmds := [{
            ring := 0, seq := 4,
            desc := 6 :: List.replicate 15 0 ++ leBytes 2 2 ++ [0] ++ List.replicate 5 0 ++ leBytes 8 0x50000 ++ leBytes 8 0x90000 ++ List.replicate 88 0,
            sync := [], regions := [], locals := [], phase := .head }] } },
      0,
      {
          ring := 0, seq := 4,
          desc := 6 :: List.replicate 15 0 ++ leBytes 2 2 ++ [0] ++ List.replicate 5 0 ++ leBytes 8 0x50000 ++ leBytes 8 0x90000 ++ List.replicate 88 0,
          sync := [], regions := [], locals := [], phase := .head },
      by decide +kernel⟩,
    ⟨{ ups with
    regs := [(0x0210000, 0x8000000200000000)], sess := [(0, { state := .attached })],
    xlt := { root := [(2, 1)], rootOk := [2], shared := [⟨2, 5, 1, .host, true, true, []⟩], blocks := [⟨0, 4, 2, 5, 1⟩] },
    disp := {
        order := 7,
        cmds := [{
            ring := 0, seq := 4,
            desc := 6 :: List.replicate 15 0 ++ leBytes 2 2 ++ [0] ++ List.replicate 5 0 ++ leBytes 8 0x50000 ++ leBytes 8 0x90000 ++ List.replicate 88 0,
            sync := [], regions := [], locals := [], phase := .running,
            units := (List.range 16).map (fun u => ⟨u, 0x1000 * u, true, true⟩) }] },
    mem := { bytes := [(0x10000, 1), (0x10002, 2), (0x20000, 1), (0x20002, 3), (0x30028, 28)] } },
      0, 4, [],
      {
          ring := 0, seq := 4,
          desc := 6 :: List.replicate 15 0 ++ leBytes 2 2 ++ [0] ++ List.replicate 5 0 ++ leBytes 8 0x50000 ++ leBytes 8 0x90000 ++ List.replicate 88 0,
          sync := [], regions := [], locals := [], phase := .running,
          units := (List.range 16).map (fun u => ⟨u, 0x1000 * u, true, true⟩) },
      by decide +kernel⟩,
    ⟨{ ups with
    regs := [(0x0210000, 0x8000000200000000)], sess := [(0, { state := .attached })],
    xlt := { root := [(2, 1)], rootOk := [2], shared := [⟨2, 5, 1, .host, true, true, []⟩], blocks := [⟨0, 4, 2, 5, 1⟩] },
    disp := {
        order := 7,
        cmds := [{
            ring := 0, seq := 4,
            desc := 6 :: List.replicate 15 0 ++ leBytes 2 2 ++ [1] ++ List.replicate 5 0 ++ leBytes 8 0x50000 ++ leBytes 8 0x90000 ++ List.replicate 88 0,
            sync := [], regions := [], locals := [], phase := .running,
            units := (List.range 16).map (fun u => ⟨u, 0x1000 * u, true, true⟩) }] },
    mem := { bytes := [(0x10000, 1), (0x10002, 2), (0x20000, 1), (0x20002, 3), (0x30028, 26), (0x3002A, 9)] },
    hif := { state := 2 } },
      0, 4, 0x30028,
      {
          ring := 0, seq := 4,
          desc := 6 :: List.replicate 15 0 ++ leBytes 2 2 ++ [1] ++ List.replicate 5 0 ++ leBytes 8 0x50000 ++ leBytes 8 0x90000 ++ List.replicate 88 0,
          sync := [], regions := [], locals := [], phase := .running,
          units := (List.range 16).map (fun u => ⟨u, 0x1000 * u, true, true⟩) },
      by decide +kernel⟩,
    ⟨{ ups with
    regs := [(0x0210000, 0x8000000200000000)], sess := [(0, { state := .attached })],
    xlt := { root := [(2, 1)], rootOk := [2], shared := [⟨2, 5, 1, .host, true, true, []⟩] },
    disp := {
        order := 7,
        cmds := [{
            ring := 0, seq := 4,
            desc := 7 :: List.replicate 15 0 ++ leBytes 2 2 ++ List.replicate 6 0 ++ leBytes 8 0x50000 ++ leBytes 8 0x10000 ++ leBytes 8 0x9000 ++ leBytes 4 0 ++ List.replicate 76 0,
            sync := [], regions := [], locals := [], phase := .head }] } },
      0,
      {
          ring := 0, seq := 4,
          desc := 7 :: List.replicate 15 0 ++ leBytes 2 2 ++ List.replicate 6 0 ++ leBytes 8 0x50000 ++ leBytes 8 0x10000 ++ leBytes 8 0x9000 ++ leBytes 4 0 ++ List.replicate 76 0,
          sync := [], regions := [], locals := [], phase := .head },
      by decide +kernel⟩,
    ⟨{ ups with
    regs := [(0x0210000, 0x8000000200000000)], sess := [(0, { state := .attached })],
    xlt := { root := [(2, 1)], rootOk := [2], shared := [⟨2, 5, 1, .host, true, true, []⟩] },
    disp := {
        order := 7,
        cmds := [{
            ring := 0, seq := 4,
            desc := 7 :: List.replicate 15 0 ++ leBytes 2 2 ++ List.replicate 6 0 ++ leBytes 8 0x50000 ++ leBytes 8 0x10000 ++ leBytes 8 0x9000 ++ leBytes 4 1 ++ List.replicate 76 0,
            sync := [], regions := [], locals := [], phase := .head }] } },
      0,
      {
          ring := 0, seq := 4,
          desc := 7 :: List.replicate 15 0 ++ leBytes 2 2 ++ List.replicate 6 0 ++ leBytes 8 0x50000 ++ leBytes 8 0x10000 ++ leBytes 8 0x9000 ++ leBytes 4 1 ++ List.replicate 76 0,
          sync := [], regions := [], locals := [], phase := .head },
      [⟨0x0300000000000000, 0x10000⟩], by decide +kernel⟩,
    ⟨{ ups with
    regs := [(0x0210000, 0x8000000200000000)], sess := [(0, { state := .attached })],
    xlt := { shared := [⟨2, 0, 1, .dev 0, true, true, []⟩] },
    disp := {
        order := 7,
        cmds := [{
            ring := 0, seq := 4,
            desc := 7 :: List.replicate 15 0 ++ leBytes 2 2 ++ List.replicate 6 0 ++ leBytes 8 0x50000 ++ leBytes 8 0x10000 ++ leBytes 8 0x9000 ++ leBytes 4 1 ++ List.replicate 76 0,
            sync := [], regions := [], locals := [], phase := .running, items := [⟨0x0300000000000000, 0x10000⟩] }] } },
      0, 4,
      {
          ring := 0, seq := 4,
          desc := 7 :: List.replicate 15 0 ++ leBytes 2 2 ++ List.replicate 6 0 ++ leBytes 8 0x50000 ++ leBytes 8 0x10000 ++ leBytes 8 0x9000 ++ leBytes 4 1 ++ List.replicate 76 0,
          sync := [], regions := [], locals := [], phase := .running, items := [⟨0x0300000000000000, 0x10000⟩] },
      ⟨0x0300000000000000, 0x10000⟩, by decide +kernel⟩,
    ⟨{ ups with
    regs := [(0x0210000, 0x8000000200000000)], sess := [(0, { state := .attached })],
    xlt := { root := [(2, 1)], rootOk := [2], shared := [⟨2, 5, 1, .host, true, true, []⟩] },
    disp := {
        order := 7,
        cmds := [{
            ring := 0, seq := 4,
            desc := 7 :: List.replicate 15 0 ++ leBytes 2 2 ++ List.replicate 6 0 ++ leBytes 8 0x50000 ++ leBytes 8 0x10000 ++ leBytes 8 0x9000 ++ leBytes 4 1 ++ List.replicate 76 0,
            sync := [], regions := [], locals := [], phase := .running, items := [⟨0x0200000000050000, 0x9001A⟩] }] },
    mem := { bytes := [(0x10000, 1), (0x10002, 2), (0x20000, 1), (0x20002, 3), (0x30028, 28)] } },
      0, 4, 0x30028,
      {
          ring := 0, seq := 4,
          desc := 7 :: List.replicate 15 0 ++ leBytes 2 2 ++ List.replicate 6 0 ++ leBytes 8 0x50000 ++ leBytes 8 0x10000 ++ leBytes 8 0x9000 ++ leBytes 4 1 ++ List.replicate 76 0,
          sync := [], regions := [], locals := [], phase := .running, items := [⟨0x0200000000050000, 0x9001A⟩] },
      ⟨0x0200000000050000, 0x9001A⟩, by decide +kernel⟩,
    ⟨{ ups with
    regs := [(0x0210000, 0x8000000200000000)], sess := [(0, { state := .attached })],
    xlt := { shared := [⟨2, 0, 1, .dev 0, true, true, []⟩] },
    disp := {
        order := 7,
        cmds := [{
            ring := 0, seq := 4,
            desc := 7 :: List.replicate 15 0 ++ leBytes 2 2 ++ List.replicate 6 0 ++ leBytes 8 0x50000 ++ leBytes 8 0x10000 ++ leBytes 8 0x9000 ++ leBytes 4 1 ++ List.replicate 76 0,
            sync := [], regions := [], locals := [], phase := .running, items := [⟨0x4200000000050000, 0x9001A⟩] }] } },
      0, 4, 0,
      {
          ring := 0, seq := 4,
          desc := 7 :: List.replicate 15 0 ++ leBytes 2 2 ++ List.replicate 6 0 ++ leBytes 8 0x50000 ++ leBytes 8 0x10000 ++ leBytes 8 0x9000 ++ leBytes 4 1 ++ List.replicate 76 0,
          sync := [], regions := [], locals := [], phase := .running, items := [⟨0x4200000000050000, 0x9001A⟩] },
      ⟨0x4200000000050000, 0x9001A⟩, by decide +kernel⟩,
    ⟨{ ups with
    regs := [(0x0210000, 0x8000000200000000)], sess := [(0, { state := .attached })],
    xlt := { blocks := [⟨0, 4, 2, 5, 1⟩] },
    disp := {
        order := 7,
        cmds := [{
            ring := 0, seq := 4,
            desc := 7 :: List.replicate 15 0 ++ leBytes 2 2 ++ List.replicate 6 0 ++ leBytes 8 0x50000 ++ leBytes 8 0x10000 ++ leBytes 8 0x9000 ++ leBytes 4 0 ++ List.replicate 76 0,
            sync := [], regions := [], locals := [], phase := .running }] } },
      0, 4,
      {
          ring := 0, seq := 4,
          desc := 7 :: List.replicate 15 0 ++ leBytes 2 2 ++ List.replicate 6 0 ++ leBytes 8 0x50000 ++ leBytes 8 0x10000 ++ leBytes 8 0x9000 ++ leBytes 4 0 ++ List.replicate 76 0,
          sync := [], regions := [], locals := [], phase := .running },
      by decide +kernel⟩⟩

/-- Each clause of OutputsAndCompletion has a state and operands that meet its hypotheses. -/
theorem witness_OutputsAndCompletion :
    (∃ (s s2 s3 : State) (ring seq region dva len dst b : Nat) (c : Cmd), s.cmdOf ring seq = some c ∧ c.ring =
      ring ∧ c.seq = seq ∧ c.kind = 2 ∧ c.outputOf region = some (dva, len, dst) ∧ s.stagedOf ring seq region = none
      ∧ len ≤ s.stageLen ∧ s.stageUsed + len ≤ s.stageLen ∧ stageIn c region (s.ringFn ring) len c.got s = some s2 ∧
      xltPieces ring seq (s.ringCtx ring) dst len true s2 = (some [(0, len, .bus b)], s3) ∧ 0 < len ∧ len ≤ 512 - b
      % 512 ∧ s3.cmdOpen ring seq = true ∧ s3.hif.state = 2) ∧
    (∃ (s : State) (ring seq region : Nat) (x : Staged), s.stagedOf ring seq region = some x ∧ x.left = 0 ∧ x.kept
      = false ∧ s.cmdOf ring seq = none ∧ s.attached x.fn = true) ∧
    (∃ (s : State) (ring seq region : Nat) (x : Staged), s.stagedOf ring seq region = some x ∧ (x.left ≠ 0 ∨
      x.kept = true ∨ s.attached x.fn = false)) ∧
    (∃ (s : State) (ring seq : Nat) (c : Cmd), s.cmdOf ring seq = some c ∧ c.workEnded = true ∧ s.settled c = true
      ∧ s.glb.warmStep = 0 ∧ c.stopped = false ∧ c.discard = false ∧ s.ringCross ring = false ∧ s.blocksOf ring seq
      = []) ∧
    (∃ (s : State) (ring seq : Nat) (c : Cmd) (e : SyncEnt), s.cmdOf ring seq = some c ∧ c.workEnded = true ∧
      s.settled c = true ∧ s.glb.warmStep = 0 ∧ c.stopped = false ∧ c.discard = false ∧ s.ringCross ring = false ∧
      s.blocksOf ring seq = [] ∧ c.signals = [e] ∧ e.op = 0) ∧
    (∃ (s : State) (ring seq : Nat) (c : Cmd), s.cmdOf ring seq = some c ∧ c.workEnded = true ∧ s.settled c = true
      ∧ s.glb.warmStep = 0 ∧ c.stopped = true ∧ c.startedAt ≠ 0 ∧ c.discard = false ∧ s.ringCross ring = false ∧
      s.blocksOf ring seq = []) ∧
    (∃ (s : State) (ring seq : Nat) (c : Cmd), s.cmdOf ring seq = some c ∧ s.settled c = false) ∧
    (∃ (s : State) (ring seq : Nat) (c : Cmd), s.cmdOf ring seq = some c ∧ c.phase = .done ∧ s.reading (.flush
      ring seq) = false ∧ (∀ x ∈ s.hif.cross, x.isFor ring seq = false)) :=
  ⟨⟨{ ups with
    regs := [(0x0210000, 0x8000000200000000)], sess := [(0, { state := .attached })], hif := { state := 2 },
    disp := {
        order := 7,
        cmds := [{
            ring := 0, seq := 4,
            desc := 2 :: List.replicate 15 0 ++ leBytes 8 0x100 ++ leBytes 8 0x240 ++ leBytes 8 64 ++ List.replicate 88 0,
            sync := [], regions := [], locals := [], phase := .running, got := [(0, List.replicate 64 7, false)],
            staging := true }] },
    memc := { stageBase := 0x00BF00000000 },
    xlt := { shared := [⟨2, 0, 1, .host, true, true, [⟨0, 0x5000, true, true⟩]⟩] } },
      ((stageIn
      ({
          ring := 0, seq := 4,
          desc := 2 :: List.replicate 15 0 ++ leBytes 8 0x100 ++ leBytes 8 0x240 ++ leBytes 8 64 ++ List.replicate 88 0,
          sync := [], regions := [], locals := [], phase := .running, got := [(0, List.replicate 64 7, false)],
          staging := true })
      0 0 64 [(0, List.replicate 64 7, false)]
      ({ ups with
          regs := [(0x0210000, 0x8000000200000000)], sess := [(0, { state := .attached })], hif := { state := 2 },
          disp := {
              order := 7,
              cmds := [{
                  ring := 0, seq := 4,
                  desc := 2 :: List.replicate 15 0 ++ leBytes 8 0x100 ++ leBytes 8 0x240 ++ leBytes 8 64 ++ List.replicate 88 0,
                  sync := [], regions := [], locals := [], phase := .running, got := [(0, List.replicate 64 7, false)],
                  staging := true }] },
          memc := { stageBase := 0x00BF00000000 },
          xlt := { shared := [⟨2, 0, 1, .host, true, true, [⟨0, 0x5000, true, true⟩]⟩] } })).getD
      State.reset), ((stageIn
      ({
          ring := 0, seq := 4,
          desc := 2 :: List.replicate 15 0 ++ leBytes 8 0x100 ++ leBytes 8 0x240 ++ leBytes 8 64 ++ List.replicate 88 0,
          sync := [], regions := [], locals := [], phase := .running, got := [(0, List.replicate 64 7, false)],
          staging := true })
      0 0 64 [(0, List.replicate 64 7, false)]
      ({ ups with
          regs := [(0x0210000, 0x8000000200000000)], sess := [(0, { state := .attached })], hif := { state := 2 },
          disp := {
              order := 7,
              cmds := [{
                  ring := 0, seq := 4,
                  desc := 2 :: List.replicate 15 0 ++ leBytes 8 0x100 ++ leBytes 8 0x240 ++ leBytes 8 64 ++ List.replicate 88 0,
                  sync := [], regions := [], locals := [], phase := .running, got := [(0, List.replicate 64 7, false)],
                  staging := true }] },
          memc := { stageBase := 0x00BF00000000 },
          xlt := { shared := [⟨2, 0, 1, .host, true, true, [⟨0, 0x5000, true, true⟩]⟩] } })).getD
      State.reset), 0, 4, 0, 0x100, 64, 0x240, 0x5240,
      {
          ring := 0, seq := 4,
          desc := 2 :: List.replicate 15 0 ++ leBytes 8 0x100 ++ leBytes 8 0x240 ++ leBytes 8 64 ++ List.replicate 88 0,
          sync := [], regions := [], locals := [], phase := .running, got := [(0, List.replicate 64 7, false)],
          staging := true },
      by decide +kernel⟩,
    ⟨{ ups with
    sess := [(0, { state := .attached })],
    hif := {
        staged := [{
            ring := 0, seq := 4, region := 0, fn := 0, bytes := [1], pois := [], left := 0, direct := false,
            kept := false }] } },
      0, 4, 0,
      { ring := 0, seq := 4, region := 0, fn := 0, bytes := [1], pois := [], left := 0, direct := false, kept := false },
      by decide +kernel⟩,
    ⟨{ ups with
    hif := {
        staged := [{
            ring := 0, seq := 4, region := 0, fn := 0, bytes := [1], pois := [], left := 0, direct := false,
            kept := false }] } },
      0, 4, 0,
      { ring := 0, seq := 4, region := 0, fn := 0, bytes := [1], pois := [], left := 0, direct := false, kept := false },
      by decide +kernel⟩,
    ⟨{ ups with
    regs := [(0x0210000, 0x8000000200000000)], sess := [(0, { state := .attached })], hif := { state := 2 },
    disp := {
        order := 7,
        cmds := [{
            ring := 0, seq := 4, desc := 2 :: List.replicate 15 0 ++ List.replicate 112 0, sync := [], regions := [],
            locals := [], phase := .ending }] } },
      0, 4,
      {
          ring := 0, seq := 4, desc := 2 :: List.replicate 15 0 ++ List.replicate 112 0, sync := [], regions := [],
          locals := [], phase := .ending },
      by decide +kernel⟩,
    ⟨{ ups with
    regs := [(0x0210000, 0x8000000200000000)], sess := [(0, { state := .attached })], hif := { state := 2 },
    disp := {
        order := 7,
        cmds := [{
            ring := 0, seq := 4,
            desc := 5 :: List.replicate 15 0 ++ [1] ++ List.replicate 15 0 ++ leBytes 8 3 ++ leBytes 2 6 ++ List.replicate 86 0,
            sync := [], regions := [], locals := [], phase := .ending, startedAt := 1 }] } },
      0, 4,
      {
          ring := 0, seq := 4,
          desc := 5 :: List.replicate 15 0 ++ [1] ++ List.replicate 15 0 ++ leBytes 8 3 ++ leBytes 2 6 ++ List.replicate 86 0,
          sync := [], regions := [], locals := [], phase := .ending, startedAt := 1 },
      ⟨6, 0, 3, false⟩, by decide +kernel⟩,
    ⟨{ ups with
    regs := [(0x0210000, 0x8000000200000000)], sess := [(0, { state := .attached })], hif := { state := 2 },
    disp := {
        order := 7,
        cmds := [{
            ring := 0, seq := 4, desc := 2 :: List.replicate 15 0 ++ List.replicate 112 0, sync := [], regions := [],
            locals := [], phase := .ending, stopped := true, startedAt := 1,
            ckpt := [⟨0x1000, 64, [(0x1000, 9)], [], [], []⟩] }] } },
      0, 4,
      {
          ring := 0, seq := 4, desc := 2 :: List.replicate 15 0 ++ List.replicate 112 0, sync := [], regions := [],
          locals := [], phase := .ending, stopped := true, startedAt := 1,
          ckpt := [⟨0x1000, 64, [(0x1000, 9)], [], [], []⟩] },
      by decide +kernel⟩,
    ⟨{ ups with
    regs := [(0x0210000, 0x8000000200000000)], sess := [(0, { state := .attached })], hif := { state := 2 },
    disp := {
        order := 7,
        cmds := [{
            ring := 0, seq := 4, desc := 2 :: List.replicate 15 0 ++ List.replicate 112 0, sync := [], regions := [],
            locals := [], phase := .ending }] },
    hub := { outst := [⟨63, 1, 33, .write, 0, 64, .cmd 0 4 0, 1, false⟩] } },
      0, 4,
      {
          ring := 0, seq := 4, desc := 2 :: List.replicate 15 0 ++ List.replicate 112 0, sync := [], regions := [],
          locals := [], phase := .ending },
      by decide +kernel⟩,
    ⟨{ ups with
    regs := [(0x0210000, 0x8000000200000000)], sess := [(0, { state := .attached })], hif := { state := 2 },
    disp := {
        order := 7,
        cmds := [{
            ring := 0, seq := 4, desc := 2 :: List.replicate 15 0 ++ List.replicate 112 0, sync := [], regions := [],
            locals := [], phase := .done }] } },
      0, 4,
      {
          ring := 0, seq := 4, desc := 2 :: List.replicate 15 0 ++ List.replicate 112 0, sync := [], regions := [],
          locals := [], phase := .done },
      by decide +kernel⟩⟩

/-- Each clause of RecordsAndRings has a state and operands that meet its hypotheses. -/
theorem witness_RecordsAndRings :
    (∃ (s : State) (ring : Nat) (c : Cmd), s.disp.cmds.find? (fun x => x.ring == ring && x.phase != .written &&
      x.phase != .held) = some c ∧ c.phase = .done ∧ s.ringCross ring = false ∧ s.ringDev ring = false ∧ s.attached
      (s.ringFn ring) = true ∧ s.hif.state = 2) ∧
    (∃ (s : State) (ring : Nat) (c : Cmd), s.disp.cmds.find? (fun x => x.ring == ring && x.phase != .written &&
      x.phase != .held) = some c ∧ c.phase = .done ∧ s.ringCross ring = false ∧ s.ringDev ring = false ∧ s.attached
      (s.ringFn ring) = false) ∧
    (∃ (s : State) (ring : Nat) (c : Cmd), s.disp.cmds.find? (fun x => x.ring == ring && x.phase != .written &&
      x.phase != .held) = some c ∧ c.phase = .done ∧ s.ringCross ring = false ∧ s.ringDev ring = true ∧ s.engErr 63
      (s.recAt ring c.seq) true = none) ∧
    (∃ (s : State) (who : Agent) (ring : Nat), ring < 4096 ∧ s.hostGate who = true ∧ ownFn who (s.ringFn ring) =
      true) ∧
    (∃ (s : State) (who : Agent) (ring : Nat), ring < 4096 ∧ ownFn who (s.ringFn ring) = false) ∧
    (∃ (s : State) (who : Agent) (ring : Nat), ring < 4096 ∧ s.hostGate who = true ∧ ownFn who (s.ringFn ring) =
      true ∧ s.ringEn ring = false ∧ s.ctxValid (s.ringCtx ring) = true ∧ s.ringDev ring = false) ∧
    (∃ (s : State) (who : Agent) (ring : Nat), ring < 4096 ∧ s.hostGate who = true ∧ ownFn who (s.ringFn ring) =
      true ∧ s.ringEn ring = false ∧ s.ctxValid (s.ringCtx ring) = false) ∧
    (∃ (s : State) (who : Agent) (ring : Nat), ring < 4096 ∧ s.hostGate who = true ∧ ownFn who (s.ringFn ring) =
      true) ∧
    (∃ (s : State) (who : Agent) (ring : Nat), ring < 4096 ∧ s.hostGate who = true ∧ ownFn who (s.ringFn ring) =
      true ∧ s.ringState ring = 0) ∧
    (∃ (s : State) (who : Agent) (ring : Nat), ring < 4096 ∧ s.hostGate who = true ∧ ownFn who (s.ringFn ring) =
      true ∧ s.ringState ring ≠ 0) ∧
    (∃ (s : State) (who : Agent) (ctx : Nat) (v : Word), ctx < 1024 ∧ s.hostGate who = true ∧ isPf0OrCore who =
      true ∧ (bitOf v.toNat 31 = true ∨ s.ctxBusy ctx = false)) ∧
    (∃ (s : State) (who : Agent) (ctx : Nat) (v : Word), ctx < 1024 ∧ s.hostGate who = true ∧ isPf0OrCore who =
      true ∧ bitOf v.toNat 31 = false ∧ s.ctxValid ctx = true ∧ s.ctxBusy ctx = true) ∧
    (∃ (s : State) (fn vec : Nat), vecOk fn vec = true ∧ satAdd 4095 (look {} s.msix (vecKey fn vec)).gathered 1 <
      max 1 (s.regFld (coalReg fn vec) 27 16)) ∧
    (∃ (s : State) (fn vec : Nat), vecOk fn vec = true ∧ (look {} s.msix (vecKey fn vec)).unmasked = true ∧ max 1
      (s.regFld (coalReg fn vec) 27 16) ≤ satAdd 4095 (look {} s.msix (vecKey fn vec)).gathered 1 ∧ (s.sessOf
      fn).state ≠ .held ∧ s.glb.ready = true ∧ s.hif.state = 2) ∧
    (∃ (s : State) (fn vec : Nat), vecOk fn vec = true ∧ s.regFld (coalReg fn vec) 11 0 ≠ 0 ∧ (look {} s.msix
      (vecKey fn vec)).gathered ≠ 0 ∧ (look {} s.msix (vecKey fn vec)).unmasked = false) ∧
    (∃ (s : State) (fn vec : Nat), vecOk fn vec = true ∧ (look {} s.msix (vecKey fn vec)).pba = true ∧ (s.sessOf
      fn).state ≠ .held ∧ s.glb.ready = true ∧ s.hif.state = 2) :=
  ⟨⟨{ ups with
    regs := [(0x0210000, 0x8000000200000000)], sess := [(0, { state := .attached })], hif := { state := 2 },
    disp := {
        order := 7,
        cmds := [{
            ring := 0, seq := 4, desc := 2 :: List.replicate 15 0 ++ List.replicate 112 0, sync := [], regions := [],
            locals := [], phase := .done }] } },
      0,
      {
          ring := 0, seq := 4, desc := 2 :: List.replicate 15 0 ++ List.replicate 112 0, sync := [], regions := [],
          locals := [], phase := .done },
      by decide +kernel⟩,
    ⟨{ ups with
    regs := [(0x0210000, 0x8000000200000000)], sess := [], hif := { state := 2 },
    disp := {
        order := 7,
        cmds := [{
            ring := 0, seq := 4, desc := 2 :: List.replicate 15 0 ++ List.replicate 112 0, sync := [], regions := [],
            locals := [], phase := .done }] } },
      0,
      {
          ring := 0, seq := 4, desc := 2 :: List.replicate 15 0 ++ List.replicate 112 0, sync := [], regions := [],
          locals := [], phase := .done },
      by decide +kernel⟩,
    ⟨{ ups with
    regs := [(0x0210000, 0xC000000200000000), (0x0210018, 0x3000)], sess := [(0, { state := .attached })],
    hif := { state := 2 },
    disp := {
        order := 7,
        cmds := [{
            ring := 0, seq := 4, desc := 2 :: List.replicate 15 0 ++ List.replicate 112 0, sync := [], regions := [],
            locals := [], phase := .done }] } },
      0,
      {
          ring := 0, seq := 4, desc := 2 :: List.replicate 15 0 ++ List.replicate 112 0, sync := [], regions := [],
          locals := [], phase := .done },
      by decide +kernel⟩,
    ⟨{ ups with disp := { ring := [(0, { fulls := 3 })] } }, .core 1, 0, by decide +kernel⟩,
    ⟨ups, .host 1, 0, by decide +kernel⟩,
    ⟨{ ups with regs := [(0x0200080, 0x80000000), (0x0210000, 0x200000000)] }, .core 1, 0, by decide +kernel⟩,
    ⟨ups, .core 1, 0, by decide +kernel⟩,
    ⟨{ ups with
    regs := [(0x0210000, 0x8000000200000000)], sess := [(0, { state := .attached })], hif := { state := 2 },
    disp := {
        order := 7,
        cmds := [{
            ring := 0, seq := 4, desc := 2 :: List.replicate 15 0 ++ List.replicate 112 0, sync := [], regions := [],
            locals := [], phase := .done }] } },
      .core 1, 0, by decide +kernel⟩,
    ⟨{ ups with disp := { ring := [(0, { acc := 3, fulls := 2 })] } }, .core 1, 0, by decide +kernel⟩,
    ⟨{ ups with
    regs := [(0x0210000, 0x8000000200000000)], sess := [(0, { state := .attached })], hif := { state := 2 },
    disp := {
        order := 7,
        cmds := [{
            ring := 0, seq := 4, desc := 2 :: List.replicate 15 0 ++ List.replicate 112 0, sync := [], regions := [],
            locals := [], phase := .done }] } },
      .core 1, 0, by decide +kernel⟩,
    ⟨ups, .core 1, 2, 0x80030000, by decide +kernel⟩,
    ⟨{ ups with regs := [(0x0200080, 0x80000000), (0x0210000, 0x8000000200000000)] }, .core 1, 2, 0,
      by decide +kernel⟩,
    ⟨{ ups with regs := [(0x0101018, 0x00050000)] }, 0, 3, by decide +kernel⟩,
    ⟨{ ups with glb := { ready := true }, hif := { state := 2 }, msix := [(3, { unmasked := true })] }, 0, 3,
      by decide +kernel⟩,
    ⟨{ ups with regs := [(0x0101018, 0x00050005)], msix := [(3, { gathered := 2 })] }, 0, 3, by decide +kernel⟩,
    ⟨{ ups with glb := { ready := true }, hif := { state := 2 }, msix := [(3, { pba := true })] }, 0, 3,
      by decide +kernel⟩⟩

/-- Each clause of TimeoutsAndReplay has a state and operands that meet its hypotheses. -/
theorem witness_TimeoutsAndReplay :
    (∃ (s : State) (ring seq : Nat) (c : Cmd), s.cmdOf ring seq = some c ∧ s.arraysHeld = false ∧ c.phase = .head
      ∧ c.out = {}) ∧
    (∃ (s : State) (ring seq : Nat) (c : Cmd), s.cmdOf ring seq = some c ∧ s.arraysHeld = true) ∧
    (∃ (s : State) (ring seq reason dva : Nat) (c : Cmd), s.cmdOf ring seq = some c ∧ s.arraysHeld = false ∧
      c.phase = .running ∧ c.kind ≠ 1 ∧ s.stallOf c = some (reason, dva) ∧ reason ≠ 0 ∧ c.out = {}) ∧
    (∃ (s : State) (ring seq : Nat) (c : Cmd) (p : Part), s.disp.cmds = [c] ∧ c.ring = ring ∧ c.seq = seq ∧
      s.arraysHeld = false ∧ c.timed = true ∧ s.stallOf c = none ∧ c.sentPut = false ∧ c.replays < 4 ∧ c.parts = [p]
      ∧ p.ended = false ∧ s.fenced p.pos = false) ∧
    (∃ (s : State) (pos : Nat), pos ≤ 32 ∧ (s.tileOf pos).resetting = true ∧ s.linkReady pos = true ∧
      s.recentResets pos < 3 ∧ wfTable {} s.tile = true) ∧
    (∃ (s : State) (pos : Nat), pos ≤ 32 ∧ (s.tileOf pos).resetting = true ∧ s.siteFailed pos = false) ∧
    (∃ (s : State) (ring seq : Nat) (c : Cmd), s.cmdOf ring seq = some c ∧ s.replayReady c = true ∧ (c.phase =
      .running ∨ c.phase = .head) ∧ (c.kind ≠ 1 ∨ c.phase = .head)) ∧
    (∃ (s s2 : State) (ring seq : Nat) (c : Cmd), s.cmdOf ring seq = some c ∧ c.ring = ring ∧ c.seq = seq ∧
      s.replayReady c = true ∧ c.phase = .running ∧ c.kind = 1 ∧ s.noRoom c c.count = false ∧ placeCmd c.anew
      c.count (replayBegin c s) = some s2) ∧
    (∃ (s : State) (ring seq : Nat) (c : Cmd), s.cmdOf ring seq = some c ∧ s.replayReady c = true ∧ c.phase =
      .running ∧ c.kind = 1 ∧ s.noRoom c c.count = true ∧ c.out = {}) ∧
    (∃ (s : State) (ring seq : Nat) (c : Cmd) (p : Part), s.cmdOf ring seq = some c ∧ c.suspect = true ∧
      c.replayDue = none ∧ c.phase = .running ∧ s.arraysHeld = false ∧ c.parts = [p] ∧ p.ended = false ∧ c.out = {}) ∧
    (∃ (s : State) (m k : Nat), m < 2 ∧ s.mirrorStack m = some k) ∧
    (∃ (s : State) (m : Nat), m < 2 ∧ s.mirrorStack m = none) ∧
    (∃ (s : State) (pos n : Nat), pos < 32 ∧ s.siteFailed pos = false ∧ s.tileAt pos = some n ∧ look 0 s.glb.site
      32 = 1) ∧
    (∃ (s : State) (pos n : Nat), pos ≤ 32 ∧ s.siteFailed pos = false ∧ s.tileAt pos = some n ∧ look 0 s.glb.site
      32 ≠ 1) ∧
    (∃ (s : State) (pos : Nat), pos < 32 ∧ (s.tileOf pos).resetting = true ∧ s.linkReady pos = true ∧ wfTable {}
      s.tile = true) ∧
    (∃ (s : State) (pos : Nat), pos ≤ 32 ∧ (s.tileOf pos).resetting = true ∧ s.siteFailed pos = false) :=
  ⟨⟨{ ups with
    regs := [(0x0210000, 0x8000000200000000)], sess := [(0, { state := .attached })], hif := { state := 2 },
    disp := {
        order := 7,
        cmds := [{
            ring := 0, seq := 4, desc := 2 :: List.replicate 15 0 ++ List.replicate 112 0, sync := [], regions := [],
            locals := [], phase := .head }] },
    boot := { } },
      0, 4,
      {
          ring := 0, seq := 4, desc := 2 :: List.replicate 15 0 ++ List.replicate 112 0, sync := [], regions := [],
          locals := [], phase := .head },
      by decide +kernel⟩,
    ⟨{ ups with
    regs := [(0x0210000, 0x8000000200000000)], sess := [(0, { state := .attached })], hif := { state := 2 },
    disp := {
        order := 7,
        cmds := [{
            ring := 0, seq := 4, desc := 2 :: List.replicate 15 0 ++ List.replicate 112 0, sync := [], regions := [],
            locals := [], phase := .head }] },
    boot := { pwrbrk := true } },
      0, 4,
      {
          ring := 0, seq := 4, desc := 2 :: List.replicate 15 0 ++ List.replicate 112 0, sync := [], regions := [],
          locals := [], phase := .head },
      by decide +kernel⟩,
    ⟨{ ups with
    regs := [(0x0210000, 0x8000000200000000)], sess := [(0, { state := .attached })], hif := { state := 2 },
    disp := {
        order := 7,
        cmds := [{
            ring := 0, seq := 4, desc := 2 :: List.replicate 15 0 ++ List.replicate 112 0, sync := [], regions := [],
            locals := [], phase := .running }] },
    boot := { }, xlt := { stalls := [⟨2, 5, 1, [⟨.cmd 0 4, 0x50000, true⟩]⟩] } },
      0, 4, 1, 0x50000,
      {
          ring := 0, seq := 4, desc := 2 :: List.replicate 15 0 ++ List.replicate 112 0, sync := [], regions := [],
          locals := [], phase := .running },
      by decide +kernel⟩,
    ⟨{ ups with
    regs := [(0x0210000, 0x8000000200000000)], sess := [(0, { state := .attached })], hif := { state := 2 },
    disp := {
        order := 7,
        cmds := [{
            ring := 0, seq := 4,
            desc := 1 :: List.replicate 15 0 ++ List.replicate 32 0 ++ leBytes 8 0x1100 ++ List.replicate 72 0, sync := [],
            regions := [], locals := [], phase := .running, startedAt := 2, parts := [⟨0, 0, 0, 1, false⟩] }] },
    boot := { } },
      0, 4,
      {
          ring := 0, seq := 4,
          desc := 1 :: List.replicate 15 0 ++ List.replicate 32 0 ++ leBytes 8 0x1100 ++ List.replicate 72 0, sync := [],
          regions := [], locals := [], phase := .running, startedAt := 2, parts := [⟨0, 0, 0, 1, false⟩] },
      ⟨0, 0, 0, 1, false⟩, by decide +kernel⟩,
    ⟨{ ups with tile := [(3, { resetting := true })] }, 3, by decide +kernel⟩,
    ⟨{ ups with tile := [(3, { resetting := true })] }, 3, by decide +kernel⟩,
    ⟨{ ups with
    regs := [(0x0210000, 0x8000000200000000)], sess := [(0, { state := .attached })], hif := { state := 2 },
    disp := {
        order := 7,
        cmds := [{
            ring := 0, seq := 4,
            desc := 2 :: List.replicate 15 0 ++ List.replicate 32 0 ++ leBytes 8 0x1100 ++ List.replicate 72 0, sync := [],
            regions := [], locals := [], phase := .running, startedAt := 2, replayDue := some 4, stopped := true,
            count := 2 }] } },
      0, 4,
      {
          ring := 0, seq := 4,
          desc := 2 :: List.replicate 15 0 ++ List.replicate 32 0 ++ leBytes 8 0x1100 ++ List.replicate 72 0, sync := [],
          regions := [], locals := [], phase := .running, startedAt := 2, replayDue := some 4, stopped := true,
          count := 2 },
      by decide +kernel⟩,
    ⟨{ State.reset with
    disp := {
        cmds := [{
            ring := 0, seq := 4,
            desc := 1 :: List.replicate 15 0 ++ List.replicate 32 0 ++ leBytes 8 0x1100 ++ List.replicate 72 0, sync := [],
            regions := [], locals := [], phase := .running, startedAt := 2, replayDue := some 4, stopped := true,
            count := 2 }] } },
      ((placeCmd (Cmd.anew
      ({
          ring := 0, seq := 4,
          desc := 1 :: List.replicate 15 0 ++ List.replicate 32 0 ++ leBytes 8 0x1100 ++ List.replicate 72 0, sync := [],
          regions := [], locals := [], phase := .running, startedAt := 2, replayDue := some 4, stopped := true,
          count := 2 }))
      2 (replayBegin
      ({
          ring := 0, seq := 4,
          desc := 1 :: List.replicate 15 0 ++ List.replicate 32 0 ++ leBytes 8 0x1100 ++ List.replicate 72 0, sync := [],
          regions := [], locals := [], phase := .running, startedAt := 2, replayDue := some 4, stopped := true,
          count := 2 })
      ({ State.reset with
          disp := {
              cmds := [{
                  ring := 0, seq := 4,
                  desc := 1 :: List.replicate 15 0 ++ List.replicate 32 0 ++ leBytes 8 0x1100 ++ List.replicate 72 0,
                  sync := [], regions := [], locals := [], phase := .running, startedAt := 2, replayDue := some 4,
                  stopped := true, count := 2 }] } }))).getD
      State.reset), 0, 4,
      {
          ring := 0, seq := 4,
          desc := 1 :: List.replicate 15 0 ++ List.replicate 32 0 ++ leBytes 8 0x1100 ++ List.replicate 72 0, sync := [],
          regions := [], locals := [], phase := .running, startedAt := 2, replayDue := some 4, stopped := true,
          count := 2 },
      by decide +kernel⟩,
    ⟨{ State.reset with
    glb := { tilemap := [] },
    disp := {
        cmds := [{
            ring := 0, seq := 4,
            desc := 1 :: List.replicate 15 0 ++ List.replicate 32 0 ++ leBytes 8 0x1100 ++ List.replicate 72 0, sync := [],
            regions := [], locals := [], phase := .running, startedAt := 2, replayDue := some 4, stopped := true,
            count := 2 }] } },
      0, 4,
      {
          ring := 0, seq := 4,
          desc := 1 :: List.replicate 15 0 ++ List.replicate 32 0 ++ leBytes 8 0x1100 ++ List.replicate 72 0, sync := [],
          regions := [], locals := [], phase := .running, startedAt := 2, replayDue := some 4, stopped := true,
          count := 2 },
      by decide +kernel⟩,
    ⟨{ ups with
    regs := [(0x0210000, 0x8000000200000000)], sess := [(0, { state := .attached })], hif := { state := 2 },
    disp := {
        order := 7,
        cmds := [{
            ring := 0, seq := 4,
            desc := 1 :: List.replicate 15 0 ++ List.replicate 32 0 ++ leBytes 8 0x1100 ++ List.replicate 72 0, sync := [],
            regions := [], locals := [], phase := .running, startedAt := 2, suspect := true,
            parts := [⟨0, 0, 0, 1, false⟩] }] },
    boot := { } },
      0, 4,
      {
          ring := 0, seq := 4,
          desc := 1 :: List.replicate 15 0 ++ List.replicate 32 0 ++ leBytes 8 0x1100 ++ List.replicate 72 0, sync := [],
          regions := [], locals := [], phase := .running, startedAt := 2, suspect := true, parts := [⟨0, 0, 0, 1, false⟩] },
      ⟨0, 0, 0, 1, false⟩, by decide +kernel⟩,
    ⟨ups, 1, 8, by decide +kernel⟩,
    ⟨{ ups with stack := (List.range 8).map (fun i => (i, { state := 2 })) }, 0, by decide +kernel⟩,
    ⟨{ ups with glb := { site := [(32, 1)], tilemap := [some 0, some 1] } }, 1, 1, by decide +kernel⟩,
    ⟨{ ups with glb := { tilemap := [some 0, some 1] } }, 1, 1, by decide +kernel⟩,
    ⟨{ ups with tile := [(3, { resetting := true })] }, 3, by decide +kernel⟩,
    ⟨{ ups with tile := [(3, { resetting := true })] }, 3, by decide +kernel⟩⟩

/-- Each clause of RanoaLink has a state and operands that meet its hypotheses. -/
theorem witness_RanoaLink :
    (∃ (s : State) (port lseq i : Nat), (s.rportOf port).state = 2 ∧ (s.rportOf port).wait = [] ∧ (s.rportOf
      port).replay.findIdx? (fun e => e.1 == lseq) = some i) ∧
    (∃ (s : State) (port vc n : Nat), (s.rportOf port).state = 2 ∧ (s.rportOf port).wait = []) ∧
    (∃ (s : State) (port corrected : Nat), (s.rportOf port).state = 2) ∧
    (∃ (s : State) (port : Nat), (s.rportOf port).state = 2 ∧ (s.rportOf port).wait = []) ∧
    (∃ (s : State) (port uncorr : Nat) (hdr : BitVec 256) (body : List Byte) (crc : BitVec 32), (s.rportOf
      port).state = 2 ∧ rFind (s.rportOf port) hdr body crc uncorr ≠ .taken) ∧
    (∃ (s : State) (port : Nat), (s.rportOf port).state = 2 ∧ (s.rportOf port).replay ≠ [] ∧ (s.rportOf
      port).resends < 7) ∧
    (∃ (s : State) (port : Nat), (s.rportOf port).state = 2 ∧ (s.rportOf port).replay ≠ [] ∧ (s.rportOf
      port).resends = 7) ∧
    (∃ (s : State) (port : Nat), (s.rportOf port).state = 2) ∧
    (∃ (s : State) (port : Nat), (s.rportOf port).state = 2 ∧ (s.rportOf port).puts ≠ []) ∧
    (∃ (s : State) (port : Nat), port < 8 ∧ (s.rportOf port).state = 0 ∧ (s.rportOf port).wait = [] ∧ s.boot.rail
      = true ∧ s.siteFailed (rDie port) = false ∧ (s.rportOf port).usable ≠ 0) ∧
    (∃ (s : State) (port serial peer lanes : Nat), (s.rportOf port).state = 1 ∧ peer < 8) ∧
    (∃ (s : State) (port lane : Nat), lane < 8 ∧ (s.rportOf port).state = 2 ∧ (s.rportOf port).badTx = [] ∧
      (s.rportOf port).badRx = [] ∧ (s.rportOf port).wait = []) ∧
    (∃ (s : State) (port lane : Nat), 4 ≤ lane ∧ lane < 8 ∧ (s.rportOf port).state = 2 ∧ (s.rportOf port).badTx =
      [0]) ∧
    (∃ (s : State) (die port : Nat), die < 2 ∧ s.siteFailed (58 + die) = false ∧ s.fenced (58 + die) = false ∧ 4 *
      die ≤ port ∧ port < 4 * die + 4 ∧ wfTable {} s.rna.port = true) :=
  ⟨⟨{ ups with
    rna := {
        port := [(2, {
            state := 2, cred := rCredits, lanes := 8,
            replay := [(4, ⟨.putAck, false, 0, 0, 5, 0, 0, [], []⟩), (5, ⟨.putAck, false, 0, 0, 5, 0, 0, [], []⟩)] })] } },
      2, 4, 0, by decide +kernel⟩,
    ⟨{ ups with rna := { port := [(2, { state := 2, cred := [(0, 3)] })] } }, 2, 0, 4, by decide +kernel⟩,
    ⟨{ ups with rna := { port := [(2, { state := 2, cred := rCredits, lanes := 8 })] } }, 2, 3, by decide +kernel⟩,
    ⟨{ ups with rna := { port := [(2, { state := 2, cred := rCredits, lanes := 8 })] } }, 2, by decide +kernel⟩,
    ⟨{ ups with rna := { port := [(2, { state := 2, cred := rCredits, lanes := 8 })] } }, 2, 1, 0, [], 0,
      by decide +kernel⟩,
    ⟨{ ups with
    rna := {
        port := [(2, {
            state := 2, cred := rCredits, lanes := 8, replay := [(4, ⟨.putAck, false, 0, 0, 5, 0, 0, [], []⟩)] })] } },
      2, by decide +kernel⟩,
    ⟨{ ups with
    rna := {
        port := [(2, {
            state := 2, cred := rCredits, lanes := 8, resends := 7,
            replay := [(4, ⟨.putAck, false, 0, 0, 5, 0, 0, [], []⟩)] })] } },
      2, by decide +kernel⟩,
    ⟨{ ups with
    rna := {
        port := [(2, {
            state := 2, cred := rCredits, lanes := 8,
            puts := [(4, ⟨.write, 0, 58, 7, 0xA00000000000, false, List.replicate 64 7, [], 0⟩)] })] } },
      2, by decide +kernel⟩,
    ⟨{ ups with
    rna := {
        port := [(2, {
            state := 2, cred := rCredits, lanes := 8,
            puts := [(4, ⟨.write, 0, 58, 7, 0xA00000000000, false, List.replicate 64 7, [], 0⟩)] })] } },
      2, by decide +kernel⟩,
    ⟨{ ups with rna := { port := [(2, { nextTid := 1 })] }, boot := { rail := true } }, 2, by decide +kernel⟩,
    ⟨{ ups with rna := { port := [(2, { state := 1, psnTx := 9 })] } }, 2, 77, 1, 8, by decide +kernel⟩,
    ⟨{ ups with rna := { port := [(2, { state := 2, cred := rCredits, lanes := 8 })] } }, 2, 5, by decide +kernel⟩,
    ⟨{ ups with rna := { port := [(2, { state := 2, cred := rCredits, lanes := 8, badTx := [0] })] } }, 2, 5,
      by decide +kernel⟩,
    ⟨{ ups with rna := { port := [(2, { state := 2, cred := rCredits, lanes := 8 })] } }, 0, 2, by decide +kernel⟩⟩

/-- Each clause of RanoaOperations has a state and operands that meet its hypotheses. -/
theorem witness_RanoaOperations :
    (∃ (s : State) (port reason : Nat) (r : RPkt), port < 8 ∧ (s.rportOf port).state = 2 ∧ s.rwinFor port r.offset
      r.payload.length true = .inl reason) ∧
    (∃ (s : State) (port i a dst : Nat) (r : RPkt) (e : TlbEnt), r.payload.length = 64 ∧ r.checks = [crc32c
      r.payload] ∧ port < 8 ∧ (s.rportOf port).state = 2 ∧ s.rwinFor port r.offset r.payload.length true = .inr i ∧
      (s.rwinAt i).dva + (r.offset - (s.rwinAt i).off) < 2 ^ 55 ∧ ((s.rwinAt i).dva + (r.offset - (s.rwinAt i).off))
      % 64 = 0 ∧ tlbFind (s.rwinAt i).ctx (((s.rwinAt i).dva + (r.offset - (s.rwinAt i).off)) / 0x10000) (s.tlbOf
      (.ranoa (rDie port - 58))) = some e ∧ e.ans ((s.rwinAt i).dva + (r.offset - (s.rwinAt i).off)) true = .hit
      (.dev a) ∧ s.zone a = .direct ∧ a % 64 = 0 ∧ s.targetOf a = some dst ∧ s.fenced (rDie port) = false ∧ s.fenced
      dst = false ∧ s.mayIssue (rDie port)) ∧
    (∃ (s : State) (port i a dst : Nat) (r : RPkt) (e : TlbEnt), r.payload.length = 80 ∧ r.checks = [crc32c
      (r.payload.take 64)] ∧ port < 8 ∧ (s.rportOf port).state = 2 ∧ s.rwinFor port r.offset 64 true = .inr i ∧
      (s.rwinAt i).dva + (r.offset - (s.rwinAt i).off) < 2 ^ 55 ∧ ((s.rwinAt i).dva + (r.offset - (s.rwinAt i).off))
      % 64 = 0 ∧ tlbFind (s.rwinAt i).ctx (((s.rwinAt i).dva + (r.offset - (s.rwinAt i).off)) / 0x10000) (s.tlbOf
      (.ranoa (rDie port - 58))) = some e ∧ e.ans ((s.rwinAt i).dva + (r.offset - (s.rwinAt i).off)) true = .hit
      (.dev a) ∧ s.zone a = .direct ∧ a % 64 = 0 ∧ s.targetOf a = some dst ∧ s.fenced (rDie port) = false ∧ s.fenced
      dst = false ∧ s.mayIssue (rDie port)) ∧
    (∃ (s : State) (port reason : Nat) (r : RPkt), port < 8 ∧ (s.rportOf port).state = 2 ∧ (s.rportOf port).rxWait
      = [] ∧ s.counted = [] ∧ s.rwinFor port r.offset (16 * r.rdLen) false = .inl reason) ∧
    (∃ (s : State) (port i a dst : Nat) (r : RPkt) (e : TlbEnt), port < 8 ∧ (s.rportOf port).state = 2 ∧
      (s.rportOf port).rxWait = [] ∧ s.counted = [] ∧ s.rwinFor port r.offset (16 * r.rdLen) false = .inr i ∧
      r.rdLen = 4 ∧ (s.rwinAt i).dva + (r.offset - (s.rwinAt i).off) < 2 ^ 55 ∧ ((s.rwinAt i).dva + (r.offset -
      (s.rwinAt i).off)) % 64 = 0 ∧ tlbFind (s.rwinAt i).ctx (((s.rwinAt i).dva + (r.offset - (s.rwinAt i).off)) /
      0x10000) (s.tlbOf (.ranoa (rDie port - 58))) = some e ∧ e.ans ((s.rwinAt i).dva + (r.offset - (s.rwinAt
      i).off)) false = .hit (.dev a) ∧ s.zone a = .direct ∧ s.targetOf a = some dst ∧ s.fenced (rDie port) = false ∧
      s.fenced dst = false ∧ s.mayIssue (rDie port)) ∧
    (∃ (s : State) (port : Nat) (r : RPkt), port < 8 ∧ (s.rportOf port).state = 2 ∧ (s.rportOf port).rxWait = [] ∧
      s.psnCounted port < (s.rportOf port).psnRx) ∧
    (∃ (s : State) (port : Nat) (r : RPkt) (p : Pkt), (s.rportOf port).state = 2 ∧ (s.rportOf port).gets.find?
      (fun g => g.tid == r.tid && g.data.isNone) = some ⟨r.tid, p, p.addr % 2 ^ 44, 64, none⟩ ∧ (s.rportOf
      port).gets.filter (fun g => g.isOf p) = [⟨r.tid, p, p.addr % 2 ^ 44, 64, none⟩] ∧ (∀ g ∈ (s.rportOf
      port).gets, g.tid = r.tid → g.isOf p = true) ∧ p.op = .read ∧ p.addr % 16 = 0 ∧ p.rdLen = 64 ∧
      r.payload.length = 64 ∧ r.checks = [crc32c r.payload] ∧ s.fenced p.src = false ∧ s.fenced p.dst = false ∧
      (p.src, p.tid) ∉ s.hub.dropped) ∧
    (∃ (s : State) (port k : Nat) (r : RPkt) (p : Pkt), (s.rportOf port).state = 2 ∧ (s.rportOf port).puts = [(k,
      p)] ∧ k < r.psn ∧ s.fenced p.src = false ∧ s.fenced p.dst = false ∧ (p.src, p.tid) ∉ s.hub.dropped) ∧
    (∃ (s : State) (port k : Nat) (r : RPkt) (p : Pkt), (s.rportOf port).state = 2 ∧ (s.rportOf port).puts = [(k,
      p)] ∧ r.tid = 0 ∧ r.psn = k ∧ s.fenced p.src = false ∧ s.fenced p.dst = false ∧ (p.src, p.tid) ∉
      s.hub.dropped) ∧
    (∃ (s : State) (port : Nat), (s.rportOf port).state = 2 ∧ s.psnCounted port ≠ (s.rportOf port).ackSent) ∧
    (∃ (s : State) (id o : Nat) (c : Counted), s.counted.find? (fun d => d.id == id) = some c ∧ s.countable c =
      true ∧ c.obj = some o ∧ c.window = none ∧ s.syncReady 57 o = true ∧ (s.withCounted (s.counted.filter (fun d =>
      d.id != id))).syncNow 57 o 0 (BitVec.ofNat 64 c.add) .plain) ∧
    (∃ (s : State) (id : Nat) (c : Counted), s.counted.find? (fun d => d.id == id) = some c ∧ s.countable c =
      false) :=
  ⟨⟨{ ups with rna := { port := [(2, { state := 2, cred := rCredits, lanes := 8 })] } }, 2, 1, ⟨.put, false, 0,
      0, 6, 0, 0, List.replicate 64 7, [crc32c (List.replicate 64 7)]⟩, by decide +kernel⟩,
    ⟨{ ups with
    rna := {
        port := [(2, { state := 2, cred := rCredits, lanes := 8 })],
        tlb := [(0, [⟨2, 5, 1, .dev 0x70000, true, true, []⟩])] },
    regs := [(0x0805000, 0xB000000000000000), (0x0805008, 0x50000), (0x0805010, 0x0000000009003000)] },
      2, 512, 0x70000, 33, ⟨.put, false, 0, 0, 6, 0, 0, List.replicate 64 7, [crc32c (List.replicate 64 7)]⟩, ⟨2, 5,
      1, .dev 0x70000, true, true, []⟩, by decide +kernel⟩,
    ⟨{ ups with
    rna := {
        port := [(2, { state := 2, cred := rCredits, lanes := 8 })],
        tlb := [(0, [⟨2, 5, 1, .dev 0x70000, true, true, []⟩])] },
    regs := [(0x0805000, 0xB000000000000000), (0x0805008, 0x50000), (0x0805010, 0x0000000009003000)] },
      2, 512, 0x70000, 33, ⟨.putMasked, false, 0, 0, 6, 0, 0, List.replicate 64 7 ++ leBytes 8 3 ++ List.replicate 8
      0, [crc32c (List.replicate 64 7)]⟩, ⟨2, 5, 1, .dev 0x70000, true, true, []⟩, by decide +kernel⟩,
    ⟨{ ups with rna := { port := [(2, { state := 2, cred := rCredits, lanes := 8 })] } }, 2, 1, ⟨.getReq, false,
      0, 9, 0, 0, 4, [], []⟩, by decide +kernel⟩,
    ⟨{ ups with
    rna := {
        port := [(2, { state := 2, cred := rCredits, lanes := 8 })],
        tlb := [(0, [⟨2, 5, 1, .dev 0x70000, true, true, []⟩])] },
    regs := [(0x0805000, 0xB000000000000000), (0x0805008, 0x50000), (0x0805010, 0x0000000009003000)] },
      2, 512, 0x70000, 33, ⟨.getReq, false, 0, 9, 0, 0, 4, [], []⟩, ⟨2, 5, 1, .dev 0x70000, true, true, []⟩,
      by decide +kernel⟩,
    ⟨{ ups with
    rna := { port := [(2, { state := 2, cred := rCredits, lanes := 8, psnRx := 7 })] },
    counted := [⟨3, some 6, 64, 1, none, some (2, 6), some 512⟩] },
      2, ⟨.getReq, false, 0, 9, 0, 0, 4, [], []⟩, by decide +kernel⟩,
    ⟨{ ups with
    rna := {
        port := [(2, {
            state := 2, cred := rCredits, lanes := 8,
            gets := [⟨9, ⟨.read, 0, 58, 7, 0xA00000000000, false, [], [], 64⟩, 0x0, 64, none⟩] })] } },
      2, ⟨.getData, false, 0, 9, 0, 0, 0, List.replicate 64 7, [crc32c (List.replicate 64 7)]⟩, ⟨.read, 0, 58, 7,
      0xA00000000000, false, [], [], 64⟩, by decide +kernel⟩,
    ⟨{ ups with
    rna := {
        port := [(2, {
            state := 2, cred := rCredits, lanes := 8,
            puts := [(4, ⟨.write, 0, 58, 7, 0xA00000000000, false, List.replicate 64 7, [], 0⟩)] })] } },
      2, 4, ⟨.putAck, false, 0, 0, 5, 0, 0, [], []⟩, ⟨.write, 0, 58, 7, 0xA00000000000, false, List.replicate 64 7,
      [], 0⟩, by decide +kernel⟩,
    ⟨{ ups with
    rna := {
        port := [(2, {
            state := 2, cred := rCredits, lanes := 8,
            puts := [(4, ⟨.write, 0, 58, 7, 0xA00000000000, false, List.replicate 64 7, [], 0⟩)] })] } },
      2, 4, ⟨.err, false, 3, 0, 4, 0, 0, [], []⟩, ⟨.write, 0, 58, 7, 0xA00000000000, false, List.replicate 64 7, [],
      0⟩, by decide +kernel⟩,
    ⟨{ ups with rna := { port := [(2, { state := 2, cred := rCredits, lanes := 8, psnRx := 7 })] } }, 2,
      by decide +kernel⟩,
    ⟨{ ups with counted := [⟨3, some 6, 64, 0, some 1, none, none⟩] }, 3, 6, ⟨3, some 6, 64, 0, some 1, none,
      none⟩, by decide +kernel⟩,
    ⟨{ ups with counted := [⟨3, some 6, 64, 1, some 1, none, none⟩] }, 3, ⟨3, some 6, 64, 1, some 1, none, none⟩,
      by decide +kernel⟩⟩

/-- Each clause of PowerLoops has a state and operands that meet its hypotheses. -/
theorem witness_PowerLoops :
    (∃ (s : State) (watts : Nat), s.devQual = false ∧ s.arraysHeld = false ∧ s.overCap watts = true) ∧
    (∃ (s : State) (watts : Nat), s.devQual = false ∧ s.arraysHeld = false ∧ s.thermal = false ∧ 100 * watts < 95
      * s.effCap ∧ s.pwr.lowered = false) ∧
    (∃ (s : State) (watts : Nat), (s.devQual = true ∨ s.arraysHeld = true)) ∧
    (∃ (s : State) (watts vin : Nat), s.devQual = false ∧ s.arraysHeld = false ∧ s.mode ≠ 0 ∧ 0 < s.pwr.idle ∧ 99
      ≤ s.pwr.idleHigh ∧ 99 ≤ s.pwr.sinceStep ∧ s.pwr.div < 96) ∧
    (∃ (s : State) (watts vin : Nat), s.devQual = false ∧ s.arraysHeld = false ∧ s.mode ≠ 0 ∧ s.pwr.idle = 0 ∧ vin
      < 65536 ∧ 100 * watts ≤ 92 * (s.withBoot { s.boot with vin := vin }).effCap ∧ 99 ≤ s.pwr.idleZero ∧ 99 ≤
      s.pwr.sinceStep ∧ s.setpoint < s.pwr.div ∧ s.thermal = false ∧ s.group = 0) ∧
    (∃ (s : State) (watts vin : Nat), (s.devQual = true ∨ s.arraysHeld = true)) ∧
    (∃ (s : State) (floor : Nat), floor < 65536 ∧ s.reqCap < floor ∧ s.pwr.belowFloor = false) ∧
    (∃ (s : State) (floor : Nat), floor < 65536 ∧ floor ≤ s.reqCap ∧ 99 ≤ s.pwr.floorOk) ∧
    (∃ (s : State) (who : Agent) (v : Word), s.hostGate who = true ∧ isPf0OrCore who = true ∧ s.devQual = false ∧
      s.mode = 1 ∧ v &&& 0x3#64 = 2#64 ∧ s.group = 0 ∧ wfTable {} s.cdie = true) ∧
    (∃ (s : State) (who : Agent) (v : Word), s.hostGate who = true ∧ isPf0OrCore who = true) ∧
    (∃ (s : State) (who : Agent) (v : Word), s.hostGate who = true ∧ isPf0OrCore who = false) :=
  ⟨⟨{ ups with
    glb := { ready := true }, boot := { vin := 36000 }, ivory := { hard := 256, board := 256 },
    pwr := { div := 48, idle := 2 } },
      6000, by decide +kernel⟩,
    ⟨{ ups with
    glb := { ready := true }, boot := { vin := 36000 }, ivory := { hard := 256, board := 256 },
    pwr := { div := 48, idle := 2 } },
      3000, by decide +kernel⟩,
    ⟨{ ups with boot := { pwrbrk := true }, glb := { ready := true } }, 9000, by decide +kernel⟩,
    ⟨{ ups with
    glb := { ready := true }, boot := { vin := 36000 }, ivory := { hard := 256, board := 256 },
    pwr := { div := 48, idle := 2, idleHigh := 99, sinceStep := 99 } },
      6000, 36000, by decide +kernel⟩,
    ⟨{ ups with
    glb := { ready := true }, boot := { vin := 36000 }, ivory := { hard := 256, board := 256 },
    pwr := { div := 60, idle := 0, idleZero := 99, sinceStep := 99 } },
      3000, 36000, by decide +kernel⟩,
    ⟨ups, 3000, 36000, by decide +kernel⟩,
    ⟨{ ups with
    glb := { ready := true }, boot := { vin := 36000 }, ivory := { hard := 256, board := 256 }, pwr := { div := 48 },
    regs := [(0x0500008, 0x3C)] },
      1875, by decide +kernel⟩,
    ⟨{ ups with
    glb := { ready := true }, boot := { vin := 36000 }, ivory := { hard := 256, board := 256 },
    pwr := { div := 48, floorOk := 99, belowFloor := true } },
      1875, by decide +kernel⟩,
    ⟨{ ups with glb := { ready := true } }, .core 1, 0xE#64, by decide +kernel⟩,
    ⟨{ ups with glb := { ready := true } }, .host 0, 0x123400F0#64, by decide +kernel⟩,
    ⟨{ ups with glb := { ready := true } }, .host 3, 0x123400F0#64, by decide +kernel⟩⟩

/-- Each clause of GroupsHintsAndTemperatures has a state and operands that meet its hypotheses. -/
theorem witness_GroupsHintsAndTemperatures :
    (∃ (s : State) (who : Agent) (v : Word), s.hostGate who = true ∧ isPf0OrCore who = true ∧ (s.setReg 0x0500030
      (v &&& 0xFFFF0F13#64)).group ≠ s.group) ∧
    (∃ (s : State) (port : Nat) (m : SbMsg), port < 8 ∧ (s.rportOf port).state = 2 ∧ m.group = s.group ∧ s.group ≠
      0 ∧ m.hops < 8 ∧ (m.origin, m.seq) ∉ s.rna.seenSb ∧ m.type = 1 ∧ (m.bal == 1) = s.criticalPath ∧ s.devQual =
      true) ∧
    (∃ (s : State) (port : Nat) (m : SbMsg), port < 8 ∧ (s.rportOf port).state = 2 ∧ m.group = s.group ∧ s.group ≠
      0 ∧ m.hops < 8 ∧ (m.origin, m.seq) ∉ s.rna.seenSb ∧ m.type = 1 ∧ (m.bal == 1) ≠ s.criticalPath) ∧
    (∃ (s : State) (port : Nat) (m : SbMsg), (8 ≤ m.hops ∨ m.group ≠ s.group ∨ m.type ≠ 1 ∨ (m.origin, m.seq) ∈
      s.rna.seenSb)) ∧
    (∃ (s : State) (busy : Nat), s.group ≠ 0) ∧
    (∃ (s : State) (origin : Nat), origin ≠ s.origin32 ∧ (∃ m ∈ s.pwr.members, m.origin = origin)) ∧
    (∃ (s : State) (tile c : Nat), hintClass (look [] s.pwr.hints tile) = some c ∧ (s.devQual = true ∨ c < 2)) ∧
    (∃ (s : State) (tile : Nat), (look [] s.pwr.hints tile).length = 1 ∧ wfTable [] s.pwr.hints = true ∧ wfTable
      none s.pwr.phase = true) ∧
    (∃ (s : State), s.vinOut = false) ∧
    (∃ (s : State), s.vinOut = false) ∧
    (∃ (s : State) (p x : Nat), p < 64 ∧ s.warnAt p ≤ x ∧ x < tripAt p ∧ look 0 s.pwr.temp p < s.warnAt p ∧ x ≠ 0) ∧
    (∃ (s : State) (p x : Nat), p < 64 ∧ tripAt p ≤ x) ∧
    (∃ (s : State) (die : Nat), die < 4 ∧ wfTable {} s.cdie = true ∧ s.devQual = false ∧ look false s.pwr.throttle
      (53 + die) = true) :=
  ⟨⟨{ ups with pwr := { members := [⟨7, 48, 100, 200, 50, false⟩] }, glb := { ready := true } }, .core 1,
      0x50000, by decide +kernel⟩,
    ⟨{ ups with
    rna := { port := [(2, { state := 2 }), (3, { state := 2, cred := rCredits, lanes := 8 })] },
    regs := [(0x0500030, 0x50000)] },
      2,
      {
          type := 1, hops := 2, group := 5, origin := 77, seq := 9, div := 60, power := 100, cap := 200, busy := 50,
          crit := true, bal := 0 },
      by decide +kernel⟩,
    ⟨{ ups with
    rna := { port := [(2, { state := 2 }), (3, { state := 2, cred := rCredits, lanes := 8 })] },
    regs := [(0x0500030, 0x50000)] },
      2,
      {
          type := 1, hops := 2, group := 5, origin := 77, seq := 9, div := 60, power := 100, cap := 200, busy := 50,
          crit := true, bal := 1 },
      by decide +kernel⟩,
    ⟨{ ups with
    rna := { port := [(2, { state := 2 }), (3, { state := 2, cred := rCredits, lanes := 8 })] },
    regs := [(0x0500030, 0x50000)] },
      2,
      {
          type := 1, hops := 8, group := 5, origin := 77, seq := 9, div := 60, power := 100, cap := 200, busy := 50,
          crit := true, bal := 0 },
      by decide +kernel⟩,
    ⟨{ ups with
    rna := { port := [(2, { state := 2 }), (3, { state := 2, cred := rCredits, lanes := 8 })] },
    regs := [(0x0500030, 0x50000)] },
      40, by decide +kernel⟩,
    ⟨{ ups with
    rna := { port := [(2, { state := 2 }), (3, { state := 2, cred := rCredits, lanes := 8 })] },
    regs := [(0x0500030, 0x50000)], pwr := { members := [⟨7, 48, 100, 200, 50, false⟩] } },
      7, by decide +kernel⟩,
    ⟨{ ups with pwr := { hints := [(4, [⟨1, 100⟩, ⟨0, 200⟩])] } }, 4, 1, by decide +kernel⟩,
    ⟨{ ups with pwr := { hints := [(4, [⟨1, 100⟩])], phase := [(4, some 1)] } }, 4, by decide +kernel⟩,
    ⟨{ ups with boot := { phase := .ready } }, by decide +kernel⟩,
    ⟨{ ups with boot := { phase := .ready, pwrbrk := true } }, by decide +kernel⟩,
    ⟨ups, 34, 96, by decide +kernel⟩,
    ⟨ups, 34, 106, by decide +kernel⟩,
    ⟨{ ups with pwr := { throttle := [(54, true)] }, glb := { ready := true } }, 1, by decide +kernel⟩⟩

/-- An empty queue occurs. -/
theorem witness_StepRunsTheFrontCommand : State.reset.pending = [] := rfl

/-- A state with a canonical memory, and a step from it. -/
theorem witness_MemoryStaysCanonical : ∃ s t : State, s.memOk ∧ step s = .next t ∧ t.memOk :=
  ⟨State.reset, idleTick State.reset, rfl, rfl, rfl⟩

/-- A step from reset. -/
theorem witness_IdentityHolds : ∃ s t : State, step s = .next t := ⟨State.reset, idleTick State.reset, rfl⟩

/-- A command and a state it answers in. -/
theorem witness_StepStaysInItsFrame : ∃ (c : Instr) (rest : List Instr) (s t : State),
    step (s.withPending (c :: rest)) = .next t :=
  ⟨.pwrbrkNAssert, [], State.reset, State.reset, rfl⟩

/-- Formats of each kind, and sums that fit, lie below and lie above. -/
theorem witness_NumberFormats :
    (∃ e : Nat, e < 256) ∧ (∃ a b : Fmt, a.roleM = true ∧ b.roleM = true ∧ (a = .fp64 ∨ b = .fp64)) ∧
    (∃ a b : Fmt, a.roleM = true ∧ b.roleM = true ∧ a ∈ [Fmt.int16, .int8, .int4, .trn] ∧ b ∈ [Fmt.int16, .int8, .int4, .trn]) ∧
    (∃ a b : Fmt, a.roleM = true ∧ b.roleM = true ∧ a ≠ .fp64 ∧ b ≠ .fp64 ∧
      ¬(a ∈ [Fmt.int16, .int8, .int4, .trn] ∧ b ∈ [Fmt.int16, .int8, .int4, .trn] ∧ false = false)) ∧
    (∃ (acc : BitVec 32) (sum : Int), -2 ^ 31 ≤ acc.toInt + sum ∧ acc.toInt + sum < 2 ^ 31) ∧
    (∃ (acc : BitVec 32) (sum : Int), acc.toInt + sum < -2 ^ 31) ∧ (∃ (acc : BitVec 32) (sum : Int), 2 ^ 31 ≤ acc.toInt + sum) :=
  ⟨⟨255, by decide⟩, ⟨.fp64, .int8, by decide⟩, ⟨.trn, .int16, by decide⟩, ⟨.fp16, .int8, by decide⟩,
    ⟨5, 3, by decide⟩, ⟨0x80000000, -1, by decide⟩, ⟨0x7FFFFFFF, 1, by decide⟩⟩

/-- Each clause of RanoaStreamsStartAfresh has a state and operands that meet its hypotheses. -/
theorem witness_RanoaStreamsStartAfresh :
    (∃ (s : State) (port serial peer lanes : Nat), (s.rportOf port).state = 1 ∧ peer < 8) ∧
    (∃ (s : State) (port : Nat), (s.rportOf port).state = 2) ∧
    (∃ (s : State) (port : Nat), port < 8 ∧ (s.rportOf port).state = 3 ∧ (s.rportOf port).wait = [] ∧ s.boot.rail
      = true ∧ s.siteFailed (rDie port) = false ∧ (s.rportOf port).usable ≠ 0) :=
  ⟨⟨{ ups with rna := { port := [(2, { state := 1, psnTx := 9 })] } }, 2, 77, 1, 8, by decide +kernel⟩,
    ⟨{ ups with rna := { port := [(2, { state := 2, replay := [(4, ⟨.putAck, false, 0, 0, 5, 0, 0, [], []⟩)] })] } },
      2, by decide +kernel⟩,
    ⟨{ ups with rna := { port := [(2, { state := 3 })] }, boot := { rail := true } }, 2, by decide +kernel⟩⟩

/-- A memory with a poisoned sector, and addresses outside a write. -/
theorem witness_PoisonInMemory : (∃ (r : Ram) (n : Nat), r.isPoison n = true) ∧ (∃ a n : Nat, a / 64 ≠ n) ∧
    (∃ (a b : Nat) (bs : List Byte), a < b ∨ b + bs.length ≤ a) ∧
    (∃ a n mask : Nat, a / 64 ≠ n ∨ bitOf mask (a % 64) = false) :=
  ⟨⟨{ poison := [(3, 1)] }, 3, by decide⟩, ⟨64, 0, by decide⟩, ⟨5, 3, [1#8, 2#8], by decide⟩, ⟨5, 0, 0xDF, by decide⟩⟩

/-- Each clause of OtherEntriesStay has a state and operands that meet its hypotheses. -/
theorem witness_OtherEntriesStay :
    (∃ (s : State) (p : Pkt), p.op = .write ∧ s.serves p) ∧
    (∃ (s : State) (p : Pkt), p.op = .writeMasked ∧ s.serves p ∧ p.checks.head? = some (crc32c (p.payload.take
      64)) ∧ s.mem.ckBad (sectorOf p.addr) = false) ∧
    (∃ (s : State) (p : Pkt) (size : Nat), s.serves (withAop p 1) ∧ (size = 4 ∨ size = 8) ∧ leAt (withAop p
      1).payload 9 1 = size ∧ p.addr % size = 0 ∧ s.mem.ckBad (sectorOf p.addr) = false) ∧
    (∃ (s : State) (src tid obj : Nat) (v : Word), src ≠ 63 ∧ obj < 8192 ∧ s.seenTid 63 src tid = false ∧ s.fenced
      src = false ∧ (src, tid) ∉ s.hub.dropped) ∧
    (∃ (s : State) (src tid obj : Nat) (v : Word), src ≠ 63 ∧ obj < 8192 ∧ s.seenTid 63 src tid = false ∧ s.fenced
      src = false ∧ (src, tid) ∉ s.hub.dropped) ∧
    (∃ (s : State) (src tid obj : Nat) (v : Word), src ≠ 63 ∧ obj < 8192 ∧ s.seenTid 63 src tid = false ∧ s.fenced
      src = false) ∧
    (∃ (s : State) (src tid obj : Nat) (v : Word), src ≠ 63 ∧ obj < 8192 ∧ s.seenTid 63 src tid = false ∧ s.fenced
      src = false) ∧
    (∃ (s : State) (who : Agent) (obj : Nat) (v : Word), s.hostGate who = true ∧ s.mayObj who obj = true) ∧
    (∃ (s : State) (who : Agent) (v : Word), s.hostGate who = true ∧ isPf0OrCore who = true) ∧
    (∃ (s : State) (who : Agent) (v : Word), s.hostGate who = true ∧ isPf0OrCore who = true) ∧
    (∃ (s : State) (who : Agent) (v : Word), s.hostGate who = true ∧ isPf0OrCore who = true) ∧
    (∃ (s : State) (who : Agent) (i : Nat) (v : Word), i < 2048 ∧ s.hostGate who = true ∧ isPf0OrCore who = true) ∧
    (∃ (s : State) (port : Nat) (sd : Side), s.portUp port = true ∧ port ≠ 63) ∧
    (∃ (s : State) (port : Nat) (sd : Side) (hdr : BitVec 128) (body : List Byte) (crc : BitVec 32), (s.linkOf
      port).state = 2 ∧ port ≤ 62) ∧
    (∃ (s : State) (port : Nat), (s.rportOf port).state = 2 ∧ (s.rportOf port).wait = []) ∧
    (∃ (s : State) (die : Nat), die < 4) :=
  ⟨⟨ups, ⟨.write, 1, 33, 7, 0, false, List.replicate 64 5, [], 64⟩, by decide +kernel⟩,
    ⟨ups, ⟨.writeMasked, 1, 33, 7, 0, false, List.replicate 64 5 ++ leBytes 8 3 ++ List.replicate 8 0, [crc32c
      (List.replicate 64 5)], 0⟩, by decide +kernel⟩,
    ⟨ups, ⟨.atomic, 1, 33, 7, 0, false, [5, 0, 0, 0, 0, 0, 0, 0, 1, 8, 0, 0, 0, 0, 0, 0], [], 0⟩, 8,
      by decide +kernel⟩,
    ⟨{ ups with sync := [(5, { val := 4 }), (6, { val := 9 })] }, 1, 7, 5, 3, by decide +kernel⟩,
    ⟨{ ups with sync := [(5, { val := 4 }), (6, { val := 9 })] }, 1, 7, 5, 3, by decide +kernel⟩,
    ⟨{ ups with sync := [(5, { val := 4 }), (6, { val := 9 })] }, 1, 7, 5, 3, by decide +kernel⟩,
    ⟨{ ups with sync := [(5, { val := 4 }), (6, { val := 9 })] }, 1, 7, 5, 3, by decide +kernel⟩,
    ⟨{ ups with sync := [(5, { val := 4 }), (6, { val := 9 })] }, .core 1, 5, 3, by decide +kernel⟩,
    ⟨ups, .core 1, 2, by decide +kernel⟩,
    ⟨ups, .core 1, 2, by decide +kernel⟩,
    ⟨ups, .core 1, 2, by decide +kernel⟩,
    ⟨ups, .core 1, 512, 2, by decide +kernel⟩,
    ⟨{ ups with link := [(1, { state := 2 })] }, 1, .die, by decide +kernel⟩,
    ⟨{ ups with link := [(1, { state := 2 })] }, 1, .die, 0, [], 0, by decide +kernel⟩,
    ⟨{ ups with rna := { port := [(2, { state := 2 })] } }, 2, by decide +kernel⟩,
    ⟨ups, 1, by decide +kernel⟩⟩

/-- A module in recovery, one before READY, and entries of the tables of shipment. -/
theorem witness_RegisterReads :
    State.reset.glb.ready = false ∧ State.reset.vfReads 3 0x808 = false ∧ ({ phase := .recovery } : Boot).phase = .recovery ∧
    (isPf0OrCore (.core 0) = true ∧ State.reset.hostGate (.core 0) = true ∧ State.reset.posOf 5 = some 5) ∧
    ({ State.reset with glb := { State.reset.glb with tilemap := [none] } } : State).posOf 0 = none ∧
    ({ State.reset with glb := { State.reset.glb with manifest := [⟨0x41, 0x31, 0xF⟩] } } : State).glb.manifest[0]? = some ⟨0x41, 0x31, 0xF⟩ := by
  decide +kernel

end
end Sys2Proof.Machine
end

section
/-!
O51. Every command answers a next state, but for those that take tile code or a program header: these may also stop at
a reserved field that is set (00 R9; that they stop there is the model's choice, log 6). Most commands are a next state
by their definition. Tile code goes through the two shared ways an instruction is issued, `seqIssue` and `queueIssue`,
each with one law here; HINT, PROGRAM_HEADER_READ and the retirement of a flash block branch by themselves.
-/
namespace Sys2Proof.Machine

/-- An outcome of a command that takes tile code or a program header: a next state, or the stop at a reserved field. -/
def AnswersOrStops (r : Res) : Prop := (∃ t, r = .next t) ∨ r = .fault .reservedNonzero

theorem AnswersOrStops.next (t : State) : AnswersOrStops (.next t) := .inl ⟨t, rfl⟩

/-- A command that stops when `c` holds, a reserved field being set, and else does `r`. -/
theorem AnswersOrStops.stopIf {c : Prop} [Decidable c] {r : Res} (hr : AnswersOrStops r) :
    AnswersOrStops (if c then .fault .reservedNonzero else r) := by
  split
  · exact .inr rfl
  · exact hr

/-- A command that has the next state `t` when `c` holds, and else does `r`. -/
theorem AnswersOrStops.nextIf {c : Prop} [Decidable c] {t : State} {r : Res} (hr : AnswersOrStops r) :
    AnswersOrStops (if c then .next t else r) := by
  split
  · exact .next t
  · exact hr

/-- A control or scalar instruction, whatever its effect `f`, stops at reserved bits only. -/
theorem seqIssue_answersOrStops (pos slot opc : Nat) (f : Slot → BitVec 128 → SeqRes) (s : State) :
    AnswersOrStops (seqIssue pos slot opc f s) := by
  unfold seqIssue
  split
  · exact .next _
  · exact .stopIf (.nextIf (.next _))

/-- An instruction that enters its queue, whatever its checks and captures, stops at reserved bits only. -/
theorem queueIssue_answersOrStops (pos slot opc : Nat) (q : Queue) (chk : Slot → BitVec 128 → Option Nat)
    (cap : Slot → BitVec 128 → List Word × List LayReg) (conv : BitVec 128 → Bool) (s : State) :
    AnswersOrStops (queueIssue pos slot opc q chk cap conv s) := by
  unfold queueIssue
  split
  · exact .next _
  · exact .stopIf (.nextIf (.next _))

/-- An instruction of the vector unit enters its queue. -/
theorem vecIssue_answersOrStops (pos slot opc : Nat) (conv : Bool) (s : State) :
    AnswersOrStops (vecIssue pos slot opc conv s) := queueIssue_answersOrStops ..

/-- A move enters its queue. -/
theorem moveIssue_answersOrStops (pos slot opc : Nat) (s : State) : AnswersOrStops (moveIssue pos slot opc s) :=
  queueIssue_answersOrStops ..

/-- HINT is issued in the state with its hint noted. -/
theorem execHint_answersOrStops (pos slot : Nat) (s : State) : AnswersOrStops (execHint pos slot s) := by
  unfold execHint
  split
  · exact .next _
  · exact seqIssue_answersOrStops ..

/-- The read of a program header stops at a reserved field of the header only. -/
theorem execProgramHeaderRead_answersOrStops (pos slot : Nat) (hdr : List Byte) (s : State) :
    AnswersOrStops (execProgramHeaderRead pos slot hdr s) := by
  unfold execProgramHeaderRead
  split
  · exact .next _
  · refine .nextIf ?_
    split
    · exact .next _
    · dsimp only
      split
      · exact .next _
      · exact .stopIf (.next _)

/-- The retirement of a flash block answers, whether it changes the die or not (09 R313). -/
theorem execBadBlockRetire_answers (die block repl spare : Nat) (s : State) :
    ∃ t, execBadBlockRetire die block repl spare s = .next t := by
  unfold execBadBlockRetire
  split
  · exact ⟨_, rfl⟩
  · exact ⟨_, rfl⟩

/-- The commands that take tile code or a program header. -/
theorem exec_answersOrStops {c : Instr} (hc : readsCode c = true) (s : State) : AnswersOrStops (exec c s) := by
  cases c with
  | nop | li | alu | alui | br | jmp | loop | lset | ladd | lcpy | rdstat | clrstat | rdctl | wrctl | sysrd | fence | exit =>
    unfold exec
    exact seqIssue_answersOrStops ..
  | hint pos slot => exact execHint_answersOrStops pos slot s
  | mma | mdrain | signal | rsignal | wait | tokset | tokwait =>
    unfold exec
    exact queueIssue_answersOrStops ..
  | vld | vst | vop | vops | vcmp | vmask | vred | vsfu | vcvt =>
    unfold exec
    exact vecIssue_answersOrStops ..
  | load | store | gather | scatteradd | xpref | put | get =>
    unfold exec
    exact moveIssue_answersOrStops ..
  | programHeaderRead pos slot hdr => exact execProgramHeaderRead_answersOrStops pos slot hdr s
  | _ => cases hc

/-- Every other command: but for the retirement of a flash block, its definition is a next state. -/
theorem exec_answers {c : Instr} (hc : readsCode c = false) (s : State) : ∃ t, exec c s = .next t := by
  cases c with
  | nop | li | alu | alui | br | jmp | loop | lset | ladd | lcpy | rdstat | clrstat | rdctl | wrctl | sysrd | fence | exit
  | hint | mma | mdrain | vld | vst | vop | vops | vcmp | vmask | vred | vsfu | vcvt | load | store | gather | scatteradd
  | xpref | put | get | signal | rsignal | wait | tokset | tokwait | programHeaderRead => cases hc
  | badBlockRetire die block repl spare => exact execBadBlockRetire_answers die block repl spare s
  | _ => exact ⟨_, rfl⟩

/-- Settles O51: by whether the command takes tile code or a program header. -/
theorem everyCommandAnswers : Obligations.EveryCommandAnswers := by
  intro c s
  cases hc : readsCode c with
  | true => exact (exec_answersOrStops hc s).imp_right fun hstop => ⟨rfl, hstop⟩
  | false => exact .inl (exec_answers hc s)

end Sys2Proof.Machine
end

section
/-!
O13 and O45, both refuted. Each has a clause that leaves out a condition of the rule it states. The state of each refutation
is one that the manual describes, and the command takes effect in it.
-/
namespace Sys2Proof.Machine

/-! ## A retrain in which the two sides advertise different widths -/

/-- Stack 4's link on port 37 as the example of chapter 02 has it: in epoch 5, declared down with its rings calibrated, and one
waveguide has left it after three failed lanes (02 R51, R52). -/
def stackLinkDown : State :=
  { State.reset with link := [(37, { state := 1, epoch := 5, lanes := [(0, 3)], calibrated := true })] }

/-- What a fast retrain asks of the link: 15 of its 16 waveguides are left. -/
theorem stackLinkDown_mayRetrain :
    stackLinkDown.mayTrain 37 = true ∧ (stackLinkDown.linkOf 37).calibrated = true ∧
      (stackLinkDown.linkOf 37).fenced = false ∧ stackLinkDown.usable 37 = 15 := by
  decide

/-- The base die advertises 15 waveguides and the hub 16: the link is up at 15 in epoch 6, and the hub's advertised width is
kept as it came (02 R53). -/
theorem fastRetrainDone_stackLinkDown {t : State} (h : exec (.fastRetrainDone 37 15 16) stackLinkDown = .next t) :
    (t.linkOf 37).state = 2 ∧ (t.linkOf 37).width = 15 ∧ (t.linkOf 37).epoch = 6 ∧ (t.linkOf 37).advHub = 16 := by
  cases h
  decide +kernel

/-- Refutes O13: the clause on the fast retrain records each advertised width cut to the usable one, but only the smaller of
the two is bound by it. In the manual's own example the hub, which has not seen the lanes fail, advertises 16 where 15 are usable,
and 16 is what the link records. -/
theorem not_linkStates : ¬ Obligations.LinkStates := by
  rintro ⟨-, hretrain, -⟩
  obtain ⟨htrain, hcal, hfence, husable⟩ := stackLinkDown_mayRetrain
  have hwidth : 15 = min (min 15 (stackLinkDown.usable 37)) (min 16 (stackLinkDown.usable 37)) := by rw [husable]; decide
  obtain ⟨t, hexec, -, -, -, -, hadv, -⟩ := hretrain stackLinkDown 37 15 16 15 htrain hcal hfence hwidth (by decide)
  obtain ⟨-, -, -, hsixteen⟩ := fastRetrainDone_stackLinkDown hexec
  rw [husable, hsixteen] at hadv
  exact absurd hadv (by decide)

/-! ## A hang of a command that poisoned data has entered -/

/-- A RUN of one part, on tile 0, into which a poisoned sector of stack 0 has come (16 R556). -/
def taintedRun : Cmd :=
  { ring := 0, seq := 0, desc := [1#8], sync := [], regions := [], locals := [], phase := .running
    parts := [⟨0, 0, 0, 0, false⟩], taint := some { status := 0x05, port := some 33, region := 0xE } }

/-- The module while that RUN is the only command. -/
def taintedRunning : State := { State.reset with disp := { State.reset.disp with cmds := [taintedRun] } }

/-- When its timeout ends, the tainted RUN ends: it is no suspect and no replay of it is due (16 R556). -/
theorem runTimeoutSuspect_taintedRunning {t : State} (h : exec (.runTimeoutSuspect 0 0) taintedRunning = .next t) :
    (t.cmdOf 0 0).map Cmd.phase = some .ending ∧
      (t.cmdOf 0 0).map (fun x => (x.suspect, x.replayDue, x.stopped)) = some (false, none, true) := by
  cases h
  decide +kernel

/-- Refutes O45: the clause on the timeout of a running RUN makes every such RUN a suspect that waits for its replay, but one
that poisoned data has entered is not replayed, because the same inputs give the same poison (16 R556; row 7 of R567 is tested
before the others). -/
theorem not_timeoutsAndReplay : ¬ Obligations.TimeoutsAndReplay := by
  rintro ⟨-, -, -, hsuspect, -⟩
  obtain ⟨t, hexec, hreplay, -⟩ := hsuspect taintedRunning 0 0 taintedRun ⟨0, 0, 0, 0, false⟩ rfl rfl rfl
    (by decide) (by decide) (by decide) rfl (by decide) rfl rfl (by decide)
  obtain ⟨-, hended⟩ := runTimeoutSuspect_taintedRunning hexec
  rw [hended] at hreplay
  exact absurd hreplay (by decide)

end Sys2Proof.Machine
end

section
/-!
The senders of the links (02 R41 to R48), and O12. While packets go on their ways a sender does no more to its replay buffer than add
to it, so that what an acknowledgement or a new epoch leaves there stays when the link goes on.
-/
namespace Sys2Proof.Machine

/-! ## Links whose senders go on -/

/-- A link after some of its senders have sent: nothing but the senders differs, and each has kept its replay buffer and added to
it (02 R46). -/
def LinkSt.GrowsTo (l m : LinkSt) : Prop :=
  ∃ d h : LinkEnd, m = { l with die := d, hub := h } ∧ l.die.replay <+: d.replay ∧ l.hub.replay <+: h.replay

/-- Every link's senders go on. -/
def SendersGrow (s t : State) : Prop := ∀ q, (s.linkOf q).GrowsTo (t.linkOf q)

theorem LinkSt.GrowsTo.refl (l : LinkSt) : l.GrowsTo l := ⟨l.die, l.hub, rfl, List.prefix_rfl, List.prefix_rfl⟩

theorem LinkSt.GrowsTo.trans {a b c : LinkSt} (h : a.GrowsTo b) (g : b.GrowsTo c) : a.GrowsTo c := by
  obtain ⟨d, e, rfl, hd, he⟩ := h
  obtain ⟨d', e', rfl, hd', he'⟩ := g
  exact ⟨d', e', rfl, hd.trans hd', he.trans he'⟩

theorem SendersGrow.refl (s : State) : SendersGrow s s := fun _ => .refl _

theorem SendersGrow.trans {a b c : State} (h : SendersGrow a b) (g : SendersGrow b c) : SendersGrow a c :=
  fun q => (h q).trans (g q)

/-- The part of a link beside its senders stays. -/
theorem LinkSt.GrowsTo.same {l m : LinkSt} (h : l.GrowsTo m) : m.state = l.state ∧ m.epoch = l.epoch := by
  obtain ⟨d, e, rfl, -, -⟩ := h
  exact ⟨rfl, rfl⟩

/-- The replay buffer of either side is kept. -/
theorem LinkSt.GrowsTo.replay {l m : LinkSt} (h : l.GrowsTo m) (sd : Side) : (l.endOf sd).replay <+: (m.endOf sd).replay := by
  obtain ⟨d, e, rfl, hd, he⟩ := h
  cases sd
  · exact hd
  · exact he

/-- A link changes, and becomes no default link, so that its table entry stays. -/
theorem SendersGrow.link (s : State) (p : Nat) (f : LinkSt → LinkSt) (hv : f (s.linkOf p) ≠ {})
    (h : (s.linkOf p).GrowsTo (f (s.linkOf p))) : SendersGrow s (s.updLink p f) := fun q => by
  rw [State.linkOf_upd s p q f hv]
  split
  · rename_i e; subst e; exact h
  · exact .refl _

/-- What does not change the links. -/
theorem SendersGrow.of_link_eq {s t : State} (h : t.link = s.link) : SendersGrow s t := fun q => by
  unfold State.linkOf
  rw [h]
  exact .refl _

theorem SendersGrow.foldl {α : Type} (f : State → α → State) (hf : ∀ s a, SendersGrow s (f s a)) (l : List α) (s : State) :
    SendersGrow s (l.foldl f s) :=
  foldl_inv (SendersGrow s) f (fun t a h => h.trans (hf t a)) l s (.refl s)

/-- A returned credit is a word more for a sender to send. -/
theorem freeSlotOf_grow (sd : Side) (v : Voq) (s : State) : SendersGrow s (freeSlotOf sd v s) := by
  have hhub : ∀ (p : Nat) (c : Ctl), SendersGrow s (s.updLink p (fun l => { l with hub := { l.hub with ctl := l.hub.ctl ++ [c] } })) :=
    fun p c => .link s p _ (fun e => by simpa using congrArg (fun l : LinkSt => l.hub.ctl) e)
      ⟨_, _, rfl, List.prefix_rfl, List.prefix_rfl⟩
  have hdie : ∀ (p : Nat) (c : Ctl), SendersGrow s (s.updLink p (fun l => { l with die := { l.die with ctl := l.die.ctl ++ [c] } })) :=
    fun p c => .link s p _ (fun e => by simpa using congrArg (fun l : LinkSt => l.die.ctl) e)
      ⟨_, _, rfl, List.prefix_rfl, List.prefix_rfl⟩
  unfold freeSlotOf
  cases sd <;> dsimp only <;> split
  · exact .refl s
  · exact hhub _ _
  · exact .refl s
  · exact hdie _ _

/-- The hub's side of a link sends a packet. -/
theorem pushHub_grow (q : Nat) (b : Bool) (p : Pkt) (s : State) :
    SendersGrow s (s.updLink q (fun l => { l with hub := l.hub.push .hub b p })) :=
  .link s q _ (fun e => by simpa [LinkEnd.push] using congrArg (fun l : LinkSt => l.hub.replay) e)
    ⟨_, _, rfl, List.prefix_rfl, List.prefix_append _ _⟩

/-- The die's side of a link sends a packet. -/
theorem pushDie_grow (q : Nat) (b : Bool) (p : Pkt) (s : State) :
    SendersGrow s (s.updLink q (fun l => { l with die := l.die.push .die b p })) :=
  .link s q _ (fun e => by simpa [LinkEnd.push] using congrArg (fun l : LinkSt => l.die.replay) e)
    ⟨_, _, rfl, List.prefix_append _ _, List.prefix_rfl⟩

/-- Granting packets to an output. -/
theorem pump_grow (n dst : Nat) (s : State) : SendersGrow s (pump n dst s) := by
  induction n generalizing s with
  | zero => exact .refl s
  | succ n ih =>
    simp only [pump]
    split
    · exact .refl s
    · split
      · exact .refl s
      · split
        · exact .refl s
        · refine SendersGrow.trans ?_ ((freeSlotOf_grow _ _ _).trans (ih _))
          split
          · exact .of_link_eq rfl
          · exact SendersGrow.trans (.of_link_eq rfl) (pushHub_grow _ _ _ _)

/-- Granting what an output can take. -/
theorem pumpOut_grow (dst : Nat) (s : State) : SendersGrow s (pumpOut dst s) := pump_grow _ dst s

/-- A packet of the hub's own. -/
theorem hubSays_grow (p : Pkt) (s : State) : SendersGrow s (hubSays p s) :=
  SendersGrow.trans (.of_link_eq rfl) (pumpOut_grow _ _)

/-- The hub takes a packet. -/
theorem hubTake_grow (p : Pkt) (b m : Bool) (s : State) : SendersGrow s (hubTake p b m s) := by
  unfold hubTake
  split
  · dsimp only
    split
    · exact (freeSlotOf_grow _ _ s).trans (hubSays_grow _ _)
    · exact freeSlotOf_grow _ _ s
  · split
    · exact freeSlotOf_grow _ _ s
    · exact SendersGrow.trans (.of_link_eq rfl) (pumpOut_grow _ _)

/-- A die sends a packet, or holds it back. -/
theorem sendWith_grow (b : Bool) (p : Pkt) (s : State) : SendersGrow s (sendWith b p s) := by
  unfold sendWith
  split
  · exact hubTake_grow p b true s
  · split
    · exact .refl s
    · split
      · exact (pushDie_grow _ b p s).trans (hubTake_grow _ _ _ _)
      · exact .link s _ _ (wait_ne _ _ _) ⟨_, _, rfl, List.prefix_rfl, List.prefix_rfl⟩

/-- Both senders of a link that is up go on. -/
theorem linkGo_grow (port : Nat) (s : State) (hup : (s.linkOf port).state = 2) : SendersGrow s (linkGo port s) := by
  have hempty : SendersGrow s (s.updLink port (fun l => { l with die := { l.die with wait := [] } })) :=
    .link s port _ (fun e => by simpa [hup] using congrArg LinkSt.state e) ⟨_, _, rfl, List.prefix_rfl, List.prefix_rfl⟩
  exact (hempty.trans (.foldl _ (fun t w => sendWith_grow _ _ t) _ _)).trans (pumpOut_grow _ _)

/-- Where no packet waits, with the die or in the hub, there is none to send. -/
theorem linkGo_idle (port : Nat) (s : State) (hvoq : s.hub.voq = []) (hwait : (s.linkOf port).die.wait = []) :
    linkGo port s = s.updLink port (fun l => { l with die := { l.die with wait := [] } }) := by
  unfold linkGo drainWait pumpOut
  rw [hwait]
  show pump s.hub.voq.length _ _ = _
  rw [hvoq]
  rfl

/-! ## A link that carries words -/

/-- A link that carries words is up. -/
theorem State.linkLive_up {s : State} {port : Nat} (h : s.linkLive port = true) : (s.linkOf port).state = 2 := by
  simp only [State.linkLive, Bool.and_eq_true, beq_iff_eq] at h
  exact h.1

/-- A port that carries packets, but the hub's own, has its link up. -/
theorem State.portUp_up {s : State} {port : Nat} (h : s.portUp port = true) (hp : port ≠ 63) : (s.linkOf port).state = 2 := by
  simp only [State.portUp, Bool.or_eq_true, Bool.and_eq_true, beq_iff_eq] at h
  exact (h.resolve_left hp).1.1

/-- Changing a sender leaves the rest of its link. -/
@[simp] theorem LinkSt.updEnd_state (l : LinkSt) (sd : Side) (f : LinkEnd → LinkEnd) : (l.updEnd sd f).state = l.state := by
  cases sd <;> rfl
@[simp] theorem LinkSt.updEnd_fenced (l : LinkSt) (sd : Side) (f : LinkEnd → LinkEnd) : (l.updEnd sd f).fenced = l.fenced := by
  cases sd <;> rfl
@[simp] theorem LinkSt.updEnd_paused (l : LinkSt) (sd : Side) (f : LinkEnd → LinkEnd) : (l.updEnd sd f).paused = l.paused := by
  cases sd <;> rfl
@[simp] theorem LinkSt.updEnd_replays (l : LinkSt) (sd : Side) (f : LinkEnd → LinkEnd) : (l.updEnd sd f).replays = l.replays := by
  cases sd <;> rfl
@[simp] theorem LinkSt.endOf_updEnd (l : LinkSt) (sd : Side) (f : LinkEnd → LinkEnd) :
    (l.updEnd sd f).endOf sd = f (l.endOf sd) := by
  cases sd <;> rfl
@[simp] theorem LinkSt.endOf_updEnd_other (l : LinkSt) (sd : Side) (f : LinkEnd → LinkEnd) :
    (l.updEnd (otherSide sd) f).endOf sd = l.endOf sd := by
  cases sd <;> rfl

/-- A link that stays in a state other than down reads as it was changed. -/
theorem State.linkOf_updLink_same (s : State) (p : Nat) (f : LinkSt → LinkSt) (h : (f (s.linkOf p)).state ≠ 0) :
    (s.updLink p f).linkOf p = f (s.linkOf p) := by
  rw [State.linkOf_upd s p p f (fun e => h (by rw [e])), if_pos rfl]

/-- A change of a link leaves every other. -/
theorem State.linkOf_updLink_ne (s : State) (p q : Nat) (f : LinkSt → LinkSt) (h : p ≠ q) : (s.updLink p f).linkOf q = s.linkOf q :=
  look_put_ne _ _ _ _ h

/-! ## The rows -/

/-- An acknowledgement frees the replay entries up to it, and the link goes on (02 R46). -/
theorem execLinkAck_frees (s : State) (port seq : Nat) (sd : Side) (h : s.linkLive port = true) :
    ∃ t, exec (.linkAck port sd seq) s = .next t ∧
      ackDrop seq ((s.linkOf port).endOf sd).replay <+: ((t.linkOf port).endOf sd).replay ∧ t.mem = s.mem := by
  have hup := State.linkLive_up h
  refine ⟨_, rfl, ?_, ?_⟩
  · simp only [h, Bool.not_true, Bool.false_eq_true, if_false]
    have hacked := State.linkOf_updLink_same s port (fun l => l.updEnd sd (fun e =>
      { e with replay := ackDrop seq e.replay
               resends := if (ackDrop seq e.replay).length = e.replay.length then e.resends else 0 })) (by simp [hup])
    have hgrow := (linkGo_grow port _ (by rw [hacked]; simpa using hup) port).replay sd
    rw [hacked, LinkSt.endOf_updEnd] at hgrow
    exact hgrow
  · exact (OnNext_next _ _).mp (exec_keeps (.linkAck port sd seq) s) |>.same .mem (by simp [touches])

/-- What a resend leaves while fewer than 8 have followed each other (02 R46, R70). -/
theorem resend_counts (s : State) (port : Nat) (sd : Side) (h : s.linkLive port = true)
    (hheld : ((s.linkOf port).endOf sd).replay ≠ []) (hfew : ((s.linkOf port).endOf sd).resends < 7) :
    (((resend port sd s).linkOf port).endOf sd).resends = ((s.linkOf port).endOf sd).resends + 1 ∧
    ((resend port sd s).linkOf port).replays = satAdd 0xFFFF (s.linkOf port).replays 1 ∧
    ((resend port sd s).linkOf port).state = 2 := by
  have hup := State.linkLive_up h
  unfold resend
  rw [if_neg (by simp [h, hheld]), if_neg (by omega), State.linkOf_updLink_same _ _ _ (by simp [hup])]
  refine ⟨?_, rfl, ?_⟩
  · cases sd <;> rfl
  · simpa using hup

/-- The eighth resend in a row takes the link down (02 R46, R70). -/
theorem resend_downs (s : State) (port : Nat) (sd : Side) (h : s.linkLive port = true) (hfence : (s.linkOf port).fenced = false)
    (hheld : ((s.linkOf port).endOf sd).replay ≠ []) (hmany : 7 ≤ ((s.linkOf port).endOf sd).resends) :
    ((resend port sd s).linkOf port).state = 1 ∧ ((resend port sd s).linkOf port).width = 0 ∧
    ((resend port sd s).linkOf port).replays = satAdd 0xFFFF (s.linkOf port).replays 1 := by
  have hup := State.linkLive_up h
  have hcounted := State.linkOf_updLink_same s port (fun l =>
    { l.updEnd sd (fun x => { x with resends := x.resends + 1 }) with replays := satAdd 0xFFFF l.replays 1 }) (by simp [hup])
  unfold resend
  rw [if_neg (by simp [h, hheld]), if_pos (by omega)]
  unfold linkDown
  rw [if_neg (by rw [hcounted]; simp [hfence]), State.linkOf_updLink_same _ _ _ (by simp), hcounted]
  exact ⟨rfl, rfl, rfl⟩

/-- A negative acknowledgement has its sender resend (02 R46). -/
theorem execLinkNak_resends (s : State) (port : Nat) (sd : Side) (h : s.linkLive port = true)
    (hheld : ((s.linkOf port).endOf sd).replay ≠ []) (hfew : ((s.linkOf port).endOf sd).resends < 7) :
    ∃ t, exec (.linkNak port sd) s = .next t ∧ ((t.linkOf port).endOf sd).resends = ((s.linkOf port).endOf sd).resends + 1 ∧
      (t.linkOf port).replays = satAdd 0xFFFF (s.linkOf port).replays 1 ∧ (t.linkOf port).state = 2 := by
  have hup := State.linkLive_up h
  have htaken := State.linkOf_updLink_same s port (fun l => l.updEnd (otherSide sd) (fun e =>
    { e with ctl := dropFirst (fun c => c == .nak) e.ctl })) (by simp [hup])
  have hlive : (s.updLink port (fun l => l.updEnd (otherSide sd) (fun e =>
      { e with ctl := dropFirst (fun c => c == .nak) e.ctl }))).linkLive port = true := by
    unfold State.linkLive at h ⊢
    rw [htaken]
    simpa using h
  have hres := resend_counts _ port sd hlive (by rw [htaken]; simpa using hheld) (by rw [htaken]; simpa using hfew)
  rw [htaken, LinkSt.endOf_updEnd_other, LinkSt.updEnd_replays] at hres
  refine ⟨_, rfl, ?_⟩
  simp only [h, Bool.not_true, Bool.false_eq_true, if_false]
  exact hres

/-- A link whose sender has taken a credit word of its receiver: the word is off the way, and as many slots are free (02 R45). -/
def LinkSt.credited (sd : Side) (dst vc n : Nat) (l : LinkSt) : LinkSt :=
  (l.updEnd (otherSide sd) (fun e => { e with ctl := dropFirst (fun c => c == .credit dst vc n) e.ctl })).updEnd sd (fun e =>
    { e with used := upd 0 e.used (if sd = .die then 8 * dst + vc else vc) (fun k => k - n) })

/-- A credit word that is on its way is taken, and the link goes on (02 R45, R63). -/
theorem execCreditReturn_takes (s : State) (port dst vc n : Nat) (sd : Side) (h : s.linkLive port = true)
    (hword : .credit dst vc n ∈ ((s.linkOf port).endOf (otherSide sd)).ctl) :
    exec (.creditReturn port sd dst vc n) s = .next (linkGo port (s.updLink port (LinkSt.credited sd dst vc n))) := by
  have hcomes : (!s.linkLive port || !((s.linkOf port).endOf (otherSide sd)).ctl.any (fun c => c == .credit dst vc n)) = false := by
    simpa [h] using hword
  unfold exec execCreditReturn
  dsimp only
  rw [if_neg (by simp [hcomes])]
  cases sd <;> rfl

/-- A credit word of the receiver frees slots at the sender (02 R45). Nothing waits, so that nothing takes them at once. -/
theorem execCreditReturn_frees (s : State) (port dst vc n : Nat) (sd : Side) (h : s.linkLive port = true) (hvoq : s.hub.voq = [])
    (hwait : (s.linkOf port).die.wait = []) (hword : .credit dst vc n ∈ ((s.linkOf port).endOf (otherSide sd)).ctl) :
    ∃ t, exec (.creditReturn port sd dst vc n) s = .next t ∧
      ((t.linkOf port).endOf sd).used =
        upd 0 ((s.linkOf port).endOf sd).used (if sd = .die then 8 * dst + vc else vc) (fun k => k - n) := by
  have hup : ((s.linkOf port).credited sd dst vc n).state ≠ 0 := by simp [LinkSt.credited, State.linkLive_up h]
  have hlink := State.linkOf_updLink_same s port (LinkSt.credited sd dst vc n) hup
  refine ⟨_, execCreditReturn_takes s port dst vc n sd h hword, ?_⟩
  rw [linkGo_idle port (s.updLink port (LinkSt.credited sd dst vc n)) hvoq (by rw [hlink]; cases sd <;> exact hwait),
    State.linkOf_updLink_same _ _ _ (by rw [hlink]; exact hup), hlink]
  cases sd <;> rfl

/-- A heartbeat that has come is taken (02 R47). -/
theorem execHeartbeat_takes (s : State) (port : Nat) (sd : Side) (h : s.linkLive port = true) :
    ∃ t, exec (.heartbeat port sd) s = .next t ∧
      ((t.linkOf port).endOf sd).ctl = dropFirst (fun c => c == .heartbeat) ((s.linkOf port).endOf sd).ctl := by
  have hup := State.linkLive_up h
  refine ⟨_, rfl, ?_⟩
  simp only [h, Bool.not_true, Bool.false_eq_true, if_false]
  rw [State.linkOf_updLink_same _ _ _ (by simp [hup]), LinkSt.endOf_updEnd]

/-- An idle sender's heartbeat is on its way (02 R47). -/
theorem execHeartbeatSend_sends (s : State) (port : Nat) (sd : Side) (h : s.portUp port = true) (hp : port ≠ 63) :
    ∃ t, exec (.heartbeatSend port sd) s = .next t ∧
      ((t.linkOf port).endOf sd).ctl = ((s.linkOf port).endOf sd).ctl ++ [.heartbeat] := by
  have hup := State.portUp_up h hp
  refine ⟨_, rfl, ?_⟩
  rw [if_pos (by simp [h, hp]), State.linkOf_updLink_same _ _ _ (by simp [hup]), LinkSt.endOf_updEnd]

/-- A new epoch restarts both senders of a link that is up; its replay buffers are numbered from 0 and resent (02 R48). -/
theorem execEpochChange_restarts (s : State) (port : Nat) (hup : (s.linkOf port).state = 2) (hfence : (s.linkOf port).fenced = false)
    (hp : port ≠ 63) (hpause : (s.linkOf port).paused = false) :
    ∃ t, exec (.epochChange port) s = .next t ∧ (t.linkOf port).epoch = ((s.linkOf port).epoch + 1) % 8 ∧
      (t.linkOf port).state = 2 ∧ renumber 0 (s.linkOf port).die.replay <+: (t.linkOf port).die.replay := by
  have hnew : (newEpoch port s).linkOf port = _ := State.linkOf_updLink_same s port _ (by simp [hup])
  have hgrow := linkGo_grow port (newEpoch port s) (by rw [hnew]; exact hup) port
  refine ⟨_, rfl, ?_⟩
  rw [if_neg (by simp [hp, hfence, hpause])]
  have hsame := hgrow.same
  have hreplay := hgrow.replay .die
  rw [hnew] at hsame hreplay
  exact ⟨hsame.2, hsame.1.trans hup, hreplay⟩

/-- A packet that its receiver cannot take draws a negative acknowledgement; one that fails the check is counted (02 R41, R46, R70). -/
theorem execLinkCrcError_naks (s : State) (port : Nat) (sd : Side) (hdr : BitVec 128) (body : List Byte) (crc : BitVec 32)
    (h : s.linkLive port = true) (hp : port ≤ 62) (found : RawFind) (hfound : rawFind (s.linkOf port) sd hdr body crc = found)
    (htaken : found ≠ .taken) (hstale : found ≠ .stale) :
    ∃ t, exec (.linkCrcError port sd hdr body crc) s = .next t ∧
      (t.linkOf port).crcErr = (if found = .bad then satAdd 0xFFFF (s.linkOf port).crcErr 1 else (s.linkOf port).crcErr) ∧
      ((t.linkOf port).endOf (otherSide sd)).ctl = ((s.linkOf port).endOf (otherSide sd)).ctl ++ [.nak] := by
  have hup := State.linkLive_up h
  refine ⟨_, rfl, ?_⟩
  rw [if_neg (by simp [h]; omega)]
  dsimp only
  rw [hfound, if_neg (by simp [htaken, hstale]), State.linkOf_updLink_same _ _ _ (by simp [hup])]
  refine ⟨rfl, ?_⟩
  cases sd <;> rfl

/-- A packet of another epoch is discarded (02 R48). -/
theorem execLinkCrcError_stale (s : State) (port : Nat) (sd : Side) (hdr : BitVec 128) (body : List Byte) (crc : BitVec 32)
    (hfound : rawFind (s.linkOf port) sd hdr body crc = .stale) : exec (.linkCrcError port sd hdr body crc) s = .next s := by
  show Host.Outcome.next _ = _
  congr 1
  split
  · rfl
  · dsimp only
    rw [if_pos (.inr hfound)]

/-- Settles O12, row by row. -/
theorem linkSenders : Obligations.LinkSenders := by
  unfold Obligations.LinkSenders
  refine ⟨execLinkAck_frees, execLinkNak_resends, ?_, ?_, ?_, execHeartbeat_takes, execHeartbeatSend_sends,
    execEpochChange_restarts, ?_, ?_, ?_⟩
  · exact fun s port sd h hfence hheld hmany => ⟨_, rfl, resend_downs s port sd h hfence hheld hmany⟩
  · intro s port sd h hheld hfew
    obtain ⟨hcount, -, hstate⟩ := resend_counts s port sd h hheld hfew
    exact ⟨_, rfl, hcount, hstate⟩
  · exact execCreditReturn_frees
  · intro s port sd hdr body crc h hp hbad
    exact execLinkCrcError_naks s port sd hdr body crc h hp .bad hbad (by decide) (by decide)
  · intro s port sd hdr body crc h hp hgap
    exact execLinkCrcError_naks s port sd hdr body crc h hp .gap hgap (by decide) (by decide)
  · exact fun s port sd hdr body crc hstale => ⟨s, execLinkCrcError_stale s port sd hdr body crc hstale, rfl⟩

end Sys2Proof.Machine
end

section
/-!
Which bytes the writes of a memory leave (02 R40; 08 R252, R253, R268), and what an access that a stack serves does to the memory.
-/
namespace Sys2Proof.Machine

/-! ## Bytes outside a write -/

theorem undefTag_append (a : Nat) (l m : List (Nat × Nat × Nat)) : undefTag a (l ++ m) = (undefTag a l).or (undefTag a m) := by
  induction l with
  | nil => rfl
  | cons c r ih =>
    obtain ⟨lo, len, tag⟩ := c
    simp only [List.cons_append, undefTag]
    split
    · rfl
    · exact ih

/-- Cutting a range out of the undefined ones leaves every address outside it. -/
theorem undefTag_carve (a x n : Nat) (l : List (Nat × Nat × Nat)) (h : a < x ∨ x + n ≤ a) :
    undefTag a (carve x n l) = undefTag a l := by
  induction l with
  | nil => rfl
  | cons c r ih =>
    obtain ⟨lo, len, tag⟩ := c
    have hleft : undefTag a (if lo < x then [(lo, min len (x - lo), tag)] else []) =
        if lo ≤ a ∧ a < lo + len ∧ a < x then some tag else none := by
      split
      · exact ite_congr (propext (by omega)) (fun _ => rfl) (fun _ => rfl)
      · rw [if_neg (by omega)]; rfl
    have hright : undefTag a (if x + n < lo + len then [(max lo (x + n), lo + len - max lo (x + n), tag)] else []) =
        if lo ≤ a ∧ a < lo + len ∧ x + n ≤ a then some tag else none := by
      split
      · exact ite_congr (propext (by omega)) (fun _ => rfl) (fun _ => rfl)
      · rw [if_neg (by omega)]; rfl
    simp only [carve, undefTag_append, hleft, hright, ih, undefTag]
    by_cases hin : lo ≤ a ∧ a < lo + len
    · rw [if_pos hin]
      cases h with
      | inl hlt => rw [if_pos ⟨hin.1, hin.2, hlt⟩]; rfl
      | inr hge => rw [if_neg (by omega), if_pos ⟨hin.1, hin.2, hge⟩]; rfl
    · rw [if_neg hin, if_neg (fun c => hin ⟨c.1, c.2.1⟩), if_neg (fun c => hin ⟨c.1, c.2.1⟩)]; rfl

/-- Storing bytes leaves every other address of the table. -/
theorem look_putBytes_outside (bs : List Byte) (m : FMap Byte) (x a : Nat) (h : a < x ∨ x + bs.length ≤ a) :
    look 0#8 (putBytes m x bs) a = look 0#8 m a := by
  induction bs generalizing m x with
  | nil => rfl
  | cons b r ih =>
    rw [List.length_cons] at h
    simp only [putBytes]
    rw [ih _ _ (by omega), look_put_ne _ _ _ _ (by omega)]

/-- What a byte reads as hangs on the table of bytes and the undefined ranges alone. -/
theorem Ram.rd_congr {r q : Ram} (a : Nat) (hu : undefTag a r.undef = undefTag a q.undef)
    (hb : look 0#8 r.bytes a = look 0#8 q.bytes a) : r.rd a = q.rd a := by
  unfold Ram.rd
  rw [hu, hb]

/-- A merge of bytes leaves those outside it. -/
theorem Ram.rd_writeN_outside (r : Ram) (x a : Nat) (bs : List Byte) (h : a < x ∨ x + bs.length ≤ a) :
    (r.writeN x bs).rd a = r.rd a := by
  refine Ram.rd_congr a ?_ (look_putBytes_outside bs r.bytes x a h)
  unfold Ram.writeN
  split
  · rename_i hnone; rw [hnone]
  · exact undefTag_carve a x _ _ h

/-- A full-sector write leaves the other sectors. -/
theorem Ram.rd_writeSector_outside (r : Ram) (n a : Nat) (d : List Byte) (ck : Option (BitVec 32)) (p : Bool) (h : a / 64 ≠ n) :
    (r.writeSector n d ck p).rd a = r.rd a := by
  have hlen : ((d ++ List.replicate 64 0#8).take 64).length = 64 := by simp
  exact Ram.rd_writeN_outside r (64 * n) a _ (by rw [hlen]; omega)

/-- Consecutive full-sector writes leave the other sectors. -/
theorem Ram.rd_writeSectors_outside (k : Nat) (r : Ram) (n a : Nat) (p : Bool) (d : List Byte) (ck : List (BitVec 32))
    (h : a / 64 < n ∨ n + k ≤ a / 64) : (r.writeSectors n p d ck k).rd a = r.rd a := by
  induction k generalizing r n d ck with
  | zero => rfl
  | succ k ih =>
    simp only [Ram.writeSectors]
    rw [ih _ _ _ _ (by omega), Ram.rd_writeSector_outside _ _ _ _ _ _ (by omega)]

/-- A partial write leaves the bytes outside it: what it does to sectors whose check word fails changes no byte. -/
theorem Ram.rd_merge_outside (r : Ram) (x a : Nat) (bs : List Byte) (h : a < x ∨ x + bs.length ≤ a) :
    (r.merge x bs).rd a = r.rd a := by
  refine (Ram.rd_writeN_outside _ x a bs h).trans ?_
  refine foldl_inv (fun m : Ram => m.rd a = r.rd a) _ (fun m n hm => ?_) _ r rfl
  split
  · exact hm
  · exact hm

/-- The bytes that a mask selects lie within the data and are enabled. -/
theorem maskedBytes_enabled {mask : Nat} {d : List Byte} {c : Nat × Byte} (h : c ∈ maskedBytes mask d) :
    c.1 < d.length ∧ bitOf mask c.1 = true := by
  obtain ⟨hmem, hbit⟩ := List.mem_filter.mp h
  exact ⟨List.mem_range.mp (List.of_mem_zip hmem).1, hbit⟩

/-- Storing single bytes of a sector leaves every other address. -/
theorem Ram.rd_foldl_writeN (n a : Nat) (l : List (Nat × Byte)) (r : Ram) (h : ∀ c ∈ l, a ≠ 64 * n + c.1) :
    (l.foldl (fun m c => m.writeN (64 * n + c.1) [c.2]) r).rd a = r.rd a := by
  induction l generalizing r with
  | nil => rfl
  | cons c l ih =>
    have hc := h c List.mem_cons_self
    rw [List.foldl_cons, ih _ (fun c' hc' => h c' (List.mem_cons_of_mem _ hc'))]
    exact Ram.rd_writeN_outside r _ a _ (by rw [List.length_singleton]; omega)

/-- A masked write leaves the other sectors and the bytes that it does not enable (02 R40). -/
theorem Ram.rd_writeMasked_outside (r : Ram) (n a mask : Nat) (d : List Byte) (p : Bool)
    (h : a / 64 ≠ n ∨ bitOf mask (a % 64) = false) : (r.writeMasked n mask d p).rd a = r.rd a := by
  have hdisabled : ∀ c ∈ maskedBytes mask (d.take 64), a ≠ 64 * n + c.1 := by
    rintro c hc rfl
    obtain ⟨hlt, hbit⟩ := maskedBytes_enabled hc
    have hlt64 : c.1 < 64 := Nat.lt_of_lt_of_le hlt (by rw [List.length_take]; omega)
    rw [show (64 * n + c.1) / 64 = n by omega, show (64 * n + c.1) % 64 = c.1 by omega, hbit] at h
    simp at h
  unfold Ram.writeMasked
  split
  · rfl
  · dsimp only
    rw [Ram.rd_foldl_writeN n a _ _ hdisabled]
    split <;> rfl

/-- The bytes of a number are as many as asked for. -/
@[simp] theorem leBytes_length (n v : Nat) : (leBytes n v).length = n := by
  induction n generalizing v with
  | zero => rfl
  | succ n ih => rw [leBytes, List.length_cons, ih]

/-! ## What accompanies an access leaves the memory -/

@[simp] theorem touchFrame_mem (a : Nat) (w : Bool) (s : State) : (touchFrame a w s).mem = s.mem :=
  (touchFrame_keeps a w s (Keeps.rfl' _ s) (Within.rfl' _)).same .mem
@[simp] theorem bufferWrite_mem (h n : Nat) (s : State) : (bufferWrite h n s).mem = s.mem :=
  (bufferWrite_keeps h n s (Keeps.rfl' _ s) (Within.rfl' _)).same .mem
@[simp] theorem notifyRings_mem (secs : List Nat) (s : State) : (notifyRings secs s).mem = s.mem :=
  (notifyRings_keeps secs s (Keeps.rfl' _ s) (Within.rfl' _)).same .mem
@[simp] theorem ackWrite_mem (a : Nat) (ans : Pkt) (s : State) : (ackWrite a ans s).mem = s.mem :=
  (ackWrite_keeps a ans s (Keeps.rfl' _ s) (Within.rfl' _)).same .mem
@[simp] theorem evCheckword_mem (point : Nat) (tile : Bool) (port addr : Nat) (s : State) :
    (evCheckword point tile port addr s).mem = s.mem :=
  (evCheckword_keeps point tile port addr s (Keeps.rfl' _ s) (Within.rfl' _)).same .mem
@[simp] theorem poolUncorr_mem (d : Nat) (s : State) : (poolUncorr d s).mem = s.mem := rfl

/-! ## The accesses -/

/-- A write to direct memory stores its sectors (08 R252). -/
theorem doWrite_mem (h : Nat) (p : Pkt) (s : State) (hz : s.zone p.addr = .direct) :
    (doWrite h p s).mem = s.mem.writeSectors (sectorOf p.addr) p.poison p.payload p.checks (p.payload.length / 64) := by
  unfold doWrite
  dsimp only
  rw [ackWrite_mem, notifyRings_mem, phys_direct _ _ hz]
  refine foldl_inv (fun t => t.mem = _) _ (fun t n ht => (bufferWrite_mem h n t).trans ht) _ _ ?_
  rw [touchFrame_mem, State.withMem_mem]

/-- A masked write to direct memory stores the bytes it enables; a check word that fails poisons the sector (02 R40, 16 R553). -/
theorem doMasked_mem (h : Nat) (p : Pkt) (s : State) (hz : s.zone p.addr = .direct) :
    (doMasked h p .none s).mem = s.mem.writeMasked (sectorOf p.addr) (leAt p.payload 64 8) p.payload
      (p.poison || p.checks.head? != some (crc32c (p.payload.take 64))) := by
  unfold doMasked
  dsimp only
  rw [phys_direct _ _ hz]
  simp only [ackWrite_mem, touchFrame_mem, bufferWrite_mem, notifyRings_mem, evCheckword_mem, poolUncorr_mem, State.withMem_mem,
    apply_ite State.mem, ite_self]

/-- An atomic on direct memory whose check word holds stores within its operand (08 R268). -/
theorem doAtomic_rd_outside (h : Nat) (p : Pkt) (s : State) (a : Nat) (hz : s.zone p.addr = .direct)
    (hck : s.mem.ckBad (sectorOf p.addr) = false) (ha : a < p.addr ∨ p.addr + leAt p.payload 9 1 ≤ a) :
    (doAtomic h p .none s).mem.rd a = s.mem.rd a := by
  unfold doAtomic
  dsimp only
  rw [phys_direct _ _ hz, readCodes_ok h [sectorOf p.addr] s (by simpa using hck)]
  split
  · rw [refuseErr, send_mem]
  · split
    · rw [refuseErr, send_mem]
    · rw [ackWrite_mem, bufferWrite_mem, touchFrame_mem, State.withMem_mem]
      exact Ram.rd_merge_outside _ _ _ _ (by rwa [leBytes_length])

/-! ## A request that a stack serves -/

/-- Taking a request leaves the memory and what its address names. -/
theorem served_mem_zone {s : State} {p : Pkt} (h : s.serves p) : (s.served p).mem = s.mem ∧ (s.served p).zone p.addr = .direct := by
  obtain ⟨-, -, hlo, hhi, hz, -⟩ := h
  obtain ⟨x, l, k, hs, -, -⟩ := served_f s p hlo hhi
  rw [hs]
  exact ⟨rfl, hz⟩

/-- The memory after a request that a stack serves at once is the one after its access. -/
theorem accessRow_mem {s : State} {p : Pkt} (e : DramErr) (h : s.serves p) :
    (accessRow p e s).mem = (performAccess p.dst p e (s.served p)).mem := by
  obtain ⟨y, hy⟩ := accessRow_serves e h
  rw [hy]
  rfl

/-- A write changes no byte outside its sectors. -/
theorem execWrite_rd_outside (s : State) (p : Pkt) (hop : p.op = .write) (h : s.serves p) :
    ∃ t, exec (.write p) s = .next t ∧ ∀ a, (a / 64 < sectorOf p.addr ∨ sectorOf p.addr + p.payload.length / 64 ≤ a / 64) →
      t.mem.rd a = s.mem.rd a := by
  obtain ⟨hmem, hz⟩ := served_mem_zone h
  have heta : { p with op := .write } = p := by rw [← hop]
  refine ⟨accessRow { p with op := .write } .none s, rfl, fun a ha => ?_⟩
  rw [heta, accessRow_mem _ h]
  unfold performAccess
  rw [hop]
  dsimp only
  rw [doWrite_mem _ _ _ hz, hmem]
  exact Ram.rd_writeSectors_outside _ _ _ _ _ _ _ ha

/-- A masked write changes no byte that it does not enable. -/
theorem execWriteMasked_rd_outside (s : State) (p : Pkt) (hop : p.op = .writeMasked) (h : s.serves p) :
    ∃ t, exec (.writeMasked p .none) s = .next t ∧
      ∀ a, (a / 64 ≠ sectorOf p.addr ∨ bitOf (leAt p.payload 64 8) (a % 64) = false) → t.mem.rd a = s.mem.rd a := by
  obtain ⟨hmem, hz⟩ := served_mem_zone h
  have heta : { p with op := .writeMasked } = p := by rw [← hop]
  refine ⟨accessRow { p with op := .writeMasked } .none s, rfl, fun a ha => ?_⟩
  rw [heta, accessRow_mem _ h]
  unfold performAccess
  rw [hop]
  dsimp only
  rw [doMasked_mem _ _ _ hz, hmem]
  exact Ram.rd_writeMasked_outside _ _ _ _ _ _ ha

/-- An atomic addition changes no byte outside its operand. -/
theorem execAtomicAdd_rd_outside (s : State) (p : Pkt) (size : Nat) (h : s.serves (withAop p 1))
    (hsize : leAt (withAop p 1).payload 9 1 = size) (hck : s.mem.ckBad (sectorOf p.addr) = false) :
    ∃ t, exec (.atomicAdd p .none) s = .next t ∧ ∀ a, (a < p.addr ∨ p.addr + size ≤ a) → t.mem.rd a = s.mem.rd a := by
  obtain ⟨hmem, hz⟩ := served_mem_zone h
  refine ⟨accessRow (withAop p 1) .none s, rfl, fun a ha => ?_⟩
  rw [accessRow_mem _ h]
  show (doAtomic p.dst (withAop p 1) .none (s.served (withAop p 1))).mem.rd a = _
  rw [doAtomic_rd_outside _ _ _ _ hz (by rw [hmem]; exact hck) (by rw [hsize]; exact ha), hmem]

end Sys2Proof.Machine
end

section
/-!
O59. What the commands leave as it was within the parts they touch: the bytes of a memory beside a write, the sync objects, registers,
ports and dies beside the one that a command names.
-/
namespace Sys2Proof.Machine

/-! ## Sync objects -/

/-- Every sync object but one is as it was. -/
def OtherObjectsStay (obj : Nat) (s t : State) : Prop := ∀ m, m ≠ obj → t.syncOf m = s.syncOf m

theorem OtherObjectsStay.refl (obj : Nat) (s : State) : OtherObjectsStay obj s s := fun _ _ => rfl

theorem OtherObjectsStay.trans {obj : Nat} {a b c : State} (h : OtherObjectsStay obj a b) (g : OtherObjectsStay obj b c) :
    OtherObjectsStay obj a c := fun m hm => (g m hm).trans (h m hm)

/-- An operation that changes no sync object. -/
theorem Keeps.objects {ws : List Field} {s t : State} (h : Keeps ws s t) (obj : Nat) (hf : Field.sync ∉ ws := by decide) :
    OtherObjectsStay obj s t := fun m _ => congrArg (fun f => look ({} : SyncObj) f m) (h.part .sync hf)

theorem updSync_others (s : State) (n : Nat) (f : SyncObj → SyncObj) : OtherObjectsStay n s (s.updSync n f) :=
  fun _ hm => look_put_ne _ _ _ _ (Ne.symm hm)

/-- Sending a packet changes no object. -/
theorem send_objects (obj : Nat) (p : Pkt) (s : State) : OtherObjectsStay obj s (send p s) :=
  (send_keeps p s (Keeps.rfl' _ s) (Within.rfl' _)).objects obj

/-- Releasing a waiter changes no object. -/
theorem releaseOne_objects (obj n : Nat) (v : Word) (w : Waiter) (s : State) : OtherObjectsStay obj s (releaseOne n v w s) :=
  (releaseOne_keeps n v w s (Keeps.rfl' _ s) (Within.rfl' _)).objects obj

/-- The waiters of an object are released from that object alone (07 R220). -/
theorem releaseWaiters_others (n : Nat) (s : State) : OtherObjectsStay n s (releaseWaiters n s) :=
  foldl_inv (OtherObjectsStay n s) _ (fun _ _ h => h.trans (releaseOne_objects n _ _ _ _)) _ _ (updSync_others s n _)

theorem syncAddOp_others (n src : Nat) (v : Word) (s : State) : OtherObjectsStay n s (syncAddOp n src v s) :=
  ((updSync_others s n _).trans (updSync_others _ n _)).trans (releaseWaiters_others n _)

theorem syncSetOp_others (n src : Nat) (v : Word) (s : State) : OtherObjectsStay n s (syncSetOp n src v s) :=
  ((updSync_others s n _).trans (updSync_others _ n _)).trans (releaseWaiters_others n _)

theorem syncWaitOp_others (n src : Nat) (w : Waiter) (s : State) : OtherObjectsStay n s (syncWaitOp n src w s) := by
  unfold syncWaitOp
  dsimp only
  split
  · exact (updSync_others s n _).trans (releaseOne_objects n _ _ _ _)
  · exact (updSync_others s n _).trans (updSync_others _ n _)

/-- Answering an operation changes no object. -/
theorem syncAnswer_objects (obj : Nat) (op : PktOp) (src tid n : Nat) (payload : List Byte) (s : State) :
    OtherObjectsStay obj s (syncAnswer op src tid n payload s) :=
  (syncAnswer_keeps op src tid n payload s (Keeps.rfl' _ s) (Within.rfl' _)).objects obj

theorem syncAddServe_others (src tid n : Nat) (v : Word) (s : State) : OtherObjectsStay n s (syncAddServe src tid n v s) := by
  unfold syncAddServe
  split
  · exact (syncAddOp_others n src v s).trans (syncAnswer_objects n _ _ _ _ _ _)
  · exact (syncAddOp_others n src v s).trans (syncAnswer_objects n _ _ _ _ _ _)

theorem syncSetServe_others (src tid n : Nat) (v : Word) (s : State) : OtherObjectsStay n s (syncSetServe src tid n v s) :=
  (syncSetOp_others n src v s).trans (syncAnswer_objects n _ _ _ _ _ _)

/-- A request that arrives changes the objects as what runs on it does. -/
theorem arriveReq_others {obj : Nat} {k : State → State} (hk : ∀ u, OtherObjectsStay obj u (k u)) (p : Pkt) (s : State) :
    OtherObjectsStay obj s (arriveReq p k s) := by
  have hleave : OtherObjectsStay obj s (leaveHub p s) := (leaveHub_keeps p s (Keeps.rfl' _ s) (Within.rfl' _)).objects obj
  have hnote : OtherObjectsStay obj s (if s.onWay p then s else s.noteReq p (answersOf p)) := by
    split
    · exact .refl obj s
    · exact (State.noteReq_keeps s p _ (Keeps.rfl' _ s) (Within.rfl' _)).objects obj
  have hreach : ∀ u, OtherObjectsStay obj u (reach p u).1 := fun u => (reach_keeps p u (Keeps.rfl' _ u) (Within.rfl' _)).objects obj
  have htid : ∀ u : State, OtherObjectsStay obj u (u.noteTid p.dst p.src p.tid) := fun u =>
    (State.noteTid_keeps u _ _ _ (Keeps.rfl' _ u) (Within.rfl' _)).objects obj
  unfold arriveReq
  split
  · split
    · exact hleave
    · exact .refl obj s
  · split
    · exact .refl obj s
    · dsimp only
      generalize (if s.onWay p then s else s.noteReq p (answersOf p)) = u at hnote ⊢
      split
      · exact ((hnote.trans (hreach _)).trans (htid _)).trans (hk _)
      · exact hnote.trans (hreach _)

/-- A sync packet that arrives changes the objects as its operation does. -/
theorem syncArrive_others {obj : Nat} {k : State → State} (hk : ∀ u, OtherObjectsStay obj u (k u)) (p : Pkt) (s : State) :
    OtherObjectsStay obj s (syncArrive p k s) := by
  have hsent : OtherObjectsStay obj s
      (if s.onWay p || s.seenTid 63 p.src p.tid || !s.mayCome p then s else send p (s.noteReq p 1)) := by
    split
    · exact .refl obj s
    · exact ((State.noteReq_keeps s p 1 (Keeps.rfl' _ s) (Within.rfl' _)).objects obj).trans (send_objects obj p _)
  unfold syncArrive
  split
  · exact .refl obj s
  · split
    · exact hk s
    · dsimp only
      generalize (if s.onWay p || s.seenTid 63 p.src p.tid || !s.mayCome p then s else send p (s.noteReq p 1)) = u at hsent ⊢
      split
      · exact hsent.trans (arriveReq_others hk p _)
      · exact hsent

/-- A die's request changes no object. -/
theorem request_objects (obj : Nat) (p : Pkt) (use : Use) (s : State) : OtherObjectsStay obj s (request p use s) :=
  (request_keeps p use s (Keeps.rfl' _ s) (Within.rfl' _)).objects obj

theorem syncSendAdd_others (src obj : Nat) (v : Word) (use : Use) (s : State) :
    OtherObjectsStay obj s (syncSendAdd src obj v use s) := by
  unfold syncSendAdd
  dsimp only
  split
  · exact .refl obj s
  · exact (request_objects obj _ use s).trans (syncArrive_others (syncAddServe_others src _ obj v) _ _)

theorem syncSendSet_others (src obj : Nat) (v : Word) (use : Use) (s : State) :
    OtherObjectsStay obj s (syncSendSet src obj v use s) := by
  unfold syncSendSet
  dsimp only
  split
  · exact .refl obj s
  · exact (request_objects obj _ use s).trans (syncArrive_others (syncSetServe_others src _ obj v) _ _)

/-- A store to an object changes no other (07 R224). -/
theorem execSyncValueWrite_others (s : State) (who : Agent) (obj : Nat) (v : Word) (hgate : s.hostGate who = true)
    (hmay : s.mayObj who obj = true) : ∃ t, exec (.syncValueWrite who obj v) s = .next t ∧ OtherObjectsStay obj s t := by
  refine ⟨_, rfl, ?_⟩
  simp only [hgate, hmay, Bool.not_true, Bool.false_eq_true, if_false, if_true]
  exact syncSendSet_others _ obj v _ s

/-- An AMOADD.D changes no object but its own (07 R224). -/
theorem execAmoaddD_others (s : State) (core obj : Nat) (v : Word) :
    ∃ t, exec (.amoaddD core obj v) s = .next t ∧ OtherObjectsStay obj s t := by
  refine ⟨_, rfl, ?_⟩
  split
  · exact .refl obj s
  · exact syncSendAdd_others _ obj v _ s

/-! ## Registers -/

/-- A write leaves every other key, whatever an unlisted one reads as. -/
theorem look_put_ne_default {α : Type} [DecidableEq α] (d e : α) (m : FMap α) (k j : Nat) (v : α) (hj : k ≠ j) :
    look e (put d m k v) j = look e m j := by
  induction m with
  | nil => simp only [put]; split <;> simp [look, hj]
  | cons c r ih =>
    obtain ⟨i, w⟩ := c
    simp only [put]
    split
    · split <;> simp [look, hj]
    · split
      · rename_i hk
        split <;> simp [look, ← hk, hj]
      · simp only [look, ih]

/-- Setting a register leaves every other. -/
theorem State.reg_setReg_ne (s : State) (off o : Nat) (v : Word) (h : o ≠ off) : (s.setReg off v).reg o = s.reg o :=
  look_put_ne_default _ _ _ _ _ _ (Ne.symm h)

/-- An operation that changes no register. -/
theorem Keeps.reg {ws : List Field} {s t : State} (h : Keeps ws s t) (o : Nat) (hf : Field.regs ∉ ws := by decide) :
    t.reg o = s.reg o := congrArg (fun f => look (regReset o) f o) (h.part .regs hf)

/-- A write of PF0 or the runtime that acts now is performed. -/
theorem pfWrite_performed {who : Agent} {s : State} (hgate : s.hostGate who = true) (hwho : isPf0OrCore who = true) (off : Nat)
    (k : State → State) : pfWrite who off k s = k s := by
  unfold pfWrite
  rw [if_neg (by simp [hgate]), if_pos hwho]

theorem execPwrCtlWrite_reg (s : State) (who : Agent) (v : Word) (hgate : s.hostGate who = true) (hwho : isPf0OrCore who = true) :
    ∃ t, exec (.pwrCtlWrite who v) s = .next t ∧ ∀ o, o ≠ 0x0500000 → t.reg o = s.reg o := by
  refine ⟨_, rfl, fun o ho => ?_⟩
  rw [pfWrite_performed hgate hwho]
  dsimp only
  split
  · exact s.reg_setReg_ne _ o _ ho
  · exact ((toSetpoint_keeps _ (Keeps.rfl' _ _) (Within.rfl' _)).reg o).trans (s.reg_setReg_ne _ o _ ho)

theorem execPwrCapWrite_reg (s : State) (who : Agent) (v : Word) (hgate : s.hostGate who = true) (hwho : isPf0OrCore who = true) :
    ∃ t, exec (.pwrCapWrite who v) s = .next t ∧ ∀ o, o ≠ 0x0500008 → t.reg o = s.reg o := by
  refine ⟨_, rfl, fun o ho => ?_⟩
  rw [pfWrite_performed hgate hwho]
  exact s.reg_setReg_ne _ o _ ho

theorem execPwrGroupWrite_reg (s : State) (who : Agent) (v : Word) (hgate : s.hostGate who = true) (hwho : isPf0OrCore who = true) :
    ∃ t, exec (.pwrGroupWrite who v) s = .next t ∧ ∀ o, o ≠ 0x0500030 → t.reg o = s.reg o := by
  refine ⟨_, rfl, fun o ho => ?_⟩
  rw [pfWrite_performed hgate hwho]
  dsimp only
  split
  · exact s.reg_setReg_ne _ o _ ho
  · exact s.reg_setReg_ne _ o _ ho

/-- An entry of the Ranoa window table is written, made valid or refused; no other register changes (14 R501, R519). -/
theorem execRnaWoffValidSet_reg (s : State) (who : Agent) (i : Nat) (v : Word) (hi : i < 2048) (hgate : s.hostGate who = true)
    (hwho : isPf0OrCore who = true) :
    ∃ t, exec (.rnaWoffValidSet who i v) s = .next t ∧ ∀ o, o ≠ rwin i → t.reg o = s.reg o := by
  refine ⟨_, rfl, fun o ho => ?_⟩
  rw [if_neg (by omega), pfWrite_performed hgate hwho]
  dsimp only
  split
  · rfl
  · have hbody := s.reg_setReg_ne (rwin i) o (v &&& 0x30000FFFFFFF0000#64) ho
    split
    · exact (State.reg_setReg_ne _ _ o _ ho).trans hbody
    · exact ((setupRefused_keeps who _ _ (Keeps.rfl' _ _) (Within.rfl' _)).reg o).trans hbody

/-! ## Ports and dies -/

/-- A heartbeat changes its own link alone (02 R47). -/
theorem execHeartbeatSend_others (s : State) (port : Nat) (sd : Side) :
    ∃ t, exec (.heartbeatSend port sd) s = .next t ∧ ∀ q, q ≠ port → t.linkOf q = s.linkOf q := by
  refine ⟨_, rfl, fun q hq => ?_⟩
  split
  · exact State.linkOf_updLink_ne s port q _ (Ne.symm hq)
  · rfl

/-- A packet that its receiver cannot take changes its own link alone (02 R41, R46). -/
theorem execLinkCrcError_others (s : State) (port : Nat) (sd : Side) (hdr : BitVec 128) (body : List Byte) (crc : BitVec 32) :
    ∃ t, exec (.linkCrcError port sd hdr body crc) s = .next t ∧ ∀ q, q ≠ port → t.linkOf q = s.linkOf q := by
  refine ⟨_, rfl, fun q hq => ?_⟩
  split
  · rfl
  · dsimp only
    split
    · rfl
    · exact State.linkOf_updLink_ne s port q _ (Ne.symm hq)

/-- A Ranoa port's heartbeat changes that port alone (14 R495). -/
theorem execRanoaHeartbeatSend_others (s : State) (port : Nat) :
    ∃ t, exec (.ranoaHeartbeatSend port) s = .next t ∧ ∀ q, q ≠ port → t.rportOf q = s.rportOf q := by
  refine ⟨_, rfl, fun q hq => ?_⟩
  split
  · exact look_put_ne _ _ _ _ (Ne.symm hq)
  · rfl

/-- An operation that changes no core die. -/
theorem Keeps.cdieOf {ws : List Field} {s t : State} (h : Keeps ws s t) (d : Nat) (hf : Field.cdie ∉ ws := by decide) :
    t.cdieOf d = s.cdieOf d := congrArg (fun f => look ({} : CoreDie) f d) (h.part .cdie hf)

/-- A core die's divider moves without the other core dies (15 R521). -/
theorem moveCoreDiv_others (die v d : Nat) (s : State) (hd : d ≠ die) : (moveCoreDiv die v s).cdieOf d = s.cdieOf d := by
  unfold moveCoreDiv
  split
  · rfl
  · calc (lowerVolts [53 + die] v (holdArrays ((raiseVolts [53 + die] v s).updCdie die (fun x => { x with div := v })))).cdieOf d
      _ = (holdArrays ((raiseVolts [53 + die] v s).updCdie die (fun x => { x with div := v }))).cdieOf d :=
          (lowerVolts_keeps _ _ _ (Keeps.rfl' _ _) (Within.rfl' _)).cdieOf d
      _ = ((raiseVolts [53 + die] v s).updCdie die (fun x => { x with div := v })).cdieOf d :=
          (holdArrays_keeps _ (Keeps.rfl' _ _) (Within.rfl' _)).cdieOf d
      _ = (raiseVolts [53 + die] v s).cdieOf d := look_put_ne _ _ _ _ (Ne.symm hd)
      _ = s.cdieOf d := (raiseVolts_keeps _ _ s (Keeps.rfl' _ s) (Within.rfl' _)).cdieOf d

/-- A core die throttles without the other core dies (15 R541). -/
theorem execCoreThrottleStep_others (s : State) (die : Nat) :
    ∃ t, exec (.coreThrottleStep die) s = .next t ∧ ∀ d, d ≠ die → t.cdieOf d = s.cdieOf d := by
  refine ⟨_, rfl, fun d hd => ?_⟩
  split
  · rfl
  · dsimp only
    split
    · exact moveCoreDiv_others die _ d s hd
    · exact moveCoreDiv_others die _ d s hd

/-- A hint lapses without the hints and phases of the other tiles (15 R530). -/
theorem execHintLapse_others (s : State) (tile : Nat) :
    ∃ t, exec (.hintLapse tile) s = .next t ∧ (∀ n, n ≠ tile → look [] t.pwr.hints n = look [] s.pwr.hints n) ∧
      ∀ n, n ≠ tile → look none t.pwr.phase n = look none s.pwr.phase n :=
  ⟨_, rfl, fun _ hn => look_put_ne _ _ _ _ (Ne.symm hn), fun _ hn => look_put_ne _ _ _ _ (Ne.symm hn)⟩

/-- Settles O59, part by part: memory, sync objects, registers, ports and dies. -/
theorem otherEntriesStay : Obligations.OtherEntriesStay := by
  unfold Obligations.OtherEntriesStay
  refine ⟨execWrite_rd_outside, ?_, ?_, ?_, ?_, ?_, ?_, execSyncValueWrite_others, execAmoaddD_others, execPwrCtlWrite_reg,
    execPwrCapWrite_reg, execPwrGroupWrite_reg, execRnaWoffValidSet_reg, ?_, ?_, ?_, ?_, execHintLapse_others⟩
  · exact fun s p hop h _ _ => execWriteMasked_rd_outside s p hop h
  · exact fun s p size h _ hsize _ hck => execAtomicAdd_rd_outside s p size h hsize hck
  · exact fun s src tid obj v _ _ _ _ _ => ⟨_, rfl, syncArrive_others (syncAddServe_others src tid obj v) _ s⟩
  · exact fun s src tid obj v _ _ _ _ _ => ⟨_, rfl, syncArrive_others (syncSetServe_others src tid obj v) _ s⟩
  · exact fun s src tid obj v _ _ _ _ => ⟨_, rfl, syncArrive_others (syncWaitOp_others obj src ⟨.port src tid, false, v⟩) _ s⟩
  · exact fun s src tid obj v _ _ _ _ => ⟨_, rfl, syncArrive_others (syncWaitOp_others obj src ⟨.port src tid, true, v⟩) _ s⟩
  · exact fun s port sd _ _ => execHeartbeatSend_others s port sd
  · exact fun s port sd hdr body crc _ _ => execLinkCrcError_others s port sd hdr body crc
  · exact fun s port _ _ => execRanoaHeartbeatSend_others s port
  · exact fun s die _ => execCoreThrottleStep_others s die

end Sys2Proof.Machine
end

section
/-!
O14 and O11, both refuted. Each quantifies over every state, and has a clause that leans on an agreement between parts of the state
that it does not ask for: that a tier die and its site are failed together, and that the table of the pool dies lists each die once.
Everything else that the two obligations state is left open here.
-/
namespace Sys2Proof.Machine

/-! ## A tier die that its own state calls failed and the site's does not -/

/-- Tier die 0 is failed by its own state (09 R314), and its site at port 60 is not recorded as failed (01 R21); the site has been
without its root clock. -/
def tierFailedSiteNot : State :=
  { State.reset with link := [(60, { noRoot := true })], tier := { die := [(0, { state := 3 })] } }

/-- The failure of a tier die that is failed already does nothing (09 R314), so that the site's state stays. -/
theorem holdoverExpired_tierFailedSiteNot {t : State} (h : exec (.holdoverExpired 60) tierFailedSiteNot = .next t) :
    t.siteFailed 60 = false := by
  cases h
  decide +kernel

/-- Refutes O14: the clause on a site whose holdover has run out asks that no die of it is failed by the site's record alone. A tier
die has a state of its own as well, and where that is failed already the row leaves the record as it was. -/
theorem not_hubTimeoutsAndClocks : ¬ Obligations.HubTimeoutsAndClocks := by
  rintro ⟨-, -, -, -, -, -, -, hholdover, -⟩
  obtain ⟨t, hexec, hfailed⟩ := hholdover tierFailedSiteNot 60 (by decide) (by decide) (by decide)
  rw [holdoverExpired_tierFailedSiteNot hexec] at hfailed
  exact absurd hfailed (by decide)

/-! ## A pool die that is listed twice -/

/-- In a pool die without a cache step in service every sector lies in set 0 (09 R287). -/
theorem PoolDie.setOf_inactive {x : PoolDie} (h : x.active = 0) (n : Nat) : x.setOf n = 0 := by
  unfold PoolDie.setOf
  rw [h]
  exact Nat.mod_one _

theorem PoolDie.inSet_inactive {x : PoolDie} (h : x.active = 0) (n : Nat) : x.inSet n = x.lines.map Prod.fst := by
  unfold PoolDie.inSet
  simp [setOf_inactive h]

theorem PoolDie.load_inactive {x : PoolDie} (h : x.active = 0) (plan : List Nat) (n : Nat) :
    x.load plan n = ((x.lines.map Prod.fst ++ x.filling ++ plan).eraseDups).length := by
  unfold PoolDie.load
  simp [setOf_inactive h]

/-- Room is made in a full set with one line that can go: that line is evicted (09 R294). -/
theorem makeRoom_only {d n k : Nat} {own plan : List Nat} {s : State} (habsent : ((s.poolOf d).lineOf n).st = .i)
    (hfill : has n (s.poolOf d).filling = false) (hfull : 16 ≤ (s.poolOf d).load plan n) (honly : s.victims d n own = [k]) :
    makeRoom d n own plan s = (evictLine d k s, (((evictLine d k s).poolOf d).lineOf k).st == .i) := by
  unfold makeRoom
  dsimp only
  rw [if_neg (by simp [habsent, hfill]; omega), honly]
  cases hway : ((s.poolOf d).lineOf k).way == treeVictim (look 0 (s.poolOf d).tree ((s.poolOf d).setOf n)) <;> simp [List.find?, hway]

/-- The line of sector 0, dirty in the pool with bytes that memory does not hold. -/
def dirtyLine : PLine := { st := .d, data := List.replicate 64 1#8 }

/-- A read of sector 1 that waits in pool die 0. -/
def waitingRead : Pkt := ⟨.read, 2, 49, 9, 64, false, [], [], 64⟩

/-- A pool die whose one set is full: a dirty line and sixteen fills under way. A read waits in it. -/
def fullDie : PoolDie := { lines := [(0, dirtyLine)], filling := List.range' 100 16, wait := [(waitingRead, .none)] }

/-- The answer of stack 0 to a request that pool die 0 has forwarded to it for port 1 (09 R290). -/
def homeAnswer : Pkt := ⟨.respAck, 33, 49, 0, 0, false, [], [], 0⟩

/-- Pool die 0 is listed twice. It reads as its first entry, an empty die that has forwarded a request, whose answer is about to
reach it. -/
def poolListedTwice : State :=
  { State.reset with
    link := [(33, { state := 2 }), (49, { state := 2 })]
    hub := { voq := [⟨homeAnswer, true, true, false⟩], outst := [⟨49, 0, 33, .write, 0, 0, .relay 1 5 0, 1, false⟩] }
    pool := [(0, { away := [(1, 5, [0])] }), (0, fullDie)] }

/-- The state in which the pool die has relayed the answer. Its first entry has become the default one, and a table lists none: the
second is what the die reads as now. -/
def poolRelayed : State :=
  poolBack 0 (sendWith true { homeAnswer with src := 49, dst := 1, tid := 5 }
    (boundGo 49 ((reach homeAnswer poolListedTwice).1.dropOutst 49 0)))

/-- The state in which the read that waited is taken up. -/
def readTaken : State := poolRelayed.updPool 0 (fun x => { x with wait := [] })

/-- The last answer to an outstanding request comes: the request is taken off, one that waited for it is issued, and the answer acts as
the request was made for (02 R49, R50). -/
theorem respTake_last {s : State} {p : Pkt} {err : Bool} {o : Outst} (k : Outst → State → State) (hfence : s.fenced p.src = false)
    (hreach : (reach p s).2 = true) (hfind : (reach p s).1.findOutst p.dst p.tid = some o) (hlast : o.left ≤ 1) :
    respTake p err k s = k o (boundGo p.dst ((reach p s).1.dropOutst p.dst p.tid)) := by
  unfold respTake
  rw [if_neg (by simp [hfence])]
  dsimp only
  rw [if_neg (by simp [hreach]), hfind]
  dsimp only
  rw [if_pos (by simp [hlast])]

/-- The answer is relayed, and then what waits in the pool die is taken up (09 R290, R292). -/
theorem respAck_poolListedTwice : exec (.respAck homeAnswer) poolListedTwice = .next (poolRetry 0 poolRelayed) := by
  have htaken := respTake_last (p := homeAnswer) (s := poolListedTwice) (err := false)
    (o := ⟨49, 0, 33, .write, 0, 0, .relay 1 5 0, 1, false⟩) (fun o st => ackFor o homeAnswer st) (by decide +kernel)
    (by decide +kernel) (by decide +kernel) (by decide)
  exact congrArg Host.Outcome.next htaken

/-- The read that waited finds its set full, and the dirty line is evicted for it. -/
theorem readTaken_evicts : makeRoom 0 1 [1] [] readTaken = (evictLine 0 0 readTaken, true) := by
  have hactive : (readTaken.poolOf 0).active = 0 := by decide +kernel
  have hfull : (readTaken.poolOf 0).load [] 1 = 17 := by
    rw [PoolDie.load_inactive hactive]
    decide +kernel
  have honly : readTaken.victims 0 1 [1] = [0] := by
    unfold State.victims
    dsimp only
    rw [PoolDie.inSet_inactive hactive]
    decide +kernel
  have hgone : (((evictLine 0 0 readTaken).poolOf 0).lineOf 0).st = .i := by decide +kernel
  rw [makeRoom_only (by decide +kernel) (by decide +kernel) (by omega) honly, hgone]
  rfl

/-- The memory after the read is taken up is the one after the eviction. -/
theorem poolRetry_poolRelayed_mem : (poolRetry 0 poolRelayed).mem = (evictLine 0 0 readTaken).mem := by
  have hwait : (poolRelayed.poolOf 0).wait = [(waitingRead, .none)] := by decide +kernel
  have hsecs : readTaken.poolSecs waitingRead = [1] := by decide +kernel
  have habsent : [1].filter (fun n => ((readTaken.poolOf 0).lineOf n).st == .i) = [1] := by decide +kernel
  have hroom : roomFor 0 [1] [] [1] readTaken = (evictLine 0 0 readTaken, true) := by
    unfold roomFor
    rw [readTaken_evicts]
    rfl
  unfold poolRetry
  rw [hwait]
  show (poolStart 0 waitingRead .none readTaken).mem = _
  unfold poolStart
  dsimp only
  rw [hsecs, habsent, if_neg (by decide +kernel), if_neg (by decide +kernel), hroom]
  dsimp only
  rw [if_pos (by decide)]
  unfold poolHold State.updPool
  rw [State.withPool_mem, State.withPool_mem]

/-- The evicted line is in memory. -/
theorem evictLine_readTaken_rd : (evictLine 0 0 readTaken).mem.rd 0 = 1#8 := by decide +kernel

/-- Refutes O11: the clause on an answer that a pool die relays asks that the memory stays, since nothing waits in the die. It reads
the die's entry before the answer, and the answer may be what ends that entry: in a table that lists the die twice, which State
admits, the second entry shows then, what waits in it is taken up, and its dirty line goes to memory. -/
theorem not_responses : ¬ Obligations.Responses := by
  rintro ⟨-, hrelay, -⟩
  obtain ⟨t, hexec, -, hmem⟩ := hrelay poolListedTwice homeAnswer ⟨49, 0, 33, .write, 0, 0, .relay 1 5 0, 1, false⟩ 1 5 0
    rfl (by decide +kernel) (by decide +kernel) rfl (by decide +kernel) (by decide +kernel) (by decide) (by decide +kernel)
  rw [respAck_poolListedTwice] at hexec
  cases hexec
  have hrd := congrArg (fun m : Ram => m.rd 0) hmem
  simp only [poolRetry_poolRelayed_mem, evictLine_readTaken_rd] at hrd
  exact absurd hrd (by decide +kernel)

end Sys2Proof.Machine
end

section
/-!
A slot of a tile (03 R72): what it reads as after a change of its tile or of itself, and how an instruction leaves its queue
(03 R76; 04 R139). A slot is held in a tile that is therefore no default one, so that what is written there reads back whatever else
the tables list.
-/
namespace Sys2Proof.Machine

set_option Elab.async false

/-! ## Reading a slot after a change -/

/-- Two changes at one key are one, unless the first leaves the default there. -/
theorem upd_upd {α : Type} [DecidableEq α] {d : α} {m : FMap α} {k : Nat} {f : α → α} (hf : f (look d m k) ≠ d)
    (g : α → α) :
    upd d (upd d m k f) k g = upd d m k (fun v => g (f v)) := by
  unfold upd
  rw [put_put _ _ _ _ hf, look_put_new _ _ _ hf]

/-- A tile that holds a slot is no default tile. -/
theorem Tile.ne_default {t : Tile} {slot : Nat} {x : Slot} (h : look none t.slots slot = some x) : t ≠ {} := by
  rintro rfl
  cases h

/-- A change of a tile that leaves it a slot reads back. -/
theorem State.tileOf_updTile {s : State} {pos slot : Nat} {f : Tile → Tile} {y : Slot}
    (h : look none (f (s.tileOf pos)).slots slot = some y) : (s.updTile pos f).tileOf pos = f (s.tileOf pos) :=
  look_put_new _ _ _ (Tile.ne_default h)

/-- Two changes of a tile are one, unless the first leaves the default there. -/
theorem State.updTile_updTile {s : State} {pos : Nat} {f : Tile → Tile} (hf : f (s.tileOf pos) ≠ {}) (g : Tile → Tile) :
    (s.updTile pos f).updTile pos g = s.updTile pos (fun t => g (f t)) :=
  congrArg s.withTile (upd_upd (f := f) hf g)

section
variable {s : State} {pos slot : Nat} {x : Slot} (h : s.slotOf pos slot = some x)
include h

/-- A change of a tile that leaves its slots leaves each of them. -/
theorem State.slotOf_updTile {f : Tile → Tile} (hf : (f (s.tileOf pos)).slots = (s.tileOf pos).slots) :
    (s.updTile pos f).slotOf pos slot = some x := by
  have hkept : look none (f (s.tileOf pos)).slots slot = some x := by rw [hf]; exact h
  unfold State.slotOf
  rw [State.tileOf_updTile hkept, hkept]

/-- A change of a slot writes its entry. -/
theorem State.updSlot_entry (f : Slot → Slot) :
    upd none (s.tileOf pos).slots slot (fun o => o.map f) = put none (s.tileOf pos).slots slot (some (f x)) :=
  congrArg (fun o : Option Slot => put none (s.tileOf pos).slots slot (o.map f)) h

/-- The entry that a change of a slot has written. -/
theorem State.look_updSlot_entry (f : Slot → Slot) :
    look none (upd none (s.tileOf pos).slots slot (fun o => o.map f)) slot = some (f x) := by
  rw [State.updSlot_entry h f]
  exact look_put_new _ _ _ (Option.some_ne_none _)

/-- A tile after a change of its slot: only the entry of the slot is another. -/
theorem State.tileOf_updSlot (f : Slot → Slot) :
    (s.updSlot pos slot f).tileOf pos = { s.tileOf pos with slots := put none (s.tileOf pos).slots slot (some (f x)) } := by
  rw [← State.updSlot_entry h f]
  exact State.tileOf_updTile (State.look_updSlot_entry h f)

/-- A slot reads back after a change that looks at its tile. -/
theorem State.slotOf_updTile_slot (f : Tile → Slot → Slot) :
    (s.updTile pos (fun t => { t with slots := upd none t.slots slot (fun o => o.map (f t)) })).slotOf pos slot =
      some (f (s.tileOf pos) x) := by
  have hentry := State.look_updSlot_entry h (f (s.tileOf pos))
  unfold State.slotOf
  rw [State.tileOf_updTile hentry]
  exact hentry

/-- A changed slot reads back. -/
theorem State.slotOf_updSlot (f : Slot → Slot) : (s.updSlot pos slot f).slotOf pos slot = some (f x) :=
  State.slotOf_updTile_slot h (fun _ => f)

/-- Changing a slot is writing what it becomes. -/
theorem State.updSlot_const (f : Slot → Slot) : s.updSlot pos slot f = s.updSlot pos slot (fun _ => f x) := by
  have htile : ∀ g : Slot → Slot, s.updSlot pos slot g =
      s.withTile (put {} s.tile pos { s.tileOf pos with slots := put none (s.tileOf pos).slots slot (some (g x)) }) := fun g => by
    rw [← State.updSlot_entry h g]
    rfl
  rw [htile, htile]

/-- Two changes of a slot are one. -/
theorem State.updSlot_updSlot (f g : Slot → Slot) :
    (s.updSlot pos slot f).updSlot pos slot g = s.updSlot pos slot (fun _ => g (f x)) := by
  have hsome : Option.map f (s.slotOf pos slot) ≠ none := by rw [h]; exact Option.some_ne_none _
  have htwice : (s.updSlot pos slot f).updSlot pos slot g = s.updSlot pos slot (fun y => g (f y)) := by
    refine (State.updTile_updTile (Tile.ne_default (State.look_updSlot_entry h f)) _).trans ?_
    unfold State.updSlot State.updTile upd
    refine congrArg (fun m => s.withTile (put {} s.tile pos { s.tileOf pos with slots := m })) ?_
    refine (upd_upd hsome _).trans ?_
    simp only [Option.map_map, Function.comp_def]
    rfl
  rw [htwice, State.updSlot_const h]

end

/-- What leaves the tiles leaves every slot. -/
theorem Keeps.slotOf {ws : List Field} {s t : State} (h : Keeps ws s t) (pos slot : Nat) (hf : Field.tile ∉ ws := by decide) :
    t.slotOf pos slot = s.slotOf pos slot := by
  unfold State.slotOf State.tileOf
  rw [h.same .tile hf]

/-- A started move of a slot. -/
theorem State.slotOf_of_moveOf {s : State} {pos slot id : Nat} {x : Slot} {q : QInstr} (h : s.moveOf pos slot id = some (x, q)) :
    s.slotOf pos slot = some x := by
  unfold State.moveOf at h
  split at h
  · cases h
  · rename_i y hy
    split at h
    · split at h
      · cases h; exact hy
      · cases h
    · cases h

/-! ## An instruction ends -/

/-- A slot that an instruction with these flags has left, before it sets its token (03 R76, 04 R139). -/
def Slot.left (x : Slot) (q : Queue) (i : QInstr) (fl : Sticky) : Slot :=
  { x with tstat := x.tstat ||| fl.setWidth 64 }.setQueue q ((x.queue q).filter (fun j => j.id != i.id))

/-- Changing a queue leaves the tokens. -/
@[simp] theorem Slot.setQueue_tok (x : Slot) (q : Queue) (l : List QInstr) : (x.setQueue q l).tok = x.tok := by cases q <;> rfl

/-- Leaving a queue leaves the tokens. -/
@[simp] theorem Slot.left_tok (x : Slot) (q : Queue) (i : QInstr) (fl : Sticky) : (x.left q i fl).tok = x.tok := by
  unfold Slot.left
  rw [Slot.setQueue_tok]

/-- Changing a queue leaves the other queues and the flags apart. -/
theorem Slot.queue_tstat (x : Slot) (q : Queue) (v : Word) : ({ x with tstat := v } : Slot).queue q = x.queue q := by cases q <;> rfl

/-- An instruction without flags only leaves its queue. -/
theorem Slot.left_unflagged (x : Slot) (q : Queue) (i : QInstr) :
    x.left q i 0#4 = x.setQueue q ((x.queue q).filter (fun j => j.id != i.id)) := by
  unfold Slot.left
  simp

/-- Setting a token changes the tokens only. -/
theorem Slot.told_eq (y : Slot) (w : BitVec 128) : ∃ k, y.told w = { y with tok := k } := by
  unfold Slot.told
  split
  · exact ⟨_, rfl⟩
  · exact ⟨y.tok, rfl⟩

section
variable {s : State} {pos slot : Nat} {x : Slot} (h : s.slotOf pos slot = some x)
include h

/-- A token that stays at 15 or below is added to. -/
theorem addToken_eq {tok n : Nat} (pc : Nat) (htok : look 0 x.tok tok + n ≤ 15) :
    addToken pos slot tok n pc s =
      s.updSlot pos slot (fun _ => { x with tok := put 0 x.tok tok (min (look 0 x.tok tok + n) 15) }) := by
  unfold addToken
  rw [h]
  dsimp only
  rw [if_neg (by omega), State.updSlot_const h]

/-- A slot that has just been written, and whose set-token is below 15, sets it. -/
theorem setDone_updSlot {y : Slot} {w : BitVec 128} (pc : Nat) (htok : wSE w = true → look 0 y.tok (wST w) < 15) :
    setDone pos slot w pc (s.updSlot pos slot (fun _ => y)) = s.updSlot pos slot (fun _ => y.told w) := by
  unfold setDone Slot.told
  split
  · rename_i hset
    rw [addToken_eq (State.slotOf_updSlot h _) pc (htok hset), State.updSlot_updSlot h]
  · rfl

/-- Setting flags, where an update of the slot follows. -/
theorem setFlags_updSlot (fl : Sticky) (g : Slot → Slot) : (setFlags pos slot fl s).updSlot pos slot g =
    s.updSlot pos slot (fun _ => g { x with tstat := x.tstat ||| fl.setWidth 64 }) := by
  unfold setFlags
  split
  · rename_i hnone
    rw [State.updSlot_const h, hnone]
    simp
  · rw [State.updSlot_updSlot h]

/-- An instruction whose set-token is below 15 ends: its slot is written, and nothing else changes. -/
theorem complete_eq {q : Queue} {i : QInstr} {fl : Sticky} (htok : wSE i.word = true → look 0 x.tok (wST i.word) < 15) :
    complete pos slot q i fl s = s.updSlot pos slot (fun _ => (x.left q i fl).told i.word) := by
  unfold complete
  rw [setFlags_updSlot h, ← setDone_updSlot h i.pc (by rwa [Slot.left_tok])]
  simp only [Slot.queue_tstat]
  rfl

/-- What a slot reads as once an instruction has ended, its tokens apart; the accumulators and the store of its tile stay. -/
theorem complete_ends {q : Queue} {i : QInstr} {fl : Sticky} (htok : wSE i.word = true → look 0 x.tok (wST i.word) < 15)
    {α : Type} (g : Slot → α) (hg : ∀ y k, g { y with tok := k } = g y := by intros; rfl) :
    ((complete pos slot q i fl s).slotOf pos slot).map g = some (g (x.left q i fl)) ∧
      ((complete pos slot q i fl s).tileOf pos).acc = (s.tileOf pos).acc ∧
      ((complete pos slot q i fl s).tileOf pos).store = (s.tileOf pos).store := by
  obtain ⟨k, htold⟩ := (x.left q i fl).told_eq i.word
  rw [complete_eq h htok, State.slotOf_updSlot h, State.tileOf_updSlot h, htold]
  exact ⟨congrArg some (hg _ k), rfl, rfl⟩

end

/-- A command that may not change the memory leaves it. -/
theorem exec_mem {c : Instr} {s t : State} (h : exec c s = .next t) (hf : Field.mem ∉ touches c := by simp [touches]) :
    t.mem = s.mem :=
  (exec_keeps c s t h).same .mem hf

end Sys2Proof.Machine
end

section
/-!
O17, and the issue of an instruction into its queue (03 R73, R74; 05 R146; 06 R188): one equation for every opcode and queue.
-/
namespace Sys2Proof.Machine

set_option Elab.async false

/-- The instruction that a slot can issue is one of the slot that its tile holds. -/
theorem State.slotOf_of_canIssue {s : State} {pos slot opc : Nat} {x : Slot} {w : BitVec 128}
    (h : s.canIssue pos slot opc = some (x, w)) : s.slotOf pos slot = some x := by
  unfold State.canIssue at h
  split at h
  · cases h
  · rename_i y hy
    split at h
    · cases h
    · split at h
      · split at h
        · cases h; exact hy
        · cases h
      · cases h

/-- A turn at a unit of a tile leaves its slots. -/
theorem State.slotOf_turned {s : State} {pos slot : Nat} {x : Slot} (h : s.slotOf pos slot = some x) (u k : Nat) :
    (s.turned pos u k).slotOf pos slot = some x :=
  State.slotOf_updTile h rfl

/-- The next fetch of a slot whose index lies within its image raises nothing (05 R150). -/
theorem fetchNext_within {s : State} {pos slot : Nat} {x : Slot} (h : s.slotOf pos slot = some x) (hpc : x.pc < x.count) :
    fetchNext pos slot s = s := by
  unfold fetchNext
  rw [h]
  dsimp only
  rw [if_neg (fun hout => absurd hout.2 (Nat.not_le.mpr hpc))]

/-- The loops that end at an index leave the length of the image. -/
theorem loopEnd_count (pc : Nat) (nest : List Nat) (x : Slot) : (loopEnd pc nest x).count = x.count := by
  induction nest generalizing x with
  | nil => rfl
  | cons c r ih =>
    unfold loopEnd
    dsimp only
    split
    · split
      · rfl
      · rw [ih]
    · rw [ih]

@[simp] theorem Slot.step_count (x : Slot) : x.step.count = x.count := loopEnd_count _ _ _

@[simp] theorem Slot.setQueue_count (x : Slot) (q : Queue) (l : List QInstr) : (x.setQueue q l).count = x.count := by
  cases q <;> rfl

@[simp] theorem Slot.queued_count (x : Slot) (q : Queue) (w : BitVec 128) (cap : List Word × List LayReg) (ord : Nat) :
    (x.queued q w cap ord).count = x.count := by
  unfold Slot.queued
  dsimp only
  rw [Slot.step_count, Slot.setQueue_count]

/-- An instruction that its queue takes enters it, and its slot goes on (03 R73, R74). -/
theorem queueIssue_queues {s : State} {pos slot opc : Nat} {q : Queue} {chk : Slot → BitVec 128 → Option Nat}
    {cap : Slot → BitVec 128 → List Word × List LayReg} {conv : BitVec 128 → Bool} {x : Slot} {w : BitVec 128} {ord : Nat}
    (h : s.queues pos slot opc q chk x w) (hord : (if conv w then x.ord + 1 else x.ord) = ord)
    (hpc : (x.queued q w (cap x w) ord).pc < x.count) :
    queueIssue pos slot opc q chk cap conv s =
      .next ((s.turned pos 0 slot).updSlot pos slot (fun _ => x.queued q w (cap x w) ord)) := by
  obtain ⟨hissue, hreserved, hroom, hcheck⟩ := h
  have hslot := State.slotOf_turned (State.slotOf_of_canIssue hissue) 0 slot
  have hfetch := fetchNext_within (State.slotOf_updSlot hslot (fun _ => x.queued q w (cap x w) ord))
    (by rwa [Slot.queued_count])
  unfold queueIssue
  rw [hissue]
  dsimp only
  rw [if_neg (by simp [hreserved]), if_neg (by omega), hcheck, ← hfetch, ← hord]
  rfl

/-- A command that issues an instruction which its queue takes. -/
theorem exec_queues {c : Instr} {s : State} {pos slot opc : Nat} {q : Queue} {chk : Slot → BitVec 128 → Option Nat}
    {cap : Slot → BitVec 128 → List Word × List LayReg} {conv : BitVec 128 → Bool} {x : Slot} {w : BitVec 128} {ord : Nat}
    (hc : exec c s = queueIssue pos slot opc q chk cap conv s) (h : s.queues pos slot opc q chk x w)
    (hord : (if conv w then x.ord + 1 else x.ord) = ord) (hpc : (x.queued q w (cap x w) ord).pc < x.count) :
    ∃ t, exec c s = .next t ∧ t = (s.turned pos 0 slot).updSlot pos slot (fun _ => x.queued q w (cap x w) ord) :=
  ⟨_, hc.trans (queueIssue_queues h hord hpc), rfl⟩

/-- Settles O17: each of the instructions is issued into its queue. -/
theorem matrixAndVectorIssue : Obligations.MatrixAndVectorIssue := by
  unfold Obligations.MatrixAndVectorIssue
  refine ⟨?_, ?_, ?_, ?_, ?_, ?_, ?_, ?_, ?_, ?_, ?_⟩
  · exact fun s pos slot x w h hpc => exec_queues (c := .mma pos slot) (conv := fun w => fld w 49 49 == 1) rfl h
      (by simp only [beq_iff_eq]) hpc
  · exact fun s pos slot x w h hpc => exec_queues (c := .mdrain pos slot) (conv := fun _ => true) rfl h rfl hpc
  · exact fun s pos slot x w h hpc => exec_queues (c := .vld pos slot) (conv := fun _ => true) rfl h rfl hpc
  · exact fun s pos slot x w h hpc => exec_queues (c := .vst pos slot) (conv := fun _ => true) rfl h rfl hpc
  · exact fun s pos slot x w h hpc => exec_queues (c := .vop pos slot) (conv := fun _ => false) rfl h rfl hpc
  · exact fun s pos slot x w h hpc => exec_queues (c := .vops pos slot) (conv := fun _ => false) rfl h rfl hpc
  · exact fun s pos slot x w h hpc => exec_queues (c := .vcmp pos slot) (conv := fun _ => false) rfl h rfl hpc
  · exact fun s pos slot x w h hpc => exec_queues (c := .vmask pos slot) (conv := fun _ => false) rfl h rfl hpc
  · exact fun s pos slot x w h hpc => exec_queues (c := .vred pos slot) (conv := fun _ => false) rfl h rfl hpc
  · exact fun s pos slot x w h hpc => exec_queues (c := .vsfu pos slot) (conv := fun _ => false) rfl h rfl hpc
  · exact fun s pos slot x w h hpc => exec_queues (c := .vcvt pos slot) (conv := fun _ => true) rfl h rfl hpc

end Sys2Proof.Machine
end

section
/-!
O19. What a matrix, vector or move instruction does to its tile leaves the slots of the tile, so that at its end the instruction leaves
the slot that it was issued from (03 R76, R86, R95; 05 R168; 06 R191, R197).
-/
namespace Sys2Proof.Machine

set_option Elab.async false

/-! ## Work on a tile leaves its slots -/

@[simp] theorem writeAcc_slots (f : Fmt) (arr bank row col v : Nat) (t : Tile) :
    (writeAcc f arr bank row col v t).slots = t.slots := by
  unfold writeAcc
  split <;> rfl

@[simp] theorem countTel_slots (arr k n : Nat) (t : Tile) : (countTel arr k n t).slots = t.slots := rfl

@[simp] theorem markBank_slots (f : Fmt) (arr bank : Nat) (p : Bool) (t : Tile) : (markBank f arr bank p t).slots = t.slots := rfl

/-- A draw of a free value leaves every slot. -/
theorem State.withFree_slotOf (s : State) (k pos slot : Nat) : (s.withFree k).slotOf pos slot = s.slotOf pos slot := rfl

/-- A slot that two states hold is held in either. -/
theorem slotOf_ite {c : Prop} [Decidable c] {t u : State} {pos slot : Nat} {x : Slot} (ht : t.slotOf pos slot = some x)
    (hu : u.slotOf pos slot = some x) : (if c then t else u).slotOf pos slot = some x := by
  split
  · exact ht
  · exact hu

section
variable {s : State} {pos slot : Nat} {x : Slot} (h : s.slotOf pos slot = some x)
include h

/-- Steps that each leave a slot leave it together. -/
theorem slotOf_foldl {β : Type} (f : State → β → State)
    (hf : ∀ t b, t.slotOf pos slot = some x → (f t b).slotOf pos slot = some x) (l : List β) :
    (l.foldl f s).slotOf pos slot = some x :=
  foldl_inv (fun t : State => t.slotOf pos slot = some x) f hf l s h

/-- The same of steps that also gather flags. -/
theorem slotOf_foldl_flags {β : Type} (f : State × Sticky → β → State × Sticky)
    (hf : ∀ a b, a.1.slotOf pos slot = some x → (f a b).1.slotOf pos slot = some x) (l : List β) (fl : Sticky) :
    (l.foldl f (s, fl)).1.slotOf pos slot = some x :=
  foldl_inv (fun a : State × Sticky => a.1.slotOf pos slot = some x) f hf l (s, fl) h

/-- A step that is taken or not. -/
theorem slotOf_doIf {c : Prop} [Decidable c] (f : State → State)
    (hf : ∀ t, t.slotOf pos slot = some x → (f t).slotOf pos slot = some x) : (if c then f s else s).slotOf pos slot = some x :=
  slotOf_ite (hf s h) h

/-- Poisoned data that enters a part is noted with its command. -/
theorem taintTile_slotOf (k rel : Nat) : (taintTile pos k rel s).slotOf pos slot = some x :=
  ((taintTile_keeps pos k rel s (Keeps.rfl' _ s) (Within.rfl' _)).slotOf pos slot).trans h

/-- A failed check word is reported. -/
theorem evCheckword_slotOf (point : Nat) (tile : Bool) (port addr : Nat) :
    (evCheckword point tile port addr s).slotOf pos slot = some x :=
  ((evCheckword_keeps point tile port addr s (Keeps.rfl' _ s) (Within.rfl' _)).slotOf pos slot).trans h

/-- Reading the tile store may poison sectors of it (03 R95). -/
theorem verifyTile_slotOf (k point base : Nat) (ranges : List (Nat × Nat)) :
    (verifyTile pos k point base ranges s).slotOf pos slot = some x := by
  unfold verifyTile
  refine slotOf_foldl h _ (fun t n ht => ?_) _
  have hbad := evCheckword_slotOf (State.slotOf_updTile ht
    (f := fun t => { t with store := (t.store.setPoison n true).fixCk n }) rfl) point true pos (64 * n)
  exact slotOf_doIf (slotOf_ite hbad ht) (taintTile pos k (64 * n - base)) (fun _ hu => taintTile_slotOf hu _ _)

/-- Storing bytes in the tile store. -/
theorem storeTile_slotOf (base a : Nat) (bs : List Byte) (poison : Bool) :
    (storeTile pos base a bs poison s).slotOf pos slot = some x := by
  unfold storeTile
  exact slotOf_ite h (State.slotOf_updTile h rfl)

/-- Storing a row's sectors. -/
theorem storeSects_slotOf (base : Nat) (l : List Sect) : (storeSects pos base l s).slotOf pos slot = some x :=
  slotOf_foldl h _ (fun _ _ ht => storeTile_slotOf ht _ _ _ _) l

/-! ## The arrays -/

/-- Draining a block of a bank (05 R174). -/
theorem drainBlock_slotOf (y : Slot) (q : QInstr) (f : Fmt) (ld : Lay) (rnd : Nat) (dse : Option Nat) (m n i j arr bank : Nat) :
    (drainBlock pos y q f ld rnd dse m n i j arr bank s).1.slotOf pos slot = some x := by
  unfold drainBlock
  refine slotOf_foldl_flags h _ (fun a b ha => ?_) _ _
  exact storeTile_slotOf ha _ _ _ _

/-- Running a block of an MMA (03 R86 to R89). -/
theorem mmaBlock_slotOf (k : Nat) (y : Slot) (q : QInstr) (p : MmaOp) (arrs : List Nat) (b : Nat) :
    (mmaBlock pos k y q p arrs b s).1.slotOf pos slot = some x := by
  have hcells : ∀ (f : Fmt) (arr bank : Nat) (cells : List (Nat × Nat × Nat × Sticky)) (t : Tile),
      (cells.foldl (fun u c => writeAcc f arr bank c.1 c.2.1 c.2.2.1 u) t).slots = t.slots := fun f arr bank cells t =>
    foldl_inv (fun u : Tile => u.slots = t.slots) _ (fun u c hu => (writeAcc_slots ..).trans hu) cells t rfl
  unfold mmaBlock
  dsimp only
  split
  · exact drainBlock_slotOf (State.slotOf_updTile (verifyTile_slotOf h _ _ _ _) (by rw [markBank_slots, hcells])) ..
  · exact State.slotOf_updTile (verifyTile_slotOf h _ _ _ _) (by rw [markBank_slots, hcells])

/-- Counting the freezes of an array (03 R85). -/
theorem countFreeze_slotOf (a n : Nat) (scaled : Bool) : (countFreeze pos a n scaled s).slotOf pos slot = some x := by
  unfold countFreeze State.draw
  dsimp only
  refine State.slotOf_updTile ?_ ?_
  · simpa only [State.withFree_slotOf] using h
  · simp only [countTel_slots]

/-- Counting what the arrays did (03 R85). -/
theorem countBusy_slotOf (arrs : List Nat) (p : MmaOp) : (countBusy pos arrs p s).slotOf pos slot = some x := by
  unfold countBusy
  refine slotOf_foldl h _ (fun t i ht => ?_) _
  refine countFreeze_slotOf ?_ _ _ _
  exact State.slotOf_updTile ht (countTel_slots _ _ _ _)

/-- An MMA (03 R86). -/
theorem mmaRun_slotOf (k : Nat) (y : Slot) (q : QInstr) : (mmaRun pos k y q s).1.slotOf pos slot = some x := by
  unfold mmaRun
  refine countBusy_slotOf (slotOf_foldl_flags h _ (fun a b ha => ?_) _ _) _ _
  exact mmaBlock_slotOf ha _ _ _ _ _ _

/-- An MDRAIN (05 R174). -/
theorem drainRun_slotOf (y : Slot) (q : QInstr) : (drainRun pos y q s).1.slotOf pos slot = some x := by
  unfold drainRun
  refine slotOf_foldl_flags h _ (fun a b ha => ?_) _ _
  exact drainBlock_slotOf ha _ _ _ _ _ _ _ _ _ _ _ _

/-! ## The mover -/

/-- A LOAD or GET writes the tile store (06 R191, R193). -/
theorem loadWrite_slotOf (y : Slot) (q : QInstr) : (loadWrite pos y q s).1.slotOf pos slot = some x := by
  unfold loadWrite
  dsimp only
  split
  · refine slotOf_doIf (slotOf_foldl h _ (fun t r ht => ?_) _) (storeSects pos _ _) (fun _ hu => storeSects_slotOf hu _ _)
    exact slotOf_foldl ht _ (fun u i hu => State.slotOf_updTile hu rfl) _
  · refine slotOf_doIf (slotOf_foldl_flags h _ (fun a r ha => ?_) _ _) (storeSects pos _ _) (fun _ hu => storeSects_slotOf hu _ _)
    exact storeSects_slotOf ha _ _

/-- A GATHER writes its output rows (06 R196, R197). -/
theorem gatherWrite_slotOf (y : Slot) (q : QInstr) : (gatherWrite pos y q s).1.slotOf pos slot = some x := by
  unfold gatherWrite
  refine slotOf_foldl_flags h _ (fun a b ha => ?_) _ _
  exact storeSects_slotOf ha _ _

end

/-! ## The rows -/

/-- The work of a matrix instruction, by its opcode (05 R168, R174). -/
def matrixRun (pos slot : Nat) (x : Slot) (q : QInstr) (s : State) : State × Sticky :=
  if wOpc q.word = 0x20 then mmaRun pos slot x q s else drainRun pos x q s

theorem matrixRun_slotOf {s : State} {pos slot : Nat} {x : Slot} (h : s.slotOf pos slot = some x) (q : QInstr) :
    (matrixRun pos slot x q s).1.slotOf pos slot = some x := by
  unfold matrixRun
  split
  · exact mmaRun_slotOf h _ _ _
  · exact drainRun_slotOf h _ _

/-- A matrix instruction that has started ends once no earlier one of its slot uses an array of its own (05 R170 to R172). -/
theorem matrixInstrComplete_ends {s : State} {pos slot id : Nat} {x : Slot} {q : QInstr} (h : s.slotOf pos slot = some x)
    (hfind : x.qm.find? (fun i => i.id == id) = some q) (hstarted : q.started = true)
    (hfirst : ∀ i ∈ x.qm.takeWhile (fun i => i.id != id), ∀ a ∈ i.arrays x, a ∉ q.arrays x) (hheld : s.arraysHeld = false)
    (htok : wSE q.word = true → look 0 x.tok (wST q.word) < 15) {r : State × Sticky} (hr : matrixRun pos slot x q s = r) :
    ∃ t, exec (.matrixInstrComplete pos slot id) s = .next t ∧
      (t.slotOf pos slot).map (fun y => (y.qm, y.tstat)) = some (x.qm.filter (fun i => i.id != q.id), x.tstat ||| r.2.setWidth 64) ∧
      (t.tileOf pos).acc = (r.1.tileOf pos).acc ∧ (t.tileOf pos).store = (r.1.tileOf pos).store ∧ t.mem = s.mem := by
  have hfree : ((x.qm.takeWhile (fun i => i.id != id)).any (fun i => (i.arrays x).any (fun a => has a (q.arrays x)))) = false := by
    simp only [List.any_eq_false, has, List.any_eq_true, beq_iff_eq, not_exists, not_and]
    exact fun i hi a ha b hb hab => hfirst i hi a ha (hab ▸ hb)
  have hexec : exec (.matrixInstrComplete pos slot id) s = .next (complete pos slot .matrix q r.2 r.1) := by
    show execMatrixInstrComplete pos slot id s = _
    unfold execMatrixInstrComplete
    rw [h]
    dsimp only
    rw [hfind]
    dsimp only
    rw [if_neg (by simp [hstarted, hfree, hheld]), ← hr]
    rfl
  have hrun : r.1.slotOf pos slot = some x := hr ▸ matrixRun_slotOf h q
  obtain ⟨hslot, hacc, hstore⟩ := complete_ends hrun htok (q := .matrix) (fl := r.2) (fun y => (y.qm, y.tstat))
  exact ⟨_, hexec, hslot, hacc, hstore, exec_mem hexec⟩

/-- A slot with the vector and mask registers of another, and their poison. -/
def Slot.withRegs (x z : Slot) : Slot := { x with v := z.v, m := z.m, vpois := z.vpois }

/-- A VOP gives the registers of its run (06 R180). -/
theorem vecRun_vop {pos slot : Nat} {x : Slot} {q : QInstr} {s : State} (hop : wOpc q.word = 0x42) :
    vecRun pos slot x q s = (s.updSlot pos slot (fun y => y.withRegs (vopRun (VecOp.of q.word) (ftzOf q.tctl) none x).1),
      (vopRun (VecOp.of q.word) (ftzOf q.tctl) none x).2) := by
  unfold vecRun
  rw [hop]
  rfl

/-- A VMASK gives the mask register of its run (06 R183). -/
theorem vecRun_vmask {pos slot : Nat} {x : Slot} {q : QInstr} {s : State} (hop : wOpc q.word = 0x45) :
    vecRun pos slot x q s =
      (s.updSlot pos slot (fun y => y.withRegs (vmaskRun (VecOp.of q.word) ((q.sregs[0]?).getD 0#64).toNat x)), 0#4) := by
  unfold vecRun
  rw [hop]
  rfl

/-- The vector instruction of a slot that has started ends with the registers that it gives (03 R76, R97). -/
theorem vectorInstrComplete_ends {s : State} {pos slot : Nat} {x z : Slot} {q : QInstr} {fl : Sticky} (h : s.slotOf pos slot = some x)
    (hfind : x.qv.find? QInstr.started = some q) (htok : wSE q.word = true → look 0 x.tok (wST q.word) < 15)
    (hrun : vecRun pos slot x q s = (s.updSlot pos slot (fun y => y.withRegs z), fl)) {α : Type} (g : Slot → α)
    (hg : ∀ y k, g { y with tok := k } = g y := by intros; rfl) :
    ∃ t, exec (.vectorInstrComplete pos slot) s = .next t ∧
      (t.slotOf pos slot).map g = some (g ((x.withRegs z).left .vector q fl)) ∧ t.mem = s.mem := by
  have hexec : exec (.vectorInstrComplete pos slot) s =
      .next (complete pos slot .vector q fl (s.updSlot pos slot (fun y => y.withRegs z))) := by
    show execVectorInstrComplete pos slot s = _
    unfold execVectorInstrComplete
    rw [h]
    dsimp only
    rw [hfind]
    dsimp only
    rw [hrun]
  have hregs : (s.updSlot pos slot (fun y => y.withRegs z)).slotOf pos slot = some (x.withRegs z) := State.slotOf_updSlot h _
  obtain ⟨hslot, -⟩ := complete_ends hregs htok (q := .vector) (fl := fl) g hg
  exact ⟨_, hexec, hslot, exec_mem hexec⟩

/-- A move that has every answer ends with the work `r`. -/
theorem move_ends {s : State} {pos slot : Nat} {x : Slot} {q : QInstr} {c : Instr} {r : State × Sticky}
    (hrun : r.1.slotOf pos slot = some x) (htok : wSE q.word = true → look 0 x.tok (wST q.word) < 15)
    (hexec : exec c s = .next (complete pos slot .move q r.2 r.1)) (hmem : Field.mem ∉ touches c := by simp [touches]) :
    ∃ t, exec c s = .next t ∧
      (t.slotOf pos slot).map (fun y => (y.qx, y.tstat)) = some (x.qx.filter (fun i => i.id != q.id), x.tstat ||| r.2.setWidth 64) ∧
      (t.tileOf pos).store = (r.1.tileOf pos).store ∧ t.mem = s.mem := by
  obtain ⟨hslot, -, hstore⟩ := complete_ends hrun htok (q := .move) (fl := r.2) (fun y => (y.qx, y.tstat))
  exact ⟨_, hexec, hslot, hstore, exec_mem hexec hmem⟩

/-- A LOAD or GET that has every sector writes the tile store and ends (06 R191). -/
theorem execInboundMoveComplete_load {s : State} {pos slot id : Nat} {x : Slot} {q : QInstr} (h : s.moveOf pos slot id = some (x, q))
    (hop : wOpc q.word = 0x80 ∨ wOpc q.word = 0x86) (hdone : q.allDone = true) :
    exec (.inboundMoveComplete pos slot id) s =
      .next (complete pos slot .move q (loadWrite pos x q s).2 (loadWrite pos x q s).1) := by
  show execInboundMoveComplete pos slot id s = _
  unfold execInboundMoveComplete
  rw [h]
  dsimp only
  rw [if_neg (by simp [hdone]), if_pos (by simpa using hop)]

/-- A GATHER that has every row writes its output rows and ends (06 R196, R197). -/
theorem execInboundMoveComplete_gather {s : State} {pos slot id : Nat} {x : Slot} {q : QInstr} (h : s.moveOf pos slot id = some (x, q))
    (hop : wOpc q.word = 0x82) (hdone : q.allDone = true) (hstage : q.stage = 1) :
    exec (.inboundMoveComplete pos slot id) s =
      .next (complete pos slot .move q (gatherWrite pos x q s).2 (gatherWrite pos x q s).1) := by
  show execInboundMoveComplete pos slot id s = _
  unfold execInboundMoveComplete
  rw [h]
  dsimp only
  rw [if_neg (by simp [hdone]), if_neg (by simp [hop]), if_pos (by simp [hop, hstage])]

/-- A STORE, SCATTERADD or PUT whose writes are all acknowledged or counted ends (03 R76). -/
theorem execOutboundMoveComplete_done {s : State} {pos slot id : Nat} {x : Slot} {q : QInstr} (h : s.moveOf pos slot id = some (x, q))
    (hop : moveWrites (wOpc q.word) = true) (hdone : q.allDone = true) :
    exec (.outboundMoveComplete pos slot id) s = .next (complete pos slot .move q q.flags s) := by
  show execOutboundMoveComplete pos slot id s = _
  unfold execOutboundMoveComplete
  rw [h]
  dsimp only
  rw [if_pos (by simp [hop, hdone])]

/-- An XPREF whose fetches have all ended or been skipped ends without flags (06 R201). -/
theorem execXprefComplete_done {s : State} {pos slot id : Nat} {x : Slot} {q : QInstr} (h : s.moveOf pos slot id = some (x, q))
    (hop : wOpc q.word = 0x84) (hdone : q.allDone = true) :
    exec (.xprefComplete pos slot id) s = .next (complete pos slot .move q 0#4 s) := by
  show execXprefComplete pos slot id s = _
  unfold execXprefComplete
  rw [h]
  dsimp only
  rw [if_pos (by simp [hop, hdone])]

/-- Settles O19, row by row. -/
theorem queuedInstructionsEnd : Obligations.QueuedInstructionsEnd := by
  unfold Obligations.QueuedInstructionsEnd
  refine ⟨?mma, ?drain, ?vop, ?vmask, ?load, ?gather, ?outbound, ?xpref⟩
  case mma =>
    intro s pos slot id x q h hfind hstarted hop hfirst hheld htok
    exact matrixInstrComplete_ends h hfind hstarted hfirst hheld htok (if_pos hop)
  case drain =>
    intro s pos slot id x q h hfind hstarted hop hfirst hheld htok
    exact matrixInstrComplete_ends h hfind hstarted hfirst hheld htok (if_neg (by simp [hop]))
  case vop =>
    intro s pos slot x q h hfind hop htok
    exact vectorInstrComplete_ends h hfind htok (vecRun_vop hop) (fun y => (y.qv, y.v, y.vpois))
  case vmask =>
    intro s pos slot x q h hfind hop htok
    obtain ⟨t, hexec, hslot, -⟩ := vectorInstrComplete_ends h hfind htok (vecRun_vmask hop) (fun y => (y.qv, y.v, y.m))
    exact ⟨t, hexec, hslot⟩
  case load =>
    intro s pos slot id x q h hop hdone htok
    exact move_ends (loadWrite_slotOf (State.slotOf_of_moveOf h) x q) htok (execInboundMoveComplete_load h hop hdone)
  case gather =>
    intro s pos slot id x q h hop hdone htok hstage
    exact move_ends (gatherWrite_slotOf (State.slotOf_of_moveOf h) x q) htok (execInboundMoveComplete_gather h hop hdone hstage)
  case outbound =>
    intro s pos slot id x q h hop hdone htok
    exact move_ends (r := (s, q.flags)) (State.slotOf_of_moveOf h) htok (execOutboundMoveComplete_done h hop hdone)
  case xpref =>
    intro s pos slot id x q h hop hdone htok
    obtain ⟨t, hexec, hslot, hstore, hmem⟩ :=
      move_ends (r := (s, 0#4)) (State.slotOf_of_moveOf h) htok (execXprefComplete_done h hop hdone)
    exact ⟨t, hexec, by simpa using hslot, hstore, hmem⟩

end Sys2Proof.Machine
end

section
/-!
O20. The start of the head of a queue (03 R75, R77), the operations that sync instructions send to the hub and their ends (06 R207 to
R210), and the lists of a GATHER (06 R196).
-/
namespace Sys2Proof.Machine

set_option Elab.async false

/-! ## Requests to the hub -/

/-- A request to a port that exists is outstanding as soon as it is issued (02 R49, R50). -/
theorem issue_outst (p : Pkt) (use : Use) (s : State) (hdst : p.dst ≠ noPort) : (issue p use s).hub.outst =
    s.hub.outst ++ [⟨p.src, look 0 s.hub.nextTid p.src, p.dst, p.op, p.addr, p.rdLen, use, answersOf p, false⟩] := by
  unfold issue
  dsimp only
  simp only [if_neg hdst]
  obtain ⟨v, a, l, hsent⟩ := (send_goes { p with tid := look 0 s.hub.nextTid p.src } _).eq
  rw [hsent]
  rfl

/-- A source with room for one more outstanding request, none of which waits, issues it at once (02 R49). -/
theorem request_mayIssue {p : Pkt} {s : State} (use : Use) (h : s.mayIssue p.src) : request p use s = issue p use s := by
  obtain ⟨hroom, hnone⟩ := h
  unfold request
  rw [if_neg]
  rintro (hfull | hwaits)
  · omega
  · obtain ⟨b, hb, hsrc⟩ := List.any_eq_true.mp hwaits
    exact hnone b hb (by simpa using hsrc)

/-- A sync instruction that is sent is outstanding at the hub (07 R217). -/
theorem syncSend_outst {pos : Nat} {s : State} (slot : Nat) (q : QInstr) (h : s.mayIssue pos) : (syncSend pos slot q s).hub.outst =
    s.hub.outst ++ [⟨pos, look 0 s.hub.nextTid pos, 63, .syncOp, ((q.sregs[0]?).getD 0#64).toNat, 0, .tsync pos slot q.id, 1,
      false⟩] := by
  unfold syncSend
  dsimp only
  rw [request_mayIssue _ h, issue_outst _ _ _ (by simp [syncPkt, noPort])]
  rfl

theorem syncSend_mem (pos slot : Nat) (q : QInstr) (s : State) : (syncSend pos slot q s).mem = s.mem :=
  (syncSend_keeps pos slot q s (Keeps.rfl' _ s) (Within.rfl' _)).same .mem

/-! ## The rows -/

/-- The slot in which the head of a queue has taken its token unit and started (03 R75, R77). -/
def Slot.headStarted (x : Slot) (q : Queue) (i : QInstr) : Slot :=
  let y := if wWE i.word then x.take (queueTaker q) (wWT i.word) 1 else x
  y.setQueue q ((y.queue q).map (fun j => if j.id == i.id then { j with started := true } else j))

/-- The head of the vector queue starts, and nothing but its slot and the turn of its unit changes (03 R97). -/
theorem execQueueInstrStart_vector {s : State} {pos slot : Nat} {x : Slot} {i : QInstr} (h : s.slotOf pos slot = some x)
    (hhead : x.head .vector = some i) (hmay : s.headMay pos slot x .vector i = true) (hturn : s.startTurn pos slot .vector i = true) :
    exec (.queueInstrStart pos slot .vector) s =
      .next ((s.startTurned pos slot .vector i).updSlot pos slot (fun _ => x.headStarted .vector i)) := by
  show execQueueInstrStart pos slot .vector s = _
  unfold execQueueInstrStart
  rw [h]
  dsimp only
  rw [hhead]
  dsimp only
  rw [if_neg (by simp [hmay, hturn])]
  rfl

/-- The head of the sync queue, when it is a SIGNAL that waits on no token, starts and is sent (06 R207). -/
theorem execQueueInstrStart_signal {s : State} {pos slot : Nat} {x : Slot} {i : QInstr} (h : s.slotOf pos slot = some x)
    (hhead : x.head .sync = some i) (hop : wOpc i.word = 0xA0) (hlive : s.siteLive pos = true)
    (hfree : s.queueFree pos slot x .sync = true) (hwait : wWE i.word = false) : exec (.queueInstrStart pos slot .sync) s =
      .next (syncSend pos slot i (s.updSlot pos slot (fun _ => x.headStarted .sync i))) := by
  show execQueueInstrStart pos slot .sync s = _
  unfold execQueueInstrStart
  rw [h]
  dsimp only
  rw [hhead]
  dsimp only
  rw [if_neg (by simp [State.headMay, State.startTurn, turnUnit, hlive, hfree, hwait])]
  unfold syncStart
  rw [hop]
  rfl

/-- An RSIGNAL whose moves are acknowledged is sent (06 R208). -/
theorem execRsignalSend_sends {s : State} {pos slot : Nat} {x : Slot} {q : QInstr} (h : s.slotOf pos slot = some x)
    (hfind : x.qs.find? (fun q => q.started && wOpc q.word == 0xA1 && q.stage == 0) = some q)
    (hdone : ∀ m ∈ x.qx, m.id ∈ q.idx → m.allDone = true) :
    exec (.rsignalSend pos slot) s = .next (syncSend pos slot q s) := by
  have hacked : x.qx.any (fun m => has m.id q.idx && !m.allDone) = false := by
    rw [List.any_eq_false]
    intro m hm
    simp only [has, Bool.and_eq_true, List.any_eq_true, beq_iff_eq, Bool.not_eq_true', not_and, Bool.not_eq_false]
    rintro ⟨j, hj, rfl⟩
    exact hdone m hm hj
  show execRsignalSend pos slot s = _
  unfold execRsignalSend
  rw [h]
  dsimp only
  rw [hfind]
  dsimp only
  rw [if_neg (by simp [hacked])]

/-- A sync instruction that the hub has answered ends (06 R207, R209). -/
theorem execSyncInstrComplete_answered {s : State} {pos slot id : Nat} {x : Slot} {q : QInstr} (h : s.slotOf pos slot = some x)
    (hfind : x.find .sync id = some q) (hstarted : q.started = true) (hop : wOpc q.word ≠ 0xA4) (hanswer : q.waitAns = 1) :
    exec (.syncInstrComplete pos slot id) s = .next (complete pos slot .sync q 0#4 s) := by
  show execSyncInstrComplete pos slot id s = _
  unfold execSyncInstrComplete
  rw [h]
  dsimp only
  rw [hfind]
  dsimp only
  rw [if_neg (by simp [hstarted]), if_neg hop, if_pos hanswer]

/-- A TOKWAIT that may take its units takes them and ends (06 R210). -/
theorem execSyncInstrComplete_tokwait {s : State} {pos slot id : Nat} {x : Slot} {q : QInstr} (h : s.slotOf pos slot = some x)
    (hfind : x.find .sync id = some q) (hstarted : q.started = true) (hop : wOpc q.word = 0xA4)
    (hmay : s.mayTake pos slot x 3 (fld q.word 105 100) = true) : exec (.syncInstrComplete pos slot id) s =
      .next (complete pos slot .sync q 0#4 (s.updSlot pos slot (fun y => y.take 3 (fld q.word 105 100) (fld q.word 99 96)))) := by
  show execSyncInstrComplete pos slot id s = _
  unfold execSyncInstrComplete
  rw [h]
  dsimp only
  rw [hfind]
  dsimp only
  rw [if_neg (by simp [hstarted]), if_pos hop, if_pos hmay]

/-- A GATHER of rows whose indices lie in its table asks for its row pieces (06 R196). -/
theorem execGatherListRead_rows {s : State} {pos slot id : Nat} {x : Slot} {q : QInstr} (h : s.moveOf pos slot id = some (x, q))
    (hop : wOpc q.word = 0x82) (hstage : q.stage = 0) (hmode : q.move.mode = 0)
    (hidx : ∀ i ∈ listWords (s.tileByte pos x.winBase) q.move.ri q.move.lt.rows, i = 0xFFFFFFFF ∨ i < q.move.ls.rows) :
    exec (.gatherListRead pos slot id) s = .next (moverGo pos slot id (updQ pos slot .move id (fun y =>
      { y with stage := 1, idx := listWords (s.tileByte pos x.winBase) q.move.ri q.move.lt.rows
               pieces := gatherPieces q.move (listWords (s.tileByte pos x.winBase) q.move.ri q.move.lt.rows) })
      (verifyTile pos slot 1 x.winBase [(q.move.ri, 4 * q.move.lt.rows)] s))) := by
  have hinside : (listWords (s.tileByte pos x.winBase) q.move.ri q.move.lt.rows).any
      (fun i => i != 0xFFFFFFFF && decide (q.move.ls.rows ≤ i)) = false := by
    rw [List.any_eq_false]
    intro i hi
    simp only [Bool.and_eq_true, bne_iff_ne, ne_eq, decide_eq_true_eq, not_and, Nat.not_le]
    exact fun hrow => (hidx i hi).resolve_left hrow
  show execGatherListRead pos slot id s = _
  unfold execGatherListRead
  rw [h]
  dsimp only
  rw [if_neg (by simp [hop, hstage])]
  simp only [hmode, if_true, List.zip_nil_left, List.any_nil, Bool.false_eq_true, if_false, List.head?_nil, Option.getD_none,
    Nat.mul_zero, Nat.add_zero, Nat.zero_ne_one, decide_false, Bool.false_and, hinside, List.nil_append]

/-- Settles O20, row by row. -/
theorem queueHeadsAndSyncInstructions : Obligations.QueueHeadsAndSyncInstructions := by
  unfold Obligations.QueueHeadsAndSyncInstructions
  refine ⟨?vector, ?signal, ?rsignal, ?answered, ?tokwait, ?gather⟩
  case vector =>
    rintro s pos slot x y i h hhead hmay hturn rfl
    refine ⟨_, execQueueInstrStart_vector h hhead hmay hturn, ?_⟩
    unfold Slot.headStarted
    split <;> rfl
  case signal =>
    intro s pos slot x i h hhead hop hlive hfree hwait hissue
    exact ⟨_, execQueueInstrStart_signal h hhead hop hlive hfree hwait, syncSend_outst slot i hissue, syncSend_mem _ _ _ _⟩
  case rsignal =>
    intro s pos slot x q h hfind hdone hissue
    exact ⟨_, execRsignalSend_sends h hfind hdone, syncSend_outst slot q hissue⟩
  case answered =>
    intro s pos slot id x q h hfind hstarted hop hanswer htok
    obtain ⟨hslot, -⟩ := complete_ends h htok (q := .sync) (fl := 0#4) (fun y => (y.qs, y.tstat))
    rw [Slot.left_unflagged] at hslot
    exact ⟨_, execSyncInstrComplete_answered h hfind hstarted hop hanswer, hslot⟩
  case tokwait =>
    intro s pos slot id x q h hfind hstarted hop hset hmay
    refine ⟨_, execSyncInstrComplete_tokwait h hfind hstarted hop hmay, ?_⟩
    rw [complete_eq (State.slotOf_updSlot h _) (by simp [hset]), State.slotOf_updSlot (State.slotOf_updSlot h _), Slot.told, hset]
    rfl
  case gather =>
    rintro s pos slot id x q idx h hop hstage hmode rfl hidx
    exact ⟨_, execGatherListRead_rows h hop hstage hmode hidx, rfl⟩

end Sys2Proof.Machine
end

section
/-!
O21. The life of a slot (03 R103; 05 R147 to R153; 06 R213, R214): the work item, zeroing, the two reads of the image, the end.
-/
namespace Sys2Proof.Machine

set_option Elab.async false

/-- A packet that comes leaves the hub at its target (02 R42). -/
theorem reach_comes {s : State} {p : Pkt} (h : s.comes p) : reach p s = (leaveHub p (s.come p), true) := by
  obtain ⟨-, -, harrives⟩ := h
  unfold reach
  show (if (s.come p).canArrive p then (leaveHub p (s.come p), true) else (s.come p, false)) = _
  rw [if_pos harrives]

/-- The way of a packet leaves the tiles. -/
theorem reach_tile (p : Pkt) (s : State) : (reach p s).1.tile = s.tile :=
  (reach_keeps p s (Keeps.rfl' _ s) (Within.rfl' _)).same .tile

theorem reach_tileOf (p : Pkt) (s : State) (pos : Nat) : (reach p s).1.tileOf pos = s.tileOf pos := by
  unfold State.tileOf
  rw [reach_tile]

theorem reach_slotOf (p : Pkt) (s : State) (pos slot : Nat) : (reach p s).1.slotOf pos slot = s.slotOf pos slot := by
  unfold State.slotOf
  rw [reach_tileOf]

theorem reach_partSlot (p : Pkt) (s : State) (pos ring seq part : Nat) :
    (reach p s).1.partSlot pos ring seq part = s.partSlot pos ring seq part := by
  unfold State.partSlot
  simp only [reach_slotOf]

/-- A slot of a tile whose work item has come (03 R103, 13 R468). -/
def Slot.dispatched (t : Tile) (x : Slot) : Slot :=
  if x.phase = .placed then { x with phase := if slotClean t x then .header else .zeroing } else x

/-- A work item takes the slot of its part on, in the state in which its packet has come (13 R468). -/
theorem execDispatch_comes {s : State} {pos ring seq part k : Nat} (hcomes : s.comes (workItem pos ring seq part))
    (hpart : s.partSlot pos ring seq part = some k) : exec (.dispatch pos ring seq part) s =
      .next ((reach (workItem pos ring seq part) s).1.updTile pos (fun t =>
        { t with slots := upd none t.slots k (fun o => o.map (Slot.dispatched t)) })) := by
  show execDispatch pos ring seq part s = _
  unfold execDispatch
  dsimp only
  rw [if_neg (by simp [reach_comes hcomes]), reach_partSlot, hpart]
  rfl

/-- Zeroing leaves the slots of the tile (03 R103). -/
theorem zeroFor_slots (x : Slot) (t : Tile) : (zeroFor x t).slots = t.slots := rfl

/-- A slot whose resources are zeroed goes on to the read of its header (03 R103). -/
theorem execZeroingDone_zeroes {s : State} {pos slot : Nat} {x : Slot} (h : s.slotOf pos slot = some x) (hphase : x.phase = .zeroing) :
    exec (.zeroingDone pos slot) s =
      .next ((s.updTile pos (zeroFor x)).updSlot pos slot (fun y => { y with phase := .header })) := by
  show execZeroingDone pos slot s = _
  unfold execZeroingDone
  rw [h]
  dsimp only
  rw [if_pos hphase]

/-- A valid header is kept (05 R147, R148). -/
theorem execProgramHeaderRead_valid {s s1 : State} {pos slot : Nat} {x : Slot} {c : Cmd} {hdr b : List Byte}
    (h : s.slotOf pos slot = some x) (hphase : x.phase = .header) (hcmd : s.cmdOf x.ring x.seq = some c)
    (hread : fetchRange (.tile pos) x.ctx x.ring x.seq (c.fld 16 8 % 2 ^ 55) 64 hdr s = (some b, s1))
    (hreserved : (Header.of b).reserved = false) (hok : (Header.of b).ok = true) (hfeat : (Header.of b).missing s.glb.features = 0) :
    exec (.programHeaderRead pos slot hdr) s = .next (s1.updSlot pos slot (fun y =>
      { y with phase := .loading, count := (Header.of b).count, feat := (Header.of b).features, entry := (Header.of b).entry })) := by
  show execProgramHeaderRead pos slot hdr s = _
  unfold execProgramHeaderRead
  rw [h]
  dsimp only
  rw [if_neg (by simp [hphase]), hcmd]
  dsimp only
  rw [hread]
  dsimp only
  rw [if_neg (by simp [hreserved]), if_neg (by simp [hok]), if_neg (by simp [hfeat])]

/-- An image that passes the scan is loaded, and the parts of its command start once all of them have loaded (05 R148, R149;
06 R214). -/
theorem execProgramLoaded_passes {s s1 : State} {pos slot : Nat} {x : Slot} {c : Cmd} {ws : List (BitVec 128)} {b : List Byte}
    (h : s.slotOf pos slot = some x) (hphase : x.phase = .loading) (hcmd : s.cmdOf x.ring x.seq = some c)
    (hread : fetchRange (.tile pos) x.ctx x.ring x.seq (c.fld 16 8 % 2 ^ 55 + 64) (16 * x.count) (wordBytes ws) s = (some b, s1))
    (hscan : scanCode x.feat 0 (wordsOf x.count b) = none) :
    exec (.programLoaded pos slot ws) s = .next (startParts x.ring x.seq
      (s1.updSlot pos slot (fun y => { y with phase := .loaded, code := wordsOf x.count b }))) := by
  show execProgramLoaded pos slot ws s = _
  unfold execProgramLoaded
  rw [h]
  dsimp only
  rw [if_neg (by simp [hphase]), hcmd]
  dsimp only
  rw [hread]
  dsimp only
  rw [hscan]

/-- A command one of whose parts has ended (05 R153). -/
def Cmd.endPart (n : Nat) (c : Cmd) : Cmd :=
  { c with parts := c.parts.map (fun p => if p.num == n then { p with ended := true } else p) }

/-- A slot that has issued EXIT and is idle ends its part (06 R213, 05 R153). -/
theorem execSlotEnd_idle {s : State} {pos slot : Nat} {x : Slot} (h : s.slotOf pos slot = some x) (hphase : x.phase = .exiting)
    (hqm : x.qm = []) (hqv : x.qv = []) (hqx : x.qx = []) (hqs : x.qs = []) :
    exec (.slotEnd pos slot) s = .next (freeSlot pos slot (s.updCmd x.ring x.seq (Cmd.endPart x.part))) := by
  show execSlotEnd pos slot s = _
  unfold execSlotEnd
  rw [h]
  dsimp only
  rw [if_pos (by simp [hphase, hqm, hqv, hqx, hqs])]
  rfl

/-- A slot that is freed gives its flags to its command (05 R153). -/
theorem freeSlot_cmds {s : State} {pos slot : Nat} {x : Slot} (h : s.slotOf pos slot = some x) :
    (freeSlot pos slot s).disp.cmds = s.disp.cmds.map (fun c =>
      if c.ring == x.ring && c.seq == x.seq then { c with flags := c.flags ||| x.tstat.setWidth 4 } else c) := by
  have hforgot : (forgetSlot pos slot x.ring x.seq [] s).disp = s.disp :=
    (forgetSlot_keeps pos slot x.ring x.seq [] s (Keeps.rfl' _ s) (Within.rfl' _)).same .disp
  unfold State.slotOf at h
  unfold freeSlot
  rw [h, ← hforgot]
  rfl

/-- Settles O21, row by row. -/
theorem lifeOfASlot : Obligations.LifeOfASlot := by
  unfold Obligations.LifeOfASlot
  refine ⟨?dispatch, ?zeroing, ?header, ?loaded, ?ends⟩
  case dispatch =>
    intro s pos ring seq part k x hcomes hpart h hphase
    refine ⟨_, execDispatch_comes hcomes hpart, ?_⟩
    rw [State.slotOf_updTile_slot (by rwa [reach_slotOf]), reach_tileOf, Slot.dispatched, if_pos hphase]
    rfl
  case zeroing =>
    intro s pos slot x h hphase
    have hzeroed : (s.updTile pos (zeroFor x)).slotOf pos slot = some x := State.slotOf_updTile h (zeroFor_slots x _)
    have htile : (s.updTile pos (zeroFor x)).tileOf pos = zeroFor x (s.tileOf pos) := State.tileOf_updTile (slot := slot) h
    refine ⟨_, execZeroingDone_zeroes h hphase, ?_⟩
    rw [State.slotOf_updSlot hzeroed, State.tileOf_updSlot hzeroed, htile]
    exact ⟨rfl, rfl, rfl⟩
  case header =>
    intro s s1 pos slot x c hdr b h hphase hcmd hread hreserved hok hfeat
    exact ⟨_, execProgramHeaderRead_valid h hphase hcmd hread hreserved hok hfeat, rfl⟩
  case loaded =>
    intro s s1 pos slot x c ws b h hphase hcmd hread hscan
    exact ⟨_, execProgramLoaded_passes h hphase hcmd hread hscan, rfl⟩
  case ends =>
    intro s pos slot x h hphase hqm hqv hqx hqs
    have hexec := execSlotEnd_idle h hphase hqm hqv hqx hqs
    have hflags := freeSlot_cmds (s := s.updCmd x.ring x.seq (Cmd.endPart x.part)) h
    refine ⟨_, hexec, hflags.trans ?_, exec_mem hexec⟩
    refine (List.map_map ..).trans (List.map_congr_left (fun c _ => ?_))
    by_cases hmine : (c.ring == x.ring && c.seq == x.seq) = true
    · simp only [Function.comp, if_pos hmine, Cmd.endPart]
    · simp only [Function.comp, if_neg hmine]

end Sys2Proof.Machine
end

section
/-!
O56. The formats an MMA rests on: the value of a UE8M0 scale byte (04 R116), the accumulator format of its operands (04 R120), and the
INT32 accumulator (04 R123).
-/
namespace Sys2Proof.Machine

/-- A UE8M0 byte is the power of two of its unbiased exponent, and 0xFF is NaN (04 R116). -/
theorem ue8m0_eq (e : Nat) : ue8m0 e = if e = 0xFF then .nan else .fin false 1 ((e : Int) - 127) := rfl

/-- The integer formats among the multiplicands: INT32 has no role M (04 R106). -/
theorem Fmt.isInt_iff_of_roleM {f : Fmt} (hrole : f.roleM = true) : f.isInt = true ↔ f ∈ [.int16, .int8, .int4, .trn] := by
  cases f <;> simp_all [Fmt.roleM, Fmt.isInt]

/-- An FP64 operand accumulates in FP64 (04 R120). -/
theorem accFmt_of_fp64 {a b : Fmt} (scaled : Bool) (h : a = .fp64 ∨ b = .fp64) : accFmt a b scaled = .fp64 := by
  simp [accFmt, h]

/-- Without an FP64 operand, the accumulator is INT32 exactly for two integer formats without scales, and FP32 otherwise (04 R120). -/
theorem accFmt_of_ne_fp64 {a b : Fmt} (scaled : Bool) (ha : a ≠ .fp64) (hb : b ≠ .fp64) :
    accFmt a b scaled = if a.isInt = true ∧ b.isInt = true ∧ scaled = false then .int32 else .fp32 := by
  simp [accFmt, ha, hb, and_assoc]

/-- The sign extension of a word's number is the word's two's-complement value. -/
theorem sext_toNat {w : Nat} (v : BitVec w) : sext w v.toNat = v.toInt := by
  cases w with
  | zero => simp [sext, BitVec.of_length_zero]
  | succ n =>
    have hhalf : v.toNat < 2 ^ n ↔ 2 * v.toNat < 2 ^ (n + 1) := by omega
    simp [sext, BitVec.toInt_eq_toNat_cond, hhalf]

/-- What an addition to the INT32 accumulator gives, by where the exact sum lies: below the range, above it, or neither (04 R123). -/
theorem accInt_toNat (sat : Bool) (acc : BitVec 32) (sum : Int) :
    accInt sat acc.toNat sum =
      if sat = true ∧ acc.toInt + sum < -2 ^ 31 then (2 ^ 31, fOvf)
      else if sat = true ∧ 2 ^ 31 ≤ acc.toInt + sum then (2 ^ 31 - 1, fOvf)
      else (((acc.toInt + sum) % 2 ^ 32).toNat, 0#4) := by
  have habove : 2 ^ 31 - 1 < acc.toInt + sum ↔ 2 ^ 31 ≤ acc.toInt + sum := by omega
  simp only [accInt, Nat.mod_eq_of_lt acc.isLt, sext_toNat, Bool.and_eq_true, decide_eq_true_eq, habove]

/-- Settles O56: the scale's value by R116, the accumulator's format by whether an operand is FP64, and the INT32 sum by where it lies. -/
theorem numberFormats : Obligations.NumberFormats := by
  unfold Obligations.NumberFormats
  refine ⟨fun e _ => ue8m0_eq e, ?format, ?int32⟩
  case format =>
    intro a b scaled hrolea hroleb
    have hinta := Fmt.isInt_iff_of_roleM hrolea
    have hintb := Fmt.isInt_iff_of_roleM hroleb
    refine ⟨accFmt_of_fp64 scaled, fun ha hb hscaled => ?_, fun ha hb hother => ?_⟩
    · have hfp64 : Fmt.fp64 ∉ [Fmt.int16, .int8, .int4, .trn] := by decide
      rw [accFmt_of_ne_fp64 scaled (ne_of_mem_of_not_mem ha hfp64) (ne_of_mem_of_not_mem hb hfp64),
        if_pos ⟨hinta.mpr ha, hintb.mpr hb, hscaled⟩]
    · rw [accFmt_of_ne_fp64 scaled ha hb, if_neg (by rwa [hinta, hintb])]
  case int32 =>
    intro acc sum
    refine ⟨?wraps, fun hlow hhigh => ?fits, fun hbelow => ?below, fun habove => ?above⟩
    case wraps => simp [accInt_toNat]
    case fits => rw [accInt_toNat, if_neg (by omega), if_neg (by omega)]
    case below => rw [accInt_toNat, if_pos ⟨rfl, hbelow⟩]
    case above => rw [accInt_toNat, if_neg (by omega), if_pos ⟨rfl, habove⟩]

end Sys2Proof.Machine
end

section
/-!
O15 and O16, and the execution of a control or scalar instruction by the sequencer (03 R74 to R77; 05 R157 to R165): one
equation for every opcode, with the slot that the effect of the opcode leaves.
-/
namespace Sys2Proof.Machine

set_option Elab.async false

/-! ## What the parts of an issue leave of a slot -/

section
variable {α : Type} (g : Slot → α) (x : Slot)

/-- Taking the unit of a wait-token changes the tokens and the pointer of their turns only. -/
theorem Slot.taken_same (w : BitVec 128) (hg : ∀ k p, g { x with tok := k, tokPtr := p } = g x := by intros; rfl) :
    g (x.taken w) = g x := by
  unfold Slot.taken
  split
  · exact hg _ _
  · rfl

/-- The loops that end at an index change the loops and the index only. -/
theorem loopEnd_same (pc : Nat) (nest : List Nat)
    (hg : ∀ y l n p, g { y with loops := l, nest := n, pc := p } = g y := by intros; rfl) : g (loopEnd pc nest x) = g x := by
  induction nest generalizing x with
  | nil => exact hg x _ _ _
  | cons c r ih =>
    unfold loopEnd
    dsimp only
    split
    · split
      · exact hg x _ _ _
      · rw [ih]
        exact hg x _ _ x.pc
    · exact ih x

/-- A taken branch changes, of a slot, its loops only, before the index. -/
theorem leaveLoops_same (target : Nat) (nest : List Nat)
    (hg : ∀ y l n, g { y with loops := l, nest := n } = g y := by intros; rfl) : g (leaveLoops target nest x) = g x := by
  induction nest generalizing x with
  | nil => rfl
  | cons c r ih =>
    unfold leaveLoops
    dsimp only
    split
    · rfl
    · rw [ih]
      exact hg x _ _

end

section
variable (x : Slot) (w : BitVec 128)

@[simp] theorem Slot.taken_pc : (x.taken w).pc = x.pc := x.taken_same Slot.pc w
@[simp] theorem Slot.taken_count : (x.taken w).count = x.count := x.taken_same Slot.count w
@[simp] theorem Slot.taken_nest : (x.taken w).nest = x.nest := x.taken_same Slot.nest w
@[simp] theorem Slot.taken_loops : (x.taken w).loops = x.loops := x.taken_same Slot.loops w
@[simp] theorem Slot.taken_tstat : (x.taken w).tstat = x.tstat := x.taken_same Slot.tstat w
@[simp] theorem Slot.taken_tctl : (x.taken w).tctl = x.tctl := x.taken_same Slot.tctl w
@[simp] theorem Slot.taken_sreg (n : Nat) : (x.taken w).sreg n = x.sreg n := x.taken_same (·.sreg n) w
@[simp] theorem Slot.taken_lreg (n : Nat) : (x.taken w).lreg n = x.lreg n := x.taken_same (·.lreg n) w
@[simp] theorem Slot.taken_fenceHolds (m : Nat) : (x.taken w).fenceHolds m = x.fenceHolds m := x.taken_same (·.fenceHolds m) w
@[simp] theorem sysrdVal_taken (sel : Nat) : sysrdVal (x.taken w) sel = sysrdVal x sel := x.taken_same (sysrdVal · sel) w

@[simp] theorem Slot.step_tok : x.step.tok = x.tok := loopEnd_same Slot.tok x _ _
@[simp] theorem Slot.step_phase : x.step.phase = x.phase := loopEnd_same Slot.phase x _ _

@[simp] theorem leaveLoops_tok (t : Nat) (l : List Nat) : (leaveLoops t l x).tok = x.tok := leaveLoops_same Slot.tok x t l
@[simp] theorem leaveLoops_count (t : Nat) (l : List Nat) : (leaveLoops t l x).count = x.count :=
  leaveLoops_same Slot.count x t l

@[simp] theorem Slot.setS_tok (n : Nat) (v : Word) : (x.setS n v).tok = x.tok := by
  unfold Slot.setS
  split <;> rfl
@[simp] theorem Slot.setS_count (n : Nat) (v : Word) : (x.setS n v).count = x.count := by
  unfold Slot.setS
  split <;> rfl
@[simp] theorem Slot.setL_tok (n : Nat) (v : LayReg) : (x.setL n v).tok = x.tok := rfl
@[simp] theorem Slot.setL_count (n : Nat) (v : LayReg) : (x.setL n v).count = x.count := rfl

/-- A FENCE holds nothing where all queues are empty (06 R211). -/
theorem Slot.fenceHolds_of_empty (m : Nat) (hm : x.qm = []) (hv : x.qv = []) (hx : x.qx = []) (hs : x.qs = []) :
    x.fenceHolds m = false := by
  simp only [Slot.fenceHolds, hm, hv, hx, hs, List.isEmpty_nil, Bool.not_true, Bool.and_false, Bool.or_self]

end

/-! ## The issue -/

/-- Where an effect sends its slot in an image of `count` instructions: to the next index, or to an index it names. An effect that
faults or holds sends it nowhere, nor does a jump out of the image (05 R150, R165). -/
inductive SeqRes.Goes (count : Nat) : SeqRes → Slot → Prop where
  | next (y : Slot) : Goes count (.next y) y.step
  | skip (y : Slot) (pc : Nat) : Goes count (.skip y pc) { y with pc := pc }
  | jump (y : Slot) (t : Int) (hlow : 0 ≤ t) (hhigh : t < count) :
    Goes count (.jump y t) { leaveLoops t.toNat y.nest y with pc := t.toNat }

/-- The next fetch raises nothing in a slot that issues no more, or whose index lies within its image (05 R150; 06 R213). -/
theorem fetchNext_quiet {s : State} {pos slot : Nat} {x : Slot} (h : s.slotOf pos slot = some x)
    (hpc : x.phase = .running → x.pc < x.count) : fetchNext pos slot s = s := by
  unfold fetchNext
  rw [h]
  dsimp only
  rw [if_neg (fun hout => absurd hout.2 (Nat.not_le.mpr (hpc hout.1)))]

section
variable {s : State} {pos slot : Nat} {x y : Slot} {w : BitVec 128} (h : s.slotOf pos slot = some x)
include h

/-- An instruction whose set-token is below 15 and whose slot goes on within its image ends in its slot alone. -/
theorem fetchNext_setDone_updSlot (pc : Nat) (htok : wSE w = true → look 0 y.tok (wST w) < 15)
    (hpc : y.phase = .running → y.pc < y.count) :
    fetchNext pos slot (setDone pos slot w pc (s.updSlot pos slot (fun _ => y))) = s.updSlot pos slot (fun _ => y.told w) := by
  obtain ⟨k, htold⟩ := y.told_eq w
  rw [setDone_updSlot h pc htok]
  refine fetchNext_quiet (State.slotOf_updSlot h _) ?_
  rw [htold]
  exact hpc

end

section
variable {e : Res} {s : State} {pos slot opc : Nat} {f : Slot → BitVec 128 → SeqRes} {x y : Slot} {w : BitVec 128}

/-- An instruction that its sequencer executes leaves the slot its effect goes to, with its set-token set (03 R74 to R76). -/
theorem seqIssue_runs (h : s.runs pos slot opc x w) (hgo : (f (x.taken w) w).Goes x.count y) (htok : y.tok = (x.taken w).tok)
    (hpc : y.phase = .running → y.pc < y.count) :
    seqIssue pos slot opc f s = .next ((s.turned pos 0 slot).updSlot pos slot (fun _ => y.told w)) := by
  obtain ⟨hissue, hreserved, hwait, hset⟩ := h
  have hslot := State.slotOf_turned (State.slotOf_of_canIssue hissue) 0 slot
  have hend := fetchNext_setDone_updSlot hslot x.pc (by rwa [htok]) hpc
  have hgranted : ¬ (wWE w && !s.mayTake pos slot x 4 (wWT w)) = true := by
    intro hheld
    obtain ⟨hwe, hrefused⟩ := Bool.and_eq_true_iff.mp hheld
    rw [hwait hwe] at hrefused
    cases hrefused
  unfold seqIssue
  rw [hissue]
  dsimp only
  rw [if_neg (by rw [hreserved]; exact Bool.false_ne_true), if_neg hgranted, ← hend, ← Slot.taken]
  generalize f (x.taken w) w = r at hgo
  cases hgo with
  | next y => rfl
  | skip y pc => rfl
  | jump y t hlow hhigh =>
    dsimp only
    rw [if_neg (by omega)]

/-- An answer that is the issue of such an instruction is a next state. -/
theorem seqIssue_goes (he : e = seqIssue pos slot opc f s) (h : s.runs pos slot opc x w)
    (hgo : (f (x.taken w) w).Goes x.count y) (htok : y.tok = (x.taken w).tok) (hpc : y.phase = .running → y.pc < y.count) :
    ∃ t, e = .next t ∧ t = (s.turned pos 0 slot).updSlot pos slot (fun _ => y.told w) :=
  ⟨_, he.trans (seqIssue_runs h hgo htok hpc), rfl⟩

/-- An instruction whose effect changes its slot and goes on to the next index. -/
theorem seqIssue_next (he : e = seqIssue pos slot opc f s) (h : s.runs pos slot opc x w)
    (hf : f (x.taken w) w = .next y) (htok : y.tok = (x.taken w).tok) (hcount : y.count = x.count)
    (hpc : y.step.pc < x.count) :
    ∃ t, e = .next t ∧ t = (s.turned pos 0 slot).updSlot pos slot (fun _ => y.step.told w) :=
  seqIssue_goes he h (hf ▸ .next y) (by rwa [Slot.step_tok]) (fun _ => by rwa [Slot.step_count, hcount])

/-- An instruction whose effect writes a scalar register. -/
theorem seqIssue_setS {n : Nat} {v : Word} (he : e = seqIssue pos slot opc f s) (h : s.runs pos slot opc x w)
    (hf : f (x.taken w) w = .next ((x.taken w).setS n v)) (hpc : ((x.taken w).setS n v).step.pc < x.count) :
    ∃ t, e = .next t ∧
      t = (s.turned pos 0 slot).updSlot pos slot (fun _ => ((x.taken w).setS n v).step.told w) :=
  seqIssue_next he h hf (Slot.setS_tok ..) ((Slot.setS_count ..).trans (Slot.taken_count x w)) hpc

/-- An instruction whose effect writes a layout register. -/
theorem seqIssue_setL {n : Nat} {v : LayReg} (he : e = seqIssue pos slot opc f s) (h : s.runs pos slot opc x w)
    (hf : f (x.taken w) w = .next ((x.taken w).setL n v)) (hpc : ((x.taken w).setL n v).step.pc < x.count) :
    ∃ t, e = .next t ∧
      t = (s.turned pos 0 slot).updSlot pos slot (fun _ => ((x.taken w).setL n v).step.told w) :=
  seqIssue_next he h hf (Slot.setL_tok ..) ((Slot.setL_count ..).trans (Slot.taken_count x w)) hpc

/-- An instruction whose effect names the next index. -/
theorem seqIssue_skip {pc : Nat} (he : e = seqIssue pos slot opc f s) (h : s.runs pos slot opc x w)
    (hf : f (x.taken w) w = .skip y pc) (htok : y.tok = (x.taken w).tok) (hcount : y.count = x.count) (hpc : pc < x.count) :
    ∃ t, e = .next t ∧ t = (s.turned pos 0 slot).updSlot pos slot (fun _ => Slot.told { y with pc := pc } w) :=
  seqIssue_goes he h (hf ▸ .skip y pc) htok (fun _ => Nat.lt_of_lt_of_eq hpc hcount.symm)

/-- An instruction whose effect jumps to an index of the image (05 R165). -/
theorem seqIssue_jump {t : Int} (he : e = seqIssue pos slot opc f s) (h : s.runs pos slot opc x w)
    (hf : f (x.taken w) w = .jump (x.taken w) t) (hlow : 0 ≤ t) (hhigh : t < x.count) :
    ∃ u, e = .next u ∧ u = (s.turned pos 0 slot).updSlot pos slot
      (fun _ => Slot.told { leaveLoops t.toNat x.nest (x.taken w) with pc := t.toNat } w) := by
  have hgo : (f (x.taken w) w).Goes x.count { leaveLoops t.toNat x.nest (x.taken w) with pc := t.toNat } := by
    rw [hf, ← Slot.taken_nest x w]
    exact .jump _ t hlow hhigh
  refine seqIssue_goes he h hgo (leaveLoops_tok ..) (fun _ => ?_)
  dsimp only
  rw [leaveLoops_count, Slot.taken_count]
  omega

end

/-! ## The scalar instructions -/

/-- Settles O15: each instruction writes its one register and goes on. -/
theorem scalarInstructions : Obligations.ScalarInstructions := by
  unfold Obligations.ScalarInstructions
  refine ⟨?nop, ?li, ?alu, ?alui, ?rdstat, ?clrstat, ?rdctl, ?wrctl, ?sysrd⟩
  case nop => exact fun s pos slot x w h hpc => seqIssue_next (e := execNop pos slot s) rfl h rfl rfl (Slot.taken_count x w) hpc
  case li => exact fun s pos slot x w h hpc => seqIssue_setS (e := execLi pos slot s) rfl h rfl hpc
  case alu =>
    exact fun s pos slot x w h hpc =>
      seqIssue_setS (e := execAlu pos slot s) rfl h (by simp only [Slot.taken_sreg]) hpc
  case alui =>
    exact fun s pos slot x w h hpc =>
      seqIssue_setS (e := execAlui pos slot s) rfl h (by simp only [Slot.taken_sreg]) hpc
  case rdstat =>
    exact fun s pos slot x w h hpc =>
      seqIssue_setS (e := execRdstat pos slot s) rfl h (by simp only [Slot.taken_tstat]) hpc
  case clrstat =>
    exact fun s pos slot x w h hpc =>
      seqIssue_next (e := execClrstat pos slot s) rfl h (by simp only [Slot.taken_tstat]) rfl (Slot.taken_count x w) hpc
  case rdctl =>
    exact fun s pos slot x w h hpc =>
      seqIssue_setS (e := execRdctl pos slot s) rfl h (by simp only [Slot.taken_tctl]) hpc
  case wrctl =>
    exact fun s pos slot x w h hpc =>
      seqIssue_next (e := execWrctl pos slot s) rfl h (by simp only [Slot.taken_tctl, Slot.taken_sreg]) rfl
        (Slot.taken_count x w) hpc
  case sysrd =>
    exact fun s pos slot x w v h hv hpc =>
      seqIssue_setS (e := execSysrd pos slot s) rfl h (by simp only [sysrdVal_taken, hv]) hpc

/-! ## The control instructions -/

/-- A hint leaves what an issue reads: the issue is the same. -/
theorem State.runs_addHint {s : State} {pos slot opc : Nat} {x : Slot} {w : BitVec 128} (tile cls us : Nat)
    (h : s.runs pos slot opc x w) : (addHint tile cls us s).runs pos slot opc x w := h

/-- A HINT that its sequencer executes is issued in the state with its hint noted (06 R212; 15 R530). -/
theorem execHint_eq {s : State} {pos slot n : Nat} {x : Slot} {w : BitVec 128} (h : s.runs pos slot 0x10 x w)
    (hus : fld w 103 94 ≤ 1000) (htile : s.tileAt pos = some n) :
    execHint pos slot s = seqIssue pos slot 0x10 (fun x _ => if 1000 < fld w 103 94 then .fault 0x01 else .next x)
      (addHint n (fld w 105 104) (fld w 103 94) s) := by
  obtain ⟨hissue, hreserved, hwait, -⟩ := h
  have htakes : (!wWE w || s.mayTake pos slot x 4 (wWT w)) = true := by
    cases hwe : wWE w with
    | false => rfl
    | true => exact hwait hwe
  have hnoted : (decide (fld w 103 94 ≤ 1000) && !reservedSet w && (!wWE w || s.mayTake pos slot x 4 (wWT w))) = true := by
    rw [decide_eq_true hus, hreserved, htakes]
    rfl
  unfold execHint
  rw [hissue]
  dsimp only
  rw [if_pos hnoted, htile]

/-- Settles O16, row by row. -/
theorem controlInstructions : Obligations.ControlInstructions := by
  unfold Obligations.ControlInstructions
  refine ⟨?taken, ?fallsThrough, ?jmp, ?loop, ?lset, ?ladd, ?lcpy, ?fence, ?hint, ?exit⟩
  case taken =>
    exact fun s pos slot x w h hcond hlow hhigh =>
      seqIssue_jump (e := execBr pos slot s) rfl h (by simp only [Slot.taken_sreg, Slot.taken_pc, hcond]) hlow hhigh
  case fallsThrough =>
    exact fun s pos slot x w h hcond hpc =>
      seqIssue_next (e := execBr pos slot s) rfl h (by simp only [Slot.taken_sreg, hcond]) rfl (Slot.taken_count x w) hpc
  case jmp =>
    exact fun s pos slot x w h hreg hlow hhigh =>
      seqIssue_jump (e := execJmp pos slot s) rfl h (by simp only [hreg, Nat.zero_ne_one, if_false]) hlow hhigh
  case loop =>
    intro s pos slot x w n h hn hcount hbody hend hfree hnest
    refine seqIssue_skip (e := execLoop pos slot s) (y := { x.taken w with
      loops := put {} x.loops (fld w 105 104) ⟨x.pc + 1, x.pc + fld w 87 74, n, true⟩, nest := [fld w 105 104] })
      rfl h ?_ rfl (Slot.taken_count x w) (by omega)
    have hfits : ¬ x.count ≤ x.pc + fld w 87 74 := by omega
    simp only [Slot.taken_pc, Slot.taken_count, Slot.taken_nest, Slot.taken_loops, Slot.taken_sreg, ← hn, hnest, hfree, hfits,
      Nat.ne_of_gt hcount, Nat.ne_of_gt hbody, List.any_nil, Bool.or_self, Bool.false_eq_true, if_false]
  case lset =>
    intro s pos slot x w hl h hzero hsel hpc
    exact seqIssue_setL (e := execLset pos slot s) rfl h (by simp only [Slot.taken_sreg, Slot.taken_lreg, if_neg hzero, hsel]) hpc
  case ladd =>
    intro s pos slot x w h hwhich hpc
    exact seqIssue_setL (e := execLadd pos slot s) rfl h
      (by simp only [Slot.taken_lreg, Slot.taken_sreg, hwhich, Nat.zero_ne_one, if_false]) hpc
  case lcpy =>
    exact fun s pos slot x w h hpc =>
      seqIssue_setL (e := execLcpy pos slot s) rfl h (by simp only [Slot.taken_lreg]) hpc
  case fence =>
    intro s pos slot x w h hmask hm hv hx hs hpc
    have hopen := x.fenceHolds_of_empty (fld w 105 102) hm hv hx hs
    exact seqIssue_next (e := execFence pos slot s) rfl h
      (by simp only [Slot.taken_fenceHolds, hmask, hopen, Bool.false_eq_true, if_false]) rfl (Slot.taken_count x w) hpc
  case hint =>
    intro s pos slot x w n h hus htile hpc
    exact seqIssue_next (execHint_eq h hus htile) (State.runs_addHint n _ _ h) (if_neg (by omega)) rfl (Slot.taken_count x w) hpc
  case exit =>
    intro s pos slot x w h
    refine seqIssue_goes (e := execExit pos slot s) rfl h (.next _) (Slot.step_tok _) (fun hrun => ?_)
    rw [Slot.step_phase] at hrun
    cases hrun

end Sys2Proof.Machine
end

section
/-!
O18: the moves and the sync instructions, by the one equation of an issue into a queue (03 R73, R74; 06 R192, R206).
-/
namespace Sys2Proof.Machine

set_option Elab.async false

section
variable {c : Instr} {s : State} {pos slot opc : Nat} {x : Slot} {w : BitVec 128}

/-- A move that the mover's queue takes. LOAD, STORE and a GATHER of MODE 1 convert, and count in the slot's
ordinal (04 R133; 06 R188). -/
theorem exec_moveQueues {ord : Nat} (hc : exec c s = moveIssue pos slot opc s) (h : s.queues pos slot opc .move (moveCheck s) x w)
    (hord : (if opc = 0x80 ∨ opc = 0x81 ∨ opc = 0x82 ∧ fld w 86 85 = 1 then x.ord + 1 else x.ord) = ord)
    (hpc : (x.queued .move w (moveCap x w) ord).pc < x.count) :
    ∃ t, exec c s = .next t ∧
      t = (s.turned pos 0 slot).updSlot pos slot (fun _ => x.queued .move w (moveCap x w) ord) := by
  refine exec_queues hc h ?_ hpc
  simpa only [Bool.or_eq_true, Bool.and_eq_true, beq_iff_eq, or_assoc] using hord

/-- A sync instruction that its queue takes. None is a converting instruction (06 R188). -/
theorem exec_syncQueues {chk : Slot → BitVec 128 → Option Nat} {cap : Slot → BitVec 128 → List Word × List LayReg}
    (hc : exec c s = queueIssue pos slot opc .sync chk cap (fun _ => false) s) (h : s.queues pos slot opc .sync chk x w)
    (hpc : (x.queued .sync w (cap x w) x.ord).pc < x.count) :
    ∃ t, exec c s = .next t ∧
      t = (s.turned pos 0 slot).updSlot pos slot (fun _ => x.queued .sync w (cap x w) x.ord) :=
  exec_queues hc h rfl hpc

end

/-- Settles O18: each of the moves and sync instructions is issued into its queue. TOKSET and TOKWAIT name the values they capture,
none, since their clauses leave them open to unification. -/
theorem moveAndSyncIssue : Obligations.MoveAndSyncIssue := by
  unfold Obligations.MoveAndSyncIssue
  refine ⟨?load, ?store, ?gather, ?scatteradd, ?xpref, ?put, ?get, ?signal, ?rsignal, ?wait, ?tokset, ?tokwait⟩
  case load => exact fun s pos slot x w h hpc => exec_moveQueues (c := .load pos slot) rfl h (by simp) hpc
  case store => exact fun s pos slot x w h hpc => exec_moveQueues (c := .store pos slot) rfl h (by simp) hpc
  case gather => exact fun s pos slot x w h hpc => exec_moveQueues (c := .gather pos slot) rfl h (by simp) hpc
  case scatteradd => exact fun s pos slot x w h hpc => exec_moveQueues (c := .scatteradd pos slot) rfl h (by simp) hpc
  case xpref => exact fun s pos slot x w h hpc => exec_moveQueues (c := .xpref pos slot) rfl h (by simp) hpc
  case put => exact fun s pos slot x w h hpc => exec_moveQueues (c := .put pos slot) rfl h (by simp) hpc
  case get => exact fun s pos slot x w h hpc => exec_moveQueues (c := .get pos slot) rfl h (by simp) hpc
  case signal => exact fun s pos slot x w h hpc => exec_syncQueues (c := .signal pos slot) rfl h hpc
  case rsignal => exact fun s pos slot x w h hpc => exec_syncQueues (c := .rsignal pos slot) rfl h hpc
  case wait => exact fun s pos slot x w h hpc => exec_syncQueues (c := .wait pos slot) rfl h hpc
  case tokset =>
    exact fun s pos slot x w h hpc => exec_syncQueues (c := .tokset pos slot) (cap := fun _ _ => ([], [])) rfl h hpc
  case tokwait =>
    exact fun s pos slot x w h hpc => exec_syncQueues (c := .tokwait pos slot) (cap := fun _ _ => ([], [])) rfl h hpc

end Sys2Proof.Machine
end

section
/-!
O22. The operations on sync objects (07 R216 to R222): what the hub's queues carry after an answer, what an object holds after an
operation, and the ways by which the operations come.
-/
namespace Sys2Proof.Machine

set_option Elab.async false

/-! ## The packets inside the hub -/

/-- Granting a packet marks it, and no more. -/
theorem updFirst_fwd_pkts (q : Voq → Bool) (l : List Voq) :
    (updFirst q (fun v => { v with fwd := true }) l).map Voq.pkt = l.map Voq.pkt := by
  induction l with
  | nil => rfl
  | cons v r ih =>
    simp only [updFirst]
    split
    · rfl
    · rw [List.map_cons, List.map_cons, ih]

/-- Granting leaves the packets inside the hub (02 R56). -/
theorem pump_pkts (n dst : Nat) (s : State) : (pump n dst s).hub.voq.map Voq.pkt = s.hub.voq.map Voq.pkt := by
  induction n generalizing s with
  | zero => rfl
  | succ n ih =>
    simp only [pump]
    split
    · rfl
    · split
      · rfl
      · split
        · rfl
        · rw [ih, freeSlotOf_hub]
          split <;> exact updFirst_fwd_pkts _ _

/-- A packet inside the hub is the packet of one of its queue entries. -/
theorem State.exists_voq_iff (s : State) (p : Pkt) : (∃ v ∈ s.hub.voq, v.pkt = p) ↔ p ∈ s.hub.voq.map Voq.pkt :=
  List.mem_map.symm

/-- The packets inside the hub once one more has entered it. -/
theorem pumpOut_addVoq_pkts (dst : Nat) (p : Pkt) (aside made : Bool) (s : State) :
    (pumpOut dst (s.addVoq p aside made)).hub.voq.map Voq.pkt = s.hub.voq.map Voq.pkt ++ [p] := by
  unfold pumpOut
  rw [pump_pkts]
  exact List.map_append

/-- A packet of the hub's own, to a port that is not fenced, enters the hub, unless it answers what the hub has answered (02 R60). -/
theorem send_own_pkts {p : Pkt} {s : State} (hsrc : p.src = 63) (hfence : s.fenced p.dst = false)
    (hopen : opVc p.op = 1 → (p.dst, p.tid) ∉ s.hub.dropped) :
    (send p s).hub.voq.map Voq.pkt = s.hub.voq.map Voq.pkt ++ [p] := by
  have hunanswered : ¬ (opVc p.op = 1 ∧ s.hub.dropped.any (fun d => d == (p.dst, p.tid)) = true) := by
    rintro ⟨hvc, hany⟩
    obtain ⟨d, hd, heq⟩ := List.any_eq_true.mp hany
    exact hopen hvc (by rwa [← eq_of_beq heq])
  unfold send sendWith hubTake
  rw [if_pos hsrc, if_neg (by simp [hfence]), if_neg hunanswered]
  exact pumpOut_addVoq_pkts _ _ _ _ _

/-- A packet that enters the hub adds at most one to what is inside. -/
theorem hubTake_voq_length (p : Pkt) (aside made : Bool) (s : State) :
    (hubTake p aside made s).hub.voq.length ≤ s.hub.voq.length + 1 := by
  have hadd : ∀ (dst : Nat) (q : Pkt) (a m : Bool) (u : State), u.hub = s.hub →
      (pumpOut dst (u.addVoq q a m)).hub.voq.length ≤ s.hub.voq.length + 1 := fun dst q a m u hu => by
    have hlen := congrArg List.length (pumpOut_addVoq_pkts dst q a m u)
    simp only [List.length_map, List.length_append, List.length_singleton, hu] at hlen
    exact Nat.le_of_eq hlen
  unfold hubTake
  split
  · dsimp only
    split
    · exact hadd _ _ _ _ _ (freeSlotOf_hub _ _ _)
    · rw [freeSlotOf_hub]; omega
  · split
    · rw [freeSlotOf_hub]; omega
    · exact hadd _ _ _ _ _ rfl

theorem send_voq_length (p : Pkt) (s : State) : (send p s).hub.voq.length ≤ s.hub.voq.length + 1 := by
  unfold send sendWith
  split
  · exact hubTake_voq_length _ _ _ _
  · split
    · exact Nat.le_succ _
    · split
      · exact hubTake_voq_length _ _ _ _
      · exact Nat.le_succ _

/-- Dropping what a search finds. -/
theorem dropFirst_length {α : Type} {q : α → Bool} {l : List α} {a : α} (h : l.find? q = some a) :
    (dropFirst q l).length + 1 = l.length := by
  induction l with
  | nil => cases h
  | cons b r ih =>
    simp only [dropFirst]
    cases hb : q b with
    | true => rfl
    | false =>
      rw [List.find?_cons_of_neg (by simp [hb])] at h
      simpa using ih h

/-- A packet leaves the hub. -/
theorem leaveHub_voq_length {p : Pkt} {s : State} (h : s.canArrive p = true) :
    (leaveHub p s).hub.voq.length + 1 = s.hub.voq.length := by
  have hin : ∃ v, s.hub.voq.find? (fun v => v.pkt == p) = some v := by
    unfold State.canArrive at h
    split at h
    · rename_i v hv
      simp only [Bool.and_eq_true] at h
      exact Option.isSome_iff_exists.mp (List.find?_isSome.mpr ⟨v, List.mem_of_find?_eq_some hv, h.2.1⟩)
    · simp at h
  obtain ⟨v, hv⟩ := hin
  unfold leaveHub
  rw [hv]
  dsimp only
  rw [freeSlotOf_hub]
  exact dropFirst_length hv

/-- A request that its target has taken adds nothing to what is inside the hub. -/
theorem arrived_voq_length {s : State} {p : Pkt} (h : s.takes p) : (s.arrived p).hub.voq.length ≤ s.hub.voq.length := by
  obtain ⟨-, -, -, -, -, harrives⟩ := h
  have hleft := leaveHub_voq_length harrives
  have hsent : (s.sent p).hub.voq.length ≤ s.hub.voq.length + 1 := by
    unfold State.sent
    split
    · exact Nat.le_succ _
    · have hlen := send_voq_length p (s.noteReq p (answersOf p))
      rwa [(noteReq_hub s p _).1] at hlen
  show (leaveHub p (s.sent p)).hub.voq.length ≤ _
  omega

/-- What goes on its way leaves the outstanding requests. -/
theorem Goes.outst {s t : State} (h : Goes s t) : t.hub.outst = s.hub.outst := by
  obtain ⟨⟨v, a, l, rfl⟩, -, -⟩ := h
  rfl

theorem leaveHub_outst (p : Pkt) (s : State) : (leaveHub p s).hub.outst = s.hub.outst := by
  unfold leaveHub
  split
  · rfl
  · rw [freeSlotOf_hub]; rfl

/-! ## What an object holds after an operation -/

/-- An object whose operation is counted, with its pointer past the source (07 R218, R226). -/
def SyncObj.counted (o : SyncObj) (src : Nat) : SyncObj :=
  { o with ops := satAdd 0xFFFFFFFF o.ops 1, ptr := (src + 1) % 64 }

/-- An object that has taken the value `v`: counted, and without the waiters that the value satisfies (07 R220). -/
def SyncObj.valued (o : SyncObj) (src : Nat) (v : Word) : SyncObj :=
  { o.counted src with val := v, waiters := o.waiters.filter (fun w => !w.holds v) }

theorem satAdd_one_ne_zero (n : Nat) : satAdd 0xFFFFFFFF n 1 ≠ 0 := by
  unfold satAdd
  split <;> omega

/-- An object that has counted an operation is no default one, so that what is written of it reads back. -/
theorem State.syncOf_updSync {s : State} {n : Nat} {f : SyncObj → SyncObj} (h : (f (s.syncOf n)).ops ≠ 0) :
    (s.updSync n f).syncOf n = f (s.syncOf n) :=
  look_put_new _ _ _ (fun hdefault => h (congrArg SyncObj.ops hdefault))

@[simp] theorem syncCount_syncOf (n src : Nat) (s : State) : (syncCount n src s).syncOf n = (s.syncOf n).counted src :=
  State.syncOf_updSync (satAdd_one_ne_zero _)

/-- What a release leaves: the objects, every fence, and the requests that the hub has answered itself. -/
structure ReleaseKeeps (s t : State) : Prop where
  sync : t.sync = s.sync
  fence : ∀ q, t.fenced q = s.fenced q
  dropped : t.hub.dropped = s.hub.dropped

theorem ReleaseKeeps.refl (s : State) : ReleaseKeeps s s := ⟨rfl, fun _ => rfl, rfl⟩

theorem ReleaseKeeps.trans {a b c : State} (h : ReleaseKeeps a b) (g : ReleaseKeeps b c) : ReleaseKeeps a c :=
  ⟨g.sync.trans h.sync, fun q => (g.fence q).trans (h.fence q), g.dropped.trans h.dropped⟩

theorem Goes.releaseKeeps {s t : State} (h : Goes s t) : ReleaseKeeps s t := by
  obtain ⟨⟨v, a, l, rfl⟩, hfence, -⟩ := h
  exact ⟨rfl, hfence, rfl⟩

/-- Releasing a waiter sends a packet or frees a head (07 R217, R220). -/
theorem releaseOne_keepsRest (n : Nat) (v : Word) (w : Waiter) (s : State) : ReleaseKeeps s (releaseOne n v w s) := by
  unfold releaseOne
  split
  · exact (send_goes _ s).releaseKeeps
  · exact ⟨rfl, fun _ => rfl, rfl⟩

/-- Releasing the waiters that an object's value satisfies takes them off it and does no more to it (07 R220). -/
theorem releaseWaiters_keepsRest (n : Nat) (s : State) :
    ReleaseKeeps (s.updSync n (fun x => { x with waiters := x.waiters.filter (fun w => !w.holds (s.syncOf n).val) }))
      (releaseWaiters n s) :=
  foldl_inv (ReleaseKeeps _) _ (fun t w h => h.trans (releaseOne_keepsRest n _ w t)) _ _ (.refl _)

/-- What reads an object of an equal table. -/
theorem State.syncOf_congr {s t : State} (h : t.sync = s.sync) (n : Nat) : t.syncOf n = s.syncOf n :=
  congrArg (fun m => look ({} : SyncObj) m n) h

/-- An object that has counted an operation, without the waiters that its value satisfies (07 R220). -/
theorem releaseWaiters_syncOf {n : Nat} {s : State} {o : SyncObj} (h : s.syncOf n = o) (hcounted : o.ops ≠ 0) :
    (releaseWaiters n s).syncOf n = { o with waiters := o.waiters.filter (fun w => !w.holds o.val) } := by
  subst h
  rw [State.syncOf_congr (releaseWaiters_keepsRest n s).sync]
  exact State.syncOf_updSync hcounted

/-- An operation that gives an object a value, as ADD and SET do: `f` is the new value of the old. -/
theorem releaseWaiters_valued (n src : Nat) (f : Word → Word) (s : State) :
    (releaseWaiters n ((syncCount n src s).updSync n (fun x => { x with val := f x.val }))).syncOf n =
      (s.syncOf n).valued src (f (s.syncOf n).val) := by
  have hops : ((s.syncOf n).counted src).ops ≠ 0 := satAdd_one_ne_zero _
  have hwritten : ((syncCount n src s).updSync n (fun x => { x with val := f x.val })).syncOf n =
      { (s.syncOf n).counted src with val := f (s.syncOf n).val } := by
    rw [State.syncOf_updSync (by rw [syncCount_syncOf]; exact hops), syncCount_syncOf]
    rfl
  exact releaseWaiters_syncOf hwritten hops

theorem syncAddOp_syncOf (n src : Nat) (v : Word) (s : State) :
    (syncAddOp n src v s).syncOf n = (s.syncOf n).valued src ((s.syncOf n).val + v) :=
  releaseWaiters_valued n src (fun x => x + v) s

theorem syncSetOp_syncOf (n src : Nat) (v : Word) (s : State) :
    (syncSetOp n src v s).syncOf n = (s.syncOf n).valued src v :=
  releaseWaiters_valued n src (fun _ => v) s

/-- An ADD or SET changes no fence and answers no request by itself. -/
theorem syncAddOp_keepsRest (n src : Nat) (v : Word) (s : State) :
    (∀ q, (syncAddOp n src v s).fenced q = s.fenced q) ∧ (syncAddOp n src v s).hub.dropped = s.hub.dropped :=
  have h := releaseWaiters_keepsRest n ((syncCount n src s).updSync n (fun x => { x with val := x.val + v }))
  ⟨h.fence, h.dropped⟩

theorem syncSetOp_keepsRest (n src : Nat) (v : Word) (s : State) :
    (∀ q, (syncSetOp n src v s).fenced q = s.fenced q) ∧ (syncSetOp n src v s).hub.dropped = s.hub.dropped :=
  have h := releaseWaiters_keepsRest n ((syncCount n src s).updSync n (fun x => { x with val := v }))
  ⟨h.fence, h.dropped⟩

/-! ## How an operation comes, and its answer -/

/-- An operation that its object takes is performed in the state in which the hub has taken its packet (07 R218, R219). -/
theorem syncArrive_takes {s : State} {p : Pkt} (k : State → State) (h : s.syncTakes p) (hone : answersOf p = 1)
    (hhub : p.dst = 63) : syncArrive p k s = k (s.arrived p) := by
  obtain ⟨hsrc, haddr, htakes, hturn⟩ := h
  have hsent : (if s.onWay p || s.seenTid 63 p.src p.tid || !s.mayCome p then s else send p (s.noteReq p 1)) = s.sent p := by
    obtain ⟨-, -, hseen, -, hcome, -⟩ := htakes
    rw [hhub] at hseen
    unfold State.sent
    simp [hseen, hcome, hone]
  unfold syncArrive
  rw [if_neg (by omega), if_neg hsrc]
  dsimp only
  rw [hsent, if_pos hturn, arriveReq_sent k htakes]

/-- Taking a packet changes no object (02 R49), and not who may reach one (07 R222). -/
theorem arrived_sync (s : State) (p : Pkt) : (s.arrived p).sync = s.sync := by
  obtain ⟨⟨x, l, heq⟩, -, -⟩ := arrived_comes s p
  rw [heq]
  rfl

@[simp] theorem arrived_syncOf (s : State) (p : Pkt) (n : Nat) : (s.arrived p).syncOf n = s.syncOf n :=
  State.syncOf_congr (arrived_sync s p) n

theorem arrived_mayObj (s : State) (p : Pkt) (who : Agent) (obj : Nat) : (s.arrived p).mayObj who obj = s.mayObj who obj := by
  obtain ⟨⟨x, l, heq⟩, -, -⟩ := arrived_comes s p
  rw [heq]
  rfl

theorem State.isAmo_congr {s t : State} (h : t.hub.outst = s.hub.outst) (src tid : Nat) : t.isAmo src tid = s.isAmo src tid := by
  unfold State.isAmo State.findOutst
  rw [h]

/-- A request that becomes outstanding under a TID that none has is the one of that TID (02 R49). -/
theorem State.findOutst_addOutst {s : State} {o : Outst} (h : s.findOutst o.src o.tid = none) :
    (s.addOutst o).findOutst o.src o.tid = some o := by
  unfold State.findOutst State.addOutst at *
  rw [State.withHub_hub, List.find?_append, h]
  simp

/-- A sync packet noted on its way is no AMOADD.D's (07 R217): it is recorded without what asked for it. -/
theorem noteReq_isAmo {s : State} {p : Pkt} (n : Nat) (hop : p.op = .syncOp) :
    (s.noteReq p n).isAmo p.src p.tid = s.isAmo p.src p.tid := by
  unfold State.noteReq
  dsimp only
  split
  · rfl
  · rename_i hsome
    have hnone : s.findOutst p.src p.tid = none := by simpa using hsome
    unfold State.isAmo
    rw [hnone, State.findOutst_addOutst hnone]
    simp [hop]

theorem arrived_isAmo {s : State} {p : Pkt} (hop : p.op = .syncOp) : (s.arrived p).isAmo p.src p.tid = s.isAmo p.src p.tid := by
  refine (State.isAmo_congr (leaveHub_outst p (s.sent p)) _ _).trans ?_
  unfold State.sent
  split
  · rfl
  · rw [State.isAmo_congr (send_goes p _).outst, noteReq_isAmo _ hop]

/-- The answer to an operation of another port is inside the hub (07 R217, R219), and the objects stay. -/
theorem syncAnswer_answers {op : PktOp} {src tid obj : Nat} {payload : List Byte} {s : State} (hsrc : src ≠ 63)
    (hfence : s.fenced src = false) (hopen : (src, tid) ∉ s.hub.dropped) :
    (syncAnswer op src tid obj payload s).sync = s.sync ∧
      ∃ v ∈ (syncAnswer op src tid obj payload s).hub.voq, v.pkt = ⟨op, 63, src, tid, obj, false, payload, [], 0⟩ := by
  unfold syncAnswer
  rw [if_neg hsrc]
  refine ⟨(send_goes _ s).releaseKeeps.sync, (State.exists_voq_iff _ _).mpr ?_⟩
  rw [send_own_pkts rfl hfence (fun _ => hopen)]
  exact List.mem_append_right _ (List.mem_singleton.mpr rfl)

/-- An operation that its object takes, performed by `g` on the state in which its packet has come, and answered. -/
theorem syncTakes_answered {s g : State} {src tid obj op : Nat} {v : Word} (aop : PktOp) (payload : List Byte)
    (h : s.syncTakes (syncPkt src tid obj op v)) (hfence : ∀ q, g.fenced q = (s.arrived (syncPkt src tid obj op v)).fenced q)
    (hdropped : g.hub.dropped = (s.arrived (syncPkt src tid obj op v)).hub.dropped) :
    (syncAnswer aop src tid obj payload g).sync = g.sync ∧
      ∃ w ∈ (syncAnswer aop src tid obj payload g).hub.voq, w.pkt = ⟨aop, 63, src, tid, obj, false, payload, [], 0⟩ := by
  obtain ⟨hsrc, -, ⟨hopen, -, -, hnew, -, -⟩, -⟩ := h
  obtain ⟨-, hfenced, hanswered⟩ := arrived_comes s (syncPkt src tid obj op v)
  refine syncAnswer_answers hsrc ?_ ?_
  · rw [hfence, hfenced]
    exact hopen
  · rw [hdropped]
    exact fun hmem => hnew (hanswered _ hmem)

/-- An ADD that its object takes (07 R216, R220): the answer is RESP_DATA with the value before it to a core's AMOADD.D, and RESP_ACK
otherwise (R217). -/
theorem execSyncAdd_takes {s : State} {src tid obj : Nat} {v : Word} (h : s.syncTakes (syncPkt src tid obj 0 v)) :
    ∃ t, exec (.syncAdd src tid obj v) s = .next t ∧ t.syncOf obj = (s.syncOf obj).valued src ((s.syncOf obj).val + v) ∧
      ∃ p ∈ t.hub.voq, p.pkt = if s.isAmo src tid = true
        then ⟨.respData, 63, src, tid, obj, false, valPayload (s.syncOf obj).val, [], 0⟩
        else ⟨.respAck, 63, src, tid, obj, false, [], [], 0⟩ := by
  refine ⟨_, congrArg Host.Outcome.next (syncArrive_takes _ h rfl rfl), ?_⟩
  have hamo : (s.arrived (syncPkt src tid obj 0 v)).isAmo src tid = s.isAmo src tid := arrived_isAmo rfl
  obtain ⟨hfence, hdropped⟩ := syncAddOp_keepsRest obj src v (s.arrived (syncPkt src tid obj 0 v))
  have hanswer := fun aop payload => syncTakes_answered aop payload h hfence hdropped
  unfold syncAddServe
  rw [hamo, arrived_syncOf]
  split
  · obtain ⟨hsync, hvoq⟩ := hanswer .respData (valPayload (s.syncOf obj).val)
    exact ⟨by rw [State.syncOf_congr hsync, syncAddOp_syncOf, arrived_syncOf], hvoq⟩
  · obtain ⟨hsync, hvoq⟩ := hanswer .respAck []
    exact ⟨by rw [State.syncOf_congr hsync, syncAddOp_syncOf, arrived_syncOf], hvoq⟩

/-- A SET that its object takes (07 R216, R217, R220). -/
theorem execSyncSet_takes {s : State} {src tid obj : Nat} {v : Word} (h : s.syncTakes (syncPkt src tid obj 1 v)) :
    ∃ t, exec (.syncSet src tid obj v) s = .next t ∧ t.syncOf obj = (s.syncOf obj).valued src v ∧
      ∃ p ∈ t.hub.voq, p.pkt = ⟨.respAck, 63, src, tid, obj, false, [], [], 0⟩ := by
  refine ⟨_, congrArg Host.Outcome.next (syncArrive_takes _ h rfl rfl), ?_⟩
  obtain ⟨hfence, hdropped⟩ := syncSetOp_keepsRest obj src v (s.arrived (syncPkt src tid obj 1 v))
  obtain ⟨hsync, hvoq⟩ := syncTakes_answered .respAck [] h hfence hdropped
  exact ⟨by rw [syncSetServe, State.syncOf_congr hsync, syncSetOp_syncOf, arrived_syncOf], hvoq⟩

/-- A WAIT whose condition holds when it comes is counted and released at once (07 R217, R220). -/
theorem syncWaitOp_holds {s : State} {src tid obj op : Nat} {u v : Word} {eq : Bool} (h : s.syncTakes (syncPkt src tid obj op u))
    (hholds : Waiter.holds ⟨.port src tid, eq, v⟩ (s.syncOf obj).val = true) :
    (syncWaitOp obj src ⟨.port src tid, eq, v⟩ (s.arrived (syncPkt src tid obj op u))).syncOf obj = (s.syncOf obj).counted src ∧
      ∃ w ∈ (syncWaitOp obj src ⟨.port src tid, eq, v⟩ (s.arrived (syncPkt src tid obj op u))).hub.voq,
        w.pkt = ⟨.syncWake, 63, src, tid, obj, false, valPayload (s.syncOf obj).val, [], 0⟩ := by
  obtain ⟨-, -, ⟨hopen, -⟩, -⟩ := h
  have hfence : (s.arrived (syncPkt src tid obj op u)).fenced src = false := ((arrived_comes s _).fence _).trans hopen
  have hcounted : (syncCount obj src (s.arrived (syncPkt src tid obj op u))).syncOf obj = (s.syncOf obj).counted src := by
    rw [syncCount_syncOf, arrived_syncOf]
  unfold syncWaitOp
  dsimp only
  rw [hcounted, if_pos (show Waiter.holds _ ((s.syncOf obj).counted src).val = true from hholds)]
  unfold releaseOne
  dsimp only
  constructor
  · rw [State.syncOf_congr (send_goes _ _).releaseKeeps.sync, hcounted]
  · rw [State.exists_voq_iff, send_own_pkts rfl hfence (fun hvc => absurd hvc (by simp [opVc]))]
    exact List.mem_append_right _ (List.mem_singleton.mpr rfl)

/-- A WAIT whose condition does not hold is counted and kept as a waiter, and nothing is answered (07 R220, R221). -/
theorem syncWaitOp_waits {s : State} {src tid obj op : Nat} {u : Word} {w : Waiter} (h : s.syncTakes (syncPkt src tid obj op u))
    (hholds : w.holds (s.syncOf obj).val = false) :
    (syncWaitOp obj src w (s.arrived (syncPkt src tid obj op u))).syncOf obj =
        { (s.syncOf obj).counted src with waiters := (s.syncOf obj).waiters ++ [w] } ∧
      (syncWaitOp obj src w (s.arrived (syncPkt src tid obj op u))).hub.voq.length ≤ s.hub.voq.length := by
  obtain ⟨-, -, htakes, -⟩ := h
  have hcounted : (syncCount obj src (s.arrived (syncPkt src tid obj op u))).syncOf obj = (s.syncOf obj).counted src := by
    rw [syncCount_syncOf, arrived_syncOf]
  unfold syncWaitOp
  dsimp only
  rw [hcounted, if_neg (show ¬ w.holds ((s.syncOf obj).counted src).val = true by simpa [SyncObj.counted] using hholds)]
  refine ⟨?_, arrived_voq_length htakes⟩
  rw [State.syncOf_updSync (by rw [hcounted]; exact satAdd_one_ne_zero _), hcounted]
  rfl

/-- A READ that its object takes is counted and answered with the value (07 R216, R217). -/
theorem execSyncRead_takes {s : State} {src tid obj fn : Nat} (h : s.syncTakes (syncPkt src tid obj 4 0#64))
    (hmay : src = 57 → s.mayObj (.host fn) obj = true) :
    ∃ t, exec (.syncRead src tid obj fn) s = .next t ∧ t.syncOf obj = (s.syncOf obj).counted src ∧
      ∃ p ∈ t.hub.voq, p.pkt = ⟨.respData, 63, src, tid, obj, false, valPayload (s.syncOf obj).val, [], 0⟩ := by
  refine ⟨_, congrArg Host.Outcome.next (syncArrive_takes _ h rfl rfl), ?_⟩
  have howned : ¬ (src = 57 ∧ (!(s.arrived (syncPkt src tid obj 4 0#64)).mayObj (.host fn) obj) = true) := by
    rintro ⟨hsrc, hnot⟩
    rw [arrived_mayObj, hmay hsrc] at hnot
    cases hnot
  rw [if_neg howned, arrived_syncOf]
  obtain ⟨hsync, hvoq⟩ := syncTakes_answered (g := syncCount obj src (s.arrived (syncPkt src tid obj 4 0#64))) .respData
    (valPayload (s.syncOf obj).val) h (fun _ => rfl) rfl
  exact ⟨by rw [State.syncOf_congr hsync, syncCount_syncOf, arrived_syncOf], hvoq⟩

/-- A load of a VF from an object that none of its contexts owns reads 0 (07 R222). -/
theorem execSyncRead_notOwned {s : State} {tid obj fn : Nat} (h : s.syncTakes (syncPkt 57 tid obj 4 0#64))
    (hmay : s.mayObj (.host fn) obj = false) :
    ∃ t, exec (.syncRead 57 tid obj fn) s = .next t ∧
      (∃ p ∈ t.hub.voq, p.pkt = ⟨.respData, 63, 57, tid, obj, false, valPayload 0, [], 0⟩) ∧ t.sync = s.sync := by
  refine ⟨_, congrArg Host.Outcome.next (syncArrive_takes _ h rfl rfl), ?_⟩
  rw [if_pos ⟨rfl, by rw [arrived_mayObj, hmay]; rfl⟩]
  obtain ⟨hsync, hvoq⟩ := syncTakes_answered .respData (valPayload 0) h (fun _ => rfl) rfl
  exact ⟨hvoq, hsync.trans (arrived_sync s _)⟩

/-- Issuing a request keeps the outstanding ones (02 R49). -/
theorem issue_outst_prefix (p : Pkt) (use : Use) {l : List Outst} {s : State} (h : s.hub.outst = l) :
    l <+: (issue p use s).hub.outst := by
  subst h
  unfold issue
  dsimp only
  split
  · rw [hubSays, (pumpOut_goes _ _).outst]
    exact List.prefix_append _ _
  · rw [(send_goes _ _).outst]
    exact List.prefix_append _ _

/-- A waiting request that is issued keeps the outstanding ones (02 R49). -/
theorem boundGo_outst_prefix (src : Nat) (s : State) : s.hub.outst <+: (boundGo src s).hub.outst := by
  unfold boundGo
  split
  · exact List.prefix_rfl
  · split
    · exact List.prefix_rfl
    · exact issue_outst_prefix _ _ rfl

/-- A packet that comes leaves the outstanding requests. -/
theorem reach_outst {s : State} {p : Pkt} (h : s.comes p) : (reach p s).1.hub.outst = s.hub.outst := by
  rw [reach_comes h]
  show (leaveHub p (s.come p)).hub.outst = _
  rw [leaveHub_outst]
  unfold State.come
  split
  · rfl
  · exact (send_goes p s).outst

/-- The outstanding requests once an answer has come and the request of its port and TID is settled (02 R49). -/
theorem reach_dropOutst_outst {s : State} {p : Pkt} {dst tid : Nat} (h : s.comes p) :
    ((reach p s).1.dropOutst dst tid).hub.outst = s.hub.outst.filter (fun y => !(y.src == dst && y.tid == tid)) :=
  congrArg (List.filter _) (reach_outst h)

/-- A SYNC_WAKE answers the sync instruction that its request serves (06 R209; 07 R217). -/
theorem execSyncWake_answers {s : State} {dst tid pos slot id : Nat} {o : Outst} {v : Word}
    (h : s.comes ⟨.syncWake, 63, dst, tid, o.addr, false, valPayload v, [], 0⟩) (hfind : s.findOutst dst tid = some o)
    (huse : o.use = .tsync pos slot id) :
    exec (.syncWake dst tid v) s = .next (syncInstrAnswered pos slot id (boundGo dst
      ((reach ⟨.syncWake, 63, dst, tid, o.addr, false, valPayload v, [], 0⟩ s).1.dropOutst dst tid))) := by
  have hstill : (reach ⟨.syncWake, 63, dst, tid, o.addr, false, valPayload v, [], 0⟩ s).1.findOutst dst tid = some o := by
    unfold State.findOutst at hfind ⊢
    rw [reach_outst h, hfind]
  show execSyncWake dst tid v s = _
  unfold execSyncWake
  rw [hfind]
  dsimp only
  rw [if_neg (by simp [reach_comes h]), hstill]
  dsimp only
  rw [huse]

/-- Settles O22, operation by operation. -/
theorem syncOperations : Obligations.SyncOperations := by
  unfold Obligations.SyncOperations
  refine ⟨?add, ?amoadd, ?set, ?geHolds, ?geWaits, ?eqWaits, ?eqHolds, ?read, ?notOwned, ?wake⟩
  case add =>
    intro s src tid obj v h hamo
    obtain ⟨t, hexec, hobj, hvoq⟩ := execSyncAdd_takes h
    rw [hamo] at hvoq
    exact ⟨t, hexec, by rw [hobj]; rfl, by rw [hobj]; rfl, by rw [hobj]; rfl, hvoq⟩
  case amoadd =>
    intro s src tid obj v h hamo
    obtain ⟨t, hexec, hobj, hvoq⟩ := execSyncAdd_takes h
    rw [hamo] at hvoq
    exact ⟨t, hexec, by rw [hobj]; rfl, hvoq⟩
  case set =>
    intro s src tid obj v h
    obtain ⟨t, hexec, hobj, hvoq⟩ := execSyncSet_takes h
    exact ⟨t, hexec, by rw [hobj]; rfl, by rw [hobj]; rfl, hvoq⟩
  case geHolds =>
    intro s src tid obj v h hle
    obtain ⟨hobj, hvoq⟩ := syncWaitOp_holds (eq := false) (v := v) h (by simpa [Waiter.holds] using hle)
    exact ⟨_, congrArg Host.Outcome.next (syncArrive_takes _ h rfl rfl), hvoq, by rw [hobj]; rfl⟩
  case geWaits =>
    intro s src tid obj v h hlt
    obtain ⟨hobj, hlen⟩ := syncWaitOp_waits (w := ⟨.port src tid, false, v⟩) h (by simpa [Waiter.holds] using hlt)
    exact ⟨_, congrArg Host.Outcome.next (syncArrive_takes _ h rfl rfl), by rw [hobj], by rw [hobj]; rfl, hlen⟩
  case eqWaits =>
    intro s src tid obj v h hne
    obtain ⟨hobj, -⟩ := syncWaitOp_waits (w := ⟨.port src tid, true, v⟩) h (by simpa [Waiter.holds] using hne)
    exact ⟨_, congrArg Host.Outcome.next (syncArrive_takes _ h rfl rfl), by rw [hobj], by rw [hobj]; rfl⟩
  case eqHolds =>
    rintro s src tid obj v h rfl
    obtain ⟨hobj, hvoq⟩ := syncWaitOp_holds (eq := true) (v := (s.syncOf obj).val) h
      (by simp [Waiter.holds])
    exact ⟨_, congrArg Host.Outcome.next (syncArrive_takes _ h rfl rfl), hvoq, by rw [hobj]; rfl⟩
  case read =>
    intro s src tid obj fn h hmay
    obtain ⟨t, hexec, hobj, hvoq⟩ := execSyncRead_takes h hmay
    exact ⟨t, hexec, hvoq, by rw [hobj]; rfl, by rw [hobj]; rfl⟩
  case notOwned => exact fun s tid obj fn h hmay => execSyncRead_notOwned h hmay
  case wake =>
    intro s dst tid pos slot id o v x h hfind huse hslot
    refine ⟨_, execSyncWake_answers h hfind huse, ?_, ?_⟩
    · have hkept : (boundGo dst ((reach ⟨.syncWake, 63, dst, tid, o.addr, false, valPayload v, [], 0⟩ s).1.dropOutst dst
          tid)).slotOf pos slot = some x := by
        rw [(boundGo_keeps dst _ (Keeps.rfl' _ _) (Within.rfl' _)).slotOf pos slot]
        exact (reach_slotOf _ s pos slot).trans hslot
      exact congrArg (Option.map Slot.qs) (State.slotOf_updTile_slot hkept (fun _ y =>
        { y with qs := y.qs.map (fun q => if q.id == id then { q with waitAns := 1 } else q) }))
    · have hkept := boundGo_outst_prefix dst
        ((reach ⟨.syncWake, 63, dst, tid, o.addr, false, valPayload v, [], 0⟩ s).1.dropOutst dst tid)
      rwa [reach_dropOutst_outst h] at hkept

end Sys2Proof.Machine
end

section
/-!
O23, O43 and O47, all three refuted. Each has one clause that leaves out a condition of the rule it states. The state of each
refutation is written out, and the model evaluates the command in it. What the other clauses state is left open here.
-/
namespace Sys2Proof.Machine

set_option Elab.async false

/-! ## An AMOADD.D behind an older packet of its TID -/

/-- An ADD of 9 on object 5 by core die 0, with TID 0. -/
def oldAdd : Pkt := syncPkt 53 0 5 0 9

/-- Core die 0 has 4,096 reads outstanding and its next TID is 0. Its ADD of an earlier round of TIDs is still inside the hub: a fence
takes a die's requests off the outstanding ones and leaves the packets that have been granted (02 R58, R59). -/
def oldAddInside : State :=
  { State.reset with
    hub := { voq := [⟨oldAdd, true, false, false⟩]
             outst := (List.range 4096).map (fun i => ⟨53, 2 ^ 32 - 1 - i, 33, .read, 64 * i, 64, .plain, 1, false⟩) } }

/-- The AMOADD.D of core 0 on object 5 meets what the clause asks for, by the packet that is inside the hub. -/
theorem oldAddInside_syncNow : oldAddInside.syncNow 53 5 0 9 (.amo 0 5) ∧
    oldAddInside.findOutst 53 (look 0 oldAddInside.hub.nextTid 53) = none := by
  decide +kernel

/-- The AMOADD.D waits in its die for room, the hub performs the ADD that it holds, and since no AMOADD.D is outstanding under its
TID the answer is RESP_ACK (02 R49; 07 R217). -/
theorem amoaddD_oldAddInside : ∃ t, exec (.amoaddD 0 5 9) oldAddInside = .next t ∧
    t.hub.voq.map Voq.pkt = [⟨.respAck, 63, 53, 0, 5, false, [], [], 0⟩] ∧ t.hub.bound.length = 1 :=
  ⟨_, rfl, by decide +kernel⟩

/-- Refutes O23: the clause on AMOADD.D asks that a packet of the core's die, TID and operation comes, not that it is the one which the
AMOADD.D sends. When the die has no room for one more outstanding request (02 R49) and an older packet of the next TID is inside the
hub, that one is performed, and it is not answered with the value before it. -/
theorem not_syncAndRanoaRegisters : ¬ Obligations.SyncAndRanoaRegisters := by
  rintro ⟨-, hamoadd, -⟩
  obtain ⟨hnow, hnone⟩ := oldAddInside_syncNow
  obtain ⟨t, hexec, hinside, -⟩ := amoaddD_oldAddInside
  obtain ⟨u, hclause, -, -, p, hp, hdata⟩ := hamoadd oldAddInside 0 5 9 (by decide) (by decide) hnow hnone
  obtain rfl := Host.Outcome.next.inj (hexec.symm.trans hclause)
  have hack := List.mem_map_of_mem (f := Voq.pkt) hp
  rw [hdata, hinside, List.mem_singleton] at hack
  exact absurd (congrArg Pkt.op hack) (by decide)

/-! ## An output of a CROSS_PATH ring into a 257th region -/

/-- A COPY of 64 B to the host whose data has been read: command 4 of ring 0. -/
def crossCopy : Cmd :=
  { ring := 0, seq := 4
    desc := 2 :: List.replicate 15 0 ++ leBytes 8 0x100 ++ leBytes 8 0x240 ++ leBytes 8 64 ++ List.replicate 88 0
    sync := [], regions := [], locals := [], phase := .running, got := [(0, List.replicate 64 7, false)], staging := true }

/-- Ring 0 is a CROSS_PATH ring of context 2, whose page 0 lies in host memory; the host die has recorded addresses of the COPY in 256
regions of 1 GiB (07 R242). -/
def crossRecorded : State :=
  { State.reset with
    regs := [(0x0210000, 0x9000000200000000)], sess := [(0, { state := .attached })]
    hif := { state := 2, cross := (List.range 256).map (fun i => ⟨0, 4, (i + 1) * 2 ^ 30, .translated⟩) }
    disp := { order := 7, cmds := [crossCopy] }, memc := { stageBase := 0x00BF00000000 }
    xlt := { shared := [⟨2, 0, 1, .host, true, true, [⟨0, 0x5000, true, true⟩]⟩] } }

/-- The same with the copy of the output in the staging area (12 R421). -/
def crossStaged : State :=
  crossRecorded.withHif { crossRecorded.hif with
    staged := [{ ring := 0, seq := 4, region := 0, fn := 0, bytes := List.replicate 64 7, pois := [], left := 0, direct := false
                 kept := false }] }

/-- The output is staged, and its destination is translated, as the clause asks. -/
theorem crossRecorded_stages : stageIn crossCopy 0 (crossRecorded.ringFn 0) 64 crossCopy.got crossRecorded = some crossStaged ∧
    xltPieces 0 4 (crossRecorded.ringCtx 0) 0x240 64 true crossStaged = (some [(0, 64, .bus 0x5240)], crossStaged) := by
  decide +kernel

/-- The destination lies in a 257th region: behind the write of the output, a read to the oldest recorded address goes out. -/
theorem stagedOutputCopy_crossRecorded : ∃ t, exec (.stagedOutputCopy 0 4 0) crossRecorded = .next t ∧
    t.hif.tlps.length = 2 ∧ t.hif.tlps[1]? = some (.read 0 (2 ^ 30) 0 0 .translated) :=
  ⟨_, rfl, by decide +kernel⟩

/-- Refutes O43: the clause on the staged output says that its write is the only TLP that goes out, and does not leave out the CROSS_PATH
rings, of which a 257th region flushes the oldest recorded one with a read of length 0 (07 R242). -/
theorem not_outputsAndCompletion : ¬ Obligations.OutputsAndCompletion := by
  rintro ⟨hcopy, -⟩
  obtain ⟨hstage, hxlt⟩ := crossRecorded_stages
  obtain ⟨t, hexec, htwo, -⟩ := stagedOutputCopy_crossRecorded
  obtain ⟨u, hclause, htlps, -⟩ := hcopy crossRecorded crossStaged crossStaged 0 4 0 0x100 64 0x240 0x5240 crossCopy rfl rfl rfl
    (by decide +kernel) (by decide +kernel) (by decide +kernel) (by decide +kernel) (by decide +kernel) hstage hxlt (by decide) (by decide)
    (by decide +kernel) rfl
  obtain rfl := Host.Outcome.next.inj (hexec.symm.trans hclause)
  rw [htlps] at htwo
  exact absurd htwo (by simp [crossStaged, crossRecorded])

/-! ## A GET_REQ of no units -/

/-- Ranoa port 2 after reset and training: up, with no window. -/
def peerUp : State := { State.reset with rna := { port := [(2, { state := 2, cred := rCredits, lanes := 8 })] } }

/-- A GET_REQ with TID 9 whose RDLEN is 0. -/
def emptyGet : RPkt := ⟨.getReq, false, 0, 9, 0, 0, 0, [], []⟩

/-- A GET_REQ asks for 1 to 16 units (14 R491); a port does not take another. -/
theorem execGetReq_noUnits {port : Nat} {r : RPkt} (s : State) (h : r.rdLen = 0) : exec (.getReq port r) s = .next s := by
  show execGetReq port r s = _
  unfold execGetReq
  dsimp only
  rw [if_pos (by simp [h])]

/-- Refutes O47: the clause on a GET that no window takes has every such GET_REQ answered ERR and logged, whatever its RDLEN, but one that
asks for no unit at all is none that the port takes (14 R491), and no ERR goes back. -/
theorem not_ranoaOperations : ¬ Obligations.RanoaOperations := by
  rintro ⟨-, -, -, hrefused, -⟩
  obtain ⟨t, hexec, herr, -⟩ := hrefused peerUp 2 1 emptyGet (by decide) rfl rfl rfl (by decide)
  rw [execGetReq_noUnits peerUp rfl] at hexec
  cases hexec
  exact absurd herr (by decide)

end Sys2Proof.Machine
end

section
/-!
O53. No step takes the memory out of its canonical form (08 R252, R253).
-/
namespace Sys2Proof.Machine

set_option Elab.async false

/-- Every step keeps the canonical form of the memory: the tick of an idle block, and every command (`exec_keeps`). -/
theorem step_mem_ramOk {s t : State} (h : step s = .next t) : RamOk s.mem t.mem := by
  unfold step at h
  split at h
  · cases h
    exact (idleTick_keeps s (Keeps.rfl' _ s) (Within.rfl' _)).mem
  · exact (exec_keeps _ _ t h).mem

/-- Settles O53. -/
theorem memoryStaysCanonical : Obligations.MemoryStaysCanonical :=
  fun _ _ hok hstep => step_mem_ramOk hstep hok

end Sys2Proof.Machine
end

section
/-!
What a stack answers to the requests that it serves at once (02 R40; 08 R252, R253, R268 to R273), and O8 and O9.
-/
namespace Sys2Proof.Machine

set_option Elab.async false

/-! ## The answer of an access -/

/-- The zone of an address hangs on the memory control, the seal and the pool dies alone. -/
theorem State.zone_congr {s t : State} (hmemc : t.memc = s.memc) (hglb : t.glb = s.glb) (hpool : t.pool = s.pool) (a : Nat) :
    t.zone a = s.zone a := by
  unfold State.zone State.hbmEnd State.rowsLeft State.unitsPerCh State.scratchLen State.poolOf
  rw [hmemc, hglb, hpool]

/-- From one state to another a target works on a request and then sends its answer, without changing a link or the hub before. -/
def AnswersWith (q : Pkt) (s t : State) : Prop := ∃ u : State, t = send q u ∧ u.link = s.link ∧ u.hub = s.hub

/-- The answer to a request that a stack serves at once is on its way. -/
theorem accessRow_carries {s : State} {p : Pkt} {op : PktOp} {a : Nat} {b : Bool} {d : List Byte} (e : DramErr) (h : s.serves p)
    (hans : AnswersWith (answer op p a b d) (s.served p) (performAccess p.dst p e (s.served p))) :
    (accessRow p e s).carries (answer op p a b d) := by
  obtain ⟨y, hrow⟩ := accessRow_serves e h
  obtain ⟨u, hsend, hlink, hhub⟩ := hans
  obtain ⟨htakes, -, hlo, hhi, -⟩ := h
  obtain ⟨-, -, -, -, hfence, hdropped⟩ := served_f s p hlo hhi
  have hfenced : ∀ q, u.fenced q = s.fenced q := fun q => by
    rw [← hfence q]
    unfold State.fenced State.linkOf
    rw [hlink]
  rw [hrow, hsend]
  exact answer_carries op a b d htakes hfenced (fun x hx => hdropped x (hhub ▸ hx))

/-- A write to direct memory waits for no record of a tier die: its answer goes out in the state that the work has left. -/
theorem ackWrite_answersWith {s t : State} {ws : List Field} {a : Nat} {q : Pkt} (hz : s.zone a = .direct) (h : Keeps ws s t)
    (hws : [Field.memc, .glb, .pool, .link, .hub].all (fun f => !ws.contains f) = true := by decide) :
    AnswersWith q s (ackWrite a q t) := by
  have hout : ∀ f ∈ [Field.memc, .glb, .pool, .link, .hub], f.same s t := fun f hf =>
    h.same f (by simpa using List.all_eq_true.mp hws f hf)
  have hzone := State.zone_congr (hout .memc (by simp)) (hout .glb (by simp)) (hout .pool (by simp)) a
  exact ⟨t, ackWrite_direct a q t (hzone.trans hz), hout .link (by simp), hout .hub (by simp)⟩

/-! ## Each access on direct memory -/

/-- A read of sectors whose check words hold answers what memory holds (08 R252). -/
theorem doRead_read {h : Nat} {p : Pkt} {s : State} (hop : p.op = .read) (hz : s.zone p.addr = .direct)
    (hck : ∀ n ∈ sectorsOf p.addr p.rdLen, s.mem.ckBad n = false) :
    doRead h p .none s = send (answer .respData p 0 (s.mem.anyPoison p.addr p.rdLen) (s.mem.readN p.addr p.rdLen)) s := by
  unfold doRead respond
  simp only [hop, reduceCtorEq, if_false, phys_direct _ _ hz]
  rw [readCodes_ok h _ s hck, touchFrame_direct _ _ _ hz]

/-- A NARROW_READ answers the 32 bytes its address lies in (08 R270). -/
theorem doRead_narrow {h : Nat} {p : Pkt} {s : State} (hop : p.op = .narrowRead) (hz : s.zone p.addr = .direct)
    (hck : ∀ n ∈ sectorsOf (p.addr / 32 * 32) 32, s.mem.ckBad n = false) :
    doRead h p .none s = send (answer .respData p 0 (s.mem.anyPoison (p.addr / 32 * 32) 32) (s.mem.readN (p.addr / 32 * 32) 32)) s := by
  unfold doRead respond
  simp only [hop, if_true, phys_direct _ _ hz]
  rw [readCodes_ok h _ s hck, touchFrame_direct _ _ _ hz]

/-- The write of a sector to memory, the note of the buffers and the notice to the rings come before the acknowledgement (08 R252). -/
theorem doWrite_answersWith {h : Nat} {p : Pkt} {s : State} (hz : s.zone p.addr = .direct) :
    AnswersWith (answer .respAck p 0 false []) s (doWrite h p s) := by
  have hw := Within.rfl' [Field.mem, .stack, .tier, .disp]
  refine ackWrite_answersWith hz (notifyRings_keeps _ _ ?_)
  refine foldl_keeps _ (fun t n ht => bufferWrite_keeps h n t ht) _ _ (touchFrame_keeps _ _ _ ?_)
  exact withMem_keeps (Keeps.rfl' _ s) _ (RamOk_writeSectors (RamOk.rfl' _) _ _ _ _ _) (hw.of rfl)

/-- A masked write whose check words hold does the same with the bytes that it enables (02 R40). -/
theorem doMasked_answersWith {h : Nat} {p : Pkt} {s : State} (hz : s.zone p.addr = .direct)
    (hnew : p.checks.head? = some (crc32c (p.payload.take 64))) (hold : s.mem.ckBad (sectorOf p.addr) = false) :
    AnswersWith (answer .respAck p 0 false []) s (doMasked h p .none s) := by
  have hw := Within.rfl' [Field.mem, .stack, .tier, .disp]
  unfold doMasked
  simp only [phys_direct _ _ hz, hnew, hold, bne_self_eq_false, Bool.false_and, Bool.and_false, Bool.or_self, Bool.false_eq_true,
    if_false]
  have hstored := withMem_keeps (Keeps.rfl' [Field.mem, .stack, .tier, .disp] s) _
    (RamOk_writeMasked (RamOk.rfl' _) (sectorOf p.addr) (leAt p.payload 64 8) p.payload (p.poison || false)) (hw.of rfl)
  refine ackWrite_answersWith (ws := [Field.mem, .stack, .tier, .disp]) hz ?_
  split
  · exact touchFrame_keeps _ _ _ hstored
  · exact notifyRings_keeps _ _ (touchFrame_keeps _ _ _ (bufferWrite_keeps _ _ _ hstored))

/-- An atomic on a word whose check word holds: the value before it is answered, its result merged (08 R268). -/
theorem doAtomic_performs {h size r : Nat} {p : Pkt} {s : State} (hz : s.zone p.addr = .direct) (hsize : size = 4 ∨ size = 8)
    (hlen : leAt p.payload 9 1 = size) (halign : p.addr % size = 0) (hck : s.mem.ckBad (sectorOf p.addr) = false)
    (hop : atomicOp (leAt p.payload 8 1) size (s.mem.readLE p.addr size) (leAt p.payload 0 size) = some r) :
    (doAtomic h p .none s).mem = s.mem.merge p.addr (leBytes size r) ∧
    AnswersWith (answer .respData p 0 ((s.mem.merge p.addr (leBytes size r)).isPoison (sectorOf p.addr))
      (leBytes 16 (s.mem.readLE p.addr size))) s (doAtomic h p .none s) := by
  have hw := Within.rfl' [Field.mem, .stack, .tier]
  have hgood : (!(size == 4 || size == 8) || p.addr % size != 0) = false := by
    rcases hsize with rfl | rfl <;> simp [halign]
  unfold doAtomic
  simp only [phys_direct _ _ hz, hlen, hgood, Bool.false_eq_true, if_false, readCodes_ok h [sectorOf p.addr] s (by simpa using hck), hop,
    bufferWrite_mem, touchFrame_mem, ackWrite_mem, State.withMem_mem, true_and]
  refine ackWrite_answersWith hz (bufferWrite_keeps _ _ _ (touchFrame_keeps _ _ _ ?_))
  exact withMem_keeps (Keeps.rfl' _ s) _ (RamOk_merge (RamOk.rfl' _) _ _) (hw.of rfl)

/-- The format that SCATTER_ADD names is FP32 or INT32: its elements are added to those in memory, its flags answered (08 R273). -/
theorem doScatter_adds {h : Nat} {p : Pkt} {s : State} {f : Fmt} (hz : s.zone p.addr = .direct) (hpoison : p.poison = false)
    (hfmt : Fmt.ofCode (leAt p.payload 1 1) = some f) (hf : f = .fp32 ∨ f = .int32)
    (hck : ∀ n ∈ sectorsOf p.addr (leAt p.payload 2 1 * f.bytes), s.mem.ckBad n = false) :
    (doScatter h p .none s).mem = s.mem.merge p.addr
      (scatterRow f (s.mem.readN p.addr (leAt p.payload 2 1 * f.bytes)) (p.payload.drop 16) (leAt p.payload 2 1)).1 ∧
    AnswersWith (answer .respAck p
      (scatterRow f (s.mem.readN p.addr (leAt p.payload 2 1 * f.bytes)) (p.payload.drop 16) (leAt p.payload 2 1)).2.toNat false [])
      s (doScatter h p .none s) := by
  have hw := Within.rfl' [Field.mem, .stack, .tier]
  have hgood : (!(f == .fp32 || f == .int32 || ((f == .fp16 || f == .bf16) && s.scat16 h))) = false := by
    rcases hf with rfl | rfl <;> simp
  unfold doScatter
  simp only [phys_direct _ _ hz, hfmt, hgood, hpoison, Bool.false_eq_true, if_false, readCodes_ok h _ s hck, ackWrite_mem]
  refine ⟨?_, ackWrite_answersWith hz (foldl_keeps _ (fun t n ht => bufferWrite_keeps h n t ht) _ _ (touchFrame_keeps _ _ _ ?_))⟩
  · refine foldl_inv (fun t => t.mem = _) _ (fun t n ht => (bufferWrite_mem h n t).trans ht) _ _ ?_
    rw [touchFrame_mem, State.withMem_mem]
  · exact withMem_keeps (Keeps.rfl' _ s) _ (RamOk_merge (RamOk.rfl' _) _ _) (hw.of rfl)

/-! ## Atomics -/

/-- An element set in range is read back. -/
theorem setAt_getElem? {α : Type} (l : List α) (n : Nat) (v : α) (h : n < l.length) : (setAt l n v)[n]? = some v := by
  induction l generalizing n with
  | nil => cases h
  | cons a r ih =>
    cases n with
    | zero => rfl
    | succ n => exact ih n (Nat.lt_of_succ_lt_succ h)

/-- The packet of an atomic names its operation (08 R268). -/
theorem withAop_aop (p : Pkt) (aop : Nat) (haop : aop < 256) : leAt (withAop p aop).payload 8 1 = aop := by
  have hlen : 8 < ((p.payload ++ List.replicate 16 0#8).take 16).length := by simp
  have hbyte := setAt_getElem? _ 8 (BitVec.ofNat 8 aop) hlen
  unfold leAt withAop
  dsimp only
  rw [List.take_one, List.head?_drop, hbyte]
  simp [leNat, Nat.mod_eq_of_lt haop]

/-- An atomic that a stack serves at once: its result is merged, and its answer, the value before it, is on its way. -/
theorem exec_atomic {s : State} {p : Pkt} {aop size old v r : Nat} {c : Instr}
    (hc : exec c s = .next (accessRow (withAop p aop) .none s)) (haop : aop < 256) (h : s.serves (withAop p aop))
    (hsize : size = 4 ∨ size = 8) (hlen : leAt (withAop p aop).payload 9 1 = size) (halign : p.addr % size = 0)
    (hck : s.mem.ckBad (sectorOf p.addr) = false) (hold : old = s.mem.readLE p.addr size)
    (hv : v = leAt (withAop p aop).payload 0 size) (hop : atomicOp aop size old v = some r) :
    ∃ t, exec c s = .next t ∧ t.mem = s.mem.merge p.addr (leBytes size r) ∧
      t.carries (answer .respData (withAop p aop) 0 (t.mem.isPoison (sectorOf p.addr)) (leBytes 16 old)) := by
  obtain ⟨hmem, hz⟩ := served_mem_zone h
  subst hold hv
  obtain ⟨hmerged, hans⟩ := doAtomic_performs (h := p.dst) hz hsize hlen halign (by rw [hmem]; exact hck) (r := r)
    (by rw [hmem, withAop_aop p aop haop]; exact hop)
  rw [hmem] at hmerged hans
  have hrow := (accessRow_mem .none h).trans hmerged
  refine ⟨_, hc, hrow, ?_⟩
  rw [hrow]
  exact accessRow_carries .none h hans

/-- Settles O9: each atomic is the one access with its operation. -/
theorem atomicsAtStack : Obligations.AtomicsAtStack := by
  unfold Obligations.AtomicsAtStack
  refine ⟨?_, ?_, ?_, ?_, ?_, ?_, ?_, ?_, ?_⟩ <;> intro s p size old v h hsize hlen halign hck hold hv <;>
    exact exec_atomic rfl (by decide) h hsize hlen halign hck hold hv rfl

/-! ## GATHER_ROWS -/

/-- Of the packets that a target sends one after another, each is on its way in the end, where none of its ends is fenced and the hub
has not answered its request. -/
theorem foldl_send_carries {α : Type} (g : α → Pkt) {l : List α} {x : α} (hx : x ∈ l) {s : State} (hsrc : s.fenced (g x).src = false)
    (hdst : s.fenced (g x).dst = false) (hopen : ((g x).dst, (g x).tid) ∉ s.hub.dropped) :
    (l.foldl (fun st y => send (g y) st) s).carries (g x) := by
  have hgoes : ∀ (l : List α) (t : State), Goes t (l.foldl (fun st y => send (g y) st) t) := fun l t =>
    foldl_inv (Goes t) _ (fun u y hu => hu.trans (send_goes (g y) u)) l t (Goes.rfl' t)
  induction l generalizing s with
  | nil => cases hx
  | cons y r ih =>
    rw [List.foldl_cons]
    cases hx with
    | head => exact (hgoes r _).holds _ (send_carries _ _ hsrc hdst (fun c => hopen c.2))
    | tail _ hr =>
      obtain ⟨⟨v, a, k, heq⟩, hfence, -⟩ := send_goes (g y) s
      exact ih hr ((hfence _).trans hsrc) ((hfence _).trans hdst) (by rw [heq]; exact hopen)

/-- An element of blocks of one length stands in the block that its index falls in. -/
theorem getElem?_flatMap_replicate {α β : Type} (f : α → β) {len : Nat} (hlen : 0 < len) (l : List α) (j : Nat) :
    (l.flatMap (fun a => List.replicate len (f a)))[j]? = (l[j / len]?).map f := by
  induction l generalizing j with
  | nil => rfl
  | cons a r ih =>
    rw [List.flatMap_cons]
    by_cases hj : j < len
    · rw [List.getElem?_append_left (by simpa using hj), Nat.div_eq_of_lt hj]
      simp [hj]
    · obtain ⟨i, rfl⟩ := Nat.exists_eq_add_of_le (Nat.le_of_not_lt hj)
      rw [List.getElem?_append_right (by simp), List.length_replicate, Nat.add_sub_cancel_left, ih, Nat.add_div_left i hlen]
      rfl

/-- What stands in a window of a list stands there at an index of the window. -/
theorem mem_take_drop_iff {α : Type} (l : List α) (a n : Nat) (x : α) :
    x ∈ (l.drop a).take n ↔ ∃ j, a ≤ j ∧ j < a + n ∧ l[j]? = some x := by
  rw [List.mem_iff_getElem?]
  constructor
  · rintro ⟨i, hi⟩
    rw [List.getElem?_take] at hi
    split at hi
    · exact ⟨a + i, by omega, by omega, by rw [← List.getElem?_drop]; exact hi⟩
    · cases hi
  · rintro ⟨j, hlo, hhi, hj⟩
    refine ⟨j - a, ?_⟩
    rw [List.getElem?_take, if_pos (by omega), List.getElem?_drop, Nat.add_sub_cancel' hlo]
    exact hj

/-- A packet of up to 256 bytes out of row pieces laid one after another holds bytes of the pieces that reach into it (08 R272). -/
theorem mem_packet_iff {α β : Type} [Inhabited α] (f : α → β) (len k : Nat) (l : List α) (x : β) :
    x ∈ ((l.flatMap (fun a => List.replicate len (f a))).drop (256 * k)).take 256 ↔
      ∃ i, ∃ a, l[i]? = some a ∧ gatherHas len k i = true ∧ f a = x := by
  rw [mem_take_drop_iff]
  simp only [gatherHas, Bool.and_eq_true, decide_eq_true_eq]
  by_cases hlen : 0 < len
  · simp only [getElem?_flatMap_replicate f hlen, Option.map_eq_some_iff]
    constructor
    · rintro ⟨j, hlo, hhi, a, ha, hx⟩
      have hmul := Nat.div_mul_le_self j len
      have hnext := Nat.lt_div_mul_add (a := j) hlen
      exact ⟨j / len, a, ha, ⟨by omega, by rw [Nat.add_one_mul (j / len)]; omega⟩, hx⟩
    · rintro ⟨i, a, ha, ⟨hlo, hhi⟩, hx⟩
      have hin : max (256 * k) (i * len) / len = i := by
        rw [Nat.add_one_mul i] at hhi
        refine Nat.div_eq_of_lt_le (Nat.le_max_right _ _) ?_
        rw [Nat.add_one_mul i]
        omega
      exact ⟨max (256 * k) (i * len), by omega, by omega, a, by rw [hin]; exact ha, hx⟩
  · obtain rfl : len = 0 := by omega
    have hnone : l.flatMap (fun a => List.replicate 0 (f a)) = [] := List.flatMap_eq_nil_iff.mpr (fun _ _ => List.replicate_zero)
    rw [hnone]
    constructor
    · rintro ⟨j, -, -, hj⟩
      exact absurd hj (by rw [List.getElem?_nil]; exact nofun)
    · rintro ⟨i, a, -, ⟨-, hhi⟩, -⟩
      omega

/-- The row piece that a stack returns for an address (08 R256, R272). -/
def State.rowPiece (s : State) (len a : Nat) : RowPiece :=
  ⟨s.gatherRow len a, s.lostUnit (a / 4096) || s.mem.anyPoison a len, if s.lostUnit (a / 4096) then 0x04 else 0⟩

/-- It is poisoned with the reason of a lost unit, or it is what memory holds. -/
theorem State.rowPiece_eq (s : State) (len a : Nat) : s.rowPiece len a =
    if s.lostUnit (a / 4096) then ⟨List.replicate len 0xFF#8, true, 0x04⟩ else ⟨s.mem.readN a len, s.mem.anyPoison a len, 0⟩ := by
  unfold State.rowPiece State.gatherRow
  cases s.lostUnit (a / 4096) <;> rfl

theorem State.gatherRow_length (s : State) (len a : Nat) : (s.gatherRow len a).length = len := by
  unfold State.gatherRow
  split <;> simp [Ram.readN]

/-- The bytes of row pieces laid one after another. -/
theorem rowPieces_data (s : State) (len : Nat) (rows : List Nat) :
    ((rows.map (s.rowPiece len)).map RowPiece.data).flatten = rows.flatMap (fun a => s.gatherRow len a) := by
  rw [List.flatMap_def, List.map_map]
  rfl

/-- What each byte of the row pieces, laid one after another, carries of its piece. -/
theorem rowPieces_tags (s : State) (len : Nat) (rows : List Nat) :
    ((rows.map (s.rowPiece len)).map (fun r => r.data.map (fun _ => (r.bad, r.reason)))).flatten =
      rows.flatMap (fun a => List.replicate len ((s.rowPiece len a).bad, (s.rowPiece len a).reason)) := by
  rw [List.flatMap_def, List.map_map]
  congr 2
  funext a
  exact List.map_const'.trans (congrArg (List.replicate · _) (s.gatherRow_length len a))

/-- An answer of a GATHER_ROWS is poisoned when a piece with a byte in it is. -/
theorem packet_poisoned (f : Nat → Bool × Nat) (len k : Nat) (rows : List Nat) :
    (((rows.flatMap (fun a => List.replicate len (f a))).drop (256 * k)).take 256).any Prod.fst =
      (List.range rows.length).any (fun i => gatherHas len k i && (f (rows.getD i 0)).1) := by
  rw [Bool.eq_iff_iff, List.any_eq_true, List.any_eq_true]
  simp only [mem_packet_iff, List.mem_range, Bool.and_eq_true]
  constructor
  · rintro ⟨x, ⟨i, a, ha, hhas, rfl⟩, hx⟩
    exact ⟨i, (List.getElem?_eq_some_iff.mp ha).1, hhas, by rw [List.getD_eq_getElem?_getD, ha]; exact hx⟩
  · rintro ⟨i, hi, hhas, hx⟩
    rw [List.getD_eq_getElem?_getD, List.getElem?_eq_getElem hi] at hx
    exact ⟨f rows[i], ⟨i, _, List.getElem?_eq_getElem hi, hhas, rfl⟩, hx⟩

/-- The largest of reasons that are all `n` or none is `n` if it is among them. -/
theorem foldl_max_of_mem {n : Nat} {l : List Nat} (h : ∀ x ∈ l, x = 0 ∨ x = n) (m : Nat) (hm : m = 0 ∨ m = n) :
    l.foldl max m = if m = n ∨ n ∈ l then n else 0 := by
  induction l generalizing m with
  | nil => rcases hm with rfl | rfl <;> simp
  | cons x r ih =>
    have hx := h x List.mem_cons_self
    rw [List.foldl_cons, ih (fun y hy => h y (List.mem_cons_of_mem _ hy)) _ (by omega)]
    refine ite_congr (propext ?_) (fun _ => rfl) (fun _ => rfl)
    rw [List.mem_cons, ← or_assoc]
    exact or_congr_left (by omega)

/-- An answer of a GATHER_ROWS carries the reason of a lost unit when a piece of one has a byte in it. -/
theorem packet_reason (f : Nat → Bool × Nat) (lost : Nat → Bool) (hf : ∀ a, (f a).2 = if lost a then 0x04 else 0) (len k : Nat)
    (rows : List Nat) :
    ((((rows.flatMap (fun a => List.replicate len (f a))).drop (256 * k)).take 256).map Prod.snd).foldl max 0 =
      if (List.range rows.length).any (fun i => gatherHas len k i && lost (rows.getD i 0)) then 0x04 else 0 := by
  have hany := packet_poisoned (fun a => (lost a, 0)) len k rows
  rw [foldl_max_of_mem (n := 4) _ 0 (.inl rfl)]
  · refine ite_congr (propext ?_) (fun _ => rfl) (fun _ => rfl)
    rw [← hany, List.any_eq_true]
    simp only [List.mem_map, mem_packet_iff]
    constructor
    · rintro (h | ⟨x, ⟨i, a, ha, hhas, rfl⟩, hx⟩)
      · cases h
      · refine ⟨(lost a, 0), ⟨i, a, ha, hhas, rfl⟩, ?_⟩
        rw [hf] at hx
        split at hx
        · assumption
        · cases hx
    · rintro ⟨x, ⟨i, a, ha, hhas, rfl⟩, hx⟩
      exact .inr ⟨f a, ⟨i, a, ha, hhas, rfl⟩, by rw [hf, if_pos hx]⟩
  · intro x hx
    obtain ⟨y, hy, rfl⟩ := List.mem_map.mp hx
    obtain ⟨i, a, -, -, rfl⟩ := (mem_packet_iff f len k rows y).mp hy
    rw [hf]
    split <;> simp

/-- A gather of direct rows whose check words hold sends the row pieces that memory has (08 R272). -/
theorem doGather_pieces {h : Nat} {p : Pkt} {s : State} (hh : h < 49) (hz : ∀ a ∈ gatherRows p, s.zone a = .direct)
    (hck : ∀ a ∈ gatherRows p, s.lostUnit (a / 4096) = true ∨ ∀ n ∈ sectorsOf a (leAt p.payload 4 2), s.mem.ckBad n = false) :
    doGather h p .none s = sendPieces p ((gatherRows p).map (s.rowPiece (leAt p.payload 4 2))) s := by
  have hphys : (gatherRows p).map s.phys = gatherRows p := by
    rw [List.map_congr_left (fun a ha => phys_direct a s (hz a ha)), List.map_id']
  have htouched : (gatherRows p).foldl (fun st a => touchFrame a false st) s = s :=
    List.foldlRecOn (motive := fun t => t = s) _ _ rfl (fun t ht a ha => by rw [ht, touchFrame_direct _ _ _ (hz a ha)])
  unfold doGather
  dsimp only
  rw [hphys, readCodes_ok]
  · rw [htouched]
    simp only [hh, decide_true, Bool.true_and, ← State.rowPiece_eq]
  · intro n hn
    obtain ⟨a, ha, hna⟩ := List.mem_flatMap.mp hn
    obtain ⟨hmem, hlost⟩ := List.mem_filter.mp ha
    exact (hck a hmem).resolve_left (by simpa [hh] using hlost) n hna

/-- Every answer of a GATHER_ROWS is on its way with its reason and its poison (08 R256, R272). -/
theorem sendPieces_carries {s : State} {p : Pkt} {len k : Nat} {rows : List Nat} {d : List Byte}
    (hsrc : s.fenced p.dst = false) (hdst : s.fenced p.src = false) (hopen : (p.src, p.tid) ∉ s.hub.dropped)
    (hd : (packPackets 32 (rows.flatMap (fun a => s.gatherRow len a)))[k]? = some d) :
    (sendPieces p (rows.map (s.rowPiece len)) s).carries
      (answer .respData p (if (List.range rows.length).any (fun i => gatherHas len k i && s.lostUnit (rows.getD i 0 / 4096)) then 0x04 else 0)
        ((List.range rows.length).any (fun i => gatherHas len k i &&
          (s.lostUnit (rows.getD i 0 / 4096) || s.mem.anyPoison (rows.getD i 0) len))) d) := by
  have hin : (k, d) ∈ (List.range (packPackets 32 (rows.flatMap (fun a => s.gatherRow len a))).length).zip
      (packPackets 32 (rows.flatMap (fun a => s.gatherRow len a))) := by
    refine List.mem_iff_getElem?.mpr ⟨k, ?_⟩
    rw [List.getElem?_zip_eq_some]
    exact ⟨List.getElem?_range (List.getElem?_eq_some_iff.mp hd).1, hd⟩
  have hsent := foldl_send_carries (fun x : Nat × List Byte =>
    let tags := ((rows.flatMap (fun a => List.replicate len ((s.rowPiece len a).bad, (s.rowPiece len a).reason))).drop (256 * x.1)).take 256
    answer .respData p ((tags.map Prod.snd).foldl max 0) (tags.any Prod.fst) x.2) hin (s := s) hsrc hdst hopen
  dsimp only at hsent
  rw [packet_poisoned, packet_reason _ (fun a => s.lostUnit (a / 4096)) (fun _ => rfl)] at hsent
  unfold sendPieces
  simp only [rowPieces_data, rowPieces_tags]
  exact hsent

/-! ## The rows -/

/-- The zones and the lost units of a state in which a stack has taken a request are those before. -/
theorem served_zone_lost {s : State} {p : Pkt} (h : s.serves p) :
    (∀ a, (s.served p).zone a = s.zone a) ∧ (∀ u, (s.served p).lostUnit u = s.lostUnit u) := by
  obtain ⟨-, -, hlo, hhi, -⟩ := h
  obtain ⟨x, l, k, hs, -⟩ := served_f s p hlo hhi
  rw [hs]
  exact ⟨fun _ => rfl, fun _ => rfl⟩

/-- Which access a packet asks for (02 R39; 08 R271). -/
theorem performAccess_read {h : Nat} {p : Pkt} {e : DramErr} {s : State} (hop : p.op = .read ∨ p.op = .narrowRead) :
    performAccess h p e s = doRead h p e s := by
  unfold performAccess
  rcases hop with hop | hop <;> rw [hop]
theorem performAccess_write {h : Nat} {p : Pkt} {e : DramErr} {s : State} (hop : p.op = .write) :
    performAccess h p e s = doWrite h p s := by
  unfold performAccess
  rw [hop]
theorem performAccess_masked {h : Nat} {p : Pkt} {e : DramErr} {s : State} (hop : p.op = .writeMasked) :
    performAccess h p e s = doMasked h p e s := by
  unfold performAccess
  rw [hop]
theorem performAccess_gather {h : Nat} {p : Pkt} {e : DramErr} {s : State} : performAccess h (withEcmd p 1) e s = doGather h (withEcmd p 1) e s :=
  rfl
theorem performAccess_scatter {h : Nat} {p : Pkt} {e : DramErr} {s : State} : performAccess h (withEcmd p 3) e s = doScatter h (withEcmd p 3) e s :=
  rfl

/-- A read that answers in the state in which it is served changes no byte, and its answer is on its way. -/
theorem accessRow_reads {s : State} {p : Pkt} {b : Bool} {d : List Byte} (hop : p.op = .read ∨ p.op = .narrowRead) (h : s.serves p)
    (hread : doRead p.dst p .none (s.served p) = send (answer .respData p 0 b d) (s.served p)) :
    (accessRow p .none s).mem = s.mem ∧ (accessRow p .none s).carries (answer .respData p 0 b d) := by
  rw [← performAccess_read hop] at hread
  exact ⟨by rw [accessRow_mem _ h, hread, send_mem, (served_mem_zone h).1], accessRow_carries _ h ⟨_, hread, rfl, rfl⟩⟩

/-- A READ that a stack serves at once (08 R252). -/
theorem execRead_serves (s : State) (p : Pkt) (hop : p.op = .read) (h : s.serves p)
    (hck : ∀ n ∈ sectorsOf p.addr p.rdLen, s.mem.ckBad n = false) : ∃ t, exec (.read p .none) s = .next t ∧ t.mem = s.mem ∧
      t.carries (answer .respData p 0 (s.mem.anyPoison p.addr p.rdLen) (s.mem.readN p.addr p.rdLen)) := by
  obtain ⟨hmem, hz⟩ := served_mem_zone h
  have hread := doRead_read (h := p.dst) hop hz (by rw [hmem]; exact hck)
  rw [hmem] at hread
  have heta : { p with op := .read } = p := by rw [← hop]
  refine ⟨accessRow { p with op := .read } .none s, rfl, ?_⟩
  rw [heta]
  exact accessRow_reads (.inl hop) h hread

/-- A NARROW_READ that a stack serves at once (08 R270). -/
theorem execNarrowRead_serves (s : State) (p : Pkt) (hop : p.op = .narrowRead) (h : s.serves p)
    (hck : ∀ n ∈ sectorsOf (p.addr / 32 * 32) 32, s.mem.ckBad n = false) :
    ∃ t, exec (.narrowRead p .none) s = .next t ∧ t.mem = s.mem ∧
      t.carries (answer .respData p 0 (s.mem.anyPoison (p.addr / 32 * 32) 32) (s.mem.readN (p.addr / 32 * 32) 32)) := by
  obtain ⟨hmem, hz⟩ := served_mem_zone h
  have hread := doRead_narrow (h := p.dst) hop hz (by rw [hmem]; exact hck)
  rw [hmem] at hread
  have heta : { p with op := .narrowRead } = p := by rw [← hop]
  refine ⟨accessRow { p with op := .narrowRead } .none s, rfl, ?_⟩
  rw [heta]
  exact accessRow_reads (.inr hop) h hread

/-- A WRITE that a stack serves at once (08 R252). -/
theorem execWrite_serves (s : State) (p : Pkt) (hop : p.op = .write) (h : s.serves p) : ∃ t, exec (.write p) s = .next t ∧
    t.mem = s.mem.writeSectors (sectorOf p.addr) p.poison p.payload p.checks (p.payload.length / 64) ∧
    t.carries (answer .respAck p 0 false []) := by
  obtain ⟨hmem, hz⟩ := served_mem_zone h
  have heta : { p with op := .write } = p := by rw [← hop]
  refine ⟨accessRow { p with op := .write } .none s, rfl, ?_⟩
  rw [heta, accessRow_mem _ h, performAccess_write hop, doWrite_mem _ _ _ hz, hmem]
  exact ⟨rfl, accessRow_carries _ h (by rw [performAccess_write hop]; exact doWrite_answersWith hz)⟩

/-- A WRITE_MASKED that a stack serves at once (02 R40). -/
theorem execWriteMasked_serves (s : State) (p : Pkt) (hop : p.op = .writeMasked) (h : s.serves p)
    (hnew : p.checks.head? = some (crc32c (p.payload.take 64))) (hold : s.mem.ckBad (sectorOf p.addr) = false) :
    ∃ t, exec (.writeMasked p .none) s = .next t ∧
      t.mem = s.mem.writeMasked (sectorOf p.addr) (leAt p.payload 64 8) p.payload p.poison ∧
      t.carries (answer .respAck p 0 false []) := by
  obtain ⟨hmem, hz⟩ := served_mem_zone h
  have heta : { p with op := .writeMasked } = p := by rw [← hop]
  refine ⟨accessRow { p with op := .writeMasked } .none s, rfl, ?_⟩
  rw [heta, accessRow_mem _ h, performAccess_masked hop, doMasked_mem _ _ _ hz, hmem]
  refine ⟨by simp [hnew], accessRow_carries _ h ?_⟩
  rw [performAccess_masked hop]
  exact doMasked_answersWith hz hnew (by rw [hmem]; exact hold)

/-- The pools hold no packet on its way. -/
theorem State.withPool_carries (s : State) (x : FMap PoolDie) (p : Pkt) : (s.withPool x).carries p ↔ s.carries p := Iff.rfl

/-- A GATHER_ROWS that a stack serves at once (08 R272). -/
theorem execGatherRows_serves {s : State} {p q : Pkt} {len k : Nat} {d : List Byte} (hq : q = withEcmd p 1) (h : s.serves q)
    (hlen : len = leAt q.payload 4 2)
    (hck : ∀ a ∈ gatherRows q, s.lostUnit (a / 4096) = true ∨ ∀ n ∈ sectorsOf a len, s.mem.ckBad n = false)
    (hd : (packPackets 32 ((gatherRows q).flatMap (fun a => s.gatherRow len a)))[k]? = some d) :
    ∃ t, exec (.gatherRows p .none) s = .next t ∧ t.mem = s.mem ∧
      t.carries (answer .respData q (if (List.range (gatherRows q).length).any (fun i => gatherHas len k i &&
        s.lostUnit ((gatherRows q).getD i 0 / 4096)) then 0x04 else 0) ((List.range (gatherRows q).length).any (fun i
        => gatherHas len k i && (s.lostUnit ((gatherRows q).getD i 0 / 4096) || s.mem.anyPoison ((gatherRows q).getD i
        0) len))) d) := by
  subst hlen
  obtain ⟨hzone, hlost⟩ := served_zone_lost h
  have hmem := (served_mem_zone h).1
  obtain ⟨y, hrow⟩ := accessRow_serves .none h
  obtain ⟨⟨hsrc, hdst, -, hopen, -⟩, -, hlo, hhi, -, -, hdirect, -⟩ := h
  obtain ⟨-, -, -, -, hfence, hdropped⟩ := served_f s q hlo hhi
  have hgather : isGather q = true := by rw [hq]; rfl
  have hpieces : performAccess q.dst q .none (s.served q) = sendPieces q ((gatherRows q).map ((s.served q).rowPiece (leAt q.payload 4 2)))
      (s.served q) := by
    rw [← doGather_pieces (h := q.dst) (by omega) (fun a ha => (hzone a).trans (hdirect hgather a ha)) (by simpa only [hlost, hmem] using hck)]
    rw [hq, performAccess_gather]
  have hsent := sendPieces_carries (s := s.served q) (k := k) (rows := gatherRows q) (len := leAt q.payload 4 2) (d := d)
    ((hfence _).trans hdst) ((hfence _).trans hsrc) (fun hin => hopen (hdropped _ hin))
    (by simpa only [State.gatherRow, hlost, hmem] using hd)
  refine ⟨accessRow (withEcmd p 1) .none s, rfl, ?_⟩
  rw [← hq, hrow, hpieces]
  rw [State.withPool_mem, State.withPool_carries]
  simp only [hlost, hmem] at hsent
  refine ⟨?_, hsent⟩
  exact ((sendPieces_keeps _ _ _ (Keeps.rfl' _ _) (Within.rfl' _)).same .mem).trans hmem

/-- A SCATTER_ADD that a stack serves at once (08 R273). -/
theorem execScatterAdd_serves {s : State} {p q : Pkt} {f : Fmt} (hq : q = withEcmd p 3) (h : s.serves q) (hpoison : p.poison = false)
    (hfmt : Fmt.ofCode (leAt q.payload 1 1) = some f) (hf : f = .fp32 ∨ f = .int32)
    (hck : ∀ n ∈ sectorsOf q.addr (leAt q.payload 2 1 * f.bytes), s.mem.ckBad n = false) :
    ∃ t, exec (.scatterAdd p .none) s = .next t ∧
      t.mem = s.mem.merge q.addr (scatterRow f (s.mem.readN q.addr (leAt q.payload 2 1 * f.bytes)) (q.payload.drop
        16) (leAt q.payload 2 1)).1 ∧
      t.carries (answer .respAck q (scatterRow f (s.mem.readN q.addr (leAt q.payload 2 1 * f.bytes)) (q.payload.drop
        16) (leAt q.payload 2 1)).2.toNat false []) := by
  obtain ⟨hmem, hz⟩ := served_mem_zone h
  have hperf : performAccess q.dst q .none (s.served q) = doScatter q.dst q .none (s.served q) := by rw [hq, performAccess_scatter]
  obtain ⟨hadded, hans⟩ := doScatter_adds (h := q.dst) hz (by rw [hq]; exact hpoison) hfmt hf (by rw [hmem]; exact hck)
  rw [hmem] at hadded hans
  refine ⟨accessRow (withEcmd p 3) .none s, rfl, ?_⟩
  rw [← hq, accessRow_mem _ h, hperf]
  exact ⟨hadded, accessRow_carries _ h (by rw [hperf]; exact hans)⟩

/-- An access that the memory attributes forbid a core traps with the cause of its kind (11 R364). -/
theorem execCoreAccessFault_traps {s : State} {c a size : Nat} {kind : AccKind} (h : s.coreMay a size kind = false) :
    ∃ t, exec (.coreAccessFault c a size kind) s = .next t ∧ (t.coreOf c).exc = some (accCause kind, a) ∧
      (t.coreOf c).lsr = none ∧ t.mem = s.mem := by
  have hcore : (coreTrap c (accCause kind) a s).coreOf c = { s.coreOf c with exc := some (accCause kind, a), lsr := none } :=
    look_put_new _ _ _ (fun heq => by simpa using congrArg CoreSt.exc heq)
  refine ⟨_, rfl, ?_⟩
  rw [if_neg (by simp [h]), hcore]
  exact ⟨rfl, rfl, rfl⟩

/-- Settles O8, row by row. -/
theorem requestsAtStack : Obligations.RequestsAtStack := by
  unfold Obligations.RequestsAtStack
  refine ⟨execRead_serves, execNarrowRead_serves, execWrite_serves, execWriteMasked_serves, ?_, ?_, ?_⟩
  · exact fun s p q len k d hq h hlen hck hd => execGatherRows_serves hq h hlen hck hd
  · exact fun s p q f hq h hpoison hfmt hf hck => execScatterAdd_serves hq h hpoison hfmt hf hck
  · exact fun s c a size kind h => execCoreAccessFault_traps h

end Sys2Proof.Machine
end

section
/-!
O24 is refuted: its last clause has a window read as free once its result is stored, in every state, and so in one whose table lists a
core's window twice. Freeing a window whose words are all zero takes its first entry out of the table; the second is read then.
-/
namespace Sys2Proof.Machine

set_option Elab.async false
set_option maxRecDepth 4000
set_option synthInstance.maxSize 4096

/-- A window that is busy with a command of no bytes. -/
def busyWindow : Window := { busy := true }

/-- The link of stack 0 is up, and the table of its windows lists the one of core 1 twice, busy both times. -/
def windowListedTwice : State :=
  { State.reset with
    link := [(33, { state := 2 })]
    stack := [(0, { win := [(1, busyWindow), (1, { busyWindow with value := 7 })] })] }

/-- The state in which the result record of that window is stored, at address 0. -/
def resultStored : State :=
  cohWrite 0 (leBytes 8 0 ++ [BitVec.ofNat 8 0, BitVec.ofNat 8 0, 0#8, 0#8] ++ leBytes 4 0) windowListedTwice

/-- Every write of the command has been acknowledged, and the record and the ADD can go out at once, as the clause asks. -/
theorem windowListedTwice_ready :
    windowListedTwice.siteLive 33 = true ∧ windowListedTwice.windowDone 1 0 = true ∧ windowListedTwice.portUp 33 = true ∧
    windowListedTwice.tileWait 0 true = false ∧ openWait 0 windowListedTwice = none ∧
    windowListedTwice.wayUp 33 ((windowListedTwice.targetOf 0).getD 63) = true ∧
    windowListedTwice.engineErr 0 0 .write 64 = false ∧ resultStored.syncNow 33 0 0 1 .plain := by decide +kernel

/-- After the command the window of core 1 is read as busy: it is the second entry now. -/
theorem stackCmdResult_windowListedTwice : ∃ t, exec (.stackCmdResult 1 0) windowListedTwice = .next t ∧
    (look ({} : Window) (t.stackOf 0).win 1).busy = true :=
  ⟨_, rfl, by decide +kernel⟩

/-- Refutes O24: the clause on the result of a command does not ask that the table of windows lists each core once (08 R274). -/
theorem not_stackUpkeepAndCommands : ¬ Obligations.StackUpkeepAndCommands := by
  rintro ⟨-, -, -, -, -, -, -, -, -, -, -, -, -, -, -, hresult⟩
  obtain ⟨hlive, hdone, hup, htile, hopen, hway, herr, hnow⟩ := windowListedTwice_ready
  obtain ⟨t, hexec, hbusy⟩ := stackCmdResult_windowListedTwice
  obtain ⟨u, hclause, hwin, -⟩ := hresult windowListedTwice resultStored 1 0 busyWindow rfl rfl rfl
    (fun hkv => absurd hkv (by decide)) hlive hdone hup htile hopen hway herr rfl hnow
  obtain rfl := Host.Outcome.next.inj (hexec.symm.trans hclause)
  rw [hwin] at hbusy
  exact absurd hbusy (by decide)

end Sys2Proof.Machine
end

section
/-!
Stacks, channels and layers that are lost, and O25 (08 R251 to R266; 16 R567).
-/
namespace Sys2Proof.Machine

set_option Elab.async false

/-! ## What stopping a command sends leaves the fences -/

/-- Senders that go on lift no fence and set none. -/
theorem SendersGrow.fenced {s t : State} (h : SendersGrow s t) (p : Nat) : t.fenced p = s.fenced p := by
  obtain ⟨d, e, heq, -, -⟩ := h p
  unfold State.fenced
  rw [heq]

/-- What leaves the links, and with them the senders. -/
theorem Keeps.grow {ws : List Field} {s t : State} (h : Keeps ws s t) (hf : Field.link ∉ ws := by decide) : SendersGrow s t :=
  .of_link_eq (h.part .link hf)
theorem withHub_grow (s : State) (x : Hub) : SendersGrow s (s.withHub x) := .of_link_eq rfl
theorem withSync_grow (s : State) (x : FMap SyncObj) : SendersGrow s (s.withSync x) := .of_link_eq rfl
theorem withDisp_grow (s : State) (x : Disp) : SendersGrow s (s.withDisp x) := .of_link_eq rfl
theorem withTile_grow (s : State) (x : FMap Tile) : SendersGrow s (s.withTile x) := .of_link_eq rfl
theorem withXlt_grow (s : State) (x : Xlt) : SendersGrow s (s.withXlt x) := .of_link_eq rfl
theorem withGlb_grow (s : State) (x : Glb) : SendersGrow s (s.withGlb x) := .of_link_eq rfl
theorem withBoot_grow (s : State) (x : Boot) : SendersGrow s (s.withBoot x) := .of_link_eq rfl
theorem withRepair_grow (s : State) (x : Repair) : SendersGrow s (s.withRepair x) := .of_link_eq rfl
theorem setVolt_grow (p v : Nat) (s : State) : SendersGrow s (setVolt p v s) := .of_link_eq rfl
theorem qualVolt_grow (p : Nat) (s : State) : SendersGrow s (qualVolt p s) := .of_link_eq rfl
theorem post_grow (e : EvItem) (s : State) : SendersGrow s (post e s) := (post_keeps e s (Keeps.rfl' _ s) (Within.rfl' _)).grow

/-- A request goes out. -/
theorem issue_grow (p : Pkt) (use : Use) (s : State) : SendersGrow s (issue p use s) := by
  have hnoted : ∀ (o : Outst) (u : State), SendersGrow u (u.addOutst o) := fun _ _ => withHub_grow _ _
  unfold issue
  extract_lets tid _ s1 dst s2
  have h1 : SendersGrow s s2 := (withHub_grow s _).trans (hnoted _ s1)
  split
  · exact h1.trans (hubSays_grow _ _)
  · exact h1.trans (sendWith_grow _ _ _)

/-- A request that waited goes out. -/
theorem boundGo_grow (src : Nat) (s : State) : SendersGrow s (boundGo src s) := by
  unfold boundGo
  split
  · exact .refl s
  · split
    · exact .refl s
    · exact (withHub_grow s _).trans (issue_grow _ _ _)

/-- The waiters and answers of a slot are forgotten, and other requests take its place. -/
theorem forgetSlot_grow (pos slot ring seq : Nat) (keep : List Nat) (s : State) : SendersGrow s (forgetSlot pos slot ring seq keep s) := by
  unfold forgetSlot
  extract_lets mine tids kept _ s1 stays
  have h1 : SendersGrow s s1 := withHub_grow s _
  exact (h1.trans (withSync_grow s1 _)).trans (.foldl _ (fun t _ => boundGo_grow pos t) _ _)

/-- A slot is free. -/
theorem freeSlot_grow (pos slot : Nat) (s : State) : SendersGrow s (freeSlot pos slot s) := by
  unfold freeSlot
  split
  · exact .refl s
  · exact ((forgetSlot_grow _ _ _ _ _ s).trans (withDisp_grow _ _)).trans (withTile_grow _ _)

/-- A slot is halted. -/
theorem haltSlot_grow (pos slot : Nat) (s : State) : SendersGrow s (haltSlot pos slot s) := by
  unfold haltSlot
  split
  · exact .refl s
  · dsimp only
    split
    · exact freeSlot_grow pos slot s
    · exact (forgetSlot_grow _ _ _ _ _ s).trans (withTile_grow _ _)

/-- The parts of a command are stopped. -/
theorem stopParts_grow (ring seq : Nat) (s : State) : SendersGrow s (stopParts ring seq s) := by
  unfold stopParts
  split
  · exact .refl s
  · extract_lets s0 s1
    have h0 : SendersGrow s s0 := withXlt_grow s _
    have h1 : SendersGrow s0 s1 := .foldl _ (fun t p => haltSlot_grow _ _ t) _ _
    exact (h0.trans h1).trans (withSync_grow s1 _)

/-- A command ends. -/
theorem endWith_grow (ring seq : Nat) (v : Verdict) (s : State) : SendersGrow s (endWith ring seq v s) := by
  unfold endWith
  split
  · exact .refl s
  · split
    · exact .refl s
    · exact (stopParts_grow ring seq s).trans (withDisp_grow _ _)

/-! ## Fences and sites -/

/-- A change of a link that sets its fence. -/
theorem State.fenced_updLink {s : State} {p : Nat} (f : LinkSt → LinkSt) (hf : (f (s.linkOf p)).fenced = true) (hp : p ≠ 63) :
    (s.updLink p f).fenced p = true := by
  unfold State.fenced
  rw [State.linkOf_upd s p p f (fun e => by simp [e] at hf), if_pos rfl, hf]
  simpa using hp

/-- A port that is fenced has its fence on its link. -/
theorem State.linkOf_fenced {s : State} {p : Nat} (h : s.fenced p = true) : (s.linkOf p).fenced = true := by
  simp only [State.fenced, Bool.and_eq_true] at h
  exact h.2

/-- After its fence a port is fenced: what the hub answers in its place lifts no fence (02 R58, R60). -/
theorem fencePort_fenced {port : Nat} (dead : Bool) (cause : Nat) (s : State) (hp : port ≠ 63) :
    (fencePort port dead cause s).fenced port = true := by
  unfold fencePort
  extract_lets toIt left _ s1 s2 s3 sent s4 keep s5
  have h2 : s2.fenced port = true := State.fenced_updLink _ rfl hp
  have h3 : SendersGrow s2 s3 := .foldl _ (fun t v => by
    extract_lets st1
    have hfreed : SendersGrow t st1 := by
      unfold st1
      split
      · exact .refl t
      · exact freeSlotOf_grow _ _ t
    split
    · exact hfreed.trans (hubSays_grow _ _)
    · exact hfreed) _ _
  have h4 : SendersGrow s3 s4 := .foldl _ (fun t o => hubSays_grow _ t) _ _
  have h5 : SendersGrow s4 s5 := withSync_grow s4 _
  have hend : ∀ x, SendersGrow s5 (post (ev 0x30 (some port) cause []) (qualVolt port (s5.withGlb x))) := fun x =>
    ((withGlb_grow s5 x).trans (qualVolt_grow port _)).trans (post_grow _ _)
  exact ((((h3.trans h4).trans h5).trans (hend _)).fenced port).trans h2

/-- A site that is written a state other than 0 reads it (01 R21). -/
theorem withGlb_site (s : State) (p v : Nat) (hv : v ≠ 0) : look 0 (s.withGlb { s.glb with site := put 0 s.glb.site p v }).glb.site p = v :=
  look_put_new _ _ _ hv

/-- A failed die is fenced, and its site reads failed (01 R21; 02 R59; 16 R570). -/
theorem dieFailed_fenced_site {port : Nat} (cause : Nat) (s : State) (hp : port ≠ 63) :
    (dieFailed port cause s).fenced port = true ∧ look 0 (dieFailed port cause s).glb.site port = 3 := by
  have hfence : (if s.fenced port then s else fencePort port true cause s).fenced port = true := by
    split
    · assumption
    · exact fencePort_fenced true cause s hp
  unfold dieFailed
  extract_lets s0 _ s1 _ s2 _ s2' s3
  have h0 : s0.fenced port = true := State.fenced_updLink _ (State.linkOf_fenced hfence) hp
  have h1 : SendersGrow s0 s2 := ((withGlb_grow s0 _).trans (withBoot_grow s1 _)).trans (setVolt_grow port 0 _)
  have h2 : SendersGrow s2 s2' ∧ s2'.glb = s1.glb := by
    unfold s2'
    split
    · exact ⟨withRepair_grow s2 _, rfl⟩
    · exact ⟨.refl s2, rfl⟩
  have h3 : SendersGrow s2' s3 := post_grow _ s2'
  have hglb : s3.glb = s1.glb := ((post_keeps _ s2' (Keeps.rfl' _ s2') (Within.rfl' _)).same .glb).trans h2.2
  refine ⟨?_, ?_⟩
  · have hended : SendersGrow s3 _ := .foldl (fun st c => endWith c.ring c.seq (partFailed port) st) (fun t c => endWith_grow _ _ _ t)
      (s3.disp.cmds.filter (fun c => c.replayDue == some 2 && c.stopPort == port)) s3
    exact (((h1.trans h2.1).trans (h3.trans hended)).fenced port).trans h0
  · have hended := foldl_keeps (ws := [.link, .hub, .sync, .xlt, .disp, .tile]) (fun st c => endWith c.ring c.seq (partFailed port) st)
      (fun t c ht => endWith_keeps _ _ _ t ht (Within.rfl' _))
      (s3.disp.cmds.filter (fun c => c.replayDue == some 2 && c.stopPort == port)) s3 (Keeps.rfl' _ s3)
    rw [show (List.foldl _ s3 _).glb = s1.glb from (hended.same .glb).trans hglb]
    exact withGlb_site s0 port 3 (by decide)

/-- What does not change the stacks. -/
theorem Keeps.stackOf {ws : List Field} {s t : State} (h : Keeps ws s t) (k : Nat) (hf : Field.stack ∉ ws := by decide) :
    t.stackOf k = s.stackOf k := by
  unfold State.stackOf
  rw [h.part .stack hf]

/-- A stack that changes, and becomes no default one, reads as it was changed. -/
theorem State.stackOf_updStack_same {s : State} {n : Nat} {f : Stack → Stack} (h : f (s.stackOf n) ≠ {}) :
    (s.updStack n f).stackOf n = f (s.stackOf n) :=
  look_put_new _ _ _ h

/-- A stack that is given a state other than 0 has it. -/
theorem State.stackOf_updStack_state {s : State} {n : Nat} {f : Stack → Stack} (h : (f (s.stackOf n)).state ≠ 0) :
    ((s.updStack n f).stackOf n).state = (f (s.stackOf n)).state := by
  rw [State.stackOf_updStack_same (fun e => h (by rw [e]))]

/-- A failed stack is fenced, and its state and its site read failed (08 R266; 16 R567). -/
theorem failStack_fails {stack : Nat} (cause : Nat) (s : State) (hstack : stack < 16) :
    ((failStack stack cause s).stackOf stack).state = 2 ∧ (failStack stack cause s).fenced (33 + stack) = true ∧
      look 0 (failStack stack cause s).glb.site (33 + stack) = 3 := by
  unfold failStack
  have hstate : ((s.updStack stack (fun x => { x with state := 2 })).stackOf stack).state = 2 :=
    State.stackOf_updStack_state (fun h => Nat.noConfusion h)
  generalize s.updStack stack (fun x => { x with state := 2 }) = u at hstate ⊢
  obtain ⟨hfence, hsite⟩ := dieFailed_fenced_site (port := 33 + stack) cause u (by omega)
  have hkeeps := dieFailed_keeps (33 + stack) cause u (Keeps.rfl' _ _) (Within.rfl' _)
  have hw := Within.rfl' [Field.ivory, .disp]
  have hlast := mgmtReply_keeps (tch := [.ivory, .disp]) (.dieFailed (33 + stack)) _
    (mirrorLost_keeps stack (dieFailed (33 + stack) cause u) (Keeps.rfl' _ _))
  refine ⟨?_, ?_, ?_⟩
  · rw [hlast.stackOf, hkeeps.stackOf, hstate]
  · rw [hlast.grow.fenced, hfence]
  · rw [hlast.same .glb, hsite]

/-- A fence is lifted where the link has trained again (02 R51; 16 R570). -/
theorem unfence_serves {port : Nat} (ms : Nat) {s : State} (hready : s.linkReady port = true) :
    (unfence port ms s).fenced port = false ∧ (unfence port ms s).glb.site = put 0 s.glb.site port 0 := by
  have hup : ((runVolt port s).linkOf port).state = 2 := by
    have hlink := (runVolt_keeps port s (Keeps.rfl' _ s) (Within.rfl' _)).same .link
    simp only [State.linkReady, State.linkOf, beq_iff_eq] at hready ⊢
    rw [hlink, hready]
  unfold unfence
  extract_lets s1
  have hlink : s1.linkOf port = { (runVolt port s).linkOf port with fenced := false, fencing := false } :=
    State.linkOf_updLink_same _ _ _ (by simp [hup])
  have h1 : s1.fenced port = false := by unfold State.fenced; rw [hlink]; simp
  have hsite : s1.glb = s.glb := (runVolt_keeps port s (Keeps.rfl' _ s) (Within.rfl' _)).same .glb
  refine ⟨(((withGlb_grow s1 _).trans (post_grow _ _)).fenced port).trans h1, ?_⟩
  rw [(post_keeps _ _ (Keeps.rfl' _ _) (Within.rfl' _)).same .glb, hsite]
  rfl

/-! ## Poison -/

/-- A number outside the runs that are cut out stays in its run. -/
theorem inRuns_cutRuns {n lo k : Nat} {l : List (Nat × Nat)} (hout : n < lo ∨ lo + k ≤ n) (h : inRuns n l = true) :
    inRuns n (cutRuns lo k l) = true := by
  have happend : ∀ a b : List (Nat × Nat), inRuns n (a ++ b) = (inRuns n a || inRuns n b) := fun a b => by
    induction a with
    | nil => rfl
    | cons c r ih => rw [List.cons_append, inRuns, inRuns, ih, Bool.or_assoc]
  induction l with
  | nil => cases h
  | cons c r ih =>
    obtain ⟨a, m⟩ := c
    simp only [cutRuns, happend, Bool.or_eq_true]
    simp only [inRuns, Bool.or_eq_true, Bool.and_eq_true, decide_eq_true_eq] at h
    rcases h with ⟨hlo, hhi⟩ | h
    · rcases hout with hlt | hge
      · refine .inl (.inl ?_)
        rw [if_pos (by omega)]
        simp [inRuns]
        omega
      · refine .inl (.inr ?_)
        rw [if_pos (by omega)]
        simp [inRuns]
        omega
    · exact .inr (ih h)

/-- A sector that is marked poisoned is, and every other one that was is still. -/
theorem Ram.isPoison_setPoison {r : Ram} {n m : Nat} (h : n = m ∨ r.isPoison m = true) : (r.setPoison n true).isPoison m = true := by
  unfold Ram.isPoison Ram.setPoison
  simp only [if_true, inRuns, Bool.or_eq_true, Bool.and_eq_true, decide_eq_true_eq]
  by_cases hn : n = m
  · exact .inl (by omega)
  · exact .inr (inRuns_cutRuns (by omega) (h.resolve_left hn))

/-- The sectors of a poisoned unit are poisoned, and every other one that was is still. -/
theorem Ram.isPoison_poisonUnit {r : Ram} {u m : Nat} (h : m / 64 = u ∨ r.isPoison m = true) :
    (r.poisonRange (u * 4096) 4096).isPoison m = true := by
  unfold Ram.isPoison Ram.poisonRange
  have hlo : u * 4096 / 64 = 64 * u := by omega
  have hk : (u * 4096 + 4096 - 1) / 64 - 64 * u + 1 = 64 := by omega
  rw [if_neg (by decide : ¬ 4096 = 0)]
  simp only [hlo, hk, inRuns, Bool.or_eq_true, Bool.and_eq_true, decide_eq_true_eq]
  by_cases hm : m / 64 = u
  · exact .inl (by omega)
  · exact .inr (inRuns_cutRuns (by omega) (h.resolve_left hm))

/-- What each step of a fold brings about for its element, and every step leaves, holds of every element in the end. -/
theorem foldl_reaches {σ α : Type} {f : σ → α → σ} {Q : σ → Prop} {P : α → σ → Prop} {l : List α}
    (hinv : ∀ s, ∀ b ∈ l, Q s → Q (f s b)) (hreach : ∀ s, ∀ b ∈ l, Q s → P b (f s b))
    (hkeep : ∀ s, ∀ a ∈ l, ∀ b ∈ l, Q s → P a s → P a (f s b)) {s : σ} (hs : Q s) : ∀ a ∈ l, P a (l.foldl f s) := by
  intro a ha
  refine (show ∀ (r : List α) (t : σ), (∀ b ∈ r, b ∈ l) → Q t → (a ∈ r ∨ P a t) → P a (r.foldl f t) from ?_) l s (fun _ h => h) hs (.inl ha)
  intro r
  induction r with
  | nil => exact fun t _ _ h => h.resolve_left (by simp)
  | cons b r ih =>
    intro t hsub ht h
    have hb := hsub b List.mem_cons_self
    refine ih _ (fun c hc => hsub c (List.mem_cons_of_mem _ hc)) (hinv t b hb ht) ?_
    rcases h with h | h
    · rcases List.mem_cons.mp h with rfl | h
      · exact .inr (hreach t a hb ht)
      · exact .inl h
    · exact .inr (hkeep t a ha b hb ht h)

/-- Every sector of a unit that is lost with its channel is poisoned (08 R256). -/
theorem poisonLost_isPoison {s : State} {u k : Nat} (hk : k < 64) (hu : u < s.rowsLeft * 512) (hlost : s.lostUnit u = true) :
    (poisonLost s).mem.isPoison (64 * u + k) = true := by
  have hmem : u ∈ (List.range s.rowsLeft).flatMap (fun w => (List.range 512).map (fun k => w * 512 + k)) := by
    refine List.mem_flatMap.mpr ⟨u / 512, List.mem_range.mpr (by omega), List.mem_map.mpr ⟨u % 512, List.mem_range.mpr (by omega), by omega⟩⟩
  refine foldl_reaches (Q := fun _ : State => True) (P := fun v t => s.lostUnit v = true → v = u → t.mem.isPoison (64 * u + k) = true)
    (fun _ _ _ h => h) ?_ ?_ trivial u hmem hlost rfl
  · rintro t v _ - hv rfl
    rw [if_pos hv]
    exact Ram.isPoison_poisonUnit (.inl (by omega))
  · intro t a _ v _ _ ha h1 h2
    split
    · exact Ram.isPoison_poisonUnit (.inr (ha h1 h2))
    · exact ha h1 h2

/-! ## Map-outs -/

/-- An event that is reported after what leaves the FIFO, its registers and the time is reported from there. -/
theorem Keeps.reports {ws : List Field} {s u t : State} {e : EvItem} (h : Keeps ws s u) (hr : u.reports t e)
    (hf : Field.hfifo ∉ ws := by decide) (hg : Field.regs ∉ ws := by decide) (ht : Field.time ∉ ws := by decide) : s.reports t e := by
  have hfifo := h.part .hfifo hf
  have hregs := h.part .regs hg
  have htime := h.part .time ht
  unfold State.reports State.regFld State.reg at hr ⊢
  rw [hr, hfifo, hregs, htime]

/-- The first step of a map-out (08 R256). -/
theorem mapoutStart_starts {s : State} {slot : Nat} (hslot : slot < 512) (hnew : has slot s.memc.maps = false) (hidle : s.memc.mapStep = 0)
    (hfew : s.memc.maps.length < 32) : mapoutStart slot s =
      post (ev 0x10 (some (33 + slot % 16)) slot []) (poisonLost (s.withMemc { s.memc with mapStep := 1, mapSlot := slot })) := by
  unfold mapoutStart
  rw [if_neg (by simp [hnew]; omega), if_neg (by simp [hidle]), if_neg (by omega)]

/-- Beside its step and its slot it changes nothing of the memory control. -/
theorem mapoutStart_memc {s : State} {slot : Nat} (hslot : slot < 512) (hnew : has slot s.memc.maps = false) (hidle : s.memc.mapStep = 0)
    (hfew : s.memc.maps.length < 32) : (mapoutStart slot s).memc = { s.memc with mapStep := 1, mapSlot := slot } := by
  rw [mapoutStart_starts hslot hnew hidle hfew, (post_keeps _ _ (Keeps.rfl' _ _) (Within.rfl' _)).same .memc,
    (poisonLost_keeps _ (Keeps.rfl' _ _) (Within.rfl' _)).same .memc]
  rfl

/-- It leaves what is neither memory nor its control, nor where events are reported. -/
theorem mapoutStart_apart {s : State} {slot : Nat} (hslot : slot < 512) (hnew : has slot s.memc.maps = false) (hidle : s.memc.mapStep = 0)
    (hfew : s.memc.maps.length < 32) : Keeps [.mem, .memc, .hfifo, .msix, .cdie, .hif] s (mapoutStart slot s) := by
  have hw := Within.rfl' [Field.mem, .memc, .hfifo, .msix, .cdie, .hif]
  rw [mapoutStart_starts hslot hnew hidle hfew]
  exact post_keeps _ _ (poisonLost_keeps _ (withMemc_keeps (Keeps.rfl' _ s) _ (hw.of rfl)))

/-- While a map-out runs, another waits (08 R255). -/
theorem mapoutStart_waits {s : State} {slot : Nat} (hbusy : s.memc.mapStep ≠ 0) : mapoutStart slot s =
    if decide (slot < 512) && !has slot s.memc.maps then s.withMemc { s.memc with mapWait := s.memc.mapWait ++ [slot] } else s := by
  unfold mapoutStart
  by_cases hslot : slot < 512
  · cases hnew : has slot s.memc.maps with
    | false =>
      rw [if_neg (fun h => h.elim (Nat.not_le_of_lt hslot) Bool.false_ne_true), if_pos hbusy, if_pos]
      rw [Bool.and_eq_true, decide_eq_true_eq]
      exact ⟨hslot, rfl⟩
    | true =>
      rw [if_pos (.inr rfl), if_neg]
      rw [Bool.not_true, Bool.and_false]
      exact Bool.false_ne_true
  · rw [if_pos (.inl (Nat.le_of_not_lt hslot)), if_neg]
    rw [Bool.and_eq_true, decide_eq_true_eq]
    exact fun h => hslot h.1

/-- Those that can, of several that are asked for while one runs, wait in their order (08 R255). -/
theorem foldl_mapoutStart_waits {s : State} (slots : List Nat) (hbusy : s.memc.mapStep ≠ 0) :
    slots.foldl (fun st n => mapoutStart n st) s = s.withMemc { s.memc with
      mapWait := s.memc.mapWait ++ slots.filter (fun x => decide (x < 512) && !has x s.memc.maps) } := by
  induction slots generalizing s with
  | nil => rw [List.filter_nil, List.append_nil]; rfl
  | cons n r ih =>
    rw [List.foldl_cons, mapoutStart_waits hbusy, List.filter_cons]
    split
    · rw [ih (s := s.withMemc { s.memc with mapWait := s.memc.mapWait ++ [n] }) hbusy, State.withMemc_memc, List.append_assoc]
      rfl
    · exact ih hbusy

/-- Beyond the thirty-second a map-out fails its stack (08 R255). -/
theorem mapoutStart_fails {s : State} {slot : Nat} (hslot : slot < 512) (hnew : has slot s.memc.maps = false) (hidle : s.memc.mapStep = 0)
    (hfull : 32 ≤ s.memc.maps.length) : mapoutStart slot s = failStack (slot % 16) 4 s := by
  unfold mapoutStart
  rw [if_neg (by simp [hnew]; omega), if_neg (by simp [hidle]), if_pos hfull]

/-- A layer that is lost in Indigo is counted and reported (08 R251, R253). -/
theorem execLayerFailure_indigo (s : State) (stack layer : Nat) (hmode : s.memc.active = 1) (hlayer : layer < 16) :
    ∃ t, exec (.layerFailure stack layer) s = .next t ∧
      t.stack = upd {} s.stack stack (fun x =>
        { x with layersLost := Nat.lor x.layersLost (2 ^ layer), layerEv := satAdd 0xFFFF x.layerEv 1 }) ∧
      s.reports t (ev 0x11 (some (33 + stack)) layer []) := by
  refine ⟨_, rfl, ?_⟩
  rw [if_pos hmode, Nat.mod_eq_of_lt hlayer]
  refine ⟨(post_keeps _ _ (Keeps.rfl' _ _) (Within.rfl' _)).same .stack, ?_⟩
  exact (withStack_keeps (Keeps.rfl' [.stack] s) _ (Within.rfl' _)).reports (post_reports _ _ rfl)

/-- In Cobalt it fails the stack (08 R251, R266). -/
theorem execLayerFailure_cobalt (s : State) (stack layer : Nat) (hmode : s.memc.active = 0) (hstack : stack < 16) :
    ∃ t, exec (.layerFailure stack layer) s = .next t ∧ (t.stackOf stack).state = 2 ∧ t.fenced (33 + stack) = true ∧
      look 0 t.glb.site (33 + stack) = 3 := by
  refine ⟨_, rfl, ?_⟩
  rw [if_neg (by omega)]
  exact failStack_fails 4 s hstack

/-- A map-out that can start does, reports it, and poisons what is lost with the channel (08 R255, R256). -/
theorem execMapoutStart_starts (s : State) (slot : Nat) (hslot : slot < 512) (hnew : has slot s.memc.maps = false)
    (hidle : s.memc.mapStep = 0) (hfew : s.memc.maps.length < 32) : ∃ t, exec (.mapoutStart slot) s = .next t ∧
      t.memc = { s.memc with mapStep := 1, mapSlot := slot } ∧ s.reports t (ev 0x10 (some (33 + slot % 16)) slot []) ∧
      (∀ u k, k < 64 → u < s.rowsLeft * 512 → t.lostUnit u = true → t.mem.isPoison (64 * u + k) = true) := by
  have hmemc := mapoutStart_memc hslot hnew hidle hfew
  have hstart := mapoutStart_starts hslot hnew hidle hfew
  refine ⟨mapoutStart slot s, rfl, hmemc, ?_, fun u k hk hu hlost => ?_⟩
  · have hw := Within.rfl' [Field.mem, .memc]
    rw [hstart]
    exact (poisonLost_keeps _ (withMemc_keeps (Keeps.rfl' _ s) _ (hw.of rfl))).reports (post_reports _ _ rfl)
  · have hmem : (mapoutStart slot s).mem = (poisonLost (s.withMemc { s.memc with mapStep := 1, mapSlot := slot })).mem := by
      rw [hstart]
      exact (post_keeps _ _ (Keeps.rfl' _ _) (Within.rfl' _)).same .mem
    rw [hmem]
    refine poisonLost_isPoison hk hu ?_
    unfold State.lostUnit State.homeUnder State.shownMaps State.unitsPerCh at hlost ⊢
    rw [hmemc] at hlost
    exact hlost

/-- The new map of a map-out is in force (08 R256, R257). -/
theorem execMapoutMapDistributed_maps (s : State) (hstep : s.memc.mapStep = 2) : ∃ t, exec (.mapoutMapDistributed) s = .next t ∧
    t.memc = { s.memc with mapStep := 3, maps := s.memc.maps ++ [s.memc.mapSlot], frameCount := s.memc.frameCount - s.framesLost } ∧
    t.mem = s.mem ∧ t.tier = s.tier := by
  refine ⟨_, rfl, ?_⟩
  rw [if_pos hstep]
  have hkeeps := rehome_keeps (s.withMemc { s.memc with
    mapStep := 3, maps := s.memc.maps ++ [s.memc.mapSlot], frameCount := s.memc.frameCount - s.framesLost }) (Keeps.rfl' _ _) (Within.rfl' _)
  exact ⟨hkeeps.same .memc, hkeeps.same .mem, hkeeps.same .tier⟩

/-- The state in which the last step of a map-out is done, but for those that wait (08 R256). -/
def State.mapoutDone (s : State) : State :=
  let s1 := poisonLost s
  let s2 := s1.withRepair { s1.repair with mapouts := s1.memc.maps }
  post (ev 0x10 (some (33 + s.memc.mapSlot % 16)) (s.memc.mapSlot + 2 ^ 31) []) (s2.withMemc { s2.memc with mapStep := 0, mapWait := [] })

/-- The map-outs that wait start then, in their order. -/
theorem execMapoutComplete_eq {s : State} (hstep : s.memc.mapStep = 3) : execMapoutComplete s =
    .next (s.memc.mapWait.foldl (fun st n => mapoutStart n st) s.mapoutDone) := by
  have hmemc : (poisonLost s).memc = s.memc := (poisonLost_keeps s (Keeps.rfl' _ s) (Within.rfl' _)).same .memc
  unfold execMapoutComplete State.mapoutDone
  rw [if_pos hstep]
  dsimp only
  rw [hmemc]

/-- What it leaves in the control of the memory, what Ivory has recorded, and what is reported. -/
theorem mapoutDone_parts (s : State) : s.mapoutDone.memc = { s.memc with mapStep := 0, mapWait := [] } ∧
    s.mapoutDone.repair.mapouts = s.memc.maps ∧
    s.reports s.mapoutDone (ev 0x10 (some (33 + s.memc.mapSlot % 16)) (s.memc.mapSlot + 2 ^ 31) []) := by
  have hmemc : (poisonLost s).memc = s.memc := (poisonLost_keeps s (Keeps.rfl' _ s) (Within.rfl' _)).same .memc
  have hw := Within.rfl' [Field.mem, .repair, .memc]
  unfold State.mapoutDone
  extract_lets s1 _ s2 _
  have hkeeps : Keeps [.mem, .repair, .memc] s (s2.withMemc { s2.memc with mapStep := 0, mapWait := [] }) :=
    withMemc_keeps (withRepair_keeps (poisonLost_keeps s (Keeps.rfl' _ s)) _ (hw.of rfl)) _ (hw.of rfl)
  refine ⟨?_, ?_, hkeeps.reports (post_reports _ _ rfl)⟩
  · rw [(post_keeps _ _ (Keeps.rfl' _ _) (Within.rfl' _)).same .memc]
    exact congrArg (fun m : MemC => { m with mapStep := 0, mapWait := [] }) hmemc
  · rw [(post_keeps _ _ (Keeps.rfl' _ _) (Within.rfl' _)).same .repair]
    exact congrArg MemC.maps hmemc

/-- A map-out that none waits behind is complete (08 R256). -/
theorem execMapoutComplete_last (s : State) (hstep : s.memc.mapStep = 3) (hwait : s.memc.mapWait = []) :
    ∃ t, exec (.mapoutComplete) s = .next t ∧ t.memc = { s.memc with mapStep := 0 } ∧ t.repair.mapouts = s.memc.maps ∧
      s.reports t (ev 0x10 (some (33 + s.memc.mapSlot % 16)) (s.memc.mapSlot + 2 ^ 31) []) := by
  obtain ⟨hmemc, hmapouts, hreports⟩ := mapoutDone_parts s
  refine ⟨_, execMapoutComplete_eq hstep, ?_⟩
  rw [hwait]
  exact ⟨hmemc.trans (by rw [← hwait]), hmapouts, hreports⟩

/-- One that others wait behind is complete, and the first of them has started (08 R255, R256). -/
theorem execMapoutComplete_next (s : State) (next : Nat) (rest : List Nat) (hstep : s.memc.mapStep = 3)
    (hwait : s.memc.mapWait = next :: rest) (hslot : next < 512) (hnew : has next s.memc.maps = false) (hfew : s.memc.maps.length < 32) :
    ∃ t, exec (.mapoutComplete) s = .next t ∧
      t.memc = { s.memc with
        mapStep := 1, mapSlot := next, mapWait := rest.filter (fun x => decide (x < 512) && !has x s.memc.maps) } ∧
      t.repair.mapouts = s.memc.maps := by
  obtain ⟨hmemc, hmapouts, -⟩ := mapoutDone_parts s
  have hmaps : s.mapoutDone.memc.maps = s.memc.maps := by rw [hmemc]
  have hstarted := mapoutStart_memc hslot (by rw [hmaps]; exact hnew) (by rw [hmemc]) (by rw [hmaps]; exact hfew)
  have hapart := mapoutStart_apart hslot (by rw [hmaps]; exact hnew) (by rw [hmemc]) (by rw [hmaps]; exact hfew)
  refine ⟨_, execMapoutComplete_eq hstep, ?_⟩
  rw [hwait, List.foldl_cons, foldl_mapoutStart_waits rest (by rw [hstarted]; exact Nat.one_ne_zero), State.withMemc_memc, State.withMemc_repair,
    hapart.same .repair, hstarted, hmemc]
  exact ⟨by rw [List.nil_append], hmapouts⟩

/-- While a map-out runs, one that is asked for waits (08 R255). -/
theorem execMapoutStart_waits (s : State) (slot : Nat) (hslot : slot < 512) (hnew : has slot s.memc.maps = false)
    (hbusy : s.memc.mapStep ≠ 0) : ∃ t, exec (.mapoutStart slot) s = .next t ∧
      t.memc = { s.memc with mapWait := s.memc.mapWait ++ [slot] } ∧ t.mem = s.mem := by
  refine ⟨mapoutStart slot s, rfl, ?_⟩
  rw [mapoutStart_waits hbusy, if_pos (by simp [hslot, hnew])]
  exact ⟨rfl, rfl⟩

/-- The thirty-third fails its stack (08 R255). -/
theorem execMapoutStart_fails (s : State) (slot : Nat) (hslot : slot < 512) (hnew : has slot s.memc.maps = false)
    (hidle : s.memc.mapStep = 0) (hfull : s.memc.maps.length = 32) : ∃ t, exec (.mapoutStart slot) s = .next t ∧
      (t.stackOf (slot % 16)).state = 2 ∧ t.fenced (33 + slot % 16) = true := by
  obtain ⟨hstate, hfence, -⟩ := failStack_fails (stack := slot % 16) 4 s (by omega)
  refine ⟨mapoutStart slot s, rfl, ?_⟩
  rw [mapoutStart_fails hslot hnew hidle (by omega)]
  exact ⟨hstate, hfence⟩

/-! ## Frames that a map-out withdraws -/

/-- A change of the state that puts a tile into no frame of a list. -/
def FillsNone (out : List Nat) (s t : State) : Prop :=
  wfTable {} s.tier.frames = true → wfTable {} t.tier.frames = true ∧
    ∀ f ∈ out, (look ({} : Frame) s.tier.frames f).tile = none → (look ({} : Frame) t.tier.frames f).tile = none

theorem FillsNone.of_frames_eq {out : List Nat} {s t : State} (h : t.tier.frames = s.tier.frames) : FillsNone out s t := by
  unfold FillsNone
  rw [h]
  exact fun hwf => ⟨hwf, fun _ _ h => h⟩

theorem FillsNone.of_keeps {out : List Nat} {ws : List Field} {s t : State} (h : Keeps ws s t)
    (hf : Field.tier ∉ ws := by decide) : FillsNone out s t :=
  .of_frames_eq (congrArg Tier.frames (h.part .tier hf))

theorem FillsNone.refl {out : List Nat} (s : State) : FillsNone out s s := .of_frames_eq rfl

theorem FillsNone.trans {out : List Nat} {s t u : State} (h : FillsNone out s t) (h' : FillsNone out t u) : FillsNone out s u := by
  intro hwf
  obtain ⟨hwft, ht⟩ := h hwf
  obtain ⟨hwfu, hu⟩ := h' hwft
  exact ⟨hwfu, fun f hf hnone => hu f hf (ht f hf hnone)⟩

theorem FillsNone.foldl {out : List Nat} {α : Type} {step : State → α → State} (h : ∀ t a, FillsNone out t (step t a)) (l : List α)
    (s : State) : FillsNone out s (l.foldl step s) :=
  foldl_inv (FillsNone out s) step (fun t a ht => ht.trans (h t a)) l s (.refl s)

/-- A frame that changes puts a tile into no frame of the list when it has none of its own there. -/
theorem FillsNone.of_put {out : List Nat} {s t : State} {g : Nat} {x : Frame} (h : t.tier.frames = put {} s.tier.frames g x)
    (hx : g ∈ out → (look ({} : Frame) s.tier.frames g).tile = none → x.tile = none) : FillsNone out s t := by
  intro hwf
  rw [h]
  refine ⟨wfTable_put _ _ _ hwf, fun f hf hnone => ?_⟩
  by_cases hfg : g = f
  · subst hfg
    rw [look_put_same _ _ _ hwf]
    exact hx hf hnone
  · rw [look_put_ne _ _ _ _ hfg]
    exact hnone

/-- An access to a frame leaves its tile there (09 R303). -/
theorem touchFrame_fillsNone (out : List Nat) (a : Nat) (write : Bool) (s : State) : FillsNone out s (touchFrame a write s) := by
  unfold touchFrame
  split
  · split
    · exact .refl s
    · exact .of_put rfl (fun _ h => h)
  · exact .refl s

theorem storeSector_frames (n : Nat) (data : List Byte) (ck : Option (BitVec 32)) (poison : Bool) (s : State) :
    (storeSector n data ck poison s).tier.frames = s.tier.frames := by
  have hw := Within.rfl' [Field.mem, .stack]
  unfold storeSector
  split
  · rfl
  · exact congrArg Tier.frames ((bufferWrite_keeps _ _ _ (withMem_keeps (Keeps.rfl' _ s) _ (RamOk_writeSector (RamOk.rfl' _) _ _ _ _) (hw.of rfl))).same .tier)

/-- The recall of a tile's copies (09 R304, steps 1 and 2). -/
theorem recallTile_fillsNone (out : List Nat) (tile : Nat) (s : State) : FillsNone out s (recallTile tile s) := by
  refine .foldl (fun t n => ?_) _ s
  have hdrop : ∀ u, FillsNone out u (dropCopies n u) := fun u => .of_keeps (dropCopies_keeps n u (Keeps.rfl' _ u) (Within.rfl' _))
  refine FillsNone.trans ?_ (hdrop _)
  split
  · exact (FillsNone.of_frames_eq (storeSector_frames ..)).trans (touchFrame_fillsNone out _ _ _)
  · exact .refl t

/-- What a tile die and the flash hold are no frames. -/
theorem updTdie_withFlash_frames (s : State) (r : Ram) (k : Nat) (f : TierDie → TierDie) :
    ((s.withTier { s.tier with flash := r }).updTdie k f).tier.frames = s.tier.frames := rfl

/-- What a part is read out into is not a frame (09 R304, R307). -/
theorem partToFlash_frames (quiet : Bool) (tile part : Nat) (s : State) :
    (partToFlash quiet tile part s).tier.frames = s.tier.frames := by
  have hread := (serveReads_keeps (tierBase + tile * 0x100000 + part * 0x10000) 0x10000 s (Keeps.rfl' _ s) (Within.rfl' _)).same .tier
  unfold partToFlash
  dsimp only
  rw [updTdie_withFlash_frames, hread]

theorem notResident_frames (tile : Nat) (s : State) : (notResident tile s).tier.frames = s.tier.frames := rfl
theorem freeFrame_frames (tile f : Nat) (s : State) : (freeFrame tile f s).tier.frames = put {} s.tier.frames f {} := rfl

/-- A frame that is emptied holds no tile, and no other frame has one put into it (09 R304). -/
theorem vacate_empties (out : List Nat) (f : Nat) (s : State) : FillsNone out s (vacate f s) ∧
    (wfTable {} s.tier.frames = true → (look ({} : Frame) (vacate f s).tier.frames f).tile = none) := by
  unfold vacate
  split
  · exact ⟨.of_put rfl (fun _ _ => rfl), fun hwf => congrArg Frame.tile (look_put_same _ _ _ hwf)⟩
  · next tile _ =>
    extract_lets s1
    have h1 : FillsNone out s s1 := recallTile_fillsNone out tile s
    have h2 := h1.trans (FillsNone.foldl (fun t part => .of_frames_eq (partToFlash_frames false tile part t))
      (look ({} : Frame) s1.tier.frames f).dirty s1)
    have hfree := freeFrame_frames tile f (notResident tile (List.foldl (fun st part => partToFlash false tile part st) s1
      (look ({} : Frame) s1.tier.frames f).dirty))
    rw [notResident_frames] at hfree
    refine ⟨h2.trans (.of_put hfree (fun _ _ => rfl)), fun hwf => ?_⟩
    rw [hfree]
    exact congrArg Frame.tile (look_put_same _ _ _ (h2 hwf).1)

/-- So does one whose tile has moved to a frame outside the list (08 R256). -/
theorem moveFrame_empties {out : List Nat} {f g : Nat} (s : State) (hf : f ∈ out) (hg : g ∉ out) :
    FillsNone out s (moveFrame f g s) ∧
      (wfTable {} s.tier.frames = true → (look ({} : Frame) (moveFrame f g s).tier.frames f).tile = none) := by
  unfold moveFrame
  extract_lets a b tile s0 fr s1 tmap
  have h0 : FillsNone out s s0 := by
    show FillsNone out s (match tile with | some t => serveReads (tierBase + t * 0x100000) 0x100000 (recallTile t s) | none => s)
    cases tile with
    | none => exact .refl s
    | some t => exact (recallTile_fillsNone out _ s).trans (.of_keeps (serveReads_keeps _ _ _ (Keeps.rfl' _ _) (Within.rfl' _)))
  have hleft : FillsNone out s0 (s1.withTier { s1.tier with frames := put {} s1.tier.frames f {} }) :=
    .of_put (g := f) (x := {}) rfl (fun _ _ => rfl)
  have hmoved : FillsNone out (s1.withTier { s1.tier with frames := put {} s1.tier.frames f {} })
      (s1.withTier { s1.tier with frames := put {} (put {} s1.tier.frames f {}) g fr, tmap := tmap }) :=
    .of_put (g := g) (x := fr) rfl (fun h => absurd h hg)
  refine ⟨h0.trans (hleft.trans hmoved), fun hwf => ?_⟩
  have hempty := look_put_same s1.tier.frames f ({} : Frame) (h0 hwf).1
  exact (hmoved (hleft (h0 hwf).1).1).2 f hf (congrArg Frame.tile hempty)

/-- The frames that are looked for outside a list are outside it. -/
theorem State.spareFrame_notMem {s : State} {out : List Nat} {g : Nat} (h : s.spareFrame out = some g) : g ∉ out := by
  have hg := List.find?_some h
  simp only [Bool.and_eq_true, Bool.not_eq_true', has] at hg
  exact fun hmem => by simpa using List.any_eq_false.mp hg.2 g hmem

theorem State.unpinnedFrame_notMem {s : State} {out : List Nat} {g : Nat} (h : s.unpinnedFrame out = some g) : g ∉ out := by
  have hg := List.find?_some h
  simp only [Bool.and_eq_true, Bool.not_eq_true', has] at hg
  exact fun hmem => by simpa using List.any_eq_false.mp hg.2 g hmem

/-- What the second step of a map-out does with one frame: its tile moves when it is pinned and another frame can take it, and else
leaves (08 R256). -/
def evictFrame (out : List Nat) (s : State) (f : Nat) : State :=
  if (look {} s.tier.frames f).pinned then
    match s.spareFrame out with
    | some g => moveFrame f g s
    | none => match s.unpinnedFrame out with
      | some g => moveFrame f g (vacate g s)
      | none => vacate f s
  else vacate f s

/-- A tile that moves goes to a frame that stays. -/
theorem evictFrame_empties {out : List Nat} {f : Nat} (s : State) (hf : f ∈ out) : FillsNone out s (evictFrame out s f) ∧
    (wfTable {} s.tier.frames = true → (look ({} : Frame) (evictFrame out s f).tier.frames f).tile = none) := by
  unfold evictFrame
  split
  · split
    · next hg => exact moveFrame_empties s hf (State.spareFrame_notMem hg)
    · split
      · next g hg =>
        obtain ⟨hvacate, -⟩ := vacate_empties out g s
        obtain ⟨hmove, hempty⟩ := moveFrame_empties (vacate g s) hf (State.unpinnedFrame_notMem hg)
        exact ⟨hvacate.trans hmove, fun hwf => hempty (hvacate hwf).1⟩
      · exact vacate_empties out f s
  · exact vacate_empties out f s

theorem evictFrame_keeps (out : List Nat) (s : State) (f : Nat) :
    Keeps [.hfifo, .msix, .mem, .stack, .pool, .tier, .cdie, .hif] s (evictFrame out s f) := by
  have hw := Within.rfl' [Field.hfifo, .msix, .mem, .stack, .pool, .tier, .cdie, .hif]
  have hs := Keeps.rfl' [Field.hfifo, .msix, .mem, .stack, .pool, .tier, .cdie, .hif] s
  unfold evictFrame
  split
  · split
    · exact moveFrame_keeps _ _ _ hs
    · split
      · exact moveFrame_keeps _ _ _ (vacate_keeps _ _ hs)
      · exact vacate_keeps _ _ hs
  · exact vacate_keeps _ _ hs

/-- The frames that a map-out withdraws are empty after its second step (08 R256, R257). -/
theorem execMapoutEvictDone_empties (s : State) (hstep : s.memc.mapStep = 1) (hwf : wfTable {} s.tier.frames = true) :
    ∃ t, exec (.mapoutEvictDone) s = .next t ∧ t.memc = { s.memc with mapStep := 2 } ∧
      (∀ f ∈ s.withdrawnFrames, (look {} t.tier.frames f).tile = none) := by
  refine ⟨_, rfl, ?_⟩
  rw [if_pos hstep]
  refine ⟨?_, ?_⟩
  · have hkeeps : Keeps [.hfifo, .msix, .mem, .stack, .pool, .tier, .cdie, .hif] s (s.withdrawnFrames.foldl (evictFrame s.withdrawnFrames) s) :=
      foldl_keeps _ (fun t f ht => ht.trans (evictFrame_keeps _ t f)) _ s (Keeps.rfl' _ s)
    exact congrArg (fun m : MemC => { m with mapStep := 2 }) (hkeeps.same .memc)
  · exact foldl_reaches (f := evictFrame s.withdrawnFrames) (Q := fun t => wfTable {} t.tier.frames = true)
      (P := fun f t => (look ({} : Frame) t.tier.frames f).tile = none)
      (fun t f hf ht => ((evictFrame_empties t hf).1 ht).1) (fun t f hf ht => (evictFrame_empties t hf).2 ht)
      (fun t a ha f hf ht hnone => ((evictFrame_empties t hf).1 ht).2 a ha hnone) hwf

/-! ## The recovery of a stack -/

/-- A stack that is down reads so (08 R266). -/
theorem stackDown_state (stack : Nat) (s : State) : ((stackDown stack s).stackOf stack).state = 1 :=
  State.stackOf_updStack_state (fun h => Nat.noConfusion h)

/-- A stack under recovery is fenced, and its layers keep what they hold (08 R266). -/
theorem execStackRecoveryStart_fences (s : State) (stack : Nat) (hstack : stack < 16) (hstate : (s.stackOf stack).state = 0) :
    ∃ t, exec (.stackRecoveryStart stack) s = .next t ∧ (t.stackOf stack).state = 1 ∧ t.fenced (33 + stack) = true ∧
      t.mem = s.mem := by
  refine ⟨_, rfl, ?_⟩
  rw [if_pos (by simp [hstack, hstate])]
  have hfence := fencePort_keeps (33 + stack) true 4 s (Keeps.rfl' _ s) (Within.rfl' _)
  have hdown := stackDown_keeps stack (fencePort (33 + stack) true 4 s) (Keeps.rfl' _ _) (Within.rfl' _)
  exact ⟨stackDown_state stack _, (hdown.grow.fenced _).trans (fencePort_fenced true 4 s (by omega)),
    (hdown.same .mem).trans (hfence.same .mem)⟩

/-- What is found in memory poisons its sector, and heals none (08 R253). -/
theorem uncorrectable_isPoison {h a n m : Nat} {s : State} (hor : n = m ∨ s.mem.isPoison m = true) :
    (uncorrectable h a n s).mem.isPoison m = true := by
  unfold uncorrectable
  split
  · next hn => exact hor.elim (fun e => e ▸ hn) id
  · have hmem : ((s.mem.setPoison n true).fixCk n).isPoison m = true := Ram.isPoison_setPoison hor
    extract_lets s1
    split
    · rw [(post_keeps _ _ (Keeps.rfl' _ _) (Within.rfl' _)).same .mem]
      exact hmem
    · rw [(post_keeps _ _ (Keeps.rfl' _ _) (Within.rfl' _)).same .mem]
      exact hmem

/-- The verification pass poisons every sector of the stack whose check word fails (08 R253, R266). -/
theorem verifyStack_isPoison {s : State} {stack n : Nat} (hbad : n ∈ s.mem.ckErr.map Prod.fst) (hhbm : 64 * n < s.hbmEnd)
    (hhome : s.stackFor (64 * n) = stack) : (verifyStack stack s).mem.isPoison n = true := by
  refine foldl_reaches (Q := fun t : State => t.memc = s.memc)
    (P := fun m (t : State) => 64 * m < s.hbmEnd → s.stackFor (64 * m) = stack → t.mem.isPoison m = true) ?_ ?_ ?_ rfl n hbad hhbm hhome
  · intro t m _ ht
    split
    · exact ((uncorrectable_keeps _ _ _ t (Keeps.rfl' _ t) (Within.rfl' _)).same .memc).trans ht
    · exact ht
  · intro t m _ ht h1 h2
    have hend : t.hbmEnd = s.hbmEnd := by unfold State.hbmEnd State.rowsLeft State.unitsPerCh; rw [ht]
    have hfor : t.stackFor (64 * m) = s.stackFor (64 * m) := by
      unfold State.stackFor State.unitHome State.homeUnder State.unitsPerCh; rw [ht]
    rw [if_pos (by simp [hend, hfor, h1, h2])]
    exact uncorrectable_isPoison (.inl rfl)
  · intro t a _ m _ _ ha h1 h2
    split
    · exact uncorrectable_isPoison (.inr (ha h1 h2))
    · exact ha h1 h2

/-- An error that a code finds leaves every stack in its state. -/
theorem uncorrectable_state (h a n k : Nat) (s : State) : ((uncorrectable h a n s).stackOf k).state = (s.stackOf k).state := by
  unfold uncorrectable
  split
  · rfl
  · extract_lets s1
    split
    · rw [(post_keeps _ _ (Keeps.rfl' _ _) (Within.rfl' _)).stackOf]
      by_cases hk : h - 33 = k
      · subst hk
        have hcount : satAdd 0xFFFF (s1.stackOf (h - 33)).uncorr 1 ≠ 0 := by unfold satAdd; split <;> omega
        rw [State.stackOf_updStack_same (fun e => hcount (congrArg Stack.uncorr e))]
        rfl
      · exact congrArg Stack.state (look_put_ne _ _ _ _ hk)
    · rw [(post_keeps _ _ (Keeps.rfl' _ _) (Within.rfl' _)).stackOf]
      rfl

/-- The verification pass leaves every stack in its state. -/
theorem verifyStack_state (stack k : Nat) (s : State) : ((verifyStack stack s).stackOf k).state = (s.stackOf k).state := by
  refine foldl_inv (fun t => (t.stackOf k).state = (s.stackOf k).state) _ (fun t n ht => ?_) _ s rfl
  split
  · exact (uncorrectable_state ..).trans ht
  · exact ht

/-- A stack that has been verified, before its fence is lifted (08 R253, R266). -/
def State.verified (s : State) (stack : Nat) : State := verifyStack stack (s.updStack stack (fun x => { x with state := 0 }))

theorem verified_keeps (s : State) (stack : Nat) : Keeps [.hfifo, .msix, .mem, .stack, .pool, .cdie, .hif] s (s.verified stack) := by
  have hw := Within.rfl' [Field.hfifo, .msix, .mem, .stack, .pool, .cdie, .hif]
  exact verifyStack_keeps stack _ (State.updStack_keeps _ _ _ (Keeps.rfl' _ s))

theorem verified_linkReady {s : State} {stack p : Nat} (h : s.linkReady p = true) : (s.verified stack).linkReady p = true := by
  unfold State.linkReady State.linkOf at h ⊢
  rw [(verified_keeps s stack).same .link]
  exact h

/-- A recovery that has succeeded verifies the stack, lifts its fence, and maps its failed channels out (08 R266). -/
theorem execStackRecoveryDone_ok {s : State} {stack : Nat} (failed : List Nat) (hstack : stack < 16) (hstate : (s.stackOf stack).state = 1)
    (hready : s.linkReady (33 + stack) = true) : execStackRecoveryDone stack true failed s =
      .next (failed.foldl (fun st ch => mapoutStart (ch * 16 + stack) st) (unfence (33 + stack) 4000 (s.verified stack))) := by
  unfold execStackRecoveryDone State.verified
  rw [if_pos (by simp [hstack, hstate, hready])]
  rfl

/-- A stack whose recovery has succeeded serves again, and what fails its check is poisoned (08 R253, R266). -/
theorem execStackRecoveryDone_serves (s : State) (stack : Nat) (hstack : stack < 16) (hstate : (s.stackOf stack).state = 1)
    (hready : s.linkReady (33 + stack) = true) (hwf : wfTable {} s.stack = true) :
    ∃ t, exec (.stackRecoveryDone stack true []) s = .next t ∧ (t.stackOf stack).state = 0 ∧ t.fenced (33 + stack) = false ∧
      t.glb.site = put 0 s.glb.site (33 + stack) 0 ∧
      (∀ c ∈ s.mem.ckErr, 64 * c.1 < s.hbmEnd → s.stackFor (64 * c.1) = stack → t.mem.isPoison c.1 = true) := by
  obtain ⟨hfence, hsite⟩ := unfence_serves 4000 (verified_linkReady (stack := stack) hready)
  have hunfence := unfence_keeps (33 + stack) 4000 (s.verified stack) (Keeps.rfl' _ _) (Within.rfl' _)
  refine ⟨_, execStackRecoveryDone_ok [] hstack hstate hready, ?_, hfence, ?_, fun c hc hend hfor => ?_⟩
  · rw [List.foldl_nil, hunfence.stackOf]
    refine (verifyStack_state stack stack _).trans ?_
    exact congrArg Stack.state (look_put_same _ _ _ hwf)
  · rw [List.foldl_nil, hsite, (verified_keeps s stack).same .glb]
  · rw [List.foldl_nil, hunfence.same .mem]
    exact verifyStack_isPoison (List.mem_map_of_mem hc) hend hfor

/-- A channel that failed is mapped out then (08 R255, R266). -/
theorem execStackRecoveryDone_mapsOut (s : State) (stack ch : Nat) (hstack : stack < 16) (hch : ch < 32)
    (hstate : (s.stackOf stack).state = 1) (hready : s.linkReady (33 + stack) = true) (hnew : has (ch * 16 + stack) s.memc.maps = false)
    (hidle : s.memc.mapStep = 0) (hfew : s.memc.maps.length < 32) : ∃ t, exec (.stackRecoveryDone stack true [ch]) s = .next t ∧
      t.memc = { s.memc with mapStep := 1, mapSlot := ch * 16 + stack } ∧ t.fenced (33 + stack) = false := by
  obtain ⟨hfence, -⟩ := unfence_serves 4000 (verified_linkReady (stack := stack) hready)
  have hmemc : (unfence (33 + stack) 4000 (s.verified stack)).memc = s.memc :=
    ((unfence_keeps (33 + stack) 4000 (s.verified stack) (Keeps.rfl' _ _) (Within.rfl' _)).same .memc).trans
      ((verified_keeps s stack).same .memc)
  rw [← hmemc] at hnew hidle hfew ⊢
  exact ⟨_, execStackRecoveryDone_ok [ch] hstack hstate hready, mapoutStart_memc (by omega) hnew hidle hfew,
    ((mapoutStart_apart (by omega) hnew hidle hfew).grow.fenced _).trans hfence⟩

/-- One whose recovery has not succeeded is failed (08 R266; 16 R567). -/
theorem execStackRecoveryDone_fails (s : State) (stack : Nat) (failed : List Nat) (hstack : stack < 16)
    (hstate : (s.stackOf stack).state = 1) : ∃ t, exec (.stackRecoveryDone stack false failed) s = .next t ∧
      (t.stackOf stack).state = 2 ∧ look 0 t.glb.site (33 + stack) = 3 := by
  obtain ⟨hfailed, -, hsite⟩ := failStack_fails 4 s hstack
  refine ⟨failStack stack 4 s, ?_, hfailed, hsite⟩
  show execStackRecoveryDone stack false failed s = _
  unfold execStackRecoveryDone
  rw [if_pos (by simp [hstack, hstate])]
  rfl

/-- Settles O25, row by row: a layer that is lost, the steps of a map-out, and the recovery of a stack. -/
theorem stackLossAndRecovery : Obligations.StackLossAndRecovery :=
  ⟨execLayerFailure_indigo, execLayerFailure_cobalt, execMapoutStart_starts, execMapoutStart_waits, execMapoutStart_fails,
    execMapoutEvictDone_empties, execMapoutMapDistributed_maps, execMapoutComplete_last, execMapoutComplete_next,
    execStackRecoveryStart_fences, execStackRecoveryDone_serves, execStackRecoveryDone_mapsOut, execStackRecoveryDone_fails⟩

end Sys2Proof.Machine
end

section
/-!
O26, refuted. Of its twelve clauses only the one on the homes of a lost core die is looked at here; everything else that it states is
left open.
-/
namespace Sys2Proof.Machine

/-- Core die 0 has had its machine check, and it shares a sector of stack 0 by the stack's directory. The table of the stacks lists
stack 0 a second time, with a directory in which the die shares another sector. -/
def homeListedTwice : State :=
  { State.reset with
    cdie := [(0, { rec_ := 1 })]
    stack := [(0, { home := { dir := [⟨5, none, [0], none⟩] } }), (0, { home := { dir := [⟨6, none, [0], none⟩] } })] }

/-- Each directory lists a sector once, as the clause asks: stack 0 reads as its first entry. -/
theorem homeListedTwice_nodup (i : Nat) (hi : i < 20) : ((homeListedTwice.homeOf (33 + i)).dir.map DirEnt.sector).Nodup := by
  have hall : ∀ i ∈ List.range 20, ((homeListedTwice.homeOf (33 + i)).dir.map DirEnt.sector).Nodup := by decide +kernel
  exact hall i (List.mem_range.mpr hi)

/-- With its one sharer gone the stack has become the default one, and a table lists none: the second entry is what it reads as now,
and the die is in its directory. -/
theorem coreDiePoisonDone_homeListedTwice : ∃ t, exec (.coreDiePoisonDone 0) homeListedTwice = .next t ∧
    (t.homeOf 33).dir = [⟨6, none, [0], none⟩] :=
  ⟨_, rfl, by decide +kernel⟩

/-- Refutes O26: the clause on the homes' part in the recovery of a core die (11 R391, step 2) asks that each directory lists a sector
once, and not that the table of the stacks lists each stack once. -/
theorem not_poolAndCoreDies : ¬ Obligations.PoolAndCoreDies := by
  rintro ⟨-, -, -, -, -, -, -, -, hpoison, -⟩
  obtain ⟨t, hexec, hdir⟩ := coreDiePoisonDone_homeListedTwice
  obtain ⟨u, hclause, -, -, hdropped⟩ := hpoison homeListedTwice 0 (by decide) homeListedTwice_nodup
  obtain rfl := Host.Outcome.next.inj (hexec.symm.trans hclause)
  have hnone := hdropped 0 (by decide) ⟨6, none, [0], none⟩ (by rw [hdir]; exact List.mem_singleton.mpr rfl)
  exact absurd hnone (by decide)

end Sys2Proof.Machine
end

section
/-!
The deep tier's parts, and O27 (09 R300 to R312): what the storing of a sector, a fetch and the release of the accesses that wait change
of the tier, one law for each; then how a tile becomes resident and leaves its frame.
-/
namespace Sys2Proof.Machine

set_option Elab.async false

/-! ## What a stored sector changes of the tier -/

/-- Of the tier no more changes than what its frames record and the flash holds. -/
def TierStores (s t : State) : Prop := ∃ fr fl, t.tier = { s.tier with frames := fr, flash := fl }

theorem TierStores.of_tier_eq {s t : State} (h : t.tier = s.tier) : TierStores s t := ⟨s.tier.frames, s.tier.flash, h⟩
theorem TierStores.refl (s : State) : TierStores s s := .of_tier_eq rfl

theorem TierStores.of_keeps {ws : List Field} {s t : State} (h : Keeps ws s t) (hf : Field.tier ∉ ws := by decide) : TierStores s t :=
  .of_tier_eq (h.part .tier hf)

theorem TierStores.trans {s t u : State} (h : TierStores s t) (g : TierStores t u) : TierStores s u := by
  obtain ⟨fr, fl, h⟩ := h
  obtain ⟨fr', fl', g⟩ := g
  exact ⟨fr', fl', by rw [g, h]⟩

theorem TierStores.foldl {α : Type} {step : State → α → State} (h : ∀ t a, TierStores t (step t a)) (l : List α) (s : State) :
    TierStores s (l.foldl step s) :=
  foldl_inv (TierStores s) step (fun t a ht => ht.trans (h t a)) l s (.refl s)

/-- What the tier's dies, its map and what waits in it hold stays. -/
theorem TierStores.rest {s t : State} (h : TierStores s t) :
    t.tier.die = s.tier.die ∧ t.tier.tmap = s.tier.tmap ∧ t.tier.wait = s.tier.wait := by
  obtain ⟨fr, fl, h⟩ := h
  rw [h]
  exact ⟨rfl, rfl, rfl⟩

theorem touchFrame_tierStores (a : Nat) (write : Bool) (s : State) : TierStores s (touchFrame a write s) := by
  unfold touchFrame
  split
  · split
    · exact .refl s
    · exact ⟨_, s.tier.flash, rfl⟩
  · exact .refl s

theorem storeSector_tierStores (n : Nat) (data : List Byte) (ck : Option (BitVec 32)) (poison : Bool) (s : State) :
    TierStores s (storeSector n data ck poison s) := by
  have hw := Within.rfl' [Field.mem, .stack]
  unfold storeSector
  split
  · exact ⟨s.tier.frames, _, rfl⟩
  · exact .of_keeps (bufferWrite_keeps _ _ _ (withMem_keeps (Keeps.rfl' _ s) _ (RamOk_writeSector (RamOk.rfl' _) _ _ _ _) (hw.of rfl)))

theorem dropCopies_tierStores (n : Nat) (s : State) : TierStores s (dropCopies n s) :=
  .of_keeps (dropCopies_keeps n s (Keeps.rfl' _ s) (Within.rfl' _))

/-- The recall of a tile's copies (09 R304). -/
theorem recallTile_tierStores (tile : Nat) (s : State) : TierStores s (recallTile tile s) := by
  refine .foldl (fun t n => TierStores.trans ?_ (dropCopies_tierStores n _)) _ s
  split
  · exact (storeSector_tierStores ..).trans (touchFrame_tierStores _ _ _)
  · exact .refl t

/-- A part that is read out waits to be programmed by its die; `quiet`: as background work (09 R304, R321). -/
def TierDie.readOut (quiet : Bool) (n : Nat) (d : TierDie) : TierDie :=
  { d with programming := ins n d.programming, quiet := if quiet then ins n d.quiet else del n d.quiet }

theorem updTdie_withFlash_tier (s : State) (r : Ram) (k : Nat) (f : TierDie → TierDie) :
    ((s.withTier { s.tier with flash := r }).updTdie k f).tier = { s.tier with flash := r, die := upd {} s.tier.die k f } := rfl

/-- The bytes of a part that is read out are in the flash, and its die has it to program (09 R304, R307). -/
theorem partToFlash_tier (quiet : Bool) (tile part : Nat) (s : State) : ∃ fl, (partToFlash quiet tile part s).tier =
    { s.tier with flash := fl, die := upd {} s.tier.die (tile % 2) (TierDie.readOut quiet (tile * 16 + part)) } := by
  have hread := (serveReads_keeps (tierBase + tile * 0x100000 + part * 0x10000) 0x10000 s (Keeps.rfl' _ s) (Within.rfl' _)).same .tier
  unfold partToFlash
  dsimp only
  rw [updTdie_withFlash_tier, hread]
  exact ⟨_, rfl⟩

/-! ## What a fetch that starts changes -/

/-- A fetch starts, or a victim is looked for: frames, the sweep, what waits for a frame and what is fetched ahead change. -/
def FetchStarts (s t : State) : Prop :=
  ∃ fr sw fe la, t = s.withTier { s.tier with frames := fr, sweep := sw, fetching := fe, last := la }

theorem FetchStarts.refl (s : State) : FetchStarts s s := ⟨s.tier.frames, s.tier.sweep, s.tier.fetching, s.tier.last, rfl⟩

theorem FetchStarts.trans {s t u : State} (h : FetchStarts s t) (g : FetchStarts t u) : FetchStarts s u := by
  obtain ⟨fr, sw, fe, la, rfl⟩ := h
  obtain ⟨fr', sw', fe', la', rfl⟩ := g
  exact ⟨fr', sw', fe', la', rfl⟩

theorem FetchStarts.foldl {α : Type} {step : State → α → State} (h : ∀ t a, FetchStarts t (step t a)) (l : List α) (s : State) :
    FetchStarts s (l.foldl step s) :=
  foldl_inv (FetchStarts s) step (fun t a ht => ht.trans (h t a)) l s (.refl s)

theorem sweep_fetchStarts (n f : Nat) (s : State) : FetchStarts s (sweep n f s).2 := by
  induction n generalizing f s with
  | zero => exact .refl s
  | succ n ih =>
    unfold sweep
    dsimp only
    split
    · exact ih _ s
    · split
      · exact FetchStarts.trans ⟨_, _, _, _, rfl⟩ (ih _ _)
      · exact ⟨_, _, _, _, rfl⟩

theorem chooseVictim_fetchStarts (s : State) : FetchStarts s (chooseVictim s).2 := by
  have hsweep := sweep_fetchStarts (2 * s.memc.frameCount) s.tier.sweep s
  unfold chooseVictim
  split
  · next h => rw [h] at hsweep; exact hsweep
  · next h => rw [h] at hsweep; exact hsweep.trans ⟨_, _, _, _, rfl⟩

theorem startFetch_fetchStarts (tile : Nat) (pre : Bool) (s : State) : FetchStarts s (startFetch tile pre s) := by
  have hvictim := chooseVictim_fetchStarts s
  unfold startFetch
  split
  · exact .refl s
  · split
    · exact ⟨_, _, _, _, rfl⟩
    · split
      next h =>
      rw [h] at hvictim
      split
      · exact hvictim
      · exact hvictim.trans ⟨_, _, _, _, rfl⟩

theorem prefetchAhead_fetchStarts (src tile : Nat) (s : State) : FetchStarts s (prefetchAhead src tile s) := by
  unfold prefetchAhead
  split
  extract_lets _ _ s1
  have hnoted : FetchStarts s s1 := ⟨_, _, _, _, rfl⟩
  split
  · exact hnoted.trans (.foldl (fun t k => startFetch_fetchStarts (tile + k) true t) _ s1)
  · exact hnoted

/-- What a fetch that starts leaves. -/
theorem FetchStarts.rest {s t : State} (h : FetchStarts s t) :
    t.tier.wait = s.tier.wait ∧ t.tier.flash = s.tier.flash ∧ t.mem = s.mem ∧ t.stack = s.stack ∧ t.regs = s.regs := by
  obtain ⟨fr, sw, fe, la, rfl⟩ := h
  exact ⟨rfl, rfl, rfl, rfl, rfl⟩

/-- A tile may be fetched: it is one of the 2^25, in no frame and on no way into one, and its die serves (09 R300, R301, R314). -/
def State.mayFetch (s : State) (tile : Nat) : Prop :=
  tile < 33554432 ∧ s.frameWith tile = none ∧ s.fetchWaits tile = false ∧ (s.tdieOf (tile % 2)).state ≠ 3

theorem State.mayFetch.notBarred {s : State} {tile : Nat} (h : s.mayFetch tile) :
    ¬ (decide (33554432 ≤ tile) || (s.frameWith tile).isSome || s.fetchWaits tile || (s.tdieOf (tile % 2)).state == 3) = true := by
  obtain ⟨htile, hframe, hwaits, hstate⟩ := h
  simp [hframe, hwaits, hstate, htile]

/-- A fetch with a free frame starts into it (09 R301). -/
theorem startFetch_spare {s : State} {tile f : Nat} (pre : Bool) (h : s.mayFetch tile) (hspare : s.spareFrame [] = some f) :
    startFetch tile pre s = fillFrame tile f pre s := by
  unfold startFetch
  rw [if_neg h.notBarred, hspare]

/-- Without one it waits for a victim to leave (09 R304). -/
theorem startFetch_full {s : State} {tile : Nat} (h : s.mayFetch tile) (hspare : s.spareFrame [] = none) :
    startFetch tile false s =
      (chooseVictim s).2.withTier { (chooseVictim s).2.tier with fetching := (chooseVictim s).2.tier.fetching ++ [(tile, false)] } := by
  unfold startFetch
  rw [if_neg h.notBarred, hspare]
  rfl

/-- A victim that is looked for leaves what waits for a frame. -/
theorem chooseVictim_fetching (s : State) : (chooseVictim s).2.tier.fetching = s.tier.fetching := by
  have hsweep : ∀ (n f : Nat) (u : State), (sweep n f u).2.tier.fetching = u.tier.fetching := fun n => by
    induction n with
    | zero => exact fun _ _ => rfl
    | succ n ih =>
      intro f u
      unfold sweep
      dsimp only
      split
      · exact ih _ u
      · split
        · exact ih _ _
        · rfl
  have hhere := hsweep (2 * s.memc.frameCount) s.tier.sweep s
  unfold chooseVictim
  split
  · next h => rw [h] at hhere; exact hhere
  · next h => rw [h] at hhere; exact hhere

/-- The frame that a tile is fetched into is the tile's, being filled, with nothing dirty (09 R301). -/
theorem fillFrame_frame (tile f : Nat) (pre : Bool) (s : State) :
    (look {} (fillFrame tile f pre s).tier.frames f).tile = some tile ∧ (look {} (fillFrame tile f pre s).tier.frames f).filling = true ∧
      (look {} (fillFrame tile f pre s).tier.frames f).dirty = [] := by
  unfold fillFrame
  dsimp only
  rw [State.withTier_tier, look_put_new _ _ _ (fun e => by simpa using congrArg Frame.tile e)]
  exact ⟨rfl, rfl, rfl⟩

/-! ## The accesses that wait for a tile -/

/-- A fold whose every step leaves the state where it starts ends there. -/
theorem foldl_stays {σ α : Type} {f : σ → α → σ} {s : σ} {l : List α} (h : ∀ a ∈ l, f s a = s) : l.foldl f s = s := by
  induction l with
  | nil => rfl
  | cons a r ih =>
    rw [List.foldl_cons, h a List.mem_cons_self]
    exact ih (fun b hb => h b (List.mem_cons_of_mem _ hb))

/-- No runtime command waits in its window for a tile (09 R301). -/
def State.windowsIdle (s : State) : Prop := ∀ k, k < 16 → ∀ w ∈ (s.stackOf k).win, w.2.wait = false

theorem State.windowsIdle.of_stack_eq {s t : State} (h : s.windowsIdle) (e : t.stack = s.stack) : t.windowsIdle := by
  intro k hk w hw
  unfold State.stackOf at hw
  rw [e] at hw
  exact h k hk w hw

/-- Where none waits, none is taken up. -/
theorem windowsGo_idle {s : State} (h : s.windowsIdle) : windowsGo s = s := by
  refine foldl_stays (fun k hk => ?_)
  rw [List.filter_eq_nil_iff.mpr (fun w hw => by rw [h k (List.mem_range.mp hk) w hw]; exact Bool.false_ne_true)]
  rfl

/-- The map holds the tile and the accesses that waited for it go on; beside that the tier stays (09 R301). -/
theorem tierGo_tier {tile f : Nat} {s : State} (hidle : s.windowsIdle) :
    (tierGo tile f s).tier = { s.tier with
      tmap := put 0 s.tier.tmap tile (f + 1), wait := s.tier.wait.filter (fun p => tileOfAddr p.addr != tile) } ∧
    (tierGo tile f s).mem = s.mem := by
  unfold tierGo
  extract_lets mine _ s1
  have hreleased : Keeps [.link, .hub] s1 (mine.foldl (fun st p => tierRelease p st) s1) :=
    foldl_keeps _ (fun t p ht => tierRelease_keeps p t ht (Within.rfl' _)) mine s1 (Keeps.rfl' _ s1)
  rw [windowsGo_idle (hidle.of_stack_eq (hreleased.same .stack))]
  exact ⟨hreleased.same .tier, hreleased.same .mem⟩

/-- The entry that makes way leaves the map alone (09 R301). -/
theorem mapRoom_tmap (s : State) : ∃ m, mapRoom s = s.withTier { s.tier with tmap := m } := by
  unfold mapRoom
  split
  · exact ⟨s.tier.tmap, rfl⟩
  · split
    · exact ⟨s.tier.tmap, rfl⟩
    · exact ⟨_, rfl⟩

/-- A tile that the map is given a frame for resolves to it. -/
theorem State.frameOf_put {s : State} {tile f : Nat} {m : FMap Nat} (h : s.tier.tmap = put 0 m tile (f + 1)) :
    s.frameOf tile = some f := by
  unfold State.frameOf
  rw [h, look_put_new _ _ _ (Nat.succ_ne_zero f)]

/-- A tile that is resident fills the map, and what waited for it waits no more (09 R301). -/
theorem tierGo_resident {tile f : Nat} {s : State} (hidle : s.windowsIdle) :
    (tierGo tile f (mapRoom s)).frameOf tile = some f ∧
    (tierGo tile f (mapRoom s)).tier.wait = s.tier.wait.filter (fun p => tileOfAddr p.addr != tile) ∧
    (tierGo tile f (mapRoom s)).tier.flash = s.tier.flash ∧ (tierGo tile f (mapRoom s)).mem = s.mem := by
  obtain ⟨m, hm⟩ := mapRoom_tmap s
  rw [hm]
  obtain ⟨htier, hmem⟩ := tierGo_tier (tile := tile) (f := f) (s := s.withTier { s.tier with tmap := m }) hidle
  refine ⟨State.frameOf_put (m := m) ?_, ?_, ?_, hmem⟩ <;> rw [htier] <;> rfl

/-! ## A tile that leaves its frame -/

/-- A frame that its tile has left is free, and the map drops the tile (09 R304). -/
theorem vacate_frameOf {s : State} {f tile : Nat} (htile : (look {} s.tier.frames f).tile = some tile) (hwf : wfTable 0 s.tier.tmap = true) :
    (vacate f s).frameOf tile = none := by
  have hread : ∀ (l : List Nat) (u : State),
      (l.foldl (fun st part => partToFlash false tile part st) u).tier.tmap = u.tier.tmap := fun l u =>
    foldl_inv (fun t => t.tier.tmap = u.tier.tmap) _ (fun t part ht => by
      obtain ⟨fl, htier⟩ := partToFlash_tier false tile part t
      rw [htier]
      exact ht) l u rfl
  obtain ⟨-, hrecall, -⟩ := (recallTile_tierStores tile s).rest
  have hfree : ∀ u : State, (freeFrame tile f (notResident tile u)).tier.tmap = put 0 u.tier.tmap tile 0 := fun _ => rfl
  have hfreed : (vacate f s).tier.tmap = put 0 s.tier.tmap tile 0 := by
    unfold vacate
    rw [htile]
    dsimp only
    rw [hfree, hread, hrecall]
  unfold State.frameOf
  rw [hfreed, look_put_same _ _ _ hwf]

/-- A frame whose tile leaves goes to the first tile that waits for one (09 R304). -/
theorem execFrameEvictionDone_fills {s : State} {tile frame : Nat} {pre : Bool} {r : List (Nat × Bool)}
    (hfetching : s.tier.fetching = (tile, pre) :: r) (hevicting : (look {} s.tier.frames frame).evicting = true) :
    exec (.frameEvictionDone frame) s =
      .next (fillFrame tile frame pre ((vacate frame s).withTier { (vacate frame s).tier with fetching := r })) := by
  show execFrameEvictionDone frame s = _
  unfold execFrameEvictionDone
  rw [hfetching]
  dsimp only
  rw [if_pos hevicting]

/-! ## The bytes of a tile -/

/-- A key that reads other than the default is listed with what it reads. -/
theorem mem_of_look_ne {α : Type} {d : α} {m : FMap α} {k : Nat} (h : look d m k ≠ d) : (k, look d m k) ∈ m := by
  induction m with
  | nil => exact absurd rfl h
  | cons c r ih =>
    obtain ⟨i, w⟩ := c
    simp only [look] at h ⊢
    split
    · next e => rw [e]; exact List.mem_cons_self
    · next e => rw [if_neg e] at h; exact List.mem_cons_of_mem _ (ih h)

/-- The sectors of a tile whose word in flash differs from the one stored with it (16 R552). -/
def State.differing (s : State) (tile : Nat) (bad : List Nat) : List Nat :=
  (List.range 16384).filter (fun k =>
    !has k bad && s.tier.flash.ckBad (tile * 16384 + k) && !s.tier.flash.isPoison (tile * 16384 + k))

/-- The sectors of a tile that arrive poisoned: those that flash cannot recover, and those whose word differs (09 R307, R312). -/
def markArrived (bad differ : List Nat) (base : Nat) (m : Ram) : Ram :=
  differ.foldl (fun m k => (m.setPoison (base + k) true).fixCk (base + k)) (bad.foldl (fun m k => m.setPoison (base + k) true) m)

theorem markArrived_isPoison {bad : List Nat} (differ : List Nat) {k : Nat} (base : Nat) (m : Ram) (hk : k ∈ bad) :
    (markArrived bad differ base m).isPoison (base + k) = true := by
  refine foldl_inv (fun r : Ram => r.isPoison (base + k) = true) _ (fun r j hr => ?_) differ _ ?_
  · exact Ram.isPoison_setPoison (r := r) (.inr hr)
  · exact foldl_reaches (Q := fun _ => True) (P := fun j (r : Ram) => r.isPoison (base + j) = true) (fun _ _ _ h => h)
      (fun _ _ _ _ => Ram.isPoison_setPoison (.inl rfl)) (fun _ _ _ _ _ _ h => Ram.isPoison_setPoison (.inr h)) trivial k hk

/-- What a fetch brings: the tile's bytes with their check words and poison in its frame, and the sectors that arrive poisoned marked
there and in flash (09 R307, R312). -/
theorem fetchTile_brings (tile f : Nat) (bad : List Nat) (s : State) :
    (fetchTile tile f bad s).mem = markArrived bad (s.differing tile bad) ((s.memc.frameBase + f * 0x100000) / 64)
      (s.mem.restoreAt (s.tier.flash.save (tile * 0x100000) 0x100000) (s.memc.frameBase + f * 0x100000)) ∧
    (fetchTile tile f bad s).tier.flash = markArrived bad (s.differing tile bad) (tile * 16384) s.tier.flash ∧
    (fetchTile tile f bad s).tier.wait = s.tier.wait := by
  unfold fetchTile
  extract_lets a k0 differ got mark s1 _ s2
  have hdiffer : differ = s.differing tile bad := rfl
  rw [← hdiffer]
  clear_value differ
  have hw := Within.rfl' [Field.hfifo, .msix, .cdie, .hif]
  have hwords : Keeps [.hfifo, .msix, .cdie, .hif] (s1.withTier { s1.tier with flash := mark k0 s1.tier.flash }) s2 :=
    foldl_keeps _ (fun t k ht => evCheckword_keeps _ _ _ _ t ht) differ _ (Keeps.rfl' _ _)
  have hmem : s2.mem = mark (a / 64) got := hwords.same .mem
  have htier : s2.tier = { s.tier with flash := mark k0 s.tier.flash } := hwords.same .tier
  refine foldl_inv (fun t : State => t.mem = mark (a / 64) got ∧ t.tier.flash = mark k0 s.tier.flash ∧ t.tier.wait = s.tier.wait) _
    (fun t part ht => ?_) _ _ ?_
  · have hposted := post_keeps (ev 0x04 (some (60 + tile % 2)) 2 [tierBase + tile * 0x100000 + part * 0x10000])
      (t.updTdie (tile % 2) (fun d => { d with uncorr := satAdd 0xFFFF d.uncorr 1 })) (Keeps.rfl' _ _) (Within.rfl' _)
    obtain ⟨hm, hf, hwait⟩ := ht
    exact ⟨(hposted.same .mem).trans hm, (congrArg Tier.flash (hposted.part .tier (by decide))).trans hf,
      (congrArg Tier.wait (hposted.part .tier (by decide))).trans hwait⟩
  · have hflash : s2.tier.flash = mark k0 s.tier.flash := by rw [htier]
    have hwait : s2.tier.wait = s.tier.wait := by rw [htier]
    exact ⟨hmem, hflash, hwait⟩

/-! ## The rows -/

/-- The hub asks for a tile that it has no entry of (09 R301). -/
theorem execTierMapMiss_asks (s : State) (tile : Nat) (hmiss : s.frameOf tile = none) : ∃ t, exec (.tierMapMiss tile) s = .next t ∧
    t.tier = { s.tier with asked := ins tile s.tier.asked } ∧ t.mem = s.mem := by
  refine ⟨_, rfl, ?_⟩
  rw [if_neg (by rw [hmiss]; exact Bool.false_ne_true)]
  exact ⟨rfl, rfl⟩

/-- The state in which the answer for a tile has come. -/
def State.answered (s : State) (tile : Nat) : State := s.withTier { s.tier with asked := del tile s.tier.asked }

/-- The answer finds the tile in a frame or starts its fetch (09 R301). -/
theorem execTierMapReply_eq {s : State} {tile : Nat} (hasked : has tile s.tier.asked = true) : exec (.tierMapReply tile) s =
    .next (match s.tier.frames.find? (fun f => f.2.tile == some tile && !f.2.filling) with
      | some (f, _) => tierGo tile f (mapRoom (s.answered tile))
      | none => startFetch tile false (s.answered tile)) := by
  show execTierMapReply tile s = _
  unfold execTierMapReply
  rw [if_neg (by simp [hasked])]
  rfl

/-- A tile that is in a frame fills the map, and what waited for it goes on. -/
theorem execTierMapReply_resident (s : State) (tile f : Nat) (fr : Frame) (hasked : has tile s.tier.asked = true)
    (hfind : s.tier.frames.find? (fun x => x.2.tile == some tile && !x.2.filling) = some (f, fr)) (hidle : s.windowsIdle) :
    ∃ t, exec (.tierMapReply tile) s = .next t ∧ t.frameOf tile = some f ∧
      t.tier.wait = s.tier.wait.filter (fun p => tileOfAddr p.addr != tile) ∧ t.mem = s.mem := by
  obtain ⟨hframe, hwait, -, hmem⟩ := tierGo_resident (tile := tile) (f := f) (s := s.answered tile) hidle
  refine ⟨tierGo tile f (mapRoom (s.answered tile)), ?_, hframe, hwait, hmem⟩
  rw [execTierMapReply_eq hasked, hfind]

/-- A tile that is in no frame, and may be fetched, has its fetch started. -/
theorem execTierMapReply_fetches {s : State} {tile : Nat} (hasked : has tile s.tier.asked = true) (h : s.mayFetch tile) :
    exec (.tierMapReply tile) s = .next (startFetch tile false (s.answered tile)) := by
  obtain ⟨-, hframe, -, -⟩ := h
  have hnone := List.find?_eq_none.mp (Option.map_eq_none_iff.mp hframe)
  rw [execTierMapReply_eq hasked, List.find?_eq_none.mpr (fun x hx hin => hnone x hx (Bool.and_eq_true_iff.mp hin).1)]

/-- It goes into a free frame (09 R301), or waits for a victim (09 R304). -/
theorem execTierMapReply_spare (s : State) (tile f : Nat) (hasked : has tile s.tier.asked = true) (hframe : s.frameWith tile = none)
    (hwaits : s.fetchWaits tile = false) (htile : tile < 33554432) (hstate : (s.tdieOf (tile % 2)).state ≠ 3)
    (hspare : s.spareFrame [] = some f) : ∃ t, exec (.tierMapReply tile) s = .next t ∧ (look {} t.tier.frames f).tile = some tile ∧
      (look {} t.tier.frames f).filling = true ∧ (look {} t.tier.frames f).dirty = [] := by
  have hmay : s.mayFetch tile := ⟨htile, hframe, hwaits, hstate⟩
  refine ⟨_, execTierMapReply_fetches hasked hmay, ?_⟩
  rw [startFetch_spare (s := s.answered tile) false hmay hspare]
  exact fillFrame_frame tile f false _

theorem execTierMapReply_full (s : State) (tile : Nat) (hasked : has tile s.tier.asked = true) (hframe : s.frameWith tile = none)
    (hwaits : s.fetchWaits tile = false) (htile : tile < 33554432) (hstate : (s.tdieOf (tile % 2)).state ≠ 3)
    (hspare : s.spareFrame [] = none) : ∃ t, exec (.tierMapReply tile) s = .next t ∧
      t.tier.fetching = s.tier.fetching ++ [(tile, false)] ∧ t.mem = s.mem := by
  have hmay : s.mayFetch tile := ⟨htile, hframe, hwaits, hstate⟩
  obtain ⟨-, -, hmem, -, -⟩ := (chooseVictim_fetchStarts (s.answered tile)).rest
  refine ⟨_, execTierMapReply_fetches hasked hmay, ?_⟩
  rw [startFetch_full (s := s.answered tile) hmay hspare]
  exact ⟨congrArg (· ++ [(tile, false)]) (chooseVictim_fetching (s.answered tile)), hmem⟩

/-- The frame of a tile that has left is the next one's (09 R304). -/
theorem execFrameEvictionDone_frame (s : State) (tile frame : Nat) (pre : Bool) (r : List (Nat × Bool))
    (hfetching : s.tier.fetching = (tile, pre) :: r) (hevicting : (look {} s.tier.frames frame).evicting = true) :
    ∃ t, exec (.frameEvictionDone frame) s = .next t ∧ (look {} t.tier.frames frame).tile = some tile ∧
      (look {} t.tier.frames frame).filling = true ∧ (look {} t.tier.frames frame).dirty = [] ∧ t.tier.fetching = r := by
  obtain ⟨htile, hfilling, hdirty⟩ :=
    fillFrame_frame tile frame pre ((vacate frame s).withTier { (vacate frame s).tier with fetching := r })
  exact ⟨_, execFrameEvictionDone_fills hfetching hevicting, htile, hfilling, hdirty, rfl⟩

/-- The map holds the tile that has left no more. -/
theorem execFrameEvictionDone_drops (s : State) (tile old frame : Nat) (pre : Bool) (r : List (Nat × Bool))
    (hfetching : s.tier.fetching = (tile, pre) :: r) (hevicting : (look {} s.tier.frames frame).evicting = true)
    (hold : (look {} s.tier.frames frame).tile = some old) (hwf : wfTable 0 s.tier.tmap = true) :
    ∃ t, exec (.frameEvictionDone frame) s = .next t ∧ t.frameOf old = none :=
  ⟨_, execFrameEvictionDone_fills hfetching hevicting, vacate_frameOf hold hwf⟩

/-- Where no tile waits for a frame, an eviction ends without effect on its tile. -/
theorem execFrameEvictionDone_unwanted (s : State) (frame : Nat) (hfetching : s.tier.fetching = []) :
    ∃ t, exec (.frameEvictionDone frame) s = .next t ∧
      t.tier.frames = upd {} s.tier.frames frame (fun x => { x with evicting := false }) ∧ t.mem = s.mem := by
  refine ⟨_, rfl, ?_⟩
  rw [hfetching]
  exact ⟨rfl, rfl⟩

/-- The state in which a fetched tile is in its frame, before its accesses go on (09 R301, R302). -/
def State.fetched (s : State) (tile f : Nat) (bad : List Nat) : State :=
  let s1 := fetchTile tile f bad s
  let s2 := s1.withTier { s1.tier with frames := upd {} s1.tier.frames f (fun x => { x with filling := false }) }
  match s2.tier.wait.find? (fun p => tileOfAddr p.addr == tile) with
  | some p => prefetchAhead p.src tile s2
  | none => s2

/-- It differs from the one in which the bytes have come in the tier's frames and in what is fetched ahead alone. -/
theorem fetched_fetchStarts (s : State) (tile f : Nat) (bad : List Nat) : FetchStarts (fetchTile tile f bad s) (s.fetched tile f bad) := by
  unfold State.fetched
  extract_lets s1 _ s2
  have hfilled : FetchStarts s1 s2 := ⟨_, _, _, _, rfl⟩
  split
  · exact hfilled.trans (prefetchAhead_fetchStarts _ _ _)
  · exact hfilled

/-- A fetch that ends: the map holds the tile, what waited for it goes on, and memory and flash are as the fetch has left them (09 R301,
R307). -/
theorem execTierFetchDone_resident {s : State} {tile f : Nat} {fr : Frame} {bad : List Nat} (hbad : ∀ k ∈ bad, k < 16384)
    (hfind : s.tier.frames.find? (fun x => x.2.tile == some tile && x.2.filling) = some (f, fr)) (hidle : s.windowsIdle) :
    ∃ t, exec (.tierFetchDone tile bad) s = .next t ∧ t.frameOf tile = some f ∧ t.mem = (fetchTile tile f bad s).mem ∧
      t.tier.flash = (fetchTile tile f bad s).tier.flash ∧
      t.tier.wait = s.tier.wait.filter (fun p => tileOfAddr p.addr != tile) := by
  obtain ⟨hwait', hflash', hmem', hstack', -⟩ := (fetched_fetchStarts s tile f bad).rest
  obtain ⟨-, -, hfetchwait⟩ := fetchTile_brings tile f bad s
  have hstack := hstack'.trans ((fetchTile_keeps tile f bad s (Keeps.rfl' _ s) (Within.rfl' _)).same .stack)
  obtain ⟨hframe, hwait, hflash, hmem⟩ := tierGo_resident (tile := tile) (f := f) (hidle.of_stack_eq hstack)
  refine ⟨tierGo tile f (mapRoom (s.fetched tile f bad)), ?_, hframe, hmem.trans hmem', hflash.trans hflash', ?_⟩
  · show execTierFetchDone tile bad s = _
    unfold execTierFetchDone State.fetched
    rw [hfind, List.filter_eq_self.mpr (fun k hk => decide_eq_true (hbad k hk))] <;> rfl
  · rw [hwait, hwait', hfetchwait]

/-- A tile all of whose sectors pass brings its bytes as flash holds them (09 R307). -/
theorem execTierFetchDone_clean (s : State) (tile f : Nat) (fr : Frame)
    (hfind : s.tier.frames.find? (fun x => x.2.tile == some tile && x.2.filling) = some (f, fr))
    (hwords : ∀ c ∈ s.tier.flash.ckErr, c.1 / 16384 = tile → s.tier.flash.isPoison c.1 = true) (hidle : s.windowsIdle) :
    ∃ t, exec (.tierFetchDone tile []) s = .next t ∧ t.frameOf tile = some f ∧
      t.mem = s.mem.restoreAt (s.tier.flash.save (tile * 0x100000) 0x100000) (s.memc.frameBase + f * 0x100000) ∧
      t.tier.wait = s.tier.wait.filter (fun p => tileOfAddr p.addr != tile) := by
  have hnone : s.differing tile [] = [] := by
    refine List.filter_eq_nil_iff.mpr (fun k hk hdiffers => ?_)
    have hlow := List.mem_range.mp hk
    simp only [Bool.and_eq_true, Ram.ckBad, bne_iff_ne, Bool.not_eq_true'] at hdiffers
    obtain ⟨⟨-, hbad⟩, hsound⟩ := hdiffers
    have hpoison := hwords _ (mem_of_look_ne hbad) (show (tile * 16384 + k) / 16384 = tile by omega)
    exact absurd hpoison (by rw [hsound]; exact Bool.false_ne_true)
  obtain ⟨t, hexec, hframe, hmem, -, hwait⟩ := execTierFetchDone_resident (fun _ h => absurd h List.not_mem_nil) hfind hidle
  refine ⟨t, hexec, hframe, hmem.trans ?_, hwait⟩
  rw [(fetchTile_brings tile f [] s).1, hnone]
  rfl

/-- A sector that flash cannot recover is poisoned in the frame and in flash (09 R307, R312). -/
theorem execTierFetchDone_poisoned (s : State) (tile f k : Nat) (fr : Frame)
    (hfind : s.tier.frames.find? (fun x => x.2.tile == some tile && x.2.filling) = some (f, fr)) (hk : k < 16384)
    (hidle : s.windowsIdle) : ∃ t, exec (.tierFetchDone tile [k]) s = .next t ∧
      t.mem.isPoison ((s.memc.frameBase + f * 0x100000) / 64 + k) = true ∧ t.tier.flash.isPoison (tile * 16384 + k) = true ∧
      t.frameOf tile = some f := by
  obtain ⟨t, hexec, hframe, hmem, hflash, -⟩ :=
    execTierFetchDone_resident (bad := [k]) (fun j hj => by rwa [List.mem_singleton.mp hj]) hfind hidle
  obtain ⟨hfetchmem, hfetchflash, -⟩ := fetchTile_brings tile f [k] s
  refine ⟨t, hexec, ?_, ?_, hframe⟩
  · rw [hmem, hfetchmem]
    exact markArrived_isPoison _ _ _ (List.mem_singleton.mpr rfl)
  · rw [hflash, hfetchflash]
    exact markArrived_isPoison _ _ _ (List.mem_singleton.mpr rfl)

/-- Settles O27, row by row: a miss, its answer, a tile that leaves its frame, and a fetch. -/
theorem tierResidency : Obligations.TierResidency :=
  ⟨execTierMapMiss_asks, execTierMapReply_resident, execTierMapReply_spare, execTierMapReply_full, execFrameEvictionDone_frame,
    execFrameEvictionDone_drops, execFrameEvictionDone_unwanted, execTierFetchDone_clean, execTierFetchDone_poisoned⟩

end Sys2Proof.Machine
end

section
/-!
Dirty parts of the deep tier, and O28 (09 R303, R304, R306, R309, R319).
-/
namespace Sys2Proof.Machine

set_option Elab.async false

/-! ## Sets of numbers, and tables in canonical form -/

theorem has_iff {k : Nat} {l : List Nat} : has k l = true ↔ k ∈ l := by simp [has]

theorem mem_ins {j k : Nat} {l : List Nat} : j ∈ ins k l ↔ j = k ∨ j ∈ l := by
  induction l with
  | nil => simp [ins]
  | cons a r ih =>
    unfold ins
    split
    · simp
    · split
      · next e => simp [e]
      · simp only [List.mem_cons, ih]
        exact or_left_comm

/-- A listed value of a table in canonical form is what its key reads. -/
theorem look_of_mem {α : Type} [DecidableEq α] {d : α} {m : FMap α} {k lo : Nat} {v : α} (hwf : wfAbove d lo m = true) (h : (k, v) ∈ m) :
    look d m k = v ∧ lo ≤ k := by
  induction m generalizing lo with
  | nil => exact absurd h List.not_mem_nil
  | cons c r ih =>
    obtain ⟨i, w⟩ := c
    simp only [wfAbove, Bool.and_eq_true, decide_eq_true_eq] at hwf
    obtain ⟨⟨hlo, -⟩, hr⟩ := hwf
    rcases List.mem_cons.mp h with h | h
    · cases h
      exact ⟨if_pos rfl, hlo⟩
    · obtain ⟨hlook, hk⟩ := ih hr h
      exact ⟨(if_neg (by omega)).trans hlook, by omega⟩

/-- A key that is not listed reads as the default. -/
theorem look_of_notMem {α : Type} [DecidableEq α] {d : α} {m : FMap α} {k : Nat} (h : k ∉ m.map Prod.fst) : look d m k = d :=
  Decidable.byContradiction (fun hne => h (List.mem_map_of_mem (mem_of_look_ne hne)))

/-! ## Parts that are read out -/

theorem TierDie.readOut_ne (quiet : Bool) (n : Nat) (d : TierDie) : d.readOut quiet n ≠ {} := fun e => by
  have hmem : n ∈ (d.readOut quiet n).programming := mem_ins.mpr (.inl rfl)
  rw [e] at hmem
  exact absurd hmem List.not_mem_nil

/-- The die of a part that is read out has it to program. -/
theorem partToFlash_tdieOf (quiet : Bool) (tile part : Nat) (s : State) :
    (partToFlash quiet tile part s).tdieOf (tile % 2) = (s.tdieOf (tile % 2)).readOut quiet (tile * 16 + part) := by
  obtain ⟨fl, htier⟩ := partToFlash_tier quiet tile part s
  unfold State.tdieOf
  rw [htier]
  exact look_put_new _ _ _ (TierDie.readOut_ne _ _ _)

/-- Every part of a list that background work reads out is to be programmed as background work (09 R306, R321). -/
theorem foldl_partToFlash_programming (tile : Nat) (parts : List Nat) (s : State) : ∀ part ∈ parts,
    has (tile * 16 + part) ((parts.foldl (fun st p => partToFlash true tile p st) s).tdieOf (tile % 2)).programming = true ∧
    has (tile * 16 + part) ((parts.foldl (fun st p => partToFlash true tile p st) s).tdieOf (tile % 2)).quiet = true := by
  refine foldl_reaches (Q := fun _ => True) (P := fun part (t : State) =>
    has (tile * 16 + part) (t.tdieOf (tile % 2)).programming = true ∧ has (tile * 16 + part) (t.tdieOf (tile % 2)).quiet = true)
    (fun _ _ _ h => h) (fun t part _ _ => ?_) (fun t a _ part _ _ ha => ?_) trivial
  · rw [partToFlash_tdieOf]
    exact ⟨has_iff.mpr (mem_ins.mpr (.inl rfl)), has_iff.mpr (mem_ins.mpr (.inl rfl))⟩
  · rw [partToFlash_tdieOf]
    exact ⟨has_iff.mpr (mem_ins.mpr (.inr (has_iff.mp ha.1))), has_iff.mpr (mem_ins.mpr (.inr (has_iff.mp ha.2)))⟩

/-- Where every check word holds, a read finds nothing (08 R252). -/
theorem serveReads_clean {s : State} (a n : Nat) (hclean : s.mem.ckErr = []) : serveReads a n s = s := by
  refine foldl_stays (fun k _ => if_neg ?_)
  simp [State.staleWord, Ram.ckBad, hclean, look]

theorem partToFlash_mem {s : State} (quiet : Bool) (tile part : Nat) (hclean : s.mem.ckErr = []) :
    (partToFlash quiet tile part s).mem = s.mem := by
  unfold partToFlash
  dsimp only
  rw [serveReads_clean _ _ hclean]
  rfl

theorem foldl_partToFlash_frames (quiet : Bool) (tile : Nat) (parts : List Nat) (s : State) :
    (parts.foldl (fun st p => partToFlash quiet tile p st) s).tier.frames = s.tier.frames :=
  foldl_inv (fun t => t.tier.frames = s.tier.frames) _ (fun t part ht => (partToFlash_frames quiet tile part t).trans ht) parts s rfl

/-! ## A frame that is written back -/

/-- A frame whose dirty parts have been read out (09 R306). -/
def Frame.cleaned (x : Frame) : Frame := { x with dirty := [], opened := x.opened.filter (fun p => !has p x.dirty) }

/-- The state in which the dirty parts of a tile's frame have been read out. -/
def State.readOut (s : State) (quiet : Bool) (f tile : Nat) : State :=
  (look ({} : Frame) s.tier.frames f).dirty.foldl (fun st part => partToFlash quiet tile part st) s

/-- A frame with a tile is written back: its parts are read out, and then it is clean. -/
theorem cleanFrame_tile {s : State} (quiet : Bool) {f tile : Nat} (h : (look {} s.tier.frames f).tile = some tile) :
    cleanFrame quiet f s = (s.readOut quiet f tile).withTier { (s.readOut quiet f tile).tier with
      frames := upd {} (s.readOut quiet f tile).tier.frames f Frame.cleaned } := by
  unfold cleanFrame State.readOut
  dsimp only
  rw [h]
  rfl

theorem cleanFrame_noTile {s : State} (quiet : Bool) {f : Nat} (h : (look {} s.tier.frames f).tile = none) : cleanFrame quiet f s = s := by
  unfold cleanFrame
  dsimp only
  rw [h]

/-- The frames after one that holds a tile has been written back. -/
theorem cleanFrame_frames {s : State} (quiet : Bool) {f tile : Nat} (h : (look {} s.tier.frames f).tile = some tile) :
    (cleanFrame quiet f s).tier.frames = upd {} s.tier.frames f Frame.cleaned := by
  rw [cleanFrame_tile quiet h, State.withTier_tier]
  exact congrArg (fun m => upd {} m f Frame.cleaned) (foldl_partToFlash_frames ..)

/-- Such a frame reads clean. -/
theorem look_cleaned {m : FMap Frame} {f tile : Nat} (h : (look {} m f).tile = some tile) :
    look {} (upd {} m f Frame.cleaned) f = (look {} m f).cleaned :=
  look_put_new _ _ _ (fun e => by
    have htile : (look {} m f).cleaned.tile = none := congrArg Frame.tile e
    exact absurd (h.symm.trans htile) (Option.some_ne_none tile))

/-- Where every check word holds, a write-back leaves the memory. -/
theorem cleanFrame_mem {s : State} (quiet : Bool) (f : Nat) (hclean : s.mem.ckErr = []) : (cleanFrame quiet f s).mem = s.mem := by
  cases h : (look {} s.tier.frames f).tile with
  | none => rw [cleanFrame_noTile quiet h]
  | some tile =>
    rw [cleanFrame_tile quiet h, State.withTier_mem]
    exact foldl_inv (fun t => t.mem = s.mem) _
      (fun t part ht => (partToFlash_mem quiet tile part (by rw [ht]; exact hclean)).trans ht) _ s rfl

/-! ## A flush -/

/-- The frames are listed once each, and one without a tile has nothing dirty. -/
def State.framesSound (s : State) : Prop := wfTable {} s.tier.frames = true ∧
  ∀ k, (look ({} : Frame) s.tier.frames k).tile = none → (look ({} : Frame) s.tier.frames k).dirty = []

/-- A frame that is written back has nothing dirty, and no other gets dirty. -/
theorem cleanFrame_clean {s : State} (quiet : Bool) (f : Nat) (h : s.framesSound) : (cleanFrame quiet f s).framesSound ∧
    (look ({} : Frame) (cleanFrame quiet f s).tier.frames f).dirty = [] ∧
    (∀ k, (look ({} : Frame) s.tier.frames k).dirty = [] → (look ({} : Frame) (cleanFrame quiet f s).tier.frames k).dirty = []) := by
  obtain ⟨hwf, hempty⟩ := h
  cases htile : (look {} s.tier.frames f).tile with
  | none =>
    rw [cleanFrame_noTile quiet htile]
    exact ⟨⟨hwf, hempty⟩, hempty f htile, fun _ hk => hk⟩
  | some tile =>
    have hframes := cleanFrame_frames quiet htile
    have hhere : (look ({} : Frame) (cleanFrame quiet f s).tier.frames f).dirty = [] := by
      rw [hframes, look_cleaned htile]
      rfl
    have hother : ∀ k, k ≠ f → look ({} : Frame) (cleanFrame quiet f s).tier.frames k = look {} s.tier.frames k := fun k hk => by
      rw [hframes]
      exact look_put_ne _ _ _ _ (Ne.symm hk)
    refine ⟨⟨?_, fun k hk => ?_⟩, hhere, fun k hk => ?_⟩
    · rw [hframes]
      exact wfTable_upd _ _ _ hwf
    · by_cases e : k = f
      · rw [e]; exact hhere
      · rw [hother k e] at hk ⊢; exact hempty k hk
    · by_cases e : k = f
      · rw [e]; exact hhere
      · rw [hother k e]; exact hk

/-- After the frames of a list are written back those frames are clean, and one that was clean before is. -/
theorem foldl_cleanFrame_clean {s : State} (l : List Nat) (h : s.framesSound) :
    wfTable {} (l.foldl (fun st f => cleanFrame false f st) s).tier.frames = true ∧
    ∀ k, k ∈ l ∨ (look ({} : Frame) s.tier.frames k).dirty = [] →
      (look ({} : Frame) (l.foldl (fun st f => cleanFrame false f st) s).tier.frames k).dirty = [] := by
  refine ⟨(foldl_inv State.framesSound _ (fun t f ht => (cleanFrame_clean false f ht).1) l s h).1, fun k hk => ?_⟩
  rcases hk with hk | hk
  · exact foldl_reaches (Q := State.framesSound) (P := fun k (t : State) => (look ({} : Frame) t.tier.frames k).dirty = [])
      (fun t f _ ht => (cleanFrame_clean false f ht).1) (fun t f _ ht => (cleanFrame_clean false f ht).2.1)
      (fun t a _ f _ ht ha => (cleanFrame_clean false f ht).2.2 a ha) h k hk
  · exact (foldl_inv (fun t : State => t.framesSound ∧ (look ({} : Frame) t.tier.frames k).dirty = []) _
      (fun t f ht => ⟨(cleanFrame_clean false f ht.1).1, (cleanFrame_clean false f ht.1).2.2 k ht.2⟩) l s ⟨h, hk⟩).2

theorem sum_eq_zero_of_all_zero {l : List Nat} (h : ∀ n ∈ l, n = 0) : l.sum = 0 := by
  induction l with
  | nil => rfl
  | cons n r ih => rw [List.sum_cons, h n List.mem_cons_self, ih (fun k hk => h k (List.mem_cons_of_mem _ hk))]

/-- Once every listed frame has been written back, no part is dirty. -/
theorem flushStart_dirtyParts {s : State} (hidle : s.tier.flushing = false) (h : s.framesSound) : (flushStart s).dirtyParts = 0 := by
  obtain ⟨hwf, hclean⟩ := foldl_cleanFrame_clean (s.tier.frames.map Prod.fst) h
  unfold flushStart
  rw [if_neg (by rw [hidle]; exact Bool.false_ne_true)]
  refine sum_eq_zero_of_all_zero (fun n hn => ?_)
  obtain ⟨c, hc, rfl⟩ := List.mem_map.mp hn
  obtain ⟨hlook, -⟩ := look_of_mem hwf hc
  have hdirty : c.2.dirty = [] := by
    rw [← hlook]
    refine hclean c.1 ?_
    by_cases hlisted : c.1 ∈ s.tier.frames.map Prod.fst
    · exact .inl hlisted
    · exact .inr (by rw [look_of_notMem hlisted])
  rw [hdirty]
  rfl

theorem flushStart_mem {s : State} (hidle : s.tier.flushing = false) (hclean : s.mem.ckErr = []) : (flushStart s).mem = s.mem := by
  unfold flushStart
  rw [if_neg (by rw [hidle]; exact Bool.false_ne_true)]
  exact foldl_inv (fun t => t.mem = s.mem) _ (fun t f ht => (cleanFrame_mem false f (by rw [ht]; exact hclean)).trans ht) _ s rfl

theorem flushStart_flushing (s : State) : (flushStart s).tier.flushing = true := by
  unfold flushStart
  split
  · assumption
  · rfl

/-! ## A part that is recorded open -/

/-- Where no packet waits in the pool dies, none is taken up. -/
theorem poolsGo_idle {s : State} (hidle : ∀ d, d < 4 → (s.poolOf d).wait = []) : ∃ y, poolsGo s = s.withPool y := by
  have hretry : ∀ (d : Nat) (u : State), (u.poolOf d).wait = [] → poolRetry d u = u.updPool d (fun x => { x with wait := [] }) :=
    fun d u h => by unfold poolRetry; rw [h]; rfl
  have hall : ∀ (l : List Nat) (u : State), l.Nodup → (∀ d ∈ l, (u.poolOf d).wait = []) →
      ∃ y, l.foldl (fun st d => poolRetry d st) u = u.withPool y := by
    intro l
    induction l with
    | nil => exact fun u _ _ => ⟨u.pool, rfl⟩
    | cons d r ih =>
      intro u hnodup hwait
      obtain ⟨hd, hr⟩ := List.nodup_cons.mp hnodup
      rw [List.foldl_cons, hretry d u (hwait d List.mem_cons_self)]
      obtain ⟨y, hy⟩ := ih (u.updPool d (fun x => { x with wait := [] })) hr (fun k hk => by
        have hother : (u.updPool d (fun x => { x with wait := [] })).poolOf k = u.poolOf k :=
          look_put_ne _ _ _ _ (fun e => hd (e ▸ hk))
        rw [hother]
        exact hwait k (List.mem_cons_of_mem _ hk))
      exact ⟨y, hy⟩
  exact hall (List.range 4) s List.nodup_range (fun d hd => hidle d (List.mem_range.mp hd))

/-- The state in which a part is recorded open, by its die and in its frame (09 R303). -/
def State.partRecorded (s : State) (part : Nat) : State :=
  let s1 := s.updTdie (part / 16 % 2) (fun d => { d with openParts := ins part d.openParts })
  match s1.frameWith (part / 16) with
  | some f => s1.withTier { s1.tier with frames := upd {} s1.tier.frames f (fun x => { x with opened := ins (part % 16) x.opened }) }
  | none => s1

theorem partRecorded_eq (s : State) (part : Nat) : ∃ fr, s.partRecorded part = s.withTier { s.tier with
    frames := fr, die := upd {} s.tier.die (part / 16 % 2) (fun d => { d with openParts := ins part d.openParts }) } := by
  unfold State.partRecorded
  extract_lets s1
  split
  · exact ⟨_, rfl⟩
  · exact ⟨s.tier.frames, rfl⟩

/-- The answers that waited for the record go out, and the pool dies go on (09 R303). -/
theorem execPartOpenRecorded_eq (s : State) (part : Nat) : exec (.partOpenRecorded part) s =
    .next (poolsGo (((s.partRecorded part).tier.waitRec.filter (fun w => w.1 == part)).foldl (fun st w => send w.2 st)
      ((s.partRecorded part).withTier { (s.partRecorded part).tier with
        waitRec := (s.partRecorded part).tier.waitRec.filter (fun w => w.1 != part) }))) := rfl

/-- A part is recorded open, and the one answer that waited for that is on its way (09 R303). -/
theorem execPartOpenRecorded_acknowledges (s : State) (part : Nat) (q : Pkt) (hwait : s.tier.waitRec = [(part, q)])
    (hsrc : s.fenced q.src = false) (hdst : s.fenced q.dst = false) (hdropped : (q.dst, q.tid) ∉ s.hub.dropped)
    (hpools : ∀ d, d < 4 → (s.poolOf d).wait = []) : ∃ t, exec (.partOpenRecorded part) s = .next t ∧
      has part (t.tdieOf (part / 16 % 2)).openParts = true ∧ t.tier.waitRec = [] ∧ t.carries q ∧ t.mem = s.mem := by
  obtain ⟨fr, hrecorded⟩ := partRecorded_eq s part
  have hgo : [(part, q)].filter (fun w => w.1 == part) = [(part, q)] := by simp
  have hleft : [(part, q)].filter (fun w => w.1 != part) = [] := by simp
  have hexec := execPartOpenRecorded_eq s part
  rw [hrecorded, State.withTier_tier, hwait, hgo, hleft] at hexec
  generalize hu : State.withTier (s.withTier _) _ = u at hexec
  have hcarries : (send q u).carries q := by
    subst hu
    exact send_carries _ _ hsrc hdst (fun h => hdropped h.2)
  have hsent := send_keeps q u (Keeps.rfl' _ u) (Within.rfl' _)
  obtain ⟨y, hy⟩ := poolsGo_idle (s := send q u) (fun d hd => by
    unfold State.poolOf
    rw [hsent.part .pool (by decide)]
    subst hu
    exact hpools d hd)
  have htier := hsent.part .tier (by decide)
  have hmem := hsent.part .mem (by decide)
  rw [List.foldl_cons, List.foldl_nil, hy] at hexec
  refine ⟨_, hexec, ?_, ?_, (State.withPool_carries _ _ _).mpr hcarries, ?_⟩
  · have hopen : part ∈ ins part (s.tdieOf (part / 16 % 2)).openParts := mem_ins.mpr (.inl rfl)
    unfold State.tdieOf
    rw [State.withPool_tier, htier, ← hu, State.withTier_tier]
    dsimp only
    unfold upd
    rw [look_put_new _ _ _ (fun e => by
      rw [show ins part (s.tdieOf (part / 16 % 2)).openParts = [] from congrArg TierDie.openParts e] at hopen
      exact absurd hopen List.not_mem_nil)]
    exact has_iff.mpr hopen
  · rw [State.withPool_tier, htier, ← hu]
    rfl
  · rw [State.withPool_mem, hmem, ← hu]
    rfl

/-! ## The rows -/

/-- A part that has been read out counts as written once it has been programmed, and one that is not dirty again is open no more (09 R304,
R309, R321). -/
theorem execFlashProgramDone_counts (s : State) (part block : Nat) (hread : has part (s.tdieOf (part / 16 % 2)).programming = true)
    (hquiet : has part (s.tdieOf (part / 16 % 2)).quiet = false) (hgood : has block (s.tdieOf (part / 16 % 2)).retired = false)
    (hclean : s.dirtyNow part = false) : ∃ t, exec (.flashProgramDone part block) s = .next t ∧
      t.tier.written = (s.tier.written + 0x10000) % 2 ^ 64 ∧
      t.tier.die = upd {} s.tier.die (part / 16 % 2) (fun x =>
        { x with
            programming := del part x.programming, quiet := del part x.quiet, bytes := x.bytes + 0x10000,
            blockMap := put 0 x.blockMap part (block + 1), reads := put 0 x.reads block 0, openParts := del part x.openParts }) := by
  refine ⟨programPart part block s, rfl, ?_⟩
  unfold programPart
  dsimp only
  rw [if_pos (by rw [hread, hgood]; rfl), hquiet, hclean]
  simp only [Bool.false_eq_true, if_false]
  refine ⟨rfl, ?_⟩
  rw [State.updTdie, State.withTier_tier, State.withTier_tier]

/-- Beyond DIRTYMAX the first dirty frame is written back, as background work (09 R306, R321). -/
theorem execTierBackgroundWriteback_cleans (s : State) (f tile : Nat) (fr : Frame) (hmany : s.dirtyMax * 16384 < s.dirtyParts)
    (hfind : s.tier.frames.find? (fun x => !x.2.dirty.isEmpty) = some (f, fr)) (hlook : look {} s.tier.frames f = fr)
    (htile : fr.tile = some tile) : ∃ t, exec (.tierBackgroundWriteback) s = .next t ∧ (look {} t.tier.frames f).dirty = [] ∧
      (look {} t.tier.frames f).tile = some tile ∧
      (∀ part ∈ fr.dirty, has (tile * 16 + part) (t.tdieOf (tile % 2)).programming = true) ∧
      (∀ part ∈ fr.dirty, has (tile * 16 + part) (t.tdieOf (tile % 2)).quiet = true) ∧ (s.mem.ckErr = [] → t.mem = s.mem) := by
  subst hlook
  have hread := foldl_partToFlash_programming tile (look ({} : Frame) s.tier.frames f).dirty s
  refine ⟨cleanFrame true f s, ?_, ?_, ?_, fun part hp => ?_, fun part hp => ?_, cleanFrame_mem true f⟩
  · show execTierBackgroundWriteback s = _
    unfold execTierBackgroundWriteback
    rw [if_pos hmany, hfind]
  · rw [cleanFrame_frames true htile, look_cleaned htile]
    rfl
  · rw [cleanFrame_frames true htile, look_cleaned htile]
    exact htile
  · rw [cleanFrame_tile true htile]
    exact (hread part hp).1
  · rw [cleanFrame_tile true htile]
    exact (hread part hp).2

/-- Up to DIRTYMAX it waits. -/
theorem execTierBackgroundWriteback_waits (s : State) (hfew : s.dirtyParts ≤ s.dirtyMax * 16384) :
    ∃ t, exec (.tierBackgroundWriteback) s = .next t ∧ t = s :=
  ⟨_, rfl, if_neg (Nat.not_lt_of_le hfew)⟩

/-- A flush writes back every part that is dirty when it starts (09 R306, R319). -/
theorem execTierFlush_starts (s : State) (who : Agent) (hgate : s.hostGate who = true) (hwho : isPf0OrCore who = true)
    (hidle : s.tier.flushing = false) (hwf : wfTable {} s.tier.frames = true)
    (hempty : ∀ f ∈ s.tier.frames, f.2.tile = none → f.2.dirty = []) : ∃ t, exec (.tierFlush who) s = .next t ∧
      t.tier.flushing = true ∧ t.dirtyParts = 0 ∧ (s.mem.ckErr = [] → t.mem = s.mem) := by
  have hsound : s.framesSound := ⟨hwf, fun k hk => by
    by_cases hdefault : look ({} : Frame) s.tier.frames k = {}
    · rw [hdefault]
    · exact hempty _ (mem_of_look_ne hdefault) hk⟩
  exact ⟨flushStart s, congrArg Host.Outcome.next (pfWrite_performed hgate hwho _ _), flushStart_flushing s,
    flushStart_dirtyParts hidle hsound, flushStart_mem hidle⟩

/-- A flush ends once every part read out is programmed (09 R306, R319). -/
theorem execTierFlushDone_ends (s : State) (hflushing : s.tier.flushing = true) :
    ∃ t, exec (.tierFlushDone) s = .next t ∧ t.tier.flushing = false ∧ t.mem = s.mem := by
  refine ⟨_, rfl, ?_⟩
  rw [if_pos hflushing]
  exact ⟨rfl, (flushEnd_keeps s (Keeps.rfl' _ s) (Within.rfl' _)).same .mem⟩

/-- Settles O28, row by row: the record of an open part, a part that is programmed, background write-back, and a flush. -/
theorem tierWritebackAndFlush : Obligations.TierWritebackAndFlush :=
  ⟨execPartOpenRecorded_acknowledges, execFlashProgramDone_counts, execTierBackgroundWriteback_cleans,
    execTierBackgroundWriteback_waits, execTierFlush_starts, execTierFlushDone_ends⟩

end Sys2Proof.Machine
end

section
/-!
Pins, flash and the loss of a tier die, and O29 (09 R305, R309 to R314, R319 to R323).
-/
namespace Sys2Proof.Machine

set_option Elab.async false

/-! ## A change of a tier die -/

theorem State.updTdie_tier (s : State) (d : Nat) (f : TierDie → TierDie) :
    (s.updTdie d f).tier = { s.tier with die := upd {} s.tier.die d f } := rfl

/-- What a die becomes is told by the die it was. -/
theorem State.updTdie_congr {s : State} {d : Nat} {f g : TierDie → TierDie} (h : f (s.tdieOf d) = g (s.tdieOf d)) :
    s.updTdie d f = s.updTdie d g := by
  unfold State.updTdie upd
  rw [show f (look {} s.tier.die d) = _ from h]
  rfl

/-- A die that becomes no default one reads as it was changed. -/
theorem State.tdieOf_updTdie_same {s : State} {d : Nat} {f : TierDie → TierDie} (h : f (s.tdieOf d) ≠ {}) :
    (s.updTdie d f).tdieOf d = f (s.tdieOf d) := look_put_new _ _ _ h

/-! ## Blocks of flash -/

/-- The parts in a block are moved to another, and the block is erased (09 R309, R311). -/
def TierDie.moveBlock (a b : Nat) (d : TierDie) : TierDie :=
  { d with
      blockMap := d.blockMap.map (fun m => if m.2 == a + 1 then (m.1, b + 1) else m),
      erases := upd 0 d.erases a (fun n => n + 1), reads := put 0 (put 0 d.reads a 0) b 0 }

/-- A block is erased and written anew, and its reads are counted from 0 (09 R311). -/
def TierDie.rewriteBlock (b : Nat) (d : TierDie) : TierDie :=
  { d with reads := put 0 d.reads b 0, erases := upd 0 d.erases b (fun n => n + 1) }

/-- The parts of a block move to another that is not retired (09 R309, R311). -/
theorem execWearLevelling_moves (s : State) (die a b : Nat) (hgood : has b (s.tdieOf die).retired = false) (hne : a ≠ b) :
    ∃ t, exec (.wearLevelling die a b) s = .next t ∧
      t.tier = { s.tier with
        die := upd {} s.tier.die die (fun d => { d with
          blockMap := d.blockMap.map (fun m => if m.2 == a + 1 then (m.1, b + 1) else m),
          erases := upd 0 d.erases a (fun n => n + 1), reads := put 0 (put 0 d.reads a 0) b 0 }) } ∧
      t.mem = s.mem :=
  have hmoves : ¬ (has b (s.tdieOf die).retired || a == b) = true := by simp [hgood, hne]
  ⟨s.updTdie die (TierDie.moveBlock a b), congrArg Host.Outcome.next (State.updTdie_congr (if_neg hmoves)), rfl, rfl⟩

/-- A block that has been read 100,000 times is written anew (09 R311). -/
theorem execReadDisturbRelocate_rewrites (s : State) (die b : Nat) (hmany : 100000 ≤ look 0 (s.tdieOf die).reads b) :
    ∃ t, exec (.readDisturbRelocate die b) s = .next t ∧
      t.tier = { s.tier with
        die := upd {} s.tier.die die (fun d => { d with reads := put 0 d.reads b 0, erases := upd 0 d.erases b (fun n => n + 1) }) } ∧
      t.mem = s.mem :=
  ⟨s.updTdie die (TierDie.rewriteBlock b), congrArg Host.Outcome.next (State.updTdie_congr (if_pos hmany)), rfl, rfl⟩

/-- A block of the die is retired, and one of the spare area takes its place: `spare` is left of that area, and `state` is what the die
turns (09 R311, R313). -/
def TierDie.retire (block repl spare state : Nat) (d : TierDie) : TierDie :=
  { d with
      retired := ins block d.retired, blockMap := d.blockMap.map (fun m => if m.2 == block + 1 then (m.1, repl + 1) else m),
      spare := spare, state := state }

/-- The event on the spare area that falls to 10, and the one on the die that turns read-only (09 R313). -/
theorem execBadBlockRetire_eq {s : State} {die b repl : Nat} (spare : Nat) (hgood : has repl (s.tdieOf die).retired = false)
    (hne : b ≠ repl) : exec (.badBlockRetire die b repl spare) s =
      (let ro := decide (spare ≤ 2) && decide (2 < (s.tdieOf die).spare) && (s.tdieOf die).state == 1
       let s1 := s.updTdie die (fun d => d.retire b repl spare (if ro then 2 else d.state))
       let s2 := if spare ≤ 10 && 10 < (s.tdieOf die).spare then post (ev 0x13 (some (60 + die)) spare []) s1 else s1
       .next (if ro then post (ev 0x13 (some (60 + die)) (spare + 2 ^ 31) []) s2 else s2)) :=
  if_neg (by simp [hgood, hne])

/-- What is posted after a change of a tier die is reported, and leaves the die as it was changed. -/
theorem post_updTdie (s : State) (die : Nat) (f : TierDie → TierDie) (e : EvItem) (he : ringCode e.code = false) :
    (post e (s.updTdie die f)).tier.die = upd {} s.tier.die die f ∧ s.reports (post e (s.updTdie die f)) e := by
  have hchanged : Keeps [.tier] s (s.updTdie die f) := State.updTdie_keeps s die f (Keeps.rfl' _ s) (Within.rfl' _)
  have hposted := post_keeps e (s.updTdie die f) (Keeps.rfl' _ _) (Within.rfl' _)
  exact ⟨congrArg Tier.die (hposted.same .tier), hchanged.reports (post_reports e _ he)⟩

/-- The spare area falls to 10 or below: an event tells (09 R313). -/
theorem execBadBlockRetire_warns (s : State) (die b repl spare : Nat) (hgood : has repl (s.tdieOf die).retired = false) (hne : b ≠ repl)
    (hlow : spare ≤ 10) (hleft : 2 < spare) (hbefore : 10 < (s.tdieOf die).spare) :
    ∃ t, exec (.badBlockRetire die b repl spare) s = .next t ∧
      t.tier.die = upd {} s.tier.die die (fun d => { d with
        retired := ins b d.retired, blockMap := d.blockMap.map (fun m => if m.2 == b + 1 then (m.1, repl + 1) else m),
        spare := spare }) ∧
      s.reports t (ev 0x13 (some (60 + die)) spare []) := by
  have hserves : (decide (spare ≤ 2) && decide (2 < (s.tdieOf die).spare) && (s.tdieOf die).state == 1) = false := by
    simp [Nat.not_le_of_lt hleft]
  refine ⟨_, execBadBlockRetire_eq spare hgood hne, ?_⟩
  rw [hserves, if_neg Bool.false_ne_true, if_pos (by simp [hlow, hbefore])]
  exact post_updTdie s die _ _ rfl

/-- The spare area falls to 2 or below: the die turns read-only, and an event tells (09 R313). -/
theorem execBadBlockRetire_readOnly (s : State) (die b repl spare : Nat) (hgood : has repl (s.tdieOf die).retired = false)
    (hne : b ≠ repl) (hlow : spare ≤ 2) (hbefore : 2 < (s.tdieOf die).spare) (hwarned : (s.tdieOf die).spare ≤ 10)
    (hstate : (s.tdieOf die).state = 1) : ∃ t, exec (.badBlockRetire die b repl spare) s = .next t ∧ (t.tdieOf die).state = 2 ∧
      (t.tdieOf die).spare = spare ∧ s.reports t (ev 0x13 (some (60 + die)) (spare + 2 ^ 31) []) := by
  have hturns : (decide (spare ≤ 2) && decide (2 < (s.tdieOf die).spare) && (s.tdieOf die).state == 1) = true := by
    simp [hlow, hbefore, hstate]
  refine ⟨_, execBadBlockRetire_eq spare hgood hne, ?_⟩
  rw [hturns, if_pos rfl, if_neg (by simp [Nat.not_lt_of_le hwarned])]
  obtain ⟨hdie, hreported⟩ := post_updTdie s die (fun d => d.retire b repl spare 2) (ev 0x13 (some (60 + die)) (spare + 2 ^ 31) []) rfl
  have hread : look {} (upd {} s.tier.die die (fun d => d.retire b repl spare 2)) die = (s.tdieOf die).retire b repl spare 2 :=
    State.tdieOf_updTdie_same (fun e => by simpa [TierDie.retire] using congrArg TierDie.state e)
  have hafter := (congrArg (fun m => look ({} : TierDie) m die) hdie).trans hread
  exact ⟨congrArg TierDie.state hafter, congrArg TierDie.spare hafter, hreported⟩

/-- TIER_DIEd is read, and its count of errors starts again (09 R320). -/
theorem execTierDieRead_clears (s : State) (who : Agent) (die : Nat) (hgate : s.hostGate who = true) :
    ∃ t, exec (.tierDieRead who die) s = .next t ∧ t.replies = s.replies ++ [⟨who, 0x0700010 + 8 * die, s.tierDieWord die, false⟩] ∧
      t.tier.die = upd {} s.tier.die die (fun d => { d with uncorr := 0 }) :=
  ⟨_, congrArg Host.Outcome.next (if_pos hgate), rfl, rfl⟩

/-! ## Runtime commands that go on -/

theorem request_grow (p : Pkt) (use : Use) (s : State) : SendersGrow s (request p use s) := by
  unfold request
  split
  · exact withHub_grow s _
  · exact issue_grow p use s

theorem appendRow_grow (core stack tag a : Nat) (poison : Bool) (n : Nat) (bs : List Byte) (s : State) :
    SendersGrow s (appendRow core stack tag a poison n bs s) := by
  induction n generalizing a bs s with
  | zero => exact .refl s
  | succ n ih => exact (request_grow _ _ s).trans (ih _ _ _)

theorem updWindow_keepsOnly (core stack : Nat) (f : Window → Window) (s : State) : Keeps [.stack] s (updWindow core stack f s) :=
  updWindow_keeps core stack f s (Keeps.rfl' _ s) (Within.rfl' _)

theorem appendStart_grow (core stack tag : Nat) (w : Window) (s : State) : SendersGrow s (appendStart core stack tag w s) := by
  unfold appendStart
  split
  · extract_lets ctr src count n bad st s1 s2 dst
    have hread : SendersGrow s (serveReads src count (serveReads ctr 8 s)) :=
      (serveReads_keeps _ _ _ (serveReads_keeps _ _ s (Keeps.rfl' _ s) (Within.rfl' _)) (Within.rfl' _)).grow
    have hcounted : SendersGrow (serveReads src count (serveReads ctr 8 s)) s1 :=
      (cohWrite_keeps _ _ _ (Keeps.rfl' _ _) (Within.rfl' _)).grow
    have h2 : SendersGrow s s2 := (hread.trans hcounted).trans (updWindow_keepsOnly _ _ _ s1).grow
    split
    · exact h2
    · exact h2.trans (appendRow_grow _ _ _ _ _ _ _ s2)
  · exact (updWindow_keepsOnly ..).grow

/-- A runtime command that goes on leaves the fences (08 R276, R277). -/
theorem windowGo_grow (core stack : Nat) (s : State) : SendersGrow s (windowGo core stack s) := by
  unfold windowGo
  extract_lets w s1
  have h1 : SendersGrow s s1 := (updWindow_keepsOnly core stack _ s).grow
  split
  · exact (updWindow_keepsOnly ..).grow
  · split
    · split
      extract_lets s2
      refine h1.trans (SendersGrow.trans (b := s2) ?_ (updWindow_keepsOnly ..).grow)
      unfold s2
      split
      · exact (serveReads_keeps _ _ s1 (Keeps.rfl' _ s1) (Within.rfl' _)).grow
      · exact .refl s1
    · exact h1.trans (appendStart_grow _ _ _ _ s1)
    · exact h1.trans (updWindow_keepsOnly ..).grow

theorem windowsGo_grow (s : State) : SendersGrow s (windowsGo s) :=
  .foldl _ (fun t k => .foldl _ (fun u c => windowGo_grow c k u) _ t) _ s

theorem cohWrite_tierStores (a : Nat) (bs : List Byte) (s : State) : TierStores s (cohWrite a bs s) := by
  unfold cohWrite
  extract_lets s1
  have h1 : TierStores s s1 := .foldl (fun t n => by
    split
    extract_lets lo hi whole new t0 t1
    have hreported : TierStores t t0 := by
      unfold t0
      split
      · exact .of_keeps (evCheckword_keeps _ _ _ _ t (Keeps.rfl' _ t) (Within.rfl' _))
      · exact .refl t
    exact ((hreported.trans (dropCopies_tierStores n t0)).trans (touchFrame_tierStores _ _ _)).trans (storeSector_tierStores ..)) _ s
  exact h1.trans (.of_keeps (notifyRings_keeps _ s1 (Keeps.rfl' _ s1) (Within.rfl' _)))

theorem appendStart_tierStores (core stack tag : Nat) (w : Window) (s : State) : TierStores s (appendStart core stack tag w s) := by
  unfold appendStart
  split
  · extract_lets ctr src count n bad st s1 s2 dst
    have hread : TierStores s (serveReads src count (serveReads ctr 8 s)) :=
      .of_keeps (serveReads_keeps _ _ _ (serveReads_keeps _ _ s (Keeps.rfl' _ s) (Within.rfl' _)) (Within.rfl' _))
    have h1 : TierStores s s1 := hread.trans (cohWrite_tierStores ..)
    have h2 : TierStores s s2 := h1.trans (.of_keeps (updWindow_keepsOnly _ _ _ s1))
    split
    · exact h2
    · exact h2.trans (.of_keeps (appendRow_keeps _ _ _ _ _ _ _ s2 (Keeps.rfl' _ s2) (Within.rfl' _)))
  · exact .of_keeps (updWindow_keepsOnly ..)

/-- A runtime command that goes on changes of the tier no more than what it stores (08 R276, R277). -/
theorem windowGo_tierStores (core stack : Nat) (s : State) : TierStores s (windowGo core stack s) := by
  unfold windowGo
  extract_lets w s1
  have h1 : TierStores s s1 := .of_keeps (updWindow_keepsOnly core stack _ s)
  split
  · exact .of_keeps (updWindow_keepsOnly ..)
  · split
    · split
      extract_lets s2
      refine h1.trans (TierStores.trans (t := s2) ?_ (.of_keeps (updWindow_keepsOnly ..)))
      unfold s2
      split
      · exact .of_keeps (serveReads_keeps _ _ s1 (Keeps.rfl' _ s1) (Within.rfl' _))
      · exact .refl s1
    · exact h1.trans (appendStart_tierStores ..)
    · exact h1.trans (.of_keeps (updWindow_keepsOnly ..))

theorem windowsGo_tierStores (s : State) : TierStores s (windowsGo s) :=
  .foldl (fun t k => .foldl (fun u c => windowGo_tierStores c k u) _ t) _ s

/-! ## A tier die that is lost -/

theorem postAll_tierStores {α : Type} (e : α → EvItem) (l : List α) (s : State) : TierStores s (l.foldl (fun st a => post (e a) st) s) :=
  .foldl (fun t a => .of_keeps (post_keeps (e a) t (Keeps.rfl' _ t) (Within.rfl' _))) l s

theorem dropAll_tierStores (first : Nat) (l : List Nat) (s : State) :
    TierStores s (l.foldl (fun st k => dropCopies (first + k) st) s) := .foldl (fun t k => dropCopies_tierStores (first + k) t) l s

theorem freeFrame_die (tile f : Nat) (s : State) : (freeFrame tile f s).tier.die = s.tier.die := rfl
theorem notResident_die (tile : Nat) (s : State) : (notResident tile s).tier.die = s.tier.die := rfl

/-- A frame that is lost leaves the tier's dies (09 R314). -/
theorem loseFrame_die (f : Nat) (s : State) : (loseFrame f s).tier.die = s.tier.die := by
  unfold loseFrame
  extract_lets fr
  split
  · rfl
  · next tile _ =>
    rw [(postAll_tierStores _ fr.dirty _).rest.1, freeFrame_die, notResident_die, (dropAll_tierStores _ (List.range 16384) s).rest.1]

/-- A tier die that is lost reads failed, is fenced, and no access waits for a tile of its own (09 R314; 02 R59; 16 R570). -/
theorem execTierDieFailure_fails (s : State) (die : Nat) (hdie : die < 2) (hstate : (s.tdieOf die).state ≠ 3) :
    ∃ t, exec (.tierDieFailure die) s = .next t ∧ (t.tdieOf die).state = 3 ∧ t.fenced (60 + die) = true ∧
      look 0 t.glb.site (60 + die) = 3 ∧ (∀ p ∈ t.tier.wait, tileOfAddr p.addr % 2 ≠ die) := by
  refine ⟨tierFails die 4 s, rfl, ?_⟩
  unfold tierFails
  rw [if_pos (by simp [hdie, hstate])]
  extract_lets mine s1 s2 stuck _ s3
  have h1 : (s1.tdieOf die).state = 3 :=
    congrArg TierDie.state (State.tdieOf_updTdie_same (fun e => by simpa using congrArg TierDie.state e))
  have h2 : s2.tier.die = s1.tier.die :=
    foldl_inv (fun t => t.tier.die = s1.tier.die) _ (fun t f ht => (loseFrame_die f.1 t).trans ht) mine s1 rfl
  generalize hu : stuck.foldl (fun st p => refuseAs (60 + die) p 0x04 st) s3 = u
  have h3 : u.tier = s3.tier := hu ▸ (foldl_keeps _ (fun t p ht => refuseAs_keeps (60 + die) p 0x04 t ht (Within.rfl' _)) stuck s3
    (Keeps.rfl' _ s3)).same .tier
  obtain ⟨hfenced, hsite⟩ := dieFailed_fenced_site (port := 60 + die) 4 u (by omega)
  have h4 : (dieFailed (60 + die) 4 u).tier = s3.tier := ((dieFailed_keeps _ _ u (Keeps.rfl' _ u) (Within.rfl' _)).same .tier).trans h3
  generalize dieFailed (60 + die) 4 u = v at hfenced hsite h4
  obtain ⟨htdie, -, hwait⟩ := (windowsGo_tierStores v).rest
  refine ⟨?_, ?_, ?_, fun p hp => ?_⟩
  · unfold State.tdieOf at h1 ⊢
    rw [htdie, h4, show s3.tier.die = _ from h2, h1]
  · rw [(windowsGo_grow v).fenced, hfenced]
  · rw [(windowsGo_keeps v (Keeps.rfl' _ v) (Within.rfl' _)).same .glb, hsite]
  · rw [hwait, h4] at hp
    simpa using (List.mem_filter.mp hp).2

/-! ## The frames of a pinned range -/

theorem mem_of_mem_put {α : Type} [DecidableEq α] {d : α} {m : FMap α} {k : Nat} {v : α} {x : Nat × α} (h : x ∈ put d m k v) :
    x = (k, v) ∨ x ∈ m := by
  induction m with
  | nil =>
    unfold put at h
    split at h
    · exact absurd h List.not_mem_nil
    · exact .inl (List.mem_singleton.mp h)
  | cons c r ih =>
    obtain ⟨j, w⟩ := c
    unfold put at h
    split at h
    · split at h
      · exact .inr h
      · exact List.mem_cons.mp h
    · split at h
      · split at h
        · exact .inr (List.mem_cons_of_mem _ h)
        · exact (List.mem_cons.mp h).imp_right (List.mem_cons_of_mem _)
      · rcases List.mem_cons.mp h with rfl | hrest
        · exact .inr List.mem_cons_self
        · exact (ih hrest).imp_right (List.mem_cons_of_mem _)

/-- A frame is pinned where it holds a tile of the range (09 R305). -/
def Frame.pinnedIn (first count : Nat) (f : Frame) : Prop := ∀ k, f.tile = some k → first ≤ k → k < first + count → f.pinned = true

/-- Every frame that holds a tile of the range is pinned (09 R305). -/
def State.rangePinned (s : State) (first count : Nat) : Prop := ∀ f ∈ s.tier.frames, f.2.pinnedIn first count

section
variable {first count : Nat} {s : State}

theorem pinFrames_rangePinned (first count : Nat) (s : State) : (pinFrames first count true s).rangePinned first count := by
  intro f hf k htile hlow hhigh
  obtain ⟨g, -, rfl⟩ := List.mem_map.mp hf
  cases hg : g.2.tile with
  | none =>
    rw [hg] at htile
    exact absurd (hg.symm.trans htile) (by simp)
  | some t =>
    rw [hg] at htile
    dsimp only at htile ⊢
    split at htile
    · next hin => rw [if_pos hin]
    · next hout =>
      obtain rfl : t = k := Option.some.inj (hg.symm.trans htile)
      exact absurd (by simp [hlow, hhigh]) hout

theorem State.rangePinned.frame (h : s.rangePinned first count) (f : Nat) : (look {} s.tier.frames f).pinnedIn first count := by
  by_cases hdefault : look ({} : Frame) s.tier.frames f = {}
  · rw [hdefault]
    exact fun _ htile => nomatch htile
  · exact h _ (mem_of_look_ne hdefault)

theorem State.rangePinned.put {t : State} (h : s.rangePinned first count) {f : Nat} {fr : Frame} (hfr : fr.pinnedIn first count)
    (ht : t.tier.frames = put {} s.tier.frames f fr) : t.rangePinned first count := by
  intro x hx
  rw [ht] at hx
  rcases mem_of_mem_put hx with rfl | hold
  · exact hfr
  · exact h x hold

/-- The sweep that looks for a victim unpins none (09 R304). -/
theorem sweep_rangePinned (n f : Nat) (h : s.rangePinned first count) : (sweep n f s).2.rangePinned first count := by
  induction n generalizing f s with
  | zero => exact h
  | succ n ih =>
    unfold sweep
    dsimp only
    split
    · exact ih _ h
    · split
      · exact ih _ (h.put (t := s.withTier _) (fr := { look {} s.tier.frames f with refbit := false }) (h.frame f) rfl)
      · exact h

theorem chooseVictim_rangePinned (h : s.rangePinned first count) : (chooseVictim s).2.rangePinned first count := by
  have hsweep := sweep_rangePinned (2 * s.memc.frameCount) s.tier.sweep h
  unfold chooseVictim
  split
  · next hs => rw [hs] at hsweep; exact hsweep
  · next f u hs =>
    rw [hs] at hsweep
    exact hsweep.put (t := u.withTier _) (fr := { look {} u.tier.frames f with evicting := true }) (hsweep.frame f) rfl

/-! ## A valid entry -/

/-- Entry n is VALID with its range: TIER_PINn reads so (09 R323). -/
def State.pinEntry (s : State) (n first count : Nat) : Prop := s.reg (tierPin n) = BitVec.ofNat 64 (2 ^ 63 + count * 2 ^ 25 + first)

/-- The fields of a valid entry (09 R323). -/
theorem State.pinEntry.fields {n : Nat} (h : s.pinEntry n first count) (hfirst : first < 2 ^ 25) (hcount : count < 2 ^ 25) :
    bitOf (s.reg (tierPin n)).toNat 63 = true ∧ s.regFld (tierPin n) 24 0 = first ∧ s.regFld (tierPin n) 49 25 = count := by
  have hnat : (s.reg (tierPin n)).toNat = 2 ^ 63 + count * 2 ^ 25 + first := by
    rw [show s.reg (tierPin n) = _ from h, BitVec.toNat_ofNat, Nat.mod_eq_of_lt (by omega)]
  unfold State.regFld fld
  rw [hnat]
  unfold bitOf bitsOf
  simp only [Nat.shiftRight_eq_div_pow, beq_iff_eq]
  omega

/-- A frame that a tile of the range is fetched into is pinned (09 R305). -/
theorem fillFrame_rangePinned {n : Nat} (hn : n < 64) (hentry : s.pinEntry n first count) (hfirst : first < 2 ^ 25)
    (hcount : count < 2 ^ 25) (tile f : Nat) (pre : Bool) (h : s.rangePinned first count) :
    (fillFrame tile f pre s).rangePinned first count := by
  obtain ⟨hvalid, hlow, hlen⟩ := hentry.fields hfirst hcount
  unfold fillFrame
  extract_lets pin fr
  refine h.put (t := s.withTier _) (fr := fr) (fun k htile hk hk' => ?_) rfl
  obtain rfl : tile = k := Option.some.inj htile
  exact List.any_eq_true.mpr ⟨n, List.mem_range.mpr hn, by simp [hvalid, hlow, hlen, hk, hk']⟩

theorem startFetch_rangePinned {n : Nat} (hn : n < 64) (hentry : s.pinEntry n first count) (hfirst : first < 2 ^ 25)
    (hcount : count < 2 ^ 25) (tile : Nat) (pre : Bool) (h : s.rangePinned first count) :
    (startFetch tile pre s).rangePinned first count := by
  have hvictim := chooseVictim_rangePinned h
  unfold startFetch
  split
  · exact h
  · split
    · exact fillFrame_rangePinned hn hentry hfirst hcount _ _ _ h
    · split
      next found u hu =>
      rw [hu] at hvictim
      split
      · exact hvictim
      · exact hvictim

/-- An entry stays through the fetches of its tiles. -/
theorem State.pinEntry.of_regs_eq {t : State} {n : Nat} (h : s.pinEntry n first count) (e : t.regs = s.regs) : t.pinEntry n first count := by
  unfold State.pinEntry State.reg at h ⊢
  rw [e, h]

end

/-- The reset value of TIER_PINn is 0 (09 R323). -/
theorem regReset_tierPin {n : Nat} (hn : n < 64) : regReset (tierPin n) = 0#64 := by
  have hall : ∀ n ∈ List.range 64, regReset (tierPin n) = 0#64 := by decide
  exact hall n (List.mem_range.mpr hn)

/-- An entry that is written VALID reads so. -/
theorem setReg_pinEntry {s : State} {n first count : Nat} (hn : n < 64) (hfirst : first < 2 ^ 25) (hcount : count < 2 ^ 25) :
    (s.setReg (tierPin n) (BitVec.ofNat 64 (2 ^ 63 + count * 2 ^ 25 + first))).pinEntry n first count := by
  refine look_put_new _ _ _ (fun e => ?_)
  rw [regReset_tierPin hn] at e
  have hzero := congrArg BitVec.toNat e
  rw [BitVec.toNat_ofNat, Nat.mod_eq_of_lt (by omega)] at hzero
  simp at hzero

/-- The fetches of an entry's tiles leave the entry, and every frame of its range pinned (09 R305). -/
theorem fetchRange_pinned {n first count : Nat} (hn : n < 64) (hfirst : first < 2 ^ 25) (hcount : count < 2 ^ 25) (l : List Nat)
    {s : State} (hentry : s.pinEntry n first count) (h : s.rangePinned first count) :
    (l.foldl (fun st i => startFetch (first + i) false st) s).pinEntry n first count ∧
      (l.foldl (fun st i => startFetch (first + i) false st) s).rangePinned first count :=
  foldl_inv (fun t => t.pinEntry n first count ∧ t.rangePinned first count) _ (fun t _ ⟨hentry, h⟩ =>
    ⟨hentry.of_regs_eq (startFetch_fetchStarts _ _ t).rest.2.2.2.2, startFetch_rangePinned hn hentry hfirst hcount _ _ h⟩) l s ⟨hentry, h⟩

/-! ## The rows of the pins -/

/-- The word of an entry that is not VALID (09 R323). -/
theorem pinWord_eq {first count : Nat} (hfirst : first < 2 ^ 25) (hcount : count < 2 ^ 25) :
    at_ (count % 2 ^ 25 % 2 ^ 25) 25 + first % 2 ^ 25 % 2 ^ 25 = count * 2 ^ 25 + first := by
  unfold at_
  rw [Nat.shiftLeft_eq]
  omega

theorem execTierPinSet_performed {s : State} {who : Agent} {n : Nat} (first count : Nat) (hn : n < 64) (hgate : s.hostGate who = true)
    (hwho : isPf0OrCore who = true) :
    exec (.tierPinSet who n first count) s = .next (pinSet who n (first % 2 ^ 25) (count % 2 ^ 25) s) := by
  show Host.Outcome.next (if n < 64 then _ else s) = _
  rw [if_pos hn, pfWrite_performed hgate hwho]

/-- A range of up to half of the frames is fetched and pinned (09 R305, R323). -/
theorem execTierPinSet_pins (s : State) (who : Agent) (n first count : Nat) (hn : n < 64) (hfirst : first < 2 ^ 25)
    (hcount : count < 2 ^ 25) (hfits : 2 * count ≤ s.memc.frameCount) (hgate : s.hostGate who = true) (hwho : isPf0OrCore who = true) :
    ∃ t, exec (.tierPinSet who n first count) s = .next t ∧ t.reg (tierPin n) = BitVec.ofNat 64 (2 ^ 63 + count * 2 ^ 25 + first) ∧
      (∀ f ∈ t.tier.frames, ∀ k, f.2.tile = some k → first ≤ k → k < first + count → f.2.pinned = true) := by
  refine ⟨_, execTierPinSet_performed first count hn hgate hwho, ?_⟩
  unfold pinSet
  extract_lets old v s1 _ s2
  have hmemc : old.memc = s.memc := by
    unfold old
    split
    · exact (pinClear_keeps n s (Keeps.rfl' _ s) (Within.rfl' _)).same .memc
    · rfl
  have hword : v + 2 ^ 63 = 2 ^ 63 + count * 2 ^ 25 + first := by
    rw [show v = _ from pinWord_eq hfirst hcount, Nat.add_comm, Nat.add_assoc]
  have hentry : s1.pinEntry n first count := by
    unfold s1
    rw [hword]
    exact setReg_pinEntry hn hfirst hcount
  rw [hmemc, Nat.mod_eq_of_lt hfirst, Nat.mod_eq_of_lt hcount, if_neg (Nat.not_lt_of_le hfits)]
  exact fetchRange_pinned hn hfirst hcount _ (s := pinFrames first count true s2) hentry (pinFrames_rangePinned first count s2)

/-- A range beyond half of the frames is refused with an event: VALID stays 0 (09 R305). -/
theorem execTierPinSet_refuses (s : State) (who : Agent) (n first count : Nat) (hn : n < 64) (hfirst : first < 2 ^ 25)
    (hcount : count < 2 ^ 25) (hbeyond : s.memc.frameCount < 2 * count) (hfree : bitOf (s.reg (tierPin n)).toNat 63 = false)
    (hgate : s.hostGate who = true) (hwho : isPf0OrCore who = true) : ∃ t, exec (.tierPinSet who n first count) s = .next t ∧
      t.regs = (s.setReg (tierPin n) (BitVec.ofNat 64 (count * 2 ^ 25 + first))).regs ∧
      s.reports t (ev 0x80 none (whoArg who) [tierPin n]) ∧ t.tier = s.tier := by
  refine ⟨_, execTierPinSet_performed first count hn hgate hwho, ?_⟩
  have hctl : (s.setReg (tierPin n) (BitVec.ofNat 64 (count * 2 ^ 25 + first))).reg oEvtCtl = s.reg oEvtCtl :=
    s.reg_setReg_ne _ _ _ (by unfold oEvtCtl tierPin; omega)
  unfold pinSet
  extract_lets old v s1 _ s2
  have hold : old = s := if_neg (by rw [hfree]; exact Bool.false_ne_true)
  rw [hold, show v = _ from pinWord_eq hfirst hcount, if_pos (by rw [Nat.mod_eq_of_lt hcount]; exact hbeyond)]
  generalize hu : s.setReg (tierPin n) (BitVec.ofNat 64 (count * 2 ^ 25 + first)) = u at hctl
  have hposted := post_keeps (ev 0x80 none (whoArg who) [tierPin n]) u (Keeps.rfl' _ u) (Within.rfl' _)
  have hreported := post_reports (ev 0x80 none (whoArg who) [tierPin n]) u rfl
  refine ⟨hposted.same .regs, ?_, (hposted.same .tier).trans (by rw [← hu]; rfl)⟩
  unfold State.reports State.regFld at hreported ⊢
  rw [hctl] at hreported
  rw [← hu] at hreported ⊢
  exact hreported

/-- An entry that is cleared: its VALID and its RESIDENT read 0 (09 R305, R323). -/
theorem execTierPinClear_clears (s : State) (who : Agent) (n : Nat) (hn : n < 64) (hgate : s.hostGate who = true)
    (hwho : isPf0OrCore who = true) : ∃ t, exec (.tierPinClear who n) s = .next t ∧
      t.regs = (s.setReg (tierPin n) (BitVec.ofNat 64 ((s.reg (tierPin n)).toNat % 2 ^ 63))).regs ∧
      t.tier.resident = put false s.tier.resident n false := by
  have hrepin : ∀ u : State, (repin u).regs = u.regs ∧ (repin u).tier.resident = u.tier.resident := fun u =>
    foldl_inv (fun t => t.regs = u.regs ∧ t.tier.resident = u.tier.resident) _ (fun t n ht => by
      split
      · exact ht
      · exact ht) _ u ⟨rfl, rfl⟩
  refine ⟨pinClear n s, ?_, hrepin _⟩
  show Host.Outcome.next (if n < 64 then _ else s) = _
  rw [if_pos hn, pfWrite_performed hgate hwho]

/-- Every tile of a valid entry is in place: its RESIDENT reads 1 (09 R305, R323). -/
theorem execTierPinResident_reads (s : State) (n : Nat) (hvalid : bitOf (s.reg (tierPin n)).toNat 63 = true)
    (hplace : ∀ i, i < (pinRange (s.reg (tierPin n)).toNat).2 → s.tier.frames.any (fun f =>
      f.2.tile == some ((pinRange (s.reg (tierPin n)).toNat).1 + i) && !f.2.filling) = true) :
    ∃ t, exec (.tierPinResident n) s = .next t ∧ look false t.tier.resident n = true := by
  have hall : (List.range (pinRange (s.reg (tierPin n)).toNat).2).all (fun i => s.tier.frames.any (fun f =>
      f.2.tile == some ((pinRange (s.reg (tierPin n)).toNat).1 + i) && !f.2.filling)) = true :=
    List.all_eq_true.mpr (fun i hi => hplace i (List.mem_range.mp hi))
  refine ⟨_, congrArg Host.Outcome.next (if_pos (by rw [hvalid]; exact hall)), look_put_new _ _ _ (fun e => nomatch e)⟩

/-- Settles O29, row by row: the pins, the blocks of flash, the loss of a tier die, and the reading of its register. -/
theorem tierPinsAndFlash : Obligations.TierPinsAndFlash :=
  ⟨execTierPinSet_pins, execTierPinSet_refuses, execTierPinClear_clears, execTierPinResident_reads, execWearLevelling_moves,
    execReadDisturbRelocate_rewrites, execBadBlockRetire_warns, execBadBlockRetire_readOnly, execTierDieFailure_fails,
    execTierDieRead_clears⟩

end Sys2Proof.Machine
end

section
/-!
O30 and O42, both refuted. O30 quantifies over every state, and its clause on a poisoned table entry leans on a table of the core dies
that lists each die once. O42's clause on a MIGRATE leaves out the fault record that its ATS requests may draw. What their other clauses
state is left open here.
-/
namespace Sys2Proof.Machine

set_option Elab.async false

/-! ## A table sector whose check word fails, and a core die that is listed twice -/

/-- Command 3 of ring 0, which runs. -/
def runningCmd : Cmd := { ring := 0, seq := 3, desc := [], sync := [], regions := [], locals := [], phase := .running }

/-- The walk of page 5 of context 2 is about to read its level-2 entry; an access of that command waits for it. -/
def lastTableWalk : Walk := ⟨2, 5, 2, 0x10000, true, [⟨.cmd 0 3, 0x50000, true⟩]⟩

/-- The check word of the sector that holds the entry fails (08 R252). Core die 0 is listed twice: it reads as its first entry, an empty
die, and the second holds the sector modified and not poisoned. The event FIFO of the die masks class 0 (11 R405). -/
def coreDieListedTwice : State :=
  { State.reset with
    regs := [(0x0480008, 0x0000000100000000)]
    cdie := [(0, {}), (0, { lines := [(0x400, some ⟨.m, List.replicate 64 0#8, false⟩)] })]
    mem := { ckErr := [(0x400, 1#32)] }
    xlt := { walks := [lastTableWalk], rootOk := [2] }
    disp := { cmds := [runningCmd] } }

/-- The entry counts as poisoned, its home answers, and the fault ring of the context is off, as the clause asks. -/
theorem coreDieListedTwice_poisoned :
    coreDieListedTwice.blocked 2 5 = false ∧
    (coreDieListedTwice.cohPoison (0x10000 + 8 * walkIdx (5 * 0x10000) 2) 8).isSome = true ∧
    bitOf (coreDieListedTwice.reg (xltReg 2 + 0x18)).toNat 15 = false ∧
    coreDieListedTwice.engErr 63 (0x10000 + 8 * walkIdx (5 * 0x10000) 2) false = none := by decide +kernel

/-- The error is reported to every core die's FIFO (16 R562). What masks it writes its die back as it was, and for die 0 that is the
default one, which a table does not list: the second entry is what the die reads as now. The entry of the page is read from the modified
sector, as one of TYPE 0 that is not poisoned, and the access stalls. -/
theorem tableWalkDone_coreDieListedTwice : ∃ t, exec (.tableWalkDone 2 5 0) coreDieListedTwice = .next t ∧
    (t.cmdOf 0 3).map Cmd.phase = some .running :=
  ⟨_, rfl, by decide +kernel⟩

/-- Refutes O30: the clause on a poisoned entry (10 R346) does not ask that the table of the core dies lists each die once. The report of
a check word that fails may then change what the entry's sector reads as, before the walk reads it. -/
theorem not_walksAtsAndPri : ¬ Obligations.WalksAtsAndPri := by
  rintro ⟨-, -, -, hpoison, -⟩
  obtain ⟨hblocked, hpois, hoff, herr⟩ := coreDieListedTwice_poisoned
  obtain ⟨t, hexec, hruns⟩ := tableWalkDone_coreDieListedTwice
  obtain ⟨u, hclause, hends⟩ := hpoison coreDieListedTwice 2 5 0 3 ⟨.cmd 0 3, 0x50000, true⟩ lastTableWalk runningCmd rfl rfl rfl
    rfl hblocked rfl hpois rfl rfl rfl hoff herr rfl
  obtain rfl := Host.Outcome.next.inj (hexec.symm.trans hclause)
  have hphase := congrArg (Option.map Prod.fst) hends
  rw [Option.map_map] at hphase
  exact absurd (hruns.symm.trans hphase) (by decide)

/-! ## A MIGRATE of a context without a PASID -/

/-- The descriptor of a MIGRATE of page 5 of context 2 to address 0x90000 (13 R464). -/
def migrateDesc : List Byte :=
  6 :: List.replicate 15 0 ++ leBytes 2 2 ++ List.replicate 6 0 ++ leBytes 8 0x50000 ++ leBytes 8 0x90000 ++ List.replicate 88 0

/-- It is the head of ring 0. -/
def migrateHead : Cmd := { ring := 0, seq := 4, desc := migrateDesc, sync := [], regions := [], locals := [], phase := .head }

/-- Page 5 of context 2 is a migratable host page. The context's PASID is not enabled (10 R358), and its fault ring is in use, in device
memory at 0x100000 (10 R359, R360). -/
def faultRingInMemory : State :=
  { State.reset with
    regs := [(0x0210000, 0x8000000200000000), (0x0901050, 0x100000), (0x0901058, 0xC000)]
    sess := [(0, { state := .attached })]
    xlt := { root := [(2, 1)], rootOk := [2] }
    disp := { order := 7, cmds := [migrateHead] }
    mem := { bytes := [(0x10000, 1), (0x10002, 2), (0x20000, 1), (0x20002, 3), (0x30028, 4)] } }

/-- No other command blocks the page. -/
theorem faultRingInMemory_head : faultRingInMemory.headOf 0 6 = some migrateHead ∧
    faultRingInMemory.blockedBy false (migrateHead.fld 16 2 % 1024) (migrateHead.fld 24 8 / 0x10000) 1 = false := by decide +kernel

/-- The units of the page cannot be asked for without a PASID: the fault is recorded in the ring, with the page's address (10 R334, R347,
R348). -/
theorem migrate_faultRingInMemory : ∃ t, exec (.migrate 0) faultRingInMemory = .next t ∧ t.mem.rd 0x100002 = 5#8 :=
  ⟨_, rfl, by decide +kernel⟩

/-- Refutes O42: the clause on a MIGRATE that starts says that the memory stays where every check word holds, and does not leave out a
context whose host pages are malformed, for want of a PASID, and whose fault ring lies in device memory. -/
theorem not_migrateAndInvalidate : ¬ Obligations.MigrateAndInvalidate := by
  rintro ⟨hmigrate, -⟩
  obtain ⟨hhead, hfree⟩ := faultRingInMemory_head
  obtain ⟨t, hexec, hrec⟩ := migrate_faultRingInMemory
  obtain ⟨u, hclause, -, -, hmem⟩ := hmigrate faultRingInMemory 0 migrateHead hhead hfree
  obtain rfl := Host.Outcome.next.inj (hexec.symm.trans hclause)
  rw [hmem rfl] at hrec
  exact absurd hrec (by decide +kernel)

end Sys2Proof.Machine
end

section
/-!
O31 (10 R349, R350, R355 to R360): stalled translations that are tried again or outlast the fault timeout, and the registers of the
translation that clear when they are read. FAULT_TIMEOUT lets placement writes go on once it has ended the waits of a page, and so it
is said first what those leave: every command, and the accesses that are not stalled.
-/
namespace Sys2Proof.Machine

set_option Elab.async false

/-! ## What a command is recorded to end with, and what stopping it leaves -/

/-- How far a command is and what its record says so far. -/
def State.outcomeOf (s : State) (ring seq : Nat) : Option (CmdPhase × Verdict) :=
  (s.cmdOf ring seq).map (fun c => (c.phase, c.out))

/-- A command is found under its own ring and acceptance index. -/
theorem State.cmdOf_key {s : State} {ring seq : Nat} {c : Cmd} (h : s.cmdOf ring seq = some c) : c.ring = ring ∧ c.seq = seq := by
  simpa using List.find?_some h

/-- A command after a change of one that leaves the ring and the acceptance index. -/
theorem State.cmdOf_updCmd (s : State) (r q : Nat) {f : Cmd → Cmd} (hring : ∀ c, (f c).ring = c.ring) (hseq : ∀ c, (f c).seq = c.seq)
    (ring seq : Nat) : (s.updCmd r q f).cmdOf ring seq =
      (s.cmdOf ring seq).map (fun c => if c.ring == r && c.seq == q then f c else c) := by
  show (s.disp.cmds.map _).find? _ = _
  rw [List.find?_map]
  unfold State.cmdOf
  congr 2
  funext c
  dsimp only [Function.comp_apply]
  split <;> simp [hring, hseq]

/-- A command after a change of its own. -/
theorem State.cmdOf_updCmd_self {s : State} {ring seq : Nat} {f : Cmd → Cmd} (hring : ∀ c, (f c).ring = c.ring)
    (hseq : ∀ c, (f c).seq = c.seq) : (s.updCmd ring seq f).cmdOf ring seq = (s.cmdOf ring seq).map f := by
  rw [State.cmdOf_updCmd s ring seq hring hseq]
  cases h : s.cmdOf ring seq with
  | none => rfl
  | some c =>
    obtain ⟨hr, hq⟩ := State.cmdOf_key h
    simp [hr, hq]

/-- A change of a command that is no change of its phase or its record. -/
theorem State.outcomeOf_updCmd (s : State) (r q : Nat) {f : Cmd → Cmd}
    (hf : ∀ c, (f c).ring = c.ring ∧ (f c).seq = c.seq ∧ (f c).phase = c.phase ∧ (f c).out = c.out) (ring seq : Nat) :
    (s.updCmd r q f).outcomeOf ring seq = s.outcomeOf ring seq := by
  unfold State.outcomeOf
  rw [State.cmdOf_updCmd s r q (fun c => (hf c).1) (fun c => (hf c).2.1), Option.map_map]
  congr 1
  funext c
  obtain ⟨-, -, hphase, hout⟩ := hf c
  dsimp only [Function.comp_apply]
  split
  · rw [hphase, hout]
  · rfl

theorem State.outcomeOf_of_disp {s t : State} (h : t.disp = s.disp) (ring seq : Nat) : t.outcomeOf ring seq = s.outcomeOf ring seq := by
  unfold State.outcomeOf State.cmdOf
  rw [h]

/-- What leaves the dispatcher leaves the outcomes. -/
theorem Keeps.outcomeOf {ws : List Field} {s t : State} (h : Keeps ws s t) (ring seq : Nat) (hf : Field.disp ∉ ws := by decide) :
    t.outcomeOf ring seq = s.outcomeOf ring seq := State.outcomeOf_of_disp (h.same .disp hf) ring seq

/-- A slot that is freed gives its command flags only (05 R153). -/
theorem freeSlot_outcomeOf (pos slot : Nat) (s : State) (ring seq : Nat) :
    (freeSlot pos slot s).outcomeOf ring seq = s.outcomeOf ring seq := by
  unfold freeSlot
  split
  · rfl
  · next x _ =>
    extract_lets s1
    have h1 : s1.outcomeOf ring seq = (forgetSlot pos slot x.ring x.seq [] s).outcomeOf ring seq :=
      State.outcomeOf_updCmd (f := fun c => { c with flags := c.flags ||| x.tstat.setWidth 4 }) _ x.ring x.seq
        (fun _ => ⟨rfl, rfl, rfl, rfl⟩) ring seq
    exact h1.trans <| (forgetSlot_keeps pos slot x.ring x.seq [] s (Keeps.rfl' _ s) (Within.rfl' _)).outcomeOf ring seq

theorem haltSlot_outcomeOf (pos slot : Nat) (s : State) (ring seq : Nat) :
    (haltSlot pos slot s).outcomeOf ring seq = s.outcomeOf ring seq := by
  unfold haltSlot
  split
  · rfl
  · next x _ =>
    dsimp only
    split
    · exact freeSlot_outcomeOf pos slot s ring seq
    · exact (forgetSlot_keeps pos slot x.ring x.seq (s.runsOn pos slot) s (Keeps.rfl' _ s) (Within.rfl' _)).outcomeOf ring seq

theorem stopParts_outcomeOf (r q : Nat) (s : State) (ring seq : Nat) : (stopParts r q s).outcomeOf ring seq = s.outcomeOf ring seq := by
  unfold stopParts
  split
  · rfl
  · exact foldl_inv (fun t : State => t.outcomeOf ring seq = s.outcomeOf ring seq)
      (fun t (p : Nat × Nat × Slot) => haltSlot p.1 p.2.1 t) (fun t p ht => (haltSlot_outcomeOf p.1 p.2.1 t ring seq).trans ht) _ _ rfl

/-- Any outcome but those that stand lowest replaces none (16 R557). -/
theorem Cmd.addOut_fresh {c : Cmd} {v : Verdict} (hout : c.out = {}) (hrank : statusRank v.status < 10) : (c.addOut v).out = v := by
  unfold Cmd.addOut
  rw [hout, if_pos (show _ < statusRank 0 from hrank)]

/-- A running command that has no outcome yet ends with the one given (10 R350; 16 R557). -/
theorem endWith_outcomeOf {ring seq : Nat} {v : Verdict} {s : State} (h : s.outcomeOf ring seq = some (.running, {}))
    (hrank : statusRank v.status < 10) : (endWith ring seq v s).outcomeOf ring seq = some (.ending, v) := by
  obtain ⟨c, hcmd, hc⟩ := Option.map_eq_some_iff.mp h
  obtain ⟨d, hstopped, hd⟩ := Option.map_eq_some_iff.mp ((stopParts_outcomeOf ring seq s ring seq).trans h)
  obtain ⟨hphase, -⟩ := Prod.mk.inj hc
  obtain ⟨-, hout⟩ := Prod.mk.inj hd
  unfold endWith
  rw [hcmd]
  dsimp only
  rw [if_neg (by simp [hphase])]
  unfold State.outcomeOf
  rw [State.cmdOf_updCmd_self (fun c => by unfold Cmd.addOut; split <;> rfl) (fun c => by unfold Cmd.addOut; split <;> rfl), hstopped]
  exact congrArg (fun o => some (CmdPhase.ending, o)) (Cmd.addOut_fresh hout hrank)

/-! ## Accesses that are not stalled -/

theorem State.stalledWait_eq_false {s : State} {w : XltWait} : s.stalledWait w = false ↔ ∀ x ∈ s.xlt.stalls, w ∉ x.waits := by
  simp [State.stalledWait, List.any_eq_false]

/-- The commands are what they were, and the access, if it is not stalled, does not become so (10 R346). -/
structure LeavesUnstalled (w : XltWait) (s t : State) : Prop where
  cmds : t.disp.cmds = s.disp.cmds
  free : s.stalledWait w = false → t.stalledWait w = false

/-- The commands and the stalls are what they were. -/
structure StallsStay (s t : State) : Prop where
  cmds : t.disp.cmds = s.disp.cmds
  stalls : t.xlt.stalls = s.xlt.stalls

theorem StallsStay.refl (s : State) : StallsStay s s := ⟨rfl, rfl⟩
theorem StallsStay.trans {s t u : State} (h : StallsStay s t) (g : StallsStay t u) : StallsStay s u :=
  ⟨g.cmds.trans h.cmds, g.stalls.trans h.stalls⟩
theorem StallsStay.foldl {α : Type} {step : State → α → State} (h : ∀ t a, StallsStay t (step t a)) (l : List α) (s : State) :
    StallsStay s (l.foldl step s) := foldl_inv (StallsStay s) step (fun t a ht => ht.trans (h t a)) l s (.refl s)

/-- What leaves the dispatcher and the translation. -/
theorem Keeps.stallsStay {ws : List Field} {s t : State} (h : Keeps ws s t) (hd : Field.disp ∉ ws := by decide)
    (hx : Field.xlt ∉ ws := by decide) : StallsStay s t :=
  ⟨congrArg Disp.cmds (h.same .disp hd), congrArg Xlt.stalls (h.same .xlt hx)⟩

/-- A change of the translation that is none of the stalls. -/
theorem withXlt_stallsStay (s : State) (x : Xlt) (h : x.stalls = s.xlt.stalls := by rfl) : StallsStay s (s.withXlt x) := ⟨rfl, h⟩

theorem StallsStay.leavesUnstalled {s t : State} (h : StallsStay s t) (w : XltWait) : LeavesUnstalled w s t :=
  ⟨h.cmds, fun hw => by unfold State.stalledWait at *; rw [h.stalls]; exact hw⟩

theorem LeavesUnstalled.refl (w : XltWait) (s : State) : LeavesUnstalled w s s := ⟨rfl, id⟩
theorem LeavesUnstalled.trans {w : XltWait} {s t u : State} (h : LeavesUnstalled w s t) (g : LeavesUnstalled w t u) :
    LeavesUnstalled w s u :=
  ⟨g.cmds.trans h.cmds, g.free ∘ h.free⟩
theorem LeavesUnstalled.foldl {α : Type} {w : XltWait} {step : State → α → State} (h : ∀ t a, LeavesUnstalled w t (step t a))
    (l : List α) (s : State) :
    LeavesUnstalled w s (l.foldl step s) := foldl_inv (LeavesUnstalled w s) step (fun t a ht => ht.trans (h t a)) l s (.refl w s)

theorem dropWaits_leavesUnstalled (w : XltWait) (p : XltWait → Bool) (s : State) : LeavesUnstalled w s (dropWaits p s) := by
  refine ⟨rfl, fun h => ?_⟩
  rw [State.stalledWait_eq_false] at h ⊢
  intro x hx hw
  obtain ⟨y, hy, rfl⟩ := List.mem_map.mp (List.mem_filter.mp hx).1
  exact h y hy (List.mem_filter.mp hw).1

/-- An access whose wait is dropped is not stalled. -/
theorem dropWaits_stalledWait {w : XltWait} {p : XltWait → Bool} (s : State) (hp : p w = true) :
    (dropWaits p s).stalledWait w = false := by
  rw [State.stalledWait_eq_false]
  intro x hx hw
  obtain ⟨y, -, rfl⟩ := List.mem_map.mp (List.mem_filter.mp hx).1
  simpa [hp] using (List.mem_filter.mp hw).2

theorem clearWait_leavesUnstalled (w v : XltWait) (s : State) : LeavesUnstalled w s (clearWait v s) := by
  unfold clearWait
  split
  · exact dropWaits_leavesUnstalled w _ s
  · exact .refl w s

theorem mem_addWait {v w : XltWait} {l : List XltWait} (h : w ∈ addWait v l) : w ∈ l ∨ w = v := by
  unfold addWait at h
  split at h
  · exact .inl h
  · simpa using h

/-- Another access stalls. -/
theorem addStall_leavesUnstalled {w v : XltWait} (hne : w ≠ v) (ctx reason : Nat) (s : State) :
    LeavesUnstalled w s (addStall ctx reason v s) := by
  have hdrop := dropWaits_leavesUnstalled w (fun y => y == v) s
  unfold addStall
  extract_lets same s1
  refine hdrop.trans ⟨by split <;> rfl, fun h => ?_⟩
  rw [State.stalledWait_eq_false] at h ⊢
  intro x hx hw
  split at hx
  · obtain ⟨y, hy, rfl⟩ := List.mem_map.mp hx
    split at hw
    · exact (mem_addWait hw).elim (h y hy) hne
    · exact h y hy hw
  · rcases List.mem_append.mp hx with hx | hx
    · exact h x hx hw
    · rw [List.mem_singleton.mp hx] at hw
      exact hne (List.mem_singleton.mp hw)

/-! ## What placement writes that go on leave -/

theorem notifyRings_cmds (secs : List Nat) (s : State) : (notifyRings secs s).disp.cmds = s.disp.cmds :=
  foldl_inv (fun t => t.disp.cmds = s.disp.cmds) _ (fun t r ht => by
    split
    · exact ht
    · exact ht) _ s rfl

/-- A coherent write tells rings of their headers, and no command of anything (13 R453). -/
theorem cohWrite_stallsStay (a : Nat) (bs : List Byte) (s : State) : StallsStay s (cohWrite a bs s) := by
  refine ⟨?_, congrArg Xlt.stalls ((cohWrite_keeps a bs s (Keeps.rfl' _ s) (Within.rfl' _)).same .xlt)⟩
  unfold cohWrite
  extract_lets s1
  refine (notifyRings_cmds _ s1).trans (congrArg Disp.cmds (Keeps.same
      (ws := [.hfifo, .msix, .mem, .stack, .pool, .tier, .cdie, .hif]) ?_ .disp))
  have hw := Within.rfl' [Field.hfifo, .msix, .mem, .stack, .pool, .tier, .cdie, .hif]
  refine foldl_keeps _ (fun t n ht => ?_) _ _ (Keeps.rfl' _ s)
  split
  refine storeSector_keeps _ _ _ _ _ (touchFrame_keeps _ _ _ (dropCopies_keeps _ _ ?_ (hw.of rfl)) (hw.of rfl)) (hw.of rfl)
  split
  · exact evCheckword_keeps _ _ _ _ t ht (hw.of rfl)
  · exact ht

theorem faultWrite_stallsStay (c : Nat) (rec_ : List Byte) (s : State) : StallsStay s (faultWrite c rec_ s) := by
  unfold faultWrite
  extract_lets n phase bytes a _ s1 vec
  have h1 : StallsStay s s1 := withXlt_stallsStay s _
  split
  · exact (h1.trans (cohWrite_stallsStay a bytes s1)).trans (routerEvent_keeps _ _ _ (Keeps.rfl' _ _) (Within.rfl' _)).stallsStay
  · exact h1.trans (msixGather_keeps _ _ _ (State.tlp_keeps s1 _ (Keeps.rfl' _ s1) (Within.of (Within.rfl' [.msix, .hif]) rfl))
      (Within.rfl' _)).stallsStay

theorem faultRecord_stallsStay (c : Nat) (rec_ : List Byte) (s : State) : StallsStay s (faultRecord c rec_ s) := by
  unfold faultRecord
  split
  · exact withXlt_stallsStay s _
  split
  · split
    · extract_lets _ s1
      have h1 : StallsStay s s1 := withXlt_stallsStay s _
      split
      · exact h1.trans (withXlt_stallsStay s1 _)
      · exact h1.trans (faultWrite_stallsStay c rec_ s1)
    · exact faultWrite_stallsStay c rec_ s
  split
  · exact withXlt_stallsStay s _
  split
  · exact withXlt_stallsStay s _
  split
  · exact (withXlt_stallsStay s _).trans (hostRead_keeps _ _ _ _ _ _ (Keeps.rfl' _ _) (Within.rfl' _)).stallsStay
  · exact faultWrite_stallsStay c rec_ s

theorem walkStart_stallsStay (ctx page : Nat) (s : State) : StallsStay s (walkStart ctx page s).2.2 := by
  unfold walkStart
  dsimp only
  split <;> exact ⟨rfl, rfl⟩

theorem walksGo_stallsStay (s : State) : StallsStay s (walksGo s) := by
  unfold walksGo
  split
  · exact .refl s
  · next x _ =>
    split
    · exact .refl s
    · exact (walkStart_stallsStay x.ctx x.page s).trans ((withXlt_stallsStay _ _).trans (withXlt_stallsStay _ _))

theorem startWalk_stallsStay (ctx page : Nat) (ws : List XltWait) (s : State) : StallsStay s (startWalk ctx page ws s) := by
  unfold startWalk
  split
  · exact withXlt_stallsStay s _
  · exact (withXlt_stallsStay s _).trans (walksGo_stallsStay _)

theorem prefetchNext_stallsStay (ctx page : Nat) (s : State) : StallsStay s (prefetchNext ctx page s) := by
  unfold prefetchNext
  split
  · exact startWalk_stallsStay _ _ _ s
  · exact .refl s

theorem walkOn_stallsStay (n ctx dva level table : Nat) (s : State) : StallsStay s (walkOn n ctx dva level table s).2 := by
  induction n generalizing level table s with
  | zero => exact .refl s
  | succ n ih =>
    have hserve := (serveReads_keeps (table + 8 * walkIdx dva level) 8 s (Keeps.rfl' _ s) (Within.rfl' _)).stallsStay
    unfold walkOn
    dsimp only
    split
    · exact hserve
    · split
      · exact hserve.trans ((withXlt_stallsStay _ _).trans (ih _ _ _))
      · exact hserve

theorem walkWhole_stallsStay (ctx dva : Nat) (s : State) : StallsStay s (walkWhole ctx dva s).2 := by
  unfold walkWhole
  split
  · exact ⟨rfl, rfl⟩
  · exact (walkStart_stallsStay _ _ s).trans ((withXlt_stallsStay _ _).trans (walkOn_stallsStay _ _ _ _ _ _))

/-! Of an access `v` of a placement write, and another one `w`. -/
section
variable {w v : XltWait} {n : Nat}

theorem xltFault_place_stallsStay (hv : v.by_ = .place n) (told : Bool) (ctx reason level entry : Nat) (host : Bool)
    (table : Nat) (s : State) :
    StallsStay s (xltFault told ctx reason level entry host table v s) := by
  unfold xltFault
  simp only [hv]
  exact (faultRecord_stallsStay _ _ s).trans (placeFault_keeps n _ (Keeps.rfl' _ _) (Within.rfl' _)).stallsStay

theorem xltErrored_place_stallsStay (hv : v.by_ = .place n) (reason addr : Nat) (s : State) :
    StallsStay s (xltErrored reason addr v s) := by
  unfold xltErrored
  simp only [hv]
  exact (placeFault_keeps n s (Keeps.rfl' _ s) (Within.rfl' _)).stallsStay

theorem atsSend_stallsStay (ctx page : Nat) (s : State) : StallsStay s (atsSend ctx page s) :=
  (atsSend_keeps ctx page s (Keeps.rfl' _ s) (Within.rfl' _)).stallsStay

theorem needUnit_place_leavesUnstalled (hv : v.by_ = .place n) (hne : w ≠ v) (ctx : Nat) (s : State) :
    LeavesUnstalled w s (needUnit ctx v s) := by
  unfold needUnit
  extract_lets page same s0
  split
  · exact (xltFault_place_stallsStay hv _ _ _ _ _ _ _ s).leavesUnstalled w
  split
  · simp only [hv]
    exact addStall_leavesUnstalled hne ctx 0 s
  · have h0 : LeavesUnstalled w s s0 := clearWait_leavesUnstalled w v s
    split
    · exact h0.trans ((withXlt_stallsStay s0 _).leavesUnstalled w)
    · exact h0.trans (((withXlt_stallsStay s0 _).trans (atsSend_stallsStay ctx page _)).leavesUnstalled w)

theorem needPri_place_stallsStay (hv : v.by_ = .place n) (ctx : Nat) (s : State) : StallsStay s (needPri ctx v s) := by
  unfold needPri
  extract_lets page unit done same _ s1 _ s2
  split
  · exact xltFault_place_stallsStay hv _ _ _ _ _ _ _ s
  split
  · exact xltFault_place_stallsStay hv _ _ _ _ _ _ _ s
  · have h1 : StallsStay s s1 := by
      unfold s1
      split <;> exact withXlt_stallsStay s _
    split
    · exact h1
    · have h2 : StallsStay s s2 := h1.trans (withXlt_stallsStay s1 _)
      split
      · exact h2.trans (priSend_keeps _ s2 (Keeps.rfl' _ s2) (Within.rfl' _)).stallsStay
      · exact h2

theorem tlbNote_stallsStay (t : Tlb) (e : TlbEnt) (s : State) : StallsStay s (tlbNote t e s) := by
  unfold tlbNote
  split <;> exact ⟨rfl, rfl⟩

theorem useEntry_place_leavesUnstalled (hv : v.by_ = .place n) (hne : w ≠ v) (t : Tlb) (ctx : Nat) (e : TlbEnt) (s : State) :
    LeavesUnstalled w s (useEntry t ctx v e s).2 := by
  unfold useEntry
  split
  · exact ((tlbNote_stallsStay t e s).leavesUnstalled w).trans (clearWait_leavesUnstalled w v _)
  · exact needUnit_place_leavesUnstalled hv hne ctx s
  · exact (needPri_place_stallsStay hv ctx s).leavesUnstalled w
  · exact (xltFault_place_stallsStay hv _ _ _ _ _ _ _ s).leavesUnstalled w

theorem walkNow_place_leavesUnstalled (hv : v.by_ = .place n) (hne : w ≠ v) (ctx : Nat) (s : State) :
    LeavesUnstalled w s (walkNow ctx v s).2 := by
  have hwalk := (walkWhole_stallsStay ctx v.dva s).leavesUnstalled w
  unfold walkNow
  split
  · next h =>
    rw [h] at hwalk
    exact hwalk.trans ((xltFault_place_stallsStay hv _ _ _ _ _ _ _ _).leavesUnstalled w)
  · next h =>
    rw [h] at hwalk
    exact hwalk.trans ((xltErrored_place_stallsStay hv _ _ _).leavesUnstalled w)
  · next h =>
    rw [h] at hwalk
    exact (hwalk.trans ((withXlt_stallsStay _ _).leavesUnstalled w)).trans (useEntry_place_leavesUnstalled hv hne _ _ _ _)

theorem xltAccess_place_leavesUnstalled (hv : v.by_ = .place n) (hne : w ≠ v) (t : Tlb) (now : Bool) (ctx : Nat) (s : State) :
    LeavesUnstalled w s (xltAccess t now ctx v s).2 := by
  unfold xltAccess
  split
  · exact .refl w s
  unfold xltTry
  extract_lets page
  split
  · exact (xltFault_place_stallsStay hv _ _ _ _ _ _ _ s).leavesUnstalled w
  split
  · exact useEntry_place_leavesUnstalled hv hne _ _ _ _
  · split
    · exact (startWalk_stallsStay _ _ _ s).leavesUnstalled w
    · refine LeavesUnstalled.trans (StallsStay.leavesUnstalled ?_ w) (useEntry_place_leavesUnstalled hv hne _ _ _ _)
      split
      · exact withXlt_stallsStay s _
      · exact (withXlt_stallsStay s _).trans (prefetchNext_stallsStay _ _ _)
  · split
    · exact (startWalk_stallsStay _ _ _ s).leavesUnstalled w
    · exact walkNow_place_leavesUnstalled hv hne ctx s
end

/-- A placement write that goes on stalls no access but its own (12 R431 to R433). -/
theorem placeTry_leavesUnstalled {w : XltWait} (hw : ∀ n, w.by_ ≠ .place n) (p : Placing) (s : State) :
    LeavesUnstalled w s (placeTry p s) := by
  have hacc := xltAccess_place_leavesUnstalled (w := w) (v := ⟨.place p.n, p.dva, true⟩) rfl (fun e => hw p.n (congrArg XltWait.by_ e))
    .checker true p.ctx s
  unfold placeTry
  split
  next h s1 heq =>
  rw [heq] at hacc
  cases h with
  | none => exact hacc
  | some hit =>
    refine hacc.trans (StallsStay.leavesUnstalled ?_ w)
    have hgone := (placeGone_keeps p.n s1 (Keeps.rfl' _ s1) (Within.rfl' _)).stallsStay
    have hcounted : ∀ (u : State) (l : List Counted), StallsStay u (u.withCounted l) := fun _ _ => ⟨rfl, rfl⟩
    cases hit with
    | bus b =>
      have hsent := hgone.trans (State.tlp_keeps (placeGone p.n s1) (.write (s.ctxFn p.ctx) b p.bytes false .other .translated)
        (Keeps.rfl' _ _) (Within.rfl' _)).stallsStay
      dsimp only
      split
      · exact hsent.trans (hcounted _ _)
      · exact hsent
    | dev a =>
      exact (hgone.trans (hcounted _ _)).trans
        (.foldl (fun t q => (placeSend_keeps 57 p.n q t (Keeps.rfl' _ t) (Within.rfl' _)).stallsStay) _ _)

theorem placeRid_leavesUnstalled {w : XltWait} (hw : ∀ n, w.by_ ≠ .place n) (rid k : Nat) (s : State) :
    LeavesUnstalled w s (placeRid rid k s) := by
  induction k generalizing s with
  | zero => exact .refl w s
  | succ k ih =>
    unfold placeRid
    split
    · exact .refl w s
    · next p _ =>
      extract_lets s1
      have h1 : LeavesUnstalled w s s1 := placeTry_leavesUnstalled hw p s
      split
      · exact h1
      · exact h1.trans (ih s1)

/-- Placement writes that go on, each requester's in order, stall no access but their own. -/
theorem placesGo_leavesUnstalled {w : XltWait} (hw : ∀ n, w.by_ ≠ .place n) (s : State) : LeavesUnstalled w s (placesGo s) :=
  .foldl (fun t r => placeRid_leavesUnstalled hw r _ t) _ s

/-! ## Commands that a fault ends -/

/-- A slot that is stopped leaves the translation. -/
theorem haltSlot_xlt (pos slot : Nat) (s : State) : (haltSlot pos slot s).xlt = s.xlt :=
  (haltSlot_keeps pos slot s (Keeps.rfl' _ s) (Within.rfl' _)).same .xlt

/-- Stopping the parts of a command stalls no access. -/
theorem stopParts_stalledWait {w : XltWait} (ring seq : Nat) {s : State} (h : s.stalledWait w = false) :
    (stopParts ring seq s).stalledWait w = false := by
  unfold stopParts
  split
  · exact h
  · refine foldl_inv (fun t : State => t.stalledWait w = false) _ (fun t p ht => ?_) _ _ ((dropWaits_leavesUnstalled w _ s).free h)
    unfold State.stalledWait
    rw [haltSlot_xlt]
    exact ht

theorem endWith_stalledWait {w : XltWait} (ring seq : Nat) (v : Verdict) {s : State} (h : s.stalledWait w = false) :
    (endWith ring seq v s).stalledWait w = false := by
  unfold endWith
  split
  · exact h
  · split
    · exact h
    · exact stopParts_stalledWait ring seq h

/-- A running command that ends with a fault has its outcome in its record (10 R350). -/
theorem endFault_outcomeOf {ring seq : Nat} {v : Verdict} {s : State} (h : s.outcomeOf ring seq = some (.running, {}))
    (hrank : statusRank v.status < 10) : (endFault ring seq v s).outcomeOf ring seq = some (.ending, v) := by
  unfold endFault
  extract_lets mine ws
  refine endWith_outcomeOf (Eq.trans ?_ h) hrank
  exact (foldl_keeps (ws := [.tile, .xlt]) _ (fun t x ht => loseMove_keeps true x t ht (Within.of (Within.rfl' _) rfl)) ws _
    (dropWaits_keeps mine s (Keeps.rfl' _ s) (Within.of (Within.rfl' _) rfl))).outcomeOf ring seq

/-- None of its accesses is stalled any more. -/
theorem endFault_stalledWait {ring seq : Nat} {w : XltWait} (v : Verdict) {s : State} (hw : s.waitOf w = some (ring, seq)) :
    (endFault ring seq v s).stalledWait w = false := by
  unfold endFault
  extract_lets mine ws
  refine endWith_stalledWait ring seq v (foldl_inv (fun t : State => t.stalledWait w = false) _ (fun t x ht => ?_) ws _
    (dropWaits_stalledWait s (by simp [mine, hw])))
  exact ((loseMove_keeps true x t (Keeps.rfl' _ t) (Within.rfl' _)).stallsStay.leavesUnstalled w).free ht

/-- A command's access that has stalled for too long ends the command, with the reason of the stall (10 R350). -/
theorem waitExpires_cmd {w : XltWait} {ring seq reason : Nat} (hby : w.by_ = .cmd ring seq) (hpos : 0 < reason) (hlt : reason < 256)
    (ctx : Nat) (s : State) :
    waitExpires ctx reason w s = endFault ring seq { status := 0x04, reason := reason, detail := w.dva } s := by
  have hreason : (BitVec.ofNat 64 reason).toNat % 256 = reason := by
    rw [BitVec.toNat_ofNat]
    omega
  unfold waitExpires State.waitOf
  rw [if_neg (by omega)]
  simp only [hby, hreason]

/-- Where one access only is stalled on a page that nothing waits on the host for, FAULT_TIMEOUT is the end of that wait. -/
theorem execFaultTimeout_one {s : State} {ctx page reason : Nat} {w : XltWait}
    (hstall : s.xlt.stalls.filter (fun x => x.ctx == ctx && x.page == page) = [⟨ctx, page, reason, [w]⟩]) (hats : s.xlt.ats = []) :
    exec (.faultTimeout ctx page) s = .next (placesGo (tagsGo (atsTidy ctx page (waitExpires ctx reason w s)))) := by
  show execFaultTimeout ctx page s = _
  unfold execFaultTimeout
  rw [hstall, hats]
  rfl

/-- What goes on after waits have ended changes no command, and stalls no command's access. -/
theorem placesGo_tagsGo_atsTidy_leavesUnstalled {w : XltWait} (hw : ∀ n, w.by_ ≠ .place n) (ctx page : Nat) (s : State) :
    LeavesUnstalled w s (placesGo (tagsGo (atsTidy ctx page s))) := by
  have htidy : StallsStay s (atsTidy ctx page s) := withXlt_stallsStay s _
  exact ((htidy.trans (tagsGo_keeps _ (Keeps.rfl' _ _) (Within.rfl' _)).stallsStay).leavesUnstalled w).trans (placesGo_leavesUnstalled hw _)

/-- A command whose one access has stalled for too long ends with FAULT, and the access waits no more (10 R350). -/
theorem execFaultTimeout_ends (s : State) (ctx page reason ring seq : Nat) (w : XltWait) (c : Cmd)
    (hstall : s.xlt.stalls.filter (fun x => x.ctx == ctx && x.page == page) = [⟨ctx, page, reason, [w]⟩]) (hpos : 0 < reason)
    (hlt : reason < 256) (hats : s.xlt.ats = []) (hby : w.by_ = .cmd ring seq) (hcmd : s.cmdOf ring seq = some c) (hout : c.out = {})
    (hphase : c.phase = .running) : ∃ t, exec (.faultTimeout ctx page) s = .next t ∧
    (t.cmdOf ring seq).map (fun c => (c.phase, c.out)) = some (.ending, { status := 0x04, reason := reason, detail := w.dva }) ∧
    w ∉ t.xlt.stalls.flatMap Stall.waits := by
  have hmine : s.waitOf w = some (ring, seq) := by simp [State.waitOf, hby]
  have hruns : s.outcomeOf ring seq = some (.running, {}) := by simp [State.outcomeOf, hcmd, hout, hphase]
  have hrest := fun u => placesGo_tagsGo_atsTidy_leavesUnstalled (w := w) (fun n => by simp [hby]) ctx page u
  rw [execFaultTimeout_one hstall hats, waitExpires_cmd hby hpos hlt]
  refine ⟨_, rfl, ?_, ?_⟩
  · unfold State.cmdOf
    rw [(hrest _).cmds]
    exact endFault_outcomeOf hruns (show statusRank 4 < 10 by decide)
  · simpa [List.mem_flatMap] using State.stalledWait_eq_false.mp ((hrest _).free (endFault_stalledWait _ hmine))

/-! ## The translation registers -/

/-- A store to XLT_RESUME tries the waits of the context's stalls again, stall by stall (10 R349, R355). -/
theorem execXltResume_retries (s : State) (who : Agent) (ctx : Nat) (hgate : s.hostGate who = true)
    (hown : ownFn who (s.ctxFn (ctx % 1024)) = true) : ∃ t, exec (.xltResume who ctx) s = .next t ∧
    t = ((s.xlt.stalls.filter (fun x => x.ctx == ctx % 1024)).flatMap Stall.waits).foldl (fun st w => resumeWait (ctx % 1024) w st)
      (s.setReg 0x0900008 (BitVec.ofNat 64 (ctx % 1024))) := by
  have hwaits : ∀ l : List Stall, (l.filter (fun x => x.ctx == ctx % 1024)).flatMap (fun x => x.waits.map (fun w => (x.ctx, w))) =
      ((l.filter (fun x => x.ctx == ctx % 1024)).flatMap Stall.waits).map (fun w => (ctx % 1024, w)) := fun l => by
    rw [List.map_flatMap, List.flatMap_def, List.flatMap_def]
    refine congrArg List.flatten (List.map_congr_left fun x hx => ?_)
    rw [beq_iff_eq.mp (List.mem_filter.mp hx).2]
  refine ⟨_, rfl, ?_⟩
  rw [if_neg (by simp [hgate]), if_pos hown]
  unfold retryStalls
  rw [show (s.setReg _ _).xlt = s.xlt from rfl, hwaits, List.foldl_map]

/-- Only a function can be told that a context is not its own (18 R613). -/
theorem ownFn_eq_false {who : Agent} {fn : Nat} (h : ownFn who fn = false) : ∃ f, who = .host f := by
  cases who with
  | host f => exact ⟨f, rfl⟩
  | core c => cases h

/-- A VF that names a context of another function is refused, and nothing else changes (10 R355; 18 R613). -/
theorem execXltResume_refuses (s : State) (who : Agent) (ctx : Nat) (hgate : s.hostGate who = true)
    (hown : ownFn who (s.ctxFn (ctx % 1024)) = false) : ∃ t, exec (.xltResume who ctx) s = .next t ∧
    s.reports t (ev 0x80 none (whoArg who) [0x0900008]) ∧ t.regs = s.regs ∧ t.xlt = s.xlt := by
  have hkeeps := setupRefused_keeps who 0x0900008 s (Keeps.rfl' _ s) (Within.rfl' _)
  refine ⟨setupRefused who 0x0900008 s, ?_, post_reports _ s rfl, hkeeps.same .regs, hkeeps.same .xlt⟩
  show execXltResume who ctx s = _
  unfold execXltResume
  rw [if_neg (by simp [hgate]), if_neg (by simp [hown])]

/-- WALKS and FAULTS clear when they are read (10 R356). -/
theorem execXltStatRead_clears (s : State) (who : Agent) (hgate : s.hostGate who = true) : ∃ t, exec (.xltStatRead who) s = .next t ∧
    t.replies = s.replies ++ [⟨who, 0x0900010, s.xltStat, false⟩] ∧ t.xlt = { s.xlt with walksStarted := 0, faultsWritten := 0 } :=
  ⟨_, congrArg Host.Outcome.next (if_pos hgate), rfl, rfl⟩

/-- FULL clears when it is read (10 R360). -/
theorem execXltFrctlRead_clears (s : State) (who : Agent) (ctx : Nat) (hctx : ctx < 1024) (hgate : s.hostGate who = true)
    (hown : ownFn who (s.ctxFn ctx) = true) : ∃ t, exec (.xltFrctlRead who ctx) s = .next t ∧
    t.replies = s.replies ++ [⟨who, xltReg ctx + 0x18, s.frCtl ctx, false⟩] ∧
    t.xlt = { s.xlt with frFull := put 0 s.xlt.frFull ctx 0 } := by
  have hmod : ctx % 1024 = ctx := Nat.mod_eq_of_lt hctx
  refine ⟨_, congrArg Host.Outcome.next (if_pos (by simp [hmod, hgate, hown])), ?_, ?_⟩ <;> rw [hmod] <;> rfl

/-- Of a context not its own a VF reads 0, and nothing clears (10 R357). -/
theorem execXltFrctlRead_other (s : State) (who : Agent) (ctx : Nat) (hctx : ctx < 1024) (hown : ownFn who (s.ctxFn ctx) = false) :
    ∃ t, exec (.xltFrctlRead who ctx) s = .next t ∧ t.replies = s.replies ++ [⟨who, xltReg ctx + 0x18, 0, false⟩] ∧ t.xlt = s.xlt := by
  have hmod : ctx % 1024 = ctx := Nat.mod_eq_of_lt hctx
  obtain ⟨f, rfl⟩ := ownFn_eq_false hown
  refine ⟨_, congrArg Host.Outcome.next (if_neg (by simp [hmod, hown])), ?_, rfl⟩
  rw [hmod]
  rfl

/-- Settles O31, row by row. -/
theorem stallsAndTranslationRegisters : Obligations.StallsAndTranslationRegisters :=
  ⟨execXltResume_retries, execXltResume_refuses, execFaultTimeout_ends, execXltStatRead_clears, execXltFrctlRead_clears,
    execXltFrctlRead_other⟩

end Sys2Proof.Machine
end

section
/-!
O54 and O55. What a step keeps, from the law of every command (`exec_keeps`) and of the idle tick.
-/
namespace Sys2Proof.Machine

set_option Elab.async false

/-- Settles O54: the idle tick and every command (`exec_keeps`) keep the serial number, and neither the fused count nor the number of
values drawn falls. -/
theorem identityHolds : Obligations.IdentityHolds := by
  intro s t h
  unfold step at h
  split at h
  · cases h
    have hkeeps := idleTick_keeps s (Keeps.rfl' _ s) (Within.rfl' _)
    exact ⟨hkeeps.serial, hkeeps.fused, hkeeps.free⟩
  · have hkeeps := exec_keeps _ _ t h
    exact ⟨hkeeps.serial, hkeeps.fused, hkeeps.free⟩

/-- A part of the state other than the queue is the same in a state with another queue. -/
theorem Field.same_withPending (f : Field) {s t : State} {l : List Instr} (h : f.same (s.withPending l) t) : f.same s t := by
  cases f <;> exact h

/-- Settles O55: a step runs its command, and a command keeps the queue and what it does not touch (`exec_keeps`). -/
theorem stepStaysInItsFrame : Obligations.StepStaysInItsFrame := by
  intro c rest s t h
  have hkeeps := exec_keeps c (s.withPending rest) t h
  exact ⟨hkeeps.pending, fun f hf => f.same_withPending (hkeeps.part f hf)⟩

end Sys2Proof.Machine
end

section
/-!
O58. Poison under the writes of a memory (16 R555; 02 R40; 08 R253).
-/
namespace Sys2Proof.Machine

set_option Elab.async false

/-- A number that is cut out of the runs is in none of what is left. -/
theorem inRuns_cutRuns_self (n : Nat) (l : List (Nat × Nat)) : inRuns n (cutRuns n 1 l) = false := by
  induction l with
  | nil => rfl
  | cons c r ih =>
    have happend : ∀ a b : List (Nat × Nat), inRuns n a = false → inRuns n b = false → inRuns n (a ++ b) = false := fun a b ha hb => by
      induction a with
      | nil => exact hb
      | cons x r ih =>
        rw [inRuns, Bool.or_eq_false_iff] at ha
        rw [List.cons_append, inRuns, ha.1, ih ha.2]
        rfl
    refine happend _ _ (happend _ _ ?_ ?_) ih
    · split
      · simp [inRuns]
        omega
      · rfl
    · split
      · simp [inRuns]
      · rfl

/-- Clearing the poison of a sector clears it. -/
theorem Ram.isPoison_setPoison_false (r : Ram) (n : Nat) : (r.setPoison n false).isPoison n = false := inRuns_cutRuns_self n _

/-- What is stored byte by byte leaves all poison as it was. -/
theorem Ram.isPoison_foldl_writeN (n m : Nat) (l : List (Nat × Byte)) (r : Ram) :
    (l.foldl (fun m c => m.writeN (64 * n + c.1) [c.2]) r).isPoison m = r.isPoison m := by
  induction l generalizing r with
  | nil => rfl
  | cons c l ih => exact ih _

/-- A full-sector write with good data leaves its sector without poison. -/
theorem Ram.isPoison_writeSector_good (r : Ram) (n : Nat) (d : List Byte) (ck : Option (BitVec 32)) :
    (r.writeSector n d ck false).isPoison n = false :=
  Ram.isPoison_setPoison_false _ n

/-- A merge clears no poison: it only marks the sectors whose old check word fails. -/
theorem Ram.isPoison_merge {r : Ram} {n : Nat} (a : Nat) (bs : List Byte) (h : r.isPoison n = true) : (r.merge a bs).isPoison n = true :=
  foldl_inv (fun q : Ram => q.isPoison n = true) _ (fun q k hq => by
    split
    · exact Ram.isPoison_setPoison (.inr hq)
    · exact hq) _ r h

/-- A masked write clears no poison: it only marks its sector, when that is poisoned data or the old check word fails. -/
theorem Ram.isPoison_writeMasked {r : Ram} {m : Nat} (n mask : Nat) (d : List Byte) (p : Bool) (h : r.isPoison m = true) :
    (r.writeMasked n mask d p).isPoison m = true := by
  unfold Ram.writeMasked
  split
  · exact h
  · dsimp only
    rw [Ram.isPoison_foldl_writeN]
    split
    · exact Ram.isPoison_setPoison (.inr h)
    · exact h

/-- Settles O58. -/
theorem poisonInMemory : Obligations.PoisonInMemory :=
  ⟨Ram.isPoison_writeSector_good, fun _ a _ bs h => Ram.isPoison_merge a bs h, fun _ n _ mask d p h => Ram.isPoison_writeMasked n mask d p h,
    fun r n a d ck p h => r.rd_writeSector_outside n a d ck p h, fun r b a bs h => r.rd_merge_outside b a bs h,
    fun r n a mask d p h => r.rd_writeMasked_outside n a mask d p h⟩

end Sys2Proof.Machine
end

section
/-!
O52. The module before power (17 R576; 01 R12).
-/
namespace Sys2Proof.Machine

set_option Elab.async false

/-- Settles O52: the reset state is a literal; its ports and tile positions are finitely many. -/
theorem resetState : Obligations.ResetState :=
  ⟨rfl, rfl, rfl, rfl, by decide +kernel, rfl, rfl, rfl, by decide +kernel, rfl⟩

end Sys2Proof.Machine
end

section
/-!
O50. The tick of an idle block on a state whose table of stacks lists a stack twice: emptying the write buffer of the first entry makes
it the default one, which a table does not list, and the second entry is what the stack reads as now.
-/
namespace Sys2Proof.Machine

set_option Elab.async false

/-- Stack 0 is listed twice: first with one buffered write and nothing else, then with a home that has served port 5. -/
def stackListedTwice : State :=
  { State.reset with stack := [(0, { wbuf := [(0, [0])] }), (0, { home := { ptr := 5 } })] }

/-- The tick changes where the home of stack 0 stands in its rotation. -/
theorem idleTick_stackListedTwice : ((idleTick stackListedTwice).stackOf 0).home.ptr = 5 ∧ (stackListedTwice.stackOf 0).home.ptr = 0 := by
  decide +kernel

/-- Refutes O50: the queue is empty, and the tick that empties the write buffers changes a home. -/
theorem not_stepRunsTheFrontCommand : ¬ Obligations.StepRunsTheFrontCommand := by
  intro h
  obtain ⟨t, hstep, -, -, -, -, -, -, hhome⟩ := h.2 stackListedTwice rfl
  obtain rfl : idleTick stackListedTwice = t := Host.Outcome.next.inj hstep
  obtain ⟨hafter, hbefore⟩ := idleTick_stackListedTwice
  exact absurd ((hafter.symm.trans (congrArg HomeSt.ptr (hhome 0))).trans hbefore) (by decide)

end Sys2Proof.Machine
end

section
/-!
O60. What reads of the setup registers return (17 R578, R588; 18 R613; 01 R19, R21).
-/
namespace Sys2Proof.Machine

set_option Elab.async false

/-- Before READY the host reads 0 outside the recovery registers (17 R578). -/
theorem readReg_host_beforeReady (s : State) (fn off : Nat) (hready : s.glb.ready = false) (hoff : off ∉ [0x900, 0x908, 0x910]) :
    s.readReg (.host fn) off = 0#64 := by
  unfold State.readReg
  simp only [List.mem_cons, List.not_mem_nil, or_false, not_or] at hoff
  obtain ⟨h0, h8, h10⟩ := hoff
  simp [h0, h8, h10, hready]

/-- A VF reads 0 where it may not read, the recovery registers included (17 R588; 18 R613). -/
theorem readReg_vf_refused (s : State) (fn off : Nat) (hfn : fn ≠ 0) (hvf : s.vfReads fn off = false) :
    s.readReg (.host fn) off = 0#64 := by
  unfold State.readReg
  simp [isPf0OrCore, hfn, hvf]

/-- GLB_RECSTAT while a start-up is in recovery (17 R588). -/
theorem readReg_recstat (s : State) (who : Agent) (hwho : isPf0OrCore who = true) (hphase : s.boot.phase = .recovery) :
    s.readReg who 0x900 = BitVec.ofNat 64 (16 * s.glb.recReason + s.glb.recState) := by
  unfold State.readReg
  simp [hwho, hphase, State.recWord, at_, Nat.shiftLeft_eq, Nat.mul_comm]

/-- Past the recovery registers and the internal space PF0 and the cores read the register's fields. -/
theorem readReg_blockRead (s : State) (who : Agent) (off : Nat) (hwho : isPf0OrCore who = true) (hgate : s.hostGate who = true)
    (hlow : off < 0x900) : s.readReg who off = BitVec.ofNat 64 (s.blockRead who off) := by
  unfold State.readReg
  cases who with
  | core c => simp [show off ≠ 0x900 by omega, show off ≠ 0x908 by omega, show off ≠ 0x910 by omega]
  | host fn =>
    have hready : s.glb.ready = true := hgate
    have hfn : fn = 0 := by simpa [isPf0OrCore] using hwho
    have hint : internalOnly off = false := by simp [internalOnly]; omega
    simp [show off ≠ 0x900 by omega, show off ≠ 0x908 by omega, show off ≠ 0x910 by omega, hready, hfn, hint]

/-- An entry of an array of words lies in the array at its own number. -/
theorem inArr_entry {base stride count n : Nat} (hstride : 0 < stride) (hn : n < count) :
    inArr base stride count (base + stride * n) = some (n, 0) := by
  have hlt : stride * n < stride * count := (Nat.mul_lt_mul_left hstride).mpr hn
  unfold inArr
  rw [if_pos ⟨Nat.le_add_right _ _, by omega⟩, Nat.add_sub_cancel_left, Nat.mul_div_cancel_left _ hstride, Nat.mul_mod_right]

/-- A register of the tile map reads as its word (01 R19). -/
theorem readReg_tilemap (s : State) (who : Agent) (n : Nat) (hwho : isPf0OrCore who = true) (hgate : s.hostGate who = true) (hn : n < 32) :
    s.readReg who (0x200 + 4 * n) = BitVec.ofNat 64 (s.tilemapWord n) := by
  have hin : inArr 0x200 4 32 (0x200 + 4 * n) = some (n, 0) := inArr_entry (by decide) hn
  have hreg : isReg32 (0x200 + 4 * n) = true := by simp [isReg32, hasReg, hin, has]
  rw [readReg_blockRead s who _ hwho hgate (by omega)]
  unfold State.blockRead State.glbRead
  simp only [hreg, hin, Bool.not_true, Bool.and_false, Bool.false_eq_true, if_false, show 0x200 + 4 * n < 0x0100000 by omega, if_true]

/-- A register of the revision table reads as its word (01 R21). -/
theorem readReg_revtable (s : State) (who : Agent) (p : Nat) (hwho : isPf0OrCore who = true) (hgate : s.hostGate who = true) (hp : p < 64) :
    s.readReg who (0x400 + 4 * p) = BitVec.ofNat 64 (s.revWord p) := by
  have hin : inArr 0x400 4 64 (0x400 + 4 * p) = some (p, 0) := inArr_entry (by decide) hp
  have hout : inArr 0x200 4 32 (0x400 + 4 * p) = none := if_neg (by omega)
  have hreg : isReg32 (0x400 + 4 * p) = true := by simp [isReg32, hasReg, hin, has]
  rw [readReg_blockRead s who _ hwho hgate (by omega)]
  unfold State.blockRead State.glbRead
  simp only [hreg, hin, hout, Bool.not_true, Bool.and_false, Bool.false_eq_true, if_false, show 0x400 + 4 * p < 0x0100000 by omega, if_true]

/-- A tile in service: VALID and its position. -/
theorem readReg_tilemap_mapped (s : State) (who : Agent) (n p : Nat) (hwho : isPf0OrCore who = true) (hgate : s.hostGate who = true)
    (hn : n < 32) (hpos : s.posOf n = some p) (hp : p ≤ 32) : s.readReg who (0x200 + 4 * n) = BitVec.ofNat 64 (2 ^ 31 + p) := by
  rw [readReg_tilemap s who n hwho hgate hn, State.tilemapWord, hpos]
  exact congrArg (fun k => BitVec.ofNat 64 (2 ^ 31 + k)) (Nat.mod_eq_of_lt (by omega))

/-- A tile without a die: VALID is clear. -/
theorem readReg_tilemap_unmapped (s : State) (who : Agent) (n : Nat) (hwho : isPf0OrCore who = true) (hgate : s.hostGate who = true)
    (hn : n < 32) (hpos : s.posOf n = none) : (s.readReg who (0x200 + 4 * n)).getLsbD 31 = false := by
  rw [readReg_tilemap s who n hwho hgate hn, State.tilemapWord, hpos]
  rfl

/-- The entry of a die in the revision table: its state, type and revision. -/
theorem readReg_revtable_fields (s : State) (who : Agent) (p letter digit feat : Nat) (hwho : isPf0OrCore who = true)
    (hgate : s.hostGate who = true) (hp : p < 64) (hdie : s.glb.manifest[p]? = some ⟨letter, digit, feat⟩) (hletter : letter < 256)
    (hdigit : digit < 256) : s.readReg who (0x400 + 4 * p) =
      BitVec.ofNat 64 (2 ^ 28 * look 0 s.glb.site p + 2 ^ 16 * dieType p + 2 ^ 8 * letter + digit) := by
  rw [readReg_revtable s who p hwho hgate hp, State.revWord, hdie]
  simp only [Option.getD_some, at_, Nat.shiftLeft_eq, Nat.mod_eq_of_lt hletter, Nat.mod_eq_of_lt hdigit, Nat.mul_comm]

/-- Settles O60, register by register. -/
theorem registerReads : Obligations.RegisterReads :=
  ⟨readReg_host_beforeReady, readReg_vf_refused, readReg_recstat, readReg_tilemap_mapped, readReg_tilemap_unmapped,
    readReg_revtable_fields⟩

end Sys2Proof.Machine
end

section
/-!
The Ranoa ports: their senders, training and loss (14 R488 to R497, R510, R513), and O57 and O46.
-/
namespace Sys2Proof.Machine

set_option Elab.async false

/-! ## Reading a port -/

/-- A port that is written, and is no port that is down, reads as it was written. -/
theorem State.rportOf_updRport_same {s : State} {n : Nat} {f : RPort → RPort} (h : (f (s.rportOf n)).state ≠ 0) :
    (s.updRport n f).rportOf n = f (s.rportOf n) :=
  look_put_new _ _ _ fun e => h (by rw [show f (s.rportOf n) = {} from e])

/-- Every other port stays as it was. -/
theorem State.rportOf_updRport_ne (s : State) {n m : Nat} (f : RPort → RPort) (h : n ≠ m) : (s.updRport n f).rportOf m = s.rportOf m :=
  look_put_ne _ _ _ _ h

/-- What leaves the Ranoa part leaves the ports. -/
theorem Keeps.rportOf {ws : List Field} {s t : State} (h : Keeps ws s t) (n : Nat) (hf : Field.rna ∉ ws := by decide) :
    t.rportOf n = s.rportOf n := by
  unfold State.rportOf
  rw [h.part .rna hf]

/-- Nothing waits, so nothing is sent. -/
theorem rGo_idle {s : State} {n : Nat} (hwait : (s.rportOf n).wait = []) (hup : (s.rportOf n).state ≠ 0) :
    (rGo n s).rportOf n = s.rportOf n := by
  have hflush : RPort.flush (s.rportOf n).wait [] (s.rportOf n) = s.rportOf n := by rw [hwait]; rfl
  exact (State.rportOf_updRport_same (f := fun x => RPort.flush x.wait [] x) (by rw [hflush]; exact hup)).trans hflush

/-! ## Loss -/

/-- A port that is lost (14 R510). -/
def RPort.lost (x : RPort) : RPort :=
  { x.idle with state := 3, lanes := 0, badTx := [], badRx := [], losses := satAdd 0xFFFF x.losses 1, cut := x.firstOpen % 2 ^ 48 }

/-- Losing a port changes, of the Ranoa part, that port. -/
theorem losePort_rna (n : Nat) (late : Option (Nat × Nat)) (s : State) (hup : (s.rportOf n).state = 1 ∨ (s.rportOf n).state = 2) :
    (losePort n late s).rna = (s.updRport n RPort.lost).rna := by
  unfold losePort
  extract_lets x s1
  rw [if_neg (by rcases hup with h | h <;> simp [x, h])]
  exact ((post_keeps _ _ (Keeps.rfl' _ _) (Within.rfl' _)).same .rna).trans
    (((answerOps_keeps x late _ (Keeps.rfl' _ _) (Within.rfl' _)).same .rna).trans
      ((closeStream_keeps n s1 (Keeps.rfl' _ s1) (Within.rfl' _)).same .rna))

/-- A port that is down or lost already stays as it is. -/
theorem losePort_down (n : Nat) (late : Option (Nat × Nat)) (s : State) (hup : ¬((s.rportOf n).state = 1 ∨ (s.rportOf n).state = 2)) :
    losePort n late s = s := by
  unfold losePort
  exact if_pos (by simpa using hup)

/-- A lost port. -/
theorem losePort_rportOf (n : Nat) (late : Option (Nat × Nat)) (s : State) (hup : (s.rportOf n).state = 1 ∨ (s.rportOf n).state = 2) :
    (losePort n late s).rportOf n = (s.rportOf n).lost := by
  unfold State.rportOf
  rw [losePort_rna n late s hup]
  exact State.rportOf_updRport_same (fun h => Nat.noConfusion h)

/-- The 8th resend of a packet loses the port, an earlier one counts (14 R494). -/
theorem rResend_rportOf {n : Nat} {s : State} (hup : (s.rportOf n).state = 2) (hreplay : (s.rportOf n).replay ≠ []) :
    (rResend n s).rportOf n =
      if 7 ≤ (s.rportOf n).resends then { (s.rportOf n).lost with replays := satAdd 0xFFFF (s.rportOf n).replays 1 }
      else { s.rportOf n with resends := (s.rportOf n).resends + 1, replays := satAdd 0xFFFF (s.rportOf n).replays 1 } := by
  unfold rResend
  extract_lets x s1
  have h1 : s1.rportOf n = { x with resends := x.resends + 1, replays := satAdd 0xFFFF x.replays 1 } :=
    State.rportOf_updRport_same (by simp [hup])
  rw [if_neg (by simp [x, hup, hreplay])]
  by_cases hlast : 7 ≤ x.resends
  · rw [if_pos (by omega), if_pos hlast, losePort_rportOf n none s1 (.inr (by rw [h1]; exact hup)), h1]
    rfl
  · rw [if_neg (by omega), if_neg hlast, h1]

/-! ## Training -/

/-- A port that trains, before its HELLO goes (14 R496). -/
def RPort.restarted (x : RPort) : RPort :=
  { x with state := 1, lanes := 0, lseq := 0, rxSeq := 0, replay := [], resends := 0, cred := rCredits, ctl := [], wait := [] }

/-- A port that trains, its HELLO sent (14 R494, R496). -/
def RPort.training (x : RPort) (hello : RPkt) : RPort :=
  { x.restarted with lseq := 1, replay := [(0, hello)], cred := upd 0 rCredits 3 (fun k => k - 1) }

/-- A packet joins those that wait. -/
def RPort.queue (r : RPkt) (x : RPort) : RPort := { x with wait := x.wait ++ [r] }

/-- A HELLO goes at once: a port that trains has its credits and an empty replay buffer (14 R493, R496). -/
theorem RPort.flush_hello (x : RPort) (s : State) (n lanes : Nat) :
    RPort.flush (x.restarted.queue (helloPkt s n lanes)).wait [] (x.restarted.queue (helloPkt s n lanes)) = x.training (helloPkt s n lanes) := by
  have hbytes : rBytes (helloPkt s n lanes) = 52 := by simp [rBytes, helloPkt]
  have hsend : (x.restarted.queue (helloPkt s n lanes)).canSend (helloPkt s n lanes) = true := by
    unfold RPort.canSend
    rw [hbytes]
    rfl
  have hwait : dropFirst (fun w => w == helloPkt s n lanes) [helloPkt s n lanes] = [] := by simp [dropFirst]
  show RPort.flush [helloPkt s n lanes] [] _ = _
  rw [RPort.flush, hsend]
  show (x.restarted.queue (helloPkt s n lanes)).push (helloPkt s n lanes) = _
  unfold RPort.push RPort.training
  exact congrArg (fun w => { x.restarted with
    lseq := 1, replay := [(0, helloPkt s n lanes)], cred := upd 0 rCredits 3 (fun k => k - 1), wait := w }) hwait

/-- A port that trains keeps only its HELLO for a resend, and nothing waits (14 R496). -/
theorem trainPort_rportOf (n : Nat) (s : State) :
    (trainPort n s).rportOf n = (s.rportOf n).training (helloPkt s n (s.rportOf n).usable) := by
  have hflush := RPort.flush_hello (s.rportOf n) s n (s.rportOf n).usable
  have heq : ∀ r, sendR n r (s.updRport n RPort.restarted) = rGo n ((s.updRport n RPort.restarted).updRport n (RPort.queue r)) :=
    fun _ => rfl
  show (sendR n (helloPkt s n (s.rportOf n).usable) (s.updRport n RPort.restarted)).rportOf n = _
  rw [heq]
  generalize helloPkt s n (s.rportOf n).usable = r at hflush ⊢
  have h1 : (s.updRport n RPort.restarted).rportOf n = (s.rportOf n).restarted :=
    State.rportOf_updRport_same (fun h => Nat.noConfusion h)
  have h2 : ((s.updRport n RPort.restarted).updRport n (RPort.queue r)).rportOf n = (s.rportOf n).restarted.queue r :=
    (State.rportOf_updRport_same (by rw [h1]; exact fun h => Nat.noConfusion h)).trans (congrArg _ h1)
  have h3 : (rGo n ((s.updRport n RPort.restarted).updRport n (RPort.queue r))).rportOf n = RPort.flush _ [] _ :=
    State.rportOf_updRport_same (f := fun x => RPort.flush x.wait [] x) (by rw [h2, hflush]; exact fun h => Nat.noConfusion h)
  rw [h3, h2, hflush]

/-- A port that is down or lost trains once it has light (14 R496, R512). -/
theorem execRanoaLightDetect_trains (s : State) (port : Nat) (hport : port < 8) (hdown : (s.rportOf port).state = 0 ∨ (s.rportOf port).state = 3)
    (hrail : s.boot.rail = true) (hsite : s.siteFailed (rDie port) = false) (husable : (s.rportOf port).usable ≠ 0) :
    exec (.ranoaLightDetect port) s = .next (trainPort port s) := by
  show execRanoaLightDetect port s = _
  unfold execRanoaLightDetect
  refine congrArg Host.Outcome.next (if_neg ?_)
  rcases hdown with h | h <;> simp [hport, h, hrail, hsite, husable]

/-! ## Up -/

/-- A port that its peer's HELLO brings up (14 R497). -/
def RPort.opened (peer serial lanes : Nat) (x : RPort) : RPort :=
  { x with state := 2, lanes := lanes, peerPort := peer % 8, peerSerial := BitVec.ofNat 64 serial, psnTx := 0, psnRx := 0
           ackSent := 0, puts := [], gets := [], rxWait := [], rxGets := [], wait := [] }

/-- A port that takes a packet in order (14 R493, R494). -/
def RPort.took (op : ROp) (x : RPort) : RPort :=
  { x with rxSeq := (x.rxSeq + 1) % 65536, ctl := x.ctl ++ [.ack x.rxSeq] ++ [.credit 0 (ropVc op) 1] }

/-- Taking a packet. -/
theorem rTake_rportOf {n : Nat} {op : ROp} {s : State} (hup : (s.rportOf n).state ≠ 0) :
    (rTake n op s).rportOf n = (s.rportOf n).took op := by
  have h1 : (rAck n s).rportOf n = { s.rportOf n with
      rxSeq := ((s.rportOf n).rxSeq + 1) % 65536, ctl := (s.rportOf n).ctl ++ [.ack (s.rportOf n).rxSeq] } :=
    State.rportOf_updRport_same (f := fun x => { x with rxSeq := (x.rxSeq + 1) % 65536, ctl := x.ctl ++ [.ack x.rxSeq] }) hup
  refine (State.rportOf_updRport_same (f := fun x => { x with ctl := x.ctl ++ [.credit 0 (ropVc op) 1] }) ?_).trans (by rw [h1]; rfl)
  rw [h1]
  exact hup

/-- The peer's HELLO is taken, what an earlier stream had outstanding is answered, and the port is up (14 R496, R497). -/
theorem execHello_opens (s : State) (port serial peer lanes : Nat) (htrain : (s.rportOf port).state = 1) :
    ∃ t, exec (.hello port serial peer lanes) s = .next t ∧
      t.rportOf port = ((s.rportOf port).took .hello).opened peer serial (min (s.rportOf port).usable lanes) ∧
      s.reports t (ev 0x51 (some (rDie port)) (port + at_ (min (s.rportOf port).usable lanes) 8) []) := by
  let bringUp := RPort.opened peer serial (min (s.rportOf port).usable lanes)
  let s1 := answerOps (s.rportOf port) none (closeStream port (rTake port .hello s))
  refine ⟨post (ev 0x51 (some (rDie port)) (port + at_ (min (s.rportOf port).usable lanes) 8) []) (s1.updRport port bringUp),
    congrArg Host.Outcome.next (if_neg (by simp [htrain])), ?_, ?_⟩
  · have h1 : s1.rportOf port = (s.rportOf port).took .hello :=
      ((answerOps_keeps _ none _ (Keeps.rfl' _ _) (Within.rfl' _)).rportOf port).trans
        (((closeStream_keeps port _ (Keeps.rfl' _ _) (Within.rfl' _)).rportOf port).trans (rTake_rportOf (by rw [htrain]; decide)))
    rw [(post_keeps _ _ (Keeps.rfl' _ _) (Within.rfl' _)).rportOf, ← h1]
    exact State.rportOf_updRport_same (fun h => Nat.noConfusion h)
  · have hw := Within.rfl' [Field.counted, .link, .hub, .rna]
    exact (State.updRport_keeps (tch := [.counted, .link, .hub, .rna]) s1 port bringUp (answerOps_keeps _ none _
      (closeStream_keeps port _ (rTake_keeps port .hello s (Keeps.rfl' _ s))))).reports (post_reports _ _ rfl)

/-! ## A Ranoa die that fails -/

/-- A port of a die that fails: lost, if it was not, and down. -/
def dropPort (n : Nat) (s : State) : State := (losePort n none s).updRport n (fun x => { x with state := 0, lanes := 0 })

/-- Dropping a port leaves the others. -/
theorem dropPort_others (n : Nat) (s : State) {m : Nat} (h : n ≠ m) : (dropPort n s).rportOf m = s.rportOf m := by
  refine (State.rportOf_updRport_ne _ _ h).trans ?_
  by_cases hup : (s.rportOf n).state = 1 ∨ (s.rportOf n).state = 2
  · unfold State.rportOf
    rw [losePort_rna n none s hup]
    exact State.rportOf_updRport_ne s RPort.lost h
  · rw [losePort_down n none s hup]

/-- A port that is dropped is down. -/
theorem dropPort_down (n : Nat) (s : State) (hwf : wfTable {} s.rna.port = true) :
    wfTable {} (dropPort n s).rna.port = true ∧ ((dropPort n s).rportOf n).state = 0 := by
  have hlost : wfTable {} (losePort n none s).rna.port = true := by
    by_cases hup : (s.rportOf n).state = 1 ∨ (s.rportOf n).state = 2
    · rw [losePort_rna n none s hup]
      exact wfTable_upd _ _ _ hwf
    · rwa [losePort_down n none s hup]
  exact ⟨wfTable_upd _ n (fun x : RPort => { x with state := 0, lanes := 0 }) hlost, congrArg RPort.state (look_put_same _ n _ hlost)⟩

/-- The ports that are dropped are all down. -/
theorem foldl_dropPort_down (l : List Nat) (s : State) (hwf : wfTable {} s.rna.port = true) {m : Nat}
    (hm : m ∈ l ∨ (s.rportOf m).state = 0) : ((l.foldl (fun st n => dropPort n st) s).rportOf m).state = 0 := by
  induction l generalizing s with
  | nil => simpa using hm
  | cons n l ih =>
    obtain ⟨hwf1, hdown⟩ := dropPort_down n s hwf
    refine ih _ hwf1 ?_
    by_cases hn : n = m
    · exact .inr (hn ▸ hdown)
    · refine hm.imp (fun h => (List.mem_cons.mp h).resolve_left (fun e => hn e.symm)) (fun h => ?_)
      rw [dropPort_others n s hn]
      exact h

/-- A Ranoa die that fails is fenced, its site reads failed and its ports are down (14 R510; 16 R570). -/
theorem execRanoaDieFailure_fails (s : State) (die port : Nat) (hdie : die < 2) (hsite : s.siteFailed (58 + die) = false)
    (hlo : 4 * die ≤ port) (hhi : port < 4 * die + 4) (hwf : wfTable {} s.rna.port = true) : ∃ t,
    exec (.ranoaDieFailure die) s = .next t ∧ look 0 t.glb.site (58 + die) = 3 ∧ t.fenced (58 + die) = true ∧
    (t.rportOf port).state = 0 := by
  let ports := (List.range 4).map (fun i => 4 * die + i)
  have heq : exec (.ranoaDieFailure die) s = .next (dieFailed (58 + die) 4 (ports.foldl (fun st n => dropPort n st) s)) :=
    congrArg Host.Outcome.next (if_neg (by simp [hsite, hdie]))
  obtain ⟨hfence, hlook⟩ := dieFailed_fenced_site (port := 58 + die) 4 (ports.foldl (fun st n => dropPort n st) s) (by omega)
  refine ⟨_, heq, hlook, hfence, ?_⟩
  rw [(dieFailed_keeps (58 + die) 4 _ (Keeps.rfl' _ _) (Within.rfl' _)).rportOf]
  refine foldl_dropPort_down ports s hwf (.inl (List.mem_map.mpr ⟨port - 4 * die, ?_, ?_⟩))
  · exact List.mem_range.mpr (by omega)
  · omega

/-! ## O57 -/

/-- Settles O57. -/
theorem ranoaStreamsStartAfresh : Obligations.RanoaStreamsStartAfresh := by
  refine ⟨fun s port serial peer lanes htrain hpeer => ?_, fun s port hup => ?_, fun s port hport hlost hwait hrail hsite husable => ?_⟩
  · obtain ⟨t, hexec, hport, -⟩ := execHello_opens s port serial peer lanes htrain
    refine ⟨t, hexec, ?_⟩
    rw [hport]
    exact ⟨rfl, rfl, rfl, rfl, rfl, rfl, rfl, rfl⟩
  · refine ⟨losePort port none s, rfl, ?_⟩
    rw [losePort_rportOf port none s (.inr hup)]
    exact ⟨rfl, rfl, rfl, rfl, rfl, rfl⟩
  · refine ⟨_, execRanoaLightDetect_trains s port hport (.inr hlost) hrail hsite husable, ?_⟩
    rw [trainPort_rportOf]
    exact ⟨rfl, rfl, rfl⟩

/-! ## The rows of O46 -/

/-- An acknowledgement empties the replay buffer up to its number (14 R494). -/
theorem execRanoaLinkAck_frees (s : State) (port lseq i : Nat) (hup : (s.rportOf port).state = 2) (hwait : (s.rportOf port).wait = [])
    (hfind : (s.rportOf port).replay.findIdx? (fun e => e.1 == lseq) = some i) : ∃ t,
    exec (.ranoaLinkAck port lseq) s = .next t ∧ (t.rportOf port).replay = (s.rportOf port).replay.drop (i + 1) ∧
    (t.rportOf port).resends = 0 := by
  have h1 : (s.updRport port (fun x => { x with replay := x.replay.drop (i + 1), resends := 0 })).rportOf port =
      { s.rportOf port with replay := (s.rportOf port).replay.drop (i + 1), resends := 0 } :=
    State.rportOf_updRport_same (by simp [hup])
  have heq : exec (.ranoaLinkAck port lseq) s =
      .next (rGo port (s.updRport port (fun x => { x with replay := x.replay.drop (i + 1), resends := 0 }))) := by
    show execRanoaLinkAck port lseq s = _
    unfold execRanoaLinkAck
    dsimp only
    rw [hfind]
  refine ⟨_, heq, ?_⟩
  rw [rGo_idle (by rw [h1]; exact hwait) (by rw [h1]; simp [hup]), h1]
  exact ⟨rfl, rfl⟩

/-- A credit return (14 R493). -/
theorem execRanoaCreditReturn_takes (s : State) (port vc n : Nat) (hup : (s.rportOf port).state = 2) (hwait : (s.rportOf port).wait = []) :
    ∃ t, exec (.ranoaCreditReturn port vc n) s = .next t ∧
    (t.rportOf port).cred = upd 0 (s.rportOf port).cred vc (fun k => min (k + n) (look 0 rCredits vc)) := by
  have h1 : (s.updRport port (fun x => { x with cred := upd 0 x.cred vc (fun k => min (k + n) (look 0 rCredits vc)) })).rportOf port =
      { s.rportOf port with cred := upd 0 (s.rportOf port).cred vc (fun k => min (k + n) (look 0 rCredits vc)) } :=
    State.rportOf_updRport_same (by simp [hup])
  refine ⟨_, rfl, ?_⟩
  rw [rGo_idle (by rw [h1]; exact hwait) (by rw [h1]; simp [hup]), h1]

/-- A heartbeat of the peer (14 R495). -/
theorem execRanoaHeartbeat_counts (s : State) (port corrected : Nat) (hup : (s.rportOf port).state = 2) : ∃ t,
    exec (.ranoaHeartbeat port corrected) s = .next t ∧
    (t.rportOf port).fecCorr = satAdd 0xFFFF (s.rportOf port).fecCorr corrected ∧ t.hub = s.hub := by
  refine ⟨_, congrArg Host.Outcome.next (if_pos hup), ?_, rfl⟩
  rw [State.rportOf_updRport_same (by simp [hup])]

/-- An idle port sends a heartbeat (14 R495). -/
theorem execRanoaHeartbeatSend_sends (s : State) (port : Nat) (hup : (s.rportOf port).state = 2) (hwait : (s.rportOf port).wait = []) :
    ∃ t, exec (.ranoaHeartbeatSend port) s = .next t ∧ (t.rportOf port).ctl = (s.rportOf port).ctl ++ [.heartbeat] := by
  refine ⟨_, congrArg Host.Outcome.next (if_pos ⟨hup, by rw [hwait]; rfl⟩), ?_⟩
  rw [State.rportOf_updRport_same (by simp [hup])]

/-- A packet that cannot be taken draws a negative acknowledgement (14 R488, R494). -/
theorem execRanoaLinkCrcError_naks (s : State) (port uncorr : Nat) (hdr : BitVec 256) (body : List Byte) (crc : BitVec 32)
    (hup : (s.rportOf port).state = 2) (hbad : rFind (s.rportOf port) hdr body crc uncorr ≠ .taken) : ∃ t,
    exec (.ranoaLinkCrcError port hdr body crc uncorr) s = .next t ∧
    (t.rportOf port).ctl = (s.rportOf port).ctl ++ [.nak] ∧
    (t.rportOf port).fecUncorr = satAdd 0xFFFF (s.rportOf port).fecUncorr uncorr ∧ t.mem = s.mem := by
  refine ⟨_, congrArg Host.Outcome.next (if_neg (by simp [hup, hbad])), ?_, ?_, rfl⟩ <;>
    rw [State.rportOf_updRport_same (by simp [hup])]

/-- A negative acknowledgement resends (14 R494). -/
theorem execRanoaLinkNak_resends (s : State) (port : Nat) (hup : (s.rportOf port).state = 2) (hreplay : (s.rportOf port).replay ≠ [])
    (hfew : (s.rportOf port).resends < 7) : ∃ t, exec (.ranoaLinkNak port) s = .next t ∧ (t.rportOf port).state = 2 ∧
    (t.rportOf port).resends = (s.rportOf port).resends + 1 ∧
    (t.rportOf port).replays = satAdd 0xFFFF (s.rportOf port).replays 1 ∧
    (t.rportOf port).replay = (s.rportOf port).replay := by
  refine ⟨rResend port s, rfl, ?_⟩
  rw [rResend_rportOf hup hreplay, if_neg (by omega)]
  exact ⟨hup, rfl, rfl, rfl⟩

/-- The eighth resend loses the port (14 R494, R510). -/
theorem execRanoaAckOverdue_loses (s : State) (port : Nat) (hup : (s.rportOf port).state = 2) (hreplay : (s.rportOf port).replay ≠ [])
    (hlast : (s.rportOf port).resends = 7) : ∃ t, exec (.ranoaAckOverdue port) s = .next t ∧ (t.rportOf port).state = 3 ∧
    (t.rportOf port).losses = satAdd 0xFFFF (s.rportOf port).losses 1 ∧ (t.rportOf port).gets = [] ∧
    (t.rportOf port).puts = [] ∧ (t.rportOf port).cut = (s.rportOf port).firstOpen % 2 ^ 48 := by
  refine ⟨rResend port s, rfl, ?_⟩
  rw [rResend_rportOf hup hreplay, if_pos (by omega)]
  exact ⟨rfl, rfl, rfl, rfl, rfl⟩

/-- Losing a port, as the rows say it (14 R510). -/
theorem losePort_loses (s : State) (port : Nat) (late : Option (Nat × Nat)) (hup : (s.rportOf port).state = 2) :
    ((losePort port late s).rportOf port).state = 3 ∧
    ((losePort port late s).rportOf port).losses = satAdd 0xFFFF (s.rportOf port).losses 1 ∧
    ((losePort port late s).rportOf port).gets = [] ∧ ((losePort port late s).rportOf port).puts = [] ∧
    ((losePort port late s).rportOf port).cut = (s.rportOf port).firstOpen % 2 ^ 48 := by
  rw [losePort_rportOf port late s (.inr hup)]
  exact ⟨rfl, rfl, rfl, rfl, rfl⟩

/-- An operation that times out loses its port (14 R513). -/
theorem execRanoaOpTimeout_loses (s : State) (port : Nat) (hup : (s.rportOf port).state = 2) (hputs : (s.rportOf port).puts ≠ []) : ∃ t,
    exec (.ranoaOpTimeout port) s = .next t ∧ (t.rportOf port).state = 3 ∧
    (t.rportOf port).losses = satAdd 0xFFFF (s.rportOf port).losses 1 ∧ (t.rportOf port).gets = [] ∧
    (t.rportOf port).puts = [] ∧ (t.rportOf port).cut = (s.rportOf port).firstOpen % 2 ^ 48 :=
  ⟨_, congrArg Host.Outcome.next (if_neg (by simp [RPort.ops, hputs])), losePort_loses s port _ hup⟩

/-- A port that is down trains once it has light (14 R496). -/
theorem execRanoaLightDetect_hello (s : State) (port : Nat) (hport : port < 8) (hdown : (s.rportOf port).state = 0)
    (_hwait : (s.rportOf port).wait = []) (hrail : s.boot.rail = true) (hsite : s.siteFailed (rDie port) = false)
    (husable : (s.rportOf port).usable ≠ 0) : ∃ t, exec (.ranoaLightDetect port) s = .next t ∧ (t.rportOf port).state = 1 ∧
    (t.rportOf port).replay = [(0, helloPkt s port (s.rportOf port).usable)] := by
  refine ⟨_, execRanoaLightDetect_trains s port hport (.inl hdown) hrail hsite husable, ?_⟩
  rw [trainPort_rportOf]
  exact ⟨rfl, rfl⟩

/-- The peer's HELLO brings a port up with PSNs from 0 (14 R496, R497). -/
theorem execHello_up (s : State) (port serial peer lanes : Nat) (htrain : (s.rportOf port).state = 1) (hpeer : peer < 8) : ∃ t,
    exec (.hello port serial peer lanes) s = .next t ∧ (t.rportOf port).state = 2 ∧
    (t.rportOf port).lanes = min (s.rportOf port).usable lanes ∧ (t.rportOf port).peerPort = peer ∧
    (t.rportOf port).peerSerial = BitVec.ofNat 64 serial ∧ (t.rportOf port).psnTx = 0 ∧ (t.rportOf port).psnRx = 0 ∧
    s.reports t (ev 0x51 (some (rDie port)) (port + at_ (min (s.rportOf port).usable lanes) 8) []) := by
  obtain ⟨t, hexec, hport, hevent⟩ := execHello_opens s port serial peer lanes htrain
  refine ⟨t, hexec, ?_⟩
  rw [hport]
  exact ⟨rfl, rfl, Nat.mod_eq_of_lt hpeer, rfl, rfl, rfl, hevent⟩

/-- A first failed lane leaves the group of the other four (14 R489). -/
theorem execRanoaLaneFailure_retrains (s : State) (port lane : Nat) (hlane : lane < 8) (hup : (s.rportOf port).state = 2)
    (hbadTx : (s.rportOf port).badTx = []) (hbadRx : (s.rportOf port).badRx = []) (_hwait : (s.rportOf port).wait = []) : ∃ t,
    exec (.ranoaLaneFailure port lane true) s = .next t ∧ (t.rportOf port).state = 1 ∧ (t.rportOf port).usable = 4 ∧
    (t.rportOf port).badTx = [lane] := by
  let s1 := s.updRport port (fun x => { x with badTx := ins lane x.badTx })
  have h1 : s1.rportOf port = { s.rportOf port with badTx := [lane] } :=
    (State.rportOf_updRport_same (by simp [hup])).trans (by rw [hbadTx]; rfl)
  have husable : ∀ x : RPort, x.badTx = [lane] → x.badRx = [] → x.usable = 4 := fun x htx hrx => by
    unfold RPort.usable
    rw [htx, hrx]
    rcases Nat.lt_or_ge lane 4 with h | h <;> simp [h]
  have heq : exec (.ranoaLaneFailure port lane true) s = .next (trainPort port s1) := by
    show execRanoaLaneFailure port lane true s = _
    refine congrArg Host.Outcome.next ((if_neg (by omega)).trans ((if_neg ?_).trans (if_neg ?_)))
    · show ¬((s1.rportOf port).state != 1 && (s1.rportOf port).state != 2) = true
      simp [h1, hup]
    · show (s1.rportOf port).usable ≠ 0
      rw [husable _ (by rw [h1]) (by rw [h1, hbadRx])]
      decide
  refine ⟨_, heq, ?_⟩
  rw [trainPort_rportOf]
  exact ⟨rfl, husable _ (congrArg RPort.badTx h1) ((congrArg RPort.badRx h1).trans hbadRx), congrArg RPort.badTx h1⟩

/-- A number that is inserted in a list is in it. -/
theorem mem_ins_self (k : Nat) (l : List Nat) : k ∈ ins k l := by
  induction l with
  | nil => exact List.mem_singleton.mpr rfl
  | cons j r ih =>
    unfold ins
    split
    · exact List.mem_cons_self
    · split
      · next h => exact h ▸ List.mem_cons_self
      · exact List.mem_cons_of_mem _ ih

/-- A failed lane of each group leaves no group: the port is lost (14 R489, R510). -/
theorem execRanoaLaneFailure_loses (s : State) (port lane : Nat) (hlo : 4 ≤ lane) (hlane : lane < 8) (hup : (s.rportOf port).state = 2)
    (hbadTx : (s.rportOf port).badTx = [0]) : ∃ t, exec (.ranoaLaneFailure port lane false) s = .next t ∧
    (t.rportOf port).state = 3 ∧ (t.rportOf port).lanes = 0 ∧ (t.rportOf port).badTx = [] ∧ (t.rportOf port).badRx = [] := by
  let s1 := s.updRport port (fun x => { x with badRx := ins lane x.badRx })
  have h1 : s1.rportOf port = { s.rportOf port with badRx := ins lane (s.rportOf port).badRx } :=
    State.rportOf_updRport_same (by simp [hup])
  have hnone : (s1.rportOf port).usable = 0 := by
    have hlow : ¬ (ins lane (s.rportOf port).badRx).all (fun l => decide (l < 4)) = true := fun h => by
      have := of_decide_eq_true (List.all_eq_true.mp h lane (mem_ins_self lane _))
      omega
    rw [h1]
    unfold RPort.usable
    simp [hbadTx, hlow]
  have heq : exec (.ranoaLaneFailure port lane false) s = .next (losePort port none s1) := by
    show execRanoaLaneFailure port lane false s = _
    refine congrArg Host.Outcome.next ((if_neg (by omega)).trans ((if_neg ?_).trans (if_pos hnone)))
    show ¬((s1.rportOf port).state != 1 && (s1.rportOf port).state != 2) = true
    simp [h1, hup]
  refine ⟨_, heq, ?_⟩
  rw [losePort_rportOf port none s1 (.inr (by rw [h1]; exact hup))]
  exact ⟨rfl, rfl, rfl, rfl⟩

/-- Settles O46, row by row. -/
theorem ranoaLink : Obligations.RanoaLink :=
  ⟨execRanoaLinkAck_frees, execRanoaCreditReturn_takes, execRanoaHeartbeat_counts, execRanoaHeartbeatSend_sends,
    execRanoaLinkCrcError_naks, execRanoaLinkNak_resends, execRanoaAckOverdue_loses,
    fun s port hup => ⟨_, rfl, losePort_loses s port none hup⟩, execRanoaOpTimeout_loses, execRanoaLightDetect_hello, execHello_up,
    execRanoaLaneFailure_retrains, execRanoaLaneFailure_loses,
    fun s die port hdie hsite _ hlo hhi hwf => execRanoaDieFailure_fails s die port hdie hsite hlo hhi hwf⟩

end Sys2Proof.Machine
end

section
/-!
O49. A STATUS whose operand for the sender does not fit the field: ORIGIN has 32 bits (14 R514), and the table of members takes its low
half as the sender's name, both in the entry it writes and in the ones it replaces.
-/
namespace Sys2Proof.Machine

set_option Elab.async false

/-- The STATUS of a member whose name is 5 in the 32 bits of ORIGIN. -/
def wideStatus : SbMsg :=
  { type := 1, hops := 0, group := 1, origin := 2 ^ 32 + 5, seq := 0, div := 48, power := 0, cap := 0, busy := 0, crit := false, bal := 0 }

/-- A module of group 1 at the qualification point, with port 0 up and member 5 known. -/
def memberKnown : State :=
  { State.reset with
    regs := [(0x0500030, 0x10000#64)], rna := { State.reset.rna with port := [(0, { state := 2 })] }
    pwr := { State.reset.pwr with members := [⟨5, 48, 0, 0, 0, false⟩] } }

/-- The message is for the module, and its balancing is the module's. -/
theorem memberKnown_takes : (memberKnown.rportOf 0).state = 2 ∧ wideStatus.group = memberKnown.group ∧ memberKnown.group ≠ 0 ∧
    (wideStatus.bal == 1) = memberKnown.criticalPath ∧ memberKnown.devQual = true := by
  decide +kernel

/-- The new STATUS of member 5 takes the place of the old one. -/
theorem sbMsg_memberKnown : ∃ t, exec (.sbMsg 0 wideStatus) memberKnown = .next t ∧ t.pwr.members.length = 1 :=
  ⟨_, rfl, by decide +kernel⟩

/-- Refutes O49: the clause on a STATUS keeps the entry of member 5 beside the new one, for it compares the whole operand. -/
theorem not_groupsHintsAndTemperatures : ¬ Obligations.GroupsHintsAndTemperatures := by
  rintro ⟨-, hstatus, -⟩
  obtain ⟨hport, hgroup, hmember, hbal, hqual⟩ := memberKnown_takes
  obtain ⟨t, hclause, hmembers, -⟩ := hstatus memberKnown 0 wideStatus (by decide) hport hgroup hmember (by decide)
    (List.not_mem_nil) rfl hbal hqual
  obtain ⟨u, hexec, hone⟩ := sbMsg_memberKnown
  obtain rfl := Host.Outcome.next.inj (hexec.symm.trans hclause)
  rw [hmembers] at hone
  exact absurd hone (by decide)

end Sys2Proof.Machine
end

section
/-!
The cap, its loops and the clock modes (15 R521 to R546), and O48.
-/
namespace Sys2Proof.Machine

set_option Elab.async false

/-! ## What a step of a divider changes -/

/-- Voltages that rise for a divider. -/
theorem raiseVolts_pwr (ports : List Nat) (d : Nat) (s : State) : ∃ v, (raiseVolts ports d s).pwr = { s.pwr with volt := v } :=
  foldl_inv (fun t : State => ∃ v, t.pwr = { s.pwr with volt := v }) _ (fun _ p ⟨_, hv⟩ =>
    ⟨_, congrArg (fun q : Pwr => { q with volt := put 0 q.volt p (max (look 0 q.volt p) (needVolt p d)) }) hv⟩) ports s ⟨s.pwr.volt, rfl⟩

/-- Voltages that fall to a divider's. -/
theorem lowerVolts_pwr (ports : List Nat) (d : Nat) (s : State) : ∃ v, (lowerVolts ports d s).pwr = { s.pwr with volt := v } :=
  foldl_inv (fun t : State => ∃ v, t.pwr = { s.pwr with volt := v }) _ (fun _ p ⟨_, hv⟩ =>
    ⟨_, congrArg (fun q : Pwr => { q with volt := put 0 q.volt p (needVolt p d) }) hv⟩) ports s ⟨s.pwr.volt, rfl⟩

/-- The hold of the arrays leaves the power controller. -/
theorem holdArrays_pwr (s : State) : (holdArrays s).pwr = s.pwr := (holdArrays_keeps s (Keeps.rfl' _ s) (Within.rfl' _)).same .pwr

/-- A move of the arithmetic divider changes the divider and voltages (15 R521). -/
theorem moveDiv_pwr (d : Nat) (s : State) : ∃ v, (moveDiv d s).pwr = { s.pwr with div := d, volt := v } := by
  unfold moveDiv
  split
  · next h => exact ⟨s.pwr.volt, by rw [h]⟩
  · extract_lets s1
    obtain ⟨v, hv⟩ : ∃ v, s1.pwr = { s.pwr with volt := v } := raiseVolts_pwr _ d s
    obtain ⟨w, hw⟩ := lowerVolts_pwr s.activeTiles d (holdArrays (s1.withPwr { s1.pwr with div := d }))
    exact ⟨w, by rw [hw, holdArrays_pwr, State.withPwr_pwr, hv]⟩

/-- A move of a core die's divider changes, of the power controller, voltages (15 R521). -/
theorem moveCoreDiv_pwr (die d : Nat) (s : State) : ∃ v, (moveCoreDiv die d s).pwr = { s.pwr with volt := v } := by
  unfold moveCoreDiv
  split
  · exact ⟨s.pwr.volt, rfl⟩
  · obtain ⟨v, hv⟩ := raiseVolts_pwr [53 + die] d s
    obtain ⟨w, hw⟩ := lowerVolts_pwr [53 + die] d (holdArrays ((raiseVolts [53 + die] d s).updCdie die (fun x => { x with div := d })))
    refine ⟨w, ?_⟩
    rw [hw, holdArrays_pwr, show (State.updCdie _ _ _).pwr = (raiseVolts [53 + die] d s).pwr from rfl, hv]

/-- The divider of the core die moves (15 R521). -/
theorem moveCoreDiv_div (die d : Nat) (s : State) (hwf : wfTable {} s.cdie = true) :
    ((moveCoreDiv die d s).cdieOf die).div = d ∧ wfTable {} (moveCoreDiv die d s).cdie = true := by
  unfold moveCoreDiv
  split
  · next h => exact ⟨h.symm, hwf⟩
  · have hraise : (raiseVolts [53 + die] d s).cdie = s.cdie := (raiseVolts_keeps _ _ s (Keeps.rfl' _ s) (Within.rfl' _)).same .cdie
    have hrest : ∀ u : State, (lowerVolts [53 + die] d (holdArrays u)).cdie = u.cdie := fun u =>
      ((lowerVolts_keeps _ _ _ (Keeps.rfl' _ _) (Within.rfl' _)).same .cdie).trans ((holdArrays_keeps u (Keeps.rfl' _ u) (Within.rfl' _)).same .cdie)
    unfold State.cdieOf
    rw [hrest]
    have hupd : ∀ f, ((raiseVolts [53 + die] d s).updCdie die f).cdie = upd {} s.cdie die f := fun f => by
      unfold State.updCdie
      rw [State.withCdie_cdie, hraise]
    rw [hupd]
    exact ⟨congrArg CoreDie.div (look_put_same _ die _ hwf), wfTable_upd _ _ _ hwf⟩

/-- A loop's step of the divider (15 R528). -/
theorem setDiv_pwr {d : Nat} {s : State} (hne : d ≠ s.pwr.div) :
    ∃ v h, (setDiv d s).pwr = { s.pwr with div := d, volt := v, sinceStep := 0, heldSeen := h } := by
  unfold setDiv
  rw [if_neg hne]
  extract_lets s0 _ s1 _ s2
  obtain ⟨v, hv⟩ : ∃ v, s0.pwr = { s.pwr with div := d, volt := v } := moveDiv_pwr d s
  refine ⟨v, s1.pwr.heldSeen || s1.slateHeld, ?_⟩
  rw [(post_keeps _ s2 (Keeps.rfl' _ s2) (Within.rfl' _)).same .pwr]
  exact congrArg (fun q : Pwr => { q with sinceStep := 0, heldSeen := s1.pwr.heldSeen || s1.slateHeld }) hv

/-- Each step raises its event (15 R528). -/
theorem setDiv_reports {d : Nat} {s : State} (hne : d ≠ s.pwr.div) : s.reports (setDiv d s) (ev 0x61 none d []) := by
  unfold setDiv
  rw [if_neg hne]
  extract_lets s0 _ s1 _ s2
  have hw := Within.rfl' [Field.pwr, .tile]
  have hkeeps : Keeps [.pwr, .tile] s s2 :=
    withPwr_keeps (withPwr_keeps (moveDiv_keeps d s (Keeps.rfl' _ s)) _ (hw.of rfl)) _ (hw.of rfl)
  exact hkeeps.reports (post_reports _ s2 rfl)

/-! ## The cap -/

/-- What leaves the limits, the registers, the input voltage and the members leaves the requested cap (15 R525, R536). -/
theorem Keeps.reqCap {ws : List Field} {s t : State} (h : Keeps ws s t) (hg : Field.glb ∉ ws := by decide)
    (hi : Field.ivory ∉ ws := by decide) (hb : Field.boot ∉ ws := by decide) (hp : Field.pwr ∉ ws := by decide)
    (hr : Field.regs ∉ ws := by decide) : t.reqCap = s.reqCap := by
  have hglb := h.part .glb hg
  have hivory := h.part .ivory hi
  have hboot := h.part .boot hb
  have hpwr := h.part .pwr hp
  have hregs := h.part .regs hr
  unfold State.reqCap State.share State.ownCap State.vinCap State.group State.criticalPath State.groupShift State.origin32 State.regFld State.reg
  rw [hglb, hivory, hboot, hpwr, hregs]

/-- No group, no other member's divider (15 R534). -/
theorem mayRise_alone {s : State} (h : s.group = 0) : s.mayRise = true := by
  unfold State.mayRise State.othersDiv
  simp [h]

/-! ## The loops -/

/-- The fast loop raises the idle level (15 R526). -/
theorem execFastLoopTick_raises (s : State) (watts : Nat) (hqual : s.devQual = false) (hheld : s.arraysHeld = false)
    (hover : s.overCap watts = true) : ∃ t,
    exec (.fastLoopTick watts) s = .next t ∧ t.pwr.idle = min 7 (s.pwr.idle + 1) ∧ t.pwr.div = s.pwr.div :=
  ⟨_, congrArg Host.Outcome.next ((if_neg (by simp [hqual, hheld])).trans (if_pos hover)), rfl, rfl⟩

/-- The fast loop lowers the idle level more than 5 % below the cap (15 R526). -/
theorem execFastLoopTick_lowers (s : State) (watts : Nat) (hqual : s.devQual = false) (hheld : s.arraysHeld = false)
    (hcool : s.thermal = false) (hunder : 100 * watts < 95 * s.effCap) (hlowered : s.pwr.lowered = false) : ∃ t,
    exec (.fastLoopTick watts) s = .next t ∧ t.pwr.idle = s.pwr.idle - 1 ∧ t.pwr.div = s.pwr.div := by
  have hover : s.overCap watts = false := by
    unfold State.overCap
    rw [hcool, Bool.or_false, decide_eq_false_iff_not]
    omega
  exact ⟨_, congrArg Host.Outcome.next ((if_neg (by simp [hqual, hheld])).trans ((if_neg (by simp [hover])).trans
    ((if_neg (by simp [hunder])).trans (if_neg (by simp [hlowered]))))), rfl, rfl⟩

/-- The fast loop does not step at the qualification point or during a brake (15 R524, R538). -/
theorem execFastLoopTick_rests (s : State) (watts : Nat) (hrest : s.devQual = true ∨ s.arraysHeld = true) : ∃ t,
    exec (.fastLoopTick watts) s = .next t ∧ t = s :=
  ⟨_, congrArg Host.Outcome.next (if_pos (by simpa using hrest)), rfl⟩

/-- What the slow loop measures (15 R543, R548). -/
def State.metered (s : State) (watts vin : Nat) : State :=
  (s.withPwr { s.pwr with watts := watts % 65536, energy := (s.pwr.energy + 1000 * watts) % 2 ^ 64 }).withBoot
    { s.boot with vin := vin % 65536, vinLow := decide (vin < 32000), vinHigh := decide (40000 < vin) }

/-- What the slow loop counts, tick by tick (15 R526). -/
def State.counts (s : State) (watts vin : Nat) : State :=
  (s.metered watts vin).withPwr { (s.metered watts vin).pwr with
    idleHigh := if 0 < s.pwr.idle then min 100 (s.pwr.idleHigh + 1) else 0
    idleZero := if s.pwr.idle = 0 ∧ 100 * watts ≤ 92 * (s.metered watts vin).effCap then min 100 (s.pwr.idleZero + 1) else 0
    sinceStep := min 100 (s.pwr.sinceStep + 1) }

/-- The slow loop in Slate and Umber measures, counts and may step (15 R526). -/
theorem execSlowLoopTick_slate (s : State) (watts vin : Nat) (hqual : s.devQual = false) (hheld : s.arraysHeld = false)
    (hmode : s.mode ≠ 0) : exec (.slowLoopTick watts vin) s = .next (slowSlate (s.counts watts vin)) :=
  congrArg Host.Outcome.next ((if_neg (by simp [hqual, hheld])).trans (if_neg hmode))

/-- What an event after the measurements reports is reported from before them. -/
theorem counts_reports {s t : State} {watts vin : Nat} {e : EvItem} (h : (s.counts watts vin).reports t e) : s.reports t e := h

/-- The slow loop raises the divider once the idle level has stood for 100 ms (15 R526). -/
theorem execSlowLoopTick_slows (s : State) (watts vin : Nat) (hqual : s.devQual = false) (hheld : s.arraysHeld = false)
    (hmode : s.mode ≠ 0) (hidle : 0 < s.pwr.idle) (hhigh : 99 ≤ s.pwr.idleHigh) (hsince : 99 ≤ s.pwr.sinceStep) (hdiv : s.pwr.div < 96) :
    ∃ t, exec (.slowLoopTick watts vin) s = .next t ∧ t.pwr.div = s.pwr.div + 1 ∧ t.pwr.lowered = true ∧ t.pwr.watts = watts % 65536 ∧
    s.reports t (ev 0x61 none (s.pwr.div + 1) []) := by
  let u := s.counts watts vin
  have hne : s.pwr.div + 1 ≠ u.pwr.div := Nat.succ_ne_self _
  have hstep : slowSlate u = (setDiv (s.pwr.div + 1) u).withPwr { (setDiv (s.pwr.div + 1) u).pwr with lowered := true } := by
    have hidleHigh : u.pwr.idleHigh = 100 := (if_pos hidle).trans (by omega)
    have hsinceStep : u.pwr.sinceStep = 100 := show min 100 (s.pwr.sinceStep + 1) = 100 by omega
    have hbound : u.pwr.div < 96 := hdiv
    exact if_pos (by simp [hidleHigh, hsinceStep, hbound])
  obtain ⟨v, seen, hpwr⟩ := setDiv_pwr hne
  refine ⟨_, execSlowLoopTick_slate s watts vin hqual hheld hmode, ?_⟩
  rw [show slowSlate (s.counts watts vin) = _ from hstep]
  refine ⟨?_, rfl, ?_, counts_reports (watts := watts) (vin := vin) (setDiv_reports hne)⟩
  · rw [State.withPwr_pwr, hpwr]
  · rw [State.withPwr_pwr, hpwr]
    rfl

/-- The slow loop lowers the divider once the power has stood 8 % below the cap for 100 ms (15 R526). -/
theorem execSlowLoopTick_speeds (s : State) (watts vin : Nat) (hqual : s.devQual = false) (hheld : s.arraysHeld = false)
    (hmode : s.mode ≠ 0) (hidle : s.pwr.idle = 0) (hvin : vin < 65536)
    (hlow : 100 * watts ≤ 92 * (s.withBoot { s.boot with vin := vin }).effCap) (hzero : 99 ≤ s.pwr.idleZero)
    (hsince : 99 ≤ s.pwr.sinceStep) (hset : s.setpoint < s.pwr.div) (hcool : s.thermal = false) (hgroup : s.group = 0) :
    ∃ t, exec (.slowLoopTick watts vin) s = .next t ∧ t.pwr.div = s.pwr.div - 1 ∧ s.reports t (ev 0x61 none (s.pwr.div - 1) []) := by
  let u := s.counts watts vin
  have hcap : (s.metered watts vin).effCap = (s.withBoot { s.boot with vin := vin }).effCap := by
    unfold State.metered
    rw [Nat.mod_eq_of_lt hvin]
    rfl
  have hne : s.pwr.div - 1 ≠ u.pwr.div := show s.pwr.div - 1 ≠ s.pwr.div by omega
  have hstep : slowSlate u = setDiv (s.pwr.div - 1) u := by
    have hidleHigh : u.pwr.idleHigh = 0 := if_neg (by omega)
    have hidleZero : u.pwr.idleZero = 100 := (if_pos ⟨hidle, hcap ▸ hlow⟩).trans (by omega)
    have hsinceStep : u.pwr.sinceStep = 100 := show min 100 (s.pwr.sinceStep + 1) = 100 by omega
    have hsetpoint : u.setpoint < u.pwr.div := hset
    have hthermal : u.thermal = false := hcool
    have hrise : u.mayRise = true := mayRise_alone hgroup
    unfold slowSlate
    rw [if_neg (by simp [hidleHigh]), if_pos (by simp [hidleZero, hsinceStep, hsetpoint, hthermal, hrise])]
    rfl
  obtain ⟨v, seen, hpwr⟩ := setDiv_pwr hne
  refine ⟨_, execSlowLoopTick_slate s watts vin hqual hheld hmode, ?_⟩
  rw [show slowSlate (s.counts watts vin) = _ from hstep]
  exact ⟨by rw [hpwr], counts_reports (watts := watts) (vin := vin) (setDiv_reports hne)⟩

/-- At the qualification point and during a brake the slow loop measures only (15 R524, R538). -/
theorem execSlowLoopTick_rests (s : State) (watts vin : Nat) (hrest : s.devQual = true ∨ s.arraysHeld = true) : ∃ t,
    exec (.slowLoopTick watts vin) s = .next t ∧
    t.pwr = { s.pwr with watts := watts % 65536, energy := (s.pwr.energy + 1000 * watts) % 2 ^ 64 } ∧
    t.boot = { s.boot with vin := vin % 65536, vinLow := decide (vin < 32000), vinHigh := decide (40000 < vin) } :=
  ⟨_, congrArg Host.Outcome.next (if_pos (by simpa using hrest)), rfl, rfl⟩

/-! ## The floor -/

/-- A requested cap below the floor makes the floor the cap (15 R529). -/
theorem execFloorRecompute_bounds (s : State) (floor : Nat) (hfloor : floor < 65536) (hreq : s.reqCap < floor)
    (hbelow : s.pwr.belowFloor = false) : ∃ t,
    exec (.floorRecompute floor) s = .next t ∧ t.pwr.floor = floor ∧ t.pwr.belowFloor = true ∧ t.pwr.floorSeen = true ∧
    t.effCap = floor ∧ s.reports t (ev 0x60 none floor []) := by
  let u := s.withPwr { s.pwr with floor := floor, belowFloor := true, floorSeen := true, floorOk := 0 }
  have heq : exec (.floorRecompute floor) s = .next (post (ev 0x60 none floor []) u) := by
    show execFloorRecompute floor s = _
    unfold execFloorRecompute
    rw [Nat.mod_eq_of_lt hfloor]
    exact congrArg Host.Outcome.next ((if_pos hreq).trans (if_neg (by simp [hbelow])))
  have hkeeps := post_keeps (ev 0x60 none floor []) u (Keeps.rfl' _ u) (Within.rfl' _)
  have hpwr := hkeeps.same .pwr
  have hcap : (post (ev 0x60 none floor []) u).reqCap = s.reqCap := hkeeps.reqCap
  refine ⟨_, heq, ?_, ?_, ?_, ?_, post_reports _ u rfl⟩
  · rw [hpwr]; rfl
  · rw [hpwr]; rfl
  · rw [hpwr]; rfl
  · unfold State.effCap
    rw [hpwr, hcap]
    exact (if_pos rfl).trans (Nat.max_eq_right (Nat.le_of_lt hreq))

/-- BELOW_FLOOR clears once the requested cap has stood at the floor for 100 ms (15 R529). -/
theorem execFloorRecompute_frees (s : State) (floor : Nat) (hfloor : floor < 65536) (hreq : floor ≤ s.reqCap)
    (hok : 99 ≤ s.pwr.floorOk) : ∃ t,
    exec (.floorRecompute floor) s = .next t ∧ t.pwr.floor = floor ∧ t.pwr.belowFloor = false ∧ t.hfifo = s.hfifo := by
  have heq : exec (.floorRecompute floor) s =
      .next (s.withPwr { s.pwr with floor := floor, belowFloor := false, floorOk := 100 }) := by
    show execFloorRecompute floor s = _
    unfold execFloorRecompute
    rw [Nat.mod_eq_of_lt hfloor]
    exact congrArg Host.Outcome.next ((if_neg (Nat.not_lt.mpr hreq)).trans (if_pos (by omega)))
  exact ⟨_, heq, rfl, rfl, rfl⟩

/-! ## Registers -/

/-- The core dies step to the divider of their setpoint one after another; the arithmetic divider and the registers stay. -/
theorem coreDies_toSetpoint (d : Nat) (l : List Nat) (s : State) (hset : s.coreSetpoint = d) (hwf : wfTable {} s.cdie = true) :
    (l.foldl (fun st i => moveCoreDiv i st.coreSetpoint st) s).pwr.div = s.pwr.div ∧
    (l.foldl (fun st i => moveCoreDiv i st.coreSetpoint st) s).regs = s.regs ∧
    ∀ k, (k ∈ l ∨ (s.cdieOf k).div = d) → ((l.foldl (fun st i => moveCoreDiv i st.coreSetpoint st) s).cdieOf k).div = d := by
  induction l generalizing s with
  | nil => exact ⟨rfl, rfl, fun k hk => by simpa using hk⟩
  | cons i l ih =>
    have hregs : (moveCoreDiv i d s).regs = s.regs := (moveCoreDiv_keeps i d s (Keeps.rfl' _ s) (Within.rfl' _)).same .regs
    have hnext : (moveCoreDiv i d s).coreSetpoint = d := by
      unfold State.coreSetpoint State.mode State.regFld State.reg at hset ⊢
      rw [hregs, hset]
    obtain ⟨hdiv, hwf1⟩ := moveCoreDiv_div i d s hwf
    obtain ⟨v, hv⟩ := moveCoreDiv_pwr i d s
    rw [List.foldl_cons, hset]
    obtain ⟨ihdiv, ihregs, ihdies⟩ := ih _ hnext hwf1
    refine ⟨ihdiv.trans (by rw [hv]), ihregs.trans hregs, fun k hk => ihdies k ?_⟩
    by_cases hik : k = i
    · exact .inr (hik ▸ hdiv)
    · refine hk.imp (fun h => (List.mem_cons.mp h).resolve_left hik) (fun h => ?_)
      rw [moveCoreDiv_others i d k s hik]
      exact h

/-- From Slate to Umber: the clocks start from Umber's setpoints (15 R523, R545). -/
theorem execPwrCtlWrite_umber (s : State) (who : Agent) (v : Word) (hgate : s.hostGate who = true) (hwho : isPf0OrCore who = true)
    (hqual : s.devQual = false) (hmode : s.mode = 1) (hv : v &&& 0x3#64 = 2#64) (hgroup : s.group = 0) (hwf : wfTable {} s.cdie = true) :
    ∃ t, exec (.pwrCtlWrite who v) s = .next t ∧ t.reg 0x0500000 = 2#64 ∧ t.pwr.div = 63 ∧ ∀ d < 4, (t.cdieOf d).div = 32 := by
  let u := s.setReg 0x0500000 2#64
  have hreg : u.reg 0x0500000 = 2#64 := look_put_new _ _ _ (by decide)
  have humode : u.mode = 2 := by
    unfold State.mode State.regFld
    rw [hreg]
    rfl
  have hugroup : u.group = 0 := by
    unfold State.group State.regFld at hgroup ⊢
    rw [show u.reg 0x0500030 = s.reg 0x0500030 from s.reg_setReg_ne _ _ _ (by decide), hgroup]
  have hothers : u.othersDiv = 0 := by
    unfold State.othersDiv
    simp [hugroup]
  have hsetpoint : max u.setpoint u.othersDiv = 63 := by
    unfold State.setpoint
    rw [humode, hothers]
    rfl
  have heq : exec (.pwrCtlWrite who v) s = .next (toSetpoint u) := by
    show Host.Outcome.next (pfWrite who 0x0500000 _ s) = _
    rw [pfWrite_performed hgate hwho, hv]
    exact congrArg Host.Outcome.next (if_neg (by simp [u, humode, hmode, hqual] at *))
  have hmove := moveDiv_keeps 63 u (Keeps.rfl' _ u) (Within.rfl' _)
  have hcore : (moveDiv 63 u).coreSetpoint = 32 := by
    have hsame : (moveDiv 63 u).mode = u.mode := by
      unfold State.mode State.regFld State.reg
      rw [hmove.same .regs]
    unfold State.coreSetpoint
    rw [hsame, humode]
    rfl
  obtain ⟨w, hw⟩ := moveDiv_pwr 63 u
  obtain ⟨hdiv, hregs, hdies⟩ := coreDies_toSetpoint 32 (List.range 4) (moveDiv 63 u) hcore (by rw [hmove.same .cdie]; exact hwf)
  refine ⟨_, heq, ?_⟩
  unfold toSetpoint
  rw [hsetpoint]
  refine ⟨?_, hdiv.trans (by rw [hw]), fun d hd => hdies d (.inl (List.mem_range.mpr hd))⟩
  unfold State.reg
  rw [hregs, hmove.same .regs]
  exact hreg

/-- PF0 and the cores set the cap (15 R546). -/
theorem execPwrCapWrite_sets (s : State) (who : Agent) (v : Word) (hgate : s.hostGate who = true) (hwho : isPf0OrCore who = true) :
    ∃ t, exec (.pwrCapWrite who v) s = .next t ∧ t.regs = (s.setReg 0x0500008 (v &&& 0xFFFF#64)).regs :=
  ⟨_, congrArg Host.Outcome.next (pfWrite_performed hgate hwho _ _), rfl⟩

/-- A write of a VF to a register of PF0 is refused (18 R613). -/
theorem pfWrite_refused {who : Agent} {s : State} (hgate : s.hostGate who = true) (hwho : isPf0OrCore who = false) (off : Nat)
    (k : State → State) : pfWrite who off k s = setupRefused who off s := by
  unfold pfWrite
  rw [if_neg (by simp [hgate]), if_neg (by simp [hwho])]

/-- A VF does not set the cap (15 R546; 18 R613). -/
theorem execPwrCapWrite_refuses (s : State) (who : Agent) (v : Word) (hgate : s.hostGate who = true) (hwho : isPf0OrCore who = false) :
    ∃ t, exec (.pwrCapWrite who v) s = .next t ∧ t.regs = s.regs ∧ s.reports t (ev 0x80 none (whoArg who) [0x0500008]) :=
  ⟨_, congrArg Host.Outcome.next (pfWrite_refused hgate hwho _ _),
    (setupRefused_keeps who 0x0500008 s (Keeps.rfl' _ s) (Within.rfl' _)).same .regs, post_reports _ s rfl⟩

/-- Settles O48, row by row. -/
theorem powerLoops : Obligations.PowerLoops :=
  ⟨execFastLoopTick_raises, execFastLoopTick_lowers, execFastLoopTick_rests, execSlowLoopTick_slows, execSlowLoopTick_speeds,
    execSlowLoopTick_rests, execFloorRecompute_bounds, execFloorRecompute_frees, execPwrCtlWrite_umber, execPwrCapWrite_sets,
    execPwrCapWrite_refuses⟩

end Sys2Proof.Machine
end

section
/-!
O35. A completion on a router whose table lists a source twice: freeing the first entry makes it the default one, which a table does not
list, and the second entry, which is pending, is what the source reads as now.
-/
namespace Sys2Proof.Machine

set_option Elab.async false

/-- Source 1 of die 0 is listed twice: active on core 0 and nothing else, then pending. Its PRI is 5 and its TARGET is core 0. -/
def sourceListedTwice : State :=
  { State.reset with
    cdie := [(0, { router := { src := [(1, { active := some 0 }), (1, { pending := true })] } })]
    regs := [(isrc 0 1, 0x100000005#64)] }

/-- The source is active on core 0 and not pending. -/
theorem sourceListedTwice_active : fld 1#64 11 0 = 1 ∧ (sourceListedTwice.srcOf (0 / 32) 1).active = some (0 % 32) ∧
    (sourceListedTwice.srcOf (0 / 32) 1).pending = false := by
  decide +kernel

/-- The completion delivers the source again, and the rotation moves past core 0; freeing the source does neither. -/
theorem evtIclaimWrite_sourceListedTwice : ∃ t, exec (.evtIclaimWrite 0 0 1#64) sourceListedTwice = .next t ∧
    (t.cdieOf 0).router.ptr = 1 ∧
    ((sourceListedTwice.updSrc (0 / 32) 1 (fun x => { x with active := none })).cdieOf 0).router.ptr = 0 :=
  ⟨_, rfl, by decide +kernel⟩

/-- Refutes O35: the clause on the completion of a source that is not pending. -/
theorem not_routerSourcesClaimsAndDelivery : ¬ Obligations.RouterSourcesClaimsAndDelivery := by
  rintro ⟨-, -, -, -, -, -, -, -, -, -, -, -, hcompletion, -⟩
  obtain ⟨hfld, hactive, hidle⟩ := sourceListedTwice_active
  obtain ⟨t, hclause, hcdie⟩ := hcompletion sourceListedTwice 0 1 1#64 hfld hactive hidle
  obtain ⟨u, hexec, hptr, hfreed⟩ := evtIclaimWrite_sourceListedTwice
  obtain rfl := Host.Outcome.next.inj (hexec.symm.trans hclause)
  unfold State.cdieOf at hptr hfreed
  rw [hcdie, hfreed] at hptr
  exact absurd hptr (by decide)

end Sys2Proof.Machine
end

section
/-!
O36. The event FIFOs of the core dies and of the host (11 R400 to R405; 13 R482 to R486; 16 R561).
-/
namespace Sys2Proof.Machine

set_option Elab.async false

/-! ## Core dies -/

/-- A table that lists a value that is no default one is not empty. -/
theorem put_ne_nil {α : Type} [DecidableEq α] {d v : α} (m : FMap α) (k : Nat) (hv : v ≠ d) : put d m k v ≠ [] := fun h => by
  have hlook := look_put_new (d := d) m k v hv
  rw [h] at hlook
  exact hv hlook.symm

/-- A core die that is written, and is no default one, reads as it was written. -/
theorem State.cdieOf_updCdie_same {s : State} {d : Nat} {f : CoreDie → CoreDie} (h : f (s.cdieOf d) ≠ {}) :
    (s.updCdie d f).cdieOf d = f (s.cdieOf d) :=
  look_put_new _ _ _ h

/-- A source that is written, and is no default one, reads as it was written, and the die's FIFO stays. -/
theorem State.srcOf_updSrc_same {s : State} {d n : Nat} {f : Src → Src} (h : f (s.srcOf d n) ≠ {}) :
    (s.updSrc d n f).srcOf d n = f (s.srcOf d n) ∧ ((s.updSrc d n f).cdieOf d).fifo = (s.cdieOf d).fifo := by
  have hdie : (s.updSrc d n f).cdieOf d = { s.cdieOf d with
      router := { (s.cdieOf d).router with src := upd {} (s.cdieOf d).router.src n f } } :=
    State.cdieOf_updCdie_same (f := fun x => { x with router := { x.router with src := upd {} x.router.src n f } })
      (fun e => put_ne_nil _ n h (congrArg (fun x : CoreDie => x.router.src) e))
  unfold State.srcOf
  rw [hdie]
  exact ⟨look_put_new _ n _ h, rfl⟩

/-- A FIFO that an item of an admitted class comes to holds an item or counts one that is withheld. -/
theorem Fifo.post_ne_default {f : Fifo} {mask : Nat} {e : EvItem} (ws : List Word) (hmask : bitOf mask e.cls = false) :
    f.post mask e ws ≠ {} := by
  unfold Fifo.post
  rw [if_neg (by simp [hmask])]
  split
  · intro h
    have hitems := congrArg Fifo.items h
    simp [Fifo.insert] at hitems
  · exact fun h => put_ne_nil f.withheld e.code (Nat.succ_ne_zero _) (congrArg Fifo.withheld h)

/-- A count that goes up by one and stops at its limit is not 0. -/
theorem satAdd_one_pos {hi : Nat} (n : Nat) (h : 0 < hi) : 0 < satAdd hi n 1 := by
  unfold satAdd
  split <;> omega

/-- An event gathers at a source that can fire (11 R394). -/
theorem routerEvent_gathers {d n : Nat} (s : State) (hfires : srcFires n = true) :
    ((routerEvent d n s).srcOf d n).gathered = satAdd 4095 (s.srcOf d n).gathered 1 ∧
      ((routerEvent d n s).cdieOf d).fifo = (s.cdieOf d).fifo := by
  unfold routerEvent
  rw [if_pos hfires]
  obtain ⟨hsrc, hfifo⟩ := State.srcOf_updSrc_same (s := s) (d := d) (n := n) (f := fun x =>
      let g := satAdd 4095 x.gathered 1
      { x with gathered := g, pending := x.pending || decide (max 1 (s.regFld (isrc d n) 31 20) ≤ g) })
    (fun h => Nat.ne_of_gt (satAdd_one_pos _ (by decide)) (congrArg Src.gathered h))
  exact ⟨by rw [hsrc], hfifo⟩

/-- An item of a class that the mask admits is inserted or withheld, and an insertion is an event of its priority's source (11 R393, R400,
R401; 16 R561). -/
theorem execCoreFifoInsert_posts (s : State) (die : Nat) (e : EvItem) (hpri : e.pri < 4)
    (hmask : bitOf (s.regFld (cctl die) 47 32) e.cls = false) : ∃ t, exec (.coreFifoInsert die e) s = .next t ∧
    (t.cdieOf die).fifo = (s.cdieOf die).fifo.post (s.regFld (cctl die) 47 32) e (evWords s.time e) ∧
    ((s.cdieOf die).fifo.takes (s.regFld (cctl die) 47 32) e = true →
      (t.srcOf die (256 + e.pri)).gathered = satAdd 4095 (s.srcOf die (256 + e.pri)).gathered 1) ∧ t.hfifo = s.hfifo := by
  refine ⟨postCore die e s, rfl, ?_⟩
  unfold postCore
  extract_lets mask s1
  have h1 : s1.cdieOf die = { s.cdieOf die with fifo := (s.cdieOf die).fifo.post mask e (evWords s.time e) } :=
    State.cdieOf_updCdie_same (fun h => Fifo.post_ne_default (evWords s.time e) hmask (congrArg CoreDie.fifo h))
  have hfires : srcFires (256 + e.pri) = true := by simp [srcFires]; omega
  obtain ⟨hgathered, hfifo⟩ := routerEvent_gathers (d := die) s1 hfires
  have hsrc : s1.srcOf die (256 + e.pri) = s.srcOf die (256 + e.pri) := by
    unfold State.srcOf
    rw [h1]
  split
  · refine ⟨by rw [hfifo, h1], fun _ => by rw [hgathered, hsrc], ?_⟩
    exact (routerEvent_keeps die _ s1 (Keeps.rfl' _ s1) (Within.rfl' _)).same .hfifo
  · next h => exact ⟨by rw [h1], fun htakes => absurd htakes h, rfl⟩

/-- An item of a masked class leaves the host's FIFO and memory too (11 R404). -/
theorem execCoreFifoInsert_masked (s : State) (die : Nat) (e : EvItem) (_hmask : bitOf (s.regFld (cctl die) 47 32) e.cls = true) : ∃ t,
    exec (.coreFifoInsert die e) s = .next t ∧ t.hfifo = s.hfifo ∧ t.mem = s.mem :=
  have hkeeps := postCore_keeps die e s (Keeps.rfl' _ s) (Within.rfl' _)
  ⟨postCore die e s, rfl, hkeeps.same .hfifo, hkeeps.same .mem⟩

/-! ## Reading a FIFO -/

/-- A reader whose item is open takes its next word (11 R402; 13 R483). -/
theorem Fifo.pop_open {f : Fifo} {reader : Nat} {w : Word} {r : List Word} (h : look [] f.opened reader = w :: r) :
    f.pop reader = (w, { f with opened := put [] f.opened reader r }) := by
  unfold Fifo.pop
  rw [h]

/-- A reader without an open item opens the next one (11 R402; 13 R483). -/
theorem Fifo.pop_next {f : Fifo} {reader : Nat} {w : Word} {r : List Word} (h : look [] f.opened reader = [])
    (hitem : firstItem f.items = some (w :: r)) : f.pop reader =
      (w, { f with items := dropFirst (fun i => i == w :: r) f.items, opened := put [] f.opened reader r }) := by
  unfold Fifo.pop
  rw [h]
  dsimp only
  rw [hitem]

/-- An empty FIFO reads 0 (11 R402; 13 R483). -/
theorem Fifo.pop_empty {f : Fifo} {reader : Nat} (h : look [] f.opened reader = []) (hitems : f.items = []) :
    f.pop reader = (0#64, f) := by
  unfold Fifo.pop
  rw [h]
  dsimp only
  rw [hitems]
  rfl

/-- A read of a die's FIFO answers the word and leaves the FIFO that the read leaves (11 R402). -/
theorem execEvtCpopRead_eq {s : State} {core die : Nat} {w : Word} {f : Fifo} (h : (s.cdieOf die).fifo.pop core = (w, f)) :
    exec (.evtCpopRead core die) s = .next (reply (.core core) (cpop die) w (s.updCdie die (fun x => { x with fifo := f }))) := by
  show execEvtCpopRead core die s = _
  unfold execEvtCpopRead
  rw [h]

theorem execEvtCpopRead_open (s : State) (core die : Nat) (w : Word) (r : List Word)
    (hopen : look [] (s.cdieOf die).fifo.opened core = w :: r) :
    ∃ t, exec (.evtCpopRead core die) s = .next t ∧ t.replies = s.replies ++ [⟨.core core, cpop die, w, false⟩] ∧
    t.cdie = upd {} s.cdie die (fun x => { x with fifo := { x.fifo with opened := put [] x.fifo.opened core r } }) :=
  ⟨_, execEvtCpopRead_eq (Fifo.pop_open hopen), rfl, rfl⟩

theorem execEvtCpopRead_next (s : State) (core die : Nat) (w : Word) (r : List Word)
    (hopen : look [] (s.cdieOf die).fifo.opened core = []) (hitem : firstItem (s.cdieOf die).fifo.items = some (w :: r)) :
    ∃ t, exec (.evtCpopRead core die) s = .next t ∧ t.replies = s.replies ++ [⟨.core core, cpop die, w, false⟩] ∧
    t.cdie = upd {} s.cdie die (fun x => { x with fifo := { x.fifo with
      items := dropFirst (fun i => i == w :: r) x.fifo.items, opened := put [] x.fifo.opened core r } }) :=
  ⟨_, execEvtCpopRead_eq (Fifo.pop_next hopen hitem), rfl, rfl⟩

theorem execEvtCpopRead_empty (s : State) (core die : Nat) (hopen : look [] (s.cdieOf die).fifo.opened core = [])
    (hitems : (s.cdieOf die).fifo.items = []) :
    ∃ t, exec (.evtCpopRead core die) s = .next t ∧ t.replies = s.replies ++ [⟨.core core, cpop die, 0, false⟩] :=
  ⟨_, execEvtCpopRead_eq (Fifo.pop_empty hopen hitems), rfl⟩

/-- A read of EVT_POP takes the next item's first word (13 R483). -/
theorem execEvtPopRead_next (s : State) (who : Agent) (w : Word) (r : List Word) (hgate : s.hostGate who = true)
    (hwho : isPf0OrCore who = true) (hopen : look [] s.hfifo.opened 0 = []) (hitem : firstItem s.hfifo.items = some (w :: r)) : ∃ t,
    exec (.evtPopRead who) s = .next t ∧ t.replies = s.replies ++ [⟨who, 0x0400000, w, false⟩] ∧
    t.hfifo = { s.hfifo with items := dropFirst (fun i => i == w :: r) s.hfifo.items, opened := put [] s.hfifo.opened 0 r } := by
  have heq : exec (.evtPopRead who) s = .next (let (w, f) := s.hfifo.pop 0; reply who 0x0400000 w (s.withHfifo f)) :=
    congrArg Host.Outcome.next (if_pos (by simp [hgate, hwho]))
  rw [Fifo.pop_next hopen hitem] at heq
  exact ⟨_, heq, rfl, rfl⟩

/-- A VF reads 0 (18 R613). -/
theorem execEvtPopRead_vf (s : State) (who : Agent) (hwho : isPf0OrCore who = false) : ∃ t,
    exec (.evtPopRead who) s = .next t ∧ t.replies = s.replies ++ [⟨who, 0x0400000, 0, false⟩] ∧ t.hfifo = s.hfifo := by
  cases who with
  | host fn => exact ⟨_, congrArg Host.Outcome.next (if_neg (by simp [hwho])), rfl, rfl⟩
  | core c => cases hwho

/-! ## The end of a second -/

/-- The summaries of the core dies leave the host's FIFO. -/
theorem eventSecondEnd_hfifo (s : State) : ∃ t, exec (.eventSecondEnd) s = .next t ∧
    t.hfifo = (s.hfifo.withheld.foldl (fun st c => postHost (ev 0x0F none c.2 [c.1]) st)
      (s.withHfifo { s.hfifo with posted := [], withheld := [] })).hfifo := by
  refine ⟨_, rfl, ?_⟩
  refine foldl_inv (fun t : State => t.hfifo = _) _ (fun t d ht => ?_) _ _ rfl
  exact foldl_inv (fun u : State => u.hfifo = _) _ (fun u c hu => (postCore_hfifo d _ u).trans hu) _ _ ht

/-- Settles O36, row by row. -/
theorem eventFifos : Obligations.EventFifos := by
  refine ⟨execCoreFifoInsert_posts, execCoreFifoInsert_masked, execEvtCpopRead_open, execEvtCpopRead_next, execEvtCpopRead_empty,
    fun s core die hcore => ⟨_, congrArg Host.Outcome.next (if_pos hcore), rfl⟩, fun s core die => ⟨_, rfl, rfl, rfl⟩, fun s e => ?_,
    execEvtPopRead_next, execEvtPopRead_vf, fun s who hgate hwho => ?_, fun s who hgate hwho => ?_, fun s hhost _ => ?_,
    fun s c n hhost => ?_⟩
  · have hkeeps := postHost_keeps e s (Keeps.rfl' _ s) (Within.rfl' _)
    exact ⟨postHost e s, rfl, postHost_hfifo e s, hkeeps.same .cdie, hkeeps.same .mem⟩
  · exact ⟨_, congrArg Host.Outcome.next (pfWrite_performed hgate hwho _ _), rfl⟩
  · exact ⟨_, congrArg Host.Outcome.next (if_pos (by simp [hgate, hwho])), rfl, rfl⟩
  · obtain ⟨t, hexec, hfifo⟩ := eventSecondEnd_hfifo s
    refine ⟨t, hexec, ?_⟩
    rw [hfifo, hhost]
    exact congrArg (fun l => { s.hfifo with posted := [], withheld := l }) hhost.symm
  · obtain ⟨t, hexec, hfifo⟩ := eventSecondEnd_hfifo s
    refine ⟨t, hexec, ?_⟩
    rw [hfifo, hhost]
    exact postHost_hfifo _ _

end Sys2Proof.Machine
end

section
/-!
O34. A tag error at a die one of whose cores is listed twice: ending the reservation of the first entry makes it the default one, which a
table does not list, and the second entry, with its reservation, is what the core reads as now.
-/
namespace Sys2Proof.Machine

set_option Elab.async false

/-- The line of sector 0 that die 0 holds, clean. -/
def cleanLine : CLine := ⟨.e, [], false⟩

/-- Die 0 holds sector 0 clean, and core 0 is listed twice, with a reservation on the sector each time and nothing else. -/
def coreListedTwice : State :=
  { State.reset with cdie := [(0, { lines := [(0, some cleanLine)] })], core := [(0, { lsr := some 0 }), (0, { lsr := some 0 })] }

/-- The tag error of the clean way leaves a reservation. -/
theorem cacheTagError_coreListedTwice : ∃ t, exec (.cacheTagError 0 0) coreListedTwice = .next t ∧ (t.coreOf 0).lsr = some 0 :=
  ⟨_, rfl, by decide +kernel⟩

/-- Refutes O34: the clause on the tag error of a clean way. -/
theorem not_coreFencesAndErrors : ¬ Obligations.CoreFencesAndErrors := by
  rintro ⟨-, -, -, -, -, -, -, -, -, -, -, htag, -⟩
  obtain ⟨t, hclause, -, hlost⟩ := htag coreListedTwice 0 0 cleanLine rfl (by decide)
  obtain ⟨u, hexec, hkept⟩ := cacheTagError_coreListedTwice
  obtain rfl := Host.Outcome.next.inj (hexec.symm.trans hclause)
  exact hlost 0 (by decide) hkept

end Sys2Proof.Machine
end

section
/-!
Start-up (17 R576 to R579), and O1 and O2.
-/
namespace Sys2Proof.Machine

set_option Elab.async false

/-! ## The step of start-up -/

/-- A start-up in step n is at step n. -/
theorem atStep_of_phase {s : State} {n : Nat} (h : s.boot.phase = .step n) : s.atStep n = true := by
  rw [State.atStep, h]
  exact beq_self_eq_true _

/-- Start-up that goes to a step is in it. -/
@[simp] theorem toStep_phase (n : Nat) (s : State) : (toStep n s).boot.phase = .step n := rfl

/-- The recorded values of the setup registers leave the boot state. -/
theorem applyRecorded_boot (s : State) : (applyRecorded s).boot = s.boot :=
  (applyRecorded_keeps s (Keeps.rfl' _ s) (Within.rfl' _)).same .boot

/-- The mode of a start leaves the boot state. -/
theorem takeMode_boot (s : State) : (takeMode s).boot = s.boot := rfl

/-- The Ivory firmware that starts runs the image in flash (17 R585). -/
theorem ivoryStarts_running (s : State) : (ivoryStarts s).ivory.running = s.ivory.flash := by
  have hpost : ∀ e u, (post e u).ivory = u.ivory := fun e u => (post_keeps e u (Keeps.rfl' _ u) (Within.rfl' _)).same .ivory
  unfold ivoryStarts setDebug
  dsimp only
  split
  · split
    · rfl
    · rw [hpost]
      rfl
  · rfl

/-- A site's regulators turning on leave the step of start-up. -/
theorem railOn_phase (p : Nat) (s : State) : (railOn p s).boot.phase = s.boot.phase := rfl

/-- The sites whose regulators turn on, all but the failed ones, leave the step of start-up and the rail. -/
theorem railsOn_boot (ports : List Nat) (s : State) :
    (ports.foldl (fun st p => if st.siteFailed p then st else railOn p st) s).boot.phase = s.boot.phase ∧
    (ports.foldl (fun st p => if st.siteFailed p then st else railOn p st) s).boot.rail = s.boot.rail :=
  foldl_inv (fun t : State => t.boot.phase = s.boot.phase ∧ t.boot.rail = s.boot.rail) _
    (fun t p ⟨hphase, hrail⟩ => by
      split
      · exact ⟨hphase, hrail⟩
      · exact ⟨hphase, hrail⟩) ports s ⟨rfl, rfl⟩

/-! ## The steps to the trained links -/

/-- POWER_UP_START with the input voltage in its range (R576, R580). -/
theorem execPowerUpStart_steps {s : State} {vin : Nat} (hoff : s.boot.phase = .off) (htrip : s.boot.thermtrip = false)
    (hlow : 32000 ≤ vin) (hhigh : vin ≤ 40000) :
    ∃ t, exec (.powerUpStart vin) s = .next t ∧ t.boot.phase = .step 1 ∧ t.boot.vin = vin := by
  refine ⟨_, congrArg Host.Outcome.next (if_pos (by simp [hoff, htrip, hlow, hhigh])), ?_⟩
  rw [takeMode_boot, applyRecorded_boot]
  exact ⟨rfl, rfl⟩

/-- BOOT_ROM_LOADED: the image goes on, leads into recovery, or the manifest stops start-up (R576, R586, R23). -/
theorem execBootRomLoaded_steps {s : State} (img : Option FwImage) (hstep : s.boot.phase = .step 1) :
    ∃ t, exec (.bootRomLoaded img) s = .next t ∧
    t.ivory.flash = img ∧ (manifestOk s.glb.manifest = true → imgReason s.ivory.fusedSvn img = 0 →
    t.boot.phase = .step 2) ∧ (manifestOk s.glb.manifest = true → imgReason s.ivory.fusedSvn img ≠ 0 →
    t.boot.phase = .recovery ∧ t.glb.recState = 1 ∧ t.glb.recReason = imgReason s.ivory.fusedSvn img) ∧
    (manifestOk s.glb.manifest = false → t.boot.manifestFault = true ∧ t.glb.recState = 3) := by
  refine ⟨_, congrArg Host.Outcome.next (if_neg (by simp [atStep_of_phase hstep])), ?_⟩
  dsimp only
  split
  · next hbad =>
    simp only [Bool.not_eq_true'] at hbad
    simp [hbad, mgmtReply]
  · next hok =>
    simp only [Bool.not_eq_true', Bool.not_eq_false] at hok
    split
    · next hreason =>
      have hreason : imgReason s.ivory.fusedSvn img ≠ 0 := by simpa using hreason
      simp [hok, hreason, enterRecovery]
    · next hreason =>
      have hreason : imgReason s.ivory.fusedSvn img = 0 := by simpa using hreason
      simp [hok, hreason, toStep]

/-- IMAGE_VERIFIED starts the firmware (R576, R585). -/
theorem execImageVerified_steps {s : State} (hstep : s.boot.phase = .step 2) :
    ∃ t, exec (.imageVerified) s = .next t ∧ t.boot.phase = .step 3 ∧ t.ivory.running = s.ivory.flash :=
  ⟨_, congrArg Host.Outcome.next (if_pos (atStep_of_phase hstep)), rfl, ivoryStarts_running s⟩

/-- PACKAGE_RAIL_UP (R576, R29). -/
theorem execPackageRailUp_steps {s : State} (hstep : s.boot.phase = .step 4) :
    ∃ t, exec (.packageRailUp) s = .next t ∧ t.boot.phase = .step 5 ∧ t.boot.rail = true := by
  refine ⟨_, congrArg Host.Outcome.next (if_pos (atStep_of_phase hstep)), ?_⟩
  obtain ⟨hphase, hrail⟩ := railsOn_boot (List.range 64) (toStep 5 (s.withBoot { s.boot with rail := true }))
  rw [hphase, hrail]
  exact ⟨rfl, rfl⟩

/-- RING_CALIBRATION_DONE (R576). -/
theorem execRingCalibrationDone_steps {s : State} (hstep : s.boot.phase = .step 6) :
    ∃ t, exec (.ringCalibrationDone) s = .next t ∧ t.boot.phase = .step 7 :=
  ⟨_, congrArg Host.Outcome.next (if_pos (atStep_of_phase hstep)), foldl_phase _ (fun t p => by split <;> rfl) _ _⟩

/-- Settles O1: each command in its step; what it does beside the step leaves the step as it is. -/
theorem powerUpSteps : Obligations.PowerUpSteps := by
  refine ⟨fun s vin => execPowerUpStart_steps, fun s img => execBootRomLoaded_steps img, fun s => execImageVerified_steps,
    fun s hstep => ?hostDie, fun s => execPackageRailUp_steps, fun s ok hstep => ?emitter, fun s => execRingCalibrationDone_steps,
    fun s adv hstep => ?links⟩
  case hostDie => exact ⟨_, congrArg Host.Outcome.next (if_pos (atStep_of_phase hstep)), rfl, rfl⟩
  case emitter => exact ⟨_, congrArg Host.Outcome.next (if_pos (atStep_of_phase hstep)), rfl, rfl, rfl⟩
  case links => exact ⟨_, congrArg Host.Outcome.next (if_pos (atStep_of_phase hstep)), trainAll_phase _ _ _⟩

/-! ## The steps to READY -/

/-- The clocks leaving the qualification point leave the boot state and the global state. -/
theorem setReady_parts (s : State) : (setReady s).boot = { s.boot with readyOut := true, phase := .ready } ∧
    (setReady s).glb = { s.glb with ready := true, warmStep := 0 } := by
  have hpoint : ∀ u : State, (readyEvents (toSetpoint u)).boot = u.boot ∧ (readyEvents (toSetpoint u)).glb = u.glb := fun u =>
    have hset := toSetpoint_keeps u (Keeps.rfl' _ u) (Within.rfl' _)
    have hready := readyEvents_keeps (toSetpoint u) (Keeps.rfl' _ _) (Within.rfl' _)
    ⟨(hready.same .boot).trans (hset.same .boot), (hready.same .glb).trans (hset.same .glb)⟩
  unfold setReady
  dsimp only
  rw [(hpoint _).1, (hpoint _).2]
  exact ⟨rfl, rfl⟩

/-- The tier frames that are placed leave the boot state. -/
theorem placeFrames_boot (steps : Nat) (s : State) : (placeFrames steps s).boot = s.boot := by
  rw [placeFrames, State.withMemc_boot]

/-- The tier frames are those of the steps, less what each map-out withdraws (09 R299). -/
theorem placeFrames_frameCount (steps : Nat) (s : State) : (placeFrames steps s).memc.frameCount =
    steps * 65536 - (placeFrames steps s).memc.maps.length * (placeFrames steps s).framesLost := by
  have hactive : (placeFrames steps s).memc.active = s.memc.active := by rw [placeFrames, State.withMemc_memc]
  have hlost : (placeFrames steps s).framesLost = s.framesLost := by
    rw [State.framesLost, State.unitsPerCh, hactive, State.framesLost, State.unitsPerCh]
  rw [hlost, placeFrames, State.withMemc_memc]

/-- HBM_TRAINED places the frames below the map-outs (R576; 09 R299). -/
theorem execHbmTrained_steps {s : State} (failed : List Nat) (hstep : s.boot.phase = .step 9) :
    ∃ t, exec (.hbmTrained failed) s = .next t ∧ t.boot.phase = .step 10 ∧
    t.memc.frameCount = 4 * 65536 - t.memc.maps.length * t.framesLost := by
  refine ⟨_, congrArg Host.Outcome.next (if_pos (atStep_of_phase hstep)), ?_, placeFrames_frameCount _ _⟩
  rw [placeFrames_boot, mapAtStart_phase, toStep_phase]

/-- STARTUP_STOPPED in any step (R579, R588). -/
theorem execStartupStopped_stops {s : State} {n : Nat} (reason : Nat) (hstep : s.boot.phase = .step n) :
    ∃ t, exec (.startupStopped reason) s = .next t ∧ t.boot.phase = .stopped (reason % 16) ∧ t.boot.readyOut = false ∧
    t.glb.recState = 3 ∧ t.glb.recReason = reason % 16 := by
  have hexec : exec (.startupStopped reason) s = .next (mgmtReply (.stopped (reason % 16))
      ((s.withBoot { s.boot with phase := .stopped (reason % 16), readyOut := false }).withGlb
        { s.glb with recState := 3, recReason := reason % 16 })) := by
    show execStartupStopped reason s = _
    rw [execStartupStopped, hstep]
  exact ⟨_, hexec, rfl, rfl, rfl, rfl⟩

/-- Settles O2: dies that fail, links that train and mounts leave the step of start-up. -/
theorem startupToReady : Obligations.StartupToReady := by
  refine ⟨fun s faults hstep => ?tiles, fun s failed => execHbmTrained_steps failed, fun s hstep => ?hbm, fun s a b hstep => ?tier,
    fun s passed hstep => ?cores, fun s hstep hmay => ?ready, fun s n reason => execStartupStopped_stops reason⟩
  case tiles =>
    exact ⟨_, congrArg Host.Outcome.next (if_pos (atStep_of_phase hstep)), foldl_phase _ (fun t f => tileLost_phase _ _ t) _ _⟩
  case hbm => exact ⟨_, congrArg Host.Outcome.next (if_pos (atStep_of_phase hstep)), rfl, rfl⟩
  case tier =>
    exact ⟨_, congrArg Host.Outcome.next (if_pos (atStep_of_phase hstep)), (mountDie_phase _ _ _ _).trans (mountDie_phase _ _ _ _)⟩
  case cores => exact ⟨_, congrArg Host.Outcome.next (if_pos (atStep_of_phase hstep)), runtimeStarts_phase _ _⟩
  case ready =>
    obtain ⟨hboot, hglb⟩ := setReady_parts s
    exact ⟨_, congrArg Host.Outcome.next (if_pos (by rw [atStep_of_phase hstep, hmay]; rfl)),
      congrArg Boot.phase hboot, congrArg Boot.readyOut hboot, congrArg Glb.ready hglb⟩

end Sys2Proof.Machine
end

section
/-!
The seal and the warm reset (18 R616 to R625, 16 R571), and O3. Dies that fail while links train change sites and the tile map, and
leave the step of the warm reset and SEALED.
-/
namespace Sys2Proof.Machine

set_option Elab.async false

/-! ## The step of the warm reset and SEALED -/

/-- The step of a warm reset, and SEALED. -/
def State.warmPart (s : State) : Nat × Bool := (s.glb.warmStep, s.glb.sealed)

/-- An operation that leaves the global state leaves the step of the warm reset and SEALED. -/
theorem Keeps.warmPart {ws : List Field} {s t : State} (h : Keeps ws s t) (hf : Field.glb ∉ ws := by decide) :
    t.warmPart = s.warmPart :=
  congrArg (fun g : Glb => (g.warmStep, g.sealed)) (h.part .glb hf)

/-- A fold of operations that leave the step of the warm reset and SEALED. -/
theorem foldl_warmPart {α : Type} (f : State → α → State) (hf : ∀ s a, (f s a).warmPart = s.warmPart) (l : List α) (s : State) :
    (l.foldl f s).warmPart = s.warmPart :=
  foldl_inv (fun t => t.warmPart = s.warmPart) f (fun t a h => (hf t a).trans h) l s rfl

/-- An event that is posted. -/
theorem post_warmPart (e : EvItem) (s : State) : (post e s).warmPart = s.warmPart :=
  (post_keeps e s (Keeps.rfl' _ s) (Within.rfl' _)).warmPart

/-- A port that is fenced: of the global state, its site changes. -/
theorem fencePort_warmPart (port : Nat) (dead : Bool) (cause : Nat) (s : State) :
    (fencePort port dead cause s).warmPart = s.warmPart := by
  unfold fencePort
  extract_lets toIt left _ s1 s2 s3 sent s4 keep
  have hsays : ∀ p u, (hubSays p u).warmPart = u.warmPart := fun p u => (hubSays_keeps p u (Keeps.rfl' _ u) (Within.rfl' _)).warmPart
  have hfree : ∀ p v u, (freeSlotOf p v u).warmPart = u.warmPart := fun p v u =>
    (freeSlotOf_keeps p v u (Keeps.rfl' _ u) (Within.rfl' _)).warmPart
  have h3 : s3.warmPart = s.warmPart := by
    refine (foldl_warmPart _ (fun t v => ?_) toIt s2).trans rfl
    dsimp only
    split <;> split <;> simp only [hsays, hfree]
  have h4 : s4.warmPart = s.warmPart := (foldl_warmPart _ (fun t o => hsays _ t) _ s3).trans h3
  exact (post_warmPart _ _).trans h4

/-- A port that is fenced if it is not yet. -/
theorem fencedIf_warmPart (port cause : Nat) (s : State) :
    (if s.fenced port then s else fencePort port true cause s).warmPart = s.warmPart := by
  split
  · rfl
  · exact fencePort_warmPart _ _ _ _

/-- A failed die: of the global state, its site changes. -/
theorem dieFailed_warmPart (port cause : Nat) (s : State) : (dieFailed port cause s).warmPart = s.warmPart := by
  unfold dieFailed
  extract_lets s0 _ s1 _ s2 _ s2' s3
  have h0 : s0.warmPart = s.warmPart :=
    ((fenceDead_keeps port _ (Keeps.rfl' _ _) (Within.rfl' _)).warmPart).trans (fencedIf_warmPart port cause s)
  have h2' : s2'.warmPart = s0.warmPart := by
    unfold s2'
    split <;> rfl
  refine (foldl_warmPart _ (fun t (c : Cmd) => (endWith_keeps c.ring c.seq _ t (Keeps.rfl' _ t) (Within.rfl' _)).warmPart) _ s3).trans ?_
  exact (post_warmPart _ _).trans (h2'.trans h0)

/-- A tile that moves to the spare or becomes unbacked: of the global state, the tile map and the spare's site change. -/
theorem spareTile_warmPart (n pos : Nat) (s : State) : (spareTile n pos s).warmPart = s.warmPart := by
  unfold spareTile
  split
  · have hrun : ∀ u, (runVolt 32 u).warmPart = u.warmPart := fun u => (runVolt_keeps 32 u (Keeps.rfl' _ u) (Within.rfl' _)).warmPart
    exact (post_warmPart _ _).trans ((hrun _).trans rfl)
  · exact (post_warmPart _ _).trans rfl

/-- A lost tile. -/
theorem tileLost_warmPart (pos cause : Nat) (s : State) : (tileLost pos cause s).warmPart = s.warmPart := by
  unfold tileLost
  split
  · rfl
  · extract_lets s1 s2
    have hstop : (stopOnTile pos s1).warmPart = s1.warmPart := (stopOnTile_keeps pos s1 (Keeps.rfl' _ s1) (Within.rfl' _)).warmPart
    have h2 : s2.warmPart = s.warmPart :=
      (dieFailed_warmPart pos cause (stopOnTile pos s1)).trans (hstop.trans (fencedIf_warmPart pos cause s))
    split
    · exact (spareTile_warmPart _ _ _).trans h2
    · exact h2

/-- A stack that fails. -/
theorem failStack_warmPart (stack cause : Nat) (s : State) : (failStack stack cause s).warmPart = s.warmPart :=
  ((mirrorLost_keeps stack _ (Keeps.rfl' _ _) (Within.rfl' _)).warmPart).trans (dieFailed_warmPart _ _ _)

/-- A host die that fails. -/
theorem hostFails_warmPart (cause : Nat) (s : State) : (hostFails cause s).warmPart = s.warmPart := by
  unfold hostFails
  split
  · rfl
  · exact (foldl_warmPart _ (fun t f => (detachFn_keeps f t (Keeps.rfl' _ t) (Within.rfl' _)).warmPart) _ _).trans
      (dieFailed_warmPart 57 cause s)

/-- A Ranoa die that fails. -/
theorem ranoaFails_warmPart (die cause : Nat) (s : State) : (ranoaFails die cause s).warmPart = s.warmPart := by
  unfold ranoaFails
  split
  · rfl
  · refine (dieFailed_warmPart _ _ _).trans (foldl_warmPart _ (fun t n => ?_) _ _)
    exact (losePort_keeps n none t (Keeps.rfl' _ t) (Within.rfl' _)).warmPart

/-- A tier die that fails. -/
theorem tierFails_warmPart (die cause : Nat) (s : State) : (tierFails die cause s).warmPart = s.warmPart := by
  unfold tierFails
  split
  · extract_lets mine s1 s2 stuck s3
    have hgo : ∀ u : State, (windowsGo u).warmPart = u.warmPart := fun u => (windowsGo_keeps u (Keeps.rfl' _ u) (Within.rfl' _)).warmPart
    have hframes : s2.warmPart = s.warmPart :=
      (foldl_warmPart _ (fun t (f : Nat × Frame) => (loseFrame_keeps f.1 t (Keeps.rfl' _ t) (Within.rfl' _)).warmPart) mine s1).trans rfl
    rw [hgo, dieFailed_warmPart]
    exact (foldl_warmPart _ (fun t p => (refuseAs_keeps _ p 0x04 t (Keeps.rfl' _ t) (Within.rfl' _)).warmPart) _ _).trans hframes
  · rfl

/-- A die that fails, whatever it is: its site changes, the tile map, and READY where service ends. -/
theorem failDie_warmPart (port cause : Nat) (s : State) : (failDie port cause s).warmPart = s.warmPart := by
  unfold failDie
  split
  · exact tileLost_warmPart _ _ _
  split
  · exact failStack_warmPart _ _ _
  split
  · exact (dieFailed_warmPart _ _ _).trans (poolLost_keeps _ s (Keeps.rfl' _ s) (Within.rfl' _)).warmPart
  split
  · exact dieFailed_warmPart _ _ _
  split
  · exact hostFails_warmPart _ _
  split
  · exact ranoaFails_warmPart _ _ _
  split
  · exact tierFails_warmPart _ _ _
  · exact dieFailed_warmPart port cause _

/-- A link that trains. -/
theorem trained_warmPart (port a b : Nat) (s : State) : (trained port a b s).warmPart = s.warmPart := by
  unfold trained
  extract_lets d h w fd fh s0 s1
  have h1 : s1.warmPart = s.warmPart := by
    unfold s1
    split
    · rfl
    · exact post_warmPart _ _
  split
  · exact (failDie_warmPart _ _ _).trans h1
  · have hepoch := (newEpoch_keeps port s1 (Keeps.rfl' _ s1) (Within.rfl' _)).warmPart
    exact ((linkGo_keeps port _ (Keeps.rfl' _ _) (Within.rfl' _)).warmPart).trans (hepoch.trans h1)

/-- The links that train at a start. -/
theorem trainAll_warmPart (ports : List Nat) (adv : List WidthAdv) (s : State) : (trainAll ports adv s).warmPart = s.warmPart := by
  refine foldl_warmPart _ (fun t p => ?_) _ _
  split
  · rfl
  · exact trained_warmPart _ _ _ _

/-! ## The seal -/

/-- The values of the setup registers are recorded in Ivory's part only. -/
theorem recordSetup_glb (s : State) : (recordSetup s).glb = s.glb := rfl

/-- The seal sets SEALED, and the dispatcher accepts (R625, steps 3 and 4). -/
theorem sealNow_seals (s : State) : (sealNow s).glb.sealed = true ∧ (sealNow s).glb.sealing = false ∧
    (sealNow s).disp.accepting = true := by
  unfold sealNow
  extract_lets s1 s2
  have hpools : ∀ u, (sealPools u).glb = u.glb := fun u => (sealPools_keeps u (Keeps.rfl' _ u) (Within.rfl' _)).same .glb
  have hareas : ∀ u, (placeAreas u).glb = u.glb := fun u => (placeAreas_keeps u (Keeps.rfl' _ u) (Within.rfl' _)).same .glb
  have hjournal : ∀ u, (placeJournal u).glb = u.glb := fun u => (placeJournal_keeps u (Keeps.rfl' _ u) (Within.rfl' _)).same .glb
  rw [hjournal, hareas, hpools]
  exact ⟨rfl, rfl, rfl⟩

/-! ## The warm reset -/

/-- Step 1 of a warm reset (R571). -/
theorem warmBegin_begins (c : WarmCause) (s : State) : (warmBegin c s).glb.warmStep = 1 ∧ (warmBegin c s).glb.ready = false ∧
    (warmBegin c s).boot.readyOut = false ∧ (warmBegin c s).disp.accepting = false ∧ (warmBegin c s).glb.rstCause = c.code := by
  have hrecorded : ∀ u, Keeps [.regs] u (applyRecorded u) := fun u => applyRecorded_keeps u (Keeps.rfl' _ u) (Within.rfl' _)
  have hdebug : ∀ v u, Keeps [.ivory, .hfifo, .msix, .cdie, .hif] u (setDebug v u) := fun v u =>
    setDebug_keeps v u (Keeps.rfl' _ u) (Within.rfl' _)
  have hstarts : ∀ u, (ivoryStarts u).glb = { u.glb with features := featuresOf u.glb.manifest } ∧
      (ivoryStarts u).boot = u.boot ∧ (ivoryStarts u).disp = u.disp := fun u => by
    unfold ivoryStarts
    extract_lets _ _ u1
    split
    · exact ⟨(hdebug 2 u1).same .glb, (hdebug 2 u1).same .boot, (hdebug 2 u1).same .disp⟩
    · exact ⟨rfl, rfl, rfl⟩
  unfold warmBegin
  extract_lets _ s1 _ _ s2 _ s3
  obtain ⟨hglb, hboot, hdisp⟩ := hstarts s3
  rw [(hrecorded _).same .glb, (hrecorded _).same .boot, (hrecorded _).same .disp, hglb, hboot, hdisp]
  exact ⟨rfl, rfl, rfl, rfl, rfl⟩

/-- A warm reset may begin in no step of another. -/
theorem mayWarm_warmStep {s : State} (h : s.mayWarm = true) : s.glb.warmStep = 0 := by
  simp only [State.mayWarm, Bool.and_eq_true, beq_iff_eq] at h
  exact h.1.1.1.1.2

/-- HUB_HEARTBEAT_LOSS with nothing that holds the reset back (R571, R618). -/
theorem execHubHeartbeatLoss_begins {s : State} (hready : s.boot.phase = .ready) (hmay : s.mayWarm = true) :
    ∃ t, exec (.hubHeartbeatLoss) s = .next t ∧ t.glb.warmStep = 1 ∧ t.glb.rstCause = WarmCause.code .heartbeat := by
  have hexec : exec (.hubHeartbeatLoss) s = .next (warmBegin .heartbeat s) := by
    show execHubHeartbeatLoss s = _
    rw [execHubHeartbeatLoss, mayWarm_warmStep hmay, hready, hmay]
    rfl
  obtain ⟨hstep, -, -, -, hcause⟩ := warmBegin_begins .heartbeat s
  exact ⟨_, hexec, hstep, hcause⟩

/-- HOST_FAIL_WARM_RESET with no command in the journal (R571). -/
theorem execHostFailWarmReset_begins {s : State} (hhost : s.siteFailed 57 = true) (hmay : s.mayWarm = true) (hcmds : s.disp.cmds = []) :
    ∃ t, exec (.hostFailWarmReset) s = .next t ∧ t.glb.warmStep = 1 ∧ t.glb.rstCause = WarmCause.code .hostDie := by
  have hexec : exec (.hostFailWarmReset) s = .next (warmBegin .hostDie s) := by
    show execHostFailWarmReset s = _
    rw [execHostFailWarmReset, hcmds, hhost, hmay]
    rfl
  obtain ⟨hstep, -, -, -, hcause⟩ := warmBegin_begins .hostDie s
  exact ⟨_, hexec, hstep, hcause⟩

/-- WARM_RESET_BEGIN of a reset that is wanted (R571). -/
theorem execWarmResetBegin_begins {s : State} {c : WarmCause} (hwanted : s.glb.warmWanted = some c) (hmay : s.mayWarm = true) :
    ∃ t, exec (.warmResetBegin) s = .next t ∧ t.glb.warmStep = 1 ∧ t.glb.ready = false ∧ t.boot.readyOut = false ∧
    t.disp.accepting = false := by
  have hexec : exec (.warmResetBegin) s = .next (warmBegin c s) := by
    show execWarmResetBegin s = _
    rw [execWarmResetBegin, hwanted]
    exact congrArg Host.Outcome.next (if_pos hmay)
  obtain ⟨hstep, hready, hpin, haccepting, -⟩ := warmBegin_begins c s
  exact ⟨_, hexec, hstep, hready, hpin, haccepting⟩

/-- A warm reset's command given in its step is not passed over. -/
theorem warmStep_taken {s : State} {n : Nat} (h : s.glb.warmStep = n) : ¬ ((s.glb.warmStep != n) = true) := by simp [h]

/-- WARM_RESET_FENCED: nothing is under way between the dies (R571, step 2). -/
theorem execWarmResetFenced_fences {s : State} (hstep : s.glb.warmStep = 1) :
    ∃ t, exec (.warmResetFenced) s = .next t ∧ t.glb.warmStep = 2 ∧ t.counted = [] ∧ t.hub.voq = [] ∧ t.hub.outst = [] := by
  have hqual : ∀ u, Keeps [.cdie, .pwr, .tile] u (toQual u) := fun u => toQual_keeps u (Keeps.rfl' _ u) (Within.rfl' _)
  refine ⟨_, congrArg Host.Outcome.next (if_neg (warmStep_taken hstep)), ?_⟩
  dsimp only
  rw [(hqual _).same .glb, (hqual _).same .counted, (hqual _).same .hub]
  exact ⟨rfl, rfl, rfl, rfl⟩

/-- WARM_RESET_DIES_RESET: the dies come up unsealed, and nothing watches (R571, step 4). -/
theorem execWarmResetDiesReset_resets {s : State} (adv : List WidthAdv) (hstep : s.glb.warmStep = 3) :
    ∃ t, exec (.warmResetDiesReset adv) s = .next t ∧ t.glb.warmStep = 4 ∧ t.glb.sealed = false ∧ t.disp.watching = [] := by
  refine ⟨_, congrArg Host.Outcome.next (if_neg (warmStep_taken hstep)), ?_⟩
  extract_lets s1 failed site _ s2 s3 s4 s5 devs s6
  have h3 : s3.warmPart = (4, false) := by
    unfold s3
    split
    · rfl
    · rfl
  have h4 : s4.warmPart = (4, false) := by
    refine (trainAll_warmPart _ _ _).trans ((foldl_warmPart _ (fun t p => ?_) _ s3).trans h3)
    split <;> rfl
  have hreg : ∀ (t : State) off v, (t.setReg off v).warmPart = t.warmPart := fun _ _ _ => rfl
  have h5 : s5.warmPart = (4, false) := (foldl_warmPart _ (fun t n => hreg t _ _) _ s4).trans h4
  have h6 : s6.warmPart = (4, false) := (foldl_warmPart _ (fun t r => hreg t _ _) devs s5).trans h5
  clear_value s6
  exact ⟨congrArg Prod.fst h6, congrArg Prod.snd h6, rfl⟩

/-- WARM_RESET_TIER_REMOUNTED (R571, step 7). -/
theorem execWarmResetTierRemounted_steps {s : State} (bad : List Nat) (hstep : s.glb.warmStep = 6) :
    ∃ t, exec (.warmResetTierRemounted bad) s = .next t ∧ t.glb.warmStep = 7 := by
  refine ⟨_, congrArg Host.Outcome.next (if_neg (warmStep_taken hstep)), ?_⟩
  extract_lets s0 saved kept lost _ s1 s2
  exact congrArg Prod.fst (post_warmPart _ (s2.withGlb { s2.glb with warmStep := 7 }))

/-- WARM_RESET_READY seals from the recorded values and sets READY (R571, step 9). -/
theorem execWarmResetReady_ready {s : State} (hstep : s.glb.warmStep = 8) (hmay : s.mayReady = true) :
    ∃ t, exec (.warmResetReady) s = .next t ∧ t.glb.warmStep = 0 ∧ t.glb.ready = true ∧ t.boot.readyOut = true ∧
    t.glb.sealed = true := by
  refine ⟨_, congrArg Host.Outcome.next (if_neg (by simp [hstep, hmay])), ?_⟩
  extract_lets s1
  obtain ⟨hboot, hglb⟩ := setReady_parts (sealNow (recordSetup s1))
  rw [hboot, hglb]
  exact ⟨rfl, rfl, rfl, (sealNow_seals (recordSetup s1)).1⟩

/-- Settles O3: each command in its step. -/
theorem sealAndWarmReset : Obligations.SealAndWarmReset := by
  refine ⟨fun s who hgate hwho hopen => ?setupSeal, fun s hsealing => ?complete, fun s who key hgate hwho hkey => ?ask,
    fun s c => execWarmResetBegin_begins, fun s _ => execHubHeartbeatLoss_begins, fun s => execHostFailWarmReset_begins,
    fun s => execWarmResetFenced_fences, fun s hstep => ?hub, fun s adv => execWarmResetDiesReset_resets adv,
    fun s failed hstep => ?trained, fun s hstep => ?initialised, fun s bad => execWarmResetTierRemounted_steps bad,
    fun s passed hstep => ?runtime, fun s => execWarmResetReady_ready⟩
  case setupSeal =>
    refine ⟨_, congrArg Host.Outcome.next ((pfWrite_performed hgate hwho _ _).trans (if_neg (by simp [hopen]))), ?_⟩
    rw [recordSetup_glb]
    exact ⟨rfl, rfl⟩
  case complete => exact ⟨_, congrArg Host.Outcome.next (if_pos hsealing), sealNow_seals s⟩
  case ask =>
    exact ⟨_, congrArg Host.Outcome.next ((pfWrite_performed hgate hwho _ _).trans (if_neg (by simp [hkey]))), rfl⟩
  case hub => exact ⟨_, congrArg Host.Outcome.next (if_neg (warmStep_taken hstep)), rfl⟩
  case trained => exact ⟨_, congrArg Host.Outcome.next (if_neg (warmStep_taken hstep)), rfl⟩
  case initialised => exact ⟨_, congrArg Host.Outcome.next (if_neg (warmStep_taken hstep)), rfl, rfl⟩
  case runtime => exact ⟨_, congrArg Host.Outcome.next (if_neg (warmStep_taken hstep)), rfl⟩

end Sys2Proof.Machine
end

section
/-!
Configuration space and the input voltage (17 R577, R580, 19 R634), the firmware image (17 R585 to R587), the management port
(17 R590 to R608), and O4, O5, O6 and O7.
-/
namespace Sys2Proof.Machine

set_option Elab.async false

/-! ## Pins and voltage -/

/-- A module that is shut down is off, without READY (R634). -/
theorem shutDown_off (s : State) : (shutDown s).boot.phase = .off ∧ (shutDown s).glb.ready = false := ⟨rfl, rfl⟩

/-- CONFIG_REQUEST of an endpoint out of reset is answered: RRS at first, then the dword (R577). -/
theorem execConfigRequest_answers {s : State} (fn dword : Nat) (hhost : s.boot.hostEnabled = true) (hperst : s.boot.perst = false)
    (hup : s.siteFailed 57 = false) :
    ∃ t, exec (.configRequest fn dword) s = .next t ∧ (∃ a, t.hif.tlps = s.hif.tlps ++ [.cfg fn dword a]) ∧
    (s.boot.configReady = false → t.hif.tlps = s.hif.tlps ++ [.cfg fn dword .rrs]) ∧ (s.boot.configReady = true →
    s.boot.phase = .ready → fn < 32 → t.hif.tlps = s.hif.tlps ++ [.cfg fn dword (.ok (cfgDword fn dword))]) := by
  refine ⟨_, congrArg Host.Outcome.next (if_neg (by simp [hhost, hperst, hup])), ?_⟩
  split
  · next hwait =>
    simp only [Bool.not_eq_true'] at hwait
    exact ⟨⟨_, rfl⟩, fun _ => rfl, fun hready => by simp [hwait] at hready⟩
  · next hready =>
    simp only [Bool.not_eq_true', Bool.not_eq_false] at hready
    split
    · next hbad =>
      refine ⟨⟨_, rfl⟩, fun hwait => by simp [hwait] at hready, fun _ hphase hfn => ?_⟩
      simp [hphase, Nat.not_le.mpr hfn] at hbad
    · exact ⟨⟨_, rfl⟩, fun hwait => by simp [hwait] at hready, fun _ _ _ => rfl⟩

/-- VIN36_OUT_OF_RANGE after READY shuts down at once, or lets service go on for a while (R634). -/
theorem execVin36OutOfRange_ready {s : State} (vin : Nat) (hphase : s.boot.phase = .ready) :
    ∃ t, exec (.vin36OutOfRange vin) s = .next t ∧ (vin < 30000 ∨ 42000 < vin → t.boot.phase = .off ∧
    t.glb.ready = false) ∧ (30000 ≤ vin → vin ≤ 42000 → t.boot.phase = .ready ∧ t.boot.vin = vin ∧
    t.boot.vinLow = decide (vin < 32000) ∧ t.boot.vinHigh = decide (40000 < vin)) := by
  refine ⟨_, congrArg Host.Outcome.next (if_pos (by simp [hphase])), ?_⟩
  dsimp only
  split
  · exact ⟨fun _ => shutDown_off _, fun hlow hhigh => by omega⟩
  · next hin =>
    exact ⟨fun hout => absurd hout hin, fun hlow hhigh => ⟨hphase, Nat.mod_eq_of_lt (by omega), rfl, rfl⟩⟩

/-- Settles O4: each pin and limit by itself. -/
theorem pinsAndVoltage : Obligations.PinsAndVoltage := by
  refine ⟨fun s hhost hperst hup => ?config, fun s fn dword => execConfigRequest_answers fn dword, fun s hvin => ?perst,
    fun s vin hphase _ => execVin36OutOfRange_ready vin hphase, fun s hphase hlow => ?low, fun s hphase hhigh => ?high,
    fun s => ?ivory⟩
  case config => exact ⟨_, congrArg Host.Outcome.next (if_pos (by simp [hhost, hperst, hup])), rfl⟩
  case perst => exact ⟨_, congrArg Host.Outcome.next (if_neg (by simp [hvin])), rfl, rfl⟩
  case low => exact ⟨_, congrArg Host.Outcome.next (if_pos (by simp [hphase, hlow])), shutDown_off s⟩
  case high => exact ⟨_, congrArg Host.Outcome.next (if_pos (by simp [hphase, hhigh])), shutDown_off s⟩
  case ivory => exact ⟨_, rfl, rfl, rfl, rfl⟩

/-! ## The firmware image -/

/-- An event leaves Ivory's part. -/
theorem post_ivory (e : EvItem) (s : State) : (post e s).ivory = s.ivory := (post_keeps e s (Keeps.rfl' _ s) (Within.rfl' _)).same .ivory

/-- FW_IMAGE_RECEIVED: a valid image is programmed, another is refused (R585). -/
theorem execFwImageReceived_checks {s : State} (img : FwImage) (hreceiving : s.ivory.fwState = .receiving) :
    ∃ t, exec (.fwImageReceived img) s = .next t ∧
    (imgReason s.ivory.fusedSvn (some img) = 0 → t.ivory.fwState = .programming ∧ t.ivory.fwBuf = some img) ∧
    (imgReason s.ivory.fusedSvn (some img) ≠ 0 → t.ivory.fwState = .idle ∧ t.ivory.fwBuf = none ∧
    t.ivory.flash = s.ivory.flash) := by
  have hglb : ∀ (u : State) (g : Glb), (if u.boot.phase == .recovery then u.withGlb g else u).ivory = u.ivory := fun u g => by
    split <;> rfl
  refine ⟨_, congrArg Host.Outcome.next (if_neg (by simp [hreceiving])), ?_⟩
  dsimp only
  split
  · next hbad =>
    have hbad : imgReason s.ivory.fusedSvn (some img) ≠ 0 := by simpa using hbad
    refine ⟨fun hok => absurd hok hbad, fun _ => ?_⟩
    rw [mgmtReply, State.withIvory_ivory, post_ivory, hglb]
    exact ⟨rfl, rfl, rfl⟩
  · next hok =>
    have hok : imgReason s.ivory.fusedSvn (some img) = 0 := by simpa using hok
    refine ⟨fun _ => ?_, fun hbad => absurd hok hbad⟩
    rw [post_ivory, hglb]
    exact ⟨rfl, rfl⟩

/-- FW_PROGRAM_DONE of a running module (R585, steps 3 and 4). -/
theorem execFwProgramDone_ends {s : State} (ok : Bool) (hprog : s.ivory.fwState = .programming) (hphase : s.boot.phase = .ready) :
    ∃ t, exec (.fwProgramDone ok) s = .next t ∧ t.ivory.fwState = .idle ∧ t.ivory.fwBuf = none ∧
    (t.ivory.flash = if ok then s.ivory.fwBuf else none) := by
  refine ⟨_, congrArg Host.Outcome.next (if_pos (by simp [hprog])), ?_⟩
  unfold programDone
  extract_lets buf svn _ s1 s2
  have hivory : s2.ivory = { s1.ivory with replies := s2.ivory.replies } := by
    unfold s2
    split
    · rw [mgmtReply, State.withIvory_ivory, post_ivory]
    · rfl
  have hboot : s2.boot.phase = .ready := by
    unfold s2
    split
    · exact ((post_keeps _ s1 (Keeps.rfl' _ s1) (Within.rfl' _)).phase).trans hphase
    · exact hphase
  rw [if_neg (by simp [hboot]), hivory]
  exact ⟨rfl, rfl, rfl⟩

/-- RECOVERY_PROGRAM_DONE of an image that GO read (R587, R588). -/
theorem execRecoveryProgramDone_ends {s : State} (img : FwImage) (hphase : s.boot.phase = .recovery) (hgo : s.glb.recGo = true) :
    ∃ t, exec (.recoveryProgramDone (some img)) s = .next t ∧ t.glb.recGo = false ∧
    (imgReason s.ivory.fusedSvn (some img) = 0 → t.boot.phase = .step 1 ∧ t.ivory.flash = some img ∧
    t.glb.recState = 0) ∧ (imgReason s.ivory.fusedSvn (some img) ≠ 0 → t.boot.phase = .recovery ∧
    t.glb.recStatus = 2 ∧ t.glb.recReason = imgReason s.ivory.fusedSvn (some img)) := by
  refine ⟨_, congrArg Host.Outcome.next ((if_neg (by simp [hphase])).trans (if_pos hgo)), ?_⟩
  dsimp only
  split
  · next hbad =>
    have hbad : imgReason s.ivory.fusedSvn (some img) ≠ 0 := by simpa using hbad
    exact ⟨rfl, fun hok => absurd hok hbad, fun _ => ⟨hphase, rfl, rfl⟩⟩
  · next hok =>
    have hok : imgReason s.ivory.fusedSvn (some img) = 0 := by simpa using hok
    exact ⟨rfl, fun _ => ⟨rfl, rfl, rfl⟩, fun hbad => absurd hok hbad⟩

/-- Settles O5: the steps of an update and of a recovery. -/
theorem firmwareUpdate : Obligations.FirmwareUpdate := by
  refine ⟨fun s hup hidle hgo => ?update, fun s img => execFwImageReceived_checks img, fun s ok => execFwProgramDone_ends ok,
    fun s hup hphase => ?activate, fun s addr len hphase hgo hidle => ?go, fun s img => execRecoveryProgramDone_ends img⟩
  case update =>
    exact ⟨_, congrArg Host.Outcome.next ((if_neg (by simp [hup])).trans (if_neg (by simp [hidle, hgo]))), rfl, rfl⟩
  case activate => exact ⟨_, congrArg Host.Outcome.next (if_pos (by simp [hup, hphase])), rfl⟩
  case go =>
    refine ⟨_, congrArg Host.Outcome.next (if_neg (by simp [hphase, hgo])), ?_⟩
    dsimp only
    rw [if_neg (by simp [hidle])]
    exact ⟨rfl, rfl⟩

/-! ## The management port -/

/-- A request of SPDM is answered while the firmware runs (R590). -/
theorem spdm_answers {s : State} (hup : s.fwUp = true) (k : State → MgmtReply) : spdm k s = mgmtReply (k s) s := if_pos hup

/-- An answer joins the queue of answers. -/
theorem mgmtReply_replies (r : MgmtReply) (s : State) : (mgmtReply r s).ivory.replies = s.ivory.replies ++ [r] := rfl

/-- A command of SPDM that answers by `k`: its answer joins the queue. -/
theorem spdm_replies {s : State} (hup : s.fwUp = true) (k : State → MgmtReply) : (spdm k s).ivory.replies = s.ivory.replies ++ [k s] := by
  rw [spdm_answers hup, mgmtReply_replies]

/-- SPDM_GET_MEASUREMENTS of one index (R593). -/
theorem execSpdmGetMeasurements_answers {s : State} {i : Nat} (req : List Byte) (hup : s.fwUp = true) (hlow : 1 ≤ i) (hhigh : i ≤ 8) :
    ∃ t, exec (.spdmGetMeasurements i req) s = .next t ∧ (∃ rsa slh,
    t.ivory.replies = s.ivory.replies ++ [.measurements i [s.measure i] rsa slh]) := by
  have hone : s.measured i = [s.measure i] := by
    rw [State.measured, if_neg (by omega), if_neg (by omega)]
  refine ⟨_, rfl, ?_⟩
  rw [spdm_replies hup]
  dsimp only
  rw [if_neg (by omega), hone]
  exact ⟨_, _, rfl⟩

/-- The model's setter of a list is the library's. -/
theorem setAt_eq_set {α : Type} (l : List α) (n : Nat) (v : α) : setAt l n v = l.set n v := by
  induction l generalizing n with
  | nil => rfl
  | cons a r ih =>
    cases n with
    | zero => rfl
    | succ n => exact congrArg (a :: ·) (ih n)

/-- IDE_KM_REQUEST sets the keys of its stream (R415). -/
theorem execIdeKmRequest_sets {s : State} {stream : Nat} (lo hi : Nat) (key : BitVec 256) (hup : s.fwUp = true) (hstream : stream < 4)
    (hlen : s.ivory.ide.length = 4) :
    ∃ t, exec (.ideKmRequest stream lo hi key) s = .next t ∧ t.ivory.ide[stream]? = some ⟨lo % 65536, hi % 65536,
    key, true⟩ ∧ (∀ k, k ≠ stream → t.ivory.ide[k]? = s.ivory.ide[k]?) := by
  have hide : ∀ x : IdeStream, setAt (s.ivory.ide ++ List.replicate (4 - s.ivory.ide.length) ({} : IdeStream)) stream x =
      s.ivory.ide.set stream x := fun x => by
    rw [hlen, Nat.sub_self, List.replicate_zero, List.append_nil, setAt_eq_set]
  refine ⟨_, congrArg Host.Outcome.next ((if_neg (by simp [hup])).trans (if_neg (by omega))), ?_⟩
  dsimp only [mgmtReply, State.withIvory_ivory]
  rw [hide]
  exact ⟨List.getElem?_set_self (by omega), fun k hk => List.getElem?_set_ne (Ne.symm hk)⟩

/-- PLDM_SET_NUMERIC_EFFECTER of a limit in its range (R604). -/
theorem execPldmSetNumericEffecter_sets {s : State} {limit : Nat} (hup : s.fwUp = true) (hlow : 0x3C ≤ limit) (hhigh : limit ≤ 0x100) :
    ∃ t, exec (.pldmSetNumericEffecter limit) s = .next t ∧ t.ivory.board = limit ∧
    t.ivory.replies = s.ivory.replies ++ [.effecter true] := by
  refine ⟨_, congrArg Host.Outcome.next ((if_neg (by simp [hup])).trans (if_neg (by omega))), ?_⟩
  dsimp only
  split
  · exact ⟨rfl, rfl⟩
  · rw [post_ivory]
    exact ⟨rfl, rfl⟩

/-- Settles O6: each request queues its answer. -/
theorem managementPort : Obligations.ManagementPort := by
  refine ⟨fun s off len hup => ⟨_, rfl, spdm_replies hup _⟩, fun s slot off len hup hslot => ⟨_, rfl, ?certificate⟩,
    fun s req hup => ⟨_, rfl, spdm_replies hup _⟩, fun s i req => execSpdmGetMeasurements_answers req,
    fun s req hup => ⟨_, rfl, spdm_replies hup _⟩, fun s off len hup => ⟨_, rfl, spdm_replies hup _⟩,
    fun s stream lo hi key => execIdeKmRequest_sets lo hi key, fun s eid hup => ?endpoint, fun s x hup => ?sensor,
    fun s limit => execPldmSetNumericEffecter_sets⟩
  case certificate => exact (spdm_replies hup _).trans (by rw [if_neg hslot])
  case endpoint => exact ⟨_, congrArg Host.Outcome.next (if_pos hup), rfl, rfl⟩
  case sensor => exact ⟨_, congrArg Host.Outcome.next (if_pos hup), rfl⟩

/-! ## Owner requests -/

/-- The mailbox serves a request of core 0, and the module is ready. -/
def mailboxTaken : State := { State.reset with glb := { ready := true, mboxGo := some (.core 0) } }

/-- An OWNER_SET that is malformed. -/
def shortOwnerSet : OwnerReq := ⟨0, 0x01, 0, 0, 0, 0, [], [], []⟩

/-- The PF0 driver's request is ignored: the status of the mailbox stays. -/
theorem ownerSet_mailboxTaken : ∃ t, exec (.ownerSet (.host 0) (some shortOwnerSet)) mailboxTaken = .next t ∧ t.glb.mboxCmd = 0 :=
  ⟨_, rfl, by decide +kernel⟩

/-- Refutes O7: a request while the mailbox serves another agent's is ignored with an event and leaves no status (R602). -/
theorem not_ownerRequests : ¬ Obligations.OwnerRequests := by
  rintro ⟨hset, -⟩
  obtain ⟨t, hclause, -, hcmd, -⟩ := hset mailboxTaken (.host 0) shortOwnerSet rfl rfl rfl
  obtain ⟨u, hexec, hkept⟩ := ownerSet_mailboxTaken
  obtain rfl := Host.Outcome.next.inj (hexec.symm.trans hclause)
  exact absurd (hcmd.symm.trans hkept) (by decide)

end Sys2Proof.Machine
end

section
/-!
Writes of registers (18 R610 to R620), and O10.
-/
namespace Sys2Proof.Machine

set_option Elab.async false

/-! ## Who may write -/

/-- A core that waits for no fence performs its store as the rules of the core's stores say. -/
theorem execRegisterWrite_core {s : State} {c : Nat} (hfence : (s.coreOf c).fence = false) (off size : Nat) (data : List Word) :
    exec (.registerWrite (.core c) off size data) s = .next (coreWriteReg c off size data s) :=
  congrArg Host.Outcome.next (if_pos (by simp [State.hostGate, hfence]))

/-- The host's write while BAR0 takes none is ignored (17 R578). -/
theorem execRegisterWrite_hostIgnored {s : State} {off : Nat} (f size : Nat) (data : List Word) (hshut : s.bar0Open off = false) :
    exec (.registerWrite (.host f) off size data) s = .next s :=
  congrArg Host.Outcome.next (if_neg (by simp [hshut]))

/-- Outside the recovery registers BAR0 takes no write before READY (17 R578). -/
theorem bar0Open_beforeReady {s : State} {off : Nat} (hready : s.glb.ready = false) (h8 : off ≠ 0x908) (h10 : off ≠ 0x910) :
    s.bar0Open off = false := by
  simp [State.bar0Open, hready, h8, h10]

/-- An aligned 8-byte write of a VF to a register that is not its own is refused (R613). -/
theorem execRegisterWrite_vfRefused {s : State} {f off : Nat} (v : Word) (hready : s.glb.ready = true) (hf : f ≠ 0)
    (hreg : isReg64 off = true) (halign : off % 8 = 0) (hvf : s.vfWrites f off = false) :
    exec (.registerWrite (.host f) off 8 [v]) s = .next (setupRefused (.host f) off s) := by
  have hopen : s.bar0Open off = true := by simp [State.bar0Open, hready]
  refine congrArg Host.Outcome.next ((if_pos hopen).trans ?_)
  unfold hostWriteReg
  rw [if_neg (by omega), if_pos ⟨rfl, halign⟩, write8, if_pos hreg, regWrite, if_pos (by simp [hf, hvf])]

/-- A core's store of a register's width outside the reserved and the IVR blocks writes its block. -/
theorem coreWriteReg_block {off : Nat} (c : Nat) (v : Word) (s : State) (hreg : isReg64 off = true) (hreserved : reservedBlock off = false)
    (hivr : ivrBlock off = false) (hend : off < 0x4000000) :
    coreWriteReg c off 8 [v] s = blockWrite (.core c) off v.toNat s := by
  have hv : v.toNat % 2 ^ (8 * 8) = v.toNat := Nat.mod_eq_of_lt v.isLt
  unfold coreWriteReg
  rw [if_neg (by simp [hreserved]), if_neg (by simp [hivr]), if_neg (by omega), if_pos (by simp [hreg])]
  exact congrArg (fun n => blockWrite (.core c) off n s) hv

/-- A core's store of 4 bytes to a 64-bit register traps (R620; 11 R364). -/
theorem coreWriteReg_narrow {off : Nat} (c : Nat) (v : Word) (s : State) (hreg : isReg64 off = true) (hreserved : reservedBlock off = false)
    (hivr : ivrBlock off = false) (hend : off < 0x4000000) (hreg32 : isReg32 off = false) :
    coreWriteReg c off 4 [v] s = coreTrap c 7 (internalAddr off) s := by
  unfold coreWriteReg
  rw [if_neg (by simp [hreserved]), if_neg (by simp [hivr]), if_neg (by omega), if_neg (by simp [hreg32]), if_pos (by simp [hreg])]

/-- A trap leaves its cause and its address with the core. -/
theorem coreTrap_exc (c cause tval : Nat) (s : State) : ((coreTrap c cause tval s).coreOf c).exc = some (cause, tval) := by
  unfold coreTrap State.updCore State.coreOf upd
  rw [State.withCore_core, look_put_new _ _ _ (fun h => absurd (congrArg CoreSt.exc h) (by simp))]

/-! ## Fields of single registers -/

/-- The mailbox's address is stored as written. -/
theorem blockWrite_mailboxAddr (who : Agent) (v : Word) (s : State) : blockWrite who 0x800 v.toNat s = s.setReg 0x800 v := by
  have hval : BitVec.ofNat 64 v.toNat = v := by simp
  rw [blockWrite, if_pos (by decide)]
  exact congrArg (s.setReg 0x800) hval

/-- The hold time of a session is a register of the setup, clamped to 1 to 3600 seconds (12 R437; R625). -/
theorem blockWrite_holdTime (who : Agent) (v : Nat) (s : State) :
    blockWrite who 0x0100008 v s = storeRwl who 0x0100008 (clamp 1 3600 (v % 4096)) s := by
  rw [blockWrite, if_neg (by decide), if_pos (by decide)]
  rfl

/-- A refused write raises SETUP_REFUSED with who wrote and where (16 R560). -/
theorem setupRefused_reports (who : Agent) (off : Nat) (s : State) :
    s.reports (setupRefused who off s) (ev 0x80 none (whoArg who) [off]) := post_reports _ s rfl

/-- A refused write changes no register, answers nothing, and leaves Ivory's part. -/
theorem setupRefused_parts (who : Agent) (off : Nat) (s : State) : (setupRefused who off s).regs = s.regs ∧
    (setupRefused who off s).replies = s.replies ∧ (setupRefused who off s).ivory = s.ivory := by
  have hkeeps := post_keeps (ev 0x80 none (whoArg who) [off]) s (Keeps.rfl' _ s) (Within.rfl' _)
  exact ⟨hkeeps.same .regs, hkeeps.same .replies, hkeeps.same .ivory⟩

/-! ## Accesses that are refused -/

/-- A reserved block as the cores address it (R610, R611). -/
theorem reservedBlock_internal {a : Nat} (hlow : 0x030000C00000 ≤ a) (hhigh : a < 0x030000F00000) :
    0x030000000000 ≤ a ∧ reservedBlock (a - 0x030000000000) = true := by
  refine ⟨by omega, ?_⟩
  have h1 : 0x0C00000 ≤ a - 0x030000000000 := by omega
  have h2 : a - 0x030000000000 < 0x0F00000 := by omega
  simp [reservedBlock, h1, h2]

/-- Settles O10: each access by its rule. -/
theorem registerWrites : Obligations.RegisterWrites := by
  refine ⟨fun s c v hfence => ?plain, fun s c v hfence hopen => ?clamped, fun s c v hfence hlocked => ?locked,
    fun s f off v hready hf hreg halign hvf => ?vf, fun s f off v hready h8 h10 => ?early,
    fun s c off v hfence hreg hreserved hivr hend hreg32 => ?narrow, fun s f off hready => ?malformedWrite,
    fun s f off hready => ?malformedRead, fun s f off hready => ?earlyRead, fun s c a hlow hhigh => ?store,
    fun s c a hlow hhigh => ?load, fun s c off hlow hhigh => ?ivr⟩
  case plain =>
    exact ⟨_, execRegisterWrite_core hfence _ _ _, (coreWriteReg_block c v s rfl rfl rfl (by decide)).trans (blockWrite_mailboxAddr _ v s)⟩
  case clamped =>
    refine ⟨_, execRegisterWrite_core hfence _ _ _, ?_⟩
    rw [coreWriteReg_block c v s rfl rfl rfl (by decide), blockWrite_holdTime, storeRwl, if_neg (by simp [hopen])]
  case locked =>
    have hwrite : coreWriteReg c 0x0100008 8 [v] s = setupRefused (.core c) 0x0100008 s := by
      rw [coreWriteReg_block c v s rfl rfl rfl (by decide), blockWrite_holdTime, storeRwl, if_pos hlocked]
    exact ⟨_, (execRegisterWrite_core hfence _ _ _).trans (congrArg Host.Outcome.next hwrite), rfl, setupRefused_reports _ _ s⟩
  case vf => exact ⟨_, execRegisterWrite_vfRefused v hready hf hreg halign hvf, rfl, setupRefused_reports _ _ s⟩
  case early => exact ⟨s, execRegisterWrite_hostIgnored f 8 [v] (bar0Open_beforeReady hready h8 h10), rfl⟩
  case narrow =>
    have hwrite := coreWriteReg_narrow c v s hreg hreserved hivr hend hreg32
    exact ⟨_, (execRegisterWrite_core hfence _ _ _).trans (congrArg Host.Outcome.next hwrite), rfl, coreTrap_exc _ _ _ s⟩
  case malformedWrite =>
    obtain ⟨hregs, hreplies, -⟩ := setupRefused_parts (.host f) off s
    exact ⟨_, congrArg Host.Outcome.next ((if_neg (by simp [hready])).trans (if_pos rfl)), setupRefused_reports _ _ s, hregs, hreplies⟩
  case malformedRead =>
    exact ⟨_, congrArg Host.Outcome.next ((if_neg (by simp [hready])).trans (if_neg (by decide))), rfl, rfl⟩
  case earlyRead => exact ⟨_, congrArg Host.Outcome.next ((if_pos (by simp [hready])).trans (if_neg (by decide))), rfl⟩
  case store => exact ⟨_, congrArg Host.Outcome.next (if_pos (reservedBlock_internal hlow hhigh)), rfl, rfl⟩
  case load => exact ⟨_, congrArg Host.Outcome.next (if_pos (reservedBlock_internal hlow hhigh)), rfl, rfl⟩
  case ivr =>
    obtain ⟨-, -, hivory⟩ := setupRefused_parts (.core c) off s
    exact ⟨_, congrArg Host.Outcome.next (if_pos (by simp [ivrBlock, hlow, hhigh])), rfl, hivory⟩

end Sys2Proof.Machine
end

section
/-!
The host link and detaches (12 R413 to R420), and O37. What a detach does to commands, translations and host reads leaves the state of
the link, the count of detaches, the fences and the sessions, but for the session that it holds.
-/
namespace Sys2Proof.Machine

set_option Elab.async false

/-! ## The link's state, the count of detaches, the sessions and the fences -/

/-- The state of the host link, the count of detaches, the sessions and the fences. -/
def State.attachPart (s : State) : Nat × Nat × FMap Sess × (Nat → Bool) := (s.hif.state, s.hif.detaches, s.sess, s.fenced)

/-- An operation that leaves the host interface and the sessions, and whose senders go on. -/
theorem SendersGrow.attachPart {ws : List Field} {s t : State} (hgrow : SendersGrow s t) (h : Keeps ws s t)
    (hhif : Field.hif ∉ ws := by decide) (hsess : Field.sess ∉ ws := by decide) : t.attachPart = s.attachPart := by
  have hfenced : t.fenced = s.fenced := funext hgrow.fenced
  unfold State.attachPart
  rw [h.same .hif hhif, h.same .sess hsess, hfenced]

/-- An operation that leaves the host interface, the sessions and the links. -/
theorem Keeps.attachPart {ws : List Field} {s t : State} (h : Keeps ws s t) (hhif : Field.hif ∉ ws := by decide)
    (hsess : Field.sess ∉ ws := by decide) (hlink : Field.link ∉ ws := by decide) : t.attachPart = s.attachPart :=
  (h.grow hlink).attachPart h hhif hsess

/-- The host interface changes in other parts. -/
theorem State.withHif_attachPart (s : State) (h : Hif) (hstate : h.state = s.hif.state) (hdetaches : h.detaches = s.hif.detaches) :
    (s.withHif h).attachPart = s.attachPart := by
  unfold State.attachPart
  rw [State.withHif_hif, State.withHif_sess, hstate, hdetaches]
  rfl

/-- A packet that is sent. -/
theorem send_attachPart (p : Pkt) (s : State) : (send p s).attachPart = s.attachPart :=
  (sendWith_grow false p s).attachPart (send_keeps p s (Keeps.rfl' _ s) (Within.rfl' _))

/-- A command that ends. -/
theorem endWith_attachPart (ring seq : Nat) (v : Verdict) (s : State) : (endWith ring seq v s).attachPart = s.attachPart :=
  (endWith_grow ring seq v s).attachPart (endWith_keeps ring seq v s (Keeps.rfl' _ s) (Within.rfl' _))

/-- A fold of operations that leave these parts. -/
theorem foldl_attachPart {α : Type} (f : State → α → State) (hf : ∀ s a, (f s a).attachPart = s.attachPart) (l : List α) (s : State) :
    (l.foldl f s).attachPart = s.attachPart :=
  foldl_inv (fun t => t.attachPart = s.attachPart) f (fun t a h => (hf t a).trans h) l s rfl

/-- A TLP toward the host. -/
theorem State.tlp_attachPart (s : State) (x : HTlp) : (s.tlp x).attachPart = s.attachPart := by
  unfold State.tlp
  split
  · rfl
  · rfl

/-- Requests that get their tags. -/
theorem tagsGo_attachPart (s : State) : (tagsGo s).attachPart = s.attachPart :=
  (foldl_attachPart _ (fun t x => t.tlp_attachPart x) _ _).trans rfl

/-- Host reads that end. -/
theorem setReads_attachPart (l : FMap (Option HostRd)) (s : State) : (setReads l s).attachPart = s.attachPart :=
  (tagsGo_attachPart _).trans rfl

/-- A host read that goes out. -/
theorem hostRead_attachPart (fn : Nat) (mode : TlpAt) (addr len : Nat) (use : HostRd) (s : State) :
    (hostRead fn mode addr len use s).attachPart = s.attachPart := (tagsGo_attachPart _).trans rfl

/-- An event on a vector. -/
theorem msixGather_attachPart (fn v : Nat) (s : State) : (msixGather fn v s).attachPart = s.attachPart := by
  have hfire : ∀ u, (msixFire fn v u).attachPart = u.attachPart := fun u => by
    unfold msixFire
    split
    · rfl
    split
    · rfl
    · exact (State.tlp_attachPart _ _).trans rfl
  unfold msixGather
  split
  · dsimp only
    split
    · exact (hfire _).trans rfl
    · rfl
  · rfl

/-- An event that is posted. -/
theorem post_attachPart (e : EvItem) (s : State) : (post e s).attachPart = s.attachPart := by
  have hcore : ∀ d u, (postCore d e u).attachPart = u.attachPart := fun d u =>
    (postCore_keeps d e u (Keeps.rfl' _ u) (Within.rfl' _)).attachPart
  have hhost : (postHost e s).attachPart = s.attachPart := by
    unfold postHost
    dsimp only
    split
    · exact (msixGather_attachPart _ _ _).trans rfl
    · rfl
  unfold post
  dsimp only
  rw [hcore, hcore, hcore, hcore]
  split
  · rfl
  · exact hhost

/-- Bytes that an agent of the hub writes. -/
theorem cohWrite_attachPart (a : Nat) (bs : List Byte) (s : State) : (cohWrite a bs s).attachPart = s.attachPart := by
  have hstore : ∀ n l c p u, (storeSector n l c p u).attachPart = u.attachPart := fun n l c p u =>
    (storeSector_keeps n l c p u (Keeps.rfl' _ u) (Within.rfl' _)).attachPart
  have htouch : ∀ n b u, (touchFrame n b u).attachPart = u.attachPart := fun n b u =>
    (touchFrame_keeps n b u (Keeps.rfl' _ u) (Within.rfl' _)).attachPart
  have hdrop : ∀ n u, (dropCopies n u).attachPart = u.attachPart := fun n u =>
    (dropCopies_keeps n u (Keeps.rfl' _ u) (Within.rfl' _)).attachPart
  refine ((notifyRings_keeps _ _ (Keeps.rfl' _ _) (Within.rfl' _)).attachPart).trans (foldl_attachPart _ (fun t n => ?_) _ _)
  dsimp only
  rw [hstore, htouch, hdrop]
  split
  · exact post_attachPart _ _
  · rfl

/-! ## Faults of translations -/

/-- A fault record that is written in its slot. -/
theorem faultWrite_attachPart (c : Nat) (rec_ : List Byte) (s : State) : (faultWrite c rec_ s).attachPart = s.attachPart := by
  unfold faultWrite
  dsimp only
  split
  · exact ((routerEvent_keeps _ _ _ (Keeps.rfl' _ _) (Within.rfl' _)).attachPart).trans (cohWrite_attachPart _ _ _)
  · exact (msixGather_attachPart _ _ _).trans ((State.tlp_attachPart _ _).trans rfl)

/-- A fault that is recorded, counted, or waits for the consumer's count. -/
theorem faultRecord_attachPart (c : Nat) (rec_ : List Byte) (s : State) : (faultRecord c rec_ s).attachPart = s.attachPart := by
  unfold faultRecord
  split
  · rfl
  split
  · split
    · dsimp only
      split
      · rfl
      · exact (faultWrite_attachPart _ _ _).trans rfl
    · exact faultWrite_attachPart _ _ _
  split
  · rfl
  split
  · rfl
  split
  · exact (hostRead_attachPart _ _ _ _ _ _).trans rfl
  · exact faultWrite_attachPart _ _ _

/-- A placement write that a fault drops. -/
theorem placeFault_attachPart (n : Nat) (s : State) : (placeFault n s).attachPart = s.attachPart := by
  unfold placeFault
  split
  · rfl
  · rfl

/-- A translation that faults for one access. -/
theorem xltFault_attachPart (told : Bool) (ctx reason level entry : Nat) (host : Bool) (table : Nat) (w : XltWait) (s : State) :
    (xltFault told ctx reason level entry host table w s).attachPart = s.attachPart := by
  have hstall : ∀ c r x u, (addStall c r x u).attachPart = u.attachPart := fun c r x u =>
    (addStall_keeps c r x u (Keeps.rfl' _ u) (Within.rfl' _)).attachPart
  have hlose : ∀ b x u, (loseMove b x u).attachPart = u.attachPart := fun b x u =>
    (loseMove_keeps b x u (Keeps.rfl' _ u) (Within.rfl' _)).attachPart
  have hend : ∀ r q v u, (endFault r q v u).attachPart = u.attachPart := fun r q v u =>
    (endWith_attachPart r q v _).trans (foldl_attachPart _ (fun t x => hlose true x t) _ (dropWaits _ u))
  have hknown : ∀ (k : Bool) r, (if k then s else faultRecord ctx r s).attachPart = s.attachPart := fun k r => by
    split
    · rfl
    · exact faultRecord_attachPart _ _ _
  unfold xltFault
  dsimp only
  split
  · exact (xprefSkip_keeps _ _ _ _ s (Keeps.rfl' _ s) (Within.rfl' _)).attachPart
  · exact (placeFault_attachPart _ _).trans (faultRecord_attachPart _ _ _)
  · rfl
  · exact hstall _ _ _ _
  · split
    · exact (hend _ _ _ _).trans ((hlose _ _ _).trans (hknown _ _))
    split
    · exact (hend _ _ _ _).trans ((hlose _ _ _).trans (hknown _ _))
    · exact (hstall _ _ _ _).trans ((hlose _ _ _).trans (hknown _ _))

/-- An access that needs a unit of its page. -/
theorem needUnit_attachPart (ctx : Nat) (w : XltWait) (s : State) : (needUnit ctx w s).attachPart = s.attachPart := by
  have hclear : (clearWait w s).attachPart = s.attachPart := (clearWait_keeps w s (Keeps.rfl' _ s) (Within.rfl' _)).attachPart
  unfold needUnit
  dsimp only
  split
  · exact xltFault_attachPart _ _ _ _ _ _ _ _ _
  split
  · split
    · exact (xprefSkip_keeps _ _ _ _ s (Keeps.rfl' _ s) (Within.rfl' _)).attachPart
    · exact (addStall_keeps _ _ _ s (Keeps.rfl' _ s) (Within.rfl' _)).attachPart
  · split
    · exact hclear
    · exact (tagsGo_attachPart _).trans hclear

/-! ## Packets at the host die -/

/-- The address that a write of a CROSS_PATH ring leaves noted. -/
theorem crossNote_attachPart (ring seq bus : Nat) (mode : TlpAt) (s : State) : (crossNote ring seq bus mode s).attachPart = s.attachPart := by
  have hread : (crossRead ring seq s).attachPart = s.attachPart := by
    unfold crossRead
    split
    · rfl
    · exact (hostRead_attachPart _ _ _ _ _ _).trans rfl
  unfold crossNote
  split
  · rfl
  dsimp only
  split
  · rfl
  · show (if _ then crossRead ring seq s else s).attachPart = _
    split
    · exact hread
    · rfl

/-- A write that is placed on the link. -/
theorem hostPlace_attachPart (p : Pkt) (s : State) : (hostPlace p s).attachPart = s.attachPart := by
  have htaint : ∀ r q v u, (taintCmd r q v u).attachPart = u.attachPart := fun r q v u =>
    (taintCmd_keeps r q v u (Keeps.rfl' _ u) (Within.rfl' _)).attachPart
  unfold hostPlace
  extract_lets u bad ep s1 s2 s3
  have h1 : s1.attachPart = s.attachPart := by
    unfold s1
    split
    · exact post_attachPart _ _
    · rfl
  have h2 : s2.attachPart = s1.attachPart := by
    unfold s2
    split
    · split
      · exact htaint _ _ _ _
      · rfl
    · rfl
  have h3 : s3.attachPart = s2.attachPart := foldl_attachPart _ (fun t c => by
    dsimp only
    split
    · exact (crossNote_attachPart _ _ _ _ _).trans (State.tlp_attachPart _ _)
    · exact State.tlp_attachPart _ _) _ s2
  exact (send_attachPart _ _).trans (h3.trans (h2.trans h1))

/-- A write that reaches the host die. -/
theorem hostWrite_attachPart (p : Pkt) (s : State) : (hostWrite p s).attachPart = s.attachPart := by
  have hcut : ∀ r q a b u, (cutCmd r q a b u).attachPart = u.attachPart := fun r q a b u =>
    (cutCmd_keeps r q a b u (Keeps.rfl' _ u) (Within.rfl' _)).attachPart
  unfold hostWrite
  dsimp only
  split
  · refine (send_attachPart _ _).trans ?_
    split
    · split
      · exact hcut _ _ _ _ _
      · rfl
    · rfl
  split
  · rfl
  · exact hostPlace_attachPart _ _

/-- A read that reaches the host die. -/
theorem hostReadPkt_attachPart (p : Pkt) (s : State) : (hostReadPkt p s).attachPart = s.attachPart := by
  unfold hostReadPkt
  dsimp only
  split
  · exact hostRead_attachPart _ _ _ _ _ _
  · refine (send_attachPart _ _).trans ?_
    split
    · exact (cutCmd_keeps _ _ _ _ s (Keeps.rfl' _ s) (Within.rfl' _)).attachPart
    · rfl

/-! ## A detach -/

/-- A command that cannot reach a host address any more. -/
theorem hostCut_attachPart (ring seq bus : Nat) (s : State) : (hostCut ring seq bus s).attachPart = s.attachPart :=
  (endWith_attachPart ring seq _ _).trans (cutCmd_keeps _ _ _ _ s (Keeps.rfl' _ s) (Within.rfl' _)).attachPart

/-- A host read that a detach stops. -/
theorem readStopped_attachPart (r : HostRd) (s : State) : (readStopped r s).attachPart = s.attachPart := by
  unfold readStopped
  split
  · exact hostReadPkt_attachPart _ _
  · exact hostCut_attachPart _ _ _ _
  · exact hostCut_attachPart _ _ _ _
  · exact hostCut_attachPart _ _ _ _
  · exact (foldl_attachPart (fun st _ => faultLost _ st) (fun t _ => rfl) _ _).trans rfl
  · rfl

/-- What waits for the link at a detach. -/
theorem waitedStopped_attachPart (w : Waiting) (s : State) : (waitedStopped w s).attachPart = s.attachPart := by
  unfold waitedStopped
  split
  · exact hostWrite_attachPart _ _
  · exact (undelivered_keeps _ s (Keeps.rfl' _ s) (Within.rfl' _)).attachPart

/-- The ATS translations of a function that are dropped. -/
theorem atsDrop_attachPart (fn : Nat) (s : State) : (atsDrop fn s).attachPart = s.attachPart := by
  have hneed : ∀ (l : List AtsReq) (u : State), (l.foldl (fun st a => a.waits.foldl (fun st w => needUnit a.ctx w st) st) u).attachPart =
      u.attachPart := fun l u =>
    foldl_attachPart _ (fun t a => foldl_attachPart _ (fun v w => needUnit_attachPart _ _ _) _ _) l u
  have hxlt : ∀ (u : State) x, (u.withXlt x).attachPart = u.attachPart := fun _ _ => rfl
  unfold atsDrop
  dsimp only
  rw [tagsGo_attachPart, hneed, hxlt]
  exact (dropTlb_keeps _ s (Keeps.rfl' _ s) (Within.rfl' _)).attachPart

/-- The MIGRATEs of a function that are cut, or ask anew. -/
theorem migrateStopped_attachPart (fn : Nat) (s : State) : (migrateStopped fn s).attachPart = s.attachPart := by
  refine foldl_attachPart _ (fun t c => ?_) _ _
  split
  · rfl
  split
  · exact hostCut_attachPart _ _ _ t
  · exact (foldl_attachPart _ (fun u x => needUnit_attachPart _ _ _) _ _).trans rfl

/-- The session of a function that detaches is held from now on. -/
def Sess.hold (x : Sess) (deadline : Nat) : Sess :=
  { x with state := .held, deadline := deadline, claiming := false, redelBusy := false, redelSent := false }

/-- A detach of an attached function holds its session, and leaves the rest of the sessions, the link's state and the count. -/
theorem detachFn_attachPart {fn : Nat} {s : State} (hattached : (s.sessOf fn).state = .attached) :
    (detachFn fn s).attachPart = (s.updSess fn (fun x => x.hold (s.time + s.holdSecs * 100000000))).attachPart := by
  have hundelivered : ∀ x u, (undelivered x u).attachPart = u.attachPart := fun x u =>
    (undelivered_keeps x u (Keeps.rfl' _ u) (Within.rfl' _)).attachPart
  have hpackets : ∀ u, (packetsStopped fn u).attachPart = u.attachPart := fun u =>
    (packetsStopped_keeps fn u (Keeps.rfl' _ u) (Within.rfl' _)).attachPart
  unfold detachFn
  rw [if_neg (by simp [hattached])]
  extract_lets s1 _ mineRing
  have h1 : s1.attachPart = (s.updSess fn (fun x => x.hold (s.time + s.holdSecs * 100000000))).attachPart := rfl
  clear_value s1
  split
  next gone kept _ =>
  extract_lets s2 s3 _ s4 reads _ s5 s6 staged _ s7 _
  split
  next stop go _ =>
  extract_lets s8
  have h2 : s2.attachPart = s1.attachPart :=
    (foldl_attachPart (fun st x => undelivered x st) (fun t x => hundelivered x t) gone _).trans (State.withHif_attachPart s1 _ rfl rfl)
  clear_value s2
  have h3 : s3.attachPart = s2.attachPart := (atsDrop_attachPart fn _).trans (hpackets s2)
  clear_value s3
  have h4 : s4.attachPart = s3.attachPart := rfl
  clear_value s4
  have h5 : s5.attachPart = s4.attachPart := (setReads_attachPart _ _).trans (State.withHif_attachPart s4 _ rfl rfl)
  clear_value s5
  have h6 : s6.attachPart = s5.attachPart := (migrateStopped_attachPart fn _).trans (foldl_attachPart _ (fun t r => by
    split
    · exact readStopped_attachPart _ _
    · rfl) reads s5)
  clear_value s6
  have h7 : s7.attachPart = s6.attachPart := State.withHif_attachPart s6 _ rfl rfl
  clear_value s7
  have h8 : s8.attachPart = s7.attachPart :=
    (foldl_attachPart _ (fun t w => waitedStopped_attachPart w t) stop _).trans (State.withHif_attachPart s7 _ rfl rfl)
  clear_value s8
  exact h8.trans (h7.trans (h6.trans (h5.trans (h4.trans (h3.trans (h2.trans h1))))))

/-- One function of a detach: its session is held, and a claim under way ends. -/
def detachOne (fn : Nat) (s : State) : State :=
  if ((detachFn fn s).sessOf fn).claiming then (detachFn fn s).updSess fn (fun x => { x with claiming := false }) else detachFn fn s

/-- A function that is not attached is not detached. -/
theorem detachFn_unattached {fn : Nat} {s : State} (h : (s.sessOf fn).state ≠ .attached) : detachFn fn s = s := by
  unfold detachFn
  exact if_pos (by simpa using h)

/-- A session that is written a state other than none reads as written. -/
theorem State.sessOf_updSess_same {s : State} {fn : Nat} (f : Sess → Sess) (h : (f (s.sessOf fn)).state ≠ .none) :
    (s.updSess fn f).sessOf fn = f (s.sessOf fn) :=
  look_put_new _ _ _ (fun e => h (congrArg Sess.state e))

/-- A session that is written leaves the others. -/
theorem State.sessOf_updSess_ne {s : State} {fn g : Nat} (f : Sess → Sess) (h : g ≠ fn) : (s.updSess fn f).sessOf g = s.sessOf g :=
  look_put_ne _ _ _ _ (Ne.symm h)

/-- Where the sessions are the same, each is. -/
theorem State.sessOf_of_sess {s t : State} (h : t.sess = s.sess) (f : Nat) : t.sessOf f = s.sessOf f := by
  rw [State.sessOf, h, State.sessOf]

/-- What a detach of one function does to the sessions: an attached one is held, a held one stays held, the others stay. -/
theorem detachFn_sessOf (fn : Nat) (s : State) : ((s.sessOf fn).state = .attached → ((detachFn fn s).sessOf fn).state = .held) ∧
    ((s.sessOf fn).state ≠ .attached → detachFn fn s = s) ∧ (∀ g, g ≠ fn → (detachFn fn s).sessOf g = s.sessOf g) := by
  by_cases h : (s.sessOf fn).state = .attached
  · have hsess : (detachFn fn s).sess = (s.updSess fn (fun x => x.hold (s.time + s.holdSecs * 100000000))).sess :=
      congrArg (fun p => p.2.2.1) (detachFn_attachPart h)
    have hlook := State.sessOf_of_sess hsess
    refine ⟨fun _ => ?_, fun hn => absurd h hn, fun g hg => (hlook g).trans (State.sessOf_updSess_ne _ hg)⟩
    rw [hlook, State.sessOf_updSess_same _ (by simp [Sess.hold])]
    rfl
  · exact ⟨fun ha => absurd ha h, fun _ => detachFn_unattached h, fun g _ => by rw [detachFn_unattached h]⟩

/-- A session that is held stays so while functions detach. -/
theorem detachFn_held {fn f : Nat} {s : State} (h : (s.sessOf f).state = .held) : ((detachFn fn s).sessOf f).state = .held := by
  obtain ⟨-, hstays, hne⟩ := detachFn_sessOf fn s
  by_cases hf : f = fn
  · subst hf
    rw [hstays (by simp [h])]
    exact h
  · rw [hne f hf]
    exact h

/-- The link's state, the count of detaches and the fences. -/
def State.linkPart (s : State) : Nat × Nat × (Nat → Bool) := (s.hif.state, s.hif.detaches, s.fenced)

/-- A detach of one function leaves the link's state, the count and the fences. -/
theorem detachFn_linkPart (fn : Nat) (s : State) : (detachFn fn s).linkPart = s.linkPart := by
  by_cases h : (s.sessOf fn).state = .attached
  · exact congrArg (fun p => (p.1, p.2.1, p.2.2.2)) (detachFn_attachPart h)
  · rw [detachFn_unattached h]

/-- A step of a detach leaves the other sessions, the link's state, the count and the fences; it holds an attached session, and a held one
stays held. -/
theorem detachOne_does (fn : Nat) (s : State) : (detachOne fn s).linkPart = s.linkPart ∧
    ((s.sessOf fn).state = .attached → ((detachOne fn s).sessOf fn).state = .held) ∧
    (∀ f, (s.sessOf f).state = .held → ((detachOne fn s).sessOf f).state = .held) ∧
    (∀ g, g ≠ fn → (detachOne fn s).sessOf g = s.sessOf g) := by
  obtain ⟨hattached, -, hne⟩ := detachFn_sessOf fn s
  have hheld : ∀ f, ((detachFn fn s).sessOf f).state = .held → ((detachOne fn s).sessOf f).state = .held := fun f hf => by
    unfold detachOne
    split
    · by_cases hfn : f = fn
      · subst hfn
        rw [State.sessOf_updSess_same _ (by simp [hf])]
        exact hf
      · rw [State.sessOf_updSess_ne _ hfn]
        exact hf
    · exact hf
  refine ⟨?_, fun h => hheld fn (hattached h), fun f hf => hheld f (detachFn_held hf), fun g hg => ?_⟩
  · unfold detachOne
    split
    · exact (detachFn_linkPart fn s)
    · exact detachFn_linkPart fn s
  · unfold detachOne
    split
    · rw [State.sessOf_updSess_ne _ hg, hne g hg]
    · exact hne g hg

/-- The functions of a list that detach. -/
theorem detachAll_does (fns : List Nat) (s : State) : (fns.foldl (fun st f => detachOne f st) s).linkPart = s.linkPart ∧
    (∀ f ∈ fns, (s.sessOf f).state = .attached → ((fns.foldl (fun st f => detachOne f st) s).sessOf f).state = .held) ∧
    (∀ f, (s.sessOf f).state = .held → ((fns.foldl (fun st f => detachOne f st) s).sessOf f).state = .held) ∧
    (∀ g, g ∉ fns → (fns.foldl (fun st f => detachOne f st) s).sessOf g = s.sessOf g) := by
  induction fns generalizing s with
  | nil => exact ⟨rfl, fun f hf => absurd hf List.not_mem_nil, fun f hf => hf, fun g _ => rfl⟩
  | cons a r ih =>
    obtain ⟨hlink, hattached, hheld, hne⟩ := detachOne_does a s
    obtain ⟨ihlink, ihattached, ihheld, ihne⟩ := ih (detachOne a s)
    refine ⟨ihlink.trans hlink, fun f hf ha => ?_, fun f hf => ihheld f (hheld f hf), fun g hg => ?_⟩
    · by_cases hfa : f = a
      · subst hfa
        exact ihheld f (hattached ha)
      · exact ihattached f ((List.mem_cons.mp hf).resolve_left hfa) (by rw [hne f hfa]; exact ha)
    · rw [List.mem_cons, not_or] at hg
      exact (ihne g hg.2).trans (hne g hg.1)

/-- A host detach: it is counted, the attached sessions among its functions are held, the others stay (12 R417, R418). -/
theorem detach_does (fns : List Nat) (s : State) : (detach fns s).hif.state = s.hif.state ∧
    (detach fns s).hif.detaches = satAdd 0xFFFF s.hif.detaches 1 ∧
    (∀ f ∈ fns, (s.sessOf f).state = .attached → ((detach fns s).sessOf f).state = .held) ∧
    (∀ g, g ∉ fns → (detach fns s).sessOf g = s.sessOf g) := by
  obtain ⟨hlink, hattached, -, hne⟩ := detachAll_does fns (s.withHif { s.hif with detaches := satAdd 0xFFFF s.hif.detaches 1 })
  have hpost : ∀ (c : Prop) [Decidable c] e (u : State), (if c then u else post e u).attachPart = u.attachPart := fun c _ e u => by
    split
    · rfl
    · exact post_attachPart e u
  have hall : (detach fns s).attachPart = (fns.foldl (fun st f => detachOne f st)
      (s.withHif { s.hif with detaches := satAdd 0xFFFF s.hif.detaches 1 })).attachPart := hpost _ _ _
  have hsess : ∀ f, (detach fns s).sessOf f = (fns.foldl (fun st f => detachOne f st)
      (s.withHif { s.hif with detaches := satAdd 0xFFFF s.hif.detaches 1 })).sessOf f := fun f =>
    State.sessOf_of_sess (congrArg (fun p : Nat × Nat × FMap Sess × (Nat → Bool) => p.2.2.1) hall) f
  refine ⟨(congrArg Prod.fst hall).trans (congrArg Prod.fst hlink), (congrArg (fun p => p.2.1) hall).trans (congrArg (fun p => p.2.1) hlink),
    fun f hf ha => ?_, fun g hg => (hsess g).trans (hne g hg)⟩
  rw [hsess f]
  exact hattached f hf ha

/-! ## The commands of the host link -/

/-- The vectors of every function are masked again: none of theirs is listed. -/
theorem resetVecs_all (s : State) : ∀ v ∈ (resetVecs allFns s).msix, 32 ≤ v.1 / 4096 := fun v hv => by
  have hout : has (v.1 / 4096) allFns = false := by simpa using (List.mem_filter.mp hv).2
  by_contra hlt
  have hin : has (v.1 / 4096) allFns = true := by
    simp only [has, allFns, List.any_eq_true, List.mem_range, beq_iff_eq]
    exact ⟨_, Nat.not_le.mp hlt, rfl⟩
  simp [hin] at hout

/-- A function's number is among all. -/
theorem mem_allFns {f : Nat} (h : f < 32) : f ∈ allFns := List.mem_range.mpr h

/-- A detach of functions whose vectors are masked again, on a link in a state (12 R417). -/
theorem detachMasked_holds (fns : List Nat) (n : Nat) (s : State) : (resetVecs fns (detach fns (linkState n s))).hif.state = n ∧
    (resetVecs fns (detach fns (linkState n s))).hif.detaches = satAdd 0xFFFF s.hif.detaches 1 ∧
    (∀ f ∈ fns, (s.sessOf f).state = .attached → ((resetVecs fns (detach fns (linkState n s))).sessOf f).state = .held) := by
  obtain ⟨hstate, hcount, hheld, -⟩ := detach_does fns (linkState n s)
  exact ⟨hstate, hcount, hheld⟩

/-- FLR_VF holds its function's session, and no other (12 R418). -/
theorem execFlrVf_holds {s : State} {fn : Nat} (hpos : 0 < fn) (hlt : fn < 32) (hattached : (s.sessOf fn).state = .attached) :
    ∃ t, exec (.flrVf fn) s = .next t ∧ (t.sessOf fn).state = .held ∧ (t.sessOf fn).flrDetached = true ∧ (∀ g, g < 32 →
    g ≠ fn → t.sessOf g = s.sessOf g) ∧ t.hif.detaches = satAdd 0xFFFF s.hif.detaches 1 := by
  obtain ⟨-, hcount, hheld, hne⟩ := detach_does [fn] s
  have hfn : ((resetVecs [fn] (detach [fn] s)).sessOf fn).state = .held := hheld fn (List.mem_singleton.mpr rfl) hattached
  refine ⟨_, congrArg Host.Outcome.next (if_neg (by omega)), ?_, ?_, fun g _ hg => ?_, hcount⟩
  · rw [State.sessOf_updSess_same _ (by simp [hfn])]
    exact hfn
  · rw [State.sessOf_updSess_same _ (by simp [hfn])]
  · rw [State.sessOf_updSess_ne _ hg]
    exact hne g (by simpa using hg)

/-- PERST_N_ASSERT after READY holds every attached session (12 R417). -/
theorem execPerstNAssert_holds {s : State} (hready : s.glb.ready = true) (hvin : s.vinOut = false) :
    ∃ t, exec (.perstNAssert) s = .next t ∧ t.boot.perst = true ∧ t.boot.configReady = false ∧ t.hif.state = 0 ∧ (∀ f, f < 32 →
    (s.sessOf f).state = .attached → (t.sessOf f).state = .held) := by
  have hboot : ∀ fns u, (resetVecs fns (detach fns u)).boot = u.boot := fun fns u =>
    (detach_keeps fns u (Keeps.rfl' _ u) (Within.rfl' _)).same .boot
  have hexec : exec (.perstNAssert) s =
      .next (resetVecs allFns (detach allFns (linkState 0 (s.withBoot { s.boot with perst := true, configReady := false })))) := by
    show execPerstNAssert s = _
    unfold execPerstNAssert
    dsimp only
    rw [if_neg (by simp [hvin]), if_pos hready]
  obtain ⟨hstate, -, hheld⟩ := detachMasked_holds allFns 0 (s.withBoot { s.boot with perst := true, configReady := false })
  refine ⟨_, hexec, ?_, ?_, hstate, fun f hf => hheld f (mem_allFns hf)⟩
  · rw [hboot]
    rfl
  · rw [hboot]
    rfl

/-- LINK_L0_RETURN with nothing that waits changes the link only (12 R410, R416). -/
theorem execLinkL0Return_up {s : State} {speed width : Nat} (flit : Bool) (hspeed : speed < 16) (hlow : 2 ≤ width) (hhigh : width < 16)
    (hhost : s.boot.hostEnabled = true) (hup : s.siteFailed 57 = false) (hperst : s.boot.perst = false) (hout : s.hif.out = [])
    (hfetched : s.disp.fetched = []) :
    ∃ t, exec (.linkL0Return speed width flit) s = .next t ∧ t.hif = { s.hif with state := 2, speed := speed, width := width, flit := flit } := by
  refine ⟨_, congrArg Host.Outcome.next ((if_neg (by simp [hhost, hup, hperst])).trans
    (if_neg (by rw [Nat.mod_eq_of_lt hhigh]; omega))), ?_⟩
  simp only [hostResume, State.withHif_hif, hout, List.foldl_nil, State.fetchedRings, State.withHif_disp, hfetched, List.map_nil,
    List.eraseDups_nil, Nat.mod_eq_of_lt hspeed, Nat.mod_eq_of_lt hhigh]

/-- A delivered TLP leaves those behind it, and the memory. -/
theorem tlpDone_parts (x : HTlp) (s : State) : (tlpDone x s).hif.tlps = s.hif.tlps ∧ (tlpDone x s).mem = s.mem := by
  unfold tlpDone
  split
  · exact ⟨rfl, rfl⟩
  · exact ⟨rfl, rfl⟩
  · split
    · exact ⟨rfl, rfl⟩
    · exact ⟨rfl, rfl⟩
  · exact ⟨rfl, rfl⟩
  · exact ⟨rfl, rfl⟩

/-- TLP_ACKED delivers the oldest TLP (12 R419). -/
theorem execTlpAcked_next {s : State} {x : HTlp} {r : List HTlp} (h : s.hif.tlps = x :: r) :
    exec (.tlpAcked) s = .next (tlpDone x (s.withHif { s.hif with tlps := r })) := by
  show execTlpAcked s = _
  rw [execTlpAcked, h]

/-- Host reads that end change nothing but the host interface. -/
theorem setReads_keepsHif (l : FMap (Option HostRd)) (s : State) : Keeps [.hif] s (setReads l s) := setReads_keeps l s (Keeps.rfl' _ s) (Within.rfl' _)

/-- The host reads that are outstanding after some have ended are those given. -/
theorem setReads_reads (l : FMap (Option HostRd)) (s : State) : (setReads l s).hif.reads = l := by
  have htlp : ∀ (u : State) x, (u.tlp x).hif.reads = u.hif.reads := fun u x => by
    unfold State.tlp
    split
    · rfl
    · rfl
  unfold setReads tagsGo
  exact foldl_inv (fun t : State => t.hif.reads = l) _ (fun t x h => (htlp t x).trans h) _ _ rfl

/-- HOST_READ_COMPLETION of a packet's read answers it (12 R413). -/
theorem execHostReadCompletion_answers {s : State} {tag : Nat} {data : List Byte} {p : Pkt} (hread : s.readOf tag = some (.pkt p))
    (hop : p.op = .read) (hlen : data.length = p.rdLen) (hsrc : s.fenced p.src = false) (hdst : s.fenced p.dst = false)
    (hdropped : (p.src, p.tid) ∉ s.hub.dropped) :
    ∃ t, exec (.hostReadCompletion tag data true) s = .next t ∧ t.carries (answer .respData p 0 false data) ∧
    (look none t.hif.reads tag = none ∨ wfTable none s.hif.reads = false) ∧ t.mem = s.mem := by
  have hexec : exec (.hostReadCompletion tag data true) s =
      .next (send (answer .respData p 0 false data) (setReads (put none s.hif.reads tag none) s)) := by
    show execHostReadCompletion tag data true s = _
    have hbytes : (data ++ List.replicate p.rdLen 0xFF#8).take p.rdLen = data := by rw [← hlen, List.take_left']; rfl
    rw [execHostReadCompletion, hread]
    simp only [hop, reduceCtorEq, if_false, hbytes]
    rfl
  have hkeeps := setReads_keepsHif (put none s.hif.reads tag none) s
  have hfence : ∀ q, (setReads (put none s.hif.reads tag none) s).fenced q = s.fenced q := hkeeps.grow.fenced
  have hsent := send_keeps (answer .respData p 0 false data) _ (Keeps.rfl' _ (setReads (put none s.hif.reads tag none) s)) (Within.rfl' _)
  refine ⟨_, hexec, send_carries _ _ ((hfence _).trans hdst) ((hfence _).trans hsrc) (fun h => ?_), ?_, ?_⟩
  · have hhub : (setReads (put none s.hif.reads tag none) s).hub = s.hub := hkeeps.same .hub
    exact hdropped (hhub ▸ h.2)
  · rw [hsent.same .hif, setReads_reads]
    cases hwf : wfTable none s.hif.reads with
    | true => exact .inl (look_put_same _ _ _ hwf)
    | false => exact .inr rfl
  · exact (hsent.same .mem).trans (hkeeps.same .mem)

/-- HOST_READ_COMPLETION of a COPY's read keeps its bytes for the COPY (13 R462). -/
theorem execHostReadCompletion_copy {s : State} {tag ring seq off bus : Nat} (data : List Byte) {c : Cmd}
    (hread : s.readOf tag = some (.copy ring seq off bus)) (hcmd : s.cmdOf ring seq = some c) :
    ∃ t, exec (.hostReadCompletion tag data true) s = .next t ∧ (t.cmdOf ring seq).map Cmd.got = some (c.got ++ [(off,
    data, false)]) := by
  have hexec : exec (.hostReadCompletion tag data true) s =
      .next (cmdGot ring seq off bus data true true (setReads (put none s.hif.reads tag none) s)) := by
    show execHostReadCompletion tag data true s = _
    rw [execHostReadCompletion, hread]
  have hcmd' : (setReads (put none s.hif.reads tag none) s).cmdOf ring seq = some c := by
    unfold State.cmdOf
    rw [(setReads_keepsHif _ s).same .disp]
    exact hcmd
  refine ⟨_, hexec, ?_⟩
  unfold cmdGot
  rw [if_pos rfl, State.cmdOf_updCmd_self, hcmd']
  · rfl
  · exact fun _ => rfl
  · exact fun _ => rfl

/-- A host die that is lost holds nothing for the packets of the hub, and its link is down. -/
def hostCleared (s : State) : State := s.withHif { s.hif with
  state := 0, cpls := [], npWait := []
  out := s.hif.out.filter (fun w => match w with | .pkt _ => false | .tlp _ => true)
  reads := s.hif.reads.filter (fun r => match r.2 with | some (.pkt _) => false | _ => true) }

/-- Functions that detach without a count: their attached sessions are held. -/
theorem detachFns_does (fns : List Nat) (s : State) : (fns.foldl (fun st f => detachFn f st) s).hif.state = s.hif.state ∧
    (∀ q, (fns.foldl (fun st f => detachFn f st) s).fenced q = s.fenced q) ∧
    (∀ f ∈ fns, (s.sessOf f).state = .attached → ((fns.foldl (fun st f => detachFn f st) s).sessOf f).state = .held) := by
  have hheld : ∀ f (u : State) (l : List Nat), (u.sessOf f).state = .held → ((l.foldl (fun st f => detachFn f st) u).sessOf f).state = .held :=
    fun f u l hu => foldl_inv (fun t : State => (t.sessOf f).state = .held) _ (fun t g ht => detachFn_held ht) l u hu
  have hlink : (fns.foldl (fun st f => detachFn f st) s).linkPart = s.linkPart :=
    foldl_inv (fun t : State => t.linkPart = s.linkPart) _ (fun t f h => (detachFn_linkPart f t).trans h) fns s rfl
  refine ⟨congrArg Prod.fst hlink, congrFun (congrArg (fun p : Nat × Nat × (Nat → Bool) => p.2.2) hlink), ?_⟩
  clear hlink
  induction fns generalizing s with
  | nil => exact fun f hf => absurd hf List.not_mem_nil
  | cons a r ih =>
    intro f hf ha
    obtain ⟨hattached, -, hne⟩ := detachFn_sessOf a s
    by_cases hfa : f = a
    · subst hfa
      exact hheld f _ r (hattached ha)
    · exact ih (detachFn a s) f ((List.mem_cons.mp hf).resolve_left hfa) (by rw [hne f hfa]; exact ha)

/-- HOST_DIE_FAILURE fences and fails the host die, and holds every attached session (01 R34; 12 R418). -/
theorem execHostDieFailure_holds {s : State} (hup : s.siteFailed 57 = false) :
    ∃ t, exec (.hostDieFailure) s = .next t ∧ t.fenced 57 = true ∧ look 0 t.glb.site 57 = 3 ∧ t.hif.state = 0 ∧ (∀ f, f < 32 →
    (s.sessOf f).state = .attached → (t.sessOf f).state = .held) := by
  obtain ⟨hfenced, hsite⟩ := dieFailed_fenced_site 4 s (show 57 ≠ 63 by decide)
  have hexec : exec (.hostDieFailure) s = .next (allFns.foldl (fun st f => detachFn f st) (hostCleared (dieFailed 57 4 s))) :=
    congrArg Host.Outcome.next (if_neg (by simp [hup]))
  obtain ⟨hstate, hfences, hheld⟩ := detachFns_does allFns (hostCleared (dieFailed 57 4 s))
  have hsess : (hostCleared (dieFailed 57 4 s)).sess = s.sess := (dieFailed_keeps 57 4 s (Keeps.rfl' _ s) (Within.rfl' _)).same .sess
  have hglb : ∀ u, (allFns.foldl (fun st f => detachFn f st) u).glb = u.glb := fun u =>
    foldl_inv (fun t : State => t.glb = u.glb) _ (fun t f h => ((detachFn_keeps f t (Keeps.rfl' _ t) (Within.rfl' _)).same .glb).trans h) _ _ rfl
  refine ⟨_, hexec, (hfences 57).trans hfenced, ?_, hstate, fun f hf ha => hheld f (mem_allFns hf) ?_⟩
  · rw [hglb]
    exact hsite
  · rw [State.sessOf_of_sess hsess]
    exact ha

/-- Settles O37: what holds a session holds it for the rest of the detach. -/
theorem linkAndDetach : Obligations.LinkAndDetach := by
  refine ⟨fun s => ?down, fun s => ?hot, fun s => ?flr, fun s fn => execFlrVf_holds, fun s => execPerstNAssert_holds,
    fun s hready hvin => ?early, fun s hstate => ?recovery, fun s speed width flit => execLinkL0Return_up flit,
    fun s speed width flit hwidth hhost hup hperst => ?narrow, fun s x r htlps => ?acked, fun s fn a ring seq d ep m r htlps => ?record,
    fun s tag data p => execHostReadCompletion_answers, fun s tag ring seq off bus data c => execHostReadCompletion_copy data,
    fun s hup _ => execHostDieFailure_holds hup⟩
  case down =>
    obtain ⟨hstate, hcount, hheld⟩ := detachMasked_holds allFns 0 s
    exact ⟨_, rfl, hstate, hcount, fun f hf => hheld f (mem_allFns hf), resetVecs_all _⟩
  case hot =>
    obtain ⟨hstate, hcount, hheld⟩ := detachMasked_holds allFns 1 s
    exact ⟨_, rfl, hstate, hcount, fun f hf => hheld f (mem_allFns hf), resetVecs_all _⟩
  case flr =>
    obtain ⟨-, hcount, hheld⟩ := detachMasked_holds allFns s.hif.state s
    rw [show linkState s.hif.state s = s from rfl] at hcount hheld
    exact ⟨_, rfl, hcount, fun f hf => hheld f (mem_allFns hf), resetVecs_all _⟩
  case early =>
    have hexec : exec (.perstNAssert) s = .next (linkState 0 (s.withBoot { s.boot with perst := true, configReady := false })) := by
      show execPerstNAssert s = _
      unfold execPerstNAssert
      dsimp only
      rw [if_neg (by simp [hvin]), if_neg (by simp [hready])]
    exact ⟨_, hexec, rfl, rfl, rfl⟩
  case recovery => exact ⟨_, congrArg Host.Outcome.next (if_pos hstate), rfl⟩
  case narrow =>
    exact ⟨_, congrArg Host.Outcome.next ((if_neg (by simp [hhost, hup, hperst])).trans
      (if_pos (by rw [Nat.mod_eq_of_lt (by omega)]; exact hwidth))), rfl⟩
  case acked => exact ⟨_, execTlpAcked_next htlps, tlpDone_parts _ _⟩
  case record => exact ⟨_, execTlpAcked_next htlps, rfl⟩

end Sys2Proof.Machine
end

section
/-!
Sessions: OPEN, CLAIM, RELEASE, the hold and redelivery (12 R424 to R428, R435, R437), and O38.
-/
namespace Sys2Proof.Machine

set_option Elab.async false

/-! ## Who commands a session -/

/-- A command of a session by an agent that may give it is performed. -/
theorem sessCmd_performed {who : Agent} {fn : Nat} {s : State} (hfn : fn < 32) (hgate : s.hostGate who = true)
    (hown : ownFn who fn = true) (k : State → State) : sessCmd who fn k s = k s := by
  unfold sessCmd
  rw [if_neg (by simp [hgate]; omega), if_pos hown]

/-- SETUP_REFUSED leaves the sessions. -/
theorem setupRefused_sess (who : Agent) (off : Nat) (s : State) : (setupRefused who off s).sess = s.sess :=
  (post_keeps _ s (Keeps.rfl' _ s) (Within.rfl' _)).same .sess

/-! ## OPEN and CLAIM -/

/-- OPEN of a session that is none: a token that is a free value (R424). -/
theorem execOpen_opens {who : Agent} {fn : Nat} {s : State} (hfn : fn < 32) (hgate : s.hostGate who = true) (hown : ownFn who fn = true)
    (hnone : (s.sessOf fn).state = .none) :
    ∃ t, exec (.openSession who fn) s = .next t ∧ (t.sessOf fn).state = .attached ∧
    (t.sessOf fn).token = Config.freeWord s.free 1 ∧ t.free = s.free + 1 := by
  refine ⟨_, congrArg Host.Outcome.next ((sessCmd_performed hfn hgate hown _).trans (if_neg (by simp [hnone]))), ?_, ?_, rfl⟩
  · rw [State.sessOf_updSess_same _ (by simp)]
  · rw [State.sessOf_updSess_same _ (by simp)]
    rfl

/-- OPEN of a session in use is refused (R424). -/
theorem execOpen_refused {who : Agent} {fn : Nat} {s : State} (hfn : fn < 32) (hgate : s.hostGate who = true) (hown : ownFn who fn = true)
    (hused : (s.sessOf fn).state ≠ .none) :
    exec (.openSession who fn) s = .next (setupRefused who (sessReg fn) s) :=
  congrArg Host.Outcome.next ((sessCmd_performed hfn hgate hown _).trans (if_pos (by simpa using hused)))

/-- CLAIM with another token is counted, and holds further claims off (R425, R426). -/
theorem execClaim_wrongToken {who : Agent} {fn : Nat} {s : State} (hfn : fn < 32) (hgate : s.hostGate who = true)
    (hown : ownFn who fn = true) (hheld : (s.sessOf fn).state = .held) (hidle : (s.sessOf fn).claiming = false)
    (hopen : (s.sessOf fn).refusal = false) (htoken : (s.sessOf fn).offered ≠ (s.sessOf fn).token) :
    ∃ t, exec (.claim who fn) s = .next t ∧
    (t.sessOf fn).state = .held ∧ (t.sessOf fn).claiming = false ∧ (t.sessOf fn).refusal = true ∧
    (t.sessOf fn).fails = satAdd 0xFF (s.sessOf fn).fails 1 ∧ s.reports t (ev 0x41 (some 57) fn []) := by
  have hpost : ∀ e u, (post e u).sessOf fn = u.sessOf fn := fun e u =>
    State.sessOf_of_sess ((post_keeps e u (Keeps.rfl' _ u) (Within.rfl' _)).same .sess) fn
  refine ⟨_, congrArg Host.Outcome.next ((sessCmd_performed hfn hgate hown _).trans
    ((if_neg (by simp [hheld, hidle, hopen])).trans (if_neg htoken))), ?_⟩
  rw [hpost, State.sessOf_updSess_same _ (by simp [hheld])]
  exact ⟨hheld, hidle, rfl, rfl, post_reports _ (s.updSess fn _) rfl⟩

/-- CLAIM_DONE attaches the session with its token (R425). -/
theorem execClaimDone_attaches {fn : Nat} {s : State} (hclaiming : (s.sessOf fn).claiming = true) (hlink : s.hif.state = 2) :
    ∃ t, exec (.claimDone fn) s = .next t ∧ (t.sessOf fn).state = .attached ∧ (t.sessOf fn).claiming = false ∧
    (t.sessOf fn).token = (s.sessOf fn).token := by
  have htlp : ∀ (u : State) x, (u.tlp x).sess = u.sess := fun u x => (State.tlp_keeps u x (Keeps.rfl' _ u) (Within.rfl' _)).same .sess
  have hfire : ∀ f v u, (msixFire f v u).sess = u.sess := fun f v u => (msixFire_keeps f v u (Keeps.rfl' _ u) (Within.rfl' _)).same .sess
  have hrecord : ∀ c u, (recordTlp c u).sess = u.sess := fun c u => (recordTlp_keeps c u (Keeps.rfl' _ u) (Within.rfl' _)).same .sess
  refine ⟨_, congrArg Host.Outcome.next (if_neg (by simp [hclaiming, hlink])), ?_⟩
  extract_lets s1 s2 due s3
  have h2 : s2.sess = s1.sess := foldl_inv (fun t : State => t.sess = s1.sess) _ (fun t r h => (htlp t _).trans h) _ s1 rfl
  have h3 : s3.sess = s2.sess := foldl_inv (fun t : State => t.sess = s2.sess) _ (fun t v h => (hfire fn v t).trans h) due s2 rfl
  have hall : ∀ l : List Nat, (l.foldl (fun st r => (st.disp.cmds.filter (fun c => c.ring == r && c.phase == .held)).foldl
      (fun u c => recordTlp c u) st) s3).sess = s1.sess := fun l =>
    foldl_inv (fun t : State => t.sess = s1.sess) _ (fun t r h =>
      foldl_inv (fun u : State => u.sess = s1.sess) _ (fun u c hu => (hrecord c u).trans hu) _ t h) l s3 (h3.trans h2)
  rw [State.sessOf_of_sess (hall _), State.sessOf_updSess_same _ (by simp)]
  exact ⟨rfl, rfl, rfl⟩

/-! ## The end of a session -/

/-- A lookup in a table whose entries are filtered and changed in place, at a key whose entries stay. -/
theorem look_filterMap {α : Type} (d : α) (g : Nat × α → Option (Nat × α)) (m : FMap α) (k : Nat) (hkey : ∀ c c', g c = some c' → c'.1 = c.1)
    (hstays : ∀ c, c.1 = k → g c = some c) : look d (m.filterMap g) k = look d m k := by
  induction m with
  | nil => rfl
  | cons c r ih =>
    obtain ⟨j, w⟩ := c
    by_cases hj : j = k
    · rw [List.filterMap_cons_some (hstays (j, w) hj)]
      simp [look, hj]
    · cases hg : g (j, w) with
      | none => rw [List.filterMap_cons_none hg, ih, look, if_neg hj]
      | some c' =>
        obtain ⟨j', w'⟩ := c'
        have hj' : j' = j := hkey _ _ hg
        rw [List.filterMap_cons_some hg, look, look, if_neg hj, if_neg (by rw [hj']; exact hj), ih]

/-- The regions of a function that end leave every register outside their block (12 R439). -/
theorem windowsEnd_reg (fn off : Nat) (s : State) (hoff : off < 0x180000 ∨ 0x1A0000 ≤ off) : (windowsEnd fn s).reg off = s.reg off := by
  refine look_filterMap _ _ s.regs off (fun c c' hc => ?_) (fun c hc => ?_)
  · split at hc
    · dsimp only at hc
      split at hc
      · exact absurd hc (by simp)
      · rw [← Option.some.inj hc]
    · rw [← Option.some.inj hc]
  · rw [if_neg]
    simp only [Bool.and_eq_true, decide_eq_true_eq, hc]
    omega

/-- An event leaves the staged copies. -/
theorem post_staged (e : EvItem) (s : State) : (post e s).hif.staged = s.hif.staged := by
  have htlp : ∀ (u : State) x, (u.tlp x).hif.staged = u.hif.staged := fun u x => by
    unfold State.tlp
    split
    · rfl
    · rfl
  have hfire : ∀ f v u, (msixFire f v u).hif.staged = u.hif.staged := fun f v u => by
    unfold msixFire
    split
    · rfl
    split
    · rfl
    · exact htlp _ _
  have hgather : ∀ f v u, (msixGather f v u).hif.staged = u.hif.staged := fun f v u => by
    unfold msixGather
    split
    · dsimp only
      split
      · exact hfire _ _ _
      · rfl
    · rfl
  have hhost : (postHost e s).hif.staged = s.hif.staged := by
    unfold postHost
    dsimp only
    split
    · exact hgather _ _ _
    · rfl
  have hcore : ∀ d u, (postCore d e u).hif = u.hif := fun d u => (postCore_keeps d e u (Keeps.rfl' _ u) (Within.rfl' _)).same .hif
  unfold post
  dsimp only
  rw [hcore, hcore, hcore, hcore]
  split
  · rfl
  · exact hhost

/-- A session that ends is none, and its staged copies are gone; with no command in the journal none of its records is lost (R427). -/
theorem endSession_ends {fn : Nat} {s : State} (hwf : wfTable {} s.sess = true) : ((endSession fn s).sessOf fn).state = .none ∧
    (s.disp.cmds = [] → s.reports (endSession fn s) (ev 0x42 (some 57) fn [])) ∧ (∀ x ∈ (endSession fn s).hif.staged, x.fn ≠ fn) := by
  have hend : ∀ r q v u, (endWith r q v u).sess = u.sess := fun r q v u => (endWith_keeps r q v u (Keeps.rfl' _ u) (Within.rfl' _)).same .sess
  unfold endSession
  extract_lets mine due held live s1 _ s2 _ s3 s4
  have h1 : s1.sess = s.sess := foldl_inv (fun t : State => t.sess = s.sess) _ (fun t c h => by exact (hend _ _ _ t).trans h) live s rfl
  have hlive : s.disp.cmds = [] → s1 = s ∧ held = 0 := fun hcmds => by
    have hlist : live = [] := by simp only [live, hcmds, List.filter_nil]
    exact ⟨by simp only [s1, hlist, List.foldl_nil], by simp only [held, hcmds, List.filter_nil, List.length_nil]⟩
  clear_value s1 held
  refine ⟨?_, fun hcmds => ?_, fun x hx => ?_⟩
  · rw [State.sessOf_of_sess ((post_keeps _ _ (Keeps.rfl' _ _) (Within.rfl' _)).same .sess), State.sessOf, State.updSess,
      State.withSess_sess, upd, show s4.sess = s.sess from h1, look_put_same _ _ _ hwf]
  · obtain ⟨hs1, hheld⟩ := hlive hcmds
    have harg : fn + at_ (held % 2 ^ 24) 8 = fn := by simp [hheld, at_]
    have hreg : s4.reg oEvtCtl = s3.reg oEvtCtl := windowsEnd_reg fn oEvtCtl s3 (.inr (by decide))
    rw [harg]
    refine (post_reports _ _ rfl).trans ?_
    show s4.hfifo.post (fld (s4.reg oEvtCtl) 47 32) _ (evWords s4.time _) = _
    rw [hreg, ← hs1]
    rfl
  · rw [post_staged] at hx
    simpa using (List.mem_filter.mp hx).2

/-! ## Redelivery -/

/-- A TLP on a link that carries them goes on it at once (R416). -/
theorem State.tlp_up {s : State} (x : HTlp) (h : s.hif.state = 2) : s.tlp x = s.tlpNow x := if_pos h

/-- A list that is worked through ends the redelivery. -/
theorem redelGo_done {fn n : Nat} {s : State} (h : (s.sessOf fn).redel = []) :
    redelGo (n + 1) fn s = s.updSess fn (fun x => { x with redelBusy := false, redelSent := false }) := by
  rw [redelGo, h]

/-- An item that is not redelivered gets its status, and the next one's turn comes (R428). -/
theorem redelGo_refuses {fn n idx st : Nat} {i : RedelItem} {r : List (Nat × RedelItem)} {s : State}
    (hlist : (s.sessOf fn).redel = (idx, i) :: r) (hcheck : redelCheck s fn i = some st) :
    redelGo (n + 1) fn s = redelGo n fn ((redelStatus fn idx st (.redelStatus none) s).updSess fn (fun x =>
      { x with redel := r, redelSent := false })) := by
  rw [redelGo, hlist]
  dsimp only
  rw [hcheck]

/-- The status of an item that ends the list of an attached session: it goes on the link, and the redelivery is over. -/
theorem redelGo_status {fn idx st n : Nat} {use : TlpFor} {s : State} (hattached : (s.sessOf fn).state = .attached)
    (hlink : s.hif.state = 2) : ∃ t, redelGo (n + 1) fn ((redelStatus fn idx st use s).updSess fn (fun x =>
      { x with redel := [], redelSent := false })) = t ∧
    t.hif = { s.hif with tlps := s.hif.tlps ++ [.write fn (s.regFld (sessReg fn + 0x10) 63 6 * 64 + 32 * idx + 11) [BitVec.ofNat 8 st]
      false use (.untranslated none)] } ∧ (t.sessOf fn).redel = [] := by
  have hsess : (redelStatus fn idx st use s).sessOf fn = s.sessOf fn :=
    State.sessOf_of_sess ((State.tlp_keeps s _ (Keeps.rfl' _ s) (Within.rfl' _)).same .sess) fn
  have hlook : ((redelStatus fn idx st use s).updSess fn (fun x => { x with redel := [], redelSent := false })).sessOf fn =
      { s.sessOf fn with redel := [], redelSent := false } := by
    rw [State.sessOf_updSess_same _ (by simp [hsess, hattached]), hsess]
  refine ⟨_, redelGo_done (by rw [hlook]), ?_, ?_⟩
  · show (redelStatus fn idx st use s).hif = _
    rw [redelStatus, State.tlp_up _ hlink]
    rfl
  · rw [State.sessOf_updSess_same _ (by simp [hlook, hattached]), hlook]

/-- The list of a REDELIVER, taken by the session (R428). -/
def redelTake (fn n : Nat) (l : List RedelItem) (s : State) : State :=
  (s.setReg (sessReg fn) (BitVec.ofNat 64 (at_ (n % 4096) 8))).updSess fn (fun x =>
    { x with redel := (List.range l.length).zip l, redelBusy := true, redelSent := false })

/-- The session of a list that is taken. -/
theorem redelTake_sessOf {fn : Nat} (n : Nat) (l : List RedelItem) {s : State} (hattached : (s.sessOf fn).state = .attached) :
    (redelTake fn n l s).sessOf fn =
      { s.sessOf fn with redel := (List.range l.length).zip l, redelBusy := true, redelSent := false } :=
  State.sessOf_updSess_same (s := s.setReg (sessReg fn) (BitVec.ofNat 64 (at_ (n % 4096) 8))) _
    (fun h => absurd (hattached.symm.trans h) (by decide))

/-- A list that is taken changes the session's control register only. -/
theorem redelTake_regFld {off : Nat} (fn n : Nat) (l : List RedelItem) (s : State) (hi lo : Nat) (hoff : sessReg fn ≠ off) :
    (redelTake fn n l s).regFld off hi lo = s.regFld off hi lo :=
  congrArg (fun w => fld w hi lo) (look_put_ne_default _ _ s.regs _ _ _ hoff)

/-- The host interface of a list that is taken. -/
theorem redelTake_hif (fn n : Nat) (l : List RedelItem) (s : State) : (redelTake fn n l s).hif = s.hif := rfl

/-- REDELIVER takes its list, and begins it on a link that carries TLPs (R428). -/
theorem execRedeliver_takes {who : Agent} {fn n : Nat} {items : List RedelItem} {s : State} (hfn : fn < 32) (hgate : s.hostGate who = true)
    (hown : ownFn who fn = true) (hattached : (s.sessOf fn).state = .attached) (hidle : (s.sessOf fn).redelBusy = false)
    (hlen : items.length = n) (hn : n < 4096) :
    exec (.redeliver who fn n items) s =
      .next (if s.hif.state = 2 then redelGo (items.length + 1) fn (redelTake fn n items s) else redelTake fn n items s) := by
  have htake : items.take (n % 4096) = items := by rw [Nat.mod_eq_of_lt hn, ← hlen, List.take_length]
  refine congrArg Host.Outcome.next ((sessCmd_performed hfn hgate hown _).trans ((if_neg (by simp [hattached, hidle])).trans ?_))
  rw [htake]
  rfl

/-- REDELIVER while the link carries nothing takes its list, and begins none of it (R428). -/
theorem execRedeliver_waits {who : Agent} {fn : Nat} {items : List RedelItem} {s : State} (hfn : fn < 32) (hgate : s.hostGate who = true)
    (hown : ownFn who fn = true) (hattached : (s.sessOf fn).state = .attached) (hidle : (s.sessOf fn).redelBusy = false)
    (hlen : items.length < 4096) (hlink : s.hif.state ≠ 2) :
    ∃ t, exec (.redeliver who fn items.length items) s = .next t ∧
    (t.sessOf fn).redel = (List.range items.length).zip items ∧ (t.sessOf fn).redelBusy = true ∧ t.hif = s.hif := by
  refine ⟨_, (execRedeliver_takes hfn hgate hown hattached hidle rfl hlen).trans (congrArg Host.Outcome.next (if_neg hlink)), ?_⟩
  rw [redelTake_sessOf _ _ hattached]
  exact ⟨rfl, rfl, redelTake_hif _ _ _ s⟩

/-- REDELIVER of one item whose copy is missing leaves its status in the list (R428). -/
theorem execRedeliver_refuses {who : Agent} {fn : Nat} {i : RedelItem} {s : State} (hfn : fn < 32) (hgate : s.hostGate who = true)
    (hown : ownFn who fn = true) (hattached : (s.sessOf fn).state = .attached) (hidle : (s.sessOf fn).redelBusy = false)
    (hlink : s.hif.state = 2) (hcheck : redelCheck s fn i = some 1) :
    ∃ t, exec (.redeliver who fn 1 [i]) s = .next t ∧
    t.hif.tlps = s.hif.tlps ++ [.write fn (s.regFld (sessReg fn + 0x10) 63 6 * 64 + 11) [1] false (.redelStatus
    none) (.untranslated none)] := by
  have hlist : ((redelTake fn 1 [i] s).sessOf fn).redel = [(0, i)] := by
    rw [redelTake_sessOf _ _ hattached]
    rfl
  have hsession : ((redelTake fn 1 [i] s).sessOf fn).state = .attached := by
    rw [redelTake_sessOf _ _ hattached]
    exact hattached
  obtain ⟨t, hgo, hhif, -⟩ := redelGo_status (fn := fn) (idx := 0) (st := 1) (n := 0) (use := .redelStatus none) hsession hlink
  have hmissing : redelCheck (redelTake fn 1 [i] s) fn i = some 1 := by
    unfold redelCheck
    rw [redelTake_hif]
    exact hcheck
  have hexec : exec (.redeliver who fn 1 [i]) s = .next t := by
    rw [execRedeliver_takes hfn hgate hown hattached hidle (List.length_singleton (a := i)) (by decide), if_pos hlink, List.length_singleton,
      redelGo_refuses hlist hmissing, hgo]
  refine ⟨t, hexec, ?_⟩
  rw [hhif, redelTake_regFld fn 1 [i] s 63 6 (by omega), redelTake_hif]
  rfl

/-- REDELIVER_ITEM_DONE of the list's last item, with no TLP of its copy outstanding (R428). -/
theorem execRedeliverItemDone_last {fn idx : Nat} {i : RedelItem} {c : Staged} {s : State} (hbusy : (s.sessOf fn).redelBusy = true)
    (hattached : (s.sessOf fn).state = .attached) (hlink : s.hif.state = 2) (hlist : (s.sessOf fn).redel = [(idx, i)])
    (hsent : (s.sessOf fn).redelSent = true) (hcopy : s.stagedOf i.ring i.seq i.region = some c) (hleft : c.left = 0) :
    ∃ t, exec (.redeliverItemDone fn) s = .next t ∧
    t.hif.tlps = s.hif.tlps ++ [.write fn (s.regFld (sessReg fn + 0x10) 63 6 * 64 + 32 * idx + 11) [0] false
    (.redelStatus (some (i.ring,
    i.seq, i.region))) (.untranslated none)] ∧ t.hif.staged = s.hif.staged ∧ (t.sessOf fn).redel = [] := by
  obtain ⟨t, hgo, hhif, hredel⟩ := redelGo_status (fn := fn) (idx := idx) (st := 0) (n := 0)
    (use := .redelStatus (some (i.ring, i.seq, i.region))) hattached hlink
  have hexec : exec (.redeliverItemDone fn) s = .next t := by
    show execRedeliverItemDone fn s = _
    unfold execRedeliverItemDone
    dsimp only
    rw [if_neg (by simp [hbusy, hattached, hlink]), hlist]
    dsimp only
    rw [if_neg (by simp [hsent]), hcopy]
    dsimp only
    rw [if_neg (by simp [hleft])]
    exact congrArg Host.Outcome.next hgo
  refine ⟨t, hexec, ?_, ?_, hredel⟩
  · rw [hhif]
    rfl
  · rw [hhif]

/-- Settles O38: each command of a session by its rule. -/
theorem sessions : Obligations.Sessions := by
  refine ⟨fun s who fn => execOpen_opens, fun s who fn hfn hgate hown hused => ?openRefused,
    fun s who fn hfn hgate hown hheld hidle hopen htoken => ?claim, fun s who fn => execClaim_wrongToken,
    fun s who fn hfn hgate hown hrefusal => ?claimRefused, fun s fn => execClaimDone_attaches, fun s fn => ⟨_, rfl, rfl⟩,
    fun s who fn hfn hgate hown hheld hwf => ?release, fun s fn hheld hidle hwf => ?expiry, fun s fn hclaiming => ?claiming,
    fun s who fn items => execRedeliver_waits, fun s who fn i => execRedeliver_refuses, fun s fn idx i c => execRedeliverItemDone_last,
    fun s fn a ring seq region d ep m r htlps => ?statusAcked, fun s who fn hfn hgate hown => ?read, fun s who hgate hwho => ?linkstat⟩
  case openRefused => exact ⟨_, execOpen_refused hfn hgate hown hused, setupRefused_sess _ _ s, post_reports _ s rfl⟩
  case claim =>
    exact ⟨_, congrArg Host.Outcome.next ((sessCmd_performed hfn hgate hown _).trans
      ((if_neg (by simp [hheld, hidle, hopen])).trans (if_pos htoken))), rfl⟩
  case claimRefused =>
    exact ⟨_, congrArg Host.Outcome.next ((sessCmd_performed hfn hgate hown _).trans (if_pos (by simp [hrefusal]))),
      setupRefused_sess _ _ s, post_reports _ s rfl⟩
  case release =>
    exact ⟨_, congrArg Host.Outcome.next ((sessCmd_performed hfn hgate hown _).trans (if_pos hheld)), endSession_ends hwf⟩
  case expiry =>
    obtain ⟨hnone, hreports, -⟩ := endSession_ends (fn := fn) hwf
    exact ⟨_, congrArg Host.Outcome.next (if_pos (by simp [hheld, hidle])), hnone, hreports⟩
  case claiming => exact ⟨s, congrArg Host.Outcome.next (if_neg (by simp [hclaiming])), rfl⟩
  case statusAcked => exact ⟨_, execTlpAcked_next htlps, rfl⟩
  case read =>
    have hmod : fn % 32 = fn := Nat.mod_eq_of_lt hfn
    have hexec : exec (.hifSessctlRead who fn) s =
        .next ((reply who (sessReg fn) (s.sessCtl fn) s).updSess fn (fun x => { x with fails := 0 })) := by
      show execHifSessctlRead who fn s = _
      unfold execHifSessctlRead
      dsimp only
      rw [hmod, if_pos (by simp [hgate, hown])]
    exact ⟨_, hexec, rfl, rfl⟩
  case linkstat => exact ⟨_, congrArg Host.Outcome.next (if_pos (by simp [hgate, hwho])), rfl, rfl⟩

end Sys2Proof.Machine
end

section
/-!
Completion records and the registers of rings and contexts (13 R442, R446, R453, R475 to R481), and O44.
-/
namespace Sys2Proof.Machine

set_option Elab.async false

/-! ## Rings and vectors that change -/

/-- A ring that changes to something listed reads back. -/
theorem State.ringOf_updRing_same {s : State} {ring : Nat} {f : Ring → Ring} (h : f (s.ringOf ring) ≠ {}) :
    (s.updRing ring f).ringOf ring = f (s.ringOf ring) := look_put_new _ _ _ h

/-- Another ring stays. -/
theorem State.ringOf_updRing_ne {s : State} {r ring : Nat} {f : Ring → Ring} (h : r ≠ ring) :
    (s.updRing r f).ringOf ring = s.ringOf ring := look_put_ne_default _ _ _ _ _ _ h

/-- The rings of a state whose dispatcher stayed. -/
theorem State.ringOf_of_disp {s t : State} (h : t.disp = s.disp) (ring : Nat) : t.ringOf ring = s.ringOf ring :=
  congrArg (fun d : Disp => look ({} : Ring) d.ring ring) h

/-- A vector that changes to something listed reads back. -/
theorem State.look_updVec {s : State} {k : Nat} {f : Vec → Vec} (h : f (look {} s.msix k) ≠ {}) :
    look {} (s.updVec k f).msix k = f (look {} s.msix k) := look_put_new _ _ _ h

/-- Telling rings of their headers leaves what their records say is done. -/
theorem notifyRings_done (secs : List Nat) (s : State) (ring : Nat) : ((notifyRings secs s).ringOf ring).done = (s.ringOf ring).done := by
  refine foldl_inv (fun t : State => (t.ringOf ring).done = (s.ringOf ring).done) _ (fun t r ht => ?_) _ s rfl
  split
  · by_cases hr : r = ring
    · subst hr
      rw [State.ringOf_updRing_same (fun h => absurd (congrArg Ring.watch h) (by simp))]
      exact ht
    · rw [State.ringOf_updRing_ne hr]
      exact ht
  · exact ht

/-- Bytes that an agent of the hub writes leave the commands and what the records of a ring say. -/
theorem cohWrite_ringDone (a : Nat) (bs : List Byte) (s : State) (ring : Nat) :
    ((cohWrite a bs s).ringOf ring).done = (s.ringOf ring).done := by
  unfold cohWrite
  extract_lets s1
  have hw := Within.rfl' [Field.hfifo, .msix, .mem, .stack, .pool, .tier, .cdie, .hif]
  have h1 : Keeps [.hfifo, .msix, .mem, .stack, .pool, .tier, .cdie, .hif] s s1 := by
    refine foldl_keeps _ (fun t n ht => ?_) _ _ (Keeps.rfl' _ s)
    split
    refine storeSector_keeps _ _ _ _ _ (touchFrame_keeps _ _ _ (dropCopies_keeps _ _ ?_ (hw.of rfl)) (hw.of rfl)) (hw.of rfl)
    split
    · exact evCheckword_keeps _ _ _ _ t ht (hw.of rfl)
    · exact ht
  rw [notifyRings_done, State.ringOf_of_disp (h1.same .disp)]

/-! ## MSI-X (13 R478 to R480) -/

/-- A TLP toward the host comes after the TLPs that went before. -/
theorem State.tlp_prefix (s : State) (x : HTlp) : s.hif.tlps <+: (s.tlp x).hif.tlps := by
  unfold State.tlp
  split
  · exact List.prefix_append _ _
  · exact List.prefix_rfl

/-- A vector that changes leaves the host interface. -/
theorem State.updVec_hif (s : State) (k : Nat) (f : Vec → Vec) : (s.updVec k f).hif = s.hif := rfl

theorem msixFire_prefix (fn v : Nat) (s : State) : s.hif.tlps <+: (msixFire fn v s).hif.tlps := by
  unfold msixFire
  split
  · exact List.prefix_rfl
  split
  · exact List.prefix_rfl
  · rw [← State.updVec_hif s]
    exact State.tlp_prefix _ _

theorem msixGather_prefix (fn v : Nat) (s : State) : s.hif.tlps <+: (msixGather fn v s).hif.tlps := by
  unfold msixGather
  split
  · dsimp only
    split
    · rw [← State.updVec_hif s]
      exact msixFire_prefix fn v _
    · exact List.prefix_rfl
  · exact List.prefix_rfl

/-- The message of an unmasked vector goes out on a link that carries it, and the gathering starts anew. -/
theorem msixFire_sends {fn v : Nat} {s : State} (hunmasked : (look {} s.msix (vecKey fn v)).unmasked = true)
    (hheld : (s.sessOf fn).state ≠ .held) (hready : s.glb.ready = true) (hlink : s.hif.state = 2) :
    (msixFire fn v s).hif.tlps = s.hif.tlps ++ [.msix fn v] ∧
    look {} (msixFire fn v s).msix (vecKey fn v) = { look {} s.msix (vecKey fn v) with gathered := 0, pba := false } := by
  unfold msixFire
  rw [if_neg (by simp [hunmasked]), if_neg (by simp [hheld, hready]), State.tlp_up _ (by exact hlink)]
  refine ⟨rfl, State.look_updVec (s := s) (f := fun x => { x with gathered := 0, pba := false }) (fun h => ?_)⟩
  have := congrArg Vec.unmasked h
  simp [hunmasked] at this

/-- A masked vector keeps its message in its PBA bit. -/
theorem msixFire_masked {fn v : Nat} {s : State} (hmasked : (look {} s.msix (vecKey fn v)).unmasked = false) :
    (msixFire fn v s).hif = s.hif ∧
    look {} (msixFire fn v s).msix (vecKey fn v) = { look {} s.msix (vecKey fn v) with pba := true } := by
  unfold msixFire
  rw [if_pos (by simp [hmasked])]
  exact ⟨rfl, State.look_updVec (fun h => absurd (congrArg Vec.pba h) (by simp))⟩

/-- One more event that a vector gathers reads back. -/
theorem gatherOne_look (s : State) (k : Nat) :
    look {} (s.updVec k (fun x => { x with gathered := satAdd 4095 x.gathered 1 })).msix k =
      { look {} s.msix k with gathered := satAdd 4095 (look {} s.msix k).gathered 1 } :=
  State.look_updVec (fun h => Nat.ne_of_gt (satAdd_one_pos _ (by decide)) (congrArg Vec.gathered h))

/-! ## Records (13 R475 to R480) -/

/-- A record has 32 bytes (R476). -/
theorem State.record_length (s : State) (c : Cmd) : (s.record c).length = 32 := by
  simp only [State.record, List.length_append, leBytes_length]

/-- The signal of a record of a host ring comes after the record. -/
theorem recordSignal_prefix {c : Cmd} {s : State} (hhost : s.ringDev c.ring = false) : s.hif.tlps <+: (recordSignal c s).hif.tlps := by
  unfold recordSignal msixNow
  dsimp only
  rw [if_neg (by simp [hhost])]
  split
  · split
    · rw [← State.updVec_hif s]
      exact msixFire_prefix _ _ _
    · exact List.prefix_rfl
  · exact msixGather_prefix _ _ _

/-- The signal of a record of a ring in device memory sends no TLP. -/
theorem recordSignal_keepsTable (c : Cmd) (s : State) : Keeps [.msix, .cdie, .hif] s (recordSignal c s) :=
  recordSignal_keeps c s (Keeps.rfl' _ s) (Within.rfl' _)

section Record
variable {s : State} {ring : Nat} {c : Cmd}
  (hfirst : s.disp.cmds.find? (fun x => x.ring == ring && x.phase != .written && x.phase != .held) = some c)
  (hdone : c.phase = .done) (hplain : s.ringCross ring = false)
include hfirst hdone hplain

/-- The record of a host ring goes on the link, and its signal after it (R475). -/
theorem execRecordWrite_sends (hhost : s.ringDev ring = false) (hattached : s.attached (s.ringFn ring) = true) (hlink : s.hif.state = 2) :
    ∃ t, exec (.recordWrite ring) s = .next t ∧
    t.hif.tlps.take (s.hif.tlps.length + 1) = s.hif.tlps ++ [.write (s.ringFn ring) (s.recAt ring c.seq) (s.record c) false
      (.record ring c.seq) (s.untrans (s.ringCtx ring))] ∧
    (t.ringOf ring).done = max (s.ringOf ring).done (c.seq + 1) ∧
    (∀ x ∈ t.disp.cmds, x.ring = ring → x.seq = c.seq → x.phase = .written) := by
  have hring : c.ring = ring := by
    have h := List.find?_some hfirst
    simp only [Bool.and_eq_true, beq_iff_eq] at h
    exact h.1.1
  refine ⟨recordTlp c s, ?_, ?_⟩
  · show execRecordWrite ring s = _
    unfold execRecordWrite
    rw [hfirst]
    dsimp only
    rw [if_neg (by simp [hdone, hplain]), if_neg (by simp [hhost]), if_neg (by simp [hattached]), if_neg (by simp [hlink])]
  unfold recordTlp
  rw [hring]
  extract_lets fn s1
  rw [State.tlp_up _ (by exact hlink)]
  have hdisp := (recordSignal_keepsTable c (s1.tlpNow (.write fn (s.recAt ring c.seq) (s.record c) false (.record ring c.seq)
    (s.untrans (s.ringCtx ring))))).same .disp
  refine ⟨?_, ?_, ?_⟩
  · have htake := List.prefix_iff_eq_take.mp (recordSignal_prefix (c := c) (s := s1.tlpNow (.write fn (s.recAt ring c.seq) (s.record c) false
      (.record ring c.seq) (s.untrans (s.ringCtx ring)))) (by rw [hring]; exact hhost))
    have hlen : (s1.tlpNow (.write fn (s.recAt ring c.seq) (s.record c) false (.record ring c.seq)
        (s.untrans (s.ringCtx ring)))).hif.tlps.length = s.hif.tlps.length + 1 := List.length_append
    rw [hlen] at htake
    exact htake.symm
  · rw [State.ringOf_of_disp hdisp]
    show (s1.ringOf ring).done = _
    rw [State.ringOf_updRing_same (fun h => absurd (congrArg Ring.done h) (by simp))]
    rfl
  · rw [hdisp]
    intro x hx hxr hxq
    obtain ⟨y, -, rfl⟩ := List.mem_map.mp hx
    split
    · rfl
    · next h =>
      rw [if_neg h] at hxr hxq
      exact absurd (by simp [hxr, hxq]) h

/-- While the function is not attached its record is held (12 R419). -/
theorem execRecordWrite_holds (hhost : s.ringDev ring = false) (hdetached : s.attached (s.ringFn ring) = false) :
    exec (.recordWrite ring) s = .next (s.updCmd ring c.seq (fun x => { x with phase := .held })) := by
  show execRecordWrite ring s = _
  unfold execRecordWrite
  rw [hfirst]
  dsimp only
  rw [if_neg (by simp [hdone, hplain]), if_neg (by simp [hhost]), if_pos (by simp [hdetached])]

/-- The record of a ring in device memory is written there (R453). -/
theorem execRecordWrite_stores (hdev : s.ringDev ring = true) (hok : s.engErr 63 (s.recAt ring c.seq) true = none) :
    ∃ t, exec (.recordWrite ring) s = .next t ∧ t.mem = (cohWrite (s.recAt ring c.seq) (s.record c) s).mem ∧
    (t.ringOf ring).done = max (s.ringOf ring).done (c.seq + 1) ∧
    t.disp.cmds = dropFirst (fun x => x.ring == ring && x.seq == c.seq) s.disp.cmds := by
  show ∃ t, execRecordWrite ring s = .next t ∧ _
  unfold execRecordWrite
  rw [hfirst]
  dsimp only
  rw [if_neg (by simp [hdone, hplain]), if_pos hdev, if_neg (by simp [hok]), if_pos (by simp [hok])]
  have hmem : ∀ u, (recordSignal c u).mem = u.mem := fun u => (recordSignal_keepsTable c u).same .mem
  have hdisp : ∀ u, (recordSignal c u).disp = u.disp := fun u => (recordSignal_keepsTable c u).same .disp
  have hcmds := (cohWrite_stallsStay (s.recAt ring c.seq) (s.record c) s).cmds
  have hring := cohWrite_ringDone (s.recAt ring c.seq) (s.record c) s ring
  generalize cohWrite (s.recAt ring c.seq) (s.record c) s = u at hcmds hring ⊢
  refine ⟨_, rfl, (hmem _).trans rfl, ?_, ?_⟩
  · rw [State.ringOf_of_disp (hdisp _), ← hring]
    exact congrArg Ring.done (State.ringOf_updRing_same (s := u) (ring := ring) (f := fun r => { r with done := max r.done (c.seq + 1) })
      (fun h => absurd (congrArg Ring.done h) (by simp)))
  · rw [hdisp, ← hcmds]
    rfl

end Record

/-! ## The registers of rings and contexts (13 R441, R442, R446) -/

/-- A command that its agent may give now, and whose function it is. -/
theorem ringWrite_performed {who : Agent} {ring : Nat} {s : State} (hgate : s.hostGate who = true)
    (hown : ownFn who (s.ringFn ring) = true) (off : Nat) (k : State → State) : ringWrite who ring off k s = k s := by
  unfold ringWrite
  rw [if_neg (by simp [hgate]), if_pos hown]

section Registers
variable {s : State} {who : Agent} {ring : Nat} (hring : ring < 4096)
include hring

/-- A read of CTX_RSTATr by its owner answers it, and FULLS clears. -/
theorem execCtxRstatRead_clears (hgate : s.hostGate who = true) (hown : ownFn who (s.ringFn ring) = true) :
    exec (.ctxRstatRead who ring) s =
      .next ((reply who (ringCfg ring + 0x30) (s.rstat ring) s).updRing ring (fun x => { x with fulls := 0 })) := by
  show execCtxRstatRead who ring s = _
  unfold execCtxRstatRead
  dsimp only
  rw [Nat.mod_eq_of_lt hring, if_pos (by simp [hgate, hown])]

/-- A read by another function's driver answers 0 (18 R613). -/
theorem execCtxRstatRead_refused (hown : ownFn who (s.ringFn ring) = false) :
    exec (.ctxRstatRead who ring) s = .next (reply who (ringCfg ring + 0x30) 0#64 s) := by
  show execCtxRstatRead who ring s = _
  unfold execCtxRstatRead
  dsimp only
  rw [Nat.mod_eq_of_lt hring, if_neg (by simp [hown])]
  cases who with
  | host f => rfl
  | core c => exact absurd hown (by simp [ownFn])

section Owner
variable (hgate : s.hostGate who = true) (hown : ownFn who (s.ringFn ring) = true)
include hgate hown

/-- A disabled ring of a valid context is enabled. -/
theorem execRingEnable_enables (hoff : s.ringEn ring = false) (hctx : s.ctxValid (s.ringCtx ring) = true)
    (hhost : s.ringDev ring = false) : exec (.ringEnable who ring) s =
      .next (s.setReg (ringCfg ring) (s.reg (ringCfg ring) ||| 0x8000000000000000#64)) := by
  show execRingEnable who ring s = _
  unfold execRingEnable
  dsimp only
  rw [Nat.mod_eq_of_lt hring, ringWrite_performed hgate hown, if_neg (by simp [hoff]), if_neg (by simp [hctx]), if_neg (by simp [hhost])]

/-- A ring of a context that is not valid is not enabled. -/
theorem execRingEnable_refused (hoff : s.ringEn ring = false) (hctx : s.ctxValid (s.ringCtx ring) = false) :
    exec (.ringEnable who ring) s = .next (setupRefused who (ringCfg ring) s) := by
  show execRingEnable who ring s = _
  unfold execRingEnable
  dsimp only
  rw [Nat.mod_eq_of_lt hring, ringWrite_performed hgate hown, if_neg (by simp [hoff]), if_pos (by simp [hctx])]

/-- A ring that is disabled stops fetching. -/
theorem execRingDisable_stops : exec (.ringDisable who ring) s =
    .next (stopFetch ring (s.setReg (ringCfg ring) (s.reg (ringCfg ring) &&& 0x7FFFFFFFFFFFFFFF#64))) := by
  show execRingDisable who ring s = _
  unfold execRingDisable
  dsimp only
  rw [Nat.mod_eq_of_lt hring, ringWrite_performed hgate hown]

/-- A ring that is idle and disabled is reset. -/
theorem execCtxRctlReset_resets (hidle : s.ringState ring = 0) : exec (.ctxRctlReset who ring) s =
    .next ((s.withDisp { s.disp with cmds := s.disp.cmds.filter (fun c => c.ring != ring) }).updRing ring (fun x => { fulls := x.fulls })) := by
  show execCtxRctlReset who ring s = _
  unfold execCtxRctlReset
  dsimp only
  rw [Nat.mod_eq_of_lt hring, ringWrite_performed hgate hown, if_neg (by simp [hidle])]

/-- Another ring is left as it is. -/
theorem execCtxRctlReset_waits (hbusy : s.ringState ring ≠ 0) : exec (.ctxRctlReset who ring) s = .next s := by
  show execCtxRctlReset who ring s = _
  unfold execCtxRctlReset
  dsimp only
  rw [Nat.mod_eq_of_lt hring, ringWrite_performed hgate hown, if_pos (by simpa using hbusy)]

end Owner
end Registers

/-- No ring configuration register comes out of reset enabled. -/
theorem ringCfg_set_ne_reset (ring : Nat) (v : Word) (hring : ring < 4096) :
    (v ||| 0x8000000000000000#64) ≠ regReset (ringCfg ring) := by
  have hreset : regReset (ringCfg ring) = 0#64 := by
    unfold regReset ringCfg
    repeat rw [if_neg (by omega)]
  intro h
  rw [hreset] at h
  exact absurd (congrArg (fun x : Word => x.getLsbD 63) h) (by simp)

/-- What a ring that stops fetching leaves, and what it drops (13 R446, R455). -/
theorem stopFetch_parts (ring : Nat) (s : State) : (stopFetch ring s).regs = s.regs ∧ (stopFetch ring s).disp.cmds = s.disp.cmds ∧
    (∀ c ∈ (stopFetch ring s).disp.fetched, c.ring ≠ ring) ∧ has ring (stopFetch ring s).disp.watching = false := by
  unfold stopFetch
  extract_lets _ s1 s2
  have h2 : Keeps [.hif] s1 s2 := setReads_keepsHif _ s1
  have hdisp : s2.disp = s1.disp := h2.same .disp
  refine ⟨h2.same .regs, (congrArg Disp.cmds hdisp : s2.disp.cmds = s1.disp.cmds), fun c hc => ?_, (congrArg (fun d : Disp => has ring d.watching) hdisp).trans ?_⟩
  · have hc' : c ∈ s1.disp.fetched := hdisp ▸ hc
    simpa using (List.mem_filter.mp hc').2
  · simp [s1, has, del]

/-! ## Vectors that gather (13 R478) -/

/-- The event of a vector that has not reached its COUNT. -/
theorem execMsixEvent_gathers {s : State} {fn vec : Nat} (hvec : vecOk fn vec = true)
    (hfew : satAdd 4095 (look {} s.msix (vecKey fn vec)).gathered 1 < max 1 (s.regFld (coalReg fn vec) 27 16)) :
    exec (.msixEvent fn vec) s = .next (s.updVec (vecKey fn vec) (fun x => { x with gathered := satAdd 4095 x.gathered 1 })) := by
  refine congrArg Host.Outcome.next ?_
  unfold msixGather
  dsimp only
  rw [if_pos hvec, gatherOne_look, if_neg (Nat.not_le.mpr hfew)]

/-- The event with which a vector reaches its COUNT. -/
theorem execMsixEvent_fires {s : State} {fn vec : Nat} (hvec : vecOk fn vec = true)
    (hmany : max 1 (s.regFld (coalReg fn vec) 27 16) ≤ satAdd 4095 (look {} s.msix (vecKey fn vec)).gathered 1) :
    exec (.msixEvent fn vec) s =
      .next (msixFire fn vec (s.updVec (vecKey fn vec) (fun x => { x with gathered := satAdd 4095 x.gathered 1 }))) := by
  refine congrArg Host.Outcome.next ?_
  unfold msixGather
  dsimp only
  rw [if_pos hvec, gatherOne_look, if_pos hmany]

/-- Settles O44: each row by its rule. -/
theorem recordsAndRings : Obligations.RecordsAndRings := by
  unfold Obligations.RecordsAndRings
  refine ⟨?_, ?_, fun _ _ _ h h1 h2 h3 h4 => execRecordWrite_stores h h1 h2 h3 h4, ?_, ?_, ?_, ?_, ?_, ?_,
    fun _ _ _ hring hgate hown hbusy => ⟨_, execCtxRctlReset_waits hring hgate hown hbusy, rfl⟩, ?_, ?_, ?_, ?_, ?_, ?_⟩
  · intro s ring c hfirst hdone hplain hhost hattached hlink
    obtain ⟨t, hexec, htlps, hdoneTo, hwritten⟩ := execRecordWrite_sends hfirst hdone hplain hhost hattached hlink
    exact ⟨t, hexec, htlps, hdoneTo, hwritten, s.record_length c⟩
  · exact fun s ring c hfirst hdone hplain hhost hdetached =>
      ⟨_, execRecordWrite_holds hfirst hdone hplain hhost hdetached, rfl, rfl⟩
  · exact fun s who ring hring hgate hown => ⟨_, execCtxRstatRead_clears hring hgate hown, rfl, rfl⟩
  · exact fun s who ring hring hown => ⟨_, execCtxRstatRead_refused hring hown, rfl, rfl⟩
  · exact fun s who ring hring hgate hown hoff hctx hhost => ⟨_, execRingEnable_enables hring hgate hown hoff hctx hhost,
      look_put_new _ _ _ (ringCfg_set_ne_reset ring _ hring), rfl⟩
  · intro s who ring hring hgate hown hoff hctx
    obtain ⟨hregs, -, -⟩ := setupRefused_parts who (ringCfg ring) s
    exact ⟨_, execRingEnable_refused hring hgate hown hoff hctx, hregs, setupRefused_reports _ _ s⟩
  · intro s who ring hring hgate hown
    obtain ⟨hregs, hcmds, hfetched, hwatching⟩ :=
      stopFetch_parts ring (s.setReg (ringCfg ring) (s.reg (ringCfg ring) &&& 0x7FFFFFFFFFFFFFFF#64))
    exact ⟨_, execRingDisable_stops hring hgate hown, hregs, hfetched, hcmds, hwatching⟩
  · intro s who ring hring hgate hown hidle
    refine ⟨_, execCtxRctlReset_resets hring hgate hown hidle, rfl, fun c hc => ?_⟩
    simpa using (List.mem_filter.mp hc).2
  · intro s who ctx v hctx hgate hwho hfree
    refine ⟨_, congrArg Host.Outcome.next ((pfWrite_performed hgate hwho _ _).trans (if_neg ?_)), ?_, rfl⟩
    · rw [Nat.mod_eq_of_lt hctx]
      rcases hfree with h | h <;> simp [h]
    · rw [Nat.mod_eq_of_lt hctx]
  · intro s who ctx v hctx hgate hwho hclear hvalid hbusy
    obtain ⟨hregs, -, -⟩ := setupRefused_parts who (ctxCfg ctx) s
    refine ⟨setupRefused who (ctxCfg ctx) s, ?_, hregs, setupRefused_reports _ _ s⟩
    refine congrArg Host.Outcome.next ((pfWrite_performed hgate hwho _ _).trans ((if_pos ?_).trans ?_))
    · rw [Nat.mod_eq_of_lt hctx]
      simp [hclear, hvalid, hbusy]
    · rw [Nat.mod_eq_of_lt hctx]
  · intro s fn vec hvec hfew
    exact ⟨_, execMsixEvent_gathers hvec hfew, congrArg Vec.gathered (gatherOne_look s _), rfl⟩
  · intro s fn vec hvec hunmasked hmany hheld hready hlink
    have hlook := gatherOne_look s (vecKey fn vec)
    obtain ⟨htlps, hvecIs⟩ := msixFire_sends (fn := fn) (v := vec)
      (s := s.updVec (vecKey fn vec) (fun x => { x with gathered := satAdd 4095 x.gathered 1 }))
      (by rw [hlook]; exact hunmasked) hheld hready hlink
    refine ⟨_, execMsixEvent_fires hvec hmany, htlps, congrArg Vec.gathered hvecIs, ?_⟩
    rw [hvecIs, hlook]
    exact hunmasked
  · intro s fn vec hvec htime hgathered hmasked
    obtain ⟨hhif, hvecIs⟩ := msixFire_masked (s := s) hmasked
    exact ⟨_, congrArg Host.Outcome.next (if_pos (by simp [hvec, htime, hgathered])), congrArg Vec.pba hvecIs, hhif⟩
  · intro s fn vec hvec hpba hheld hready hlink
    have hlook : look {} (s.updVec (vecKey fn vec) (fun x => { x with unmasked := true })).msix (vecKey fn vec) =
        { look {} s.msix (vecKey fn vec) with unmasked := true } :=
      State.look_updVec (fun h => absurd (congrArg Vec.unmasked h) (by simp))
    obtain ⟨htlps, hvecIs⟩ := msixFire_sends (fn := fn) (v := vec)
      (s := s.updVec (vecKey fn vec) (fun x => { x with unmasked := true })) (by rw [hlook]) hheld hready hlink
    refine ⟨_, congrArg Host.Outcome.next ((if_pos hvec).trans (if_pos hpba)), htlps, ?_, congrArg Vec.pba hvecIs⟩
    rw [hvecIs, hlook]

end Sys2Proof.Machine
end

section
/-!
Transfers, simple descriptors and the placement of a RUN (13 R462 to R471), and O41.
-/
namespace Sys2Proof.Machine

set_option Elab.async false

/-! ## A command but for its waits, its clashes and its tiles -/

/-- What of a command the start of others leaves: all but its waits, its clashes and the tier's tiles it has fetched. -/
def Cmd.bare (c : Cmd) : Cmd := { c with waits := [], clash := [], tiles := [] }

/-- What of the command of a ring and acceptance index the start of others leaves. -/
def State.bareOf (s : State) (ring seq : Nat) : Option Cmd := (s.cmdOf ring seq).map Cmd.bare

/-- Has no command of the ring and acceptance index still to become head? -/
def State.NoneQueued (s : State) (ring seq : Nat) : Prop :=
  ∀ x ∈ s.disp.cmds, x.ring = ring → x.seq = seq → x.phase ≠ .queued

theorem State.bareOf_of_cmds {s t : State} (h : t.disp.cmds = s.disp.cmds) (ring seq : Nat) : t.bareOf ring seq = s.bareOf ring seq :=
  congrArg (fun l : List Cmd => (l.find? (fun c : Cmd => c.ring == ring && c.seq == seq)).map Cmd.bare) h

/-- A change that shows in no such part. -/
theorem State.bareOf_updCmd (s : State) (r q : Nat) {f : Cmd → Cmd} (hf : ∀ c, (f c).bare = c.bare) (ring seq : Nat) :
    (s.updCmd r q f).bareOf ring seq = s.bareOf ring seq := by
  have hring : ∀ c, (f c).bare.ring = c.bare.ring := fun c => congrArg Cmd.ring (hf c)
  have hseq : ∀ c, (f c).bare.seq = c.bare.seq := fun c => congrArg Cmd.seq (hf c)
  unfold State.bareOf
  rw [State.cmdOf_updCmd (f := f) s r q hring hseq, Option.map_map]
  congr 1
  funext c
  dsimp only [Function.comp_apply]
  split
  · exact hf c
  · rfl

/-- Whatever a command shows of those parts. -/
theorem State.cmdOf_map_of_bareOf {s t : State} {ring seq : Nat} {α : Type} (g : Cmd → α) (hg : ∀ c, g c.bare = g c)
    (h : t.bareOf ring seq = s.bareOf ring seq) : (t.cmdOf ring seq).map g = (s.cmdOf ring seq).map g := by
  have h' := congrArg (Option.map g) h
  unfold State.bareOf at h'
  rwa [Option.map_map, Option.map_map, show g ∘ Cmd.bare = g from funext hg] at h'

theorem State.NoneQueued.updCmd {s : State} {ring seq : Nat} (h : s.NoneQueued ring seq) (r q : Nat) {f : Cmd → Cmd}
    (hring : ∀ c, (f c).ring = c.ring) (hseq : ∀ c, (f c).seq = c.seq)
    (hphase : ∀ c ∈ s.disp.cmds, c.ring = ring → c.seq = seq → (f c).phase ≠ .queued) :
    (s.updCmd r q f).NoneQueued ring seq := by
  intro x hx hxr hxq
  obtain ⟨y, hy, rfl⟩ := List.mem_map.mp hx
  by_cases hkey : (y.ring == r && y.seq == q) = true
  · rw [if_pos hkey] at hxr hxq ⊢
    exact hphase y hy ((hring y).symm.trans hxr) ((hseq y).symm.trans hxq)
  · rw [if_neg hkey] at hxr hxq ⊢
    exact h y hy hxr hxq

/-! ## The next head of a ring (13 R465) -/

/-- A wait that is registered takes at most a wait from a command, and changes nothing else of the dispatcher. -/
theorem syncWaitOp_bareOf (n src : Nat) (w : Waiter) (s : State) : (∃ l, (syncWaitOp n src w s).disp = { s.disp with cmds := l }) ∧
    (∀ ring seq, (syncWaitOp n src w s).bareOf ring seq = s.bareOf ring seq) := by
  unfold syncWaitOp
  extract_lets s1
  have h1 : s1.disp = s.disp := rfl
  clear_value s1
  split
  · unfold releaseOne
    split
    · next p tid _ =>
      have hdisp := ((send_keeps ⟨.syncWake, 63, p, tid, n, false, valPayload (s1.syncOf n).val, [], 0⟩ s1 (Keeps.rfl' _ s1)
        (Within.rfl' _)).same .disp).trans h1
      exact ⟨⟨s.disp.cmds, hdisp⟩, State.bareOf_of_cmds (congrArg Disp.cmds hdisp)⟩
    · next r q _ _ =>
      have hlist : ∀ l, { s1.disp with cmds := l } = { s.disp with cmds := l } := fun l => by rw [h1]
      refine ⟨⟨_, hlist _⟩, fun ring seq => ?_⟩
      exact (State.bareOf_updCmd s1 r q (f := fun c => { c with waits := dropFirst (fun x => x.2.1 == w.eq && x.2.2 == w.v) c.waits })
        (fun _ => rfl) ring seq).trans (State.bareOf_of_cmds (congrArg Disp.cmds h1) ring seq)
  · exact ⟨⟨s.disp.cmds, h1⟩, State.bareOf_of_cmds (congrArg Disp.cmds h1)⟩

/-- A command that becomes head registers its waits. -/
theorem headWaits_bareOf (c : Cmd) (s : State) : (∃ l, (headWaits c s).disp = { s.disp with cmds := l }) ∧
    (∀ ring seq, (headWaits c s).bareOf ring seq = s.bareOf ring seq) := by
  unfold headWaits
  refine foldl_inv (fun t : State => (∃ l, t.disp = { s.disp with cmds := l }) ∧ ∀ ring seq, t.bareOf ring seq = s.bareOf ring seq)
    _ (fun t e ⟨⟨l, hl⟩, ht⟩ => ?_) _ s ⟨⟨_, rfl⟩, fun _ _ => rfl⟩
  obtain ⟨⟨l', hl'⟩, ht'⟩ := syncWaitOp_bareOf e.obj 63 ⟨.head c.ring c.seq 0, e.op == 1, BitVec.ofNat 64 e.val⟩ t
  exact ⟨⟨l', by rw [hl', hl]⟩, fun ring seq => (ht' ring seq).trans (ht ring seq)⟩

/-- The next head of a ring is found among the commands: nothing else of the dispatcher changes. -/
theorem promote_disp (n r : Nat) (s : State) : ∃ l, (promote n r s).disp = { s.disp with cmds := l } := by
  induction n generalizing s with
  | zero => exact ⟨_, rfl⟩
  | succ n ih =>
    rw [promote]
    dsimp only
    split
    · exact ⟨_, rfl⟩
    · next c _ =>
      split
      · exact ⟨_, rfl⟩
      split
      · exact ih _
      · exact (headWaits_bareOf c _).1

/-- A command that is past the queue stays as it is when another becomes head. -/
theorem promote_bareOf (n r : Nat) {s : State} {ring seq : Nat} (hnone : s.NoneQueued ring seq) :
    (promote n r s).bareOf ring seq = s.bareOf ring seq := by
  induction n generalizing s with
  | zero => rfl
  | succ n ih =>
    rw [promote]
    split
    · rfl
    · next c hfind =>
      have hmem := List.mem_of_find?_eq_some hfind
      obtain ⟨hc, hr⟩ := List.mem_filter.mp hmem
      have hr : c.ring = r := by simpa using hr
      split
      · rfl
      next hq =>
      have hqueued : c.phase = .queued := by simpa using hq
      have hother : ¬(r = ring ∧ c.seq = seq) := fun h => hnone c hc (hr.trans h.1) h.2 hqueued
      have hstays : ∀ f : Cmd → Cmd, (∀ x, (f x).ring = x.ring) → (∀ x, (f x).seq = x.seq) →
          (s.updCmd r c.seq f).bareOf ring seq = s.bareOf ring seq := fun f hring hseq => by
        unfold State.bareOf
        rw [State.cmdOf_updCmd s r c.seq hring hseq]
        cases hcmd : s.cmdOf ring seq with
        | none => rfl
        | some x =>
          obtain ⟨hxr, hxq⟩ := State.cmdOf_key hcmd
          simp only [Option.map_some]
          rw [if_neg (by simp only [hxr, hxq, Bool.and_eq_true, beq_iff_eq]; exact fun h => hother ⟨h.1.symm, h.2.symm⟩)]
      split
      · refine (ih (hnone.updCmd r c.seq ?_ ?_ ?_)).trans (hstays _ ?_ ?_)
        · exact fun _ => rfl
        · exact fun _ => rfl
        · exact fun x _ _ _ => by simp
        · exact fun _ => rfl
        · exact fun _ => rfl
      · refine ((headWaits_bareOf c _).2 ring seq).trans (hstays _ ?_ ?_)
        · exact fun _ => rfl
        · exact fun _ => rfl

/-! ## Commands that start and end (13 R465, R466) -/

/-- The head of a ring is a command of the ring in phase head. -/
theorem State.headOf_is {s : State} {ring kind : Nat} {c : Cmd} (h : s.headOf ring kind = some c) :
    c.ring = ring ∧ c.phase = .head ∧ c.replayDue = none ∧ c ∈ s.disp.cmds := by
  obtain ⟨hfind, hkind⟩ := Option.filter_eq_some_iff.mp h
  have hkey := List.find?_some hfind
  simp only [Bool.and_eq_true, beq_iff_eq, Option.isNone_iff_eq_none] at hkey hkind
  exact ⟨hkey.1, hkey.2, hkind.2, List.mem_of_find?_eq_some hfind⟩

/-- A command of the journal is found by its ring and acceptance index, it or one with the same. -/
theorem State.cmdOf_of_mem {s : State} {c : Cmd} (h : c ∈ s.disp.cmds) : ∃ y, s.cmdOf c.ring c.seq = some y :=
  Option.isSome_iff_exists.mp (List.find?_isSome.mpr ⟨c, h, by simp⟩)

/-- A command that starts runs, in the order of starts. -/
theorem startCmd_starts {c y : Cmd} {s : State} (h : s.cmdOf c.ring c.seq = some y) :
    (startCmd c s).bareOf c.ring c.seq = some { y.bare with phase := .running, startedAt := s.disp.order } ∧
    (startCmd c s).disp.order = s.disp.order + 1 ∧ (startCmd c s).disp.ptr = s.disp.ptr := by
  unfold startCmd
  extract_lets n _ _
  generalize hu : (s.withDisp { s.disp with order := n + 1, reserved := del c.ring s.disp.reserved }).updCmd c.ring c.seq
    (fun x => { x with phase := .running, startedAt := n }) = u
  have hnone : u.NoneQueued c.ring c.seq := by
    intro x hx hxr hxq
    rw [← hu] at hx
    obtain ⟨z, -, rfl⟩ := List.mem_map.mp hx
    split
    · simp
    · next hkey =>
      rw [if_neg hkey] at hxr hxq
      exact absurd (by simp [hxr, hxq]) hkey
  have hcmd : u.cmdOf c.ring c.seq = some { y with phase := .running, startedAt := n } := by
    rw [← hu, State.cmdOf_updCmd_self]
    · exact congrArg (Option.map _) h
    · exact fun _ => rfl
    · exact fun _ => rfl
  obtain ⟨l, hl⟩ := promote_disp (u.disp.cmds.length + 1) c.ring u
  refine ⟨(promote_bareOf _ c.ring hnone).trans (by rw [State.bareOf, hcmd]; rfl), ?_, ?_⟩
  · rw [promoteRing, hl, ← hu]
    rfl
  · rw [promoteRing, hl, ← hu]
    rfl

/-- A head whose work ends as it starts (R463). -/
theorem workDone_startCmd {ring : Nat} {c : Cmd} {s : State} (hring : c.ring = ring) (hc : c ∈ s.disp.cmds) :
    ((workDone ring c.seq (startCmd c s)).cmdOf ring c.seq).map (fun x => (x.phase, x.startedAt)) = some (.ending, s.disp.order) ∧
    (workDone ring c.seq (startCmd c s)).disp.order = s.disp.order + 1 := by
  subst hring
  obtain ⟨y, hy⟩ := State.cmdOf_of_mem hc
  obtain ⟨hbare, horder, -⟩ := startCmd_starts hy
  refine ⟨?_, horder⟩
  obtain ⟨z, hz, hzy⟩ := Option.map_eq_some_iff.mp hbare
  unfold workDone
  rw [State.cmdOf_updCmd_self, hz]
  · exact congrArg some (Prod.ext rfl (congrArg Cmd.startedAt hzy))
  · exact fun _ => rfl
  · exact fun _ => rfl

theorem headDone_is {ring kind : Nat} {c : Cmd} {s : State} (f : Cmd → State → State) (hhead : s.headOf ring kind = some c) :
    headDone ring kind f s = workDone ring c.seq (startCmd c (f c s)) := by
  unfold headDone
  rw [hhead]

/-- A head of a kind whose work ends as it starts (R463). -/
theorem execHeadDone {i : Instr} {ring kind : Nat} {f : Cmd → State → State} {s : State} {c : Cmd} (hhead : s.headOf ring kind = some c)
    (hi : exec i s = .next (headDone ring kind f s)) (hf : (f c s).disp = s.disp) : ∃ t, exec i s = .next t ∧
    (t.cmdOf ring c.seq).map (fun x => (x.phase, x.startedAt)) = some (.ending, s.disp.order) ∧ t.disp.order = s.disp.order + 1 ∧
    t.pwr = (f c s).pwr := by
  obtain ⟨hring, -, -, hc⟩ := State.headOf_is hhead
  rw [headDone_is f hhead] at hi
  obtain ⟨hcmd, horder⟩ := workDone_startCmd (s := f c s) hring (by rw [hf]; exact hc)
  rw [hf] at hcmd horder
  exact ⟨_, hi, hcmd, horder, (startCmd_keeps c (f c s) (Keeps.rfl' _ _) (Within.rfl' _)).same .pwr⟩

/-- A BARRIER with nothing before it starts, and its work is done (R463). -/
theorem execBarrier_starts {ring : Nat} {s : State} {c : Cmd} (hhead : s.headOf ring 9 = some c) (hnone : s.before c = []) :
    ∃ t, exec (.barrier ring) s = .next t ∧
    (t.cmdOf ring c.seq).map (fun x => (x.phase, x.startedAt)) = some (.ending, s.disp.order) ∧ t.disp.order = s.disp.order + 1 := by
  obtain ⟨hring, -, -, hc⟩ := State.headOf_is hhead
  refine ⟨workDone ring c.seq (startCmd c s), ?_, workDone_startCmd hring hc⟩
  show execBarrier ring s = _
  unfold execBarrier
  rw [hhead]
  dsimp only
  rw [hnone, if_pos List.isEmpty_nil]

theorem execBarrier_waits {ring : Nat} {s : State} {c : Cmd} (hhead : s.headOf ring 9 = some c) (hsome : s.before c ≠ []) :
    exec (.barrier ring) s = .next s := by
  show execBarrier ring s = _
  unfold execBarrier
  rw [hhead]
  dsimp only
  rw [if_neg (by simpa using hsome)]

/-! ## RUN (13 R456, R468 to R471) -/

/-- A head without an outcome ends with the one given. -/
theorem endWith_head {ring seq : Nat} {v : Verdict} {s : State} {c : Cmd} (hcmd : s.cmdOf ring seq = some c) (hphase : c.phase = .head)
    (hout : c.out = {}) (hrank : statusRank v.status < 10) :
    (∃ d, (endWith ring seq v s).cmdOf ring seq = some d ∧ d.phase = .ending ∧ d.out = v) ∧ (endWith ring seq v s).NoneQueued ring seq := by
  have houtcome : s.outcomeOf ring seq = some (.head, {}) := by simp [State.outcomeOf, hcmd, hphase, hout]
  obtain ⟨d, hstopped, hd⟩ := Option.map_eq_some_iff.mp ((stopParts_outcomeOf ring seq s ring seq).trans houtcome)
  obtain ⟨-, hdout⟩ := Prod.mk.inj hd
  have hring : ∀ x : Cmd, (x.addOut v).ring = x.ring := fun x => by unfold Cmd.addOut; split <;> rfl
  have hseq : ∀ x : Cmd, (x.addOut v).seq = x.seq := fun x => by unfold Cmd.addOut; split <;> rfl
  unfold endWith
  rw [hcmd]
  dsimp only
  rw [if_neg (by simp [hphase])]
  refine ⟨?_, ?_⟩
  · rw [State.cmdOf_updCmd_self, hstopped]
    · exact ⟨_, rfl, rfl, Cmd.addOut_fresh hdout hrank⟩
    · exact hring
    · exact hseq
  · intro x hx hxr hxq
    obtain ⟨y, -, rfl⟩ := List.mem_map.mp hx
    split
    · simp
    · next hkey =>
      rw [if_neg hkey] at hxr hxq
      exact absurd (by simp [hxr, hxq]) hkey

/-- A head that is refused ends with the reason as its check (R456). -/
theorem refuseHead_ends {c d : Cmd} {s : State} (reason : Nat) (hcmd : s.cmdOf c.ring c.seq = some d) (hphase : d.phase = .head)
    (hout : d.out = {}) : ((refuseHead c reason s).cmdOf c.ring c.seq).map (fun x => (x.phase, x.out, x.check)) =
      some (.ending, { status := 0x01, reason := reason }, reason) := by
  obtain ⟨⟨e, he, hephase, heout⟩, hnone⟩ := endWith_head (v := { status := 0x01, reason := reason }) hcmd hphase hout (show 0 < 10 by decide)
  unfold refuseHead promoteRing
  generalize endWith c.ring c.seq { status := 0x01, reason := reason } s = u at he hnone ⊢
  have hnone' : (u.updCmd c.ring c.seq (fun x => { x with check := reason })).NoneQueued c.ring c.seq := by
    refine hnone.updCmd c.ring c.seq ?_ ?_ ?_
    · exact fun _ => rfl
    · exact fun _ => rfl
    · exact hnone
  rw [State.cmdOf_map_of_bareOf _ (fun _ => rfl) (promote_bareOf _ c.ring hnone'), State.cmdOf_updCmd_self, he]
  · simp [hephase, heout]
  · exact fun _ => rfl
  · exact fun _ => rfl


/-- The header of an image that is not right ends its RUN with LOAD_REFUSED (05 R149). -/
theorem execRun_badHeader {ring : Nat} {s : State} {c : Cmd} {h : Header} (hhead : s.headOf ring 1 = some c)
    (hread : (runHeader c s).1 = some h) (hbad : h.ok = false) (hcmd : (runHeader c s).2.cmdOf ring c.seq = some c) (hout : c.out = {}) :
    ∃ t, exec (.run ring) s = .next t ∧ (t.cmdOf ring c.seq).map (fun x => (x.phase, x.out)) = some (.ending, loadRefused 1 0) := by
  obtain ⟨-, hphase, -, -⟩ := State.headOf_is hhead
  show ∃ t, execRun ring s = .next t ∧ _
  unfold execRun
  rw [hhead]
  dsimp only
  rw [hread]
  dsimp only
  rw [if_pos (by simp [hbad])]
  obtain ⟨⟨d, hd, hdphase, hdout⟩, hnone⟩ := endWith_head (v := loadRefused 1 0) hcmd hphase hout (show 0 < 10 by decide)
  refine ⟨_, rfl, ?_⟩
  rw [promoteRing, State.cmdOf_map_of_bareOf _ (fun _ => rfl) (promote_bareOf _ ring hnone), hd]
  exact congrArg some (Prod.ext hdphase hdout)

/-- A RUN that no tiles hold is refused with reason 6 (R456). -/
theorem execRun_noRoom {ring : Nat} {s : State} {c : Cmd} {h : Header} (hhead : s.headOf ring 1 = some c)
    (hread : (runHeader c s).1 = some h) (hok : h.ok = true) (hroom : (runHeader c s).2.noRoom c h.count = true)
    (hcmd : (runHeader c s).2.cmdOf ring c.seq = some c) (hout : c.out = {}) :
    ∃ t, exec (.run ring) s = .next t ∧ (t.cmdOf ring c.seq).map (fun x => (x.phase, x.out, x.check)) =
      some (.ending, { status := 0x01, reason := 6 }, 6) := by
  obtain ⟨hring, hphase, -, -⟩ := State.headOf_is hhead
  show ∃ t, execRun ring s = .next t ∧ _
  unfold execRun
  rw [hhead]
  dsimp only
  rw [hread]
  dsimp only
  rw [if_neg (by simp [hok]), if_pos hroom]
  subst hring
  exact ⟨_, rfl, refuseHead_ends 6 hcmd hphase hout⟩

/-- A RUN without in-place regions, whose header and room are right, is placed when it is its ring's turn (R469). -/
theorem execRun_places {ring : Nat} {s s3 : State} {c : Cmd} {h : Header} (hhead : s.headOf ring 1 = some c)
    (hread : (runHeader c s).1 = some h) (hok : h.ok = true) (hroom : (runHeader c s).2.noRoom c h.count = false) (hplain : c.inplace = [])
    (hs3 : s3 = (runHeader c s).2.updCmd ring c.seq (fun x => { x with count := h.count, got := [] })) :
    exec (.run ring) s = .next (if s3.placeTurn != some ring then s3 else match placeCmd c h.count s3 with
      | none => s3
      | some s4 => noteClash ring c.seq (startCmd c (s4.withDisp { s4.disp with ptr := (ring + 1) % 4096 }))) := by
  show execRun ring s = _
  unfold execRun
  rw [hhead]
  dsimp only
  rw [hread, hs3]
  dsimp only
  generalize (runHeader c s).2 = s1 at hroom ⊢
  have hnone : inplacePieces c s1 = (.got [], s1) := by
    unfold inplacePieces
    rw [hplain]
    rfl
  rw [if_neg (by simp [hok]), if_neg (by simp [hroom]), hnone]
  dsimp only
  rw [if_neg (by simp [hplain])] <;> rfl

/-- A part that is placed has its slot, and every slot in use stays as it is. -/
theorem placePart_fills {c : Cmd} {code part : Nat} {s t : State} {p : Part} (h : placePart c code part s = some (p, t)) :
    (t.slotOf p.pos p.slot).map (fun y => (y.ring, y.seq, y.part)) = some (c.ring, c.seq, p.num) ∧
    (∀ pos k x, s.slotOf pos k = some x → t.slotOf pos k = some x) ∧ t.disp = s.disp := by
  unfold placePart at h
  split at h
  · cases h
  · next tile _ =>
    extract_lets pos tl at h
    split at h
    · next k w hk hw =>
      have hfree : look none tl.slots k = none := by simpa using List.find?_some hk
      obtain ⟨rfl, rfl⟩ := Prod.mk.inj (Option.some.inj h)
      have htile : ∀ x : Slot, (s.updTile pos (fun t => { t with slots := put none t.slots k (some x) })).tileOf pos =
          { tl with slots := put none tl.slots k (some x) } := fun x =>
        State.tileOf_updTile (slot := k) (y := x) (look_put_new _ _ _ (Option.some_ne_none x))
      refine ⟨?_, fun pos' k' x hx => ?_, rfl⟩
      · unfold State.slotOf
        rw [htile, look_put_new _ _ _ (Option.some_ne_none _)]
        rfl
      · unfold State.slotOf at hx ⊢
        by_cases hpos : pos' = pos
        · subst hpos
          rw [htile]
          have hne : k ≠ k' := fun e => by
            subst e
            exact absurd (hfree.symm.trans hx) (Option.some_ne_none x).symm
          exact (look_put_ne _ _ _ _ hne).trans hx
        · rw [State.tileOf, State.updTile, State.withTile_tile, upd, look_put_ne _ _ _ _ (Ne.symm hpos)]
          exact hx
    · cases h

/-- Parts that are placed have their slots, each its own (R468). -/
theorem placeParts_fills {c : Cmd} {code : Nat} (n i : Nat) {s t : State} {l : List Part} (h : placeParts c code n i s = some (l, t)) :
    l.length = n ∧ (∀ p ∈ l, (t.slotOf p.pos p.slot).map (fun y => (y.ring, y.seq, y.part)) = some (c.ring, c.seq, p.num)) ∧
    (∀ pos k x, s.slotOf pos k = some x → t.slotOf pos k = some x) ∧ t.disp = s.disp := by
  induction n generalizing i s l with
  | zero =>
    obtain ⟨rfl, rfl⟩ := Prod.mk.inj (Option.some.inj h)
    exact ⟨rfl, fun p hp => absurd hp List.not_mem_nil, fun _ _ _ hx => hx, rfl⟩
  | succ n ih =>
    rw [placeParts] at h
    split at h
    · cases h
    · next p s1 hp =>
      obtain ⟨r, hr, hl⟩ := Option.map_eq_some_iff.mp h
      obtain ⟨l', t'⟩ := r
      obtain ⟨rfl, rfl⟩ := Prod.mk.inj hl
      obtain ⟨hlen, hslots, hstay, hdisp⟩ := ih (i + 1) hr
      obtain ⟨hslot, hstay1, hdisp1⟩ := placePart_fills hp
      refine ⟨congrArg Nat.succ hlen, fun q hq => ?_, fun pos k x hx => hstay pos k x (hstay1 pos k x hx), hdisp.trans hdisp1⟩
      rcases List.mem_cons.mp hq with rfl | hq
      · obtain ⟨y, hy, hkey⟩ := Option.map_eq_some_iff.mp hslot
        rw [hstay _ _ y hy]
        exact congrArg some hkey
      · exact hslots q hq

/-- A clash that is noted changes commands only in what clashes, and leaves the tiles (R470). -/
theorem noteClash_parts (ring seq : Nat) (s : State) : (noteClash ring seq s).tile = s.tile ∧
    (noteClash ring seq s).disp.ptr = s.disp.ptr ∧ ∀ r q, (noteClash ring seq s).bareOf r q = s.bareOf r q := by
  refine ⟨(noteClash_keeps ring seq s (Keeps.rfl' _ s) (Within.rfl' _)).same .tile, ?_⟩
  unfold noteClash
  split
  · exact ⟨rfl, fun _ _ => rfl⟩
  · dsimp only
    refine foldl_inv (fun t : State => t.disp.ptr = s.disp.ptr ∧ ∀ r q, t.bareOf r q = s.bareOf r q) _ (fun t x ⟨hptr, ht⟩ => ?_) _ s
      ⟨rfl, fun _ _ => rfl⟩
    split
    · exact ⟨hptr, ht⟩
    · have hundefine := fun u => (undefineClash_keeps ring seq u (Keeps.rfl' _ u) (Within.rfl' _)).same .disp
      refine ⟨(congrArg Disp.ptr (hundefine _)).trans hptr, fun r q => ?_⟩
      refine (State.bareOf_of_cmds (congrArg Disp.cmds (hundefine _)) r q).trans ?_
      refine (State.bareOf_updCmd _ _ _ ?_ r q).trans ((State.bareOf_updCmd _ _ _ ?_ r q).trans (ht r q))
      · exact fun _ => rfl
      · exact fun _ => rfl

/-- All parts of a RUN are placed together, and it starts (R468, R469). -/
theorem execRun_starts {ring : Nat} {s s3 s4 : State} {c : Cmd} {h : Header} (hhead : s.headOf ring 1 = some c)
    (hread : (runHeader c s).1 = some h) (hok : h.ok = true) (hroom : (runHeader c s).2.noRoom c h.count = false) (hplain : c.inplace = [])
    (hs3 : s3 = (runHeader c s).2.updCmd ring c.seq (fun x => { x with count := h.count, got := [] }))
    (hturn : s3.placeTurn = some ring) (hplace : placeCmd c h.count s3 = some s4) (hcmd : (runHeader c s).2.cmdOf ring c.seq = some c) :
    ∃ t, exec (.run ring) s = .next t ∧ (∃ x ∈ t.disp.cmds, x.ring = ring ∧ x.seq = c.seq ∧ x.phase = .running ∧
    x.count = h.count ∧ x.parts.length = c.nparts ∧ ∀ p ∈ x.parts, (t.slotOf p.pos p.slot).map (fun y => (y.ring,
    y.seq, y.part)) = some (ring, c.seq, p.num)) ∧ t.disp.ptr = (ring + 1) % 4096 := by
  have hexec := execRun_places hhead hread hok hroom hplain hs3
  rw [hturn, if_neg (by simp), hplace] at hexec
  dsimp only at hexec
  refine ⟨_, hexec, ?_⟩
  clear hexec
  obtain ⟨rfl, -, -, -⟩ := State.headOf_is hhead
  obtain ⟨r, hr, hs4⟩ := Option.map_eq_some_iff.mp hplace
  obtain ⟨l, s3'⟩ := r
  obtain ⟨hlen, hslots, -, hdisp3⟩ := placeParts_fills c.nparts 0 hr
  dsimp only at hs4
  -- the state whose command starts
  generalize hu : s4.withDisp { s4.disp with ptr := (c.ring + 1) % 4096 } = u
  have hsent : Keeps [.link, .hub] (s3'.updCmd c.ring c.seq (fun x => { x with parts := l })) s4 := by
    rw [← hs4]
    exact foldl_keeps _ (fun t p ht => send_keeps _ t ht (Within.rfl' _)) l _ (Keeps.rfl' _ _)
  have hucmd : u.cmdOf c.ring c.seq = some { c with count := h.count, got := [], parts := l } := by
    have h3 : s3.cmdOf c.ring c.seq = some { c with count := h.count, got := [] } := by
      rw [hs3, State.cmdOf_updCmd_self, hcmd]
      · rfl
      · exact fun _ => rfl
      · exact fun _ => rfl
    have h3' : s3'.cmdOf c.ring c.seq = some { c with count := h.count, got := [] } := by
      unfold State.cmdOf
      rw [hdisp3]
      exact h3
    have h4 : u.disp.cmds = (s3'.updCmd c.ring c.seq (fun x => { x with parts := l })).disp.cmds := by
      rw [← hu]
      exact (congrArg Disp.cmds (show s4.disp = _ from hsent.same .disp) : s4.disp.cmds = _)
    unfold State.cmdOf
    rw [h4]
    refine (State.cmdOf_updCmd_self ?_ ?_).trans (congrArg (Option.map _) h3')
    · exact fun _ => rfl
    · exact fun _ => rfl
  obtain ⟨hstarted, -, hptr⟩ := startCmd_starts hucmd
  obtain ⟨htile, hptr', hbare⟩ := noteClash_parts c.ring c.seq (startCmd c u)
  have hslot : ∀ pos k, (noteClash c.ring c.seq (startCmd c u)).slotOf pos k = s3'.slotOf pos k := fun pos k => by
    have htiles : (noteClash c.ring c.seq (startCmd c u)).tile = s3'.tile := by
      rw [htile, (startCmd_keeps c u (Keeps.rfl' _ u) (Within.rfl' _)).same .tile, ← hu]
      exact hsent.same .tile
    unfold State.slotOf State.tileOf
    rw [htiles]
  refine ⟨?_, hptr'.trans (hptr.trans (by rw [← hu]; rfl))⟩
  obtain ⟨x, hx, hxbare⟩ := Option.map_eq_some_iff.mp ((hbare c.ring c.seq).trans hstarted)
  obtain ⟨hxring, hxseq⟩ := State.cmdOf_key hx
  have hparts : x.parts = l := congrArg Cmd.parts hxbare
  refine ⟨x, List.mem_of_find?_eq_some hx, hxring, hxseq, congrArg Cmd.phase hxbare, congrArg Cmd.count hxbare, ?_, fun p hp => ?_⟩
  · rw [hparts, hlen]
  · rw [hslot]
    exact hslots p (hparts ▸ hp)


/-! ## Checkpoints (13 R471) -/

/-- A read that meets no stale check word changes nothing. -/
theorem serveReads_fresh {a n : Nat} {s : State} (h : ∀ k ∈ sectorsOf a n, s.staleWord k = false) : serveReads a n s = s :=
  foldl_stays fun k hk => if_neg (by simp [h k hk])

theorem serveReads_disp (a n : Nat) (s : State) : (serveReads a n s).disp = s.disp :=
  (serveReads_keeps a n s (Keeps.rfl' _ s) (Within.rfl' _)).same .disp

/-- Fetching the tiles of a transfer notes them at its command. -/
theorem tilesReady_bareOf (c : Cmd) (write : Bool) (l : List Nat) (s : State) (ring seq : Nat) :
    (tilesReady c write l s).2.bareOf ring seq = s.bareOf ring seq := by
  unfold tilesReady
  extract_lets miss here s1
  have h1 : s1.bareOf ring seq = s.bareOf ring seq := by
    refine State.bareOf_updCmd s c.ring c.seq ?_ ring seq
    exact fun _ => rfl
  clear_value s1
  refine (State.bareOf_of_cmds (congrArg Disp.cmds (?_ : _ = s1.disp)) ring seq).trans h1
  exact (foldl_keeps (ws := [.tier]) _ (fun t a ht => startFetch_keeps _ _ t ht (Within.rfl' _)) miss s1 (Keeps.rfl' _ s1)).same .disp

/-- Every in-place region of a head is copied (R471). -/
theorem execCheckpointDone_copies {ring seq : Nat} {s s1 s2 : State} {c : Cmd} {l : List (Nat × Nat)} (hcmd : s.cmdOf ring seq = some c)
    (hphase : c.phase = .head) (hat : c.ckptAt ≠ 0) (hdue : c.ckptDone = false) (hreplay : c.replayDue = none)
    (hpieces : inplacePieces c s = (.got l, s1)) (hok : ∀ p ∈ l, s1.engErr 63 p.1 false = none)
    (hready : tilesReady c false (l.map Prod.fst) s1 = (true, s2)) :
    ∃ t, exec (.checkpointDone ring seq) s = .next t ∧ (t.cmdOf ring seq).map Cmd.ckptDone = some true ∧
    (t.cmdOf ring seq).map (fun x => x.ckpt.map (fun v => (v.lo, v.len))) = some l ∧ ((∀ p ∈ l,
    ∀ k ∈ sectorsOf p.1 p.2, s2.staleWord k = false) → t.mem = s2.mem) := by
  have hnone : l.findSome? (fun p => (s1.engErr 63 p.1 false).map (fun r => (r, p.1))) = none :=
    List.findSome?_eq_none_iff.mpr fun p hp => by rw [hok p hp]; rfl
  show ∃ t, execCheckpointDone ring seq s = .next t ∧ _
  unfold execCheckpointDone
  rw [hcmd]
  dsimp only
  rw [if_neg (by simp [hphase, hat, hdue, hreplay]), hpieces]
  dsimp only
  rw [hnone]
  dsimp only
  rw [hready]
  dsimp only
  rw [if_neg (by simp)]
  refine ⟨_, rfl, ?_⟩
  have hserve : ((l.foldl (fun st p => serveReads p.1 p.2 st) s2)).disp = s2.disp :=
    foldl_inv (fun t : State => t.disp = s2.disp) _ (fun t p ht => (serveReads_disp _ _ t).trans ht) l s2 rfl
  have hkept : (l.foldl (fun st p => serveReads p.1 p.2 st) s2).bareOf ring seq = some c.bare := by
    have hpiecesKeep := (inplacePieces_keeps c s (Keeps.rfl' _ s) (Within.rfl' _)).same .disp
    have htiles := tilesReady_bareOf c false (l.map Prod.fst) s1 ring seq
    rw [hpieces] at hpiecesKeep
    rw [hready] at htiles
    rw [State.bareOf_of_cmds (congrArg Disp.cmds hserve), htiles, State.bareOf_of_cmds (congrArg Disp.cmds hpiecesKeep), State.bareOf, hcmd]
    rfl
  have hmem : (∀ p ∈ l, ∀ k ∈ sectorsOf p.1 p.2, s2.staleWord k = false) → l.foldl (fun st p => serveReads p.1 p.2 st) s2 = s2 :=
    fun h => foldl_stays fun p hp => serveReads_fresh (h p hp)
  generalize l.foldl (fun st p => serveReads p.1 p.2 st) s2 = s3 at hkept hmem ⊢
  obtain ⟨x, hx, -⟩ := Option.map_eq_some_iff.mp hkept
  have hafter : (s3.updCmd ring seq (fun x => { x with ckpt := l.map (fun p => s3.snapshot p.1 p.2), ckptDone := true })).cmdOf ring seq =
      some { x with ckpt := l.map (fun p => s3.snapshot p.1 p.2), ckptDone := true } := by
    rw [State.cmdOf_updCmd_self, hx]
    · rfl
    · exact fun _ => rfl
    · exact fun _ => rfl
  rw [hafter]
  refine ⟨rfl, congrArg some ?_, fun h => (congrArg State.mem (hmem h) : s3.mem = s2.mem)⟩
  dsimp only
  rw [List.map_map]
  exact List.map_id l

/-! ## COPY and FILL (13 R462) -/

/-- An access that hits changes no command. -/
theorem useEntry_hit_cmds {t : Tlb} {ctx : Nat} {w : XltWait} {e : TlbEnt} {s u : State} {h : Hit}
    (hit : useEntry t ctx w e s = (some h, u)) : u.disp.cmds = s.disp.cmds := by
  unfold useEntry at hit
  split at hit
  · obtain ⟨-, rfl⟩ := Prod.mk.inj hit
    exact (clearWait_leavesUnstalled w w _).cmds.trans (tlbNote_stallsStay t e s).cmds
  · cases hit
  · cases hit
  · cases hit

theorem walkNow_hit_cmds {ctx : Nat} {w : XltWait} {s u : State} {h : Hit} (hit : walkNow ctx w s = (some h, u)) :
    u.disp.cmds = s.disp.cmds := by
  have hwalk := (walkWhole_stallsStay ctx w.dva s).cmds
  unfold walkNow at hit
  split at hit
  · cases hit
  · cases hit
  · next heq =>
    rw [heq] at hwalk
    exact (useEntry_hit_cmds hit).trans hwalk

theorem xltAccess_hit_cmds {t : Tlb} {now : Bool} {ctx : Nat} {w : XltWait} {s u : State} {h : Hit}
    (hit : xltAccess t now ctx w s = (some h, u)) : u.disp.cmds = s.disp.cmds := by
  unfold xltAccess xltTry at hit
  split at hit
  · cases hit
  dsimp only at hit
  split at hit
  · cases hit
  split at hit
  · exact useEntry_hit_cmds hit
  · split at hit
    · cases hit
    · refine (useEntry_hit_cmds hit).trans ?_
      split
      · rfl
      · exact (prefetchNext_stallsStay _ _ _).cmds
  · split at hit
    · cases hit
    · exact walkNow_hit_cmds hit

/-- A range all of whose pieces hit changes no command. -/
theorem xltPieces_hit_cmds {ring seq ctx a n : Nat} {write : Bool} {s u : State} {l : List (Nat × Nat × Hit)}
    (hit : xltPieces ring seq ctx a n write s = (some l, u)) : u.disp.cmds = s.disp.cmds := by
  have hall : (xltPieces ring seq ctx a n write s).1.isSome = true → (xltPieces ring seq ctx a n write s).2.disp.cmds = s.disp.cmds := by
    unfold xltPieces
    refine foldl_inv (fun x : Option (List (Nat × Nat × Hit)) × State => x.1.isSome = true → x.2.disp.cmds = s.disp.cmds) _
      (fun acc p hacc => ?_) _ (some [], s) (fun _ => rfl)
    obtain ⟨o, v⟩ := acc
    cases o with
    | none => exact hacc
    | some m =>
      dsimp only
      cases hx : xltAccess .none true ctx ⟨.cmd ring seq, p.1, write⟩ v with
      | mk h st =>
        cases h with
        | none => exact fun h => absurd h (by simp)
        | some h => exact fun _ => (xltAccess_hit_cmds hx).trans (hacc rfl)
  rw [hit] at hall
  exact hall rfl

theorem sectorsOf_sector {a : Nat} (h : a % 64 = 0) : sectorsOf a 64 = [a / 64] := by
  unfold sectorsOf
  rw [if_neg (by decide), show (a + 64 - 1) / 64 - a / 64 + 1 = 1 by omega]
  rfl

theorem cutRange_sector {a : Nat} (h : a % 64 = 0) : cutRange 64 (64 / 64 + 2) a 64 = [(a, 64)] := by
  simp [cutRange, h]

theorem State.outside_direct {s : State} {a : Nat} (h : s.zone a = .direct) : s.outside a = false := by
  simp [State.outside, h]

/-- The bytes of one piece. -/
theorem dataAt_one {bs : List Byte} (hlen : bs.length ≤ 64) : dataAt [(0, bs, false)] 0 64 = (bs, false) := by
  unfold dataAt
  simp only [List.foldl_cons, List.foldl_nil]
  split
  · next h => simp; omega
  · next h =>
    have : bs = [] := List.length_eq_zero_iff.mp (by omega)
    simp [this]

/-- A sector of direct memory is read at once. -/
theorem copySource_sector {c : Cmd} {a : Nat} {s : State} (hzone : s.zone a = .direct) (ha : a % 64 = 0)
    (hfresh : s.staleWord (a / 64) = false) (hclean : s.cohPoison a 64 = none) :
    copySource c [(0, 64, .dev a)] s = (some [(0, s.cohRead a 64, false)], s) := by
  have hout := State.outside_direct hzone
  have hserve : serveReads a 64 s = s := serveReads_fresh fun k hk => by
    rw [sectorsOf_sector ha, List.mem_singleton] at hk
    rw [hk]
    exact hfresh
  have hpoison : (s.cohSector (a / 64)).2 = false := by
    have := List.find?_eq_none.mp hclean (a / 64) (by rw [sectorsOf_sector ha]; exact List.mem_singleton.mpr rfl)
    simpa using this
  have hdata : devData s 0 a 64 = [(0, s.cohRead a 64, false)] := by
    unfold devData
    rw [cutRange_sector ha]
    simp [hpoison]
  have hcut : [(0, 64, Hit.dev a)].flatMap (cutPeer s) = [(0, 64, .dev a)] := by simp [cutPeer, hout]
  unfold copySource
  dsimp only
  rw [hcut]
  simp [hout, hserve, hdata]

/-- Clean sources taint nothing. -/
theorem taintSource_clean {c : Cmd} {src a : Nat} {s : State} (hzone : s.zone a = .direct) (hclean : s.cohPoison a 64 = none) :
    taintSource c src [(0, 64, .dev a)] s = s := by
  simp [taintSource, State.outside_direct hzone, hclean]

/-- A sector of direct memory is written at once, and the transfer's work ends. -/
theorem transferOut_sector {c : Cmd} {b : Nat} {bs : List Byte} {s : State} (hzone : s.zone b = .direct) (hb : b % 64 = 0)
    (hlen : bs.length ≤ 64) : transferOut c [(0, bs, false)] [(0, 64, .dev b)] s =
      (cohWrite b bs s).updCmd c.ring c.seq (fun x => { x with outDone := [0], phase := .ending }) := by
  have hwrite : writeData [(0, bs, false)] 0 b 64 s = cohWrite b bs s := by
    unfold writeData
    rw [cutRange_sector hb]
    simp [dataAt_one hlen]
  unfold transferOut
  simp [hzone, hwrite]

/-- A transfer that has not started is its ring's head. -/
theorem State.transferOf_head {s : State} {ring kind : Nat} {c : Cmd} (h : s.transferOf ring kind = some c) (hphase : c.phase = .head) :
    s.headOf ring kind = some c := by
  unfold State.transferOf at h
  split at h
  · next d hd =>
    have hrun := List.find?_some hd
    rw [Option.some.inj h] at hrun
    simp [hphase] at hrun
  · exact h

/-- A head that the engine takes stays in the journal. -/
theorem takeTransfer_listed {c : Cmd} {s : State} (hphase : c.phase = .head) (hc : c ∈ s.disp.cmds) :
    ((takeTransfer c s).bareOf c.ring c.seq).isSome = true := by
  obtain ⟨y, hy⟩ := State.cmdOf_of_mem hc
  unfold takeTransfer
  rw [if_pos hphase, (noteClash_parts c.ring c.seq _).2.2, (startCmd_starts hy).1]
  rfl

/-- What the last step of a transfer leaves of its command. -/
theorem transferEnd_cmdOf {ring seq b : Nat} {bs : List Byte} {s : State} (h : (s.bareOf ring seq).isSome = true) :
    (((cohWrite b bs s).updCmd ring seq (fun x => { x with outDone := [0], phase := .ending })).cmdOf ring seq).map (fun x => (x.phase,
    x.outDone)) = some (.ending, [0]) := by
  rw [← State.bareOf_of_cmds (cohWrite_stallsStay b bs s).cmds] at h
  obtain ⟨x, hx⟩ := Option.isSome_iff_exists.mp h
  obtain ⟨y, hy, -⟩ := Option.map_eq_some_iff.mp hx
  rw [State.cmdOf_updCmd_self, hy]
  · rfl
  · exact fun _ => rfl
  · exact fun _ => rfl

theorem badPiece_sector {s : State} {a : Nat} {write : Bool} (h : s.engErr 63 a write = none) :
    badPiece s write [(0, 64, .dev a)] = none := by
  simp [badPiece, h]

/-- A COPY of one sector between places of direct memory (R462). -/
theorem execCopy_sector {s s1 s2 s3 : State} {ring a b : Nat} {c : Cmd} (hof : s.transferOf ring 2 = some c) (hphase : c.phase = .head)
    (hlen : c.fld 32 8 = 64)
    (hsrc : xltPieces ring c.seq (s.ringCtx ring) (c.fld 16 8) 64 false (takeTransfer c s) = (some [(0, 64, .dev a)], s1))
    (hdst : xltPieces ring c.seq (s.ringCtx ring) (c.fld 24 8) 64 true s1 = (some [(0, 64, .dev b)], s2)) (ha : a % 64 = 0)
    (hb : b % 64 = 0) (hreads : s2.engErr 63 a false = none) (hwrites : s2.engErr 63 b true = none)
    (hready : tilesReady c true [b] (tilesReady c false [a] s2).2 = (true, s3)) (hready' : (tilesReady c false [a] s2).1 = true)
    (hza : s3.zone a = .direct) (hzb : s3.zone b = .direct) (hfresh : s3.staleWord (a / 64) = false) (hclean : s3.cohPoison a 64 = none) :
    ∃ t, exec (.copy ring) s = .next t ∧ t.mem = (cohWrite b (s3.cohRead a 64) s3).mem ∧
    (t.cmdOf ring c.seq).map (fun x => (x.phase, x.outDone)) = some (.ending, [0]) := by
  obtain ⟨hring, -, -, hc⟩ := State.headOf_is (State.transferOf_head hof hphase)
  have hbare : (s3.bareOf ring c.seq).isSome = true := by
    have h3 := tilesReady_bareOf c true [b] (tilesReady c false [a] s2).2 ring c.seq
    rw [hready, tilesReady_bareOf, State.bareOf_of_cmds (xltPieces_hit_cmds hdst), State.bareOf_of_cmds (xltPieces_hit_cmds hsrc)] at h3
    rw [h3, ← hring]
    exact takeTransfer_listed hphase hc
  refine ⟨(cohWrite b (s3.cohRead a 64) s3).updCmd ring c.seq (fun x => { x with outDone := [0], phase := .ending }), ?_, rfl,
    transferEnd_cmdOf hbare⟩
  show execCopy ring s = _
  unfold execCopy
  rw [hof]
  dsimp only
  rw [hlen, hsrc]
  dsimp only
  rw [hdst]
  dsimp only
  rw [badPiece_sector hreads, badPiece_sector hwrites]
  dsimp only
  change (tilesReady c false (devAddrs [(0, 64, .dev a)]) s2).1 = true at hready'
  change tilesReady c true (devAddrs [(0, 64, .dev b)]) (tilesReady c false (devAddrs [(0, 64, .dev a)]) s2).2 = _ at hready
  rw [if_neg (by simp [hready', hready]), hready]
  dsimp only
  rw [copySource_sector hza ha hfresh hclean]
  dsimp only
  rw [taintSource_clean hza hclean, transferOut_sector hzb hb (bs := s3.cohRead a 64) (List.length_take_le _ _), hring]

/-- The bytes of a FILL are as many as its length at most. -/
theorem fillBytes_length (c : Cmd) : (fillBytes c).length ≤ c.fld 24 8 := by
  have hpat : ((c.desc.drop 32).take 8).length ≤ 8 := List.length_take_le _ _
  unfold fillBytes
  dsimp only
  rw [List.length_flatten, List.map_map, show List.length ∘ (fun _ : Nat => (c.desc.drop 32).take 8) =
    fun _ => ((c.desc.drop 32).take 8).length from rfl, List.map_const', List.sum_replicate, List.length_range, smul_eq_mul]
  calc _ ≤ c.fld 24 8 / 8 * 8 := Nat.mul_le_mul_left _ hpat
    _ ≤ c.fld 24 8 := Nat.div_mul_le_self _ _

/-- A FILL of one sector of direct memory (R462). -/
theorem execFill_sector {s s1 s2 : State} {ring b : Nat} {c : Cmd} (hof : s.transferOf ring 3 = some c) (hphase : c.phase = .head)
    (hlen : c.fld 24 8 = 64)
    (hdst : xltPieces ring c.seq (s.ringCtx ring) (c.fld 16 8) 64 true (takeTransfer c s) = (some [(0, 64, .dev b)], s1))
    (hb : b % 64 = 0) (hwrites : s1.engErr 63 b true = none) (hready : tilesReady c true [b] s1 = (true, s2)) (hzb : s2.zone b = .direct) :
    ∃ t, exec (.fill ring) s = .next t ∧ t.mem = (cohWrite b (fillBytes c) s2).mem ∧
    (t.cmdOf ring c.seq).map (fun x => (x.phase, x.outDone)) = some (.ending, [0]) := by
  obtain ⟨hring, -, -, hc⟩ := State.headOf_is (State.transferOf_head hof hphase)
  have hbare : (s2.bareOf ring c.seq).isSome = true := by
    have h2 := tilesReady_bareOf c true [b] s1 ring c.seq
    rw [hready, State.bareOf_of_cmds (xltPieces_hit_cmds hdst)] at h2
    rw [h2, ← hring]
    exact takeTransfer_listed hphase hc
  refine ⟨(cohWrite b (fillBytes c) s2).updCmd ring c.seq (fun x => { x with outDone := [0], phase := .ending }), ?_, rfl,
    transferEnd_cmdOf hbare⟩
  show execFill ring s = _
  unfold execFill
  rw [hof]
  dsimp only
  rw [hlen, hdst]
  dsimp only
  rw [badPiece_sector hwrites]
  dsimp only
  change tilesReady c true (devAddrs [(0, 64, .dev b)]) s1 = _ at hready
  rw [if_neg (by simp [hready]), hready]
  dsimp only
  rw [transferOut_sector hzb hb (hlen ▸ fillBytes_length c), hring]

/-- Settles O41: each row by its rule. -/
theorem descriptorsAndPlacement : Obligations.DescriptorsAndPlacement := by
  unfold Obligations.DescriptorsAndPlacement
  refine ⟨fun s ring c hhead => ?_, fun s ring c hhead => ?_, fun s ring c hhead => ?_, fun _ _ _ => execBarrier_starts,
    fun _ _ _ hhead hsome => ⟨_, execBarrier_waits hhead hsome, rfl⟩, ?_, ?_, fun _ _ _ _ => execRun_badHeader, fun _ _ _ _ => execRun_noRoom,
    fun _ _ _ _ _ _ => execRun_starts, ?_, fun _ _ _ _ _ _ _ => execCheckpointDone_copies, ?_⟩
  · obtain ⟨t, hexec, hcmd, horder, -⟩ := execHeadDone (f := fun _ u => u) hhead (i := .waitDescriptor ring) rfl rfl
    exact ⟨t, hexec, hcmd, horder⟩
  · obtain ⟨t, hexec, hcmd, horder, -⟩ := execHeadDone (f := fun _ u => u) hhead (i := .signalDescriptor ring) rfl rfl
    exact ⟨t, hexec, hcmd, horder⟩
  · exact execHeadDone (f := fun d u => (u.hintTiles d).foldl (fun st k => addHint k (d.fld 16 1 % 4) (d.fld 18 2) st) u) hhead
      (i := .hintDescriptor ring) rfl ((foldl_keeps _ (fun u k hu => addHint_keeps k _ _ u hu (Within.rfl' _)) _ s (Keeps.rfl' _ s)).same .disp)
  · exact fun s s1 s2 s3 ring a b c hof hphase hlen hsrc hdst _ _ ha hb hreads hwrites hready hready' hza hzb hfresh hclean =>
      execCopy_sector hof hphase hlen hsrc hdst ha hb hreads hwrites hready hready' hza hzb hfresh hclean
  · exact fun s s1 s2 ring b c hof hphase hlen hdst hb hwrites hready _ hzb => execFill_sector hof hphase hlen hdst hb hwrites hready hzb
  · intro s s3 ring c h hhead hread hok hroom hplain hs3 hstays
    refine ⟨s3, (execRun_places hhead hread hok hroom hplain hs3).trans (congrArg Host.Outcome.next ?_), rfl⟩
    by_cases hturn : s3.placeTurn = some ring
    · rw [if_neg (by simp [hturn]), hstays.resolve_left (fun h => h hturn)]
    · exact if_pos (by simpa using hturn)
  · intro s ring c hhead hfree
    refine ⟨s.withDisp { s.disp with reserved := s.disp.reserved ++ [ring] }, ?_, rfl⟩
    show execResourceWaitLimit ring s = _
    unfold execResourceWaitLimit
    rw [hhead]
    dsimp only
    rw [if_neg (by simp [hfree])]

end Sys2Proof.Machine
end

section
/-!
O40. A poll while the link is down: it reads no doorbell line, but it reads the header of a stopped ring in device memory again, whatever the
link's state (13 R445, R453), and takes the PROD it finds there.
-/
namespace Sys2Proof.Machine

set_option Elab.async false

/-- Ring 0 is enabled, in device memory, and stopped: its 16 slots are full, its last PROD was 17, and its header in memory is 0. The host
link is down. -/
def ringStoppedLinkDown : State :=
  { State.reset with
    glb := { State.reset.glb with ready := true }
    regs := [(0x210000, 0xC000000000000000#64)]
    disp := { State.reset.disp with accepting := true, ring := [(0, { fetched := 16, want := 16, prod := 17, stopped := true })] } }

/-- The poll takes the PROD of the header. -/
theorem doorbellPoll_ringStopped : ∃ t, exec .doorbellPoll ringStoppedLinkDown = .next t ∧ (t.ringOf 0).prod = 0 :=
  ⟨_, rfl, by decide +kernel⟩

/-- Refutes O40: the clause on a poll while the link does not carry reads. -/
theorem not_doorbellsAndAcceptance : ¬ Obligations.DoorbellsAndAcceptance := by
  rintro ⟨hpoll, -⟩
  obtain ⟨t, hclause, hsame⟩ := hpoll ringStoppedLinkDown (by decide)
  obtain ⟨u, hexec, hprod⟩ := doorbellPoll_ringStopped
  obtain rfl := Host.Outcome.next.inj (hexec.symm.trans hclause)
  rw [hsame] at hprod
  exact absurd hprod (by decide)

end Sys2Proof.Machine
end

section
/-!
Writes through the placement aperture and its registers (12 R415, R429 to R434, R438, R439), and O39.
-/
namespace Sys2Proof.Machine

set_option Elab.async false

/-! ## Where addresses go -/

/-- A slot of the pool's cache lies at one of the four pool dies. -/
theorem State.slotDie_lt (s : State) (v : Nat) : s.slotDie v < 4 := by
  unfold State.slotDie
  split
  · decide
  split
  · decide
  split <;> decide

theorem State.cachedBy_lt {s : State} {a d : Nat} (h : s.cachedBy a = some d) : d < 4 := by
  unfold State.cachedBy at h
  split at h
  · cases h
  dsimp only at h
  split at h
  · rw [← Option.some.inj h]
    exact s.slotDie_lt _
  · cases h

/-- The scratch dies and the peers that addresses name. -/
theorem State.zone_bounds (s : State) (a : Nat) : (∀ d, s.zone a = .scratch d → d < 4) ∧ (∀ n, s.zone a = .ranoa n → n < 8) := by
  have hscratch : scratchBase 4 = scratchBase 0 + 4 * 0x80000000 := by decide
  unfold State.zone
  split
  · refine ⟨fun d hd => ?_, fun d hd => ?_⟩
    · repeat (first | split at hd | cases hd)
    · repeat (first | split at hd | cases hd)
  split
  · exact ⟨fun d hd => (nomatch hd), fun d hd => (nomatch hd)⟩
  split
  · dsimp only
    constructor
    · intro d hd
      split at hd
      · cases hd
      split at hd
      · cases hd
      · have := Zone.scratch.inj hd
        omega
    · intro d hd
      repeat (first | split at hd | cases hd)
  split
  · exact ⟨fun d hd => (nomatch hd), fun d hd => (nomatch hd)⟩
  split
  · exact ⟨fun d hd => (nomatch hd), fun d hd => (nomatch hd)⟩
  split
  · exact ⟨fun d hd => (nomatch hd), fun d hd => (nomatch hd)⟩
  split
  · refine ⟨fun d hd => (nomatch hd), fun n hn => ?_⟩
    have := Zone.ranoa.inj hn
    omega
  · exact ⟨fun d hd => (nomatch hd), fun d hd => (nomatch hd)⟩

/-- Every address that has a target has a port (02 R50). -/
theorem State.targetOf_ne_noPort {s : State} {a dst : Nat} (h : s.targetOf a = some dst) : dst ≠ noPort := by
  have hhbm : ∀ x, (match s.cachedBy x with | some d => some (49 + d) | none => some (33 + s.stackFor x)) = some dst → dst ≠ 64 := by
    intro x hx
    split at hx
    · next d hd =>
      have := State.cachedBy_lt hd
      have := Option.some.inj hx
      omega
    · have hlt : s.stackFor x < 16 := Nat.mod_lt _ (by decide)
      have := Option.some.inj hx
      omega
  obtain ⟨hscratch, hranoa⟩ := s.zone_bounds a
  unfold State.targetOf at h
  dsimp only at h
  have hfixed : ∀ n, n ≠ 64 → some n = some dst → dst ≠ 64 := fun n hn e => Option.some.inj e ▸ hn
  split at h
  · exact hhbm _ h
  · exact hhbm _ h
  · exact hhbm _ h
  · exact hhbm _ h
  · split at h
    · exact hhbm _ h
    · exact hfixed 63 (by decide) h
  · next d hd => exact hfixed (49 + d) (by have := hscratch d hd; omega) h
  · exact hfixed 52 (by decide) h
  · exact hfixed 63 (by decide) h
  · exact hfixed 57 (by decide) h
  · next n hn => exact hfixed (58 + n / 4) (by have := hranoa n hn; omega) h
  · cases h

/-! ## Writes that are dropped (R429 to R432) -/

/-- A write that is dropped is counted, and the first one's reason and requester are kept (R432, R438). -/
theorem placeLog_parts (rid off reason : Nat) (s : State) :
    (placeLog rid off reason s).hif.plog.dropped = satAdd 0xFFFFFFFF s.hif.plog.dropped 1 ∧ (placeLog rid off reason s).mem = s.mem ∧
    (placeLog rid off reason s).hub = s.hub ∧ (s.hif.plog.captured = false → (placeLog rid off reason s).hif.plog.reason = reason ∧
      (placeLog rid off reason s).hif.plog.rid = rid % 65536) := by
  refine ⟨rfl, rfl, rfl, fun h => ?_⟩
  unfold placeLog
  rw [State.withHif_hif]
  dsimp only
  rw [if_neg (by simp [h])]
  exact ⟨rfl, rfl⟩

section Write
variable {s : State} {rid off i : Nat} {data : List Byte} {ep : Bool} (hok : tlpOk off data.length = true)
include hok

theorem execPlacementWrite_noRegion (hwin : s.winFor off = none) : exec (.placementWrite rid off data ep) s = .next (placeLog rid off 0x1 s) := by
  show execPlacementWrite rid off data ep s = _
  unfold execPlacementWrite
  rw [if_neg (by simp [hok]), hwin]

variable (hwin : s.winFor off = some i)
include hwin

theorem execPlacementWrite_leaves (hend : (s.win i).base + (s.win i).size < off + data.length) :
    exec (.placementWrite rid off data ep) s = .next (placeLog rid off 0x3 s) := by
  show execPlacementWrite rid off data ep s = _
  unfold execPlacementWrite
  rw [if_neg (by simp [hok]), hwin]
  dsimp only
  rw [if_pos hend]

variable (hend : off + data.length ≤ (s.win i).base + (s.win i).size)
include hend

theorem execPlacementWrite_otherRequester (hrid : Nat.land rid (s.win i).mask ≠ Nat.land (s.win i).rid (s.win i).mask) :
    exec (.placementWrite rid off data ep) s = .next (placeLog rid off 0x2 s) := by
  show execPlacementWrite rid off data ep s = _
  unfold execPlacementWrite
  rw [if_neg (by simp [hok]), hwin]
  dsimp only
  rw [if_neg (by omega), if_pos (by simpa using hrid)]

variable (hrid : Nat.land rid (s.win i).mask = Nat.land (s.win i).rid (s.win i).mask)
  (hattached : (s.sessOf (s.ctxFn (s.win i).ctx)).flrDetached = false)
include hrid hattached

theorem execPlacementWrite_poisoned : exec (.placementWrite rid off data true) s = .next (placeLog rid off 0x6 s) := by
  show execPlacementWrite rid off data true s = _
  unfold execPlacementWrite
  rw [if_neg (by simp [hok]), hwin]
  dsimp only
  rw [if_neg (by omega), if_neg (by rw [hrid]; simp), if_neg (by simp [hattached]), if_pos rfl]

/-- A write that is accepted waits behind those of its requester (R431, R433). -/
theorem execPlacementWrite_accepted (hpage : off % 4096 + data.length ≤ 4096) : exec (.placementWrite rid off data false) s =
    .next (placeGo s.hif.placeNext (s.withHif { s.hif with
      placeNext := s.hif.placeNext + 1
      placeWait := s.hif.placeWait ++ [⟨s.hif.placeNext, rid, off, (s.win i).ctx, i, (s.win i).dva + (off - (s.win i).base), data,
        ((s.win i).count data.length).1, ((s.win i).count data.length).2⟩] })) := by
  show execPlacementWrite rid off data false s = _
  unfold execPlacementWrite
  rw [if_neg (by simp [hok]), hwin]
  dsimp only
  rw [if_neg (by omega), if_neg (by rw [hrid]; simp), if_neg (by simp [hattached]), if_neg (by simp), if_neg (by simp [tlpCrosses]; omega)]

end Write

/-! ## A write that is accepted (R431, R433) -/

/-- A whole sector of good data is one piece with its check word. -/
theorem placePieces_sector {a : Nat} {bytes : List Byte} (ha : a % 64 = 0) (hlen : bytes.length = 64) :
    placePieces a bytes = [⟨a, 64, a, bytes, [crc32c bytes], 0, false⟩] := by
  have hbytes : bytes.take 64 = bytes := List.take_of_length_le (by omega)
  unfold placePieces rowSects
  rw [hlen, cutRange_sector ha]
  simp [writePieces, hbytes, hlen]

/-- A translated access that hits its first level, and waits for nothing. -/
theorem xltAccess_checkerHit {s : State} {ctx : Nat} {w : XltWait} {e : TlbEnt} {h : Hit} (hfree : s.stalledWait w = false)
    (hlow : w.dva < 2 ^ 55) (hfind : tlbFind ctx (w.dva / 0x10000) s.xlt.checker = some e) (hans : e.ans w.dva w.write = .hit h) (now : Bool) :
    xltAccess .checker now ctx w s = (some h, s.withXlt { s.xlt with checker := tlbPut 1024 e s.xlt.checker }) := by
  have hnone : (tlbNote .checker e s).xlt.stalls.any (fun x => x.waits.any (fun y => y == w)) = false := hfree
  unfold xltAccess xltTry
  rw [if_neg (by simp [hfree])]
  dsimp only
  rw [if_neg (by omega), show s.tlbOf .checker = s.xlt.checker from rfl, hfind]
  dsimp only
  rw [hans]
  unfold useEntry
  rw [hans]
  dsimp only [clearWait]
  rw [if_neg (by simp [hnone])]
  rfl


/-- A piece of whole sectors goes to its home as a write, at once when its source may issue. -/
theorem placeSend_whole {n a len off dst src : Nat} {bytes : List Byte} {checks : List (BitVec 32)} {s : State}
    (htarget : s.targetOf a = some dst) (hmay : s.mayIssue src) :
    placeSend src n ⟨a, len, off, bytes, checks, 0, false⟩ s = issue ⟨.write, src, dst, 0, a, false, bytes, checks, 0⟩ (.place n) s := by
  unfold placeSend placeSendAs
  dsimp only
  rw [htarget]
  dsimp only
  exact request_mayIssue (p := ⟨.write, src, dst, 0, a, false, bytes, checks, 0⟩) _ hmay

/-- A request to a port that exists is on its way, unless a fence holds it. -/
theorem issue_carries {p : Pkt} {s : State} (use : Use) (hdst : p.dst ≠ noPort) (hvc : opVc p.op ≠ 1) (hsrcOpen : s.fenced p.src = false)
    (hdstOpen : s.fenced p.dst = false) : (issue p use s).carries { p with tid := look 0 s.hub.nextTid p.src } := by
  unfold issue
  dsimp only
  rw [if_neg hdst]
  exact send_carries _ _ hsrcOpen hdstOpen (fun h => hvc h.1)

/-- A request that is issued leaves the host interface and the counted writes. -/
theorem issue_parts (p : Pkt) (use : Use) (s : State) : (issue p use s).hif = s.hif ∧ (issue p use s).counted = s.counted := by
  have hkeeps := issue_keeps p use s (Keeps.rfl' _ s) (Within.rfl' _)
  exact ⟨hkeeps.same .hif, hkeeps.same .counted⟩

/-- The one write of its requester that waits, with a number of its own, goes on alone. -/
theorem placeGo_alone {p : Placing} {s : State} {l : List Placing} (hwait : s.hif.placeWait = l ++ [p])
    (hothers : ∀ q ∈ l, q.n ≠ p.n ∧ q.rid ≠ p.rid) (hgone : (placeTry p s).hif.placeWait = l) : placeGo p.n s = placeTry p s := by
  have hfindN : s.hif.placeWait.find? (fun q => q.n == p.n) = some p := by
    rw [hwait, List.find?_append, List.find?_eq_none.mpr (fun q hq => by simpa using (hothers q hq).1)]
    simp
  have hfindRid : s.hif.placeWait.find? (fun q => q.rid == p.rid) = some p := by
    rw [hwait, List.find?_append, List.find?_eq_none.mpr (fun q hq => by simpa using (hothers q hq).2)]
    simp
  have hfirst : s.hif.placeWait.any (fun q => q.rid == p.rid && decide (q.n < p.n)) = false := by
    rw [hwait, List.any_append]
    simp only [Bool.or_eq_false_iff, List.any_eq_false]
    exact ⟨fun q hq => by simp [(hothers q hq).2], fun q hq => by simp [List.mem_singleton.mp hq]⟩
  have hleft : (placeTry p s).hif.placeWait.any (fun q => q.n == p.n) = false := by
    rw [hgone, List.any_eq_false]
    exact fun q hq => by simpa using (hothers q hq).1
  have hnone : ∀ k, placeRid p.rid k (placeTry p s) = placeTry p s := fun k => by
    cases k with
    | zero => rfl
    | succ k =>
      rw [placeRid, hgone, List.find?_eq_none.mpr (fun q hq => by simpa using (hothers q hq).2)]
  unfold placeGo
  rw [hfindN]
  dsimp only
  rw [if_neg (by simp [hfirst]), hwait, List.length_append, List.length_singleton, placeRid, hfindRid]
  dsimp only
  rw [if_neg (by simp [hleft]), hnone]

/-- The state with which the sectors of a translated write to the device go to their homes. -/
def placeCounted (p : Placing) (e : TlbEnt) (s : State) : State :=
  let s1 := placeGone p.n (s.withXlt { s.xlt with checker := tlbPut 1024 e s.xlt.checker })
  s1.withCounted (s1.counted ++ [⟨p.n, p.obj, p.add, 1, some p.win, none, none⟩])

theorem State.withXlt_targetOf (s : State) (x : Xlt) (a : Nat) : (s.withXlt x).targetOf a = s.targetOf a := rfl
theorem State.withHif_targetOf (s : State) (x : Hif) (a : Nat) : (s.withHif x).targetOf a = s.targetOf a := rfl
theorem State.withCounted_targetOf (s : State) (x : List Counted) (a : Nat) : (s.withCounted x).targetOf a = s.targetOf a := rfl

theorem placeCounted_targetOf (p : Placing) (e : TlbEnt) (s : State) (a : Nat) : (placeCounted p e s).targetOf a = s.targetOf a := by
  unfold placeCounted placeGone
  rw [State.withCounted_targetOf, State.withHif_targetOf, State.withXlt_targetOf]

/-- A write of one sector that its first translation level answers goes to its home (R431). -/
theorem placeTry_sector {p : Placing} {s : State} {e : TlbEnt} {a dst : Nat} (hfree : s.stalledWait ⟨.place p.n, p.dva, true⟩ = false)
    (hlow : p.dva < 2 ^ 55) (hfind : tlbFind p.ctx (p.dva / 0x10000) s.xlt.checker = some e) (hans : e.ans p.dva true = .hit (.dev a))
    (ha : a % 64 = 0) (hlen : p.bytes.length = 64) (htarget : s.targetOf a = some dst) (hmay : s.mayIssue 57) :
    placeTry p s = issue ⟨.write, 57, dst, 0, a, false, p.bytes, [crc32c p.bytes], 0⟩ (.place p.n) (placeCounted p e s) := by
  unfold placeTry
  rw [xltAccess_checkerHit hfree hlow hfind hans]
  dsimp only
  rw [placePieces_sector ha hlen]
  exact placeSend_whole ((placeCounted_targetOf p e s a).trans htarget) hmay

/-- A write of one sector that is accepted goes to its home by its translation, and is counted to its object (R431, R433). -/
theorem execPlacementWrite_goes {s : State} {rid off i a dst : Nat} {data : List Byte} {e : TlbEnt} (hok : tlpOk off data.length = true)
    (hwin : s.winFor off = some i) (hend : off + data.length ≤ (s.win i).base + (s.win i).size)
    (hrid : Nat.land rid (s.win i).mask = Nat.land (s.win i).rid (s.win i).mask)
    (hattached : (s.sessOf (s.ctxFn (s.win i).ctx)).flrDetached = false)
    (hothers : ∀ p ∈ s.hif.placeWait, p.n ≠ s.hif.placeNext ∧ p.rid ≠ rid)
    (hfree : s.stalledWait ⟨.place s.hif.placeNext, (s.win i).dva + (off - (s.win i).base), true⟩ = false)
    (hlow : (s.win i).dva + (off - (s.win i).base) < 2 ^ 55)
    (hfind : tlbFind (s.win i).ctx (((s.win i).dva + (off - (s.win i).base)) / 0x10000) s.xlt.checker = some e)
    (hans : e.ans ((s.win i).dva + (off - (s.win i).base)) true = .hit (.dev a)) (hpage : off % 4096 + data.length ≤ 4096)
    (hlen : data.length = 64) (ha : a % 64 = 0) (htarget : s.targetOf a = some dst) (hsrcOpen : s.fenced 57 = false)
    (hdstOpen : s.fenced dst = false) (hmay : s.mayIssue 57) : ∃ t, exec (.placementWrite rid off data false) s = .next t ∧
    t.counted = s.counted ++ [⟨s.hif.placeNext, ((s.win i).count 64).1, ((s.win i).count 64).2, 1, some i, none, none⟩] ∧
    t.carries ⟨.write, 57, dst, look 0 s.hub.nextTid 57, a, false, data, [crc32c data], 0⟩ ∧
    t.hif.placeNext = s.hif.placeNext + 1 ∧ t.hif.placeWait = s.hif.placeWait ∧ t.hif.plog = s.hif.plog := by
  have hexec := execPlacementWrite_accepted hok hwin hend hrid hattached hpage
  rw [hlen] at hexec
  generalize hp : (⟨s.hif.placeNext, rid, off, (s.win i).ctx, i, (s.win i).dva + (off - (s.win i).base), data,
    ((s.win i).count 64).1, ((s.win i).count 64).2⟩ : Placing) = p at hexec
  generalize hs0 : s.withHif { s.hif with placeNext := s.hif.placeNext + 1, placeWait := s.hif.placeWait ++ [p] } = s0 at hexec
  have htry : placeTry p s0 = issue ⟨.write, 57, dst, 0, a, false, p.bytes, [crc32c p.bytes], 0⟩ (.place p.n) (placeCounted p e s0) := by
    subst hs0 hp
    exact placeTry_sector hfree hlow hfind hans ha hlen ((State.withHif_targetOf s _ a).trans htarget) hmay
  obtain ⟨hhif, hcounted⟩ := issue_parts ⟨.write, 57, dst, 0, a, false, p.bytes, [crc32c p.bytes], 0⟩ (.place p.n) (placeCounted p e s0)
  have hwait : (placeCounted p e s0).hif.placeWait = s.hif.placeWait := by
    subst hs0 hp
    show (s.hif.placeWait ++ [_]).filter _ = _
    rw [List.filter_append, List.filter_eq_self.mpr (fun q hq => by simpa using (hothers q hq).1)]
    simp
  have hcarries := issue_carries (p := ⟨.write, 57, dst, 0, a, false, p.bytes, [crc32c p.bytes], 0⟩) (s := placeCounted p e s0) (.place p.n)
    (State.targetOf_ne_noPort htarget) (show opVc .write ≠ 1 by decide) (by subst hs0; exact hsrcOpen) (by subst hs0; exact hdstOpen)
  have hgo : placeGo p.n s0 = placeTry p s0 := by
    refine placeGo_alone (l := s.hif.placeWait) (by subst hs0; rfl) (by subst hp; exact hothers) ?_
    rw [htry, hhif, hwait]
  have hn : s.hif.placeNext = p.n := by subst hp; rfl
  rw [hn] at hexec
  rw [hexec, hgo, htry]
  refine ⟨_, rfl, ?_, ?_, ?_, ?_, ?_⟩
  · rw [hcounted]
    subst hs0 hp
    rfl
  · subst hs0 hp
    exact hcarries
  · rw [hhif]
    subst hs0 hp
    rfl
  · rw [hhif, hwait]
  · rw [hhif]
    subst hs0
    rfl


/-! ## The registers of the aperture (R430, R432, R434, R438) -/

/-- An event changes of the host interface only what goes to the host. -/
theorem post_hif (e : EvItem) (s : State) : ∃ a b, (post e s).hif = { s.hif with tlps := a, out := b } := by
  have htlp : ∀ (u : State) x, ∃ a b, (u.tlp x).hif = { u.hif with tlps := a, out := b } := fun u x => by
    unfold State.tlp
    split
    · exact ⟨_, _, rfl⟩
    · exact ⟨_, _, rfl⟩
  have hfire : ∀ f v u, ∃ a b, (msixFire f v u).hif = { u.hif with tlps := a, out := b } := fun f v u => by
    unfold msixFire
    split
    · exact ⟨_, _, rfl⟩
    split
    · exact ⟨_, _, rfl⟩
    · exact htlp (u.updVec (vecKey f v) (fun x => { x with gathered := 0, pba := false })) (.msix f v)
  have hgather : ∀ f v u, ∃ a b, (msixGather f v u).hif = { u.hif with tlps := a, out := b } := fun f v u => by
    unfold msixGather
    split
    · dsimp only
      split
      · exact hfire f v (u.updVec (vecKey f v) (fun x => { x with gathered := satAdd 4095 x.gathered 1 }))
      · exact ⟨_, _, rfl⟩
    · exact ⟨_, _, rfl⟩
  have hhost : ∃ a b, (postHost e s).hif = { s.hif with tlps := a, out := b } := by
    unfold postHost
    extract_lets _ s1
    have h1 : s1.hif = s.hif := rfl
    clear_value s1
    have hsame : ∀ a b, ({ s1.hif with tlps := a, out := b } : Hif) = { s.hif with tlps := a, out := b } := fun a b => by rw [h1]
    split
    · obtain ⟨a, b, h⟩ := hgather 0 (s.regFld oEvtCtl 26 16) s1
      exact ⟨a, b, h.trans (hsame a b)⟩
    · exact ⟨_, _, h1⟩
  have hcore : ∀ d u, (postCore d e u).hif = u.hif := fun d u => (postCore_keeps d e u (Keeps.rfl' _ u) (Within.rfl' _)).same .hif
  unfold post
  dsimp only
  rw [hcore, hcore, hcore, hcore]
  split
  · exact ⟨_, _, rfl⟩
  · exact hhost

/-- A read of HIF_PLOG by the PF0 driver or the runtime answers it, clears DROPPED and arms the capture again (R438). -/
theorem execHifPlogRead_clears {s : State} {who : Agent} (hgate : s.hostGate who = true) (hwho : isPf0OrCore who = true) :
    ∃ t, exec (.hifPlogRead who) s = .next t ∧ t.replies = s.replies ++ [⟨who, 0x0100020, s.plogWord, false⟩] ∧
    t.hif.plog = { s.hif.plog with dropped := 0, captured := false, since := 0 } ∧
    s.reports t (ev 0x43 (some 57) s.hif.plog.since []) := by
  have hpost : ∀ u : State, u.replies = s.replies ++ [⟨who, 0x0100020, s.plogWord, false⟩] →
      u.hif.plog = { s.hif.plog with dropped := 0, captured := false, since := 0 } → u.hfifo = s.hfifo → u.regs = s.regs → u.time = s.time →
      (post (ev 0x43 (some 57) s.hif.plog.since []) u).replies = s.replies ++ [⟨who, 0x0100020, s.plogWord, false⟩] ∧
      (post (ev 0x43 (some 57) s.hif.plog.since []) u).hif.plog = { s.hif.plog with dropped := 0, captured := false, since := 0 } ∧
      s.reports (post (ev 0x43 (some 57) s.hif.plog.since []) u) (ev 0x43 (some 57) s.hif.plog.since []) := by
    intro u hreplies hplog hfifo hregs htime
    obtain ⟨a, b, hhif⟩ := post_hif (ev 0x43 (some 57) s.hif.plog.since []) u
    have hreports := post_reports (ev 0x43 (some 57) s.hif.plog.since []) u rfl
    refine ⟨((post_keeps _ u (Keeps.rfl' _ u) (Within.rfl' _)).same .replies).trans hreplies, (congrArg Hif.plog hhif).trans hplog, ?_⟩
    unfold State.reports State.regFld State.reg at hreports ⊢
    rw [hfifo, hregs, htime] at hreports
    exact hreports
  exact ⟨_, congrArg Host.Outcome.next (if_pos (by simp [hgate, hwho])), hpost _ rfl rfl rfl rfl rfl⟩

/-- No aperture register comes out of reset valid. -/
theorem plap_set_ne_reset {n : Nat} (v : Word) (hn : n < 4096) : (v ||| 0x8000000000000000#64) ≠ regReset (plap n) := by
  have hreset : regReset (plap n) = 0#64 := by
    unfold regReset plap
    repeat rw [if_neg (by omega)]
  intro h
  rw [hreset] at h
  exact absurd (congrArg (fun x : Word => x.getLsbD 63) h) (by simp)

section Valid
variable {s : State} {who : Agent} {n : Nat} (hn : n < 4096) (hgate : s.hostGate who = true) (hwho : isPf0OrCore who = true)
include hn hgate hwho

/-- An entry whose registers are right becomes valid (R430). -/
theorem execHifPlapValidSet_sets (v : Word) (hfree : (s.win n).valid = false)
    (hright : (s.setReg (plap n) (v &&& 0x000000FFFFFF0000#64)).winOk n ((s.setReg (plap n) (v &&& 0x000000FFFFFF0000#64)).win n) = true) :
    exec (.hifPlapValidSet who n v) s = .next ((s.setReg (plap n) (v &&& 0x000000FFFFFF0000#64)).setReg (plap n)
      ((v &&& 0x000000FFFFFF0000#64) ||| 0x8000000000000000#64)) := by
  show execHifPlapValidSet who n v s = _
  unfold execHifPlapValidSet
  rw [if_neg (by omega), pfWrite_performed hgate hwho, if_neg (by simp [hfree])]
  dsimp only
  rw [if_pos hright]

/-- An entry whose registers are not right stays invalid, with SETUP_REFUSED (R430). -/
theorem execHifPlapValidSet_refused (v : Word) (hfree : (s.win n).valid = false)
    (hwrong : (s.setReg (plap n) (v &&& 0x000000FFFFFF0000#64)).winOk n ((s.setReg (plap n) (v &&& 0x000000FFFFFF0000#64)).win n) = false) :
    exec (.hifPlapValidSet who n v) s = .next (setupRefused who (plap n) (s.setReg (plap n) (v &&& 0x000000FFFFFF0000#64))) := by
  show execHifPlapValidSet who n v s = _
  unfold execHifPlapValidSet
  rw [if_neg (by omega), pfWrite_performed hgate hwho, if_neg (by simp [hfree])]
  dsimp only
  rw [if_neg (by simp [hwrong])]

/-- A valid entry with accepted writes under way drains (R434). -/
theorem execHifPlapValidClear_drains (hvalid : (s.win n).valid = true) (hbusy : s.winDraining n = true) :
    ∃ t, exec (.hifPlapValidClear who n) s = .next t ∧
    t.regs = (s.setReg (plap n) (s.reg (plap n) &&& 0x7FFFFFFFFFFFFFFF#64)).regs ∧ has n t.hif.plapDrain = true := by
  show ∃ t, execHifPlapValidClear who n s = .next t ∧ _
  unfold execHifPlapValidClear
  rw [if_neg (by omega), pfWrite_performed hgate hwho, if_pos hvalid]
  exact ⟨_, congrArg Host.Outcome.next (if_pos hbusy), rfl, has_iff.mpr (mem_ins_self n _)⟩

end Valid

/-- Settles O39: each row by its rule. -/
theorem placementAperture : Obligations.PlacementAperture := by
  unfold Obligations.PlacementAperture
  refine ⟨?_, ?_, ?_, ?_, fun _ _ _ _ _ _ _ _ => execPlacementWrite_goes, fun s _ _ => ⟨_, rfl, rfl, rfl, rfl⟩, fun _ _ _ => ⟨_, rfl, rfl⟩,
    fun _ _ _ => ⟨_, rfl, rfl, rfl⟩, fun _ _ => execHifPlogRead_clears, ?_, ?_, fun _ _ _ => execHifPlapValidClear_drains, ?_⟩
  · exact fun s rid off data ep hok hwin => ⟨_, execPlacementWrite_noRegion hok hwin, placeLog_parts rid off 1 s⟩
  · exact fun s rid off i data ep hok hwin hend => ⟨_, execPlacementWrite_leaves hok hwin hend, placeLog_parts rid off 3 s⟩
  · exact fun s rid off i data ep hok hwin hend hrid =>
      ⟨_, execPlacementWrite_otherRequester hok hwin hend hrid, placeLog_parts rid off 2 s⟩
  · exact fun s rid off i data hok hwin hend hrid hattached =>
      ⟨_, execPlacementWrite_poisoned hok hwin hend hrid hattached, placeLog_parts rid off 6 s⟩
  · exact fun s who n v hn hgate hwho hfree hright => ⟨_, execHifPlapValidSet_sets hn hgate hwho v hfree hright,
      look_put_new _ _ _ (plap_set_ne_reset _ hn), rfl⟩
  · intro s who n v hn hgate hwho hfree hwrong
    refine ⟨_, execHifPlapValidSet_refused hn hgate hwho v hfree hwrong, (setupRefused_parts _ _ _).1, ?_⟩
    have hctl : (s.setReg (plap n) (v &&& 0x000000FFFFFF0000#64)).reg oEvtCtl = s.reg oEvtCtl :=
      State.reg_setReg_ne s _ _ _ (by unfold oEvtCtl plap; omega)
    have hreports := setupRefused_reports who (plap n) (s.setReg (plap n) (v &&& 0x000000FFFFFF0000#64))
    unfold State.reports State.regFld at hreports ⊢
    rw [hctl] at hreports
    exact hreports
  · exact fun s n hdone => ⟨_, congrArg Host.Outcome.next (if_neg (by simp [hdone])), rfl⟩

end Sys2Proof.Machine
end

section
/-!
Snoops at a core die and the die's own requests (11 R364 to R382), and O33.
-/
namespace Sys2Proof.Machine

set_option Elab.async false

/-! ## Requests that are outstanding -/

/-- A request that is issued is outstanding, whether its address has a target or not (02 R49, R61). -/
theorem issue_outstanding (p : Pkt) (use : Use) (s : State) : ∃ o ∈ (issue p use s).hub.outst, o.src = p.src ∧ o.use = use := by
  by_cases hdst : p.dst = noPort
  · unfold issue
    dsimp only
    rw [if_pos hdst, hubSays, (pumpOut_goes _ _).outst]
    exact ⟨_, List.mem_append_right _ (List.mem_singleton.mpr rfl), rfl, rfl⟩
  · rw [issue_outst p use s hdst]
    exact ⟨_, List.mem_append_right _ (List.mem_singleton.mpr rfl), rfl, rfl⟩

theorem requestAt_outstanding (op : PktOp) {src : Nat} (addr : Nat) (poison : Bool) (payload : List Byte) (rdLen : Nat) (use : Use) {s : State}
    (h : s.mayIssue src) : ∃ o ∈ (requestAt op src addr poison payload rdLen use s).hub.outst, o.src = src ∧ o.use = use := by
  unfold requestAt
  rw [request_mayIssue _ (by exact h)]
  exact issue_outstanding _ use s

theorem requestAt_cdie (op : PktOp) (src addr : Nat) (poison : Bool) (payload : List Byte) (rdLen : Nat) (use : Use) (s : State) :
    (requestAt op src addr poison payload rdLen use s).cdie = s.cdie :=
  (requestAt_keeps op src addr poison payload rdLen use s (Keeps.rfl' _ s) (Within.rfl' _)).same .cdie

theorem requestAt_core (op : PktOp) (src addr : Nat) (poison : Bool) (payload : List Byte) (rdLen : Nat) (use : Use) (s : State) :
    (requestAt op src addr poison payload rdLen use s).core = s.core :=
  (requestAt_keeps op src addr poison payload rdLen use s (Keeps.rfl' _ s) (Within.rfl' _)).same .core

/-! ## Reservations and lines -/

theorem State.coreOf_updCore_ne {s : State} {j i : Nat} {f : CoreSt → CoreSt} (h : j ≠ i) : (s.updCore j f).coreOf i = s.coreOf i :=
  look_put_ne_default _ _ _ _ _ _ h

theorem State.coreOf_updCore_wf {s : State} {i : Nat} {f : CoreSt → CoreSt} (h : wfTable {} s.core = true) :
    (s.updCore i f).coreOf i = f (s.coreOf i) := look_put_same _ _ _ h

theorem State.coreOf_of_core {s t : State} (h : t.core = s.core) (i : Nat) : t.coreOf i = s.coreOf i := by
  unfold State.coreOf
  rw [h]

theorem State.updCore_wf {s : State} {i : Nat} {f : CoreSt → CoreSt} (h : wfTable {} s.core = true) : wfTable {} (s.updCore i f).core = true :=
  wfTable_upd (d := ({} : CoreSt)) s.core i f h

/-- Dropping the reservations changes the cores only. -/
theorem dropLr_keeps' (die n : Nat) (s : State) : Keeps [.core] s (dropLr die n s) := by
  refine foldl_keeps _ (fun t i ht => ?_) _ s (Keeps.rfl' _ s)
  split
  · exact State.updCore_keeps t _ _ ht (Within.rfl' _)
  · exact ht

/-- No core of a die has a reservation on a sector that the die has lost (R382). -/
theorem dropLr_lsr {die n : Nat} {s : State} (hwf : wfTable {} s.core = true) {i : Nat} (hi : i < 32) :
    ((dropLr die n s).coreOf (32 * die + i)).lsr ≠ some n := by
  have hall : ∀ (l : List Nat) (u : State), wfTable {} u.core = true → (i ∈ l ∨ (u.coreOf (32 * die + i)).lsr ≠ some n) →
      ((l.foldl (fun st j => if (st.coreOf (32 * die + j)).lsr = some n then
        st.updCore (32 * die + j) (fun x => { x with lsr := none }) else st) u).coreOf (32 * die + i)).lsr ≠ some n := by
    intro l
    induction l with
    | nil => exact fun u _ h => h.resolve_left List.not_mem_nil
    | cons j l ih =>
      intro u hu h
      rw [List.foldl_cons]
      refine ih _ ?_ ?_
      · split
        · exact State.updCore_wf hu
        · exact hu
      · by_cases hji : j = i
        · subst hji
          right
          split
          · rw [State.coreOf_updCore_wf hu]
            simp
          · assumption
        · rcases h with h | h
          · exact .inl ((List.mem_cons.mp h).resolve_left (Ne.symm hji))
          · right
            split
            · rw [State.coreOf_updCore_ne (by omega)]
              exact h
            · exact h
  exact hall _ s hwf (.inl (List.mem_range.mpr hi))

/-- A line that a die takes or changes reads back. -/
theorem setCLine_line (die n : Nat) (c : CLine) (s : State) : ((setCLine die n (some c) s).cdieOf die).line n = some c := by
  have hline : look none (put none (s.cdieOf die).lines n (some c)) n = some c := look_put_new _ _ _ (Option.some_ne_none c)
  unfold setCLine CoreDie.line
  rw [State.cdieOf_updCdie_same]
  · exact hline
  · intro h
    have hlines := congrArg CoreDie.lines h
    dsimp only at hlines
    rw [hlines] at hline
    cases hline

/-- Without data of its cores a line is as it was. -/
theorem lineNow_none (c : CLine) : lineNow c [] = c := if_neg (by simp)

/-! ## Snoops (R372, R376) -/

/-- A snoop's own request adds no fill that the die awaits. -/
theorem arrived_awaits {s : State} {p : Pkt} (hsrc : p.src < 53) (die n : Nat) : (s.arrived p).awaits die n = s.awaits die n := by
  have hnote : (s.noteReq p (answersOf p)).awaits die n = s.awaits die n := by
    unfold State.noteReq
    dsimp only
    split
    · rfl
    · rw [if_neg (by omega)]
      simp [State.awaits, State.addOutst]
  have hout : (s.arrived p).hub.outst = (s.sent p).hub.outst := leaveHub_outst p (s.sent p)
  unfold State.awaits at hnote ⊢
  rw [hout]
  unfold State.sent
  split
  · rfl
  · rw [(send_goes p _).outst]
    exact hnote

/-- A fill that the die awaits is still awaited once a snoop has come. -/
theorem arrived_awaits_stays {s : State} {p : Pkt} {die n : Nat} (h : s.awaits die n = true) : (s.arrived p).awaits die n = true := by
  have hout : (s.arrived p).hub.outst = (s.sent p).hub.outst := leaveHub_outst p (s.sent p)
  have hmore : ∃ l, (s.sent p).hub.outst = s.hub.outst ++ l := by
    unfold State.sent
    split
    · exact ⟨[], (List.append_nil _).symm⟩
    · rw [(send_goes p _).outst]
      unfold State.noteReq
      dsimp only
      split
      · exact ⟨[], (List.append_nil _).symm⟩
      · exact ⟨_, rfl⟩
  obtain ⟨l, hl⟩ := hmore
  unfold State.awaits at h ⊢
  rw [hout, hl, List.any_append, h, Bool.true_or]

/-- A snoop that comes to a die that awaits nothing for the sector is performed. -/
theorem snoopArrive_performed {s : State} {p : Pkt} (k : State → State) (hlo : 53 ≤ p.dst) (hhi : p.dst ≤ 56) (hsrc : p.src < 53)
    (htakes : s.takes p) (hidle : s.awaits (p.dst - 53) (sectorOf p.addr) = false) : snoopArrive p k s = k (s.arrived p) := by
  unfold snoopArrive
  rw [if_neg (by omega), arriveReq_takes _ htakes, arrived_awaits hsrc, if_neg (by simp [hidle])]

/-- Another waits for the fill (R376). -/
theorem snoopArrive_deferred {s : State} {p : Pkt} (k : State → State) (hlo : 53 ≤ p.dst) (hhi : p.dst ≤ 56) (htakes : s.takes p)
    (hbusy : s.awaits (p.dst - 53) (sectorOf p.addr) = true) :
    snoopArrive p k s = (s.arrived p).updCdie (p.dst - 53) (fun x => { x with defer := x.defer ++ [p] }) := by
  unfold snoopArrive
  rw [if_neg (by omega), arriveReq_takes _ htakes, if_pos (arrived_awaits_stays hbusy)]

/-- What comes leaves the core dies and the cores. -/
theorem arrived_parts (s : State) (p : Pkt) : (s.arrived p).cdie = s.cdie ∧ (s.arrived p).core = s.core := by
  obtain ⟨x, l, h⟩ := (arrived_comes s p).eq
  rw [h]
  exact ⟨rfl, rfl⟩

/-- The answer to a request that has come is on its way from any state with the hub and the links as they then are. -/
theorem respond_carries {s t : State} {p : Pkt} (op : PktOp) (a : Nat) (poison : Bool) (data : List Byte) (htakes : s.takes p)
    (hlink : t.link = (s.arrived p).link) (hhub : t.hub = (s.arrived p).hub) :
    (respond op p a poison data t).carries (answer op p a poison data) := by
  have hcomes := arrived_comes s p
  refine answer_carries op a poison data htakes (fun q => ?_) (fun d hd => hcomes.dropped d (hhub ▸ hd))
  rw [← hcomes.fence q]
  unfold State.fenced State.linkOf
  rw [hlink]

theorem respond_cdie (op : PktOp) (p : Pkt) (a : Nat) (poison : Bool) (data : List Byte) (s : State) :
    (respond op p a poison data s).cdie = s.cdie ∧ (respond op p a poison data s).core = s.core := by
  have hkeeps := respond_keeps op p a poison data s (Keeps.rfl' _ s) (Within.rfl' _)
  exact ⟨hkeeps.same .cdie, hkeeps.same .core⟩


/-- The die's table after a line of it changes. -/
theorem setCLine_cdie (die n : Nat) (l : Option CLine) (s : State) :
    (setCLine die n l s).cdie = upd {} s.cdie die (fun x => { x with lines := put none x.lines n l }) := rfl

/-- What a die holds when a snoop has come to it. -/
theorem arrived_line (s : State) (q : Pkt) (die n : Nat) : ((s.arrived q).cdieOf die).line n = (s.cdieOf die).line n := by
  unfold State.cdieOf
  rw [(arrived_parts s q).1]

/-- Without reservations of its cores a die that has changed a line is as it was but for the line, and so are the hub and the links. -/
theorem dropLr_parts (die n : Nat) (s : State) : (dropLr die n s).cdie = s.cdie ∧ (dropLr die n s).link = s.link ∧
    (dropLr die n s).hub = s.hub := by
  have hkeeps := dropLr_keeps' die n s
  exact ⟨hkeeps.same .cdie, hkeeps.same .link, hkeeps.same .hub⟩

/-- A change of a die's line leaves the rest. -/
theorem setCLine_parts (die n : Nat) (l : Option CLine) (s : State) : (setCLine die n l s).link = s.link ∧
    (setCLine die n l s).hub = s.hub ∧ (setCLine die n l s).core = s.core := ⟨rfl, rfl, rfl⟩

section Snoop
variable {s : State} {q : Pkt} {c : CLine} (htakes : s.takes q)
include htakes

/-- A snoop's answer once the die has changed its line: the line is what it became, and the answer is on its way. -/
theorem snoopAnswer (op : PktOp) (a : Nat) (poison : Bool) (data : List Byte) (l : Option CLine) {t : State}
    (ht : t = respond op q a poison data (dropLr (q.dst - 53) (sectorOf q.addr) (setCLine (q.dst - 53) (sectorOf q.addr) l (s.arrived q)))) :
    t.cdie = upd {} s.cdie (q.dst - 53) (fun x => { x with lines := put none x.lines (sectorOf q.addr) l }) ∧
    t.carries (answer op q a poison data) ∧ (wfTable {} s.core = true → ∀ i, i < 32 →
      (t.coreOf (32 * (q.dst - 53) + i)).lsr ≠ some (sectorOf q.addr)) := by
  subst ht
  obtain ⟨hcdie, hcore⟩ := arrived_parts s q
  have hwf : wfTable {} s.core = true → wfTable {} (setCLine (q.dst - 53) (sectorOf q.addr) l (s.arrived q)).core = true := fun h => by
    rw [(setCLine_parts _ _ _ _).2.2, hcore]
    exact h
  have hset := setCLine_cdie (q.dst - 53) (sectorOf q.addr) l (s.arrived q)
  rw [hcdie] at hset
  obtain ⟨hlink, hhub, -⟩ := setCLine_parts (q.dst - 53) (sectorOf q.addr) l (s.arrived q)
  generalize setCLine (q.dst - 53) (sectorOf q.addr) l (s.arrived q) = u at hset hlink hhub hwf ⊢
  obtain ⟨hdcdie, hdlink, hdhub⟩ := dropLr_parts (q.dst - 53) (sectorOf q.addr) u
  refine ⟨?_, ?_, fun h i hi => ?_⟩
  · rw [(respond_cdie _ _ _ _ _ _).1, hdcdie, hset]
  · exact respond_carries op a poison data htakes (hdlink.trans hlink) (hdhub.trans hhub)
  · have hsame := State.coreOf_of_core (respond_cdie op q a poison data (dropLr (q.dst - 53) (sectorOf q.addr) u)).2
    rw [hsame]
    exact dropLr_lsr (hwf h) hi

variable (hlo : 53 ≤ q.dst) (hhi : q.dst ≤ 56) (hsrc : q.src < 53) (hidle : s.awaits (q.dst - 53) (sectorOf q.addr) = false)
include hlo hhi hsrc hidle

/-- SNP_INV at the M holder returns the sector and ends the copy. -/
theorem snpInv_holder (hline : (s.cdieOf (q.dst - 53)).line (sectorOf q.addr) = some c) (hm : c.st = .m) :
    snoopArrive q (snpInvNow q []) s = respond .respData q 0 c.poison c.data
      (dropLr (q.dst - 53) (sectorOf q.addr) (setCLine (q.dst - 53) (sectorOf q.addr) none (s.arrived q))) := by
  rw [snoopArrive_performed _ hlo hhi hsrc htakes hidle]
  unfold snpInvNow
  dsimp only
  rw [arrived_line, hline]
  dsimp only [Option.map, snoopReply]
  rw [lineNow_none, if_pos hm]

/-- SNP_INV at a die without the copy is acknowledged. -/
theorem snpInv_none (data : List Byte) (hline : (s.cdieOf (q.dst - 53)).line (sectorOf q.addr) = none) :
    snoopArrive q (snpInvNow q data) s = respond .respAck q 0 false []
      (dropLr (q.dst - 53) (sectorOf q.addr) (setCLine (q.dst - 53) (sectorOf q.addr) none (s.arrived q))) := by
  rw [snoopArrive_performed _ hlo hhi hsrc htakes hidle]
  unfold snpInvNow
  dsimp only
  rw [arrived_line, hline]
  rfl

/-- SNP_SHR at an E holder whose cores have changed the sector returns what it became, and the copy stays in F. -/
theorem snpShr_holder {data : List Byte} (hlen : data.length = 64) (hline : (s.cdieOf (q.dst - 53)).line (sectorOf q.addr) = some c)
    (he : c.st = .e) : snoopArrive q (snpShrNow q data) s = respond .respData q 0 c.poison data (dropLr (q.dst - 53) (sectorOf q.addr)
      (setCLine (q.dst - 53) (sectorOf q.addr) (some ⟨.f, data, c.poison⟩) (s.arrived q))) := by
  have hnow : lineNow c data = ⟨.m, data, c.poison⟩ := by
    unfold lineNow
    rw [if_pos ⟨hlen, .inr he⟩]
  rw [snoopArrive_performed _ hlo hhi hsrc htakes hidle]
  unfold snpShrNow
  dsimp only
  rw [arrived_line, hline]
  dsimp only [Option.map, snoopReply]
  rw [hnow, if_pos rfl]

/-- SNP_FWD at the F holder sends the sector to the requester, tells the home, and leaves the copy in S. -/
theorem snpFwd_holder (hline : (s.cdieOf (q.dst - 53)).line (sectorOf q.addr) = some c)
    (hopen : s.fenced (leAt q.payload 4 1 % 64) = false) (hlive : (leAt q.payload 4 1 % 64, leAt q.payload 8 4) ∉ s.hub.dropped) {t : State}
    (ht : t = snoopArrive q (snpFwdNow q) s) :
    t.cdie = upd {} s.cdie (q.dst - 53) (fun x => { x with lines := put none x.lines (sectorOf q.addr) (some { c with st := .s }) }) ∧
    t.carries ⟨.respData, q.dst, leAt q.payload 4 1 % 64, leAt q.payload 8 4, 0, c.poison, c.data ++ ([3, 1] ++ List.replicate 14 0),
      [crc32c c.data], 0⟩ ∧ t.carries (answer .respAck q 0 false []) := by
  obtain ⟨hcdie, -⟩ := arrived_parts s q
  have hcomes := arrived_comes s q
  rw [snoopArrive_performed _ hlo hhi hsrc htakes hidle] at ht
  unfold snpFwdNow at ht
  dsimp only at ht
  rw [arrived_line, hline] at ht
  dsimp only at ht
  have hset := setCLine_cdie (q.dst - 53) (sectorOf q.addr) (some { c with st := .s }) (s.arrived q)
  rw [hcdie] at hset
  obtain ⟨hlink, hhub, -⟩ := setCLine_parts (q.dst - 53) (sectorOf q.addr) (some { c with st := .s }) (s.arrived q)
  generalize setCLine (q.dst - 53) (sectorOf q.addr) (some { c with st := .s }) (s.arrived q) = u at ht hset hlink hhub
  generalize hfwd : (⟨.respData, q.dst, leAt q.payload 4 1 % 64, leAt q.payload 8 4, 0, c.poison, c.data ++ ([3, 1] ++ List.replicate 14 0),
    [crc32c c.data], 0⟩ : Pkt) = f
  have ht' : t = respond .respAck q 0 false [] (send f u) := by rw [ht, ← hfwd]; rfl
  have hfence : ∀ x, u.fenced x = s.fenced x := fun x => by
    rw [← hcomes.fence x]
    unfold State.fenced State.linkOf
    rw [hlink]
  have hsent := send_goes f u
  have hcarried : (send f u).carries f := by
    refine send_carries f u ?_ ?_ ?_
    · rw [hfence, ← hfwd]
      exact htakes.2.1
    · rw [hfence, ← hfwd]
      exact hopen
    · rintro ⟨-, hd⟩
      rw [hhub, ← hfwd] at hd
      exact hlive (hcomes.dropped _ hd)
  subst ht'
  refine ⟨?_, (send_goes _ _).holds f hcarried, ?_⟩
  · rw [(respond_cdie _ _ _ _ _ _).1, (send_keeps f u (Keeps.rfl' _ u) (Within.rfl' _)).same .cdie, hset]
  · refine answer_carries .respAck 0 false [] htakes (fun x => (hsent.fence x).trans (hfence x)) (fun d hd => ?_)
    have hdropped : (send f u).hub.dropped = u.hub.dropped := by
      obtain ⟨⟨v, x, l, h⟩, -, -⟩ := hsent
      rw [h]
      rfl
    rw [hdropped, hhub] at hd
    exact hcomes.dropped d hd

end Snoop

/-! ## The die's own requests (R364 to R367, R375) -/

/-- A request that was retried goes out again with its ticket (R375). -/
theorem execCohResend_goes {s : State} {die addr t0 msg core : Nat}
    (hticket : look (0, 0, 0) (s.cdieOf die).tickets (sectorOf addr) = (t0 + 1, msg, core)) (hmay : s.mayIssue (53 + die)) :
    ∃ t, exec (.cohResend die addr) s = .next t ∧ (∃ o ∈ t.hub.outst, o.src = 53 + die ∧ o.use = .coh die core msg addr) ∧
    t.cdie = upd {} s.cdie die (fun x => { x with tickets := put (0, 0, 0) x.tickets (sectorOf addr) (0, 0, 0) }) := by
  show ∃ t, execCohResend die addr s = .next t ∧ _
  unfold execCohResend
  dsimp only
  rw [hticket]
  exact ⟨_, rfl, requestAt_outstanding .coh addr false _ 0 _ hmay, requestAt_cdie _ _ _ _ _ _ _ _⟩

section Zero
variable {s : State} {core addr : Nat} (hfence : (s.coreOf core).fence = false) (hidle : s.evicting (core / 32) (sectorOf addr) = false)
include hfence hidle

/-- CBO_ZERO of a sector that the die holds in E or M zeroes it in place (R367). -/
theorem execCboZero_held {c : CLine} (hzone : s.zone addr = .direct) (hline : (s.cdieOf (core / 32)).line (sectorOf addr) = some c)
    (hst : c.st = .m ∨ c.st = .e) : exec (.cboZero core addr) s =
      .next (setCLine (core / 32) (sectorOf addr) (some ⟨.m, List.replicate 64 0#8, false⟩) s) := by
  obtain ⟨st, data, poison⟩ := c
  show execCboZero core addr s = _
  unfold execCboZero
  dsimp only
  rw [hzone, if_neg (by simp [hfence, hidle]), if_neg (by simp), hline]
  rcases hst with rfl | rfl
  · rfl
  · rfl

/-- Another sector is asked for without data (R367). -/
theorem execCboZero_asks (hzone : s.zone addr = .direct) (hline : (s.cdieOf (core / 32)).line (sectorOf addr) = none) :
    exec (.cboZero core addr) s = .next (requestAt .coh (53 + core / 32) (64 * sectorOf addr) false (cohPayload 0x04 0 0 0) 0
      (.coh (core / 32) core 0x04 (64 * sectorOf addr)) s) := by
  show execCboZero core addr s = _
  unfold execCboZero
  dsimp only
  rw [hzone, if_neg (by simp [hfence, hidle]), if_neg (by simp), hline]

/-- A region that is not cacheable takes a store access fault (R364). -/
theorem execCboZero_traps (hzone : s.zone addr = .host) : exec (.cboZero core addr) s = .next (coreTrap core 7 addr s) := by
  show execCboZero core addr s = _
  unfold execCboZero
  dsimp only
  rw [hzone, if_neg (by simp [hfence, hidle]), if_pos (by simp)]

end Zero

/-- A request to an address with a target, from a source that may issue, is on its way (02 R49). -/
theorem requestAt_carries {op : PktOp} {src a dst : Nat} {poison : Bool} {data : List Byte} {u : State} (use : Use) (hvc : opVc op ≠ 1)
    (htarget : u.targetOf a = some dst) (hmay : u.mayIssue src) (hsrcOpen : u.fenced src = false) (hdstOpen : u.fenced dst = false) :
    (requestAt op src a poison data 0 use u).carries
      ⟨op, src, dst, look 0 u.hub.nextTid src, a, poison, data, sectorChecks 4 data, 0⟩ := by
  unfold requestAt
  rw [htarget, Option.getD_some, request_mayIssue _ (by exact hmay)]
  exact issue_carries (p := ⟨op, src, dst, 0, a, poison, data, sectorChecks 4 data, 0⟩) use (State.targetOf_ne_noPort htarget) hvc hsrcOpen
    hdstOpen

theorem State.cdieOf_of_cdie {s t : State} (h : t.cdie = s.cdie) (i : Nat) : t.cdieOf i = s.cdieOf i := by
  unfold State.cdieOf
  rw [h]

theorem State.withCore_targetOf (s : State) (x : FMap CoreSt) (a : Nat) : (s.withCore x).targetOf a = s.targetOf a := rfl
theorem State.withCdie_targetOf (s : State) (x : FMap CoreDie) (a : Nat) : (s.withCdie x).targetOf a = s.targetOf a := rfl

/-- What a die holds decides the target of no address. -/
theorem setCLine_targetOf (die n a : Nat) (l : Option CLine) (s : State) : (setCLine die n l s).targetOf a = s.targetOf a :=
  s.withCdie_targetOf _ a

theorem dropLr_targetOf (die n a : Nat) (s : State) : (dropLr die n s).targetOf a = s.targetOf a := by
  refine foldl_inv (fun t : State => t.targetOf a = s.targetOf a) _ (fun t i ht => ?_) _ s rfl
  split
  · exact (t.withCore_targetOf _ a).trans ht
  · exact ht

/-- The eviction of a modified line starts from the die with its line refreshed and the reservations on it dropped (R366, R382). -/
theorem execDirtyLineEvict_next {s : State} {die addr : Nat} {c : CLine} (hidle : s.evicting die (sectorOf addr) = false)
    (hline : (s.cdieOf die).line (sectorOf addr) = some c) (hm : c.st = .m) : exec (.dirtyLineEvict die addr []) s =
    .next (requestAt .write (53 + die) (64 * sectorOf addr) c.poison c.data 0 (.evict die (64 * sectorOf addr))
      (dropLr die (sectorOf addr) (setCLine die (sectorOf addr) (some c) s))) := by
  obtain ⟨st, data, poison⟩ := c
  obtain rfl : st = .m := hm
  show execDirtyLineEvict die addr [] s = _
  unfold execDirtyLineEvict
  dsimp only
  rw [if_neg (by simp [hidle]), hline]
  dsimp only [Option.map]
  rw [lineNow_none]

/-- A request to a sector leaves the die's line and the cores, and is on its way and outstanding. -/
theorem requestAt_evict {u t : State} {die n dst : Nat} {c : CLine}
    (ht : t = requestAt .write (53 + die) (64 * n) c.poison c.data 0 (.evict die (64 * n)) u) (htarget : u.targetOf (64 * n) = some dst)
    (hmay : u.mayIssue (53 + die)) (hsrcOpen : u.fenced (53 + die) = false) (hdstOpen : u.fenced dst = false) :
    t.cdie = u.cdie ∧ t.core = u.core ∧
    t.carries ⟨.write, 53 + die, dst, look 0 u.hub.nextTid (53 + die), 64 * n, c.poison, c.data, sectorChecks 4 c.data, 0⟩ ∧
    (∃ o ∈ t.hub.outst, o.use = .evict die (64 * n)) := by
  have hcdie := requestAt_cdie .write (53 + die) (64 * n) c.poison c.data 0 (.evict die (64 * n)) u
  have hcore := requestAt_core .write (53 + die) (64 * n) c.poison c.data 0 (.evict die (64 * n)) u
  have hcarries := requestAt_carries (op := .write) (poison := c.poison) (data := c.data) (.evict die (64 * n)) (by decide) htarget hmay
    hsrcOpen hdstOpen
  obtain ⟨o, ho, -, huse⟩ := requestAt_outstanding .write (64 * n) c.poison c.data 0 (.evict die (64 * n)) hmay
  rw [← ht] at hcdie hcore hcarries ho
  exact ⟨hcdie, hcore, hcarries, o, ho, huse⟩

/-- A die whose reservations on a line are dropped holds the line, and the links and the hub are as they were. -/
theorem refreshed_parts {s u : State} {die n : Nat} {c : CLine} (hu : u = dropLr die n (setCLine die n (some c) s)) :
    (u.cdieOf die).line n = some c ∧ u.link = s.link ∧ u.hub = s.hub ∧ (∀ a, u.targetOf a = s.targetOf a) ∧
    (wfTable {} s.core = true → ∀ i, i < 32 → (u.coreOf (32 * die + i)).lsr ≠ some n) := by
  have hline := setCLine_line die n c s
  obtain ⟨hlink, hhub, hcore⟩ := setCLine_parts die n (some c) s
  have htarget := fun a => setCLine_targetOf die n a (some c) s
  generalize setCLine die n (some c) s = v at hu hline hlink hhub hcore htarget
  obtain ⟨hdcdie, hdlink, hdhub⟩ := dropLr_parts die n v
  have hdtarget := fun a => dropLr_targetOf die n a v
  have hlsr : wfTable {} v.core = true → ∀ i, i < 32 → ((dropLr die n v).coreOf (32 * die + i)).lsr ≠ some n :=
    fun h i hi => dropLr_lsr h hi
  rw [← hu] at hdcdie hdlink hdhub hdtarget hlsr
  exact ⟨State.cdieOf_of_cdie hdcdie die ▸ hline, hdlink.trans hlink, hdhub.trans hhub, fun a => (hdtarget a).trans (htarget a),
    fun h => hlsr (hcore.symm ▸ h)⟩

/-- A modified line goes to its home as a write of its sector, and stays until the home has it (R366). -/
theorem execDirtyLineEvict_writes {s : State} {die addr dst : Nat} {c : CLine} (hidle : s.evicting die (sectorOf addr) = false)
    (hline : (s.cdieOf die).line (sectorOf addr) = some c) (hm : c.st = .m) (htarget : s.targetOf (64 * sectorOf addr) = some dst)
    (hsrcOpen : s.fenced (53 + die) = false) (hdstOpen : s.fenced dst = false) (hmay : s.mayIssue (53 + die))
    (hwf : wfTable {} s.core = true) : ∃ t, exec (.dirtyLineEvict die addr []) s = .next t ∧
    (t.cdieOf die).line (sectorOf addr) = some c ∧ (∀ i, i < 32 → (t.coreOf (32 * die + i)).lsr ≠ some (sectorOf addr)) ∧
    t.carries ⟨.write, 53 + die, dst, look 0 s.hub.nextTid (53 + die), 64 * sectorOf addr, c.poison, c.data, sectorChecks 4 c.data, 0⟩ ∧
    (∃ o ∈ t.hub.outst, o.use = .evict die (64 * sectorOf addr)) := by
  have hnext := execDirtyLineEvict_next hidle hline hm
  generalize sectorOf addr = n at hnext htarget ⊢
  generalize hu : dropLr die n (setCLine die n (some c) s) = u at hnext
  obtain ⟨hkept, hlink, hhub, htargets, hlsr⟩ := refreshed_parts hu.symm
  have hfence : ∀ x, u.fenced x = s.fenced x := fun x => by
    unfold State.fenced State.linkOf
    rw [hlink]
  have hmay' : u.mayIssue (53 + die) := by
    unfold State.mayIssue State.outCount
    rw [hhub]
    exact hmay
  generalize ht : requestAt .write (53 + die) (64 * n) c.poison c.data 0 (.evict die (64 * n)) u = t at hnext
  obtain ⟨hcdie, hcore, hcarries, hout⟩ := requestAt_evict ht.symm ((htargets _).trans htarget) hmay' ((hfence _).trans hsrcOpen)
    ((hfence _).trans hdstOpen)
  rw [hhub] at hcarries
  refine ⟨t, hnext, State.cdieOf_of_cdie hcdie die ▸ hkept, fun i hi => ?_, hcarries, hout⟩
  rw [State.coreOf_of_core hcore]
  exact hlsr hwf i hi

/-- Settles O33: each row by its rule. -/
theorem snoopsAtTheDie : Obligations.SnoopsAtTheDie := by
  unfold Obligations.SnoopsAtTheDie
  refine ⟨?_, ?_, ?_, ?_, ?_, fun _ _ _ _ _ _ => execCohResend_goes, ?_, ?_, ?_, fun _ _ _ _ _ => execDirtyLineEvict_writes⟩
  · intro s p c hlo hhi hsrc htakes hidle hline hm hwf
    have hnone : s.snoopData (p.dst - 53) (sectorOf p.addr) [] = [] := ite_self _
    obtain ⟨hcdie, hcarries, hlsr⟩ := snoopAnswer (q := withMsg p 0x10) htakes _ _ _ _ none (snpInv_holder htakes hlo hhi hsrc hidle hline hm)
    refine ⟨_, ?_, hcdie, hcarries, hlsr hwf⟩
    show execSnpInv p [] s = _
    unfold execSnpInv
    rw [hnone]
  · intro s p hlo hhi hsrc htakes hidle hline
    have hnone : s.snoopData (p.dst - 53) (sectorOf p.addr) [] = [] := ite_self _
    obtain ⟨-, hcarries, -⟩ := snoopAnswer (q := withMsg p 0x10) htakes _ _ _ _ none (snpInv_none htakes hlo hhi hsrc hidle [] hline)
    refine ⟨_, ?_, hcarries⟩
    show execSnpInv p [] s = _
    unfold execSnpInv
    rw [hnone]
  · intro s p data c hlo hhi hsrc htakes hidle hline he hlen hevict
    have hdata : s.snoopData (p.dst - 53) (sectorOf p.addr) data = data := if_neg (by simp [hevict])
    obtain ⟨hcdie, hcarries, -⟩ := snoopAnswer (q := withMsg p 0x11) htakes _ _ _ _ _ (snpShr_holder htakes hlo hhi hsrc hidle hlen hline he)
    refine ⟨_, ?_, hcdie, hcarries⟩
    show execSnpShr p data s = _
    unfold execSnpShr
    rw [hdata]
  · exact fun s p c hlo hhi hsrc htakes hidle hline hopen hlive =>
      ⟨_, rfl, snpFwd_holder (q := withMsg p 0x12) htakes hlo hhi hsrc hidle hline hopen hlive rfl⟩
  · intro s p hlo hhi htakes hbusy
    refine ⟨_, congrArg Host.Outcome.next (snoopArrive_deferred (p := withMsg p 0x12) _ hlo hhi htakes hbusy), ?_⟩
    have hcdie := (arrived_parts s (withMsg p 0x12)).1
    show (((s.arrived (withMsg p 0x12)).updCdie (p.dst - 53) (fun x => { x with defer := x.defer ++ [withMsg p 0x12] })).cdieOf
      (p.dst - 53)).defer = _
    rw [State.cdieOf_updCdie_same, State.cdieOf_of_cdie hcdie]
    exact fun h => absurd (congrArg CoreDie.defer h) (by simp)
  · exact fun s core addr c hfence hidle hzone hline hst => ⟨_, execCboZero_held hfence hidle hzone hline hst, setCLine_line _ _ _ s, rfl⟩
  · exact fun s core addr hfence hidle hzone hline hmay => ⟨_, execCboZero_asks hfence hidle hzone hline,
      requestAt_outstanding .coh _ false _ 0 _ hmay, requestAt_cdie _ _ _ _ _ _ _ s⟩
  · exact fun s core addr hfence hidle hzone => ⟨_, execCboZero_traps hfence hidle hzone, coreTrap_exc core 7 addr s, rfl⟩

end Sys2Proof.Machine
end

section
/-!
Coherence requests of the core dies at a home (11 R366 to R375), and O32.
-/
namespace Sys2Proof.Machine

set_option Elab.async false

/-! ## A home and its directory -/

/-- A stack's home that changes, and becomes no default one, reads as it was changed. -/
theorem State.homeOf_updHome {s : State} {h : Nat} {f : HomeSt → HomeSt} (hh : h < 49) (hne : f (s.homeOf h) ≠ {}) :
    (s.updHome h f).homeOf h = f (s.homeOf h) := by
  unfold State.updHome State.homeOf at *
  rw [if_pos hh] at hne
  rw [if_pos hh, if_pos hh, if_pos hh, State.stackOf_updStack_same (fun hstack => hne (congrArg Stack.home hstack))]

/-- A home is what the stacks say. -/
theorem State.homeOf_of_stack {s t : State} (h : t.stack = s.stack) {port : Nat} (hport : port < 49) : t.homeOf port = s.homeOf port := by
  unfold State.homeOf State.stackOf
  rw [if_pos hport, if_pos hport, h]

/-- Changing a stack's home changes the stacks only. -/
theorem State.updHome_stack (s : State) {h : Nat} (f : HomeSt → HomeSt) (hh : h < 49) : ∃ k, s.updHome h f = s.withStack k := by
  unfold State.updHome
  rw [if_pos hh]
  exact ⟨_, rfl⟩

/-- A sector that has no entry has the one that it is given, unless that has no holder. -/
theorem HomeSt.ent_setEnt_new {h : HomeSt} {d : DirEnt} {o : Nat} (hnone : h.ent d.sector = none) (howner : d.owner = some o) :
    (h.setEnt d).ent d.sector = some d := by
  have hany : h.dir.any (fun x => x.sector == d.sector) = false := by
    rw [List.any_eq_false]
    exact List.find?_eq_none.mp hnone
  unfold HomeSt.setEnt
  dsimp only
  rw [if_neg (by simp [hany]), if_pos (by simp [howner])]
  unfold HomeSt.ent at hnone ⊢
  dsimp only
  rw [List.find?_append, hnone]
  simp

/-- A sector's entry goes with its last holder. -/
theorem HomeSt.ent_dropHolder_last {h : HomeSt} {n die : Nat} (hent : h.ent n = some ⟨n, some die, [], none⟩) :
    (h.dropHolder n die).ent n = none := by
  have hany : h.dir.any (fun x => x.sector == n) = true := by
    rw [List.any_eq_true]
    exact ⟨_, List.mem_of_find?_eq_some hent, by simp⟩
  unfold HomeSt.dropHolder
  rw [hent]
  unfold HomeSt.setEnt
  dsimp only
  rw [if_pos hany]
  unfold HomeSt.ent
  dsimp only
  rw [List.find?_eq_none]
  intro x hx
  simpa [del] using (List.mem_filter.mp hx).2

theorem HomeSt.setEnt_ptr (h : HomeSt) (d : DirEnt) : (h.setEnt d).ptr = h.ptr := by
  unfold HomeSt.setEnt
  dsimp only
  split
  · rfl
  · split <;> rfl

theorem HomeSt.dropHolder_ptr (h : HomeSt) (n die : Nat) : (h.dropHolder n die).ptr = h.ptr := by
  unfold HomeSt.dropHolder
  split
  · rfl
  · exact HomeSt.setEnt_ptr _ _

theorem HomeSt.ne_default_of_ptr {h : HomeSt} (hptr : h.ptr ≠ 0) : h ≠ {} := fun e => hptr (congrArg HomeSt.ptr e)

/-! ## A request that has come to a home -/

/-- What a request that has come to a stack's home leaves: all but the hub, the links and the stacks; no fence changes, the hub has answered
no other request, and the request stands for itself still. -/
structure AtHome (s u : State) (p : Pkt) : Prop where
  eq : ∃ x l k, u = ((s.withHub x).withLink l).withStack k
  fence : ∀ q, u.fenced q = s.fenced q
  dropped : ∀ d, d ∈ u.hub.dropped → d ∈ s.hub.dropped
  origin : s.origin p = (p.src, p.tid) → u.origin p = (p.src, p.tid)

namespace AtHome
variable {s u : State} {p : Pkt} (h : AtHome s u p)
include h

theorem mem : u.mem = s.mem := by
  obtain ⟨x, l, k, e⟩ := h.eq
  rw [e]
  rfl

theorem zone (a : Nat) : u.zone a = s.zone a := by
  obtain ⟨x, l, k, e⟩ := h.eq
  rw [e]
  rfl

theorem lostUnit (n : Nat) : u.lostUnit n = s.lostUnit n := by
  obtain ⟨x, l, k, e⟩ := h.eq
  rw [e]
  rfl

/-- A change of the home. -/
theorem updHome {port : Nat} (f : HomeSt → HomeSt) (hport : port < 49) : AtHome s (u.updHome port f) p := by
  obtain ⟨k, hk⟩ := u.updHome_stack f hport
  rw [hk]
  obtain ⟨⟨x, l, j, e⟩, hfence, hdropped, horigin⟩ := h
  exact ⟨⟨x, l, k, by rw [e]; rfl⟩, hfence, hdropped, horigin⟩

end AtHome

/-- The request that a packet stands for follows from the outstanding ones. -/
theorem State.origin_of_outst {s t : State} {p : Pkt} (h : t.hub.outst = s.hub.outst) : t.origin p = s.origin p := by
  unfold State.origin State.findOutst
  rw [h]

theorem noteReq_origin {s : State} {p : Pkt} (n : Nat) (h : s.origin p = (p.src, p.tid)) : (s.noteReq p n).origin p = (p.src, p.tid) := by
  unfold State.noteReq
  dsimp only
  split
  · exact h
  · next hnone =>
    have hnone : s.findOutst p.src p.tid = none := by simpa using hnone
    unfold State.origin
    rw [State.findOutst_addOutst (o := ⟨p.src, p.tid, p.dst, p.op, p.addr, p.rdLen, _, n, false⟩) hnone]
    dsimp only
    split <;> rename_i huse
    · split at huse <;> cases huse
    · rfl

/-- A request stands for itself still when it has come. -/
theorem arrived_origin {s : State} {p : Pkt} (h : s.origin p = (p.src, p.tid)) : (s.arrived p).origin p = (p.src, p.tid) := by
  have hout : (s.arrived p).hub.outst = (s.sent p).hub.outst := leaveHub_outst p (s.sent p)
  rw [State.origin_of_outst hout]
  unfold State.sent
  split
  · exact h
  · rw [State.origin_of_outst (send_goes p _).outst]
    exact noteReq_origin _ h

/-- A request that has come leaves the room that another source has (02 R49). -/
theorem arrived_mayIssue {s : State} {p : Pkt} {src : Nat} (hsrc : p.src ≠ src) (h : s.mayIssue src) : (s.arrived p).mayIssue src := by
  obtain ⟨hroom, hnone⟩ := h
  have hout : (s.arrived p).hub.outst = (s.sent p).hub.outst := leaveHub_outst p (s.sent p)
  have hbound : (s.arrived p).hub.bound = (s.sent p).hub.bound := by
    show (leaveHub p (s.sent p)).hub.bound = _
    unfold leaveHub
    split
    · rfl
    · rw [freeSlotOf_hub]
      rfl
  have hsent : (s.sent p).outCount src = s.outCount src ∧ (s.sent p).hub.bound = s.hub.bound := by
    unfold State.sent
    split
    · exact ⟨rfl, rfl⟩
    · obtain ⟨⟨v, a, l, e⟩, -, -⟩ := send_goes p (s.noteReq p (answersOf p))
      have hcount : (s.noteReq p (answersOf p)).outCount src = s.outCount src := by
        unfold State.noteReq
        dsimp only
        split
        · rfl
        · unfold State.outCount State.addOutst
          rw [State.withHub_hub]
          simp [hsrc]
      refine ⟨?_, ?_⟩
      · rw [e]
        exact hcount
      · rw [e]
        exact (noteReq_hub s p _).2.1
  refine ⟨?_, fun b hb => hnone b ?_⟩
  · have hcount : (s.arrived p).outCount src = (s.sent p).outCount src := by
      unfold State.outCount
      rw [hout]
    rw [hcount, hsent.1]
    exact hroom
  · rw [← hsent.2, ← hbound]
    exact hb

/-- The state in which a home has given a request its turn. -/
theorem served_atHome {s : State} {p : Pkt} (hlo : 33 ≤ p.dst) (hhi : p.dst ≤ 48) : AtHome s (s.served p) p := by
  obtain ⟨x, l, k, e, hfence, hdropped⟩ := served_f s p hlo hhi
  refine ⟨⟨x, l, k, e⟩, hfence, hdropped, fun h => ?_⟩
  obtain ⟨j, hj⟩ := (s.arrived p).updHome_stack (fun x => { x with ptr := (p.src + 1) % 64 }) (h := p.dst) (by omega)
  have hserved : s.served p = (s.arrived p).withStack j := hj
  rw [hserved]
  exact arrived_origin h

/-- Its home has the pointer past the source, and is as it was otherwise. -/
theorem served_home {s : State} {p : Pkt} (hhi : p.dst ≤ 48) (hne : { s.homeOf p.dst with ptr := (p.src + 1) % 64 } ≠ ({} : HomeSt)) :
    (s.served p).homeOf p.dst = { s.homeOf p.dst with ptr := (p.src + 1) % 64 } := by
  obtain ⟨x, l, e⟩ := (arrived_comes s p).eq
  have hhome : (s.arrived p).homeOf p.dst = s.homeOf p.dst := by
    rw [e]
    rfl
  unfold State.served
  rw [State.homeOf_updHome (by omega) (by rw [hhome]; exact hne), hhome]

/-- The same for a core die's request. -/
theorem served_home_of_die {s : State} {p : Pkt} (hhi : p.dst ≤ 48) (hsrc : 53 ≤ p.src) (hsrc' : p.src ≤ 56) :
    (s.served p).homeOf p.dst = { s.homeOf p.dst with ptr := (p.src + 1) % 64 } :=
  served_home hhi (HomeSt.ne_default_of_ptr (by dsimp only; omega))

theorem served_mayIssue {s : State} {p : Pkt} {src : Nat} (hhi : p.dst ≤ 48) (hsrc : p.src ≠ src) (h : s.mayIssue src) :
    (s.served p).mayIssue src := by
  obtain ⟨j, hj⟩ := (s.arrived p).updHome_stack (fun x => { x with ptr := (p.src + 1) % 64 }) (h := p.dst) (by omega)
  have hserved : s.served p = (s.arrived p).withStack j := hj
  rw [hserved]
  exact arrived_mayIssue hsrc h

/-- A coherence request that its home takes is dealt with there (11 R374). -/
theorem cohRow_takes {s : State} {p : Pkt} (e : DramErr) (h : s.cohTakes p) (hlo : 33 ≤ p.dst) (hhi : p.dst ≤ 48)
    (hzone : s.zone p.addr = .direct) : cohRow p e s = cohArrive p.dst p e (s.served p) := by
  obtain ⟨htakes, hturn, hevict⟩ := h
  have hsent : (if s.onWay p || s.seenTid p.dst p.src p.tid || !s.mayCome p then s
      else send p (s.noteReq p (answersOf p))) = s.sent p := by
    obtain ⟨-, -, hseen, -, hmay, -⟩ := htakes
    unfold State.sent
    simp [hseen, hmay]
  unfold cohRow
  refine (if_neg ?_).trans ?_
  · unfold portDie
    rcases hevict with hon | hidle
    · simp [hon]
    · by_cases hport : 53 ≤ p.src ∧ p.src ≤ 56
      · rw [if_pos hport]
        simp [hidle]
      · rw [if_neg hport]
        simp
  unfold homeRow
  rw [if_pos (by omega)]
  dsimp only
  rw [hsent, if_pos (hturn hlo (by omega)), arriveReq_sent _ htakes]
  show cohAt p e (s.served p) = _
  have hz := ((served_atHome hlo hhi).zone p.addr).trans hzone
  unfold cohAt
  rw [hz]
  dsimp only
  rw [if_neg (by omega), if_neg (by omega), if_pos (by omega)]

/-! ## Its ticket and its start (R374, R375) -/

/-- Direct memory in service refuses no coherence request. -/
theorem accessErr_direct {s : State} {p : Pkt} (h : Nat) (hgather : isGather p = false) (hzone : s.zone p.addr = .direct)
    (hlost : s.lostUnit (p.addr / 4096) = false) : accessErr h p s = none := by
  have haddr : addrErr h p s p.addr = none := by
    have hplace : (s.place p.addr).getD p.addr = p.addr := phys_direct _ _ hzone
    unfold addrErr
    dsimp only
    rw [hzone, hplace]
    simp [hlost]
  unfold accessErr
  rw [if_neg (by simp [hgather])]
  simp [haddr]

/-- A home after a request's ticket has been taken off (R375). -/
def HomeSt.ticketOff (x : HomeSt) (p : Pkt) : HomeSt :=
  { x with tickets := upd [] x.tickets (sectorOf p.addr) (fun l => l.filter (fun j => j != leAt p.payload 2 2)) }

/-- A request for a sector that is in no transaction and for which no ticket is out is started (R374, R375). -/
theorem cohArrive_starts {s : State} {h : Nat} {p : Pkt} (e : DramErr) (hbusy : (s.homeOf h).busyAny [sectorOf p.addr] = false)
    (htickets : look [] (s.homeOf h).tickets (sectorOf p.addr) = []) : cohArrive h p e s = cohStart h p e (s.updHome h (fun x => x.ticketOff p)) := by
  unfold cohArrive
  dsimp only
  rw [hbusy, htickets, if_neg (by simp)]
  rfl

/-- A request for a sector in a transaction is answered RESP_RETRY (R375). -/
theorem cohArrive_busy {s : State} {h : Nat} {p : Pkt} (e : DramErr) (hbusy : (s.homeOf h).busyAny [sectorOf p.addr] = true) :
    cohArrive h p e s = cohRetry h p s := by
  unfold cohArrive
  dsimp only
  rw [hbusy, if_pos (by simp)]

/-! ## Grants (R373, R374) -/

/-- The grant of a sector that nobody holds: E for RD_S, M for the others, without data for ZERO (R373). -/
theorem finishCoh_unheld {s : State} {h : Nat} {p : Pkt} (e : DramErr) (hlo : 53 ≤ p.src) (hhi : p.src ≤ 56)
    (horigin : s.origin p = (p.src, p.tid)) (hent : (s.homeOf h).ent (sectorOf p.addr) = none)
    (hmsg : cohMsg p = 1 ∨ cohMsg p = 2 ∨ cohMsg p = 3 ∨ cohMsg p = 4) : finishCoh h p e s =
    grant h p e (if cohMsg p = 1 then 2 else 4) (cohMsg p != 4)
      (s.updHome h (fun x => x.setEnt ⟨sectorOf p.addr, some (p.src - 53), [], none⟩)) := by
  have hdie : portDie (s.origin p).1 = some (p.src - 53) := by
    rw [horigin]
    exact if_pos ⟨hlo, hhi⟩
  unfold finishCoh
  rw [hdie]
  dsimp only
  rw [hent]
  dsimp only [Option.getD_none]
  rcases hmsg with hm | hm | hm | hm
  · rw [hm]
    rfl
  · rw [hm]
    rfl
  · rw [hm]
    rfl
  · rw [hm]
    rfl

/-- A request for a sector that nobody holds is granted at once (R374). -/
theorem cohStart_unheld {s : State} {h : Nat} {p : Pkt} (e : DramErr) (hlo : 53 ≤ p.src) (hhi : p.src ≤ 56)
    (horigin : s.origin p = (p.src, p.tid)) (herr : accessErr h p s = none) (hent : (s.homeOf h).ent (sectorOf p.addr) = none)
    (hroom : (s.homeOf h).dir.length < 1048576) (hmsg : cohMsg p = 1 ∨ cohMsg p = 2 ∨ cohMsg p = 3 ∨ cohMsg p = 4) :
    cohStart h p e s = finishCoh h p e s := by
  have hdie : portDie (s.origin p).1 = some (p.src - 53) := by
    rw [horigin]
    exact if_pos ⟨hlo, hhi⟩
  have hfull : dirFull h (sectorOf p.addr) s = none := by
    unfold dirFull
    dsimp only
    rw [if_pos (by simp [hroom])]
  unfold cohStart
  dsimp only
  rw [hdie, herr]
  dsimp only
  rw [if_neg (by omega), hfull, hent]
  dsimp only [Option.getD_none]
  rcases hmsg with hm | hm | hm | hm
  · rw [hm]
    rfl
  · rw [hm]
    rfl
  · rw [hm]
    rfl
  · rw [hm]
    rfl

/-- The sector of a direct address begins in direct memory. -/
theorem State.zone_sector {s : State} {a : Nat} (h : s.zone a = .direct) : s.zone (a / 64 * 64) = .direct := by
  have hle : a / 64 * 64 ≤ a := Nat.div_mul_le_self a 64
  unfold State.zone at h ⊢
  split at h
  · next hbm =>
    split at h
    · cases h
    · split at h
      · cases h
      · split at h
        · cases h
        · rw [if_pos (by omega), if_neg (by omega), if_neg (by omega), if_neg (by omega)]
  · exfalso
    dsimp only at h
    repeat' split at h
    all_goals cases h

/-- A grant with data sends the sector as memory has it (R373). -/
theorem grant_data {s : State} {p : Pkt} (h code : Nat) (hzone : s.zone p.addr = .direct) (hck : s.mem.ckBad (sectorOf p.addr) = false) :
    grant h p .none code true s = send ⟨.respData, p.dst, p.src, p.tid, 0, s.mem.isPoison (sectorOf p.addr),
      s.mem.readN (64 * sectorOf p.addr) 64 ++ ([BitVec.ofNat 8 code, 1] ++ List.replicate 14 0),
      [crc32c (s.mem.readN (64 * sectorOf p.addr) 64)], 0⟩ s := by
  have hphys : s.phys (p.addr / 64 * 64) = 64 * sectorOf p.addr := by
    rw [phys_direct _ _ (State.zone_sector hzone), Nat.mul_comm]
    rfl
  have hsector : sectorOf (64 * sectorOf p.addr) = sectorOf p.addr := Nat.mul_div_cancel_left _ (by decide)
  unfold grant
  dsimp only
  rw [if_pos rfl, hphys, hsector, readCodes_ok h _ s (by simpa using hck), touchFrame_direct _ _ _ hzone]
  rfl

/-- A grant without data (R367). -/
theorem grant_dataless (s : State) (p : Pkt) (h code : Nat) (e : DramErr) : grant h p e code false s =
    send ⟨.respData, p.dst, p.src, p.tid, 0, false, [BitVec.ofNat 8 code, 0] ++ List.replicate 14 0, [], 0⟩ s := by
  unfold grant
  dsimp only
  rw [if_neg (by simp)]
  rfl

/-- A request of a core die for a sector that nobody holds and that is in no transaction: it is granted from a state in which the directory
names the die the owner (R374). -/
theorem cohRow_unheld {s : State} {p : Pkt} (e : DramErr) (htakes : s.cohTakes p) (hlo : 33 ≤ p.dst) (hhi : p.dst ≤ 48)
    (hzone : s.zone p.addr = .direct) (hgather : isGather p = false) (hlost : s.lostUnit (p.addr / 4096) = false)
    (hent : (s.homeOf p.dst).ent (sectorOf p.addr) = none) (hbusy : (s.homeOf p.dst).busyAny [sectorOf p.addr] = false)
    (hsrc : 53 ≤ p.src) (hsrc' : p.src ≤ 56) (horigin : s.origin p = (p.src, p.tid))
    (htickets : look [] (s.homeOf p.dst).tickets (sectorOf p.addr) = []) (hroom : (s.homeOf p.dst).dir.length < 1048576)
    (hmsg : cohMsg p = 1 ∨ cohMsg p = 2 ∨ cohMsg p = 3 ∨ cohMsg p = 4) : ∃ v, AtHome s v p ∧
    (v.homeOf p.dst).ent (sectorOf p.addr) = some ⟨sectorOf p.addr, some (p.src - 53), [], none⟩ ∧
    cohRow p e s = grant p.dst p e (if cohMsg p = 1 then 2 else 4) (cohMsg p != 4) v := by
  have hhome := served_home_of_die (s := s) hhi hsrc hsrc'
  have hat := served_atHome (s := s) hlo hhi
  rw [cohRow_takes e htakes hlo hhi hzone, cohArrive_starts e (by rw [hhome]; exact hbusy) (by rw [hhome]; exact htickets)]
  have hoff : ((s.served p).updHome p.dst (fun x => x.ticketOff p)).homeOf p.dst =
      ({ s.homeOf p.dst with ptr := (p.src + 1) % 64 } : HomeSt).ticketOff p := by
    rw [State.homeOf_updHome (by omega), hhome]
    rw [hhome]
    exact HomeSt.ne_default_of_ptr (by dsimp only [HomeSt.ticketOff]; omega)
  have hat' : AtHome s ((s.served p).updHome p.dst (fun x => x.ticketOff p)) p := hat.updHome _ (by omega)
  generalize (s.served p).updHome p.dst (fun x => x.ticketOff p) = u at hoff hat' ⊢
  have hent' : (u.homeOf p.dst).ent (sectorOf p.addr) = none := by
    rw [hoff]
    exact hent
  have herr := accessErr_direct p.dst hgather ((hat'.zone _).trans hzone) ((hat'.lostUnit _).trans hlost)
  rw [cohStart_unheld e hsrc hsrc' (hat'.origin horigin) herr hent' (by rw [hoff]; exact hroom) hmsg,
    finishCoh_unheld e hsrc hsrc' (hat'.origin horigin) hent' hmsg]
  refine ⟨_, hat'.updHome _ (by omega), ?_, rfl⟩
  rw [State.homeOf_updHome (by omega)]
  · exact HomeSt.ent_setEnt_new hent' rfl
  · refine HomeSt.ne_default_of_ptr ?_
    rw [HomeSt.setEnt_ptr, hoff]
    dsimp only [HomeSt.ticketOff]
    omega

/-- The answer that a home sends for a request that it has taken is on its way; its directory and the memory stay. -/
theorem AtHome.sends {s v : State} {p : Pkt} (hat : AtHome s v p) (htakes : s.takes p) (hhi : p.dst ≤ 48) {r : Pkt} (hsrc : r.src = p.dst)
    (hdst : r.dst = p.src) (htid : r.tid = p.tid) :
    (send r v).homeOf p.dst = v.homeOf p.dst ∧ (send r v).carries r ∧ (send r v).mem = s.mem := by
  obtain ⟨hsrcOpen, hdstOpen, -, hlive, -⟩ := htakes
  refine ⟨State.homeOf_of_stack ((send_keeps r v (Keeps.rfl' _ v) (Within.rfl' _)).same .stack) (by omega), ?_, (send_mem r v).trans hat.mem⟩
  refine send_carries r v ?_ ?_ ?_
  · rw [hsrc, hat.fence, hdstOpen]
  · rw [hdst, hat.fence, hsrcOpen]
  · rintro ⟨-, hd⟩
    rw [hdst, htid] at hd
    exact hlive (hat.dropped _ hd)

/-- A request with data for a sector that nobody holds (R373, R374). -/
theorem cohRow_grants {s : State} {p : Pkt} {code : Nat} (htakes : s.cohTakes p) (hlo : 33 ≤ p.dst) (hhi : p.dst ≤ 48)
    (hzone : s.zone p.addr = .direct) (hgather : isGather p = false) (hlost : s.lostUnit (p.addr / 4096) = false)
    (hent : (s.homeOf p.dst).ent (sectorOf p.addr) = none) (hbusy : (s.homeOf p.dst).busyAny [sectorOf p.addr] = false)
    (hsrc : 53 ≤ p.src) (hsrc' : p.src ≤ 56) (horigin : s.origin p = (p.src, p.tid))
    (htickets : look [] (s.homeOf p.dst).tickets (sectorOf p.addr) = []) (hroom : (s.homeOf p.dst).dir.length < 1048576)
    (hck : s.mem.ckBad (sectorOf p.addr) = false) (hmsg : cohMsg p = 1 ∧ code = 2 ∨ (cohMsg p = 2 ∨ cohMsg p = 3) ∧ code = 4) :
    ((cohRow p .none s).homeOf p.dst).ent (sectorOf p.addr) = some ⟨sectorOf p.addr, some (p.src - 53), [], none⟩ ∧
    (cohRow p .none s).carries ⟨.respData, p.dst, p.src, p.tid, 0, s.mem.isPoison (sectorOf p.addr),
      s.mem.readN (64 * sectorOf p.addr) 64 ++ ([BitVec.ofNat 8 code, 1] ++ List.replicate 14 0),
      [crc32c (s.mem.readN (64 * sectorOf p.addr) 64)], 0⟩ ∧ (cohRow p .none s).mem = s.mem := by
  obtain ⟨v, hat, hv, hrow⟩ := cohRow_unheld .none htakes hlo hhi hzone hgather hlost hent hbusy hsrc hsrc' horigin htickets hroom
    (by omega)
  have hcode : (if cohMsg p = 1 then 2 else 4) = code := by
    split <;> omega
  have hdata : (cohMsg p != 4) = true := by
    simp
    omega
  rw [hcode, hdata, grant_data _ _ ((hat.zone _).trans hzone) (by rw [hat.mem]; exact hck), hat.mem] at hrow
  generalize hr : (⟨.respData, p.dst, p.src, p.tid, 0, s.mem.isPoison (sectorOf p.addr),
    s.mem.readN (64 * sectorOf p.addr) 64 ++ ([BitVec.ofNat 8 code, 1] ++ List.replicate 14 0),
    [crc32c (s.mem.readN (64 * sectorOf p.addr) 64)], 0⟩ : Pkt) = r at hrow ⊢
  obtain ⟨hhome, hcarries, hmem⟩ := hat.sends (r := r) htakes.1 hhi (by rw [← hr]) (by rw [← hr]) (by rw [← hr])
  rw [hrow]
  exact ⟨hhome ▸ hv, hcarries, hmem⟩

/-- ZERO for a sector that nobody holds (R367, R373). -/
theorem cohRow_grantsZero {s : State} {p : Pkt} (htakes : s.cohTakes p) (hlo : 33 ≤ p.dst) (hhi : p.dst ≤ 48)
    (hzone : s.zone p.addr = .direct) (hgather : isGather p = false) (hlost : s.lostUnit (p.addr / 4096) = false)
    (hent : (s.homeOf p.dst).ent (sectorOf p.addr) = none) (hbusy : (s.homeOf p.dst).busyAny [sectorOf p.addr] = false)
    (hsrc : 53 ≤ p.src) (hsrc' : p.src ≤ 56) (horigin : s.origin p = (p.src, p.tid))
    (htickets : look [] (s.homeOf p.dst).tickets (sectorOf p.addr) = []) (hroom : (s.homeOf p.dst).dir.length < 1048576)
    (hmsg : cohMsg p = 4) :
    ((cohRow p .none s).homeOf p.dst).ent (sectorOf p.addr) = some ⟨sectorOf p.addr, some (p.src - 53), [], none⟩ ∧
    (cohRow p .none s).carries ⟨.respData, p.dst, p.src, p.tid, 0, false, ([4, 0] ++ List.replicate 14 0), [], 0⟩ ∧
    (cohRow p .none s).mem = s.mem := by
  obtain ⟨v, hat, hv, hrow⟩ := cohRow_unheld .none htakes hlo hhi hzone hgather hlost hent hbusy hsrc hsrc' horigin htickets hroom
    (by omega)
  have hdata : (cohMsg p != 4) = false := by simp [hmsg]
  rw [if_neg (by omega), hdata, grant_dataless] at hrow
  obtain ⟨hhome, hcarries, hmem⟩ := hat.sends (r := ⟨.respData, p.dst, p.src, p.tid, 0, false, [BitVec.ofNat 8 4, 0] ++ List.replicate 14 0, [],
    0⟩) htakes.1 hhi rfl rfl rfl
  rw [hrow]
  exact ⟨hhome ▸ hv, hcarries, hmem⟩

/-! ## Another owner, a busy sector, an eviction notice -/

/-- RD_X for a sector that another die owns starts with a snoop of the owner (R372, R374). -/
theorem cohStart_owned {s : State} {h o : Nat} {p : Pkt} (e : DramErr) (hlo : 53 ≤ p.src) (hhi : p.src ≤ 56)
    (horigin : s.origin p = (p.src, p.tid)) (herr : accessErr h p s = none)
    (hent : (s.homeOf h).ent (sectorOf p.addr) = some ⟨sectorOf p.addr, some o, [], none⟩) (hother : o ≠ p.src - 53) (hmsg : cohMsg p = 2) :
    cohStart h p e s = startTxn h [sectorOf p.addr] [(sectorOf p.addr, o, 0x10)] (.grant p e) 0 0 s := by
  have hdie : portDie (s.origin p).1 = some (p.src - 53) := by
    rw [horigin]
    exact if_pos ⟨hlo, hhi⟩
  have hfull : dirFull h (sectorOf p.addr) s = none := by
    unfold dirFull
    dsimp only
    rw [hent, if_pos (by simp)]
  unfold cohStart
  dsimp only
  rw [hdie, herr]
  dsimp only
  rw [if_neg (by omega), hfull, hent, hmsg]
  have hothers : List.filter (fun x => x != p.src - 53) [o] = [o] := by simp [hother]
  show (if (List.filter (fun x => x != p.src - 53) [o]).isEmpty = true then _ else startTxn h [sectorOf p.addr]
    (List.map (fun x => (sectorOf p.addr, x, 0x10)) (List.filter (fun x => x != p.src - 53) [o])) _ 0 0 s) = _
  rw [hothers]
  rfl

/-- A transaction with one snoop: the home is busy with it, and the snoop is outstanding (R372, R374). -/
theorem startTxn_snoops {s : State} {h n o msg : Nat} {job : HomeJob} (hh : h < 49) (ho : o < 4) (hmay : s.mayIssue h) :
    (startTxn h [n] [(n, o, msg)] job 0 0 s).homeOf h = { s.homeOf h with busy := (s.homeOf h).busy ++ [⟨[n], [(n, o)], job⟩] } ∧
    ∃ r ∈ (startTxn h [n] [(n, o, msg)] job 0 0 s).hub.outst, r.src = h ∧ r.dst = 53 + o ∧ r.use = .snoop h (64 * n) o := by
  have hhome : (s.updHome h (fun x => { x with busy := x.busy ++ [⟨[n], [(n, o)], job⟩] })).homeOf h =
      { s.homeOf h with busy := (s.homeOf h).busy ++ [⟨[n], [(n, o)], job⟩] } :=
    State.homeOf_updHome hh (fun e => by simpa using congrArg HomeSt.busy e)
  obtain ⟨k, hk⟩ := s.updHome_stack (fun x => { x with busy := x.busy ++ [⟨[n], [(n, o)], job⟩] }) hh
  have hmay' : (s.updHome h (fun x => { x with busy := x.busy ++ [⟨[n], [(n, o)], job⟩] })).mayIssue h := by
    rw [hk]
    exact hmay
  have hstart : startTxn h [n] [(n, o, msg)] job 0 0 s =
      snoop h msg n o 0 0 (s.updHome h (fun x => { x with busy := x.busy ++ [⟨[n], [(n, o)], job⟩] })) := rfl
  rw [hstart]
  generalize s.updHome h (fun x => { x with busy := x.busy ++ [⟨[n], [(n, o)], job⟩] }) = u at hhome hmay' ⊢
  unfold snoop
  rw [request_mayIssue _ (by exact hmay')]
  constructor
  · rw [← hhome]
    exact State.homeOf_of_stack ((issue_keeps _ _ u (Keeps.rfl' _ u) (Within.rfl' _)).same .stack) hh
  · rw [issue_outst _ _ _ (by unfold noPort; dsimp only; omega)]
    exact ⟨_, List.mem_append_right _ (List.mem_singleton.mpr rfl), rfl, rfl, rfl⟩

/-- RD_X of a core die for a sector that another owns (R374). -/
theorem cohRow_owned {s : State} {p : Pkt} {o : Nat} (e : DramErr) (htakes : s.cohTakes p) (hlo : 33 ≤ p.dst) (hhi : p.dst ≤ 48)
    (hzone : s.zone p.addr = .direct) (hgather : isGather p = false) (hlost : s.lostUnit (p.addr / 4096) = false)
    (hsrc : 53 ≤ p.src) (hsrc' : p.src ≤ 56) (horigin : s.origin p = (p.src, p.tid))
    (htickets : look [] (s.homeOf p.dst).tickets (sectorOf p.addr) = []) (hbusy : (s.homeOf p.dst).busy = [])
    (hent : (s.homeOf p.dst).ent (sectorOf p.addr) = some ⟨sectorOf p.addr, some o, [], none⟩) (hother : o ≠ p.src - 53) (ho : o < 4)
    (hmay : s.mayIssue p.dst) (hmsg : cohMsg p = 2) :
    ((cohRow p e s).homeOf p.dst).busy = [⟨[sectorOf p.addr], [(sectorOf p.addr, o)], .grant p e⟩] ∧
    ((cohRow p e s).homeOf p.dst).ent (sectorOf p.addr) = some ⟨sectorOf p.addr, some o, [], none⟩ ∧
    ∃ r ∈ (cohRow p e s).hub.outst, r.src = p.dst ∧ r.dst = 53 + o ∧ r.use = .snoop p.dst (64 * sectorOf p.addr) o := by
  have hhome := served_home_of_die (s := s) hhi hsrc hsrc'
  have hat := served_atHome (s := s) hlo hhi
  have hfree : ((s.served p).homeOf p.dst).busyAny [sectorOf p.addr] = false := by
    rw [hhome]
    unfold HomeSt.busyAny
    rw [hbusy]
    rfl
  rw [cohRow_takes e htakes hlo hhi hzone, cohArrive_starts e hfree (by rw [hhome]; exact htickets)]
  have hoff : ((s.served p).updHome p.dst (fun x => x.ticketOff p)).homeOf p.dst =
      ({ s.homeOf p.dst with ptr := (p.src + 1) % 64 } : HomeSt).ticketOff p := by
    rw [State.homeOf_updHome (by omega), hhome]
    rw [hhome]
    exact HomeSt.ne_default_of_ptr (by dsimp only [HomeSt.ticketOff]; omega)
  have hat' : AtHome s ((s.served p).updHome p.dst (fun x => x.ticketOff p)) p := hat.updHome _ (by omega)
  have hmay' : ((s.served p).updHome p.dst (fun x => x.ticketOff p)).mayIssue p.dst := by
    obtain ⟨k, hk⟩ := (s.served p).updHome_stack (fun x => x.ticketOff p) (h := p.dst) (by omega)
    rw [hk]
    exact served_mayIssue hhi (by omega) hmay
  generalize (s.served p).updHome p.dst (fun x => x.ticketOff p) = u at hoff hat' hmay' ⊢
  have hent' : (u.homeOf p.dst).ent (sectorOf p.addr) = some ⟨sectorOf p.addr, some o, [], none⟩ := by
    rw [hoff]
    exact hent
  have herr := accessErr_direct p.dst hgather ((hat'.zone _).trans hzone) ((hat'.lostUnit _).trans hlost)
  rw [cohStart_owned e hsrc hsrc' (hat'.origin horigin) herr hent' hother hmsg]
  obtain ⟨hstarted, hout⟩ := startTxn_snoops (n := sectorOf p.addr) (msg := 0x10) (job := .grant p e) (by omega) ho hmay'
  rw [hstarted]
  refine ⟨?_, hent', hout⟩
  dsimp only
  rw [hoff]
  dsimp only [HomeSt.ticketOff]
  rw [hbusy]
  rfl

/-- The home after it has given a ticket for a sector (R375). -/
def HomeSt.ticketOut (x : HomeSt) (n tk : Nat) : HomeSt :=
  { x with nextTicket := if tk = 65535 then 1 else tk + 1, tickets := upd [] x.tickets n (fun l => l ++ [tk]) }

theorem HomeSt.ticketOut_tickets (x : HomeSt) (n tk : Nat) : look [] (x.ticketOut n tk).tickets n = look [] x.tickets n ++ [tk] :=
  look_put_new _ _ _ (by simp)

/-- A request without a ticket for a sector in a transaction gets one (R375). -/
theorem cohRow_retries {s : State} {p : Pkt} (e : DramErr) (htakes : s.cohTakes p) (hlo : 33 ≤ p.dst) (hhi : p.dst ≤ 48)
    (hzone : s.zone p.addr = .direct) (hbusy : (s.homeOf p.dst).busyAny [sectorOf p.addr] = true) (hticket : leAt p.payload 2 2 = 0) :
    (cohRow p e s).carries (answer .respRetry p (s.homeOf p.dst).nextTicket false []) ∧
    look [] ((cohRow p e s).homeOf p.dst).tickets (sectorOf p.addr) =
      look [] (s.homeOf p.dst).tickets (sectorOf p.addr) ++ [(s.homeOf p.dst).nextTicket] := by
  have hne : { s.homeOf p.dst with ptr := (p.src + 1) % 64 } ≠ ({} : HomeSt) := fun h => by
    have hnone : (s.homeOf p.dst).busy = [] := congrArg HomeSt.busy h
    unfold HomeSt.busyAny at hbusy
    rw [hnone] at hbusy
    cases hbusy
  have hhome := served_home hhi hne
  have hat := served_atHome (s := s) hlo hhi
  rw [cohRow_takes e htakes hlo hhi hzone, cohArrive_busy e (by rw [hhome]; exact hbusy)]
  have hretry : cohRetry p.dst p (s.served p) = send (answer .respRetry p (s.homeOf p.dst).nextTicket false [])
      ((s.served p).updHome p.dst (fun x => x.ticketOut (sectorOf p.addr) (s.homeOf p.dst).nextTicket)) := by
    unfold cohRetry
    dsimp only
    rw [hticket, if_neg (by simp), hhome]
    rfl
  have hout : ((s.served p).updHome p.dst (fun x => x.ticketOut (sectorOf p.addr) (s.homeOf p.dst).nextTicket)).homeOf p.dst =
      ({ s.homeOf p.dst with ptr := (p.src + 1) % 64 } : HomeSt).ticketOut (sectorOf p.addr) (s.homeOf p.dst).nextTicket := by
    rw [State.homeOf_updHome (by omega), hhome]
    intro h
    have hempty := HomeSt.ticketOut_tickets ((s.served p).homeOf p.dst) (sectorOf p.addr) (s.homeOf p.dst).nextTicket
    rw [h] at hempty
    simp [look] at hempty
  have hat' : AtHome s ((s.served p).updHome p.dst (fun x => x.ticketOut (sectorOf p.addr) (s.homeOf p.dst).nextTicket)) p :=
    hat.updHome _ (by omega)
  rw [hretry]
  generalize (s.served p).updHome p.dst (fun x => x.ticketOut (sectorOf p.addr) (s.homeOf p.dst).nextTicket) = u at hout hat' ⊢
  obtain ⟨hkept, hcarries, -⟩ := hat'.sends htakes.1 hhi (r := answer .respRetry p (s.homeOf p.dst).nextTicket false []) rfl rfl rfl
  refine ⟨hcarries, ?_⟩
  rw [hkept, hout]
  exact HomeSt.ticketOut_tickets _ _ _

/-- An eviction notice of the owner takes it out of the directory and is acknowledged (R370, R372). -/
theorem cohRow_evicts {s : State} {p : Pkt} (htakes : s.cohTakes p) (hlo : 33 ≤ p.dst) (hhi : p.dst ≤ 48)
    (hzone : s.zone p.addr = .direct) (hgather : isGather p = false) (hlost : s.lostUnit (p.addr / 4096) = false)
    (htickets : look [] (s.homeOf p.dst).tickets (sectorOf p.addr) = []) (hsrc : 53 ≤ p.src) (hsrc' : p.src ≤ 56)
    (horigin : s.origin p = (p.src, p.tid)) (hbusy : (s.homeOf p.dst).busyAny [sectorOf p.addr] = false)
    (hent : (s.homeOf p.dst).ent (sectorOf p.addr) = some ⟨sectorOf p.addr, some (p.src - 53), [], none⟩) (hmsg : cohMsg p = 5) :
    ((cohRow p .none s).homeOf p.dst).ent (sectorOf p.addr) = none ∧ (cohRow p .none s).carries (answer .respAck p 0 false []) ∧
    (cohRow p .none s).mem = s.mem := by
  have hhome := served_home_of_die (s := s) hhi hsrc hsrc'
  have hat := served_atHome (s := s) hlo hhi
  rw [cohRow_takes .none htakes hlo hhi hzone, cohArrive_starts .none (by rw [hhome]; exact hbusy) (by rw [hhome]; exact htickets)]
  have hoff : ((s.served p).updHome p.dst (fun x => x.ticketOff p)).homeOf p.dst =
      ({ s.homeOf p.dst with ptr := (p.src + 1) % 64 } : HomeSt).ticketOff p := by
    rw [State.homeOf_updHome (by omega), hhome]
    rw [hhome]
    exact HomeSt.ne_default_of_ptr (by dsimp only [HomeSt.ticketOff]; omega)
  have hat' : AtHome s ((s.served p).updHome p.dst (fun x => x.ticketOff p)) p := hat.updHome _ (by omega)
  generalize (s.served p).updHome p.dst (fun x => x.ticketOff p) = u at hoff hat' ⊢
  have herr := accessErr_direct p.dst hgather ((hat'.zone _).trans hzone) ((hat'.lostUnit _).trans hlost)
  have hdie : portDie (u.origin p).1 = some (p.src - 53) := by
    rw [hat'.origin horigin]
    exact if_pos ⟨hsrc, hsrc'⟩
  have hstart : cohStart p.dst p .none u = releaseLine p.dst (sectorOf p.addr) (send (answer .respAck p 0 false [])
      (u.updHome p.dst (fun x => x.dropHolder (sectorOf p.addr) (p.src - 53)))) := by
    unfold cohStart
    dsimp only
    rw [hdie, herr]
    dsimp only
    rw [if_pos hmsg]
  have hdropped : (u.updHome p.dst (fun x => x.dropHolder (sectorOf p.addr) (p.src - 53))).homeOf p.dst =
      (u.homeOf p.dst).dropHolder (sectorOf p.addr) (p.src - 53) := State.homeOf_updHome (by omega) (HomeSt.ne_default_of_ptr (by
    rw [HomeSt.dropHolder_ptr, hoff]
    dsimp only [HomeSt.ticketOff]
    omega))
  have hat'' : AtHome s (u.updHome p.dst (fun x => x.dropHolder (sectorOf p.addr) (p.src - 53))) p := hat'.updHome _ (by omega)
  rw [hstart]
  generalize u.updHome p.dst (fun x => x.dropHolder (sectorOf p.addr) (p.src - 53)) = v at hdropped hat'' ⊢
  obtain ⟨hkept, hcarries, hmem⟩ := hat''.sends htakes.1 hhi (r := answer .respAck p 0 false []) rfl rfl rfl
  generalize send (answer .respAck p 0 false []) v = w at hkept hcarries hmem ⊢
  obtain ⟨y, hy⟩ := releaseLine_pool p.dst (sectorOf p.addr) w
  rw [hy]
  refine ⟨?_, hcarries, hmem⟩
  have hsame : (w.withPool y).homeOf p.dst = w.homeOf p.dst :=
    State.homeOf_of_stack (s := w) (t := w.withPool y) rfl (by omega)
  rw [hsame, hkept, hdropped]
  exact HomeSt.ent_dropHolder_last (by rw [hoff]; exact hent)

/-! ## The notice's line leaves its die (R370) -/

/-- A state with other core dies and cores. -/
def State.withDies (s : State) (x : FMap CoreDie) (y : FMap CoreSt) : State := (s.withCdie x).withCore y

section Dies
variable (s : State) (x : FMap CoreDie) (y : FMap CoreSt)

theorem freeSlotOf_withDies (sd : Side) (v : Voq) : freeSlotOf sd v (s.withDies x y) = (freeSlotOf sd v s).withDies x y := by
  unfold freeSlotOf
  cases sd <;> dsimp only <;> split <;> rfl

theorem pump_withDies (n dst : Nat) : pump n dst (s.withDies x y) = (pump n dst s).withDies x y := by
  induction n generalizing s with
  | zero => rfl
  | succ n ih =>
    have hup : (s.withDies x y).portUp dst = s.portUp dst := rfl
    have hlink : (s.withDies x y).linkOf dst = s.linkOf dst := rfl
    have hhub : (s.withDies x y).hub = s.hub := rfl
    simp only [pump, hup, hlink, hhub]
    split
    · rfl
    · split
      · rfl
      · split
        · rfl
        · rw [← ih, ← freeSlotOf_withDies]
          congr 2
          split <;> rfl

theorem hubSays_withDies (p : Pkt) : hubSays p (s.withDies x y) = (hubSays p s).withDies x y :=
  pump_withDies (s.addVoq p false true) x y _ _

theorem hubTake_withDies (p : Pkt) (aside made : Bool) : hubTake p aside made (s.withDies x y) = (hubTake p aside made s).withDies x y := by
  have hfence : (s.withDies x y).fenced p.dst = s.fenced p.dst := rfl
  have hhub : (s.withDies x y).hub = s.hub := rfl
  unfold hubTake
  dsimp only
  rw [hfence, hhub, freeSlotOf_withDies, hubSays_withDies]
  split
  · split <;> rfl
  · split
    · rfl
    · exact pump_withDies (s.addVoq p aside made) x y _ _

theorem send_withDies (p : Pkt) : send p (s.withDies x y) = (send p s).withDies x y := by
  have hfence : (s.withDies x y).fenced p.src = s.fenced p.src := rfl
  have hup : (s.withDies x y).portUp p.src = s.portUp p.src := rfl
  have hlink : (s.withDies x y).linkOf p.src = s.linkOf p.src := rfl
  unfold send sendWith
  rw [hfence, hup, hlink, hubTake_withDies]
  split
  · rfl
  · split
    · rfl
    · split
      · exact hubTake_withDies (s.updLink p.src (fun l => { l with die := l.die.push .die false p })) x y p false false
      · rfl

theorem noteReq_withDies (p : Pkt) (n : Nat) : (s.withDies x y).noteReq p n = (s.noteReq p n).withDies x y := by
  have hfind : (s.withDies x y).findOutst p.src p.tid = s.findOutst p.src p.tid := rfl
  unfold State.noteReq
  dsimp only
  rw [hfind]
  split <;> rfl

theorem sent_withDies (p : Pkt) : (s.withDies x y).sent p = (s.sent p).withDies x y := by
  have hon : (s.withDies x y).onWay p = s.onWay p := rfl
  unfold State.sent
  rw [hon, noteReq_withDies, send_withDies]
  split <;> rfl

/-- A home takes a coherence request whatever the core dies and the cores hold. -/
theorem cohTakes_withDies {s : State} {p : Pkt} (h : s.cohTakes p) : (s.withDies x y).cohTakes p := by
  obtain ⟨⟨hsrc, hdst, hseen, hlive, hmay, harrive⟩, hturn, hevict⟩ := h
  refine ⟨⟨hsrc, hdst, hseen, hlive, hmay, ?_⟩, fun hlo hhi => ?_, hevict⟩
  · rw [sent_withDies]
    exact harrive
  · rw [sent_withDies]
    exact hturn hlo hhi

end Dies

/-- A line that leaves its die changes the core dies and the cores only (R370, R382). -/
theorem lineGone_dies (die n : Nat) (s : State) : ∃ x y, lineGone die n s = s.withDies x y := by
  have hdrop : ∀ u : State, ∃ y, dropLr die n u = u.withCore y := fun u => by
    refine foldl_inv (fun t => ∃ y, t = u.withCore y) _ (fun t i ⟨y, hy⟩ => ?_) _ u ⟨u.core, rfl⟩
    subst hy
    split
    · exact ⟨_, rfl⟩
    · exact ⟨y, rfl⟩
  unfold lineGone
  split
  · split
    · obtain ⟨y, hy⟩ := hdrop (setCLine die n none s)
      exact ⟨_, y, hy⟩
    · exact ⟨s.cdie, s.core, rfl⟩
  · exact ⟨s.cdie, s.core, rfl⟩

/-- EVN comes to its home from a state that differs in the core dies and the cores only (R370, R372). -/
theorem execEvn_comes (s : State) (p : Pkt) : ∃ x y, exec (.evn p) s = .next (cohRow (withMsg p 0x05) .none (s.withDies x y)) := by
  show ∃ x y, execEvn p s = _
  unfold execEvn
  dsimp only
  split
  · split
    · exact ⟨s.cdie, s.core, rfl⟩
    · obtain ⟨x, y, h⟩ := lineGone_dies _ (sectorOf (withMsg p 0x05).addr) s
      exact ⟨x, y, by rw [h]⟩
  · exact ⟨s.cdie, s.core, rfl⟩

/-! ## O32 -/

/-- Settles O32: each request by what its home does with it. -/
theorem coherenceAtTheHome : Obligations.CoherenceAtTheHome := by
  unfold Obligations.CoherenceAtTheHome
  refine ⟨?_, ?_, ?_, ?_, ?_, ?_, ?_⟩
  · exact fun s p htakes hlo hhi hzone hlost hent hbusy hsrc hsrc' horigin htickets hroom hck => ⟨_, rfl,
      cohRow_grants (p := withMsg p 0x01) (code := 2) htakes hlo hhi hzone rfl hlost hent hbusy hsrc hsrc' horigin htickets hroom hck
        (.inl ⟨rfl, rfl⟩)⟩
  · exact fun s p htakes hlo hhi hzone hlost hent hbusy hsrc hsrc' horigin htickets hroom hck => ⟨_, rfl,
      cohRow_grants (p := withMsg p 0x02) (code := 4) htakes hlo hhi hzone rfl hlost hent hbusy hsrc hsrc' horigin htickets hroom hck
        (.inr ⟨.inl rfl, rfl⟩)⟩
  · exact fun s p htakes hlo hhi hzone hlost hent hbusy hsrc hsrc' horigin htickets hroom hck => ⟨_, rfl,
      cohRow_grants (p := withMsg p 0x03) (code := 4) htakes hlo hhi hzone rfl hlost hent hbusy hsrc hsrc' horigin htickets hroom hck
        (.inr ⟨.inr rfl, rfl⟩)⟩
  · exact fun s p htakes hlo hhi hzone hlost hent hbusy hsrc hsrc' horigin htickets hroom => ⟨_, rfl,
      cohRow_grantsZero (p := withMsg p 0x04) htakes hlo hhi hzone rfl hlost hent hbusy hsrc hsrc' horigin htickets hroom rfl⟩
  · exact fun s p e o htakes hlo hhi hzone hlost hsrc hsrc' horigin htickets hbusy hent hother ho hmay => ⟨_, rfl,
      cohRow_owned (p := withMsg p 0x02) e htakes hlo hhi hzone rfl hlost hsrc hsrc' horigin htickets hbusy hent hother ho hmay rfl⟩
  · exact fun s p e htakes hlo hhi hzone hbusy hticket => ⟨_, rfl,
      cohRow_retries (p := withMsg p 0x01) e htakes hlo hhi hzone hbusy hticket⟩
  · intro s p htakes hlo hhi hzone hlost htickets hsrc hsrc' horigin hbusy hent hwf
    obtain ⟨x, y, hnext⟩ := execEvn_comes s p
    exact ⟨_, hnext, cohRow_evicts (p := withMsg p 0x05) (s := s.withDies x y) (cohTakes_withDies x y htakes) hlo hhi hzone rfl hlost htickets
      hsrc hsrc' horigin hbusy hent rfl⟩

end Sys2Proof.Machine
end
